-- ==== Sys2Proof/Word.lean ====
section
/-! DEFINITION. The word types of the register space and of memory (R3), and their plainest arithmetic. -/
namespace Sys2Proof

/-- A 32-bit register word (R3). -/
abbrev Word := BitVec 32

/-- One byte of memory. -/
abbrev Byte := BitVec 8

/-- A run of bytes, first byte first. -/
abbrev Bytes := List Byte

/-- The 32-bit word of a natural number, wrapping. -/
abbrev w32 (n : Nat) : Word := BitVec.ofNat 32 n

/-- A complex sample or tone: I, then Q. -/
abbrev Cx := Int × Int

/-- The byte of a natural number, wrapping. -/
abbrev b8 (n : Nat) : Byte := BitVec.ofNat 8 n

end Sys2Proof
end

