-- ==== Sys2Proof/Syntax.lean ====
section
/-! DEFINITION. The commands of the block: one constructor of `Instr` per row of spec/opcode_table.json, with its operands.
A register command carries the requester that sends it; an event command carries what the outside world brings to it. -/
namespace Sys2Proof

/-- Who sends an access (R10, R380). -/
inductive Req where
  | core (n : Nat)
  | kiln
  | tally
  | evtCtl
  | pcie (f : Nat)
  | rkn (k : Nat)
  | rcore (r : Nat)
  | smbus
  | jtag
  | engine (region block : Nat)
  deriving DecidableEq, Repr


/-- A request that arrives at a DRAM channel (R419): bank, rank, row, whether a write, block of the requester's region, real-time port, requester ID. -/
structure DramArrival where
  bank : Nat
  rank : Nat
  row : Nat
  write : Bool
  block : Nat
  port : Option Nat
  rq : Nat
  deriving DecidableEq, Repr

/-- A user of a PPDU as its signal fields give it (R176, R184): AID, RU allocation, MCS, streams, coding, and what its length
follows from (R181): data bits per symbol for VHT, HE and EHT, bytes for HT; its codewords; its RU's tones; whether its user
field's CRC passes; whether the access controller marks it for estimation (R194; spec/ gives no criterion for the mark). -/
structure PpduUser where
  sta : Nat
  ru : Nat
  mcs : Nat
  nss : Nat
  ldpc : Bool
  stbc : Bool
  dcm : Bool
  size : Nat
  codewords : Nat
  tones : Nat
  crc : Bool
  mark : Bool
  deriving DecidableEq, Repr

/-- What a PPDU's signal fields say (R176): format code of R184, bandwidth and guard interval codes, data symbols, the BCC rate
in Mbit/s, SNR in 0.25 dB, its users. -/
structure Ppdu where
  format : Nat
  bw : Nat
  gi : Nat
  symbols : Nat
  bcc : Nat
  snr : Nat
  users : List PpduUser
  deriving DecidableEq, Repr

/-- A signal field as it is received (R176): L-SIG with its parity, RATE (Mbit/s, 0 for an illegal code), LENGTH and tail; a
repeated L-SIG; SIG-A (U-SIG or HE-SIG-A), the common field of SIG-B (HE-SIG-B or EHT-SIG), HT-SIG and VHT-SIG-A with their
CRC; of DSSS the preamble kind and the half-chip samples of the route from the first of SYNC on, which the equaliser turns into chips (R188). -/
inductive SigField where
  | lsig (even : Bool) (rate length : Nat) (tail : Bool)
  | rlsig
  | sigA (crc : Bool)
  | sigB (crc : Bool)
  | htSig (crc : Bool)
  | vhtSig (crc : Bool)
  | plcp (long : Bool) (xs : List Cx)
  deriving DecidableEq, Repr

/-- A received MPDU with a good FCS (R224): the station it is from (0xFFFF unknown), kind (0 management, 1 control, 2 data), TID,
sequence number, retry bit, protection, a robust management frame, the power-management bit, a
PS-Poll or delivery trigger, whether no acknowledgement is wanted, EAPOL, PN and key ID, BSSID index, buffer report in 256-byte
units, positions of the frames a block acknowledgement covers, NAV in µs, its body as received (R227: with the MIC at its end when protected). -/
structure Mpdu where
  sid : Nat
  kind : Nat
  tid : Nat
  sn : Nat
  retry : Bool
  prot : Bool
  robust : Bool
  pm : Bool
  poll : Bool
  noAck : Bool
  eapol : Bool
  pn : Nat
  key : Nat
  bss : Nat
  report : Option Nat
  acks : Option (List Nat)
  nav : Nat
  data : Bytes
  deriving DecidableEq, Repr

/-- What the access controller hands the PHY (R191): the PPDU at place `i` of those due, of a TXOP's next one with up to `take` frames of each user; an NDP of `k` space-time
streams (R192); a WUR PPDU at 250 or 62.5 kbit/s (R193). -/
inductive PhyRequest where
  | due (i take : Nat)
  | ndp (k : Nat)
  | wur (hdr : Bool)
  deriving DecidableEq, Repr

/-- Beamforming weights of a section extension 1 (R256): bfwCompMeth, width, exponent, mantissas (I, Q of each path in order). -/
structure FhWeights where
  meth : Nat
  width : Nat
  exp : Nat
  mant : List Int
  deriving DecidableEq, Repr

/-- A section of a fronthaul message (R248, R249): sectionId, rb, symInc, first PRB, number of PRBs, and for the U-plane its
udCompHdr, its mantissas (24 a PRB) and exponents, for the C-plane numSymbol, reMask, beamId, extensions other than 1 (type, length in
32-bit words), weights, of section type 3 frequencyOffset. -/
structure FhSection where
  id : Nat
  rb : Nat
  symInc : Bool
  start : Nat
  num : Nat
  meth : Nat
  width : Nat
  iq : List Int
  exps : List Nat
  numSym : Nat
  reMask : Nat
  beam : Nat
  exts : List (Nat × Nat)
  weights : Option FhWeights
  freqOff : Int
  deriving DecidableEq, Repr

/-- An eCPRI message (R246 to R249, R260): common-header revision, type, payload size,
eAxC ID, E bit, subsequence and sequence ID, whether downlink, payloadVersion, filterIndex, frame, subframe, slot and symbol,
section type, frameStructure (0 15 kHz, 1 30 kHz, others unsupported), timeOffset, cpLength, sections; action type and measurement ID of type 5. -/
structure FhMsg where
  rev : Nat
  type : Nat
  size : Nat
  id : Nat
  ebit : Bool
  sub : Nat
  seq : Nat
  dl : Bool
  version : Nat
  filter : Nat
  frame : Nat
  subframe : Nat
  slot : Nat
  sym : Nat
  secType : Nat
  scs : Nat
  timeOff : Nat
  cpLen : Nat
  sections : List FhSection
  action : Nat
  meas : Nat
  deriving DecidableEq, Repr

/-- A frame on a fronthaul lane (R244, R245): lane, length with its FCS, whether its FCS is good, destination, VID of its tag, EtherType, its
messages, its bytes when it is not eCPRI, the age of its stamp in ns. -/
structure FhFrame where
  lane : Nat
  len : Nat
  fcs : Bool
  dest : Nat
  vid : Option Nat
  eth : Nat
  msgs : List FhMsg
  data : Bytes
  age : Nat
  deriving DecidableEq, Repr

/-- A configuration request to a function (R512, R517, R371): a read or a write that changes nothing modelled here, MSI-X Enable and Function Mask, PTM
Enable. -/
inductive CfgReq where
  | other (write : Bool)
  | msix (enable mask : Bool)
  | ptm (enable : Bool)
  deriving DecidableEq, Repr

/-- The commands, one per row of the table. -/
inductive Instr where
  /-- REGISTER_WRITE (R8): A write to a register that has no row of its own, performed field by field or refused whole with an error response. Operands: requester, address (for a function: BAR0, BAR2 from 2^27, BAR4 from 2^40), width in bytes, value. -/
  | registerWrite (rq : Req) (addr : Nat) (size : Nat) (v : Word)
  /-- COUNTER_READ (R7): A read of an RC counter returns its count and clears it, without losing a same-cycle event. Operands: requester, byte address, width in bytes, whether an event it counts falls in the same cycle (R7). -/
  | counterRead (rq : Req) (addr : Nat) (size : Nat) (sameCycle : Bool)
  /-- RESULT_READ (R25): A read of a result register returns the last committed value and counts an early read in RGC_EARLY_READ while VALID is 0. Operands: requester, address of the register (any other register or memory too), width in bytes, whether the read falls between a start and its commit in the same cycle (R28). -/
  | resultRead (rq : Req) (addr : Nat) (size : Nat) (same : Bool)
  /-- ACCESS_TIMEOUT (R491): An access that has not completed after HANG_TO receives TIMEOUT from the block's error collector. Operands: requester, address of the access. -/
  | accessTimeout (rq : Req) (a : Nat)
  /-- CROSSBAR_TIMEOUT (R491): The region crossbar answers TIMEOUT for a block whose error collector has stopped answering, which is a hang. Operands: requester, address of the access. -/
  | crossbarTimeout (rq : Req) (a : Nat)
  /-- CONTROL_STORAGE_ECC (R491): An uncorrectable error in control storage fails its single retry and is escalated. Operands: requester and address of the access on which it surfaces. -/
  | controlStorageEcc (rq : Req) (a : Nat)
  /-- FALLBACK_RETURN (R50): At the first grid instant at least 1 ms after the last reload, each quadrant returns to its chosen stack. -/
  | fallbackReturn
  /-- TAMPER (R455): A tamper input held active for TFILT counts a tamper, writes an Ash record and enters Lockdown. Operands: input. -/
  | tamper (n : Nat)
  /-- KILN_DETECTOR_TRIP (R456): A glitch detector trip or compare mismatch in Kiln's engine is a Kiln integrity failure leading to Lockdown. -/
  | kilnDetectorTrip
  /-- VIN_AO_RISE (R461): VIN_AO rising through 2.9 V powers up the AO die and starts the part as at power-on. -/
  | vinAoRise
  /-- VIN_AO_LOSS (R461): VIN_AO falling below 2.8 V turns the whole part off. -/
  | vinAoLoss
  /-- VIN_MAIN_PRESENT (R461): VIN_MAIN has stayed in range for VIN_STABLE, which starts a bring-up or acts as a wake. -/
  | vinMainPresent
  /-- VIN_MAIN_LOSS (R462): Loss of VIN_MAIN mutes transmission, writes the time and Ash records and switches the main rails off into Dormant. Operands: whether it rose above 17.0 V. -/
  | vinMainLoss (high : Bool)
  /-- THERMAL_TRIP (R542): A die's thermal comparator above 125 °C for 100 µs is handled as a loss of VIN_MAIN with cause THERMAL. Operands: die: 0 to 3 an RF die, 4 the digital die, 5 the AO die. -/
  | thermalTrip (die : Nat)
  /-- THERMAL_WAKE_RELEASE (R542): After a thermal trip, held wakes act once 60 s have passed and the AO die sensor reads below 95 °C. Operands: AO die sensor in 1/16 °C. -/
  | thermalWakeRelease (temp : Int)
  /-- RAIL_FAULT (R464): A rail outside ±5 % for 10 µs or in overcurrent is switched off, logged and escalated by its rail. Operands: rail, 0 under 1 over 2 overcurrent, voltage. -/
  | railFault (rail kind mv : Nat)
  /-- SLEEP_OSC_FIRST_TICK (R549): The sleep oscillator makes its first tick and the sleep counter starts counting. -/
  | sleepOscFirstTick
  /-- SLP_RATIO_MEASURE (R366): Each 32,768 sleep ticks the NTU updates NTU_SLP_RATIO and sets SLP_CAL. -/
  | slpRatioMeasure
  /-- TIME_RECORD_WRITE (R366): Once per second on a sleep-counter edge AO rewrites the time record. -/
  | timeRecordWrite
  /-- SET_POINT (R469): AO_VF_CTL OP SET_POINT moves a rail to a VF point, refused with ORDER or BUSY where the order rules forbid. Operands: requester, word written to AO_VF_CTL (OP taken as SET_POINT). -/
  | setPoint (rq : Req) (v : Word)
  /-- ISLAND_CHANGE (R469): A write to AO_ISL_CTL changes an island's frequency, held while its rail ramps and judged against the current point. Operands: requester, word written to AO_ISL_CTL. -/
  | islandChange (rq : Req) (v : Word)
  /-- RAIL_READY (R469): A ramping rail stays within 1 % for 2 µs, becomes ready and releases a held island change. -/
  | railReady
  /-- DEFERRED_CHANGE_RELEASE (R470): A deferred voltage or frequency change is carried out once its calibration window or PANIC has passed. -/
  | deferredChangeRelease
  /-- SLEEP_BANKED (R475): AO_SLEEP_CTL OP BANKED starts a sleep agreement towards Banked. Operands: requester, word written to AO_SLEEP_CTL (OP taken as BANKED). -/
  | sleepBanked (rq : Req) (v : Word)
  /-- SLEEP_DORMANT (R475): AO_SLEEP_CTL OP DORMANT starts a sleep agreement towards Dormant. Operands: requester, word written to AO_SLEEP_CTL (OP taken as DORMANT). -/
  | sleepDormant (rq : Req) (v : Word)
  /-- SLEEP_CANCEL (R476): AO_SLEEP_CTL OP CANCEL ends an uncommitted sleep request with reason CANCELLED. Operands: requester, word written to AO_SLEEP_CTL (OP taken as CANCEL). -/
  | sleepCancel (rq : Req) (v : Word)
  /-- PHASE1_ANSWER (R475): A block asked in phase one agrees and parks, or refuses with a reason. -/
  | phase1Answer
  /-- PHASE1_TIMEOUT (R475): A block that has not answered within PH1_TO refuses with TIMEOUT. -/
  | phase1Timeout
  /-- SLEEP_RETRY (R476): After SLEEP_HOLDOFF the controller retries phase one of the sleep request. -/
  | sleepRetry
  /-- SMBUS_ADDRESS_MATCH (R482): In Dormant an SMBus address match stretches SCL, starts the AO oscillator and wakes the part. Operands: address byte, whether a write transfer. -/
  | smbusAddressMatch (addr : Nat) (write : Bool)
  /-- WAKE_UP_FRAME (R483): The wake receiver accepts a WUR Wake-up frame with a verified FCS and an enabled ID, which is a wake. Operands: ID of the frame. -/
  | wakeUpFrame (id : Nat)
  /-- GPIO_WAKE (R484): An enabled GPIO0 to 3 pin held at its active level for GPIO_FILT fires the GPIO wake. Operands: pin. -/
  | gpioWake (n : Nat)
  /-- TIMER_WAKE (R484): The sleep counter reaches WAK_TIMER ticks after the commit and fires the TIMER wake. -/
  | timerWake
  /-- WAKE_STAGE_READY (R471): A domain's wake stage meets its ready condition and the next stage, or the return to the prior mode, begins. Operands: region, whether FEN_VIO of a quadrant that wakes from Banked is ready in time (R93). -/
  | wakeStageReady (r : Nat) (vioOk : Bool)
  /-- WAKE_STAGE_TIMEOUT (R472): A wake stage times out, aborting its domain's wake with a bring-up failure, fence or restart. Operands: region. -/
  | wakeStageTimeout (r : Nat)
  /-- KILN_BOOT (R55): Kiln starts from ROM, checks itself, reads lifecycle and keys and selects an image slot. Operands: outcomes of Kiln's checks, and how the flash answers: 0 not, 1 single, 2 octal. -/
  | kilnBoot (rom fuses puf mac : Bool) (flash : Nat)
  /-- IMAGE_VERIFY (R55): Kiln checks the header and directory and verifies both signatures over the signed region. Operands: `readOk` says whether the flash could be read (R523). -/
  | imageVerify (readOk : Bool)
  /-- CORD_APPLY (R55): An arrived cord is digest-checked, checked in three passes, its region woken and its records applied. Operands: whether the flash was read, the wake stage that times out (4 none), whether DRAM trained and FEN_VIO became ready. -/
  | cordApply (readOk : Bool) (stage : Nat) (dramOk vioOk : Bool)
  /-- FIRMWARE_LOAD (R442): Kiln copies and checks the firmware against FW_DIGEST and starts core 0 at ENTRY. Operands: whether the flash was read. -/
  | firmwareLoad (readOk : Bool)
  /-- ABORT (R58): AO_PUSH_CTL OP ABORT discards the current push stream and its staged content. Operands: `rq` writes AO_PUSH_CTL with OP=ABORT; `v` gives the other fields. -/
  | pushAbort (rq : Req) (v : Word)
  /-- OPEN_BOOT (R60): AO_PUSH_CTL OP OPEN_BOOT opens a pushed stream for booting in Bring-up. Operands: `rq` writes AO_PUSH_CTL with OP=OPEN_BOOT. -/
  | openBoot (rq : Req) (v : Word)
  /-- OPEN_RELOAD (R61): AO_PUSH_CTL OP OPEN_RELOAD opens a pushed stream to reload one region's cord. Operands: `rq` writes AO_PUSH_CTL with OP=OPEN_RELOAD; `v` gives REGION. -/
  | openReload (rq : Req) (v : Word)
  /-- OPEN_STORE_A (R54): AO_PUSH_CTL OP OPEN_STORE_A opens a pushed stream to be stored in flash slot A. Operands: `rq` writes AO_PUSH_CTL with OP=OPEN_STORE_A. -/
  | openStoreA (rq : Req) (v : Word)
  /-- OPEN_STORE_B (R54): AO_PUSH_CTL OP OPEN_STORE_B opens a pushed stream to be stored in flash slot B. Operands: `rq` writes AO_PUSH_CTL with OP=OPEN_STORE_B. -/
  | openStoreB (rq : Req) (v : Word)
  /-- RELOAD_FROM_A (R61): AO_PUSH_CTL OP RELOAD_FROM_A reloads a region's cord from the image in slot A. Operands: `rq` writes AO_PUSH_CTL with OP=RELOAD_FROM_A; `v` gives REGION. -/
  | reloadFromA (rq : Req) (v : Word)
  /-- RELOAD_FROM_B (R61): AO_PUSH_CTL OP RELOAD_FROM_B reloads a region's cord from the image in slot B. Operands: `rq` writes AO_PUSH_CTL with OP=RELOAD_FROM_B; `v` gives REGION. -/
  | reloadFromB (rq : Req) (v : Word)
  /-- AO_PUSH_DATA (R58): A write of four image bytes joins the push stream, held by back-pressure while the part verifies or applies. Operands: `rq` writes four image bytes to AO_PUSH_DATA. -/
  | aoPushData (rq : Req) (v : Word)
  /-- ENROLMENT (R437): A pushed enrolment record is checked and enrols the owner and authority pairs, moving BLANK to PROVISIONED. -/
  | enrolment
  /-- REGION_RELOAD (R62): A verified reload treats the target as fenced, powers it down, applies the new cord and releases the region. Operands: whether the flash was read, the wake stage that times out (4 none), whether FEN_VIO became ready. -/
  | regionReload (readOk : Bool) (stage : Nat) (vioOk : Bool)
  /-- RESTACK_REQUEST (R68): RGC_RESTACK_CTL OP REQUEST books a re-stack at boundary T or refuses it with a cause. Operands: requester, word written (OP taken as REQUEST). -/
  | restackRequest (rq : Req) (v : Word)
  /-- RESTACK_CANCEL (R68): RGC_RESTACK_CTL OP CANCEL cancels the pending re-stack. Operands: requester, word written (OP taken as CANCEL). -/
  | restackCancel (rq : Req) (v : Word)
  /-- RESTACK_BOUNDARY (R66): At T the affected paths ramp down, LOs retune, front-end writes issue, sets swap and the beam table switches. -/
  | restackBoundary
  /-- RESTACK_GAP_END (R66): At T + GAP gaining roles ramp up, CHOSEN updates and RESTACK_DONE is raised, or LOCK_LATE is reported. -/
  | restackGapEnd
  /-- PF_CLR (R107): Writing PATH_CTL.PF_CLR retries a path-fenced path. Operands: requester, quadrant, local path, value of PATH_CTL. -/
  | pfClr (rq : Req) (q p : Nat) (v : Word)
  /-- PPDU_TRANSMIT_REQUEST (R191): The access controller hands the PHY a transmit request, which it builds into a PPDU for the gates. Operands: link, what is requested, launch as an instant of network time, airtime in microseconds, the request's bitmap of punctured subchannels. -/
  | ppduTransmitRequest (l : Nat) (r : PhyRequest) (launch : Int) (air punct : Nat)
  /-- TRANSMISSION_START (R82): The last gate opens and the first sample leaves at s = max(t, g + TX_LEAD + DEAD). Operands: transmission, the stream vectors that its consumer sends, by symbol, stream and tone or sample. -/
  | transmissionStart (id : Nat) (vecs : List (List (List Cx)))
  /-- LATE_TOL_EXPIRY (R82): t + LATE_TOL passes without the gates opening and the transmission completes LATE or COEX without starting. Operands: transmission. -/
  | lateTolExpiry (id : Nat)
  /-- TRANSMISSION_END (R83): A transmission completes to its source with one of the statuses OK to ABORT_STOP. Operands: transmission. -/
  | transmissionEnd (id : Nat)
  /-- LO_LOCK (R76): A synthesiser's phase error stays within ±2° for 1 µs and LOCK sets. Operands: quadrant, LO. -/
  | loLock (q k : Nat)
  /-- LOCK_LOST (R84): LOCK clears, paths on the LO ramp down and their transmissions end ABORT_LOCK. Operands: quadrant, LO. -/
  | lockLost (q k : Nat)
  /-- LO_RESTART (R84): An LO not relocked after 1 ms is restarted from off, and after three failures stays off with its paths MUTED. Operands: quadrant, LO. -/
  | loRestart (q k : Nat)
  /-- REFCLK_LOST (R85): REFCLK absent for 200 ns mutes transmission, clears LO locks and puts the NTU on the sleep counter. -/
  | refclkLost
  /-- REFCLK_RESTORE (R85): REFCLK present and in tolerance for 1 ms restarts ASYNC, relocks the LOs and reopens the gates. -/
  | refclkRestore
  /-- ASYNC_PULSE (R78): The 1 µs array sync pulse aligns or verifies converter dividers and starts retuned synthesisers. Operands: quadrants whose converter divider is found misaligned. -/
  | asyncPulse (misaligned : List Nat)
  /-- EBUF_SLIP (R23): An elastic buffer empties or fills, its stream is zeroed, RGC_EBUF_SLIP counts and EBUF_SLIP is raised. Operands: region, stream. -/
  | ebufSlip (g n : Nat)
  /-- ASYNC_LOST (R80): A follower finds an ASYNC_IN pulse missing or misplaced, continues internally and sets IN_LOST. -/
  | asyncLost
  /-- ASYNC_IN_RESUME (R80): After 16 consecutive agreeing pulses the follower resumes following ASYNC_IN. Operands: whether the returning pulses are displaced. -/
  | asyncInResume (displaced : Bool)
  /-- FEN_RFFE_CMD (R88): A write queues an RFFE command on its bus, held by back-pressure while the queue is full. Operands: requester, quadrant, value. -/
  | fenRffeCmd (rq : Req) (q : Nat) (v : Word)
  /-- RFFE_COMMAND_DONE (R88): An RFFE command completes and puts one entry into the response queue. Operands: quadrant, bus, data read, whether its parity is bad. -/
  | rffeCommandDone (q k data : Nat) (perr : Bool)
  /-- FEN_RFFE_RSP (R26): A read pops the oldest RFFE response or returns EMPTY. Operands: requester, quadrant. -/
  | fenRffeRsp (rq : Req) (q : Nat)
  /-- RFFE_POLL (R89): Every POLL_MS the part reads PRODUCT_ID of each enabled poll entry. Operands: quadrant, poll entry, data read, whether its parity is right. -/
  | rffePoll (q n pid : Nat) (parity : Bool)
  /-- VIO_OVERCURRENT (R91): FEN_VIO at its current limit for 10 µs is switched off and all 16 paths are path-fenced. Operands: quadrant. -/
  | vioOvercurrent (q : Nat)
  /-- VIO_EN (R91): Writing VIO_EN=1 powers FEN_VIO, clears VIO path fences and reissues the stack writes. Operands: requester, quadrant, value of FEN_RFFE_CFG. -/
  | vioEn (rq : Req) (q : Nat) (v : Word)
  /-- BIAS_SHORT (R92): Bias current at ILIM for 10 µs switches the output off and path-fences the path. Operands: quadrant, local path. -/
  | biasShort (q p : Nat)
  /-- BIAS_OPEN (R92): Bias current below IOPEN for 20 µs while TXEN is high switches the output off and path-fences the path. Operands: quadrant, local path. -/
  | biasOpen (q p : Nat)
  /-- FASTLINE (R106): A fast-line ball differing from its driven level for 1 µs path-fences the path. Operands: quadrant, local path. -/
  | fastline (q p : Nat)
  /-- COEX_REQ_RISE (R95): A co-located radio raises REQ and each quadrant consents at once or defers for protected activity. Operands: port, PRI, BND. -/
  | coexReqRise (n : Nat) (pri bnd : Bool)
  /-- COEX_REQ_FALL (R95): REQ falls and GNT falls within 200 ns, releasing held paths. Operands: port. -/
  | coexReqFall (n : Nat)
  /-- MAX_DEFER (R95): MAX_DEFER after REQ rose the quadrant ends the protected activity and consents. Operands: quadrant, port. -/
  | maxDefer (q n : Nat)
  /-- COEX_FAULT (R97): REQ high for longer than REQ_MAX is stuck, GNT is driven low and the port is ignored. Operands: quadrant, port. -/
  | coexFault (q n : Nat)
  /-- COEX_PORT_RETURN (R97): A stuck port returns to service after REQ has been low for 1 ms. Operands: port. -/
  | coexPortReturn (n : Nat)
  /-- DUTY_BUCKET_CLOSE (R103): A 60 s duty bucket closes and the window state is written to MRAM. -/
  | dutyBucketClose
  /-- AFC_EXPIRED (R104): An AFC grant entry lapses at its expiry and affected quadrants raise AFC_EXPIRED. -/
  | afcExpired
  /-- TXF_COMMIT (R118): DFE_TXF_CTL OP COMMIT checks the staged filter against its mask and commits or refuses it. Operands: requester, quadrant, value of DFE_TXF_CTL. -/
  | txfCommit (rq : Req) (q : Nat) (v : Word)
  /-- BEAM_ID_NAMED (R125): A consumer names a beam ID ahead of use and the slice starts fetching its record. Operands: quadrant, route slot, beam ID. -/
  | beamIdNamed (q route id : Nat)
  /-- BEAM_RECORD_FETCH (R125): A beam record fetch completes into the beam buffer. Operands: quadrant, route slot, beam ID. -/
  | beamRecordFetch (q route id : Nat)
  /-- BEAM_COMMIT (R126): A write queues a changed record for refetch, held while the commit queue is full. Operands: requester, quadrant, value. -/
  | beamCommit (rq : Req) (q : Nat) (v : Word)
  /-- DPD_COMMIT (R133): A write of SET checks the shadow and commits it as pending, active or refused. Operands: requester, quadrant, local path, value. -/
  | dpdCommit (rq : Req) (q p : Nat) (v : Word)
  /-- CROSSFADE (R133): After 2 ms of unbroken transmission or reception a pending set or digital field takes effect through a 64-sample crossfade. Operands: quadrant, local path, whether of transmission. -/
  | crossfade (q p : Nat) (tx : Bool)
  /-- ORX_VISIT_START (R137): A receiver starts a visit of the next chosen path when both are free. Operands: quadrant, receiver. -/
  | orxVisitStart (q r : Nat)
  /-- ORX_VISIT_END (R139): A visit ends, stores its captures and measurements and pushes a descriptor. Operands: quadrant, receiver, powers in 0.01 dBFS, ACLR of both sides in 0.1 dB, forward samples of the receiver. -/
  | orxVisitEnd (q r : Nat) (pFwd pRev : Int) (lo hi : Nat) (fwd : List Cx)
  /-- ANT_RETRY (R105): Every ANT_RETRY a MUTED path joins one transmission with 20 dB more attenuation to retest. Operands: quadrant, local path. -/
  | antRetry (q p : Nat)
  /-- ORX_CAP_POP (R26): A read pops the oldest capture descriptor or returns EMPTY. Operands: requester, quadrant. -/
  | orxCapPop (rq : Req) (q : Nat)
  /-- ORX_SLOT_FREE (R139): A write releases a receiver's ring slot. Operands: requester, quadrant, value. -/
  | orxSlotFree (rq : Req) (q : Nat) (v : Word)
  /-- RUN (R150): CAL_CTL OP RUN starts a calibration run. Operands: requester, quadrant, value of CAL_CTL. -/
  | calRun (rq : Req) (q : Nat) (v : Word)
  /-- CAL_ABORT (R150): CAL_CTL OP ABORT ends a run that has not reached its window with LAST ABORTED. Operands: requester, quadrant, value of CAL_CTL. -/
  | calAbort (rq : Req) (q : Nat) (v : Word)
  /-- CAL_ESTIMATE (R146): A digital or analogue estimate completes its accumulation and is checked and written or kept as target. Operands: quadrant, local path, set word, value, whether the temperature moved by more than CAL_DT. -/
  | calEstimate (q p n : Nat) (w : Word) (moved : Bool)
  /-- CAL_OFFER (R152): A role owner answers a window request with an offer W, and CAL books the window or renegotiates. Operands: quadrant, owner (0 WLAN, 1 fronthaul, 2 Tixia). -/
  | calOffer (q owner : Nat)
  /-- CAL_WINDOW_START (R153): At W the affected gates close and the run applies its trims. Operands: quadrant. -/
  | calWindowStart (q : Nat)
  /-- CAL_DONE (R151): At W + D the window ends, the run completes, CAL_TEMP.LAST is set and CAL_DONE is raised. Operands: quadrant, LOs no tree of which meets its limit. -/
  | calDone (q : Nat) (exhausted : List Nat)
  /-- CAL_REBOOK (R154): A launch time due inside a booked window before W cancels it and renegotiates. Operands: quadrant. -/
  | calRebook (q : Nat)
  /-- CAL_FORCED (R154): CAL_MAX_DEFER without a booked window forces a window FORCE_LEAD ahead. Operands: quadrant. -/
  | calForced (q : Nat)
  /-- ORX_ELEMENT_RESELECT (R156): A receiver's new front-end element is switched in once the receiver is between visits. Operands: quadrant, receiver, element, whether it meets its limits. -/
  | orxElementReselect (q r elem : Nat) (meets : Bool)
  /-- CAL_COMMIT (R159): CAL_COMMIT OP COMMIT checks the shadow copy and copies it into the active set. Operands: requester, quadrant. -/
  | calCommit (rq : Req) (q : Nat)
  /-- LOAD (R159): CAL_COMMIT OP LOAD copies the active set into the shadow. Operands: requester, quadrant. -/
  | calLoad (rq : Req) (q : Nat)
  /-- CAL_RED (R157): A write of an LO tree selection in CAL_RED starts a run. Operands: requester, quadrant, value. -/
  | calRed (rq : Req) (q : Nat) (v : Word)
  /-- EXPORT (R160): CAL_XP_CTL OP EXPORT has Kiln write a sealed calibration blob. Operands: requester, quadrant, value of CAL_XP_CTL. -/
  | calExport (rq : Req) (q : Nat) (v : Word)
  /-- RESTORE (R161): CAL_XP_CTL OP RESTORE checks a blob, writes its sets and starts a run. Operands: requester, quadrant, value of CAL_XP_CTL. -/
  | calRestore (rq : Req) (q : Nat) (v : Word)
  /-- HKA_RESULT (R163): A housekeeping channel completes its conversions and commits a result, queued when QUEUE=1. Operands: converter, channel, its 2^AVG_LOG2 conversion codes. -/
  | hkaResult (c n : Nat) (codes : List Nat)
  /-- HKA_POP (R165): A read pops the oldest housekeeping result or returns EMPTY. Operands: requester. -/
  | hkaPop (rq : Req)
  /-- PLAUS_FAIL (R166): Every CHK_PERIOD both converters convert channel 63 and a difference beyond CHK_TOL sets FAIL and SUSPECT. Operands: normalised code of each converter. -/
  | plausFail (code0 code1 : Nat)
  /-- PREAMBLE_DETECT (R174): The detector declares a preamble and the receiver enters PROVISIONAL with AGC frozen. Operands: link, element-referred RSSI in 0.25 dBm, whether a DSSS preamble, subchannels it is seen on, ns since its first sample, active TD receive beams. -/
  | preambleDetect (l : Nat) (rssi : Int) (dsss : Bool) (subs age : Nat) (beams : List Nat)
  /-- SIGNAL_FIELD (R176): A received signal field is checked in order, committing, absorbing or restarting the PPDU. Operands: link, the field received, what the signal fields say so far. -/
  | signalField (l : Nat) (f : SigField) (p : Ppdu)
  /-- RESTART (R177): A stronger preamble in PROVISIONAL restarts the receiver on it. Operands: link, RSSI in 0.25 dBm, whether a DSSS preamble, subchannels, ns since its first sample. -/
  | phyRestart (l : Nat) (rssi : Int) (dsss : Bool) (subs age : Nat)
  /-- CAPTURE (R179): A much stronger preamble during reception abandons the current PPDU and restarts on the new one. Operands: link, RSSI in 0.25 dBm, whether a DSSS preamble, subchannels, ns since its first sample. -/
  | phyCapture (l : Nat) (rssi : Int) (dsss : Bool) (subs age : Nat)
  /-- PPDU_END (R175): A received PPDU reaches its computed end, its PSDUs are delivered and the receiver returns to SEARCH. Operands: link. -/
  | ppduEnd (l : Nat)
  /-- FALSE_START_HOLD_END (R178): After a false start the primary becomes idle once its power stays below PD_LVL for 4 µs. Operands: link, for how many ns the primary's power has been below PD_LVL. -/
  | falseStartHoldEnd (l below : Nat)
  /-- CCA_STUCK (R190): The primary busy without a break for CCA_STUCK sets STUCK and raises CCA_STUCK. Operands: link. -/
  | ccaStuck (l : Nat)
  /-- CODEWORD_DECODED (R186): An LDPC decoder stops at a zero syndrome or its iteration cap and delivers the codeword. Operands: decoder, whether the syndrome is zero, codewords that arrive (link, user). -/
  | codewordDecoded (d : Nat) (zero : Bool) (arrivals : List (Nat × Nat))
  /-- CHANNEL_ESTIMATE (R194): SND writes an uplink estimate into a ring slot and pushes its descriptor, or drops it. Operands: link, user of the PPDU, first tone, exponent, SNR in 0.25 dB, by tone the channel of each stream and contributing path. -/
  | channelEstimate (l u : Nat) (first : Int) (exp snr : Nat) (tones : List (List Cx))
  /-- SND_EST_POP (R196): A read pops the oldest estimate descriptor or returns EMPTY. Operands: requester. -/
  | sndEstPop (rq : Req)
  /-- SND_SLOT_FREE (R196): A write releases an estimate ring slot. Operands: requester, slot. -/
  | sndSlotFree (rq : Req) (v : Word)
  /-- BEAMFORMING_REPORT (R197): SND reconstructs V from a compressed beamforming report as a KIND 1 estimate. Operands: link, AID, stamp of the PPDU, first tone, log2 of the tones per group, ports, columns, codebook (bits of φ and ψ), SNR, the angles of each tone group in report order. -/
  | beamformingReport (l sta stamp : Nat) (first : Int) (glog nr nc bphi bpsi snr : Nat) (angles : List (List Nat))
  /-- RADAR_PULSE (R198): The detector reports a radar pulse at or above THR into the DFS queue. Operands: link, subchannel, peak in dBm, width in 0.1 µs, ns since its rising edge, chirp flag. -/
  | radarPulse (l sub : Nat) (dbm : Int) (width age : Nat) (chirp : Bool)
  /-- CAC_START (R200): PHY_DFS_CTL OP CAC_START moves covered UNCHECKED channels to CAC. Operands: requester, link, value of PHY_DFS_CTL. -/
  | cacStart (rq : Req) (l : Nat) (v : Word)
  /-- CAC_EXPIRY (R200): CAC_S passes without a match and the channel becomes AVAILABLE. Operands: link, channel index. -/
  | cacExpiry (l i : Nat)
  /-- NOP_EXPIRY (R200): NOP expires and an UNAVAILABLE channel becomes UNCHECKED. Operands: link, channel index. -/
  | nopExpiry (l i : Nat)
  /-- DFS_MAP_SAVE (R201): Once a minute the DFS map and remaining NOP times are written to MRAM. -/
  | dfsMapSave
  /-- PHY_DFS_POP (R198): A read pops the oldest pulse report and latches its stamp, or returns EMPTY. Operands: requester, link. -/
  | phyDfsPop (rq : Req) (l : Nat)
  /-- WAC_TABLE_LOAD (R208): WAC_TBL_CTL OP LOAD copies an active entry into the window. Operands: requester. -/
  | wacTableLoad (rq : Req)
  /-- WAC_TABLE_COMMIT (R208): WAC_TBL_CTL OP COMMIT checks the window and copies it into the active entry. Operands: requester. -/
  | wacTableCommit (rq : Req)
  /-- WAC_TABLE_CLEAR (R211): WAC_TBL_CTL OP CLEAR invalidates an entry, flushing a cleared station's frames. Operands: requester. -/
  | wacTableClear (rq : Req)
  /-- TBTT (R207): At each TBTT the beacon is filled in and queued, and an unsent earlier beacon is dropped. Operands: link. -/
  | tbtt (l : Nat)
  /-- MSDU_DELIVERY (R212): The traffic manager delivers an MSDU, which is queued per station and TID or dropped. -/
  | msduDelivery
  /-- FRAME_LIFETIME (R213): A queued frame waits longer than LIFETIME and is dropped. Operands: position of the frame in the queues. -/
  | frameLifetime (i : Nat)
  /-- EDCA_BACKOFF_EXPIRY (R215): A link wins the medium for an access category and starts a TXOP. Operands: link, category (4 the beacon), airtime of the PPDU in µs, most frames a user gets. -/
  | edcaBackoffExpiry (l ac air take : Nat)
  /-- BSRP (R219): Every BSRP_MS a BSRP trigger goes to rotation stations with stale reports. Operands: link, airtime of the trigger in µs. -/
  | bsrpTrigger (l air : Nat)
  /-- WAC_BSR_POP (R219): A read pops the oldest station whose buffer status changed, or returns EMPTY. Operands: requester. -/
  | wacBsrPop (rq : Req)
  /-- TWT_SP_START (R221): A TWT service period begins, sending a basic trigger when TRIGGER=1. Operands: TWT entry, airtime of a trigger in µs. -/
  | twtSpStart (i air : Nat)
  /-- TWT_TRIGGER_REPEAT (R221): Every 1 ms in a triggered SP the trigger repeats until the station appears. Operands: TWT entry, airtime of a trigger in µs. -/
  | twtTriggerRepeat (i air : Nat)
  /-- TWT_WINDOW_CLOSE (R222): An appearance window closes, counting a miss or appearance and adjusting the guard. Operands: station. -/
  | twtWindowClose (sid : Nat)
  /-- MPDU_RECEIVE (R224): An MPDU with good FCS is acknowledged, decrypted, deduplicated, reordered, replay-checked and delivered. Operands: link, which delivered PSDU, whether its last MPDU, the MPDU. -/
  | mpduReceive (l i : Nat) (last : Bool) (m : Mpdu)
  /-- REORDER_TIMEOUT (R226): REORDER_TO after the oldest held frame the held frames are released in order. Operands: BA_RX agreement. -/
  | reorderTimeout (a : Nat)
  /-- MTX_DESCRIPTOR_FETCH (R230): The part fetches a management transmit descriptor once the completion queue has room. Operands: airtime in µs of a frame with a launch time. -/
  | mtxDescriptorFetch (air : Nat)
  /-- WAC_MTX_CPL_POP (R231): A read pops the oldest transmit completion or returns EMPTY. Operands: requester. -/
  | wacMtxCplPop (rq : Req)
  /-- WAC_MRX_FREE (R232): A write releases a received frame's packet-buffer handle. Operands: requester, handle. -/
  | wacMrxFree (rq : Req) (v : Word)
  /-- QUIET_WINDOW_CTS (R237): Before a booked window the controller sends a CTS-to-self ending by W, or counts the window uncovered. Operands: quadrant of the window, link, airtime in µs. -/
  | quietWindowCts (q l air : Nat)
  /-- AFC_INSTALL (R239): WAC_AFC_CTL OP INSTALL has Kiln check a grant record and replace every grant entry. Operands: requester. -/
  | afcInstall (rq : Req)
  /-- AFC_CLEAR (R239): WAC_AFC_CTL OP CLEAR removes every grant entry. Operands: requester. -/
  | afcClear (rq : Req)
  /-- FH_FRAME_RECEIVE (R245): A frame on a fronthaul lane is sorted and its eCPRI messages processed in turn. Operands: the frame. -/
  | fhFrameReceive (f : FhFrame)
  /-- DL_RUN (R257): A run of DL symbols is presented to the gates at its air time and samples before s are discarded. -/
  | dlRun
  /-- UL_U_PLANE_SEND (R259): After a UL symbol ends the part sends its U-plane message within Ta3. Operands: position of the uplink section, the ADC samples of its symbol on each path. -/
  | ulUPlaneSend (i : Nat) (adc : List (Nat × List Cx))
  /-- FH_TIME_FAULT (R261): Network time stops being good enough and the unit stops DL runs and UL messages. -/
  | fhTimeFault
  /-- FH_RESUME (R261): At the first radio-frame boundary after the time condition clears the unit resumes. -/
  | fhResume
  /-- FHU_RET_POP (R263): A read pops a returned store slot and latches its symbol, or returns EMPTY. Operands: requester. -/
  | fhuRetPop (rq : Req)
  /-- FHU_RET_FREE (R263): A write releases a returned store slot. Operands: requester, slot. -/
  | fhuRetFree (rq : Req) (v : Word)
  /-- LRC_PREAMBLE_DETECT (R271): A channel's correlator declares a Tixia preamble and the demodulator enters PROVISIONAL. Operands: channel, SF, age of the first preamble sample in ns, RSSI in 0.25 dBm. -/
  | lrcPreambleDetect (c sf age : Nat) (rssi : Int)
  /-- LRC_HEADER (R272): The sync word and header are decoded and the frame commits, absorbs or is re-acquired. Operands: channel, the decoded sync word, the header's LENGTH, control byte and CRC-8. -/
  | lrcHeader (c sync len ctl crc : Nat)
  /-- LRC_CAPTURE (R273): A much stronger preamble on the channel abandons the current frame. Operands: channel, SF, age of the first preamble sample in ns, RSSI in 0.25 dBm. -/
  | lrcCapture (c sf age : Nat) (rssi : Int)
  /-- LRC_FRAME_END (R277): After a committed frame's last symbol the checks run and the frame is delivered or dropped. Operands: channel, age of the measured end in ns, whether CRC-16 passes, the MAC frame, SNR in 0.25 dB, carrier offset in Hz, whether MRAM takes the counter. -/
  | lrcFrameEnd (c age : Nat) (crc : Bool) (data : Bytes) (snr cfo : Int) (mram : Bool)
  /-- DOWNLINK_WINDOW_1 (R281): At END + DL_DELAY1 the downlink is tried in window 1. Operands: scheduled downlink. -/
  | downlinkWindow1 (num : Nat)
  /-- DOWNLINK_WINDOW_2 (R281): At END + DL_DELAY2 a downlink that failed window 1 is tried once more. Operands: scheduled downlink. -/
  | downlinkWindow2 (num : Nat)
  /-- TXA_DL_PUSH (R282): A write queues a downlink descriptor in the pending table, held while the table is full. Operands: requester, word. -/
  | txaDlPush (rq : Req) (v : Word)
  /-- TXA_DL_CPL_POP (R282): A read pops a downlink completion and latches its COOKIE, or returns EMPTY. Operands: requester. -/
  | txaDlCplPop (rq : Req)
  /-- EXPIRED (R282): A pending downlink's LIFETIME passes and it completes EXPIRED. Operands: pending-table index. -/
  | txaDlExpired (i : Nat)
  /-- TXA_CTR_DATA (R279): An on-device write sets a device's counter entry in MRAM. Operands: requester, word. -/
  | txaCtrData (rq : Req) (v : Word)
  /-- OFFSET_FEEDBACK_WRITE (R284): At the first idle instant the modem writes its CFO correction into SYN_FINE. -/
  | offsetFeedbackWrite
  /-- FB_DEFER (R284): FB_DEFER passes without an idle instant and the correction is written anyway. -/
  | fbDefer
  /-- ETH_FRAME_RECEIVE (R319): An Ethernet MAC checks a received frame and passes it to its ingress queue or drops it. Operands: port, age of its stamp in ns, whether its FCS is good, the frame without FCS. -/
  | ethFrameReceive (p age : Nat) (fcs : Bool) (data : Bytes)
  /-- PAUSE_END (R343): A PAUSE interval ends and the port starts packets again. Operands: Ethernet port. -/
  | pauseEnd (p : Nat)
  /-- PASS_START (R291): A pipe starts a pass of a recirculated or new packet in a pass slot. Operands: pipe. -/
  | passStart (pipe : Nat)
  /-- PASS_END (R303): A pass ends and the engine recirculates the packet or decides its forwarding. Operands: packet number. -/
  | passEnd (n : Nat)
  /-- FLOW_BUCKET_FETCH (R310): A flow-table bucket fetch returns and its waiting packets continue. Operands: bucket. -/
  | flowBucketFetch (b : Nat)
  /-- FLW_VER_COMMIT (R301): FLW_VER_CTL OP COMMIT checks the staged banks and swaps them. Operands: requester. -/
  | flwVerCommit (rq : Req)
  /-- COPY (R301): FLW_VER_CTL OP COPY copies every active bank into its staged bank. Operands: requester. -/
  | flwCopy (rq : Req)
  /-- DRAIN_END (R301): The last packet of the old version leaves and the commit completes with RULE_COMMIT. -/
  | drainEnd
  /-- FLW_LOAD (R300): FLW_TBL_CTL OP LOAD reads an entry into the window. Operands: requester. -/
  | flwLoad (rq : Req)
  /-- FLW_WRITE (R300): FLW_TBL_CTL OP WRITE checks and writes a staged or live entry. Operands: requester. -/
  | flwWrite (rq : Req)
  /-- FLW_CLEAR (R300): FLW_TBL_CTL OP CLEAR invalidates a staged or live entry. Operands: requester. -/
  | flwClear (rq : Req)
  /-- INSERT (R315): FLW_TBL_CTL OP INSERT places a flow or L2 entry in its bucket. Operands: requester. -/
  | flwInsert (rq : Req)
  /-- DELETE (R315): FLW_TBL_CTL OP DELETE removes a keyed entry and its partner. Operands: requester. -/
  | flwDelete (rq : Req)
  /-- AGING_SCAN (R314): The aging scan visits a bucket and removes expired flow and L2 entries. -/
  | agingScan
  /-- SW_TX_DESCRIPTOR_FETCH (R322): The part fetches a software-ring transmit descriptor once completions have room. Operands: ring. -/
  | swTxDescriptorFetch (r : Nat)
  /-- TX_CPL_POP (R322): A read pops a software-ring completion or returns EMPTY. Operands: requester, ring. -/
  | swTxCplPop (rq : Req) (r : Nat)
  /-- RX_FREE (R322): A write releases a software-ring packet handle. Operands: requester, ring, word. -/
  | swRxFree (rq : Req) (r : Nat) (v : Word)
  /-- PACKET_START (R342): A port's sink takes a packet and the scheduler starts it through the hierarchy under its gates. Operands: egress port. -/
  | packetStart (p : Nat)
  /-- TMG_TABLE_LOAD (R329): TMG_TBL_CTL OP LOAD copies an entry into the window. Operands: requester. -/
  | tmgTableLoad (rq : Req)
  /-- TMG_TABLE_WRITE (R329): TMG_TBL_CTL OP WRITE checks the window and replaces the entry. Operands: requester. -/
  | tmgTableWrite (rq : Req)
  /-- TMG_TABLE_CLEAR (R329): TMG_TBL_CTL OP CLEAR invalidates the entry. Operands: requester. -/
  | tmgTableClear (rq : Req)
  /-- CHANGE (R346): TMG_GATE_CTL OP CHANGE checks the administrative list and makes it pending. Operands: requester, Ethernet port, GATE_EN, ADMIN_LEN. -/
  | gateChangeOp (rq : Req) (p : Nat) (en : Bool) (len : Nat)
  /-- CANCEL (R346): TMG_GATE_CTL OP CANCEL ends a pending gate change. Operands: requester, Ethernet port, GATE_EN, ADMIN_LEN. -/
  | gateCancelOp (rq : Req) (p : Nat) (en : Bool) (len : Nat)
  /-- GATE_CHANGE (R346): At T_sw the gate banks swap and GATE_CHANGE is raised. Operands: Ethernet port. -/
  | gateChangeDue (p : Nat)
  /-- GATE_ENTRY_END (R345): A gate entry's INTERVAL ends and the next entry or cycle takes over. Operands: Ethernet port. -/
  | gateEntryEnd (p : Nat)
  /-- NTU_TIME_NS (R355): A read returns nanoseconds and latches seconds and raw counter from the same instant. Operands: requester. -/
  | ntuTimeNs (rq : Req)
  /-- ADJ (R358): NTU_TIME_CTL OP ADJ steps, slews or refuses an offset. Operands: requester. -/
  | ntuAdj (rq : Req)
  /-- SET (R358): NTU_TIME_CTL OP SET steps, slews or refuses the offset to the target time. Operands: requester. -/
  | ntuSet (rq : Req)
  /-- FORCE_ADJ (R360): NTU_TIME_CTL OP FORCE_ADJ, when armed, steps by any offset. Operands: requester. -/
  | ntuForceAdj (rq : Req)
  /-- FORCE_SET (R360): NTU_TIME_CTL OP FORCE_SET, when armed, steps to the target exactly. Operands: requester. -/
  | ntuForceSet (rq : Req)
  /-- HOLDOVER (R357): NTU_TIME_CTL OP HOLDOVER moves LOCKED to HOLDOVER. Operands: requester. -/
  | ntuHoldover (rq : Req)
  /-- UNLOCK (R357): NTU_TIME_CTL OP UNLOCK moves the time to UNLOCKED. Operands: requester. -/
  | ntuUnlock (rq : Req)
  /-- ARM (R360): A write of ARM 0xA5 with OP 0 sets ARMED for a forced step. Operands: requester. -/
  | ntuArm (rq : Req)
  /-- ARM_EXPIRY (R360): 1 ms after arming without a FORCE write ARMED clears. -/
  | ntuArmExpiry
  /-- SLEW_END (R359): A slew absorbs its offset and SLEWING clears. -/
  | slewEnd
  /-- SERVO_WATCHDOG (R361): SERVO_TO passes without servo activity and LOCKED becomes HOLDOVER. -/
  | servoWatchdog
  /-- TIME_RATE_WRITE (R353): A write of NTU_TIME_RATE_HI commits TIME_RATE and folds the correction into K. Operands: requester, value of NTU_TIME_RATE_HI. -/
  | timeRateWrite (rq : Req) (v : Word)
  /-- PPS_OUT_PULSE (R372): PPS_OUT rises at each second boundary plus OFFSET for WIDTH. -/
  | ppsOutPulse
  /-- PPS_IN (R372): A PPS_IN rising edge is stamped and counted. -/
  | ppsIn
  /-- TSYNC_IN_EDGE (R373): A selected TSYNC_IO input edge is stamped and counted. Operands: whether the edge rises. -/
  | tsyncInEdge (rising : Bool)
  /-- NTU_TSYNC_START (R373): A write arms a TSYNC_IO output pulse at a launch time. Operands: requester, launch time. -/
  | ntuTsyncStart (rq : Req) (v : Word)
  /-- TSYNC_OUT_PULSE (R373): An armed TSYNC_IO pulse is driven at its instant. -/
  | tsyncOutPulse
  /-- NTU_CAP_STAT (R373): A read latches both capture stamp registers. Operands: requester. -/
  | ntuCapStat (rq : Req)
  /-- NTU_TXTS_POP (R370): A read pops a transmit stamp into TXTS_VAL or returns EMPTY. Operands: requester. -/
  | ntuTxtsPop (rq : Req)
  /-- PTM_REQUEST (R371): NTU_PTM_CTL OP REQUEST sends one PTM Request. Operands: requester. -/
  | ptmRequest (rq : Req)
  /-- PTM_RESPONSE (R371): The PTM ResponseD arrives and its times are recorded. Operands: PTM Master Time, Propagation Delay. -/
  | ptmResponse (master delay : Nat)
  /-- PTM_TIMEOUT (R371): No PTM response within 1 ms completes with TIMEOUT. -/
  | ptmTimeout
  /-- SYNCE_SOURCE_LOSS (R374): The SyncE source lane loses lock or goes down and STATE becomes HOLDOVER. -/
  | synceSourceLoss
  /-- SYNCE_RELOCK (R374): 10 s after the source lane recovers STATE returns to LOCKED. Operands: the instant at which the source lane recovered. -/
  | synceRelock (back : Nat)
  /-- CORE_START (R378): APC_CORE_CTL RUN 0 to 1 starts an application core at START. Operands: requester, core. -/
  | coreStart (rq : Req) (c : Nat)
  /-- CORE_RESET (R378): APC_CORE_CTL RUN 1 to 0 resets an application core. Operands: requester, core. -/
  | coreReset (rq : Req) (c : Nat)
  /-- REGION_CORE_START (R381): RGC_CORE_CTL RUN 0 to 1 starts a region core at its instruction memory. Operands: requester, region. -/
  | regionCoreStart (rq : Req) (g : Nat)
  /-- REGION_CORE_RESET (R381): RGC_CORE_CTL RUN 1 to 0 resets a region core. Operands: requester, region. -/
  | regionCoreReset (rq : Req) (g : Nat)
  /-- READY (R385): TLY_ENQ_GO OP READY enqueues the staged bead on its rod. Operands: requester. -/
  | tlyReady (rq : Req)
  /-- DELAY (R391): TLY_ENQ_GO OP DELAY places the staged bead in a delay list. Operands: requester, delay list. -/
  | tlyDelay (rq : Req) (dlist : Nat)
  /-- TLY_DLY_CANCEL (R391): A write removes a delay entry by its handle. Operands: requester, delay handle. -/
  | tlyDlyCancel (rq : Req) (h : Nat)
  /-- DELAY_DUE (R391): At its tick a delay entry joins its rod with DELAYED=1. Operands: delay list, entry. -/
  | delayDue (l e : Nat)
  /-- TLY_PICK (R387): A read by a core hands it the head bead of its highest non-empty rod. Operands: requester. -/
  | tlyPick (rq : Req)
  /-- RECKONER_DISPATCH (R387): Tally loads an idle Tally-owned reckoner with a bead and starts it. Operands: reckoner. -/
  | reckonerDispatch (k : Nat)
  /-- TLY_DONE (R388): A write ends a held bead with its result and status. Operands: requester, status and handle. -/
  | tlyDone (rq : Req) (v : Word)
  /-- TLY_REL_POP (R390): A read pops a release entry and latches its result, or returns EMPTY. Operands: requester, release queue. -/
  | tlyRelPop (rq : Req) (q : Nat)
  /-- EVENT_EDGE (R394): An edge from an event source increments PEND and delivers by its routing kind. Operands: event number (R9). -/
  | eventEdge (n : Nat)
  /-- EVENT_BEAD (R395): The event controller enqueues a bead for a source once its rod accepts. Operands: event number. -/
  | eventBead (n : Nat)
  /-- EVT_CLAIM (R395): A read by a core claims its highest-priority pending source and zeroes PEND. Operands: requester. -/
  | evtClaim (rq : Req)
  /-- EVT_HCLAIM (R395): A read by a PCI Express function claims the next source routed to it. Operands: requester. -/
  | evtHclaim (rq : Req)
  /-- EVT_CLR (R395): A write sets a source's PEND to 0. Operands: requester, event number. -/
  | evtClr (rq : Req) (n : Nat)
  /-- RKN_START (R403): RKN_CTL OP START runs a software-owned reckoner from RKN_PC. Operands: requester, reckoner. -/
  | rknStart (rq : Req) (k : Nat)
  /-- RKN_STOP (R403): RKN_CTL OP STOP stops a reckoner with fault cause STOPPED. Operands: requester, reckoner. -/
  | rknStop (rq : Req) (k : Nat)
  /-- RKN_ACC (R27): A read of an accumulator returns its lane or BUSY while the reckoner runs. Operands: requester, reckoner, accumulator, lane, whether the high half. -/
  | rknAcc (rq : Req) (k a l : Nat) (hi : Bool)
  /-- NOP (R399): The reckoner does nothing for one cycle. Operands: reckoner. -/
  | rknNop (k : Nat)
  /-- HALT (R399): The reckoner stops and its bead is done with result S5. Operands: reckoner. -/
  | rknHalt (k : Nat)
  /-- LOOP (R399): The reckoner sets up a zero-overhead loop. Operands: reckoner. -/
  | rknLoop (k : Nat)
  /-- BRC (R399): The reckoner branches on a scalar condition. Operands: reckoner. -/
  | rknBrc (k : Nat)
  /-- DMA (R402): The reckoner starts a transfer between local and system memory. Operands: reckoner. -/
  | rknDma (k : Nat)
  /-- DMA_COMPLETE (R402): A reckoner DMA transfer completes or faults. Operands: reckoner, which of its outstanding transfers. -/
  | rknDmaComplete (k i : Nat)
  /-- DWAIT (R399): The reckoner waits until every DMA is complete. Operands: reckoner. -/
  | rknDwait (k : Nat)
  /-- LD (R399): The reckoner loads a vector from local memory. Operands: reckoner. -/
  | rknLd (k : Nat)
  /-- ST (R399): The reckoner stores a vector to local memory. Operands: reckoner. -/
  | rknSt (k : Nat)
  /-- LDE (R399): The reckoner loads one lane or element. Operands: reckoner. -/
  | rknLde (k : Nat)
  /-- STE (R399): The reckoner stores one lane or element. Operands: reckoner. -/
  | rknSte (k : Nat)
  /-- VADD (R399): The reckoner adds two vectors with a rounded shift. Operands: reckoner. -/
  | rknVadd (k : Nat)
  /-- VSUB (R399): The reckoner subtracts two vectors with a rounded shift. Operands: reckoner. -/
  | rknVsub (k : Nat)
  /-- VMUL (R399): The reckoner multiplies two vectors with rounding. Operands: reckoner. -/
  | rknVmul (k : Nat)
  /-- VMAC (R399): The reckoner accumulates vector products into an accumulator. Operands: reckoner. -/
  | rknVmac (k : Nat)
  /-- VMSU (R399): The reckoner subtracts vector products from an accumulator. Operands: reckoner. -/
  | rknVmsu (k : Nat)
  /-- AMOV (R399): The reckoner moves a rounded, shifted accumulator into a vector. Operands: reckoner. -/
  | rknAmov (k : Nat)
  /-- ACLR (R399): The reckoner clears an accumulator. Operands: reckoner. -/
  | rknAclr (k : Nat)
  /-- VBFLY (R399): The reckoner performs decimation-in-frequency butterflies. Operands: reckoner. -/
  | rknVbfly (k : Nat)
  /-- VSH (R399): The reckoner shifts a vector left or right. Operands: reckoner. -/
  | rknVsh (k : Nat)
  /-- SLI (R399): The reckoner loads a sign-extended immediate into a scalar. Operands: reckoner. -/
  | rknSli (k : Nat)
  /-- SLUI (R399): The reckoner loads an immediate into a scalar's upper bits. Operands: reckoner. -/
  | rknSlui (k : Nat)
  /-- SADDI (R399): The reckoner adds an immediate to a scalar. Operands: reckoner. -/
  | rknSaddi (k : Nat)
  /-- SADD (R399): The reckoner adds two scalars. Operands: reckoner. -/
  | rknSadd (k : Nat)
  /-- SETP (R399): The reckoner sets an address pointer. Operands: reckoner. -/
  | rknSetp (k : Nat)
  /-- SETM (R399): The reckoner sets an address modifier. Operands: reckoner. -/
  | rknSetm (k : Nat)
  /-- SRAM_SCRUB (R412): The scrub reads a word, corrects single-bit errors and records uncorrectable ones. Operands: word address, outcome (0 clean, 1 single-bit error, 2 uncorrectable). -/
  | sramScrub (a outcome : Nat)
  /-- DRAM_COMMAND (R419): A DRAM channel picks and issues the next command by panic, age, row hit and class. Operands: channel, requests that have arrived, what the line read shows, its number. -/
  | dramCommand (c : Nat) (arrivals : List DramArrival) (ecc line : Nat)
  /-- THROTTLE_END (R423): THROT_WIN passes and the offender's activations are no longer spaced. Operands: channel. -/
  | throttleEnd (c : Nat)
  /-- DRAM_REFRESH (R419): tREFI elapses and the channel refreshes, postponed while a port is in PANIC. Operands: channel. -/
  | dramRefresh (c : Nat)
  /-- ZQ_CALIBRATION (R418): Every 100 ms the channel repeats ZQ calibration and drift tracking. Operands: channel. -/
  | zqCalibration (c : Nat)
  /-- DRAM_TEMP_POLL (R418): Every 10 ms the channel reads device temperature and sets the refresh rate. Operands: channel, refresh rate the devices ask for. -/
  | dramTempPoll (c rate : Nat)
  /-- PAGE_IDLE (R419): PAGE_IDLE cycles without a request precharge the bank's open row. Operands: channel, bank, rank. -/
  | pageIdle (c bank rank : Nat)
  /-- PANIC (R421): A real-time port's FIFO crosses PANIC_LO and it raises PANIC. Operands: channel, real-time port, lines its FIFO holds, whether a write port. -/
  | dmcPanic (c port lines : Nat) (write : Bool)
  /-- RT_STARVE (R421): A panic lasting longer than PANIC_MAX counts RT_LATE and raises RT_STARVE. Operands: channel, real-time port. -/
  | dmcRtStarve (c port : Nat)
  /-- GET_RANDOM (R444): Kiln returns random bytes from its DRBG. -/
  | getRandom
  /-- ATTEST (R446): Kiln returns a signed attestation report over the part's state and the nonce. -/
  | klnAttest
  /-- GET_CERT (R444): Kiln returns the device certificate. -/
  | getCert
  /-- IMPORT (R448): Kiln unwraps a key blob under a KEK slot into a target slot. -/
  | klnImport
  /-- DERIVE (R448): Kiln derives a key from the DUS and a label into a target slot. -/
  | klnDerive
  /-- DEPLOY_TOKEN (R439): An owner DEPLOY token stages the move to DEPLOYED. -/
  | deployToken
  /-- RETURN_TOKEN (R439): An owner RETURN token stages the move to RETURNED. -/
  | returnToken
  /-- SCRAP_TOKEN (R439): A SCRAP token stages the move to SCRAPPED. -/
  | scrapToken
  /-- KEY_ADD (R439): A KEY_ADD token enrols a new owner pair in a free entry. -/
  | keyAdd
  /-- KEY_REVOKE (R439): A KEY_REVOKE token removes an enrolled owner pair. -/
  | keyRevoke
  /-- LOCK_TOKEN (R440): An authority LOCK token installs a new regulatory lock and clears every AFC grant. -/
  | lockToken
  /-- DEBUG_TOKEN (R457): A DEBUG token zeroises slots and secure banks and opens debug. -/
  | debugToken
  /-- SLOT_WRITE (R447): CIP_SLOT_CTL OP WRITE loads the staged key into a slot when the group's WRITERS allows. Operands: requester, slot, whether the key is of 32 bytes. -/
  | slotWrite (rq : Req) (slot : Nat) (long : Bool)
  /-- SLOT_CLEAR (R447): CIP_SLOT_CTL OP CLEAR empties a slot when the group's WRITERS allows. Operands: requester, slot. -/
  | slotClear (rq : Req) (slot : Nat)
  /-- GCM_ENC (R452): A job encrypts and tags with AES-GCM. Operands: job ring. -/
  | gcmEnc (r : Nat)
  /-- GCM_DEC (R453): A job decrypts with AES-GCM, writing output before the tag compare. Operands: job ring. -/
  | gcmDec (r : Nat)
  /-- GMAC_GEN (R452): A job generates a GMAC tag. Operands: job ring. -/
  | gmacGen (r : Nat)
  /-- GMAC_VER (R452): A job verifies a GMAC tag. Operands: job ring. -/
  | gmacVer (r : Nat)
  /-- CCM_ENC (R452): A job encrypts and tags with AES-CCM. Operands: job ring. -/
  | ccmEnc (r : Nat)
  /-- CCM_DEC (R453): A job decrypts with AES-CCM, writing output before the tag compare. Operands: job ring. -/
  | ccmDec (r : Nat)
  /-- XTS_ENC (R452): A job encrypts a data unit with XTS-AES. Operands: job ring. -/
  | xtsEnc (r : Nat)
  /-- XTS_DEC (R452): A job decrypts a data unit with XTS-AES. Operands: job ring. -/
  | xtsDec (r : Nat)
  /-- CTR (R452): A job runs AES counter mode. Operands: job ring. -/
  | cipCtr (r : Nat)
  /-- CMAC_GEN (R452): A job generates a CMAC tag. Operands: job ring. -/
  | cmacGen (r : Nat)
  /-- CMAC_VER (R452): A job verifies a CMAC tag. Operands: job ring. -/
  | cmacVer (r : Nat)
  /-- JOB_COMPLETION (R452): A job-ring job finishes and its completion enters the ring's completion queue. Operands: job ring. -/
  | jobCompletion (r : Nat)
  /-- CPL_POP (R451): A read pops a job completion and latches its COOKIE, or returns EMPTY. Operands: requester, job ring. -/
  | cipCplPop (rq : Req) (r : Nat)
  /-- TRNG_HEALTH_FAIL (R445): A failed health test restarts the entropy source, and a third consecutive failure fails the TRNG. -/
  | trngHealthFail
  /-- DRBG_RESEED (R445): At least once per millisecond of use the DRBG is reseeded with 384 bits. -/
  | drbgReseed
  /-- ASH_RECORD_WRITE (R496): MRAM takes the next queued Ash record under the next SEQ. -/
  | ashRecordWrite
  /-- COALESCE_CLOSE (R496): A coalescing window closes and one record with the accumulated COUNT is queued. Operands: index of the coalescing slot. -/
  | coalesceClose (i : Nat)
  /-- INCIDENT_CLOSE (R498): INC_QUIET without an opening record closes the incident and writes its summary. -/
  | incidentClose
  /-- RELEASE (R501): ASH_CTL OP RELEASE frees an incident slot. Operands: requester, slot. -/
  | ashRelease (rq : Req) (slot : Nat)
  /-- AGING_MEASURE (R502): A region's aging monitors are measured and an AGING record written, warning past AGE_WARN. Operands: region, worst slowdown in 0.01 %. -/
  | agingMeasure (r slow : Nat)
  /-- POLARITY_RETRY (R509): A lane not locked 1 ms after signal detect inverts its receive data and tries again. Operands: lane. -/
  | polarityRetry (n : Nat)
  /-- LINK_UP (R510): A port holds alignment for 10 ms and comes up. Operands: port (8 and 9 the fronthaul lanes), negotiated speed, PCS lane and eye of each of its lanes. -/
  | linkUp (p speed : Nat) (pos eye : List Nat)
  /-- LINK_DOWN (R510): A port loses alignment or sees a remote fault and goes down. Operands: port (8 and 9 the fronthaul lanes). -/
  | linkDown (p : Nat)
  /-- HL_LINK (R530): The PCI Express link changes state and HL_LINK is raised. Operands: whether the link is up now, lane reversal, generation, width. -/
  | hlLink (up reversed : Bool) (gen width : Nat)
  /-- PERST_RISE (R512): PERST# rises, starting link training or waking the part from Dormant. -/
  | perstRise
  /-- PERST_FALL (R518): PERST# falls and every function resets, flushing its ring. -/
  | perstFall
  /-- FUNCTION_LEVEL_RESET (R518): A function-level reset resets one function and flushes its ring. Operands: function. -/
  | functionLevelReset (f : Nat)
  /-- RETRY_STATUS_END (R512): 20 ms after PERST# rise the part stops answering with Request Retry Status. -/
  | retryStatusEnd
  /-- WRITE_REG (R520): An SMBus WRITE_REG performs one register write. Operands: ADDR, DATA, block count, whether the PEC is absent or right. -/
  | smbusWriteReg (a : Nat) (v : Word) (count : Nat) (pecOk : Bool)
  /-- SET_ADDR (R520): An SMBus SET_ADDR sets the read pointer and burst. Operands: ADDR, BURST, block count, whether the PEC is absent or right. -/
  | smbusSetAddr (a burst count : Nat) (pecOk : Bool)
  /-- SMBUS_READ (R520): An SMBus READ returns BURST words and a code and advances the pointer. -/
  | smbusRead
  /-- STATUS (R520): An SMBus STATUS returns the busy, error and last-code byte. -/
  | smbusStatus
  /-- PUSH (R520): An SMBus PUSH writes image bytes to AO_PUSH_DATA in order. Operands: image bytes, block count, whether the PEC is absent or right. -/
  | smbusPush (d : Bytes) (count : Nat) (pecOk : Bool)
  /-- ALERT_RESPONSE (R521): A read of the Alert Response Address returns the address and releases ALERT#. -/
  | smbusAlertResponse
  /-- SCL_TIMEOUT (R522): SCL low for 35 ms abandons the transfer. -/
  | smbusSclTimeout
  /-- SMB_FAULT (R522): SDA held low for 35 ms raises SMB_FAULT and makes the target passive. -/
  | smbFault
  /-- SMB_BUS_IDLE (R522): The bus idle for 1 ms returns a passive target to service. -/
  | smbBusIdle
  /-- XSPI_READ (R524): XIO_SPI_CTL OP READ reads flash into a system buffer. Operands: requester, word written to XIO_SPI_CTL (OP taken as READ). -/
  | xspiRead (rq : Req) (v : Word)
  /-- PROGRAM (R524): XIO_SPI_CTL OP PROGRAM programs a flash page. Operands: requester, word written to XIO_SPI_CTL (OP taken as PROGRAM). -/
  | xspiProgram (rq : Req) (v : Word)
  /-- ERASE_4K (R524): XIO_SPI_CTL OP ERASE_4K erases a 4 KiB sector. Operands: requester, word written to XIO_SPI_CTL (OP taken as ERASE_4K). -/
  | xspiErase4K (rq : Req) (v : Word)
  /-- ERASE_64K (R524): XIO_SPI_CTL OP ERASE_64K erases a 64 KiB block. Operands: requester, word written to XIO_SPI_CTL (OP taken as ERASE_64K). -/
  | xspiErase64K (rq : Req) (v : Word)
  /-- XSPI_DONE (R524): A software flash operation completes and raises XSPI_DONE. Operands: whether the device did it. -/
  | xspiDone (ok : Bool)
  /-- IDCODE (R525): The JTAG IDCODE instruction returns 0x1640_0A97. -/
  | jtagIdcode
  /-- BYPASS (R525): The JTAG BYPASS instruction selects the bypass register. -/
  | jtagBypass
  /-- GPIO (R526): An enabled GPIO input edge sets its EDGE bit and raises GPIO. Operands: pin, its new level. -/
  | gpioEdge (n : Nat) (level : Bool)
  /-- ENERGY_DETECT (R189): Energy on a 20 MHz subchannel crosses ED_LVL, or a secondary guard-interval signal crosses SEC_LVL, and CCA changes between busy and idle, which the access controller sees within 200 ns. Operands: link, subchannel, power in dBm, whether it is a guard-interval signal. -/
  | energyDetect (l sub : Nat) (dbm : Int) (gi : Bool)
  /-- REGION_CORE_TRAP (R381): A running region core takes an unhandled exception, enters STATE TRAP and records TRAP_PC. Operands: region, offset of the exception. -/
  | regionCoreTrap (g pc : Nat)
  /-- SLEEP_OSCILLATOR_STOP (R549): The 32.768 kHz sleep oscillator stops, after which the sleep counter, the TIMER wake, AO_WAKE_TICKS and the elapsed ticks E stop counting. -/
  | sleepOscillatorStop
  /-- CONFIGURATION_REQUEST (R512): A PCI Express configuration request is answered, with Request Retry Status until 20 ms after PERST# rise, and a write enabling MSI-X or PTM may send a pending MSI-X message. Operands: function, request. -/
  | configurationRequest (f : Nat) (q : CfgReq)
  deriving DecidableEq, Repr

end Sys2Proof
end

