-- ==== Sys2Proof/Config.lean ====
section
/-! DEFINITION. What spec/ names but leaves open: free values (constants with no body, applied to a counter of the state
or to operands) and the cryptographic and analogue functions whose results spec/ does not spell out. Nothing can be
proved of their values. -/
namespace Sys2Proof.Config

/-- A fresh unstated word, applied to the state's counter of free values. -/
opaque freeWord : Nat → BitVec 32

/-- A fresh unstated choice, applied to the state's counter of free values. -/
opaque freeNat : Nat → Nat

/-- Unstated bytes: counter, length. -/
opaque freeBytes : Nat → Nat → List (BitVec 8)

/-- The fused device identity (IDN_DEVICE_ID). -/
opaque deviceId : Nat

/-- Source number of another engine of the part (region, block) in a requester ID. -/
opaque engineSource : Nat → Nat → BitVec 5

/-- SHA-384 of a run of bytes. -/
opaque sha384 : List (BitVec 8) → List (BitVec 8)

/-- ECDSA P-384 verification: public key, message, signature. -/
opaque ecdsaOk : List (BitVec 8) → List (BitVec 8) → List (BitVec 8) → Bool

/-- ML-DSA-65 verification: public key, message, signature. -/
opaque mldsaOk : List (BitVec 8) → List (BitVec 8) → List (BitVec 8) → Bool

/-- A MAC or key-derivation value: kind of function, key, data, length in bytes. -/
opaque mac : Nat → List (BitVec 8) → List (BitVec 8) → Nat → List (BitVec 8)

/-- A cipher's output: algorithm number, key, nonce or tweak, additional data, input. -/
opaque cipher : Nat → List (BitVec 8) → List (BitVec 8) → List (BitVec 8) → List (BitVec 8) → List (BitVec 8)

/-- A signature by the device key over a run of bytes. -/
opaque deviceSign : List (BitVec 8) → List (BitVec 8)

/-- The device certificate. -/
opaque deviceCert : List (BitVec 8)

/-- Root-key KDF labels and the like: the device-unique secret. -/
opaque deviceSecret : List (BitVec 8)

/-- Output of Kiln's DRBG: state counter, length. -/
opaque drbg : Nat → Nat → List (BitVec 8)

/-- Which way a tie rounds (R399 states no rule for ties): the value, the shift. -/
opaque tieUp : Int → Nat → Bool

/-- A decompressed sample outside 16 bits (R253 states no rule for it): mantissa, exponent. -/
opaque bfpOver : Int → Nat → BitVec 16

/-- What RGC_RESTACK_STAT.GAP shows of a GAP that its 8 bits do not hold (R66 bounds no RFFE_COUNT). -/
opaque gapWide : Nat → BitVec 8

/-- The most refreshes JEDEC lets a type of DRAM postpone (R422). -/
opaque refreshPostpone : Nat → Nat

/-- The last used tone of a WLAN carrier of bandwidth code BW (R127: spec/ states only 320 MHz, 2,036). -/
opaque lastTone : Nat → Nat

/-- A word of a factory calibration set in the identity store (R158): quadrant, path, set, word. -/
opaque factoryCal : Nat → Nat → Nat → Nat → BitVec 32

/-- The 12-bit hash of R293 over addresses, protocol and ports. -/
opaque flowHash : List (BitVec 8) → Nat

/-- The Stovoran service pair in Kiln's ROM (R438): its ECDSA and ML-DSA public keys. -/
opaque stovoranEc : List (BitVec 8)
@[inherit_doc stovoranEc] opaque stovoranPq : List (BitVec 8)

/-- A route's latency in ns through DFE, beam slice and die link (R117): its SAMPLE_ROUTE entry, the quadrant's rate plan, whether transmit. -/
opaque routeLatency : List (BitVec 8) → Nat → Bool → Nat

/-- The bias current of a path while its output is on, as PATH_STAT.I_BIAS shows it (R92): time, global path. -/
opaque biasCurrent : Nat → Nat → BitVec 8

/-- The consumer's AGC bypasses the low-noise amplifier of a path (R90): time, global path. -/
opaque agcBypass : Nat → Nat → Bool

/-- Cosine of `n` / `d` of a turn times 2^30, as the part rounds it (R118, R119). -/
opaque cosTurn : Int → Nat → Int

/-- Power response of the fixed stages of the transmit chain (R118): rate plan, standard rate in Hz, offset in 100 kHz. -/
opaque stagePower : Nat → Nat → Nat → Nat

/-- A symbol's tones to samples with their cyclic prefix, and samples to tones (R110, R111): role of the route. -/
opaque ifftCp : Nat → List (Int × Int) → List (Int × Int)
@[inherit_doc ifftCp] opaque fft : Nat → List (Int × Int) → List (Int × Int)

/-- The adaptive decision-feedback equaliser of DSSS (R188: 16 taps forward at half-chip spacing, 8 back at chip spacing, trained on SYNC by LMS): exponents of
both step sizes, half-chip samples; its chip decisions. -/
opaque dsssDfe : Nat → Nat → List (Int × Int) → List (Int × Int)

/-- The chip-matched filter of DSSS (R188). -/
opaque dsssMatched : List (Int × Int) → List (Int × Int)

/-- The PLCP header that chips spell: SIGNAL, LENGTH in µs, whether its CRC-16 passes. -/
opaque plcpHeader : List (Int × Int) → Nat × Nat × Bool

/-- Time in ns from the first sample of a PPDU to its first data symbol (R206): rate in the RATE layout. -/
opaque preambleNs : Nat → Nat

/-- Airtime in µs of a frame (R237): rate in the RATE layout, bytes. -/
opaque frameAir : Nat → Nat → Nat

/-- The address of the distributed unit behind a fronthaul lane (R244: spec/ gives the part's own alone): lane. -/
opaque duMac : Nat → BitVec 48

/-- Time in ns that Kiln takes to check a grant record (R239): its address. -/
opaque afcNs : Nat → Nat

/-- Samples at a rate to samples at that rate times a ratio (R116): numerator, denominator. -/
opaque resample : Nat → Nat → List (Int × Int) → List (Int × Int)

/-- Samples shifted in frequency by an NCO word (R117). -/
opaque ncoShift : Nat → List (Int × Int) → List (Int × Int)

/-- A run after one peak has been cancelled by a pulse shaped to a filter's passband (R120): coefficients, threshold in 0.1 dB, the run, the peak's place. -/
opaque cfrCancel : List Nat → Nat → List (Int × Int) → Nat → List (Int × Int)

/-- The fixed interpolator by 2 that feeds the DAC (R110). -/
opaque dacTwo : List (Int × Int) → List (Int × Int)

end Sys2Proof.Config
end

