-- ==== Sys2Proof/Machine/Bits.lean ====
section
/-! DEFINITION. Bit fields of words, little-endian fields of byte runs, signed readings of fields, saturation. -/
namespace Sys2Proof.Machine

/-- Bits [hi:lo] of a number. -/
def bits (n hi lo : Nat) : Nat := n / 2 ^ lo % 2 ^ (hi + 1 - lo)

/-- Bit `i` of a number as a Bool. -/
def bitOf (n i : Nat) : Bool := n / 2 ^ i % 2 == 1

/-- `n` with bits [hi:lo] replaced by the low bits of `v`. -/
def setBits (n hi lo v : Nat) : Nat :=
  n - bits n hi lo * 2 ^ lo + v % 2 ^ (hi + 1 - lo) * 2 ^ lo

/-- Bits [hi:lo] of a word as a number. -/
def wbits (w : Word) (hi lo : Nat) : Nat := Machine.bits w.toNat hi lo

/-- A word with bits [hi:lo] replaced. -/
def wset (w : Word) (hi lo v : Nat) : Word := w32 (Machine.setBits w.toNat hi lo v)

/-- A `w`-bit number read as two's complement. -/
def signed (w n : Nat) : Int :=
  if n % 2 ^ w < 2 ^ (w - 1) then (n % 2 ^ w : Nat) else (n % 2 ^ w : Nat) - (2 ^ w : Nat)

/-- The `w`-bit two's complement encoding of an integer, wrapping. -/
def unsigned (w : Nat) (i : Int) : Nat := (i % (2 ^ w : Nat)).toNat

/-- An integer clamped to the range lo to hi. -/
def clampI (lo hi i : Int) : Int := if i < lo then lo else if hi < i then hi else i

/-- A number saturating at `m`. -/
def satAdd (m a b : Nat) : Nat := if m < a + b then m else a + b

/-- The quotient rounded up. -/
def ceilDiv (a b : Nat) : Nat := (a + b - 1) / b

/-- `n` bytes, little-endian, of a number. -/
def leBytes : Nat → Nat → Bytes
  | 0, _ => []
  | n + 1, v => b8 v :: leBytes n (v / 256)

/-- The number a little-endian run of bytes spells. -/
def leNat : Bytes → Nat
  | [] => 0
  | b :: t => b.toNat + 256 * leNat t

/-- The number a big-endian run of bytes spells (network order). -/
def beNat (bs : Bytes) : Nat := leNat bs.reverse

/-- `n` bytes, big-endian, of a number. -/
def beBytes (n v : Nat) : Bytes := (leBytes n v).reverse

/-- `n` bytes of a run from offset `o`; bytes past the end read 0. -/
def slice (bs : Bytes) (o n : Nat) : Bytes :=
  ((bs.drop o).take n) ++ List.replicate (n - ((bs.drop o).take n).length) 0

/-- Little-endian field of `n` bytes at offset `o`. -/
def leAt (bs : Bytes) (o n : Nat) : Nat := leNat (slice bs o n)

/-- Big-endian field of `n` bytes at offset `o`. -/
def beAt (bs : Bytes) (o n : Nat) : Nat := beNat (slice bs o n)

/-- The run with the bytes `v` laid over it from offset `o`; bytes past its end are dropped. -/
def patch (bs : Bytes) (o : Nat) (v : Bytes) : Bytes :=
  bs.take o ++ (v.take (bs.length - o) ++ bs.drop (o + v.length))

/-- Every byte of a run is zero. -/
def allZero (bs : Bytes) : Bool := bs.all (· == 0)

/-- Bit `i` of a mask held as a number. -/
def maskHas (m i : Nat) : Bool := bitOf m i

/-- The indices below `n` whose bit is set in a mask. -/
def maskList (m n : Nat) : List Nat := (List.range n).filter (bitOf m ·)

/-- The mask with bit `i` set. -/
def maskSet (m i : Nat) : Nat := if bitOf m i then m else m + 2 ^ i

/-- The mask with bit `i` clear. -/
def maskClr (m i : Nat) : Nat := if bitOf m i then m - 2 ^ i else m

/-- The mask whose set bits are the indices of a list. -/
def maskOf (l : List Nat) : Nat := l.foldl maskSet 0

/-- One step of CRC-32C over a byte (reflected polynomial 0x82F63B78). -/
def crc32cBit : Nat → Nat → Nat
  | 0, c => c
  | n + 1, c => crc32cBit n (if c % 2 = 1 then Nat.xor (c / 2) 0x82F63B78 else c / 2)

/-- CRC-32C of a run of bytes (R494). -/
def crc32c (bs : Bytes) : Nat :=
  Nat.xor (bs.foldl (fun c b => crc32cBit 8 (Nat.xor c b.toNat)) 0xFFFFFFFF) 0xFFFFFFFF

/-- Element `i` of a list updated. -/
def updAt {α : Type} (l : List α) (i : Nat) (f : α → α) : List α := l.modify i f

/-- An element put into a list before the first that it precedes. -/
def insertBy {α : Type} (lt : α → α → Bool) (x : α) : List α → List α
  | [] => [x]
  | y :: t => if lt x y then x :: y :: t else y :: insertBy lt x t

/-- A list in order, equals in their order. -/
def sortBy {α : Type} (lt : α → α → Bool) (l : List α) : List α := l.foldl (fun m x => insertBy lt x m) []

/-- The least natural number below `n` that satisfies `p`. -/
def firstBelow (n : Nat) (p : Nat → Bool) : Option Nat := (List.range n).find? p

end Sys2Proof.Machine
end

