-- ==== Sys2Proof/Machine/Operands.lean ====
section
/-! DEFINITION. Who a requester is: requester IDs (R10, R380, R514, R519), the classes the access rules name, and the
copy of a per-requester register that it reaches (R385, R443, R447). -/
namespace Sys2Proof.Machine

/-- Requester ID of an engine: its region (R10), with a source number that spec/ does not give (notes/assumptions/7.md). -/
def engineId (region block : Nat) : Nat := region % 8 * 32 + (Config.engineSource region block).toNat

/-- Requester ID (R10, R380, R514). -/
def reqId : Req → Nat
  | .core n => 0xC0 + n % 8
  | .kiln => 0xC8
  | .tally => 0xC9
  | .evtCtl => 0xCA
  | .jtag => 0xCB
  | .pcie f => 0xD0 + f % 8
  | .rkn k => 0x88 + k % 32 / 2
  | .rcore r => r % 8 * 32 + 0x1F
  | .smbus => 0xE4
  | .engine r b => engineId r b

/-- An application core. -/
def isCore : Req → Bool
  | .core n => decide (n < 8)
  | _ => false

/-- An on-device core: an application core, a region core or Kiln. -/
def onDevice : Req → Bool
  | .core n => decide (n < 8)
  | .rcore r => decide (r < 6)
  | .kiln => true
  | _ => false

/-- A requester on PCI Express or SMBus, outside the part. -/
def isHost : Req → Bool
  | .pcie _ => true
  | .smbus => true
  | _ => false

/-- A requester outside the part: PCI Express, SMBus or JTAG (R30). -/
def isOutside : Req → Bool
  | .pcie _ => true
  | .smbus => true
  | .jtag => true
  | _ => false

/-- The copy of Tally's per-requester registers (R385): application cores 0 to 7, then the region cores. -/
def tallyCopy : Req → Option Nat
  | .core n => if n < 8 then some n else none
  | .rcore r => if r < 6 then some (8 + r) else none
  | _ => none

/-- The copy of the Kiln mailbox registers (R443): application cores, region cores, PCI Express function 0. -/
def mailCopy : Req → Option Nat
  | .core n => if n < 8 then some n else none
  | .rcore r => if r < 6 then some (8 + r) else none
  | .pcie 0 => some 14
  | _ => none

/-- The copy of the key-slot staging registers (R447): application cores, region cores. -/
def slotCopy : Req → Option Nat
  | .core n => if n < 8 then some n else none
  | .rcore r => if r < 6 then some (8 + r) else none
  | .kiln => some 14
  | _ => none

end Sys2Proof.Machine
end

