-- ==== Sys2Proof/Machine/RegTable.lean ====
section
/-! DEFINITION. The registers of the part by name: base address, the strides and counts of their instances, reset word
and fields with their access codes, one line per register, transcribed from the register headings of spec/ (R3, R5, R6). -/
namespace Sys2Proof.Machine

/-- Access codes of a register field (R5). -/
inductive Acc where
  | rw | ro | w1c | wo | rp | rwl | rc
  deriving DecidableEq, Repr

/-- Every register of the manual, under its own name; an array of registers is one name with indexes. -/
inductive Reg where
  | RGC_QOS_WGT | RGC_EARLY_READ | RGC_FENCE_CAUSE | RGC_EBUF_LAT | RGC_EBUF_SLIP
  | AO_STATUS | AO_PUSH_CTL | AO_PUSH_DATA | AO_PUSH_STAT | AO_BOOT_INFO
  | AO_IMAGE_SERIAL | AO_SERIAL_FLOOR | RGC_RESTACK_CTL | RGC_RESTACK_TIME | RGC_RESTACK_STAT
  | RGC_STACK_CUR | PATH_CTL | PATH_STAT | SYN_STAT | SYN_FINE
  | RGC_ASYNC_CFG | FEN_PROT_CFG | FEN_RFFE_CMD | FEN_RFFE_RSP | FEN_RFFE_CFG
  | FEN_RFFE_POLL | FEN_FAST_TIM | FEN_BIAS | FEN_COEX_CFG | FEN_CNT_DELAYED
  | FEN_CNT_LATE | FEN_CNT_LOCK_LOST | FEN_CNT_GUARD_CLAMP | FEN_CNT_GUARD_BLOCK | FEN_CNT_COEX_PREEMPT
  | FEN_CNT_RFFE_NOACK | FEN_CNT_PATH_FAULT | DFE_ROUTE_STAT | DFE_TXF_COEF | DFE_MASK
  | DFE_TXF_CTL | DFE_TXF_STAT | DFE_CFR_CFG | DFE_CNT_CFR | BEAM_TBL_BASE
  | BEAM_CFG | BEAM_COMMIT | BEAM_STAT | BEAM_CNT_MISS | BEAM_CNT_BADREC
  | BEAM_CNT_NORM | DPD_CTL | DPD_COMMIT | DPD_STAT | DPD_CNT_SAT
  | DPD_CNT_REVERT | ORX_CFG | ORX_CPL | ORX_RING_BASE | ORX_CAP_POP
  | ORX_SLOT_FREE | ORX_CNT_VISIT | ORX_CNT_STALL | ORX_CNT_ABANDON | CAL_CTL
  | CAL_CFG | CAL_STAT | CAL_TEMP | CAL_QW | CAL_QW_INFO
  | CAL_REJ | CAL_CNT_RUN | CAL_CNT_REJECT | CAL_CNT_FORCED | CAL_CNT_REBOOK
  | CAL_WIN_SEL | CAL_COMMIT | CAL_RED | CAL_XP_CTL | CAL_XP_ADDR
  | CAL_XP_STAT | HKA_CFG | HKA_POP | HKA_QLEVEL | HKA_CHK_STAT
  | HKA_CH | HKA_VAL | HKA_CNT_QDROP | HKA_CNT_PLAUS | PHY_LINK_STAT
  | PHY_CFG | PHY_MAX_PSDU | PHY_PUNCT | PHY_CCA_CFG | PHY_CCA_STAT
  | PHY_DSSS_CFG | PHY_RX_PPDU | PHY_FALSE_START | PHY_CAPTURE_LOST | PHY_OVERSIZE
  | PHY_UNSUPPORTED | PHY_HDR_FAIL | PHY_RX_ABORT | PHY_TX_PPDU | PHY_TX_NOSTART
  | SND_CFG | SND_RING_BASE | SND_RING_SIZE | SND_EST_POP | SND_SLOT_FREE
  | SND_CNT_DROP | LDPC_CFG | LDPC_STAT | LDPC_CNT_DROP | LDPC_CNT_FAIL
  | PHY_DFS_CFG | PHY_DFS_CTL | PHY_DFS_MAP | PHY_DFS_POP | PHY_DFS_STAMP
  | PHY_DFS_QDROP | PHY_DFS_PAT_W0 | PHY_DFS_PAT_W1 | WAC_LINK_CFG | WAC_MLD_ADDR_LO
  | WAC_MLD_ADDR_HI | WAC_EDCA | WAC_SCHED_CFG | WAC_TWT_CFG | WAC_BA_CFG
  | WAC_Q_CFG | WAC_LINK_STAT | WAC_TBL_SEL | WAC_TBL_CTL | WAC_TBL_STAT
  | WAC_TBL_WIN | WAC_MTX_BASE | WAC_MTX_CFG | WAC_MTX_TAIL | WAC_MTX_HEAD
  | WAC_MTX_CPL_POP | WAC_MRX_BASE | WAC_MRX_CFG | WAC_MRX_TAIL | WAC_MRX_HEAD
  | WAC_MRX_FREE | WAC_BSR_POP | WAC_AFC_ADDR | WAC_AFC_CTL | WAC_AFC_STAT
  | WAC_AFC_SERIAL | WAC_CNT_DUP | WAC_CNT_OLD | WAC_CNT_REPLAY | WAC_CNT_MIC_FAIL
  | WAC_CNT_REORDER_TO | WAC_CNT_RETRY_DROP | WAC_CNT_LIFETIME | WAC_CNT_TWT_MISS | WAC_CNT_TWT_TEARDOWN
  | WAC_CNT_UNAUTH | WAC_CNT_NOSTA | WAC_CNT_TX_OVERSIZE | WAC_CNT_MRX_DROP | WAC_CNT_QW_UNCOVERED
  | WAC_CNT_BCN_DROP | WAC_CNT_REFUSED | FHU_CFG | FHU_FRAME_OFF | FHU_TIME_CFG
  | FHU_WIN_UP | FHU_WIN_CPDL | FHU_WIN_CPUL | FHU_MAX_FRAME | FHU_MAC_LO
  | FHU_MAC_HI | FHU_BUF_BASE | FHU_BUF_CFG | FHU_STAT | FHU_CAR_CFG
  | FHU_CAR_DYN | FHU_GAP_W0 | FHU_GAP_W1 | FHU_EAXC_W0 | FHU_EAXC_W1
  | FHU_RET_POP | FHU_RET_INFO | FHU_RET_FREE | FHU_CNT_ON_TIME | FHU_CNT_EARLY
  | FHU_CNT_LATE | FHU_CNT_CP_EARLY | FHU_CNT_CP_LATE | FHU_CNT_MALFORMED | FHU_CNT_UNSUPPORTED
  | FHU_CNT_UNKNOWN | FHU_CNT_SEQ_ERR | FHU_CNT_DUP | FHU_CNT_OVERSIZE | FHU_CNT_NO_CPLANE
  | FHU_CNT_BUF_FULL | FHU_CNT_CONFLICT | FHU_CNT_BAD_BEAM | FHU_CNT_W_SAT | FHU_CNT_TX_LOST
  | FHU_CNT_TX_TRUNC | FHU_CNT_RESTACK_DISC | FHU_CNT_NO_TIME | FHU_CNT_RET_DROP | FHU_CNT_UL_TX
  | TXA_CFG | TXA_DET_CFG | TXA_SYNC | TXA_KEY | TXA_DL_CFG
  | TXA_DL2_CFG | TXA_FB_CFG | TXA_FB_STAT | TXA_CH_CFG_W0 | TXA_CH_CFG_W1
  | TXA_CH_STAT | TXA_RX_BASE | TXA_RX_CFG | TXA_RX_TAIL | TXA_RX_HEAD
  | TXA_DL_PUSH | TXA_DL_CPL_POP | TXA_DL_CPL_INFO | TXA_CTR_SEL | TXA_CTR_DATA
  | TXA_CNT_RX_OK | TXA_CNT_FALSE_DET | TXA_CNT_HDR_FAIL | TXA_CNT_CAPTURE_LOST | TXA_CNT_OVERSIZE
  | TXA_CNT_CRC_FAIL | TXA_CNT_NETID | TXA_CNT_MIC_FAIL | TXA_CNT_REPLAY | TXA_CNT_DUP_ACKED
  | TXA_CNT_RX_DROP | TXA_CNT_RX_ABORT | TXA_CNT_DL_SENT | TXA_CNT_DL_FAIL | TXA_CNT_RESTACK_DISC
  | TXA_CNT_FB_FORCED | PRS_PORT_CFG_W0 | PRS_PORT_CFG_W1 | PRS_MAL_ACT | PRS_STAT
  | PRS_ING_CFG | PRS_CNT_MAL | PRS_CNT_PASS | PRS_CNT_RECIRC | PRS_CNT_ING_DROP
  | FLW_CFG | FLW_RMAC_LO | FLW_RMAC_HI | FLW_FT_BASE | FLW_AGE_CFG
  | FLW_AGE_CFG2 | FLW_VER_CTL | FLW_VER_STAT | FLW_VER_GEN | FLW_VER_FAIL
  | FLW_MISS_STAT | FLW_SW_PEND | FLW_EXP_BASE | FLW_EXP_CFG | FLW_EXP_TAIL
  | FLW_EXP_HEAD | FLW_TBL_SEL | FLW_TBL_CTL | FLW_TBL_STAT | FLW_TBL_WIN
  | FLW_SW_RX_BASE | FLW_SW_RX_CFG | FLW_SW_RX_TAIL | FLW_SW_RX_HEAD | FLW_SW_RX_FREE
  | FLW_SW_TX_BASE | FLW_SW_TX_CFG | FLW_SW_TX_TAIL | FLW_SW_TX_HEAD | FLW_SW_TX_CPL_POP
  | FLW_CNT_NO_ROUTE | FLW_CNT_TTL | FLW_CNT_MTU | FLW_CNT_ACL_DENY | FLW_CNT_MISS_DROP
  | FLW_CNT_LEARN_FAIL | FLW_CNT_NAT_EXHAUST | FLW_CNT_NAT_UNSUP | FLW_CNT_ESP_AUTH | FLW_CNT_ESP_REPLAY
  | FLW_CNT_ESP_NOSA | FLW_CNT_L2_MOVE | FLW_CNT_L2_LEARN_FAIL | FLW_CNT_EXP_DROP | FLW_CNT_SW_RX_DROP
  | FLW_CNT_BAD_DESC | ETH_CFG | ETH_MSEC_CFG | ETH_MSEC_WIN | ETH_CNT_RX_OK
  | ETH_CNT_RX_FCS | ETH_CNT_RX_RUNT | ETH_CNT_RX_OVERSIZE | ETH_CNT_TX_OK | ETH_CNT_TX_MTU
  | ETH_CNT_MSEC_AUTH | ETH_CNT_MSEC_REPLAY | ETH_CNT_MSEC_NOSA | ETH_CNT_MSEC_UNTAGGED | ETH_CNT_MSEC_PN_EXH
  | TMG_CFG | TMG_BUF_CFG | TMG_BUF_STAT | TMG_COLOR_MAP | TMG_PORT_CFG_W0
  | TMG_PORT_CFG_W1 | TMG_TBL_SEL | TMG_TBL_CTL | TMG_TBL_STAT | TMG_TBL_WIN
  | TMG_GATE_CTL | TMG_GATE_CYCLE | TMG_GATE_BASE_NS | TMG_GATE_BASE_S_LO | TMG_GATE_BASE_S_HI
  | TMG_GATE_STAT | TMG_CNT_ENQ | TMG_CNT_METER_DROP | TMG_CNT_Q_DROP | TMG_CNT_BUF_DROP
  | TMG_CNT_NO_SUB | TMG_CNT_LINK_DROP | TMG_CNT_FLUSH | TMG_CNT_GATE_OVERSIZE | NTU_CFG
  | NTU_HOLD_CFG | NTU_STATUS | NTU_UNC | NTU_TIME_NS | NTU_TIME_S_LO
  | NTU_TIME_S_HI | NTU_RAW_LO | NTU_RAW_HI | NTU_STAMP | NTU_TIME_RATE_LO
  | NTU_TIME_RATE_HI | NTU_STEP_NS | NTU_SET_NS | NTU_SET_S_LO | NTU_SET_S_HI
  | NTU_TIME_CTL | NTU_TIME_STAT | NTU_LOCK_UNC | NTU_OP8_INCR | NTU_SLP_RATIO
  | NTU_CNT_STEP_REFUSED | NTU_CNT_SERVO_TO | NTU_CNT_TXTS_DROP | NTU_PTP_CFG | NTU_TXTS_POP
  | NTU_TXTS_VAL | NTU_PPS_CFG | NTU_PPS_IN_TS | NTU_CAP_STAT | NTU_TSYNC_TS
  | NTU_TSYNC_CFG | NTU_TSYNC_START | NTU_TSYNC_PERIOD | NTU_SYNCE_CFG | NTU_SYNCE_STAT
  | NTU_PTM_CTL | NTU_PTM_STAT | NTU_PTM_T1 | NTU_PTM_T4 | NTU_PTM_MT_LO
  | NTU_PTM_MT_HI | NTU_PTM_DELAY | APC_CORE_CTL | APC_CORE_START_LO | APC_CORE_START_HI
  | APC_CORE_STAT | APC_CFG | RGC_CORE_CTL | RGC_CORE_STAT | RGC_CORE_DWIN
  | TLY_ENQ_W | TLY_ENQ_DUE | TLY_ENQ_GO | TLY_ENQ_STAT | TLY_DLY_CANCEL
  | TLY_PICK | TLY_CUR_W | TLY_DONE_RES | TLY_DONE | TLY_ROD_STAT
  | TLY_CORE_RODS | TLY_DLY_CFG | TLY_REL_POP | TLY_REL_RES | TLY_REL_PEND
  | TLY_CNT_FULL | TLY_CNT_FENCED | TLY_CNT_DLY_LATE | EVT_CLAIM | EVT_CLAIM_TS
  | EVT_HCLAIM | EVT_CLR | EVT_MASK | EVT_EVTOUT_CFG | EVT_PEND_SEL
  | EVT_PEND | RKN_CTL | RKN_STAT | RKN_PC | RKN_CNT_SAT
  | RKN_CNT_CYC | RKN_S | RKN_ACC_LO | RKN_ACC_HI | SRM_CFG
  | SRM_STAT | SRM_USE | SRM_RET_LO | SRM_RET_HI | SRM_ECC_ADDR
  | SRM_CNT_CORR | SRM_CNT_UNCORR | PBF_CFG | PBF_STAT | PBF_CNT_SPILL_CAP
  | DMC_STAT | DMC_CFG | DMC_ACT_CFG | DMC_RT_CFG | DMC_DIST_STAT
  | DMC_ECC_ADDR | DMC_CNT_CORR | DMC_CNT_UNCORR | DMC_CNT_PANIC | DMC_CNT_RT_LATE
  | DMC_CNT_INORDER | DMC_CNT_THROT | DMC_CNT_TREF | IDN_DEVICE_ID_LO | IDN_DEVICE_ID_HI
  | IDN_REV | IDN_LIFECYCLE | IDN_NONCE_LO | IDN_NONCE_HI | IDN_TAMPER_CFG
  | KLN_MB_REQ | KLN_MB_GO | KLN_MB_STAT | KLN_STAT | CIP_SLOT_KEY
  | CIP_SLOT_CTL | CIP_SLOT_STAT | CIP_ATTR_SEL | CIP_ATTR | CIP_JOB_BASE
  | CIP_JOB_CFG | CIP_JOB_TAIL | CIP_JOB_HEAD | CIP_CPL_POP | CIP_CPL_INFO
  | CIP_CNT_JOBS | CIP_CNT_AUTH_FAIL | CIP_CNT_POLICY | CIP_CNT_BAD_DESC | AO_SLEEP_CTL
  | AO_SLEEP_CFG | AO_SLEEP_STAT | AO_SLEEP_REC | AO_WAKE_REC0 | AO_WAKE_REC1
  | AO_WAKE_REC2 | AO_WAKE_REC3 | AO_WAKE_FAIL | AO_VF_CTL | AO_ISL_CTL
  | AO_VF_STAT | AO_RAIL_STAT | WAK_EN | WAK_GPIO | WAK_WRX
  | WAK_WRX_ID | WAK_TIMER | RGC_ERR_ADDR_LO | RGC_ERR_ADDR_HI | RGC_ERR_INFO
  | RGC_ERR_TIME | RGC_HANG_CFG | ASH_STAT | ASH_SEQ | ASH_DROPS
  | ASH_CFG | ASH_CTL | ASH_SEL | ASH_WIN | AO_AGE_STAT
  | SDS_LANE_STAT | SDS_PORT_STAT | SDS_CNT_FEC_CORR | SDS_CNT_FEC_UNCORR | SDS_CNT_LINK_DOWN
  | HL_STAT | HL_WIN_W0 | HL_WIN_W1 | HL_WIN_W2 | HL_FN_ERR
  | SMB_STAT | SMB_CNT_TIMEOUT | SMB_CNT_PEC | SMB_CNT_BAD | XIO_SPI_CTL
  | XIO_SPI_ADDR | XIO_SPI_SYS | XIO_SPI_STAT | XIO_GPIO_OUT | XIO_GPIO_OE
  | XIO_GPIO_IN | XIO_GPIO_PULL | XIO_GPIO_IRQ | XIO_GPIO_EDGE | AO_WAKE_TICKS
  | CAL_WIN | DPD_SHADOW | IDN_LOCK
  deriving DecidableEq, Repr

/-- Address of the first instance of a register (R3). -/
def Reg.base (r : Reg) : Nat :=
  match r with
  | .RGC_QOS_WGT => 0x110
  | .RGC_EARLY_READ => 0x120
  | .RGC_FENCE_CAUSE => 0x130
  | .RGC_EBUF_LAT => 0x140
  | .RGC_EBUF_SLIP => 0x160
  | .AO_STATUS => 0x7000000
  | .AO_PUSH_CTL => 0x7000200
  | .AO_PUSH_DATA => 0x7000204
  | .AO_PUSH_STAT => 0x7000208
  | .AO_BOOT_INFO => 0x7000210
  | .AO_IMAGE_SERIAL => 0x7000214
  | .AO_SERIAL_FLOOR => 0x7000218
  | .RGC_RESTACK_CTL => 0x6000200
  | .RGC_RESTACK_TIME => 0x6000204
  | .RGC_RESTACK_STAT => 0x6000208
  | .RGC_STACK_CUR => 0x600020C
  | .PATH_CTL => 0x10000
  | .PATH_STAT => 0x10010
  | .SYN_STAT => 0x30010
  | .SYN_FINE => 0x30008
  | .RGC_ASYNC_CFG => 0x6000300
  | .FEN_PROT_CFG => 0x82004
  | .FEN_RFFE_CMD => 0x80000
  | .FEN_RFFE_RSP => 0x80008
  | .FEN_RFFE_CFG => 0x8000C
  | .FEN_RFFE_POLL => 0x80040
  | .FEN_FAST_TIM => 0x82000
  | .FEN_BIAS => 0x81000
  | .FEN_COEX_CFG => 0x83000
  | .FEN_CNT_DELAYED => 0x84000
  | .FEN_CNT_LATE => 0x84004
  | .FEN_CNT_LOCK_LOST => 0x84008
  | .FEN_CNT_GUARD_CLAMP => 0x8400C
  | .FEN_CNT_GUARD_BLOCK => 0x84010
  | .FEN_CNT_COEX_PREEMPT => 0x84014
  | .FEN_CNT_RFFE_NOACK => 0x84018
  | .FEN_CNT_PATH_FAULT => 0x8401C
  | .DFE_ROUTE_STAT => 0x50100
  | .DFE_TXF_COEF => 0x51000
  | .DFE_MASK => 0x51080
  | .DFE_TXF_CTL => 0x51100
  | .DFE_TXF_STAT => 0x51104
  | .DFE_CFR_CFG => 0x50200
  | .DFE_CNT_CFR => 0x50300
  | .BEAM_TBL_BASE => 0x60000
  | .BEAM_CFG => 0x60020
  | .BEAM_COMMIT => 0x60024
  | .BEAM_STAT => 0x60030
  | .BEAM_CNT_MISS => 0x60040
  | .BEAM_CNT_BADREC => 0x60044
  | .BEAM_CNT_NORM => 0x60048
  | .DPD_CTL => 0x70000
  | .DPD_COMMIT => 0x70004
  | .DPD_STAT => 0x70010
  | .DPD_CNT_SAT => 0x70020
  | .DPD_CNT_REVERT => 0x70024
  | .ORX_CFG => 0x40000
  | .ORX_CPL => 0x40040
  | .ORX_RING_BASE => 0x40080
  | .ORX_CAP_POP => 0x40090
  | .ORX_SLOT_FREE => 0x40094
  | .ORX_CNT_VISIT => 0x400A0
  | .ORX_CNT_STALL => 0x400A4
  | .ORX_CNT_ABANDON => 0x400A8
  | .CAL_CTL => 0x90000
  | .CAL_CFG => 0x90004
  | .CAL_STAT => 0x90010
  | .CAL_TEMP => 0x90014
  | .CAL_QW => 0x90018
  | .CAL_QW_INFO => 0x9001C
  | .CAL_REJ => 0x90020
  | .CAL_CNT_RUN => 0x90040
  | .CAL_CNT_REJECT => 0x90044
  | .CAL_CNT_FORCED => 0x90048
  | .CAL_CNT_REBOOK => 0x9004C
  | .CAL_WIN_SEL => 0x91000
  | .CAL_COMMIT => 0x91004
  | .CAL_RED => 0x92000
  | .CAL_XP_CTL => 0x93000
  | .CAL_XP_ADDR => 0x93004
  | .CAL_XP_STAT => 0x93008
  | .HKA_CFG => 0x7020000
  | .HKA_POP => 0x7020010
  | .HKA_QLEVEL => 0x7020014
  | .HKA_CHK_STAT => 0x7020020
  | .HKA_CH => 0x7021000
  | .HKA_VAL => 0x7021100
  | .HKA_CNT_QDROP => 0x7020040
  | .HKA_CNT_PLAUS => 0x7020044
  | .PHY_LINK_STAT => 0x4010000
  | .PHY_CFG => 0x4010004
  | .PHY_MAX_PSDU => 0x4010008
  | .PHY_PUNCT => 0x401000C
  | .PHY_CCA_CFG => 0x4011000
  | .PHY_CCA_STAT => 0x4011010
  | .PHY_DSSS_CFG => 0x4011020
  | .PHY_RX_PPDU => 0x4012000
  | .PHY_FALSE_START => 0x4012004
  | .PHY_CAPTURE_LOST => 0x4012008
  | .PHY_OVERSIZE => 0x401200C
  | .PHY_UNSUPPORTED => 0x4012010
  | .PHY_HDR_FAIL => 0x4012014
  | .PHY_RX_ABORT => 0x4012018
  | .PHY_TX_PPDU => 0x401201C
  | .PHY_TX_NOSTART => 0x4012020
  | .SND_CFG => 0x4050000
  | .SND_RING_BASE => 0x4050004
  | .SND_RING_SIZE => 0x4050008
  | .SND_EST_POP => 0x4050010
  | .SND_SLOT_FREE => 0x4050014
  | .SND_CNT_DROP => 0x4050020
  | .LDPC_CFG => 0x4040000
  | .LDPC_STAT => 0x4040010
  | .LDPC_CNT_DROP => 0x4040020
  | .LDPC_CNT_FAIL => 0x4040024
  | .PHY_DFS_CFG => 0x4013000
  | .PHY_DFS_CTL => 0x4013004
  | .PHY_DFS_MAP => 0x4013008
  | .PHY_DFS_POP => 0x4013010
  | .PHY_DFS_STAMP => 0x4013014
  | .PHY_DFS_QDROP => 0x4013018
  | .PHY_DFS_PAT_W0 => 0x4013040
  | .PHY_DFS_PAT_W1 => 0x4013044
  | .WAC_LINK_CFG => 0x5010000
  | .WAC_MLD_ADDR_LO => 0x5010010
  | .WAC_MLD_ADDR_HI => 0x5010014
  | .WAC_EDCA => 0x5010020
  | .WAC_SCHED_CFG => 0x5010060
  | .WAC_TWT_CFG => 0x5010070
  | .WAC_BA_CFG => 0x5010074
  | .WAC_Q_CFG => 0x5010078
  | .WAC_LINK_STAT => 0x5010080
  | .WAC_TBL_SEL => 0x5011000
  | .WAC_TBL_CTL => 0x5011004
  | .WAC_TBL_STAT => 0x5011008
  | .WAC_TBL_WIN => 0x5011100
  | .WAC_MTX_BASE => 0x5012000
  | .WAC_MTX_CFG => 0x5012004
  | .WAC_MTX_TAIL => 0x5012008
  | .WAC_MTX_HEAD => 0x501200C
  | .WAC_MTX_CPL_POP => 0x5012010
  | .WAC_MRX_BASE => 0x5012020
  | .WAC_MRX_CFG => 0x5012024
  | .WAC_MRX_TAIL => 0x5012028
  | .WAC_MRX_HEAD => 0x501202C
  | .WAC_MRX_FREE => 0x5012030
  | .WAC_BSR_POP => 0x5012040
  | .WAC_AFC_ADDR => 0x5013000
  | .WAC_AFC_CTL => 0x5013004
  | .WAC_AFC_STAT => 0x5013008
  | .WAC_AFC_SERIAL => 0x501300C
  | .WAC_CNT_DUP => 0x5014000
  | .WAC_CNT_OLD => 0x5014004
  | .WAC_CNT_REPLAY => 0x5014008
  | .WAC_CNT_MIC_FAIL => 0x501400C
  | .WAC_CNT_REORDER_TO => 0x5014010
  | .WAC_CNT_RETRY_DROP => 0x5014014
  | .WAC_CNT_LIFETIME => 0x5014018
  | .WAC_CNT_TWT_MISS => 0x501401C
  | .WAC_CNT_TWT_TEARDOWN => 0x5014020
  | .WAC_CNT_UNAUTH => 0x5014024
  | .WAC_CNT_NOSTA => 0x5014028
  | .WAC_CNT_TX_OVERSIZE => 0x501402C
  | .WAC_CNT_MRX_DROP => 0x5014030
  | .WAC_CNT_QW_UNCOVERED => 0x5014034
  | .WAC_CNT_BCN_DROP => 0x5014038
  | .WAC_CNT_REFUSED => 0x501403C
  | .FHU_CFG => 0x4070000
  | .FHU_FRAME_OFF => 0x4070008
  | .FHU_TIME_CFG => 0x407000C
  | .FHU_WIN_UP => 0x4070010
  | .FHU_WIN_CPDL => 0x4070014
  | .FHU_WIN_CPUL => 0x4070018
  | .FHU_MAX_FRAME => 0x407001C
  | .FHU_MAC_LO => 0x4070020
  | .FHU_MAC_HI => 0x4070024
  | .FHU_BUF_BASE => 0x4070030
  | .FHU_BUF_CFG => 0x4070034
  | .FHU_STAT => 0x4070040
  | .FHU_CAR_CFG => 0x4070080
  | .FHU_CAR_DYN => 0x40700A0
  | .FHU_GAP_W0 => 0x40700C0
  | .FHU_GAP_W1 => 0x40700C4
  | .FHU_EAXC_W0 => 0x4071000
  | .FHU_EAXC_W1 => 0x4071004
  | .FHU_RET_POP => 0x4072000
  | .FHU_RET_INFO => 0x4072004
  | .FHU_RET_FREE => 0x4072008
  | .FHU_CNT_ON_TIME => 0x4074000
  | .FHU_CNT_EARLY => 0x4074004
  | .FHU_CNT_LATE => 0x4074008
  | .FHU_CNT_CP_EARLY => 0x407400C
  | .FHU_CNT_CP_LATE => 0x4074010
  | .FHU_CNT_MALFORMED => 0x4074014
  | .FHU_CNT_UNSUPPORTED => 0x4074018
  | .FHU_CNT_UNKNOWN => 0x407401C
  | .FHU_CNT_SEQ_ERR => 0x4074020
  | .FHU_CNT_DUP => 0x4074024
  | .FHU_CNT_OVERSIZE => 0x4074028
  | .FHU_CNT_NO_CPLANE => 0x407402C
  | .FHU_CNT_BUF_FULL => 0x4074030
  | .FHU_CNT_CONFLICT => 0x4074034
  | .FHU_CNT_BAD_BEAM => 0x4074038
  | .FHU_CNT_W_SAT => 0x407403C
  | .FHU_CNT_TX_LOST => 0x4074040
  | .FHU_CNT_TX_TRUNC => 0x4074044
  | .FHU_CNT_RESTACK_DISC => 0x4074048
  | .FHU_CNT_NO_TIME => 0x407404C
  | .FHU_CNT_RET_DROP => 0x4074050
  | .FHU_CNT_UL_TX => 0x4074054
  | .TXA_CFG => 0x4060000
  | .TXA_DET_CFG => 0x4060004
  | .TXA_SYNC => 0x4060008
  | .TXA_KEY => 0x406000C
  | .TXA_DL_CFG => 0x4060010
  | .TXA_DL2_CFG => 0x4060014
  | .TXA_FB_CFG => 0x4060018
  | .TXA_FB_STAT => 0x406001C
  | .TXA_CH_CFG_W0 => 0x4061000
  | .TXA_CH_CFG_W1 => 0x4061004
  | .TXA_CH_STAT => 0x4061080
  | .TXA_RX_BASE => 0x4062000
  | .TXA_RX_CFG => 0x4062004
  | .TXA_RX_TAIL => 0x4062008
  | .TXA_RX_HEAD => 0x406200C
  | .TXA_DL_PUSH => 0x4062020
  | .TXA_DL_CPL_POP => 0x4062024
  | .TXA_DL_CPL_INFO => 0x4062028
  | .TXA_CTR_SEL => 0x4062030
  | .TXA_CTR_DATA => 0x4062034
  | .TXA_CNT_RX_OK => 0x4064000
  | .TXA_CNT_FALSE_DET => 0x4064004
  | .TXA_CNT_HDR_FAIL => 0x4064008
  | .TXA_CNT_CAPTURE_LOST => 0x406400C
  | .TXA_CNT_OVERSIZE => 0x4064010
  | .TXA_CNT_CRC_FAIL => 0x4064014
  | .TXA_CNT_NETID => 0x4064018
  | .TXA_CNT_MIC_FAIL => 0x406401C
  | .TXA_CNT_REPLAY => 0x4064020
  | .TXA_CNT_DUP_ACKED => 0x4064024
  | .TXA_CNT_RX_DROP => 0x4064028
  | .TXA_CNT_RX_ABORT => 0x406402C
  | .TXA_CNT_DL_SENT => 0x4064030
  | .TXA_CNT_DL_FAIL => 0x4064034
  | .TXA_CNT_RESTACK_DISC => 0x4064038
  | .TXA_CNT_FB_FORCED => 0x406403C
  | .PRS_PORT_CFG_W0 => 0x5020000
  | .PRS_PORT_CFG_W1 => 0x5020004
  | .PRS_MAL_ACT => 0x5020100
  | .PRS_STAT => 0x5020110
  | .PRS_ING_CFG => 0x5020120
  | .PRS_CNT_MAL => 0x5021000
  | .PRS_CNT_PASS => 0x5021020
  | .PRS_CNT_RECIRC => 0x5021028
  | .PRS_CNT_ING_DROP => 0x5021040
  | .FLW_CFG => 0x5030000
  | .FLW_RMAC_LO => 0x5030004
  | .FLW_RMAC_HI => 0x5030008
  | .FLW_FT_BASE => 0x5030010
  | .FLW_AGE_CFG => 0x5030014
  | .FLW_AGE_CFG2 => 0x5030018
  | .FLW_VER_CTL => 0x5030020
  | .FLW_VER_STAT => 0x5030024
  | .FLW_VER_GEN => 0x5030028
  | .FLW_VER_FAIL => 0x503002C
  | .FLW_MISS_STAT => 0x5030030
  | .FLW_SW_PEND => 0x5030050
  | .FLW_EXP_BASE => 0x5030040
  | .FLW_EXP_CFG => 0x5030044
  | .FLW_EXP_TAIL => 0x5030048
  | .FLW_EXP_HEAD => 0x503004C
  | .FLW_TBL_SEL => 0x5031000
  | .FLW_TBL_CTL => 0x5031004
  | .FLW_TBL_STAT => 0x5031008
  | .FLW_TBL_WIN => 0x5031100
  | .FLW_SW_RX_BASE => 0x5032000
  | .FLW_SW_RX_CFG => 0x5032004
  | .FLW_SW_RX_TAIL => 0x5032008
  | .FLW_SW_RX_HEAD => 0x503200C
  | .FLW_SW_RX_FREE => 0x5032010
  | .FLW_SW_TX_BASE => 0x5032020
  | .FLW_SW_TX_CFG => 0x5032024
  | .FLW_SW_TX_TAIL => 0x5032028
  | .FLW_SW_TX_HEAD => 0x503202C
  | .FLW_SW_TX_CPL_POP => 0x5032030
  | .FLW_CNT_NO_ROUTE => 0x5034000
  | .FLW_CNT_TTL => 0x5034004
  | .FLW_CNT_MTU => 0x5034008
  | .FLW_CNT_ACL_DENY => 0x503400C
  | .FLW_CNT_MISS_DROP => 0x5034010
  | .FLW_CNT_LEARN_FAIL => 0x5034014
  | .FLW_CNT_NAT_EXHAUST => 0x5034018
  | .FLW_CNT_NAT_UNSUP => 0x503401C
  | .FLW_CNT_ESP_AUTH => 0x5034020
  | .FLW_CNT_ESP_REPLAY => 0x5034024
  | .FLW_CNT_ESP_NOSA => 0x5034028
  | .FLW_CNT_L2_MOVE => 0x503402C
  | .FLW_CNT_L2_LEARN_FAIL => 0x5034030
  | .FLW_CNT_EXP_DROP => 0x5034034
  | .FLW_CNT_SW_RX_DROP => 0x5034038
  | .FLW_CNT_BAD_DESC => 0x503403C
  | .ETH_CFG => 0x5070000
  | .ETH_MSEC_CFG => 0x5070004
  | .ETH_MSEC_WIN => 0x5070008
  | .ETH_CNT_RX_OK => 0x5070040
  | .ETH_CNT_RX_FCS => 0x5070044
  | .ETH_CNT_RX_RUNT => 0x5070048
  | .ETH_CNT_RX_OVERSIZE => 0x507004C
  | .ETH_CNT_TX_OK => 0x5070050
  | .ETH_CNT_TX_MTU => 0x5070054
  | .ETH_CNT_MSEC_AUTH => 0x5070058
  | .ETH_CNT_MSEC_REPLAY => 0x507005C
  | .ETH_CNT_MSEC_NOSA => 0x5070060
  | .ETH_CNT_MSEC_UNTAGGED => 0x5070064
  | .ETH_CNT_MSEC_PN_EXH => 0x5070068
  | .TMG_CFG => 0x5040000
  | .TMG_BUF_CFG => 0x5040004
  | .TMG_BUF_STAT => 0x5040008
  | .TMG_COLOR_MAP => 0x5040010
  | .TMG_PORT_CFG_W0 => 0x5040100
  | .TMG_PORT_CFG_W1 => 0x5040104
  | .TMG_TBL_SEL => 0x5041000
  | .TMG_TBL_CTL => 0x5041004
  | .TMG_TBL_STAT => 0x5041008
  | .TMG_TBL_WIN => 0x5041100
  | .TMG_GATE_CTL => 0x5042000
  | .TMG_GATE_CYCLE => 0x5042004
  | .TMG_GATE_BASE_NS => 0x5042008
  | .TMG_GATE_BASE_S_LO => 0x504200C
  | .TMG_GATE_BASE_S_HI => 0x5042010
  | .TMG_GATE_STAT => 0x5042014
  | .TMG_CNT_ENQ => 0x5044000
  | .TMG_CNT_METER_DROP => 0x5044004
  | .TMG_CNT_Q_DROP => 0x5044008
  | .TMG_CNT_BUF_DROP => 0x504400C
  | .TMG_CNT_NO_SUB => 0x5044010
  | .TMG_CNT_LINK_DROP => 0x5044014
  | .TMG_CNT_FLUSH => 0x5044018
  | .TMG_CNT_GATE_OVERSIZE => 0x504401C
  | .NTU_CFG => 0x60B0000
  | .NTU_HOLD_CFG => 0x60B0004
  | .NTU_STATUS => 0x60B0008
  | .NTU_UNC => 0x60B000C
  | .NTU_TIME_NS => 0x60B0010
  | .NTU_TIME_S_LO => 0x60B0014
  | .NTU_TIME_S_HI => 0x60B0018
  | .NTU_RAW_LO => 0x60B001C
  | .NTU_RAW_HI => 0x60B0020
  | .NTU_STAMP => 0x60B0024
  | .NTU_TIME_RATE_LO => 0x60B0030
  | .NTU_TIME_RATE_HI => 0x60B0034
  | .NTU_STEP_NS => 0x60B0038
  | .NTU_SET_NS => 0x60B003C
  | .NTU_SET_S_LO => 0x60B0040
  | .NTU_SET_S_HI => 0x60B0044
  | .NTU_TIME_CTL => 0x60B0048
  | .NTU_TIME_STAT => 0x60B004C
  | .NTU_LOCK_UNC => 0x60B0050
  | .NTU_OP8_INCR => 0x60B0054
  | .NTU_SLP_RATIO => 0x60B0058
  | .NTU_CNT_STEP_REFUSED => 0x60B0060
  | .NTU_CNT_SERVO_TO => 0x60B0064
  | .NTU_CNT_TXTS_DROP => 0x60B0068
  | .NTU_PTP_CFG => 0x60B1000
  | .NTU_TXTS_POP => 0x60B1040
  | .NTU_TXTS_VAL => 0x60B1044
  | .NTU_PPS_CFG => 0x60B1050
  | .NTU_PPS_IN_TS => 0x60B1054
  | .NTU_CAP_STAT => 0x60B1058
  | .NTU_TSYNC_TS => 0x60B105C
  | .NTU_TSYNC_CFG => 0x60B1060
  | .NTU_TSYNC_START => 0x60B1064
  | .NTU_TSYNC_PERIOD => 0x60B1068
  | .NTU_SYNCE_CFG => 0x60B2000
  | .NTU_SYNCE_STAT => 0x60B2004
  | .NTU_PTM_CTL => 0x60B2010
  | .NTU_PTM_STAT => 0x60B2014
  | .NTU_PTM_T1 => 0x60B2018
  | .NTU_PTM_T4 => 0x60B201C
  | .NTU_PTM_MT_LO => 0x60B2020
  | .NTU_PTM_MT_HI => 0x60B2024
  | .NTU_PTM_DELAY => 0x60B2028
  | .APC_CORE_CTL => 0x6010000
  | .APC_CORE_START_LO => 0x6010004
  | .APC_CORE_START_HI => 0x6010008
  | .APC_CORE_STAT => 0x6010010
  | .APC_CFG => 0x6018000
  | .RGC_CORE_CTL => 0x1000
  | .RGC_CORE_STAT => 0x1004
  | .RGC_CORE_DWIN => 0x1008
  | .TLY_ENQ_W => 0x6020000
  | .TLY_ENQ_DUE => 0x6020018
  | .TLY_ENQ_GO => 0x602001C
  | .TLY_ENQ_STAT => 0x6020020
  | .TLY_DLY_CANCEL => 0x6020070
  | .TLY_PICK => 0x6020030
  | .TLY_CUR_W => 0x6020040
  | .TLY_DONE_RES => 0x6020060
  | .TLY_DONE => 0x6020064
  | .TLY_ROD_STAT => 0x6021000
  | .TLY_CORE_RODS => 0x6021040
  | .TLY_DLY_CFG => 0x6021080
  | .TLY_REL_POP => 0x6021100
  | .TLY_REL_RES => 0x6021140
  | .TLY_REL_PEND => 0x6021144
  | .TLY_CNT_FULL => 0x6021180
  | .TLY_CNT_FENCED => 0x6021184
  | .TLY_CNT_DLY_LATE => 0x6021188
  | .EVT_CLAIM => 0x6030000
  | .EVT_CLAIM_TS => 0x6030004
  | .EVT_HCLAIM => 0x6030008
  | .EVT_CLR => 0x6030010
  | .EVT_MASK => 0x6030020
  | .EVT_EVTOUT_CFG => 0x6030040
  | .EVT_PEND_SEL => 0x6030050
  | .EVT_PEND => 0x6030054
  | .RKN_CTL => 0x4080000
  | .RKN_STAT => 0x4080004
  | .RKN_PC => 0x4080008
  | .RKN_CNT_SAT => 0x4080010
  | .RKN_CNT_CYC => 0x4080014
  | .RKN_S => 0x4080080
  | .RKN_ACC_LO => 0x4080100
  | .RKN_ACC_HI => 0x4080104
  | .SRM_CFG => 0x6040000
  | .SRM_STAT => 0x6040004
  | .SRM_USE => 0x6040010
  | .SRM_RET_LO => 0x6040020
  | .SRM_RET_HI => 0x6040024
  | .SRM_ECC_ADDR => 0x6040030
  | .SRM_CNT_CORR => 0x6040040
  | .SRM_CNT_UNCORR => 0x6040044
  | .PBF_CFG => 0x5050000
  | .PBF_STAT => 0x5050004
  | .PBF_CNT_SPILL_CAP => 0x5050008
  | .DMC_STAT => 0x6050000
  | .DMC_CFG => 0x6050004
  | .DMC_ACT_CFG => 0x6050008
  | .DMC_RT_CFG => 0x605000C
  | .DMC_DIST_STAT => 0x6050010
  | .DMC_ECC_ADDR => 0x6050014
  | .DMC_CNT_CORR => 0x6050040
  | .DMC_CNT_UNCORR => 0x6050044
  | .DMC_CNT_PANIC => 0x6050048
  | .DMC_CNT_RT_LATE => 0x605004C
  | .DMC_CNT_INORDER => 0x6050050
  | .DMC_CNT_THROT => 0x6050054
  | .DMC_CNT_TREF => 0x6050058
  | .IDN_DEVICE_ID_LO => 0x7050000
  | .IDN_DEVICE_ID_HI => 0x7050004
  | .IDN_REV => 0x7050008
  | .IDN_LIFECYCLE => 0x705000C
  | .IDN_NONCE_LO => 0x7050010
  | .IDN_NONCE_HI => 0x7050014
  | .IDN_TAMPER_CFG => 0x7051000
  | .KLN_MB_REQ => 0x6090000
  | .KLN_MB_GO => 0x6090004
  | .KLN_MB_STAT => 0x6090008
  | .KLN_STAT => 0x6090010
  | .CIP_SLOT_KEY => 0x5060000
  | .CIP_SLOT_CTL => 0x5060020
  | .CIP_SLOT_STAT => 0x5060024
  | .CIP_ATTR_SEL => 0x5060028
  | .CIP_ATTR => 0x506002C
  | .CIP_JOB_BASE => 0x5061000
  | .CIP_JOB_CFG => 0x5061004
  | .CIP_JOB_TAIL => 0x5061008
  | .CIP_JOB_HEAD => 0x506100C
  | .CIP_CPL_POP => 0x5061010
  | .CIP_CPL_INFO => 0x5061014
  | .CIP_CNT_JOBS => 0x5064000
  | .CIP_CNT_AUTH_FAIL => 0x5064004
  | .CIP_CNT_POLICY => 0x5064008
  | .CIP_CNT_BAD_DESC => 0x506400C
  | .AO_SLEEP_CTL => 0x7000300
  | .AO_SLEEP_CFG => 0x7000304
  | .AO_SLEEP_STAT => 0x7000308
  | .AO_SLEEP_REC => 0x700030C
  | .AO_WAKE_REC0 => 0x7000310
  | .AO_WAKE_REC1 => 0x7000314
  | .AO_WAKE_REC2 => 0x7000318
  | .AO_WAKE_REC3 => 0x700031C
  | .AO_WAKE_FAIL => 0x7000320
  | .AO_VF_CTL => 0x7000400
  | .AO_ISL_CTL => 0x7000404
  | .AO_VF_STAT => 0x7000408
  | .AO_RAIL_STAT => 0x7010000
  | .WAK_EN => 0x7040000
  | .WAK_GPIO => 0x7040004
  | .WAK_WRX => 0x7040008
  | .WAK_WRX_ID => 0x7040010
  | .WAK_TIMER => 0x7040020
  | .RGC_ERR_ADDR_LO => 0x180
  | .RGC_ERR_ADDR_HI => 0x184
  | .RGC_ERR_INFO => 0x188
  | .RGC_ERR_TIME => 0x18C
  | .RGC_HANG_CFG => 0x1A0
  | .ASH_STAT => 0x7000600
  | .ASH_SEQ => 0x7000604
  | .ASH_DROPS => 0x7000608
  | .ASH_CFG => 0x700060C
  | .ASH_CTL => 0x7000610
  | .ASH_SEL => 0x7000614
  | .ASH_WIN => 0x7000640
  | .AO_AGE_STAT => 0x7000700
  | .SDS_LANE_STAT => 0x6080000
  | .SDS_PORT_STAT => 0x6080040
  | .SDS_CNT_FEC_CORR => 0x6081000
  | .SDS_CNT_FEC_UNCORR => 0x6081020
  | .SDS_CNT_LINK_DOWN => 0x6081040
  | .HL_STAT => 0x6070000
  | .HL_WIN_W0 => 0x6071000
  | .HL_WIN_W1 => 0x6071004
  | .HL_WIN_W2 => 0x6071008
  | .HL_FN_ERR => 0x6072000
  | .SMB_STAT => 0x7041000
  | .SMB_CNT_TIMEOUT => 0x7041004
  | .SMB_CNT_PEC => 0x7041008
  | .SMB_CNT_BAD => 0x704100C
  | .XIO_SPI_CTL => 0x60A0000
  | .XIO_SPI_ADDR => 0x60A0004
  | .XIO_SPI_SYS => 0x60A0008
  | .XIO_SPI_STAT => 0x60A000C
  | .XIO_GPIO_OUT => 0x60A1000
  | .XIO_GPIO_OE => 0x60A1004
  | .XIO_GPIO_IN => 0x60A1008
  | .XIO_GPIO_PULL => 0x60A100C
  | .XIO_GPIO_IRQ => 0x60A1010
  | .XIO_GPIO_EDGE => 0x60A1014
  | .AO_WAKE_TICKS => 0x7000324
  | .CAL_WIN => 0x91400
  | .DPD_SHADOW => 0x70400
  | .IDN_LOCK => 0x7052000

/-- Stride and count of each index of a register, outermost first; a single register has none. -/
def Reg.dims (r : Reg) : List (Nat × Nat) :=
  match r with
  | .RGC_QOS_WGT => [(0x1000000, 8)]
  | .RGC_EARLY_READ => [(0x1000000, 8)]
  | .RGC_FENCE_CAUSE => [(0x1000000, 8)]
  | .RGC_EBUF_LAT => [(0x1000000, 5), (4, 8)]
  | .RGC_EBUF_SLIP => [(0x1000000, 5)]
  | .PATH_CTL => [(0x1000000, 4), (0x10000, 2), (0x1000, 8)]
  | .PATH_STAT => [(0x1000000, 4), (0x10000, 2), (0x1000, 8)]
  | .SYN_STAT => [(0x1000000, 4), (0x1000, 2)]
  | .SYN_FINE => [(0x1000000, 4), (0x1000, 2)]
  | .FEN_PROT_CFG => [(0x1000000, 4)]
  | .FEN_RFFE_CMD => [(0x1000000, 4)]
  | .FEN_RFFE_RSP => [(0x1000000, 4)]
  | .FEN_RFFE_CFG => [(0x1000000, 4)]
  | .FEN_RFFE_POLL => [(0x1000000, 4), (4, 16)]
  | .FEN_FAST_TIM => [(0x1000000, 4)]
  | .FEN_BIAS => [(0x1000000, 4), (4, 16)]
  | .FEN_COEX_CFG => [(0x1000000, 4), (4, 3)]
  | .FEN_CNT_DELAYED => [(0x1000000, 4)]
  | .FEN_CNT_LATE => [(0x1000000, 4)]
  | .FEN_CNT_LOCK_LOST => [(0x1000000, 4)]
  | .FEN_CNT_GUARD_CLAMP => [(0x1000000, 4)]
  | .FEN_CNT_GUARD_BLOCK => [(0x1000000, 4)]
  | .FEN_CNT_COEX_PREEMPT => [(0x1000000, 4)]
  | .FEN_CNT_RFFE_NOACK => [(0x1000000, 4)]
  | .FEN_CNT_PATH_FAULT => [(0x1000000, 4)]
  | .DFE_ROUTE_STAT => [(0x1000000, 4), (4, 16)]
  | .DFE_TXF_COEF => [(0x1000000, 4), (4, 24)]
  | .DFE_MASK => [(0x1000000, 4), (4, 16)]
  | .DFE_TXF_CTL => [(0x1000000, 4)]
  | .DFE_TXF_STAT => [(0x1000000, 4)]
  | .DFE_CFR_CFG => [(0x1000000, 4), (4, 16)]
  | .DFE_CNT_CFR => [(0x1000000, 4)]
  | .BEAM_TBL_BASE => [(0x1000000, 4), (4, 8)]
  | .BEAM_CFG => [(0x1000000, 4)]
  | .BEAM_COMMIT => [(0x1000000, 4)]
  | .BEAM_STAT => [(0x1000000, 4)]
  | .BEAM_CNT_MISS => [(0x1000000, 4)]
  | .BEAM_CNT_BADREC => [(0x1000000, 4)]
  | .BEAM_CNT_NORM => [(0x1000000, 4)]
  | .DPD_CTL => [(0x1000000, 4), (0x1000, 16)]
  | .DPD_COMMIT => [(0x1000000, 4), (0x1000, 16)]
  | .DPD_STAT => [(0x1000000, 4), (0x1000, 16)]
  | .DPD_CNT_SAT => [(0x1000000, 4), (0x1000, 16)]
  | .DPD_CNT_REVERT => [(0x1000000, 4), (0x1000, 16)]
  | .ORX_CFG => [(0x1000000, 4)]
  | .ORX_CPL => [(0x1000000, 4), (4, 16)]
  | .ORX_RING_BASE => [(0x1000000, 4), (4, 2)]
  | .ORX_CAP_POP => [(0x1000000, 4)]
  | .ORX_SLOT_FREE => [(0x1000000, 4)]
  | .ORX_CNT_VISIT => [(0x1000000, 4)]
  | .ORX_CNT_STALL => [(0x1000000, 4)]
  | .ORX_CNT_ABANDON => [(0x1000000, 4)]
  | .CAL_CTL => [(0x1000000, 4)]
  | .CAL_CFG => [(0x1000000, 4)]
  | .CAL_STAT => [(0x1000000, 4)]
  | .CAL_TEMP => [(0x1000000, 4)]
  | .CAL_QW => [(0x1000000, 4)]
  | .CAL_QW_INFO => [(0x1000000, 4)]
  | .CAL_REJ => [(0x1000000, 4)]
  | .CAL_CNT_RUN => [(0x1000000, 4)]
  | .CAL_CNT_REJECT => [(0x1000000, 4)]
  | .CAL_CNT_FORCED => [(0x1000000, 4)]
  | .CAL_CNT_REBOOK => [(0x1000000, 4)]
  | .CAL_WIN_SEL => [(0x1000000, 4)]
  | .CAL_COMMIT => [(0x1000000, 4)]
  | .CAL_RED => [(0x1000000, 4)]
  | .CAL_XP_CTL => [(0x1000000, 4)]
  | .CAL_XP_ADDR => [(0x1000000, 4)]
  | .CAL_XP_STAT => [(0x1000000, 4)]
  | .HKA_CH => [(0x1000, 2), (4, 64)]
  | .HKA_VAL => [(0x1000, 2), (4, 64)]
  | .PHY_LINK_STAT => [(0x10000, 3)]
  | .PHY_CFG => [(0x10000, 3)]
  | .PHY_MAX_PSDU => [(0x10000, 3)]
  | .PHY_PUNCT => [(0x10000, 3)]
  | .PHY_CCA_CFG => [(0x10000, 3)]
  | .PHY_CCA_STAT => [(0x10000, 3)]
  | .PHY_DSSS_CFG => [(0x10000, 3)]
  | .PHY_RX_PPDU => [(0x10000, 3)]
  | .PHY_FALSE_START => [(0x10000, 3)]
  | .PHY_CAPTURE_LOST => [(0x10000, 3)]
  | .PHY_OVERSIZE => [(0x10000, 3)]
  | .PHY_UNSUPPORTED => [(0x10000, 3)]
  | .PHY_HDR_FAIL => [(0x10000, 3)]
  | .PHY_RX_ABORT => [(0x10000, 3)]
  | .PHY_TX_PPDU => [(0x10000, 3)]
  | .PHY_TX_NOSTART => [(0x10000, 3)]
  | .PHY_DFS_CFG => [(0x10000, 3)]
  | .PHY_DFS_CTL => [(0x10000, 3)]
  | .PHY_DFS_MAP => [(0x10000, 3)]
  | .PHY_DFS_POP => [(0x10000, 3)]
  | .PHY_DFS_STAMP => [(0x10000, 3)]
  | .PHY_DFS_QDROP => [(0x10000, 3)]
  | .PHY_DFS_PAT_W0 => [(0x10000, 3), (8, 8)]
  | .PHY_DFS_PAT_W1 => [(0x10000, 3), (8, 8)]
  | .WAC_LINK_CFG => [(4, 3)]
  | .WAC_EDCA => [(0x10, 3), (4, 4)]
  | .WAC_SCHED_CFG => [(4, 3)]
  | .WAC_LINK_STAT => [(4, 3)]
  | .WAC_TBL_WIN => [(4, 32)]
  | .FHU_MAC_LO => [(8, 2)]
  | .FHU_MAC_HI => [(8, 2)]
  | .FHU_CAR_CFG => [(4, 8)]
  | .FHU_CAR_DYN => [(4, 8)]
  | .FHU_GAP_W0 => [(8, 8)]
  | .FHU_GAP_W1 => [(8, 8)]
  | .FHU_EAXC_W0 => [(8, 256)]
  | .FHU_EAXC_W1 => [(8, 256)]
  | .TXA_CH_CFG_W0 => [(8, 16)]
  | .TXA_CH_CFG_W1 => [(8, 16)]
  | .TXA_CH_STAT => [(4, 16)]
  | .PRS_PORT_CFG_W0 => [(8, 24)]
  | .PRS_PORT_CFG_W1 => [(8, 24)]
  | .PRS_STAT => [(4, 2)]
  | .PRS_CNT_MAL => [(4, 8)]
  | .PRS_CNT_PASS => [(4, 2)]
  | .PRS_CNT_ING_DROP => [(4, 24)]
  | .FLW_TBL_WIN => [(4, 16)]
  | .FLW_SW_RX_BASE => [(0x40, 9)]
  | .FLW_SW_RX_CFG => [(0x40, 9)]
  | .FLW_SW_RX_TAIL => [(0x40, 9)]
  | .FLW_SW_RX_HEAD => [(0x40, 9)]
  | .FLW_SW_RX_FREE => [(0x40, 9)]
  | .FLW_SW_TX_BASE => [(0x40, 9)]
  | .FLW_SW_TX_CFG => [(0x40, 9)]
  | .FLW_SW_TX_TAIL => [(0x40, 9)]
  | .FLW_SW_TX_HEAD => [(0x40, 9)]
  | .FLW_SW_TX_CPL_POP => [(0x40, 9)]
  | .ETH_CFG => [(0x1000, 8)]
  | .ETH_MSEC_CFG => [(0x1000, 8)]
  | .ETH_MSEC_WIN => [(0x1000, 8)]
  | .ETH_CNT_RX_OK => [(0x1000, 8)]
  | .ETH_CNT_RX_FCS => [(0x1000, 8)]
  | .ETH_CNT_RX_RUNT => [(0x1000, 8)]
  | .ETH_CNT_RX_OVERSIZE => [(0x1000, 8)]
  | .ETH_CNT_TX_OK => [(0x1000, 8)]
  | .ETH_CNT_TX_MTU => [(0x1000, 8)]
  | .ETH_CNT_MSEC_AUTH => [(0x1000, 8)]
  | .ETH_CNT_MSEC_REPLAY => [(0x1000, 8)]
  | .ETH_CNT_MSEC_NOSA => [(0x1000, 8)]
  | .ETH_CNT_MSEC_UNTAGGED => [(0x1000, 8)]
  | .ETH_CNT_MSEC_PN_EXH => [(0x1000, 8)]
  | .TMG_COLOR_MAP => [(4, 4)]
  | .TMG_PORT_CFG_W0 => [(8, 24)]
  | .TMG_PORT_CFG_W1 => [(8, 24)]
  | .TMG_TBL_WIN => [(4, 8)]
  | .TMG_GATE_CTL => [(0x40, 8)]
  | .TMG_GATE_CYCLE => [(0x40, 8)]
  | .TMG_GATE_BASE_NS => [(0x40, 8)]
  | .TMG_GATE_BASE_S_LO => [(0x40, 8)]
  | .TMG_GATE_BASE_S_HI => [(0x40, 8)]
  | .TMG_GATE_STAT => [(0x40, 8)]
  | .NTU_PTP_CFG => [(4, 10)]
  | .APC_CORE_CTL => [(0x1000, 8)]
  | .APC_CORE_START_LO => [(0x1000, 8)]
  | .APC_CORE_START_HI => [(0x1000, 8)]
  | .APC_CORE_STAT => [(0x1000, 8)]
  | .RGC_CORE_CTL => [(0x1000000, 6)]
  | .RGC_CORE_STAT => [(0x1000000, 6)]
  | .RGC_CORE_DWIN => [(0x1000000, 6)]
  | .TLY_ENQ_W => [(4, 6)]
  | .TLY_CUR_W => [(4, 8)]
  | .TLY_ROD_STAT => [(4, 16)]
  | .TLY_CORE_RODS => [(4, 14)]
  | .TLY_DLY_CFG => [(4, 4)]
  | .TLY_REL_POP => [(4, 16)]
  | .EVT_MASK => [(4, 8)]
  | .RKN_CTL => [(0x800, 32)]
  | .RKN_STAT => [(0x800, 32)]
  | .RKN_PC => [(0x800, 32)]
  | .RKN_CNT_SAT => [(0x800, 32)]
  | .RKN_CNT_CYC => [(0x800, 32)]
  | .RKN_S => [(0x800, 32), (4, 16)]
  | .RKN_ACC_LO => [(0x800, 32), (8, 32)]
  | .RKN_ACC_HI => [(0x800, 32), (8, 32)]
  | .SRM_USE => [(4, 4)]
  | .DMC_STAT => [(0x10000, 2)]
  | .DMC_CFG => [(0x10000, 2)]
  | .DMC_ACT_CFG => [(0x10000, 2)]
  | .DMC_RT_CFG => [(0x10000, 2)]
  | .DMC_DIST_STAT => [(0x10000, 2)]
  | .DMC_ECC_ADDR => [(0x10000, 2)]
  | .DMC_CNT_CORR => [(0x10000, 2)]
  | .DMC_CNT_UNCORR => [(0x10000, 2)]
  | .DMC_CNT_PANIC => [(0x10000, 2)]
  | .DMC_CNT_RT_LATE => [(0x10000, 2)]
  | .DMC_CNT_INORDER => [(0x10000, 2)]
  | .DMC_CNT_THROT => [(0x10000, 2)]
  | .DMC_CNT_TREF => [(0x10000, 2)]
  | .CIP_SLOT_KEY => [(4, 8)]
  | .CIP_JOB_BASE => [(0x40, 4)]
  | .CIP_JOB_CFG => [(0x40, 4)]
  | .CIP_JOB_TAIL => [(0x40, 4)]
  | .CIP_JOB_HEAD => [(0x40, 4)]
  | .CIP_CPL_POP => [(0x40, 4)]
  | .CIP_CPL_INFO => [(0x40, 4)]
  | .AO_RAIL_STAT => [(4, 19)]
  | .WAK_WRX_ID => [(4, 4)]
  | .RGC_ERR_ADDR_LO => [(0x1000000, 8)]
  | .RGC_ERR_ADDR_HI => [(0x1000000, 8)]
  | .RGC_ERR_INFO => [(0x1000000, 8)]
  | .RGC_ERR_TIME => [(0x1000000, 8)]
  | .RGC_HANG_CFG => [(0x1000000, 8)]
  | .ASH_WIN => [(4, 16)]
  | .AO_AGE_STAT => [(4, 8)]
  | .SDS_LANE_STAT => [(4, 8)]
  | .SDS_PORT_STAT => [(4, 8)]
  | .SDS_CNT_FEC_CORR => [(4, 8)]
  | .SDS_CNT_FEC_UNCORR => [(4, 8)]
  | .SDS_CNT_LINK_DOWN => [(4, 8)]
  | .HL_WIN_W0 => [(0x40, 8), (0x10, 4)]
  | .HL_WIN_W1 => [(0x40, 8), (0x10, 4)]
  | .HL_WIN_W2 => [(0x40, 8), (0x10, 4)]
  | .HL_FN_ERR => [(4, 8)]
  | .CAL_WIN => [(0x1000000, 4), (4, 32)]
  | .DPD_SHADOW => [(0x1000000, 4), (0x1000, 16), (0x100, 8), (4, 64)]
  | .IDN_LOCK => [(4, 272)]
  | .AO_STATUS => []
  | .AO_PUSH_CTL => []
  | .AO_PUSH_DATA => []
  | .AO_PUSH_STAT => []
  | .AO_BOOT_INFO => []
  | .AO_IMAGE_SERIAL => []
  | .AO_SERIAL_FLOOR => []
  | .RGC_RESTACK_CTL => []
  | .RGC_RESTACK_TIME => []
  | .RGC_RESTACK_STAT => []
  | .RGC_STACK_CUR => []
  | .RGC_ASYNC_CFG => []
  | .HKA_CFG => []
  | .HKA_POP => []
  | .HKA_QLEVEL => []
  | .HKA_CHK_STAT => []
  | .HKA_CNT_QDROP => []
  | .HKA_CNT_PLAUS => []
  | .SND_CFG => []
  | .SND_RING_BASE => []
  | .SND_RING_SIZE => []
  | .SND_EST_POP => []
  | .SND_SLOT_FREE => []
  | .SND_CNT_DROP => []
  | .LDPC_CFG => []
  | .LDPC_STAT => []
  | .LDPC_CNT_DROP => []
  | .LDPC_CNT_FAIL => []
  | .WAC_MLD_ADDR_LO => []
  | .WAC_MLD_ADDR_HI => []
  | .WAC_TWT_CFG => []
  | .WAC_BA_CFG => []
  | .WAC_Q_CFG => []
  | .WAC_TBL_SEL => []
  | .WAC_TBL_CTL => []
  | .WAC_TBL_STAT => []
  | .WAC_MTX_BASE => []
  | .WAC_MTX_CFG => []
  | .WAC_MTX_TAIL => []
  | .WAC_MTX_HEAD => []
  | .WAC_MTX_CPL_POP => []
  | .WAC_MRX_BASE => []
  | .WAC_MRX_CFG => []
  | .WAC_MRX_TAIL => []
  | .WAC_MRX_HEAD => []
  | .WAC_MRX_FREE => []
  | .WAC_BSR_POP => []
  | .WAC_AFC_ADDR => []
  | .WAC_AFC_CTL => []
  | .WAC_AFC_STAT => []
  | .WAC_AFC_SERIAL => []
  | .WAC_CNT_DUP => []
  | .WAC_CNT_OLD => []
  | .WAC_CNT_REPLAY => []
  | .WAC_CNT_MIC_FAIL => []
  | .WAC_CNT_REORDER_TO => []
  | .WAC_CNT_RETRY_DROP => []
  | .WAC_CNT_LIFETIME => []
  | .WAC_CNT_TWT_MISS => []
  | .WAC_CNT_TWT_TEARDOWN => []
  | .WAC_CNT_UNAUTH => []
  | .WAC_CNT_NOSTA => []
  | .WAC_CNT_TX_OVERSIZE => []
  | .WAC_CNT_MRX_DROP => []
  | .WAC_CNT_QW_UNCOVERED => []
  | .WAC_CNT_BCN_DROP => []
  | .WAC_CNT_REFUSED => []
  | .FHU_CFG => []
  | .FHU_FRAME_OFF => []
  | .FHU_TIME_CFG => []
  | .FHU_WIN_UP => []
  | .FHU_WIN_CPDL => []
  | .FHU_WIN_CPUL => []
  | .FHU_MAX_FRAME => []
  | .FHU_BUF_BASE => []
  | .FHU_BUF_CFG => []
  | .FHU_STAT => []
  | .FHU_RET_POP => []
  | .FHU_RET_INFO => []
  | .FHU_RET_FREE => []
  | .FHU_CNT_ON_TIME => []
  | .FHU_CNT_EARLY => []
  | .FHU_CNT_LATE => []
  | .FHU_CNT_CP_EARLY => []
  | .FHU_CNT_CP_LATE => []
  | .FHU_CNT_MALFORMED => []
  | .FHU_CNT_UNSUPPORTED => []
  | .FHU_CNT_UNKNOWN => []
  | .FHU_CNT_SEQ_ERR => []
  | .FHU_CNT_DUP => []
  | .FHU_CNT_OVERSIZE => []
  | .FHU_CNT_NO_CPLANE => []
  | .FHU_CNT_BUF_FULL => []
  | .FHU_CNT_CONFLICT => []
  | .FHU_CNT_BAD_BEAM => []
  | .FHU_CNT_W_SAT => []
  | .FHU_CNT_TX_LOST => []
  | .FHU_CNT_TX_TRUNC => []
  | .FHU_CNT_RESTACK_DISC => []
  | .FHU_CNT_NO_TIME => []
  | .FHU_CNT_RET_DROP => []
  | .FHU_CNT_UL_TX => []
  | .TXA_CFG => []
  | .TXA_DET_CFG => []
  | .TXA_SYNC => []
  | .TXA_KEY => []
  | .TXA_DL_CFG => []
  | .TXA_DL2_CFG => []
  | .TXA_FB_CFG => []
  | .TXA_FB_STAT => []
  | .TXA_RX_BASE => []
  | .TXA_RX_CFG => []
  | .TXA_RX_TAIL => []
  | .TXA_RX_HEAD => []
  | .TXA_DL_PUSH => []
  | .TXA_DL_CPL_POP => []
  | .TXA_DL_CPL_INFO => []
  | .TXA_CTR_SEL => []
  | .TXA_CTR_DATA => []
  | .TXA_CNT_RX_OK => []
  | .TXA_CNT_FALSE_DET => []
  | .TXA_CNT_HDR_FAIL => []
  | .TXA_CNT_CAPTURE_LOST => []
  | .TXA_CNT_OVERSIZE => []
  | .TXA_CNT_CRC_FAIL => []
  | .TXA_CNT_NETID => []
  | .TXA_CNT_MIC_FAIL => []
  | .TXA_CNT_REPLAY => []
  | .TXA_CNT_DUP_ACKED => []
  | .TXA_CNT_RX_DROP => []
  | .TXA_CNT_RX_ABORT => []
  | .TXA_CNT_DL_SENT => []
  | .TXA_CNT_DL_FAIL => []
  | .TXA_CNT_RESTACK_DISC => []
  | .TXA_CNT_FB_FORCED => []
  | .PRS_MAL_ACT => []
  | .PRS_ING_CFG => []
  | .PRS_CNT_RECIRC => []
  | .FLW_CFG => []
  | .FLW_RMAC_LO => []
  | .FLW_RMAC_HI => []
  | .FLW_FT_BASE => []
  | .FLW_AGE_CFG => []
  | .FLW_AGE_CFG2 => []
  | .FLW_VER_CTL => []
  | .FLW_VER_STAT => []
  | .FLW_VER_GEN => []
  | .FLW_VER_FAIL => []
  | .FLW_MISS_STAT => []
  | .FLW_SW_PEND => []
  | .FLW_EXP_BASE => []
  | .FLW_EXP_CFG => []
  | .FLW_EXP_TAIL => []
  | .FLW_EXP_HEAD => []
  | .FLW_TBL_SEL => []
  | .FLW_TBL_CTL => []
  | .FLW_TBL_STAT => []
  | .FLW_CNT_NO_ROUTE => []
  | .FLW_CNT_TTL => []
  | .FLW_CNT_MTU => []
  | .FLW_CNT_ACL_DENY => []
  | .FLW_CNT_MISS_DROP => []
  | .FLW_CNT_LEARN_FAIL => []
  | .FLW_CNT_NAT_EXHAUST => []
  | .FLW_CNT_NAT_UNSUP => []
  | .FLW_CNT_ESP_AUTH => []
  | .FLW_CNT_ESP_REPLAY => []
  | .FLW_CNT_ESP_NOSA => []
  | .FLW_CNT_L2_MOVE => []
  | .FLW_CNT_L2_LEARN_FAIL => []
  | .FLW_CNT_EXP_DROP => []
  | .FLW_CNT_SW_RX_DROP => []
  | .FLW_CNT_BAD_DESC => []
  | .TMG_CFG => []
  | .TMG_BUF_CFG => []
  | .TMG_BUF_STAT => []
  | .TMG_TBL_SEL => []
  | .TMG_TBL_CTL => []
  | .TMG_TBL_STAT => []
  | .TMG_CNT_ENQ => []
  | .TMG_CNT_METER_DROP => []
  | .TMG_CNT_Q_DROP => []
  | .TMG_CNT_BUF_DROP => []
  | .TMG_CNT_NO_SUB => []
  | .TMG_CNT_LINK_DROP => []
  | .TMG_CNT_FLUSH => []
  | .TMG_CNT_GATE_OVERSIZE => []
  | .NTU_CFG => []
  | .NTU_HOLD_CFG => []
  | .NTU_STATUS => []
  | .NTU_UNC => []
  | .NTU_TIME_NS => []
  | .NTU_TIME_S_LO => []
  | .NTU_TIME_S_HI => []
  | .NTU_RAW_LO => []
  | .NTU_RAW_HI => []
  | .NTU_STAMP => []
  | .NTU_TIME_RATE_LO => []
  | .NTU_TIME_RATE_HI => []
  | .NTU_STEP_NS => []
  | .NTU_SET_NS => []
  | .NTU_SET_S_LO => []
  | .NTU_SET_S_HI => []
  | .NTU_TIME_CTL => []
  | .NTU_TIME_STAT => []
  | .NTU_LOCK_UNC => []
  | .NTU_OP8_INCR => []
  | .NTU_SLP_RATIO => []
  | .NTU_CNT_STEP_REFUSED => []
  | .NTU_CNT_SERVO_TO => []
  | .NTU_CNT_TXTS_DROP => []
  | .NTU_TXTS_POP => []
  | .NTU_TXTS_VAL => []
  | .NTU_PPS_CFG => []
  | .NTU_PPS_IN_TS => []
  | .NTU_CAP_STAT => []
  | .NTU_TSYNC_TS => []
  | .NTU_TSYNC_CFG => []
  | .NTU_TSYNC_START => []
  | .NTU_TSYNC_PERIOD => []
  | .NTU_SYNCE_CFG => []
  | .NTU_SYNCE_STAT => []
  | .NTU_PTM_CTL => []
  | .NTU_PTM_STAT => []
  | .NTU_PTM_T1 => []
  | .NTU_PTM_T4 => []
  | .NTU_PTM_MT_LO => []
  | .NTU_PTM_MT_HI => []
  | .NTU_PTM_DELAY => []
  | .APC_CFG => []
  | .TLY_ENQ_DUE => []
  | .TLY_ENQ_GO => []
  | .TLY_ENQ_STAT => []
  | .TLY_DLY_CANCEL => []
  | .TLY_PICK => []
  | .TLY_DONE_RES => []
  | .TLY_DONE => []
  | .TLY_REL_RES => []
  | .TLY_REL_PEND => []
  | .TLY_CNT_FULL => []
  | .TLY_CNT_FENCED => []
  | .TLY_CNT_DLY_LATE => []
  | .EVT_CLAIM => []
  | .EVT_CLAIM_TS => []
  | .EVT_HCLAIM => []
  | .EVT_CLR => []
  | .EVT_EVTOUT_CFG => []
  | .EVT_PEND_SEL => []
  | .EVT_PEND => []
  | .SRM_CFG => []
  | .SRM_STAT => []
  | .SRM_RET_LO => []
  | .SRM_RET_HI => []
  | .SRM_ECC_ADDR => []
  | .SRM_CNT_CORR => []
  | .SRM_CNT_UNCORR => []
  | .PBF_CFG => []
  | .PBF_STAT => []
  | .PBF_CNT_SPILL_CAP => []
  | .IDN_DEVICE_ID_LO => []
  | .IDN_DEVICE_ID_HI => []
  | .IDN_REV => []
  | .IDN_LIFECYCLE => []
  | .IDN_NONCE_LO => []
  | .IDN_NONCE_HI => []
  | .IDN_TAMPER_CFG => []
  | .KLN_MB_REQ => []
  | .KLN_MB_GO => []
  | .KLN_MB_STAT => []
  | .KLN_STAT => []
  | .CIP_SLOT_CTL => []
  | .CIP_SLOT_STAT => []
  | .CIP_ATTR_SEL => []
  | .CIP_ATTR => []
  | .CIP_CNT_JOBS => []
  | .CIP_CNT_AUTH_FAIL => []
  | .CIP_CNT_POLICY => []
  | .CIP_CNT_BAD_DESC => []
  | .AO_SLEEP_CTL => []
  | .AO_SLEEP_CFG => []
  | .AO_SLEEP_STAT => []
  | .AO_SLEEP_REC => []
  | .AO_WAKE_REC0 => []
  | .AO_WAKE_REC1 => []
  | .AO_WAKE_REC2 => []
  | .AO_WAKE_REC3 => []
  | .AO_WAKE_FAIL => []
  | .AO_VF_CTL => []
  | .AO_ISL_CTL => []
  | .AO_VF_STAT => []
  | .WAK_EN => []
  | .WAK_GPIO => []
  | .WAK_WRX => []
  | .WAK_TIMER => []
  | .ASH_STAT => []
  | .ASH_SEQ => []
  | .ASH_DROPS => []
  | .ASH_CFG => []
  | .ASH_CTL => []
  | .ASH_SEL => []
  | .HL_STAT => []
  | .SMB_STAT => []
  | .SMB_CNT_TIMEOUT => []
  | .SMB_CNT_PEC => []
  | .SMB_CNT_BAD => []
  | .XIO_SPI_CTL => []
  | .XIO_SPI_ADDR => []
  | .XIO_SPI_SYS => []
  | .XIO_SPI_STAT => []
  | .XIO_GPIO_OUT => []
  | .XIO_GPIO_OE => []
  | .XIO_GPIO_IN => []
  | .XIO_GPIO_PULL => []
  | .XIO_GPIO_IRQ => []
  | .XIO_GPIO_EDGE => []
  | .AO_WAKE_TICKS => []

/-- Reset word of a register, the same for every instance but those of `resetWord`. -/
def Reg.reset (r : Reg) : BitVec 32 :=
  match r with
  | .RGC_QOS_WGT => 0x148
  | .RGC_EARLY_READ => 0
  | .RGC_FENCE_CAUSE => 0
  | .RGC_EBUF_LAT => 0
  | .RGC_EBUF_SLIP => 0
  | .AO_STATUS => 1
  | .AO_PUSH_CTL => 0
  | .AO_PUSH_DATA => 0
  | .AO_PUSH_STAT => 0
  | .AO_BOOT_INFO => 0
  | .AO_IMAGE_SERIAL => 0
  | .AO_SERIAL_FLOOR => 0
  | .RGC_RESTACK_CTL => 0
  | .RGC_RESTACK_TIME => 0
  | .RGC_RESTACK_STAT => 0
  | .RGC_STACK_CUR => 0
  | .PATH_CTL => 0x7F0080
  | .PATH_STAT => 0
  | .SYN_STAT => 0
  | .SYN_FINE => 0
  | .RGC_ASYNC_CFG => 4
  | .FEN_PROT_CFG => 0x641864
  | .FEN_RFFE_CMD => 0
  | .FEN_RFFE_RSP => 0x8FC00000
  | .FEN_RFFE_CFG => 0xA00
  | .FEN_RFFE_POLL => 0
  | .FEN_FAST_TIM => 0x3214140A
  | .FEN_BIAS => 0x5A0000
  | .FEN_COEX_CFG => 0x140A0F
  | .FEN_CNT_DELAYED => 0
  | .FEN_CNT_LATE => 0
  | .FEN_CNT_LOCK_LOST => 0
  | .FEN_CNT_GUARD_CLAMP => 0
  | .FEN_CNT_GUARD_BLOCK => 0
  | .FEN_CNT_COEX_PREEMPT => 0
  | .FEN_CNT_RFFE_NOACK => 0
  | .FEN_CNT_PATH_FAULT => 0
  | .DFE_ROUTE_STAT => 0
  | .DFE_TXF_COEF => 0
  | .DFE_MASK => 0
  | .DFE_TXF_CTL => 0x3200
  | .DFE_TXF_STAT => 0
  | .DFE_CFR_CFG => 0x6950
  | .DFE_CNT_CFR => 0
  | .BEAM_TBL_BASE => 0
  | .BEAM_CFG => 0xA
  | .BEAM_COMMIT => 0
  | .BEAM_STAT => 0
  | .BEAM_CNT_MISS => 0
  | .BEAM_CNT_BADREC => 0
  | .BEAM_CNT_NORM => 0
  | .DPD_CTL => 0xC00
  | .DPD_COMMIT => 0
  | .DPD_STAT => 0
  | .DPD_CNT_SAT => 0
  | .DPD_CNT_REVERT => 0
  | .ORX_CFG => 0xA10
  | .ORX_CPL => 0
  | .ORX_RING_BASE => 0
  | .ORX_CAP_POP => 0x81F00000
  | .ORX_SLOT_FREE => 0
  | .ORX_CNT_VISIT => 0
  | .ORX_CNT_STALL => 0
  | .ORX_CNT_ABANDON => 0
  | .CAL_CTL => 0x700
  | .CAL_CFG => 0x2640220
  | .CAL_STAT => 0
  | .CAL_TEMP => 0
  | .CAL_QW => 0
  | .CAL_QW_INFO => 0
  | .CAL_REJ => 0
  | .CAL_CNT_RUN => 0
  | .CAL_CNT_REJECT => 0
  | .CAL_CNT_FORCED => 0
  | .CAL_CNT_REBOOK => 0
  | .CAL_WIN_SEL => 0
  | .CAL_COMMIT => 0
  | .CAL_RED => 0
  | .CAL_XP_CTL => 0
  | .CAL_XP_ADDR => 0
  | .CAL_XP_STAT => 0
  | .HKA_CFG => 0x40080A03
  | .HKA_POP => 0xFF000000
  | .HKA_QLEVEL => 0
  | .HKA_CHK_STAT => 0
  | .HKA_CH => 0x80000404
  | .HKA_VAL => 0
  | .HKA_CNT_QDROP => 0
  | .HKA_CNT_PLAUS => 0
  | .PHY_LINK_STAT => 0
  | .PHY_CFG => 0x8028103F
  | .PHY_MAX_PSDU => 0xECDD80
  | .PHY_PUNCT => 0
  | .PHY_CCA_CFG => 0xAC2B8AE
  | .PHY_CCA_STAT => 0
  | .PHY_DSSS_CFG => 0x80008A00
  | .PHY_RX_PPDU => 0
  | .PHY_FALSE_START => 0
  | .PHY_CAPTURE_LOST => 0
  | .PHY_OVERSIZE => 0
  | .PHY_UNSUPPORTED => 0
  | .PHY_HDR_FAIL => 0
  | .PHY_RX_ABORT => 0
  | .PHY_TX_PPDU => 0
  | .PHY_TX_NOSTART => 0
  | .SND_CFG => 0xB00
  | .SND_RING_BASE => 0
  | .SND_RING_SIZE => 0x800000
  | .SND_EST_POP => 0xFFF80000
  | .SND_SLOT_FREE => 0
  | .SND_CNT_DROP => 0
  | .LDPC_CFG => 0x44400804
  | .LDPC_STAT => 0
  | .LDPC_CNT_DROP => 0
  | .LDPC_CNT_FAIL => 0
  | .PHY_DFS_CFG => 0x1E06C0
  | .PHY_DFS_CTL => 0
  | .PHY_DFS_MAP => 0
  | .PHY_DFS_POP => 0xBC000000
  | .PHY_DFS_STAMP => 0
  | .PHY_DFS_QDROP => 0
  | .PHY_DFS_PAT_W0 => 0
  | .PHY_DFS_PAT_W1 => 0
  | .WAC_LINK_CFG => 0x640100
  | .WAC_MLD_ADDR_LO => 0
  | .WAC_MLD_ADDR_HI => 0
  | .WAC_EDCA => 0x7A40
  | .WAC_SCHED_CFG => 0xF9481420
  | .WAC_TWT_CFG => 0x80FA010
  | .WAC_BA_CFG => 0x70A01F4
  | .WAC_Q_CFG => 0x1000080
  | .WAC_LINK_STAT => 0
  | .WAC_TBL_SEL => 0
  | .WAC_TBL_CTL => 0
  | .WAC_TBL_STAT => 0
  | .WAC_TBL_WIN => 0
  | .WAC_MTX_BASE => 0
  | .WAC_MTX_CFG => 4
  | .WAC_MTX_TAIL => 0
  | .WAC_MTX_HEAD => 0
  | .WAC_MTX_CPL_POP => 0x8FFF0000
  | .WAC_MRX_BASE => 0
  | .WAC_MRX_CFG => 4
  | .WAC_MRX_TAIL => 0
  | .WAC_MRX_HEAD => 0
  | .WAC_MRX_FREE => 0
  | .WAC_BSR_POP => 0xFFF00000
  | .WAC_AFC_ADDR => 0
  | .WAC_AFC_CTL => 0
  | .WAC_AFC_STAT => 0
  | .WAC_AFC_SERIAL => 0
  | .WAC_CNT_DUP => 0
  | .WAC_CNT_OLD => 0
  | .WAC_CNT_REPLAY => 0
  | .WAC_CNT_MIC_FAIL => 0
  | .WAC_CNT_REORDER_TO => 0
  | .WAC_CNT_RETRY_DROP => 0
  | .WAC_CNT_LIFETIME => 0
  | .WAC_CNT_TWT_MISS => 0
  | .WAC_CNT_TWT_TEARDOWN => 0
  | .WAC_CNT_UNAUTH => 0
  | .WAC_CNT_NOSTA => 0
  | .WAC_CNT_TX_OVERSIZE => 0
  | .WAC_CNT_MRX_DROP => 0
  | .WAC_CNT_QW_UNCOVERED => 0
  | .WAC_CNT_BCN_DROP => 0
  | .WAC_CNT_REFUSED => 0
  | .FHU_CFG => 0x38000000
  | .FHU_FRAME_OFF => 0
  | .FHU_TIME_CFG => 0x44C0000
  | .FHU_WIN_UP => 0x1590046
  | .FHU_WIN_CPDL => 0x7D0000
  | .FHU_WIN_CPUL => 0x1590046
  | .FHU_MAX_FRAME => 0x233A
  | .FHU_MAC_LO => 0
  | .FHU_MAC_HI => 0
  | .FHU_BUF_BASE => 0
  | .FHU_BUF_CFG => 0
  | .FHU_STAT => 0
  | .FHU_CAR_CFG => 0x40000000
  | .FHU_CAR_DYN => 0
  | .FHU_GAP_W0 => 0
  | .FHU_GAP_W1 => 0
  | .FHU_EAXC_W0 => 0
  | .FHU_EAXC_W1 => 0
  | .FHU_RET_POP => 0x800FF000
  | .FHU_RET_INFO => 0
  | .FHU_RET_FREE => 0
  | .FHU_CNT_ON_TIME => 0
  | .FHU_CNT_EARLY => 0
  | .FHU_CNT_LATE => 0
  | .FHU_CNT_CP_EARLY => 0
  | .FHU_CNT_CP_LATE => 0
  | .FHU_CNT_MALFORMED => 0
  | .FHU_CNT_UNSUPPORTED => 0
  | .FHU_CNT_UNKNOWN => 0
  | .FHU_CNT_SEQ_ERR => 0
  | .FHU_CNT_DUP => 0
  | .FHU_CNT_OVERSIZE => 0
  | .FHU_CNT_NO_CPLANE => 0
  | .FHU_CNT_BUF_FULL => 0
  | .FHU_CNT_CONFLICT => 0
  | .FHU_CNT_BAD_BEAM => 0
  | .FHU_CNT_W_SAT => 0
  | .FHU_CNT_TX_LOST => 0
  | .FHU_CNT_TX_TRUNC => 0
  | .FHU_CNT_RESTACK_DISC => 0
  | .FHU_CNT_NO_TIME => 0
  | .FHU_CNT_RET_DROP => 0
  | .FHU_CNT_UL_TX => 0
  | .TXA_CFG => 0x600000FF
  | .TXA_DET_CFG => 0x820180C
  | .TXA_SYNC => 0x2D71
  | .TXA_KEY => 0xFFFF
  | .TXA_DL_CFG => 0xFA04E2
  | .TXA_DL2_CFG => 0x80000200
  | .TXA_FB_CFG => 0x8040323C
  | .TXA_FB_STAT => 0
  | .TXA_CH_CFG_W0 => 0xFC00000
  | .TXA_CH_CFG_W1 => 0
  | .TXA_CH_STAT => 0
  | .TXA_RX_BASE => 0
  | .TXA_RX_CFG => 4
  | .TXA_RX_TAIL => 0
  | .TXA_RX_HEAD => 0
  | .TXA_DL_PUSH => 0
  | .TXA_DL_CPL_POP => 0x80FF0000
  | .TXA_DL_CPL_INFO => 0
  | .TXA_CTR_SEL => 0
  | .TXA_CTR_DATA => 0
  | .TXA_CNT_RX_OK => 0
  | .TXA_CNT_FALSE_DET => 0
  | .TXA_CNT_HDR_FAIL => 0
  | .TXA_CNT_CAPTURE_LOST => 0
  | .TXA_CNT_OVERSIZE => 0
  | .TXA_CNT_CRC_FAIL => 0
  | .TXA_CNT_NETID => 0
  | .TXA_CNT_MIC_FAIL => 0
  | .TXA_CNT_REPLAY => 0
  | .TXA_CNT_DUP_ACKED => 0
  | .TXA_CNT_RX_DROP => 0
  | .TXA_CNT_RX_ABORT => 0
  | .TXA_CNT_DL_SENT => 0
  | .TXA_CNT_DL_FAIL => 0
  | .TXA_CNT_RESTACK_DISC => 0
  | .TXA_CNT_FB_FORCED => 0
  | .PRS_PORT_CFG_W0 => 0x10000
  | .PRS_PORT_CFG_W1 => 0
  | .PRS_MAL_ACT => 0
  | .PRS_STAT => 0
  | .PRS_ING_CFG => 0x200
  | .PRS_CNT_MAL => 0
  | .PRS_CNT_PASS => 0
  | .PRS_CNT_RECIRC => 0
  | .PRS_CNT_ING_DROP => 0
  | .FLW_CFG => 0
  | .FLW_RMAC_LO => 0
  | .FLW_RMAC_HI => 0
  | .FLW_FT_BASE => 0
  | .FLW_AGE_CFG => 0xF0B43C0A
  | .FLW_AGE_CFG2 => 0xA012C
  | .FLW_VER_CTL => 0
  | .FLW_VER_STAT => 0
  | .FLW_VER_GEN => 0
  | .FLW_VER_FAIL => 0
  | .FLW_MISS_STAT => 0
  | .FLW_SW_PEND => 0
  | .FLW_EXP_BASE => 0
  | .FLW_EXP_CFG => 4
  | .FLW_EXP_TAIL => 0
  | .FLW_EXP_HEAD => 0
  | .FLW_TBL_SEL => 0
  | .FLW_TBL_CTL => 0
  | .FLW_TBL_STAT => 0
  | .FLW_TBL_WIN => 0
  | .FLW_SW_RX_BASE => 0
  | .FLW_SW_RX_CFG => 4
  | .FLW_SW_RX_TAIL => 0
  | .FLW_SW_RX_HEAD => 0
  | .FLW_SW_RX_FREE => 0
  | .FLW_SW_TX_BASE => 0
  | .FLW_SW_TX_CFG => 4
  | .FLW_SW_TX_TAIL => 0
  | .FLW_SW_TX_HEAD => 0
  | .FLW_SW_TX_CPL_POP => 0x8FFF0000
  | .FLW_CNT_NO_ROUTE => 0
  | .FLW_CNT_TTL => 0
  | .FLW_CNT_MTU => 0
  | .FLW_CNT_ACL_DENY => 0
  | .FLW_CNT_MISS_DROP => 0
  | .FLW_CNT_LEARN_FAIL => 0
  | .FLW_CNT_NAT_EXHAUST => 0
  | .FLW_CNT_NAT_UNSUP => 0
  | .FLW_CNT_ESP_AUTH => 0
  | .FLW_CNT_ESP_REPLAY => 0
  | .FLW_CNT_ESP_NOSA => 0
  | .FLW_CNT_L2_MOVE => 0
  | .FLW_CNT_L2_LEARN_FAIL => 0
  | .FLW_CNT_EXP_DROP => 0
  | .FLW_CNT_SW_RX_DROP => 0
  | .FLW_CNT_BAD_DESC => 0
  | .ETH_CFG => 0x5F2
  | .ETH_MSEC_CFG => 0x24400000
  | .ETH_MSEC_WIN => 0
  | .ETH_CNT_RX_OK => 0
  | .ETH_CNT_RX_FCS => 0
  | .ETH_CNT_RX_RUNT => 0
  | .ETH_CNT_RX_OVERSIZE => 0
  | .ETH_CNT_TX_OK => 0
  | .ETH_CNT_TX_MTU => 0
  | .ETH_CNT_MSEC_AUTH => 0
  | .ETH_CNT_MSEC_REPLAY => 0
  | .ETH_CNT_MSEC_NOSA => 0
  | .ETH_CNT_MSEC_UNTAGGED => 0
  | .ETH_CNT_MSEC_PN_EXH => 0
  | .TMG_CFG => 0
  | .TMG_BUF_CFG => 0x1400180
  | .TMG_BUF_STAT => 0
  | .TMG_COLOR_MAP => 0
  | .TMG_PORT_CFG_W0 => 0
  | .TMG_PORT_CFG_W1 => 0
  | .TMG_TBL_SEL => 0
  | .TMG_TBL_CTL => 0
  | .TMG_TBL_STAT => 0
  | .TMG_TBL_WIN => 0
  | .TMG_GATE_CTL => 0
  | .TMG_GATE_CYCLE => 0xF4240
  | .TMG_GATE_BASE_NS => 0
  | .TMG_GATE_BASE_S_LO => 0
  | .TMG_GATE_BASE_S_HI => 0
  | .TMG_GATE_STAT => 0
  | .TMG_CNT_ENQ => 0
  | .TMG_CNT_METER_DROP => 0
  | .TMG_CNT_Q_DROP => 0
  | .TMG_CNT_BUF_DROP => 0
  | .TMG_CNT_NO_SUB => 0
  | .TMG_CNT_LINK_DROP => 0
  | .TMG_CNT_FLUSH => 0
  | .TMG_CNT_GATE_OVERSIZE => 0
  | .NTU_CFG => 0xA0A28
  | .NTU_HOLD_CFG => 0x323200
  | .NTU_STATUS => 0
  | .NTU_UNC => 0xFFFFFFFF
  | .NTU_TIME_NS => 0
  | .NTU_TIME_S_LO => 0
  | .NTU_TIME_S_HI => 0
  | .NTU_RAW_LO => 0
  | .NTU_RAW_HI => 0
  | .NTU_STAMP => 0
  | .NTU_TIME_RATE_LO => 0
  | .NTU_TIME_RATE_HI => 0
  | .NTU_STEP_NS => 0
  | .NTU_SET_NS => 0
  | .NTU_SET_S_LO => 0
  | .NTU_SET_S_HI => 0
  | .NTU_TIME_CTL => 0
  | .NTU_TIME_STAT => 0
  | .NTU_LOCK_UNC => 0x64
  | .NTU_OP8_INCR => 0x1000000
  | .NTU_SLP_RATIO => 0x77359400
  | .NTU_CNT_STEP_REFUSED => 0
  | .NTU_CNT_SERVO_TO => 0
  | .NTU_CNT_TXTS_DROP => 0
  | .NTU_PTP_CFG => 0
  | .NTU_TXTS_POP => 0xFC000000
  | .NTU_TXTS_VAL => 0
  | .NTU_PPS_CFG => 0x640000
  | .NTU_PPS_IN_TS => 0
  | .NTU_CAP_STAT => 0
  | .NTU_TSYNC_TS => 0
  | .NTU_TSYNC_CFG => 0
  | .NTU_TSYNC_START => 0
  | .NTU_TSYNC_PERIOD => 0
  | .NTU_SYNCE_CFG => 0
  | .NTU_SYNCE_STAT => 0
  | .NTU_PTM_CTL => 0
  | .NTU_PTM_STAT => 0
  | .NTU_PTM_T1 => 0
  | .NTU_PTM_T4 => 0
  | .NTU_PTM_MT_LO => 0
  | .NTU_PTM_MT_HI => 0
  | .NTU_PTM_DELAY => 0
  | .APC_CORE_CTL => 0
  | .APC_CORE_START_LO => 0
  | .APC_CORE_START_HI => 0
  | .APC_CORE_STAT => 0
  | .APC_CFG => 0
  | .RGC_CORE_CTL => 0
  | .RGC_CORE_STAT => 0
  | .RGC_CORE_DWIN => 0
  | .TLY_ENQ_W => 0
  | .TLY_ENQ_DUE => 0
  | .TLY_ENQ_GO => 0
  | .TLY_ENQ_STAT => 0
  | .TLY_DLY_CANCEL => 0
  | .TLY_PICK => 0xBFFF0000
  | .TLY_CUR_W => 0
  | .TLY_DONE_RES => 0
  | .TLY_DONE => 0
  | .TLY_ROD_STAT => 0
  | .TLY_CORE_RODS => 0xFFFF
  | .TLY_DLY_CFG => 0xA
  | .TLY_REL_POP => 0x8FFF0000
  | .TLY_REL_RES => 0
  | .TLY_REL_PEND => 0
  | .TLY_CNT_FULL => 0
  | .TLY_CNT_FENCED => 0
  | .TLY_CNT_DLY_LATE => 0
  | .EVT_CLAIM => 0x80FF0000
  | .EVT_CLAIM_TS => 0
  | .EVT_HCLAIM => 0x80FF0000
  | .EVT_CLR => 0
  | .EVT_MASK => 0
  | .EVT_EVTOUT_CFG => 0
  | .EVT_PEND_SEL => 0
  | .EVT_PEND => 0
  | .RKN_CTL => 0
  | .RKN_STAT => 0
  | .RKN_PC => 0
  | .RKN_CNT_SAT => 0
  | .RKN_CNT_CYC => 0
  | .RKN_S => 0
  | .RKN_ACC_LO => 0
  | .RKN_ACC_HI => 0
  | .SRM_CFG => 0x8000000A
  | .SRM_STAT => 0
  | .SRM_USE => 0
  | .SRM_RET_LO => 0
  | .SRM_RET_HI => 0
  | .SRM_ECC_ADDR => 0
  | .SRM_CNT_CORR => 0
  | .SRM_CNT_UNCORR => 0
  | .PBF_CFG => 0x100
  | .PBF_STAT => 0
  | .PBF_CNT_SPILL_CAP => 0
  | .DMC_STAT => 0
  | .DMC_CFG => 0x20
  | .DMC_ACT_CFG => 0xA0A0200
  | .DMC_RT_CFG => 0x1410
  | .DMC_DIST_STAT => 0
  | .DMC_ECC_ADDR => 0
  | .DMC_CNT_CORR => 0
  | .DMC_CNT_UNCORR => 0
  | .DMC_CNT_PANIC => 0
  | .DMC_CNT_RT_LATE => 0
  | .DMC_CNT_INORDER => 0
  | .DMC_CNT_THROT => 0
  | .DMC_CNT_TREF => 0
  | .IDN_DEVICE_ID_LO => 0
  | .IDN_DEVICE_ID_HI => 0
  | .IDN_REV => 0x4000A1
  | .IDN_LIFECYCLE => 0
  | .IDN_NONCE_LO => 0
  | .IDN_NONCE_HI => 0
  | .IDN_TAMPER_CFG => 0
  | .KLN_MB_REQ => 0
  | .KLN_MB_GO => 0
  | .KLN_MB_STAT => 0
  | .KLN_STAT => 0
  | .CIP_SLOT_KEY => 0
  | .CIP_SLOT_CTL => 0
  | .CIP_SLOT_STAT => 0
  | .CIP_ATTR_SEL => 0
  | .CIP_ATTR => 0
  | .CIP_JOB_BASE => 0
  | .CIP_JOB_CFG => 4
  | .CIP_JOB_TAIL => 0
  | .CIP_JOB_HEAD => 0
  | .CIP_CPL_POP => 0x8FFF0000
  | .CIP_CPL_INFO => 0
  | .CIP_CNT_JOBS => 0
  | .CIP_CNT_AUTH_FAIL => 0
  | .CIP_CNT_POLICY => 0
  | .CIP_CNT_BAD_DESC => 0
  | .AO_SLEEP_CTL => 0
  | .AO_SLEEP_CFG => 0xA32
  | .AO_SLEEP_STAT => 0
  | .AO_SLEEP_REC => 0
  | .AO_WAKE_REC0 => 0
  | .AO_WAKE_REC1 => 0
  | .AO_WAKE_REC2 => 0
  | .AO_WAKE_REC3 => 0
  | .AO_WAKE_FAIL => 0
  | .AO_VF_CTL => 0
  | .AO_ISL_CTL => 0
  | .AO_VF_STAT => 0
  | .AO_RAIL_STAT => 0
  | .WAK_EN => 0x642C
  | .WAK_GPIO => 0xA00
  | .WAK_WRX => 0x6431
  | .WAK_WRX_ID => 0
  | .WAK_TIMER => 0
  | .RGC_ERR_ADDR_LO => 0
  | .RGC_ERR_ADDR_HI => 0
  | .RGC_ERR_INFO => 0
  | .RGC_ERR_TIME => 0
  | .RGC_HANG_CFG => 0x40064
  | .ASH_STAT => 0
  | .ASH_SEQ => 0
  | .ASH_DROPS => 0
  | .ASH_CFG => 0xA0A32
  | .ASH_CTL => 0
  | .ASH_SEL => 0
  | .ASH_WIN => 0
  | .AO_AGE_STAT => 0
  | .SDS_LANE_STAT => 0
  | .SDS_PORT_STAT => 0
  | .SDS_CNT_FEC_CORR => 0
  | .SDS_CNT_FEC_UNCORR => 0
  | .SDS_CNT_LINK_DOWN => 0
  | .HL_STAT => 0
  | .HL_WIN_W0 => 0
  | .HL_WIN_W1 => 0
  | .HL_WIN_W2 => 0
  | .HL_FN_ERR => 0
  | .SMB_STAT => 0
  | .SMB_CNT_TIMEOUT => 0
  | .SMB_CNT_PEC => 0
  | .SMB_CNT_BAD => 0
  | .XIO_SPI_CTL => 0
  | .XIO_SPI_ADDR => 0
  | .XIO_SPI_SYS => 0
  | .XIO_SPI_STAT => 0
  | .XIO_GPIO_OUT => 0
  | .XIO_GPIO_OE => 0
  | .XIO_GPIO_IN => 0
  | .XIO_GPIO_PULL => 0
  | .XIO_GPIO_IRQ => 0
  | .XIO_GPIO_EDGE => 0
  | .AO_WAKE_TICKS => 0
  | .CAL_WIN => 0
  | .DPD_SHADOW => 0
  | .IDN_LOCK => 0

/-- The fields of a register that are not reserved: high bit, low bit, access code (R5, R6). -/
def Reg.fields (r : Reg) : List (Nat × Nat × Acc) :=
  match r with
  | .RGC_QOS_WGT => [(11, 8, .rw), (7, 4, .rw), (3, 0, .rw)]
  | .RGC_EARLY_READ => [(31, 0, .rc)]
  | .RGC_FENCE_CAUSE => [(31, 31, .ro), (23, 16, .ro), (15, 8, .ro), (4, 4, .ro), (3, 0, .ro)]
  | .RGC_EBUF_LAT => [(31, 31, .ro), (11, 0, .ro)]
  | .RGC_EBUF_SLIP => [(31, 0, .rc)]
  | .AO_STATUS => [(26, 24, .ro), (23, 16, .ro), (13, 8, .ro), (4, 4, .ro), (3, 0, .ro)]
  | .AO_PUSH_CTL => [(10, 8, .wo), (3, 0, .wo)]
  | .AO_PUSH_DATA => [(31, 0, .wo)]
  | .AO_PUSH_STAT => [(31, 31, .ro), (27, 24, .ro), (23, 16, .ro), (15, 0, .ro)]
  | .AO_BOOT_INFO => [(31, 30, .ro), (29, 28, .ro), (23, 16, .ro), (15, 8, .ro)]
  | .AO_IMAGE_SERIAL => [(31, 0, .ro)]
  | .AO_SERIAL_FLOOR => [(31, 0, .ro)]
  | .RGC_RESTACK_CTL => [(15, 14, .rw), (13, 12, .rw), (11, 10, .rw), (9, 8, .rw), (7, 4, .rw), (3, 0, .wo)]
  | .RGC_RESTACK_TIME => [(31, 0, .rw)]
  | .RGC_RESTACK_STAT => [(31, 31, .ro), (27, 24, .ro), (23, 16, .ro), (7, 0, .ro)]
  | .RGC_STACK_CUR => [(15, 8, .ro), (7, 0, .ro)]
  | .PATH_CTL => [(22, 16, .rw), (15, 8, .rw), (7, 7, .rw), (6, 6, .rw), (5, 5, .wo), (1, 1, .rw), (0, 0, .rw)]
  | .PATH_STAT => [(30, 28, .ro), (27, 24, .ro), (23, 16, .ro), (15, 8, .ro), (7, 4, .ro), (3, 3, .ro), (2, 0, .ro)]
  | .SYN_STAT => [(31, 31, .ro), (30, 30, .ro), (29, 27, .ro), (20, 0, .ro)]
  | .SYN_FINE => [(17, 0, .rw)]
  | .RGC_ASYNC_CFG => [(31, 31, .rwl), (16, 16, .ro), (15, 8, .rwl), (2, 2, .rwl), (1, 0, .rwl)]
  | .FEN_PROT_CFG => [(31, 16, .rw), (15, 8, .rw), (7, 0, .rw)]
  | .FEN_RFFE_CMD => [(31, 30, .wo), (29, 28, .wo), (27, 24, .wo), (23, 16, .wo), (15, 8, .wo)]
  | .FEN_RFFE_RSP => [(31, 31, .rp), (30, 30, .rp), (27, 22, .rp), (21, 20, .rp), (15, 8, .rp), (7, 0, .rp)]
  | .FEN_RFFE_CFG => [(15, 8, .rw), (5, 5, .rw), (4, 4, .rw), (1, 0, .rw)]
  | .FEN_RFFE_POLL => [(15, 15, .rw), (13, 12, .rw), (11, 8, .rw), (7, 0, .rw)]
  | .FEN_FAST_TIM => [(31, 24, .rw), (23, 16, .rw), (15, 8, .rw), (7, 0, .rw)]
  | .FEN_BIAS => [(31, 31, .rw), (23, 20, .rw), (19, 16, .rw), (8, 0, .rw)]
  | .FEN_COEX_CFG => [(31, 31, .rw), (30, 30, .rw), (29, 24, .rw), (23, 16, .rw), (15, 8, .rw), (4, 0, .rw)]
  | .FEN_CNT_DELAYED => [(31, 0, .rc)]
  | .FEN_CNT_LATE => [(31, 0, .rc)]
  | .FEN_CNT_LOCK_LOST => [(31, 0, .rc)]
  | .FEN_CNT_GUARD_CLAMP => [(31, 0, .rc)]
  | .FEN_CNT_GUARD_BLOCK => [(31, 0, .rc)]
  | .FEN_CNT_COEX_PREEMPT => [(31, 0, .rc)]
  | .FEN_CNT_RFFE_NOACK => [(31, 0, .rc)]
  | .FEN_CNT_PATH_FAULT => [(31, 0, .rc)]
  | .DFE_ROUTE_STAT => [(31, 31, .ro), (30, 16, .ro), (14, 0, .ro)]
  | .DFE_TXF_COEF => [(17, 0, .rw)]
  | .DFE_MASK => [(31, 31, .rw), (28, 16, .rw), (7, 0, .rw)]
  | .DFE_TXF_CTL => [(15, 8, .rw), (7, 4, .rw), (3, 0, .wo)]
  | .DFE_TXF_STAT => [(31, 31, .ro), (27, 24, .ro), (23, 16, .ro)]
  | .DFE_CFR_CFG => [(31, 31, .rw), (15, 8, .rw), (7, 0, .rw)]
  | .DFE_CNT_CFR => [(31, 0, .rc)]
  | .BEAM_TBL_BASE => [(31, 0, .rw)]
  | .BEAM_CFG => [(7, 0, .rw)]
  | .BEAM_COMMIT => [(30, 28, .wo), (27, 24, .wo), (14, 0, .wo)]
  | .BEAM_STAT => [(31, 29, .ro), (22, 16, .ro), (10, 0, .ro)]
  | .BEAM_CNT_MISS => [(31, 0, .rc)]
  | .BEAM_CNT_BADREC => [(31, 0, .rc)]
  | .BEAM_CNT_NORM => [(31, 0, .rc)]
  | .DPD_CTL => [(15, 8, .rw), (0, 0, .rw)]
  | .DPD_COMMIT => [(2, 0, .wo)]
  | .DPD_STAT => [(31, 24, .ro), (23, 16, .ro), (10, 8, .ro)]
  | .DPD_CNT_SAT => [(31, 0, .rc)]
  | .DPD_CNT_REVERT => [(31, 0, .rc)]
  | .ORX_CFG => [(28, 24, .rw), (23, 16, .rw), (15, 8, .rw), (7, 6, .rw), (5, 4, .rw)]
  | .ORX_CPL => [(31, 31, .rw), (27, 24, .rw), (15, 8, .rw), (7, 0, .rw)]
  | .ORX_RING_BASE => [(31, 0, .rw)]
  | .ORX_CAP_POP => [(31, 31, .rp), (24, 20, .rp), (16, 16, .rp), (3, 0, .rp)]
  | .ORX_SLOT_FREE => [(4, 4, .wo), (3, 0, .wo)]
  | .ORX_CNT_VISIT => [(31, 0, .rc)]
  | .ORX_CNT_STALL => [(31, 0, .rc)]
  | .ORX_CNT_ABANDON => [(31, 0, .rc)]
  | .CAL_CTL => [(10, 10, .rw), (9, 9, .rw), (8, 8, .rw), (3, 0, .wo)]
  | .CAL_CFG => [(27, 24, .rw), (23, 16, .rw), (11, 8, .rw), (7, 0, .rw)]
  | .CAL_STAT => [(31, 31, .ro), (27, 24, .ro), (23, 20, .ro), (16, 16, .ro), (15, 0, .ro)]
  | .CAL_TEMP => [(31, 16, .ro), (15, 0, .ro)]
  | .CAL_QW => [(31, 0, .ro)]
  | .CAL_QW_INFO => [(31, 16, .ro), (10, 8, .ro), (7, 0, .ro)]
  | .CAL_REJ => [(20, 20, .ro), (17, 16, .ro), (13, 8, .ro), (6, 4, .ro), (3, 0, .ro)]
  | .CAL_CNT_RUN => [(31, 0, .rc)]
  | .CAL_CNT_REJECT => [(31, 0, .rc)]
  | .CAL_CNT_FORCED => [(31, 0, .rc)]
  | .CAL_CNT_REBOOK => [(31, 0, .rc)]
  | .CAL_WIN_SEL => [(8, 8, .rw), (6, 4, .rw), (3, 0, .rw)]
  | .CAL_COMMIT => [(3, 0, .wo)]
  | .CAL_RED => [(27, 24, .ro), (11, 10, .rw), (9, 8, .rw), (3, 2, .rw), (1, 0, .rw)]
  | .CAL_XP_CTL => [(15, 8, .rw), (3, 0, .wo)]
  | .CAL_XP_ADDR => [(31, 0, .rw)]
  | .CAL_XP_STAT => [(31, 31, .ro), (27, 24, .ro), (15, 0, .ro)]
  | .HKA_CFG => [(30, 28, .rw), (25, 24, .rw), (23, 16, .rw), (15, 8, .rw), (1, 0, .rw)]
  | .HKA_POP => [(31, 31, .rp), (30, 24, .rp), (19, 0, .rp)]
  | .HKA_QLEVEL => [(9, 0, .ro)]
  | .HKA_CHK_STAT => [(31, 31, .ro), (30, 30, .ro), (29, 28, .ro), (27, 24, .ro), (12, 0, .ro)]
  | .HKA_CH => [(31, 31, .rw), (30, 30, .rw), (11, 8, .rw), (3, 0, .rw)]
  | .HKA_VAL => [(31, 31, .ro), (30, 30, .ro), (19, 0, .ro)]
  | .HKA_CNT_QDROP => [(31, 0, .rc)]
  | .HKA_CNT_PLAUS => [(31, 0, .rc)]
  | .PHY_LINK_STAT => [(31, 30, .ro), (29, 27, .ro), (19, 16, .ro), (6, 0, .ro)]
  | .PHY_CFG => [(31, 31, .rw), (23, 16, .rw), (15, 8, .rw), (5, 0, .rw)]
  | .PHY_MAX_PSDU => [(23, 0, .rw)]
  | .PHY_PUNCT => [(15, 0, .rw)]
  | .PHY_CCA_CFG => [(31, 24, .rw), (23, 16, .rw), (15, 8, .rw), (7, 0, .rw)]
  | .PHY_CCA_STAT => [(31, 31, .ro), (30, 28, .ro), (27, 27, .ro), (15, 0, .ro)]
  | .PHY_DSSS_CFG => [(31, 31, .rw), (15, 12, .rw), (11, 8, .rw)]
  | .PHY_RX_PPDU => [(31, 0, .rc)]
  | .PHY_FALSE_START => [(31, 0, .rc)]
  | .PHY_CAPTURE_LOST => [(31, 0, .rc)]
  | .PHY_OVERSIZE => [(31, 0, .rc)]
  | .PHY_UNSUPPORTED => [(31, 0, .rc)]
  | .PHY_HDR_FAIL => [(31, 0, .rc)]
  | .PHY_RX_ABORT => [(31, 0, .rc)]
  | .PHY_TX_PPDU => [(31, 0, .rc)]
  | .PHY_TX_NOSTART => [(31, 0, .rc)]
  | .SND_CFG => [(11, 11, .rw), (10, 8, .rw)]
  | .SND_RING_BASE => [(31, 0, .rw)]
  | .SND_RING_SIZE => [(23, 16, .rw), (9, 0, .rw)]
  | .SND_EST_POP => [(31, 31, .rp), (30, 19, .rp), (18, 17, .rp), (16, 16, .rp), (9, 0, .rp)]
  | .SND_SLOT_FREE => [(9, 0, .wo)]
  | .SND_CNT_DROP => [(31, 0, .rc)]
  | .LDPC_CFG => [(31, 28, .rw), (27, 24, .rw), (23, 20, .rw), (12, 8, .rw), (4, 0, .rw)]
  | .LDPC_STAT => [(28, 16, .ro), (4, 0, .ro)]
  | .LDPC_CNT_DROP => [(31, 0, .rc)]
  | .LDPC_CNT_FAIL => [(31, 0, .rc)]
  | .PHY_DFS_CFG => [(31, 31, .rwl), (30, 30, .rwl), (23, 16, .rwl), (15, 8, .rwl), (7, 0, .rwl)]
  | .PHY_DFS_CTL => [(31, 28, .wo), (15, 0, .wo)]
  | .PHY_DFS_MAP => [(31, 0, .ro)]
  | .PHY_DFS_POP => [(31, 31, .rp), (29, 26, .rp), (20, 20, .rp), (19, 12, .rp), (11, 0, .rp)]
  | .PHY_DFS_STAMP => [(31, 0, .ro)]
  | .PHY_DFS_QDROP => [(31, 0, .rc)]
  | .PHY_DFS_PAT_W0 => [(31, 31, .rwl), (30, 30, .rwl), (29, 24, .rwl), (23, 12, .rwl), (11, 0, .rwl)]
  | .PHY_DFS_PAT_W1 => [(31, 16, .rwl), (15, 0, .rwl)]
  | .WAC_LINK_CFG => [(31, 31, .rw), (25, 16, .rw), (15, 8, .rw)]
  | .WAC_MLD_ADDR_LO => [(31, 0, .rw)]
  | .WAC_MLD_ADDR_HI => [(15, 0, .rw)]
  | .WAC_EDCA => [(31, 16, .rw), (15, 12, .rw), (11, 8, .rw), (7, 4, .rw)]
  | .WAC_SCHED_CFG => [(31, 31, .rw), (30, 30, .rw), (29, 29, .rw), (28, 28, .rw), (27, 20, .rw), (19, 15, .rw), (14, 8, .rw), (7, 0, .rw)]
  | .WAC_TWT_CFG => [(31, 24, .rw), (23, 12, .rw), (11, 0, .rw)]
  | .WAC_BA_CFG => [(31, 24, .rw), (23, 16, .rw), (15, 0, .rw)]
  | .WAC_Q_CFG => [(31, 16, .rw), (15, 0, .rw)]
  | .WAC_LINK_STAT => [(31, 31, .ro), (30, 28, .ro), (22, 16, .ro), (11, 0, .ro)]
  | .WAC_TBL_SEL => [(31, 28, .rw), (11, 0, .rw)]
  | .WAC_TBL_CTL => [(3, 0, .wo)]
  | .WAC_TBL_STAT => [(31, 31, .ro), (27, 24, .ro), (7, 0, .ro)]
  | .WAC_TBL_WIN => [(31, 0, .rw)]
  | .WAC_MTX_BASE => [(31, 0, .rw)]
  | .WAC_MTX_CFG => [(31, 31, .rw), (3, 0, .rw)]
  | .WAC_MTX_TAIL => [(11, 0, .wo)]
  | .WAC_MTX_HEAD => [(11, 0, .ro)]
  | .WAC_MTX_CPL_POP => [(31, 31, .rp), (27, 16, .rp), (11, 8, .rp), (7, 4, .rp), (3, 0, .rp)]
  | .WAC_MRX_BASE => [(31, 0, .rw)]
  | .WAC_MRX_CFG => [(31, 31, .rw), (3, 0, .rw)]
  | .WAC_MRX_TAIL => [(11, 0, .ro)]
  | .WAC_MRX_HEAD => [(11, 0, .rw)]
  | .WAC_MRX_FREE => [(31, 0, .wo)]
  | .WAC_BSR_POP => [(31, 31, .rp), (30, 20, .rp), (19, 18, .rp), (17, 16, .rp)]
  | .WAC_AFC_ADDR => [(31, 0, .rw)]
  | .WAC_AFC_CTL => [(3, 0, .wo)]
  | .WAC_AFC_STAT => [(31, 31, .ro), (26, 24, .ro), (6, 0, .ro)]
  | .WAC_AFC_SERIAL => [(31, 0, .ro)]
  | .WAC_CNT_DUP => [(31, 0, .rc)]
  | .WAC_CNT_OLD => [(31, 0, .rc)]
  | .WAC_CNT_REPLAY => [(31, 0, .rc)]
  | .WAC_CNT_MIC_FAIL => [(31, 0, .rc)]
  | .WAC_CNT_REORDER_TO => [(31, 0, .rc)]
  | .WAC_CNT_RETRY_DROP => [(31, 0, .rc)]
  | .WAC_CNT_LIFETIME => [(31, 0, .rc)]
  | .WAC_CNT_TWT_MISS => [(31, 0, .rc)]
  | .WAC_CNT_TWT_TEARDOWN => [(31, 0, .rc)]
  | .WAC_CNT_UNAUTH => [(31, 0, .rc)]
  | .WAC_CNT_NOSTA => [(31, 0, .rc)]
  | .WAC_CNT_TX_OVERSIZE => [(31, 0, .rc)]
  | .WAC_CNT_MRX_DROP => [(31, 0, .rc)]
  | .WAC_CNT_QW_UNCOVERED => [(31, 0, .rc)]
  | .WAC_CNT_BCN_DROP => [(31, 0, .rc)]
  | .WAC_CNT_REFUSED => [(31, 0, .rc)]
  | .FHU_CFG => [(31, 31, .rw), (30, 30, .rw), (29, 27, .rw), (11, 0, .rw)]
  | .FHU_FRAME_OFF => [(31, 0, .rw)]
  | .FHU_TIME_CFG => [(31, 16, .rw), (15, 0, .rw)]
  | .FHU_WIN_UP => [(31, 16, .rw), (15, 0, .rw)]
  | .FHU_WIN_CPDL => [(31, 16, .rw)]
  | .FHU_WIN_CPUL => [(31, 16, .rw), (15, 0, .rw)]
  | .FHU_MAX_FRAME => [(13, 0, .rw)]
  | .FHU_MAC_LO => [(31, 0, .rw)]
  | .FHU_MAC_HI => [(15, 0, .rw)]
  | .FHU_BUF_BASE => [(31, 0, .rw)]
  | .FHU_BUF_CFG => [(12, 0, .rw)]
  | .FHU_STAT => [(31, 31, .ro), (30, 28, .ro), (27, 26, .ro), (12, 0, .ro)]
  | .FHU_CAR_CFG => [(31, 31, .rw), (30, 30, .rw), (10, 0, .rw)]
  | .FHU_CAR_DYN => [(31, 0, .rw)]
  | .FHU_GAP_W0 => [(31, 16, .rw), (15, 0, .rw)]
  | .FHU_GAP_W1 => [(15, 0, .rw)]
  | .FHU_EAXC_W0 => [(31, 31, .rw), (30, 29, .rw), (28, 28, .rw), (27, 24, .rw), (23, 20, .rw), (15, 0, .rw)]
  | .FHU_EAXC_W1 => [(31, 31, .rw), (30, 30, .rw), (27, 24, .rw), (3, 0, .rw)]
  | .FHU_RET_POP => [(31, 31, .rp), (19, 12, .rp), (11, 0, .rp)]
  | .FHU_RET_INFO => [(31, 24, .ro), (23, 20, .ro), (19, 14, .ro), (13, 10, .ro)]
  | .FHU_RET_FREE => [(11, 0, .wo)]
  | .FHU_CNT_ON_TIME => [(31, 0, .rc)]
  | .FHU_CNT_EARLY => [(31, 0, .rc)]
  | .FHU_CNT_LATE => [(31, 0, .rc)]
  | .FHU_CNT_CP_EARLY => [(31, 0, .rc)]
  | .FHU_CNT_CP_LATE => [(31, 0, .rc)]
  | .FHU_CNT_MALFORMED => [(31, 0, .rc)]
  | .FHU_CNT_UNSUPPORTED => [(31, 0, .rc)]
  | .FHU_CNT_UNKNOWN => [(31, 0, .rc)]
  | .FHU_CNT_SEQ_ERR => [(31, 0, .rc)]
  | .FHU_CNT_DUP => [(31, 0, .rc)]
  | .FHU_CNT_OVERSIZE => [(31, 0, .rc)]
  | .FHU_CNT_NO_CPLANE => [(31, 0, .rc)]
  | .FHU_CNT_BUF_FULL => [(31, 0, .rc)]
  | .FHU_CNT_CONFLICT => [(31, 0, .rc)]
  | .FHU_CNT_BAD_BEAM => [(31, 0, .rc)]
  | .FHU_CNT_W_SAT => [(31, 0, .rc)]
  | .FHU_CNT_TX_LOST => [(31, 0, .rc)]
  | .FHU_CNT_TX_TRUNC => [(31, 0, .rc)]
  | .FHU_CNT_RESTACK_DISC => [(31, 0, .rc)]
  | .FHU_CNT_NO_TIME => [(31, 0, .rc)]
  | .FHU_CNT_RET_DROP => [(31, 0, .rc)]
  | .FHU_CNT_UL_TX => [(31, 0, .rc)]
  | .TXA_CFG => [(31, 31, .rw), (30, 30, .rw), (29, 29, .rw), (21, 8, .rw), (7, 0, .rw)]
  | .TXA_DET_CFG => [(31, 24, .rw), (23, 20, .rw), (15, 8, .rw), (7, 0, .rw)]
  | .TXA_SYNC => [(15, 0, .rw)]
  | .TXA_KEY => [(31, 31, .rwl), (15, 0, .rwl)]
  | .TXA_DL_CFG => [(31, 16, .rw), (15, 0, .rw)]
  | .TXA_DL2_CFG => [(31, 31, .rw), (30, 30, .rw), (19, 16, .rw), (10, 8, .rw), (1, 0, .rw)]
  | .TXA_FB_CFG => [(31, 31, .rw), (23, 16, .rw), (15, 8, .rw), (7, 0, .rw)]
  | .TXA_FB_STAT => [(31, 31, .ro), (30, 30, .ro), (29, 29, .ro), (17, 0, .ro)]
  | .TXA_CH_CFG_W0 => [(31, 31, .rw), (27, 22, .rw), (14, 0, .rw)]
  | .TXA_CH_CFG_W1 => [(14, 0, .rw)]
  | .TXA_CH_STAT => [(31, 29, .ro), (28, 25, .ro), (23, 16, .ro)]
  | .TXA_RX_BASE => [(31, 0, .rw)]
  | .TXA_RX_CFG => [(31, 31, .rw), (3, 0, .rw)]
  | .TXA_RX_TAIL => [(11, 0, .ro)]
  | .TXA_RX_HEAD => [(11, 0, .rw)]
  | .TXA_DL_PUSH => [(31, 0, .wo)]
  | .TXA_DL_CPL_POP => [(31, 31, .rp), (23, 16, .rp), (5, 4, .rp), (3, 0, .rp)]
  | .TXA_DL_CPL_INFO => [(31, 0, .ro)]
  | .TXA_CTR_SEL => [(17, 0, .rw)]
  | .TXA_CTR_DATA => [(31, 0, .rw)]
  | .TXA_CNT_RX_OK => [(31, 0, .rc)]
  | .TXA_CNT_FALSE_DET => [(31, 0, .rc)]
  | .TXA_CNT_HDR_FAIL => [(31, 0, .rc)]
  | .TXA_CNT_CAPTURE_LOST => [(31, 0, .rc)]
  | .TXA_CNT_OVERSIZE => [(31, 0, .rc)]
  | .TXA_CNT_CRC_FAIL => [(31, 0, .rc)]
  | .TXA_CNT_NETID => [(31, 0, .rc)]
  | .TXA_CNT_MIC_FAIL => [(31, 0, .rc)]
  | .TXA_CNT_REPLAY => [(31, 0, .rc)]
  | .TXA_CNT_DUP_ACKED => [(31, 0, .rc)]
  | .TXA_CNT_RX_DROP => [(31, 0, .rc)]
  | .TXA_CNT_RX_ABORT => [(31, 0, .rc)]
  | .TXA_CNT_DL_SENT => [(31, 0, .rc)]
  | .TXA_CNT_DL_FAIL => [(31, 0, .rc)]
  | .TXA_CNT_RESTACK_DISC => [(31, 0, .rc)]
  | .TXA_CNT_FB_FORCED => [(31, 0, .rc)]
  | .PRS_PORT_CFG_W0 => [(31, 31, .rw), (30, 30, .rw), (29, 29, .rw), (28, 28, .rw), (27, 16, .rw), (15, 8, .rw), (2, 0, .rw)]
  | .PRS_PORT_CFG_W1 => [(13, 0, .rw)]
  | .PRS_MAL_ACT => [(15, 0, .rw)]
  | .PRS_STAT => [(31, 16, .ro), (11, 0, .ro)]
  | .PRS_ING_CFG => [(15, 0, .rw)]
  | .PRS_CNT_MAL => [(31, 0, .rc)]
  | .PRS_CNT_PASS => [(31, 0, .rc)]
  | .PRS_CNT_RECIRC => [(31, 0, .rc)]
  | .PRS_CNT_ING_DROP => [(31, 0, .rc)]
  | .FLW_CFG => [(31, 31, .rw), (30, 30, .rw), (29, 29, .rw), (28, 28, .rw), (27, 27, .rw)]
  | .FLW_RMAC_LO => [(31, 0, .rw)]
  | .FLW_RMAC_HI => [(15, 0, .rw)]
  | .FLW_FT_BASE => [(31, 0, .rw)]
  | .FLW_AGE_CFG => [(31, 24, .rw), (23, 16, .rw), (15, 8, .rw), (7, 0, .rw)]
  | .FLW_AGE_CFG2 => [(23, 16, .rw), (15, 0, .rw)]
  | .FLW_VER_CTL => [(3, 0, .wo)]
  | .FLW_VER_STAT => [(31, 31, .ro), (27, 24, .ro), (23, 20, .ro), (0, 0, .ro)]
  | .FLW_VER_GEN => [(31, 0, .ro)]
  | .FLW_VER_FAIL => [(31, 28, .ro), (19, 0, .ro)]
  | .FLW_MISS_STAT => [(28, 16, .ro), (14, 0, .ro)]
  | .FLW_SW_PEND => [(17, 9, .ro), (8, 0, .ro)]
  | .FLW_EXP_BASE => [(31, 0, .rw)]
  | .FLW_EXP_CFG => [(31, 31, .rw), (3, 0, .rw)]
  | .FLW_EXP_TAIL => [(14, 0, .ro)]
  | .FLW_EXP_HEAD => [(14, 0, .rw)]
  | .FLW_TBL_SEL => [(31, 28, .rw), (27, 27, .rw), (19, 0, .rw)]
  | .FLW_TBL_CTL => [(3, 0, .wo)]
  | .FLW_TBL_STAT => [(31, 31, .ro), (27, 24, .ro), (19, 0, .ro)]
  | .FLW_TBL_WIN => [(31, 0, .rw)]
  | .FLW_SW_RX_BASE => [(31, 0, .rw)]
  | .FLW_SW_RX_CFG => [(31, 31, .rw), (3, 0, .rw)]
  | .FLW_SW_RX_TAIL => [(11, 0, .ro)]
  | .FLW_SW_RX_HEAD => [(11, 0, .rw)]
  | .FLW_SW_RX_FREE => [(31, 0, .wo)]
  | .FLW_SW_TX_BASE => [(31, 0, .rw)]
  | .FLW_SW_TX_CFG => [(31, 31, .rw), (3, 0, .rw)]
  | .FLW_SW_TX_TAIL => [(11, 0, .wo)]
  | .FLW_SW_TX_HEAD => [(11, 0, .ro)]
  | .FLW_SW_TX_CPL_POP => [(31, 31, .rp), (27, 16, .rp), (3, 0, .rp)]
  | .FLW_CNT_NO_ROUTE => [(31, 0, .rc)]
  | .FLW_CNT_TTL => [(31, 0, .rc)]
  | .FLW_CNT_MTU => [(31, 0, .rc)]
  | .FLW_CNT_ACL_DENY => [(31, 0, .rc)]
  | .FLW_CNT_MISS_DROP => [(31, 0, .rc)]
  | .FLW_CNT_LEARN_FAIL => [(31, 0, .rc)]
  | .FLW_CNT_NAT_EXHAUST => [(31, 0, .rc)]
  | .FLW_CNT_NAT_UNSUP => [(31, 0, .rc)]
  | .FLW_CNT_ESP_AUTH => [(31, 0, .rc)]
  | .FLW_CNT_ESP_REPLAY => [(31, 0, .rc)]
  | .FLW_CNT_ESP_NOSA => [(31, 0, .rc)]
  | .FLW_CNT_L2_MOVE => [(31, 0, .rc)]
  | .FLW_CNT_L2_LEARN_FAIL => [(31, 0, .rc)]
  | .FLW_CNT_EXP_DROP => [(31, 0, .rc)]
  | .FLW_CNT_SW_RX_DROP => [(31, 0, .rc)]
  | .FLW_CNT_BAD_DESC => [(31, 0, .rc)]
  | .ETH_CFG => [(31, 31, .rw), (30, 30, .rw), (29, 29, .rw), (28, 28, .rw), (13, 0, .rw)]
  | .ETH_MSEC_CFG => [(31, 31, .rw), (30, 30, .rw), (29, 29, .rw), (28, 27, .rw), (26, 25, .rw), (24, 23, .rw), (22, 22, .rw)]
  | .ETH_MSEC_WIN => [(31, 0, .rw)]
  | .ETH_CNT_RX_OK => [(31, 0, .rc)]
  | .ETH_CNT_RX_FCS => [(31, 0, .rc)]
  | .ETH_CNT_RX_RUNT => [(31, 0, .rc)]
  | .ETH_CNT_RX_OVERSIZE => [(31, 0, .rc)]
  | .ETH_CNT_TX_OK => [(31, 0, .rc)]
  | .ETH_CNT_TX_MTU => [(31, 0, .rc)]
  | .ETH_CNT_MSEC_AUTH => [(31, 0, .rc)]
  | .ETH_CNT_MSEC_REPLAY => [(31, 0, .rc)]
  | .ETH_CNT_MSEC_NOSA => [(31, 0, .rc)]
  | .ETH_CNT_MSEC_UNTAGGED => [(31, 0, .rc)]
  | .ETH_CNT_MSEC_PN_EXH => [(31, 0, .rc)]
  | .TMG_CFG => [(31, 31, .rw)]
  | .TMG_BUF_CFG => [(31, 16, .rw), (15, 0, .rw)]
  | .TMG_BUF_STAT => [(31, 0, .ro)]
  | .TMG_COLOR_MAP => [(31, 0, .rw)]
  | .TMG_PORT_CFG_W0 => [(31, 31, .rw), (30, 30, .ro), (29, 29, .ro), (23, 8, .rw), (7, 0, .rw)]
  | .TMG_PORT_CFG_W1 => [(13, 0, .rw)]
  | .TMG_TBL_SEL => [(31, 28, .rw), (19, 0, .rw)]
  | .TMG_TBL_CTL => [(3, 0, .wo)]
  | .TMG_TBL_STAT => [(31, 31, .ro), (27, 24, .ro), (7, 0, .ro)]
  | .TMG_TBL_WIN => [(31, 0, .rw)]
  | .TMG_GATE_CTL => [(31, 31, .rw), (30, 30, .ro), (27, 24, .ro), (16, 8, .rw), (3, 0, .wo)]
  | .TMG_GATE_CYCLE => [(29, 0, .rw)]
  | .TMG_GATE_BASE_NS => [(31, 0, .rw)]
  | .TMG_GATE_BASE_S_LO => [(31, 0, .rw)]
  | .TMG_GATE_BASE_S_HI => [(15, 0, .rw)]
  | .TMG_GATE_STAT => [(31, 31, .ro), (30, 28, .ro), (23, 16, .ro), (8, 0, .ro)]
  | .TMG_CNT_ENQ => [(31, 0, .rc)]
  | .TMG_CNT_METER_DROP => [(31, 0, .rc)]
  | .TMG_CNT_Q_DROP => [(31, 0, .rc)]
  | .TMG_CNT_BUF_DROP => [(31, 0, .rc)]
  | .TMG_CNT_NO_SUB => [(31, 0, .rc)]
  | .TMG_CNT_LINK_DROP => [(31, 0, .rc)]
  | .TMG_CNT_FLUSH => [(31, 0, .rc)]
  | .TMG_CNT_GATE_OVERSIZE => [(31, 0, .rc)]
  | .NTU_CFG => [(31, 31, .rw), (23, 16, .rw), (15, 8, .rw), (7, 0, .rw)]
  | .NTU_HOLD_CFG => [(31, 16, .rw), (15, 8, .rw)]
  | .NTU_STATUS => [(31, 30, .ro), (29, 29, .ro), (28, 28, .ro), (27, 27, .w1c), (26, 26, .ro), (25, 25, .ro), (24, 24, .ro)]
  | .NTU_UNC => [(31, 0, .ro)]
  | .NTU_TIME_NS => [(29, 0, .ro)]
  | .NTU_TIME_S_LO => [(31, 0, .ro)]
  | .NTU_TIME_S_HI => [(15, 0, .ro)]
  | .NTU_RAW_LO => [(31, 0, .ro)]
  | .NTU_RAW_HI => [(31, 0, .ro)]
  | .NTU_STAMP => [(31, 0, .ro)]
  | .NTU_TIME_RATE_LO => [(31, 0, .rw)]
  | .NTU_TIME_RATE_HI => [(7, 0, .rw)]
  | .NTU_STEP_NS => [(31, 0, .rw)]
  | .NTU_SET_NS => [(29, 0, .rw)]
  | .NTU_SET_S_LO => [(31, 0, .rw)]
  | .NTU_SET_S_HI => [(15, 0, .rw)]
  | .NTU_TIME_CTL => [(15, 8, .wo), (3, 0, .wo)]
  | .NTU_TIME_STAT => [(31, 31, .ro), (27, 24, .ro)]
  | .NTU_LOCK_UNC => [(31, 0, .rw)]
  | .NTU_OP8_INCR => [(31, 0, .rw)]
  | .NTU_SLP_RATIO => [(31, 0, .ro)]
  | .NTU_CNT_STEP_REFUSED => [(31, 0, .rc)]
  | .NTU_CNT_SERVO_TO => [(31, 0, .rc)]
  | .NTU_CNT_TXTS_DROP => [(31, 0, .rc)]
  | .NTU_PTP_CFG => [(31, 31, .rw), (30, 30, .rw)]
  | .NTU_TXTS_POP => [(31, 31, .rp), (30, 26, .rp), (19, 16, .rp), (15, 0, .rp)]
  | .NTU_TXTS_VAL => [(31, 0, .ro)]
  | .NTU_PPS_CFG => [(31, 31, .rw), (30, 30, .rw), (23, 16, .rw), (15, 0, .rw)]
  | .NTU_PPS_IN_TS => [(31, 0, .ro)]
  | .NTU_CAP_STAT => [(31, 31, .ro), (30, 30, .ro), (15, 8, .ro), (7, 0, .ro)]
  | .NTU_TSYNC_TS => [(31, 0, .ro)]
  | .NTU_TSYNC_CFG => [(31, 31, .rw), (30, 30, .rw), (29, 28, .rw), (15, 0, .rw)]
  | .NTU_TSYNC_START => [(31, 0, .rw)]
  | .NTU_TSYNC_PERIOD => [(31, 0, .rw)]
  | .NTU_SYNCE_CFG => [(31, 31, .rw), (30, 30, .rw), (26, 24, .rw)]
  | .NTU_SYNCE_STAT => [(31, 30, .ro)]
  | .NTU_PTM_CTL => [(3, 0, .wo)]
  | .NTU_PTM_STAT => [(31, 31, .ro), (27, 24, .ro)]
  | .NTU_PTM_T1 => [(31, 0, .ro)]
  | .NTU_PTM_T4 => [(31, 0, .ro)]
  | .NTU_PTM_MT_LO => [(31, 0, .ro)]
  | .NTU_PTM_MT_HI => [(31, 0, .ro)]
  | .NTU_PTM_DELAY => [(31, 0, .ro)]
  | .APC_CORE_CTL => [(31, 31, .rw)]
  | .APC_CORE_START_LO => [(31, 0, .rw)]
  | .APC_CORE_START_HI => [(7, 0, .rw)]
  | .APC_CORE_STAT => [(31, 28, .ro), (15, 0, .ro)]
  | .APC_CFG => [(2, 0, .rw)]
  | .RGC_CORE_CTL => [(31, 31, .rw)]
  | .RGC_CORE_STAT => [(31, 28, .ro), (15, 0, .ro)]
  | .RGC_CORE_DWIN => [(6, 0, .rw)]
  | .TLY_ENQ_W => [(31, 0, .wo)]
  | .TLY_ENQ_DUE => [(31, 0, .wo)]
  | .TLY_ENQ_GO => [(5, 4, .wo), (3, 0, .wo)]
  | .TLY_ENQ_STAT => [(31, 31, .ro), (27, 24, .ro), (15, 0, .ro)]
  | .TLY_DLY_CANCEL => [(14, 0, .wo)]
  | .TLY_PICK => [(31, 31, .rp), (29, 16, .rp), (3, 0, .rp)]
  | .TLY_CUR_W => [(31, 0, .ro)]
  | .TLY_DONE_RES => [(31, 0, .wo)]
  | .TLY_DONE => [(31, 30, .wo), (13, 0, .wo)]
  | .TLY_ROD_STAT => [(31, 30, .ro), (29, 15, .ro), (14, 0, .ro)]
  | .TLY_CORE_RODS => [(15, 0, .rw)]
  | .TLY_DLY_CFG => [(29, 16, .ro), (13, 0, .rw)]
  | .TLY_REL_POP => [(31, 31, .rp), (30, 28, .rp), (27, 16, .rp), (15, 0, .rp)]
  | .TLY_REL_RES => [(31, 0, .ro)]
  | .TLY_REL_PEND => [(15, 0, .ro)]
  | .TLY_CNT_FULL => [(31, 0, .rc)]
  | .TLY_CNT_FENCED => [(31, 0, .rc)]
  | .TLY_CNT_DLY_LATE => [(31, 0, .rc)]
  | .EVT_CLAIM => [(31, 31, .rp), (23, 16, .rp), (7, 0, .rp)]
  | .EVT_CLAIM_TS => [(31, 0, .ro)]
  | .EVT_HCLAIM => [(31, 31, .rp), (23, 16, .rp), (7, 0, .rp)]
  | .EVT_CLR => [(7, 0, .wo)]
  | .EVT_MASK => [(31, 0, .rw)]
  | .EVT_EVTOUT_CFG => [(7, 4, .rw), (3, 0, .rw)]
  | .EVT_PEND_SEL => [(7, 0, .rw)]
  | .EVT_PEND => [(15, 8, .ro), (7, 0, .ro)]
  | .RKN_CTL => [(31, 31, .rw), (3, 0, .wo)]
  | .RKN_STAT => [(31, 31, .ro), (30, 28, .ro), (27, 24, .ro), (23, 23, .w1c), (13, 0, .ro)]
  | .RKN_PC => [(14, 0, .rw)]
  | .RKN_CNT_SAT => [(31, 0, .rc)]
  | .RKN_CNT_CYC => [(31, 0, .rc)]
  | .RKN_S => [(31, 0, .rw)]
  | .RKN_ACC_LO => [(31, 0, .ro)]
  | .RKN_ACC_HI => [(31, 31, .ro), (23, 0, .ro)]
  | .SRM_CFG => [(31, 31, .rw), (7, 0, .rw)]
  | .SRM_STAT => [(31, 31, .ro), (21, 16, .ro)]
  | .SRM_USE => [(31, 0, .ro)]
  | .SRM_RET_LO => [(31, 0, .ro)]
  | .SRM_RET_HI => [(31, 0, .ro)]
  | .SRM_ECC_ADDR => [(31, 31, .w1c), (23, 22, .ro), (21, 0, .ro)]
  | .SRM_CNT_CORR => [(31, 0, .rc)]
  | .SRM_CNT_UNCORR => [(31, 0, .rc)]
  | .PBF_CFG => [(15, 0, .rw)]
  | .PBF_STAT => [(31, 16, .ro), (15, 0, .ro)]
  | .PBF_CNT_SPILL_CAP => [(31, 0, .rc)]
  | .DMC_STAT => [(31, 31, .ro), (30, 30, .ro), (29, 29, .ro), (28, 27, .ro), (15, 0, .ro)]
  | .DMC_CFG => [(7, 0, .rw)]
  | .DMC_ACT_CFG => [(31, 24, .rw), (23, 16, .rw), (15, 0, .rw)]
  | .DMC_RT_CFG => [(15, 8, .rw), (7, 0, .rw)]
  | .DMC_DIST_STAT => [(31, 31, .ro), (30, 30, .ro), (23, 16, .ro), (5, 5, .ro), (4, 0, .ro)]
  | .DMC_ECC_ADDR => [(31, 31, .w1c), (27, 0, .ro)]
  | .DMC_CNT_CORR => [(31, 0, .rc)]
  | .DMC_CNT_UNCORR => [(31, 0, .rc)]
  | .DMC_CNT_PANIC => [(31, 0, .rc)]
  | .DMC_CNT_RT_LATE => [(31, 0, .rc)]
  | .DMC_CNT_INORDER => [(31, 0, .rc)]
  | .DMC_CNT_THROT => [(31, 0, .rc)]
  | .DMC_CNT_TREF => [(31, 0, .rc)]
  | .IDN_DEVICE_ID_LO => [(31, 0, .ro)]
  | .IDN_DEVICE_ID_HI => [(31, 0, .ro)]
  | .IDN_REV => [(31, 16, .ro), (15, 0, .ro)]
  | .IDN_LIFECYCLE => [(27, 24, .ro), (23, 16, .ro), (9, 9, .ro), (8, 8, .ro), (7, 7, .ro), (6, 4, .ro), (2, 0, .ro)]
  | .IDN_NONCE_LO => [(31, 0, .ro)]
  | .IDN_NONCE_HI => [(31, 0, .ro)]
  | .IDN_TAMPER_CFG => [(15, 8, .ro), (3, 2, .ro), (1, 0, .ro)]
  | .KLN_MB_REQ => [(31, 0, .wo)]
  | .KLN_MB_GO => [(3, 0, .wo)]
  | .KLN_MB_STAT => [(31, 31, .ro), (30, 28, .ro), (27, 24, .ro), (23, 23, .ro), (16, 0, .ro)]
  | .KLN_STAT => [(31, 31, .ro), (4, 0, .ro)]
  | .CIP_SLOT_KEY => [(31, 0, .wo)]
  | .CIP_SLOT_CTL => [(31, 28, .wo), (16, 16, .wo), (12, 0, .wo)]
  | .CIP_SLOT_STAT => [(31, 31, .ro), (27, 24, .ro), (12, 0, .ro)]
  | .CIP_ATTR_SEL => [(12, 0, .rw)]
  | .CIP_ATTR => [(31, 31, .ro), (30, 30, .ro), (15, 8, .ro)]
  | .CIP_JOB_BASE => [(31, 0, .rw)]
  | .CIP_JOB_CFG => [(31, 31, .rw), (3, 0, .rw)]
  | .CIP_JOB_TAIL => [(11, 0, .wo)]
  | .CIP_JOB_HEAD => [(11, 0, .ro)]
  | .CIP_CPL_POP => [(31, 31, .rp), (27, 16, .rp), (3, 0, .rp)]
  | .CIP_CPL_INFO => [(31, 0, .ro)]
  | .CIP_CNT_JOBS => [(31, 0, .rc)]
  | .CIP_CNT_AUTH_FAIL => [(31, 0, .rc)]
  | .CIP_CNT_POLICY => [(31, 0, .rc)]
  | .CIP_CNT_BAD_DESC => [(31, 0, .rc)]
  | .AO_SLEEP_CTL => [(3, 0, .wo)]
  | .AO_SLEEP_CFG => [(15, 8, .rw), (7, 0, .rw)]
  | .AO_SLEEP_STAT => [(31, 31, .ro), (30, 28, .ro), (27, 24, .ro), (23, 20, .ro)]
  | .AO_SLEEP_REC => [(31, 24, .ro), (22, 20, .ro), (15, 8, .ro), (3, 0, .ro)]
  | .AO_WAKE_REC0 => [(31, 28, .ro), (27, 26, .ro), (23, 16, .ro), (15, 0, .ro)]
  | .AO_WAKE_REC1 => [(31, 0, .ro)]
  | .AO_WAKE_REC2 => [(29, 0, .ro)]
  | .AO_WAKE_REC3 => [(31, 26, .ro)]
  | .AO_WAKE_FAIL => [(31, 31, .ro), (26, 24, .ro), (1, 0, .ro)]
  | .AO_VF_CTL => [(31, 28, .wo), (20, 16, .wo), (2, 0, .wo)]
  | .AO_ISL_CTL => [(30, 28, .wo), (27, 20, .wo), (19, 16, .wo), (11, 0, .wo)]
  | .AO_VF_STAT => [(31, 31, .ro), (30, 28, .ro), (27, 24, .ro)]
  | .AO_RAIL_STAT => [(31, 31, .ro), (30, 30, .ro), (29, 29, .w1c), (26, 24, .ro), (11, 0, .ro)]
  | .WAK_EN => [(23, 8, .rw), (6, 0, .rw)]
  | .WAK_GPIO => [(15, 8, .rw), (7, 4, .rw), (3, 0, .rw)]
  | .WAK_WRX => [(15, 8, .rw), (5, 0, .rw)]
  | .WAK_WRX_ID => [(15, 15, .rw), (11, 0, .rw)]
  | .WAK_TIMER => [(31, 0, .rw)]
  | .RGC_ERR_ADDR_LO => [(31, 0, .ro)]
  | .RGC_ERR_ADDR_HI => [(7, 0, .ro)]
  | .RGC_ERR_INFO => [(31, 31, .w1c), (30, 30, .ro), (29, 28, .ro), (27, 24, .ro), (23, 16, .ro), (15, 8, .ro), (7, 0, .ro)]
  | .RGC_ERR_TIME => [(31, 0, .ro)]
  | .RGC_HANG_CFG => [(23, 16, .rw), (15, 0, .rw)]
  | .ASH_STAT => [(31, 31, .ro), (30, 28, .ro), (27, 20, .ro), (19, 12, .ro), (11, 11, .ro), (10, 0, .ro)]
  | .ASH_SEQ => [(31, 0, .ro)]
  | .ASH_DROPS => [(31, 0, .ro)]
  | .ASH_CFG => [(23, 16, .rw), (15, 8, .rw), (7, 0, .rw)]
  | .ASH_CTL => [(6, 4, .wo), (3, 0, .wo)]
  | .ASH_SEL => [(17, 16, .rw), (14, 12, .rw), (10, 0, .rw)]
  | .ASH_WIN => [(31, 0, .ro)]
  | .AO_AGE_STAT => [(31, 31, .ro), (30, 30, .ro), (15, 0, .ro)]
  | .SDS_LANE_STAT => [(31, 31, .ro), (30, 30, .ro), (29, 28, .ro), (27, 24, .ro), (7, 0, .ro)]
  | .SDS_PORT_STAT => [(31, 31, .ro), (30, 30, .ro), (29, 28, .ro), (27, 24, .ro), (23, 16, .ro)]
  | .SDS_CNT_FEC_CORR => [(31, 0, .rc)]
  | .SDS_CNT_FEC_UNCORR => [(31, 0, .rc)]
  | .SDS_CNT_LINK_DOWN => [(31, 0, .rc)]
  | .HL_STAT => [(31, 31, .ro), (30, 30, .ro), (29, 29, .ro), (28, 26, .ro), (25, 23, .ro), (11, 8, .ro)]
  | .HL_WIN_W0 => [(27, 0, .rw)]
  | .HL_WIN_W1 => [(23, 0, .rw)]
  | .HL_WIN_W2 => [(31, 31, .rw), (5, 0, .rw)]
  | .HL_FN_ERR => [(31, 31, .w1c), (30, 29, .ro), (27, 24, .ro), (7, 0, .ro)]
  | .SMB_STAT => [(31, 31, .ro), (30, 30, .ro)]
  | .SMB_CNT_TIMEOUT => [(31, 0, .rc)]
  | .SMB_CNT_PEC => [(31, 0, .rc)]
  | .SMB_CNT_BAD => [(31, 0, .rc)]
  | .XIO_SPI_CTL => [(31, 28, .wo), (16, 0, .wo)]
  | .XIO_SPI_ADDR => [(31, 0, .rw)]
  | .XIO_SPI_SYS => [(31, 0, .rw)]
  | .XIO_SPI_STAT => [(31, 31, .ro), (30, 28, .ro), (27, 27, .ro)]
  | .XIO_GPIO_OUT => [(31, 0, .rw)]
  | .XIO_GPIO_OE => [(31, 0, .rw)]
  | .XIO_GPIO_IN => [(31, 0, .ro)]
  | .XIO_GPIO_PULL => [(31, 0, .rw)]
  | .XIO_GPIO_IRQ => [(31, 0, .rw)]
  | .XIO_GPIO_EDGE => [(31, 0, .w1c)]
  | .AO_WAKE_TICKS => [(31, 0, .ro)]
  | .CAL_WIN => [(31, 0, .rw)]
  | .DPD_SHADOW => [(31, 0, .rw)]
  | .IDN_LOCK => [(31, 0, .ro)]

/-- A number is one of a list. -/
def oneOf (k : Nat) (l : List Nat) : Bool := l.any (Nat.beq k)

/-- The registers that have an instance in a block: the key is region times 256 plus block, address bits [26:16]. -/
def Reg.inBlock (k : Nat) : List Reg :=
  if oneOf k [0, 0x100, 0x200, 0x300, 0x400] then
    [.RGC_QOS_WGT, .RGC_EARLY_READ, .RGC_FENCE_CAUSE, .RGC_EBUF_LAT, .RGC_EBUF_SLIP,
     .RGC_CORE_CTL, .RGC_CORE_STAT, .RGC_CORE_DWIN, .RGC_ERR_ADDR_LO, .RGC_ERR_ADDR_HI,
     .RGC_ERR_INFO, .RGC_ERR_TIME, .RGC_HANG_CFG]
  else if oneOf k [1, 2, 0x101, 0x102, 0x201, 0x202, 0x301, 0x302] then
    [.PATH_CTL, .PATH_STAT]
  else if oneOf k [3, 0x103, 0x203, 0x303] then
    [.SYN_STAT, .SYN_FINE]
  else if oneOf k [4, 0x104, 0x204, 0x304] then
    [.ORX_CFG, .ORX_CPL, .ORX_RING_BASE, .ORX_CAP_POP, .ORX_SLOT_FREE,
     .ORX_CNT_VISIT, .ORX_CNT_STALL, .ORX_CNT_ABANDON]
  else if oneOf k [5, 0x105, 0x205, 0x305] then
    [.DFE_ROUTE_STAT, .DFE_TXF_COEF, .DFE_MASK, .DFE_TXF_CTL, .DFE_TXF_STAT,
     .DFE_CFR_CFG, .DFE_CNT_CFR]
  else if oneOf k [6, 0x106, 0x206, 0x306] then
    [.BEAM_TBL_BASE, .BEAM_CFG, .BEAM_COMMIT, .BEAM_STAT, .BEAM_CNT_MISS,
     .BEAM_CNT_BADREC, .BEAM_CNT_NORM]
  else if oneOf k [7, 0x107, 0x207, 0x307] then
    [.DPD_CTL, .DPD_COMMIT, .DPD_STAT, .DPD_CNT_SAT, .DPD_CNT_REVERT,
     .DPD_SHADOW]
  else if oneOf k [8, 0x108, 0x208, 0x308] then
    [.FEN_PROT_CFG, .FEN_RFFE_CMD, .FEN_RFFE_RSP, .FEN_RFFE_CFG, .FEN_RFFE_POLL,
     .FEN_FAST_TIM, .FEN_BIAS, .FEN_COEX_CFG, .FEN_CNT_DELAYED, .FEN_CNT_LATE,
     .FEN_CNT_LOCK_LOST, .FEN_CNT_GUARD_CLAMP, .FEN_CNT_GUARD_BLOCK, .FEN_CNT_COEX_PREEMPT, .FEN_CNT_RFFE_NOACK,
     .FEN_CNT_PATH_FAULT]
  else if oneOf k [9, 0x109, 0x209, 0x309] then
    [.CAL_CTL, .CAL_CFG, .CAL_STAT, .CAL_TEMP, .CAL_QW,
     .CAL_QW_INFO, .CAL_REJ, .CAL_CNT_RUN, .CAL_CNT_REJECT, .CAL_CNT_FORCED,
     .CAL_CNT_REBOOK, .CAL_WIN_SEL, .CAL_COMMIT, .CAL_RED, .CAL_XP_CTL,
     .CAL_XP_ADDR, .CAL_XP_STAT, .CAL_WIN]
  else if oneOf k [0x401, 0x402, 0x403] then
    [.PHY_LINK_STAT, .PHY_CFG, .PHY_MAX_PSDU, .PHY_PUNCT, .PHY_CCA_CFG,
     .PHY_CCA_STAT, .PHY_DSSS_CFG, .PHY_RX_PPDU, .PHY_FALSE_START, .PHY_CAPTURE_LOST,
     .PHY_OVERSIZE, .PHY_UNSUPPORTED, .PHY_HDR_FAIL, .PHY_RX_ABORT, .PHY_TX_PPDU,
     .PHY_TX_NOSTART, .PHY_DFS_CFG, .PHY_DFS_CTL, .PHY_DFS_MAP, .PHY_DFS_POP,
     .PHY_DFS_STAMP, .PHY_DFS_QDROP, .PHY_DFS_PAT_W0, .PHY_DFS_PAT_W1]
  else if oneOf k [0x404] then
    [.LDPC_CFG, .LDPC_STAT, .LDPC_CNT_DROP, .LDPC_CNT_FAIL]
  else if oneOf k [0x405] then
    [.SND_CFG, .SND_RING_BASE, .SND_RING_SIZE, .SND_EST_POP, .SND_SLOT_FREE,
     .SND_CNT_DROP]
  else if oneOf k [0x406] then
    [.TXA_CFG, .TXA_DET_CFG, .TXA_SYNC, .TXA_KEY, .TXA_DL_CFG,
     .TXA_DL2_CFG, .TXA_FB_CFG, .TXA_FB_STAT, .TXA_CH_CFG_W0, .TXA_CH_CFG_W1,
     .TXA_CH_STAT, .TXA_RX_BASE, .TXA_RX_CFG, .TXA_RX_TAIL, .TXA_RX_HEAD,
     .TXA_DL_PUSH, .TXA_DL_CPL_POP, .TXA_DL_CPL_INFO, .TXA_CTR_SEL, .TXA_CTR_DATA,
     .TXA_CNT_RX_OK, .TXA_CNT_FALSE_DET, .TXA_CNT_HDR_FAIL, .TXA_CNT_CAPTURE_LOST, .TXA_CNT_OVERSIZE,
     .TXA_CNT_CRC_FAIL, .TXA_CNT_NETID, .TXA_CNT_MIC_FAIL, .TXA_CNT_REPLAY, .TXA_CNT_DUP_ACKED,
     .TXA_CNT_RX_DROP, .TXA_CNT_RX_ABORT, .TXA_CNT_DL_SENT, .TXA_CNT_DL_FAIL, .TXA_CNT_RESTACK_DISC,
     .TXA_CNT_FB_FORCED]
  else if oneOf k [0x407] then
    [.FHU_CFG, .FHU_FRAME_OFF, .FHU_TIME_CFG, .FHU_WIN_UP, .FHU_WIN_CPDL,
     .FHU_WIN_CPUL, .FHU_MAX_FRAME, .FHU_MAC_LO, .FHU_MAC_HI, .FHU_BUF_BASE,
     .FHU_BUF_CFG, .FHU_STAT, .FHU_CAR_CFG, .FHU_CAR_DYN, .FHU_GAP_W0,
     .FHU_GAP_W1, .FHU_EAXC_W0, .FHU_EAXC_W1, .FHU_RET_POP, .FHU_RET_INFO,
     .FHU_RET_FREE, .FHU_CNT_ON_TIME, .FHU_CNT_EARLY, .FHU_CNT_LATE, .FHU_CNT_CP_EARLY,
     .FHU_CNT_CP_LATE, .FHU_CNT_MALFORMED, .FHU_CNT_UNSUPPORTED, .FHU_CNT_UNKNOWN, .FHU_CNT_SEQ_ERR,
     .FHU_CNT_DUP, .FHU_CNT_OVERSIZE, .FHU_CNT_NO_CPLANE, .FHU_CNT_BUF_FULL, .FHU_CNT_CONFLICT,
     .FHU_CNT_BAD_BEAM, .FHU_CNT_W_SAT, .FHU_CNT_TX_LOST, .FHU_CNT_TX_TRUNC, .FHU_CNT_RESTACK_DISC,
     .FHU_CNT_NO_TIME, .FHU_CNT_RET_DROP, .FHU_CNT_UL_TX]
  else if oneOf k [0x408] then
    [.RKN_CTL, .RKN_STAT, .RKN_PC, .RKN_CNT_SAT, .RKN_CNT_CYC,
     .RKN_S, .RKN_ACC_LO, .RKN_ACC_HI]
  else if oneOf k [0x500] then
    [.RGC_QOS_WGT, .RGC_EARLY_READ, .RGC_FENCE_CAUSE, .RGC_CORE_CTL, .RGC_CORE_STAT,
     .RGC_CORE_DWIN, .RGC_ERR_ADDR_LO, .RGC_ERR_ADDR_HI, .RGC_ERR_INFO, .RGC_ERR_TIME,
     .RGC_HANG_CFG]
  else if oneOf k [0x501] then
    [.WAC_LINK_CFG, .WAC_MLD_ADDR_LO, .WAC_MLD_ADDR_HI, .WAC_EDCA, .WAC_SCHED_CFG,
     .WAC_TWT_CFG, .WAC_BA_CFG, .WAC_Q_CFG, .WAC_LINK_STAT, .WAC_TBL_SEL,
     .WAC_TBL_CTL, .WAC_TBL_STAT, .WAC_TBL_WIN, .WAC_MTX_BASE, .WAC_MTX_CFG,
     .WAC_MTX_TAIL, .WAC_MTX_HEAD, .WAC_MTX_CPL_POP, .WAC_MRX_BASE, .WAC_MRX_CFG,
     .WAC_MRX_TAIL, .WAC_MRX_HEAD, .WAC_MRX_FREE, .WAC_BSR_POP, .WAC_AFC_ADDR,
     .WAC_AFC_CTL, .WAC_AFC_STAT, .WAC_AFC_SERIAL, .WAC_CNT_DUP, .WAC_CNT_OLD,
     .WAC_CNT_REPLAY, .WAC_CNT_MIC_FAIL, .WAC_CNT_REORDER_TO, .WAC_CNT_RETRY_DROP, .WAC_CNT_LIFETIME,
     .WAC_CNT_TWT_MISS, .WAC_CNT_TWT_TEARDOWN, .WAC_CNT_UNAUTH, .WAC_CNT_NOSTA, .WAC_CNT_TX_OVERSIZE,
     .WAC_CNT_MRX_DROP, .WAC_CNT_QW_UNCOVERED, .WAC_CNT_BCN_DROP, .WAC_CNT_REFUSED]
  else if oneOf k [0x502] then
    [.PRS_PORT_CFG_W0, .PRS_PORT_CFG_W1, .PRS_MAL_ACT, .PRS_STAT, .PRS_ING_CFG,
     .PRS_CNT_MAL, .PRS_CNT_PASS, .PRS_CNT_RECIRC, .PRS_CNT_ING_DROP]
  else if oneOf k [0x503] then
    [.FLW_CFG, .FLW_RMAC_LO, .FLW_RMAC_HI, .FLW_FT_BASE, .FLW_AGE_CFG,
     .FLW_AGE_CFG2, .FLW_VER_CTL, .FLW_VER_STAT, .FLW_VER_GEN, .FLW_VER_FAIL,
     .FLW_MISS_STAT, .FLW_SW_PEND, .FLW_EXP_BASE, .FLW_EXP_CFG, .FLW_EXP_TAIL,
     .FLW_EXP_HEAD, .FLW_TBL_SEL, .FLW_TBL_CTL, .FLW_TBL_STAT, .FLW_TBL_WIN,
     .FLW_SW_RX_BASE, .FLW_SW_RX_CFG, .FLW_SW_RX_TAIL, .FLW_SW_RX_HEAD, .FLW_SW_RX_FREE,
     .FLW_SW_TX_BASE, .FLW_SW_TX_CFG, .FLW_SW_TX_TAIL, .FLW_SW_TX_HEAD, .FLW_SW_TX_CPL_POP,
     .FLW_CNT_NO_ROUTE, .FLW_CNT_TTL, .FLW_CNT_MTU, .FLW_CNT_ACL_DENY, .FLW_CNT_MISS_DROP,
     .FLW_CNT_LEARN_FAIL, .FLW_CNT_NAT_EXHAUST, .FLW_CNT_NAT_UNSUP, .FLW_CNT_ESP_AUTH, .FLW_CNT_ESP_REPLAY,
     .FLW_CNT_ESP_NOSA, .FLW_CNT_L2_MOVE, .FLW_CNT_L2_LEARN_FAIL, .FLW_CNT_EXP_DROP, .FLW_CNT_SW_RX_DROP,
     .FLW_CNT_BAD_DESC]
  else if oneOf k [0x504] then
    [.TMG_CFG, .TMG_BUF_CFG, .TMG_BUF_STAT, .TMG_COLOR_MAP, .TMG_PORT_CFG_W0,
     .TMG_PORT_CFG_W1, .TMG_TBL_SEL, .TMG_TBL_CTL, .TMG_TBL_STAT, .TMG_TBL_WIN,
     .TMG_GATE_CTL, .TMG_GATE_CYCLE, .TMG_GATE_BASE_NS, .TMG_GATE_BASE_S_LO, .TMG_GATE_BASE_S_HI,
     .TMG_GATE_STAT, .TMG_CNT_ENQ, .TMG_CNT_METER_DROP, .TMG_CNT_Q_DROP, .TMG_CNT_BUF_DROP,
     .TMG_CNT_NO_SUB, .TMG_CNT_LINK_DROP, .TMG_CNT_FLUSH, .TMG_CNT_GATE_OVERSIZE]
  else if oneOf k [0x505] then
    [.PBF_CFG, .PBF_STAT, .PBF_CNT_SPILL_CAP]
  else if oneOf k [0x506] then
    [.CIP_SLOT_KEY, .CIP_SLOT_CTL, .CIP_SLOT_STAT, .CIP_ATTR_SEL, .CIP_ATTR,
     .CIP_JOB_BASE, .CIP_JOB_CFG, .CIP_JOB_TAIL, .CIP_JOB_HEAD, .CIP_CPL_POP,
     .CIP_CPL_INFO, .CIP_CNT_JOBS, .CIP_CNT_AUTH_FAIL, .CIP_CNT_POLICY, .CIP_CNT_BAD_DESC]
  else if oneOf k [0x507] then
    [.ETH_CFG, .ETH_MSEC_CFG, .ETH_MSEC_WIN, .ETH_CNT_RX_OK, .ETH_CNT_RX_FCS,
     .ETH_CNT_RX_RUNT, .ETH_CNT_RX_OVERSIZE, .ETH_CNT_TX_OK, .ETH_CNT_TX_MTU, .ETH_CNT_MSEC_AUTH,
     .ETH_CNT_MSEC_REPLAY, .ETH_CNT_MSEC_NOSA, .ETH_CNT_MSEC_UNTAGGED, .ETH_CNT_MSEC_PN_EXH]
  else if oneOf k [0x600] then
    [.RGC_QOS_WGT, .RGC_EARLY_READ, .RGC_FENCE_CAUSE, .RGC_RESTACK_CTL, .RGC_RESTACK_TIME,
     .RGC_RESTACK_STAT, .RGC_STACK_CUR, .RGC_ASYNC_CFG, .RGC_ERR_ADDR_LO, .RGC_ERR_ADDR_HI,
     .RGC_ERR_INFO, .RGC_ERR_TIME, .RGC_HANG_CFG]
  else if oneOf k [0x601] then
    [.APC_CORE_CTL, .APC_CORE_START_LO, .APC_CORE_START_HI, .APC_CORE_STAT, .APC_CFG]
  else if oneOf k [0x602] then
    [.TLY_ENQ_W, .TLY_ENQ_DUE, .TLY_ENQ_GO, .TLY_ENQ_STAT, .TLY_DLY_CANCEL,
     .TLY_PICK, .TLY_CUR_W, .TLY_DONE_RES, .TLY_DONE, .TLY_ROD_STAT,
     .TLY_CORE_RODS, .TLY_DLY_CFG, .TLY_REL_POP, .TLY_REL_RES, .TLY_REL_PEND,
     .TLY_CNT_FULL, .TLY_CNT_FENCED, .TLY_CNT_DLY_LATE]
  else if oneOf k [0x603] then
    [.EVT_CLAIM, .EVT_CLAIM_TS, .EVT_HCLAIM, .EVT_CLR, .EVT_MASK,
     .EVT_EVTOUT_CFG, .EVT_PEND_SEL, .EVT_PEND]
  else if oneOf k [0x604] then
    [.SRM_CFG, .SRM_STAT, .SRM_USE, .SRM_RET_LO, .SRM_RET_HI,
     .SRM_ECC_ADDR, .SRM_CNT_CORR, .SRM_CNT_UNCORR]
  else if oneOf k [0x605, 0x606] then
    [.DMC_STAT, .DMC_CFG, .DMC_ACT_CFG, .DMC_RT_CFG, .DMC_DIST_STAT,
     .DMC_ECC_ADDR, .DMC_CNT_CORR, .DMC_CNT_UNCORR, .DMC_CNT_PANIC, .DMC_CNT_RT_LATE,
     .DMC_CNT_INORDER, .DMC_CNT_THROT, .DMC_CNT_TREF]
  else if oneOf k [0x607] then
    [.HL_STAT, .HL_WIN_W0, .HL_WIN_W1, .HL_WIN_W2, .HL_FN_ERR]
  else if oneOf k [0x608] then
    [.SDS_LANE_STAT, .SDS_PORT_STAT, .SDS_CNT_FEC_CORR, .SDS_CNT_FEC_UNCORR, .SDS_CNT_LINK_DOWN]
  else if oneOf k [0x609] then
    [.KLN_MB_REQ, .KLN_MB_GO, .KLN_MB_STAT, .KLN_STAT]
  else if oneOf k [0x60A] then
    [.XIO_SPI_CTL, .XIO_SPI_ADDR, .XIO_SPI_SYS, .XIO_SPI_STAT, .XIO_GPIO_OUT,
     .XIO_GPIO_OE, .XIO_GPIO_IN, .XIO_GPIO_PULL, .XIO_GPIO_IRQ, .XIO_GPIO_EDGE]
  else if oneOf k [0x60B] then
    [.NTU_CFG, .NTU_HOLD_CFG, .NTU_STATUS, .NTU_UNC, .NTU_TIME_NS,
     .NTU_TIME_S_LO, .NTU_TIME_S_HI, .NTU_RAW_LO, .NTU_RAW_HI, .NTU_STAMP,
     .NTU_TIME_RATE_LO, .NTU_TIME_RATE_HI, .NTU_STEP_NS, .NTU_SET_NS, .NTU_SET_S_LO,
     .NTU_SET_S_HI, .NTU_TIME_CTL, .NTU_TIME_STAT, .NTU_LOCK_UNC, .NTU_OP8_INCR,
     .NTU_SLP_RATIO, .NTU_CNT_STEP_REFUSED, .NTU_CNT_SERVO_TO, .NTU_CNT_TXTS_DROP, .NTU_PTP_CFG,
     .NTU_TXTS_POP, .NTU_TXTS_VAL, .NTU_PPS_CFG, .NTU_PPS_IN_TS, .NTU_CAP_STAT,
     .NTU_TSYNC_TS, .NTU_TSYNC_CFG, .NTU_TSYNC_START, .NTU_TSYNC_PERIOD, .NTU_SYNCE_CFG,
     .NTU_SYNCE_STAT, .NTU_PTM_CTL, .NTU_PTM_STAT, .NTU_PTM_T1, .NTU_PTM_T4,
     .NTU_PTM_MT_LO, .NTU_PTM_MT_HI, .NTU_PTM_DELAY]
  else if oneOf k [0x700] then
    [.RGC_QOS_WGT, .RGC_EARLY_READ, .RGC_FENCE_CAUSE, .AO_STATUS, .AO_PUSH_CTL,
     .AO_PUSH_DATA, .AO_PUSH_STAT, .AO_BOOT_INFO, .AO_IMAGE_SERIAL, .AO_SERIAL_FLOOR,
     .AO_SLEEP_CTL, .AO_SLEEP_CFG, .AO_SLEEP_STAT, .AO_SLEEP_REC, .AO_WAKE_REC0,
     .AO_WAKE_REC1, .AO_WAKE_REC2, .AO_WAKE_REC3, .AO_WAKE_FAIL, .AO_VF_CTL,
     .AO_ISL_CTL, .AO_VF_STAT, .RGC_ERR_ADDR_LO, .RGC_ERR_ADDR_HI, .RGC_ERR_INFO,
     .RGC_ERR_TIME, .RGC_HANG_CFG, .ASH_STAT, .ASH_SEQ, .ASH_DROPS,
     .ASH_CFG, .ASH_CTL, .ASH_SEL, .ASH_WIN, .AO_AGE_STAT,
     .AO_WAKE_TICKS]
  else if oneOf k [0x701] then
    [.AO_RAIL_STAT]
  else if oneOf k [0x702] then
    [.HKA_CFG, .HKA_POP, .HKA_QLEVEL, .HKA_CHK_STAT, .HKA_CH,
     .HKA_VAL, .HKA_CNT_QDROP, .HKA_CNT_PLAUS]
  else if oneOf k [0x704] then
    [.WAK_EN, .WAK_GPIO, .WAK_WRX, .WAK_WRX_ID, .WAK_TIMER,
     .SMB_STAT, .SMB_CNT_TIMEOUT, .SMB_CNT_PEC, .SMB_CNT_BAD]
  else if oneOf k [0x705] then
    [.IDN_DEVICE_ID_LO, .IDN_DEVICE_ID_HI, .IDN_REV, .IDN_LIFECYCLE, .IDN_NONCE_LO,
     .IDN_NONCE_HI, .IDN_TAMPER_CFG, .IDN_LOCK]
  else []

end Sys2Proof.Machine
end

