-- ==== Sys2Proof/Machine/RegFields.lean ====
section
/-! DEFINITION. The named fields of the registers: register, high bit and low bit, as spec/'s register tables give them. -/
namespace Sys2Proof.Machine

/-- A field of a register: its register, its high bit and its low bit. -/
structure Fld where
  reg : Reg
  hi : Nat
  lo : Nat
  deriving DecidableEq, Repr

namespace Fld

abbrev RGC_QOS_WGT.MGMT_WGT : Fld := ⟨.RGC_QOS_WGT, 11, 8⟩
abbrev RGC_QOS_WGT.BULK_WGT : Fld := ⟨.RGC_QOS_WGT, 7, 4⟩
abbrev RGC_QOS_WGT.RT_WGT : Fld := ⟨.RGC_QOS_WGT, 3, 0⟩
abbrev RGC_EARLY_READ.COUNT : Fld := ⟨.RGC_EARLY_READ, 31, 0⟩
abbrev RGC_FENCE_CAUSE.SET : Fld := ⟨.RGC_FENCE_CAUSE, 31, 31⟩
abbrev RGC_FENCE_CAUSE.BLOCK : Fld := ⟨.RGC_FENCE_CAUSE, 23, 16⟩
abbrev RGC_FENCE_CAUSE.REQUESTER : Fld := ⟨.RGC_FENCE_CAUSE, 15, 8⟩
abbrev RGC_FENCE_CAUSE.HANG : Fld := ⟨.RGC_FENCE_CAUSE, 4, 4⟩
abbrev RGC_FENCE_CAUSE.CODE : Fld := ⟨.RGC_FENCE_CAUSE, 3, 0⟩
abbrev RGC_EBUF_LAT.VALID : Fld := ⟨.RGC_EBUF_LAT, 31, 31⟩
abbrev RGC_EBUF_LAT.LAT : Fld := ⟨.RGC_EBUF_LAT, 11, 0⟩
abbrev RGC_EBUF_SLIP.COUNT : Fld := ⟨.RGC_EBUF_SLIP, 31, 0⟩
abbrev AO_STATUS.LOCK_CAUSE : Fld := ⟨.AO_STATUS, 26, 24⟩
abbrev AO_STATUS.BRINGUP_REASON : Fld := ⟨.AO_STATUS, 23, 16⟩
abbrev AO_STATUS.FENCE_MASK : Fld := ⟨.AO_STATUS, 13, 8⟩
abbrev AO_STATUS.BRINGUP_FAIL : Fld := ⟨.AO_STATUS, 4, 4⟩
abbrev AO_STATUS.MODE : Fld := ⟨.AO_STATUS, 3, 0⟩
abbrev AO_PUSH_CTL.REGION : Fld := ⟨.AO_PUSH_CTL, 10, 8⟩
abbrev AO_PUSH_CTL.OP : Fld := ⟨.AO_PUSH_CTL, 3, 0⟩
abbrev AO_PUSH_DATA.WORD : Fld := ⟨.AO_PUSH_DATA, 31, 0⟩
abbrev AO_PUSH_STAT.VALID : Fld := ⟨.AO_PUSH_STAT, 31, 31⟩
abbrev AO_PUSH_STAT.STATE : Fld := ⟨.AO_PUSH_STAT, 27, 24⟩
abbrev AO_PUSH_STAT.RESULT : Fld := ⟨.AO_PUSH_STAT, 23, 16⟩
abbrev AO_PUSH_STAT.KIB : Fld := ⟨.AO_PUSH_STAT, 15, 0⟩
abbrev AO_BOOT_INFO.SLOT_USED : Fld := ⟨.AO_BOOT_INFO, 31, 30⟩
abbrev AO_BOOT_INFO.RESTARTS : Fld := ⟨.AO_BOOT_INFO, 29, 28⟩
abbrev AO_BOOT_INFO.REASON_B : Fld := ⟨.AO_BOOT_INFO, 23, 16⟩
abbrev AO_BOOT_INFO.REASON_A : Fld := ⟨.AO_BOOT_INFO, 15, 8⟩
abbrev AO_IMAGE_SERIAL.SERIAL : Fld := ⟨.AO_IMAGE_SERIAL, 31, 0⟩
abbrev AO_SERIAL_FLOOR.FLOOR : Fld := ⟨.AO_SERIAL_FLOOR, 31, 0⟩
abbrev RGC_RESTACK_CTL.STK_Q3 : Fld := ⟨.RGC_RESTACK_CTL, 15, 14⟩
abbrev RGC_RESTACK_CTL.STK_Q2 : Fld := ⟨.RGC_RESTACK_CTL, 13, 12⟩
abbrev RGC_RESTACK_CTL.STK_Q1 : Fld := ⟨.RGC_RESTACK_CTL, 11, 10⟩
abbrev RGC_RESTACK_CTL.STK_Q0 : Fld := ⟨.RGC_RESTACK_CTL, 9, 8⟩
abbrev RGC_RESTACK_CTL.QMASK : Fld := ⟨.RGC_RESTACK_CTL, 7, 4⟩
abbrev RGC_RESTACK_CTL.OP : Fld := ⟨.RGC_RESTACK_CTL, 3, 0⟩
abbrev RGC_RESTACK_TIME.T : Fld := ⟨.RGC_RESTACK_TIME, 31, 0⟩
abbrev RGC_RESTACK_STAT.VALID : Fld := ⟨.RGC_RESTACK_STAT, 31, 31⟩
abbrev RGC_RESTACK_STAT.STATE : Fld := ⟨.RGC_RESTACK_STAT, 27, 24⟩
abbrev RGC_RESTACK_STAT.CAUSE : Fld := ⟨.RGC_RESTACK_STAT, 23, 16⟩
abbrev RGC_RESTACK_STAT.GAP : Fld := ⟨.RGC_RESTACK_STAT, 7, 0⟩
abbrev RGC_STACK_CUR.CHOSEN : Fld := ⟨.RGC_STACK_CUR, 15, 8⟩
abbrev RGC_STACK_CUR.CUR : Fld := ⟨.RGC_STACK_CUR, 7, 0⟩
abbrev PATH_CTL.TX_ATTEN : Fld := ⟨.PATH_CTL, 22, 16⟩
abbrev PATH_CTL.RX_GAIN : Fld := ⟨.PATH_CTL, 15, 8⟩
abbrev PATH_CTL.AGC_EN : Fld := ⟨.PATH_CTL, 7, 7⟩
abbrev PATH_CTL.BYP_MAN : Fld := ⟨.PATH_CTL, 6, 6⟩
abbrev PATH_CTL.PF_CLR : Fld := ⟨.PATH_CTL, 5, 5⟩
abbrev PATH_CTL.RX_MUTE : Fld := ⟨.PATH_CTL, 1, 1⟩
abbrev PATH_CTL.TX_MUTE : Fld := ⟨.PATH_CTL, 0, 0⟩
abbrev PATH_STAT.STATE : Fld := ⟨.PATH_STAT, 30, 28⟩
abbrev PATH_STAT.CAUSE : Fld := ⟨.PATH_STAT, 27, 24⟩
abbrev PATH_STAT.RL : Fld := ⟨.PATH_STAT, 23, 16⟩
abbrev PATH_STAT.I_BIAS : Fld := ⟨.PATH_STAT, 15, 8⟩
abbrev PATH_STAT.ROLE : Fld := ⟨.PATH_STAT, 7, 4⟩
abbrev PATH_STAT.LO_SEL : Fld := ⟨.PATH_STAT, 3, 3⟩
abbrev PATH_STAT.SET : Fld := ⟨.PATH_STAT, 2, 0⟩
abbrev SYN_STAT.LOCK : Fld := ⟨.SYN_STAT, 31, 31⟩
abbrev SYN_STAT.TUNING : Fld := ⟨.SYN_STAT, 30, 30⟩
abbrev SYN_STAT.BAND : Fld := ⟨.SYN_STAT, 29, 27⟩
abbrev SYN_STAT.FREQ : Fld := ⟨.SYN_STAT, 20, 0⟩
abbrev SYN_FINE.OFFSET : Fld := ⟨.SYN_FINE, 17, 0⟩
abbrev RGC_ASYNC_CFG.LOCK : Fld := ⟨.RGC_ASYNC_CFG, 31, 31⟩
abbrev RGC_ASYNC_CFG.IN_LOST : Fld := ⟨.RGC_ASYNC_CFG, 16, 16⟩
abbrev RGC_ASYNC_CFG.IN_DLY : Fld := ⟨.RGC_ASYNC_CFG, 15, 8⟩
abbrev RGC_ASYNC_CFG.OUT_EN : Fld := ⟨.RGC_ASYNC_CFG, 2, 2⟩
abbrev RGC_ASYNC_CFG.SRC : Fld := ⟨.RGC_ASYNC_CFG, 1, 0⟩
abbrev FEN_PROT_CFG.LATE_TOL : Fld := ⟨.FEN_PROT_CFG, 31, 16⟩
abbrev FEN_PROT_CFG.RL_MIN : Fld := ⟨.FEN_PROT_CFG, 15, 8⟩
abbrev FEN_PROT_CFG.ANT_RETRY : Fld := ⟨.FEN_PROT_CFG, 7, 0⟩
abbrev FEN_RFFE_CMD.KIND : Fld := ⟨.FEN_RFFE_CMD, 31, 30⟩
abbrev FEN_RFFE_CMD.BUS : Fld := ⟨.FEN_RFFE_CMD, 29, 28⟩
abbrev FEN_RFFE_CMD.USID : Fld := ⟨.FEN_RFFE_CMD, 27, 24⟩
abbrev FEN_RFFE_CMD.ADDR : Fld := ⟨.FEN_RFFE_CMD, 23, 16⟩
abbrev FEN_RFFE_CMD.DATA : Fld := ⟨.FEN_RFFE_CMD, 15, 8⟩
abbrev FEN_RFFE_RSP.EMPTY : Fld := ⟨.FEN_RFFE_RSP, 31, 31⟩
abbrev FEN_RFFE_RSP.PERR : Fld := ⟨.FEN_RFFE_RSP, 30, 30⟩
abbrev FEN_RFFE_RSP.TAG : Fld := ⟨.FEN_RFFE_RSP, 27, 22⟩
abbrev FEN_RFFE_RSP.KIND : Fld := ⟨.FEN_RFFE_RSP, 21, 20⟩
abbrev FEN_RFFE_RSP.ADDR : Fld := ⟨.FEN_RFFE_RSP, 15, 8⟩
abbrev FEN_RFFE_RSP.DATA : Fld := ⟨.FEN_RFFE_RSP, 7, 0⟩
abbrev FEN_RFFE_CFG.POLL_MS : Fld := ⟨.FEN_RFFE_CFG, 15, 8⟩
abbrev FEN_RFFE_CFG.VIO_EN : Fld := ⟨.FEN_RFFE_CFG, 5, 5⟩
abbrev FEN_RFFE_CFG.VIO_SEL : Fld := ⟨.FEN_RFFE_CFG, 4, 4⟩
abbrev FEN_RFFE_CFG.SCLK : Fld := ⟨.FEN_RFFE_CFG, 1, 0⟩
abbrev FEN_RFFE_POLL.EN : Fld := ⟨.FEN_RFFE_POLL, 15, 15⟩
abbrev FEN_RFFE_POLL.BUS : Fld := ⟨.FEN_RFFE_POLL, 13, 12⟩
abbrev FEN_RFFE_POLL.USID : Fld := ⟨.FEN_RFFE_POLL, 11, 8⟩
abbrev FEN_RFFE_POLL.PID : Fld := ⟨.FEN_RFFE_POLL, 7, 0⟩
abbrev FEN_FAST_TIM.TX_LEAD : Fld := ⟨.FEN_FAST_TIM, 31, 24⟩
abbrev FEN_FAST_TIM.TX_LAG : Fld := ⟨.FEN_FAST_TIM, 23, 16⟩
abbrev FEN_FAST_TIM.RX_SETTLE : Fld := ⟨.FEN_FAST_TIM, 15, 8⟩
abbrev FEN_FAST_TIM.DEAD : Fld := ⟨.FEN_FAST_TIM, 7, 0⟩
abbrev FEN_BIAS.EN : Fld := ⟨.FEN_BIAS, 31, 31⟩
abbrev FEN_BIAS.IOPEN : Fld := ⟨.FEN_BIAS, 23, 20⟩
abbrev FEN_BIAS.ILIM : Fld := ⟨.FEN_BIAS, 19, 16⟩
abbrev FEN_BIAS.VSET : Fld := ⟨.FEN_BIAS, 8, 0⟩
abbrev FEN_COEX_CFG.EN : Fld := ⟨.FEN_COEX_CFG, 31, 31⟩
abbrev FEN_COEX_CFG.BND_USE : Fld := ⟨.FEN_COEX_CFG, 30, 30⟩
abbrev FEN_COEX_CFG.ROLES : Fld := ⟨.FEN_COEX_CFG, 29, 24⟩
abbrev FEN_COEX_CFG.MAX_DEFER : Fld := ⟨.FEN_COEX_CFG, 23, 16⟩
abbrev FEN_COEX_CFG.REQ_MAX : Fld := ⟨.FEN_COEX_CFG, 15, 8⟩
abbrev FEN_COEX_CFG.PROTECT : Fld := ⟨.FEN_COEX_CFG, 4, 0⟩
abbrev FEN_CNT_DELAYED.COUNT : Fld := ⟨.FEN_CNT_DELAYED, 31, 0⟩
abbrev FEN_CNT_LATE.COUNT : Fld := ⟨.FEN_CNT_LATE, 31, 0⟩
abbrev FEN_CNT_LOCK_LOST.COUNT : Fld := ⟨.FEN_CNT_LOCK_LOST, 31, 0⟩
abbrev FEN_CNT_GUARD_CLAMP.COUNT : Fld := ⟨.FEN_CNT_GUARD_CLAMP, 31, 0⟩
abbrev FEN_CNT_GUARD_BLOCK.COUNT : Fld := ⟨.FEN_CNT_GUARD_BLOCK, 31, 0⟩
abbrev FEN_CNT_COEX_PREEMPT.COUNT : Fld := ⟨.FEN_CNT_COEX_PREEMPT, 31, 0⟩
abbrev FEN_CNT_RFFE_NOACK.COUNT : Fld := ⟨.FEN_CNT_RFFE_NOACK, 31, 0⟩
abbrev FEN_CNT_PATH_FAULT.COUNT : Fld := ⟨.FEN_CNT_PATH_FAULT, 31, 0⟩
abbrev DFE_ROUTE_STAT.VALID : Fld := ⟨.DFE_ROUTE_STAT, 31, 31⟩
abbrev DFE_ROUTE_STAT.RX_LAT : Fld := ⟨.DFE_ROUTE_STAT, 30, 16⟩
abbrev DFE_ROUTE_STAT.TX_LAT : Fld := ⟨.DFE_ROUTE_STAT, 14, 0⟩
abbrev DFE_TXF_COEF.C : Fld := ⟨.DFE_TXF_COEF, 17, 0⟩
abbrev DFE_MASK.EN : Fld := ⟨.DFE_MASK, 31, 31⟩
abbrev DFE_MASK.OFFSET : Fld := ⟨.DFE_MASK, 28, 16⟩
abbrev DFE_MASK.ATTEN : Fld := ⟨.DFE_MASK, 7, 0⟩
abbrev DFE_TXF_CTL.RAMP : Fld := ⟨.DFE_TXF_CTL, 15, 8⟩
abbrev DFE_TXF_CTL.ROUTE : Fld := ⟨.DFE_TXF_CTL, 7, 4⟩
abbrev DFE_TXF_CTL.OP : Fld := ⟨.DFE_TXF_CTL, 3, 0⟩
abbrev DFE_TXF_STAT.VALID : Fld := ⟨.DFE_TXF_STAT, 31, 31⟩
abbrev DFE_TXF_STAT.RESULT : Fld := ⟨.DFE_TXF_STAT, 27, 24⟩
abbrev DFE_TXF_STAT.POINT : Fld := ⟨.DFE_TXF_STAT, 23, 16⟩
abbrev DFE_CFR_CFG.EN : Fld := ⟨.DFE_CFR_CFG, 31, 31⟩
abbrev DFE_CFR_CFG.THR_HI : Fld := ⟨.DFE_CFR_CFG, 15, 8⟩
abbrev DFE_CFR_CFG.THR : Fld := ⟨.DFE_CFR_CFG, 7, 0⟩
abbrev DFE_CNT_CFR.COUNT : Fld := ⟨.DFE_CNT_CFR, 31, 0⟩
abbrev BEAM_TBL_BASE.BASE : Fld := ⟨.BEAM_TBL_BASE, 31, 0⟩
abbrev BEAM_CFG.LEAD : Fld := ⟨.BEAM_CFG, 7, 0⟩
abbrev BEAM_COMMIT.TBL : Fld := ⟨.BEAM_COMMIT, 30, 28⟩
abbrev BEAM_COMMIT.ROUTE : Fld := ⟨.BEAM_COMMIT, 27, 24⟩
abbrev BEAM_COMMIT.BEAM_ID : Fld := ⟨.BEAM_COMMIT, 14, 0⟩
abbrev BEAM_STAT.ACTIVE_TBL : Fld := ⟨.BEAM_STAT, 31, 29⟩
abbrev BEAM_STAT.CQ : Fld := ⟨.BEAM_STAT, 22, 16⟩
abbrev BEAM_STAT.LOAD : Fld := ⟨.BEAM_STAT, 10, 0⟩
abbrev BEAM_CNT_MISS.COUNT : Fld := ⟨.BEAM_CNT_MISS, 31, 0⟩
abbrev BEAM_CNT_BADREC.COUNT : Fld := ⟨.BEAM_CNT_BADREC, 31, 0⟩
abbrev BEAM_CNT_NORM.COUNT : Fld := ⟨.BEAM_CNT_NORM, 31, 0⟩
abbrev DPD_CTL.REVERT_DB : Fld := ⟨.DPD_CTL, 15, 8⟩
abbrev DPD_CTL.ADAPT_EN : Fld := ⟨.DPD_CTL, 0, 0⟩
abbrev DPD_COMMIT.SET : Fld := ⟨.DPD_COMMIT, 2, 0⟩
abbrev DPD_STAT.SET_VALID : Fld := ⟨.DPD_STAT, 31, 24⟩
abbrev DPD_STAT.PENDING : Fld := ⟨.DPD_STAT, 23, 16⟩
abbrev DPD_STAT.RUN_SET : Fld := ⟨.DPD_STAT, 10, 8⟩
abbrev DPD_CNT_SAT.COUNT : Fld := ⟨.DPD_CNT_SAT, 31, 0⟩
abbrev DPD_CNT_REVERT.COUNT : Fld := ⟨.DPD_CNT_REVERT, 31, 0⟩
abbrev ORX_CFG.CPL_ADDR : Fld := ⟨.ORX_CFG, 28, 24⟩
abbrev ORX_CFG.DATA_OFF : Fld := ⟨.ORX_CFG, 23, 16⟩
abbrev ORX_CFG.PERIOD : Fld := ⟨.ORX_CFG, 15, 8⟩
abbrev ORX_CFG.MAP : Fld := ⟨.ORX_CFG, 7, 6⟩
abbrev ORX_CFG.CAP_LEN : Fld := ⟨.ORX_CFG, 5, 4⟩
abbrev ORX_CPL.EN : Fld := ⟨.ORX_CPL, 31, 31⟩
abbrev ORX_CPL.USID : Fld := ⟨.ORX_CPL, 27, 24⟩
abbrev ORX_CPL.FWD : Fld := ⟨.ORX_CPL, 15, 8⟩
abbrev ORX_CPL.REV : Fld := ⟨.ORX_CPL, 7, 0⟩
abbrev ORX_RING_BASE.BASE : Fld := ⟨.ORX_RING_BASE, 31, 0⟩
abbrev ORX_CAP_POP.EMPTY : Fld := ⟨.ORX_CAP_POP, 31, 31⟩
abbrev ORX_CAP_POP.TAG : Fld := ⟨.ORX_CAP_POP, 24, 20⟩
abbrev ORX_CAP_POP.RX : Fld := ⟨.ORX_CAP_POP, 16, 16⟩
abbrev ORX_CAP_POP.SLOT : Fld := ⟨.ORX_CAP_POP, 3, 0⟩
abbrev ORX_SLOT_FREE.RX : Fld := ⟨.ORX_SLOT_FREE, 4, 4⟩
abbrev ORX_SLOT_FREE.SLOT : Fld := ⟨.ORX_SLOT_FREE, 3, 0⟩
abbrev ORX_CNT_VISIT.COUNT : Fld := ⟨.ORX_CNT_VISIT, 31, 0⟩
abbrev ORX_CNT_STALL.COUNT : Fld := ⟨.ORX_CNT_STALL, 31, 0⟩
abbrev ORX_CNT_ABANDON.COUNT : Fld := ⟨.ORX_CNT_ABANDON, 31, 0⟩
abbrev CAL_CTL.AUTO_RED : Fld := ⟨.CAL_CTL, 10, 10⟩
abbrev CAL_CTL.AUTO_TRIM : Fld := ⟨.CAL_CTL, 9, 9⟩
abbrev CAL_CTL.AUTO_DIG : Fld := ⟨.CAL_CTL, 8, 8⟩
abbrev CAL_CTL.OP : Fld := ⟨.CAL_CTL, 3, 0⟩
abbrev CAL_CFG.FORCE_LEAD : Fld := ⟨.CAL_CFG, 27, 24⟩
abbrev CAL_CFG.CAL_MAX_DEFER : Fld := ⟨.CAL_CFG, 23, 16⟩
abbrev CAL_CFG.TRIM_HYST : Fld := ⟨.CAL_CFG, 11, 8⟩
abbrev CAL_CFG.CAL_DT : Fld := ⟨.CAL_CFG, 7, 0⟩
abbrev CAL_STAT.VALID : Fld := ⟨.CAL_STAT, 31, 31⟩
abbrev CAL_STAT.STATE : Fld := ⟨.CAL_STAT, 27, 24⟩
abbrev CAL_STAT.LAST : Fld := ⟨.CAL_STAT, 23, 20⟩
abbrev CAL_STAT.TEMP_VALID : Fld := ⟨.CAL_STAT, 16, 16⟩
abbrev CAL_STAT.PATHS : Fld := ⟨.CAL_STAT, 15, 0⟩
abbrev CAL_TEMP.LAST : Fld := ⟨.CAL_TEMP, 31, 16⟩
abbrev CAL_TEMP.NOW : Fld := ⟨.CAL_TEMP, 15, 0⟩
abbrev CAL_QW.W : Fld := ⟨.CAL_QW, 31, 0⟩
abbrev CAL_QW_INFO.PATHS : Fld := ⟨.CAL_QW_INFO, 31, 16⟩
abbrev CAL_QW_INFO.ROUND : Fld := ⟨.CAL_QW_INFO, 10, 8⟩
abbrev CAL_QW_INFO.D : Fld := ⟨.CAL_QW_INFO, 7, 0⟩
abbrev CAL_REJ.STUCK : Fld := ⟨.CAL_REJ, 20, 20⟩
abbrev CAL_REJ.CAUSE : Fld := ⟨.CAL_REJ, 17, 16⟩
abbrev CAL_REJ.WORD : Fld := ⟨.CAL_REJ, 13, 8⟩
abbrev CAL_REJ.SET : Fld := ⟨.CAL_REJ, 6, 4⟩
abbrev CAL_REJ.PATH : Fld := ⟨.CAL_REJ, 3, 0⟩
abbrev CAL_CNT_RUN.COUNT : Fld := ⟨.CAL_CNT_RUN, 31, 0⟩
abbrev CAL_CNT_REJECT.COUNT : Fld := ⟨.CAL_CNT_REJECT, 31, 0⟩
abbrev CAL_CNT_FORCED.COUNT : Fld := ⟨.CAL_CNT_FORCED, 31, 0⟩
abbrev CAL_CNT_REBOOK.COUNT : Fld := ⟨.CAL_CNT_REBOOK, 31, 0⟩
abbrev CAL_WIN_SEL.VIEW : Fld := ⟨.CAL_WIN_SEL, 8, 8⟩
abbrev CAL_WIN_SEL.SET : Fld := ⟨.CAL_WIN_SEL, 6, 4⟩
abbrev CAL_WIN_SEL.PATH : Fld := ⟨.CAL_WIN_SEL, 3, 0⟩
abbrev CAL_COMMIT.OP : Fld := ⟨.CAL_COMMIT, 3, 0⟩
abbrev CAL_RED.EXHAUST : Fld := ⟨.CAL_RED, 27, 24⟩
abbrev CAL_RED.LOB : Fld := ⟨.CAL_RED, 11, 10⟩
abbrev CAL_RED.LOA : Fld := ⟨.CAL_RED, 9, 8⟩
abbrev CAL_RED.ORX1 : Fld := ⟨.CAL_RED, 3, 2⟩
abbrev CAL_RED.ORX0 : Fld := ⟨.CAL_RED, 1, 0⟩
abbrev CAL_XP_CTL.SETMASK : Fld := ⟨.CAL_XP_CTL, 15, 8⟩
abbrev CAL_XP_CTL.OP : Fld := ⟨.CAL_XP_CTL, 3, 0⟩
abbrev CAL_XP_ADDR.ADDR : Fld := ⟨.CAL_XP_ADDR, 31, 0⟩
abbrev CAL_XP_STAT.VALID : Fld := ⟨.CAL_XP_STAT, 31, 31⟩
abbrev CAL_XP_STAT.RESULT : Fld := ⟨.CAL_XP_STAT, 27, 24⟩
abbrev CAL_XP_STAT.LEN : Fld := ⟨.CAL_XP_STAT, 15, 0⟩
abbrev HKA_CFG.CHK_AVG : Fld := ⟨.HKA_CFG, 30, 28⟩
abbrev HKA_CFG.CHK_SEL : Fld := ⟨.HKA_CFG, 25, 24⟩
abbrev HKA_CFG.CHK_TOL : Fld := ⟨.HKA_CFG, 23, 16⟩
abbrev HKA_CFG.CHK_PERIOD : Fld := ⟨.HKA_CFG, 15, 8⟩
abbrev HKA_CFG.EN : Fld := ⟨.HKA_CFG, 1, 0⟩
abbrev HKA_POP.EMPTY : Fld := ⟨.HKA_POP, 31, 31⟩
abbrev HKA_POP.TAG : Fld := ⟨.HKA_POP, 30, 24⟩
abbrev HKA_POP.VALUE : Fld := ⟨.HKA_POP, 19, 0⟩
abbrev HKA_QLEVEL.LEVEL : Fld := ⟨.HKA_QLEVEL, 9, 0⟩
abbrev HKA_CHK_STAT.VALID : Fld := ⟨.HKA_CHK_STAT, 31, 31⟩
abbrev HKA_CHK_STAT.FAIL : Fld := ⟨.HKA_CHK_STAT, 30, 30⟩
abbrev HKA_CHK_STAT.SUSPECT : Fld := ⟨.HKA_CHK_STAT, 29, 28⟩
abbrev HKA_CHK_STAT.PASSES : Fld := ⟨.HKA_CHK_STAT, 27, 24⟩
abbrev HKA_CHK_STAT.DIFF : Fld := ⟨.HKA_CHK_STAT, 12, 0⟩
abbrev HKA_CH.EN : Fld := ⟨.HKA_CH, 31, 31⟩
abbrev HKA_CH.QUEUE : Fld := ⟨.HKA_CH, 30, 30⟩
abbrev HKA_CH.AVG_LOG2 : Fld := ⟨.HKA_CH, 11, 8⟩
abbrev HKA_CH.SHIFT : Fld := ⟨.HKA_CH, 3, 0⟩
abbrev HKA_VAL.VALID : Fld := ⟨.HKA_VAL, 31, 31⟩
abbrev HKA_VAL.SUSPECT : Fld := ⟨.HKA_VAL, 30, 30⟩
abbrev HKA_VAL.VALUE : Fld := ⟨.HKA_VAL, 19, 0⟩
abbrev HKA_CNT_QDROP.COUNT : Fld := ⟨.HKA_CNT_QDROP, 31, 0⟩
abbrev HKA_CNT_PLAUS.COUNT : Fld := ⟨.HKA_CNT_PLAUS, 31, 0⟩
abbrev PHY_LINK_STAT.BAND : Fld := ⟨.PHY_LINK_STAT, 31, 30⟩
abbrev PHY_LINK_STAT.BW : Fld := ⟨.PHY_LINK_STAT, 29, 27⟩
abbrev PHY_LINK_STAT.PRIM : Fld := ⟨.PHY_LINK_STAT, 19, 16⟩
abbrev PHY_LINK_STAT.PATHS : Fld := ⟨.PHY_LINK_STAT, 6, 0⟩
abbrev PHY_CFG.CAPTURE_EN : Fld := ⟨.PHY_CFG, 31, 31⟩
abbrev PHY_CFG.CAPTURE_MARGIN : Fld := ⟨.PHY_CFG, 23, 16⟩
abbrev PHY_CFG.RESTART_MARGIN : Fld := ⟨.PHY_CFG, 15, 8⟩
abbrev PHY_CFG.FMT_EN : Fld := ⟨.PHY_CFG, 5, 0⟩
abbrev PHY_MAX_PSDU.LIMIT : Fld := ⟨.PHY_MAX_PSDU, 23, 0⟩
abbrev PHY_PUNCT.MASK : Fld := ⟨.PHY_PUNCT, 15, 0⟩
abbrev PHY_CCA_CFG.CCA_STUCK : Fld := ⟨.PHY_CCA_CFG, 31, 24⟩
abbrev PHY_CCA_CFG.ED_LVL : Fld := ⟨.PHY_CCA_CFG, 23, 16⟩
abbrev PHY_CCA_CFG.SEC_LVL : Fld := ⟨.PHY_CCA_CFG, 15, 8⟩
abbrev PHY_CCA_CFG.PD_LVL : Fld := ⟨.PHY_CCA_CFG, 7, 0⟩
abbrev PHY_CCA_STAT.PRIM_BUSY : Fld := ⟨.PHY_CCA_STAT, 31, 31⟩
abbrev PHY_CCA_STAT.CAUSE : Fld := ⟨.PHY_CCA_STAT, 30, 28⟩
abbrev PHY_CCA_STAT.STUCK : Fld := ⟨.PHY_CCA_STAT, 27, 27⟩
abbrev PHY_CCA_STAT.BUSY : Fld := ⟨.PHY_CCA_STAT, 15, 0⟩
abbrev PHY_DSSS_CFG.DFE_EN : Fld := ⟨.PHY_DSSS_CFG, 31, 31⟩
abbrev PHY_DSSS_CFG.MU_FF : Fld := ⟨.PHY_DSSS_CFG, 15, 12⟩
abbrev PHY_DSSS_CFG.MU_FB : Fld := ⟨.PHY_DSSS_CFG, 11, 8⟩
abbrev PHY_RX_PPDU.COUNT : Fld := ⟨.PHY_RX_PPDU, 31, 0⟩
abbrev PHY_FALSE_START.COUNT : Fld := ⟨.PHY_FALSE_START, 31, 0⟩
abbrev PHY_CAPTURE_LOST.COUNT : Fld := ⟨.PHY_CAPTURE_LOST, 31, 0⟩
abbrev PHY_OVERSIZE.COUNT : Fld := ⟨.PHY_OVERSIZE, 31, 0⟩
abbrev PHY_UNSUPPORTED.COUNT : Fld := ⟨.PHY_UNSUPPORTED, 31, 0⟩
abbrev PHY_HDR_FAIL.COUNT : Fld := ⟨.PHY_HDR_FAIL, 31, 0⟩
abbrev PHY_RX_ABORT.COUNT : Fld := ⟨.PHY_RX_ABORT, 31, 0⟩
abbrev PHY_TX_PPDU.COUNT : Fld := ⟨.PHY_TX_PPDU, 31, 0⟩
abbrev PHY_TX_NOSTART.COUNT : Fld := ⟨.PHY_TX_NOSTART, 31, 0⟩
abbrev SND_CFG.EN_UL : Fld := ⟨.SND_CFG, 11, 11⟩
abbrev SND_CFG.GROUP_LOG2 : Fld := ⟨.SND_CFG, 10, 8⟩
abbrev SND_RING_BASE.BASE : Fld := ⟨.SND_RING_BASE, 31, 0⟩
abbrev SND_RING_SIZE.SLOT_KIB : Fld := ⟨.SND_RING_SIZE, 23, 16⟩
abbrev SND_RING_SIZE.SLOTS : Fld := ⟨.SND_RING_SIZE, 9, 0⟩
abbrev SND_EST_POP.EMPTY : Fld := ⟨.SND_EST_POP, 31, 31⟩
abbrev SND_EST_POP.TAG : Fld := ⟨.SND_EST_POP, 30, 19⟩
abbrev SND_EST_POP.LINK : Fld := ⟨.SND_EST_POP, 18, 17⟩
abbrev SND_EST_POP.KIND : Fld := ⟨.SND_EST_POP, 16, 16⟩
abbrev SND_EST_POP.SLOT : Fld := ⟨.SND_EST_POP, 9, 0⟩
abbrev SND_SLOT_FREE.SLOT : Fld := ⟨.SND_SLOT_FREE, 9, 0⟩
abbrev SND_CNT_DROP.COUNT : Fld := ⟨.SND_CNT_DROP, 31, 0⟩
abbrev LDPC_CFG.WGT_A : Fld := ⟨.LDPC_CFG, 31, 28⟩
abbrev LDPC_CFG.WGT_B : Fld := ⟨.LDPC_CFG, 27, 24⟩
abbrev LDPC_CFG.WGT_C : Fld := ⟨.LDPC_CFG, 23, 20⟩
abbrev LDPC_CFG.ITER_MAX : Fld := ⟨.LDPC_CFG, 12, 8⟩
abbrev LDPC_CFG.ITER_MIN : Fld := ⟨.LDPC_CFG, 4, 0⟩
abbrev LDPC_STAT.LEVEL : Fld := ⟨.LDPC_STAT, 28, 16⟩
abbrev LDPC_STAT.CAP : Fld := ⟨.LDPC_STAT, 4, 0⟩
abbrev LDPC_CNT_DROP.COUNT : Fld := ⟨.LDPC_CNT_DROP, 31, 0⟩
abbrev LDPC_CNT_FAIL.COUNT : Fld := ⟨.LDPC_CNT_FAIL, 31, 0⟩
abbrev PHY_DFS_CFG.LOCK : Fld := ⟨.PHY_DFS_CFG, 31, 31⟩
abbrev PHY_DFS_CFG.EN : Fld := ⟨.PHY_DFS_CFG, 30, 30⟩
abbrev PHY_DFS_CFG.NOP : Fld := ⟨.PHY_DFS_CFG, 23, 16⟩
abbrev PHY_DFS_CFG.CAC_S : Fld := ⟨.PHY_DFS_CFG, 15, 8⟩
abbrev PHY_DFS_CFG.THR : Fld := ⟨.PHY_DFS_CFG, 7, 0⟩
abbrev PHY_DFS_CTL.OP : Fld := ⟨.PHY_DFS_CTL, 31, 28⟩
abbrev PHY_DFS_CTL.CHMASK : Fld := ⟨.PHY_DFS_CTL, 15, 0⟩
abbrev PHY_DFS_POP.EMPTY : Fld := ⟨.PHY_DFS_POP, 31, 31⟩
abbrev PHY_DFS_POP.TAG : Fld := ⟨.PHY_DFS_POP, 29, 26⟩
abbrev PHY_DFS_POP.CHIRP : Fld := ⟨.PHY_DFS_POP, 20, 20⟩
abbrev PHY_DFS_POP.PWR : Fld := ⟨.PHY_DFS_POP, 19, 12⟩
abbrev PHY_DFS_POP.WIDTH : Fld := ⟨.PHY_DFS_POP, 11, 0⟩
abbrev PHY_DFS_STAMP.STAMP : Fld := ⟨.PHY_DFS_STAMP, 31, 0⟩
abbrev PHY_DFS_QDROP.COUNT : Fld := ⟨.PHY_DFS_QDROP, 31, 0⟩
abbrev PHY_DFS_PAT_W0.EN : Fld := ⟨.PHY_DFS_PAT_W0, 31, 31⟩
abbrev PHY_DFS_PAT_W0.CHIRP_REQ : Fld := ⟨.PHY_DFS_PAT_W0, 30, 30⟩
abbrev PHY_DFS_PAT_W0.N_MIN : Fld := ⟨.PHY_DFS_PAT_W0, 29, 24⟩
abbrev PHY_DFS_PAT_W0.W_MAX : Fld := ⟨.PHY_DFS_PAT_W0, 23, 12⟩
abbrev PHY_DFS_PAT_W0.W_MIN : Fld := ⟨.PHY_DFS_PAT_W0, 11, 0⟩
abbrev PHY_DFS_PAT_W1.PRI_MAX : Fld := ⟨.PHY_DFS_PAT_W1, 31, 16⟩
abbrev PHY_DFS_PAT_W1.PRI_MIN : Fld := ⟨.PHY_DFS_PAT_W1, 15, 0⟩
abbrev WAC_LINK_CFG.EN : Fld := ⟨.WAC_LINK_CFG, 31, 31⟩
abbrev WAC_LINK_CFG.BCN_INT : Fld := ⟨.WAC_LINK_CFG, 25, 16⟩
abbrev WAC_LINK_CFG.DTIM_PERIOD : Fld := ⟨.WAC_LINK_CFG, 15, 8⟩
abbrev WAC_MLD_ADDR_LO.ADDR : Fld := ⟨.WAC_MLD_ADDR_LO, 31, 0⟩
abbrev WAC_MLD_ADDR_HI.ADDR : Fld := ⟨.WAC_MLD_ADDR_HI, 15, 0⟩
abbrev WAC_EDCA.TXOP_LIMIT : Fld := ⟨.WAC_EDCA, 31, 16⟩
abbrev WAC_EDCA.AIFSN : Fld := ⟨.WAC_EDCA, 15, 12⟩
abbrev WAC_EDCA.ECWMAX : Fld := ⟨.WAC_EDCA, 11, 8⟩
abbrev WAC_EDCA.ECWMIN : Fld := ⟨.WAC_EDCA, 7, 4⟩
abbrev WAC_SCHED_CFG.OFDMA_EN : Fld := ⟨.WAC_SCHED_CFG, 31, 31⟩
abbrev WAC_SCHED_CFG.MU_EN : Fld := ⟨.WAC_SCHED_CFG, 30, 30⟩
abbrev WAC_SCHED_CFG.UL_EN : Fld := ⟨.WAC_SCHED_CFG, 29, 29⟩
abbrev WAC_SCHED_CFG.AF_EN : Fld := ⟨.WAC_SCHED_CFG, 28, 28⟩
abbrev WAC_SCHED_CFG.USERS_MAX : Fld := ⟨.WAC_SCHED_CFG, 27, 20⟩
abbrev WAC_SCHED_CFG.MU_MAX : Fld := ⟨.WAC_SCHED_CFG, 19, 15⟩
abbrev WAC_SCHED_CFG.BSRP_MS : Fld := ⟨.WAC_SCHED_CFG, 14, 8⟩
abbrev WAC_SCHED_CFG.QUANTUM : Fld := ⟨.WAC_SCHED_CFG, 7, 0⟩
abbrev WAC_TWT_CFG.TWT_MISS_MAX : Fld := ⟨.WAC_TWT_CFG, 31, 24⟩
abbrev WAC_TWT_CFG.TWT_GUARD_MAX : Fld := ⟨.WAC_TWT_CFG, 23, 12⟩
abbrev WAC_TWT_CFG.TWT_GUARD : Fld := ⟨.WAC_TWT_CFG, 11, 0⟩
abbrev WAC_BA_CFG.RETRY_MAX : Fld := ⟨.WAC_BA_CFG, 31, 24⟩
abbrev WAC_BA_CFG.REORDER_TO : Fld := ⟨.WAC_BA_CFG, 23, 16⟩
abbrev WAC_BA_CFG.LIFETIME : Fld := ⟨.WAC_BA_CFG, 15, 0⟩
abbrev WAC_Q_CFG.XOFF_KIB : Fld := ⟨.WAC_Q_CFG, 31, 16⟩
abbrev WAC_Q_CFG.XON_KIB : Fld := ⟨.WAC_Q_CFG, 15, 0⟩
abbrev WAC_LINK_STAT.RUN : Fld := ⟨.WAC_LINK_STAT, 31, 31⟩
abbrev WAC_LINK_STAT.STOP_CAUSE : Fld := ⟨.WAC_LINK_STAT, 30, 28⟩
abbrev WAC_LINK_STAT.PATHS : Fld := ⟨.WAC_LINK_STAT, 22, 16⟩
abbrev WAC_LINK_STAT.STAS : Fld := ⟨.WAC_LINK_STAT, 11, 0⟩
abbrev WAC_TBL_SEL.TABLE : Fld := ⟨.WAC_TBL_SEL, 31, 28⟩
abbrev WAC_TBL_SEL.INDEX : Fld := ⟨.WAC_TBL_SEL, 11, 0⟩
abbrev WAC_TBL_CTL.OP : Fld := ⟨.WAC_TBL_CTL, 3, 0⟩
abbrev WAC_TBL_STAT.VALID : Fld := ⟨.WAC_TBL_STAT, 31, 31⟩
abbrev WAC_TBL_STAT.RESULT : Fld := ⟨.WAC_TBL_STAT, 27, 24⟩
abbrev WAC_TBL_STAT.WORD : Fld := ⟨.WAC_TBL_STAT, 7, 0⟩
abbrev WAC_TBL_WIN.DATA : Fld := ⟨.WAC_TBL_WIN, 31, 0⟩
abbrev WAC_MTX_BASE.BASE : Fld := ⟨.WAC_MTX_BASE, 31, 0⟩
abbrev WAC_MTX_CFG.EN : Fld := ⟨.WAC_MTX_CFG, 31, 31⟩
abbrev WAC_MTX_CFG.SIZE_LOG2 : Fld := ⟨.WAC_MTX_CFG, 3, 0⟩
abbrev WAC_MTX_TAIL.TAIL : Fld := ⟨.WAC_MTX_TAIL, 11, 0⟩
abbrev WAC_MTX_HEAD.HEAD : Fld := ⟨.WAC_MTX_HEAD, 11, 0⟩
abbrev WAC_MTX_CPL_POP.EMPTY : Fld := ⟨.WAC_MTX_CPL_POP, 31, 31⟩
abbrev WAC_MTX_CPL_POP.TAG : Fld := ⟨.WAC_MTX_CPL_POP, 27, 16⟩
abbrev WAC_MTX_CPL_POP.RETRIES : Fld := ⟨.WAC_MTX_CPL_POP, 11, 8⟩
abbrev WAC_MTX_CPL_POP.LINK : Fld := ⟨.WAC_MTX_CPL_POP, 7, 4⟩
abbrev WAC_MTX_CPL_POP.STATUS : Fld := ⟨.WAC_MTX_CPL_POP, 3, 0⟩
abbrev WAC_MRX_BASE.BASE : Fld := ⟨.WAC_MRX_BASE, 31, 0⟩
abbrev WAC_MRX_CFG.EN : Fld := ⟨.WAC_MRX_CFG, 31, 31⟩
abbrev WAC_MRX_CFG.SIZE_LOG2 : Fld := ⟨.WAC_MRX_CFG, 3, 0⟩
abbrev WAC_MRX_TAIL.TAIL : Fld := ⟨.WAC_MRX_TAIL, 11, 0⟩
abbrev WAC_MRX_HEAD.HEAD : Fld := ⟨.WAC_MRX_HEAD, 11, 0⟩
abbrev WAC_MRX_FREE.BUF : Fld := ⟨.WAC_MRX_FREE, 31, 0⟩
abbrev WAC_BSR_POP.EMPTY : Fld := ⟨.WAC_BSR_POP, 31, 31⟩
abbrev WAC_BSR_POP.TAG : Fld := ⟨.WAC_BSR_POP, 30, 20⟩
abbrev WAC_BSR_POP.LINK : Fld := ⟨.WAC_BSR_POP, 19, 18⟩
abbrev WAC_BSR_POP.KIND : Fld := ⟨.WAC_BSR_POP, 17, 16⟩
abbrev WAC_AFC_ADDR.ADDR : Fld := ⟨.WAC_AFC_ADDR, 31, 0⟩
abbrev WAC_AFC_CTL.OP : Fld := ⟨.WAC_AFC_CTL, 3, 0⟩
abbrev WAC_AFC_STAT.VALID : Fld := ⟨.WAC_AFC_STAT, 31, 31⟩
abbrev WAC_AFC_STAT.RESULT : Fld := ⟨.WAC_AFC_STAT, 26, 24⟩
abbrev WAC_AFC_STAT.ENTRIES : Fld := ⟨.WAC_AFC_STAT, 6, 0⟩
abbrev WAC_AFC_SERIAL.SERIAL : Fld := ⟨.WAC_AFC_SERIAL, 31, 0⟩
abbrev WAC_CNT_DUP.COUNT : Fld := ⟨.WAC_CNT_DUP, 31, 0⟩
abbrev WAC_CNT_OLD.COUNT : Fld := ⟨.WAC_CNT_OLD, 31, 0⟩
abbrev WAC_CNT_REPLAY.COUNT : Fld := ⟨.WAC_CNT_REPLAY, 31, 0⟩
abbrev WAC_CNT_MIC_FAIL.COUNT : Fld := ⟨.WAC_CNT_MIC_FAIL, 31, 0⟩
abbrev WAC_CNT_REORDER_TO.COUNT : Fld := ⟨.WAC_CNT_REORDER_TO, 31, 0⟩
abbrev WAC_CNT_RETRY_DROP.COUNT : Fld := ⟨.WAC_CNT_RETRY_DROP, 31, 0⟩
abbrev WAC_CNT_LIFETIME.COUNT : Fld := ⟨.WAC_CNT_LIFETIME, 31, 0⟩
abbrev WAC_CNT_TWT_MISS.COUNT : Fld := ⟨.WAC_CNT_TWT_MISS, 31, 0⟩
abbrev WAC_CNT_TWT_TEARDOWN.COUNT : Fld := ⟨.WAC_CNT_TWT_TEARDOWN, 31, 0⟩
abbrev WAC_CNT_UNAUTH.COUNT : Fld := ⟨.WAC_CNT_UNAUTH, 31, 0⟩
abbrev WAC_CNT_NOSTA.COUNT : Fld := ⟨.WAC_CNT_NOSTA, 31, 0⟩
abbrev WAC_CNT_TX_OVERSIZE.COUNT : Fld := ⟨.WAC_CNT_TX_OVERSIZE, 31, 0⟩
abbrev WAC_CNT_MRX_DROP.COUNT : Fld := ⟨.WAC_CNT_MRX_DROP, 31, 0⟩
abbrev WAC_CNT_QW_UNCOVERED.COUNT : Fld := ⟨.WAC_CNT_QW_UNCOVERED, 31, 0⟩
abbrev WAC_CNT_BCN_DROP.COUNT : Fld := ⟨.WAC_CNT_BCN_DROP, 31, 0⟩
abbrev WAC_CNT_REFUSED.COUNT : Fld := ⟨.WAC_CNT_REFUSED, 31, 0⟩
abbrev FHU_CFG.EN : Fld := ⟨.FHU_CFG, 31, 31⟩
abbrev FHU_CFG.VLAN_EN : Fld := ⟨.FHU_CFG, 30, 30⟩
abbrev FHU_CFG.PCP : Fld := ⟨.FHU_CFG, 29, 27⟩
abbrev FHU_CFG.VID : Fld := ⟨.FHU_CFG, 11, 0⟩
abbrev FHU_FRAME_OFF.FRAME_OFF : Fld := ⟨.FHU_FRAME_OFF, 31, 0⟩
abbrev FHU_TIME_CFG.HOLD_NS : Fld := ⟨.FHU_TIME_CFG, 31, 16⟩
abbrev FHU_TIME_CFG.UL_ADV : Fld := ⟨.FHU_TIME_CFG, 15, 0⟩
abbrev FHU_WIN_UP.T2A_MAX_UP : Fld := ⟨.FHU_WIN_UP, 31, 16⟩
abbrev FHU_WIN_UP.T2A_MIN_UP : Fld := ⟨.FHU_WIN_UP, 15, 0⟩
abbrev FHU_WIN_CPDL.TCP_ADV_DL : Fld := ⟨.FHU_WIN_CPDL, 31, 16⟩
abbrev FHU_WIN_CPUL.T2A_MAX_CP_UL : Fld := ⟨.FHU_WIN_CPUL, 31, 16⟩
abbrev FHU_WIN_CPUL.T2A_MIN_CP_UL : Fld := ⟨.FHU_WIN_CPUL, 15, 0⟩
abbrev FHU_MAX_FRAME.MAX_FRAME : Fld := ⟨.FHU_MAX_FRAME, 13, 0⟩
abbrev FHU_MAC_LO.ADDR : Fld := ⟨.FHU_MAC_LO, 31, 0⟩
abbrev FHU_MAC_HI.ADDR : Fld := ⟨.FHU_MAC_HI, 15, 0⟩
abbrev FHU_BUF_BASE.BASE : Fld := ⟨.FHU_BUF_BASE, 31, 0⟩
abbrev FHU_BUF_CFG.SLOTS : Fld := ⟨.FHU_BUF_CFG, 12, 0⟩
abbrev FHU_STAT.RUN : Fld := ⟨.FHU_STAT, 31, 31⟩
abbrev FHU_STAT.STOP_CAUSE : Fld := ⟨.FHU_STAT, 30, 28⟩
abbrev FHU_STAT.LINK : Fld := ⟨.FHU_STAT, 27, 26⟩
abbrev FHU_STAT.USED : Fld := ⟨.FHU_STAT, 12, 0⟩
abbrev FHU_CAR_CFG.EN : Fld := ⟨.FHU_CAR_CFG, 31, 31⟩
abbrev FHU_CAR_CFG.RECIP : Fld := ⟨.FHU_CAR_CFG, 30, 30⟩
abbrev FHU_CAR_CFG.DYN_COUNT : Fld := ⟨.FHU_CAR_CFG, 10, 0⟩
abbrev FHU_CAR_DYN.DYN_BASE : Fld := ⟨.FHU_CAR_DYN, 31, 0⟩
abbrev FHU_GAP_W0.START : Fld := ⟨.FHU_GAP_W0, 31, 16⟩
abbrev FHU_GAP_W0.LEN : Fld := ⟨.FHU_GAP_W0, 15, 0⟩
abbrev FHU_GAP_W1.PERIOD : Fld := ⟨.FHU_GAP_W1, 15, 0⟩
abbrev FHU_EAXC_W0.EN : Fld := ⟨.FHU_EAXC_W0, 31, 31⟩
abbrev FHU_EAXC_W0.DIR : Fld := ⟨.FHU_EAXC_W0, 30, 29⟩
abbrev FHU_EAXC_W0.LANE : Fld := ⟨.FHU_EAXC_W0, 28, 28⟩
abbrev FHU_EAXC_W0.ROUTE : Fld := ⟨.FHU_EAXC_W0, 27, 24⟩
abbrev FHU_EAXC_W0.LAYER : Fld := ⟨.FHU_EAXC_W0, 23, 20⟩
abbrev FHU_EAXC_W0.EAXC_ID : Fld := ⟨.FHU_EAXC_W0, 15, 0⟩
abbrev FHU_EAXC_W1.STATIC_COMP : Fld := ⟨.FHU_EAXC_W1, 31, 31⟩
abbrev FHU_EAXC_W1.METH : Fld := ⟨.FHU_EAXC_W1, 30, 30⟩
abbrev FHU_EAXC_W1.IQW : Fld := ⟨.FHU_EAXC_W1, 27, 24⟩
abbrev FHU_EAXC_W1.FILTER : Fld := ⟨.FHU_EAXC_W1, 3, 0⟩
abbrev FHU_RET_POP.EMPTY : Fld := ⟨.FHU_RET_POP, 31, 31⟩
abbrev FHU_RET_POP.TAG : Fld := ⟨.FHU_RET_POP, 19, 12⟩
abbrev FHU_RET_POP.SLOT : Fld := ⟨.FHU_RET_POP, 11, 0⟩
abbrev FHU_RET_INFO.FRAME : Fld := ⟨.FHU_RET_INFO, 31, 24⟩
abbrev FHU_RET_INFO.SUBFRAME : Fld := ⟨.FHU_RET_INFO, 23, 20⟩
abbrev FHU_RET_INFO.SLOT_ID : Fld := ⟨.FHU_RET_INFO, 19, 14⟩
abbrev FHU_RET_INFO.SYMBOL : Fld := ⟨.FHU_RET_INFO, 13, 10⟩
abbrev FHU_RET_FREE.SLOT : Fld := ⟨.FHU_RET_FREE, 11, 0⟩
abbrev FHU_CNT_ON_TIME.COUNT : Fld := ⟨.FHU_CNT_ON_TIME, 31, 0⟩
abbrev FHU_CNT_EARLY.COUNT : Fld := ⟨.FHU_CNT_EARLY, 31, 0⟩
abbrev FHU_CNT_LATE.COUNT : Fld := ⟨.FHU_CNT_LATE, 31, 0⟩
abbrev FHU_CNT_CP_EARLY.COUNT : Fld := ⟨.FHU_CNT_CP_EARLY, 31, 0⟩
abbrev FHU_CNT_CP_LATE.COUNT : Fld := ⟨.FHU_CNT_CP_LATE, 31, 0⟩
abbrev FHU_CNT_MALFORMED.COUNT : Fld := ⟨.FHU_CNT_MALFORMED, 31, 0⟩
abbrev FHU_CNT_UNSUPPORTED.COUNT : Fld := ⟨.FHU_CNT_UNSUPPORTED, 31, 0⟩
abbrev FHU_CNT_UNKNOWN.COUNT : Fld := ⟨.FHU_CNT_UNKNOWN, 31, 0⟩
abbrev FHU_CNT_SEQ_ERR.COUNT : Fld := ⟨.FHU_CNT_SEQ_ERR, 31, 0⟩
abbrev FHU_CNT_DUP.COUNT : Fld := ⟨.FHU_CNT_DUP, 31, 0⟩
abbrev FHU_CNT_OVERSIZE.COUNT : Fld := ⟨.FHU_CNT_OVERSIZE, 31, 0⟩
abbrev FHU_CNT_NO_CPLANE.COUNT : Fld := ⟨.FHU_CNT_NO_CPLANE, 31, 0⟩
abbrev FHU_CNT_BUF_FULL.COUNT : Fld := ⟨.FHU_CNT_BUF_FULL, 31, 0⟩
abbrev FHU_CNT_CONFLICT.COUNT : Fld := ⟨.FHU_CNT_CONFLICT, 31, 0⟩
abbrev FHU_CNT_BAD_BEAM.COUNT : Fld := ⟨.FHU_CNT_BAD_BEAM, 31, 0⟩
abbrev FHU_CNT_W_SAT.COUNT : Fld := ⟨.FHU_CNT_W_SAT, 31, 0⟩
abbrev FHU_CNT_TX_LOST.COUNT : Fld := ⟨.FHU_CNT_TX_LOST, 31, 0⟩
abbrev FHU_CNT_TX_TRUNC.COUNT : Fld := ⟨.FHU_CNT_TX_TRUNC, 31, 0⟩
abbrev FHU_CNT_RESTACK_DISC.COUNT : Fld := ⟨.FHU_CNT_RESTACK_DISC, 31, 0⟩
abbrev FHU_CNT_NO_TIME.COUNT : Fld := ⟨.FHU_CNT_NO_TIME, 31, 0⟩
abbrev FHU_CNT_RET_DROP.COUNT : Fld := ⟨.FHU_CNT_RET_DROP, 31, 0⟩
abbrev FHU_CNT_UL_TX.COUNT : Fld := ⟨.FHU_CNT_UL_TX, 31, 0⟩
abbrev TXA_CFG.EN : Fld := ⟨.TXA_CFG, 31, 31⟩
abbrev TXA_CFG.CAPTURE_EN : Fld := ⟨.TXA_CFG, 30, 30⟩
abbrev TXA_CFG.PRECOMP : Fld := ⟨.TXA_CFG, 29, 29⟩
abbrev TXA_CFG.NETID : Fld := ⟨.TXA_CFG, 21, 8⟩
abbrev TXA_CFG.MAX_LEN : Fld := ⟨.TXA_CFG, 7, 0⟩
abbrev TXA_DET_CFG.PRE_LEN : Fld := ⟨.TXA_DET_CFG, 31, 24⟩
abbrev TXA_DET_CFG.SYNC_TOL : Fld := ⟨.TXA_DET_CFG, 23, 20⟩
abbrev TXA_DET_CFG.CAPTURE_MARGIN : Fld := ⟨.TXA_DET_CFG, 15, 8⟩
abbrev TXA_DET_CFG.RESTART_MARGIN : Fld := ⟨.TXA_DET_CFG, 7, 0⟩
abbrev TXA_SYNC.SYNC_WORD : Fld := ⟨.TXA_SYNC, 15, 0⟩
abbrev TXA_KEY.LOCK : Fld := ⟨.TXA_KEY, 31, 31⟩
abbrev TXA_KEY.SLOT : Fld := ⟨.TXA_KEY, 15, 0⟩
abbrev TXA_DL_CFG.DL_DELAY1 : Fld := ⟨.TXA_DL_CFG, 31, 16⟩
abbrev TXA_DL_CFG.DL_DELAY2 : Fld := ⟨.TXA_DL_CFG, 15, 0⟩
abbrev TXA_DL2_CFG.DL2_EN : Fld := ⟨.TXA_DL2_CFG, 31, 31⟩
abbrev TXA_DL2_CFG.DL2_FIXED : Fld := ⟨.TXA_DL2_CFG, 30, 30⟩
abbrev TXA_DL2_CFG.DL2_CH : Fld := ⟨.TXA_DL2_CFG, 19, 16⟩
abbrev TXA_DL2_CFG.DL2_SF_STEP : Fld := ⟨.TXA_DL2_CFG, 10, 8⟩
abbrev TXA_DL2_CFG.DL2_RATE : Fld := ⟨.TXA_DL2_CFG, 1, 0⟩
abbrev TXA_FB_CFG.FB_EN : Fld := ⟨.TXA_FB_CFG, 31, 31⟩
abbrev TXA_FB_CFG.FB_N : Fld := ⟨.TXA_FB_CFG, 23, 16⟩
abbrev TXA_FB_CFG.FB_THR : Fld := ⟨.TXA_FB_CFG, 15, 8⟩
abbrev TXA_FB_CFG.FB_DEFER : Fld := ⟨.TXA_FB_CFG, 7, 0⟩
abbrev TXA_FB_STAT.VALID : Fld := ⟨.TXA_FB_STAT, 31, 31⟩
abbrev TXA_FB_STAT.LIMIT : Fld := ⟨.TXA_FB_STAT, 30, 30⟩
abbrev TXA_FB_STAT.BLOCKED : Fld := ⟨.TXA_FB_STAT, 29, 29⟩
abbrev TXA_FB_STAT.OFFSET : Fld := ⟨.TXA_FB_STAT, 17, 0⟩
abbrev TXA_CH_CFG_W0.EN : Fld := ⟨.TXA_CH_CFG_W0, 31, 31⟩
abbrev TXA_CH_CFG_W0.SF_MASK : Fld := ⟨.TXA_CH_CFG_W0, 27, 22⟩
abbrev TXA_CH_CFG_W0.RX_BEAM : Fld := ⟨.TXA_CH_CFG_W0, 14, 0⟩
abbrev TXA_CH_CFG_W1.TX_BEAM : Fld := ⟨.TXA_CH_CFG_W1, 14, 0⟩
abbrev TXA_CH_STAT.STATE : Fld := ⟨.TXA_CH_STAT, 31, 29⟩
abbrev TXA_CH_STAT.SF : Fld := ⟨.TXA_CH_STAT, 28, 25⟩
abbrev TXA_CH_STAT.RSSI : Fld := ⟨.TXA_CH_STAT, 23, 16⟩
abbrev TXA_RX_BASE.BASE : Fld := ⟨.TXA_RX_BASE, 31, 0⟩
abbrev TXA_RX_CFG.EN : Fld := ⟨.TXA_RX_CFG, 31, 31⟩
abbrev TXA_RX_CFG.SIZE_LOG2 : Fld := ⟨.TXA_RX_CFG, 3, 0⟩
abbrev TXA_RX_TAIL.TAIL : Fld := ⟨.TXA_RX_TAIL, 11, 0⟩
abbrev TXA_RX_HEAD.HEAD : Fld := ⟨.TXA_RX_HEAD, 11, 0⟩
abbrev TXA_DL_PUSH.ADDR : Fld := ⟨.TXA_DL_PUSH, 31, 0⟩
abbrev TXA_DL_CPL_POP.EMPTY : Fld := ⟨.TXA_DL_CPL_POP, 31, 31⟩
abbrev TXA_DL_CPL_POP.TAG : Fld := ⟨.TXA_DL_CPL_POP, 23, 16⟩
abbrev TXA_DL_CPL_POP.WINDOW : Fld := ⟨.TXA_DL_CPL_POP, 5, 4⟩
abbrev TXA_DL_CPL_POP.STATUS : Fld := ⟨.TXA_DL_CPL_POP, 3, 0⟩
abbrev TXA_DL_CPL_INFO.COOKIE : Fld := ⟨.TXA_DL_CPL_INFO, 31, 0⟩
abbrev TXA_CTR_SEL.INDEX : Fld := ⟨.TXA_CTR_SEL, 17, 0⟩
abbrev TXA_CTR_DATA.LAST : Fld := ⟨.TXA_CTR_DATA, 31, 0⟩
abbrev TXA_CNT_RX_OK.COUNT : Fld := ⟨.TXA_CNT_RX_OK, 31, 0⟩
abbrev TXA_CNT_FALSE_DET.COUNT : Fld := ⟨.TXA_CNT_FALSE_DET, 31, 0⟩
abbrev TXA_CNT_HDR_FAIL.COUNT : Fld := ⟨.TXA_CNT_HDR_FAIL, 31, 0⟩
abbrev TXA_CNT_CAPTURE_LOST.COUNT : Fld := ⟨.TXA_CNT_CAPTURE_LOST, 31, 0⟩
abbrev TXA_CNT_OVERSIZE.COUNT : Fld := ⟨.TXA_CNT_OVERSIZE, 31, 0⟩
abbrev TXA_CNT_CRC_FAIL.COUNT : Fld := ⟨.TXA_CNT_CRC_FAIL, 31, 0⟩
abbrev TXA_CNT_NETID.COUNT : Fld := ⟨.TXA_CNT_NETID, 31, 0⟩
abbrev TXA_CNT_MIC_FAIL.COUNT : Fld := ⟨.TXA_CNT_MIC_FAIL, 31, 0⟩
abbrev TXA_CNT_REPLAY.COUNT : Fld := ⟨.TXA_CNT_REPLAY, 31, 0⟩
abbrev TXA_CNT_DUP_ACKED.COUNT : Fld := ⟨.TXA_CNT_DUP_ACKED, 31, 0⟩
abbrev TXA_CNT_RX_DROP.COUNT : Fld := ⟨.TXA_CNT_RX_DROP, 31, 0⟩
abbrev TXA_CNT_RX_ABORT.COUNT : Fld := ⟨.TXA_CNT_RX_ABORT, 31, 0⟩
abbrev TXA_CNT_DL_SENT.COUNT : Fld := ⟨.TXA_CNT_DL_SENT, 31, 0⟩
abbrev TXA_CNT_DL_FAIL.COUNT : Fld := ⟨.TXA_CNT_DL_FAIL, 31, 0⟩
abbrev TXA_CNT_RESTACK_DISC.COUNT : Fld := ⟨.TXA_CNT_RESTACK_DISC, 31, 0⟩
abbrev TXA_CNT_FB_FORCED.COUNT : Fld := ⟨.TXA_CNT_FB_FORCED, 31, 0⟩
abbrev PRS_PORT_CFG_W0.EN : Fld := ⟨.PRS_PORT_CFG_W0, 31, 31⟩
abbrev PRS_PORT_CFG_W0.PIPE : Fld := ⟨.PRS_PORT_CFG_W0, 30, 30⟩
abbrev PRS_PORT_CFG_W0.LEARN : Fld := ⟨.PRS_PORT_CFG_W0, 29, 29⟩
abbrev PRS_PORT_CFG_W0.TRUST_DSCP : Fld := ⟨.PRS_PORT_CFG_W0, 28, 28⟩
abbrev PRS_PORT_CFG_W0.PVID : Fld := ⟨.PRS_PORT_CFG_W0, 27, 16⟩
abbrev PRS_PORT_CFG_W0.VRF : Fld := ⟨.PRS_PORT_CFG_W0, 15, 8⟩
abbrev PRS_PORT_CFG_W0.DEF_CLASS : Fld := ⟨.PRS_PORT_CFG_W0, 2, 0⟩
abbrev PRS_PORT_CFG_W1.DEF_SUB : Fld := ⟨.PRS_PORT_CFG_W1, 13, 0⟩
abbrev PRS_STAT.LOAD : Fld := ⟨.PRS_STAT, 31, 16⟩
abbrev PRS_STAT.INFLIGHT : Fld := ⟨.PRS_STAT, 11, 0⟩
abbrev PRS_ING_CFG.ING_KIB : Fld := ⟨.PRS_ING_CFG, 15, 0⟩
abbrev PRS_CNT_MAL.COUNT : Fld := ⟨.PRS_CNT_MAL, 31, 0⟩
abbrev PRS_CNT_PASS.COUNT : Fld := ⟨.PRS_CNT_PASS, 31, 0⟩
abbrev PRS_CNT_RECIRC.COUNT : Fld := ⟨.PRS_CNT_RECIRC, 31, 0⟩
abbrev PRS_CNT_ING_DROP.COUNT : Fld := ⟨.PRS_CNT_ING_DROP, 31, 0⟩
abbrev FLW_CFG.FT_EN : Fld := ⟨.FLW_CFG, 31, 31⟩
abbrev FLW_CFG.LEARN_ALL : Fld := ⟨.FLW_CFG, 30, 30⟩
abbrev FLW_CFG.ACL_DENY : Fld := ⟨.FLW_CFG, 29, 29⟩
abbrev FLW_CFG.NO_ROUTE_PUNT : Fld := ⟨.FLW_CFG, 28, 28⟩
abbrev FLW_CFG.TTL_PUNT : Fld := ⟨.FLW_CFG, 27, 27⟩
abbrev FLW_RMAC_LO.ADDR : Fld := ⟨.FLW_RMAC_LO, 31, 0⟩
abbrev FLW_RMAC_HI.ADDR : Fld := ⟨.FLW_RMAC_HI, 15, 0⟩
abbrev FLW_FT_BASE.BASE : Fld := ⟨.FLW_FT_BASE, 31, 0⟩
abbrev FLW_AGE_CFG.IDLE3 : Fld := ⟨.FLW_AGE_CFG, 31, 24⟩
abbrev FLW_AGE_CFG.IDLE2 : Fld := ⟨.FLW_AGE_CFG, 23, 16⟩
abbrev FLW_AGE_CFG.IDLE1 : Fld := ⟨.FLW_AGE_CFG, 15, 8⟩
abbrev FLW_AGE_CFG.IDLE0 : Fld := ⟨.FLW_AGE_CFG, 7, 0⟩
abbrev FLW_AGE_CFG2.SCAN_S : Fld := ⟨.FLW_AGE_CFG2, 23, 16⟩
abbrev FLW_AGE_CFG2.L2_AGE_S : Fld := ⟨.FLW_AGE_CFG2, 15, 0⟩
abbrev FLW_VER_CTL.OP : Fld := ⟨.FLW_VER_CTL, 3, 0⟩
abbrev FLW_VER_STAT.VALID : Fld := ⟨.FLW_VER_STAT, 31, 31⟩
abbrev FLW_VER_STAT.STATE : Fld := ⟨.FLW_VER_STAT, 27, 24⟩
abbrev FLW_VER_STAT.RESULT : Fld := ⟨.FLW_VER_STAT, 23, 20⟩
abbrev FLW_VER_STAT.ACTIVE : Fld := ⟨.FLW_VER_STAT, 0, 0⟩
abbrev FLW_VER_GEN.GEN : Fld := ⟨.FLW_VER_GEN, 31, 0⟩
abbrev FLW_VER_FAIL.TABLE : Fld := ⟨.FLW_VER_FAIL, 31, 28⟩
abbrev FLW_VER_FAIL.INDEX : Fld := ⟨.FLW_VER_FAIL, 19, 0⟩
abbrev FLW_MISS_STAT.FETCHES : Fld := ⟨.FLW_MISS_STAT, 28, 16⟩
abbrev FLW_MISS_STAT.WAITING : Fld := ⟨.FLW_MISS_STAT, 14, 0⟩
abbrev FLW_SW_PEND.CPL : Fld := ⟨.FLW_SW_PEND, 17, 9⟩
abbrev FLW_SW_PEND.RX : Fld := ⟨.FLW_SW_PEND, 8, 0⟩
abbrev FLW_EXP_BASE.BASE : Fld := ⟨.FLW_EXP_BASE, 31, 0⟩
abbrev FLW_EXP_CFG.EN : Fld := ⟨.FLW_EXP_CFG, 31, 31⟩
abbrev FLW_EXP_CFG.SIZE_LOG2 : Fld := ⟨.FLW_EXP_CFG, 3, 0⟩
abbrev FLW_EXP_TAIL.TAIL : Fld := ⟨.FLW_EXP_TAIL, 14, 0⟩
abbrev FLW_EXP_HEAD.HEAD : Fld := ⟨.FLW_EXP_HEAD, 14, 0⟩
abbrev FLW_TBL_SEL.TABLE : Fld := ⟨.FLW_TBL_SEL, 31, 28⟩
abbrev FLW_TBL_SEL.VIEW : Fld := ⟨.FLW_TBL_SEL, 27, 27⟩
abbrev FLW_TBL_SEL.INDEX : Fld := ⟨.FLW_TBL_SEL, 19, 0⟩
abbrev FLW_TBL_CTL.OP : Fld := ⟨.FLW_TBL_CTL, 3, 0⟩
abbrev FLW_TBL_STAT.VALID : Fld := ⟨.FLW_TBL_STAT, 31, 31⟩
abbrev FLW_TBL_STAT.RESULT : Fld := ⟨.FLW_TBL_STAT, 27, 24⟩
abbrev FLW_TBL_STAT.INDEX : Fld := ⟨.FLW_TBL_STAT, 19, 0⟩
abbrev FLW_TBL_WIN.DATA : Fld := ⟨.FLW_TBL_WIN, 31, 0⟩
abbrev FLW_SW_RX_BASE.BASE : Fld := ⟨.FLW_SW_RX_BASE, 31, 0⟩
abbrev FLW_SW_RX_CFG.EN : Fld := ⟨.FLW_SW_RX_CFG, 31, 31⟩
abbrev FLW_SW_RX_CFG.SIZE_LOG2 : Fld := ⟨.FLW_SW_RX_CFG, 3, 0⟩
abbrev FLW_SW_RX_TAIL.TAIL : Fld := ⟨.FLW_SW_RX_TAIL, 11, 0⟩
abbrev FLW_SW_RX_HEAD.HEAD : Fld := ⟨.FLW_SW_RX_HEAD, 11, 0⟩
abbrev FLW_SW_RX_FREE.BUF : Fld := ⟨.FLW_SW_RX_FREE, 31, 0⟩
abbrev FLW_SW_TX_BASE.BASE : Fld := ⟨.FLW_SW_TX_BASE, 31, 0⟩
abbrev FLW_SW_TX_CFG.EN : Fld := ⟨.FLW_SW_TX_CFG, 31, 31⟩
abbrev FLW_SW_TX_CFG.SIZE_LOG2 : Fld := ⟨.FLW_SW_TX_CFG, 3, 0⟩
abbrev FLW_SW_TX_TAIL.TAIL : Fld := ⟨.FLW_SW_TX_TAIL, 11, 0⟩
abbrev FLW_SW_TX_HEAD.HEAD : Fld := ⟨.FLW_SW_TX_HEAD, 11, 0⟩
abbrev FLW_SW_TX_CPL_POP.EMPTY : Fld := ⟨.FLW_SW_TX_CPL_POP, 31, 31⟩
abbrev FLW_SW_TX_CPL_POP.TAG : Fld := ⟨.FLW_SW_TX_CPL_POP, 27, 16⟩
abbrev FLW_SW_TX_CPL_POP.STATUS : Fld := ⟨.FLW_SW_TX_CPL_POP, 3, 0⟩
abbrev FLW_CNT_NO_ROUTE.COUNT : Fld := ⟨.FLW_CNT_NO_ROUTE, 31, 0⟩
abbrev FLW_CNT_TTL.COUNT : Fld := ⟨.FLW_CNT_TTL, 31, 0⟩
abbrev FLW_CNT_MTU.COUNT : Fld := ⟨.FLW_CNT_MTU, 31, 0⟩
abbrev FLW_CNT_ACL_DENY.COUNT : Fld := ⟨.FLW_CNT_ACL_DENY, 31, 0⟩
abbrev FLW_CNT_MISS_DROP.COUNT : Fld := ⟨.FLW_CNT_MISS_DROP, 31, 0⟩
abbrev FLW_CNT_LEARN_FAIL.COUNT : Fld := ⟨.FLW_CNT_LEARN_FAIL, 31, 0⟩
abbrev FLW_CNT_NAT_EXHAUST.COUNT : Fld := ⟨.FLW_CNT_NAT_EXHAUST, 31, 0⟩
abbrev FLW_CNT_NAT_UNSUP.COUNT : Fld := ⟨.FLW_CNT_NAT_UNSUP, 31, 0⟩
abbrev FLW_CNT_ESP_AUTH.COUNT : Fld := ⟨.FLW_CNT_ESP_AUTH, 31, 0⟩
abbrev FLW_CNT_ESP_REPLAY.COUNT : Fld := ⟨.FLW_CNT_ESP_REPLAY, 31, 0⟩
abbrev FLW_CNT_ESP_NOSA.COUNT : Fld := ⟨.FLW_CNT_ESP_NOSA, 31, 0⟩
abbrev FLW_CNT_L2_MOVE.COUNT : Fld := ⟨.FLW_CNT_L2_MOVE, 31, 0⟩
abbrev FLW_CNT_L2_LEARN_FAIL.COUNT : Fld := ⟨.FLW_CNT_L2_LEARN_FAIL, 31, 0⟩
abbrev FLW_CNT_EXP_DROP.COUNT : Fld := ⟨.FLW_CNT_EXP_DROP, 31, 0⟩
abbrev FLW_CNT_SW_RX_DROP.COUNT : Fld := ⟨.FLW_CNT_SW_RX_DROP, 31, 0⟩
abbrev FLW_CNT_BAD_DESC.COUNT : Fld := ⟨.FLW_CNT_BAD_DESC, 31, 0⟩
abbrev ETH_CFG.EN : Fld := ⟨.ETH_CFG, 31, 31⟩
abbrev ETH_CFG.PAUSE_RX : Fld := ⟨.ETH_CFG, 30, 30⟩
abbrev ETH_CFG.PAUSE_TX : Fld := ⟨.ETH_CFG, 29, 29⟩
abbrev ETH_CFG.MTU_ACT : Fld := ⟨.ETH_CFG, 28, 28⟩
abbrev ETH_CFG.MAX_FRAME : Fld := ⟨.ETH_CFG, 13, 0⟩
abbrev ETH_MSEC_CFG.EN : Fld := ⟨.ETH_MSEC_CFG, 31, 31⟩
abbrev ETH_MSEC_CFG.SCI_EN : Fld := ⟨.ETH_MSEC_CFG, 30, 30⟩
abbrev ETH_MSEC_CFG.CONF : Fld := ⟨.ETH_MSEC_CFG, 29, 29⟩
abbrev ETH_MSEC_CFG.SUITE : Fld := ⟨.ETH_MSEC_CFG, 28, 27⟩
abbrev ETH_MSEC_CFG.VALIDATE : Fld := ⟨.ETH_MSEC_CFG, 26, 25⟩
abbrev ETH_MSEC_CFG.TX_AN : Fld := ⟨.ETH_MSEC_CFG, 24, 23⟩
abbrev ETH_MSEC_CFG.REPLAY_EN : Fld := ⟨.ETH_MSEC_CFG, 22, 22⟩
abbrev ETH_MSEC_WIN.WINDOW : Fld := ⟨.ETH_MSEC_WIN, 31, 0⟩
abbrev ETH_CNT_RX_OK.COUNT : Fld := ⟨.ETH_CNT_RX_OK, 31, 0⟩
abbrev ETH_CNT_RX_FCS.COUNT : Fld := ⟨.ETH_CNT_RX_FCS, 31, 0⟩
abbrev ETH_CNT_RX_RUNT.COUNT : Fld := ⟨.ETH_CNT_RX_RUNT, 31, 0⟩
abbrev ETH_CNT_RX_OVERSIZE.COUNT : Fld := ⟨.ETH_CNT_RX_OVERSIZE, 31, 0⟩
abbrev ETH_CNT_TX_OK.COUNT : Fld := ⟨.ETH_CNT_TX_OK, 31, 0⟩
abbrev ETH_CNT_TX_MTU.COUNT : Fld := ⟨.ETH_CNT_TX_MTU, 31, 0⟩
abbrev ETH_CNT_MSEC_AUTH.COUNT : Fld := ⟨.ETH_CNT_MSEC_AUTH, 31, 0⟩
abbrev ETH_CNT_MSEC_REPLAY.COUNT : Fld := ⟨.ETH_CNT_MSEC_REPLAY, 31, 0⟩
abbrev ETH_CNT_MSEC_NOSA.COUNT : Fld := ⟨.ETH_CNT_MSEC_NOSA, 31, 0⟩
abbrev ETH_CNT_MSEC_UNTAGGED.COUNT : Fld := ⟨.ETH_CNT_MSEC_UNTAGGED, 31, 0⟩
abbrev ETH_CNT_MSEC_PN_EXH.COUNT : Fld := ⟨.ETH_CNT_MSEC_PN_EXH, 31, 0⟩
abbrev TMG_CFG.EN : Fld := ⟨.TMG_CFG, 31, 31⟩
abbrev TMG_BUF_CFG.HIGH : Fld := ⟨.TMG_BUF_CFG, 31, 16⟩
abbrev TMG_BUF_CFG.LIMIT : Fld := ⟨.TMG_BUF_CFG, 15, 0⟩
abbrev TMG_BUF_STAT.USED : Fld := ⟨.TMG_BUF_STAT, 31, 0⟩
abbrev TMG_PORT_CFG_W0.SHAPE_EN : Fld := ⟨.TMG_PORT_CFG_W0, 31, 31⟩
abbrev TMG_PORT_CFG_W0.PAUSED : Fld := ⟨.TMG_PORT_CFG_W0, 30, 30⟩
abbrev TMG_PORT_CFG_W0.LINK : Fld := ⟨.TMG_PORT_CFG_W0, 29, 29⟩
abbrev TMG_PORT_CFG_W0.RATE : Fld := ⟨.TMG_PORT_CFG_W0, 23, 8⟩
abbrev TMG_PORT_CFG_W0.OVERHEAD : Fld := ⟨.TMG_PORT_CFG_W0, 7, 0⟩
abbrev TMG_PORT_CFG_W1.DEF_SUB : Fld := ⟨.TMG_PORT_CFG_W1, 13, 0⟩
abbrev TMG_TBL_SEL.TABLE : Fld := ⟨.TMG_TBL_SEL, 31, 28⟩
abbrev TMG_TBL_SEL.INDEX : Fld := ⟨.TMG_TBL_SEL, 19, 0⟩
abbrev TMG_TBL_CTL.OP : Fld := ⟨.TMG_TBL_CTL, 3, 0⟩
abbrev TMG_TBL_STAT.VALID : Fld := ⟨.TMG_TBL_STAT, 31, 31⟩
abbrev TMG_TBL_STAT.RESULT : Fld := ⟨.TMG_TBL_STAT, 27, 24⟩
abbrev TMG_TBL_STAT.WORD : Fld := ⟨.TMG_TBL_STAT, 7, 0⟩
abbrev TMG_TBL_WIN.DATA : Fld := ⟨.TMG_TBL_WIN, 31, 0⟩
abbrev TMG_GATE_CTL.GATE_EN : Fld := ⟨.TMG_GATE_CTL, 31, 31⟩
abbrev TMG_GATE_CTL.OPER_BANK : Fld := ⟨.TMG_GATE_CTL, 30, 30⟩
abbrev TMG_GATE_CTL.STATE : Fld := ⟨.TMG_GATE_CTL, 27, 24⟩
abbrev TMG_GATE_CTL.ADMIN_LEN : Fld := ⟨.TMG_GATE_CTL, 16, 8⟩
abbrev TMG_GATE_CTL.OP : Fld := ⟨.TMG_GATE_CTL, 3, 0⟩
abbrev TMG_GATE_CYCLE.CYCLE : Fld := ⟨.TMG_GATE_CYCLE, 29, 0⟩
abbrev TMG_GATE_BASE_NS.NS : Fld := ⟨.TMG_GATE_BASE_NS, 31, 0⟩
abbrev TMG_GATE_BASE_S_LO.S : Fld := ⟨.TMG_GATE_BASE_S_LO, 31, 0⟩
abbrev TMG_GATE_BASE_S_HI.S : Fld := ⟨.TMG_GATE_BASE_S_HI, 15, 0⟩
abbrev TMG_GATE_STAT.VALID : Fld := ⟨.TMG_GATE_STAT, 31, 31⟩
abbrev TMG_GATE_STAT.RESULT : Fld := ⟨.TMG_GATE_STAT, 30, 28⟩
abbrev TMG_GATE_STAT.CUR_ENTRY : Fld := ⟨.TMG_GATE_STAT, 23, 16⟩
abbrev TMG_GATE_STAT.OPER_LEN : Fld := ⟨.TMG_GATE_STAT, 8, 0⟩
abbrev TMG_CNT_ENQ.COUNT : Fld := ⟨.TMG_CNT_ENQ, 31, 0⟩
abbrev TMG_CNT_METER_DROP.COUNT : Fld := ⟨.TMG_CNT_METER_DROP, 31, 0⟩
abbrev TMG_CNT_Q_DROP.COUNT : Fld := ⟨.TMG_CNT_Q_DROP, 31, 0⟩
abbrev TMG_CNT_BUF_DROP.COUNT : Fld := ⟨.TMG_CNT_BUF_DROP, 31, 0⟩
abbrev TMG_CNT_NO_SUB.COUNT : Fld := ⟨.TMG_CNT_NO_SUB, 31, 0⟩
abbrev TMG_CNT_LINK_DROP.COUNT : Fld := ⟨.TMG_CNT_LINK_DROP, 31, 0⟩
abbrev TMG_CNT_FLUSH.COUNT : Fld := ⟨.TMG_CNT_FLUSH, 31, 0⟩
abbrev TMG_CNT_GATE_OVERSIZE.COUNT : Fld := ⟨.TMG_CNT_GATE_OVERSIZE, 31, 0⟩
abbrev NTU_CFG.OP8 : Fld := ⟨.NTU_CFG, 31, 31⟩
abbrev NTU_CFG.SLEW_PPM : Fld := ⟨.NTU_CFG, 23, 16⟩
abbrev NTU_CFG.STEP_THRESH : Fld := ⟨.NTU_CFG, 15, 8⟩
abbrev NTU_CFG.SERVO_TO : Fld := ⟨.NTU_CFG, 7, 0⟩
abbrev NTU_HOLD_CFG.HOLD_PPB : Fld := ⟨.NTU_HOLD_CFG, 31, 16⟩
abbrev NTU_HOLD_CFG.SLP_PPM : Fld := ⟨.NTU_HOLD_CFG, 15, 8⟩
abbrev NTU_STATUS.TIME_STATE : Fld := ⟨.NTU_STATUS, 31, 30⟩
abbrev NTU_STATUS.RELOCK : Fld := ⟨.NTU_STATUS, 29, 29⟩
abbrev NTU_STATUS.SLEWING : Fld := ⟨.NTU_STATUS, 28, 28⟩
abbrev NTU_STATUS.STEP_REFUSED : Fld := ⟨.NTU_STATUS, 27, 27⟩
abbrev NTU_STATUS.REFCLK_HOLD : Fld := ⟨.NTU_STATUS, 26, 26⟩
abbrev NTU_STATUS.SLP_CAL : Fld := ⟨.NTU_STATUS, 25, 25⟩
abbrev NTU_STATUS.ARMED : Fld := ⟨.NTU_STATUS, 24, 24⟩
abbrev NTU_UNC.UNC : Fld := ⟨.NTU_UNC, 31, 0⟩
abbrev NTU_TIME_NS.NS : Fld := ⟨.NTU_TIME_NS, 29, 0⟩
abbrev NTU_TIME_S_LO.S : Fld := ⟨.NTU_TIME_S_LO, 31, 0⟩
abbrev NTU_TIME_S_HI.S : Fld := ⟨.NTU_TIME_S_HI, 15, 0⟩
abbrev NTU_RAW_LO.RAW : Fld := ⟨.NTU_RAW_LO, 31, 0⟩
abbrev NTU_RAW_HI.RAW : Fld := ⟨.NTU_RAW_HI, 31, 0⟩
abbrev NTU_STAMP.STAMP : Fld := ⟨.NTU_STAMP, 31, 0⟩
abbrev NTU_TIME_RATE_LO.RATE : Fld := ⟨.NTU_TIME_RATE_LO, 31, 0⟩
abbrev NTU_TIME_RATE_HI.RATE : Fld := ⟨.NTU_TIME_RATE_HI, 7, 0⟩
abbrev NTU_STEP_NS.OFFSET : Fld := ⟨.NTU_STEP_NS, 31, 0⟩
abbrev NTU_SET_NS.NS : Fld := ⟨.NTU_SET_NS, 29, 0⟩
abbrev NTU_SET_S_LO.S : Fld := ⟨.NTU_SET_S_LO, 31, 0⟩
abbrev NTU_SET_S_HI.S : Fld := ⟨.NTU_SET_S_HI, 15, 0⟩
abbrev NTU_TIME_CTL.ARM : Fld := ⟨.NTU_TIME_CTL, 15, 8⟩
abbrev NTU_TIME_CTL.OP : Fld := ⟨.NTU_TIME_CTL, 3, 0⟩
abbrev NTU_TIME_STAT.VALID : Fld := ⟨.NTU_TIME_STAT, 31, 31⟩
abbrev NTU_TIME_STAT.RESULT : Fld := ⟨.NTU_TIME_STAT, 27, 24⟩
abbrev NTU_LOCK_UNC.UNC : Fld := ⟨.NTU_LOCK_UNC, 31, 0⟩
abbrev NTU_OP8_INCR.TIME_INCR : Fld := ⟨.NTU_OP8_INCR, 31, 0⟩
abbrev NTU_SLP_RATIO.RATIO : Fld := ⟨.NTU_SLP_RATIO, 31, 0⟩
abbrev NTU_CNT_STEP_REFUSED.COUNT : Fld := ⟨.NTU_CNT_STEP_REFUSED, 31, 0⟩
abbrev NTU_CNT_SERVO_TO.COUNT : Fld := ⟨.NTU_CNT_SERVO_TO, 31, 0⟩
abbrev NTU_CNT_TXTS_DROP.COUNT : Fld := ⟨.NTU_CNT_TXTS_DROP, 31, 0⟩
abbrev NTU_PTP_CFG.TS_EN : Fld := ⟨.NTU_PTP_CFG, 31, 31⟩
abbrev NTU_PTP_CFG.ONESTEP : Fld := ⟨.NTU_PTP_CFG, 30, 30⟩
abbrev NTU_TXTS_POP.EMPTY : Fld := ⟨.NTU_TXTS_POP, 31, 31⟩
abbrev NTU_TXTS_POP.TAG : Fld := ⟨.NTU_TXTS_POP, 30, 26⟩
abbrev NTU_TXTS_POP.MSGTYPE : Fld := ⟨.NTU_TXTS_POP, 19, 16⟩
abbrev NTU_TXTS_POP.SEQ_ID : Fld := ⟨.NTU_TXTS_POP, 15, 0⟩
abbrev NTU_TXTS_VAL.STAMP : Fld := ⟨.NTU_TXTS_VAL, 31, 0⟩
abbrev NTU_PPS_CFG.OUT_EN : Fld := ⟨.NTU_PPS_CFG, 31, 31⟩
abbrev NTU_PPS_CFG.QUAL : Fld := ⟨.NTU_PPS_CFG, 30, 30⟩
abbrev NTU_PPS_CFG.WIDTH : Fld := ⟨.NTU_PPS_CFG, 23, 16⟩
abbrev NTU_PPS_CFG.OFFSET : Fld := ⟨.NTU_PPS_CFG, 15, 0⟩
abbrev NTU_PPS_IN_TS.STAMP : Fld := ⟨.NTU_PPS_IN_TS, 31, 0⟩
abbrev NTU_CAP_STAT.PPS_VALID : Fld := ⟨.NTU_CAP_STAT, 31, 31⟩
abbrev NTU_CAP_STAT.TSYNC_VALID : Fld := ⟨.NTU_CAP_STAT, 30, 30⟩
abbrev NTU_CAP_STAT.PPS_EDGES : Fld := ⟨.NTU_CAP_STAT, 15, 8⟩
abbrev NTU_CAP_STAT.TSYNC_EDGES : Fld := ⟨.NTU_CAP_STAT, 7, 0⟩
abbrev NTU_TSYNC_TS.STAMP : Fld := ⟨.NTU_TSYNC_TS, 31, 0⟩
abbrev NTU_TSYNC_CFG.EN : Fld := ⟨.NTU_TSYNC_CFG, 31, 31⟩
abbrev NTU_TSYNC_CFG.DIR : Fld := ⟨.NTU_TSYNC_CFG, 30, 30⟩
abbrev NTU_TSYNC_CFG.EDGE : Fld := ⟨.NTU_TSYNC_CFG, 29, 28⟩
abbrev NTU_TSYNC_CFG.WIDTH : Fld := ⟨.NTU_TSYNC_CFG, 15, 0⟩
abbrev NTU_TSYNC_START.START : Fld := ⟨.NTU_TSYNC_START, 31, 0⟩
abbrev NTU_TSYNC_PERIOD.PERIOD : Fld := ⟨.NTU_TSYNC_PERIOD, 31, 0⟩
abbrev NTU_SYNCE_CFG.EN : Fld := ⟨.NTU_SYNCE_CFG, 31, 31⟩
abbrev NTU_SYNCE_CFG.OPTION : Fld := ⟨.NTU_SYNCE_CFG, 30, 30⟩
abbrev NTU_SYNCE_CFG.SRC : Fld := ⟨.NTU_SYNCE_CFG, 26, 24⟩
abbrev NTU_SYNCE_STAT.STATE : Fld := ⟨.NTU_SYNCE_STAT, 31, 30⟩
abbrev NTU_PTM_CTL.OP : Fld := ⟨.NTU_PTM_CTL, 3, 0⟩
abbrev NTU_PTM_STAT.VALID : Fld := ⟨.NTU_PTM_STAT, 31, 31⟩
abbrev NTU_PTM_STAT.RESULT : Fld := ⟨.NTU_PTM_STAT, 27, 24⟩
abbrev NTU_PTM_T1.STAMP : Fld := ⟨.NTU_PTM_T1, 31, 0⟩
abbrev NTU_PTM_T4.STAMP : Fld := ⟨.NTU_PTM_T4, 31, 0⟩
abbrev NTU_PTM_MT_LO.TIME : Fld := ⟨.NTU_PTM_MT_LO, 31, 0⟩
abbrev NTU_PTM_MT_HI.TIME : Fld := ⟨.NTU_PTM_MT_HI, 31, 0⟩
abbrev NTU_PTM_DELAY.DELAY : Fld := ⟨.NTU_PTM_DELAY, 31, 0⟩
abbrev APC_CORE_CTL.RUN : Fld := ⟨.APC_CORE_CTL, 31, 31⟩
abbrev APC_CORE_START_LO.ADDR : Fld := ⟨.APC_CORE_START_LO, 31, 0⟩
abbrev APC_CORE_START_HI.ADDR : Fld := ⟨.APC_CORE_START_HI, 7, 0⟩
abbrev APC_CORE_STAT.STATE : Fld := ⟨.APC_CORE_STAT, 31, 28⟩
abbrev APC_CORE_STAT.MHZ : Fld := ⟨.APC_CORE_STAT, 15, 0⟩
abbrev APC_CFG.BANKED_CORE : Fld := ⟨.APC_CFG, 2, 0⟩
abbrev RGC_CORE_CTL.RUN : Fld := ⟨.RGC_CORE_CTL, 31, 31⟩
abbrev RGC_CORE_STAT.STATE : Fld := ⟨.RGC_CORE_STAT, 31, 28⟩
abbrev RGC_CORE_STAT.TRAP_PC : Fld := ⟨.RGC_CORE_STAT, 15, 0⟩
abbrev RGC_CORE_DWIN.BASE : Fld := ⟨.RGC_CORE_DWIN, 6, 0⟩
abbrev TLY_ENQ_W.DATA : Fld := ⟨.TLY_ENQ_W, 31, 0⟩
abbrev TLY_ENQ_DUE.DUE : Fld := ⟨.TLY_ENQ_DUE, 31, 0⟩
abbrev TLY_ENQ_GO.DLIST : Fld := ⟨.TLY_ENQ_GO, 5, 4⟩
abbrev TLY_ENQ_GO.OP : Fld := ⟨.TLY_ENQ_GO, 3, 0⟩
abbrev TLY_ENQ_STAT.VALID : Fld := ⟨.TLY_ENQ_STAT, 31, 31⟩
abbrev TLY_ENQ_STAT.RESULT : Fld := ⟨.TLY_ENQ_STAT, 27, 24⟩
abbrev TLY_ENQ_STAT.HANDLE : Fld := ⟨.TLY_ENQ_STAT, 15, 0⟩
abbrev TLY_DLY_CANCEL.HANDLE : Fld := ⟨.TLY_DLY_CANCEL, 14, 0⟩
abbrev TLY_PICK.EMPTY : Fld := ⟨.TLY_PICK, 31, 31⟩
abbrev TLY_PICK.TAG : Fld := ⟨.TLY_PICK, 29, 16⟩
abbrev TLY_PICK.ROD : Fld := ⟨.TLY_PICK, 3, 0⟩
abbrev TLY_CUR_W.DATA : Fld := ⟨.TLY_CUR_W, 31, 0⟩
abbrev TLY_DONE_RES.RESULT : Fld := ⟨.TLY_DONE_RES, 31, 0⟩
abbrev TLY_DONE.STATUS : Fld := ⟨.TLY_DONE, 31, 30⟩
abbrev TLY_DONE.HANDLE : Fld := ⟨.TLY_DONE, 13, 0⟩
abbrev TLY_ROD_STAT.CLASS : Fld := ⟨.TLY_ROD_STAT, 31, 30⟩
abbrev TLY_ROD_STAT.INFLIGHT : Fld := ⟨.TLY_ROD_STAT, 29, 15⟩
abbrev TLY_ROD_STAT.LEVEL : Fld := ⟨.TLY_ROD_STAT, 14, 0⟩
abbrev TLY_CORE_RODS.MASK : Fld := ⟨.TLY_CORE_RODS, 15, 0⟩
abbrev TLY_DLY_CFG.LEVEL : Fld := ⟨.TLY_DLY_CFG, 29, 16⟩
abbrev TLY_DLY_CFG.TICK : Fld := ⟨.TLY_DLY_CFG, 13, 0⟩
abbrev TLY_REL_POP.EMPTY : Fld := ⟨.TLY_REL_POP, 31, 31⟩
abbrev TLY_REL_POP.STATUS : Fld := ⟨.TLY_REL_POP, 30, 28⟩
abbrev TLY_REL_POP.TAG : Fld := ⟨.TLY_REL_POP, 27, 16⟩
abbrev TLY_REL_POP.SEQ : Fld := ⟨.TLY_REL_POP, 15, 0⟩
abbrev TLY_REL_RES.RESULT : Fld := ⟨.TLY_REL_RES, 31, 0⟩
abbrev TLY_REL_PEND.QUEUES : Fld := ⟨.TLY_REL_PEND, 15, 0⟩
abbrev TLY_CNT_FULL.COUNT : Fld := ⟨.TLY_CNT_FULL, 31, 0⟩
abbrev TLY_CNT_FENCED.COUNT : Fld := ⟨.TLY_CNT_FENCED, 31, 0⟩
abbrev TLY_CNT_DLY_LATE.COUNT : Fld := ⟨.TLY_CNT_DLY_LATE, 31, 0⟩
abbrev EVT_CLAIM.EMPTY : Fld := ⟨.EVT_CLAIM, 31, 31⟩
abbrev EVT_CLAIM.TAG : Fld := ⟨.EVT_CLAIM, 23, 16⟩
abbrev EVT_CLAIM.COUNT : Fld := ⟨.EVT_CLAIM, 7, 0⟩
abbrev EVT_CLAIM_TS.FIRST : Fld := ⟨.EVT_CLAIM_TS, 31, 0⟩
abbrev EVT_HCLAIM.EMPTY : Fld := ⟨.EVT_HCLAIM, 31, 31⟩
abbrev EVT_HCLAIM.TAG : Fld := ⟨.EVT_HCLAIM, 23, 16⟩
abbrev EVT_HCLAIM.COUNT : Fld := ⟨.EVT_HCLAIM, 7, 0⟩
abbrev EVT_CLR.EVENT : Fld := ⟨.EVT_CLR, 7, 0⟩
abbrev EVT_MASK.MASK : Fld := ⟨.EVT_MASK, 31, 0⟩
abbrev EVT_EVTOUT_CFG.POL : Fld := ⟨.EVT_EVTOUT_CFG, 7, 4⟩
abbrev EVT_EVTOUT_CFG.PULSE : Fld := ⟨.EVT_EVTOUT_CFG, 3, 0⟩
abbrev EVT_PEND_SEL.EVENT : Fld := ⟨.EVT_PEND_SEL, 7, 0⟩
abbrev EVT_PEND.KIND : Fld := ⟨.EVT_PEND, 15, 8⟩
abbrev EVT_PEND.COUNT : Fld := ⟨.EVT_PEND, 7, 0⟩
abbrev RKN_CTL.OWNER : Fld := ⟨.RKN_CTL, 31, 31⟩
abbrev RKN_CTL.OP : Fld := ⟨.RKN_CTL, 3, 0⟩
abbrev RKN_STAT.RUN : Fld := ⟨.RKN_STAT, 31, 31⟩
abbrev RKN_STAT.STATE : Fld := ⟨.RKN_STAT, 30, 28⟩
abbrev RKN_STAT.CAUSE : Fld := ⟨.RKN_STAT, 27, 24⟩
abbrev RKN_STAT.SAT : Fld := ⟨.RKN_STAT, 23, 23⟩
abbrev RKN_STAT.HANDLE : Fld := ⟨.RKN_STAT, 13, 0⟩
abbrev RKN_PC.PC : Fld := ⟨.RKN_PC, 14, 0⟩
abbrev RKN_CNT_SAT.COUNT : Fld := ⟨.RKN_CNT_SAT, 31, 0⟩
abbrev RKN_CNT_CYC.COUNT : Fld := ⟨.RKN_CNT_CYC, 31, 0⟩
abbrev RKN_S.VALUE : Fld := ⟨.RKN_S, 31, 0⟩
abbrev RKN_ACC_LO.DATA : Fld := ⟨.RKN_ACC_LO, 31, 0⟩
abbrev RKN_ACC_HI.BUSY : Fld := ⟨.RKN_ACC_HI, 31, 31⟩
abbrev RKN_ACC_HI.DATA : Fld := ⟨.RKN_ACC_HI, 23, 0⟩
abbrev SRM_CFG.SCRUB_EN : Fld := ⟨.SRM_CFG, 31, 31⟩
abbrev SRM_CFG.SCRUB_S : Fld := ⟨.SRM_CFG, 7, 0⟩
abbrev SRM_STAT.WIPING : Fld := ⟨.SRM_STAT, 31, 31⟩
abbrev SRM_STAT.SAVE_BANK : Fld := ⟨.SRM_STAT, 21, 16⟩
abbrev SRM_RET_LO.RET : Fld := ⟨.SRM_RET_LO, 31, 0⟩
abbrev SRM_RET_HI.RET : Fld := ⟨.SRM_RET_HI, 31, 0⟩
abbrev SRM_ECC_ADDR.CAPT : Fld := ⟨.SRM_ECC_ADDR, 31, 31⟩
abbrev SRM_ECC_ADDR.MEM : Fld := ⟨.SRM_ECC_ADDR, 23, 22⟩
abbrev SRM_ECC_ADDR.WORD : Fld := ⟨.SRM_ECC_ADDR, 21, 0⟩
abbrev SRM_CNT_CORR.COUNT : Fld := ⟨.SRM_CNT_CORR, 31, 0⟩
abbrev SRM_CNT_UNCORR.COUNT : Fld := ⟨.SRM_CNT_UNCORR, 31, 0⟩
abbrev PBF_CFG.SPILL : Fld := ⟨.PBF_CFG, 15, 0⟩
abbrev PBF_STAT.ONCHIP : Fld := ⟨.PBF_STAT, 31, 16⟩
abbrev PBF_STAT.DRAM : Fld := ⟨.PBF_STAT, 15, 0⟩
abbrev PBF_CNT_SPILL_CAP.COUNT : Fld := ⟨.PBF_CNT_SPILL_CAP, 31, 0⟩
abbrev DMC_STAT.TRAINED : Fld := ⟨.DMC_STAT, 31, 31⟩
abbrev DMC_STAT.SELF_REFRESH : Fld := ⟨.DMC_STAT, 30, 30⟩
abbrev DMC_STAT.XTS : Fld := ⟨.DMC_STAT, 29, 29⟩
abbrev DMC_STAT.TYPE : Fld := ⟨.DMC_STAT, 28, 27⟩
abbrev DMC_STAT.MTS : Fld := ⟨.DMC_STAT, 15, 0⟩
abbrev DMC_CFG.PAGE_IDLE : Fld := ⟨.DMC_CFG, 7, 0⟩
abbrev DMC_ACT_CFG.THROT_WIN : Fld := ⟨.DMC_ACT_CFG, 31, 24⟩
abbrev DMC_ACT_CFG.THROT_GAP : Fld := ⟨.DMC_ACT_CFG, 23, 16⟩
abbrev DMC_ACT_CFG.ACT_MAX : Fld := ⟨.DMC_ACT_CFG, 15, 0⟩
abbrev DMC_RT_CFG.PANIC_MAX : Fld := ⟨.DMC_RT_CFG, 15, 8⟩
abbrev DMC_RT_CFG.PANIC_LO : Fld := ⟨.DMC_RT_CFG, 7, 0⟩
abbrev DMC_DIST_STAT.VALID : Fld := ⟨.DMC_DIST_STAT, 31, 31⟩
abbrev DMC_DIST_STAT.RT : Fld := ⟨.DMC_DIST_STAT, 30, 30⟩
abbrev DMC_DIST_STAT.REQUESTER : Fld := ⟨.DMC_DIST_STAT, 23, 16⟩
abbrev DMC_DIST_STAT.RANK : Fld := ⟨.DMC_DIST_STAT, 5, 5⟩
abbrev DMC_DIST_STAT.BANK : Fld := ⟨.DMC_DIST_STAT, 4, 0⟩
abbrev DMC_ECC_ADDR.CAPT : Fld := ⟨.DMC_ECC_ADDR, 31, 31⟩
abbrev DMC_ECC_ADDR.LINE : Fld := ⟨.DMC_ECC_ADDR, 27, 0⟩
abbrev DMC_CNT_CORR.COUNT : Fld := ⟨.DMC_CNT_CORR, 31, 0⟩
abbrev DMC_CNT_UNCORR.COUNT : Fld := ⟨.DMC_CNT_UNCORR, 31, 0⟩
abbrev DMC_CNT_PANIC.COUNT : Fld := ⟨.DMC_CNT_PANIC, 31, 0⟩
abbrev DMC_CNT_RT_LATE.COUNT : Fld := ⟨.DMC_CNT_RT_LATE, 31, 0⟩
abbrev DMC_CNT_INORDER.COUNT : Fld := ⟨.DMC_CNT_INORDER, 31, 0⟩
abbrev DMC_CNT_THROT.COUNT : Fld := ⟨.DMC_CNT_THROT, 31, 0⟩
abbrev DMC_CNT_TREF.COUNT : Fld := ⟨.DMC_CNT_TREF, 31, 0⟩
abbrev IDN_DEVICE_ID_LO.ID : Fld := ⟨.IDN_DEVICE_ID_LO, 31, 0⟩
abbrev IDN_DEVICE_ID_HI.ID : Fld := ⟨.IDN_DEVICE_ID_HI, 31, 0⟩
abbrev IDN_REV.PART : Fld := ⟨.IDN_REV, 31, 16⟩
abbrev IDN_REV.REVISION : Fld := ⟨.IDN_REV, 15, 0⟩
abbrev IDN_LIFECYCLE.KEYS : Fld := ⟨.IDN_LIFECYCLE, 27, 24⟩
abbrev IDN_LIFECYCLE.TAMPER_COUNT : Fld := ⟨.IDN_LIFECYCLE, 23, 16⟩
abbrev IDN_LIFECYCLE.DEBUG_OPEN : Fld := ⟨.IDN_LIFECYCLE, 9, 9⟩
abbrev IDN_LIFECYCLE.AUTHORITY : Fld := ⟨.IDN_LIFECYCLE, 8, 8⟩
abbrev IDN_LIFECYCLE.PENDING : Fld := ⟨.IDN_LIFECYCLE, 7, 7⟩
abbrev IDN_LIFECYCLE.PENDING_STATE : Fld := ⟨.IDN_LIFECYCLE, 6, 4⟩
abbrev IDN_LIFECYCLE.STATE : Fld := ⟨.IDN_LIFECYCLE, 2, 0⟩
abbrev IDN_NONCE_LO.NONCE : Fld := ⟨.IDN_NONCE_LO, 31, 0⟩
abbrev IDN_NONCE_HI.NONCE : Fld := ⟨.IDN_NONCE_HI, 31, 0⟩
abbrev IDN_TAMPER_CFG.TFILT : Fld := ⟨.IDN_TAMPER_CFG, 15, 8⟩
abbrev IDN_TAMPER_CFG.ACT_HIGH : Fld := ⟨.IDN_TAMPER_CFG, 3, 2⟩
abbrev IDN_TAMPER_CFG.EN : Fld := ⟨.IDN_TAMPER_CFG, 1, 0⟩
abbrev KLN_MB_REQ.ADDR : Fld := ⟨.KLN_MB_REQ, 31, 0⟩
abbrev KLN_MB_GO.OP : Fld := ⟨.KLN_MB_GO, 3, 0⟩
abbrev KLN_MB_STAT.VALID : Fld := ⟨.KLN_MB_STAT, 31, 31⟩
abbrev KLN_MB_STAT.STATE : Fld := ⟨.KLN_MB_STAT, 30, 28⟩
abbrev KLN_MB_STAT.RESULT : Fld := ⟨.KLN_MB_STAT, 27, 24⟩
abbrev KLN_MB_STAT.REFUSED : Fld := ⟨.KLN_MB_STAT, 23, 23⟩
abbrev KLN_MB_STAT.LEN : Fld := ⟨.KLN_MB_STAT, 16, 0⟩
abbrev KLN_STAT.RNG_OK : Fld := ⟨.KLN_STAT, 31, 31⟩
abbrev KLN_STAT.QUEUE : Fld := ⟨.KLN_STAT, 4, 0⟩
abbrev CIP_SLOT_KEY.KEY : Fld := ⟨.CIP_SLOT_KEY, 31, 0⟩
abbrev CIP_SLOT_CTL.OP : Fld := ⟨.CIP_SLOT_CTL, 31, 28⟩
abbrev CIP_SLOT_CTL.LEN : Fld := ⟨.CIP_SLOT_CTL, 16, 16⟩
abbrev CIP_SLOT_CTL.SLOT : Fld := ⟨.CIP_SLOT_CTL, 12, 0⟩
abbrev CIP_SLOT_STAT.VALID : Fld := ⟨.CIP_SLOT_STAT, 31, 31⟩
abbrev CIP_SLOT_STAT.RESULT : Fld := ⟨.CIP_SLOT_STAT, 27, 24⟩
abbrev CIP_SLOT_STAT.SLOT : Fld := ⟨.CIP_SLOT_STAT, 12, 0⟩
abbrev CIP_ATTR_SEL.SLOT : Fld := ⟨.CIP_ATTR_SEL, 12, 0⟩
abbrev CIP_ATTR.VALID : Fld := ⟨.CIP_ATTR, 31, 31⟩
abbrev CIP_ATTR.LEN : Fld := ⟨.CIP_ATTR, 30, 30⟩
abbrev CIP_ATTR.WRITER : Fld := ⟨.CIP_ATTR, 15, 8⟩
abbrev CIP_JOB_BASE.BASE : Fld := ⟨.CIP_JOB_BASE, 31, 0⟩
abbrev CIP_JOB_CFG.EN : Fld := ⟨.CIP_JOB_CFG, 31, 31⟩
abbrev CIP_JOB_CFG.SIZE_LOG2 : Fld := ⟨.CIP_JOB_CFG, 3, 0⟩
abbrev CIP_JOB_TAIL.TAIL : Fld := ⟨.CIP_JOB_TAIL, 11, 0⟩
abbrev CIP_JOB_HEAD.HEAD : Fld := ⟨.CIP_JOB_HEAD, 11, 0⟩
abbrev CIP_CPL_POP.EMPTY : Fld := ⟨.CIP_CPL_POP, 31, 31⟩
abbrev CIP_CPL_POP.TAG : Fld := ⟨.CIP_CPL_POP, 27, 16⟩
abbrev CIP_CPL_POP.STATUS : Fld := ⟨.CIP_CPL_POP, 3, 0⟩
abbrev CIP_CPL_INFO.COOKIE : Fld := ⟨.CIP_CPL_INFO, 31, 0⟩
abbrev CIP_CNT_JOBS.COUNT : Fld := ⟨.CIP_CNT_JOBS, 31, 0⟩
abbrev CIP_CNT_AUTH_FAIL.COUNT : Fld := ⟨.CIP_CNT_AUTH_FAIL, 31, 0⟩
abbrev CIP_CNT_POLICY.COUNT : Fld := ⟨.CIP_CNT_POLICY, 31, 0⟩
abbrev CIP_CNT_BAD_DESC.COUNT : Fld := ⟨.CIP_CNT_BAD_DESC, 31, 0⟩
abbrev AO_SLEEP_CTL.OP : Fld := ⟨.AO_SLEEP_CTL, 3, 0⟩
abbrev AO_SLEEP_CFG.SLEEP_HOLDOFF : Fld := ⟨.AO_SLEEP_CFG, 15, 8⟩
abbrev AO_SLEEP_CFG.PH1_TO : Fld := ⟨.AO_SLEEP_CFG, 7, 0⟩
abbrev AO_SLEEP_STAT.VALID : Fld := ⟨.AO_SLEEP_STAT, 31, 31⟩
abbrev AO_SLEEP_STAT.STATE : Fld := ⟨.AO_SLEEP_STAT, 30, 28⟩
abbrev AO_SLEEP_STAT.RESULT : Fld := ⟨.AO_SLEEP_STAT, 27, 24⟩
abbrev AO_SLEEP_STAT.TARGET : Fld := ⟨.AO_SLEEP_STAT, 23, 20⟩
abbrev AO_SLEEP_REC.REASON : Fld := ⟨.AO_SLEEP_REC, 31, 24⟩
abbrev AO_SLEEP_REC.REGION : Fld := ⟨.AO_SLEEP_REC, 22, 20⟩
abbrev AO_SLEEP_REC.BLOCK : Fld := ⟨.AO_SLEEP_REC, 15, 8⟩
abbrev AO_SLEEP_REC.ABORTS : Fld := ⟨.AO_SLEEP_REC, 3, 0⟩
abbrev AO_WAKE_REC0.SOURCE : Fld := ⟨.AO_WAKE_REC0, 31, 28⟩
abbrev AO_WAKE_REC0.FROM : Fld := ⟨.AO_WAKE_REC0, 27, 26⟩
abbrev AO_WAKE_REC0.DETAIL : Fld := ⟨.AO_WAKE_REC0, 23, 16⟩
abbrev AO_WAKE_REC0.COUNT : Fld := ⟨.AO_WAKE_REC0, 15, 0⟩
abbrev AO_WAKE_REC1.SECONDS : Fld := ⟨.AO_WAKE_REC1, 31, 0⟩
abbrev AO_WAKE_REC2.NS : Fld := ⟨.AO_WAKE_REC2, 29, 0⟩
abbrev AO_WAKE_REC3.ALSO : Fld := ⟨.AO_WAKE_REC3, 31, 26⟩
abbrev AO_WAKE_FAIL.VALID : Fld := ⟨.AO_WAKE_FAIL, 31, 31⟩
abbrev AO_WAKE_FAIL.DOMAIN : Fld := ⟨.AO_WAKE_FAIL, 26, 24⟩
abbrev AO_WAKE_FAIL.STAGE : Fld := ⟨.AO_WAKE_FAIL, 1, 0⟩
abbrev AO_VF_CTL.OP : Fld := ⟨.AO_VF_CTL, 31, 28⟩
abbrev AO_VF_CTL.RAIL : Fld := ⟨.AO_VF_CTL, 20, 16⟩
abbrev AO_VF_CTL.POINT : Fld := ⟨.AO_VF_CTL, 2, 0⟩
abbrev AO_ISL_CTL.REGION : Fld := ⟨.AO_ISL_CTL, 30, 28⟩
abbrev AO_ISL_CTL.BLOCK : Fld := ⟨.AO_ISL_CTL, 27, 20⟩
abbrev AO_ISL_CTL.CELL : Fld := ⟨.AO_ISL_CTL, 19, 16⟩
abbrev AO_ISL_CTL.MHZ : Fld := ⟨.AO_ISL_CTL, 11, 0⟩
abbrev AO_VF_STAT.VALID : Fld := ⟨.AO_VF_STAT, 31, 31⟩
abbrev AO_VF_STAT.STATE : Fld := ⟨.AO_VF_STAT, 30, 28⟩
abbrev AO_VF_STAT.RESULT : Fld := ⟨.AO_VF_STAT, 27, 24⟩
abbrev AO_RAIL_STAT.ON : Fld := ⟨.AO_RAIL_STAT, 31, 31⟩
abbrev AO_RAIL_STAT.READY : Fld := ⟨.AO_RAIL_STAT, 30, 30⟩
abbrev AO_RAIL_STAT.FAULT : Fld := ⟨.AO_RAIL_STAT, 29, 29⟩
abbrev AO_RAIL_STAT.POINT : Fld := ⟨.AO_RAIL_STAT, 26, 24⟩
abbrev AO_RAIL_STAT.MV : Fld := ⟨.AO_RAIL_STAT, 11, 0⟩
abbrev WAK_EN.VIN_STABLE : Fld := ⟨.WAK_EN, 23, 8⟩
abbrev WAK_EN.SMB_ADDR : Fld := ⟨.WAK_EN, 6, 0⟩
abbrev WAK_GPIO.GPIO_FILT : Fld := ⟨.WAK_GPIO, 15, 8⟩
abbrev WAK_GPIO.ACT_HIGH : Fld := ⟨.WAK_GPIO, 7, 4⟩
abbrev WAK_GPIO.PINS : Fld := ⟨.WAK_GPIO, 3, 0⟩
abbrev WAK_WRX.WRX_DUTY : Fld := ⟨.WAK_WRX, 15, 8⟩
abbrev WAK_WRX.SRC_EN : Fld := ⟨.WAK_WRX, 5, 0⟩
abbrev WAK_WRX_ID.EN : Fld := ⟨.WAK_WRX_ID, 15, 15⟩
abbrev WAK_WRX_ID.ID : Fld := ⟨.WAK_WRX_ID, 11, 0⟩
abbrev WAK_TIMER.TICKS : Fld := ⟨.WAK_TIMER, 31, 0⟩
abbrev RGC_ERR_ADDR_LO.ADDR : Fld := ⟨.RGC_ERR_ADDR_LO, 31, 0⟩
abbrev RGC_ERR_ADDR_HI.ADDR : Fld := ⟨.RGC_ERR_ADDR_HI, 7, 0⟩
abbrev RGC_ERR_INFO.CAPT : Fld := ⟨.RGC_ERR_INFO, 31, 31⟩
abbrev RGC_ERR_INFO.OVER : Fld := ⟨.RGC_ERR_INFO, 30, 30⟩
abbrev RGC_ERR_INFO.LEVEL : Fld := ⟨.RGC_ERR_INFO, 29, 28⟩
abbrev RGC_ERR_INFO.CODE : Fld := ⟨.RGC_ERR_INFO, 27, 24⟩
abbrev RGC_ERR_INFO.REQUESTER : Fld := ⟨.RGC_ERR_INFO, 23, 16⟩
abbrev RGC_ERR_INFO.BLOCK : Fld := ⟨.RGC_ERR_INFO, 15, 8⟩
abbrev RGC_ERR_INFO.COUNT : Fld := ⟨.RGC_ERR_INFO, 7, 0⟩
abbrev RGC_ERR_TIME.STAMP : Fld := ⟨.RGC_ERR_TIME, 31, 0⟩
abbrev RGC_HANG_CFG.HANG_MAX : Fld := ⟨.RGC_HANG_CFG, 23, 16⟩
abbrev RGC_HANG_CFG.HANG_TO : Fld := ⟨.RGC_HANG_CFG, 15, 0⟩
abbrev ASH_STAT.INC_OPEN : Fld := ⟨.ASH_STAT, 31, 31⟩
abbrev ASH_STAT.OPEN_SLOT : Fld := ⟨.ASH_STAT, 30, 28⟩
abbrev ASH_STAT.USED : Fld := ⟨.ASH_STAT, 27, 20⟩
abbrev ASH_STAT.REPLACED : Fld := ⟨.ASH_STAT, 19, 12⟩
abbrev ASH_STAT.WRAPPED : Fld := ⟨.ASH_STAT, 11, 11⟩
abbrev ASH_STAT.HEAD : Fld := ⟨.ASH_STAT, 10, 0⟩
abbrev ASH_SEQ.SEQ : Fld := ⟨.ASH_SEQ, 31, 0⟩
abbrev ASH_DROPS.COUNT : Fld := ⟨.ASH_DROPS, 31, 0⟩
abbrev ASH_CFG.INC_QUIET : Fld := ⟨.ASH_CFG, 23, 16⟩
abbrev ASH_CFG.COALESCE : Fld := ⟨.ASH_CFG, 15, 8⟩
abbrev ASH_CFG.AGE_WARN : Fld := ⟨.ASH_CFG, 7, 0⟩
abbrev ASH_CTL.SLOT : Fld := ⟨.ASH_CTL, 6, 4⟩
abbrev ASH_CTL.OP : Fld := ⟨.ASH_CTL, 3, 0⟩
abbrev ASH_SEL.AREA : Fld := ⟨.ASH_SEL, 17, 16⟩
abbrev ASH_SEL.SLOT : Fld := ⟨.ASH_SEL, 14, 12⟩
abbrev ASH_SEL.INDEX : Fld := ⟨.ASH_SEL, 10, 0⟩
abbrev ASH_WIN.DATA : Fld := ⟨.ASH_WIN, 31, 0⟩
abbrev AO_AGE_STAT.VALID : Fld := ⟨.AO_AGE_STAT, 31, 31⟩
abbrev AO_AGE_STAT.WARN : Fld := ⟨.AO_AGE_STAT, 30, 30⟩
abbrev AO_AGE_STAT.SLOW : Fld := ⟨.AO_AGE_STAT, 15, 0⟩
abbrev SDS_LANE_STAT.LOCK : Fld := ⟨.SDS_LANE_STAT, 31, 31⟩
abbrev SDS_LANE_STAT.RX_INV : Fld := ⟨.SDS_LANE_STAT, 30, 30⟩
abbrev SDS_LANE_STAT.LANE_POS : Fld := ⟨.SDS_LANE_STAT, 29, 28⟩
abbrev SDS_LANE_STAT.MODE : Fld := ⟨.SDS_LANE_STAT, 27, 24⟩
abbrev SDS_LANE_STAT.EYE : Fld := ⟨.SDS_LANE_STAT, 7, 0⟩
abbrev SDS_PORT_STAT.LINK : Fld := ⟨.SDS_PORT_STAT, 31, 31⟩
abbrev SDS_PORT_STAT.AN_DONE : Fld := ⟨.SDS_PORT_STAT, 30, 30⟩
abbrev SDS_PORT_STAT.SPEED : Fld := ⟨.SDS_PORT_STAT, 29, 28⟩
abbrev SDS_PORT_STAT.MODE : Fld := ⟨.SDS_PORT_STAT, 27, 24⟩
abbrev SDS_PORT_STAT.LANES : Fld := ⟨.SDS_PORT_STAT, 23, 16⟩
abbrev SDS_CNT_FEC_CORR.COUNT : Fld := ⟨.SDS_CNT_FEC_CORR, 31, 0⟩
abbrev SDS_CNT_FEC_UNCORR.COUNT : Fld := ⟨.SDS_CNT_FEC_UNCORR, 31, 0⟩
abbrev SDS_CNT_LINK_DOWN.COUNT : Fld := ⟨.SDS_CNT_LINK_DOWN, 31, 0⟩
abbrev HL_STAT.LINK_UP : Fld := ⟨.HL_STAT, 31, 31⟩
abbrev HL_STAT.STALE_CFG : Fld := ⟨.HL_STAT, 30, 30⟩
abbrev HL_STAT.REVERSED : Fld := ⟨.HL_STAT, 29, 29⟩
abbrev HL_STAT.GEN : Fld := ⟨.HL_STAT, 28, 26⟩
abbrev HL_STAT.WIDTH : Fld := ⟨.HL_STAT, 25, 23⟩
abbrev HL_STAT.FUNCS : Fld := ⟨.HL_STAT, 11, 8⟩
abbrev HL_WIN_W0.SYS : Fld := ⟨.HL_WIN_W0, 27, 0⟩
abbrev HL_WIN_W1.BAR_OFF : Fld := ⟨.HL_WIN_W1, 23, 0⟩
abbrev HL_WIN_W2.EN : Fld := ⟨.HL_WIN_W2, 31, 31⟩
abbrev HL_WIN_W2.SIZE_LOG2 : Fld := ⟨.HL_WIN_W2, 5, 0⟩
abbrev HL_FN_ERR.CAPT : Fld := ⟨.HL_FN_ERR, 31, 31⟩
abbrev HL_FN_ERR.BAR : Fld := ⟨.HL_FN_ERR, 30, 29⟩
abbrev HL_FN_ERR.CODE : Fld := ⟨.HL_FN_ERR, 27, 24⟩
abbrev HL_FN_ERR.COUNT : Fld := ⟨.HL_FN_ERR, 7, 0⟩
abbrev SMB_STAT.ALERT : Fld := ⟨.SMB_STAT, 31, 31⟩
abbrev SMB_STAT.STUCK : Fld := ⟨.SMB_STAT, 30, 30⟩
abbrev SMB_CNT_TIMEOUT.COUNT : Fld := ⟨.SMB_CNT_TIMEOUT, 31, 0⟩
abbrev SMB_CNT_PEC.COUNT : Fld := ⟨.SMB_CNT_PEC, 31, 0⟩
abbrev SMB_CNT_BAD.COUNT : Fld := ⟨.SMB_CNT_BAD, 31, 0⟩
abbrev XIO_SPI_CTL.OP : Fld := ⟨.XIO_SPI_CTL, 31, 28⟩
abbrev XIO_SPI_CTL.LEN : Fld := ⟨.XIO_SPI_CTL, 16, 0⟩
abbrev XIO_SPI_ADDR.ADDR : Fld := ⟨.XIO_SPI_ADDR, 31, 0⟩
abbrev XIO_SPI_SYS.SYS : Fld := ⟨.XIO_SPI_SYS, 31, 0⟩
abbrev XIO_SPI_STAT.VALID : Fld := ⟨.XIO_SPI_STAT, 31, 31⟩
abbrev XIO_SPI_STAT.RESULT : Fld := ⟨.XIO_SPI_STAT, 30, 28⟩
abbrev XIO_SPI_STAT.OCTAL : Fld := ⟨.XIO_SPI_STAT, 27, 27⟩
abbrev XIO_GPIO_OUT.OUT : Fld := ⟨.XIO_GPIO_OUT, 31, 0⟩
abbrev XIO_GPIO_OE.OE : Fld := ⟨.XIO_GPIO_OE, 31, 0⟩
abbrev XIO_GPIO_IN.IN : Fld := ⟨.XIO_GPIO_IN, 31, 0⟩
abbrev XIO_GPIO_PULL.PULL : Fld := ⟨.XIO_GPIO_PULL, 31, 0⟩
abbrev XIO_GPIO_IRQ.IRQ : Fld := ⟨.XIO_GPIO_IRQ, 31, 0⟩
abbrev XIO_GPIO_EDGE.EDGE : Fld := ⟨.XIO_GPIO_EDGE, 31, 0⟩
abbrev AO_WAKE_TICKS.TICKS : Fld := ⟨.AO_WAKE_TICKS, 31, 0⟩
abbrev CAL_WIN.DATA : Fld := ⟨.CAL_WIN, 31, 0⟩
abbrev DPD_SHADOW.DATA : Fld := ⟨.DPD_SHADOW, 31, 0⟩
abbrev IDN_LOCK.DATA : Fld := ⟨.IDN_LOCK, 31, 0⟩

end Fld

end Sys2Proof.Machine
end

