-- ==== Sys2Proof/Machine/Store.lean ====
section
/-! DEFINITION. Sparse data by key: a list of (key, value) pairs in one canonical form, keys strictly rising and no entry
equal to what an unlisted key reads as, which is the function `d`. Registers and memories are held in it. -/
namespace Sys2Proof.Machine

/-- Sparse data by key. -/
abbrev Store (α : Type) := List (Nat × α)

/-- What a key reads as: its entry, or the default. -/
def sget {α : Type} (d : Nat → α) : Store α → Nat → α
  | [], k => d k
  | (k', v) :: t, k => if k' = k then v else sget d t k

/-- Put an entry first unless it is the default. -/
def scons {α : Type} [DecidableEq α] (d : Nat → α) (k : Nat) (v : α) (m : Store α) : Store α :=
  if v = d k then m else (k, v) :: m

/-- Write a key; writing the default removes the entry, so equal contents are equal lists. -/
def sset {α : Type} [DecidableEq α] (d : Nat → α) : Store α → Nat → α → Store α
  | [], k, v => scons d k v []
  | (k', v') :: t, k, v =>
    if k < k' then scons d k v ((k', v') :: t)
    else if k = k' then scons d k v t
    else (k', v') :: sset d t k v

/-- Every key of the store is above `k`. -/
def above {α : Type} (k : Nat) (m : Store α) : Bool := m.all (fun e => decide (k < e.1))

/-- The canonical form. -/
def swf {α : Type} [DecidableEq α] (d : Nat → α) : Store α → Bool
  | [] => true
  | (k, v) :: t => above k t && !decide (v = d k) && swf d t

/-- The store without the keys that `p` names; canonical form is kept. -/
def sdrop {α : Type} (p : Nat → Bool) (m : Store α) : Store α := m.filter (fun e => !p e.1)

end Sys2Proof.Machine
end

