-- ==== Sys2Proof/Machine/StBase.lean ====
section
/-! DEFINITION. The state of the shared units: the last response, what leaves the part, the event controller (R393 to
R396), the Ash log (R494 to R499), the network time unit (R352 to R374). -/
namespace Sys2Proof.Machine

/-- The response to an access (R488): requester, code, data of a read. -/
structure Resp where
  req : Req
  code : Nat
  data : Word
  deriving DecidableEq, Repr

/-- A write held by back-pressure (R20): requester, address, word, since when. -/
structure Held where
  req : Req
  addr : Nat
  word : Word
  since : Nat
  deriving DecidableEq, Repr

/-- What kind of thing leaves the part. -/
inductive OutKind where
  | msix | evtout | ppsOut | tsyncOut | lane | air | rffe | smbus | alert | host | tdo | irq | pin | packet | ptm | flash | async | psdu
  deriving DecidableEq, Repr

/-- One thing that leaves the part: its kind, its numbers and its bytes. -/
structure Out where
  kind : OutKind
  args : List Nat
  data : Bytes
  deriving DecidableEq, Repr

/-- An EVENT_ROUTE entry (R393). -/
structure EvtRoute where
  kind : Nat
  target : Nat
  vector : Nat
  func : Nat
  deriving DecidableEq, Repr

/-- The event controller and MSI-X (R394, R395, R517): routes, pending counts, first stamps, each function's MSI-X Enable and Function Mask, its table of 64
entries of four words (key 256 × function + 4 × vector + word), when each EVTOUT pin last pulsed. -/
structure Evt where
  routes : List EvtRoute
  pend : List Nat
  first : List Nat
  msixEn : List Bool
  fnMask : List Bool
  msixTable : Store Word
  pulseAt : List Nat
  deriving DecidableEq, Repr

/-- An Ash record without its CRC (R494). -/
structure AshRec where
  seq : Nat
  seconds : Nat
  ns : Nat
  type : Nat
  origin : Nat
  mode : Nat
  flags : Nat
  incident : Nat
  count : Nat
  payload : Bytes
  deriving DecidableEq, Repr

/-- A coalescing slot (R496): key, closing time, count, the last occurrence. -/
structure AshCoal where
  key : List Nat
  closes : Nat
  count : Nat
  last : AshRec
  deriving DecidableEq, Repr

/-- An incident slot (R497, R498): pinned records in order, and the summary's counts. -/
structure AshSlot where
  used : Bool
  incident : Nat
  openSeconds : Nat
  openNs : Nat
  pinned : List AshRec
  total : Nat
  order : Nat
  ovf : List Nat
  drops : List Nat
  summary : Option AshRec
  deriving DecidableEq, Repr

/-- The Ash log (R494 to R501); `ring` holds the newest record first. -/
structure Ash where
  queue : List AshRec
  coal : List AshCoal
  ring : List AshRec
  written : Nat
  slots : List AshSlot
  openSlot : Option Nat
  lastOpening : Nat
  nextIncident : Nat
  seq : Nat
  dropCount : Nat
  dropArmed : Bool
  replaced : Nat
  readyAt : Nat
  summaries : List AshRec
  deriving DecidableEq, Repr

/-- A time record in AO (R365). -/
structure TimeRec where
  raw : Nat
  k : Int
  rate : Int
  rw : Nat
  incr : Nat
  op8 : Bool
  timeState : Nat
  unc : Nat
  ratio : Nat
  slpCal : Bool
  ticks : Nat
  deriving DecidableEq, Repr

/-- A queued transmit stamp (R370): port, messageType, sequenceId, stamp. -/
structure TxStamp where
  port : Nat
  msg : Nat
  seqId : Nat
  stamp : Nat
  deriving DecidableEq, Repr

/-- The network time unit (R352 to R374): raw counter and its fraction while REFCLK is absent, offset K, committed rate,
the raw value of their last change, a slew's offset and start, the arming time, the watchdog's start, the uncertainty at
entry to HOLDOVER and since when, queued transmit stamps, the live capture stamps, armed pulses, PTM and SyncE. -/
structure Ntu where
  running : Bool
  raw : Nat
  rawFrac : Nat
  k : Int
  rate : Int
  rw : Nat
  slew : Option (Int × Nat)
  slewHeld : Int
  armedAt : Option Nat
  wdFrom : Nat
  uncBase : Nat
  uncFrom : Nat
  uncSlp : Bool
  txts : List TxStamp
  ppsStamp : Nat
  tsyncStamp : Nat
  tsyncNext : Option Int
  tsyncStart : Int
  ppsHighUntil : Nat
  ppsNext : Int
  ptmSent : Option (Nat × Nat)
  ptmEnabled : Bool
  slpMark : Option (Nat × Nat)
  deriving DecidableEq, Repr

end Sys2Proof.Machine
end

