-- ==== Sys2Proof/Machine/StBb.lean ====
section
/-! DEFINITION. The state of region BB's WLAN baseband beside its registers (R169 to R203): receivers, clear channel
assessment, the LDPC pool, sounding, radar detection. Instants are of the time since power-on in ns unless said otherwise. -/
namespace Sys2Proof.Machine

/-- A user of a received PPDU: as its user field says, its PSDU length (R181), whether it is absorbed, codewords not yet
decoded, whether a codeword failed or was dropped, whether the access controller marks it for estimation, whether an estimate was queued. -/
structure PhyUser where
  sta : Nat
  ru : Nat
  mcs : Nat
  nss : Nat
  ldpc : Bool
  stbc : Bool
  dcm : Bool
  bytes : Nat
  absorbed : Bool
  left : Nat
  err : Bool
  mark : Bool
  est : Bool
  deriving DecidableEq, Repr

/-- A preamble declared and what follows it (R174 to R184): number, RSSI in 0.25 dBm, DSSS, stamp, first sample, declaration,
contributing global paths, subchannels it was seen on, how it was reached, the signal field expected next, L-SIG RATE and
LENGTH, the computed end, format, bandwidth and guard interval codes, SNR, users, whether the access controller solicited it. -/
structure PhyRx where
  num : Nat
  rssi : Int
  dsss : Bool
  stamp : Nat
  begun : Nat
  seen : Nat
  paths : List Nat
  subs : Nat
  restarted : Bool
  captured : Bool
  stage : Nat
  rate : Nat
  length : Nat
  ends : Option Nat
  fmt : Nat
  bw : Nat
  gi : Nat
  snr : Nat
  users : List PhyUser
  solicited : Bool
  deriving DecidableEq, Repr

/-- A radar pulse (R198): subchannel, rising edge, width in 0.1 µs, chirp. -/
structure DfsPulse where
  sub : Nat
  at_ : Nat
  width : Nat
  chirp : Bool
  deriving DecidableEq, Repr

/-- A WLAN PHY (R175 to R201): receiver state (0 SEARCH, 1 PROVISIONAL, 2 COMMITTED, 3 ABSORB), its PPDU, the last preamble of the
restart detector, PPDUs whose codewords are still in the pool, status records delivered, AIDs of the last trigger sent that nothing has answered yet, holds of R178,
R179 and R182, energy and guard-interval masks, since when the primary is busy, pulses newest first, the DFS queue, CAC starts
and NOP ends by channel, and what MRAM holds of them (states, remaining NOP in ns). -/
structure Phy where
  st : Nat
  rx : Option PhyRx
  cand : Option PhyRx
  draining : List PhyRx
  delivered : List Bytes
  trigger : List Nat
  holdUntil : Nat
  holdSubs : Nat
  falseHold : Bool
  ed : Nat
  sec : Nat
  busyFrom : Option Nat
  pulses : List DfsPulse
  dfsQ : List (Word × Nat)
  cacAt : List Nat
  nopEnds : List Nat
  savedMap : List Nat
  savedNop : List Nat
  deriving DecidableEq, Repr

/-- The baseband: the PHYs, the next PPDU number, the LDPC queue per link as (PPDU, user), the codewords in the 32 decoders as (link, PPDU, user), whose turn it is and how much of its
weight is left, the reduced cap, the armed first drop, estimate descriptors, slots in use, the armed first drop, when MRAM was
last written and the sleep count then. -/
structure Bb where
  phys : List Phy
  num : Nat
  ldpcQ : List (List (Nat × Nat))
  ldpcDec : List (Option (Nat × Nat × Nat))
  turn : Nat
  credit : Nat
  capped : Bool
  ldpcArmed : Bool
  sndQ : List Word
  sndUsed : List Nat
  sndArmed : Bool
  dfsSavedAt : Nat
  dfsTicks : Nat
  deriving DecidableEq, Repr

/-- A PHY at power-up. -/
def Phy.reset : Phy :=
  { st := 0, rx := none, cand := none, draining := [], delivered := [], trigger := [], holdUntil := 0, holdSubs := 0,
    falseHold := false, ed := 0, sec := 0, busyFrom := none, pulses := [], dfsQ := [], cacAt := List.replicate 16 0,
    nopEnds := List.replicate 16 0, savedMap := List.replicate 16 0, savedNop := List.replicate 16 0 }

/-- The baseband at power-up. -/
def Bb.reset : Bb :=
  { phys := List.replicate 3 Phy.reset, num := 0, ldpcQ := [[], [], []], ldpcDec := List.replicate 32 none, turn := 0, credit := 0, capped := false,
    ldpcArmed := true, sndQ := [], sndUsed := [], sndArmed := true, dfsSavedAt := 0, dfsTicks := 0 }

end Sys2Proof.Machine
end

