-- ==== Sys2Proof/Machine/StFhu.lean ====
section
/-! DEFINITION. The state of the fronthaul unit beside its registers (R242 to R266). Instants are of network time in ns. -/
namespace Sys2Proof.Machine

/-- An accepted section for one symbol (R249): eAxC entry, whether downlink, its symbol's air time and end, PRBs, beam, sectionId,
the symbol's frame, subframe, slot and symbol numbers, whether presented with a run, of PRACH timeOffset, cpLength and frequencyOffset. -/
structure FhSec where
  entry : Nat
  dl : Bool
  t : Int
  ends : Int
  start : Nat
  num : Nat
  beam : Nat
  id : Nat
  ids : List Nat
  shown : Bool
  prach : Option (Nat × Nat × Int)
  deriving DecidableEq, Repr

/-- A slot of the symbol store (R253): index, entry, air time and end of its symbol, the symbol's numbers, PRB ranges held, whether it
was returned (R263). -/
structure FhSlot where
  idx : Nat
  entry : Nat
  t : Int
  ends : Int
  ids : List Nat
  prbs : List (Nat × Nat)
  returned : Bool
  deriving DecidableEq, Repr

/-- A run presented to the gates (R257): its number, its symbols (entry, air time, end). -/
structure FhRun where
  num : Nat
  syms : List (Nat × Int × Int)
  deriving DecidableEq, Repr

/-- The unit: sections in order of acceptance, slots, runs, next run number, last sequence IDs by 2 × entry + plane (one more than
the ID), returned slots in order, radio frames of the last events (timing, malformed, lost), the armed first store drop, the
stop (0 none, 2 NO_TIME, 3 TIME_FAULT), the next sequence ID of each entry's own messages. -/
structure Fhu where
  secs : List FhSec
  slots : List FhSlot
  runs : List FhRun
  nextRun : Nat
  seqs : Store Nat
  rets : List Nat
  marks : List (Option Int)
  armed : Bool
  stop : Nat
  ulSeqs : Store Nat
  deriving DecidableEq, Repr

/-- The unit at power-up. -/
def Fhu.reset : Fhu :=
  { secs := [], slots := [], runs := [], nextRun := 0, seqs := [], rets := [], marks := [none, none, none], armed := true, stop := 0, ulSeqs := [] }

end Sys2Proof.Machine
end

