-- ==== Sys2Proof/Machine/StPk.lean ====
section
/-! DEFINITION. The state of the packet engine (R290 to R325) and of the traffic manager (R326 to R351) beside their registers. -/
namespace Sys2Proof.Machine

/-- A packet, or a copy of one, on its way to the traffic manager or in it (R321, R326): egress port and subscriber, class, bytes without
FCS, and what a receive descriptor and a meter need: ingress port and subscriber, reason, malformed class, VRF, BD, subscriber and class of
its metadata, FLAGS, ingress stamp, ACL rule, length as received, DSCP of an IP packet, DEI of its tag; its buffer once it is queued. -/
structure PktOut where
  port : Nat
  sub : Nat
  cls : Nat
  data : List (BitVec 8)
  inPort : Nat
  inSub : Option Nat
  reason : Nat
  mal : Nat
  vrf : Nat
  bd : Nat
  msub : Nat
  mcls : Nat
  flags : Nat
  stamp : Nat
  acl : Nat
  rxLen : Nat
  dscp : Option Nat
  dei : Bool
  buf : Nat
  deriving DecidableEq, Repr

/-- A packet inside the engine: number, ingress port, pipe, bytes without FCS, whether they begin at an IP header, offset of the present
pass, passes started, state (0 ingress queue, 1 awaiting a recirculated pass, 2 in a pass, 3 awaiting a flow bucket, 4 decided), VRF, BD,
subscriber, class handed over, class, version tag, ingress stamp, length as received, verified by ESP or MACsec, ordering domain, bucket
awaited, copies to hand over. -/
structure Pkt where
  num : Nat
  port : Nat
  pipe : Nat
  data : List (BitVec 8)
  l3 : Bool
  off : Nat
  passes : Nat
  st : Nat
  vrf : Nat
  bd : Nat
  sub : Nat
  given : Option Nat
  cls : Nat
  tag : Nat
  stamp : Nat
  rxLen : Nat
  dec : Bool
  dom : Option Nat
  bucket : Nat
  dscp : Option Nat
  dei : Bool
  outs : List PktOut
  deriving DecidableEq, Repr

/-- The packet engine: tables by (bank, table, index), the draining bank, a copy under way, NAT ports bound (pool, port) and the one last
allocated by pool, cached flow entries most recently used first (index, bytes), packets in order of arrival, next number, last pass slot
and passes of the last millisecond by pipe, the port last served by pipe, ports that have sent a PAUSE, ring completions (index,
status), armed drop events by ring, seconds of the last events, the armed overload event, ESP sequence numbers accepted (SA, number),
the bucket the aging scan visits next and when it visited the last. -/
structure Pk where
  tbl : Store (List (BitVec 8))
  draining : Option Nat
  natUsed : List (Nat × Nat)
  natLast : Store Nat
  cache : List (Nat × List (BitVec 8))
  pkts : List Pkt
  next : Nat
  slotAt : List Nat
  passLog : List (Nat × Nat)
  served : List Nat
  paused : List Nat
  cpl : List (List (Nat × Nat))
  armed : List Bool
  marks : List (Option Nat)
  missArmed : Bool
  espSeen : List (Nat × Nat)
  scanned : Nat
  scanAt : Nat
  deriving DecidableEq, Repr

/-- Two token buckets of a meter, subscriber, service or port, in units of 1/8,000,000 byte, and the raw-counter value they stand at. -/
structure Bkt where
  c : Int
  e : Int
  at_ : Nat
  deriving DecidableEq, Repr

/-- A running or pending gate list of a port (R345, R346): bank, entries, cycle, base time. -/
structure GateList where
  bank : Nat
  len : Nat
  cycle : Nat
  base : Int
  deriving DecidableEq, Repr

/-- The traffic manager: tables by (table, index), packets in order of arrival, DROPS by queue, buckets by (kind 0 meter, 1 subscriber,
2 service, 3 port), the end of each service's packet on the wire and whether its gates hold everything it has, deficits and last served
of the round robins (keys 2^24 × level + owner), running and pending gate lists and the entry last in force by port, pause ends by port,
whether HIGH is armed, seconds of the last GATE_OVERSIZE event. -/
structure Tm where
  tbl : Store (List (BitVec 8))
  pkts : List PktOut
  drops : Store Nat
  bkts : List (Nat × Nat × Bkt)
  wire : Store Nat
  shut : List Nat
  deficit : Store Nat
  last : Store Nat
  oper : List (Option GateList)
  pending : List (Option (GateList × Int))
  entry : List Nat
  pauseEnd : List (Option Nat)
  high : Bool
  mark : Option Nat
  deriving DecidableEq, Repr

/-- The engine at power-up. -/
def Pk.reset : Pk :=
  { tbl := [], draining := none, natUsed := [], natLast := [], cache := [], pkts := [], next := 0, slotAt := [0, 0], passLog := [],
    served := [0, 0], paused := [], cpl := List.replicate 9 [], armed := List.replicate 9 true, marks := List.replicate 6 none,
    missArmed := true, espSeen := [], scanned := 0, scanAt := 0 }

/-- The traffic manager at power-up. -/
def Tm.reset : Tm :=
  { tbl := [], pkts := [], drops := [], bkts := [], wire := [], shut := [], deficit := [], last := [], oper := List.replicate 8 none,
    pending := List.replicate 8 none, entry := List.replicate 8 0, pauseEnd := List.replicate 8 none, high := true, mark := none }

end Sys2Proof.Machine
end

