-- ==== Sys2Proof/Machine/StPlat.lean ====
section
/-! DEFINITION. The state of the platform: structure and bring-up (R35 to R69), supplies, sleep and wake (R461 to R486),
Kiln and the cipher engines (R432 to R457), memories (R407 to R428), cores, Tally and reckoners (R378 to R403), ports
(R506 to R526). -/
namespace Sys2Proof.Machine

/-- The running structure: which regions are present, and the body of every record applied, by cord and type (R40). -/
structure PlanRec where
  cord : Nat
  type : Nat
  body : Bytes
  deriving DecidableEq, Repr

/-- What the running image fixes (R35): its first 640 bytes, its present regions and its records. -/
structure Plan where
  head : Bytes
  present : List Nat
  recs : List PlanRec
  deriving DecidableEq, Repr

/-- Where a bring-up stands (R55). -/
inductive BootPhase where
  | off
  | wakeCt
  | kiln
  | noImage
  | verify
  | cords
  | firmware
  | done
  | stopped
  deriving DecidableEq, Repr

/-- The bring-up (R52, R55, R57): phase, source (1 A, 2 B, 3 pushed), slots tried, next cord in directory order, cords
applied, restart times of the digital die, the reason a restart carries, whether Kiln has started. -/
structure Boot where
  phase : BootPhase
  src : Nat
  tried : List Nat
  cord : Nat
  applied : List Nat
  restarts : List Nat
  carried : Nat
  ctReady : Bool
  deriving DecidableEq, Repr

/-- The push stream (R58 to R63): operation (OP of AO_PUSH_CTL), target region, the requester that opened it, the bytes so far, the region under
reload (R62), whether the signed region has verified. -/
structure Push where
  op : Nat
  region : Nat
  owner : Option Req
  data : Bytes
  reloading : Option Nat
  verified : Bool
  deriving DecidableEq, Repr

/-- A domain on its way up (R471): stage 0 to 3, when the stage began, whether from Banked. -/
structure WakeRun where
  region : Nat
  stage : Nat
  since : Nat
  banked : Bool
  deriving DecidableEq, Repr

/-- A sleep request (R475, R476): target, when phase one began, blocks still to ask, blocks parked, when to retry. -/
structure SleepReq where
  target : Nat
  since : Nat
  toAsk : List (Nat × Nat)
  parked : List (Nat × Nat)
  retryAt : Option Nat
  deriving DecidableEq, Repr

/-- A voltage or frequency change in progress (R469, R470): a rail to a point, an island to a frequency; a rail that ramps may hold an island change (`mhz` not
0); `late` says that it was deferred or held. -/
structure VfChange where
  isRail : Bool
  rail : Nat
  point : Nat
  region : Nat
  block : Nat
  cell : Nat
  mhz : Nat
  late : Bool
  deriving DecidableEq, Repr

/-- An island of the plans and its present frequency (R467, R469). -/
structure Island where
  region : Nat
  block : Nat
  cell : Nat
  rail : Nat
  mhz : Nat
  deriving DecidableEq, Repr

/-- Supplies, clocks, sleep and wake (R461 to R486, R542, R549): both supplies and whether VIN_MAIN has been present since power-on; the sleep counter's base;
the time record; the domains powered and waking; the sleep request; what a sleep left; held wakes and the tick of the last wake; the thermal trip; the change
under way and the islands; the wake receiver's band; whether AO lost its power since the last bring-up, and when; time in Service and Fenced (R502), and where
each region's last aging measurement stands in it; when Lockdown is in force, whether VIN_MAIN has been lost since (R33). -/
structure Pwr where
  vinAo : Bool
  vinMain : Bool
  everMain : Bool
  refclk : Bool
  slpOn : Bool
  slpAt : Nat
  slpBase : Nat
  timeRec : Option TimeRec
  ntuRead : Bool
  powered : List Nat
  waking : List WakeRun
  sleep : Option SleepReq
  sleptFrom : Nat
  sleptMask : Nat
  sleptOn : List Nat
  commitTicks : Nat
  heldWake : List (Nat × Nat)
  lastWake : Option Nat
  wakeOpen : Bool
  thermalAt : Option Nat
  vf : Option VfChange
  islands : List Island
  wrxBand : Nat
  powerLost : Bool
  offAt : Nat
  svcNs : Nat
  svcFrom : Nat
  agedAt : List Nat
  lockLost : Bool
  deriving DecidableEq, Repr

/-- A key slot (R447): key bytes, writer's requester ID. -/
structure KeySlot where
  slot : Nat
  key : Bytes
  writer : Nat
  deriving DecidableEq, Repr

/-- An owner or authority pair (R437): ECDSA and ML-DSA public keys. -/
structure KeyPair where
  ec : Bytes
  pq : Bytes
  deriving DecidableEq, Repr

/-- A mailbox request (R443): whose copy, the system address of its 64 bytes. -/
structure MbReq where
  rq : Req
  addr : Nat
  deriving DecidableEq, Repr

/-- A completion in a 256-entry queue: index, status, cookie. -/
structure Cpl where
  tag : Nat
  status : Nat
  info : Nat
  deriving DecidableEq, Repr

/-- A job under way (R451): ring, index, the descriptor, the status it will complete with. -/
structure Job where
  ring : Nat
  index : Nat
  desc : Bytes
  status : Nat
  deriving DecidableEq, Repr

/-- Kiln, the identity store and PK.CIP (R432 to R457). -/
structure Kiln where
  owners : List (Option KeyPair)
  authority : Option KeyPair
  lock : Bytes
  mbox : List MbReq
  trngFails : Nat
  trngFailed : Bool
  reseedAt : Nat
  slots : List KeySlot
  jobs : List Job
  jobCpl : List (List Cpl)
  polSecond : Option Nat
  authSecond : Option Nat
  exports : Nat
  deriving DecidableEq, Repr

/-- An activation counted under R423: bank, rank, requester ID, whether of a real-time port, instant. -/
structure DramAct where
  bank : Nat
  rank : Nat
  rq : Nat
  rt : Bool
  at_ : Nat
  deriving DecidableEq, Repr

/-- A request waiting in a DRAM bank queue (R419, R420): its number in arrival order, bank, rank, row, whether a write, QoS
class (0 real-time, 1 bulk, 2 management), real-time port, requester ID, arrival. -/
structure DramReq where
  num : Nat
  bank : Nat
  rank : Nat
  row : Nat
  write : Bool
  cls : Nat
  port : Option Nat
  rq : Nat
  at_ : Nat
  deriving DecidableEq, Repr

/-- A throttle (R423): bank, rank, offender, its end, the last activation issued for it. -/
structure DramThrot where
  bank : Nat
  rank : Nat
  rq : Nat
  ends : Nat
  last : Nat
  deriving DecidableEq, Repr

/-- A real-time port in PANIC (R421): port, since when, whether counted late. -/
structure DramPanic where
  port : Nat
  since : Nat
  late : Bool
  deriving DecidableEq, Repr

/-- A DRAM channel (R416 to R427): queued requests in arrival order, open rows (bank, rank, row), banks in in-order mode
with the write they wait for, activations, throttles, ports in PANIC, refreshes postponed, the refresh rate the devices
ask for, the last use of each bank, the last refresh, ZQ calibration and temperature poll, keys loaded. -/
structure Dmc where
  queue : List DramReq
  nextNum : Nat
  openRows : List (Nat × Nat × Nat)
  inOrder : List (Nat × Nat × Nat)
  acts : List DramAct
  throttles : List DramThrot
  panic : List DramPanic
  refreshOwed : Nat
  refreshRate : Nat
  lastRefresh : Nat
  lastUse : List (Nat × Nat × Nat)
  lastZq : Nat
  lastTemp : Nat
  xtsKeyed : Bool
  deriving DecidableEq, Repr

/-- A packet-buffer handle in use (R379, R428): its address in 64-byte units, its length in bytes. -/
structure PktBuf where
  handle : Nat
  bytes : Nat
  deriving DecidableEq, Repr

/-- The memories beside their contents (R407 to R428): base addresses of poisoned words and lines, packet buffers in use,
the DRAM packet budget and when it was last brought up to date. -/
structure Mems where
  poisoned : List Nat
  dmc : List Dmc
  bufs : List PktBuf
  budget : Nat
  budgetAt : Nat
  deriving DecidableEq, Repr

/-- A bead in flight (R384, R389): its handle, words and where it stands. `done` holds status and result once it is done and
waits for its release; `hidden` marks an ordered delay entry that was cancelled, which releases without an entry. -/
structure Bead where
  handle : Nat
  func : Nat
  args : List Nat
  flow : Nat
  ordered : Bool
  rod : Nat
  fromEvent : Option Nat
  delayed : Bool
  seq : Nat
  stamp : Nat
  waiting : Bool
  holder : Option Req
  done : Option (Nat × Nat)
  hidden : Bool
  deriving DecidableEq, Repr

/-- A delay-list entry (R391): list, entry number, due instant of the raw counter, rounded up to the tick, and its bead. -/
structure DelayEnt where
  list : Nat
  entry : Nat
  due : Nat
  bead : Bead
  deriving DecidableEq, Repr

/-- A release entry (R390): flow, sequence, status, result. -/
structure RelEnt where
  flow : Nat
  seq : Nat
  status : Nat
  result : Nat
  deriving DecidableEq, Repr

/-- Tally (R383 to R392): beads in flight in the order they joined their rods, delay entries in the order of their due
instants, the 16 release queues, the next SEQ of each flow and how many SEQs of it are released, rods whose FULL alarm
is armed, event sources whose enqueue is stalled. -/
structure Tally where
  beads : List Bead
  delays : List DelayEnt
  rels : List (List RelEnt)
  nextSeq : Store Nat
  released : Store Nat
  fullArmed : List Nat
  stalled : List Nat
  deriving DecidableEq, Repr

/-- A reckoner loop in progress (R399): first and last instruction address, passes left. -/
structure RknLoop where
  first : Nat
  last : Nat
  left : Nat
  deriving DecidableEq, Repr

/-- A reckoner DMA outstanding (R402): system address, local word, bytes, whether outbound. -/
structure RknDma where
  sys : Nat
  word : Nat
  bytes : Nat
  outDir : Bool
  deriving DecidableEq, Repr

/-- A reckoner beside its registers and its local memory (R397): vectors of eight lanes, accumulators, pointers,
modifiers, loops from the innermost out, DMAs, words of code stored over since the last taken branch, the issue clock and
the cycle at which each vector, accumulator (for AMOV), pointer and modifier is ready, the instant of the last operation. -/
structure Rkn where
  v : List (List (BitVec 24))
  a : List (List (BitVec 56))
  p : List Nat
  m : List Nat
  loops : List RknLoop
  dmas : List RknDma
  stale : List (Nat × Word)
  cyc : Nat
  rdyV : List Nat
  rdyA : List Nat
  rdyP : List Nat
  rdyM : List Nat
  lastAt : Nat
  deriving DecidableEq, Repr

/-- The ports (R506 to R528): the host section that MRAM holds (R506) and the one presented to the host (R512), PERST# level and rise, whether
configuration requests get Request Retry Status, SMBus pointer, burst, PEC_ERR, BAD, last code and the conditions that an Alert Response has reported, the flash operation under way (OP, LEN,
ADDR, SYS), the TAP's instruction (0 IDCODE, 1 BYPASS), which ports are up (8 and 9 the fronthaul lanes). -/
structure Ports where
  hostStored : Option Bytes
  hostPresented : Option Bytes
  perst : Bool
  perstAt : Nat
  retry : Bool
  smbPtr : Nat
  smbBurst : Nat
  smbPec : Bool
  smbBad : Bool
  smbCode : Nat
  smbReported : List Nat
  spi : Option (Nat × Nat × Nat × Nat)
  tapIr : Nat
  up : List Bool
  deriving DecidableEq, Repr

end Sys2Proof.Machine
end

