-- ==== Sys2Proof/Machine/StRadio.lean ====
section
/-! DEFINITION. The state of the quadrants beside their registers: transmissions, synthesisers, front-end control,
coexistence, duty (R70 to R109), beam engine, pre-distortion, observation receivers (R110 to R143), calibration and
housekeeping (R144 to R168), re-stacks (R65 to R69). Instants are of the time since power-on in ns unless said otherwise. -/
namespace Sys2Proof.Machine

/-- A transmission presented to the gates (R82): number, source (R112 consumer code), role, Tixia channel, route slots, beams
by route slot, the protected activities it belongs to (R95 PROTECT bits), launch as an instant of network time, length in ns,
carriers as centre and bandwidth in Hz, global paths, what the source names it by, its start (network time, and ns since
power-on), the backoff of each path in 0.25 dB (R102), paths that join with 20 dB more attenuation for a retest (R105), the word of FEN_FAST_TIM of each quadrant
that it started with (R90), the stream vectors that its consumer sends (R110: by symbol, stream and tone or sample), whether the PHY marks it as 4096-QAM
(R120), subchannels that it leaves out (R172), whether TD records alone may serve it (R193). -/
structure Tx where
  id : Nat
  src : Nat
  role : Nat
  car : Nat
  routes : List Nat
  beams : List (Nat × Nat)
  prot : Nat
  launch : Int
  dur : Nat
  bands : List (Nat × Nat)
  paths : List Nat
  cookie : List Nat
  start : Option Int
  startAt : Nat
  backoffs : List (Nat × Nat)
  retest : List Nat
  tims : List Word
  vecs : List (List (List Cx))
  qam4k : Bool
  punct : Nat
  tdOnly : Bool
  deriving DecidableEq, Repr

/-- A synthesiser beside SYN_STAT (R76, R78, R84): when the present tuning began, restarts that failed, whether it waits
for the next ASYNC to start, whether it stays off after three failures. -/
structure Syn where
  since : Nat
  tries : Nat
  waiting : Bool
  dead : Bool
  deriving DecidableEq, Repr

/-- A path beside its registers: causes of MUTED and PFENCED, newest first (PATH_STAT.CAUSE codes), consecutive visits
below RL_MIN and retests at RL_MIN + 3 dB, the last good bias current, the last visit, the last retest, when its gate last
opened and whether a coexistence grant had held it, when its last transmission ended and the FEN_FAST_TIM it ended with, since when it transmits, and since
when it receives, without a break, the worse side of ACLR at the last visit. -/
structure PathSt where
  causes : List Nat
  low : Nat
  good : Nat
  bias : Nat
  visited : Nat
  retried : Nat
  gateAt : Nat
  gateCoex : Bool
  lineEnd : Nat
  lineTim : Word
  txSince : Option Nat
  rxSince : Nat
  aclr : Option Nat
  deriving DecidableEq, Repr

/-- A committed transmit filter of a route (R118): coefficients, ramp in 10 ns. -/
structure TxFilter where
  coefs : List Nat
  ramp : Nat
  deriving DecidableEq, Repr

/-- A beam record in the beam buffer (R125, R126): route, beam ID, the version in use, a version fetched for the next use,
whether a fetch is under way, the last use. -/
structure BeamRec where
  route : Nat
  id : Nat
  bytes : Option Bytes
  next : Option Bytes
  fetching : Bool
  used : Nat
  deriving DecidableEq, Repr

/-- Active and prior copies of a DPD set (R132 to R134): path, set, 64 words each; the copy pending a transmission start;
whether a revert check is due and the worse ACLR side of the last visit before the commit. -/
structure DpdSet where
  path : Nat
  set : Nat
  active : List Word
  prior : List Word
  pending : Option (List Word × Nat)
  check : Bool
  ref : Option Nat
  deriving DecidableEq, Repr

/-- A visit under way (R136, R137): path, the LO its receiver tunes to, class, start, its ring slot when it stores samples. -/
structure OrxVisit where
  path : Nat
  lo : Nat
  cls : Nat
  at_ : Nat
  slot : Option Nat
  post : Bool
  deriving DecidableEq, Repr

/-- A calibration set (R144): path, set, active and shadow copies of 32 words, the trim words (0x20, 0x24) the hardware has
applied, and the copies in force on receive and on transmit, which follow the active one at the instants of R145. -/
structure CalSet where
  path : Nat
  set : Nat
  active : List Word
  shadow : List Word
  applied : List Word
  rx : List Word
  tx : List Word
  deriving DecidableEq, Repr

/-- A calibration run (R150 to R154): its start, the temperature then, trims to apply (path, word, value), paths of its window,
tree reselections (LO, tree), the offers received by owner (0 WLAN, 1 FH, 2 Tixia), earliest start, booked window
(network time), duration in µs, forced, on demand (R149), whether a trigger has been merged into it whose contents its booked window does not hold. -/
structure CalRun where
  since : Nat
  temp : Nat
  trims : List (Nat × Nat × Word)
  paths : List Nat
  trees : List (Nat × Nat)
  offers : List (Nat × Int)
  earliest : Int
  booked : Option Int
  durUs : Nat
  forced : Bool
  demand : Bool
  again : Bool
  deriving DecidableEq, Repr

/-- Calibration of a quadrant beside its registers: sets, targets of analogue estimates (path, word, value), consecutive
rejections by (path, word), fields stopped, the run, receivers whose chain the run may still change, those whose element waits for the end of a visit
(R156), the set of the last commit with its instant (R155), until when no visit may start, trees that software chose and no window has applied yet (R157), whether CAL_TEMP.LAST has its first value, distribution-tree levels at selection (HKA codes). -/
structure Cal where
  sets : List CalSet
  targets : List (Nat × Nat × Word)
  rejects : List (Nat × Nat × Nat)
  stuck : List (Nat × Nat)
  run : Option CalRun
  elemDue : List Nat
  elemTo : List Nat
  committed : Option (Nat × Nat × Nat)
  treeTo : List (Nat × Nat)
  quietUntil : List Nat
  lastSet : Bool
  treeLevel : List (Option Nat)
  deriving DecidableEq, Repr

/-- An elastic buffer (R22, R23): whether its stream is enabled, the latency fixed at its first centring. -/
structure Ebuf where
  on : Bool
  lat : Option Nat
  deriving DecidableEq, Repr

/-- A quadrant; `balls` holds the ball that each receiver observed last (R136). -/
structure Quad where
  syns : List Syn
  paths : List PathSt
  rffeQ : List (List Word)
  rffeRsp : List Word
  polled : List Nat
  pollMiss : List Nat
  pollHit : List Nat
  trims : List Nat
  filters : List (Nat × TxFilter)
  filterNext : List (Nat × TxFilter)
  beams : List BeamRec
  beamQ : List (Nat × Nat × Nat)
  dpd : List DpdSet
  visits : List (Option OrxVisit)
  balls : List Nat
  slots : List (List Nat)
  capQ : List Nat
  stalled : List Bool
  cal : Cal
  ebufs : List Ebuf
  ready : Bool
  savedDpd : List DpdSet
  savedCal : List CalSet
  savedValid : List Nat
  deriving DecidableEq, Repr

/-- A coexistence port (R95 to R97): its inputs, when REQ rose and fell, whether it is stuck, which quadrants consent. -/
structure Coex where
  req : Bool
  pri : Bool
  bnd : Bool
  reqAt : Nat
  lowAt : Nat
  stuck : Bool
  consent : List Bool
  deriving DecidableEq, Repr

/-- An AFC grant entry (R104, R239): centre and bandwidth in kHz, EIRP and density limits, expiry in network-time
seconds. -/
structure AfcGrant where
  centre : Nat
  bw : Nat
  eirp : Int
  psd : Int
  expiry : Nat
  deriving DecidableEq, Repr

/-- A gap (R66): the quadrants involved with their target stacks, its end, whether by request, the paths and the WLAN links it affects. -/
structure Gap where
  qs : List (Nat × Nat)
  begun : Nat
  ends : Nat
  request : Bool
  affected : List Nat
  links : List Nat
  deriving DecidableEq, Repr

/-- A pending re-stack request (R68): boundary in network time, targets, GAP in µs. -/
structure Restack where
  time : Int
  qs : List (Nat × Nat)
  gap : Nat
  deriving DecidableEq, Repr

/-- Housekeeping (R162 to R167): the queue and whether the first drop has been reported, passes and suspicion, the channel that each converter completed last. -/
structure Hka where
  queue : List (Nat × Nat × Nat)
  dropped : Bool
  checkAt : Nat
  passes : List Nat
  scan : List Nat
  deriving DecidableEq, Repr

/-- The radio of the part: quadrants, transmissions presented and the next number, coexistence ports, air time by channel and bucket of 60 s (R103)
and when the newest began, AFC grants and the last serial, an install that Kiln is checking (address, when it ends), the pending re-stack, gaps, the instant of R50, reloaded quadrants that wait for it, whether a
fence waits for a gap to end (R69), the buffers of BB, housekeeping. -/
structure Radio where
  quads : List Quad
  txs : List Tx
  nextTx : Nat
  coex : List Coex
  duty : List (List Nat)
  dutyAt : Nat
  afc : List AfcGrant
  afcSerial : Nat
  afcRun : Option (Nat × Nat)
  request : Option Restack
  gaps : List Gap
  returnAt : Option Int
  awaiting : List Nat
  fallbackDue : Bool
  bbEbufs : List Ebuf
  hka : Hka
  deriving DecidableEq, Repr

/-- A synthesiser that is off. -/
def Syn.reset : Syn := { since := 0, tries := 0, waiting := false, dead := false }

/-- A path with no fault. -/
def PathSt.reset : PathSt :=
  { causes := [], low := 0, good := 0, bias := 0, visited := 0, retried := 0, gateAt := 0, gateCoex := false, lineEnd := 0, lineTim := 0, txSince := none,
    rxSince := 0, aclr := none }

/-- Calibration with nothing under way. -/
def Cal.reset : Cal :=
  { sets := [], targets := [], rejects := [], stuck := [], run := none, elemDue := [], elemTo := [], committed := none, treeTo := [], quietUntil := [0, 0],
    lastSet := false, treeLevel := [none, none] }

/-- A quadrant that is off. -/
def Quad.reset : Quad :=
  { syns := List.replicate 2 Syn.reset, paths := List.replicate 16 PathSt.reset, rffeQ := List.replicate 4 [], rffeRsp := [],
    polled := List.replicate 16 0, pollMiss := List.replicate 4 0, pollHit := List.replicate 4 0, trims := [], filters := [],
    filterNext := [], beams := [], beamQ := [], dpd := [], visits := [none, none], balls := [1, 1], slots := [[], []], capQ := [],
    stalled := [false, false], cal := Cal.reset, ebufs := List.replicate 4 ⟨false, none⟩, ready := false, savedDpd := [],
    savedCal := [], savedValid := [] }

/-- A coexistence port with no request. -/
def Coex.reset : Coex :=
  { req := false, pri := false, bnd := false, reqAt := 0, lowAt := 0, stuck := false, consent := List.replicate 4 false }

/-- The radio of a new part. -/
def Radio.reset : Radio :=
  { quads := List.replicate 4 Quad.reset, txs := [], nextTx := 0, coex := List.replicate 3 Coex.reset,
    duty := List.replicate 16 (List.replicate 60 0), dutyAt := 0, afc := [], afcSerial := 0, afcRun := none, request := none, gaps := [],
    returnAt := none, awaiting := [], fallbackDue := false, bbEbufs := List.replicate 5 ⟨false, none⟩,
    hka := { queue := [], dropped := false, checkAt := 0, passes := [0, 0], scan := [63, 63] } }

end Sys2Proof.Machine
end

