-- ==== Sys2Proof/Machine/StTxa.lean ====
section
/-! DEFINITION. The state of the Tixia modem beside its registers (R267 to R289). Instants of type Int are of network time in ns. -/
namespace Sys2Proof.Machine

/-- A preamble declared and the frame that follows it (R271 to R273): SF, RSSI in 0.25 dBm, first preamble sample, declaration (time
since power-on), how it was reached, LENGTH and RATE of its header, its computed end. -/
structure TxaRx where
  sf : Nat
  rssi : Int
  begun : Int
  seen : Nat
  restarted : Bool
  captured : Bool
  len : Nat
  rate : Nat
  ends : Int
  deriving DecidableEq, Repr

/-- A demodulator (R271): state (1 SEARCH, 2 PROVISIONAL, 3 COMMITTED, 4 ABSORB, 5 TX), its frame, other preambles declared, newest
first. -/
structure TxaDemod where
  st : Nat
  rx : Option TxaRx
  others : List TxaRx
  deriving DecidableEq, Repr

/-- An entry of the pending table (R282): index, device, payload, PORT, ENC, LIFETIME in ms, cookie, since when it waits, whether a
downlink scheduled for an uplink carries it. -/
structure TxaPend where
  idx : Nat
  dev : Nat
  data : List (BitVec 8)
  port : Nat
  enc : Bool
  life : Nat
  cookie : Nat
  since : Nat
  bound : Bool
  deriving DecidableEq, Repr

/-- A scheduled downlink (R281): number, the pending entry it carries, its MAC frame, the uplink's channel, SF, rate, CFO and END; its
window, and there the channel, SF, rate, launch and duration; whether presented to the gates. -/
structure TxaDl where
  num : Nat
  entry : Option Nat
  frame : List (BitVec 8)
  upCh : Nat
  upSf : Nat
  upRate : Nat
  cfo : Int
  ends : Int
  win : Nat
  ch : Nat
  sf : Nat
  rate : Nat
  launch : Int
  dur : Nat
  shown : Bool
  deriving DecidableEq, Repr

/-- A completion (R282): pending-table index, window, status, cookie. -/
structure TxaCpl where
  tag : Nat
  win : Nat
  status : Nat
  cookie : Nat
  deriving DecidableEq, Repr

/-- The modem: demodulators, counter table (LAST by device index, R278), pending table, scheduled downlinks in order, next number,
completions, CFO of the last accepted uplinks, newest first (R284), a correction waiting for its instant with the time it began to wait,
network-time seconds of the last events (replay, MIC failure), the armed first drop. -/
structure Txa where
  demods : List TxaDemod
  ctr : Store (BitVec 32)
  pend : List TxaPend
  sched : List TxaDl
  next : Nat
  cpl : List TxaCpl
  cfos : List Int
  due : Option (Int × Nat)
  marks : List (Option Int)
  armed : Bool
  deriving DecidableEq, Repr

/-- A demodulator that searches. -/
def TxaDemod.reset : TxaDemod := { st := 1, rx := none, others := [] }

/-- The modem at power-up. -/
def Txa.reset : Txa :=
  { demods := List.replicate 16 TxaDemod.reset, ctr := [], pend := [], sched := [], next := 0, cpl := [], cfos := [], due := none,
    marks := [none, none], armed := true }

end Sys2Proof.Machine
end

