-- ==== Sys2Proof/Machine/StWac.lean ====
section
/-! DEFINITION. The state of the WLAN access controller beside its registers (R204 to R241). -/
namespace Sys2Proof.Machine

/-- A queued frame: number, kind (0 data from the traffic manager, 1 from software, 2 beacon, 3 TWT teardown, 4 BlockAckReq), station
(0xFFFF group-addressed), links allowed to it, BSSID index, TID, length, buffer, since when it waits, retries, launch instant,
descriptor flags, ring index, cookie, sequence number and PN once assigned, the PPDU it is in, the bytes of a beacon. -/
structure WacFrame where
  num : Nat
  kind : Nat
  sid : Nat
  links : Nat
  bss : Nat
  tid : Nat
  len : Nat
  buf : Nat
  since : Nat
  retries : Nat
  launch : Option Int
  flags : Nat
  ring : Nat
  cookie : Nat
  sn : Option Nat
  pn : Option Nat
  inTx : Option Nat
  data : Bytes
  deriving DecidableEq, Repr

/-- A PPDU the controller builds (R216): kind (0 single-user, 1 MU-MIMO, 2 OFDMA, 3 basic trigger, 4 BSRP trigger, 5 CTS-to-self,
6 acknowledgement, 7 NDP (R192), 8 WUR (R193)), number, category, frames, users with their RU tones, streams of each (R211), rate in the RATE layout (for WUR in 100 bit/s), beams, airtime
in µs, a launch it is bound to, its own bitmap of punctured subchannels (R172), of an acknowledgement the TID and the sequence numbers it covers (R224). -/
structure WacPpdu where
  kind : Nat
  num : Nat
  ac : Nat
  frames : List Nat
  users : List (Nat × Nat)
  streams : List Nat
  rate : Nat
  beams : List Nat
  air : Nat
  launch : Option Int
  punct : Nat
  tid : Nat
  acks : List Nat
  deriving DecidableEq, Repr

/-- A link: its TXOP (category, end in network time, 0 for one exchange), PPDUs built and not yet handed to the PHY, the one sent,
NAV end, last TBTT, DTIM count, last BSRP, the PATHS last seen, since when it is stopped, in a gap or in a window, and the last times it was, newest first (network time). -/
structure WacLink where
  txop : Option (Nat × Int)
  due : List WacPpdu
  sent : Option WacPpdu
  nav : Int
  lastTbtt : Int
  dtim : Nat
  lastBsrp : Nat
  paths : Nat
  downSince : Option Int
  downs : List (Int × Int)
  deriving DecidableEq, Repr

/-- A received data frame on its way up: station, link, TID, sequence number, buffer handle, length, PN and key slot, whether
protected, retry bit, status record. -/
structure WacUp where
  sid : Nat
  link : Nat
  tid : Nat
  sn : Nat
  buf : Nat
  len : Nat
  pn : Nat
  key : Nat
  prot : Bool
  retry : Bool
  record : List (BitVec 8)
  deriving DecidableEq, Repr

/-- A frame held for reordering (R226): agreement, arrival, the frame. -/
structure WacHeld where
  agr : Nat
  at_ : Nat
  up : WacUp
  deriving DecidableEq, Repr

/-- The controller: tables by 4096 × table + index, frames in order, next number, links, paused subscribers and egress port,
completions, reports (SID, link, kind), time of the last report, transmit sequence numbers and PNs, last received PN, last
sequence numbers, scoreboard (agreement, number), frames held, the armed drop event,
stations awake, consecutive appearances, last SP judged, appearances (SID, SP start), windows covered (quadrant, link, W). -/
structure Wac where
  tbl : Store (List (BitVec 8))
  frames : List WacFrame
  next : Nat
  links : List WacLink
  paused : List Nat
  portPaused : Bool
  cpl : List (BitVec 32)
  bsr : List (Nat × Nat × Nat)
  reportAt : Store Nat
  txSn : Store Nat
  txPn : Store Nat
  rxPn : Store Nat
  lastSn : Store Nat
  score : List (Nat × Nat)
  held : List WacHeld
  mrxArmed : Bool
  awake : List Nat
  streak : Store Nat
  spDone : Store Nat
  seen : List (Nat × Nat)
  covered : List (Nat × Nat × Int)
  deriving DecidableEq, Repr

/-- A PPDU with nothing in it. -/
def WacPpdu.new (kind num ac air : Nat) : WacPpdu :=
  { kind := kind, num := num, ac := ac, frames := [], users := [], streams := [], rate := 0, beams := [], air := air, launch := none, punct := 0, tid := 0, acks := [] }

/-- A link that has not started. -/
def WacLink.reset : WacLink :=
  { txop := none, due := [], sent := none, nav := 0, lastTbtt := -1, dtim := 0, lastBsrp := 0, paths := 0, downSince := some 0, downs := [] }

/-- The controller at power-up. -/
def Wac.reset : Wac :=
  { tbl := [], frames := [], next := 0, links := List.replicate 3 WacLink.reset, paused := [], portPaused := false, cpl := [],
    bsr := [], reportAt := [], txSn := [], txPn := [], rxPn := [], lastSn := [], score := [], held := [], mrxArmed := true,
    awake := [], streak := [], spDone := [], seen := [], covered := [] }

end Sys2Proof.Machine
end

