-- ==== Sys2Proof/Machine/State.lean ====
section
/-! DEFINITION. The state of the part: the queue of commands, every register, memory, and the state of every unit; the
faults and refusals; the state at power-on. -/
namespace Sys2Proof.Machine

/-- Faults. No command of this block ends in one: an access that is not performed answers a response code (R488) in a next
state. `noFault` stands for "no fault exists"; no meaning raises it, so it is safe. -/
inductive Fault where
  | noFault
  deriving DecidableEq, Repr

/-- Refusals. `notModelled` is raised by the arm of a command that has no meaning yet (safe: nothing is proved of it). -/
inductive Refusal where
  | notModelled (mnemonic : String)
  deriving DecidableEq, Repr

/-- The state of the part. `now` is the time since VIN_AO came, in ns; `free` counts the free values taken; `resp` is the
response to the last access; `held` the writes that back-pressure holds;
`timeouts` the TIMEOUT responses of the last millisecond by region, block and instant (R491); `outs` is what has left the part, newest first; `regs` holds every register word that differs
from its reset word, by address; `mem` is system memory and `flash` the xSPI flash, byte by byte. -/
structure State where
  pending : List Instr
  now : Nat
  free : Nat
  resp : Option Resp
  held : List Held
  timeouts : List (Nat × Nat × Nat)
  outs : List Out
  regs : Store Word
  mem : Store Byte
  flash : Store Byte
  evt : Evt
  ash : Ash
  ntu : Ntu
  plan : Plan
  boot : Boot
  push : Push
  pwr : Pwr
  kiln : Kiln
  mems : Mems
  tly : Tally
  rkns : List Rkn
  ports : Ports
  radio : Radio
  bb : Bb
  wac : Wac
  fhu : Fhu
  txa : Txa
  pk : Pk
  tm : Tm
  deriving DecidableEq, Repr

/-- The event controller with nothing routed or pending. -/
def Evt.reset : Evt :=
  { routes := [], pend := List.replicate 256 0, first := List.replicate 256 0,
    msixEn := List.replicate 8 false, fnMask := List.replicate 8 false, msixTable := [], pulseAt := List.replicate 4 0 }

/-- An incident slot that has never been used (R497). -/
def AshSlot.reset : AshSlot :=
  { used := false, incident := 0, openSeconds := 0, openNs := 0, pinned := [], total := 0, order := 0,
    ovf := List.replicate 32 0, drops := List.replicate 8 0, summary := none }

/-- The Ash log of a new part: nothing written, SEQ 0, the first incident is number 1. -/
def Ash.reset : Ash :=
  { queue := [], coal := [], ring := [], written := 0, slots := List.replicate 8 AshSlot.reset, openSlot := none,
    lastOpening := 0, nextIncident := 1, seq := 0, dropCount := 0, dropArmed := true, replaced := 0, readyAt := 0, summaries := [] }

/-- The network time unit before CT first powers up: raw counter 0, network time 0, UNLOCKED (R352, R353). -/
def Ntu.reset : Ntu :=
  { running := false, raw := 0, rawFrac := 0, k := 0, rate := 0, rw := 0, slew := none, slewHeld := 0, armedAt := none, wdFrom := 0,
    uncBase := 0, uncFrom := 0, uncSlp := false, txts := [], ppsStamp := 0, tsyncStamp := 0,
    tsyncNext := none, tsyncStart := 0, ppsHighUntil := 0, ppsNext := 0, ptmSent := none, ptmEnabled := false,
    slpMark := none }

/-- No image applied. -/
def Plan.reset : Plan := { head := [], present := [], recs := [] }

/-- No bring-up under way. -/
def Boot.reset : Boot :=
  { phase := .off, src := 0, tried := [], cord := 0, applied := [], restarts := [], carried := 0,
    ctReady := false }

/-- No stream open. -/
def Push.reset : Push :=
  { op := 0, region := 0, owner := none, data := [], reloading := none, verified := false }

/-- VIN_AO present, VIN_MAIN not yet; the sleep oscillator has not ticked (R33, R461, R549). -/
def Pwr.reset : Pwr :=
  { vinAo := true, vinMain := false, everMain := false, refclk := true, slpOn := false, slpAt := 0, slpBase := 0,
    timeRec := none, ntuRead := false, powered := [7], waking := [], sleep := none, sleptFrom := 0, sleptMask := 0,
    sleptOn := [], commitTicks := 0, heldWake := [], lastWake := none, wakeOpen := false, thermalAt := none, vf := none,
    islands := [], wrxBand := 0, powerLost := false, offAt := 0,
    svcNs := 0, svcFrom := 0, agedAt := List.replicate 8 0, lockLost := false }

/-- A BLANK part: no keys, no lock, no slot (R2). -/
def Kiln.reset : Kiln :=
  { owners := List.replicate 4 none, authority := none, lock := [], mbox := [], trngFails := 0, trngFailed := false,
    reseedAt := 0, slots := [], jobs := [], jobCpl := List.replicate 4 [], polSecond := none, authSecond := none, exports := 0 }

/-- A DRAM channel before training. -/
def Dmc.reset : Dmc :=
  { queue := [], nextNum := 0, openRows := [], inOrder := [], acts := [], throttles := [], panic := [], refreshOwed := 0,
    refreshRate := 1, lastRefresh := 0, lastUse := [], lastZq := 0, lastTemp := 0, xtsKeyed := false }

/-- The memories with nothing poisoned and no handle in use; the packet budget is full. -/
def Mems.reset : Mems :=
  { poisoned := [], dmc := List.replicate 2 Dmc.reset, bufs := [], budget := 65536, budgetAt := 0 }

/-- Tally with no bead. -/
def Tally.reset : Tally :=
  { beads := [], delays := [], rels := List.replicate 16 [], nextSeq := [], released := [], fullArmed := List.range 16,
    stalled := [] }

/-- A reckoner at power-up. -/
def Rkn.reset : Rkn :=
  { v := List.replicate 16 (List.replicate 8 0), a := List.replicate 4 (List.replicate 8 0), p := List.replicate 8 0,
    m := List.replicate 8 0, loops := [], dmas := [], stale := [], cyc := 0, rdyV := List.replicate 16 0,
    rdyA := List.replicate 4 0, rdyP := List.replicate 8 0, rdyM := List.replicate 8 0, lastAt := 0 }

/-- The ports before any use. -/
def Ports.reset : Ports :=
  { hostStored := none, hostPresented := none, perst := false, perstAt := 0, retry := false, smbPtr := 0, smbBurst := 1, smbPec := false,
    smbBad := false, smbCode := 0, smbReported := [], spi := none, tapIr := 0,
    up := List.replicate 10 false }

/-- The part at power-on as it leaves the factory (R2, R33), in the row that AO_STATUS's reset value names: VIN_MAIN is present, and AO wakes CT
(DESIGN CHOICE, notes/assumptions/2.md). -/
def State.reset : State :=
  { pending := [], now := 0, free := 0, resp := none, held := [], timeouts := [], outs := [], regs := [], mem := [], flash := [], evt := Evt.reset,
    ash := Ash.reset, ntu := Ntu.reset, plan := Plan.reset, boot := { Boot.reset with phase := .wakeCt }, push := Push.reset,
    pwr := { Pwr.reset with vinMain := true, everMain := true, waking := [⟨6, 0, 0, false⟩] },
    kiln := Kiln.reset, mems := Mems.reset, tly := Tally.reset, rkns := List.replicate 32 Rkn.reset,
    ports := Ports.reset, radio := Radio.reset, bb := Bb.reset, wac := Wac.reset, fhu := Fhu.reset, txa := Txa.reset,
    pk := Pk.reset, tm := Tm.reset }

end Sys2Proof.Machine
end

