-- ==== Sys2Proof/Machine/Ops.lean ====
section
/-! DEFINITION. The named operations over registers, memory, what leaves the part and free values. Every read and write of
a register goes through `State.reg` and `State.setReg`. -/
namespace Sys2Proof.Machine

/-- Offset of an instance of a register from its base: stride times index for each of its indexes (R3). -/
def Reg.off (r : Reg) (ix : List Nat) : Nat := ((r.dims.zip ix).map (fun e => e.1.1 * e.2)).sum

/-- Address of an instance of a register (R3). -/
def Reg.addr (r : Reg) (ix : List Nat) : Nat := r.base + r.off ix

/-- The indexes that an offset from a register's base spells, when it is an instance. -/
def locate : List (Nat × Nat) → Nat → Option (List Nat)
  | [], o => if o = 0 then some [] else none
  | (st, n) :: t, o => if o / st < n then (locate t (o % st)).map (o / st :: ·) else none

/-- The instance of register `r` at an address. -/
def Reg.at? (r : Reg) (a : Nat) : Option (Reg × List Nat) :=
  if r.base ≤ a then (locate r.dims (a - r.base)).map (fun ix => (r, ix)) else none

/-- The register at an address, with its indexes (R4). -/
def findReg (a : Nat) : Option (Reg × List Nat) := (Reg.inBlock (a / 0x10000)).findSome? (fun r => r.at? a)

/-- Reset word of a register instance: the heading's, with those that differ by instance. -/
def Reg.resetAt (r : Reg) (ix : List Nat) : Word :=
  match r, ix with
  | .HKA_CH, [_, n] => if n < 48 then 0x80000404 else if n < 63 then 0x404 else 0
  | .WAC_EDCA, [_, ac] => if ac = 0 then 0x7A40 else if ac = 1 then 0x3640 else if ac = 2 then 0x5E1430 else 0x2F1320
  | .DPD_SHADOW, [_, _, _, n] => if n = 0 then 0x10101 else if n = 8 then 0x4000 else 0
  | _, _ => r.reset

/-- Key of a register instance in a copy (0 the shared one): the register's number, and 1024 times its offset with the copy above it. -/
def regKey (c : Nat) (r : Reg) (ix : List Nat) : Nat := r.ctorIdx + 1024 * (r.off ix + c * 0x8000000)

/-- The register of a key. -/
def keyReg (k : Nat) : Reg := Reg.ofNat (k % 1024)

/-- The address of a key's register instance. -/
def keyAddr (k : Nat) : Nat := (keyReg k).base + k / 1024 % 0x8000000

/-- Reset word at a register key. -/
def resetWord (k : Nat) : Word :=
  match locate (keyReg k).dims (k / 1024 % 0x8000000) with
  | some ix => (keyReg k).resetAt ix
  | none => 0

/-- A register word. -/
def State.reg (s : State) (r : Reg) (ix : List Nat := []) (c : Nat := 0) : Word := sget resetWord s.regs (regKey c r ix)

/-- Write a register word. -/
def State.setReg (s : State) (r : Reg) (ix : List Nat) (v : Word) (c : Nat := 0) : State :=
  { s with regs := sset resetWord s.regs (regKey c r ix) v }

/-- A field of a register. -/
def State.get (s : State) (f : Fld) (ix : List Nat := []) (c : Nat := 0) : Nat := wbits (s.reg f.reg ix c) f.hi f.lo

/-- A one-bit field of a register. -/
def State.flag (s : State) (f : Fld) (ix : List Nat := []) (c : Nat := 0) : Bool := s.get f ix c != 0

/-- Write a field of a register. -/
def State.set (s : State) (f : Fld) (ix : List Nat) (v : Nat) (c : Nat := 0) : State :=
  s.setReg f.reg ix (wset (s.reg f.reg ix c) f.hi f.lo v) c

/-- Write several fields of one register. -/
def State.sets (s : State) (ix : List Nat) (l : List (Fld × Nat)) : State := l.foldl (fun t e => t.set e.1 ix e.2) s

/-- Bits of a Bool. -/
def b2n (b : Bool) : Nat := if b then 1 else 0

/-- Add to a counter field that saturates at its width. -/
def State.bump (s : State) (f : Fld) (ix : List Nat := []) (n : Nat := 1) : State :=
  s.set f ix (satAdd (2 ^ (f.hi + 1 - f.lo) - 1) (s.get f ix) n)

/-- Increment a 32-bit event counter, which saturates (R7). -/
def State.inc (s : State) (r : Reg) (ix : List Nat := []) : State := s.bump ⟨r, 31, 0⟩ ix

/-- Add to a 32-bit event counter, which saturates. -/
def State.incBy (s : State) (r : Reg) (ix : List Nat) (n : Nat) : State := s.bump ⟨r, 31, 0⟩ ix n

/-- Region and block number of a register key, whichever the copy. -/
def keyRegion (k : Nat) : Nat := keyAddr k / 0x1000000
@[inherit_doc keyRegion] def keyBlock (k : Nat) : Nat := keyAddr k % 0x1000000 / 0x10000

/-- Every register of a set of keys back at its reset word. -/
def State.resetRegs (s : State) (p : Nat → Bool) : State := { s with regs := sdrop p s.regs }

/-! Memory -/

/-- What a byte of system memory that nothing has written reads as (DESIGN CHOICE, notes/assumptions/3.md). -/
def memDefault (_ : Nat) : Byte := 0

/-- What a byte of flash that nothing has written reads as (PRESUMED, notes/assumptions/4.md). -/
def flashDefault (_ : Nat) : Byte := 0xFF

/-- One byte of system memory. -/
def State.byte (s : State) (a : Nat) : Byte := sget memDefault s.mem a

/-- `n` bytes of system memory. -/
def State.bytes (s : State) (a n : Nat) : Bytes := (List.range n).map (fun i => s.byte (a + i))

/-- A little-endian number of `n` bytes of system memory. -/
def State.num (s : State) (a n : Nat) : Nat := leNat (s.bytes a n)

/-- Bytes laid into a store from an address. -/
def sputs (d : Nat → Byte) : Store Byte → Nat → Bytes → Store Byte
  | m, _, [] => m
  | m, a, b :: t => sputs d (sset d m a b) (a + 1) t

/-- Write bytes to system memory. -/
def State.put (s : State) (a : Nat) (bs : Bytes) : State := { s with mem := sputs memDefault s.mem a bs }

/-- One byte of flash. -/
def State.fbyte (s : State) (a : Nat) : Byte := sget flashDefault s.flash a

/-- `n` bytes of flash. -/
def State.fbytes (s : State) (a n : Nat) : Bytes := (List.range n).map (fun i => s.fbyte (a + i))

/-- Write bytes to flash. -/
def State.fput (s : State) (a : Nat) (bs : Bytes) : State := { s with flash := sputs flashDefault s.flash a bs }

/-- The store without the keys from `a` up to, not including, `b`. -/
def State.memDrop (s : State) (a b : Nat) : State := { s with mem := sdrop (fun k => decide (a ≤ k ∧ k < b)) s.mem }

/-! What leaves the part, and free values -/

/-- A condition of R521 has ended: an Alert Response that reported it says nothing of its return (0 none, 1 BRINGUP_FAIL, 2 Lockdown, 3 FENCE_MASK, 4 an
open incident; DEDUCED, notes/assumptions/66.md). -/
def State.alertForget (s : State) (k : Nat) : State :=
  { s with ports := { s.ports with smbReported := s.ports.smbReported.filter (· != k) } }

/-- Something leaves the part. -/
def State.emit (s : State) (k : OutKind) (args : List Nat) (data : Bytes := []) : State :=
  { s with outs := ⟨k, args, data⟩ :: s.outs }

/-- Take a free value: the number it is drawn with, and the state with the counter advanced. -/
def State.fresh (s : State) : Nat × State := (s.free, { s with free := s.free + 1 })

/-! The plan: what the running image fixes (R35, R40) -/

/-- Body of the last record of a type applied from a cord. -/
def State.body? (s : State) (cord type : Nat) : Option Bytes :=
  (s.plan.recs.find? (fun r => r.cord == cord && r.type == type)).map (·.body)

/-- Body of a record, empty when the cord holds none. -/
def State.body (s : State) (cord type : Nat) : Bytes := (s.body? cord type).getD []

/-- Bodies of every record of a type of a cord, in order. -/
def State.bodies (s : State) (cord type : Nat) : List Bytes :=
  (s.plan.recs.filter (fun r => r.cord == cord && r.type == type)).map (·.body)

/-! Modes (R30, R33) -/

/-- AO_STATUS.MODE. -/
def State.mode (s : State) : Nat := s.get Fld.AO_STATUS.MODE

/-- Region `r` is fenced. -/
def State.fenced (s : State) (r : Nat) : Bool := bitOf (s.get Fld.AO_STATUS.FENCE_MASK) r

/-- The running image holds region `r`'s cord, or the region is CT or AO (R30). -/
def State.present (s : State) (r : Nat) : Bool := r == 6 || r == 7 || s.plan.present.contains r

/-- Region `r` runs: its cord is applied and it is powered, not fenced and not under reload. -/
def State.running (s : State) (r : Nat) : Bool :=
  s.boot.applied.contains r && s.pwr.powered.contains r && !s.fenced r && s.push.reloading != some r

/-- Service or Fenced: the modes in which the part's engines run. -/
def State.serving (s : State) : Bool := s.mode == 3 || s.mode == 4

/-- Region `r`'s engines run: it runs, in a mode that has it on. -/
def State.active (s : State) (r : Nat) : Bool := s.running r && (s.serving || s.mode == 1)

end Sys2Proof.Machine
end

