-- ==== Sys2Proof/Machine/Time.lean ====
section
/-! DEFINITION. Network time, stamps, launch times and the sleep counter as other units read them (R352 to R356, R365,
R549). -/
namespace Sys2Proof.Machine

/-- The correction of the rate since the last fold (R353; R364 in OP-8 mode), in ns. -/
def rateCorr (op8 : Bool) (rate : Int) (incr d : Nat) : Int :=
  if op8 then ((incr : Int) - 2 ^ 24) * d / 2 ^ 24 else rate * d / 2 ^ 48

/-- The part of a slew of offset `off` absorbed after `d` ns at `ppm` (R359). -/
def slewPart (off : Int) (ppm d : Nat) : Int :=
  if off < 0 then -(min off.natAbs (ppm * d / 1000000) : Nat) else (min off.natAbs (ppm * d / 1000000) : Nat)

/-- The part of the running slew absorbed so far. -/
def State.slewDone (s : State) : Int :=
  match s.ntu.slew with
  | some (off, start) => slewPart off (s.get Fld.NTU_CFG.SLEW_PPM) (s.ntu.raw - start)
  | none => 0

/-- Network time in total ns (R353, R359, R364). -/
def State.netTime (s : State) : Int :=
  (s.ntu.raw : Int) + s.ntu.k
    + rateCorr (s.flag Fld.NTU_CFG.OP8) s.ntu.rate (s.reg .NTU_OP8_INCR).toNat (s.ntu.raw - s.ntu.rw) + s.slewDone

/-- The present stamp: network time mod 2^32 (R354). -/
def State.stamp (s : State) : Nat := (s.netTime % 2 ^ 32).toNat

/-- The instant a launch time names, judged now; `none` when it is past (R356). -/
def State.launch (s : State) (l : Nat) : Option Int :=
  if ((l : Int) - s.netTime) % 2 ^ 32 ≤ 2 ^ 31 then some (s.netTime + ((l : Int) - s.netTime) % 2 ^ 32) else none

/-- The same instant as a value of the raw counter. -/
def State.launchRaw (s : State) (l : Nat) : Option Nat :=
  (s.launch l).map (fun t => s.ntu.raw + (t - s.netTime).toNat)

/-- The sleep counter: ticks of 32.768 kHz made (R549). -/
def State.slpTicks (s : State) : Nat :=
  if s.pwr.slpOn then s.pwr.slpBase + (s.now - s.pwr.slpAt) * 32768 / 1000000000 else s.pwr.slpBase

/-- Time computed by AO from a time record and the ticks since (R365). -/
def TimeRec.time (t : TimeRec) (ticks : Nat) : Int :=
  ((t.raw + (ticks - t.ticks) * t.ratio / 65536 : Nat) : Int) + t.k
    + rateCorr t.op8 t.rate t.incr (t.raw + (ticks - t.ticks) * t.ratio / 65536 - t.rw)

/-- The time of an Ash record, and whether AO computed it (R494): without a time record, 0. -/
def State.ashTime (s : State) : Int × Bool :=
  if s.ntu.running && s.pwr.ntuRead then (s.netTime, false)
  else match s.pwr.timeRec with
    | some t => (t.time s.slpTicks, true)
    | none => (0, true)

/-- NTU_STATUS.TIME_STATE: 0 UNLOCKED, 1 LOCKED, 2 HOLDOVER. -/
def State.timeState (s : State) : Nat := s.get Fld.NTU_STATUS.TIME_STATE

/-- NTU_UNC as it reads now (R362). -/
def State.unc (s : State) : Nat :=
  if s.timeState = 0 then 0xFFFFFFFF
  else if s.timeState = 1 then (s.reg .NTU_LOCK_UNC).toNat
  else min 0xFFFFFFFF (s.ntu.uncBase +
    (if s.ntu.uncSlp then (s.ntu.raw - s.ntu.uncFrom) * s.get Fld.NTU_HOLD_CFG.SLP_PPM / 1000000
     else (s.ntu.raw - s.ntu.uncFrom) * s.get Fld.NTU_HOLD_CFG.HOLD_PPB / 1000000000))

end Sys2Proof.Machine
end

