-- ==== Sys2Proof/Machine/Flags.lean ====
section
/-! DEFINITION. Event sources and their delivery (R9, R393 to R395, R517), and the VALID flag of result registers
(R25). -/
namespace Sys2Proof.Machine

/-- The event controller runs (R405): from the CT cord of a bring-up on, in Banked, Service and Fenced. -/
def State.evtRuns (s : State) : Bool :=
  (s.serving || s.mode == 2 || (s.mode == 1 && s.boot.applied.contains 6)) && s.pwr.powered.contains 6

/-- The route of a source; KIND 0 when the image gives none (R393). -/
def State.route (s : State) (e : Nat) : EvtRoute := (s.evt.routes[e]?).getD ⟨0, 0, 0, 0⟩

/-- PEND of a source (R394). -/
def State.pend (s : State) (e : Nat) : Nat := (s.evt.pend[e]?).getD 0

/-- FIRST of a source (R394). -/
def State.firstStamp (s : State) (e : Nat) : Nat := (s.evt.first[e]?).getD 0

/-- The source's bit is set in EVT_MASK (R394). -/
def State.evtMasked (s : State) (e : Nat) : Bool := bitOf (s.reg .EVT_MASK [e / 32]).toNat (e % 32)

/-- Set PEND of a source. -/
def State.setPend (s : State) (e n : Nat) : State := { s with evt := { s.evt with pend := s.evt.pend.set e n } }

/-- A word of an MSI-X table that nothing has written: every vector is masked after a reset of its function, as PCI Express has it (PRESUMED,
notes/assumptions/66.md). -/
def msixDefault (k : Nat) : Word := if k % 4 = 3 then 1 else 0

/-- Word `w` of entry `v` of function `f`'s MSI-X table (R513, R517): address, upper address, data, vector control. -/
def State.msixWord (s : State) (f v w : Nat) : Word := sget msixDefault s.evt.msixTable (256 * f + 4 * v + w)

/-- MSI-X of function `f` may send vector `v` now (R517). -/
def State.msixOpen (s : State) (f v : Nat) : Bool :=
  (s.evt.msixEn[f]?).getD false && !(s.evt.fnMask[f]?).getD false && wbits (s.msixWord f v 3) 0 0 == 0

/-- The message of a vector: its address and data. -/
def State.msixSend (s : State) (f v : Nat) : State :=
  s.emit .msix [f, v, (s.msixWord f v 0).toNat + 2 ^ 32 * (s.msixWord f v 1).toNat, (s.msixWord f v 2).toNat]

/-- Count an edge of a source: PEND saturates at 255, and an edge that finds it 0 stamps FIRST (R394). -/
def State.countEdge (s : State) (e : Nat) : State :=
  let s1 := if s.pend e = 0 then { s with evt := { s.evt with first := s.evt.first.set e s.stamp } } else s
  s1.setPend e (satAdd 255 (s.pend e) 1)

/-- One pulse on an EVTOUT pin, at least 1 µs after the end of the last (R395, KIND 5). -/
def State.evtPulse (s : State) (p : Nat) : State :=
  let t := max s.now ((s.evt.pulseAt[p]?).getD 0)
  { s.emit .evtout [p, t] with evt := { s.evt with pulseAt := s.evt.pulseAt.set p (t + 2000) } }

/-- Deliver a source whose edge has just been counted; `was` is PEND before the edge (R395). -/
def State.deliver (s : State) (e was : Nat) : State :=
  let r := s.route e
  if s.evtMasked e then s
  else if r.kind = 4 then
    if was = 0 ∧ s.msixOpen r.target r.vector then s.msixSend r.target r.vector else s
  else if r.kind = 5 ∧ bitOf (s.get Fld.EVT_EVTOUT_CFG.PULSE) r.target then (s.evtPulse r.target).setPend e 0
  else s

/-- An edge from an event source (R394, R395). Rod delivery (KIND 1) is EVENT_BEAD; interrupts (KIND 2 and 3) and level
pins are levels over PEND. -/
def State.raise (s : State) (e : Nat) : State :=
  if s.evtRuns then (s.countEdge e).deliver e (s.pend e) else s

/-- Event number (R9). -/
def ev (region i : Nat) : Nat := region * 32 + i

/-- The external interrupt of application core `n` (KIND 2) or region core `n` (KIND 3) is asserted (R395). -/
def State.irqLevel (s : State) (kind n : Nat) : Bool :=
  (List.range 256).any (fun e => (s.route e).kind == kind && (s.route e).target == n && s.pend e != 0 && !s.evtMasked e)

/-- EVTOUT pin `p` in level mode is active (R395, KIND 5). -/
def State.evtoutLevel (s : State) (p : Nat) : Bool := s.irqLevel 5 p

/-- A new operation that writes a result register has started: VALID clears (R25). -/
def State.pendResult (s : State) (r : Reg) (ix : List Nat := []) (c : Nat := 0) : State := s.set ⟨r, 31, 31⟩ ix 0 c

/-- Commit a result word with VALID set (R25). -/
def State.commit (s : State) (r : Reg) (ix : List Nat) (v : Nat) (c : Nat := 0) : State :=
  s.setReg r ix (w32 (setBits v 31 31 1)) c

/-- A read of a result register: counted in the region's RGC_EARLY_READ while VALID is 0; the counter's saturation raises
EARLY_READ_SAT (R25, R29). -/
def State.earlyRead (s : State) (region : Nat) : State :=
  let n := s.get Fld.RGC_EARLY_READ.COUNT [region]
  let s1 := s.inc .RGC_EARLY_READ [region]
  if n = 0xFFFFFFFE then s1.raise (ev 6 1) else s1

end Sys2Proof.Machine
end

