-- ==== Sys2Proof/Machine/AshOps.lean ====
section
/-! DEFINITION. The Ash log (R494 to R503): records, coalescing, the queue, incidents and their slots, summaries, the
window. -/
namespace Sys2Proof.Machine

/-- `n` zero bytes after a payload, to 40 in all. -/
def ashPad (p : Bytes) : Bytes := slice p 0 40

/-- Record types that open an incident (R495). -/
def ashOpens (type : Nat) (p : Bytes) : Bool :=
  let b := leAt p 0 1
  type == 2 || (type == 4 && b != 0) || type == 5 || type == 7 || (type == 8 && (b == 0 || b == 1 || b == 3))
    || type == 9 || (type == 0x0E && (b == 0 || b == 1))

/-- A record as it is reported, before SEQ, INCIDENT and PINNED (R494). -/
def State.ashMake (s : State) (type origin : Nat) (p : Bytes) : AshRec :=
  let t := s.ashTime
  { seq := 0, seconds := (t.1 / 1000000000 % 2 ^ 32).toNat, ns := (t.1 % 1000000000).toNat, type := type, origin := origin,
    mode := s.mode + 16 * s.timeState, flags := if t.2 then 4 else 0, incident := 0, count := 1, payload := ashPad p }

/-- The coalescing key (R496): of a FAULT, TYPE, REGION, BLOCK, CODE and REQUESTER; of any other type, TYPE and ORIGIN. -/
def ashKey (r : AshRec) : List Nat :=
  if r.type = 1 then [1, leAt r.payload 11 1, leAt r.payload 12 1, leAt r.payload 9 1, leAt r.payload 8 1]
  else [r.type, r.origin]

/-- Drop a record that finds the queue full (R496). -/
def State.ashDrop (s : State) (r : AshRec) : State :=
  let a := s.ash
  let slots := match a.openSlot with
    | some i => updAt a.slots i (fun sl => { sl with drops := updAt sl.drops (r.origin / 32) (fun n => satAdd 0xFFFFFFFF n 1) })
    | none => a.slots
  let s1 := { s with ash := { a with dropCount := satAdd 0xFFFFFFFF a.dropCount 1, dropArmed := false, slots := slots } }
  if a.dropArmed then s1.raise (ev 7 14) else s1

/-- Put a record into the 128-entry queue; sixteen entries are for records of opening types (R496). -/
def State.ashPut (s : State) (r : AshRec) : State :=
  if s.ash.queue.length < (if ashOpens r.type r.payload then 128 else 112) then
    { s with ash := { s.ash with queue := s.ash.queue ++ [r] } }
  else s.ashDrop r

/-- Report a record: coalesced into an open window of its key, or queued and opening one (R496). -/
def State.ashAdd (s : State) (type origin : Nat) (p : Bytes) : State :=
  let r := s.ashMake type origin p
  let k := ashKey r
  let win := s.get Fld.ASH_CFG.COALESCE
  if s.ash.coal.any (fun c => c.key == k) then
    { s with ash := { s.ash with coal := s.ash.coal.map (fun c => if c.key == k then { c with count := c.count + 1, last := r } else c) } }
  else if win = 0 || 64 ≤ s.ash.coal.length then s.ashPut r
  else ({ s with ash := { s.ash with coal := s.ash.coal ++ [AshCoal.mk k (s.now + win * 100000000) 0 r] } }).ashPut r

/-- Close one coalescing window: a count above 0 is queued as one record of the last occurrence (R496). -/
def State.ashFlush (s : State) (c : AshCoal) : State :=
  if c.count = 0 then s
  else s.ashPut { c.last with count := min c.count 65535, flags := c.last.flags + 2 }

/-- Close every coalescing window (R496, R503). -/
def State.ashFlushAll (s : State) : State :=
  s.ash.coal.foldl (fun t c => t.ashFlush c) { s with ash := { s.ash with coal := [] } }

/-- The slot a new incident takes (R497), and whether it replaces an unreleased incident. -/
def ashPick (slots : List AshSlot) : Nat × Bool :=
  match firstBelow 8 (fun i => !((slots[i]?).getD AshSlot.reset).used) with
  | some i => (i, false)
  | none =>
    ((List.range 4).foldl (fun b i =>
        if ((slots[i + 4]?).getD AshSlot.reset).order < ((slots[b]?).getD AshSlot.reset).order then i + 4 else b) 4, true)

/-- Open an incident with a record (R497). -/
def State.ashOpenIncident (s : State) (r : AshRec) : State :=
  let a := s.ash
  let p := ashPick a.slots
  let sl : AshSlot := { AshSlot.reset with used := true, incident := a.nextIncident, openSeconds := r.seconds,
                                           openNs := r.ns, order := a.seq }
  ({ s with ash := { a with slots := a.slots.set p.1 sl, openSlot := some p.1, nextIncident := a.nextIncident % 65535 + 1,
                            replaced := if p.2 then satAdd 255 a.replaced 1 else a.replaced } }).raise (ev 7 13)

/-- Put a record into the ring under the next SEQ (R497, R499). -/
def Ash.store (a : Ash) (r : AshRec) : Ash :=
  { a with ring := (r :: a.ring).take 2048, written := a.written + 1, seq := (a.seq + 1) % 2 ^ 32 }

/-- Write a queued record: SEQ, INCIDENT and PINNED, ring copy and slot copy (R497, R499). -/
def Ash.write (a : Ash) (r : AshRec) : Ash :=
  match a.openSlot with
  | none => a.store { r with seq := a.seq }
  | some i =>
    let sl := (a.slots[i]?).getD AshSlot.reset
    let pin := decide (sl.pinned.length < 256)
    let r1 := { r with seq := a.seq, incident := sl.incident, flags := r.flags + b2n pin }
    let sl1 := { sl with total := sl.total + 1, pinned := if pin then sl.pinned ++ [r1] else sl.pinned,
                         ovf := if pin then sl.ovf else updAt sl.ovf (r.type % 32) (· + 1) }
    { a.store r1 with slots := a.slots.set i sl1 }

/-- Write a summary: one SEQ for the ring record and the summary's first 64 bytes (R498). -/
def Ash.writeSummary (a : Ash) (r : AshRec) : Ash :=
  let r1 := { r with seq := a.seq }
  { a.store r1 with slots := a.slots.map (fun sl => if sl.incident == r.incident then { sl with summary := some r1 } else sl) }

/-- MRAM takes the next record: a summary ahead of the queue, else the queue's head (R496 to R499). -/
def State.ashTake (s : State) : State :=
  match s.ash.summaries with
  | r :: t => { s with ash := { s.ash.writeSummary r with summaries := t, readyAt := s.now + 2000 } }
  | [] =>
    match s.ash.queue with
    | [] => s
    | r :: t =>
      let o := ashOpens r.type r.payload
      let s1 := { s with ash := { s.ash with queue := t, dropArmed := s.ash.dropArmed || t.isEmpty } }
      let s2 := if o && s1.ash.openSlot.isNone then s1.ashOpenIncident r else s1
      { s2 with ash := { s2.ash.write r with lastOpening := if o then s.now else s2.ash.lastOpening, readyAt := s.now + 2000 } }

/-- Every queued record goes to MRAM (R503: the queue drains from VIN_AO). -/
def State.ashDrain : Nat → State → State
  | 0, s => s
  | n + 1, s => State.ashDrain n s.ashTake

/-- Close the open incident with a cause (R498: 0 QUIET, 1 BRINGUP); its summary waits for the next MRAM write. -/
def State.ashClose (s : State) (cause : Nat) : State :=
  match s.ash.openSlot with
  | none => s
  | some i =>
    let sl := (s.ash.slots[i]?).getD AshSlot.reset
    let p := leBytes 4 sl.openSeconds ++ leBytes 4 sl.openNs ++ leBytes 4 sl.total ++ leBytes 2 sl.pinned.length ++ [b8 cause]
    let r := { s.ashMake 0x10 0xE3 p with incident := sl.incident }
    State.alertForget { s with ash := { s.ash with openSlot := none, summaries := s.ash.summaries ++ [r] } } 4

/-- The 64 bytes of a record, its CRC over bytes 0 to 59 (R494). -/
def AshRec.bytes (r : AshRec) : Bytes :=
  let b := leBytes 4 r.seq ++ leBytes 4 r.seconds ++ leBytes 4 r.ns ++ [b8 r.type, b8 r.origin, b8 r.mode, b8 r.flags]
    ++ leBytes 2 r.incident ++ leBytes 2 r.count ++ r.payload
  b ++ leBytes 4 (crc32c b)

/-- The 256-byte summary of a slot (R498). -/
def AshSlot.bytes (sl : AshSlot) : Bytes :=
  match sl.summary with
  | none => List.replicate 256 0
  | some r =>
    let b := (sl.ovf.map (leBytes 4)).flatten ++ (sl.drops.map (leBytes 4)).flatten ++ List.replicate 28 0
    r.bytes ++ b ++ leBytes 4 (crc32c b)

/-- The ring record at an index (R497), zero where nothing was written. -/
def Ash.ringAt (a : Ash) (i : Nat) : Bytes :=
  let back := (a.written + 2047 - i) % 2048
  match a.ring[back]? with
  | some r => r.bytes
  | none => List.replicate 64 0

/-- The 64 bytes ASH_SEL selects (R500). -/
def State.ashWindow (s : State) : Bytes :=
  let i := s.get Fld.ASH_SEL.INDEX
  let sl := (s.ash.slots[s.get Fld.ASH_SEL.SLOT]?).getD AshSlot.reset
  match s.get Fld.ASH_SEL.AREA with
  | 1 => match sl.pinned[i]? with
    | some r => r.bytes
    | none => List.replicate 64 0
  | 2 => slice sl.bytes (64 * i) 64
  | _ => s.ash.ringAt i

/-- ASH_STAT as it reads now (R497). -/
def State.ashStat (s : State) : Nat :=
  let a := s.ash
  b2n a.openSlot.isSome * 2 ^ 31 + (a.openSlot.getD 0) * 2 ^ 28
    + maskOf ((List.range 8).filter (fun i => ((a.slots[i]?).getD AshSlot.reset).used)) * 2 ^ 20
    + a.replaced * 2 ^ 12 + b2n (decide (2048 ≤ a.written)) * 2 ^ 11 + a.written % 2048

/-- The MODE record of a mode change (R495, R33): old MODE, new MODE, FENCE_MASK. -/
def State.ashMode (s : State) (old : Nat) : State :=
  s.ashAdd 3 0xE0 [b8 old, b8 s.mode, b8 (s.get Fld.AO_STATUS.FENCE_MASK)]

/-- ASH_RECORD_WRITE (R494 to R499): MRAM takes the next record when one waits and 2 µs have passed since the last. -/
def execAshRecordWrite (s : State) : Host.Outcome State Fault Refusal :=
  .next (if s.ash.readyAt ≤ s.now then s.ashTake else s)

/-- COALESCE_CLOSE (R496): the window of slot `i` closes when its time has come. -/
def execCoalesceClose (i : Nat) (s : State) : Host.Outcome State Fault Refusal :=
  .next (match s.ash.coal[i]? with
    | some c => if c.closes ≤ s.now then ({ s with ash := { s.ash with coal := s.ash.coal.eraseIdx i } }).ashFlush c else s
    | none => s)

/-- INCIDENT_CLOSE (R497, R498): INC_QUIET (0 behaves as 1) without an opening record closes the open incident. -/
def execIncidentClose (s : State) : Host.Outcome State Fault Refusal :=
  .next (if s.ash.openSlot.isSome ∧ s.ash.lastOpening + max 1 (s.get Fld.ASH_CFG.INC_QUIET) * 1000000000 ≤ s.now
    then s.ashClose 0 else s)

end Sys2Proof.Machine
end

