-- ==== Sys2Proof/Machine/Access.lean ====
section
/-! DEFINITION. How an access is judged, answered and captured (R3 to R8, R18, R25, R26, R30, R379, R488 to R490, R493,
R514, R516, R547), and the two operations every register row goes through: `readReg` and `writeReg`. -/
namespace Sys2Proof.Machine

/-- Blocks of a region (R18): how many, numbered from 0. -/
def blockCount (region : Nat) : Nat :=
  if region < 4 then 10 else if region = 4 then 9 else if region = 5 then 8 else if region = 6 then 12 else 7

/-- Region, block and cell of an address (R3). -/
def aRegion (a : Nat) : Nat := a / 0x1000000 % 8
@[inherit_doc aRegion] def aBlock (a : Nat) : Nat := a / 0x10000 % 256
@[inherit_doc aRegion] def aCell (a : Nat) : Nat := a / 0x1000 % 16

/-- Cell AO.00.0 or AO.05.0 (R30). -/
def aoPage (a : Nat) : Bool := a / 0x1000 == 0x7000 || a / 0x1000 == 0x7050

/-- AO_PUSH_CTL and AO_PUSH_DATA, which Kiln serves once CT runs (R55, R57, R60). -/
def pushAddr (a : Nat) : Bool := a == 0x7000200 || a == 0x7000204

/-- A read that AO's mirror answers (R493). -/
def mirrored (a : Nat) : Bool :=
  aRegion a < 6 && (a % 0x1000000 == 0x130 || (0x180 ≤ a % 0x1000000 && a % 0x1000000 ≤ 0x18C))

/-- CT cells that answer in Banked (R30). -/
def bankedCell (s : State) (a : Nat) : Bool :=
  aRegion a == 6 && (aBlock a == 0 || aBlock a == 2 || aBlock a == 3 || aBlock a == 9 || aBlock a == 0xB
    || (aBlock a == 1 && (aCell a == 8 || aCell a == s.get Fld.APC_CFG.BANKED_CORE)))

/-- Step 3 of R547: the mode and region rules of R30. -/
def modeCode (s : State) (rq : Req) (a : Nat) (wr : Bool) : Nat :=
  let r := aRegion a
  match s.mode with
  | 1 =>
    if aoPage a then (if wr && pushAddr a && !s.boot.ctReady then 3 else 0)
    else if isOutside rq then 3
    else if rq = .kiln then (if s.pwr.powered.contains r then 0 else 3)
    else if s.boot.applied.contains r then 0 else 3
  | 2 => if wr && a == 0x7000200 then 3 else if r = 7 || bankedCell s a then 0 else 3
  | 5 => if wr && a == 0x7000200 then 7 else if aoPage a then 0 else 7
  | _ =>
    if !s.present r then 1
    else if s.fenced r || s.push.reloading = some r then (if !wr && mirrored a then 0 else 6)
    else 0

/-- What R379 and R514 let a requester reach in the register space. -/
def reaches (rq : Req) (a : Nat) (wr : Bool) : Bool :=
  let r := aRegion a; let b := aBlock a; let c := aCell a
  match rq with
  | .core n => decide (n < 8)
  | .rcore n => r == n || (r == 6 && (b == 2 || b == 3 || (b == 9 && c == 0))) || (r == 5 && b == 6 && c == 0)
      || a / 0x1000 == 0x7000
  | .rkn _ => false
  | .pcie f =>
    if a / 0x1000 = 0x5032 then a % 0x1000 / 0x40 == f + 1
    else f == 0 || (a / 0x1000 == 0x7000 && !wr) || a / 0x1000 == 0x7050 || (a == 0x6030008 && !wr)
      || (a / 0x1000 == 0x60B0 && !wr) || a == 0x6072000 + 4 * f
  | _ => true

/-- Registers a host on PCI Express or SMBus may not write (R279, R363, R396, R475, R480, R500, R515, R524 and the headings of
APC_CORE_*, RGC_HANG_CFG, DMC_ACT_CFG, AO_VF_CTL, AO_ISL_CTL, AO_SLEEP_*). -/
def hostMayNotWrite : Reg → Bool
  | .TXA_CTR_DATA | .APC_CORE_CTL | .APC_CORE_START_LO | .APC_CORE_START_HI | .APC_CORE_STAT | .RGC_HANG_CFG | .DMC_ACT_CFG
  | .AO_SLEEP_CTL | .AO_SLEEP_CFG | .AO_SLEEP_STAT | .AO_SLEEP_REC | .WAK_EN | .WAK_GPIO | .WAK_WRX | .WAK_WRX_ID | .WAK_TIMER
  | .HL_WIN_W0 | .HL_WIN_W1 | .HL_WIN_W2 | .XIO_SPI_CTL | .XIO_SPI_ADDR | .XIO_SPI_SYS | .XIO_SPI_STAT => true
  | _ => false

/-- Registers that accept writes only from on-device cores (R363, R396, R469, R475, R480, R500, R526). -/
def coresOnly : Reg → Bool
  | .NTU_TIME_CTL | .NTU_TIME_RATE_LO | .NTU_TIME_RATE_HI | .NTU_STEP_NS | .NTU_SET_NS | .NTU_SET_S_LO | .NTU_SET_S_HI
  | .NTU_CFG | .EVT_MASK | .EVT_CLR | .EVT_EVTOUT_CFG | .XIO_GPIO_OUT | .XIO_GPIO_OE | .XIO_GPIO_PULL
  | .XIO_GPIO_IRQ | .XIO_GPIO_EDGE | .AO_VF_CTL | .AO_ISL_CTL | .ASH_CFG | .ASH_CTL => true
  | _ => false

/-- Registers no host reaches at all: CT.02.0 (R385) and the job rings (R451). -/
def hostClosed (a : Nat) : Bool := a / 0x1000 == 0x6020 || a / 0x1000 == 0x5061

/-- Step 5 of R547, the requester rules: the access is forbidden. -/
def denied (rq : Req) (r : Reg) (a : Nat) (wr : Bool) : Bool :=
  !reaches rq a wr
    || (isHost rq && (hostClosed a || (wr && hostMayNotWrite r)))
    || (wr && coresOnly r && !onDevice rq)
    || (match r with
        | .KLN_MB_REQ | .KLN_MB_GO | .KLN_MB_STAT => (mailCopy rq).isNone
        | .RGC_CORE_CTL | .RGC_CORE_STAT | .RGC_CORE_DWIN => wr && !isCore rq
        | .EVT_HCLAIM => (match rq with
          | .pcie _ => false
          | _ => !wr)
        | .CIP_SLOT_KEY | .CIP_SLOT_CTL | .CIP_SLOT_STAT => (slotCopy rq).isNone
        | .TLY_ENQ_W | .TLY_ENQ_DUE | .TLY_ENQ_GO | .TLY_ENQ_STAT | .TLY_DLY_CANCEL | .TLY_PICK | .TLY_CUR_W | .TLY_DONE_RES
        | .TLY_DONE => (tallyCopy rq).isNone
        | _ => false)

/-- The copy of a register that a requester reaches (R385, R443, R447): 0 is the shared one. -/
def regCopy (rq : Req) (r : Reg) : Nat :=
  match r with
  | .TLY_ENQ_W | .TLY_ENQ_DUE | .TLY_ENQ_GO | .TLY_ENQ_STAT | .TLY_DLY_CANCEL | .TLY_PICK | .TLY_CUR_W | .TLY_DONE_RES
  | .TLY_DONE => ((tallyCopy rq).getD 0) + 1
  | .KLN_MB_REQ | .KLN_MB_GO | .KLN_MB_STAT => ((mailCopy rq).getD 0) + 1
  | .CIP_SLOT_KEY | .CIP_SLOT_CTL | .CIP_SLOT_STAT => ((slotCopy rq).getD 0) + 1
  | _ => 0

/-- RWL fields of the register are locked (R5): LOCK of the register itself, or of PHY_DFS_CFG for the patterns. -/
def rwlLocked (s : State) (r : Reg) (ix : List Nat) : Bool :=
  match r with
  | .RGC_ASYNC_CFG => s.flag Fld.RGC_ASYNC_CFG.LOCK ix
  | .PHY_DFS_CFG => s.flag Fld.PHY_DFS_CFG.LOCK ix
  | .PHY_DFS_PAT_W0 | .PHY_DFS_PAT_W1 => s.flag Fld.PHY_DFS_CFG.LOCK (ix.take 1)
  | .TXA_KEY => s.flag Fld.TXA_KEY.LOCK ix
  | _ => false

/-- The register holds a field that a write can change (R8). -/
def writable (r : Reg) : Bool :=
  r.fields.any (fun f => match f.2.2 with
    | .rw | .w1c | .wo | .rwl => true
    | _ => false)

/-- The word a write leaves, field by field (R5, R6, R8). -/
def mergeWord (fs : List (Nat × Nat × Acc)) (old v : Word) : Word :=
  fs.foldl (fun w f => match f.2.2 with
    | .rw | .wo | .rwl => wset w f.1 f.2.1 (wbits v f.1 f.2.1)
    | .w1c => wset w f.1 f.2.1 (wbits w f.1 f.2.1 - Nat.land (wbits w f.1 f.2.1) (wbits v f.1 f.2.1))
    | _ => w) old

/-- The word a read returns of what is held: WO fields read 0 (R5). -/
def shownWord (fs : List (Nat × Nat × Acc)) (w : Word) : Word :=
  fs.foldl (fun w f => match f.2.2 with
    | .wo => wset w f.1 f.2.1 0
    | _ => w) w

/-- The register is an event counter of code RC (R5, R7). -/
def isRC (r : Reg) : Bool := r.fields.any (fun f => f.2.2 == .rc)

/-- Performed write of a register with no effect of its own: field by field (R8). -/
def storeWord (r : Reg) (ix : List Nat) (v : Word) (rq : Req) (s : State) : State :=
  s.setReg r ix (mergeWord r.fields (s.reg r ix (regCopy rq r)) v) (regCopy rq r)

/-- The result registers (R25): their VALID field, bit 31, cites R25 or the rule that owns it says so (R164). Of the two VALID bits of NTU_CAP_STAT, bit 31 (PPS_VALID) alone
decides whether a read is early (DESIGN CHOICE, notes/assumptions/68.md). -/
def isResult : Reg → Bool
  | .AO_PUSH_STAT | .RGC_RESTACK_STAT | .DFE_TXF_STAT | .CAL_STAT | .CAL_XP_STAT | .HKA_CHK_STAT | .HKA_VAL | .WAC_TBL_STAT
  | .WAC_AFC_STAT | .TXA_FB_STAT | .FLW_VER_STAT | .FLW_TBL_STAT | .TMG_TBL_STAT | .TMG_GATE_STAT | .NTU_TIME_STAT
  | .NTU_CAP_STAT | .NTU_PTM_STAT | .TLY_ENQ_STAT | .DMC_DIST_STAT | .KLN_MB_STAT | .CIP_SLOT_STAT | .AO_SLEEP_STAT
  | .AO_VF_STAT | .AO_AGE_STAT | .XIO_SPI_STAT => true
  | _ => false

/-- What a performed read does beside returning a word: an RC counter is cleared (R5), an early read of a result register is
counted in its region (R25). -/
def readEffect (r : Reg) (ix : List Nat) (rq : Req) (w : Word) (s : State) : State :=
  if isRC r then s.setReg r ix 0 (regCopy rq r)
  else if isResult r && wbits w 31 31 == 0 then s.earlyRead (aRegion (r.addr ix))
  else s

/-- Performed read of a register with no effect of its own. -/
def loadWord (r : Reg) (ix : List Nat) (rq : Req) (s : State) : Word × State :=
  (shownWord r.fields (s.reg r ix (regCopy rq r)), readEffect r ix rq (s.reg r ix (regCopy rq r)) s)

/-! Answers and capture -/

/-- The region whose RGC_ERR registers capture now (R504); AO's stand in for a region that captures nothing. -/
def State.captures (s : State) (r : Nat) : Bool :=
  r == 7 || (s.mode == 1 && s.boot.applied.contains r) || (s.mode == 2 && r == 6) || (s.serving && (r == 6 || s.running r))

/-- Hold a fault in a region's RGC_ERR registers (R489). -/
def State.holdFault (s : State) (reg addr id code level block : Nat) : State :=
  if s.flag Fld.RGC_ERR_INFO.CAPT [reg] then
    (s.set Fld.RGC_ERR_INFO.OVER [reg] 1).bump Fld.RGC_ERR_INFO.COUNT [reg]
  else
    (((s.setReg .RGC_ERR_ADDR_LO [reg] (w32 addr)).setReg .RGC_ERR_ADDR_HI [reg] (w32 (addr / 2 ^ 32 % 256))).setReg
        .RGC_ERR_INFO [reg] (w32 (2 ^ 31 + level * 2 ^ 28 + code * 2 ^ 24 + id * 2 ^ 16 + block * 2 ^ 8 + 1))).setReg
      .RGC_ERR_TIME [reg] (w32 s.stamp)

/-- Capture a response other than OK and forward it to the Ash log (R489, R495). -/
def State.capture (s : State) (region level block : Nat) (rq : Req) (code addr : Nat) : State :=
  let k := s.captures region
  let reg := if k then region else 7
  let lv := if k then level else 3
  let bl := if k then block else 0xFF
  let inReg := decide (addr < 0x8000000)
  (s.holdFault reg addr (reqId rq) code lv bl).ashAdd 1 (reg * 32)
    (leBytes 5 addr ++ [0, 0, 0, b8 (reqId rq), b8 code, b8 lv, b8 (if inReg then aRegion addr else reg), b8 bl,
      b8 (if inReg then aCell addr else 0xFF), 0, 0] ++ leBytes 4 s.stamp)

/-- The host-side record of a failed PCI Express request (R516). -/
def State.hostError (s : State) (rq : Req) (bar code : Nat) : State :=
  match rq with
  | .pcie f =>
    if f < 8 then
      let s1 := if s.flag Fld.HL_FN_ERR.CAPT [f] then s
        else s.sets [f] [(Fld.HL_FN_ERR.CAPT, 1), (Fld.HL_FN_ERR.BAR, bar), (Fld.HL_FN_ERR.CODE, code), (Fld.HL_FN_ERR.COUNT, 0)]
      s1.bump Fld.HL_FN_ERR.COUNT [f]
    else s
  | _ => s

/-- Data of a read that is not performed: all ones on PCI Express (R516). -/
def errData : Req → Word
  | .pcie _ => 0xFFFFFFFF
  | _ => 0

/-- The access completes with OK. -/
def State.answer (s : State) (rq : Req) (d : Word) : State := { s with resp := some ⟨rq, 0, d⟩ }

/-- The access completes with another code, captured (R488, R489). -/
def State.refuse (s : State) (rq : Req) (region level block code addr : Nat) (bar : Nat := 0) : State :=
  { ((s.capture region level block rq code addr).hostError rq bar code) with resp := some ⟨rq, code, errData rq⟩ }

/-- Steps 1 to 3 of R547 failed: who captures it (region, level, block) and the code; `none` when they pass. -/
def preJudge (s : State) (rq : Req) (a size : Nat) (wr : Bool) : Option (Nat × Nat × Nat × Nat) :=
  let m := modeCode s rq a wr
  let listed := aBlock a < blockCount (aRegion a)
  if size ≠ 4 ∨ a % 4 ≠ 0 then
    some (if m ≠ 0 ∨ ¬ listed then (7, 3, 0xFF, 2) else (aRegion a, 1, aBlock a, 2))
  else if ¬ listed then some (if m ≠ 0 then (7, 3, 0xFF, 1) else (aRegion a, 2, 0xFF, 1))
  else if m ≠ 0 then some (7, 3, 0xFF, m)
  else none

/-- A reader's checks of step 5 that a unit adds to the requester rules; none by default. -/
def readAny (_ : Reg) (_ : List Nat) (_ : Req) (_ : State) : Bool := true

/-- A read of the register space (R488, R547): in Dormant nothing answers (R30). `ok` is the unit's own rule for reads, `rd`
what a performed read returns and does. -/
def readReg (rq : Req) (a size : Nat) (ok : Reg → List Nat → Req → State → Bool)
    (rd : Reg → List Nat → Req → State → Word × State) (s : State) : State :=
  if s.mode = 0 then s
  else match preJudge s rq a size false with
    | some (g, l, b, c) => s.refuse rq g l b c a
    | none =>
      match findReg a with
      | none => s.refuse rq (aRegion a) 1 (aBlock a) 1 a
      | some (r, ix) =>
        if denied rq r a false || !ok r ix rq s then s.refuse rq (aRegion a) 1 (aBlock a) 2 a
        else (rd r ix rq s).2.answer rq (rd r ix rq s).1

/-- A write of the register space (R8, R488, R547). `ok` says which values and conditions the register's own rules let
through, `wr` what a performed write does. -/
def writeReg (rq : Req) (a size : Nat) (v : Word) (ok : Reg → List Nat → Word → Req → State → Bool)
    (wr : Reg → List Nat → Word → Req → State → State) (s : State) : State :=
  if s.mode = 0 then s
  else match preJudge s rq a size true with
    | some (g, l, b, c) => s.refuse rq g l b c a
    | none =>
      match findReg a with
      | none => s.refuse rq (aRegion a) 1 (aBlock a) 1 a
      | some (r, ix) =>
        if denied rq r a true || !writable r || rwlLocked s r ix || !ok r ix v rq s then
          s.refuse rq (aRegion a) 1 (aBlock a) 2 a
        else (wr r ix v rq s).answer rq 0

/-- A write passes every check of R547 and of its register. -/
def writePasses (rq : Req) (a : Nat) (v : Word) (ok : Reg → List Nat → Word → Req → State → Bool) (s : State) : Bool :=
  s.mode != 0 && (preJudge s rq a 4 true).isNone && (match findReg a with
    | none => false
    | some (r, ix) => !(denied rq r a true || !writable r || rwlLocked s r ix || !ok r ix v rq s))

/-- A write that its target may hold by back-pressure (R20): with no room (`full`) it waits, unanswered. -/
def writeOrHold (rq : Req) (a : Nat) (v : Word) (full : Bool) (ok : Reg → List Nat → Word → Req → State → Bool)
    (wr : Reg → List Nat → Word → Req → State → State) (s : State) : State :=
  if writePasses rq a v ok s && full then
    { s with held := s.held ++ [⟨rq, a, v, s.now⟩] }
  else writeReg rq a 4 v ok wr s

/-- The first held write that `p` names is performed and answered. -/
def State.unhold (s : State) (p : Held → Bool) (wr : Word → Req → State → State) : State :=
  match s.held.find? p with
  | none => s
  | some h => (wr h.word h.req { s with held := s.held.erase h }).answer h.req 0

/-- A write of a field that may not be changed while its unit is enabled (`en`): it is refused only when it would change the field, so that
EN itself can be cleared (DEDUCED, notes/assumptions/54.md). -/
def frozen (en : Bool) (old new : Nat) : Bool := en && old != new

/-- A ring's SIZE_LOG2 within its range and not changed while EN=1. -/
def sizeOk (s : State) (en size : Fld) (ix : List Nat) (v : Word) (hi : Nat) : Bool :=
  decide (4 ≤ wbits v 3 0 ∧ wbits v 3 0 ≤ hi) && !frozen (s.flag en ix) (s.get size ix) (wbits v 3 0)

/-- A value check that lets everything through. -/
def writeAny (_ : Reg) (_ : List Nat) (_ : Word) (_ : Req) (_ : State) : Bool := true

end Sys2Proof.Machine
end

