-- ==== Sys2Proof/Machine/Ntu.lean ====
section
/-! DEFINITION. The network time unit, CT.0B (R352 to R377): corrections, OP-8 mode, sleep and records, stamps, pulses,
SyncE, PTM. -/
namespace Sys2Proof.Machine

/-- The NTU updated. -/
def State.ntuUpd (s : State) (f : Ntu → Ntu) : State := { s with ntu := f s.ntu }

/-- Fold the accumulated correction of the rate into K (R353). -/
def State.ntuFold (s : State) : State :=
  s.ntuUpd (fun n => { n with
    k := n.k + rateCorr (s.flag Fld.NTU_CFG.OP8) n.rate (s.reg .NTU_OP8_INCR).toNat (n.raw - n.rw), rw := n.raw })

/-- Fold the absorbed part of a slew too; the rest goes on from here (R359). -/
def State.ntuFoldAll (s : State) : State :=
  let d := s.slewDone
  s.ntuFold.ntuUpd (fun n => { n with k := n.k + d, slew := n.slew.map (fun e => (e.1 - d, n.raw)) })

/-- Offset still to be absorbed by the running slew (R359). -/
def State.slewLeft (s : State) : Int :=
  match s.ntu.slew with
  | some (off, _) => off - s.slewDone
  | none => s.ntu.slewHeld

/-- Enter a TIME_STATE; a change raises TIME_STATE, and entering LOCKED clears RELOCK and starts the watchdog (R357,
R361, R362). -/
def State.setTimeState (s : State) (v : Nat) : State :=
  let u := s.unc
  let s1 := s.set Fld.NTU_STATUS.TIME_STATE [] v
  let s2 := if v = 1 then (s1.set Fld.NTU_STATUS.RELOCK [] 0).ntuUpd (fun n => { n with wdFrom := n.raw })
    else if v = 2 ∧ s.timeState ≠ 2 then
      s1.ntuUpd (fun n => { n with uncBase := u, uncFrom := n.raw, uncSlp := !s.pwr.refclk })
    else s1
  if s.timeState = v then s2 else s2.raise (ev 6 5)

/-- Step network time by an offset, ending any slew where it stands (R358, R360, R375). -/
def State.ntuStep (s : State) (off : Int) (forced : Bool) : State :=
  let s1 := s.ntuFoldAll
  let s2 := s1.ntuUpd (fun n => { n with k := n.k + off, slew := none, slewHeld := 0 })
  ((s2.set Fld.NTU_STATUS.SLEWING [] 0).ashAdd 6 0xCB (leBytes 8 (unsigned 64 off) ++ [b8 (b2n forced)])).raise (ev 6 7)

/-- Start a slew of an offset (R359); while REFCLK is absent it waits (R367). -/
def State.ntuSlew (s : State) (off : Int) : State :=
  let s1 := s.ntuFoldAll
  (s1.ntuUpd (fun n => if s.pwr.refclk then { n with slew := some (off, n.raw), slewHeld := 0 }
    else { n with slew := none, slewHeld := off })).set Fld.NTU_STATUS.SLEWING [] 1

/-- Report the outcome of a correction: 0 STEPPED, 1 SLEWING, 2 REFUSED, 3 NOT_ARMED. -/
def State.timeStat (s : State) (res : Nat) : State := s.commit .NTU_TIME_STAT [] (res * 2 ^ 24)

/-- The step threshold in ns (0 behaves as 1). -/
def State.stepThresh (s : State) : Nat := max 1 (s.get Fld.NTU_CFG.STEP_THRESH) * 10

/-- Decide an ADJ or SET of judged offset `off` (R358, R364); the Bool says that network time stepped. -/
def State.ntuCorrect (s : State) (off : Int) : State × Bool :=
  if s.flag Fld.NTU_CFG.OP8 ∨ s.timeState = 0
      ∨ (s.timeState = 2 ∧ s.flag Fld.NTU_STATUS.RELOCK ∧ off.natAbs ≤ max s.stepThresh s.unc) then
    ((((s.ntuStep off false).setTimeState 1).timeStat 0), true)
  else if off.natAbs ≤ s.stepThresh then
    ((((s.ntuSlew off).setTimeState 1).timeStat 1), false)
  else
    ((((s.set Fld.NTU_STATUS.STEP_REFUSED [] 1).inc .NTU_CNT_STEP_REFUSED).timeStat 2).raise (ev 6 6), false)

/-- NTU_STEP_NS as an offset. -/
def State.stepNs (s : State) : Int := signed 32 (s.reg .NTU_STEP_NS).toNat

/-- The target of SET in total ns. -/
def State.setTarget (s : State) : Int :=
  (((s.get Fld.NTU_SET_S_HI.S * 2 ^ 32 + s.get Fld.NTU_SET_S_LO.S) * 1000000000 + s.get Fld.NTU_SET_NS.NS : Nat) : Int)

/-- ARMED is set and the second write falls within 1 ms of the first (R360). -/
def State.armed (s : State) : Bool :=
  match s.ntu.armedAt with
  | some t => s.ntu.raw - t ≤ 1000000
  | none => false

/-- ARMED clears (R360). -/
def State.disarm (s : State) : State := (s.ntuUpd (fun n => { n with armedAt := none })).set Fld.NTU_STATUS.ARMED [] 0

/-- A forced step (R360): it lands exactly, and the state becomes LOCKED; NOT_ARMED otherwise. -/
def State.ntuForce (s : State) (off : Int) : State × Bool :=
  if s.armed then ((((s.ntuStep off true).setTimeState 1).timeStat 0).disarm, true)
  else ((s.timeStat 3).disarm, false)

/-- A write of NTU_TIME_CTL (R357 to R360); the second part says that network time stepped, and whether forced. -/
def State.ntuCtl (s : State) (v : Word) : State × Option Bool :=
  let op := wbits v 3 0
  if op = 0 then
    if wbits v 15 8 = 0xA5 then
      ((s.ntuUpd (fun n => { n with armedAt := some n.raw })).set Fld.NTU_STATUS.ARMED [] 1, none)
    else (s.disarm, none)
  else if op = 1 then
    let r := (s.disarm).ntuCorrect (s.stepNs + (if s.flag Fld.NTU_STATUS.SLEWING then s.slewLeft else 0))
    (r.1, if r.2 then some false else none)
  else if op = 2 then
    let r := (s.disarm).ntuCorrect (s.setTarget - s.netTime)
    (r.1, if r.2 then some false else none)
  else if op = 3 then
    let r := s.ntuForce s.stepNs
    (r.1, if r.2 then some true else none)
  else if op = 4 then
    let r := s.ntuForce (s.setTarget - s.netTime)
    (r.1, if r.2 then some true else none)
  else if op = 5 then ((if s.timeState = 1 then (s.disarm).setTimeState 2 else s.disarm), none)
  else (((s.disarm).set Fld.NTU_STATUS.RELOCK [] 0).setTimeState 0, none)

/-- TIME_RATE as the two halves spell it (R353). -/
def rateOf (hi lo : Nat) : Int := signed 40 (hi % 256 * 2 ^ 32 + lo)

/-- Values and conditions the NTU's registers let through. -/
def okNtu (r : Reg) (_ : List Nat) (v : Word) (_ : Req) (s : State) : Bool :=
  match r with
  | .NTU_CFG => (1 ≤ wbits v 23 16 && wbits v 23 16 ≤ 100)
      && (s.timeState == 0 || wbits v 31 31 == s.get Fld.NTU_CFG.OP8)
  | .NTU_TIME_RATE_LO => !s.flag Fld.NTU_CFG.OP8
  | .NTU_TIME_RATE_HI => !s.flag Fld.NTU_CFG.OP8
      && (rateOf (wbits v 7 0) (s.reg .NTU_TIME_RATE_LO).toNat).natAbs ≤ 140737488355
  | .NTU_SET_NS => wbits v 29 0 < 1000000000
  | .NTU_TIME_CTL => wbits v 3 0 ≤ 6
  | .NTU_OP8_INCR => 0x00FFDF3C ≤ v.toNat && v.toNat ≤ 0x010020C4
  | .NTU_TSYNC_PERIOD => v.toNat == 0 || max 1 (s.get Fld.NTU_TSYNC_CFG.WIDTH) * 20 ≤ v.toNat
  | .NTU_SYNCE_CFG => s.flag Fld.SDS_LANE_STAT.MODE [wbits v 26 24]
  | .NTU_PTM_CTL => wbits v 3 0 == 1
  | _ => true

/-- The index of the next second boundary that PPS_OUT waits for (R372). -/
def State.ppsIndex (s : State) : Int :=
  (s.netTime - signed 16 (s.get Fld.NTU_PPS_CFG.OFFSET)) / 1000000000

/-- PPS_OUT waits for the next boundary of network time as it now stands (R372, R375). -/
def State.ppsAlign (s : State) : State := s.ntuUpd (fun n => { n with ppsNext := s.ppsIndex + 1 })

/-- Periodic TSYNC_IO pulses realign to START + n × PERIOD in the new time (R375). -/
def State.tsyncAlign (s : State) : State :=
  let p := (s.reg .NTU_TSYNC_PERIOD).toNat
  match s.ntu.tsyncNext with
  | some t => if p = 0 ∨ t = s.ntu.tsyncStart then s
    else s.ntuUpd (fun n => { n with tsyncNext := some (n.tsyncStart + ((s.netTime - n.tsyncStart) / p + 1) * p) })
  | none => s

/-- SYNCE_STAT.STATE becomes `v`; a change raises SYNCE_STATE (R374). -/
def State.synceState (s : State) (v : Nat) : State :=
  if s.get Fld.NTU_SYNCE_STAT.STATE = v then s else (s.set Fld.NTU_SYNCE_STAT.STATE [] v).raise (ev 6 10)

/-- Send one PTM Request, or report NO_PTM (R371). -/
def State.ptmRequest (s : State) : State :=
  if s.ntu.ptmEnabled then
    ((s.pendResult .NTU_PTM_STAT).ntuUpd (fun n => { n with ptmSent := some (n.raw, s.stamp) })).emit .ptm [0]
  else (s.commit .NTU_PTM_STAT [] (1 * 2 ^ 24)).raise (ev 6 11)

/-- Performed writes of the NTU's registers. -/
def wrNtu (r : Reg) (ix : List Nat) (v : Word) (rq : Req) (s : State) : State :=
  match r with
  | .NTU_TIME_CTL => (s.ntuCtl v).1
  | .NTU_CFG => storeWord r ix v rq s.ntuFoldAll
  | .NTU_OP8_INCR => storeWord r ix v rq s.ntuFold
  | .NTU_TIME_RATE_HI =>
    let s1 := storeWord r ix v rq s.ntuFold
    s1.ntuUpd (fun n => { n with rate := rateOf (wbits v 7 0) (s.reg .NTU_TIME_RATE_LO).toNat,
                                 wdFrom := if s.timeState = 1 then n.raw else n.wdFrom })
  | .NTU_PPS_CFG => (storeWord r ix v rq s).ppsAlign
  | .NTU_TSYNC_CFG =>
    let s1 := storeWord r ix v rq s
    if wbits v 31 30 = 3 then s1 else s1.ntuUpd (fun n => { n with tsyncNext := none })
  | .NTU_TSYNC_START =>
    let s1 := storeWord r ix v rq s
    if s.get Fld.NTU_TSYNC_CFG.EN = 1 ∧ s.get Fld.NTU_TSYNC_CFG.DIR = 1 then
      match s.launch v.toNat with
      | some t => s1.ntuUpd (fun n => { n with tsyncNext := some t, tsyncStart := t })
      | none => s1
    else s1
  | .NTU_SYNCE_CFG =>
    (storeWord r ix v rq s).synceState
      (if wbits v 31 31 = 0 then 0 else if s.flag Fld.SDS_LANE_STAT.LOCK [wbits v 26 24] then 1 else 2)
  | .NTU_PTM_CTL => s.ptmRequest
  | _ => storeWord r ix v rq s

/-- Pop a transmit stamp into TXTS_VAL (R26, R370). -/
def State.txtsPop (s : State) : Word × State :=
  match s.ntu.txts with
  | [] => (0xFC000000, s)
  | t :: rest =>
    (w32 (t.port % 32 * 2 ^ 26 + t.msg % 16 * 2 ^ 16 + t.seqId % 65536),
      (s.ntuUpd (fun n => { n with txts := rest })).setReg .NTU_TXTS_VAL [] (w32 t.stamp))

/-- Push a transmit stamp (R370). -/
def State.txtsPush (s : State) (t : TxStamp) : State :=
  if 64 ≤ s.ntu.txts.length then s.inc .NTU_CNT_TXTS_DROP
  else
    let s1 := s.ntuUpd (fun n => { n with txts := n.txts ++ [t] })
    if s.ntu.txts.isEmpty then s1.raise (ev 6 9) else s1

/-- A read of NTU_TIME_NS: nanoseconds, with seconds and raw counter latched from the same instant (R355). -/
def State.timeRead (s : State) : Word × State :=
  let sec := (s.netTime / 1000000000 % 2 ^ 48).toNat
  (w32 (s.netTime % 1000000000).toNat,
    (((s.setReg .NTU_TIME_S_LO [] (w32 sec)).setReg .NTU_TIME_S_HI [] (w32 (sec / 2 ^ 32))).setReg
      .NTU_RAW_LO [] (w32 s.ntu.raw)).setReg .NTU_RAW_HI [] (w32 (s.ntu.raw / 2 ^ 32)))

/-- Performed reads of the NTU's registers. -/
def rdNtu (r : Reg) (ix : List Nat) (rq : Req) (s : State) : Word × State :=
  match r with
  | .NTU_TIME_NS => s.timeRead
  | .NTU_STAMP => (w32 s.stamp, s)
  | .NTU_UNC => (w32 s.unc, s)
  | .NTU_TXTS_POP => s.txtsPop
  | .NTU_CAP_STAT =>
    let w := s.reg .NTU_CAP_STAT
    (w, ((readEffect r ix rq w s).setReg .NTU_PPS_IN_TS [] (w32 s.ntu.ppsStamp)).setReg .NTU_TSYNC_TS [] (w32 s.ntu.tsyncStamp))
  | _ => loadWord r ix rq s

/-! Sleep, restarts and loss of REFCLK -/

/-- The time record as it stands (R365, R366). -/
def State.ntuRecord (s : State) : TimeRec :=
  { raw := s.ntu.raw, k := s.ntu.k + s.slewDone, rate := s.ntu.rate, rw := s.ntu.rw, incr := (s.reg .NTU_OP8_INCR).toNat,
    op8 := s.flag Fld.NTU_CFG.OP8, timeState := s.timeState, unc := s.unc, ratio := (s.reg .NTU_SLP_RATIO).toNat,
    slpCal := s.flag Fld.NTU_STATUS.SLP_CAL, ticks := s.slpTicks }

/-- Stop for Dormant (R365): the magnitude of the remaining slew joins NTU_UNC, the record goes to AO, the counter stops. -/
def State.ntuStop (s : State) : State :=
  if s.ntu.running then
    let left := s.slewLeft.natAbs
    let rec0 := s.ntuRecord
    { s with ntu := { s.ntu with running := false, slew := none, slewHeld := 0 },
             pwr := { s.pwr with timeRec := some { rec0 with unc := min 0xFFFFFFFF (rec0.unc + left) }, ntuRead := false } }
  else s

/-- Resume when CT powers up or the digital die restarts (R365, R366): from the record, or from 0 in UNLOCKED without one.
The registers of CT have been reset; those the record holds come back. -/
def State.ntuResume (s : State) : State :=
  match s.pwr.timeRec with
  | none => { s with ntu := { Ntu.reset with running := true }, pwr := { s.pwr with ntuRead := true } }
  | some t =>
    let el := (s.slpTicks - t.ticks) * t.ratio / 65536
    let keep := t.timeState ≠ 0 ∧ t.slpCal
    let raw := t.raw + el
    let s1 := { s with
      ntu := { Ntu.reset with running := true, raw := raw, k := t.k, rate := t.rate, rw := t.rw,
                              uncBase := min 0xFFFFFFFF (t.unc + el * s.get Fld.NTU_HOLD_CFG.SLP_PPM / 1000000), uncFrom := raw },
      pwr := { s.pwr with ntuRead := true } }
    let s2 := (((s1.setReg .NTU_OP8_INCR [] (w32 t.incr)).set Fld.NTU_CFG.OP8 [] (b2n t.op8)).setReg .NTU_SLP_RATIO []
      (w32 t.ratio)).set Fld.NTU_STATUS.SLP_CAL [] (b2n t.slpCal)
    let s3 := (s2.setReg .NTU_TIME_RATE_LO [] (w32 (unsigned 40 t.rate))).setReg .NTU_TIME_RATE_HI []
      (w32 (unsigned 40 t.rate / 2 ^ 32))
    s3.sets [] [(Fld.NTU_STATUS.TIME_STATE, if keep then 2 else 0), (Fld.NTU_STATUS.RELOCK, b2n (decide keep))]

/-- REFCLK is lost (R367): LOCKED becomes HOLDOVER, a slew waits, the counter goes on with the sleep counter. -/
def State.ntuRefLost (s : State) : State :=
  let left := s.slewLeft
  let s1 := s.ntuFoldAll.ntuUpd (fun n => { n with slew := none, slewHeld := left, uncBase := s.unc, uncFrom := n.raw, uncSlp := true, rawFrac := 0 })
  let s2 := s1.set Fld.NTU_STATUS.REFCLK_HOLD [] 1
  if s.timeState = 1 then s2.setTimeState 2 else s2

/-- REFCLK is back (R367): the counter resumes from its value, and RELOCK sets unless UNLOCKED. -/
def State.ntuRefBack (s : State) : State :=
  let s1 := s.ntuUpd (fun n => { n with slew := if n.slewHeld = 0 then none else some (n.slewHeld, n.raw), slewHeld := 0,
                                        uncBase := s.unc, uncFrom := n.raw, uncSlp := false, slpMark := none })
  let s2 := s1.set Fld.NTU_STATUS.REFCLK_HOLD [] 0
  if s.timeState = 0 then s2 else s2.set Fld.NTU_STATUS.RELOCK [] 1

/-! The rows -/

/-- HOLDOVER (R357): OP=HOLDOVER moves LOCKED to HOLDOVER. -/
def execNtuHoldover (rq : Req) (s : State) : Host.Outcome State Fault Refusal :=
  .next (writeReg rq (Reg.addr .NTU_TIME_CTL []) 4 5 okNtu wrNtu s)

/-- ARM (R360): ARM 0xA5 with OP 0. -/
def execNtuArm (rq : Req) (s : State) : Host.Outcome State Fault Refusal :=
  .next (writeReg rq (Reg.addr .NTU_TIME_CTL []) 4 0xA500 okNtu wrNtu s)

/-- ARM_EXPIRY (R360): 1 ms after arming. -/
def execNtuArmExpiry (s : State) : Host.Outcome State Fault Refusal :=
  .next (match s.ntu.armedAt with
    | some t => if 1000000 ≤ s.ntu.raw - t then s.disarm else s
    | none => s)

/-- SLEW_END (R359): the slew has absorbed its offset. -/
def execSlewEnd (s : State) : Host.Outcome State Fault Refusal :=
  .next (match s.ntu.slew with
    | some (off, _) =>
      if s.slewDone = off then
        (s.ntuUpd (fun n => { n with k := n.k + off, slew := none })).set Fld.NTU_STATUS.SLEWING [] 0
      else s
    | none => s)

/-- SERVO_WATCHDOG (R361, R364): SERVO_TO without servo activity while LOCKED; none with SERVO_TO 0 or in OP-8 mode. -/
def execServoWatchdog (s : State) : Host.Outcome State Fault Refusal :=
  .next (if s.ntu.running ∧ s.timeState = 1 ∧ s.get Fld.NTU_CFG.OP8 = 0 ∧ s.get Fld.NTU_CFG.SERVO_TO ≠ 0
      ∧ s.get Fld.NTU_CFG.SERVO_TO * 100000000 ≤ s.ntu.raw - s.ntu.wdFrom then
    (s.setTimeState 2).inc .NTU_CNT_SERVO_TO else s)

/-- TIME_RATE_WRITE (R353, R361): a write of NTU_TIME_RATE_HI commits both halves. -/
def execTimeRateWrite (rq : Req) (v : Word) (s : State) : Host.Outcome State Fault Refusal :=
  .next (writeReg rq (Reg.addr .NTU_TIME_RATE_HI []) 4 v okNtu wrNtu s)

/-- NTU_TIME_NS (R355). -/
def execNtuTimeNs (rq : Req) (s : State) : Host.Outcome State Fault Refusal :=
  .next (readReg rq (Reg.addr .NTU_TIME_NS []) 4 readAny rdNtu s)

/-- PPS_OUT and TSYNC_IO are driven in this mode (R376). -/
def State.pulsesOn (s : State) : Bool := s.ntu.running && s.mode != 5 && s.mode != 0

/-- PPS_OUT_PULSE (R372, R375): the second boundary plus OFFSET has come; no pulse is cut short. -/
def execPpsOutPulse (s : State) : Host.Outcome State Fault Refusal :=
  .next (if s.pulsesOn ∧ s.flag Fld.NTU_PPS_CFG.OUT_EN ∧ s.ntu.ppsNext ≤ s.ppsIndex ∧ s.ntu.ppsHighUntil ≤ s.ntu.raw then
    let w := max 1 (s.get Fld.NTU_PPS_CFG.WIDTH) * 1000000
    if s.flag Fld.NTU_PPS_CFG.QUAL && s.timeState == 0 then s.ppsAlign
    else (s.ppsAlign.ntuUpd (fun n => { n with ppsHighUntil := n.raw + w })).emit .ppsOut [s.ntu.raw, w]
  else s)

/-- PPS_IN (R372): a rising edge is stamped and counted. -/
def execPpsIn (s : State) : Host.Outcome State Fault Refusal :=
  .next (if s.pulsesOn then
    ((s.ntuUpd (fun n => { n with ppsStamp := s.stamp })).sets [] [(Fld.NTU_CAP_STAT.PPS_VALID, 1),
      (Fld.NTU_CAP_STAT.PPS_EDGES, s.get Fld.NTU_CAP_STAT.PPS_EDGES + 1)]).raise (ev 6 8)
  else s)

/-- TSYNC_IN_EDGE (R373): an edge that EDGE selects is stamped and counted. -/
def execTsyncInEdge (rising : Bool) (s : State) : Host.Outcome State Fault Refusal :=
  .next (if s.pulsesOn ∧ s.flag Fld.NTU_TSYNC_CFG.EN ∧ s.get Fld.NTU_TSYNC_CFG.DIR = 0
      ∧ (2 ≤ s.get Fld.NTU_TSYNC_CFG.EDGE ∨ s.get Fld.NTU_TSYNC_CFG.EDGE = (if rising then 0 else 1)) then
    (s.ntuUpd (fun n => { n with tsyncStamp := s.stamp })).sets [] [(Fld.NTU_CAP_STAT.TSYNC_VALID, 1),
      (Fld.NTU_CAP_STAT.TSYNC_EDGES, s.get Fld.NTU_CAP_STAT.TSYNC_EDGES + 1)]
  else s)

/-- NTU_TSYNC_START (R373): a write arms a pulse at a launch time. -/
def execNtuTsyncStart (rq : Req) (v : Word) (s : State) : Host.Outcome State Fault Refusal :=
  .next (writeReg rq (Reg.addr .NTU_TSYNC_START []) 4 v okNtu wrNtu s)

/-- TSYNC_OUT_PULSE (R373): an armed pulse at its instant; with a PERIOD the next is armed. -/
def execTsyncOutPulse (s : State) : Host.Outcome State Fault Refusal :=
  .next (match s.ntu.tsyncNext with
    | some t =>
      if s.pulsesOn && decide (t ≤ s.netTime) then
        let p := (s.reg .NTU_TSYNC_PERIOD).toNat
        (s.ntuUpd (fun n => { n with tsyncNext := if p = 0 then none else some (t + p) })).emit .tsyncOut
          [s.ntu.raw, max 1 (s.get Fld.NTU_TSYNC_CFG.WIDTH) * 10]
      else s
    | none => s)

/-- NTU_CAP_STAT (R373): a read latches both capture stamps. -/
def execNtuCapStat (rq : Req) (s : State) : Host.Outcome State Fault Refusal :=
  .next (readReg rq (Reg.addr .NTU_CAP_STAT []) 4 readAny rdNtu s)

/-- NTU_TXTS_POP (R26, R370). -/
def execNtuTxtsPop (rq : Req) (s : State) : Host.Outcome State Fault Refusal :=
  .next (readReg rq (Reg.addr .NTU_TXTS_POP []) 4 readAny rdNtu s)

/-- PTM_REQUEST (R371). -/
def execPtmRequest (rq : Req) (s : State) : Host.Outcome State Fault Refusal :=
  .next (writeReg rq (Reg.addr .NTU_PTM_CTL []) 4 1 okNtu wrNtu s)

/-- PTM_RESPONSE (R371): PTM Master Time and Propagation Delay of the ResponseD. -/
def execPtmResponse (master delay : Nat) (s : State) : Host.Outcome State Fault Refusal :=
  .next (match s.ntu.ptmSent with
    | some (at1, t1) =>
      if s.ntu.raw - at1 < 1000000 then
        ((((((((s.ntuUpd (fun n => { n with ptmSent := none })).setReg .NTU_PTM_T1 [] (w32 t1)).setReg .NTU_PTM_T4 []
          (w32 s.stamp)).setReg .NTU_PTM_MT_LO [] (w32 master)).setReg .NTU_PTM_MT_HI [] (w32 (master / 2 ^ 32))).setReg
          .NTU_PTM_DELAY [] (w32 delay)).commit .NTU_PTM_STAT [] 0)).raise (ev 6 11)
      else s
    | none => s)

/-- PTM_TIMEOUT (R371): 1 ms without a response. -/
def execPtmTimeout (s : State) : Host.Outcome State Fault Refusal :=
  .next (match s.ntu.ptmSent with
    | some (at1, _) =>
      if 1000000 ≤ s.ntu.raw - at1 then
        ((s.ntuUpd (fun n => { n with ptmSent := none })).commit .NTU_PTM_STAT [] (2 * 2 ^ 24)).raise (ev 6 11)
      else s
    | none => s)

/-- SYNCE_SOURCE_LOSS (R374): the source lane loses lock or goes down. -/
def execSynceSourceLoss (s : State) : Host.Outcome State Fault Refusal :=
  .next (if s.ntu.running ∧ s.flag Fld.NTU_SYNCE_CFG.EN ∧ s.get Fld.NTU_SYNCE_STAT.STATE = 1 then s.synceState 2 else s)

/-- SYNCE_RELOCK (R374): 10 s after the source lane recovered, at instant `back`. -/
def execSynceRelock (back : Nat) (s : State) : Host.Outcome State Fault Refusal :=
  .next (if s.ntu.running ∧ s.flag Fld.NTU_SYNCE_CFG.EN ∧ s.get Fld.NTU_SYNCE_STAT.STATE = 2
      ∧ back + 10000000000 ≤ s.now then s.synceState 1 else s)

/-- SLP_RATIO_MEASURE (R366): while REFCLK is present, the raw span of 32,768 sleep ticks; the first run only marks where the
measurement starts. -/
def execSlpRatioMeasure (s : State) : Host.Outcome State Fault Refusal :=
  .next (if s.ntu.running && s.pwr.refclk && s.pwr.slpOn then
    match s.ntu.slpMark with
    | none => s.ntuUpd (fun n => { n with slpMark := some (s.slpTicks, n.raw) })
    | some (t0, r0) =>
      if t0 + 32768 ≤ s.slpTicks then
        ((s.ntuUpd (fun n => { n with slpMark := some (s.slpTicks, n.raw) })).setReg .NTU_SLP_RATIO []
          (w32 (2 * ((s.ntu.raw - r0) * 32768 / (s.slpTicks - t0))))).set Fld.NTU_STATUS.SLP_CAL [] 1
      else s
  else s)

/-- TIME_RECORD_WRITE (R366): once per second of the sleep counter in Service, Fenced and Banked. -/
def execTimeRecordWrite (s : State) : Host.Outcome State Fault Refusal :=
  .next (if s.ntu.running ∧ s.pwr.slpOn ∧ (s.serving ∨ s.mode = 2)
      ∧ (match s.pwr.timeRec with
        | some t => t.ticks / 32768
        | none => 0) < s.slpTicks / 32768 then
    { s with pwr := { s.pwr with timeRec := some s.ntuRecord } } else s)

end Sys2Proof.Machine
end

