-- ==== Sys2Proof/Machine/Cipher.lean ====
section
/-! DEFINITION. The ciphers and MACs that spec/ names (R276, R436, R452) as functions of `Config`, and the key slots (R447). -/
namespace Sys2Proof.Machine

/-- AES-GMAC or the tag of AES-GCM: IV, additional data, ciphertext, tag length in bytes. -/
def gcmTag (key iv aad text : Bytes) (n : Nat) : Bytes :=
  slice (Config.mac 1 key (leBytes 4 iv.length ++ iv ++ leBytes 4 aad.length ++ aad ++ text) n) 0 n

/-- AES-CMAC (SP 800-38B), the first `n` bytes. -/
def aesCmac (key data : Bytes) (n : Nat) : Bytes := slice (Config.mac 2 key data n) 0 n

/-- The tag of AES-CCM (SP 800-38C): nonce, additional data, plain text, tag length in bytes. -/
def ccmTag (key nonce aad text : Bytes) (n : Nat) : Bytes :=
  slice (Config.mac 3 key (leBytes 4 nonce.length ++ nonce ++ leBytes 4 aad.length ++ aad ++ text) n) 0 n

/-- HMAC-SHA-256, the first `n` bytes. -/
def hmac256 (key data : Bytes) (n : Nat) : Bytes := slice (Config.mac 4 key data n) 0 n

/-- AES in counter mode, both ways: kind of counter block (1 CTR, 2 GCM, 3 CCM), IV or nonce. -/
def aesCtr (kind : Nat) (key iv text : Bytes) : Bytes := slice (Config.cipher kind key iv [] text) 0 text.length

/-- AES-XTS: tweak, data, whether encryption; the second key follows the first. -/
def aesXts (key tweak text : Bytes) (enc : Bool) : Bytes := slice (Config.cipher 4 key tweak [b8 (b2n enc)] text) 0 text.length

/-- The group of a slot as the SECURITY record has it (R441, R447): WRITERS, USERS, FLAGS. -/
def State.slotGroup (s : State) (n : Nat) : Bytes := slice (s.body 6 0x35) (0x50 + 8 * (n / 512)) 8

/-- Key in a slot (R447). -/
def State.slotKey (s : State) (n : Nat) : Option Bytes := (s.kiln.slots.find? (fun k => k.slot == n)).map (·.key)

/-- A client may use a slot (R449): 0 WLAN, 1 ESP, 2 MACsec, 3 Tixia, 4 job rings, 5 KEK. -/
def State.slotMay (s : State) (client n : Nat) : Bool := bitOf (leAt (s.slotGroup n) 2 1) client

/-- A refusal under R449 is counted, and the first in a second raises CIP_POLICY. -/
def State.slotRefused (s : State) : State :=
  let sec := s.ntu.raw / 1000000000
  let s1 := { s.inc .CIP_CNT_POLICY with kiln := { s.kiln with polSecond := some sec } }
  if s.kiln.polSecond = some sec then s1 else s1.raise (ev 5 30)

/-- A use of a slot by a client (R449): its key, or `none` with the refusal counted. -/
def State.useKey (s : State) (client n : Nat) : Option Bytes × State :=
  match s.slotKey n with
  | none => (none, s)
  | some k => if s.slotMay client n then (some k, s) else (none, s.slotRefused)

end Sys2Proof.Machine
end

