-- ==== Sys2Proof/Machine/Memory.lean ====
section
/-! DEFINITION. Memories (R379, R407 to R431): the system address map and who reaches what, ECC and poisoned words, packet
buffers, the DRAM channels. -/
namespace Sys2Proof.Machine

/-- What stands at a system address (R379). -/
inductive Area where
  | sram (bank : Nat)
  | pbuf
  | rkn (k : Nat)
  | rcore (r : Nat) (instr : Bool)
  | dram
  | none
  deriving DecidableEq, Repr

/-- Bytes of DRAM fitted by the DRAM record: two channels (R417). -/
def State.dramBytes (s : State) : Nat := 2 * leAt (s.body 6 0x32) 4 1 * 2 ^ 30

/-- The area of a system address; DRAM ends where the map of R379 ends or the fitted capacity does. -/
def State.area (s : State) (a : Nat) : Area :=
  if 0x10000000 ≤ a ∧ a < 0x11000000 then .sram ((a - 0x10000000) / 0x40000)
  else if 0x12000000 ≤ a ∧ a < 0x14000000 then .pbuf
  else if 0x14000000 ≤ a ∧ a < 0x14400000 then .rkn ((a - 0x14000000) / 0x20000)
  else if 0x15000000 ≤ a ∧ a < 0x150C0000 then
    .rcore ((a - 0x15000000) / 0x20000) (decide ((a - 0x15000000) % 0x20000 < 0x10000))
  else if 0x800000000 ≤ a ∧ a < 0x880000000 ∧ a < 0x800000000 + s.dramBytes then .dram
  else .none

/-- SAVE_BANK of the SRAM_PART record (R407). -/
def State.saveBank (s : State) : Nat := leAt (s.body 6 0x30) 64 1

/-- The byte lies in the save area (R408). -/
def State.inSave (s : State) (a : Nat) : Bool :=
  decide (0x10000000 + s.saveBank * 0x40000 ≤ a ∧ a < 0x10000000 + s.saveBank * 0x40000 + 0x30000)

/-- Secure banks 4 to 11 (R415). -/
def secureBank (b : Nat) : Bool := 4 ≤ b && b ≤ 11

/-- Application core `n` may reach the secure banks (R441: SECURE_CORES). -/
def State.secureCore (s : State) (n : Nat) : Bool := bitOf (leAt (s.body 6 0x35) 1 1) n

/-- Response code of R379, R408 and R415 for one byte: 0 allowed, 1 DECODE, 2 ACCESS. -/
def State.byteCode (s : State) (rq : Req) (a : Nat) : Nat :=
  match s.area a with
  | .none => 1
  | .sram b =>
    if s.body 6 0x30 != [] && s.inSave a then 2
    else if secureBank b then
      (match rq with
      | .kiln => 0
      | .core n => if s.secureCore n then 0 else 2
      | _ => 2)
    else 0
  | .pbuf => (match rq with
      | .rcore r => if r = 5 then 0 else 2
      | .rkn _ => 2
      | _ => 0)
  | .rkn _ => (match rq with
      | .rcore r => if r = 4 then 0 else 2
      | .rkn _ => 2
      | .pcie _ => 2
      | .smbus => 2
      | _ => 0)
  | .rcore r ins => (match rq with
      | .core _ => if ins && s.flag Fld.RGC_CORE_CTL.RUN [r] then 2 else 0
      | _ => 2)
  | .dram => 0

/-- Response code for a run of bytes: the first and last byte decide, since runs cross at most one boundary. -/
def State.rangeCode (s : State) (rq : Req) (a n : Nat) : Nat :=
  if s.byteCode rq a ≠ 0 then s.byteCode rq a
  else if n ≤ 1 then 0
  else if s.area a ≠ s.area (a + n - 1) ∧ s.byteCode rq (a + n - 1) = 0 then
    (match s.area a, s.area (a + n - 1) with
    | .sram b, .sram c => if (List.range (c - b)).any (fun i => s.byteCode rq (0x10000000 + (b + i) * 0x40000) != 0) then 2 else 0
    | .rkn _, .rkn _ => 0
    | .rcore _ _, .rcore _ _ => 0
    | _, _ => 1)
  else s.byteCode rq (a + n - 1)

/-- Base of the ECC word of an address: 8 bytes on-chip (R411), the 64-byte line in DRAM (R425). -/
def wordBase (a : Nat) : Nat := if 0x800000000 ≤ a then a / 64 * 64 else a / 8 * 8

/-- Some byte of the run lies in a poisoned word. -/
def State.poisonedIn (s : State) (a n : Nat) : Bool :=
  s.mems.poisoned.any (fun p => decide (wordBase a ≤ p ∧ p < a + n))

/-- The poison that a write of the run leaves: words it covers whole are clean again (R411). -/
def unpoison (l : List Nat) (a n : Nat) : List Nat :=
  l.filter (fun p => !decide (a ≤ p ∧ p + (if 0x800000000 ≤ p then 64 else 8) ≤ a + n))

/-- Write bytes to memory and clean the words they cover. -/
def State.memPut (s : State) (a : Nat) (bs : Bytes) : State :=
  { s.put a bs with mems := { s.mems with poisoned := unpoison s.mems.poisoned a bs.length } }

/-- Capture an uncorrectable on-chip word (R411, R412). -/
def State.sramEcc (s : State) (a : Nat) : State :=
  let m := match s.area a with
    | .pbuf => (1, (a - 0x12000000) / 8)
    | .rkn _ => (2, (a - 0x14000000) / 8)
    | _ => (0, (a - 0x10000000) / 8)
  (((s.setReg .SRM_ECC_ADDR [] (w32 (2 ^ 31 + m.1 * 2 ^ 22 + m.2 % 2 ^ 22))).inc .SRM_CNT_UNCORR)).raise (ev 6 14)

/-- A word or line is poisoned from here on (R411). -/
def State.poison (s : State) (b : Nat) : State :=
  if s.mems.poisoned.contains b then s else { s with mems := { s.mems with poisoned := b :: s.mems.poisoned } }

/-- DRAM channel of an address: bit 8 (R416). -/
def dramCh (a : Nat) : Nat := a / 256 % 2

/-- Channel-local 64-byte line of an address. -/
def dramLine (a : Nat) : Nat := (a - 0x800000000) / 512 * 4 + (a - 0x800000000) / 64 % 4

/-- Capture an uncorrectable DRAM line (R425). -/
def State.dramEcc (s : State) (ch line : Nat) : State :=
  ((s.setReg .DMC_ECC_ADDR [ch] (w32 (2 ^ 31 + line % 2 ^ 28))).inc .DMC_CNT_UNCORR [ch]).raise (ev 6 17)

/-- Capture an uncorrectable word or line at an address. -/
def State.eccAt (s : State) (a : Nat) : State :=
  if 0x800000000 ≤ a then s.dramEcc (dramCh a) (dramLine a) else s.sramEcc a

/-- A requester's read of memory (R379, R411, R425): code, bytes, next state. -/
def State.memRead (s : State) (rq : Req) (a n : Nat) : Nat × Bytes × State :=
  let c := s.rangeCode rq a n
  if c ≠ 0 then (c, [], s)
  else if s.poisonedIn a n then (4, [], s.eccAt a)
  else (0, s.bytes a n, s)

/-- A requester's write of memory: a narrow write to a poisoned word is not performed (R411). -/
def State.memWrite (s : State) (rq : Req) (a : Nat) (bs : Bytes) : Nat × State :=
  let c := s.rangeCode rq a bs.length
  if c ≠ 0 then (c, s)
  else if (unpoison s.mems.poisoned a bs.length).any (fun p => decide (wordBase a ≤ p ∧ p < a + bs.length)) then (4, s)
  else (0, s.memPut a bs)

/-- Zeros with valid check bits over a range (R413, R415). -/
def State.memZero (s : State) (a n : Nat) : State :=
  { s.memDrop a (a + n) with mems := { s.mems with poisoned := s.mems.poisoned.filter (fun p => !decide (a ≤ p ∧ p < a + n)) } }

/-- The secure banks wiped (R415). -/
def State.wipeSecure (s : State) : State := s.memZero 0x10100000 0x200000

/-! Packet buffers (R428) -/

/-- Shared banks used as packet buffer (R407). -/
def State.pbBanks (s : State) : Nat := ((List.range 64).filter (fun b => leAt (s.body 6 0x30) b 1 == 1)).length

/-- A handle in DRAM. -/
def inDram (h : Nat) : Bool := 0x800000000 / 64 ≤ h

/-- Bytes of on-chip packet buffer, or of the DRAM packet area, in use. -/
def State.bufUse (s : State) (dram : Bool) : Nat :=
  ((s.mems.bufs.filter (fun b => inDram b.handle == dram)).map (fun b => ceilDiv b.bytes 64 * 64)).sum

/-- Base of the DRAM packet area in 64-byte units, and its size. -/
def State.pktArea (s : State) : Nat × Nat :=
  (0x800000000 / 64 + leAt (s.body 6 0x32) 8 4 * 16384, leAt (s.body 6 0x32) 12 4 * 16384)

/-- DRAM packet budget rate in bits per ns by type (R416). -/
def budgetRate (t : Nat) : Nat := if t = 0 then 50 else if t = 2 then 100 else 200

/-- The budget bucket brought up to the present (R428). -/
def State.budgetNow (s : State) : Nat :=
  min 65536 (s.mems.budget + (s.now - s.mems.budgetAt) * budgetRate (leAt (s.body 6 0x32) 0 1) / 8)

/-- A place of `n` units free of every buffer in use, in `[lo, lo + size)`: which one is free (notes/assumptions/20.md), the first
fit from a free start or from the end of a buffer. -/
def State.fit (s : State) (lo size n : Nat) : Option Nat :=
  let ok := fun h => decide (lo ≤ h ∧ h + n ≤ lo + size)
    && s.mems.bufs.all (fun b => decide (h + n ≤ b.handle ∨ b.handle + ceilDiv b.bytes 64 ≤ h))
  ((lo + Config.freeNat s.free % max 1 size) :: lo :: s.mems.bufs.map (fun b => b.handle + ceilDiv b.bytes 64)).find? ok

/-- Place an admitted packet (R428): `none` when neither memory can take it. -/
def State.bufAlloc (s : State) (bytes : Nat) : Option Nat × State :=
  let n := ceilDiv (max 1 bytes) 64
  let spill := decide (s.get Fld.PBF_CFG.SPILL * 65536 ≤ s.bufUse false)
  let area := s.pktArea
  let bud := s.budgetNow
  let room := if spill && decide (0 < area.2) then s.fit area.1 area.2 n else none
  match room with
  | some h =>
    if bytes ≤ bud then
      (some h, { s with free := s.free + 1,
                        mems := { s.mems with bufs := ⟨h, bytes⟩ :: s.mems.bufs, budget := bud - bytes, budgetAt := s.now } })
    else
      match s.fit (0x12000000 / 64) 0x80000 n with
      | some g => (some g, ({ s with free := s.free + 1, mems := { s.mems with bufs := ⟨g, bytes⟩ :: s.mems.bufs } }).inc .PBF_CNT_SPILL_CAP)
      | none => (none, s)
  | none =>
    match s.fit (0x12000000 / 64) 0x80000 n with
    | some g => (some g, { s with free := s.free + 1, mems := { s.mems with bufs := ⟨g, bytes⟩ :: s.mems.bufs } })
    | none =>
      match (List.range 64).findSome? (fun b =>
          if leAt (s.body 6 0x30) b 1 = 1 then s.fit (0x10000000 / 64 + b * 4096) 4096 n else none) with
      | some g => (some g, { s with free := s.free + 1, mems := { s.mems with bufs := ⟨g, bytes⟩ :: s.mems.bufs } })
      | none => (none, s)

/-- Free a handle. -/
def State.bufFree (s : State) (h : Nat) : State :=
  { s with mems := { s.mems with bufs := s.mems.bufs.filter (fun b => b.handle != h) } }

/-! DRAM channels -/

/-- A channel. -/
def State.ch (s : State) (c : Nat) : Dmc := (s.mems.dmc[c]?).getD Dmc.reset

/-- A channel updated. -/
def State.chUpd (s : State) (c : Nat) (f : Dmc → Dmc) : State := { s with mems := { s.mems with dmc := updAt s.mems.dmc c f } }

/-- The channel serves commands: trained and not in self-refresh (R418, R427). -/
def State.chOn (s : State) (c : Nat) : Bool :=
  decide (c < 2) && s.flag Fld.DMC_STAT.TRAINED [c] && !s.flag Fld.DMC_STAT.SELF_REFRESH [c] && s.mode != 5

/-- The row open in a bank. -/
def Dmc.openRow (d : Dmc) (bank rank : Nat) : Option Nat :=
  (d.openRows.find? (fun e => e.1 == bank && e.2.1 == rank)).map (·.2.2)

/-- A request enters its bank queue; a read whose row a pending write of the queue has puts the bank into in-order mode
(R420). -/
def State.dramEnter (s : State) (c : Nat) (q : DramReq) : State :=
  let d := s.ch c
  let q1 := { q with num := d.nextNum, at_ := s.now }
  let s1 := s.chUpd c (fun d => { d with queue := d.queue ++ [q1], nextNum := d.nextNum + 1 })
  let ws := d.queue.filter (fun w => w.write && w.bank == q.bank && w.rank == q.rank && w.row == q.row)
  match ws.getLast? with
  | some w =>
    if q.write then s1
    else if d.inOrder.any (fun e => e.1 == q.bank && e.2.1 == q.rank) then
      s1.chUpd c (fun d => { d with inOrder := d.inOrder.map (fun e =>
        if e.1 == q.bank && e.2.1 == q.rank then (e.1, e.2.1, max e.2.2 w.num) else e) })
    else (s1.chUpd c (fun d => { d with inOrder := (q.bank, q.rank, w.num) :: d.inOrder })).inc .DMC_CNT_INORDER [c]
  | none => s1

/-- The request needs an activation of its bank. -/
def Dmc.needsAct (d : Dmc) (q : DramReq) : Bool := d.openRow q.bank q.rank != some q.row

/-- A throttle holds the request back now (R423). -/
def State.throttled (s : State) (c : Nat) (q : DramReq) : Bool :=
  (s.ch c).needsAct q && q.port.isNone && (s.ch c).throttles.any (fun t => t.bank == q.bank && t.rank == q.rank && t.rq == q.rq
    && decide (s.now < t.ends) && decide (s.now < t.last + max 1 (s.get Fld.DMC_ACT_CFG.THROT_GAP [c]) * 100))

/-- The request may be issued now (R420, R423, R429): first of its bank in in-order mode, not throttled, and no earlier
request of its requester in the bank held back. -/
def State.dramReady (s : State) (c : Nat) (q : DramReq) : Bool :=
  let d := s.ch c
  let before := d.queue.filter (fun w => decide (w.num < q.num) && w.bank == q.bank && w.rank == q.rank)
  (!d.inOrder.any (fun e => e.1 == q.bank && e.2.1 == q.rank) || before.isEmpty)
    && !s.throttled c q && !before.any (fun w => w.rq == q.rq && s.throttled c w)

/-- The order of R419: panic, older than 2 µs, row hit by class, class; ties go to the oldest. -/
def State.dramRank (s : State) (c : Nat) (q : DramReq) : Nat :=
  let d := s.ch c
  if (match q.port with
    | some p => d.panic.any (fun e => e.port == p)
    | none => false) then 0
  else if q.at_ + 2000 < s.now then 1
  else if !d.needsAct q then 2 + min q.cls 2
  else 5 + min q.cls 2

/-- The request that the channel issues next. -/
def State.dramPick (s : State) (c : Nat) : Option DramReq :=
  ((s.ch c).queue.filter (s.dramReady c ·)).foldl (fun b q =>
    match b with
    | none => some q
    | some p => if s.dramRank c q < s.dramRank c p then some q else some p) none

/-- The requester with the most activations of a bank among those counted, and whether it is a real-time port (R423). -/
def offender (l : List DramAct) : Nat × Bool :=
  l.foldl (fun b x => if (l.filter (fun y => y.rq == b.1)).length < (l.filter (fun y => y.rq == x.rq)).length then (x.rq, x.rt) else b)
    (match l with
    | [] => (0, false)
    | x :: _ => (x.rq, x.rt))

/-- Act on a bank whose count has reached ACT_MAX (R423, R424). -/
def State.dramDisturb (s : State) (c bank rank : Nat) (l : List DramAct) : State :=
  let o := offender l
  let s1 := (s.setReg .DMC_DIST_STAT [c] (w32 (2 ^ 31 + b2n o.2 * 2 ^ 30 + o.1 * 2 ^ 16 + rank * 32 + bank))).inc .DMC_CNT_TREF [c]
  let t1 : DramThrot := ⟨bank, rank, o.1, s.now + max 1 (s.get Fld.DMC_ACT_CFG.THROT_WIN [c]) * 10000, s.now⟩
  let keep := (s.ch c).throttles.filter (fun t => !(t.bank == bank && t.rank == rank && t.rq == o.1))
  let s2 := if o.2 then s1 else (s1.chUpd c (fun d => { d with throttles := t1 :: keep })).inc .DMC_CNT_THROT [c]
  (s2.chUpd c (fun d => { d with acts := d.acts.filter (fun x => !(x.bank == bank && x.rank == rank)) })).raise (ev 6 16)

/-- Count an activation (R423). -/
def State.dramActivate (s : State) (c : Nat) (q : DramReq) : State :=
  let s1 := s.chUpd c (fun d => { d with
    acts := ⟨q.bank, q.rank, q.rq, q.port.isSome, s.now⟩ :: d.acts.filter (fun x => decide (s.now < x.at_ + 64000)),
    throttles := d.throttles.map (fun t => if t.bank == q.bank && t.rank == q.rank && t.rq == q.rq then { t with last := s.now } else t) })
  let l := (s1.ch c).acts.filter (fun x => x.bank == q.bank && x.rank == q.rank)
  if max 64 (s.get Fld.DMC_ACT_CFG.ACT_MAX [c]) ≤ l.length then s1.dramDisturb c q.bank q.rank l else s1

/-- Issue a request: activate its row if another is open, serve it, leave in-order mode once the awaited write is done; with
PAGE_IDLE 0 the bank is precharged at once (R419, R420). -/
def State.dramIssue (s : State) (c : Nat) (q : DramReq) : State :=
  let s1 := if (s.ch c).needsAct q then s.dramActivate c q else s
  s1.chUpd c (fun d => { d with
    queue := d.queue.filter (fun w => w.num != q.num),
    inOrder := d.inOrder.filter (fun e => !(e.1 == q.bank && e.2.1 == q.rank && e.2.2 == q.num)),
    openRows := (if s.get Fld.DMC_CFG.PAGE_IDLE [c] = 0 then [] else [(q.bank, q.rank, q.row)])
      ++ d.openRows.filter (fun e => !(e.1 == q.bank && e.2.1 == q.rank)),
    lastUse := (q.bank, q.rank, s.now) :: d.lastUse.filter (fun e => !(e.1 == q.bank && e.2.1 == q.rank)) })

/-- Values the registers of SRM, PBF and the channels let through. -/
def okMem (r : Reg) (_ : List Nat) (v : Word) (_ : Req) (_ : State) : Bool :=
  match r with
  | .DMC_ACT_CFG => 64 ≤ wbits v 15 0
  | .DMC_RT_CFG => 1 ≤ wbits v 7 0 && wbits v 7 0 ≤ 63
  | _ => true

/-- Performed reads of SRM, PBF and channel registers. -/
def rdMem (r : Reg) (ix : List Nat) (rq : Req) (s : State) : Word × State :=
  match r with
  | .PBF_STAT => (w32 (s.bufUse false / 65536 % 65536 * 65536 + s.bufUse true / 65536 % 65536), s)
  | _ => loadWord r ix rq s

/-! The rows -/

/-- SRAM_SCRUB (R412): the scrub reads the word at `a`; outcome 0 clean, 1 single-bit error, 2 uncorrectable. -/
def execSramScrub (a outcome : Nat) (s : State) : Host.Outcome State Fault Refusal :=
  .next (if s.flag Fld.SRM_CFG.SCRUB_EN ∧ s.pwr.powered.contains 6 ∧ s.mode ≠ 5 ∧ a < 0x14400000 ∧ s.area a ≠ .none then
    if outcome = 2 ∨ s.mems.poisoned.contains (wordBase a) then
      (s.poison (wordBase a)).sramEcc a
    else if outcome = 1 then s.inc .SRM_CNT_CORR
    else s
  else s)

/-- CLASS of a block of a region (R43): 0 real-time, 1 bulk, 2 management. -/
def State.qosClass (s : State) (r b : Nat) : Nat := leAt (s.body r 3) (4 * b + 1) 1

/-- DRAM_COMMAND (R43, R419, R420, R423 to R425): the requests that have arrived enter their bank queues, each with the class of the block that sends it, and the channel issues the next
one; `ecc` is what its line shows: 0 clean, 1 corrected, 2 uncorrectable, with the line in `line`. -/
def execDramCommand (c : Nat) (arrivals : List DramArrival) (ecc line : Nat) (s : State) : Host.Outcome State Fault Refusal :=
  .next (if s.chOn c then
    let s1 := arrivals.foldl (fun t q => t.dramEnter c ⟨0, q.bank, q.rank, q.row, q.write, t.qosClass (q.rq / 32) q.block, q.port, q.rq, 0⟩) s
    match s1.dramPick c with
    | none => s1
    | some q =>
      let s2 := s1.dramIssue c q
      if q.write then s2
      else if ecc = 1 then s2.inc .DMC_CNT_CORR [c]
      else if ecc = 2 then s2.dramEcc c line
      else s2
  else s)

/-- THROTTLE_END (R423): THROT_WIN has passed. -/
def execThrottleEnd (c : Nat) (s : State) : Host.Outcome State Fault Refusal :=
  .next (s.chUpd c (fun d => { d with throttles := d.throttles.filter (fun t => decide (s.now < t.ends)) }))

/-- tREFI of the DRAM record in ns, at the refresh rate the devices ask for (R417, R418). -/
def State.tRefi (s : State) (c : Nat) : Nat :=
  leAt (s.body 6 0x32) 46 2 * 2000 / max 1 (leAt (s.body 6 0x32) 2 2) / max 1 (s.ch c).refreshRate

/-- DRAM_REFRESH (R419, R422): tREFI has elapsed; while a port is in PANIC the refresh is postponed up to JEDEC's limit. A
refresh closes every row. -/
def execDramRefresh (c : Nat) (s : State) : Host.Outcome State Fault Refusal :=
  .next (if s.chOn c ∧ (s.ch c).lastRefresh + s.tRefi c ≤ s.now then
    if !(s.ch c).panic.isEmpty ∧ (s.ch c).refreshOwed < Config.refreshPostpone (leAt (s.body 6 0x32) 0 1) then
      s.chUpd c (fun d => { d with refreshOwed := d.refreshOwed + 1, lastRefresh := s.now })
    else s.chUpd c (fun d => { d with refreshOwed := if d.panic.isEmpty then 0 else d.refreshOwed, lastRefresh := s.now, openRows := [] })
  else s)

/-- ZQ_CALIBRATION (R418, R422): every 100 ms in Service, deferred while a port is in PANIC. -/
def execZqCalibration (c : Nat) (s : State) : Host.Outcome State Fault Refusal :=
  .next (if s.chOn c ∧ s.serving ∧ (s.ch c).panic.isEmpty ∧ (s.ch c).lastZq + 100000000 ≤ s.now then
    s.chUpd c (fun d => { d with lastZq := s.now }) else s)

/-- DRAM_TEMP_POLL (R418): every 10 ms the devices' temperature status sets the refresh rate they ask for. -/
def execDramTempPoll (c rate : Nat) (s : State) : Host.Outcome State Fault Refusal :=
  .next (if s.chOn c ∧ s.serving ∧ (s.ch c).lastTemp + 10000000 ≤ s.now then
    s.chUpd c (fun d => { d with lastTemp := s.now, refreshRate := rate }) else s)

/-- PAGE_IDLE (R419): PAGE_IDLE controller cycles without a request to the bank; the cycle is 8 / MTS µs. -/
def execPageIdle (c bank rank : Nat) (s : State) : Host.Outcome State Fault Refusal :=
  .next (
    let d := s.ch c
    let last := ((d.lastUse.find? (fun e => e.1 == bank && e.2.1 == rank)).map (·.2.2)).getD 0
    if s.chOn c ∧ !d.queue.any (fun q => q.bank == bank && q.rank == rank)
        ∧ s.get Fld.DMC_CFG.PAGE_IDLE [c] * 8000 ≤ (s.now - last) * leAt (s.body 6 0x32) 2 2 then
      s.chUpd c (fun d => { d with openRows := d.openRows.filter (fun e => !(e.1 == bank && e.2.1 == rank)) })
    else s)

/-- PANIC (R421): a real-time port's FIFO holds `lines` lines; it enters PANIC or leaves it. -/
def execDmcPanic (c port lines : Nat) (write : Bool) (s : State) : Host.Outcome State Fault Refusal :=
  .next (if s.chOn c then
    let lo := s.get Fld.DMC_RT_CFG.PANIC_LO [c]
    let low := if write then decide (64 - lo < lines) else decide (lines < lo)
    let was := (s.ch c).panic.any (fun e => e.port == port)
    if low && !was then (s.chUpd c (fun d => { d with panic := ⟨port, s.now, false⟩ :: d.panic })).inc .DMC_CNT_PANIC [c]
    else if !low && was then s.chUpd c (fun d => { d with panic := d.panic.filter (fun e => e.port != port) })
    else s
  else s)

/-- RT_STARVE (R421): a panic has lasted longer than PANIC_MAX (0 behaves as 1); counted and raised once. -/
def execDmcRtStarve (c port : Nat) (s : State) : Host.Outcome State Fault Refusal :=
  .next (if s.chOn c ∧ (s.ch c).panic.any (fun e => e.port == port && !e.late
      && decide (e.since + max 1 (s.get Fld.DMC_RT_CFG.PANIC_MAX [c]) * 100 < s.now)) then
    ((s.chUpd c (fun d => { d with panic := d.panic.map (fun e => if e.port == port then { e with late := true } else e) })).inc
      .DMC_CNT_RT_LATE [c]).raise (ev 6 15)
  else s)

end Sys2Proof.Machine
end

