-- ==== Sys2Proof/Machine/Trust.lean ====
section
/-! DEFINITION. Signatures (R39), the regulatory lock (R98 to R101) and AFC grant records (R238) as other units read them. -/
namespace Sys2Proof.Machine

/-- Both signatures of a block of 3,405 bytes verify under a key pair (R39). -/
def sigBoth (k : KeyPair) (region sig : Bytes) : Bool :=
  Config.ecdsaOk k.ec region (sig.take 96) && Config.mldsaOk k.pq region (slice sig 96 3309)

/-- KEYID of a key: the first 8 bytes of its SHA-384 (R437). -/
def keyId (key : Bytes) : Nat := leNat ((Config.sha384 key).take 8)

/-- Lifecycle code (R434): 0 BLANK, 1 PROVISIONED, 2 DEPLOYED, 3 RETURNED, 4 SCRAPPED. -/
def State.lifecycle (s : State) : Nat := s.get Fld.IDN_LIFECYCLE.STATE

/-- A key of Kiln derived from the DUS (R433, SP 800-108 with HMAC-SHA-384): label, `n` bytes. -/
def State.kdf (s : State) (label : Bytes) (n : Nat) : Bytes :=
  slice (Config.mac 5 Config.deviceSecret (label ++ leBytes 8 Config.deviceId ++ [b8 s.lifecycle]) n) 0 n

/-- A lock is installed (R99). -/
def State.lockOn (s : State) : Bool := bitOf (leAt s.kiln.lock 3 1) 0

/-- LOCK_SERIAL and AUTH_ID of the installed lock (R99). -/
def State.lockSerial (s : State) : Nat := leAt s.kiln.lock 8 4
@[inherit_doc State.lockSerial] def State.lockAuth (s : State) : Nat := leAt s.kiln.lock 12 8

/-- The band rules of the lock (R100). -/
def State.lockRules (s : State) : List Bytes :=
  (List.range (min 32 (leAt s.kiln.lock 2 1))).map (fun i => slice s.kiln.lock (0x40 + 32 * i) 32)

/-- FLAGS of a rule: 0 DFS, 1 AFC, 2 LPI, 3 SUBGHZ. -/
def ruleFlag (r : Bytes) (i : Nat) : Bool := bitOf (leAt r 17 1) i

/-- Network time in seconds. -/
def State.netSeconds (s : State) : Nat := (s.netTime / 1000000000).toNat

/-- The grant entries in force (R239): unexpired, once TIME_STATE has left UNLOCKED. -/
def State.grants (s : State) : List AfcGrant :=
  if s.timeState = 0 then [] else s.radio.afc.filter (fun g => decide (s.netSeconds < g.expiry))

/-- A carrier is covered by a grant entry: its occupied band lies within the entry's (R101), in Hz. -/
def AfcGrant.covers (g : AfcGrant) (hz bw : Nat) : Bool :=
  decide (2 * 1000 * g.centre ≤ 2 * hz + 1000 * g.bw - bw ∧ 2 * hz + bw ≤ 2 * 1000 * g.centre + 1000 * g.bw)

/-- The entries of a grant record (R238). -/
def afcEntries (b : Bytes) (n : Nat) : List AfcGrant :=
  (List.range n).map (fun i => let o := 64 + 32 * i
    { centre := leAt b o 4, bw := 1000 * leAt b (o + 4) 2, eirp := signed 16 (leAt b (o + 6) 2), psd := signed 16 (leAt b (o + 8) 2),
      expiry := leAt b (o + 16) 6 })

/-- An entry of a grant record has its layout (R238). -/
def afcEntryOk (b : Bytes) (i : Nat) : Bool :=
  let o := 64 + 32 * i
  [20, 40, 80, 160, 320].contains (leAt b (o + 4) 2) && allZero (slice b (o + 10) 6) && leAt b (o + 22) 2 == 0 && allZero (slice b (o + 24) 8)

/-- The checks of R239 on a grant record: 0, or the first that fails. -/
def State.afcCheck (s : State) (a : Nat) : Nat :=
  let b := s.bytes a 64
  let n := leAt b 6 1
  let body := s.bytes a (64 + 32 * n)
  if leAt b 0 4 ≠ 0x47434641 ∨ leAt b 4 2 ≠ 1 ∨ n = 0 ∨ 64 < n ∨ leAt b 7 1 ≠ 0 ∨ ¬ allZero (slice b 40 24)
    ∨ ¬ (List.range n).all (afcEntryOk body) then 1
  else if leAt b 8 8 ≠ Config.deviceId then 2
  else if ¬ s.lockOn ∨ leAt b 16 4 ≠ s.lockSerial ∨ leAt b 32 8 ≠ s.lockAuth ∨ ¬ s.lockRules.any (ruleFlag · 1) then 3
  else if ¬ (s.kiln.authority.any (fun k => sigBoth k body (s.bytes (a + 64 + 32 * n) 3405))) then 4
  else if leAt b 20 4 ≤ s.radio.afcSerial then 5
  else if s.timeState = 0 then 6
  else 0

end Sys2Proof.Machine
end

