-- ==== Sys2Proof/Machine/Pkt.lean ====
section
/-! DEFINITION. Reading and rewriting the headers of a packet (R294 to R297, R303 to R318). A packet is the bytes of its frame from the
destination address on, without FCS, or of an IP packet. -/
namespace Sys2Proof.Machine

/-- What a parse has found: the class of the first check failed, the start of a header that crosses the window; the Ethernet header (absent
for a bare IP packet), VLAN tags (VID, DEI), EtherType, where layer 3 begins; IP family (4, 6, 1 ARP, 0 other), layer 4, its protocol and
end, addresses, TTL, DSCP, whether a non-first fragment; ports as the flow key has them, whether the packet has ports, TCP flags. -/
structure Hdr where
  mal : Option Nat
  more : Option Nat
  eth : Bool
  dst : Nat
  src : Nat
  tags : List (Nat × Bool)
  etype : Nat
  l3At : Nat
  fam : Nat
  l4At : Nat
  proto : Nat
  ends : Nat
  sip : Bytes
  dip : Bytes
  ttl : Nat
  dscp : Nat
  frag : Bool
  sport : Nat
  dport : Nat
  ported : Bool
  echo : Bool
  icmp : Nat
  tcpf : Nat
  deriving DecidableEq, Repr

/-- Nothing found yet. -/
def Hdr.empty : Hdr :=
  { mal := none, more := none, eth := true, dst := 0, src := 0, tags := [], etype := 0, l3At := 0, fam := 0, l4At := 0, proto := 0,
    ends := 0, sip := [], dip := [], ttl := 0, dscp := 0, frag := false, sport := 0, dport := 0, ported := false, echo := false,
    icmp := 0, tcpf := 0 }

/-- The parse stops: a header of `n` bytes at `o` crosses the window (R295), or the packet ends inside it (R296 class 0). -/
def Hdr.fits (h : Hdr) (b : Bytes) (limit o n : Nat) : Option Hdr :=
  if b.length < o + n then some { h with mal := some 0 } else if limit < o + n then some { h with more := some o } else none

/-- A check of a class fails (R296): the lowest class counts. -/
def Hdr.check (h : Hdr) (bad : Bool) (c : Nat) : Hdr :=
  if bad then { h with mal := some (match h.mal with
    | some d => min c d
    | none => c) } else h

/-- The one's complement sum of a run of bytes taken as 16-bit words. -/
def onesSum : Bytes → Nat
  | [] => 0
  | [a] => a.toNat * 256
  | a :: b :: t => a.toNat * 256 + b.toNat + onesSum t

/-- The sum folded to 16 bits. -/
def onesFold (n : Nat) : Nat :=
  let f := fun (x : Nat) => x % 65536 + x / 65536
  f (f (f n))

/-- A tunnel header's own rules (R296 class 5): VXLAN, GRE, ESP. -/
def tunnelBad (b : Bytes) (h : Hdr) : Bool :=
  if h.proto = 17 ∧ h.dport = 4789 ∧ ¬ h.frag then
    beAt b (h.l4At + 8) 1 != 8 || beAt b (h.l4At + 9) 3 != 0 || beAt b (h.l4At + 15) 1 != 0
  else if h.proto = 47 ∧ ¬ h.frag then beAt b (h.l4At + 1) 1 % 8 != 0 || bitOf (beAt b h.l4At 1) 6
  else h.proto == 50 && !h.frag && decide (h.ends < h.l4At + 32)

/-- Bytes of a GRE header. -/
def greLen (b : Bytes) (o : Nat) : Nat :=
  let f := beAt b o 1
  4 + 4 * ((if bitOf f 7 then 1 else 0) + (if bitOf f 5 then 1 else 0) + (if bitOf f 4 then 1 else 0))

/-- Layer 4 (R294, R296 class 4), then the tunnel headers. -/
def parseL4 (b : Bytes) (limit : Nat) (h : Hdr) : Hdr :=
  let o := h.l4At
  if h.frag then h
  else match h.proto with
    | 6 => match h.fits b limit o 20 with
      | some x => x
      | none =>
        let d := beAt b (o + 12) 1 / 16
        { h with sport := beAt b o 2, dport := beAt b (o + 2) 2, ported := true, tcpf := beAt b (o + 13) 1 }.check
          (decide (d < 5 ∨ h.ends < o + 4 * d)) 4
    | 17 => match h.fits b limit o 8 with
      | some x => x
      | none =>
        let l := beAt b (o + 4) 2
        let h1 := { h with sport := beAt b o 2, dport := beAt b (o + 2) 2, ported := true }.check (decide (l < 8 ∨ h.ends < o + l)) 4
        if h1.dport = 4789 then (h1.fits b limit (o + 8) 8).getD (h1.check (tunnelBad b h1) 5) else h1
    | 47 => (h.fits b limit o 4).getD ((h.fits b limit o (greLen b o)).getD (h.check (tunnelBad b h) 5))
    | 50 => h.check (tunnelBad b h) 5
    | 1 | 58 => match h.fits b limit o 8 with
      | some x => x
      | none =>
        let t := beAt b o 1
        let e := if h.proto = 1 then decide (t = 8 ∨ t = 0) else decide (t = 128 ∨ t = 129)
        if e then { h with sport := beAt b (o + 4) 2, dport := beAt b (o + 4) 2, echo := true, icmp := t } else { h with icmp := t }
    | _ => h

/-- The extension headers of IPv6 (R294): up to four, then layer 4. -/
def parseExt (b : Bytes) (limit : Nat) : Nat → Nat → Nat → Nat → Hdr → Hdr
  | 0, _, _, _, h => h
  | n + 1, k, next, o, h =>
    if next = 0 ∨ next = 43 ∨ next = 44 ∨ next = 60 then
      if k = 4 then h.check true 3
      else match h.fits b limit o 8 with
        | some x => x
        | none =>
          let len := if next = 44 then 8 else 8 + 8 * beAt b (o + 1) 1
          match h.fits b limit o len with
          | some x => x
          | none =>
            let h1 := if next = 44 ∧ beAt b (o + 2) 2 / 8 ≠ 0 then { h with frag := true } else h
            parseExt b limit n (k + 1) (beAt b o 1) (o + len) h1
    else parseL4 b limit { h with proto := next, l4At := o }

/-- An IPv4 source that R296 class 6 names. -/
def martian4 (a : Bytes) : Bool :=
  beAt a 0 1 == 127 || decide (224 ≤ beAt a 0 1 ∧ beAt a 0 1 ≤ 239) || beAt a 0 4 == 0xFFFFFFFF

/-- Layer 3 at an offset. -/
def parseL3 (b : Bytes) (limit : Nat) (etype o : Nat) (h : Hdr) : Hdr :=
  if etype = 0x0800 then
    match h.fits b limit o 20 with
    | some x => x
    | none =>
      let ihl := beAt b o 1 % 16
      let total := beAt b (o + 2) 2
      match (if ihl < 5 then none else h.fits b limit o (4 * ihl)) with
      | some x => x
      | none =>
        let bad := decide (beAt b o 1 / 16 ≠ 4 ∨ ihl < 5 ∨ onesFold (onesSum (slice b o (4 * ihl))) ≠ 0xFFFF ∨ total < 4 * ihl
          ∨ b.length < o + total)
        let h1 := ({ h with fam := 4, sip := slice b (o + 12) 4, dip := slice b (o + 16) 4, ttl := beAt b (o + 8) 1,
                            dscp := beAt b (o + 1) 1 / 4, frag := decide (beAt b (o + 6) 2 % 8192 ≠ 0), proto := beAt b (o + 9) 1,
                            l4At := o + 4 * ihl, ends := o + total }.check bad 2).check (martian4 (slice b (o + 12) 4)) 6
        if bad then h1 else parseL4 b limit h1
  else if etype = 0x86DD then
    match h.fits b limit o 40 with
    | some x => x
    | none =>
      let pay := beAt b (o + 4) 2
      let s := slice b (o + 8) 16
      let bad := decide (beAt b o 1 / 16 ≠ 6 ∨ b.length < o + 40 + pay)
      let h1 := ({ h with fam := 6, sip := s, dip := slice b (o + 24) 16, ttl := beAt b (o + 7) 1, dscp := beAt b o 2 / 64 % 64,
                          ends := o + 40 + pay }.check bad 3).check (beAt s 0 1 == 0xFF || beNat s == 1) 6
      if bad then h1 else parseExt b limit 6 0 (beAt b (o + 6) 1) (o + 40) h1
  else if etype = 0x0806 then (h.fits b limit o 28).getD { h with fam := 1 }
  else h

/-- VLAN tags, then the EtherType (R294, R296 class 1). -/
def parseTags (b : Bytes) (limit : Nat) : Nat → Nat → Hdr → Hdr
  | 0, _, h => h
  | n + 1, o, h =>
    match h.fits b limit o 2 with
    | some x => x
    | none =>
      let t := beAt b o 2
      if t = 0x8100 ∨ t = 0x88A8 then
        match h.fits b limit o 4 with
        | some x => x
        | none =>
          let c := beAt b (o + 2) 2
          let h1 := { h with tags := h.tags ++ [(c % 4096, bitOf c 12)] }.check (c % 4096 == 0xFFF || decide (2 ≤ h.tags.length)) 1
          if 2 ≤ h.tags.length then h1 else parseTags b limit n (o + 4) h1
      else
        let h1 := { h with etype := t, l3At := o + 2 }.check (decide (t < 0x600 ∧ b.length < o + 2 + t)) 1
        if t < 0x600 then h1 else parseL3 b limit t (o + 2) h1

/-- The parse of a packet with the window of its present pass (R294, R296): `l3` says that it begins at an IP header. -/
def parsePkt (b : Bytes) (l3 : Bool) (off : Nat) : Hdr :=
  let limit := off + 128
  if l3 then parseL3 b limit (if beAt b 0 1 / 16 = 6 then 0x86DD else 0x0800) 0 { Hdr.empty with eth := false, etype := if beAt b 0 1 / 16 = 6 then 0x86DD else 0x0800 }
  else match Hdr.empty.fits b limit 0 12 with
    | some x => x
    | none =>
      let h := { Hdr.empty with dst := beAt b 0 6, src := beAt b 6 6 }.check (bitOf (beAt b 6 1) 0) 6
      parseTags b limit 4 12 h

/-! Rewriting -/

/-- A checksum changed with the words it covers (R313): the old checksum, the old and the new bytes. -/
def cksumAdj (hc : Nat) (old new : Bytes) : Nat :=
  0xFFFF - onesFold (0xFFFF - hc + onesSum (old.map (fun (b : Byte) => ~~~b)) + onesSum new)

/-- Bytes at an even offset replaced, with the checksum at `ck` changed with them. -/
def putSum (b : Bytes) (ck o : Nat) (v : Bytes) : Bytes :=
  patch (patch b o v) ck (beBytes 2 (cksumAdj (beAt b ck 2) (slice b o v.length) v))

/-- Offset of the checksum of layer 4, when it has one in force: a UDP checksum of 0 stays 0. -/
def l4Sum (b : Bytes) (h : Hdr) : Option Nat :=
  if h.frag then none
  else if h.proto = 6 then some (h.l4At + 16)
  else if h.proto = 17 then (if beAt b (h.l4At + 6) 2 = 0 then none else some (h.l4At + 6))
  else none

/-- An IPv4 address and a port of a packet are translated (R313): `dst` says which side. -/
def natRewrite (b : Bytes) (h : Hdr) (dst : Bool) (addr : Bytes) (port : Nat) : Bytes :=
  let ao := h.l3At + (if dst then 16 else 12)
  let old := slice b ao 4
  let b1 := putSum b (h.l3At + 10) ao addr
  let b2 := match l4Sum b h with
    | some c => patch b1 c (beBytes 2 (cksumAdj (beAt b1 c 2) old addr))
    | none => b1
  if h.echo then putSum b2 (h.l4At + 2) (h.l4At + 4) (beBytes 2 port)
  else
    let po := h.l4At + (if dst then 2 else 0)
    match l4Sum b h with
    | some c =>
      let b3 := putSum b2 c po (beBytes 2 port)
      if h.proto = 17 ∧ beAt b3 c 2 = 0 then patch b3 c [0xFF, 0xFF] else b3
    | none => patch b2 po (beBytes 2 port)

/-- TTL or hop limit less one (R306). -/
def ttlDown (b : Bytes) (h : Hdr) : Bytes :=
  if h.fam = 4 then putSum b (h.l3At + 10) (h.l3At + 8) [b8 (h.ttl - 1), b8 (beAt b (h.l3At + 9) 1)]
  else patch b (h.l3At + 7) [b8 (h.ttl - 1)]

/-- An IPv4 or IPv6 header over a payload. `id` stands for what spec/ states no value of: identification and flags, or flow label. -/
def ipHeader (v6 : Bool) (src dst : Bytes) (proto ttl dscp len : Nat) (id : Bytes) : Bytes :=
  if v6 then
    let lab := beAt id 0 4 % 2 ^ 20
    beBytes 4 (6 * 2 ^ 28 + dscp * 2 ^ 22 + lab) ++ beBytes 2 len ++ [b8 proto, b8 ttl] ++ src ++ dst
  else
    let h := [0x45, b8 (4 * dscp)] ++ beBytes 2 (20 + len) ++ slice id 0 4 ++ [b8 ttl, b8 proto, 0, 0] ++ src.take 4 ++ dst.take 4
    patch h 10 (beBytes 2 (0xFFFF - onesFold (onesSum h)))

end Sys2Proof.Machine
end

