-- ==== Sys2Proof/Machine/Plan.lean ====
section
/-! DEFINITION. What the running image says, read from its records (R41 to R48): links, grid, fronthaul carriers, Tixia
channels, sample routes, stacks, fallbacks, lanes, DRAM. -/
namespace Sys2Proof.Machine

/-! Records as bytes: every accessor takes a record body, so the load checks can use them before a cord is applied. -/

/-- WLAN link entry `l` of a LINK_PLAN body (R42). -/
def linkEntry (lp : Bytes) (l : Nat) : Bytes := slice lp (32 * l) 32

/-- PRESENT, BAND, BW, PRIM, CENTRE_KHZ and LO_KHZ of a link (R42). -/
def linkPresent (lp : Bytes) (l : Nat) : Bool := bitOf (leAt (linkEntry lp l) 0 1) 0
@[inherit_doc linkPresent] def linkBand (lp : Bytes) (l : Nat) : Nat := leAt (linkEntry lp l) 1 1
@[inherit_doc linkPresent] def linkBw (lp : Bytes) (l : Nat) : Nat := leAt (linkEntry lp l) 2 1
@[inherit_doc linkPresent] def linkPrim (lp : Bytes) (l : Nat) : Nat := leAt (linkEntry lp l) 3 1
@[inherit_doc linkPresent] def linkCentre (lp : Bytes) (l : Nat) : Nat := leAt (linkEntry lp l) 4 4
@[inherit_doc linkPresent] def linkLo (lp : Bytes) (l : Nat) : Nat := leAt (linkEntry lp l) 8 4
@[inherit_doc linkPresent] def linkChCentre (lp : Bytes) (l : Nat) : Nat := leAt (linkEntry lp l) 12 2
@[inherit_doc linkPresent] def linkChPrim (lp : Bytes) (l : Nat) : Nat := leAt (linkEntry lp l) 14 2

/-- Bandwidth of a link in kHz: 20 MHz times 2^BW. -/
def linkKhz (lp : Bytes) (l : Nat) : Nat := 20000 * 2 ^ linkBw lp l

/-- RESTACK_PERIOD in ns (R42, R65). -/
def gridPeriod (lp : Bytes) : Nat :=
  ([1, 2, 5, 10, 20, 50, 100, 1000][leAt lp 0x60 1]?).getD 1 * 1000000

/-- RESTACK_PHASE in ns (R65). -/
def gridPhase (lp : Bytes) : Nat := leAt lp 0x64 4 * 1000

/-- Fronthaul carrier entry `c`: CENTRE_KHZ, BW_MHZ, SCS, NRB (R242). -/
def fhCentre (lp : Bytes) (c : Nat) : Nat := leAt lp (0x80 + 16 * c) 4
@[inherit_doc fhCentre] def fhBw (lp : Bytes) (c : Nat) : Nat := leAt lp (0x84 + 16 * c) 1
@[inherit_doc fhCentre] def fhScs (lp : Bytes) (c : Nat) : Nat := leAt lp (0x85 + 16 * c) 1
@[inherit_doc fhCentre] def fhNrb (lp : Bytes) (c : Nat) : Nat := leAt lp (0x86 + 16 * c) 2

/-- Tixia channel entry `c`: CENTRE_KHZ, BW code, FLAGS (R267). -/
def lrcCentre (lp : Bytes) (c : Nat) : Nat := leAt lp (0x100 + 8 * c) 4
@[inherit_doc lrcCentre] def lrcBw (lp : Bytes) (c : Nat) : Nat := leAt lp (0x104 + 8 * c) 1
@[inherit_doc lrcCentre] def lrcFlags (lp : Bytes) (c : Nat) : Nat := leAt lp (0x105 + 8 * c) 1

/-- Bandwidth of a Tixia channel in Hz. -/
def lrcHz (lp : Bytes) (c : Nat) : Nat := ([0, 125000, 250000, 500000][lrcBw lp c]?).getD 0

/-- Route entry `n` of a SAMPLE_ROUTE body: ROLE, QMASK, CONSUMER, STREAMS, CARRIER, FLAGS (R112). -/
def routeRole (sr : Bytes) (n : Nat) : Nat := leAt sr (8 * n) 1
@[inherit_doc routeRole] def routeQmask (sr : Bytes) (n : Nat) : Nat := leAt sr (8 * n + 1) 1
@[inherit_doc routeRole] def routeConsumer (sr : Bytes) (n : Nat) : Nat := leAt sr (8 * n + 2) 1
@[inherit_doc routeRole] def routeStreams (sr : Bytes) (n : Nat) : Nat := leAt sr (8 * n + 3) 1
@[inherit_doc routeRole] def routeCarrier (sr : Bytes) (n : Nat) : Nat := leAt sr (8 * n + 4) 1
@[inherit_doc routeRole] def routeFlags (sr : Bytes) (n : Nat) : Nat := leAt sr (8 * n + 5) 1

/-- STACK body: STACK_IDX, LO frequencies in kHz, BEAM_TBL (R45). -/
def stkIdx (st : Bytes) : Nat := leAt st 0 1
@[inherit_doc stkIdx] def stkLo (st : Bytes) (k : Nat) : Nat := leAt st (4 + 4 * k) 4
@[inherit_doc stkIdx] def stkBeam (st : Bytes) : Nat := leAt st 12 1

/-- ROLE, LO_SEL and SET of a local path in a STACK body (R45). -/
def stkRole (st : Bytes) (p : Nat) : Nat := leAt st (16 + 4 * p) 1 % 16
@[inherit_doc stkRole] def stkLoSel (st : Bytes) (p : Nat) : Nat := leAt st (16 + 4 * p) 1 / 16 % 2
@[inherit_doc stkRole] def stkSet (st : Bytes) (p : Nat) : Nat := leAt st (17 + 4 * p) 1 % 8

/-- POLICY byte of a role: 1 RETURN (R45). -/
def stkPolicy (st : Bytes) (role : Nat) : Nat := leAt st (80 + role) 1

/-- RFFE_COUNT, and front-end write `i`: bus, slave, address, data (R45, R87). -/
def stkRffe (st : Bytes) : Nat := leAt st 88 2
@[inherit_doc stkRffe] def stkRffeBus (st : Bytes) (i : Nat) : Nat := leAt st (92 + 4 * i) 1 / 16 % 4

/-- LO frequency rounded to 5 kHz, ties upwards, in 5 kHz units (R74). -/
def loUnits (khz : Nat) : Nat := (2 * khz + 5) / 10

/-- Synthesiser band of a frequency in kHz (R75). -/
def loBand (khz : Nat) : Nat :=
  if khz ≤ 1000000 then 0 else if khz ≤ 2000000 then 1 else if khz ≤ 3000000 then 2
  else if khz ≤ 4500000 then 3 else if khz ≤ 5900000 then 4 else 5

/-- Largest number of front-end writes of a stack on one bus (R66: each takes 1 µs). -/
def stkRffeShare (st : Bytes) : Nat :=
  ((List.range 4).map (fun k => ((List.range (stkRffe st)).filter (fun i => stkRffeBus st i == k)).length)).foldl max 0

/-- t_LO in µs of a change of one LO (R66). -/
def loSettle (a b : Nat) : Nat :=
  if loUnits a = loUnits b ∨ b = 0 then 0 else if a ≠ 0 ∧ loBand (5 * loUnits a) = loBand (5 * loUnits b) then 8 else 40

/-- t_LO of a change from one stack to another. -/
def stkSettle (a b : Bytes) : Nat := max (loSettle (stkLo a 0) (stkLo b 0)) (loSettle (stkLo a 1) (stkLo b 1))

/-- GAP in µs of a change of several quadrants, each from one stack to another (R66). -/
def gapOf (l : List (Bytes × Bytes)) : Nat :=
  4 + max ((l.map (fun e => stkSettle e.1 e.2)).foldl max 0) (max ((l.map (fun e => stkRffeShare e.2)).foldl max 0) 6)

/-- CONV_PLAN of an ISLAND_PLAN body (R71, R467). -/
def islConv (ip : Bytes) : Nat := leAt ip 0 1

/-- Maximum instantaneous bandwidth and ADC rate of a rate plan (R71), in kHz. -/
def planKhz (p : Nat) : Nat := ([400000, 320000, 250000, 160000][p]?).getD 0
@[inherit_doc planKhz] def planAdc (p : Nat) : Nat := ([1250000, 1000000, 800000, 500000][p]?).getD 0

/-! The running image -/

/-- LINK_PLAN and SAMPLE_ROUTE of the running image. -/
def State.linkPlan (s : State) : Bytes := s.body 8 0x10
@[inherit_doc State.linkPlan] def State.sampleRoute (s : State) : Bytes := s.body 8 0x11

/-- The LANES and DRAM records of the running image. -/
def State.lanes (s : State) : Bytes := s.body 6 0x31
@[inherit_doc State.lanes] def State.dramRec (s : State) : Bytes := s.body 6 0x32

/-- The STACK record of quadrant `q` with an index (R45). -/
def State.stackOf (s : State) (q i : Nat) : Option Bytes := (s.bodies q 0x20).find? (fun b => stkIdx b == i)

/-- The running stack of quadrant `q` (RGC_STACK_CUR.CUR). -/
def State.curIdx (s : State) (q : Nat) : Nat := s.get Fld.RGC_STACK_CUR.CUR / 4 ^ q % 4
@[inherit_doc State.curIdx] def State.curStack (s : State) (q : Nat) : Bytes := (s.stackOf q (s.curIdx q)).getD []

/-- The chosen stack of quadrant `q` (RGC_STACK_CUR.CHOSEN, R49). -/
def State.chosenIdx (s : State) (q : Nat) : Nat := s.get Fld.RGC_STACK_CUR.CHOSEN / 4 ^ q % 4

/-- CUR of quadrant `q` replaced. -/
def State.setCur (s : State) (q v : Nat) : State :=
  s.set Fld.RGC_STACK_CUR.CUR [] (setBits (s.get Fld.RGC_STACK_CUR.CUR) (2 * q + 1) (2 * q) v)
@[inherit_doc State.setCur] def State.setChosen (s : State) (q v : Nat) : State :=
  s.set Fld.RGC_STACK_CUR.CHOSEN [] (setBits (s.get Fld.RGC_STACK_CUR.CHOSEN) (2 * q + 1) (2 * q) v)

/-- Role and LO of a global path in the running stack; IDLE while its quadrant does not run or, reloaded, waits for R50. -/
def State.pathRole (s : State) (g : Nat) : Nat := if s.running (g / 16) && !s.radio.awaiting.contains (g / 16) then stkRole (s.curStack (g / 16)) (g % 16) else 0
@[inherit_doc State.pathRole] def State.pathLo (s : State) (g : Nat) : Nat := stkLoSel (s.curStack (g / 16)) (g % 16)

/-- The global paths of a role in the running stacks. -/
def State.rolePaths (s : State) (role : Nat) : List Nat := (List.range 64).filter (fun g => s.pathRole g == role)

/-- Rate plan of quadrant `q`. -/
def State.convPlan (s : State) (q : Nat) : Nat := islConv (s.body q 1)

/-- Route slots of a role and carrier. -/
def State.routeSlot (s : State) (role car : Nat) : Option Nat :=
  (List.range 16).find? (fun n => routeRole s.sampleRoute n == role && (role != 4 || routeCarrier s.sampleRoute n == car))

/-- Network lane `n`: USE, PORT, MODE, FLAGS (R506). -/
def State.laneUse (s : State) (n : Nat) : Nat := leAt s.lanes (4 * n) 1
@[inherit_doc State.laneUse] def State.lanePort (s : State) (n : Nat) : Nat := leAt s.lanes (4 * n + 1) 1
@[inherit_doc State.laneUse] def State.laneMode (s : State) (n : Nat) : Nat := leAt s.lanes (4 * n + 2) 1
@[inherit_doc State.laneUse] def State.laneFlags (s : State) (n : Nat) : Nat := leAt s.lanes (4 * n + 3) 1

/-- Lanes of Ethernet port `p`. -/
def State.portLanes (s : State) (p : Nat) : List Nat :=
  (List.range 8).filter (fun n => s.laneUse n == 1 && s.lanePort n == p)

/-- The network lanes that carry fronthaul, the lowest-numbered first (R244). -/
def State.fhLanes (s : State) : List Nat := (List.range 8).filter (fun n => s.laneUse n == 2)

/-- First grid instant at or after a network time (R65): its nanoseconds field minus the phase is a multiple of the
period. -/
def gridNext (lp : Bytes) (t : Int) : Int :=
  let sec := t / 1000000000
  let p : Int := gridPeriod lp
  let f : Int := gridPhase lp
  let k := (t % 1000000000 - f + p - 1) / p
  let n := f + (if k < 0 then 0 else k) * p
  if n < 1000000000 then sec * 1000000000 + n else (sec + 1) * 1000000000 + f

/-- The network time is a grid instant (R65). -/
def isGrid (lp : Bytes) (t : Int) : Bool := (t % 1000000000 - (gridPhase lp : Int)) % (gridPeriod lp : Int) == 0

end Sys2Proof.Machine
end

