-- ==== Sys2Proof/Machine/PkIn.lean ====
section
/-! DEFINITION. Ports (R290), and how a packet enters the engine's ingress queues (R292, R298). -/
namespace Sys2Proof.Machine

/-- The engine and the traffic manager updated. -/
def State.pkUpd (s : State) (f : Pk → Pk) : State := { s with pk := f s.pk }
@[inherit_doc State.pkUpd] def State.tmUpd (s : State) (f : Tm → Tm) : State := { s with tm := f s.tm }

/-- The running image enables the port (R290, R506): an Ethernet port with lanes, a fronthaul lane, WLAN with a link, the cores, a
function presented. -/
def State.portEnabled (s : State) (p : Nat) : Bool :=
  if p < 8 then !(s.portLanes p).isEmpty
  else if p < 10 then decide (p - 8 < s.fhLanes.length)
  else if p = 10 then s.present 4 && (List.range 3).any (fun l => linkPresent s.linkPlan l)
  else if p = 11 then true
  else decide (p < 20 ∧ p - 12 < leAt s.lanes 34 1)

/-- Port `p` is up (R510): Ethernet 0 to 7, fronthaul lanes 8 and 9. -/
def State.portUp (s : State) (p : Nat) : Bool := (s.ports.up[p]?).getD false

/-- Line rate of an Ethernet port in Mbit/s (R507): the mode of its lanes, and the negotiated speed of modes 2 and 4. -/
def State.lineRate (s : State) (p : Nat) : Nat :=
  match s.portLanes p with
  | [] => 1
  | n :: _ =>
    let speed := ([10, 100, 1000, 10000][s.get Fld.SDS_PORT_STAT.SPEED [p]]?).getD 10
    match leAt s.lanes (4 * n + 2) 1 with
    | 1 => 1000
    | 2 => speed
    | 3 => 2500
    | 4 => speed
    | 5 => 10000
    | 6 => 25000
    | 7 => 50000
    | 8 => 100000
    | _ => 200000

/-- Bytes in the ingress queue of a port. -/
def State.ingUse (s : State) (p : Nat) : Nat := ((s.pk.pkts.filter (fun k => k.port == p && k.st == 0)).map (·.data.length)).sum

/-- ING_KIB in bytes. -/
def State.ingMax (s : State) : Nat := 1024 * max 1 (s.get Fld.PRS_ING_CFG.ING_KIB)

/-- A PAUSE frame leaves an Ethernet port (R292); its quanta are the standard's choice, 0 to release. -/
def State.sendPause (s : State) (p : Nat) (on : Bool) : State :=
  let q := if on then 1 + Config.freeNat s.free % 65535 else 0
  { s with free := s.free + 1 }.emit .packet [p] (beBytes 6 0x0180C2000001 ++ List.replicate 6 0 ++ beBytes 2 0x8808 ++ beBytes 2 1 ++ beBytes 2 q)

/-- Pauses of a port's ingress queue: at three quarters of ING_KIB on, at one half off (R292). -/
def State.ingPause (s : State) (p : Nat) : State :=
  if p < 8 ∧ s.flag Fld.ETH_CFG.PAUSE_TX [p] then
    if ¬ s.pk.paused.contains p ∧ 3 * s.ingMax < 4 * s.ingUse p then (s.pkUpd (fun k => { k with paused := p :: k.paused })).sendPause p true
    else if s.pk.paused.contains p ∧ 2 * s.ingUse p ≤ s.ingMax then (s.pkUpd (fun k => { k with paused := k.paused.erase p })).sendPause p false
    else s
  else s

/-- A packet enters the ingress queue of its port, or is dropped whole (R292): bytes, stamp, subscriber and class handed over, whether
MACsec verified it, its length as a meter counts it (R331). -/
def State.ingress (s : State) (p : Nat) (data : Bytes) (stamp : Nat) (sub cls : Option Nat) (dec : Bool) (rxLen : Nat) : State :=
  if ¬ s.active 5 ∨ ¬ s.portEnabled p ∨ ¬ s.flag Fld.PRS_PORT_CFG_W0.EN [p] then s
  else if s.ingMax < s.ingUse p + data.length then s.inc .PRS_CNT_ING_DROP [p]
  else
    let k : Pkt := ⟨s.pk.next, p, s.get Fld.PRS_PORT_CFG_W0.PIPE [p], data, false, 0, 0, 0, 0, 0, sub.getD (s.get Fld.PRS_PORT_CFG_W1.DEF_SUB [p]), cls, 0,
      0, stamp, rxLen, dec, none, 0, none, false, []⟩
    (s.pkUpd (fun x => { x with next := x.next + 1, pkts := x.pkts ++ [k] })).ingPause p

end Sys2Proof.Machine
end

