-- ==== Sys2Proof/Machine/PhyOps.lean ====
section
/-! DEFINITION. What other units do to a WLAN PHY and its link: clear channel assessment (R178, R179, R182, R189, R190), receptions that
lose their paths (R182) or meet a transmission (R183), DFS maps (R200, R201), the tables and paths of a link (R208, R218, R235). -/
namespace Sys2Proof.Machine

/-! Paths -/

/-- Quadrant `q`. -/
def State.quad (s : State) (q : Nat) : Quad := (s.radio.quads[q]?).getD Quad.reset

/-- Path state of a global path. -/
def State.pathSt (s : State) (g : Nat) : PathSt := ((s.quad (g / 16)).paths[g % 16]?).getD PathSt.reset

/-- Causes of PFENCED among the causes of a path (PATH_STAT.CAUSE 3 to 6). -/
def fenceCause (c : Nat) : Bool := decide (3 ≤ c ∧ c ≤ 6)

/-- A path is PFENCED (R91, R92, R106, R107). -/
def State.pfenced (s : State) (g : Nat) : Bool := (s.pathSt g).causes.any fenceCause

/-- Path `g` is in a re-stack gap that affects it (R66). -/
def State.inGap (s : State) (g : Nat) : Bool := s.radio.gaps.any (fun p => p.affected.contains g)

/-! Receivers -/

/-- PHY of link `l`. -/
def State.phy (s : State) (l : Nat) : Phy := (s.bb.phys[l]?).getD Phy.reset

/-- The baseband updated. -/
def State.bbUpd (s : State) (f : Bb → Bb) : State := { s with bb := f s.bb }
@[inherit_doc State.phy] def State.phyUpd (s : State) (l : Nat) (f : Phy → Phy) : State :=
  s.bbUpd (fun b => { b with phys := updAt b.phys l f })

/-- The link transmits: a transmission of its role is on the air. -/
def State.linkSends (s : State) (l : Nat) : Bool :=
  s.radio.txs.any (fun t => t.start.isSome && t.role == l + 1 && decide (t.startAt ≤ s.now))

/-- A transmission of the link has its start committed: from TRANSMISSION_START on, which comes TX_LEAD + DEAD ahead of the first sample, the link receives nothing
that the transmission would cut (R183). -/
def State.linkBound (s : State) (l : Nat) : Bool := s.radio.txs.any (fun t => t.start.isSome && t.role == l + 1)

/-- PHY_LINK_STAT.PATHS: paths of the link's role in the running stacks, not fenced. -/
def State.linkPaths (s : State) (l : Nat) : List Nat := (s.rolePaths (l + 1)).filter (fun g => !s.pfenced g)

/-- PHY_LINK_STAT as it reads (R169). -/
def State.linkStat (s : State) (l : Nat) : Word :=
  if linkPresent s.linkPlan l && s.running 4 then
    w32 (linkBand s.linkPlan l * 2 ^ 30 + linkBw s.linkPlan l % 8 * 2 ^ 27 + linkPrim s.linkPlan l % 16 * 2 ^ 16 + (s.linkPaths l).length)
  else 0

/-- The primary subchannel of a link. -/
def State.primSub (s : State) (l : Nat) : Nat := linkPrim s.linkPlan l % 16

/-- A level register field in 0.25 dBm. -/
def State.lvl (s : State) (f : Fld) (l : Nat) : Int := 4 * signed 8 (s.get f [l])

/-- Causes of a busy subchannel `i` (R189): PHY_CCA_STAT.CAUSE codes, the first that holds (DEDUCED, notes/assumptions/40.md). A subchannel that PHY_PUNCT
punctures is ignored (R172). -/
def State.ccaCause (s : State) (l i : Nat) : Nat :=
  let p := s.phy l
  let on := fun (m : Nat) => bitOf m i
  let seen := match p.rx with
    | some x => on x.subs && decide (s.lvl Fld.PHY_CCA_CFG.PD_LVL l ≤ x.rssi)
    | none => false
  if bitOf (s.get Fld.PHY_PUNCT.MASK [l]) i then 0
  else if s.linkSends l then 4
  else if (p.st = 1 ∨ p.st = 2) ∧ seen = true then 1
  else if on p.ed ∨ (i ≠ s.primSub l ∧ on p.sec) then 2
  else if (p.st = 3 ∧ (p.rx.map (fun x => on x.subs)).getD false = true) ∨ (s.now < p.holdUntil ∧ on p.holdSubs)
    ∨ (p.falseHold ∧ i = s.primSub l) then 3
  else 0

/-- Busy subchannels of a link. -/
def State.ccaMask (s : State) (l : Nat) : Nat :=
  maskOf ((List.range (2 ^ linkBw s.linkPlan l)).filter (fun i => s.ccaCause l i != 0))

/-- The assessment brought up to date: PHY_CCA_STAT, since when the primary is busy, STUCK cleared at an idle (R190). -/
def State.ccaUpd (s : State) (l : Nat) : State :=
  let c := s.ccaCause l (s.primSub l)
  let s1 := s.phyUpd l (fun p => { p with busyFrom := if c = 0 then none else p.busyFrom.orElse (fun _ => some s.now) })
  s1.setReg .PHY_CCA_STAT [l] (w32 (b2n (c != 0) * 2 ^ 31 + c * 2 ^ 28
    + (if c = 0 then 0 else s.get Fld.PHY_CCA_STAT.STUCK [l]) * 2 ^ 27 + s.ccaMask l))

/-- A hold whose end has come is gone, with the break it leaves. -/
def State.ccaExpire (s : State) (l : Nat) : State :=
  let p := s.phy l
  if p.holdUntil ≠ 0 ∧ p.holdUntil ≤ s.now then (s.phyUpd l (fun p => { p with holdUntil := 0, holdSubs := 0 })).ccaUpd l else s

/-- A change of link `l`'s receiver, with the assessment before and after it. -/
def State.phyDo (s : State) (l : Nat) (f : State → State) : State := (f (s.ccaExpire l)).ccaUpd l

/-- A hold of the channel until an instant (R179, R182). -/
def Phy.hold (p : Phy) (x : PhyRx) : Phy :=
  match x.ends with
  | some e => { p with holdUntil := max p.holdUntil e, holdSubs := Nat.lor p.holdSubs x.subs }
  | none => p

/-- A false start is counted and the primary held (R177, R178). -/
def State.falseStart (s : State) (l : Nat) : State :=
  ((s.inc .PHY_FALSE_START [l]).inc .PHY_HDR_FAIL [l]).phyUpd l (fun p => { p with falseHold := true })

/-- The reception is abandoned without delivery (R182, R183); with `hold` the channel stays busy until its computed end. Out of PROVISIONAL it is a false start too
(R177). -/
def State.phyAbort (s : State) (l : Nat) (hold : Bool) : State :=
  match (s.phy l).rx with
  | none => s
  | some x =>
    let s1 := if (s.phy l).st = 1 then s.falseStart l else s
    (s1.phyUpd l (fun p => let q := if hold then p.hold x else p
      { q with st := 0, rx := none, cand := none })).inc .PHY_RX_ABORT [l]

/-- A transmission of the link meets a reception: the transmission wins (R183). A trigger that nothing has answered by then is spent (notes/assumptions/72.md). -/
def State.phySend (s : State) (l : Nat) : State := s.phyDo l (fun t => (t.phyAbort l false).phyUpd l (fun p => { p with trigger := [] }))

/-- Paths stop contributing to receptions (R182); without any path left a reception is abandoned. -/
def State.phyLose (s : State) (gs : List Nat) : State :=
  (List.range 3).foldl (fun t l =>
    match (t.phy l).rx with
    | none => t
    | some x =>
      let left := x.paths.filter (fun g => !gs.contains g)
      if left.length = x.paths.length then t
      else if left.isEmpty then t.phyDo l (fun u => u.phyAbort l true)
      else t.phyUpd l (fun p => { p with rx := some { x with paths := left } })) s

/-- Centre of 20 MHz subchannel `i` of a link in kHz. -/
def State.subKhz (s : State) (l i : Nat) : Nat := linkCentre s.linkPlan l - linkKhz s.linkPlan l / 2 + 10000 + 20000 * i

/-- Index in PHY_DFS_MAP of the DFS channel at a centre (R200): 52 to 64, then 100 to 144. -/
def dfsIndex (khz : Nat) : Option Nat :=
  (List.range 16).find? (fun i => khz == (if i < 4 then 5260000 + 20000 * i else 5500000 + 20000 * (i - 4)))

/-- DFS state of channel `i` on a link (R200). -/
def State.dfsState (s : State) (l i : Nat) : Nat := wbits (s.reg .PHY_DFS_MAP [l]) (2 * i + 1) (2 * i)
@[inherit_doc State.dfsState] def State.setDfs (s : State) (l i v : Nat) : State :=
  s.setReg .PHY_DFS_MAP [l] (wset (s.reg .PHY_DFS_MAP [l]) (2 * i + 1) (2 * i) v)

/-- The link's carrier covers DFS channel `i`. -/
def State.dfsCovers (s : State) (l i : Nat) : Bool :=
  linkPresent s.linkPlan l && (List.range (2 ^ linkBw s.linkPlan l)).any (fun k => dfsIndex (s.subKhz l k) == some i)

/-- Monitoring of a link stops (R200): AVAILABLE and CAC become UNCHECKED. -/
def State.dfsStop (s : State) (l : Nat) : State :=
  (List.range 16).foldl (fun t i => if t.dfsState l i = 1 ∨ t.dfsState l i = 2 then t.setDfs l i 0 else t) s

/-- What MRAM is given of a link's map (R201): states, and remaining NOP. Only a BB that runs in Service or Fenced has a map of its own to give. -/
def State.dfsSave (s : State) : State :=
  if ¬ (s.serving ∧ s.running 4) then s else
  let s1 := (List.range 3).foldl (fun t l => t.phyUpd l (fun p => { p with
      savedMap := (List.range 16).map (t.dfsState l), savedNop := p.nopEnds.map (· - t.now) })) s
  s1.bbUpd (fun b => { b with dfsSavedAt := s.now, dfsTicks := s.slpTicks })

/-- MRAM's map comes back at Service (R201): CAC and AVAILABLE as UNCHECKED (R202), NOP less the time the sleep counter measured. -/
def State.dfsRestore (s : State) : State :=
  let gone := (s.slpTicks - s.bb.dfsTicks) * 1000000000 / 32768
  (List.range 3).foldl (fun t l =>
    let p := t.phy l
    let t1 := (List.range 16).foldl (fun u i => u.setDfs l i (if (p.savedMap[i]?).getD 0 = 3 then 3 else 0)) t
    t1.phyUpd l (fun p => { p with nopEnds := p.savedNop.map (fun n => t.now + (n - gone)) })) s

/-! The access controller's tables and links (R208) -/

/-- The controller updated. -/
def State.wacUpd (s : State) (f : Wac → Wac) : State := { s with wac := f s.wac }

/-- Link `l` of the controller. -/
def State.wlink (s : State) (l : Nat) : WacLink := (s.wac.links[l]?).getD WacLink.reset
@[inherit_doc State.wlink] def State.wlinkUpd (s : State) (l : Nat) (f : WacLink → WacLink) : State :=
  s.wacUpd (fun w => { w with links := updAt w.links l f })

/-- Entries and entry size of a table (R208). -/
def wacCount (t : Nat) : Nat := ([2048, 4096, 4096, 1024, 768, 48][t]?).getD 0
@[inherit_doc wacCount] def wacSize (t : Nat) : Nat := ([128, 16, 16, 32, 64, 64][t]?).getD 0

/-- What an entry that nothing has written holds. -/
def wacZero (k : Nat) : Bytes := List.replicate (wacSize (k / 4096)) 0

/-- Entry `i` of table `t`. -/
def State.wtbl (s : State) (t i : Nat) : Bytes := sget wacZero s.wac.tbl (4096 * t + i)
@[inherit_doc State.wtbl] def State.setWtbl (s : State) (t i : Nat) (b : Bytes) : State :=
  s.wacUpd (fun w => { w with tbl := sset wacZero w.tbl (4096 * t + i) b })

/-- A field of an entry. -/
def State.wfld (s : State) (t i o n : Nat) : Nat := leAt (s.wtbl t i) o n
@[inherit_doc State.wfld] def State.setWfld (s : State) (t i o n v : Nat) : State := s.setWtbl t i (patch (s.wtbl t i) o (leBytes n v))

/-- VALID of an entry. -/
def wacValid (t : Nat) (b : Bytes) : Bool := if t = 1 ∨ t = 2 then bitOf (leAt b 0 2) 15 else bitOf (leAt b 0 1) 0
@[inherit_doc wacValid] def State.wvalid (s : State) (t i : Nat) : Bool := wacValid t (s.wtbl t i)

/-- The entries of a table that are listed, by index (unlisted entries are zero, hence not valid). -/
def State.wlisted (s : State) (t : Nat) : List Nat :=
  (s.wac.tbl.filter (fun e => e.1 / 4096 == t)).map (fun e => e.1 % 4096)

/-- The valid entries of a table. -/
def State.wvalids (s : State) (t : Nat) : List Nat := (s.wlisted t).filter (s.wvalid t ·)

/-- Link `l` serves stations (R235, R236): enabled, BB runs, PATHS is not 0. -/
def State.wlinkStop (s : State) (l : Nat) : Nat :=
  if !s.active 5 then 4 else if !s.flag Fld.WAC_LINK_CFG.EN [l] || !linkPresent s.linkPlan l then 1
  else if !s.active 4 then 3 else if (s.linkPaths l).isEmpty then 2 else 0
@[inherit_doc State.wlinkStop] def State.wlinkRun (s : State) (l : Nat) : Bool := s.wlinkStop l == 0

/-- A service period that holds this instant counts neither way (R222): the link is stopped, in a re-stack gap or in a quiet window. -/
def State.wlinkDown (s : State) (l : Nat) : Bool :=
  !s.wlinkRun l || s.radio.gaps.any (·.links.contains l)
    || (s.rolePaths (l + 1)).any (fun g => s.inGap g || (s.quad (g / 16)).trims.contains (g % 16))

/-- The times at which links are down are brought up to date (R222). -/
def State.wacLine (s : State) : State :=
  (List.range 3).foldl (fun t l =>
    match (t.wlink l).downSince, s.wlinkDown l with
    | none, true => t.wlinkUpd l (fun x => { x with downSince := some s.netTime })
    | some a, false => t.wlinkUpd l (fun x => { x with downSince := none, downs := (a, s.netTime) :: x.downs })
    | _, _ => t) s

/-- A link that stops gives back the frames of its PPDUs that are not on the air: they wait, or go by another link (R235, R236). What a launch time binds ends at the gates. -/
def State.wlinkDrop (s : State) (l : Nat) : State :=
  let x := s.wlink l
  let ns := ((x.due.filter (·.launch.isNone)) ++ x.sent.toList).map (·.num)
  (s.wacUpd (fun w => { w with frames := w.frames.map (fun f => if f.inTx.any ns.contains then { f with inTx := none } else f) })).wlinkUpd l
    (fun y => { y with due := y.due.filter (·.launch.isSome), sent := none, txop := none })

/-- What a link that has stopped gives back, for every link. -/
def State.wlinksStop (s : State) : State := (List.range 3).foldl (fun t l => if t.wlinkRun l then t else t.wlinkDrop l) s

/-- PATHS of every link is looked at: a change clears the link's groups and raises LINK_PATHS (R218); without paths monitoring ends (R200) and the link stops (R235). -/
def State.pathsCheck (s : State) : State :=
  State.wacLine (State.wlinksStop ((List.range 3).foldl (fun t l =>
    let n := (t.linkPaths l).length
    if (t.wlink l).paths = n then t
    else
      let t1 := ((t.wvalids 4).filter (fun i => i / 256 == l)).foldl (fun u i => u.setWfld 4 i 0 1 0) (t.wlinkUpd l (fun x => { x with paths := n }))
      (if n = 0 then t1.dfsStop l else t1).raise (ev 5 7)) s))

end Sys2Proof.Machine
end

