-- ==== Sys2Proof/Machine/Chain.lean ====
section
/-! DEFINITION. The sample chain of a quadrant (R110, R111, R115 to R123, R128, R130, R131, R144): beam records and their weights, resampling and NCOs,
transmit filters and their masks, ramps, crest factor reduction, pre-distortion, what radiates and what a consumer receives. Transforms whose
arithmetic spec/ does not spell out are opaque (notes/assumptions/70.md). -/
namespace Sys2Proof.Machine

/-- Elastic buffer `n` of region `g`. -/
def State.ebuf (s : State) (g n : Nat) : Ebuf := ((if g = 4 then s.radio.bbEbufs else (s.quad g).ebufs)[n]?).getD ⟨false, none⟩

/-- The stream of a buffer has slipped and waits for the next ASYNC: its samples are zeros (R23). -/
def State.slipped (s : State) (g n : Nat) : Bool := (s.ebuf g n).on && (s.ebuf g n).lat.isSome && !s.flag Fld.RGC_EBUF_LAT.VALID [g, n]

/-! Complex numbers -/

/-- A quotient rounded either way (notes/assumptions/22.md). -/
def roundQ (n : Int) (d : Nat) : Int := n / d + (b2n (n % d != 0 && Config.tieUp n d) : Nat)

/-- Sum, product and multiple of complex numbers, the conjugate, the squared magnitude, a quotient rounded by part. -/
def cxAdd (a b : Cx) : Cx := (a.1 + b.1, a.2 + b.2)
@[inherit_doc cxAdd] def cxMul (a b : Cx) : Cx := (a.1 * b.1 - a.2 * b.2, a.1 * b.2 + a.2 * b.1)
@[inherit_doc cxAdd] def cxTimes (k : Int) (a : Cx) : Cx := (k * a.1, k * a.2)
@[inherit_doc cxAdd] def cxConj (a : Cx) : Cx := (a.1, -a.2)
@[inherit_doc cxAdd] def cxSq (a : Cx) : Nat := a.1.natAbs ^ 2 + a.2.natAbs ^ 2
@[inherit_doc cxAdd] def cxDiv (a : Cx) (d : Nat) : Cx := (roundQ a.1 d, roundQ a.2 d)
@[inherit_doc cxAdd] def cxSum (l : List Cx) : Cx := l.foldl cxAdd (0, 0)

/-- Two runs of samples added, the shorter one as if followed by zeros. -/
def cxAddAll : List Cx → List Cx → List Cx
  | [], b => b
  | a, [] => a
  | x :: a, y :: b => cxAdd x y :: cxAddAll a b

/-- The complex number of a word (R123): I in [15:0], Q in [31:16]. -/
def wordCx (w : Word) : Cx := (signed 16 (wbits w 15 0), signed 16 (wbits w 31 16))

/-- The word of a complex number whose parts fit 16 bits. -/
def cxWord (a : Cx) : Word := w32 (unsigned 16 a.1 + 2 ^ 16 * unsigned 16 a.2)

/-- Floor of a square root. -/
def isqrt (n : Nat) : Nat := (List.range 80).reverse.foldl (fun r i => if (r + 2 ^ i) ^ 2 ≤ n then r + 2 ^ i else r) 0

/-- `n` values at places 0 to n - 1, read at place `x` / `d`, times `d`: linear between two places, constant beyond the outermost (R123, R144). -/
def lerpAt (n : Nat) (f : Nat → Cx) (x : Int) (d : Nat) : Cx :=
  if x ≤ 0 then cxTimes d (f 0)
  else if ((n - 1) * d : Nat) ≤ x then cxTimes d (f (n - 1))
  else
    let i := (x / d).toNat
    cxAdd (cxTimes (d - x % d) (f i)) (cxTimes (x % d) (f (i + 1)))

/-! Decibels in whole numbers (R102) -/

/-- 10^12 times 10 to the power 2^k / 2000. -/
def dbStep : List Nat :=
  [1001151955538, 1002305238078, 1004615790278, 1009252886077, 1018591388054, 1037528415818, 1076465213630, 1158777356155,
   1342764961138, 1803017740860, 3250872973854, 10568175092137, 111686324778056, 12473835142429430, 155596563160507441012,
   24210290467361781340496844271, 586138164514028740767069345550483179459155837]

/-- 10^12 times the power ratio of `n` units of 0.005 dB. -/
def dbPow (n : Nat) : Nat := dbStep.zipIdx.foldl (fun a e => if bitOf n e.2 then a * e.1 / 10 ^ 12 else a) (10 ^ 12)

/-! Routes and carriers (R112, R115 to R117) -/

/-- The route slot is used and may run in quadrant `q` (R112, R118: BAD_ROUTE otherwise). -/
def State.routeHere (s : State) (q n : Nat) : Bool :=
  routeRole s.sampleRoute n != 0 && bitOf (routeQmask s.sampleRoute n) q

/-- The quadrants that the BB combiner joins for a route (R115): those of QMASK that run; one that is fenced is dropped at once. -/
def State.routeLive (s : State) (n : Nat) : List Nat := (List.range 4).filter (fun q => s.routeHere q n && s.running q)

/-- The resampling ratio of a standard rate in Hz under a rate plan (R116): standard rate over ADC rate in lowest terms; none for a rate that the plan does not
support. -/
def resampleRatio (plan hz : Nat) : Option (Nat × Nat) :=
  let adc := 1000 * planAdc plan
  let g := Nat.gcd hz adc
  if hz = 0 ∨ (hz = 320000000 ∧ 2 ≤ plan) then none else some (hz / g, adc / g)

/-- Standard rate in Hz of a fronthaul carrier of a bandwidth in MHz (R116). -/
def fhRate (mhz : Nat) : Nat := if mhz ≤ 10 then 15360000 else if mhz ≤ 20 then 30720000 else if mhz ≤ 50 then 61440000 else 122880000

/-- The standard rates in Hz of a route (R116): one for a WLAN or fronthaul carrier, those of the used Tixia channels for LRC. -/
def routeRates (lp sr : Bytes) (n : Nat) : List Nat :=
  let role := routeRole sr n
  if role = 5 then (((List.range 16).map (fun c => 4 * lrcHz lp c)).filter (· != 0)).eraseDups
  else if role = 4 then [fhRate (fhBw lp (routeCarrier sr n))]
  else if role = 0 then []
  else [1000 * linkKhz lp (role - 1)]

/-- The word of a carrier NCO that shifts by `hz` (R117): steps of the ADC rate / 2^32. -/
def ncoWord (plan : Nat) (hz : Int) : Nat := unsigned 32 (roundQ (hz * 2 ^ 32) (1000 * planAdc plan))

/-- Frequency in Hz of the LO of a path. -/
def State.loHz (s : State) (g : Nat) : Int := 5000 * s.get Fld.SYN_STAT.FREQ [g / 16, s.pathLo g]

/-- The words of the 16 channel NCOs of the LRC route for a path (R117). -/
def State.lrcNcos (s : State) (g : Nat) : List Nat :=
  (List.range 16).map (fun c => ncoWord (s.convPlan (g / 16)) (1000 * lrcCentre s.linkPlan c - s.loHz g))

/-! Calibration sets (R144, R158) -/

/-- A word of a set when its quadrant's cord is applied (R158): factory values of PNOM0, LAG_CPL and the trims, identity
elsewhere. -/
def calInitWord (q p set n : Nat) : Word :=
  if n = 5 ∨ 16 ≤ n then 0x4000
  else if n = 6 ∨ n = 9 then w32 (wbits (Config.factoryCal q p set n) 15 0)
  else if n = 7 ∨ n = 8 then Config.factoryCal q p set n
  else 0

/-- A set as it starts (R158). -/
def calInit (q p set : Nat) : CalSet :=
  let w := (List.range 32).map (calInitWord q p set)
  { path := p, set := set, active := w, shadow := w, applied := [calInitWord q p set 8, calInitWord q p set 9], rx := w, tx := w }

/-- Calibration of quadrant `q`. -/
def State.cal (s : State) (q : Nat) : Cal := (s.quad q).cal

/-- The set of a path. -/
def State.calSet (s : State) (q p set : Nat) : CalSet :=
  ((s.cal q).sets.find? (fun e => e.path == p && e.set == set)).getD (calInit q p set)

/-- Word of a list of words. -/
def wordAt (l : List Word) (n : Nat) : Word := (l[n]?).getD 0

/-- Running set of local path `p`. -/
def State.runSet (s : State) (q p : Nat) : Nat := stkSet (s.curStack q) p

/-- The running calibration set of a global path. -/
def State.runCal (s : State) (g : Nat) : CalSet := s.calSet (g / 16) (g % 16) (s.runSet (g / 16) (g % 16))

/-- Transmit reciprocity correction of a path at `hz` from its LO (R128, R144, R147): 16 groups over the plan bandwidth B, linear between their centres; 1.0 where
RECIP_VALID is 0. In units of 2^-14 / (2 B). -/
def State.recip (s : State) (g : Nat) (hz : Int) : Cx :=
  let w := (s.runCal g).tx
  let b := 1000 * planKhz (s.convPlan (g / 16))
  if wbits (wordAt w 0) 2 2 = 1 then lerpAt 16 (fun i => wordCx (wordAt w (16 + i))) (32 * hz + 15 * b) (2 * b)
  else (2 ^ 15 * b, 0)

/-! Beam records (R122, R123, R127, R130) -/

/-- Fields of a beam record's header (R122). -/
def beamLog2 (r : Bytes) : Nat := leAt r 3 1
@[inherit_doc beamLog2] def beamFirst (r : Bytes) : Int := signed 16 (leAt r 4 2)
@[inherit_doc beamLog2] def beamGroups (r : Bytes) : Nat := leAt r 6 2
@[inherit_doc beamLog2] def beamCarries (r : Bytes) (p : Nat) : Bool := bitOf (leAt r 8 2) p
@[inherit_doc beamLog2] def beamInterp (r : Bytes) : Bool := bitOf (leAt r 10 1) 0
@[inherit_doc beamLog2] def beamSends (r : Bytes) : Bool := bitOf (leAt r 10 1) 1
@[inherit_doc beamLog2] def beamHears (r : Bytes) : Bool := bitOf (leAt r 10 1) 2
@[inherit_doc beamLog2] def beamRecip (r : Bytes) : Bool := bitOf (leAt r 10 1) 3

/-- A TD record (R130). -/
def beamTd (r : Bytes) : Bool := beamLog2 r == 15

/-- Weight word of local path `p` in group `i`: group by group, paths 0 to 15 within each (R122). -/
def beamWord (r : Bytes) (i p : Nat) : Cx := wordCx (w32 (leAt r (16 + 64 * i + 4 * p) 4))

/-- The weight of local path `p` on tone `k` (R122, R123), in units of 2^-19: a path outside PATH_MASK has none; with INTERP linear between group centres. -/
def beamWeight (r : Bytes) (p : Nat) (k : Int) : Cx :=
  let n := 2 ^ beamLog2 r
  if !beamCarries r p then (0, 0)
  else if beamTd r then cxTimes 32 (beamWord r 0 p)
  else if beamInterp r then cxTimes (16 / n : Nat) (lerpAt (beamGroups r) (fun i => beamWord r i p) (2 * (k - beamFirst r) - n + 1) (2 * n))
  else cxTimes 32 (beamWord r ((k - beamFirst r) / n).toNat p)

/-- Used tones of a route, first and last (R127): a WLAN carrier's as the standard has them, of which spec/ states only
320 MHz; a fronthaul carrier's resource blocks about its centre (notes/assumptions/24.md). -/
def State.usedTones (s : State) (route : Nat) : Int × Int :=
  let role := routeRole s.sampleRoute route
  if role = 4 then
    let n := 6 * fhNrb s.linkPlan (routeCarrier s.sampleRoute route)
    (-(n : Int), (n : Int) - 1)
  else
    let b := linkBw s.linkPlan (role - 1)
    let n := if b = 4 then 2036 else Config.lastTone b
    (-(n : Int), (n : Int))

/-- Spacing of a route's tones in Hz: 78.125 kHz on WLAN (the used tones of R127), the subcarrier spacing on FH; none on LRC. -/
def State.toneHz (s : State) (route : Nat) : Nat :=
  let role := routeRole s.sampleRoute route
  if role = 5 then 0 else if role = 4 then 15000 * 2 ^ fhScs s.linkPlan (routeCarrier s.sampleRoute route) else 78125

/-- The tones of a route. -/
def State.toneList (s : State) (route : Nat) : List Int :=
  let u := s.usedTones route
  (List.range (u.2 - u.1 + 1).toNat).map (fun (i : Nat) => u.1 + (i : Int))

/-- The header keeps R122, matches the index entry and the route, covers the used tones, and a TD-only route has a TD
record (R127, R130). -/
def State.beamValid (s : State) (route id : Nat) (r : Bytes) : Bool :=
  let td := beamTd r
  let lrc := routeRole s.sampleRoute route == 5
  let last : Int := beamFirst r + (beamGroups r * 2 ^ beamLog2 r : Nat) - 1
  leAt r 0 2 == id && decide (id < 32768) && leAt r 2 1 == route && (td || decide (beamLog2 r ≤ 4)) && (!lrc || td)
    && (if td then beamGroups r == 1 else decide (1 ≤ beamGroups r ∧ beamGroups r ≤ 4096))
    && decide (leAt r 10 1 < 16) && allZero (slice r 11 5)
    && (td || (decide (beamFirst r ≤ (s.usedTones route).1) && decide ((s.usedTones route).2 ≤ last)))

/-- The beam buffer's entry for a record. -/
def State.beamRec (s : State) (q route id : Nat) : Option BeamRec :=
  (s.quad q).beams.find? (fun b => b.route == route && b.id == id)

/-- The record that serves a beam in quadrant `q` now: resident, whether valid or not. -/
def State.beamBytes (s : State) (q route id : Nat) : Option Bytes := (s.beamRec q route id).bind (·.bytes)

/-- How many beams of a list, by route slot, are active TD beams of a route in quadrant `q` (R130). -/
def State.tdCount (s : State) (q route : Nat) (l : List (Nat × Nat)) : Nat :=
  (l.filter (fun b => b.1 == route && ((s.beamBytes q b.1 b.2).map beamTd).getD false)).length

/-- TD beams of a route that are active on transmit in quadrant `q` (R130): those of the transmissions that have started. -/
def State.tdSending (s : State) (q route : Nat) : Nat :=
  s.tdCount q route (((s.radio.txs.filter (fun t => t.start.isSome)).map (·.beams)).flatten.eraseDups)

/-! Weights of a transmission (R123, R127, R128) -/

/-- Carrier centre in Hz of a route slot of a transmission. -/
def Tx.centre (t : Tx) (route : Nat) : Int := (((t.routes.zip t.bands).find? (fun e => e.1 == route)).map (fun e => (e.2.1 : Int))).getD 0

/-- Centre in Hz that a route's samples are about: the link's whole channel on WLAN, whatever part of it a PPDU takes. -/
def State.txCentre (s : State) (t : Tx) (route : Nat) : Int := if t.src < 3 then 1000 * (linkCentre s.linkPlan t.src : Int) else t.centre route

/-- Tone `k` of a WLAN transmission lies in a subchannel that it leaves out (R172). -/
def State.txLeaves (s : State) (t : Tx) (k : Int) : Bool :=
  decide (t.src < 3) && bitOf t.punct ((k * 78125 + 500 * (linkKhz s.linkPlan t.src : Int)) / 20000000).toNat

/-- Streams of a route in a transmission: the places of its beams. -/
def Tx.streams (t : Tx) (route : Nat) : List Nat := (List.range t.beams.length).filter (fun i => ((t.beams[i]?).map (·.1)) == some route)

/-- The record that serves stream `i` of a transmission in quadrant `q`; none where its weights are zero: missing, invalid, not for transmit, no TD record where none other
serves (R193), or past the 16th TD beam (R127, R130). -/
def State.txRec (s : State) (t : Tx) (q i : Nat) : Option Bytes :=
  match t.beams[i]? with
  | none => none
  | some (route, id) => (s.beamBytes q route id).filter (fun r =>
      s.beamValid route id r && beamSends r && (!t.tdOnly || beamTd r) && !(beamTd r && decide (16 ≤ s.tdCount q route (t.beams.take i))))

/-- Units of a transmit weight of quadrant `q`: 2^-34 / B. -/
def State.txUnit (s : State) (q : Nat) : Nat := 2 ^ 34 * (1000 * planKhz (s.convPlan q))

/-- The weight of stream `i` of a transmission for global path `g` on tone `k` before R123 bounds it: the record's, with RECIP times the path's correction (R128). -/
def State.txRaw (s : State) (t : Tx) (g route : Nat) (k : Int) (i : Nat) : Cx :=
  match s.txRec t (g / 16) i with
  | none => (0, 0)
  | some r =>
    let w := beamWeight r (g % 16) k
    if beamRecip r then cxMul w (s.recip g (s.txCentre t route + k * s.toneHz route - s.loHz g))
    else cxTimes (2 ^ 15 * (1000 * planKhz (s.convPlan (g / 16))) : Nat) w

/-- Sum over the streams of the squared weight of a path on a tone (R123). -/
def State.txPower (s : State) (t : Tx) (g route : Nat) (k : Int) : Nat := ((t.streams route).map (fun i => cxSq (s.txRaw t g route k i))).sum

/-- The weight set of a path on a tone is scaled (R123). -/
def State.txScaled (s : State) (t : Tx) (g route : Nat) (k : Int) : Bool := decide (s.txUnit (g / 16) ^ 2 < s.txPower t g route k)

/-- The weight of stream `i` for global path `g` on tone `k` (R123): scaled so that the path's sum of squares is 1.0 where it would exceed that. -/
def State.txWeight (s : State) (t : Tx) (g route : Nat) (k : Int) (i : Nat) : Cx :=
  let w := s.txRaw t g route k i
  if s.txScaled t g route k then cxDiv (cxTimes (s.txUnit (g / 16)) w) (isqrt (s.txPower t g route k)) else w

/-- Tone-path weight sets of a transmission that quadrant `q` scales (R123, BEAM_CNT_NORM). -/
def State.txNorms (s : State) (t : Tx) (q : Nat) : Nat :=
  ((t.paths.filter (fun g => g / 16 == q)).map (fun g => (t.routes.map (fun r =>
    ((if routeRole s.sampleRoute r = 5 ∨ t.tdOnly then [0] else s.toneList r).filter (s.txScaled t g r ·)).length)).sum)).sum

/-! Transmit filters, masks and ramps (R118, R119) -/

/-- Tap `i` of 47 of a symmetric filter with 24 unique coefficients, coefficient 23 at the centre (R118): 2^-16. -/
def firTap (coefs : List Nat) (i : Nat) : Int := signed 18 ((coefs[min i (46 - i)]?).getD 0)

/-- A run of samples at twice the standard rate through a filter. -/
def firRun (coefs : List Nat) (xs : List Cx) : List Cx :=
  (List.range (xs.length + 46)).map (fun n => cxDiv (cxSum ((List.range 47).map (fun i =>
    if i ≤ n then cxTimes (firTap coefs i) ((xs[n - i]?).getD (0, 0)) else (0, 0)))) (2 ^ 16))

/-- Each sample followed by a zero: twice the rate. -/
def upTwo (xs : List Cx) : List Cx := (xs.map (fun x => [x, (0, 0)])).flatten

/-- The response of a filter at an offset from the carrier in 100 kHz, at a standard rate in Hz, in units of 2^-46. -/
def firGain (coefs : List Nat) (hz off : Nat) : Int :=
  ((List.range 47).map (fun i => firTap coefs i * Config.cosTurn (100000 * off * (23 - (i : Int))) (2 * hz))).sum

/-- The attenuation of the whole chain at a mask point, relative to the carrier centre, reaches `atten` in 0.25 dB (R118): the filter's response with that of the
fixed stages. Its response is the same at both sides. -/
def maskPointOk (coefs : List Nat) (plan hz off atten : Nat) : Bool :=
  decide ((firGain coefs hz off).natAbs ^ 2 * Config.stagePower plan hz off * dbPow (50 * atten)
    ≤ (firGain coefs hz 0).natAbs ^ 2 * Config.stagePower plan hz 0 * 10 ^ 12)

/-- The staged coefficients of quadrant `q`. -/
def State.stagedFir (s : State) (q : Nat) : List Nat := (List.range 24).map (fun i => s.get Fld.DFE_TXF_COEF.C [q, i])

/-- The first enabled mask point at which a route's chain with the staged coefficients falls short (R118). -/
def State.maskFail (s : State) (q route : Nat) : Option Nat :=
  (List.range 16).find? (fun n => s.flag Fld.DFE_MASK.EN [q, n]
    && !(routeRates s.linkPlan s.sampleRoute route).all (fun hz =>
      maskPointOk (s.stagedFir q) (s.convPlan q) hz (s.get Fld.DFE_MASK.OFFSET [q, n]) (s.get Fld.DFE_MASK.ATTEN [q, n])))

/-- The committed filter of a route in quadrant `q`. -/
def State.txFilter (s : State) (q route : Nat) : TxFilter :=
  (((s.quad q).filters.find? (fun e => e.1 == route)).map (·.2)).getD ⟨[], 50⟩

/-- ADC samples of quadrant `q` in a time in ns. -/
def State.adcCount (s : State) (q ns : Nat) : Nat := ns * planAdc (s.convPlan q) / 1000000

/-- A raised cosine from 0 to 1 (R119) at step `i` of `n`, in units of 2^-31. -/
def rampUp (i n : Nat) : Int := if n ≤ i then 2 ^ 31 else 2 ^ 30 - Config.cosTurn i (2 * n)

/-- A transmission between its ramps (R119): `r` samples each, the falling one from sample `e`; nothing after it. -/
def rampRun (r e : Nat) (xs : List Cx) : List Cx :=
  ((xs.take (e + r)).zipIdx).map (fun x =>
    let up := rampUp x.2 r
    let k := if e ≤ x.2 then up * (2 ^ 31 - rampUp (x.2 - e) r) / 2 ^ 31 else up
    cxDiv (cxTimes k x.1) (2 ^ 31))

/-! Crest factor reduction (R120) -/

/-- Threshold in 0.1 dB of a transmission in quadrant `q`: the lowest of its routes whose CFR is on, never on LRC; THR_HI for 4096-QAM. -/
def State.cfrThr (s : State) (t : Tx) (q : Nat) : Option Nat :=
  let l := (t.routes.filter (fun r => s.flag Fld.DFE_CFR_CFG.EN [q, r] && routeRole s.sampleRoute r != 5)).map (fun r =>
    if t.qam4k then s.get Fld.DFE_CFR_CFG.THR_HI [q, r] else s.get Fld.DFE_CFR_CFG.THR [q, r])
  match l with
  | [] => none
  | x :: r => some (r.foldl min x)

/-- Sample `n` exceeds the threshold above the RMS of the `w` samples up to it (4 µs). -/
def cfrOver (thr w : Nat) (xs : List Cx) (n : Nat) : Bool :=
  let win := (xs.take (n + 1)).drop (n + 1 - w)
  decide ((win.map cxSq).sum * dbPow (20 * thr) < cxSq ((xs[n]?).getD (0, 0)) * win.length * 10 ^ 12)

/-- The peaks of a run: over the threshold, and no neighbour higher. -/
def cfrPeaks (thr w : Nat) (xs : List Cx) : List Nat :=
  (List.range xs.length).filter (fun n => cfrOver thr w xs n
    && decide (cxSq ((xs[n + 1]?).getD (0, 0)) ≤ cxSq ((xs[n]?).getD (0, 0)))
    && (n == 0 || decide (cxSq ((xs[n - 1]?).getD (0, 0)) < cxSq ((xs[n]?).getD (0, 0)))))

/-- One pass: each peak cancelled by a pulse shaped to the filter's passband, whose samples spec/ does not give; and how many. -/
def cfrPass (coefs : List Nat) (thr w : Nat) (x : List Cx × Nat) : List Cx × Nat :=
  let ps := cfrPeaks thr w x.1
  (ps.foldl (fun y n => Config.cfrCancel coefs thr y n) x.1, x.2 + ps.length)

/-- Two passes (R120). -/
def cfrRun (coefs : List Nat) (thr w : Nat) (xs : List Cx) : List Cx × Nat := cfrPass coefs thr w (cfrPass coefs thr w (xs, 0))

/-! Pre-distortion (R131, R132) -/

/-- Exponent E of an order's coefficients: i for 2i + 1, 5 and 6 for cross orders 1 and 3. -/
def dpdExp (w : List Word) (i : Nat) : Nat := wbits (wordAt w 2) (4 * i + 3) (4 * i)

/-- A term of R131 in units of 2^-(164): coefficient word, its E, |x|^2 in 2^-30 to a power, the sample in 2^-15. -/
def dpdTerm (c : Word) (e sq pow : Nat) (x : Cx) : Cx := cxTimes (sq ^ pow * 2 ^ (30 * (4 - pow) + 15 - e) : Nat) (cxMul (wordCx c) x)

/-- Output sample `n` of R131 before saturation: set, inputs of the path and of its neighbours. -/
def dpdSample (w : List Word) (x : List Cx) (nbrs : List (List Cx)) (n : Nat) : Cx :=
  let cfg := wordAt w 0
  let at_ := fun (l : List Cx) (m : Nat) => if m ≤ n then (l[n - m]?).getD (0, 0) else (0, 0)
  let main := (List.range 5).filter (fun i => bitOf cfg.toNat i) |>.map (fun i =>
    cxSum ((List.range (wbits cfg 11 8)).map (fun m => dpdTerm (wordAt w (8 + 8 * i + m)) (dpdExp w i) (cxSq (at_ x m)) i (at_ x m))))
  let cross := (List.range (wbits cfg 14 12)).map (fun l => cxSum ((List.range 2).map (fun j =>
    cxSum ((List.range (wbits cfg 17 16)).map (fun m =>
      dpdTerm (wordAt w (48 + 4 * l + 2 * j + m)) (dpdExp w (5 + j)) (cxSq (at_ x m)) j (at_ ((nbrs[l]?).getD []) m))))))
  cxDiv (cxAdd (cxSum main) (cxSum cross)) (2 ^ 149)

/-- The part of a sample within full scale. -/
def satCx (a : Cx) : Cx := (clampI (-32768) 32767 a.1, clampI (-32768) 32767 a.2)

/-- Output of pre-distortion with its saturated samples (R131). -/
def dpdRun (w : List Word) (x : List Cx) (nbrs : List (List Cx)) : List Cx × Nat :=
  let z := (List.range x.length).map (dpdSample w x nbrs)
  (z.map satCx, (z.filter (fun a => satCx a != a)).length)

/-- The path transmits with DPD in bypass and 3.00 dB of added attenuation: its running set is untrained (R135). -/
def State.dpdBypass (s : State) (g : Nat) : Bool :=
  !bitOf (s.get Fld.DPD_STAT.SET_VALID [g / 16, g % 16]) (s.get Fld.DPD_STAT.RUN_SET [g / 16, g % 16])

/-- The set of a path, with nothing committed when it is not listed. -/
def State.dpdSet (s : State) (q p set : Nat) : DpdSet :=
  ((s.quad q).dpd.find? (fun e => e.path == p && e.set == set)).getD ⟨p, set, [], [], none, false, none⟩

/-! Transmit: from stream vectors to RFTX (R110) -/

/-- The samples of a route for global path `g` at the standard rate (R110 step 2): per tone and an IFFT with cyclic prefix on an FD route, per sample on a TD route
and where TD records alone serve. A tone in a subchannel that the transmission leaves out is not sent (R172). -/
def State.txStandard (s : State) (t : Tx) (g route : Nat) : List Cx :=
  let d := s.txUnit (g / 16)
  let one := fun (sym : List (List Cx)) (k : Int) (j : Nat) => cxDiv (cxSum ((t.streams route).map (fun i =>
    if s.txLeaves t k && !t.tdOnly then (0, 0) else cxMul (s.txWeight t g route k i) ((((sym[i]?).getD [])[j]?).getD (0, 0))))) d
  (t.vecs.map (fun sym =>
    if routeRole s.sampleRoute route = 5 ∨ t.tdOnly then
      (List.range ((((t.streams route).map (fun i => ((sym[i]?).getD []).length)).foldl max 0))).map (one sym 0)
    else Config.ifftCp (routeRole s.sampleRoute route) (((s.toneList route).zipIdx).map (fun k => one sym k.1 k.2)))).flatten

/-- The composite of a transmission on global path `g` at the ADC rate (R110 step 3, R116 to R118): each carrier interpolated, filtered and shifted to its offset from
the LO, then summed; the guard's backoff (R102) applied. -/
def State.txComposite (s : State) (t : Tx) (g : Nat) : List Cx :=
  let plan := s.convPlan (g / 16)
  let b := ((t.backoffs.find? (fun e => e.1 == g)).map (·.2)).getD 0
  let one := fun (r : Nat) =>
    let hz := if t.role = 5 then 4 * ((t.bands.head?).map (·.2)).getD 0 else ((routeRates s.linkPlan s.sampleRoute r).head?).getD 0
    match resampleRatio plan hz with
    | none => []
    | some (n, d) => Config.ncoShift (ncoWord plan (s.txCentre t r - s.loHz g))
        (Config.resample d (2 * n) (firRun (s.txFilter (g / 16) r).coefs (upTwo (s.txStandard t g r))))
  (t.routes.foldl (fun y r => cxAddAll y (one r)) []).map (fun x => cxDiv (cxTimes (10 ^ 6) x) (isqrt (dbPow (50 * b))))

/-- The DPD input of a transmission on global path `g` when it ends or is cut at `e` ns (R110 steps 3 and 4, R119, R120), with the peaks cancelled. `cut` tells a cut,
which ramps from `e` on, from an end. -/
def State.txInput (s : State) (t : Tx) (g e : Nat) (cut : Bool) : List Cx × Nat :=
  let q := g / 16
  let f := s.txFilter q (t.routes.headD 0)
  let r := s.adcCount q (10 * f.ramp)
  let n := s.adcCount q (e - t.startAt)
  let xs := rampRun r (if cut then n else n - r) (s.txComposite t g)
  match s.cfrThr t q with
  | none => (xs, 0)
  | some thr => cfrRun f.coefs thr (s.adcCount q 4000) xs

/-- The DPD input of global path `g` by its own running transmission, from the first sample of transmission `t` on; nothing while it sends nothing (R131). -/
def State.nbrInput (s : State) (t : Tx) (g e : Nat) : List Cx :=
  match s.radio.txs.find? (fun u => u.start.isSome && u.paths.contains g) with
  | none => []
  | some u =>
    let xs := (s.txInput u g e true).1
    let n := s.adcCount (g / 16) (t.startAt - u.startAt)
    let m := s.adcCount (g / 16) (u.startAt - t.startAt)
    List.replicate m (0, 0) ++ xs.drop n

/-- The neighbours of local path `p` of a set, and whether each adds to its output: one on another LO adds zero (R131). -/
def State.dpdNbrs (s : State) (g : Nat) (w : List Word) : List (Option Nat) :=
  (List.range (wbits (wordAt w 0) 14 12)).map (fun l =>
    let n := 16 * (g / 16) + wbits (wordAt w 1) (4 * l + 3) (4 * l)
    if s.pathLo n = s.pathLo g then some n else none)

/-- What a transmission sends on global path `g` until `e` (R110): the samples of the DAC, the peaks cancelled, the samples saturated. -/
def State.txOutput (s : State) (t : Tx) (g e : Nat) (cut : Bool) : List Cx × Nat × Nat :=
  let x := s.txInput t g e cut
  let w := (s.dpdSet (g / 16) (g % 16) (s.runSet (g / 16) (g % 16))).active
  let z := if s.dpdBypass g then (x.1, 0) else dpdRun w x.1 ((s.dpdNbrs g w).map (fun n => match n with
    | some h => s.nbrInput t h e
    | none => []))
  (Config.dacTwo z.1, x.2, z.2)

/-- Attenuation of a path in 0.25 dB (R105, R135): TX_ATTEN, 12 more in bypass, 80 more for a retest, at most 127. -/
def State.txAtten (s : State) (t : Tx) (g : Nat) : Nat :=
  min 127 (s.get Fld.PATH_CTL.TX_ATTEN [g / 16, g % 16 / 8, g % 8] + (if s.dpdBypass g then 12 else 0) + (if t.retest.contains g then 80 else 0))

/-- Nominal RFTX power of a path for a transmission in 0.01 dBm (R102, R144): PNOM0 of its running set less the attenuation. -/
def State.pnom (s : State) (t : Tx) (g : Nat) : Int := signed 16 (wbits (wordAt (s.runCal g).active 6) 15 0) - 25 * (s.txAtten t g : Int)

/-- Global path `g` stops sending a transmission at `e`: what it sent leaves the part, its peaks and saturated samples count (R119, R120, R131). -/
def State.txRadiate (s : State) (t : Tx) (g e : Nat) (cut : Bool) : State :=
  let o := s.txOutput t g e cut
  ((s.emit .air [t.src, t.id, g, s.txAtten t g] ((o.1.map (fun x => leBytes 4 (cxWord x).toNat)).flatten)).incBy .DFE_CNT_CFR [g / 16] o.2.1).incBy
    .DPD_CNT_SAT [g / 16, g % 16] o.2.2

/-! Receive: from RFRX to a consumer (R111, R115) -/

/-- ADC samples of a path after the corrections of its set in force (R111 step 1, R144): less the DC, plus the image coefficient times the conjugate. -/
def State.rxCorrect (s : State) (g : Nat) (xs : List Cx) : List Cx :=
  let w := (s.runCal g).rx
  xs.map (fun a =>
    let x := cxAdd a (cxTimes (-1) (wordCx (wordAt w 2)))
    cxAdd x (cxDiv (cxMul (wordCx (wordAt w 3)) (cxConj x)) (2 ^ 14)))

/-- A carrier of a path at its standard rate (R111 step 2): shifted by its NCO and decimated; `hz` is its centre. -/
def State.rxCarrier (s : State) (g : Nat) (hz : Int) (rate : Nat) (xs : List Cx) : List Cx :=
  let plan := s.convPlan (g / 16)
  match resampleRatio plan rate with
  | none => []
  | some (n, d) => Config.resample n d (Config.ncoShift (ncoWord plan (s.loHz g - hz)) (s.rxCorrect g xs))

/-- The weight of a receive beam of quadrant `q` for local path `p` on tone `k` in units of 2^-19; RECIP is ignored on receive (R128). Zero where the record is missing, invalid
or not for receive (R127). -/
def State.rxWeight (s : State) (q route id p : Nat) (k : Int) : Cx :=
  match s.beamBytes q route id with
  | some r => if s.beamValid route id r && beamHears r then beamWeight r p k else (0, 0)
  | none => (0, 0)

/-- The tones of a symbol of a path on an FD route (R111 step 4): the FFT of its standard-rate samples `back` ns ago, at most 16 µs. -/
def State.rxTones (s : State) (route rate back : Nat) (xs : List Cx) : List Cx :=
  if 16000 < back then (s.toneList route).map (fun _ => (0, 0))
  else Config.fft (routeRole s.sampleRoute route) (xs.drop (xs.length - back * rate / 1000000000))

/-- One tone of a receive beam (R111 steps 3 and 4, R115): the partial sums of the route's quadrants, added; `xs` gives each path's value. -/
def State.rxCombine (s : State) (route id : Nat) (live : Nat → Bool) (xs : Nat → Cx) (k : Int) : Cx :=
  cxDiv (cxSum ((s.routeLive route).map (fun q => cxSum ((List.range 16).map (fun p =>
    if live (16 * q + p) then cxMul (s.rxWeight q route id p k) (xs (16 * q + p)) else (0, 0)))))) (2 ^ 19)

end Sys2Proof.Machine
end

