-- ==== Sys2Proof/Machine/Quad.lean ====
section
/-! DEFINITION. A quadrant's paths, synthesisers and front-end control (R70 to R109): stacks taking effect, gates, fast
lines, RFFE, supplies, path faults. -/
namespace Sys2Proof.Machine

/-- The radio updated. -/
def State.radUpd (s : State) (f : Radio → Radio) : State := { s with radio := f s.radio }

/-- Quadrant `q` updated. -/
def State.quadUpd (s : State) (q : Nat) (f : Quad → Quad) : State :=
  s.radUpd (fun r => { r with quads := updAt r.quads q f })

/-- Path state of a global path updated. -/
def State.pathUpd (s : State) (g : Nat) (f : PathSt → PathSt) : State :=
  s.quadUpd (g / 16) (fun d => { d with paths := updAt d.paths (g % 16) f })

/-- Synthesiser `k` of quadrant `q`. -/
def State.syn (s : State) (q k : Nat) : Syn := ((s.quad q).syns[k]?).getD Syn.reset
@[inherit_doc State.syn] def State.synUpd (s : State) (q k : Nat) (f : Syn → Syn) : State :=
  s.quadUpd q (fun d => { d with syns := updAt d.syns k f })

/-- Indexes of PATH registers for a global path. -/
def pathIx (g : Nat) : List Nat := [g / 16, g % 16 / 8, g % 8]

/-- The gates of paths open now (R81, R82). -/
def State.gateOpens (s : State) (l : List Nat) (coex : Bool := false) : State :=
  l.foldl (fun t g => t.pathUpd g (fun p => { p with gateAt := s.now, gateCoex := coex })) s

/-- A path is MUTED for a fault (R89, R105, R84). -/
def State.muted (s : State) (g : Nat) : Bool := !(s.pathSt g).causes.isEmpty && !s.pfenced g

/-! Fast-line timing (R90) in ns -/

/-- TX_LEAD, TX_LAG, RX_SETTLE and DEAD of a word of FEN_FAST_TIM (R90). -/
def timLead (w : Word) : Nat := 10 * wbits w 31 24
@[inherit_doc timLead] def timLag (w : Word) : Nat := 10 * wbits w 23 16
@[inherit_doc timLead] def timSettle (w : Word) : Nat := 10 * wbits w 15 8
@[inherit_doc timLead] def timDead (w : Word) : Nat := 10 * max 1 (wbits w 7 0)

/-- TX_LEAD and DEAD of quadrant `q`, as the next transmission takes them (R24, R90). -/
def State.txLead (s : State) (q : Nat) : Nat := timLead (s.reg .FEN_FAST_TIM [q])
@[inherit_doc State.txLead] def State.dead (s : State) (q : Nat) : Nat := timDead (s.reg .FEN_FAST_TIM [q])

/-- The timing that a transmission took in quadrant `q` when it started. -/
def Tx.tim (t : Tx) (q : Nat) : Word := (t.tims[q]?).getD 0

/-- A path's transmission ends at `e` with the timing it started with; receive samples return at the end of the sequence (R90). -/
def PathSt.txOff (p : PathSt) (e : Nat) (w : Word) : PathSt :=
  { p with lineEnd := e, lineTim := w, txSince := none, rxSince := e + timLag w + timDead w + timSettle w }

/-- The timing of the running transmission of a path. -/
def State.txTim (s : State) (g : Nat) : Word :=
  ((s.radio.txs.find? (fun t => t.start.isSome && t.paths.contains g)).map (Tx.tim · (g / 16))).getD (s.reg .FEN_FAST_TIM [g / 16])

/-- The path leaves every running transmission, ramping down (PATH_CTL.TX_MUTE, R89, R92, R107, R119). -/
def State.txLeave (s : State) (g : Nat) : State :=
  if s.radio.txs.any (fun t => t.start.isSome && t.paths.contains g) then
    (((s.radio.txs.filter (fun t => t.start.isSome && t.paths.contains g)).foldl (fun u t => u.txRadiate t g s.now true) s).radUpd (fun r => { r with txs := r.txs.map (fun t => if t.start.isSome then { t with paths := t.paths.filter (· != g) } else t) })).pathUpd g
      (fun p => p.txOff s.now (s.txTim g))
  else s

/-- A fault mutes or fences a path: counted when it enters MUTED or PFENCED (FEN_CNT_PATH_FAULT); PATHS of a link leaves fenced paths out (R169). -/
def State.pathFault (s : State) (cause g : Nat) : State :=
  if (s.pathSt g).causes.contains cause then s
  else
    let s0 := (s.pathUpd g (fun p => { p with causes := cause :: p.causes })).txLeave g
    let s1 := if fenceCause cause then (s0.phyLose [g]).pathsCheck else s0
    if (s.pathSt g).causes.isEmpty || (fenceCause cause && !s.pfenced g) then s1.inc .FEN_CNT_PATH_FAULT [g / 16] else s1

/-- Causes of a path end; when none remain its gate opens. -/
def State.pathClear (s : State) (p : Nat → Bool) (g : Nat) : State :=
  let s1 := s.pathUpd g (fun x => { x with causes := x.causes.filter (fun c => !p c) })
  if (s.pathSt g).causes.isEmpty then s1 else if s.pfenced g then (s1.gateOpens [g]).pathsCheck else s1.gateOpens [g]

/-- The transmission that is committed on a path, and the instants its fast lines move (R90): RXEN falls, TXEN rises, TXEN
falls, RXEN may rise, receive samples return. A write of FEN_FAST_TIM moves none of them (R24). -/
def State.lineTimes (s : State) (g : Nat) : List Nat :=
  match s.radio.txs.find? (fun t => t.start.isSome && t.paths.contains g) with
  | some t =>
    let w := t.tim (g / 16)
    let e := t.startAt + t.dur + timLag w
    [t.startAt - timLead w - timDead w, t.startAt - timLead w, e, e + timDead w, e + timDead w + timSettle w]
  | none =>
    let w := (s.pathSt g).lineTim
    let e := (s.pathSt g).lineEnd + timLag w
    if (s.pathSt g).lineEnd = 0 then [0, 0, 0, 0, 0] else [0, 0, e, e + timDead w, e + timDead w + timSettle w]

/-- The path's fault-free transceiver works: it has a role, its quadrant runs and the mode has it on (R94). -/
def State.pathOn (s : State) (g : Nat) : Bool := s.serving && s.pathRole g != 0

/-- TXEN of a path is high (R90, R94). -/
def State.txen (s : State) (g : Nat) : Bool :=
  s.pathOn g && (match s.lineTimes g with
    | [_, r, f, _, _] => decide (r ≤ s.now ∧ s.now < f)
    | _ => false)

/-- RXEN of a path is high (R90, R94). -/
def State.rxen (s : State) (g : Nat) : Bool :=
  s.pathOn g && (match s.lineTimes g with
    | [f, _, _, r, _] => decide (s.now < f ∨ r ≤ s.now)
    | _ => false)

/-- BYP of a path is high (R90, R94): low while TXEN is, else as the consumer's AGC or BYP_MAN has it. -/
def State.byp (s : State) (g : Nat) : Bool :=
  s.pathOn g && !s.txen g
    && (if s.flag Fld.PATH_CTL.AGC_EN (pathIx g) then Config.agcBypass s.now g else s.flag Fld.PATH_CTL.BYP_MAN (pathIx g))

/-- Bias output of local path `p` is driven: enabled and not switched off by a fault (R92). -/
def State.biasOn (s : State) (q p : Nat) : Bool :=
  s.active q && s.flag Fld.FEN_BIAS.EN [q, p] && !(s.pathSt (16 * q + p)).causes.any (fun c => c == 3 || c == 4)

/-- Bias current of a path in 0.25 mA, measured all the time (R92): none while its output is off. -/
def State.iBias (s : State) (g : Nat) : Nat := if s.biasOn (g / 16) (g % 16) then (Config.biasCurrent s.now g).toNat else 0

/-- PATH_STAT.STATE: 0 OFF, 1 RX, 2 TX, 3 TURN, 4 MUTED, 5 PFENCED. -/
def State.pathState (s : State) (g : Nat) : Nat :=
  if !s.pathOn g then 0
  else if s.pfenced g then 5
  else if s.muted g then 4
  else match s.lineTimes g with
    | [a, b, c, _, e] => if s.now < a ∨ e ≤ s.now then 1 else if b ≤ s.now ∧ s.now < c then 2 else 3
    | _ => 1

/-- PATH_STAT as it reads now. -/
def State.pathStat (s : State) (g : Nat) : Word :=
  let st := s.pathState g
  let cs := (s.pathSt g).causes
  let cause := (if st = 5 then cs.find? fenceCause else if st = 4 then cs.head? else none).getD 0
  let k := s.curStack (g / 16)
  w32 (st * 2 ^ 28 + cause * 2 ^ 24 + s.get Fld.PATH_STAT.RL (pathIx g) * 2 ^ 16 + s.iBias g * 2 ^ 8
    + s.pathRole g * 16 + stkLoSel k (g % 16) * 8 + stkSet k (g % 16))

/-! Coexistence as a gate (R95, R96) -/

/-- A coexistence port. -/
def State.coexPort (s : State) (n : Nat) : Coex := (s.radio.coex[n]?).getD Coex.reset

/-- Path `g` is affected by port `n` (R95): its role bit is set, and BND does not free it. -/
def State.coexHits (s : State) (n g : Nat) : Bool :=
  let q := g / 16
  s.flag Fld.FEN_COEX_CFG.EN [q, n] && bitOf (s.get Fld.FEN_COEX_CFG.ROLES [q, n]) (s.pathRole g) && s.pathRole g != 0
    && !(s.flag Fld.FEN_COEX_CFG.BND_USE [q, n] && !(s.coexPort n).bnd)

/-- A coexistence grant holds path `g` (R95, R96). -/
def State.coexHeld (s : State) (g : Nat) : Bool :=
  (List.range 3).any (fun n => let c := s.coexPort n
    c.req && !c.stuck && (c.consent[g / 16]?).getD false && s.coexHits n g)

/-- COEXn_GNT (R94, R95, R97): high outside Service and Fenced but for Dormant; else when every quadrant consents. -/
def State.coexGnt (s : State) (n : Nat) : Bool :=
  let c := s.coexPort n
  if s.mode = 1 ∨ s.mode = 2 ∨ s.mode = 5 then true
  else s.serving && c.req && !c.stuck && (List.range 4).all (fun q =>
    !s.running q || !s.flag Fld.FEN_COEX_CFG.EN [q, n] || (c.consent[q]?).getD false)

/-- The gate of a path but for coexistence (R81). The regulatory guard is judged once, with the transmission. -/
def State.gateNoCoex (s : State) (g : Nat) : Bool :=
  let q := g / 16
  s.pathOn g && s.flag Fld.SYN_STAT.LOCK [q, s.pathLo g] && !s.flag Fld.SYN_STAT.TUNING [q, s.pathLo g]
    && !(s.quad q).trims.contains (g % 16) && (s.pathSt g).causes.isEmpty && !s.flag Fld.PATH_CTL.TX_MUTE (pathIx g)
    && s.pwr.refclk && !s.inGap g

/-- A path's receive samples reach the consumers as they come; else they are zeros (R81, R84, R85, R90, R107, R153, PATH_CTL.RX_MUTE): its LO is locked, it is not
fenced, muted, in a calibration window or in a gap, and it does not transmit or turn round. -/
def State.rxLive (s : State) (g : Nat) : Bool :=
  let q := g / 16
  s.pathOn g && s.flag Fld.SYN_STAT.LOCK [q, s.pathLo g] && s.pwr.refclk && !s.pfenced g && !(s.quad q).trims.contains (g % 16)
    && !s.flag Fld.PATH_CTL.RX_MUTE (pathIx g) && !s.inGap g
    && (match s.lineTimes g with
      | [a, _, _, _, b] => decide (s.now < a ∨ b ≤ s.now)
      | _ => false)

/-- The gate of a path (R81). -/
def State.gate (s : State) (g : Nat) : Bool := s.gateNoCoex g && !s.coexHeld g

/-! A stack takes effect (R45, R66, R74, R77, R84, R87) -/

/-- How a command goes out (R86): 4 is a Register 0 Write, which a Register Write to address 0 with at most 7 bits of data becomes. -/
def rffeKind (kind addr data : Nat) : Nat := if kind = 0 ∧ addr = 0 ∧ data ≤ 0x7F then 4 else kind

/-- The front-end writes of a stack on the buses that `p` names, in record order (R87). -/
def State.stackWrites (s : State) (q : Nat) (p : Nat → Bool) : State :=
  let st := s.curStack q
  (List.range (stkRffe st)).foldl (fun t i =>
    let b := stkRffeBus st i
    if p b then t.emit .rffe [4 * q + b, rffeKind 0 (leAt st (93 + 4 * i) 1 % 32) (leAt st (94 + 4 * i) 1), leAt st (92 + 4 * i) 1 % 16,
      leAt st (93 + 4 * i) 1 % 32, leAt st (94 + 4 * i) 1]
    else t) s

/-- Paths of quadrant `q` on LO `k` that hold a role. -/
def State.loPaths (s : State) (q k : Nat) : List Nat :=
  ((List.range 16).map (fun p => 16 * q + p)).filter (fun g => s.pathRole g != 0 && s.pathLo g == k)

/-- LO `k` of quadrant `q` takes a frequency in 5 kHz units: a change, or an LO that stayed off, starts a tuning on the next
ASYNC and returns SYN_FINE to 0 (R74 to R78, R84). -/
def State.loTune (s : State) (q k f : Nat) : State :=
  let old := s.get Fld.SYN_STAT.FREQ [q, k]
  if f = 0 then
    ((s.setReg .SYN_STAT [q, k] 0).set Fld.SYN_FINE.OFFSET [q, k] 0).synUpd q k (fun _ => Syn.reset)
  else if f = old ∧ ¬ (s.syn q k).dead then s
  else
    let s1 := s.setReg .SYN_STAT [q, k] (w32 (2 ^ 30 + loBand (5 * f) * 2 ^ 27 + f))
    let s2 := if f = old then s1 else s1.set Fld.SYN_FINE.OFFSET [q, k] 0
    s2.synUpd q k (fun _ => { since := s.now, tries := 0, waiting := true, dead := false })

/-- Billed rate of a role in thousands of tone-vectors per second (R121). -/
def billK (lp : Bytes) (role : Nat) : Nat :=
  if role = 4 then ((List.range 8).map (fun c => fhNrb lp c * 12 * (15 * 2 ^ fhScs lp c))).sum
  else if 1 ≤ role ∧ role ≤ 3 then 1000 * ([18, 37, 73, 146, 293][linkBw lp (role - 1)]?).getD 0
  else 0

/-- Rate billed by a stack, in thousands (R121). -/
def stackBillK (lp st : Bytes) : Nat :=
  ((List.range 6).map (fun r => if (List.range 16).any (fun p => stkRole st p == r) then billK lp r else 0)).sum

/-- BEAM_STAT of a stack: table and load in M tone-vectors/s, whose rounding is free (notes/assumptions/22.md). -/
def State.setBeamStat (s : State) (q : Nat) : State :=
  let st := s.curStack q
  let k := stackBillK s.linkPlan st
  s.sets [q] [(Fld.BEAM_STAT.ACTIVE_TBL, stkBeam st),
    (Fld.BEAM_STAT.LOAD, k / 1000 + (if k % 1000 = 0 then 0 else b2n (Config.tieUp k 3)))]

/-- Quadrant `q` takes a stack: LOs, sets, the beam table (R66 steps 2 and 3). A set that goes out of service loses its
revert check (R134); a table switch empties the beam buffer, and commits that name the old table, queued or held, have no effect (R125, R141). -/
def State.takeStack (s : State) (q i : Nat) : State :=
  let old := s.curStack q
  let s1 := s.setCur q i
  let st := s1.curStack q
  let s2 := (s1.loTune q 0 (loUnits (stkLo st 0))).loTune q 1 (loUnits (stkLo st 1))
  let s3 := s2.quadUpd q (fun d => { d with
    beams := if stkBeam old = stkBeam st then d.beams else [],
    beamQ := if stkBeam old = stkBeam st then d.beamQ else [],
    paths := d.paths.map (fun p => { p with causes := p.causes.filter (· != 8) }),
    dpd := d.dpd.map (fun e => if stkSet old e.path == e.set && stkSet st e.path != e.set then { e with check := false, ref := none } else e) })
  let s4 := (List.range 16).foldl (fun t p => t.set Fld.DPD_STAT.RUN_SET [q, p] (stkSet st p)) s3
  let s5 := if stkBeam old = stkBeam st then s4 else
    s4.held.foldl (fun t _ => t.unhold (fun h => h.addr == Reg.addr .BEAM_COMMIT [q]) (fun _ _ u => u)) (s4.set Fld.BEAM_STAT.CQ [q] 0)
  (s5.setBeamStat q).stackWrites q (fun _ => true)

/-! Registers of chapter 3 -/

/-- Every path on LO `k` of quadrant `q` holds LRC or IDLE, and the LO is on (R35, R77). -/
def State.fineOk (s : State) (q k : Nat) : Bool :=
  s.get Fld.SYN_STAT.FREQ [q, k] != 0 && (s.loPaths q k).all (fun g => s.pathRole g == 5)

/-- Values and conditions that the registers of this file let through. -/
def okQuad (r : Reg) (ix : List Nat) (v : Word) (_ : Req) (s : State) : Bool :=
  match r, ix with
  | .PATH_CTL, [q, b, c] =>
    s.pathRole (16 * q + 8 * b + c) != 0
      || !((s.flag Fld.PATH_CTL.TX_MUTE ix && wbits v 0 0 == 0) || (s.flag Fld.PATH_CTL.RX_MUTE ix && wbits v 1 1 == 0))
  | .SYN_FINE, [q, k] => decide ((signed 18 (wbits v 17 0)).natAbs ≤ 100000) && s.fineOk q k
  | .RGC_ASYNC_CFG, _ => decide (wbits v 1 0 ≤ 1)
  | .FEN_RFFE_CMD, _ => !(wbits v 31 30 % 2 == 0 && decide (31 < wbits v 23 16))
  | .FEN_RFFE_CFG, _ => !(s.flag Fld.FEN_RFFE_CFG.VIO_EN ix && wbits v 4 4 != s.get Fld.FEN_RFFE_CFG.VIO_SEL ix)
  | .FEN_BIAS, _ => wbits v 31 31 == 0 || decide (40 ≤ wbits v 8 0 ∧ wbits v 8 0 ≤ 300)
  | _, _ => true

/-- Performed writes of the registers of this file. A VIO_EN that REG_INIT sets issues no front-end write: the stack's follow when FEN_VIO is ready (R93). -/
def wrQuad (r : Reg) (ix : List Nat) (v : Word) (rq : Req) (s : State) : State :=
  match r, ix with
  | .PATH_CTL, [q, b, c] =>
    let g := 16 * q + 8 * b + c
    let s1 := storeWord r ix v rq s
    let s2 := if wbits v 0 0 = 1 then s1.txLeave g
      else if s.flag Fld.PATH_CTL.TX_MUTE ix then s1.gateOpens [g] else s1
    if wbits v 5 5 = 1 ∧ s.pfenced g then s2.pathClear fenceCause g else s2
  | .FEN_RFFE_CMD, [q] => s.quadUpd q (fun d => { d with rffeQ := updAt d.rffeQ (wbits v 29 28) (· ++ [v]) })
  | .FEN_RFFE_CFG, [q] =>
    let s1 := storeWord r ix v rq s
    if wbits v 5 5 = 1 ∧ ¬ s.flag Fld.FEN_RFFE_CFG.VIO_EN ix ∧ s.serving then
      ((List.range 16).foldl (fun t p => t.pathClear (· == 5) (16 * q + p)) s1).stackWrites q (fun _ => true)
    else s1
  | _, _ => storeWord r ix v rq s

/-- Performed reads of the registers of this file. -/
def rdQuad (r : Reg) (ix : List Nat) (rq : Req) (s : State) : Word × State :=
  match r, ix with
  | .PATH_STAT, [q, b, c] => (s.pathStat (16 * q + 8 * b + c), s)
  | .FEN_RFFE_RSP, [q] =>
    match (s.quad q).rffeRsp with
    | [] => (0x8FC00000, s)
    | w :: t => (w, s.quadUpd q (fun d => { d with rffeRsp := t }))
  | _, _ => loadWord r ix rq s

/-! The rows -/

/-- PF_CLR (R107): a write of PATH_CTL of local path `p` of quadrant `q` with PF_CLR set. -/
def execPfClr (rq : Req) (q p : Nat) (v : Word) (s : State) : Host.Outcome State Fault Refusal :=
  .next (writeReg rq (Reg.addr .PATH_CTL [q, p / 8, p % 8]) 4 (wset v 5 5 1) okQuad wrQuad s)

/-- LO_LOCK (R76): the phase error has stayed within ±2° for 1 µs. -/
def execLoLock (q k : Nat) (s : State) : Host.Outcome State Fault Refusal :=
  .next (let y := s.syn q k
    if s.active q ∧ s.pwr.refclk ∧ s.flag Fld.SYN_STAT.TUNING [q, k] ∧ ¬ y.waiting ∧ ¬ y.dead ∧ y.since + 1000 ≤ s.now then
      ((s.sets [q, k] [(Fld.SYN_STAT.LOCK, 1), (Fld.SYN_STAT.TUNING, 0)]).synUpd q k (fun x => { x with tries := 0 })).gateOpens
        (s.loPaths q k)
    else s)

/-- LO_RESTART (R84): 1 ms without lock restarts the LO from off; after three failed restarts it stays off, its paths are
MUTED with cause LOCK and LOCK_LOST is raised. -/
def execLoRestart (q k : Nat) (s : State) : Host.Outcome State Fault Refusal :=
  .next (let y := s.syn q k
    if s.active q ∧ s.pwr.refclk ∧ s.flag Fld.SYN_STAT.TUNING [q, k] ∧ ¬ y.waiting ∧ y.since + 1000000 ≤ s.now then
      if y.tries < 3 then s.synUpd q k (fun x => { x with since := s.now, tries := x.tries + 1 })
      else
        let s1 := (s.setReg .SYN_STAT [q, k] 0).synUpd q k (fun x => { x with dead := true })
        ((s.loPaths q k).foldl (fun t g => t.pathFault 8 g) s1).raise (ev q 2)
    else s)

/-- A buffer of a region is centred on an ASYNC: its latency is fixed at the first centring and the same afterwards (R22,
R23); its value is free. -/
def ebufCentre (e : Ebuf) (free : Nat) : Ebuf := if e.on && e.lat.isNone then { e with lat := some (Config.freeNat free % 4096) } else e

/-- Every elastic buffer of region `g` that is on and not centred centres now (R22, R23). -/
def State.ebufsCentre (s : State) (g n : Nat) : State :=
  (List.range n).foldl (fun t i =>
    let e := t.ebuf g i
    if e.on ∧ ¬ t.flag Fld.RGC_EBUF_LAT.VALID [g, i] then
      let e1 := ebufCentre e t.free
      let t1 := { t with free := t.free + 1 }
      let t2 := if g = 4 then t1.radUpd (fun r => { r with bbEbufs := r.bbEbufs.set i e1 })
        else t1.quadUpd g (fun d => { d with ebufs := d.ebufs.set i e1 })
      t2.setReg .RGC_EBUF_LAT [g, i] (w32 (2 ^ 31 + e1.lat.getD 0))
    else t) s

/-- What a consumer sends stops radiating from now on (R23). -/
def State.airSilent (s : State) (src : Nat) : State :=
  (s.radio.txs.filter (fun t => t.start.isSome && t.src == src)).foldl (fun u t => u.emit .air [t.src, t.id]) s

/-- One slip of stream `n` of region `g` (R23): the stream carries zeros, it is counted and raised, and the buffer waits for the next ASYNC. In BB the stream is
that of consumer `n`, in both directions (R114). -/
def State.ebufSlip (s : State) (g n : Nat) : State :=
  if s.flag Fld.RGC_EBUF_LAT.VALID [g, n] then
    let s1 := ((s.set Fld.RGC_EBUF_LAT.VALID [g, n] 0).inc .RGC_EBUF_SLIP [g]).raise (ev g 1)
    if g = 4 then s1.airSilent n else s1
  else s

/-- Every elastic buffer of the quadrants and of BB slips (R80, R85). -/
def State.ebufsSlip (s : State) : State :=
  (List.range 5).foldl (fun t g => (List.range (if g = 4 then 5 else 4)).foldl (fun u n => u.ebufSlip g n) t) s

/-- ASYNC_PULSE (R21, R22, R78): the pulse of the part, its own or the one it follows on ASYNC_IN, which ASYNC_OUT passes on: buffers centre, retuned synthesisers
start; in the quadrants of `misaligned` a divider re-aligns and every buffer it feeds slips. -/
def execAsyncPulse (misaligned : List Nat) (s : State) : Host.Outcome State Fault Refusal :=
  .next (if ¬ s.pwr.refclk then s
    else
      let s1 := (List.range 5).foldl (fun t g => if t.active g then t.ebufsCentre g (if g = 4 then 5 else 4) else t) s
      let s2 := (misaligned.filter (· < 4)).foldl (fun t q =>
        if t.active q then (List.range 4).foldl (fun u n => u.ebufSlip q n) t else t) s1
      (List.range 4).foldl (fun t q => (List.range 2).foldl (fun u k =>
        if (u.syn q k).waiting then u.synUpd q k (fun y => { y with waiting := false, since := s.now }) else u) t)
        (if s.flag Fld.RGC_ASYNC_CFG.OUT_EN ∧ s.pwr.powered.contains 6 then s2.emit .async [s.now] else s2))

/-- EBUF_SLIP (R23): the buffer of stream `n` of region `g` empties or fills. -/
def execEbufSlip (g n : Nat) (s : State) : Host.Outcome State Fault Refusal :=
  .next (if g < 5 ∧ n < 8 ∧ s.active g then s.ebufSlip g n else s)

/-- ASYNC_LOST (R80): a follower finds a pulse missing or misplaced; it goes on by itself. -/
def execAsyncLost (s : State) : Host.Outcome State Fault Refusal :=
  .next (if s.evtRuns ∧ s.get Fld.RGC_ASYNC_CFG.SRC = 1 ∧ ¬ s.flag Fld.RGC_ASYNC_CFG.IN_LOST then
      (s.set Fld.RGC_ASYNC_CFG.IN_LOST [] 1).raise (ev 6 4)
    else s)

/-- Room in a bus's 16-entry command queue (R88). -/
def State.rffeFull (s : State) (q k : Nat) : Bool := decide (16 ≤ (((s.quad q).rffeQ[k]?).getD []).length)

/-- The write held for bus `k` of quadrant `q`. -/
def rffeHeldFor (q k : Nat) (h : Held) : Bool := h.addr == Reg.addr .FEN_RFFE_CMD [q] && wbits h.word 29 28 == k

/-- FEN_RFFE_CMD (R88): a write queues a command on its bus; it is held while the queue is full. -/
def execFenRffeCmd (rq : Req) (q : Nat) (v : Word) (s : State) : Host.Outcome State Fault Refusal :=
  .next (writeOrHold rq (Reg.addr .FEN_RFFE_CMD [q]) v
    (s.rffeFull q (wbits v 29 28) || s.held.any (rffeHeldFor q (wbits v 29 28))) okQuad wrQuad s)

/-- RFFE_COMMAND_DONE (R86, R88): the oldest command of bus `k` has run; a read brings `data`, with `perr` bad parity. A full
response queue starts none. USID 0 is for writes only: a read of it goes to no slave, and what it answers is free (notes/assumptions/69.md). -/
def execRffeCommandDone (q k data : Nat) (perr : Bool) (s : State) : Host.Outcome State Fault Refusal :=
  .next (match ((s.quad q).rffeQ[k]?).getD [] with
    | [] => s
    | c :: t =>
      if ¬ s.active q ∨ 32 ≤ (s.quad q).rffeRsp.length then s
      else
        let kind := wbits c 31 30
        let rd := decide (2 ≤ kind)
        let cast := rd && wbits c 27 24 == 0
        let data := if cast then Config.freeNat s.free else data
        let perr := if cast then bitOf (Config.freeNat (s.free + 1)) 0 else perr
        let rsp := w32 (b2n (rd && perr) * 2 ^ 30 + (wbits c 29 28 * 16 + wbits c 27 24) * 2 ^ 22 + kind * 2 ^ 20
          + wbits c 23 16 * 2 ^ 8 + (if rd then data % 256 else wbits c 15 8))
        let s0 := s.quadUpd q (fun d => { d with rffeQ := d.rffeQ.set k t, rffeRsp := d.rffeRsp ++ [rsp] })
        let s1 := if cast then { s0 with free := s.free + 2 } else s0.emit .rffe
          [4 * q + k, rffeKind kind (wbits c 23 16) (wbits c 15 8), wbits c 27 24, wbits c 23 16, wbits c 15 8]
        let s2 := if rd && perr then s1.inc .FEN_CNT_RFFE_NOACK [q] else s1
        s2.unhold (rffeHeldFor q k) (wrQuad .FEN_RFFE_CMD [q]))

/-- FEN_RFFE_RSP (R26): a read pops the oldest response. -/
def execFenRffeRsp (rq : Req) (q : Nat) (s : State) : Host.Outcome State Fault Refusal :=
  .next (readReg rq (Reg.addr .FEN_RFFE_RSP [q]) 4 readAny rdQuad s)

/-- RFFE_POLL (R89): poll entry `n` is read when POLL_MS has passed and its bus has no command queued; `pid` is what came
back, `parity` whether its parity was right. FEN_CNT_RFFE_NOACK counts the second consecutive miss, as step 2 of R89 says, where the counter's table speaks of missed
acknowledges (DESIGN CHOICE, notes/assumptions/68.md). -/
def execRffePoll (q n pid : Nat) (parity : Bool) (s : State) : Host.Outcome State Fault Refusal :=
  .next (let k := s.get Fld.FEN_RFFE_POLL.BUS [q, n]
    let due := (((s.quad q).polled[n]?).getD 0) + s.get Fld.FEN_RFFE_CFG.POLL_MS [q] * 1000000 ≤ s.now
    if n < 16 ∧ s.active q ∧ s.get Fld.FEN_RFFE_CFG.POLL_MS [q] ≠ 0 ∧ s.flag Fld.FEN_RFFE_POLL.EN [q, n]
        ∧ s.get Fld.FEN_RFFE_POLL.USID [q, n] ≠ 0 ∧ due ∧ (((s.quad q).rffeQ[k]?).getD []).isEmpty then
      let ack := parity && pid % 256 == s.get Fld.FEN_RFFE_POLL.PID [q, n]
      let s1 := s.quadUpd q (fun d => { d with polled := d.polled.set n s.now })
      let four := (List.range 4).map (fun i => 16 * q + 4 * k + i)
      if ack then
        let h := ((s.quad q).pollHit[k]?).getD 0 + 1
        let s2 := s1.quadUpd q (fun d => { d with pollHit := d.pollHit.set k (min h 2), pollMiss := d.pollMiss.set k 0 })
        if h = 2 ∧ four.any (fun g => (s.pathSt g).causes.contains 7) then
          four.foldl (fun t g => t.pathClear (· == 7) g) (s2.stackWrites q (· == k))
        else s2
      else
        let m := ((s.quad q).pollMiss[k]?).getD 0 + 1
        let s2 := s1.quadUpd q (fun d => { d with pollMiss := d.pollMiss.set k (min m 2), pollHit := d.pollHit.set k 0 })
        if m = 2 then
          four.foldl (fun t g => t.pathFault 7 g) ((s2.raise (ev q 6)).inc .FEN_CNT_RFFE_NOACK [q])
        else s2
    else s)

/-- VIO_OVERCURRENT (R91): FEN_VIO at its limit for 10 µs is switched off and every path is path-fenced with cause VIO. -/
def execVioOvercurrent (q : Nat) (s : State) : Host.Outcome State Fault Refusal :=
  .next (if s.active q ∧ s.flag Fld.FEN_RFFE_CFG.VIO_EN [q] then
      ((List.range 16).foldl (fun t p => t.pathFault 5 (16 * q + p)) (s.set Fld.FEN_RFFE_CFG.VIO_EN [q] 0)).raise (ev q 5)
    else s)

/-- VIO_EN (R91): a write of FEN_RFFE_CFG with VIO_EN set. -/
def execVioEn (rq : Req) (q : Nat) (v : Word) (s : State) : Host.Outcome State Fault Refusal :=
  .next (writeReg rq (Reg.addr .FEN_RFFE_CFG [q]) 4 (wset v 5 5 1) okQuad wrQuad s)

/-- BIAS_SHORT (R92): the current has been at ILIM for 10 µs. -/
def execBiasShort (q p : Nat) (s : State) : Host.Outcome State Fault Refusal :=
  .next (if p < 16 ∧ s.biasOn q p then
      (s.pathFault 3 (16 * q + p)).raise (ev q 5)
    else s)

/-- BIAS_OPEN (R92): the current has been below IOPEN for 20 µs while TXEN is high. -/
def execBiasOpen (q p : Nat) (s : State) : Host.Outcome State Fault Refusal :=
  .next (if p < 16 ∧ s.biasOn q p ∧ s.get Fld.FEN_BIAS.IOPEN [q, p] ≠ 0 ∧ s.txen (16 * q + p) then
      (s.pathFault 4 (16 * q + p)).raise (ev q 5)
    else s)

/-- FASTLINE (R106): a ball has differed from its driven level for 1 µs. -/
def execFastline (q p : Nat) (s : State) : Host.Outcome State Fault Refusal :=
  .next (if p < 16 ∧ s.active q ∧ s.pathOn (16 * q + p) then (s.pathFault 6 (16 * q + p)).raise (ev q 5) else s)

end Sys2Proof.Machine
end

