-- ==== Sys2Proof/Machine/Array.lean ====
section
/-! DEFINITION. The digital front end, the beam slice, pre-distortion and the observation receivers of a quadrant (R110 to
R143): their registers, buffers and commits. The samples themselves are in Machine/Chain.lean. -/
namespace Sys2Proof.Machine

/-! Transmit filters (R118) -/

/-- Commit the staged filter of quadrant `q` (R118). -/
def State.txfCommit (s : State) (q : Nat) : State :=
  let n := s.get Fld.DFE_TXF_CTL.ROUTE [q]
  if ¬ s.routeHere q n then s.commit .DFE_TXF_STAT [q] (2 * 2 ^ 24)
  else match s.maskFail q n with
    | some p => s.commit .DFE_TXF_STAT [q] (2 ^ 24 + p * 2 ^ 16)
    | none =>
      let f : TxFilter := { coefs := s.stagedFir q, ramp := s.get Fld.DFE_TXF_CTL.RAMP [q] }
      (s.quadUpd q (fun d => { d with filterNext := (n, f) :: d.filterNext.filter (fun e => e.1 != n) })).commit .DFE_TXF_STAT [q] 0

/-! Beam records (R122 to R130) -/

/-- Address of the active beam table of quadrant `q`, and of a record in it with its index entry (R124). -/
def State.beamBase (s : State) (q : Nat) : Nat :=
  64 * (s.reg .BEAM_TBL_BASE [q, s.get Fld.BEAM_STAT.ACTIVE_TBL [q]]).toNat
@[inherit_doc State.beamBase] def State.beamFind (s : State) (q route id : Nat) : Option Nat :=
  let b := s.beamBase q
  let off := s.num (b + 0x40 + 8 * route) 4
  let cnt := s.num (b + 0x44 + 8 * route) 2
  if off = 0 then none
  else ((List.range cnt).find? (fun i => s.num (b + 64 * off + 8 * i) 2 == id)).map
    (fun i => b + 64 * s.num (b + 64 * off + 8 * i + 4) 4)

/-- Bytes a record takes in the buffer. -/
def BeamRec.size (b : BeamRec) : Nat := (b.bytes.getD []).length

/-- Entries evicted, the least recently used first, until the rest fits 2 MiB (R125). -/
def beamEvict : Nat → List BeamRec → List BeamRec
  | 0, l => l
  | n + 1, l =>
    if (l.map BeamRec.size).sum ≤ 2097152 then l
    else match l.foldl (fun m b => match m with
        | none => if b.size = 0 then none else some b
        | some c => if b.size ≠ 0 ∧ b.used < c.used then some b else some c) none with
      | none => l
      | some c => beamEvict n (l.erase c)

/-- The bytes a fetch brings: header, groups and padding (R122); none when the table has no such record. -/
def State.beamLoad (s : State) (q route id : Nat) : Option Bytes :=
  (s.beamFind q route id).map (fun a => s.bytes a (64 * (min 4096 (s.num (a + 6) 2) + 1)))

/-- A record is named (R125): resident or already being fetched, it is only used; else its fetch starts. -/
def State.beamName (s : State) (q route id : Nat) : State :=
  match s.beamRec q route id with
  | some _ => s.quadUpd q (fun d => { d with beams := d.beams.map (fun b =>
      if b.route == route && b.id == id then { b with used := s.now } else b) })
  | none => s.quadUpd q (fun d => { d with beams := d.beams ++ [⟨route, id, none, none, true, s.now⟩] })

/-- LEAD in ns (R125): 0 behaves as 1. -/
def State.beamLead (s : State) (q : Nat) : Nat := 1000 * max 1 (s.get Fld.BEAM_CFG.LEAD [q])

/-- Every beam of a list, by route slot, is named in the quadrants of its route (R125). -/
def State.beamsName (s : State) (l : List (Nat × Nat)) : State :=
  l.foldl (fun t b => (t.routeLive b.1).foldl (fun u q => u.beamName q b.1 b.2) t) s

/-- The longest LEAD that naming the beams of a list now takes (R125): of the quadrants in which one is not yet named. -/
def State.beamsLead (s : State) (l : List (Nat × Nat)) : Nat :=
  (l.map (fun b => (((s.routeLive b.1).filter (fun q => (s.beamRec q b.1 b.2).isNone)).map s.beamLead).foldl max 0)).foldl max 0

/-- A record serves a transmission or reception that begins in quadrant `q` (R126, R127, R130): the newest fetched version
applies; a missing or invalid record is served with zero weights, counted and raised. `n` TD beams of its route are active already in its direction. -/
def State.beamUse (s : State) (q route id n : Nat) : State :=
  let miss := (s.inc .BEAM_CNT_MISS [q]).raise (ev q 11)
  match s.beamRec q route id with
  | none => miss
  | some b =>
    match b.next.orElse (fun _ => b.bytes) with
    | none => miss
    | some r =>
      if beamLog2 r = 15 ∧ 16 ≤ n then miss
      else
        let s1 := s.quadUpd q (fun d => { d with beams := d.beams.map (fun x =>
          if x.route == route && x.id == id then { x with bytes := some r, next := none, used := s.now } else x) })
        if s.beamValid route id r then s1 else s1.inc .BEAM_CNT_BADREC [q]

/-! Pre-distortion (R131 to R135) -/

/-- The shadow words of a set (R132). -/
def State.dpdShadow (s : State) (q p set : Nat) : List Word := (List.range 64).map (fun n => s.reg .DPD_SHADOW [q, p, set, n])

/-- The checks of R132 on a shadow of local path `p`. -/
def dpdShadowOk (p : Nat) (w : List Word) : Bool :=
  let cfg := (w[0]?).getD 0
  let nbr := (w[1]?).getD 0
  let orders := wbits cfg 4 0
  let m := wbits cfg 11 8
  let l := wbits cfg 14 12
  let mc := wbits cfg 17 16
  decide (orders % 2 = 1 ∧ 1 ≤ m ∧ m ≤ 8 ∧ l ≤ 4 ∧ 1 ≤ mc ∧ mc ≤ 2) && wbits cfg 7 5 == 0 && wbits cfg 15 15 == 0
    && wbits cfg 31 18 == 0 && (List.range l).all (fun i => wbits nbr (4 * i + 3) (4 * i) != p)
    && (List.range 5).all (fun i => (w[i + 3]?).getD 0 == 0)

/-- A DPD set replaced. -/
def State.setDpd (s : State) (q : Nat) (e : DpdSet) : State :=
  s.quadUpd q (fun d => { d with dpd := e :: d.dpd.filter (fun x => !(x.path == e.path && x.set == e.set)) })

/-- The beams that receptions of a route begin to use in quadrant `q`, in order (R127, R130). -/
def State.beamsHear (s : State) (q route : Nat) (ids : List Nat) : State :=
  (ids.zipIdx).foldl (fun t e => t.beamUse q route e.1 (t.tdCount q route ((ids.take e.2).map (fun i => (route, i))))) s

/-- The pending copy of a set becomes active (R133): trained, no longer PENDING, with a revert check due against the ACLR of the last visit before its commit (R134). -/
def State.dpdActivate (s : State) (q p set : Nat) : State :=
  let e := s.dpdSet q p set
  match e.pending with
  | none => s
  | some (w, _) =>
    let s1 := s.setDpd q { e with active := w, pending := none, check := e.ref.isSome }
    s1.sets [q, p] [(Fld.DPD_STAT.SET_VALID, maskSet (s.get Fld.DPD_STAT.SET_VALID [q, p]) set),
      (Fld.DPD_STAT.PENDING, maskClr (s.get Fld.DPD_STAT.PENDING [q, p]) set)]

/-- Commit a set from its shadow (R133): the active copy becomes the prior one; a running set waits for the path's next transmission start, another is active at
once. The reference of the revert check is taken here (R134). -/
def State.dpdCommit (s : State) (q p set : Nat) : State :=
  let e := s.dpdSet q p set
  let s1 := s.setDpd q { e with prior := e.active, pending := some (s.dpdShadow q p set, s.now), ref := (s.pathSt (16 * q + p)).aclr }
  if s.get Fld.DPD_STAT.RUN_SET [q, p] = set then
    s1.set Fld.DPD_STAT.PENDING [q, p] (maskSet (s.get Fld.DPD_STAT.PENDING [q, p]) set)
  else (s1.dpdActivate q p set).setDpd q { (s1.dpdActivate q p set).dpdSet q p set with check := false }

/-- A transmission of path `g` starts at `s`: a running set committed before `s` less TX_LEAD becomes active (R133). -/
def State.dpdStart (s : State) (g at_ : Nat) : State :=
  let q := g / 16
  let p := g % 16
  let set := s.get Fld.DPD_STAT.RUN_SET [q, p]
  match (s.dpdSet q p set).pending with
  | some (_, t) => if t < at_ - s.txLead q then s.dpdActivate q p set else s
  | none => s

/-! Observation receivers (R136 to R141) -/

/-- CAP_LEN in samples. -/
def State.capLen (s : State) (q : Nat) : Nat := 1024 * 2 ^ s.get Fld.ORX_CFG.CAP_LEN [q]

/-- Length of a visit in ns (R137): three RFFE slots and settling beside the two captures. -/
def State.visitNs (s : State) (q : Nat) : Nat := 4000 + (s.capLen q + 512) * 1000000 / planAdc (s.convPlan q)

/-- Receiver `r` serves local path `p` (R136). -/
def State.orxServes (s : State) (q r p : Nat) : Bool :=
  match s.get Fld.ORX_CFG.MAP [q] with
  | 1 => r == 0
  | 2 => r == 1
  | _ => p / 8 == r

/-- The transmission under way on local path `p`, which lasts long enough for a visit (R137). -/
def State.visitTx (s : State) (q p : Nat) : Option Tx :=
  s.radio.txs.find? (fun t => t.start.isSome && t.paths.contains (16 * q + p) && decide (t.startAt ≤ s.now
    ∧ s.now + 3000 + (s.capLen q + 512) * 1000000 / planAdc (s.convPlan q) ≤ t.startAt + t.dur))

/-- The bias current has jumped by more than half of its last good value (R105). -/
def State.biasJump (s : State) (g : Nat) : Bool := (s.pathSt g).bias != 0 && decide (3 * (s.pathSt g).bias < 2 * s.iBias g)

/-- When a path was last visited, for the choice of the next visit: a jump of its bias current brings the visit forward to at once (R105). -/
def State.visitedAt (s : State) (q p : Nat) : Nat := if s.biasJump (16 * q + p) then 0 else (s.pathSt (16 * q + p)).visited

/-- Class of a visit that path `p` is due, when it is (R138): 1 fault recheck, 2 older than PERIOD, 3 ADAPT_EN, 4 wanted by
the calibration controller. -/
def State.visitClass (s : State) (q p : Nat) : Option Nat :=
  let x := s.pathSt (16 * q + p)
  if x.low = 1 ∨ x.causes.any (fun c => c == 1 || c == 2) then some 1
  else if s.biasJump (16 * q + p) ∨ x.visited + max 1 (s.get Fld.ORX_CFG.PERIOD [q]) * 1000000 < s.now then some 2
  else if s.flag Fld.DPD_CTL.ADAPT_EN [q, p] then some 3
  else if s.flag Fld.CAL_CTL.AUTO_DIG [q] then some 4
  else none

/-- A ring slot of receiver `r` that is not in use. -/
def State.freeSlot (s : State) (q r : Nat) : Option Nat :=
  firstBelow 16 (fun i => !(((s.quad q).slots[r]?).getD []).contains i)

/-- The ball of local path `p`: 0 ORXA, 1 ORXB (R136). -/
def orxBall (p : Nat) : Nat := p / 8

/-- The path receiver `r` visits next, with its class: the lowest class, then the oldest last visit (R138, R139). One receiver that serves both balls alternates
between them where both have a path to visit (R136). -/
def State.nextVisit (s : State) (q r : Nat) : Option (Nat × Nat) :=
  let room := (s.freeSlot q r).isSome
  let cand := (List.range 16).filterMap (fun p =>
    if s.orxServes q r p && s.flag Fld.ORX_CPL.EN [q, p] && (s.visitTx q p).isSome && !(s.quad q).trims.contains p
        && !s.inGap (16 * q + p)
        && !((s.quad q).visits.any (fun v => (v.map (·.path)) == some p)) then
      (s.visitClass q p).bind (fun c => if room || c ≤ 2 then some (p, c) else none)
    else none)
  let other := cand.filter (fun e => orxBall e.1 != ((s.quad q).balls[r]?).getD 1)
  let both := s.get Fld.ORX_CFG.MAP [q] == 1 || s.get Fld.ORX_CFG.MAP [q] == 2
  (if both && !other.isEmpty then other else cand).foldl (fun m e => match m with
    | none => some e
    | some f => if e.2 < f.2 ∨ (e.2 = f.2 ∧ s.visitedAt q e.1 < s.visitedAt q f.1)
        then some e else some f) none

/-- Receiver `r` has no free slot: counted and raised on entry to that state (R139). -/
def State.orxStall (s : State) (q r : Nat) : State :=
  let st := (s.freeSlot q r).isNone
  let was := ((s.quad q).stalled[r]?).getD false
  let s1 := s.quadUpd q (fun d => { d with stalled := d.stalled.set r st })
  if st && !was then (s1.inc .ORX_CNT_STALL [q]).raise (ev q 14) else s1

/-- A slot of receiver `r` is free again. -/
def State.slotFree (s : State) (q r i : Nat) : State :=
  (s.quadUpd q (fun d => { d with slots := updAt d.slots r (·.filter (· != i)) })).orxStall q r

/-- Receiver `r` is between visits: an element that waited for it takes over, and no visit starts in the next 200 µs (R156). -/
def State.elemSwitch (s : State) (q r : Nat) : State :=
  if (s.cal q).elemTo.contains r ∧ (((s.quad q).visits[r]?).getD none).isNone then
    s.quadUpd q (fun d => { d with cal := { d.cal with elemTo := d.cal.elemTo.filter (· != r), quietUntil := d.cal.quietUntil.set r (s.now + 200000) } })
  else s

/-- A visit is abandoned (R141): its slot is free, no descriptor is delivered. -/
def State.visitAbandon (s : State) (q r : Nat) : State :=
  match ((s.quad q).visits[r]?).getD none with
  | none => s
  | some v =>
    let s1 := ((s.quadUpd q (fun d => { d with visits := d.visits.set r none })).inc .ORX_CNT_ABANDON [q]).elemSwitch q r
    match v.slot with
    | some i => s1.slotFree q r i
    | none => s1

/-- Visits on paths of a list are abandoned: a gap or a trim takes them (R141). -/
def State.visitsAbandon (s : State) (q : Nat) (ps : List Nat) : State :=
  (List.range 2).foldl (fun t r =>
    match ((t.quad q).visits[r]?).getD none with
    | some v => if ps.contains v.path then t.visitAbandon q r else t
    | none => t) s

/-- The antenna check of a visit (R105): `rl` in 0.25 dB, `bias` in 0.25 mA. -/
def State.antCheck (s : State) (g rl bias : Nat) : State :=
  let q := g / 16
  let x := s.pathSt g
  let lim := s.get Fld.FEN_PROT_CFG.RL_MIN [q]
  if x.causes.any (fun c => c == 1 || c == 2) then
    if lim + 12 ≤ rl then
      if 1 ≤ x.good then (s.pathUpd g (fun p => { p with good := 0, low := 0 })).pathClear (fun c => c == 1 || c == 2) g
      else s.pathUpd g (fun p => { p with good := 1 })
    else s.pathUpd g (fun p => { p with good := 0 })
  else if rl < lim then
    if x.low = 1 then
      ((s.pathUpd g (fun p => { p with low := 0, good := 0, retried := s.now })).pathFault
        (if 100 * bias > 120 * x.bias then 2 else 1) g).raise (ev q 4)
    else s.pathUpd g (fun p => { p with low := 1 })
  else s.pathUpd g (fun p => { p with low := 0, bias := bias })

/-- The revert check of a visit with ADAPT_EN (R134): ACLR sides in 0.1 dB. -/
def State.dpdCheck (s : State) (q p aclr : Nat) : State :=
  let set := s.get Fld.DPD_STAT.RUN_SET [q, p]
  let e := s.dpdSet q p set
  let lim := s.get Fld.DPD_CTL.REVERT_DB [q, p]
  if e.check ∧ s.flag Fld.DPD_CTL.ADAPT_EN [q, p] then
    let s1 := s.setDpd q { e with check := false }
    if lim ≠ 0 ∧ aclr * 10 + lim * 25 < e.ref.getD 0 * 10 then
      let s2 := ((s1.setDpd q { e with check := false, active := e.prior }).inc .DPD_CNT_REVERT [q, p]).raise (ev q 12)
      if e.prior.isEmpty then s2.set Fld.DPD_STAT.SET_VALID [q, p] (maskClr (s.get Fld.DPD_STAT.SET_VALID [q, p]) set) else s2
    else s1
  else s

/-- A coupler write of a visit (R136): local path, data. -/
def State.cplWrite (s : State) (q p data : Nat) : State :=
  s.emit .rffe [4 * q + p / 4, rffeKind 0 (s.get Fld.ORX_CFG.CPL_ADDR [q]) data, s.get Fld.ORX_CPL.USID [q, p], s.get Fld.ORX_CFG.CPL_ADDR [q], data]

/-- Return loss in 0.25 dB from both powers in 0.01 dBFS, with the coupler correction of the path's running set added (R137; DEDUCED, notes/assumptions/70.md). -/
def State.returnLoss (s : State) (g : Nat) (pFwd pRev : Int) : Nat :=
  (clampI 0 255 (roundQ (pFwd - pRev + (wordCx (wordAt (s.runCal g).active 7)).2) 25)).toNat

/-- Loop delay of a path in ADC samples (R137, R144). -/
def State.orxLag (s : State) (g : Nat) : Nat := wbits (wordAt (s.runCal g).active 7) 15 0 / 16

/-- A block of `cap` sample words; zeros where the stream carries none. -/
def sampleBlock (cap : Nat) (l : List Cx) : Bytes := slice ((l.map (fun a => leBytes 4 (cxWord (satCx a)).toNat)).flatten) 0 (4 * cap)

/-- The six blocks of a visit (R137, R139): the forward samples aligned by the loop delay, the path's DPD input, those of its four neighbour slots, zeros where a slot
has no neighbour. A capture stream that has slipped carries zeros (R23, R114). -/
def State.orxBlocks (s : State) (q r : Nat) (v : OrxVisit) (t : Tx) (fwd : List Cx) : Bytes :=
  let g := 16 * q + v.path
  let cap := s.capLen q
  let w := (s.dpdSet q v.path (s.runSet q v.path)).active
  let skip := s.adcCount q (v.at_ + 1500 - t.startAt)
  let dpd := fun (l : List Cx) => sampleBlock cap (if s.slipped q 2 then [] else l.drop skip)
  sampleBlock cap (if s.slipped q r then [] else fwd.drop (s.orxLag g)) ++ dpd (s.txInput t g s.now true).1
    ++ ((List.range 4).map (fun l => if l < wbits (wordAt w 0) 14 12 then
        dpd (s.nbrInput t (16 * q + wbits (wordAt w 1) (4 * l + 3) (4 * l)) s.now) else sampleBlock cap [])).flatten

/-- The slot header of a visit (R139). -/
def orxHeader (stamp p route set flags cap lag : Nat) (pf pr : Int) (rl lo hi : Nat) : Bytes :=
  leBytes 4 stamp ++ [b8 p, b8 route, b8 set, b8 flags] ++ leBytes 2 cap ++ leBytes 2 lag ++ leBytes 2 (unsigned 16 pf)
    ++ leBytes 2 (unsigned 16 pr) ++ leBytes 2 rl ++ leBytes 2 lo ++ leBytes 2 hi ++ List.replicate 42 0

/-! Registers of chapter 4 -/

/-- Values and conditions that the registers of this file let through. -/
def okArray (r : Reg) (ix : List Nat) (v : Word) (_ : Req) (s : State) : Bool :=
  match r, ix with
  | .DFE_TXF_CTL, _ => wbits v 3 0 == 1 && decide (10 ≤ wbits v 15 8 ∧ wbits v 15 8 ≤ 100)
  | .DFE_CFR_CFG, _ => decide (40 ≤ wbits v 7 0 ∧ wbits v 7 0 ≤ 120 ∧ 40 ≤ wbits v 15 8 ∧ wbits v 15 8 ≤ 120)
  | .DPD_COMMIT, [q, p] => dpdShadowOk p (s.dpdShadow q p (wbits v 2 0))
  | _, _ => true

/-- A commit that names a resident record of the active table has something to fetch (R126). -/
def State.beamDue (s : State) (q : Nat) (v : Word) : Bool :=
  wbits v 30 28 == s.get Fld.BEAM_STAT.ACTIVE_TBL [q] && (s.beamRec q (wbits v 27 24) (wbits v 14 0)).isSome

/-- Entries of the commit queue that still have something to fetch (R126): those of a record that has been evicted are gone. CQ follows, and what is held goes on. -/
def State.beamSettle (s : State) (q : Nat) (wr : Word → Req → State → State) : State :=
  let l := (s.quad q).beamQ.filter (fun e => (s.beamRec q e.2.1 e.2.2).isSome)
  (List.range (64 - l.length)).foldl (fun t _ => t.unhold (fun h => h.addr == Reg.addr .BEAM_COMMIT [q]) wr)
    ((s.quadUpd q (fun d => { d with beamQ := l })).set Fld.BEAM_STAT.CQ [q] (min 64 l.length))

/-- Performed writes of the registers of this file. -/
def wrArray (r : Reg) (ix : List Nat) (v : Word) (rq : Req) (s : State) : State :=
  match r, ix with
  | .DFE_TXF_CTL, [q] => (storeWord r ix v rq s).txfCommit q
  | .BEAM_COMMIT, [q] =>
    if s.beamDue q v then
      (s.quadUpd q (fun d => { d with beamQ := d.beamQ ++ [(wbits v 30 28, wbits v 27 24, wbits v 14 0)] })).set
        Fld.BEAM_STAT.CQ [q] (min 64 ((s.quad q).beamQ.length + 1))
    else s
  | .DPD_COMMIT, [q, p] => s.dpdCommit q p (wbits v 2 0)
  | .ORX_SLOT_FREE, [q] =>
    if ((s.quad q).visits[wbits v 4 4]?).getD none |>.any (fun x => x.slot == some (wbits v 3 0)) then s
    else s.slotFree q (wbits v 4 4) (wbits v 3 0)
  | _, _ => storeWord r ix v rq s

/-- Performed reads of the registers of this file. -/
def rdArray (r : Reg) (ix : List Nat) (rq : Req) (s : State) : Word × State :=
  match r, ix with
  | .ORX_CAP_POP, [q] =>
    match (s.quad q).capQ with
    | [] => (0x81F00000, s)
    | d :: t => (w32 (d / 32 * 2 ^ 20 + d / 16 % 2 * 2 ^ 16 + d % 16), s.quadUpd q (fun x => { x with capQ := t }))
  | _, _ => loadWord r ix rq s

/-! The rows -/

/-- TXF_COMMIT (R118): a write of DFE_TXF_CTL with OP COMMIT. -/
def execTxfCommit (rq : Req) (q : Nat) (v : Word) (s : State) : Host.Outcome State Fault Refusal :=
  .next (writeReg rq (Reg.addr .DFE_TXF_CTL [q]) 4 (wset v 3 0 1) okArray wrArray s)

/-- BEAM_ID_NAMED (R125): a consumer names a beam ID of a route in quadrant `q`. -/
def execBeamIdNamed (q route id : Nat) (s : State) : Host.Outcome State Fault Refusal :=
  .next (if s.active q ∧ s.routeHere q route then s.beamName q route id else s)

/-- BEAM_RECORD_FETCH (R125, R126): a fetch under way completes; an ID whose fetch finds no record is fetched anew when it is named again. A record changed while
resident is held for its next use; on a fronthaul route it serves from the next symbol, of which a run has no row (notes/assumptions/70.md). -/
def execBeamRecordFetch (q route id : Nat) (s : State) : Host.Outcome State Fault Refusal :=
  .next (match s.beamRec q route id with
    | none => s
    | some b =>
      let queued := (s.quad q).beamQ.find? (fun e => e.2.1 == route && e.2.2 == id)
      if ¬ s.active q ∨ (¬ b.fetching ∧ queued.isNone) then s
      else
        let r := s.beamLoad q route id
        let mine := fun (x : BeamRec) => x.route == route && x.id == id
        let l := (s.quad q).beams.map (fun x => if mine x then
          (if x.fetching ∨ routeRole s.sampleRoute route = 4 then { x with bytes := r, fetching := false } else { x with next := r }) else x)
        let s1 := s.quadUpd q (fun d => { d with
          beams := beamEvict d.beams.length (l.filter (fun x => !(mine x && x.bytes.isNone))),
          beamQ := if b.fetching then d.beamQ else match queued with
            | some e => d.beamQ.erase e
            | none => d.beamQ })
        s1.beamSettle q (wrArray .BEAM_COMMIT [q]))

/-- BEAM_COMMIT (R126): a write names a changed record; it is held while the commit queue holds 64 entries. -/
def execBeamCommit (rq : Req) (q : Nat) (v : Word) (s : State) : Host.Outcome State Fault Refusal :=
  .next (writeOrHold rq (Reg.addr .BEAM_COMMIT [q]) v (decide (64 ≤ (s.quad q).beamQ.length) && s.beamDue q v) okArray
    wrArray s)

/-- DPD_COMMIT (R133): a write of SET for local path `p`. -/
def execDpdCommit (rq : Req) (q p : Nat) (v : Word) (s : State) : Host.Outcome State Fault Refusal :=
  .next (writeReg rq (Reg.addr .DPD_COMMIT [q, p]) 4 v okArray wrArray s)

/-- ORX_VISIT_START (R136 to R138): receiver `r` is free and starts the next chosen visit: it tunes to the path's LO, and the path's coupler is set to FWD. -/
def execOrxVisitStart (q r : Nat) (s : State) : Host.Outcome State Fault Refusal :=
  .next (if r < 2 ∧ s.active q ∧ (((s.quad q).visits[r]?).getD none).isNone
        ∧ ((s.quad q).cal.quietUntil[r]?).getD 0 ≤ s.now then
      match s.nextVisit q r with
      | none => s
      | some (p, c) =>
        let slot := s.freeSlot q r
        let post := (s.dpdSet q p (s.get Fld.DPD_STAT.RUN_SET [q, p])).check
        ((s.quadUpd q (fun d => { d with
          visits := d.visits.set r (some ⟨p, s.pathLo (16 * q + p), c, s.now, slot, post⟩), balls := d.balls.set r (orxBall p),
          slots := match slot with
            | some i => updAt d.slots r (· ++ [i])
            | none => d.slots })).cplWrite q p (s.get Fld.ORX_CPL.FWD [q, p])).orxStall q r
    else s)

/-- ORX_VISIT_END (R137, R139): a visit ends, its coupler having been set to REV and DATA_OFF, with its measurements: powers in 0.01 dBFS, ACLR of both
sides in 0.1 dB, the forward samples of the receiver from t0 + 1.5 µs on. -/
def execOrxVisitEnd (q r : Nat) (pFwd pRev : Int) (lo hi : Nat) (fwd : List Cx) (s : State) :
    Host.Outcome State Fault Refusal :=
  .next (match ((s.quad q).visits[r]?).getD none with
    | none => s
    | some v =>
      if s.now < v.at_ + s.visitNs q then s
      else
        let g := 16 * q + v.path
        let tx := s.radio.txs.find? (fun t => t.start.isSome && t.paths.contains g)
        let route := (tx.bind (·.routes.head?)).getD 0
        let set := s.get Fld.DPD_STAT.RUN_SET [q, v.path]
        let cap := s.capLen q
        let rl := s.returnLoss g pFwd pRev
        let ac := min lo hi
        let s1 := ((s.quadUpd q (fun d => { d with visits := d.visits.set r none })).inc .ORX_CNT_VISIT [q]).elemSwitch q r
        let s2 := ((s1.set Fld.PATH_STAT.RL (pathIx g) rl).cplWrite q v.path (s.get Fld.ORX_CPL.REV [q, v.path])).cplWrite q v.path
          (s.get Fld.ORX_CFG.DATA_OFF [q])
        let s3 := match v.slot with
          | none => s2
          | some i =>
            let a := 64 * (s.reg .ORX_RING_BASE [q, r]).toNat + i * (64 + 24 * cap)
            let stamp := (s.stamp + 2 ^ 32 - (s.now - (v.at_ + 1500)) % 2 ^ 32) % 2 ^ 32
            let blocks := match tx with
              | some t => s.orxBlocks q r v t fwd
              | none => List.replicate (24 * cap) 0
            let t := s2.memPut a (orxHeader stamp v.path route set (b2n v.post) cap (s.orxLag g) pFwd pRev rl lo hi ++ blocks)
            let was := (s.quad q).capQ.isEmpty
            let u := t.quadUpd q (fun d => { d with capQ := d.capQ ++ [v.path * 32 + r * 16 + i] })
            if was then u.raise (ev q 13) else u
        let s4 := (s3.antCheck g rl (s.iBias g)).dpdCheck q v.path ac
        s4.pathUpd g (fun p => { p with visited := s.now, aclr := some ac }))

/-- ANT_RETRY (R105): every ANT_RETRY a path MUTED for its antenna joins one transmission with 20 dB more attenuation. -/
def execAntRetry (q p : Nat) (s : State) : Host.Outcome State Fault Refusal :=
  .next (let g := 16 * q + p
    let x := s.pathSt g
    let iv := s.get Fld.FEN_PROT_CFG.ANT_RETRY [q]
    if p < 16 ∧ s.active q ∧ x.causes.any (fun c => c == 1 || c == 2) ∧ x.causes.all (fun c => c == 1 || c == 2) ∧ iv ≠ 0
        ∧ x.retried + iv * 10000000 ≤ s.now then
      match s.radio.txs.find? (fun t => t.start.isNone && t.role == s.pathRole g) with
      | none => s
      | some t => (s.pathUpd g (fun y => { y with retried := s.now })).radUpd (fun r => { r with
          txs := r.txs.map (fun u => if u.id == t.id then { u with retest := g :: u.retest } else u) })
    else s)

/-- ORX_CAP_POP (R26): a read pops the oldest capture descriptor. -/
def execOrxCapPop (rq : Req) (q : Nat) (s : State) : Host.Outcome State Fault Refusal :=
  .next (readReg rq (Reg.addr .ORX_CAP_POP [q]) 4 readAny rdArray s)

/-- ORX_SLOT_FREE (R139): a write releases a ring slot. -/
def execOrxSlotFree (rq : Req) (q : Nat) (v : Word) (s : State) : Host.Outcome State Fault Refusal :=
  .next (writeReg rq (Reg.addr .ORX_SLOT_FREE [q]) 4 v okArray wrArray s)

end Sys2Proof.Machine
end

