-- ==== Sys2Proof/Machine/Calib.lean ====
section
/-! DEFINITION. Calibration of a quadrant: sets, estimates, runs and quiet windows, redundant elements, sealed blobs (R144 to
R161). -/
namespace Sys2Proof.Machine

/-- Calibration of quadrant `q` updated. -/
def State.calUpd (s : State) (q : Nat) (f : Cal → Cal) : State :=
  s.quadUpd q (fun d => { d with cal := f d.cal })

/-! Sets (R144, R158) -/

/-- A set replaced. -/
def State.setCal (s : State) (q : Nat) (e : CalSet) : State :=
  s.calUpd q (fun c => { c with sets := e :: c.sets.filter (fun x => !(x.path == e.path && x.set == e.set)) })

/-- A set replaced; what a set that does not run holds is in force at once (R145). -/
def State.putCal (s : State) (q : Nat) (e : CalSet) : State :=
  s.setCal q (if s.runSet q e.path = e.set then e else { e with rx := e.active, tx := e.active })

/-- The running set of a global path comes into force on receive, at a receive start (R145), and on transmit, at a transmission start. -/
def State.calRxStart (s : State) (g : Nat) : State :=
  if (s.runCal g).rx = (s.runCal g).active then s else s.setCal (g / 16) { s.runCal g with rx := (s.runCal g).active }
@[inherit_doc State.calRxStart] def State.calTxStart (s : State) (g : Nat) : State :=
  if (s.runCal g).tx = (s.runCal g).active then s else s.setCal (g / 16) { s.runCal g with tx := (s.runCal g).active }

/-! Plausibility (R148) -/

/-- Real and imaginary part of a complex word (R123). -/
def wRe (w : Word) : Int := signed 16 (wbits w 15 0)
@[inherit_doc wRe] def wIm (w : Word) : Int := signed 16 (wbits w 31 16)

/-- Squared magnitude of a complex word, in units of 2^-28. -/
def wMag (w : Word) : Nat := (wRe w).natAbs ^ 2 + (wIm w).natAbs ^ 2

/-- The four trim codes of a word. -/
def trimCode (w : Word) (i : Nat) : Int := signed 8 (wbits w (8 * i + 7) (8 * i))

/-- The word keeps the absolute limits of R148. -/
def calAbsOk (n : Nat) (w : Word) : Bool :=
  if n = 2 then decide ((wRe w).natAbs ≤ 2048 ∧ (wIm w).natAbs ≤ 2048)
  else if n = 3 ∨ n = 4 then decide (wMag w ≤ 2048 ^ 2)
  else if n = 5 ∨ 16 ≤ n then decide (8192 ^ 2 ≤ wMag w ∧ wMag w ≤ 32768 ^ 2)
  else if n = 6 then decide ((wRe w).natAbs ≤ 1000)
  else if n = 7 then decide (wbits w 15 0 ≤ 4095 ∧ (wIm w).natAbs ≤ 2000)
  else if n = 8 ∨ n = 9 then (List.range 4).all (fun i => decide (trimCode w i ≠ -128))
  else true

/-- The estimate keeps the step limits of R148 against the value it would replace: the applied trims, the active word
otherwise. 1 dB and 15° are compared through squares. -/
def calStepOk (n : Nat) (old w : Word) : Bool :=
  if n = 2 then decide ((wRe w - wRe old).natAbs ≤ 512 ∧ (wIm w - wIm old).natAbs ≤ 512)
  else if n = 3 ∨ n = 4 then decide ((wRe w - wRe old).natAbs ^ 2 + (wIm w - wIm old).natAbs ^ 2 ≤ 107374)
  else if n = 5 then
    let dot := wRe w * wRe old + wIm w * wIm old
    decide (wMag w * 10 ^ 12 ≤ wMag old * 1258925411794 ∧ wMag old * 10 ^ 12 ≤ wMag w * 1258925411794 ∧ 0 < dot
      ∧ wMag w * wMag old * 9330127018922193 ≤ dot.natAbs ^ 2 * 10 ^ 16)
  else if n = 6 then decide ((wRe w - wRe old).natAbs ≤ 100)
  else if n = 7 then decide (((wbits w 15 0 : Int) - wbits old 15 0).natAbs ≤ 16 ∧ (wIm w - wIm old).natAbs ≤ 100)
  else if n = 8 ∨ n = 9 then (List.range 4).all (fun i => decide ((trimCode w i - trimCode old i).natAbs ≤ 16))
  else true

/-- A CAL record of the Ash log (R149, R154, R157): kind, and CAL_REJ or CAL_RED. -/
def State.ashCal (s : State) (q kind : Nat) (w : Word) : State := s.ashAdd 0x0B (32 * q + 9) ([b8 q, b8 kind] ++ leBytes 4 w.toNat)

/-- An estimate is rejected (R149): recorded, counted, raised; the eighth in a row of one field on one path stops it. -/
def State.calReject (s : State) (q p n cause : Nat) : State :=
  let k := (((s.cal q).rejects.find? (fun e => e.1 == p && e.2.1 == n)).map (·.2.2)).getD 0 + 1
  let s1 := s.calUpd q (fun c => { c with rejects := (p, n, k) :: c.rejects.filter (fun e => !(e.1 == p && e.2.1 == n)) })
  let s2 := ((s1.sets [q] [(Fld.CAL_REJ.PATH, p), (Fld.CAL_REJ.SET, s.runSet q p), (Fld.CAL_REJ.WORD, n),
    (Fld.CAL_REJ.CAUSE, cause)]).inc .CAL_CNT_REJECT [q]).raise (ev q 16)
  if 8 ≤ k ∧ ¬ (s.cal q).stuck.contains (p, n) then
    let s3 := (s2.calUpd q (fun c => { c with stuck := (p, n) :: c.stuck })).set Fld.CAL_REJ.STUCK [q] 1
    s3.ashCal q 0 (s3.reg .CAL_REJ [q])
  else s2

/-- An estimate of word `n` of local path `p`'s running set (R146, R148); one that meets a commit of the set in the same cycle is discarded without counting (R155). -/
def State.calEstimate (s : State) (q p n : Nat) (w : Word) : State :=
  let e := s.calSet q p (s.runSet q p)
  let old := if n = 8 then wordAt e.applied 0 else if n = 9 then wordAt e.applied 1 else wordAt e.active n
  if (s.cal q).stuck.contains (p, n) ∨ (s.cal q).committed = some (p, s.runSet q p, s.now) then s
  else if ¬ calAbsOk n w then s.calReject q p n 0
  else if ¬ calStepOk n old w then s.calReject q p n 1
  else
    let s1 := s.calUpd q (fun c => { c with rejects := c.rejects.filter (fun x => !(x.1 == p && x.2.1 == n)) })
    if n = 8 ∨ n = 9 then
      s1.calUpd q (fun c => { c with targets := (p, n, w) :: c.targets.filter (fun x => !(x.1 == p && x.2.1 == n)) })
    else
      s1.setCal q { e with
        active := ((e.active.set n w).set 0 (wset (wordAt e.active 0) 0 0 1)).set 1 (w32 (s.get Fld.CAL_TEMP.NOW [q])) }

/-! Temperature (R150) -/

/-- Temperature channels of quadrant `q` (R162): converter and first channel. -/
def hkaQuad (q : Nat) : Nat × Nat := (q / 2, 8 * (q % 2))

/-- A result normalised to a code, in units of 1/256 code (R163). -/
def State.hkaCode256 (s : State) (c n : Nat) : Nat :=
  s.get Fld.HKA_VAL.VALUE [c, n] * 2 ^ s.get Fld.HKA_CH.SHIFT [c, n] * 2 ^ (8 - max 1 (s.get Fld.HKA_CH.AVG_LOG2 [c, n]))

/-- The quadrant temperature in 1/16 °C: the mean of the valid, unsuspected channels (R150); its rounding is free
(notes/assumptions/22.md). -/
def State.quadTemp (s : State) (q : Nat) : Option Int :=
  let h := hkaQuad q
  let l := (List.range 8).filter (fun i =>
    s.flag Fld.HKA_VAL.VALID [h.1, h.2 + i] && !bitOf (s.get Fld.HKA_CHK_STAT.SUSPECT) h.1)
  if l.isEmpty then none
  else
    let t := (l.map (fun i => s.hkaCode256 h.1 (h.2 + i))).sum
    let d := 256 * l.length
    some ((t / d + (if t % d = 0 then 0 else b2n (Config.tieUp t d)) : Nat) - 800)

/-! Runs (R150 to R154) -/

/-- A code of a trim word as a run would apply it: a committed code first, then an estimate at least TRIM_HYST away. -/
def trimByte (hyst : Nat) (auto : Bool) (active applied : Word) (target : Option Word) (i : Nat) : Nat :=
  let ap := wbits applied (8 * i + 7) (8 * i)
  if wbits active (8 * i + 7) (8 * i) ≠ ap then wbits active (8 * i + 7) (8 * i)
  else match target with
    | some t => if auto ∧ hyst ≤ (trimCode t i - trimCode applied i).natAbs then wbits t (8 * i + 7) (8 * i) else ap
    | none => ap

/-- The word a run would apply, when it differs from what is applied (R150 step 1). -/
def State.trimDue (s : State) (q p n : Nat) : Option (Nat × Nat × Word) :=
  let e := s.calSet q p (s.runSet q p)
  let ap := wordAt e.applied (n - 8)
  let tg := ((s.cal q).targets.find? (fun x => x.1 == p && x.2.1 == n)).map (·.2.2)
  let w := w32 (((List.range 4).map (fun i => trimByte (max 1 (s.get Fld.CAL_CFG.TRIM_HYST [q])) (s.flag Fld.CAL_CTL.AUTO_TRIM [q])
    (wordAt e.active n) ap tg i * 256 ^ i)).sum)
  if w = ap then none else some (p, n, w)

/-- The active trim word when `new` reaches the hardware in place of `old`: a code that software committed meanwhile stays for the next run. -/
def trimMerge (active old new : Word) : Word :=
  w32 (((List.range 4).map (fun i => (if wbits active (8 * i + 7) (8 * i) = wbits old (8 * i + 7) (8 * i) then wbits new (8 * i + 7) (8 * i)
    else wbits active (8 * i + 7) (8 * i)) * 256 ^ i)).sum)

/-- Trims of a list reach the hardware and the active copies (R145, R150). -/
def State.trimApply (s : State) (q : Nat) (l : List (Nat × Nat × Word)) : State :=
  l.foldl (fun t e =>
    let x := t.calSet q e.1 (t.runSet q e.1)
    t.setCal q { x with
      active := (x.active.set e.2.1 (trimMerge (wordAt x.active e.2.1) (wordAt x.applied (e.2.1 - 8)) e.2.2)).set 0 (wset (wordAt x.active 0) 1 1 1),
      applied := x.applied.set (e.2.1 - 8) e.2.2 }) s

/-- Settle time in µs of a trim of word `n` from one value to another (R151). -/
def trimSettle (n : Nat) (old new : Word) : Nat :=
  if n = 8 ∧ wbits old 31 16 ≠ wbits new 31 16 then 50 else 30

/-- LOs whose tree-end level has fallen more than 3 dB below its value at selection (R157: 0.02 dB a code). -/
def State.treesLow (s : State) (q : Nat) : List Nat :=
  (List.range 2).filter (fun k =>
    let ch := 56 + 2 * (q % 2) + k
    match ((s.cal q).treeLevel[k]?).getD none with
    | some l => s.flag Fld.HKA_VAL.VALID [q / 2, ch] && decide (s.hkaCode256 (q / 2) ch + 150 * 256 < l)
    | none => false)

/-- The owners of the roles on a run's paths (R152): 0 the access controller, 1 the fronthaul unit, 2 the Tixia modem; one
whose region is fenced or absent consents to anything and is left out. -/
def State.calOwners (s : State) (q : Nat) (ps : List Nat) : List Nat :=
  (List.range 3).filter (fun o => ps.any (fun p =>
    let r := s.pathRole (16 * q + p)
    (if o = 0 then decide (1 ≤ r ∧ r ≤ 3) && s.running 5 else if o = 1 then r == 4 && s.running 4 else r == 5 && s.running 4)))

/-- A transmission not yet started, on a path of the run, falls into an interval, or the gate of such a path is to open in it (R152, R154). -/
def State.calClash (s : State) (q : Nat) (ps : List Nat) (w d : Int) : Bool :=
  s.radio.txs.any (fun t => t.start.isNone && t.paths.any (fun g => g / 16 == q && ps.contains (g % 16))
    && decide (t.launch < w + d ∧ w < t.launch + t.dur))
  || s.radio.gaps.any (fun g => g.affected.any (fun a => a / 16 == q && ps.contains (a % 16))
    && decide (w ≤ s.netTime + ((g.ends : Int) - s.now) ∧ s.netTime + ((g.ends : Int) - s.now) < w + d))

/-- The interval overlaps the gap of a pending re-stack or a gap under way of quadrant `q` (R155); returns its end. -/
def State.gapClash (s : State) (q : Nat) (w d : Int) : Option Int :=
  match s.radio.request with
  | some r => if r.qs.any (fun e => e.1 == q) ∧ r.time < w + d ∧ w < r.time + 1000 * r.gap then some (r.time + 1000 * r.gap)
      else (s.radio.gaps.find? (fun g => g.qs.any (fun e => e.1 == q) && decide (w < s.netTime + ((g.ends : Int) - s.now)))).map
        (fun g => s.netTime + ((g.ends : Int) - s.now))
  | none => (s.radio.gaps.find? (fun g => g.qs.any (fun e => e.1 == q) && decide (w < s.netTime + ((g.ends : Int) - s.now)))).map
        (fun g => s.netTime + ((g.ends : Int) - s.now))

/-- Book the window at `w` (R152 step 3). -/
def State.calBook (s : State) (q : Nat) (r : CalRun) (w : Int) : State :=
  (((s.calUpd q (fun c => { c with run := some { r with booked := some w } })).setReg .CAL_QW [q] (w32 (w % 2 ^ 32).toNat)).sets [q]
    [(Fld.CAL_QW_INFO.PATHS, maskOf r.paths), (Fld.CAL_QW_INFO.D, r.durUs)]).set Fld.CAL_STAT.STATE [q] 2

/-- The earliest instant from `w` on at which a window of `d` ns on paths of the run meets no gap, launch or gate opening. -/
def State.calFree (s : State) (q : Nat) (ps : List Nat) (d : Int) : Nat → Int → Int
  | 0, w => w
  | n + 1, w =>
    match s.gapClash q w d with
    | some e => s.calFree q ps d n (max e (w + 1))
    | none =>
      match s.radio.txs.find? (fun t => t.start.isNone && t.paths.any (fun g => g / 16 == q && ps.contains (g % 16))
          && decide (t.launch < w + d ∧ w < t.launch + t.dur)) with
      | some t => s.calFree q ps d n (t.launch + t.dur)
      | none => w

/-- Another round of requests, with E = `e` (R152); with no owner to ask, each consents to any window, and the next one that is clear is booked. -/
def State.calRound (s : State) (q : Nat) (r : CalRun) (e : Int) : State :=
  let r1 := { r with booked := none, offers := [], earliest := e, forced := false }
  let s1 := ((s.calUpd q (fun c => { c with run := some r1 })).bump Fld.CAL_QW_INFO.ROUND [q]).set Fld.CAL_STAT.STATE [q] 1
  if (s.calOwners q r.paths).isEmpty then
    s1.calBook q r1 (s.calFree q r.paths (1000 * r.durUs) (s.radio.txs.length + s.radio.gaps.length + 2) e)
  else s1

/-- Every owner has answered (R152 step 3): the largest offer is booked when all confirm it, else another round follows. -/
def State.calSettle (s : State) (q : Nat) (r : CalRun) (confirmed : Int → Bool) : State :=
  if (s.calOwners q r.paths).all (fun o => r.offers.any (fun e => e.1 == o)) then
    let w := r.offers.foldl (fun m e => if m < e.2 then e.2 else m) r.earliest
    if confirmed w && (s.gapClash q w (1000 * r.durUs)).isNone && !s.calClash q r.paths w (1000 * r.durUs) then s.calBook q r w
    else s.calRound q r w
  else s.calUpd q (fun c => { c with run := some r })

/-- A run completes (R150 step 4); one on demand lets automatic updates resume (R149). -/
def State.calComplete (s : State) (q last paths : Nat) (temp : Nat) (demand : Bool) : State :=
  let v := s.reg .CAL_STAT [q]
  let s1 := s.commit .CAL_STAT [q] (setBits (setBits (setBits v.toNat 27 24 0) 23 20 last) 15 0 paths)
  let s2 := if demand then (s1.set Fld.CAL_REJ.STUCK [q] 0).calUpd q (fun c => { c with stuck := [], rejects := [] }) else s1
  (((s2.set Fld.CAL_TEMP.LAST [q] temp).calUpd q (fun c => { c with run := none })).inc .CAL_CNT_RUN [q]).raise (ev q 15)

/-- Reselected trees take effect (R157): CAL_RED, RECIP_VALID of the running set of each path on the LO, CAL_REDUNDANT. An LO
in `exhausted` has no tree that meets its limit. -/
def State.treesApply (s : State) (q : Nat) (l : List (Nat × Nat)) (exhausted : List Nat) : State :=
  l.foldl (fun t e =>
    let t1 := (if e.1 = 0 then t.set Fld.CAL_RED.LOA [q] e.2 else t.set Fld.CAL_RED.LOB [q] e.2).calUpd q (fun c =>
      { c with treeLevel := c.treeLevel.set e.1 none, treeTo := c.treeTo.filter (· != e) })
    let t2 := (t.loPaths q e.1).foldl (fun u g =>
      let x := u.calSet q (g % 16) (u.runSet q (g % 16))
      u.setCal q { x with active := x.active.set 0 (wset (wordAt x.active 0) 2 2 0) }) t1
    let t3 := t2.raise (ev q 18)
    if exhausted.contains e.1 then
      let u := t3.set Fld.CAL_RED.EXHAUST [q] (maskSet (t3.get Fld.CAL_RED.EXHAUST [q]) (2 + e.1))
      u.ashCal q 2 (u.reg .CAL_RED [q])
    else t3) s

/-- Trims of non-IDLE paths that a run would apply now (R150 step 1). -/
def State.trimsDue (s : State) (q : Nat) : List (Nat × Nat × Word) :=
  ((List.range 16).map (fun p => [s.trimDue q p 8, s.trimDue q p 9].filterMap id)).flatten

/-- Trees that a run would take now (R150 step 1, R157): those software chose, and with AUTO_RED one for each other LO whose level is low, which the spec does not say how to
choose (notes/assumptions/16.md). -/
def State.treesDue (s : State) (q : Nat) : List (Nat × Nat) :=
  (s.cal q).treeTo ++ (if s.flag Fld.CAL_CTL.AUTO_RED [q] then
    ((s.treesLow q).filter (fun k => !(s.cal q).treeTo.any (fun e => e.1 == k))).map (fun k => (k, Config.freeNat (s.free + k) % 4)) else [])

/-- Some path that is not IDLE is on LO `k`. -/
def State.treeLive (s : State) (q k : Nat) : Bool := (List.range 16).any (fun p => s.pathRole (16 * q + p) != 0 && s.pathLo (16 * q + p) == k)

/-- The contents of a run as they stand now: trims, paths and trees of its window, its duration (R150, R151). -/
def State.calContents (s : State) (q : Nat) (r : CalRun) (ts : List (Nat × Nat)) : CalRun :=
  let trims := (s.trimsDue q).filter (fun e => s.pathRole (16 * q + e.1) != 0)
  { r with trims := trims, trees := ts
           paths := (List.range 16).filter (fun p => trims.any (fun e => e.1 == p)
             || ts.any (fun t => s.pathRole (16 * q + p) != 0 && s.pathLo (16 * q + p) == t.1))
           durUs := 4 + (trims.map (fun e => trimSettle e.2.1 (wordAt (s.calSet q e.1 (s.runSet q e.1)).applied (e.2.1 - 8)) e.2.2)).foldl
             max (if ts.isEmpty then 0 else 120) }

/-- Start a run (R150). What needs no window is done at once: trims of IDLE paths, trees of an LO without other paths. A trigger during a run is merged into it: while
the run negotiates, its contents are collected anew and the owners are asked again; once its window is booked, what the window does not hold follows in a run of its own
as soon as it completes (DESIGN CHOICE, notes/assumptions/71.md). -/
def State.calStart (s : State) (q : Nat) (demand : Bool) : State :=
  let ts := s.treesDue q
  match (s.cal q).run with
  | some r =>
    if s.get Fld.CAL_STAT.STATE [q] = 1 then
      let r1 := s.calContents q { r with demand := r.demand || demand } (ts.filter (fun t => s.treeLive q t.1))
      if r1.trims = r.trims ∧ r1.trees = r.trees then s.calUpd q (fun c => { c with run := some { r with demand := r.demand || demand } })
      else (s.fresh.2).fresh.2.calRound q r1 (s.netTime + 200000)
    else s.calUpd q (fun c => { c with run := some { r with demand := r.demand || demand, again := true } })
  | none =>
    let temp := s.get Fld.CAL_TEMP.NOW [q]
    let new : CalRun := { since := s.now, temp := temp, trims := [], paths := [], trees := [], offers := [],
                          earliest := s.netTime + 200000, booked := none, durUs := 0, forced := false, demand := demand, again := false }
    let r := s.calContents q new (ts.filter (fun t => s.treeLive q t.1))
    let s1 := ((((s.pendResult .CAL_STAT [q]).trimApply q ((s.trimsDue q).filter (fun e => s.pathRole (16 * q + e.1) == 0))).treesApply q
      (ts.filter (fun t => !s.treeLive q t.1)) []).calUpd q (fun c => { c with
        elemDue := if s.flag Fld.CAL_CTL.AUTO_RED [q] then [0, 1] else [] }))
    let s2 := s1.fresh.2.fresh.2
    if r.paths.isEmpty then s2.calComplete q 2 0 temp demand
    else (s2.sets [q] [(Fld.CAL_QW_INFO.ROUND, 0)]).calRound q r r.earliest

/-- The quadrant temperature is brought up to date (R150, R158): CAL_TEMP.NOW, the first LAST, and the trigger. -/
def State.calTemp (s : State) (q : Nat) : State :=
  match s.quadTemp q with
  | none => s.set Fld.CAL_STAT.TEMP_VALID [q] 0
  | some t =>
    let n := unsigned 16 t
    let s1 := (s.set Fld.CAL_STAT.TEMP_VALID [q] 1).set Fld.CAL_TEMP.NOW [q] n
    if ¬ (s.cal q).lastSet then (s1.set Fld.CAL_TEMP.LAST [q] n).calUpd q (fun c => { c with lastSet := true })
    else if 4 * max 1 (s.get Fld.CAL_CFG.CAL_DT [q]) < (t - signed 16 (s.get Fld.CAL_TEMP.LAST [q])).natAbs then s1.calStart q false
    else s1

/-- A booked window is cancelled and negotiated again (R154, R155). -/
def State.calCancel (s : State) (q : Nat) (r : CalRun) : State := (s.inc .CAL_CNT_REBOOK [q]).calRound q r (s.netTime + 200000)

/-- A gap from `t` of `gap` µs takes the booked window it overlaps of each quadrant it involves (R155). -/
def State.calYield (s : State) (qs : List Nat) (t : Int) (gap : Nat) : State :=
  qs.foldl (fun u q => match (u.cal q).run with
    | some r => match r.booked with
      | some w => if t < w + 1000 * r.durUs ∧ w < t + 1000 * gap ∧ u.netTime < w then u.calCancel q r else u
      | none => u
    | none => u) s

/-- The run of a quadrant ends with a fence or a Lockdown: trims not settled count as not applied (R155). -/
def State.calDrop (s : State) (q : Nat) : State :=
  (s.calUpd q (fun c => { c with run := none, elemDue := [], elemTo := [], treeTo := [] })).quadUpd q (fun d => { d with trims := [] })

/-! Reading and writing the sets (R159) -/

/-- Path and set that CAL_WIN_SEL selects. -/
def State.winSet (s : State) (q : Nat) : CalSet := s.calSet q (s.get Fld.CAL_WIN_SEL.PATH [q]) (s.get Fld.CAL_WIN_SEL.SET [q])

/-- Commit the shadow of the selected set (R145, R159): digital fields of a running set wait for their instant; analogue
fields apply at once on an IDLE path or in a set that does not run, and start a run otherwise. -/
def State.calCommit (s : State) (q : Nat) : State :=
  let e := s.winSet q
  let live := s.runSet q e.path == e.set && s.pathRole (16 * q + e.path) != 0
  let trim := [wordAt e.shadow 8, wordAt e.shadow 9]
  let s1 := (s.putCal q { e with active := e.shadow, applied := if live then e.applied else trim }).calUpd q (fun c =>
    { c with committed := some (e.path, e.set, s.now) })
  if live && trim != e.applied then s1.calStart q false else s1

/-- Element choices of CAL_RED take effect (R156, R157): a tree in the window of a run, a receiver's element between its visits. `old` is CAL_RED before them. -/
def State.redChoose (s : State) (q : Nat) (old new : Word) : State :=
  let el := fun (w : Word) (r : Nat) => wbits w (2 * r + 1) (2 * r)
  let tr := fun (w : Word) (k : Nat) => wbits w (2 * k + 9) (2 * k + 8)
  let es := (List.range 2).filter (fun r => el old r != el new r)
  let s1 := s.calUpd q (fun c => { c with
    elemTo := es ++ c.elemTo.filter (fun r => !es.contains r),
    treeTo := ((List.range 2).filter (fun k => tr old k != tr new k || c.treeTo.any (fun e => e.1 == k))).map (fun k => (k, tr new k)) })
  (s1.elemSwitch q 0).elemSwitch q 1

/-! The sealed blob (R160, R161) -/

/-- The sets of a mask in ascending order, paths 0 to 15 within each set (R160). -/
def blobSets (mask : Nat) : List (Nat × Nat) := ((maskList mask 8).map (fun t => (List.range 16).map (fun p => (p, t)))).flatten

/-- The preceding bytes of the tag of a blob (R160). -/
def State.blobBytes (s : State) (q mask count : Nat) : Bytes :=
  let body := ((blobSets mask).map (fun e => ((s.calSet q e.1 e.2).active.map (fun w => leBytes 4 w.toNat)).flatten)).flatten
  leBytes 4 0x424C4143 ++ leBytes 2 1 ++ [b8 q, b8 mask] ++ leBytes 8 Config.deviceId ++ leBytes 2 0xA1
    ++ leBytes 2 (s.get Fld.CAL_TEMP.NOW [q]) ++ leBytes 4 count ++ leBytes 8 (s.netTime / 1000000000).toNat
    ++ leBytes 4 body.length ++ leBytes 4 (s.reg .CAL_RED [q]).toNat ++ List.replicate 24 0 ++ body

/-- The tag over a blob's bytes: AES-256-GMAC under Kiln's calibration key with the IV of R160. -/
def State.blobTag (s : State) (count q : Nat) (b : Bytes) : Bytes :=
  gcmTag (s.kdf [0x43, 0x41, 0x4C, 0x42] 32) (leBytes 4 count ++ [b8 q] ++ List.replicate 7 0) b [] 16

/-- Report the outcome of a blob operation. -/
def State.xpStat (s : State) (q res len : Nat) : State := s.commit .CAL_XP_STAT [q] (res * 2 ^ 24 + len)

/-- Result of an operation that the run or the mode forbids (R161): BUSY, MODE. -/
def State.xpBlocked (s : State) (q : Nat) : Option Nat :=
  if 2 ≤ s.get Fld.CAL_STAT.STATE [q] then some 5 else if ¬ s.serving then some 6 else none

/-- OP=EXPORT (R160): EXPORT_COUNT increments and the blob is written. -/
def State.calExport (s : State) (q : Nat) : State :=
  let mask := s.get Fld.CAL_XP_CTL.SETMASK [q]
  match s.xpBlocked q with
  | some c => s.xpStat q c 0
  | none =>
    if mask = 0 then s.xpStat q 1 0
    else
      let n := s.kiln.exports + 1
      let b := s.blobBytes q mask n
      let s1 := { s with kiln := { s.kiln with exports := n } }
      ((s1.memWrite .kiln (64 * (s.reg .CAL_XP_ADDR [q]).toNat) (b ++ s.blobTag n q b)).2).xpStat q 0 (b.length + 16)

/-- The checks of R161 on a blob, in order: 0 when all pass. -/
def State.blobCheck (s : State) (q : Nat) (b : Bytes) : Nat :=
  let mask := leAt b 7 1
  let len := leAt b 0x20 4
  let pre := slice b 0 (0x40 + len)
  if leAt b 0 4 ≠ 0x424C4143 ∨ leAt b 4 2 ≠ 1 ∨ len ≠ 2048 * (maskList mask 8).length then 1
  else if leAt b 8 8 ≠ Config.deviceId ∨ leAt b 0x10 2 ≠ 0xA1 ∨ leAt b 6 1 ≠ q then 2
  else if slice b (0x40 + len) 16 ≠ s.blobTag (leAt b 0x14 4) q pre then 3
  else if ¬ (List.range (len / 4)).all (fun i => calAbsOk (i % 32) (w32 (leAt b (0x40 + 4 * i) 4))) then 4
  else 0

/-- OP=RESTORE (R161). -/
def State.calRestore (s : State) (q : Nat) : State :=
  let a := 64 * (s.reg .CAL_XP_ADDR [q]).toNat
  match s.xpBlocked q with
  | some c => s.xpStat q c 0
  | none =>
    let b := (s.memRead .kiln a (0x50 + min 16384 (s.num (a + 0x20) 4))).2.1
    let c := s.blobCheck q b
    if c ≠ 0 then s.xpStat q c 0
    else
      let red := leAt b 0x24 4
      let s1 := ((blobSets (leAt b 7 1)).zipIdx).foldl (fun t e =>
        let w := (List.range 32).map (fun n => w32 (leAt b (0x40 + 128 * e.2 + 4 * n) 4))
        let x := t.calSet q e.1.1 e.1.2
        t.putCal q { x with active := w, shadow := w,
                            applied := if t.runSet q e.1.1 == e.1.2 then x.applied else [wordAt w 8, wordAt w 9] }) s
      let s2 := s1.sets [q] [(Fld.CAL_RED.LOB, bits red 11 10), (Fld.CAL_RED.LOA, bits red 9 8), (Fld.CAL_RED.ORX1, bits red 3 2),
        (Fld.CAL_RED.ORX0, bits red 1 0)]
      ((s2.redChoose q (s.reg .CAL_RED [q]) (s2.reg .CAL_RED [q])).calStart q false).xpStat q 0 (0x50 + leAt b 0x20 4)

/-! Registers of chapter 5, quadrant part -/

/-- Values and conditions that the calibration registers let through. -/
def okCal (r : Reg) (ix : List Nat) (v : Word) (_ : Req) (s : State) : Bool :=
  match r, ix with
  | .CAL_CTL, _ => decide (wbits v 3 0 = 1 ∨ wbits v 3 0 = 2)
  | .CAL_COMMIT, [q] => wbits v 3 0 == 2
      || (wbits v 3 0 == 1 && ((s.winSet q).shadow.zipIdx).all (fun e => calAbsOk e.2 e.1))
  | .CAL_WIN, [q, _] => s.flag Fld.CAL_WIN_SEL.VIEW [q]
  | .CAL_RED, _ => decide (wbits v 3 2 ≠ 3 ∧ wbits v 1 0 ≠ 3)
  | .CAL_XP_CTL, _ => decide (wbits v 3 0 = 1 ∨ wbits v 3 0 = 2)
  | _, _ => true

/-- A word of a set without the bits and words that R144 gives as zero. -/
def calKept (n : Nat) (v : Word) : Word :=
  if n = 0 then w32 (wbits v 2 0) else if n = 1 ∨ n = 6 ∨ n = 9 then w32 (wbits v 15 0) else if 10 ≤ n ∧ n < 16 then 0 else v

/-- Performed writes of the calibration registers. -/
def wrCal (r : Reg) (ix : List Nat) (v : Word) (rq : Req) (s : State) : State :=
  match r, ix with
  | .CAL_CTL, [q] =>
    let s1 := storeWord r ix v rq s
    if wbits v 3 0 = 1 then s1.calStart q true
    else match (s.cal q).run with
      | some _ => if s.get Fld.CAL_STAT.STATE [q] = 3 then s1
          else
            let w := setBits (setBits (s1.reg .CAL_STAT [q]).toNat 27 24 0) 23 20 4
            (s1.calUpd q (fun c => { c with run := none })).commit .CAL_STAT [q] (setBits w 15 0 0)
      | none => s1
  | .CAL_COMMIT, [q] =>
    if wbits v 3 0 = 1 then s.calCommit q
    else s.setCal q { s.winSet q with shadow := (s.winSet q).active }
  | .CAL_WIN, [q, n] => s.setCal q { s.winSet q with shadow := (s.winSet q).shadow.set n (calKept n v) }
  | .CAL_RED, [q] => ((storeWord r ix v rq s).redChoose q (s.reg .CAL_RED [q]) v).calStart q false
  | .CAL_XP_CTL, [q] =>
    let s1 := (storeWord r ix v rq s).pendResult .CAL_XP_STAT [q]
    if wbits v 3 0 = 1 then s1.calExport q else s1.calRestore q
  | _, _ => storeWord r ix v rq s

/-- Performed reads of the calibration registers. -/
def rdCal (r : Reg) (ix : List Nat) (rq : Req) (s : State) : Word × State :=
  match r, ix with
  | .CAL_WIN, [q, n] =>
    let e := s.winSet q
    (wordAt (if s.flag Fld.CAL_WIN_SEL.VIEW [q] then e.shadow else e.active) n, s)
  | _, _ => loadWord r ix rq s

/-! The rows -/

/-- RUN (R150): a write of CAL_CTL with OP RUN. -/
def execCalRun (rq : Req) (q : Nat) (v : Word) (s : State) : Host.Outcome State Fault Refusal :=
  .next (writeReg rq (Reg.addr .CAL_CTL [q]) 4 (wset v 3 0 1) okCal wrCal s)

/-- CAL_ABORT (R150): a write of CAL_CTL with OP ABORT. -/
def execCalAbort (rq : Req) (q : Nat) (v : Word) (s : State) : Host.Outcome State Fault Refusal :=
  .next (writeReg rq (Reg.addr .CAL_CTL [q]) 4 (wset v 3 0 2) okCal wrCal s)

/-- Words that the estimators estimate (R146). -/
def calEstimable (n : Nat) : Bool := decide (2 ≤ n ∧ n ≤ 8)

/-- CAL_ESTIMATE (R146, R148): an estimate of word `n` of local path `p` completes; `moved` says that the quadrant temperature
moved by more than CAL_DT during its accumulation, and it is discarded. -/
def execCalEstimate (q p n : Nat) (w : Word) (moved : Bool) (s : State) : Host.Outcome State Fault Refusal :=
  .next (if s.active q ∧ p < 16 ∧ s.flag Fld.CAL_CTL.AUTO_DIG [q] ∧ ¬ moved ∧ calEstimable n then s.calEstimate q p n w else s)

/-- CAL_WINDOW_START (R153): at W the gates of the window's paths close. -/
def execCalWindowStart (q : Nat) (s : State) : Host.Outcome State Fault Refusal :=
  .next (match (s.cal q).run with
    | none => s
    | some r => match r.booked with
      | none => s
      | some w =>
        if s.get Fld.CAL_STAT.STATE [q] = 2 ∧ w ≤ s.netTime then
          let s1 := (s.quadUpd q (fun d => { d with trims := r.paths })).set Fld.CAL_STAT.STATE [q] 3
          State.wacLine ((r.paths.foldl (fun t p => t.txLeave (16 * q + p)) (s1.visitsAbandon q r.paths)).phyLose (r.paths.map (16 * q + ·)))
        else s)

/-- CAL_DONE (R150, R151): at W + D the window ends: trims and trees are applied and the run completes. `exhausted` names the
LOs no tree of which meets its limit (R157). -/
def execCalDone (q : Nat) (exhausted : List Nat) (s : State) : Host.Outcome State Fault Refusal :=
  .next (match (s.cal q).run with
    | none => s
    | some r => match r.booked with
      | none => s
      | some w =>
        if s.get Fld.CAL_STAT.STATE [q] = 3 ∧ w + 1000 * r.durUs ≤ s.netTime then
          let s1 := (((s.trimApply q r.trims).treesApply q r.trees exhausted).quadUpd q (fun d => { d with trims := [] })).gateOpens
            (r.paths.map (16 * q + ·))
          let s2 := s1.wacLine.calComplete q
            (if r.forced then 3 else 1) (maskOf ((List.range 16).filter (fun p => r.trims.any (fun e => e.1 == p)))) r.temp r.demand
          if r.again then s2.calStart q false else s2
        else s)

/-- CAL_REBOOK (R154): a launch time or a gate opening on an affected path falls into the booked window before it begins. -/
def execCalRebook (q : Nat) (s : State) : Host.Outcome State Fault Refusal :=
  .next (match (s.cal q).run with
    | none => s
    | some r => match r.booked with
      | none => s
      | some w =>
        if s.get Fld.CAL_STAT.STATE [q] = 2 ∧ s.netTime < w ∧ ¬ r.forced ∧ s.calClash q r.paths w (1000 * r.durUs) then
          s.calCancel q r
        else s)

/-- CAL_FORCED (R154): CAL_MAX_DEFER has passed without a booked window: one is forced, FORCE_LEAD ahead, clear of gaps. -/
def execCalForced (q : Nat) (s : State) : Host.Outcome State Fault Refusal :=
  .next (match (s.cal q).run with
    | none => s
    | some r =>
      if s.get Fld.CAL_STAT.STATE [q] = 1 ∧ r.since + max 1 (s.get Fld.CAL_CFG.CAL_MAX_DEFER [q]) * 1000000 ≤ s.now then
        let e := s.netTime + max 1 (s.get Fld.CAL_CFG.FORCE_LEAD [q]) * 1000000
        let w := (s.gapClash q e (1000 * r.durUs)).getD e
        let s1 := ((s.calBook q { r with forced := true } w).inc .CAL_CNT_FORCED [q]).raise (ev q 17)
        s1.ashCal q 1 (s1.reg .CAL_RED [q])
      else s)

/-- ORX_ELEMENT_RESELECT (R156): between visits receiver `r` takes the element that the run's reference measurement chose;
`meets` says whether it meets its limits. No visit starts in the next 200 µs. -/
def execOrxElementReselect (q r elem : Nat) (meets : Bool) (s : State) : Host.Outcome State Fault Refusal :=
  .next (let f := if r = 0 then Fld.CAL_RED.ORX0 else Fld.CAL_RED.ORX1
    if s.active q ∧ (s.cal q).elemDue.contains r ∧ elem < 3 ∧ (((s.quad q).visits[r]?).getD none).isNone then
      let s1 := (s.set f [q] elem).calUpd q (fun c => { c with
        elemDue := c.elemDue.filter (· != r), quietUntil := c.quietUntil.set r (s.now + 200000) })
      if meets then s1
      else
        let s2 := s1.set Fld.CAL_RED.EXHAUST [q] (maskSet (s1.get Fld.CAL_RED.EXHAUST [q]) r)
        (s2.ashCal q 2 (s2.reg .CAL_RED [q])).raise (ev q 18)
    else s)

/-- CAL_COMMIT (R159): a write with OP COMMIT. -/
def execCalCommit (rq : Req) (q : Nat) (s : State) : Host.Outcome State Fault Refusal :=
  .next (writeReg rq (Reg.addr .CAL_COMMIT [q]) 4 1 okCal wrCal s)

/-- LOAD (R159): a write with OP LOAD. -/
def execCalLoad (rq : Req) (q : Nat) (s : State) : Host.Outcome State Fault Refusal :=
  .next (writeReg rq (Reg.addr .CAL_COMMIT [q]) 4 2 okCal wrCal s)

/-- CAL_RED (R157): a write of the element choices. -/
def execCalRed (rq : Req) (q : Nat) (v : Word) (s : State) : Host.Outcome State Fault Refusal :=
  .next (writeReg rq (Reg.addr .CAL_RED [q]) 4 v okCal wrCal s)

/-- EXPORT (R160): a write of CAL_XP_CTL with OP EXPORT. -/
def execCalExport (rq : Req) (q : Nat) (v : Word) (s : State) : Host.Outcome State Fault Refusal :=
  .next (writeReg rq (Reg.addr .CAL_XP_CTL [q]) 4 (wset v 3 0 1) okCal wrCal s)

/-- RESTORE (R161): a write of CAL_XP_CTL with OP RESTORE. -/
def execCalRestore (rq : Req) (q : Nat) (v : Word) (s : State) : Host.Outcome State Fault Refusal :=
  .next (writeReg rq (Reg.addr .CAL_XP_CTL [q]) 4 (wset v 3 0 2) okCal wrCal s)

/-- CROSSFADE (R133, R145): local path `p` has transmitted (`tx`) or received for 2 ms without a break: a pending DPD set or a
digital calibration change takes effect. -/
def execCrossfade (q p : Nat) (tx : Bool) (s : State) : Host.Outcome State Fault Refusal :=
  .next (let x := s.pathSt (16 * q + p)
    let since := if tx then x.txSince else if s.pathState (16 * q + p) = 1 then some x.rxSince else none
    match since with
    | some t =>
      if p < 16 ∧ s.active q ∧ t + 2000000 ≤ s.now then
        if tx then (s.calTxStart (16 * q + p)).dpdActivate q p (s.get Fld.DPD_STAT.RUN_SET [q, p]) else s.calRxStart (16 * q + p)
      else s
    | none => s)

end Sys2Proof.Machine
end

