-- ==== Sys2Proof/Machine/Hka.lean ====
section
/-! DEFINITION. The housekeeping converters, AO.HKA (R162 to R168). -/
namespace Sys2Proof.Machine

/-- Housekeeping updated. -/
def State.hkaUpd (s : State) (f : Hka → Hka) : State := s.radUpd (fun r => { r with hka := f r.hka })

/-- Region of a channel's source when a fence or a missing supply can take it away (R162, R164): a quadrant, or CT for the
digital die; AO otherwise. -/
def hkaSource (c n : Nat) : Nat :=
  if n ≤ 7 then 2 * c else if n ≤ 15 then 2 * c + 1 else if n ≤ 27 then 6
  else if 48 ≤ n ∧ n ≤ 51 then 2 * c else if 52 ≤ n ∧ n ≤ 55 then 2 * c + 1
  else if n = 56 ∨ n = 57 ∨ n = 60 then 2 * c else if n = 58 ∨ n = 59 ∨ n = 61 then 2 * c + 1 else 7

/-- The source of a channel is present, powered and not fenced (R164). -/
def State.hkaLive (s : State) (c n : Nat) : Bool :=
  let g := hkaSource c n
  g == 7 || (s.present g && s.pwr.powered.contains g && !s.fenced g)

/-- VALID clears on every channel whose source is gone (R164). -/
def State.hkaSkip (s : State) : State :=
  (List.range 2).foldl (fun t c => (List.range 63).foldl (fun u n =>
    if u.hkaLive c n then u else u.set Fld.HKA_VAL.VALID [c, n] 0) t) s

/-- Housekeeping goes off (R158): its queue is emptied, no result is valid. -/
def State.hkaOff (s : State) : State :=
  (List.range 2).foldl (fun t c => (List.range 63).foldl (fun u n => u.set Fld.HKA_VAL.VALID [c, n] 0) t)
    ((s.hkaUpd (fun h => { h with queue := [], dropped := false, scan := [63, 63] })).set Fld.HKA_QLEVEL.LEVEL [] 0)

/-- Housekeeping runs from its reset configuration (R158): HKA_CFG and HKA_CH. -/
def State.hkaBegin (s : State) : State :=
  s.resetRegs (fun k => keyReg k == .HKA_CFG || keyReg k == .HKA_CH)

/-- A result is pushed to the 512-entry queue (R165). -/
def State.hkaPush (s : State) (c n v : Nat) : State :=
  let h := s.radio.hka
  if 512 ≤ h.queue.length then
    let s1 := (s.inc .HKA_CNT_QDROP).hkaUpd (fun x => { x with dropped := true })
    if h.dropped then s1 else s1.raise (ev 7 9)
  else
    let s1 := (s.hkaUpd (fun x => { x with queue := x.queue ++ [(c, n, v)] })).set Fld.HKA_QLEVEL.LEVEL [] (h.queue.length + 1)
    if h.queue.isEmpty then s1.raise (ev 7 8) else s1

/-- Values that the housekeeping registers let through. -/
def okHka (r : Reg) (ix : List Nat) (v : Word) (_ : Req) (_ : State) : Bool :=
  match r, ix with
  | .HKA_CH, [_, n] => n != 63 && decide (wbits v 11 8 ≤ 8 ∧ wbits v 3 0 ≤ 8)
  | _, _ => true

/-- Performed writes of the housekeeping registers. -/
def wrHka (r : Reg) (ix : List Nat) (v : Word) (rq : Req) (s : State) : State := storeWord r ix v rq s

/-- Performed reads of the housekeeping registers. -/
def rdHka (r : Reg) (ix : List Nat) (rq : Req) (s : State) : Word × State :=
  match r with
  | .HKA_POP =>
    match s.radio.hka.queue with
    | [] => (0xFF000000, s)
    | e :: t =>
      (w32 (e.1 * 2 ^ 30 + e.2.1 * 2 ^ 24 + e.2.2),
        (s.hkaUpd (fun x => { x with queue := t, dropped := x.dropped && !t.isEmpty })).set Fld.HKA_QLEVEL.LEVEL [] t.length)
  | .HKA_VAL =>
    let w := (loadWord r ix rq s).1
    (match ix with
      | [c, _] => wset w 30 30 (b2n (bitOf (s.get Fld.HKA_CHK_STAT.SUSPECT) c))
      | _ => w, (loadWord r ix rq s).2)
  | _ => loadWord r ix rq s

/-- Channel `n` of converter `c` is in the scan (R162 to R164): enabled, not the cross-check's, its source live. -/
def State.hkaScanned (s : State) (c n : Nat) : Bool := decide (n < 63) && s.flag Fld.HKA_CH.EN [c, n] && s.hkaLive c n

/-- The channel that converter `c` converts after channel `n` (R163): the next of the scan in ascending order, then its lowest. -/
def State.hkaNext (s : State) (c n : Nat) : Option Nat :=
  ((List.range 63).find? (fun i => decide (n < i) && s.hkaScanned c i)).orElse (fun _ => (List.range 63).find? (s.hkaScanned c ·))

/-- The next channel's first conversion starts: its VALID clears (R164). -/
def State.hkaStart (s : State) (c n : Nat) : State :=
  match s.hkaNext c n with
  | some i => s.set Fld.HKA_VAL.VALID [c, i] 0
  | none => s

/-- HKA_RESULT (R163 to R165): channel `n` of converter `c`, which is the next of its scan, completes its 2^AVG_LOG2 conversions with their 12-bit codes; the scan goes on
with the channel after it. -/
def execHkaResult (c n : Nat) (codes : List Nat) (s : State) : Host.Outcome State Fault Refusal :=
  .next (if c < 2 ∧ n < 63 ∧ s.mode ≠ 0 ∧ bitOf (s.get Fld.HKA_CFG.EN) c ∧ s.flag Fld.HKA_CH.EN [c, n] then
      if ¬ s.hkaLive c n then s.set Fld.HKA_VAL.VALID [c, n] 0
      else if s.hkaNext c ((s.radio.hka.scan[c]?).getD 63) ≠ some n ∨ codes.length ≠ 2 ^ s.get Fld.HKA_CH.AVG_LOG2 [c, n]
          ∨ codes.any (fun x => decide (4096 ≤ x)) then s
      else
        let v := codes.sum / 2 ^ s.get Fld.HKA_CH.SHIFT [c, n] % 2 ^ 20
        let sus := b2n (bitOf (s.get Fld.HKA_CHK_STAT.SUSPECT) c)
        let s1 := (s.commit .HKA_VAL [c, n] (sus * 2 ^ 30 + v)).hkaUpd (fun x => { x with scan := x.scan.set c n })
        let s2 := if s.flag Fld.HKA_CH.QUEUE [c, n] then s1.hkaPush c n v else s1
        let g := hkaSource c n
        let s3 := if n < 16 then (if s2.active g then s2.calTemp g else s2)
          else if 56 ≤ n ∧ n ≤ 59 then
            s2.calUpd g (fun x => { x with treeLevel := updAt x.treeLevel (n % 2) (fun l => some (l.getD (s2.hkaCode256 c n))) })
          else s2
        s3.hkaStart c n
    else s)

/-- HKA_POP (R165): a read pops the oldest result. -/
def execHkaPop (rq : Req) (s : State) : Host.Outcome State Fault Refusal :=
  .next (readReg rq (Reg.addr .HKA_POP []) 4 readAny rdHka s)

/-- PLAUS_FAIL (R150, R166, R167): the cross-check of channel 63, due every CHK_PERIOD, with the normalised code of each converter; the quadrant temperatures follow what it says
of the converters. -/
def execPlausFail (code0 code1 : Nat) (s : State) : Host.Outcome State Fault Refusal :=
  .next (let per := s.get Fld.HKA_CFG.CHK_PERIOD
    if s.mode ≠ 0 ∧ per ≠ 0 ∧ s.get Fld.HKA_CFG.EN = 3 ∧ s.radio.hka.checkAt + per * 100000 ≤ s.now then
      let tol := s.get Fld.HKA_CFG.CHK_TOL
      let d : Int := (code1 : Int) - code0
      let fail := decide (tol < d.natAbs)
      let refSel := s.get Fld.HKA_CFG.CHK_SEL == 0
      let far := fun (x : Nat) => decide (tol < ((x : Int) - 2458).natAbs)
      let bad := fun (i : Nat) => if refSel then far (if i = 0 then code0 else code1) else fail
      let pass := fun (i : Nat) => if bad i || fail then 0 else min 15 (((s.radio.hka.passes[i]?).getD 0) + 1)
      let sus := fun (i : Nat) => bad i || (bitOf (s.get Fld.HKA_CHK_STAT.SUSPECT) i && decide (pass i < 4))
      let n := if fail then 0 else min 15 (s.get Fld.HKA_CHK_STAT.PASSES + 1)
      let s1 := (s.hkaUpd (fun x => { x with checkAt := s.now, passes := [pass 0, pass 1] })).commit .HKA_CHK_STAT []
        (b2n fail * 2 ^ 30 + (b2n (sus 0) + 2 * b2n (sus 1)) * 2 ^ 28 + n * 2 ^ 24 + unsigned 13 d)
      let s2 := if fail then ((s1.inc .HKA_CNT_PLAUS).raise (ev 7 10)).ashAdd 0x0C 0xE2 (leBytes 4 (s1.reg .HKA_CHK_STAT).toNat) else s1
      (List.range 4).foldl (fun t q => if t.active q then t.calTemp q else t) s2
    else s)

end Sys2Proof.Machine
end

