-- ==== Sys2Proof/Machine/Phy.lean ====
section
/-! DEFINITION. The WLAN baseband (R169 to R203): receivers, decoding, clear channel assessment, sounding, radar. -/
namespace Sys2Proof.Machine

/-! What a link may carry (R170 to R173, R185) -/

/-- A format that a band and bandwidth carry (R170): streams, guard interval, MCS, LDPC. Bands 0 2.4, 1 5, 2 6 GHz. -/
def formatOk (band fmt bw gi mcs nss : Nat) (ldpc : Bool) : Bool :=
  let n := fun (m : Nat) => decide (1 ≤ nss ∧ nss ≤ m)
  match fmt with
  | 0 => band == 0 && bw == 0 && nss == 1 && decide (mcs ≤ 3) && !ldpc
  | 1 => decide (bw ≤ 4) && nss == 1 && gi == 1 && decide (mcs ≤ 7) && !ldpc
  | 2 => decide (band ≤ 1 ∧ bw ≤ 1 ∧ mcs ≤ 31 ∧ gi ≤ 1) && n 4
  | 3 => band == 1 && decide (bw ≤ 3 ∧ mcs ≤ 9 ∧ gi ≤ 1) && n 8
  | 4 | 5 | 6 | 7 => decide ((bw ≤ 1 ∨ (bw ≤ 3 ∧ 1 ≤ band)) ∧ mcs ≤ 11 ∧ 1 ≤ gi ∧ gi ≤ 3) && n 8
  | 8 | 9 => decide ((bw ≤ 1 ∨ (bw ≤ 3 ∧ 1 ≤ band) ∨ (bw = 4 ∧ band = 2)) ∧ mcs ≤ 15 ∧ 1 ≤ gi ∧ gi ≤ 3) && n 16
  | _ => false

/-- Bit of PHY_CFG.FMT_EN for a format code. -/
def formatBit (fmt : Nat) : Nat := if fmt ≤ 3 then fmt else if fmt ≤ 7 then 4 else 5

/-- The BCC decoder serves a user (R185). -/
def bccOk (fmt : Nat) (u : PpduUser) : Bool := decide (fmt ≤ 3) || (decide (u.tones ≤ 242 ∧ u.nss ≤ 4 ∧ u.mcs ≤ 9))

/-- A received PPDU is supported (R171, R173). -/
def State.ppduOk (s : State) (l : Nat) (p : Ppdu) : Bool :=
  let paths := (s.linkPaths l).length
  bitOf (s.get Fld.PHY_CFG.FMT_EN [l]) (formatBit p.format) && decide (p.bw ≤ linkBw s.linkPlan l)
    && p.users.all (fun u => formatOk (linkBand s.linkPlan l) p.format p.bw p.gi u.mcs u.nss u.ldpc
      && (u.ldpc || bccOk p.format u)
      && decide (((p.users.filter (fun w => w.ru == u.ru)).map (·.nss)).sum ≤ min 16 paths))
    && decide (p.users.length ≤ 148) && (p.users.any (·.ldpc) || decide (p.bcc ≤ 1200))

/-- Preamble puncturing patterns of HE MU and EHT MU (R172), as subchannel masks (PRESUMED, notes/assumptions/41.md). -/
def punctOk (bw m : Nat) : Bool :=
  let one := (List.range (2 ^ bw)).any (fun i => m == 2 ^ i)
  let two := (List.range (2 ^ bw / 2)).any (fun i => m == 3 * 4 ^ i)
  let four := (List.range (2 ^ bw / 4)).any (fun i => m == 15 * 16 ^ i)
  let six := (List.range 4).any (fun i => (List.range 8).any (fun j => j / 2 != i && m == 15 * 16 ^ i + 3 * 4 ^ j))
  m == 0 || (bw == 2 && one) || (bw == 3 && (one || two)) || (bw == 4 && (two || four || six))

/-! Receivers (R174 to R183) -/

/-- Paths of a link that contribute to a reception that begins now (R84, R107, R153, R182): not fenced, locked, in no calibration window and no gap. -/
def State.phyPaths (s : State) (l : Nat) : List Nat := (s.linkPaths l).filter (s.rxLive ·)

/-- Subchannels of a mask that reception does not ignore (R172). -/
def State.phySubs (s : State) (l m : Nat) : Nat := Nat.land m (Nat.xor 0xFFFF (s.get Fld.PHY_PUNCT.MASK [l]))

/-- A preamble that is declared now. -/
def State.phyNew (s : State) (l : Nat) (rssi : Int) (dsss : Bool) (subs age : Nat) : PhyRx :=
  { num := s.bb.num, rssi := rssi, dsss := dsss, stamp := ((s.netTime - age) % 2 ^ 32).toNat, begun := s.now - age, seen := s.now,
    paths := s.phyPaths l, subs := s.phySubs l subs, restarted := false, captured := false, stage := if dsss then 9 else 0, rate := 0,
    length := 0, ends := none, fmt := 0, bw := 0, gi := 0, snr := 0, users := [], solicited := false }

/-- The receiver goes to PROVISIONAL on a preamble (R175). -/
def State.phyProv (s : State) (l : Nat) (x : PhyRx) : State :=
  (s.phyUpd l (fun p => { p with st := 1, rx := some x, cand := none })).bbUpd (fun b => { b with num := b.num + 1 })

/-- The link receives: its block runs, a path of it brings samples and it does not transmit (R84, R107, R153, R183). -/
def State.phyHears (s : State) (l : Nat) : Bool :=
  decide (l < 3) && s.active 4 && linkPresent s.linkPlan l && !(s.phyPaths l).isEmpty && !s.linkBound l

/-- The detecting records come into use in every quadrant of the route (R127, R130): the 17th TD beam is missing. -/
def State.phyBeams (s : State) (l : Nat) (beams : List Nat) : State :=
  match s.routeSlot (l + 1) 0 with
  | none => s
  | some n => (s.routeLive n).foldl (fun t q => t.beamsHear q n beams) s

/-- Of the search beams that the consumer has named, the active TD receive beams of the link's route (R130, R174): those whose record, resident in some slice of it, is a TD
record for receive. -/
def State.phySearch (s : State) (l : Nat) (beams : List Nat) : List Nat :=
  match s.routeSlot (l + 1) 0 with
  | none => []
  | some n => (beams.filter (fun i => (s.routeLive n).any (fun q => ((s.beamBytes q n i).filter (fun r => beamTd r && beamHears r)).isSome))).take 16

/-- The detector has samples to run on (R174): an active TD receive beam, else the lowest-numbered local path that holds the role in the lowest-numbered quadrant that
does. -/
def State.phyScans (s : State) (l : Nat) (beams : List Nat) : Bool :=
  !(s.phySearch l beams).isEmpty || (s.rolePaths (l + 1)).head?.any (s.rxLive ·)

/-- Digital calibration changes of the link's paths apply at a receive start (R145). -/
def State.phyCals (s : State) (l : Nat) : State := (s.linkPaths l).foldl (fun t g => t.calRxStart g) s

/-- A check of R176 fails: restart on the last preamble of the last 16 µs, else SEARCH (R177). -/
def State.phyFail (s : State) (l : Nat) : State :=
  let s1 := s.falseStart l
  match (s.phy l).cand with
  | some x => if s.now ≤ x.seen + 16000 then s1.phyProv l { x with restarted := true }
      else s1.phyUpd l (fun p => { p with st := 0, rx := none, cand := none })
  | none => s1.phyUpd l (fun p => { p with st := 0, rx := none, cand := none })

/-- RXTIME in ns from the first L-STF sample (PRESUMED, notes/assumptions/42.md). -/
def rxTime (rate length : Nat) : Nat := 20000 + 4000 * ceilDiv (8 * length + 22) (4 * max 1 rate)

/-- PSDU length of a user (R181). -/
def psduLen (x : PhyRx) (p : Ppdu) (u : PpduUser) : Nat :=
  match p.format with
  | 0 => x.length * x.rate / 80
  | 1 => x.length
  | 2 => u.size
  | _ => p.symbols * u.size / 8

/-- Codewords that wait in the LDPC queue (LDPC_STAT.LEVEL). -/
def State.ldpcLevel (s : State) : Nat := (s.bb.ldpcQ.map List.length).sum

/-- The next link whose codeword the pool takes (R186): weighted round robin over the links, each in order of arrival. Answers the link and what is left of its weight. -/
def State.ldpcTurn (s : State) : Nat → Nat → Nat → Option (Nat × Nat)
  | 0, _, _ => none
  | n + 1, t, c =>
    let w := fun (l : Nat) => max 1 (s.get ([Fld.LDPC_CFG.WGT_A, Fld.LDPC_CFG.WGT_B, Fld.LDPC_CFG.WGT_C][l]?.getD Fld.LDPC_CFG.WGT_A))
    if ((s.bb.ldpcQ[t]?).getD []).isEmpty ∨ c = 0 then s.ldpcTurn n ((t + 1) % 3) (w ((t + 1) % 3)) else some (t, c - 1)

/-- Decoder `d`, when it is free, takes the next codeword of the queue (R186). -/
def State.ldpcTake (s : State) (d : Nat) : State :=
  if ((s.bb.ldpcDec[d]?).getD none).isSome then s
  else match s.ldpcTurn 6 s.bb.turn s.bb.credit with
    | none => s
    | some (l, c) =>
      match (s.bb.ldpcQ[l]?).getD [] with
      | [] => s
      | w :: rest => s.bbUpd (fun b => { b with ldpcQ := b.ldpcQ.set l rest, turn := l, credit := c, ldpcDec := b.ldpcDec.set d (some (l, w.1, w.2)) })

/-- The free ones of the 32 decoders take codewords; the reduced cap and the armed drop event follow the level that is left (R186, R187). -/
def State.ldpcFill (s : State) : State :=
  let s1 := (List.range 32).foldl (fun t d => t.ldpcTake d) s
  let lvl := s1.ldpcLevel
  s1.bbUpd (fun b => { b with capped := (b.capped || decide (3072 ≤ lvl)) && decide (2048 ≤ lvl), ldpcArmed := b.ldpcArmed || decide (lvl < 2048) })

/-- Codewords enter the LDPC queue of 4,096, or are delivered marked in error (R187); answers how many entered. -/
def State.ldpcEnter (s : State) (l num u n : Nat) : Nat × State :=
  let k := min n (4096 - s.ldpcLevel + (s.bb.ldpcDec.filter (·.isNone)).length)
  let s1 := s.bbUpd (fun b => { b with ldpcQ := updAt b.ldpcQ l (· ++ List.replicate k (num, u)) })
  if k < n then
    let s2 := ((s1.incBy .LDPC_CNT_DROP [] (n - k)).bbUpd (fun b => { b with ldpcArmed := false })).ldpcFill
    (k, if s.bb.ldpcArmed then s2.raise (ev 4 6) else s2)
  else (k, s1.ldpcFill)

/-- Every applicable check has passed (R173, R176, R181): COMMITTED or ABSORB, the first codewords enter the pool. A TB PPDU whose users the last trigger named is one that the
access controller solicited (R180); the first PPDU that commits after a trigger uses it up (notes/assumptions/72.md). -/
def State.phyCommit (s : State) (l : Nat) (x : PhyRx) (p : Ppdu) : State :=
  let lim := s.get Fld.PHY_MAX_PSDU.LIMIT [l]
  let ok := s.ppduOk l p
  let us := p.users.filter (·.crc)
  let big := us.filter (fun u => decide (lim < psduLen x p u))
  let st : Nat := if ok && (us.isEmpty || big.length < us.length) then 2 else 3
  let s1 := ((s.inc .PHY_RX_PPDU [l]).incBy .PHY_HDR_FAIL [l] (p.users.length - us.length)).incBy .PHY_OVERSIZE [l]
    (if ok then big.length else 0)
  let s2 := if ok then s1 else s1.inc .PHY_UNSUPPORTED [l]
  let r := us.zipIdx.foldl (fun (e : List PhyUser × State) (u : PpduUser × Nat) =>
    let drop : Bool := decide (lim < psduLen x p u.1)
    let k := if st = 2 ∧ u.1.ldpc ∧ ¬ drop then e.2.ldpcEnter l x.num u.2 u.1.codewords else (u.1.codewords, e.2)
    let y : PhyUser := { sta := u.1.sta, ru := u.1.ru, mcs := u.1.mcs, nss := u.1.nss, ldpc := u.1.ldpc, stbc := u.1.stbc,
                         dcm := u.1.dcm, bytes := psduLen x p u.1, absorbed := drop,
                         left := if st = 2 ∧ u.1.ldpc ∧ ¬ drop then k.1 else 0, err := decide (k.1 < u.1.codewords), mark := u.1.mark, est := false }
    (e.1 ++ [y], k.2)) ([], s2)
  let sol := (p.format == 7 || p.format == 9) && !us.isEmpty && us.all (fun u => (s.phy l).trigger.contains (u.sta % 2048))
  r.2.phyUpd l (fun q => { q with st := st, cand := none, trigger := [], rx := some { x with
    fmt := p.format, bw := p.bw, gi := p.gi, snr := p.snr, users := r.1, solicited := sol } })

/-- Chip decisions of a DSSS reception (R188): by the decision-feedback equaliser, or by the chip-matched filter alone. -/
def State.dsssChips (s : State) (l : Nat) (xs : List Cx) : List Cx :=
  if s.flag Fld.PHY_DSSS_CFG.DFE_EN [l] then Config.dsssDfe (s.get Fld.PHY_DSSS_CFG.MU_FF [l]) (s.get Fld.PHY_DSSS_CFG.MU_FB [l]) xs else Config.dsssMatched xs

/-- A signal field is checked (R176). `stage`: 0 L-SIG, 1 what follows it, 2 SIG-A, 3 the common field of SIG-B, 9 PLCP. -/
def State.phyField (s : State) (l : Nat) (x : PhyRx) (f : SigField) (p : Ppdu) : State :=
  let go := fun (y : PhyRx) => s.phyUpd l (fun q => { q with rx := some y })
  let he := fun (n : Nat) => decide (4 ≤ n ∧ n ≤ 7)
  match x.stage, f with
  | 0, .lsig even rate length tail =>
    if even && rate != 0 && decide (1 ≤ length) && tail then
      let y := { x with rate := rate, length := length, ends := some (x.begun + rxTime rate length), stage := 1 }
      if p.format = 1 then s.phyCommit l y p else go y
    else s.phyFail l
  | 1, .rlsig =>
    if x.rate = 6 ∧ ((he p.format ∧ x.length % 3 ≠ 0) ∨ ((p.format = 8 ∨ p.format = 9) ∧ x.length % 3 = 0)) then go { x with stage := 2 }
    else s.phyFail l
  | 1, .htSig crc => if crc then s.phyCommit l x { p with format := 2 } else s.phyFail l
  | 1, .vhtSig crc => if crc then s.phyCommit l x { p with format := 3 } else s.phyFail l
  | 2, .sigA crc =>
    if crc then (if p.format = 6 ∨ p.format = 8 then go { x with stage := 3 } else s.phyCommit l x p) else s.phyFail l
  | 3, .sigB crc => if crc then s.phyCommit l x p else s.phyFail l
  | 9, .plcp long xs =>
    let h := Config.plcpHeader (s.dsssChips l xs)
    let sig := h.1
    let length := h.2.1
    let crc := h.2.2
    if (sig = 0x0A ∨ sig = 0x14 ∨ sig = 0x37 ∨ sig = 0x6E) ∧ crc then
      s.phyCommit l { x with rate := sig, length := length, ends := some (x.begun + (if long then 192000 else 96000) + 1000 * length) }
        { p with format := 0 }
    else s.phyFail l
  | _, _ => s

/-- The status record of a user (R184). -/
def rxRecord (l : Nat) (x : PhyRx) (u : PhyUser) : Bytes :=
  let tb := x.fmt = 7 ∨ x.fmt = 9
  leBytes 4 x.stamp ++ [b8 x.fmt, b8 (x.bw + 8 * x.gi + 32 * b2n u.ldpc + 64 * b2n u.stbc + 128 * b2n u.dcm), b8 u.mcs, b8 u.nss]
    ++ leBytes 2 (unsigned 16 x.rssi) ++ [b8 x.snr, b8 (b2n x.restarted + 2 * b2n x.captured + 4 * b2n u.err + 8 * b2n u.est)]
    ++ leBytes 2 ((if tb then u.sta % 4096 else 0xFFF) + l * 4096) ++ leBytes 2 (if tb then u.ru % 1024 else 0xFFFF)

/-- A PPDU's PSDUs go to the access controller, each with its status record (R175, R184). -/
def State.phyDeliver (s : State) (l : Nat) (x : PhyRx) : State :=
  s.phyUpd l (fun p => { p with delivered := p.delivered ++ (x.users.filter (fun u => !u.absorbed)).map (rxRecord l x) })

/-- The PPDU has codewords in the pool still. -/
def PhyRx.pendingCw (x : PhyRx) : Bool := x.users.any (fun u => u.left != 0)

/-- User `i` of a PPDU updated. -/
def PhyRx.user (x : PhyRx) (i : Nat) (f : PhyUser → PhyUser) : PhyRx := { x with users := updAt x.users i f }

/-- A codeword of a PPDU leaves the pool. -/
def cwDone (num u : Nat) (err : Bool) (x : PhyRx) : PhyRx :=
  if x.num = num then x.user u (fun y => { y with left := y.left - 1, err := y.err || err }) else x

/-! Sounding (R194 to R197) -/

/-- An estimate is dropped (R196). -/
def State.sndDropped (s : State) : State :=
  let s1 := (s.inc .SND_CNT_DROP).bbUpd (fun x => { x with sndArmed := false })
  if s.bb.sndArmed then s1.raise (ev 4 5) else s1

/-- An estimate is written into a free slot and its descriptor pushed, or it is dropped (R195, R196). -/
def State.sndWrite (s : State) (l sta kind : Nat) (b : Bytes) : Bool × State :=
  let slots := s.get Fld.SND_RING_SIZE.SLOTS
  let size := 1024 * max 1 (s.get Fld.SND_RING_SIZE.SLOT_KIB)
  if slots = 0 then (false, s)
  else match firstBelow slots (fun i => !s.bb.sndUsed.contains i) with
    | some i =>
      if b.length ≤ size ∧ s.bb.sndQ.length < 256 then
        let s1 := (s.memWrite (.engine 4 5) (64 * (s.reg .SND_RING_BASE).toNat + size * i) b).2
        let s2 := s1.bbUpd (fun x => { x with sndUsed := i :: x.sndUsed,
                                              sndQ := x.sndQ ++ [w32 (sta % 4096 * 2 ^ 19 + l * 2 ^ 17 + kind * 2 ^ 16 + i)] })
        (true, if s.bb.sndQ.isEmpty then s2.raise (ev 4 4) else s2)
      else (false, s.sndDropped)
    | none => (false, s.sndDropped)

/-- An estimate slot (R195). -/
def sndBytes (stamp staField kind glog : Nat) (first : Int) (groups nsts nc exp snr paths : Nat) (values : Bytes) : Bytes :=
  leBytes 4 stamp ++ leBytes 2 staField ++ [b8 kind, b8 glog] ++ leBytes 2 (unsigned 16 first) ++ leBytes 2 groups
    ++ [b8 nsts, b8 nc, b8 exp, b8 snr] ++ leBytes 8 paths ++ List.replicate 40 0 ++ values

/-! Radar (R198 to R200) -/

/-- The pulses of a pattern, newest first: each fits, each interval fits (R199). -/
def pulsesFit (wmin wmax pmin pmax : Nat) (chirp : Bool) : Nat → List DfsPulse → Bool
  | 0, _ => true
  | _ + 1, [] => false
  | n + 1, a :: t =>
    decide (wmin ≤ a.width ∧ a.width ≤ wmax) && (!chirp || a.chirp)
      && (n == 0 || (match t with
        | [] => false
        | b :: _ => [1, 2, 3].any (fun k => decide (k * pmin * 1000 ≤ a.at_ - b.at_ ∧ a.at_ - b.at_ ≤ k * pmax * 1000))))
      && pulsesFit wmin wmax pmin pmax chirp n t

/-- The pattern of a link that the pulses of a subchannel match (R199). -/
def State.dfsMatch (s : State) (l : Nat) (ps : List DfsPulse) : Option Nat :=
  firstBelow 8 (fun n => s.flag Fld.PHY_DFS_PAT_W0.EN [l, n] && s.get Fld.PHY_DFS_PAT_W0.N_MIN [l, n] != 0
    && pulsesFit (s.get Fld.PHY_DFS_PAT_W0.W_MIN [l, n]) (s.get Fld.PHY_DFS_PAT_W0.W_MAX [l, n])
      (s.get Fld.PHY_DFS_PAT_W1.PRI_MIN [l, n]) (s.get Fld.PHY_DFS_PAT_W1.PRI_MAX [l, n])
      (s.flag Fld.PHY_DFS_PAT_W0.CHIRP_REQ [l, n]) (s.get Fld.PHY_DFS_PAT_W0.N_MIN [l, n]) ps)

/-- A match (R199): the channel is UNAVAILABLE for NOP. -/
def State.dfsHit (s : State) (l i pat : Nat) : State :=
  let s1 := (s.setDfs l i 3).phyUpd l (fun p => { p with
    nopEnds := p.nopEnds.set i (s.now + s.get Fld.PHY_DFS_CFG.NOP [l] * 60000000000) })
  (s1.raise (ev 4 3)).ashAdd 0x0D (32 * 4 + l + 1) [b8 l, b8 i, b8 pat]

/-! Registers of chapter 6 -/

/-- Values and conditions that the baseband's registers let through. -/
def okPhy (r : Reg) (ix : List Nat) (v : Word) (_ : Req) (s : State) : Bool :=
  match r, ix with
  | .PHY_MAX_PSDU, _ => decide (4095 ≤ wbits v 23 0 ∧ wbits v 23 0 ≤ 15523200)
  | .PHY_PUNCT, [l] => !bitOf v.toNat (s.primSub l) && punctOk (linkBw s.linkPlan l) (wbits v 15 0)
  | .PHY_CCA_CFG, _ => decide (signed 8 (wbits v 23 16) ≤ -62 ∧ -95 ≤ signed 8 (wbits v 7 0) ∧ signed 8 (wbits v 7 0) ≤ -62)
  | .SND_CFG, _ => decide (wbits v 10 8 ≤ 4)
  | .LDPC_CFG, _ => decide (1 ≤ wbits v 12 8 ∧ wbits v 12 8 ≤ 16 ∧ 1 ≤ wbits v 4 0 ∧ wbits v 4 0 ≤ wbits v 12 8)
  | .PHY_DFS_CFG, _ => decide (30 ≤ wbits v 23 16 ∧ 6 ≤ wbits v 15 8)
  | .PHY_DFS_CTL, _ => wbits v 31 28 == 1
  | _, _ => true

/-- Performed writes of the baseband's registers. -/
def wrPhy (r : Reg) (ix : List Nat) (v : Word) (rq : Req) (s : State) : State :=
  match r, ix with
  | .SND_SLOT_FREE, _ => s.bbUpd (fun b => { b with sndUsed := b.sndUsed.filter (· != wbits v 9 0) })
  | .PHY_CCA_CFG, [l] | .PHY_PUNCT, [l] => s.phyDo l (storeWord r ix v rq)
  | .PHY_DFS_CFG, [l] => let s1 := storeWord r ix v rq s
    if wbits v 30 30 = 0 then s1.dfsStop l else s1
  | .PHY_DFS_CTL, [l] =>
    (maskList (wbits v 15 0) 16).foldl (fun t i =>
      if t.dfsState l i = 0 ∧ t.dfsCovers l i ∧ t.flag Fld.PHY_DFS_CFG.EN [l] then
        (t.setDfs l i 1).phyUpd l (fun p => { p with cacAt := p.cacAt.set i t.now })
      else t) s
  | _, _ => storeWord r ix v rq s

/-- Performed reads of the baseband's registers. -/
def rdPhy (r : Reg) (ix : List Nat) (rq : Req) (s : State) : Word × State :=
  match r, ix with
  | .PHY_LINK_STAT, [l] => (s.linkStat l, s)
  | .PHY_CCA_STAT, [l] => loadWord r ix rq (s.phyDo l id)
  | .LDPC_STAT, _ =>
    (w32 (s.ldpcLevel * 2 ^ 16 + (if s.bb.capped then s.get Fld.LDPC_CFG.ITER_MIN else s.get Fld.LDPC_CFG.ITER_MAX)), s)
  | .SND_EST_POP, _ =>
    match s.bb.sndQ with
    | [] => (0xFFF80000, s)
    | w :: t => (w, s.bbUpd (fun b => { b with sndQ := t, sndArmed := b.sndArmed || t.isEmpty }))
  | .PHY_DFS_POP, [l] =>
    match (s.phy l).dfsQ with
    | [] => (0xBC000000, s)
    | e :: t => (e.1, (s.phyUpd l (fun p => { p with dfsQ := t })).setReg .PHY_DFS_STAMP [l] (w32 e.2))
  | _, _ => loadWord r ix rq s

/-! The rows -/

/-- PREAMBLE_DETECT (R172, R174, R175): in SEARCH a preamble at or above PD_LVL starts a reception; in PROVISIONAL the restart detector
keeps it. `beams` are the search beams that the consumer has named on the link's route; a preamble on punctured subchannels alone is ignored. -/
def execPreambleDetect (l : Nat) (rssi : Int) (dsss : Bool) (subs age : Nat) (beams : List Nat) (s : State) :
    Host.Outcome State Fault Refusal :=
  .next (if s.phyHears l ∧ s.lvl Fld.PHY_CCA_CFG.PD_LVL l ≤ rssi ∧ (dsss → linkBand s.linkPlan l = 0)
      ∧ s.phyScans l beams ∧ s.phySubs l subs ≠ 0 then
      s.phyDo l (fun t =>
        let x := t.phyNew l rssi dsss subs age
        if (t.phy l).st = 0 then ((t.phyProv l x).phyBeams l beams).phyCals l
        else if (t.phy l).st = 1 then
          (t.phyUpd l (fun p => { p with cand := some x })).bbUpd (fun b => { b with num := b.num + 1 })
        else t)
    else s)

/-- SIGNAL_FIELD (R176): the next field of a PPDU in PROVISIONAL is checked. -/
def execSignalField (l : Nat) (f : SigField) (p : Ppdu) (s : State) : Host.Outcome State Fault Refusal :=
  .next (match (s.phy l).st, (s.phy l).rx with
    | 1, some x => if s.phyHears l then s.phyDo l (fun t => t.phyField l x f p) else s
    | _, _ => s)

/-- RESTART (R177): in PROVISIONAL, a preamble RESTART_MARGIN above the current RSSI restarts the receiver. -/
def execPhyRestart (l : Nat) (rssi : Int) (dsss : Bool) (subs age : Nat) (s : State) : Host.Outcome State Fault Refusal :=
  .next (match (s.phy l).st, (s.phy l).rx with
    | 1, some x =>
      if s.phyHears l ∧ x.rssi + s.get Fld.PHY_CFG.RESTART_MARGIN [l] ≤ rssi then
        s.phyDo l (fun t => (t.falseStart l).phyProv l { t.phyNew l rssi dsss subs age with restarted := true, captured := x.captured })
      else s
    | _, _ => s)

/-- CAPTURE (R179, R180): a preamble CAPTURE_MARGIN above a reception takes the receiver over, unless the access controller
solicited the reception. -/
def execPhyCapture (l : Nat) (rssi : Int) (dsss : Bool) (subs age : Nat) (s : State) : Host.Outcome State Fault Refusal :=
  .next (match (s.phy l).rx with
    | some x =>
      if s.phyHears l ∧ 2 ≤ (s.phy l).st ∧ s.flag Fld.PHY_CFG.CAPTURE_EN [l] ∧ ¬ x.solicited
          ∧ x.rssi + s.get Fld.PHY_CFG.CAPTURE_MARGIN [l] ≤ rssi then
        s.phyDo l (fun t => ((t.phyUpd l (fun p => p.hold x)).inc .PHY_CAPTURE_LOST [l]).phyProv l
          { t.phyNew l rssi dsss subs age with captured := true })
      else s
    | none => s)

/-- PPDU_END (R175): at the computed end a committed PPDU is delivered, once its codewords are decoded. -/
def execPpduEnd (l : Nat) (s : State) : Host.Outcome State Fault Refusal :=
  .next (match (s.phy l).rx with
    | some x =>
      if 2 ≤ (s.phy l).st ∧ x.ends.any (· ≤ s.now) then
        s.phyDo l (fun t =>
          let t1 := t.phyUpd l (fun p => { p with st := 0, rx := none, cand := none,
                                                  draining := if (s.phy l).st = 2 ∧ x.pendingCw then p.draining ++ [x] else p.draining })
          if (s.phy l).st = 2 ∧ ¬ x.pendingCw then t1.phyDeliver l x else t1)
      else s
    | none => s)

/-- FALSE_START_HOLD_END (R178): the primary's power has stayed below PD_LVL for 4 µs. -/
def execFalseStartHoldEnd (l below : Nat) (s : State) : Host.Outcome State Fault Refusal :=
  .next (if (s.phy l).falseHold ∧ 4000 ≤ below then s.phyDo l (fun t => t.phyUpd l (fun p => { p with falseHold := false })) else s)

/-- CCA_STUCK (R190): the primary has been busy without a break for CCA_STUCK. -/
def execCcaStuck (l : Nat) (s : State) : Host.Outcome State Fault Refusal :=
  .next (let t := s.phyDo l id
    let lim := t.get Fld.PHY_CCA_CFG.CCA_STUCK [l]
    match (t.phy l).busyFrom with
    | some b => if l < 3 ∧ t.active 4 ∧ lim ≠ 0 ∧ b + lim * 10000000 ≤ t.now ∧ ¬ t.flag Fld.PHY_CCA_STAT.STUCK [l] then
        (t.set Fld.PHY_CCA_STAT.STUCK [l] 1).raise (ev 4 2)
      else s
    | none => s)

/-- ENERGY_DETECT (R189): the power on subchannel `sub` is compared with ED_LVL, or a guard-interval signal on a secondary with
SEC_LVL. -/
def execEnergyDetect (l sub : Nat) (dbm : Int) (gi : Bool) (s : State) : Host.Outcome State Fault Refusal :=
  .next (if l < 3 ∧ s.active 4 ∧ sub < 2 ^ linkBw s.linkPlan l then
      s.phyDo l (fun t =>
        let set := fun (on : Bool) (m : Nat) => if on then maskSet m sub else maskClr m sub
        if gi then t.phyUpd l (fun p => { p with
          sec := set (sub != s.primSub l && decide (signed 8 (t.get Fld.PHY_CCA_CFG.SEC_LVL [l]) ≤ dbm)) p.sec })
        else t.phyUpd l (fun p => { p with ed := set (decide (signed 8 (t.get Fld.PHY_CCA_CFG.ED_LVL [l]) ≤ dbm)) p.ed }))
    else s)

/-- CODEWORD_DECODED (R186, R187): codewords arrive, and decoder `d` ends its codeword, at a zero syndrome or at the cap. -/
def execCodewordDecoded (d : Nat) (zero : Bool) (arrivals : List (Nat × Nat)) (s : State) : Host.Outcome State Fault Refusal :=
  .next (if s.active 4 then
      let s0 := arrivals.foldl (fun t e =>
        match (t.phy e.1).st, (t.phy e.1).rx with
        | 2, some x =>
          let k := t.ldpcEnter e.1 x.num e.2 1
          k.2.phyUpd e.1 (fun p => { p with rx := some (x.user e.2 (fun y => { y with left := y.left + k.1, err := y.err || k.1 == 0 })) })
        | _, _ => t) s
      match (s0.bb.ldpcDec[d]?).getD none with
      | none => s0
      | some (l, num, u) =>
        let s1 := (s0.bbUpd (fun b => { b with ldpcDec := b.ldpcDec.set d none })).ldpcFill
        let s2 := if zero then s1 else s1.inc .LDPC_CNT_FAIL
        let s3 := s2.phyUpd l (fun p => { p with rx := p.rx.map (cwDone num u (!zero)), draining := p.draining.map (cwDone num u (!zero)) })
        ((s3.phy l).draining.filter (fun x => !x.pendingCw)).foldl (fun t x => t.phyDeliver l x)
          (s3.phyUpd l (fun p => { p with draining := p.draining.filter (·.pendingCw) }))
    else s)

/-- Means over groups of `n` tones, value by value (R194, R195): the words of `k` values for each group. -/
def sndGroups (n k : Nat) (tones : List (List Cx)) : Bytes :=
  ((List.range (ceilDiv tones.length n)).map (fun i =>
    let g := (tones.drop (n * i)).take n
    ((List.range k).map (fun j => leBytes 4 (cxWord (cxDiv (cxSum (g.map (fun t => (t[j]?).getD (0, 0)))) g.length)).toNat)).flatten)).flatten

/-- CHANNEL_ESTIMATE (R194, R195): the estimate of user `u` of the PPDU of link `l` that the access controller marked; `tones` gives, tone by tone from `first` on, the
channel of each stream on each path that contributed, in units of 2^(EXP - 14). -/
def execChannelEstimate (l u : Nat) (first : Int) (exp snr : Nat) (tones : List (List Cx)) (s : State) : Host.Outcome State Fault Refusal :=
  .next (match (s.phy l).rx with
    | some x =>
      match x.users[u]? with
      | some y =>
        if s.active 4 ∧ 2 ≤ (s.phy l).st ∧ s.flag Fld.SND_CFG.EN_UL ∧ y.mark then
          let tb := decide (x.fmt = 7 ∨ x.fmt = 9)
          let sta := if tb then y.sta % 4096 else 0xFFF
          let n := 2 ^ s.get Fld.SND_CFG.GROUP_LOG2
          let b := sndBytes x.stamp (sta + l * 4096) 0 (s.get Fld.SND_CFG.GROUP_LOG2) first (ceilDiv tones.length n) y.nss 0 exp snr (maskOf x.paths)
            (sndGroups n (y.nss * x.paths.length) tones)
          let r := s.sndWrite l sta 0 b
          if r.1 then r.2.phyUpd l (fun p => { p with rx := some (x.user u (fun z => { z with est := true })) }) else r.2
        else s
      | none => s
    | none => s)

/-- SND_EST_POP (R196): a read pops the oldest estimate descriptor. -/
def execSndEstPop (rq : Req) (s : State) : Host.Outcome State Fault Refusal :=
  .next (readReg rq (Reg.addr .SND_EST_POP []) 4 readAny rdPhy s)

/-- SND_SLOT_FREE (R196): a write releases a slot. -/
def execSndSlotFree (rq : Req) (v : Word) (s : State) : Host.Outcome State Fault Refusal :=
  .next (writeReg rq (Reg.addr .SND_SLOT_FREE []) 4 v okPhy wrPhy s)

/-- Sine of `n` / `d` of a turn times 2^30. -/
def sinTurn (n : Int) (d : Nat) : Int := Config.cosTurn (4 * n - d) (4 * d)

/-- Rows `i` and `j` of a matrix turned into each other by the transpose of a Givens rotation with cosine `c` and sine `t` (in 2^-30). -/
def givensTurn (c t : Int) (i j : Nat) (m : List (List Cx)) : List (List Cx) :=
  let a := (m[i]?).getD []
  let b := (m[j]?).getD []
  (m.set i (List.zipWith (fun x y => cxDiv (cxAdd (cxTimes c x) (cxTimes (-t) y)) (2 ^ 30)) a b)).set j
    (List.zipWith (fun x y => cxDiv (cxAdd (cxTimes t x) (cxTimes c y)) (2 ^ 30)) a b)

/-- A row of a matrix times e^(jφ). -/
def givensPhase (c t : Int) (i : Nat) (m : List (List Cx)) : List (List Cx) :=
  m.set i (((m[i]?).getD []).map (fun x => cxDiv (cxMul (c, t) x) (2 ^ 30)))

/-- V of a compressed beamforming report for one tone group (R197): `nr` ports, `nc` columns, entries in 2^-30, from the angles in report order with `bphi` and `bpsi` bits
each (the order and the quantisation of IEEE 802.11: PRESUMED, notes/assumptions/73.md). -/
def givensV (nr nc bphi bpsi : Nat) (angles : List Nat) : List (List Cx) :=
  let k := min nc (nr - 1)
  let off := fun (i : Nat) => ((List.range i).map (fun j => 2 * (nr - 1 - j))).sum
  let at_ := fun (i : Nat) => ((angles[i]?).getD 0 : Int)
  let one := (List.range nr).map (fun r => (List.range nc).map (fun c => if r = c then ((2 ^ 30, 0) : Cx) else (0, 0)))
  (List.range k).reverse.foldl (fun m i =>
    let n := nr - 1 - i
    let m1 := (List.range n).reverse.foldl (fun x j =>
      let a := 2 * at_ (off i + n + j) + 1
      givensTurn (Config.cosTurn a (2 ^ (bpsi + 3))) (sinTurn a (2 ^ (bpsi + 3))) i (i + 1 + j) x) m
    (List.range n).foldl (fun x j =>
      let a := 2 * at_ (off i + j) + 1
      givensPhase (Config.cosTurn a (2 ^ (bphi + 1))) (sinTurn a (2 ^ (bphi + 1))) (i + j) x) m1) one

/-- BEAMFORMING_REPORT (R197): SND reconstructs V from the Givens angles of a compressed beamforming report, with the report's grouping and codebook, and writes it as a
KIND 1 estimate of `nr` ports and `nc` columns; ports within each column (DEDUCED, notes/assumptions/73.md). -/
def execBeamformingReport (l sta stamp : Nat) (first : Int) (glog nr nc bphi bpsi snr : Nat) (angles : List (List Nat)) (s : State) :
    Host.Outcome State Fault Refusal :=
  .next (if l < 3 ∧ s.active 4 then
      let values := (angles.map (fun a =>
        let v := givensV nr nc bphi bpsi a
        ((List.range nc).map (fun c => (v.map (fun row => leBytes 4 (cxWord (cxDiv ((row[c]?).getD (0, 0)) (2 ^ 16))).toNat)).flatten)).flatten)).flatten
      (s.sndWrite l sta 1 (sndBytes stamp (sta % 4096 + l * 4096) 1 glog first angles.length nr nc 0 snr 0 values)).2
    else s)

/-- RADAR_PULSE (R198, R199): a pulse at or above THR on a DFS subchannel of the carrier is queued and matched. -/
def execRadarPulse (l sub : Nat) (dbm : Int) (width age : Nat) (chirp : Bool) (s : State) : Host.Outcome State Fault Refusal :=
  .next (match dfsIndex (s.subKhz l sub) with
    | some i =>
      if s.phyHears l ∧ sub < 2 ^ linkBw s.linkPlan l ∧ s.flag Fld.PHY_DFS_CFG.EN [l]
          ∧ signed 8 (s.get Fld.PHY_DFS_CFG.THR [l]) ≤ dbm then
        let w := w32 (i * 2 ^ 26 + b2n chirp * 2 ^ 20 + unsigned 8 dbm * 2 ^ 12 + width % 4096)
        let s1 := if (s.phy l).dfsQ.length < 256 then
            s.phyUpd l (fun p => { p with dfsQ := p.dfsQ ++ [(w, ((s.netTime - age) % 2 ^ 32).toNat)] })
          else s.inc .PHY_DFS_QDROP [l]
        let ps := ⟨sub, s.now - age, width, chirp⟩ :: ((s.phy l).pulses.filter (fun e => e.sub == sub)).take 62
        let s2 := s1.phyUpd l (fun p => { p with pulses := ps ++ p.pulses.filter (fun e => e.sub != sub) })
        match s2.dfsMatch l ps with
        | some n => s2.dfsHit l i n
        | none => s2
      else s
    | none => s)

/-- CAC_START (R200): a write of PHY_DFS_CTL with OP CAC_START. -/
def execCacStart (rq : Req) (l : Nat) (v : Word) (s : State) : Host.Outcome State Fault Refusal :=
  .next (writeReg rq (Reg.addr .PHY_DFS_CTL [l]) 4 (wset v 31 28 1) okPhy wrPhy s)

/-- CAC_EXPIRY (R200): CAC_S has passed without a match: AVAILABLE. -/
def execCacExpiry (l i : Nat) (s : State) : Host.Outcome State Fault Refusal :=
  .next (if l < 3 ∧ i < 16 ∧ s.active 4 ∧ s.dfsState l i = 1
      ∧ (((s.phy l).cacAt[i]?).getD 0) + s.get Fld.PHY_DFS_CFG.CAC_S [l] * 10000000000 ≤ s.now then s.setDfs l i 2 else s)

/-- NOP_EXPIRY (R200): NOP has passed: UNCHECKED. -/
def execNopExpiry (l i : Nat) (s : State) : Host.Outcome State Fault Refusal :=
  .next (if l < 3 ∧ i < 16 ∧ s.active 4 ∧ s.dfsState l i = 3 ∧ (((s.phy l).nopEnds[i]?).getD 0) ≤ s.now then s.setDfs l i 0 else s)

/-- DFS_MAP_SAVE (R201): a minute after the last write, MRAM takes the map. -/
def execDfsMapSave (s : State) : Host.Outcome State Fault Refusal :=
  .next (if s.active 4 ∧ s.bb.dfsSavedAt + 60000000000 ≤ s.now then s.dfsSave else s)

/-- PHY_DFS_POP (R198): a read pops the oldest pulse report. -/
def execPhyDfsPop (rq : Req) (l : Nat) (s : State) : Host.Outcome State Fault Refusal :=
  .next (readReg rq (Reg.addr .PHY_DFS_POP [l]) 4 readAny rdPhy s)

end Sys2Proof.Machine
end

