-- ==== Sys2Proof/Machine/WacTbl.lean ====
section
/-! DEFINITION. The access controller's tables (R208 to R223), its frames' completions and the rings to software
(R230 to R236). -/
namespace Sys2Proof.Machine

/-! Tables -/

/-- LINKS, WEIGHT, RATE, beam, TWT_IDX, DEFICIT, UL_BUF and flags of a station (R210). -/
def State.staLinks (s : State) (sid : Nat) : Nat := s.wfld 0 sid 7 1 % 8
@[inherit_doc State.staLinks] def State.staFlag (s : State) (sid i : Nat) : Bool := bitOf (s.wfld 0 sid 0 2) i
@[inherit_doc State.staLinks] def State.staRate (s : State) (sid l : Nat) : Nat := s.wfld 0 sid (0x34 + 4 * l) 4
@[inherit_doc State.staLinks] def State.staTwt (s : State) (sid : Nat) : Nat := s.wfld 0 sid 0x46 2
@[inherit_doc State.staLinks] def State.staDeficit (s : State) (sid : Nat) : Int := signed 32 (s.wfld 0 sid 0x50 4)
@[inherit_doc State.staLinks] def State.staUl (s : State) (sid : Nat) : Nat := s.wfld 0 sid 0x4C 4
@[inherit_doc State.staLinks] def State.staGuard (s : State) (sid : Nat) : Nat := s.wfld 0 sid 0x48 2

/-- Beam ID of a station on a link: its own, or the BSS's (R209, R210). -/
def State.staBeam (s : State) (sid l : Nat) : Nat :=
  let b := s.wfld 0 sid (0x40 + 2 * l) 2
  if b = 0xFFFF then s.wfld 5 (16 * l + s.wfld 0 sid (0x22 + l) 1 % 16) 0x16 2 else b

/-- A RATE field can be carried by a link (R169, R170): the part never transmits HE ER SU, HE TB or EHT TB. -/
def State.rateOk (s : State) (l rate nss : Nat) : Bool :=
  let f := bits rate 7 0
  f != 5 && f != 7 && f != 9 && decide (bits rate 26 24 ≤ linkBw s.linkPlan l)
    && formatOk (linkBand s.linkPlan l) f (bits rate 26 24) (bits rate 28 27) (bits rate 15 8) nss (bitOf rate 29)

/-- The first failing window word of a check list (condition, word). -/
def firstBad (l : List (Bool × Nat)) : Option Nat :=
  match l.filter (fun e => !e.1) with
  | [] => none
  | e :: es => some (es.foldl (fun m x => min m x.2) e.2)

/-- The `n` bytes of an entry from `o` on are zero, each checked in its word. -/
def zerosAt (b : Bytes) (o n : Nat) : List (Bool × Nat) := (List.range n).map (fun k => ((b[o + k]?).getD 0 == 0, (o + k) / 4))

/-- Streams of a rate clamped to PHY_LINK_STAT.PATHS and to the limit of R171 (R211): the rate that results and its streams; none where the link cannot carry it. -/
def State.rateFor (s : State) (l rate : Nat) : Option (Nat × Nat) :=
  let n := min (bits rate 20 16) (min 16 (s.linkPaths l).length)
  if s.rateOk l rate n then some (setBits rate 20 16 n, n) else none

/-- The checks of a BSS entry (R204, R209). -/
def State.checkBss (s : State) (i : Nat) (b : Bytes) : List (Bool × Nat) :=
  let f := fun o n => leAt b o n
  let first := i % 16 == 0
  [(decide (f 0 1 < 2) && (first || !wacValid 5 b || s.wvalid 5 (i / 16 * 16)), 0), (first || f 8 4 == 0, 2),
    (!first || decide (24 ≤ f 12 2 ∧ f 12 2 ≤ 4096), 3), (decide (f 20 1 ≤ 4 ∧ f 21 1 ≤ 4), 5)] ++ zerosAt b 1 1 ++ zerosAt b 0x1E 34

/-- The checks of a station entry (R210). -/
def State.checkSta (s : State) (i : Nat) (b : Bytes) : List (Bool × Nat) :=
  let f := fun o n => leAt b o n
  let links := f 7 1
  let on := fun (l : Nat) => bitOf links l
  let aid := f 2 2
  [(decide (f 0 2 < 256 ∧ 16 ≤ aid ∧ aid ≤ 2006)
      && (s.wvalids 0).all (fun j => j == i || s.wfld 0 j 2 2 % 2048 != aid || Nat.land (s.staLinks j) links == 0), 0),
    (decide (f 4 2 < 16384 ∧ 1 ≤ links ∧ links < 8) && (bitOf (f 0 2) 1 || links == 1 || links == 2 || links == 4), 1),
    (decide (f 0x28 4 < 2 ^ 24) && (List.range 8).all (fun t => Nat.land (f 0x28 4 / 8 ^ t % 8) (7 - links % 8) == 0), 10),
    (decide (f 0x30 1 ≤ 4 ∧ f 0x31 1 ≤ 1), 12),
    (!on 0 || s.rateOk 0 (f 0x34 4) (f 0x36 1 % 32), 13), (!on 1 || s.rateOk 1 (f 0x38 4) (f 0x3A 1 % 32), 14),
    (!on 2 || s.rateOk 2 (f 0x3C 4) (f 0x3E 1 % 32), 15)]
    ++ (List.range 3).map (fun l => (!on l || (decide (f (0x22 + l) 1 < 16) && s.wvalid 5 (16 * l + f (0x22 + l) 1)), (0x22 + l) / 4))
    ++ (if bitOf (f 0 2) 1 then [] else zerosAt b 8 6) ++ zerosAt b 14 2 ++ zerosAt b 0x25 3 ++ zerosAt b 0x32 2 ++ zerosAt b 0x4B 1 ++ zerosAt b 0x54 44

/-- The checks of a block-acknowledgement entry of table `t` (R223). -/
def State.checkBa (s : State) (t i : Nat) (b : Bytes) : List (Bool × Nat) :=
  let f := fun o n => leAt b o n
  let sid := f 0 2 % 2048
  [(f 0 2 / 2048 % 16 == 0 && s.wvalid 0 sid
      && (s.wvalids t).all (fun j => j == i || !(s.wfld t j 0 2 % 2048 == sid && s.wfld t j 2 1 == f 2 1)), 0),
    (decide (1 ≤ f 4 2 ∧ f 4 2 ≤ 1024), 1)] ++ zerosAt b 3 1 ++ zerosAt b 12 4

/-- The checks of a TWT entry (R220). -/
def State.checkTwt (s : State) (b : Bytes) : List (Bool × Nat) :=
  let f := fun o n => leAt b o n
  let restricted := bitOf (f 0 1) 1
  [(decide (f 0 1 < 16 ∧ f 1 1 < 3) && (if restricted then f 2 2 == 0xFFFF
      else decide (f 2 2 < 2048) && s.wvalid 0 (f 2 2) && bitOf (s.staLinks (f 2 2)) (f 1 1)), 0),
    (decide (f 0x10 4 ≤ f 0x14 4), 4)] ++ zerosAt b 5 3 ++ zerosAt b 0x18 8

/-- The checks of a group entry (R218). -/
def State.checkGroup (s : State) (i : Nat) (b : Bytes) : List (Bool × Nat) :=
  let f := fun o n => leAt b o n
  let l := i / 256
  let n := f 1 1
  let nss := fun (k : Nat) => ((List.range k).map (fun j => f (0x24 + j) 1)).sum
  (decide (f 0 1 < 2 ∧ 2 ≤ n ∧ n ≤ 16), 0)
    :: (List.range (min n 16)).map (fun k => (decide (f (4 + 2 * k) 2 < 2048) && s.wvalid 0 (f (4 + 2 * k) 2) && bitOf (s.staLinks (f (4 + 2 * k) 2)) l, (4 + 2 * k) / 4))
    ++ (List.range (min n 16)).map (fun k => (decide (1 ≤ f (0x24 + k) 1 ∧ f (0x24 + k) 1 ≤ 16 ∧ nss (k + 1) ≤ min 16 (s.linkPaths l).length), (0x24 + k) / 4))
    ++ zerosAt b 2 2 ++ zerosAt b 0x36 10

/-- The entry of a block-acknowledgement table that `b` would replace is of the same agreement (R223): its kept fields stay. -/
def State.baSame (s : State) (t i : Nat) (b : Bytes) : Bool :=
  s.wvalid t i && wacValid t b && s.wfld t i 0 2 % 2048 == leAt b 0 2 % 2048 && s.wfld t i 2 1 == leAt b 2 1

/-- An entry as a commit leaves it: the hardware-kept fields stay, or begin (R208, R210, R223). -/
def State.keepFields (s : State) (t i : Nat) (b : Bytes) : Bytes :=
  let old := s.wtbl t i
  let was := wacValid t old
  match t with
  | 0 =>
    let b1 := patch b 0 (leBytes 2 (setBits (leAt b 0 2) 4 4 (if was then bits (leAt old 0 2) 4 4 else 0)))
    if was then patch (patch b1 0x48 (slice old 0x48 3)) 0x4C (slice old 0x4C 8)
    else patch (patch b1 0x48 (leBytes 2 (s.get Fld.WAC_TWT_CFG.TWT_GUARD) ++ [0])) 0x4C (List.replicate 8 0)
  | 1 | 2 => patch b 8 (if s.baSame t i b then slice old 8 4 else slice b 6 2 ++ [0, 0])
  | _ => b

/-! Completions (R231, R233) -/

/-- A completion for a software frame. -/
def State.mtxComplete (s : State) (ring retries link status : Nat) : State :=
  let s1 := s.wacUpd (fun w => { w with cpl := w.cpl ++ [w32 (ring % 4096 * 2 ^ 16 + min 15 retries * 256 + link % 16 * 16 + status)] })
  if s.wac.cpl.isEmpty then s1.raise (ev 5 3) else s1

/-- Entries of a ring register pair: its size, and the entries between head and tail. -/
def ringSize (log2 : Nat) : Nat := 2 ^ log2
@[inherit_doc ringSize] def ringLevel (n head tail : Nat) : Nat := (tail % n + n - head % n) % n

/-- A descriptor for software is written at the tail of the receive ring, or the frame is dropped (R232). -/
def State.mrxWrite (s : State) (d : Bytes) : State :=
  let n := ringSize (s.get Fld.WAC_MRX_CFG.SIZE_LOG2)
  let head := s.get Fld.WAC_MRX_HEAD.HEAD % n
  let tail := s.get Fld.WAC_MRX_TAIL.TAIL % n
  if s.flag Fld.WAC_MRX_CFG.EN ∧ (tail + 1) % n ≠ head then
    let s1 := (s.memWrite (.engine 5 1) (64 * (s.reg .WAC_MRX_BASE).toNat + 32 * tail) d).2.set Fld.WAC_MRX_TAIL.TAIL [] ((tail + 1) % n)
    if head = tail then s1.raise (ev 5 2) else s1
  else
    let s1 := ((s.bufFree (leAt d 0 4)).inc .WAC_CNT_MRX_DROP).wacUpd (fun w => { w with mrxArmed := false })
    if s.wac.mrxArmed then s1.raise (ev 5 10) else s1

/-- A receive descriptor (R232). -/
def mrxDesc (buf len sid kind flags where_ tid sn : Nat) (rec : Bytes) : Bytes :=
  leBytes 4 buf ++ leBytes 2 len ++ leBytes 2 sid ++ [b8 kind, b8 flags, b8 where_, b8 tid] ++ leBytes 2 sn ++ [0, 0] ++ slice rec 0 16

/-- Bytes that a station's frames occupy in the queues. -/
def State.staBytes (s : State) (sid : Nat) : Nat := ((s.wac.frames.filter (fun f => f.sid == sid && f.kind == 0)).map (·.len)).sum

/-- Entries of the frame pool in use (R214): frames from the traffic manager and from software; what the controller makes itself stands beside it (notes/assumptions/77.md). -/
def State.poolUse (s : State) : Nat := (s.wac.frames.filter (fun f => f.kind == 0 || f.kind == 1)).length

/-- The pauses toward the traffic manager brought up to date (R214). -/
def State.wacPause (s : State) : State :=
  let stas := (s.wvalids 0).map (fun i => (s.wfld 0 i 4 2, s.staBytes i))
  let xoff := 1024 * s.get Fld.WAC_Q_CFG.XOFF_KIB
  let xon := 1024 * s.get Fld.WAC_Q_CFG.XON_KIB
  let n := s.poolUse
  s.wacUpd (fun w => { w with
    paused := (stas.filter (fun e => decide (xoff ≤ e.2) || (w.paused.contains e.1 && decide (xon < e.2)))).map (·.1),
    portPaused := decide (131072 ≤ n) || (w.portPaused && decide (131072 - 1024 < n)) })

/-- A data frame: one from the traffic manager, or one that software marks DATA (R230). -/
def frameData (f : WacFrame) : Bool := f.kind == 0 || (f.kind == 1 && bitOf f.flags 3)

/-- The sequence space of a frame: its TID's for data, that of management frames otherwise. -/
def WacFrame.space (f : WacFrame) : Nat := 32 * f.sid + (if frameData f then f.tid else 16)

/-- The BA_TX agreement of a station and TID (R223). -/
def State.baTx (s : State) (sid tid : Nat) : Option Nat := (s.wvalids 1).find? (fun a => s.wfld 1 a 0 2 % 2048 == sid && s.wfld 1 a 2 1 == tid)

/-- WIN_START of the agreement under which frame `f` went out (R223): the oldest sequence number that is still to be acknowledged, else the next to be given. -/
def State.baTxMove (s : State) (f : WacFrame) : State :=
  match (if frameData f && f.sn.isSome then s.baTx f.sid f.tid else none) with
  | none => s
  | some a =>
    let w := s.wfld 1 a 8 2 % 4096
    let off := fun (n : Nat) => (n + 4096 - w) % 4096
    let ns := (s.wac.frames.filterMap (fun g => if g.space == f.space then g.sn.map off else none)).filter (fun d => decide (d < 2048))
    let d := off (sget (fun _ => 0) s.wac.txSn f.space)
    s.setWfld 1 a 8 2 ((w + ns.foldl min (if d < 2048 then d else 0)) % 4096)

/-- BSSID index of a frame on a link (R232): a station's own there. -/
def State.frameBss (s : State) (f : WacFrame) (l : Nat) : Nat := if f.sid = 0xFFFF ∨ 3 ≤ l then f.bss else s.wfld 0 f.sid (0x22 + l) 1 % 16

/-- A frame comes back on the receive ring as KIND 3 (R232, R235), its buffer with it. -/
def State.frameBack (s : State) (f : WacFrame) (h link status : Nat) : State :=
  s.mrxWrite (mrxDesc h f.len f.sid 3 status (link * 16 + s.frameBss f link) f.tid (f.sn.getD 0) [])

/-- A frame leaves the queues with a status (R231, R233): software's completes on the ring, what returns under RETURN goes to software (R235; a frame of its own as a
copy in a buffer), other buffers are freed. -/
def State.frameEnd (s : State) (f : WacFrame) (link status : Nat) : State :=
  let s1 := (s.wacUpd (fun w => { w with frames := w.frames.filter (fun x => x.num != f.num) })).baTxMove f
  let s2 := if status = 7 then s1.inc .WAC_CNT_LIFETIME else if status = 6 then s1.inc .WAC_CNT_RETRY_DROP
    else if status = 11 then s1.inc .WAC_CNT_REFUSED else s1
  let s3 := match f.kind with
    | 1 =>
      let t := s2.mtxComplete f.ring f.retries link status
      if status = 8 then
        match t.bufAlloc f.len with
        | (some h, u) => (u.memPut (64 * h) (u.bytes (64 * f.buf) f.len)).frameBack f h link status
        | (none, u) => u.inc .WAC_CNT_MRX_DROP
      else t
    | 0 => if status = 8 then s2.frameBack f f.buf link status else s2.bufFree f.buf
    | _ => s2
  s3.wacPause

/-- Every frame that `p` names leaves with a status. -/
def State.framesEnd (s : State) (p : WacFrame → Bool) (status : Nat) : State :=
  (s.wac.frames.filter p).foldl (fun t f => t.frameEnd f 15 status) s

/-! The window (R208, R211) -/

/-- A station leaves a group: the members after it move up, and a group of fewer than two is not valid (DESIGN CHOICE,
notes/assumptions/43.md). -/
def groupLess (b : Bytes) (sid : Nat) : Bytes :=
  let n := min 16 (leAt b 1 1)
  let ms := ((List.range n).map (fun k => (leAt b (4 + 2 * k) 2, leAt b (0x24 + k) 1))).filter (fun e => e.1 != sid)
  if ms.length = n then b
  else [b8 (if ms.length < 2 then 0 else leAt b 0 1), b8 ms.length, 0, 0] ++ slice ((ms.map (fun e => leBytes 2 e.1)).flatten) 0 32
    ++ slice (ms.map (fun e => b8 e.2)) 0 16 ++ slice b 0x34 12

/-- Another valid entry references an entry that is to be cleared (R208). -/
def State.wreferenced (s : State) (t i : Nat) : Bool :=
  match t with
  | 3 => (s.wvalids 0).any (fun j => s.staTwt j == i)
  | 5 => (s.wvalids 0).any (fun j => bitOf (s.staLinks j) (i / 16) && s.wfld 0 j (0x22 + i / 16) 1 == i % 16)
  | _ => false

/-- The window's bytes. -/
def State.wacWin (s : State) (n : Nat) : Bytes := ((List.range 32).map (fun k => leBytes 4 (s.reg .WAC_TBL_WIN [k]).toNat)).flatten.take n

/-- Bytes into the window; words past them are zero. -/
def State.setWacWin (s : State) (b : Bytes) : State :=
  (List.range 32).foldl (fun t k => t.setReg .WAC_TBL_WIN [k] (w32 (leAt b (4 * k) 4))) s

end Sys2Proof.Machine
end

