-- ==== Sys2Proof/Machine/Wac.lean ====
section
/-! DEFINITION. The WLAN access controller (R204 to R241): queues, scheduling, service periods, reception, rings, quiet windows,
AFC grants. -/
namespace Sys2Proof.Machine

/-! Queues (R212 to R214) -/

/-- Access category of a TID under the 802.11 user-priority mapping (R212): 0 BK, 1 BE, 2 VI, 3 VO. -/
def acOf (tid : Nat) : Nat := ([1, 0, 0, 1, 2, 2, 3, 3][tid % 8]?).getD 1

/-- A frame joins the queues. -/
def State.frameAdd (s : State) (f : WacFrame) : State :=
  (s.wacUpd (fun w => { w with frames := w.frames ++ [{ f with num := w.next }], next := w.next + 1 })).wacPause

/-- A frame with nothing assigned. -/
def State.frameNew (s : State) (kind sid links bss tid len buf : Nat) : WacFrame :=
  { num := 0, kind := kind, sid := sid, links := links, bss := bss, tid := tid, len := len, buf := buf, since := s.now, retries := 0,
    launch := none, flags := 0, ring := 0, cookie := 0, sn := none, pn := none, inTx := none, data := [] }

/-- The traffic manager delivers an MSDU (R212, R213): an Ethernet frame of `len` bytes, whose MSDU has an LLC header of 8 bytes for the
frame's header of 14 (notes/assumptions/50.md). -/
def State.wacMsdu (s : State) (sub cls buf len : Nat) (eapol : Bool) : State :=
  match (s.wvalids 0).find? (fun i => s.wfld 0 i 4 2 == sub), (s.wvalids 5).find? (fun i => s.wfld 5 i 0x1C 2 == sub) with
  | some sid, _ =>
    if !s.staFlag sid 2 && !eapol then (s.bufFree buf).inc .WAC_CNT_UNAUTH
    else if 2304 + 6 < len then (s.bufFree buf).inc .WAC_CNT_TX_OVERSIZE
    else s.frameAdd (s.frameNew 0 sid 7 0 (cls % 8) len buf)
  | none, some b =>
    if 2304 + 6 < len then (s.bufFree buf).inc .WAC_CNT_TX_OVERSIZE
    else s.frameAdd (s.frameNew 0 0xFFFF (2 ^ (b / 16)) (b % 16) (cls % 8) len buf)
  | none, none => (s.bufFree buf).inc .WAC_CNT_NOSTA

/-- Links a frame may go on (R212): TID_MAP and LINKS for a station, what its source allows otherwise. -/
def State.frameLinks (s : State) (f : WacFrame) : Nat :=
  if f.sid = 0xFFFF then f.links
  else Nat.land (Nat.land f.links (s.staLinks f.sid)) (if frameData f then s.wfld 0 f.sid 0x28 4 / 8 ^ (f.tid % 8) % 8 else 7)

/-- The frame waits for a PPDU of a category on a link. -/
def State.frameWaits (s : State) (l ac : Nat) (f : WacFrame) : Bool :=
  f.inTx.isNone && f.launch.isNone && bitOf (s.frameLinks f) l && (if f.kind = 2 then ac == 4 else acOf f.tid == ac)

/-! Service periods (R220 to R222), all in µs of TSF -/

/-- The TSF (R206): network time in µs. -/
def State.tsf (s : State) : Nat := (s.netTime / 1000).toNat

/-- The SP of entry `i` that starts last at or before TSF `t`. -/
def State.spAt (s : State) (i t : Nat) : Option Nat :=
  let st := s.wfld 3 i 8 8
  let iv := s.wfld 3 i 0x14 4
  if t < st then none else if iv = 0 then some st else some (st + (t - st) / iv * iv)

/-- Stations an entry serves (R220): the one that an individual entry names, those whose TWT_IDX names a restricted one. -/
def State.spMembers (s : State) (i : Nat) : List Nat :=
  (s.wvalids 0).filter (fun j => if bitOf (s.wfld 3 i 0 1) 1 then s.staTwt j == i else s.wfld 3 i 2 2 == j)

/-- The SP of a station's entry whose appearance window holds TSF `t` (R221). -/
def State.spWindow (s : State) (sid t : Nat) : Option Nat :=
  let i := s.staTwt sid
  let g := 16 * s.staGuard sid
  if s.wvalid 3 i then
    [s.spAt i (t + g), s.spAt i t].filterMap id |>.find? (fun b => decide (b ≤ t + g ∧ t ≤ b + s.wfld 3 i 0x10 4 + g))
  else none

/-- A station sleeps (R216, R221): legacy power save, or a TWT station that has not appeared. -/
def State.asleep (s : State) (sid : Nat) : Bool :=
  (s.staFlag sid 4 || s.staTwt sid != 0xFFFF) && !s.wac.awake.contains sid

/-- The restricted SP that runs on a link at TSF `t`. -/
def State.restrictedSp (s : State) (l t : Nat) : Option Nat :=
  (s.wvalids 3).find? (fun i => bitOf (s.wfld 3 i 0 1) 1 && s.wfld 3 i 1 1 == l
    && (s.spAt i t).any (fun b => decide (t < b + s.wfld 3 i 0x10 4)))

/-- Link `l` may serve station `sid` at TSF `t`, and now (R220): inside a restricted SP only its members; group-addressed frames are not theirs alone. -/
def State.spServesAt (s : State) (l sid t : Nat) : Bool :=
  match s.restrictedSp l t with
  | some e => sid != 0xFFFF && s.staTwt sid == e
  | none => true
@[inherit_doc State.spServesAt] def State.spServes (s : State) (l sid : Nat) : Bool := s.spServesAt l sid s.tsf

/-! Scheduling (R215 to R217) -/

/-- Candidate stations of a link but for their demand. -/
def State.wacStas (s : State) (l : Nat) : List Nat :=
  (s.wvalids 0).filter (fun i => bitOf (s.staLinks i) l && !s.asleep i && s.spServes l i)

/-- Downlink candidates of a category, and uplink candidates (R216). -/
def State.dlCands (s : State) (l ac : Nat) : List Nat :=
  (s.wacStas l).filter (fun i => s.wac.frames.any (fun f => f.sid == i && s.frameWaits l ac f))
@[inherit_doc State.dlCands] def State.ulCands (s : State) (l : Nat) : List Nat :=
  (s.wacStas l).filter (fun i => s.staUl i != 0 && s.staFlag i 3)

/-- The oldest waiting frame of a station in a category. -/
def State.headFrame (s : State) (l ac i : Nat) : Option WacFrame := s.wac.frames.find? (fun f => f.sid == i && s.frameWaits l ac f)

/-- Every candidate of the link gains WEIGHT × QUANTUM when none has a deficit above 0 (R217). -/
def State.deficitRefill (s : State) (l : Nat) (cs : List Nat) : State :=
  let q := 8 * max 1 (s.get Fld.WAC_SCHED_CFG.QUANTUM [l])
  if cs.any (fun i => decide (0 < s.staDeficit i)) then s
  else cs.foldl (fun t i =>
    let w := max 1 (t.wfld 0 i 6 1)
    t.setWfld 0 i 0x50 4 (unsigned 32 (clampI (-(2 ^ 31)) (4 * w * q) (t.staDeficit i + w * q)))) s

/-- The leader (R216 step 2): the largest deficit, ties to the lower SID; without AF_EN the oldest head frame. -/
def State.leader (s : State) (l ac : Nat) (cs : List Nat) : Option Nat :=
  if s.flag Fld.WAC_SCHED_CFG.AF_EN [l] then
    cs.foldl (fun m i => match m with
      | none => some i
      | some j => if s.staDeficit j < s.staDeficit i then some i else some j) none
  else (s.wac.frames.find? (fun f => cs.contains f.sid && s.frameWaits l ac f)).map (·.sid) |>.orElse (fun _ => cs.head?)

/-- RU sizes in tones, largest first, with how many a carrier of `n` unpunctured subchannels holds (R216 step 4; the RU plan is
PRESUMED, notes/assumptions/44.md). -/
def ruCounts (bw punct : Nat) : List (Nat × Nat) :=
  let free := fun (k i : Nat) => (List.range k).all (fun j => !bitOf punct (k * i + j))
  let cnt := fun (k : Nat) => ((List.range (2 ^ bw / k)).filter (free k)).length
  [(3984, cnt 16), (1992, cnt 8), (996, cnt 4), (484, cnt 2), (242, cnt 1), (106, 2 * cnt 1), (52, 4 * cnt 1), (26, 9 * cnt 1 + cnt 4)]

/-- The RU size for `n` users: the largest of which the bandwidth holds at least `n`. -/
def ruFor (bw punct n : Nat) : Nat := ((ruCounts bw punct).find? (fun e => decide (n ≤ e.2))).map (·.1) |>.getD 26

/-- A quotient whose rounding spec/ leaves free (notes/assumptions/22.md). -/
def ratioFree (a b : Nat) : Nat := a / b + (if a % b = 0 then 0 else b2n (Config.tieUp a b))

/-- Airtime charged to a station's deficit (R217). -/
def State.charge (s : State) (l sid t : Nat) : State :=
  if s.flag Fld.WAC_SCHED_CFG.AF_EN [l] ∧ sid < 2048 then
    s.setWfld 0 sid 0x50 4 (unsigned 32 (clampI (-(2 ^ 31)) (2 ^ 31 - 1) (s.staDeficit sid - t)))
  else s

/-- A PPDU of `t` µs charges every user it serves (R217): by its share of the allocated tones, of a MU-MIMO PPDU by its share of the members. -/
def State.ppduCharge (s : State) (l : Nat) (p : WacPpdu) (t : Nat) : State :=
  let all := (p.users.map (·.2)).sum
  if 5 ≤ p.kind then s
  else p.users.foldl (fun u e => u.charge l e.1
    (if p.users.length = 1 then t else if p.kind = 1 ∨ all = 0 then ratioFree t p.users.length else ratioFree (t * e.2) all)) s

/-- Key slot and cipher that a frame is protected with on a link, if any (R209, R227): 1 to 4 as CIPHER has them, 5 to 8 BIP as MCIPHER has them. -/
def State.frameKey (s : State) (l : Nat) (f : WacFrame) : Option (Nat × Nat) :=
  if f.sid = 0xFFFF then
    let b := 16 * l + f.bss
    let g := s.wfld 5 b 0x14 1
    let m := s.wfld 5 b 0x15 1
    if f.kind = 0 ∨ (f.kind = 1 ∧ bitOf f.flags 0 ∧ bitOf f.flags 3) then (if g = 0 then none else some (s.wfld 5 b 0x10 2, g))
    else if f.kind = 1 ∧ bitOf f.flags 0 then (if m = 0 then none else some (s.wfld 5 b 0x12 2, 4 + m))
    else none
  else if (f.kind = 0 ∨ bitOf f.flags 0) ∧ s.wfld 0 f.sid 0x30 1 ≠ 0 then
    some (s.wfld 0 f.sid (0x2C + 2 * (s.wfld 0 f.sid 0x31 1 % 2)) 2, s.wfld 0 f.sid 0x30 1)
  else none

/-- Under a BA_TX agreement the frame's sequence number, or the one it would get, lies past the window of WSIZE (R223). -/
def State.pastWindow (s : State) (f : WacFrame) : Bool :=
  match (if frameData f then s.baTx f.sid f.tid else none) with
  | none => false
  | some a =>
    let off := (f.sn.getD (sget (fun _ => 0) s.wac.txSn f.space) + 4096 - s.wfld 1 a 8 2 % 4096) % 4096
    decide (s.wfld 1 a 4 2 ≤ off ∧ off < 2048)

/-- A frame takes its sequence number and PN for a PPDU (R223, R229), or waits for its window. With the key's counter spent every frame that waits for the key completes with
PN_EXHAUST. Without a key that it may use it is dropped (R449), with a status that spec/ leaves open. -/
def State.frameTake (s : State) (l num : Nat) (f : WacFrame) : State :=
  let key := s.frameKey l f
  let use := match key with
    | some k => s.useKey 0 k.1
    | none => (some [], s)
  let pn := key.map (fun k => sget (fun _ => 0) s.wac.txPn k.1)
  if s.pastWindow f then s
  else if use.1.isNone then State.frameEnd { use.2 with free := s.free + 1 } f l (if f.kind = 0 then 9 else Config.freeNat s.free % 16)
  else if pn.any (fun n => decide (2 ^ 48 ≤ n ∨ (n = 2 ^ 48 - 1 ∧ f.pn.isNone))) then
    let s1 := s.wacUpd (fun w => { w with txPn := sset (fun _ => 0) w.txPn ((key.map (·.1)).getD 0) (2 ^ 48) })
    ((s.wac.frames.filter (fun g => (s.frameKey l g).map (·.1) == key.map (·.1) && (g.inTx.isNone || g.num == f.num))).foldl (fun t g => t.frameEnd g l 12) s1).raise (ev 5 9)
  else
    let sn := sget (fun _ => 0) s.wac.txSn f.space
    s.wacUpd (fun w => { w with
      txPn := match key, f.pn with
        | some x, none => sset (fun _ => 0) w.txPn x.1 (pn.getD 0 + 1)
        | _, _ => w.txPn,
      txSn := if f.sn.isNone then sset (fun _ => 0) w.txSn f.space ((sn + 1) % 4096) else w.txSn,
      frames := w.frames.map (fun g => if g.num == f.num then
        { g with inTx := some num, sn := some (f.sn.getD sn), pn := f.pn.orElse (fun _ => pn.map (· + 1)) } else g) })

/-- A PPDU joins those due on a link. -/
def State.ppduDue (s : State) (l : Nat) (p : WacPpdu) : State := s.wlinkUpd l (fun x => { x with due := x.due ++ [p] })

/-- Up to `take` waiting frames of each user go into a PPDU, which is then due on the link. -/
def State.ppduMake (s : State) (l : Nat) (p : WacPpdu) (take : Nat) (dl : Bool) : State :=
  let s1 := p.users.foldl (fun t u => if dl then
      ((t.wac.frames.filter (fun f => f.sid == u.1 && t.frameWaits l p.ac f && (u.1 != 0xFFFF || p.beams == [t.wfld 5 (16 * l + f.bss) 0x16 2]))).take take).foldl
        (fun x f => x.frameTake l p.num f) t
    else t) s
  let fs := (s1.wac.frames.filter (fun f => f.inTx == some p.num)).map (·.num)
  if dl && fs.isEmpty then s1
  else
    (s1.ppduDue l { p with frames := fs }).wacUpd (fun w => { w with
      awake := w.awake.filter (fun i => !(p.users.any (fun u => u.1 == i) && s.staFlag i 4)) })

/-- A number for a PPDU. -/
def State.ppduNum (s : State) : Nat := s.wac.next

/-- The head frames of downlink candidates whose rate the link cannot carry complete with REFUSED (R211, R233). -/
def State.rateRefuse (s : State) (l ac : Nat) (cs : List Nat) : State :=
  (cs.filter (fun i => (s.rateFor l (s.staRate i l)).isNone)).foldl (fun t i => match t.headFrame l ac i with
    | some f => t.frameEnd f l 11
    | none => t) s

/-- Members of a MU-MIMO PPDU, in order, while their streams stay within a limit (R171): SID, beam, streams. -/
def muFit (lim : Nat) : List (Nat × Nat × Nat) → List (Nat × Nat × Nat)
  | [] => []
  | e :: es => if e.2.2 ≤ lim then e :: muFit (lim - e.2.2) es else []

/-- The next PPDU of a link in a category (R209, R211, R216): direction, leader, MU-MIMO, OFDMA or single user; `air` µs of airtime, `punct` subchannels punctured for it. -/
def State.schedule (s : State) (l ac air take punct : Nat) : State :=
  let dl := s.dlCands l ac
  let ul := s.ulCands l
  let up := s.flag Fld.WAC_SCHED_CFG.UL_EN [l] && decide ((dl.map (fun i =>
      ((s.wac.frames.filter (fun f => f.sid == i && s.frameWaits l ac f)).map (·.len)).sum)).sum < 256 * (ul.map s.staUl).sum)
  let cs := if up then ul else dl.filter (fun i => (s.rateFor l (s.staRate i l)).isSome)
  let s0 := if s.flag Fld.WAC_SCHED_CFG.AF_EN [l] then s.deficitRefill l (dl ++ ul.filter (fun i => !dl.contains i)) else s
  let s1 := (if up then s0 else s0.rateRefuse l ac dl).wacUpd (fun w => { w with next := w.next + 1 })
  let p : WacPpdu := { WacPpdu.new 0 s0.ppduNum ac air with punct := punct }
  let group := s.wac.frames.find? (fun f => f.sid == 0xFFFF && s.frameWaits l ac f && (f.kind == 2 || s.spServes l f.sid))
  let rate := fun (i : Nat) => (s1.rateFor l (s1.staRate i l)).getD (s1.staRate i l, 1)
  match group, s1.leader l ac cs with
  | some g, _ =>
    match s1.rateFor l (s.wfld 5 (16 * l + g.bss) 0x18 4) with
    | none => s1.frameEnd g l 11
    | some r => s1.ppduMake l { p with users := [(0xFFFF, 0)], streams := [r.2], rate := r.1, beams := [s.wfld 5 (16 * l + g.bss) 0x16 2] } 1 true
  | none, none => s1
  | none, some a =>
    let all := Nat.lor punct (s.get Fld.PHY_PUNCT.MASK [l])
    let grp := if up ∨ ¬ s.flag Fld.WAC_SCHED_CFG.MU_EN [l] then none else
      ((s1.wvalids 4).filter (fun i => i / 256 == l)).find? (fun i =>
        let ms := (List.range (min 16 (s1.wfld 4 i 1 1))).map (fun k => s1.wfld 4 i (4 + 2 * k) 2)
        ms.contains a && ms.all cs.contains)
    let tones := (ruCounts (linkBw s.linkPlan l) all).foldl (fun m e => if e.2 = 0 then m else max m (e.1 * e.2)) 0
    match grp with
    | some i =>
      let ms := (List.range (min 16 (s1.wfld 4 i 1 1))).map (fun k => (s1.wfld 4 i (4 + 2 * k) 2, s1.wfld 4 i 0x34 2 + k, s1.wfld 4 i (0x24 + k) 1))
      let us := muFit (min 16 (s1.linkPaths l).length)
        (((ms.filter (fun e => e.1 == a)) ++ ms.filter (fun e => e.1 != a)).take (max 1 (s.get Fld.WAC_SCHED_CFG.MU_MAX [l])))
      s1.ppduMake l { p with kind := 1, users := us.map (fun u => (u.1, tones)), streams := us.map (·.2.2), rate := (rate a).1, beams := us.map (·.2.1) } take true
    | none =>
      let rot := cs.filter (fun i => s1.staFlag i 3)
      if s.flag Fld.WAC_SCHED_CFG.OFDMA_EN [l] ∧ 2 ≤ rot.length then
        let n := min rot.length (max 1 (s.get Fld.WAC_SCHED_CFG.USERS_MAX [l]))
        let us := (sortBy (fun a b => decide (s1.staDeficit b < s1.staDeficit a)) rot).take n
        let ru := ruFor (linkBw s.linkPlan l) all n
        s1.ppduMake l { p with kind := if up then 3 else 2, users := us.map (fun i => (i, ru)), streams := us.map (fun i => (rate i).2), rate := (rate a).1,
                               beams := us.map (s1.staBeam · l) } take (!up)
      else s1.ppduMake l { p with kind := if up then 3 else 0, users := [(a, tones)], streams := [(rate a).2], rate := (rate a).1, beams := [s1.staBeam a l] } take (!up)

/-- Paths of quadrant `q` that a change to stack `i` affects, and whether they keep their role. A change of LO or of its frequency affects a path too
(DEDUCED, notes/assumptions/61.md). -/
def State.stackAffects (s : State) (q i : Nat) : List (Nat × Bool) :=
  let old := s.curStack q
  let new := (s.stackOf q i).getD []
  (List.range 16).filterMap (fun p =>
    let r := s.pathRole (16 * q + p)
    let same := r == stkRole new p
    let k := stkLoSel old p
    if ¬ same then some (16 * q + p, false)
    else if r ≠ 0 ∧ (k ≠ stkLoSel new p ∨ loUnits (stkLo old k) ≠ loUnits (stkLo new k)) then some (16 * q + p, true)
    else none)

/-- Intervals of network time that no PPDU of a link may run into (R67, R215, R220, R237): a booked window on its paths, a pending re-stack that affects them, the start of a
restricted SP. For a launch-bound PPDU a window that is not forced is none: the launch time wins (R154). -/
def State.ppduBars (s : State) (l : Nat) (launch : Bool) : List (Int × Int) :=
  let ps := s.linkPaths l
  (List.range 4).filterMap (fun q => (s.cal q).run.bind (fun r => if (r.forced || !launch) && r.paths.any (fun p => ps.contains (16 * q + p)) then
      r.booked.map (fun w => (w, w + 1000 * (r.durUs : Int))) else none))
    ++ (match s.radio.request with
      | some r => if r.qs.any (fun e => (s.stackAffects e.1 e.2).any (fun x => ps.contains x.1)) then [(r.time, r.time + 1000 * (r.gap : Int))] else []
      | none => [])
    ++ ((s.wvalids 3).filter (fun i => bitOf (s.wfld 3 i 0 1) 1 && s.wfld 3 i 1 1 == l)).filterMap (fun i =>
      let iv := s.wfld 3 i 0x14 4
      let at_ := fun (b : Nat) => (1000 * (b : Int), 1000 * (b : Int))
      match s.spAt i s.tsf with
      | some b => if iv = 0 then none else some (at_ (b + iv))
      | none => some (at_ (s.wfld 3 i 8 8)))

/-- A PPDU of `ns` begun at `t` runs into no barred interval. -/
def State.ppduFits (s : State) (l : Nat) (t : Int) (ns : Nat) (launch : Bool) : Bool :=
  (s.ppduBars l launch).all (fun w => decide (t + ns ≤ w.1 ∨ w.2 ≤ t))

/-- The frame is in an exchange: on the air, or sent and waiting for its acknowledgement. -/
def State.inExchange (s : State) (f : WacFrame) : Bool :=
  f.inTx.any (fun n => (List.range 3).any (fun l => (s.wlink l).sent.any (fun p => p.num == n)
    || s.radio.txs.any (fun t => t.src == l && t.start.isSome && t.cookie == [l, n])))

/-- PPDUs that have not started and have lost their last frame are not sent. -/
def State.dueTidy (s : State) (l : Nat) : State :=
  let gone := ((s.wlink l).due.filter (fun p => decide (p.kind < 3) && !s.wac.frames.any (fun f => f.inTx == some p.num)
    && !s.radio.txs.any (fun t => t.src == l && t.start.isSome && t.cookie == [l, p.num]))).map (·.num)
  (s.wlinkUpd l (fun x => { x with due := x.due.filter (fun p => !gone.contains p.num) })).radUpd (fun r => { r with
    txs := r.txs.filter (fun t => !(t.src == l && t.start.isNone && gone.any (fun n => t.cookie == [l, n]))) })
@[inherit_doc State.dueTidy] def State.duesTidy (s : State) : State := (List.range 3).foldl (fun t l => t.dueTidy l) s

/-- A frame goes back to its place in the queue (R234); one whose station has been cleared meanwhile is FLUSHED (R208, R211). -/
def State.framePut (s : State) (l : Nat) (f : WacFrame) (retry : Nat) : State :=
  if f.sid ≠ 0xFFFF ∧ ¬ s.wvalid 0 f.sid then s.frameEnd f l 9
  else s.wacUpd (fun w => { w with frames := w.frames.map (fun g => if g.num == f.num then { g with inTx := none, retries := g.retries + retry } else g) })

/-- Frames of a sent PPDU that nothing acknowledged are retried (R226). -/
def State.frameRetry (s : State) (l : Nat) (f : WacFrame) : State :=
  let lim := max 1 (s.get Fld.WAC_BA_CFG.RETRY_MAX)
  if lim ≤ f.retries then
    let s1 := s.frameEnd f l 6
    if frameData f ∧ f.sid ≠ 0xFFFF ∧ (s.baTx f.sid f.tid).isSome then
      s1.frameAdd (s1.frameNew 4 f.sid (2 ^ l) 0 f.tid 24 0)
    else s1
  else s.framePut l f 1

/-- What a sent PPDU still holds unacknowledged is retried. -/
def State.sentLapse (s : State) (l : Nat) : State :=
  match (s.wlink l).sent with
  | none => s
  | some p => ((s.wac.frames.filter (fun f => p.frames.contains f.num && f.inTx == some p.num)).foldl (fun t f => t.frameRetry l f) s).wlinkUpd l
      (fun x => { x with sent := none })

/-- The service period of a TWT station ends early (R221): when an exchange with it is over and nothing is held for it either way, the part sends an EOSP and the station is no
candidate until its next window (when the part sends one, the spec leaves open: DESIGN CHOICE, notes/assumptions/76.md). -/
def State.twtEosp (s : State) (sids : List Nat) : State :=
  s.wacUpd (fun w => { w with awake := w.awake.filter (fun i => !(sids.contains i && s.staTwt i != 0xFFFF && s.staUl i == 0
    && !s.wac.frames.any (fun f => f.sid == i))) })

/-! Reception (R219, R221 to R228) -/

/-- A station's buffer report (R219). -/
def State.bufReport (s : State) (l sid n : Nat) : State :=
  let old := s.staUl sid
  let kind := if old = 0 then 0 else if n = 0 then 1 else 2
  let s1 := (s.setWfld 0 sid 0x4C 4 n).wacUpd (fun w => { w with reportAt := sset (fun _ => 0) w.reportAt sid s.now })
  if (old = 0) = (n = 0) ∧ (old = 0 ∨ (n ≤ 2 * old ∧ old ≤ 2 * n)) then s1
  else if s.wac.bsr.any (fun e => e.1 == sid) then s1
  else
    let s2 := s1.wacUpd (fun w => { w with bsr := w.bsr ++ [(sid, l, kind)] })
    if s.wac.bsr.isEmpty then s2.raise (ev 5 4) else s2

/-- A frame from a station (R221): it appears, once, in the SP whose window holds this instant. -/
def State.staHeard (s : State) (l sid : Nat) : State :=
  if s.staTwt sid ≠ 0xFFFF ∧ s.wfld 3 (s.staTwt sid) 1 1 = l then
    match s.spWindow sid s.tsf with
    | some b => if s.wac.seen.contains (sid, b) then s
        else s.wacUpd (fun w => { w with awake := if w.awake.contains sid then w.awake else sid :: w.awake, seen := (sid, b) :: w.seen })
    | none => s
  else s

/-- A received data frame passes the replay check and goes up, or to software when its station is not authorised (R224, R228). -/
def State.wacUpward (s : State) (u : WacUp) : State :=
  let k := 32 * u.key + u.tid
  if u.prot ∧ u.pn ≤ sget (fun _ => 0) s.wac.rxPn k then (s.bufFree u.buf).inc .WAC_CNT_REPLAY
  else
    let s1 := if u.prot then s.wacUpd (fun w => { w with rxPn := sset (fun _ => 0) w.rxPn k u.pn }) else s
    if s.staFlag u.sid 2 then
      (s1.bufFree u.buf).ingress 10 (s.bytes (64 * u.buf) u.len) s.stamp (some (s.wfld 0 u.sid 4 2)) (some u.tid) false (u.len + 4)
    else s1.mrxWrite (mrxDesc u.buf u.len u.sid 2 (b2n u.prot + 2 * b2n u.retry)
      (u.link * 16 + s.wfld 0 u.sid (0x22 + u.link) 1 % 16) u.tid u.sn u.record)

/-- WIN_START and WSIZE of an agreement. -/
def State.baStart (s : State) (a : Nat) : Nat := s.wfld 2 a 8 2 % 4096
@[inherit_doc State.baStart] def State.baSize (s : State) (a : Nat) : Nat := s.wfld 2 a 4 2

/-- The held frame of an agreement with a sequence number. -/
def State.heldAt (s : State) (a sn : Nat) : Option WacHeld := s.wac.held.find? (fun h => h.agr == a && h.up.sn == sn)

/-- WIN_START moves by one; a held frame there is released. -/
def State.baStep (s : State) (a : Nat) : State :=
  let sn := s.baStart a
  let s1 := match s.heldAt a sn with
    | some h => (s.wacUpd (fun w => { w with held := w.held.erase h })).wacUpward h.up
    | none => s
  let s2 := s1.wacUpd (fun w => { w with score := w.score.filter (· != (a, sn)) })
  (s2.setWfld 2 a 8 2 ((sn + 1) % 4096)).setWfld 2 a 10 2 (s2.wac.held.filter (fun h => h.agr == a)).length

/-- The window moves by `n`, releasing what falls out. -/
def State.baMove (a : Nat) : Nat → State → State
  | 0, s => s
  | n + 1, s => State.baMove a n (s.baStep a)

/-- Frames at the window's start are released while the gap is filled. -/
def State.baDrain (a : Nat) : Nat → State → State
  | 0, s => s
  | n + 1, s => if s.wac.score.contains (a, s.baStart a) then State.baDrain a n (s.baStep a) else s

/-- A data frame under an agreement (R225, R226); `dup` says that the scoreboard had it before. -/
def State.baReceive (s : State) (a : Nat) (dup : Bool) (u : WacUp) : State :=
  let off := (u.sn + 4096 - s.baStart a) % 4096
  if dup then (s.bufFree u.buf).inc .WAC_CNT_DUP
  else if 2048 ≤ off then (s.bufFree u.buf).inc .WAC_CNT_OLD
  else
    let s1 := if s.baSize a ≤ off then State.baMove a (off + 1 - s.baSize a) s else s
    let s2 := s1.wacUpd (fun w => { w with score := if w.score.contains (a, u.sn) then w.score else (a, u.sn) :: w.score, held := w.held ++ [⟨a, s.now, u⟩] })
    let s3 := State.baDrain a 4096 s2
    s3.setWfld 2 a 10 2 (s3.wac.held.filter (fun h => h.agr == a)).length

/-- An agreement ends: what it holds for reordering is released in order, its scoreboard is empty (notes/assumptions/75.md). -/
def State.baFlush (s : State) (a : Nat) : State :=
  let hs := s.wac.held.filter (fun h => h.agr == a)
  let far := (hs.map (fun h => (h.up.sn + 4096 - s.baStart a) % 4096)).foldl max 0
  (if hs.isEmpty then s else State.baMove a (far + 1) s).wacUpd (fun w => { w with score := w.score.filter (fun e => e.1 != a) })

/-- A management or control frame, or data from an unknown sender, for software (R232). -/
def State.rxToSoftware (s : State) (l kind : Nat) (m : Mpdu) (rec : Bytes) : State :=
  match s.bufAlloc m.data.length with
  | (some h, s1) => (s1.memPut (64 * h) m.data).mrxWrite (mrxDesc h m.data.length m.sid kind
      (b2n (m.prot && (m.sid != 0xFFFF)) + 2 * b2n m.retry + 4 * b2n (m.prot && m.sid == 0xFFFF)) (l * 16 + m.bss % 16) m.tid m.sn rec)
  | (none, s1) => s1.inc .WAC_CNT_MRX_DROP

/-! Protection (R227, R228). What IEEE 802.11 has of it is PRESUMED (notes/assumptions/74.md) -/

/-- Bytes of a MIC: 8 for CCMP-128 and BIP-CMAC-128, 16 otherwise. -/
def micLen (c : Nat) : Nat := if c = 1 ∨ c = 5 then 8 else 16

/-- Text to cipher text and back. -/
def wacCode (c : Nat) (key nonce text : Bytes) : Bytes := if c ≤ 2 then aesCtr 3 key nonce text else if c ≤ 4 then aesCtr 2 key nonce text else text

/-- The MIC over a text, of which `x` is the coded form. -/
def wacMic (c : Nat) (key nonce aad text x : Bytes) : Bytes :=
  if c ≤ 2 then ccmTag key nonce aad text (micLen c) else if c ≤ 4 then gcmTag key nonce aad x (micLen c)
  else if c ≤ 6 then aesCmac key (aad ++ text) (micLen c) else gcmTag key nonce (aad ++ text) [] (micLen c)

/-- A frame body protected: coded, with its MIC. -/
def wacSeal (c : Nat) (key nonce aad text : Bytes) : Bytes := wacCode c key nonce text ++ wacMic c key nonce aad text (wacCode c key nonce text)

/-- A protected frame body opened: its text, when the MIC is right. -/
def wacOpen (c : Nat) (key nonce aad data : Bytes) : Option Bytes :=
  let x := data.take (data.length - micLen c)
  let t := wacCode c key nonce x
  if micLen c ≤ data.length ∧ wacMic c key nonce aad t x = data.drop (data.length - micLen c) then some t else none

/-- Nonce of a PN: the priority for CCMP, the transmitter, the PN. -/
def wacNonce (c prio : Nat) (a2 : Bytes) (pn : Nat) : Bytes := (if c ≤ 2 then [b8 prio] else []) ++ a2 ++ beBytes 6 pn

/-- Additional data: frame control with its mutable bits clear, the addresses, the fragment number, of data the TID. -/
def wacAad (data : Bool) (tid : Nat) (a1 a2 a3 : Bytes) : Bytes :=
  (if data then [0x88, 0x40] else [0x00, 0x40]) ++ a1 ++ a2 ++ a3 ++ [0, 0] ++ (if data then [b8 tid, 0] else [])

/-- The address of a station, and the part's own toward it, in nonce and additional data (R227): MLD addresses for an MLD, those of the link otherwise. -/
def State.staAddr (s : State) (l sid : Nat) : Bytes :=
  if sid = 0xFFFF then List.replicate 6 0xFF else if s.staFlag sid 1 then slice (s.wtbl 0 sid) 8 6 else slice (s.wtbl 0 sid) (0x10 + 6 * l) 6
@[inherit_doc State.staAddr] def State.ownAddr (s : State) (l sid bss : Nat) : Bytes :=
  if sid ≠ 0xFFFF ∧ s.staFlag sid 1 then leBytes 4 (s.reg .WAC_MLD_ADDR_LO).toNat ++ leBytes 2 (s.get Fld.WAC_MLD_ADDR_HI.ADDR) else slice (s.wtbl 5 (16 * l + bss)) 2 6

/-- The part of a frame's own address toward a station, or the group. -/
def State.frameAddrs (s : State) (l : Nat) (f : WacFrame) : Bytes × Bytes := (s.staAddr l f.sid, s.ownAddr l f.sid (s.frameBss f l))

/-- The priority in a nonce: the TID of data, the bit of a management frame. -/
def noncePrio (data : Bool) (tid : Nat) : Nat := if data then tid % 16 else 16

/-- Key slot and cipher that open a received MPDU (R227): the slot of its key ID in its station's entry, or BIP's in the BSS entry. -/
def State.rxKey (s : State) (l : Nat) (m : Mpdu) : Option (Nat × Nat) :=
  if m.sid < 2048 ∧ s.wvalid 0 m.sid then
    let c := s.wfld 0 m.sid 0x30 1
    if c = 0 then none else some (s.wfld 0 m.sid (0x2C + 2 * (m.key % 2)) 2, c)
  else
    let c := s.wfld 5 (16 * l + m.bss % 16) 0x15 1
    if m.kind = 0 ∧ c ≠ 0 then some (s.wfld 5 (16 * l + m.bss % 16) 0x12 2, 4 + c) else none

/-- The text of an MPDU, or none when its MIC fails or no key may be used (R228, R449). -/
def State.rxOpen (s : State) (l : Nat) (m : Mpdu) : Option Bytes × State :=
  if ¬ m.prot then (some m.data, s)
  else match s.rxKey l m with
    | none => (none, s)
    | some (k, c) =>
      let r := s.useKey 0 k
      let a1 := if c ≤ 4 then s.ownAddr l m.sid (m.bss % 16) else List.replicate 6 0xFF
      let a2 := if c ≤ 4 then s.staAddr l m.sid else slice (s.wtbl 5 (16 * l + m.bss % 16)) 2 6
      (r.1.bind (fun key => wacOpen c key (wacNonce c (noncePrio (m.kind == 2) m.tid) a2 m.pn)
        (wacAad (m.kind == 2) m.tid a1 a2 (s.ownAddr l m.sid (m.bss % 16))) m.data), r.2)

/-- The MSDU or frame of a queue entry as it leaves at an instant of network time (R206, R227): of a delivered Ethernet frame the LLC form; the TSF at the first data symbol of
a beacon or probe response; protected with the key, PN and addresses of its station or BSS, the header of a frame of software's own left clear. -/
def State.framePsdu (s : State) (l rate : Nat) (t : Int) (f : WacFrame) : Bytes :=
  let raw := if f.kind = 2 then f.data else if f.kind = 0 then
      (let b := s.bytes (64 * f.buf) f.len
       [0xAA, 0xAA, 0x03, 0, 0, 0] ++ b.drop 12)
    else if f.kind = 1 then s.bytes (64 * f.buf) f.len else []
  let tsf := leBytes 8 (((t + Config.preambleNs rate) / 1000).toNat)
  let b := if f.kind = 2 ∨ (f.kind = 1 ∧ leAt raw 0 1 = 0x50) then patch raw 24 tsf else raw
  match s.frameKey l f, f.pn with
  | some (k, c), some pn =>
    let hd := if f.kind = 0 then 0 else if frameData f then 26 else 24
    let a := s.frameAddrs l f
    b.take hd ++ wacSeal c ((s.useKey 0 k).1.getD []) (wacNonce c (noncePrio (frameData f) f.tid) a.2 pn)
      (wacAad (frameData f) f.tid a.1 a.2 a.2) (b.drop hd)
  | _, _ => b

/-- The BA_RX agreement that an MPDU falls under. -/
def State.baRx (s : State) (m : Mpdu) : Option Nat :=
  if m.kind = 2 ∧ m.sid < 2048 ∧ s.wvalid 0 m.sid then (s.wvalids 2).find? (fun a => s.wfld 2 a 0 2 % 2048 == m.sid && s.wfld 2 a 2 1 == m.tid) else none

/-- The scoreboard has the MPDU already (R225). -/
def State.baSeen (s : State) (m : Mpdu) : Bool :=
  (s.baRx m).any (fun a => s.wac.score.contains (a, m.sn) && decide ((m.sn + 4096 - s.baStart a) % 4096 < s.baSize a))

/-- An MPDU within its window is marked in the scoreboard (R224 step 1). -/
def State.baMark (s : State) (m : Mpdu) : State :=
  match s.baRx m with
  | some a => if (m.sn + 4096 - s.baStart a) % 4096 < s.baSize a ∧ ¬ s.wac.score.contains (a, m.sn) then
      s.wacUpd (fun w => { w with score := (a, m.sn) :: w.score }) else s
  | none => s

/-- The acknowledgement of an MPDU (R224 step 1): a PPDU at SIFS that covers it, the MPDUs acknowledged with it, and of an agreement what its scoreboard holds. -/
def State.ackMake (s : State) (l : Nat) (m : Mpdu) : State :=
  let known := decide (m.sid < 2048) && s.wvalid 0 m.sid
  let sns := match s.baRx m with
    | some a => (s.wac.score.filter (fun e => e.1 == a)).map (·.2)
    | none => []
  let mine := fun (p : WacPpdu) => p.kind == 6 && p.users == [(m.sid, 0)] && p.tid == m.tid && !s.radio.txs.any (fun t => t.src == l && t.cookie == [l, p.num])
  if (s.wlink l).due.any mine then
    s.wlinkUpd l (fun x => { x with due := x.due.map (fun p => if mine p then { p with acks := (m.sn :: p.acks ++ sns).eraseDups } else p) })
  else
    let beam := if known then s.staBeam m.sid l else s.wfld 5 (16 * l) 0x16 2
    (s.wlinkUpd l (fun x => { x with due := { WacPpdu.new 6 s.wac.next 3 0 with
      users := [(m.sid, 0)], streams := [1], beams := [beam], tid := m.tid, acks := (m.sn :: sns).eraseDups } :: x.due })).wacUpd (fun w => { w with next := w.next + 1 })

/-- The checks and ways of an MPDU after its acknowledgement (R224 to R228); `dup` says that the scoreboard had it before. -/
def State.mpduIn (s : State) (l : Nat) (dup : Bool) (m0 : Mpdu) (rec : Bytes) : State :=
  let known := decide (m0.sid < 2048) && s.wvalid 0 m0.sid
  let r := s.rxOpen l m0
  match r.1 with
  | none => (r.2.inc .WAC_CNT_MIC_FAIL).raise (ev 5 6)
  | some text =>
    let m := { m0 with data := text }
    let slot := ((s.rxKey l m).map (·.1)).getD 0
    if m.kind = 0 ∧ m.robust ∧ ¬ m.prot ∧ known ∧ s.staFlag m.sid 5 then s.inc .WAC_CNT_UNAUTH
    else if m.kind = 1 then (if m.acks.isSome || m.poll then s else s.rxToSoftware l 1 m rec)
    else
      let agr := s.baRx m
      let k := 32 * m.sid + (if m.kind = 2 then m.tid else 16)
      if known && agr.isNone && m.retry && sget (fun _ => 0) s.wac.lastSn k == m.sn + 1 then s.inc .WAC_CNT_DUP
      else
        let s1 := if known ∧ agr.isNone then s.wacUpd (fun w => { w with lastSn := sset (fun _ => 0) w.lastSn k (m.sn + 1) }) else s
        if m.kind = 0 then
          if m.prot ∧ m.pn ≤ sget (fun _ => 0) s.wac.rxPn (32 * slot + 16) then s1.inc .WAC_CNT_REPLAY
          else (if m.prot then s1.wacUpd (fun w => { w with rxPn := sset (fun _ => 0) w.rxPn (32 * slot + 16) m.pn }) else s1).rxToSoftware l 0 m rec
        else if ¬ known then s1.rxToSoftware l 2 m rec
        else match s1.bufAlloc m.data.length with
          | (none, s2) => s2
          | (some h, s2) =>
            let u : WacUp := { sid := m.sid, link := l, tid := m.tid, sn := m.sn, buf := h, len := m.data.length, pn := m.pn, key := slot,
                               prot := m.prot, retry := m.retry, record := rec }
            let s3 := s2.memPut (64 * h) m.data
            match agr with
            | some a => s3.baReceive a dup u
            | none => s3.wacUpward u

/-! The tables' operations (R208, R211) -/

/-- A station's entry is cleared (R211): frames that are in no exchange are FLUSHED, those of a PPDU in progress when it has ended (R208). -/
def State.staClear (s : State) (sid : Nat) : State :=
  let own := fun (t : State) (tb : Nat) => (t.wlisted tb).filter (fun i => t.wfld tb i 0 2 % 2048 == sid)
  let s0 := (own s 2).foldl (fun u i => (u.baFlush i).setWtbl 2 i (wacZero (4096 * 2))) s
  let s1 := State.duesTidy (s0.framesEnd (fun f => f.sid == sid && !s0.inExchange f) 9)
  let s2 := (own s1 1).foldl (fun u i => u.setWtbl 1 i (wacZero (4096 * 1))) s1
  let s3 := ((s2.wlisted 3).filter (fun i => s2.wfld 3 i 2 2 == sid)).foldl (fun u i => u.setWtbl 3 i (wacZero (4096 * 3))) s2
  let s4 := (s3.wlisted 4).foldl (fun u i => u.setWtbl 4 i (groupLess (u.wtbl 4 i) sid)) s3
  s4.wacUpd (fun w => { w with awake := w.awake.filter (· != sid), seen := w.seen.filter (fun e => e.1 != sid) })

/-- An entry takes its place (R208): a new BA_RX agreement ends the old one of its index, a new BA_TX agreement starts its TID's numbers at SSN (notes/assumptions/75.md). -/
def State.entryPut (s : State) (t i : Nat) (b : Bytes) : State :=
  let fresh := !s.baSame t i b
  let s1 := if t = 2 ∧ fresh then s.baFlush i else s
  let s2 := s1.setWtbl t i (s.keepFields t i b)
  if t = 1 ∧ fresh ∧ wacValid 1 b then
    s2.wacUpd (fun w => { w with txSn := sset (fun _ => 0) w.txSn (32 * (leAt b 0 2 % 2048) + leAt b 2 1) (leAt b 6 2 % 4096) })
  else s2

/-- An entry is cleared (R208). -/
def State.entryClear (s : State) (t i : Nat) : State :=
  (if t = 0 then s.staClear i else if t = 2 then s.baFlush i else s).setWtbl t i (wacZero (4096 * t))

/-- OP of WAC_TBL_CTL (R208): 1 LOAD, 2 COMMIT, 3 CLEAR. What it changes holds from the next PPDU boundary on: a PPDU keeps the rate, beams, keys and sequence numbers that it
was built with. -/
def State.wacOp (s : State) (op : Nat) : State :=
  let t := s.get Fld.WAC_TBL_SEL.TABLE
  let i := s.get Fld.WAC_TBL_SEL.INDEX
  let done := fun (u : State) (res word : Nat) => u.commit .WAC_TBL_STAT [] (res * 2 ^ 24 + word)
  match op with
  | 1 => done (s.setWacWin (s.wtbl t i)) 0 0
  | 2 =>
    let b := s.wacWin (wacSize t)
    let cs := match t with
      | 0 => s.checkSta i b
      | 1 | 2 => s.checkBa t i b
      | 3 => s.checkTwt b
      | 4 => s.checkGroup i b
      | _ => s.checkBss i b
    match firstBad cs with
    | some w => done s 1 w
    | none =>
      if t = 0 ∧ wacValid 0 b ∧ bitOf (leAt b 0 2) 3 ∧ 512 ≤ ((s.wvalids 0).filter (fun j => j != i && s.staFlag j 3)).length then done s 2 0
      else done ((s.entryPut t i b).pathsCheck.wacPause) 0 0
  | _ => if s.wreferenced t i then done s 3 0 else done (s.entryClear t i) 0 0

/-! Registers of chapter 7 -/

/-- Values and conditions that the controller's registers let through. -/
def okWac (r : Reg) (_ : List Nat) (v : Word) (_ : Req) (s : State) : Bool :=
  match r with
  | .WAC_EDCA => decide (wbits v 7 4 ≤ wbits v 11 8)
  | .WAC_SCHED_CFG => decide (1 ≤ wbits v 27 20 ∧ wbits v 27 20 ≤ 148 ∧ 1 ≤ wbits v 19 15 ∧ wbits v 19 15 ≤ 16)
  | .WAC_TWT_CFG => decide (wbits v 11 0 ≤ wbits v 23 12)
  | .WAC_Q_CFG => decide (wbits v 15 0 ≤ wbits v 31 16)
  | .WAC_TBL_SEL => decide (wbits v 31 28 < 6 ∧ wbits v 11 0 < wacCount (wbits v 31 28))
  | .WAC_TBL_CTL => decide (1 ≤ wbits v 3 0 ∧ wbits v 3 0 ≤ 3)
  | .WAC_MTX_CFG => sizeOk s Fld.WAC_MTX_CFG.EN Fld.WAC_MTX_CFG.SIZE_LOG2 [] v 12
  | .WAC_MRX_CFG => sizeOk s Fld.WAC_MRX_CFG.EN Fld.WAC_MRX_CFG.SIZE_LOG2 [] v 12
  | .WAC_AFC_CTL => decide (wbits v 3 0 = 1 ∨ wbits v 3 0 = 2)
  | _ => true

/-- An install or a clear completes (R239): WAC_AFC_STAT, AFC_DONE. -/
def State.afcDone (s : State) (res : Nat) : State := (s.commit .WAC_AFC_STAT [] (res * 2 ^ 24)).raise (ev 5 8)

/-- Kiln has checked the record at an address (R239): on success its entries replace every grant entry. -/
def State.afcInstall (s : State) (a : Nat) : State :=
  match s.afcCheck a with
  | 0 =>
    let n := s.num (a + 6) 1
    (s.radUpd (fun r => { r with afc := afcEntries (s.bytes a (64 + 32 * n)) n, afcSerial := s.num (a + 20) 4 })).afcDone 0
  | c => s.afcDone c

/-- OP of WAC_AFC_CTL (R239): 1 INSTALL, 2 CLEAR. An install takes Kiln a time that spec/ does not state; another one meanwhile is BUSY. -/
def State.afcOp (s : State) (op : Nat) : State :=
  if op = 1 then
    let a := 64 * (s.reg .WAC_AFC_ADDR).toNat
    if s.radio.afcRun.isSome then s.afcDone 7 else s.radUpd (fun r => { r with afcRun := some (a, s.now + Config.afcNs a) })
  else (s.radUpd (fun r => { r with afc := [] })).afcDone 0

/-- An install whose check has ended completes. -/
def State.afcTick (s : State) : State :=
  match s.radio.afcRun with
  | some (a, t) => if t ≤ s.now ∧ s.active 5 then (s.radUpd (fun r => { r with afcRun := none })).afcInstall a else s
  | none => s

/-- Performed writes of the controller's registers. -/
def wrWac (r : Reg) (ix : List Nat) (v : Word) (rq : Req) (s : State) : State :=
  match r with
  | .WAC_TBL_CTL => (s.pendResult .WAC_TBL_STAT).wacOp (wbits v 3 0)
  | .WAC_MRX_FREE => s.bufFree v.toNat
  | .WAC_MRX_HEAD => let s1 := storeWord r ix v rq s
    let n := ringSize (s.get Fld.WAC_MRX_CFG.SIZE_LOG2)
    if wbits v 11 0 % n = s.get Fld.WAC_MRX_TAIL.TAIL % n then s1.wacUpd (fun w => { w with mrxArmed := true }) else s1
  | .WAC_AFC_CTL => (s.pendResult .WAC_AFC_STAT).afcOp (wbits v 3 0)
  | .WAC_Q_CFG => (storeWord r ix v rq s).wacPause
  | .WAC_LINK_CFG => ((storeWord r ix v rq s).wlinksStop).wacLine
  | _ => storeWord r ix v rq s

/-- Performed reads of the controller's registers. -/
def rdWac (r : Reg) (ix : List Nat) (rq : Req) (s : State) : Word × State :=
  match r, ix with
  | .WAC_LINK_STAT, [l] =>
    (w32 (b2n (s.wlinkRun l) * 2 ^ 31 + s.wlinkStop l * 2 ^ 28 + (s.linkPaths l).length * 2 ^ 16
      + ((s.wvalids 0).filter (fun i => bitOf (s.staLinks i) l)).length), s)
  | .WAC_AFC_SERIAL, _ => (w32 s.radio.afcSerial, s)
  | .WAC_AFC_STAT, _ => (wset (loadWord r ix rq s).1 6 0 s.grants.length, (loadWord r ix rq s).2)
  | .WAC_TBL_WIN, [n] => if 4 * n < wacSize (s.get Fld.WAC_TBL_SEL.TABLE) then loadWord r ix rq s else (0, s)
  | .WAC_MTX_CPL_POP, _ =>
    match s.wac.cpl with
    | [] => (0x8FFF0000, s)
    | w :: t => (w, s.wacUpd (fun x => { x with cpl := t }))
  | .WAC_BSR_POP, _ =>
    match s.wac.bsr with
    | [] => (0xFFF00000, s)
    | e :: t => (w32 (e.1 * 2 ^ 20 + e.2.1 * 2 ^ 18 + e.2.2 * 2 ^ 16), s.wacUpd (fun x => { x with bsr := t }))
  | _, _ => loadWord r ix rq s

/-! The rows -/

/-- WAC_TABLE_LOAD (R208): a write of WAC_TBL_CTL with OP LOAD. -/
def execWacTableLoad (rq : Req) (s : State) : Host.Outcome State Fault Refusal :=
  .next (writeReg rq (Reg.addr .WAC_TBL_CTL []) 4 1 okWac wrWac s)

/-- WAC_TABLE_COMMIT (R208): a write with OP COMMIT. -/
def execWacTableCommit (rq : Req) (s : State) : Host.Outcome State Fault Refusal :=
  .next (writeReg rq (Reg.addr .WAC_TBL_CTL []) 4 2 okWac wrWac s)

/-- WAC_TABLE_CLEAR (R208): a write with OP CLEAR. -/
def execWacTableClear (rq : Req) (s : State) : Host.Outcome State Fault Refusal :=
  .next (writeReg rq (Reg.addr .WAC_TBL_CTL []) 4 3 okWac wrWac s)

/-- The beacon of a link (R207): the template with DTIM count and virtual bitmap; element layout PRESUMED
(notes/assumptions/45.md). The TSF goes in as the beacon leaves (R206). -/
def State.beacon (s : State) (l dtim : Nat) : Bytes :=
  let e := s.wtbl 5 (16 * l)
  let b := s.bytes (64 * leAt e 8 4) (leAt e 12 2)
  let t := leAt e 14 2
  let n := leAt b (t + 1) 1
  let aids := ((s.wvalids 0).filter (fun i => bitOf (s.staLinks i) l && s.staFlag i 4
      && s.wac.frames.any (fun f => f.sid == i))).map (fun i => s.wfld 0 i 2 2 % 2048)
  let map := (List.range (n - 3)).map (fun k => b8 (maskOf ((List.range 8).filter (fun j => aids.contains (8 * k + j)))))
  patch (patch b (t + 2) [b8 dtim]) (t + 5) map

/-- TBTT (R207): a multiple of BCN_INT × 1,024 µs of TSF; a beacon still unsent is discarded, a new one is queued. -/
def execTbtt (l : Nat) (s : State) : Host.Outcome State Fault Refusal :=
  .next (let iv := 1024 * s.get Fld.WAC_LINK_CFG.BCN_INT [l]
    let per := max 1 (s.get Fld.WAC_LINK_CFG.DTIM_PERIOD [l])
    if l < 3 ∧ iv ≠ 0 ∧ s.wlinkRun l ∧ s.wvalid 5 (16 * l) ∧ s.tsf % iv = 0 ∧ (s.wlink l).lastTbtt ≠ s.tsf then
      let old := s.wac.frames.filter (fun f => f.kind == 2 && f.links == 2 ^ l && !s.inExchange f)
      let s1 := State.dueTidy (old.foldl (fun t f => (t.frameEnd f l 9).inc .WAC_CNT_BCN_DROP) s) l
      let d := ((s.wlink l).dtim + per - 1) % per
      let b := s1.beacon l d
      (s1.wlinkUpd l (fun x => { x with lastTbtt := s.tsf, dtim := d })).frameAdd
        { s1.frameNew 2 0xFFFF (2 ^ l) 0 0 b.length 0 with data := b }
    else s)

/-- FRAME_LIFETIME (R213): a frame has waited longer than LIFETIME. -/
def execFrameLifetime (i : Nat) (s : State) : Host.Outcome State Fault Refusal :=
  .next (match s.wac.frames[i]? with
    | some f =>
      let lim := s.get Fld.WAC_BA_CFG.LIFETIME
      if s.active 5 ∧ lim ≠ 0 ∧ f.launch.isNone ∧ ¬ s.inExchange f ∧ f.kind ≠ 2 ∧ f.since + lim * 1000000 < s.now then (s.frameEnd f 15 7).duesTidy else s
    | none => s)

/-- The link may start a PPDU: it runs, nothing of it is on the air, the medium is idle. -/
def State.linkIdle (s : State) (l : Nat) : Bool :=
  decide (l < 3) && s.wlinkRun l && (s.wlink l).due.all (·.launch.isSome) && !s.linkSends l && s.ccaCause l (s.primSub l) == 0
    && decide ((s.wlink l).nav ≤ s.netTime)

/-- EDCA_BACKOFF_EXPIRY (R215 to R217): the link wins the medium for the highest category with demand and starts a TXOP; the
first PPDU is scheduled. Frames that nothing acknowledged are retried first. -/
def execEdcaBackoffExpiry (l ac air take : Nat) (s : State) : Host.Outcome State Fault Refusal :=
  .next (let s1 := s.sentLapse l
    let dem := fun (c : Nat) => !(s1.dlCands l c).isEmpty || s1.wac.frames.any (fun f => f.sid == 0xFFFF && s1.frameWaits l c f && (f.kind == 2 || s1.spServes l f.sid))
    if s.linkIdle l ∧ ac ≤ 4 ∧ (dem ac ∨ (ac < 4 ∧ !(s1.ulCands l).isEmpty)) ∧ (List.range 5).all (fun c => decide (c ≤ ac) || !dem c)
        ∧ s1.ppduFits l s1.netTime (1000 * air) false then
      let lim := if ac < 4 then 32 * s.get Fld.WAC_EDCA.TXOP_LIMIT [l, ac] else 0
      if lim = 0 ∨ air ≤ lim then
        (s1.wlinkUpd l (fun x => { x with txop := some (ac, if lim = 0 then 0 else s1.netTime + 1000 * lim) })).schedule l ac air take 0
      else s
    else s)

/-- A list in runs of at most 148 (R171). -/
def runs148 : Nat → List Nat → List (List Nat)
  | 0, _ => []
  | n + 1, l => if l.isEmpty then [] else l.take 148 :: runs148 n (l.drop 148)

/-- Triggers are due on a link, each to at most 148 stations (R171), inside a restricted SP to its members alone (R220): kind 3 basic, 4 BSRP. -/
def State.triggerDue (s : State) (l kind : Nat) (sids : List Nat) (air : Nat) : State :=
  let all := sids.filter (s.spServes l ·)
  (runs148 all.length all).foldl (fun t is =>
    let ru := ruFor (linkBw s.linkPlan l) (s.get Fld.PHY_PUNCT.MASK [l]) is.length
    (t.ppduDue l { WacPpdu.new kind t.wac.next 3 air with
      users := is.map (fun i => (i, ru)), streams := is.map (fun _ => 1), beams := is.map (s.staBeam · l) }).wacUpd (fun w => { w with next := w.next + 1 })) s

/-- BSRP (R219): every BSRP_MS a trigger to the stations with ROT=1 whose report is older than that. -/
def execBsrpTrigger (l air : Nat) (s : State) : Host.Outcome State Fault Refusal :=
  .next (let ms := s.get Fld.WAC_SCHED_CFG.BSRP_MS [l]
    if l < 3 ∧ s.wlinkRun l ∧ ms ≠ 0 ∧ (s.wlink l).lastBsrp + ms * 1000000 ≤ s.now then
      (s.wlinkUpd l (fun x => { x with lastBsrp := s.now })).triggerDue l 4 ((s.wacStas l).filter (fun i =>
        s.staFlag i 3 && decide (sget (fun _ => 0) s.wac.reportAt i + ms * 1000000 ≤ s.now))) air
    else s)

/-- WAC_BSR_POP (R219): a read pops the oldest report. -/
def execWacBsrPop (rq : Req) (s : State) : Host.Outcome State Fault Refusal :=
  .next (readReg rq (Reg.addr .WAC_BSR_POP []) 4 readAny rdWac s)

/-- Stations of an entry that have not appeared in the SP that starts at `b`. -/
def State.spAbsent (s : State) (i b : Nat) : List Nat := (s.spMembers i).filter (fun j => !s.wac.seen.contains (j, b))

/-- TWT_SP_START (R220, R221): a service period starts: a restricted one ends the link's TXOP, one with TRIGGER sends a basic
trigger. -/
def execTwtSpStart (i air : Nat) (s : State) : Host.Outcome State Fault Refusal :=
  .next (let l := s.wfld 3 i 1 1
    if i < 1024 ∧ s.wvalid 3 i ∧ s.wlinkRun l ∧ s.spAt i s.tsf = some s.tsf then
      let s1 := if bitOf (s.wfld 3 i 0 1) 1 then s.wlinkUpd l (fun x => { x with txop := none }) else s
      if bitOf (s.wfld 3 i 0 1) 2 then s1.triggerDue l 3 (s1.spAbsent i s.tsf) air else s1
    else s)

/-- TWT_TRIGGER_REPEAT (R221): every 1 ms of an SP with TRIGGER the stations that have not appeared get a trigger again. -/
def execTwtTriggerRepeat (i air : Nat) (s : State) : Host.Outcome State Fault Refusal :=
  .next (let l := s.wfld 3 i 1 1
    match s.spAt i s.tsf with
    | some b =>
      if i < 1024 ∧ s.wvalid 3 i ∧ s.wlinkRun l ∧ bitOf (s.wfld 3 i 0 1) 2 ∧ b < s.tsf ∧ s.tsf < b + s.wfld 3 i 0x10 4 ∧ (s.tsf - b) % 1000 = 0 then
        s.triggerDue l 3 (s.spAbsent i b) air
      else s
    | none => s)

/-- The agreement of a station ends (R222). -/
def State.twtTeardown (s : State) (sid : Nat) : State :=
  let l := s.wfld 3 (s.staTwt sid) 1 1
  let s1 := (s.setWfld 0 sid 0x46 2 0xFFFF).setWfld 0 sid 0 2 (maskSet (s.wfld 0 sid 0 2) 4)
  ((s1.frameAdd (s1.frameNew 3 sid (2 ^ l) 0 7 32 0)).inc .WAC_CNT_TWT_TEARDOWN).raise (ev 5 5)

/-- TWT_WINDOW_CLOSE (R222): the appearance window of a station's last SP has closed: a miss or an appearance, unless the SP met a
quiet window, a gap or a stopped link. -/
def execTwtWindowClose (sid : Nat) (s : State) : Host.Outcome State Fault Refusal :=
  .next (let i := s.staTwt sid
    let g := 16 * s.staGuard sid
    let dur := s.wfld 3 i 0x10 4
    let l := s.wfld 3 i 1 1
    match (if g + dur ≤ s.tsf then s.spAt i (s.tsf - g - dur) else none) with
    | some b =>
      if sid < 2048 ∧ s.active 5 ∧ s.wvalid 0 sid ∧ s.wvalid 3 i ∧ sget (fun _ => 0) s.wac.spDone sid ≤ b then
        let s1 := s.wacUpd (fun w => { w with spDone := sset (fun _ => 0) w.spDone sid (b + 1), awake := w.awake.filter (· != sid),
                                              seen := w.seen.filter (fun e => e.1 != sid || e.2 != b) })
        let down := (s.wlink l).downSince.any (fun a => decide (a < 1000 * ((b + dur : Nat) : Int)))
          || (s.wlink l).downs.any (fun e => decide (e.1 < 1000 * ((b + dur : Nat) : Int) ∧ 1000 * (b : Int) < e.2))
        let gmin := s.get Fld.WAC_TWT_CFG.TWT_GUARD
        let gmax := s.get Fld.WAC_TWT_CFG.TWT_GUARD_MAX
        if down then s1
        else if s.wac.seen.contains (sid, b) then
          let k := sget (fun _ => 0) s.wac.streak sid + 1
          let s2 := (s1.setWfld 0 sid 0x4A 1 0).wacUpd (fun w => { w with streak := sset (fun _ => 0) w.streak sid (if k = 16 then 0 else k) })
          if k = 16 then s2.setWfld 0 sid 0x48 2 (max gmin (s.staGuard sid / 2)) else s2
        else
          let m := min 255 (s.wfld 0 sid 0x4A 1 + 1)
          let s2 := ((s1.inc .WAC_CNT_TWT_MISS).setWfld 0 sid 0x4A 1 m).wacUpd (fun w => { w with streak := sset (fun _ => 0) w.streak sid 0 })
          let s3 := if m % 2 = 0 then s2.setWfld 0 sid 0x48 2 (min gmax (2 * s.staGuard sid)) else s2
          let lim := s.get Fld.WAC_TWT_CFG.TWT_MISS_MAX
          if lim ≠ 0 ∧ lim ≤ m then s3.twtTeardown sid else s3
      else s
    | none => s)

/-- A block acknowledgement (R226): covered frames complete, the others are retried. -/
def State.ackIn (s : State) (l : Nat) (acks : List Nat) : State :=
  match (s.wlink l).sent with
  | none => s
  | some p =>
    let s1 := (p.frames.zipIdx).foldl (fun t e =>
      match t.wac.frames.find? (fun f => f.num == e.1 && f.inTx == some p.num) with
      | some f => if acks.contains e.2 then t.frameEnd f l 0 else t.frameRetry l f
      | none => t) s
    (s1.wlinkUpd l (fun x => { x with sent := none })).twtEosp (p.users.map (·.1))

/-- MPDU_RECEIVE (R219, R221, R224 to R228): an MPDU with a good FCS of a delivered PSDU. -/
def execMpduReceive (l i : Nat) (last : Bool) (m : Mpdu) (s : State) : Host.Outcome State Fault Refusal :=
  .next (match (s.phy l).delivered[i]? with
    | some rec =>
      if l < 3 ∧ s.active 5 then
        let s1 := if last then s.phyUpd l (fun p => { p with delivered := p.delivered.eraseIdx i }) else s
        let known := decide (m.sid < 2048) && s.wvalid 0 m.sid
        let s2 := if known then
            let t := (s1.setWfld 0 m.sid 0 2 (setBits (s1.wfld 0 m.sid 0 2) 4 4 (b2n m.pm))).staHeard l m.sid
            let t1 := if m.poll ∨ ¬ m.pm then t.wacUpd (fun w => { w with
                awake := if w.awake.contains m.sid ∨ t.staTwt m.sid ≠ 0xFFFF then w.awake else m.sid :: w.awake }) else t
            match m.report with
            | some n => t1.bufReport l m.sid n
            | none => t1
          else s1
        let s3 := s2.wlinkUpd l (fun x => { x with nav := max x.nav (s.netTime + 1000 * m.nav) })
        let s4 := match m.acks with
          | some a => s3.ackIn l a
          | none => s3
        let s5 := if m.kind = 1 ∨ m.noAck then s4 else (s4.baMark m).ackMake l m
        s5.mpduIn l (s4.baSeen m) m rec
      else s
    | none => s)

/-- REORDER_TIMEOUT (R226): REORDER_TO since the oldest held frame of an agreement arrived: every held frame is released in order. -/
def execReorderTimeout (a : Nat) (s : State) : Host.Outcome State Fault Refusal :=
  .next (let hs := s.wac.held.filter (fun h => h.agr == a)
    match hs.map (·.at_) with
    | [] => s
    | t :: ts =>
      if s.active 5 ∧ ts.foldl min t + max 1 (s.get Fld.WAC_BA_CFG.REORDER_TO) * 1000000 ≤ s.now then
        let far := (hs.map (fun h => (h.up.sn + 4096 - s.baStart a) % 4096)).foldl max 0
        (State.baMove a (far + 1) s).inc .WAC_CNT_REORDER_TO
      else s)

/-- A frame bound to a launch becomes a PPDU of its own (R230): its rate clamped or REFUSED, its number and PN taken; one that its window keeps back is not tried. -/
def State.launchDue (s : State) (l : Nat) (f : WacFrame) (t : Int) (air : Nat) : State :=
  let num := s.wac.next
  let rate := if f.sid < 2048 then s.rateFor l (s.staRate f.sid l) else s.rateFor l (s.wfld 5 (16 * l + f.bss) 0x18 4)
  match rate with
  | none => (s.inc .WAC_CNT_REFUSED).mtxComplete f.ring 0 l 11
  | some r =>
    let g := { f with num := num, launch := some t }
    let s1 := ((s.frameAdd g).wacUpd (fun w => { w with next := num + 2 })).frameTake l (num + 1) g
    if s1.wac.frames.any (fun x => x.inTx == some (num + 1)) then
      let beam := if f.sid < 2048 then s1.staBeam f.sid l else s1.wfld 5 (16 * l + f.bss) 0x16 2
      s1.ppduDue l { WacPpdu.new 0 (num + 1) (acOf f.tid) air with
        frames := [num], users := [(f.sid, 0)], streams := [r.2], rate := r.1, beams := [beam], launch := some t }
    else if s1.wac.frames.any (fun x => x.num == num) then s1.frameEnd g l 1
    else s1

/-- MTX_DESCRIPTOR_FETCH (R214, R230, R231): the next descriptor of the transmit ring, while the completion queue and the frame pool have room. -/
def execMtxDescriptorFetch (air : Nat) (s : State) : Host.Outcome State Fault Refusal :=
  .next (let n := ringSize (s.get Fld.WAC_MTX_CFG.SIZE_LOG2)
    let h := s.get Fld.WAC_MTX_HEAD.HEAD % n
    if s.active 5 ∧ s.flag Fld.WAC_MTX_CFG.EN ∧ h ≠ s.get Fld.WAC_MTX_TAIL.TAIL % n ∧ s.wac.cpl.length < 256 ∧ s.poolUse < 131072 then
      let a := 64 * (s.reg .WAC_MTX_BASE).toNat + 32 * h
      let (_, d, s0) := s.memRead (.engine 5 1) a 32
      let s1 := s0.set Fld.WAC_MTX_HEAD.HEAD [] ((h + 1) % n)
      let len := leAt d 4 2
      let fl := leAt d 12 2
      let f : WacFrame := { s1.frameNew 1 (leAt d 8 2) (leAt d 10 1 % 8) (leAt d 11 1 % 16) (bits fl 6 4) len (leAt d 0 4) with
        flags := fl, ring := h, cookie := leAt d 20 4 }
      if len = 0 ∨ leAt d 6 2 < len ∨ 4096 < len then (s1.capture 5 1 1 (.engine 5 1) 2 a).mtxComplete h 0 15 10
      else match firstBelow 3 (fun l => bitOf (s1.frameLinks f) l && s1.wlinkRun l) with
        | none => s1.mtxComplete h 0 15 13
        | some l =>
          if bitOf fl 2 then
            match s1.launch (leAt d 16 4) with
            | none => s1.mtxComplete h 0 l 1
            | some t => s1.launchDue l f t air
          else s1.frameAdd f
    else s)

/-- WAC_MTX_CPL_POP (R231): a read pops the oldest completion. -/
def execWacMtxCplPop (rq : Req) (s : State) : Host.Outcome State Fault Refusal :=
  .next (readReg rq (Reg.addr .WAC_MTX_CPL_POP []) 4 readAny rdWac s)

/-- WAC_MRX_FREE (R232): a write releases a buffer. -/
def execWacMrxFree (rq : Req) (v : Word) (s : State) : Host.Outcome State Fault Refusal :=
  .next (writeReg rq (Reg.addr .WAC_MRX_FREE []) 4 v okWac wrWac s)

/-- QUIET_WINDOW_CTS (R237): before a booked window a CTS-to-self is sent on an idle medium; from 200 µs before it on a busy one the
window runs uncovered. -/
def execQuietWindowCts (q l air : Nat) (s : State) : Host.Outcome State Fault Refusal :=
  .next (match (s.cal q).run with
    | none => s
    | some r => match r.booked with
      | none => s
      | some w =>
        let cover := fun (t : State) => t.wacUpd (fun y => { y with covered := (q, l, w) :: y.covered.filter (fun e => e.1 != q || e.2.1 != l) })
        if q < 4 ∧ l < 3 ∧ s.wlinkRun l ∧ s.get Fld.CAL_STAT.STATE [q] = 2 ∧ s.netTime < w ∧ ¬ s.wac.covered.contains (q, l, w)
            ∧ r.paths.any (fun p => (s.linkPaths l).contains (16 * q + p)) then
          if s.linkIdle l ∧ s.netTime + 1000 * air ≤ w then
            (cover (s.wlinkUpd l (fun x => { x with due := { WacPpdu.new 5 s.wac.next 3 air with beams := [s.wfld 5 (16 * l) 0x16 2] } :: x.due }))).wacUpd
              (fun y => { y with next := y.next + 1 })
          else if w ≤ s.netTime + 200000 then ((cover s).inc .WAC_CNT_QW_UNCOVERED).raise (ev 5 11)
          else s
        else s)

/-- AFC_INSTALL (R239): a write of WAC_AFC_CTL with OP INSTALL. -/
def execAfcInstall (rq : Req) (s : State) : Host.Outcome State Fault Refusal :=
  .next (writeReg rq (Reg.addr .WAC_AFC_CTL []) 4 1 okWac wrWac s)

/-- AFC_CLEAR (R239): a write with OP CLEAR. -/
def execAfcClear (rq : Req) (s : State) : Host.Outcome State Fault Refusal :=
  .next (writeReg rq (Reg.addr .WAC_AFC_CTL []) 4 2 okWac wrWac s)

end Sys2Proof.Machine
end

