-- ==== Sys2Proof/Machine/Fhu.lean ====
section
/-! DEFINITION. The fronthaul unit (R242 to R266): messages, windows, the symbol store, beams, runs, uplink, loss of time. -/
namespace Sys2Proof.Machine

/-- The unit updated. -/
def State.fhUpd (s : State) (f : Fhu → Fhu) : State := { s with fhu := f s.fhu }

/-! Air time (R250) -/

/-- Start of a symbol in its slot, in samples at 122.88 MS/s. -/
def symOffset (scs sym : Nat) : Nat :=
  if scs = 0 then 8768 * sym + (if sym = 0 then 0 else if sym ≤ 7 then 64 else 128)
  else 4384 * sym + (if sym = 0 then 0 else 64)

/-- Start of a symbol in its radio frame in ns; symbols past the slot's end count on. -/
def symStart (scs subframe slot sym : Nat) : Nat :=
  (122880 * subframe + (if scs = 0 then 122880 else 61440) * (slot + sym / 14) + symOffset scs (sym % 14)) * 3125 / 384

/-- FRAME_OFF. -/
def State.fhOff (s : State) : Int := (s.reg .FHU_FRAME_OFF).toNat

/-- The radio frame in progress at an instant. -/
def State.fhFrame (s : State) (n : Int) : Int := (n - s.fhOff) / 10000000

/-- The occurrence of a frameId whose symbol lies within 1.28 s of an arrival (R250): the instant, when there is one. -/
def State.fhTime (s : State) (arr : Int) (frame inFrame : Nat) : Option Int :=
  let b := s.fhFrame arr
  (List.range 259).findSome? (fun (i : Nat) =>
    let n := b - 129 + (i : Int)
    let t := s.fhOff + n * 10000000 + inFrame
    if n % 256 = frame ∧ arr - 1280000000 ≤ t ∧ t ≤ arr + 1280000000 then some t else none)

/-! Entries of the eAxC table -/

/-- ROUTE, carrier and NRB of an entry. -/
def State.eaRoute (s : State) (e : Nat) : Nat := s.get Fld.FHU_EAXC_W0.ROUTE [e]
@[inherit_doc State.eaRoute] def State.eaCar (s : State) (e : Nat) : Nat := routeCarrier s.sampleRoute (s.eaRoute e)
@[inherit_doc State.eaRoute] def State.eaNrb (s : State) (e : Nat) : Nat := fhNrb s.linkPlan (s.eaCar e)
@[inherit_doc State.eaRoute] def State.eaScs (s : State) (e : Nat) : Nat := fhScs s.linkPlan (s.eaCar e)

/-- The enabled entry of an ID and direction (R247). -/
def State.eaFind (s : State) (id dir : Nat) : Option Nat :=
  (List.range 256).find? (fun e => s.flag Fld.FHU_EAXC_W0.EN [e] && s.get Fld.FHU_EAXC_W0.EAXC_ID [e] == id && s.get Fld.FHU_EAXC_W0.DIR [e] == dir)

/-! Whether the unit serves (R261) -/

/-- The time condition: 0 good, 2 NO_TIME, 3 TIME_FAULT (STOP_CAUSE codes). -/
def State.fhTimeBad (s : State) : Nat :=
  if s.timeState = 1 then 0
  else if s.timeState = 2 then (if s.unc ≤ s.get Fld.FHU_TIME_CFG.HOLD_NS then 0 else 3)
  else 2

/-- FHU_STAT.STOP_CAUSE. -/
def State.fhStop (s : State) : Nat :=
  if !s.active 4 then 4 else if !s.flag Fld.FHU_CFG.EN then 1 else if s.fhTimeBad ≠ 0 then s.fhTimeBad else s.fhu.stop
@[inherit_doc State.fhStop] def State.fhRuns (s : State) : Bool := s.fhStop == 0

/-- An event raised once a radio frame (R266): 0 FH_TIMING, 1 FH_MALFORMED, 2 FH_TX_LOST. -/
def State.fhMark (s : State) (i : Nat) : State :=
  let f := s.fhFrame s.netTime
  let s1 := s.fhUpd (fun x => { x with marks := x.marks.set i (some f) })
  if (s.fhu.marks[i]?).getD none = some f then s1 else s1.raise (ev 4 (([7, 8, 12][i]?).getD 7))

/-- A counted message or section that is malformed or unsupported. -/
def State.fhBad (s : State) (r : Reg) : State := (s.inc r).fhMark 1

/-- A message outside its window. -/
def State.fhLate (s : State) (r : Reg) : State := (s.inc r).fhMark 0

/-! The symbol store (R253, R254) -/

/-- Store slots in use: a slot is free after its air time, unless software is to free it (R253, R263). -/
def State.fhHolds (s : State) (x : FhSlot) : Bool := x.returned || decide (s.netTime < x.ends)
@[inherit_doc State.fhHolds] def State.fhUsed (s : State) : Nat := (s.fhu.slots.filter (s.fhHolds ·)).length

/-- A slot is free again. -/
def State.fhFree (s : State) (p : FhSlot → Bool) : State :=
  let s1 := s.fhUpd (fun x => { x with slots := x.slots.filter (fun e => !p e) })
  if 2 * s1.fhUsed < s.get Fld.FHU_BUF_CFG.SLOTS then s1.fhUpd (fun x => { x with armed := true }) else s1

/-- A message finds no free slot. -/
def State.fhFull (s : State) : State :=
  let s1 := (s.inc .FHU_CNT_BUF_FULL).fhUpd (fun x => { x with armed := false })
  if s.fhu.armed then s1.raise (ev 4 9) else s1

/-- The slot of an entry's symbol, taken when there is none yet. -/
def State.fhSlot (s : State) (e : Nat) (t ends : Int) (ids : List Nat) : Option (Nat × State) :=
  match s.fhu.slots.find? (fun x => x.entry == e && x.t == t && !x.returned) with
  | some x => some (x.idx, s)
  | none =>
    (firstBelow (s.get Fld.FHU_BUF_CFG.SLOTS) (fun i => !s.fhu.slots.any (fun x => x.idx == i))).map (fun i =>
      (i, s.fhUpd (fun x => { x with slots := x.slots ++ [⟨i, e, t, ends, ids, [], false⟩] })))

/-- PRBs of an entry's symbol that accepted downlink sections describe. -/
def State.fhCovered (s : State) (e : Nat) (t : Int) (prb : Nat) : Bool :=
  s.fhu.secs.any (fun c => c.dl && c.entry == e && c.t == t && decide (c.start ≤ prb ∧ prb < c.start + c.num))

/-- A decompressed component of 16 bits (R248, R253): mantissa times 2^exponent. -/
def fhSample (m : Int) (exp : Nat) : Nat :=
  let v := m * 2 ^ exp
  if -32768 ≤ v ∧ v ≤ 32767 then unsigned 16 v else (Config.bfpOver m exp).toNat

/-- The bytes of PRB `k` of a section's data (I, then Q, of each subcarrier; DESIGN CHOICE, notes/assumptions/47.md). -/
def fhPrb (c : FhSection) (k : Nat) : Bytes :=
  ((List.range 24).map (fun i => leBytes 2 (fhSample ((c.iq[24 * k + i]?).getD 0) ((c.exps[k]?).getD 0)))).flatten

/-- PRBs of a section: 0 means to the end of the carrier. -/
def fhNum (nrb : Nat) (c : FhSection) : Nat := if c.num = 0 then nrb - c.start else c.num

/-- A section's PRBs lie in the carrier. -/
def fhPrbOk (nrb : Nat) (c : FhSection) : Bool := decide (c.start < nrb ∧ c.start + fhNum nrb c ≤ nrb)

/-- Sections of an accepted U-plane message go into the store (R253, R254): whether a PRB was without C-plane, whether the store was
full, the state. -/
def State.fhStore (s : State) (e frame subframe slot : Nat) (base : Int) : Nat → List FhSection → Bool × Bool × State
  | _, [] => (false, false, s)
  | sym, c :: rest =>
    let sym1 := if c.symInc then sym + 1 else sym
    let scs := s.eaScs e
    let t := base + symStart scs subframe slot sym1
    let ends := base + symStart scs subframe slot (sym1 + 1)
    let n := fhNum (s.eaNrb e) c
    let ks := (List.range n).filter (fun k => s.fhCovered e t (c.start + k))
    let bare := decide (ks.length < n)
    if ks.isEmpty then
      let r := State.fhStore s e frame subframe slot base sym1 rest
      (bare || r.1, r.2)
    else match s.fhSlot e t ends [frame, subframe, slot, sym1] with
      | none => (bare, true, s)
      | some (i, s1) =>
        let a := 64 * (s.reg .FHU_BUF_BASE).toNat + 16384 * i
        let s2 := ks.foldl (fun u k => u.memPut (a + 48 * (c.start + k)) (fhPrb c k)) s1
        let s3 := s2.fhUpd (fun x => { x with slots := x.slots.map (fun y => if y.idx == i then { y with prbs := y.prbs ++ [(c.start, n)] } else y) })
        let r := State.fhStore s3 e frame subframe slot base sym1 rest
        (bare || r.1, r.2)

/-- Early (1), late (2) or on time (0) for a window before an air time (R251). -/
def winJudge (arr t lo hi : Int) : Nat := if arr < t - hi then 1 else if t - lo < arr then 2 else 0

/-- A U-plane message (R248, R251, R253, R254). -/
def State.fhUplane (s : State) (e : Nat) (arr : Int) (m : FhMsg) : State :=
  let nrb := s.eaNrb e
  let static := s.flag Fld.FHU_EAXC_W1.STATIC_COMP [e]
  let comp := fun (c : FhSection) => if static then (s.get Fld.FHU_EAXC_W1.METH [e], s.get Fld.FHU_EAXC_W1.IQW [e]) else (c.meth, c.width)
  if m.version ≠ 1 ∨ m.filter ≠ 0 ∨ ¬ m.sections.all (fun c => c.rb == 0 && fhPrbOk nrb c) then s.fhBad .FHU_CNT_MALFORMED
  else if m.sections.any (fun c => decide (2 ≤ (comp c).1 ∨ (1 ≤ (comp c).2 ∧ (comp c).2 ≤ 7))) then s.fhBad .FHU_CNT_UNSUPPORTED
  else
    let first := m.sym + b2n ((m.sections.head?.map (·.symInc)).getD false)
    match s.fhTime arr m.frame (symStart (s.eaScs e) m.subframe m.slot first) with
    | none => s.fhLate .FHU_CNT_LATE
    | some t =>
      let j := winJudge arr t (1000 * s.get Fld.FHU_WIN_UP.T2A_MIN_UP) (1000 * s.get Fld.FHU_WIN_UP.T2A_MAX_UP)
      if j = 1 then s.fhLate .FHU_CNT_EARLY
      else if j = 2 then s.fhLate .FHU_CNT_LATE
      else
        let r := State.fhStore (s.inc .FHU_CNT_ON_TIME) e m.frame m.subframe m.slot (t - symStart (s.eaScs e) m.subframe m.slot first) m.sym m.sections
        let s1 := if r.1 then r.2.2.inc .FHU_CNT_NO_CPLANE else r.2.2
        if r.2.1 then s1.fhFull else s1

/-! Beams (R255, R256) -/

/-- Quadrants of a route's QMASK, in order. -/
def State.routeQs (s : State) (n : Nat) : List Nat := (List.range 4).filter (fun q => bitOf (routeQmask s.sampleRoute n) q)

/-- A weight component in units of 2^-14 (R256): value mantissa / 2^(width − 1) × 2^exponent, rounded to nearest (ties free). -/
def fhWeight (w : FhWeights) (m : Int) : Int :=
  let width := if w.meth = 0 then 16 else w.width
  let e := if w.meth = 0 then 0 else w.exp
  let num := m * 2 ^ (e + 14)
  let den : Int := 2 ^ (width - 1)
  let q := num / den
  let r := num % den
  if 2 * r < den then q else if den < 2 * r then q + 1 else q + b2n (Config.tieUp num (width - 1))

/-- The weights have a supported form for a route (R256). -/
def State.fhWeightsOk (s : State) (route : Nat) (w : FhWeights) : Bool :=
  (w.meth == 0 || (w.meth == 1 && decide (8 ≤ w.width ∧ w.width ≤ 16))) && w.mant.length == 32 * (s.routeQs route).length

/-- The beam record that a section's weights make for the `i`-th quadrant (R122, R123, R256). -/
def State.fhRecord (s : State) (e : Nat) (c : FhSection) (w : FhWeights) (i : Nat) : Bytes :=
  let nrb := s.eaNrb e
  let g := ceilDiv (12 * fhNum nrb c) 16
  let comp := fun (k : Nat) => leBytes 2 (unsigned 16 (clampI (-32767) 32767 (fhWeight w ((w.mant[k]?).getD 0))))
  let row := ((List.range 32).map (fun k => comp (32 * i + k))).flatten
  leBytes 2 c.beam ++ [b8 (s.eaRoute e), 4] ++ leBytes 2 (unsigned 16 (12 * (c.start : Int) - 6 * nrb)) ++ leBytes 2 g ++ [0xFF, 0xFF,
    b8 (6 + 8 * s.get Fld.FHU_CAR_CFG.RECIP [s.eaCar e]), 0, 0, 0, 0, 0] ++ (List.replicate g row).flatten ++ List.replicate 48 0

/-- The weights of a section are written and committed in every quadrant of the route (R256); a full commit queue holds the commit (R20, R126). -/
def State.fhWrite (s : State) (e : Nat) (c : FhSection) (w : FhWeights) : State :=
  let car := s.eaCar e
  let u := ceilDiv (12 * s.eaNrb e) 16 + 1
  let s1 := if w.mant.any (fun m => decide (32767 < (fhWeight w m).natAbs)) then s.inc .FHU_CNT_W_SAT else s
  ((s.routeQs (s.eaRoute e)).zipIdx).foldl (fun t x =>
    let k := c.beam - 16384
    let a := 64 * ((s.reg .FHU_CAR_DYN [car]).toNat + (x.2 * s.get Fld.FHU_CAR_CFG.DYN_COUNT [car] + k) * u)
    let t1 := t.memPut a (s.fhRecord e c w x.2)
    let v := w32 (t1.get Fld.BEAM_STAT.ACTIVE_TBL [x.1] * 2 ^ 28 + s.eaRoute e * 2 ^ 24 + c.beam)
    if ¬ t1.running x.1 then t1
    else if 64 ≤ (t1.quad x.1).beamQ.length ∧ t1.beamDue x.1 v = true then
      { t1 with held := t1.held ++ [⟨.engine 4 7, Reg.addr .BEAM_COMMIT [x.1], v, t1.now⟩] }
    else wrArray .BEAM_COMMIT [x.1] v (.engine 4 7) t1) s1

/-! C-plane (R249, R251, R254, R255, R258) -/

/-- Two symbol periods overlap. -/
def fhMeets (a b c d : Int) : Bool := decide (a < d ∧ c < b)

/-- One symbol of a section is accepted (R258): downlink takes the period from uplink, a later downlink section wins its PRBs. -/
def State.fhAccept (s : State) (c : FhSec) : State :=
  if c.dl then
    let ul := s.fhu.secs.filter (fun x => !x.dl && fhMeets x.t x.ends c.t c.ends)
    let ovl := s.fhu.secs.any (fun x => x.dl && x.entry == c.entry && x.t == c.t && decide (x.start < c.start + c.num ∧ c.start < x.start + x.num))
    (s.incBy .FHU_CNT_CONFLICT [] (ul.length + b2n ovl)).fhUpd (fun f => { f with
      secs := f.secs.filter (fun x => x.dl || !fhMeets x.t x.ends c.t c.ends) ++ [c] })
  else if s.fhu.secs.any (fun x => x.dl && fhMeets x.t x.ends c.t c.ends) then s.inc .FHU_CNT_CONFLICT
  else s.fhUpd (fun f => { f with secs := f.secs ++ [c] })

/-- A section of an accepted C-plane message. -/
def State.fhSection (s : State) (e : Nat) (m : FhMsg) (base : Int) (c : FhSection) : State :=
  let nrb := s.eaNrb e
  let dyn := decide (16384 ≤ c.beam)
  if c.rb ≠ 0 ∨ c.reMask ≠ 0xFFF ∨ ¬ c.exts.isEmpty ∨ (c.weights.any (fun w => !s.fhWeightsOk (s.eaRoute e) w)) then s.fhBad .FHU_CNT_UNSUPPORTED
  else if ¬ fhPrbOk nrb c ∨ c.numSym < 1 ∨ 14 < c.numSym then s.fhBad .FHU_CNT_MALFORMED
  else if (dyn ∧ 16384 + s.get Fld.FHU_CAR_CFG.DYN_COUNT [s.eaCar e] ≤ c.beam) ∨ (¬ dyn ∧ c.weights.isSome) then s.inc .FHU_CNT_BAD_BEAM
  else
    let s1 := match c.weights with
      | some w => s.fhWrite e c w
      | none => s
    let s2 := (s.routeQs (s.eaRoute e)).foldl (fun t q => if t.running q then t.beamName q (s.eaRoute e) c.beam else t) s1
    (List.range c.numSym).foldl (fun t k =>
      let a := fun (i : Nat) => base + symStart (s.eaScs e) m.subframe m.slot (m.sym + i)
      t.fhAccept ⟨e, m.dl, a k, a (k + 1), c.start, fhNum nrb c, c.beam, c.id, [m.frame, m.subframe, m.slot, m.sym + k], false,
        if m.secType = 3 then some (m.timeOff, m.cpLen, c.freqOff) else none⟩) s2

/-- A C-plane message (R249, R251). -/
def State.fhCplane (s : State) (e : Nat) (arr : Int) (m : FhMsg) : State :=
  let scs := s.eaScs e
  if m.secType ≠ 1 ∧ (m.secType ≠ 3 ∨ s.get Fld.FHU_EAXC_W0.DIR [e] ≠ 2 ∨ 2 ≤ m.scs ∨ m.filter ≠ 3 + m.scs) then s.fhBad .FHU_CNT_UNSUPPORTED
  else
    let inF := symStart scs m.subframe m.slot m.sym
    let up := fun (f : Fld) => (1000 * s.get f : Int)
    let adv : Int := 1000 * s.get Fld.FHU_WIN_CPDL.TCP_ADV_DL
    match s.fhTime arr m.frame inF with
    | none => s.fhLate .FHU_CNT_CP_LATE
    | some t =>
      let j := if m.dl then winJudge arr t (up Fld.FHU_WIN_UP.T2A_MIN_UP + adv) (up Fld.FHU_WIN_UP.T2A_MAX_UP + adv)
        else winJudge arr (t - s.get Fld.FHU_TIME_CFG.UL_ADV) (up Fld.FHU_WIN_CPUL.T2A_MIN_CP_UL) (up Fld.FHU_WIN_CPUL.T2A_MAX_CP_UL)
      if j = 1 then s.fhLate .FHU_CNT_CP_EARLY
      else if j = 2 then s.fhLate .FHU_CNT_CP_LATE
      else
        let base := t - inF - (if m.dl then 0 else s.get Fld.FHU_TIME_CFG.UL_ADV)
        m.sections.foldl (fun u c => u.fhSection e m base c) (s.inc .FHU_CNT_ON_TIME)

/-! Messages (R246, R247, R260) -/

/-- An eCPRI frame of the part's own on a fronthaul lane (R244, R246): addresses, the tag with VLAN_EN, the common header of one message, its payload. -/
def State.fhSend (s : State) (lane type : Nat) (body : Bytes) : State :=
  let src := leBytes 4 (s.reg .FHU_MAC_LO [lane]).toNat ++ leBytes 2 (s.get Fld.FHU_MAC_HI.ADDR [lane])
  let tag := if s.flag Fld.FHU_CFG.VLAN_EN then beBytes 2 0x8100 ++ beBytes 2 (s.get Fld.FHU_CFG.PCP * 2 ^ 13 + s.get Fld.FHU_CFG.VID) else []
  s.emit .lane [lane, type] (leBytes 6 (Config.duMac lane).toNat ++ src ++ tag ++ beBytes 2 0xAEFE ++ [0x10, b8 type] ++ beBytes 2 body.length ++ body)

/-- A stamp of the network timescale in an eCPRI message: seconds, nanoseconds. -/
def ecpriStamp (n : Int) : Bytes := beBytes 6 (n / 1000000000).toNat ++ beBytes 4 (n % 1000000000).toNat

/-- A one-way delay measurement is answered (R260): measurement ID, action type, stamp, compensation value 0. -/
def State.fhDelay (s : State) (lane : Nat) (arr : Int) (m : FhMsg) : State :=
  match m.action with
  | 0 => s.fhSend lane 5 ([b8 m.meas, 2] ++ ecpriStamp arr ++ List.replicate 8 0)
  | 3 => s.fhSend lane 5 ([b8 m.meas, 0] ++ ecpriStamp s.netTime ++ List.replicate 8 0)
  | 2 => s
  | _ => s.fhBad .FHU_CNT_UNSUPPORTED

/-- Bytes of a PRB (R248): 24 mantissas, and with BFP the byte of its exponent. -/
def fhPrbBytes (meth width : Nat) : Nat := 3 * (if width = 0 then 16 else width) + (if meth = 1 then 1 else 0)

/-- Bytes of a section extension 1: its header and weights, padded to 32-bit words (R256). -/
def fhExtBytes (w : FhWeights) : Nat :=
  4 * ceilDiv (3 + (if w.meth = 1 then 1 else 0) + ceilDiv (w.mant.length * (if w.meth = 0 then 16 else w.width)) 8) 4

/-- Bytes that the content of a message needs (R246). -/
def State.fhNeed (s : State) (e : Nat) (m : FhMsg) : Nat :=
  if m.type = 0 then
    let static := s.flag Fld.FHU_EAXC_W1.STATIC_COMP [e]
    8 + (m.sections.map (fun c => 4 + (if static then fhNum (s.eaNrb e) c * fhPrbBytes (s.get Fld.FHU_EAXC_W1.METH [e]) (s.get Fld.FHU_EAXC_W1.IQW [e])
      else 2 + fhNum (s.eaNrb e) c * fhPrbBytes c.meth c.width))).sum
  else (if m.secType = 3 then 16 else 12) + (m.sections.map (fun c => (if m.secType = 3 then 12 else 8) + ((c.weights.map fhExtBytes).getD 0)
    + (c.exts.map (fun x => 4 * x.2)).sum)).sum

/-- One message with `room` bytes of its frame left, and whether the rest of its frame is dropped (R246, R247). -/
def State.fhMessage (s : State) (lane : Nat) (arr : Int) (room : Nat) (m : FhMsg) : Bool × State :=
  if m.rev ≠ 1 then (false, s.fhBad .FHU_CNT_UNSUPPORTED)
  else if room < 4 + m.size then (true, s.fhBad .FHU_CNT_MALFORMED)
  else if m.type ≠ 0 ∧ m.type ≠ 2 ∧ m.type ≠ 5 then (false, s.fhBad .FHU_CNT_UNSUPPORTED)
  else if m.size < (if m.type = 5 then 20 else 8) then (true, s.fhBad .FHU_CNT_MALFORMED)
  else if m.type = 5 then (false, s.fhDelay lane arr m)
  else
    let dir := if m.dl then 0 else if m.type = 2 ∧ (m.secType = 3 ∨ m.filter ≠ 0) then 2 else 1
    match (if m.type = 0 ∧ ¬ m.dl then none else s.eaFind m.id dir) with
    | none => (false, s.inc .FHU_CNT_UNKNOWN)
    | some e =>
      if m.size < s.fhNeed e m then (true, s.fhBad .FHU_CNT_MALFORMED)
      else if ¬ m.ebit ∨ m.sub ≠ 0 then (false, s.fhBad .FHU_CNT_UNSUPPORTED)
      else
        let k := 2 * e + b2n (m.type == 2)
        let last := sget (fun _ => 0) s.fhu.seqs k
        if last = m.seq + 1 then (false, s.inc .FHU_CNT_DUP)
        else
          let s1 := s.fhUpd (fun x => { x with seqs := sset (fun _ => 0) x.seqs k (m.seq + 1) })
          let s2 := if last ≠ 0 ∧ last % 256 ≠ m.seq then s1.inc .FHU_CNT_SEQ_ERR else s1
          if ¬ s.flag Fld.FHU_CAR_CFG.EN [s.eaCar e] then (false, s2)
          else (false, if m.type = 0 then s2.fhUplane e arr m else s2.fhCplane e arr m)

/-- The messages of a frame in turn (R246): a concatenated one begins at the next 32-bit word. -/
def State.fhMessages (lane : Nat) (arr : Int) : Nat → List FhMsg → State → State
  | _, [], s => s
  | room, m :: t, s =>
    let r := s.fhMessage lane arr room m
    if r.1 then r.2 else State.fhMessages lane arr (room - 4 * ceilDiv (4 + m.size) 4) t r.2

/-! Runs (R257) -/

/-- Symbols past and done with leave the unit's lists. -/
def State.fhPrune (s : State) : State :=
  let keep := fun (c : FhSec) => decide (s.netTime < c.ends + 40000) || (c.dl && !c.shown)
  (s.fhUpd (fun x => { x with secs := x.secs.filter keep })).fhFree (fun x => !s.fhHolds x)

/-- Consecutive downlink symbol periods from an instant (R257): where the run ends. -/
def State.fhRunEnd (s : State) : Nat → Int → Int
  | 0, e => e
  | n + 1, e => match s.fhu.secs.find? (fun c => c.dl && !c.shown && decide (c.t ≤ e ∧ e < c.ends)) with
    | some c => s.fhRunEnd n c.ends
    | none => e

/-- The next run: its first air time, its end, its carriers' entries. -/
def State.fhNext (s : State) : Option (Int × Int × List FhSec) :=
  match s.fhu.secs.filter (fun c => c.dl && !c.shown) with
  | [] => none
  | c :: cs =>
    let t := cs.foldl (fun m x => min m x.t) c.t
    let e := s.fhRunEnd 20000 t
    some (t, e, (c :: cs).filter (fun x => decide (t ≤ x.t ∧ x.t < e)))

/-- Lost symbols are counted once per eAxC and symbol, and the first of a radio frame raises FH_TX_LOST (R257, R266). -/
def State.fhLost (s : State) (n : Nat) : State :=
  if n = 0 then s else (s.incBy .FHU_CNT_TX_LOST [] n).fhMark 2

/-- A run starts at `at_`: what lies before it is lost, what it cuts is truncated (R257). -/
def State.fhRunStart (s : State) (num : Nat) (at_ : Int) : State :=
  match s.fhu.runs.find? (fun r => r.num == num) with
  | none => s
  | some r =>
    let lost := r.syms.filter (fun e => decide (e.2.2 ≤ at_))
    let cut := r.syms.filter (fun e => decide (e.2.1 < at_ ∧ at_ < e.2.2))
    ((s.fhLost lost.length).incBy .FHU_CNT_TX_TRUNC [] cut.length).fhUpd (fun x => { x with
      runs := x.runs.map (fun y => if y.num == num then { y with syms := y.syms.filter (fun e => decide (at_ < e.2.2)) } else y) })

/-- A run ends with a status (R257): without OK, what it had still to send is lost; its store slots are free. -/
def State.fhRunDone (s : State) (num status : Nat) (started : Bool) : State :=
  match s.fhu.runs.find? (fun r => r.num == num) with
  | none => s
  | some r =>
    let lost := if status = 0 then [] else if started then r.syms.filter (fun e => decide (s.netTime < e.2.2)) else r.syms
    ((s.fhLost lost.length).fhUpd (fun x => { x with runs := x.runs.filter (fun y => y.num != num) })).fhFree
      (fun x => !x.returned && r.syms.any (fun e => e.1 == x.entry && e.2.1 == x.t))

/-- Service stops and everything held is discarded (R261, R264): on a forced step counted NO_TIME. -/
def State.fhDiscard (s : State) (count : Bool) : State :=
  let n := s.fhu.secs.length + s.fhUsed
  let s1 := (s.fhUpd (fun x => { x with secs := [], rets := [] })).fhFree (fun _ => true)
  if count then s1.incBy .FHU_CNT_NO_TIME [] n else s1

/-- A forced step of network time (R261): discard, and resume at the next frame boundary. -/
def State.fhStep (s : State) : State :=
  if s.fhRuns then (s.fhDiscard true).fhUpd (fun x => { x with stop := 2 }) else s

/-! Registers of chapter 8 -/

/-- An eAxC entry's words after a write keep the rules of the table. -/
def State.eaxcOk (s : State) (e : Nat) (w0 w1 : Word) : Bool :=
  let en := fun (x : Nat) => if x = e then bitOf w0.toNat 31 else s.flag Fld.FHU_EAXC_W0.EN [x]
  wbits w0 30 29 != 3 && !(decide (1 ≤ wbits w1 27 24 ∧ wbits w1 27 24 ≤ 7)) && [0, 3, 4].contains (wbits w1 3 0)
    && (!en e || (List.range 256).all (fun x => x == e || !en x || s.get Fld.FHU_EAXC_W0.EAXC_ID [x] != wbits w0 15 0
      || s.get Fld.FHU_EAXC_W0.DIR [x] != wbits w0 30 29))

/-- Values and conditions that the unit's registers let through. -/
def okFhu (r : Reg) (ix : List Nat) (v : Word) (_ : Req) (s : State) : Bool :=
  match r, ix with
  | .FHU_FRAME_OFF, _ => decide (v.toNat < 2560000000)
  | .FHU_WIN_UP, _ | .FHU_WIN_CPUL, _ => decide (50 ≤ wbits v 15 0 ∧ wbits v 15 0 < wbits v 31 16)
  | .FHU_MAX_FRAME, _ => decide (1518 ≤ wbits v 13 0 ∧ wbits v 13 0 ≤ 16000)
  | .FHU_BUF_BASE, _ => !s.flag Fld.FHU_CFG.EN
  | .FHU_BUF_CFG, _ => !s.flag Fld.FHU_CFG.EN && decide (wbits v 12 0 ≤ 4096)
  | .FHU_CAR_CFG, [n] => (wbits v 31 31 == 0 || fhBw s.linkPlan n != 0) && decide (wbits v 10 0 ≤ 1024)
      && !frozen (s.flag Fld.FHU_CAR_CFG.EN [n]) (s.get Fld.FHU_CAR_CFG.DYN_COUNT [n]) (wbits v 10 0)
  | .FHU_GAP_W1, _ => wbits v 15 0 == 0 || 10000 % wbits v 15 0 == 0
  | .FHU_EAXC_W0, [e] => routeRole s.sampleRoute (wbits v 27 24) == 4 && decide (wbits v 23 20 < routeStreams s.sampleRoute (wbits v 27 24))
      && s.eaxcOk e v (s.reg .FHU_EAXC_W1 [e])
  | .FHU_EAXC_W1, [e] => s.eaxcOk e (s.reg .FHU_EAXC_W0 [e]) v
  | _, _ => true

/-- Performed writes of the unit's registers. -/
def wrFhu (r : Reg) (ix : List Nat) (v : Word) (rq : Req) (s : State) : State :=
  match r with
  | .FHU_RET_FREE => s.fhFree (fun x => x.idx == wbits v 11 0 && x.returned)
  | .FHU_CFG => let s1 := storeWord r ix v rq s
    if wbits v 31 31 = 0 then (s1.fhDiscard false).fhUpd (fun x => { x with stop := 0 }) else s1
  | _ => storeWord r ix v rq s

/-- FHU_STAT as it reads. -/
def State.fhStat (s : State) : Word :=
  w32 (b2n s.fhRuns * 2 ^ 31 + s.fhStop * 2 ^ 28 + ((List.range 2).map (fun n => b2n (s.portUp (8 + n)) * 2 ^ (26 + n))).sum
    + s.fhUsed)

/-- Performed reads of the unit's registers. -/
def rdFhu (r : Reg) (ix : List Nat) (rq : Req) (s : State) : Word × State :=
  match r with
  | .FHU_STAT => (s.fhStat, s)
  | .FHU_RET_POP =>
    match s.fhu.rets with
    | [] => (0x800FF000, s)
    | i :: t =>
      match s.fhu.slots.find? (fun x => x.idx == i) with
      | none => (0x800FF000, s.fhUpd (fun x => { x with rets := t }))
      | some e =>
        let id := fun (k : Nat) => (e.ids[k]?).getD 0
        (w32 (e.entry * 2 ^ 12 + i), (s.fhUpd (fun x => { x with rets := t })).setReg .FHU_RET_INFO []
          (w32 (id 0 % 256 * 2 ^ 24 + id 1 % 16 * 2 ^ 20 + id 2 % 64 * 2 ^ 14 + id 3 % 16 * 2 ^ 10)))
  | _ => loadWord r ix rq s

/-! The rows -/

/-- FH_FRAME_RECEIVE (R244 to R251, R260): a frame on a fronthaul lane is sorted (R245). A PTP frame may have a group address for destination (PRESUMED,
notes/assumptions/80.md). Without BB the lane drops eCPRI alone (R264). -/
def execFhFrameReceive (f : FhFrame) (s : State) : Host.Outcome State Fault Refusal :=
  .next (let arr := s.netTime - f.age
    let mac := (s.reg .FHU_MAC_LO [f.lane]).toNat + s.get Fld.FHU_MAC_HI.ADDR [f.lane] * 2 ^ 32
    let tagged := if s.flag Fld.FHU_CFG.VLAN_EN then f.vid == some (s.get Fld.FHU_CFG.VID) else f.vid.isNone
    if f.lane < 2 ∧ s.serving ∧ s.portUp (8 + f.lane) then
      if s.get Fld.FHU_MAX_FRAME.MAX_FRAME < f.len then (if s.active 4 then s.inc .FHU_CNT_OVERSIZE else s)
      else if ¬ f.fcs ∨ ¬ (f.dest = mac ∨ (f.eth = 0x88F7 ∧ f.dest % 2 = 1)) ∨ ¬ tagged then s
      else if f.eth ≠ 0xAEFE then s.ingress (8 + f.lane) f.data (arr % 2 ^ 32).toNat none none false (f.data.length + 4)
      else if ¬ s.active 4 ∨ ¬ s.flag Fld.FHU_CFG.EN then s
      else if s.fhRuns then State.fhMessages f.lane arr (f.len - (if f.vid.isSome then 22 else 18)) f.msgs s.fhPrune
      else s.incBy .FHU_CNT_NO_TIME [] f.msgs.length
    else s)

/-- The exponent of a PRB in BFP: the least with which every mantissa fits its width. -/
def bfpExp (w : Nat) (vs : List Int) : Nat :=
  (firstBelow 16 (fun e => vs.all (fun v => decide (-(2 ^ (w - 1)) ≤ roundQ v (2 ^ e) ∧ roundQ v (2 ^ e) < 2 ^ (w - 1))))).getD 15

/-- The 24 components of a PRB compressed (R248, R259). -/
def fhPack (meth width : Nat) (vs : List Int) : Bytes :=
  let w := if meth = 0 ∨ width = 0 then 16 else width
  let e := if meth = 1 then bfpExp w vs else 0
  (if meth = 1 then [b8 e] else []) ++ beBytes (3 * w) (vs.foldl (fun n v => n * 2 ^ w + unsigned w (roundQ v (2 ^ e))) 0)

/-- Frequency-domain data of a path for an uplink section (R111, R259): its symbol's tones, of PRACH the bins of its preamble. A path that was not receiving through the
symbol brings zeros (R90, R258). -/
def State.ulTones (s : State) (c : FhSec) (g : Nat) (xs : List Cx) : List Cx :=
  let rate := fhRate (fhBw s.linkPlan (s.eaCar c.entry))
  let std := s.rxCarrier g (1000 * (fhCentre s.linkPlan (s.eaCar c.entry) : Int)) rate xs
  if ¬ s.rxLive g ∨ (s.netTime - (s.now - (s.pathSt g).rxSince : Nat)) > c.t then []
  else match c.prach with
    | none => (Config.fft 4 std).drop (12 * c.start)
    | some (off, cp, f) => Config.fft 4 ((Config.ncoShift (ncoWord (s.convPlan (g / 16)) (f * (7500 * 2 ^ s.eaScs c.entry : Nat))) std).drop ((off + cp) * rate / 30720000))

/-- The layer of an uplink section from the combiner (R115, R259): I and Q of the section's subcarriers in order. -/
def State.ulLayer (s : State) (c : FhSec) (adc : List (Nat × List Cx)) : List Int :=
  let route := s.eaRoute c.entry
  let first : Int := 12 * (c.start : Int) - 6 * s.eaNrb c.entry
  let ts := (s.rolePaths 4).map (fun g => (g, s.ulTones c g (((adc.find? (fun e => e.1 == g)).map (·.2)).getD [])))
  ((List.range (12 * c.num)).map (fun (i : Nat) =>
    let a := satCx (s.rxCombine route c.beam (fun g => ts.any (fun e => e.1 == g)) (fun g => (((ts.find? (fun e => e.1 == g)).map (·.2)).getD [])[i]?.getD (0, 0)) (first + (i : Int)))
    [a.1, a.2])).flatten

/-- PRBs `k` to `k + n` of a section as a U-plane message (R248, R259). -/
def State.ulMessage (s : State) (c : FhSec) (vs : List Int) (k n : Nat) : State :=
  let e := c.entry
  let meth := s.get Fld.FHU_EAXC_W1.METH [e]
  let width := s.get Fld.FHU_EAXC_W1.IQW [e]
  let id := fun (i : Nat) => (c.ids[i]?).getD 0
  let seq := sget (fun _ => 0) s.fhu.ulSeqs e
  let filter := if c.prach.isSome then s.get Fld.FHU_EAXC_W1.FILTER [e] else 0
  (s.fhUpd (fun x => { x with ulSeqs := sset (fun _ => 0) x.ulSeqs e ((seq + 1) % 256) })).fhSend (s.get Fld.FHU_EAXC_W0.LANE [e]) 0
    (beBytes 2 (s.get Fld.FHU_EAXC_W0.EAXC_ID [e]) ++ [b8 seq, 0x80, b8 (0x10 + filter), b8 (id 0), b8 (id 1 * 16 + id 2 / 4 % 16), b8 (id 2 % 4 * 64 + id 3 % 64)]
      ++ beBytes 3 (c.id % 4096 * 4096 + (c.start + k) % 1024) ++ [if n < 256 then b8 n else 0]
      ++ (if s.flag Fld.FHU_EAXC_W1.STATIC_COMP [e] then [] else [b8 (width * 16 + meth), 0])
      ++ ((List.range n).map (fun i => fhPack meth width ((vs.drop (24 * (k + i))).take 24))).flatten)

/-- PRBs that a message of the section may hold (R259): what MAX_FRAME leaves, and no more than 255 unless it reaches the end of the carrier. -/
def State.ulPrbs (s : State) (c : FhSec) : Nat :=
  let meth := s.get Fld.FHU_EAXC_W1.METH [c.entry]
  let n := max 1 ((s.get Fld.FHU_MAX_FRAME.MAX_FRAME - 40) / fhPrbBytes meth (if meth = 0 then 16 else s.get Fld.FHU_EAXC_W1.IQW [c.entry]))
  if c.num ≤ n ∧ c.start + c.num = s.eaNrb c.entry then max 1 c.num else min 255 n

/-- UL_U_PLANE_SEND (R252, R259): 8 µs or more after the symbol of the `i`-th held section its message leaves, or several where one would exceed MAX_FRAME; `adc` holds the ADC
samples of the symbol by global path. The section's beam and the calibration changes of the role's paths came into use with it (R127, R145). -/
def execUlUPlaneSend (i : Nat) (adc : List (Nat × List Cx)) (s : State) : Host.Outcome State Fault Refusal :=
  .next (match s.fhu.secs[i]? with
    | some c =>
      if s.fhRuns ∧ ¬ c.dl ∧ c.ends + 8000 ≤ s.netTime then
        let route := s.eaRoute c.entry
        let s1 := s.fhUpd (fun x => { x with secs := x.secs.eraseIdx i })
        if ((s.rolePaths 4).filter (fun g => s.routeHere (g / 16) route)).isEmpty then s1.inc .FHU_CNT_RESTACK_DISC
        else
          let s2 := (s.rolePaths 4).foldl (fun t g => t.calRxStart g) ((s.routeLive route).foldl (fun t q => t.beamsHear q route [c.beam]) s1)
          let vs := s2.ulLayer c adc
          let m := s2.ulPrbs c
          let n := max 1 (ceilDiv c.num m)
          (List.range n).foldl (fun t k => t.ulMessage c vs (m * k) (min m (c.num - m * k))) (s2.incBy .FHU_CNT_UL_TX [] n)
      else s
    | none => s)

/-- FH_TIME_FAULT (R261): network time is not good enough: the unit stops and everything later is dropped. -/
def execFhTimeFault (s : State) : Host.Outcome State Fault Refusal :=
  .next (if s.active 4 ∧ s.flag Fld.FHU_CFG.EN ∧ s.fhTimeBad ≠ 0 ∧ s.fhu.stop ≠ s.fhTimeBad then
      (s.fhUpd (fun x => { x with stop := s.fhTimeBad })).raise (ev 4 10)
    else s)

/-- FH_RESUME (R261): at the first radio-frame boundary after the condition clears the unit resumes. -/
def execFhResume (s : State) : Host.Outcome State Fault Refusal :=
  .next (if s.active 4 ∧ s.fhu.stop ≠ 0 ∧ s.fhTimeBad = 0 ∧ (s.netTime - s.fhOff) % 10000000 = 0 then
      s.fhUpd (fun x => { x with stop := 0 })
    else s)

/-- FHU_RET_POP (R263): a read pops a returned slot and latches its symbol. -/
def execFhuRetPop (rq : Req) (s : State) : Host.Outcome State Fault Refusal :=
  .next (readReg rq (Reg.addr .FHU_RET_POP []) 4 readAny rdFhu s)

/-- FHU_RET_FREE (R263): a write releases a returned slot. -/
def execFhuRetFree (rq : Req) (v : Word) (s : State) : Host.Outcome State Fault Refusal :=
  .next (writeReg rq (Reg.addr .FHU_RET_FREE []) 4 v okFhu wrFhu s)

/-! A re-stack (R263) -/

/-- The carrier of an entry has samples on one of a list of quadrants. -/
def State.eaOn (s : State) (qs : List Nat) (e : Nat) : Bool := (s.routeQs (s.eaRoute e)).any qs.contains

/-- At a boundary T where FH loses paths in quadrants `qs`: symbols of the gap are lost there; under RETURN the stored symbols of those carriers
from T on go back. -/
def State.fhRestack (s : State) (qs : List Nat) (t g : Int) (policy : Nat) : State :=
  let gapSyms := (s.fhu.slots.filter (fun x => s.eaOn qs x.entry && decide (t ≤ x.t ∧ x.t < t + g))).map (fun x => (x.entry, x.t))
  let s1 := s.incBy .FHU_CNT_RESTACK_DISC [] gapSyms.length
  if policy = 1 then
    (s.fhu.slots.filter (fun x => s.eaOn qs x.entry && decide (t ≤ x.t) && !x.returned)).foldl (fun u x =>
      if u.fhu.rets.length < 1024 then
        let v := u.fhUpd (fun y => { y with rets := y.rets ++ [x.idx], slots := y.slots.map (fun z => if z.idx == x.idx then { z with returned := true } else z),
                                            secs := y.secs.filter (fun c => !(c.dl && c.entry == x.entry && c.t == x.t)) })
        if u.fhu.rets.isEmpty then v.raise (ev 4 11) else v
      else (u.inc .FHU_CNT_RET_DROP).fhFree (fun z => z.idx == x.idx)) s1
  else s1

/-- Symbols of run `num` from `t` on are not sent by it: those from `from_` on that are still described are presented again (R257, R263). -/
def State.fhRequeue (s : State) (num : Nat) (t from_ : Int) : State :=
  match s.fhu.runs.find? (fun r => r.num == num) with
  | none => s
  | some r =>
    let later := r.syms.filter (fun e => decide (from_ ≤ e.2.1))
    s.fhUpd (fun x => { x with
      runs := x.runs.map (fun y => if y.num == num then { y with syms := y.syms.filter (fun e => decide (e.2.1 < t)) } else y),
      secs := x.secs.map (fun c => if c.dl && later.any (fun e => e.1 == c.entry && e.2.1 == c.t) then { c with shown := false } else c) })

/-- A gap of `g` ns from network time `t` takes paths out of the runs on the air (R66, R263): under WAIT a run goes on with the paths that stay; without any, what comes after the
gap is presented again; under RETURN the run ends, and what carriers that lose no path have left is presented again. -/
def State.fhGap (s : State) (gs : List Nat) (t g : Int) (back : Bool) : State :=
  (s.radio.txs.filter (fun x => x.src == 3 && x.start.isSome && x.paths.any gs.contains)).foldl (fun u x =>
    if x.paths.all gs.contains then u.fhRequeue (x.cookie.headD 0) t (t + g)
    else if back then u.fhRequeue (x.cookie.headD 0) t t
    else (x.paths.filter gs.contains).foldl (fun v g => v.txLeave g) u) s

/-- Paths that have joined FH contribute from the first symbol after the gap (R263): a run under way ends there, and the rest is presented anew on all paths. -/
def State.fhJoin (s : State) (gs : List Nat) : State :=
  (s.radio.txs.filter (fun x => x.src == 3 && x.start.isSome && gs.any (fun g => s.pathRole g == 4 && !x.paths.contains g))).foldl (fun u x =>
    match (((s.fhu.runs.find? (fun r => r.num == x.cookie.headD 0)).map (·.syms)).getD []).filterMap (fun e => if s.netTime ≤ e.2.1 then some e.2.1 else none) with
    | [] => u
    | b :: bs =>
      let t := bs.foldl min b
      (u.fhRequeue (x.cookie.headD 0) t t).radUpd (fun r => { r with txs := r.txs.map (fun y => if y.id == x.id then { y with dur := (t - x.start.getD t).toNat } else y) })) s

end Sys2Proof.Machine
end

