-- ==== Sys2Proof/Machine/Txa.lean ====
section
/-! DEFINITION. The Tixia modem (R267 to R289): channels, reception, checks and the counter table, downlinks, offset feedback. -/
namespace Sys2Proof.Machine

/-- The modem updated. -/
def State.txaUpd (s : State) (f : Txa → Txa) : State := { s with txa := f s.txa }

/-- Demodulator of channel `c`. -/
def State.demod (s : State) (c : Nat) : TxaDemod := (s.txa.demods[c]?).getD TxaDemod.reset
@[inherit_doc State.demod] def State.demodUpd (s : State) (c : Nat) (f : TxaDemod → TxaDemod) : State :=
  s.txaUpd (fun x => { x with demods := updAt x.demods c f })

/-! The channel plan (R267) -/

/-- CENTRE_KHZ, BW and FLAGS of a channel. -/
def chKhz (lp : Bytes) (c : Nat) : Nat := leAt lp (0x100 + 8 * c) 4
@[inherit_doc chKhz] def chBw (lp : Bytes) (c : Nat) : Nat := leAt lp (0x104 + 8 * c) 1
@[inherit_doc chKhz] def chFlag (lp : Bytes) (c i : Nat) : Bool := bitOf (leAt lp (0x105 + 8 * c) 1) i

/-- Bandwidth in Hz of a code. -/
def chHz (bw : Nat) : Nat := 62500 * 2 ^ bw

/-! Frames on air (R268 to R270) -/

/-- Symbol duration in ns. -/
def symNs (sf bw : Nat) : Nat := 2 ^ sf * (16000 / 2 ^ bw)

/-- Coded bits of `n` bits at a rate code. -/
def codedBits (rate n : Nat) : Nat := if rate = 0 then 2 * n else if rate = 1 then ceilDiv (3 * n) 2 else ceilDiv (4 * n) 3

/-- Symbols of preamble, marker, sync and header. -/
def headSyms (pre sf : Nat) : Nat := pre + 1 + ceilDiv 16 (sf - 1) + ceilDiv 60 (sf - 1)

/-- Payload symbols of a MAC frame of `len` bytes. -/
def paySyms (sf rate len : Nat) : Nat := 8 * ceilDiv (codedBits rate (8 * (len + 2) + 6)) (8 * (sf - 1))

/-- Duration of a frame in ns. -/
def txaAir (pre sf bw rate len : Nat) : Nat := (headSyms pre sf + paySyms sf rate len) * symNs sf bw

/-- CRC-8 of the header: polynomial 0x2F, initial value 0xFF (R269). -/
def crc8Bit : Nat → Nat → Nat
  | 0, c => c
  | n + 1, c => crc8Bit n (if 128 ≤ c then Nat.xor (2 * c % 256) 0x2F else 2 * c)
@[inherit_doc crc8Bit] def crc8 (l : List Nat) : Nat := l.foldl (fun c b => crc8Bit 8 (Nat.xor c b)) 0xFF

/-- Differing bits of two 16-bit words. -/
def bitDiff (a b : Nat) : Nat := (maskList (Nat.xor a b) 16).length

/-! Where the modem runs -/

/-- The modem runs (R288). -/
def State.txaOn (s : State) : Bool := s.active 4 && s.flag Fld.TXA_CFG.EN

/-- A channel is used by the plan and enabled. -/
def State.chUsed (s : State) (c : Nat) : Bool := decide (c < 16) && chBw s.linkPlan c != 0 && s.flag Fld.TXA_CH_CFG_W0.EN [c]

/-- A channel is searched (R271). -/
def State.chSearched (s : State) (c : Nat) : Bool := s.txaOn && s.chUsed c && chFlag s.linkPlan c 0

/-- A downlink is on the air. -/
def State.lrcSends (s : State) : Bool := s.radio.txs.any (fun t => t.role == 5 && t.start.isSome)

/-- The channel is served: searched, LRC holds paths, no downlink on the air (R283, R287). A reception goes on through a window on zeros (R286). -/
def State.chServed (s : State) (c : Nat) : Bool := s.chSearched c && !(s.rolePaths 5).isEmpty && !s.lrcSends

/-- The channel hears now: searched, some LRC path brings samples (R84, R107, R153, R287), no downlink on the air (R283). -/
def State.chHears (s : State) (c : Nat) : Bool := s.chSearched c && (s.rolePaths 5).any (s.rxLive ·) && !s.lrcSends

/-- A reception of channel `c` begins: its receive beam is used in every quadrant of the route (R127, R130), calibration changes of the LRC paths apply (R145). -/
def State.chBegins (s : State) (c : Nat) : State :=
  let s1 := match s.routeSlot 5 0 with
    | none => s
    | some n => (s.routeLive n).foldl (fun t q => t.beamsHear q n [s.get Fld.TXA_CH_CFG_W0.RX_BEAM [c]]) s
  (s1.rolePaths 5).foldl (fun t g => t.calRxStart g) s1

/-! Reception (R271 to R274) -/

/-- The computed end of a frame whose header gives `len` and `rate`. -/
def State.rxEnd (s : State) (c : Nat) (r : TxaRx) (len rate : Nat) : Int :=
  r.begun + txaAir (s.get Fld.TXA_DET_CFG.PRE_LEN) r.sf (chBw s.linkPlan c) rate len

/-- The demodulator searches again. -/
def State.demodIdle (s : State) (c : Nat) : State := s.demodUpd c (fun d => { d with st := 1, rx := none })

/-- A preamble is declared (R271 to R273): SEARCH takes it, in PROVISIONAL a stronger one replaces, in COMMITTED and ABSORB a much stronger
one captures; any other is remembered. -/
def State.txaDeclare (s : State) (c : Nat) (p : TxaRx) : State :=
  let d := s.demod c
  let keep := s.demodUpd c (fun e => { e with others := p :: e.others })
  match d.rx with
  | none => s.demodUpd c (fun e => { e with st := 2, rx := some p })
  | some r =>
    if d.st = 2 then
      if r.rssi + s.get Fld.TXA_DET_CFG.RESTART_MARGIN ≤ p.rssi then
        (s.demodUpd c (fun e => { e with rx := some { p with restarted := true, captured := r.captured }, others := r :: e.others })).inc .TXA_CNT_FALSE_DET
      else keep
    else if s.flag Fld.TXA_CFG.CAPTURE_EN ∧ r.rssi + s.get Fld.TXA_DET_CFG.CAPTURE_MARGIN ≤ p.rssi then
      (s.demodUpd c (fun e => { e with st := 2, rx := some { p with captured := true } })).inc .TXA_CNT_CAPTURE_LOST
    else keep

/-- A provisional frame fails (R272): the most recent other preamble within its last 8 symbol periods is re-acquired. -/
def State.txaFail (s : State) (c : Nat) : State :=
  let bw := chBw s.linkPlan c
  let s1 := s.inc .TXA_CNT_FALSE_DET
  let cap := ((s.demod c).rx.map (·.captured)).getD false
  let live := (s.demod c).others.filter (fun o => decide (s.now ≤ o.seen + 8 * symNs o.sf bw))
  match live with
  | [] => s1.demodUpd c (fun e => { e with st := 1, rx := none, others := [] })
  | o :: t => s1.demodUpd c (fun e => { e with st := 2, rx := some { o with restarted := true, captured := cap }, others := t })

/-- A downlink starts (R283): every frame under reception is abandoned. -/
def State.txaAbort (s : State) : State :=
  (List.range 16).foldl (fun t c =>
    if (t.demod c).rx.isSome then (t.demodIdle c).inc .TXA_CNT_RX_ABORT else t) s

/-- Every demodulator is back in SEARCH (R287). -/
def State.txaIdle (s : State) : State := s.txaUpd (fun x => { x with demods := List.replicate 16 TxaDemod.reset })

/-! The MAC frame (R275, R276) -/

/-- The device key under a root key (R276). -/
def deviceKey (root : Bytes) (dev : Nat) : Bytes :=
  aesCmac root ([1, 0x54, 0x58, 0x44, 0x4B, 0] ++ leBytes 4 dev ++ [0, 0x80]) 16

/-- The nonce of a frame from its first ten bytes and its length (R276). -/
def frameNonce (h : Bytes) (len : Nat) : Bytes := slice h 1 8 ++ slice h 0 1 ++ [b8 len] ++ slice h 9 1 ++ [0, 0]

/-- The MIC of a frame whose payload is plain text (R276). -/
def frameMic (key h payload : Bytes) (enc : Bool) : Bytes :=
  let n := frameNonce h (payload.length + 14)
  if enc then ccmTag key n h payload 4 else ccmTag key n (h ++ payload) [] 4

/-- The payload as it stands in the frame, or back (R276). -/
def frameText (key h payload : Bytes) (enc : Bool) : Bytes :=
  if enc then aesCtr 3 key (frameNonce h (payload.length + 14)) payload else payload

/-- The root key, while PK runs (R277). -/
def State.txaRoot (s : State) : Option Bytes × State :=
  if s.get Fld.TXA_KEY.SLOT = 0xFFFF ∨ s.fenced 5 ∨ ¬ s.running 5 then (none, s) else s.useKey 3 (s.get Fld.TXA_KEY.SLOT)

/-- A downlink's MAC frame (R281). -/
def txaFrame (root : Bytes) (dev fcnt port : Nat) (enc ack : Bool) (payload : Bytes) : Bytes :=
  let h := [b8 (2 + 4 * b2n enc + 8 * b2n ack)] ++ leBytes 4 dev ++ leBytes 4 fcnt ++ [b8 port]
  let k := deviceKey root dev
  h ++ frameText k h payload enc ++ frameMic k h payload enc

/-! Completions of the pending table (R282) -/

/-- A completion joins the queue. -/
def State.txaCpl (s : State) (c : TxaCpl) : State :=
  let s1 := s.txaUpd (fun x => { x with cpl := x.cpl ++ [c] })
  if s.txa.cpl.isEmpty then s1.raise (ev 4 15) else s1

/-- A pending entry completes and leaves the table. -/
def State.txaComplete (s : State) (idx win status : Nat) : State :=
  match s.txa.pend.find? (fun p => p.idx == idx) with
  | none => s
  | some p => (s.txaUpd (fun x => { x with pend := x.pend.filter (fun e => e.idx != idx) })).txaCpl ⟨idx, win, status, p.cookie⟩

/-- Every pending entry that `p` names completes without a window. -/
def State.txaFlush (s : State) (p : TxaPend → Bool) (status : Nat) : State :=
  (s.txa.pend.filter p).foldl (fun t e => t.txaComplete e.idx 0 status) s

/-- The table is full (R282). -/
def State.txaFull (s : State) : Bool := decide (256 ≤ s.txa.pend.length)

/-- A push (R282): the descriptor at a 64-byte-unit address and its payload. -/
def State.txaPush (s : State) (unit : Nat) : State :=
  let a := 64 * unit
  let d := s.bytes a 32
  let dev := leAt d 0 4
  let len := leAt d 8 1
  let idx := (firstBelow 256 (fun i => !s.txa.pend.any (fun p => p.idx == i))).getD 255
  if s.rangeCode (.engine 4 6) a 32 ≠ 0 ∨ 241 < len ∨ s.get Fld.TXA_CFG.MAX_LEN < len + 14 ∨ dev / 2 ^ 18 ≠ s.get Fld.TXA_CFG.NETID
      ∨ bits (leAt d 10 1) 7 1 ≠ 0 ∨ leAt d 11 1 ≠ 0 ∨ ¬ allZero (d.drop 20) then
    (s.capture 4 1 6 (.engine 4 6) 2 a).txaCpl ⟨idx, 0, 9, leAt d 16 4⟩
  else
    let s1 := s.txaFlush (fun p => p.dev == dev && !p.bound) 10
    let idx1 := (firstBelow 256 (fun i => !s1.txa.pend.any (fun p => p.idx == i))).getD 255
    s1.txaUpd (fun x => { x with pend := x.pend ++ [⟨idx1, dev, s.bytes (64 * leAt d 4 4) len, leAt d 9 1, bitOf (leAt d 10 1) 0,
      leAt d 12 4, leAt d 16 4, s.now, false⟩] })

/-! Scheduled downlinks (R281, R283, R286) -/

/-- A scheduled downlink of a channel overlaps an interval. -/
def State.dlOverlaps (s : State) (c : Nat) (t : Int) (dur : Nat) : Bool :=
  s.txa.sched.any (fun d => d.ch == c && decide (d.launch < t + dur ∧ t < d.launch + d.dur))

/-- A downlink launched before a booked window on LRC paths ends in it (R286). -/
def State.dlMeetsWindow (s : State) (t : Int) (dur : Nat) : Bool :=
  (List.range 4).any (fun q => match (s.cal q).run with
    | none => false
    | some r => match r.booked with
      | none => false
      | some w => r.paths.any (fun p => s.pathRole (16 * q + p) == 5) && decide (t < w ∧ w < t + dur))

/-- A downlink in window 2 (R281). -/
def State.dlSecond (s : State) (d : TxaDl) : TxaDl :=
  let c := if s.flag Fld.TXA_DL2_CFG.DL2_FIXED then s.get Fld.TXA_DL2_CFG.DL2_CH else d.upCh
  let sf := min 12 (d.upSf + s.get Fld.TXA_DL2_CFG.DL2_SF_STEP)
  let rate := s.get Fld.TXA_DL2_CFG.DL2_RATE
  { d with win := 2, ch := c, sf := sf, rate := rate, launch := d.ends + 1000000 * s.get Fld.TXA_DL_CFG.DL_DELAY2,
           dur := txaAir (s.get Fld.TXA_DET_CFG.PRE_LEN) sf (max 1 (chBw s.linkPlan c)) rate d.frame.length, shown := false }

/-- The downlink has failed for good (R281). -/
def State.dlFail (s : State) (d : TxaDl) (status : Nat) : State :=
  let s1 := (s.txaUpd (fun x => { x with sched := x.sched.filter (fun e => e.num != d.num) })).inc .TXA_CNT_DL_FAIL
  match d.entry with
  | some e => s1.txaComplete e d.win status
  | none => s1

/-- Window 1 fails with a status: window 2, where there is one; a failure in window 2 is final (R281, R283). -/
def State.dlNext (s : State) (d : TxaDl) (status : Nat) : State :=
  let s1 := s.txaUpd (fun x => { x with sched := x.sched.filter (fun e => e.num != d.num) })
  if d.win = 1 ∧ s.flag Fld.TXA_DL2_CFG.DL2_EN then
    let d2 := s.dlSecond d
    if s1.dlOverlaps d2.ch d2.launch d2.dur then s1.dlFail d2 11 else s1.txaUpd (fun x => { x with sched := x.sched ++ [d2] })
  else s1.dlFail d status

/-- A downlink is scheduled for an uplink (R281). -/
def State.dlSchedule (s : State) (c : Nat) (r : TxaRx) (ends cfo : Int) (entry : Option Nat) (frame : Bytes) : State :=
  let d : TxaDl := ⟨s.txa.next, entry, frame, c, r.sf, r.rate, cfo, ends, 1, c, r.sf, r.rate,
    ends + 1000000 * s.get Fld.TXA_DL_CFG.DL_DELAY1,
    txaAir (s.get Fld.TXA_DET_CFG.PRE_LEN) r.sf (max 1 (chBw s.linkPlan c)) r.rate frame.length, false⟩
  let s1 := s.txaUpd (fun x => { x with next := x.next + 1 })
  if s1.dlOverlaps c d.launch d.dur then s1.dlNext d 11
  else if s1.dlMeetsWindow d.launch d.dur then s1.dlNext d 1
  else s1.txaUpd (fun x => { x with sched := x.sched ++ [d] })

/-- A presented downlink ends with a status of R83. -/
def State.dlDone (s : State) (num status : Nat) : State :=
  match s.txa.sched.find? (fun d => d.num == num) with
  | none => s
  | some d =>
    if status = 0 then
      let s1 := (s.txaUpd (fun x => { x with sched := x.sched.filter (fun e => e.num != num) })).inc .TXA_CNT_DL_SENT
      match d.entry with
      | some e => s1.txaComplete e d.win 0
      | none => s1
    else if status = 5 then s.dlFail d 5
    else s.dlNext d status

/-- A downlink on the air is cut at a re-stack boundary (R287). -/
def State.dlCut (s : State) (num : Nat) : State :=
  match s.txa.sched.find? (fun d => d.num == num) with
  | none => s
  | some d =>
    let s1 := (s.txaUpd (fun x => { x with sched := x.sched.filter (fun e => e.num != num) })).inc .TXA_CNT_RESTACK_DISC
    match d.entry with
    | some e => s1.txaComplete e d.win 8
    | none => s1

/-! Delivery (R277, R278, R280) -/

/-- Free entries of the receive ring. -/
def State.txaSize (s : State) : Nat := 2 ^ s.get Fld.TXA_RX_CFG.SIZE_LOG2
@[inherit_doc State.txaSize] def State.txaRoom (s : State) : Bool :=
  s.flag Fld.TXA_RX_CFG.EN && (s.get Fld.TXA_RX_TAIL.TAIL + 1) % s.txaSize != s.get Fld.TXA_RX_HEAD.HEAD % s.txaSize

/-- An event raised once a second: 0 TXA_REPLAY, 1 TXA_MIC_FAIL. -/
def State.txaMark (s : State) (i : Nat) : State :=
  let f := s.netTime / 1000000000
  let s1 := s.txaUpd (fun x => { x with marks := x.marks.set i (some f) })
  if (s.txa.marks[i]?).getD none = some f then s1 else s1.raise (ev 4 (16 + i))

/-- An accepted frame goes into the receive ring (R280). -/
def State.txaDeliver (s : State) (c : Nat) (r : TxaRx) (f payload : Bytes) (ends snr cfo : Int) (attached : Bool) : State :=
  let enc := bitOf (leAt f 0 1) 2
  let status := leBytes 4 (r.begun % 2 ^ 32).toNat ++ leBytes 4 (ends % 2 ^ 32).toNat ++ slice f 1 8 ++ [b8 f.length, b8 c, b8 (r.sf + 16 * r.rate),
    b8 (leAt f 0 1 % 4 + 2 * b2n enc + 4 * b2n r.restarted + 8 * b2n r.captured + 16 * b2n attached)] ++ leBytes 2 (unsigned 16 r.rssi)
    ++ [b8 (unsigned 8 snr), 0] ++ leBytes 4 (unsigned 32 cfo) ++ List.replicate 36 0
  let n := s.get Fld.TXA_RX_TAIL.TAIL % s.txaSize
  let was := n == s.get Fld.TXA_RX_HEAD.HEAD % s.txaSize
  let s1 := s.memPut (64 * (s.reg .TXA_RX_BASE).toNat + 320 * n) (status ++ slice (slice f 0 10 ++ payload ++ slice f (f.length - 4) 4) 0 256)
  let s2 := (s1.set Fld.TXA_RX_TAIL.TAIL [] ((n + 1) % s.txaSize)).inc .TXA_CNT_RX_OK
  if was then s2.raise (ev 4 13) else s2

/-- A frame is dropped because the ring is full. -/
def State.txaDrop (s : State) : State :=
  let s1 := (s.inc .TXA_CNT_RX_DROP).txaUpd (fun x => { x with armed := false })
  if s.txa.armed then s1.raise (ev 4 14) else s1

/-- The CFO of an accepted uplink joins the mean (R284); past FB_THR a correction waits for its instant. The mean's rounding is free
(notes/assumptions/22.md). -/
def State.txaCfo (s : State) (cfo : Int) : State :=
  let n := max 1 (s.get Fld.TXA_FB_CFG.FB_N)
  let l := (cfo :: s.txa.cfos).take n
  let sum := l.foldl (· + ·) 0
  let mean := sum / (n : Int) + (if sum % (n : Int) = 0 then 0 else b2n (Config.tieUp sum n))
  let s1 := s.txaUpd (fun x => { x with cfos := l })
  if s.flag Fld.TXA_FB_CFG.FB_EN ∧ ¬ s.flag Fld.TXA_FB_STAT.BLOCKED ∧ s.txa.due.isNone ∧ l.length = n
      ∧ 10 * s.get Fld.TXA_FB_CFG.FB_THR < mean.natAbs then
    s1.txaUpd (fun x => { x with due := some (signed 18 (s.get Fld.TXA_FB_STAT.OFFSET) + mean, s.now) })
  else s1

/-- The checks of R277 and R278 on a committed frame of channel `c`, then delivery and a downlink. `mram` says that the write of LAST
succeeds. -/
def State.txaCheck (s : State) (c : Nat) (r : TxaRx) (crc : Bool) (f : Bytes) (ends snr cfo : Int) (mram : Bool) : State :=
  let t := leAt f 0 1
  let dev := leAt f 1 4
  let fc := leAt f 5 4
  let n := f.length - 14
  let h := f.take 10
  let enc := bitOf t 2
  if ¬ crc ∨ f.length < 14 ∨ f.length ≠ r.len then s.inc .TXA_CNT_CRC_FAIL
  else if 2 ≤ t % 4 ∨ 16 ≤ t then s.inc .TXA_CNT_CRC_FAIL
  else if dev / 2 ^ 18 ≠ s.get Fld.TXA_CFG.NETID then s.inc .TXA_CNT_NETID
  else if ¬ s.txaRoom then s.txaDrop
  else match s.txaRoot with
    | (none, s1) => (s1.inc .TXA_CNT_MIC_FAIL).txaMark 1
    | (some root, _) =>
      let k := deviceKey root dev
      let payload := frameText k h (slice f 10 n) enc
      if frameMic k h payload enc ≠ slice f (f.length - 4) 4 then (s.inc .TXA_CNT_MIC_FAIL).txaMark 1
      else
        let i := dev % 2 ^ 18
        let last := (sget (fun _ => (0 : Word)) s.txa.ctr i).toNat
        let ack := t % 4 == 1
        let bare := txaFrame root dev fc 0 false true []
        if last < fc then
          if ¬ mram then s.capture 4 1 6 (.engine 4 6) 4 (Reg.addr .TXA_CTR_DATA [])
          else
            let p := s.txa.pend.find? (fun e => e.dev == dev && !e.bound)
            let s1 := s.txaUpd (fun x => { x with ctr := sset (fun _ => (0 : Word)) x.ctr i (w32 fc) })
            let s2 := (s1.txaDeliver c r f payload ends snr cfo p.isSome).txaCfo cfo
            match p with
            | some e => (s2.txaUpd (fun x => { x with pend := x.pend.map (fun y => if y.idx == e.idx then { y with bound := true } else y) })).dlSchedule
                c r ends cfo (some e.idx) (txaFrame root dev fc e.port e.enc ack e.data)
            | none => if ack then s2.dlSchedule c r ends cfo none bare else s2
        else if fc = last ∧ last ≠ 0 then
          if ack then (s.inc .TXA_CNT_DUP_ACKED).dlSchedule c r ends cfo none bare else s
        else (s.inc .TXA_CNT_REPLAY).txaMark 0

/-! Offset feedback (R284) -/

/-- LOs that serve LRC paths, by quadrant. -/
def State.lrcLos (s : State) : List (Nat × Nat) :=
  ((List.range 4).map (fun q => ((List.range 2).filter (fun k => (s.loPaths q k).any (fun g => s.pathRole g == 5))).map (fun k => (q, k)))).flatten

/-- A correction is written into SYN_FINE of every LO that serves LRC paths; an LO that refuses blocks feedback. -/
def State.txaWriteFine (s : State) (off : Int) : State :=
  s.lrcLos.foldl (fun t e =>
    if t.fineOk e.1 e.2 then t.set Fld.SYN_FINE.OFFSET [e.1, e.2] (unsigned 18 off)
    else t.set Fld.TXA_FB_STAT.BLOCKED [] 1) s

/-- The waiting correction is written, clamped. -/
def State.txaCorrect (s : State) (off : Int) : State :=
  let o := clampI (-100000) 100000 off
  let s1 := (s.txaUpd (fun x => { x with due := none, cfos := [] })).sets []
    [(Fld.TXA_FB_STAT.VALID, 1), (Fld.TXA_FB_STAT.OFFSET, unsigned 18 o)]
  let s2 := if o ≠ off then (s1.set Fld.TXA_FB_STAT.LIMIT [] 1).raise (ev 4 18) else s1
  s2.txaWriteFine o

/-- No channel is in COMMITTED, ABSORB or TX. -/
def State.txaQuiet (s : State) : Bool := !s.lrcSends && s.txa.demods.all (fun d => d.st != 3 && d.st != 4 && d.st != 5)

/-! Re-stacks and modes (R287, R288) -/

/-- At a re-stack boundary: without LRC paths nothing is heard; under RETURN pending descriptors complete RESTACKED. -/
def State.txaRestack (s : State) (policy : Nat) : State :=
  let s1 := if (s.rolePaths 5).isEmpty then s.txaIdle else s
  if policy = 1 then s1.txaFlush (fun p => !p.bound) 8 else s1

/-- After a re-stack gap the correction is written again and feedback is no longer blocked. -/
def State.txaRestackEnd (s : State) : State :=
  let s1 := s.set Fld.TXA_FB_STAT.BLOCKED [] 0
  if s.active 4 ∧ s.flag Fld.TXA_FB_CFG.FB_EN then s1.txaWriteFine (signed 18 (s.get Fld.TXA_FB_STAT.OFFSET)) else s1

/-- BB is fenced or off: the counter table is kept (R287, R288). -/
def State.txaLost (s : State) : State := s.txaUpd (fun x => { Txa.reset with ctr := x.ctr })

/-! Registers of chapter 9 -/

/-- Values and conditions that the modem's registers let through. -/
def okTxa (r : Reg) (ix : List Nat) (v : Word) (_ : Req) (s : State) : Bool :=
  match r, ix with
  | .TXA_CFG, _ => decide (14 ≤ wbits v 7 0)
  | .TXA_DET_CFG, _ => decide (6 ≤ wbits v 31 24 ∧ wbits v 31 24 ≤ 64 ∧ wbits v 23 20 ≤ 4)
  | .TXA_DL_CFG, _ => decide (wbits v 31 16 ≠ 0 ∧ wbits v 31 16 < wbits v 15 0)
  | .TXA_DL2_CFG, _ => decide (wbits v 10 8 ≤ 5 ∧ wbits v 1 0 ≠ 3)
  | .TXA_CH_CFG_W0, [c] => wbits v 31 31 == 0 || chBw s.linkPlan c != 0
  | .TXA_RX_CFG, _ => sizeOk s Fld.TXA_RX_CFG.EN Fld.TXA_RX_CFG.SIZE_LOG2 [] v 12
  | _, _ => true

/-- Writes held for room in the pending table are performed while there is room. -/
def txaHeld (h : Held) : Bool := h.addr == Reg.addr .TXA_DL_PUSH []
@[inherit_doc txaHeld] def txaWr (v : Word) (_ : Req) (s : State) : State := s.txaPush v.toNat
@[inherit_doc txaHeld] def State.txaDrain : Nat → State → State
  | 0, s => s
  | n + 1, s => if s.held.any txaHeld && !s.txaFull then State.txaDrain n (s.unhold txaHeld txaWr) else s

/-- Performed writes of the modem's registers. -/
def wrTxa (r : Reg) (ix : List Nat) (v : Word) (rq : Req) (s : State) : State :=
  match r with
  | .TXA_DL_PUSH => s.txaPush v.toNat
  | .TXA_CTR_DATA => s.txaUpd (fun x => { x with ctr := sset (fun _ => (0 : Word)) x.ctr (s.get Fld.TXA_CTR_SEL.INDEX) v })
  | .TXA_RX_HEAD =>
    let s1 := storeWord r ix v rq s
    if s1.get Fld.TXA_RX_HEAD.HEAD % s1.txaSize = s1.get Fld.TXA_RX_TAIL.TAIL % s1.txaSize then s1.txaUpd (fun x => { x with armed := true }) else s1
  | .TXA_CFG =>
    let s1 := storeWord r ix v rq s
    if wbits v 31 31 = 0 then s1.txaIdle else s1
  | .TXA_CH_CFG_W0 =>
    let s1 := storeWord r ix v rq s
    match ix with
    | [c] => if wbits v 31 31 = 0 then s1.demodUpd c (fun _ => TxaDemod.reset) else s1
    | _ => s1
  | _ => storeWord r ix v rq s

/-- TXA_CH_STAT as it reads: the RSSI in whole dBm, whose rounding is free (notes/assumptions/22.md). -/
def State.chStat (s : State) (c : Nat) : Word :=
  let d := s.demod c
  let st := if s.chSearched c || d.st == 5 then d.st else 0
  match d.rx with
  | some r => w32 (st * 2 ^ 29 + r.sf * 2 ^ 25 + unsigned 8 (r.rssi / 4 + (if r.rssi % 4 = 0 then 0 else b2n (Config.tieUp r.rssi 2))) * 2 ^ 16)
  | none => w32 (st * 2 ^ 29)

/-- A read of TXA_DL_CPL_POP (R26). -/
def State.txaPop (s : State) : Word × State :=
  match s.txa.cpl with
  | [] => (0x80FF0000, s)
  | c :: t => (w32 (c.tag * 2 ^ 16 + c.win * 2 ^ 4 + c.status),
      (s.txaUpd (fun x => { x with cpl := t })).setReg .TXA_DL_CPL_INFO [] (w32 c.cookie))

/-- Performed reads of the modem's registers. -/
def rdTxa (r : Reg) (ix : List Nat) (rq : Req) (s : State) : Word × State :=
  match r, ix with
  | .TXA_CH_STAT, [c] => (s.chStat c, s)
  | .TXA_DL_CPL_POP, _ => s.txaPop
  | .TXA_CTR_DATA, _ => (sget (fun _ => (0 : Word)) s.txa.ctr (s.get Fld.TXA_CTR_SEL.INDEX), s)
  | _, _ => loadWord r ix rq s

/-! The rows -/

/-- A preamble as its declaration gives it. -/
def State.txaPre (s : State) (sf age : Nat) (rssi : Int) : TxaRx := ⟨sf, rssi, s.netTime - age, s.now, false, false, 0, 0, 0⟩

/-- LRC_PREAMBLE_DETECT (R271, R272): a preamble is declared on channel `c`. -/
def execLrcPreambleDetect (c sf age : Nat) (rssi : Int) (s : State) : Host.Outcome State Fault Refusal :=
  .next (if s.chHears c ∧ 7 ≤ sf ∧ sf ≤ 12 ∧ bitOf (s.get Fld.TXA_CH_CFG_W0.SF_MASK [c]) (sf - 7) then
      (s.chBegins c).txaDeclare c (s.txaPre sf age rssi) else s)

/-- LRC_HEADER (R272, R274): the sync word and the header's three bytes are decoded. A reserved value in a header that passes its CRC
fails it (DESIGN CHOICE, notes/assumptions/49.md). -/
def execLrcHeader (c sync len ctl crc : Nat) (s : State) : Host.Outcome State Fault Refusal :=
  .next (match (s.demod c).rx with
    | none => s
    | some r =>
      if (s.demod c).st ≠ 2 ∨ ¬ s.chServed c then s
      else if s.get Fld.TXA_DET_CFG.SYNC_TOL < bitDiff (sync % 65536) (s.get Fld.TXA_SYNC.SYNC_WORD) then s.txaFail c
      else if crc ≠ crc8 [len % 256, ctl % 256] ∨ ctl % 4 = 3 ∨ 4 ≤ ctl % 256 then (s.inc .TXA_CNT_HDR_FAIL).txaFail c
      else
        let big := decide (s.get Fld.TXA_CFG.MAX_LEN < len % 256)
        let s1 := s.demodUpd c (fun d => { d with st := if big then 4 else 3,
                                                  rx := some { r with len := len % 256, rate := ctl % 4, ends := s.rxEnd c r (len % 256) (ctl % 4) } })
        if big then s1.inc .TXA_CNT_OVERSIZE else s1)

/-- LRC_CAPTURE (R273): a much stronger preamble abandons the current frame. -/
def execLrcCapture (c sf age : Nat) (rssi : Int) (s : State) : Host.Outcome State Fault Refusal :=
  .next (match (s.demod c).rx with
    | none => s
    | some r =>
      if s.chHears c ∧ 7 ≤ sf ∧ sf ≤ 12 ∧ bitOf (s.get Fld.TXA_CH_CFG_W0.SF_MASK [c]) (sf - 7) ∧ (s.demod c).st ≠ 2 ∧ s.flag Fld.TXA_CFG.CAPTURE_EN
          ∧ r.rssi + s.get Fld.TXA_DET_CFG.CAPTURE_MARGIN ≤ rssi then
        (s.chBegins c).txaDeclare c (s.txaPre sf age rssi)
      else s)

/-- LRC_FRAME_END (R271, R274, R277 to R280, R284): the frame of channel `c` ends `age` ns ago with the MAC frame `data`; `crc` says
whether CRC-16 passes, `mram` whether MRAM takes the counter. -/
def execLrcFrameEnd (c age : Nat) (crc : Bool) (data : Bytes) (snr cfo : Int) (mram : Bool) (s : State) : Host.Outcome State Fault Refusal :=
  .next (match (s.demod c).rx with
    | none => s
    | some r =>
      if s.netTime < r.ends ∨ ((s.demod c).st ≠ 3 ∧ (s.demod c).st ≠ 4) then s
      else if (s.demod c).st = 4 then s.demodIdle c
      else ((s.demodIdle c).txaCheck c r crc data (s.netTime - age) snr cfo mram).txaDrain 256)

/-- TXA_DL_PUSH (R282): a write queues a downlink; it is held while the table is full. -/
def execTxaDlPush (rq : Req) (v : Word) (s : State) : Host.Outcome State Fault Refusal :=
  .next (writeOrHold rq (Reg.addr .TXA_DL_PUSH []) v s.txaFull okTxa wrTxa s)

/-- TXA_DL_CPL_POP (R26, R282). -/
def execTxaDlCplPop (rq : Req) (s : State) : Host.Outcome State Fault Refusal :=
  .next (readReg rq (Reg.addr .TXA_DL_CPL_POP []) 4 readAny rdTxa s)

/-- EXPIRED (R282): the LIFETIME of the pending entry `i` has passed before its device was heard. -/
def execTxaDlExpired (i : Nat) (s : State) : Host.Outcome State Fault Refusal :=
  .next (match s.txa.pend.find? (fun p => p.idx == i) with
    | none => s
    | some p =>
      if s.txaOn ∧ ¬ p.bound ∧ p.life ≠ 0 ∧ p.since + 1000000 * p.life ≤ s.now then (s.txaComplete i 0 6).txaDrain 256 else s)

/-- TXA_CTR_DATA (R279): a write of the selected entry; a host may not. -/
def execTxaCtrData (rq : Req) (v : Word) (s : State) : Host.Outcome State Fault Refusal :=
  .next (writeReg rq (Reg.addr .TXA_CTR_DATA []) 4 v okTxa wrTxa s)

/-- OFFSET_FEEDBACK_WRITE (R284): no channel is in COMMITTED, ABSORB or TX. -/
def execOffsetFeedbackWrite (s : State) : Host.Outcome State Fault Refusal :=
  .next (match s.txa.due with
    | some d => if s.txaOn ∧ s.txaQuiet then s.txaCorrect d.1 else s
    | none => s)

/-- FB_DEFER (R284): FB_DEFER (0 behaves as 1) has passed without such an instant. -/
def execFbDefer (s : State) : Host.Outcome State Fault Refusal :=
  .next (match s.txa.due with
    | some d =>
      if s.txaOn ∧ d.2 + 1000000000 * max 1 (s.get Fld.TXA_FB_CFG.FB_DEFER) ≤ s.now then (s.txaCorrect d.1).inc .TXA_CNT_FB_FORCED else s
    | none => s)

end Sys2Proof.Machine
end

