-- ==== Sys2Proof/Machine/Air.lean ====
section
/-! DEFINITION. Transmissions: their gates, start, end and status (R81 to R83, R90), the regulatory guard (R98 to R104), lost
locks and references (R84, R85), coexistence (R95 to R97), and how each source presents its transmissions (R191, R234, R257,
R281). -/
namespace Sys2Proof.Machine

/-! Decibels in whole numbers (R102) -/

/-- The units of 0.005 dB in a power ratio of `x` / 10^12, rounded down (within 10^-8 dB, notes/assumptions/58.md). -/
def dbLog (x : Nat) : Nat :=
  (dbStep.zipIdx.reverse.foldl (fun (a : Nat × Nat) e =>
    let y := a.1 * e.1 / 10 ^ 12
    if y ≤ x + x / 10 ^ 9 then (y, a.2 + 2 ^ e.2) else a) (10 ^ 12, 0)).2

/-- 0.01 dB from 0.005 dB: an odd count rounds either way (notes/assumptions/58.md). -/
def dbRound (n : Nat) : Nat := n / 2 + (if n % 2 = 1 then b2n (Config.tieUp n 1) else 0)

/-- Total in 0.01 dBm of powers in 0.01 dBm, taken between -400 and 200 dBm. -/
def dbSum (l : List Int) : Int :=
  dbRound (dbLog ((l.map (fun p => dbPow (2 * (clampI 0 60000 (p + 40000)).toNat))).sum)) - 40000

/-- 10·log10 of a count, and of a bandwidth in Hz in MHz, in 0.01 dB. -/
def dbCount (n : Nat) : Int := dbRound (dbLog (n * 10 ^ 12))
@[inherit_doc dbCount] def dbMhz (hz : Nat) : Int := dbRound (dbLog (hz * 10 ^ 9)) - 3000

/-- An excess in 0.01 dB as a backoff in 0.25 dB, rounded up; none when there is no excess. -/
def dbBack (x : Int) : Nat := ceilDiv x.toNat 25

/-! The regulatory guard (R98 to R104) -/

/-- A rule's band holds a carrier and its roles a role (R101). -/
def ruleHolds (r : Bytes) (role hz bw : Nat) : Bool :=
  decide (2000 * leAt r 0 4 + bw ≤ 2 * hz ∧ 2 * hz + bw ≤ 2000 * leAt r 4 4) && bitOf (leAt r 22 1) role

/-- The rules that a carrier qualifies under (R101). -/
def State.rulesFor (s : State) (role hz bw : Nat) : List Bytes :=
  let granted := s.grants.any (fun g => g.covers hz bw)
  let l := s.lockRules.filter (fun r => ruleHolds r role hz bw && (!ruleFlag r 1 || granted))
  if l.any (ruleFlag · 1) then l.filter (!ruleFlag · 2) else l

/-- Smallest and largest of a list with a first element. -/
def minI (l : List Int) (d : Int) : Int := l.foldl min (l.headD d)
@[inherit_doc minI] def maxI (l : List Int) (d : Int) : Int := l.foldl max (l.headD d)

/-- Every DFS channel of a carrier that is not punctured is AVAILABLE to the guard (R104, R200): on the link of the role, or for
another role on some link (notes/assumptions/58.md). `punct` is the union of R172. -/
def State.dfsClear (s : State) (role hz bw punct : Nat) : Bool :=
  (List.range 16).all (fun i =>
    let c := (if i < 4 then 5260000 + 20000 * i else 5500000 + 20000 * (i - 4)) * 1000
    let meets := decide (2 * hz < bw + 2 * c + 20000000 ∧ 2 * c < 2 * hz + bw + 20000000)
    let good := fun (l : Nat) => s.flag Fld.PHY_DFS_CFG.LOCK [l] && s.dfsState l i == 2
    !meets || (if 1 ≤ role ∧ role ≤ 3 then
        good (role - 1) || (List.range 16).any (fun k => dfsIndex (s.subKhz (role - 1) k) == some i && bitOf punct k)
      else (List.range 3).any good))

/-- The Tixia channel that a sub-GHz transmission is charged to (R103). -/
def State.dutyCh (s : State) (t : Tx) : Nat :=
  if t.role = 5 then t.car
  else ((List.range 16).find? (fun c => t.bands.any (fun b => chBw s.linkPlan c != 0
    && decide (2 * b.1 < b.2 + 2000 * chKhz s.linkPlan c + chHz (chBw s.linkPlan c) ∧ 2000 * chKhz s.linkPlan c < 2 * b.1 + b.2 + chHz (chBw s.linkPlan c))))).getD 0

/-- Air time of a channel's window in ns. -/
def State.dutySum (s : State) (c : Nat) : Nat := ((s.radio.duty[c]?).getD []).sum

/-- The duty limits of R103: the length within DWELL_MS, the window's total within DUTY × 0.36 s. -/
def State.dutyOk (s : State) (t : Tx) (rs : List Bytes) : Bool :=
  rs.all (fun r => (leAt r 20 2 == 0 || decide (t.dur ≤ leAt r 20 2 * 1000000))
    && (leAt r 18 2 == 10000 || decide (s.dutySum (s.dutyCh t) + t.dur ≤ leAt r 18 2 * 360000000)))

/-- The guard's judgement of a transmission on paths of nominal powers in 0.01 dBm (R101 to R104): the backoff of each path in
0.25 dB, or none when it refuses. -/
def State.guard (s : State) (t : Tx) (ps : List (Nat × Int)) : Option (List (Nat × Nat)) :=
  let each := t.bands.map (fun b => s.rulesFor t.role b.1 b.2)
  let rs := each.flatten
  if ¬ s.lockOn ∨ rs.isEmpty ∨ each.any (·.isEmpty) then none
  else if rs.any (ruleFlag · 0) ∧ ¬ t.bands.all (fun b => s.dfsClear t.role b.1 b.2 t.punct) then none
  else if ¬ s.dutyOk t (rs.filter (ruleFlag · 3)) then none
  else
    let fem : Int := maxI (rs.map (fun r => (leAt r 16 1 : Int))) 0
    let ant : Int := maxI (rs.map (fun r => (leAt r 14 1 : Int))) 0
    let cap : Int := minI (rs.map (fun r => (leAt r 15 1 : Int))) 0
    let pmax := minI (rs.map (fun r => signed 16 (leAt r 8 2))) 0
    let gs := if rs.any (ruleFlag · 1) then s.grants.filter (fun g => t.bands.any (fun b => g.covers b.1 b.2)) else []
    let eirps := rs.map (fun r => signed 16 (leAt r 10 2)) ++ gs.map (·.eirp)
    let psds := (rs.filter (fun r => leAt r 12 2 != 0x8000)).map (fun r => signed 16 (leAt r 12 2)) ++ gs.map (·.psd)
    let one := ps.map (fun e => (e.1, e.2 + 25 * fem, dbBack (e.2 + 25 * fem - 25 * pmax)))
    let eirp := dbSum (one.map (fun e => e.2.1 - 25 * (e.2.2 : Int))) + 25 * ant + min (dbCount ps.length) (25 * cap)
    let dens := eirp - dbMhz ((t.bands.map (·.2)).sum)
    let excess := max (eirp - 25 * minI eirps 0) (if psds.isEmpty then 0 else dens - 25 * minI psds 0)
    let all := dbBack excess
    let out := one.map (fun e => (e.1, e.2.2 + all))
    if out.any (fun e => decide (127 < e.2)) then none else some out

/-! The access controller takes a status back (R191, R233, R234) -/

/-- Whether a frame of a PPDU that was sent needs no answer: group-addressed, beacon, NO_ACK (R233). -/
def frameBare (f : WacFrame) : Bool := f.sid == 0xFFFF || f.kind == 2 || (f.kind == 1 && bitOf f.flags 1)

/-- PPDU `num` of link `l` has been sent: a trigger is answered from now on (R180); a CTS-to-self covers the booked windows (R237); of a PPDU with frames, those that need no
answer complete, the others wait for one. -/
def State.ppduSent (s : State) (l : Nat) (p : WacPpdu) : State :=
  match p.kind with
  | 3 | 4 => s.phyUpd l (fun x => { x with trigger := p.users.map (fun u => s.wfld 0 u.1 2 2 % 2048) })
  | 5 =>
    let ends := ((List.range 4).filter (fun q => (s.linkPaths l).any (fun g => g / 16 == q))).filterMap (fun q =>
      (s.cal q).run.bind (fun r => r.booked.map (fun w => w + 1000 * (r.durUs : Int))))
    s.wlinkUpd l (fun x => { x with nav := ends.foldl max x.nav })
  | 6 | 7 | 8 => s
  | _ =>
    let s1 := s.sentLapse l
    let fs := s1.wac.frames.filter (fun f => f.inTx == some p.num)
    let s2 := (fs.filter frameBare).foldl (fun t f => t.frameEnd f l 0) s1
    let rest := (fs.filter (fun f => !frameBare f)).map (·.num)
    if rest.isEmpty then s2.twtEosp (p.users.map (·.1)) else s2.wlinkUpd l (fun x => { x with sent := some { p with frames := rest } })

/-- A PPDU ends with a status of R83 (R234): software's frame bound to a launch completes with it; GUARD counts as a retry, another
status puts a frame back at its place in the queue. -/
def State.ppduStatus (s : State) (l num status : Nat) : State :=
  match (s.wlink l).due.find? (fun p => p.num == num) with
  | none => s
  | some p =>
    let s1 := s.wlinkUpd l (fun x => { x with due := x.due.filter (fun e => e.num != num),
                                              txop := if x.txop.any (fun e => e.2 == 0 && p.launch.isNone && p.kind != 6) then none else x.txop })
    if status = 0 then s1.ppduSent l p
    else (s1.wac.frames.filter (fun f => f.inTx == some num)).foldl (fun t f =>
      if f.launch.isSome then t.frameEnd f l status else if status = 4 then t.frameRetry l f else t.framePut l f 0) s1

/-- What the PHY sends for a PPDU of the controller when it starts (R191): of a PPDU with frames each one's bytes, of another its kind, users, streams and the sequence numbers
that it acknowledges. Its airtime is charged (R217). -/
def State.ppduStart (s : State) (l num : Nat) (t : Int) (ns : Nat) : State :=
  match (s.wlink l).due.find? (fun p => p.num == num) with
  | none => s
  | some p =>
    let s1 := s.ppduCharge l p (ns / 1000)
    if p.kind < 3 then (s.wac.frames.filter (fun f => f.inTx == some num)).foldl (fun u f =>
      u.emit .psdu [l, p.kind, num, f.sid, f.tid, f.sn.getD 0, p.rate] (s.framePsdu l p.rate t f)) s1
    else s1.emit .psdu ([l, p.kind, num, p.tid, p.rate] ++ p.users.map (·.1) ++ p.streams ++ p.acks)

/-! The end of a transmission (R83) -/

/-- The quadrant that counts a transmission: the lowest-numbered one involved. -/
def Tx.home (t : Tx) : Option Nat := match t.paths with
  | [] => none
  | g :: gs => some (gs.foldl min g / 16)

/-- Something counted or raised in the home quadrant of a transmission. -/
def State.atHome (s : State) (t : Tx) (f : Nat → State → State) : State := match t.home with
  | some q => f q s
  | none => s

/-- The source takes the status (R191, R257, R281). -/
def State.txReturn (s : State) (t : Tx) (status : Nat) : State :=
  let num := t.cookie.getLastD 0
  if t.src < 3 then
    let s1 := if t.start.isNone ∧ (status = 1 ∨ status = 3 ∨ status = 4) then s.inc .PHY_TX_NOSTART [t.src] else s
    (s1.ccaUpd t.src).ppduStatus t.src num status
  else if t.src = 3 then s.fhRunDone num status t.start.isSome
  else
    let s1 := if s.lrcSends then s else (List.range 16).foldl (fun u c =>
      if (u.demod c).st = 5 then u.demodUpd c (fun d => { d with st := 1 }) else u) s
    s1.dlDone num status

/-- A transmission leaves the gates with a status; one on the air ramps down, and its paths turn round to receive. A visit of one that ends early is abandoned, whichever
the status (DESIGN CHOICE, notes/assumptions/68.md). -/
def State.txFinish (s : State) (t : Tx) (status : Nat) : State :=
  let e := if status = 0 then t.startAt + t.dur else s.now
  let s1 := State.radUpd (if t.start.isNone then s else t.paths.foldl (fun u g => u.txRadiate t g e (status != 0)) s) (fun r =>
    { r with txs := r.txs.filter (fun u => u.id != t.id) })
  let s2 := if t.start.isNone then s1 else
    t.paths.foldl (fun u g => (u.pathUpd g (fun p => PathSt.txOff p e (t.tim (g / 16)))).calRxStart g) s1
  let s3 := if status = 0 then s2 else (List.range 4).foldl (fun u q =>
    if t.start.isSome then u.visitsAbandon q ((t.paths.filter (fun g => g / 16 == q)).map (· % 16)) else u) s2
  let s4 := if t.start.isNone ∧ (status = 1 ∨ status = 3) then s3.atHome t (fun q u => u.inc .FEN_CNT_LATE [q]) else s3
  let s5 := if status = 1 then s4.atHome t (fun q u => u.raise (ev q 3)) else s4
  s5.txReturn t status

/-- Every transmission that `p` names ends with a status. -/
def State.txsEnd (s : State) (p : Tx → Bool) (status : Nat) : State := (s.radio.txs.filter p).foldl (fun u t => u.txFinish t status) s

/-- A transmission on the air with a path of a list. -/
def Tx.uses (t : Tx) (p : Nat → Bool) : Bool := t.start.isSome && t.paths.any p

/-! Coexistence (R95 to R97) -/

/-- A service period of link `l` is in progress (R220). -/
def State.spRuns (s : State) (l : Nat) : Bool :=
  (s.wvalids 3).any (fun i => s.wfld 3 i 1 1 == l && (s.spAt i s.tsf).any (fun b => decide (s.tsf < b + s.wfld 3 i 0x10 4)))

/-- Affected path `g` is in an activity that quadrant `q` protects from port `n` (R95, R96). -/
def State.coexBusy (s : State) (n g : Nat) : Bool :=
  let m := s.get Fld.FEN_COEX_CFG.PROTECT [g / 16, n]
  s.radio.txs.any (fun t => t.paths.contains g && Nat.land t.prot m != 0 && (t.start.isSome || decide (t.launch ≤ s.netTime)))
    || (bitOf m 4 && decide (1 ≤ s.pathRole g ∧ s.pathRole g ≤ 3) && s.spRuns (s.pathRole g - 1))

/-- Paths of quadrant `q` that port `n` affects. -/
def State.coexPaths (s : State) (q n : Nat) : List Nat := ((List.range 16).map (16 * q + ·)).filter (s.coexHits n ·)

/-- A port updated. -/
def State.coexUpd (s : State) (n : Nat) (f : Coex → Coex) : State := s.radUpd (fun r => { r with coex := updAt r.coex n f })

/-- Quadrant `q` consents to port `n`: transmissions on its affected paths end with COEX. -/
def State.coexConsent (s : State) (q n : Nat) : State :=
  let ps := s.coexPaths q n
  let hit := fun (t : Tx) => t.uses ps.contains
  let k := (s.radio.txs.filter hit).length
  ((s.coexUpd n (fun c => { c with consent := c.consent.set q true })).incBy .FEN_CNT_COEX_PREEMPT [q] k).txsEnd hit 3

/-- Quadrant `q` decides on port `n` (R95): it consents at once with PRI=1, without a protected activity, or when MAX_DEFER is 0. -/
def State.coexDecide (s : State) (q n : Nat) : State :=
  let c := s.coexPort n
  if c.req ∧ ¬ c.stuck ∧ s.serving ∧ s.running q ∧ s.flag Fld.FEN_COEX_CFG.EN [q, n] ∧ (c.consent[q]?).getD false = false
      ∧ (c.pri ∨ s.get Fld.FEN_COEX_CFG.MAX_DEFER [q, n] = 0 ∨ ¬ (s.coexPaths q n).any (s.coexBusy n)) then s.coexConsent q n
  else s

/-- Every quadrant decides on every port; what one decision ends may let another go. -/
def State.coexSettle (s : State) : State :=
  (List.range 36).foldl (fun t i => t.coexDecide (i % 12 / 3) (i % 3)) s

/-- Gates of the paths that a port held open, unless another port holds them. -/
def State.coexOpen (s : State) (held : List Nat) : State := s.gateOpens (held.filter (fun g => !s.coexHeld g)) true

/-- The paths that coexistence holds now. -/
def State.coexAll (s : State) : List Nat := (List.range 64).filter (s.coexHeld ·)

/-- A port's request ends: its holds end. -/
def State.coexEnd (s : State) (n : Nat) (f : Coex → Coex) : State :=
  let held := s.coexAll
  (s.coexUpd n (fun c => { f c with consent := List.replicate 4 false })).coexOpen held

/-- COEX_REQ_RISE (R95, R96): port `n` raises REQ, with PRI and BND as they stand. -/
def execCoexReqRise (n : Nat) (pri bnd : Bool) (s : State) : Host.Outcome State Fault Refusal :=
  .next (if n < 3 ∧ ¬ (s.coexPort n).req then
      (s.coexUpd n (fun c => { c with req := true, pri := pri, bnd := bnd, reqAt := s.now })).coexSettle
    else s)

/-- COEX_REQ_FALL (R95): REQ falls, and GNT with it; what it held goes on. -/
def execCoexReqFall (n : Nat) (s : State) : Host.Outcome State Fault Refusal :=
  .next (if n < 3 ∧ (s.coexPort n).req then s.coexEnd n (fun c => { c with req := false, lowAt := s.now }) else s)

/-- MAX_DEFER (R95): MAX_DEFER after REQ rose quadrant `q` ends the protected activity and consents;
before it every quadrant decides anew. -/
def execMaxDefer (q n : Nat) (s : State) : Host.Outcome State Fault Refusal :=
  .next (let c := s.coexPort n
    if q < 4 ∧ n < 3 ∧ c.req ∧ ¬ c.stuck ∧ s.serving ∧ s.running q ∧ s.flag Fld.FEN_COEX_CFG.EN [q, n]
        ∧ (c.consent[q]?).getD false = false ∧ c.reqAt + s.get Fld.FEN_COEX_CFG.MAX_DEFER [q, n] * 100000 ≤ s.now then
      (s.coexConsent q n).coexSettle
    else s.coexSettle)

/-- COEX_FAULT (R97): REQ has been high for longer than the REQ_MAX of quadrant `q`: the port is ignored. -/
def execCoexFault (q n : Nat) (s : State) : Host.Outcome State Fault Refusal :=
  .next (let c := s.coexPort n
    let m := s.get Fld.FEN_COEX_CFG.REQ_MAX [q, n]
    if q < 4 ∧ n < 3 ∧ c.req ∧ ¬ c.stuck ∧ s.active q ∧ s.flag Fld.FEN_COEX_CFG.EN [q, n] ∧ m ≠ 0 ∧ c.reqAt + m * 10000000 < s.now then
      (s.coexEnd n (fun c => { c with stuck := true })).raise (ev q 8)
    else s)

/-- COEX_PORT_RETURN (R97): REQ has been low for 1 ms. -/
def execCoexPortReturn (n : Nat) (s : State) : Host.Outcome State Fault Refusal :=
  .next (let c := s.coexPort n
    if n < 3 ∧ c.stuck ∧ ¬ c.req ∧ c.lowAt + 1000000 ≤ s.now then s.coexUpd n (fun c => { c with stuck := false }) else s)

/-! Presenting a transmission (R82) -/

/-- A transmission is presented, its beams named (R125); a launch that is past completes with LATE at once. -/
def State.txPresent (s : State) (t : Tx) : State :=
  let u := { t with id := s.radio.nextTx }
  let s1 := (s.beamsName t.beams).radUpd (fun r => { r with nextTx := r.nextTx + 1, txs := r.txs ++ [u] })
  if t.launch < s.netTime then s1.txFinish u 1 else s1

/-- A transmission with nothing but its source. -/
def State.txNew (s : State) (src role : Nat) (cookie : List Nat) (launch : Int) (dur : Nat) : Tx :=
  { id := 0, src := src, role := role, car := 0, routes := [], beams := [], prot := 0, launch := launch, dur := dur, bands := [],
    paths := s.rolePaths role, cookie := cookie, start := none, startAt := 0, backoffs := [], retest := [], tims := [], vecs := [], qam4k := false,
    punct := 0, tdOnly := false }

/-- The band of a PPDU of link `l`, centre and bandwidth in Hz: for a rate, the part of the link of its bandwidth that holds the primary (PRESUMED, notes/assumptions/78.md);
for a WUR PPDU the primary 20 MHz, in whose middle its MC-OOK part lies (R193); else the whole link. -/
def State.ppduBand (s : State) (l : Nat) (p : WacPpdu) : Nat × Nat :=
  let n := if p.kind = 8 then 1 else if p.kind < 3 then 2 ^ min (bits p.rate 26 24) (linkBw s.linkPlan l) else 2 ^ linkBw s.linkPlan l
  (1000 * (linkCentre s.linkPlan l - linkKhz s.linkPlan l / 2 + 20000 * n * (s.primSub l / n) + 10000 * n), 20000000 * n)

/-- A PPDU of link `l` is handed to the PHY, which presents it (R191): the subchannels punctured are the union of R172; 4096-QAM is MCS 12 and 13 of EHT MU (R120). -/
def State.ppduPresent (s : State) (l : Nat) (p : WacPpdu) (launch : Int) (air : Nat) : State :=
  let r := (s.routeSlot (l + 1) 0).getD 0
  let beacon := s.wac.frames.any (fun f => f.kind == 2 && f.inTx == some p.num)
  s.txPresent { s.txNew l (l + 1) [l, p.num] (p.launch.getD launch) (1000 * (if p.air = 0 then air else p.air)) with
    routes := [r], beams := p.beams.map (fun b => (r, b)), bands := [s.ppduBand l p],
    prot := b2n (p.kind == 5 || p.kind == 6) + 2 * b2n beacon, punct := Nat.lor p.punct (s.get Fld.PHY_PUNCT.MASK [l]),
    qam4k := decide (p.kind < 3) && bits p.rate 7 0 == 8 && (bits p.rate 15 8 == 12 || bits p.rate 15 8 == 13),
    tdOnly := p.kind == 8 || (decide (p.kind < 3) && bits p.rate 7 0 == 0) }

/-- The PPDU has been handed over. -/
def State.ppduHanded (s : State) (l : Nat) (p : WacPpdu) : Bool := s.radio.txs.any (fun t => t.cookie == [l, p.num] && decide (t.src < 3))

/-- A PPDU may be handed over for a launch (R215, R220): it ends before every bar and the TXOP limit, serves inside a restricted SP only its members, and its beams are named LEAD
before it (R125). A response at SIFS belongs to no TXOP; its beams, and those of a PPDU bound to a launch, are named no earlier than it is handed over. -/
def State.ppduMay (s : State) (l : Nat) (p : WacPpdu) (launch : Int) (ns : Nat) : Bool :=
  s.ppduFits l launch ns p.launch.isSome
    && (p.launch.isSome || p.kind == 6
      || (decide (s.netTime + s.beamsLead (p.beams.map (fun b => ((s.routeSlot (l + 1) 0).getD 0, b))) ≤ launch)
        && (match (s.wlink l).txop with
          | some (_, e) => p.kind == 5 || e == 0 || decide (launch + ns ≤ e)
          | none => true)))
    && (decide (3 ≤ p.kind) || p.users.all (fun u => s.spServesAt l u.1 (launch / 1000).toNat || (u.1 == 0xFFFF && s.wac.frames.any (fun f => f.kind == 2 && f.inTx == some p.num))))

/-- A PPDU of the PHY's own making (R192, R193) joins those due and is handed over, when the bars let it. -/
def State.ppduExtra (s : State) (l : Nat) (p : WacPpdu) (launch : Int) : State :=
  if s.ppduMay l p launch (1000 * p.air) then ((s.ppduDue l p).wacUpd (fun w => { w with next := w.next + 1 })).ppduPresent l p launch p.air else s

/-- The puncturing of a request with that of the link is a pattern of R172 that leaves the primary in. -/
def State.punctFits (s : State) (l punct : Nat) : Bool :=
  let m := Nat.lor punct (s.get Fld.PHY_PUNCT.MASK [l])
  punctOk (linkBw s.linkPlan l) m && !bitOf m (s.primSub l)

/-- PPDU_TRANSMIT_REQUEST (R172, R191 to R193, R215, R216): the access controller hands the PHY the PPDU at place `i` of those due on link `l`, for a
launch (network time) unless it is bound to one; past the last one it schedules the next of a running TXOP first. One bound to a launch that a bar holds is LATE (DESIGN CHOICE,
notes/assumptions/79.md). An NDP has as many streams as PATHS allow, on virtual ports 0 to K - 1; a WUR PPDU goes out at 2.4 or 5 GHz, on the beam of group-addressed frames. -/
def execPpduTransmitRequest (l : Nat) (r : PhyRequest) (launch : Int) (air punct : Nat) (s : State) : Host.Outcome State Fault Refusal :=
  .next (if l < 3 ∧ s.active 5 ∧ s.wlinkRun l ∧ s.punctFits l punct then
      match r with
      | .due i take =>
        let s1 := if (s.wlink l).due[i]?.isSome then s
          else match (s.wlink l).txop with
            | some (ac, e) => if e ≠ 0 ∧ launch + 1000 * air ≤ e ∧ (s.wlink l).due.all (·.launch.isSome) ∧ s.ppduFits l launch (1000 * air) false then
                s.schedule l ac air take punct else s
            | none => s
        (match (s1.wlink l).due[i]? with
        | some p =>
          let at_ := p.launch.getD launch
          if s1.ppduHanded l p then s1
          else if s1.ppduMay l p at_ (1000 * (if p.air = 0 then air else p.air)) then s1.ppduPresent l { p with punct := Nat.lor p.punct punct } at_ air
          else if p.launch.isSome then s1.ppduStatus l p.num 1
          else s1
        | none => s1)
      | .ndp k =>
        if 1 ≤ k ∧ k ≤ 16 ∧ k ≤ (s.linkPaths l).length then
          s.ppduExtra l { WacPpdu.new 7 s.wac.next 3 air with streams := [k], beams := (List.range k).map (32752 + ·), punct := punct } launch
        else s
      | .wur hdr =>
        if linkBand s.linkPlan l ≤ 1 then
          s.ppduExtra l { WacPpdu.new 8 s.wac.next 3 air with
            streams := [1], beams := [s.wfld 5 (16 * l) 0x16 2], rate := if hdr then 2500 else 625, punct := punct } launch
        else s
    else s)

/-- DL_RUN (R257): the next run of downlink symbols is presented, with the first symbol's air time. It may be presented any time
ahead of it; what is accepted later is a run of its own (notes/assumptions/48.md). -/
def execDlRun (s : State) : Host.Outcome State Fault Refusal :=
  .next (if s.fhRuns then
      match s.fhNext with
      | none => s
      | some (t, e, cs) =>
        let num := s.fhu.nextRun
        let syms := (cs.map (fun c => (c.entry, c.t, c.ends))).eraseDups
        let rts := (cs.map (fun c => s.eaRoute c.entry)).eraseDups
        let cars := (cs.map (fun c => s.eaCar c.entry)).eraseDups
        let s1 := s.fhUpd (fun x => { x with nextRun := num + 1, runs := x.runs ++ [⟨num, syms⟩],
                                             secs := x.secs.map (fun c => if cs.contains c then { c with shown := true } else c) })
        s1.txPresent { s1.txNew 3 4 [num] t (e - t).toNat with
          routes := rts, beams := (cs.map (fun c => (s.eaRoute c.entry, c.beam))).eraseDups,
          bands := cars.map (fun c => (1000 * fhCentre s.linkPlan c, 1000000 * fhBw s.linkPlan c)), prot := 4 }
    else s)

/-- A scheduled downlink is tried in a window (R281): a channel that the plan does not give downlinks, or that is off, is GUARD; with the
modem off, ABORT_STOP; one that would run into a booked window goes to window 2 (R286). -/
def State.dlWindow (s : State) (win num : Nat) : State :=
  match s.txa.sched.find? (fun d => d.num == num && d.win == win && !d.shown) with
  | none => s
  | some d =>
    if ¬ s.txaOn then s.dlDone num 5
    else if ¬ s.chUsed d.ch ∨ ¬ chFlag s.linkPlan d.ch 1 then s.dlDone num 4
    else if s.dlMeetsWindow d.launch d.dur then s.dlNext d 1
    else
      let r := (s.routeSlot 5 0).getD 0
      let s1 := s.txaUpd (fun x => { x with sched := x.sched.map (fun e => if e.num == num then { e with shown := true } else e) })
      s1.txPresent { s1.txNew 4 5 [num] d.launch d.dur with
        car := d.ch, routes := [r], beams := [(r, s.get Fld.TXA_CH_CFG_W1.TX_BEAM [d.ch])],
        bands := [(1000 * chKhz s.linkPlan d.ch, chHz (chBw s.linkPlan d.ch))], prot := 8 }

/-- DOWNLINK_WINDOW_1 (R281): downlink `num` is tried at END + DL_DELAY1. -/
def execDownlinkWindow1 (num : Nat) (s : State) : Host.Outcome State Fault Refusal := .next (s.dlWindow 1 num)

/-- DOWNLINK_WINDOW_2 (R281): a downlink that failed in window 1 is tried once more at END + DL_DELAY2. -/
def execDownlinkWindow2 (num : Nat) (s : State) : Host.Outcome State Fault Refusal := .next (s.dlWindow 2 num)

/-! The start (R82, R90, R102) -/

/-- The paths a transmission would start on now: neither MUTED nor PFENCED, with those that join for a retest (R82, R105). -/
def State.txPaths (s : State) (t : Tx) : List Nat := t.paths.filter (fun g => (s.pathSt g).causes.isEmpty || t.retest.contains g)

/-- The gate of a path for a transmission: a retest joins through its MUTED cause (R105). -/
def State.txGate (s : State) (t : Tx) (g : Nat) : Bool :=
  s.gate g || (t.retest.contains g && State.gate (s.pathUpd g (fun p => { p with causes := [] })) g)

/-- The instant of network time at which a transmission starts with its gates open now (R82): the later of its launch and the last
gate's opening plus TX_LEAD and DEAD, in quadrant `q` (the lowest-numbered of the set: DESIGN CHOICE, notes/assumptions/68.md). -/
def State.txStartAt (s : State) (t : Tx) (ps : List Nat) (q : Nat) : Int :=
  let g := (ps.map (fun p => (s.pathSt p).gateAt)).foldl max 0
  max t.launch (s.netTime - (s.now - g : Nat) + s.txLead q + s.dead q)

/-- Beam `n` of a transmission comes into use in quadrant `q`; a frequency-domain record where TD records alone serve counts as bad (R127, R193). -/
def State.txBeam (s : State) (t : Tx) (q route id n : Nat) : State :=
  let u := s.beamUse q route id (s.tdCount q route (t.beams.take n))
  if t.tdOnly && (u.beamBytes q route id).any (fun r => u.beamValid route id r && !beamTd r) then u.inc .BEAM_CNT_BADREC [q] else u

/-- What the start of a transmission does beside its own record: pending filters, calibration values, pre-distortion and beams come into use, weight sets that are scaled
count, its source hears of it (R118, R123, R126, R133, R145, R183, R257, R283). -/
def State.txEffects (s : State) (t : Tx) (start : Int) (startAt : Nat) : State :=
  let qs := (List.range 4).filter (fun q => t.paths.any (fun g => g / 16 == q))
  let s1 := qs.foldl (fun u q =>
    let d := u.quad q
    let new := d.filterNext.filter (fun e => t.routes.contains e.1)
    let u1 := u.quadUpd q (fun d => { d with filters := new ++ d.filters.filter (fun e => !new.any (fun f => f.1 == e.1)),
                                             filterNext := d.filterNext.filter (fun e => !t.routes.contains e.1) })
    (t.beams.zipIdx).foldl (fun w b => w.txBeam t q b.1.1 b.1.2 b.2) u1) s
  let s2 := t.paths.foldl (fun u g => ((u.dpdStart g startAt).calTxStart g).pathUpd g (fun p => { p with txSince := some startAt })) s1
  let s3 := qs.foldl (fun u q => u.incBy .BEAM_CNT_NORM [q] (u.txNorms t q)) s2
  let s4 := if t.src < 3 then ((s3.phySend t.src).inc .PHY_TX_PPDU [t.src]).ppduStart t.src (t.cookie.getLastD 0) start t.dur
    else if t.src = 3 then s3.fhRunStart (t.cookie.headD 0) start
    else s3.txaAbort.demodUpd t.car (fun d => { d with st := 5, rx := none })
  let cfo := if t.src = 4 ∧ s.flag Fld.TXA_CFG.PRECOMP then ((s.txa.sched.find? (fun d => t.cookie == [d.num])).map (·.cfo)).getD 0 else 0
  s4.emit .air ([t.src, t.id, maskOf t.paths, unsigned 32 cfo] ++ t.cookie ++ t.backoffs.map (·.2)) (leBytes 8 (unsigned 64 start))

/-- Air time is charged under a SUBGHZ rule (R103). -/
def State.dutyCharge (s : State) (t : Tx) : State :=
  if t.bands.any (fun b => (s.rulesFor t.role b.1 b.2).any (ruleFlag · 3)) then
    s.radUpd (fun r => { r with duty := updAt r.duty (s.dutyCh t) (fun l => updAt l 0 (· + t.dur)) })
  else s

/-- Every quadrant of a transmission has a filter for its routes (R118). -/
def State.filtered (s : State) (t : Tx) (ps : List Nat) : Bool :=
  (List.range 4).all (fun q => !ps.any (fun g => g / 16 == q) || t.routes.all (fun r =>
    (s.quad q).filters.any (fun e => e.1 == r) || (s.quad q).filterNext.any (fun e => e.1 == r)))

/-- A transmission whose gates are open starts at `start`, when the guard passes it. -/
def State.txStart (s : State) (t : Tx) (ps : List Nat) (q : Nat) (start : Int) (vecs : List (List (List Cx))) : State :=
  if ¬ s.filtered t ps then s.txFinish { t with paths := ps } 4
  else match s.guard t (ps.map (fun g => (g, s.pnom t g))) with
    | none => ((s.raise (ev q 7)).inc .FEN_CNT_GUARD_BLOCK [q]).txFinish { t with paths := ps } 4
    | some bs =>
      let at_ := s.now + (start - s.netTime).toNat
      let u := { t with paths := ps, start := some start, startAt := at_, backoffs := bs, vecs := vecs, tims := (List.range 4).map (fun k => s.reg .FEN_FAST_TIM [k]) }
      let s1 := s.radUpd (fun r => { r with txs := r.txs.map (fun x => if x.id == t.id then u else x) })
      let s2 := if bs.any (fun e => e.2 != 0) then s1.inc .FEN_CNT_GUARD_CLAMP [q] else s1
      let s3 := if t.launch < start then s2.inc .FEN_CNT_DELAYED [q] else s2
      (s3.dutyCharge u).txEffects u start at_

/-- TRANSMISSION_START (R82, R102, R110): transmission `id`, whose gates are open, is at its start; its consumer sends the stream vectors `vecs`. -/
def execTransmissionStart (id : Nat) (vecs : List (List (List Cx))) (s : State) : Host.Outcome State Fault Refusal :=
  .next (match s.radio.txs.find? (fun t => t.id == id) with
    | none => s
    | some t =>
      let ps := s.txPaths t
      match Tx.home { t with paths := ps } with
      | none => s
      | some q =>
        let start := s.txStartAt t ps q
        let lead : Int := s.txLead q + s.dead q
        if t.start.isNone ∧ ps.all (s.txGate t ·) ∧ start - lead ≤ s.netTime ∧ s.netTime ≤ start
            ∧ start ≤ t.launch + 10 * s.get Fld.FEN_PROT_CFG.LATE_TOL [q] then (s.txStart t ps q start vecs).coexSettle
        else s)

/-- A coexistence grant held the last gate of a path set (R82): of open gates, the one that opened last; of gates that are still closed, all of them. -/
def State.coexLast (s : State) (t : Tx) (ps : List Nat) : Bool :=
  let shut := ps.filter (fun g => !s.txGate t g)
  if shut.isEmpty then
    let top := (ps.map (fun g => (s.pathSt g).gateAt)).foldl max 0
    ps.any (fun g => (s.pathSt g).gateAt == top && (s.pathSt g).gateCoex)
  else shut.all (s.gateNoCoex ·)

/-- LATE_TOL_EXPIRY (R82): the start of transmission `id` would exceed t + LATE_TOL, reckoned from the last gate's opening when all gates are open and from now when one is
closed: COEX when a coexistence grant held the last gate, else LATE. -/
def execLateTolExpiry (id : Nat) (s : State) : Host.Outcome State Fault Refusal :=
  .next (match s.radio.txs.find? (fun t => t.id == id) with
    | none => s
    | some t =>
      let ps := s.txPaths t
      let q := (Tx.home { t with paths := ps }).getD 0
      let start := if ps.all (s.txGate t ·) then s.txStartAt t ps q else s.netTime + s.txLead q + s.dead q
      if t.start.isNone ∧ (t.launch + 10 * s.get Fld.FEN_PROT_CFG.LATE_TOL [q] < start ∨ start < s.netTime) then
        (s.txFinish t (if !ps.isEmpty && s.coexLast t ps then 3 else 1)).coexSettle
      else s)

/-- TRANSMISSION_END (R83, R90): transmission `id` has sent its last sample. -/
def execTransmissionEnd (id : Nat) (s : State) : Host.Outcome State Fault Refusal :=
  .next (match s.radio.txs.find? (fun t => t.id == id) with
    | none => s
    | some t => if t.start.isSome ∧ t.startAt + t.dur ≤ s.now then (s.txFinish t 0).coexSettle else s)

/-! Locks, references and the array pulse (R80, R84, R85) -/

/-- LOCK of LO `k` of quadrant `q` clears (R84): counted and raised, transmissions on its paths end with a status, receptions lose
them. -/
def State.lockGone (s : State) (q k status : Nat) : State :=
  let ps := s.loPaths q k
  let s1 := (s.sets [q, k] [(Fld.SYN_STAT.LOCK, 0), (Fld.SYN_STAT.TUNING, 1)]).synUpd q k (fun y => { y with since := s.now, tries := 0 })
  let s2 := ((s1.txsEnd (fun t => t.uses ps.contains) status).phyLose ps).raise (ev q 2)
  ps.foldl (fun u g => u.pathUpd g (fun p => { p with rxSince := s.now })) (s2.inc .FEN_CNT_LOCK_LOST [q])

/-- LOCK_LOST (R84): LO `k` of quadrant `q` loses its lock. -/
def execLockLost (q k : Nat) (s : State) : Host.Outcome State Fault Refusal :=
  .next (if q < 4 ∧ k < 2 ∧ s.active q ∧ s.flag Fld.SYN_STAT.LOCK [q, k] then (s.lockGone q k 2).coexSettle else s)

/-- REFCLK_LOST (R85, R367): REFCLK has been absent for 200 ns. -/
def execRefclkLost (s : State) : Host.Outcome State Fault Refusal :=
  .next (if s.pwr.refclk then
      let s1 := { s with pwr := { s.pwr with refclk := false } }
      let s2 := s1.txsEnd (fun t => t.start.isSome) 5
      let s3 := (List.range 4).foldl (fun t q =>
        if t.active q then ((List.range 2).foldl (fun u k => if u.flag Fld.SYN_STAT.LOCK [q, k] then u.lockGone q k 5 else u) t).raise (ev q 9)
        else t) s2
      (if s.ntu.running then s3.ntuRefLost else s3).coexSettle
    else s)

/-- REFCLK_RESTORE (R85, R367): REFCLK has been back for 1 ms: the synthesisers lock as a band change from the next ASYNC, every
elastic buffer slips. -/
def execRefclkRestore (s : State) : Host.Outcome State Fault Refusal :=
  .next (if s.pwr.refclk then s
    else
      let s1 := { s with pwr := { s.pwr with refclk := true } }
      let s2 := (List.range 4).foldl (fun t q => (List.range 2).foldl (fun u k =>
        if u.active q ∧ u.get Fld.SYN_STAT.FREQ [q, k] ≠ 0 ∧ ¬ (u.syn q k).dead then
          (u.set Fld.SYN_STAT.TUNING [q, k] 1).synUpd q k (fun _ => { since := s.now, tries := 0, waiting := true, dead := false })
        else u) t) s1
      let s3 := s2.ebufsSlip
      if s.ntu.running then s3.ntuRefBack else s3)

/-- ASYNC_IN_RESUME (R80): 16 consecutive pulses agree: a follower goes on following. When they are displaced every path stops
transmitting and every elastic buffer slips. -/
def execAsyncInResume (displaced : Bool) (s : State) : Host.Outcome State Fault Refusal :=
  .next (if s.evtRuns ∧ s.get Fld.RGC_ASYNC_CFG.SRC = 1 ∧ s.flag Fld.RGC_ASYNC_CFG.IN_LOST then
      let s1 := s.set Fld.RGC_ASYNC_CFG.IN_LOST [] 0
      if displaced then ((List.range 64).foldl (fun t g => t.txLeave g) s1).ebufsSlip else s1
    else s)

/-! Windows for calibration (R152, R237, R262, R286) -/

/-- The end of the occurrence of an interval of `len` from `st`, recurring every `iv` (0: once), that a window of `d` from `w` meets. -/
def recurEnd (st iv len w d : Int) : Option Int :=
  if w + d ≤ st then none
  else
    let b := if iv = 0 then st else st + (w + d - 1 - st) / iv * iv
    if w < b + len then some (b + len) else none

/-- What a window of `d` ns from `w` on meets of link `l` (R237), by its end: a TBTT until the end of its beacon, a service period widened by the largest guard of its stations, a
launch time that is accepted. -/
def State.wlanMeets (s : State) (l : Nat) (d w : Int) : Option Int :=
  let iv : Int := 1024000 * (s.get Fld.WAC_LINK_CFG.BCN_INT [l] : Int)
  let air : Int := 1000 * (Config.frameAir (s.wfld 5 (16 * l) 0x18 4) (s.wfld 5 (16 * l) 12 2) : Int)
  let sps := ((s.wvalids 3).filter (fun i => s.wfld 3 i 1 1 == l)).map (fun i =>
    let g := 16 * ((s.spMembers i).map s.staGuard).foldl max 0
    recurEnd (1000 * ((s.wfld 3 i 8 8 : Int) - g)) (1000 * (s.wfld 3 i 0x14 4 : Int)) (1000 * (s.wfld 3 i 0x10 4 + 2 * g : Nat)) w d)
  let txs := (s.radio.txs.filter (fun t => t.src == l && t.start.isNone)).map (fun t => recurEnd t.launch 0 t.dur w d)
  let due := ((s.wlink l).due.filter (·.launch.isSome)).map (fun p => recurEnd (p.launch.getD 0) 0 (1000 * p.air : Nat) w d)
  (((if iv = 0 then [] else [recurEnd 0 iv air w d]) ++ sps ++ txs ++ due).filterMap id).head?

/-- Where a window that a carrier's gap does not hold may be tried next (R262). -/
def State.fhMeets (s : State) (d w : Int) : Option Int :=
  let gaps := ((List.range 8).filter (fun c => fhBw s.linkPlan c != 0 && s.get Fld.FHU_GAP_W1.PERIOD [c] != 0)).map (fun c =>
    let p : Int := 1000 * (s.get Fld.FHU_GAP_W1.PERIOD [c] : Int)
    let a : Int := 1000 * (s.get Fld.FHU_GAP_W0.START [c] : Int)
    let x := (w - s.fhOff) % p
    if a ≤ x ∧ x + d ≤ a + 1000 * (s.get Fld.FHU_GAP_W0.LEN [c] : Int) then none else some (if x < a then w - x + a else w - x + a + p))
  if gaps.isEmpty then
    let e := (s.fhu.secs.map (·.ends)).foldl max w
    if w < e then some e else none
  else (gaps.filterMap id).head?

/-- What stands in the way of a window of `d` ns from `w` on quadrant `q`'s paths `ps` for an owner (0 WLAN, 1 fronthaul, 2 Tixia): the next instant that it tries. -/
def State.ownerMeets (s : State) (q owner : Nat) (ps : List Nat) (d w : Int) : Option Int :=
  match owner with
  | 0 => (((List.range 3).filter (fun l => ps.any (fun p => s.pathRole (16 * q + p) == l + 1))).filterMap (fun l => s.wlanMeets l d w)).head?
  | 1 => s.fhMeets d w
  | _ => (s.txa.sched.find? (fun x => decide (x.launch < w + d ∧ w < x.launch + x.dur))).map (fun x => x.launch + x.dur)

/-- An owner's offer (R152): the earliest instant from `e` on that nothing stands in the way of. -/
def State.ownerOffer (s : State) (q owner : Nat) (ps : List Nat) (d : Int) : Nat → Int → Int
  | 0, e => e
  | n + 1, e =>
    match s.ownerMeets q owner ps d e with
    | some x => s.ownerOffer q owner ps d n (max x (e + 1))
    | none => e

/-- CAL_OFFER (R152): an owner answers the request of a round with its offer; the last answer settles the round, and an owner confirms a window that nothing of its own stands in
the way of. -/
def execCalOffer (q owner : Nat) (s : State) : Host.Outcome State Fault Refusal :=
  .next (match (s.cal q).run with
    | none => s
    | some r =>
      if q < 4 ∧ s.get Fld.CAL_STAT.STATE [q] = 1 ∧ (s.calOwners q r.paths).contains owner then
        let d : Int := 1000 * (r.durUs : Int)
        s.calSettle q { r with offers := (owner, s.ownerOffer q owner r.paths d 65536 r.earliest) :: r.offers.filter (fun e => e.1 != owner) }
          (fun w => (s.calOwners q r.paths).all (fun o => (s.ownerMeets q o r.paths d w).isNone))
      else s)

/-! Windows and grants over time (R103, R104) -/

/-- The clock of the duty windows (R103): in Dormant the time since the part entered it as the sleep counter measures it. -/
def State.dutyNow (s : State) : Nat :=
  if s.mode = 0 then s.pwr.svcFrom + (s.slpTicks - s.pwr.commitTicks) * 1000000000 / 32768 else s.now

/-- Dormant ends: what the sleep counter did not measure has not passed for the windows. -/
def State.dutyWake (s : State) : State :=
  if s.mode = 0 then s.radUpd (fun r => { r with dutyAt := r.dutyAt + s.now - s.dutyNow }) else s

/-- DUTY_BUCKET_CLOSE (R103): a bucket of 60 s closes. -/
def execDutyBucketClose (s : State) : Host.Outcome State Fault Refusal :=
  .next (if s.pwr.vinAo ∧ s.radio.dutyAt + 60000000000 ≤ s.dutyNow then
      s.radUpd (fun r => { r with dutyAt := r.dutyAt + 60000000000, duty := r.duty.map (fun l => 0 :: l.take 59) })
    else s)

/-- Carriers of the running image by role: role, centre and bandwidth in kHz. -/
def State.carriers (s : State) : List (Nat × Nat × Nat) :=
  ((List.range 3).filter (linkPresent s.linkPlan ·)).map (fun l => (l + 1, linkCentre s.linkPlan l, linkKhz s.linkPlan l))
    ++ ((List.range 8).filter (fun c => fhBw s.linkPlan c != 0)).map (fun c => (4, fhCentre s.linkPlan c, 1000 * fhBw s.linkPlan c))
    ++ ((List.range 16).filter (fun c => lrcBw s.linkPlan c != 0)).map (fun c => (5, lrcCentre s.linkPlan c, lrcHz s.linkPlan c / 1000))

/-- Quadrants with a path whose carrier, of whichever role, a grant of a list covers raise AFC_EXPIRED (R104). -/
def State.afcLapse (s : State) (gs : List AfcGrant) : State :=
  let roles := (s.carriers.filter (fun c => gs.any (fun g => g.covers (1000 * c.2.1) (1000 * c.2.2)))).map (·.1)
  (List.range 4).foldl (fun t q => if t.active q ∧ (List.range 16).any (fun p => roles.contains (t.pathRole (16 * q + p))) then t.raise (ev q 10) else t) s

/-- AFC_EXPIRED (R104): grant entries whose expiry has come lapse. -/
def execAfcExpired (s : State) : Host.Outcome State Fault Refusal :=
  .next (let old := s.radio.afc.filter (fun g => decide (g.expiry ≤ s.netSeconds))
    if s.timeState = 0 ∨ old.isEmpty then s
    else (s.radUpd (fun r => { r with afc := r.afc.filter (fun g => decide (s.netSeconds < g.expiry)) })).afcLapse old)

/-- TIME_STATE has become UNLOCKED between two states: every entry lapses (R104). -/
def State.afcUnlock (s old : State) : State :=
  if old.timeState ≠ 0 ∧ s.timeState = 0 then s.afcLapse old.grants else s

end Sys2Proof.Machine
end

