-- ==== Sys2Proof/Machine/Kiln.lean ====
section
/-! DEFINITION. Kiln and the cipher engines (R432 to R460): the mailbox, tokens, attestation, key slots, job rings. -/
namespace Sys2Proof.Machine

/-- Kiln updated. -/
def State.klnUpd (s : State) (f : Kiln → Kiln) : State := { s with kiln := f s.kiln }

/-- The mailbox is served (R459). -/
def State.klnOn (s : State) : Bool := (s.mode == 2 || s.serving) && s.pwr.powered.contains 6

/-! Key slots (R447, R449) -/

/-- The packet numbers of a slot's key begin again with the next one (R228, R229: they belong to the key). -/
def State.slotFresh (s : State) (n : Nat) : State :=
  s.wacUpd (fun w => { w with txPn := sset (fun _ => 0) w.txPn n 0, rxPn := w.rxPn.filter (fun e => e.1 / 32 != n) })

/-- A slot's key is replaced. -/
def State.slotSet (s : State) (n : Nat) (key : Bytes) (writer : Nat) : State :=
  (s.slotFresh n).klnUpd (fun k => { k with slots := ⟨n, key, writer⟩ :: k.slots.filter (fun e => e.slot != n) })

/-- A slot is emptied. -/
def State.slotClear (s : State) (n : Nat) : State := (s.slotFresh n).klnUpd (fun k => { k with slots := k.slots.filter (fun e => e.slot != n) })

/-- Every slot is zeroised. -/
def State.slotsZero (s : State) : State := s.klnUpd (fun k => { k with slots := [] })

/-- The requester's bit in WRITERS of a slot's group (R441). -/
def State.slotWriter (s : State) (rq : Req) (n : Nat) : Bool :=
  match rq with
  | .core c => decide (c < 8) && bitOf (leAt (s.slotGroup n) 0 2) c
  | .rcore r => decide (r < 6) && bitOf (leAt (s.slotGroup n) 0 2) (8 + r)
  | .kiln => true
  | _ => false

/-- OP of CIP_SLOT_CTL by a requester: 1 WRITE, 2 CLEAR; the staging copy reads back as zero afterwards (R447). -/
def State.slotOp (s : State) (rq : Req) (v : Word) : State :=
  let c := regCopy rq .CIP_SLOT_CTL
  let n := wbits v 12 0
  let key := ((List.range 8).map (fun i => leBytes 4 (s.reg .CIP_SLOT_KEY [i] c).toNat)).flatten
  let ok := s.slotWriter rq n
  let s1 := if ¬ ok then s
    else if wbits v 31 28 = 1 then s.slotSet n (key.take (if wbits v 16 16 = 1 then 32 else 16)) (reqId rq) else s.slotClear n
  let s2 := (List.range 8).foldl (fun t i => t.setReg .CIP_SLOT_KEY [i] 0 c) s1
  s2.commit .CIP_SLOT_STAT [] ((if ok then 0 else 2 ^ 24) + n) c

/-! The mailbox (R443, R444) -/

/-- A field of the request at the head of the queue. -/
def MbReq.fld (m : MbReq) (s : State) (o n : Nat) : Nat := s.num (m.addr + o) n

/-- The copy of the mailbox registers of a request. -/
def MbReq.copy (m : MbReq) : Nat := regCopy m.rq .KLN_MB_STAT

/-- STATE of a copy. -/
def State.mbState (s : State) (c v : Nat) : State := s.set Fld.KLN_MB_STAT.STATE [] v c

/-- The request at the head completes (R443). -/
def State.mbDone (s : State) (res len : Nat) : State :=
  match s.kiln.mbox with
  | [] => s
  | m :: t =>
    let ref := s.get Fld.KLN_MB_STAT.REFUSED [] m.copy
    let s1 := ((s.klnUpd (fun k => { k with mbox := t })).commit .KLN_MB_STAT [] (3 * 2 ^ 28 + res * 2 ^ 24 + ref * 2 ^ 23 + len) m.copy).raise (ev 6 18)
    match t with
    | n :: _ => s1.mbState n.copy 2
    | [] => s1

/-- SUBMIT by a requester (R443). -/
def State.mbSubmit (s : State) (rq : Req) : State :=
  let c := regCopy rq .KLN_MB_GO
  if s.kiln.mbox.any (fun m => m.copy == c) then s.set Fld.KLN_MB_STAT.REFUSED [] 1 c
  else if 16 ≤ s.kiln.mbox.length then
    (s.commit .KLN_MB_STAT [] (2 ^ 24 + s.get Fld.KLN_MB_STAT.REFUSED [] c * 2 ^ 23) c).raise (ev 6 18)
  else
    let first := s.kiln.mbox.isEmpty
    ((s.klnUpd (fun k => { k with mbox := k.mbox ++ [⟨rq, 64 * (s.reg .KLN_MB_REQ [] c).toNat⟩] })).setReg .KLN_MB_STAT []
      (w32 (if first then 2 ^ 29 else 2 ^ 28)) c)

/-- The run of bytes lies in an enabled window of a PCI Express function (R515). -/
def State.inWindow (s : State) (f a n : Nat) : Bool :=
  (List.range 4).any (fun w =>
    let base := 4096 * s.get Fld.HL_WIN_W0.SYS [f, w]
    s.flag Fld.HL_WIN_W2.EN [f, w] && decide (base ≤ a ∧ a + n ≤ base + 2 ^ s.get Fld.HL_WIN_W2.SIZE_LOG2 [f, w]))

/-- The requester may have Kiln use the bytes (R379, R443). -/
def State.mbReach (s : State) (rq : Req) (a n : Nat) : Bool :=
  n == 0 || (s.rangeCode rq a n == 0 && !s.poisonedIn a n && (match rq with
    | .pcie f => s.inWindow f a n
    | _ => true))

/-- An on-device core other than Kiln. -/
def mbCore : Req → Bool
  | .core _ => true
  | .rcore _ => true
  | _ => false

/-! Tokens (R439, R440, R457) -/

/-- Owner pair laid out as in an enrolment record from offset 0x40. -/
def pairAt (b : Bytes) (o : Nat) : KeyPair := ⟨slice b o 97, slice b (o + 128) 1952⟩

/-- The KEYIDs name the two halves of a pair (R438). -/
def KeyPair.named (k : KeyPair) (ec pq : Nat) : Bool := keyId k.ec == ec && keyId k.pq == pq

/-- Enrolled owner pairs. -/
def State.owners (s : State) : List KeyPair := s.kiln.owners.filterMap id

/-- The ROM service pair. -/
def servicePair : KeyPair := ⟨Config.stovoranEc, Config.stovoranPq⟩

/-- Pairs that may sign a token of a kind in a lifecycle, `none` when the kind is not allowed in it (R439). -/
def State.signers (s : State) (kind : Nat) : Option (List KeyPair) :=
  let life := s.lifecycle
  let auth := s.kiln.authority.toList
  match kind with
  | 1 => if life = 1 then some s.owners else none
  | 2 => if life = 1 ∨ life = 2 then some s.owners else none
  | 3 => if life = 1 ∨ life = 2 then some s.owners else if life = 3 then some [servicePair] else none
  | 4 => if life = 1 ∨ life = 2 then some s.owners else none
  | 5 => if life = 1 ∨ life = 2 then some s.owners else none
  | 6 => if life = 1 ∨ life = 2 then some auth else none
  | 7 => if life = 1 ∨ life = 2 then some s.owners else if life = 3 then some [servicePair] else none
  | _ => none

/-- Body length of a token of a kind: `none` for a kind without a layout. -/
def tokenBody (kind : Nat) (b : Bytes) : Option Nat :=
  match kind with
  | 4 => some 2080
  | 6 => some (64 + 32 * leAt b 0x42 1)
  | 1 | 2 | 3 | 5 | 7 => some 0
  | _ => none

/-- The nonce is replaced from the TRNG (R439). -/
def State.nonceNew (s : State) : State :=
  let n := Config.drbg s.free 8
  ({ s with free := s.free + 1 }.setReg .IDN_NONCE_LO [] (w32 (leAt n 0 4))).setReg .IDN_NONCE_HI [] (w32 (leAt n 4 4))

/-- A SECURITY record of Ash (R495): kind 0 TAMPER, 1 RNG_FAIL, 2 DEBUG_OPEN. -/
def State.ashSecurity (s : State) (kind : Nat) : State :=
  s.ashAdd 0x0E (if kind = 0 then 0xE5 else 0xC9) [b8 kind, b8 (s.get Fld.IDN_LIFECYCLE.TAMPER_COUNT)]

/-- DEBUG of the SECURITY record in force; none before the CT cord has been applied in the present bring-up (R457). -/
def State.debugField (s : State) : Option Nat := if s.boot.applied.contains 6 then some (leAt (s.body 6 0x35) 0 1) else none

/-- Debug opens by token (R457). -/
def State.debugOpen (s : State) : State :=
  ((((s.slotsZero).wipeSecure).set Fld.IDN_LIFECYCLE.DEBUG_OPEN [] 1).ashSecurity 2).raise (ev 6 20)

/-- KEYS of IDN_LIFECYCLE follow the store. -/
def State.keysShow (s : State) : State :=
  (s.set Fld.IDN_LIFECYCLE.KEYS [] (maskOf ((List.range 4).filter (fun p => ((s.kiln.owners[p]?).getD none).isSome)))).set
    Fld.IDN_LIFECYCLE.AUTHORITY [] (b2n s.kiln.authority.isSome)

/-- The effect of a token whose signatures verify: 0 accepted, or the result it is refused with (R439, R440, R457). -/
def State.tokenAct (s : State) (kind : Nat) (b : Bytes) : Nat × State :=
  match kind with
  | 4 =>
    match firstBelow 4 (fun p => ((s.kiln.owners[p]?).getD none).isNone) with
    | some p => (0, (s.klnUpd (fun k => { k with owners := k.owners.set p (some (pairAt b 0x40)) })).keysShow)
    | none => (0x10, s)
  | 5 =>
    match (List.range 4).find? (fun p => match (s.kiln.owners[p]?).getD none with
      | some k => k.named (leAt b 0x30 8) (leAt b 0x38 8)
      | none => false) with
    | some p => if s.owners.length ≤ 1 then (0x10, s) else (0, (s.klnUpd (fun k => { k with owners := k.owners.set p none })).keysShow)
    | none => (0x10, s)
  | 6 =>
    let lock := slice b 0x40 (64 + 32 * leAt b 0x42 1)
    if s.lockOn ∧ leAt lock 8 4 ≤ s.lockSerial then (0x37, s)
    else if ¬ s.kiln.authority.any (fun k => keyId k.ec == leAt lock 12 8) then (0x10, s)
    else (0, (s.klnUpd (fun k => { k with lock := lock })).radUpd (fun r => { r with afc := [] }))
  | 7 =>
    if s.lifecycle = 3 then (0, s.debugOpen)
    else if s.debugField = some 1 then (0, s.debugOpen) else (0x10, s)
  | k =>
    if s.flag Fld.IDN_LIFECYCLE.PENDING then (0x10, s)
    else (0, (s.set Fld.IDN_LIFECYCLE.PENDING [] 1).set Fld.IDN_LIFECYCLE.PENDING_STATE [] (k + 1))

/-- A token is judged (R439): the result as a push code, 0 when it is accepted. -/
def State.tokenJudge (s : State) (b : Bytes) : Nat × State :=
  let kind := leAt b 6 2
  let len := leAt b 8 4
  let fmt := decide (leAt b 0 4 = 0x4B4F544B ∧ leAt b 4 2 = 1 ∧ len % 4 = 0 ∧ len = b.length ∧ 0x40 + 3408 ≤ len)
    && (match tokenBody kind b with
      | some n => len == 0x40 + n + 3408
      | none => true)
  let r : Nat × State :=
    if ¬ fmt then (3, s)
    else if leAt b 0x10 8 ≠ Config.deviceId then (0x36, s)
    else if leAt b 0x18 8 ≠ (s.reg .IDN_NONCE_LO).toNat + 2 ^ 32 * (s.reg .IDN_NONCE_HI).toNat then (0x37, s)
    else match s.signers kind with
      | none => (0x10, s)
      | some l =>
        match l.find? (fun k => k.named (leAt b 0x20 8) (leAt b 0x28 8)) with
        | none => (0x10, s)
        | some k =>
          let region := b.take (len - 3408)
          let sig := slice b (len - 3408) 3405
          if ¬ Config.ecdsaOk k.ec region (sig.take 96) then (6, s)
          else if ¬ Config.mldsaOk k.pq region (slice sig 96 3309) then (7, s)
          else s.tokenAct kind b
  (r.1, r.2.nonceNew)

/-- A push code as a mailbox RESULT (R439, R444). -/
def mbCode (c : Nat) : Nat := if c = 0 then 0 else if c = 3 then 4 else if c = 0x36 then 5 else if c = 0x37 then 6 else if c = 0x10 then 8 else 7

/-! Commands -/

/-- The attestation report (R446). -/
def State.attest (s : State) (nonce : Bytes) : Bytes :=
  let b := leBytes 4 0x54535441 ++ leBytes 2 1 ++ leBytes 2 (s.get Fld.IDN_LIFECYCLE.DEBUG_OPEN + 2 * b2n (decide (s.get Fld.IDN_LIFECYCLE.TAMPER_COUNT ≠ 0)))
    ++ leBytes 8 Config.deviceId ++ leBytes 2 0xA1 ++ [b8 (s.lifecycle + 128 * s.get Fld.IDN_LIFECYCLE.PENDING), b8 s.timeState]
    ++ leBytes 4 (s.reg .AO_IMAGE_SERIAL).toNat ++ leBytes 4 (s.reg .AO_SERIAL_FLOOR).toNat ++ leBytes 4 s.lockSerial ++ leBytes 4 s.radio.afcSerial
    ++ leBytes 4 (s.get Fld.IDN_LIFECYCLE.TAMPER_COUNT) ++ leBytes 6 s.netSeconds ++ [0, 0] ++ slice (Config.sha384 (s.plan.head.take 640)) 0 48
    ++ slice (s.body 6 0x35) 0x20 48 ++ slice s.plan.head 0x20 16 ++ slice nonce 0 32 ++ List.replicate 64 0
  b ++ slice (Config.deviceSign b) 0 3405

/-- Additional data of an IMPORT blob (R448). -/
def importAad (slot len : Nat) : Bytes := leBytes 8 Config.deviceId ++ leBytes 2 slot ++ [b8 len] ++ List.replicate 5 0

/-- IMPORT (R448): result, next state. -/
def State.keyImport (s : State) (kek target : Nat) (b : Bytes) : Nat × State :=
  let n := leAt b 0 1
  match s.slotKey kek with
  | none => (11, s)
  | some k =>
    if k.length ≠ 32 ∨ ¬ s.slotMay 5 kek then (8, s)
    else if (n ≠ 16 ∧ n ≠ 32) ∨ leAt b 1 3 ≠ 0 ∨ ¬ allZero (slice b (16 + n) (32 - n)) then (4, s)
    else
      let enc := slice b 16 n
      if gcmTag k (slice b 4 12) (importAad target n) enc 16 ≠ slice b 48 16 then (9, s)
      else (0, s.slotSet target (aesCtr 2 k (slice b 4 12) enc) (reqId .kiln))

/-- The command of the request at the head: 1 to 6, or 0 when its request is no command of the table. -/
def State.mbCmd (s : State) (m : MbReq) : Nat :=
  let c := m.fld s 0 2
  if ¬ s.mbReach m.rq m.addr 64 ∧ mbCore m.rq then 0 else if 1 ≤ c ∧ c ≤ 6 then c else 0

/-- KIND of the token that a TOKEN request names. -/
def State.mbKind (s : State) (m : MbReq) : Nat := s.num (m.fld s 0x10 8 + 6) 2

/-- Zero bytes of a request are zero. -/
def State.mbZeros (s : State) (m : MbReq) : Bool :=
  m.fld s 2 2 == 0 && m.fld s 12 4 == 0 && m.fld s 0x1C 4 == 0 && m.fld s 0x2C 8 == 0 && m.fld s 0x34 8 == 0 && m.fld s 0x3C 4 == 0

/-- Kiln serves the request at the head of its queue: RESULT, bytes written to OUT, next state (R444, R445). -/
def State.mbRun (s : State) (m : MbReq) : Nat × Nat × State :=
  let core := mbCore m.rq
  let p0 := m.fld s 4 4
  let p1 := m.fld s 8 4
  let ia := m.fld s 0x10 8
  let il := m.fld s 0x18 4
  let oa := m.fld s 0x20 8
  let ol := m.fld s 0x28 4
  let input := s.bytes ia il
  let reach := fun (n : Nat) => s.mbReach m.rq ia il && s.mbReach m.rq oa n
  let put := fun (u : State) (b : Bytes) => (u.memWrite .kiln oa b).2
  if core ∧ ¬ s.mbReach m.rq m.addr 64 then (3, 0, s)
  else match s.mbCmd m with
  | 1 =>
    if ¬ core then (3, 0, s)
    else if ol = 0 ∨ 65536 < ol ∨ ¬ s.mbZeros m then (4, 0, s)
    else if ¬ s.mbReach m.rq oa ol then (3, 0, s)
    else if s.kiln.trngFailed then (10, 0, s)
    else (0, ol, put { s with free := s.free + 1, kiln := { s.kiln with reseedAt := s.now } } (slice (Config.drbg s.free ol) 0 ol))
  | 2 =>
    if il ≠ 32 ∨ ol < 3661 ∨ ¬ s.mbZeros m then (4, 0, s)
    else if ¬ reach 3661 then (3, 0, s)
    else (0, 3661, put s (s.attest input))
  | 3 =>
    if ol < 5552 ∨ ¬ s.mbZeros m then (4, 0, s)
    else if ¬ s.mbReach m.rq oa 5552 then (3, 0, s)
    else (0, 5552, put s (slice Config.deviceCert 0 5552))
  | 4 =>
    if s.mode = 2 then (8, 0, s)
    else if ¬ s.mbZeros m then (4, 0, s)
    else if ¬ s.mbReach m.rq ia il then (3, 0, s)
    else if s.kiln.trngFailed then (10, 0, s)
    else
      let r := s.tokenJudge input
      (mbCode r.1, 0, r.2)
  | 5 =>
    if il ≠ 64 ∨ 8192 ≤ p1 ∨ ¬ s.mbZeros m then (4, 0, s)
    else if ¬ (if core then s.slotWriter m.rq p1 else bitOf (leAt (s.slotGroup p1) 3 1) 0) then (8, 0, s)
    else if ¬ s.mbReach m.rq ia 64 then (3, 0, s)
    else
      let r := s.keyImport p0 p1 input
      (r.1, 0, r.2)
  | 6 =>
    if ¬ core then (3, 0, s)
    else if il ≠ 16 ∨ 8192 ≤ p0 ∨ (p1 ≠ 16 ∧ p1 ≠ 32) ∨ ¬ s.mbZeros m then (4, 0, s)
    else if ¬ (s.slotWriter m.rq p0 ∧ bitOf (leAt (s.slotGroup p0) 3 1) 1) then (8, 0, s)
    else if ¬ s.mbReach m.rq ia 16 then (3, 0, s)
    else (0, 0, s.slotSet p0 (s.kdf ([0x53, 0x4C, 0x4F, 0x54] ++ input) p1) (reqId .kiln))
  | _ => (2, 0, s)

/-- Kiln serves the head of its queue when the row is the one for it: `f` says which requests that is. A request that no row is for is served
by any of them (notes/assumptions/57.md). -/
def State.mbServe (s : State) (f : Nat → Nat → Bool) : State :=
  match s.kiln.mbox with
  | [] => s
  | m :: _ =>
    let c := s.mbCmd m
    let k := s.mbKind m
    let other := c == 0 || (c == 4 && (k == 0 || decide (7 < k)))
    if s.klnOn ∧ (f c k ∨ other) then
      let r := s.mbRun m
      r.2.2.mbDone r.1 r.2.1
    else s

/-- GET_RANDOM (R444, R445). -/
def execGetRandom (s : State) : Host.Outcome State Fault Refusal := .next (s.mbServe (fun c _ => c == 1))

/-- ATTEST (R446). -/
def execKlnAttest (s : State) : Host.Outcome State Fault Refusal := .next (s.mbServe (fun c _ => c == 2))

/-- GET_CERT (R444). -/
def execGetCert (s : State) : Host.Outcome State Fault Refusal := .next (s.mbServe (fun c _ => c == 3))

/-- IMPORT (R448). -/
def execKlnImport (s : State) : Host.Outcome State Fault Refusal := .next (s.mbServe (fun c _ => c == 5))

/-- DERIVE (R448). -/
def execKlnDerive (s : State) : Host.Outcome State Fault Refusal := .next (s.mbServe (fun c _ => c == 6))

/-! Tokens pushed in Bring-up (R439): OPEN_BOOT has taken the whole token, and Kiln judges it -/

/-- A pushed token is waiting to be judged: the stream is an OPEN_BOOT whose bytes are a whole token (R58, R439). -/
def State.pushedToken (s : State) : Bool :=
  s.mode == 1 && s.push.op == 2 && leAt s.push.data 0 4 == 0x4B4F544B && decide (0x40 ≤ s.push.data.length ∧ leAt s.push.data 8 4 ≤ s.push.data.length)

/-- AO_PUSH_STAT commits DONE 0x00, or FAILED with a result (R58); PUSH_DONE is raised for a success (R63). -/
def State.pushStat (s : State) (res : Nat) : State :=
  let s1 := s.commit .AO_PUSH_STAT [] ((if res = 0 then 4 else 5) * 2 ^ 24 + res * 2 ^ 16 + s.get Fld.AO_PUSH_STAT.KIB)
  if res = 0 then s1.raise (ev 7 2) else s1

/-- The push operation ends with a result (R58, R63). -/
def State.pushEnd (s : State) (res : Nat) : State :=
  State.pushStat { s with push := { s.push with op := 0, owner := none, data := [], verified := false } } res

/-- Kiln judges a token of a kind: one pushed in Bring-up, or the one at the head of the mailbox. A kind that no row is for is judged by
any of them. -/
def State.tokenRow (s : State) (kind : Nat) : State :=
  if s.pushedToken then
    let k := leAt s.push.data 6 2
    if k = kind ∨ k = 0 ∨ 7 < k then
      if s.kiln.trngFailed then s.pushEnd 0x10
      else
        let r := s.tokenJudge s.push.data
        r.2.pushEnd r.1
    else s
  else s.mbServe (fun c k => c == 4 && k == kind)

/-- DEPLOY_TOKEN (R435, R439). -/
def execDeployToken (s : State) : Host.Outcome State Fault Refusal := .next (s.tokenRow 1)

/-- RETURN_TOKEN (R435, R439). -/
def execReturnToken (s : State) : Host.Outcome State Fault Refusal := .next (s.tokenRow 2)

/-- SCRAP_TOKEN (R435, R439). -/
def execScrapToken (s : State) : Host.Outcome State Fault Refusal := .next (s.tokenRow 3)

/-- KEY_ADD (R439). -/
def execKeyAdd (s : State) : Host.Outcome State Fault Refusal := .next (s.tokenRow 4)

/-- KEY_REVOKE (R439). -/
def execKeyRevoke (s : State) : Host.Outcome State Fault Refusal := .next (s.tokenRow 5)

/-- LOCK_TOKEN (R440). -/
def execLockToken (s : State) : Host.Outcome State Fault Refusal := .next (s.tokenRow 6)

/-- DEBUG_TOKEN (R457). -/
def execDebugToken (s : State) : Host.Outcome State Fault Refusal := .next (s.tokenRow 7)

/-! Registers -/

/-- Values that Kiln's and PK.CIP's registers do not take. -/
def okKln (r : Reg) (ix : List Nat) (v : Word) (_ : Req) (s : State) : Bool :=
  match r with
  | .KLN_MB_GO => wbits v 3 0 == 1
  | .CIP_SLOT_CTL => decide (wbits v 31 28 = 1 ∨ wbits v 31 28 = 2)
  | .CIP_JOB_CFG => sizeOk s Fld.CIP_JOB_CFG.EN Fld.CIP_JOB_CFG.SIZE_LOG2 ix v 12
  | _ => true

/-- Performed writes. -/
def wrKln (r : Reg) (ix : List Nat) (v : Word) (rq : Req) (s : State) : State :=
  match r with
  | .KLN_MB_GO => s.mbSubmit rq
  | .CIP_SLOT_CTL => s.slotOp rq v
  | _ => storeWord r ix v rq s

/-- A job ring's completions. -/
def State.jobCpls (s : State) (r : Nat) : List Cpl := (s.kiln.jobCpl[r]?).getD []

/-- Reads that are performed: the lock store reads in Service, Fenced and Banked (R99). -/
def okRdKln (r : Reg) (_ : List Nat) (_ : Req) (s : State) : Bool :=
  match r with
  | .IDN_LOCK => s.serving || s.mode == 2
  | _ => true

/-- Performed reads. -/
def rdKln (r : Reg) (ix : List Nat) (rq : Req) (s : State) : Word × State :=
  match r, ix with
  | .KLN_STAT, _ => (w32 (b2n (!s.kiln.trngFailed) * 2 ^ 31 + s.kiln.mbox.length), s)
  | .CIP_ATTR, _ =>
    match s.kiln.slots.find? (fun k => k.slot == s.get Fld.CIP_ATTR_SEL.SLOT) with
    | some k => (w32 (2 ^ 31 + b2n (k.key.length == 32) * 2 ^ 30 + k.writer % 256 * 256), s)
    | none => (0, s)
  | .CIP_CPL_POP, [n] =>
    match s.jobCpls n with
    | [] => (0x8FFF0000, s)
    | c :: t => (w32 (c.tag % 4096 * 2 ^ 16 + c.status),
      (s.klnUpd (fun k => { k with jobCpl := k.jobCpl.set n t })).setReg .CIP_CPL_INFO [n] (w32 c.info))
  | .IDN_LOCK, [i] => (w32 (leAt s.kiln.lock (4 * i) 4), s)
  | .IDN_DEVICE_ID_LO, _ => (w32 Config.deviceId, s)
  | .IDN_DEVICE_ID_HI, _ => (w32 (Config.deviceId / 2 ^ 32), s)
  | _, _ => loadWord r ix rq s

/-- SLOT_WRITE (R447): a write of CIP_SLOT_CTL with OP WRITE, LEN and SLOT. -/
def execSlotWrite (rq : Req) (slot : Nat) (long : Bool) (s : State) : Host.Outcome State Fault Refusal :=
  .next (writeReg rq (Reg.addr .CIP_SLOT_CTL []) 4 (w32 (2 ^ 28 + b2n long * 2 ^ 16 + slot % 8192)) okKln wrKln s)

/-- SLOT_CLEAR (R447): a write with OP CLEAR. -/
def execSlotClear (rq : Req) (slot : Nat) (s : State) : Host.Outcome State Fault Refusal :=
  .next (writeReg rq (Reg.addr .CIP_SLOT_CTL []) 4 (w32 (2 ^ 29 + slot % 8192)) okKln wrKln s)

/-! Job rings (R450 to R453) -/

/-- PK.CIP as a requester. -/
def cipReq : Req := .engine 5 6

/-- A job completes: its entry in the ring's queue, events and counters (R451 to R453). -/
def State.jobEnd (s : State) (r idx status cookie : Nat) : State :=
  let q := s.jobCpls r
  let s1 := (s.klnUpd (fun k => { k with jobCpl := k.jobCpl.set r (q ++ [⟨idx, status, cookie⟩]) })).inc .CIP_CNT_JOBS
  let s2 := if q.isEmpty then s1.raise (ev 5 29) else s1
  if status = 1 then
    let sec := s.ntu.raw / 1000000000
    let s3 := (s2.inc .CIP_CNT_AUTH_FAIL).klnUpd (fun k => { k with authSecond := some sec })
    if s.kiln.authSecond = some sec then s3 else s3.raise (ev 5 31)
  else s2

/-- MODE decrypts or verifies: it reads a tag at SRC + TEXT_LEN. -/
def jobChecks (mode : Nat) : Bool := mode == 2 || mode == 4 || mode == 6 || mode == 11
/-- MODE writes a tag at DST + TEXT_LEN. -/
def jobTags (mode : Nat) : Bool := mode == 1 || mode == 3 || mode == 5 || mode == 10
/-- MODE writes text to DST. -/
def jobWrites (mode : Nat) : Bool := decide (mode = 1 ∨ mode = 2 ∨ mode = 5 ∨ mode = 6 ∨ mode = 7 ∨ mode = 8 ∨ mode = 9)
/-- MODE reads additional data. -/
def jobAad (mode : Nat) : Bool := decide (1 ≤ mode ∧ mode ≤ 6)

/-- The run of memory that a job of a descriptor writes (R452): the text where MODE writes one, and the tag behind TEXT_LEN bytes. -/
def jobDest (d : Bytes) : Nat × Nat :=
  let mode := leAt d 0 1
  let n := leAt d 0x20 4
  (leAt d 16 8 + (if mode = 10 then n else 0), (if jobWrites mode then n else 0) + (if jobTags mode then leAt d 1 1 else 0))

/-- Runs of memory that a descriptor uses: the text, the additional data, the output. -/
def jobRuns (d : Bytes) : List (Nat × Nat) :=
  let mode := leAt d 0 1
  let n := leAt d 0x20 4
  let tag := leAt d 1 1
  [(leAt d 8 8, n + (if jobChecks mode then tag else 0)), (leAt d 24 8, if jobAad mode then leAt d 0x24 4 else 0), jobDest d]

/-- BAD_DESC (R451): an unknown MODE, a non-zero reserved field, memory that R379 denies. -/
def State.jobBad (s : State) (d : Bytes) : Bool :=
  let mode := leAt d 0 1
  decide (mode = 0 ∨ 11 < mode) || leAt d 3 1 != 0 || leAt d 6 2 != 0 || leAt d 0x3C 4 != 0
    || (jobRuns d).any (fun e => e.2 != 0 && s.rangeCode cipReq e.1 e.2 != 0)

/-- BAD_LEN (R451, R452); CCM holds a text of at most what its length field counts. -/
def jobBadLen (d : Bytes) : Bool :=
  let mode := leAt d 0 1
  let n := leAt d 0x20 4
  decide (16777216 < n ∨ 65279 < leAt d 0x24 4) || ((mode == 3 || mode == 4) && n != 0) || ((mode == 7 || mode == 8) && decide (n < 16))
    || ((mode == 5 || mode == 6) && decide (2 ^ (8 * (15 - leAt d 2 1)) ≤ n))

/-- BAD_PARAM for TAG_LEN and IV_LEN (R452). -/
def jobBadParam (d : Bytes) : Bool :=
  let mode := leAt d 0 1
  let tag := leAt d 1 1
  let iv := leAt d 2 1
  if mode ≤ 4 then !(iv == 12 && (tag == 4 || tag == 8 || decide (12 ≤ tag ∧ tag ≤ 16)))
  else if mode ≤ 6 then !decide (7 ≤ iv ∧ iv ≤ 13 ∧ 4 ≤ tag ∧ tag ≤ 16 ∧ tag % 2 = 0)
  else if mode ≤ 9 then iv != 16
  else !decide (4 ≤ tag ∧ tag ≤ 16)

/-- Keys of a job (R449): the key and the tweak key, or a status. XTS takes an even slot and the next. -/
def State.jobKey (s : State) (mode slot : Nat) : Except Nat Bytes × State :=
  if mode = 7 ∨ mode = 8 then
    match s.slotKey slot, s.slotKey (slot + 1) with
    | some a, some b =>
      if slot % 2 = 1 ∨ a.length ≠ b.length ∨ slot / 512 ≠ (slot + 1) / 512 then (.error 3, s)
      else if s.slotMay 4 slot then (.ok (a ++ b), s) else (.error 5, s.slotRefused)
    | _, _ => (.error 3, s)
  else match s.slotKey slot with
    | none => (.error 4, s)
    | some k => if s.slotMay 4 slot then (.ok k, s) else (.error 5, s.slotRefused)

/-- What a job computes from its key, IV, additional data, text and the tag to check: its output and whether the check passes (R452). -/
def jobOutput (mode : Nat) (key iv aad text tag : Bytes) (tl : Nat) : Bytes × Bool :=
  match mode with
  | 1 => let c := aesCtr 2 key iv text
         (c ++ gcmTag key iv aad c tl, true)
  | 2 => (aesCtr 2 key iv text, gcmTag key iv aad text tl == tag)
  | 3 => (gcmTag key iv aad [] tl, true)
  | 4 => ([], gcmTag key iv aad [] tl == tag)
  | 5 => (aesCtr 3 key iv text ++ ccmTag key iv aad text tl, true)
  | 6 => let p := aesCtr 3 key iv text
         (p, ccmTag key iv aad p tl == tag)
  | 7 => (aesXts key iv text true, true)
  | 8 => (aesXts key iv text false, true)
  | 9 => (aesCtr 1 key iv text, true)
  | 10 => (aesCmac key text tl, true)
  | _ => ([], aesCmac key text tl == tag)

/-- A job runs (R452, R453): its status. -/
def State.jobRun (s : State) (d : Bytes) : Nat × State :=
  let mode := leAt d 0 1
  let n := leAt d 0x20 4
  let tl := leAt d 1 1
  if jobBadLen d then (2, s)
  else if jobBadParam d then (3, s)
  else match s.jobKey mode (leAt d 4 2) with
    | (.error c, s1) => (c, s1)
    | (.ok key, s1) =>
      if ((jobRuns d).take 2).any (fun e => e.2 != 0 && s.poisonedIn e.1 e.2) then (6, s1)
      else
        let src := leAt d 8 8
        let o := jobOutput mode key (slice d 0x28 (leAt d 2 1)) (if jobAad mode then s.bytes (leAt d 24 8) (leAt d 0x24 4) else [])
          (s.bytes src n) (s.bytes (src + n) tl) tl
        (if o.2 then 0 else 1, s1.memPut (jobDest d).1 o.1)

/-- The next descriptor of ring `r` is fetched and run when its MODE is `mode`; a descriptor that is bad completes at once (R450, R451). -/
def State.jobStart (s : State) (r mode : Nat) : State :=
  let size := 2 ^ s.get Fld.CIP_JOB_CFG.SIZE_LOG2 [r]
  let h := s.get Fld.CIP_JOB_HEAD.HEAD [r] % size
  let a := 64 * (s.reg .CIP_JOB_BASE [r]).toNat + 64 * h
  if r < 4 ∧ s.active 5 ∧ s.serving ∧ s.flag Fld.CIP_JOB_CFG.EN [r] ∧ h ≠ s.get Fld.CIP_JOB_TAIL.TAIL [r] % size
    ∧ s.kiln.jobs.length < 4 ∧ (s.jobCpls r).length + (s.kiln.jobs.filter (fun j => j.ring == r)).length < 256 then
    let next := s.set Fld.CIP_JOB_HEAD.HEAD [r] ((h + 1) % size)
    let d := s.bytes a 64
    if s.rangeCode cipReq a 64 ≠ 0 ∨ s.jobBad d then
      ((next.inc .CIP_CNT_BAD_DESC).capture 5 1 6 cipReq 2 a).jobEnd r h 8 (leAt d 0x38 4)
    else if s.poisonedIn a 64 then (next.eccAt a).jobEnd r h 6 (leAt d 0x38 4)
    else if leAt d 0 1 = mode then
      let x := next.jobRun d
      x.2.klnUpd (fun k => { k with jobs := k.jobs ++ [⟨r, h, d, x.1⟩] })
    else s
  else s

/-- GCM_ENC (R452): the next job of ring `r`. -/
def execGcmEnc (r : Nat) (s : State) : Host.Outcome State Fault Refusal := .next (s.jobStart r 1)
/-- GCM_DEC (R452, R453). -/
def execGcmDec (r : Nat) (s : State) : Host.Outcome State Fault Refusal := .next (s.jobStart r 2)
/-- GMAC_GEN (R452). -/
def execGmacGen (r : Nat) (s : State) : Host.Outcome State Fault Refusal := .next (s.jobStart r 3)
/-- GMAC_VER (R452, R453). -/
def execGmacVer (r : Nat) (s : State) : Host.Outcome State Fault Refusal := .next (s.jobStart r 4)
/-- CCM_ENC (R452). -/
def execCcmEnc (r : Nat) (s : State) : Host.Outcome State Fault Refusal := .next (s.jobStart r 5)
/-- CCM_DEC (R452, R453). -/
def execCcmDec (r : Nat) (s : State) : Host.Outcome State Fault Refusal := .next (s.jobStart r 6)
/-- XTS_ENC (R452). -/
def execXtsEnc (r : Nat) (s : State) : Host.Outcome State Fault Refusal := .next (s.jobStart r 7)
/-- XTS_DEC (R452). -/
def execXtsDec (r : Nat) (s : State) : Host.Outcome State Fault Refusal := .next (s.jobStart r 8)
/-- CTR (R452). -/
def execCipCtr (r : Nat) (s : State) : Host.Outcome State Fault Refusal := .next (s.jobStart r 9)
/-- CMAC_GEN (R452). -/
def execCmacGen (r : Nat) (s : State) : Host.Outcome State Fault Refusal := .next (s.jobStart r 10)
/-- CMAC_VER (R452, R453). -/
def execCmacVer (r : Nat) (s : State) : Host.Outcome State Fault Refusal := .next (s.jobStart r 11)

/-- JOB_COMPLETION (R451, R452): the oldest running job of ring `r` finishes. -/
def execJobCompletion (r : Nat) (s : State) : Host.Outcome State Fault Refusal :=
  .next (match s.kiln.jobs.find? (fun j => j.ring == r) with
    | some j =>
      if s.active 5 then (s.klnUpd (fun k => { k with jobs := k.jobs.erase j })).jobEnd r j.index j.status (leAt j.desc 0x38 4) else s
    | none => s)

/-- CPL_POP (R26, R451): a read pops a completion of ring `r`. -/
def execCipCplPop (rq : Req) (r : Nat) (s : State) : Host.Outcome State Fault Refusal :=
  .next (readReg rq (Reg.addr .CIP_CPL_POP [r]) 4 readAny rdKln s)

/-- DRBG_RESEED (R445): the DRBG is reseeded, at least once per millisecond of use. -/
def execDrbgReseed (s : State) : Host.Outcome State Fault Refusal :=
  .next (if s.pwr.powered.contains 6 ∧ s.mode ≠ 5 ∧ ¬ s.kiln.trngFailed then
      s.klnUpd (fun k => { k with reseedAt := s.now, trngFails := 0 })
    else s)

/-! Mode changes (R458) -/

/-- PK fences: every slot is zeroised and jobs in flight are lost (R458). -/
def State.cipLost (s : State) : State := s.klnUpd (fun k => { k with slots := [], jobs := [], jobCpl := List.replicate 4 [] })

/-- Reasons for which Kiln and PK.CIP refuse phase one of a sleep (R458): KLN_BUSY, CIP_BUSY. -/
def State.klnBusy (s : State) : Bool := !s.kiln.mbox.isEmpty
@[inherit_doc State.klnBusy] def State.cipBusy (s : State) : Bool :=
  !s.kiln.jobs.isEmpty || (List.range 4).any (fun r => s.flag Fld.CIP_JOB_CFG.EN [r]
    && s.get Fld.CIP_JOB_HEAD.HEAD [r] != s.get Fld.CIP_JOB_TAIL.TAIL [r] % 2 ^ s.get Fld.CIP_JOB_CFG.SIZE_LOG2 [r])

end Sys2Proof.Machine
end

