-- ==== Sys2Proof/Machine/FlwTbl.lean ====
section
/-! DEFINITION. The packet engine's tables (R299 to R302, R304 to R307, R309, R313 to R316, R318, R320): entries, operations, versions,
the flow table with its cache, aging. -/
namespace Sys2Proof.Machine

/-- Entries and entry size of a table (R299). -/
def flwCount (t : Nat) : Nat := ([4096, 262144, 65536, 65536, 8192, 4096, 64, 65536, 1048576, 16384, 544][t]?).getD 0
@[inherit_doc flwCount] def flwSize (t : Nat) : Nat := ([16, 16, 32, 32, 64, 64, 16, 16, 64, 32, 48][t]?).getD 0

/-- A versioned table: BD, ROUTE4, ROUTE6, NEXTHOP, ACL, TUNNEL, NATPOOL. -/
def versioned (t : Nat) : Bool := decide (t ≤ 6)

/-- What an entry that nothing has written holds. -/
def flwZero (k : Nat) : Bytes := List.replicate (flwSize (k / 2 ^ 20 % 16)) 0

/-- The active bank. -/
def State.actBank (s : State) : Nat := s.get Fld.FLW_VER_STAT.ACTIVE

/-- Entry `i` of table `t` in a bank; live tables have bank 0. -/
def State.fent (s : State) (bank t i : Nat) : Bytes := sget flwZero s.pk.tbl (2 ^ 24 * (if versioned t then bank else 0) + 2 ^ 20 * t + i)
@[inherit_doc State.fent] def State.setFent (s : State) (bank t i : Nat) (b : Bytes) : State :=
  s.pkUpd (fun x => { x with tbl := sset flwZero x.tbl (2 ^ 24 * (if versioned t then bank else 0) + 2 ^ 20 * t + i) b })

/-- VALID of an entry. -/
def fvalid (b : Bytes) : Bool := bitOf (leAt b 0 1) 0

/-- Valid entries of a table in a bank, by index. -/
def State.fents (s : State) (bank t : Nat) : List (Nat × Bytes) :=
  (s.pk.tbl.filter (fun e => e.1 / 2 ^ 20 == 16 * (if versioned t then bank else 0) + t && fvalid e.2)).map (fun e => (e.1 % 2 ^ 20, e.2))

/-- Raw-counter seconds (R309). -/
def State.rawSec (s : State) : Nat := s.ntu.raw / 1000000000 % 2 ^ 32

/-- Events raised once a second: 0 MALFORMED, 1 FLOW_LEARN_FAIL, 2 NAT_EXHAUST, 3 ESP_AUTH, 4 MSEC_AUTH. -/
def State.pkMark (s : State) (i event : Nat) : State :=
  let now := s.ntu.raw / 1000000000
  let s1 := s.pkUpd (fun x => { x with marks := x.marks.set i (some now) })
  if (s.pk.marks[i]?).getD none = some now then s1 else s1.raise (ev 5 event)

/-! Fields of the entries -/

/-- BD (R304): L3, FLOOD, BCAST_SUB, VNI, FLOOD_TNL. -/
def bdL3 (b : Bytes) : Bool := bitOf (leAt b 0 1) 1
@[inherit_doc bdL3] def bdFlood (b : Bytes) : List Nat := maskList (leAt b 2 3) 20
@[inherit_doc bdL3] def bdVni (b : Bytes) : Nat := leAt b 8 3
@[inherit_doc bdL3] def bdTnl (b : Bytes) : Nat := leAt b 12 2

/-- NEXTHOP (R306): GROUP, PORT, COUNT, SUB, TUNNEL. -/
def nhGroup (b : Bytes) : Bool := bitOf (leAt b 0 1) 1
@[inherit_doc nhGroup] def nhPort (b : Bytes) : Nat := leAt b 1 1
@[inherit_doc nhGroup] def nhCount (b : Bytes) : Nat := leAt b 2 1
@[inherit_doc nhGroup] def nhTunnel (b : Bytes) : Nat := leAt b 14 2

/-- TUNNEL (R316): TERM, ORIG, IPV6, KEY present, TYPE, NEXT. -/
def tnTerm (b : Bytes) : Bool := bitOf (leAt b 0 1) 1
@[inherit_doc tnTerm] def tnOrig (b : Bytes) : Bool := bitOf (leAt b 0 1) 2
@[inherit_doc tnTerm] def tnV6 (b : Bytes) : Bool := bitOf (leAt b 0 1) 3
@[inherit_doc tnTerm] def tnKeyed (b : Bytes) : Bool := bitOf (leAt b 0 1) 4
@[inherit_doc tnTerm] def tnType (b : Bytes) : Nat := leAt b 1 1
@[inherit_doc tnTerm] def tnNext (b : Bytes) : Nat := leAt b 2 2

/-- Bytes of a range that are zero. -/
def zeroAt (b : Bytes) (o n : Nat) : Bool := allZero (slice b o n)

/-- Two routes have the same VRF, prefix and length (R306): table 1 or 2. -/
def routeSame (t : Nat) (a b : Bytes) : Bool :=
  slice a 1 2 == slice b 1 2 && slice a 4 (if t = 1 then 4 else 16) == slice b 4 (if t = 1 then 4 else 16)

/-- The checks of a WRITE (R306, R307, R318): stated ranges, bytes and bits that the layouts say are zero (DEDUCED, notes/assumptions/52.md). -/
def State.flwOk (s : State) (bank t i : Nat) (b : Bytes) : Bool :=
  let f := fun (o n : Nat) => leAt b o n
  match t with
  | 0 => decide (f 0 1 < 4) && zeroAt b 5 1 && zeroAt b 11 1 && zeroAt b 14 2
  | 1 => decide (f 0 1 < 2 ∧ f 2 1 ≤ 32) && zeroAt b 3 1 && zeroAt b 10 6 && !((s.fents bank 1).any (fun e => e.1 != i && fvalid b && routeSame 1 e.2 b))
  | 2 => decide (f 0 1 < 2 ∧ f 2 1 ≤ 128) && zeroAt b 3 1 && zeroAt b 22 10 && !((s.fents bank 2).any (fun e => e.1 != i && fvalid b && routeSame 2 e.2 b))
  | 3 => decide (f 0 1 < 16) && (if nhGroup b then decide (2 ≤ nhCount b ∧ nhCount b ≤ 8) else nhCount b == 0) && bits (f 3 1) 6 3 == 0
      && bits (f 10 2) 14 12 == 0 && zeroAt b 16 16
  | 4 =>
    let v6 := bitOf (f 0 1) 1
    let kind := f 0x34 2 % 8
    let w := if v6 then 128 else 32
    decide (f 0 1 < 16) && decide (f 0x28 1 ≤ w ∧ f 0x29 1 ≤ w) && decide (f 0x2C 2 ≤ f 0x2E 2 ∧ f 0x30 2 ≤ f 0x32 2) && decide (kind ≤ 4)
      && !(decide (3 ≤ kind) && v6) && decide (f 0x34 2 < 512) && (decide (3 ≤ kind) || f 0x36 2 == 0) && zeroAt b 0x3C 4
  | 5 => decide (f 0 1 < 32 ∧ f 1 1 ≤ 3) && !(bitOf (f 46 1) 6) && zeroAt b 47 1 && zeroAt b 50 14
  | 6 => decide (f 0 1 < 4) && zeroAt b 1 3
  | 7 => decide (f 0 1 < 8) && s.portEnabled (f 1 1) && !(bitOf (f 2 1) 0) && decide (f 8 2 < 4096)
  | 8 => decide (f 0 2 < 1024) && !(bitOf (f 0 2) 7) && zeroAt b 3 1 && zeroAt b 41 1 && zeroAt b 43 1 && zeroAt b 50 2
  | 9 => !(bitOf (f 0 1) 1) || decide (64 ≤ f 12 2 ∧ f 12 2 ≤ 1024)
  | _ => true

/-- Ports bound in a NAT pool (BOUND, R313). -/
def State.natBound (s : State) (pool : Nat) : Nat := (s.pk.natUsed.filter (fun e => e.1 == pool)).length

/-- An entry with its hardware-kept fields as a WRITE leaves them. -/
def State.flwKeep (s : State) (bank t i : Nat) (b : Bytes) : Bytes :=
  let old := s.fent bank t i
  match t with
  | 4 => patch b 0x38 (slice old 0x38 4)
  | 6 => patch b 12 [0, 0, 0, 0]
  | 9 => patch b 16 (slice old 16 8)
  | 10 => patch b 16 (slice old 16 8)
  | _ => b

/-! Hash tables -/

/-- First index of the L2 bucket of a MAC and BD (R305), and of the flow bucket of a key (R309). -/
def l2Base (mac : Bytes) (bd : Nat) : Nat := 4 * (crc32c (mac ++ leBytes 2 bd) % 2 ^ 14)
@[inherit_doc l2Base] def flowBase (key : Bytes) : Nat := 4 * (crc32c key % 2 ^ 18)

/-- L2 entry of a MAC and BD. -/
def State.l2Find (s : State) (mac : Bytes) (bd : Nat) : Option Nat :=
  ((List.range 4).map (l2Base mac bd + ·)).find? (fun i =>
    fvalid (s.fent 0 7 i) && slice (s.fent 0 7 i) 2 6 == mac && leAt (s.fent 0 7 i) 8 2 == bd)

/-- System address of flow entry `i`: FT_BASE counts from the DRAM base (DEDUCED, notes/assumptions/53.md). -/
def State.flowAddr (s : State) (i : Nat) : Nat := 0x800000000 + 0x100000 * (s.reg .FLW_FT_BASE).toNat + 64 * i

/-- A flow entry: the cached copy when one exists (R315). -/
def State.flowGet (s : State) (i : Nat) : Bytes := ((s.pk.cache.find? (fun e => e.1 == i)).map (·.2)).getD (s.bytes (s.flowAddr i) 64)

/-- A flow entry becomes the most recently used of its set of eight; the least recently used is written back (R310). The set of a bucket is
the model's choice (notes/assumptions/53.md). -/
def State.flowCache (s : State) (i : Nat) (b : Bytes) : State :=
  let rest := s.pk.cache.filter (fun e => e.1 != i)
  let set := rest.filter (fun e => e.1 / 4 % 16384 == i / 4 % 16384)
  match set[7]? with
  | some v => (s.pkUpd (fun x => { x with cache := (i, b) :: rest.filter (fun e => e.1 != v.1) })).memPut (s.flowAddr v.1) v.2
  | none => s.pkUpd (fun x => { x with cache := (i, b) :: rest })

/-- A flow entry written: in the cache where it is cached, else in DRAM. -/
def State.flowPut (s : State) (i : Nat) (b : Bytes) : State :=
  if s.pk.cache.any (fun e => e.1 == i) then s.pkUpd (fun x => { x with cache := x.cache.map (fun e => if e.1 == i then (i, b) else e) })
  else s.memPut (s.flowAddr i) b

/-- A flow entry removed from cache and table. -/
def State.flowZero (s : State) (i : Nat) : State :=
  (s.pkUpd (fun x => { x with cache := x.cache.filter (fun e => e.1 != i) })).memPut (s.flowAddr i) (List.replicate 64 0)

/-- The key of an entry (R309): bytes 2 to 41. -/
def flowKey (b : Bytes) : Bytes := slice b 2 40

/-- A key from its parts (R309). -/
def mkKey (vrf : Nat) (sip dip : Bytes) (sport dport proto : Nat) : Bytes :=
  leBytes 2 (vrf % 256) ++ slice sip 0 16 ++ slice dip 0 16 ++ leBytes 2 sport ++ leBytes 2 dport ++ [b8 proto, 0]

/-- Flag of a flow entry: 0 VALID, 1 IPV6, 2 STATIC, 3 PAIR, 4 REVERSE, 5 NAT_SRC, 6 NAT_DST. -/
def flowFlag (b : Bytes) (i : Nat) : Bool := bitOf (leAt b 0 2) i

/-- The entry of a key, in cache or DRAM. -/
def State.flowFind (s : State) (key : Bytes) : Option Nat :=
  ((List.range 4).map (flowBase key + ·)).find? (fun i => flowFlag (s.flowGet i) 0 && flowKey (s.flowGet i) == key)

/-- A free way of a key's bucket. -/
def State.flowFree (s : State) (key : Bytes) : Option Nat :=
  ((List.range 4).map (flowBase key + ·)).find? (fun i => !flowFlag (s.flowGet i) 0)

/-- The key of an entry's partner (R312, R313): the translated tuple, turned round. An ICMP echo holds one identifier twice. -/
def partnerKey (b : Bytes) : Bytes :=
  let k := flowKey b
  let x := slice b 44 4 ++ List.replicate 12 0
  let xp := leAt b 48 2
  let icmp := decide (leAt k 38 1 = 1 ∨ leAt k 38 1 = 58)
  let nat := flowFlag b 5 || flowFlag b 6
  let sip := if flowFlag b 5 then x else slice k 2 16
  let dip := if flowFlag b 6 then x else slice k 18 16
  let sp := if flowFlag b 5 || (icmp && nat) then xp else leAt k 34 2
  let dp := if flowFlag b 6 || (icmp && nat) then xp else leAt k 36 2
  mkKey (leAt k 0 2) dip sip dp sp (leAt k 38 1)

/-- Partner of a PAIR entry. -/
def State.flowPartner (s : State) (i : Nat) : Option Nat :=
  if flowFlag (s.flowGet i) 3 then s.flowFind (partnerKey (s.flowGet i)) else none

/-- The port of a removed NAT_SRC pair is free again (R314). -/
def State.natFree (s : State) (b : Bytes) : State :=
  if flowFlag b 5 && !flowFlag b 4 then s.pkUpd (fun x => { x with natUsed := x.natUsed.erase (leAt b 42 1, leAt b 48 2) }) else s

/-- An entry and its partner are removed. -/
def State.flowDrop (s : State) (i : Nat) : State :=
  let l := i :: (s.flowPartner i).toList
  l.foldl (fun t j => (t.natFree (s.flowGet j)).flowZero j) s

/-! Operations through the window (R300 to R302, R305, R315) -/

/-- The window's bytes. -/
def State.flwWin (s : State) (n : Nat) : Bytes := ((List.range 16).map (fun k => leBytes 4 (s.reg .FLW_TBL_WIN [k]).toNat)).flatten.take n
@[inherit_doc State.flwWin] def State.setFlwWin (s : State) (b : Bytes) : State :=
  (List.range 16).foldl (fun u k => u.setReg .FLW_TBL_WIN [k] (w32 (leAt b (4 * k) 4))) s

/-- Report a table operation: 0 OK, 1 FIELD, 2 LIMIT, 3 BUSY, 4 FULL, 5 EXISTS, 6 NOT_FOUND. -/
def State.flwStat (s : State) (res i : Nat) : State := s.commit .FLW_TBL_STAT [] (res * 2 ^ 24 + i % 2 ^ 20)

/-- An entry as LOAD reads it. -/
def State.flwShow (s : State) (bank t i : Nat) : Bytes :=
  if t = 8 then s.flowGet i
  else if t = 6 then patch (s.fent bank 6 i) 12 (leBytes 4 (s.natBound i))
  else s.fent bank t i

/-- OP=INSERT on L2 (R305). -/
def State.l2Insert (s : State) : State :=
  let b := s.flwWin 16
  let mac := slice b 2 6
  let bd := leAt b 8 2
  let ent := patch (patch b 0 [b8 (setBits (setBits (leAt b 0 1) 2 2 0) 0 0 1)]) 12 (leBytes 4 s.rawSec)
  if ¬ s.flwOk 0 7 0 b then s.flwStat 1 0
  else match s.l2Find mac bd with
    | some i => if bitOf (leAt (s.fent 0 7 i) 0 1) 1 then s.flwStat 5 i else (s.setFent 0 7 i ent).flwStat 0 i
    | none => match ((List.range 4).map (l2Base mac bd + ·)).find? (fun i => !fvalid (s.fent 0 7 i)) with
      | some i => (s.setFent 0 7 i ent).flwStat 0 i
      | none => s.flwStat 4 0

/-- OP=INSERT on the flow table (R315). -/
def State.flowInsert (s : State) : State :=
  let b := s.flwWin 64
  let k := flowKey b
  let ent := patch (patch b 0 (leBytes 2 (setBits (leAt b 0 2) 0 0 1))) 52 (leBytes 4 s.rawSec ++ List.replicate 8 0)
  if ¬ s.flwOk 0 8 0 b then s.flwStat 1 0
  else match s.flowFind k, s.flowFree k with
    | some i, _ => s.flwStat 5 i
    | none, some i => (s.flowPut i ent).flwStat 0 i
    | none, none => s.flwStat 4 0

/-- OP of FLW_TBL_CTL: 1 LOAD, 2 WRITE, 3 CLEAR, 4 INSERT, 5 DELETE. -/
def State.flwOp (s : State) (op : Nat) : State :=
  let t := s.get Fld.FLW_TBL_SEL.TABLE
  let i := s.get Fld.FLW_TBL_SEL.INDEX
  let staged := 1 - s.actBank
  match op with
  | 1 => (s.setFlwWin (s.flwShow (if s.flag Fld.FLW_TBL_SEL.VIEW then s.actBank else staged) t i)).flwStat 0 i
  | 2 =>
    let b := s.flwWin (flwSize t)
    if versioned t ∧ s.pk.draining.isSome then s.flwStat 3 i
    else if ¬ s.flwOk staged t i b then s.flwStat 1 i
    else if t = 8 then (s.flowPut i b).flwStat 0 i
    else (s.setFent staged t i (s.flwKeep staged t i b)).flwStat 0 i
  | 3 =>
    if versioned t ∧ s.pk.draining.isSome then s.flwStat 3 i
    else if t = 8 then (s.flowZero i).flwStat 0 i
    else (s.setFent staged t i (List.replicate (flwSize t) 0)).flwStat 0 i
  | 4 => if t = 7 then s.l2Insert else s.flowInsert
  | _ =>
    if t = 7 then
      match s.l2Find (slice (s.flwWin 16) 2 6) (leAt (s.flwWin 16) 8 2) with
      | some j => (s.setFent 0 7 j (List.replicate 16 0)).flwStat 0 j
      | none => s.flwStat 6 0
    else match s.flowFind (flowKey (s.flwWin 64)) with
      | some j => (s.flowDrop j).flwStat 0 j
      | none => s.flwStat 6 0

/-! Versions (R301) -/

/-- The first entry that fails a commit's checks, as (table, index). -/
def State.verFail (s : State) : Option (Nat × Nat) :=
  let k := 1 - s.actBank
  let nh := fun (i : Nat) => s.fent k 3 i
  let bad := fun (t : Nat) (p : Nat × Bytes → Bool) => ((s.fents k t).find? p).map (fun e => (t, e.1))
  let ports := fun (e : Nat × Bytes) => !s.portEnabled (nhPort e.2)
  let group := fun (e : Nat × Bytes) => nhGroup e.2 && (List.range (nhCount e.2)).any (fun j => !fvalid (nh (e.1 + 1 + j)) || nhGroup (nh (e.1 + 1 + j)))
  let tnl := fun (e : Nat × Bytes) => nhTunnel e.2 != 0xFFFF && (
    let t := s.fent k 5 (nhTunnel e.2)
    let n := s.fent k 5 (tnNext t)
    !(fvalid t && tnOrig t) || (tnNext t != 0xFFFF && !(fvalid n && tnType n == 3 && tnOrig n)))
  let pool := fun (e : Nat × Bytes) => decide (3 ≤ leAt e.2 0x34 2 % 8) && !fvalid (s.fent k 6 (leAt e.2 0x36 2))
  let vni := fun (e : Nat × Bytes) => (s.fents k 0).any (fun x => decide (x.1 < e.1) && bdVni x.2 == bdVni e.2)
  let moved := ((List.range 64).find? (fun i => decide (0 < s.natBound i) && slice (s.fent 0 6 i) 4 8 != slice (s.fent 1 6 i) 4 8)).map (fun i => (6, i))
  [bad 1 (fun e => !fvalid (nh (leAt e.2 8 2))), bad 2 (fun e => !fvalid (nh (leAt e.2 20 2))), bad 3 group, bad 3 ports,
   bad 0 (fun e => (maskList (leAt e.2 2 3) 24).any (fun p => !s.portEnabled p)), bad 3 tnl, bad 4 pool, bad 0 vni, moved].findSome? id

/-- Complete a version operation: STATE, RESULT; a commit raises RULE_COMMIT. -/
def State.verDone (s : State) (state res : Nat) (ev13 : Bool) : State :=
  let s1 := s.commit .FLW_VER_STAT [] (state * 2 ^ 24 + res * 2 ^ 20 + s.actBank)
  if ev13 then s1.raise (ev 5 13) else s1

/-- OP of FLW_VER_CTL (R301): 1 COMMIT, 2 COPY. -/
def State.verOp (s : State) (op : Nat) : State :=
  if s.pk.draining.isSome then s.verDone 1 2 (op == 1)
  else if op = 1 then
    match s.verFail with
    | some f => (s.setReg .FLW_VER_FAIL [] (w32 (f.1 * 2 ^ 28 + f.2))).verDone 0 1 true
    | none =>
      ((s.setReg .FLW_VER_STAT [] (w32 (2 ^ 24 + (1 - s.actBank)))).setReg .FLW_VER_GEN [] (s.reg .FLW_VER_GEN + 1)).pkUpd
        (fun x => { x with draining := some s.actBank })
  else
    let a := s.actBank
    let keep := s.pk.tbl.filter (fun e => !(decide (e.1 / 2 ^ 20 % 16 ≤ 6) && e.1 / 2 ^ 24 == 1 - a))
    let copies := keep.filter (fun e => decide (e.1 / 2 ^ 20 % 16 ≤ 6))
    (s.pkUpd (fun x => { x with tbl := copies.foldl (fun m e => sset flwZero m (2 ^ 24 * (1 - a) + e.1 % 2 ^ 24) e.2) keep })).verDone 0 0 false

/-! Aging (R305, R314) -/

/-- Timeout in s of an IDLE class. -/
def State.idleSecs (s : State) (c : Nat) : Nat :=
  match c with
  | 0 => max 1 (s.get Fld.FLW_AGE_CFG.IDLE0)
  | 1 => max 1 (s.get Fld.FLW_AGE_CFG.IDLE1)
  | 2 => 10 * max 1 (s.get Fld.FLW_AGE_CFG.IDLE2)
  | _ => 60 * max 1 (s.get Fld.FLW_AGE_CFG.IDLE3)

/-- An entry has outlived its class, but for its partner. -/
def State.flowOld (s : State) (b : Bytes) : Bool :=
  flowFlag b 0 && !flowFlag b 2 && decide (s.idleSecs (leAt b 0 2 / 256 % 4) < (s.rawSec + 2 ^ 32 - leAt b 52 4) % 2 ^ 32)

/-- A removed entry goes to the expiry ring. -/
def State.flowExport (s : State) (b : Bytes) : State :=
  let n := 2 ^ s.get Fld.FLW_EXP_CFG.SIZE_LOG2
  let t := s.get Fld.FLW_EXP_TAIL.TAIL % n
  if ¬ s.flag Fld.FLW_EXP_CFG.EN then s
  else if (t + 1) % n = s.get Fld.FLW_EXP_HEAD.HEAD % n then s.inc .FLW_CNT_EXP_DROP
  else (s.memPut (64 * (s.reg .FLW_EXP_BASE).toNat + 64 * t) b).set Fld.FLW_EXP_TAIL.TAIL [] ((t + 1) % n)

/-- The scan visits flow entry `i`. -/
def State.flowAge (s : State) (i : Nat) : State :=
  let b := s.flowGet i
  if ¬ s.flowOld b then s
  else match s.flowPartner i with
    | some j => if s.flowOld (s.flowGet j) then ((s.flowExport b).flowExport (s.flowGet j)).flowDrop i else s
    | none => (s.flowExport b).flowDrop i

/-- The scan visits L2 entry `i`. -/
def State.l2Age (s : State) (i : Nat) : State :=
  let b := s.fent 0 7 i
  let age := s.get Fld.FLW_AGE_CFG2.L2_AGE_S
  if fvalid b && bitOf (leAt b 0 1) 2 && age != 0 && decide (age < (s.rawSec + 2 ^ 32 - leAt b 12 4) % 2 ^ 32) then
    s.setFent 0 7 i (List.replicate 16 0)
  else s

/-- Values and conditions that the engine's registers let through. -/
def okFlw (r : Reg) (ix : List Nat) (v : Word) (_ : Req) (s : State) : Bool :=
  match r, ix with
  | .PRS_PORT_CFG_W0, [p] => wbits v 31 31 == 0 || s.portEnabled p
  | .FLW_FT_BASE, _ => !s.flag Fld.FLW_CFG.FT_EN
  | .FLW_VER_CTL, _ => decide (1 ≤ wbits v 3 0 ∧ wbits v 3 0 ≤ 2)
  | .FLW_EXP_CFG, _ => sizeOk s Fld.FLW_EXP_CFG.EN Fld.FLW_EXP_CFG.SIZE_LOG2 [] v 15
  | .FLW_TBL_SEL, _ => decide (wbits v 31 28 ≤ 10 ∧ wbits v 19 0 < flwCount (wbits v 31 28))
  | .FLW_TBL_CTL, _ =>
    let t := s.get Fld.FLW_TBL_SEL.TABLE
    decide (1 ≤ wbits v 3 0 ∧ wbits v 3 0 ≤ 5) && (decide (wbits v 3 0 ≤ 3) || t == 7 || t == 8)
  | .FLW_SW_RX_CFG, _ => sizeOk s Fld.FLW_SW_RX_CFG.EN Fld.FLW_SW_RX_CFG.SIZE_LOG2 ix v 12
  | .FLW_SW_TX_CFG, _ => sizeOk s Fld.FLW_SW_TX_CFG.EN Fld.FLW_SW_TX_CFG.SIZE_LOG2 ix v 12
  | .ETH_CFG, _ => decide (1518 ≤ wbits v 13 0 ∧ wbits v 13 0 ≤ 16000)
  | .ETH_MSEC_CFG, _ => wbits v 26 25 != 3 && !frozen (s.flag Fld.ETH_MSEC_CFG.EN ix) (s.get Fld.ETH_MSEC_CFG.SUITE ix) (wbits v 28 27)
  | _, _ => true

end Sys2Proof.Machine
end

