-- ==== Sys2Proof/Machine/TmgTbl.lean ====
section
/-! DEFINITION. The traffic manager's tables (R329 to R333, R337, R339), buckets, and admission (R326 to R334). -/
namespace Sys2Proof.Machine

/-- Entries and entry size of a table (R329). -/
def tmCount (t : Nat) : Nat := ([16384, 16384, 131072, 1024, 16, 16, 4096][t]?).getD 0
@[inherit_doc tmCount] def tmSize (t : Nat) : Nat := ([32, 32, 16, 32, 16, 16, 4][t]?).getD 0

/-- What an entry that nothing has written holds. -/
def tmZero (k : Nat) : Bytes := List.replicate (tmSize (k / 2 ^ 20)) 0

/-- Entry `i` of table `t`. -/
def State.tmTbl (s : State) (t i : Nat) : Bytes := sget tmZero s.tm.tbl (2 ^ 20 * t + i)
@[inherit_doc State.tmTbl] def State.setTmTbl (s : State) (t i : Nat) (b : Bytes) : State :=
  s.tmUpd (fun x => { x with tbl := sset tmZero x.tbl (2 ^ 20 * t + i) b })

/-- A field of an entry. -/
def State.tmFld (s : State) (t i o n : Nat) : Nat := leAt (s.tmTbl t i) o n

/-- Flag bit of an entry's first byte. -/
def State.tmFlag (s : State) (t i b : Nat) : Bool := bitOf (s.tmFld t i 0 2) b

/-- The entry is valid: its VALID bit, or for a profile that it is written (R329, R337: profiles have no VALID bit). -/
def State.tmValid (s : State) (t i : Nat) : Bool :=
  decide (i < tmCount t) && (if t = 4 ∨ t = 5 then decide (16 < (s.tmTbl t i).length) else s.tmFlag t i 0)

/-- Valid entries of a table. -/
def State.tmValids (s : State) (t : Nat) : List Nat :=
  ((s.tm.tbl.filter (fun e => e.1 / 2 ^ 20 == t)).map (fun e => e.1 % 2 ^ 20)).filter (s.tmValid t ·)

/-- SVC, QPROF, SPROF and METER of a subscriber (R337), PORT of a service (R339). -/
def State.subSvc (s : State) (i : Nat) : Nat := s.tmFld 1 i 2 2
@[inherit_doc State.subSvc] def State.subQ (s : State) (i : Nat) : Nat := s.tmFld 1 i 0x15 1 % 16
@[inherit_doc State.subSvc] def State.subS (s : State) (i : Nat) : Nat := s.tmFld 1 i 0x16 1 % 16
@[inherit_doc State.subSvc] def State.subMeter (s : State) (i : Nat) : Nat := s.tmFld 1 i 0x18 2
@[inherit_doc State.subSvc] def State.svcPort (s : State) (i : Nat) : Nat := s.tmFld 3 i 1 1

/-! Queues -/

/-- Packets of a queue, a subscriber or a port. -/
def State.qPkts (s : State) (sub c : Nat) : List PktOut := s.tm.pkts.filter (fun p => p.sub == sub && p.cls == c)
@[inherit_doc State.qPkts] def State.subPkts (s : State) (sub : Nat) : List PktOut := s.tm.pkts.filter (fun p => p.sub == sub)

/-- Bytes of packets: the length handed over (DEDUCED, notes/assumptions/51.md). -/
def pktBytes (l : List PktOut) : Nat := (l.map (·.data.length)).sum

/-- Bytes queued (TMG_BUF_STAT.USED, R334). -/
def State.tmUsed (s : State) : Nat := pktBytes s.tm.pkts

/-! Buckets, in units of 1/8,000,000 byte: a rate of `r` kbit/s adds `r` a nanosecond -/

/-- Bytes in bucket units. -/
def bktOf (bytes : Nat) : Int := 8000000 * (bytes : Int)

/-- A level in bytes; the rounding of a fraction is free (notes/assumptions/22.md). -/
def bktBytes (l : Int) : Int := l / 8000000 + (if l % 8000000 = 0 then 0 else b2n (Config.tieUp l 8000000))

/-- Buckets of a meter (0), subscriber (1), service (2) or port (3). -/
def State.bkt (s : State) (k i : Nat) : Bkt := ((s.tm.bkts.find? (fun e => e.1 == k && e.2.1 == i)).map (·.2.2)).getD ⟨0, 0, s.ntu.raw⟩
@[inherit_doc State.bkt] def State.setBkt (s : State) (k i : Nat) (b : Bkt) : State :=
  s.tmUpd (fun x => { x with bkts := (k, i, b) :: x.bkts.filter (fun e => !(e.1 == k && e.2.1 == i)) })

/-- A meter's buckets now (RFC 2697, RFC 2698; R330, R331). -/
def State.meterNow (s : State) (i : Nat) : Bkt :=
  let b := s.bkt 0 i
  let d : Int := s.ntu.raw - b.at_
  let c := b.c + s.tmFld 0 i 4 4 * d
  let cbs := bktOf (s.tmFld 0 i 12 4)
  let ebs := bktOf (s.tmFld 0 i 16 4)
  if s.tmFlag 0 i 1 then ⟨min cbs c, min ebs (b.e + s.tmFld 0 i 8 4 * d), s.ntu.raw⟩
  else ⟨min cbs c, min ebs (b.e + (if cbs < c then c - cbs else 0)), s.ntu.raw⟩

/-- A subscriber's buckets now (R338). -/
def State.subNow (s : State) (i : Nat) : Bkt :=
  let b := s.bkt 1 i
  let d : Int := s.ntu.raw - b.at_
  ⟨min (bktOf (s.tmFld 1 i 12 4)) (b.c + s.tmFld 1 i 4 4 * d), min (bktOf (s.tmFld 1 i 16 4)) (b.e + s.tmFld 1 i 8 4 * d), s.ntu.raw⟩

/-- A port's bucket now (R342): RATE in 10 Mbit/s, capped at 16,000 bytes. -/
def State.portNow (s : State) (p : Nat) : Bkt :=
  let b := s.bkt 3 p
  ⟨min (bktOf 16000) (b.c + 10000 * s.get Fld.TMG_PORT_CFG_W0.RATE [p] * (s.ntu.raw - b.at_ : Int)), 0, s.ntu.raw⟩

/-- Line rate of a port in kbit/s; 0 for a port without a line. -/
def State.portKbit (s : State) (p : Nat) : Nat := if p < 8 then 1000 * s.lineRate p else 0

/-- The service has a packet queued. -/
def State.svcBusy (s : State) (v : Nat) : Bool := s.tm.pkts.any (fun p => s.subSvc p.sub == v)

/-- A service's credit now (R341): accumulate-to-burst, or with QAV=1 by idleSlope and sendSlope. -/
def State.svcNow (s : State) (v : Nat) : Bkt :=
  let b := s.bkt 2 v
  let now := s.ntu.raw
  let rate : Int := s.tmFld 3 v 4 4
  if s.tmFlag 3 v 2 then
    let wire := min now (max b.at_ (sget (fun _ => 0) s.tm.wire v))
    let c1 := b.c + (rate - s.portKbit (s.svcPort v)) * (wire - b.at_ : Int)
    let d : Int := now - wire
    let c2 := if s.svcBusy v then (if s.tm.shut.contains v then c1 else c1 + rate * d)
      else if 0 < c1 then 0 else min 0 (c1 + rate * d)
    ⟨c2, 0, now⟩
  else ⟨min (bktOf (s.tmFld 3 v 8 4)) (b.c + rate * (now - b.at_ : Int)), 0, now⟩

/-- Buckets full, as a write of their entry leaves them (R330, R338, R341). -/
def State.bktFill (s : State) (t i : Nat) : State :=
  match t with
  | 0 => s.setBkt 0 i ⟨bktOf (s.tmFld 0 i 12 4), bktOf (s.tmFld 0 i 16 4), s.ntu.raw⟩
  | 1 => s.setBkt 1 i ⟨bktOf (s.tmFld 1 i 12 4), bktOf (s.tmFld 1 i 16 4), s.ntu.raw⟩
  | 3 => s.setBkt 2 i ⟨if s.tmFlag 3 i 2 then 0 else bktOf (s.tmFld 3 i 8 4), 0, s.ntu.raw⟩
  | _ => s

/-! Table operations (R329) -/

/-- A burst size within 64 to 16,777,215 bytes. -/
def burstOk (n : Nat) : Bool := decide (64 ≤ n ∧ n ≤ 16777215)

/-- Gate bank of a GCL index: port, bank. -/
def gclPort (i : Nat) : Nat := i / 512
@[inherit_doc gclPort] def gclBank (i : Nat) : Nat := i / 256 % 2

/-- The checks of a write, with the window word each names (R330, R332, R333, R337, R339, R345). -/
def State.tmChecks (s : State) (t i : Nat) (b : Bytes) : List (Bool × Nat) :=
  let f := fun (o n : Nat) => leAt b o n
  match t with
  | 0 => [(!(bitOf (f 0 1) 1) || decide (f 4 4 ≤ f 8 4), 2), (burstOk (f 12 4), 3), (burstOk (f 16 4), 4)]
  | 1 =>
    let sh := bitOf (f 0 2) 1
    [(s.tmValid 3 (f 2 2), 0), (!sh || decide (f 4 4 ≤ f 8 4), 2), (!sh || burstOk (f 12 4), 3), (!sh || burstOk (f 16 4), 4),
     (s.tmValid 4 (f 0x15 1 % 16) && s.tmValid 5 (f 0x16 1 % 16), 5), (f 0x18 2 == 0xFFFF || s.tmValid 0 (f 0x18 2), 6)]
  | 2 => [(false, 0)]
  | 3 => [(s.portEnabled (f 1 1), 0), (!(bitOf (f 0 1) 2) || decide (8 ≤ f 1 1 ∨ f 4 4 < s.portKbit (f 1 1)), 1),
     (!(bitOf (f 0 1) 1) || burstOk (f 8 4), 2)]
  | 4 => [(decide (f 0 4 ≤ 16777215), 0), (decide (f 4 4 ≤ f 0 4), 1), (decide (f 8 4 ≤ f 4 4), 2)]
  | 6 => [(gclBank i != s.get Fld.TMG_GATE_CTL.OPER_BANK [gclPort i], 0)]
  | _ => []

/-- A write or clear has to wait (R329, R337, R339, R345). -/
def State.tmBusy (s : State) (t i : Nat) (b : Bytes) (clear : Bool) : Bool :=
  match t with
  | 0 => clear && (s.tmValids 1).any (fun j => s.subMeter j == i)
  | 1 => !(s.subPkts i).isEmpty && (clear || (s.tmValid 1 i && s.svcPort (leAt b 2 2) != s.svcPort (s.subSvc i)))
  | 3 => (s.tmValids 1).any (fun j => s.subSvc j == i) && (clear || leAt b 1 1 != s.svcPort i)
  | 4 => clear && (s.tmValids 1).any (fun j => s.subQ j == i)
  | 5 => clear && (s.tmValids 1).any (fun j => s.subS j == i)
  | 6 => ((s.tm.pending[gclPort i]?).getD none).isSome
  | _ => false

/-- An entry as it reads: with its hardware-kept fields (R330, R333, R337). -/
def State.tmShow (s : State) (t i : Nat) : Bytes :=
  let b := (s.tmTbl t i).take (tmSize t)
  match t with
  | 0 => if s.tmValid 0 i then
      let m := s.meterNow i
      patch (patch b 0x14 (leBytes 4 (unsigned 32 (bktBytes m.c)))) 0x18 (leBytes 4 (unsigned 32 (bktBytes m.e)))
    else b
  | 1 => patch (patch b 1 [b8 (setBits (leAt b 1 1) 0 0 (b2n (s.wac.paused.contains i)))]) 0x1C (leBytes 4 (pktBytes (s.subPkts i)))
  | 2 =>
    let l := s.qPkts (i / 8) (i % 8)
    leBytes 4 (pktBytes l) ++ leBytes 4 l.length ++ leBytes 4 (sget (fun _ => 0) s.tm.drops i) ++ List.replicate 4 0
  | _ => b

/-- The window's bytes. -/
def State.tmWin (s : State) (n : Nat) : Bytes := ((List.range 8).map (fun k => leBytes 4 (s.reg .TMG_TBL_WIN [k]).toNat)).flatten.take n

/-- OP of TMG_TBL_CTL: 1 LOAD, 2 WRITE, 3 CLEAR. -/
def State.tmOp (s : State) (op : Nat) : State :=
  let t := s.get Fld.TMG_TBL_SEL.TABLE
  let i := s.get Fld.TMG_TBL_SEL.INDEX
  let stat := fun (u : State) (res word : Nat) => u.commit .TMG_TBL_STAT [] (res * 2 ^ 24 + word)
  if op = 1 then
    let b := s.tmShow t i
    stat ((List.range 8).foldl (fun u k => u.setReg .TMG_TBL_WIN [k] (w32 (leAt b (4 * k) 4))) s) 0 0
  else if op = 2 then
    let b := s.tmWin (tmSize t)
    match firstBad (s.tmChecks t i b) with
    | some w => stat s 1 w
    | none =>
      if s.tmBusy t i b false then stat s 3 0
      else
        let keep := match t with
          | 0 => patch (patch b 0x14 (List.replicate 8 0)) 0x1C (slice (s.tmTbl 0 i) 0x1C 4)
          | 1 => patch (patch b 1 [b8 (setBits (leAt b 1 1) 0 0 0)]) 0x1C [0, 0, 0, 0]
          | 4 => b ++ [1]
          | 5 => b ++ [1]
          | _ => b
        stat ((s.setTmTbl t i keep).bktFill t i) 0 0
  else if t = 6 ∧ gclBank i = s.get Fld.TMG_GATE_CTL.OPER_BANK [gclPort i] then stat s 1 0
  else if s.tmBusy t i [] true then stat s 3 0
  else if t = 2 then stat (s.tmUpd (fun x => { x with drops := sset (fun _ => 0) x.drops i 0 })) 0 0
  else stat (s.setTmTbl t i (tmZero (2 ^ 20 * t))) 0 0

/-! Time gates (R345 to R348) -/

/-- Running and pending list of a port. -/
def State.gateOper (s : State) (p : Nat) : Option GateList := (s.tm.oper[p]?).getD none
@[inherit_doc State.gateOper] def State.gatePend (s : State) (p : Nat) : Option (GateList × Int) := (s.tm.pending[p]?).getD none

/-- The list in force at network time `t`: from T_sw on the pending one (R346). -/
def State.gateList (s : State) (p : Nat) (t : Int) : Option GateList :=
  match s.gatePend p with
  | some (l, sw) => if sw ≤ t then some l else s.gateOper p
  | none => s.gateOper p

/-- Entries of a list as they hold in a cycle: start, end, gates, index; cut at the cycle's end, the last extended to it (R345). -/
def State.gateSegs (s : State) (p : Nat) (l : GateList) : List (Nat × Nat × Nat × Nat) :=
  let w := (List.range l.len).map (fun i => s.tmFld 6 (512 * p + 256 * l.bank + i) 0 4)
  let r := w.foldl (fun (a : List (Nat × Nat × Nat × Nat) × Nat × Nat) e =>
    let fin := if a.2.2 + 1 = l.len then l.cycle else min l.cycle (a.2.1 + e % 2 ^ 24)
    (a.1 ++ [(a.2.1, fin, e / 2 ^ 24, a.2.2)], fin, a.2.2 + 1)) ([], 0, 0)
  r.1.filter (fun g => decide (g.1 < g.2.1))

/-- Place in the cycle of a list at `t`. -/
def GateList.phase (l : GateList) (t : Int) : Nat := ((t - l.base) % max 1 l.cycle).toNat

/-- The entry of a port in force at `t` (CUR_ENTRY). -/
def State.gateEntry (s : State) (p : Nat) (t : Int) : Nat :=
  match s.gateList p t with
  | some l => (((s.gateSegs p l).find? (fun g => decide (g.1 ≤ l.phase t ∧ l.phase t < g.2.1))).map (·.2.2.2)).getD 0
  | none => 0

/-- The gates of a port run (R345). -/
def State.gated (s : State) (p : Nat) : Bool := decide (p < 8) && s.flag Fld.TMG_GATE_CTL.GATE_EN [p]

/-- Gate `c` of a port is open at `t` (R345). -/
def State.gateOpen (s : State) (p c : Nat) (t : Int) : Bool :=
  match (if s.gated p then s.gateList p t else none) with
  | some l => (s.gateSegs p l).any (fun g => decide (g.1 ≤ l.phase t ∧ l.phase t < g.2.1) && bitOf g.2.2.1 c)
  | none => true

/-- The first instant from `t` on at which a list has gate `c` closed. -/
def State.listCloses (s : State) (p c : Nat) (l : GateList) (t : Int) : Option Int :=
  let ph := l.phase t
  let shut := (s.gateSegs p l).filter (fun g => !bitOf g.2.2.1 c)
  match shut.find? (fun g => decide (ph < g.2.1)), shut.head? with
  | some g, _ => some (t + ((max ph g.1 : Nat) - ph : Int))
  | none, some g => some (t + (l.cycle + g.1 - ph : Int))
  | none, none => none

/-- The first instant from `t` on at which gate `c` of a port is closed, over entries, cycles and T_sw (R347). -/
def State.gateCloses (s : State) (p c : Nat) (t : Int) : Option Int :=
  let now := match s.gateList p t with
    | some l => s.listCloses p c l t
    | none => none
  match s.gatePend p with
  | some (l, sw) =>
    if sw ≤ t then now
    else match now with
      | some x => if x < sw then some x else s.listCloses p c l sw
      | none => s.listCloses p c l sw
  | none => now

/-- Time of `n` bytes at the port's line rate, in ns, a fraction counting whole. -/
def State.lineNs (s : State) (p n : Nat) : Nat := ceilDiv (8000000 * n) (max 1 (s.portKbit p))

/-- A packet of class `c` and shaping length `n` may start at `t` under the gates (R347). -/
def State.gateLets (s : State) (p c n : Nat) (t : Int) : Bool :=
  if s.gated p then
    match s.gateCloses p c t with
    | some x => decide (t + (s.lineNs p n : Int) ≤ x)
    | none => true
  else true

/-- The longest time for which gate `c` stays open in the operating list, a run across the cycle's end counting as one: `none` without
end, 0 when it never opens (R347). -/
def State.gateLongest (s : State) (p c : Nat) (t : Int) : Option Nat :=
  match (if s.gated p then s.gateList p t else none) with
  | none => none
  | some l =>
    let segs := s.gateSegs p l
    if segs.all (fun g => bitOf g.2.2.1 c) then none
    else some ((segs ++ segs).foldl (fun (a : Nat × Nat) g =>
      let run := if bitOf g.2.2.1 c then a.1 + (g.2.1 - g.1) else 0
      (run, max a.2 run)) (0, 0)).2

/-- The service's credit is brought up to date, before what it depends on changes. -/
def State.svcSync (s : State) (v : Nat) : State := if s.tmValid 3 v then s.setBkt 2 v (s.svcNow v) else s

/-- The gates keep back everything a service holds: every class it holds is closed (R341; DEDUCED, notes/assumptions/51.md). -/
def State.svcShut (s : State) (v : Nat) : Bool :=
  let l := s.tm.pkts.filter (fun o => s.subSvc o.sub == v)
  !l.isEmpty && l.all (fun o => !s.gateOpen (s.svcPort v) o.cls s.netTime)

/-- A service's credit brought up to date, and whether its gates hold it seen again. -/
def State.svcSee (s : State) (v : Nat) : State :=
  s.tmUpd (fun x => { x with shut := if s.svcShut v then v :: x.shut.erase v else x.shut.erase v })

/-! Admission (R326 to R334) -/

/-- The subscriber a packet queues under (R327). -/
def State.tmSub (s : State) (o : PktOut) : Option Nat :=
  let ok := fun (i : Nat) => s.tmValid 1 i && s.tmValid 3 (s.subSvc i) && s.svcPort (s.subSvc i) == o.port
  if ok o.sub then some o.sub
  else if ok (s.get Fld.TMG_PORT_CFG_W1.DEF_SUB [o.port]) then some (s.get Fld.TMG_PORT_CFG_W1.DEF_SUB [o.port])
  else none

/-- A packet's pre-colour (R331 step 3). -/
def State.preColour (s : State) (o : PktOut) : Nat :=
  match o.dscp with
  | some d => min 2 (wbits (s.reg .TMG_COLOR_MAP [d / 16]) (2 * (d % 16) + 1) (2 * (d % 16)))
  | none => b2n o.dei

/-- The colour of `n` bytes against a meter's buckets, and the buckets left (RFC 2697, RFC 2698). -/
def meterMark (tr : Bool) (cir0 : Bool) (pre : Nat) (b : Bkt) (n : Int) : Nat × Bkt :=
  let cOk := !cir0 && decide (n ≤ b.c)
  if tr then
    if pre = 2 ∨ b.e < n then (2, b)
    else if pre = 1 ∨ ¬ cOk then (1, { b with e := b.e - n })
    else (0, { b with c := b.c - n, e := b.e - n })
  else if pre = 0 ∧ cOk then (0, { b with c := b.c - n })
  else if pre ≤ 1 ∧ n ≤ b.e then (1, { b with e := b.e - n })
  else (2, b)

/-- Meter a packet (R331): its colour, whether it is dropped. -/
def State.tmMeter (s : State) (o : PktOut) : Nat × Bool × State :=
  match o.inSub with
  | none => (0, false, s)
  | some i =>
    let m := s.subMeter i
    if ¬ s.tmValid 1 i ∨ m = 0xFFFF ∨ ¬ s.tmValid 0 m then (0, false, s)
    else
      let aware := s.tmFlag 0 m 2
      let r := meterMark (s.tmFlag 0 m 1) (s.tmFld 0 m 4 4 == 0) (if aware then s.preColour o else 0) (s.meterNow m) (bktOf o.rxLen)
      let s1 := s.setBkt 0 m r.2
      let s2 := if r.1 = 2 then s1.setTmTbl 0 m (patch (s1.tmTbl 0 m) 0x1C (leBytes 4 (satAdd 0xFFFFFFFF (s1.tmFld 0 m 0x1C 4) 1))) else s1
      (r.1, (r.1 == 1 && s.tmFlag 0 m 3) || (r.1 == 2 && s.tmFlag 0 m 4), s2)

/-- The alarm on HIGH (R334). -/
def State.tmHigh (s : State) : State :=
  let high := 65536 * s.get Fld.TMG_BUF_CFG.HIGH
  if s.tm.high ∧ high < s.tmUsed then (s.tmUpd (fun x => { x with high := false })).raise (ev 5 25)
  else if s.tmUsed + 1048576 < high then s.tmUpd (fun x => { x with high := true })
  else s

/-- The traffic manager takes a packet (R326 to R328). -/
def State.tmAdmit (s : State) (o : PktOut) : State :=
  match (if s.flag Fld.TMG_CFG.EN then s.tmSub o else none) with
  | none => s.inc .TMG_CNT_NO_SUB
  | some i =>
    let m := s.tmMeter o
    let s1 := m.2.2
    let q := 8 * i + o.cls
    let prof := s.subQ i
    let limit := s.tmFld 4 prof (4 * m.1) 4
    if m.2.1 then s1.inc .TMG_CNT_METER_DROP
    else if o.port < 8 ∧ ¬ s.portUp o.port then s1.inc .TMG_CNT_LINK_DROP
    else if limit < pktBytes (s.qPkts i o.cls) + o.data.length then
      (s1.inc .TMG_CNT_Q_DROP).tmUpd (fun x => { x with drops := sset (fun _ => 0) x.drops q (satAdd 0xFFFFFFFF (sget (fun _ => 0) x.drops q) 1) })
    else if 65536 * max 1 (s.get Fld.TMG_BUF_CFG.LIMIT) < s.tmUsed + o.data.length then s1.inc .TMG_CNT_BUF_DROP
    else match s1.bufAlloc o.data.length with
      | (none, _) => s1.inc .TMG_CNT_BUF_DROP
      | (some h, s2) =>
        (((((s2.svcSync (s.subSvc i)).memPut (64 * h) o.data).inc .TMG_CNT_ENQ).tmUpd (fun x => { x with
          pkts := x.pkts ++ [{ o with sub := i, buf := h }] })).svcSee (s.subSvc i)).tmHigh

end Sys2Proof.Machine
end

