-- ==== Sys2Proof/Machine/Flw.lean ====
section
/-! DEFINITION. The packet engine's decisions (R293 to R318): metadata, malformed packets, tunnels, flow lookup, bridging, routing, the ACL,
learning and NAT, egress, hand-over. -/
namespace Sys2Proof.Machine

/-- The copy of a packet for a port, with what a receive descriptor says of it. -/
def Pkt.out (k : Pkt) (port sub : Nat) (data : Bytes) (reason mal acl : Nat) : PktOut :=
  ⟨port, sub, k.cls, data, k.port, some k.sub, reason, mal, k.vrf, k.bd, k.sub, k.cls, b2n k.dec + 2 * k.tag, k.stamp, acl, k.rxLen, k.dscp, k.dei, 0⟩

/-- A punted copy (R321): it keeps its subscriber and class. -/
def Pkt.punt (k : Pkt) (reason : Nat) (mal : Nat := 0xFF) (acl : Nat := 0xFFFF) : PktOut := k.out 11 k.sub k.data reason mal acl

/-! Ordering and release (R293) -/

/-- Decided packets leave, each once no earlier packet of its ordering domain is still inside. -/
def State.pkRelease : List Pkt → List (Option Nat) → State → State
  | [], _, s => s
  | k :: t, ahead, s =>
    if k.st = 4 ∧ ¬ ahead.contains k.dom then
      State.pkRelease t ahead (k.outs.foldl State.tmAdmit (s.pkUpd (fun x => { x with pkts := x.pkts.filter (fun y => y.num != k.num) })))
    else State.pkRelease t (if k.st = 0 then ahead else k.dom :: ahead) s

/-- A packet is decided: its copies leave in order. A packet that is dropped or punted gives up its place at once. -/
def State.pkDone (s : State) (k : Pkt) (outs : List PktOut) : State :=
  let now := outs.all (fun o => o.reason != 0)
  let done : Pkt := { k with st := 4, outs := outs }
  let left := if now then s.pk.pkts.filter (fun y => y.num != k.num) else s.pk.pkts.map (fun y => if y.num == k.num then done else y)
  let s1 := s.pkUpd (fun x => { x with pkts := left })
  let s2 := if now then outs.foldl State.tmAdmit s1 else s1
  State.pkRelease s2.pk.pkts [] s2

/-- The packet inside the engine replaced. -/
def State.pkSet (s : State) (k : Pkt) : State := s.pkUpd (fun x => { x with pkts := x.pkts.map (fun y => if y.num == k.num then k else y) })

/-! Hash (R293) and metadata (R298) -/

/-- The 12-bit hash of a packet's outer addresses, protocol and ports. -/
def pktHash (b : Bytes) (h : Hdr) : Nat :=
  (if h.fam = 4 ∨ h.fam = 6 then Config.flowHash (h.sip ++ h.dip ++ [b8 h.proto] ++ beBytes 2 h.sport ++ beBytes 2 h.dport)
   else Config.flowHash (slice b 0 12)) % 4096

/-- Metadata of a packet at its first pass. -/
def State.pkMeta (s : State) (k : Pkt) (h : Hdr) : Pkt :=
  let ip := decide (h.fam = 4 ∨ h.fam = 6)
  { k with vrf := s.get Fld.PRS_PORT_CFG_W0.VRF [k.port],
           bd := (h.tags.head?.map (·.1)).getD (s.get Fld.PRS_PORT_CFG_W0.PVID [k.port]),
           cls := k.given.getD (if ip && s.flag Fld.PRS_PORT_CFG_W0.TRUST_DSCP [k.port] then h.dscp / 8 else s.get Fld.PRS_PORT_CFG_W0.DEF_CLASS [k.port]),
           dom := some (4096 * k.port + pktHash k.data h), dscp := if ip then some h.dscp else none,
           dei := (h.tags.head?.map (·.2)).getD false }

/-! Egress (R306, R316 to R318) -/

/-- The router's MAC address, byte 0 first. -/
def State.rmac (s : State) : Bytes := leBytes 4 (s.reg .FLW_RMAC_LO).toNat ++ leBytes 2 (s.get Fld.FLW_RMAC_HI.ADDR)

/-- An Ethernet header toward a nexthop. -/
def State.nhHeader (s : State) (nh : Bytes) (etype : Nat) : Bytes :=
  let v := leAt nh 10 2
  slice nh 4 6 ++ s.rmac ++ (if bitOf v 15 then [0x81, 0x00] ++ beBytes 2 (v % 4096) else []) ++ beBytes 2 etype

/-- A group nexthop's member for a hash (R306). -/
def State.nhMember (s : State) (bank i hash : Nat) : Bytes :=
  let e := s.fent bank 3 i
  if nhGroup e then s.fent bank 3 (i + 1 + hash % max 1 (nhCount e)) else e

/-- The subscriber a nexthop or L2 entry gives. -/
def subOr (sub e : Nat) : Nat := if e = 0xFFFF then sub else e

/-- DSCP of an outer header. -/
def outerDscp (t : Bytes) (inner : Nat) : Nat := if bitOf (leAt t 46 1) 7 then inner else leAt t 46 1 % 64

/-- The IP header of a tunnel over a payload (R317); identification, flags and flow label are unstated. -/
def State.tnHeader (s : State) (t : Bytes) (proto inner len : Nat) : Bytes :=
  ipHeader (tnV6 t) (slice t 4 16) (slice t 20 16) proto (leAt t 45 1) (outerDscp t inner) len (Config.freeBytes s.free 4)

/-- Outbound ESP (R318, RFC 4303, RFC 4106): the IP packet in tunnel mode under SA `i`; `none` when the SA cannot be used. -/
def State.espOut (s : State) (t : Bytes) (i : Nat) (ip : Bytes) (dscp : Nat) : Option Bytes × State :=
  let sa := s.fent 0 9 i
  let seq := leAt sa 16 8
  let esn := bitOf (leAt sa 0 1) 2
  if ¬ fvalid sa ∨ bitOf (leAt sa 0 1) 1 then (none, s.inc .FLW_CNT_ESP_NOSA)
  else if (if esn then 2 ^ 64 - 1 else 2 ^ 32 - 1) < seq + 1 then (none, (s.inc .FLW_CNT_ESP_NOSA).raise (ev 5 18))
  else match s.useKey 1 (leAt sa 2 2) with
    | (none, s1) => (none, s1.inc .FLW_CNT_ESP_NOSA)
    | (some key, _) =>
      let iv := slice (Config.freeBytes s.free 8) 0 8
      let pad := (4 - (ip.length + 2) % 4) % 4
      let text := ip ++ (List.range pad).map (fun j => b8 (j + 1)) ++ [b8 pad, if beAt ip 0 1 / 16 = 6 then 41 else 4]
      let spi := slice sa 4 4
      let aad := spi.reverse ++ (if esn then beBytes 8 seq else beBytes 4 seq)
      let nonce := slice sa 8 4 ++ iv
      let enc := aesCtr 2 key nonce text
      let esp := spi.reverse ++ beBytes 4 (seq % 2 ^ 32) ++ iv ++ enc ++ gcmTag key nonce aad enc 16
      (some (s.tnHeader t 50 dscp esp.length ++ esp),
        { s with free := s.free + 2 }.setFent 0 9 i (patch sa 16 (leBytes 8 (seq + 1))))

/-- A tunnel's outer headers over a packet (R316, R317): `frame` the Ethernet form, `ip` the IP packet. -/
def State.encap (s : State) (bank ti : Nat) (frame ip : Bytes) (dscp hash : Nat) : Option Bytes × State :=
  let t := s.fent bank 5 ti
  let wrap := fun (proto : Nat) (b : Bytes) => (some (s.tnHeader t proto dscp b.length ++ b), { s with free := s.free + 2 })
  let r := match tnType t with
    | 0 =>
      let v := [8, 0, 0, 0] ++ beBytes 3 (leAt t 36 3) ++ [0] ++ frame
      wrap 17 (beBytes 2 (49152 + hash % 16384) ++ beBytes 2 4789 ++ beBytes 2 (8 + v.length) ++ slice (Config.freeBytes (s.free + 1) 2) 0 2 ++ v)
    | 3 => s.espOut t (leAt t 40 2) ip dscp
    | k =>
      let key := if tnKeyed t then beBytes 4 (leAt t 36 4) else []
      wrap 47 ([if tnKeyed t then 0x20 else 0, 0] ++ beBytes 2 (if k = 1 then 0x6558 else if beAt ip 0 1 / 16 = 6 then 0x86DD else 0x0800) ++ key
        ++ (if k = 1 then frame else ip))
  match r with
  | (some b, s1) =>
    if tnNext t = 0xFFFF then (some b, s1)
    else s1.espOut (s1.fent bank 5 (tnNext t)) (leAt (s1.fent bank 5 (tnNext t)) 40 2) b (outerDscp t dscp)
  | x => x

/-- Bytes MACsec adds to a frame of a port (R317, R320). -/
def State.msecAdds (s : State) (p : Nat) : Nat :=
  if s.flag Fld.ETH_MSEC_CFG.EN [p] then (if s.flag Fld.ETH_MSEC_CFG.SCI_EN [p] then 32 else 24) else 0

/-- A copy goes out, after the MTU check of an Ethernet port (R317). -/
def State.egress (s : State) (k : Pkt) (port sub : Nat) (data : Bytes) (acl : Nat) : List PktOut × State :=
  if port < 8 ∧ s.get Fld.ETH_CFG.MAX_FRAME [port] < data.length + 4 + s.msecAdds port then
    let s1 := (s.inc .FLW_CNT_MTU).inc .ETH_CNT_TX_MTU [port]
    (if s.flag Fld.ETH_CFG.MTU_ACT [port] then [k.punt 5 0xFF acl] else [], s1)
  else ([k.out port sub data 0 0xFF acl], s)

/-- A packet through a tunnel and the tunnel's nexthop (R317). -/
def State.tunnelOut (s : State) (k : Pkt) (ti : Nat) (frame ip : Bytes) (dscp hash acl : Nat) : List PktOut × State :=
  let nh := s.nhMember k.tag (leAt (s.fent k.tag 5 ti) 48 2) hash
  match s.encap k.tag ti frame ip dscp hash with
  | (some b, s1) => s1.egress k (nhPort nh) (subOr k.sub (leAt nh 12 2)) (s1.nhHeader nh (if beAt b 0 1 / 16 = 6 then 0x86DD else 0x0800) ++ b) acl
  | (none, s1) => ([], s1)

/-! Bridging (R304, R305) -/

/-- Where a packet goes: dropped (0), punted with a reason (1), routed through a nexthop (2), bridged to ports with subscribers, a flood
tunnel (3). -/
structure Fwd where
  kind : Nat
  reason : Nat
  nh : Bytes
  dests : List (Nat × Nat)
  tnl : Nat
  also : Bool
  deriving DecidableEq, Repr

/-- Nothing is forwarded. -/
def Fwd.drop : Fwd := { kind := 0, reason := 0, nh := [], dests := [], tnl := 0xFFFF, also := false }

/-- The source of a bridged packet against L2: whether it is dropped, and learning. -/
def State.l2Learn (s : State) (k : Pkt) : Bool × State :=
  let mac := slice k.data 6 6
  let ent : Bytes := [5, b8 k.port] ++ mac ++ leBytes 2 k.bd ++ [0xFF, 0xFF] ++ leBytes 4 s.rawSec
  match s.l2Find mac k.bd with
  | some i =>
    let b := s.fent 0 7 i
    let here := leAt b 1 1 == k.port
    if bitOf (leAt b 0 1) 1 then
      if here then (false, s.setFent 0 7 i (patch b 12 (leBytes 4 s.rawSec))) else (true, s.inc .FLW_CNT_L2_MOVE)
    else if here then (false, s.setFent 0 7 i (patch b 12 (leBytes 4 s.rawSec)))
    else if s.flag Fld.PRS_PORT_CFG_W0.LEARN [k.port] then (false, (s.setFent 0 7 i ent).inc .FLW_CNT_L2_MOVE)
    else (false, s)
  | none =>
    if ¬ s.flag Fld.PRS_PORT_CFG_W0.LEARN [k.port] then (false, s)
    else match ((List.range 4).map (l2Base mac k.bd + ·)).find? (fun i => !fvalid (s.fent 0 7 i)) with
      | some i => (false, s.setFent 0 7 i ent)
      | none => (false, s.inc .FLW_CNT_L2_LEARN_FAIL)

/-- Bridge a packet. The copy to port 10 carries BCAST_SUB, whether or not FLOOD names that port (DEDUCED, notes/assumptions/55.md). -/
def State.bridge (s : State) (k : Pkt) (h : Hdr) : Fwd × State :=
  let bd := s.fent k.tag 0 k.bd
  if ¬ fvalid bd ∨ k.l3 then (Fwd.drop, s.inc .FLW_CNT_NO_ROUTE)
  else
    let group := bitOf (beAt k.data 0 1) 0
    let r := s.l2Learn k
    if r.1 then (Fwd.drop, r.2)
    else
      let s1 := r.2
      let flood : Fwd := { Fwd.drop with kind := 3, dests := ((bdFlood bd).filter (fun p => p != k.port && p != 10)).map (fun p => (p, k.sub)) ++ [(10, leAt bd 6 2)], tnl := bdTnl bd }
      if bdL3 bd ∧ (h.fam = 1 ∨ (h.proto = 58 ∧ h.fam = 6 ∧ 133 ≤ h.icmp ∧ h.icmp ≤ 137)) then
        (if group then { flood with also := true, reason := 8 } else { Fwd.drop with kind := 1, reason := 8 }, s1)
      else if group then (flood, s1)
      else match s1.l2Find (slice k.data 0 6) k.bd with
        | some i =>
          let e := s1.fent 0 7 i
          ({ Fwd.drop with kind := 3, dests := [(leAt e 1 1, subOr k.sub (leAt e 10 2))] }, s1)
        | none => (flood, s1)

/-! Routing (R306) -/

/-- The first `n` bits of two addresses agree. -/
def prefixEq (a b : Bytes) (n : Nat) : Bool :=
  let w := 8 * a.length
  decide (n ≤ w) && beNat a / 2 ^ (w - n) == beNat b / 2 ^ (w - n)

/-- The longest matching prefix: its nexthop. -/
def State.routeFind (s : State) (bank vrf : Nat) (v6 : Bool) (dip : Bytes) : Option Nat :=
  let t := if v6 then 2 else 1
  let w := if v6 then 16 else 4
  let l := (s.fents bank t).filter (fun e => leAt e.2 1 1 == vrf && prefixEq (slice e.2 4 w) dip (leAt e.2 2 1))
  let best := l.foldl (fun (m : Option Bytes) e => match m with
    | some b => if leAt b 2 1 < leAt e.2 2 1 then some e.2 else m
    | none => some e.2) none
  best.map (fun b => leAt b (if v6 then 20 else 8) 2)

/-- Route a packet on the destination as it now is. -/
def State.routePkt (s : State) (k : Pkt) (h : Hdr) (hash : Nat) : Fwd × State :=
  match (if h.fam = 4 ∨ h.fam = 6 then s.routeFind k.tag k.vrf (h.fam == 6) h.dip else none) with
  | none => (if s.flag Fld.FLW_CFG.NO_ROUTE_PUNT then { Fwd.drop with kind := 1, reason := 3 } else Fwd.drop, s.inc .FLW_CNT_NO_ROUTE)
  | some n =>
    if h.ttl ≤ 1 then (if s.flag Fld.FLW_CFG.TTL_PUNT then { Fwd.drop with kind := 1, reason := 4 } else Fwd.drop, s.inc .FLW_CNT_TTL)
    else
      let nh := s.nhMember k.tag n hash
      if bitOf (leAt nh 0 1) 3 then (Fwd.drop, s)
      else if bitOf (leAt nh 0 1) 2 then ({ Fwd.drop with kind := 1, reason := 6 }, s)
      else ({ Fwd.drop with kind := 2, nh := nh }, s)

/-- Step 4 of R303. -/
def State.forward (s : State) (k : Pkt) (h : Hdr) (hash : Nat) : Fwd × State :=
  let bd := s.fent k.tag 0 k.bd
  let control := decide (h.fam = 1) || (h.fam == 6 && h.proto == 58 && decide (133 ≤ h.icmp ∧ h.icmp ≤ 137))
  if k.l3 ∨ (fvalid bd ∧ bdL3 bd ∧ slice k.data 0 6 = s.rmac ∧ ¬ control) then s.routePkt k h hash else s.bridge k h

/-- Copies of a packet where step 4 sends it (R303 step 7). -/
def State.sendOut (s : State) (k : Pkt) (h : Hdr) (f : Fwd) (hash acl : Nat) : List PktOut × State :=
  match f.kind with
  | 2 =>
    let k1 := if bitOf (leAt f.nh 3 1) 7 then { k with cls := leAt f.nh 3 1 % 8 } else k
    let ip := (ttlDown k.data h).drop h.l3At
    let frame := s.nhHeader f.nh (if h.fam = 6 then 0x86DD else 0x0800) ++ ip
    if nhTunnel f.nh = 0xFFFF then s.egress k1 (nhPort f.nh) (subOr k.sub (leAt f.nh 12 2)) frame acl
    else s.tunnelOut k1 (nhTunnel f.nh) frame (ip.take (h.ends - h.l3At)) h.dscp hash acl
  | 3 =>
    let r := f.dests.foldl (fun (a : List PktOut × State) d =>
      let x := a.2.egress k d.1 d.2 k.data acl
      (a.1 ++ x.1, x.2)) (if f.also then [k.punt f.reason 0xFF acl] else [], s)
    if f.tnl = 0xFFFF then r
    else
      let x := r.2.tunnelOut k f.tnl k.data (slice k.data h.l3At (h.ends - h.l3At)) h.dscp hash acl
      (r.1 ++ x.1, x.2)
  | 1 => ([k.punt f.reason 0xFF acl], s)
  | _ => ([], s)

/-! The ACL (R307, R308) -/

/-- A rule matches a packet's fields as received. -/
def aclMatch (b : Bytes) (k : Pkt) (h : Hdr) : Bool :=
  let f := fun (o n : Nat) => leAt b o n
  let v6 := bitOf (f 0 1) 1
  let w := if v6 then 16 else 4
  let ip := decide (h.fam = 4 ∨ h.fam = 6)
  let open_ := f 0x28 1 == 0 && f 0x29 1 == 0 && !bitOf (f 0 1) 2
  let sLo := f 0x2C 2; let sHi := f 0x2E 2; let dLo := f 0x30 2; let dHi := f 0x32 2
  (f 4 3 == 0 || bitOf (f 4 3) k.port) && f 7 1 == k.vrf
    && (if ip then (h.fam == (if v6 then 6 else 4)) && prefixEq (slice b 8 w) h.sip (f 0x28 1) && prefixEq (slice b 0x18 w) h.dip (f 0x29 1) else open_)
    && (!bitOf (f 0 1) 2 || (ip && h.proto == f 1 1))
    && Nat.land h.dscp (f 3 1) == Nat.land (f 2 1) (f 3 1)
    && (!bitOf (f 0 1) 3 || (ip && h.proto == 6 && Nat.land h.tcpf (f 0x2B 1) == f 0x2A 1))
    && (if h.ported then decide (sLo ≤ h.sport ∧ h.sport ≤ sHi ∧ dLo ≤ h.dport ∧ h.dport ≤ dHi)
        else sLo == 0 && sHi == 0xFFFF && dLo == 0 && dHi == 0xFFFF)

/-- The first matching rule in index order. -/
def State.aclFind (s : State) (k : Pkt) (h : Hdr) : Option (Nat × Bytes) := (s.fents k.tag 4).find? (fun e => aclMatch e.2 k h)

/-! Flow entries (R309 to R313) -/

/-- The key of a packet as received. -/
def pktKey (k : Pkt) (h : Hdr) : Bytes := mkKey k.vrf h.sip h.dip h.sport h.dport h.proto

/-- A TCP segment with FIN or RST. -/
def finRst (h : Hdr) : Bool := h.proto == 6 && (bitOf h.tcpf 0 || bitOf h.tcpf 2)

/-- An entry's IDLE class becomes 0. -/
def idleZero (b : Bytes) : Bytes := patch b 1 [b8 (setBits (leAt b 1 1) 1 0 0)]

/-- A hit (R303 step 3, R312): counters, LAST_SEEN, IDLE class, and the translation of the packet's header. OCTETS counts in 64 bytes, rounded
as spec/ leaves free. -/
def State.flowHit (s : State) (i : Nat) (k : Pkt) (h : Hdr) : Pkt × State :=
  let b := s.flowGet i
  let b1 := patch b 52 (leBytes 4 s.rawSec ++ leBytes 4 (satAdd 0xFFFFFFFF (leAt b 56 4) 1) ++ leBytes 4 (satAdd 0xFFFFFFFF (leAt b 60 4) (ratioFree k.data.length 64)))
  let fin := finRst h
  let s1 := s.flowCache i (if fin then idleZero b1 else b1)
  let s2 := match (if fin then s1.flowPartner i else none) with
    | some j => s1.flowPut j (idleZero (s1.flowGet j))
    | none => s1
  let data := if flowFlag b 5 then natRewrite k.data h false (slice b 44 4) (leAt b 48 2)
    else if flowFlag b 6 then natRewrite k.data h true (slice b 44 4) (leAt b 48 2) else k.data
  ({ k with data := data }, s2)

/-- A flow entry as it is learned. -/
def mkFlow (flags : Nat) (key : Bytes) (pool : Nat) (xaddr : Bytes) (xport sec : Nat) : Bytes :=
  leBytes 2 flags ++ key ++ [b8 pool, 0] ++ slice xaddr 0 4 ++ leBytes 2 xport ++ [0, 0] ++ leBytes 4 sec ++ List.replicate 8 0

/-- A free port of a NAT pool (R313): the packet's own where PRESERVE asks for it, else the next after the one last allocated. -/
def State.natPort (s : State) (bank pool own : Nat) : Option Nat :=
  let e := s.fent bank 6 pool
  let lo := leAt e 8 2
  let hi := leAt e 10 2
  let n := hi + 1 - lo
  let free := fun (p : Nat) => !s.pk.natUsed.contains (pool, p)
  let last := sget (fun _ => 0) s.pk.natLast pool
  let start := if lo ≤ last ∧ last < hi then last + 1 - lo else 0
  if bitOf (leAt e 0 1) 1 ∧ lo ≤ own ∧ own ≤ hi ∧ free own then some own
  else ((List.range n).map (fun i => lo + (start + i) % n)).find? free

/-- NAT44 applies to the packet (R313). -/
def natFits (h : Hdr) : Bool := h.fam == 4 && !h.frag && (h.proto == 6 || h.proto == 17 || (h.proto == 1 && h.echo))

/-- A flow pair is placed (R312): both entries, or none. -/
def State.flowPair (s : State) (orig rev : Bytes) : Option State :=
  match s.flowFree (flowKey orig) with
  | none => none
  | some i =>
    let s1 := (s.flowPut i orig).flowCache i orig
    (s1.flowFree (flowKey rev)).map (fun j => s1.flowPut j rev)

/-- What learning does with a packet: goes on with a translation, or drops it. -/
structure Learn where
  go : Bool
  dstNat : Bool
  pkt : Pkt
  deriving DecidableEq, Repr

/-- Flow learning (R312, R313): `kind` the ACL kind (3 NAT_SRC, 4 NAT_DST), `pool` its pool. -/
def State.flowLearn (s : State) (k : Pkt) (h : Hdr) (kind pool : Nat) : Learn × State :=
  let nat := decide (3 ≤ kind)
  if nat && !natFits h then (⟨false, false, k⟩, s.inc .FLW_CNT_NAT_UNSUP)
  else
    let pe := s.fent k.tag 6 pool
    let port := if kind = 3 then s.natPort k.tag pool h.sport else some (if leAt pe 8 2 = 0 then h.dport else leAt pe 8 2)
    match (if nat then port else some 0) with
    | none => (⟨false, false, k⟩, (s.inc .FLW_CNT_NAT_EXHAUST).pkMark 2 16)
    | some x =>
      let cls := if finRst h then 0 else if h.proto = 6 then 2 else if h.proto = 17 then 1 else 0
      let base := 1 + 2 * b2n (h.fam == 6) + 8 + 256 * cls
      let key := pktKey k h
      let addr := slice pe 4 4
      let po := if nat then pool else 0xFF
      let orig := mkFlow (base + (if kind = 3 then 32 else if kind = 4 then 64 else 0)) key po (if nat then addr else []) x s.rawSec
      let rev := if kind = 3 then mkFlow (base + 16 + 64) (partnerKey orig) po h.sip h.sport s.rawSec
        else if kind = 4 then mkFlow (base + 16 + 32) (partnerKey orig) po h.dip h.dport s.rawSec
        else mkFlow (base + 16) (partnerKey orig) po [] 0 s.rawSec
      match s.flowPair orig rev with
      | none => (⟨!nat, false, k⟩, (s.inc .FLW_CNT_LEARN_FAIL).pkMark 1 15)
      | some s1 =>
        let s2 := if kind = 3 then s1.pkUpd (fun y => { y with natUsed := (pool, x) :: y.natUsed, natLast := sset (fun _ => 0) y.natLast pool x }) else s1
        let data := if kind = 3 then natRewrite k.data h false addr x else if kind = 4 then natRewrite k.data h true addr x else k.data
        (⟨true, kind == 4, { k with data := data }⟩, s2)

/-! Steps 4 to 8 of R303 -/

/-- Steps 5 to 8: the ACL and learning unless the packet hit a REVERSE entry, then its copies go out. `h` is the header as received, `k`
the packet as step 3 left it, `miss` that it missed there. -/
def State.pkPermit (s : State) (k : Pkt) (h : Hdr) (f : Fwd) (rev miss : Bool) (hash : Nat) (raw : Bytes) : State :=
  let send := fun (u : State) (k1 : Pkt) (f1 : Fwd) (acl : Nat) (extra : List PktOut) =>
    let r := u.sendOut k1 (parsePkt k1.data k1.l3 k1.off) f1 hash acl
    r.2.pkDone k1 (extra ++ r.1)
  if rev then send s k f 0xFFFF []
  else
    let rule := s.aclFind k h
    let a := (rule.map (fun e => leAt e.2 0x34 2)).getD 0
    let n := (rule.map (·.1)).getD 0xFFFF
    let s1 := match rule with
      | some e => s.setFent k.tag 4 e.1 (patch e.2 0x38 (leBytes 4 (satAdd 0xFFFFFFFF (leAt e.2 0x38 4) 1)))
      | none => s
    let kind : Nat := match rule with
      | some _ => a % 8
      | none => if s.flag Fld.FLW_CFG.ACL_DENY then 1 else 0
    let k1 := if bitOf a 5 then { k with cls := a / 64 % 8 } else k
    let mirror := if bitOf a 4 then [{ (k1.punt 9 0xFF n) with data := raw }] else []
    if kind = 1 then (s1.inc .FLW_CNT_ACL_DENY).pkDone k1 mirror
    else if kind = 2 then s1.pkDone k1 (mirror ++ [{ (k1.punt 2 0xFF n) with data := raw }])
    else if miss ∧ (bitOf a 3 ∨ 3 ≤ kind ∨ s.flag Fld.FLW_CFG.LEARN_ALL) then
      let l : Learn × State := s1.flowLearn k1 h kind ((rule.map (fun e => leAt e.2 0x36 2)).getD 0)
      if !l.1.go then l.2.pkDone k1 mirror
      else if l.1.dstNat then
        let g := l.2.forward l.1.pkt (parsePkt l.1.pkt.data k1.l3 k1.off) hash
        send g.2 l.1.pkt g.1 n mirror
      else send l.2 l.1.pkt f n mirror
    else send s1 k1 f n mirror

/-- Steps 3 to 8 of R303 once the flow lookup is settled: `hit` the entry found. -/
def State.pkDecide (s : State) (k : Pkt) (h : Hdr) (looked : Bool) (hit : Option Nat) : State :=
  let r := match hit with
    | some i => s.flowHit i k h
    | none => (k, s)
  let rev := (hit.map (fun i => flowFlag (s.flowGet i) 4)).getD false
  let hash := pktHash k.data h
  let g := r.2.forward r.1 (parsePkt r.1.data k.l3 k.off) hash
  if g.1.kind = 0 then g.2.pkDone r.1 []
  else if g.1.kind = 1 then g.2.pkDone r.1 [{ (r.1.punt g.1.reason) with data := k.data }]
  else g.2.pkPermit r.1 h g.1 rev (looked && hit.isNone) hash k.data

/-- Packets awaiting a bucket. -/
def State.pkWaiting (s : State) : List Pkt := s.pk.pkts.filter (fun k => k.st == 3)

/-- Buckets being fetched. -/
def State.pkFetches (s : State) : List Nat := (s.pkWaiting.map (·.bucket)).eraseDups

/-- Step 3 of R303 (R310, R311): the cache, else a fetch of the bucket. -/
def State.pkLookup (s : State) (k : Pkt) (h : Hdr) : State :=
  if s.flag Fld.FLW_CFG.FT_EN ∧ (h.fam = 4 ∨ h.fam = 6) then
    let key := pktKey k h
    match s.pk.cache.find? (fun e => flowFlag e.2 0 && flowKey e.2 == key) with
    | some e => s.pkDecide k h true (some e.1)
    | none =>
      let n := s.pkFetches.length
      let s1 := if n < 2048 then s.pkUpd (fun x => { x with missArmed := true }) else s
      if 4096 ≤ n ∨ 16384 ≤ s.pkWaiting.length then
        let s2 := ((s1.inc .FLW_CNT_MISS_DROP).pkUpd (fun x => { x with missArmed := false })).pkDone k []
        if s1.pk.missArmed then s2.raise (ev 5 14) else s2
      else s1.pkSet { k with st := 3, bucket := flowBase key / 4 }
  else s.pkDecide k h false none

/-! Malformed packets (R296, R297) -/

/-- A packet malformed with a class: counted, and treated as PRS_MAL_ACT says. -/
def State.pkMalformed (s : State) (k : Pkt) (h : Hdr) (c : Nat) : State :=
  let s1 := (s.inc .PRS_CNT_MAL [c]).pkMark 0 12
  let act := wbits (s.reg .PRS_MAL_ACT) (2 * c + 1) (2 * c)
  if act = 0 then s1.pkDone k []
  else if act = 1 then s1.pkDone k [k.punt 1 c]
  else
    let g := s1.bridge k { h with fam := 0 }
    let r := g.2.sendOut k h g.1 (pktHash k.data h) 0xFFFF
    r.2.pkDone k ((if act = 3 then [k.punt 1 c] else []) ++ r.1)

/-- The packet recirculates for another pass from an offset, or is too deep (R295). -/
def State.pkAgain (s : State) (k : Pkt) (h : Hdr) (o : Nat) : State :=
  if 4 ≤ k.passes then s.pkMalformed k h 7 else (s.inc .PRS_CNT_RECIRC).pkSet { k with st := 1, off := o }

/-! Tunnel termination (R316, R318) -/

/-- The TERM entry that a packet is addressed to. -/
def State.termFind (s : State) (k : Pkt) (h : Hdr) : Option Bytes :=
  let w := if h.fam = 6 then 16 else 4
  let gre := beAt k.data (h.l4At + 2) 2
  let kPos := h.l4At + 4 + (if bitOf (beAt k.data h.l4At 1) 7 then 4 else 0)
  if (h.fam ≠ 4 ∧ h.fam ≠ 6) ∨ h.frag then none
  else ((s.fents k.tag 5).find? (fun e =>
    let t := e.2
    tnTerm t && tnV6 t == (h.fam == 6) && slice t 4 w == h.dip && (zeroAt t 20 16 || slice t 20 w == h.sip)
      && (match tnType t with
        | 0 => h.proto == 17 && h.dport == 4789
        | 1 => h.proto == 47 && gre == 0x6558
        | 2 => h.proto == 47 && (gre == 0x0800 || gre == 0x86DD)
        | _ => h.proto == 50)
      && (!tnKeyed t || tnType t == 0 || tnType t == 3 || (bitOf (beAt k.data h.l4At 1) 5 && beAt k.data kPos 4 == leAt t 36 4)))).map (·.2)

/-- The full sequence number of an inbound packet (RFC 4303 appendix A): the highest accepted, the window, the low half received. -/
def esnOf (esn : Bool) (top win lo : Nat) : Nat :=
  if ¬ esn then lo
  else
    let tl := top % 2 ^ 32
    let th := top / 2 ^ 32
    if win ≤ tl + 1 then (if tl + 1 - win ≤ lo then th * 2 ^ 32 + lo else (th + 1) * 2 ^ 32 + lo)
    else if 2 ^ 32 + tl + 1 - win ≤ lo then (th - 1) * 2 ^ 32 + lo else th * 2 ^ 32 + lo

/-- Inbound ESP (R318): the inner packet recirculates once it is authenticated. A number already accepted counts as a replay (PRESUMED from
RFC 4303, notes/assumptions/55.md). -/
def State.espIn (s : State) (k : Pkt) (h : Hdr) (t : Bytes) : State :=
  let o := h.l4At
  match (s.fents 0 9).find? (fun e => bitOf (leAt e.2 0 1) 1 && leAt e.2 4 4 == beAt k.data o 4) with
  | none => (s.inc .FLW_CNT_ESP_NOSA).pkDone k []
  | some (i, sa) =>
    let esn := bitOf (leAt sa 0 1) 2
    let top := leAt sa 16 8
    let win := leAt sa 12 2
    let seq := esnOf esn top win (beAt k.data (o + 4) 4)
    if seq + win ≤ top ∨ s.pk.espSeen.contains (i, seq) then (s.inc .FLW_CNT_ESP_REPLAY).pkDone k []
    else
      let nonce := slice sa 8 4 ++ slice k.data (o + 8) 8
      let n := h.ends - (o + 32)
      let enc := slice k.data (o + 16) n
      let aad := slice k.data o 4 ++ (if esn then beBytes 8 seq else beBytes 4 seq)
      match s.useKey 1 (leAt sa 2 2) with
      | (none, s1) => ((s1.inc .FLW_CNT_ESP_AUTH).pkMark 3 17).pkDone k []
      | (some key, _) =>
        if gcmTag key nonce aad enc 16 ≠ slice k.data (o + 16 + n) 16 then ((s.inc .FLW_CNT_ESP_AUTH).pkMark 3 17).pkDone k []
        else
          let text := aesCtr 2 key nonce enc
          let inner := text.take (text.length - 2 - beAt text (text.length - 2) 1)
          let newTop := max top seq
          let s1 := (s.setFent 0 9 i (patch sa 16 (leBytes 8 newTop))).pkUpd (fun x => { x with
            espSeen := (i, seq) :: x.espSeen.filter (fun e => e.1 != i || decide (newTop < e.2 + win)) })
          s1.pkAgain { k with data := inner, l3 := true, vrf := leAt t 44 1, dec := true } h 0

/-- A terminated packet (R316): the inner packet recirculates. -/
def State.pkTerm (s : State) (k : Pkt) (h : Hdr) (t : Bytes) : State :=
  let inner := fun (o : Nat) => slice k.data o (h.ends - o)
  match tnType t with
  | 0 =>
    let vni := beAt k.data (h.l4At + 12) 3
    match (s.fents k.tag 0).find? (fun e => bdVni e.2 == vni) with
    | none => (s.inc .FLW_CNT_NO_ROUTE).pkDone k []
    | some e => s.pkAgain { k with data := inner (h.l4At + 16), l3 := false, bd := e.1 } h 0
  | 1 => s.pkAgain { k with data := inner (h.l4At + greLen k.data h.l4At), l3 := false, bd := leAt t 42 2 % 4096 } h 0
  | 2 => s.pkAgain { k with data := inner (h.l4At + greLen k.data h.l4At), l3 := true, vrf := leAt t 44 1 } h 0
  | _ => s.espIn k h t

/-- A pass ends (R295, R296, R303). A PTP frame of a fronthaul lane goes to ring 0 as L2_CONTROL (R369). -/
def State.pkPassEnd (s : State) (k0 : Pkt) : State :=
  let h := parsePkt k0.data k0.l3 k0.off
  let k := if k0.passes = 1 then s.pkMeta k0 h else k0
  match h.mal, h.more with
  | some c, _ => s.pkMalformed k h c
  | none, some o => s.pkAgain k h o
  | none, none =>
    if h.eth ∧ ¬ k.l3 ∧ (h.dst / 16 = 0x0180C200000 ∨ ((k.port = 8 ∨ k.port = 9) ∧ h.etype = 0x88F7)) then s.pkDone k [k.punt 7]
    else match s.termFind k h with
      | some t => s.pkTerm k h t
      | none => s.pkLookup k h

end Sys2Proof.Machine
end

