-- ==== Sys2Proof/Machine/Prs.lean ====
section
/-! DEFINITION. The rows of the packet engine (R290 to R325): Ethernet reception with MACsec, passes, bucket fetches, versions, tables, aging,
software rings. -/
namespace Sys2Proof.Machine

/-! MACsec reception (R320) -/

/-- The IV of a frame (IEEE 802.1AE): SCI and PN, or under XPN the SALT over SSCI and PN. -/
def msecIv (xpn : Bool) (sa : Bytes) (sci : Bytes) (pn : Nat) : Bytes :=
  if xpn then beBytes 12 (Nat.xor (beNat ((slice sa 12 4).reverse ++ beBytes 8 pn)) (beNat (slice sa 24 12)))
  else sci ++ beBytes 4 pn

/-- The packet number a frame stands for under XPN (IEEE 802.1AE): the low half received, against the lowest acceptable number. -/
def xpnOf (xpn : Bool) (low lo : Nat) : Nat :=
  if ¬ xpn then lo
  else if 2 ^ 31 ≤ low % 2 ^ 32 ∧ lo + 2 ^ 31 ≤ low % 2 ^ 32 then (low / 2 ^ 32 + 1) * 2 ^ 32 + lo
  else low / 2 ^ 32 * 2 ^ 32 + lo

/-- A frame as the SecY of port `p` leaves it: its bytes and whether it was verified; `none` when it is dropped. -/
def State.msecIn (s : State) (p : Nat) (b : Bytes) : Option (Bytes × Bool) × State :=
  let val := s.get Fld.ETH_MSEC_CFG.VALIDATE [p]
  if ¬ s.flag Fld.ETH_MSEC_CFG.EN [p] ∨ beAt b 12 2 = 0x888E then (some (b, false), s)
  else if beAt b 12 2 ≠ 0x88E5 then
    if val = 2 then (none, s) else (some (b, false), if val = 1 then s.inc .ETH_CNT_MSEC_UNTAGGED [p] else s)
  else if val = 0 then (none, s.inc .ETH_CNT_MSEC_NOSA [p])
  else
    let tci := beAt b 14 1
    let hdr := if bitOf tci 5 then 28 else 20
    let sci := if bitOf tci 5 then slice b 20 8 else slice b 6 6 ++ [0, 1]
    let sl := beAt b 15 1 % 64
    let n := if sl = 0 then b.length - hdr - 16 else sl
    match ((List.range 16).map (fun c => 68 * p + 4 + 4 * c + tci % 4)).find? (fun i => fvalid (s.fent 0 10 i) && slice (s.fent 0 10 i) 4 8 == sci.reverse) with
    | none => (none, s.inc .ETH_CNT_MSEC_NOSA [p])
    | some i =>
      let sa := s.fent 0 10 i
      let xpn := decide (2 ≤ s.get Fld.ETH_MSEC_CFG.SUITE [p])
      let low := leAt sa 16 8
      let pn := xpnOf xpn low (beAt b 16 4)
      if s.flag Fld.ETH_MSEC_CFG.REPLAY_EN [p] && decide (pn < low) then (none, s.inc .ETH_CNT_MSEC_REPLAY [p])
      else
        let enc := bitOf tci 3
        let text := slice b hdr n
        let iv := msecIv xpn sa sci pn
        let use := s.useKey 2 (leAt sa 2 2)
        let key := use.1.getD []
        let aad := b.take hdr ++ (if enc then [] else text)
        let ok := use.1.isSome && gcmTag key iv aad (if enc then text else []) 16 == slice b (hdr + n) 16
        let plain := b.take 12 ++ (if enc then aesCtr 2 key iv text else text)
        if ok then
          (some (plain, true), s.setFent 0 10 i (patch sa 16 (leBytes 8 (max low (pn + 1 - (s.reg .ETH_MSEC_WIN [p]).toNat)))))
        else if enc then (none, (use.2.inc .ETH_CNT_MSEC_AUTH [p]).pkMark 4 19)
        else if val = 2 then (none, use.2)
        else (some (plain, false), use.2.inc .ETH_CNT_MSEC_AUTH [p])

/-- A PAUSE frame of `q` quanta pauses port `p` of the traffic manager (R343). -/
def State.tmPause (s : State) (p q : Nat) : State :=
  s.tmUpd (fun x => { x with pauseEnd := x.pauseEnd.set p (if q = 0 then none else some (s.now + q * 512 * 1000 / s.lineRate p)) })

/-- ETH_FRAME_RECEIVE (R319, R320, R343): a frame without its FCS on port `p`; `fcs` says whether that is good, `age` the age of its
stamp in ns. -/
def execEthFrameReceive (p age : Nat) (fcs : Bool) (data : Bytes) (s : State) : Host.Outcome State Fault Refusal :=
  .next (if 8 ≤ p ∨ ¬ s.active 5 ∨ ¬ s.serving ∨ ¬ s.portUp p ∨ ¬ s.flag Fld.ETH_CFG.EN [p] then s
    else if ¬ fcs then s.inc .ETH_CNT_RX_FCS [p]
    else if data.length + 4 < 64 then s.inc .ETH_CNT_RX_RUNT [p]
    else if s.get Fld.ETH_CFG.MAX_FRAME [p] < data.length + 4 then s.inc .ETH_CNT_RX_OVERSIZE [p]
    else match s.msecIn p data with
      | (none, s1) => s1
      | (some (b, dec), s1) =>
        if s.flag Fld.ETH_CFG.PAUSE_RX [p] ∧ beAt b 0 6 = 0x0180C2000001 ∧ beAt b 12 2 = 0x8808 ∧ beAt b 14 2 = 1 then s1.tmPause p (beAt b 16 2)
        else
          let s2 := s1.ingress p b ((s.netTime - age) % 2 ^ 32).toNat none none dec (data.length + 4)
          if s1.pk.pkts.length < s2.pk.pkts.length then s2.inc .ETH_CNT_RX_OK [p] else s2)

/-! Passes (R291 to R295) -/

/-- Packets of a pipe between their first pass and their release. -/
def State.pkInflight (s : State) (pipe : Nat) : Nat := (s.pk.pkts.filter (fun k => k.pipe == pipe && k.st != 0)).length

/-- The packet a pipe serves next: a recirculated one, else the head of an ingress queue, round robin from the port after the last. -/
def State.pkPick (s : State) (pipe : Nat) : Option Pkt :=
  match s.pk.pkts.find? (fun k => k.pipe == pipe && k.st == 1) with
  | some k => some k
  | none =>
    if 2048 ≤ s.pkInflight pipe ∨ s.pwr.sleep.isSome then none
    else
      let last := (s.pk.served[pipe]?).getD 0
      ((List.range 24).map (fun i => (last + 1 + i) % 24)).findSome? (fun p => s.pk.pkts.find? (fun k => k.port == p && k.pipe == pipe && k.st == 0))

/-- PASS_START (R291, R300): a pipe starts a pass in a slot; it starts at most 300 million a second. -/
def execPassStart (pipe : Nat) (s : State) : Host.Outcome State Fault Refusal :=
  .next (if pipe < 2 ∧ s.active 5 ∧ s.serving ∧ (s.pk.slotAt[pipe]?).getD 0 ≤ 3 * s.now then
      match s.pkPick pipe with
      | none => s
      | some k =>
        let k1 : Pkt := { k with st := 2, passes := k.passes + 1, tag := if k.st = 0 then s.actBank else k.tag }
        let s1 := (s.pkSet k1).pkUpd (fun x => { x with
          slotAt := x.slotAt.set pipe (3 * s.now + 10), served := if k.st = 0 then x.served.set pipe k.port else x.served,
          passLog := (pipe, s.now) :: x.passLog.filter (fun e => decide (s.now < e.2 + 1000000)) })
        (s1.inc .PRS_CNT_PASS [pipe]).ingPause k.port
    else s)

/-- PASS_END (R295, R296, R303): the pass of packet `n` ends. -/
def execPassEnd (n : Nat) (s : State) : Host.Outcome State Fault Refusal :=
  .next (match s.pk.pkts.find? (fun k => k.num == n && k.st == 2) with
    | some k => if s.active 5 then s.pkPassEnd k else s
    | none => s)

/-- FLOW_BUCKET_FETCH (R310, R312): the fetch of bucket `b` returns and its waiting packets continue in order. -/
def execFlowBucketFetch (b : Nat) (s : State) : Host.Outcome State Fault Refusal :=
  .next (let l := s.pkWaiting.filter (fun k => k.bucket == b)
    if l.isEmpty ∨ ¬ s.active 5 then s
    else
      let a := s.flowAddr (4 * b)
      match s.memRead (.engine 5 3) a 256 with
      | (0, _, _) => l.foldl (fun t k =>
          let h := parsePkt k.data k.l3 k.off
          t.pkDecide k h true (t.flowFind (pktKey k h))) s
      | (c, _, s1) => l.foldl (fun t k => (t.inc .FLW_CNT_MISS_DROP).pkDone k []) (s1.capture 5 1 3 (.engine 5 3) c a))

/-! Registers -/

/-- A receive ring: entries, whether it is empty. -/
def State.swSize (s : State) (r : Nat) : Nat := 2 ^ s.get Fld.FLW_SW_RX_CFG.SIZE_LOG2 [r]
@[inherit_doc State.swSize] def State.swEmpty (s : State) (r : Nat) : Bool :=
  s.get Fld.FLW_SW_RX_TAIL.TAIL [r] % s.swSize r == s.get Fld.FLW_SW_RX_HEAD.HEAD [r] % s.swSize r

/-- Completions of a ring. -/
def State.swCpl (s : State) (r : Nat) : List (Nat × Nat) := (s.pk.cpl[r]?).getD []

/-- Performed writes of the engine's registers. -/
def wrFlw (r : Reg) (ix : List Nat) (v : Word) (rq : Req) (s : State) : State :=
  match r, ix with
  | .FLW_VER_CTL, _ => s.verOp (wbits v 3 0)
  | .FLW_TBL_CTL, _ => s.flwOp (wbits v 3 0)
  | .FLW_SW_RX_FREE, _ => s.bufFree v.toNat
  | .FLW_SW_RX_HEAD, [n] =>
    let s1 := storeWord r ix v rq s
    if s1.swEmpty n then s1.pkUpd (fun x => { x with armed := x.armed.set n true }) else s1
  | _, _ => storeWord r ix v rq s

/-- Performed reads of the engine's registers. -/
def rdFlw (r : Reg) (ix : List Nat) (rq : Req) (s : State) : Word × State :=
  match r, ix with
  | .PRS_STAT, [p] =>
    let n := (s.pk.passLog.filter (fun e => e.1 == p && decide (s.now < e.2 + 1000000))).length
    (w32 (ratioFree n 1000 * 2 ^ 16 + s.pkInflight p), s)
  | .FLW_MISS_STAT, _ => (w32 (s.pkFetches.length * 2 ^ 16 + s.pkWaiting.length), s)
  | .FLW_SW_PEND, _ =>
    (w32 (maskOf ((List.range 9).filter (fun r => !(s.swCpl r).isEmpty)) * 2 ^ 9 + maskOf ((List.range 9).filter (fun r => !s.swEmpty r))), s)
  | .FLW_SW_TX_CPL_POP, [n] =>
    match s.swCpl n with
    | [] => (0x8FFF0000, s)
    | c :: t => (w32 (c.1 * 2 ^ 16 + c.2), s.pkUpd (fun x => { x with cpl := x.cpl.set n t }))
  | _, _ => loadWord r ix rq s

/-- FLW_VER_COMMIT (R301): a write of FLW_VER_CTL with OP COMMIT. -/
def execFlwVerCommit (rq : Req) (s : State) : Host.Outcome State Fault Refusal :=
  .next (writeReg rq (Reg.addr .FLW_VER_CTL []) 4 1 okFlw wrFlw s)

/-- COPY (R301): a write of FLW_VER_CTL with OP COPY. -/
def execFlwCopy (rq : Req) (s : State) : Host.Outcome State Fault Refusal :=
  .next (writeReg rq (Reg.addr .FLW_VER_CTL []) 4 2 okFlw wrFlw s)

/-- DRAIN_END (R301): no packet carries the old version's tag any more. -/
def execDrainEnd (s : State) : Host.Outcome State Fault Refusal :=
  .next (match s.pk.draining with
    | some b =>
      if s.pk.pkts.all (fun k => k.st == 0 || k.tag != b) then (s.pkUpd (fun x => { x with draining := none })).verDone 0 0 true else s
    | none => s)

/-- FLW_LOAD (R300): a write of FLW_TBL_CTL with OP LOAD. -/
def execFlwLoad (rq : Req) (s : State) : Host.Outcome State Fault Refusal :=
  .next (writeReg rq (Reg.addr .FLW_TBL_CTL []) 4 1 okFlw wrFlw s)

/-- FLW_WRITE (R300): a write with OP WRITE. -/
def execFlwWrite (rq : Req) (s : State) : Host.Outcome State Fault Refusal :=
  .next (writeReg rq (Reg.addr .FLW_TBL_CTL []) 4 2 okFlw wrFlw s)

/-- FLW_CLEAR (R300): a write with OP CLEAR. -/
def execFlwClear (rq : Req) (s : State) : Host.Outcome State Fault Refusal :=
  .next (writeReg rq (Reg.addr .FLW_TBL_CTL []) 4 3 okFlw wrFlw s)

/-- INSERT (R305, R315): a write with OP INSERT. -/
def execFlwInsert (rq : Req) (s : State) : Host.Outcome State Fault Refusal :=
  .next (writeReg rq (Reg.addr .FLW_TBL_CTL []) 4 4 okFlw wrFlw s)

/-- DELETE (R305, R315): a write with OP DELETE. -/
def execFlwDelete (rq : Req) (s : State) : Host.Outcome State Fault Refusal :=
  .next (writeReg rq (Reg.addr .FLW_TBL_CTL []) 4 5 okFlw wrFlw s)

/-- AGING_SCAN (R305, R314): the scan visits the next flow bucket, and the L2 bucket of that number when there is one; it takes SCAN_S for
all 262,144. -/
def execAgingScan (s : State) : Host.Outcome State Fault Refusal :=
  .next (let b := s.pk.scanned
    if s.active 5 ∧ s.pk.scanAt + max 1 (s.get Fld.FLW_AGE_CFG2.SCAN_S) * 1000000000 / 262144 ≤ s.now then
      let s1 := if s.flag Fld.FLW_CFG.FT_EN then (List.range 4).foldl (fun t w => t.flowAge (4 * b + w)) s else s
      let s2 := if b < 16384 then (List.range 4).foldl (fun t w => t.l2Age (4 * b + w)) s1 else s1
      s2.pkUpd (fun x => { x with scanned := (b + 1) % 262144, scanAt := s.now })
    else s)

/-! Software rings (R321, R322) -/

/-- The event of ring `r`: receive or completions. -/
def State.swEvent (s : State) (r : Nat) (rx : Bool) : State := s.raise (ev 5 (if r ≠ 0 then 23 else if rx then 21 else 22))

/-- A completion of ring `r`. -/
def State.swComplete (s : State) (r idx status : Nat) : State :=
  let s1 := s.pkUpd (fun x => { x with cpl := x.cpl.set r (s.swCpl r ++ [(idx, status)]) })
  if (s.swCpl r).isEmpty then s1.swEvent r false else s1

/-- The receive descriptor of a packet (R321). -/
def PktOut.desc (o : PktOut) : Bytes :=
  leBytes 4 o.buf ++ leBytes 2 o.data.length ++ [b8 o.inPort, b8 o.reason, b8 o.mal, b8 o.vrf] ++ leBytes 2 o.bd ++ leBytes 2 o.msub
    ++ [b8 o.mcls, b8 o.flags] ++ leBytes 4 o.stamp ++ leBytes 2 o.acl ++ List.replicate 10 0

/-- A software ring takes a packet, or drops it (R322). -/
def State.swReceive (s : State) (r : Nat) (o : PktOut) : State :=
  let n := s.swSize r
  let t := s.get Fld.FLW_SW_RX_TAIL.TAIL [r] % n
  if ¬ s.flag Fld.FLW_SW_RX_CFG.EN [r] ∨ (t + 1) % n = s.get Fld.FLW_SW_RX_HEAD.HEAD [r] % n then
    let s1 := ((s.bufFree o.buf).inc .FLW_CNT_SW_RX_DROP).pkUpd (fun x => { x with armed := x.armed.set r false })
    if (s.pk.armed[r]?).getD true then s1.raise (ev 5 24) else s1
  else
    let s1 := (s.memPut (64 * (s.reg .FLW_SW_RX_BASE [r]).toNat + 32 * t) o.desc).set Fld.FLW_SW_RX_TAIL.TAIL [r] ((t + 1) % n)
    if s.swEmpty r then s1.swEvent r true else s1

/-- A transmit descriptor of ring `r` is bad (R321). -/
def State.swBad (s : State) (r : Nat) (d : Bytes) : Bool :=
  let len := leAt d 4 2
  let direct := bitOf (leAt d 8 1) 0
  decide (len < 14 ∨ leAt d 6 2 < len ∨ 16000 < len ∨ 2 ≤ leAt d 8 1) || !zeroAt d 13 3 || !zeroAt d 20 12
    || (direct && (r != 0 || !s.portEnabled (leAt d 9 1)))

/-- SW_TX_DESCRIPTOR_FETCH (R321, R322): the next descriptor of ring `r`, while completions have room. -/
def execSwTxDescriptorFetch (r : Nat) (s : State) : Host.Outcome State Fault Refusal :=
  .next (let n := 2 ^ s.get Fld.FLW_SW_TX_CFG.SIZE_LOG2 [r]
    let h := s.get Fld.FLW_SW_TX_HEAD.HEAD [r] % n
    if r < 9 ∧ s.active 5 ∧ s.serving ∧ s.flag Fld.FLW_SW_TX_CFG.EN [r] ∧ h ≠ s.get Fld.FLW_SW_TX_TAIL.TAIL [r] % n ∧ (s.swCpl r).length < 256 then
      let a := 64 * (s.reg .FLW_SW_TX_BASE [r]).toNat + 32 * h
      let d := s.bytes a 32
      let s1 := s.set Fld.FLW_SW_TX_HEAD.HEAD [r] ((h + 1) % n)
      if s.swBad r d then ((s1.inc .FLW_CNT_BAD_DESC).capture 5 1 3 (.engine 5 3) 2 a).swComplete r h 1
      else
        let data := s.bytes (64 * leAt d 0 4) (leAt d 4 2)
        let s2 := if bitOf (leAt d 8 1) 0 then
            s1.tmAdmit ⟨leAt d 9 1, leAt d 10 2, leAt d 12 1 % 8, data, 11, none, 0, 0xFF, 0, 0, leAt d 10 2, leAt d 12 1 % 8, 0, s.stamp, 0xFFFF, data.length + 4, none, false, 0⟩
          else s1.ingress (11 + r) data s.stamp none none false (data.length + 4)
        s2.swComplete r h 0
    else s)

/-- TX_CPL_POP (R26, R322): a read pops a completion of ring `r`. -/
def execSwTxCplPop (rq : Req) (r : Nat) (s : State) : Host.Outcome State Fault Refusal :=
  .next (readReg rq (Reg.addr .FLW_SW_TX_CPL_POP [r]) 4 readAny rdFlw s)

/-- RX_FREE (R321, R322): a write to ring `r` releases a packet handle. -/
def execSwRxFree (rq : Req) (r : Nat) (v : Word) (s : State) : Host.Outcome State Fault Refusal :=
  .next (writeReg rq (Reg.addr .FLW_SW_RX_FREE [r]) 4 v okFlw wrFlw s)

/-! Mode changes (R322, R323, R324) -/

/-- PK is fenced or off: every packet, table and binding of the engine is lost (R323). -/
def State.pkLost (s : State) : State := { s with pk := { Pk.reset with next := s.pk.next } }

/-- After a reload of PK the flow table is cleared before release (R315). -/
def State.flowClear (s : State) : State := s.memDrop (s.flowAddr 0) (s.flowAddr 1048576)

/-- The cache is written back (R323). -/
def State.flowFlush (s : State) : State := (s.pk.cache.foldl (fun t e => t.memPut (t.flowAddr e.1) e.2) s).pkUpd (fun x => { x with cache := [] })

/-- A ring's fetched descriptors complete FLUSHED and its EN clears (R322, R518): descriptors between HEAD and TAIL are not fetched. -/
def State.swFlush (s : State) (r : Nat) : State := (s.set Fld.FLW_SW_RX_CFG.EN [r] 0).set Fld.FLW_SW_TX_CFG.EN [r] 0

end Sys2Proof.Machine
end

