-- ==== Sys2Proof/Machine/TallyOps.lean ====
section
/-! DEFINITION. Tally (R383 to R392), the event controller's registers (R393 to R396), the cores' control registers (R378,
R381). -/
namespace Sys2Proof.Machine

/-- Tally updated. -/
def State.tlyUpd (s : State) (f : Tally → Tally) : State := { s with tly := f s.tly }

/-- BEADS, CLASS and REGION of a rod in the TALLY_RODS record (R383). -/
def State.rodBeads (s : State) (r : Nat) : Nat := leAt (s.body 6 0x34) (4 * r) 2
@[inherit_doc State.rodBeads] def State.rodClass (s : State) (r : Nat) : Nat := leAt (s.body 6 0x34) (4 * r + 2) 1
@[inherit_doc State.rodBeads] def State.rodRegion (s : State) (r : Nat) : Nat := leAt (s.body 6 0x34) (4 * r + 3) 1

/-- The rod serves a fenced region: CLASS 1 naming it, CLASS 2 when BB is fenced (R392). -/
def State.rodFenced (s : State) (r : Nat) : Bool :=
  (s.rodClass r == 1 && (s.fenced (s.rodRegion r) || s.push.reloading == some (s.rodRegion r)))
    || (s.rodClass r == 2 && (s.fenced 4 || s.push.reloading == some 4))

/-- Beads of a rod in flight (R383). -/
def State.inflight (s : State) (r : Nat) : Nat := (s.tly.beads.filter (fun b => b.rod == r)).length

/-- The rod takes another bead. -/
def State.rodRoom (s : State) (r : Nat) : Bool := decide (s.inflight r < s.rodBeads r)

/-- A FULL or a stall on a rod (R385, R386, R406): counted, and TLY_FULL raised when it is the first since the rod was last
below half its BEADS. -/
def State.tlyFull (s : State) (r : Nat) : State :=
  let s1 := s.inc .TLY_CNT_FULL
  if s.tly.fullArmed.contains r then
    (s1.tlyUpd (fun t => { t with fullArmed := t.fullArmed.filter (fun x => x != r) })).raise (ev 6 13)
  else s1

/-- Arm the FULL alarm of every rod that is below half its BEADS. -/
def State.tlyArm (s : State) : State :=
  s.tlyUpd (fun t => { t with fullArmed := (List.range 16).filter (fun r =>
    t.fullArmed.contains r || decide (2 * (t.beads.filter (fun b => b.rod == r)).length < s.rodBeads r)) })

/-- A ready handle that no bead in flight has; which one is free (notes/assumptions/21.md). -/
def State.freeHandle (s : State) : Nat :=
  let st := Config.freeNat s.free % 16384
  ((List.range 16384).find? (fun i => !s.tly.beads.any (fun b => b.handle == (st + i) % 16384))).elim st
    (fun i => (st + i) % 16384)

/-- The bead joins its rod now (R387): it takes a handle and a stamp. -/
def State.tlyJoin (s : State) (b : Bead) : Nat × State :=
  let h := s.freeHandle
  (h, { s with free := s.free + 1,
               tly := { s.tly with beads := s.tly.beads ++ [{ b with handle := h, stamp := s.stamp, waiting := true }] } })

/-- An ordered bead takes the next SEQ of its flow at acceptance (R389, R391). -/
def State.tlySeq (s : State) (b : Bead) : Bead × State :=
  if b.ordered then
    ({ b with seq := sget (fun _ => 0) s.tly.nextSeq b.flow },
      s.tlyUpd (fun t => { t with nextSeq := sset (fun _ => 0) t.nextSeq b.flow ((sget (fun _ => 0) t.nextSeq b.flow + 1) % 2 ^ 32) }))
  else (b, s)

/-- Release the beads of a flow that are done, strictly in SEQ order, while its release queue has room (R389, R390). -/
def State.release : Nat → State → Nat → State
  | 0, s, _ => s
  | n + 1, s, f =>
    let q := f / 256
    let nx := sget (fun _ => 0) s.tly.released f
    let l := (s.tly.rels[q]?).getD []
    match s.tly.beads.find? (fun b => b.ordered && b.flow == f && b.seq == nx && b.done.isSome) with
    | some b =>
      if b.hidden then
        State.release n (s.tlyUpd (fun t => { t with
          beads := t.beads.filter (fun x => !(x.ordered && x.flow == f && x.seq == nx)),
          released := sset (fun _ => 0) t.released f ((nx + 1) % 2 ^ 32) })) f
      else if l.length < 256 then
        let d := b.done.getD (0, 0)
        let s1 := s.tlyUpd (fun t => { t with
          beads := t.beads.filter (fun x => !(x.ordered && x.flow == f && x.seq == nx)),
          released := sset (fun _ => 0) t.released f ((nx + 1) % 2 ^ 32),
          rels := t.rels.set q (l ++ [⟨f, nx, d.1, d.2⟩]) })
        State.release n (if l.isEmpty then s1.raise (ev 6 12) else s1) f
      else s
    | none => s

/-- A bead is done with status and result (R388, R389, R392): an unordered one frees its place at once (FENCED is counted), an
ordered one waits for its release. -/
def State.tlyEnd (s : State) (h status result : Nat) : State :=
  match s.tly.beads.find? (fun b => b.handle == h && b.done.isNone) with
  | none => s
  | some b =>
    if b.ordered then
      let s1 := s.tlyUpd (fun t => { t with beads := t.beads.map (fun x =>
        if x.handle == h && x.done.isNone then { x with done := some (status, result), waiting := false, holder := none } else x) })
      (s1.release 16384 b.flow).tlyArm
    else
      let s1 := s.tlyUpd (fun t => { t with beads := t.beads.filter (fun x => x.handle != h) })
      (if status = 2 then s1.inc .TLY_CNT_FENCED else s1).tlyArm

/-- The bead that words W0 to W5 of a copy spell (R384, R385). -/
def State.stagedBead (s : State) (c : Nat) : Bead :=
  let w := fun n => (s.reg .TLY_ENQ_W [n] c).toNat
  { handle := 0, func := w 0, args := [w 1, w 2, w 3, w 4], flow := bits (w 5) 11 0, ordered := bitOf (w 5) 15,
    rod := bits (w 5) 19 16, fromEvent := none, delayed := false, seq := 0, stamp := 0, waiting := true, holder := none,
    done := none, hidden := false }

/-- Commit TLY_ENQ_STAT in a copy: 0 OK, 1 FULL, 2 FENCED, 3 BAD, 4 DLY_FULL, 5 NOT_FOUND, with a handle. -/
def State.enqStat (s : State) (c res h : Nat) : State := s.commit .TLY_ENQ_STAT [] (res * 2 ^ 24 + h) c

/-- The bead is BAD: its rod has BEADS 0, or a CLASS 2 FUNC lies above 0x7FFF (R385). -/
def State.badBead (s : State) (b : Bead) : Bool :=
  s.rodBeads b.rod == 0 || (s.rodClass b.rod == 2 && decide (0x7FFF < b.func))

/-- OP=READY (R385, R389, R392). -/
def State.tlyReady (s : State) (c : Nat) : State :=
  let b := s.stagedBead c
  if s.badBead b then s.enqStat c 3 0
  else if s.rodFenced b.rod then s.enqStat c 2 0
  else if !s.rodRoom b.rod then (s.tlyFull b.rod).enqStat c 1 0
  else
    let sq := s.tlySeq b
    let j := sq.2.tlyJoin sq.1
    j.2.enqStat c 0 j.1

/-- The tick of a delay list in ns (R391). -/
def State.dlyTick (s : State) (l : Nat) : Nat := s.get Fld.TLY_DLY_CFG.TICK [l] * 100

/-- A delay entry leaves its list at its tick (R391, R392): it joins its rod with DELAYED=1, ends FENCED, or waits while its rod
is full or an earlier entry of the rod waits. -/
def State.dlyDue (s : State) (l e : Nat) : State :=
  match s.tly.delays.find? (fun d => d.list == l && d.entry == e) with
  | none => s
  | some d =>
    let ahead := (s.tly.delays.takeWhile (fun x => !(x.list == l && x.entry == e))).any
      (fun x => x.list == l && x.bead.rod == d.bead.rod)
    if s.ntu.raw < d.due || ahead then s
    else
      let out := s.tlyUpd (fun t => { t with delays := t.delays.filter (fun x => !(x.list == l && x.entry == e)) })
      if s.rodFenced d.bead.rod then
        let j := out.tlyJoin { d.bead with delayed := true }
        j.2.tlyEnd j.1 2 0
      else if s.rodRoom d.bead.rod then
        let s1 := if d.due + s.dlyTick l < s.ntu.raw then out.inc .TLY_CNT_DLY_LATE else out
        (s1.tlyJoin { d.bead with delayed := true }).2
      else s

/-- Put an entry behind every entry due no later (R391). -/
def insertDelay (d : DelayEnt) : List DelayEnt → List DelayEnt
  | [] => [d]
  | x :: t => if x.due ≤ d.due then x :: insertDelay d t else d :: x :: t

/-- OP=DELAY (R356, R391): a launch time read as past is due at once. -/
def State.tlyDelay (s : State) (c l : Nat) : State :=
  let b := s.stagedBead c
  if s.badBead b then s.enqStat c 3 0
  else if s.rodFenced b.rod then s.enqStat c 2 0
  else
    match (List.range 8192).find? (fun i =>
        !s.tly.delays.any (fun d => d.list == l && d.entry == (Config.freeNat s.free + i) % 8192)) with
    | none => s.enqStat c 4 0
    | some i =>
      let e := (Config.freeNat s.free + i) % 8192
      let tick := s.dlyTick l
      let due := match s.launchRaw (s.reg .TLY_ENQ_DUE [] c).toNat with
        | some r => ceilDiv r (max 1 tick) * tick
        | none => s.ntu.raw
      let sq := ({ s with free := s.free + 1 }).tlySeq b
      let s1 := sq.2.tlyUpd (fun t => { t with delays := insertDelay ⟨l, e, due, sq.1⟩ t.delays })
      let s2 := s1.enqStat c 0 (l * 8192 + e)
      if due ≤ s.ntu.raw then s2.dlyDue l e else s2

/-- A cancel of a delay entry (R391, R404): an entry that has fallen due goes first. A cancelled ordered bead gives its SEQ up. -/
def State.dlyCancel (s : State) (c h : Nat) : State :=
  let l := h / 8192 % 4
  let e := h % 8192
  let s0 := s.dlyDue l e
  match s0.tly.delays.find? (fun d => d.list == l && d.entry == e) with
  | none => s0.enqStat c 5 h
  | some d =>
    let s1 := s0.tlyUpd (fun t => { t with delays := t.delays.filter (fun x => !(x.list == l && x.entry == e)) })
    let s2 := if d.bead.ordered then
        let gone : Bead := { d.bead with rod := 16, waiting := false, done := some (0, 0), hidden := true, handle := 16384 }
        (s1.tlyUpd (fun t => { t with beads := t.beads ++ [gone] })).release 16384 d.bead.flow
      else s1
    s2.enqStat c 0 h

/-- The rods a worker serves (R387). -/
def State.serves (s : State) (rq : Req) (r : Nat) : Bool :=
  match rq with
  | .core n => s.rodClass r == 0 && bitOf (s.get Fld.TLY_CORE_RODS.MASK [n]) r
  | .rcore n => s.rodClass r == 1 && s.rodRegion r == n
  | .rkn _ => s.rodClass r == 2
  | _ => false

/-- The bead a worker gets: the head of the highest-numbered non-empty rod it serves (R387). -/
def State.headBead (s : State) (rq : Req) : Option Bead :=
  ((List.range 16).reverse.filter (fun r => s.rodBeads r != 0 && s.serves rq r)).findSome?
    (fun r => s.tly.beads.find? (fun b => b.rod == r && b.waiting && b.done.isNone))

/-- The worker holds the bead from now on. -/
def State.takeBead (s : State) (h : Nat) (rq : Req) : State :=
  s.tlyUpd (fun t => { t with beads := t.beads.map (fun x =>
    if x.handle == h && x.waiting then { x with waiting := false, holder := some rq } else x) })

/-- The eight words of a bead (R384). -/
def Bead.words (b : Bead) : List Nat :=
  [b.func, (b.args[0]?).getD 0, (b.args[1]?).getD 0, (b.args[2]?).getD 0, (b.args[3]?).getD 0,
    b.flow % 4096 + b2n b.ordered * 32768 + b.rod % 16 * 65536 + (b2n b.fromEvent.isSome + 2 * b2n b.delayed) * 2 ^ 24,
    b.seq, b.stamp]

/-- TLY_PICK by a core (R387): the bead's words are latched into the picker's TLY_CUR. -/
def State.tlyPick (s : State) (rq : Req) : Word × State :=
  match s.headBead rq with
  | none => (0xBFFF0000, s)
  | some b =>
    (w32 (b.handle * 65536 + b.rod),
      b.words.zipIdx.foldl (fun t e => t.setReg .TLY_CUR_W [e.2] (w32 e.1) (regCopy rq .TLY_CUR_W)) (s.takeBead b.handle rq))

/-- A pop of release queue `q` (R26, R390); the room it makes lets waiting releases in. -/
def State.relPop (s : State) (q : Nat) : Word × State :=
  match (s.tly.rels[q]?).getD [] with
  | [] => (0x8FFF0000, s)
  | e :: t =>
    let s1 := (s.tlyUpd (fun x => { x with rels := x.rels.set q t })).setReg .TLY_REL_RES [] (w32 e.result)
    let flows := ((s1.tly.beads.filter (fun b => b.ordered && b.done.isSome && b.flow / 256 == q)).map (·.flow)).eraseDups
    (w32 (e.status * 2 ^ 28 + e.flow * 65536 + e.seq % 65536), (flows.foldl (State.release 16384) s1).tlyArm)

/-- A fence of region `r` on Tally (R392). -/
def State.tlyFence (s : State) (r : Nat) : State :=
  let hit := fun (b : Bead) => b.done.isNone && (match b.holder with
    | some (.rcore n) => n == r
    | some (.rkn _) => r == 4
    | some _ => false
    | none => b.waiting && ((s.rodClass b.rod == 1 && s.rodRegion b.rod == r) || (s.rodClass b.rod == 2 && r == 4)))
  ((s.tly.beads.filter hit).map (·.handle)).foldl (fun t h => t.tlyEnd h 2 0) s

/-- Claim the first of a list of sources: the returned word and PEND zeroed; `ts` says whether FIRST is latched (R395). -/
def State.claim (s : State) (l : List Nat) (ts : Bool) : Word × State :=
  match l with
  | [] => (0x80FF0000, s)
  | e :: _ =>
    let s1 := s.setPend e 0
    (w32 (e * 65536 + s.pend e), if ts then s1.setReg .EVT_CLAIM_TS [] (w32 (s.firstStamp e)) else s1)

/-- Sources routed to a core or region core that pend, by priority and then number (R395). -/
def State.claimList (s : State) (kind n : Nat) : List Nat :=
  let l := (List.range 256).filter (fun e => (s.route e).kind == kind && (s.route e).target == n && s.pend e != 0 && !s.evtMasked e)
  (List.range 8).reverse.flatMap (fun p => l.filter (fun e => (s.route e).vector % 8 == p))

/-- A read of EVT_CLAIM by a core (R395); any other requester finds nothing routed to it. -/
def State.evtClaim (s : State) (rq : Req) : Word × State :=
  match rq with
  | .core n => s.claim (s.claimList 2 n) true
  | .rcore n => s.claim (s.claimList 3 n) true
  | _ => (0x80FF0000, s)

/-- A read of EVT_HCLAIM by a function (R395). -/
def State.evtHclaim (s : State) (rq : Req) : Word × State :=
  match rq with
  | .pcie f => s.claim ((List.range 256).filter (fun e => (s.route e).kind == 4 && (s.route e).target == f && s.pend e != 0
      && !s.evtMasked e)) false
  | _ => (0x80FF0000, s)

/-- Frequency in MHz of an island of the running plan. -/
def State.islandMhz (s : State) (region block cell : Nat) : Nat :=
  ((s.pwr.islands.find? (fun i => i.region == region && i.block == block && i.cell == cell)).map (·.mhz)).getD 0

/-- Start an application core (R378). -/
def State.coreStart (s : State) (c : Nat) : State :=
  (s.set Fld.APC_CORE_CTL.RUN [c] 1).setReg .APC_CORE_STAT [c] (w32 (2 ^ 28 + s.islandMhz 6 1 c % 65536))

/-- Values and conditions that APC, TLY and EVT registers let through. -/
def okTly (r : Reg) (ix : List Nat) (v : Word) (rq : Req) (s : State) : Bool :=
  match r with
  | .TLY_ENQ_GO => wbits v 3 0 == 1 || wbits v 3 0 == 2
  | .TLY_DONE => wbits v 31 30 < 2 && s.tly.beads.any (fun b => b.handle == wbits v 13 0 && b.holder == some rq && b.done.isNone)
  | .TLY_DLY_CFG => 1 ≤ wbits v 13 0 && wbits v 13 0 ≤ 10000 && !s.tly.delays.any (fun d => some d.list == ix[0]?)
  | _ => true

/-- Performed writes of APC, RGC core, TLY and EVT registers. -/
def wrTly (r : Reg) (ix : List Nat) (v : Word) (rq : Req) (s : State) : State :=
  let c := regCopy rq r
  match r, ix with
  | .TLY_ENQ_GO, _ => if wbits v 3 0 = 1 then s.tlyReady c else s.tlyDelay c (wbits v 5 4)
  | .TLY_DLY_CANCEL, _ => s.dlyCancel c (wbits v 14 0)
  | .TLY_DONE, _ => s.tlyEnd (wbits v 13 0) (wbits v 31 30) (s.reg .TLY_DONE_RES [] c).toNat
  | .EVT_CLR, _ => s.setPend (wbits v 7 0) 0
  | .APC_CORE_CTL, [n] =>
    if s.flag Fld.APC_CORE_CTL.RUN [n] then
      if bitOf v.toNat 31 then s else (s.set Fld.APC_CORE_CTL.RUN [n] 0).set Fld.APC_CORE_STAT.STATE [n] 0
    else if bitOf v.toNat 31 then s.coreStart n else s
  | .RGC_CORE_CTL, [g] =>
    if s.flag Fld.RGC_CORE_CTL.RUN [g] then
      if bitOf v.toNat 31 then s else (s.set Fld.RGC_CORE_CTL.RUN [g] 0).set Fld.RGC_CORE_STAT.STATE [g] 0
    else if bitOf v.toNat 31 then (s.set Fld.RGC_CORE_CTL.RUN [g] 1).set Fld.RGC_CORE_STAT.STATE [g] 1 else s
  | _, _ => storeWord r ix v rq s

/-- Performed reads of TLY and EVT registers. -/
def rdTly (r : Reg) (ix : List Nat) (rq : Req) (s : State) : Word × State :=
  match r, ix with
  | .TLY_PICK, _ => s.tlyPick rq
  | .TLY_REL_POP, [q] => s.relPop q
  | .TLY_ROD_STAT, [n] =>
    (w32 (s.rodClass n % 4 * 2 ^ 30 + s.inflight n % 32768 * 2 ^ 15
      + (s.tly.beads.filter (fun b => b.rod == n && b.waiting)).length % 32768), s)
  | .TLY_DLY_CFG, [l] =>
    (w32 ((s.tly.delays.filter (fun d => d.list == l)).length * 65536 + s.get Fld.TLY_DLY_CFG.TICK [l]), s)
  | .TLY_REL_PEND, _ => (w32 (maskOf ((List.range 16).filter (fun q => !((s.tly.rels[q]?).getD []).isEmpty))), s)
  | .EVT_CLAIM, _ => s.evtClaim rq
  | .EVT_HCLAIM, _ => s.evtHclaim rq
  | .EVT_PEND, _ =>
    let e := s.get Fld.EVT_PEND_SEL.EVENT
    (w32 ((s.route e).kind * 256 + s.pend e), s)
  | _, _ => loadWord r ix rq s

/-! The rows -/

/-- CORE_START (R378): RUN 0 to 1 starts the core at START. -/
def execCoreStart (rq : Req) (c : Nat) (s : State) : Host.Outcome State Fault Refusal :=
  .next (writeReg rq (Reg.addr .APC_CORE_CTL [c]) 4 0x80000000 okTly wrTly s)

/-- CORE_RESET (R378): RUN 1 to 0 resets the core. -/
def execCoreReset (rq : Req) (c : Nat) (s : State) : Host.Outcome State Fault Refusal :=
  .next (writeReg rq (Reg.addr .APC_CORE_CTL [c]) 4 0 okTly wrTly s)

/-- REGION_CORE_START (R381). -/
def execRegionCoreStart (rq : Req) (g : Nat) (s : State) : Host.Outcome State Fault Refusal :=
  .next (writeReg rq (Reg.addr .RGC_CORE_CTL [g]) 4 0x80000000 okTly wrTly s)

/-- REGION_CORE_RESET (R381). -/
def execRegionCoreReset (rq : Req) (g : Nat) (s : State) : Host.Outcome State Fault Refusal :=
  .next (writeReg rq (Reg.addr .RGC_CORE_CTL [g]) 4 0 okTly wrTly s)

/-- REGION_CORE_TRAP (R381): a running region core takes an unhandled exception at an offset of its instruction memory. -/
def execRegionCoreTrap (g pc : Nat) (s : State) : Host.Outcome State Fault Refusal :=
  .next (if g < 6 ∧ s.running g ∧ (s.get Fld.RGC_CORE_STAT.STATE [g] = 1 ∨ s.get Fld.RGC_CORE_STAT.STATE [g] = 2) then
    s.sets [g] [(Fld.RGC_CORE_STAT.STATE, 3), (Fld.RGC_CORE_STAT.TRAP_PC, pc)] else s)

/-- READY (R385). -/
def execTlyReady (rq : Req) (s : State) : Host.Outcome State Fault Refusal :=
  .next (writeReg rq (Reg.addr .TLY_ENQ_GO []) 4 1 okTly wrTly s)

/-- DELAY (R391): the delay list is DLIST. -/
def execTlyDelay (rq : Req) (dlist : Nat) (s : State) : Host.Outcome State Fault Refusal :=
  .next (writeReg rq (Reg.addr .TLY_ENQ_GO []) 4 (w32 (dlist % 4 * 16 + 2)) okTly wrTly s)

/-- TLY_DLY_CANCEL (R391, R404). -/
def execTlyDlyCancel (rq : Req) (h : Nat) (s : State) : Host.Outcome State Fault Refusal :=
  .next (writeReg rq (Reg.addr .TLY_DLY_CANCEL []) 4 (w32 (h % 32768)) okTly wrTly s)

/-- DELAY_DUE (R391, R392). -/
def execDelayDue (l e : Nat) (s : State) : Host.Outcome State Fault Refusal :=
  .next (if s.evtRuns then s.dlyDue l e else s)

/-- TLY_PICK (R387). -/
def execTlyPick (rq : Req) (s : State) : Host.Outcome State Fault Refusal :=
  .next (readReg rq (Reg.addr .TLY_PICK []) 4 readAny rdTly s)

/-- TLY_DONE (R388 to R390). -/
def execTlyDone (rq : Req) (v : Word) (s : State) : Host.Outcome State Fault Refusal :=
  .next (writeReg rq (Reg.addr .TLY_DONE []) 4 v okTly wrTly s)

/-- TLY_REL_POP (R390). -/
def execTlyRelPop (rq : Req) (q : Nat) (s : State) : Host.Outcome State Fault Refusal :=
  .next (readReg rq (Reg.addr .TLY_REL_POP [q]) 4 readAny rdTly s)

/-- EVENT_EDGE (R394, R395): an edge from source `n`. -/
def execEventEdge (n : Nat) (s : State) : Host.Outcome State Fault Refusal :=
  .next (if n < 256 then s.raise n else s)

/-- EVENT_BEAD (R386, R392, R395): the controller enqueues a bead for a source routed to a rod; a full rod stalls it. -/
def execEventBead (n : Nat) (s : State) : Host.Outcome State Fault Refusal :=
  .next (
    let r := s.route n
    if n < 256 ∧ s.evtRuns ∧ r.kind = 1 ∧ s.pend n ≠ 0 ∧ !s.evtMasked n ∧ !s.tly.beads.any (fun b => b.fromEvent == some n)
        ∧ !s.rodFenced r.target ∧ s.rodBeads r.target ≠ 0 then
      if s.rodRoom r.target then
        let b : Bead :=
          { handle := 0, func := r.func, args := [n + 65536 * s.pend n, s.firstStamp n, 0, 0], flow := 0,
            ordered := false, rod := r.target, fromEvent := some n, delayed := false, seq := 0, stamp := 0, waiting := true,
            holder := none, done := none, hidden := false }
        (((s.tlyJoin b).2).setPend n 0).tlyUpd (fun t => { t with stalled := t.stalled.filter (fun x => x != n) })
      else if s.tly.stalled.contains n then s
      else (s.tlyFull r.target).tlyUpd (fun t => { t with stalled := n :: t.stalled })
    else s)

/-- EVT_CLAIM (R395). -/
def execEvtClaim (rq : Req) (s : State) : Host.Outcome State Fault Refusal :=
  .next (readReg rq (Reg.addr .EVT_CLAIM []) 4 readAny rdTly s)

/-- EVT_HCLAIM (R395). -/
def execEvtHclaim (rq : Req) (s : State) : Host.Outcome State Fault Refusal :=
  .next (readReg rq (Reg.addr .EVT_HCLAIM []) 4 readAny rdTly s)

/-- EVT_CLR (R395). -/
def execEvtClr (rq : Req) (n : Nat) (s : State) : Host.Outcome State Fault Refusal :=
  .next (writeReg rq (Reg.addr .EVT_CLR []) 4 (w32 (n % 256)) okTly wrTly s)

end Sys2Proof.Machine
end

