-- ==== Sys2Proof/Machine/Reckoner.lean ====
section
/-! DEFINITION. The reckoners (R387, R397 to R403): registers, local memory, the operations and their cycles. Each
operation's row names a reckoner and runs the instruction at its PC when that instruction is the row's. -/
namespace Sys2Proof.Machine

/-- A reckoner. -/
def State.rk (s : State) (k : Nat) : Rkn := (s.rkns[k]?).getD Rkn.reset

/-- A reckoner updated. -/
def State.rkUpd (s : State) (k : Nat) (f : Rkn → Rkn) : State := { s with rkns := updAt s.rkns k f }

/-- System address of a local word (R379); word addresses wrap at 32,768 (R401). -/
def rkAddr (k w : Nat) : Nat := 0x14000000 + k * 0x20000 + 4 * (w % 32768)

/-- A local word. -/
def State.rkWord (s : State) (k w : Nat) : Nat := s.num (rkAddr k w) 4

/-- The instruction at a local word: a word stored over since the last taken branch still reads as it was (R402). -/
def State.rkFetch (s : State) (k w : Nat) : Nat :=
  match (s.rk k).stale.find? (fun e => e.1 == w % 32768) with
  | some e => e.2.toNat
  | none => s.rkWord k w

/-- Store a local word. -/
def State.rkStore (s : State) (k w v : Nat) : State :=
  let old := (w % 32768, w32 (s.rkFetch k w))
  (s.rkUpd k (fun r => { r with stale := if r.stale.any (fun e => e.1 == w % 32768) then r.stale else old :: r.stale })).memPut
    (rkAddr k w) (leBytes 4 v)

/-- A scalar. -/
def State.rkS (s : State) (k n : Nat) : Nat := (s.reg .RKN_S [k, n]).toNat

/-- Write a scalar. -/
def State.rkSetS (s : State) (k n v : Nat) : State := s.setReg .RKN_S [k, n] (w32 v)

/-- The PC. -/
def State.rkPc (s : State) (k : Nat) : Nat := s.get Fld.RKN_PC.PC [k]

/-- The reckoner runs. -/
def State.rkRuns (s : State) (k : Nat) : Bool := s.flag Fld.RKN_STAT.RUN [k]

/-- A fault (R403): 1 ILLEGAL, 2 DMA, 3 STOPPED. Under Tally the bead ends with ERROR. -/
def State.rkFault (s : State) (k cause : Nat) : State :=
  let s1 := (s.sets [k] [(Fld.RKN_STAT.RUN, 0), (Fld.RKN_STAT.STATE, 3), (Fld.RKN_STAT.CAUSE, cause)]).raise (ev 4 19)
  if s.flag Fld.RKN_CTL.OWNER [k] then s1 else s1.tlyEnd (s.get Fld.RKN_STAT.HANDLE [k]) 1 0

/-- The operations of R399. -/
def rkListed (op : Nat) : Bool :=
  op ≤ 5 || (8 ≤ op && op ≤ 0xB) || (0x10 ≤ op && op ≤ 0x18) || (0x20 ≤ op && op ≤ 0x25)

/-- An unlisted operation at the PC faults ILLEGAL (R399). -/
def State.rkCheck (s : State) (k : Nat) : State :=
  if s.rkRuns k && !rkListed (bits (s.rkFetch k (s.rkPc k)) 31 26) then s.rkFault k 1 else s

/-- Start a reckoner at its PC (R387, R403). -/
def State.rkStart (s : State) (k : Nat) : State :=
  ((s.sets [k] [(Fld.RKN_STAT.RUN, 1), (Fld.RKN_STAT.STATE, 1), (Fld.RKN_STAT.CAUSE, 0)]).rkUpd k (fun r =>
    { r with loops := [], stale := [], lastAt := s.now })).rkCheck k

/-- The first cycle in which an instruction issues, given the cycle its sources are ready, and the state with the clock
and RKN_CNT_CYC moved on by its wait and issue cost (R399, R402). -/
def State.rkIssue (s : State) (k need cost : Nat) : Nat × State :=
  let c := (s.rk k).cyc
  let i := max c need
  (i, ((s.rkUpd k (fun r => { r with cyc := i + cost, lastAt := s.now })).incBy .RKN_CNT_CYC [k] (i + cost - c)))

/-- The PC after the instruction at `p`, and the loops left (R399): the last instruction of a body goes back to its first while
passes are left. -/
def rkNext (p : Nat) : List RknLoop → Nat × List RknLoop
  | [] => ((p + 1) % 32768, [])
  | l :: t =>
    if l.last = p then
      if 1 < l.left then (l.first, { l with left := l.left - 1 } :: t) else rkNext p t
    else ((p + 1) % 32768, l :: t)

/-- Move past the instruction. -/
def State.rkAdvance (s : State) (k : Nat) : State :=
  let n := rkNext (s.rkPc k) (s.rk k).loops
  let s1 := s.rkUpd k (fun r => { r with loops := n.2 })
  (s1.set Fld.RKN_PC.PC [k] n.1).rkCheck k

/-- Run the instruction at the PC of reckoner `k` when its OP is `op` (R399). -/
def rkRun (k op : Nat) (f : Nat → State → State) (s : State) : State :=
  if k < 32 ∧ s.active 4 ∧ s.rkRuns k ∧ bits (s.rkFetch k (s.rkPc k)) 31 26 = op then f (s.rkFetch k (s.rkPc k)) s else s

/-! Arithmetic -/

/-- A value divided by 2^n and rounded to nearest; the way a tie goes is free (notes/assumptions/22.md). -/
def rnd (x : Int) (n : Nat) : Int :=
  if n = 0 then x
  else if x % 2 ^ n > 2 ^ (n - 1) ∨ (x % 2 ^ n = 2 ^ (n - 1) ∧ Config.tieUp x n) then x / 2 ^ n + 1
  else x / 2 ^ n

/-- A result narrowed to `w` bits, saturating or wrapping, and whether it saturated (R400). -/
def narrow (w : Nat) (sat : Bool) (x : Int) : BitVec w × Bool :=
  if sat then
    (BitVec.ofInt w (clampI (-(2 ^ (w - 1) : Nat)) ((2 ^ (w - 1) : Nat) - 1) x),
      decide (x < -(2 ^ (w - 1) : Nat) ∨ ((2 ^ (w - 1) : Nat) : Int) - 1 < x))
  else (BitVec.ofInt w x, false)

/-- The lanes of a vector as integers. -/
def Rkn.vec (r : Rkn) (n : Nat) : List Int := ((r.v[n]?).getD []).map BitVec.toInt

/-- The lanes of an accumulator as integers. -/
def Rkn.acc (r : Rkn) (n : Nat) : List Int := ((r.a[n]?).getD []).map BitVec.toInt

/-- Lane `i` of a list of lanes. -/
def lane (l : List Int) (i : Nat) : Int := (l[i]?).getD 0

/-- Lane products, real or complex, VB conjugated when CJ (R397, R398). -/
def products (cx cj : Bool) (a b : List Int) : List Int :=
  (List.range 8).map (fun i =>
    if cx then
      let e := i / 2 * 2
      let bi := if cj then -lane b (e + 1) else lane b (e + 1)
      if i % 2 = 0 then lane a e * lane b e - lane a (e + 1) * bi else lane a e * bi + lane a (e + 1) * lane b e
    else lane a i * lane b i)

/-- Count a saturation (R400). -/
def State.rkSat (s : State) (k : Nat) (any : Bool) : State :=
  if any then (s.set Fld.RKN_STAT.SAT [k] 1).inc .RKN_CNT_SAT [k] else s

/-- Write a vector, narrowed. -/
def State.rkSetV (s : State) (k n : Nat) (sat : Bool) (l : List Int) (ready : Nat) : State :=
  let r := l.map (narrow 24 sat)
  (s.rkUpd k (fun x => { x with v := x.v.set n (r.map (·.1)), rdyV := x.rdyV.set n ready })).rkSat k (r.any (·.2))

/-- Write an accumulator, narrowed. -/
def State.rkSetA (s : State) (k n : Nat) (sat : Bool) (l : List Int) (ready : Nat) : State :=
  let r := l.map (narrow 56 sat)
  (s.rkUpd k (fun x => { x with a := x.a.set n (r.map (·.1)), rdyA := x.rdyA.set n ready })).rkSat k (r.any (·.2))

/-- Fields of a V-format word (R398). -/
def fS (w : Nat) : Bool := bitOf w 25
@[inherit_doc fS] def fD (w : Nat) : Nat := bits w 24 21
@[inherit_doc fS] def fA (w : Nat) : Nat := bits w 20 17
@[inherit_doc fS] def fB (w : Nat) : Nat := bits w 16 13
@[inherit_doc fS] def fAC (w : Nat) : Nat := bits w 12 11
@[inherit_doc fS] def fCX (w : Nat) : Bool := bitOf w 10
@[inherit_doc fS] def fCJ (w : Nat) : Bool := bitOf w 9
@[inherit_doc fS] def fIMM (w : Nat) : Nat := bits w 7 0
/-- IMM17 of an S-format word, sign-extended. -/
def fIMM17 (w : Nat) : Int := signed 17 (bits w 16 0)

/-- The cycle a vector is ready. -/
def State.rdyV (s : State) (k n : Nat) : Nat := ((s.rk k).rdyV[n]?).getD 0

/-- Eight free lanes: the result of an operation on an immediate outside its range (notes/assumptions/23.md). -/
def State.freeLanes (s : State) : List Int := (List.range 8).map (fun i => ((Config.freeNat (s.free + i) % 2 ^ 24 : Nat) : Int))

/-- An operation over VA and VB into VD: its integer lanes, issue cost and latency. -/
def rkVec (k w : Nat) (lanes : List Int → List Int → List Int) (cost lat : Nat) (s : State) : State :=
  let i := s.rkIssue k (max (s.rdyV k (fA w)) (s.rdyV k (fB w))) cost
  (i.2.rkSetV k (fD w) (fS w) (lanes ((s.rk k).vec (fA w)) ((s.rk k).vec (fB w))) (i.1 + lat)).rkAdvance k

/-- A multiply into an accumulator, added or subtracted. -/
def rkMac (k w : Nat) (sg : Int) (s : State) : State :=
  let i := s.rkIssue k (max (s.rdyV k (fA w)) (s.rdyV k (fB w))) (if fCX w then 2 else 1)
  let p := products (fCX w) (fCJ w) ((s.rk k).vec (fA w)) ((s.rk k).vec (fB w))
  let a := (s.rk k).acc (fAC w)
  (i.2.rkSetA k (fAC w) (fS w) ((List.range 8).map (fun j => lane a j + sg * lane p j)) (i.1 + 4)).rkAdvance k

/-- The decimation-in-frequency butterfly (R399). -/
def butterfly (h sh : Nat) (a w : List Int) : List Int :=
  let d := products true false
    ((List.range 8).map (fun i => if h ≤ i / 2 % (2 * h) then (lane a (i - 2 * h) - lane a i) / 2 ^ sh else 0)) w
  (List.range 8).map (fun i =>
    if h ≤ i / 2 % (2 * h) then rnd (lane d i) 23 else (lane a i + lane a (i + 2 * h)) / 2 ^ sh)

/-! Memory operations -/

/-- Fields of an M-format word. -/
def mP (w : Nat) : Nat := bits w 20 18
@[inherit_doc mP] def mM (w : Nat) : Nat := bits w 17 15
@[inherit_doc mP] def mBR (w : Nat) : Bool := bitOf w 14
@[inherit_doc mP] def mC16 (w : Nat) : Bool := bitOf w 13
@[inherit_doc mP] def mLane (w : Nat) : Nat := bits w 12 10

/-- EA = (P + OFF) mod 32,768 (R401). -/
def State.rkEA (s : State) (k w : Nat) : Nat :=
  unsigned 15 ((((s.rk k).p[mP w]?).getD 0 : Int) + signed 10 (bits w 9 0))

/-- The low `nb` bits of a number reversed. -/
def revBits : Nat → Nat → Nat
  | 0, _ => 0
  | n + 1, x => x % 2 * 2 ^ n + revBits n (x / 2)

/-- P after its post-increment (R401): with BR the low NB bits add with the carry running downwards. -/
def postInc (p m : Nat) (br : Bool) : Nat :=
  if br then
    let nb := bits m 19 16
    p / 2 ^ nb * 2 ^ nb + revBits nb ((revBits nb (p % 2 ^ nb) + revBits nb (m % 2 ^ nb)) % 2 ^ nb)
  else unsigned 15 ((p : Int) + signed 16 (m % 65536))

/-- Step the pointer of an M-format word. -/
def State.rkStep (s : State) (k w : Nat) : State :=
  s.rkUpd k (fun r => { r with p := updAt r.p (mP w) (fun p => postInc p ((r.m[mM w]?).getD 0) (mBR w) % 32768) })

/-- A word as a load sees it: where an outstanding inbound DMA writes it, the old or the new value, which one is free (R402). -/
def State.rkLoadWord (s : State) (k a : Nat) : Nat :=
  match (s.rk k).dmas.find? (fun d => !d.outDir && decide (d.word ≤ a % 32768 ∧ a % 32768 < d.word + d.bytes / 4)) with
  | some d => if Config.freeNat s.free % 2 = 0 then s.rkWord k a else s.num (d.sys + 4 * (a % 32768 - d.word)) 4
  | none => s.rkWord k a

/-- The lanes a word loads: W24 one lane, C16 two with each half in bits [23:8] (R397). -/
def loadLanes (c16 : Bool) (x : Nat) : List Int :=
  if c16 then [signed 16 (x % 65536) * 256, signed 16 (x / 65536 % 65536) * 256] else [signed 24 x]

/-- A lane as C16 stores it: rounded to 16 bits and saturated (R397). -/
def half16 (x : Int) : Nat × Bool :=
  let r := rnd x 8
  (unsigned 16 (clampI (-32768) 32767 r), decide (r < -32768 ∨ 32767 < r))

/-- The cycle an M-format access can issue, its vector read when it stores. -/
def State.mNeed (s : State) (k w : Nat) (stores : Bool) : Nat :=
  max (max (((s.rk k).rdyP[mP w]?).getD 0) (((s.rk k).rdyM[mM w]?).getD 0)) (if stores then s.rdyV k (fD w) else 0)

/-- Issue cost of a vector access (R401): 2 when EA is not aligned to the vector. -/
def mCost (c16 : Bool) (ea : Nat) : Nat := if ea % (if c16 then 4 else 8) = 0 then 1 else 2

/-- Set one lane of a vector from a list of lanes laid from `j` on. -/
def layLanes (v : List (BitVec 24)) (j : Nat) (l : List Int) : List (BitVec 24) :=
  l.zipIdx.foldl (fun t e => t.set (j + e.2) (BitVec.ofInt 24 e.1)) v

/-- The word a store writes of a vector from lane `j`, and whether it saturated; bits [31:24] of a W24 word are free. -/
def State.storeWordOf (s : State) (c16 : Bool) (v : List Int) (j : Nat) : Nat × Bool :=
  if c16 then
    let a := half16 (lane v j)
    let b := half16 (lane v (j + 1))
    (a.1 + b.1 * 65536, a.2 || b.2)
  else (unsigned 24 (lane v j) + Config.freeNat s.free % 256 * 2 ^ 24, false)

/-- Store the words of `l` from EA on. -/
def State.rkStores (s : State) (k ea : Nat) (l : List Nat) : State :=
  l.zipIdx.foldl (fun t e => t.rkStore k (ea + e.2) e.1) s

/-! Rows: operations -/

/-- NOP (R399). -/
def execRknNop (k : Nat) (s : State) : Host.Outcome State Fault Refusal :=
  .next (rkRun k 0x00 (fun _ s => (s.rkIssue k 0 1).2.rkAdvance k) s)

/-- HALT (R388, R399, R403). -/
def execRknHalt (k : Nat) (s : State) : Host.Outcome State Fault Refusal :=
  .next (rkRun k 0x01 (fun _ s =>
    let s1 := (s.rkIssue k 0 1).2.sets [k] [(Fld.RKN_STAT.RUN, 0), (Fld.RKN_STAT.STATE, 2)]
    if s.flag Fld.RKN_CTL.OWNER [k] then s1.raise (ev 4 20)
    else s1.tlyEnd (s.get Fld.RKN_STAT.HANDLE [k]) 0 (s.rkS k 5)) s)

/-- Operations that may not end a loop body (R402): LOOP, BRC, DMA, HALT. -/
def notLast (op : Nat) : Bool := op == 1 || op == 2 || op == 3 || op == 4

/-- LOOP (R399, R402). -/
def execRknLoop (k : Nat) (s : State) : Host.Outcome State Fault Refusal :=
  .next (rkRun k 0x02 (fun w s =>
    let pc := s.rkPc k
    let len := bits w 22 15
    let n := if bitOf w 23 then s.rkS k (bits w 14 11) else bits w 14 0
    let last := (pc + len) % 32768
    let s1 := (s.rkIssue k 0 1).2
    if 2 ≤ (s.rk k).loops.length ∨ notLast (bits (s.rkFetch k last) 31 26) then s1.rkFault k 1
    else if n = 0 ∨ len = 0 then (s1.set Fld.RKN_PC.PC [k] (last + 1)).rkCheck k
    else
      let s2 := s1.rkUpd k (fun r => { r with loops := ⟨(pc + 1) % 32768, last, n⟩ :: r.loops })
      (s2.set Fld.RKN_PC.PC [k] (pc + 1)).rkCheck k) s)

/-- Condition of BRC (R399): 0 always, 1 zero, 2 not zero, 3 negative, 4 not negative; others never. -/
def brcTaken (cond v : Nat) : Bool :=
  match cond with
  | 0 => true
  | 1 => v == 0
  | 2 => v != 0
  | 3 => bitOf v 31
  | 4 => !bitOf v 31
  | _ => false

/-- BRC (R399, R402): a taken branch makes stores into code visible to the fetch. -/
def execRknBrc (k : Nat) (s : State) : Host.Outcome State Fault Refusal :=
  .next (rkRun k 0x03 (fun w s =>
    if brcTaken (bits w 20 18) (s.rkS k (bits w 24 21)) then
      ((((s.rkIssue k 0 3).2).rkUpd k (fun r => { r with stale := [] })).set Fld.RKN_PC.PC [k] (bits w 14 0)).rkCheck k
    else ((s.rkIssue k 0 1).2).rkAdvance k) s)

/-- DMA (R379, R399, R402): waits while four are outstanding. -/
def execRknDma (k : Nat) (s : State) : Host.Outcome State Fault Refusal :=
  .next (rkRun k 0x04 (fun w s =>
    let sys := s.rkS k (bits w 24 21) * 64
    let word := s.rkS k (bits w 20 17)
    let n := s.rkS k (bits w 16 13) * 64
    if 4 ≤ (s.rk k).dmas.length then s
    else if 32768 < word + n / 4 ∨ (n ≠ 0 ∧ s.rangeCode (.rkn k) sys n ≠ 0) then ((s.rkIssue k 0 1).2).rkFault k 2
    else (((s.rkIssue k 0 1).2).rkUpd k (fun r => { r with dmas := r.dmas ++ [⟨sys, word, n, bitOf w 12⟩] })).rkAdvance k) s)

/-- DMA_COMPLETE (R402): outstanding transfer `i` completes, or faults when memory answers an error. -/
def execRknDmaComplete (k i : Nat) (s : State) : Host.Outcome State Fault Refusal :=
  .next (match ((s.rk k).dmas)[i]? with
    | none => s
    | some d =>
      let s1 := s.rkUpd k (fun r => { r with dmas := r.dmas.eraseIdx i })
      if d.outDir then
        let c := s1.memWrite (.rkn k) d.sys (s1.bytes (rkAddr k d.word) d.bytes)
        if d.bytes = 0 ∨ c.1 = 0 then c.2 else if s.rkRuns k then c.2.rkFault k 2 else c.2
      else
        let c := s1.memRead (.rkn k) d.sys d.bytes
        if d.bytes = 0 then s1
        else if c.1 = 0 then c.2.2.memPut (rkAddr k d.word) c.2.1
        else if s.rkRuns k then c.2.2.rkFault k 2 else c.2.2)

/-- DWAIT (R399): goes on once every DMA is complete; the wait counts as cycles of 1 ns. -/
def execRknDwait (k : Nat) (s : State) : Host.Outcome State Fault Refusal :=
  .next (rkRun k 0x05 (fun _ s =>
    if (s.rk k).dmas.isEmpty then ((s.rkIssue k 0 (max 1 (s.now - (s.rk k).lastAt))).2).rkAdvance k else s) s)

/-- LD (R397, R399, R401). -/
def execRknLd (k : Nat) (s : State) : Host.Outcome State Fault Refusal :=
  .next (rkRun k 0x08 (fun w s =>
    let ea := s.rkEA k w
    let i := s.rkIssue k (s.mNeed k w false) (mCost (mC16 w) ea)
    let l := (List.range (if mC16 w then 4 else 8)).flatMap (fun j => loadLanes (mC16 w) (s.rkLoadWord k (ea + j)))
    let s1 := i.2.rkUpd k (fun r => { r with v := updAt r.v (fD w) (layLanes · 0 l), rdyV := r.rdyV.set (fD w) (i.1 + 3) })
    ({ s1 with free := s1.free + 1 }.rkStep k w).rkAdvance k) s)

/-- ST (R397, R399 to R401). -/
def execRknSt (k : Nat) (s : State) : Host.Outcome State Fault Refusal :=
  .next (rkRun k 0x09 (fun w s =>
    let ea := s.rkEA k w
    let i := s.rkIssue k (s.mNeed k w true) (mCost (mC16 w) ea)
    let v := (s.rk k).vec (fD w)
    let l := (List.range (if mC16 w then 4 else 8)).map (fun j => s.storeWordOf (mC16 w) v (if mC16 w then 2 * j else j))
    let s1 := (i.2.rkStores k ea (l.map (·.1))).rkSat k (l.any (·.2))
    ({ s1 with free := s1.free + 1 }.rkStep k w).rkAdvance k) s)

/-- LDE (R399, R401). -/
def execRknLde (k : Nat) (s : State) : Host.Outcome State Fault Refusal :=
  .next (rkRun k 0x0A (fun w s =>
    let i := s.rkIssue k (s.mNeed k w false) 1
    let l := loadLanes (mC16 w) (s.rkLoadWord k (s.rkEA k w))
    let j := if mC16 w then 2 * (mLane w % 4) else mLane w
    let s1 := i.2.rkUpd k (fun r => { r with v := updAt r.v (fD w) (layLanes · j l), rdyV := r.rdyV.set (fD w) (i.1 + 3) })
    ({ s1 with free := s1.free + 1 }.rkStep k w).rkAdvance k) s)

/-- STE (R399 to R401). -/
def execRknSte (k : Nat) (s : State) : Host.Outcome State Fault Refusal :=
  .next (rkRun k 0x0B (fun w s =>
    let i := s.rkIssue k (s.mNeed k w true) 1
    let x := s.storeWordOf (mC16 w) ((s.rk k).vec (fD w)) (if mC16 w then 2 * (mLane w % 4) else mLane w)
    let s1 := (i.2.rkStore k (s.rkEA k w) x.1).rkSat k x.2
    ({ s1 with free := s1.free + 1 }.rkStep k w).rkAdvance k) s)

/-- VADD (R399, R400). -/
def execRknVadd (k : Nat) (s : State) : Host.Outcome State Fault Refusal :=
  .next (rkRun k 0x10 (fun w => rkVec k w (fun a b => (List.range 8).map (fun i => rnd (lane a i + lane b i) (fIMM w))) 1 1) s)

/-- VSUB (R399, R400). -/
def execRknVsub (k : Nat) (s : State) : Host.Outcome State Fault Refusal :=
  .next (rkRun k 0x11 (fun w => rkVec k w (fun a b => (List.range 8).map (fun i => rnd (lane a i - lane b i) (fIMM w))) 1 1) s)

/-- VMUL (R399, R400). -/
def execRknVmul (k : Nat) (s : State) : Host.Outcome State Fault Refusal :=
  .next (rkRun k 0x12 (fun w s =>
    rkVec k w (fun a b => if fIMM w ≤ 23 then (products (fCX w) (fCJ w) a b).map (fun x => rnd x (23 - fIMM w)) else s.freeLanes)
      (if fCX w then 2 else 1) 3 { s with free := if fIMM w ≤ 23 then s.free else s.free + 8 }) s)

/-- VMAC (R399, R400). -/
def execRknVmac (k : Nat) (s : State) : Host.Outcome State Fault Refusal :=
  .next (rkRun k 0x13 (fun w => rkMac k w 1) s)

/-- VMSU (R399, R400). -/
def execRknVmsu (k : Nat) (s : State) : Host.Outcome State Fault Refusal :=
  .next (rkRun k 0x14 (fun w => rkMac k w (-1)) s)

/-- AMOV (R399, R400). -/
def execRknAmov (k : Nat) (s : State) : Host.Outcome State Fault Refusal :=
  .next (rkRun k 0x15 (fun w s =>
    let i := s.rkIssue k (((s.rk k).rdyA[fAC w]?).getD 0) 1
    let l := if fIMM w ≤ 55 then ((s.rk k).acc (fAC w)).map (fun x => rnd x (fIMM w)) else s.freeLanes
    let s1 := i.2.rkSetV k (fD w) (fS w) l (i.1 + 2)
    { s1 with free := if fIMM w ≤ 55 then s1.free else s1.free + 8 }.rkAdvance k) s)

/-- ACLR (R399). -/
def execRknAclr (k : Nat) (s : State) : Host.Outcome State Fault Refusal :=
  .next (rkRun k 0x16 (fun w s =>
    let i := s.rkIssue k 0 1
    (i.2.rkSetA k (fAC w) false (List.replicate 8 0) (i.1 + 1)).rkAdvance k) s)

/-- VBFLY (R399, R400): CX 1 and h 1 or 2; anything else is no butterfly and faults ILLEGAL. -/
def execRknVbfly (k : Nat) (s : State) : Host.Outcome State Fault Refusal :=
  .next (rkRun k 0x17 (fun w s =>
    if fCX w && (fIMM w % 4 == 1 || fIMM w % 4 == 2) then
      rkVec k w (butterfly (fIMM w % 4) (b2n (bitOf (fIMM w) 4))) 2 3 s
    else s.rkFault k 1) s)

/-- VSH (R399, R400). -/
def execRknVsh (k : Nat) (s : State) : Host.Outcome State Fault Refusal :=
  .next (rkRun k 0x18 (fun w => rkVec k w (fun a _ => a.map (fun x =>
    if bitOf (fIMM w) 7 then x * 2 ^ (fIMM w % 32) else x / 2 ^ (fIMM w % 32))) 1 1) s)

/-- SLI (R399). -/
def execRknSli (k : Nat) (s : State) : Host.Outcome State Fault Refusal :=
  .next (rkRun k 0x20 (fun w s => (((s.rkIssue k 0 1).2).rkSetS k (fD w) (unsigned 32 (fIMM17 w))).rkAdvance k) s)

/-- SLUI (R399). -/
def execRknSlui (k : Nat) (s : State) : Host.Outcome State Fault Refusal :=
  .next (rkRun k 0x21 (fun w s =>
    (((s.rkIssue k 0 1).2).rkSetS k (fD w) (setBits (s.rkS k (fD w)) 31 15 (bits w 16 0))).rkAdvance k) s)

/-- SADDI (R399). -/
def execRknSaddi (k : Nat) (s : State) : Host.Outcome State Fault Refusal :=
  .next (rkRun k 0x22 (fun w s =>
    (((s.rkIssue k 0 1).2).rkSetS k (fD w) (unsigned 32 ((s.rkS k (fA w) : Int) + fIMM17 w))).rkAdvance k) s)

/-- SADD (R399). -/
def execRknSadd (k : Nat) (s : State) : Host.Outcome State Fault Refusal :=
  .next (rkRun k 0x23 (fun w s =>
    (((s.rkIssue k 0 1).2).rkSetS k (fD w) (s.rkS k (fA w) + s.rkS k (fB w))).rkAdvance k) s)

/-- SETP (R399). -/
def execRknSetp (k : Nat) (s : State) : Host.Outcome State Fault Refusal :=
  .next (rkRun k 0x24 (fun w s =>
    let i := s.rkIssue k 0 1
    let p := unsigned 15 ((s.rkS k (fA w) % 32768 : Nat) + fIMM17 w)
    (i.2.rkUpd k (fun r => { r with p := r.p.set (fD w % 8) p, rdyP := r.rdyP.set (fD w % 8) (i.1 + 2) })).rkAdvance k) s)

/-- SETM (R399). -/
def execRknSetm (k : Nat) (s : State) : Host.Outcome State Fault Refusal :=
  .next (rkRun k 0x25 (fun w s =>
    let i := s.rkIssue k 0 1
    let m := s.rkS k (fA w) % 2 ^ 20
    (i.2.rkUpd k (fun r => { r with m := r.m.set (fD w % 8) m, rdyM := r.rdyM.set (fD w % 8) (i.1 + 2) })).rkAdvance k) s)

/-! Registers and dispatch -/

/-- Values and conditions the reckoner registers let through (R403). -/
def okRkn (r : Reg) (ix : List Nat) (v : Word) (_ : Req) (s : State) : Bool :=
  match r, ix with
  | .RKN_CTL, [k] => (wbits v 3 0 == 0 || bitOf v.toNat 31)
      && (!s.rkRuns k || bitOf v.toNat 31 == s.flag Fld.RKN_CTL.OWNER [k])
  | .RKN_PC, [k] => !s.rkRuns k
  | .RKN_S, [k, _] => !s.rkRuns k
  | _, _ => true

/-- A read of RKN_Sn while the reckoner runs is not performed (R403). -/
def okRdRkn (r : Reg) (ix : List Nat) (_ : Req) (s : State) : Bool :=
  match r, ix with
  | .RKN_S, [k, _] => !s.rkRuns k
  | _, _ => true

/-- Performed writes of the reckoner registers (R403). -/
def wrRkn (r : Reg) (ix : List Nat) (v : Word) (rq : Req) (s : State) : State :=
  match r, ix with
  | .RKN_CTL, [k] =>
    let s1 := s.set Fld.RKN_CTL.OWNER [k] (wbits v 31 31)
    if wbits v 3 0 = 1 then (if s.rkRuns k then s1 else s1.rkStart k)
    else if wbits v 3 0 = 2 then (if s.rkRuns k then s1.rkFault k 3 else s1)
    else s1
  | _, _ => storeWord r ix v rq s

/-- A lane of an accumulator as the registers show it (R27). -/
def State.rkAccLane (s : State) (k i : Nat) : Nat := ((((s.rk k).a[i / 8]?).getD [])[i % 8]?).elim 0 BitVec.toNat

/-- Performed reads of the reckoner registers (R27). -/
def rdRkn (r : Reg) (ix : List Nat) (rq : Req) (s : State) : Word × State :=
  match r, ix with
  | .RKN_ACC_LO, [k, i] => (if s.rkRuns k then 0 else w32 (s.rkAccLane k i), s)
  | .RKN_ACC_HI, [k, i] => (if s.rkRuns k then 0x80000000 else w32 (s.rkAccLane k i / 2 ^ 32), s)
  | _, _ => loadWord r ix rq s

/-- RKN_START (R403): OP=START with OWNER=1. -/
def execRknStart (rq : Req) (k : Nat) (s : State) : Host.Outcome State Fault Refusal :=
  .next (writeReg rq (Reg.addr .RKN_CTL [k]) 4 0x80000001 okRkn wrRkn s)

/-- RKN_STOP (R403): OP=STOP with OWNER=1. -/
def execRknStop (rq : Req) (k : Nat) (s : State) : Host.Outcome State Fault Refusal :=
  .next (writeReg rq (Reg.addr .RKN_CTL [k]) 4 0x80000002 okRkn wrRkn s)

/-- RKN_ACC (R27): a read of one half of lane `l` of accumulator `a`. -/
def execRknAcc (rq : Req) (k a l : Nat) (hi : Bool) (s : State) : Host.Outcome State Fault Refusal :=
  .next (readReg rq (if hi then Reg.addr .RKN_ACC_HI [k, 8 * a + l] else Reg.addr .RKN_ACC_LO [k, 8 * a + l]) 4 okRdRkn rdRkn s)

/-- RECKONER_DISPATCH (R387): an idle reckoner with OWNER=0 gets the head of its highest non-empty CLASS 2 rod. -/
def execReckonerDispatch (k : Nat) (s : State) : Host.Outcome State Fault Refusal :=
  .next (if k < 32 ∧ s.evtRuns ∧ s.active 4 ∧ !s.rkRuns k ∧ !s.flag Fld.RKN_CTL.OWNER [k] then
    match s.headBead (.rkn k) with
    | none => s
    | some b =>
      let a := fun n => (b.args[n]?).getD 0
      let s1 := ((((((s.takeBead b.handle (.rkn k)).rkSetS k 0 (a 0)).rkSetS k 1 (a 1)).rkSetS k 2 (a 2)).rkSetS k 3
        (a 3)).rkSetS k 4 b.handle).rkSetS k 5 0
      ((s1.set Fld.RKN_PC.PC [k] b.func).set Fld.RKN_STAT.HANDLE [k] b.handle).rkStart k
  else s)

end Sys2Proof.Machine
end

