-- ==== Sys2Proof/Machine/Tmg.lean ====
section
/-! DEFINITION. The traffic manager's scheduling and sinks (R335 to R344), gate changes (R345 to R348), registers and rows (R326 to R351). -/
namespace Sys2Proof.Machine

/-! Lengths and who may send -/

/-- MACsec protects a frame that leaves Ethernet port `p`: every frame but EAPOL (R320). -/
def State.msecProtects (s : State) (p : Nat) (b : Bytes) : Bool := decide (p < 8) && s.flag Fld.ETH_MSEC_CFG.EN [p] && beAt b 12 2 != 0x888E

/-- A packet's shaping length (R335). -/
def State.shapeLen (s : State) (o : PktOut) : Nat :=
  let ovh := signed 8 (s.get Fld.TMG_PORT_CFG_W0.OVERHEAD [o.port])
  ((o.data.length + 4 + (if s.msecProtects o.port o.data then s.msecAdds o.port else 0) : Nat) + ovh).toNat

/-- The port is paused (R343). -/
def State.tmPaused (s : State) (p : Nat) : Bool :=
  (match (s.tm.pauseEnd[p]?).getD none with
    | some e => decide (s.now < e)
    | none => false) || (p == 10 && s.wac.portPaused)

/-- Committed 0, excess 1, held 2 (R338). -/
def State.subState (s : State) (i : Nat) : Nat :=
  if ¬ s.tmFlag 1 i 1 then 0
  else
    let b := s.subNow i
    if b.e < 0 then 2 else if b.c < 0 then 1 else 0

/-- The service is eligible (R341). -/
def State.svcOk (s : State) (v : Nat) : Bool := !s.tmFlag 3 v 1 || decide (0 ≤ (s.svcNow v).c)

/-- The head of each queue of a port. -/
def heads : List (Nat × Nat) → List PktOut → List PktOut
  | _, [] => []
  | seen, o :: t => if seen.contains (o.sub, o.cls) then heads seen t else o :: heads ((o.sub, o.cls) :: seen) t

/-- The heads of a port that may start under the gates, of subscribers neither held nor paused (R340, R343, R347). -/
def State.tmReady (s : State) (p : Nat) : List PktOut :=
  (heads [] (s.tm.pkts.filter (fun o => o.port == p))).filter (fun o =>
    s.subState o.sub != 2 && !s.wac.paused.contains o.sub && s.gateLets p o.cls (s.shapeLen o) s.netTime)

/-! Round robins -/

/-- One who shares: owner, length of its packet, quantum. -/
structure Share where
  owner : Nat
  len : Nat
  quant : Nat
  deriving DecidableEq, Repr

/-- Sharers in turn, from the one after the last served; the last served comes last. -/
def turns (last : Nat) (l : List Share) : List Share :=
  let o := sortBy (fun (a b : Share) => decide (a.owner < b.owner)) l
  o.filter (fun x => decide (last < x.owner)) ++ o.filter (fun x => decide (x.owner ≤ last))

/-- Visits a sharer needs before its deficit covers its packet. -/
def Share.visits (d : Nat) (x : Share) : Nat := max 1 (ceilDiv (x.len - d) (max 1 x.quant))

/-- Deficit round robin at a level, with keys 2^24 × level + owner: the owner served, and the deficits it leaves (R336, R340, R342). -/
def State.drr (s : State) (level group : Nat) (l : List Share) : Option Nat × State :=
  let key := fun (o : Nat) => 2 ^ 24 * level + o
  let def_ := fun (o : Nat) => sget (fun _ => 0) s.tm.deficit (key o)
  let last := sget (fun _ => 0) s.tm.last (key group)
  match l.find? (fun x => x.owner + 1 == last && decide (x.len ≤ def_ x.owner)) with
  | some x => (some x.owner, s.tmUpd (fun t => { t with deficit := sset (fun _ => 0) t.deficit (key x.owner) (def_ x.owner - x.len) }))
  | none =>
    let order := if last = 0 then sortBy (fun (a b : Share) => decide (a.owner < b.owner)) l else turns (last - 1) l
    let best := order.foldl (fun (m : Option Share) x => match m with
      | some y => if x.visits (def_ x.owner) < y.visits (def_ y.owner) then some x else m
      | none => some x) none
    match best with
    | none => (none, s)
    | some b =>
      let n := b.visits (def_ b.owner)
      let r := order.foldl (fun (a : Store Nat × Bool) x =>
        let hit := x.owner == b.owner
        let d := def_ x.owner + (if hit ∨ ¬ a.2 then n else n - 1) * x.quant - (if hit then x.len else 0)
        (sset (fun _ => 0) a.1 (key x.owner) d, a.2 || hit)) (s.tm.deficit, false)
      (some b.owner, s.tmUpd (fun t => { t with deficit := r.1, last := sset (fun _ => 0) t.last (key group) (b.owner + 1) }))

/-- Round robin, one packet each (R340). -/
def State.rr (s : State) (level group : Nat) (l : List Share) : Option Nat × State :=
  let key := 2 ^ 24 * level + group
  let last := sget (fun _ => 0) s.tm.last key
  match (if last = 0 then sortBy (fun (a b : Share) => decide (a.owner < b.owner)) l else turns (last - 1) l).head? with
  | none => (none, s)
  | some x => (some x.owner, s.tmUpd (fun t => { t with last := sset (fun _ => 0) t.last key (x.owner + 1) }))

/-- Of a list, each value once. -/
def once : List Nat → List Nat
  | [] => []
  | a :: t => a :: (once t).filter (fun b => b != a)

/-- The class of a subscriber that sends (R336). -/
def State.pickClass (s : State) (sub : Nat) (l : List PktOut) : Option Nat × State :=
  let prof := s.subS sub
  let mask := s.tmFld 5 prof 0 1
  match ((List.range 8).reverse).find? (fun c => bitOf mask c && l.any (fun o => o.cls == c)) with
  | some c => (some c, s)
  | none =>
    let r := s.drr 0 (2 ^ 20 + sub) (l.map (fun o => ⟨8 * sub + o.cls, s.shapeLen o, 256 * max 1 (s.tmFld 5 prof (8 + o.cls) 1)⟩))
    (r.1.map (· % 8), r.2)

/-- The subscriber of a service that sends (R340); an excess one shares by the length of what it would send first. -/
def State.pickSub (s : State) (v : Nat) (l : List PktOut) : Option Nat × State :=
  let subs := once (l.map (·.sub))
  let len := fun (i : Nat) => match (s.pickClass i (l.filter (fun o => o.sub == i))).1 with
    | some c => ((l.find? (fun o => o.sub == i && o.cls == c)).map s.shapeLen).getD 0
    | none => 0
  let com := subs.filter (fun i => s.subState i == 0)
  if ¬ com.isEmpty then s.rr 3 v (com.map (fun i => ⟨i, 0, 0⟩))
  else s.drr 1 (2 ^ 20 + v) (subs.map (fun i => ⟨i, len i, 256 * max 1 (s.tmFld 1 i 0x14 1)⟩))

/-- The scheduling decision of a port (R336, R340, R342). -/
def State.tmPick (s : State) (p : Nat) : Option PktOut × State :=
  let l := s.tmReady p
  let svcs := (once (l.map (fun o => s.subSvc o.sub))).filter s.svcOk
  let prio := fun (v : Nat) => s.tmFld 3 v 2 1 % 4
  let top := (svcs.map prio).foldl max 0
  let len := fun (v : Nat) =>
    let m := l.filter (fun o => s.subSvc o.sub == v)
    match (s.pickSub v m).1 with
    | some i => match (s.pickClass i (m.filter (fun o => o.sub == i))).1 with
      | some c => ((m.find? (fun o => o.sub == i && o.cls == c)).map s.shapeLen).getD 0
      | none => 0
    | none => 0
  let r := s.drr 2 (2 ^ 20 + 4 * p + top) ((svcs.filter (fun v => prio v == top)).map (fun v => ⟨v, len v, 1024 * max 1 (s.tmFld 3 v 3 1)⟩))
  match r.1 with
  | none => (none, s)
  | some v =>
    let m := l.filter (fun o => s.subSvc o.sub == v)
    let r2 := r.2.pickSub v m
    match r2.1 with
    | none => (none, s)
    | some i =>
      let n := m.filter (fun o => o.sub == i)
      let r3 := r2.2.pickClass i n
      match r3.1 with
      | none => (none, s)
      | some c => (n.find? (fun o => o.cls == c), r3.2)

/-! A packet leaves its queue -/

/-- A packet leaves its queue; a deficit goes with the last packet it stood for (DEDUCED, notes/assumptions/51.md). -/
def State.tmTake (s : State) (o : PktOut) : State :=
  let v := s.subSvc o.sub
  let s1 := (s.svcSync v).tmUpd (fun x => { x with pkts := x.pkts.filter (fun y => y.buf != o.buf) })
  let drop := (if (s1.qPkts o.sub o.cls).isEmpty then [8 * o.sub + o.cls] else [])
    ++ (if (s1.subPkts o.sub).isEmpty then [2 ^ 24 + o.sub] else []) ++ (if s1.svcBusy v then [] else [2 * 2 ^ 24 + v])
  s1.tmUpd (fun x => { x with deficit := drop.foldl (fun d k => sset (fun _ => 0) d k 0) x.deficit })

/-- A packet is charged to its subscriber's, its service's and its port's buckets as it starts (R338, R341, R342). -/
def State.tmCharge (s : State) (o : PktOut) : State :=
  let n := bktOf (s.shapeLen o)
  let v := s.subSvc o.sub
  let b := s.subNow o.sub
  let s1 := if s.tmFlag 1 o.sub 1 then s.setBkt 1 o.sub ⟨b.c - n, b.e - n, b.at_⟩ else s
  let c := s1.svcNow v
  let s2 := if s.tmFlag 3 v 2 then
      (s1.setBkt 2 v c).tmUpd (fun x => { x with wire := sset (fun _ => 0) x.wire v (s.ntu.raw + s.lineNs o.port (s.shapeLen o)) })
    else s1.setBkt 2 v ⟨c.c - n, 0, c.at_⟩
  let q := s2.portNow o.port
  s2.setBkt 3 o.port ⟨q.c - n, 0, q.at_⟩

/-- Packets that a port cannot start under its list are dropped at the heads of their queues (R347). -/
def State.tmOversize : Nat → Nat → State → State
  | 0, _, s => s
  | n + 1, p, s =>
    match (heads [] (s.tm.pkts.filter (fun o => o.port == p))).find? (fun o => match s.gateLongest p o.cls s.netTime with
      | some m => decide (0 < m ∧ m < s.lineNs p (s.shapeLen o))
      | none => false) with
    | none => s
    | some o =>
      let sec := s.ntu.raw / 1000000000
      let s1 := ((s.tmTake o).bufFree o.buf).inc .TMG_CNT_GATE_OVERSIZE
      let s2 := (if s.tm.mark = some sec then s1 else s1.raise (ev 5 27)).tmUpd (fun x => { x with mark := some sec })
      State.tmOversize n p ((s2.svcSee (s.subSvc o.sub)).tmHigh)

/-! Sinks -/

/-- Where a PTP message begins in a frame (R370): after EtherType 0x88F7, or in UDP to port 319; over IPv4 or Ethernet a Sync message
may be written in one step. -/
def ptpAt (b : Bytes) : Option (Nat × Bool × Option Nat) :=
  let h := parsePkt b false b.length
  if h.etype = 0x88F7 then some (h.l3At, true, none)
  else if h.proto = 17 ∧ h.ported ∧ h.dport = 319 ∧ ¬ h.frag then some (h.l4At + 8, h.fam == 4, some (h.l4At + 6))
  else none

/-- A PTP event message that leaves a port is stamped (R370). -/
def State.ptpOut (s : State) (p : Nat) (b : Bytes) : Bytes × State :=
  match (if s.flag Fld.NTU_PTP_CFG.TS_EN [p] then ptpAt b else none) with
  | none => (b, s)
  | some (o, plain, ck) =>
    let m := beAt b o 1 % 16
    if 3 < m then (b, s)
    else if s.flag Fld.NTU_PTP_CFG.ONESTEP [p] ∧ m = 0 ∧ plain then
      let t := s.netTime
      let b1 := patch b (o + 34) (beBytes 6 (t / 1000000000).toNat ++ beBytes 4 (t % 1000000000).toNat)
      (match ck with
        | some c => patch b1 c [0, 0]
        | none => b1, s)
    else (b, s.txtsPush ⟨p, m, beAt b (o + 30) 2, s.stamp⟩)

/-- MACsec on transmit (R320, IEEE 802.1AE): `none` when the SA's PN is exhausted or the SA or its key is absent. -/
def State.msecOut (s : State) (p : Nat) (b : Bytes) : Option Bytes × State :=
  if ¬ s.msecProtects p b then (some b, s)
  else
    let an := s.get Fld.ETH_MSEC_CFG.TX_AN [p]
    let i := 68 * p + an
    let sa := s.fent 0 10 i
    let xpn := decide (2 ≤ s.get Fld.ETH_MSEC_CFG.SUITE [p])
    let pn := leAt sa 16 8
    let exh := (s.inc .ETH_CNT_MSEC_PN_EXH [p]).raise (ev 5 20)
    if (if xpn then 2 ^ 64 - 1 else 2 ^ 32 - 1) < pn then (none, exh)
    else match (if fvalid sa then s.useKey 2 (leAt sa 2 2) else (none, s)) with
      | (none, s1) => (none, s1)
      | (some key, _) =>
        let conf := s.flag Fld.ETH_MSEC_CFG.CONF [p]
        let sciEn := s.flag Fld.ETH_MSEC_CFG.SCI_EN [p]
        let sci := (slice sa 4 8).reverse
        let body := b.drop 12
        let tci := an + (if sciEn then 0x20 else 0) + (if conf then 0x0C else 0)
        let hdr := b.take 12 ++ [0x88, 0xE5, b8 tci, if body.length < 48 then b8 body.length else 0] ++ beBytes 4 (pn % 2 ^ 32) ++ (if sciEn then sci else [])
        let iv := msecIv xpn sa sci pn
        let sent := if conf then aesCtr 2 key iv body else body
        let tag := gcmTag key iv (hdr ++ (if conf then [] else body)) (if conf then sent else []) 16
        (some (hdr ++ sent ++ tag), s.setFent 0 10 i (patch sa 16 (leBytes 8 (min (2 ^ 64 - 1) (pn + 1)))))

/-- An Ethernet MAC sends a frame (R320, R370). -/
def State.ethSend (s : State) (o : PktOut) : State :=
  let r := s.ptpOut o.port o.data
  let m := r.2.msecOut o.port r.1
  match m.1 with
  | none => m.2.bufFree o.buf
  | some b => ((m.2.inc .ETH_CNT_TX_OK [o.port]).emit .packet [o.port] b).bufFree o.buf

/-- The sink of a packet takes it (R342): an Ethernet MAC, a fronthaul management port, the access controller, a software ring. -/
def State.tmSink (s : State) (o : PktOut) : State :=
  if o.port < 8 then s.ethSend o
  else if o.port < 10 then
    let r := s.ptpOut o.port o.data
    (r.2.emit .lane [o.port - 8, 0xFF] r.1).bufFree o.buf
  else if o.port = 10 then s.wacMsdu o.sub o.cls o.buf o.data.length (beAt o.data 12 2 == 0x888E)
  else if o.port < 20 then s.swReceive (o.port - 11) o
  else s.bufFree o.buf

/-- The port may start a packet (R342 to R344, R350). -/
def State.tmPortOk (s : State) (p : Nat) : Bool :=
  s.active 5 && s.serving && s.portEnabled p && !s.tmPaused p && (decide (8 ≤ p) || (s.portUp p && s.flag Fld.ETH_CFG.EN [p]))
    && (!s.flag Fld.TMG_PORT_CFG_W0.SHAPE_EN [p] || decide (0 ≤ (s.portNow p).c))

/-- A port whose sink takes a packet starts one. -/
def State.tmStart (s : State) (p : Nat) : State :=
  if ¬ s.tmPortOk p then s
  else
    let s0 := State.tmOversize s.tm.pkts.length p s
    let r := s0.tmPick p
    match r.1 with
    | none => s0
    | some o => ((((r.2.svcSync (s.subSvc o.sub)).tmCharge o).tmTake o).svcSee (s.subSvc o.sub)).tmHigh.tmSink o

/-- PACKET_START (R335 to R347): the sink of port `p` takes a packet. -/
def execPacketStart (p : Nat) (s : State) : Host.Outcome State Fault Refusal := .next (s.tmStart p)

/-- MSDU_DELIVERY (R212, R213, R343): the access controller accepts a packet from port 10. -/
def execMsduDelivery (s : State) : Host.Outcome State Fault Refusal := .next (s.tmStart 10)

/-- PAUSE_END (R343): the pause of port `p` has run out. -/
def execPauseEnd (p : Nat) (s : State) : Host.Outcome State Fault Refusal :=
  .next (match (s.tm.pauseEnd[p]?).getD none with
    | some e => if e ≤ s.now then s.tmUpd (fun x => { x with pauseEnd := x.pauseEnd.set p none }) else s
    | none => s)

/-! Gate changes (R345, R346) -/

/-- STATE of a port's gates: 0 OFF, 1 RUNNING, 2 PENDING. -/
def State.gateState (s : State) (p : Nat) : Nat :=
  if (s.gatePend p).isSome then 2 else if s.gated p && (s.gateOper p).isSome then 1 else 0

/-- The base time of an administrative list. -/
def State.gateBase (s : State) (p : Nat) : Int :=
  (((s.get Fld.TMG_GATE_BASE_S_HI.S [p]) * 2 ^ 32 + (s.reg .TMG_GATE_BASE_S_LO [p]).toNat) * 1000000000 + (s.reg .TMG_GATE_BASE_NS [p]).toNat : Nat)

/-- The switch instant (R346): the first start of a cycle of the new list from `m` on. -/
def switchAt (base : Int) (cycle : Nat) (m : Int) : Int :=
  if m ≤ base then base else base + ceilDiv (m - base).toNat (max 1 cycle) * cycle

/-- OP=CHANGE (R346). -/
def State.gateChange (s : State) (p : Nat) : State :=
  let bank := 1 - s.get Fld.TMG_GATE_CTL.OPER_BANK [p]
  let n := s.get Fld.TMG_GATE_CTL.ADMIN_LEN [p]
  let cycle := s.get Fld.TMG_GATE_CYCLE.CYCLE [p]
  let short := (List.range n).any (fun i => decide (s.tmFld 6 (512 * p + 256 * bank + i) 0 4 % 2 ^ 24 < 10))
  let stat := fun (u : State) (r : Nat) => u.commit .TMG_GATE_STAT [p] (r * 2 ^ 28)
  if n = 0 ∨ 256 < n ∨ short then stat s 1
  else if cycle < 1000 ∨ 1000000000 < cycle then stat s 3
  else if (s.gatePend p).isSome then stat s 2
  else
    let now := s.netTime
    let fin : Int := match (if s.gated p then s.gateOper p else none) with
      | some l => now + (l.cycle - l.phase now : Int)
      | none => now
    let base := s.gateBase p
    let sw := switchAt base cycle (max (now + 10000) fin)
    stat (s.tmUpd (fun x => { x with pending := x.pending.set p (some (⟨bank, n, cycle, base⟩, sw)) })) 0

/-- OP=CANCEL (R346). -/
def State.gateCancel (s : State) (p : Nat) : State := s.tmUpd (fun x => { x with pending := x.pending.set p none })

/-- What a port's services hold back is seen again, before or after their gates change. -/
def State.gateSync (s : State) (p : Nat) : State :=
  (once ((s.tm.pkts.filter (fun o => o.port == p)).map (fun o => s.subSvc o.sub))).foldl (fun t v => (t.svcSync v).svcSee v) s

/-- GATE_CHANGE (R346, R348): at T_sw the banks of port `p` swap. -/
def execGateChangeDue (p : Nat) (s : State) : Host.Outcome State Fault Refusal :=
  .next (match s.gatePend p with
    | some (l, sw) =>
      if s.active 5 ∧ sw ≤ s.netTime then
        (((s.tmUpd (fun x => { x with oper := x.oper.set p (some l), pending := x.pending.set p none })).set
          Fld.TMG_GATE_CTL.OPER_BANK [p] l.bank).gateSync p).raise (ev 5 26)
      else s
    | none => s)

/-- GATE_ENTRY_END (R345): another entry of port `p` is in force. -/
def execGateEntryEnd (p : Nat) (s : State) : Host.Outcome State Fault Refusal :=
  .next (if p < 8 ∧ s.active 5 ∧ s.gated p ∧ s.gateEntry p s.netTime ≠ (s.tm.entry[p]?).getD 0 then
      (s.tmUpd (fun x => { x with entry := x.entry.set p (s.gateEntry p s.netTime) })).gateSync p
    else s)

/-! Registers -/

/-- Values that a traffic manager register does not take. -/
def okTmg (r : Reg) (ix : List Nat) (v : Word) (_ : Req) (s : State) : Bool :=
  match r, ix with
  | .TMG_TBL_SEL, _ => decide (wbits v 31 28 ≤ 6 ∧ wbits v 19 0 < tmCount (wbits v 31 28))
  | .TMG_TBL_CTL, _ => decide (1 ≤ wbits v 3 0 ∧ wbits v 3 0 ≤ 3)
  | .TMG_PORT_CFG_W0, _ => !(wbits v 31 31 == 1 && wbits v 23 8 == 0)
  | .TMG_GATE_CTL, [p] =>
    decide (wbits v 3 0 = 1 ∨ wbits v 3 0 = 2) && !frozen (s.gateState p == 2) (s.get Fld.TMG_GATE_CTL.ADMIN_LEN [p]) (wbits v 16 8)
  | .TMG_GATE_BASE_NS, [p] => decide (v.toNat < 1000000000) && s.gateState p != 2
  | .TMG_GATE_CYCLE, [p] => s.gateState p != 2
  | .TMG_GATE_BASE_S_LO, [p] => s.gateState p != 2
  | .TMG_GATE_BASE_S_HI, [p] => s.gateState p != 2
  | _, _ => true

/-- Performed writes of the traffic manager's registers. -/
def wrTmg (r : Reg) (ix : List Nat) (v : Word) (rq : Req) (s : State) : State :=
  match r, ix with
  | .TMG_TBL_CTL, _ => s.tmOp (wbits v 3 0)
  | .TMG_PORT_CFG_W0, [p] => storeWord r ix v rq (s.setBkt 3 p (s.portNow p))
  | .TMG_GATE_CTL, [p] =>
    let s1 := (s.sets [p] [(Fld.TMG_GATE_CTL.GATE_EN, wbits v 31 31), (Fld.TMG_GATE_CTL.ADMIN_LEN, wbits v 16 8)])
    if wbits v 3 0 = 1 then s1.gateChange p else s1.gateCancel p
  | _, _ => storeWord r ix v rq s

/-- Performed reads of the traffic manager's registers. -/
def rdTmg (r : Reg) (ix : List Nat) (rq : Req) (s : State) : Word × State :=
  match r, ix with
  | .TMG_BUF_STAT, _ => (w32 (ratioFree s.tmUsed 1024), s)
  | .TMG_PORT_CFG_W0, [p] =>
    let w := s.reg r ix
    (wset (wset w 30 30 (b2n (s.tmPaused p))) 29 29 (b2n (if p < 8 then s.portUp p else s.portEnabled p)), s)
  | .TMG_GATE_CTL, [p] => (wset (shownWord r.fields (s.reg r ix)) 27 24 (s.gateState p), s)
  | .TMG_GATE_STAT, [p] =>
    let w := s.reg r ix
    (wset (wset w 23 16 (s.gateEntry p s.netTime)) 8 0 (((s.gateList p s.netTime).map (·.len)).getD 0), readEffect r ix rq w s)
  | _, _ => loadWord r ix rq s

/-- TMG_TABLE_LOAD (R329): a write of TMG_TBL_CTL with OP LOAD. -/
def execTmgTableLoad (rq : Req) (s : State) : Host.Outcome State Fault Refusal :=
  .next (writeReg rq (Reg.addr .TMG_TBL_CTL []) 4 1 okTmg wrTmg s)

/-- TMG_TABLE_WRITE (R329): a write with OP WRITE. -/
def execTmgTableWrite (rq : Req) (s : State) : Host.Outcome State Fault Refusal :=
  .next (writeReg rq (Reg.addr .TMG_TBL_CTL []) 4 2 okTmg wrTmg s)

/-- TMG_TABLE_CLEAR (R329): a write with OP CLEAR. -/
def execTmgTableClear (rq : Req) (s : State) : Host.Outcome State Fault Refusal :=
  .next (writeReg rq (Reg.addr .TMG_TBL_CTL []) 4 3 okTmg wrTmg s)

/-- CHANGE (R346): a write of TMG_GATE_CTL of port `p` with OP CHANGE, GATE_EN and ADMIN_LEN. -/
def execGateChangeOp (rq : Req) (p : Nat) (en : Bool) (len : Nat) (s : State) : Host.Outcome State Fault Refusal :=
  .next (writeReg rq (Reg.addr .TMG_GATE_CTL [p]) 4 (w32 (b2n en * 2 ^ 31 + len % 512 * 256 + 1)) okTmg wrTmg s)

/-- CANCEL (R346): a write of TMG_GATE_CTL of port `p` with OP CANCEL, GATE_EN and ADMIN_LEN. -/
def execGateCancelOp (rq : Req) (p : Nat) (en : Bool) (len : Nat) (s : State) : Host.Outcome State Fault Refusal :=
  .next (writeReg rq (Reg.addr .TMG_GATE_CTL [p]) 4 (w32 (b2n en * 2 ^ 31 + len % 512 * 256 + 2)) okTmg wrTmg s)

/-! Mode changes (R344, R349, R350) -/

/-- Queued packets that satisfy a test are discarded; how many. -/
def State.tmDiscard (s : State) (f : PktOut → Bool) : State × Nat :=
  let gone := s.tm.pkts.filter f
  (gone.foldl (fun t o => ((t.tmTake o).bufFree o.buf).svcSee (s.subSvc o.sub)) s, gone.length)

/-- The link of Ethernet port `p` has gone down (R344). -/
def State.tmLinkDown (s : State) (p : Nat) : State :=
  let r := s.tmDiscard (fun o => o.port == p)
  ((r.1.incBy .TMG_CNT_LINK_DROP [] r.2).raise (ev 5 28)).tmHigh

/-- A sleep commits: every queued packet is discarded (R349). -/
def State.tmFlush (s : State) : State :=
  let r := s.tmDiscard (fun _ => true)
  r.1.incBy .TMG_CNT_FLUSH [] r.2

/-- PK is fenced or off, or Lockdown (R349): queues, tables, buckets and gate lists are lost. -/
def State.tmLost (s : State) : State := { s with tm := Tm.reset }

/-- At wake buckets and credits are as a write leaves them (R350). -/
def State.tmWake (s : State) : State :=
  let all := fun (t : Nat) (u : State) => (s.tmValids t).foldl (fun w i => w.bktFill t i) u
  all 3 (all 1 (all 0 (s.tmUpd (fun x => { x with bkts := x.bkts.filter (fun e => e.1 == 3), wire := [] }))))

/-- A gate change is pending on some port (R349, GATE_PENDING). -/
def State.gatePending (s : State) : Bool := s.tm.pending.any (·.isSome)

end Sys2Proof.Machine
end

