-- ==== Sys2Proof/Machine/Bring.lean ====
section
/-! DEFINITION. What ends and starts whole regions: mode changes (R33), rails (R463), a region's power going, the start and failure of a bring-up
(R52, R55, R56), the restart of the digital die (R31), the end of a sleep request by a higher trigger (R34, R476), Lockdown (R32). -/
namespace Sys2Proof.Machine

/-! Modes (R33) -/

/-- The mode has changed at this instant: a trigger of the same instant coincides with the change (R34). -/
def State.justNow (s : State) : Bool := s.pwr.svcFrom == s.now

/-- A change of mode (R33): what MRAM holds of the DFS map is written (R201), the Ash log gets its MODE record, MODE_CHANGE is raised. -/
def State.setMode (s : State) (m : Nat) : State :=
  if s.mode = m then s
  else
    let s1 := if s.pwr.powered.contains 4 then s.dutyWake.dfsSave else s.dutyWake
    let svc := if s.serving then s.pwr.svcNs + (s.now - s.pwr.svcFrom) else s.pwr.svcNs
    (State.ashMode (State.set { s1 with pwr := { s1.pwr with svcNs := svc, svcFrom := s.now } } Fld.AO_STATUS.MODE [] m) s.mode).raise (ev 6 0)

/-- Time in Service and Fenced so far (R502). -/
def State.svcTime (s : State) : Nat := if s.serving then s.pwr.svcNs + (s.now - s.pwr.svcFrom) else s.pwr.svcNs

/-! Rails (R463) -/

/-- The rails of a region. -/
def railsOf (r : Nat) : List Nat :=
  if r < 4 then [r, 4 + r] else if r = 4 then [8] else if r = 5 then [9] else if r = 6 then (List.range 8).map (10 + ·) else [18]

/-- The region of a rail. -/
def railRegion (n : Nat) : Nat := if n < 8 then n % 4 else if n = 8 then 4 else if n = 9 then 5 else if n < 18 then 6 else 7

/-- Voltage of a fixed rail in mV; of VDDQ, the DRAM record says. -/
def fixedMv (n : Nat) : Option Nat :=
  if 4 ≤ n ∧ n ≤ 7 then some 1000 else if n = 12 then some 750 else if n = 13 then some 850 else if n = 14 then some 1800
  else if n = 15 then some 1200 else if n = 18 then some 800 else none

/-- The entry of a rail in a VF_TABLE body (R468). -/
def vfEntry (vt : Bytes) (rail : Nat) : Option Bytes :=
  ((List.range (vt.length / 36)).map (fun i => slice vt (36 * i) 36)).find? (fun e => leAt e 0 1 == rail)

/-- INIT and COUNT of an entry; MV and MHZ of a point. -/
def vfInit (e : Bytes) : Nat := leAt e 2 1
@[inherit_doc vfInit] def vfCount (e : Bytes) : Nat := leAt e 1 1
@[inherit_doc vfInit] def vfMv (e : Bytes) (i : Nat) : Nat := leAt e (4 + 4 * i) 2
@[inherit_doc vfInit] def vfMhz (e : Bytes) (i : Nat) : Nat := leAt e (6 + 4 * i) 2

/-- Entry of a rail in the running image. -/
def State.vf (s : State) (rail : Nat) : Option Bytes := vfEntry (s.body (railRegion rail) 2) rail

/-- A rail is switched on at its INIT point; before its record is known, a rail without a fixed voltage stands at one that spec/ does not state
(notes/assumptions/59.md). -/
def State.railOn (s : State) (n : Nat) : State :=
  match s.vf n with
  | some e => s.sets [n] [(Fld.AO_RAIL_STAT.ON, 1), (Fld.AO_RAIL_STAT.READY, 1), (Fld.AO_RAIL_STAT.POINT, vfInit e), (Fld.AO_RAIL_STAT.MV, vfMv e (vfInit e))]
  | none =>
    let mv := match fixedMv n with
      | some v => v
      | none => Config.freeNat s.free % 4096
    State.sets { s with free := s.free + 1 } [n]
      [(Fld.AO_RAIL_STAT.ON, 1), (Fld.AO_RAIL_STAT.READY, 1), (Fld.AO_RAIL_STAT.POINT, 0), (Fld.AO_RAIL_STAT.MV, mv)]
@[inherit_doc State.railOn] def State.railsOn (s : State) (r : Nat) : State := (railsOf r).foldl (fun t n => t.railOn n) s

/-- A rail is switched off; FAULT is held until it is cleared. -/
def State.railOff (s : State) (n : Nat) : State :=
  s.sets [n] [(Fld.AO_RAIL_STAT.ON, 0), (Fld.AO_RAIL_STAT.READY, 0), (Fld.AO_RAIL_STAT.POINT, 0), (Fld.AO_RAIL_STAT.MV, 0)]
@[inherit_doc State.railOff] def State.railsOff (s : State) (r : Nat) : State := (railsOf r).foldl (fun t n => t.railOff n) s

/-! A region loses its power -/

/-- The baseband as MRAM keeps it (R201). -/
def Bb.kept (b : Bb) : Bb :=
  { Bb.reset with
    phys := b.phys.map (fun p => { Phy.reset with savedMap := p.savedMap, savedNop := p.savedNop })
    dfsSavedAt := b.dfsSavedAt
    dfsTicks := b.dfsTicks }

/-- What stands in a region beside its registers is lost: a quadrant, BB with the reckoners, PK with its tables and packets. The sets that the
save area holds and what MRAM keeps stay (R135, R158, R201, R278). -/
def State.unitsLost (s : State) (r : Nat) : State :=
  if r < 4 then s.quadUpd r (fun d => { Quad.reset with savedDpd := d.savedDpd, savedCal := d.savedCal, savedValid := d.savedValid })
  else if r = 4 then
    let s1 := { s.txaLost with bb := s.bb.kept, fhu := Fhu.reset, rkns := List.replicate 32 Rkn.reset }
    (s1.radUpd (fun x => { x with bbEbufs := List.replicate 5 ⟨false, none⟩ })).memZero 0x14000000 0x400000
  else if r = 5 then
    let s1 := { s.pkLost.tmLost.cipLost with wac := { Wac.reset with next := s.wac.next } }
    { s1 with mems := { s1.mems with bufs := [], budget := 65536, budgetAt := s.now } }
  else s

/-- A region is switched off: its registers, units, rails and the local memory of its core are gone (R430, R463). -/
def State.regionDown (s : State) (r : Nat) : State :=
  let s1 := ((s.unitsLost r).resetRegs (fun k => keyRegion k == r)).railsOff r
  let s2 := if r = 5 then s1.memZero 0x12000000 0x2000000 else s1
  let s3 := if r < 6 then s2.memZero (0x15000000 + r * 0x20000) 0x20000 else s2
  { s3 with
    held := s3.held.filter (fun h => aRegion h.addr != r)
    timeouts := s3.timeouts.filter (fun t => t.1 != r)
    boot := { s3.boot with applied := s3.boot.applied.filter (· != r) }
    pwr := { s3.pwr with powered := s3.pwr.powered.filter (· != r), waking := s3.pwr.waking.filter (fun w => w.region != r),
                         islands := s3.pwr.islands.filter (fun i => i.region != r) } }

/-- An operation of the push registers that the part cannot go on with ends ABORTED (DEDUCED, notes/assumptions/65.md). -/
def State.pushCut (s : State) : State := if s.push.op = 0 then s else s.pushEnd 0x34

/-- The digital die and the RF dies go off: only what AO holds is left (R30, R33). -/
def State.dieOff (s : State) : State :=
  let s1 := (List.range 7).foldl (fun t r => t.regionDown r) s.pushCut
  let s2 := { s1 with
    mem := [], held := [], timeouts := [], evt := Evt.reset, plan := Plan.reset, tly := Tally.reset
    mems := { Mems.reset with budgetAt := s.now }
    kiln := { s1.kiln with mbox := [], slots := [], jobs := [], trngFails := 0, trngFailed := false }
    ntu := { s1.ntu with running := false }
    push := Push.reset
    boot := { s1.boot with phase := .off, src := 0, tried := [], cord := 0, applied := [], ctReady := false }
    ports := { s1.ports with hostPresented := none, spi := none, retry := false,
                             up := List.replicate 10 false }
    pwr := { s1.pwr with powered := [7], waking := [], vf := none, ntuRead := false, sleptMask := 0, sleptOn := [] } }
  (s2.radUpd (fun r => { r with txs := [], request := none, gaps := [], returnAt := none, awaiting := [], fallbackDue := false })).hkaSkip

/-! Sleep requests that end (R34, R476, R477) -/

/-- A sleep request ends without a retry: RESULT, REASON and the block, which the parked blocks leave. -/
def State.sleepEnd (s : State) (result reason region block : Nat) : State :=
  match s.pwr.sleep with
  | none => s
  | some r =>
    let s1 := { s with pwr := { s.pwr with sleep := none } }.sets []
      [(Fld.AO_SLEEP_REC.REASON, reason), (Fld.AO_SLEEP_REC.REGION, region), (Fld.AO_SLEEP_REC.BLOCK, block)]
    (s1.commit .AO_SLEEP_STAT [] (result * 2 ^ 24 + r.target * 2 ^ 20)).raise (ev 7 4)

/-- A higher trigger ends a request not yet committed (R34): PREEMPTED. -/
def State.sleepPreempt (s : State) (reason : Nat) : State := s.sleepEnd 4 reason 0 0

/-! Bring-up (R52, R55 to R57) -/

/-- Restarts of the digital die within the last 10 s. -/
def State.restartsNow (s : State) : List Nat := s.boot.restarts.filter (fun t => decide (s.now < t + 10000000000))

/-- AO_BOOT_INFO as it reads now. -/
def State.bootInfo (s : State) : Word := wset (s.reg .AO_BOOT_INFO) 29 28 (min 3 s.restartsNow.length)

/-- A BRINGUP record (R495, R56). -/
def State.ashBringup (s : State) (code : Nat) : State :=
  s.ashAdd 4 0xE0 ([b8 code] ++ leBytes 4 s.bootInfo.toNat ++ leBytes 4 (s.reg .AO_IMAGE_SERIAL).toNat)

/-- A bring-up begins (R33, R55, R548): with VIN_MAIN present AO wakes CT, else it waits; housekeeping runs from its reset configuration (R158); after a loss of power the open incident closes (R497). `code` is the cause of a restart, 0 for none. -/
def State.bringup (s : State) (code : Nat) : State :=
  let s1 := s.sets [] [(Fld.AO_STATUS.LOCK_CAUSE, 0), (Fld.AO_STATUS.BRINGUP_REASON, code), (Fld.AO_STATUS.FENCE_MASK, 0), (Fld.AO_STATUS.BRINGUP_FAIL, 0)]
  let s2 := (((s1.setReg .AO_BOOT_INFO [] 0).setReg .AO_IMAGE_SERIAL [] 0).setReg .AO_PUSH_STAT [] 0).set Fld.AO_WAKE_FAIL.VALID [] 0
  let s3 := (List.range 8).foldl (fun t r => t.sets [r] [(Fld.AO_AGE_STAT.VALID, 0), (Fld.AO_AGE_STAT.WARN, 0)]) s2.hkaBegin
  let on := s.pwr.vinMain
  let s4 := (List.range 4).foldl (fun t k => t.alertForget k) (if s.pwr.powerLost then s3.ashClose 1 else s3)
  State.setMode { s4.set Fld.IDN_LIFECYCLE.DEBUG_OPEN [] 0 with
    boot := { s4.boot with phase := if on then .wakeCt else .off, src := 0, tried := [], cord := 0, applied := [], carried := code, ctReady := false }
    push := Push.reset
    pwr := { s4.pwr with waking := if on then [⟨6, 0, s.now, false⟩] else [], powerLost := false } } 1

/-- 64 bytes of a slot's header (R51): slot 1 is A, 2 is B. -/
def State.slotHead (s : State) (k : Nat) : Bytes := s.fbytes (0x1000000 * (k - 1)) 64

/-- The checks of R37 in table order: whether it holds, whether R52 asks it of a candidate, the reason it fails with. -/
def headChecks (h : Bytes) (floor : Nat) : List (Bool × Bool × Nat) :=
  [(leAt h 0 4 == 0x4B434952, true, 3), (leAt h 4 2 == 1, true, 3), (leAt h 6 2 == 64, false, 3),
   (leAt h 8 4 % 64 == 0 && decide (leAt h 8 4 ≤ 0x1000000), true, 3), (decide (floor ≤ leAt h 12 4), true, 5), (leAt h 16 2 == 0xA1, true, 4),
   (leAt h 18 1 == 9, false, 3), (decide (leAt h 19 1 ≤ 1), false, 3), (leAt h 20 4 == 64, false, 3), (leAt h 24 4 == 640, false, 3),
   (leAt h 28 4 == 3405, false, 3), (leAt h 0x38 8 == 0, false, 3)]

/-- Reason of the first check that fails; 0 when none does. -/
def firstFail (l : List (Bool × Nat)) : Nat := ((l.find? (fun e => !e.1)).map (·.2)).getD 0

/-- Why a slot is no candidate (R52), 0 for a candidate. -/
def State.slotReason (s : State) (k : Nat) : Nat :=
  let l := headChecks (s.slotHead k) (s.reg .AO_SERIAL_FLOOR).toNat
  if l.all (fun e => e.1 || !e.2.1) then 0 else firstFail (l.map (fun e => (e.1, e.2.2)))

/-- The slot to try next (R52): the higher SERIAL first, slot A when they are equal. -/
def State.nextSlot (s : State) : Option Nat :=
  match [1, 2].filter (fun k => s.slotReason k == 0 && !s.boot.tried.contains k) with
  | [a, b] => if leAt (s.slotHead a) 12 4 < leAt (s.slotHead b) 12 4 then some b else some a
  | l => l.head?

/-- The reason of a slot's attempt (R52). -/
def State.slotShow (s : State) (k reason : Nat) : State :=
  if k = 1 then s.set Fld.AO_BOOT_INFO.REASON_A [] reason else if k = 2 then s.set Fld.AO_BOOT_INFO.REASON_B [] reason else s

/-- Kiln tries a slot. -/
def State.trySlot (s : State) (k : Nat) : State :=
  { s with boot := { s.boot with phase := .verify, src := k, tried := k :: s.boot.tried, cord := 0 } }

/-- Every applied region returns to off (R52). CT stays powered, since Kiln runs there; what its cord applied is undone (DEDUCED,
notes/assumptions/60.md); registers of AO that its AO cord set stay as they are in the next attempt (DESIGN CHOICE, notes/assumptions/68.md). -/
def State.unwind (s : State) : State :=
  let s1 := (List.range 6).foldl (fun t r => if t.pwr.powered.contains r ∨ t.pwr.waking.any (fun w => w.region == r) then t.regionDown r else t) s
  let s2 := s1.resetRegs (fun k => keyRegion k == 6 && !(keyBlock k == 7 || keyBlock k == 9 || keyBlock k == 10 || keyBlock k == 11))
  ({ s2 with
    plan := Plan.reset, evt := { Evt.reset with msixEn := s.evt.msixEn, fnMask := s.evt.fnMask, msixTable := s.evt.msixTable }, tly := Tally.reset
    boot := { s2.boot with applied := [] } }.radUpd (fun r => { r with txs := [], request := none, gaps := [], returnAt := none, awaiting := [] })).hkaSkip

/-- BRINGUP_FAIL is raised (R29): the event controller counts it while CT is powered, though no cord has set its routes. -/
def State.raiseStop (s : State) : State := if s.pwr.powered.contains 6 then s.countEdge (ev 7 0) else s

/-- Bring-up stops (R56): BRINGUP_FAIL with a reason, its record and event. -/
def State.bringStop (s : State) (reason : Nat) : State :=
  let s1 := (s.sets [] [(Fld.AO_STATUS.BRINGUP_FAIL, 1), (Fld.AO_STATUS.BRINGUP_REASON, reason)]).ashBringup reason
  State.raiseStop { s1 with boot := { s1.boot with phase := .stopped, src := 0 } }

/-- An attempt of a bring-up fails (R33, R52): applied regions return to off; the other candidate is tried, or bring-up stops. A pushed boot ends
with the reason. -/
def State.bringFail (s : State) (reason : Nat) : State :=
  let src := s.boot.src
  let s1 := (s.slotShow src reason).unwind
  match (if src = 1 ∨ src = 2 then s1.nextSlot else none) with
  | some k => s1.trySlot k
  | none => (if src = 3 then s1.pushEnd reason else s1).bringStop reason

/-! The digital die restarts (R31, R56) -/

/-- An uncorrectable error or hang in CT or AO: `code` is 0x40 to 0x43. The third restart within 10 s ends in RESTART_LOOP. In Lockdown and Dormant
nothing is left to restart; one that coincides with the commit of a sleep into Dormant is recorded and becomes the reason of the next bring-up (R34). -/
def State.dieRestart (s : State) (code : Nat) : State :=
  if s.mode = 5 then s
  else if s.mode = 0 then
    if s.justNow then { s with boot := { s.boot with carried := code } }.ashBringup code else s
  else
    let recent := s.now :: s.restartsNow
    let s1 := ((s.dfsSave.sleepPreempt 0x12).txsEnd (fun _ => true) 5).dieOff
    let s2 := ({ s1 with boot := { s1.boot with restarts := recent } }.set Fld.AO_STATUS.BRINGUP_REASON [] code).ashBringup code
    if 3 ≤ recent.length then (s2.bringup code).sets [] [(Fld.AO_STATUS.BRINGUP_FAIL, 1), (Fld.AO_STATUS.BRINGUP_REASON, 0x11)] |>.ashBringup 0x11
    else s2.bringup code

/-! Lockdown (R32, R33) -/

/-- The part enters Lockdown with a cause: MRAM gets the DFS map (R202), transmission ramps down, secure SRAM, key slots and XTS keys are zeroised, every engine stops, the regions but
CT go off (R30, R405, R415, R426, R429). From Dormant, CT stays off. A trigger that coincides with a thermal trip is only recorded (R34). -/
def State.lockdown (s : State) (cause : Nat) : State :=
  if s.mode = 5 then s
  else if s.pwr.thermalAt = some s.now then s.ashAdd 5 0xE0 [b8 cause]
  else
    let s1 := ((s.dfsSave.pushCut.sleepPreempt 0x10).txsEnd (fun _ => true) 5).slotsZero
    let s2 := if s.pwr.powered.contains 6 then s1.wipeSecure else s1
    let s3 := (List.range 6).foldl (fun t r => if t.pwr.powered.contains r ∨ t.pwr.waking.any (fun w => w.region == r) then t.regionDown r else t) s2
    let s4 := ((s3.railOff 16).railOff 17).ashAdd 5 0xE0 [b8 cause]
    let s5 := { s4 with
      tly := Tally.reset, held := [], push := Push.reset
      evt := { s4.evt with pend := List.replicate 256 0 }
      kiln := { s4.kiln with mbox := [], jobs := [] }
      mem := sdrop (fun a => decide (0x800000000 ≤ a)) s4.mem
      mems := { s4.mems with dmc := List.replicate 2 Dmc.reset }
      boot := { s4.boot with phase := .off, applied := [] }
      ports := { s4.ports with spi := none, up := List.replicate 10 false }
      pwr := { s4.pwr with waking := [], vf := none, lockLost := false } }
    let s6 := (s5.radUpd (fun r => { r with request := none, gaps := [], returnAt := none, awaiting := [], fallbackDue := false })).hkaSkip
    (s6.set Fld.AO_STATUS.LOCK_CAUSE [] cause).setMode 5

end Sys2Proof.Machine
end

