-- ==== Sys2Proof/Machine/Cross.lean ====
section
/-! DEFINITION. What crosses regions: re-stacks and their gaps (R49, R50, R65 to R69), fences, hangs and uncorrectable errors
(R31, R491, R492), the triggers of Lockdown (R445, R455, R456). -/
namespace Sys2Proof.Machine

/-! A gap (R66, R67) -/

/-- GAP in µs of a change. -/
def State.gapUs (s : State) (qs : List (Nat × Nat)) : Nat := gapOf (qs.map (fun e => (s.curStack e.1, (s.stackOf e.1 e.2).getD [])))

/-- Transmissions that have not started drop paths; those left with none end with ABORT_STOP. -/
def State.txsDrop (s : State) (gs : List Nat) : State :=
  let s1 := s.radUpd (fun r => { r with txs := r.txs.map (fun t => if t.start.isSome then t else { t with paths := t.paths.filter (fun g => !gs.contains g) }) })
  s1.txsEnd (fun t => t.start.isNone && t.paths.isEmpty) 5

/-- A gap begins: the quadrants take their stacks, and every role that loses paths hears of it (R66, R67, R182, R235, R263, R287). Where several quadrants take paths from one
role, it returns when the POLICY of any of them says so (DESIGN CHOICE, notes/assumptions/68.md). -/
def State.gapBegin (s : State) (qs : List (Nat × Nat)) (request : Bool) : State :=
  let us := s.gapUs qs
  let hit := (qs.map (fun e => s.stackAffects e.1 e.2)).flatten
  let aff := hit.map (·.1)
  let lose := (hit.filter (fun e => !e.2 && s.pathRole e.1 != 0)).map (·.1)
  let loses := fun (role : Nat) => (qs.filter (fun e => lose.any (fun g => g / 16 == e.1 && s.pathRole g == role))).map (·.1)
  let policy := fun (role : Nat) => if (qs.filter (fun e => (loses role).contains e.1)).any (fun e => stkPolicy ((s.stackOf e.1 e.2).getD []) role == 1) then 1 else 0
  let down := (List.range 3).filter (fun l => aff.any (fun g => s.pathRole g == l + 1))
  let t := s.netTime
  let cut := if (loses 5).isEmpty then [] else (s.txa.sched.filter (fun d => decide (t < d.launch + d.dur ∧ d.launch < t + 1000 * (us : Int)))).map (·.num)
  let gap : Gap := ⟨qs, s.now, s.now + 1000 * us, request, aff, down⟩
  let s1 := (s.calYield (qs.map (·.1)) t us).radUpd (fun r => { r with gaps := r.gaps ++ [gap] })
  let s2 := cut.foldl (fun u n => u.dlCut n) s1
  let s3 := if (loses 4).isEmpty then s2 else s2.fhRestack (loses 4) t (1000 * us) (policy 4)
  let s4 := ((s3.fhGap aff t (1000 * us) (policy 4 == 1)).txsEnd (fun x => x.uses aff.contains || (x.src == 3 && x.start.isSome && policy 4 == 1 && !(loses 4).isEmpty)) 5).txsDrop lose
  let s5 := qs.foldl (fun u e => u.visitsAbandon e.1 ((aff.filter (fun g => g / 16 == e.1)).map (· % 16))) (s4.phyLose lose)
  let s6 := qs.foldl (fun u e => u.takeStack e.1 e.2) (s5.radUpd (fun r => { r with awaiting := r.awaiting.filter (fun q => !qs.any (fun e => e.1 == q)) }))
  let s7 := (List.range 3).foldl (fun u l =>
    if (loses (l + 1)).isEmpty ∨ policy (l + 1) = 0 then u
    else (u.wac.frames.filter (fun f => f.inTx.isNone && f.kind != 2 && u.frameLinks f == 2 ^ l)).foldl (fun w f => w.frameEnd f l 8) u) s6
  let s8 := if (loses 5).isEmpty then s7 else s7.txaRestack (policy 5)
  s8.pathsCheck.coexSettle

/-! Falling back and returning (R49, R50) -/

/-- Regions that count as fenced for R49. -/
def State.fencedFor (s : State) : List Nat := (List.range 6).filter (fun r => s.fenced r || s.push.reloading == some r)

/-- The entry of the lowest-numbered fenced region that has one in quadrant `q`'s FALLBACK record. -/
def State.fallbackOf (s : State) (q : Nat) : Option Nat :=
  (s.body? q 0x21).bind (fun b => (s.fencedFor.map (fun r => leAt b r 1)).find? (· != 0xFF))

/-- R49 is applied: at once, or after the gap in progress (R69). Reloaded quadrants stop waiting for R50 and take part. -/
def State.fallback (s : State) : State :=
  if ¬ s.radio.gaps.isEmpty then s.radUpd (fun r => { r with fallbackDue := true })
  else
    let wait := s.radio.awaiting
    let s1 := s.radUpd (fun r => { r with fallbackDue := false, returnAt := none })
    let qs := (List.range 4).filterMap (fun q =>
      let i := (s1.fallbackOf q).getD (s1.curIdx q)
      if s1.running q ∧ (i ≠ s1.curIdx q ∨ wait.contains q) then some (q, i) else none)
    if qs.isEmpty then s1 else s1.gapBegin qs false

/-- FALLBACK_RETURN (R50): at the first grid instant at least 1 ms after the last reload every quadrant returns to its chosen stack. -/
def execFallbackReturn (s : State) : Host.Outcome State Fault Refusal :=
  .next (match s.radio.returnAt with
    | none => s
    | some t =>
      if s.serving ∧ t ≤ s.netTime ∧ s.radio.gaps.isEmpty then
        let s1 := s.radUpd (fun r => { r with returnAt := none })
        let qs := ((List.range 4).filter (fun q => s.running q && (s.chosenIdx q != s.curIdx q || s.radio.awaiting.contains q))).map (fun q => (q, s.chosenIdx q))
        if qs.isEmpty then s1 else s1.gapBegin qs false
      else s)

/-! Requests (R68) -/

/-- RGC_RESTACK_STAT takes a state and a cause; GAP stays as computed last. What GAP shows of more than 255 µs is a free value (notes/assumptions/61.md). -/
def State.restackStat (s : State) (st cause gap : Nat) : State :=
  s.commit .RGC_RESTACK_STAT [] (st * 2 ^ 24 + cause * 2 ^ 16 + (if gap < 256 then gap else (Config.gapWide gap).toNat))

/-- A pending request is cancelled with a cause. -/
def State.restackCancel (s : State) (cause : Nat) : State :=
  match s.radio.request with
  | none => s
  | some _ => (s.radUpd (fun r => { r with request := none })).restackStat 5 cause (s.get Fld.RGC_RESTACK_STAT.GAP)

/-- A requested gap is in progress. -/
def State.inRequest (s : State) : Bool := s.radio.gaps.any (·.request)

/-- Why a request is refused (R68), in the order of its list; 0 when it is accepted. One with QMASK 0 has NO_STACK, and a quadrant that has been reloaded and waits for the
instant of R50 is BUSY (DESIGN CHOICE, notes/assumptions/68.md). -/
def State.restackCause (s : State) (t : Option Int) (qs : List (Nat × Nat)) : Nat :=
  match t with
  | none => 1
  | some t =>
    if t < s.netTime + 1000000 then 1
    else if ¬ isGrid s.linkPlan t then 2
    else if qs.isEmpty ∨ qs.any (fun e => (s.stackOf e.1 e.2).isNone) then 5
    else if qs.any (fun e => s.fenced e.1) then 4
    else if s.radio.request.isSome ∨ s.inRequest
      ∨ qs.any (fun e => s.push.reloading == some e.1 || s.radio.awaiting.contains e.1 || s.radio.gaps.any (fun g => g.qs.any (fun x => x.1 == e.1))) then 3
    else if ¬ s.serving then 7
    else 0

/-- OP REQUEST: the boundary is booked or refused. -/
def State.restackAsk (s : State) (v : Word) : State :=
  let qs := ((List.range 4).filter (fun q => bitOf (wbits v 7 4) q)).map (fun q => (q, wbits v (2 * q + 9) (2 * q + 8)))
  let t := s.launch (s.reg .RGC_RESTACK_TIME).toNat
  let c := s.restackCause t qs
  if c ≠ 0 then (s.restackStat 4 c (s.get Fld.RGC_RESTACK_STAT.GAP)).raise (ev 6 3)
  else
    let gap := s.gapUs qs
    let s1 := s.radUpd (fun r => { r with request := some ⟨t.getD 0, qs, gap⟩ })
    (s1.calYield (qs.map (·.1)) (t.getD 0) gap).restackStat 1 0 gap

/-- Values that the registers of this file let through. -/
def okCross (r : Reg) (_ : List Nat) (v : Word) (_ : Req) (_ : State) : Bool :=
  match r with
  | .RGC_RESTACK_CTL => wbits v 3 0 == 1 || wbits v 3 0 == 2
  | _ => true

/-- Performed writes of the registers of this file. -/
def wrCross (r : Reg) (ix : List Nat) (v : Word) (rq : Req) (s : State) : State :=
  match r with
  | .RGC_RESTACK_CTL =>
    let s1 := storeWord r ix v rq s
    if wbits v 3 0 = 1 then s1.restackAsk v else s1.restackCancel 0
  | .RGC_ERR_INFO =>
    if wbits v 31 31 = 1 ∧ s.flag Fld.RGC_ERR_INFO.CAPT ix then
      s.sets ix [(Fld.RGC_ERR_INFO.CAPT, 0), (Fld.RGC_ERR_INFO.OVER, 0), (Fld.RGC_ERR_INFO.COUNT, 0)]
    else s
  | _ => storeWord r ix v rq s

/-- RESTACK_REQUEST (R68): a write of RGC_RESTACK_CTL with OP REQUEST. -/
def execRestackRequest (rq : Req) (v : Word) (s : State) : Host.Outcome State Fault Refusal :=
  .next (writeReg rq (Reg.addr .RGC_RESTACK_CTL []) 4 (wset v 3 0 1) okCross wrCross s)

/-- RESTACK_CANCEL (R68): a write of RGC_RESTACK_CTL with OP CANCEL. -/
def execRestackCancel (rq : Req) (v : Word) (s : State) : Host.Outcome State Fault Refusal :=
  .next (writeReg rq (Reg.addr .RGC_RESTACK_CTL []) 4 (wset v 3 0 2) okCross wrCross s)

/-- RESTACK_BOUNDARY (R66): the boundary of the pending request has come. -/
def execRestackBoundary (s : State) : Host.Outcome State Fault Refusal :=
  .next (match s.radio.request with
    | none => s
    | some r =>
      if s.serving ∧ r.time ≤ s.netTime then
        ((s.radUpd (fun x => { x with request := none })).restackStat 2 0 (s.gapUs r.qs)).gapBegin r.qs true
      else s)

/-- An LO that a quadrant's stack has on is not locked. -/
def State.lockLate (s : State) (q : Nat) : Bool :=
  s.running q && (List.range 2).any (fun k => s.get Fld.SYN_STAT.FREQ [q, k] != 0 && !s.flag Fld.SYN_STAT.LOCK [q, k])

/-- A gap ends: the gates of its paths may open, a requested one is DONE and sets CHOSEN, FH takes on paths that it gained, links are up again, a fence that waited acts (R66,
R68, R69, R222, R263). -/
def State.gapEnd (s : State) (g : Gap) : State :=
  let s1 := ((s.radUpd (fun r => { r with gaps := r.gaps.erase g })).gateOpens g.affected).txaRestackEnd
  let s2 := if g.request then
      let s3 := g.qs.foldl (fun u e => u.setChosen e.1 e.2) s1
      (s3.restackStat 3 (if g.qs.any (fun e => s1.lockLate e.1) then 6 else 0) (s1.get Fld.RGC_RESTACK_STAT.GAP)).raise (ev 6 2)
    else s1
  let s4 := (s2.fhJoin g.affected).wacLine
  (if s4.radio.fallbackDue then s4.fallback else s4).coexSettle

/-- RESTACK_GAP_END (R66): the gap of a boundary, or of a fallback, is over. -/
def execRestackGapEnd (s : State) : Host.Outcome State Fault Refusal :=
  .next (match s.radio.gaps.find? (fun g => decide (g.ends ≤ s.now)) with
    | none => s
    | some g => s.gapEnd g)

/-! Fences (R31, R491, R492) -/

/-- The block that answers for a memory address: shared SRAM, packet buffer, reckoner memory, the cores' local memory, DRAM. -/
def memOwner (a : Nat) : Nat × Nat :=
  if 0x800000000 ≤ a then (6, 5 + dramCh a) else if 0x15000000 ≤ a then (min 5 ((a - 0x15000000) / 0x20000), 0) else if 0x14000000 ≤ a then (4, 8)
  else if 0x12000000 ≤ a then (5, 5) else (6, 4)

/-- Region and block of an address. -/
def ownerOf (a : Nat) : Nat × Nat := if a < 0x8000000 then (aRegion a, aBlock a) else memOwner a

/-- Accesses held into a region complete with FENCED. -/
def State.heldFenced (s : State) (r : Nat) : State :=
  let hs := s.held.filter (fun h => aRegion h.addr == r)
  hs.foldl (fun t h => t.refuse h.req 7 3 0xFF 6 h.addr) { s with held := s.held.filter (fun h => aRegion h.addr != r) }

/-- Paths of a quadrant leave every transmission; those left with no path end with ABORT_STOP (R115). -/
def State.quadLeave (s : State) (q : Nat) : State :=
  let ps := (List.range 16).map (16 * q + ·)
  let s1 := (s.phyLose ps).radUpd (fun r => { r with txs := r.txs.map (fun t => { t with paths := t.paths.filter (fun g => !ps.contains g) }) })
  s1.txsEnd (fun t => t.paths.isEmpty) 5

/-- The traffic of a region stops: what it had under way is lost, Tally and the others hear of it (R115, R156, R201, R236, R264, R287, R392, R458). -/
def State.regionStop (s : State) (r : Nat) : State :=
  let s1 := if r < 4 then s.quadLeave r
    else if r = 4 then ((s.txsEnd (fun _ => true) 5).dfsSave)
    else if r = 5 then s.txsEnd (fun t => decide (t.src < 3)) 5 else s
  (((s1.unitsLost r).heldFenced r).tlyFence r).hkaSkip

/-- A change of the region's rails or islands ends with NO_TARGET (R470). -/
def State.vfLost (s : State) (r : Nat) : State :=
  match s.pwr.vf with
  | none => s
  | some c =>
    if c.region ≠ r then s
    else
      let s1 := State.commit { s with pwr := { s.pwr with vf := none } } .AO_VF_STAT [] (4 * 2 ^ 24)
      if c.late then s1.raise (ev 7 11) else s1

/-- The fence of a region, from its detection to FENCE_MASK and MODE (R492). -/
def State.fenceDo (s : State) (r block req code : Nat) (hang : Bool) : State :=
  let w := 2 ^ 31 + block * 65536 + req * 256 + b2n hang * 16 + code
  let s1 := (s.setReg .RGC_FENCE_CAUSE [r] (w32 w)).ashAdd 2 (r * 32) (leBytes 4 w ++ [b8 r])
  let s2 := (((s1.sleepPreempt 0x13).restackCancel 4).vfLost r).regionStop r
  let s3 := ({ s2 with timeouts := s2.timeouts.filter (fun t => t.1 != r) }.set Fld.AO_STATUS.FENCE_MASK [] (maskSet (s2.get Fld.AO_STATUS.FENCE_MASK) r))
  ((((s3.pathsCheck).raise (ev r 0)).setMode 4).fallback).coexSettle

/-- A region fences itself: in Bring-up the attempt fails with REGION_FAULT; one that coincides with the entry to Lockdown or with the commit of a sleep is recorded in the
Ash log and has no other effect (R34). -/
def State.fence (s : State) (r block req code : Nat) (hang : Bool) : State :=
  if s.mode = 1 then s.bringFail 0x12
  else if (s.mode = 0 ∨ s.mode = 2 ∨ s.mode = 5) ∧ s.justNow ∧ r < 6 then
    s.ashAdd 2 (r * 32) (leBytes 4 (2 ^ 31 + block * 65536 + req * 256 + b2n hang * 16 + code) ++ [b8 r])
  else if s.serving ∧ r < 6 ∧ s.running r then s.fenceDo r block req code hang
  else s

/-- A fault that a block cannot contain: fence, or restart of the digital die in CT and AO (R31). -/
def State.escalate (s : State) (r block req code : Nat) (hang : Bool) : State :=
  if r < 6 then s.fence r block req code hang
  else s.dieRestart (0x40 + (if r = 6 then 0 else 2) + b2n hang)

/-- The access reaches its block (steps 1 to 3 of R547). -/
def State.reachesBlock (s : State) (rq : Req) (a : Nat) : Bool :=
  s.mode != 0 && (if a < 0x8000000 then (preJudge s rq (a / 4 * 4) 4 false).isNone else s.rangeCode rq a 1 == 0)

/-- A failure that coincides with the entry to a mode in which nothing answers any more still counts (R34). -/
def State.late (s : State) : Bool := (s.mode == 0 || s.mode == 2 || s.mode == 5) && s.justNow

/-- HANG_TO of a region in ns. -/
def State.hangNs (s : State) (r : Nat) : Nat := 1000 * max 1 (s.get Fld.RGC_HANG_CFG.HANG_TO [r])

/-- The held writes of a requester at an address. -/
def heldAs (rq : Req) (a : Nat) (h : Held) : Bool := h.req == rq && h.addr == a

/-- ACCESS_TIMEOUT (R491): an access of `rq` at address `a` has not completed after HANG_TO. HANG_MAX of them within 1 ms are a hang. -/
def execAccessTimeout (rq : Req) (a : Nat) (s : State) : Host.Outcome State Fault Refusal :=
  .next (let r := (ownerOf a).1
    let b := (ownerOf a).2
    if ¬ s.reachesBlock rq a ∨ (s.held.any (heldAs rq a) ∧ ¬ s.held.any (fun h => heldAs rq a h && decide (h.since + s.hangNs r ≤ s.now))) then s
    else
      let hs := match s.held.find? (heldAs rq a) with
        | some h => s.held.erase h
        | none => s.held
      let ts := (r, b, s.now) :: s.timeouts.filter (fun t => decide (s.now < t.2.2 + 1000000))
      let s1 := State.refuse { s with held := hs, timeouts := ts } rq r 1 b 5 a
      if max 1 (s.get Fld.RGC_HANG_CFG.HANG_MAX [r]) ≤ (ts.filter (fun t => t.1 == r && t.2.1 == b)).length then s1.escalate r b (reqId rq) 5 true else s1)

/-- CROSSBAR_TIMEOUT (R491): the error collector of the block at `a` has stopped answering; the crossbar answers `rq`, and this is a hang. -/
def execCrossbarTimeout (rq : Req) (a : Nat) (s : State) : Host.Outcome State Fault Refusal :=
  .next (if s.reachesBlock rq a then
      let hs := s.held.filter (fun h => !heldAs rq a h)
      (State.refuse { s with held := hs } rq (ownerOf a).1 2 0xFF 5 a).escalate (ownerOf a).1 (ownerOf a).2 (reqId rq) 5 true
    else if s.late then s.escalate (ownerOf a).1 (ownerOf a).2 (reqId rq) 5 true
    else s)

/-- CONTROL_STORAGE_ECC (R13, R31, R491): control storage of the block at `a` holds an uncorrectable error that its retry does not mend; it surfaces
on an access of `rq`. -/
def execControlStorageEcc (rq : Req) (a : Nat) (s : State) : Host.Outcome State Fault Refusal :=
  .next (if s.reachesBlock rq a then
      (s.refuse rq (ownerOf a).1 1 (ownerOf a).2 4 a).escalate (ownerOf a).1 (ownerOf a).2 (reqId rq) 4 false
    else if s.late then s.escalate (ownerOf a).1 (ownerOf a).2 (reqId rq) 4 false
    else s)

/-! Triggers of Lockdown -/

/-- TAMPER (R455): tamper input `n` has been held active for TFILT. -/
def execTamper (n : Nat) (s : State) : Host.Outcome State Fault Refusal :=
  .next (if s.pwr.vinAo ∧ n < 2 ∧ bitOf (s.get Fld.IDN_TAMPER_CFG.EN) n ∧ s.get Fld.IDN_LIFECYCLE.STATE ≠ 0 then
      ((s.bump Fld.IDN_LIFECYCLE.TAMPER_COUNT).ashSecurity 0).lockdown 1
    else s)

/-- KILN_DETECTOR_TRIP (R456): a detector trip or compare mismatch in Kiln's engine. -/
def execKilnDetectorTrip (s : State) : Host.Outcome State Fault Refusal :=
  .next (if s.pwr.powered.contains 6 ∧ s.mode ≠ 0 then s.lockdown 2 else s)

/-- TRNG_HEALTH_FAIL (R445): a health test fails and the source restarts; the third failure in succession fails the TRNG, in Bring-up a Kiln integrity
failure. -/
def execTrngHealthFail (s : State) : Host.Outcome State Fault Refusal :=
  .next (if s.pwr.powered.contains 6 ∧ s.mode ≠ 0 ∧ s.mode ≠ 5 ∧ ¬ s.kiln.trngFailed then
      let n := s.kiln.trngFails + 1
      let s1 := s.klnUpd (fun k => { k with trngFails := n })
      if n < 3 then s1
      else
        let s2 := ((s1.klnUpd (fun k => { k with trngFailed := true })).raise (ev 6 19)).ashSecurity 1
        if s.mode = 1 then s2.lockdown 2 else s2
    else s)

end Sys2Proof.Machine
end

