-- ==== Sys2Proof/Machine/Power.lean ====
section
/-! DEFINITION. Supplies, rails, voltage and frequency, wake sources (R461 to R470, R480 to R486, R502, R542, R544, R548, R549). -/
namespace Sys2Proof.Machine

/-- Supplies updated. -/
def State.pwrUpd (s : State) (f : Pwr → Pwr) : State := { s with pwr := f s.pwr }

/-! The AO die loses its power (R461, R464, R544) -/

/-- Registers of AO that MRAM holds: the floor, the last-wake record, the wake registers, the identity store (R53, R2, R480, R485). -/
def mramKey (k : Nat) : Bool :=
  keyRegion k == 7 && (keyBlock k == 4 || keyBlock k == 5 || keyAddr k == 0x7000218 || (decide (0x7000310 ≤ keyAddr k) && decide (keyAddr k ≤ 0x7000324)))

/-- Everything but MRAM is lost; queued records have taken no SEQ (R503). -/
def State.aoDown (s : State) : State :=
  let s1 := ((s.txsEnd (fun _ => true) 5).dieOff).resetRegs (fun k => !mramKey k)
  let p := s.pwr
  { s1.setReg .AO_STATUS [] 0 with
    outs := s1.outs, resp := none
    ntu := Ntu.reset
    boot := Boot.reset
    ash := { s1.ash with queue := [], coal := [], summaries := [], dropCount := 0, dropArmed := true, readyAt := s.now }
    ports := { s1.ports with smbPtr := 0, smbBurst := 1, smbPec := false, smbBad := false, smbCode := 0, smbReported := [], tapIr := 0 }
    pwr := { Pwr.reset with vinAo := p.vinAo, vinMain := p.vinMain, everMain := false, refclk := p.refclk, slpOn := p.slpOn, slpAt := p.slpAt,
                            slpBase := p.slpBase, timeRec := p.timeRec, powerLost := true, offAt := s.now, svcNs := s.svcTime, svcFrom := s.now, agedAt := p.agedAt }
    radio := { s1.radio with hka := Radio.reset.hka, coex := s1.radio.coex.map (fun c => { c with stuck := false, consent := List.replicate 4 false }) } }

/-- The AO die has powered up: Bring-up with VIN_MAIN present, else Dormant until VIN_MAIN is present for the first time since then (R33). -/
def State.aoUp (s : State) (code : Nat) : State :=
  let s1 := s.pwrUpd (fun p => { p with everMain := p.vinMain, commitTicks := s.slpTicks, svcFrom := s.now })
  if s.pwr.vinMain then s1.bringup code else { s1 with boot := { s1.boot with carried := code } }

/-- VIN_AO_RISE (R33, R461): VIN_AO rises through 2.9 V. Time without VIN_AO has not passed for the windows that MRAM holds (R103, R201). -/
def execVinAoRise (s : State) : Host.Outcome State Fault Refusal :=
  .next (if s.pwr.vinAo then s
    else
      let s1 := (s.pwrUpd (fun p => { p with vinAo := true })).radUpd (fun r => { r with dutyAt := r.dutyAt + (s.now - s.pwr.offAt) })
      State.aoUp (s1.bbUpd (fun b => { b with dfsTicks := 0 })) 0)

/-- VIN_AO_LOSS (R461, R544): VIN_AO falls below 2.8 V: the part is off; the sleep counter and the time record are gone (R366). -/
def execVinAoLoss (s : State) : Host.Outcome State Fault Refusal :=
  .next (if s.pwr.vinAo then
      s.aoDown.pwrUpd (fun p => { p with vinAo := false, slpOn := false, slpBase := 0, timeRec := none })
    else s)

/-! Wake sources (R480 to R486) -/

/-- A wake source is enabled (WAK_WRX.SRC_EN). -/
def State.wakeEn (s : State) (bit : Nat) : Bool := bitOf (s.get Fld.WAK_WRX.SRC_EN) bit

/-- The last-wake record of a wake (R485): the mode slept in is Dormant (0) or Banked (1). -/
def State.wakeRecord (s : State) (src detail frm : Nat) : State :=
  let t := s.ashTime.1
  let c := satAdd 0xFFFF (s.get Fld.AO_WAKE_REC0.COUNT) 1
  let s1 := s.setReg .AO_WAKE_REC0 [] (w32 (src * 2 ^ 28 + frm * 2 ^ 26 + detail * 2 ^ 16 + c))
  let s2 := (s1.setReg .AO_WAKE_REC1 [] (w32 (t / 1000000000 % 2 ^ 32).toNat)).setReg .AO_WAKE_REC2 [] (w32 (t % 1000000000).toNat)
  ((s2.setReg .AO_WAKE_REC3 [] 0).setReg .AO_WAKE_TICKS [] (w32 (min 0xFFFFFFFF (s.slpTicks - s.pwr.commitTicks)))).pwrUpd
    (fun p => { p with lastWake := some s.slpTicks, wakeOpen := true })

/-- A source that fires during a wake in progress (R486): marked in ALSO; in the same tick the lowest code is the one named. -/
def State.wakeAlso (s : State) (src detail : Nat) : State :=
  let old := s.get Fld.AO_WAKE_REC0.SOURCE
  let mark := fun (t : State) (n : Nat) => t.set Fld.AO_WAKE_REC3.ALSO [] (maskSet (t.get Fld.AO_WAKE_REC3.ALSO) (n - 1))
  if src = old then s
  else if s.pwr.slpOn ∧ s.pwr.lastWake = some s.slpTicks ∧ src < old then
    mark (s.sets [] [(Fld.AO_WAKE_REC0.SOURCE, src), (Fld.AO_WAKE_REC0.DETAIL, detail)]) old
  else mark s src

/-- The domains that were on before the sleep wake, 10 µs apart (R473). -/
def State.wakeDomains (s : State) : State :=
  let rs := [6, 5, 4, 0, 1, 2, 3].filter (fun r => s.pwr.sleptOn.contains r && !bitOf s.pwr.sleptMask r)
  s.pwrUpd (fun p => { p with waking := rs.zipIdx.map (fun e => ⟨e.1, 0, s.now + 10000 * e.2, true⟩) })

/-- A wake is in progress: until Kiln starts, or until the part is back from Banked (R486). -/
def State.wakeBusy (s : State) : Bool := s.pwr.wakeOpen && (s.mode == 1 || s.mode == 2)

/-- An enabled wake source fires (R33, R34, R479, R542). -/
def State.wakeFire (s : State) (src detail : Nat) : State :=
  if s.wakeBusy then s.wakeAlso src detail
  else match s.mode with
    | 0 =>
      if s.pwr.thermalAt.isSome then s.pwrUpd (fun p => { p with heldWake := if p.heldWake.any (fun h => h.1 == src) then p.heldWake else p.heldWake ++ [(src, detail)] })
      else (s.wakeRecord src detail 0).bringup s.boot.carried
    | 2 => (s.wakeRecord src detail 1).wakeDomains
    | 5 => s
    | 1 => s
    | _ => s.sleepPreempt 0x14

/-- SMBUS_ADDRESS_MATCH (R482): an address byte `addr`, of a write or a read, after a START: in Dormant every match is a wake, in Banked that of a write
transfer. -/
def execSmbusAddressMatch (addr : Nat) (write : Bool) (s : State) : Host.Outcome State Fault Refusal :=
  .next (if s.pwr.vinAo ∧ s.wakeEn 0 ∧ addr = s.get Fld.WAK_EN.SMB_ADDR ∧ (s.mode = 0 ∨ (s.mode = 2 ∧ write)) then s.wakeFire 1 addr else s)

/-- WAKE_UP_FRAME (R483): the receiver has heard a whole WUR Wake-up frame whose FCS verifies, with an ID. -/
def execWakeUpFrame (id : Nat) (s : State) : Host.Outcome State Fault Refusal :=
  .next (match (List.range 4).find? (fun n => s.flag Fld.WAK_WRX_ID.EN [n] && s.get Fld.WAK_WRX_ID.ID [n] == id) with
    | some n => if s.pwr.vinAo ∧ s.wakeEn 1 ∧ (s.mode = 0 ∨ s.mode = 2) then s.wakeFire 2 n else s
    | none => s)

/-- GPIO_WAKE (R484): GPIO pin `n` has held its active level for GPIO_FILT. -/
def execGpioWake (n : Nat) (s : State) : Host.Outcome State Fault Refusal :=
  .next (if s.pwr.vinAo ∧ n < 4 ∧ s.wakeEn 2 ∧ bitOf (s.get Fld.WAK_GPIO.PINS) n then s.wakeFire 3 n else s)

/-- TIMER_WAKE (R484): WAK_TIMER ticks have passed since the commit. -/
def execTimerWake (s : State) : Host.Outcome State Fault Refusal :=
  .next (let n := (s.reg .WAK_TIMER).toNat
    if s.pwr.vinAo ∧ s.wakeEn 3 ∧ n ≠ 0 ∧ s.pwr.slpOn ∧ s.pwr.commitTicks + n ≤ s.slpTicks ∧ (s.mode = 0 ∨ s.mode = 2) then s.wakeFire 4 0 else s)

/-! VIN_MAIN and the thermal trip (R461, R462, R542) -/

/-- The rails fed from VIN_MAIN go off with a POWER record (R462): the time record is taken, the log drained; the part enters Dormant, where housekeeping is off (R158), unless it
is in Lockdown. -/
def State.mainOff (s : State) (cause : Nat) : State :=
  let s1 := if s.pwr.powered.contains 4 then s.dfsSave else s
  let s2 := ((((s1.txsEnd (fun _ => true) 5).ntuStop).ashAdd 8 0xE0 [b8 cause])).dieOff
  let s3 := if s.mode = 5 then s2 else s2.hkaOff.setMode 0
  let s4 := s3.pwrUpd (fun p => { p with commitTicks := s.slpTicks, wakeOpen := false, ntuRead := false })
  State.ashDrain 256 s4.ashFlushAll

/-- VIN_MAIN_LOSS (R33, R462): below 7.4 V, or above 17.0 V (`over`), for 1 µs. In Dormant nothing runs from it. -/
def execVinMainLoss (high : Bool) (s : State) : Host.Outcome State Fault Refusal :=
  .next (if ¬ s.pwr.vinMain then s
    else
      let s1 := s.pwrUpd (fun p => { p with vinMain := false })
      if ¬ s.pwr.vinAo ∨ s.mode = 0 then s1
      else State.mainOff (s1.sleepPreempt 0x11 |>.pwrUpd (fun p => { p with lockLost := p.lockLost || s.mode == 5 })) (b2n high))

/-- VIN_MAIN_PRESENT (R33, R461, R484, R548): VIN_MAIN has stayed in range for VIN_STABLE. It ends a Lockdown only where VIN_MAIN was lost during it. -/
def execVinMainPresent (s : State) : Host.Outcome State Fault Refusal :=
  .next (if s.pwr.vinMain then s
    else
      let first := !s.pwr.everMain
      let s1 := s.pwrUpd (fun p => { p with vinMain := true, everMain := true })
      if ¬ s.pwr.vinAo then s1
      else match s.mode with
        | 0 => if first then s1.bringup s.boot.carried else if s1.wakeEn 4 then s1.wakeFire 5 0 else s1
        | 1 =>
          let s2 := { s1 with boot := { s1.boot with phase := .wakeCt }, pwr := { s1.pwr with waking := [⟨6, 0, s.now, false⟩] } }
          if s.pwr.wakeOpen then s2.wakeAlso 5 0 else s2
        | 5 => if s.pwr.lockLost then s1.bringup 0 else s1
        | _ => s1)

/-- THERMAL_TRIP (R34, R542): a die's comparator trips: 0 to 3 an RF die, 4 the digital die, 5 the AO die, which takes VDD_AO with it. A trip that coincides with the
entry to Lockdown ranks above it. -/
def execThermalTrip (die : Nat) (s : State) : Host.Outcome State Fault Refusal :=
  .next (if ¬ s.pwr.vinAo then s
    else if die = 5 then
      let s1 := if s.mode = 0 then s else (s.sleepPreempt 0x11).mainOff 3
      s1.aoDown.aoUp 0
    else if die < 5 ∧ s.mode ≠ 0 ∧ s.pwr.powered.any (fun r => r == (if die = 4 then 6 else die)) then
      ((s.sleepPreempt 0x11).mainOff 3).pwrUpd (fun p => { p with thermalAt := some s.now })
    else if die < 5 ∧ s.mode = 5 ∧ s.justNow then
      ((s.mainOff 3).setMode 0).pwrUpd (fun p => { p with thermalAt := some s.now, commitTicks := s.slpTicks })
    else s)

/-- THERMAL_WAKE_RELEASE (R542): 60 s after a trip, with the AO die sensor at `temp` in 1/16 °C: below 95 °C held wakes act. -/
def execThermalWakeRelease (temp : Int) (s : State) : Host.Outcome State Fault Refusal :=
  .next (match s.pwr.thermalAt with
    | none => s
    | some t =>
      if t + 60000000000 ≤ s.now ∧ temp < 95 * 16 then
        (sortBy (fun a b => decide (a.1 < b.1)) s.pwr.heldWake).foldl (fun u h => u.wakeFire h.1 h.2)
          (s.pwrUpd (fun p => { p with thermalAt := none, heldWake := [] }))
      else s)

/-! The sleep oscillator (R549) -/

/-- SLEEP_OSC_FIRST_TICK (R549): the oscillator makes its first tick, or its first after a stop. -/
def execSleepOscFirstTick (s : State) : Host.Outcome State Fault Refusal :=
  .next (if s.pwr.vinAo ∧ ¬ s.pwr.slpOn then
      (s.pwrUpd (fun p => { p with slpOn := true, slpAt := s.now, slpBase := p.slpBase + 1 })).ntuUpd (fun n => { n with slpMark := none })
    else s)

/-- SLEEP_OSCILLATOR_STOP (R549): the oscillator stops; its ticks stay counted. -/
def execSleepOscillatorStop (s : State) : Host.Outcome State Fault Refusal :=
  .next (if s.pwr.slpOn then
      (s.pwrUpd (fun p => { p with slpOn := false, slpBase := s.slpTicks })).ntuUpd (fun n => { n with slpMark := none })
    else s)

/-! Rail faults (R464) -/

/-- TJ of a RAIL record: the highest valid temperature of the rail's die in 1/16 °C, free when none is valid (notes/assumptions/62.md). -/
def State.dieTemp (s : State) (rail : Nat) : Nat × State :=
  let chans := if rail < 8 then (List.range 8).map (fun i => ((hkaQuad (rail % 4)).1, (hkaQuad (rail % 4)).2 + i))
    else if rail = 18 then [(0, 28), (0, 29), (1, 28), (1, 29)]
    else (List.range 24).map (fun i => (i / 12, 16 + i % 12))
  let l := chans.filter (fun e => s.flag Fld.HKA_VAL.VALID [e.1, e.2] && !bitOf (s.get Fld.HKA_CHK_STAT.SUSPECT) e.1)
  let m := (l.map (fun e => s.hkaCode256 e.1 e.2)).foldl max 0
  if l.isEmpty then (Config.freeNat s.free, { s with free := s.free + 1 })
  else (unsigned 16 ((m / 256 : Nat) - 800), s)

/-- The RAIL record and event of a fault: kind 0 under, 1 over, 2 overcurrent, at `mv`. -/
def State.railRecord (s : State) (rail kind mv setMv : Nat) : State :=
  let t := s.dieTemp rail
  ((t.2.set Fld.AO_RAIL_STAT.FAULT [rail] 1).ashAdd 7 0xE1 ([b8 rail, b8 kind] ++ leBytes 2 mv ++ leBytes 2 setMv ++ leBytes 2 t.1)).raise (ev 7 7)

/-- RAIL_FAULT (R464): a ready rail has been outside its window for 10 µs, or in overcurrent, at `mv` millivolts. -/
def execRailFault (rail kind mv : Nat) (s : State) : Host.Outcome State Fault Refusal :=
  .next (let set := s.get Fld.AO_RAIL_STAT.MV [rail]
    if ¬ s.pwr.vinAo then s
    else if rail = 18 then
      let s1 := (s.txsEnd (fun _ => true) 5).aoDown
      ((s1.railRecord 18 kind mv 800).ashBringup 0x42).aoUp 0x42
    else if rail < 18 ∧ s.flag Fld.AO_RAIL_STAT.ON [rail] ∧ s.flag Fld.AO_RAIL_STAT.READY [rail] then
      let s1 := (s.railOff rail).railRecord rail kind mv set
      if rail < 10 then s1.fence (railRegion rail) 0 0 5 true else s1.dieRestart 0x40
    else s)

/-! Voltage and frequency (R469, R470) -/

/-- AO_VF_STAT commits a result in a state. -/
def State.vfStat (s : State) (st res : Nat) : State := s.commit .AO_VF_STAT [] (st * 2 ^ 28 + res * 2 ^ 24)

/-- A change waits: STATE, with VALID clear. -/
def State.vfWait (s : State) (st : Nat) (c : VfChange) : State :=
  (s.sets [] [(Fld.AO_VF_STAT.VALID, 0), (Fld.AO_VF_STAT.STATE, st)]).pwrUpd (fun p => { p with vf := some c })

/-- The change is deferred now (R470): a calibration window of its quadrant is booked or running; VDD_CT or VDD_MEM while a port is in PANIC. -/
def State.vfDefers (s : State) (c : VfChange) : Bool :=
  (decide (c.region < 4) && (match (s.cal c.region).run with
    | some r => r.booked.isSome
    | none => false))
    || ((c.rail == 10 || c.rail == 12) && s.mems.dmc.any (fun d => !d.panic.isEmpty))

/-- MHZ that islands on a rail run at, with the fixed island of a quadrant (R467). -/
def State.railMhz (s : State) (rail : Nat) : List Nat :=
  ((s.pwr.islands.filter (fun i => i.rail == rail)).map (·.mhz)) ++ (if rail < 4 then [planAdc (s.convPlan rail) / 1000] else [])

/-- A change ends with a result; a deferred or held one raises VF_DONE. -/
def State.vfEnd (s : State) (c : VfChange) (res : Nat) : State :=
  let s1 := (s.pwrUpd (fun p => { p with vf := none })).vfStat 0 res
  if c.late then s1.raise (ev 7 11) else s1

/-- An island change is judged against its rail's point and performed. -/
def State.islandDo (s : State) (c : VfChange) : State :=
  match s.vf c.rail with
  | none => s.vfEnd c 2
  | some e =>
    if vfMhz e (s.get Fld.AO_RAIL_STAT.POINT [c.rail]) < c.mhz then s.vfEnd c 1
    else State.vfEnd (s.pwrUpd (fun p => { p with islands := p.islands.map (fun i =>
      if i.region == c.region && i.block == c.block && i.cell == c.cell then { i with mhz := c.mhz } else i) })) c 0

/-- A rail goes to its point: lowered only below what its islands need; it ramps until RAIL_READY. -/
def State.railDo (s : State) (c : VfChange) : State :=
  match s.vf c.rail with
  | none => s.vfEnd c 2
  | some e =>
    let cur := s.get Fld.AO_RAIL_STAT.POINT [c.rail]
    if c.point = cur then s.vfEnd c 0
    else if c.point < cur ∧ (s.railMhz c.rail).any (fun m => decide (vfMhz e c.point < m)) then s.vfEnd c 1
    else (s.sets [c.rail] [(Fld.AO_RAIL_STAT.READY, 0), (Fld.AO_RAIL_STAT.POINT, c.point), (Fld.AO_RAIL_STAT.MV, vfMv e c.point)]).vfWait 1 c

/-- A change is performed. -/
def State.vfDo (s : State) (c : VfChange) : State := if c.isRail then s.railDo c else s.islandDo c

/-- A change is asked for: refused, deferred or performed. -/
def State.vfAsk (s : State) (c : VfChange) (inPlan : Bool) : State :=
  if ¬ inPlan then s.vfStat 0 2
  else if ¬ (s.pwr.powered.contains c.region ∧ ¬ s.fenced c.region ∧ s.push.reloading ≠ some c.region) then s.vfStat 0 4
  else if s.vfDefers c then s.vfWait 2 { c with late := true }
  else s.vfDo c

/-- OP SET_POINT. -/
def State.setPoint (s : State) (v : Word) : State :=
  let rail := wbits v 20 16
  let c : VfChange := ⟨true, rail, wbits v 2 0, railRegion rail, 0, 0, 0, false⟩
  if s.pwr.vf.isSome then s.vfStat (s.get Fld.AO_VF_STAT.STATE) 3
  else s.vfAsk c (decide (rail < 19) && (match s.vf rail with
    | some e => decide (wbits v 2 0 < vfCount e)
    | none => false))

/-- A write of AO_ISL_CTL: it is held while its rail ramps. -/
def State.islandAsk (s : State) (v : Word) : State :=
  let isl := s.pwr.islands.find? (fun i => i.region == wbits v 30 28 && i.block == wbits v 27 20 && i.cell == wbits v 19 16)
  let mhz := wbits v 11 0
  let rail := (isl.map (·.rail)).getD 19
  let c : VfChange := ⟨false, rail, 0, wbits v 30 28, wbits v 27 20, wbits v 19 16, mhz, false⟩
  let plan := isl.isSome && mhz % 25 == 0 && decide (25 ≤ mhz ∧ mhz ≤ 2000)
  match s.pwr.vf with
  | some r =>
    if plan ∧ r.isRail ∧ r.rail = rail ∧ r.mhz = 0 ∧ s.get Fld.AO_VF_STAT.STATE = 1 then
      s.vfWait 3 { r with block := c.block, cell := c.cell, mhz := mhz }
    else s.vfStat (s.get Fld.AO_VF_STAT.STATE) 3
  | none => s.vfAsk c plan

/-- Values that the registers of this file let through. -/
def okPower (r : Reg) (_ : List Nat) (v : Word) (_ : Req) (_ : State) : Bool :=
  match r with
  | .AO_VF_CTL => wbits v 31 28 == 1
  | .WAK_WRX => decide (1 ≤ wbits v 15 8 ∧ wbits v 15 8 ≤ 100)
  | _ => true

/-- Performed writes of the registers of this file. -/
def wrPower (r : Reg) (ix : List Nat) (v : Word) (rq : Req) (s : State) : State :=
  match r with
  | .AO_VF_CTL => s.setPoint v
  | .AO_ISL_CTL => s.islandAsk v
  | _ => storeWord r ix v rq s

/-- SET_POINT (R469): a write of AO_VF_CTL with OP SET_POINT. -/
def execSetPoint (rq : Req) (v : Word) (s : State) : Host.Outcome State Fault Refusal :=
  .next (writeReg rq (Reg.addr .AO_VF_CTL []) 4 (wset v 31 28 1) okPower wrPower s)

/-- ISLAND_CHANGE (R469): a write of AO_ISL_CTL. -/
def execIslandChange (rq : Req) (v : Word) (s : State) : Host.Outcome State Fault Refusal :=
  .next (writeReg rq (Reg.addr .AO_ISL_CTL []) 4 v okPower wrPower s)

/-- RAIL_READY (R469): the ramping rail has stayed within 1 % for 2 µs; a held island change is judged, or deferred
where a window is booked by now (R155, R470). -/
def execRailReady (s : State) : Host.Outcome State Fault Refusal :=
  .next (match s.pwr.vf with
    | none => s
    | some c =>
      if c.isRail ∧ s.get Fld.AO_VF_STAT.STATE ≠ 2 then
        let s1 := (s.set Fld.AO_RAIL_STAT.READY [c.rail] 1).vfEnd c 0
        let h : VfChange := { c with isRail := false, late := true }
        if c.mhz = 0 then s1 else if s1.vfDefers h then s1.vfWait 2 h else s1.islandDo h
      else s)

/-- DEFERRED_CHANGE_RELEASE (R470): the cause of a deferred change has passed. -/
def execDeferredChangeRelease (s : State) : Host.Outcome State Fault Refusal :=
  .next (match s.pwr.vf with
    | none => s
    | some c => if s.get Fld.AO_VF_STAT.STATE = 2 ∧ ¬ s.vfDefers c then s.vfDo c else s)

/-! Aging (R502) -/

/-- AGING_MEASURE (R502): region `r` is measured at `slow`, at every bring-up and after every 24 h in Service or Fenced. -/
def execAgingMeasure (r slow : Nat) (s : State) : Host.Outcome State Fault Refusal :=
  .next (let fresh := !s.flag Fld.AO_AGE_STAT.VALID [r]
    if r < 8 ∧ s.pwr.vinAo ∧ (r = 7 ∨ s.running r) ∧ (s.mode = 1 ∨ s.serving)
        ∧ (fresh ∨ (s.pwr.agedAt[r]?).getD 0 + 86400000000000 ≤ s.svcTime) then
      let v := min 0xFFFF slow
      let s1 := (s.sets [r] [(Fld.AO_AGE_STAT.VALID, 1), (Fld.AO_AGE_STAT.SLOW, v)]).pwrUpd (fun p => { p with agedAt := p.agedAt.set r s.svcTime })
      let s2 := s1.ashAdd 0x0F 0xE0 ((List.range 8).map (fun i => leBytes 2 (s1.get Fld.AO_AGE_STAT.SLOW [i]))).flatten
      if 10 * s.get Fld.ASH_CFG.AGE_WARN < v ∧ ¬ s.flag Fld.AO_AGE_STAT.WARN [r] then (s2.set Fld.AO_AGE_STAT.WARN [r] 1).raise (ev 7 12) else s2
    else s)

end Sys2Proof.Machine
end

