-- ==== Sys2Proof/Machine/Sleep.lean ====
section
/-! DEFINITION. The sleep agreement (R475 to R479): phase one, refusals and retries, the commit into Banked and Dormant (R135, R158, R278, R287, R349, R405,
R414, R427). -/
namespace Sys2Proof.Machine

/-- Blocks of a region in ascending number. -/
def blocksOf (r : Nat) : List (Nat × Nat) := (List.range (blockCount r)).map (fun b => (r, b))

/-- Blocks that phase one asks, in order (R475); from Banked only those that Banked keeps on. A fenced region's clocks are stopped, so its blocks are not
asked (DEDUCED, notes/assumptions/63.md). -/
def State.sleepBlocks (s : State) : List (Nat × Nat) :=
  if s.mode = 2 then [(6, 0), (6, 1), (6, 2), (6, 3), (6, 9), (6, 11)]
  else (((List.range 6).filter (fun r => s.running r)).map blocksOf).flatten ++ blocksOf 6

/-- Tally has a bead, or a delay entry, of a rod of CLASS 1 or 2 (R404). -/
def State.tlyBusy (s : State) : Bool :=
  let far := fun (b : Bead) => s.rodClass b.rod == 1 || s.rodClass b.rod == 2
  s.tly.beads.any (fun b => b.done.isNone && far b) || s.tly.delays.any (fun d => far d.bead)

/-- Why a block refuses (R477): its reason, 0 when it agrees. -/
def State.blockReason (s : State) (r b target : Nat) : Nat :=
  if r = 6 ∧ b = 0 then (if s.radio.request.isSome ∨ s.inRequest then 2 else 0)
  else if r < 4 ∧ b = 9 then (match (s.cal r).run with
    | some x => if x.booked.isSome then 3 else 0
    | none => 0)
  else if r = 4 ∧ b = 7 then s.get Fld.FHU_CFG.EN * 4
  else if r = 4 ∧ b = 6 then (if s.txa.sched.isEmpty then 0 else 6)
  else if r = 5 ∧ b = 1 then (if s.radio.afcRun.isSome then 5 else 0)
  else if r = 5 ∧ b = 3 then (if s.pk.draining.isSome then 7 else 0)
  else if r = 5 ∧ b = 4 then b2n s.gatePending * 8
  else if r = 6 ∧ b = 11 then
    (if target = 2 ∧ ¬ s.flag Fld.NTU_STATUS.SLP_CAL then 9 else if s.armed then 10 else 0)
  else if r = 6 ∧ b = 2 then b2n s.tlyBusy * 11
  else if r = 6 ∧ b = 9 then b2n s.klnBusy * 12
  else if r = 5 ∧ b = 6 then b2n s.cipBusy * 13
  else 0

/-- The packet engine still holds packets (R323): it answers when they are done. -/
def State.blockWaits (s : State) (r b : Nat) : Bool := (r == 5 && b == 3 && s.pk.draining.isNone && s.pk.pkts.any (fun k => k.st != 0)) || (r == 6 && b == 10 && s.ports.spi.isSome)

/-- Why AO.00 refuses: VF_BUSY, PUSH_BUSY. -/
def State.aoReason (s : State) : Nat := if s.pwr.vf.isSome then 14 else if s.push.op ≠ 0 ∨ s.push.reloading.isSome then 15 else 0

/-- Phase one begins, for a request or its retry: VALID clears (R476). -/
def State.phaseOne (s : State) (target : Nat) : State :=
  (s.sets [] [(Fld.AO_SLEEP_STAT.VALID, 0), (Fld.AO_SLEEP_STAT.STATE, 1), (Fld.AO_SLEEP_STAT.TARGET, target)]).pwrUpd
    (fun p => { p with sleep := some ⟨target, s.now, s.sleepBlocks, [], none⟩ })

/-- OP BANKED (1) or DORMANT (2) of AO_SLEEP_CTL. -/
def State.sleepAsk (s : State) (target : Nat) : State :=
  if s.serving ∨ (target = 2 ∧ s.mode = 2) then (s.set Fld.AO_SLEEP_REC.ABORTS [] 0).phaseOne target
  else s.commit .AO_SLEEP_STAT [] (5 * 2 ^ 24 + target * 2 ^ 20)

/-- A block refuses with a reason (R476): un-parked, recorded, retried after SLEEP_HOLDOFF; the eighth abort in succession stops the request. -/
def State.sleepAbort (s : State) (q : SleepReq) (reason region block : Nat) : State :=
  let n := s.get Fld.AO_SLEEP_REC.ABORTS + 1
  let s1 := (s.sets [] [(Fld.AO_SLEEP_REC.REASON, reason), (Fld.AO_SLEEP_REC.REGION, region), (Fld.AO_SLEEP_REC.BLOCK, block), (Fld.AO_SLEEP_REC.ABORTS, n)]).raise
    (ev 7 4)
  if n < 8 then
    let hold := max 1 (s.get Fld.AO_SLEEP_CFG.SLEEP_HOLDOFF) * 1000000
    (s1.pwrUpd (fun p => { p with sleep := some { q with toAsk := [], parked := [], retryAt := some (s.now + hold) } })).commit .AO_SLEEP_STAT []
      (3 * 2 ^ 28 + 2 ^ 24 + q.target * 2 ^ 20)
  else
    let s2 := (s1.pwrUpd (fun p => { p with sleep := none })).commit .AO_SLEEP_STAT [] (4 * 2 ^ 28 + 2 * 2 ^ 24 + q.target * 2 ^ 20)
    (s2.raise (ev 7 5)).ashAdd 0x0A 0xE0 (leBytes 4 (s2.reg .AO_SLEEP_REC).toNat)

/-! The commit (R478) -/

/-- A quadrant's sets are written to the save area (R135, R158). -/
def State.quadSave (s : State) (q : Nat) : State :=
  if ¬ s.running q then s
  else s.quadUpd q (fun d => { d with savedDpd := d.dpd, savedCal := d.cal.sets, savedValid := (List.range 16).map (fun p => s.get Fld.DPD_STAT.SET_VALID [q, p]) })

/-- PK and BB empty their queues (R241, R288, R322, R349): software's frames and downlinks complete FLUSHED. -/
def State.sleepFlush (s : State) : State :=
  let s1 := if s.running 5 then
      let t1 := ((s.framesEnd (fun _ => true) 9).tmFlush).flowFlush
      let t2 := t1.wac.held.foldl (fun u h => u.bufFree h.up.buf) t1
      (List.range 9).foldl (fun u r => u.swFlush r) t2
    else s
  if s.running 4 then s1.txaFlush (fun _ => true) 12 else s1

/-- A region is switched off into Banked: what R414 and the save area keep stays, the PATHS that the controller's groups were made for with its tables (R240), and so do the
completions that the flush made (DEDUCED, notes/assumptions/63.md). -/
def State.regionBank (s : State) (r : Nat) : State :=
  let cpl := s.txa.cpl
  let tree := (s.cal r).treeLevel
  let red := s.reg .CAL_RED [r]
  let s1 := if r < 4 then (s.unitsLost r).calUpd r (fun c => { c with treeLevel := tree })
    else if r = 4 then (s.unitsLost 4).txaUpd (fun x => { x with cpl := cpl })
    else
      let w := (s.wacUpd (fun w => { w with frames := [], links := w.links.map (fun x => { WacLink.reset with paths := x.paths, downSince := some (x.downSince.getD s.netTime), downs := x.downs }), held := [], paused := [], portPaused := false, awake := [],
                                             seen := [], covered := [] }))
      (w.pkUpd (fun x => { x with pkts := [], passLog := [], paused := [], cache := [] })).klnUpd (fun k => { k with jobs := [] })
  let s2 := ((s1.resetRegs (fun k => keyRegion k == r && !(s.fenced r && mirrored (keyAddr k)))).railsOff r).memZero (0x15000000 + r * 0x20000) 0x20000
  let s3 := if r < 4 then s2.setReg .CAL_RED [r] red else s2
  { s3 with held := s3.held.filter (fun h => aRegion h.addr != r), timeouts := s3.timeouts.filter (fun t => t.1 != r) }

/-- Shared banks without their RET bit lose their contents (R414). -/
def State.banksLost (s : State) : State :=
  let ret := leAt (s.body 6 0x30) 68 8
  (List.range 64).foldl (fun t b => if bitOf ret b then t else t.memZero (0x10000000 + b * 0x40000) 0x40000) s

/-- A DRAM channel in self-refresh: its queue is done and its banks are closed (R427). -/
def Dmc.asleep (d : Dmc) : Dmc := { d with queue := [], openRows := [], inOrder := [], acts := [], throttles := [], panic := [], refreshOwed := 0 }

/-- The request has succeeded. -/
def State.slept (s : State) (target : Nat) : State :=
  ((s.pwrUpd (fun p => { p with sleep := none, wakeOpen := false })).set Fld.AO_SLEEP_REC.ABORTS [] 0).commit .AO_SLEEP_STAT [] (target * 2 ^ 20)

/-- Into Banked. -/
def State.toBanked (s : State) : State :=
  let rs := (List.range 6).filter (fun r => s.pwr.powered.contains r)
  let s1 := (if s.pwr.powered.contains 4 then s.dfsSave else s).txsEnd (fun _ => true) 5
  let s2 := (List.range 4).foldl (fun t q => t.quadSave q) s1.sleepFlush
  let s3 := rs.foldl (fun t r => t.regionBank r) s2
  let s4 := s3.resetRegs (fun k => keyRegion k == 6 && (keyBlock k == 4 || keyBlock k == 5 || keyBlock k == 6 || keyBlock k == 8))
  let s5 := s4.banksLost.set Fld.AO_RAIL_STAT.MV [12] 550
  let s6 := { s5 with
    mems := { s5.mems with dmc := s5.mems.dmc.map Dmc.asleep }
    ports := { s5.ports with up := List.replicate 10 false }
    pwr := { s5.pwr with powered := [6, 7], sleptFrom := s.mode, sleptMask := s.get Fld.AO_STATUS.FENCE_MASK, sleptOn := 6 :: rs, commitTicks := s.slpTicks } }
  (((s6.radUpd (fun r => { r with gaps := [] })).slept 1).setMode 2).hkaSkip

/-- Into Dormant: the time record, a POWER record, every rail but VDD_AO off. -/
def State.toDormant (s : State) : State := (s.slept 2).mainOff 2

/-- Every block has agreed: AO.00 refuses for itself, or the request commits. -/
def State.sleepCommit (s : State) (q : SleepReq) : State :=
  if s.aoReason ≠ 0 then s.sleepAbort q s.aoReason 7 0
  else if q.target = 1 then s.toBanked else s.toDormant

/-- PHASE1_ANSWER (R475): the block asked now agrees and parks, or refuses. -/
def execPhase1Answer (s : State) : Host.Outcome State Fault Refusal :=
  .next (match s.pwr.sleep with
    | none => s
    | some q =>
      match q.toAsk with
      | [] => s
      | (r, b) :: t =>
        let c := s.blockReason r b q.target
        if c ≠ 0 then s.sleepAbort q c r b
        else if s.blockWaits r b then s
        else
          let q1 := { q with toAsk := t, parked := (r, b) :: q.parked }
          if t.isEmpty then s.sleepCommit q1 else s.pwrUpd (fun p => { p with sleep := some q1 }))

/-- PHASE1_TIMEOUT (R475): the block asked now has not answered within PH1_TO. -/
def execPhase1Timeout (s : State) : Host.Outcome State Fault Refusal :=
  .next (match s.pwr.sleep with
    | none => s
    | some q =>
      match q.toAsk with
      | [] => s
      | (r, b) :: _ => if q.since + max 1 (s.get Fld.AO_SLEEP_CFG.PH1_TO) * 100000 ≤ s.now then s.sleepAbort q 1 r b else s)

/-- SLEEP_RETRY (R476): SLEEP_HOLDOFF has passed. -/
def execSleepRetry (s : State) : Host.Outcome State Fault Refusal :=
  .next (match s.pwr.sleep with
    | none => s
    | some q => match q.retryAt with
      | some t => if t ≤ s.now then s.phaseOne q.target else s
      | none => s)

/-- Values that AO_SLEEP_CTL lets through: 1 and 2 only without a request under way. -/
def okSleep (r : Reg) (_ : List Nat) (v : Word) (_ : Req) (s : State) : Bool :=
  match r with
  | .AO_SLEEP_CTL => wbits v 3 0 == 3 || ((wbits v 3 0 == 1 || wbits v 3 0 == 2) && s.pwr.sleep.isNone)
  | _ => true

/-- Performed writes of AO_SLEEP_CTL. -/
def wrSleep (r : Reg) (ix : List Nat) (v : Word) (rq : Req) (s : State) : State :=
  match r with
  | .AO_SLEEP_CTL => if wbits v 3 0 = 3 then s.sleepEnd 3 0x15 0 0 else s.sleepAsk (wbits v 3 0)
  | _ => storeWord r ix v rq s

/-- SLEEP_BANKED (R475): a write of AO_SLEEP_CTL with OP BANKED. -/
def execSleepBanked (rq : Req) (v : Word) (s : State) : Host.Outcome State Fault Refusal :=
  .next (writeReg rq (Reg.addr .AO_SLEEP_CTL []) 4 (wset v 3 0 1) okSleep wrSleep s)

/-- SLEEP_DORMANT (R475): OP DORMANT. -/
def execSleepDormant (rq : Req) (v : Word) (s : State) : Host.Outcome State Fault Refusal :=
  .next (writeReg rq (Reg.addr .AO_SLEEP_CTL []) 4 (wset v 3 0 2) okSleep wrSleep s)

/-- SLEEP_CANCEL (R476): OP CANCEL. -/
def execSleepCancel (rq : Req) (v : Word) (s : State) : Host.Outcome State Fault Refusal :=
  .next (writeReg rq (Reg.addr .AO_SLEEP_CTL []) 4 (wset v 3 0 3) okSleep wrSleep s)

end Sys2Proof.Machine
end

