-- ==== Sys2Proof/Machine/Image.lean ====
section
/-! DEFINITION. The checks of an image (R36 to R48, R55) over its bytes: header, directory, cords, records. The three passes of R55 are `cordSyntax`,
`cordPartition` and the resource list. -/
namespace Sys2Proof.Machine

/-! Header and directory (R37, R38) -/

/-- Entry `i` of the directory in a signed region: 0 the chip cord, 1 AO, 2 CT, 3 PK, 4 BB, 5 to 8 Q0 to Q3. -/
def dirEntry (head : Bytes) (i : Nat) : Bytes := slice head (64 + 64 * i) 64

/-- The CORD_ID that stands at a place of the directory. -/
def dirCord (i : Nat) : Nat := ([8, 7, 6, 5, 4, 0, 1, 2, 3][i]?).getD 8

/-- The place of a cord in the directory. -/
def dirPlace (cord : Nat) : Nat := ([5, 6, 7, 8, 4, 3, 2, 1, 0][cord]?).getD 0

/-- PRESENT, OFFSET, LENGTH and DIGEST of the entry at a place. -/
def dirPresent (head : Bytes) (i : Nat) : Bool := bitOf (leAt (dirEntry head i) 2 2) 0
@[inherit_doc dirPresent] def dirOff (head : Bytes) (i : Nat) : Nat := leAt (dirEntry head i) 4 4
@[inherit_doc dirPresent] def dirLen (head : Bytes) (i : Nat) : Nat := leAt (dirEntry head i) 8 4
@[inherit_doc dirPresent] def dirDigest (head : Bytes) (i : Nat) : Bytes := slice (dirEntry head i) 16 48

/-- IMAGE_LEN, SERIAL and SET_FLOOR (R37). -/
def headLen (head : Bytes) : Nat := leAt head 8 4
@[inherit_doc headLen] def headSerial (head : Bytes) : Nat := leAt head 12 4
@[inherit_doc headLen] def headSetFloor (head : Bytes) : Bool := bitOf (leAt head 19 1) 0

/-- The cords a directory marks present, in directory order, by place. -/
def dirPresents (head : Bytes) : List Nat := (List.range 9).filter (dirPresent head)

/-- A directory entry keeps R38; a cord lies after the signature block and within the image (R37 to R39; DEDUCED, notes/assumptions/64.md). -/
def dirEntryOk (head : Bytes) (i : Nat) : Bool :=
  let e := dirEntry head i
  leAt e 0 1 == dirCord i && leAt e 1 1 == 1 && decide (leAt e 2 2 < 2) && leAt e 12 4 == 0
    && (if dirPresent head i then
          dirOff head i % 64 == 0 && decide (4045 ≤ dirOff head i) && decide (dirLen head i ≤ 0x400000)
            && decide (dirOff head i + dirLen head i ≤ headLen head)
        else decide (3 ≤ i) && dirOff head i == 0 && dirLen head i == 0)

/-- Where the first cord starts, and where the last one ends. -/
def cordsFrom (head : Bytes) : Nat := (dirPresents head).foldl (fun m i => min m (dirOff head i)) (headLen head)
@[inherit_doc cordsFrom] def cordsTo (head : Bytes) : Nat := (dirPresents head).foldl (fun m i => max m (dirOff head i + dirLen head i)) 4045

/-! Records (R40, R41) -/

/-- The cords that carry a type of record (R41). -/
def recAllowed (cord type : Nat) : Bool :=
  match type with
  | 1 => decide (cord < 8)
  | 2 => decide (cord < 8)
  | 3 => decide (cord < 8)
  | 0x10 => cord == 8
  | 0x11 => cord == 8
  | 0x20 => decide (cord < 4)
  | 0x21 => decide (cord < 4)
  | 0x30 => cord == 6
  | 0x31 => cord == 6
  | 0x32 => cord == 6
  | 0x33 => cord == 6
  | 0x34 => cord == 6
  | 0x35 => cord == 6
  | 0x40 => cord == 7
  | 0xF0 => decide (cord < 8)
  | _ => false

/-- The types a cord must hold (R41). -/
def recMandatory (cord : Nat) : List Nat :=
  if cord = 8 then [0x10, 0x11]
  else [1, 2, 3] ++ (if cord < 4 then [0x20] else if cord = 6 then [0x30, 0x31, 0x32, 0x33, 0x34, 0x35] else if cord = 7 then [0x40] else [])

/-- The records of a cord's body: `none` where a record header is cut short, has FLAGS, or a LENGTH that is no multiple of 4 or passes the end. -/
def recsOf (cord : Nat) : Nat → Bytes → Option (List PlanRec)
  | _, [] => some []
  | 0, _ => none
  | n + 1, b =>
    let len := leAt b 4 4
    if b.length < 8 ∨ leAt b 2 2 ≠ 0 ∨ len % 4 ≠ 0 ∨ b.length < 8 + len then none
    else (recsOf cord n (b.drop (8 + len))).map (⟨cord, leAt b 0 2, (b.drop 8).take len⟩ :: ·)

/-- Types ascend, and only STACK and REG_INIT repeat (R40). -/
def recOrder : List Nat → Bool
  | a :: b :: t => (decide (a < b) || (a == b && (a == 0x20 || a == 0xF0))) && recOrder (b :: t)
  | _ => true

/-- The records of a cord that keeps R40 in its header, order and types. -/
def cordRecs (cord : Nat) (b : Bytes) : Option (List PlanRec) :=
  if b.length < 16 ∨ leAt b 0 1 ≠ cord ∨ leAt b 1 1 ≠ 0 ∨ leAt b 4 4 ≠ b.length - 16 ∨ ¬ allZero (slice b 8 8) then none
  else match recsOf cord (leAt b 2 2) (b.drop 16) with
    | some l =>
      if l.length = leAt b 2 2 ∧ recOrder (l.map (·.type)) = true ∧ (l.all (fun r => recAllowed cord r.type)) = true
          ∧ ((recMandatory cord).all (fun t => l.any (fun r => r.type == t))) = true then some l else none
    | none => none

/-- Body of a record of a type, and all of them. -/
def recBody (l : List PlanRec) (type : Nat) : Bytes := ((l.find? (fun r => r.type == type)).map (·.body)).getD []
@[inherit_doc recBody] def recBodies (l : List PlanRec) (type : Nat) : List Bytes := (l.filter (fun r => r.type == type)).map (·.body)

/-! Region records (R43, R467, R468) -/

/-- The rail that feeds a cell of a block (R468). -/
def feedRail (cord block : Nat) : Nat :=
  if cord < 4 then (if 1 ≤ block ∧ block ≤ 4 then 4 + cord else cord)
  else if cord = 4 then 8 else if cord = 5 then 9 else if cord = 7 then 18
  else if block = 1 then 11 else if block = 8 then 13 else 10

/-- A QOS_CLASS body (R43). -/
def qosOk (cord : Nat) (b : Bytes) : Bool :=
  b.length == 4 * blockCount cord && (List.range (blockCount cord)).all (fun i =>
    leAt b (4 * i) 1 == i && decide (leAt b (4 * i + 1) 1 ≤ 2) && leAt b (4 * i + 2) 2 == 0)

/-- The entries of an ISLAND_PLAN body (R467). -/
def islEntries (b : Bytes) : List Bytes := (List.range (leAt b 2 2)).map (fun i => slice b (8 + 8 * i) 8)

/-- An ISLAND_PLAN body (R71, R467). -/
def islandOk (cord : Nat) (b : Bytes) : Bool :=
  decide (leAt b 2 2 ≤ 1024) && b.length == 8 + 8 * leAt b 2 2 && (if cord < 4 then decide (leAt b 0 1 ≤ 3) else leAt b 0 1 == 0)
    && leAt b 1 1 == 0 && leAt b 4 4 == 0
    && (islEntries b).all (fun e =>
      decide (leAt e 0 1 < blockCount cord) && decide (leAt e 1 1 < 16) && leAt e 2 1 == feedRail cord (leAt e 0 1) && leAt e 3 1 == 0
        && leAt e 4 2 % 25 == 0 && decide (25 ≤ leAt e 4 2 ∧ leAt e 4 2 ≤ 2000) && leAt e 6 2 == 0)

/-- The points of a VF_TABLE entry rise strictly in MV and do not fall in MHZ, and unused points are zero (R468). -/
def vfPointsOk (e : Bytes) : Bool :=
  let n := vfCount e
  decide (1 ≤ n ∧ n ≤ 8 ∧ vfInit e < n) && leAt e 3 1 == 0 && allZero (e.drop (4 + 4 * n))
    && (List.range (n - 1)).all (fun i => decide (vfMv e i < vfMv e (i + 1) ∧ vfMhz e i ≤ vfMhz e (i + 1)))

/-- The voltages a rail may have (R463): a fixed rail has one point at its voltage; VDDQ has that of the DRAM record; others go in 5 mV from 0.600 V to
0.900 V, VDD_APC to 1.000 V. -/
def vfRailOk (e : Bytes) (rail vddq : Nat) : Bool :=
  match (if rail = 16 ∨ rail = 17 then some vddq else fixedMv rail) with
  | some mv => vfCount e == 1 && vfMv e 0 == mv
  | none => (List.range (vfCount e)).all (fun i =>
      vfMv e i % 5 == 0 && decide (600 ≤ vfMv e i ∧ vfMv e i ≤ (if rail = 11 then 1000 else 900)))

/-- A VF_TABLE body: one entry for each rail of the region (R468). -/
def vfOk (cord vddq : Nat) (b : Bytes) : Bool :=
  b.length == 36 * (railsOf cord).length && (railsOf cord).all (fun n =>
    match vfEntry b n with
    | some e => vfPointsOk e && vfRailOk e n vddq
    | none => false)

/-! Chip cord (R42, R112, R242, R267) -/

/-- The edges of a WLAN band in kHz, and the frequency from which its channel numbers count in 5 MHz (R42; the numbering of IEEE 802.11). -/
def bandEdges (b : Nat) : Nat × Nat := if b = 0 then (2400000, 2483500) else if b = 1 then (5150000, 5895000) else (5925000, 7125000)
@[inherit_doc bandEdges] def bandBase (b : Nat) : Nat := if b = 0 then 2407000 else if b = 1 then 5000000 else 5950000

/-- A channel number names a frequency of a band; channel 2 of the 20 MHz class at 5,935 MHz stands beside the 6 GHz numbers. -/
def channelIs (b n khz : Nat) : Bool := bandBase b + 5000 * n == khz || (b == 2 && n == 2 && khz == 5935000)

/-- Whether an occupied band in Hz lies within edges in Hz, around a centre. -/
def within (centre bw lo hi : Nat) : Bool := decide (2 * lo + bw ≤ 2 * centre ∧ 2 * centre + bw ≤ 2 * hi)

/-- A WLAN link entry (R42). -/
def linkOk (lp : Bytes) (l : Nat) : Bool :=
  let e := linkEntry lp l
  let half := 10000 * 2 ^ linkBw lp l
  if linkPresent lp l then
    leAt e 0 1 == 1 && decide (linkBand lp l ≤ 2 ∧ linkBw lp l ≤ 4) && (linkBand lp l != 0 || decide (linkBw lp l ≤ 1))
      && (linkBw lp l != 4 || linkBand lp l == 2) && decide (linkPrim lp l < 2 ^ linkBw lp l)
      && within (linkCentre lp l) (linkKhz lp l) (bandEdges (linkBand lp l)).1 (bandEdges (linkBand lp l)).2
      && channelIs (linkBand lp l) (linkChCentre lp l) (linkCentre lp l)
      && channelIs (linkBand lp l) (linkChPrim lp l) (linkCentre lp l + 10000 + 20000 * linkPrim lp l - half) && allZero (slice e 16 16)
  else allZero e

/-- The rows of carriers that R242 allows: SCS, bandwidth in MHz, resource blocks. -/
def fhRows : List (Nat × Nat × Nat) :=
  [(0, 10, 52), (0, 20, 106), (0, 40, 216), (0, 50, 270), (1, 10, 24), (1, 20, 51), (1, 40, 106), (1, 50, 133), (1, 80, 217), (1, 100, 273)]

/-- A fronthaul carrier entry (R242). -/
def fhEntryOk (lp : Bytes) (c : Nat) : Bool :=
  if fhBw lp c = 0 then allZero (slice lp (0x80 + 16 * c) 16)
  else fhRows.contains (fhScs lp c, fhBw lp c, fhNrb lp c) && allZero (slice lp (0x88 + 16 * c) 8)

/-- A Tixia channel entry (R267). -/
def lrcEntryOk (lp : Bytes) (c : Nat) : Bool :=
  if lrcBw lp c = 0 then allZero (slice lp (0x100 + 8 * c) 8)
  else decide (lrcBw lp c ≤ 3 ∧ 410000 ≤ lrcCentre lp c ∧ lrcCentre lp c ≤ 1000000 ∧ lrcFlags lp c < 4) && leAt lp (0x106 + 8 * c) 2 == 0

/-- The occupied bands of two Tixia channels overlap (R267). -/
def lrcOverlap (lp : Bytes) (a b : Nat) : Bool :=
  let d := 2000 * (lrcCentre lp a - lrcCentre lp b) + 2000 * (lrcCentre lp b - lrcCentre lp a)
  lrcBw lp a != 0 && lrcBw lp b != 0 && decide (d < lrcHz lp a + lrcHz lp b)

/-- A LINK_PLAN body (R42, R65, R242, R267). -/
def linkPlanOk (lp : Bytes) : Bool :=
  lp.length == 384 && (List.range 3).all (linkOk lp) && decide (leAt lp 0x60 1 ≤ 7) && leAt lp 0x61 3 == 0
    && decide (gridPhase lp < gridPeriod lp) && allZero (slice lp 0x68 24) && (List.range 8).all (fhEntryOk lp)
    && (List.range 16).all (lrcEntryOk lp) && (List.range 16).all (fun a => (List.range a).all (fun b => !lrcOverlap lp a b))

/-- A SAMPLE_ROUTE entry (R112). -/
def routeOk (lp sr : Bytes) (n : Nat) : Bool :=
  let role := routeRole sr n
  role == 0 || (decide (role ≤ 5 ∧ routeQmask sr n < 16 ∧ routeConsumer sr n = role - 1 ∧ 1 ≤ routeStreams sr n ∧ routeStreams sr n ≤ 16)
    && (if role = 4 then decide (routeCarrier sr n < 8) && fhBw lp (routeCarrier sr n) != 0 else routeCarrier sr n == 0)
    && routeFlags sr n == (if role = 5 then 0 else 1) && leAt sr (8 * n + 6) 2 == 0)

/-- The route slots of a role. -/
def routesOf (sr : Bytes) (role : Nat) : List Nat := (List.range 16).filter (fun n => routeRole sr n == role)

/-- A SAMPLE_ROUTE body with the routes that each role and carrier must have (R112). -/
def sampleRouteOk (lp sr : Bytes) : Bool :=
  sr.length == 128 && (List.range 16).all (routeOk lp sr)
    && (List.range 3).all (fun l => (routesOf sr (l + 1)).length == b2n (linkPresent lp l))
    && (routesOf sr 5).length == b2n ((List.range 16).any (fun c => lrcBw lp c != 0))
    && (List.range 8).all (fun c => ((routesOf sr 4).filter (fun n => routeCarrier sr n == c)).length == b2n (fhBw lp c != 0))

/-! Quadrant records (R45, R48, R87, R124) -/

/-- A STACK body (R45, R87, R124). -/
def stackOk (b : Bytes) : Bool :=
  let lo := fun k => stkLo b k == 0 || decide (410000 ≤ stkLo b k ∧ stkLo b k ≤ 7200000)
  decide (92 ≤ b.length ∧ stkIdx b ≤ 3) && leAt b 1 3 == 0 && lo 0 && lo 1 && decide (stkBeam b ≤ 7) && leAt b 13 3 == 0
    && (List.range 16).all (fun p => decide (stkRole b p ≤ 5 ∧ leAt b (16 + 4 * p) 1 < 32 ∧ leAt b (17 + 4 * p) 1 < 8) && leAt b (18 + 4 * p) 2 == 0)
    && (List.range 8).all (fun r => decide (stkPolicy b r ≤ 1) && ((r != 0 && r != 6 && r != 7) || stkPolicy b r == 0))
    && leAt b 90 2 == 0 && b.length == 92 + 4 * stkRffe b
    && (List.range (stkRffe b)).all (fun i =>
      decide (leAt b (92 + 4 * i) 1 < 64 ∧ leAt b (93 + 4 * i) 1 < 32) && leAt b (95 + 4 * i) 1 == 0)

/-- No number stands twice in a list. -/
def noTwice : List Nat → Bool
  | [] => true
  | a :: t => !t.contains a && noTwice t

/-- A FALLBACK body beside the STACK_IDX values of its cord (R48). -/
def fallbackOk (cord : Nat) (idx : List Nat) (b : Bytes) : Bool :=
  b.length == 8 && leAt b 6 2 == 0 && leAt b cord 1 == 0xFF
    && (List.range 6).all (fun r => leAt b r 1 == 0xFF || idx.contains (leAt b r 1))

/-! CT and AO records (R383, R393, R407, R417, R441, R480, R506, R507) -/

/-- An SRAM_PART body (R407). -/
def sramOk (b : Bytes) : Bool :=
  let sv := leAt b 64 1
  b.length == 80 && (List.range 64).all (fun i => decide (leAt b i 1 ≤ 2) && (decide (12 ≤ i) || leAt b i 1 == 0))
    && decide (12 ≤ sv ∧ sv ≤ 63) && leAt b sv 1 == 0 && leAt b 65 3 == 0 && leAt b 68 8 % 4096 == 4095 && bitOf (leAt b 68 8) sv
    && leAt b 76 4 == 0

/-- Lanes of a mode, the FEC codes it allows, the AN it demands (R507). -/
def laneModeRow (m : Nat) : Option (Nat × List Nat × Option Nat) :=
  match m with
  | 1 => some (1, [0], none)
  | 2 => some (1, [0], some 1)
  | 3 => some (1, [0], some 0)
  | 4 => some (1, [0], some 1)
  | 5 => some (1, [0], none)
  | 6 => some (1, [0, 1, 2], none)
  | 7 => some (1, [3], none)
  | 8 => some (2, [3], none)
  | 9 => some (4, [3], none)
  | _ => none

/-- Network-lane entry `n` of a LANES body (R506, R507). -/
def laneOk (b : Bytes) (n : Nat) : Bool :=
  let use := leAt b (4 * n) 1
  let fl := leAt b (4 * n + 3) 1
  if use = 0 then allZero (slice b (4 * n) 4)
  else match laneModeRow (leAt b (4 * n + 2) 1) with
    | none => false
    | some (_, fecs, an) =>
      (if use = 1 then decide (leAt b (4 * n + 1) 1 ≤ 7)
       else use == 2 && leAt b (4 * n + 1) 1 == 0 && decide (5 ≤ leAt b (4 * n + 2) 1 ∧ leAt b (4 * n + 2) 1 ≤ 7))
      && decide (fl < 16) && fecs.contains (fl / 4) && (match an with
        | some v => fl / 2 % 2 == v
        | none => true)

/-- The lanes of Ethernet port `p` in a LANES body: they agree, and there are as many as the mode takes, side by side from a multiple of that number
(R506, R508). -/
def portOk (b : Bytes) (p : Nat) : Bool :=
  let ls := (List.range 8).filter (fun n => leAt b (4 * n) 1 == 1 && leAt b (4 * n + 1) 1 == p)
  match ls with
  | [] => true
  | f :: _ =>
    let k := match laneModeRow (leAt b (4 * f + 2) 1) with
      | some (k, _, _) => k
      | none => 1
    ls.all (fun n => slice b (4 * n) 4 == slice b (4 * f) 4) && f % k == 0 && ls == (List.range k).map (f + ·)

/-- A LANES body (R47, R506, R507). -/
def lanesOk (b : Bytes) : Bool :=
  let used := (List.range 8).filter (fun p => (List.range 8).any (fun n => leAt b (4 * n) 1 == 1 && leAt b (4 * n + 1) 1 == p))
  b.length == 64 && (List.range 8).all (laneOk b) && used == List.range used.length && (List.range 8).all (portOk b)
    && [1, 2, 4].contains (leAt b 32 1) && decide (1 ≤ leAt b 33 1 ∧ leAt b 33 1 ≤ 5 ∧ 1 ≤ leAt b 34 1 ∧ leAt b 34 1 ≤ 8 ∧ leAt b 35 1 ≤ 1)
    && decide (20 ≤ leAt b 44 1 ∧ leAt b 44 1 ≤ 36) && allZero (slice b 45 19)

/-- Highest rate in MT/s and VDDQ in mV of a type of DRAM (R416, R417). -/
def dramType (t : Nat) : Nat × Nat := ([(3200, 1200), (6400, 1100), (4266, 600), (8533, 500)][t]?).getD (0, 0)

/-- A DRAM body (R417). -/
def dramOk (b : Bytes) : Bool :=
  let t := leAt b 0 1
  b.length == 64 && decide (t ≤ 3) && decide (1 ≤ leAt b 1 1 ∧ leAt b 1 1 ≤ 2) && decide (leAt b 2 2 ≤ (dramType t).1)
    && decide (1 ≤ leAt b 4 1 ∧ leAt b 4 1 ≤ 16 ∧ leAt b 5 1 ≤ 1) && leAt b 6 2 == (dramType t).2
    && (List.range 16).all (fun i => leAt b (16 + 2 * i) 2 != 0) && allZero (slice b 48 16)

/-- The largest TARGET of an EVENT_ROUTE kind (R393). -/
def evTarget (k : Nat) : Nat := ([255, 15, 7, 5, 7, 3][k]?).getD 0

/-- An EVENT_ROUTE body, with the regions that have a core (R393). -/
def routesOk (present : Nat → Bool) (b : Bytes) : Bool :=
  b.length == 2048 && (List.range 256).all (fun e =>
    let k := leAt b (8 * e) 1
    let v := leAt b (8 * e + 2) 2
    decide (k ≤ 5 ∧ leAt b (8 * e + 1) 1 ≤ evTarget k) && (k != 3 || present (leAt b (8 * e + 1) 1))
      && (if k = 4 then decide (v ≤ 63) else if k = 2 ∨ k = 3 then decide (v ≤ 7) else v == 0) && (k == 1 || leAt b (8 * e + 4) 4 == 0))

/-- A TALLY_RODS body (R383). -/
def rodsOk (present : Nat → Bool) (b : Bytes) : Bool :=
  b.length == 64 && (List.range 16).all (fun i =>
    let c := leAt b (4 * i + 2) 1
    let r := leAt b (4 * i + 3) 1
    decide (leAt b (4 * i) 2 ≤ 16384 ∧ c ≤ 2) && (if c = 1 then decide (r ≤ 5) && present r else r == 0))

/-- LOAD to LOAD + FW_LEN lies in scratchpad banks 12 to 63 without SAVE_BANK, or in DRAM (R441). -/
def loadOk (sram dram : Bytes) (a n : Nat) : Bool :=
  (decide (0x10000000 ≤ a ∧ a + n ≤ 0x11000000) && (List.range 64).all (fun k =>
      decide (0x10040000 + 0x40000 * k ≤ a ∨ a + n ≤ 0x10000000 + 0x40000 * k)
        || (decide (12 ≤ k) && leAt sram k 1 == 0 && leAt sram 64 1 != k)))
    || decide (0x800000000 ≤ a ∧ a + n ≤ 0x800000000 + 2 * leAt dram 4 1 * 0x40000000)

/-- A SECURITY body, with the end of the last cord and IMAGE_LEN (R441). -/
def securityOk (sram dram : Bytes) (last imageLen : Nat) (b : Bytes) : Bool :=
  let off := leAt b 4 4
  let n := leAt b 8 4
  let load := leAt b 16 8
  b.length == 208 && decide (leAt b 0 1 ≤ 2 ∧ leAt b 2 1 < 16 ∧ 1 ≤ leAt b 3 1) && off % 64 == 0 && decide (last ≤ off)
    && decide (4096 ≤ n ∧ n ≤ 8388608 ∧ off + n ≤ imageLen) && leAt b 12 4 == 0 && loadOk sram dram load n
    && decide (load ≤ leAt b 24 8 ∧ leAt b 24 8 + 4 ≤ load + n)
    && (List.range 16).all (fun g => decide (leAt b (80 + 8 * g) 2 < 2 ^ 14 ∧ leAt b (82 + 8 * g) 1 < 64 ∧ leAt b (83 + 8 * g) 1 < 4)
      && leAt b (84 + 8 * g) 4 == 0)

/-- A WAKE_SRC body (R480). -/
def wakeSrcOk (b : Bytes) : Bool :=
  b.length == 32 && decide (leAt b 0 1 < 64 ∧ leAt b 1 1 < 128 ∧ 1 ≤ leAt b 3 1 ∧ leAt b 4 1 ≤ 1)
    && decide (1 ≤ leAt b 5 1 ∧ leAt b 5 1 ≤ 100 ∧ 1 ≤ leAt b 6 2 ∧ leAt b 6 2 ≤ 10000)
    && (List.range 4).all (fun i => leAt b (8 + 2 * i) 2 / 4096 % 8 == 0) && allZero (slice b 16 16)

/-! The three passes (R55) -/

/-- What the checks of a cord know beside its bytes: the records of the cords before it, the regions present, the lifecycle, where the last cord ends,
IMAGE_LEN, whether every quadrant's cord is known once this one is. -/
structure CordCtx where
  recs : List PlanRec
  present : List Nat
  life : Nat
  last : Nat
  imageLen : Nat
  final : Bool
  deriving DecidableEq, Repr

/-- The records of one cord. -/
def CordCtx.of (x : CordCtx) (cord : Nat) : List PlanRec := x.recs.filter (fun r => r.cord == cord)

/-- LINK_PLAN and SAMPLE_ROUTE of the chip cord. -/
def CordCtx.lp (x : CordCtx) : Bytes := recBody (x.of 8) 0x10
@[inherit_doc CordCtx.lp] def CordCtx.sr (x : CordCtx) : Bytes := recBody (x.of 8) 0x11

/-- First pass: the syntax and field constraints of every record of a cord; `l` are its records. -/
def cordSyntax (x : CordCtx) (cord : Nat) (l : List PlanRec) : Bool :=
  let here := fun r => x.present.contains r
  let dram := recBody l 0x32
  let region := decide (8 ≤ cord) || (islandOk cord (recBody l 1) && vfOk cord (leAt dram 6 2) (recBody l 2) && qosOk cord (recBody l 3))
  let stks := recBodies l 0x20
  let inits := recBodies l 0xF0
  region && inits.all (fun b => b.length % 12 == 0) && decide ((inits.map (·.length)).sum ≤ 12 * 16384)
    && (if cord = 8 then linkPlanOk (recBody l 0x10) && sampleRouteOk (recBody l 0x10) (recBody l 0x11)
        else if cord < 4 then
          stks.all stackOk && noTwice (stks.map stkIdx) && stks.any (fun b => stkIdx b == 0)
            && (recBodies l 0x21).all (fallbackOk cord (stks.map stkIdx))
        else if cord = 6 then
          sramOk (recBody l 0x30) && lanesOk (recBody l 0x31) && dramOk dram && routesOk here (recBody l 0x33) && rodsOk here (recBody l 0x34)
            && securityOk (recBody l 0x30) dram x.last x.imageLen (recBody l 0x35)
        else if cord = 7 then wakeSrcOk (recBody l 0x40) else true)

/-- A carrier: centre and occupied bandwidth in Hz. -/
abbrev Carrier := Nat × Nat

/-- The carriers that a role serves: a link's, those of the FH routes, the used Tixia channels (R46; DEDUCED, notes/assumptions/64.md). -/
def roleCarriers (lp sr : Bytes) (role : Nat) : List Carrier :=
  if role = 0 then []
  else if role ≤ 3 then (if linkPresent lp (role - 1) then [(1000 * linkCentre lp (role - 1), 1000 * linkKhz lp (role - 1))] else [])
  else if role = 4 then (routesOf sr 4).map (fun n => (1000 * fhCentre lp (routeCarrier sr n), 1000000 * fhBw lp (routeCarrier sr n)))
  else ((List.range 16).filter (fun c => lrcBw lp c != 0)).map (fun c => (1000 * lrcCentre lp c, lrcHz lp c))

/-- An LO frequency in kHz as the synthesiser tunes it (R74). -/
def loTuned (khz : Nat) : Nat := 5 * loUnits khz

/-- R46 rules 1 to 6 and R113 on one path of a stack. -/
def pathFits (lp sr : Bytes) (q conv : Nat) (st : Bytes) (p : Nat) : Bool :=
  let role := stkRole st p
  let lo := loTuned (stkLo st (stkLoSel st p))
  let rs := routesOf sr role
  role == 0 || (lo != 0 && !rs.isEmpty && rs.all (fun n => bitOf (routeQmask sr n) q)
    && (if role ≤ 3 then lo == loTuned (linkLo lp (role - 1))
        else if role = 4 then (List.range 8).any (fun c => fhBw lp c != 0 && lo == loTuned (fhCentre lp c))
        else decide (410000 ≤ lo ∧ lo ≤ 1000000))
    && (roleCarriers lp sr role).all (fun c =>
      within c.1 c.2 (1000 * lo - 200000000) (1000 * lo + 200000000) && within c.1 c.2 (1000 * lo - 500 * planKhz conv) (1000 * lo + 500 * planKhz conv)))

/-- Paths of a stack that hold LRC. -/
def stackLrc (st : Bytes) : Nat := ((List.range 16).filter (fun p => stkRole st p == 5)).length

/-- Second pass (R46, R113): every stack, every change between two stacks of a quadrant, and, once every quadrant's cord is known, the LRC paths of every
combination that re-stacks and fallbacks can produce. -/
def cordPartition (x : CordCtx) (cord : Nat) (l : List PlanRec) : Bool :=
  let stks := recBodies l 0x20
  let lrc := ((List.range 4).map (fun q =>
    ((recBodies (if q = cord then l else x.of q) 0x20).map stackLrc).foldl max 0)).sum
  decide (4 ≤ cord) || (stks.all (fun st => (List.range 16).all (pathFits x.lp x.sr cord (islConv (recBody l 1)) st))
    && stks.all (fun a => stks.all (fun b => stkIdx a == stkIdx b || decide (gapOf [(a, b)] ≤ 200)))
    && (!x.final || decide (lrc ≤ 16)))

/-- The rate a role is billed at in 1,000 tone-vectors/s (R121): the sum over its carriers. -/
def roleBill (lp sr : Bytes) (role : Nat) : Nat :=
  if 1 ≤ role ∧ role ≤ 3 then
    (if linkPresent lp (role - 1) then ([18000, 37000, 73000, 146000, 293000][linkBw lp (role - 1)]?).getD 0 else 0)
  else if role = 4 then ((routesOf sr 4).map (fun n => let c := routeCarrier sr n; fhNrb lp c * 12 * (15 * 2 ^ fhScs lp c))).sum
  else 0

/-- The roles that hold paths in a stack. -/
def stackRoles (st : Bytes) : List Nat := (List.range 6).filter (fun r => r != 0 && (List.range 16).any (fun p => stkRole st p == r))

/-- The highest carrier bandwidth of a stack fits the quadrant's plan (R71). -/
def stackWidthOk (lp sr : Bytes) (conv : Nat) (st : Bytes) : Bool :=
  (stackRoles st).all (fun r => (roleCarriers lp sr r).all (fun c => decide (c.2 ≤ 1000 * planKhz conv)))

/-- The resource checks of a quadrant (R71, R116, R121). -/
def quadResource (lp sr : Bytes) (q conv : Nat) (stks : List Bytes) : Bool :=
  stks.all (stackWidthOk lp sr conv)
    && (List.range 16).all (fun n => routeRole sr n == 0 || !bitOf (routeQmask sr n) q || (routeRates lp sr n).all (fun hz => (resampleRatio conv hz).isSome))
    && stks.all (fun st => decide (((stackRoles st).map (roleBill lp sr)).sum ≤ 1000000))

/-- MHZ of a rail's INIT point. -/
def vfTop (vt : Bytes) (rail : Nat) : Nat := ((vfEntry vt rail).map (fun e => vfMhz e (vfInit e))).getD 0

/-- Third pass (R47, R71, R116, R121, R243, R417, R441, R467, R468): each check with the reason it fails with. -/
def cordResources (x : CordCtx) (cord : Nat) (l : List PlanRec) : List (Bool × Nat) :=
  let vt := recBody l 2
  let conv := islConv (recBody l 1)
  let dram := recBody l 0x32
  let lanes := recBody l 0x31
  let islands := (islEntries (recBody l 1)).all (fun e => decide (leAt e 4 2 ≤ vfTop vt (leAt e 2 1)))
    && (decide (4 ≤ cord) || decide (planAdc conv ≤ 1000 * vfTop vt cord))
  if cord = 8 then
    let lp := recBody l 0x10
    let sr := recBody l 0x11
    [(decide (((routesOf sr 4).map (fun n => fhBw lp (routeCarrier sr n) * routeStreams sr n)).sum ≤ 3200), 0xB)]
  else if cord < 4 then [(islands, 0xB), (quadResource x.lp x.sr cord conv (recBodies l 0x20), 0xB)]
  else if cord = 6 then
    [(decide (((List.range 16).map (fun i => leAt (recBody l 0x34) (4 * i) 2)).sum ≤ 16384), 0xB),
     (decide (((List.range 8).filter (fun n => leAt lanes (4 * n) 1 == 2)).length ≤ 2), 0xB),
     (leAt dram 12 4 == 0 || decide (leAt dram 8 4 + leAt dram 12 4 ≤ 2048 * leAt dram 4 1), 0xB),
     (x.life != 2 || bitOf (leAt dram 5 1) 0, 0x10), (x.life != 2 || leAt (recBody l 0x35) 0 1 != 2, 0x10), (islands, 0xB)]
  else [(islands, 0xB)]

/-- The reason for which a cord fails the three passes, 0 when it passes. -/
def cordReason (x : CordCtx) (cord : Nat) (b : Bytes) : Nat :=
  match cordRecs cord b with
  | none => 9
  | some l => if !cordSyntax x cord l then 9 else if !cordPartition x cord l then 0xA else firstFail (cordResources x cord l)

end Sys2Proof.Machine
end

