-- ==== Sys2Proof/Machine/Push.lean ====
section
/-! DEFINITION. The push registers (R58 to R64), the verification of a signed region (R37 to R39, R55 step 4, R61) and enrolment (R437). -/
namespace Sys2Proof.Machine

/-- The push stream updated. -/
def State.pushUpd (s : State) (f : Push → Push) : State := { s with push := f s.push }

/-- The bring-up updated. -/
def State.bootUpd (s : State) (f : Boot → Boot) : State := { s with boot := f s.boot }

/-! Where an image lies -/

/-- Flash offset of the image in use: a reload from a stored slot (R61), or the slot that Kiln tries (R51). -/
def State.imgSlot (s : State) : Option Nat :=
  if s.push.op = 6 then some 0 else if s.push.op = 7 then some 0x1000000
  else if s.push.op = 0 ∧ s.boot.src = 1 then some 0 else if s.push.op = 0 ∧ s.boot.src = 2 then some 0x1000000 else none

/-- `n` bytes of the image in use, from a slot or the stream. -/
def State.img (s : State) (o n : Nat) : Bytes :=
  match s.imgSlot with
  | some b => s.fbytes (b + o) n
  | none => slice s.push.data o n

/-- Header and directory of the image in use. -/
def State.imgHead (s : State) : Bytes := s.img 0 640

/-- The first present cord at a place of the directory or after it. -/
def nextPlace (head : Bytes) (k : Nat) : Option Nat := (List.range 9).find? (fun i => decide (k ≤ i) && dirPresent head i)

/-! The stream (R58, R59) -/

/-- The stream spells an enrolment record or a token (R437, R439). -/
def pushSmall (d : Bytes) : Bool := leAt d 0 4 == 0x4C524E45 || leAt d 0 4 == 0x4B4F544B

/-- How many bytes the stream takes before the part has to verify or apply what it holds (R58, R59). -/
def State.pushBound (s : State) : Nat :=
  let d := s.push.data
  let len := headLen d
  if 6 ≤ s.push.op then 0
  else if d.length < 12 then 12
  else if s.push.verified then
    (if s.push.op = 2 then (match nextPlace d s.boot.cord with
      | some i => dirOff d i + dirLen d i
      | none => len) else len)
  else if s.push.op = 2 ∧ pushSmall d = true then len
  else if d.length < 640 then min len 640
  else min len (max 640 (cordsFrom d))

/-- The part is verifying or applying: data waits (R59). -/
def State.pushFull (s : State) : Bool := s.push.op != 0 && decide (s.pushBound ≤ s.push.data.length)

/-- STATE and KIB of AO_PUSH_STAT as the stream stands. -/
def State.pushShow (s : State) : State :=
  if s.push.op = 0 then s
  else s.sets [] [(Fld.AO_PUSH_STAT.STATE, if !s.pushFull then 1 else if s.push.verified then 3 else 2), (Fld.AO_PUSH_STAT.KIB, min 0xFFFF (s.push.data.length / 1024))]

/-! Ends -/

/-- A reload that fails leaves its target fenced (R63); RGC_FENCE_CAUSE says so (DEDUCED, notes/assumptions/65.md). -/
def State.reloadFail (s : State) (code : Nat) : State :=
  match s.push.reloading with
  | none => s.pushEnd code
  | some r =>
    let s1 := ((s.pushUpd (fun p => { p with reloading := none })).set Fld.AO_STATUS.FENCE_MASK [] (maskSet (s.get Fld.AO_STATUS.FENCE_MASK) r)).setMode 4
    ((s1.set Fld.RGC_FENCE_CAUSE.SET [r] 1).pushEnd code).raise (ev 7 3)

/-- An operation fails with a reason: a pushed boot is an attempt of the bring-up (R52, R58, R63). -/
def State.pushFail (s : State) (code : Nat) : State :=
  if s.push.op = 2 then (s.bootUpd (fun b => { b with src := 3 })).bringFail code
  else if s.push.op = 4 ∨ s.push.op = 5 then s.pushEnd code
  else s.reloadFail code

/-- A stream is discarded with what was staged from it (R58): a pushed boot's regions return to off, a reload has failed. -/
def State.pushDiscard (s : State) : State :=
  if s.push.op = 0 then s
  else if s.push.op = 2 then
    (if s.boot.src = 3 then (s.unwind.bootUpd (fun b => { b with phase := .stopped, src := 0, cord := 0 })).pushEnd 0x34 else s.pushEnd 0x34)
  else if s.push.op = 3 then s.reloadFail 0x34
  else s.pushEnd 0x34

/-! Stores (R54) -/

/-- Flash offset of the slot that a store writes. -/
def State.storeAt (s : State) : Nat := if s.push.op = 5 then 0x1000000 else 0

/-- A store that has all its bytes: every cord's digest is checked, then everything from offset 64 is written, and the header last (R54, R58). -/
def State.storeDone (s : State) : State :=
  let d := s.push.data
  if (s.push.op = 4 ∨ s.push.op = 5) ∧ s.push.verified = true ∧ headLen d ≤ d.length then
    (if (dirPresents d).all (fun i => Config.sha384 (slice d (dirOff d i) (dirLen d i)) == dirDigest d i) then
      ((s.fput (s.storeAt + 64) (d.drop 64)).fput s.storeAt (d.take 64)).pushEnd 0
    else s.pushEnd 8)
  else s

/-! AO_PUSH_CTL and AO_PUSH_DATA -/

/-- A running target counts as fenced from now on (R62): its traffic stops, and R49 is applied to the other quadrants. -/
def State.reloadFence (s : State) (r : Nat) : State :=
  let was := s.running r
  let s1 := if was then ((s.vfLost r).regionStop r) else s
  let s2 := s1.pushUpd (fun p => { p with reloading := some r })
  if was then ((s2.pathsCheck).fallback).coexSettle else s2

/-- The reload's quadrant takes part in a re-stack that is pending or in its gap (R64). -/
def State.restacking (s : State) (q : Nat) : Bool :=
  (s.radio.request.any (fun r => r.qs.any (fun e => e.1 == q))) || s.radio.gaps.any (fun g => g.qs.any (fun e => e.1 == q))

/-- Kiln is trying a slot. -/
def State.slotBusy (s : State) : Bool :=
  s.push.op == 0 && (s.boot.src == 1 || s.boot.src == 2) && (s.boot.phase == .verify || s.boot.phase == .cords || s.boot.phase == .firmware)

/-- The push result of an operation that is refused at once, 0 when it begins (R60 to R62). -/
def State.pushRefusal (s : State) (op r : Nat) : Nat :=
  if (if op = 2 then s.mode != 1 else !s.serving) then 0x35
  else if op = 3 ∨ 6 ≤ op then
    (if 5 < r ∨ ¬ s.plan.present.contains r then 0x32
     else if s.push.op ≠ 0 ∨ s.restacking r = true ∨ s.radio.awaiting.contains r then 0x30 else 0)
  else if s.push.op ≠ 0 then 0x30
  else if op = 2 then (if s.slotBusy then 0x30 else 0)
  else if s.get Fld.AO_BOOT_INFO.SLOT_USED = op - 3 then 0x30 else 0

/-- An operation begins. A target that runs counts as fenced from here on, before its image has verified (R62; DESIGN CHOICE, notes/assumptions/68.md). -/
def State.pushBegin (s : State) (rq : Req) (op r : Nat) : State :=
  let s1 := s.pushUpd (fun p => { p with op := op, region := r, owner := if op < 6 then some rq else none, data := [], verified := false })
  let s2 := (s1.setReg .AO_PUSH_STAT [] 0)
  (if op = 3 ∨ 6 ≤ op then s2.reloadFence r else s2).pushShow

/-- A performed write of AO_PUSH_CTL: ABORT and every OPEN discard the stream first (R58); a reload from a slot does not. OPEN_BOOT and
ABORT while Kiln tries a stored slot are BUSY, an ABORT with nothing open is ABORTED (DESIGN CHOICE, notes/assumptions/68.md). -/
def State.pushCtl (s : State) (rq : Req) (v : Word) : State :=
  let op := wbits v 3 0
  let r := wbits v 10 8
  if op = 0 then s
  else if op = 1 then (if 6 ≤ s.push.op ∨ s.slotBusy then s.pushStat 0x30 else if s.push.op = 0 then s.pushStat 0x34 else s.pushDiscard)
  else
    let s1 := if op < 6 ∧ s.push.op < 6 then s.pushDiscard else s
    let c := s1.pushRefusal op r
    if c ≠ 0 then s1.pushStat c else s1.pushBegin rq op r

/-- Four bytes join the stream; without an open stream they end in SEQUENCE (R58). -/
def State.pushWord (s : State) (v : Word) : State :=
  if s.push.op = 0 then s.pushStat 0x33
  else ((s.pushUpd (fun p => { p with data := p.data ++ leBytes 4 v.toNat })).pushShow).storeDone

/-- What the push registers let through: data comes from the requester that wrote the OPEN (R528). -/
def okPush (r : Reg) (_ : List Nat) (v : Word) (rq : Req) (s : State) : Bool :=
  match r with
  | .AO_PUSH_CTL => decide (wbits v 3 0 ≤ 7)
  | .AO_PUSH_DATA => s.push.op == 0 || s.push.owner == none || s.push.owner == some rq
  | _ => true

/-- What a performed write of them does. -/
def wrPush (r : Reg) (ix : List Nat) (v : Word) (rq : Req) (s : State) : State :=
  match r with
  | .AO_PUSH_CTL => s.pushCtl rq v
  | .AO_PUSH_DATA => s.pushWord v
  | _ => storeWord r ix v rq s

/-- Held data goes on once the part takes it again; what another requester left behind is refused (R59, R528). -/
def State.pushDrain : Nat → State → State
  | 0, s => s
  | n + 1, s =>
    match s.held.find? (fun h => h.addr == 0x7000204) with
    | none => s
    | some h =>
      if s.push.op ≠ 0 ∧ s.push.owner ≠ none ∧ s.push.owner ≠ some h.req then
        State.pushDrain n (State.refuse { s with held := s.held.erase h } h.req 7 1 0 2 h.addr)
      else if s.pushFull then s
      else State.pushDrain n (s.unhold (· == h) (wrPush .AO_PUSH_DATA []))

/-- The part goes on after it has verified or applied. -/
def State.pushGo (s : State) : State := State.pushDrain s.held.length s.pushShow

/-- A write of AO_PUSH_CTL whose OP is the row's. -/
def State.pushRow (s : State) (rq : Req) (op : Nat) (v : Word) : State :=
  (writeReg rq 0x7000200 4 (wset v 3 0 op) okPush wrPush s).pushGo

/-- ABORT (R58). -/
def execPushAbort (rq : Req) (v : Word) (s : State) : Host.Outcome State Fault Refusal := .next (s.pushRow rq 1 v)
/-- OPEN_BOOT (R58, R60). -/
def execOpenBoot (rq : Req) (v : Word) (s : State) : Host.Outcome State Fault Refusal := .next (s.pushRow rq 2 v)
/-- OPEN_RELOAD (R60 to R62). -/
def execOpenReload (rq : Req) (v : Word) (s : State) : Host.Outcome State Fault Refusal := .next (s.pushRow rq 3 v)
/-- OPEN_STORE_A (R54, R60). -/
def execOpenStoreA (rq : Req) (v : Word) (s : State) : Host.Outcome State Fault Refusal := .next (s.pushRow rq 4 v)
/-- OPEN_STORE_B (R54, R60). -/
def execOpenStoreB (rq : Req) (v : Word) (s : State) : Host.Outcome State Fault Refusal := .next (s.pushRow rq 5 v)
/-- RELOAD_FROM_A (R60 to R62). -/
def execReloadFromA (rq : Req) (v : Word) (s : State) : Host.Outcome State Fault Refusal := .next (s.pushRow rq 6 v)
/-- RELOAD_FROM_B (R60 to R62). -/
def execReloadFromB (rq : Req) (v : Word) (s : State) : Host.Outcome State Fault Refusal := .next (s.pushRow rq 7 v)

/-- AO_PUSH_DATA (R58, R59): four bytes of the image, held while the part verifies or applies. -/
def execAoPushData (rq : Req) (v : Word) (s : State) : Host.Outcome State Fault Refusal :=
  .next (writeOrHold rq 0x7000204 v s.pushFull okPush wrPush s)

/-! Verification (R37 to R39, R55 step 4, R61) -/

/-- The reason for which a pair that the header names does not sign the region: SIG_EC or SIG_PQ (R39, R438). -/
def State.imgSigners (s : State) (head sig : Bytes) : Nat :=
  let ec := leAt head 0x20 8
  let pq := leAt head 0x28 8
  let pick := (s.owners.find? (fun k => k.named ec pq)).or (s.owners.find? (fun k => keyId k.ec == ec))
  match pick with
  | none => 6
  | some k =>
    if ¬ Config.ecdsaOk k.ec head (sig.take 96) then 6
    else if keyId k.pq ≠ pq ∨ ¬ Config.mldsaOk k.pq head (slice sig 96 3309) then 7
    else 0

/-- A directory entry says the same as the running image's (R61). -/
def sameEntry (a b : Bytes) (i : Nat) : Bool :=
  leAt (dirEntry a i) 2 2 == leAt (dirEntry b i) 2 2 && dirLen a i == dirLen b i && dirDigest a i == dirDigest b i

/-- Why the signed region of the image in use fails, 0 when it verifies: keys, header, directory, zero bytes, signatures; a reload adds R61's. -/
def State.imgReason (s : State) : Nat :=
  let head := s.imgHead
  let h := firstFail ((headChecks head (s.reg .AO_SERIAL_FLOOR).toNat).map (fun e => (e.1, e.2.2)))
  if ¬ (s.lifecycle = 1 ∨ s.lifecycle = 2) ∨ s.owners.isEmpty = true then 1
  else if h ≠ 0 then h
  else if ¬ (List.range 9).all (dirEntryOk head) ∨ ¬ allZero (s.img 4045 (cordsFrom head - 4045)) then 3
  else
    let g := s.imgSigners head (s.img 640 3405)
    if g ≠ 0 then g
    else if s.push.op = 3 ∨ 6 ≤ s.push.op then
      (if ¬ dirPresent head (dirPlace s.push.region) then 0x32
       else if ¬ ((List.range 9).filter (· ≠ dirPlace s.push.region)).all (sameEntry head s.plan.head) then 0x31 else 0)
    else 0

/-- The signed region has verified: cords follow; a store's slot is no candidate from now on (R54). -/
def State.imgVerified (s : State) : State :=
  let s1 := if s.push.op = 0 then s else s.pushUpd (fun p => { p with verified := true })
  if s.push.op = 0 then s1.bootUpd (fun b => { b with phase := .cords, cord := 0 })
  else if s.push.op = 2 then s1.bootUpd (fun b => { b with phase := .cords, cord := 0, src := 3 })
  else if s.push.op = 4 ∨ s.push.op = 5 then s1.fput s.storeAt (List.replicate 64 0xFF)
  else s1

/-- A signed region waits to be verified: a slot's, or a stream's that has its first bytes (an enrolment record or a token is no image). -/
def State.imgWaits (s : State) : Bool :=
  if s.push.op = 0 then s.mode == 1 && s.boot.phase == .verify && (s.boot.src == 1 || s.boot.src == 2)
  else !s.push.verified && s.pushFull && !(s.push.op == 2 && pushSmall s.push.data)

/-- IMAGE_VERIFY (R37 to R39, R55): Kiln checks header and directory and verifies both signatures. `readOk` says whether the flash could be read
(R523). -/
def execImageVerify (readOk : Bool) (s : State) : Host.Outcome State Fault Refusal :=
  .next (if s.imgWaits then
      let c := if s.imgSlot.isSome ∧ ¬ readOk then 0xF else s.imgReason
      (if c = 0 then s.imgVerified else if s.push.op = 0 then s.bringFail c else s.pushFail c).pushGo
    else s)

/-! Enrolment (R437) -/

/-- Push code of an enrolment record's checks. -/
def State.enrolCode (s : State) (b : Bytes) : Nat :=
  let k := pairAt b 0x40
  if s.lifecycle ≠ 0 then 0x10
  else if leAt b 4 2 ≠ 1 ∨ leAt b 6 2 ≠ 0 ∨ leAt b 8 4 ≠ 7632 ∨ leAt b 12 4 ≠ 0 ∨ ¬ allZero (slice b 0x18 40) ∨ ¬ allZero (slice b 0xA1 31)
    ∨ ¬ allZero (slice b 0x8C1 31) ∨ ¬ allZero (slice b 0x1DCD 3) then 3
  else if leAt b 0x10 8 ≠ Config.deviceId then 0x36
  else if ¬ Config.ecdsaOk k.ec (b.take 0x1080) (slice b 0x1080 96) then 6
  else if ¬ Config.mldsaOk k.pq (b.take 0x1080) (slice b 0x10E0 3309) then 7
  else 0

/-- Kiln selects a slot (R52, R55 step 3), or waits for a push: NOIMAGE (R57). -/
def State.slotSelect (s : State) : State :=
  let s1 := (s.slotShow 1 (s.slotReason 1)).slotShow 2 (s.slotReason 2)
  match s1.nextSlot with
  | some k => s1.trySlot k
  | none => State.bootUpd (s1.bringStop 2) (fun b => { b with phase := .noImage })

/-- ENROLMENT (R437): a pushed record is checked; it enrols the owner and authority pairs, and bring-up goes on at step 3. -/
def execEnrolment (s : State) : Host.Outcome State Fault Refusal :=
  .next (
    let b := s.push.data
    if s.mode = 1 ∧ s.push.op = 2 ∧ leAt b 0 4 = 0x4C524E45 ∧ 16 ≤ b.length ∧ (leAt b 8 4 ≠ 7632 ∨ 7632 ≤ b.length) then
      let c := s.enrolCode b
      if c ≠ 0 then (s.pushEnd c).pushGo
      else
        let s1 := (s.klnUpd (fun k => { k with owners := k.owners.set 0 (some (pairAt b 0x40)), authority := some (pairAt b 0x860) })).keysShow
        let s2 := ((s1.sets [] [(Fld.IDN_LIFECYCLE.STATE, 1), (Fld.AO_STATUS.BRINGUP_FAIL, 0), (Fld.AO_STATUS.BRINGUP_REASON, 0)]).alertForget 1).pushEnd 0
        s2.slotSelect.pushGo
    else s)

end Sys2Proof.Machine
end

