-- ==== Sys2Proof/Machine/PortOps.lean ====
section
/-! DEFINITION. The ports (R506 to R530): PCI Express functions with their windows and MSI-X, network lanes, the xSPI flash, JTAG and GPIO. -/
namespace Sys2Proof.Machine

/-- The ports updated. -/
def State.portUpd (s : State) (f : Ports → Ports) : State := { s with ports := f s.ports }

/-! PCI Express functions (R511 to R518) -/

/-- The host section of the boot configuration (R512): HL_WIDTH, HL_GEN, HL_FUNCS, HL_FLAGS, IDS, BAR2_LOG2 as in LANES; no BAR2. -/
def bootHost : Bytes := [4, 3, 1, 0, 0x4C, 0x1D, 0, 0x64, 0, 0, 0, 0, 0]

/-- The host section that a PERST# rise presents (R512). -/
def State.hostNext (s : State) : Bytes := if s.lifecycle = 0 then bootHost else s.ports.hostStored.getD bootHost

/-- The host section of the running image's LANES record. -/
def State.hostPlan (s : State) : Bytes := slice s.lanes 32 13

/-- Functions presented. -/
def State.hostFuncs (s : State) : Nat := leAt (s.ports.hostPresented.getD []) 2 1

/-- STALE_CFG: HL_FUNCS, IDS or BAR2_LOG2 of the CT cord differ from what is presented (R512). -/
def State.hostStale (s : State) : State :=
  match s.ports.hostPresented with
  | some h => s.set Fld.HL_STAT.STALE_CFG [] (b2n (s.boot.applied.contains 6 && (slice h 2 1 != slice s.hostPlan 2 1 || h.drop 4 != s.hostPlan.drop 4)))
  | none => s.set Fld.HL_STAT.STALE_CFG [] 0

/-- The link trains from PERST# rise, or from the start of Kiln when PERST# is high already (R512). -/
def State.hostPresent (s : State) : State :=
  State.hostStale ({ s with ports := { s.ports with hostPresented := some s.hostNext, retry := true } }.set Fld.HL_STAT.FUNCS [] (leAt s.hostNext 2 1))

/-- HL_LINK goes down. -/
def State.hostDown (s : State) : State :=
  let was := s.flag Fld.HL_STAT.LINK_UP
  let s1 := s.sets [] [(Fld.HL_STAT.LINK_UP, 0), (Fld.HL_STAT.REVERSED, 0), (Fld.HL_STAT.GEN, 0), (Fld.HL_STAT.WIDTH, 0)]
  if was then s1.raise (ev 6 22) else s1

/-- Function `f` resets (R518): its ring, MSI-X, and for function 0 PTM. -/
def State.fnReset (s : State) (f : Nat) : State :=
  let s1 := if s.running 5 then s.swFlush (f + 1) else s
  { s1 with
    evt := { s1.evt with msixEn := s1.evt.msixEn.set f false, fnMask := s1.evt.fnMask.set f false
                         msixTable := sdrop (fun k => k / 256 == f) s1.evt.msixTable }
    ntu := { s1.ntu with ptmEnabled := if f = 0 then false else s1.ntu.ptmEnabled } }

/-- PERST_RISE (R484, R512): the PCIE wake source, or training starts. -/
def execPerstRise (s : State) : Host.Outcome State Fault Refusal :=
  .next (if s.ports.perst then s
    else
      let s1 := s.portUpd (fun p => { p with perst := true, perstAt := s.now })
      if s.mode = 0 ∨ s.mode = 2 then s1.wakeFire 6 0
      else if s.boot.ctReady = true ∨ s.mode ≠ 1 then s1.hostPresent else s1)

/-- PERST_FALL (R518): every function resets. -/
def execPerstFall (s : State) : Host.Outcome State Fault Refusal :=
  .next (if s.ports.perst then
      let s1 := (List.range 8).foldl (fun t f => t.fnReset f) (s.portUpd (fun p => { p with perst := false, retry := false, hostPresented := none }))
      ((s1.set Fld.HL_STAT.FUNCS [] 0).hostDown).hostStale
    else s)

/-- FUNCTION_LEVEL_RESET (R518). -/
def execFunctionLevelReset (f : Nat) (s : State) : Host.Outcome State Fault Refusal :=
  .next (if f < s.hostFuncs then s.fnReset f else s)

/-- RETRY_STATUS_END (R512): 20 ms after PERST# rise. -/
def execRetryStatusEnd (s : State) : Host.Outcome State Fault Refusal :=
  .next (if s.ports.retry ∧ s.ports.perstAt + 20000000 ≤ s.now then s.portUpd (fun p => { p with retry := false }) else s)

/-- HL_LINK (R511, R530): the link has come up, at a generation and width, or gone down. -/
def execHlLink (up reversed : Bool) (gen width : Nat) (s : State) : Host.Outcome State Fault Refusal :=
  .next (if ¬ up then (if s.flag Fld.HL_STAT.LINK_UP then s.hostDown else s)
    else if s.ports.hostPresented.isSome ∧ 1 ≤ gen ∧ gen ≤ 5 ∧ (width = 1 ∨ width = 2 ∨ width = 4) then
      let s1 := s.sets [] [(Fld.HL_STAT.LINK_UP, 1), (Fld.HL_STAT.REVERSED, b2n reversed), (Fld.HL_STAT.GEN, gen), (Fld.HL_STAT.WIDTH, width)]
      if s.flag Fld.HL_STAT.LINK_UP then s1 else s1.raise (ev 6 22)
    else s)

/-- Vectors of function `f` that may send now and could not before: each with a source pending sends one message (R395, R517). -/
def State.msixOpened (s old : State) (f : Nat) : State :=
  ((List.range 64).filter (fun v => s.msixOpen f v && !old.msixOpen f v
    && (List.range 256).any (fun e => s.route e == { s.route e with kind := 4, target := f, vector := v } && s.pend e != 0 && !s.evtMasked e))).foldl
    (fun t v => t.msixSend f v) s

/-- CONFIGURATION_REQUEST (R371, R512, R517): Request Retry Status while it lasts, else the function answers; status 0 successful, 1 unsupported, 2 retry. -/
def execConfigurationRequest (f : Nat) (q : CfgReq) (s : State) : Host.Outcome State Fault Refusal :=
  .next (if s.ports.hostPresented.isNone then s
    else if s.ports.retry then s.emit .host [f, 2]
    else if s.hostFuncs ≤ f then s.emit .host [f, 1]
    else
      let s1 := s.emit .host [f, 0]
      match q with
      | .other _ => s1
      | .msix en mask => State.msixOpened { s1 with evt := { s1.evt with msixEn := s1.evt.msixEn.set f en, fnMask := s1.evt.fnMask.set f mask } } s f
      | .ptm en => if f = 0 ∧ bitOf (leAt (s.ports.hostPresented.getD []) 3 1) 0 = true then s1.ntuUpd (fun n => { n with ptmEnabled := en }) else s1)

/-! BAR4 (R513, R517) -/

/-- A PBA bit: the vector is masked and a source routed to it is pending. -/
def State.pba (s : State) (f v : Nat) : Bool :=
  !s.msixOpen f v && (List.range 256).any (fun e => (s.route e).kind == 4 && (s.route e).target == f && (s.route e).vector == v && s.pend e != 0)

/-- One word of BAR4 of function `f`. -/
def State.bar4Word (s : State) (f o : Nat) : Word :=
  if o < 0x400 then s.msixWord f (o / 16) (o / 4 % 4)
  else if o = 0x2000 then w32 (maskOf ((List.range 32).filter (s.pba f)))
  else if o = 0x2004 then w32 (maskOf ((List.range 32).filter (fun i => s.pba f (32 + i))))
  else 0

/-- A write of one word of BAR4: the table takes it, reserved bits of the vector control stay 0; the PBA ignores it. -/
def State.bar4Write (s : State) (f o : Nat) (v : Word) : State :=
  if o < 0x400 then
    let x := if o / 4 % 4 = 3 then w32 (wbits v 0 0) else if o / 4 % 4 = 0 then wset v 1 0 0 else v
    State.msixOpened { s with evt := { s.evt with msixTable := sset msixDefault s.evt.msixTable (256 * f + o / 4) x } } s f
  else s

/-! Host windows (R515) -/

/-- Where a BAR2 offset of function `f` leads. -/
def State.windowAt (s : State) (f o : Nat) : Option Nat :=
  (List.range 4).findSome? (fun w =>
    let b := 4096 * s.get Fld.HL_WIN_W1.BAR_OFF [f, w]
    if s.flag Fld.HL_WIN_W2.EN [f, w] ∧ b ≤ o ∧ o < b + 2 ^ s.get Fld.HL_WIN_W2.SIZE_LOG2 [f, w] then some (4096 * s.get Fld.HL_WIN_W0.SYS [f, w] + (o - b)) else none)

/-- Size of BAR2 in bytes: as presented, else as the CT cord has it; the boot configuration has none. -/
def State.bar2Size (s : State) : Nat :=
  let k := leAt (s.ports.hostPresented.getD s.hostPlan) 12 1
  if k = 0 then 0 else 2 ^ k

/-- A run of system addresses that a window may cover: shared SRAM without banks 4 to 11 and the save area, the packet buffer, DRAM. -/
def State.windowReach (s : State) (a n : Nat) : Bool :=
  let save := 0x10000000 + s.saveBank * 0x40000
  (decide (0x10000000 ≤ a ∧ a + n ≤ 0x11000000) && decide (a + n ≤ 0x10100000 ∨ 0x10300000 ≤ a) && decide (a + n ≤ save ∨ save + 0x30000 ≤ a))
    || decide (0x12000000 ≤ a ∧ a + n ≤ 0x14000000) || decide (0x800000000 ≤ a ∧ a + n ≤ 0x800000000 + s.dramBytes)

/-- An enabled window keeps R515; a window that is not enabled is not held to it yet (DEDUCED, notes/assumptions/66.md). -/
def State.windowOk (s : State) (f w : Nat) : Bool :=
  let k := s.get Fld.HL_WIN_W2.SIZE_LOG2 [f, w]
  let b := 4096 * s.get Fld.HL_WIN_W1.BAR_OFF [f, w]
  let a := 4096 * s.get Fld.HL_WIN_W0.SYS [f, w]
  !s.flag Fld.HL_WIN_W2.EN [f, w]
    || (decide (12 ≤ k ∧ k ≤ 35) && b % 2 ^ k == 0 && a % 2 ^ k == 0 && decide (b + 2 ^ k ≤ s.bar2Size) && s.windowReach a (2 ^ k)
      && (List.range 4).all (fun x =>
        let c := 4096 * s.get Fld.HL_WIN_W1.BAR_OFF [f, x]
        x == w || !s.flag Fld.HL_WIN_W2.EN [f, x] || decide (b + 2 ^ k ≤ c ∨ c + 2 ^ s.get Fld.HL_WIN_W2.SIZE_LOG2 [f, x] ≤ b)))

/-! Network lanes (R507 to R510) -/

/-- The network lanes run: the CT cord is applied, outside Dormant, Banked and Lockdown (R529). -/
def State.lanesOn (s : State) : Bool := s.boot.applied.contains 6 && (s.mode == 1 || s.serving)

/-- The lanes of port `p`: an Ethernet port's, or the one of fronthaul lane p - 8. -/
def State.lanesOfPort (s : State) (p : Nat) : List Nat := if p < 8 then s.portLanes p else ((s.fhLanes[p - 8]?).map (fun n => [n])).getD []

/-- What SDS_LANE_STAT and SDS_PORT_STAT show of the LANES record. -/
def State.lanesShow (s : State) : State :=
  let s1 := (List.range 8).foldl (fun t n => t.set Fld.SDS_LANE_STAT.MODE [n] (s.laneMode n)) s
  (List.range 8).foldl (fun t p => t.sets [p] [(Fld.SDS_PORT_STAT.LANES, maskOf (s.portLanes p)),
    (Fld.SDS_PORT_STAT.MODE, ((s.portLanes p).head?.map s.laneMode).getD 0)]) s1

/-- POLARITY_RETRY (R509): a lane without lock 1 ms after signal detect inverts its receive data. -/
def execPolarityRetry (n : Nat) (s : State) : Host.Outcome State Fault Refusal :=
  .next (if s.lanesOn ∧ n < 8 ∧ s.laneUse n ≠ 0 ∧ ¬ s.flag Fld.SDS_LANE_STAT.LOCK [n] then
      s.set Fld.SDS_LANE_STAT.RX_INV [n] (1 - s.get Fld.SDS_LANE_STAT.RX_INV [n])
    else s)

/-- LINK_UP (R509, R510): a port has held alignment, and auto-negotiation where AN=1, for 10 ms. `pos` and `eye` give each lane's PCS lane and eye. -/
def execLinkUp (p speed : Nat) (pos eye : List Nat) (s : State) : Host.Outcome State Fault Refusal :=
  .next (
    let ls := s.lanesOfPort p
    if s.lanesOn ∧ ¬ s.portUp p ∧ ¬ ls.isEmpty ∧ p < 10 then
      let an := ls.all (fun n => bitOf (s.laneFlags n) 1)
      let md := (ls.head?.map s.laneMode).getD 0
      let s1 := ls.foldl (fun t n => t.sets [n] [(Fld.SDS_LANE_STAT.LOCK, 1), (Fld.SDS_LANE_STAT.LANE_POS, (pos[ls.idxOf n]?).getD 0),
        (Fld.SDS_LANE_STAT.EYE, (eye[ls.idxOf n]?).getD 0)]) (s.portUpd (fun x => { x with up := x.up.set p true }))
      let s2 := if p < 8 then (s1.sets [p] [(Fld.SDS_PORT_STAT.LINK, 1), (Fld.SDS_PORT_STAT.AN_DONE, b2n an),
          (Fld.SDS_PORT_STAT.SPEED, if md = 2 ∨ md = 4 then speed else 0)]) else s1
      (if p < 8 ∧ s.running 5 then s2.set Fld.TMG_PORT_CFG_W0.LINK [p] 1 else s2).raise (ev 6 23)
    else s)

/-- LINK_DOWN (R344, R509, R510): a loss of alignment or lock, or a remote fault. -/
def execLinkDown (p : Nat) (s : State) : Host.Outcome State Fault Refusal :=
  .next (if s.portUp p then
      let s1 := (s.lanesOfPort p).foldl (fun t n => t.sets [n] [(Fld.SDS_LANE_STAT.LOCK, 0), (Fld.SDS_LANE_STAT.RX_INV, 0)])
        (s.portUpd (fun x => { x with up := x.up.set p false }))
      if p < 8 then
        let s2 := (s1.sets [p] [(Fld.SDS_PORT_STAT.LINK, 0), (Fld.SDS_PORT_STAT.AN_DONE, 0)]).inc .SDS_CNT_LINK_DOWN [p]
        (if s.running 5 then (s2.set Fld.TMG_PORT_CFG_W0.LINK [p] 0).tmLinkDown p else s2).raise (ev 6 23)
      else s1.raise (ev 6 23)
    else s)

/-! xSPI (R523, R524) -/

/-- Kiln or a store uses the flash (R524, R528). -/
def State.flashTaken (s : State) : Bool := decide (4 ≤ s.push.op) || s.slotBusy

/-- XIO_SPI_STAT commits a result and XSPI_DONE is raised. -/
def State.spiEnd (s : State) (res : Nat) : State :=
  (s.commit .XIO_SPI_STAT [] (res * 2 ^ 28 + s.get Fld.XIO_SPI_STAT.OCTAL * 2 ^ 27)).raise (ev 6 24)

/-- Where an operation's effect on flash starts, and its length: an erase covers its whole sector or block. -/
def spiRange (op addr len : Nat) : Nat × Nat :=
  if op = 3 then (addr / 4096 * 4096, 4096) else if op = 4 then (addr / 65536 * 65536, 65536) else (addr, len)

/-- The operation under way completes; with `ok` false the device failed or timed out, and what it leaves is not stated. -/
def State.spiDone (s : State) (ok : Bool) : State :=
  match s.ports.spi with
  | none => s
  | some (op, len, addr, sys) =>
      if s.flashTaken then s
      else
        let s1 := s.portUpd (fun p => { p with spi := none })
        let rg := spiRange op addr len
        if op ≤ 2 ∧ s.rangeCode (.engine 6 10) (64 * sys) len ≠ 0 then
          (s1.capture 6 1 10 (.engine 6 10) (s.rangeCode (.engine 6 10) (64 * sys) len) (64 * sys)).spiEnd 1
        else if ¬ ok then
          let junk := slice (Config.freeBytes s.free rg.2) 0 rg.2
          let s2 := { s1 with free := s.free + 1 }
          (if op = 1 then s2.memPut (64 * sys) junk else s2.fput rg.1 junk).spiEnd 2
        else if op = 1 then (s1.memPut (64 * sys) (s.fbytes addr len)).spiEnd 0
        else if op = 2 then (s1.fput addr ((s.fbytes addr len).zipWith (fun a b => a &&& b) (s.bytes (64 * sys) len))).spiEnd 0
        else (s1.fput rg.1 (List.replicate rg.2 0xFF)).spiEnd 0

/-- A performed write of XIO_SPI_CTL. -/
def State.spiAsk (s : State) (v : Word) : State :=
  let a := (s.reg .XIO_SPI_ADDR).toNat
  let s1 := s.pendResult .XIO_SPI_STAT
  if a < 0x2000000 then s1.spiEnd 1
  else s1.portUpd (fun p => { p with spi := some (wbits v 31 28, wbits v 16 0, a, (s.reg .XIO_SPI_SYS).toNat) })

/-! GPIO (R526) -/

/-- The pins that drive: OE without the pins enabled as wake sources. -/
def State.gpioOut (s : State) (n : Nat) : Bool :=
  bitOf (s.reg .XIO_GPIO_OE).toNat n && !(decide (n < 4) && s.wakeEn 2 && bitOf (s.get Fld.WAK_GPIO.PINS) n)

/-- The balls after a write of OUT, OE or PULL: a driven pin reads its own level. -/
def State.gpioDrive (s : State) : State :=
  let dr := (List.range 32).filter s.gpioOut
  let lv := (List.range 32).filter (fun n => if dr.contains n then bitOf (s.reg .XIO_GPIO_OUT).toNat n else bitOf (s.reg .XIO_GPIO_IN).toNat n)
  (s.setReg .XIO_GPIO_IN [] (w32 (maskOf lv))).emit .pin [maskOf dr, (s.reg .XIO_GPIO_OUT).toNat, (s.reg .XIO_GPIO_PULL).toNat]

/-- One bit of a GPIO register set or cleared. -/
def State.gpioBit (s : State) (r : Reg) (n : Nat) (b : Bool) : State :=
  s.setReg r [] (w32 (if b then maskSet (s.reg r).toNat n else maskClr (s.reg r).toNat n))

/-- GPIO (R526): an edge at an input. -/
def execGpioEdge (n : Nat) (level : Bool) (s : State) : Host.Outcome State Fault Refusal :=
  .next (if n < 32 ∧ s.boot.applied.contains 6 ∧ (s.mode = 1 ∨ s.mode = 2 ∨ s.serving) ∧ ¬ s.gpioOut n ∧ bitOf (s.reg .XIO_GPIO_IN).toNat n ≠ level then
      let s1 := s.gpioBit .XIO_GPIO_IN n level
      if bitOf (s.reg .XIO_GPIO_IRQ).toNat n then (s1.gpioBit .XIO_GPIO_EDGE n true).raise (ev 6 21) else s1
    else s)

/-! JTAG (R457, R525) -/

/-- Debug is open (R457). -/
def State.debugIsOpen (s : State) : Bool :=
  match s.lifecycle with
  | 0 => true
  | 1 => s.debugField == some 2 || s.flag Fld.IDN_LIFECYCLE.DEBUG_OPEN
  | 2 => s.flag Fld.IDN_LIFECYCLE.DEBUG_OPEN
  | 3 => s.flag Fld.IDN_LIFECYCLE.DEBUG_OPEN
  | _ => false

/-- IDCODE (R525): TDO shifts 0x1640_0A97; with the digital die off it is high-impedance. -/
def execJtagIdcode (s : State) : Host.Outcome State Fault Refusal :=
  .next (if s.pwr.powered.contains 6 then (s.portUpd (fun p => { p with tapIr := 0 })).emit .tdo [0x16400A97] else s)

/-- BYPASS (R525). -/
def execJtagBypass (s : State) : Host.Outcome State Fault Refusal :=
  .next (if s.pwr.powered.contains 6 then s.portUpd (fun p => { p with tapIr := 1 }) else s)

/-! Registers -/

/-- What the ports' registers let through. -/
def okPort (r : Reg) (ix : List Nat) (v : Word) (_ : Req) (s : State) : Bool :=
  match r, ix with
  | .HL_WIN_W0, [f, w] => (s.setReg r ix (mergeWord r.fields (s.reg r ix) v)).windowOk f w
  | .HL_WIN_W1, [f, w] => (s.setReg r ix (mergeWord r.fields (s.reg r ix) v)).windowOk f w
  | .HL_WIN_W2, [f, w] => (s.setReg r ix (mergeWord r.fields (s.reg r ix) v)).windowOk f w
  | .XIO_SPI_CTL, _ =>
    let op := wbits v 31 28
    let len := wbits v 16 0
    decide (1 ≤ op ∧ op ≤ 4) && (decide (3 ≤ op) || decide (1 ≤ len ∧ len ≤ 65536))
      && (op != 2 || decide (len ≤ 256 ∧ s.get Fld.XIO_SPI_ADDR.ADDR % 256 + len ≤ 256))
  | _, _ => true

/-- What a performed write of them does. -/
def wrPort (r : Reg) (ix : List Nat) (v : Word) (rq : Req) (s : State) : State :=
  match r with
  | .XIO_SPI_CTL => s.spiAsk v
  | .XIO_GPIO_OUT => (storeWord r ix v rq s).gpioDrive
  | .XIO_GPIO_OE => (storeWord r ix v rq s).gpioDrive
  | .XIO_GPIO_PULL => (storeWord r ix v rq s).gpioDrive
  | .HL_FN_ERR => if wbits v 31 31 = 1 then (storeWord r ix v rq s).set Fld.HL_FN_ERR.COUNT ix 0 else storeWord r ix v rq s
  | _ => storeWord r ix v rq s

/-- A write of XIO_SPI_CTL with an OP; it waits while an operation is under way (DESIGN CHOICE, notes/assumptions/66.md). -/
def State.spiRow (s : State) (rq : Req) (op : Nat) (v : Word) : State :=
  writeOrHold rq 0x60A0000 (wset v 31 28 op) s.ports.spi.isSome okPort wrPort s

/-- Held operations go on while none is under way. -/
def State.spiGo : Nat → State → State
  | 0, s => s
  | n + 1, s =>
    if s.ports.spi.isNone ∧ s.held.any (fun h => h.addr == 0x60A0000) = true then State.spiGo n (s.unhold (fun h => h.addr == 0x60A0000) (wrPort .XIO_SPI_CTL [])) else s

/-- XSPI_DONE (R524): the operation under way completes, and the next held one begins. -/
def execXspiDone (ok : Bool) (s : State) : Host.Outcome State Fault Refusal :=
  .next (if s.ports.spi.isSome then State.spiGo s.held.length (s.spiDone ok) else s)

/-- READ (R524). -/
def execXspiRead (rq : Req) (v : Word) (s : State) : Host.Outcome State Fault Refusal := .next (s.spiRow rq 1 v)
/-- PROGRAM (R524). -/
def execXspiProgram (rq : Req) (v : Word) (s : State) : Host.Outcome State Fault Refusal := .next (s.spiRow rq 2 v)
/-- ERASE_4K (R524). -/
def execXspiErase4K (rq : Req) (v : Word) (s : State) : Host.Outcome State Fault Refusal := .next (s.spiRow rq 3 v)
/-- ERASE_64K (R524). -/
def execXspiErase64K (rq : Req) (v : Word) (s : State) : Host.Outcome State Fault Refusal := .next (s.spiRow rq 4 v)

end Sys2Proof.Machine
end

