-- ==== Sys2Proof/Machine/RegsAll.lean ====
section
/-! DEFINITION. Every access to the register space and to memory, whoever sends it: the units' registers under one judgement (R4 to R8, R25, R488, R547),
memory (R379, R411), a host's BARs (R513 to R516), and the writes that step network time (R357 to R360, R375). -/
namespace Sys2Proof.Machine

/-! Steps of network time (R375) -/

/-- Booked windows whose instant is past are negotiated again (R375). -/
def State.windowsPast (s : State) : State :=
  (List.range 4).foldl (fun t q => match (t.cal q).run with
    | some r => (match r.booked with
      | some w => if w < t.netTime then t.calCancel q r else t
      | none => t)
    | none => t) s

/-- Network time has stepped (R261, R348, R375): a forced step discards the fronthaul store; a pending re-stack less than 1 ms ahead is cancelled with cause LATE;
booked windows that are past are negotiated again; the gates take their places at once. -/
def State.afterStep (s : State) (forced : Bool) : State :=
  let s1 := if forced then s.fhStep else s
  let s2 := match s1.radio.request with
    | some r => if r.time < s1.netTime + 1000000 then s1.restackCancel 1 else s1
    | none => s1
  let s3 := s2.windowsPast
  if s3.active 5 then (List.range 8).foldl (fun t p => t.gateSync p) s3 else s3

/-- A performed write of the NTU's registers, with what a step does elsewhere. -/
def wrTime (r : Reg) (ix : List Nat) (v : Word) (rq : Req) (s : State) : State :=
  match r with
  | .NTU_TIME_CTL =>
    let x := s.ntuCtl v
    let t := match x.2 with
      | some forced => x.1.afterStep forced
      | none => x.1
    t.afcUnlock s
  | _ => wrNtu r ix v rq s

/-- A write of NTU_TIME_CTL. -/
def State.timeCtl (s : State) (rq : Req) (v : Word) : State := writeReg rq (Reg.addr .NTU_TIME_CTL []) 4 v okNtu wrTime s

/-- ADJ (R358, R359): OP=ADJ. -/
def execNtuAdj (rq : Req) (s : State) : Host.Outcome State Fault Refusal := .next (s.timeCtl rq 1)
/-- SET (R358, R359): OP=SET. -/
def execNtuSet (rq : Req) (s : State) : Host.Outcome State Fault Refusal := .next (s.timeCtl rq 2)
/-- FORCE_ADJ (R360): OP=FORCE_ADJ. -/
def execNtuForceAdj (rq : Req) (s : State) : Host.Outcome State Fault Refusal := .next (s.timeCtl rq 3)
/-- FORCE_SET (R360): OP=FORCE_SET. -/
def execNtuForceSet (rq : Req) (s : State) : Host.Outcome State Fault Refusal := .next (s.timeCtl rq 4)
/-- UNLOCK (R357): OP=UNLOCK moves the time to UNLOCKED, and grants lapse (R104). -/
def execNtuUnlock (rq : Req) (s : State) : Host.Outcome State Fault Refusal := .next (s.timeCtl rq 6)

/-! The Ash window (R500, R501) and SMB_STAT (R521) -/

/-- The conditions of R521 that hold. -/
def State.alertConds (s : State) : List Nat :=
  (if s.flag Fld.AO_STATUS.BRINGUP_FAIL then [1] else []) ++ (if s.mode = 5 then [2] else []) ++ (if s.get Fld.AO_STATUS.FENCE_MASK ≠ 0 then [3] else [])
    ++ (if s.ash.openSlot.isSome then [4] else [])

/-- ALERT# is driven: a condition holds that no Alert Response has reported. -/
def State.alertOn (s : State) : Bool := s.alertConds.any (fun k => !s.ports.smbReported.contains k)

/-- What ASH_SEL and ASH_CTL let through. -/
def okAo (r : Reg) (_ : List Nat) (v : Word) (_ : Req) (_ : State) : Bool :=
  match r with
  | .ASH_CTL => wbits v 3 0 == 1
  | .ASH_SEL =>
    let i := wbits v 10 0
    (wbits v 17 16 != 1 || decide (i < 256)) && (wbits v 17 16 != 2 || decide (i < 4))
  | _ => true

/-- RELEASE frees a slot unless its incident is open (R501). -/
def wrAo (r : Reg) (ix : List Nat) (v : Word) (rq : Req) (s : State) : State :=
  match r with
  | .ASH_CTL =>
    let n := wbits v 6 4
    if s.ash.openSlot = some n then s else { s with ash := { s.ash with slots := updAt s.ash.slots n (fun x => { x with used := false }) } }
  | _ => storeWord r ix v rq s

/-- What AO's registers read. -/
def rdAo (r : Reg) (ix : List Nat) (rq : Req) (s : State) : Word × State :=
  match r, ix with
  | .AO_BOOT_INFO, _ => (s.bootInfo, s)
  | .ASH_STAT, _ => (w32 s.ashStat, s)
  | .ASH_SEQ, _ => (w32 s.ash.seq, s)
  | .ASH_DROPS, _ => (w32 (min 0xFFFFFFFF s.ash.dropCount), s)
  | .ASH_WIN, [i] => (w32 (leAt s.ashWindow (4 * i) 4), s)
  | .SMB_STAT, _ => (wset (s.reg .SMB_STAT) 31 31 (b2n s.alertOn), s)
  | _, _ => loadWord r ix rq s

/-! All registers -/

/-- The units that registers belong to. -/
inductive Owner where
  | quad | array | cal | phy | txa | fhu | rkn | wac | flw | tmg | mem | kln | tly | port | ntu | hka | power | sleep | push | cross | ao
  deriving DecidableEq, Repr

/-- The unit of a register, by its block (R18) and, in the region-control blocks, by name. -/
def Reg.owner (r : Reg) : Owner :=
  match r with
  | .RGC_RESTACK_CTL => .cross
  | .RGC_ERR_INFO => .cross
  | .RGC_CORE_CTL => .tly
  | .RGC_ASYNC_CFG => .quad
  | .AO_PUSH_CTL => .push
  | .AO_PUSH_DATA => .push
  | .AO_SLEEP_CTL => .sleep
  | .AO_VF_CTL => .power
  | .AO_ISL_CTL => .power
  | .WAK_WRX => .power
  | _ =>
    match r.base / 0x10000 with
    | 0x001 => .quad
    | 0x002 => .quad
    | 0x003 => .quad
    | 0x004 => .array
    | 0x005 => .array
    | 0x006 => .array
    | 0x007 => .array
    | 0x008 => .quad
    | 0x009 => .cal
    | 0x401 => .phy
    | 0x402 => .phy
    | 0x403 => .phy
    | 0x404 => .phy
    | 0x405 => .phy
    | 0x406 => .txa
    | 0x407 => .fhu
    | 0x408 => .rkn
    | 0x501 => .wac
    | 0x502 => .flw
    | 0x503 => .flw
    | 0x504 => .tmg
    | 0x505 => .mem
    | 0x506 => .kln
    | 0x507 => .flw
    | 0x601 => .tly
    | 0x602 => .tly
    | 0x603 => .tly
    | 0x604 => .mem
    | 0x605 => .mem
    | 0x606 => .mem
    | 0x607 => .port
    | 0x608 => .port
    | 0x609 => .kln
    | 0x60A => .port
    | 0x60B => .ntu
    | 0x702 => .hka
    | 0x705 => .kln
    | _ => .ao

/-- Values and conditions that every unit lets through. -/
def okAll (r : Reg) (ix : List Nat) (v : Word) (rq : Req) (s : State) : Bool :=
  match r.owner with
  | .quad => okQuad r ix v rq s
  | .array => okArray r ix v rq s
  | .cal => okCal r ix v rq s
  | .phy => okPhy r ix v rq s
  | .txa => okTxa r ix v rq s
  | .fhu => okFhu r ix v rq s
  | .rkn => okRkn r ix v rq s
  | .wac => okWac r ix v rq s
  | .flw => okFlw r ix v rq s
  | .tmg => okTmg r ix v rq s
  | .mem => okMem r ix v rq s
  | .kln => okKln r ix v rq s
  | .tly => okTly r ix v rq s
  | .port => okPort r ix v rq s
  | .ntu => okNtu r ix v rq s
  | .hka => okHka r ix v rq s
  | .power => okPower r ix v rq s
  | .sleep => okSleep r ix v rq s
  | .push => okPush r ix v rq s
  | .cross => okCross r ix v rq s
  | .ao => okAo r ix v rq s

/-- What a performed write does, in every unit. -/
def wrAll (r : Reg) (ix : List Nat) (v : Word) (rq : Req) (s : State) : State :=
  match r.owner with
  | .quad => wrQuad r ix v rq s
  | .array => wrArray r ix v rq s
  | .cal => wrCal r ix v rq s
  | .phy => wrPhy r ix v rq s
  | .txa => wrTxa r ix v rq s
  | .fhu => wrFhu r ix v rq s
  | .rkn => wrRkn r ix v rq s
  | .wac => wrWac r ix v rq s
  | .flw => wrFlw r ix v rq s
  | .tmg => wrTmg r ix v rq s
  | .mem => storeWord r ix v rq s
  | .kln => wrKln r ix v rq s
  | .tly => wrTly r ix v rq s
  | .port => wrPort r ix v rq s
  | .ntu => wrTime r ix v rq s
  | .hka => wrHka r ix v rq s
  | .power => wrPower r ix v rq s
  | .sleep => wrSleep r ix v rq s
  | .push => (wrPush r ix v rq s).pushGo
  | .cross => wrCross r ix v rq s
  | .ao => wrAo r ix v rq s

/-- Reads that a unit's own rules refuse (R398, R524's lifecycle rules). -/
def okRdAll (r : Reg) (ix : List Nat) (rq : Req) (s : State) : Bool :=
  match r.owner with
  | .rkn => okRdRkn r ix rq s
  | .kln => okRdKln r ix rq s
  | _ => true

/-- What a performed read returns and does, in every unit. -/
def rdAll (r : Reg) (ix : List Nat) (rq : Req) (s : State) : Word × State :=
  match r.owner with
  | .quad => rdQuad r ix rq s
  | .array => rdArray r ix rq s
  | .cal => rdCal r ix rq s
  | .phy => rdPhy r ix rq s
  | .txa => rdTxa r ix rq s
  | .fhu => rdFhu r ix rq s
  | .rkn => rdRkn r ix rq s
  | .wac => rdWac r ix rq s
  | .flw => rdFlw r ix rq s
  | .tmg => rdTmg r ix rq s
  | .mem => rdMem r ix rq s
  | .kln => rdKln r ix rq s
  | .tly => rdTly r ix rq s
  | .ntu => rdNtu r ix rq s
  | .hka => rdHka r ix rq s
  | .ao => rdAo r ix rq s
  | _ => loadWord r ix rq s

/-- The registers whose writes back-pressure may hold, and whether it holds this one now (R20, R59, R88, R126, R282, R524). -/
def fullAll (a : Nat) (v : Word) (s : State) : Bool :=
  match findReg a with
  | some (.AO_PUSH_DATA, _) => s.pushFull
  | some (.BEAM_COMMIT, [q]) => decide (64 ≤ (s.quad q).beamQ.length) && s.beamDue q v
  | some (.FEN_RFFE_CMD, [q]) => s.rffeFull q (wbits v 29 28) || s.held.any (rffeHeldFor q (wbits v 29 28))
  | some (.TXA_DL_PUSH, _) => s.txaFull
  | some (.XIO_SPI_CTL, _) => s.ports.spi.isSome
  | _ => false

/-- A read of a register by any requester. -/
def State.regRead (s : State) (rq : Req) (a size : Nat) : State := readReg rq a size okRdAll rdAll s

/-- A write of a register by any requester. -/
def State.regWrite (s : State) (rq : Req) (a size : Nat) (v : Word) : State :=
  if size = 4 then writeOrHold rq a v (fullAll a v s) okAll wrAll s else writeReg rq a size v okAll wrAll s

/-! Memory -/

/-- The mode and region rules of R30 for memory. -/
def State.memMode (s : State) (rq : Req) (a : Nat) : Nat :=
  let r := (memOwner a).1
  match s.mode with
  | 1 => if isOutside rq then 3 else if rq = .kiln then (if s.pwr.powered.contains r then 0 else 3) else if s.boot.applied.contains r then 0 else 3
  | 2 => 3
  | 5 => 7
  | _ => if !s.present r then 1 else if s.fenced r || s.push.reloading = some r then 6 else 0

/-- An access to memory that fails before it is made: who captures it (region, level, block) and the code (R379, R489, R547). -/
def State.memJudge (s : State) (rq : Req) (a n : Nat) : Option (Nat × Nat × Nat × Nat) :=
  let own := memOwner a
  let c := s.rangeCode rq a n
  if n = 0 then some (7, 3, 0xFF, 2)
  else if s.area a = .none ∨ s.area (a + n - 1) = .none ∨ c = 1 then some (7, 3, 0xFF, 1)
  else if s.memMode rq a ≠ 0 then some (7, 3, 0xFF, s.memMode rq a)
  else if c ≠ 0 then some (own.1, 1, own.2, c)
  else none

/-- A read of up to four bytes of memory. -/
def State.memLoad (s : State) (rq : Req) (a n bar : Nat) : State :=
  match s.memJudge rq a n with
  | some (g, l, b, c) => s.refuse rq g l b c a bar
  | none =>
    let x := s.memRead rq a n
    if x.1 ≠ 0 then x.2.2.refuse rq (memOwner a).1 1 (memOwner a).2 x.1 a bar else x.2.2.answer rq (w32 (leNat x.2.1))

/-- A write of up to four bytes of memory. -/
def State.memStore (s : State) (rq : Req) (a n : Nat) (v : Word) (bar : Nat) : State :=
  match s.memJudge rq a n with
  | some (g, l, b, c) => s.refuse rq g l b c a bar
  | none =>
    let x := s.memWrite rq a (leBytes n v.toNat)
    if x.1 ≠ 0 then x.2.refuse rq (memOwner a).1 1 (memOwner a).2 x.1 a bar else x.2.answer rq 0

/-! Where a requester's address leads -/

/-- What an access reaches: a register, memory through a BAR (0 none, 1 BAR2), BAR4 of a function, no window of BAR2. -/
inductive Place where
  | reg (a : Nat)
  | mem (a bar : Nat)
  | bar4 (f o : Nat)
  | noWindow (o : Nat)
  deriving DecidableEq, Repr

/-- Address maps: a region core sees its own memories at 0x0800_0000 and DRAM through its window (R381); a function's addresses are those of BAR0 from 0, BAR2
from 2^27, BAR4 from 2^40 (the model's numbering, notes/assumptions/66.md); everyone else uses R379. -/
def State.place (s : State) (rq : Req) (a : Nat) : Place :=
  if a < 0x8000000 then .reg a
  else match rq with
  | .rcore r =>
    if 0x8000000 ≤ a ∧ a < 0x8020000 then .mem (0x15000000 + 0x20000 * r + (a - 0x8000000)) 0
    else if 0x20000000 ≤ a ∧ a < 0x30000000 then .mem (0x800000000 + 0x10000000 * s.get Fld.RGC_CORE_DWIN.BASE [r] + (a - 0x20000000)) 0
    else if 0x30000000 ≤ a then .mem 0 0
    else .mem a 0
  | .pcie f =>
    if 0x10000000000 ≤ a then .bar4 f (a - 0x10000000000)
    else match s.windowAt f (a - 0x8000000) with
      | some x => .mem x 1
      | none => .noWindow (a - 0x8000000)
  | _ => .mem a 0

/-- A region core reaches its own memories, which R379 closes to everyone but the application cores. -/
def ownMemory (rq : Req) (a : Nat) : Option Nat :=
  match rq with
  | .rcore r => if 0x8000000 ≤ a ∧ a < 0x8020000 ∧ r < 6 then some (0x15000000 + 0x20000 * r + (a - 0x8000000)) else none
  | _ => none

/-- JTAG makes accesses only while debug is open (R457). -/
def State.mayAccess (s : State) (rq : Req) : Bool := rq != .jtag || (s.debugIsOpen && s.pwr.powered.contains 6)

/-- A read by any requester (R488). -/
def State.busRead (s : State) (rq : Req) (a size : Nat) : State :=
  if s.mode = 0 ∨ ¬ s.mayAccess rq then s
  else match ownMemory rq a with
    | some x => if s.memMode rq x ≠ 0 then s.refuse rq 7 3 0xFF (s.memMode rq x) a else s.answer rq (w32 (s.num x (min 4 size)))
    | none => match s.place rq a with
      | .reg x => s.regRead rq x size
      | .mem x bar => s.memLoad rq x (min 4 size) bar
      | .bar4 f o => s.answer rq (s.bar4Word f o)
      | .noWindow o => s.refuse rq 6 1 7 1 o 1

/-- A write by any requester (R488). -/
def State.busWrite (s : State) (rq : Req) (a size : Nat) (v : Word) : State :=
  if s.mode = 0 ∨ ¬ s.mayAccess rq then s
  else match ownMemory rq a with
    | some x => if s.memMode rq x ≠ 0 then s.refuse rq 7 3 0xFF (s.memMode rq x) a else (s.memPut x (leBytes (min 4 size) v.toNat)).answer rq 0
    | none => match s.place rq a with
      | .reg x => s.regWrite rq x size v
      | .mem x bar => s.memStore rq x (min 4 size) v bar
      | .bar4 f o => (s.bar4Write f o v).answer rq 0
      | .noWindow o => s.refuse rq 6 1 7 1 o 1

/-- REGISTER_WRITE (R4 to R8): a write of `size` bytes at an address by `rq`, performed field by field or refused whole. -/
def execRegisterWrite (rq : Req) (a size : Nat) (v : Word) (s : State) : Host.Outcome State Fault Refusal := .next (s.busWrite rq a size v)

/-- COUNTER_READ (R5, R7): a read of a counter returns its count and clears it; an event of the same cycle is counted after the clear. -/
def execCounterRead (rq : Req) (a size : Nat) (sameCycle : Bool) (s : State) : Host.Outcome State Fault Refusal :=
  .next (
    let t := s.busRead rq a size
    if sameCycle ∧ (t.resp.map (·.code)) = some 0 then
      (match findReg a with
        | some (r, ix) => if isRC r then t.inc r ix else t
        | none => t)
    else t)

/-- RESULT_READ (R25, R28): a read of a result register, or of any other register or memory; a read with VALID=0 is counted. One that falls into the cycle of the commit (`same`),
which the row after it makes, returns the value of before with VALID=0 and counts as early. -/
def execResultRead (rq : Req) (a size : Nat) (same : Bool) (s : State) : Host.Outcome State Fault Refusal :=
  .next (
    let t := s.busRead rq a size
    match t.resp, findReg a with
    | some x, some (r, _) =>
      if same ∧ isResult r ∧ x.code = 0 ∧ wbits x.data 31 31 = 1 then { t.earlyRead (aRegion a) with resp := some { x with data := wset x.data 31 31 0 } } else t
    | _, _ => t)

/-- RELEASE (R501): ASH_CTL with OP=RELEASE for a slot. -/
def execAshRelease (rq : Req) (slot : Nat) (s : State) : Host.Outcome State Fault Refusal :=
  .next (s.regWrite rq 0x7000610 4 (w32 (16 * (slot % 8) + 1)))

end Sys2Proof.Machine
end

