-- ==== Sys2Proof/Machine/SmBus.lean ====
section
/-! DEFINITION. The SMBus target (R519 to R522): its commands, STATUS, ALERT# and the Alert Response, a stuck bus. -/
namespace Sys2Proof.Machine

/-- The target takes a transfer: the part is awake, and SDA is not held low by another device (R522, R529). -/
def State.smbOn (s : State) : Bool := s.mode != 0 && !s.flag Fld.SMB_STAT.STUCK

/-- A Block Write whose PEC fails or whose count does not match performs nothing (R520): PEC_ERR or BAD, and the counters. Otherwise both clear and `f` is
performed. -/
def State.smbBlock (s : State) (pecOk countOk : Bool) (f : State → State) : State :=
  if ¬ s.smbOn then s
  else if ¬ pecOk then (s.portUpd (fun p => { p with smbPec := true })).inc .SMB_CNT_PEC
  else if ¬ countOk then (s.portUpd (fun p => { p with smbBad := true })).inc .SMB_CNT_BAD
  else f (s.portUpd (fun p => { p with smbPec := false, smbBad := false }))

/-- A write by the target; its code goes to STATUS. One that back-pressure holds completes with OK, SCL being stretched until then (R519). -/
def State.smbWrite (s : State) (a : Nat) (v : Word) : State :=
  let t := s.busWrite .smbus a 4 v
  let c := if s.held.length < t.held.length then 0 else (t.resp.map (·.code)).getD 0
  t.portUpd (fun p => { p with smbCode := c })

/-- WRITE_REG (R520): Block Write of ADDR and DATA, count 8. -/
def execSmbusWriteReg (a : Nat) (v : Word) (count : Nat) (pecOk : Bool) (s : State) : Host.Outcome State Fault Refusal :=
  .next (s.smbBlock pecOk (count == 8) (fun t => t.smbWrite a v))

/-- SET_ADDR (R520): the read pointer and the burst; a burst outside 1 to 60 is a bad transfer (DEDUCED, notes/assumptions/66.md). -/
def execSmbusSetAddr (a burst count : Nat) (pecOk : Bool) (s : State) : Host.Outcome State Fault Refusal :=
  .next (s.smbBlock pecOk (count == 5 && decide (1 ≤ burst ∧ burst ≤ 60)) (fun t => t.portUpd (fun p => { p with smbPtr := a, smbBurst := burst })))

/-- Words read from an address on: their bytes, the first code that is not OK, the state after. -/
def State.smbWords : Nat → Nat → State → Bytes × Nat × State
  | 0, _, s => ([], 0, s)
  | n + 1, a, s =>
    let t := s.busRead .smbus a 4
    let c := (t.resp.map (·.code)).getD 0
    let d := if c = 0 then (t.resp.map (·.data)).getD 0 else 0xFFFFFFFF
    let rest := State.smbWords n (a + 4) t
    (leBytes 4 d.toNat ++ rest.1, if c ≠ 0 then c else rest.2.1, rest.2.2)

/-- READ (R520): BURST words and CODE; the pointer moves on. -/
def execSmbusRead (s : State) : Host.Outcome State Fault Refusal :=
  .next (if s.smbOn then
      let n := s.ports.smbBurst
      let x := State.smbWords n s.ports.smbPtr s
      (x.2.2.portUpd (fun p => { p with smbPtr := (p.smbPtr + 4 * n) % 2 ^ 32 })).emit .smbus [0x13] ([b8 (4 * n + 1)] ++ x.1 ++ [b8 x.2.1])
    else s)

/-- The STATUS byte (R520): BUSY while a push is being verified or applied. -/
def State.smbStatus (s : State) : Nat :=
  b2n s.pushFull * 128 + b2n s.ports.smbPec * 64 + b2n s.ports.smbBad * 32 + s.ports.smbCode % 16

/-- STATUS (R520). -/
def execSmbusStatus (s : State) : Host.Outcome State Fault Refusal :=
  .next (if s.smbOn then s.emit .smbus [0x14] [b8 s.smbStatus] else s)

/-- The words of a PUSH, in order. -/
def State.smbPushes (s : State) (d : Bytes) : State :=
  (List.range (d.length / 4)).foldl (fun t i => t.smbWrite 0x7000204 (w32 (leAt d (4 * i) 4))) s

/-- PUSH (R520): image bytes for AO_PUSH_DATA; the count is 4 to 252, a multiple of 4, and that of the bytes. -/
def execSmbusPush (d : Bytes) (count : Nat) (pecOk : Bool) (s : State) : Host.Outcome State Fault Refusal :=
  .next (s.smbBlock pecOk (count == d.length && decide (4 ≤ count ∧ count ≤ 252) && count % 4 == 0) (fun t => t.smbPushes d))

/-- ALERT_RESPONSE (R521): while ALERT# is driven the part answers with its address and releases ALERT#, having reported every condition that holds. -/
def execSmbusAlertResponse (s : State) : Host.Outcome State Fault Refusal :=
  .next (if s.smbOn ∧ s.alertOn = true then
      (s.portUpd (fun p => { p with smbReported := s.alertConds })).emit .alert [s.get Fld.WAK_EN.SMB_ADDR * 2]
    else s)

/-- SCL_TIMEOUT (R522): SCL low for 35 ms; the transfer performs nothing. -/
def execSmbusSclTimeout (s : State) : Host.Outcome State Fault Refusal :=
  .next (if s.smbOn then s.inc .SMB_CNT_TIMEOUT else s)

/-- SMB_FAULT (R522): SDA held low by another device for 35 ms; the target is passive from now on. The fault is counted in SMB_CNT_TIMEOUT (DEDUCED,
notes/assumptions/66.md). -/
def execSmbFault (s : State) : Host.Outcome State Fault Refusal :=
  .next (if s.smbOn then ((s.set Fld.SMB_STAT.STUCK [] 1).inc .SMB_CNT_TIMEOUT).raise (ev 7 15) else s)

/-- SMB_BUS_IDLE (R522): the bus has been idle for 1 ms. -/
def execSmbBusIdle (s : State) : Host.Outcome State Fault Refusal :=
  .next (if s.mode = 0 then s else s.set Fld.SMB_STAT.STUCK [] 0)

end Sys2Proof.Machine
end

