-- ==== Sys2Proof/Machine/Boot.lean ====
section
/-! DEFINITION. Bring-up from Kiln's start to Service (R44, R52, R55, R93, R158, R442), the wake stages of a domain (R471 to R473) and the reload of a
region's cord (R61 to R63). -/
namespace Sys2Proof.Machine

/-! Register writes of a cord (R44) -/

/-- Response code of the access made last. -/
def State.code (s : State) : Nat := (s.resp.map (·.code)).getD 0

/-- One REG_INIT entry: ADDRESS, MASK, VALUE; with a MASK of all ones the register is not read first. -/
def State.initEntry (s : State) (b : Bytes) : Nat × State :=
  let a := leAt b 0 4
  let m := w32 (leAt b 4 4)
  let v := w32 (leAt b 8 4)
  let s0 := { s with resp := none }
  if m = 0xFFFFFFFF then ((s0.busWrite .kiln a 4 v).code, s0.busWrite .kiln a 4 v)
  else
    let t := s0.busRead .kiln a 4
    if t.code ≠ 0 then (t.code, t)
    else
      let old := (t.resp.map (·.data)).getD 0
      let u := State.busWrite { t with resp := none } .kiln a 4 ((old &&& ~~~m) ||| (v &&& m))
      (u.code, u)

/-- Entries in order; the first whose address lies outside the region, or that gets an error response, ends them. -/
def State.initRun (r : Nat) : List Bytes → State → Bool × State
  | [], s => (true, s)
  | b :: t, s =>
    if 0x8000000 ≤ leAt b 0 4 ∨ aRegion (leAt b 0 4) ≠ r then (false, s)
    else
      let x := s.initEntry b
      if x.1 ≠ 0 then (false, x.2) else State.initRun r t x.2

/-- The REG_INIT entries of a cord. -/
def State.initEntries (s : State) (r : Nat) : List Bytes :=
  ((s.bodies r 0xF0).map (fun b => (List.range (b.length / 12)).map (fun i => slice b (12 * i) 12))).flatten

/-- Kiln applies entries to a region that has power; it reaches the region as in Bring-up, in a reload and on a wake too (DEDUCED,
notes/assumptions/60.md). -/
def State.regInit (s : State) (r : Nat) (p : Nat → Bool) : Bool × State :=
  let x := State.initRun r ((s.initEntries r).filter (fun b => p (leAt b 0 4))) (s.set Fld.AO_STATUS.MODE [] 1)
  (x.1, { (if x.2.mode = 1 then x.2.set Fld.AO_STATUS.MODE [] s.mode else x.2) with resp := s.resp })

/-! Records that registers show -/

/-- WAKE_SRC goes into the WAK registers (R480). -/
def State.wakShow (s : State) : State :=
  let b := s.body 7 0x40
  let s1 := s.sets [] [(Fld.WAK_EN.SMB_ADDR, leAt b 1 1), (Fld.WAK_EN.VIN_STABLE, leAt b 6 2), (Fld.WAK_GPIO.PINS, leAt b 2 1 % 16),
    (Fld.WAK_GPIO.ACT_HIGH, leAt b 2 1 / 16), (Fld.WAK_GPIO.GPIO_FILT, leAt b 3 1), (Fld.WAK_WRX.WRX_DUTY, leAt b 5 1), (Fld.WAK_WRX.SRC_EN, leAt b 0 1)]
  let s2 := (List.range 4).foldl (fun t n => t.setReg .WAK_WRX_ID [n] (w32 (leAt b (8 + 2 * n) 2))) s1
  (s2.setReg .WAK_TIMER [] 0).pwrUpd (fun p => { p with wrxBand := leAt b 4 1 })

/-- What SRM and DMC show of SRAM_PART and DRAM (R407, R418). -/
def State.memShow (s : State) : State :=
  let b := s.body 6 0x30
  let d := s.dramRec
  let s1 := (s.set Fld.SRM_STAT.SAVE_BANK [] (leAt b 64 1)).sets [] [(⟨.SRM_RET_LO, 31, 0⟩, leAt b 68 4), (⟨.SRM_RET_HI, 31, 0⟩, leAt b 72 4)]
  let s2 := (List.range 4).foldl (fun t k => t.setReg .SRM_USE [k] (w32 ((List.range 16).map (fun i => leAt b (16 * k + i) 1 * 4 ^ i)).sum)) s1
  (List.range 2).foldl (fun t c => t.sets [c] [(Fld.DMC_STAT.TRAINED, 1), (Fld.DMC_STAT.XTS, leAt d 5 1 % 2), (Fld.DMC_STAT.TYPE, leAt d 0 1),
    (Fld.DMC_STAT.MTS, leAt d 2 2)]) s2

/-- EVENT_ROUTE (R393). -/
def evtRoutes (b : Bytes) : List EvtRoute :=
  (List.range 256).map (fun e => ⟨leAt b (8 * e) 1, leAt b (8 * e + 1) 1, leAt b (8 * e + 2) 2, leAt b (8 * e + 4) 4⟩)

/-- A channel that has been trained (R418), with its keys drawn (R426). -/
def State.dmcTrained (s : State) : Dmc :=
  { Dmc.reset with lastRefresh := s.now, lastZq := s.now, lastTemp := s.now, xtsKeyed := bitOf (leAt s.dramRec 5 1) 0 }

/-- The records of the CT cord take effect. -/
def State.ctApply (s : State) : State :=
  let b := s.body 6 0x35
  let s1 := { s.memShow with
    evt := { s.evt with routes := evtRoutes (s.body 6 0x33) }
    mems := { s.mems with dmc := List.replicate 2 s.dmcTrained } }
  (s1.sets [] [(Fld.IDN_TAMPER_CFG.EN, leAt b 2 1 % 4), (Fld.IDN_TAMPER_CFG.ACT_HIGH, leAt b 2 1 / 4), (Fld.IDN_TAMPER_CFG.TFILT, leAt b 3 1)]).lanesShow

/-- The islands of a region's ISLAND_PLAN at their initial frequencies (R467). -/
def State.planIslands (s : State) (r : Nat) : List Island :=
  (islEntries (s.body r 1)).map (fun e => ⟨r, leAt e 0 1, leAt e 1 1, leAt e 2 1, leAt e 4 2⟩)

/-- A region has power: its rails at INIT, its islands as planned (R467, R468). -/
def State.regionUp (s : State) (r : Nat) : State :=
  let on := fun (p : Pwr) => if p.powered.contains r then p.powered else p.powered ++ [r]
  (s.railsOn r).pwrUpd (fun p => { p with powered := on p, islands := p.islands.filter (fun i => i.region != r) ++ s.planIslands r })

/-! Units start -/

/-- A quadrant starts with a stack (R93, R117, R158): its routes report their latencies, its four capture streams are enabled from here on (when R22 counts a stream as enabled,
the spec leaves open: DESIGN CHOICE, notes/assumptions/68.md), the first valid temperature is taken. -/
def State.quadStart (s : State) (q i : Nat) : State :=
  let sr := s.sampleRoute
  let conv := s.convPlan q
  let s1 := (List.range 16).foldl (fun t n =>
    if routeRole sr n ≠ 0 ∧ bitOf (routeQmask sr n) q = true then
      t.sets [q, n] [(Fld.DFE_ROUTE_STAT.VALID, 1), (Fld.DFE_ROUTE_STAT.RX_LAT, Config.routeLatency (slice sr (8 * n) 8) conv false),
        (Fld.DFE_ROUTE_STAT.TX_LAT, Config.routeLatency (slice sr (8 * n) 8) conv true)]
    else t) s
  let s2 := s1.quadUpd q (fun d => { d with ebufs := d.ebufs.map (fun e => { e with on := true }) })
  (s2.takeStack q i).calTemp q

/-- A quadrant's sets come back from the save area (R135, R158). -/
def State.setsRestore (s : State) (q red : Nat) : State :=
  let d := s.quad q
  let s1 := s.quadUpd q (fun d => { d with dpd := d.savedDpd, cal := { d.cal with sets := d.savedCal } })
  ((List.range 16).foldl (fun t p => t.set Fld.DPD_STAT.SET_VALID [q, p] ((d.savedValid[p]?).getD 0)) s1).setReg .CAL_RED [q] (w32 red)

/-- BB starts: the buffers of the consumers that have a route are enabled (R22, R114; when a stream counts as enabled: DESIGN CHOICE, notes/assumptions/68.md). -/
def State.bbStart (s : State) : State :=
  let used := fun (c : Nat) => (List.range 16).any (fun n => routeRole s.sampleRoute n != 0 && routeConsumer s.sampleRoute n == c)
  s.radUpd (fun r => { r with bbEbufs := (List.range 5).map (fun c => ⟨used c, none⟩) })

/-- PK starts: its ports' links show as they are (R344). -/
def State.pkStart (s : State) : State :=
  (List.range 8).foldl (fun t p => t.set Fld.TMG_PORT_CFG_W0.LINK [p] (b2n ((s.ports.up[p]?).getD false))) s

/-- A region that its cord has been applied to is released, with a quadrant in a stack. -/
def State.regionStart (s : State) (r i : Nat) : State :=
  let s1 := s.bootUpd (fun b => { b with applied := if b.applied.contains r then b.applied else r :: b.applied })
  if r < 4 then s1.quadStart r i else if r = 4 then s1.bbStart else if r = 5 then s1.pkStart else s1

/-! Wake stages (R471, R472) -/

/-- A domain's wake is given up (R472): recorded, WAKE_FAIL raised, the domain off. -/
def State.wakeFail (s : State) (r stage : Nat) : State :=
  let w := 2 ^ 31 + r * 2 ^ 24 + stage
  let s1 := (s.pwrUpd (fun p => { p with waking := p.waking.filter (fun x => x.region != r) })).railsOff r
  ((s1.setReg .AO_WAKE_FAIL [] (w32 w)).ashAdd 9 0xE0 (leBytes 4 w)).raise (ev 7 6)

/-- The records of a cord take effect on its region: it wakes (`stage` below 4 is the stage that times out), the DRAM trains (`dramOk`), the register writes
follow, a quadrant's FEN_VIO becomes ready (`vioOk`) and the region is released. The reason of a failure, 0 for none. -/
def State.regionApply (s : State) (r stage : Nat) (dramOk vioOk : Bool) : Nat × State :=
  if r < 6 ∧ stage < 4 then (0xE, s.wakeFail r stage)
  else
    let s1 := s.regionUp r
    if r = 6 ∧ ¬ dramOk then (0xC, s1)
    else
      let s2 := if r = 6 then s1.ctApply else if r = 7 then s1.wakShow else s1
      let x := s2.regInit r (fun _ => true)
      if ¬ x.1 then (0xD, x.2)
      else if r < 4 ∧ ¬ (vioOk ∧ x.2.flag Fld.FEN_RFFE_CFG.VIO_EN [r]) then (0xE, x.2)
      else
        let s3 := x.2.regionStart r 0
        (0, if r = 5 then s3.flowClear else if r = 6 then s3.hostStale else s3)

/-- A region of the sleep into Banked is back: records, REG_INIT, and what the save area holds (R44, R135, R158, R350; DEDUCED,
notes/assumptions/60.md). CT takes back only the blocks that were off. -/
def State.regionBack (s : State) (r : Nat) : State :=
  if r = 6 then
    let off := fun (a : Nat) => aBlock a == 4 || aBlock a == 5 || aBlock a == 6 || aBlock a == 8
    ((s.memShow.lanesShow).regInit 6 off).2
  else
    let red := (s.reg .CAL_RED [r]).toNat
    let s1 := ((s.regionUp r).regInit r (fun _ => true)).2
    let s2 := s1.regionStart r (s.curIdx r)
    if r < 4 then s2.setsRestore r red else if r = 4 then s2.dfsRestore else s2.tmWake

/-- On the return to Service every TWT guard is TWT_GUARD and no miss stands (R222). -/
def State.twtReturn (s : State) : State :=
  ((s.wvalids 0).foldl (fun t i => (t.setWfld 0 i 0x48 2 (s.get Fld.WAC_TWT_CFG.TWT_GUARD)).setWfld 0 i 0x4A 1 0) s).wacUpd (fun w => { w with streak := [] })

/-- Every domain is back: the mode that the part left, Fenced with the regions whose wake failed (R33, R473, R492). -/
def State.wakeDone (s : State) : State :=
  let mask := s.pwr.sleptMask
  let lost := (List.range 6).filter (fun r => bitOf mask r && !s.fenced r)
  let s1 := lost.foldl (fun t r => (t.tlyFence r).raise (ev r 0)) (s.set Fld.AO_STATUS.FENCE_MASK [] mask)
  let s2 := s1.pwrUpd (fun p => { p with wakeOpen := false, sleptOn := [] })
  let s3 := ((if mask = 0 then s2.twtReturn.setMode 3 else s2.setMode 4).pathsCheck)
  (if lost.isEmpty then s3 else s3.fallback).coexSettle

/-- The wake of a region from Banked has failed at a stage (R472): CT restarts the digital die, another region is fenced. -/
def State.wakeLost (s : State) (r stage : Nat) : State :=
  let s1 := s.wakeFail r stage
  if r = 6 then s1.dieRestart 0x41
  else
    let c := 2 ^ 31 + 16 + 5
    let s2 := ((s1.setReg .RGC_FENCE_CAUSE [r] (w32 c)).ashAdd 2 (r * 32) (leBytes 4 c ++ [b8 r])).pwrUpd
      (fun p => { p with sleptMask := maskSet p.sleptMask r })
    if s2.pwr.waking.isEmpty then s2.wakeDone else s2

/-- A domain has passed its logic stage. A quadrant that comes back from Banked waits for FEN_VIO after its REG_INIT; when that is not ready in time, or not enabled, its wake has
failed (R93). -/
def State.wakeReady (s : State) (w : WakeRun) (vioOk : Bool) : State :=
  let s1 := s.pwrUpd (fun p => { p with waking := p.waking.filter (fun x => x.region != w.region) })
  if w.banked then
    let s2 := s1.regionBack w.region
    if w.region < 4 ∧ ¬ (vioOk ∧ s2.flag Fld.FEN_RFFE_CFG.VIO_EN [w.region]) then s.wakeLost w.region 3
    else if s2.pwr.waking.isEmpty then s2.wakeDone else s2
  else
    (s1.pwrUpd (fun p => { p with powered := if p.powered.contains 6 then p.powered else p.powered ++ [6] })).ntuResume.bootUpd (fun b => { b with phase := .kiln })

/-- WAKE_STAGE_READY (R93, R471, R473): the stage of region `r` that runs now meets its ready condition; `vioOk` says that FEN_VIO of a quadrant was ready within 50 µs of its
REG_INIT. -/
def execWakeStageReady (r : Nat) (vioOk : Bool) (s : State) : Host.Outcome State Fault Refusal :=
  .next (match s.pwr.waking.find? (fun w => w.region == r) with
    | none => s
    | some w =>
      if s.now < w.since then s
      else if w.stage < 3 then
        let s1 := if w.stage ≠ 0 then s else if w.banked then (if r = 6 then s.set Fld.AO_RAIL_STAT.MV [12] 750 else s) else s.railsOn r
        s1.pwrUpd (fun p => { p with waking := p.waking.map (fun x => if x.region == r then { x with stage := x.stage + 1, since := s.now } else x) })
      else s.wakeReady w vioOk)

/-- Timeout of a stage in ns (R471). -/
def stageTimeout (stage : Nat) : Nat := ([500000, 1000000, 100000][stage]?).getD 100000

/-- WAKE_STAGE_TIMEOUT (R472): the stage of region `r` that runs now has not become ready within its timeout. -/
def execWakeStageTimeout (r : Nat) (s : State) : Host.Outcome State Fault Refusal :=
  .next (match s.pwr.waking.find? (fun w => w.region == r) with
    | none => s
    | some w =>
      if s.now < w.since + stageTimeout w.stage then s
      else
        if w.banked then s.wakeLost r w.stage else (s.wakeFail r w.stage).bringFail 0xE)

/-! Kiln starts (R55 steps 1 to 3) -/

/-- A staged change of the lifecycle is applied (R435). -/
def State.lifecycleApply (s : State) : State :=
  if s.flag Fld.IDN_LIFECYCLE.PENDING then
    let n := s.get Fld.IDN_LIFECYCLE.PENDING_STATE
    let s1 := (s.sets [] [(Fld.IDN_LIFECYCLE.STATE, n), (Fld.IDN_LIFECYCLE.PENDING, 0), (Fld.IDN_LIFECYCLE.PENDING_STATE, 0)]).slotsZero.wipeSecure
    if n = 4 then s1.klnUpd (fun k => { k with owners := List.replicate 4 none }) else s1
  else s

/-- KILN_BOOT (R55 steps 1 to 3, R57, R433, R435, R436, R523): Kiln starts. `rom` says that its ROM checks, `fuses` that the fuses encode a state and agree
with the store, `puf` that the PUF key is reconstructed, `mac` that the store's MAC holds; `flash` is 0 for a flash that cannot be read, 1 in single
mode, 2 in octal mode. -/
def execKilnBoot (rom fuses puf mac : Bool) (flash : Nat) (s : State) : Host.Outcome State Fault Refusal :=
  .next (if s.mode = 1 ∧ s.boot.phase = .kiln then
      let life := s.lifecycle
      let looped := s.flag Fld.AO_STATUS.BRINGUP_FAIL
      let s1 := (s.bootUpd (fun b => { b with ctReady := true, phase := .stopped })).pwrUpd (fun p => { p with wakeOpen := false })
      if ¬ rom then s1.lockdown 2
      else if ¬ fuses then s1.lockdown 3
      else if ¬ puf ∧ life ≠ 4 then s1.lockdown 2
      else if ¬ mac ∧ life ≠ 4 then s1.lockdown 3
      else
        let s2 := (((s1.klnUpd (fun k => { k with trngFails := 0, trngFailed := false, reseedAt := s.now })).lifecycleApply).nonceNew).keysShow
        let s3 := if s.ports.perst then s2.hostPresent else s2
        if looped then s3.raiseStop
        else if ¬ (s3.lifecycle = 1 ∨ s3.lifecycle = 2) ∨ s3.owners.isEmpty = true then s3.bringStop 1
        else if flash = 0 then s3.bringStop 0xF
        else (s3.set Fld.XIO_SPI_STAT.OCTAL [] (b2n (flash == 2))).slotSelect
    else s)

/-! Cords (R55 step 5) -/

/-- The bytes of the cord at a place of the directory, and whether they have arrived. -/
def State.cordBytes (s : State) (i : Nat) : Bytes := s.img (dirOff s.imgHead i) (dirLen s.imgHead i)
@[inherit_doc State.cordBytes] def State.cordHere (s : State) (i : Nat) : Bool :=
  s.imgSlot.isSome || decide (dirOff s.imgHead i + dirLen s.imgHead i ≤ s.push.data.length)

/-- The regions that a directory marks present. -/
def headRegions (head : Bytes) : List Nat := ((dirPresents head).map dirCord).filter (· < 8)

/-- What the checks of the cord at place `i` know, with the records of other cords. -/
def State.cordCtx (s : State) (recs : List PlanRec) (final : Bool) : CordCtx :=
  { recs := recs, present := headRegions s.imgHead, life := s.lifecycle, last := cordsTo s.imgHead, imageLen := headLen s.imgHead, final := final }

/-- The last place of a present cord. -/
def lastPlace (head : Bytes) : Nat := (dirPresents head).foldl max 0

/-- The cord at place `i` is checked and applied; the reason of a failure, 0 for none. -/
def State.cordDo (s : State) (i stage : Nat) (dramOk vioOk : Bool) : Nat × State :=
  let head := s.imgHead
  let cord := dirCord i
  let b := s.cordBytes i
  let s1 := if i = 0 then { s with plan := { head := head, present := headRegions head, recs := [] } } else s
  if Config.sha384 b ≠ dirDigest head i then (8, s1)
  else
    let c := cordReason (s1.cordCtx s1.plan.recs (i == lastPlace head)) cord b
    if c ≠ 0 then (c, s1)
    else
      let s2 := { s1 with plan := { s1.plan with recs := s1.plan.recs ++ (cordRecs cord b).getD [] } }
      if cord = 8 then (0, s2)
      else
        let x := s2.regionApply cord stage dramOk vioOk
        (x.1, if x.1 = 0 ∧ cord < 4 then x.2.setChosen cord 0 else x.2)

/-- The bring-up ends in Service (R33, R53, R56, R63, R506). -/
def State.serviceEnter (s : State) : State :=
  let head := s.plan.head
  let src := s.boot.src
  let floor := if headSetFloor head then max (s.reg .AO_SERIAL_FLOOR).toNat (headSerial head) else (s.reg .AO_SERIAL_FLOOR).toNat
  let s1 := s.sets [] [(Fld.AO_STATUS.BRINGUP_FAIL, 0), (Fld.AO_STATUS.BRINGUP_REASON, 0), (Fld.AO_BOOT_INFO.SLOT_USED, src)]
  let s2 := ((s1.setReg .AO_IMAGE_SERIAL [] (w32 (headSerial head))).setReg .AO_SERIAL_FLOOR [] (w32 floor)).alertForget 1
  let s3 := ((s2.setMode 3).ashBringup 0).bootUpd (fun b => { b with phase := .done, carried := 0 })
  let s4 := (s3.portUpd (fun p => { p with hostStored := some s.hostPlan })).dfsRestore
  ((if src = 3 then s4.pushEnd 0 else s4).pathsCheck).coexSettle

/-- What follows a cord or the firmware: the firmware of a stored image once CT's cord is applied, the next cord, the firmware of a pushed image, Service. -/
def State.bootNext (s : State) (fromFirmware : Bool) : State :=
  let pushed := s.boot.src == 3
  let more := (nextPlace s.plan.head s.boot.cord).isSome
  if ¬ fromFirmware ∧ ((pushed ∧ ¬ more) ∨ (¬ pushed ∧ s.boot.cord = 3)) then s.bootUpd (fun b => { b with phase := .firmware })
  else if more then s.bootUpd (fun b => { b with phase := .cords })
  else s.serviceEnter

/-- CORD_APPLY (R36, R40 to R47, R55 step 5): the next cord is read (`readOk`), checked, its region woken and its records applied. -/
def execCordApply (readOk : Bool) (stage : Nat) (dramOk vioOk : Bool) (s : State) : Host.Outcome State Fault Refusal :=
  .next (if s.mode = 1 ∧ s.boot.phase = .cords then
      match nextPlace s.imgHead s.boot.cord with
      | none => s
      | some i =>
        if ¬ s.cordHere i then s
        else if s.imgSlot.isSome ∧ ¬ readOk then (s.bringFail 0xF).pushGo
        else
          let x := s.cordDo i stage dramOk vioOk
          (if x.1 ≠ 0 then x.2.bringFail x.1 else (x.2.bootUpd (fun b => { b with cord := i + 1 })).bootNext false).pushGo
    else s)

/-- FIRMWARE_LOAD (R378, R442): the firmware is read (`readOk`), checked against FW_DIGEST, and core 0 starts at ENTRY. -/
def execFirmwareLoad (readOk : Bool) (s : State) : Host.Outcome State Fault Refusal :=
  .next (
    let b := s.body 6 0x35
    let fw := s.img (leAt b 4 4) (leAt b 8 4)
    if s.mode = 1 ∧ s.boot.phase = .firmware ∧ (s.imgSlot.isSome = true ∨ headLen s.push.data ≤ s.push.data.length) then
      (if s.imgSlot.isSome ∧ ¬ readOk then s.bringFail 0xF
       else if Config.sha384 fw ≠ slice b 0x20 48 then s.bringFail 8
       else
         let e := leAt b 0x18 8
         let s1 := ((s.memPut (leAt b 0x10 8) fw).setReg .APC_CORE_START_LO [0] (w32 (e % 2 ^ 32))).setReg .APC_CORE_START_HI [0] (w32 (e / 2 ^ 32))
         (s1.coreStart 0).bootNext true).pushGo
    else s)

/-! Reload of a region's cord (R61 to R63) -/

/-- A reload waits to be applied: its image has verified and, where it is pushed, arrived. -/
def State.reloadDue (s : State) : Bool :=
  s.serving && s.push.reloading == some s.push.region && s.push.verified
    && (decide (6 ≤ s.push.op) || (s.push.op == 3 && decide (headLen s.push.data ≤ s.push.data.length)))

/-- The cord of region `r` in the image in use is applied in place of the running one; the old image stays where that fails. -/
def State.reloadDo (s : State) (r stage : Nat) (vioOk : Bool) : Nat × State :=
  let head := s.imgHead
  let i := dirPlace r
  let b := s.cordBytes i
  let other := s.plan.recs.filter (fun x => x.cord != r)
  if ¬ (dirPresents head).all (fun k => Config.sha384 (s.cordBytes k) == dirDigest head k) then (8, s)
  else
    let c := cordReason (s.cordCtx other true) r b
    if c ≠ 0 then (c, s)
    else
      let kept := s.regs.filter (fun e => keyRegion e.1 == r && mirrored (keyAddr e.1))
      let plan := { s.plan with head := head, recs := other ++ (cordRecs r b).getD [] }
      let s1 := { s.regionDown r with plan := plan }
      let x : Nat × State := State.regionApply s1 r stage true vioOk
      if x.1 = 0 then x
      else
        let off := { x.2.regionDown r with plan := s.plan }
        (x.1, kept.foldl (fun t e => { t with regs := sset resetWord t.regs e.1 e.2 }) off)

/-- The reload is done (R50, R61, R63): the region leaves FENCE_MASK; roles return at the grid instant, or R49 is applied to what is still fenced.
A chosen stack that the new cord lacks becomes stack 0 (DESIGN CHOICE, notes/assumptions/68.md). -/
def State.reloadDone (s : State) (r : Nat) : State :=
  let mask := maskClr (s.get Fld.AO_STATUS.FENCE_MASK) r
  let s1 := (s.set Fld.AO_STATUS.FENCE_MASK [] mask).setReg .AO_IMAGE_SERIAL [] (w32 (headSerial s.plan.head))
  let s2 := (s1.pushUpd (fun p => { p with reloading := none })).radUpd (fun x => { x with awaiting := if r < 4 then r :: x.awaiting else x.awaiting })
  let s3 := if r < 4 ∧ (s2.stackOf r (s2.chosenIdx r)).isNone then s2.setChosen r 0 else s2
  let s4 := if r = 4 then s3.dfsRestore else s3
  let s5 := if mask = 0 then (s4.twtReturn.setMode 3).alertForget 3 else s4
  let s6 := if s5.fencedFor.isEmpty then s5.radUpd (fun x => { x with returnAt := some (gridNext s5.linkPlan (s5.netTime + 1000000)), fallbackDue := false })
    else s5.fallback
  ((s6.pathsCheck).coexSettle).pushEnd 0

/-- REGION_RELOAD (R61 to R63): the target of a reload whose image has verified is powered down, gets its new cord and is released; `stage` below 4 is the
wake stage that times out. -/
def execRegionReload (readOk : Bool) (stage : Nat) (vioOk : Bool) (s : State) : Host.Outcome State Fault Refusal :=
  .next (if s.reloadDue then
      let r := s.push.region
      (if 6 ≤ s.push.op ∧ ¬ readOk then s.reloadFail 0xF
       else
         let x := s.reloadDo r stage vioOk
         if x.1 ≠ 0 then x.2.reloadFail x.1 else x.2.reloadDone r).pushGo
    else s)

end Sys2Proof.Machine
end

