-- ==== Sys2Proof/Machine/Dispatch.lean ====
section
/-! DEFINITION. The one arm per command: each calls the meaning of its row of spec/opcode_table.json. -/
namespace Sys2Proof.Machine

/-- The effect of a command on everything but the queue. -/
def exec (cmd : Instr) (s : State) : Host.Outcome State Fault Refusal :=
  match cmd with
  | .registerWrite rq addr size v => Sys2Proof.Machine.execRegisterWrite rq addr size v s
  | .counterRead rq addr size sameCycle => Sys2Proof.Machine.execCounterRead rq addr size sameCycle s
  | .resultRead rq addr size same => Sys2Proof.Machine.execResultRead rq addr size same s
  | .accessTimeout rq a => Sys2Proof.Machine.execAccessTimeout rq a s
  | .crossbarTimeout rq a => Sys2Proof.Machine.execCrossbarTimeout rq a s
  | .controlStorageEcc rq a => Sys2Proof.Machine.execControlStorageEcc rq a s
  | .fallbackReturn => Sys2Proof.Machine.execFallbackReturn s
  | .tamper n => Sys2Proof.Machine.execTamper n s
  | .kilnDetectorTrip => Sys2Proof.Machine.execKilnDetectorTrip s
  | .vinAoRise => Sys2Proof.Machine.execVinAoRise s
  | .vinAoLoss => Sys2Proof.Machine.execVinAoLoss s
  | .vinMainPresent => Sys2Proof.Machine.execVinMainPresent s
  | .vinMainLoss high => Sys2Proof.Machine.execVinMainLoss high s
  | .thermalTrip die => Sys2Proof.Machine.execThermalTrip die s
  | .thermalWakeRelease temp => Sys2Proof.Machine.execThermalWakeRelease temp s
  | .railFault rail kind mv => Sys2Proof.Machine.execRailFault rail kind mv s
  | .sleepOscFirstTick => Sys2Proof.Machine.execSleepOscFirstTick s
  | .slpRatioMeasure => Sys2Proof.Machine.execSlpRatioMeasure s
  | .timeRecordWrite => Sys2Proof.Machine.execTimeRecordWrite s
  | .setPoint rq v => Sys2Proof.Machine.execSetPoint rq v s
  | .islandChange rq v => Sys2Proof.Machine.execIslandChange rq v s
  | .railReady => Sys2Proof.Machine.execRailReady s
  | .deferredChangeRelease => Sys2Proof.Machine.execDeferredChangeRelease s
  | .sleepBanked rq v => Sys2Proof.Machine.execSleepBanked rq v s
  | .sleepDormant rq v => Sys2Proof.Machine.execSleepDormant rq v s
  | .sleepCancel rq v => Sys2Proof.Machine.execSleepCancel rq v s
  | .phase1Answer => Sys2Proof.Machine.execPhase1Answer s
  | .phase1Timeout => Sys2Proof.Machine.execPhase1Timeout s
  | .sleepRetry => Sys2Proof.Machine.execSleepRetry s
  | .smbusAddressMatch addr write => Sys2Proof.Machine.execSmbusAddressMatch addr write s
  | .wakeUpFrame id => Sys2Proof.Machine.execWakeUpFrame id s
  | .gpioWake n => Sys2Proof.Machine.execGpioWake n s
  | .timerWake => Sys2Proof.Machine.execTimerWake s
  | .wakeStageReady r vioOk => Sys2Proof.Machine.execWakeStageReady r vioOk s
  | .wakeStageTimeout r => Sys2Proof.Machine.execWakeStageTimeout r s
  | .kilnBoot rom fuses puf mac flash => Sys2Proof.Machine.execKilnBoot rom fuses puf mac flash s
  | .imageVerify readOk => Sys2Proof.Machine.execImageVerify readOk s
  | .cordApply readOk stage dramOk vioOk => Sys2Proof.Machine.execCordApply readOk stage dramOk vioOk s
  | .firmwareLoad readOk => Sys2Proof.Machine.execFirmwareLoad readOk s
  | .pushAbort rq v => Sys2Proof.Machine.execPushAbort rq v s
  | .openBoot rq v => Sys2Proof.Machine.execOpenBoot rq v s
  | .openReload rq v => Sys2Proof.Machine.execOpenReload rq v s
  | .openStoreA rq v => Sys2Proof.Machine.execOpenStoreA rq v s
  | .openStoreB rq v => Sys2Proof.Machine.execOpenStoreB rq v s
  | .reloadFromA rq v => Sys2Proof.Machine.execReloadFromA rq v s
  | .reloadFromB rq v => Sys2Proof.Machine.execReloadFromB rq v s
  | .aoPushData rq v => Sys2Proof.Machine.execAoPushData rq v s
  | .enrolment => Sys2Proof.Machine.execEnrolment s
  | .regionReload readOk stage vioOk => Sys2Proof.Machine.execRegionReload readOk stage vioOk s
  | .restackRequest rq v => Sys2Proof.Machine.execRestackRequest rq v s
  | .restackCancel rq v => Sys2Proof.Machine.execRestackCancel rq v s
  | .restackBoundary => Sys2Proof.Machine.execRestackBoundary s
  | .restackGapEnd => Sys2Proof.Machine.execRestackGapEnd s
  | .pfClr rq q p v => Sys2Proof.Machine.execPfClr rq q p v s
  | .ppduTransmitRequest l r launch air punct => Sys2Proof.Machine.execPpduTransmitRequest l r launch air punct s
  | .transmissionStart id vecs => Sys2Proof.Machine.execTransmissionStart id vecs s
  | .lateTolExpiry id => Sys2Proof.Machine.execLateTolExpiry id s
  | .transmissionEnd id => Sys2Proof.Machine.execTransmissionEnd id s
  | .loLock q k => Sys2Proof.Machine.execLoLock q k s
  | .lockLost q k => Sys2Proof.Machine.execLockLost q k s
  | .loRestart q k => Sys2Proof.Machine.execLoRestart q k s
  | .refclkLost => Sys2Proof.Machine.execRefclkLost s
  | .refclkRestore => Sys2Proof.Machine.execRefclkRestore s
  | .asyncPulse misaligned => Sys2Proof.Machine.execAsyncPulse misaligned s
  | .ebufSlip g n => Sys2Proof.Machine.execEbufSlip g n s
  | .asyncLost => Sys2Proof.Machine.execAsyncLost s
  | .asyncInResume displaced => Sys2Proof.Machine.execAsyncInResume displaced s
  | .fenRffeCmd rq q v => Sys2Proof.Machine.execFenRffeCmd rq q v s
  | .rffeCommandDone q k data perr => Sys2Proof.Machine.execRffeCommandDone q k data perr s
  | .fenRffeRsp rq q => Sys2Proof.Machine.execFenRffeRsp rq q s
  | .rffePoll q n pid parity => Sys2Proof.Machine.execRffePoll q n pid parity s
  | .vioOvercurrent q => Sys2Proof.Machine.execVioOvercurrent q s
  | .vioEn rq q v => Sys2Proof.Machine.execVioEn rq q v s
  | .biasShort q p => Sys2Proof.Machine.execBiasShort q p s
  | .biasOpen q p => Sys2Proof.Machine.execBiasOpen q p s
  | .fastline q p => Sys2Proof.Machine.execFastline q p s
  | .coexReqRise n pri bnd => Sys2Proof.Machine.execCoexReqRise n pri bnd s
  | .coexReqFall n => Sys2Proof.Machine.execCoexReqFall n s
  | .maxDefer q n => Sys2Proof.Machine.execMaxDefer q n s
  | .coexFault q n => Sys2Proof.Machine.execCoexFault q n s
  | .coexPortReturn n => Sys2Proof.Machine.execCoexPortReturn n s
  | .dutyBucketClose => Sys2Proof.Machine.execDutyBucketClose s
  | .afcExpired => Sys2Proof.Machine.execAfcExpired s
  | .txfCommit rq q v => Sys2Proof.Machine.execTxfCommit rq q v s
  | .beamIdNamed q route id => Sys2Proof.Machine.execBeamIdNamed q route id s
  | .beamRecordFetch q route id => Sys2Proof.Machine.execBeamRecordFetch q route id s
  | .beamCommit rq q v => Sys2Proof.Machine.execBeamCommit rq q v s
  | .dpdCommit rq q p v => Sys2Proof.Machine.execDpdCommit rq q p v s
  | .crossfade q p tx => Sys2Proof.Machine.execCrossfade q p tx s
  | .orxVisitStart q r => Sys2Proof.Machine.execOrxVisitStart q r s
  | .orxVisitEnd q r pFwd pRev lo hi fwd => Sys2Proof.Machine.execOrxVisitEnd q r pFwd pRev lo hi fwd s
  | .antRetry q p => Sys2Proof.Machine.execAntRetry q p s
  | .orxCapPop rq q => Sys2Proof.Machine.execOrxCapPop rq q s
  | .orxSlotFree rq q v => Sys2Proof.Machine.execOrxSlotFree rq q v s
  | .calRun rq q v => Sys2Proof.Machine.execCalRun rq q v s
  | .calAbort rq q v => Sys2Proof.Machine.execCalAbort rq q v s
  | .calEstimate q p n w moved => Sys2Proof.Machine.execCalEstimate q p n w moved s
  | .calOffer q owner => Sys2Proof.Machine.execCalOffer q owner s
  | .calWindowStart q => Sys2Proof.Machine.execCalWindowStart q s
  | .calDone q exhausted => Sys2Proof.Machine.execCalDone q exhausted s
  | .calRebook q => Sys2Proof.Machine.execCalRebook q s
  | .calForced q => Sys2Proof.Machine.execCalForced q s
  | .orxElementReselect q r elem meets => Sys2Proof.Machine.execOrxElementReselect q r elem meets s
  | .calCommit rq q => Sys2Proof.Machine.execCalCommit rq q s
  | .calLoad rq q => Sys2Proof.Machine.execCalLoad rq q s
  | .calRed rq q v => Sys2Proof.Machine.execCalRed rq q v s
  | .calExport rq q v => Sys2Proof.Machine.execCalExport rq q v s
  | .calRestore rq q v => Sys2Proof.Machine.execCalRestore rq q v s
  | .hkaResult c n codes => Sys2Proof.Machine.execHkaResult c n codes s
  | .hkaPop rq => Sys2Proof.Machine.execHkaPop rq s
  | .plausFail code0 code1 => Sys2Proof.Machine.execPlausFail code0 code1 s
  | .preambleDetect l rssi dsss subs age beams => Sys2Proof.Machine.execPreambleDetect l rssi dsss subs age beams s
  | .signalField l f p => Sys2Proof.Machine.execSignalField l f p s
  | .phyRestart l rssi dsss subs age => Sys2Proof.Machine.execPhyRestart l rssi dsss subs age s
  | .phyCapture l rssi dsss subs age => Sys2Proof.Machine.execPhyCapture l rssi dsss subs age s
  | .ppduEnd l => Sys2Proof.Machine.execPpduEnd l s
  | .falseStartHoldEnd l below => Sys2Proof.Machine.execFalseStartHoldEnd l below s
  | .ccaStuck l => Sys2Proof.Machine.execCcaStuck l s
  | .codewordDecoded d zero arrivals => Sys2Proof.Machine.execCodewordDecoded d zero arrivals s
  | .channelEstimate l u first exp snr tones => Sys2Proof.Machine.execChannelEstimate l u first exp snr tones s
  | .sndEstPop rq => Sys2Proof.Machine.execSndEstPop rq s
  | .sndSlotFree rq v => Sys2Proof.Machine.execSndSlotFree rq v s
  | .beamformingReport l sta stamp first glog nr nc bphi bpsi snr angles => Sys2Proof.Machine.execBeamformingReport l sta stamp first glog nr nc bphi bpsi snr angles s
  | .radarPulse l sub dbm width age chirp => Sys2Proof.Machine.execRadarPulse l sub dbm width age chirp s
  | .cacStart rq l v => Sys2Proof.Machine.execCacStart rq l v s
  | .cacExpiry l i => Sys2Proof.Machine.execCacExpiry l i s
  | .nopExpiry l i => Sys2Proof.Machine.execNopExpiry l i s
  | .dfsMapSave => Sys2Proof.Machine.execDfsMapSave s
  | .phyDfsPop rq l => Sys2Proof.Machine.execPhyDfsPop rq l s
  | .wacTableLoad rq => Sys2Proof.Machine.execWacTableLoad rq s
  | .wacTableCommit rq => Sys2Proof.Machine.execWacTableCommit rq s
  | .wacTableClear rq => Sys2Proof.Machine.execWacTableClear rq s
  | .tbtt l => Sys2Proof.Machine.execTbtt l s
  | .msduDelivery => Sys2Proof.Machine.execMsduDelivery s
  | .frameLifetime i => Sys2Proof.Machine.execFrameLifetime i s
  | .edcaBackoffExpiry l ac air take => Sys2Proof.Machine.execEdcaBackoffExpiry l ac air take s
  | .bsrpTrigger l air => Sys2Proof.Machine.execBsrpTrigger l air s
  | .wacBsrPop rq => Sys2Proof.Machine.execWacBsrPop rq s
  | .twtSpStart i air => Sys2Proof.Machine.execTwtSpStart i air s
  | .twtTriggerRepeat i air => Sys2Proof.Machine.execTwtTriggerRepeat i air s
  | .twtWindowClose sid => Sys2Proof.Machine.execTwtWindowClose sid s
  | .mpduReceive l i last m => Sys2Proof.Machine.execMpduReceive l i last m s
  | .reorderTimeout a => Sys2Proof.Machine.execReorderTimeout a s
  | .mtxDescriptorFetch air => Sys2Proof.Machine.execMtxDescriptorFetch air s
  | .wacMtxCplPop rq => Sys2Proof.Machine.execWacMtxCplPop rq s
  | .wacMrxFree rq v => Sys2Proof.Machine.execWacMrxFree rq v s
  | .quietWindowCts q l air => Sys2Proof.Machine.execQuietWindowCts q l air s
  | .afcInstall rq => Sys2Proof.Machine.execAfcInstall rq s
  | .afcClear rq => Sys2Proof.Machine.execAfcClear rq s
  | .fhFrameReceive f => Sys2Proof.Machine.execFhFrameReceive f s
  | .dlRun => Sys2Proof.Machine.execDlRun s
  | .ulUPlaneSend i adc => Sys2Proof.Machine.execUlUPlaneSend i adc s
  | .fhTimeFault => Sys2Proof.Machine.execFhTimeFault s
  | .fhResume => Sys2Proof.Machine.execFhResume s
  | .fhuRetPop rq => Sys2Proof.Machine.execFhuRetPop rq s
  | .fhuRetFree rq v => Sys2Proof.Machine.execFhuRetFree rq v s
  | .lrcPreambleDetect c sf age rssi => Sys2Proof.Machine.execLrcPreambleDetect c sf age rssi s
  | .lrcHeader c sync len ctl crc => Sys2Proof.Machine.execLrcHeader c sync len ctl crc s
  | .lrcCapture c sf age rssi => Sys2Proof.Machine.execLrcCapture c sf age rssi s
  | .lrcFrameEnd c age crc data snr cfo mram => Sys2Proof.Machine.execLrcFrameEnd c age crc data snr cfo mram s
  | .downlinkWindow1 num => Sys2Proof.Machine.execDownlinkWindow1 num s
  | .downlinkWindow2 num => Sys2Proof.Machine.execDownlinkWindow2 num s
  | .txaDlPush rq v => Sys2Proof.Machine.execTxaDlPush rq v s
  | .txaDlCplPop rq => Sys2Proof.Machine.execTxaDlCplPop rq s
  | .txaDlExpired i => Sys2Proof.Machine.execTxaDlExpired i s
  | .txaCtrData rq v => Sys2Proof.Machine.execTxaCtrData rq v s
  | .offsetFeedbackWrite => Sys2Proof.Machine.execOffsetFeedbackWrite s
  | .fbDefer => Sys2Proof.Machine.execFbDefer s
  | .ethFrameReceive p age fcs data => Sys2Proof.Machine.execEthFrameReceive p age fcs data s
  | .pauseEnd p => Sys2Proof.Machine.execPauseEnd p s
  | .passStart pipe => Sys2Proof.Machine.execPassStart pipe s
  | .passEnd n => Sys2Proof.Machine.execPassEnd n s
  | .flowBucketFetch b => Sys2Proof.Machine.execFlowBucketFetch b s
  | .flwVerCommit rq => Sys2Proof.Machine.execFlwVerCommit rq s
  | .flwCopy rq => Sys2Proof.Machine.execFlwCopy rq s
  | .drainEnd => Sys2Proof.Machine.execDrainEnd s
  | .flwLoad rq => Sys2Proof.Machine.execFlwLoad rq s
  | .flwWrite rq => Sys2Proof.Machine.execFlwWrite rq s
  | .flwClear rq => Sys2Proof.Machine.execFlwClear rq s
  | .flwInsert rq => Sys2Proof.Machine.execFlwInsert rq s
  | .flwDelete rq => Sys2Proof.Machine.execFlwDelete rq s
  | .agingScan => Sys2Proof.Machine.execAgingScan s
  | .swTxDescriptorFetch r => Sys2Proof.Machine.execSwTxDescriptorFetch r s
  | .swTxCplPop rq r => Sys2Proof.Machine.execSwTxCplPop rq r s
  | .swRxFree rq r v => Sys2Proof.Machine.execSwRxFree rq r v s
  | .packetStart p => Sys2Proof.Machine.execPacketStart p s
  | .tmgTableLoad rq => Sys2Proof.Machine.execTmgTableLoad rq s
  | .tmgTableWrite rq => Sys2Proof.Machine.execTmgTableWrite rq s
  | .tmgTableClear rq => Sys2Proof.Machine.execTmgTableClear rq s
  | .gateChangeOp rq p en len => Sys2Proof.Machine.execGateChangeOp rq p en len s
  | .gateCancelOp rq p en len => Sys2Proof.Machine.execGateCancelOp rq p en len s
  | .gateChangeDue p => Sys2Proof.Machine.execGateChangeDue p s
  | .gateEntryEnd p => Sys2Proof.Machine.execGateEntryEnd p s
  | .ntuTimeNs rq => Sys2Proof.Machine.execNtuTimeNs rq s
  | .ntuAdj rq => Sys2Proof.Machine.execNtuAdj rq s
  | .ntuSet rq => Sys2Proof.Machine.execNtuSet rq s
  | .ntuForceAdj rq => Sys2Proof.Machine.execNtuForceAdj rq s
  | .ntuForceSet rq => Sys2Proof.Machine.execNtuForceSet rq s
  | .ntuHoldover rq => Sys2Proof.Machine.execNtuHoldover rq s
  | .ntuUnlock rq => Sys2Proof.Machine.execNtuUnlock rq s
  | .ntuArm rq => Sys2Proof.Machine.execNtuArm rq s
  | .ntuArmExpiry => Sys2Proof.Machine.execNtuArmExpiry s
  | .slewEnd => Sys2Proof.Machine.execSlewEnd s
  | .servoWatchdog => Sys2Proof.Machine.execServoWatchdog s
  | .timeRateWrite rq v => Sys2Proof.Machine.execTimeRateWrite rq v s
  | .ppsOutPulse => Sys2Proof.Machine.execPpsOutPulse s
  | .ppsIn => Sys2Proof.Machine.execPpsIn s
  | .tsyncInEdge rising => Sys2Proof.Machine.execTsyncInEdge rising s
  | .ntuTsyncStart rq v => Sys2Proof.Machine.execNtuTsyncStart rq v s
  | .tsyncOutPulse => Sys2Proof.Machine.execTsyncOutPulse s
  | .ntuCapStat rq => Sys2Proof.Machine.execNtuCapStat rq s
  | .ntuTxtsPop rq => Sys2Proof.Machine.execNtuTxtsPop rq s
  | .ptmRequest rq => Sys2Proof.Machine.execPtmRequest rq s
  | .ptmResponse master delay => Sys2Proof.Machine.execPtmResponse master delay s
  | .ptmTimeout => Sys2Proof.Machine.execPtmTimeout s
  | .synceSourceLoss => Sys2Proof.Machine.execSynceSourceLoss s
  | .synceRelock back => Sys2Proof.Machine.execSynceRelock back s
  | .coreStart rq c => Sys2Proof.Machine.execCoreStart rq c s
  | .coreReset rq c => Sys2Proof.Machine.execCoreReset rq c s
  | .regionCoreStart rq g => Sys2Proof.Machine.execRegionCoreStart rq g s
  | .regionCoreReset rq g => Sys2Proof.Machine.execRegionCoreReset rq g s
  | .tlyReady rq => Sys2Proof.Machine.execTlyReady rq s
  | .tlyDelay rq dlist => Sys2Proof.Machine.execTlyDelay rq dlist s
  | .tlyDlyCancel rq h => Sys2Proof.Machine.execTlyDlyCancel rq h s
  | .delayDue l e => Sys2Proof.Machine.execDelayDue l e s
  | .tlyPick rq => Sys2Proof.Machine.execTlyPick rq s
  | .reckonerDispatch k => Sys2Proof.Machine.execReckonerDispatch k s
  | .tlyDone rq v => Sys2Proof.Machine.execTlyDone rq v s
  | .tlyRelPop rq q => Sys2Proof.Machine.execTlyRelPop rq q s
  | .eventEdge n => Sys2Proof.Machine.execEventEdge n s
  | .eventBead n => Sys2Proof.Machine.execEventBead n s
  | .evtClaim rq => Sys2Proof.Machine.execEvtClaim rq s
  | .evtHclaim rq => Sys2Proof.Machine.execEvtHclaim rq s
  | .evtClr rq n => Sys2Proof.Machine.execEvtClr rq n s
  | .rknStart rq k => Sys2Proof.Machine.execRknStart rq k s
  | .rknStop rq k => Sys2Proof.Machine.execRknStop rq k s
  | .rknAcc rq k a l hi => Sys2Proof.Machine.execRknAcc rq k a l hi s
  | .rknNop k => Sys2Proof.Machine.execRknNop k s
  | .rknHalt k => Sys2Proof.Machine.execRknHalt k s
  | .rknLoop k => Sys2Proof.Machine.execRknLoop k s
  | .rknBrc k => Sys2Proof.Machine.execRknBrc k s
  | .rknDma k => Sys2Proof.Machine.execRknDma k s
  | .rknDmaComplete k i => Sys2Proof.Machine.execRknDmaComplete k i s
  | .rknDwait k => Sys2Proof.Machine.execRknDwait k s
  | .rknLd k => Sys2Proof.Machine.execRknLd k s
  | .rknSt k => Sys2Proof.Machine.execRknSt k s
  | .rknLde k => Sys2Proof.Machine.execRknLde k s
  | .rknSte k => Sys2Proof.Machine.execRknSte k s
  | .rknVadd k => Sys2Proof.Machine.execRknVadd k s
  | .rknVsub k => Sys2Proof.Machine.execRknVsub k s
  | .rknVmul k => Sys2Proof.Machine.execRknVmul k s
  | .rknVmac k => Sys2Proof.Machine.execRknVmac k s
  | .rknVmsu k => Sys2Proof.Machine.execRknVmsu k s
  | .rknAmov k => Sys2Proof.Machine.execRknAmov k s
  | .rknAclr k => Sys2Proof.Machine.execRknAclr k s
  | .rknVbfly k => Sys2Proof.Machine.execRknVbfly k s
  | .rknVsh k => Sys2Proof.Machine.execRknVsh k s
  | .rknSli k => Sys2Proof.Machine.execRknSli k s
  | .rknSlui k => Sys2Proof.Machine.execRknSlui k s
  | .rknSaddi k => Sys2Proof.Machine.execRknSaddi k s
  | .rknSadd k => Sys2Proof.Machine.execRknSadd k s
  | .rknSetp k => Sys2Proof.Machine.execRknSetp k s
  | .rknSetm k => Sys2Proof.Machine.execRknSetm k s
  | .sramScrub a outcome => Sys2Proof.Machine.execSramScrub a outcome s
  | .dramCommand c arrivals ecc line => Sys2Proof.Machine.execDramCommand c arrivals ecc line s
  | .throttleEnd c => Sys2Proof.Machine.execThrottleEnd c s
  | .dramRefresh c => Sys2Proof.Machine.execDramRefresh c s
  | .zqCalibration c => Sys2Proof.Machine.execZqCalibration c s
  | .dramTempPoll c rate => Sys2Proof.Machine.execDramTempPoll c rate s
  | .pageIdle c bank rank => Sys2Proof.Machine.execPageIdle c bank rank s
  | .dmcPanic c port lines write => Sys2Proof.Machine.execDmcPanic c port lines write s
  | .dmcRtStarve c port => Sys2Proof.Machine.execDmcRtStarve c port s
  | .getRandom => Sys2Proof.Machine.execGetRandom s
  | .klnAttest => Sys2Proof.Machine.execKlnAttest s
  | .getCert => Sys2Proof.Machine.execGetCert s
  | .klnImport => Sys2Proof.Machine.execKlnImport s
  | .klnDerive => Sys2Proof.Machine.execKlnDerive s
  | .deployToken => Sys2Proof.Machine.execDeployToken s
  | .returnToken => Sys2Proof.Machine.execReturnToken s
  | .scrapToken => Sys2Proof.Machine.execScrapToken s
  | .keyAdd => Sys2Proof.Machine.execKeyAdd s
  | .keyRevoke => Sys2Proof.Machine.execKeyRevoke s
  | .lockToken => Sys2Proof.Machine.execLockToken s
  | .debugToken => Sys2Proof.Machine.execDebugToken s
  | .slotWrite rq slot long => Sys2Proof.Machine.execSlotWrite rq slot long s
  | .slotClear rq slot => Sys2Proof.Machine.execSlotClear rq slot s
  | .gcmEnc r => Sys2Proof.Machine.execGcmEnc r s
  | .gcmDec r => Sys2Proof.Machine.execGcmDec r s
  | .gmacGen r => Sys2Proof.Machine.execGmacGen r s
  | .gmacVer r => Sys2Proof.Machine.execGmacVer r s
  | .ccmEnc r => Sys2Proof.Machine.execCcmEnc r s
  | .ccmDec r => Sys2Proof.Machine.execCcmDec r s
  | .xtsEnc r => Sys2Proof.Machine.execXtsEnc r s
  | .xtsDec r => Sys2Proof.Machine.execXtsDec r s
  | .cipCtr r => Sys2Proof.Machine.execCipCtr r s
  | .cmacGen r => Sys2Proof.Machine.execCmacGen r s
  | .cmacVer r => Sys2Proof.Machine.execCmacVer r s
  | .jobCompletion r => Sys2Proof.Machine.execJobCompletion r s
  | .cipCplPop rq r => Sys2Proof.Machine.execCipCplPop rq r s
  | .trngHealthFail => Sys2Proof.Machine.execTrngHealthFail s
  | .drbgReseed => Sys2Proof.Machine.execDrbgReseed s
  | .ashRecordWrite => Sys2Proof.Machine.execAshRecordWrite s
  | .coalesceClose i => Sys2Proof.Machine.execCoalesceClose i s
  | .incidentClose => Sys2Proof.Machine.execIncidentClose s
  | .ashRelease rq slot => Sys2Proof.Machine.execAshRelease rq slot s
  | .agingMeasure r slow => Sys2Proof.Machine.execAgingMeasure r slow s
  | .polarityRetry n => Sys2Proof.Machine.execPolarityRetry n s
  | .linkUp p speed pos eye => Sys2Proof.Machine.execLinkUp p speed pos eye s
  | .linkDown p => Sys2Proof.Machine.execLinkDown p s
  | .hlLink up reversed gen width => Sys2Proof.Machine.execHlLink up reversed gen width s
  | .perstRise => Sys2Proof.Machine.execPerstRise s
  | .perstFall => Sys2Proof.Machine.execPerstFall s
  | .functionLevelReset f => Sys2Proof.Machine.execFunctionLevelReset f s
  | .retryStatusEnd => Sys2Proof.Machine.execRetryStatusEnd s
  | .smbusWriteReg a v count pecOk => Sys2Proof.Machine.execSmbusWriteReg a v count pecOk s
  | .smbusSetAddr a burst count pecOk => Sys2Proof.Machine.execSmbusSetAddr a burst count pecOk s
  | .smbusRead => Sys2Proof.Machine.execSmbusRead s
  | .smbusStatus => Sys2Proof.Machine.execSmbusStatus s
  | .smbusPush d count pecOk => Sys2Proof.Machine.execSmbusPush d count pecOk s
  | .smbusAlertResponse => Sys2Proof.Machine.execSmbusAlertResponse s
  | .smbusSclTimeout => Sys2Proof.Machine.execSmbusSclTimeout s
  | .smbFault => Sys2Proof.Machine.execSmbFault s
  | .smbBusIdle => Sys2Proof.Machine.execSmbBusIdle s
  | .xspiRead rq v => Sys2Proof.Machine.execXspiRead rq v s
  | .xspiProgram rq v => Sys2Proof.Machine.execXspiProgram rq v s
  | .xspiErase4K rq v => Sys2Proof.Machine.execXspiErase4K rq v s
  | .xspiErase64K rq v => Sys2Proof.Machine.execXspiErase64K rq v s
  | .xspiDone ok => Sys2Proof.Machine.execXspiDone ok s
  | .jtagIdcode => Sys2Proof.Machine.execJtagIdcode s
  | .jtagBypass => Sys2Proof.Machine.execJtagBypass s
  | .gpioEdge n level => Sys2Proof.Machine.execGpioEdge n level s
  | .energyDetect l sub dbm gi => Sys2Proof.Machine.execEnergyDetect l sub dbm gi s
  | .regionCoreTrap g pc => Sys2Proof.Machine.execRegionCoreTrap g pc s
  | .sleepOscillatorStop => Sys2Proof.Machine.execSleepOscillatorStop s
  | .configurationRequest f q => Sys2Proof.Machine.execConfigurationRequest f q s

end Sys2Proof.Machine
end

