-- ==== Sys2Proof/Machine/Tick.lean ====
section
/-! DEFINITION. The passing of one nanosecond, which is what a step does on an empty queue (DESIGN CHOICE,
notes/assumptions/1.md). -/
namespace Sys2Proof.Machine

/-- The raw counter after one more sleep-counter edge while REFCLK is absent (R367): SLP_RATIO is ns in units of 2^-16. -/
def Ntu.slpEdges (n : Ntu) (ratio edges : Nat) : Ntu :=
  { n with raw := n.raw + (n.rawFrac + edges * ratio) / 65536, rawFrac := (n.rawFrac + edges * ratio) % 65536 }

/-- One nanosecond passes: the time since power-on and, while REFCLK is present, the raw counter advance by 1 (R352); while
REFCLK is absent the raw counter advances at the sleep counter's edges (R367). A grant record whose check has ended is installed (R239). -/
def tick (s : State) : State :=
  let s1 := { s with now := s.now + 1 }
  State.afcTick (if s.ntu.running then
    if s.pwr.refclk then s1.ntuUpd (fun n => { n with raw := n.raw + 1 })
    else s1.ntuUpd (fun n => n.slpEdges (s.reg .NTU_SLP_RATIO).toNat (s1.slpTicks - s.slpTicks))
  else s1)

end Sys2Proof.Machine
end

