-- ==== Sys2Proof/Safety.lean ====
section
/-! DEFINITION. The terms in which claims about the part are made: what it is for a command to complete, which accesses pass the judgement of R547, what
a well-kept state is, and which parts of the state are the same in two states. -/
namespace Sys2Proof.Machine

/-- The command completes on `s`: exec answers a next state, and `P` holds of it. -/
def Completes (c : Instr) (s : State) (P : State → Prop) : Prop := ∃ t, exec c s = .next t ∧ P t

/-- An access of `rq` to a register passes the checks that every access passes (steps 1 to 5 of R547): the part is awake, the mode and region rules of R30
allow it, the requester may make it, and, of a write, the register is not locked (R5). The register's own unit may add checks of the value. -/
abbrev Passes (s : State) (rq : Req) (r : Reg) (ix : List Nat) (wr : Bool) : Prop :=
  s.mode ≠ 0 ∧ modeCode s rq (r.addr ix) wr = 0 ∧ denied rq r (r.addr ix) wr = false ∧ (wr = true → rwlLocked s r ix = false)

/-- `ix` is an instance of register `r`, which stands at its address in a listed block of the register space (R3, R18). -/
abbrev Reg.placed (r : Reg) (ix : List Nat) : Prop :=
  findReg (r.addr ix) = some (r, ix) ∧ r.addr ix % 4 = 0 ∧ r.addr ix < 0x8000000 ∧ aBlock (r.addr ix) < blockCount (aRegion (r.addr ix))

/-- A quadrant has its fixed numbers of things: two synthesisers, 16 paths, four RFFE buses with their counts of answers, 16 poll entries, two receivers,
four elastic buffers. -/
abbrev Quad.shaped (d : Quad) : Prop :=
  d.syns.length = 2 ∧ d.paths.length = 16 ∧ d.rffeQ.length = 4 ∧ d.polled.length = 16 ∧ d.pollMiss.length = 4 ∧ d.pollHit.length = 4 ∧ d.visits.length = 2
    ∧ d.ebufs.length = 4

/-- The part has its fixed numbers of units: four quadrants of their shape, three coexistence ports with four consents each, three PHYs, three links of the access
controller, 16 demodulators, 32 reckoners. -/
abbrev State.shaped (s : State) : Prop :=
  s.radio.quads.length = 4 ∧ (∀ d ∈ s.radio.quads, d.shaped) ∧ s.radio.coex.length = 3 ∧ (∀ c ∈ s.radio.coex, c.consent.length = 4)
    ∧ s.bb.phys.length = 3 ∧ s.wac.links.length = 3 ∧ s.txa.demods.length = 16 ∧ s.rkns.length = 32

/-- The last access was `rq`'s and completed with OK and data `d` (R488). -/
abbrev State.answered (t : State) (rq : Req) (d : Word) : Prop := t.resp = some ⟨rq, 0, d⟩

/-- The quadrants that a write of RGC_RESTACK_CTL names, with their target stacks (R68). -/
def restackTargets (v : Word) : List (Nat × Nat) :=
  ((List.range 4).filter (fun q => bitOf (wbits v 7 4) q)).map (fun q => (q, wbits v (2 * q + 9) (2 * q + 8)))

/-- R68 refuses a re-stack of the quadrants `qs` at network time `at_` for none of its reasons: it is 1 ms ahead and on the grid, the stacks exist, no quadrant
is fenced, under reload or in a gap, none is pending, and the part is in Service or Fenced. -/
abbrev State.restackOk (s : State) (at_ : Int) (qs : List (Nat × Nat)) : Prop :=
  s.netTime + 1000000 ≤ at_ ∧ isGrid s.linkPlan at_ = true ∧ qs ≠ [] ∧ s.radio.request = none ∧ s.inRequest = false ∧ s.serving = true
    ∧ ∀ e ∈ qs, (s.stackOf e.1 e.2).isSome = true ∧ s.fenced e.1 = false ∧ s.push.reloading ≠ some e.1 ∧ e.1 ∉ s.radio.awaiting
      ∧ ∀ g ∈ s.radio.gaps, ∀ x ∈ g.qs, x.1 ≠ e.1

/-- The gap of a change of the quadrants `qs` to their stacks, begun now: its length, the paths that it affects and the links among them (R66, R67). -/
def State.gapOfNow (s : State) (qs : List (Nat × Nat)) (request : Bool) : Gap :=
  let aff := ((qs.map (fun e => s.stackAffects e.1 e.2)).flatten).map (·.1)
  ⟨qs, s.now, s.now + 1000 * s.gapUs qs, request, aff, (List.range 3).filter (fun l => aff.any (fun g => s.pathRole g == l + 1))⟩

/-- The quadrants that run and are away from their chosen stack, or wait for the instant of return, with that stack (R50). -/
def State.returning (s : State) : List (Nat × Nat) :=
  ((List.range 4).filter (fun q => s.running q && (s.chosenIdx q != s.curIdx q || s.radio.awaiting.contains q))).map (fun q => (q, s.chosenIdx q))

/-- The signal field stands where the receiver expects it (R176). -/
def sigInTurn (x : PhyRx) : SigField → Bool
  | .lsig .. => x.stage == 0
  | .rlsig | .htSig .. | .vhtSig .. => x.stage == 1
  | .sigA .. => x.stage == 2
  | .sigB .. => x.stage == 3
  | .plcp .. => x.stage == 9

/-- The check of R176 that a signal field of OFDM gets, of a PPDU of format `fmt` (0 DSSS, 1 non-HT, 2 HT, 3 VHT, 4 to 7 HE, 8 and 9 EHT). -/
def sigPasses (x : PhyRx) (fmt : Nat) : SigField → Bool
  | .lsig even rate length tail => even && rate != 0 && decide (1 ≤ length) && tail
  | .rlsig => decide (x.rate = 6 ∧ ((4 ≤ fmt ∧ fmt ≤ 7 ∧ x.length % 3 ≠ 0) ∨ ((fmt = 8 ∨ fmt = 9) ∧ x.length % 3 = 0)))
  | .htSig crc | .vhtSig crc | .sigA crc | .sigB crc => crc
  | .plcp .. => false

/-- The check of this field is the last one that applies to the PPDU (R176). -/
def sigIsLast (fmt : Nat) : SigField → Bool
  | .lsig .. => fmt == 1
  | .rlsig => false
  | .sigA .. => fmt != 6 && fmt != 8
  | .htSig .. | .vhtSig .. | .sigB .. | .plcp .. => true

/-- The reception with a passed field that is not the last noted: L-SIG gives rate, length and the computed end. -/
def sigNoted (x : PhyRx) : SigField → PhyRx
  | .lsig _ rate length _ => { x with rate := rate, length := length, ends := some (x.begun + rxTime rate length), stage := 1 }
  | _ => { x with stage := x.stage + 1 }

/-- The sources that a read of EVT_CLAIM by `rq` finds, in the order of R395: those routed to the core that reads. -/
def State.claimable (s : State) (rq : Req) : List Nat :=
  match rq with
  | .core n => s.claimList 2 n
  | .rcore n => s.claimList 3 n
  | _ => []

/-- The triggers that go out on link `l` to the stations `sids` that a restricted service period lets it serve, in runs of at most 148 (R171). -/
def State.triggersOf (s : State) (l kind : Nat) (sids : List Nat) (air : Nat) : List WacPpdu :=
  let all := sids.filter (s.spServes l ·)
  (runs148 all.length all).zipIdx.map (fun e => { WacPpdu.new kind (s.wac.next + e.2) 3 air with
    users := e.1.map (fun i => (i, ruFor (linkBw s.linkPlan l) (s.get Fld.PHY_PUNCT.MASK [l]) e.1.length)),
    streams := e.1.map (fun _ => 1), beams := e.1.map (s.staBeam · l) })

/-- The checks of the layout of table `t` on an entry that is to stand at index `i` (R208). -/
def State.entryChecks (s : State) (t i : Nat) (b : Bytes) : List (Bool × Nat) :=
  match t with
  | 0 => s.checkSta i b
  | 1 | 2 => s.checkBa t i b
  | 3 => s.checkTwt b
  | 4 => s.checkGroup i b
  | _ => s.checkBss i b

/-- DRAM requests enter the queues of channel `c`, each with the class of the block that sends it (R43, R419). -/
def State.dramArrived (s : State) (c : Nat) (l : List DramArrival) : State :=
  l.foldl (fun t q => t.dramEnter c ⟨0, q.bank, q.rank, q.row, q.write, t.qosClass (q.rq / 32) q.block, q.port, q.rq, 0⟩) s

/-- Kiln serves command `c` next: `m` is the request at the head of its queue, `q` the rest, and the request's zero bytes are zero (R443, R444). -/
abbrev State.mbHead (s : State) (m : MbReq) (q : List MbReq) (c : Nat) : Prop :=
  s.klnOn = true ∧ s.kiln.mbox = m :: q ∧ s.mbCmd m = c ∧ s.mbZeros m = true

/-- The request has been served: it left the queue, and its copy of KLN_MB_STAT shows the result and the length (R443). -/
abbrev State.mbServed (t : State) (m : MbReq) (q : List MbReq) (res len : Nat) : Prop :=
  t.kiln.mbox = q ∧ t.get Fld.KLN_MB_STAT.RESULT [] m.copy = res ∧ t.get Fld.KLN_MB_STAT.LEN [] m.copy = len

/-- Kiln judges a token of kind `k` next, the one that the request `m` names (R439): `b` is the token. -/
abbrev State.tokenHead (s : State) (m : MbReq) (q : List MbReq) (k : Nat) (b : Bytes) : Prop :=
  s.mbHead m q 4 ∧ s.mbKind m = k ∧ s.mode ≠ 2 ∧ s.pushedToken = false ∧ s.mbReach m.rq (m.fld s 0x10 8) (m.fld s 0x18 4) = true
    ∧ s.kiln.trngFailed = false ∧ b = s.bytes (m.fld s 0x10 8) (m.fld s 0x18 4)

/-- The token `b` of kind `k` meets every condition of R439: its form, the device, the nonce, a signer that the kind has in the lifecycle, both signatures. -/
abbrev State.tokenGood (s : State) (k : Nat) (b : Bytes) : Prop :=
  leAt b 0 4 = 0x4B4F544B ∧ leAt b 4 2 = 1 ∧ leAt b 6 2 = k ∧ leAt b 8 4 = b.length ∧ b.length = 0x40 + (tokenBody k b).getD 0 + 3408
    ∧ leAt b 0x10 8 = Config.deviceId ∧ leAt b 0x18 8 = (s.reg .IDN_NONCE_LO).toNat + 2 ^ 32 * (s.reg .IDN_NONCE_HI).toNat
    ∧ (((s.signers k).getD []).find? (fun x => x.named (leAt b 0x20 8) (leAt b 0x28 8))).any (fun x =>
        Config.ecdsaOk x.ec (b.take (b.length - 3408)) (slice b (b.length - 3408) 96)
          && Config.mldsaOk x.pq (b.take (b.length - 3408)) (slice b (b.length - 3312) 3309)) = true

/-- A token has been judged (R439): its request is served with the result's code, and the nonce is drawn anew. -/
abbrev State.tokenServed (t s : State) (m : MbReq) (q : List MbReq) (b : Bytes) : Prop :=
  t.mbServed m q (mbCode (s.tokenJudge b).1) 0 ∧ t.reg .IDN_NONCE_LO = w32 (leAt (Config.drbg s.free 8) 0 4)
    ∧ t.reg .IDN_NONCE_HI = w32 (leAt (Config.drbg s.free 8) 4 4)

/-- Index and descriptor of the next job of ring `r` (R450, R451). -/
def State.jobHead (s : State) (r : Nat) : Nat := s.get Fld.CIP_JOB_HEAD.HEAD [r] % 2 ^ s.get Fld.CIP_JOB_CFG.SIZE_LOG2 [r]
@[inherit_doc State.jobHead] def State.jobDesc (s : State) (r : Nat) : Bytes := s.bytes (64 * (s.reg .CIP_JOB_BASE [r]).toNat + 64 * s.jobHead r) 64

/-- The next job of ring `r` is a good one of mode `mode`, and its key is `key` (R449 to R452). -/
abbrev State.jobReady (s : State) (r mode : Nat) (key : Bytes) : Prop :=
  r < 4 ∧ s.active 5 = true ∧ s.serving = true ∧ s.flag Fld.CIP_JOB_CFG.EN [r] = true
    ∧ s.jobHead r ≠ s.get Fld.CIP_JOB_TAIL.TAIL [r] % 2 ^ s.get Fld.CIP_JOB_CFG.SIZE_LOG2 [r] ∧ s.kiln.jobs.length < 4
    ∧ (s.jobCpls r).length + (s.kiln.jobs.filter (fun j => j.ring == r)).length < 256
    ∧ s.rangeCode cipReq (64 * (s.reg .CIP_JOB_BASE [r]).toNat + 64 * s.jobHead r) 64 = 0
    ∧ s.poisonedIn (64 * (s.reg .CIP_JOB_BASE [r]).toNat + 64 * s.jobHead r) 64 = false
    ∧ s.jobBad (s.jobDesc r) = false ∧ jobBadLen (s.jobDesc r) = false ∧ jobBadParam (s.jobDesc r) = false
    ∧ ((jobRuns (s.jobDesc r)).take 2).any (fun e => e.2 != 0 && s.poisonedIn e.1 e.2) = false
    ∧ leAt (s.jobDesc r) 0 1 = mode ∧ (s.jobKey mode (leAt (s.jobDesc r) 4 2)).1.toOption = some key

/-- What the next job of ring `r` computes: its output, and whether its check passes (R452). -/
def State.jobResult (s : State) (r mode : Nat) (key : Bytes) : Bytes × Bool :=
  let d := s.jobDesc r
  jobOutput mode key (slice d 0x28 (leAt d 2 1)) (if jobAad mode then s.bytes (leAt d 24 8) (leAt d 0x24 4) else []) (s.bytes (leAt d 8 8) (leAt d 0x20 4))
    (s.bytes (leAt d 8 8 + leAt d 0x20 4) (leAt d 1 1)) (leAt d 1 1)

/-- The job has been taken: the ring's head is one on, its output stands at DST, behind the text where the mode only makes a tag, and it
runs with status OK or AUTH_FAIL (R451, R452). -/
abbrev State.jobTaken (t s : State) (r mode : Nat) (key : Bytes) : Prop :=
  let d := s.jobDesc r
  t.get Fld.CIP_JOB_HEAD.HEAD [r] = (s.jobHead r + 1) % 2 ^ s.get Fld.CIP_JOB_CFG.SIZE_LOG2 [r]
    ∧ t.kiln.jobs = s.kiln.jobs ++ [⟨r, s.jobHead r, d, if (s.jobResult r mode key).2 then 0 else 1⟩]
    ∧ t.mem = (s.memPut (leAt d 16 8 + (if mode = 10 then leAt d 0x20 4 else 0)) (s.jobResult r mode key).1).mem

/-- Reckoner `k` runs, and the word at its PC is `w` with operation `op` (R398, R399). -/
abbrev State.rkAt (s : State) (k op w : Nat) : Prop :=
  k < 32 ∧ s.rkns.length = 32 ∧ s.active 4 = true ∧ s.rkRuns k = true ∧ s.rkFetch k (s.rkPc k) = w ∧ bits w 31 26 = op

/-- The reckoner has gone on to the next instruction, around a loop where one ends there (R399). -/
abbrev State.rkGone (t s : State) (k : Nat) : Prop := t.rkPc k = (rkNext (s.rkPc k) (s.rk k).loops).1 % 32768

/-- A vector of reckoner `k` holds the lanes, narrowed to 24 bits, and the other vectors are as before (R397, R400). -/
abbrev State.rkVecSet (t s : State) (k d : Nat) (sat : Bool) (lanes : List Int) : Prop :=
  (t.rk k).v = (s.rk k).v.set d (lanes.map (fun x => (narrow 24 sat x).1)) ∧ (t.rk k).a = (s.rk k).a ∧ (t.rk k).p = (s.rk k).p ∧ (t.rk k).m = (s.rk k).m

/-- An accumulator of reckoner `k` holds the lanes, narrowed to 56 bits, and the other accumulators are as before (R397, R400). -/
abbrev State.rkAccSet (t s : State) (k d : Nat) (sat : Bool) (lanes : List Int) : Prop :=
  (t.rk k).a = (s.rk k).a.set d (lanes.map (fun x => (narrow 56 sat x).1)) ∧ (t.rk k).v = (s.rk k).v ∧ (t.rk k).p = (s.rk k).p ∧ (t.rk k).m = (s.rk k).m

/-- The blob that an operation of quadrant `q` reads at CAL_XP_ADDR (R161). -/
def State.blobAt (s : State) (q : Nat) : Bytes :=
  let a := 64 * (s.reg .CAL_XP_ADDR [q]).toNat
  (s.memRead .kiln a (0x50 + min 16384 (s.num (a + 0x20) 4))).2.1

/-- A write of CAL_XP_CTL has been stored and its result is pending (R25, R160). -/
def State.xpBegun (s : State) (rq : Req) (q : Nat) (v : Word) : State := (storeWord .CAL_XP_CTL [q] v rq s).pendResult .CAL_XP_STAT [q]

/-- A frame that the fronthaul unit takes its messages from (R244, R245, R261). -/
abbrev State.fhTakes (s : State) (f : FhFrame) : Prop :=
  f.lane < 2 ∧ s.serving = true ∧ s.portUp (8 + f.lane) = true ∧ s.active 4 = true ∧ f.eth = 0xAEFE ∧ f.fcs = true ∧ f.len ≤ s.get Fld.FHU_MAX_FRAME.MAX_FRAME
    ∧ f.dest = (s.reg .FHU_MAC_LO [f.lane]).toNat + s.get Fld.FHU_MAC_HI.ADDR [f.lane] * 2 ^ 32
    ∧ (if s.flag Fld.FHU_CFG.VLAN_EN then f.vid = some (s.get Fld.FHU_CFG.VID) else f.vid = none) ∧ s.get Fld.FHU_CFG.EN = 1 ∧ s.fhRuns = true

/-- A supported downlink C-plane message for entry `e` with one section of one symbol, the first on the entry or the next in sequence (R246, R247, R249). -/
abbrev State.fhTakesSection (s : State) (e : Nat) (m : FhMsg) (c : FhSection) : Prop :=
  m.rev = 1 ∧ m.type = 2 ∧ 8 ≤ m.size ∧ s.fhNeed e m ≤ m.size ∧ m.dl = true ∧ m.secType = 1 ∧ m.ebit = true ∧ m.sub = 0 ∧ m.sections = [c]
    ∧ s.eaFind m.id 0 = some e ∧ sget (fun _ => 0) s.fhu.seqs (2 * e + 1) = 0 ∧ s.get Fld.FHU_CAR_CFG.EN [s.eaCar e] = 1
    ∧ c.rb = 0 ∧ c.reMask = 0xFFF ∧ c.exts = [] ∧ c.weights = none ∧ fhPrbOk (s.eaNrb e) c = true ∧ c.numSym = 1 ∧ c.beam < 16384

/-- Registers, memory and flash are in canonical form: equal contents are equal data. -/
def State.canonical (s : State) : Bool := swf resetWord s.regs && swf memDefault s.mem && swf flashDefault s.flash

/-- The other lists of fixed length: event sources, rings, ports, converters, units of the packet plane and of the memories, and the entry tables in canonical form. -/
abbrev State.sized (s : State) : Prop :=
  s.evt.pend.length = 256 ∧ s.evt.first.length = 256 ∧ s.evt.msixEn.length = 8 ∧ s.ash.slots.length = 8 ∧ s.kiln.jobCpl.length = 4
    ∧ s.mems.dmc.length = 2 ∧ s.tly.rels.length = 16 ∧ s.ports.up.length = 10 ∧ s.pk.cpl.length = 9 ∧ s.pk.slotAt.length = 2
    ∧ s.tm.entry.length = 8 ∧ s.tm.oper.length = 8 ∧ s.tm.pauseEnd.length = 8 ∧ s.tm.pending.length = 8 ∧ s.radio.hka.scan.length = 2
    ∧ swf wacZero s.wac.tbl = true ∧ swf flwZero s.pk.tbl = true ∧ swf tmZero s.tm.tbl = true

/-- An address outside a run of bytes. -/
abbrev Outside (run : Nat × Nat) (a : Nat) : Prop := a < run.1 ∨ run.1 + run.2 ≤ a

/-- The parts of the state beside the queue and the time: its fields. -/
inductive Part where
  | free | resp | held | timeouts | outs | regs | mem | flash | evt | ash | ntu | plan | boot | push | pwr | kiln | mems | tly | rkns | ports
  | radio | bb | wac | fhu | txa | pk | tm
  deriving DecidableEq, Repr

/-- A part is the same in two states. -/
def Part.same : Part → State → State → Prop
  | .free, s, t => t.free = s.free
  | .resp, s, t => t.resp = s.resp
  | .held, s, t => t.held = s.held
  | .timeouts, s, t => t.timeouts = s.timeouts
  | .outs, s, t => t.outs = s.outs
  | .regs, s, t => t.regs = s.regs
  | .mem, s, t => t.mem = s.mem
  | .flash, s, t => t.flash = s.flash
  | .evt, s, t => t.evt = s.evt
  | .ash, s, t => t.ash = s.ash
  | .ntu, s, t => t.ntu = s.ntu
  | .plan, s, t => t.plan = s.plan
  | .boot, s, t => t.boot = s.boot
  | .push, s, t => t.push = s.push
  | .pwr, s, t => t.pwr = s.pwr
  | .kiln, s, t => t.kiln = s.kiln
  | .mems, s, t => t.mems = s.mems
  | .tly, s, t => t.tly = s.tly
  | .rkns, s, t => t.rkns = s.rkns
  | .ports, s, t => t.ports = s.ports
  | .radio, s, t => t.radio = s.radio
  | .bb, s, t => t.bb = s.bb
  | .wac, s, t => t.wac = s.wac
  | .fhu, s, t => t.fhu = s.fhu
  | .txa, s, t => t.txa = s.txa
  | .pk, s, t => t.pk = s.pk
  | .tm, s, t => t.tm = s.tm

/-- Bit of a part in a mask of parts. -/
def Part.bit : Part → Nat
  | .free => 0 | .resp => 1 | .held => 2 | .timeouts => 3 | .outs => 4 | .regs => 5 | .mem => 6 | .flash => 7 | .evt => 8 | .ash => 9
  | .ntu => 10 | .plan => 11 | .boot => 12 | .push => 13 | .pwr => 14 | .kiln => 15 | .mems => 16 | .tly => 17 | .rkns => 18 | .ports => 19
  | .radio => 20 | .bb => 21 | .wac => 22 | .fhu => 23 | .txa => 24 | .pk => 25 | .tm => 26

/-- The parts of the state that a command may change, beside the queue's front: every other part it leaves as it is. -/
def touchedParts : Instr → List Part
  | .smbusStatus =>
    [.outs]
  | .cacExpiry .. | .nopExpiry .. | .polarityRetry .. | .smbusSclTimeout | .smbBusIdle | .regionCoreTrap .. =>
    [.regs]
  | .timeRecordWrite =>
    [.pwr]
  | .drbgReseed =>
    [.kiln]
  | .throttleEnd .. | .dramRefresh .. | .zqCalibration .. | .dramTempPoll .. | .pageIdle .. =>
    [.mems]
  | .retryStatusEnd | .jtagBypass =>
    [.ports]
  | .coexReqFall .. | .coexPortReturn .. | .dutyBucketClose | .beamIdNamed .. | .antRetry .. =>
    [.radio]
  | .dfsMapSave =>
    [.bb]
  | .bsrpTrigger .. | .twtSpStart .. | .twtTriggerRepeat .. =>
    [.wac]
  | .fhResume =>
    [.fhu]
  | .pauseEnd .. | .gateEntryEnd .. =>
    [.tm]
  | .eventEdge .. =>
    [.outs, .evt]
  | .ppsOutPulse | .tsyncOutPulse =>
    [.outs, .ntu]
  | .smbusAlertResponse | .jtagIdcode =>
    [.outs, .ports]
  | .slpRatioMeasure | .ntuArmExpiry | .slewEnd | .tsyncInEdge .. =>
    [.regs, .ntu]
  | .sleepRetry =>
    [.regs, .pwr]
  | .dmcPanic .. =>
    [.regs, .mems]
  | .smbusSetAddr .. =>
    [.regs, .ports]
  | .loLock .. | .crossfade .. | .calOffer .. | .calRebook .. =>
    [.regs, .radio]
  | .phyRestart .. | .phyCapture .. | .ppduEnd .. | .falseStartHoldEnd .. | .energyDetect .. =>
    [.regs, .bb]
  | .lrcHeader .. =>
    [.regs, .txa]
  | .incidentClose =>
    [.ash, .ports]
  | .sleepOscFirstTick | .sleepOscillatorStop =>
    [.ntu, .pwr]
  | .ebufSlip .. | .asyncLost | .synceSourceLoss | .synceRelock .. | .hlLink .. | .smbFault | .gpioEdge .. =>
    [.outs, .regs, .evt]
  | .ashRecordWrite | .coalesceClose .. =>
    [.outs, .evt, .ash]
  | .configurationRequest .. =>
    [.outs, .evt, .ntu]
  | .coexFault .. | .afcExpired =>
    [.outs, .evt, .radio]
  | .fhTimeFault =>
    [.outs, .evt, .fhu]
  | .functionLevelReset .. =>
    [.regs, .evt, .ntu]
  | .passStart .. =>
    [.free, .outs, .regs, .pk]
  | .servoWatchdog | .ppsIn | .ptmResponse .. | .ptmTimeout =>
    [.outs, .regs, .evt, .ntu]
  | .railReady | .deferredChangeRelease =>
    [.outs, .regs, .evt, .pwr]
  | .jobCompletion .. =>
    [.outs, .regs, .evt, .kiln]
  | .sramScrub .. | .dramCommand .. | .dmcRtStarve .. =>
    [.outs, .regs, .evt, .mems]
  | .linkUp .. =>
    [.outs, .regs, .evt, .ports]
  | .asyncInResume .. | .orxVisitStart .. =>
    [.outs, .regs, .evt, .radio]
  | .signalField .. | .ccaStuck .. | .codewordDecoded .. =>
    [.outs, .regs, .evt, .bb]
  | .twtWindowClose .. | .quietWindowCts .. =>
    [.outs, .regs, .evt, .wac]
  | .offsetFeedbackWrite | .fbDefer =>
    [.outs, .regs, .evt, .txa]
  | .drainEnd =>
    [.outs, .regs, .evt, .pk]
  | .gateChangeDue .. =>
    [.outs, .regs, .evt, .tm]
  | .agingScan =>
    [.regs, .mem, .mems, .pk]
  | .delayDue .. | .eventBead .. =>
    [.free, .outs, .regs, .evt, .tly]
  | .asyncPulse .. =>
    [.free, .outs, .regs, .evt, .radio]
  | .rknAcc .. =>
    [.resp, .outs, .regs, .evt, .ash]
  | .phase1Timeout | .agingMeasure .. =>
    [.outs, .regs, .evt, .ash, .pwr]
  | .calEstimate .. | .calForced .. | .orxElementReselect .. =>
    [.outs, .regs, .evt, .ash, .radio]
  | .radarPulse .. =>
    [.outs, .regs, .evt, .ash, .bb]
  | .perstFall =>
    [.outs, .regs, .evt, .ntu, .ports]
  | .reckonerDispatch .. | .rknNop .. | .rknHalt .. | .rknLoop .. | .rknBrc .. | .rknDma .. | .rknDwait .. | .rknVadd .. | .rknVsub ..
  | .rknVmac .. | .rknVmsu .. | .rknAclr .. | .rknVbfly .. | .rknVsh .. | .rknSli .. | .rknSlui .. | .rknSaddi .. | .rknSadd .. | .rknSetp ..
  | .rknSetm .. =>
    [.outs, .regs, .evt, .tly, .rkns]
  | .preambleDetect .. =>
    [.outs, .regs, .evt, .radio, .bb]
  | .ulUPlaneSend .. =>
    [.outs, .regs, .evt, .radio, .fhu]
  | .lrcPreambleDetect .. | .lrcCapture .. =>
    [.outs, .regs, .evt, .radio, .txa]
  | .hkaResult .. | .plausFail .. =>
    [.free, .outs, .regs, .evt, .ash, .radio]
  | .rknLd .. | .rknLde .. | .rknVmul .. | .rknAmov .. =>
    [.free, .outs, .regs, .evt, .tly, .rkns]
  | .beamRecordFetch .. =>
    [.resp, .held, .outs, .regs, .evt, .radio]
  | .ntuTimeNs .. | .ntuHoldover .. | .ntuArm .. | .timeRateWrite .. | .ntuTsyncStart .. | .ntuCapStat .. | .ntuTxtsPop .. | .ptmRequest .. =>
    [.resp, .outs, .regs, .evt, .ash, .ntu]
  | .setPoint .. | .islandChange .. | .sleepBanked .. | .sleepDormant .. | .sleepCancel .. =>
    [.resp, .outs, .regs, .evt, .ash, .pwr]
  | .cipCplPop .. =>
    [.resp, .outs, .regs, .evt, .ash, .kiln]
  | .tlyPick .. | .tlyRelPop .. | .evtClaim .. | .evtHclaim .. =>
    [.resp, .outs, .regs, .evt, .ash, .tly]
  | .restackRequest .. | .restackCancel .. | .fenRffeRsp .. | .txfCommit .. | .dpdCommit .. | .orxCapPop .. | .orxSlotFree .. | .hkaPop .. =>
    [.resp, .outs, .regs, .evt, .ash, .radio]
  | .sndEstPop .. | .sndSlotFree .. | .cacStart .. | .phyDfsPop .. =>
    [.resp, .outs, .regs, .evt, .ash, .bb]
  | .wacBsrPop .. | .wacMtxCplPop .. =>
    [.resp, .outs, .regs, .evt, .ash, .wac]
  | .fhuRetPop .. | .fhuRetFree .. =>
    [.resp, .outs, .regs, .evt, .ash, .fhu]
  | .txaDlCplPop .. | .txaCtrData .. =>
    [.resp, .outs, .regs, .evt, .ash, .txa]
  | .swTxCplPop .. =>
    [.resp, .outs, .regs, .evt, .ash, .pk]
  | .tmgTableLoad .. | .tmgTableWrite .. | .tmgTableClear .. | .gateChangeOp .. | .gateCancelOp .. =>
    [.resp, .outs, .regs, .evt, .ash, .tm]
  | .channelEstimate .. | .beamformingReport .. =>
    [.outs, .regs, .mem, .evt, .mems, .bb]
  | .refclkRestore =>
    [.outs, .regs, .evt, .ntu, .pwr, .radio]
  | .linkDown .. =>
    [.outs, .regs, .evt, .mems, .ports, .tm]
  | .loRestart .. | .rffePoll .. | .vioOvercurrent .. | .biasShort .. | .biasOpen .. | .fastline .. | .calWindowStart .. =>
    [.outs, .regs, .evt, .radio, .bb, .wac]
  | .coreStart .. | .coreReset .. | .regionCoreStart .. | .regionCoreReset .. | .tlyReady .. | .tlyDelay .. | .tlyDlyCancel .. | .tlyDone ..
  | .evtClr .. =>
    [.free, .resp, .outs, .regs, .evt, .ash, .tly]
  | .calDone .. =>
    [.free, .outs, .regs, .evt, .ash, .radio, .wac]
  | .ethFrameReceive .. =>
    [.free, .outs, .regs, .evt, .kiln, .pk, .tm]
  | .xspiRead .. | .xspiProgram .. | .xspiErase4K .. | .xspiErase64K .. =>
    [.resp, .held, .outs, .regs, .evt, .ash, .ports]
  | .beamCommit .. =>
    [.resp, .held, .outs, .regs, .evt, .ash, .radio]
  | .txaDlPush .. | .txaDlExpired .. =>
    [.resp, .held, .outs, .regs, .evt, .ash, .txa]
  | .slotWrite .. | .slotClear .. =>
    [.resp, .outs, .regs, .evt, .ash, .kiln, .wac]
  | .rknStart .. | .rknStop .. =>
    [.resp, .outs, .regs, .evt, .ash, .tly, .rkns]
  | .pfClr .. | .vioEn .. =>
    [.resp, .outs, .regs, .evt, .ash, .radio, .wac]
  | .gcmEnc .. | .gcmDec .. | .gmacGen .. | .gmacVer .. | .ccmEnc .. | .ccmDec .. | .xtsEnc .. | .xtsDec .. | .cipCtr .. | .cmacGen ..
  | .cmacVer .. =>
    [.outs, .regs, .mem, .evt, .ash, .kiln, .mems]
  | .rknDmaComplete .. =>
    [.outs, .regs, .mem, .evt, .mems, .tly, .rkns]
  | .rffeCommandDone .. =>
    [.free, .resp, .held, .outs, .regs, .evt, .radio, .wac]
  | .edcaBackoffExpiry .. =>
    [.free, .outs, .regs, .mem, .evt, .kiln, .mems, .wac]
  | .rknSt .. | .rknSte .. =>
    [.free, .outs, .regs, .mem, .evt, .mems, .tly, .rkns]
  | .tbtt .. | .frameLifetime .. =>
    [.free, .outs, .regs, .mem, .evt, .mems, .radio, .wac]
  | .reorderTimeout .. =>
    [.free, .outs, .regs, .mem, .evt, .mems, .wac, .pk]
  | .fenRffeCmd .. =>
    [.resp, .held, .outs, .regs, .evt, .ash, .radio, .wac]
  | .flwVerCommit .. | .flwCopy .. | .flwLoad .. | .flwWrite .. | .flwClear .. | .flwInsert .. | .flwDelete .. | .swRxFree .. =>
    [.resp, .outs, .regs, .mem, .evt, .ash, .mems, .pk]
  | .orxVisitEnd .. =>
    [.outs, .regs, .mem, .evt, .mems, .radio, .bb, .wac]
  | .mtxDescriptorFetch .. =>
    [.free, .outs, .regs, .mem, .evt, .ash, .kiln, .mems, .wac]
  | .swTxDescriptorFetch .. =>
    [.free, .outs, .regs, .mem, .evt, .ash, .mems, .pk, .tm]
  | .passEnd .. =>
    [.free, .outs, .regs, .mem, .evt, .kiln, .mems, .pk, .tm]
  | .ntuAdj .. | .ntuSet .. | .ntuForceAdj .. | .ntuForceSet .. | .ntuUnlock .. =>
    [.resp, .outs, .regs, .evt, .ash, .ntu, .radio, .fhu, .tm]
  | .calRun .. | .calAbort .. | .calCommit .. | .calLoad .. | .calRed .. | .calExport .. | .calRestore .. =>
    [.free, .resp, .outs, .regs, .mem, .evt, .ash, .kiln, .mems, .radio]
  | .fhFrameReceive .. =>
    [.free, .held, .outs, .regs, .mem, .evt, .mems, .radio, .fhu, .pk]
  | .getRandom | .klnAttest | .getCert | .klnImport | .klnDerive =>
    [.free, .outs, .regs, .mem, .evt, .ash, .kiln, .mems, .radio, .wac]
  | .flowBucketFetch .. =>
    [.free, .outs, .regs, .mem, .evt, .ash, .kiln, .mems, .pk, .tm]
  | .mpduReceive .. =>
    [.free, .outs, .regs, .mem, .evt, .kiln, .mems, .bb, .wac, .pk]
  | .lrcFrameEnd .. =>
    [.resp, .held, .outs, .regs, .mem, .evt, .ash, .kiln, .mems, .txa]
  | .msduDelivery | .packetStart .. =>
    [.outs, .regs, .mem, .evt, .ntu, .kiln, .mems, .wac, .pk, .tm]
  | .vinAoRise | .vinMainPresent | .thermalWakeRelease .. | .smbusAddressMatch .. | .wakeUpFrame .. | .gpioWake .. | .timerWake | .perstRise =>
    [.outs, .regs, .evt, .ash, .boot, .push, .pwr, .ports, .radio, .bb]
  | .xspiDone .. =>
    [.free, .resp, .held, .outs, .regs, .mem, .flash, .evt, .ash, .mems, .ports]
  | .wacTableLoad .. | .wacTableCommit .. | .wacTableClear .. | .wacMrxFree .. | .afcInstall .. | .afcClear .. =>
    [.free, .resp, .outs, .regs, .mem, .evt, .ash, .mems, .radio, .wac, .pk]
  | .deployToken | .returnToken | .scrapToken | .keyAdd | .keyRevoke | .lockToken | .debugToken =>
    [.free, .outs, .regs, .mem, .evt, .ash, .push, .kiln, .mems, .radio, .wac]
  | .transmissionStart .. | .lateTolExpiry .. | .transmissionEnd .. | .lockLost .. | .coexReqRise .. | .maxDefer .. | .dlRun
  | .downlinkWindow1 .. | .downlinkWindow2 .. =>
    [.free, .outs, .regs, .mem, .evt, .mems, .radio, .bb, .wac, .fhu, .txa]
  | .ppduTransmitRequest .. =>
    [.free, .outs, .regs, .mem, .evt, .kiln, .mems, .radio, .bb, .wac, .fhu, .txa]
  | .fallbackReturn | .restackBoundary | .restackGapEnd =>
    [.free, .resp, .held, .outs, .regs, .mem, .evt, .mems, .radio, .bb, .wac, .fhu, .txa]
  | .refclkLost =>
    [.free, .outs, .regs, .mem, .evt, .ntu, .pwr, .mems, .radio, .bb, .wac, .fhu, .txa]
  | .counterRead .. | .resultRead .. =>
    [.resp, .outs, .regs, .evt, .ash, .ntu, .kiln, .tly, .radio, .bb, .wac, .fhu, .txa, .pk]
  | .smbusRead =>
    [.resp, .outs, .regs, .evt, .ash, .ntu, .kiln, .tly, .ports, .radio, .bb, .wac, .fhu, .txa, .pk]
  | .tamper .. | .kilnDetectorTrip | .kilnBoot .. | .trngHealthFail =>
    [.free, .held, .timeouts, .outs, .regs, .mem, .evt, .ash, .boot, .push, .pwr, .kiln, .mems, .tly, .rkns, .ports, .radio, .bb, .wac, .fhu, .txa, .pk, .tm]
  | .imageVerify .. | .pushAbort .. | .openBoot .. | .openReload .. | .openStoreA .. | .openStoreB .. | .reloadFromA .. | .reloadFromB ..
  | .aoPushData .. =>
    [.free, .resp, .held, .timeouts, .outs, .regs, .mem, .flash, .evt, .ash, .plan, .boot, .push, .pwr, .kiln, .mems, .tly, .rkns, .radio, .bb, .wac, .fhu, .txa, .pk, .tm]
  | .vinMainLoss .. | .phase1Answer =>
    [.free, .held, .timeouts, .outs, .regs, .mem, .evt, .ash, .ntu, .plan, .boot, .push, .pwr, .kiln, .mems, .tly, .rkns, .ports, .radio, .bb, .wac, .fhu, .txa, .pk, .tm]
  | .firmwareLoad .. | .enrolment =>
    [.free, .resp, .held, .timeouts, .outs, .regs, .mem, .flash, .evt, .ash, .plan, .boot, .push, .pwr, .kiln, .mems, .tly, .rkns, .ports, .radio, .bb, .wac, .fhu, .txa, .pk, .tm]
  | .accessTimeout .. | .crossbarTimeout .. | .controlStorageEcc .. | .vinAoLoss | .thermalTrip .. | .railFault .. | .wakeStageTimeout .. =>
    [.free, .resp, .held, .timeouts, .outs, .regs, .mem, .evt, .ash, .ntu, .plan, .boot, .push, .pwr, .kiln, .mems, .tly, .rkns, .ports, .radio, .bb, .wac, .fhu, .txa, .pk, .tm]
  | .registerWrite .. | .wakeStageReady .. | .cordApply .. | .regionReload .. | .ashRelease .. | .smbusWriteReg .. | .smbusPush .. =>
    [.free, .resp, .held, .timeouts, .outs, .regs, .mem, .flash, .evt, .ash, .ntu, .plan, .boot, .push, .pwr, .kiln, .mems, .tly, .rkns, .ports, .radio, .bb, .wac, .fhu, .txa, .pk, .tm]

/-- Where a fault is recorded (R13), and what a refused access changes beside it (R516). -/
def errRegs : List Reg := [.RGC_ERR_ADDR_LO, .RGC_ERR_ADDR_HI, .RGC_ERR_INFO, .RGC_ERR_TIME]
@[inherit_doc errRegs] def refuseRegs : List Reg := errRegs ++ [.HL_FN_ERR]

/-- What the completion of transmissions shows and counts in the units that send (R83, R127, R183, R234). -/
def airRegs : List Reg := [.FEN_CNT_LATE, .FEN_CNT_COEX_PREEMPT, .DFE_CNT_CFR, .DPD_CNT_SAT, .ORX_CNT_STALL, .ORX_CNT_ABANDON, .PHY_CCA_STAT, .PHY_TX_NOSTART,
  .WAC_MRX_TAIL, .WAC_CNT_RETRY_DROP, .WAC_CNT_LIFETIME, .WAC_CNT_MRX_DROP, .WAC_CNT_REFUSED, .FHU_CNT_TX_LOST, .TXA_CNT_DL_SENT,
  .TXA_CNT_DL_FAIL, .PBF_CNT_SPILL_CAP]

/-- The registers that a command may change: any (`none`), or those of a list. -/
def touchedRegs : Instr → Option (List Reg)
  | .sleepOscFirstTick | .timeRecordWrite | .coexReqFall .. | .coexFault .. | .coexPortReturn .. | .dutyBucketClose | .afcExpired
  | .beamIdNamed .. | .antRetry .. | .dfsMapSave | .bsrpTrigger .. | .twtSpStart .. | .twtTriggerRepeat .. | .fhTimeFault | .fhResume
  | .pauseEnd .. | .gateEntryEnd .. | .ppsOutPulse | .tsyncOutPulse | .eventEdge .. | .throttleEnd .. | .dramRefresh .. | .zqCalibration ..
  | .dramTempPoll .. | .pageIdle .. | .drbgReseed | .ashRecordWrite | .coalesceClose .. | .incidentClose | .retryStatusEnd | .smbusStatus
  | .smbusAlertResponse | .jtagIdcode | .jtagBypass | .sleepOscillatorStop | .configurationRequest .. =>
    some []
  | .agingMeasure .. =>
    some [.AO_AGE_STAT]
  | .asyncLost =>
    some [.RGC_ASYNC_CFG]
  | .beamRecordFetch .. =>
    some [.BEAM_STAT]
  | .cacExpiry .. | .nopExpiry .. =>
    some [.PHY_DFS_MAP]
  | .channelEstimate .. | .beamformingReport .. =>
    some [.SND_CNT_DROP]
  | .crossfade .. =>
    some [.DPD_STAT]
  | .dmcPanic .. =>
    some [.DMC_CNT_PANIC]
  | .dmcRtStarve .. =>
    some [.DMC_CNT_RT_LATE]
  | .drainEnd =>
    some [.FLW_VER_STAT]
  | .eventBead .. =>
    some [.TLY_CNT_FULL]
  | .gateChangeDue .. =>
    some [.TMG_GATE_CTL]
  | .hlLink .. =>
    some [.HL_STAT]
  | .loLock .. =>
    some [.SYN_STAT]
  | .ntuArmExpiry | .slewEnd =>
    some [.NTU_STATUS]
  | .orxElementReselect .. =>
    some [.CAL_RED]
  | .orxVisitStart .. =>
    some [.ORX_CNT_STALL]
  | .passStart .. =>
    some [.PRS_CNT_PASS]
  | .polarityRetry .. =>
    some [.SDS_LANE_STAT]
  | .ppduEnd .. | .falseStartHoldEnd .. | .ccaStuck .. | .energyDetect .. =>
    some [.PHY_CCA_STAT]
  | .ppsIn | .tsyncInEdge .. =>
    some [.NTU_CAP_STAT]
  | .ptmTimeout =>
    some [.NTU_PTM_STAT]
  | .quietWindowCts .. =>
    some [.WAC_CNT_QW_UNCOVERED]
  | .regionCoreTrap .. =>
    some [.RGC_CORE_STAT]
  | .rffeCommandDone .. =>
    some [.FEN_CNT_RFFE_NOACK]
  | .sleepRetry =>
    some [.AO_SLEEP_STAT]
  | .smbBusIdle =>
    some [.SMB_STAT]
  | .smbusSclTimeout =>
    some [.SMB_CNT_TIMEOUT]
  | .synceSourceLoss | .synceRelock .. =>
    some [.NTU_SYNCE_STAT]
  | .agingScan =>
    some [.FLW_EXP_TAIL, .FLW_CNT_EXP_DROP]
  | .asyncPulse .. | .ebufSlip .. =>
    some [.RGC_EBUF_LAT, .RGC_EBUF_SLIP]
  | .calEstimate .. =>
    some [.CAL_REJ, .CAL_CNT_REJECT]
  | .codewordDecoded .. =>
    some [.LDPC_CNT_DROP, .LDPC_CNT_FAIL]
  | .delayDue .. =>
    some [.TLY_CNT_FENCED, .TLY_CNT_DLY_LATE]
  | .functionLevelReset .. =>
    some [.FLW_SW_RX_CFG, .FLW_SW_TX_CFG]
  | .gpioEdge .. =>
    some [.XIO_GPIO_IN, .XIO_GPIO_EDGE]
  | .jobCompletion .. =>
    some [.CIP_CNT_JOBS, .CIP_CNT_AUTH_FAIL]
  | .offsetFeedbackWrite =>
    some [.SYN_FINE, .TXA_FB_STAT]
  | .phase1Timeout =>
    some [.AO_SLEEP_STAT, .AO_SLEEP_REC]
  | .phyCapture .. =>
    some [.PHY_CCA_STAT, .PHY_CAPTURE_LOST]
  | .radarPulse .. =>
    some [.PHY_DFS_MAP, .PHY_DFS_QDROP]
  | .railReady | .deferredChangeRelease =>
    some [.AO_VF_STAT, .AO_RAIL_STAT]
  | .servoWatchdog =>
    some [.NTU_STATUS, .NTU_CNT_SERVO_TO]
  | .slpRatioMeasure =>
    some [.NTU_STATUS, .NTU_SLP_RATIO]
  | .smbFault =>
    some [.SMB_STAT, .SMB_CNT_TIMEOUT]
  | .smbusSetAddr .. =>
    some [.SMB_CNT_PEC, .SMB_CNT_BAD]
  | .twtWindowClose .. =>
    some [.WAC_CNT_TWT_MISS, .WAC_CNT_TWT_TEARDOWN]
  | .calOffer .. =>
    some [.CAL_STAT, .CAL_QW, .CAL_QW_INFO]
  | .fbDefer =>
    some [.SYN_FINE, .TXA_FB_STAT, .TXA_CNT_FB_FORCED]
  | .linkUp .. =>
    some [.TMG_PORT_CFG_W0, .SDS_LANE_STAT, .SDS_PORT_STAT]
  | .lrcHeader .. =>
    some [.TXA_CNT_FALSE_DET, .TXA_CNT_HDR_FAIL, .TXA_CNT_OVERSIZE]
  | .perstFall =>
    some [.FLW_SW_RX_CFG, .FLW_SW_TX_CFG, .HL_STAT]
  | .phyRestart .. =>
    some [.PHY_CCA_STAT, .PHY_FALSE_START, .PHY_HDR_FAIL]
  | .preambleDetect .. =>
    some [.BEAM_CNT_MISS, .BEAM_CNT_BADREC, .PHY_CCA_STAT]
  | .rknHalt .. =>
    some [.TLY_CNT_FENCED, .RKN_STAT, .RKN_CNT_CYC]
  | .sramScrub .. =>
    some [.SRM_ECC_ADDR, .SRM_CNT_CORR, .SRM_CNT_UNCORR]
  | .calForced .. =>
    some [.CAL_STAT, .CAL_QW, .CAL_QW_INFO, .CAL_CNT_FORCED]
  | .calRebook .. =>
    some [.CAL_STAT, .CAL_QW, .CAL_QW_INFO, .CAL_CNT_REBOOK]
  | .getRandom | .klnAttest | .getCert | .klnImport | .klnDerive =>
    some [.IDN_LIFECYCLE, .IDN_NONCE_LO, .IDN_NONCE_HI, .KLN_MB_STAT]
  | .lrcPreambleDetect .. | .lrcCapture .. =>
    some [.BEAM_CNT_MISS, .BEAM_CNT_BADREC, .TXA_CNT_FALSE_DET, .TXA_CNT_CAPTURE_LOST]
  | .reckonerDispatch .. =>
    some [.TLY_CNT_FENCED, .RKN_STAT, .RKN_PC, .RKN_S]
  | .refclkRestore =>
    some [.RGC_EBUF_LAT, .RGC_EBUF_SLIP, .SYN_STAT, .NTU_STATUS]
  | .rknNop .. | .rknLoop .. | .rknBrc .. | .rknDma .. | .rknDwait .. | .rknLd .. | .rknLde .. | .rknSetp .. | .rknSetm .. =>
    some [.TLY_CNT_FENCED, .RKN_STAT, .RKN_PC, .RKN_CNT_CYC]
  | .txaDlExpired .. =>
    some (errRegs)
  | .ulUPlaneSend .. =>
    some [.BEAM_CNT_MISS, .BEAM_CNT_BADREC, .FHU_CNT_RESTACK_DISC, .FHU_CNT_UL_TX]
  | .asyncInResume .. =>
    some [.RGC_EBUF_LAT, .RGC_EBUF_SLIP, .RGC_ASYNC_CFG, .DFE_CNT_CFR, .DPD_CNT_SAT]
  | .deployToken | .returnToken | .scrapToken | .keyAdd | .keyRevoke | .lockToken | .debugToken =>
    some [.AO_PUSH_STAT, .IDN_LIFECYCLE, .IDN_NONCE_LO, .IDN_NONCE_HI, .KLN_MB_STAT]
  | .fenRffeCmd .. | .fenRffeRsp .. | .orxCapPop .. | .sndEstPop .. | .sndSlotFree .. | .wacBsrPop .. | .wacMtxCplPop .. | .wacMrxFree ..
  | .fhuRetFree .. | .txaDlPush .. | .txaCtrData .. | .swTxCplPop .. | .swRxFree .. | .evtClr .. | .rknAcc .. =>
    some (refuseRegs)
  | .linkDown .. =>
    some [.TMG_PORT_CFG_W0, .TMG_CNT_LINK_DROP, .SDS_LANE_STAT, .SDS_PORT_STAT, .SDS_CNT_LINK_DOWN]
  | .reorderTimeout .. =>
    some [.WAC_MRX_TAIL, .WAC_CNT_REPLAY, .WAC_CNT_REORDER_TO, .WAC_CNT_MRX_DROP, .PRS_CNT_ING_DROP]
  | .rknSli .. | .rknSlui .. | .rknSaddi .. | .rknSadd .. =>
    some [.TLY_CNT_FENCED, .RKN_STAT, .RKN_PC, .RKN_CNT_CYC, .RKN_S]
  | .rknSt .. | .rknSte .. | .rknVadd .. | .rknVsub .. | .rknVmul .. | .rknVmac .. | .rknVmsu .. | .rknAmov .. | .rknAclr .. | .rknVbfly ..
  | .rknVsh .. =>
    some [.TLY_CNT_FENCED, .RKN_STAT, .RKN_PC, .RKN_CNT_SAT, .RKN_CNT_CYC]
  | .xspiDone .. =>
    some ([.XIO_SPI_STAT] ++ errRegs)
  | .afcInstall .. | .afcClear .. =>
    some ([.WAC_AFC_STAT] ++ refuseRegs)
  | .aoPushData .. =>
    some ([.AO_PUSH_STAT] ++ refuseRegs)
  | .beamCommit .. =>
    some ([.BEAM_STAT] ++ refuseRegs)
  | .cacStart .. =>
    some ([.PHY_DFS_MAP] ++ refuseRegs)
  | .cipCplPop .. =>
    some ([.CIP_CPL_INFO] ++ refuseRegs)
  | .dpdCommit .. =>
    some ([.DPD_STAT] ++ refuseRegs)
  | .evtClaim .. | .evtHclaim .. =>
    some ([.EVT_CLAIM_TS] ++ refuseRegs)
  | .fhuRetPop .. =>
    some ([.FHU_RET_INFO] ++ refuseRegs)
  | .frameLifetime .. =>
    some [.WAC_MRX_TAIL, .WAC_CNT_RETRY_DROP, .WAC_CNT_LIFETIME, .WAC_CNT_MRX_DROP, .WAC_CNT_REFUSED, .PBF_CNT_SPILL_CAP]
  | .hkaPop .. =>
    some ([.HKA_QLEVEL] ++ refuseRegs)
  | .ntuTsyncStart .. =>
    some ([.NTU_TSYNC_START] ++ refuseRegs)
  | .ntuTxtsPop .. =>
    some ([.NTU_TXTS_VAL] ++ refuseRegs)
  | .orxSlotFree .. =>
    some ([.ORX_CNT_STALL] ++ refuseRegs)
  | .phyDfsPop .. =>
    some ([.PHY_DFS_STAMP] ++ refuseRegs)
  | .ptmRequest .. =>
    some ([.NTU_PTM_STAT] ++ refuseRegs)
  | .ptmResponse .. =>
    some [.NTU_PTM_STAT, .NTU_PTM_T1, .NTU_PTM_T4, .NTU_PTM_MT_LO, .NTU_PTM_MT_HI, .NTU_PTM_DELAY]
  | .rknDmaComplete .. =>
    some [.TLY_CNT_FENCED, .RKN_STAT, .SRM_ECC_ADDR, .SRM_CNT_UNCORR, .DMC_ECC_ADDR, .DMC_CNT_UNCORR]
  | .timeRateWrite .. =>
    some ([.NTU_TIME_RATE_HI] ++ refuseRegs)
  | .tlyDone .. =>
    some ([.TLY_CNT_FENCED] ++ refuseRegs)
  | .tlyPick .. =>
    some ([.TLY_CUR_W] ++ refuseRegs)
  | .tlyRelPop .. =>
    some ([.TLY_REL_RES] ++ refuseRegs)
  | .txaDlCplPop .. =>
    some ([.TXA_DL_CPL_INFO] ++ refuseRegs)
  | .xspiRead .. | .xspiProgram .. | .xspiErase4K .. | .xspiErase64K .. =>
    some ([.XIO_SPI_STAT] ++ refuseRegs)
  | .calDone .. =>
    some [.CAL_STAT, .CAL_TEMP, .CAL_QW, .CAL_QW_INFO, .CAL_REJ, .CAL_CNT_RUN, .CAL_RED]
  | .coreStart .. | .coreReset .. =>
    some ([.APC_CORE_CTL, .APC_CORE_STAT] ++ refuseRegs)
  | .dramCommand .. =>
    some [.DMC_DIST_STAT, .DMC_ECC_ADDR, .DMC_CNT_CORR, .DMC_CNT_UNCORR, .DMC_CNT_INORDER, .DMC_CNT_THROT, .DMC_CNT_TREF]
  | .edcaBackoffExpiry .. =>
    some [.WAC_MRX_TAIL, .WAC_CNT_RETRY_DROP, .WAC_CNT_LIFETIME, .WAC_CNT_MRX_DROP, .WAC_CNT_REFUSED, .PBF_CNT_SPILL_CAP, .CIP_CNT_POLICY]
  | .flwLoad .. | .flwWrite .. | .flwClear .. | .flwInsert .. | .flwDelete .. =>
    some ([.FLW_TBL_STAT, .FLW_TBL_WIN] ++ refuseRegs)
  | .gateChangeOp .. | .gateCancelOp .. =>
    some ([.TMG_GATE_CTL, .TMG_GATE_STAT] ++ refuseRegs)
  | .regionCoreStart .. | .regionCoreReset .. =>
    some ([.RGC_CORE_CTL, .RGC_CORE_STAT] ++ refuseRegs)
  | .setPoint .. | .islandChange .. =>
    some ([.AO_VF_STAT, .AO_RAIL_STAT] ++ refuseRegs)
  | .signalField .. =>
    some [.PHY_CCA_STAT, .PHY_RX_PPDU, .PHY_FALSE_START, .PHY_OVERSIZE, .PHY_UNSUPPORTED, .PHY_HDR_FAIL, .LDPC_CNT_DROP]
  | .sleepBanked .. | .sleepDormant .. | .sleepCancel .. =>
    some ([.AO_SLEEP_STAT, .AO_SLEEP_REC] ++ refuseRegs)
  | .slotWrite .. | .slotClear .. =>
    some ([.CIP_SLOT_KEY, .CIP_SLOT_STAT] ++ refuseRegs)
  | .tbtt .. =>
    some [.WAC_MRX_TAIL, .WAC_CNT_RETRY_DROP, .WAC_CNT_LIFETIME, .WAC_CNT_MRX_DROP, .WAC_CNT_BCN_DROP, .WAC_CNT_REFUSED, .PBF_CNT_SPILL_CAP]
  | .tmgTableLoad .. | .tmgTableWrite .. | .tmgTableClear .. =>
    some ([.TMG_TBL_STAT, .TMG_TBL_WIN] ++ refuseRegs)
  | .txfCommit .. =>
    some ([.DFE_TXF_CTL, .DFE_TXF_STAT] ++ refuseRegs)
  | .vioEn .. =>
    some ([.FEN_RFFE_CFG, .PHY_DFS_MAP] ++ refuseRegs)
  | .biasShort .. | .biasOpen .. | .fastline .. =>
    some [.FEN_CNT_PATH_FAULT, .DFE_CNT_CFR, .DPD_CNT_SAT, .PHY_CCA_STAT, .PHY_FALSE_START, .PHY_HDR_FAIL, .PHY_RX_ABORT, .PHY_DFS_MAP]
  | .flwVerCommit .. | .flwCopy .. =>
    some ([.FLW_VER_STAT, .FLW_VER_GEN, .FLW_VER_FAIL] ++ refuseRegs)
  | .ntuHoldover .. | .ntuArm .. =>
    some ([.NTU_STATUS, .NTU_TIME_STAT, .NTU_CNT_STEP_REFUSED] ++ refuseRegs)
  | .rknStart .. | .rknStop .. =>
    some ([.TLY_CNT_FENCED, .RKN_CTL, .RKN_STAT] ++ refuseRegs)
  | .tlyDlyCancel .. =>
    some ([.TLY_ENQ_STAT, .TLY_CNT_FENCED, .TLY_CNT_DLY_LATE] ++ refuseRegs)
  | .calWindowStart .. =>
    some [.DFE_CNT_CFR, .DPD_CNT_SAT, .ORX_CNT_STALL, .ORX_CNT_ABANDON, .CAL_STAT, .PHY_CCA_STAT, .PHY_FALSE_START, .PHY_HDR_FAIL, .PHY_RX_ABORT]
  | .enrolment =>
    some ([.AO_STATUS, .AO_PUSH_STAT, .AO_BOOT_INFO, .IDN_LIFECYCLE] ++ refuseRegs)
  | .loRestart .. =>
    some [.SYN_STAT, .FEN_CNT_PATH_FAULT, .DFE_CNT_CFR, .DPD_CNT_SAT, .PHY_CCA_STAT, .PHY_FALSE_START, .PHY_HDR_FAIL, .PHY_RX_ABORT, .PHY_DFS_MAP]
  | .ntuCapStat .. =>
    some ([.RGC_EARLY_READ, .NTU_PPS_IN_TS, .NTU_CAP_STAT, .NTU_TSYNC_TS] ++ refuseRegs)
  | .ntuTimeNs .. =>
    some ([.NTU_TIME_S_LO, .NTU_TIME_S_HI, .NTU_RAW_LO, .NTU_RAW_HI] ++ refuseRegs)
  | .pfClr .. =>
    some ([.PATH_CTL, .DFE_CNT_CFR, .DPD_CNT_SAT, .PHY_DFS_MAP] ++ refuseRegs)
  | .plausFail .. =>
    some [.CAL_STAT, .CAL_TEMP, .CAL_QW, .CAL_QW_INFO, .CAL_REJ, .CAL_CNT_RUN, .CAL_RED, .HKA_CHK_STAT, .HKA_CNT_PLAUS]
  | .rffePoll .. =>
    some [.FEN_CNT_RFFE_NOACK, .FEN_CNT_PATH_FAULT, .DFE_CNT_CFR, .DPD_CNT_SAT, .PHY_CCA_STAT, .PHY_FALSE_START, .PHY_HDR_FAIL, .PHY_RX_ABORT, .PHY_DFS_MAP]
  | .tlyReady .. | .tlyDelay .. =>
    some ([.TLY_ENQ_STAT, .TLY_CNT_FULL, .TLY_CNT_FENCED, .TLY_CNT_DLY_LATE] ++ refuseRegs)
  | .vinAoRise =>
    some [.AO_STATUS, .AO_PUSH_STAT, .AO_BOOT_INFO, .AO_IMAGE_SERIAL, .HKA_CFG, .HKA_CH, .IDN_LIFECYCLE, .AO_WAKE_FAIL, .AO_AGE_STAT]
  | .vioOvercurrent .. =>
    some [.FEN_RFFE_CFG, .FEN_CNT_PATH_FAULT, .DFE_CNT_CFR, .DPD_CNT_SAT, .PHY_CCA_STAT, .PHY_FALSE_START, .PHY_HDR_FAIL, .PHY_RX_ABORT, .PHY_DFS_MAP]
  | .ethFrameReceive .. =>
    some [.PRS_CNT_ING_DROP, .ETH_CNT_RX_OK, .ETH_CNT_RX_FCS, .ETH_CNT_RX_RUNT, .ETH_CNT_RX_OVERSIZE, .ETH_CNT_MSEC_AUTH, .ETH_CNT_MSEC_REPLAY, .ETH_CNT_MSEC_NOSA,
      .ETH_CNT_MSEC_UNTAGGED, .CIP_CNT_POLICY]
  | .hkaResult .. =>
    some [.CAL_STAT, .CAL_TEMP, .CAL_QW, .CAL_QW_INFO, .CAL_REJ, .CAL_CNT_RUN, .CAL_RED, .HKA_QLEVEL, .HKA_VAL, .HKA_CNT_QDROP]
  | .msduDelivery | .packetStart .. =>
    some [.WAC_CNT_UNAUTH, .WAC_CNT_NOSTA, .WAC_CNT_TX_OVERSIZE, .FLW_SW_RX_TAIL, .FLW_CNT_SW_RX_DROP, .ETH_CNT_TX_OK, .ETH_CNT_MSEC_PN_EXH, .TMG_CNT_GATE_OVERSIZE,
      .NTU_CNT_TXTS_DROP, .CIP_CNT_POLICY]
  | .restackRequest .. | .restackCancel .. =>
    some ([.RGC_RESTACK_CTL, .RGC_RESTACK_STAT, .CAL_STAT, .CAL_QW, .CAL_QW_INFO, .CAL_CNT_REBOOK] ++ refuseRegs)
  | .calCommit .. | .calLoad .. | .calRed .. =>
    some ([.CAL_STAT, .CAL_TEMP, .CAL_QW, .CAL_QW_INFO, .CAL_REJ, .CAL_CNT_RUN, .CAL_RED] ++ refuseRegs)
  | .orxVisitEnd .. =>
    some [.PATH_STAT, .FEN_CNT_PATH_FAULT, .DFE_CNT_CFR, .DPD_STAT, .DPD_CNT_SAT, .DPD_CNT_REVERT, .ORX_CNT_VISIT, .PHY_CCA_STAT, .PHY_FALSE_START, .PHY_HDR_FAIL,
      .PHY_RX_ABORT, .PHY_DFS_MAP]
  | .calRun .. | .calAbort .. =>
    some ([.CAL_CTL, .CAL_STAT, .CAL_TEMP, .CAL_QW, .CAL_QW_INFO, .CAL_REJ, .CAL_CNT_RUN, .CAL_RED] ++ refuseRegs)
  | .gcmEnc .. | .gcmDec .. | .gmacGen .. | .gmacVer .. | .ccmEnc .. | .ccmDec .. | .xtsEnc .. | .xtsDec .. | .cipCtr .. | .cmacGen ..
  | .cmacVer .. =>
    some ([.SRM_ECC_ADDR, .SRM_CNT_UNCORR, .DMC_ECC_ADDR, .DMC_CNT_UNCORR, .CIP_JOB_HEAD, .CIP_CNT_JOBS, .CIP_CNT_AUTH_FAIL, .CIP_CNT_POLICY, .CIP_CNT_BAD_DESC] ++ errRegs)
  | .mpduReceive .. =>
    some [.WAC_MRX_TAIL, .WAC_CNT_DUP, .WAC_CNT_OLD, .WAC_CNT_REPLAY, .WAC_CNT_MIC_FAIL, .WAC_CNT_RETRY_DROP, .WAC_CNT_LIFETIME, .WAC_CNT_UNAUTH, .WAC_CNT_MRX_DROP,
      .WAC_CNT_REFUSED, .PRS_CNT_ING_DROP, .PBF_CNT_SPILL_CAP, .CIP_CNT_POLICY]
  | .lrcFrameEnd .. =>
    some ([.TXA_RX_TAIL, .TXA_CNT_RX_OK, .TXA_CNT_CRC_FAIL, .TXA_CNT_NETID, .TXA_CNT_MIC_FAIL, .TXA_CNT_REPLAY, .TXA_CNT_DUP_ACKED, .TXA_CNT_RX_DROP, .TXA_CNT_DL_FAIL,
      .CIP_CNT_POLICY] ++ errRegs)
  | .ntuAdj .. | .ntuSet .. | .ntuForceAdj .. | .ntuForceSet .. | .ntuUnlock .. =>
    some ([.RGC_RESTACK_STAT, .CAL_STAT, .CAL_QW, .CAL_QW_INFO, .CAL_CNT_REBOOK, .FHU_CNT_NO_TIME, .NTU_STATUS, .NTU_TIME_STAT, .NTU_CNT_STEP_REFUSED] ++ refuseRegs)
  | .swTxDescriptorFetch .. =>
    some ([.PRS_CNT_ING_DROP, .FLW_SW_TX_HEAD, .FLW_CNT_BAD_DESC, .TMG_CNT_ENQ, .TMG_CNT_METER_DROP, .TMG_CNT_Q_DROP, .TMG_CNT_BUF_DROP, .TMG_CNT_NO_SUB, .TMG_CNT_LINK_DROP,
      .PBF_CNT_SPILL_CAP] ++ errRegs)
  | .dlRun | .downlinkWindow1 .. | .downlinkWindow2 .. =>
    some [.FEN_CNT_LATE, .DFE_CNT_CFR, .DPD_CNT_SAT, .ORX_CNT_STALL, .ORX_CNT_ABANDON, .PHY_CCA_STAT, .PHY_TX_NOSTART, .WAC_MRX_TAIL, .WAC_CNT_RETRY_DROP, .WAC_CNT_LIFETIME,
      .WAC_CNT_MRX_DROP, .WAC_CNT_REFUSED, .FHU_CNT_TX_LOST, .TXA_CNT_DL_SENT, .TXA_CNT_DL_FAIL, .PBF_CNT_SPILL_CAP]
  | .mtxDescriptorFetch .. =>
    some ([.WAC_MTX_HEAD, .WAC_MRX_TAIL, .WAC_CNT_RETRY_DROP, .WAC_CNT_LIFETIME, .WAC_CNT_MRX_DROP, .WAC_CNT_REFUSED, .SRM_ECC_ADDR, .SRM_CNT_UNCORR, .PBF_CNT_SPILL_CAP,
      .DMC_ECC_ADDR, .DMC_CNT_UNCORR, .CIP_CNT_POLICY] ++ errRegs)
  | .vinMainPresent | .thermalWakeRelease .. | .smbusAddressMatch .. | .wakeUpFrame .. | .gpioWake .. | .timerWake =>
    some [.AO_STATUS, .AO_PUSH_STAT, .AO_BOOT_INFO, .AO_IMAGE_SERIAL, .HKA_CFG, .HKA_CH, .IDN_LIFECYCLE, .AO_SLEEP_STAT, .AO_SLEEP_REC, .AO_WAKE_REC0, .AO_WAKE_REC1,
      .AO_WAKE_REC2, .AO_WAKE_REC3, .AO_WAKE_FAIL, .AO_AGE_STAT, .AO_WAKE_TICKS]
  | .wacTableLoad .. | .wacTableCommit .. | .wacTableClear .. =>
    some ([.PHY_DFS_MAP, .WAC_TBL_STAT, .WAC_TBL_WIN, .WAC_MRX_TAIL, .WAC_CNT_REPLAY, .WAC_CNT_RETRY_DROP, .WAC_CNT_LIFETIME, .WAC_CNT_MRX_DROP, .WAC_CNT_REFUSED,
      .PRS_CNT_ING_DROP, .PBF_CNT_SPILL_CAP] ++ refuseRegs)
  | .lateTolExpiry .. | .transmissionEnd .. | .coexReqRise .. | .maxDefer .. =>
    some (airRegs)
  | .perstRise =>
    some [.AO_STATUS, .AO_PUSH_STAT, .AO_BOOT_INFO, .AO_IMAGE_SERIAL, .HKA_CFG, .HKA_CH, .IDN_LIFECYCLE, .AO_SLEEP_STAT, .AO_SLEEP_REC, .AO_WAKE_REC0, .AO_WAKE_REC1,
      .AO_WAKE_REC2, .AO_WAKE_REC3, .AO_WAKE_FAIL, .AO_AGE_STAT, .HL_STAT, .AO_WAKE_TICKS]
  | .ppduTransmitRequest .. =>
    some [.FEN_CNT_LATE, .DFE_CNT_CFR, .DPD_CNT_SAT, .ORX_CNT_STALL, .ORX_CNT_ABANDON, .PHY_CCA_STAT, .PHY_TX_NOSTART, .WAC_MRX_TAIL, .WAC_CNT_RETRY_DROP, .WAC_CNT_LIFETIME,
      .WAC_CNT_MRX_DROP, .WAC_CNT_REFUSED, .FHU_CNT_TX_LOST, .TXA_CNT_DL_SENT, .TXA_CNT_DL_FAIL, .PBF_CNT_SPILL_CAP, .CIP_CNT_POLICY]
  | .calExport .. | .calRestore .. =>
    some ([.CAL_STAT, .CAL_TEMP, .CAL_QW, .CAL_QW_INFO, .CAL_REJ, .CAL_CNT_RUN, .CAL_RED, .CAL_XP_CTL, .CAL_XP_STAT, .SRM_ECC_ADDR, .SRM_CNT_UNCORR, .DMC_ECC_ADDR,
      .DMC_CNT_UNCORR] ++ refuseRegs)
  | .fhFrameReceive .. =>
    some [.BEAM_STAT, .FHU_CNT_ON_TIME, .FHU_CNT_EARLY, .FHU_CNT_LATE, .FHU_CNT_CP_EARLY, .FHU_CNT_CP_LATE, .FHU_CNT_MALFORMED, .FHU_CNT_UNSUPPORTED, .FHU_CNT_UNKNOWN,
      .FHU_CNT_SEQ_ERR, .FHU_CNT_DUP, .FHU_CNT_OVERSIZE, .FHU_CNT_NO_CPLANE, .FHU_CNT_BUF_FULL, .FHU_CNT_CONFLICT, .FHU_CNT_BAD_BEAM, .FHU_CNT_W_SAT, .FHU_CNT_NO_TIME,
      .PRS_CNT_ING_DROP]
  | .lockLost .. =>
    some ([.SYN_STAT, .FEN_CNT_LOCK_LOST, .PHY_FALSE_START, .PHY_HDR_FAIL, .PHY_RX_ABORT] ++ airRegs)
  | .refclkLost =>
    some ([.SYN_STAT, .FEN_CNT_LOCK_LOST, .PHY_FALSE_START, .PHY_HDR_FAIL, .PHY_RX_ABORT, .NTU_STATUS] ++ airRegs)
  | .passEnd .. =>
    some [.PRS_CNT_MAL, .PRS_CNT_RECIRC, .FLW_CNT_NO_ROUTE, .FLW_CNT_TTL, .FLW_CNT_MTU, .FLW_CNT_ACL_DENY, .FLW_CNT_MISS_DROP, .FLW_CNT_LEARN_FAIL, .FLW_CNT_NAT_EXHAUST,
      .FLW_CNT_NAT_UNSUP, .FLW_CNT_ESP_AUTH, .FLW_CNT_ESP_REPLAY, .FLW_CNT_ESP_NOSA, .FLW_CNT_L2_MOVE, .FLW_CNT_L2_LEARN_FAIL, .ETH_CNT_TX_MTU, .TMG_CNT_ENQ, .TMG_CNT_METER_DROP,
      .TMG_CNT_Q_DROP, .TMG_CNT_BUF_DROP, .TMG_CNT_NO_SUB, .TMG_CNT_LINK_DROP, .PBF_CNT_SPILL_CAP, .CIP_CNT_POLICY]
  | .flowBucketFetch .. =>
    some ([.FLW_CNT_NO_ROUTE, .FLW_CNT_TTL, .FLW_CNT_MTU, .FLW_CNT_ACL_DENY, .FLW_CNT_MISS_DROP, .FLW_CNT_LEARN_FAIL, .FLW_CNT_NAT_EXHAUST, .FLW_CNT_NAT_UNSUP,
      .FLW_CNT_ESP_NOSA, .FLW_CNT_L2_MOVE, .FLW_CNT_L2_LEARN_FAIL, .ETH_CNT_TX_MTU, .TMG_CNT_ENQ, .TMG_CNT_METER_DROP, .TMG_CNT_Q_DROP, .TMG_CNT_BUF_DROP, .TMG_CNT_NO_SUB,
      .TMG_CNT_LINK_DROP, .SRM_ECC_ADDR, .SRM_CNT_UNCORR, .PBF_CNT_SPILL_CAP, .DMC_ECC_ADDR, .DMC_CNT_UNCORR, .CIP_CNT_POLICY] ++ errRegs)
  | .transmissionStart .. =>
    some ([.FEN_CNT_DELAYED, .FEN_CNT_GUARD_CLAMP, .FEN_CNT_GUARD_BLOCK, .BEAM_CNT_MISS, .BEAM_CNT_BADREC, .BEAM_CNT_NORM, .DPD_STAT, .PHY_FALSE_START, .PHY_HDR_FAIL,
      .PHY_RX_ABORT, .PHY_TX_PPDU, .FHU_CNT_TX_TRUNC, .TXA_CNT_RX_ABORT] ++ airRegs)
  | .fallbackReturn =>
    some ([.RGC_STACK_CUR, .SYN_STAT, .SYN_FINE, .BEAM_STAT, .DPD_STAT, .CAL_STAT, .CAL_QW, .CAL_QW_INFO, .CAL_CNT_REBOOK, .PHY_FALSE_START, .PHY_HDR_FAIL, .PHY_RX_ABORT,
      .PHY_DFS_MAP, .FHU_CNT_RESTACK_DISC, .FHU_CNT_RET_DROP, .TXA_CNT_RESTACK_DISC] ++ airRegs)
  | .restackBoundary =>
    some ([.RGC_RESTACK_STAT, .RGC_STACK_CUR, .SYN_STAT, .SYN_FINE, .BEAM_STAT, .DPD_STAT, .CAL_STAT, .CAL_QW, .CAL_QW_INFO, .CAL_CNT_REBOOK, .PHY_FALSE_START,
      .PHY_HDR_FAIL, .PHY_RX_ABORT, .PHY_DFS_MAP, .FHU_CNT_RESTACK_DISC, .FHU_CNT_RET_DROP, .TXA_CNT_RESTACK_DISC] ++ airRegs)
  | .restackGapEnd =>
    some ([.RGC_RESTACK_STAT, .RGC_STACK_CUR, .SYN_STAT, .SYN_FINE, .BEAM_STAT, .DPD_STAT, .CAL_STAT, .CAL_QW, .CAL_QW_INFO, .CAL_CNT_REBOOK, .PHY_FALSE_START,
      .PHY_HDR_FAIL, .PHY_RX_ABORT, .PHY_DFS_MAP, .FHU_CNT_RESTACK_DISC, .FHU_CNT_RET_DROP, .TXA_FB_STAT, .TXA_CNT_RESTACK_DISC] ++ airRegs)
  | .registerWrite .. | .counterRead .. | .resultRead .. | .accessTimeout .. | .crossbarTimeout .. | .controlStorageEcc .. | .tamper ..
  | .kilnDetectorTrip | .vinAoLoss | .vinMainLoss .. | .thermalTrip .. | .railFault .. | .phase1Answer | .wakeStageReady ..
  | .wakeStageTimeout .. | .kilnBoot .. | .imageVerify .. | .cordApply .. | .firmwareLoad .. | .pushAbort .. | .openBoot .. | .openReload ..
  | .openStoreA .. | .openStoreB .. | .reloadFromA .. | .reloadFromB .. | .regionReload .. | .trngHealthFail | .ashRelease ..
  | .smbusWriteReg .. | .smbusRead | .smbusPush .. =>
    none

end Sys2Proof.Machine
end

