-- ==== Sys2Proof/Certificates/Slice0/Obligations.lean ====
section
/-! DEFINITION. The statements for the provers: the machine as a whole first, then the commands family by family. -/
open Sys2Proof Sys2Proof.Machine

/-- A step with a command at the front of the queue is that command's effect on the state with the queue's rest. For every command and every state: step
of the state with the command at the front of its queue is exec of the command on the state with the queue's rest. -/
def Obligations.StepRunsFrontCommand : Prop :=
  ∀ (s : State) (c : Instr) (rest : List Instr), step { s with pending := c :: rest } = exec c { s with pending := rest }

/-- On an empty queue a step is one nanosecond: time and the raw counter move on, and an AFC install whose check has ended completes. The model's choice
(entries 1 and 17): with no command waiting the step answers a next state in which the time is one nanosecond on. While the raw counter runs on REFCLK
it is one on (R352); while it is stopped the network time unit is the same. Unless an AFC install has come to its end, every other part is the same.
When it has, WAC_AFC_STAT shows the first failing check of R239, or 0, and then the record's entries are the grants. -/
def Obligations.EmptyQueueIsOneNanosecond : Prop :=
  ∀ s : State, s.pending = [] → ∃ t, step s = .next t ∧ t.now = s.now + 1 ∧ t.pending = [] ∧
    (s.ntu.running = true → s.pwr.refclk = true → t.ntu = { s.ntu with raw := s.ntu.raw + 1 }) ∧ (s.ntu.running = false → t.ntu = s.ntu) ∧
    ((∀ a e, s.radio.afcRun = some (a, e) → s.now + 1 < e ∨ s.active 5 = false) → ∀ p : Part, p ≠ .ntu → p.same s t) ∧
    (∀ a e, s.canonical = true → s.radio.afcRun = some (a, e) → e ≤ s.now + 1 → s.active 5 = true →
      t.radio.afcRun = none ∧ t.get Fld.WAC_AFC_STAT.VALID = 1 ∧ t.get Fld.WAC_AFC_STAT.RESULT = s.afcCheck a ∧
      t.radio.afc = (if s.afcCheck a = 0 then afcEntries (s.bytes a (64 + 32 * s.num (a + 6) 1)) (s.num (a + 6) 1) else s.radio.afc))

/-- Every command answers a next state in every state: none faults and none is refused. Of all 335 commands, on every operand and in every state, exec
answers a next state. -/
def Obligations.EveryCommandAnswersANextState : Prop :=
  ∀ (c : Instr) (s : State), ∃ t, exec c s = .next t

/-- Reset keeps both invariants: stores in canonical form, and every list of fixed length at its length. The state after reset has its registers, memory
and flash in canonical form, its units in their numbers and its tables in canonical form, and an empty queue. -/
def Obligations.ResetIsWellKept : Prop :=
  State.reset.canonical = true ∧ State.reset.shaped ∧ State.reset.sized ∧ State.reset.pending = []

/-- Every step keeps registers, memory and flash in canonical form. For every state whose registers, memory and flash are in canonical form, reached or
not: when a step answers a next state, that state's are. -/
def Obligations.StepKeepsCanonicalForm : Prop :=
  ∀ s t : State, s.canonical = true → step s = .next t → t.canonical = true

/-- Every step keeps the numbers of units and the lengths of the lists that have a fixed one, and the entry tables in canonical form. For every state with
its fixed numbers of quadrants, paths, synthesisers, buses, receivers, ports, PHYs, links, demodulators, reckoners, event sources, slots and rings,
and its tables in canonical form: when a step answers a next state, that state has them too. -/
def Obligations.StepKeepsFixedLengths : Prop :=
  ∀ s t : State, s.shaped → s.sized → step s = .next t → t.shaped ∧ t.sized

/-- A command leaves the queue, the time and every part of the state that is not its own as they were. For every command: where exec answers a next state,
the queue and the time are the same, and so is every part of the state (registers, memory, flash, each unit) that touchedParts does not list for the
command. A command whose parts do not list memory changes no byte of it. -/
def Obligations.CommandsChangeOnlyTheirParts : Prop :=
  ∀ (c : Instr) (s t : State), exec c s = .next t → t.pending = s.pending ∧ t.now = s.now ∧ ∀ p : Part, p ∉ touchedParts c → p.same s t

/-- A command changes no register but those of its list, at any instance and in any copy. For every command for which touchedRegs gives a list: where exec
answers a next state from one with its stores in canonical form, every register that is not in the list has the same word at every instance and in
every copy. Commands that reach every register (a write at any address, a change of mode, an image) have no list. -/
def Obligations.CommandsWriteOnlyTheirRegisters : Prop :=
  ∀ (c : Instr) (s t : State) (l : List Reg), s.canonical = true → touchedRegs c = some l → exec c s = .next t →
    ∀ r : Reg, r ∉ l → ∀ (ix : List Nat) (k : Nat), t.reg r ix k = s.reg r ix k

/-- Jobs, Kiln's outputs, reckoner stores, DMA and flash operations change no byte outside the run that they store to. In every state with its stores in
canonical form: a job of PK.CIP changes no byte of memory outside the run of R452 that its descriptor gives; GET_RANDOM, ATTEST and GET_CERT none
outside OUT; ST and STE none outside the words at EA; a completed DMA none outside its destination; a completed flash READ none outside SYS, and a
PROGRAM or an erase no byte of flash outside its range. -/
def Obligations.StoringCommandsChangeOnlyTheirBytes : Prop :=
  ∀ s t : State, s.canonical = true →
    (∀ (r : Nat) (c : Instr), c ∈ [.gcmEnc r, .gcmDec r, .gmacGen r, .gmacVer r, .ccmEnc r, .ccmDec r, .xtsEnc r, .xtsDec r, .cipCtr r, .cmacGen r, .cmacVer r] →
      exec c s = .next t → ∀ a, Outside (jobDest (s.jobDesc r)) a → t.byte a = s.byte a) ∧
    (∀ (m : MbReq) (q : List MbReq), s.kiln.mbox = m :: q → ∀ c : Instr × Nat, c ∈ [(.getRandom, m.fld s 0x28 4), (.klnAttest, 3661), (.getCert, 5552)] →
      exec c.1 s = .next t → ∀ a, Outside (m.fld s 0x20 8, c.2) a → t.byte a = s.byte a) ∧
    (∀ k : Nat, exec (.rknSt k) s = .next t → ∀ a,
      (∀ j < (if mC16 (s.rkFetch k (s.rkPc k)) = true then 4 else 8), Outside (rkAddr k (s.rkEA k (s.rkFetch k (s.rkPc k)) + j), 4) a) → t.byte a = s.byte a) ∧
    (∀ k : Nat, exec (.rknSte k) s = .next t → ∀ a, Outside (rkAddr k (s.rkEA k (s.rkFetch k (s.rkPc k))), 4) a → t.byte a = s.byte a) ∧
    (∀ (k i : Nat) (d : RknDma), (s.rk k).dmas[i]? = some d → exec (.rknDmaComplete k i) s = .next t →
      ∀ a, Outside (if d.outDir = true then d.sys else rkAddr k d.word, d.bytes) a → t.byte a = s.byte a) ∧
    (∀ (ok : Bool) (op len addr sys : Nat), s.ports.spi = some (op, len, addr, sys) → exec (.xspiDone ok) s = .next t →
      (∀ a, op ≠ 1 ∨ Outside (64 * sys, len) a → t.byte a = s.byte a) ∧ (∀ a, op = 1 ∨ Outside (spiRange op addr len) a → t.fbyte a = s.fbyte a))

/-- A counter read in the cycle of an event it counts returns the count without the event and holds 1 afterwards. For every event counter at every
instance, and every requester whose read passes the judgement of R547: the read that falls in the cycle of an event answers the count as it was
before, and the counter holds 1 afterwards. -/
def Obligations.CounterReadKeepsTheSameCycleEvent : Prop :=
  (∀ (s : State) (rq : Req) (r : Reg) (ix : List Nat),
      s.canonical = true →
      r.placed ix →
      rq ≠ .jtag →
      Passes s rq r ix false →
      okRdAll r ix rq s = true →
      isRC r = true →
      Completes (.counterRead rq (r.addr ix) 4 true) s (fun t => t.answered rq (s.reg r ix) ∧ t.reg r ix = 1))

/-- An accumulator read while its reckoner runs returns BUSY=1 with data 0 and disturbs nothing of the program. While a reckoner runs, a read of the high
half of any lane of any accumulator answers BUSY=1 with the data field 0, a read of the low half answers 0, and every reckoner, its registers and
memory stay as they were. -/
def Obligations.AccumulatorReadWhileRunningIsBusy : Prop :=
  (∀ (s : State) (rq : Req) (k a l : Nat) (hi : Bool),
      k < 32 →
      a < 4 →
      l < 8 →
      Passes s rq (if hi = true then .RKN_ACC_HI else .RKN_ACC_LO) [k, 8 * a + l] false →
      s.rkRuns k = true →
      Completes (.rknAcc rq k a l hi) s (fun t => t.answered rq (if hi = true then 0x80000000 else 0) ∧ t.rkns = s.rkns ∧ t.mem = s.mem ∧ t.regs = s.regs))

/-- The registers that move network time take writes of on-device cores only; from PCI Express or SMBus they get ACCESS and time stays. A write by any
requester that is no on-device core, PCI Express and SMBus among them, to any of the registers of R363, which the mode and region rules let through to
the judgement of the requester, is not performed: it answers ACCESS, the register, the unit and network time stay. A write by an on-device core that
passes the judgement is accepted: the plain ones take the word. -/
def Obligations.OnlyCoresMoveNetworkTime : Prop :=
  (∀ (s : State) (rq : Req) (r : Reg) (v : Word),
      onDevice rq = false →
      s.mayAccess rq = true →
      r ∈ ([.NTU_TIME_CTL, .NTU_TIME_RATE_LO, .NTU_TIME_RATE_HI, .NTU_STEP_NS, .NTU_SET_NS, .NTU_SET_S_LO, .NTU_SET_S_HI, .NTU_CFG] : List Reg) →
      s.mode ≠ 0 →
      modeCode s rq (r.addr []) true = 0 →
      Completes (.registerWrite rq (r.addr []) 4 v) s (fun t => t.resp = some ⟨rq, 2, errData rq⟩ ∧ t.ntu = s.ntu ∧ t.netTime = s.netTime
      ∧ t.reg r [] = s.reg r [])) ∧
  (∀ (s : State) (rq : Req) (r : Reg) (v : Word),
      s.canonical = true →
      onDevice rq = true →
      r ∈ ([.NTU_TIME_RATE_LO, .NTU_STEP_NS, .NTU_SET_NS, .NTU_SET_S_LO, .NTU_SET_S_HI] : List Reg) →
      Passes s rq r [] true →
      Completes (.registerWrite rq (r.addr []) 4 v) s (fun t => t.answered rq 0 ∧ t.reg r [] = mergeWord r.fields (s.reg r []) v))

/-- With S=1 lane results saturate and with S=0 they wrap, and an instruction in which a lane saturates sets SAT and counts once. For VADD, VSUB, VMUL,
VSH, VBFLY and AMOV each lane of VD is the result clamped to −2^23 to 2^23 − 1 with S=1, and wrapped with S=0; for VMAC and VMSU each lane of A to 56
bits. When any lane was clamped, or a half of a C16 store was, RKN_STAT.SAT is 1 and RKN_CNT_SAT is one higher; when none was, both are as before. -/
def Obligations.ReckonerResultsSaturateOrWrap : Prop :=
  (∀ (s : State) (k w : Nat),
      s.canonical = true →
      s.rkAt k 16 w →
      (s.rk k).v.length = 16 →
      Completes (.rknVadd k) s (fun t => (let l := (List.range 8).map (fun i => rnd (lane ((s.rk k).vec (fA w)) i + lane ((s.rk k).vec (fB w)) i) (fIMM w))
        (t.rk k).vec (fD w) = l.map (fun x => if fS w = true then max (-8388608) (min 8388607 x) else (BitVec.ofInt 24 x).toInt) ∧
        t.get Fld.RKN_STAT.SAT [k] = (if fS w = true ∧ l.any (fun x => decide (x < -8388608 ∨ 8388607 < x)) = true then 1 else s.get Fld.RKN_STAT.SAT [k]) ∧
        (t.reg .RKN_CNT_SAT [k]).toNat = min (2 ^ 32 - 1) ((s.reg .RKN_CNT_SAT [k]).toNat + (if fS w = true ∧ l.any (fun x => decide (x < -8388608
      ∨ 8388607 < x)) = true then 1 else 0))))) ∧
  (∀ (s : State) (k w : Nat),
      s.canonical = true →
      s.rkAt k 17 w →
      (s.rk k).v.length = 16 →
      Completes (.rknVsub k) s (fun t => (let l := (List.range 8).map (fun i => rnd (lane ((s.rk k).vec (fA w)) i - lane ((s.rk k).vec (fB w)) i) (fIMM w))
        (t.rk k).vec (fD w) = l.map (fun x => if fS w = true then max (-8388608) (min 8388607 x) else (BitVec.ofInt 24 x).toInt) ∧
        t.get Fld.RKN_STAT.SAT [k] = (if fS w = true ∧ l.any (fun x => decide (x < -8388608 ∨ 8388607 < x)) = true then 1 else s.get Fld.RKN_STAT.SAT [k]) ∧
        (t.reg .RKN_CNT_SAT [k]).toNat = min (2 ^ 32 - 1) ((s.reg .RKN_CNT_SAT [k]).toNat + (if fS w = true ∧ l.any (fun x => decide (x < -8388608
      ∨ 8388607 < x)) = true then 1 else 0))))) ∧
  (∀ (s : State) (k w : Nat),
      s.canonical = true →
      s.rkAt k 18 w →
      (s.rk k).v.length = 16 →
      fIMM w ≤ 23 →
      Completes (.rknVmul k) s (fun t => (let l := (products (fCX w) (fCJ w) ((s.rk k).vec (fA w)) ((s.rk k).vec (fB w))).map (fun x => rnd x (23 - fIMM w))
        (t.rk k).vec (fD w) = l.map (fun x => if fS w = true then max (-8388608) (min 8388607 x) else (BitVec.ofInt 24 x).toInt) ∧
        t.get Fld.RKN_STAT.SAT [k] = (if fS w = true ∧ l.any (fun x => decide (x < -8388608 ∨ 8388607 < x)) = true then 1 else s.get Fld.RKN_STAT.SAT [k]) ∧
        (t.reg .RKN_CNT_SAT [k]).toNat = min (2 ^ 32 - 1) ((s.reg .RKN_CNT_SAT [k]).toNat + (if fS w = true ∧ l.any (fun x => decide (x < -8388608
      ∨ 8388607 < x)) = true then 1 else 0))))) ∧
  (∀ (s : State) (k w : Nat),
      s.canonical = true →
      s.rkAt k 24 w →
      (s.rk k).v.length = 16 →
      Completes (.rknVsh k) s (fun t => (let l := ((s.rk k).vec (fA w)).map (fun x => if bitOf (fIMM w) 7 = true then x * 2 ^ (fIMM w % 32) else x / 2 ^ (fIMM w % 32))
        (t.rk k).vec (fD w) = l.map (fun x => if fS w = true then max (-8388608) (min 8388607 x) else (BitVec.ofInt 24 x).toInt) ∧
        t.get Fld.RKN_STAT.SAT [k] = (if fS w = true ∧ l.any (fun x => decide (x < -8388608 ∨ 8388607 < x)) = true then 1 else s.get Fld.RKN_STAT.SAT [k]) ∧
        (t.reg .RKN_CNT_SAT [k]).toNat = min (2 ^ 32 - 1) ((s.reg .RKN_CNT_SAT [k]).toNat + (if fS w = true ∧ l.any (fun x => decide (x < -8388608
      ∨ 8388607 < x)) = true then 1 else 0))))) ∧
  (∀ (s : State) (k w : Nat),
      s.canonical = true →
      s.rkAt k 23 w →
      (s.rk k).v.length = 16 →
      fCX w = true →
      fIMM w % 4 = 1 ∨ fIMM w % 4 = 2 →
      Completes (.rknVbfly k) s (fun t => (let l := butterfly (fIMM w % 4) (b2n (bitOf (fIMM w) 4)) ((s.rk k).vec (fA w)) ((s.rk k).vec (fB w))
        (t.rk k).vec (fD w) = l.map (fun x => if fS w = true then max (-8388608) (min 8388607 x) else (BitVec.ofInt 24 x).toInt) ∧
        t.get Fld.RKN_STAT.SAT [k] = (if fS w = true ∧ l.any (fun x => decide (x < -8388608 ∨ 8388607 < x)) = true then 1 else s.get Fld.RKN_STAT.SAT [k]) ∧
        (t.reg .RKN_CNT_SAT [k]).toNat = min (2 ^ 32 - 1) ((s.reg .RKN_CNT_SAT [k]).toNat + (if fS w = true ∧ l.any (fun x => decide (x < -8388608
      ∨ 8388607 < x)) = true then 1 else 0))))) ∧
  (∀ (s : State) (k w : Nat),
      s.canonical = true →
      s.rkAt k 21 w →
      (s.rk k).v.length = 16 →
      fIMM w ≤ 55 →
      Completes (.rknAmov k) s (fun t => (let l := ((s.rk k).acc (fAC w)).map (fun x => rnd x (fIMM w))
        (t.rk k).vec (fD w) = l.map (fun x => if fS w = true then max (-8388608) (min 8388607 x) else (BitVec.ofInt 24 x).toInt) ∧
        t.get Fld.RKN_STAT.SAT [k] = (if fS w = true ∧ l.any (fun x => decide (x < -8388608 ∨ 8388607 < x)) = true then 1 else s.get Fld.RKN_STAT.SAT [k]) ∧
        (t.reg .RKN_CNT_SAT [k]).toNat = min (2 ^ 32 - 1) ((s.reg .RKN_CNT_SAT [k]).toNat + (if fS w = true ∧ l.any (fun x => decide (x < -8388608
      ∨ 8388607 < x)) = true then 1 else 0))))) ∧
  (∀ (s : State) (k w : Nat),
      s.canonical = true →
      s.rkAt k 19 w →
      (s.rk k).a.length = 4 →
      Completes (.rknVmac k) s (fun t => (let l := (List.range 8).map (fun i => lane ((s.rk k).acc (fAC w)) i + lane (products (fCX w) (fCJ w) ((s.rk k).vec (fA w)) ((s.rk k).vec (fB w))) i)
        (t.rk k).acc (fAC w) = l.map (fun x => if fS w = true then max (-36028797018963968) (min 36028797018963967 x) else (BitVec.ofInt 56 x).toInt) ∧
        t.get Fld.RKN_STAT.SAT [k] = (if fS w = true ∧ l.any (fun x => decide (x < -36028797018963968
      ∨ 36028797018963967 < x)) = true then 1 else s.get Fld.RKN_STAT.SAT [k]) ∧
        (t.reg .RKN_CNT_SAT [k]).toNat = min (2 ^ 32 - 1) ((s.reg .RKN_CNT_SAT [k]).toNat + (if fS w = true ∧ l.any (fun x => decide (x < -36028797018963968
      ∨ 36028797018963967 < x)) = true then 1 else 0))))) ∧
  (∀ (s : State) (k w : Nat),
      s.canonical = true →
      s.rkAt k 20 w →
      (s.rk k).a.length = 4 →
      Completes (.rknVmsu k) s (fun t => (let l := (List.range 8).map (fun i => lane ((s.rk k).acc (fAC w)) i - lane (products (fCX w) (fCJ w) ((s.rk k).vec (fA w)) ((s.rk k).vec (fB w))) i)
        (t.rk k).acc (fAC w) = l.map (fun x => if fS w = true then max (-36028797018963968) (min 36028797018963967 x) else (BitVec.ofInt 56 x).toInt) ∧
        t.get Fld.RKN_STAT.SAT [k] = (if fS w = true ∧ l.any (fun x => decide (x < -36028797018963968
      ∨ 36028797018963967 < x)) = true then 1 else s.get Fld.RKN_STAT.SAT [k]) ∧
        (t.reg .RKN_CNT_SAT [k]).toNat = min (2 ^ 32 - 1) ((s.reg .RKN_CNT_SAT [k]).toNat + (if fS w = true ∧ l.any (fun x => decide (x < -36028797018963968
      ∨ 36028797018963967 < x)) = true then 1 else 0))))) ∧
  (∀ (s : State) (k w : Nat),
      s.canonical = true →
      s.rkAt k 9 w →
      Completes (.rknSt k) s (fun t => (let c := mC16 w && (List.range 8).any (fun j => (decide (rnd (lane ((s.rk k).vec (fD w)) j) 8 < -32768
      ∨ 32767 < rnd (lane ((s.rk k).vec (fD w)) j) 8)))
        t.get Fld.RKN_STAT.SAT [k] = (if c = true then 1 else s.get Fld.RKN_STAT.SAT [k]) ∧
        (t.reg .RKN_CNT_SAT [k]).toNat = min (2 ^ 32 - 1) ((s.reg .RKN_CNT_SAT [k]).toNat + (if c = true then 1 else 0))))) ∧
  (∀ (s : State) (k w : Nat),
      s.canonical = true →
      s.rkAt k 11 w →
      Completes (.rknSte k) s (fun t => (let c := mC16 w && ((decide (rnd (lane ((s.rk k).vec (fD w)) (2 * (mLane w % 4))) 8 < -32768
      ∨ 32767 < rnd (lane ((s.rk k).vec (fD w)) (2 * (mLane w % 4))) 8)) || (decide (rnd (lane ((s.rk k).vec (fD w)) (2 * (mLane w % 4) + 1)) 8 < -32768
      ∨ 32767 < rnd (lane ((s.rk k).vec (fD w)) (2 * (mLane w % 4) + 1)) 8)))
        t.get Fld.RKN_STAT.SAT [k] = (if c = true then 1 else s.get Fld.RKN_STAT.SAT [k]) ∧
        (t.reg .RKN_CNT_SAT [k]).toNat = min (2 ^ 32 - 1) ((s.reg .RKN_CNT_SAT [k]).toNat + (if c = true then 1 else 0)))))

/-- A plain write is performed field by field, one without a writable field refused, counters are read and cleared, results read and early reads counted.
A write that its rules let through, of a register that only stores it, is answered OK and leaves the word of R8. A write of a register without a
writable field gets ACCESS; beside the response only the capture of the refusal changes (RGC_ERR of a region, HL_FN_ERR of a function, events, log,
outputs). A read of an event counter answers its count and leaves 0, or 1 when an event of the same cycle is counted. A read of a result register is
answered OK; bit 31 of the answer is the VALID held, or 0 when the read falls into the cycle of the commit, and a read that returns VALID=0 adds one
to RGC_EARLY_READ of the region, any other none; but for the four whose fields are read from elsewhere the answer is the word held. An access that its
block has not completed after HANG_TO is answered TIMEOUT and noted; one that is not yet the HANG_MAX-th of its block in 1 ms fences nothing, and in
Service the HANG_MAX-th fences a running region 0 to 5 with cause HANG, code 5. -/
def Obligations.AccessesComplete : Prop :=
  (∀ (s : State) (rq : Req) (r : Reg) (ix : List Nat) (v : Word),
      s.canonical = true →
      r.placed ix →
      rq ≠ .jtag →
      Passes s rq r ix true →
      writable r = true →
      fullAll (r.addr ix) v s = false →
      okAll r ix v rq s = true →
      wrAll r ix v rq s = storeWord r ix v rq s →
      Completes (.registerWrite rq (r.addr ix) 4 v) s (fun t => t.answered rq 0
      ∧ t.reg r ix (regCopy rq r) = mergeWord r.fields (s.reg r ix (regCopy rq r)) v)) ∧
  (∀ (s : State) (rq : Req) (r : Reg) (ix : List Nat) (v : Word),
      s.canonical = true →
      r.placed ix →
      rq ≠ .jtag →
      Passes s rq r ix true →
      writable r = false →
      Completes (.registerWrite rq (r.addr ix) 4 v) s (fun t => t.resp = some ⟨rq, 2, errData rq⟩ ∧ (∀ p : Part, p ∉ [.resp, .outs, .regs, .evt, .ash]
      → p.same s t) ∧
        (∀ r2 : Reg, r2 ∉ [.RGC_ERR_ADDR_LO, .RGC_ERR_ADDR_HI, .RGC_ERR_INFO, .RGC_ERR_TIME, .HL_FN_ERR] → ∀ (i : List Nat) (k : Nat),
      t.reg r2 i k = s.reg r2 i k))) ∧
  (∀ (s : State) (rq : Req) (r : Reg) (ix : List Nat) (same : Bool),
      s.canonical = true →
      r.placed ix →
      rq ≠ .jtag →
      Passes s rq r ix false →
      okRdAll r ix rq s = true →
      isRC r = true →
      Completes (.counterRead rq (r.addr ix) 4 same) s (fun t => t.answered rq (s.reg r ix) ∧ t.reg r ix = w32 (b2n same))) ∧
  (∀ (s : State) (rq : Req) (r : Reg) (ix : List Nat) (same : Bool),
      s.canonical = true →
      r.placed ix →
      rq ≠ .jtag →
      Passes s rq r ix false →
      okRdAll r ix rq s = true →
      isResult r = true →
      Completes (.resultRead rq (r.addr ix) 4 same) s (fun t => (let v := wbits (s.reg r ix (regCopy rq r)) 31 31
        let d := ((t.resp.map (·.data)).getD 0)
        t.answered rq d ∧ wbits d 31 31 = (if same = true then 0 else v) ∧
        (r ∉ [.HKA_VAL, .WAC_AFC_STAT, .TMG_GATE_STAT, .NTU_CAP_STAT]
      → d = wset (shownWord r.fields (s.reg r ix (regCopy rq r))) 31 31 (if same = true then 0 else v)) ∧
        t.get Fld.RGC_EARLY_READ.COUNT [aRegion (r.addr ix)] =
          (if same = true ∨ v = 0 then satAdd 0xFFFFFFFF (s.get Fld.RGC_EARLY_READ.COUNT [aRegion (r.addr ix)]) 1 else s.get Fld.RGC_EARLY_READ.COUNT [aRegion (r.addr ix)])))) ∧
  (∀ (s : State) (rq : Req) (a : Nat),
      s.reachesBlock rq a = true →
      s.held.any (heldAs rq a) = false →
      (s.timeouts.filter (fun e => e.1 == (ownerOf a).1 && e.2.1 == (ownerOf a).2)).length + 1 < s.get Fld.RGC_HANG_CFG.HANG_MAX [(ownerOf a).1] →
      Completes (.accessTimeout rq a) s (fun t => t.resp = some ⟨rq, 5, errData rq⟩ ∧ t.mode = s.mode ∧
        t.timeouts = ((ownerOf a).1, (ownerOf a).2, s.now) :: s.timeouts.filter (fun e => decide (s.now < e.2.2 + 1000000)))) ∧
  (∀ (s : State) (rq : Req) (a : Nat),
      s.canonical = true →
      s.reachesBlock rq a = true →
      s.held.any (heldAs rq a) = false →
      (ownerOf a).1 < 6 →
      s.serving = true →
      s.running (ownerOf a).1 = true →
      1 ≤ s.get Fld.RGC_HANG_CFG.HANG_MAX [(ownerOf a).1] →
      s.get Fld.RGC_HANG_CFG.HANG_MAX [(ownerOf a).1] ≤ (s.timeouts.filter (fun e => e.1 == (ownerOf a).1 && e.2.1 == (ownerOf a).2 && decide (s.now < e.2.2 + 1000000))).length + 1 →
      Completes (.accessTimeout rq a) s (fun t => t.mode = 4 ∧ t.fenced (ownerOf a).1 = true ∧
        t.reg .RGC_FENCE_CAUSE [(ownerOf a).1] = w32 (2 ^ 31 + (ownerOf a).2 * 65536 + reqId rq * 256 + 21)))

/-- A hang or an uncorrectable error in a block of a running region fences the region with its cause. In Service or Fenced, a crossbar timeout at a
register of a running region 0 to 5 fences the region: MODE is Fenced, its bit of FENCE_MASK is set, RGC_FENCE_CAUSE names the block, the requester,
HANG and code TIMEOUT; an uncorrectable error of control storage does the same with HANG clear and code ECC. -/
def Obligations.BlockFaultsFence : Prop :=
  (∀ (s : State) (rq : Req) (a : Nat),
      s.canonical = true →
      a < 0x8000000 →
      aRegion a < 6 →
      s.serving = true →
      s.running (aRegion a) = true →
      s.reachesBlock rq a = true →
      Completes (.crossbarTimeout rq a) s (fun t => t.mode = 4 ∧ t.fenced (aRegion a) = true ∧
        t.reg .RGC_FENCE_CAUSE [aRegion a] = w32 (2 ^ 31 + aBlock a * 65536 + reqId rq * 256 + 21))) ∧
  (∀ (s : State) (rq : Req) (a : Nat),
      s.canonical = true →
      a < 0x8000000 →
      aRegion a < 6 →
      s.serving = true →
      s.running (aRegion a) = true →
      s.reachesBlock rq a = true →
      Completes (.controlStorageEcc rq a) s (fun t => t.mode = 4 ∧ t.fenced (aRegion a) = true ∧
        t.reg .RGC_FENCE_CAUSE [aRegion a] = w32 (2 ^ 31 + aBlock a * 65536 + reqId rq * 256 + 4)))

/-- A tamper input and a detector of Kiln put the part into Lockdown with their cause; TRNG failures count. A tamper input that is enabled in a part that
is not BLANK puts the part into Lockdown with LOCK_CAUSE 1 and adds one to TAMPER_COUNT, which saturates; a detector trip of Kiln puts it into
Lockdown with cause 2; a failed health test is counted, the third in succession fails the TRNG, and in Bring-up puts the part into Lockdown with cause
2. The count in succession and the numbers of the causes are those of R445, R455 and R456. -/
def Obligations.LockdownTriggersComplete : Prop :=
  (∀ (s : State) (n : Nat),
      s.canonical = true →
      s.pwr.vinAo = true →
      n < 2 →
      bitOf (s.get Fld.IDN_TAMPER_CFG.EN) n = true →
      s.get Fld.IDN_LIFECYCLE.STATE ≠ 0 →
      s.mode ≠ 5 →
      Completes (.tamper n) s (fun t => t.mode = 5 ∧ t.get Fld.AO_STATUS.LOCK_CAUSE = 1
      ∧ t.get Fld.IDN_LIFECYCLE.TAMPER_COUNT = satAdd 255 (s.get Fld.IDN_LIFECYCLE.TAMPER_COUNT) 1)) ∧
  (∀ (s : State),
      s.canonical = true →
      s.pwr.powered.contains 6 = true →
      s.mode ≠ 0 →
      s.mode ≠ 5 →
      Completes (.kilnDetectorTrip) s (fun t => t.mode = 5 ∧ t.get Fld.AO_STATUS.LOCK_CAUSE = 2)) ∧
  (∀ (s : State),
      s.pwr.powered.contains 6 = true →
      s.mode ≠ 0 →
      s.mode ≠ 5 →
      s.kiln.trngFailed = false →
      s.kiln.trngFails < 2 →
      Completes (.trngHealthFail) s (fun t => t.kiln.trngFails = s.kiln.trngFails + 1 ∧ t.kiln.trngFailed = false ∧ t.mode = s.mode)) ∧
  (∀ (s : State),
      s.canonical = true →
      s.pwr.powered.contains 6 = true →
      s.mode = 1 →
      s.kiln.trngFailed = false →
      s.kiln.trngFails = 2 →
      Completes (.trngHealthFail) s (fun t => t.kiln.trngFailed = true ∧ t.mode = 5 ∧ t.get Fld.AO_STATUS.LOCK_CAUSE = 2))

/-- VIN_AO and VIN_MAIN coming and going start a bring-up, end in Dormant or take the part off. VIN_AO that rises with VIN_MAIN present starts a bring-up:
MODE is Bring-up, CT is on its way up, the flags of the last bring-up are clear. VIN_AO that falls takes the part off: MODE 0, memory and the time
record lost, the sleep oscillator stopped. VIN_MAIN present for the first time in Dormant starts a bring-up; its loss outside Dormant and Lockdown
enters Dormant with only VDD_AO on. That memory reads as unwritten after a loss, and the order of a bring-up with both supplies, are as the model has
them (notes/assumptions/2.md and 3.md). -/
def Obligations.SupplyCommandsComplete : Prop :=
  (∀ (s : State),
      s.canonical = true →
      s.pwr.vinAo = false →
      s.pwr.vinMain = true →
      Completes (.vinAoRise) s (fun t => t.pwr.vinAo = true ∧ t.mode = 1 ∧ t.boot.phase = .wakeCt ∧ t.pwr.waking = [⟨6, 0, s.now, false⟩] ∧
        t.get Fld.AO_STATUS.BRINGUP_FAIL = 0 ∧ t.get Fld.AO_STATUS.FENCE_MASK = 0 ∧ t.get Fld.AO_STATUS.LOCK_CAUSE = 0)) ∧
  (∀ (s : State),
      s.canonical = true →
      s.pwr.vinAo = true →
      Completes (.vinAoLoss) s (fun t => t.pwr.vinAo = false ∧ t.mode = 0 ∧ t.mem = [] ∧ t.pwr.timeRec = none ∧ t.pwr.slpOn = false)) ∧
  (∀ (s : State),
      s.canonical = true →
      s.pwr.vinAo = true →
      s.pwr.vinMain = false →
      s.pwr.everMain = false →
      s.mode = 0 →
      Completes (.vinMainPresent) s (fun t => t.pwr.vinMain = true ∧ t.mode = 1 ∧ t.boot.phase = .wakeCt ∧ t.pwr.waking = [⟨6, 0, s.now, false⟩])) ∧
  (∀ (s : State) (high : Bool),
      s.canonical = true →
      s.pwr.vinAo = true →
      s.pwr.vinMain = true →
      s.mode ≠ 0 →
      s.mode ≠ 5 →
      Completes (.vinMainLoss high) s (fun t => t.pwr.vinMain = false ∧ t.mode = 0 ∧ t.pwr.powered = [7] ∧ t.mem = []))

/-- A thermal trip and a fault of a rail take down what hangs on them, with their records; aging is measured. A thermal trip of the digital die, or of a
powered RF die, enters Dormant and holds wakes from then on; 60 s after it and below 95 degrees the hold ends, and with no wake held nothing else
happens. A fault of a ready rail of a quadrant, BB or PK switches the rail off, sets its FAULT bit, and in Service or Fenced fences its region. A
measurement of a running region stores SLOW with VALID. -/
def Obligations.RailAndThermalCommandsComplete : Prop :=
  (∀ (s : State) (die : Nat),
      s.canonical = true →
      s.pwr.vinAo = true →
      die < 5 →
      s.mode ≠ 0 →
      s.mode ≠ 5 →
      s.pwr.powered.any (fun r => r == (if die = 4 then 6 else die)) = true →
      Completes (.thermalTrip die) s (fun t => t.mode = 0 ∧ t.pwr.thermalAt = some s.now ∧ t.pwr.powered = [7])) ∧
  (∀ (s : State) (temp : Int) (at_ : Nat),
      s.pwr.thermalAt = some at_ →
      at_ + 60000000000 ≤ s.now →
      temp < 1520 →
      s.pwr.heldWake = [] →
      Completes (.thermalWakeRelease temp) s (fun t => t.pwr.thermalAt = none ∧ t.mode = s.mode)) ∧
  (∀ (s : State) (temp : Int) (at_ detail : Nat),
      s.canonical = true →
      s.pwr.thermalAt = some at_ →
      at_ + 60000000000 ≤ s.now →
      temp < 1520 →
      s.pwr.heldWake = [(3, detail)] →
      s.mode = 0 →
      s.wakeBusy = false →
      detail < 256 →
      Completes (.thermalWakeRelease temp) s (fun t => t.pwr.thermalAt = none ∧ t.mode = 1 ∧ t.get Fld.AO_WAKE_REC0.SOURCE = 3
      ∧ t.get Fld.AO_WAKE_REC0.DETAIL = detail)) ∧
  (∀ (s : State) (rail kind mv : Nat),
      s.canonical = true →
      s.pwr.vinAo = true →
      rail < 10 →
      s.flag Fld.AO_RAIL_STAT.ON [rail] = true →
      s.flag Fld.AO_RAIL_STAT.READY [rail] = true →
      s.serving = true →
      s.running (railRegion rail) = true →
      Completes (.railFault rail kind mv) s (fun t => t.get Fld.AO_RAIL_STAT.ON [rail] = 0 ∧ t.get Fld.AO_RAIL_STAT.FAULT [rail] = 1 ∧ t.mode = 4
      ∧ t.fenced (railRegion rail) = true ∧
        t.reg .RGC_FENCE_CAUSE [railRegion rail] = 0x80000015)) ∧
  (∀ (s : State) (r slow : Nat),
      s.canonical = true →
      r < 8 →
      s.pwr.vinAo = true →
      r = 7 ∨ s.running r = true →
      s.serving = true →
      s.flag Fld.AO_AGE_STAT.VALID [r] = false →
      Completes (.agingMeasure r slow) s (fun t => t.get Fld.AO_AGE_STAT.VALID [r] = 1 ∧ t.get Fld.AO_AGE_STAT.SLOW [r] = min 65535 slow))

/-- SET_POINT ramps a rail, an island takes its frequency, a ramp and a deferred change end with their results. SET_POINT of a rail of a running region to
another point of its VF_TABLE entry, upwards and with no change under way, starts the ramp: the rail shows the new point and its voltage with READY
clear, and AO_VF_STAT shows RAMPING without VALID. ISLAND_CHANGE of an island of the plan to a frequency its rail allows is performed at once and
AO_VF_STAT commits IDLE with result OK. When a rail is ready its change ends with OK and READY set. A deferred change whose cause has passed is
performed. -/
def Obligations.VoltageCommandsComplete : Prop :=
  (∀ (s : State) (rq : Req) (v : Word) (e : Bytes),
      s.canonical = true →
      Passes s rq .AO_VF_CTL [] true →
      s.pwr.vf = none →
      wbits v 20 16 < 19 →
      s.vf (wbits v 20 16) = some e →
      wbits v 2 0 < vfCount e →
      s.pwr.powered.contains (railRegion (wbits v 20 16)) = true →
      s.fenced (railRegion (wbits v 20 16)) = false →
      s.push.reloading = none →
      s.vfDefers ⟨true, wbits v 20 16, wbits v 2 0, railRegion (wbits v 20 16), 0, 0, 0, false⟩ = false →
      s.get Fld.AO_RAIL_STAT.POINT [wbits v 20 16] < wbits v 2 0 →
      Completes (.setPoint rq v) s (fun t => t.answered rq 0 ∧ t.get Fld.AO_RAIL_STAT.POINT [wbits v 20 16] = wbits v 2 0
      ∧ t.get Fld.AO_RAIL_STAT.MV [wbits v 20 16] = vfMv e (wbits v 2 0) % 4096 ∧
        t.get Fld.AO_RAIL_STAT.READY [wbits v 20 16] = 0 ∧ t.get Fld.AO_VF_STAT.VALID = 0 ∧ t.get Fld.AO_VF_STAT.STATE = 1)) ∧
  (∀ (s : State) (rq : Req) (v : Word) (e : Bytes) (i : Island),
      s.canonical = true →
      Passes s rq .AO_ISL_CTL [] true →
      s.pwr.vf = none →
      s.pwr.islands.find? (fun x => x.region == wbits v 30 28 && x.block == wbits v 27 20 && x.cell == wbits v 19 16) = some i →
      wbits v 11 0 % 25 = 0 →
      25 ≤ wbits v 11 0 ∧ wbits v 11 0 ≤ 2000 →
      s.pwr.powered.contains (wbits v 30 28) = true →
      s.fenced (wbits v 30 28) = false →
      s.push.reloading = none →
      s.vfDefers ⟨false, i.rail, 0, wbits v 30 28, wbits v 27 20, wbits v 19 16, wbits v 11 0, false⟩ = false →
      s.vf i.rail = some e →
      wbits v 11 0 ≤ vfMhz e (s.get Fld.AO_RAIL_STAT.POINT [i.rail]) →
      Completes (.islandChange rq v) s (fun t => t.answered rq 0 ∧ t.get Fld.AO_VF_STAT.VALID = 1 ∧ t.get Fld.AO_VF_STAT.STATE = 0
      ∧ t.get Fld.AO_VF_STAT.RESULT = 0 ∧
        t.pwr.islands = s.pwr.islands.map (fun x => if x.region == wbits v 30 28 && x.block == wbits v 27 20 && x.cell == wbits v 19 16 then { x with mhz := wbits v 11 0 } else x))) ∧
  (∀ (s : State) (c : VfChange),
      s.canonical = true →
      s.pwr.vf = some c →
      c.isRail = true →
      c.mhz = 0 →
      s.get Fld.AO_VF_STAT.STATE ≠ 2 →
      Completes (.railReady) s (fun t => t.get Fld.AO_RAIL_STAT.READY [c.rail] = 1 ∧ t.pwr.vf = none ∧ t.get Fld.AO_VF_STAT.VALID = 1
      ∧ t.get Fld.AO_VF_STAT.STATE = 0 ∧ t.get Fld.AO_VF_STAT.RESULT = 0)) ∧
  (∀ (s : State) (c : VfChange) (e : Bytes),
      s.canonical = true →
      s.pwr.vf = some c →
      s.get Fld.AO_VF_STAT.STATE = 2 →
      s.vfDefers c = false →
      c.isRail = true →
      c.rail < 19 →
      s.vf c.rail = some e →
      s.get Fld.AO_RAIL_STAT.POINT [c.rail] < c.point →
      c.point < 8 →
      Completes (.deferredChangeRelease) s (fun t => t.pwr.vf = some c ∧ t.get Fld.AO_RAIL_STAT.POINT [c.rail] = c.point
      ∧ t.get Fld.AO_RAIL_STAT.READY [c.rail] = 0 ∧ t.get Fld.AO_VF_STAT.STATE = 1))

/-- The first tick of the sleep oscillator starts the sleep counter, and a stop keeps the ticks made. The first tick of the sleep oscillator adds one to
the sleep counter and starts it; a stop keeps the ticks made. -/
def Obligations.SleepClockCommandsComplete : Prop :=
  (∀ (s : State),
      s.pwr.vinAo = true →
      s.pwr.slpOn = false →
      Completes (.sleepOscFirstTick) s (fun t => t.pwr.slpOn = true ∧ t.slpTicks = s.slpTicks + 1 ∧ t.ntu.slpMark = none)) ∧
  (∀ (s : State),
      s.pwr.slpOn = true →
      Completes (.sleepOscillatorStop) s (fun t => t.pwr.slpOn = false ∧ t.slpTicks = s.slpTicks ∧ t.ntu.slpMark = none))

/-- A sleep request begins phase one, blocks answer in turn, the last answer commits, an abort is retried, a cancel ends it. In Service or Fenced, OP
BANKED or DORMANT of AO_SLEEP_CTL starts phase one: AO_SLEEP_STAT shows STATE 1 and the target without VALID, and the blocks are asked in the order of
the regions that run, then CT (a fenced region is not asked: notes/assumptions/63.md). A block that agrees parks; when the last one agrees for Banked,
and AO has no reason of its own, the part is in Banked with only CT and AO powered. A block that does not answer within PH1_TO aborts the request with
reason 1 and its region and block, and it is retried after SLEEP_HOLDOFF. CANCEL ends the request with result 3 and reason 0x15. -/
def Obligations.SleepCommandsComplete : Prop :=
  (∀ (s : State) (rq : Req) (v : Word),
      s.canonical = true →
      Passes s rq .AO_SLEEP_CTL [] true →
      s.pwr.sleep = none →
      s.serving = true →
      Completes (.sleepBanked rq v) s (fun t => t.answered rq 0 ∧ t.get Fld.AO_SLEEP_STAT.VALID = 0 ∧ t.get Fld.AO_SLEEP_STAT.STATE = 1
      ∧ t.get Fld.AO_SLEEP_STAT.TARGET = 1 ∧ t.get Fld.AO_SLEEP_REC.ABORTS = 0 ∧
        t.pwr.sleep = some ⟨1, s.now, s.sleepBlocks, [], none⟩)) ∧
  (∀ (s : State) (rq : Req) (v : Word),
      s.canonical = true →
      Passes s rq .AO_SLEEP_CTL [] true →
      s.pwr.sleep = none →
      s.serving = true ∨ s.mode = 2 →
      Completes (.sleepDormant rq v) s (fun t => t.answered rq 0 ∧ t.get Fld.AO_SLEEP_STAT.VALID = 0 ∧ t.get Fld.AO_SLEEP_STAT.STATE = 1
      ∧ t.get Fld.AO_SLEEP_STAT.TARGET = 2 ∧ t.get Fld.AO_SLEEP_REC.ABORTS = 0 ∧
        t.pwr.sleep = some ⟨2, s.now, s.sleepBlocks, [], none⟩)) ∧
  (∀ (s : State) (rq : Req) (v : Word) (q : SleepReq),
      s.canonical = true →
      Passes s rq .AO_SLEEP_CTL [] true →
      s.pwr.sleep = some q →
      Completes (.sleepCancel rq v) s (fun t => t.answered rq 0 ∧ t.pwr.sleep = none ∧ t.get Fld.AO_SLEEP_STAT.VALID = 1 ∧ t.get Fld.AO_SLEEP_STAT.RESULT = 3
      ∧ t.get Fld.AO_SLEEP_REC.REASON = 0x15)) ∧
  (∀ (s : State) (q : SleepReq) (b : Nat × Nat) (rest : List (Nat × Nat)),
      s.pwr.sleep = some q →
      q.toAsk = b :: rest →
      rest ≠ [] →
      s.blockReason b.1 b.2 q.target = 0 →
      s.blockWaits b.1 b.2 = false →
      Completes (.phase1Answer) s (fun t => t.pwr.sleep = some { q with toAsk := rest, parked := b :: q.parked } ∧ t.mode = s.mode)) ∧
  (∀ (s : State) (q : SleepReq) (b : Nat × Nat),
      s.canonical = true →
      s.pwr.sleep = some q →
      q.toAsk = [b] →
      s.blockReason b.1 b.2 q.target = 0 →
      s.blockWaits b.1 b.2 = false →
      s.aoReason = 0 →
      q.target = 1 →
      Completes (.phase1Answer) s (fun t => t.mode = 2 ∧ t.pwr.sleep = none ∧ t.pwr.powered = [6, 7])) ∧
  (∀ (s : State) (q : SleepReq) (r b : Nat) (rest : List (Nat × Nat)),
      s.canonical = true →
      s.pwr.sleep = some q →
      q.toAsk = (r, b) :: rest →
      r < 8 →
      b < 256 →
      q.since + max 1 (s.get Fld.AO_SLEEP_CFG.PH1_TO) * 100000 ≤ s.now →
      s.get Fld.AO_SLEEP_REC.ABORTS < 7 →
      Completes (.phase1Timeout) s (fun t => t.get Fld.AO_SLEEP_REC.REASON = 1 ∧ t.get Fld.AO_SLEEP_REC.REGION = r ∧ t.get Fld.AO_SLEEP_REC.BLOCK = b
      ∧ t.get Fld.AO_SLEEP_REC.ABORTS = s.get Fld.AO_SLEEP_REC.ABORTS + 1 ∧
        t.pwr.sleep = some { q with toAsk := [], parked := [], retryAt := some (s.now + max 1 (s.get Fld.AO_SLEEP_CFG.SLEEP_HOLDOFF) * 1000000) })) ∧
  (∀ (s : State) (q : SleepReq) (at_ : Nat),
      s.canonical = true →
      s.pwr.sleep = some q →
      q.retryAt = some at_ →
      at_ ≤ s.now →
      Completes (.sleepRetry) s (fun t => t.get Fld.AO_SLEEP_STAT.VALID = 0 ∧ t.get Fld.AO_SLEEP_STAT.STATE = 1 ∧ t.pwr.sleep = some ⟨q.target, s.now,
      s.sleepBlocks, [], none⟩))

/-- An enabled wake source in Dormant starts a bring-up and writes the last-wake record. From Dormant, with no thermal hold, an address match on SMBus, a
Wake-up frame whose ID is enabled, a GPIO pin of WAK_GPIO and the wake timer each start a bring-up when their source is enabled, and the last-wake
record names the source, its detail, Dormant, and counts the wake. -/
def Obligations.WakeCommandsComplete : Prop :=
  (∀ (s : State) (addr : Nat) (write : Bool),
      s.canonical = true →
      s.pwr.vinAo = true →
      s.mode = 0 →
      s.pwr.thermalAt = none →
      s.wakeEn 0 = true →
      addr = s.get Fld.WAK_EN.SMB_ADDR →
      Completes (.smbusAddressMatch addr write) s (fun t => t.mode = 1 ∧ t.boot.phase = (if s.pwr.vinMain = true then .wakeCt else .off)
      ∧ t.get Fld.AO_WAKE_REC0.SOURCE = 1 ∧ t.get Fld.AO_WAKE_REC0.DETAIL = addr ∧
        t.get Fld.AO_WAKE_REC0.FROM = 0 ∧ t.get Fld.AO_WAKE_REC0.COUNT = satAdd 65535 (s.get Fld.AO_WAKE_REC0.COUNT) 1)) ∧
  (∀ (s : State) (id n : Nat),
      s.canonical = true →
      s.pwr.vinAo = true →
      s.mode = 0 →
      s.pwr.thermalAt = none →
      s.wakeEn 1 = true →
      (List.range 4).find? (fun n => s.flag Fld.WAK_WRX_ID.EN [n] && s.get Fld.WAK_WRX_ID.ID [n] == id) = some n →
      Completes (.wakeUpFrame id) s (fun t => t.mode = 1 ∧ t.boot.phase = (if s.pwr.vinMain = true then .wakeCt else .off) ∧ t.get Fld.AO_WAKE_REC0.SOURCE = 2
      ∧ t.get Fld.AO_WAKE_REC0.DETAIL = n ∧
        t.get Fld.AO_WAKE_REC0.FROM = 0 ∧ t.get Fld.AO_WAKE_REC0.COUNT = satAdd 65535 (s.get Fld.AO_WAKE_REC0.COUNT) 1)) ∧
  (∀ (s : State) (n : Nat),
      s.canonical = true →
      s.pwr.vinAo = true →
      s.mode = 0 →
      s.pwr.thermalAt = none →
      n < 4 →
      s.wakeEn 2 = true →
      bitOf (s.get Fld.WAK_GPIO.PINS) n = true →
      Completes (.gpioWake n) s (fun t => t.mode = 1 ∧ t.boot.phase = (if s.pwr.vinMain = true then .wakeCt else .off) ∧ t.get Fld.AO_WAKE_REC0.SOURCE = 3
      ∧ t.get Fld.AO_WAKE_REC0.DETAIL = n ∧
        t.get Fld.AO_WAKE_REC0.FROM = 0 ∧ t.get Fld.AO_WAKE_REC0.COUNT = satAdd 65535 (s.get Fld.AO_WAKE_REC0.COUNT) 1)) ∧
  (∀ (s : State),
      s.canonical = true →
      s.pwr.vinAo = true →
      s.mode = 0 →
      s.pwr.thermalAt = none →
      s.wakeEn 3 = true →
      (s.reg .WAK_TIMER).toNat ≠ 0 →
      s.pwr.slpOn = true →
      s.pwr.commitTicks + (s.reg .WAK_TIMER).toNat ≤ s.slpTicks →
      Completes (.timerWake) s (fun t => t.mode = 1 ∧ t.boot.phase = (if s.pwr.vinMain = true then .wakeCt else .off) ∧ t.get Fld.AO_WAKE_REC0.SOURCE = 4
      ∧ t.get Fld.AO_WAKE_REC0.DETAIL = 0 ∧
        t.get Fld.AO_WAKE_REC0.FROM = 0 ∧ t.get Fld.AO_WAKE_REC0.COUNT = satAdd 65535 (s.get Fld.AO_WAKE_REC0.COUNT) 1))

/-- The wake of CT, the start of Kiln, verification, cords and firmware carry a bring-up on, or end it with their reason. A wake stage that meets its
condition is followed by the next; after the last stage CT is powered and Kiln starts next. A stage that times out in a bring-up without a candidate
stops it with reason 0x0E, and AO_WAKE_FAIL names the domain and the stage. When Kiln starts in an enrolled part it selects the slot of R52, or waits
without an image. Verification of a slot goes on with its cords, or shows the reason of the slot. A cord that applies is followed by the next place of
the directory. Firmware whose digest holds puts its entry into core 0, and the bring-up goes on, to Service after the last cord. -/
def Obligations.BootCommandsComplete : Prop :=
  (∀ (s : State) (r : Nat) (vioOk : Bool) (w : WakeRun),
      s.pwr.waking.find? (fun x => x.region == r) = some w →
      w.since ≤ s.now →
      w.stage < 3 →
      Completes (.wakeStageReady r vioOk) s (fun t => t.pwr.waking = s.pwr.waking.map (fun x => if x.region == r then { x with stage := x.stage + 1, since := s.now } else x))) ∧
  (∀ (s : State) (r : Nat) (vioOk : Bool) (w : WakeRun),
      s.pwr.waking.find? (fun x => x.region == r) = some w →
      w.since ≤ s.now →
      w.stage = 3 →
      w.banked = false →
      Completes (.wakeStageReady r vioOk) s (fun t => t.boot.phase = .kiln ∧ t.pwr.powered.contains 6 = true ∧ t.ntu.running = true)) ∧
  (∀ (s : State) (r : Nat) (w : WakeRun),
      s.canonical = true →
      s.pwr.waking.find? (fun x => x.region == r) = some w →
      w.since + stageTimeout w.stage ≤ s.now →
      w.stage < 4 →
      r < 8 →
      w.banked = false →
      s.boot.src = 0 →
      Completes (.wakeStageTimeout r) s (fun t => t.get Fld.AO_WAKE_FAIL.VALID = 1 ∧ t.get Fld.AO_WAKE_FAIL.DOMAIN = r
      ∧ t.get Fld.AO_WAKE_FAIL.STAGE = w.stage ∧
        t.get Fld.AO_STATUS.BRINGUP_FAIL = 1 ∧ t.get Fld.AO_STATUS.BRINGUP_REASON = 0xE ∧ t.boot.phase = .stopped)) ∧
  (∀ (s : State),
      s.canonical = true →
      s.mode = 1 →
      s.boot.phase = .kiln →
      s.get Fld.AO_STATUS.BRINGUP_FAIL = 0 →
      s.get Fld.IDN_LIFECYCLE.PENDING = 0 →
      s.lifecycle = 1 →
      s.owners ≠ [] →
      Completes (.kilnBoot true true true true 1) s (fun t => t.boot.ctReady = true ∧ t.boot.phase = (if s.nextSlot = none then .noImage else .verify) ∧
        (s.nextSlot = none → t.get Fld.AO_STATUS.BRINGUP_REASON = 2) ∧ (∀ k, s.nextSlot = some k → t.boot.src = k))) ∧
  (∀ (s : State),
      s.canonical = true →
      s.mode = 1 →
      s.push.op = 0 →
      s.boot.phase = .verify →
      s.boot.src = 1 →
      Completes (.imageVerify true) s (fun t => if s.imgReason = 0 then t.boot.phase = .cords
      ∧ t.boot.cord = 0 else t.get Fld.AO_BOOT_INFO.REASON_A = s.imgReason)) ∧
  (∀ (s : State) (stage i : Nat) (dramOk vioOk : Bool),
      s.mode = 1 →
      s.boot.phase = .cords →
      nextPlace s.imgHead s.boot.cord = some i →
      s.cordHere i = true →
      Completes (.cordApply true stage dramOk vioOk) s (fun t => (s.cordDo i stage dramOk vioOk).1 = 0 → t.boot.cord = i + 1)) ∧
  (∀ (s : State),
      s.canonical = true →
      s.mode = 1 →
      s.boot.phase = .firmware →
      s.push.op = 0 →
      s.boot.src = 1 →
      Completes (.firmwareLoad true) s (fun t => Config.sha384 (s.img (leAt (s.body 6 0x35) 4 4) (leAt (s.body 6 0x35) 8 4)) = slice (s.body 6 0x35) 0x20 48 →
        t.reg .APC_CORE_START_LO [0] = w32 (leAt (s.body 6 0x35) 0x18 8 % 2 ^ 32) ∧ t.get Fld.APC_CORE_CTL.RUN [0] = 1 ∧
        (if (nextPlace s.plan.head s.boot.cord).isSome then t.boot.phase = .cords else t.mode = 3 ∧ t.boot.phase = .done)))

/-- The push registers open, feed and abort the streams of a boot, a reload and a store. OPEN_BOOT in Bring-up, OPEN_RELOAD and the stores in Service or
Fenced begin their stream: AO_PUSH_STAT shows RECEIVING, the stream is empty and belongs to the requester that opened it. RELOAD_FROM_A and
RELOAD_FROM_B begin to verify. A reload marks its target as under reload. ABORT of a store ends it with 0x34. Data joins the stream four bytes a word,
and waits while the part verifies. -/
def Obligations.PushCommandsComplete : Prop :=
  (∀ (s : State) (rq : Req) (v : Word),
      s.canonical = true →
      Passes s rq .AO_PUSH_CTL [] true →
      s.push.op = 0 →
      s.held = [] →
      s.mode = 1 →
      s.slotBusy = false →
      Completes (.openBoot rq v) s (fun t => t.answered rq 0 ∧ t.push.op = 2 ∧ t.push.data = [] ∧ t.push.verified = false ∧ t.push.owner = some rq
      ∧ t.get Fld.AO_PUSH_STAT.STATE = 1)) ∧
  (∀ (s : State) (rq : Req) (v : Word),
      s.canonical = true →
      Passes s rq .AO_PUSH_CTL [] true →
      s.push.op = 0 →
      s.held = [] →
      s.serving = true →
      wbits v 10 8 < 6 →
      s.plan.present.contains (wbits v 10 8) = true →
      s.restacking (wbits v 10 8) = false →
      s.radio.awaiting.contains (wbits v 10 8) = false →
      Completes (.openReload rq v) s (fun t => t.answered rq 0 ∧ t.push.op = 3 ∧ t.push.data = [] ∧ t.push.verified = false ∧ t.push.owner = some rq
      ∧ t.push.region = wbits v 10 8 ∧ t.push.reloading = some (wbits v 10 8) ∧ t.get Fld.AO_PUSH_STAT.STATE = 1)) ∧
  (∀ (s : State) (rq : Req) (v : Word),
      s.canonical = true →
      Passes s rq .AO_PUSH_CTL [] true →
      s.push.op = 0 →
      s.held = [] →
      s.serving = true →
      s.get Fld.AO_BOOT_INFO.SLOT_USED ≠ 1 →
      Completes (.openStoreA rq v) s (fun t => t.answered rq 0 ∧ t.push.op = 4 ∧ t.push.data = [] ∧ t.push.verified = false ∧ t.push.owner = some rq
      ∧ t.get Fld.AO_PUSH_STAT.STATE = 1)) ∧
  (∀ (s : State) (rq : Req) (v : Word),
      s.canonical = true →
      Passes s rq .AO_PUSH_CTL [] true →
      s.push.op = 0 →
      s.held = [] →
      s.serving = true →
      s.get Fld.AO_BOOT_INFO.SLOT_USED ≠ 2 →
      Completes (.openStoreB rq v) s (fun t => t.answered rq 0 ∧ t.push.op = 5 ∧ t.push.data = [] ∧ t.push.verified = false ∧ t.push.owner = some rq
      ∧ t.get Fld.AO_PUSH_STAT.STATE = 1)) ∧
  (∀ (s : State) (rq : Req) (v : Word),
      s.canonical = true →
      Passes s rq .AO_PUSH_CTL [] true →
      s.push.op = 0 →
      s.held = [] →
      s.serving = true →
      wbits v 10 8 < 6 →
      s.plan.present.contains (wbits v 10 8) = true →
      s.restacking (wbits v 10 8) = false →
      s.radio.awaiting.contains (wbits v 10 8) = false →
      Completes (.reloadFromA rq v) s (fun t => t.answered rq 0 ∧ t.push.op = 6 ∧ t.push.data = [] ∧ t.push.verified = false ∧ t.push.owner = none
      ∧ t.push.region = wbits v 10 8 ∧ t.push.reloading = some (wbits v 10 8) ∧ t.get Fld.AO_PUSH_STAT.STATE = 2)) ∧
  (∀ (s : State) (rq : Req) (v : Word),
      s.canonical = true →
      Passes s rq .AO_PUSH_CTL [] true →
      s.push.op = 0 →
      s.held = [] →
      s.serving = true →
      wbits v 10 8 < 6 →
      s.plan.present.contains (wbits v 10 8) = true →
      s.restacking (wbits v 10 8) = false →
      s.radio.awaiting.contains (wbits v 10 8) = false →
      Completes (.reloadFromB rq v) s (fun t => t.answered rq 0 ∧ t.push.op = 7 ∧ t.push.data = [] ∧ t.push.verified = false ∧ t.push.owner = none
      ∧ t.push.region = wbits v 10 8 ∧ t.push.reloading = some (wbits v 10 8) ∧ t.get Fld.AO_PUSH_STAT.STATE = 2)) ∧
  (∀ (s : State) (rq : Req) (v : Word),
      s.canonical = true →
      Passes s rq .AO_PUSH_CTL [] true →
      s.push.op = 4 ∨ s.push.op = 5 →
      s.held = [] →
      Completes (.pushAbort rq v) s (fun t => t.answered rq 0 ∧ t.push.op = 0 ∧ t.push.data = [] ∧ t.get Fld.AO_PUSH_STAT.VALID = 1
      ∧ t.get Fld.AO_PUSH_STAT.STATE = 5 ∧ t.get Fld.AO_PUSH_STAT.RESULT = 0x34)) ∧
  (∀ (s : State) (rq : Req) (v : Word),
      Passes s rq .AO_PUSH_DATA [] true →
      s.push.op = 2 ∨ s.push.op = 3 →
      s.push.owner = some rq →
      Completes (.aoPushData rq v) s (fun t => if s.pushFull then t.held = s.held ++ [⟨rq, 0x7000204, v, s.now⟩] else t.answered rq 0
      ∧ t.push.data = s.push.data ++ leBytes 4 v.toNat))

/-- An enrolment record is judged, a verified reload is applied, and their streams end. A pushed enrolment record that is complete ends its stream; one
whose checks hold makes the part PROVISIONED and enrols its authority pair, any other ends with its push code. A reload whose image has verified is
applied; it is no longer under reload, and one that applies is not fenced any more (the fields of RGC_FENCE_CAUSE after a failed reload are the
model's, notes/assumptions/65.md). -/
def Obligations.TrustedUpdateCommandsComplete : Prop :=
  (∀ (s : State),
      s.canonical = true →
      s.mode = 1 →
      s.push.op = 2 →
      s.held = [] →
      leAt s.push.data 0 4 = 0x4C524E45 →
      leAt s.push.data 8 4 = 7632 →
      7632 ≤ s.push.data.length →
      Completes (.enrolment) s (fun t => t.push.op = 0 ∧ (if s.enrolCode s.push.data = 0 then t.get Fld.IDN_LIFECYCLE.STATE = 1
      ∧ t.kiln.authority = some (pairAt s.push.data 0x860) ∧ t.get Fld.AO_PUSH_STAT.RESULT = 0
          else t.get Fld.AO_PUSH_STAT.RESULT = s.enrolCode s.push.data))) ∧
  (∀ (s : State) (stage : Nat) (vioOk : Bool),
      s.canonical = true →
      s.serving = true →
      s.push.reloading = some s.push.region →
      s.push.region < 6 →
      s.push.verified = true →
      s.push.op = 6 ∨ s.push.op = 7 →
      Completes (.regionReload true stage vioOk) s (fun t => t.push.reloading = none ∧ ((s.reloadDo s.push.region stage vioOk).1 = 0
      → t.fenced s.push.region = false)))

/-- A re-stack is booked, cancelled, begun and ended, and after a reload the quadrants return to their chosen stacks. REQUEST for which none of R68's
reasons holds (and a QMASK that is not 0, notes/assumptions/68.md) is answered OK and books the boundary: RGC_RESTACK_STAT shows PENDING without a
cause, and GAP shows a computed gap below 256 µs. CANCEL of a pending request ends it with STATE CANCELLED and cause 0. At its boundary the request
becomes a gap of the length of R66 from now on, which notes the affected paths; STATE is IN_GAP, and the quadrants run the target stacks. When a
requested gap has lasted its time it is over, STATE is DONE, the cause LOCK_LATE if an LO of its quadrants is not locked and 0 otherwise, and CHOSEN
holds the target stacks. At the instant of return, with no gap in progress, the quadrants that run and are away from their chosen stack take it, in
one gap if there are any, and every running quadrant runs its chosen stack. -/
def Obligations.RestackCommandsComplete : Prop :=
  (∀ (s : State) (rq : Req) (v : Word) (at_ : Int),
      s.canonical = true →
      Passes s rq .RGC_RESTACK_CTL [] true →
      s.launch (s.reg .RGC_RESTACK_TIME).toNat = some at_ →
      s.restackOk at_ (restackTargets v) →
      Completes (.restackRequest rq v) s (fun t => t.answered rq 0 ∧ t.radio.request = some ⟨at_, restackTargets v, s.gapUs (restackTargets v)⟩
      ∧ t.get Fld.RGC_RESTACK_STAT.VALID = 1 ∧
        t.get Fld.RGC_RESTACK_STAT.STATE = 1 ∧ t.get Fld.RGC_RESTACK_STAT.CAUSE = 0 ∧
        (s.gapUs (restackTargets v) < 256 → t.get Fld.RGC_RESTACK_STAT.GAP = s.gapUs (restackTargets v)))) ∧
  (∀ (s : State) (rq : Req) (v : Word) (r : Restack),
      s.canonical = true →
      Passes s rq .RGC_RESTACK_CTL [] true →
      s.radio.request = some r →
      Completes (.restackCancel rq v) s (fun t => t.answered rq 0 ∧ t.radio.request = none ∧ t.get Fld.RGC_RESTACK_STAT.VALID = 1
      ∧ t.get Fld.RGC_RESTACK_STAT.STATE = 5 ∧ t.get Fld.RGC_RESTACK_STAT.CAUSE = 0)) ∧
  (∀ (s : State) (r : Restack),
      s.canonical = true →
      s.shaped →
      s.radio.request = some r →
      s.serving = true →
      r.time ≤ s.netTime →
      (∀ e ∈ r.qs, e.1 < 4 ∧ e.2 < 4) →
      (r.qs.map (·.1)).Nodup →
      Completes (.restackBoundary) s (fun t => t.radio.request = none ∧ t.get Fld.RGC_RESTACK_STAT.STATE = 2
      ∧ t.radio.gaps = s.radio.gaps ++ [s.gapOfNow r.qs true] ∧
        ∀ e ∈ r.qs, t.curIdx e.1 = e.2)) ∧
  (∀ (s : State) (g : Gap),
      s.canonical = true →
      s.radio.gaps = [g] →
      g.ends ≤ s.now →
      g.request = true →
      s.radio.fallbackDue = false →
      (∀ e ∈ g.qs, e.1 < 4 ∧ e.2 < 4) →
      (g.qs.map (·.1)).Nodup →
      Completes (.restackGapEnd) s (fun t => t.radio.gaps = [] ∧ t.get Fld.RGC_RESTACK_STAT.VALID = 1 ∧ t.get Fld.RGC_RESTACK_STAT.STATE = 3 ∧
        t.get Fld.RGC_RESTACK_STAT.CAUSE = (if g.qs.any (fun e => s.lockLate e.1) = true then 6 else 0) ∧ ∀ e ∈ g.qs, t.chosenIdx e.1 = e.2)) ∧
  (∀ (s : State) (at_ : Int),
      s.canonical = true →
      s.shaped →
      s.radio.returnAt = some at_ →
      at_ ≤ s.netTime →
      s.serving = true →
      s.radio.gaps = [] →
      Completes (.fallbackReturn) s (fun t => t.radio.returnAt = none ∧ t.radio.gaps = (if s.returning = [] then [] else [s.gapOfNow s.returning false]) ∧
        ∀ q ∈ List.range 4, s.running q = true → t.curIdx q = s.chosenIdx q))

/-- A synthesiser locks or restarts, buffers centre on ASYNC and slip, and the loss of ASYNC is flagged. The lock of a tuning LO, 1 µs or more after it
began: LOCK sets, TUNING clears, its frequency stays. An LO without lock 1 ms after it began to tune restarts: it has tried once more and tunes from
now; after three restarts SYN_STAT is 0 and the LO is given up. On an ASYNC pulse every synthesiser that waits starts, and an elastic buffer of an
active quadrant that is on shows VALID, if no divider of its quadrant was misaligned; in a quadrant with one its buffers slip: VALID is 0 and
RGC_EBUF_SLIP grows. A slip of a buffer that shows VALID clears VALID and is counted once. A part that follows ASYNC_IN and loses it sets IN_LOST. The
latency a buffer centres at is free (R22). -/
def Obligations.LockingCommandsComplete : Prop :=
  (∀ (s : State) (q k : Nat),
      s.canonical = true →
      s.shaped →
      q < 4 →
      k < 2 →
      s.active q = true →
      s.pwr.refclk = true →
      s.flag Fld.SYN_STAT.TUNING [q, k] = true →
      (s.syn q k).waiting = false →
      (s.syn q k).dead = false →
      (s.syn q k).since + 1000 ≤ s.now →
      Completes (.loLock q k) s (fun t => t.get Fld.SYN_STAT.LOCK [q, k] = 1 ∧ t.get Fld.SYN_STAT.TUNING [q, k] = 0 ∧ t.get Fld.SYN_STAT.FREQ [q,
      k] = s.get Fld.SYN_STAT.FREQ [q, k] ∧ (t.syn q k).tries = 0)) ∧
  (∀ (s : State) (q k : Nat),
      s.canonical = true →
      s.shaped →
      q < 4 →
      k < 2 →
      s.active q = true →
      s.pwr.refclk = true →
      s.flag Fld.SYN_STAT.TUNING [q, k] = true →
      (s.syn q k).waiting = false →
      (s.syn q k).since + 1000000 ≤ s.now →
      (s.syn q k).tries < 3 →
      Completes (.loRestart q k) s (fun t => (t.syn q k).tries = (s.syn q k).tries + 1 ∧ (t.syn q k).since = s.now)) ∧
  (∀ (s : State) (q k : Nat),
      s.canonical = true →
      s.shaped →
      q < 4 →
      k < 2 →
      s.active q = true →
      s.pwr.refclk = true →
      s.flag Fld.SYN_STAT.TUNING [q, k] = true →
      (s.syn q k).waiting = false →
      (s.syn q k).since + 1000000 ≤ s.now →
      3 ≤ (s.syn q k).tries →
      Completes (.loRestart q k) s (fun t => t.reg .SYN_STAT [q, k] = 0 ∧ (t.syn q k).dead = true)) ∧
  (∀ (s : State) (l : List Nat) (q n : Nat),
      s.canonical = true →
      s.shaped →
      q < 4 →
      n < 4 →
      q ∉ l →
      s.pwr.refclk = true →
      s.active q = true →
      ((s.quad q).ebufs[n]?).any (fun e => e.on) = true →
      Completes (.asyncPulse l) s (fun t => t.flag Fld.RGC_EBUF_LAT.VALID [q, n] = true ∧ (t.syn q 0).waiting = false ∧ (t.syn q 1).waiting = false)) ∧
  (∀ (s : State) (l : List Nat) (q n : Nat),
      s.canonical = true →
      s.shaped →
      q < 4 →
      n < 4 →
      s.pwr.refclk = true →
      s.active q = true →
      q ∈ l →
      ((s.quad q).ebufs[n]?).any (fun e => e.on) = true →
      Completes (.asyncPulse l) s (fun t => (t.syn q 0).waiting = false ∧ (t.syn q 1).waiting = false ∧ t.get Fld.RGC_EBUF_LAT.VALID [q, n] = 0
      ∧ (s.get Fld.RGC_EBUF_SLIP.COUNT [q] < 0xFFFFFFFF → s.get Fld.RGC_EBUF_SLIP.COUNT [q] < t.get Fld.RGC_EBUF_SLIP.COUNT [q]))) ∧
  (∀ (s : State) (g n : Nat),
      s.canonical = true →
      g < 5 →
      n < 8 →
      s.active g = true →
      s.flag Fld.RGC_EBUF_LAT.VALID [g, n] = true →
      Completes (.ebufSlip g n) s (fun t => t.get Fld.RGC_EBUF_LAT.VALID [g, n] = 0
      ∧ t.get Fld.RGC_EBUF_SLIP.COUNT [g] = satAdd 0xFFFFFFFF (s.get Fld.RGC_EBUF_SLIP.COUNT [g]) 1)) ∧
  (∀ (s : State),
      s.canonical = true →
      s.evtRuns = true →
      s.get Fld.RGC_ASYNC_CFG.SRC = 1 →
      s.get Fld.RGC_ASYNC_CFG.IN_LOST = 0 →
      Completes (.asyncLost) s (fun t => t.get Fld.RGC_ASYNC_CFG.IN_LOST = 1))

/-- RFFE commands queue, run and answer, poll entries are read, and bias, VIO and fast-line faults fence or mark their paths. A write of FEN_RFFE_CMD that
its rules let through joins its bus's queue if that has room, else the write is held. The oldest command of a bus runs and leaves its response, which
names bus, USID, kind and address; a read's holds what came back, and a parity error is counted; a read to USID 0 goes to no slave, so its data and
parity are free (notes/assumptions/69.md). A read of FEN_RFFE_RSP takes the oldest response. A poll entry that is due is read: an answer that matches
clears the misses of its bus, another clears its matches, and the second miss in a row gives the four paths of the bus cause 7. An overcurrent of
FEN_VIO clears VIO_EN and gives every path of the quadrant cause 5. A short and an open load fence their path with cause 3 or 4 and switch its bias
off; a fast line that differs gives it cause 6. PF_CLR leaves its path not fenced, and its write is performed field by field; in Service or Fenced a
write that sets VIO_EN ends cause 5 of the quadrant's paths. -/
def Obligations.FrontEndCommandsComplete : Prop :=
  (∀ (s : State) (rq : Req) (q p : Nat) (v : Word),
      s.canonical = true →
      s.shaped →
      q < 4 →
      p < 16 →
      Passes s rq .PATH_CTL [q, p / 8, p % 8] true →
      okQuad .PATH_CTL [q, p / 8, p % 8] (wset v 5 5 1) rq s = true →
      Completes (.pfClr rq q p v) s (fun t => t.answered rq 0 ∧ t.pfenced (16 * q + p) = false ∧ t.reg .PATH_CTL [q, p / 8,
      p % 8] = mergeWord (Reg.fields .PATH_CTL) (s.reg .PATH_CTL [q, p / 8, p % 8]) (wset v 5 5 1))) ∧
  (∀ (s : State) (rq : Req) (q : Nat) (v : Word),
      s.shaped →
      q < 4 →
      Passes s rq .FEN_RFFE_CMD [q] true →
      okQuad .FEN_RFFE_CMD [q] v rq s = true →
      s.held.any (rffeHeldFor q (wbits v 29 28)) = false →
      Completes (.fenRffeCmd rq q v) s (fun t => if s.rffeFull q (wbits v 29 28) then t.held = s.held ++ [⟨rq, Reg.addr .FEN_RFFE_CMD [q], v, s.now⟩]
        else t.answered rq 0 ∧ (t.quad q).rffeQ[wbits v 29 28]? = some ((((s.quad q).rffeQ[wbits v 29 28]?).getD []) ++ [v]))) ∧
  (∀ (s : State) (q k data : Nat) (perr : Bool) (c : Word) (rest : List Word),
      s.canonical = true →
      s.shaped →
      q < 4 →
      k < 4 →
      (s.quad q).rffeQ[k]? = some (c :: rest) →
      s.active q = true →
      (s.quad q).rffeRsp.length < 32 →
      s.held.any (rffeHeldFor q k) = false →
      wbits c 31 30 < 2 ∨ wbits c 27 24 ≠ 0 →
      Completes (.rffeCommandDone q k data perr) s (fun t => (t.quad q).rffeQ[k]? = some rest
      ∧ (t.quad q).rffeRsp = (s.quad q).rffeRsp ++ [w32 (b2n (decide (2 ≤ wbits c 31 30) && perr) * 2 ^ 30 + wbits c 29 24 * 2 ^ 22 + wbits c 31 30 * 2 ^ 20
          + wbits c 23 16 * 2 ^ 8 + (if 2 ≤ wbits c 31 30 then data % 256 else wbits c 15 8))] ∧
        t.get Fld.FEN_CNT_RFFE_NOACK.COUNT [q] = (if 2 ≤ wbits c 31 30
      ∧ perr = true then satAdd 0xFFFFFFFF (s.get Fld.FEN_CNT_RFFE_NOACK.COUNT [q]) 1 else s.get Fld.FEN_CNT_RFFE_NOACK.COUNT [q]))) ∧
  (∀ (s : State) (q k data : Nat) (perr : Bool) (c : Word) (rest : List Word),
      s.canonical = true →
      s.shaped →
      q < 4 →
      k < 4 →
      (s.quad q).rffeQ[k]? = some (c :: rest) →
      s.active q = true →
      (s.quad q).rffeRsp.length < 32 →
      s.held.any (rffeHeldFor q k) = false →
      2 ≤ wbits c 31 30 →
      wbits c 27 24 = 0 →
      Completes (.rffeCommandDone q k data perr) s (fun t => (t.quad q).rffeQ[k]? = some rest
      ∧ (t.quad q).rffeRsp = (s.quad q).rffeRsp ++ [w32 (b2n (bitOf (Config.freeNat (s.free + 1)) 0) * 2 ^ 30 + wbits c 29 24 * 2 ^ 22 + wbits c 31 30 * 2 ^ 20
          + wbits c 23 16 * 2 ^ 8 + Config.freeNat s.free % 256)])) ∧
  (∀ (s : State) (rq : Req) (q : Nat) (w : Word) (rest : List Word),
      s.shaped →
      q < 4 →
      Passes s rq .FEN_RFFE_RSP [q] false →
      (s.quad q).rffeRsp = w :: rest →
      Completes (.fenRffeRsp rq q) s (fun t => t.answered rq w ∧ (t.quad q).rffeRsp = rest)) ∧
  (∀ (s : State) (q n pid : Nat) (parity : Bool),
      s.shaped →
      q < 4 →
      n < 16 →
      s.active q = true →
      s.get Fld.FEN_RFFE_CFG.POLL_MS [q] ≠ 0 →
      s.flag Fld.FEN_RFFE_POLL.EN [q, n] = true →
      s.get Fld.FEN_RFFE_POLL.USID [q, n] ≠ 0 →
      (((s.quad q).polled[n]?).getD 0) + s.get Fld.FEN_RFFE_CFG.POLL_MS [q] * 1000000 ≤ s.now →
      ((s.quad q).rffeQ[s.get Fld.FEN_RFFE_POLL.BUS [q, n]]?).getD [] = [] →
      Completes (.rffePoll q n pid parity) s (fun t => (t.quad q).polled[n]? = some s.now ∧
        (if parity = true ∧ pid % 256 = s.get Fld.FEN_RFFE_POLL.PID [q, n] then ((t.quad q).pollMiss[s.get Fld.FEN_RFFE_POLL.BUS [q, n]]?) = some 0
          else ((t.quad q).pollHit[s.get Fld.FEN_RFFE_POLL.BUS [q, n]]?) = some 0 ∧
            (((s.quad q).pollMiss[s.get Fld.FEN_RFFE_POLL.BUS [q, n]]?) = some 1 → ∀ i ∈ List.range 4, (t.pathSt (16 * q + 4 * s.get Fld.FEN_RFFE_POLL.BUS [q,
      n] + i)).causes.contains 7 = true)))) ∧
  (∀ (s : State) (q p : Nat),
      s.canonical = true →
      s.shaped →
      q < 4 →
      p < 16 →
      s.active q = true →
      s.flag Fld.FEN_RFFE_CFG.VIO_EN [q] = true →
      Completes (.vioOvercurrent q) s (fun t => t.get Fld.FEN_RFFE_CFG.VIO_EN [q] = 0 ∧ (t.pathSt (16 * q + p)).causes.contains 5 = true)) ∧
  (∀ (s : State) (rq : Req) (q p : Nat) (v : Word),
      s.canonical = true →
      s.shaped →
      q < 4 →
      p < 16 →
      Passes s rq .FEN_RFFE_CFG [q] true →
      s.serving = true →
      s.get Fld.FEN_RFFE_CFG.VIO_EN [q] = 0 →
      Completes (.vioEn rq q v) s (fun t => t.answered rq 0 ∧ t.get Fld.FEN_RFFE_CFG.VIO_EN [q] = 1 ∧ (t.pathSt (16 * q + p)).causes.contains 5 = false)) ∧
  (∀ (s : State) (q p : Nat),
      s.canonical = true →
      s.shaped →
      q < 4 →
      p < 16 →
      s.biasOn q p = true →
      Completes (.biasShort q p) s (fun t => (t.pathSt (16 * q + p)).causes.contains 3 = true ∧ t.pfenced (16 * q + p) = true ∧ t.biasOn q p = false)) ∧
  (∀ (s : State) (q p : Nat),
      s.shaped →
      q < 4 →
      p < 16 →
      s.biasOn q p = true →
      s.get Fld.FEN_BIAS.IOPEN [q, p] ≠ 0 →
      s.txen (16 * q + p) = true →
      Completes (.biasOpen q p) s (fun t => (t.pathSt (16 * q + p)).causes.contains 4 = true ∧ t.pfenced (16 * q + p) = true ∧ t.biasOn q p = false)) ∧
  (∀ (s : State) (q p : Nat),
      s.shaped →
      q < 4 →
      p < 16 →
      s.active q = true →
      s.pathOn (16 * q + p) = true →
      Completes (.fastline q p) s (fun t => (t.pathSt (16 * q + p)).causes.contains 6 = true))

/-- Coexistence requests rise and fall, are granted at MAX_DEFER, and a stuck port is ignored until it returns. A rising request is recorded with PRI and
BND; a falling one ends every consent of its port. MAX_DEFER after the rise the quadrant consents. A request that stays longer than REQ_MAX makes its
port stuck, and 1 ms of silence lets it return. A bucket of the duty window closes every 60 s; grants whose expiry has come lapse. -/
def Obligations.CoexistenceCommandsComplete : Prop :=
  (∀ (s : State) (n : Nat) (pri bnd : Bool),
      s.shaped →
      n < 3 →
      (s.coexPort n).req = false →
      Completes (.coexReqRise n pri bnd) s (fun t => (t.coexPort n).req = true ∧ (t.coexPort n).pri = pri ∧ (t.coexPort n).bnd = bnd
      ∧ (t.coexPort n).reqAt = s.now)) ∧
  (∀ (s : State) (n : Nat),
      s.shaped →
      n < 3 →
      (s.coexPort n).req = true →
      Completes (.coexReqFall n) s (fun t => (t.coexPort n).req = false ∧ (t.coexPort n).lowAt = s.now ∧ (t.coexPort n).consent = List.replicate 4 false)) ∧
  (∀ (s : State) (q n : Nat),
      s.shaped →
      q < 4 →
      n < 3 →
      (s.coexPort n).req = true →
      (s.coexPort n).stuck = false →
      s.serving = true →
      s.running q = true →
      s.flag Fld.FEN_COEX_CFG.EN [q, n] = true →
      (s.coexPort n).consent[q]? = some false →
      (s.coexPort n).reqAt + s.get Fld.FEN_COEX_CFG.MAX_DEFER [q, n] * 100000 ≤ s.now →
      Completes (.maxDefer q n) s (fun t => (t.coexPort n).consent[q]? = some true)) ∧
  (∀ (s : State) (q n : Nat),
      s.shaped →
      q < 4 →
      n < 3 →
      (s.coexPort n).req = true →
      (s.coexPort n).stuck = false →
      s.active q = true →
      s.flag Fld.FEN_COEX_CFG.EN [q, n] = true →
      s.get Fld.FEN_COEX_CFG.REQ_MAX [q, n] ≠ 0 →
      (s.coexPort n).reqAt + s.get Fld.FEN_COEX_CFG.REQ_MAX [q, n] * 10000000 < s.now →
      Completes (.coexFault q n) s (fun t => (t.coexPort n).stuck = true ∧ (t.coexPort n).consent = List.replicate 4 false)) ∧
  (∀ (s : State) (n : Nat),
      s.shaped →
      n < 3 →
      (s.coexPort n).stuck = true →
      (s.coexPort n).req = false →
      (s.coexPort n).lowAt + 1000000 ≤ s.now →
      Completes (.coexPortReturn n) s (fun t => (t.coexPort n).stuck = false)) ∧
  (∀ (s : State),
      s.pwr.vinAo = true →
      s.radio.dutyAt + 60000000000 ≤ s.now →
      Completes (.dutyBucketClose) s (fun t => t.radio.dutyAt = s.radio.dutyAt + 60000000000 ∧ t.radio.duty = s.radio.duty.map (fun l => 0 :: l.take 59))) ∧
  (∀ (s : State),
      s.timeState ≠ 0 →
      s.radio.afc.any (fun g => decide (g.expiry ≤ s.netSeconds)) = true →
      Completes (.afcExpired) s (fun t => t.radio.afc = s.radio.afc.filter (fun g => decide (s.netSeconds < g.expiry))))

/-- A lost lock, the loss and the return of REFCLK, and ASYNC that resumes act on synthesisers and transmissions. LOCK_LOST clears LOCK, starts a tuning
and is counted. When REFCLK has been absent every locked LO of an active quadrant loses its lock; when it is back every LO of an active quadrant that
is on and not given up waits to tune again. A part that follows ASYNC_IN, on which ASYNC resumes clears IN_LOST. -/
def Obligations.LockAndReferenceCommandsComplete : Prop :=
  (∀ (s : State) (q k : Nat),
      s.canonical = true →
      q < 4 →
      k < 2 →
      s.active q = true →
      s.flag Fld.SYN_STAT.LOCK [q, k] = true →
      Completes (.lockLost q k) s (fun t => t.get Fld.SYN_STAT.LOCK [q, k] = 0 ∧ t.get Fld.SYN_STAT.TUNING [q, k] = 1
      ∧ t.get Fld.FEN_CNT_LOCK_LOST.COUNT [q] = satAdd 0xFFFFFFFF (s.get Fld.FEN_CNT_LOCK_LOST.COUNT [q]) 1)) ∧
  (∀ (s : State) (q k : Nat),
      s.canonical = true →
      q < 4 →
      k < 2 →
      s.pwr.refclk = true →
      s.active q = true →
      s.flag Fld.SYN_STAT.LOCK [q, k] = true →
      Completes (.refclkLost) s (fun t => t.pwr.refclk = false ∧ t.get Fld.SYN_STAT.LOCK [q, k] = 0 ∧ t.get Fld.SYN_STAT.TUNING [q, k] = 1)) ∧
  (∀ (s : State) (q k : Nat),
      s.canonical = true →
      s.shaped →
      q < 4 →
      k < 2 →
      s.pwr.refclk = false →
      s.active q = true →
      s.get Fld.SYN_STAT.FREQ [q, k] ≠ 0 →
      (s.syn q k).dead = false →
      Completes (.refclkRestore) s (fun t => t.pwr.refclk = true ∧ t.get Fld.SYN_STAT.TUNING [q, k] = 1 ∧ (t.syn q k).waiting = true)) ∧
  (∀ (s : State) (displaced : Bool),
      s.canonical = true →
      s.evtRuns = true →
      s.get Fld.RGC_ASYNC_CFG.SRC = 1 →
      s.get Fld.RGC_ASYNC_CFG.IN_LOST = 1 →
      Completes (.asyncInResume displaced) s (fun t => t.get Fld.RGC_ASYNC_CFG.IN_LOST = 0))

/-- Each source presents its transmissions to the gates, and a transmission starts, is too late, or ends. A due PPDU that may be handed over, an NDP of 1
to 16 streams that its paths allow on virtual ports 0 to K − 1, a WUR PPDU of a 2.4 or 5 GHz link, the next run of downlink symbols and a scheduled
downlink in its window become transmissions that wait for their gates, with the launch of their source; the transmissions are numbered in turn. A
transmission whose gates are open, whose start max(t, g + TX_LEAD + DEAD) is within LATE_TOL of its launch and no further ahead than TX_LEAD + DEAD,
whose quadrants have its filters and which the guard passes, has that start, the paths of its set that are neither MUTED nor PFENCED, and the guard's
backoff of each. One that can no longer start by LATE_TOL, with its gates open or closed, and one whose last sample has been sent, leave the gates.
That several runs may be presented ahead and that the home quadrant's fields count is the model's (notes/assumptions/48.md, 68.md); the start is
stated with no coexistence request pending. -/
def Obligations.TransmissionCommandsComplete : Prop :=
  (∀ (s : State) (l i take : Nat) (launch : Int) (air punct : Nat) (p : WacPpdu),
      l < 3 →
      s.active 5 = true →
      s.wlinkRun l = true →
      s.punctFits l punct = true →
      (s.wlink l).due[i]? = some p →
      s.ppduHanded l p = false →
      s.ppduMay l p (p.launch.getD launch) (1000 * (if p.air = 0 then air else p.air)) = true →
      s.netTime ≤ p.launch.getD launch →
      Completes (.ppduTransmitRequest l (.due i take) launch air punct) s (fun t => t.radio.nextTx = s.radio.nextTx + 1
      ∧ t.radio.txs.any (fun x => x.id == s.radio.nextTx && x.start.isNone && x.src == l && x.cookie == [l,
      p.num] && x.launch == p.launch.getD launch) = true)) ∧
  (∀ (s : State) (l k : Nat) (launch : Int) (air punct : Nat),
      l < 3 →
      s.active 5 = true →
      s.wlinkRun l = true →
      s.punctFits l punct = true →
      1 ≤ k →
      k ≤ 16 →
      k ≤ (s.linkPaths l).length →
      s.ppduMay l { WacPpdu.new 7 s.wac.next 3 air with streams := [k], beams := (List.range k).map (32752 + ·), punct := punct } launch (1000 * air) = true →
      s.netTime ≤ launch →
      Completes (.ppduTransmitRequest l (.ndp k) launch air punct) s (fun t => t.wac.next = s.wac.next + 1 ∧ t.radio.nextTx = s.radio.nextTx + 1
      ∧ t.radio.txs.any (fun x => x.id == s.radio.nextTx && x.start.isNone && x.src == l && x.cookie == [l,
      s.wac.next] && x.launch == launch && x.beams.map (·.2) == (List.range k).map (32752 + ·)) = true)) ∧
  (∀ (s : State) (l : Nat) (hdr : Bool) (launch : Int) (air punct : Nat),
      l < 3 →
      s.active 5 = true →
      s.wlinkRun l = true →
      s.punctFits l punct = true →
      linkBand s.linkPlan l ≤ 1 →
      s.ppduMay l { WacPpdu.new 8 s.wac.next 3 air with streams := [1], beams := [s.wfld 5 (16 * l) 0x16 2], rate := if hdr = true then 2500 else 625, punct := punct } launch (1000 * air) = true →
      s.netTime ≤ launch →
      Completes (.ppduTransmitRequest l (.wur hdr) launch air punct) s (fun t => t.wac.next = s.wac.next + 1 ∧ t.radio.nextTx = s.radio.nextTx + 1
      ∧ t.radio.txs.any (fun x => x.id == s.radio.nextTx && x.start.isNone && x.src == l && x.cookie == [l,
      s.wac.next] && x.launch == launch && x.tdOnly) = true)) ∧
  (∀ (s : State) (at_ e : Int) (cs : List FhSec),
      s.fhRuns = true →
      s.fhNext = some (at_, e, cs) →
      s.netTime ≤ at_ →
      Completes (.dlRun) s (fun t => t.fhu.nextRun = s.fhu.nextRun + 1 ∧ t.radio.nextTx = s.radio.nextTx + 1
      ∧ t.radio.txs.any (fun x => x.id == s.radio.nextTx && x.start.isNone && x.src == 3 && x.cookie == [s.fhu.nextRun] && x.launch == at_) = true)) ∧
  (∀ (s : State) (num : Nat) (d : TxaDl),
      s.txa.sched.find? (fun x => x.num == num && x.win == 1 && !x.shown) = some d →
      s.txaOn = true →
      s.chUsed d.ch = true →
      chFlag s.linkPlan d.ch 1 = true →
      s.netTime ≤ d.launch →
      Completes (.downlinkWindow1 num) s (fun t => t.radio.nextTx = s.radio.nextTx + 1
      ∧ t.radio.txs.any (fun x => x.id == s.radio.nextTx && x.start.isNone && x.src == 4 && x.cookie == [num] && x.launch == d.launch) = true)) ∧
  (∀ (s : State) (num : Nat) (d : TxaDl),
      s.txa.sched.find? (fun x => x.num == num && x.win == 2 && !x.shown) = some d →
      s.txaOn = true →
      s.chUsed d.ch = true →
      chFlag s.linkPlan d.ch 1 = true →
      s.netTime ≤ d.launch →
      Completes (.downlinkWindow2 num) s (fun t => t.radio.nextTx = s.radio.nextTx + 1
      ∧ t.radio.txs.any (fun x => x.id == s.radio.nextTx && x.start.isNone && x.src == 4 && x.cookie == [num] && x.launch == d.launch) = true)) ∧
  (∀ (s : State) (id q : Nat) (vecs : List (List (List Cx))) (x : Tx) (bs : List (Nat × Nat)),
      s.radio.txs.find? (fun y => y.id == id) = some x →
      x.start = none →
      Tx.home { x with paths := s.txPaths x } = some q →
      (s.txPaths x).all (s.txGate x ·) = true →
      s.txStartAt x (s.txPaths x) q - (s.txLead q + s.dead q : Nat) ≤ s.netTime →
      s.netTime ≤ s.txStartAt x (s.txPaths x) q →
      s.txStartAt x (s.txPaths x) q ≤ x.launch + 10 * s.get Fld.FEN_PROT_CFG.LATE_TOL [q] →
      s.filtered x (s.txPaths x) = true →
      s.guard x ((s.txPaths x).map (fun g => (g, s.pnom x g))) = some bs →
      s.radio.coex.all (fun c => !c.req) = true →
      Completes (.transmissionStart id vecs) s (fun t => t.radio.txs.any (fun y => y.id == id && y.start == some (s.txStartAt x (s.txPaths x) q) && y.paths == s.txPaths x && y.backoffs == bs) = true)) ∧
  (∀ (s : State) (id : Nat) (x : Tx),
      s.radio.txs.find? (fun y => y.id == id) = some x →
      x.start = none →
      (s.txPaths x).all (s.txGate x ·) = false →
      x.launch + 10 * s.get Fld.FEN_PROT_CFG.LATE_TOL [(Tx.home { x with paths := s.txPaths x }).getD 0] < s.netTime + s.txLead ((Tx.home { x with paths := s.txPaths x }).getD 0) + s.dead ((Tx.home { x with paths := s.txPaths x }).getD 0) →
      Completes (.lateTolExpiry id) s (fun t => t.radio.txs.all (fun y => y.id != id) = true)) ∧
  (∀ (s : State) (id : Nat) (x : Tx),
      s.radio.txs.find? (fun y => y.id == id) = some x →
      x.start = none →
      (s.txPaths x).all (s.txGate x ·) = true →
      x.launch + 10 * s.get Fld.FEN_PROT_CFG.LATE_TOL [(Tx.home { x with paths := s.txPaths x }).getD 0] < s.txStartAt x (s.txPaths x) ((Tx.home { x with paths := s.txPaths x }).getD 0) →
      Completes (.lateTolExpiry id) s (fun t => t.radio.txs.all (fun y => y.id != id) = true)) ∧
  (∀ (s : State) (id : Nat) (x : Tx),
      s.radio.txs.find? (fun y => y.id == id) = some x →
      x.start.isSome = true →
      x.startAt + x.dur ≤ s.now →
      Completes (.transmissionEnd id) s (fun t => t.radio.txs.all (fun y => y.id != id) = true))

/-- Filters, beam records and pre-distortion sets are committed, fetched and brought into use. A COMMIT of DFE_TXF_CTL with RAMP 10 to 100 and a route
used here: a staged filter with which every enabled mask point is met becomes the route's next filter, result OK; if one is missed the result is
MASK_FAIL with that point, and the filters stay. A beam ID that is named and not in the buffer starts a fetch; the fetch of one that the buffer has
room for brings the table's record, and where the table has none the ID is gone. A commit of a resident record of the active table joins the queue, or
is held while that has 64 entries. A DPD set that its rules let through becomes active at once if it does not run, and is pending if it runs; after 2
ms of transmission a pending one is active. After 2 ms of transmission or of reception the path's calibration set is in force on that side. How a
chain's response is measured is the model's (notes/assumptions/22.md). -/
def Obligations.ArrayCommandsComplete : Prop :=
  (∀ (s : State) (rq : Req) (q : Nat) (v : Word),
      s.canonical = true →
      s.shaped →
      q < 4 →
      Passes s rq .DFE_TXF_CTL [q] true →
      10 ≤ wbits v 15 8 ∧ wbits v 15 8 ≤ 100 →
      s.routeHere q (wbits v 7 4) = true →
      Completes (.txfCommit rq q v) s (fun t => t.answered rq 0 ∧ t.get Fld.DFE_TXF_STAT.VALID [q] = 1
      ∧ t.get Fld.DFE_TXF_STAT.RESULT [q] = (if s.maskFail q (wbits v 7 4) = none then 0 else 1)
      ∧ t.get Fld.DFE_TXF_STAT.POINT [q] = (s.maskFail q (wbits v 7 4)).getD 0 ∧
        (t.quad q).filters = (s.quad q).filters ∧ (t.quad q).filterNext = (if s.maskFail q (wbits v 7 4) = none then (wbits v 7 4, ⟨s.stagedFir q,
      wbits v 15 8⟩) :: (s.quad q).filterNext.filter (fun e => e.1 != wbits v 7 4) else (s.quad q).filterNext))) ∧
  (∀ (s : State) (q route id : Nat),
      s.shaped →
      q < 4 →
      s.active q = true →
      s.routeHere q route = true →
      s.beamRec q route id = none →
      Completes (.beamIdNamed q route id) s (fun t => (t.quad q).beams = (s.quad q).beams ++ [⟨route, id, none, none, true, s.now⟩])) ∧
  (∀ (s : State) (q route id : Nat) (b : BeamRec),
      s.canonical = true →
      s.shaped →
      q < 4 →
      (s.quad q).beams.filter (fun x => x.route == route && x.id == id) = [b] →
      b.fetching = true →
      s.active q = true →
      ((s.quad q).beams.map BeamRec.size).sum + BeamRec.size { b with bytes := s.beamLoad q route id } ≤ 2097152 →
      Completes (.beamRecordFetch q route id) s (fun t => t.beamRec q route id = (if (s.beamLoad q route id).isSome = true then some { b with bytes := s.beamLoad q route id, fetching := false } else none))) ∧
  (∀ (s : State) (rq : Req) (q : Nat) (v : Word),
      s.canonical = true →
      s.shaped →
      q < 4 →
      Passes s rq .BEAM_COMMIT [q] true →
      s.beamDue q v = true →
      Completes (.beamCommit rq q v) s (fun t => if 64 ≤ (s.quad q).beamQ.length then t.held = s.held ++ [⟨rq, Reg.addr .BEAM_COMMIT [q], v, s.now⟩]
        else t.answered rq 0 ∧ (t.quad q).beamQ = (s.quad q).beamQ ++ [(wbits v 30 28, wbits v 27 24, wbits v 14 0)]
      ∧ t.get Fld.BEAM_STAT.CQ [q] = (s.quad q).beamQ.length + 1)) ∧
  (∀ (s : State) (rq : Req) (q p : Nat) (v : Word),
      s.canonical = true →
      s.shaped →
      q < 4 →
      p < 16 →
      Passes s rq .DPD_COMMIT [q, p] true →
      dpdShadowOk p (s.dpdShadow q p (wbits v 2 0)) = true →
      Completes (.dpdCommit rq q p v) s (fun t => t.answered rq 0 ∧ (if s.get Fld.DPD_STAT.RUN_SET [q, p] = wbits v 2 0 then
          (t.dpdSet q p (wbits v 2 0)).pending = some (s.dpdShadow q p (wbits v 2 0), s.now) ∧ bitOf (t.get Fld.DPD_STAT.PENDING [q, p]) (wbits v 2 0) = true
          else (t.dpdSet q p (wbits v 2 0)).active = s.dpdShadow q p (wbits v 2 0) ∧ (t.dpdSet q p (wbits v 2 0)).pending = none ∧
            bitOf (t.get Fld.DPD_STAT.SET_VALID [q, p]) (wbits v 2 0) = true))) ∧
  (∀ (s : State) (q p at_ : Nat) (w : List Word) (e : Nat),
      s.canonical = true →
      s.shaped →
      q < 4 →
      p < 16 →
      (s.pathSt (16 * q + p)).txSince = some at_ →
      s.active q = true →
      at_ + 2000000 ≤ s.now →
      (s.dpdSet q p (s.get Fld.DPD_STAT.RUN_SET [q, p])).pending = some (w, e) →
      Completes (.crossfade q p true) s (fun t => (t.dpdSet q p (s.get Fld.DPD_STAT.RUN_SET [q, p])).active = w ∧ (t.dpdSet q p (s.get Fld.DPD_STAT.RUN_SET [q,
      p])).pending = none)) ∧
  (∀ (s : State) (q p at_ : Nat) (tx : Bool),
      s.canonical = true →
      s.shaped →
      q < 4 →
      p < 16 →
      (if tx = true then (s.pathSt (16 * q + p)).txSince else if s.pathState (16 * q + p) = 1 then some (s.pathSt (16 * q + p)).rxSince else none) = some at_ →
      s.active q = true →
      at_ + 2000000 ≤ s.now →
      (s.runCal (16 * q + p)).path = p →
      (s.runCal (16 * q + p)).set = s.runSet q p →
      Completes (.crossfade q p tx) s (fun t => (if tx = true then (t.runCal (16 * q + p)).tx else (t.runCal (16 * q + p)).rx) = (s.runCal (16 * q + p)).active
      ∧ (t.runCal (16 * q + p)).active = (s.runCal (16 * q + p)).active))

/-- A visit of an observation receiver starts, ends with its measurements, and its descriptors and slots are taken and freed. A free receiver that is not
in quiet time starts the visit that R138 chooses. A visit that is over is counted; its path shows the return loss of the two powers, the worse side of
ACLR and now as its last visit; a visit with a slot queues its descriptor (path, receiver, slot), and the receiver is free. A path muted for its
antenna alone joins the next transmission of its role that waits once ANT_RETRY has passed. A read of ORX_CAP_POP answers the oldest descriptor and
removes it; after a write of ORX_SLOT_FREE a slot that no visit is storing in is free. -/
def Obligations.ObservationCommandsComplete : Prop :=
  (∀ (s : State) (q r p c : Nat),
      s.shaped →
      q < 4 →
      r < 2 →
      s.active q = true →
      (s.quad q).visits[r]? = some none →
      ((s.quad q).cal.quietUntil[r]?).getD 0 ≤ s.now →
      s.nextVisit q r = some (p, c) →
      Completes (.orxVisitStart q r) s (fun t => ((t.quad q).visits[r]?).getD none = some ⟨p, s.pathLo (16 * q + p), c, s.now, s.freeSlot q r,
      (s.dpdSet q p (s.get Fld.DPD_STAT.RUN_SET [q, p])).check⟩)) ∧
  (∀ (s : State) (q r lo hi : Nat) (pFwd pRev : Int) (fwd : List Cx) (x : OrxVisit),
      s.canonical = true →
      s.shaped →
      q < 4 →
      r < 2 →
      (s.quad q).visits[r]? = some (some x) →
      x.path < 16 →
      x.at_ + s.visitNs q ≤ s.now →
      Completes (.orxVisitEnd q r pFwd pRev lo hi fwd) s (fun t => (t.quad q).visits[r]? = some none
      ∧ t.get Fld.ORX_CNT_VISIT.COUNT [q] = satAdd 0xFFFFFFFF (s.get Fld.ORX_CNT_VISIT.COUNT [q]) 1 ∧
        t.get Fld.PATH_STAT.RL (pathIx (16 * q + x.path)) = s.returnLoss (16 * q + x.path) pFwd pRev ∧
        (t.quad q).capQ = (match x.slot with | some i => (s.quad q).capQ ++ [x.path * 32 + r * 16 + i] | none => (s.quad q).capQ) ∧
        (t.pathSt (16 * q + x.path)).visited = s.now ∧ (t.pathSt (16 * q + x.path)).aclr = some (min lo hi))) ∧
  (∀ (s : State) (q p : Nat) (x : Tx),
      s.shaped →
      q < 4 →
      p < 16 →
      s.active q = true →
      (s.pathSt (16 * q + p)).causes.any (fun c => c == 1 || c == 2) = true →
      (s.pathSt (16 * q + p)).causes.all (fun c => c == 1 || c == 2) = true →
      s.get Fld.FEN_PROT_CFG.ANT_RETRY [q] ≠ 0 →
      (s.pathSt (16 * q + p)).retried + s.get Fld.FEN_PROT_CFG.ANT_RETRY [q] * 10000000 ≤ s.now →
      s.radio.txs.find? (fun y => y.start.isNone && y.role == s.pathRole (16 * q + p)) = some x →
      Completes (.antRetry q p) s (fun t => (t.pathSt (16 * q + p)).retried = s.now
      ∧ t.radio.txs.any (fun y => y.id == x.id && y.retest == (16 * q + p) :: x.retest) = true)) ∧
  (∀ (s : State) (rq : Req) (q d : Nat) (rest : List Nat),
      s.shaped →
      q < 4 →
      Passes s rq .ORX_CAP_POP [q] false →
      (s.quad q).capQ = d :: rest →
      Completes (.orxCapPop rq q) s (fun t => t.answered rq (w32 (d / 32 * 2 ^ 20 + d / 16 % 2 * 2 ^ 16 + d % 16)) ∧ (t.quad q).capQ = rest)) ∧
  (∀ (s : State) (rq : Req) (q : Nat) (v : Word),
      s.shaped →
      q < 4 →
      Passes s rq .ORX_SLOT_FREE [q] true →
      (((s.quad q).visits[wbits v 4 4]?).getD none).any (fun x => x.slot == some (wbits v 3 0)) = false →
      Completes (.orxSlotFree rq q v) s (fun t => t.answered rq 0 ∧ (((t.quad q).slots[wbits v 4 4]?).getD []).contains (wbits v 3 0) = false))

/-- A calibration run starts, is negotiated, booked, forced, rebooked, aborted and done. After RUN a run on demand is under way, or it has completed at
once with LAST NOTHING and updates that were stuck resume. ABORT before the window ends the run with LAST ABORTED. When the only owner that a round
asks offers, and nothing stands in the way of its offer, which is not before E, the window is booked there: STATE BOOKED and CAL_QW. At its start the
window's paths are noted as under calibration and STATE is 3; when it has lasted its time they are free, and a run into which nothing was merged since
is complete, with LAST 1, or 3 when it was forced, and CAL_TEMP.LAST its temperature. A clash ahead of a window that is not forced cancels the
booking, which is counted, and the owners are asked again; after CAL_MAX_DEFER without a window one is forced FORCE_LEAD ahead, behind a gap that it
would meet, and counted. How an offer is found is the model's (notes/assumptions/71.md). -/
def Obligations.CalibrationRunCommandsComplete : Prop :=
  (∀ (s : State) (rq : Req) (q : Nat) (v : Word),
      s.canonical = true →
      s.shaped →
      q < 4 →
      Passes s rq .CAL_CTL [q] true →
      Completes (.calRun rq q v) s (fun t => t.answered rq 0 ∧
        ((t.cal q).run.all (·.demand)) = true ∧ ((t.cal q).run = none → t.get Fld.CAL_STAT.VALID [q] = 1 ∧ t.get Fld.CAL_STAT.LAST [q] = 2
      ∧ t.get Fld.CAL_REJ.STUCK [q] = 0 ∧ (t.cal q).stuck = [] ∧ (t.cal q).rejects = []))) ∧
  (∀ (s : State) (rq : Req) (q : Nat) (v : Word),
      s.canonical = true →
      s.shaped →
      q < 4 →
      Passes s rq .CAL_CTL [q] true →
      (s.cal q).run ≠ none →
      s.get Fld.CAL_STAT.STATE [q] ≠ 3 →
      Completes (.calAbort rq q v) s (fun t => t.answered rq 0 ∧ (t.cal q).run = none ∧ t.get Fld.CAL_STAT.VALID [q] = 1 ∧ t.get Fld.CAL_STAT.STATE [q] = 0
      ∧ t.get Fld.CAL_STAT.LAST [q] = 4)) ∧
  (∀ (s : State) (q owner : Nat) (r : CalRun),
      s.canonical = true →
      s.shaped →
      q < 4 →
      (s.cal q).run = some r →
      s.get Fld.CAL_STAT.STATE [q] = 1 →
      s.calOwners q r.paths = [owner] →
      r.offers = [] →
      s.ownerMeets q owner r.paths (1000 * (r.durUs : Int)) (s.ownerOffer q owner r.paths (1000 * (r.durUs : Int)) 65536 r.earliest) = none →
      s.gapClash q (s.ownerOffer q owner r.paths (1000 * (r.durUs : Int)) 65536 r.earliest) (1000 * r.durUs) = none →
      s.calClash q r.paths (s.ownerOffer q owner r.paths (1000 * (r.durUs : Int)) 65536 r.earliest) (1000 * r.durUs) = false →
      Completes (.calOffer q owner) s (fun t => (let w := s.ownerOffer q owner r.paths (1000 * (r.durUs : Int)) 65536 r.earliest
        r.earliest ≤ w ∧ ((t.cal q).run.bind (·.booked)) = some w ∧ t.get Fld.CAL_STAT.STATE [q] = 2 ∧ t.reg .CAL_QW [q] = w32 (w % 2 ^ 32).toNat))) ∧
  (∀ (s : State) (q : Nat) (r : CalRun) (w : Int),
      s.canonical = true →
      s.shaped →
      q < 4 →
      (s.cal q).run = some r →
      r.booked = some w →
      s.get Fld.CAL_STAT.STATE [q] = 2 →
      w ≤ s.netTime →
      Completes (.calWindowStart q) s (fun t => t.get Fld.CAL_STAT.STATE [q] = 3 ∧ (t.quad q).trims = r.paths)) ∧
  (∀ (s : State) (q : Nat) (l : List Nat) (r : CalRun) (w : Int),
      s.canonical = true →
      s.shaped →
      q < 4 →
      (s.cal q).run = some r →
      r.booked = some w →
      s.get Fld.CAL_STAT.STATE [q] = 3 →
      w + 1000 * r.durUs ≤ s.netTime →
      Completes (.calDone q l) s (fun t => (t.quad q).trims = [] ∧ (r.again = false → (t.cal q).run = none ∧ t.get Fld.CAL_STAT.VALID [q] = 1
      ∧ t.get Fld.CAL_STAT.STATE [q] = 0 ∧ t.get Fld.CAL_STAT.LAST [q] = (if r.forced = true then 3 else 1) ∧ t.get Fld.CAL_TEMP.LAST [q] = r.temp % 4096))) ∧
  (∀ (s : State) (q : Nat) (r : CalRun) (w : Int),
      s.canonical = true →
      s.shaped →
      q < 4 →
      (s.cal q).run = some r →
      r.booked = some w →
      s.get Fld.CAL_STAT.STATE [q] = 2 →
      s.netTime < w →
      r.forced = false →
      s.calOwners q r.paths ≠ [] →
      s.calClash q r.paths w (1000 * r.durUs) = true →
      Completes (.calRebook q) s (fun t => ((t.cal q).run.bind (·.booked)) = none ∧ (t.cal q).run ≠ none ∧ t.get Fld.CAL_STAT.STATE [q] = 1
      ∧ t.get Fld.CAL_CNT_REBOOK.COUNT [q] = satAdd 0xFFFFFFFF (s.get Fld.CAL_CNT_REBOOK.COUNT [q]) 1)) ∧
  (∀ (s : State) (q : Nat) (r : CalRun),
      s.canonical = true →
      s.shaped →
      q < 4 →
      (s.cal q).run = some r →
      s.get Fld.CAL_STAT.STATE [q] = 1 →
      r.since + max 1 (s.get Fld.CAL_CFG.CAL_MAX_DEFER [q]) * 1000000 ≤ s.now →
      Completes (.calForced q) s (fun t => ((t.cal q).run.bind (·.booked)) = some ((s.gapClash q (s.netTime + max 1 (s.get Fld.CAL_CFG.FORCE_LEAD [q]) * 1000000) (1000 * r.durUs)).getD (s.netTime + max 1 (s.get Fld.CAL_CFG.FORCE_LEAD [q]) * 1000000)) ∧
        t.get Fld.CAL_STAT.STATE [q] = 2 ∧ t.get Fld.CAL_CNT_FORCED.COUNT [q] = satAdd 0xFFFFFFFF (s.get Fld.CAL_CNT_FORCED.COUNT [q]) 1))

/-- Estimates, commits, loads, element choices and sealed blobs change the sets of a quadrant. An estimate of words 2 to 7 of the running set that keeps
both limits of R148 becomes the active word, and what is in force stays until its instant; one during which the temperature moved changes no set.
COMMIT of a set on a path whose role is IDLE makes its shadow active and applies its trims; LOAD copies the active words to the shadow. An element
reselection of a receiver that is between visits shows the element in CAL_RED, and EXHAUST when none meets its limits; a write of CAL_RED that its
rules let through shows the choices written. EXPORT of a set mask that is not empty counts the export and shows OK; RESTORE shows the result of R161's
checks, in their order. -/
def Obligations.CalibrationSetCommandsComplete : Prop :=
  (∀ (s : State) (q p n : Nat) (w : Word) (moved : Bool),
      s.canonical = true →
      s.shaped →
      q < 4 →
      p < 16 →
      s.active q = true →
      s.flag Fld.CAL_CTL.AUTO_DIG [q] = true →
      2 ≤ n ∧ n ≤ 7 →
      (s.cal q).stuck.contains (p, n) = false →
      (s.cal q).committed ≠ some (p, s.runSet q p, s.now) →
      (s.calSet q p (s.runSet q p)).active.length = 32 →
      (s.calSet q p (s.runSet q p)).path = p →
      (s.calSet q p (s.runSet q p)).set = s.runSet q p →
      calAbsOk n w = true →
      calStepOk n (wordAt (s.calSet q p (s.runSet q p)).active n) w = true →
      Completes (.calEstimate q p n w moved) s (fun t => if moved = true then (t.cal q).sets = (s.cal q).sets
        else wordAt (t.calSet q p (s.runSet q p)).active n = w ∧ (t.calSet q p (s.runSet q p)).rx = (s.calSet q p (s.runSet q p)).rx
      ∧ (t.calSet q p (s.runSet q p)).tx = (s.calSet q p (s.runSet q p)).tx)) ∧
  (∀ (s : State) (q r elem : Nat) (meets : Bool),
      s.canonical = true →
      s.shaped →
      q < 4 →
      r < 2 →
      elem < 3 →
      s.active q = true →
      (s.cal q).elemDue.contains r = true →
      (s.quad q).visits[r]? = some none →
      Completes (.orxElementReselect q r elem meets) s (fun t => t.get (if r = 0 then Fld.CAL_RED.ORX0 else Fld.CAL_RED.ORX1) [q] = elem
      ∧ (t.cal q).elemDue.contains r = false ∧ (meets = false → bitOf (t.get Fld.CAL_RED.EXHAUST [q]) r = true))) ∧
  (∀ (s : State) (rq : Req) (q : Nat),
      s.shaped →
      q < 4 →
      Passes s rq .CAL_COMMIT [q] true →
      okCal .CAL_COMMIT [q] 1 rq s = true →
      (s.winSet q).path = s.get Fld.CAL_WIN_SEL.PATH [q] →
      (s.winSet q).set = s.get Fld.CAL_WIN_SEL.SET [q] →
      s.pathRole (16 * q + s.get Fld.CAL_WIN_SEL.PATH [q]) = 0 →
      Completes (.calCommit rq q) s (fun t => t.answered rq 0 ∧ (t.winSet q).active = (s.winSet q).shadow
      ∧ (t.winSet q).applied = [wordAt (s.winSet q).shadow 8, wordAt (s.winSet q).shadow 9])) ∧
  (∀ (s : State) (rq : Req) (q : Nat),
      s.shaped →
      q < 4 →
      Passes s rq .CAL_COMMIT [q] true →
      (s.winSet q).path = s.get Fld.CAL_WIN_SEL.PATH [q] →
      (s.winSet q).set = s.get Fld.CAL_WIN_SEL.SET [q] →
      Completes (.calLoad rq q) s (fun t => t.answered rq 0 ∧ (t.winSet q).shadow = (s.winSet q).active ∧ (t.winSet q).active = (s.winSet q).active)) ∧
  (∀ (s : State) (rq : Req) (q : Nat) (v : Word),
      s.canonical = true →
      Passes s rq .CAL_RED [q] true →
      okCal .CAL_RED [q] v rq s = true →
      Completes (.calRed rq q v) s (fun t => t.answered rq 0 ∧ t.get Fld.CAL_RED.LOA [q] = wbits v 9 8 ∧ t.get Fld.CAL_RED.LOB [q] = wbits v 11 10
      ∧ t.get Fld.CAL_RED.ORX0 [q] = wbits v 1 0 ∧ t.get Fld.CAL_RED.ORX1 [q] = wbits v 3 2)) ∧
  (∀ (s : State) (rq : Req) (q : Nat) (v : Word),
      s.canonical = true →
      Passes s rq .CAL_XP_CTL [q] true →
      s.xpBlocked q = none →
      wbits v 15 8 ≠ 0 →
      Completes (.calExport rq q v) s (fun t => t.answered rq 0 ∧ t.kiln.exports = s.kiln.exports + 1 ∧ t.get Fld.CAL_XP_STAT.VALID [q] = 1
      ∧ t.get Fld.CAL_XP_STAT.RESULT [q] = 0)) ∧
  (∀ (s : State) (rq : Req) (q : Nat) (v : Word),
      s.canonical = true →
      Passes s rq .CAL_XP_CTL [q] true →
      s.xpBlocked q = none →
      Completes (.calRestore rq q v) s (fun t => t.answered rq 0 ∧ t.get Fld.CAL_XP_STAT.VALID [q] = 1
      ∧ t.get Fld.CAL_XP_STAT.RESULT [q] = s.blobCheck q (s.blobAt q)))

/-- A housekeeping result is stored with VALID, results are popped in order, and the cross-check commits its outcome. The next channel of a converter's
scan, with 2^AVG_LOG2 codes of 12 bits, gets the sum of its codes shifted right by SHIFT in HKA_VAL, with VALID set unless its own next scan begins at
once; the scan goes on behind it, and the VALID of the channel that follows clears. A read of HKA_POP answers the oldest queued result and removes it.
A cross-check that is due shows VALID and the verdict |code1 − code0| > CHK_TOL in FAIL, and marks its time. -/
def Obligations.HousekeepingCommandsComplete : Prop :=
  (∀ (s : State) (c n : Nat) (codes : List Nat),
      s.canonical = true →
      c < 2 →
      n < 63 →
      s.mode ≠ 0 →
      bitOf (s.get Fld.HKA_CFG.EN) c = true →
      s.flag Fld.HKA_CH.EN [c, n] = true →
      s.hkaLive c n = true →
      s.sized →
      s.hkaNext c ((s.radio.hka.scan[c]?).getD 63) = some n →
      codes.length = 2 ^ s.get Fld.HKA_CH.AVG_LOG2 [c, n] →
      ∀ x ∈ codes, x < 4096 →
      Completes (.hkaResult c n codes) s (fun t => t.get Fld.HKA_VAL.VALUE [c, n] = codes.sum / 2 ^ s.get Fld.HKA_CH.SHIFT [c, n] % 2 ^ 20
      ∧ (s.hkaNext c n ≠ some n → t.get Fld.HKA_VAL.VALID [c, n] = 1) ∧ t.radio.hka.scan[c]? = some n ∧
        (∀ i ∈ s.hkaNext c n, t.get Fld.HKA_VAL.VALID [c, i] = 0))) ∧
  (∀ (s : State) (rq : Req) (e : Nat × Nat × Nat) (rest : List (Nat × Nat × Nat)),
      Passes s rq .HKA_POP [] false →
      s.radio.hka.queue = e :: rest →
      Completes (.hkaPop rq) s (fun t => t.answered rq (w32 (e.1 * 2 ^ 30 + e.2.1 * 2 ^ 24 + e.2.2)) ∧ t.radio.hka.queue = rest)) ∧
  (∀ (s : State) (code0 code1 : Nat),
      s.canonical = true →
      s.mode ≠ 0 →
      s.get Fld.HKA_CFG.CHK_PERIOD ≠ 0 →
      s.get Fld.HKA_CFG.EN = 3 →
      s.radio.hka.checkAt + s.get Fld.HKA_CFG.CHK_PERIOD * 100000 ≤ s.now →
      Completes (.plausFail code0 code1) s (fun t => t.radio.hka.checkAt = s.now ∧ t.get Fld.HKA_CHK_STAT.VALID = 1
      ∧ t.get Fld.HKA_CHK_STAT.FAIL = b2n (decide (s.get Fld.HKA_CFG.CHK_TOL < ((code1 : Int) - code0).natAbs))))

/-- A preamble starts a reception, signal fields are checked in order, restart and capture begin anew, and clear channel assessment follows. In SEARCH a
preamble at PD_LVL or above, on subchannels not all punctured, makes the receiver of a link that hears PROVISIONAL; in PROVISIONAL it becomes the
candidate of the restart detector. A signal field in its turn that passes its check of R176 commits the PPDU (COMMITTED or ABSORB) if it is the last
that applies; else it is noted, L-SIG with rate, length and end. One that fails is a false start, counted in PHY_FALSE_START and PHY_HDR_FAIL, which
holds the primary: the receiver restarts on a candidate of the last 16 µs with RESTARTED, and without a candidate goes to SEARCH; so with a PLCP
header, whose decoding from its chips is free. RESTART and CAPTURE begin a reception with their flag, and a capture keeps the hold until the old end.
At its end a committed PPDU is delivered, or drains while codewords are out, and an absorbed one is not. A codeword whose decoding ends leaves its
user, marks it when it did not converge, and is then counted; one that arrives joins its user. ENERGY_DETECT sets or clears the subchannel; CCA_STUCK
sets STUCK; 4 µs below PD_LVL end the hold of a false start. The computed end rests on notes/assumptions/42.md. -/
def Obligations.ReceiverCommandsComplete : Prop :=
  (∀ (s : State) (l : Nat) (rssi : Int) (dsss : Bool) (subs age : Nat) (beams : List Nat),
      s.canonical = true →
      s.shaped →
      s.phyHears l = true →
      s.phyScans l beams = true →
      s.phySubs l subs ≠ 0 →
      s.lvl Fld.PHY_CCA_CFG.PD_LVL l ≤ rssi →
      (dsss = true → linkBand s.linkPlan l = 0) →
      (s.phy l).st = 0 →
      Completes (.preambleDetect l rssi dsss subs age beams) s (fun t => (t.phy l).st = 1 ∧ (t.phy l).rx = some (s.phyNew l rssi dsss subs age)
      ∧ (t.phy l).cand = none)) ∧
  (∀ (s : State) (l : Nat) (rssi : Int) (dsss : Bool) (subs age : Nat) (beams : List Nat),
      s.canonical = true →
      s.shaped →
      s.phyHears l = true →
      s.phyScans l beams = true →
      s.phySubs l subs ≠ 0 →
      s.lvl Fld.PHY_CCA_CFG.PD_LVL l ≤ rssi →
      (dsss = true → linkBand s.linkPlan l = 0) →
      (s.phy l).st = 1 →
      Completes (.preambleDetect l rssi dsss subs age beams) s (fun t => (t.phy l).st = 1 ∧ (t.phy l).rx = (s.phy l).rx
      ∧ (t.phy l).cand = some (s.phyNew l rssi dsss subs age))) ∧
  (∀ (s : State) (l : Nat) (f : SigField) (p : Ppdu) (x : PhyRx),
      s.shaped →
      s.phyHears l = true →
      (s.phy l).st = 1 →
      (s.phy l).rx = some x →
      sigInTurn x f = true →
      sigPasses x p.format f = true →
      Completes (.signalField l f p) s (fun t => if sigIsLast p.format f = true then (t.phy l).st = 2 ∨ (t.phy l).st = 3
        else (t.phy l).st = 1 ∧ (t.phy l).rx = some (sigNoted x f))) ∧
  (∀ (s : State) (l : Nat) (f : SigField) (p : Ppdu) (x : PhyRx),
      s.canonical = true →
      s.shaped →
      s.phyHears l = true →
      (s.phy l).st = 1 →
      (s.phy l).rx = some x →
      sigInTurn x f = true →
      x.stage ≠ 9 →
      sigPasses x p.format f = false →
      (s.phy l).cand = none →
      Completes (.signalField l f p) s (fun t => (t.phy l).st = 0 ∧ (t.phy l).rx = none ∧ (t.phy l).falseHold = true ∧
        t.get Fld.PHY_FALSE_START.COUNT [l] = satAdd 0xFFFFFFFF (s.get Fld.PHY_FALSE_START.COUNT [l]) 1
      ∧ t.get Fld.PHY_HDR_FAIL.COUNT [l] = satAdd 0xFFFFFFFF (s.get Fld.PHY_HDR_FAIL.COUNT [l]) 1)) ∧
  (∀ (s : State) (l : Nat) (f : SigField) (p : Ppdu) (x y : PhyRx),
      s.canonical = true →
      s.shaped →
      s.phyHears l = true →
      (s.phy l).st = 1 →
      (s.phy l).rx = some x →
      sigInTurn x f = true →
      x.stage ≠ 9 →
      sigPasses x p.format f = false →
      (s.phy l).cand = some y →
      s.now ≤ y.seen + 16000 →
      Completes (.signalField l f p) s (fun t => (t.phy l).st = 1 ∧ (t.phy l).rx = some { y with restarted := true } ∧ (t.phy l).falseHold = true ∧
        t.get Fld.PHY_FALSE_START.COUNT [l] = satAdd 0xFFFFFFFF (s.get Fld.PHY_FALSE_START.COUNT [l]) 1
      ∧ t.get Fld.PHY_HDR_FAIL.COUNT [l] = satAdd 0xFFFFFFFF (s.get Fld.PHY_HDR_FAIL.COUNT [l]) 1)) ∧
  (∀ (s : State) (l : Nat) (long : Bool) (xs : List Cx) (p : Ppdu) (x : PhyRx),
      s.canonical = true →
      s.shaped →
      s.phyHears l = true →
      (s.phy l).st = 1 →
      (s.phy l).rx = some x →
      x.stage = 9 →
      (s.phy l).cand = none →
      Completes (.signalField l (.plcp long xs) p) s (fun t => (let h := Config.plcpHeader (s.dsssChips l xs)
        if (h.1 = 0x0A ∨ h.1 = 0x14 ∨ h.1 = 0x37 ∨ h.1 = 0x6E) ∧ h.2.2 = true then (t.phy l).st = 2 ∨ (t.phy l).st = 3
        else (t.phy l).st = 0 ∧ (t.phy l).rx = none ∧ (t.phy l).falseHold = true ∧
        t.get Fld.PHY_FALSE_START.COUNT [l] = satAdd 0xFFFFFFFF (s.get Fld.PHY_FALSE_START.COUNT [l]) 1
      ∧ t.get Fld.PHY_HDR_FAIL.COUNT [l] = satAdd 0xFFFFFFFF (s.get Fld.PHY_HDR_FAIL.COUNT [l]) 1))) ∧
  (∀ (s : State) (l : Nat) (rssi : Int) (dsss : Bool) (subs age : Nat) (x : PhyRx),
      s.canonical = true →
      s.shaped →
      s.phyHears l = true →
      (s.phy l).st = 1 →
      (s.phy l).rx = some x →
      x.rssi + s.get Fld.PHY_CFG.RESTART_MARGIN [l] ≤ rssi →
      Completes (.phyRestart l rssi dsss subs age) s (fun t => (t.phy l).st = 1
      ∧ (t.phy l).rx = some { s.phyNew l rssi dsss subs age with restarted := true, captured := x.captured } ∧ (t.phy l).falseHold = true)) ∧
  (∀ (s : State) (l : Nat) (rssi : Int) (dsss : Bool) (subs age : Nat) (x : PhyRx) (e : Nat),
      s.canonical = true →
      s.shaped →
      s.phyHears l = true →
      2 ≤ (s.phy l).st →
      (s.phy l).rx = some x →
      s.flag Fld.PHY_CFG.CAPTURE_EN [l] = true →
      x.solicited = false →
      x.ends = some e →
      x.rssi + s.get Fld.PHY_CFG.CAPTURE_MARGIN [l] ≤ rssi →
      Completes (.phyCapture l rssi dsss subs age) s (fun t => (t.phy l).st = 1 ∧ (t.phy l).rx = some { s.phyNew l rssi dsss subs age with captured := true }
      ∧ e ≤ (t.phy l).holdUntil)) ∧
  (∀ (s : State) (l : Nat) (x : PhyRx) (e : Nat),
      s.shaped →
      (s.phy l).st = 2 →
      (s.phy l).rx = some x →
      x.ends = some e →
      e ≤ s.now →
      Completes (.ppduEnd l) s (fun t => (t.phy l).st = 0 ∧ (t.phy l).rx = none ∧
        (if x.pendingCw = true then (t.phy l).draining = (s.phy l).draining ++ [x] ∧ (t.phy l).delivered = (s.phy l).delivered
          else (t.phy l).delivered = (s.phy l).delivered ++ (x.users.filter (fun u => !u.absorbed)).map (rxRecord l x)))) ∧
  (∀ (s : State) (l : Nat) (x : PhyRx) (e : Nat),
      s.shaped →
      (s.phy l).st = 3 →
      (s.phy l).rx = some x →
      x.ends = some e →
      e ≤ s.now →
      Completes (.ppduEnd l) s (fun t => (t.phy l).st = 0 ∧ (t.phy l).rx = none ∧ (t.phy l).delivered = (s.phy l).delivered)) ∧
  (∀ (s : State) (l below : Nat),
      s.shaped →
      (s.phy l).falseHold = true →
      4000 ≤ below →
      Completes (.falseStartHoldEnd l below) s (fun t => (t.phy l).falseHold = false)) ∧
  (∀ (s : State) (l b : Nat),
      s.canonical = true →
      s.shaped →
      l < 3 →
      s.active 4 = true →
      s.get Fld.PHY_CCA_CFG.CCA_STUCK [l] ≠ 0 →
      ((s.phyDo l id).phy l).busyFrom = some b →
      b + s.get Fld.PHY_CCA_CFG.CCA_STUCK [l] * 10000000 ≤ s.now →
      (s.phyDo l id).flag Fld.PHY_CCA_STAT.STUCK [l] = false →
      Completes (.ccaStuck l) s (fun t => t.get Fld.PHY_CCA_STAT.STUCK [l] = 1 ∧ t.get Fld.PHY_CCA_STAT.PRIM_BUSY [l] = 1)) ∧
  (∀ (s : State) (l sub : Nat) (dbm : Int),
      s.canonical = true →
      s.shaped →
      l < 3 →
      s.active 4 = true →
      sub < 2 ^ linkBw s.linkPlan l →
      Completes (.energyDetect l sub dbm false) s (fun t => (t.phy l).ed = (if signed 8 (s.get Fld.PHY_CCA_CFG.ED_LVL [l]) ≤ dbm then maskSet (s.phy l).ed sub else maskClr (s.phy l).ed sub)
      ∧ (t.phy l).sec = (s.phy l).sec)) ∧
  (∀ (s : State) (l sub : Nat) (dbm : Int),
      s.canonical = true →
      s.shaped →
      l < 3 →
      s.active 4 = true →
      sub < 2 ^ linkBw s.linkPlan l →
      Completes (.energyDetect l sub dbm true) s (fun t => (t.phy l).sec = (if sub ≠ s.primSub l
      ∧ signed 8 (s.get Fld.PHY_CCA_CFG.SEC_LVL [l]) ≤ dbm then maskSet (s.phy l).sec sub else maskClr (s.phy l).sec sub) ∧ (t.phy l).ed = (s.phy l).ed)) ∧
  (∀ (s : State) (d : Nat) (zero : Bool) (arrivals : List (Nat × Nat)) (l num u : Nat),
      s.canonical = true →
      s.shaped →
      l < 3 →
      s.active 4 = true →
      (∀ e ∈ arrivals, (s.phy e.1).st ≠ 2) →
      (s.bb.ldpcDec[d]?).getD none = some (l, num, u) →
      Completes (.codewordDecoded d zero arrivals) s (fun t => (t.phy l).rx = (s.phy l).rx.map (cwDone num u (!zero))
      ∧ (t.phy l).draining = ((s.phy l).draining.map (cwDone num u (!zero))).filter (·.pendingCw) ∧
        (s.bb.ldpcQ = [[], [], []] → t.bb.ldpcDec = s.bb.ldpcDec.set d none) ∧
        t.get Fld.LDPC_CNT_FAIL.COUNT = (if zero = true then s.get Fld.LDPC_CNT_FAIL.COUNT else satAdd 0xFFFFFFFF (s.get Fld.LDPC_CNT_FAIL.COUNT) 1))) ∧
  (∀ (s : State) (d : Nat) (zero : Bool) (l u : Nat) (x : PhyRx) (y : PhyUser),
      s.shaped →
      s.active 4 = true →
      (s.phy l).st = 2 →
      (s.phy l).rx = some x →
      x.users[u]? = some y →
      s.bb.ldpcDec.length ≤ d →
      s.ldpcLevel < 4096 →
      Completes (.codewordDecoded d zero [(l, u)]) s (fun t => ((t.phy l).rx.bind (fun z => z.users[u]?)) = some { y with left := y.left + 1 }))

/-- Estimates take a slot and are popped in order; radar pulses are queued and matched; CAC, NOP and the saved map follow. With EN_UL the estimate of a
marked user, and a beamforming report, take the least free slot if they fit in it, and queue a descriptor of the station, the link, the kind and the
slot; the user is then marked as estimated. A pop answers the oldest descriptor and removes it, and a write of SND_SLOT_FREE releases its slot. A
pulse at THR or above on a DFS subchannel of a link that hears is queued with its stamp; when it completes a pattern with those before it on the
subchannel, the channel becomes UNAVAILABLE. CAC_START makes an UNCHECKED channel that it names and the carrier covers CAC; CAC_EXPIRY makes it
AVAILABLE, NOP_EXPIRY an UNAVAILABLE one UNCHECKED, and in Service or Fenced a minute after the last save the map is saved. A pop of PHY_DFS_POP
answers the oldest pulse and shows its stamp. -/
def Obligations.SoundingAndRadarCommandsComplete : Prop :=
  (∀ (s : State) (l u : Nat) (first : Int) (exp snr : Nat) (tones : List (List Cx)) (x : PhyRx) (y : PhyUser) (i : Nat),
      s.shaped →
      s.active 4 = true →
      2 ≤ (s.phy l).st →
      s.flag Fld.SND_CFG.EN_UL = true →
      (s.phy l).rx = some x →
      x.users[u]? = some y →
      y.mark = true →
      s.get Fld.SND_RING_SIZE.SLOTS ≠ 0 →
      firstBelow (s.get Fld.SND_RING_SIZE.SLOTS) (fun i => !s.bb.sndUsed.contains i) = some i →
      64 + 4 * (ceilDiv tones.length (2 ^ s.get Fld.SND_CFG.GROUP_LOG2) * (y.nss * x.paths.length)) ≤ 1024 * max 1 (s.get Fld.SND_RING_SIZE.SLOT_KIB) →
      s.bb.sndQ.length < 256 →
      Completes (.channelEstimate l u first exp snr tones) s (fun t => t.bb.sndUsed = i :: s.bb.sndUsed ∧ t.bb.sndQ = s.bb.sndQ ++ [w32 ((if x.fmt = 7
      ∨ x.fmt = 9 then y.sta else 0xFFF) % 4096 * 2 ^ 19 + l * 2 ^ 17 + 0 * 2 ^ 16 + i)]
      ∧ ((t.phy l).rx.bind (fun z => z.users[u]?)) = some { y with est := true })) ∧
  (∀ (s : State) (rq : Req) (w : Word) (rest : List Word),
      Passes s rq .SND_EST_POP [] false →
      s.bb.sndQ = w :: rest →
      Completes (.sndEstPop rq) s (fun t => t.answered rq w ∧ t.bb.sndQ = rest)) ∧
  (∀ (s : State) (rq : Req) (v : Word),
      Passes s rq .SND_SLOT_FREE [] true →
      Completes (.sndSlotFree rq v) s (fun t => t.answered rq 0 ∧ t.bb.sndUsed = s.bb.sndUsed.filter (fun i => i != wbits v 9 0))) ∧
  (∀ (s : State) (l sta stamp : Nat) (first : Int) (glog nr nc bphi bpsi snr : Nat) (angles : List (List Nat)) (i : Nat),
      l < 3 →
      s.active 4 = true →
      s.get Fld.SND_RING_SIZE.SLOTS ≠ 0 →
      firstBelow (s.get Fld.SND_RING_SIZE.SLOTS) (fun i => !s.bb.sndUsed.contains i) = some i →
      64 + 4 * (angles.length * nc * nr) ≤ 1024 * max 1 (s.get Fld.SND_RING_SIZE.SLOT_KIB) →
      s.bb.sndQ.length < 256 →
      Completes (.beamformingReport l sta stamp first glog nr nc bphi bpsi snr angles) s (fun t => t.bb.sndUsed = i :: s.bb.sndUsed
      ∧ t.bb.sndQ = s.bb.sndQ ++ [w32 (sta % 4096 * 2 ^ 19 + l * 2 ^ 17 + 1 * 2 ^ 16 + i)])) ∧
  (∀ (s : State) (l sub : Nat) (dbm : Int) (width age : Nat) (chirp : Bool) (i : Nat),
      s.canonical = true →
      s.shaped →
      s.phyHears l = true →
      dfsIndex (s.subKhz l sub) = some i →
      sub < 2 ^ linkBw s.linkPlan l →
      s.flag Fld.PHY_DFS_CFG.EN [l] = true →
      signed 8 (s.get Fld.PHY_DFS_CFG.THR [l]) ≤ dbm →
      (s.phy l).dfsQ.length < 256 →
      Completes (.radarPulse l sub dbm width age chirp) s (fun t => (t.phy l).dfsQ = (s.phy l).dfsQ ++ [(w32 (i * 2 ^ 26 + b2n chirp * 2 ^ 20 + unsigned 8 dbm * 2 ^ 12 + width % 4096),
      ((s.netTime - age) % 2 ^ 32).toNat)] ∧
        ((s.dfsMatch l (⟨sub, s.now - age, width, chirp⟩ :: ((s.phy l).pulses.filter (fun e => e.sub == sub)).take 62)).isSome = true → t.dfsState l i = 3))) ∧
  (∀ (s : State) (rq : Req) (l i : Nat) (v : Word),
      s.canonical = true →
      l < 3 →
      i < 16 →
      Passes s rq .PHY_DFS_CTL [l] true →
      bitOf (wbits v 15 0) i = true →
      s.dfsState l i = 0 →
      s.dfsCovers l i = true →
      s.flag Fld.PHY_DFS_CFG.EN [l] = true →
      Completes (.cacStart rq l v) s (fun t => t.answered rq 0 ∧ t.dfsState l i = 1)) ∧
  (∀ (s : State) (l i : Nat),
      s.canonical = true →
      l < 3 →
      i < 16 →
      s.active 4 = true →
      s.dfsState l i = 1 →
      (((s.phy l).cacAt[i]?).getD 0) + s.get Fld.PHY_DFS_CFG.CAC_S [l] * 10000000000 ≤ s.now →
      Completes (.cacExpiry l i) s (fun t => t.dfsState l i = 2)) ∧
  (∀ (s : State) (l i : Nat),
      s.canonical = true →
      l < 3 →
      i < 16 →
      s.active 4 = true →
      s.dfsState l i = 3 →
      (((s.phy l).nopEnds[i]?).getD 0) ≤ s.now →
      Completes (.nopExpiry l i) s (fun t => t.dfsState l i = 0)) ∧
  (∀ (s : State) (l : Nat),
      s.shaped →
      l < 3 →
      s.active 4 = true →
      s.serving = true →
      s.running 4 = true →
      s.bb.dfsSavedAt + 60000000000 ≤ s.now →
      Completes (.dfsMapSave) s (fun t => (t.phy l).savedMap = (List.range 16).map (s.dfsState l) ∧ t.bb.dfsSavedAt = s.now)) ∧
  (∀ (s : State) (rq : Req) (l : Nat) (e : Word × Nat) (rest : List (Word × Nat)),
      s.canonical = true →
      s.shaped →
      l < 3 →
      Passes s rq .PHY_DFS_POP [l] false →
      (s.phy l).dfsQ = e :: rest →
      Completes (.phyDfsPop rq l) s (fun t => t.answered rq e.1 ∧ (t.phy l).dfsQ = rest ∧ t.reg .PHY_DFS_STAMP [l] = w32 e.2))

/-- The scrub poisons an uncorrectable word; a channel issues the request its order names, refreshes, calibrates, closes idle pages and follows PANIC. A
word that the scrub reads as uncorrectable, or that is poisoned, is poisoned and counted in SRM_CNT_UNCORR; a corrected error is counted in
SRM_CNT_CORR and poisons nothing; a clean word changes neither. A channel takes the request that the order of R419 and R420 names, of those queued and
those that arrive, from its queue and opens its row, or leaves it closed when PAGE_IDLE is 0. Throttles end at their time. A refresh that is due
closes every row; while a port is in PANIC it is postponed up to the limit. ZQ calibration and the temperature poll mark their time, the poll the
refresh rate; an idle page is closed; PANIC follows the FIFO level, and a panic of more than PANIC_MAX is marked late. -/
def Obligations.MemoryCommandsComplete : Prop :=
  (∀ (s : State) (a k : Nat),
      s.canonical = true →
      s.flag Fld.SRM_CFG.SCRUB_EN = true →
      s.pwr.powered.contains 6 = true →
      s.mode ≠ 5 →
      a < 0x14400000 →
      s.area a ≠ .none →
      Completes (.sramScrub a k) s (fun t => if k = 2 ∨ s.mems.poisoned.contains (wordBase a) = true then t.mems.poisoned.contains (wordBase a) = true
      ∧ t.get Fld.SRM_CNT_UNCORR.COUNT = satAdd 0xFFFFFFFF (s.get Fld.SRM_CNT_UNCORR.COUNT) 1 ∧ t.get Fld.SRM_CNT_CORR.COUNT = s.get Fld.SRM_CNT_CORR.COUNT
        else t.mems.poisoned = s.mems.poisoned
      ∧ t.get Fld.SRM_CNT_CORR.COUNT = (if k = 1 then satAdd 0xFFFFFFFF (s.get Fld.SRM_CNT_CORR.COUNT) 1 else s.get Fld.SRM_CNT_CORR.COUNT))) ∧
  (∀ (s : State) (c ecc line : Nat) (l : List DramArrival) (q : DramReq),
      s.mems.dmc.length = 2 →
      s.chOn c = true →
      (s.dramArrived c l).dramPick c = some q →
      Completes (.dramCommand c l ecc line) s (fun t => (t.ch c).queue = ((s.dramArrived c l).ch c).queue.filter (fun w => w.num != q.num)
      ∧ (t.ch c).openRow q.bank q.rank = (if s.get Fld.DMC_CFG.PAGE_IDLE [c] = 0 then none else some q.row))) ∧
  (∀ (s : State) (c ecc line : Nat) (a : DramArrival),
      s.mems.dmc.length = 2 →
      s.chOn c = true →
      (s.ch c).queue = [] →
      (s.ch c).inOrder = [] →
      (s.ch c).throttles = [] →
      Completes (.dramCommand c [a] ecc line) s (fun t => (t.ch c).queue = []
      ∧ (t.ch c).openRow a.bank a.rank = (if s.get Fld.DMC_CFG.PAGE_IDLE [c] = 0 then none else some a.row))) ∧
  (∀ (s : State) (c : Nat),
      Completes (.throttleEnd c) s (fun t => (t.ch c).throttles = (s.ch c).throttles.filter (fun x => decide (s.now < x.ends)))) ∧
  (∀ (s : State) (c : Nat),
      s.mems.dmc.length = 2 →
      s.chOn c = true →
      (s.ch c).lastRefresh + s.tRefi c ≤ s.now →
      Completes (.dramRefresh c) s (fun t => (t.ch c).lastRefresh = s.now ∧ ((s.ch c).panic = [] → (t.ch c).openRows = [] ∧ (t.ch c).refreshOwed = 0) ∧
        ((s.ch c).panic ≠ [] → if (s.ch c).refreshOwed < Config.refreshPostpone (leAt (s.body 6 0x32) 0 1) then (t.ch c).refreshOwed = (s.ch c).refreshOwed + 1 else (t.ch c).openRows = []))) ∧
  (∀ (s : State) (c : Nat),
      s.mems.dmc.length = 2 →
      s.chOn c = true →
      s.serving = true →
      (s.ch c).panic = [] →
      (s.ch c).lastZq + 100000000 ≤ s.now →
      Completes (.zqCalibration c) s (fun t => (t.ch c).lastZq = s.now)) ∧
  (∀ (s : State) (c rate : Nat),
      s.mems.dmc.length = 2 →
      s.chOn c = true →
      s.serving = true →
      (s.ch c).lastTemp + 10000000 ≤ s.now →
      Completes (.dramTempPoll c rate) s (fun t => (t.ch c).lastTemp = s.now ∧ (t.ch c).refreshRate = rate)) ∧
  (∀ (s : State) (c bank rank : Nat),
      s.mems.dmc.length = 2 →
      s.chOn c = true →
      (s.ch c).queue.any (fun q => q.bank == bank && q.rank == rank) = false →
      s.get Fld.DMC_CFG.PAGE_IDLE [c] * 8000 ≤ (s.now - (((s.ch c).lastUse.find? (fun e => e.1 == bank && e.2.1 == rank)).map (fun e => e.2.2)).getD 0) * leAt (s.body 6 0x32) 2 2 →
      Completes (.pageIdle c bank rank) s (fun t => (t.ch c).openRow bank rank = none)) ∧
  (∀ (s : State) (c port lines : Nat) (write : Bool),
      s.canonical = true →
      s.mems.dmc.length = 2 →
      s.chOn c = true →
      Completes (.dmcPanic c port lines write) s (fun t => (t.ch c).panic.any (fun e => e.port == port) = (if write = true then decide (64 - s.get Fld.DMC_RT_CFG.PANIC_LO [c] < lines) else decide (lines < s.get Fld.DMC_RT_CFG.PANIC_LO [c])))) ∧
  (∀ (s : State) (c port : Nat),
      s.mems.dmc.length = 2 →
      s.chOn c = true →
      (s.ch c).panic.any (fun e => e.port == port && !e.late && decide (e.since + max 1 (s.get Fld.DMC_RT_CFG.PANIC_MAX [c]) * 100 < s.now)) = true →
      Completes (.dmcRtStarve c port) s (fun t => (t.ch c).panic.all (fun e => e.port != port || e.late) = true))

/-- LOAD, COMMIT and CLEAR act on the selected table entry and report; grant installs begin or are busy; reports and completions are popped in order. LOAD
shows the entry in the window. A COMMIT whose window breaks a rule of the table's layout reports FIELD with the first failing word and changes no
entry; one that breaks none (a station without multi-link operation, whose number has a limit, and for a group with PATHS unchanged) becomes the
entry, with its hardware-kept fields kept or begun, RESULT 0. CLEAR of an entry that no valid entry references makes it zero. INSTALL begins Kiln's
check of the record, which ends after a time of the model's (notes/assumptions/17.md), and is BUSY while one goes on; AFC CLEAR leaves no grant. Pops
answer the oldest entry and remove it; a write of WAC_MRX_FREE frees its buffer. -/
def Obligations.AccessTableCommandsComplete : Prop :=
  (∀ (s : State) (rq : Req) (n : Nat),
      s.canonical = true →
      Passes s rq .WAC_TBL_CTL [] true →
      n < 32 →
      Completes (.wacTableLoad rq) s (fun t => t.answered rq 0
      ∧ t.reg .WAC_TBL_WIN [n] = w32 (leAt (s.wtbl (s.get Fld.WAC_TBL_SEL.TABLE) (s.get Fld.WAC_TBL_SEL.INDEX)) (4 * n) 4) ∧ t.get Fld.WAC_TBL_STAT.VALID = 1
      ∧ t.get Fld.WAC_TBL_STAT.RESULT = 0)) ∧
  (∀ (s : State) (rq : Req),
      s.canonical = true →
      swf wacZero s.wac.tbl = true →
      Passes s rq .WAC_TBL_CTL [] true →
      s.get Fld.WAC_TBL_SEL.TABLE ≤ 5 →
      (s.get Fld.WAC_TBL_SEL.TABLE = 4 → ∀ l ∈ List.range 3, (s.linkPaths l).length = (s.wlink l).paths) →
      firstBad (s.entryChecks (s.get Fld.WAC_TBL_SEL.TABLE) (s.get Fld.WAC_TBL_SEL.INDEX) (s.wacWin (wacSize (s.get Fld.WAC_TBL_SEL.TABLE)))) = none →
      (s.get Fld.WAC_TBL_SEL.TABLE = 0 → bitOf (leAt (s.wacWin (wacSize 0)) 0 2) 3 = false) →
      Completes (.wacTableCommit rq) s (fun t => t.answered rq 0
      ∧ t.wtbl (s.get Fld.WAC_TBL_SEL.TABLE) (s.get Fld.WAC_TBL_SEL.INDEX) = s.keepFields (s.get Fld.WAC_TBL_SEL.TABLE) (s.get Fld.WAC_TBL_SEL.INDEX) (s.wacWin (wacSize (s.get Fld.WAC_TBL_SEL.TABLE)))
      ∧ t.get Fld.WAC_TBL_STAT.VALID = 1 ∧ t.get Fld.WAC_TBL_STAT.RESULT = 0)) ∧
  (∀ (s : State) (rq : Req) (w : Nat),
      s.canonical = true →
      Passes s rq .WAC_TBL_CTL [] true →
      s.get Fld.WAC_TBL_SEL.TABLE ≤ 5 →
      firstBad (s.entryChecks (s.get Fld.WAC_TBL_SEL.TABLE) (s.get Fld.WAC_TBL_SEL.INDEX) (s.wacWin (wacSize (s.get Fld.WAC_TBL_SEL.TABLE)))) = some w →
      w < 256 →
      Completes (.wacTableCommit rq) s (fun t => t.answered rq 0 ∧ t.wac.tbl = s.wac.tbl ∧ t.get Fld.WAC_TBL_STAT.VALID = 1 ∧ t.get Fld.WAC_TBL_STAT.RESULT = 1
      ∧ t.get Fld.WAC_TBL_STAT.WORD = w)) ∧
  (∀ (s : State) (rq : Req),
      s.canonical = true →
      swf wacZero s.wac.tbl = true →
      Passes s rq .WAC_TBL_CTL [] true →
      s.wreferenced (s.get Fld.WAC_TBL_SEL.TABLE) (s.get Fld.WAC_TBL_SEL.INDEX) = false →
      Completes (.wacTableClear rq) s (fun t => t.answered rq 0
      ∧ t.wtbl (s.get Fld.WAC_TBL_SEL.TABLE) (s.get Fld.WAC_TBL_SEL.INDEX) = List.replicate (wacSize (s.get Fld.WAC_TBL_SEL.TABLE)) 0
      ∧ t.get Fld.WAC_TBL_STAT.RESULT = 0)) ∧
  (∀ (s : State) (rq : Req) (e : Nat × Nat × Nat) (rest : List (Nat × Nat × Nat)),
      Passes s rq .WAC_BSR_POP [] false →
      s.wac.bsr = e :: rest →
      Completes (.wacBsrPop rq) s (fun t => t.answered rq (w32 (e.1 * 2 ^ 20 + e.2.1 * 2 ^ 18 + e.2.2 * 2 ^ 16)) ∧ t.wac.bsr = rest)) ∧
  (∀ (s : State) (rq : Req) (w : Word) (rest : List Word),
      Passes s rq .WAC_MTX_CPL_POP [] false →
      s.wac.cpl = w :: rest →
      Completes (.wacMtxCplPop rq) s (fun t => t.answered rq w ∧ t.wac.cpl = rest)) ∧
  (∀ (s : State) (rq : Req) (v : Word),
      Passes s rq .WAC_MRX_FREE [] true →
      Completes (.wacMrxFree rq v) s (fun t => t.answered rq 0 ∧ t.mems.bufs = s.mems.bufs.filter (fun b => b.handle != v.toNat))) ∧
  (∀ (s : State) (rq : Req),
      s.canonical = true →
      Passes s rq .WAC_AFC_CTL [] true →
      s.radio.afcRun = none →
      Completes (.afcInstall rq) s (fun t => t.answered rq 0 ∧ t.get Fld.WAC_AFC_STAT.VALID = 0 ∧ t.radio.afc = s.radio.afc ∧
        t.radio.afcRun = some (64 * (s.reg .WAC_AFC_ADDR).toNat, s.now + Config.afcNs (64 * (s.reg .WAC_AFC_ADDR).toNat)))) ∧
  (∀ (s : State) (rq : Req),
      s.canonical = true →
      Passes s rq .WAC_AFC_CTL [] true →
      s.radio.afcRun ≠ none →
      Completes (.afcInstall rq) s (fun t => t.answered rq 0 ∧ t.get Fld.WAC_AFC_STAT.VALID = 1 ∧ t.get Fld.WAC_AFC_STAT.RESULT = 7 ∧ t.radio.afc = s.radio.afc
      ∧ t.radio.afcRun = s.radio.afcRun)) ∧
  (∀ (s : State) (rq : Req),
      s.canonical = true →
      Passes s rq .WAC_AFC_CTL [] true →
      Completes (.afcClear rq) s (fun t => t.answered rq 0 ∧ t.radio.afc = [] ∧ t.get Fld.WAC_AFC_STAT.VALID = 1 ∧ t.get Fld.WAC_AFC_STAT.RESULT = 0
      ∧ t.get Fld.WAC_AFC_STAT.ENTRIES = 0))

/-- Beacons are queued at TBTT, a category wins the medium, triggers are sent, old frames leave, software frames are fetched, a CTS covers a quiet window.
At a TBTT of a running link with a BSS a beacon is queued and DTIM counted down. A frame older than LIFETIME that is in no exchange leaves, unless it
is a beacon or bound to a launch. The highest category with demand that wins an idle medium starts a TXOP, and its group-addressed frame goes into a
PPDU at the GROUP_RATE that the link can carry. BSRP sends a trigger to the stations whose report is old, a service period with TRIGGER to the
stations that have not appeared, at its start and each millisecond of it, and a restricted period ends the TXOP at its start. A descriptor fetch moves
HEAD; one without length completes with 10, one for no running link with 13, and a good one without LAUNCH joins the queues. A CTS-to-self covers a
booked window on an idle medium; on a busy one, from 200 us before it, the window counts as uncovered. -/
def Obligations.AccessTransmitCommandsComplete : Prop :=
  (∀ (s : State) (l : Nat),
      s.shaped →
      l < 3 →
      s.get Fld.WAC_LINK_CFG.BCN_INT [l] ≠ 0 →
      s.wlinkRun l = true →
      s.wvalid 5 (16 * l) = true →
      s.tsf % (1024 * s.get Fld.WAC_LINK_CFG.BCN_INT [l]) = 0 →
      (s.wlink l).lastTbtt ≠ s.tsf →
      Completes (.tbtt l) s (fun t => (t.wlink l).lastTbtt = s.tsf
      ∧ (t.wlink l).dtim = ((s.wlink l).dtim + max 1 (s.get Fld.WAC_LINK_CFG.DTIM_PERIOD [l]) - 1) % max 1 (s.get Fld.WAC_LINK_CFG.DTIM_PERIOD [l]) ∧
        (t.wac.frames.getLast?.map (fun f => (f.kind, f.links, f.inTx))) = some (2, 2 ^ l, none))) ∧
  (∀ (s : State) (i : Nat) (f : WacFrame),
      s.wac.frames[i]? = some f →
      s.active 5 = true →
      s.get Fld.WAC_BA_CFG.LIFETIME ≠ 0 →
      f.launch = none →
      s.inExchange f = false →
      f.kind ≠ 2 →
      f.since + s.get Fld.WAC_BA_CFG.LIFETIME * 1000000 < s.now →
      Completes (.frameLifetime i) s (fun t => t.wac.frames = s.wac.frames.filter (fun x => x.num != f.num))) ∧
  (∀ (s : State) (l ac air take : Nat) (g : WacFrame) (r : Nat × Nat),
      s.canonical = true →
      s.shaped →
      l < 3 →
      s.linkIdle l = true →
      ac ≤ 4 →
      (s.wlink l).sent = none →
      s.wac.frames.find? (fun f => f.sid == 0xFFFF && s.frameWaits l ac f && (f.kind == 2 || s.spServes l f.sid)) = some g →
      s.frameKey l g = none →
      s.pastWindow g = false →
      s.rateFor l (s.wfld 5 (16 * l + g.bss) 0x18 4) = some r →
      ((List.range 5).all (fun c => decide (c ≤ ac) || ((s.dlCands l c).isEmpty && !s.wac.frames.any (fun f => f.sid == 0xFFFF && s.frameWaits l c f && (f.kind == 2 || s.spServes l f.sid))))) = true →
      s.ppduFits l s.netTime (1000 * air) false = true →
      (ac < 4 → s.get Fld.WAC_EDCA.TXOP_LIMIT [l, ac] = 0 ∨ air ≤ 32 * s.get Fld.WAC_EDCA.TXOP_LIMIT [l, ac]) →
      Completes (.edcaBackoffExpiry l ac air take) s (fun t => (t.wlink l).txop = some (ac, if ac < 4 ∧ s.get Fld.WAC_EDCA.TXOP_LIMIT [l,
      ac] ≠ 0 then s.netTime + 32000 * s.get Fld.WAC_EDCA.TXOP_LIMIT [l, ac] else 0) ∧
        ((t.wlink l).due.getLast?.map (fun p => (p.kind, p.ac, p.users, p.air))) = some (0, ac, [(0xFFFF, 0)], air)
      ∧ ((t.wlink l).due.getLast?.map (fun p => (p.rate, p.streams))) = some (r.1, [r.2]))) ∧
  (∀ (s : State) (l air : Nat),
      s.shaped →
      l < 3 →
      s.wlinkRun l = true →
      s.get Fld.WAC_SCHED_CFG.BSRP_MS [l] ≠ 0 →
      (s.wlink l).lastBsrp + s.get Fld.WAC_SCHED_CFG.BSRP_MS [l] * 1000000 ≤ s.now →
      Completes (.bsrpTrigger l air) s (fun t => (t.wlink l).lastBsrp = s.now
      ∧ (t.wlink l).due = (s.wlink l).due ++ s.triggersOf l 4 ((s.wacStas l).filter (fun i => s.staFlag i 3 && decide (sget (fun _ => 0) s.wac.reportAt i + s.get Fld.WAC_SCHED_CFG.BSRP_MS [l] * 1000000 ≤ s.now))) air)) ∧
  (∀ (s : State) (i air : Nat),
      s.shaped →
      i < 1024 →
      s.wfld 3 i 1 1 < 3 →
      s.wvalid 3 i = true →
      s.wlinkRun (s.wfld 3 i 1 1) = true →
      s.spAt i s.tsf = some s.tsf →
      Completes (.twtSpStart i air) s (fun t => (bitOf (s.wfld 3 i 0 1) 1 = true → (t.wlink (s.wfld 3 i 1 1)).txop = none) ∧
        (t.wlink (s.wfld 3 i 1 1)).due = (s.wlink (s.wfld 3 i 1 1)).due ++ (if bitOf (s.wfld 3 i 0 1) 2 = true then s.triggersOf (s.wfld 3 i 1 1) 3 (s.spAbsent i s.tsf) air else []))) ∧
  (∀ (s : State) (i air b : Nat),
      s.shaped →
      i < 1024 →
      s.wfld 3 i 1 1 < 3 →
      s.wvalid 3 i = true →
      s.wlinkRun (s.wfld 3 i 1 1) = true →
      s.spAt i s.tsf = some b →
      bitOf (s.wfld 3 i 0 1) 2 = true →
      b < s.tsf →
      s.tsf < b + s.wfld 3 i 0x10 4 →
      (s.tsf - b) % 1000 = 0 →
      Completes (.twtTriggerRepeat i air) s (fun t => (t.wlink (s.wfld 3 i 1 1)).due = (s.wlink (s.wfld 3 i 1 1)).due ++ s.triggersOf (s.wfld 3 i 1 1) 3 (s.spAbsent i b) air)) ∧
  (∀ (s : State) (air : Nat) (d : Bytes),
      s.canonical = true →
      s.active 5 = true →
      s.flag Fld.WAC_MTX_CFG.EN = true →
      s.get Fld.WAC_MTX_HEAD.HEAD % 2 ^ s.get Fld.WAC_MTX_CFG.SIZE_LOG2 ≠ s.get Fld.WAC_MTX_TAIL.TAIL % 2 ^ s.get Fld.WAC_MTX_CFG.SIZE_LOG2 →
      s.wac.cpl.length < 256 →
      s.poolUse < 131072 →
      s.get Fld.WAC_MTX_CFG.SIZE_LOG2 ≤ 12 →
      d = (s.memRead (.engine 5 1) (64 * (s.reg .WAC_MTX_BASE).toNat + 32 * (s.get Fld.WAC_MTX_HEAD.HEAD % 2 ^ s.get Fld.WAC_MTX_CFG.SIZE_LOG2)) 32).2.1 →
      Completes (.mtxDescriptorFetch air) s (fun t => t.get Fld.WAC_MTX_HEAD.HEAD = (s.get Fld.WAC_MTX_HEAD.HEAD % 2 ^ s.get Fld.WAC_MTX_CFG.SIZE_LOG2 + 1) % 2 ^ s.get Fld.WAC_MTX_CFG.SIZE_LOG2 ∧
        (leAt d 4 2 = 0 ∨ leAt d 6 2 < leAt d 4 2 ∨ 4096 < leAt d 4 2
      → t.wac.cpl = s.wac.cpl ++ [w32 (s.get Fld.WAC_MTX_HEAD.HEAD % 2 ^ s.get Fld.WAC_MTX_CFG.SIZE_LOG2 * 2 ^ 16 + 250)]))) ∧
  (∀ (s : State) (air : Nat) (d : Bytes),
      s.active 5 = true →
      s.flag Fld.WAC_MTX_CFG.EN = true →
      s.get Fld.WAC_MTX_HEAD.HEAD % 2 ^ s.get Fld.WAC_MTX_CFG.SIZE_LOG2 ≠ s.get Fld.WAC_MTX_TAIL.TAIL % 2 ^ s.get Fld.WAC_MTX_CFG.SIZE_LOG2 →
      s.wac.cpl.length < 256 →
      s.poolUse < 131072 →
      s.get Fld.WAC_MTX_CFG.SIZE_LOG2 ≤ 12 →
      s.memRead (.engine 5 1) (64 * (s.reg .WAC_MTX_BASE).toNat + 32 * (s.get Fld.WAC_MTX_HEAD.HEAD % 2 ^ s.get Fld.WAC_MTX_CFG.SIZE_LOG2)) 32 = (0, d, s) →
      leAt d 4 2 ≠ 0 →
      leAt d 4 2 ≤ leAt d 6 2 →
      leAt d 4 2 ≤ 4096 →
      (∀ l ∈ List.range 3, s.wlinkRun l = false) →
      Completes (.mtxDescriptorFetch air) s (fun t => t.wac.cpl = s.wac.cpl ++ [w32 (s.get Fld.WAC_MTX_HEAD.HEAD % 2 ^ s.get Fld.WAC_MTX_CFG.SIZE_LOG2 * 2 ^ 16 + 253)]
      ∧ t.wac.frames = s.wac.frames)) ∧
  (∀ (s : State) (air l : Nat) (d : Bytes),
      s.active 5 = true →
      s.flag Fld.WAC_MTX_CFG.EN = true →
      s.get Fld.WAC_MTX_HEAD.HEAD % 2 ^ s.get Fld.WAC_MTX_CFG.SIZE_LOG2 ≠ s.get Fld.WAC_MTX_TAIL.TAIL % 2 ^ s.get Fld.WAC_MTX_CFG.SIZE_LOG2 →
      s.wac.cpl.length < 256 →
      s.poolUse < 131072 →
      s.memRead (.engine 5 1) (64 * (s.reg .WAC_MTX_BASE).toNat + 32 * (s.get Fld.WAC_MTX_HEAD.HEAD % 2 ^ s.get Fld.WAC_MTX_CFG.SIZE_LOG2)) 32 = (0, d, s) →
      leAt d 4 2 ≠ 0 →
      leAt d 4 2 ≤ leAt d 6 2 →
      leAt d 4 2 ≤ 4096 →
      bitOf (leAt d 12 2) 2 = false →
      l < 3 →
      s.wlinkRun l = true →
      bitOf (s.frameLinks (s.frameNew 1 (leAt d 8 2) (leAt d 10 1 % 8) 0 0 0 0)) l = true →
      Completes (.mtxDescriptorFetch air) s (fun t => (t.wac.frames.getLast?.map (fun f => (f.kind, f.sid, f.len, f.buf, f.cookie, f.flags))) = some (1,
      leAt d 8 2, leAt d 4 2, leAt d 0 4, leAt d 20 4, leAt d 12 2) ∧ t.wac.frames.length = s.wac.frames.length + 1)) ∧
  (∀ (s : State) (q l air : Nat) (w : Int) (r : CalRun),
      s.shaped →
      q < 4 →
      l < 3 →
      r.booked = some w →
      s.wlinkRun l = true →
      s.get Fld.CAL_STAT.STATE [q] = 2 →
      s.netTime < w →
      s.wac.covered.contains (q, l, w) = false →
      (s.cal q).run = some r →
      r.paths.any (fun p => (s.linkPaths l).contains (16 * q + p)) = true →
      s.linkIdle l = true →
      s.netTime + 1000 * air ≤ w →
      Completes (.quietWindowCts q l air) s (fun t => t.wac.covered = (q, l, w) :: s.wac.covered.filter (fun e => e.1 != q || e.2.1 != l)
      ∧ ((t.wlink l).due.head?.map (fun p => p.kind)) = some 5)) ∧
  (∀ (s : State) (q l air : Nat) (w : Int) (r : CalRun),
      s.canonical = true →
      q < 4 →
      l < 3 →
      r.booked = some w →
      s.wlinkRun l = true →
      s.get Fld.CAL_STAT.STATE [q] = 2 →
      s.netTime < w →
      s.wac.covered.contains (q, l, w) = false →
      (s.cal q).run = some r →
      r.paths.any (fun p => (s.linkPaths l).contains (16 * q + p)) = true →
      s.linkIdle l = false →
      w ≤ s.netTime + 200000 →
      Completes (.quietWindowCts q l air) s (fun t => t.wac.covered = (q, l, w) :: s.wac.covered.filter (fun e => e.1 != q || e.2.1 != l)
      ∧ (t.reg .WAC_CNT_QW_UNCOVERED).toNat = min (2 ^ 32 - 1) ((s.reg .WAC_CNT_QW_UNCOVERED).toNat + 1)))

/-- A received MPDU sets the NAV and completes what it acknowledges; held frames are released at the reorder timeout; service periods are judged. A PSDU
leaves the PHY's list with its last MPDU; each MPDU extends the NAV, ends the exchange that it acknowledges, and makes an acknowledgement due that
names its sequence number, unless it is control or wants none; a software frame that it acknowledges completes with 0 and leaves. REORDER_TO after the
oldest held frame of an agreement arrived every held frame of the agreement is released and WIN_START is past the last. The close of a window marks
its service period judged and puts the station to sleep; one that did not appear has its count of misses grow, one that did has it zero, unless the
link was down in the period. -/
def Obligations.AccessReceiveCommandsComplete : Prop :=
  (∀ (s : State) (l i : Nat) (last : Bool) (m : Mpdu) (rec : Bytes),
      s.shaped →
      l < 3 →
      s.active 5 = true →
      (s.phy l).delivered[i]? = some rec →
      Completes (.mpduReceive l i last m) s (fun t => (t.wlink l).nav = max (s.wlink l).nav (s.netTime + 1000 * m.nav)
      ∧ (t.phy l).delivered = (if last = true then (s.phy l).delivered.eraseIdx i else (s.phy l).delivered) ∧
        (m.kind ≠ 1 ∧ m.noAck = false → (t.wlink l).due.any (fun p => p.kind == 6 && p.users == [(m.sid, 0)] && p.tid == m.tid && p.acks.contains m.sn) = true)
      ∧ (m.acks.isSome = true → (t.wlink l).sent = none))) ∧
  (∀ (s : State) (l i : Nat) (last : Bool) (m : Mpdu) (rec : Bytes) (p : WacPpdu) (f : WacFrame),
      s.shaped →
      l < 3 →
      s.active 5 = true →
      (s.phy l).delivered[i]? = some rec →
      m.sid = 0xFFFF →
      m.kind = 1 →
      m.prot = false →
      m.acks = some [0] →
      (s.wlink l).sent = some p →
      p.frames = [f.num] →
      s.wac.frames = [f] →
      f.inTx = some p.num →
      f.kind = 1 →
      Completes (.mpduReceive l i last m) s (fun t => t.wac.frames = []
      ∧ t.wac.cpl = s.wac.cpl ++ [w32 (f.ring % 4096 * 2 ^ 16 + min 15 f.retries * 256 + l % 16 * 16)])) ∧
  (∀ (s : State) (a : Nat) (hs : List WacHeld),
      swf wacZero s.wac.tbl = true →
      a < 4096 →
      (s.wtbl 2 a).length = 16 →
      s.active 5 = true →
      s.wac.held.filter (fun x => x.agr == a) = hs →
      (hs.all (fun h => decide (h.up.sn < 4096))) = true →
      (hs.map (fun h => h.up.sn)).Nodup →
      hs.any (fun h => decide (h.at_ + max 1 (s.get Fld.WAC_BA_CFG.REORDER_TO) * 1000000 ≤ s.now)) = true →
      Completes (.reorderTimeout a) s (fun t => t.wac.held = s.wac.held.filter (fun x => x.agr != a)
      ∧ t.baStart a = (s.baStart a + (hs.map (fun h => (h.up.sn + 4096 - s.baStart a) % 4096)).foldl max 0 + 1) % 4096)) ∧
  (∀ (s : State) (sid b : Nat),
      swf wacZero s.wac.tbl = true →
      swf (fun _ => 0) s.wac.spDone = true →
      sid < 2048 →
      (s.wtbl 0 sid).length = 128 →
      s.active 5 = true →
      s.wvalid 0 sid = true →
      s.wvalid 3 (s.staTwt sid) = true →
      16 * s.staGuard sid + s.wfld 3 (s.staTwt sid) 0x10 4 ≤ s.tsf →
      s.spAt (s.staTwt sid) (s.tsf - 16 * s.staGuard sid - s.wfld 3 (s.staTwt sid) 0x10 4) = some b →
      sget (fun _ => 0) s.wac.spDone sid ≤ b →
      Completes (.twtWindowClose sid) s (fun t => sget (fun _ => 0) t.wac.spDone sid = b + 1 ∧ t.wac.awake.contains sid = false ∧ t.wac.seen.contains (sid,
      b) = false ∧
        (((s.wlink (s.wfld 3 (s.staTwt sid) 1 1)).downSince.any (fun a => decide (a < 1000 * ((b + s.wfld 3 (s.staTwt sid) 0x10 4 : Nat) : Int))) || (s.wlink (s.wfld 3 (s.staTwt sid) 1 1)).downs.any (fun e => decide (e.1 < 1000 * ((b + s.wfld 3 (s.staTwt sid) 0x10 4 : Nat) : Int)
      ∧ 1000 * (b : Int) < e.2))) = false → t.wfld 0 sid 0x4A 1 = if s.wac.seen.contains (sid, b) = true then 0 else min 255 (s.wfld 0 sid 0x4A 1 + 1))))

/-- A downlink section in its window is accepted, uplink messages leave after their symbol, the unit stops and resumes, slots are returned and freed. A
supported downlink section of one symbol that arrives in its window joins the accepted sections with its air time. The messages of a frame to a unit
that has stopped are counted NO_TIME and otherwise dropped. From 8 µs after its symbol an uplink section leaves the list; with paths in FH on the
quadrants of its route its messages, one or as many as MAX_FRAME needs, leave on its lane and are counted, without them the symbol is counted
RESTACK_DISC. FH_TIME_FAULT takes the bad condition as the stop; FH_RESUME clears it at a frame boundary. A pop of returned slots gives the oldest
with its symbol; a write of FHU_RET_FREE frees a returned slot. -/
def Obligations.FronthaulCommandsComplete : Prop :=
  (∀ (s : State) (f : FhFrame) (e : Nat) (m : FhMsg) (c : FhSection) (at_ : Int),
      s.fhTakes f →
      f.msgs = [m] →
      4 + m.size ≤ f.len - (if f.vid.isSome then 22 else 18) →
      s.fhTakesSection e m c →
      s.fhTime (s.netTime - f.age) m.frame (symStart (s.eaScs e) m.subframe m.slot m.sym) = some at_ →
      winJudge (s.netTime - f.age) at_ (1000 * (s.get Fld.FHU_WIN_UP.T2A_MIN_UP : Int) + 1000 * s.get Fld.FHU_WIN_CPDL.TCP_ADV_DL) (1000 * (s.get Fld.FHU_WIN_UP.T2A_MAX_UP : Int) + 1000 * s.get Fld.FHU_WIN_CPDL.TCP_ADV_DL) = 0 →
      Completes (.fhFrameReceive f) s (fun t => t.fhu.secs.getLast? = some ⟨e, true, at_,
      at_ - symStart (s.eaScs e) m.subframe m.slot m.sym + symStart (s.eaScs e) m.subframe m.slot (m.sym + 1), c.start, fhNum (s.eaNrb e) c, c.beam, c.id,
      [m.frame, m.subframe, m.slot, m.sym], false, none⟩ ∧ sget (fun _ => 0) t.fhu.seqs (2 * e + 1) = m.seq + 1)) ∧
  (∀ (s : State) (f : FhFrame),
      s.canonical = true →
      f.lane < 2 →
      s.serving = true →
      s.portUp (8 + f.lane) = true →
      s.active 4 = true →
      f.eth = 0xAEFE →
      f.fcs = true →
      f.len ≤ s.get Fld.FHU_MAX_FRAME.MAX_FRAME →
      f.dest = (s.reg .FHU_MAC_LO [f.lane]).toNat + s.get Fld.FHU_MAC_HI.ADDR [f.lane] * 2 ^ 32 →
      (if s.flag Fld.FHU_CFG.VLAN_EN = true then f.vid = some (s.get Fld.FHU_CFG.VID) else f.vid = none) →
      s.flag Fld.FHU_CFG.EN = true →
      s.fhRuns = false →
      Completes (.fhFrameReceive f) s (fun t => t.fhu = s.fhu
      ∧ (t.reg .FHU_CNT_NO_TIME).toNat = min (2 ^ 32 - 1) ((s.reg .FHU_CNT_NO_TIME).toNat + f.msgs.length))) ∧
  (∀ (s : State) (i : Nat) (adc : List (Nat × List Cx)) (c : FhSec),
      s.fhu.secs[i]? = some c →
      s.fhRuns = true →
      c.dl = false →
      c.ends + 8000 ≤ s.netTime →
      Completes (.ulUPlaneSend i adc) s (fun t => t.fhu.secs = s.fhu.secs.eraseIdx i ∧
        ((s.rolePaths 4).filter (fun g => s.routeHere (g / 16) (s.eaRoute c.entry)) = []
      → t.get Fld.FHU_CNT_RESTACK_DISC.COUNT = satAdd 0xFFFFFFFF (s.get Fld.FHU_CNT_RESTACK_DISC.COUNT) 1 ∧ t.outs = s.outs) ∧
        ((s.rolePaths 4).filter (fun g => s.routeHere (g / 16) (s.eaRoute c.entry)) ≠ []
      → t.get Fld.FHU_CNT_UL_TX.COUNT = satAdd 0xFFFFFFFF (s.get Fld.FHU_CNT_UL_TX.COUNT) (max 1 (ceilDiv c.num (s.ulPrbs c)))
      ∧ s.outs.length + (max 1 (ceilDiv c.num (s.ulPrbs c))) ≤ t.outs.length ∧
          (t.outs.take (max 1 (ceilDiv c.num (s.ulPrbs c)))).all (fun o => o.kind == .lane && o.args == [s.get Fld.FHU_EAXC_W0.LANE [c.entry], 0]) = true))) ∧
  (∀ (s : State),
      s.active 4 = true →
      s.flag Fld.FHU_CFG.EN = true →
      s.fhTimeBad ≠ 0 →
      s.fhu.stop ≠ s.fhTimeBad →
      Completes (.fhTimeFault) s (fun t => t.fhu.stop = s.fhTimeBad)) ∧
  (∀ (s : State),
      s.active 4 = true →
      s.fhu.stop ≠ 0 →
      s.fhTimeBad = 0 →
      (s.netTime - s.fhOff) % 10000000 = 0 →
      Completes (.fhResume) s (fun t => t.fhu.stop = 0)) ∧
  (∀ (s : State) (rq : Req) (i : Nat) (rest : List Nat) (e : FhSlot) (a b c d : Nat),
      s.canonical = true →
      Passes s rq .FHU_RET_POP [] false →
      s.fhu.rets = i :: rest →
      s.fhu.slots.find? (fun x => x.idx == i) = some e →
      e.ids = [a, b, c, d] →
      Completes (.fhuRetPop rq) s (fun t => t.answered rq (w32 (e.entry * 2 ^ 12 + i)) ∧ t.fhu.rets = rest
      ∧ t.reg .FHU_RET_INFO [] = w32 (a % 256 * 2 ^ 24 + b % 16 * 2 ^ 20 + c % 64 * 2 ^ 14 + d % 16 * 2 ^ 10))) ∧
  (∀ (s : State) (rq : Req) (v : Word),
      Passes s rq .FHU_RET_FREE [] true →
      Completes (.fhuRetFree rq v) s (fun t => t.answered rq 0 ∧ t.fhu.slots = s.fhu.slots.filter (fun x => !(x.idx == wbits v 11 0 && x.returned))))

/-- A preamble starts a frame, header and capture move the demodulator, a frame ends, downlinks queue, expire and are popped, feedback is written. A
preamble on a channel that hears makes it PROVISIONAL, and one stronger by RESTART_MARGIN re-acquires; a good sync word and header make it COMMITTED,
or ABSORB past MAX_LEN; a wrong sync word ends it when no other preamble is held. With CAPTURE_EN a preamble stronger by CAPTURE_MARGIN takes a frame
over. At its end the demodulator searches again; a fresh authentic frame that MRAM takes and for which the ring has room sets LAST to its counter. A
good push joins the pending table and a push on a full table waits; a push with no other entry for its device is the last of the table. EXPIRED, with
no push waiting, takes the entry out and completes it with 6. A read of TXA_DL_CPL_POP pops the oldest completion and latches its cookie; a write of
TXA_CTR_DATA sets the counter of TXA_CTR_SEL. The waiting correction, clamped to ±100,000, goes into TXA_FB_STAT and into SYN_FINE of each LO that
serves LRC paths and takes it; after FB_DEFER it goes into TXA_FB_STAT although channels receive. -/
def Obligations.TixiaCommandsComplete : Prop :=
  (∀ (s : State) (c sf age : Nat) (rssi : Int),
      s.shaped →
      s.chHears c = true →
      7 ≤ sf ∧ sf ≤ 12 →
      bitOf (s.get Fld.TXA_CH_CFG_W0.SF_MASK [c]) (sf - 7) = true →
      (s.demod c).rx = none →
      Completes (.lrcPreambleDetect c sf age rssi) s (fun t => (t.demod c).st = 2 ∧ (t.demod c).rx = some ⟨sf, rssi, s.netTime - age, s.now, false, false, 0, 0,
      0⟩)) ∧
  (∀ (s : State) (c sf age : Nat) (rssi : Int) (r : TxaRx),
      s.shaped →
      s.chHears c = true →
      7 ≤ sf ∧ sf ≤ 12 →
      bitOf (s.get Fld.TXA_CH_CFG_W0.SF_MASK [c]) (sf - 7) = true →
      (s.demod c).st = 2 →
      (s.demod c).rx = some r →
      r.rssi + s.get Fld.TXA_DET_CFG.RESTART_MARGIN ≤ rssi →
      Completes (.lrcPreambleDetect c sf age rssi) s (fun t => (t.demod c).st = 2 ∧ (t.demod c).rx = some ⟨sf, rssi, s.netTime - age, s.now, true, r.captured,
      0, 0, 0⟩)) ∧
  (∀ (s : State) (c sync len ctl crc : Nat) (r : TxaRx),
      s.shaped →
      (s.demod c).rx = some r →
      (s.demod c).st = 2 →
      s.chServed c = true →
      bitDiff (sync % 65536) (s.get Fld.TXA_SYNC.SYNC_WORD) ≤ s.get Fld.TXA_DET_CFG.SYNC_TOL →
      crc = crc8 [len % 256, ctl % 256] →
      ctl < 3 →
      Completes (.lrcHeader c sync len ctl crc) s (fun t => (t.demod c).st = (if s.get Fld.TXA_CFG.MAX_LEN < len % 256 then 4 else 3)
      ∧ (t.demod c).rx = some { r with len := len % 256, rate := ctl, ends := s.rxEnd c r (len % 256) ctl })) ∧
  (∀ (s : State) (c sync len ctl crc : Nat) (r : TxaRx),
      s.shaped →
      (s.demod c).rx = some r →
      (s.demod c).st = 2 →
      s.chServed c = true →
      s.get Fld.TXA_DET_CFG.SYNC_TOL < bitDiff (sync % 65536) (s.get Fld.TXA_SYNC.SYNC_WORD) →
      (s.demod c).others = [] →
      Completes (.lrcHeader c sync len ctl crc) s (fun t => (t.demod c).st = 1 ∧ (t.demod c).rx = none)) ∧
  (∀ (s : State) (c sf age : Nat) (rssi : Int) (r : TxaRx),
      s.shaped →
      s.chHears c = true →
      7 ≤ sf ∧ sf ≤ 12 →
      bitOf (s.get Fld.TXA_CH_CFG_W0.SF_MASK [c]) (sf - 7) = true →
      (s.demod c).st ≠ 2 →
      (s.demod c).rx = some r →
      s.flag Fld.TXA_CFG.CAPTURE_EN = true →
      r.rssi + s.get Fld.TXA_DET_CFG.CAPTURE_MARGIN ≤ rssi →
      Completes (.lrcCapture c sf age rssi) s (fun t => (t.demod c).st = 2 ∧ (t.demod c).rx = some ⟨sf, rssi, s.netTime - age, s.now, false, true, 0, 0, 0⟩)) ∧
  (∀ (s : State) (c age : Nat) (crc : Bool) (data : Bytes) (snr cfo : Int) (mram : Bool) (r : TxaRx),
      s.shaped →
      (s.demod c).rx = some r →
      r.ends ≤ s.netTime →
      (s.demod c).st = 3 ∨ (s.demod c).st = 4 →
      Completes (.lrcFrameEnd c age crc data snr cfo mram) s (fun t => (t.demod c).st = 1 ∧ (t.demod c).rx = none ∧
        (∀ root, (s.demod c).st = 3 ∧ s.txaRoot = (some root, s) ∧ crc = true ∧ 14 ≤ data.length ∧ data.length = r.len ∧ leAt data 0 1 % 4 < 2
      ∧ leAt data 0 1 < 16 ∧ leAt data 1 4 / 2 ^ 18 = s.get Fld.TXA_CFG.NETID ∧ s.txaRoom = true ∧
          frameMic (deviceKey root (leAt data 1 4)) (data.take 10) (frameText (deviceKey root (leAt data 1 4)) (data.take 10) (slice data 10 (data.length - 14)) (bitOf (leAt data 0 1) 2)) (bitOf (leAt data 0 1) 2) = slice data (data.length - 4) 4 ∧
          (sget (fun _ => (0 : Word)) s.txa.ctr (leAt data 1 4 % 2 ^ 18)).toNat < leAt data 5 4 ∧ mram = true →
            sget (fun _ => (0 : Word)) t.txa.ctr (leAt data 1 4 % 2 ^ 18) = w32 (leAt data 5 4)))) ∧
  (∀ (s : State) (rq : Req) (v : Word) (d : Bytes),
      Passes s rq .TXA_DL_PUSH [] true →
      s.txaFull = false →
      d = s.bytes (64 * v.toNat) 32 →
      s.rangeCode (.engine 4 6) (64 * v.toNat) 32 = 0 →
      leAt d 8 1 ≤ 241 →
      leAt d 8 1 + 14 ≤ s.get Fld.TXA_CFG.MAX_LEN →
      leAt d 0 4 / 2 ^ 18 = s.get Fld.TXA_CFG.NETID →
      bits (leAt d 10 1) 7 1 = 0 →
      leAt d 11 1 = 0 →
      allZero (d.drop 20) = true →
      (s.txa.pend.any (fun p => p.dev == leAt d 0 4 && !p.bound)) = false →
      Completes (.txaDlPush rq v) s (fun t => t.answered rq 0 ∧ t.txa.pend.length = s.txa.pend.length + 1 ∧ (t.txa.pend.getLast?.map (fun p => (p.dev, p.data,
      p.port, p.life, p.cookie, p.bound))) = some (leAt d 0 4, s.bytes (64 * leAt d 4 4) (leAt d 8 1), leAt d 9 1, leAt d 12 4, leAt d 16 4, false))) ∧
  (∀ (s : State) (rq : Req) (v : Word),
      Passes s rq .TXA_DL_PUSH [] true →
      s.txaFull = true →
      Completes (.txaDlPush rq v) s (fun t => t.held = s.held ++ [⟨rq, Reg.addr .TXA_DL_PUSH [], v, s.now⟩] ∧ t.resp = s.resp ∧ t.txa = s.txa)) ∧
  (∀ (s : State) (rq : Req) (e : TxaCpl) (rest : List TxaCpl),
      s.canonical = true →
      Passes s rq .TXA_DL_CPL_POP [] false →
      s.txa.cpl = e :: rest →
      Completes (.txaDlCplPop rq) s (fun t => t.answered rq (w32 (e.tag * 2 ^ 16 + e.win * 2 ^ 4 + e.status)) ∧ t.txa.cpl = rest
      ∧ t.reg .TXA_DL_CPL_INFO [] = w32 e.cookie)) ∧
  (∀ (s : State) (i : Nat) (p : TxaPend),
      s.txa.pend.find? (fun p => p.idx == i) = some p →
      s.txaOn = true →
      p.bound = false →
      p.life ≠ 0 →
      p.since + 1000000 * p.life ≤ s.now →
      s.held.any txaHeld = false →
      Completes (.txaDlExpired i) s (fun t => t.txa.pend = s.txa.pend.filter (fun e => e.idx != i) ∧ t.txa.cpl = s.txa.cpl ++ [⟨i, 0, 6, p.cookie⟩])) ∧
  (∀ (s : State) (rq : Req) (v : Word),
      swf (fun _ => (0 : Word)) s.txa.ctr = true →
      Passes s rq .TXA_CTR_DATA [] true →
      Completes (.txaCtrData rq v) s (fun t => t.answered rq 0 ∧ sget (fun _ => (0 : Word)) t.txa.ctr (s.get Fld.TXA_CTR_SEL.INDEX) = v)) ∧
  (∀ (s : State) (d : Int × Nat),
      s.canonical = true →
      s.txa.due = some d →
      s.txaOn = true →
      s.txaQuiet = true →
      Completes (.offsetFeedbackWrite) s (fun t => t.txa.due = none ∧ t.txa.cfos = [] ∧ t.get Fld.TXA_FB_STAT.VALID = 1
      ∧ t.get Fld.TXA_FB_STAT.OFFSET = unsigned 18 (clampI (-100000) 100000 d.1) ∧ ((d.1 < -100000 ∨ 100000 < d.1) → t.get Fld.TXA_FB_STAT.LIMIT = 1))) ∧
  (∀ (s : State) (d : Int × Nat) (q k : Nat),
      s.canonical = true →
      s.txa.due = some d →
      s.txaOn = true →
      s.txaQuiet = true →
      s.lrcLos.contains (q, k) = true →
      s.fineOk q k = true →
      Completes (.offsetFeedbackWrite) s (fun t => t.get Fld.SYN_FINE.OFFSET [q, k] = unsigned 18 (clampI (-100000) 100000 d.1))) ∧
  (∀ (s : State) (d : Int × Nat),
      s.canonical = true →
      s.txa.due = some d →
      s.txaOn = true →
      d.2 + 1000000000 * max 1 (s.get Fld.TXA_FB_CFG.FB_DEFER) ≤ s.now →
      Completes (.fbDefer) s (fun t => t.txa.due = none ∧ t.txa.cfos = [] ∧ t.get Fld.TXA_FB_STAT.VALID = 1
      ∧ t.get Fld.TXA_FB_STAT.OFFSET = unsigned 18 (clampI (-100000) 100000 d.1)))

/-- A frame enters its port's queue, a pause pauses, passes begin and end, bucket fetches let packets go on, software rings move. A good frame of a port
without MACsec, unless it is a MAC control frame where PAUSE_RX is set, enters the ingress queue while that has room; a frame with a bad FCS is
counted and goes no further; a PAUSE frame pauses its port where PAUSE_RX is set. A pass takes the packet that R291 names. At the end of a pass a
malformed packet whose action is drop leaves; a parse that crosses the window recirculates, up to the fourth pass; a frame to a layer-2 control
address leaves the pipeline. No packet waits for a bucket that has been fetched. A software descriptor moves HEAD and completes with its status; a
read pops the oldest completion; a write of FLW_SW_RX_FREE frees its buffer. -/
def Obligations.PacketCommandsComplete : Prop :=
  (∀ (s : State) (p age : Nat) (data : Bytes),
      p < 8 →
      s.active 5 = true →
      s.serving = true →
      s.portUp p = true →
      s.flag Fld.ETH_CFG.EN [p] = true →
      64 ≤ data.length + 4 →
      data.length + 4 ≤ s.get Fld.ETH_CFG.MAX_FRAME [p] →
      s.flag Fld.ETH_MSEC_CFG.EN [p] = false →
      (s.flag Fld.ETH_CFG.PAUSE_RX [p] = true → beAt data 12 2 ≠ 0x8808) →
      s.portEnabled p = true →
      s.flag Fld.PRS_PORT_CFG_W0.EN [p] = true →
      s.ingUse p + data.length ≤ s.ingMax →
      Completes (.ethFrameReceive p age true data) s (fun t => t.pk.pkts.length = s.pk.pkts.length + 1 ∧ (t.pk.pkts.getLast?.map (fun k => (k.num, k.port,
      k.data, k.st, k.rxLen))) = some (s.pk.next, p, data, 0, data.length + 4))) ∧
  (∀ (s : State) (p age : Nat) (data : Bytes),
      s.tm.pauseEnd.length = 8 →
      p < 8 →
      s.active 5 = true →
      s.serving = true →
      s.portUp p = true →
      s.flag Fld.ETH_CFG.EN [p] = true →
      64 ≤ data.length + 4 →
      data.length + 4 ≤ s.get Fld.ETH_CFG.MAX_FRAME [p] →
      s.flag Fld.ETH_MSEC_CFG.EN [p] = false →
      s.flag Fld.ETH_CFG.PAUSE_RX [p] = true →
      beAt data 0 6 = 0x0180C2000001 →
      beAt data 12 2 = 0x8808 →
      beAt data 14 2 = 1 →
      beAt data 16 2 ≠ 0 →
      Completes (.ethFrameReceive p age true data) s (fun t => t.tm.pauseEnd[p]? = some (some (s.now + beAt data 16 2 * 512 * 1000 / s.lineRate p)))) ∧
  (∀ (s : State) (p age : Nat) (data : Bytes),
      s.canonical = true →
      p < 8 →
      s.active 5 = true →
      s.serving = true →
      s.portUp p = true →
      s.flag Fld.ETH_CFG.EN [p] = true →
      Completes (.ethFrameReceive p age false data) s (fun t => t.pk = s.pk
      ∧ (t.reg .ETH_CNT_RX_FCS [p]).toNat = min (2 ^ 32 - 1) ((s.reg .ETH_CNT_RX_FCS [p]).toNat + 1))) ∧
  (∀ (s : State) (pipe : Nat) (k : Pkt),
      s.pk.slotAt.length = 2 →
      pipe < 2 →
      s.active 5 = true →
      s.serving = true →
      (s.pk.slotAt[pipe]?).getD 0 ≤ 3 * s.now →
      s.pkPick pipe = some k →
      Completes (.passStart pipe) s (fun t => t.pk.pkts = s.pk.pkts.map (fun y => if y.num == k.num then { k with st := 2, passes := k.passes + 1, tag := if k.st = 0 then s.actBank else k.tag } else y)
      ∧ t.pk.slotAt[pipe]? = some (3 * s.now + 10))) ∧
  (∀ (s : State) (n c : Nat) (k : Pkt),
      s.pk.pkts.find? (fun k => k.num == n && k.st == 2) = some k →
      s.active 5 = true →
      (parsePkt k.data k.l3 k.off).mal = some c →
      wbits (s.reg .PRS_MAL_ACT) (2 * c + 1) (2 * c) = 0 →
      Completes (.passEnd n) s (fun t => t.pk.pkts.any (fun y => y.num == n) = false)) ∧
  (∀ (s : State) (n o : Nat) (k : Pkt),
      s.pk.pkts.find? (fun k => k.num == n && k.st == 2) = some k →
      s.active 5 = true →
      (parsePkt k.data k.l3 k.off).mal = none →
      (parsePkt k.data k.l3 k.off).more = some o →
      k.passes < 4 →
      Completes (.passEnd n) s (fun t => t.pk.pkts = s.pk.pkts.map (fun y => if y.num == n then { (if k.passes = 1 then s.pkMeta k (parsePkt k.data k.l3 k.off) else k) with st := 1, off := o } else y))) ∧
  (∀ (s : State) (n : Nat) (k : Pkt),
      s.pk.pkts.find? (fun k => k.num == n && k.st == 2) = some k →
      s.active 5 = true →
      (parsePkt k.data k.l3 k.off).mal = none →
      (parsePkt k.data k.l3 k.off).more = none →
      (parsePkt k.data k.l3 k.off).eth = true →
      k.l3 = false →
      (parsePkt k.data k.l3 k.off).dst / 16 = 0x0180C200000 →
      Completes (.passEnd n) s (fun t => t.pk.pkts.any (fun y => y.num == n) = false)) ∧
  (∀ (s : State) (b : Nat),
      s.active 5 = true →
      (s.pkWaiting.filter (fun k => k.bucket == b)).isEmpty = false →
      Completes (.flowBucketFetch b) s (fun t => (t.pkWaiting.filter (fun k => k.bucket == b)) = [])) ∧
  (∀ (s : State) (r : Nat),
      s.canonical = true →
      s.pk.cpl.length = 9 →
      r < 9 →
      s.active 5 = true →
      s.serving = true →
      s.flag Fld.FLW_SW_TX_CFG.EN [r] = true →
      s.get Fld.FLW_SW_TX_CFG.SIZE_LOG2 [r] ≤ 12 →
      s.get Fld.FLW_SW_TX_HEAD.HEAD [r] % 2 ^ s.get Fld.FLW_SW_TX_CFG.SIZE_LOG2 [r] ≠ s.get Fld.FLW_SW_TX_TAIL.TAIL [r] % 2 ^ s.get Fld.FLW_SW_TX_CFG.SIZE_LOG2 [r] →
      (s.swCpl r).length < 256 →
      Completes (.swTxDescriptorFetch r) s (fun t => (let h := s.get Fld.FLW_SW_TX_HEAD.HEAD [r] % 2 ^ s.get Fld.FLW_SW_TX_CFG.SIZE_LOG2 [r]
        t.get Fld.FLW_SW_TX_HEAD.HEAD [r] = (h + 1) % 2 ^ s.get Fld.FLW_SW_TX_CFG.SIZE_LOG2 [r] ∧ t.swCpl r = s.swCpl r ++ [(h,
      if s.swBad r (s.bytes (64 * (s.reg .FLW_SW_TX_BASE [r]).toNat + 32 * h) 32) = true then 1 else 0)]))) ∧
  (∀ (s : State) (rq : Req) (r : Nat) (e : Nat × Nat) (rest : List (Nat × Nat)),
      r < 9 →
      Passes s rq .FLW_SW_TX_CPL_POP [r] false →
      s.swCpl r = e :: rest →
      Completes (.swTxCplPop rq r) s (fun t => t.answered rq (w32 (e.1 * 2 ^ 16 + e.2)) ∧ t.swCpl r = rest)) ∧
  (∀ (s : State) (rq : Req) (r : Nat) (v : Word),
      r < 9 →
      Passes s rq .FLW_SW_RX_FREE [r] true →
      Completes (.swRxFree rq r v) s (fun t => t.answered rq 0 ∧ t.mems.bufs = s.mems.bufs.filter (fun b => b.handle != v.toNat)))

/-- Versions are committed, copied and drained, table entries loaded, written, cleared, inserted and deleted, and entries age. With no drain in progress a
commit that passes its checks makes the staged bank active and drains the old one, and a failing one names the entry. COPY makes the versioned tables
of the staged bank equal to those of the active one. The drain ends when no packet carries the old tag. LOAD shows an entry in the window; WRITE
stores one that passes its checks and reports FIELD for one that does not; CLEAR zeroes it. INSERT places an L2 or flow entry that its table does not
hold in the first free way of its bucket; DELETE removes the entry found, or reports NOT_FOUND and changes no entry. The scan visits the next bucket
and, where flow tracking is off, removes an L2 entry older than L2_AGE_S. -/
def Obligations.FlowTableCommandsComplete : Prop :=
  (∀ (s : State) (rq : Req),
      s.canonical = true →
      Passes s rq .FLW_VER_CTL [] true →
      s.pk.draining = none →
      s.verFail = none →
      Completes (.flwVerCommit rq) s (fun t => t.answered rq 0 ∧ t.actBank = 1 - s.actBank ∧ t.pk.draining = some s.actBank
      ∧ t.reg .FLW_VER_GEN = s.reg .FLW_VER_GEN + 1 ∧ t.get Fld.FLW_VER_STAT.STATE = 1 ∧ t.get Fld.FLW_VER_STAT.VALID = 0)) ∧
  (∀ (s : State) (rq : Req) (f : Nat × Nat),
      s.canonical = true →
      Passes s rq .FLW_VER_CTL [] true →
      s.pk.draining = none →
      s.verFail = some f →
      Completes (.flwVerCommit rq) s (fun t => t.answered rq 0 ∧ t.actBank = s.actBank ∧ t.reg .FLW_VER_FAIL = w32 (f.1 * 2 ^ 28 + f.2)
      ∧ t.get Fld.FLW_VER_STAT.VALID = 1 ∧ t.get Fld.FLW_VER_STAT.RESULT = 1)) ∧
  (∀ (s : State) (rq : Req) (n i : Nat),
      swf flwZero s.pk.tbl = true →
      Passes s rq .FLW_VER_CTL [] true →
      s.pk.draining = none →
      n ≤ 6 →
      i < 1048576 →
      Completes (.flwCopy rq) s (fun t => t.answered rq 0 ∧ t.fent (1 - s.actBank) n i = s.fent s.actBank n i ∧ t.fent s.actBank n i = s.fent s.actBank n i)) ∧
  (∀ (s : State) (b : Nat),
      s.canonical = true →
      s.pk.draining = some b →
      s.pk.pkts.all (fun k => k.st == 0 || k.tag != b) = true →
      Completes (.drainEnd) s (fun t => t.pk.draining = none ∧ t.get Fld.FLW_VER_STAT.STATE = 0 ∧ t.get Fld.FLW_VER_STAT.RESULT = 0
      ∧ t.get Fld.FLW_VER_STAT.VALID = 1 ∧ t.actBank = s.actBank)) ∧
  (∀ (s : State) (rq : Req) (n : Nat),
      s.canonical = true →
      Passes s rq .FLW_TBL_CTL [] true →
      n < 16 →
      Completes (.flwLoad rq) s (fun t => t.answered rq 0
      ∧ t.reg .FLW_TBL_WIN [n] = w32 (leAt (s.flwShow (if s.flag Fld.FLW_TBL_SEL.VIEW = true then s.actBank else 1 - s.actBank) (s.get Fld.FLW_TBL_SEL.TABLE) (s.get Fld.FLW_TBL_SEL.INDEX)) (4 * n) 4)
      ∧ t.get Fld.FLW_TBL_STAT.VALID = 1 ∧ t.get Fld.FLW_TBL_STAT.RESULT = 0)) ∧
  (∀ (s : State) (rq : Req),
      s.canonical = true →
      swf flwZero s.pk.tbl = true →
      Passes s rq .FLW_TBL_CTL [] true →
      s.get Fld.FLW_TBL_SEL.TABLE ≠ 8 →
      (versioned (s.get Fld.FLW_TBL_SEL.TABLE) = true → s.pk.draining = none) →
      s.flwOk (1 - s.actBank) (s.get Fld.FLW_TBL_SEL.TABLE) (s.get Fld.FLW_TBL_SEL.INDEX) (s.flwWin (flwSize (s.get Fld.FLW_TBL_SEL.TABLE))) = true →
      Completes (.flwWrite rq) s (fun t => t.answered rq 0
      ∧ t.fent (1 - s.actBank) (s.get Fld.FLW_TBL_SEL.TABLE) (s.get Fld.FLW_TBL_SEL.INDEX) = s.flwKeep (1 - s.actBank) (s.get Fld.FLW_TBL_SEL.TABLE) (s.get Fld.FLW_TBL_SEL.INDEX) (s.flwWin (flwSize (s.get Fld.FLW_TBL_SEL.TABLE)))
      ∧ t.get Fld.FLW_TBL_STAT.VALID = 1 ∧ t.get Fld.FLW_TBL_STAT.RESULT = 0)) ∧
  (∀ (s : State) (rq : Req),
      s.canonical = true →
      Passes s rq .FLW_TBL_CTL [] true →
      s.get Fld.FLW_TBL_SEL.TABLE ≠ 8 →
      (versioned (s.get Fld.FLW_TBL_SEL.TABLE) = true → s.pk.draining = none) →
      s.flwOk (1 - s.actBank) (s.get Fld.FLW_TBL_SEL.TABLE) (s.get Fld.FLW_TBL_SEL.INDEX) (s.flwWin (flwSize (s.get Fld.FLW_TBL_SEL.TABLE))) = false →
      Completes (.flwWrite rq) s (fun t => t.answered rq 0 ∧ t.pk.tbl = s.pk.tbl ∧ t.get Fld.FLW_TBL_STAT.VALID = 1 ∧ t.get Fld.FLW_TBL_STAT.RESULT = 1)) ∧
  (∀ (s : State) (rq : Req),
      s.canonical = true →
      Passes s rq .FLW_TBL_CTL [] true →
      s.get Fld.FLW_TBL_SEL.TABLE = 8 →
      s.flwOk (1 - s.actBank) 8 (s.get Fld.FLW_TBL_SEL.INDEX) (s.flwWin 64) = true →
      Completes (.flwWrite rq) s (fun t => t.answered rq 0 ∧ t.flowGet (s.get Fld.FLW_TBL_SEL.INDEX) = s.flwWin 64 ∧ t.get Fld.FLW_TBL_STAT.VALID = 1
      ∧ t.get Fld.FLW_TBL_STAT.RESULT = 0)) ∧
  (∀ (s : State) (rq : Req),
      s.canonical = true →
      swf flwZero s.pk.tbl = true →
      Passes s rq .FLW_TBL_CTL [] true →
      s.get Fld.FLW_TBL_SEL.TABLE ≠ 8 →
      (versioned (s.get Fld.FLW_TBL_SEL.TABLE) = true → s.pk.draining = none) →
      Completes (.flwClear rq) s (fun t => t.answered rq 0
      ∧ t.fent (1 - s.actBank) (s.get Fld.FLW_TBL_SEL.TABLE) (s.get Fld.FLW_TBL_SEL.INDEX) = List.replicate (flwSize (s.get Fld.FLW_TBL_SEL.TABLE)) 0
      ∧ t.get Fld.FLW_TBL_STAT.VALID = 1 ∧ t.get Fld.FLW_TBL_STAT.RESULT = 0)) ∧
  (∀ (s : State) (rq : Req),
      s.canonical = true →
      Passes s rq .FLW_TBL_CTL [] true →
      s.get Fld.FLW_TBL_SEL.TABLE = 8 →
      Completes (.flwClear rq) s (fun t => t.answered rq 0 ∧ t.flowGet (s.get Fld.FLW_TBL_SEL.INDEX) = List.replicate 64 0 ∧ t.get Fld.FLW_TBL_STAT.VALID = 1
      ∧ t.get Fld.FLW_TBL_STAT.RESULT = 0)) ∧
  (∀ (s : State) (rq : Req) (i : Nat),
      s.canonical = true →
      swf flwZero s.pk.tbl = true →
      Passes s rq .FLW_TBL_CTL [] true →
      s.get Fld.FLW_TBL_SEL.TABLE = 7 →
      s.flwOk 0 7 0 (s.flwWin 16) = true →
      s.l2Find (slice (s.flwWin 16) 2 6) (leAt (s.flwWin 16) 8 2) = none →
      ((List.range 4).map (fun w => l2Base (slice (s.flwWin 16) 2 6) (leAt (s.flwWin 16) 8 2) + w)).find? (fun i => !fvalid (s.fent 0 7 i)) = some i →
      Completes (.flwInsert rq) s (fun t => t.answered rq 0
      ∧ t.fent 0 7 i = patch (patch (s.flwWin 16) 0 [b8 (setBits (setBits (leAt (s.flwWin 16) 0 1) 2 2 0) 0 0 1)]) 12 (leBytes 4 s.rawSec)
      ∧ t.get Fld.FLW_TBL_STAT.VALID = 1 ∧ t.get Fld.FLW_TBL_STAT.RESULT = 0 ∧ t.get Fld.FLW_TBL_STAT.INDEX = i)) ∧
  (∀ (s : State) (rq : Req) (i : Nat),
      s.canonical = true →
      Passes s rq .FLW_TBL_CTL [] true →
      s.get Fld.FLW_TBL_SEL.TABLE = 8 →
      s.flwOk 0 8 0 (s.flwWin 64) = true →
      s.flowFind (flowKey (s.flwWin 64)) = none →
      s.flowFree (flowKey (s.flwWin 64)) = some i →
      Completes (.flwInsert rq) s (fun t => t.answered rq 0
      ∧ t.flowGet i = patch (patch (s.flwWin 64) 0 (leBytes 2 (setBits (leAt (s.flwWin 64) 0 2) 0 0 1))) 52 (leBytes 4 s.rawSec ++ List.replicate 8 0)
      ∧ t.get Fld.FLW_TBL_STAT.VALID = 1 ∧ t.get Fld.FLW_TBL_STAT.RESULT = 0 ∧ t.get Fld.FLW_TBL_STAT.INDEX = i)) ∧
  (∀ (s : State) (rq : Req) (j : Nat),
      s.canonical = true →
      swf flwZero s.pk.tbl = true →
      Passes s rq .FLW_TBL_CTL [] true →
      s.get Fld.FLW_TBL_SEL.TABLE = 7 →
      s.l2Find (slice (s.flwWin 16) 2 6) (leAt (s.flwWin 16) 8 2) = some j →
      Completes (.flwDelete rq) s (fun t => t.answered rq 0 ∧ t.fent 0 7 j = List.replicate 16 0 ∧ t.get Fld.FLW_TBL_STAT.VALID = 1
      ∧ t.get Fld.FLW_TBL_STAT.RESULT = 0 ∧ t.get Fld.FLW_TBL_STAT.INDEX = j)) ∧
  (∀ (s : State) (rq : Req),
      s.canonical = true →
      Passes s rq .FLW_TBL_CTL [] true →
      s.get Fld.FLW_TBL_SEL.TABLE = 8 →
      s.flowFind (flowKey (s.flwWin 64)) = none →
      Completes (.flwDelete rq) s (fun t => t.answered rq 0 ∧ t.pk = s.pk ∧ t.mem = s.mem ∧ t.get Fld.FLW_TBL_STAT.VALID = 1
      ∧ t.get Fld.FLW_TBL_STAT.RESULT = 6)) ∧
  (∀ (s : State) (rq : Req),
      s.canonical = true →
      Passes s rq .FLW_TBL_CTL [] true →
      s.get Fld.FLW_TBL_SEL.TABLE = 7 →
      s.l2Find (slice (s.flwWin 16) 2 6) (leAt (s.flwWin 16) 8 2) = none →
      Completes (.flwDelete rq) s (fun t => t.answered rq 0 ∧ t.pk = s.pk ∧ t.mem = s.mem ∧ t.get Fld.FLW_TBL_STAT.VALID = 1
      ∧ t.get Fld.FLW_TBL_STAT.RESULT = 6)) ∧
  (∀ (s : State) (rq : Req) (j : Nat),
      s.canonical = true →
      Passes s rq .FLW_TBL_CTL [] true →
      s.get Fld.FLW_TBL_SEL.TABLE = 8 →
      s.flowFind (flowKey (s.flwWin 64)) = some j →
      Completes (.flwDelete rq) s (fun t => t.answered rq 0 ∧ t.flowGet j = List.replicate 64 0 ∧ t.get Fld.FLW_TBL_STAT.VALID = 1
      ∧ t.get Fld.FLW_TBL_STAT.RESULT = 0 ∧ t.get Fld.FLW_TBL_STAT.INDEX = j)) ∧
  (∀ (s : State),
      s.active 5 = true →
      s.pk.scanAt + max 1 (s.get Fld.FLW_AGE_CFG2.SCAN_S) * 1000000000 / 262144 ≤ s.now →
      Completes (.agingScan) s (fun t => t.pk.scanned = (s.pk.scanned + 1) % 262144 ∧ t.pk.scanAt = s.now)) ∧
  (∀ (s : State) (w : Nat),
      swf flwZero s.pk.tbl = true →
      s.active 5 = true →
      s.pk.scanAt + max 1 (s.get Fld.FLW_AGE_CFG2.SCAN_S) * 1000000000 / 262144 ≤ s.now →
      s.flag Fld.FLW_CFG.FT_EN = false →
      s.pk.scanned < 16384 →
      w < 4 →
      fvalid (s.fent 0 7 (4 * s.pk.scanned + w)) = true →
      bitOf (leAt (s.fent 0 7 (4 * s.pk.scanned + w)) 0 1) 2 = true →
      s.get Fld.FLW_AGE_CFG2.L2_AGE_S ≠ 0 →
      s.get Fld.FLW_AGE_CFG2.L2_AGE_S < (s.rawSec + 2 ^ 32 - leAt (s.fent 0 7 (4 * s.pk.scanned + w)) 12 4) % 2 ^ 32 →
      Completes (.agingScan) s (fun t => t.fent 0 7 (4 * s.pk.scanned + w) = List.replicate 16 0))

/-- A port that may start sends its packet, pauses end, gate lists are changed and cancelled, table entries loaded, written and cleared. A port that may
start, the WLAN port with MSDU_DELIVERY too, takes the one packet queued, and an Ethernet port without MACsec and PTP stamping sends its bytes. A
pause that has run out ends. CHANGE with none pending and a good list makes it pending; a bad length or interval reports 1 and a bad cycle 3. At T_sw
the pending list runs and its bank is shown; at the end of a gate entry the next is in force. CANCEL drops the pending list. LOAD shows an entry,
WRITE stores one that passes its checks but for its hardware-kept fields, a failing WRITE names its word. CLEAR zeroes an entry that is not referenced
or in force; of a queue it zeroes the drops and keeps the packets. -/
def Obligations.TrafficCommandsComplete : Prop :=
  (∀ (s : State) (p : Nat) (o : PktOut),
      s.tm.pkts = [o] →
      o.port = p →
      s.tmPortOk p = true →
      s.gated p = false →
      s.subState o.sub ≠ 2 →
      s.wac.paused.contains o.sub = false →
      s.svcOk (s.subSvc o.sub) = true →
      Completes (.packetStart p) s (fun t => t.tm.pkts = [])) ∧
  (∀ (s : State) (p : Nat) (o : PktOut),
      s.tm.pkts = [o] →
      o.port = p →
      s.tmPortOk p = true →
      s.gated p = false →
      s.subState o.sub ≠ 2 →
      s.wac.paused.contains o.sub = false →
      s.svcOk (s.subSvc o.sub) = true →
      p < 8 →
      s.flag Fld.NTU_PTP_CFG.TS_EN [p] = false →
      s.flag Fld.ETH_MSEC_CFG.EN [p] = false →
      Completes (.packetStart p) s (fun t => t.tm.pkts = [] ∧ t.outs.head? = some ⟨.packet, [p], o.data⟩)) ∧
  (∀ (s : State) (o : PktOut),
      s.tm.pkts = [o] →
      o.port = 10 →
      s.tmPortOk 10 = true →
      s.gated 10 = false →
      s.subState o.sub ≠ 2 →
      s.wac.paused.contains o.sub = false →
      s.svcOk (s.subSvc o.sub) = true →
      Completes (.msduDelivery) s (fun t => t.tm.pkts = [])) ∧
  (∀ (s : State) (p e : Nat),
      s.tm.pauseEnd[p]? = some (some e) →
      e ≤ s.now →
      Completes (.pauseEnd p) s (fun t => t.tm.pauseEnd[p]? = some none)) ∧
  (∀ (s : State) (p : Nat) (l : GateList) (sw : Int),
      s.canonical = true →
      s.tm.oper.length = 8 →
      p < 8 →
      s.gatePend p = some (l, sw) →
      s.active 5 = true →
      sw ≤ s.netTime →
      Completes (.gateChangeDue p) s (fun t => t.gateOper p = some l ∧ t.gatePend p = none ∧ t.get Fld.TMG_GATE_CTL.OPER_BANK [p] = l.bank % 2)) ∧
  (∀ (s : State) (p : Nat),
      s.tm.entry.length = 8 →
      p < 8 →
      s.active 5 = true →
      s.gated p = true →
      s.gateEntry p s.netTime ≠ (s.tm.entry[p]?).getD 0 →
      Completes (.gateEntryEnd p) s (fun t => t.tm.entry[p]? = some (s.gateEntry p s.netTime))) ∧
  (∀ (s : State) (rq : Req) (p : Nat) (en : Bool) (len : Nat),
      s.canonical = true →
      s.tm.pending.length = 8 →
      p < 8 →
      Passes s rq .TMG_GATE_CTL [p] true →
      1 ≤ len % 512 →
      len % 512 ≤ 256 →
      (List.range (len % 512)).any (fun i => decide (s.tmFld 6 (512 * p + 256 * (1 - s.get Fld.TMG_GATE_CTL.OPER_BANK [p]) + i) 0 4 % 2 ^ 24 < 10)) = false →
      1000 ≤ s.get Fld.TMG_GATE_CYCLE.CYCLE [p] →
      s.get Fld.TMG_GATE_CYCLE.CYCLE [p] ≤ 1000000000 →
      s.gatePend p = none →
      Completes (.gateChangeOp rq p en len) s (fun t => t.answered rq 0 ∧ (t.gatePend p).map (fun x => x.1) = some ⟨(1 - s.get Fld.TMG_GATE_CTL.OPER_BANK [p]),
      len % 512, s.get Fld.TMG_GATE_CYCLE.CYCLE [p], s.gateBase p⟩ ∧ t.get Fld.TMG_GATE_STAT.RESULT [p] = 0 ∧ t.get Fld.TMG_GATE_STAT.VALID [p] = 1
      ∧ t.get Fld.TMG_GATE_CTL.GATE_EN [p] = b2n en)) ∧
  (∀ (s : State) (rq : Req) (p : Nat) (en : Bool) (len : Nat),
      s.canonical = true →
      p < 8 →
      Passes s rq .TMG_GATE_CTL [p] true →
      s.gatePend p = none →
      len % 512 = 0 ∨ 256 < len % 512 →
      Completes (.gateChangeOp rq p en len) s (fun t => t.answered rq 0 ∧ t.gatePend p = none ∧ t.get Fld.TMG_GATE_STAT.RESULT [p] = 1
      ∧ t.get Fld.TMG_GATE_STAT.VALID [p] = 1)) ∧
  (∀ (s : State) (rq : Req) (p : Nat) (en : Bool) (len : Nat),
      s.canonical = true →
      p < 8 →
      Passes s rq .TMG_GATE_CTL [p] true →
      s.gatePend p = none →
      1 ≤ len % 512 →
      len % 512 ≤ 256 →
      (List.range (len % 512)).any (fun i => decide (s.tmFld 6 (512 * p + 256 * (1 - s.get Fld.TMG_GATE_CTL.OPER_BANK [p]) + i) 0 4 % 2 ^ 24 < 10)) = false →
      s.get Fld.TMG_GATE_CYCLE.CYCLE [p] < 1000 ∨ 1000000000 < s.get Fld.TMG_GATE_CYCLE.CYCLE [p] →
      Completes (.gateChangeOp rq p en len) s (fun t => t.answered rq 0 ∧ t.gatePend p = none ∧ t.get Fld.TMG_GATE_STAT.RESULT [p] = 3
      ∧ t.get Fld.TMG_GATE_STAT.VALID [p] = 1)) ∧
  (∀ (s : State) (rq : Req) (p : Nat) (en : Bool) (len : Nat),
      s.canonical = true →
      p < 8 →
      Passes s rq .TMG_GATE_CTL [p] true →
      s.gatePend p = none →
      1 ≤ len % 512 →
      len % 512 ≤ 256 →
      (List.range (len % 512)).any (fun i => decide (s.tmFld 6 (512 * p + 256 * (1 - s.get Fld.TMG_GATE_CTL.OPER_BANK [p]) + i) 0 4 % 2 ^ 24 < 10)) = true →
      Completes (.gateChangeOp rq p en len) s (fun t => t.answered rq 0 ∧ t.gatePend p = none ∧ t.get Fld.TMG_GATE_STAT.RESULT [p] = 1
      ∧ t.get Fld.TMG_GATE_STAT.VALID [p] = 1)) ∧
  (∀ (s : State) (rq : Req) (p : Nat) (en : Bool) (len : Nat),
      s.canonical = true →
      p < 8 →
      Passes s rq .TMG_GATE_CTL [p] true →
      (s.gateState p = 2 → len % 512 = s.get Fld.TMG_GATE_CTL.ADMIN_LEN [p]) →
      Completes (.gateCancelOp rq p en len) s (fun t => t.answered rq 0 ∧ t.gatePend p = none ∧ t.get Fld.TMG_GATE_CTL.GATE_EN [p] = b2n en)) ∧
  (∀ (s : State) (rq : Req) (n : Nat),
      s.canonical = true →
      Passes s rq .TMG_TBL_CTL [] true →
      n < 8 →
      Completes (.tmgTableLoad rq) s (fun t => t.answered rq 0
      ∧ t.reg .TMG_TBL_WIN [n] = w32 (leAt (s.tmShow (s.get Fld.TMG_TBL_SEL.TABLE) (s.get Fld.TMG_TBL_SEL.INDEX)) (4 * n) 4) ∧ t.get Fld.TMG_TBL_STAT.VALID = 1
      ∧ t.get Fld.TMG_TBL_STAT.RESULT = 0)) ∧
  (∀ (s : State) (rq : Req),
      s.canonical = true →
      swf tmZero s.tm.tbl = true →
      Passes s rq .TMG_TBL_CTL [] true →
      3 ≤ s.get Fld.TMG_TBL_SEL.TABLE →
      s.get Fld.TMG_TBL_SEL.TABLE ≤ 6 →
      firstBad (s.tmChecks (s.get Fld.TMG_TBL_SEL.TABLE) (s.get Fld.TMG_TBL_SEL.INDEX) (s.tmWin (tmSize (s.get Fld.TMG_TBL_SEL.TABLE)))) = none →
      s.tmBusy (s.get Fld.TMG_TBL_SEL.TABLE) (s.get Fld.TMG_TBL_SEL.INDEX) (s.tmWin (tmSize (s.get Fld.TMG_TBL_SEL.TABLE))) false = false →
      Completes (.tmgTableWrite rq) s (fun t => t.answered rq 0
      ∧ (t.tmTbl (s.get Fld.TMG_TBL_SEL.TABLE) (s.get Fld.TMG_TBL_SEL.INDEX)).take (tmSize (s.get Fld.TMG_TBL_SEL.TABLE)) = s.tmWin (tmSize (s.get Fld.TMG_TBL_SEL.TABLE))
      ∧ t.get Fld.TMG_TBL_STAT.VALID = 1 ∧ t.get Fld.TMG_TBL_STAT.RESULT = 0)) ∧
  (∀ (s : State) (rq : Req),
      s.canonical = true →
      swf tmZero s.tm.tbl = true →
      Passes s rq .TMG_TBL_CTL [] true →
      s.get Fld.TMG_TBL_SEL.TABLE = 0 →
      firstBad (s.tmChecks (s.get Fld.TMG_TBL_SEL.TABLE) (s.get Fld.TMG_TBL_SEL.INDEX) (s.tmWin (tmSize (s.get Fld.TMG_TBL_SEL.TABLE)))) = none →
      s.tmBusy (s.get Fld.TMG_TBL_SEL.TABLE) (s.get Fld.TMG_TBL_SEL.INDEX) (s.tmWin (tmSize (s.get Fld.TMG_TBL_SEL.TABLE))) false = false →
      Completes (.tmgTableWrite rq) s (fun t => t.answered rq 0 ∧ (t.tmTbl 0 (s.get Fld.TMG_TBL_SEL.INDEX)).take 20 = (s.tmWin 32).take 20
      ∧ t.get Fld.TMG_TBL_STAT.VALID = 1 ∧ t.get Fld.TMG_TBL_STAT.RESULT = 0)) ∧
  (∀ (s : State) (rq : Req),
      s.canonical = true →
      swf tmZero s.tm.tbl = true →
      Passes s rq .TMG_TBL_CTL [] true →
      s.get Fld.TMG_TBL_SEL.TABLE = 1 →
      firstBad (s.tmChecks (s.get Fld.TMG_TBL_SEL.TABLE) (s.get Fld.TMG_TBL_SEL.INDEX) (s.tmWin (tmSize (s.get Fld.TMG_TBL_SEL.TABLE)))) = none →
      s.tmBusy (s.get Fld.TMG_TBL_SEL.TABLE) (s.get Fld.TMG_TBL_SEL.INDEX) (s.tmWin (tmSize (s.get Fld.TMG_TBL_SEL.TABLE))) false = false →
      Completes (.tmgTableWrite rq) s (fun t => t.answered rq 0 ∧ (t.tmTbl 1 (s.get Fld.TMG_TBL_SEL.INDEX)).take 1 = (s.tmWin 32).take 1
      ∧ slice (t.tmTbl 1 (s.get Fld.TMG_TBL_SEL.INDEX)) 2 26 = slice (s.tmWin 32) 2 26 ∧ t.get Fld.TMG_TBL_STAT.VALID = 1
      ∧ t.get Fld.TMG_TBL_STAT.RESULT = 0)) ∧
  (∀ (s : State) (rq : Req) (w : Nat),
      s.canonical = true →
      Passes s rq .TMG_TBL_CTL [] true →
      s.get Fld.TMG_TBL_SEL.TABLE ≤ 6 →
      firstBad (s.tmChecks (s.get Fld.TMG_TBL_SEL.TABLE) (s.get Fld.TMG_TBL_SEL.INDEX) (s.tmWin (tmSize (s.get Fld.TMG_TBL_SEL.TABLE)))) = some w →
      w < 256 →
      Completes (.tmgTableWrite rq) s (fun t => t.answered rq 0 ∧ t.tm = s.tm ∧ t.get Fld.TMG_TBL_STAT.VALID = 1 ∧ t.get Fld.TMG_TBL_STAT.RESULT = 1
      ∧ t.get Fld.TMG_TBL_STAT.WORD = w)) ∧
  (∀ (s : State) (rq : Req),
      s.canonical = true →
      swf tmZero s.tm.tbl = true →
      Passes s rq .TMG_TBL_CTL [] true →
      s.get Fld.TMG_TBL_SEL.TABLE ≤ 6 →
      s.get Fld.TMG_TBL_SEL.TABLE ≠ 2 →
      (s.get Fld.TMG_TBL_SEL.TABLE = 6 → gclBank (s.get Fld.TMG_TBL_SEL.INDEX) ≠ s.get Fld.TMG_GATE_CTL.OPER_BANK [gclPort (s.get Fld.TMG_TBL_SEL.INDEX)]) →
      s.tmBusy (s.get Fld.TMG_TBL_SEL.TABLE) (s.get Fld.TMG_TBL_SEL.INDEX) [] true = false →
      Completes (.tmgTableClear rq) s (fun t => t.answered rq 0
      ∧ t.tmTbl (s.get Fld.TMG_TBL_SEL.TABLE) (s.get Fld.TMG_TBL_SEL.INDEX) = tmZero (2 ^ 20 * (s.get Fld.TMG_TBL_SEL.TABLE))
      ∧ t.get Fld.TMG_TBL_STAT.VALID = 1 ∧ t.get Fld.TMG_TBL_STAT.RESULT = 0)) ∧
  (∀ (s : State) (rq : Req),
      s.canonical = true →
      Passes s rq .TMG_TBL_CTL [] true →
      s.get Fld.TMG_TBL_SEL.TABLE = 2 →
      swf (fun _ => 0) s.tm.drops = true →
      Completes (.tmgTableClear rq) s (fun t => t.answered rq 0 ∧ sget (fun _ => 0) t.tm.drops (s.get Fld.TMG_TBL_SEL.INDEX) = 0 ∧ t.tm.pkts = s.tm.pkts
      ∧ t.get Fld.TMG_TBL_STAT.VALID = 1 ∧ t.get Fld.TMG_TBL_STAT.RESULT = 0))

/-- ADJ and SET step or slew or are refused, forced steps need arming, HOLDOVER and UNLOCK change the state, and a read latches the time. ADJ and SET
judge an offset: NTU_STEP_NS with what a slew still has to absorb, or the target less network time. In OP-8 mode, in UNLOCKED, and in HOLDOVER with
RELOCK and within the uncertainty or the threshold network time steps by it and locks; elsewhere one within the threshold slews from the time as it
stands, with REFCLK present, and one past it is refused. A forced step lands when ARMED, else reports 3. HOLDOVER moves LOCKED to HOLDOVER, as
SERVO_TO without servo activity does; UNLOCK goes to UNLOCKED. ARM arms and expires after 1 ms; a slew that has absorbed its offset ends without a
jump. A TIME_RATE write in native mode keeps the time and sets the rate. NTU_TIME_NS answers the time with the seconds and the raw counter latched. -/
def Obligations.TimeControlCommandsComplete : Prop :=
  (∀ (s : State) (rq : Req) (off : Int),
      s.canonical = true →
      Passes s rq .NTU_TIME_CTL [] true →
      off = s.stepNs + (if s.flag Fld.NTU_STATUS.SLEWING = true then s.slewLeft else 0) →
      (s.flag Fld.NTU_CFG.OP8 = true ∨ s.timeState = 0 ∨ (s.timeState = 2 ∧ s.flag Fld.NTU_STATUS.RELOCK = true ∧ off.natAbs ≤ max s.stepThresh s.unc)) →
      Completes (.ntuAdj rq) s (fun t => t.answered rq 0 ∧ t.netTime = s.netTime + off ∧ t.timeState = 1 ∧ t.ntu.slew = none
      ∧ t.get Fld.NTU_TIME_STAT.VALID = 1 ∧ t.get Fld.NTU_TIME_STAT.RESULT = 0)) ∧
  (∀ (s : State) (rq : Req) (off : Int),
      s.canonical = true →
      Passes s rq .NTU_TIME_CTL [] true →
      off = s.stepNs + (if s.flag Fld.NTU_STATUS.SLEWING = true then s.slewLeft else 0) →
      ¬ (s.flag Fld.NTU_CFG.OP8 = true ∨ s.timeState = 0 ∨ (s.timeState = 2 ∧ s.flag Fld.NTU_STATUS.RELOCK = true ∧ off.natAbs ≤ max s.stepThresh s.unc))
      ∧ off.natAbs ≤ s.stepThresh ∧ s.pwr.refclk = true →
      Completes (.ntuAdj rq) s (fun t => t.answered rq 0 ∧ t.netTime = s.netTime ∧ t.ntu.slew = some (off, s.ntu.raw) ∧ t.get Fld.NTU_STATUS.SLEWING = 1
      ∧ t.timeState = 1 ∧ t.get Fld.NTU_TIME_STAT.VALID = 1 ∧ t.get Fld.NTU_TIME_STAT.RESULT = 1)) ∧
  (∀ (s : State) (rq : Req) (off : Int),
      s.canonical = true →
      Passes s rq .NTU_TIME_CTL [] true →
      off = s.stepNs + (if s.flag Fld.NTU_STATUS.SLEWING = true then s.slewLeft else 0) →
      ¬ (s.flag Fld.NTU_CFG.OP8 = true ∨ s.timeState = 0 ∨ (s.timeState = 2 ∧ s.flag Fld.NTU_STATUS.RELOCK = true ∧ off.natAbs ≤ max s.stepThresh s.unc))
      ∧ s.stepThresh < off.natAbs →
      Completes (.ntuAdj rq) s (fun t => t.answered rq 0 ∧ t.netTime = s.netTime ∧ t.get Fld.NTU_STATUS.STEP_REFUSED = 1 ∧ t.timeState = s.timeState
      ∧ t.get Fld.NTU_TIME_STAT.VALID = 1 ∧ t.get Fld.NTU_TIME_STAT.RESULT = 2)) ∧
  (∀ (s : State) (rq : Req),
      s.canonical = true →
      Passes s rq .NTU_TIME_CTL [] true →
      (s.flag Fld.NTU_CFG.OP8 = true ∨ s.timeState = 0 ∨ (s.timeState = 2 ∧ s.flag Fld.NTU_STATUS.RELOCK = true
      ∧ (s.setTarget - s.netTime).natAbs ≤ max s.stepThresh s.unc)) →
      Completes (.ntuSet rq) s (fun t => t.answered rq 0 ∧ t.netTime = s.setTarget ∧ t.timeState = 1 ∧ t.ntu.slew = none ∧ t.get Fld.NTU_TIME_STAT.VALID = 1
      ∧ t.get Fld.NTU_TIME_STAT.RESULT = 0)) ∧
  (∀ (s : State) (rq : Req),
      s.canonical = true →
      Passes s rq .NTU_TIME_CTL [] true →
      ¬ (s.flag Fld.NTU_CFG.OP8 = true ∨ s.timeState = 0 ∨ (s.timeState = 2 ∧ s.flag Fld.NTU_STATUS.RELOCK = true
      ∧ (s.setTarget - s.netTime).natAbs ≤ max s.stepThresh s.unc)) ∧ (s.setTarget - s.netTime).natAbs ≤ s.stepThresh ∧ s.pwr.refclk = true →
      Completes (.ntuSet rq) s (fun t => t.answered rq 0 ∧ t.netTime = s.netTime ∧ t.ntu.slew = some (s.setTarget - s.netTime, s.ntu.raw)
      ∧ t.get Fld.NTU_STATUS.SLEWING = 1 ∧ t.timeState = 1 ∧ t.get Fld.NTU_TIME_STAT.VALID = 1 ∧ t.get Fld.NTU_TIME_STAT.RESULT = 1)) ∧
  (∀ (s : State) (rq : Req),
      s.canonical = true →
      Passes s rq .NTU_TIME_CTL [] true →
      ¬ (s.flag Fld.NTU_CFG.OP8 = true ∨ s.timeState = 0 ∨ (s.timeState = 2 ∧ s.flag Fld.NTU_STATUS.RELOCK = true
      ∧ (s.setTarget - s.netTime).natAbs ≤ max s.stepThresh s.unc)) ∧ s.stepThresh < (s.setTarget - s.netTime).natAbs →
      Completes (.ntuSet rq) s (fun t => t.answered rq 0 ∧ t.netTime = s.netTime ∧ t.get Fld.NTU_STATUS.STEP_REFUSED = 1 ∧ t.timeState = s.timeState
      ∧ t.get Fld.NTU_TIME_STAT.VALID = 1 ∧ t.get Fld.NTU_TIME_STAT.RESULT = 2)) ∧
  (∀ (s : State) (rq : Req),
      s.canonical = true →
      Passes s rq .NTU_TIME_CTL [] true →
      s.armed = true →
      Completes (.ntuForceAdj rq) s (fun t => t.answered rq 0 ∧ t.netTime = s.netTime + s.stepNs ∧ t.timeState = 1 ∧ t.ntu.armedAt = none
      ∧ t.get Fld.NTU_STATUS.ARMED = 0 ∧ t.get Fld.NTU_TIME_STAT.VALID = 1 ∧ t.get Fld.NTU_TIME_STAT.RESULT = 0)) ∧
  (∀ (s : State) (rq : Req),
      s.canonical = true →
      Passes s rq .NTU_TIME_CTL [] true →
      s.armed = false →
      Completes (.ntuForceAdj rq) s (fun t => t.answered rq 0 ∧ t.netTime = s.netTime ∧ t.timeState = s.timeState ∧ t.get Fld.NTU_TIME_STAT.VALID = 1
      ∧ t.get Fld.NTU_TIME_STAT.RESULT = 3)) ∧
  (∀ (s : State) (rq : Req),
      s.canonical = true →
      Passes s rq .NTU_TIME_CTL [] true →
      s.armed = true →
      Completes (.ntuForceSet rq) s (fun t => t.answered rq 0 ∧ t.netTime = s.setTarget ∧ t.timeState = 1 ∧ t.ntu.armedAt = none
      ∧ t.get Fld.NTU_TIME_STAT.VALID = 1 ∧ t.get Fld.NTU_TIME_STAT.RESULT = 0)) ∧
  (∀ (s : State) (rq : Req),
      s.canonical = true →
      Passes s rq .NTU_TIME_CTL [] true →
      s.armed = false →
      Completes (.ntuForceSet rq) s (fun t => t.answered rq 0 ∧ t.netTime = s.netTime ∧ t.timeState = s.timeState ∧ t.get Fld.NTU_TIME_STAT.VALID = 1
      ∧ t.get Fld.NTU_TIME_STAT.RESULT = 3)) ∧
  (∀ (s : State) (rq : Req),
      s.canonical = true →
      Passes s rq .NTU_TIME_CTL [] true →
      s.timeState = 1 →
      Completes (.ntuHoldover rq) s (fun t => t.answered rq 0 ∧ t.timeState = 2 ∧ t.netTime = s.netTime)) ∧
  (∀ (s : State) (rq : Req),
      s.canonical = true →
      Passes s rq .NTU_TIME_CTL [] true →
      Completes (.ntuUnlock rq) s (fun t => t.answered rq 0 ∧ t.timeState = 0 ∧ t.get Fld.NTU_STATUS.RELOCK = 0 ∧ t.netTime = s.netTime)) ∧
  (∀ (s : State) (rq : Req),
      s.canonical = true →
      Passes s rq .NTU_TIME_CTL [] true →
      Completes (.ntuArm rq) s (fun t => t.answered rq 0 ∧ t.armed = true ∧ t.get Fld.NTU_STATUS.ARMED = 1)) ∧
  (∀ (s : State) (n : Nat),
      s.canonical = true →
      s.ntu.armedAt = some n →
      1000000 ≤ s.ntu.raw - n →
      Completes (.ntuArmExpiry) s (fun t => t.ntu.armedAt = none ∧ t.get Fld.NTU_STATUS.ARMED = 0)) ∧
  (∀ (s : State) (off : Int) (n : Nat),
      s.canonical = true →
      s.ntu.slew = some (off, n) →
      s.slewDone = off →
      Completes (.slewEnd) s (fun t => t.ntu.slew = none ∧ t.get Fld.NTU_STATUS.SLEWING = 0 ∧ t.netTime = s.netTime)) ∧
  (∀ (s : State),
      s.canonical = true →
      s.ntu.running = true →
      s.timeState = 1 →
      s.flag Fld.NTU_CFG.OP8 = false →
      s.get Fld.NTU_CFG.SERVO_TO ≠ 0 →
      s.get Fld.NTU_CFG.SERVO_TO * 100000000 ≤ s.ntu.raw - s.ntu.wdFrom →
      Completes (.servoWatchdog) s (fun t => t.timeState = 2)) ∧
  (∀ (s : State) (rq : Req) (v : Word),
      s.canonical = true →
      Passes s rq .NTU_TIME_RATE_HI [] true →
      s.flag Fld.NTU_CFG.OP8 = false →
      (rateOf (wbits v 7 0) (s.reg .NTU_TIME_RATE_LO).toNat).natAbs ≤ 140737488355 →
      Completes (.timeRateWrite rq v) s (fun t => t.answered rq 0 ∧ t.netTime = s.netTime
      ∧ t.ntu.rate = rateOf (wbits v 7 0) (s.reg .NTU_TIME_RATE_LO).toNat)) ∧
  (∀ (s : State) (rq : Req),
      s.canonical = true →
      Passes s rq .NTU_TIME_NS [] false →
      Completes (.ntuTimeNs rq) s (fun t => t.answered rq (w32 (s.netTime % 1000000000).toNat)
      ∧ t.reg .NTU_TIME_S_LO = w32 (s.netTime / 1000000000 % 2 ^ 48).toNat ∧ t.reg .NTU_RAW_LO = w32 s.ntu.raw ∧ t.reg .NTU_RAW_HI = w32 (s.ntu.raw / 2 ^ 32)))

/-- Pulses leave and are captured at their instants, PTM exchanges complete or time out, SyncE follows its source, the sleep ratio and record are kept.
PPS_OUT and armed TSYNC_IO pulses leave and the next is armed; edges at PPS_IN and TSYNC_IO are stamped and counted, and a read of NTU_CAP_STAT
latches both stamps; a start write arms the pulse of its launch time; transmit stamps pop in order. A PTM request leaves, or reports 1 without PTM;
its response within 1 ms latches the four times, and after 1 ms it reports 2. SyncE leaves LOCKED when the source is lost and returns 10 s after it
recovered. A ratio measurement begins where none runs, and over at least 32,768 ticks sets NTU_SLP_RATIO; a new second of the sleep counter writes the
time record. -/
def Obligations.PulseAndExchangeCommandsComplete : Prop :=
  (∀ (s : State),
      s.pulsesOn = true →
      s.flag Fld.NTU_PPS_CFG.OUT_EN = true →
      s.ntu.ppsNext ≤ s.ppsIndex →
      s.ntu.ppsHighUntil ≤ s.ntu.raw →
      (s.flag Fld.NTU_PPS_CFG.QUAL = true → s.timeState ≠ 0) →
      Completes (.ppsOutPulse) s (fun t => t.outs = ⟨.ppsOut, [s.ntu.raw, max 1 (s.get Fld.NTU_PPS_CFG.WIDTH) * 1000000], []⟩ :: s.outs
      ∧ t.ntu.ppsNext = s.ppsIndex + 1)) ∧
  (∀ (s : State),
      s.canonical = true →
      s.pulsesOn = true →
      Completes (.ppsIn) s (fun t => t.ntu.ppsStamp = s.stamp ∧ t.get Fld.NTU_CAP_STAT.PPS_VALID = 1
      ∧ t.get Fld.NTU_CAP_STAT.PPS_EDGES = (s.get Fld.NTU_CAP_STAT.PPS_EDGES + 1) % 256)) ∧
  (∀ (s : State) (rising : Bool),
      s.canonical = true →
      s.pulsesOn = true →
      s.flag Fld.NTU_TSYNC_CFG.EN = true →
      s.get Fld.NTU_TSYNC_CFG.DIR = 0 →
      2 ≤ s.get Fld.NTU_TSYNC_CFG.EDGE ∨ s.get Fld.NTU_TSYNC_CFG.EDGE = (if rising = true then 0 else 1) →
      Completes (.tsyncInEdge rising) s (fun t => t.ntu.tsyncStamp = s.stamp ∧ t.get Fld.NTU_CAP_STAT.TSYNC_VALID = 1
      ∧ t.get Fld.NTU_CAP_STAT.TSYNC_EDGES = (s.get Fld.NTU_CAP_STAT.TSYNC_EDGES + 1) % 256)) ∧
  (∀ (s : State) (rq : Req) (v : Word) (n : Int),
      s.canonical = true →
      Passes s rq .NTU_TSYNC_START [] true →
      s.get Fld.NTU_TSYNC_CFG.EN = 1 →
      s.get Fld.NTU_TSYNC_CFG.DIR = 1 →
      s.launch v.toNat = some n →
      Completes (.ntuTsyncStart rq v) s (fun t => t.answered rq 0 ∧ t.ntu.tsyncNext = some n)) ∧
  (∀ (s : State) (n : Int),
      s.ntu.tsyncNext = some n →
      s.pulsesOn = true →
      n ≤ s.netTime →
      Completes (.tsyncOutPulse) s (fun t => t.outs = ⟨.tsyncOut, [s.ntu.raw, max 1 (s.get Fld.NTU_TSYNC_CFG.WIDTH) * 10], []⟩ :: s.outs
      ∧ t.ntu.tsyncNext = (if s.reg .NTU_TSYNC_PERIOD = 0 then none else some (n + (s.reg .NTU_TSYNC_PERIOD).toNat)))) ∧
  (∀ (s : State) (rq : Req),
      s.canonical = true →
      Passes s rq .NTU_CAP_STAT [] false →
      Completes (.ntuCapStat rq) s (fun t => t.answered rq (s.reg .NTU_CAP_STAT) ∧ t.reg .NTU_PPS_IN_TS = w32 s.ntu.ppsStamp
      ∧ t.reg .NTU_TSYNC_TS = w32 s.ntu.tsyncStamp)) ∧
  (∀ (s : State) (rq : Req) (e : TxStamp) (rest : List TxStamp),
      s.canonical = true →
      Passes s rq .NTU_TXTS_POP [] false →
      s.ntu.txts = e :: rest →
      Completes (.ntuTxtsPop rq) s (fun t => t.answered rq (w32 (e.port % 32 * 2 ^ 26 + e.msg % 16 * 2 ^ 16 + e.seqId % 65536)) ∧ t.ntu.txts = rest
      ∧ t.reg .NTU_TXTS_VAL = w32 e.stamp)) ∧
  (∀ (s : State) (rq : Req),
      s.canonical = true →
      Passes s rq .NTU_PTM_CTL [] true →
      s.ntu.ptmEnabled = true →
      Completes (.ptmRequest rq) s (fun t => t.answered rq 0 ∧ t.ntu.ptmSent = some (s.ntu.raw, s.stamp) ∧ t.outs = ⟨.ptm, [0], []⟩ :: s.outs
      ∧ t.get Fld.NTU_PTM_STAT.VALID = 0)) ∧
  (∀ (s : State) (rq : Req),
      s.canonical = true →
      Passes s rq .NTU_PTM_CTL [] true →
      s.ntu.ptmEnabled = false →
      Completes (.ptmRequest rq) s (fun t => t.answered rq 0 ∧ t.ntu = s.ntu ∧ t.get Fld.NTU_PTM_STAT.VALID = 1 ∧ t.get Fld.NTU_PTM_STAT.RESULT = 1)) ∧
  (∀ (s : State) (master delay a b : Nat),
      s.canonical = true →
      s.ntu.ptmSent = some (a, b) →
      s.ntu.raw - a < 1000000 →
      Completes (.ptmResponse master delay) s (fun t => t.ntu.ptmSent = none ∧ t.reg .NTU_PTM_T1 = w32 b ∧ t.reg .NTU_PTM_T4 = w32 s.stamp
      ∧ t.reg .NTU_PTM_MT_LO = w32 master ∧ t.reg .NTU_PTM_MT_HI = w32 (master / 2 ^ 32) ∧ t.reg .NTU_PTM_DELAY = w32 delay ∧ t.get Fld.NTU_PTM_STAT.VALID = 1
      ∧ t.get Fld.NTU_PTM_STAT.RESULT = 0)) ∧
  (∀ (s : State) (a b : Nat),
      s.canonical = true →
      s.ntu.ptmSent = some (a, b) →
      1000000 ≤ s.ntu.raw - a →
      Completes (.ptmTimeout) s (fun t => t.ntu.ptmSent = none ∧ t.get Fld.NTU_PTM_STAT.VALID = 1 ∧ t.get Fld.NTU_PTM_STAT.RESULT = 2)) ∧
  (∀ (s : State),
      s.canonical = true →
      s.ntu.running = true →
      s.flag Fld.NTU_SYNCE_CFG.EN = true →
      s.get Fld.NTU_SYNCE_STAT.STATE = 1 →
      Completes (.synceSourceLoss) s (fun t => t.get Fld.NTU_SYNCE_STAT.STATE = 2)) ∧
  (∀ (s : State) (back : Nat),
      s.canonical = true →
      s.ntu.running = true →
      s.flag Fld.NTU_SYNCE_CFG.EN = true →
      s.get Fld.NTU_SYNCE_STAT.STATE = 2 →
      back + 10000000000 ≤ s.now →
      Completes (.synceRelock back) s (fun t => t.get Fld.NTU_SYNCE_STAT.STATE = 1)) ∧
  (∀ (s : State) (a b : Nat),
      s.canonical = true →
      s.ntu.running = true →
      s.pwr.refclk = true →
      s.pwr.slpOn = true →
      s.ntu.slpMark = some (a, b) →
      a + 32768 ≤ s.slpTicks →
      Completes (.slpRatioMeasure) s (fun t => t.reg .NTU_SLP_RATIO = w32 (2 * ((s.ntu.raw - b) * 32768 / (s.slpTicks - a))) ∧ t.get Fld.NTU_STATUS.SLP_CAL = 1
      ∧ t.ntu.slpMark = some (s.slpTicks, s.ntu.raw))) ∧
  (∀ (s : State),
      s.ntu.running = true →
      s.pwr.refclk = true →
      s.pwr.slpOn = true →
      s.ntu.slpMark = none →
      Completes (.slpRatioMeasure) s (fun t => t.ntu.slpMark = some (s.slpTicks, s.ntu.raw))) ∧
  (∀ (s : State),
      s.ntu.running = true →
      s.pwr.slpOn = true →
      s.serving = true ∨ s.mode = 2 →
      ((s.pwr.timeRec.map (fun x => x.ticks / 32768)).getD 0) < s.slpTicks / 32768 →
      Completes (.timeRecordWrite) s (fun t => t.pwr.timeRec = some s.ntuRecord))

/-- Cores start, reset and trap; a bead is enqueued, refused as FULL, FENCED or BAD, or placed in a delay list until it is due or cancelled. RUN 0 to 1
starts an application core at its island's frequency, or a region's core, and 1 to 0 resets it; an unhandled exception of a region core leaves TRAP
with its PC. READY takes a bead in flight with a handle and OK, an ordered one with the next SEQ of its flow; a full rod, a fenced region and a bad
bead give FULL, FENCED and BAD. DELAY holds the bead in its list at its tick; with a launch time that is past it lets an unordered bead, when no entry
of its list waits for its rod and the rod has room, join at once; a full list gives DLY_FULL. A due entry, the first of its list for its rod, joins
the rod with DELAYED=1 when that has room; one that is not due or whose rod is full waits. A cancel of an entry not yet due that holds an unordered
bead removes it, one of an empty place gives its own result. Which free handle a bead takes is a free value. -/
def Obligations.CoreAndEnqueueCommandsComplete : Prop :=
  (∀ (s : State) (rq : Req) (c : Nat),
      s.canonical = true →
      c < 8 →
      Passes s rq .APC_CORE_CTL [c] true →
      s.get Fld.APC_CORE_CTL.RUN [c] = 0 →
      Completes (.coreStart rq c) s (fun t => t.answered rq 0 ∧ t.get Fld.APC_CORE_CTL.RUN [c] = 1
      ∧ t.reg .APC_CORE_STAT [c] = w32 (2 ^ 28 + s.islandMhz 6 1 c % 65536))) ∧
  (∀ (s : State) (rq : Req) (c : Nat),
      s.canonical = true →
      c < 8 →
      Passes s rq .APC_CORE_CTL [c] true →
      s.get Fld.APC_CORE_CTL.RUN [c] = 1 →
      Completes (.coreReset rq c) s (fun t => t.answered rq 0 ∧ t.get Fld.APC_CORE_CTL.RUN [c] = 0 ∧ t.get Fld.APC_CORE_STAT.STATE [c] = 0)) ∧
  (∀ (s : State) (rq : Req) (g : Nat),
      s.canonical = true →
      g < 6 →
      Passes s rq .RGC_CORE_CTL [g] true →
      s.get Fld.RGC_CORE_CTL.RUN [g] = 0 →
      Completes (.regionCoreStart rq g) s (fun t => t.answered rq 0 ∧ t.get Fld.RGC_CORE_CTL.RUN [g] = 1 ∧ t.get Fld.RGC_CORE_STAT.STATE [g] = 1)) ∧
  (∀ (s : State) (rq : Req) (g : Nat),
      s.canonical = true →
      g < 6 →
      Passes s rq .RGC_CORE_CTL [g] true →
      s.get Fld.RGC_CORE_CTL.RUN [g] = 1 →
      Completes (.regionCoreReset rq g) s (fun t => t.answered rq 0 ∧ t.get Fld.RGC_CORE_CTL.RUN [g] = 0 ∧ t.get Fld.RGC_CORE_STAT.STATE [g] = 0)) ∧
  (∀ (s : State) (g pc : Nat),
      s.canonical = true →
      g < 6 →
      s.running g = true →
      s.get Fld.RGC_CORE_STAT.STATE [g] = 1 ∨ s.get Fld.RGC_CORE_STAT.STATE [g] = 2 →
      Completes (.regionCoreTrap g pc) s (fun t => t.get Fld.RGC_CORE_STAT.STATE [g] = 3 ∧ t.get Fld.RGC_CORE_STAT.TRAP_PC [g] = pc % 65536)) ∧
  (∀ (s : State) (rq : Req),
      s.canonical = true →
      Passes s rq .TLY_ENQ_GO [] true →
      s.badBead (s.stagedBead (regCopy rq .TLY_ENQ_GO)) = true →
      Completes (.tlyReady rq) s (fun t => t.answered rq 0 ∧ t.tly = s.tly ∧ t.get Fld.TLY_ENQ_STAT.VALID [] (regCopy rq .TLY_ENQ_GO) = 1
      ∧ t.get Fld.TLY_ENQ_STAT.RESULT [] (regCopy rq .TLY_ENQ_GO) = 3)) ∧
  (∀ (s : State) (rq : Req),
      s.canonical = true →
      Passes s rq .TLY_ENQ_GO [] true →
      s.badBead (s.stagedBead (regCopy rq .TLY_ENQ_GO)) = false →
      s.rodFenced (s.stagedBead (regCopy rq .TLY_ENQ_GO)).rod = true →
      Completes (.tlyReady rq) s (fun t => t.answered rq 0 ∧ t.tly = s.tly ∧ t.get Fld.TLY_ENQ_STAT.VALID [] (regCopy rq .TLY_ENQ_GO) = 1
      ∧ t.get Fld.TLY_ENQ_STAT.RESULT [] (regCopy rq .TLY_ENQ_GO) = 2)) ∧
  (∀ (s : State) (rq : Req),
      s.canonical = true →
      Passes s rq .TLY_ENQ_GO [] true →
      s.badBead (s.stagedBead (regCopy rq .TLY_ENQ_GO)) = false →
      s.rodFenced (s.stagedBead (regCopy rq .TLY_ENQ_GO)).rod = false →
      s.rodBeads (s.stagedBead (regCopy rq .TLY_ENQ_GO)).rod ≤ s.inflight (s.stagedBead (regCopy rq .TLY_ENQ_GO)).rod →
      Completes (.tlyReady rq) s (fun t => t.answered rq 0 ∧ t.tly.beads = s.tly.beads ∧ t.get Fld.TLY_ENQ_STAT.VALID [] (regCopy rq .TLY_ENQ_GO) = 1
      ∧ t.get Fld.TLY_ENQ_STAT.RESULT [] (regCopy rq .TLY_ENQ_GO) = 1)) ∧
  (∀ (s : State) (rq : Req),
      s.canonical = true →
      Passes s rq .TLY_ENQ_GO [] true →
      s.badBead (s.stagedBead (regCopy rq .TLY_ENQ_GO)) = false →
      s.rodFenced (s.stagedBead (regCopy rq .TLY_ENQ_GO)).rod = false →
      s.inflight (s.stagedBead (regCopy rq .TLY_ENQ_GO)).rod < s.rodBeads (s.stagedBead (regCopy rq .TLY_ENQ_GO)).rod →
      (s.stagedBead (regCopy rq .TLY_ENQ_GO)).ordered = false →
      Completes (.tlyReady rq) s (fun t => t.answered rq 0 ∧ (t.tly.beads.dropLast = s.tly.beads
      ∧ t.tly.beads.getLast? = some { (s.stagedBead (regCopy rq .TLY_ENQ_GO)) with handle := t.get Fld.TLY_ENQ_STAT.HANDLE [] (regCopy rq .TLY_ENQ_GO), stamp := s.stamp, waiting := true })
      ∧ t.get Fld.TLY_ENQ_STAT.VALID [] (regCopy rq .TLY_ENQ_GO) = 1 ∧ t.get Fld.TLY_ENQ_STAT.RESULT [] (regCopy rq .TLY_ENQ_GO) = 0)) ∧
  (∀ (s : State) (rq : Req),
      s.canonical = true →
      Passes s rq .TLY_ENQ_GO [] true →
      s.badBead (s.stagedBead (regCopy rq .TLY_ENQ_GO)) = false →
      s.rodFenced (s.stagedBead (regCopy rq .TLY_ENQ_GO)).rod = false →
      s.inflight (s.stagedBead (regCopy rq .TLY_ENQ_GO)).rod < s.rodBeads (s.stagedBead (regCopy rq .TLY_ENQ_GO)).rod →
      (s.stagedBead (regCopy rq .TLY_ENQ_GO)).ordered = true →
      Completes (.tlyReady rq) s (fun t => t.answered rq 0 ∧ (t.tly.beads.dropLast = s.tly.beads
      ∧ t.tly.beads.getLast? = some { (s.stagedBead (regCopy rq .TLY_ENQ_GO)) with handle := t.get Fld.TLY_ENQ_STAT.HANDLE [] (regCopy rq .TLY_ENQ_GO), stamp := s.stamp, waiting := true, seq := sget (fun _ => 0) s.tly.nextSeq (s.stagedBead (regCopy rq .TLY_ENQ_GO)).flow })
      ∧ t.get Fld.TLY_ENQ_STAT.VALID [] (regCopy rq .TLY_ENQ_GO) = 1 ∧ t.get Fld.TLY_ENQ_STAT.RESULT [] (regCopy rq .TLY_ENQ_GO) = 0)) ∧
  (∀ (s : State) (rq : Req) (l r : Nat),
      s.canonical = true →
      l < 4 →
      Passes s rq .TLY_ENQ_GO [] true →
      s.badBead (s.stagedBead (regCopy rq .TLY_ENQ_GO)) = false →
      s.rodFenced (s.stagedBead (regCopy rq .TLY_ENQ_GO)).rod = false →
      (List.range 8192).any (fun i => !s.tly.delays.any (fun d => d.list == l && d.entry == i)) = true →
      s.launchRaw (s.reg .TLY_ENQ_DUE [] (regCopy rq .TLY_ENQ_GO)).toNat = some r →
      s.ntu.raw < ceilDiv r (max 1 (s.dlyTick l)) * s.dlyTick l →
      Completes (.tlyDelay rq l) s (fun t => t.answered rq 0 ∧ t.tly.beads = s.tly.beads ∧ t.tly.delays.length = s.tly.delays.length + 1
      ∧ t.tly.delays.any (fun d => d.list == l && l * 8192 + d.entry == t.get Fld.TLY_ENQ_STAT.HANDLE [] (regCopy rq .TLY_ENQ_GO) && d.due == ceilDiv r (max 1 (s.dlyTick l)) * s.dlyTick l && d.bead.func == (s.stagedBead (regCopy rq .TLY_ENQ_GO)).func) = true
      ∧ t.get Fld.TLY_ENQ_STAT.VALID [] (regCopy rq .TLY_ENQ_GO) = 1 ∧ t.get Fld.TLY_ENQ_STAT.RESULT [] (regCopy rq .TLY_ENQ_GO) = 0)) ∧
  (∀ (s : State) (rq : Req) (l : Nat),
      s.canonical = true →
      l < 4 →
      Passes s rq .TLY_ENQ_GO [] true →
      s.badBead (s.stagedBead (regCopy rq .TLY_ENQ_GO)) = false →
      s.rodFenced (s.stagedBead (regCopy rq .TLY_ENQ_GO)).rod = false →
      (List.range 8192).any (fun i => !s.tly.delays.any (fun d => d.list == l && d.entry == i)) = true →
      s.launchRaw (s.reg .TLY_ENQ_DUE [] (regCopy rq .TLY_ENQ_GO)).toNat = none →
      s.tly.delays.any (fun d => d.list == l && d.bead.rod == (s.stagedBead (regCopy rq .TLY_ENQ_GO)).rod) = false →
      s.inflight (s.stagedBead (regCopy rq .TLY_ENQ_GO)).rod < s.rodBeads (s.stagedBead (regCopy rq .TLY_ENQ_GO)).rod →
      (s.stagedBead (regCopy rq .TLY_ENQ_GO)).ordered = false →
      Completes (.tlyDelay rq l) s (fun t => t.answered rq 0 ∧ t.tly.delays = s.tly.delays ∧ t.tly.beads.length = s.tly.beads.length + 1
      ∧ (t.tly.beads.getLast?.map (fun b => (b.rod, b.func, b.delayed))) = some ((s.stagedBead (regCopy rq .TLY_ENQ_GO)).rod,
      (s.stagedBead (regCopy rq .TLY_ENQ_GO)).func, true) ∧ t.get Fld.TLY_ENQ_STAT.VALID [] (regCopy rq .TLY_ENQ_GO) = 1
      ∧ t.get Fld.TLY_ENQ_STAT.RESULT [] (regCopy rq .TLY_ENQ_GO) = 0)) ∧
  (∀ (s : State) (rq : Req) (l : Nat),
      s.canonical = true →
      l < 4 →
      Passes s rq .TLY_ENQ_GO [] true →
      s.badBead (s.stagedBead (regCopy rq .TLY_ENQ_GO)) = false →
      s.rodFenced (s.stagedBead (regCopy rq .TLY_ENQ_GO)).rod = false →
      (List.range 8192).any (fun i => !s.tly.delays.any (fun d => d.list == l && d.entry == i)) = false →
      Completes (.tlyDelay rq l) s (fun t => t.answered rq 0 ∧ t.tly = s.tly ∧ t.get Fld.TLY_ENQ_STAT.VALID [] (regCopy rq .TLY_ENQ_GO) = 1
      ∧ t.get Fld.TLY_ENQ_STAT.RESULT [] (regCopy rq .TLY_ENQ_GO) = 4)) ∧
  (∀ (s : State) (rq : Req) (h : Nat),
      s.canonical = true →
      Passes s rq .TLY_DLY_CANCEL [] true →
      s.tly.delays.any (fun d => d.list == h / 8192 % 4 && d.entry == h % 8192) = false →
      Completes (.tlyDlyCancel rq h) s (fun t => t.answered rq 0 ∧ t.tly = s.tly ∧ t.get Fld.TLY_ENQ_STAT.VALID [] (regCopy rq .TLY_ENQ_GO) = 1
      ∧ t.get Fld.TLY_ENQ_STAT.RESULT [] (regCopy rq .TLY_ENQ_GO) = 5)) ∧
  (∀ (s : State) (rq : Req) (h : Nat) (d : DelayEnt),
      s.canonical = true →
      Passes s rq .TLY_DLY_CANCEL [] true →
      s.tly.delays.find? (fun d => d.list == h / 8192 % 4 && d.entry == h % 8192) = some d →
      s.ntu.raw < d.due →
      d.bead.ordered = false →
      Completes (.tlyDlyCancel rq h) s (fun t => t.answered rq 0 ∧ t.tly.beads = s.tly.beads
      ∧ t.tly.delays = s.tly.delays.filter (fun x => !(x.list == d.list && x.entry == d.entry)) ∧ t.get Fld.TLY_ENQ_STAT.VALID [] (regCopy rq .TLY_ENQ_GO) = 1
      ∧ t.get Fld.TLY_ENQ_STAT.RESULT [] (regCopy rq .TLY_ENQ_GO) = 0)) ∧
  (∀ (s : State) (l e : Nat) (d : DelayEnt),
      s.evtRuns = true →
      s.tly.delays.find? (fun d => d.list == l && d.entry == e) = some d →
      d.due ≤ s.ntu.raw →
      (s.tly.delays.takeWhile (fun x => !(x.list == l && x.entry == e))).any (fun x => x.list == l && x.bead.rod == d.bead.rod) = false →
      s.rodFenced d.bead.rod = false →
      s.inflight d.bead.rod < s.rodBeads d.bead.rod →
      Completes (.delayDue l e) s (fun t => t.tly.delays = s.tly.delays.filter (fun x => !(x.list == l && x.entry == e)) ∧ t.tly.beads.dropLast = s.tly.beads
      ∧ (t.tly.beads.getLast?.map (fun b => { b with handle := 0 })) = some { d.bead with handle := 0, delayed := true, stamp := s.stamp, waiting := true })) ∧
  (∀ (s : State) (l e : Nat) (d : DelayEnt),
      s.tly.delays.find? (fun d => d.list == l && d.entry == e) = some d →
      s.rodFenced d.bead.rod = false →
      s.ntu.raw < d.due ∨ s.rodBeads d.bead.rod ≤ s.inflight d.bead.rod →
      Completes (.delayDue l e) s (fun t => t = s))

/-- A pick hands out the head of the highest rod, a done bead frees its place or is released in order, and event sources count, enqueue and are claimed. A
pick latches the eight words of the head of the highest-numbered non-empty rod the worker serves, or reads EMPTY. An unordered bead frees its place
when done. An ordered one enters its flow's release queue, while that has room, when every earlier SEQ has been released, and waits till then. A pop
answers the head with its result latched, or EMPTY. An edge counts PEND of a source that is masked or of no MSI-X message or pulse, up to 255, and of
the first the time; one of an EVTOUT in pulse mode drives a pulse. A source routed to a rod enqueues a bead or is stalled; claims answer the source
that R395 names and zero its PEND, or EMPTY; EVT_CLR zeroes it. Which free handle a bead takes is a free value. -/
def Obligations.PickDoneAndEventCommandsComplete : Prop :=
  (∀ (s : State) (rq : Req),
      Passes s rq .TLY_PICK [] false →
      s.headBead rq = none →
      Completes (.tlyPick rq) s (fun t => t.answered rq 0xBFFF0000 ∧ t.tly = s.tly)) ∧
  (∀ (s : State) (rq : Req) (b : Bead),
      s.canonical = true →
      Passes s rq .TLY_PICK [] false →
      s.headBead rq = some b →
      Completes (.tlyPick rq) s (fun t => t.answered rq (w32 (b.handle * 65536 + b.rod))
      ∧ t.tly.beads = s.tly.beads.map (fun x => if x.handle == b.handle && x.waiting then { x with waiting := false, holder := some rq } else x)
      ∧ (List.range 8).all (fun n => t.reg .TLY_CUR_W [n] (regCopy rq .TLY_CUR_W) == w32 (b.words.getD n 0)) = true)) ∧
  (∀ (s : State) (rq : Req) (v : Word) (b : Bead),
      Passes s rq .TLY_DONE [] true →
      wbits v 31 30 < 2 →
      s.tly.beads.find? (fun b => b.handle == wbits v 13 0 && b.done.isNone) = some b →
      b.holder = some rq →
      b.ordered = false →
      Completes (.tlyDone rq v) s (fun t => t.answered rq 0 ∧ t.tly.beads = s.tly.beads.filter (fun x => x.handle != b.handle) ∧ t.tly.rels = s.tly.rels)) ∧
  (∀ (s : State) (rq : Req) (v : Word) (b : Bead),
      Passes s rq .TLY_DONE [] true →
      wbits v 31 30 < 2 →
      s.tly.beads.find? (fun b => b.handle == wbits v 13 0 && b.done.isNone) = some b →
      b.holder = some rq →
      b.ordered = true →
      b.seq = (sget (fun _ => 0) s.tly.released b.flow) →
      b.hidden = false →
      b.flow < 4096 →
      s.tly.rels.length = 16 →
      ((s.tly.rels[b.flow / 256]?).getD []).length < 256 →
      s.tly.beads.any (fun x => x.ordered && x.flow == b.flow && x.seq == b.seq && x.done.isSome) = false →
      Completes (.tlyDone rq v) s (fun t => t.answered rq 0
      ∧ ((t.tly.rels[b.flow / 256]?).getD []).take (((s.tly.rels[b.flow / 256]?).getD []).length + 1) = ((s.tly.rels[b.flow / 256]?).getD []) ++ [⟨b.flow,
      b.seq, wbits v 31 30, (s.reg .TLY_DONE_RES [] (regCopy rq .TLY_DONE)).toNat⟩])) ∧
  (∀ (s : State) (rq : Req) (v : Word) (b : Bead),
      Passes s rq .TLY_DONE [] true →
      wbits v 31 30 < 2 →
      s.tly.beads.find? (fun b => b.handle == wbits v 13 0 && b.done.isNone) = some b →
      b.holder = some rq →
      b.ordered = true →
      b.seq ≠ (sget (fun _ => 0) s.tly.released b.flow) →
      (s.tly.beads.filter (fun x => x.handle == b.handle && x.done.isNone)).length = 1 →
      s.tly.beads.any (fun x => x.ordered && x.flow == b.flow && x.seq == (sget (fun _ => 0) s.tly.released b.flow) && x.done.isSome) = false →
      Completes (.tlyDone rq v) s (fun t => t.answered rq 0 ∧ t.tly.rels = s.tly.rels
      ∧ t.tly.beads = s.tly.beads.map (fun x => if x.handle == b.handle && x.done.isNone then { x with done := some (wbits v 31 30, (s.reg .TLY_DONE_RES [] (regCopy rq .TLY_DONE)).toNat), waiting := false, holder := none } else x))) ∧
  (∀ (s : State) (rq : Req) (q : Nat),
      q < 16 →
      Passes s rq .TLY_REL_POP [q] false →
      (s.tly.rels[q]?).getD [] = [] →
      Completes (.tlyRelPop rq q) s (fun t => t.answered rq 0x8FFF0000 ∧ t.tly = s.tly)) ∧
  (∀ (s : State) (rq : Req) (q : Nat) (e : RelEnt) (rest : List RelEnt),
      s.canonical = true →
      q < 16 →
      Passes s rq .TLY_REL_POP [q] false →
      s.tly.rels[q]? = some (e :: rest) →
      Completes (.tlyRelPop rq q) s (fun t => t.answered rq (w32 (e.status * 2 ^ 28 + e.flow * 65536 + e.seq % 65536)) ∧ t.reg .TLY_REL_RES = w32 e.result
      ∧ ((t.tly.rels[q]?).getD []).take rest.length = rest)) ∧
  (∀ (s : State) (n : Nat),
      n < 256 →
      s.evt.pend.length = 256 →
      s.evt.first.length = 256 →
      s.evtRuns = true →
      s.evtMasked n = true ∨ ((s.route n).kind ≠ 4 ∧ ((s.route n).kind = 5 → bitOf (s.get Fld.EVT_EVTOUT_CFG.PULSE) (s.route n).target = false)) →
      Completes (.eventEdge n) s (fun t => t.pend n = min 255 (s.pend n + 1) ∧ t.firstStamp n = (if s.pend n = 0 then s.stamp else s.firstStamp n))) ∧
  (∀ (s : State) (n : Nat),
      n < 256 →
      s.evt.pend.length = 256 →
      s.evtRuns = true →
      s.evtMasked n = false →
      (s.route n).kind = 5 →
      bitOf (s.get Fld.EVT_EVTOUT_CFG.PULSE) (s.route n).target = true →
      Completes (.eventEdge n) s (fun t => t.pend n = 0 ∧ t.outs = ⟨.evtout, [(s.route n).target, max s.now ((s.evt.pulseAt[(s.route n).target]?).getD 0)],
      []⟩ :: s.outs)) ∧
  (∀ (s : State) (n : Nat),
      n < 256 →
      s.evtRuns = true →
      (s.route n).kind = 1 →
      s.pend n ≠ 0 →
      s.evtMasked n = false →
      s.tly.beads.any (fun b => b.fromEvent == some n) = false →
      s.rodFenced (s.route n).target = false →
      s.inflight (s.route n).target < s.rodBeads (s.route n).target →
      Completes (.eventBead n) s (fun t => t.pend n = 0 ∧ t.tly.beads.dropLast = s.tly.beads ∧ (t.tly.beads.getLast?.map (fun b => (b.rod, b.func, b.args,
      b.ordered, b.fromEvent))) = some ((s.route n).target, (s.route n).func, [n + 65536 * s.pend n, s.firstStamp n, 0, 0], false, some n))) ∧
  (∀ (s : State) (n : Nat),
      n < 256 →
      s.evtRuns = true →
      (s.route n).kind = 1 →
      s.pend n ≠ 0 →
      s.evtMasked n = false →
      s.tly.beads.any (fun b => b.fromEvent == some n) = false →
      s.rodFenced (s.route n).target = false →
      s.rodBeads (s.route n).target ≠ 0 →
      s.rodBeads (s.route n).target ≤ s.inflight (s.route n).target →
      Completes (.eventBead n) s (fun t => t.tly.beads = s.tly.beads ∧ t.tly.stalled.contains n = true)) ∧
  (∀ (s : State) (rq : Req) (e : Nat) (rest : List Nat),
      s.canonical = true →
      Passes s rq .EVT_CLAIM [] false →
      s.claimable rq = e :: rest →
      Completes (.evtClaim rq) s (fun t => t.answered rq (w32 (e * 65536 + s.pend e)) ∧ t.pend e = 0 ∧ t.reg .EVT_CLAIM_TS = w32 (s.firstStamp e))) ∧
  (∀ (s : State) (rq : Req),
      Passes s rq .EVT_CLAIM [] false →
      s.claimable rq = [] →
      Completes (.evtClaim rq) s (fun t => t.answered rq 0x80FF0000 ∧ t.evt = s.evt)) ∧
  (∀ (s : State) (f e : Nat) (rest : List Nat),
      Passes s (.pcie f) .EVT_HCLAIM [] false →
      (List.range 256).filter (fun e => (s.route e).kind == 4 && (s.route e).target == f && s.pend e != 0 && !s.evtMasked e) = e :: rest →
      Completes (.evtHclaim (.pcie f)) s (fun t => t.answered (.pcie f) (w32 (e * 65536 + s.pend e)) ∧ t.pend e = 0)) ∧
  (∀ (s : State) (f : Nat),
      Passes s (.pcie f) .EVT_HCLAIM [] false →
      (List.range 256).filter (fun e => (s.route e).kind == 4 && (s.route e).target == f && s.pend e != 0 && !s.evtMasked e) = [] →
      Completes (.evtHclaim (.pcie f)) s (fun t => t.answered (.pcie f) 0x80FF0000 ∧ t.evt = s.evt)) ∧
  (∀ (s : State) (rq : Req) (n : Nat),
      Passes s rq .EVT_CLR [] true →
      Completes (.evtClr rq n) s (fun t => t.answered rq 0 ∧ t.pend (n % 256) = 0))

/-- Every vector operation of a reckoner writes the lanes that the operations table gives, narrowed, and goes on. VADD, VSUB, VMUL, VSH and VBFLY write
VD, VMAC, VMSU and ACLR an accumulator, AMOV a vector from one, with the lanes of the operations table, rounded, and saturated or wrapped as S says;
the other operands stay. The way an exact tie of a rounding goes is a free value of the model (entry 22), and so are the lanes of VMUL and AMOV with
an IMM out of its range (entry 23). A VBFLY that is no butterfly faults ILLEGAL. -/
def Obligations.ReckonerVectorOperationsComplete : Prop :=
  (∀ (s : State) (k w : Nat),
      s.canonical = true →
      s.rkAt k 16 w →
      Completes (.rknVadd k) s (fun t => t.rkVecSet s k (fD w) (fS w) ((List.range 8).map (fun i => rnd (lane ((s.rk k).vec (fA w)) i + lane ((s.rk k).vec (fB w)) i) (fIMM w)))
      ∧ t.rkGone s k)) ∧
  (∀ (s : State) (k w : Nat),
      s.canonical = true →
      s.rkAt k 17 w →
      Completes (.rknVsub k) s (fun t => t.rkVecSet s k (fD w) (fS w) ((List.range 8).map (fun i => rnd (lane ((s.rk k).vec (fA w)) i - lane ((s.rk k).vec (fB w)) i) (fIMM w)))
      ∧ t.rkGone s k)) ∧
  (∀ (s : State) (k w : Nat),
      s.canonical = true →
      s.rkAt k 18 w →
      fIMM w ≤ 23 →
      Completes (.rknVmul k) s (fun t => t.rkVecSet s k (fD w) (fS w) ((products (fCX w) (fCJ w) ((s.rk k).vec (fA w)) ((s.rk k).vec (fB w))).map (fun x => rnd x (23 - fIMM w)))
      ∧ t.rkGone s k)) ∧
  (∀ (s : State) (k w : Nat),
      s.canonical = true →
      s.rkAt k 18 w →
      23 < fIMM w →
      Completes (.rknVmul k) s (fun t => (t.rk k).a = (s.rk k).a ∧ t.rkGone s k)) ∧
  (∀ (s : State) (k w : Nat),
      s.canonical = true →
      s.rkAt k 19 w →
      Completes (.rknVmac k) s (fun t => t.rkAccSet s k (fAC w) (fS w) ((List.range 8).map (fun i => lane ((s.rk k).acc (fAC w)) i + lane (products (fCX w) (fCJ w) ((s.rk k).vec (fA w)) ((s.rk k).vec (fB w))) i))
      ∧ t.rkGone s k)) ∧
  (∀ (s : State) (k w : Nat),
      s.canonical = true →
      s.rkAt k 20 w →
      Completes (.rknVmsu k) s (fun t => t.rkAccSet s k (fAC w) (fS w) ((List.range 8).map (fun i => lane ((s.rk k).acc (fAC w)) i - lane (products (fCX w) (fCJ w) ((s.rk k).vec (fA w)) ((s.rk k).vec (fB w))) i))
      ∧ t.rkGone s k)) ∧
  (∀ (s : State) (k w : Nat),
      s.canonical = true →
      s.rkAt k 21 w →
      fIMM w ≤ 55 →
      Completes (.rknAmov k) s (fun t => t.rkVecSet s k (fD w) (fS w) (((s.rk k).acc (fAC w)).map (fun x => rnd x (fIMM w))) ∧ t.rkGone s k)) ∧
  (∀ (s : State) (k w : Nat),
      s.canonical = true →
      s.rkAt k 21 w →
      55 < fIMM w →
      Completes (.rknAmov k) s (fun t => (t.rk k).a = (s.rk k).a ∧ t.rkGone s k)) ∧
  (∀ (s : State) (k w : Nat),
      s.canonical = true →
      s.rkAt k 22 w →
      Completes (.rknAclr k) s (fun t => t.rkAccSet s k (fAC w) false (List.replicate 8 0) ∧ t.rkGone s k)) ∧
  (∀ (s : State) (k w : Nat),
      s.canonical = true →
      s.rkAt k 23 w →
      fCX w = true →
      fIMM w % 4 = 1 ∨ fIMM w % 4 = 2 →
      Completes (.rknVbfly k) s (fun t => t.rkVecSet s k (fD w) (fS w) (butterfly (fIMM w % 4) (b2n (bitOf (fIMM w) 4)) ((s.rk k).vec (fA w)) ((s.rk k).vec (fB w)))
      ∧ t.rkGone s k)) ∧
  (∀ (s : State) (k w : Nat),
      s.canonical = true →
      s.rkAt k 23 w →
      fCX w = false ∨ fIMM w % 4 = 0 ∨ fIMM w % 4 = 3 →
      Completes (.rknVbfly k) s (fun t => t.get Fld.RKN_STAT.RUN [k] = 0 ∧ t.get Fld.RKN_STAT.STATE [k] = 3 ∧ t.get Fld.RKN_STAT.CAUSE [k] = 1
      ∧ (t.rk k).v = (s.rk k).v ∧ (t.rk k).a = (s.rk k).a ∧ (t.rk k).p = (s.rk k).p ∧ (t.rk k).m = (s.rk k).m)) ∧
  (∀ (s : State) (k w : Nat),
      s.canonical = true →
      s.rkAt k 24 w →
      Completes (.rknVsh k) s (fun t => t.rkVecSet s k (fD w) (fS w) (((s.rk k).vec (fA w)).map (fun x => if bitOf (fIMM w) 7 = true then x * 2 ^ (fIMM w % 32) else x / 2 ^ (fIMM w % 32)))
      ∧ t.rkGone s k))

/-- Loads and stores move the words that EA names and step P, scalar and pointer operations compute, and NOP only goes on. LD and LDE load the words from
EA into lanes, ST and STE store them in W24 or C16, and P takes its post-increment. SLI, SLUI, SADDI, SADD, SETP and SETM write their register. A
loaded word that an outstanding inbound DMA writes reads old or new, and bits 31 to 24 of a stored W24 word are free values of the model. -/
def Obligations.ReckonerScalarAndMemoryOperationsComplete : Prop :=
  (∀ (s : State) (k w : Nat),
      s.canonical = true →
      s.rkAt k 0 w →
      Completes (.rknNop k) s (fun t => (t.rk k).v = (s.rk k).v ∧ (t.rk k).a = (s.rk k).a ∧ (t.rk k).p = (s.rk k).p ∧ (t.rk k).m = (s.rk k).m ∧ t.rkGone s k)) ∧
  (∀ (s : State) (k w : Nat),
      s.canonical = true →
      s.rkAt k 8 w →
      Completes (.rknLd k) s (fun t => (t.rk k).v = updAt (s.rk k).v (fD w) (layLanes · 0 ((List.range (if mC16 w = true then 4 else 8)).flatMap (fun j => loadLanes (mC16 w) (s.rkLoadWord k (s.rkEA k w + j)))))
      ∧ (t.rk k).p = updAt (s.rk k).p (mP w) (fun p => postInc p (((s.rk k).m[mM w]?).getD 0) (mBR w) % 32768) ∧ t.rkGone s k)) ∧
  (∀ (s : State) (k w : Nat),
      s.canonical = true →
      s.rkAt k 9 w →
      mC16 w = false →
      Completes (.rknSt k) s (fun t => (List.range 8).all (fun j => t.rkWord k (s.rkEA k w + j) % 2 ^ 24 == unsigned 24 (lane ((s.rk k).vec (fD w)) j)) = true
      ∧ (t.rk k).p = updAt (s.rk k).p (mP w) (fun p => postInc p (((s.rk k).m[mM w]?).getD 0) (mBR w) % 32768) ∧ t.rkGone s k)) ∧
  (∀ (s : State) (k w : Nat),
      s.canonical = true →
      s.rkAt k 9 w →
      mC16 w = true →
      Completes (.rknSt k) s (fun t => (List.range 4).all (fun j => t.rkWord k (s.rkEA k w + j) == (half16 (lane ((s.rk k).vec (fD w)) (2 * j))).1 + (half16 (lane ((s.rk k).vec (fD w)) (2 * j + 1))).1 * 65536) = true
      ∧ (t.rk k).p = updAt (s.rk k).p (mP w) (fun p => postInc p (((s.rk k).m[mM w]?).getD 0) (mBR w) % 32768) ∧ t.rkGone s k)) ∧
  (∀ (s : State) (k w : Nat),
      s.canonical = true →
      s.rkAt k 10 w →
      Completes (.rknLde k) s (fun t => (t.rk k).v = updAt (s.rk k).v (fD w) (layLanes · (if mC16 w = true then 2 * (mLane w % 4) else mLane w) (loadLanes (mC16 w) (s.rkLoadWord k (s.rkEA k w))))
      ∧ (t.rk k).p = updAt (s.rk k).p (mP w) (fun p => postInc p (((s.rk k).m[mM w]?).getD 0) (mBR w) % 32768) ∧ t.rkGone s k)) ∧
  (∀ (s : State) (k w : Nat),
      s.canonical = true →
      s.rkAt k 11 w →
      mC16 w = false →
      Completes (.rknSte k) s (fun t => t.rkWord k (s.rkEA k w) % 2 ^ 24 = unsigned 24 (lane ((s.rk k).vec (fD w)) (mLane w))
      ∧ (t.rk k).p = updAt (s.rk k).p (mP w) (fun p => postInc p (((s.rk k).m[mM w]?).getD 0) (mBR w) % 32768) ∧ t.rkGone s k)) ∧
  (∀ (s : State) (k w : Nat),
      s.canonical = true →
      s.rkAt k 11 w →
      mC16 w = true →
      Completes (.rknSte k) s (fun t => t.rkWord k (s.rkEA k w) = (half16 (lane ((s.rk k).vec (fD w)) (2 * (mLane w % 4)))).1 + (half16 (lane ((s.rk k).vec (fD w)) (2 * (mLane w % 4) + 1))).1 * 65536
      ∧ (t.rk k).p = updAt (s.rk k).p (mP w) (fun p => postInc p (((s.rk k).m[mM w]?).getD 0) (mBR w) % 32768) ∧ t.rkGone s k)) ∧
  (∀ (s : State) (k w : Nat),
      s.canonical = true →
      s.rkAt k 32 w →
      Completes (.rknSli k) s (fun t => t.reg .RKN_S [k, fD w] = w32 (unsigned 32 (fIMM17 w)) ∧ t.rkGone s k)) ∧
  (∀ (s : State) (k w : Nat),
      s.canonical = true →
      s.rkAt k 33 w →
      Completes (.rknSlui k) s (fun t => t.reg .RKN_S [k, fD w] = w32 ((s.reg .RKN_S [k, fD w]).toNat % 2 ^ 15 + bits w 16 0 * 2 ^ 15) ∧ t.rkGone s k)) ∧
  (∀ (s : State) (k w : Nat),
      s.canonical = true →
      s.rkAt k 34 w →
      Completes (.rknSaddi k) s (fun t => t.reg .RKN_S [k, fD w] = w32 (unsigned 32 (((s.reg .RKN_S [k, fA w]).toNat : Int) + fIMM17 w)) ∧ t.rkGone s k)) ∧
  (∀ (s : State) (k w : Nat),
      s.canonical = true →
      s.rkAt k 35 w →
      Completes (.rknSadd k) s (fun t => t.reg .RKN_S [k, fD w] = w32 ((s.reg .RKN_S [k, fA w]).toNat + (s.reg .RKN_S [k, fB w]).toNat) ∧ t.rkGone s k)) ∧
  (∀ (s : State) (k w : Nat),
      s.canonical = true →
      s.rkAt k 36 w →
      Completes (.rknSetp k) s (fun t => (t.rk k).p = (s.rk k).p.set (fD w % 8) (unsigned 15 (((s.reg .RKN_S [k, fA w]).toNat % 32768 : Nat) + fIMM17 w))
      ∧ t.rkGone s k)) ∧
  (∀ (s : State) (k w : Nat),
      s.canonical = true →
      s.rkAt k 37 w →
      Completes (.rknSetm k) s (fun t => (t.rk k).m = (s.rk k).m.set (fD w % 8) ((s.reg .RKN_S [k, fA w]).toNat % 2 ^ 20) ∧ t.rkGone s k))

/-- A reckoner starts, halts, faults, loops, branches, moves memory by DMA, and takes beads by itself when it is idle. OP=START runs an idle reckoner from
its PC, or faults ILLEGAL on an unlisted OP; STOP faults a running one STOPPED. HALT stops it; under Tally an unordered bead is done, and an ordered
one that still waits for its turn is done with result S5. LOOP enters, skips or faults, BRC goes to its target when its condition holds. DMA joins the
outstanding ones, faults on its addresses or waits for a place; one that completes without an error has copied its bytes; DWAIT waits for all. An idle
reckoner with OWNER=0 takes the head bead with its arguments and runs it from its first operation, a listed one. RKN_ACC reads BUSY while it runs. -/
def Obligations.ReckonerControlComplete : Prop :=
  (∀ (s : State) (rq : Req) (k : Nat),
      s.canonical = true →
      k < 32 →
      s.rkns.length = 32 →
      Passes s rq .RKN_CTL [k] true →
      s.rkRuns k = false →
      rkListed (bits (s.rkWord k (s.rkPc k)) 31 26) = true →
      Completes (.rknStart rq k) s (fun t => t.answered rq 0 ∧ t.get Fld.RKN_CTL.OWNER [k] = 1 ∧ t.rkRuns k = true ∧ t.get Fld.RKN_STAT.STATE [k] = 1
      ∧ t.get Fld.RKN_STAT.CAUSE [k] = 0 ∧ (t.rk k).loops = [] ∧ t.rkPc k = s.rkPc k)) ∧
  (∀ (s : State) (rq : Req) (k : Nat),
      s.canonical = true →
      k < 32 →
      s.rkns.length = 32 →
      Passes s rq .RKN_CTL [k] true →
      s.rkRuns k = false →
      rkListed (bits (s.rkWord k (s.rkPc k)) 31 26) = false →
      Completes (.rknStart rq k) s (fun t => t.answered rq 0 ∧ t.get Fld.RKN_CTL.OWNER [k] = 1 ∧ t.get Fld.RKN_STAT.RUN [k] = 0
      ∧ t.get Fld.RKN_STAT.STATE [k] = 3 ∧ t.get Fld.RKN_STAT.CAUSE [k] = 1)) ∧
  (∀ (s : State) (rq : Req) (k : Nat),
      s.canonical = true →
      k < 32 →
      Passes s rq .RKN_CTL [k] true →
      s.rkRuns k = true →
      s.flag Fld.RKN_CTL.OWNER [k] = true →
      Completes (.rknStop rq k) s (fun t => t.answered rq 0 ∧ t.get Fld.RKN_STAT.RUN [k] = 0 ∧ t.get Fld.RKN_STAT.STATE [k] = 3
      ∧ t.get Fld.RKN_STAT.CAUSE [k] = 3)) ∧
  (∀ (s : State) (rq : Req) (k : Nat),
      s.canonical = true →
      k < 32 →
      Passes s rq .RKN_CTL [k] true →
      s.rkRuns k = false →
      Completes (.rknStop rq k) s (fun t => t.answered rq 0 ∧ t.reg .RKN_STAT [k] = s.reg .RKN_STAT [k] ∧ t.get Fld.RKN_CTL.OWNER [k] = 1)) ∧
  (∀ (s : State) (rq : Req) (k a l : Nat) (hi : Bool),
      k < 32 →
      a < 4 →
      l < 8 →
      Passes s rq (if hi = true then .RKN_ACC_HI else .RKN_ACC_LO) [k, 8 * a + l] false →
      s.rkRuns k = false →
      Completes (.rknAcc rq k a l hi) s (fun t => t.answered rq (w32 (if hi = true then s.rkAccLane k (8 * a + l) / 2 ^ 32 else s.rkAccLane k (8 * a + l))))) ∧
  (∀ (s : State) (rq : Req) (k a l : Nat) (hi : Bool),
      k < 32 →
      a < 4 →
      l < 8 →
      Passes s rq (if hi = true then .RKN_ACC_HI else .RKN_ACC_LO) [k, 8 * a + l] false →
      s.rkRuns k = true →
      Completes (.rknAcc rq k a l hi) s (fun t => t.answered rq (if hi = true then 0x80000000 else 0))) ∧
  (∀ (s : State) (k w : Nat),
      s.canonical = true →
      s.rkAt k 1 w →
      s.flag Fld.RKN_CTL.OWNER [k] = true →
      Completes (.rknHalt k) s (fun t => t.get Fld.RKN_STAT.RUN [k] = 0 ∧ t.get Fld.RKN_STAT.STATE [k] = 2 ∧ t.tly = s.tly ∧ (t.rk k).v = (s.rk k).v
      ∧ (t.rk k).a = (s.rk k).a ∧ (t.rk k).p = (s.rk k).p ∧ (t.rk k).m = (s.rk k).m)) ∧
  (∀ (s : State) (k w : Nat) (b : Bead),
      s.canonical = true →
      s.rkAt k 1 w →
      s.flag Fld.RKN_CTL.OWNER [k] = false →
      s.tly.beads.find? (fun b => b.handle == s.get Fld.RKN_STAT.HANDLE [k] && b.done.isNone) = some b →
      b.ordered = false →
      Completes (.rknHalt k) s (fun t => t.get Fld.RKN_STAT.RUN [k] = 0 ∧ t.get Fld.RKN_STAT.STATE [k] = 2
      ∧ t.tly.beads = s.tly.beads.filter (fun x => x.handle != b.handle))) ∧
  (∀ (s : State) (k w : Nat) (b : Bead),
      s.canonical = true →
      s.rkAt k 1 w →
      s.flag Fld.RKN_CTL.OWNER [k] = false →
      s.tly.beads.find? (fun b => b.handle == s.get Fld.RKN_STAT.HANDLE [k] && b.done.isNone) = some b →
      b.ordered = true →
      s.tly.beads.any (fun x => x.ordered && x.flow == b.flow && x.seq == sget (fun _ => 0) s.tly.released b.flow && (x.done.isSome || x.handle == b.handle)) = false →
      Completes (.rknHalt k) s (fun t => t.get Fld.RKN_STAT.RUN [k] = 0 ∧ t.get Fld.RKN_STAT.STATE [k] = 2
      ∧ t.tly.beads = s.tly.beads.map (fun x => if x.handle == b.handle && x.done.isNone then { x with done := some (0, (s.reg .RKN_S [k, 5]).toNat), waiting := false, holder := none } else x))) ∧
  (∀ (s : State) (k w : Nat),
      s.canonical = true →
      s.rkAt k 2 w →
      (s.rk k).loops.length < 2 →
      notLast (bits (s.rkFetch k ((s.rkPc k + bits w 22 15) % 32768)) 31 26) = false →
      (if bitOf w 23 = true then (s.reg .RKN_S [k, bits w 14 11]).toNat else bits w 14 0) ≠ 0 →
      bits w 22 15 ≠ 0 →
      Completes (.rknLoop k) s (fun t => t.rkPc k = (s.rkPc k + 1) % 32768 ∧ (t.rk k).loops = ⟨(s.rkPc k + 1) % 32768, ((s.rkPc k + bits w 22 15) % 32768),
      (if bitOf w 23 = true then (s.reg .RKN_S [k, bits w 14 11]).toNat else bits w 14 0)⟩ :: (s.rk k).loops)) ∧
  (∀ (s : State) (k w : Nat),
      s.canonical = true →
      s.rkAt k 2 w →
      (s.rk k).loops.length < 2 →
      notLast (bits (s.rkFetch k ((s.rkPc k + bits w 22 15) % 32768)) 31 26) = false →
      (if bitOf w 23 = true then (s.reg .RKN_S [k, bits w 14 11]).toNat else bits w 14 0) = 0 ∨ bits w 22 15 = 0 →
      Completes (.rknLoop k) s (fun t => t.rkPc k = (((s.rkPc k + bits w 22 15) % 32768) + 1) % 32768 ∧ (t.rk k).loops = (s.rk k).loops)) ∧
  (∀ (s : State) (k w : Nat),
      s.canonical = true →
      s.rkAt k 2 w →
      2 ≤ (s.rk k).loops.length ∨ notLast (bits (s.rkFetch k ((s.rkPc k + bits w 22 15) % 32768)) 31 26) = true →
      Completes (.rknLoop k) s (fun t => t.get Fld.RKN_STAT.RUN [k] = 0 ∧ t.get Fld.RKN_STAT.STATE [k] = 3 ∧ t.get Fld.RKN_STAT.CAUSE [k] = 1)) ∧
  (∀ (s : State) (k w : Nat),
      s.canonical = true →
      s.rkAt k 3 w →
      brcTaken (bits w 20 18) (s.reg .RKN_S [k, bits w 24 21]).toNat = true →
      Completes (.rknBrc k) s (fun t => t.rkPc k = bits w 14 0 ∧ (t.rk k).stale = [])) ∧
  (∀ (s : State) (k w : Nat),
      s.canonical = true →
      s.rkAt k 3 w →
      brcTaken (bits w 20 18) (s.reg .RKN_S [k, bits w 24 21]).toNat = false →
      Completes (.rknBrc k) s (fun t => t.rkGone s k)) ∧
  (∀ (s : State) (k w : Nat),
      s.canonical = true →
      s.rkAt k 4 w →
      (s.rk k).dmas.length < 4 →
      (s.reg .RKN_S [k, bits w 20 17]).toNat + (s.reg .RKN_S [k, bits w 16 13]).toNat * 64 / 4 ≤ 32768 →
      (s.reg .RKN_S [k, bits w 16 13]).toNat = 0 ∨ s.rangeCode (.rkn k) ((s.reg .RKN_S [k, bits w 24 21]).toNat * 64) ((s.reg .RKN_S [k,
      bits w 16 13]).toNat * 64) = 0 →
      Completes (.rknDma k) s (fun t => (t.rk k).dmas = (s.rk k).dmas ++ [⟨(s.reg .RKN_S [k, bits w 24 21]).toNat * 64, (s.reg .RKN_S [k, bits w 20 17]).toNat,
      (s.reg .RKN_S [k, bits w 16 13]).toNat * 64, bitOf w 12⟩] ∧ t.rkGone s k)) ∧
  (∀ (s : State) (k w : Nat),
      s.canonical = true →
      s.rkAt k 4 w →
      (s.rk k).dmas.length < 4 →
      32768 < (s.reg .RKN_S [k, bits w 20 17]).toNat + (s.reg .RKN_S [k, bits w 16 13]).toNat * 64 / 4 ∨ ((s.reg .RKN_S [k, bits w 16 13]).toNat ≠ 0
      ∧ s.rangeCode (.rkn k) ((s.reg .RKN_S [k, bits w 24 21]).toNat * 64) ((s.reg .RKN_S [k, bits w 16 13]).toNat * 64) ≠ 0) →
      Completes (.rknDma k) s (fun t => t.get Fld.RKN_STAT.RUN [k] = 0 ∧ t.get Fld.RKN_STAT.STATE [k] = 3 ∧ t.get Fld.RKN_STAT.CAUSE [k] = 2)) ∧
  (∀ (s : State) (k w : Nat),
      s.canonical = true →
      s.rkAt k 4 w →
      4 ≤ (s.rk k).dmas.length →
      Completes (.rknDma k) s (fun t => t = s)) ∧
  (∀ (s : State) (k i : Nat) (d : RknDma),
      k < 32 →
      s.rkns.length = 32 →
      (s.rk k).dmas[i]? = some d →
      d.outDir = false →
      d.bytes ≠ 0 →
      (s.memRead (.rkn k) d.sys d.bytes).1 = 0 →
      Completes (.rknDmaComplete k i) s (fun t => (t.rk k).dmas = (s.rk k).dmas.eraseIdx i
      ∧ t.mem = ((s.memRead (.rkn k) d.sys d.bytes).2.2.memPut (rkAddr k d.word) (s.memRead (.rkn k) d.sys d.bytes).2.1).mem)) ∧
  (∀ (s : State) (k i : Nat) (d : RknDma),
      k < 32 →
      s.rkns.length = 32 →
      (s.rk k).dmas[i]? = some d →
      d.outDir = true →
      d.bytes ≠ 0 →
      (s.memWrite (.rkn k) d.sys (s.bytes (rkAddr k d.word) d.bytes)).1 = 0 →
      Completes (.rknDmaComplete k i) s (fun t => (t.rk k).dmas = (s.rk k).dmas.eraseIdx i
      ∧ t.mem = (s.memWrite (.rkn k) d.sys (s.bytes (rkAddr k d.word) d.bytes)).2.mem)) ∧
  (∀ (s : State) (k w : Nat),
      s.canonical = true →
      s.rkAt k 5 w →
      (s.rk k).dmas = [] →
      Completes (.rknDwait k) s (fun t => (t.rk k).v = (s.rk k).v ∧ (t.rk k).a = (s.rk k).a ∧ (t.rk k).p = (s.rk k).p ∧ (t.rk k).m = (s.rk k).m
      ∧ t.rkGone s k)) ∧
  (∀ (s : State) (k w : Nat),
      s.canonical = true →
      s.rkAt k 5 w →
      (s.rk k).dmas ≠ [] →
      Completes (.rknDwait k) s (fun t => t = s)) ∧
  (∀ (s : State) (k : Nat) (b : Bead),
      s.canonical = true →
      k < 32 →
      s.rkns.length = 32 →
      s.evtRuns = true →
      s.active 4 = true →
      s.rkRuns k = false →
      s.flag Fld.RKN_CTL.OWNER [k] = false →
      s.headBead (.rkn k) = some b →
      rkListed (bits (s.rkWord k b.func) 31 26) = true →
      Completes (.reckonerDispatch k) s (fun t => t.rkRuns k = true ∧ t.rkPc k = b.func % 32768 ∧ t.get Fld.RKN_STAT.HANDLE [k] = b.handle % 16384
      ∧ (List.range 4).all (fun n => t.reg .RKN_S [k, n] == w32 (b.args.getD n 0)) = true ∧ t.reg .RKN_S [k, 4] = w32 b.handle ∧ t.reg .RKN_S [k, 5] = 0
      ∧ t.tly.beads = s.tly.beads.map (fun x => if x.handle == b.handle && x.waiting then { x with waiting := false, holder := some (.rkn k) } else x)))

/-- Kiln serves the request at the head of its queue: random bytes, report, certificate, an imported or a derived key, or the result it refuses with.
GET_RANDOM writes OUT_LEN random bytes, ATTEST the report over its nonce, GET_CERT the certificate, each completing OK with its length; a failed TRNG
gives RNG_FAIL. IMPORT of a good blob sets the target when its tag verifies and gives AUTH and leaves it when not; an empty KEK gives NO_KEY. DERIVE
sets the target. The DRBG is reseeded. What cryptography computes is a free value of the model. -/
def Obligations.MailboxCommandsComplete : Prop :=
  (∀ (s : State) (m : MbReq) (q : List MbReq),
      s.canonical = true →
      s.mbHead m q 1 →
      mbCore m.rq = true →
      s.mbReach m.rq m.addr 64 = true →
      1 ≤ (m.fld s 0x28 4) ∧ (m.fld s 0x28 4) ≤ 65536 →
      s.mbReach m.rq (m.fld s 0x20 8) (m.fld s 0x28 4) = true →
      s.kiln.trngFailed = false →
      Completes (.getRandom) s (fun t => t.mbServed m q 0 (m.fld s 0x28 4)
      ∧ t.mem = (s.memWrite .kiln (m.fld s 0x20 8) (slice (Config.drbg s.free (m.fld s 0x28 4)) 0 (m.fld s 0x28 4))).2.mem)) ∧
  (∀ (s : State) (m : MbReq) (q : List MbReq),
      s.canonical = true →
      s.mbHead m q 1 →
      mbCore m.rq = true →
      s.mbReach m.rq m.addr 64 = true →
      1 ≤ (m.fld s 0x28 4) ∧ (m.fld s 0x28 4) ≤ 65536 →
      s.mbReach m.rq (m.fld s 0x20 8) (m.fld s 0x28 4) = true →
      s.kiln.trngFailed = true →
      Completes (.getRandom) s (fun t => t.mbServed m q 10 0 ∧ t.mem = s.mem)) ∧
  (∀ (s : State) (m : MbReq) (q : List MbReq),
      s.canonical = true →
      s.mbHead m q 2 →
      (mbCore m.rq = true → s.mbReach m.rq m.addr 64 = true) →
      (m.fld s 0x18 4) = 32 →
      3661 ≤ (m.fld s 0x28 4) →
      s.mbReach m.rq (m.fld s 0x10 8) (m.fld s 0x18 4) = true →
      s.mbReach m.rq (m.fld s 0x20 8) 3661 = true →
      Completes (.klnAttest) s (fun t => t.mbServed m q 0 3661
      ∧ t.mem = (s.memWrite .kiln (m.fld s 0x20 8) (s.attest (s.bytes (m.fld s 0x10 8) (m.fld s 0x18 4)))).2.mem)) ∧
  (∀ (s : State) (m : MbReq) (q : List MbReq),
      s.canonical = true →
      s.mbHead m q 3 →
      (mbCore m.rq = true → s.mbReach m.rq m.addr 64 = true) →
      5552 ≤ (m.fld s 0x28 4) →
      s.mbReach m.rq (m.fld s 0x20 8) 5552 = true →
      Completes (.getCert) s (fun t => t.mbServed m q 0 5552 ∧ t.mem = (s.memWrite .kiln (m.fld s 0x20 8) (slice Config.deviceCert 0 5552)).2.mem)) ∧
  (∀ (s : State) (m : MbReq) (q : List MbReq) (k : Bytes),
      s.canonical = true →
      s.mbHead m q 5 →
      (m.fld s 0x18 4) = 64 →
      (m.fld s 8 4) < 8192 →
      (if mbCore m.rq = true then s.slotWriter m.rq (m.fld s 8 4) else bitOf (leAt (s.slotGroup (m.fld s 8 4)) 3 1) 0) = true →
      (mbCore m.rq = true → s.mbReach m.rq m.addr 64 = true) →
      s.mbReach m.rq (m.fld s 0x10 8) 64 = true →
      s.slotKey (m.fld s 4 4) = some k →
      k.length = 32 →
      s.slotMay 5 (m.fld s 4 4) = true →
      leAt (s.bytes (m.fld s 0x10 8) (m.fld s 0x18 4)) 0 1 = 16 ∨ leAt (s.bytes (m.fld s 0x10 8) (m.fld s 0x18 4)) 0 1 = 32 →
      leAt (s.bytes (m.fld s 0x10 8) (m.fld s 0x18 4)) 1 3 = 0 →
      allZero (slice (s.bytes (m.fld s 0x10 8) (m.fld s 0x18 4)) (16 + leAt (s.bytes (m.fld s 0x10 8) (m.fld s 0x18 4)) 0 1) (32 - leAt (s.bytes (m.fld s 0x10 8) (m.fld s 0x18 4)) 0 1)) = true →
      Completes (.klnImport) s (fun t => t.mbServed m q (if gcmTag k (slice (s.bytes (m.fld s 0x10 8) (m.fld s 0x18 4)) 4 12) (importAad (m.fld s 8 4) (leAt (s.bytes (m.fld s 0x10 8) (m.fld s 0x18 4)) 0 1)) (slice (s.bytes (m.fld s 0x10 8) (m.fld s 0x18 4)) 16 (leAt (s.bytes (m.fld s 0x10 8) (m.fld s 0x18 4)) 0 1)) 16 = slice (s.bytes (m.fld s 0x10 8) (m.fld s 0x18 4)) 48 16 then 0 else 9) 0
      ∧ t.slotKey (m.fld s 8 4) = (if gcmTag k (slice (s.bytes (m.fld s 0x10 8) (m.fld s 0x18 4)) 4 12) (importAad (m.fld s 8 4) (leAt (s.bytes (m.fld s 0x10 8) (m.fld s 0x18 4)) 0 1)) (slice (s.bytes (m.fld s 0x10 8) (m.fld s 0x18 4)) 16 (leAt (s.bytes (m.fld s 0x10 8) (m.fld s 0x18 4)) 0 1)) 16 = slice (s.bytes (m.fld s 0x10 8) (m.fld s 0x18 4)) 48 16 then some (aesCtr 2 k (slice (s.bytes (m.fld s 0x10 8) (m.fld s 0x18 4)) 4 12) (slice (s.bytes (m.fld s 0x10 8) (m.fld s 0x18 4)) 16 (leAt (s.bytes (m.fld s 0x10 8) (m.fld s 0x18 4)) 0 1))) else s.slotKey (m.fld s 8 4)))) ∧
  (∀ (s : State) (m : MbReq) (q : List MbReq),
      s.canonical = true →
      s.mbHead m q 5 →
      (m.fld s 0x18 4) = 64 →
      (m.fld s 8 4) < 8192 →
      (if mbCore m.rq = true then s.slotWriter m.rq (m.fld s 8 4) else bitOf (leAt (s.slotGroup (m.fld s 8 4)) 3 1) 0) = true →
      (mbCore m.rq = true → s.mbReach m.rq m.addr 64 = true) →
      s.mbReach m.rq (m.fld s 0x10 8) 64 = true →
      s.slotKey (m.fld s 4 4) = none →
      Completes (.klnImport) s (fun t => t.mbServed m q 11 0 ∧ t.kiln.slots = s.kiln.slots)) ∧
  (∀ (s : State) (m : MbReq) (q : List MbReq),
      s.canonical = true →
      s.mbHead m q 6 →
      mbCore m.rq = true →
      s.mbReach m.rq m.addr 64 = true →
      (m.fld s 0x18 4) = 16 →
      (m.fld s 4 4) < 8192 →
      (m.fld s 8 4) = 16 ∨ (m.fld s 8 4) = 32 →
      s.slotWriter m.rq (m.fld s 4 4) = true →
      bitOf (leAt (s.slotGroup (m.fld s 4 4)) 3 1) 1 = true →
      s.mbReach m.rq (m.fld s 0x10 8) 16 = true →
      Completes (.klnDerive) s (fun t => t.mbServed m q 0 0 ∧ t.slotKey (m.fld s 4 4) = some (s.kdf ([0x53, 0x4C, 0x4F,
      0x54] ++ (s.bytes (m.fld s 0x10 8) (m.fld s 0x18 4))) (m.fld s 8 4)))) ∧
  (∀ (s : State),
      s.pwr.powered.contains 6 = true →
      s.mode ≠ 5 →
      s.kiln.trngFailed = false →
      Completes (.drbgReseed) s (fun t => t.kiln.reseedAt = s.now ∧ t.kiln.trngFails = 0 ∧ t.kiln.slots = s.kiln.slots))

/-- Every token is judged by R439: its result and a new nonce, and, when every condition holds, the effect its KIND has. A token at the head of the
mailbox is served with its result and the nonce is replaced. One that meets every condition of R439 is accepted: DEPLOY, RETURN and SCRAP stage their
lifecycle when none is pending, KEY_ADD stores its pair in the first free place, KEY_REVOKE removes the named pair unless it is the last, LOCK with a
newer serial and the authority's KEYID becomes the lock and clears the grants, DEBUG opens debug where it is allowed. What a signature or digest is,
is a free value of the model. -/
def Obligations.TokensComplete : Prop :=
  (∀ (s : State) (m : MbReq) (q : List MbReq) (b : Bytes),
      s.canonical = true →
      s.tokenHead m q 1 b →
      Completes (.deployToken) s (fun t => t.tokenServed s m q b ∧ (s.tokenGood 1 b → s.get Fld.IDN_LIFECYCLE.PENDING = 0 → t.mbServed m q 0 0
      ∧ t.get Fld.IDN_LIFECYCLE.PENDING = 1 ∧ t.get Fld.IDN_LIFECYCLE.PENDING_STATE = 2))) ∧
  (∀ (s : State) (m : MbReq) (q : List MbReq) (b : Bytes),
      s.canonical = true →
      s.tokenHead m q 2 b →
      Completes (.returnToken) s (fun t => t.tokenServed s m q b ∧ (s.tokenGood 2 b → s.get Fld.IDN_LIFECYCLE.PENDING = 0 → t.mbServed m q 0 0
      ∧ t.get Fld.IDN_LIFECYCLE.PENDING = 1 ∧ t.get Fld.IDN_LIFECYCLE.PENDING_STATE = 3))) ∧
  (∀ (s : State) (m : MbReq) (q : List MbReq) (b : Bytes),
      s.canonical = true →
      s.tokenHead m q 3 b →
      Completes (.scrapToken) s (fun t => t.tokenServed s m q b ∧ (s.tokenGood 3 b → s.get Fld.IDN_LIFECYCLE.PENDING = 0 → t.mbServed m q 0 0
      ∧ t.get Fld.IDN_LIFECYCLE.PENDING = 1 ∧ t.get Fld.IDN_LIFECYCLE.PENDING_STATE = 4))) ∧
  (∀ (s : State) (m : MbReq) (q : List MbReq) (b : Bytes),
      s.canonical = true →
      s.tokenHead m q 4 b →
      Completes (.keyAdd) s (fun t => t.tokenServed s m q b ∧ (∀ p, s.tokenGood 4 b → firstBelow 4 (fun p => ((s.kiln.owners[p]?).getD none).isNone) = some p
      → t.mbServed m q 0 0 ∧ t.kiln.owners = s.kiln.owners.set p (some (pairAt b 0x40))))) ∧
  (∀ (s : State) (m : MbReq) (q : List MbReq) (b : Bytes),
      s.canonical = true →
      s.tokenHead m q 5 b →
      Completes (.keyRevoke) s (fun t => t.tokenServed s m q b ∧ (∀ p, s.tokenGood 5 b
      → (List.range 4).find? (fun p => match (s.kiln.owners[p]?).getD none with | some k => k.named (leAt b 0x30 8) (leAt b 0x38 8) | none => false) = some p
      → 1 < s.owners.length → t.mbServed m q 0 0 ∧ t.kiln.owners = s.kiln.owners.set p none))) ∧
  (∀ (s : State) (m : MbReq) (q : List MbReq) (b : Bytes),
      s.canonical = true →
      s.tokenHead m q 6 b →
      Completes (.lockToken) s (fun t => t.tokenServed s m q b ∧ (s.tokenGood 6 b → (s.lockOn = false
      ∨ s.lockSerial < leAt (slice b 0x40 (64 + 32 * leAt b 0x42 1)) 8 4)
      → (s.kiln.authority.any (fun k => keyId k.ec == leAt (slice b 0x40 (64 + 32 * leAt b 0x42 1)) 12 8)) = true → t.mbServed m q 0 0
      ∧ t.kiln.lock = (slice b 0x40 (64 + 32 * leAt b 0x42 1)) ∧ t.radio.afc = []))) ∧
  (∀ (s : State) (m : MbReq) (q : List MbReq) (b : Bytes),
      s.canonical = true →
      s.tokenHead m q 7 b →
      Completes (.debugToken) s (fun t => t.tokenServed s m q b ∧ (s.tokenGood 7 b → (s.lifecycle = 3 ∨ s.debugField = some 1) → t.mbServed m q 0 0
      ∧ t.get Fld.IDN_LIFECYCLE.DEBUG_OPEN = 1 ∧ t.kiln.slots = [])))

/-- Key slots are written and cleared by their writers only, each job mode takes the next descriptor and leaves its output at DST, and completions are
popped. SLOT_WRITE and SLOT_CLEAR by a writer of the group set or empty the slot with OK, by another completes with POLICY; the staging copy reads
zero after both. The next good descriptor of a ring is taken, its mode's output stands at DST and it runs with OK or AUTH_FAIL; its completion joins
the ring's queue with its cookie, and a pop answers the oldest. What a cipher computes is a free value of the model. -/
def Obligations.SlotAndJobCommandsComplete : Prop :=
  (∀ (s : State) (rq : Req) (slot : Nat) (long : Bool),
      s.canonical = true →
      slot < 8192 →
      Passes s rq .CIP_SLOT_CTL [] true →
      s.slotWriter rq slot = true →
      Completes (.slotWrite rq slot long) s (fun t => t.answered rq 0
      ∧ t.slotKey slot = some ((((List.range 8).map (fun i => leBytes 4 (s.reg .CIP_SLOT_KEY [i] (regCopy rq .CIP_SLOT_CTL)).toNat)).flatten).take (if long = true then 32 else 16))
      ∧ t.get Fld.CIP_SLOT_STAT.VALID [] (regCopy rq .CIP_SLOT_CTL) = 1 ∧ t.get Fld.CIP_SLOT_STAT.RESULT [] (regCopy rq .CIP_SLOT_CTL) = 0
      ∧ t.get Fld.CIP_SLOT_STAT.SLOT [] (regCopy rq .CIP_SLOT_CTL) = slot
      ∧ (List.range 8).all (fun i => t.reg .CIP_SLOT_KEY [i] (regCopy rq .CIP_SLOT_CTL) == 0) = true)) ∧
  (∀ (s : State) (rq : Req) (slot : Nat) (long : Bool),
      s.canonical = true →
      slot < 8192 →
      Passes s rq .CIP_SLOT_CTL [] true →
      s.slotWriter rq slot = false →
      Completes (.slotWrite rq slot long) s (fun t => t.answered rq 0 ∧ t.kiln.slots = s.kiln.slots
      ∧ t.get Fld.CIP_SLOT_STAT.VALID [] (regCopy rq .CIP_SLOT_CTL) = 1 ∧ t.get Fld.CIP_SLOT_STAT.RESULT [] (regCopy rq .CIP_SLOT_CTL) = 1
      ∧ t.get Fld.CIP_SLOT_STAT.SLOT [] (regCopy rq .CIP_SLOT_CTL) = slot
      ∧ (List.range 8).all (fun i => t.reg .CIP_SLOT_KEY [i] (regCopy rq .CIP_SLOT_CTL) == 0) = true)) ∧
  (∀ (s : State) (rq : Req) (slot : Nat),
      s.canonical = true →
      slot < 8192 →
      Passes s rq .CIP_SLOT_CTL [] true →
      s.slotWriter rq slot = true →
      Completes (.slotClear rq slot) s (fun t => t.answered rq 0 ∧ t.slotKey slot = none ∧ t.get Fld.CIP_SLOT_STAT.VALID [] (regCopy rq .CIP_SLOT_CTL) = 1
      ∧ t.get Fld.CIP_SLOT_STAT.RESULT [] (regCopy rq .CIP_SLOT_CTL) = 0 ∧ t.get Fld.CIP_SLOT_STAT.SLOT [] (regCopy rq .CIP_SLOT_CTL) = slot
      ∧ (List.range 8).all (fun i => t.reg .CIP_SLOT_KEY [i] (regCopy rq .CIP_SLOT_CTL) == 0) = true)) ∧
  (∀ (s : State) (rq : Req) (slot : Nat),
      s.canonical = true →
      slot < 8192 →
      Passes s rq .CIP_SLOT_CTL [] true →
      s.slotWriter rq slot = false →
      Completes (.slotClear rq slot) s (fun t => t.answered rq 0 ∧ t.kiln.slots = s.kiln.slots
      ∧ t.get Fld.CIP_SLOT_STAT.VALID [] (regCopy rq .CIP_SLOT_CTL) = 1 ∧ t.get Fld.CIP_SLOT_STAT.RESULT [] (regCopy rq .CIP_SLOT_CTL) = 1
      ∧ t.get Fld.CIP_SLOT_STAT.SLOT [] (regCopy rq .CIP_SLOT_CTL) = slot
      ∧ (List.range 8).all (fun i => t.reg .CIP_SLOT_KEY [i] (regCopy rq .CIP_SLOT_CTL) == 0) = true)) ∧
  (∀ (s : State) (r : Nat) (key : Bytes),
      s.canonical = true →
      s.jobReady r 1 key →
      Completes (.gcmEnc r) s (fun t => t.jobTaken s r 1 key)) ∧
  (∀ (s : State) (r : Nat) (key : Bytes),
      s.canonical = true →
      s.jobReady r 2 key →
      Completes (.gcmDec r) s (fun t => t.jobTaken s r 2 key)) ∧
  (∀ (s : State) (r : Nat) (key : Bytes),
      s.canonical = true →
      s.jobReady r 3 key →
      Completes (.gmacGen r) s (fun t => t.jobTaken s r 3 key)) ∧
  (∀ (s : State) (r : Nat) (key : Bytes),
      s.canonical = true →
      s.jobReady r 4 key →
      Completes (.gmacVer r) s (fun t => t.jobTaken s r 4 key)) ∧
  (∀ (s : State) (r : Nat) (key : Bytes),
      s.canonical = true →
      s.jobReady r 5 key →
      Completes (.ccmEnc r) s (fun t => t.jobTaken s r 5 key)) ∧
  (∀ (s : State) (r : Nat) (key : Bytes),
      s.canonical = true →
      s.jobReady r 6 key →
      Completes (.ccmDec r) s (fun t => t.jobTaken s r 6 key)) ∧
  (∀ (s : State) (r : Nat) (key : Bytes),
      s.canonical = true →
      s.jobReady r 7 key →
      Completes (.xtsEnc r) s (fun t => t.jobTaken s r 7 key)) ∧
  (∀ (s : State) (r : Nat) (key : Bytes),
      s.canonical = true →
      s.jobReady r 8 key →
      Completes (.xtsDec r) s (fun t => t.jobTaken s r 8 key)) ∧
  (∀ (s : State) (r : Nat) (key : Bytes),
      s.canonical = true →
      s.jobReady r 9 key →
      Completes (.cipCtr r) s (fun t => t.jobTaken s r 9 key)) ∧
  (∀ (s : State) (r : Nat) (key : Bytes),
      s.canonical = true →
      s.jobReady r 10 key →
      Completes (.cmacGen r) s (fun t => t.jobTaken s r 10 key)) ∧
  (∀ (s : State) (r : Nat) (key : Bytes),
      s.canonical = true →
      s.jobReady r 11 key →
      Completes (.cmacVer r) s (fun t => t.jobTaken s r 11 key)) ∧
  (∀ (s : State) (r : Nat) (j : Job),
      r < 4 →
      s.kiln.jobCpl.length = 4 →
      s.active 5 = true →
      s.kiln.jobs.find? (fun j => j.ring == r) = some j →
      Completes (.jobCompletion r) s (fun t => t.kiln.jobs = s.kiln.jobs.erase j ∧ t.jobCpls r = s.jobCpls r ++ [⟨j.index, j.status, leAt j.desc 0x38 4⟩])) ∧
  (∀ (s : State) (rq : Req) (r : Nat),
      r < 4 →
      Passes s rq .CIP_CPL_POP [r] false →
      s.jobCpls r = [] →
      Completes (.cipCplPop rq r) s (fun t => t.answered rq 0x8FFF0000 ∧ t.kiln = s.kiln)) ∧
  (∀ (s : State) (rq : Req) (r : Nat) (c : Cpl) (rest : List Cpl),
      s.canonical = true →
      r < 4 →
      Passes s rq .CIP_CPL_POP [r] false →
      s.jobCpls r = c :: rest →
      Completes (.cipCplPop rq r) s (fun t => t.answered rq (w32 (c.tag % 4096 * 2 ^ 16 + c.status)) ∧ t.jobCpls r = rest
      ∧ t.reg .CIP_CPL_INFO [r] = w32 c.info))

/-- Ash writes the next record under the next SEQ, opens, pins and closes incidents, closes coalescing windows and frees slots; IDCODE and BYPASS work.
MRAM takes the queue's head: it gets the next SEQ and joins the ring, pinned with its incident while one is open; an opening record with none open
opens one in the slot R497 picks. A window that closes with a count queues one COALESCED record. INC_QUIET without an opening record closes the
incident, whose summary waits for the next write. RELEASE frees a slot but that of the open incident. The TAP answers IDCODE 0x16400A97 and takes
BYPASS while the digital die is on. -/
def Obligations.AshAndJtagCommandsComplete : Prop :=
  (∀ (s : State) (r : AshRec) (rest : List AshRec),
      s.ash.readyAt ≤ s.now →
      s.ash.summaries = [] →
      s.ash.queue = r :: rest →
      s.ash.openSlot = none →
      ashOpens r.type r.payload = false →
      Completes (.ashRecordWrite) s (fun t => t.ash.ring = ({ r with seq := s.ash.seq } :: s.ash.ring).take 2048 ∧ t.ash.seq = (s.ash.seq + 1) % 2 ^ 32
      ∧ t.ash.queue = rest ∧ t.ash.readyAt = s.now + 2000 ∧ t.ash.slots = s.ash.slots)) ∧
  (∀ (s : State) (i : Nat) (r : AshRec) (rest : List AshRec),
      s.ash.readyAt ≤ s.now →
      s.ash.summaries = [] →
      s.ash.queue = r :: rest →
      s.ash.openSlot = some i →
      i < s.ash.slots.length →
      Completes (.ashRecordWrite) s (fun t => t.ash.ring = ({ r with seq := s.ash.seq, incident := ((s.ash.slots[i]?).getD AshSlot.reset).incident, flags := r.flags + b2n (decide (((s.ash.slots[i]?).getD AshSlot.reset).pinned.length < 256)) } :: s.ash.ring).take 2048
      ∧ t.ash.seq = (s.ash.seq + 1) % 2 ^ 32 ∧ t.ash.queue = rest ∧ t.ash.readyAt = s.now + 2000 ∧ t.ash.openSlot = some i
      ∧ ((t.ash.slots[i]?).getD AshSlot.reset).pinned = (if decide (((s.ash.slots[i]?).getD AshSlot.reset).pinned.length < 256) then ((s.ash.slots[i]?).getD AshSlot.reset).pinned ++ [{ r with seq := s.ash.seq, incident := ((s.ash.slots[i]?).getD AshSlot.reset).incident, flags := r.flags + b2n (decide (((s.ash.slots[i]?).getD AshSlot.reset).pinned.length < 256)) }] else ((s.ash.slots[i]?).getD AshSlot.reset).pinned)
      ∧ ((t.ash.slots[i]?).getD AshSlot.reset).total = ((s.ash.slots[i]?).getD AshSlot.reset).total + 1)) ∧
  (∀ (s : State) (r : AshRec) (rest : List AshRec),
      s.ash.readyAt ≤ s.now →
      s.ash.summaries = [] →
      s.ash.queue = r :: rest →
      s.ash.openSlot = none →
      ashOpens r.type r.payload = true →
      s.ash.slots.length = 8 →
      Completes (.ashRecordWrite) s (fun t => t.ash.ring = ({ r with seq := s.ash.seq, incident := s.ash.nextIncident, flags := r.flags + 1 } :: s.ash.ring).take 2048
      ∧ t.ash.seq = (s.ash.seq + 1) % 2 ^ 32 ∧ t.ash.queue = rest ∧ t.ash.readyAt = s.now + 2000 ∧ t.ash.openSlot = some (ashPick s.ash.slots).1
      ∧ t.ash.nextIncident = s.ash.nextIncident % 65535 + 1 ∧ t.ash.lastOpening = s.now
      ∧ ((t.ash.slots[(ashPick s.ash.slots).1]?).getD AshSlot.reset).used = true)) ∧
  (∀ (s : State) (r : AshRec) (rest : List AshRec),
      s.ash.readyAt ≤ s.now →
      s.ash.summaries = r :: rest →
      Completes (.ashRecordWrite) s (fun t => t.ash.ring = ({ r with seq := s.ash.seq } :: s.ash.ring).take 2048 ∧ t.ash.seq = (s.ash.seq + 1) % 2 ^ 32
      ∧ t.ash.summaries = rest ∧ t.ash.queue = s.ash.queue)) ∧
  (∀ (s : State) (i : Nat) (c : AshCoal),
      s.ash.coal[i]? = some c →
      c.closes ≤ s.now →
      c.count ≠ 0 →
      s.ash.queue.length < 112 →
      Completes (.coalesceClose i) s (fun t => t.ash.coal = s.ash.coal.eraseIdx i
      ∧ t.ash.queue = s.ash.queue ++ [{ c.last with count := min c.count 65535, flags := c.last.flags + 2 }])) ∧
  (∀ (s : State) (i : Nat) (c : AshCoal),
      s.ash.coal[i]? = some c →
      c.closes ≤ s.now →
      c.count = 0 →
      Completes (.coalesceClose i) s (fun t => t.ash.coal = s.ash.coal.eraseIdx i ∧ t.ash.queue = s.ash.queue)) ∧
  (∀ (s : State) (i : Nat),
      s.ash.openSlot = some i →
      s.ash.lastOpening + max 1 (s.get Fld.ASH_CFG.INC_QUIET) * 1000000000 ≤ s.now →
      Completes (.incidentClose) s (fun t => t.ash.openSlot = none ∧ t.ash.slots = s.ash.slots ∧ t.ash.summaries.length = s.ash.summaries.length + 1
      ∧ (t.ash.summaries.getLast?.map (fun x => (x.type, x.incident, slice x.payload 0 15))) = some (0x10, ((s.ash.slots[i]?).getD AshSlot.reset).incident,
      leBytes 4 ((s.ash.slots[i]?).getD AshSlot.reset).openSeconds ++ leBytes 4 ((s.ash.slots[i]?).getD AshSlot.reset).openNs ++ leBytes 4 ((s.ash.slots[i]?).getD AshSlot.reset).total ++ leBytes 2 ((s.ash.slots[i]?).getD AshSlot.reset).pinned.length ++ [0]))) ∧
  (∀ (s : State) (rq : Req) (slot : Nat),
      slot < 8 →
      Passes s rq .ASH_CTL [] true →
      s.ash.openSlot ≠ some slot →
      s.ash.slots.length = 8 →
      Completes (.ashRelease rq slot) s (fun t => t.answered rq 0 ∧ ((t.ash.slots[slot]?).getD AshSlot.reset).used = false
      ∧ ((t.ash.slots[slot]?).getD AshSlot.reset).pinned = ((s.ash.slots[slot]?).getD AshSlot.reset).pinned)) ∧
  (∀ (s : State) (rq : Req) (slot : Nat),
      slot < 8 →
      Passes s rq .ASH_CTL [] true →
      s.ash.openSlot = some slot →
      Completes (.ashRelease rq slot) s (fun t => t.answered rq 0 ∧ t.ash = s.ash)) ∧
  (∀ (s : State),
      s.pwr.powered.contains 6 = true →
      Completes (.jtagIdcode) s (fun t => t.outs = ⟨.tdo, [0x16400A97], []⟩ :: s.outs ∧ t.ports.tapIr = 0)) ∧
  (∀ (s : State),
      s.pwr.powered.contains 6 = true →
      Completes (.jtagBypass) s (fun t => t.ports.tapIr = 1 ∧ t.outs = s.outs))

/-- Links come up and go down, functions are presented, reset and configured, flash operations start and complete, and GPIO edges are latched. A lane
without lock inverts its receive data. A port up shows LINK and its lanes LOCK, a port down clears both and is counted. PERST# rise presents the
stored host section with Request Retry Status until 20 ms, PERST# fall and a function-level reset clear MSI-X Enable. Configuration requests are
answered successful, unsupported or retry, and those that set MSI-X or PTM set it. An xSPI operation starts, completes with ACCESS below 32 MiB, or
waits for the one under way (entry 66); with no other held, READ, PROGRAM and the erases leave in memory and flash what R524 says, and one that the
device fails reports 2. A GPIO edge shows the new level and, where enabled, is latched. -/
def Obligations.PortCommandsComplete : Prop :=
  (∀ (s : State) (n : Nat),
      s.canonical = true →
      n < 8 →
      s.lanesOn = true →
      s.laneUse n ≠ 0 →
      s.flag Fld.SDS_LANE_STAT.LOCK [n] = false →
      Completes (.polarityRetry n) s (fun t => t.get Fld.SDS_LANE_STAT.RX_INV [n] = 1 - s.get Fld.SDS_LANE_STAT.RX_INV [n])) ∧
  (∀ (s : State) (p speed : Nat) (pos eye : List Nat),
      s.canonical = true →
      s.lanesOn = true →
      p < 10 →
      s.portUp p = false →
      s.ports.up.length = 10 →
      (s.lanesOfPort p) ≠ [] →
      Completes (.linkUp p speed pos eye) s (fun t => t.portUp p = true ∧ (s.lanesOfPort p).all (fun n => t.flag Fld.SDS_LANE_STAT.LOCK [n]) = true ∧ (p < 8
      → t.get Fld.SDS_PORT_STAT.LINK [p] = 1 ∧ t.get Fld.SDS_PORT_STAT.AN_DONE [p] = b2n ((s.lanesOfPort p).all (fun n => bitOf (s.laneFlags n) 1))
      ∧ (s.running 5 = true → t.get Fld.TMG_PORT_CFG_W0.LINK [p] = 1)))) ∧
  (∀ (s : State) (p : Nat),
      s.canonical = true →
      p < 10 →
      s.portUp p = true →
      s.ports.up.length = 10 →
      Completes (.linkDown p) s (fun t => t.portUp p = false ∧ (s.lanesOfPort p).all (fun n => !t.flag Fld.SDS_LANE_STAT.LOCK [n]) = true ∧ (p < 8
      → t.get Fld.SDS_PORT_STAT.LINK [p] = 0 ∧ (t.reg .SDS_CNT_LINK_DOWN [p]).toNat = min (2 ^ 32 - 1) ((s.reg .SDS_CNT_LINK_DOWN [p]).toNat + 1)))) ∧
  (∀ (s : State) (reversed : Bool) (gen width : Nat),
      s.canonical = true →
      s.ports.hostPresented.isSome = true →
      1 ≤ gen ∧ gen ≤ 5 →
      width = 1 ∨ width = 2 ∨ width = 4 →
      Completes (.hlLink true reversed gen width) s (fun t => t.get Fld.HL_STAT.LINK_UP = 1 ∧ t.get Fld.HL_STAT.REVERSED = b2n reversed
      ∧ t.get Fld.HL_STAT.GEN = gen ∧ t.get Fld.HL_STAT.WIDTH = width)) ∧
  (∀ (s : State) (reversed : Bool) (gen width : Nat),
      s.canonical = true →
      s.flag Fld.HL_STAT.LINK_UP = true →
      Completes (.hlLink false reversed gen width) s (fun t => t.get Fld.HL_STAT.LINK_UP = 0 ∧ t.get Fld.HL_STAT.GEN = 0 ∧ t.get Fld.HL_STAT.WIDTH = 0)) ∧
  (∀ (s : State),
      s.canonical = true →
      s.ports.perst = false →
      s.mode ≠ 0 ∧ s.mode ≠ 2 →
      s.boot.ctReady = true ∨ s.mode ≠ 1 →
      Completes (.perstRise) s (fun t => t.ports.perst = true ∧ t.ports.perstAt = s.now ∧ t.ports.retry = true
      ∧ t.ports.hostPresented = some (if s.lifecycle = 0 then bootHost else s.ports.hostStored.getD bootHost)
      ∧ t.get Fld.HL_STAT.FUNCS = leAt ((if s.lifecycle = 0 then bootHost else s.ports.hostStored.getD bootHost)) 2 1 % 16)) ∧
  (∀ (s : State),
      s.canonical = true →
      s.ports.perst = true →
      s.evt.msixEn.length = 8 →
      Completes (.perstFall) s (fun t => t.ports.perst = false ∧ t.ports.hostPresented = none ∧ t.ports.retry = false ∧ t.evt.msixEn = List.replicate 8 false
      ∧ t.get Fld.HL_STAT.FUNCS = 0 ∧ t.get Fld.HL_STAT.LINK_UP = 0 ∧ (s.running 5 = true
      → (List.range 8).all (fun f => !t.flag Fld.FLW_SW_TX_CFG.EN [f + 1]) = true))) ∧
  (∀ (s : State) (f : Nat),
      s.canonical = true →
      f < s.hostFuncs →
      f < 8 →
      s.evt.msixEn.length = 8 →
      Completes (.functionLevelReset f) s (fun t => t.evt.msixEn = s.evt.msixEn.set f false ∧ (s.running 5 = true
      → t.flag Fld.FLW_SW_TX_CFG.EN [f + 1] = false))) ∧
  (∀ (s : State),
      s.ports.retry = true →
      s.ports.perstAt + 20000000 ≤ s.now →
      Completes (.retryStatusEnd) s (fun t => t.ports.retry = false ∧ t.ports.hostPresented = s.ports.hostPresented)) ∧
  (∀ (s : State) (f : Nat) (q : CfgReq),
      s.ports.hostPresented.isSome = true →
      s.ports.retry = true →
      Completes (.configurationRequest f q) s (fun t => t.outs = ⟨.host, [f, 2], []⟩ :: s.outs ∧ t.evt = s.evt ∧ t.ntu = s.ntu)) ∧
  (∀ (s : State) (f : Nat) (q : CfgReq),
      s.ports.hostPresented.isSome = true →
      s.ports.retry = false →
      s.hostFuncs ≤ f →
      Completes (.configurationRequest f q) s (fun t => t.outs = ⟨.host, [f, 1], []⟩ :: s.outs ∧ t.evt = s.evt ∧ t.ntu = s.ntu)) ∧
  (∀ (s : State) (f : Nat) (en mask : Bool),
      s.ports.hostPresented.isSome = true →
      s.ports.retry = false →
      f < s.hostFuncs →
      Completes (.configurationRequest f (.msix en mask)) s (fun t => t.outs.contains ⟨.host, [f, 0], []⟩ = true ∧ t.evt.msixEn = s.evt.msixEn.set f en
      ∧ t.evt.fnMask = s.evt.fnMask.set f mask)) ∧
  (∀ (s : State) (f : Nat) (en : Bool),
      s.ports.hostPresented.isSome = true →
      s.ports.retry = false →
      f < s.hostFuncs →
      Completes (.configurationRequest f (.ptm en)) s (fun t => t.outs = ⟨.host, [f, 0], []⟩ :: s.outs ∧ t.evt = s.evt ∧ t.ntu.ptmEnabled = (if f = 0
      ∧ bitOf (leAt (s.ports.hostPresented.getD []) 3 1) 0 = true then en else s.ntu.ptmEnabled))) ∧
  (∀ (s : State) (f : Nat) (write : Bool),
      s.ports.hostPresented.isSome = true →
      s.ports.retry = false →
      f < s.hostFuncs →
      Completes (.configurationRequest f (.other write)) s (fun t => t.outs = ⟨.host, [f, 0], []⟩ :: s.outs ∧ t.evt = s.evt ∧ t.ntu = s.ntu)) ∧
  (∀ (s : State) (rq : Req) (v : Word),
      s.canonical = true →
      s.ports.spi = none →
      Passes s rq .XIO_SPI_CTL [] true →
      okPort .XIO_SPI_CTL [] (wset v 31 28 1) rq s = true →
      0x2000000 ≤ (s.reg .XIO_SPI_ADDR).toNat →
      Completes (.xspiRead rq v) s (fun t => t.answered rq 0 ∧ t.ports.spi = some (1, wbits v 16 0, (s.reg .XIO_SPI_ADDR).toNat, (s.reg .XIO_SPI_SYS).toNat)
      ∧ t.get Fld.XIO_SPI_STAT.VALID = 0)) ∧
  (∀ (s : State) (rq : Req) (v : Word),
      s.canonical = true →
      s.ports.spi = none →
      Passes s rq .XIO_SPI_CTL [] true →
      okPort .XIO_SPI_CTL [] (wset v 31 28 2) rq s = true →
      0x2000000 ≤ (s.reg .XIO_SPI_ADDR).toNat →
      Completes (.xspiProgram rq v) s (fun t => t.answered rq 0 ∧ t.ports.spi = some (2, wbits v 16 0, (s.reg .XIO_SPI_ADDR).toNat, (s.reg .XIO_SPI_SYS).toNat)
      ∧ t.get Fld.XIO_SPI_STAT.VALID = 0)) ∧
  (∀ (s : State) (rq : Req) (v : Word),
      s.canonical = true →
      s.ports.spi = none →
      Passes s rq .XIO_SPI_CTL [] true →
      okPort .XIO_SPI_CTL [] (wset v 31 28 3) rq s = true →
      0x2000000 ≤ (s.reg .XIO_SPI_ADDR).toNat →
      Completes (.xspiErase4K rq v) s (fun t => t.answered rq 0 ∧ t.ports.spi = some (3, wbits v 16 0, (s.reg .XIO_SPI_ADDR).toNat, (s.reg .XIO_SPI_SYS).toNat)
      ∧ t.get Fld.XIO_SPI_STAT.VALID = 0)) ∧
  (∀ (s : State) (rq : Req) (v : Word),
      s.canonical = true →
      s.ports.spi = none →
      Passes s rq .XIO_SPI_CTL [] true →
      okPort .XIO_SPI_CTL [] (wset v 31 28 4) rq s = true →
      0x2000000 ≤ (s.reg .XIO_SPI_ADDR).toNat →
      Completes (.xspiErase64K rq v) s (fun t => t.answered rq 0 ∧ t.ports.spi = some (4, wbits v 16 0, (s.reg .XIO_SPI_ADDR).toNat,
      (s.reg .XIO_SPI_SYS).toNat) ∧ t.get Fld.XIO_SPI_STAT.VALID = 0)) ∧
  (∀ (s : State) (rq : Req) (v : Word),
      s.canonical = true →
      s.ports.spi = none →
      Passes s rq .XIO_SPI_CTL [] true →
      okPort .XIO_SPI_CTL [] (wset v 31 28 1) rq s = true →
      (s.reg .XIO_SPI_ADDR).toNat < 0x2000000 →
      Completes (.xspiRead rq v) s (fun t => t.answered rq 0 ∧ t.ports.spi = none ∧ t.flash = s.flash ∧ t.mem = s.mem ∧ t.get Fld.XIO_SPI_STAT.VALID = 1
      ∧ t.get Fld.XIO_SPI_STAT.RESULT = 1)) ∧
  (∀ (s : State) (rq : Req) (v : Word),
      s.canonical = true →
      s.ports.spi = none →
      Passes s rq .XIO_SPI_CTL [] true →
      okPort .XIO_SPI_CTL [] (wset v 31 28 2) rq s = true →
      (s.reg .XIO_SPI_ADDR).toNat < 0x2000000 →
      Completes (.xspiProgram rq v) s (fun t => t.answered rq 0 ∧ t.ports.spi = none ∧ t.flash = s.flash ∧ t.mem = s.mem ∧ t.get Fld.XIO_SPI_STAT.VALID = 1
      ∧ t.get Fld.XIO_SPI_STAT.RESULT = 1)) ∧
  (∀ (s : State) (rq : Req) (v : Word),
      s.canonical = true →
      s.ports.spi = none →
      Passes s rq .XIO_SPI_CTL [] true →
      okPort .XIO_SPI_CTL [] (wset v 31 28 3) rq s = true →
      (s.reg .XIO_SPI_ADDR).toNat < 0x2000000 →
      Completes (.xspiErase4K rq v) s (fun t => t.answered rq 0 ∧ t.ports.spi = none ∧ t.flash = s.flash ∧ t.mem = s.mem ∧ t.get Fld.XIO_SPI_STAT.VALID = 1
      ∧ t.get Fld.XIO_SPI_STAT.RESULT = 1)) ∧
  (∀ (s : State) (rq : Req) (v : Word),
      s.canonical = true →
      s.ports.spi = none →
      Passes s rq .XIO_SPI_CTL [] true →
      okPort .XIO_SPI_CTL [] (wset v 31 28 4) rq s = true →
      (s.reg .XIO_SPI_ADDR).toNat < 0x2000000 →
      Completes (.xspiErase64K rq v) s (fun t => t.answered rq 0 ∧ t.ports.spi = none ∧ t.flash = s.flash ∧ t.mem = s.mem ∧ t.get Fld.XIO_SPI_STAT.VALID = 1
      ∧ t.get Fld.XIO_SPI_STAT.RESULT = 1)) ∧
  (∀ (s : State) (rq : Req) (v : Word),
      s.ports.spi.isSome = true →
      Passes s rq .XIO_SPI_CTL [] true →
      okPort .XIO_SPI_CTL [] (wset v 31 28 1) rq s = true →
      Completes (.xspiRead rq v) s (fun t => t.held = s.held ++ [⟨rq, 0x60A0000, wset v 31 28 1, s.now⟩] ∧ t.resp = s.resp)) ∧
  (∀ (s : State) (rq : Req) (v : Word),
      s.ports.spi.isSome = true →
      Passes s rq .XIO_SPI_CTL [] true →
      okPort .XIO_SPI_CTL [] (wset v 31 28 2) rq s = true →
      Completes (.xspiProgram rq v) s (fun t => t.held = s.held ++ [⟨rq, 0x60A0000, wset v 31 28 2, s.now⟩] ∧ t.resp = s.resp)) ∧
  (∀ (s : State) (rq : Req) (v : Word),
      s.ports.spi.isSome = true →
      Passes s rq .XIO_SPI_CTL [] true →
      okPort .XIO_SPI_CTL [] (wset v 31 28 3) rq s = true →
      Completes (.xspiErase4K rq v) s (fun t => t.held = s.held ++ [⟨rq, 0x60A0000, wset v 31 28 3, s.now⟩] ∧ t.resp = s.resp)) ∧
  (∀ (s : State) (rq : Req) (v : Word),
      s.ports.spi.isSome = true →
      Passes s rq .XIO_SPI_CTL [] true →
      okPort .XIO_SPI_CTL [] (wset v 31 28 4) rq s = true →
      Completes (.xspiErase64K rq v) s (fun t => t.held = s.held ++ [⟨rq, 0x60A0000, wset v 31 28 4, s.now⟩] ∧ t.resp = s.resp)) ∧
  (∀ (s : State) (op len addr sys : Nat),
      s.canonical = true →
      s.ports.spi = some (op, len, addr, sys) →
      s.flashTaken = false →
      s.held.any (fun h => h.addr == 0x60A0000) = false →
      op = 1 →
      s.rangeCode (.engine 6 10) (64 * sys) len = 0 →
      Completes (.xspiDone true) s (fun t => t.ports.spi = none ∧ t.flash = s.flash ∧ t.mem = (s.memPut (64 * sys) (s.fbytes addr len)).mem
      ∧ t.get Fld.XIO_SPI_STAT.VALID = 1 ∧ t.get Fld.XIO_SPI_STAT.RESULT = 0)) ∧
  (∀ (s : State) (op len addr sys : Nat),
      s.canonical = true →
      s.ports.spi = some (op, len, addr, sys) →
      s.flashTaken = false →
      s.held.any (fun h => h.addr == 0x60A0000) = false →
      op = 2 →
      s.rangeCode (.engine 6 10) (64 * sys) len = 0 →
      Completes (.xspiDone true) s (fun t => t.ports.spi = none ∧ t.mem = s.mem
      ∧ t.flash = (s.fput addr ((s.fbytes addr len).zipWith (fun a b => a &&& b) (s.bytes (64 * sys) len))).flash ∧ t.get Fld.XIO_SPI_STAT.VALID = 1
      ∧ t.get Fld.XIO_SPI_STAT.RESULT = 0)) ∧
  (∀ (s : State) (op len addr sys : Nat),
      s.canonical = true →
      s.ports.spi = some (op, len, addr, sys) →
      s.flashTaken = false →
      s.held.any (fun h => h.addr == 0x60A0000) = false →
      op = 3 →
      Completes (.xspiDone true) s (fun t => t.ports.spi = none ∧ t.mem = s.mem ∧ t.flash = (s.fput (addr / 4096 * 4096) (List.replicate 4096 0xFF)).flash
      ∧ t.get Fld.XIO_SPI_STAT.VALID = 1 ∧ t.get Fld.XIO_SPI_STAT.RESULT = 0)) ∧
  (∀ (s : State) (op len addr sys : Nat),
      s.canonical = true →
      s.ports.spi = some (op, len, addr, sys) →
      s.flashTaken = false →
      s.held.any (fun h => h.addr == 0x60A0000) = false →
      op = 4 →
      Completes (.xspiDone true) s (fun t => t.ports.spi = none ∧ t.mem = s.mem ∧ t.flash = (s.fput (addr / 65536 * 65536) (List.replicate 65536 0xFF)).flash
      ∧ t.get Fld.XIO_SPI_STAT.VALID = 1 ∧ t.get Fld.XIO_SPI_STAT.RESULT = 0)) ∧
  (∀ (s : State) (op len addr sys : Nat),
      s.canonical = true →
      s.ports.spi = some (op, len, addr, sys) →
      s.flashTaken = false →
      s.held.any (fun h => h.addr == 0x60A0000) = false →
      op ≤ 2 → s.rangeCode (.engine 6 10) (64 * sys) len = 0 →
      Completes (.xspiDone false) s (fun t => t.ports.spi = none ∧ (op ≠ 1 → t.mem = s.mem) ∧ (op = 1 → t.flash = s.flash) ∧ t.get Fld.XIO_SPI_STAT.VALID = 1
      ∧ t.get Fld.XIO_SPI_STAT.RESULT = 2)) ∧
  (∀ (s : State) (n : Nat) (level : Bool),
      s.canonical = true →
      n < 32 →
      s.boot.applied.contains 6 = true →
      s.mode = 1 ∨ s.mode = 2 ∨ s.serving = true →
      s.gpioOut n = false →
      bitOf (s.reg .XIO_GPIO_IN).toNat n ≠ level →
      Completes (.gpioEdge n level) s (fun t => bitOf (t.reg .XIO_GPIO_IN).toNat n = level
      ∧ bitOf (t.reg .XIO_GPIO_EDGE).toNat n = (bitOf (s.reg .XIO_GPIO_EDGE).toNat n || bitOf (s.reg .XIO_GPIO_IRQ).toNat n)))

/-- The SMBus target performs its commands or counts what is malformed, answers reads and status, reports alerts and recovers from a stuck bus. WRITE_REG
makes its register write and keeps its code for STATUS; a bad PEC or count performs nothing, sets PEC_ERR or BAD and is counted; so for SET_ADDR and
PUSH. SET_ADDR sets pointer and burst, READ answers the words with the first code that is not OK and moves the pointer, STATUS its byte, PUSH writes
its words in order. The alert response answers the part's address while ALERT# is driven and releases it. SCL low is counted, SDA low makes the target
passive until the bus is idle. That a burst outside 1 to 60 is a bad transfer, and that SDA low counts in SMB_CNT_TIMEOUT, are the model's choices
(entry 66). -/
def Obligations.SmbusCommandsComplete : Prop :=
  (∀ (s : State) (a : Nat) (v : Word),
      s.smbOn = true →
      Completes (.smbusWriteReg a v 8 true) s (fun t => (let u := (s.portUpd (fun p => { p with smbPec := false, smbBad := false })).busWrite .smbus a 4 v
        t.regs = u.regs ∧ t.resp = u.resp ∧ t.ports.smbCode = (if s.held.length < u.held.length then 0 else (u.resp.map (·.code)).getD 0)))) ∧
  (∀ (s : State) (a count : Nat) (v : Word),
      s.canonical = true →
      s.smbOn = true →
      Completes (.smbusWriteReg a v count false) s (fun t => t.ports.smbPec = true ∧ t.resp = s.resp
      ∧ (t.reg .SMB_CNT_PEC).toNat = min (2 ^ 32 - 1) ((s.reg .SMB_CNT_PEC).toNat + 1))) ∧
  (∀ (s : State) (a count : Nat) (v : Word),
      s.canonical = true →
      s.smbOn = true →
      count ≠ 8 →
      Completes (.smbusWriteReg a v count true) s (fun t => t.ports.smbBad = true ∧ t.resp = s.resp
      ∧ (t.reg .SMB_CNT_BAD).toNat = min (2 ^ 32 - 1) ((s.reg .SMB_CNT_BAD).toNat + 1))) ∧
  (∀ (s : State) (a burst : Nat),
      s.smbOn = true →
      1 ≤ burst ∧ burst ≤ 60 →
      Completes (.smbusSetAddr a burst 5 true) s (fun t => t.ports.smbPtr = a ∧ t.ports.smbBurst = burst ∧ t.ports.smbPec = false ∧ t.ports.smbBad = false)) ∧
  (∀ (s : State) (a burst count : Nat),
      s.canonical = true →
      s.smbOn = true →
      Completes (.smbusSetAddr a burst count false) s (fun t => t.ports.smbPec = true ∧ t.ports.smbPtr = s.ports.smbPtr ∧ t.ports.smbBurst = s.ports.smbBurst
      ∧ (t.reg .SMB_CNT_PEC).toNat = min (2 ^ 32 - 1) ((s.reg .SMB_CNT_PEC).toNat + 1))) ∧
  (∀ (s : State) (a burst count : Nat),
      s.canonical = true →
      s.smbOn = true →
      count ≠ 5 ∨ burst < 1 ∨ 60 < burst →
      Completes (.smbusSetAddr a burst count true) s (fun t => t.ports.smbBad = true ∧ t.ports.smbPtr = s.ports.smbPtr ∧ t.ports.smbBurst = s.ports.smbBurst
      ∧ (t.reg .SMB_CNT_BAD).toNat = min (2 ^ 32 - 1) ((s.reg .SMB_CNT_BAD).toNat + 1))) ∧
  (∀ (s : State),
      s.smbOn = true →
      s.ports.smbBurst ≤ 60 →
      Completes (.smbusRead) s (fun t => (let x := State.smbWords s.ports.smbBurst s.ports.smbPtr s
        t.outs.head? = some ⟨.smbus, [0x13], [b8 (4 * s.ports.smbBurst + 1)] ++ x.1 ++ [b8 x.2.1]⟩
      ∧ t.ports.smbPtr = (x.2.2.ports.smbPtr + 4 * s.ports.smbBurst) % 2 ^ 32 ∧ x.1.length = 4 * s.ports.smbBurst))) ∧
  (∀ (s : State),
      s.smbOn = true →
      Completes (.smbusStatus) s (fun t => t.outs = ⟨.smbus, [0x14],
      [b8 (b2n s.pushFull * 128 + b2n s.ports.smbPec * 64 + b2n s.ports.smbBad * 32 + s.ports.smbCode % 16)]⟩ :: s.outs ∧ t.ports = s.ports)) ∧
  (∀ (s : State) (d : Bytes) (count : Nat),
      s.canonical = true →
      s.smbOn = true →
      Completes (.smbusPush d count false) s (fun t => t.ports.smbPec = true ∧ t.push = s.push)) ∧
  (∀ (s : State) (d : Bytes) (count : Nat),
      s.canonical = true →
      s.smbOn = true →
      count ≠ d.length ∨ count < 4 ∨ 252 < count ∨ count % 4 ≠ 0 →
      Completes (.smbusPush d count true) s (fun t => t.ports.smbBad = true ∧ t.push = s.push
      ∧ (t.reg .SMB_CNT_BAD).toNat = min (2 ^ 32 - 1) ((s.reg .SMB_CNT_BAD).toNat + 1))) ∧
  (∀ (s : State) (d : Bytes),
      s.smbOn = true →
      4 ≤ d.length ∧ d.length ≤ 252 ∧ d.length % 4 = 0 →
      Completes (.smbusPush d d.length true) s (fun t => (let u := (List.range (d.length / 4)).foldl (fun x i => x.smbWrite 0x7000204 (w32 (leAt d (4 * i) 4))) (s.portUpd (fun p => { p with smbPec := false, smbBad := false }))
        t.push = u.push ∧ t.ports = u.ports))) ∧
  (∀ (s : State),
      s.smbOn = true →
      s.alertOn = true →
      Completes (.smbusAlertResponse) s (fun t => t.outs = ⟨.alert, [s.get Fld.WAK_EN.SMB_ADDR * 2], []⟩ :: s.outs ∧ t.alertOn = false)) ∧
  (∀ (s : State),
      s.canonical = true →
      s.smbOn = true →
      Completes (.smbusSclTimeout) s (fun t => (t.reg .SMB_CNT_TIMEOUT).toNat = min (2 ^ 32 - 1) ((s.reg .SMB_CNT_TIMEOUT).toNat + 1) ∧ t.ports = s.ports)) ∧
  (∀ (s : State),
      s.canonical = true →
      s.smbOn = true →
      Completes (.smbFault) s (fun t => t.get Fld.SMB_STAT.STUCK = 1 ∧ t.smbOn = false
      ∧ (t.reg .SMB_CNT_TIMEOUT).toNat = min (2 ^ 32 - 1) ((s.reg .SMB_CNT_TIMEOUT).toNat + 1))) ∧
  (∀ (s : State),
      s.canonical = true →
      s.mode ≠ 0 →
      Completes (.smbBusIdle) s (fun t => t.get Fld.SMB_STAT.STUCK = 0 ∧ t.smbOn = true))
end

