-- ==== Sys2Proof/Laws/Bits.lean ====
section
/-! SUPPORT. The laws of bit fields: a field after it is written, and after another is. -/
namespace Sys2Proof.Machine
theorem bits_lt (n hi lo : Nat) : bits n hi lo < 2 ^ (hi + 1 - lo) := Nat.mod_lt _ (Nat.two_pow_pos _)

theorem bits_le (n hi lo : Nat) : bits n hi lo * 2 ^ lo ≤ n :=
  Nat.le_trans (Nat.mul_le_mul_right _ (Nat.mod_le _ _)) (Nat.div_mul_le_self _ _)

/-- A number split at a field: what is below it, the field, what is above. -/
theorem split_at (n hi lo : Nat) (h : lo ≤ hi + 1) : n = n / 2 ^ (hi + 1) * 2 ^ (hi + 1) + bits n hi lo * 2 ^ lo + n % 2 ^ lo := by
  unfold bits
  have h1 := Nat.div_add_mod n (2 ^ lo)
  have h2 := Nat.div_add_mod (n / 2 ^ lo) (2 ^ (hi + 1 - lo))
  have h3 : 2 ^ (hi + 1) = 2 ^ lo * 2 ^ (hi + 1 - lo) := by rw [← Nat.pow_add]; congr 1; omega
  have h4 : n / 2 ^ lo / 2 ^ (hi + 1 - lo) = n / 2 ^ (hi + 1) := by rw [Nat.div_div_eq_div_mul, ← h3]
  rw [h4] at h2
  have e1 : n / 2 ^ (hi + 1) * 2 ^ (hi + 1) = 2 ^ lo * (2 ^ (hi + 1 - lo) * (n / 2 ^ (hi + 1))) := by
    rw [h3, Nat.mul_comm, Nat.mul_assoc]
  have e2 : n / 2 ^ lo % 2 ^ (hi + 1 - lo) * 2 ^ lo = 2 ^ lo * (n / 2 ^ lo % 2 ^ (hi + 1 - lo)) := Nat.mul_comm _ _
  rw [e1, e2, ← Nat.mul_add, h2, h1]

theorem setBits_eq (n hi lo v : Nat) (h : lo ≤ hi + 1) :
    setBits n hi lo v = n / 2 ^ (hi + 1) * 2 ^ (hi + 1) + v % 2 ^ (hi + 1 - lo) * 2 ^ lo + n % 2 ^ lo := by
  unfold setBits
  have := split_at n hi lo h
  have h2 := bits_le n hi lo
  omega

/-- The field that was written. -/
theorem bits_setBits (n hi lo v : Nat) (h : lo ≤ hi + 1) : bits (setBits n hi lo v) hi lo = v % 2 ^ (hi + 1 - lo) := by
  rw [setBits_eq n hi lo v h]
  unfold bits
  have h3 : 2 ^ (hi + 1) = 2 ^ (hi + 1 - lo) * 2 ^ lo := by rw [← Nat.pow_add]; congr 1; omega
  rw [h3, ← Nat.mul_assoc, ← Nat.add_mul, Nat.add_comm, Nat.add_mul_div_right _ _ (Nat.two_pow_pos lo),
    Nat.div_eq_of_lt (Nat.mod_lt _ (Nat.two_pow_pos lo)), Nat.zero_add, Nat.add_comm, Nat.add_mul_mod_self_right, Nat.mod_mod]

/-- A field above the one that was written. -/
theorem bits_setBits_above (n hi lo v hi' lo' : Nat) (h : lo ≤ hi + 1) (hl : hi < lo') : bits (setBits n hi lo v) hi' lo' = bits n hi' lo' := by
  rw [setBits_eq n hi lo v h]
  unfold bits
  have h3 : 2 ^ lo' = 2 ^ (hi + 1) * 2 ^ (lo' - (hi + 1)) := by rw [← Nat.pow_add]; congr 1; omega
  have hlt : v % 2 ^ (hi + 1 - lo) * 2 ^ lo + n % 2 ^ lo < 2 ^ (hi + 1) := by
    have a := Nat.mod_lt v (Nat.two_pow_pos (hi + 1 - lo))
    have b := Nat.mod_lt n (Nat.two_pow_pos lo)
    have c : 2 ^ (hi + 1) = 2 ^ (hi + 1 - lo) * 2 ^ lo := by rw [← Nat.pow_add]; congr 1; omega
    have d : (v % 2 ^ (hi + 1 - lo) + 1) * 2 ^ lo ≤ 2 ^ (hi + 1 - lo) * 2 ^ lo := Nat.mul_le_mul_right _ a
    rw [Nat.add_mul, Nat.one_mul] at d
    omega
  rw [h3, ← Nat.div_div_eq_div_mul, ← Nat.div_div_eq_div_mul, Nat.add_assoc, Nat.mul_comm (n / 2 ^ (hi + 1)),
    Nat.mul_add_div (Nat.two_pow_pos _), Nat.div_eq_of_lt hlt, Nat.add_zero]

/-- A field below the one that was written. -/
theorem bits_setBits_below (n hi lo v hi' lo' : Nat) (h : lo ≤ hi + 1) (hl : hi' < lo) : bits (setBits n hi lo v) hi' lo' = bits n hi' lo' := by
  have key : ∀ m, bits m hi' lo' = (m % 2 ^ lo) / 2 ^ lo' % 2 ^ (hi' + 1 - lo') := by
    intro m
    unfold bits
    by_cases hh : lo' ≤ hi' + 1
    · have e : 2 ^ lo = 2 ^ lo' * 2 ^ (lo - lo') := by rw [← Nat.pow_add]; congr 1; omega
      rw [e, Nat.mod_mul_right_div_self, Nat.mod_mod_of_dvd]
      exact Nat.pow_dvd_pow 2 (by omega)
    · have : hi' + 1 - lo' = 0 := by omega
      simp [this, Nat.mod_one]
  rw [key, key n, setBits_eq n hi lo v h]
  congr 2
  have h3 : 2 ^ (hi + 1) = 2 ^ (hi + 1 - lo) * 2 ^ lo := by rw [← Nat.pow_add]; congr 1; omega
  rw [h3, ← Nat.mul_assoc, ← Nat.add_mul, Nat.add_comm, Nat.add_mul_mod_self_right, Nat.mod_mod]

theorem setBits_lt (n hi lo v : Nat) (h : lo ≤ hi + 1) (hi31 : hi < 32) (hn : n < 2 ^ 32) : setBits n hi lo v < 2 ^ 32 := by
  rw [setBits_eq n hi lo v h]
  have a := Nat.mod_lt v (Nat.two_pow_pos (hi + 1 - lo))
  have b := Nat.mod_lt n (Nat.two_pow_pos lo)
  have c : 2 ^ (hi + 1) = 2 ^ (hi + 1 - lo) * 2 ^ lo := by rw [← Nat.pow_add]; congr 1; omega
  have d : (v % 2 ^ (hi + 1 - lo) + 1) * 2 ^ lo ≤ 2 ^ (hi + 1 - lo) * 2 ^ lo := Nat.mul_le_mul_right _ a
  rw [Nat.add_mul, Nat.one_mul] at d
  have e : (2 : Nat) ^ 32 = 2 ^ (31 - hi) * 2 ^ (hi + 1) := by rw [← Nat.pow_add]; congr 1; omega
  have f : n / 2 ^ (hi + 1) < 2 ^ (31 - hi) := by
    rw [Nat.div_lt_iff_lt_mul (Nat.two_pow_pos _), ← e]; exact hn
  have g : (n / 2 ^ (hi + 1) + 1) * 2 ^ (hi + 1) ≤ 2 ^ (31 - hi) * 2 ^ (hi + 1) := Nat.mul_le_mul_right _ f
  rw [Nat.add_mul, Nat.one_mul] at g
  omega

theorem wset_toNat (w : Word) (hi lo v : Nat) (h : lo ≤ hi + 1) (h31 : hi < 32) : (wset w hi lo v).toNat = setBits w.toNat hi lo v := by
  unfold wset
  rw [BitVec.toNat_ofNat]
  exact Nat.mod_eq_of_lt (setBits_lt _ _ _ _ h h31 w.isLt)

/-- A word's field after it is written. -/
theorem wbits_wset (w : Word) (hi lo v : Nat) (h : lo ≤ hi + 1) (h31 : hi < 32) : wbits (wset w hi lo v) hi lo = v % 2 ^ (hi + 1 - lo) := by
  unfold wbits
  rw [wset_toNat w hi lo v h h31, bits_setBits _ _ _ _ h]

/-- Another field of the word. -/
theorem wbits_wset_ne (w : Word) (hi lo v hi' lo' : Nat) (h : lo ≤ hi + 1) (h31 : hi < 32) (hd : hi < lo' ∨ hi' < lo) :
    wbits (wset w hi lo v) hi' lo' = wbits w hi' lo' := by
  unfold wbits
  rw [wset_toNat w hi lo v h h31]
  rcases hd with hd | hd
  · exact bits_setBits_above _ _ _ _ _ _ h hd
  · exact bits_setBits_below _ _ _ _ _ _ h hd

theorem wbits_lt (w : Word) (hi lo : Nat) : wbits w hi lo < 2 ^ (hi + 1 - lo) := bits_lt _ _ _

theorem wbits_full (w : Word) : wbits w 31 0 = w.toNat := by
  unfold wbits bits
  simp only [Nat.pow_zero, Nat.div_one]
  exact Nat.mod_eq_of_lt w.isLt

theorem wset_full (w : Word) (v : Nat) : wset w 31 0 v = w32 v := by
  apply BitVec.eq_of_toNat_eq
  rw [wset_toNat w 31 0 v (by omega) (by omega), setBits_eq _ _ _ _ (by omega)]
  simp only [Nat.pow_zero, Nat.mod_one, Nat.mul_one, Nat.add_zero, BitVec.toNat_ofNat]
  rw [Nat.div_eq_of_lt w.isLt]
  simp
end Sys2Proof.Machine
end

