-- ==== Sys2Proof/Laws/Store.lean ====
section
/-! SUPPORT. The laws of the sparse stores: a read after a write, and that every operation keeps the canonical form. -/
namespace Sys2Proof.Machine

theorem sget_scons {α : Type} [DecidableEq α] (d : Nat → α) (k : Nat) (v : α) (m : Store α) (k' : Nat) (h : m.all (fun e => decide (k < e.1)) = true) :
    sget d (scons d k v m) k' = if k' = k then v else sget d m k' := by
  unfold scons
  split
  · rename_i hv
    split
    · rename_i hk; subst hk
      have : sget d m k' = d k' := by
        clear hv
        induction m with
        | nil => rfl
        | cons e t ih =>
          simp only [List.all_cons, Bool.and_eq_true, decide_eq_true_eq] at h
          simp only [sget]
          rw [if_neg (by omega)]
          exact ih h.2
      rw [this, hv]
    · rfl
  · simp only [sget]
    by_cases hk : k = k' <;> simp [hk, eq_comm]

theorem above_trans {α : Type} {k k' : Nat} {m : Store α} (h : k < k') (hm : above k' m = true) : above k m = true := by
  simp only [above, List.all_eq_true, decide_eq_true_eq] at *
  intro e he
  exact Nat.lt_trans h (hm e he)

/-- A read after a write: the value written at its key, and every other key as before. -/
theorem sget_sset {α : Type} [DecidableEq α] (d : Nat → α) (m : Store α) (hm : swf d m = true) (k : Nat) (v : α) (k' : Nat) :
    sget d (sset d m k v) k' = if k' = k then v else sget d m k' := by
  induction m with
  | nil => exact sget_scons d k v [] k' rfl
  | cons e t ih =>
    obtain ⟨a, w⟩ := e
    simp only [swf, Bool.and_eq_true] at hm
    obtain ⟨⟨ha, -⟩, ht⟩ := hm
    simp only [sset]
    split
    · rename_i hlt
      apply sget_scons
      simp only [List.all_cons, Bool.and_eq_true, decide_eq_true_eq]
      exact ⟨hlt, above_trans hlt ha⟩
    · split
      · rename_i heq
        subst heq
        rw [sget_scons d k v t k' ha]
        simp only [sget]
        by_cases hk : k = k'
        · simp [hk]
        · simp [hk, Ne.symm hk]
      · simp only [sget]
        split
        · rename_i hak
          subst hak
          rw [if_neg (by omega)]
        · exact ih ht

theorem above_scons {α : Type} [DecidableEq α] (d : Nat → α) {j k : Nat} (v : α) {m : Store α} (hj : j < k) (hm : above j m = true) :
    above j (scons d k v m) = true := by
  unfold scons
  split
  · exact hm
  · simp only [above, List.all_cons, Bool.and_eq_true, decide_eq_true_eq] at *
    exact ⟨hj, hm⟩

theorem above_sset {α : Type} [DecidableEq α] (d : Nat → α) {j k : Nat} (v : α) {m : Store α} (hj : j < k) (hm : above j m = true) :
    above j (sset d m k v) = true := by
  induction m with
  | nil => exact above_scons d v hj hm
  | cons e t ih =>
    obtain ⟨a, w⟩ := e
    have h2 : j < a ∧ above j t = true := by
      simpa only [above, List.all_cons, Bool.and_eq_true, decide_eq_true_eq] using hm
    simp only [sset]
    split
    · exact above_scons d v hj hm
    · split
      · exact above_scons d v hj h2.2
      · simp only [above, List.all_cons, Bool.and_eq_true, decide_eq_true_eq]
        exact ⟨h2.1, ih h2.2⟩

theorem swf_scons {α : Type} [DecidableEq α] (d : Nat → α) (k : Nat) (v : α) {m : Store α} (ha : above k m = true) (hm : swf d m = true) :
    swf d (scons d k v m) = true := by
  unfold scons
  split
  · exact hm
  · rename_i hv
    simp [swf, ha, hv, hm]

/-- A write keeps the canonical form. -/
theorem swf_sset {α : Type} [DecidableEq α] (d : Nat → α) (m : Store α) (hm : swf d m = true) (k : Nat) (v : α) :
    swf d (sset d m k v) = true := by
  induction m with
  | nil => exact swf_scons d k v rfl hm
  | cons e t ih =>
    obtain ⟨a, w⟩ := e
    have h := hm
    simp only [swf, Bool.and_eq_true] at h
    obtain ⟨⟨ha, hw⟩, ht⟩ := h
    simp only [sset]
    split
    · rename_i hlt
      refine swf_scons d k v ?_ hm
      simp only [above, List.all_cons, Bool.and_eq_true, decide_eq_true_eq]
      exact ⟨hlt, above_trans hlt ha⟩
    · split
      · rename_i heq
        subst heq
        exact swf_scons d k v ha ht
      · simp only [swf, Bool.and_eq_true]
        exact ⟨⟨above_sset d v (by omega) ha, hw⟩, ih ht⟩

theorem above_filter {α : Type} {k : Nat} {m : Store α} (p : Nat × α → Bool) (h : above k m = true) : above k (m.filter p) = true := by
  simp only [above, List.all_eq_true] at *
  intro e he
  exact h e (List.mem_filter.mp he).1

/-- Dropping keys keeps the canonical form. -/
theorem swf_sdrop {α : Type} [DecidableEq α] (d : Nat → α) (p : Nat → Bool) (m : Store α) (hm : swf d m = true) : swf d (sdrop p m) = true := by
  induction m with
  | nil => rfl
  | cons e t ih =>
    obtain ⟨a, w⟩ := e
    simp only [swf, Bool.and_eq_true] at hm
    obtain ⟨⟨ha, hw⟩, ht⟩ := hm
    unfold sdrop
    simp only [List.filter_cons]
    split
    · simp only [swf, Bool.and_eq_true]
      exact ⟨⟨above_filter _ ha, hw⟩, ih ht⟩
    · exact ih ht

/-- A key that `sdrop` does not name reads as before. -/
theorem sget_sdrop {α : Type} (d : Nat → α) (p : Nat → Bool) (m : Store α) {k : Nat} (h : p k = false) : sget d (sdrop p m) k = sget d m k := by
  induction m with
  | nil => rfl
  | cons e t ih =>
    obtain ⟨a, w⟩ := e
    unfold sdrop at *
    simp only [List.filter_cons, sget]
    by_cases ha : a = k
    · subst ha; simp [h, sget]
    · cases hp : p a <;> simp [ha, sget, ih]

/-- Laying bytes keeps the canonical form. -/
theorem swf_sputs (d : Nat → Byte) (bs : Bytes) (m : Store Byte) (hm : swf d m = true) (a : Nat) : swf d (sputs d m a bs) = true := by
  induction bs generalizing m a with
  | nil => exact hm
  | cons b t ih => exact ih _ (swf_sset d m hm a b) _

end Sys2Proof.Machine
end

