-- ==== Sys2Proof/Laws/Keep.lean ====
section
/-! SUPPORT. What an operation leaves alone: the queue, the time, the canonical form of the stores, and every part of the state outside a mask. -/
namespace Sys2Proof.Machine

/-- `t` follows from `s` by an operation that changes at most the parts of mask `m`. -/
structure Keep (m : Nat) (s t : State) : Prop where
  pending : t.pending = s.pending
  now : t.now = s.now
  canonical : s.canonical = true → t.canonical = true
  part : ∀ p : Part, m.testBit p.bit = false → p.same s t

/-- Every part of mask `a` is in mask `b`. -/
def subMask (a b : Nat) : Bool := Nat.land a b == a

theorem Part.same_refl (p : Part) (s : State) : p.same s s := by cases p <;> rfl

theorem Part.same_trans {p : Part} {s t u : State} (h : p.same s t) (k : p.same t u) : p.same s u := by
  cases p <;> exact k.trans h

theorem Keep.refl (m : Nat) (s : State) : Keep m s s := ⟨rfl, rfl, id, fun p _ => p.same_refl s⟩

theorem testBit_of_subMask {a b i : Nat} (h : subMask a b = true) (hb : b.testBit i = false) : a.testBit i = false := by
  have h' : a &&& b = a := by simpa [subMask] using h
  rw [← h', Nat.testBit_and, hb, Bool.and_false]

/-- An operation of mask `f` after one of mask `m` that holds `f`. -/
theorem Keep.lift {f m : Nat} {s0 s t : State} (k : Keep f s t) (hm : subMask f m = true) (h : Keep m s0 s) : Keep m s0 t :=
  ⟨k.pending.trans h.pending, k.now.trans h.now, fun c => k.canonical (h.canonical c),
    fun p hp => Part.same_trans (h.part p hp) (k.part p (testBit_of_subMask hm hp))⟩

theorem subMask_trans {a b c : Nat} (h : subMask a b = true) (k : subMask b c = true) : subMask a c = true := by
  have h' : a &&& b = a := by simpa [subMask] using h
  have k' : b &&& c = b := by simpa [subMask] using k
  have : a &&& c = a := by rw [← h', Nat.and_assoc, k']
  simpa [subMask] using this

theorem Keep.ite {m : Nat} {s0 a b : State} {c : Prop} [Decidable c] (ha : c → Keep m s0 a) (hb : ¬ c → Keep m s0 b) :
    Keep m s0 (if c then a else b) := by
  split
  · exact ha ‹_›
  · exact hb ‹_›

/-- A pair that depends on a condition. -/
theorem Keep.ite_snd {α : Type} {m : Nat} {s0 : State} {a b : α × State} {c : Prop} [Decidable c] (ha : c → Keep m s0 a.2) (hb : ¬ c → Keep m s0 b.2) :
    Keep m s0 (if c then a else b).2 := by
  split
  · exact ha ‹_›
  · exact hb ‹_›

theorem Keep.foldl {α : Type} {m : Nat} {s0 s : State} (f : State → α → State) (l : List α) (h : Keep m s0 s)
    (hf : ∀ t x, Keep m s0 t → Keep m s0 (f t x)) : Keep m s0 (l.foldl f s) := by
  induction l generalizing s with
  | nil => exact h
  | cons x t ih => exact ih (hf s x h)

/-- A fold that carries something beside the state. -/
theorem Keep.foldl_snd {α β : Type} {m : Nat} {s0 : State} (f : β × State → α → β × State) (l : List α) (x : β × State) (h : Keep m s0 x.2)
    (hf : ∀ y a, Keep m s0 y.2 → Keep m s0 (f y a).2) : Keep m s0 (l.foldl f x).2 := by
  induction l generalizing x with
  | nil => exact h
  | cons a t ih => exact ih _ (hf x a h)

@[inherit_doc Keep.foldl_snd]
theorem Keep.foldl_fst {α β : Type} {m : Nat} {s0 : State} (f : State × β → α → State × β) (l : List α) (x : State × β) (h : Keep m s0 x.1)
    (hf : ∀ y a, Keep m s0 y.1 → Keep m s0 (f y a).1) : Keep m s0 (l.foldl f x).1 := by
  induction l generalizing x with
  | nil => exact h
  | cons a t ih => exact ih _ (hf x a h)

theorem Keep.of_snd {α : Type} {m : Nat} {s0 t : State} {x : α × State} {a : α} (e : x = (a, t)) (h : Keep m s0 x.2) : Keep m s0 t := by
  subst e; exact h

theorem Keep.of_snd2 {α β : Type} {m : Nat} {s0 t : State} {x : α × β × State} {a : α} {b : β} (e : x = (a, b, t)) (h : Keep m s0 x.2.2) :
    Keep m s0 t := by
  subst e; exact h

theorem Keep.of_id {m : Nat} {s0 s : State} (h : Keep m s0 s) : Keep m s0 (id s) := h

theorem canonical_iff (s : State) :
    s.canonical = true ↔ swf resetWord s.regs = true ∧ swf memDefault s.mem = true ∧ swf flashDefault s.flash = true := by
  simp [State.canonical, and_assoc]

/-- A state made by an update of `u`: a mark for proofs. -/
def State.updOf (_u t : State) : State := t

theorem State.mk_eq_updOf {u : State} {x1 x2 x3 x4 x5 x6 x7 x8 x9 x10 x11 x12 x13 x14 x15 x16 x17 x18 x19 x20 x21 x22 x23 x24 x25 x26 x27} :
    State.mk u.pending u.now x1 x2 x3 x4 x5 x6 x7 x8 x9 x10 x11 x12 x13 x14 x15 x16 x17 x18 x19 x20 x21 x22 x23 x24 x25 x26 x27 = State.updOf u ⟨u.pending, u.now, x1, x2, x3, x4, x5, x6, x7, x8, x9, x10, x11, x12, x13, x14, x15, x16, x17, x18, x19, x20, x21, x22, x23, x24, x25, x26, x27⟩ := rfl

/-- A record update of `u`, given what the update itself keeps. -/
theorem Keep.node (d : Nat) {m : Nat} {s0 u t : State} (k : Keep d u t) (hm : subMask d m = true) (h : Keep m s0 u) :
    Keep m s0 (State.updOf u t) := k.lift hm h

theorem canonical_regs {s t : State} (hr : swf resetWord s.regs = true → swf resetWord t.regs = true) (hm : t.mem = s.mem)
    (hf : t.flash = s.flash) : s.canonical = true → t.canonical = true := by
  simp only [canonical_iff, hm, hf]
  exact fun h => ⟨hr h.1, h.2⟩

theorem canonical_mem {s t : State} (hr : t.regs = s.regs) (hm : swf memDefault s.mem = true → swf memDefault t.mem = true)
    (hf : t.flash = s.flash) : s.canonical = true → t.canonical = true := by
  simp only [canonical_iff, hr, hf]
  exact fun h => ⟨h.1, hm h.2.1, h.2.2⟩

theorem canonical_flash {s t : State} (hr : t.regs = s.regs) (hm : t.mem = s.mem)
    (hf : swf flashDefault s.flash = true → swf flashDefault t.flash = true) : s.canonical = true → t.canonical = true := by
  simp only [canonical_iff, hr, hm]
  exact fun h => ⟨h.1, h.2.1, hf h.2.2⟩

/-- An update of parts other than the three stores. -/
theorem Keep.upd (d : Nat) {s t : State} (h1 : t.pending = s.pending) (h2 : t.now = s.now) (hr : t.regs = s.regs) (hm : t.mem = s.mem)
    (hf : t.flash = s.flash) (hp : ∀ p : Part, d.testBit p.bit = false → p.same s t) : Keep d s t :=
  ⟨h1, h2, by simp only [canonical_iff, hr, hm, hf]; exact id, hp⟩

end Sys2Proof.Machine
end

