-- ==== Sys2Proof/Laws/KeepOps.lean ====
section
/-! SUPPORT. What each operation of Machine/Ops.lean leaves alone. -/

set_option Elab.async false

namespace Sys2Proof.Machine

theorem State.setReg_keep {m : Nat} {s0 : State} (s : State) (a1 : _) (a2 : _) (a3 : _) (a4 : _) (hm : subMask 32 m = true) (h : Keep m s0 s) : Keep m s0 (State.setReg s a1 a2 a3 a4) := by
  refine Keep.lift (f := 32) ?_ hm h
  refine ⟨rfl, rfl, canonical_regs (fun c => swf_sset _ _ c _ _) rfl rfl, fun p hp => by cases p <;> first | exact absurd hp (by decide) | rfl⟩

theorem State.set_keep {m : Nat} {s0 : State} (s : State) (a1 : _) (a2 : _) (a3 : _) (a4 : _) (hm : subMask 32 m = true) (h : Keep m s0 s) : Keep m s0 (State.set s a1 a2 a3 a4) := by
  refine Keep.lift (f := 32) ?_ hm h
  unfold State.set
  repeat' first
    | exact rfl
    | with_reducible exact Keep.refl _ _
    | with_reducible assumption
    | with_reducible apply State.setReg_keep
    | with_reducible apply Keep.ite <;> intro _
    | with_reducible apply Keep.foldl <;> try intro _ _ _
    | with_reducible apply Keep.foldl_snd <;> try intro _ _ _
    | with_reducible refine Keep.of_snd ‹_ = (_, _)› ?_
    | with_reducible refine Keep.of_snd2 ‹_ = (_, _, _)› ?_
    | with_reducible apply Keep.of_id
    | split
    | dsimp only

theorem State.sets_keep {m : Nat} {s0 : State} (s : State) (a1 : _) (a2 : _) (hm : subMask 32 m = true) (h : Keep m s0 s) : Keep m s0 (State.sets s a1 a2) := by
  refine Keep.lift (f := 32) ?_ hm h
  unfold State.sets
  repeat' first
    | exact rfl
    | with_reducible exact Keep.refl _ _
    | with_reducible assumption
    | with_reducible apply State.set_keep
    | with_reducible apply Keep.ite <;> intro _
    | with_reducible apply Keep.foldl <;> try intro _ _ _
    | with_reducible apply Keep.foldl_snd <;> try intro _ _ _
    | with_reducible refine Keep.of_snd ‹_ = (_, _)› ?_
    | with_reducible refine Keep.of_snd2 ‹_ = (_, _, _)› ?_
    | with_reducible apply Keep.of_id
    | split
    | dsimp only

theorem State.bump_keep {m : Nat} {s0 : State} (s : State) (a1 : _) (a2 : _) (a3 : _) (hm : subMask 32 m = true) (h : Keep m s0 s) : Keep m s0 (State.bump s a1 a2 a3) := by
  refine Keep.lift (f := 32) ?_ hm h
  unfold State.bump
  repeat' first
    | exact rfl
    | with_reducible exact Keep.refl _ _
    | with_reducible assumption
    | with_reducible apply State.set_keep
    | with_reducible apply Keep.ite <;> intro _
    | with_reducible apply Keep.foldl <;> try intro _ _ _
    | with_reducible apply Keep.foldl_snd <;> try intro _ _ _
    | with_reducible refine Keep.of_snd ‹_ = (_, _)› ?_
    | with_reducible refine Keep.of_snd2 ‹_ = (_, _, _)› ?_
    | with_reducible apply Keep.of_id
    | split
    | dsimp only

theorem State.inc_keep {m : Nat} {s0 : State} (s : State) (a1 : _) (a2 : _) (hm : subMask 32 m = true) (h : Keep m s0 s) : Keep m s0 (State.inc s a1 a2) := by
  refine Keep.lift (f := 32) ?_ hm h
  unfold State.inc
  repeat' first
    | exact rfl
    | with_reducible exact Keep.refl _ _
    | with_reducible assumption
    | with_reducible apply State.bump_keep
    | with_reducible apply Keep.ite <;> intro _
    | with_reducible apply Keep.foldl <;> try intro _ _ _
    | with_reducible apply Keep.foldl_snd <;> try intro _ _ _
    | with_reducible refine Keep.of_snd ‹_ = (_, _)› ?_
    | with_reducible refine Keep.of_snd2 ‹_ = (_, _, _)› ?_
    | with_reducible apply Keep.of_id
    | split
    | dsimp only

theorem State.incBy_keep {m : Nat} {s0 : State} (s : State) (a1 : _) (a2 : _) (a3 : _) (hm : subMask 32 m = true) (h : Keep m s0 s) : Keep m s0 (State.incBy s a1 a2 a3) := by
  refine Keep.lift (f := 32) ?_ hm h
  unfold State.incBy
  repeat' first
    | exact rfl
    | with_reducible exact Keep.refl _ _
    | with_reducible assumption
    | with_reducible apply State.bump_keep
    | with_reducible apply Keep.ite <;> intro _
    | with_reducible apply Keep.foldl <;> try intro _ _ _
    | with_reducible apply Keep.foldl_snd <;> try intro _ _ _
    | with_reducible refine Keep.of_snd ‹_ = (_, _)› ?_
    | with_reducible refine Keep.of_snd2 ‹_ = (_, _, _)› ?_
    | with_reducible apply Keep.of_id
    | split
    | dsimp only

theorem State.resetRegs_keep {m : Nat} {s0 : State} (s : State) (a1 : _) (hm : subMask 32 m = true) (h : Keep m s0 s) : Keep m s0 (State.resetRegs s a1) := by
  refine Keep.lift (f := 32) ?_ hm h
  refine ⟨rfl, rfl, canonical_regs (fun c => swf_sdrop _ _ _ c) rfl rfl, fun p hp => by cases p <;> first | exact absurd hp (by decide) | rfl⟩

theorem State.put_keep {m : Nat} {s0 : State} (s : State) (a1 : _) (a2 : _) (hm : subMask 64 m = true) (h : Keep m s0 s) : Keep m s0 (State.put s a1 a2) := by
  refine Keep.lift (f := 64) ?_ hm h
  refine ⟨rfl, rfl, canonical_mem rfl (fun c => swf_sputs _ _ _ c _) rfl, fun p hp => by cases p <;> first | exact absurd hp (by decide) | rfl⟩

theorem State.fput_keep {m : Nat} {s0 : State} (s : State) (a1 : _) (a2 : _) (hm : subMask 128 m = true) (h : Keep m s0 s) : Keep m s0 (State.fput s a1 a2) := by
  refine Keep.lift (f := 128) ?_ hm h
  refine ⟨rfl, rfl, canonical_flash rfl rfl (fun c => swf_sputs _ _ _ c _), fun p hp => by cases p <;> first | exact absurd hp (by decide) | rfl⟩

theorem State.memDrop_keep {m : Nat} {s0 : State} (s : State) (a1 : _) (a2 : _) (hm : subMask 64 m = true) (h : Keep m s0 s) : Keep m s0 (State.memDrop s a1 a2) := by
  refine Keep.lift (f := 64) ?_ hm h
  refine ⟨rfl, rfl, canonical_mem rfl (fun c => by unfold State.memDrop; dsimp only; exact swf_sdrop _ _ _ c) rfl, fun p hp => by cases p <;> first | exact absurd hp (by decide) | rfl⟩

theorem State.alertForget_keep {m : Nat} {s0 : State} (s : State) (a1 : _) (hm : subMask 524288 m = true) (h : Keep m s0 s) : Keep m s0 (State.alertForget s a1) := by
  refine Keep.lift (f := 524288) ?_ hm h
  unfold State.alertForget
  repeat' first
    | exact rfl
    | with_reducible exact Keep.refl _ _
    | with_reducible assumption
    | with_reducible apply Keep.ite <;> intro _
    | with_reducible apply Keep.foldl <;> try intro _ _ _
    | with_reducible apply Keep.foldl_snd <;> try intro _ _ _
    | (rewrite [State.mk_eq_updOf]; (with_reducible refine Keep.node 524288 ?_ ?_ ?_); · refine Keep.upd 524288 ?_ ?_ ?_ ?_ ?_ (fun p hp => ?_); exact rfl; exact rfl; exact rfl; exact rfl; exact rfl; cases p <;> first | exact absurd hp (by decide) | exact rfl)
    | with_reducible refine Keep.of_snd ‹_ = (_, _)› ?_
    | with_reducible refine Keep.of_snd2 ‹_ = (_, _, _)› ?_
    | with_reducible apply Keep.of_id
    | split
    | dsimp only

theorem State.emit_keep {m : Nat} {s0 : State} (s : State) (a1 : _) (a2 : _) (a3 : _) (hm : subMask 16 m = true) (h : Keep m s0 s) : Keep m s0 (State.emit s a1 a2 a3) := by
  refine Keep.lift (f := 16) ?_ hm h
  unfold State.emit
  repeat' first
    | exact rfl
    | with_reducible exact Keep.refl _ _
    | with_reducible assumption
    | with_reducible apply Keep.ite <;> intro _
    | with_reducible apply Keep.foldl <;> try intro _ _ _
    | with_reducible apply Keep.foldl_snd <;> try intro _ _ _
    | (rewrite [State.mk_eq_updOf]; (with_reducible refine Keep.node 16 ?_ ?_ ?_); · refine Keep.upd 16 ?_ ?_ ?_ ?_ ?_ (fun p hp => ?_); exact rfl; exact rfl; exact rfl; exact rfl; exact rfl; cases p <;> first | exact absurd hp (by decide) | exact rfl)
    | with_reducible refine Keep.of_snd ‹_ = (_, _)› ?_
    | with_reducible refine Keep.of_snd2 ‹_ = (_, _, _)› ?_
    | with_reducible apply Keep.of_id
    | split
    | dsimp only

theorem State.fresh_keep {m : Nat} {s0 : State} (s : State) (hm : subMask 1 m = true) (h : Keep m s0 s) : Keep m s0 (State.fresh s).2 := by
  refine Keep.lift (f := 1) ?_ hm h
  unfold State.fresh
  repeat' first
    | exact rfl
    | with_reducible exact Keep.refl _ _
    | with_reducible assumption
    | with_reducible apply Keep.ite <;> intro _
    | with_reducible apply Keep.foldl <;> try intro _ _ _
    | with_reducible apply Keep.foldl_snd <;> try intro _ _ _
    | (rewrite [State.mk_eq_updOf]; (with_reducible refine Keep.node 1 ?_ ?_ ?_); · refine Keep.upd 1 ?_ ?_ ?_ ?_ ?_ (fun p hp => ?_); exact rfl; exact rfl; exact rfl; exact rfl; exact rfl; cases p <;> first | exact absurd hp (by decide) | exact rfl)
    | with_reducible refine Keep.of_snd ‹_ = (_, _)› ?_
    | with_reducible refine Keep.of_snd2 ‹_ = (_, _, _)› ?_
    | with_reducible apply Keep.of_id
    | split
    | dsimp only

end Sys2Proof.Machine
end

