-- ==== Sys2Proof/Laws/KeepFlags.lean ====
section
/-! SUPPORT. What each operation of Machine/Flags.lean leaves alone. -/

set_option Elab.async false

namespace Sys2Proof.Machine

theorem State.setPend_keep {m : Nat} {s0 : State} (s : State) (a1 : _) (a2 : _) (hm : subMask 256 m = true) (h : Keep m s0 s) : Keep m s0 (State.setPend s a1 a2) := by
  refine Keep.lift (f := 256) ?_ hm h
  unfold State.setPend
  repeat' first
    | exact rfl
    | with_reducible exact Keep.refl _ _
    | with_reducible assumption
    | with_reducible apply Keep.ite <;> intro _
    | with_reducible apply Keep.foldl <;> try intro _ _ _
    | with_reducible apply Keep.foldl_snd <;> try intro _ _ _
    | (rewrite [State.mk_eq_updOf]; (with_reducible refine Keep.node 256 ?_ ?_ ?_); · refine Keep.upd 256 ?_ ?_ ?_ ?_ ?_ (fun p hp => ?_); exact rfl; exact rfl; exact rfl; exact rfl; exact rfl; cases p <;> first | exact absurd hp (by decide) | exact rfl)
    | with_reducible refine Keep.of_snd ‹_ = (_, _)› ?_
    | with_reducible refine Keep.of_snd2 ‹_ = (_, _, _)› ?_
    | with_reducible apply Keep.of_id
    | split
    | dsimp only

theorem State.msixSend_keep {m : Nat} {s0 : State} (s : State) (a1 : _) (a2 : _) (hm : subMask 16 m = true) (h : Keep m s0 s) : Keep m s0 (State.msixSend s a1 a2) := by
  refine Keep.lift (f := 16) ?_ hm h
  unfold State.msixSend
  repeat' first
    | exact rfl
    | with_reducible exact Keep.refl _ _
    | with_reducible assumption
    | with_reducible apply State.emit_keep
    | with_reducible apply Keep.ite <;> intro _
    | with_reducible apply Keep.foldl <;> try intro _ _ _
    | with_reducible apply Keep.foldl_snd <;> try intro _ _ _
    | with_reducible refine Keep.of_snd ‹_ = (_, _)› ?_
    | with_reducible refine Keep.of_snd2 ‹_ = (_, _, _)› ?_
    | with_reducible apply Keep.of_id
    | split
    | dsimp only

theorem State.countEdge_keep {m : Nat} {s0 : State} (s : State) (a1 : _) (hm : subMask 256 m = true) (h : Keep m s0 s) : Keep m s0 (State.countEdge s a1) := by
  refine Keep.lift (f := 256) ?_ hm h
  unfold State.countEdge
  repeat' first
    | exact rfl
    | with_reducible exact Keep.refl _ _
    | with_reducible assumption
    | with_reducible apply State.setPend_keep
    | with_reducible apply Keep.ite <;> intro _
    | with_reducible apply Keep.foldl <;> try intro _ _ _
    | with_reducible apply Keep.foldl_snd <;> try intro _ _ _
    | (rewrite [State.mk_eq_updOf]; (with_reducible refine Keep.node 256 ?_ ?_ ?_); · refine Keep.upd 256 ?_ ?_ ?_ ?_ ?_ (fun p hp => ?_); exact rfl; exact rfl; exact rfl; exact rfl; exact rfl; cases p <;> first | exact absurd hp (by decide) | exact rfl)
    | with_reducible refine Keep.of_snd ‹_ = (_, _)› ?_
    | with_reducible refine Keep.of_snd2 ‹_ = (_, _, _)› ?_
    | with_reducible apply Keep.of_id
    | split
    | dsimp only

theorem State.evtPulse_keep {m : Nat} {s0 : State} (s : State) (a1 : _) (hm : subMask 272 m = true) (h : Keep m s0 s) : Keep m s0 (State.evtPulse s a1) := by
  refine Keep.lift (f := 272) ?_ hm h
  unfold State.evtPulse
  repeat' first
    | exact rfl
    | with_reducible exact Keep.refl _ _
    | with_reducible assumption
    | with_reducible apply State.emit_keep
    | with_reducible apply Keep.ite <;> intro _
    | with_reducible apply Keep.foldl <;> try intro _ _ _
    | with_reducible apply Keep.foldl_snd <;> try intro _ _ _
    | (rewrite [State.mk_eq_updOf]; (with_reducible refine Keep.node 256 ?_ ?_ ?_); · refine Keep.upd 256 ?_ ?_ ?_ ?_ ?_ (fun p hp => ?_); exact rfl; exact rfl; exact rfl; exact rfl; exact rfl; cases p <;> first | exact absurd hp (by decide) | exact rfl)
    | with_reducible refine Keep.of_snd ‹_ = (_, _)› ?_
    | with_reducible refine Keep.of_snd2 ‹_ = (_, _, _)› ?_
    | with_reducible apply Keep.of_id
    | split
    | dsimp only

theorem State.deliver_keep {m : Nat} {s0 : State} (s : State) (a1 : _) (a2 : _) (hm : subMask 272 m = true) (h : Keep m s0 s) : Keep m s0 (State.deliver s a1 a2) := by
  refine Keep.lift (f := 272) ?_ hm h
  unfold State.deliver
  repeat' first
    | exact rfl
    | with_reducible exact Keep.refl _ _
    | with_reducible assumption
    | with_reducible apply State.msixSend_keep
    | with_reducible apply State.setPend_keep
    | with_reducible apply State.evtPulse_keep
    | with_reducible apply Keep.ite <;> intro _
    | with_reducible apply Keep.foldl <;> try intro _ _ _
    | with_reducible apply Keep.foldl_snd <;> try intro _ _ _
    | with_reducible refine Keep.of_snd ‹_ = (_, _)› ?_
    | with_reducible refine Keep.of_snd2 ‹_ = (_, _, _)› ?_
    | with_reducible apply Keep.of_id
    | split
    | dsimp only

theorem State.raise_keep {m : Nat} {s0 : State} (s : State) (a1 : _) (hm : subMask 272 m = true) (h : Keep m s0 s) : Keep m s0 (State.raise s a1) := by
  refine Keep.lift (f := 272) ?_ hm h
  unfold State.raise
  repeat' first
    | exact rfl
    | with_reducible exact Keep.refl _ _
    | with_reducible assumption
    | with_reducible apply State.deliver_keep
    | with_reducible apply State.countEdge_keep
    | with_reducible apply Keep.ite <;> intro _
    | with_reducible apply Keep.foldl <;> try intro _ _ _
    | with_reducible apply Keep.foldl_snd <;> try intro _ _ _
    | with_reducible refine Keep.of_snd ‹_ = (_, _)› ?_
    | with_reducible refine Keep.of_snd2 ‹_ = (_, _, _)› ?_
    | with_reducible apply Keep.of_id
    | split
    | dsimp only

theorem State.pendResult_keep {m : Nat} {s0 : State} (s : State) (a1 : _) (a2 : _) (a3 : _) (hm : subMask 32 m = true) (h : Keep m s0 s) : Keep m s0 (State.pendResult s a1 a2 a3) := by
  refine Keep.lift (f := 32) ?_ hm h
  unfold State.pendResult
  repeat' first
    | exact rfl
    | with_reducible exact Keep.refl _ _
    | with_reducible assumption
    | with_reducible apply State.set_keep
    | with_reducible apply Keep.ite <;> intro _
    | with_reducible apply Keep.foldl <;> try intro _ _ _
    | with_reducible apply Keep.foldl_snd <;> try intro _ _ _
    | with_reducible refine Keep.of_snd ‹_ = (_, _)› ?_
    | with_reducible refine Keep.of_snd2 ‹_ = (_, _, _)› ?_
    | with_reducible apply Keep.of_id
    | split
    | dsimp only

theorem State.commit_keep {m : Nat} {s0 : State} (s : State) (a1 : _) (a2 : _) (a3 : _) (a4 : _) (hm : subMask 32 m = true) (h : Keep m s0 s) : Keep m s0 (State.commit s a1 a2 a3 a4) := by
  refine Keep.lift (f := 32) ?_ hm h
  unfold State.commit
  repeat' first
    | exact rfl
    | with_reducible exact Keep.refl _ _
    | with_reducible assumption
    | with_reducible apply State.setReg_keep
    | with_reducible apply Keep.ite <;> intro _
    | with_reducible apply Keep.foldl <;> try intro _ _ _
    | with_reducible apply Keep.foldl_snd <;> try intro _ _ _
    | with_reducible refine Keep.of_snd ‹_ = (_, _)› ?_
    | with_reducible refine Keep.of_snd2 ‹_ = (_, _, _)› ?_
    | with_reducible apply Keep.of_id
    | split
    | dsimp only

theorem State.earlyRead_keep {m : Nat} {s0 : State} (s : State) (a1 : _) (hm : subMask 304 m = true) (h : Keep m s0 s) : Keep m s0 (State.earlyRead s a1) := by
  refine Keep.lift (f := 304) ?_ hm h
  unfold State.earlyRead
  repeat' first
    | exact rfl
    | with_reducible exact Keep.refl _ _
    | with_reducible assumption
    | with_reducible apply State.inc_keep
    | with_reducible apply State.raise_keep
    | with_reducible apply Keep.ite <;> intro _
    | with_reducible apply Keep.foldl <;> try intro _ _ _
    | with_reducible apply Keep.foldl_snd <;> try intro _ _ _
    | with_reducible refine Keep.of_snd ‹_ = (_, _)› ?_
    | with_reducible refine Keep.of_snd2 ‹_ = (_, _, _)› ?_
    | with_reducible apply Keep.of_id
    | split
    | dsimp only

end Sys2Proof.Machine
end

