-- ==== Sys2Proof/Laws/KeepAshOps.lean ====
section
/-! SUPPORT. What each operation of Machine/AshOps.lean leaves alone. -/

set_option Elab.async false

namespace Sys2Proof.Machine

theorem State.ashDrop_keep {m : Nat} {s0 : State} (s : State) (a1 : _) (hm : subMask 784 m = true) (h : Keep m s0 s) : Keep m s0 (State.ashDrop s a1) := by
  refine Keep.lift (f := 784) ?_ hm h
  unfold State.ashDrop
  repeat' first
    | exact rfl
    | with_reducible exact Keep.refl _ _
    | with_reducible assumption
    | with_reducible apply State.raise_keep
    | with_reducible apply Keep.ite <;> intro _
    | with_reducible apply Keep.foldl <;> try intro _ _ _
    | with_reducible apply Keep.foldl_snd <;> try intro _ _ _
    | (rewrite [State.mk_eq_updOf]; (with_reducible refine Keep.node 512 ?_ ?_ ?_); · refine Keep.upd 512 ?_ ?_ ?_ ?_ ?_ (fun p hp => ?_); exact rfl; exact rfl; exact rfl; exact rfl; exact rfl; cases p <;> first | exact absurd hp (by decide) | exact rfl)
    | with_reducible refine Keep.of_snd ‹_ = (_, _)› ?_
    | with_reducible refine Keep.of_snd2 ‹_ = (_, _, _)› ?_
    | with_reducible apply Keep.of_id
    | split
    | dsimp only

theorem State.ashPut_keep {m : Nat} {s0 : State} (s : State) (a1 : _) (hm : subMask 784 m = true) (h : Keep m s0 s) : Keep m s0 (State.ashPut s a1) := by
  refine Keep.lift (f := 784) ?_ hm h
  unfold State.ashPut
  repeat' first
    | exact rfl
    | with_reducible exact Keep.refl _ _
    | with_reducible assumption
    | with_reducible apply State.ashDrop_keep
    | with_reducible apply Keep.ite <;> intro _
    | with_reducible apply Keep.foldl <;> try intro _ _ _
    | with_reducible apply Keep.foldl_snd <;> try intro _ _ _
    | (rewrite [State.mk_eq_updOf]; (with_reducible refine Keep.node 512 ?_ ?_ ?_); · refine Keep.upd 512 ?_ ?_ ?_ ?_ ?_ (fun p hp => ?_); exact rfl; exact rfl; exact rfl; exact rfl; exact rfl; cases p <;> first | exact absurd hp (by decide) | exact rfl)
    | with_reducible refine Keep.of_snd ‹_ = (_, _)› ?_
    | with_reducible refine Keep.of_snd2 ‹_ = (_, _, _)› ?_
    | with_reducible apply Keep.of_id
    | split
    | dsimp only

theorem State.ashAdd_keep {m : Nat} {s0 : State} (s : State) (a1 : _) (a2 : _) (a3 : _) (hm : subMask 784 m = true) (h : Keep m s0 s) : Keep m s0 (State.ashAdd s a1 a2 a3) := by
  refine Keep.lift (f := 784) ?_ hm h
  unfold State.ashAdd
  repeat' first
    | exact rfl
    | with_reducible exact Keep.refl _ _
    | with_reducible assumption
    | with_reducible apply State.ashPut_keep
    | with_reducible apply Keep.ite <;> intro _
    | with_reducible apply Keep.foldl <;> try intro _ _ _
    | with_reducible apply Keep.foldl_snd <;> try intro _ _ _
    | (rewrite [State.mk_eq_updOf]; (with_reducible refine Keep.node 512 ?_ ?_ ?_); · refine Keep.upd 512 ?_ ?_ ?_ ?_ ?_ (fun p hp => ?_); exact rfl; exact rfl; exact rfl; exact rfl; exact rfl; cases p <;> first | exact absurd hp (by decide) | exact rfl)
    | with_reducible refine Keep.of_snd ‹_ = (_, _)› ?_
    | with_reducible refine Keep.of_snd2 ‹_ = (_, _, _)› ?_
    | with_reducible apply Keep.of_id
    | split
    | dsimp only

theorem State.ashFlush_keep {m : Nat} {s0 : State} (s : State) (a1 : _) (hm : subMask 784 m = true) (h : Keep m s0 s) : Keep m s0 (State.ashFlush s a1) := by
  refine Keep.lift (f := 784) ?_ hm h
  unfold State.ashFlush
  repeat' first
    | exact rfl
    | with_reducible exact Keep.refl _ _
    | with_reducible assumption
    | with_reducible apply State.ashPut_keep
    | with_reducible apply Keep.ite <;> intro _
    | with_reducible apply Keep.foldl <;> try intro _ _ _
    | with_reducible apply Keep.foldl_snd <;> try intro _ _ _
    | with_reducible refine Keep.of_snd ‹_ = (_, _)› ?_
    | with_reducible refine Keep.of_snd2 ‹_ = (_, _, _)› ?_
    | with_reducible apply Keep.of_id
    | split
    | dsimp only

theorem State.ashFlushAll_keep {m : Nat} {s0 : State} (s : State) (hm : subMask 784 m = true) (h : Keep m s0 s) : Keep m s0 (State.ashFlushAll s) := by
  refine Keep.lift (f := 784) ?_ hm h
  unfold State.ashFlushAll
  repeat' first
    | exact rfl
    | with_reducible exact Keep.refl _ _
    | with_reducible assumption
    | with_reducible apply State.ashFlush_keep
    | with_reducible apply Keep.ite <;> intro _
    | with_reducible apply Keep.foldl <;> try intro _ _ _
    | with_reducible apply Keep.foldl_snd <;> try intro _ _ _
    | (rewrite [State.mk_eq_updOf]; (with_reducible refine Keep.node 512 ?_ ?_ ?_); · refine Keep.upd 512 ?_ ?_ ?_ ?_ ?_ (fun p hp => ?_); exact rfl; exact rfl; exact rfl; exact rfl; exact rfl; cases p <;> first | exact absurd hp (by decide) | exact rfl)
    | with_reducible refine Keep.of_snd ‹_ = (_, _)› ?_
    | with_reducible refine Keep.of_snd2 ‹_ = (_, _, _)› ?_
    | with_reducible apply Keep.of_id
    | split
    | dsimp only

theorem State.ashOpenIncident_keep {m : Nat} {s0 : State} (s : State) (a1 : _) (hm : subMask 784 m = true) (h : Keep m s0 s) : Keep m s0 (State.ashOpenIncident s a1) := by
  refine Keep.lift (f := 784) ?_ hm h
  unfold State.ashOpenIncident
  repeat' first
    | exact rfl
    | with_reducible exact Keep.refl _ _
    | with_reducible assumption
    | with_reducible apply State.raise_keep
    | with_reducible apply Keep.ite <;> intro _
    | with_reducible apply Keep.foldl <;> try intro _ _ _
    | with_reducible apply Keep.foldl_snd <;> try intro _ _ _
    | (rewrite [State.mk_eq_updOf]; (with_reducible refine Keep.node 512 ?_ ?_ ?_); · refine Keep.upd 512 ?_ ?_ ?_ ?_ ?_ (fun p hp => ?_); exact rfl; exact rfl; exact rfl; exact rfl; exact rfl; cases p <;> first | exact absurd hp (by decide) | exact rfl)
    | with_reducible refine Keep.of_snd ‹_ = (_, _)› ?_
    | with_reducible refine Keep.of_snd2 ‹_ = (_, _, _)› ?_
    | with_reducible apply Keep.of_id
    | split
    | dsimp only

theorem State.ashTake_keep {m : Nat} {s0 : State} (s : State) (hm : subMask 784 m = true) (h : Keep m s0 s) : Keep m s0 (State.ashTake s) := by
  refine Keep.lift (f := 784) ?_ hm h
  unfold State.ashTake
  repeat' first
    | exact rfl
    | with_reducible exact Keep.refl _ _
    | with_reducible assumption
    | with_reducible apply State.ashOpenIncident_keep
    | with_reducible apply Keep.ite <;> intro _
    | with_reducible apply Keep.foldl <;> try intro _ _ _
    | with_reducible apply Keep.foldl_snd <;> try intro _ _ _
    | (rewrite [State.mk_eq_updOf]; (with_reducible refine Keep.node 512 ?_ ?_ ?_); · refine Keep.upd 512 ?_ ?_ ?_ ?_ ?_ (fun p hp => ?_); exact rfl; exact rfl; exact rfl; exact rfl; exact rfl; cases p <;> first | exact absurd hp (by decide) | exact rfl)
    | with_reducible refine Keep.of_snd ‹_ = (_, _)› ?_
    | with_reducible refine Keep.of_snd2 ‹_ = (_, _, _)› ?_
    | with_reducible apply Keep.of_id
    | split
    | dsimp only

theorem State.ashDrain_keep {m : Nat} {s0 : State} (a0 : _) (s : State) (hm : subMask 784 m = true) (h : Keep m s0 s) : Keep m s0 (State.ashDrain a0 s) := by
  induction a0 generalizing s with
  | zero => unfold State.ashDrain; exact h
  | succ n ih =>
    unfold State.ashDrain
    repeat' first
      | exact rfl
      | exact subMask_trans rfl hm
      | with_reducible apply ih
      | with_reducible exact Keep.refl _ _
      | with_reducible assumption
      | with_reducible apply State.ashTake_keep
      | with_reducible apply Keep.ite <;> intro _
      | with_reducible apply Keep.foldl <;> try intro _ _ _
      | with_reducible apply Keep.foldl_snd <;> try intro _ _ _
      | with_reducible refine Keep.of_snd ‹_ = (_, _)› ?_
      | with_reducible refine Keep.of_snd2 ‹_ = (_, _, _)› ?_
      | with_reducible apply Keep.of_id
      | split
      | dsimp only

theorem State.ashClose_keep {m : Nat} {s0 : State} (s : State) (a1 : _) (hm : subMask 524800 m = true) (h : Keep m s0 s) : Keep m s0 (State.ashClose s a1) := by
  refine Keep.lift (f := 524800) ?_ hm h
  unfold State.ashClose
  repeat' first
    | exact rfl
    | with_reducible exact Keep.refl _ _
    | with_reducible assumption
    | with_reducible apply State.alertForget_keep
    | with_reducible apply Keep.ite <;> intro _
    | with_reducible apply Keep.foldl <;> try intro _ _ _
    | with_reducible apply Keep.foldl_snd <;> try intro _ _ _
    | (rewrite [State.mk_eq_updOf]; (with_reducible refine Keep.node 512 ?_ ?_ ?_); · refine Keep.upd 512 ?_ ?_ ?_ ?_ ?_ (fun p hp => ?_); exact rfl; exact rfl; exact rfl; exact rfl; exact rfl; cases p <;> first | exact absurd hp (by decide) | exact rfl)
    | with_reducible refine Keep.of_snd ‹_ = (_, _)› ?_
    | with_reducible refine Keep.of_snd2 ‹_ = (_, _, _)› ?_
    | with_reducible apply Keep.of_id
    | split
    | dsimp only

theorem State.ashMode_keep {m : Nat} {s0 : State} (s : State) (a1 : _) (hm : subMask 784 m = true) (h : Keep m s0 s) : Keep m s0 (State.ashMode s a1) := by
  refine Keep.lift (f := 784) ?_ hm h
  unfold State.ashMode
  repeat' first
    | exact rfl
    | with_reducible exact Keep.refl _ _
    | with_reducible assumption
    | with_reducible apply State.ashAdd_keep
    | with_reducible apply Keep.ite <;> intro _
    | with_reducible apply Keep.foldl <;> try intro _ _ _
    | with_reducible apply Keep.foldl_snd <;> try intro _ _ _
    | with_reducible refine Keep.of_snd ‹_ = (_, _)› ?_
    | with_reducible refine Keep.of_snd2 ‹_ = (_, _, _)› ?_
    | with_reducible apply Keep.of_id
    | split
    | dsimp only

theorem execAshRecordWrite_keep (s : State) {t : State} (h : execAshRecordWrite s = .next t) : Keep 784 s t := by
  unfold execAshRecordWrite at h
  injection h with h
  subst h
  repeat' first
    | exact rfl
    | with_reducible exact Keep.refl _ _
    | with_reducible assumption
    | with_reducible apply State.ashTake_keep
    | with_reducible apply Keep.ite <;> intro _
    | with_reducible apply Keep.foldl <;> try intro _ _ _
    | with_reducible apply Keep.foldl_snd <;> try intro _ _ _
    | with_reducible refine Keep.of_snd ‹_ = (_, _)› ?_
    | with_reducible refine Keep.of_snd2 ‹_ = (_, _, _)› ?_
    | with_reducible apply Keep.of_id
    | split
    | dsimp only

theorem execCoalesceClose_keep (a0 : _) (s : State) {t : State} (h : execCoalesceClose a0 s = .next t) : Keep 784 s t := by
  unfold execCoalesceClose at h
  injection h with h
  subst h
  repeat' first
    | exact rfl
    | with_reducible exact Keep.refl _ _
    | with_reducible assumption
    | with_reducible apply State.ashFlush_keep
    | with_reducible apply Keep.ite <;> intro _
    | with_reducible apply Keep.foldl <;> try intro _ _ _
    | with_reducible apply Keep.foldl_snd <;> try intro _ _ _
    | (rewrite [State.mk_eq_updOf]; (with_reducible refine Keep.node 512 ?_ ?_ ?_); · refine Keep.upd 512 ?_ ?_ ?_ ?_ ?_ (fun p hp => ?_); exact rfl; exact rfl; exact rfl; exact rfl; exact rfl; cases p <;> first | exact absurd hp (by decide) | exact rfl)
    | with_reducible refine Keep.of_snd ‹_ = (_, _)› ?_
    | with_reducible refine Keep.of_snd2 ‹_ = (_, _, _)› ?_
    | with_reducible apply Keep.of_id
    | split
    | dsimp only

theorem execIncidentClose_keep (s : State) {t : State} (h : execIncidentClose s = .next t) : Keep 524800 s t := by
  unfold execIncidentClose at h
  injection h with h
  subst h
  repeat' first
    | exact rfl
    | with_reducible exact Keep.refl _ _
    | with_reducible assumption
    | with_reducible apply State.ashClose_keep
    | with_reducible apply Keep.ite <;> intro _
    | with_reducible apply Keep.foldl <;> try intro _ _ _
    | with_reducible apply Keep.foldl_snd <;> try intro _ _ _
    | with_reducible refine Keep.of_snd ‹_ = (_, _)› ?_
    | with_reducible refine Keep.of_snd2 ‹_ = (_, _, _)› ?_
    | with_reducible apply Keep.of_id
    | split
    | dsimp only

end Sys2Proof.Machine
end

