-- ==== Sys2Proof/Laws/KeepAccess.lean ====
section
/-! SUPPORT. What each operation of Machine/Access.lean leaves alone. -/

set_option Elab.async false

namespace Sys2Proof.Machine

theorem storeWord_keep {m : Nat} {s0 : State} (a0 : _) (a1 : _) (a2 : _) (a3 : _) (s : State) (hm : subMask 32 m = true) (h : Keep m s0 s) : Keep m s0 (storeWord a0 a1 a2 a3 s) := by
  refine Keep.lift (f := 32) ?_ hm h
  unfold storeWord
  repeat' first
    | exact rfl
    | with_reducible exact Keep.refl _ _
    | with_reducible assumption
    | with_reducible apply State.setReg_keep
    | with_reducible apply Keep.ite <;> intro _
    | with_reducible apply Keep.foldl <;> try intro _ _ _
    | with_reducible apply Keep.foldl_snd <;> try intro _ _ _
    | with_reducible refine Keep.of_snd ‹_ = (_, _)› ?_
    | with_reducible refine Keep.of_snd2 ‹_ = (_, _, _)› ?_
    | with_reducible apply Keep.of_id
    | split
    | dsimp only

theorem readEffect_keep {m : Nat} {s0 : State} (a0 : _) (a1 : _) (a2 : _) (a3 : _) (s : State) (hm : subMask 304 m = true) (h : Keep m s0 s) : Keep m s0 (readEffect a0 a1 a2 a3 s) := by
  refine Keep.lift (f := 304) ?_ hm h
  unfold readEffect
  repeat' first
    | exact rfl
    | with_reducible exact Keep.refl _ _
    | with_reducible assumption
    | with_reducible apply State.setReg_keep
    | with_reducible apply State.earlyRead_keep
    | with_reducible apply Keep.ite <;> intro _
    | with_reducible apply Keep.foldl <;> try intro _ _ _
    | with_reducible apply Keep.foldl_snd <;> try intro _ _ _
    | with_reducible refine Keep.of_snd ‹_ = (_, _)› ?_
    | with_reducible refine Keep.of_snd2 ‹_ = (_, _, _)› ?_
    | with_reducible apply Keep.of_id
    | split
    | dsimp only

theorem loadWord_keep {m : Nat} {s0 : State} (a0 : _) (a1 : _) (a2 : _) (s : State) (hm : subMask 304 m = true) (h : Keep m s0 s) : Keep m s0 (loadWord a0 a1 a2 s).2 := by
  refine Keep.lift (f := 304) ?_ hm h
  unfold loadWord
  repeat' first
    | exact rfl
    | with_reducible exact Keep.refl _ _
    | with_reducible assumption
    | with_reducible apply readEffect_keep
    | with_reducible apply Keep.ite <;> intro _
    | with_reducible apply Keep.foldl <;> try intro _ _ _
    | with_reducible apply Keep.foldl_snd <;> try intro _ _ _
    | with_reducible refine Keep.of_snd ‹_ = (_, _)› ?_
    | with_reducible refine Keep.of_snd2 ‹_ = (_, _, _)› ?_
    | with_reducible apply Keep.of_id
    | split
    | dsimp only

theorem State.holdFault_keep {m : Nat} {s0 : State} (s : State) (a1 : _) (a2 : _) (a3 : _) (a4 : _) (a5 : _) (a6 : _) (hm : subMask 32 m = true) (h : Keep m s0 s) : Keep m s0 (State.holdFault s a1 a2 a3 a4 a5 a6) := by
  refine Keep.lift (f := 32) ?_ hm h
  unfold State.holdFault
  repeat' first
    | exact rfl
    | with_reducible exact Keep.refl _ _
    | with_reducible assumption
    | with_reducible apply State.bump_keep
    | with_reducible apply State.set_keep
    | with_reducible apply State.setReg_keep
    | with_reducible apply Keep.ite <;> intro _
    | with_reducible apply Keep.foldl <;> try intro _ _ _
    | with_reducible apply Keep.foldl_snd <;> try intro _ _ _
    | with_reducible refine Keep.of_snd ‹_ = (_, _)› ?_
    | with_reducible refine Keep.of_snd2 ‹_ = (_, _, _)› ?_
    | with_reducible apply Keep.of_id
    | split
    | dsimp only

theorem State.capture_keep {m : Nat} {s0 : State} (s : State) (a1 : _) (a2 : _) (a3 : _) (a4 : _) (a5 : _) (a6 : _) (hm : subMask 816 m = true) (h : Keep m s0 s) : Keep m s0 (State.capture s a1 a2 a3 a4 a5 a6) := by
  refine Keep.lift (f := 816) ?_ hm h
  unfold State.capture
  repeat' first
    | exact rfl
    | with_reducible exact Keep.refl _ _
    | with_reducible assumption
    | with_reducible apply State.ashAdd_keep
    | with_reducible apply State.holdFault_keep
    | with_reducible apply Keep.ite <;> intro _
    | with_reducible apply Keep.foldl <;> try intro _ _ _
    | with_reducible apply Keep.foldl_snd <;> try intro _ _ _
    | with_reducible refine Keep.of_snd ‹_ = (_, _)› ?_
    | with_reducible refine Keep.of_snd2 ‹_ = (_, _, _)› ?_
    | with_reducible apply Keep.of_id
    | split
    | dsimp only

theorem State.hostError_keep {m : Nat} {s0 : State} (s : State) (a1 : _) (a2 : _) (a3 : _) (hm : subMask 32 m = true) (h : Keep m s0 s) : Keep m s0 (State.hostError s a1 a2 a3) := by
  refine Keep.lift (f := 32) ?_ hm h
  unfold State.hostError
  repeat' first
    | exact rfl
    | with_reducible exact Keep.refl _ _
    | with_reducible assumption
    | with_reducible apply State.sets_keep
    | with_reducible apply State.bump_keep
    | with_reducible apply Keep.ite <;> intro _
    | with_reducible apply Keep.foldl <;> try intro _ _ _
    | with_reducible apply Keep.foldl_snd <;> try intro _ _ _
    | with_reducible refine Keep.of_snd ‹_ = (_, _)› ?_
    | with_reducible refine Keep.of_snd2 ‹_ = (_, _, _)› ?_
    | with_reducible apply Keep.of_id
    | split
    | dsimp only

theorem State.answer_keep {m : Nat} {s0 : State} (s : State) (a1 : _) (a2 : _) (hm : subMask 2 m = true) (h : Keep m s0 s) : Keep m s0 (State.answer s a1 a2) := by
  refine Keep.lift (f := 2) ?_ hm h
  unfold State.answer
  repeat' first
    | exact rfl
    | with_reducible exact Keep.refl _ _
    | with_reducible assumption
    | with_reducible apply Keep.ite <;> intro _
    | with_reducible apply Keep.foldl <;> try intro _ _ _
    | with_reducible apply Keep.foldl_snd <;> try intro _ _ _
    | (rewrite [State.mk_eq_updOf]; (with_reducible refine Keep.node 2 ?_ ?_ ?_); · refine Keep.upd 2 ?_ ?_ ?_ ?_ ?_ (fun p hp => ?_); exact rfl; exact rfl; exact rfl; exact rfl; exact rfl; cases p <;> first | exact absurd hp (by decide) | exact rfl)
    | with_reducible refine Keep.of_snd ‹_ = (_, _)› ?_
    | with_reducible refine Keep.of_snd2 ‹_ = (_, _, _)› ?_
    | with_reducible apply Keep.of_id
    | split
    | dsimp only

theorem State.refuse_keep {m : Nat} {s0 : State} (s : State) (a1 : _) (a2 : _) (a3 : _) (a4 : _) (a5 : _) (a6 : _) (a7 : _) (hm : subMask 818 m = true) (h : Keep m s0 s) : Keep m s0 (State.refuse s a1 a2 a3 a4 a5 a6 a7) := by
  refine Keep.lift (f := 818) ?_ hm h
  unfold State.refuse
  repeat' first
    | exact rfl
    | with_reducible exact Keep.refl _ _
    | with_reducible assumption
    | with_reducible apply State.hostError_keep
    | with_reducible apply State.capture_keep
    | with_reducible apply Keep.ite <;> intro _
    | with_reducible apply Keep.foldl <;> try intro _ _ _
    | with_reducible apply Keep.foldl_snd <;> try intro _ _ _
    | (rewrite [State.mk_eq_updOf]; (with_reducible refine Keep.node 2 ?_ ?_ ?_); · refine Keep.upd 2 ?_ ?_ ?_ ?_ ?_ (fun p hp => ?_); exact rfl; exact rfl; exact rfl; exact rfl; exact rfl; cases p <;> first | exact absurd hp (by decide) | exact rfl)
    | with_reducible refine Keep.of_snd ‹_ = (_, _)› ?_
    | with_reducible refine Keep.of_snd2 ‹_ = (_, _, _)› ?_
    | with_reducible apply Keep.of_id
    | split
    | dsimp only

theorem readReg_keep {m : Nat} {s0 : State} (a0 : _) (a1 : _) (a2 : _) (a3 : _) (a4 : _) (s : State) (hf : ∀ r ix rq t, Keep m s0 t → Keep m s0 (a4 r ix rq t).2) (hm : subMask 818 m = true) (h : Keep m s0 s) : Keep m s0 (readReg a0 a1 a2 a3 a4 s) := by
  unfold readReg
  repeat' first
    | exact rfl
    | exact subMask_trans rfl hm
    | with_reducible refine hf _ _ _ _ ?_
    | with_reducible exact Keep.refl _ _
    | with_reducible assumption
    | with_reducible apply State.refuse_keep
    | with_reducible apply State.answer_keep
    | with_reducible apply Keep.ite <;> intro _
    | with_reducible apply Keep.foldl <;> try intro _ _ _
    | with_reducible apply Keep.foldl_snd <;> try intro _ _ _
    | with_reducible refine Keep.of_snd ‹_ = (_, _)› ?_
    | with_reducible refine Keep.of_snd2 ‹_ = (_, _, _)› ?_
    | with_reducible apply Keep.of_id
    | split
    | dsimp only

theorem writeReg_keep {m : Nat} {s0 : State} (a0 : _) (a1 : _) (a2 : _) (a3 : _) (a4 : _) (a5 : _) (s : State) (hf : ∀ r ix v rq t, Keep m s0 t → Keep m s0 (a5 r ix v rq t)) (hm : subMask 818 m = true) (h : Keep m s0 s) : Keep m s0 (writeReg a0 a1 a2 a3 a4 a5 s) := by
  unfold writeReg
  repeat' first
    | exact rfl
    | exact subMask_trans rfl hm
    | with_reducible refine hf _ _ _ _ _ ?_
    | with_reducible exact Keep.refl _ _
    | with_reducible assumption
    | with_reducible apply State.refuse_keep
    | with_reducible apply State.answer_keep
    | with_reducible apply Keep.ite <;> intro _
    | with_reducible apply Keep.foldl <;> try intro _ _ _
    | with_reducible apply Keep.foldl_snd <;> try intro _ _ _
    | with_reducible refine Keep.of_snd ‹_ = (_, _)› ?_
    | with_reducible refine Keep.of_snd2 ‹_ = (_, _, _)› ?_
    | with_reducible apply Keep.of_id
    | split
    | dsimp only

theorem writeOrHold_keep {m : Nat} {s0 : State} (a0 : _) (a1 : _) (a2 : _) (a3 : _) (a4 : _) (a5 : _) (s : State) (hf : ∀ r ix v rq t, Keep m s0 t → Keep m s0 (a5 r ix v rq t)) (hm : subMask 822 m = true) (h : Keep m s0 s) : Keep m s0 (writeOrHold a0 a1 a2 a3 a4 a5 s) := by
  unfold writeOrHold
  repeat' first
    | exact rfl
    | exact subMask_trans rfl hm
    | with_reducible refine hf _ _ _ _ _ ?_
    | with_reducible exact Keep.refl _ _
    | with_reducible assumption
    | with_reducible refine writeReg_keep _ _ _ _ _ _ _ (fun _ _ _ _ _ _ => ?_) ?_ ?_
    | with_reducible apply Keep.ite <;> intro _
    | with_reducible apply Keep.foldl <;> try intro _ _ _
    | with_reducible apply Keep.foldl_snd <;> try intro _ _ _
    | (rewrite [State.mk_eq_updOf]; (with_reducible refine Keep.node 4 ?_ ?_ ?_); · refine Keep.upd 4 ?_ ?_ ?_ ?_ ?_ (fun p hp => ?_); exact rfl; exact rfl; exact rfl; exact rfl; exact rfl; cases p <;> first | exact absurd hp (by decide) | exact rfl)
    | with_reducible refine Keep.of_snd ‹_ = (_, _)› ?_
    | with_reducible refine Keep.of_snd2 ‹_ = (_, _, _)› ?_
    | with_reducible apply Keep.of_id
    | split
    | dsimp only

theorem State.unhold_keep {m : Nat} {s0 : State} (s : State) (a1 : _) (a2 : _) (hf : ∀ v rq t, Keep m s0 t → Keep m s0 (a2 v rq t)) (hm : subMask 6 m = true) (h : Keep m s0 s) : Keep m s0 (State.unhold s a1 a2) := by
  unfold State.unhold
  repeat' first
    | exact rfl
    | exact subMask_trans rfl hm
    | with_reducible refine hf _ _ _ ?_
    | with_reducible exact Keep.refl _ _
    | with_reducible assumption
    | with_reducible apply State.answer_keep
    | with_reducible apply Keep.ite <;> intro _
    | with_reducible apply Keep.foldl <;> try intro _ _ _
    | with_reducible apply Keep.foldl_snd <;> try intro _ _ _
    | (rewrite [State.mk_eq_updOf]; (with_reducible refine Keep.node 4 ?_ ?_ ?_); · refine Keep.upd 4 ?_ ?_ ?_ ?_ ?_ (fun p hp => ?_); exact rfl; exact rfl; exact rfl; exact rfl; exact rfl; cases p <;> first | exact absurd hp (by decide) | exact rfl)
    | with_reducible refine Keep.of_snd ‹_ = (_, _)› ?_
    | with_reducible refine Keep.of_snd2 ‹_ = (_, _, _)› ?_
    | with_reducible apply Keep.of_id
    | split
    | dsimp only

end Sys2Proof.Machine
end

