-- ==== Sys2Proof/Laws/KeepNtu.lean ====
section
/-! SUPPORT. What each operation of Machine/Ntu.lean leaves alone. -/

set_option Elab.async false

namespace Sys2Proof.Machine

theorem State.ntuUpd_keep {m : Nat} {s0 : State} (s : State) (a1 : _) (hm : subMask 1024 m = true) (h : Keep m s0 s) : Keep m s0 (State.ntuUpd s a1) := by
  refine Keep.lift (f := 1024) ?_ hm h
  unfold State.ntuUpd
  repeat' first
    | exact rfl
    | with_reducible exact Keep.refl _ _
    | with_reducible assumption
    | with_reducible apply Keep.ite <;> intro _
    | with_reducible apply Keep.foldl <;> try intro _ _ _
    | with_reducible apply Keep.foldl_snd <;> try intro _ _ _
    | (rewrite [State.mk_eq_updOf]; (with_reducible refine Keep.node 1024 ?_ ?_ ?_); · refine Keep.upd 1024 ?_ ?_ ?_ ?_ ?_ (fun p hp => ?_); exact rfl; exact rfl; exact rfl; exact rfl; exact rfl; cases p <;> first | exact absurd hp (by decide) | exact rfl)
    | with_reducible refine Keep.of_snd ‹_ = (_, _)› ?_
    | with_reducible refine Keep.of_snd2 ‹_ = (_, _, _)› ?_
    | with_reducible apply Keep.of_id
    | split
    | dsimp only

theorem State.ntuFold_keep {m : Nat} {s0 : State} (s : State) (hm : subMask 1024 m = true) (h : Keep m s0 s) : Keep m s0 (State.ntuFold s) := by
  refine Keep.lift (f := 1024) ?_ hm h
  unfold State.ntuFold
  repeat' first
    | exact rfl
    | with_reducible exact Keep.refl _ _
    | with_reducible assumption
    | with_reducible apply State.ntuUpd_keep
    | with_reducible apply Keep.ite <;> intro _
    | with_reducible apply Keep.foldl <;> try intro _ _ _
    | with_reducible apply Keep.foldl_snd <;> try intro _ _ _
    | with_reducible refine Keep.of_snd ‹_ = (_, _)› ?_
    | with_reducible refine Keep.of_snd2 ‹_ = (_, _, _)› ?_
    | with_reducible apply Keep.of_id
    | split
    | dsimp only

theorem State.ntuFoldAll_keep {m : Nat} {s0 : State} (s : State) (hm : subMask 1024 m = true) (h : Keep m s0 s) : Keep m s0 (State.ntuFoldAll s) := by
  refine Keep.lift (f := 1024) ?_ hm h
  unfold State.ntuFoldAll
  repeat' first
    | exact rfl
    | with_reducible exact Keep.refl _ _
    | with_reducible assumption
    | with_reducible apply State.ntuUpd_keep
    | with_reducible apply State.ntuFold_keep
    | with_reducible apply Keep.ite <;> intro _
    | with_reducible apply Keep.foldl <;> try intro _ _ _
    | with_reducible apply Keep.foldl_snd <;> try intro _ _ _
    | with_reducible refine Keep.of_snd ‹_ = (_, _)› ?_
    | with_reducible refine Keep.of_snd2 ‹_ = (_, _, _)› ?_
    | with_reducible apply Keep.of_id
    | split
    | dsimp only

theorem State.setTimeState_keep {m : Nat} {s0 : State} (s : State) (a1 : _) (hm : subMask 1328 m = true) (h : Keep m s0 s) : Keep m s0 (State.setTimeState s a1) := by
  refine Keep.lift (f := 1328) ?_ hm h
  unfold State.setTimeState
  repeat' first
    | exact rfl
    | with_reducible exact Keep.refl _ _
    | with_reducible assumption
    | with_reducible apply State.set_keep
    | with_reducible apply State.ntuUpd_keep
    | with_reducible apply State.raise_keep
    | with_reducible apply Keep.ite <;> intro _
    | with_reducible apply Keep.foldl <;> try intro _ _ _
    | with_reducible apply Keep.foldl_snd <;> try intro _ _ _
    | with_reducible refine Keep.of_snd ‹_ = (_, _)› ?_
    | with_reducible refine Keep.of_snd2 ‹_ = (_, _, _)› ?_
    | with_reducible apply Keep.of_id
    | split
    | dsimp only

theorem State.ntuStep_keep {m : Nat} {s0 : State} (s : State) (a1 : _) (a2 : _) (hm : subMask 1840 m = true) (h : Keep m s0 s) : Keep m s0 (State.ntuStep s a1 a2) := by
  refine Keep.lift (f := 1840) ?_ hm h
  unfold State.ntuStep
  repeat' first
    | exact rfl
    | with_reducible exact Keep.refl _ _
    | with_reducible assumption
    | with_reducible apply State.ntuFoldAll_keep
    | with_reducible apply State.ntuUpd_keep
    | with_reducible apply State.raise_keep
    | with_reducible apply State.ashAdd_keep
    | with_reducible apply State.set_keep
    | with_reducible apply Keep.ite <;> intro _
    | with_reducible apply Keep.foldl <;> try intro _ _ _
    | with_reducible apply Keep.foldl_snd <;> try intro _ _ _
    | with_reducible refine Keep.of_snd ‹_ = (_, _)› ?_
    | with_reducible refine Keep.of_snd2 ‹_ = (_, _, _)› ?_
    | with_reducible apply Keep.of_id
    | split
    | dsimp only

theorem State.ntuSlew_keep {m : Nat} {s0 : State} (s : State) (a1 : _) (hm : subMask 1056 m = true) (h : Keep m s0 s) : Keep m s0 (State.ntuSlew s a1) := by
  refine Keep.lift (f := 1056) ?_ hm h
  unfold State.ntuSlew
  repeat' first
    | exact rfl
    | with_reducible exact Keep.refl _ _
    | with_reducible assumption
    | with_reducible apply State.ntuFoldAll_keep
    | with_reducible apply State.set_keep
    | with_reducible apply State.ntuUpd_keep
    | with_reducible apply Keep.ite <;> intro _
    | with_reducible apply Keep.foldl <;> try intro _ _ _
    | with_reducible apply Keep.foldl_snd <;> try intro _ _ _
    | with_reducible refine Keep.of_snd ‹_ = (_, _)› ?_
    | with_reducible refine Keep.of_snd2 ‹_ = (_, _, _)› ?_
    | with_reducible apply Keep.of_id
    | split
    | dsimp only

theorem State.timeStat_keep {m : Nat} {s0 : State} (s : State) (a1 : _) (hm : subMask 32 m = true) (h : Keep m s0 s) : Keep m s0 (State.timeStat s a1) := by
  refine Keep.lift (f := 32) ?_ hm h
  unfold State.timeStat
  repeat' first
    | exact rfl
    | with_reducible exact Keep.refl _ _
    | with_reducible assumption
    | with_reducible apply State.commit_keep
    | with_reducible apply Keep.ite <;> intro _
    | with_reducible apply Keep.foldl <;> try intro _ _ _
    | with_reducible apply Keep.foldl_snd <;> try intro _ _ _
    | with_reducible refine Keep.of_snd ‹_ = (_, _)› ?_
    | with_reducible refine Keep.of_snd2 ‹_ = (_, _, _)› ?_
    | with_reducible apply Keep.of_id
    | split
    | dsimp only

theorem State.ntuCorrect_keep {m : Nat} {s0 : State} (s : State) (a1 : _) (hm : subMask 1840 m = true) (h : Keep m s0 s) : Keep m s0 (State.ntuCorrect s a1).1 := by
  refine Keep.lift (f := 1840) ?_ hm h
  unfold State.ntuCorrect
  repeat' first
    | exact rfl
    | with_reducible exact Keep.refl _ _
    | with_reducible assumption
    | with_reducible apply State.timeStat_keep
    | with_reducible apply State.setTimeState_keep
    | with_reducible apply State.ntuStep_keep
    | with_reducible apply State.ntuSlew_keep
    | with_reducible apply State.raise_keep
    | with_reducible apply State.inc_keep
    | with_reducible apply State.set_keep
    | with_reducible apply Keep.ite <;> intro _
    | with_reducible apply Keep.foldl <;> try intro _ _ _
    | with_reducible apply Keep.foldl_snd <;> try intro _ _ _
    | with_reducible refine Keep.of_snd ‹_ = (_, _)› ?_
    | with_reducible refine Keep.of_snd2 ‹_ = (_, _, _)› ?_
    | with_reducible apply Keep.of_id
    | split
    | dsimp only

theorem State.disarm_keep {m : Nat} {s0 : State} (s : State) (hm : subMask 1056 m = true) (h : Keep m s0 s) : Keep m s0 (State.disarm s) := by
  refine Keep.lift (f := 1056) ?_ hm h
  unfold State.disarm
  repeat' first
    | exact rfl
    | with_reducible exact Keep.refl _ _
    | with_reducible assumption
    | with_reducible apply State.set_keep
    | with_reducible apply State.ntuUpd_keep
    | with_reducible apply Keep.ite <;> intro _
    | with_reducible apply Keep.foldl <;> try intro _ _ _
    | with_reducible apply Keep.foldl_snd <;> try intro _ _ _
    | with_reducible refine Keep.of_snd ‹_ = (_, _)› ?_
    | with_reducible refine Keep.of_snd2 ‹_ = (_, _, _)› ?_
    | with_reducible apply Keep.of_id
    | split
    | dsimp only

theorem State.ntuForce_keep {m : Nat} {s0 : State} (s : State) (a1 : _) (hm : subMask 1840 m = true) (h : Keep m s0 s) : Keep m s0 (State.ntuForce s a1).1 := by
  refine Keep.lift (f := 1840) ?_ hm h
  unfold State.ntuForce
  repeat' first
    | exact rfl
    | with_reducible exact Keep.refl _ _
    | with_reducible assumption
    | with_reducible apply State.disarm_keep
    | with_reducible apply State.timeStat_keep
    | with_reducible apply State.setTimeState_keep
    | with_reducible apply State.ntuStep_keep
    | with_reducible apply Keep.ite <;> intro _
    | with_reducible apply Keep.foldl <;> try intro _ _ _
    | with_reducible apply Keep.foldl_snd <;> try intro _ _ _
    | with_reducible refine Keep.of_snd ‹_ = (_, _)› ?_
    | with_reducible refine Keep.of_snd2 ‹_ = (_, _, _)› ?_
    | with_reducible apply Keep.of_id
    | split
    | dsimp only

theorem State.ntuCtl_keep {m : Nat} {s0 : State} (s : State) (a1 : _) (hm : subMask 1840 m = true) (h : Keep m s0 s) : Keep m s0 (State.ntuCtl s a1).1 := by
  refine Keep.lift (f := 1840) ?_ hm h
  unfold State.ntuCtl
  extract_lets op
  clear_value op
  repeat' first
    | exact rfl
    | with_reducible exact Keep.refl _ _
    | with_reducible assumption
    | with_reducible apply State.set_keep
    | with_reducible apply State.ntuUpd_keep
    | with_reducible apply State.disarm_keep
    | with_reducible apply State.ntuCorrect_keep
    | with_reducible apply State.ntuForce_keep
    | with_reducible apply State.setTimeState_keep
    | with_reducible apply Keep.ite <;> intro _
    | with_reducible apply Keep.foldl <;> try intro _ _ _
    | with_reducible apply Keep.foldl_snd <;> try intro _ _ _
    | with_reducible refine Keep.of_snd ‹_ = (_, _)› ?_
    | with_reducible refine Keep.of_snd2 ‹_ = (_, _, _)› ?_
    | with_reducible apply Keep.of_id
    | split
    | dsimp only

theorem State.ppsAlign_keep {m : Nat} {s0 : State} (s : State) (hm : subMask 1024 m = true) (h : Keep m s0 s) : Keep m s0 (State.ppsAlign s) := by
  refine Keep.lift (f := 1024) ?_ hm h
  unfold State.ppsAlign
  repeat' first
    | exact rfl
    | with_reducible exact Keep.refl _ _
    | with_reducible assumption
    | with_reducible apply State.ntuUpd_keep
    | with_reducible apply Keep.ite <;> intro _
    | with_reducible apply Keep.foldl <;> try intro _ _ _
    | with_reducible apply Keep.foldl_snd <;> try intro _ _ _
    | with_reducible refine Keep.of_snd ‹_ = (_, _)› ?_
    | with_reducible refine Keep.of_snd2 ‹_ = (_, _, _)› ?_
    | with_reducible apply Keep.of_id
    | split
    | dsimp only

theorem State.tsyncAlign_keep {m : Nat} {s0 : State} (s : State) (hm : subMask 1024 m = true) (h : Keep m s0 s) : Keep m s0 (State.tsyncAlign s) := by
  refine Keep.lift (f := 1024) ?_ hm h
  unfold State.tsyncAlign
  repeat' first
    | exact rfl
    | with_reducible exact Keep.refl _ _
    | with_reducible assumption
    | with_reducible apply State.ntuUpd_keep
    | with_reducible apply Keep.ite <;> intro _
    | with_reducible apply Keep.foldl <;> try intro _ _ _
    | with_reducible apply Keep.foldl_snd <;> try intro _ _ _
    | with_reducible refine Keep.of_snd ‹_ = (_, _)› ?_
    | with_reducible refine Keep.of_snd2 ‹_ = (_, _, _)› ?_
    | with_reducible apply Keep.of_id
    | split
    | dsimp only

theorem State.synceState_keep {m : Nat} {s0 : State} (s : State) (a1 : _) (hm : subMask 304 m = true) (h : Keep m s0 s) : Keep m s0 (State.synceState s a1) := by
  refine Keep.lift (f := 304) ?_ hm h
  unfold State.synceState
  repeat' first
    | exact rfl
    | with_reducible exact Keep.refl _ _
    | with_reducible assumption
    | with_reducible apply State.raise_keep
    | with_reducible apply State.set_keep
    | with_reducible apply Keep.ite <;> intro _
    | with_reducible apply Keep.foldl <;> try intro _ _ _
    | with_reducible apply Keep.foldl_snd <;> try intro _ _ _
    | with_reducible refine Keep.of_snd ‹_ = (_, _)› ?_
    | with_reducible refine Keep.of_snd2 ‹_ = (_, _, _)› ?_
    | with_reducible apply Keep.of_id
    | split
    | dsimp only

theorem State.ptmRequest_keep {m : Nat} {s0 : State} (s : State) (hm : subMask 1328 m = true) (h : Keep m s0 s) : Keep m s0 (State.ptmRequest s) := by
  refine Keep.lift (f := 1328) ?_ hm h
  unfold State.ptmRequest
  repeat' first
    | exact rfl
    | with_reducible exact Keep.refl _ _
    | with_reducible assumption
    | with_reducible apply State.emit_keep
    | with_reducible apply State.ntuUpd_keep
    | with_reducible apply State.pendResult_keep
    | with_reducible apply State.raise_keep
    | with_reducible apply State.commit_keep
    | with_reducible apply Keep.ite <;> intro _
    | with_reducible apply Keep.foldl <;> try intro _ _ _
    | with_reducible apply Keep.foldl_snd <;> try intro _ _ _
    | with_reducible refine Keep.of_snd ‹_ = (_, _)› ?_
    | with_reducible refine Keep.of_snd2 ‹_ = (_, _, _)› ?_
    | with_reducible apply Keep.of_id
    | split
    | dsimp only

theorem wrNtu_keep {m : Nat} {s0 : State} (a0 : _) (a1 : _) (a2 : _) (a3 : _) (s : State) (hm : subMask 1840 m = true) (h : Keep m s0 s) : Keep m s0 (wrNtu a0 a1 a2 a3 s) := by
  refine Keep.lift (f := 1840) ?_ hm h
  unfold wrNtu
  repeat' first
    | exact rfl
    | with_reducible exact Keep.refl _ _
    | with_reducible assumption
    | with_reducible apply State.ntuCtl_keep
    | with_reducible apply storeWord_keep
    | with_reducible apply State.ntuFoldAll_keep
    | with_reducible apply State.ntuFold_keep
    | with_reducible apply State.ntuUpd_keep
    | with_reducible apply State.ppsAlign_keep
    | with_reducible apply State.synceState_keep
    | with_reducible apply State.ptmRequest_keep
    | with_reducible apply Keep.ite <;> intro _
    | with_reducible apply Keep.foldl <;> try intro _ _ _
    | with_reducible apply Keep.foldl_snd <;> try intro _ _ _
    | with_reducible refine Keep.of_snd ‹_ = (_, _)› ?_
    | with_reducible refine Keep.of_snd2 ‹_ = (_, _, _)› ?_
    | with_reducible apply Keep.of_id
    | split
    | dsimp only

theorem State.txtsPop_keep {m : Nat} {s0 : State} (s : State) (hm : subMask 1056 m = true) (h : Keep m s0 s) : Keep m s0 (State.txtsPop s).2 := by
  refine Keep.lift (f := 1056) ?_ hm h
  unfold State.txtsPop
  repeat' first
    | exact rfl
    | with_reducible exact Keep.refl _ _
    | with_reducible assumption
    | with_reducible apply State.setReg_keep
    | with_reducible apply State.ntuUpd_keep
    | with_reducible apply Keep.ite <;> intro _
    | with_reducible apply Keep.foldl <;> try intro _ _ _
    | with_reducible apply Keep.foldl_snd <;> try intro _ _ _
    | with_reducible refine Keep.of_snd ‹_ = (_, _)› ?_
    | with_reducible refine Keep.of_snd2 ‹_ = (_, _, _)› ?_
    | with_reducible apply Keep.of_id
    | split
    | dsimp only

theorem State.txtsPush_keep {m : Nat} {s0 : State} (s : State) (a1 : _) (hm : subMask 1328 m = true) (h : Keep m s0 s) : Keep m s0 (State.txtsPush s a1) := by
  refine Keep.lift (f := 1328) ?_ hm h
  unfold State.txtsPush
  repeat' first
    | exact rfl
    | with_reducible exact Keep.refl _ _
    | with_reducible assumption
    | with_reducible apply State.inc_keep
    | with_reducible apply State.ntuUpd_keep
    | with_reducible apply State.raise_keep
    | with_reducible apply Keep.ite <;> intro _
    | with_reducible apply Keep.foldl <;> try intro _ _ _
    | with_reducible apply Keep.foldl_snd <;> try intro _ _ _
    | with_reducible refine Keep.of_snd ‹_ = (_, _)› ?_
    | with_reducible refine Keep.of_snd2 ‹_ = (_, _, _)› ?_
    | with_reducible apply Keep.of_id
    | split
    | dsimp only

theorem State.timeRead_keep {m : Nat} {s0 : State} (s : State) (hm : subMask 32 m = true) (h : Keep m s0 s) : Keep m s0 (State.timeRead s).2 := by
  refine Keep.lift (f := 32) ?_ hm h
  unfold State.timeRead
  repeat' first
    | exact rfl
    | with_reducible exact Keep.refl _ _
    | with_reducible assumption
    | with_reducible apply State.setReg_keep
    | with_reducible apply Keep.ite <;> intro _
    | with_reducible apply Keep.foldl <;> try intro _ _ _
    | with_reducible apply Keep.foldl_snd <;> try intro _ _ _
    | with_reducible refine Keep.of_snd ‹_ = (_, _)› ?_
    | with_reducible refine Keep.of_snd2 ‹_ = (_, _, _)› ?_
    | with_reducible apply Keep.of_id
    | split
    | dsimp only

theorem rdNtu_keep {m : Nat} {s0 : State} (a0 : _) (a1 : _) (a2 : _) (s : State) (hm : subMask 1328 m = true) (h : Keep m s0 s) : Keep m s0 (rdNtu a0 a1 a2 s).2 := by
  refine Keep.lift (f := 1328) ?_ hm h
  unfold rdNtu
  repeat' first
    | exact rfl
    | with_reducible exact Keep.refl _ _
    | with_reducible assumption
    | with_reducible apply State.timeRead_keep
    | with_reducible apply State.txtsPop_keep
    | with_reducible apply State.setReg_keep
    | with_reducible apply readEffect_keep
    | with_reducible apply loadWord_keep
    | with_reducible apply Keep.ite <;> intro _
    | with_reducible apply Keep.foldl <;> try intro _ _ _
    | with_reducible apply Keep.foldl_snd <;> try intro _ _ _
    | with_reducible refine Keep.of_snd ‹_ = (_, _)› ?_
    | with_reducible refine Keep.of_snd2 ‹_ = (_, _, _)› ?_
    | with_reducible apply Keep.of_id
    | split
    | dsimp only

theorem State.ntuStop_keep {m : Nat} {s0 : State} (s : State) (hm : subMask 17408 m = true) (h : Keep m s0 s) : Keep m s0 (State.ntuStop s) := by
  refine Keep.lift (f := 17408) ?_ hm h
  unfold State.ntuStop
  repeat' first
    | exact rfl
    | with_reducible exact Keep.refl _ _
    | with_reducible assumption
    | with_reducible apply Keep.ite <;> intro _
    | with_reducible apply Keep.foldl <;> try intro _ _ _
    | with_reducible apply Keep.foldl_snd <;> try intro _ _ _
    | (rewrite [State.mk_eq_updOf]; (with_reducible refine Keep.node 17408 ?_ ?_ ?_); · refine Keep.upd 17408 ?_ ?_ ?_ ?_ ?_ (fun p hp => ?_); exact rfl; exact rfl; exact rfl; exact rfl; exact rfl; cases p <;> first | exact absurd hp (by decide) | exact rfl)
    | with_reducible refine Keep.of_snd ‹_ = (_, _)› ?_
    | with_reducible refine Keep.of_snd2 ‹_ = (_, _, _)› ?_
    | with_reducible apply Keep.of_id
    | split
    | dsimp only

theorem State.ntuResume_keep {m : Nat} {s0 : State} (s : State) (hm : subMask 17440 m = true) (h : Keep m s0 s) : Keep m s0 (State.ntuResume s) := by
  refine Keep.lift (f := 17440) ?_ hm h
  unfold State.ntuResume
  repeat' first
    | exact rfl
    | with_reducible exact Keep.refl _ _
    | with_reducible assumption
    | with_reducible apply State.set_keep
    | with_reducible apply State.setReg_keep
    | with_reducible apply State.sets_keep
    | with_reducible apply Keep.ite <;> intro _
    | with_reducible apply Keep.foldl <;> try intro _ _ _
    | with_reducible apply Keep.foldl_snd <;> try intro _ _ _
    | (rewrite [State.mk_eq_updOf]; (with_reducible refine Keep.node 17408 ?_ ?_ ?_); · refine Keep.upd 17408 ?_ ?_ ?_ ?_ ?_ (fun p hp => ?_); exact rfl; exact rfl; exact rfl; exact rfl; exact rfl; cases p <;> first | exact absurd hp (by decide) | exact rfl)
    | with_reducible refine Keep.of_snd ‹_ = (_, _)› ?_
    | with_reducible refine Keep.of_snd2 ‹_ = (_, _, _)› ?_
    | with_reducible apply Keep.of_id
    | split
    | dsimp only

theorem State.ntuRefLost_keep {m : Nat} {s0 : State} (s : State) (hm : subMask 1328 m = true) (h : Keep m s0 s) : Keep m s0 (State.ntuRefLost s) := by
  refine Keep.lift (f := 1328) ?_ hm h
  unfold State.ntuRefLost
  repeat' first
    | exact rfl
    | with_reducible exact Keep.refl _ _
    | with_reducible assumption
    | with_reducible apply State.ntuUpd_keep
    | with_reducible apply State.ntuFoldAll_keep
    | with_reducible apply State.set_keep
    | with_reducible apply State.setTimeState_keep
    | with_reducible apply Keep.ite <;> intro _
    | with_reducible apply Keep.foldl <;> try intro _ _ _
    | with_reducible apply Keep.foldl_snd <;> try intro _ _ _
    | with_reducible refine Keep.of_snd ‹_ = (_, _)› ?_
    | with_reducible refine Keep.of_snd2 ‹_ = (_, _, _)› ?_
    | with_reducible apply Keep.of_id
    | split
    | dsimp only

theorem State.ntuRefBack_keep {m : Nat} {s0 : State} (s : State) (hm : subMask 1056 m = true) (h : Keep m s0 s) : Keep m s0 (State.ntuRefBack s) := by
  refine Keep.lift (f := 1056) ?_ hm h
  unfold State.ntuRefBack
  repeat' first
    | exact rfl
    | with_reducible exact Keep.refl _ _
    | with_reducible assumption
    | with_reducible apply State.ntuUpd_keep
    | with_reducible apply State.set_keep
    | with_reducible apply Keep.ite <;> intro _
    | with_reducible apply Keep.foldl <;> try intro _ _ _
    | with_reducible apply Keep.foldl_snd <;> try intro _ _ _
    | with_reducible refine Keep.of_snd ‹_ = (_, _)› ?_
    | with_reducible refine Keep.of_snd2 ‹_ = (_, _, _)› ?_
    | with_reducible apply Keep.of_id
    | split
    | dsimp only

theorem execNtuHoldover_keep (a0 : _) (s : State) {t : State} (h : execNtuHoldover a0 s = .next t) : Keep 1842 s t := by
  unfold execNtuHoldover at h
  injection h with h
  subst h
  repeat' first
    | exact rfl
    | with_reducible exact Keep.refl _ _
    | with_reducible assumption
    | with_reducible refine writeReg_keep _ _ _ _ _ _ _ (fun _ _ _ _ _ _ => ?_) ?_ ?_
    | with_reducible apply wrNtu_keep
    | with_reducible apply Keep.ite <;> intro _
    | with_reducible apply Keep.foldl <;> try intro _ _ _
    | with_reducible apply Keep.foldl_snd <;> try intro _ _ _
    | with_reducible refine Keep.of_snd ‹_ = (_, _)› ?_
    | with_reducible refine Keep.of_snd2 ‹_ = (_, _, _)› ?_
    | with_reducible apply Keep.of_id
    | split
    | dsimp only

theorem execNtuArm_keep (a0 : _) (s : State) {t : State} (h : execNtuArm a0 s = .next t) : Keep 1842 s t := by
  unfold execNtuArm at h
  injection h with h
  subst h
  repeat' first
    | exact rfl
    | with_reducible exact Keep.refl _ _
    | with_reducible assumption
    | with_reducible refine writeReg_keep _ _ _ _ _ _ _ (fun _ _ _ _ _ _ => ?_) ?_ ?_
    | with_reducible apply wrNtu_keep
    | with_reducible apply Keep.ite <;> intro _
    | with_reducible apply Keep.foldl <;> try intro _ _ _
    | with_reducible apply Keep.foldl_snd <;> try intro _ _ _
    | with_reducible refine Keep.of_snd ‹_ = (_, _)› ?_
    | with_reducible refine Keep.of_snd2 ‹_ = (_, _, _)› ?_
    | with_reducible apply Keep.of_id
    | split
    | dsimp only

theorem execNtuArmExpiry_keep (s : State) {t : State} (h : execNtuArmExpiry s = .next t) : Keep 1056 s t := by
  unfold execNtuArmExpiry at h
  injection h with h
  subst h
  repeat' first
    | exact rfl
    | with_reducible exact Keep.refl _ _
    | with_reducible assumption
    | with_reducible apply State.disarm_keep
    | with_reducible apply Keep.ite <;> intro _
    | with_reducible apply Keep.foldl <;> try intro _ _ _
    | with_reducible apply Keep.foldl_snd <;> try intro _ _ _
    | with_reducible refine Keep.of_snd ‹_ = (_, _)› ?_
    | with_reducible refine Keep.of_snd2 ‹_ = (_, _, _)› ?_
    | with_reducible apply Keep.of_id
    | split
    | dsimp only

theorem execSlewEnd_keep (s : State) {t : State} (h : execSlewEnd s = .next t) : Keep 1056 s t := by
  unfold execSlewEnd at h
  injection h with h
  subst h
  repeat' first
    | exact rfl
    | with_reducible exact Keep.refl _ _
    | with_reducible assumption
    | with_reducible apply State.set_keep
    | with_reducible apply State.ntuUpd_keep
    | with_reducible apply Keep.ite <;> intro _
    | with_reducible apply Keep.foldl <;> try intro _ _ _
    | with_reducible apply Keep.foldl_snd <;> try intro _ _ _
    | with_reducible refine Keep.of_snd ‹_ = (_, _)› ?_
    | with_reducible refine Keep.of_snd2 ‹_ = (_, _, _)› ?_
    | with_reducible apply Keep.of_id
    | split
    | dsimp only

theorem execServoWatchdog_keep (s : State) {t : State} (h : execServoWatchdog s = .next t) : Keep 1328 s t := by
  unfold execServoWatchdog at h
  injection h with h
  subst h
  repeat' first
    | exact rfl
    | with_reducible exact Keep.refl _ _
    | with_reducible assumption
    | with_reducible apply State.inc_keep
    | with_reducible apply State.setTimeState_keep
    | with_reducible apply Keep.ite <;> intro _
    | with_reducible apply Keep.foldl <;> try intro _ _ _
    | with_reducible apply Keep.foldl_snd <;> try intro _ _ _
    | with_reducible refine Keep.of_snd ‹_ = (_, _)› ?_
    | with_reducible refine Keep.of_snd2 ‹_ = (_, _, _)› ?_
    | with_reducible apply Keep.of_id
    | split
    | dsimp only

theorem execTimeRateWrite_keep (a0 : _) (a1 : _) (s : State) {t : State} (h : execTimeRateWrite a0 a1 s = .next t) : Keep 1842 s t := by
  unfold execTimeRateWrite at h
  injection h with h
  subst h
  repeat' first
    | exact rfl
    | with_reducible exact Keep.refl _ _
    | with_reducible assumption
    | with_reducible refine writeReg_keep _ _ _ _ _ _ _ (fun _ _ _ _ _ _ => ?_) ?_ ?_
    | with_reducible apply wrNtu_keep
    | with_reducible apply Keep.ite <;> intro _
    | with_reducible apply Keep.foldl <;> try intro _ _ _
    | with_reducible apply Keep.foldl_snd <;> try intro _ _ _
    | with_reducible refine Keep.of_snd ‹_ = (_, _)› ?_
    | with_reducible refine Keep.of_snd2 ‹_ = (_, _, _)› ?_
    | with_reducible apply Keep.of_id
    | split
    | dsimp only

theorem execNtuTimeNs_keep (a0 : _) (s : State) {t : State} (h : execNtuTimeNs a0 s = .next t) : Keep 1842 s t := by
  unfold execNtuTimeNs at h
  injection h with h
  subst h
  repeat' first
    | exact rfl
    | with_reducible exact Keep.refl _ _
    | with_reducible assumption
    | with_reducible refine readReg_keep _ _ _ _ _ _ (fun _ _ _ _ _ => ?_) ?_ ?_
    | with_reducible apply rdNtu_keep
    | with_reducible apply Keep.ite <;> intro _
    | with_reducible apply Keep.foldl <;> try intro _ _ _
    | with_reducible apply Keep.foldl_snd <;> try intro _ _ _
    | with_reducible refine Keep.of_snd ‹_ = (_, _)› ?_
    | with_reducible refine Keep.of_snd2 ‹_ = (_, _, _)› ?_
    | with_reducible apply Keep.of_id
    | split
    | dsimp only

theorem execPpsOutPulse_keep (s : State) {t : State} (h : execPpsOutPulse s = .next t) : Keep 1040 s t := by
  unfold execPpsOutPulse at h
  injection h with h
  subst h
  repeat' first
    | exact rfl
    | with_reducible exact Keep.refl _ _
    | with_reducible assumption
    | with_reducible apply State.ppsAlign_keep
    | with_reducible apply State.emit_keep
    | with_reducible apply State.ntuUpd_keep
    | with_reducible apply Keep.ite <;> intro _
    | with_reducible apply Keep.foldl <;> try intro _ _ _
    | with_reducible apply Keep.foldl_snd <;> try intro _ _ _
    | with_reducible refine Keep.of_snd ‹_ = (_, _)› ?_
    | with_reducible refine Keep.of_snd2 ‹_ = (_, _, _)› ?_
    | with_reducible apply Keep.of_id
    | split
    | dsimp only

theorem execPpsIn_keep (s : State) {t : State} (h : execPpsIn s = .next t) : Keep 1328 s t := by
  unfold execPpsIn at h
  injection h with h
  subst h
  repeat' first
    | exact rfl
    | with_reducible exact Keep.refl _ _
    | with_reducible assumption
    | with_reducible apply State.raise_keep
    | with_reducible apply State.sets_keep
    | with_reducible apply State.ntuUpd_keep
    | with_reducible apply Keep.ite <;> intro _
    | with_reducible apply Keep.foldl <;> try intro _ _ _
    | with_reducible apply Keep.foldl_snd <;> try intro _ _ _
    | with_reducible refine Keep.of_snd ‹_ = (_, _)› ?_
    | with_reducible refine Keep.of_snd2 ‹_ = (_, _, _)› ?_
    | with_reducible apply Keep.of_id
    | split
    | dsimp only

theorem execTsyncInEdge_keep (a0 : _) (s : State) {t : State} (h : execTsyncInEdge a0 s = .next t) : Keep 1056 s t := by
  unfold execTsyncInEdge at h
  injection h with h
  subst h
  repeat' first
    | exact rfl
    | with_reducible exact Keep.refl _ _
    | with_reducible assumption
    | with_reducible apply State.sets_keep
    | with_reducible apply State.ntuUpd_keep
    | with_reducible apply Keep.ite <;> intro _
    | with_reducible apply Keep.foldl <;> try intro _ _ _
    | with_reducible apply Keep.foldl_snd <;> try intro _ _ _
    | with_reducible refine Keep.of_snd ‹_ = (_, _)› ?_
    | with_reducible refine Keep.of_snd2 ‹_ = (_, _, _)› ?_
    | with_reducible apply Keep.of_id
    | split
    | dsimp only

theorem execNtuTsyncStart_keep (a0 : _) (a1 : _) (s : State) {t : State} (h : execNtuTsyncStart a0 a1 s = .next t) : Keep 1842 s t := by
  unfold execNtuTsyncStart at h
  injection h with h
  subst h
  repeat' first
    | exact rfl
    | with_reducible exact Keep.refl _ _
    | with_reducible assumption
    | with_reducible refine writeReg_keep _ _ _ _ _ _ _ (fun _ _ _ _ _ _ => ?_) ?_ ?_
    | with_reducible apply wrNtu_keep
    | with_reducible apply Keep.ite <;> intro _
    | with_reducible apply Keep.foldl <;> try intro _ _ _
    | with_reducible apply Keep.foldl_snd <;> try intro _ _ _
    | with_reducible refine Keep.of_snd ‹_ = (_, _)› ?_
    | with_reducible refine Keep.of_snd2 ‹_ = (_, _, _)› ?_
    | with_reducible apply Keep.of_id
    | split
    | dsimp only

theorem execTsyncOutPulse_keep (s : State) {t : State} (h : execTsyncOutPulse s = .next t) : Keep 1040 s t := by
  unfold execTsyncOutPulse at h
  injection h with h
  subst h
  repeat' first
    | exact rfl
    | with_reducible exact Keep.refl _ _
    | with_reducible assumption
    | with_reducible apply State.emit_keep
    | with_reducible apply State.ntuUpd_keep
    | with_reducible apply Keep.ite <;> intro _
    | with_reducible apply Keep.foldl <;> try intro _ _ _
    | with_reducible apply Keep.foldl_snd <;> try intro _ _ _
    | with_reducible refine Keep.of_snd ‹_ = (_, _)› ?_
    | with_reducible refine Keep.of_snd2 ‹_ = (_, _, _)› ?_
    | with_reducible apply Keep.of_id
    | split
    | dsimp only

theorem execNtuCapStat_keep (a0 : _) (s : State) {t : State} (h : execNtuCapStat a0 s = .next t) : Keep 1842 s t := by
  unfold execNtuCapStat at h
  injection h with h
  subst h
  repeat' first
    | exact rfl
    | with_reducible exact Keep.refl _ _
    | with_reducible assumption
    | with_reducible refine readReg_keep _ _ _ _ _ _ (fun _ _ _ _ _ => ?_) ?_ ?_
    | with_reducible apply rdNtu_keep
    | with_reducible apply Keep.ite <;> intro _
    | with_reducible apply Keep.foldl <;> try intro _ _ _
    | with_reducible apply Keep.foldl_snd <;> try intro _ _ _
    | with_reducible refine Keep.of_snd ‹_ = (_, _)› ?_
    | with_reducible refine Keep.of_snd2 ‹_ = (_, _, _)› ?_
    | with_reducible apply Keep.of_id
    | split
    | dsimp only

theorem execNtuTxtsPop_keep (a0 : _) (s : State) {t : State} (h : execNtuTxtsPop a0 s = .next t) : Keep 1842 s t := by
  unfold execNtuTxtsPop at h
  injection h with h
  subst h
  repeat' first
    | exact rfl
    | with_reducible exact Keep.refl _ _
    | with_reducible assumption
    | with_reducible refine readReg_keep _ _ _ _ _ _ (fun _ _ _ _ _ => ?_) ?_ ?_
    | with_reducible apply rdNtu_keep
    | with_reducible apply Keep.ite <;> intro _
    | with_reducible apply Keep.foldl <;> try intro _ _ _
    | with_reducible apply Keep.foldl_snd <;> try intro _ _ _
    | with_reducible refine Keep.of_snd ‹_ = (_, _)› ?_
    | with_reducible refine Keep.of_snd2 ‹_ = (_, _, _)› ?_
    | with_reducible apply Keep.of_id
    | split
    | dsimp only

theorem execPtmRequest_keep (a0 : _) (s : State) {t : State} (h : execPtmRequest a0 s = .next t) : Keep 1842 s t := by
  unfold execPtmRequest at h
  injection h with h
  subst h
  repeat' first
    | exact rfl
    | with_reducible exact Keep.refl _ _
    | with_reducible assumption
    | with_reducible refine writeReg_keep _ _ _ _ _ _ _ (fun _ _ _ _ _ _ => ?_) ?_ ?_
    | with_reducible apply wrNtu_keep
    | with_reducible apply Keep.ite <;> intro _
    | with_reducible apply Keep.foldl <;> try intro _ _ _
    | with_reducible apply Keep.foldl_snd <;> try intro _ _ _
    | with_reducible refine Keep.of_snd ‹_ = (_, _)› ?_
    | with_reducible refine Keep.of_snd2 ‹_ = (_, _, _)› ?_
    | with_reducible apply Keep.of_id
    | split
    | dsimp only

theorem execPtmResponse_keep (a0 : _) (a1 : _) (s : State) {t : State} (h : execPtmResponse a0 a1 s = .next t) : Keep 1328 s t := by
  unfold execPtmResponse at h
  injection h with h
  subst h
  repeat' first
    | exact rfl
    | with_reducible exact Keep.refl _ _
    | with_reducible assumption
    | with_reducible apply State.raise_keep
    | with_reducible apply State.commit_keep
    | with_reducible apply State.setReg_keep
    | with_reducible apply State.ntuUpd_keep
    | with_reducible apply Keep.ite <;> intro _
    | with_reducible apply Keep.foldl <;> try intro _ _ _
    | with_reducible apply Keep.foldl_snd <;> try intro _ _ _
    | with_reducible refine Keep.of_snd ‹_ = (_, _)› ?_
    | with_reducible refine Keep.of_snd2 ‹_ = (_, _, _)› ?_
    | with_reducible apply Keep.of_id
    | split
    | dsimp only

theorem execPtmTimeout_keep (s : State) {t : State} (h : execPtmTimeout s = .next t) : Keep 1328 s t := by
  unfold execPtmTimeout at h
  injection h with h
  subst h
  repeat' first
    | exact rfl
    | with_reducible exact Keep.refl _ _
    | with_reducible assumption
    | with_reducible apply State.raise_keep
    | with_reducible apply State.commit_keep
    | with_reducible apply State.ntuUpd_keep
    | with_reducible apply Keep.ite <;> intro _
    | with_reducible apply Keep.foldl <;> try intro _ _ _
    | with_reducible apply Keep.foldl_snd <;> try intro _ _ _
    | with_reducible refine Keep.of_snd ‹_ = (_, _)› ?_
    | with_reducible refine Keep.of_snd2 ‹_ = (_, _, _)› ?_
    | with_reducible apply Keep.of_id
    | split
    | dsimp only

theorem execSynceSourceLoss_keep (s : State) {t : State} (h : execSynceSourceLoss s = .next t) : Keep 304 s t := by
  unfold execSynceSourceLoss at h
  injection h with h
  subst h
  repeat' first
    | exact rfl
    | with_reducible exact Keep.refl _ _
    | with_reducible assumption
    | with_reducible apply State.synceState_keep
    | with_reducible apply Keep.ite <;> intro _
    | with_reducible apply Keep.foldl <;> try intro _ _ _
    | with_reducible apply Keep.foldl_snd <;> try intro _ _ _
    | with_reducible refine Keep.of_snd ‹_ = (_, _)› ?_
    | with_reducible refine Keep.of_snd2 ‹_ = (_, _, _)› ?_
    | with_reducible apply Keep.of_id
    | split
    | dsimp only

theorem execSynceRelock_keep (a0 : _) (s : State) {t : State} (h : execSynceRelock a0 s = .next t) : Keep 304 s t := by
  unfold execSynceRelock at h
  injection h with h
  subst h
  repeat' first
    | exact rfl
    | with_reducible exact Keep.refl _ _
    | with_reducible assumption
    | with_reducible apply State.synceState_keep
    | with_reducible apply Keep.ite <;> intro _
    | with_reducible apply Keep.foldl <;> try intro _ _ _
    | with_reducible apply Keep.foldl_snd <;> try intro _ _ _
    | with_reducible refine Keep.of_snd ‹_ = (_, _)› ?_
    | with_reducible refine Keep.of_snd2 ‹_ = (_, _, _)› ?_
    | with_reducible apply Keep.of_id
    | split
    | dsimp only

theorem execSlpRatioMeasure_keep (s : State) {t : State} (h : execSlpRatioMeasure s = .next t) : Keep 1056 s t := by
  unfold execSlpRatioMeasure at h
  injection h with h
  subst h
  repeat' first
    | exact rfl
    | with_reducible exact Keep.refl _ _
    | with_reducible assumption
    | with_reducible apply State.ntuUpd_keep
    | with_reducible apply State.set_keep
    | with_reducible apply State.setReg_keep
    | with_reducible apply Keep.ite <;> intro _
    | with_reducible apply Keep.foldl <;> try intro _ _ _
    | with_reducible apply Keep.foldl_snd <;> try intro _ _ _
    | with_reducible refine Keep.of_snd ‹_ = (_, _)› ?_
    | with_reducible refine Keep.of_snd2 ‹_ = (_, _, _)› ?_
    | with_reducible apply Keep.of_id
    | split
    | dsimp only

theorem execTimeRecordWrite_keep (s : State) {t : State} (h : execTimeRecordWrite s = .next t) : Keep 16384 s t := by
  unfold execTimeRecordWrite at h
  injection h with h
  subst h
  repeat' first
    | exact rfl
    | with_reducible exact Keep.refl _ _
    | with_reducible assumption
    | with_reducible apply Keep.ite <;> intro _
    | with_reducible apply Keep.foldl <;> try intro _ _ _
    | with_reducible apply Keep.foldl_snd <;> try intro _ _ _
    | (rewrite [State.mk_eq_updOf]; (with_reducible refine Keep.node 16384 ?_ ?_ ?_); · refine Keep.upd 16384 ?_ ?_ ?_ ?_ ?_ (fun p hp => ?_); exact rfl; exact rfl; exact rfl; exact rfl; exact rfl; cases p <;> first | exact absurd hp (by decide) | exact rfl)
    | with_reducible refine Keep.of_snd ‹_ = (_, _)› ?_
    | with_reducible refine Keep.of_snd2 ‹_ = (_, _, _)› ?_
    | with_reducible apply Keep.of_id
    | split
    | dsimp only

end Sys2Proof.Machine
end

