-- ==== Sys2Proof/Laws/KeepCipher.lean ====
section
/-! SUPPORT. What each operation of Machine/Cipher.lean leaves alone. -/

set_option Elab.async false

namespace Sys2Proof.Machine

theorem State.slotRefused_keep {m : Nat} {s0 : State} (s : State) (hm : subMask 33072 m = true) (h : Keep m s0 s) : Keep m s0 (State.slotRefused s) := by
  refine Keep.lift (f := 33072) ?_ hm h
  unfold State.slotRefused
  repeat' first
    | exact rfl
    | with_reducible exact Keep.refl _ _
    | with_reducible assumption
    | with_reducible apply State.inc_keep
    | with_reducible apply State.raise_keep
    | with_reducible apply Keep.ite <;> intro _
    | with_reducible apply Keep.foldl <;> try intro _ _ _
    | with_reducible apply Keep.foldl_snd <;> try intro _ _ _
    | (rewrite [State.mk_eq_updOf]; (with_reducible refine Keep.node 32768 ?_ ?_ ?_); · refine Keep.upd 32768 ?_ ?_ ?_ ?_ ?_ (fun p hp => ?_); exact rfl; exact rfl; exact rfl; exact rfl; exact rfl; cases p <;> first | exact absurd hp (by decide) | exact rfl)
    | with_reducible refine Keep.of_snd ‹_ = (_, _)› ?_
    | with_reducible refine Keep.of_snd2 ‹_ = (_, _, _)› ?_
    | with_reducible apply Keep.of_id
    | split
    | dsimp only

theorem State.useKey_keep {m : Nat} {s0 : State} (s : State) (a1 : _) (a2 : _) (hm : subMask 33072 m = true) (h : Keep m s0 s) : Keep m s0 (State.useKey s a1 a2).2 := by
  refine Keep.lift (f := 33072) ?_ hm h
  unfold State.useKey
  repeat' first
    | exact rfl
    | with_reducible exact Keep.refl _ _
    | with_reducible assumption
    | with_reducible apply State.slotRefused_keep
    | with_reducible apply Keep.ite <;> intro _
    | with_reducible apply Keep.foldl <;> try intro _ _ _
    | with_reducible apply Keep.foldl_snd <;> try intro _ _ _
    | with_reducible refine Keep.of_snd ‹_ = (_, _)› ?_
    | with_reducible refine Keep.of_snd2 ‹_ = (_, _, _)› ?_
    | with_reducible apply Keep.of_id
    | split
    | dsimp only

end Sys2Proof.Machine
end

