-- ==== Sys2Proof/Laws/KeepMemory.lean ====
section
/-! SUPPORT. What each operation of Machine/Memory.lean leaves alone. -/

set_option Elab.async false

namespace Sys2Proof.Machine

theorem State.memPut_keep {m : Nat} {s0 : State} (s : State) (a1 : _) (a2 : _) (hm : subMask 65600 m = true) (h : Keep m s0 s) : Keep m s0 (State.memPut s a1 a2) := by
  refine Keep.lift (f := 65600) ?_ hm h
  unfold State.memPut
  repeat' first
    | exact rfl
    | with_reducible exact Keep.refl _ _
    | with_reducible assumption
    | with_reducible apply State.put_keep
    | with_reducible apply Keep.ite <;> intro _
    | with_reducible apply Keep.foldl <;> try intro _ _ _
    | with_reducible apply Keep.foldl_snd <;> try intro _ _ _
    | (rewrite [State.mk_eq_updOf]; (with_reducible refine Keep.node 65536 ?_ ?_ ?_); · refine Keep.upd 65536 ?_ ?_ ?_ ?_ ?_ (fun p hp => ?_); exact rfl; exact rfl; exact rfl; exact rfl; exact rfl; cases p <;> first | exact absurd hp (by decide) | exact rfl)
    | with_reducible refine Keep.of_snd ‹_ = (_, _)› ?_
    | with_reducible refine Keep.of_snd2 ‹_ = (_, _, _)› ?_
    | with_reducible apply Keep.of_id
    | split
    | dsimp only

theorem State.sramEcc_keep {m : Nat} {s0 : State} (s : State) (a1 : _) (hm : subMask 304 m = true) (h : Keep m s0 s) : Keep m s0 (State.sramEcc s a1) := by
  refine Keep.lift (f := 304) ?_ hm h
  unfold State.sramEcc
  repeat' first
    | exact rfl
    | with_reducible exact Keep.refl _ _
    | with_reducible assumption
    | with_reducible apply State.raise_keep
    | with_reducible apply State.inc_keep
    | with_reducible apply State.setReg_keep
    | with_reducible apply Keep.ite <;> intro _
    | with_reducible apply Keep.foldl <;> try intro _ _ _
    | with_reducible apply Keep.foldl_snd <;> try intro _ _ _
    | with_reducible refine Keep.of_snd ‹_ = (_, _)› ?_
    | with_reducible refine Keep.of_snd2 ‹_ = (_, _, _)› ?_
    | with_reducible apply Keep.of_id
    | split
    | dsimp only

theorem State.poison_keep {m : Nat} {s0 : State} (s : State) (a1 : _) (hm : subMask 65536 m = true) (h : Keep m s0 s) : Keep m s0 (State.poison s a1) := by
  refine Keep.lift (f := 65536) ?_ hm h
  unfold State.poison
  repeat' first
    | exact rfl
    | with_reducible exact Keep.refl _ _
    | with_reducible assumption
    | with_reducible apply Keep.ite <;> intro _
    | with_reducible apply Keep.foldl <;> try intro _ _ _
    | with_reducible apply Keep.foldl_snd <;> try intro _ _ _
    | (rewrite [State.mk_eq_updOf]; (with_reducible refine Keep.node 65536 ?_ ?_ ?_); · refine Keep.upd 65536 ?_ ?_ ?_ ?_ ?_ (fun p hp => ?_); exact rfl; exact rfl; exact rfl; exact rfl; exact rfl; cases p <;> first | exact absurd hp (by decide) | exact rfl)
    | with_reducible refine Keep.of_snd ‹_ = (_, _)› ?_
    | with_reducible refine Keep.of_snd2 ‹_ = (_, _, _)› ?_
    | with_reducible apply Keep.of_id
    | split
    | dsimp only

theorem State.dramEcc_keep {m : Nat} {s0 : State} (s : State) (a1 : _) (a2 : _) (hm : subMask 304 m = true) (h : Keep m s0 s) : Keep m s0 (State.dramEcc s a1 a2) := by
  refine Keep.lift (f := 304) ?_ hm h
  unfold State.dramEcc
  repeat' first
    | exact rfl
    | with_reducible exact Keep.refl _ _
    | with_reducible assumption
    | with_reducible apply State.raise_keep
    | with_reducible apply State.inc_keep
    | with_reducible apply State.setReg_keep
    | with_reducible apply Keep.ite <;> intro _
    | with_reducible apply Keep.foldl <;> try intro _ _ _
    | with_reducible apply Keep.foldl_snd <;> try intro _ _ _
    | with_reducible refine Keep.of_snd ‹_ = (_, _)› ?_
    | with_reducible refine Keep.of_snd2 ‹_ = (_, _, _)› ?_
    | with_reducible apply Keep.of_id
    | split
    | dsimp only

theorem State.eccAt_keep {m : Nat} {s0 : State} (s : State) (a1 : _) (hm : subMask 304 m = true) (h : Keep m s0 s) : Keep m s0 (State.eccAt s a1) := by
  refine Keep.lift (f := 304) ?_ hm h
  unfold State.eccAt
  repeat' first
    | exact rfl
    | with_reducible exact Keep.refl _ _
    | with_reducible assumption
    | with_reducible apply State.dramEcc_keep
    | with_reducible apply State.sramEcc_keep
    | with_reducible apply Keep.ite <;> intro _
    | with_reducible apply Keep.foldl <;> try intro _ _ _
    | with_reducible apply Keep.foldl_snd <;> try intro _ _ _
    | with_reducible refine Keep.of_snd ‹_ = (_, _)› ?_
    | with_reducible refine Keep.of_snd2 ‹_ = (_, _, _)› ?_
    | with_reducible apply Keep.of_id
    | split
    | dsimp only

theorem State.memRead_keep {m : Nat} {s0 : State} (s : State) (a1 : _) (a2 : _) (a3 : _) (hm : subMask 304 m = true) (h : Keep m s0 s) : Keep m s0 (State.memRead s a1 a2 a3).2.2 := by
  refine Keep.lift (f := 304) ?_ hm h
  unfold State.memRead
  repeat' first
    | exact rfl
    | with_reducible exact Keep.refl _ _
    | with_reducible assumption
    | with_reducible apply State.eccAt_keep
    | with_reducible apply Keep.ite <;> intro _
    | with_reducible apply Keep.foldl <;> try intro _ _ _
    | with_reducible apply Keep.foldl_snd <;> try intro _ _ _
    | with_reducible refine Keep.of_snd ‹_ = (_, _)› ?_
    | with_reducible refine Keep.of_snd2 ‹_ = (_, _, _)› ?_
    | with_reducible apply Keep.of_id
    | split
    | dsimp only

theorem State.memWrite_keep {m : Nat} {s0 : State} (s : State) (a1 : _) (a2 : _) (a3 : _) (hm : subMask 65600 m = true) (h : Keep m s0 s) : Keep m s0 (State.memWrite s a1 a2 a3).2 := by
  refine Keep.lift (f := 65600) ?_ hm h
  unfold State.memWrite
  repeat' first
    | exact rfl
    | with_reducible exact Keep.refl _ _
    | with_reducible assumption
    | with_reducible apply State.memPut_keep
    | with_reducible apply Keep.ite <;> intro _
    | with_reducible apply Keep.foldl <;> try intro _ _ _
    | with_reducible apply Keep.foldl_snd <;> try intro _ _ _
    | with_reducible refine Keep.of_snd ‹_ = (_, _)› ?_
    | with_reducible refine Keep.of_snd2 ‹_ = (_, _, _)› ?_
    | with_reducible apply Keep.of_id
    | split
    | dsimp only

theorem State.memZero_keep {m : Nat} {s0 : State} (s : State) (a1 : _) (a2 : _) (hm : subMask 65600 m = true) (h : Keep m s0 s) : Keep m s0 (State.memZero s a1 a2) := by
  refine Keep.lift (f := 65600) ?_ hm h
  unfold State.memZero
  repeat' first
    | exact rfl
    | with_reducible exact Keep.refl _ _
    | with_reducible assumption
    | with_reducible apply State.memDrop_keep
    | with_reducible apply Keep.ite <;> intro _
    | with_reducible apply Keep.foldl <;> try intro _ _ _
    | with_reducible apply Keep.foldl_snd <;> try intro _ _ _
    | (rewrite [State.mk_eq_updOf]; (with_reducible refine Keep.node 65536 ?_ ?_ ?_); · refine Keep.upd 65536 ?_ ?_ ?_ ?_ ?_ (fun p hp => ?_); exact rfl; exact rfl; exact rfl; exact rfl; exact rfl; cases p <;> first | exact absurd hp (by decide) | exact rfl)
    | with_reducible refine Keep.of_snd ‹_ = (_, _)› ?_
    | with_reducible refine Keep.of_snd2 ‹_ = (_, _, _)› ?_
    | with_reducible apply Keep.of_id
    | split
    | dsimp only

theorem State.wipeSecure_keep {m : Nat} {s0 : State} (s : State) (hm : subMask 65600 m = true) (h : Keep m s0 s) : Keep m s0 (State.wipeSecure s) := by
  refine Keep.lift (f := 65600) ?_ hm h
  unfold State.wipeSecure
  repeat' first
    | exact rfl
    | with_reducible exact Keep.refl _ _
    | with_reducible assumption
    | with_reducible apply State.memZero_keep
    | with_reducible apply Keep.ite <;> intro _
    | with_reducible apply Keep.foldl <;> try intro _ _ _
    | with_reducible apply Keep.foldl_snd <;> try intro _ _ _
    | with_reducible refine Keep.of_snd ‹_ = (_, _)› ?_
    | with_reducible refine Keep.of_snd2 ‹_ = (_, _, _)› ?_
    | with_reducible apply Keep.of_id
    | split
    | dsimp only

theorem State.bufAlloc_keep {m : Nat} {s0 : State} (s : State) (a1 : _) (hm : subMask 65569 m = true) (h : Keep m s0 s) : Keep m s0 (State.bufAlloc s a1).2 := by
  refine Keep.lift (f := 65569) ?_ hm h
  unfold State.bufAlloc
  repeat' first
    | exact rfl
    | with_reducible exact Keep.refl _ _
    | with_reducible assumption
    | with_reducible apply State.inc_keep
    | with_reducible apply Keep.ite <;> intro _
    | with_reducible apply Keep.foldl <;> try intro _ _ _
    | with_reducible apply Keep.foldl_snd <;> try intro _ _ _
    | (rewrite [State.mk_eq_updOf]; (with_reducible refine Keep.node 65537 ?_ ?_ ?_); · refine Keep.upd 65537 ?_ ?_ ?_ ?_ ?_ (fun p hp => ?_); exact rfl; exact rfl; exact rfl; exact rfl; exact rfl; cases p <;> first | exact absurd hp (by decide) | exact rfl)
    | with_reducible refine Keep.of_snd ‹_ = (_, _)› ?_
    | with_reducible refine Keep.of_snd2 ‹_ = (_, _, _)› ?_
    | with_reducible apply Keep.of_id
    | split
    | dsimp only

theorem State.bufFree_keep {m : Nat} {s0 : State} (s : State) (a1 : _) (hm : subMask 65536 m = true) (h : Keep m s0 s) : Keep m s0 (State.bufFree s a1) := by
  refine Keep.lift (f := 65536) ?_ hm h
  unfold State.bufFree
  repeat' first
    | exact rfl
    | with_reducible exact Keep.refl _ _
    | with_reducible assumption
    | with_reducible apply Keep.ite <;> intro _
    | with_reducible apply Keep.foldl <;> try intro _ _ _
    | with_reducible apply Keep.foldl_snd <;> try intro _ _ _
    | (rewrite [State.mk_eq_updOf]; (with_reducible refine Keep.node 65536 ?_ ?_ ?_); · refine Keep.upd 65536 ?_ ?_ ?_ ?_ ?_ (fun p hp => ?_); exact rfl; exact rfl; exact rfl; exact rfl; exact rfl; cases p <;> first | exact absurd hp (by decide) | exact rfl)
    | with_reducible refine Keep.of_snd ‹_ = (_, _)› ?_
    | with_reducible refine Keep.of_snd2 ‹_ = (_, _, _)› ?_
    | with_reducible apply Keep.of_id
    | split
    | dsimp only

theorem State.chUpd_keep {m : Nat} {s0 : State} (s : State) (a1 : _) (a2 : _) (hm : subMask 65536 m = true) (h : Keep m s0 s) : Keep m s0 (State.chUpd s a1 a2) := by
  refine Keep.lift (f := 65536) ?_ hm h
  unfold State.chUpd
  repeat' first
    | exact rfl
    | with_reducible exact Keep.refl _ _
    | with_reducible assumption
    | with_reducible apply Keep.ite <;> intro _
    | with_reducible apply Keep.foldl <;> try intro _ _ _
    | with_reducible apply Keep.foldl_snd <;> try intro _ _ _
    | (rewrite [State.mk_eq_updOf]; (with_reducible refine Keep.node 65536 ?_ ?_ ?_); · refine Keep.upd 65536 ?_ ?_ ?_ ?_ ?_ (fun p hp => ?_); exact rfl; exact rfl; exact rfl; exact rfl; exact rfl; cases p <;> first | exact absurd hp (by decide) | exact rfl)
    | with_reducible refine Keep.of_snd ‹_ = (_, _)› ?_
    | with_reducible refine Keep.of_snd2 ‹_ = (_, _, _)› ?_
    | with_reducible apply Keep.of_id
    | split
    | dsimp only

theorem State.dramEnter_keep {m : Nat} {s0 : State} (s : State) (a1 : _) (a2 : _) (hm : subMask 65568 m = true) (h : Keep m s0 s) : Keep m s0 (State.dramEnter s a1 a2) := by
  refine Keep.lift (f := 65568) ?_ hm h
  unfold State.dramEnter
  repeat' first
    | exact rfl
    | with_reducible exact Keep.refl _ _
    | with_reducible assumption
    | with_reducible apply State.chUpd_keep
    | with_reducible apply State.inc_keep
    | with_reducible apply Keep.ite <;> intro _
    | with_reducible apply Keep.foldl <;> try intro _ _ _
    | with_reducible apply Keep.foldl_snd <;> try intro _ _ _
    | with_reducible refine Keep.of_snd ‹_ = (_, _)› ?_
    | with_reducible refine Keep.of_snd2 ‹_ = (_, _, _)› ?_
    | with_reducible apply Keep.of_id
    | split
    | dsimp only

theorem State.dramDisturb_keep {m : Nat} {s0 : State} (s : State) (a1 : _) (a2 : _) (a3 : _) (a4 : _) (hm : subMask 65840 m = true) (h : Keep m s0 s) : Keep m s0 (State.dramDisturb s a1 a2 a3 a4) := by
  refine Keep.lift (f := 65840) ?_ hm h
  unfold State.dramDisturb
  repeat' first
    | exact rfl
    | with_reducible exact Keep.refl _ _
    | with_reducible assumption
    | with_reducible apply State.inc_keep
    | with_reducible apply State.setReg_keep
    | with_reducible apply State.chUpd_keep
    | with_reducible apply State.raise_keep
    | with_reducible apply Keep.ite <;> intro _
    | with_reducible apply Keep.foldl <;> try intro _ _ _
    | with_reducible apply Keep.foldl_snd <;> try intro _ _ _
    | with_reducible refine Keep.of_snd ‹_ = (_, _)› ?_
    | with_reducible refine Keep.of_snd2 ‹_ = (_, _, _)› ?_
    | with_reducible apply Keep.of_id
    | split
    | dsimp only

theorem State.dramActivate_keep {m : Nat} {s0 : State} (s : State) (a1 : _) (a2 : _) (hm : subMask 65840 m = true) (h : Keep m s0 s) : Keep m s0 (State.dramActivate s a1 a2) := by
  refine Keep.lift (f := 65840) ?_ hm h
  unfold State.dramActivate
  repeat' first
    | exact rfl
    | with_reducible exact Keep.refl _ _
    | with_reducible assumption
    | with_reducible apply State.chUpd_keep
    | with_reducible apply State.dramDisturb_keep
    | with_reducible apply Keep.ite <;> intro _
    | with_reducible apply Keep.foldl <;> try intro _ _ _
    | with_reducible apply Keep.foldl_snd <;> try intro _ _ _
    | with_reducible refine Keep.of_snd ‹_ = (_, _)› ?_
    | with_reducible refine Keep.of_snd2 ‹_ = (_, _, _)› ?_
    | with_reducible apply Keep.of_id
    | split
    | dsimp only

theorem State.dramIssue_keep {m : Nat} {s0 : State} (s : State) (a1 : _) (a2 : _) (hm : subMask 65840 m = true) (h : Keep m s0 s) : Keep m s0 (State.dramIssue s a1 a2) := by
  refine Keep.lift (f := 65840) ?_ hm h
  unfold State.dramIssue
  repeat' first
    | exact rfl
    | with_reducible exact Keep.refl _ _
    | with_reducible assumption
    | with_reducible apply State.dramActivate_keep
    | with_reducible apply State.chUpd_keep
    | with_reducible apply Keep.ite <;> intro _
    | with_reducible apply Keep.foldl <;> try intro _ _ _
    | with_reducible apply Keep.foldl_snd <;> try intro _ _ _
    | with_reducible refine Keep.of_snd ‹_ = (_, _)› ?_
    | with_reducible refine Keep.of_snd2 ‹_ = (_, _, _)› ?_
    | with_reducible apply Keep.of_id
    | split
    | dsimp only

theorem rdMem_keep {m : Nat} {s0 : State} (a0 : _) (a1 : _) (a2 : _) (s : State) (hm : subMask 304 m = true) (h : Keep m s0 s) : Keep m s0 (rdMem a0 a1 a2 s).2 := by
  refine Keep.lift (f := 304) ?_ hm h
  unfold rdMem
  repeat' first
    | exact rfl
    | with_reducible exact Keep.refl _ _
    | with_reducible assumption
    | with_reducible apply loadWord_keep
    | with_reducible apply Keep.ite <;> intro _
    | with_reducible apply Keep.foldl <;> try intro _ _ _
    | with_reducible apply Keep.foldl_snd <;> try intro _ _ _
    | with_reducible refine Keep.of_snd ‹_ = (_, _)› ?_
    | with_reducible refine Keep.of_snd2 ‹_ = (_, _, _)› ?_
    | with_reducible apply Keep.of_id
    | split
    | dsimp only

theorem execSramScrub_keep (a0 : _) (a1 : _) (s : State) {t : State} (h : execSramScrub a0 a1 s = .next t) : Keep 65840 s t := by
  unfold execSramScrub at h
  injection h with h
  subst h
  repeat' first
    | exact rfl
    | with_reducible exact Keep.refl _ _
    | with_reducible assumption
    | with_reducible apply State.sramEcc_keep
    | with_reducible apply State.poison_keep
    | with_reducible apply State.inc_keep
    | with_reducible apply Keep.ite <;> intro _
    | with_reducible apply Keep.foldl <;> try intro _ _ _
    | with_reducible apply Keep.foldl_snd <;> try intro _ _ _
    | with_reducible refine Keep.of_snd ‹_ = (_, _)› ?_
    | with_reducible refine Keep.of_snd2 ‹_ = (_, _, _)› ?_
    | with_reducible apply Keep.of_id
    | split
    | dsimp only

theorem execDramCommand_keep (a0 : _) (a1 : _) (a2 : _) (a3 : _) (s : State) {t : State} (h : execDramCommand a0 a1 a2 a3 s = .next t) : Keep 65840 s t := by
  unfold execDramCommand at h
  injection h with h
  subst h
  repeat' first
    | exact rfl
    | with_reducible exact Keep.refl _ _
    | with_reducible assumption
    | with_reducible apply State.dramEnter_keep
    | with_reducible apply State.dramIssue_keep
    | with_reducible apply State.inc_keep
    | with_reducible apply State.dramEcc_keep
    | with_reducible apply Keep.ite <;> intro _
    | with_reducible apply Keep.foldl <;> try intro _ _ _
    | with_reducible apply Keep.foldl_snd <;> try intro _ _ _
    | with_reducible refine Keep.of_snd ‹_ = (_, _)› ?_
    | with_reducible refine Keep.of_snd2 ‹_ = (_, _, _)› ?_
    | with_reducible apply Keep.of_id
    | split
    | dsimp only

theorem execThrottleEnd_keep (a0 : _) (s : State) {t : State} (h : execThrottleEnd a0 s = .next t) : Keep 65536 s t := by
  unfold execThrottleEnd at h
  injection h with h
  subst h
  repeat' first
    | exact rfl
    | with_reducible exact Keep.refl _ _
    | with_reducible assumption
    | with_reducible apply State.chUpd_keep
    | with_reducible apply Keep.ite <;> intro _
    | with_reducible apply Keep.foldl <;> try intro _ _ _
    | with_reducible apply Keep.foldl_snd <;> try intro _ _ _
    | with_reducible refine Keep.of_snd ‹_ = (_, _)› ?_
    | with_reducible refine Keep.of_snd2 ‹_ = (_, _, _)› ?_
    | with_reducible apply Keep.of_id
    | split
    | dsimp only

theorem execDramRefresh_keep (a0 : _) (s : State) {t : State} (h : execDramRefresh a0 s = .next t) : Keep 65536 s t := by
  unfold execDramRefresh at h
  injection h with h
  subst h
  repeat' first
    | exact rfl
    | with_reducible exact Keep.refl _ _
    | with_reducible assumption
    | with_reducible apply State.chUpd_keep
    | with_reducible apply Keep.ite <;> intro _
    | with_reducible apply Keep.foldl <;> try intro _ _ _
    | with_reducible apply Keep.foldl_snd <;> try intro _ _ _
    | with_reducible refine Keep.of_snd ‹_ = (_, _)› ?_
    | with_reducible refine Keep.of_snd2 ‹_ = (_, _, _)› ?_
    | with_reducible apply Keep.of_id
    | split
    | dsimp only

theorem execZqCalibration_keep (a0 : _) (s : State) {t : State} (h : execZqCalibration a0 s = .next t) : Keep 65536 s t := by
  unfold execZqCalibration at h
  injection h with h
  subst h
  repeat' first
    | exact rfl
    | with_reducible exact Keep.refl _ _
    | with_reducible assumption
    | with_reducible apply State.chUpd_keep
    | with_reducible apply Keep.ite <;> intro _
    | with_reducible apply Keep.foldl <;> try intro _ _ _
    | with_reducible apply Keep.foldl_snd <;> try intro _ _ _
    | with_reducible refine Keep.of_snd ‹_ = (_, _)› ?_
    | with_reducible refine Keep.of_snd2 ‹_ = (_, _, _)› ?_
    | with_reducible apply Keep.of_id
    | split
    | dsimp only

theorem execDramTempPoll_keep (a0 : _) (a1 : _) (s : State) {t : State} (h : execDramTempPoll a0 a1 s = .next t) : Keep 65536 s t := by
  unfold execDramTempPoll at h
  injection h with h
  subst h
  repeat' first
    | exact rfl
    | with_reducible exact Keep.refl _ _
    | with_reducible assumption
    | with_reducible apply State.chUpd_keep
    | with_reducible apply Keep.ite <;> intro _
    | with_reducible apply Keep.foldl <;> try intro _ _ _
    | with_reducible apply Keep.foldl_snd <;> try intro _ _ _
    | with_reducible refine Keep.of_snd ‹_ = (_, _)› ?_
    | with_reducible refine Keep.of_snd2 ‹_ = (_, _, _)› ?_
    | with_reducible apply Keep.of_id
    | split
    | dsimp only

theorem execPageIdle_keep (a0 : _) (a1 : _) (a2 : _) (s : State) {t : State} (h : execPageIdle a0 a1 a2 s = .next t) : Keep 65536 s t := by
  unfold execPageIdle at h
  injection h with h
  subst h
  repeat' first
    | exact rfl
    | with_reducible exact Keep.refl _ _
    | with_reducible assumption
    | with_reducible apply State.chUpd_keep
    | with_reducible apply Keep.ite <;> intro _
    | with_reducible apply Keep.foldl <;> try intro _ _ _
    | with_reducible apply Keep.foldl_snd <;> try intro _ _ _
    | with_reducible refine Keep.of_snd ‹_ = (_, _)› ?_
    | with_reducible refine Keep.of_snd2 ‹_ = (_, _, _)› ?_
    | with_reducible apply Keep.of_id
    | split
    | dsimp only

theorem execDmcPanic_keep (a0 : _) (a1 : _) (a2 : _) (a3 : _) (s : State) {t : State} (h : execDmcPanic a0 a1 a2 a3 s = .next t) : Keep 65568 s t := by
  unfold execDmcPanic at h
  injection h with h
  subst h
  repeat' first
    | exact rfl
    | with_reducible exact Keep.refl _ _
    | with_reducible assumption
    | with_reducible apply State.inc_keep
    | with_reducible apply State.chUpd_keep
    | with_reducible apply Keep.ite <;> intro _
    | with_reducible apply Keep.foldl <;> try intro _ _ _
    | with_reducible apply Keep.foldl_snd <;> try intro _ _ _
    | with_reducible refine Keep.of_snd ‹_ = (_, _)› ?_
    | with_reducible refine Keep.of_snd2 ‹_ = (_, _, _)› ?_
    | with_reducible apply Keep.of_id
    | split
    | dsimp only

theorem execDmcRtStarve_keep (a0 : _) (a1 : _) (s : State) {t : State} (h : execDmcRtStarve a0 a1 s = .next t) : Keep 65840 s t := by
  unfold execDmcRtStarve at h
  injection h with h
  subst h
  repeat' first
    | exact rfl
    | with_reducible exact Keep.refl _ _
    | with_reducible assumption
    | with_reducible apply State.raise_keep
    | with_reducible apply State.inc_keep
    | with_reducible apply State.chUpd_keep
    | with_reducible apply Keep.ite <;> intro _
    | with_reducible apply Keep.foldl <;> try intro _ _ _
    | with_reducible apply Keep.foldl_snd <;> try intro _ _ _
    | with_reducible refine Keep.of_snd ‹_ = (_, _)› ?_
    | with_reducible refine Keep.of_snd2 ‹_ = (_, _, _)› ?_
    | with_reducible apply Keep.of_id
    | split
    | dsimp only

end Sys2Proof.Machine
end

