-- ==== Sys2Proof/Laws/KeepPlan.lean ====
section
/-! SUPPORT. What each operation of Machine/Plan.lean leaves alone. -/

set_option Elab.async false

namespace Sys2Proof.Machine

theorem State.setCur_keep {m : Nat} {s0 : State} (s : State) (a1 : _) (a2 : _) (hm : subMask 32 m = true) (h : Keep m s0 s) : Keep m s0 (State.setCur s a1 a2) := by
  refine Keep.lift (f := 32) ?_ hm h
  unfold State.setCur
  repeat' first
    | exact rfl
    | with_reducible exact Keep.refl _ _
    | with_reducible assumption
    | with_reducible apply State.set_keep
    | with_reducible apply Keep.ite <;> intro _
    | with_reducible apply Keep.foldl <;> try intro _ _ _
    | with_reducible apply Keep.foldl_snd <;> try intro _ _ _
    | with_reducible refine Keep.of_snd ‹_ = (_, _)› ?_
    | with_reducible refine Keep.of_snd2 ‹_ = (_, _, _)› ?_
    | with_reducible apply Keep.of_id
    | split
    | dsimp only

theorem State.setChosen_keep {m : Nat} {s0 : State} (s : State) (a1 : _) (a2 : _) (hm : subMask 32 m = true) (h : Keep m s0 s) : Keep m s0 (State.setChosen s a1 a2) := by
  refine Keep.lift (f := 32) ?_ hm h
  unfold State.setChosen
  repeat' first
    | exact rfl
    | with_reducible exact Keep.refl _ _
    | with_reducible assumption
    | with_reducible apply State.set_keep
    | with_reducible apply Keep.ite <;> intro _
    | with_reducible apply Keep.foldl <;> try intro _ _ _
    | with_reducible apply Keep.foldl_snd <;> try intro _ _ _
    | with_reducible refine Keep.of_snd ‹_ = (_, _)› ?_
    | with_reducible refine Keep.of_snd2 ‹_ = (_, _, _)› ?_
    | with_reducible apply Keep.of_id
    | split
    | dsimp only

end Sys2Proof.Machine
end

