-- ==== Sys2Proof/Laws/KeepPkIn.lean ====
section
/-! SUPPORT. What each operation of Machine/PkIn.lean leaves alone. -/

set_option Elab.async false

namespace Sys2Proof.Machine

theorem State.pkUpd_keep {m : Nat} {s0 : State} (s : State) (a1 : _) (hm : subMask 33554432 m = true) (h : Keep m s0 s) : Keep m s0 (State.pkUpd s a1) := by
  refine Keep.lift (f := 33554432) ?_ hm h
  unfold State.pkUpd
  repeat' first
    | exact rfl
    | with_reducible exact Keep.refl _ _
    | with_reducible assumption
    | with_reducible apply Keep.ite <;> intro _
    | with_reducible apply Keep.foldl <;> try intro _ _ _
    | with_reducible apply Keep.foldl_snd <;> try intro _ _ _
    | (rewrite [State.mk_eq_updOf]; (with_reducible refine Keep.node 33554432 ?_ ?_ ?_); · refine Keep.upd 33554432 ?_ ?_ ?_ ?_ ?_ (fun p hp => ?_); exact rfl; exact rfl; exact rfl; exact rfl; exact rfl; cases p <;> first | exact absurd hp (by decide) | exact rfl)
    | with_reducible refine Keep.of_snd ‹_ = (_, _)› ?_
    | with_reducible refine Keep.of_snd2 ‹_ = (_, _, _)› ?_
    | with_reducible apply Keep.of_id
    | split
    | dsimp only

theorem State.tmUpd_keep {m : Nat} {s0 : State} (s : State) (a1 : _) (hm : subMask 67108864 m = true) (h : Keep m s0 s) : Keep m s0 (State.tmUpd s a1) := by
  refine Keep.lift (f := 67108864) ?_ hm h
  unfold State.tmUpd
  repeat' first
    | exact rfl
    | with_reducible exact Keep.refl _ _
    | with_reducible assumption
    | with_reducible apply Keep.ite <;> intro _
    | with_reducible apply Keep.foldl <;> try intro _ _ _
    | with_reducible apply Keep.foldl_snd <;> try intro _ _ _
    | (rewrite [State.mk_eq_updOf]; (with_reducible refine Keep.node 67108864 ?_ ?_ ?_); · refine Keep.upd 67108864 ?_ ?_ ?_ ?_ ?_ (fun p hp => ?_); exact rfl; exact rfl; exact rfl; exact rfl; exact rfl; cases p <;> first | exact absurd hp (by decide) | exact rfl)
    | with_reducible refine Keep.of_snd ‹_ = (_, _)› ?_
    | with_reducible refine Keep.of_snd2 ‹_ = (_, _, _)› ?_
    | with_reducible apply Keep.of_id
    | split
    | dsimp only

theorem State.sendPause_keep {m : Nat} {s0 : State} (s : State) (a1 : _) (a2 : _) (hm : subMask 17 m = true) (h : Keep m s0 s) : Keep m s0 (State.sendPause s a1 a2) := by
  refine Keep.lift (f := 17) ?_ hm h
  unfold State.sendPause
  repeat' first
    | exact rfl
    | with_reducible exact Keep.refl _ _
    | with_reducible assumption
    | with_reducible apply State.emit_keep
    | with_reducible apply Keep.ite <;> intro _
    | with_reducible apply Keep.foldl <;> try intro _ _ _
    | with_reducible apply Keep.foldl_snd <;> try intro _ _ _
    | (rewrite [State.mk_eq_updOf]; (with_reducible refine Keep.node 1 ?_ ?_ ?_); · refine Keep.upd 1 ?_ ?_ ?_ ?_ ?_ (fun p hp => ?_); exact rfl; exact rfl; exact rfl; exact rfl; exact rfl; cases p <;> first | exact absurd hp (by decide) | exact rfl)
    | with_reducible refine Keep.of_snd ‹_ = (_, _)› ?_
    | with_reducible refine Keep.of_snd2 ‹_ = (_, _, _)› ?_
    | with_reducible apply Keep.of_id
    | split
    | dsimp only

theorem State.ingPause_keep {m : Nat} {s0 : State} (s : State) (a1 : _) (hm : subMask 33554449 m = true) (h : Keep m s0 s) : Keep m s0 (State.ingPause s a1) := by
  refine Keep.lift (f := 33554449) ?_ hm h
  unfold State.ingPause
  repeat' first
    | exact rfl
    | with_reducible exact Keep.refl _ _
    | with_reducible assumption
    | with_reducible apply State.sendPause_keep
    | with_reducible apply State.pkUpd_keep
    | with_reducible apply Keep.ite <;> intro _
    | with_reducible apply Keep.foldl <;> try intro _ _ _
    | with_reducible apply Keep.foldl_snd <;> try intro _ _ _
    | with_reducible refine Keep.of_snd ‹_ = (_, _)› ?_
    | with_reducible refine Keep.of_snd2 ‹_ = (_, _, _)› ?_
    | with_reducible apply Keep.of_id
    | split
    | dsimp only

theorem State.ingress_keep {m : Nat} {s0 : State} (s : State) (a1 : _) (a2 : _) (a3 : _) (a4 : _) (a5 : _) (a6 : _) (a7 : _) (hm : subMask 33554481 m = true) (h : Keep m s0 s) : Keep m s0 (State.ingress s a1 a2 a3 a4 a5 a6 a7) := by
  refine Keep.lift (f := 33554481) ?_ hm h
  unfold State.ingress
  repeat' first
    | exact rfl
    | with_reducible exact Keep.refl _ _
    | with_reducible assumption
    | with_reducible apply State.inc_keep
    | with_reducible apply State.ingPause_keep
    | with_reducible apply State.pkUpd_keep
    | with_reducible apply Keep.ite <;> intro _
    | with_reducible apply Keep.foldl <;> try intro _ _ _
    | with_reducible apply Keep.foldl_snd <;> try intro _ _ _
    | with_reducible refine Keep.of_snd ‹_ = (_, _)› ?_
    | with_reducible refine Keep.of_snd2 ‹_ = (_, _, _)› ?_
    | with_reducible apply Keep.of_id
    | split
    | dsimp only

end Sys2Proof.Machine
end

