-- ==== Sys2Proof/Laws/KeepPhyOps.lean ====
section
/-! SUPPORT. What each operation of Machine/PhyOps.lean leaves alone. -/

set_option Elab.async false

namespace Sys2Proof.Machine

theorem State.bbUpd_keep {m : Nat} {s0 : State} (s : State) (a1 : _) (hm : subMask 2097152 m = true) (h : Keep m s0 s) : Keep m s0 (State.bbUpd s a1) := by
  refine Keep.lift (f := 2097152) ?_ hm h
  unfold State.bbUpd
  repeat' first
    | exact rfl
    | with_reducible exact Keep.refl _ _
    | with_reducible assumption
    | with_reducible apply Keep.ite <;> intro _
    | with_reducible apply Keep.foldl <;> try intro _ _ _
    | with_reducible apply Keep.foldl_snd <;> try intro _ _ _
    | (rewrite [State.mk_eq_updOf]; (with_reducible refine Keep.node 2097152 ?_ ?_ ?_); · refine Keep.upd 2097152 ?_ ?_ ?_ ?_ ?_ (fun p hp => ?_); exact rfl; exact rfl; exact rfl; exact rfl; exact rfl; cases p <;> first | exact absurd hp (by decide) | exact rfl)
    | with_reducible refine Keep.of_snd ‹_ = (_, _)› ?_
    | with_reducible refine Keep.of_snd2 ‹_ = (_, _, _)› ?_
    | with_reducible apply Keep.of_id
    | split
    | dsimp only

theorem State.phyUpd_keep {m : Nat} {s0 : State} (s : State) (a1 : _) (a2 : _) (hm : subMask 2097152 m = true) (h : Keep m s0 s) : Keep m s0 (State.phyUpd s a1 a2) := by
  refine Keep.lift (f := 2097152) ?_ hm h
  unfold State.phyUpd
  repeat' first
    | exact rfl
    | with_reducible exact Keep.refl _ _
    | with_reducible assumption
    | with_reducible apply State.bbUpd_keep
    | with_reducible apply Keep.ite <;> intro _
    | with_reducible apply Keep.foldl <;> try intro _ _ _
    | with_reducible apply Keep.foldl_snd <;> try intro _ _ _
    | with_reducible refine Keep.of_snd ‹_ = (_, _)› ?_
    | with_reducible refine Keep.of_snd2 ‹_ = (_, _, _)› ?_
    | with_reducible apply Keep.of_id
    | split
    | dsimp only

theorem State.ccaUpd_keep {m : Nat} {s0 : State} (s : State) (a1 : _) (hm : subMask 2097184 m = true) (h : Keep m s0 s) : Keep m s0 (State.ccaUpd s a1) := by
  refine Keep.lift (f := 2097184) ?_ hm h
  unfold State.ccaUpd
  repeat' first
    | exact rfl
    | with_reducible exact Keep.refl _ _
    | with_reducible assumption
    | with_reducible apply State.phyUpd_keep
    | with_reducible apply State.setReg_keep
    | with_reducible apply Keep.ite <;> intro _
    | with_reducible apply Keep.foldl <;> try intro _ _ _
    | with_reducible apply Keep.foldl_snd <;> try intro _ _ _
    | with_reducible refine Keep.of_snd ‹_ = (_, _)› ?_
    | with_reducible refine Keep.of_snd2 ‹_ = (_, _, _)› ?_
    | with_reducible apply Keep.of_id
    | split
    | dsimp only

theorem State.ccaExpire_keep {m : Nat} {s0 : State} (s : State) (a1 : _) (hm : subMask 2097184 m = true) (h : Keep m s0 s) : Keep m s0 (State.ccaExpire s a1) := by
  refine Keep.lift (f := 2097184) ?_ hm h
  unfold State.ccaExpire
  repeat' first
    | exact rfl
    | with_reducible exact Keep.refl _ _
    | with_reducible assumption
    | with_reducible apply State.ccaUpd_keep
    | with_reducible apply State.phyUpd_keep
    | with_reducible apply Keep.ite <;> intro _
    | with_reducible apply Keep.foldl <;> try intro _ _ _
    | with_reducible apply Keep.foldl_snd <;> try intro _ _ _
    | with_reducible refine Keep.of_snd ‹_ = (_, _)› ?_
    | with_reducible refine Keep.of_snd2 ‹_ = (_, _, _)› ?_
    | with_reducible apply Keep.of_id
    | split
    | dsimp only

theorem State.phyDo_keep {m : Nat} {s0 : State} (s : State) (a1 : _) (a2 : _) (hf : ∀ t, Keep m s0 t → Keep m s0 (a2 t)) (hm : subMask 2097184 m = true) (h : Keep m s0 s) : Keep m s0 (State.phyDo s a1 a2) := by
  unfold State.phyDo
  repeat' first
    | exact rfl
    | exact subMask_trans rfl hm
    | with_reducible refine hf _ ?_
    | with_reducible exact Keep.refl _ _
    | with_reducible assumption
    | with_reducible apply State.ccaUpd_keep
    | with_reducible apply State.ccaExpire_keep
    | with_reducible apply Keep.ite <;> intro _
    | with_reducible apply Keep.foldl <;> try intro _ _ _
    | with_reducible apply Keep.foldl_snd <;> try intro _ _ _
    | with_reducible refine Keep.of_snd ‹_ = (_, _)› ?_
    | with_reducible refine Keep.of_snd2 ‹_ = (_, _, _)› ?_
    | with_reducible apply Keep.of_id
    | split
    | dsimp only

theorem State.falseStart_keep {m : Nat} {s0 : State} (s : State) (a1 : _) (hm : subMask 2097184 m = true) (h : Keep m s0 s) : Keep m s0 (State.falseStart s a1) := by
  refine Keep.lift (f := 2097184) ?_ hm h
  unfold State.falseStart
  repeat' first
    | exact rfl
    | with_reducible exact Keep.refl _ _
    | with_reducible assumption
    | with_reducible apply State.phyUpd_keep
    | with_reducible apply State.inc_keep
    | with_reducible apply Keep.ite <;> intro _
    | with_reducible apply Keep.foldl <;> try intro _ _ _
    | with_reducible apply Keep.foldl_snd <;> try intro _ _ _
    | with_reducible refine Keep.of_snd ‹_ = (_, _)› ?_
    | with_reducible refine Keep.of_snd2 ‹_ = (_, _, _)› ?_
    | with_reducible apply Keep.of_id
    | split
    | dsimp only

theorem State.phyAbort_keep {m : Nat} {s0 : State} (s : State) (a1 : _) (a2 : _) (hm : subMask 2097184 m = true) (h : Keep m s0 s) : Keep m s0 (State.phyAbort s a1 a2) := by
  refine Keep.lift (f := 2097184) ?_ hm h
  unfold State.phyAbort
  repeat' first
    | exact rfl
    | with_reducible exact Keep.refl _ _
    | with_reducible assumption
    | with_reducible apply State.falseStart_keep
    | with_reducible apply State.inc_keep
    | with_reducible apply State.phyUpd_keep
    | with_reducible apply Keep.ite <;> intro _
    | with_reducible apply Keep.foldl <;> try intro _ _ _
    | with_reducible apply Keep.foldl_snd <;> try intro _ _ _
    | with_reducible refine Keep.of_snd ‹_ = (_, _)› ?_
    | with_reducible refine Keep.of_snd2 ‹_ = (_, _, _)› ?_
    | with_reducible apply Keep.of_id
    | split
    | dsimp only

theorem State.phySend_keep {m : Nat} {s0 : State} (s : State) (a1 : _) (hm : subMask 2097184 m = true) (h : Keep m s0 s) : Keep m s0 (State.phySend s a1) := by
  refine Keep.lift (f := 2097184) ?_ hm h
  unfold State.phySend
  repeat' first
    | exact rfl
    | with_reducible exact Keep.refl _ _
    | with_reducible assumption
    | with_reducible refine State.phyDo_keep _ _ _ (fun _ _ => ?_) ?_ ?_
    | with_reducible apply State.phyUpd_keep
    | with_reducible apply State.phyAbort_keep
    | with_reducible apply Keep.ite <;> intro _
    | with_reducible apply Keep.foldl <;> try intro _ _ _
    | with_reducible apply Keep.foldl_snd <;> try intro _ _ _
    | with_reducible refine Keep.of_snd ‹_ = (_, _)› ?_
    | with_reducible refine Keep.of_snd2 ‹_ = (_, _, _)› ?_
    | with_reducible apply Keep.of_id
    | split
    | dsimp only

theorem State.phyLose_keep {m : Nat} {s0 : State} (s : State) (a1 : _) (hm : subMask 2097184 m = true) (h : Keep m s0 s) : Keep m s0 (State.phyLose s a1) := by
  refine Keep.lift (f := 2097184) ?_ hm h
  unfold State.phyLose
  repeat' first
    | exact rfl
    | with_reducible exact Keep.refl _ _
    | with_reducible assumption
    | with_reducible refine State.phyDo_keep _ _ _ (fun _ _ => ?_) ?_ ?_
    | with_reducible apply State.phyAbort_keep
    | with_reducible apply State.phyUpd_keep
    | with_reducible apply Keep.ite <;> intro _
    | with_reducible apply Keep.foldl <;> try intro _ _ _
    | with_reducible apply Keep.foldl_snd <;> try intro _ _ _
    | with_reducible refine Keep.of_snd ‹_ = (_, _)› ?_
    | with_reducible refine Keep.of_snd2 ‹_ = (_, _, _)› ?_
    | with_reducible apply Keep.of_id
    | split
    | dsimp only

theorem State.setDfs_keep {m : Nat} {s0 : State} (s : State) (a1 : _) (a2 : _) (a3 : _) (hm : subMask 32 m = true) (h : Keep m s0 s) : Keep m s0 (State.setDfs s a1 a2 a3) := by
  refine Keep.lift (f := 32) ?_ hm h
  unfold State.setDfs
  repeat' first
    | exact rfl
    | with_reducible exact Keep.refl _ _
    | with_reducible assumption
    | with_reducible apply State.setReg_keep
    | with_reducible apply Keep.ite <;> intro _
    | with_reducible apply Keep.foldl <;> try intro _ _ _
    | with_reducible apply Keep.foldl_snd <;> try intro _ _ _
    | with_reducible refine Keep.of_snd ‹_ = (_, _)› ?_
    | with_reducible refine Keep.of_snd2 ‹_ = (_, _, _)› ?_
    | with_reducible apply Keep.of_id
    | split
    | dsimp only

theorem State.dfsStop_keep {m : Nat} {s0 : State} (s : State) (a1 : _) (hm : subMask 32 m = true) (h : Keep m s0 s) : Keep m s0 (State.dfsStop s a1) := by
  refine Keep.lift (f := 32) ?_ hm h
  unfold State.dfsStop
  repeat' first
    | exact rfl
    | with_reducible exact Keep.refl _ _
    | with_reducible assumption
    | with_reducible apply State.setDfs_keep
    | with_reducible apply Keep.ite <;> intro _
    | with_reducible apply Keep.foldl <;> try intro _ _ _
    | with_reducible apply Keep.foldl_snd <;> try intro _ _ _
    | with_reducible refine Keep.of_snd ‹_ = (_, _)› ?_
    | with_reducible refine Keep.of_snd2 ‹_ = (_, _, _)› ?_
    | with_reducible apply Keep.of_id
    | split
    | dsimp only

theorem State.dfsSave_keep {m : Nat} {s0 : State} (s : State) (hm : subMask 2097152 m = true) (h : Keep m s0 s) : Keep m s0 (State.dfsSave s) := by
  refine Keep.lift (f := 2097152) ?_ hm h
  unfold State.dfsSave
  repeat' first
    | exact rfl
    | with_reducible exact Keep.refl _ _
    | with_reducible assumption
    | with_reducible apply State.phyUpd_keep
    | with_reducible apply State.bbUpd_keep
    | with_reducible apply Keep.ite <;> intro _
    | with_reducible apply Keep.foldl <;> try intro _ _ _
    | with_reducible apply Keep.foldl_snd <;> try intro _ _ _
    | with_reducible refine Keep.of_snd ‹_ = (_, _)› ?_
    | with_reducible refine Keep.of_snd2 ‹_ = (_, _, _)› ?_
    | with_reducible apply Keep.of_id
    | split
    | dsimp only

theorem State.dfsRestore_keep {m : Nat} {s0 : State} (s : State) (hm : subMask 2097184 m = true) (h : Keep m s0 s) : Keep m s0 (State.dfsRestore s) := by
  refine Keep.lift (f := 2097184) ?_ hm h
  unfold State.dfsRestore
  repeat' first
    | exact rfl
    | with_reducible exact Keep.refl _ _
    | with_reducible assumption
    | with_reducible apply State.setDfs_keep
    | with_reducible apply State.phyUpd_keep
    | with_reducible apply Keep.ite <;> intro _
    | with_reducible apply Keep.foldl <;> try intro _ _ _
    | with_reducible apply Keep.foldl_snd <;> try intro _ _ _
    | with_reducible refine Keep.of_snd ‹_ = (_, _)› ?_
    | with_reducible refine Keep.of_snd2 ‹_ = (_, _, _)› ?_
    | with_reducible apply Keep.of_id
    | split
    | dsimp only

theorem State.wacUpd_keep {m : Nat} {s0 : State} (s : State) (a1 : _) (hm : subMask 4194304 m = true) (h : Keep m s0 s) : Keep m s0 (State.wacUpd s a1) := by
  refine Keep.lift (f := 4194304) ?_ hm h
  unfold State.wacUpd
  repeat' first
    | exact rfl
    | with_reducible exact Keep.refl _ _
    | with_reducible assumption
    | with_reducible apply Keep.ite <;> intro _
    | with_reducible apply Keep.foldl <;> try intro _ _ _
    | with_reducible apply Keep.foldl_snd <;> try intro _ _ _
    | (rewrite [State.mk_eq_updOf]; (with_reducible refine Keep.node 4194304 ?_ ?_ ?_); · refine Keep.upd 4194304 ?_ ?_ ?_ ?_ ?_ (fun p hp => ?_); exact rfl; exact rfl; exact rfl; exact rfl; exact rfl; cases p <;> first | exact absurd hp (by decide) | exact rfl)
    | with_reducible refine Keep.of_snd ‹_ = (_, _)› ?_
    | with_reducible refine Keep.of_snd2 ‹_ = (_, _, _)› ?_
    | with_reducible apply Keep.of_id
    | split
    | dsimp only

theorem State.wlinkUpd_keep {m : Nat} {s0 : State} (s : State) (a1 : _) (a2 : _) (hm : subMask 4194304 m = true) (h : Keep m s0 s) : Keep m s0 (State.wlinkUpd s a1 a2) := by
  refine Keep.lift (f := 4194304) ?_ hm h
  unfold State.wlinkUpd
  repeat' first
    | exact rfl
    | with_reducible exact Keep.refl _ _
    | with_reducible assumption
    | with_reducible apply State.wacUpd_keep
    | with_reducible apply Keep.ite <;> intro _
    | with_reducible apply Keep.foldl <;> try intro _ _ _
    | with_reducible apply Keep.foldl_snd <;> try intro _ _ _
    | with_reducible refine Keep.of_snd ‹_ = (_, _)› ?_
    | with_reducible refine Keep.of_snd2 ‹_ = (_, _, _)› ?_
    | with_reducible apply Keep.of_id
    | split
    | dsimp only

theorem State.setWtbl_keep {m : Nat} {s0 : State} (s : State) (a1 : _) (a2 : _) (a3 : _) (hm : subMask 4194304 m = true) (h : Keep m s0 s) : Keep m s0 (State.setWtbl s a1 a2 a3) := by
  refine Keep.lift (f := 4194304) ?_ hm h
  unfold State.setWtbl
  repeat' first
    | exact rfl
    | with_reducible exact Keep.refl _ _
    | with_reducible assumption
    | with_reducible apply State.wacUpd_keep
    | with_reducible apply Keep.ite <;> intro _
    | with_reducible apply Keep.foldl <;> try intro _ _ _
    | with_reducible apply Keep.foldl_snd <;> try intro _ _ _
    | with_reducible refine Keep.of_snd ‹_ = (_, _)› ?_
    | with_reducible refine Keep.of_snd2 ‹_ = (_, _, _)› ?_
    | with_reducible apply Keep.of_id
    | split
    | dsimp only

theorem State.setWfld_keep {m : Nat} {s0 : State} (s : State) (a1 : _) (a2 : _) (a3 : _) (a4 : _) (a5 : _) (hm : subMask 4194304 m = true) (h : Keep m s0 s) : Keep m s0 (State.setWfld s a1 a2 a3 a4 a5) := by
  refine Keep.lift (f := 4194304) ?_ hm h
  unfold State.setWfld
  repeat' first
    | exact rfl
    | with_reducible exact Keep.refl _ _
    | with_reducible assumption
    | with_reducible apply State.setWtbl_keep
    | with_reducible apply Keep.ite <;> intro _
    | with_reducible apply Keep.foldl <;> try intro _ _ _
    | with_reducible apply Keep.foldl_snd <;> try intro _ _ _
    | with_reducible refine Keep.of_snd ‹_ = (_, _)› ?_
    | with_reducible refine Keep.of_snd2 ‹_ = (_, _, _)› ?_
    | with_reducible apply Keep.of_id
    | split
    | dsimp only

theorem State.wacLine_keep {m : Nat} {s0 : State} (s : State) (hm : subMask 4194304 m = true) (h : Keep m s0 s) : Keep m s0 (State.wacLine s) := by
  refine Keep.lift (f := 4194304) ?_ hm h
  unfold State.wacLine
  repeat' first
    | exact rfl
    | with_reducible exact Keep.refl _ _
    | with_reducible assumption
    | with_reducible apply State.wlinkUpd_keep
    | with_reducible apply Keep.ite <;> intro _
    | with_reducible apply Keep.foldl <;> try intro _ _ _
    | with_reducible apply Keep.foldl_snd <;> try intro _ _ _
    | with_reducible refine Keep.of_snd ‹_ = (_, _)› ?_
    | with_reducible refine Keep.of_snd2 ‹_ = (_, _, _)› ?_
    | with_reducible apply Keep.of_id
    | split
    | dsimp only

theorem State.wlinkDrop_keep {m : Nat} {s0 : State} (s : State) (a1 : _) (hm : subMask 4194304 m = true) (h : Keep m s0 s) : Keep m s0 (State.wlinkDrop s a1) := by
  refine Keep.lift (f := 4194304) ?_ hm h
  unfold State.wlinkDrop
  repeat' first
    | exact rfl
    | with_reducible exact Keep.refl _ _
    | with_reducible assumption
    | with_reducible apply State.wlinkUpd_keep
    | with_reducible apply State.wacUpd_keep
    | with_reducible apply Keep.ite <;> intro _
    | with_reducible apply Keep.foldl <;> try intro _ _ _
    | with_reducible apply Keep.foldl_snd <;> try intro _ _ _
    | with_reducible refine Keep.of_snd ‹_ = (_, _)› ?_
    | with_reducible refine Keep.of_snd2 ‹_ = (_, _, _)› ?_
    | with_reducible apply Keep.of_id
    | split
    | dsimp only

theorem State.wlinksStop_keep {m : Nat} {s0 : State} (s : State) (hm : subMask 4194304 m = true) (h : Keep m s0 s) : Keep m s0 (State.wlinksStop s) := by
  refine Keep.lift (f := 4194304) ?_ hm h
  unfold State.wlinksStop
  repeat' first
    | exact rfl
    | with_reducible exact Keep.refl _ _
    | with_reducible assumption
    | with_reducible apply State.wlinkDrop_keep
    | with_reducible apply Keep.ite <;> intro _
    | with_reducible apply Keep.foldl <;> try intro _ _ _
    | with_reducible apply Keep.foldl_snd <;> try intro _ _ _
    | with_reducible refine Keep.of_snd ‹_ = (_, _)› ?_
    | with_reducible refine Keep.of_snd2 ‹_ = (_, _, _)› ?_
    | with_reducible apply Keep.of_id
    | split
    | dsimp only

theorem State.pathsCheck_keep {m : Nat} {s0 : State} (s : State) (hm : subMask 4194608 m = true) (h : Keep m s0 s) : Keep m s0 (State.pathsCheck s) := by
  refine Keep.lift (f := 4194608) ?_ hm h
  unfold State.pathsCheck
  repeat' first
    | exact rfl
    | with_reducible exact Keep.refl _ _
    | with_reducible assumption
    | with_reducible apply State.wacLine_keep
    | with_reducible apply State.wlinksStop_keep
    | with_reducible apply State.setWfld_keep
    | with_reducible apply State.wlinkUpd_keep
    | with_reducible apply State.raise_keep
    | with_reducible apply State.dfsStop_keep
    | with_reducible apply Keep.ite <;> intro _
    | with_reducible apply Keep.foldl <;> try intro _ _ _
    | with_reducible apply Keep.foldl_snd <;> try intro _ _ _
    | with_reducible refine Keep.of_snd ‹_ = (_, _)› ?_
    | with_reducible refine Keep.of_snd2 ‹_ = (_, _, _)› ?_
    | with_reducible apply Keep.of_id
    | split
    | dsimp only

end Sys2Proof.Machine
end

