-- ==== Sys2Proof/Laws/KeepChain.lean ====
section
/-! SUPPORT. What each operation of Machine/Chain.lean leaves alone. -/

set_option Elab.async false

namespace Sys2Proof.Machine

theorem State.txRadiate_keep {m : Nat} {s0 : State} (s : State) (a1 : _) (a2 : _) (a3 : _) (a4 : _) (hm : subMask 48 m = true) (h : Keep m s0 s) : Keep m s0 (State.txRadiate s a1 a2 a3 a4) := by
  refine Keep.lift (f := 48) ?_ hm h
  unfold State.txRadiate
  repeat' first
    | exact rfl
    | with_reducible exact Keep.refl _ _
    | with_reducible assumption
    | with_reducible apply State.incBy_keep
    | with_reducible apply State.emit_keep
    | with_reducible apply Keep.ite <;> intro _
    | with_reducible apply Keep.foldl <;> try intro _ _ _
    | with_reducible apply Keep.foldl_snd <;> try intro _ _ _
    | with_reducible refine Keep.of_snd ‹_ = (_, _)› ?_
    | with_reducible refine Keep.of_snd2 ‹_ = (_, _, _)› ?_
    | with_reducible apply Keep.of_id
    | split
    | dsimp only

end Sys2Proof.Machine
end

