-- ==== Sys2Proof/Laws/KeepQuad.lean ====
section
/-! SUPPORT. What each operation of Machine/Quad.lean leaves alone. -/

set_option Elab.async false

namespace Sys2Proof.Machine

theorem State.radUpd_keep {m : Nat} {s0 : State} (s : State) (a1 : _) (hm : subMask 1048576 m = true) (h : Keep m s0 s) : Keep m s0 (State.radUpd s a1) := by
  refine Keep.lift (f := 1048576) ?_ hm h
  unfold State.radUpd
  repeat' first
    | exact rfl
    | with_reducible exact Keep.refl _ _
    | with_reducible assumption
    | with_reducible apply Keep.ite <;> intro _
    | with_reducible apply Keep.foldl <;> try intro _ _ _
    | with_reducible apply Keep.foldl_snd <;> try intro _ _ _
    | (rewrite [State.mk_eq_updOf]; (with_reducible refine Keep.node 1048576 ?_ ?_ ?_); · refine Keep.upd 1048576 ?_ ?_ ?_ ?_ ?_ (fun p hp => ?_); exact rfl; exact rfl; exact rfl; exact rfl; exact rfl; cases p <;> first | exact absurd hp (by decide) | exact rfl)
    | with_reducible refine Keep.of_snd ‹_ = (_, _)› ?_
    | with_reducible refine Keep.of_snd2 ‹_ = (_, _, _)› ?_
    | with_reducible apply Keep.of_id
    | split
    | dsimp only

theorem State.quadUpd_keep {m : Nat} {s0 : State} (s : State) (a1 : _) (a2 : _) (hm : subMask 1048576 m = true) (h : Keep m s0 s) : Keep m s0 (State.quadUpd s a1 a2) := by
  refine Keep.lift (f := 1048576) ?_ hm h
  unfold State.quadUpd
  repeat' first
    | exact rfl
    | with_reducible exact Keep.refl _ _
    | with_reducible assumption
    | with_reducible apply State.radUpd_keep
    | with_reducible apply Keep.ite <;> intro _
    | with_reducible apply Keep.foldl <;> try intro _ _ _
    | with_reducible apply Keep.foldl_snd <;> try intro _ _ _
    | with_reducible refine Keep.of_snd ‹_ = (_, _)› ?_
    | with_reducible refine Keep.of_snd2 ‹_ = (_, _, _)› ?_
    | with_reducible apply Keep.of_id
    | split
    | dsimp only

theorem State.pathUpd_keep {m : Nat} {s0 : State} (s : State) (a1 : _) (a2 : _) (hm : subMask 1048576 m = true) (h : Keep m s0 s) : Keep m s0 (State.pathUpd s a1 a2) := by
  refine Keep.lift (f := 1048576) ?_ hm h
  unfold State.pathUpd
  repeat' first
    | exact rfl
    | with_reducible exact Keep.refl _ _
    | with_reducible assumption
    | with_reducible apply State.quadUpd_keep
    | with_reducible apply Keep.ite <;> intro _
    | with_reducible apply Keep.foldl <;> try intro _ _ _
    | with_reducible apply Keep.foldl_snd <;> try intro _ _ _
    | with_reducible refine Keep.of_snd ‹_ = (_, _)› ?_
    | with_reducible refine Keep.of_snd2 ‹_ = (_, _, _)› ?_
    | with_reducible apply Keep.of_id
    | split
    | dsimp only

theorem State.synUpd_keep {m : Nat} {s0 : State} (s : State) (a1 : _) (a2 : _) (a3 : _) (hm : subMask 1048576 m = true) (h : Keep m s0 s) : Keep m s0 (State.synUpd s a1 a2 a3) := by
  refine Keep.lift (f := 1048576) ?_ hm h
  unfold State.synUpd
  repeat' first
    | exact rfl
    | with_reducible exact Keep.refl _ _
    | with_reducible assumption
    | with_reducible apply State.quadUpd_keep
    | with_reducible apply Keep.ite <;> intro _
    | with_reducible apply Keep.foldl <;> try intro _ _ _
    | with_reducible apply Keep.foldl_snd <;> try intro _ _ _
    | with_reducible refine Keep.of_snd ‹_ = (_, _)› ?_
    | with_reducible refine Keep.of_snd2 ‹_ = (_, _, _)› ?_
    | with_reducible apply Keep.of_id
    | split
    | dsimp only

theorem State.gateOpens_keep {m : Nat} {s0 : State} (s : State) (a1 : _) (a2 : _) (hm : subMask 1048576 m = true) (h : Keep m s0 s) : Keep m s0 (State.gateOpens s a1 a2) := by
  refine Keep.lift (f := 1048576) ?_ hm h
  unfold State.gateOpens
  repeat' first
    | exact rfl
    | with_reducible exact Keep.refl _ _
    | with_reducible assumption
    | with_reducible apply State.pathUpd_keep
    | with_reducible apply Keep.ite <;> intro _
    | with_reducible apply Keep.foldl <;> try intro _ _ _
    | with_reducible apply Keep.foldl_snd <;> try intro _ _ _
    | with_reducible refine Keep.of_snd ‹_ = (_, _)› ?_
    | with_reducible refine Keep.of_snd2 ‹_ = (_, _, _)› ?_
    | with_reducible apply Keep.of_id
    | split
    | dsimp only

theorem State.txLeave_keep {m : Nat} {s0 : State} (s : State) (a1 : _) (hm : subMask 1048624 m = true) (h : Keep m s0 s) : Keep m s0 (State.txLeave s a1) := by
  refine Keep.lift (f := 1048624) ?_ hm h
  unfold State.txLeave
  repeat' first
    | exact rfl
    | with_reducible exact Keep.refl _ _
    | with_reducible assumption
    | with_reducible apply State.pathUpd_keep
    | with_reducible apply State.radUpd_keep
    | with_reducible apply State.txRadiate_keep
    | with_reducible apply Keep.ite <;> intro _
    | with_reducible apply Keep.foldl <;> try intro _ _ _
    | with_reducible apply Keep.foldl_snd <;> try intro _ _ _
    | with_reducible refine Keep.of_snd ‹_ = (_, _)› ?_
    | with_reducible refine Keep.of_snd2 ‹_ = (_, _, _)› ?_
    | with_reducible apply Keep.of_id
    | split
    | dsimp only

theorem State.pathFault_keep {m : Nat} {s0 : State} (s : State) (a1 : _) (a2 : _) (hm : subMask 7340336 m = true) (h : Keep m s0 s) : Keep m s0 (State.pathFault s a1 a2) := by
  refine Keep.lift (f := 7340336) ?_ hm h
  unfold State.pathFault
  repeat' first
    | exact rfl
    | with_reducible exact Keep.refl _ _
    | with_reducible assumption
    | with_reducible apply State.txLeave_keep
    | with_reducible apply State.pathUpd_keep
    | with_reducible apply State.pathsCheck_keep
    | with_reducible apply State.phyLose_keep
    | with_reducible apply State.inc_keep
    | with_reducible apply Keep.ite <;> intro _
    | with_reducible apply Keep.foldl <;> try intro _ _ _
    | with_reducible apply Keep.foldl_snd <;> try intro _ _ _
    | with_reducible refine Keep.of_snd ‹_ = (_, _)› ?_
    | with_reducible refine Keep.of_snd2 ‹_ = (_, _, _)› ?_
    | with_reducible apply Keep.of_id
    | split
    | dsimp only

theorem State.pathClear_keep {m : Nat} {s0 : State} (s : State) (a1 : _) (a2 : _) (hm : subMask 5243184 m = true) (h : Keep m s0 s) : Keep m s0 (State.pathClear s a1 a2) := by
  refine Keep.lift (f := 5243184) ?_ hm h
  unfold State.pathClear
  repeat' first
    | exact rfl
    | with_reducible exact Keep.refl _ _
    | with_reducible assumption
    | with_reducible apply State.pathUpd_keep
    | with_reducible apply State.pathsCheck_keep
    | with_reducible apply State.gateOpens_keep
    | with_reducible apply Keep.ite <;> intro _
    | with_reducible apply Keep.foldl <;> try intro _ _ _
    | with_reducible apply Keep.foldl_snd <;> try intro _ _ _
    | with_reducible refine Keep.of_snd ‹_ = (_, _)› ?_
    | with_reducible refine Keep.of_snd2 ‹_ = (_, _, _)› ?_
    | with_reducible apply Keep.of_id
    | split
    | dsimp only

theorem State.stackWrites_keep {m : Nat} {s0 : State} (s : State) (a1 : _) (a2 : _) (hm : subMask 16 m = true) (h : Keep m s0 s) : Keep m s0 (State.stackWrites s a1 a2) := by
  refine Keep.lift (f := 16) ?_ hm h
  unfold State.stackWrites
  repeat' first
    | exact rfl
    | with_reducible exact Keep.refl _ _
    | with_reducible assumption
    | with_reducible apply State.emit_keep
    | with_reducible apply Keep.ite <;> intro _
    | with_reducible apply Keep.foldl <;> try intro _ _ _
    | with_reducible apply Keep.foldl_snd <;> try intro _ _ _
    | with_reducible refine Keep.of_snd ‹_ = (_, _)› ?_
    | with_reducible refine Keep.of_snd2 ‹_ = (_, _, _)› ?_
    | with_reducible apply Keep.of_id
    | split
    | dsimp only

theorem State.loTune_keep {m : Nat} {s0 : State} (s : State) (a1 : _) (a2 : _) (a3 : _) (hm : subMask 1048608 m = true) (h : Keep m s0 s) : Keep m s0 (State.loTune s a1 a2 a3) := by
  refine Keep.lift (f := 1048608) ?_ hm h
  unfold State.loTune
  repeat' first
    | exact rfl
    | with_reducible exact Keep.refl _ _
    | with_reducible assumption
    | with_reducible apply State.synUpd_keep
    | with_reducible apply State.set_keep
    | with_reducible apply State.setReg_keep
    | with_reducible apply Keep.ite <;> intro _
    | with_reducible apply Keep.foldl <;> try intro _ _ _
    | with_reducible apply Keep.foldl_snd <;> try intro _ _ _
    | with_reducible refine Keep.of_snd ‹_ = (_, _)› ?_
    | with_reducible refine Keep.of_snd2 ‹_ = (_, _, _)› ?_
    | with_reducible apply Keep.of_id
    | split
    | dsimp only

theorem State.setBeamStat_keep {m : Nat} {s0 : State} (s : State) (a1 : _) (hm : subMask 32 m = true) (h : Keep m s0 s) : Keep m s0 (State.setBeamStat s a1) := by
  refine Keep.lift (f := 32) ?_ hm h
  unfold State.setBeamStat
  repeat' first
    | exact rfl
    | with_reducible exact Keep.refl _ _
    | with_reducible assumption
    | with_reducible apply State.sets_keep
    | with_reducible apply Keep.ite <;> intro _
    | with_reducible apply Keep.foldl <;> try intro _ _ _
    | with_reducible apply Keep.foldl_snd <;> try intro _ _ _
    | with_reducible refine Keep.of_snd ‹_ = (_, _)› ?_
    | with_reducible refine Keep.of_snd2 ‹_ = (_, _, _)› ?_
    | with_reducible apply Keep.of_id
    | split
    | dsimp only

theorem State.takeStack_keep {m : Nat} {s0 : State} (s : State) (a1 : _) (a2 : _) (hm : subMask 1048630 m = true) (h : Keep m s0 s) : Keep m s0 (State.takeStack s a1 a2) := by
  refine Keep.lift (f := 1048630) ?_ hm h
  unfold State.takeStack
  repeat' first
    | exact rfl
    | with_reducible exact Keep.refl _ _
    | with_reducible assumption
    | with_reducible apply State.setCur_keep
    | with_reducible apply State.loTune_keep
    | with_reducible apply State.quadUpd_keep
    | with_reducible apply State.set_keep
    | with_reducible refine State.unhold_keep _ _ _ (fun _ _ _ _ => ?_) ?_ ?_
    | with_reducible apply State.stackWrites_keep
    | with_reducible apply State.setBeamStat_keep
    | with_reducible apply Keep.ite <;> intro _
    | with_reducible apply Keep.foldl <;> try intro _ _ _
    | with_reducible apply Keep.foldl_snd <;> try intro _ _ _
    | with_reducible refine Keep.of_snd ‹_ = (_, _)› ?_
    | with_reducible refine Keep.of_snd2 ‹_ = (_, _, _)› ?_
    | with_reducible apply Keep.of_id
    | split
    | dsimp only

theorem wrQuad_keep {m : Nat} {s0 : State} (a0 : _) (a1 : _) (a2 : _) (a3 : _) (s : State) (hm : subMask 5243184 m = true) (h : Keep m s0 s) : Keep m s0 (wrQuad a0 a1 a2 a3 s) := by
  refine Keep.lift (f := 5243184) ?_ hm h
  unfold wrQuad
  repeat' first
    | exact rfl
    | with_reducible exact Keep.refl _ _
    | with_reducible assumption
    | with_reducible apply storeWord_keep
    | with_reducible apply State.txLeave_keep
    | with_reducible apply State.gateOpens_keep
    | with_reducible apply State.pathClear_keep
    | with_reducible apply State.quadUpd_keep
    | with_reducible apply State.stackWrites_keep
    | with_reducible apply Keep.ite <;> intro _
    | with_reducible apply Keep.foldl <;> try intro _ _ _
    | with_reducible apply Keep.foldl_snd <;> try intro _ _ _
    | with_reducible refine Keep.of_snd ‹_ = (_, _)› ?_
    | with_reducible refine Keep.of_snd2 ‹_ = (_, _, _)› ?_
    | with_reducible apply Keep.of_id
    | split
    | dsimp only

theorem rdQuad_keep {m : Nat} {s0 : State} (a0 : _) (a1 : _) (a2 : _) (s : State) (hm : subMask 1048880 m = true) (h : Keep m s0 s) : Keep m s0 (rdQuad a0 a1 a2 s).2 := by
  refine Keep.lift (f := 1048880) ?_ hm h
  unfold rdQuad
  repeat' first
    | exact rfl
    | with_reducible exact Keep.refl _ _
    | with_reducible assumption
    | with_reducible apply State.quadUpd_keep
    | with_reducible apply loadWord_keep
    | with_reducible apply Keep.ite <;> intro _
    | with_reducible apply Keep.foldl <;> try intro _ _ _
    | with_reducible apply Keep.foldl_snd <;> try intro _ _ _
    | with_reducible refine Keep.of_snd ‹_ = (_, _)› ?_
    | with_reducible refine Keep.of_snd2 ‹_ = (_, _, _)› ?_
    | with_reducible apply Keep.of_id
    | split
    | dsimp only

theorem execPfClr_keep (a0 : _) (a1 : _) (a2 : _) (a3 : _) (s : State) {t : State} (h : execPfClr a0 a1 a2 a3 s = .next t) : Keep 5243698 s t := by
  unfold execPfClr at h
  injection h with h
  subst h
  repeat' first
    | exact rfl
    | with_reducible exact Keep.refl _ _
    | with_reducible assumption
    | with_reducible refine writeReg_keep _ _ _ _ _ _ _ (fun _ _ _ _ _ _ => ?_) ?_ ?_
    | with_reducible apply wrQuad_keep
    | with_reducible apply Keep.ite <;> intro _
    | with_reducible apply Keep.foldl <;> try intro _ _ _
    | with_reducible apply Keep.foldl_snd <;> try intro _ _ _
    | with_reducible refine Keep.of_snd ‹_ = (_, _)› ?_
    | with_reducible refine Keep.of_snd2 ‹_ = (_, _, _)› ?_
    | with_reducible apply Keep.of_id
    | split
    | dsimp only

theorem execLoLock_keep (a0 : _) (a1 : _) (s : State) {t : State} (h : execLoLock a0 a1 s = .next t) : Keep 1048608 s t := by
  unfold execLoLock at h
  injection h with h
  subst h
  repeat' first
    | exact rfl
    | with_reducible exact Keep.refl _ _
    | with_reducible assumption
    | with_reducible apply State.gateOpens_keep
    | with_reducible apply State.synUpd_keep
    | with_reducible apply State.sets_keep
    | with_reducible apply Keep.ite <;> intro _
    | with_reducible apply Keep.foldl <;> try intro _ _ _
    | with_reducible apply Keep.foldl_snd <;> try intro _ _ _
    | with_reducible refine Keep.of_snd ‹_ = (_, _)› ?_
    | with_reducible refine Keep.of_snd2 ‹_ = (_, _, _)› ?_
    | with_reducible apply Keep.of_id
    | split
    | dsimp only

theorem execLoRestart_keep (a0 : _) (a1 : _) (s : State) {t : State} (h : execLoRestart a0 a1 s = .next t) : Keep 7340336 s t := by
  unfold execLoRestart at h
  injection h with h
  subst h
  repeat' first
    | exact rfl
    | with_reducible exact Keep.refl _ _
    | with_reducible assumption
    | with_reducible apply State.synUpd_keep
    | with_reducible apply State.setReg_keep
    | with_reducible apply State.raise_keep
    | with_reducible apply State.pathFault_keep
    | with_reducible apply Keep.ite <;> intro _
    | with_reducible apply Keep.foldl <;> try intro _ _ _
    | with_reducible apply Keep.foldl_snd <;> try intro _ _ _
    | with_reducible refine Keep.of_snd ‹_ = (_, _)› ?_
    | with_reducible refine Keep.of_snd2 ‹_ = (_, _, _)› ?_
    | with_reducible apply Keep.of_id
    | split
    | dsimp only

theorem State.ebufsCentre_keep {m : Nat} {s0 : State} (s : State) (a1 : _) (a2 : _) (hm : subMask 1048609 m = true) (h : Keep m s0 s) : Keep m s0 (State.ebufsCentre s a1 a2) := by
  refine Keep.lift (f := 1048609) ?_ hm h
  unfold State.ebufsCentre
  repeat' first
    | exact rfl
    | with_reducible exact Keep.refl _ _
    | with_reducible assumption
    | with_reducible apply State.radUpd_keep
    | with_reducible apply State.quadUpd_keep
    | with_reducible apply State.setReg_keep
    | with_reducible apply Keep.ite <;> intro _
    | with_reducible apply Keep.foldl <;> try intro _ _ _
    | with_reducible apply Keep.foldl_snd <;> try intro _ _ _
    | (rewrite [State.mk_eq_updOf]; (with_reducible refine Keep.node 1 ?_ ?_ ?_); · refine Keep.upd 1 ?_ ?_ ?_ ?_ ?_ (fun p hp => ?_); exact rfl; exact rfl; exact rfl; exact rfl; exact rfl; cases p <;> first | exact absurd hp (by decide) | exact rfl)
    | with_reducible refine Keep.of_snd ‹_ = (_, _)› ?_
    | with_reducible refine Keep.of_snd2 ‹_ = (_, _, _)› ?_
    | with_reducible apply Keep.of_id
    | split
    | dsimp only

theorem State.airSilent_keep {m : Nat} {s0 : State} (s : State) (a1 : _) (hm : subMask 16 m = true) (h : Keep m s0 s) : Keep m s0 (State.airSilent s a1) := by
  refine Keep.lift (f := 16) ?_ hm h
  unfold State.airSilent
  repeat' first
    | exact rfl
    | with_reducible exact Keep.refl _ _
    | with_reducible assumption
    | with_reducible apply State.emit_keep
    | with_reducible apply Keep.ite <;> intro _
    | with_reducible apply Keep.foldl <;> try intro _ _ _
    | with_reducible apply Keep.foldl_snd <;> try intro _ _ _
    | with_reducible refine Keep.of_snd ‹_ = (_, _)› ?_
    | with_reducible refine Keep.of_snd2 ‹_ = (_, _, _)› ?_
    | with_reducible apply Keep.of_id
    | split
    | dsimp only

theorem State.ebufSlip_keep {m : Nat} {s0 : State} (s : State) (a1 : _) (a2 : _) (hm : subMask 304 m = true) (h : Keep m s0 s) : Keep m s0 (State.ebufSlip s a1 a2) := by
  refine Keep.lift (f := 304) ?_ hm h
  unfold State.ebufSlip
  repeat' first
    | exact rfl
    | with_reducible exact Keep.refl _ _
    | with_reducible assumption
    | with_reducible apply State.raise_keep
    | with_reducible apply State.inc_keep
    | with_reducible apply State.set_keep
    | with_reducible apply State.airSilent_keep
    | with_reducible apply Keep.ite <;> intro _
    | with_reducible apply Keep.foldl <;> try intro _ _ _
    | with_reducible apply Keep.foldl_snd <;> try intro _ _ _
    | with_reducible refine Keep.of_snd ‹_ = (_, _)› ?_
    | with_reducible refine Keep.of_snd2 ‹_ = (_, _, _)› ?_
    | with_reducible apply Keep.of_id
    | split
    | dsimp only

theorem State.ebufsSlip_keep {m : Nat} {s0 : State} (s : State) (hm : subMask 304 m = true) (h : Keep m s0 s) : Keep m s0 (State.ebufsSlip s) := by
  refine Keep.lift (f := 304) ?_ hm h
  unfold State.ebufsSlip
  repeat' first
    | exact rfl
    | with_reducible exact Keep.refl _ _
    | with_reducible assumption
    | with_reducible apply State.ebufSlip_keep
    | with_reducible apply Keep.ite <;> intro _
    | with_reducible apply Keep.foldl <;> try intro _ _ _
    | with_reducible apply Keep.foldl_snd <;> try intro _ _ _
    | with_reducible refine Keep.of_snd ‹_ = (_, _)› ?_
    | with_reducible refine Keep.of_snd2 ‹_ = (_, _, _)› ?_
    | with_reducible apply Keep.of_id
    | split
    | dsimp only

theorem execAsyncPulse_keep (a0 : _) (s : State) {t : State} (h : execAsyncPulse a0 s = .next t) : Keep 1048881 s t := by
  unfold execAsyncPulse at h
  injection h with h
  subst h
  repeat' first
    | exact rfl
    | with_reducible exact Keep.refl _ _
    | with_reducible assumption
    | with_reducible apply State.ebufsCentre_keep
    | with_reducible apply State.ebufSlip_keep
    | with_reducible apply State.synUpd_keep
    | with_reducible apply State.emit_keep
    | with_reducible apply Keep.ite <;> intro _
    | with_reducible apply Keep.foldl <;> try intro _ _ _
    | with_reducible apply Keep.foldl_snd <;> try intro _ _ _
    | with_reducible refine Keep.of_snd ‹_ = (_, _)› ?_
    | with_reducible refine Keep.of_snd2 ‹_ = (_, _, _)› ?_
    | with_reducible apply Keep.of_id
    | split
    | dsimp only

theorem execEbufSlip_keep (a0 : _) (a1 : _) (s : State) {t : State} (h : execEbufSlip a0 a1 s = .next t) : Keep 304 s t := by
  unfold execEbufSlip at h
  injection h with h
  subst h
  repeat' first
    | exact rfl
    | with_reducible exact Keep.refl _ _
    | with_reducible assumption
    | with_reducible apply State.ebufSlip_keep
    | with_reducible apply Keep.ite <;> intro _
    | with_reducible apply Keep.foldl <;> try intro _ _ _
    | with_reducible apply Keep.foldl_snd <;> try intro _ _ _
    | with_reducible refine Keep.of_snd ‹_ = (_, _)› ?_
    | with_reducible refine Keep.of_snd2 ‹_ = (_, _, _)› ?_
    | with_reducible apply Keep.of_id
    | split
    | dsimp only

theorem execAsyncLost_keep (s : State) {t : State} (h : execAsyncLost s = .next t) : Keep 304 s t := by
  unfold execAsyncLost at h
  injection h with h
  subst h
  repeat' first
    | exact rfl
    | with_reducible exact Keep.refl _ _
    | with_reducible assumption
    | with_reducible apply State.raise_keep
    | with_reducible apply State.set_keep
    | with_reducible apply Keep.ite <;> intro _
    | with_reducible apply Keep.foldl <;> try intro _ _ _
    | with_reducible apply Keep.foldl_snd <;> try intro _ _ _
    | with_reducible refine Keep.of_snd ‹_ = (_, _)› ?_
    | with_reducible refine Keep.of_snd2 ‹_ = (_, _, _)› ?_
    | with_reducible apply Keep.of_id
    | split
    | dsimp only

theorem execFenRffeCmd_keep (a0 : _) (a1 : _) (a2 : _) (s : State) {t : State} (h : execFenRffeCmd a0 a1 a2 s = .next t) : Keep 5243702 s t := by
  unfold execFenRffeCmd at h
  injection h with h
  subst h
  repeat' first
    | exact rfl
    | with_reducible exact Keep.refl _ _
    | with_reducible assumption
    | with_reducible refine writeOrHold_keep _ _ _ _ _ _ _ (fun _ _ _ _ _ _ => ?_) ?_ ?_
    | with_reducible apply wrQuad_keep
    | with_reducible apply Keep.ite <;> intro _
    | with_reducible apply Keep.foldl <;> try intro _ _ _
    | with_reducible apply Keep.foldl_snd <;> try intro _ _ _
    | with_reducible refine Keep.of_snd ‹_ = (_, _)› ?_
    | with_reducible refine Keep.of_snd2 ‹_ = (_, _, _)› ?_
    | with_reducible apply Keep.of_id
    | split
    | dsimp only

theorem execRffeCommandDone_keep (a0 : _) (a1 : _) (a2 : _) (a3 : _) (s : State) {t : State} (h : execRffeCommandDone a0 a1 a2 a3 s = .next t) : Keep 5243191 s t := by
  unfold execRffeCommandDone at h
  injection h with h
  subst h
  repeat' first
    | exact rfl
    | with_reducible exact Keep.refl _ _
    | with_reducible assumption
    | with_reducible apply State.quadUpd_keep
    | with_reducible apply State.emit_keep
    | with_reducible apply State.inc_keep
    | with_reducible refine State.unhold_keep _ _ _ (fun _ _ _ _ => ?_) ?_ ?_
    | with_reducible apply wrQuad_keep
    | with_reducible apply Keep.ite <;> intro _
    | with_reducible apply Keep.foldl <;> try intro _ _ _
    | with_reducible apply Keep.foldl_snd <;> try intro _ _ _
    | (rewrite [State.mk_eq_updOf]; (with_reducible refine Keep.node 1 ?_ ?_ ?_); · refine Keep.upd 1 ?_ ?_ ?_ ?_ ?_ (fun p hp => ?_); exact rfl; exact rfl; exact rfl; exact rfl; exact rfl; cases p <;> first | exact absurd hp (by decide) | exact rfl)
    | with_reducible refine Keep.of_snd ‹_ = (_, _)› ?_
    | with_reducible refine Keep.of_snd2 ‹_ = (_, _, _)› ?_
    | with_reducible apply Keep.of_id
    | split
    | dsimp only

theorem execFenRffeRsp_keep (a0 : _) (a1 : _) (s : State) {t : State} (h : execFenRffeRsp a0 a1 s = .next t) : Keep 1049394 s t := by
  unfold execFenRffeRsp at h
  injection h with h
  subst h
  repeat' first
    | exact rfl
    | with_reducible exact Keep.refl _ _
    | with_reducible assumption
    | with_reducible refine readReg_keep _ _ _ _ _ _ (fun _ _ _ _ _ => ?_) ?_ ?_
    | with_reducible apply rdQuad_keep
    | with_reducible apply Keep.ite <;> intro _
    | with_reducible apply Keep.foldl <;> try intro _ _ _
    | with_reducible apply Keep.foldl_snd <;> try intro _ _ _
    | with_reducible refine Keep.of_snd ‹_ = (_, _)› ?_
    | with_reducible refine Keep.of_snd2 ‹_ = (_, _, _)› ?_
    | with_reducible apply Keep.of_id
    | split
    | dsimp only

theorem execRffePoll_keep (a0 : _) (a1 : _) (a2 : _) (a3 : _) (s : State) {t : State} (h : execRffePoll a0 a1 a2 a3 s = .next t) : Keep 7340336 s t := by
  unfold execRffePoll at h
  injection h with h
  subst h
  repeat' first
    | exact rfl
    | with_reducible exact Keep.refl _ _
    | with_reducible assumption
    | with_reducible apply State.quadUpd_keep
    | with_reducible apply State.pathClear_keep
    | with_reducible apply State.stackWrites_keep
    | with_reducible apply State.pathFault_keep
    | with_reducible apply State.inc_keep
    | with_reducible apply State.raise_keep
    | with_reducible apply Keep.ite <;> intro _
    | with_reducible apply Keep.foldl <;> try intro _ _ _
    | with_reducible apply Keep.foldl_snd <;> try intro _ _ _
    | with_reducible refine Keep.of_snd ‹_ = (_, _)› ?_
    | with_reducible refine Keep.of_snd2 ‹_ = (_, _, _)› ?_
    | with_reducible apply Keep.of_id
    | split
    | dsimp only

theorem execVioOvercurrent_keep (a0 : _) (s : State) {t : State} (h : execVioOvercurrent a0 s = .next t) : Keep 7340336 s t := by
  unfold execVioOvercurrent at h
  injection h with h
  subst h
  repeat' first
    | exact rfl
    | with_reducible exact Keep.refl _ _
    | with_reducible assumption
    | with_reducible apply State.raise_keep
    | with_reducible apply State.pathFault_keep
    | with_reducible apply State.set_keep
    | with_reducible apply Keep.ite <;> intro _
    | with_reducible apply Keep.foldl <;> try intro _ _ _
    | with_reducible apply Keep.foldl_snd <;> try intro _ _ _
    | with_reducible refine Keep.of_snd ‹_ = (_, _)› ?_
    | with_reducible refine Keep.of_snd2 ‹_ = (_, _, _)› ?_
    | with_reducible apply Keep.of_id
    | split
    | dsimp only

theorem execVioEn_keep (a0 : _) (a1 : _) (a2 : _) (s : State) {t : State} (h : execVioEn a0 a1 a2 s = .next t) : Keep 5243698 s t := by
  unfold execVioEn at h
  injection h with h
  subst h
  repeat' first
    | exact rfl
    | with_reducible exact Keep.refl _ _
    | with_reducible assumption
    | with_reducible refine writeReg_keep _ _ _ _ _ _ _ (fun _ _ _ _ _ _ => ?_) ?_ ?_
    | with_reducible apply wrQuad_keep
    | with_reducible apply Keep.ite <;> intro _
    | with_reducible apply Keep.foldl <;> try intro _ _ _
    | with_reducible apply Keep.foldl_snd <;> try intro _ _ _
    | with_reducible refine Keep.of_snd ‹_ = (_, _)› ?_
    | with_reducible refine Keep.of_snd2 ‹_ = (_, _, _)› ?_
    | with_reducible apply Keep.of_id
    | split
    | dsimp only

theorem execBiasShort_keep (a0 : _) (a1 : _) (s : State) {t : State} (h : execBiasShort a0 a1 s = .next t) : Keep 7340336 s t := by
  unfold execBiasShort at h
  injection h with h
  subst h
  repeat' first
    | exact rfl
    | with_reducible exact Keep.refl _ _
    | with_reducible assumption
    | with_reducible apply State.raise_keep
    | with_reducible apply State.pathFault_keep
    | with_reducible apply Keep.ite <;> intro _
    | with_reducible apply Keep.foldl <;> try intro _ _ _
    | with_reducible apply Keep.foldl_snd <;> try intro _ _ _
    | with_reducible refine Keep.of_snd ‹_ = (_, _)› ?_
    | with_reducible refine Keep.of_snd2 ‹_ = (_, _, _)› ?_
    | with_reducible apply Keep.of_id
    | split
    | dsimp only

theorem execBiasOpen_keep (a0 : _) (a1 : _) (s : State) {t : State} (h : execBiasOpen a0 a1 s = .next t) : Keep 7340336 s t := by
  unfold execBiasOpen at h
  injection h with h
  subst h
  repeat' first
    | exact rfl
    | with_reducible exact Keep.refl _ _
    | with_reducible assumption
    | with_reducible apply State.raise_keep
    | with_reducible apply State.pathFault_keep
    | with_reducible apply Keep.ite <;> intro _
    | with_reducible apply Keep.foldl <;> try intro _ _ _
    | with_reducible apply Keep.foldl_snd <;> try intro _ _ _
    | with_reducible refine Keep.of_snd ‹_ = (_, _)› ?_
    | with_reducible refine Keep.of_snd2 ‹_ = (_, _, _)› ?_
    | with_reducible apply Keep.of_id
    | split
    | dsimp only

theorem execFastline_keep (a0 : _) (a1 : _) (s : State) {t : State} (h : execFastline a0 a1 s = .next t) : Keep 7340336 s t := by
  unfold execFastline at h
  injection h with h
  subst h
  repeat' first
    | exact rfl
    | with_reducible exact Keep.refl _ _
    | with_reducible assumption
    | with_reducible apply State.raise_keep
    | with_reducible apply State.pathFault_keep
    | with_reducible apply Keep.ite <;> intro _
    | with_reducible apply Keep.foldl <;> try intro _ _ _
    | with_reducible apply Keep.foldl_snd <;> try intro _ _ _
    | with_reducible refine Keep.of_snd ‹_ = (_, _)› ?_
    | with_reducible refine Keep.of_snd2 ‹_ = (_, _, _)› ?_
    | with_reducible apply Keep.of_id
    | split
    | dsimp only

end Sys2Proof.Machine
end

