-- ==== Sys2Proof/Laws/KeepArray.lean ====
section
/-! SUPPORT. What each operation of Machine/Array.lean leaves alone. -/

set_option Elab.async false

namespace Sys2Proof.Machine

theorem State.txfCommit_keep {m : Nat} {s0 : State} (s : State) (a1 : _) (hm : subMask 1048608 m = true) (h : Keep m s0 s) : Keep m s0 (State.txfCommit s a1) := by
  refine Keep.lift (f := 1048608) ?_ hm h
  unfold State.txfCommit
  repeat' first
    | exact rfl
    | with_reducible exact Keep.refl _ _
    | with_reducible assumption
    | with_reducible apply State.commit_keep
    | with_reducible apply State.quadUpd_keep
    | with_reducible apply Keep.ite <;> intro _
    | with_reducible apply Keep.foldl <;> try intro _ _ _
    | with_reducible apply Keep.foldl_snd <;> try intro _ _ _
    | with_reducible refine Keep.of_snd ‹_ = (_, _)› ?_
    | with_reducible refine Keep.of_snd2 ‹_ = (_, _, _)› ?_
    | with_reducible apply Keep.of_id
    | split
    | dsimp only

theorem State.beamName_keep {m : Nat} {s0 : State} (s : State) (a1 : _) (a2 : _) (a3 : _) (hm : subMask 1048576 m = true) (h : Keep m s0 s) : Keep m s0 (State.beamName s a1 a2 a3) := by
  refine Keep.lift (f := 1048576) ?_ hm h
  unfold State.beamName
  repeat' first
    | exact rfl
    | with_reducible exact Keep.refl _ _
    | with_reducible assumption
    | with_reducible apply State.quadUpd_keep
    | with_reducible apply Keep.ite <;> intro _
    | with_reducible apply Keep.foldl <;> try intro _ _ _
    | with_reducible apply Keep.foldl_snd <;> try intro _ _ _
    | with_reducible refine Keep.of_snd ‹_ = (_, _)› ?_
    | with_reducible refine Keep.of_snd2 ‹_ = (_, _, _)› ?_
    | with_reducible apply Keep.of_id
    | split
    | dsimp only

theorem State.beamsName_keep {m : Nat} {s0 : State} (s : State) (a1 : _) (hm : subMask 1048576 m = true) (h : Keep m s0 s) : Keep m s0 (State.beamsName s a1) := by
  refine Keep.lift (f := 1048576) ?_ hm h
  unfold State.beamsName
  repeat' first
    | exact rfl
    | with_reducible exact Keep.refl _ _
    | with_reducible assumption
    | with_reducible apply State.beamName_keep
    | with_reducible apply Keep.ite <;> intro _
    | with_reducible apply Keep.foldl <;> try intro _ _ _
    | with_reducible apply Keep.foldl_snd <;> try intro _ _ _
    | with_reducible refine Keep.of_snd ‹_ = (_, _)› ?_
    | with_reducible refine Keep.of_snd2 ‹_ = (_, _, _)› ?_
    | with_reducible apply Keep.of_id
    | split
    | dsimp only

theorem State.beamUse_keep {m : Nat} {s0 : State} (s : State) (a1 : _) (a2 : _) (a3 : _) (a4 : _) (hm : subMask 1048880 m = true) (h : Keep m s0 s) : Keep m s0 (State.beamUse s a1 a2 a3 a4) := by
  refine Keep.lift (f := 1048880) ?_ hm h
  unfold State.beamUse
  repeat' first
    | exact rfl
    | with_reducible exact Keep.refl _ _
    | with_reducible assumption
    | with_reducible apply State.raise_keep
    | with_reducible apply State.inc_keep
    | with_reducible apply State.quadUpd_keep
    | with_reducible apply Keep.ite <;> intro _
    | with_reducible apply Keep.foldl <;> try intro _ _ _
    | with_reducible apply Keep.foldl_snd <;> try intro _ _ _
    | with_reducible refine Keep.of_snd ‹_ = (_, _)› ?_
    | with_reducible refine Keep.of_snd2 ‹_ = (_, _, _)› ?_
    | with_reducible apply Keep.of_id
    | split
    | dsimp only

theorem State.setDpd_keep {m : Nat} {s0 : State} (s : State) (a1 : _) (a2 : _) (hm : subMask 1048576 m = true) (h : Keep m s0 s) : Keep m s0 (State.setDpd s a1 a2) := by
  refine Keep.lift (f := 1048576) ?_ hm h
  unfold State.setDpd
  repeat' first
    | exact rfl
    | with_reducible exact Keep.refl _ _
    | with_reducible assumption
    | with_reducible apply State.quadUpd_keep
    | with_reducible apply Keep.ite <;> intro _
    | with_reducible apply Keep.foldl <;> try intro _ _ _
    | with_reducible apply Keep.foldl_snd <;> try intro _ _ _
    | with_reducible refine Keep.of_snd ‹_ = (_, _)› ?_
    | with_reducible refine Keep.of_snd2 ‹_ = (_, _, _)› ?_
    | with_reducible apply Keep.of_id
    | split
    | dsimp only

theorem State.beamsHear_keep {m : Nat} {s0 : State} (s : State) (a1 : _) (a2 : _) (a3 : _) (hm : subMask 1048880 m = true) (h : Keep m s0 s) : Keep m s0 (State.beamsHear s a1 a2 a3) := by
  refine Keep.lift (f := 1048880) ?_ hm h
  unfold State.beamsHear
  repeat' first
    | exact rfl
    | with_reducible exact Keep.refl _ _
    | with_reducible assumption
    | with_reducible apply State.beamUse_keep
    | with_reducible apply Keep.ite <;> intro _
    | with_reducible apply Keep.foldl <;> try intro _ _ _
    | with_reducible apply Keep.foldl_snd <;> try intro _ _ _
    | with_reducible refine Keep.of_snd ‹_ = (_, _)› ?_
    | with_reducible refine Keep.of_snd2 ‹_ = (_, _, _)› ?_
    | with_reducible apply Keep.of_id
    | split
    | dsimp only

theorem State.dpdActivate_keep {m : Nat} {s0 : State} (s : State) (a1 : _) (a2 : _) (a3 : _) (hm : subMask 1048608 m = true) (h : Keep m s0 s) : Keep m s0 (State.dpdActivate s a1 a2 a3) := by
  refine Keep.lift (f := 1048608) ?_ hm h
  unfold State.dpdActivate
  repeat' first
    | exact rfl
    | with_reducible exact Keep.refl _ _
    | with_reducible assumption
    | with_reducible apply State.setDpd_keep
    | with_reducible apply State.sets_keep
    | with_reducible apply Keep.ite <;> intro _
    | with_reducible apply Keep.foldl <;> try intro _ _ _
    | with_reducible apply Keep.foldl_snd <;> try intro _ _ _
    | with_reducible refine Keep.of_snd ‹_ = (_, _)› ?_
    | with_reducible refine Keep.of_snd2 ‹_ = (_, _, _)› ?_
    | with_reducible apply Keep.of_id
    | split
    | dsimp only

theorem State.dpdCommit_keep {m : Nat} {s0 : State} (s : State) (a1 : _) (a2 : _) (a3 : _) (hm : subMask 1048608 m = true) (h : Keep m s0 s) : Keep m s0 (State.dpdCommit s a1 a2 a3) := by
  refine Keep.lift (f := 1048608) ?_ hm h
  unfold State.dpdCommit
  repeat' first
    | exact rfl
    | with_reducible exact Keep.refl _ _
    | with_reducible assumption
    | with_reducible apply State.setDpd_keep
    | with_reducible apply State.set_keep
    | with_reducible apply State.dpdActivate_keep
    | with_reducible apply Keep.ite <;> intro _
    | with_reducible apply Keep.foldl <;> try intro _ _ _
    | with_reducible apply Keep.foldl_snd <;> try intro _ _ _
    | with_reducible refine Keep.of_snd ‹_ = (_, _)› ?_
    | with_reducible refine Keep.of_snd2 ‹_ = (_, _, _)› ?_
    | with_reducible apply Keep.of_id
    | split
    | dsimp only

theorem State.dpdStart_keep {m : Nat} {s0 : State} (s : State) (a1 : _) (a2 : _) (hm : subMask 1048608 m = true) (h : Keep m s0 s) : Keep m s0 (State.dpdStart s a1 a2) := by
  refine Keep.lift (f := 1048608) ?_ hm h
  unfold State.dpdStart
  repeat' first
    | exact rfl
    | with_reducible exact Keep.refl _ _
    | with_reducible assumption
    | with_reducible apply State.dpdActivate_keep
    | with_reducible apply Keep.ite <;> intro _
    | with_reducible apply Keep.foldl <;> try intro _ _ _
    | with_reducible apply Keep.foldl_snd <;> try intro _ _ _
    | with_reducible refine Keep.of_snd ‹_ = (_, _)› ?_
    | with_reducible refine Keep.of_snd2 ‹_ = (_, _, _)› ?_
    | with_reducible apply Keep.of_id
    | split
    | dsimp only

theorem State.orxStall_keep {m : Nat} {s0 : State} (s : State) (a1 : _) (a2 : _) (hm : subMask 1048880 m = true) (h : Keep m s0 s) : Keep m s0 (State.orxStall s a1 a2) := by
  refine Keep.lift (f := 1048880) ?_ hm h
  unfold State.orxStall
  repeat' first
    | exact rfl
    | with_reducible exact Keep.refl _ _
    | with_reducible assumption
    | with_reducible apply State.quadUpd_keep
    | with_reducible apply State.raise_keep
    | with_reducible apply State.inc_keep
    | with_reducible apply Keep.ite <;> intro _
    | with_reducible apply Keep.foldl <;> try intro _ _ _
    | with_reducible apply Keep.foldl_snd <;> try intro _ _ _
    | with_reducible refine Keep.of_snd ‹_ = (_, _)› ?_
    | with_reducible refine Keep.of_snd2 ‹_ = (_, _, _)› ?_
    | with_reducible apply Keep.of_id
    | split
    | dsimp only

theorem State.slotFree_keep {m : Nat} {s0 : State} (s : State) (a1 : _) (a2 : _) (a3 : _) (hm : subMask 1048880 m = true) (h : Keep m s0 s) : Keep m s0 (State.slotFree s a1 a2 a3) := by
  refine Keep.lift (f := 1048880) ?_ hm h
  unfold State.slotFree
  repeat' first
    | exact rfl
    | with_reducible exact Keep.refl _ _
    | with_reducible assumption
    | with_reducible apply State.orxStall_keep
    | with_reducible apply State.quadUpd_keep
    | with_reducible apply Keep.ite <;> intro _
    | with_reducible apply Keep.foldl <;> try intro _ _ _
    | with_reducible apply Keep.foldl_snd <;> try intro _ _ _
    | with_reducible refine Keep.of_snd ‹_ = (_, _)› ?_
    | with_reducible refine Keep.of_snd2 ‹_ = (_, _, _)› ?_
    | with_reducible apply Keep.of_id
    | split
    | dsimp only

theorem State.elemSwitch_keep {m : Nat} {s0 : State} (s : State) (a1 : _) (a2 : _) (hm : subMask 1048576 m = true) (h : Keep m s0 s) : Keep m s0 (State.elemSwitch s a1 a2) := by
  refine Keep.lift (f := 1048576) ?_ hm h
  unfold State.elemSwitch
  repeat' first
    | exact rfl
    | with_reducible exact Keep.refl _ _
    | with_reducible assumption
    | with_reducible apply State.quadUpd_keep
    | with_reducible apply Keep.ite <;> intro _
    | with_reducible apply Keep.foldl <;> try intro _ _ _
    | with_reducible apply Keep.foldl_snd <;> try intro _ _ _
    | with_reducible refine Keep.of_snd ‹_ = (_, _)› ?_
    | with_reducible refine Keep.of_snd2 ‹_ = (_, _, _)› ?_
    | with_reducible apply Keep.of_id
    | split
    | dsimp only

theorem State.visitAbandon_keep {m : Nat} {s0 : State} (s : State) (a1 : _) (a2 : _) (hm : subMask 1048880 m = true) (h : Keep m s0 s) : Keep m s0 (State.visitAbandon s a1 a2) := by
  refine Keep.lift (f := 1048880) ?_ hm h
  unfold State.visitAbandon
  repeat' first
    | exact rfl
    | with_reducible exact Keep.refl _ _
    | with_reducible assumption
    | with_reducible apply State.elemSwitch_keep
    | with_reducible apply State.inc_keep
    | with_reducible apply State.quadUpd_keep
    | with_reducible apply State.slotFree_keep
    | with_reducible apply Keep.ite <;> intro _
    | with_reducible apply Keep.foldl <;> try intro _ _ _
    | with_reducible apply Keep.foldl_snd <;> try intro _ _ _
    | with_reducible refine Keep.of_snd ‹_ = (_, _)› ?_
    | with_reducible refine Keep.of_snd2 ‹_ = (_, _, _)› ?_
    | with_reducible apply Keep.of_id
    | split
    | dsimp only

theorem State.visitsAbandon_keep {m : Nat} {s0 : State} (s : State) (a1 : _) (a2 : _) (hm : subMask 1048880 m = true) (h : Keep m s0 s) : Keep m s0 (State.visitsAbandon s a1 a2) := by
  refine Keep.lift (f := 1048880) ?_ hm h
  unfold State.visitsAbandon
  repeat' first
    | exact rfl
    | with_reducible exact Keep.refl _ _
    | with_reducible assumption
    | with_reducible apply State.visitAbandon_keep
    | with_reducible apply Keep.ite <;> intro _
    | with_reducible apply Keep.foldl <;> try intro _ _ _
    | with_reducible apply Keep.foldl_snd <;> try intro _ _ _
    | with_reducible refine Keep.of_snd ‹_ = (_, _)› ?_
    | with_reducible refine Keep.of_snd2 ‹_ = (_, _, _)› ?_
    | with_reducible apply Keep.of_id
    | split
    | dsimp only

theorem State.antCheck_keep {m : Nat} {s0 : State} (s : State) (a1 : _) (a2 : _) (a3 : _) (hm : subMask 7340336 m = true) (h : Keep m s0 s) : Keep m s0 (State.antCheck s a1 a2 a3) := by
  refine Keep.lift (f := 7340336) ?_ hm h
  unfold State.antCheck
  repeat' first
    | exact rfl
    | with_reducible exact Keep.refl _ _
    | with_reducible assumption
    | with_reducible apply State.pathClear_keep
    | with_reducible apply State.pathUpd_keep
    | with_reducible apply State.raise_keep
    | with_reducible apply State.pathFault_keep
    | with_reducible apply Keep.ite <;> intro _
    | with_reducible apply Keep.foldl <;> try intro _ _ _
    | with_reducible apply Keep.foldl_snd <;> try intro _ _ _
    | with_reducible refine Keep.of_snd ‹_ = (_, _)› ?_
    | with_reducible refine Keep.of_snd2 ‹_ = (_, _, _)› ?_
    | with_reducible apply Keep.of_id
    | split
    | dsimp only

theorem State.dpdCheck_keep {m : Nat} {s0 : State} (s : State) (a1 : _) (a2 : _) (a3 : _) (hm : subMask 1048880 m = true) (h : Keep m s0 s) : Keep m s0 (State.dpdCheck s a1 a2 a3) := by
  refine Keep.lift (f := 1048880) ?_ hm h
  unfold State.dpdCheck
  repeat' first
    | exact rfl
    | with_reducible exact Keep.refl _ _
    | with_reducible assumption
    | with_reducible apply State.setDpd_keep
    | with_reducible apply State.raise_keep
    | with_reducible apply State.inc_keep
    | with_reducible apply State.set_keep
    | with_reducible apply Keep.ite <;> intro _
    | with_reducible apply Keep.foldl <;> try intro _ _ _
    | with_reducible apply Keep.foldl_snd <;> try intro _ _ _
    | with_reducible refine Keep.of_snd ‹_ = (_, _)› ?_
    | with_reducible refine Keep.of_snd2 ‹_ = (_, _, _)› ?_
    | with_reducible apply Keep.of_id
    | split
    | dsimp only

theorem State.cplWrite_keep {m : Nat} {s0 : State} (s : State) (a1 : _) (a2 : _) (a3 : _) (hm : subMask 16 m = true) (h : Keep m s0 s) : Keep m s0 (State.cplWrite s a1 a2 a3) := by
  refine Keep.lift (f := 16) ?_ hm h
  unfold State.cplWrite
  repeat' first
    | exact rfl
    | with_reducible exact Keep.refl _ _
    | with_reducible assumption
    | with_reducible apply State.emit_keep
    | with_reducible apply Keep.ite <;> intro _
    | with_reducible apply Keep.foldl <;> try intro _ _ _
    | with_reducible apply Keep.foldl_snd <;> try intro _ _ _
    | with_reducible refine Keep.of_snd ‹_ = (_, _)› ?_
    | with_reducible refine Keep.of_snd2 ‹_ = (_, _, _)› ?_
    | with_reducible apply Keep.of_id
    | split
    | dsimp only

theorem State.beamSettle_keep {m : Nat} {s0 : State} (s : State) (a1 : _) (a2 : _) (hf : ∀ v rq t, Keep m s0 t → Keep m s0 (a2 v rq t)) (hm : subMask 1048614 m = true) (h : Keep m s0 s) : Keep m s0 (State.beamSettle s a1 a2) := by
  unfold State.beamSettle
  repeat' first
    | exact rfl
    | with_reducible exact Keep.refl _ _
    | with_reducible assumption
    | with_reducible refine State.unhold_keep _ _ _ (fun _ _ _ _ => ?_) ?_ ?_
    | exact hf _ _ _ ‹_›
    | exact subMask_trans rfl hm
    | with_reducible refine State.unhold_keep _ _ _ (fun _ _ _ _ => ?_) ?_ ?_
    | with_reducible apply State.set_keep
    | with_reducible apply State.quadUpd_keep
    | with_reducible apply Keep.ite <;> intro _
    | with_reducible apply Keep.foldl <;> try intro _ _ _
    | with_reducible apply Keep.foldl_snd <;> try intro _ _ _
    | with_reducible refine Keep.of_snd ‹_ = (_, _)› ?_
    | with_reducible refine Keep.of_snd2 ‹_ = (_, _, _)› ?_
    | with_reducible apply Keep.of_id
    | split
    | dsimp only

theorem wrArray_keep {m : Nat} {s0 : State} (a0 : _) (a1 : _) (a2 : _) (a3 : _) (s : State) (hm : subMask 1048880 m = true) (h : Keep m s0 s) : Keep m s0 (wrArray a0 a1 a2 a3 s) := by
  refine Keep.lift (f := 1048880) ?_ hm h
  unfold wrArray
  repeat' first
    | exact rfl
    | with_reducible exact Keep.refl _ _
    | with_reducible assumption
    | with_reducible apply State.txfCommit_keep
    | with_reducible apply storeWord_keep
    | with_reducible apply State.set_keep
    | with_reducible apply State.quadUpd_keep
    | with_reducible apply State.dpdCommit_keep
    | with_reducible apply State.slotFree_keep
    | with_reducible apply Keep.ite <;> intro _
    | with_reducible apply Keep.foldl <;> try intro _ _ _
    | with_reducible apply Keep.foldl_snd <;> try intro _ _ _
    | with_reducible refine Keep.of_snd ‹_ = (_, _)› ?_
    | with_reducible refine Keep.of_snd2 ‹_ = (_, _, _)› ?_
    | with_reducible apply Keep.of_id
    | split
    | dsimp only

theorem rdArray_keep {m : Nat} {s0 : State} (a0 : _) (a1 : _) (a2 : _) (s : State) (hm : subMask 1048880 m = true) (h : Keep m s0 s) : Keep m s0 (rdArray a0 a1 a2 s).2 := by
  refine Keep.lift (f := 1048880) ?_ hm h
  unfold rdArray
  repeat' first
    | exact rfl
    | with_reducible exact Keep.refl _ _
    | with_reducible assumption
    | with_reducible apply State.quadUpd_keep
    | with_reducible apply loadWord_keep
    | with_reducible apply Keep.ite <;> intro _
    | with_reducible apply Keep.foldl <;> try intro _ _ _
    | with_reducible apply Keep.foldl_snd <;> try intro _ _ _
    | with_reducible refine Keep.of_snd ‹_ = (_, _)› ?_
    | with_reducible refine Keep.of_snd2 ‹_ = (_, _, _)› ?_
    | with_reducible apply Keep.of_id
    | split
    | dsimp only

theorem execTxfCommit_keep (a0 : _) (a1 : _) (a2 : _) (s : State) {t : State} (h : execTxfCommit a0 a1 a2 s = .next t) : Keep 1049394 s t := by
  unfold execTxfCommit at h
  injection h with h
  subst h
  repeat' first
    | exact rfl
    | with_reducible exact Keep.refl _ _
    | with_reducible assumption
    | with_reducible refine writeReg_keep _ _ _ _ _ _ _ (fun _ _ _ _ _ _ => ?_) ?_ ?_
    | with_reducible apply wrArray_keep
    | with_reducible apply Keep.ite <;> intro _
    | with_reducible apply Keep.foldl <;> try intro _ _ _
    | with_reducible apply Keep.foldl_snd <;> try intro _ _ _
    | with_reducible refine Keep.of_snd ‹_ = (_, _)› ?_
    | with_reducible refine Keep.of_snd2 ‹_ = (_, _, _)› ?_
    | with_reducible apply Keep.of_id
    | split
    | dsimp only

theorem execBeamIdNamed_keep (a0 : _) (a1 : _) (a2 : _) (s : State) {t : State} (h : execBeamIdNamed a0 a1 a2 s = .next t) : Keep 1048576 s t := by
  unfold execBeamIdNamed at h
  injection h with h
  subst h
  repeat' first
    | exact rfl
    | with_reducible exact Keep.refl _ _
    | with_reducible assumption
    | with_reducible apply State.beamName_keep
    | with_reducible apply Keep.ite <;> intro _
    | with_reducible apply Keep.foldl <;> try intro _ _ _
    | with_reducible apply Keep.foldl_snd <;> try intro _ _ _
    | with_reducible refine Keep.of_snd ‹_ = (_, _)› ?_
    | with_reducible refine Keep.of_snd2 ‹_ = (_, _, _)› ?_
    | with_reducible apply Keep.of_id
    | split
    | dsimp only

theorem execBeamRecordFetch_keep (a0 : _) (a1 : _) (a2 : _) (s : State) {t : State} (h : execBeamRecordFetch a0 a1 a2 s = .next t) : Keep 1048886 s t := by
  unfold execBeamRecordFetch at h
  injection h with h
  subst h
  repeat' first
    | exact rfl
    | with_reducible exact Keep.refl _ _
    | with_reducible assumption
    | with_reducible apply State.quadUpd_keep
    | with_reducible refine State.beamSettle_keep _ _ _ (fun _ _ _ _ => ?_) ?_ ?_
    | with_reducible apply wrArray_keep
    | with_reducible apply Keep.ite <;> intro _
    | with_reducible apply Keep.foldl <;> try intro _ _ _
    | with_reducible apply Keep.foldl_snd <;> try intro _ _ _
    | with_reducible refine Keep.of_snd ‹_ = (_, _)› ?_
    | with_reducible refine Keep.of_snd2 ‹_ = (_, _, _)› ?_
    | with_reducible apply Keep.of_id
    | split
    | dsimp only

theorem execBeamCommit_keep (a0 : _) (a1 : _) (a2 : _) (s : State) {t : State} (h : execBeamCommit a0 a1 a2 s = .next t) : Keep 1049398 s t := by
  unfold execBeamCommit at h
  injection h with h
  subst h
  repeat' first
    | exact rfl
    | with_reducible exact Keep.refl _ _
    | with_reducible assumption
    | with_reducible refine writeOrHold_keep _ _ _ _ _ _ _ (fun _ _ _ _ _ _ => ?_) ?_ ?_
    | with_reducible apply wrArray_keep
    | with_reducible apply Keep.ite <;> intro _
    | with_reducible apply Keep.foldl <;> try intro _ _ _
    | with_reducible apply Keep.foldl_snd <;> try intro _ _ _
    | with_reducible refine Keep.of_snd ‹_ = (_, _)› ?_
    | with_reducible refine Keep.of_snd2 ‹_ = (_, _, _)› ?_
    | with_reducible apply Keep.of_id
    | split
    | dsimp only

theorem execDpdCommit_keep (a0 : _) (a1 : _) (a2 : _) (a3 : _) (s : State) {t : State} (h : execDpdCommit a0 a1 a2 a3 s = .next t) : Keep 1049394 s t := by
  unfold execDpdCommit at h
  injection h with h
  subst h
  repeat' first
    | exact rfl
    | with_reducible exact Keep.refl _ _
    | with_reducible assumption
    | with_reducible refine writeReg_keep _ _ _ _ _ _ _ (fun _ _ _ _ _ _ => ?_) ?_ ?_
    | with_reducible apply wrArray_keep
    | with_reducible apply Keep.ite <;> intro _
    | with_reducible apply Keep.foldl <;> try intro _ _ _
    | with_reducible apply Keep.foldl_snd <;> try intro _ _ _
    | with_reducible refine Keep.of_snd ‹_ = (_, _)› ?_
    | with_reducible refine Keep.of_snd2 ‹_ = (_, _, _)› ?_
    | with_reducible apply Keep.of_id
    | split
    | dsimp only

theorem execOrxVisitStart_keep (a0 : _) (a1 : _) (s : State) {t : State} (h : execOrxVisitStart a0 a1 s = .next t) : Keep 1048880 s t := by
  unfold execOrxVisitStart at h
  injection h with h
  subst h
  repeat' first
    | exact rfl
    | with_reducible exact Keep.refl _ _
    | with_reducible assumption
    | with_reducible apply State.orxStall_keep
    | with_reducible apply State.cplWrite_keep
    | with_reducible apply State.quadUpd_keep
    | with_reducible apply Keep.ite <;> intro _
    | with_reducible apply Keep.foldl <;> try intro _ _ _
    | with_reducible apply Keep.foldl_snd <;> try intro _ _ _
    | with_reducible refine Keep.of_snd ‹_ = (_, _)› ?_
    | with_reducible refine Keep.of_snd2 ‹_ = (_, _, _)› ?_
    | with_reducible apply Keep.of_id
    | split
    | dsimp only

theorem execOrxVisitEnd_keep (a0 : _) (a1 : _) (a2 : _) (a3 : _) (a4 : _) (a5 : _) (a6 : _) (s : State) {t : State} (h : execOrxVisitEnd a0 a1 a2 a3 a4 a5 a6 s = .next t) : Keep 7405936 s t := by
  unfold execOrxVisitEnd at h
  injection h with h
  subst h
  repeat' first
    | exact rfl
    | with_reducible exact Keep.refl _ _
    | with_reducible assumption
    | with_reducible apply State.elemSwitch_keep
    | with_reducible apply State.inc_keep
    | with_reducible apply State.quadUpd_keep
    | with_reducible apply State.cplWrite_keep
    | with_reducible apply State.set_keep
    | with_reducible apply State.memPut_keep
    | with_reducible apply State.raise_keep
    | with_reducible apply State.dpdCheck_keep
    | with_reducible apply State.antCheck_keep
    | with_reducible apply State.pathUpd_keep
    | with_reducible apply Keep.ite <;> intro _
    | with_reducible apply Keep.foldl <;> try intro _ _ _
    | with_reducible apply Keep.foldl_snd <;> try intro _ _ _
    | with_reducible refine Keep.of_snd ‹_ = (_, _)› ?_
    | with_reducible refine Keep.of_snd2 ‹_ = (_, _, _)› ?_
    | with_reducible apply Keep.of_id
    | split
    | dsimp only

theorem execAntRetry_keep (a0 : _) (a1 : _) (s : State) {t : State} (h : execAntRetry a0 a1 s = .next t) : Keep 1048576 s t := by
  unfold execAntRetry at h
  injection h with h
  subst h
  repeat' first
    | exact rfl
    | with_reducible exact Keep.refl _ _
    | with_reducible assumption
    | with_reducible apply State.radUpd_keep
    | with_reducible apply State.pathUpd_keep
    | with_reducible apply Keep.ite <;> intro _
    | with_reducible apply Keep.foldl <;> try intro _ _ _
    | with_reducible apply Keep.foldl_snd <;> try intro _ _ _
    | with_reducible refine Keep.of_snd ‹_ = (_, _)› ?_
    | with_reducible refine Keep.of_snd2 ‹_ = (_, _, _)› ?_
    | with_reducible apply Keep.of_id
    | split
    | dsimp only

theorem execOrxCapPop_keep (a0 : _) (a1 : _) (s : State) {t : State} (h : execOrxCapPop a0 a1 s = .next t) : Keep 1049394 s t := by
  unfold execOrxCapPop at h
  injection h with h
  subst h
  repeat' first
    | exact rfl
    | with_reducible exact Keep.refl _ _
    | with_reducible assumption
    | with_reducible refine readReg_keep _ _ _ _ _ _ (fun _ _ _ _ _ => ?_) ?_ ?_
    | with_reducible apply rdArray_keep
    | with_reducible apply Keep.ite <;> intro _
    | with_reducible apply Keep.foldl <;> try intro _ _ _
    | with_reducible apply Keep.foldl_snd <;> try intro _ _ _
    | with_reducible refine Keep.of_snd ‹_ = (_, _)› ?_
    | with_reducible refine Keep.of_snd2 ‹_ = (_, _, _)› ?_
    | with_reducible apply Keep.of_id
    | split
    | dsimp only

theorem execOrxSlotFree_keep (a0 : _) (a1 : _) (a2 : _) (s : State) {t : State} (h : execOrxSlotFree a0 a1 a2 s = .next t) : Keep 1049394 s t := by
  unfold execOrxSlotFree at h
  injection h with h
  subst h
  repeat' first
    | exact rfl
    | with_reducible exact Keep.refl _ _
    | with_reducible assumption
    | with_reducible refine writeReg_keep _ _ _ _ _ _ _ (fun _ _ _ _ _ _ => ?_) ?_ ?_
    | with_reducible apply wrArray_keep
    | with_reducible apply Keep.ite <;> intro _
    | with_reducible apply Keep.foldl <;> try intro _ _ _
    | with_reducible apply Keep.foldl_snd <;> try intro _ _ _
    | with_reducible refine Keep.of_snd ‹_ = (_, _)› ?_
    | with_reducible refine Keep.of_snd2 ‹_ = (_, _, _)› ?_
    | with_reducible apply Keep.of_id
    | split
    | dsimp only

end Sys2Proof.Machine
end

