-- ==== Sys2Proof/Laws/KeepCalib.lean ====
section
/-! SUPPORT. What each operation of Machine/Calib.lean leaves alone. -/

set_option Elab.async false

namespace Sys2Proof.Machine

theorem State.calUpd_keep {m : Nat} {s0 : State} (s : State) (a1 : _) (a2 : _) (hm : subMask 1048576 m = true) (h : Keep m s0 s) : Keep m s0 (State.calUpd s a1 a2) := by
  refine Keep.lift (f := 1048576) ?_ hm h
  unfold State.calUpd
  repeat' first
    | exact rfl
    | with_reducible exact Keep.refl _ _
    | with_reducible assumption
    | with_reducible apply State.quadUpd_keep
    | with_reducible apply Keep.ite <;> intro _
    | with_reducible apply Keep.foldl <;> try intro _ _ _
    | with_reducible apply Keep.foldl_snd <;> try intro _ _ _
    | with_reducible refine Keep.of_snd ‹_ = (_, _)› ?_
    | with_reducible refine Keep.of_snd2 ‹_ = (_, _, _)› ?_
    | with_reducible apply Keep.of_id
    | split
    | dsimp only

theorem State.setCal_keep {m : Nat} {s0 : State} (s : State) (a1 : _) (a2 : _) (hm : subMask 1048576 m = true) (h : Keep m s0 s) : Keep m s0 (State.setCal s a1 a2) := by
  refine Keep.lift (f := 1048576) ?_ hm h
  unfold State.setCal
  repeat' first
    | exact rfl
    | with_reducible exact Keep.refl _ _
    | with_reducible assumption
    | with_reducible apply State.calUpd_keep
    | with_reducible apply Keep.ite <;> intro _
    | with_reducible apply Keep.foldl <;> try intro _ _ _
    | with_reducible apply Keep.foldl_snd <;> try intro _ _ _
    | with_reducible refine Keep.of_snd ‹_ = (_, _)› ?_
    | with_reducible refine Keep.of_snd2 ‹_ = (_, _, _)› ?_
    | with_reducible apply Keep.of_id
    | split
    | dsimp only

theorem State.putCal_keep {m : Nat} {s0 : State} (s : State) (a1 : _) (a2 : _) (hm : subMask 1048576 m = true) (h : Keep m s0 s) : Keep m s0 (State.putCal s a1 a2) := by
  refine Keep.lift (f := 1048576) ?_ hm h
  unfold State.putCal
  repeat' first
    | exact rfl
    | with_reducible exact Keep.refl _ _
    | with_reducible assumption
    | with_reducible apply State.setCal_keep
    | with_reducible apply Keep.ite <;> intro _
    | with_reducible apply Keep.foldl <;> try intro _ _ _
    | with_reducible apply Keep.foldl_snd <;> try intro _ _ _
    | with_reducible refine Keep.of_snd ‹_ = (_, _)› ?_
    | with_reducible refine Keep.of_snd2 ‹_ = (_, _, _)› ?_
    | with_reducible apply Keep.of_id
    | split
    | dsimp only

theorem State.calRxStart_keep {m : Nat} {s0 : State} (s : State) (a1 : _) (hm : subMask 1048576 m = true) (h : Keep m s0 s) : Keep m s0 (State.calRxStart s a1) := by
  refine Keep.lift (f := 1048576) ?_ hm h
  unfold State.calRxStart
  repeat' first
    | exact rfl
    | with_reducible exact Keep.refl _ _
    | with_reducible assumption
    | with_reducible apply State.setCal_keep
    | with_reducible apply Keep.ite <;> intro _
    | with_reducible apply Keep.foldl <;> try intro _ _ _
    | with_reducible apply Keep.foldl_snd <;> try intro _ _ _
    | with_reducible refine Keep.of_snd ‹_ = (_, _)› ?_
    | with_reducible refine Keep.of_snd2 ‹_ = (_, _, _)› ?_
    | with_reducible apply Keep.of_id
    | split
    | dsimp only

theorem State.calTxStart_keep {m : Nat} {s0 : State} (s : State) (a1 : _) (hm : subMask 1048576 m = true) (h : Keep m s0 s) : Keep m s0 (State.calTxStart s a1) := by
  refine Keep.lift (f := 1048576) ?_ hm h
  unfold State.calTxStart
  repeat' first
    | exact rfl
    | with_reducible exact Keep.refl _ _
    | with_reducible assumption
    | with_reducible apply State.setCal_keep
    | with_reducible apply Keep.ite <;> intro _
    | with_reducible apply Keep.foldl <;> try intro _ _ _
    | with_reducible apply Keep.foldl_snd <;> try intro _ _ _
    | with_reducible refine Keep.of_snd ‹_ = (_, _)› ?_
    | with_reducible refine Keep.of_snd2 ‹_ = (_, _, _)› ?_
    | with_reducible apply Keep.of_id
    | split
    | dsimp only

theorem State.ashCal_keep {m : Nat} {s0 : State} (s : State) (a1 : _) (a2 : _) (a3 : _) (hm : subMask 784 m = true) (h : Keep m s0 s) : Keep m s0 (State.ashCal s a1 a2 a3) := by
  refine Keep.lift (f := 784) ?_ hm h
  unfold State.ashCal
  repeat' first
    | exact rfl
    | with_reducible exact Keep.refl _ _
    | with_reducible assumption
    | with_reducible apply State.ashAdd_keep
    | with_reducible apply Keep.ite <;> intro _
    | with_reducible apply Keep.foldl <;> try intro _ _ _
    | with_reducible apply Keep.foldl_snd <;> try intro _ _ _
    | with_reducible refine Keep.of_snd ‹_ = (_, _)› ?_
    | with_reducible refine Keep.of_snd2 ‹_ = (_, _, _)› ?_
    | with_reducible apply Keep.of_id
    | split
    | dsimp only

theorem State.calReject_keep {m : Nat} {s0 : State} (s : State) (a1 : _) (a2 : _) (a3 : _) (a4 : _) (hm : subMask 1049392 m = true) (h : Keep m s0 s) : Keep m s0 (State.calReject s a1 a2 a3 a4) := by
  refine Keep.lift (f := 1049392) ?_ hm h
  unfold State.calReject
  repeat' first
    | exact rfl
    | with_reducible exact Keep.refl _ _
    | with_reducible assumption
    | with_reducible apply State.calUpd_keep
    | with_reducible apply State.raise_keep
    | with_reducible apply State.inc_keep
    | with_reducible apply State.sets_keep
    | with_reducible apply State.set_keep
    | with_reducible apply State.ashCal_keep
    | with_reducible apply Keep.ite <;> intro _
    | with_reducible apply Keep.foldl <;> try intro _ _ _
    | with_reducible apply Keep.foldl_snd <;> try intro _ _ _
    | with_reducible refine Keep.of_snd ‹_ = (_, _)› ?_
    | with_reducible refine Keep.of_snd2 ‹_ = (_, _, _)› ?_
    | with_reducible apply Keep.of_id
    | split
    | dsimp only

theorem State.calEstimate_keep {m : Nat} {s0 : State} (s : State) (a1 : _) (a2 : _) (a3 : _) (a4 : _) (hm : subMask 1049392 m = true) (h : Keep m s0 s) : Keep m s0 (State.calEstimate s a1 a2 a3 a4) := by
  refine Keep.lift (f := 1049392) ?_ hm h
  unfold State.calEstimate
  repeat' first
    | exact rfl
    | with_reducible exact Keep.refl _ _
    | with_reducible assumption
    | with_reducible apply State.calReject_keep
    | with_reducible apply State.calUpd_keep
    | with_reducible apply State.setCal_keep
    | with_reducible apply Keep.ite <;> intro _
    | with_reducible apply Keep.foldl <;> try intro _ _ _
    | with_reducible apply Keep.foldl_snd <;> try intro _ _ _
    | with_reducible refine Keep.of_snd ‹_ = (_, _)› ?_
    | with_reducible refine Keep.of_snd2 ‹_ = (_, _, _)› ?_
    | with_reducible apply Keep.of_id
    | split
    | dsimp only

theorem State.trimApply_keep {m : Nat} {s0 : State} (s : State) (a1 : _) (a2 : _) (hm : subMask 1048576 m = true) (h : Keep m s0 s) : Keep m s0 (State.trimApply s a1 a2) := by
  refine Keep.lift (f := 1048576) ?_ hm h
  unfold State.trimApply
  repeat' first
    | exact rfl
    | with_reducible exact Keep.refl _ _
    | with_reducible assumption
    | with_reducible apply State.setCal_keep
    | with_reducible apply Keep.ite <;> intro _
    | with_reducible apply Keep.foldl <;> try intro _ _ _
    | with_reducible apply Keep.foldl_snd <;> try intro _ _ _
    | with_reducible refine Keep.of_snd ‹_ = (_, _)› ?_
    | with_reducible refine Keep.of_snd2 ‹_ = (_, _, _)› ?_
    | with_reducible apply Keep.of_id
    | split
    | dsimp only

theorem State.calBook_keep {m : Nat} {s0 : State} (s : State) (a1 : _) (a2 : _) (a3 : _) (hm : subMask 1048608 m = true) (h : Keep m s0 s) : Keep m s0 (State.calBook s a1 a2 a3) := by
  refine Keep.lift (f := 1048608) ?_ hm h
  unfold State.calBook
  repeat' first
    | exact rfl
    | with_reducible exact Keep.refl _ _
    | with_reducible assumption
    | with_reducible apply State.set_keep
    | with_reducible apply State.sets_keep
    | with_reducible apply State.setReg_keep
    | with_reducible apply State.calUpd_keep
    | with_reducible apply Keep.ite <;> intro _
    | with_reducible apply Keep.foldl <;> try intro _ _ _
    | with_reducible apply Keep.foldl_snd <;> try intro _ _ _
    | with_reducible refine Keep.of_snd ‹_ = (_, _)› ?_
    | with_reducible refine Keep.of_snd2 ‹_ = (_, _, _)› ?_
    | with_reducible apply Keep.of_id
    | split
    | dsimp only

theorem State.calRound_keep {m : Nat} {s0 : State} (s : State) (a1 : _) (a2 : _) (a3 : _) (hm : subMask 1048608 m = true) (h : Keep m s0 s) : Keep m s0 (State.calRound s a1 a2 a3) := by
  refine Keep.lift (f := 1048608) ?_ hm h
  unfold State.calRound
  repeat' first
    | exact rfl
    | with_reducible exact Keep.refl _ _
    | with_reducible assumption
    | with_reducible apply State.set_keep
    | with_reducible apply State.bump_keep
    | with_reducible apply State.calUpd_keep
    | with_reducible apply State.calBook_keep
    | with_reducible apply Keep.ite <;> intro _
    | with_reducible apply Keep.foldl <;> try intro _ _ _
    | with_reducible apply Keep.foldl_snd <;> try intro _ _ _
    | with_reducible refine Keep.of_snd ‹_ = (_, _)› ?_
    | with_reducible refine Keep.of_snd2 ‹_ = (_, _, _)› ?_
    | with_reducible apply Keep.of_id
    | split
    | dsimp only

theorem State.calSettle_keep {m : Nat} {s0 : State} (s : State) (a1 : _) (a2 : _) (a3 : _) (hm : subMask 1048608 m = true) (h : Keep m s0 s) : Keep m s0 (State.calSettle s a1 a2 a3) := by
  refine Keep.lift (f := 1048608) ?_ hm h
  unfold State.calSettle
  repeat' first
    | exact rfl
    | with_reducible exact Keep.refl _ _
    | with_reducible assumption
    | with_reducible apply State.calBook_keep
    | with_reducible apply State.calRound_keep
    | with_reducible apply State.calUpd_keep
    | with_reducible apply Keep.ite <;> intro _
    | with_reducible apply Keep.foldl <;> try intro _ _ _
    | with_reducible apply Keep.foldl_snd <;> try intro _ _ _
    | with_reducible refine Keep.of_snd ‹_ = (_, _)› ?_
    | with_reducible refine Keep.of_snd2 ‹_ = (_, _, _)› ?_
    | with_reducible apply Keep.of_id
    | split
    | dsimp only

theorem State.calComplete_keep {m : Nat} {s0 : State} (s : State) (a1 : _) (a2 : _) (a3 : _) (a4 : _) (a5 : _) (hm : subMask 1048880 m = true) (h : Keep m s0 s) : Keep m s0 (State.calComplete s a1 a2 a3 a4 a5) := by
  refine Keep.lift (f := 1048880) ?_ hm h
  unfold State.calComplete
  repeat' first
    | exact rfl
    | with_reducible exact Keep.refl _ _
    | with_reducible assumption
    | with_reducible apply State.commit_keep
    | with_reducible apply State.calUpd_keep
    | with_reducible apply State.set_keep
    | with_reducible apply State.raise_keep
    | with_reducible apply State.inc_keep
    | with_reducible apply Keep.ite <;> intro _
    | with_reducible apply Keep.foldl <;> try intro _ _ _
    | with_reducible apply Keep.foldl_snd <;> try intro _ _ _
    | with_reducible refine Keep.of_snd ‹_ = (_, _)› ?_
    | with_reducible refine Keep.of_snd2 ‹_ = (_, _, _)› ?_
    | with_reducible apply Keep.of_id
    | split
    | dsimp only

theorem State.treesApply_keep {m : Nat} {s0 : State} (s : State) (a1 : _) (a2 : _) (a3 : _) (hm : subMask 1049392 m = true) (h : Keep m s0 s) : Keep m s0 (State.treesApply s a1 a2 a3) := by
  refine Keep.lift (f := 1049392) ?_ hm h
  unfold State.treesApply
  repeat' first
    | exact rfl
    | with_reducible exact Keep.refl _ _
    | with_reducible assumption
    | with_reducible apply State.calUpd_keep
    | with_reducible apply State.set_keep
    | with_reducible apply State.setCal_keep
    | with_reducible apply State.raise_keep
    | with_reducible apply State.ashCal_keep
    | with_reducible apply Keep.ite <;> intro _
    | with_reducible apply Keep.foldl <;> try intro _ _ _
    | with_reducible apply Keep.foldl_snd <;> try intro _ _ _
    | with_reducible refine Keep.of_snd ‹_ = (_, _)› ?_
    | with_reducible refine Keep.of_snd2 ‹_ = (_, _, _)› ?_
    | with_reducible apply Keep.of_id
    | split
    | dsimp only

theorem State.calStart_keep {m : Nat} {s0 : State} (s : State) (a1 : _) (a2 : _) (hm : subMask 1049393 m = true) (h : Keep m s0 s) : Keep m s0 (State.calStart s a1 a2) := by
  refine Keep.lift (f := 1049393) ?_ hm h
  unfold State.calStart
  extract_lets ts temp new r s1 s2
  split
  · refine Keep.ite (fun _ => ?_) (fun _ => ?_)
    · extract_lets r1
      repeat' first
        | exact rfl
        | with_reducible exact Keep.refl _ _
        | with_reducible assumption
        | with_reducible apply State.calUpd_keep
        | with_reducible apply State.calRound_keep
        | with_reducible apply State.fresh_keep
        | with_reducible apply State.treesApply_keep
        | with_reducible apply State.trimApply_keep
        | with_reducible apply State.pendResult_keep
        | with_reducible apply State.calComplete_keep
        | with_reducible apply State.sets_keep
        | with_reducible apply Keep.ite <;> intro _
        | with_reducible apply Keep.foldl <;> try intro _ _ _
        | with_reducible apply Keep.foldl_snd <;> try intro _ _ _
        | with_reducible refine Keep.of_snd ‹_ = (_, _)› ?_
        | with_reducible refine Keep.of_snd2 ‹_ = (_, _, _)› ?_
        | with_reducible apply Keep.of_id
        | split
        | dsimp only
    · exact State.calUpd_keep _ _ _ rfl (Keep.refl _ _)
  · have h1 : Keep 1049393 s s1 := by
      repeat' first
        | exact rfl
        | with_reducible exact Keep.refl _ _
        | with_reducible assumption
        | with_reducible apply State.calUpd_keep
        | with_reducible apply State.calRound_keep
        | with_reducible apply State.fresh_keep
        | with_reducible apply State.treesApply_keep
        | with_reducible apply State.trimApply_keep
        | with_reducible apply State.pendResult_keep
        | with_reducible apply State.calComplete_keep
        | with_reducible apply State.sets_keep
        | with_reducible apply Keep.ite <;> intro _
        | with_reducible apply Keep.foldl <;> try intro _ _ _
        | with_reducible apply Keep.foldl_snd <;> try intro _ _ _
        | with_reducible refine Keep.of_snd ‹_ = (_, _)› ?_
        | with_reducible refine Keep.of_snd2 ‹_ = (_, _, _)› ?_
        | with_reducible apply Keep.of_id
        | split
        | dsimp only
    have h2 : Keep 1049393 s s2 := State.fresh_keep _ rfl (State.fresh_keep _ rfl h1)
    clear_value s2
    refine Keep.ite (fun _ => State.calComplete_keep _ _ _ _ _ _ rfl h2) (fun _ => State.calRound_keep _ _ _ _ rfl (State.sets_keep _ _ _ rfl h2))

theorem State.calTemp_keep {m : Nat} {s0 : State} (s : State) (a1 : _) (hm : subMask 1049393 m = true) (h : Keep m s0 s) : Keep m s0 (State.calTemp s a1) := by
  refine Keep.lift (f := 1049393) ?_ hm h
  unfold State.calTemp
  repeat' first
    | exact rfl
    | with_reducible exact Keep.refl _ _
    | with_reducible assumption
    | with_reducible apply State.set_keep
    | with_reducible apply State.calUpd_keep
    | with_reducible apply State.calStart_keep
    | with_reducible apply Keep.ite <;> intro _
    | with_reducible apply Keep.foldl <;> try intro _ _ _
    | with_reducible apply Keep.foldl_snd <;> try intro _ _ _
    | with_reducible refine Keep.of_snd ‹_ = (_, _)› ?_
    | with_reducible refine Keep.of_snd2 ‹_ = (_, _, _)› ?_
    | with_reducible apply Keep.of_id
    | split
    | dsimp only

theorem State.calCancel_keep {m : Nat} {s0 : State} (s : State) (a1 : _) (a2 : _) (hm : subMask 1048608 m = true) (h : Keep m s0 s) : Keep m s0 (State.calCancel s a1 a2) := by
  refine Keep.lift (f := 1048608) ?_ hm h
  unfold State.calCancel
  repeat' first
    | exact rfl
    | with_reducible exact Keep.refl _ _
    | with_reducible assumption
    | with_reducible apply State.calRound_keep
    | with_reducible apply State.inc_keep
    | with_reducible apply Keep.ite <;> intro _
    | with_reducible apply Keep.foldl <;> try intro _ _ _
    | with_reducible apply Keep.foldl_snd <;> try intro _ _ _
    | with_reducible refine Keep.of_snd ‹_ = (_, _)› ?_
    | with_reducible refine Keep.of_snd2 ‹_ = (_, _, _)› ?_
    | with_reducible apply Keep.of_id
    | split
    | dsimp only

theorem State.calYield_keep {m : Nat} {s0 : State} (s : State) (a1 : _) (a2 : _) (a3 : _) (hm : subMask 1048608 m = true) (h : Keep m s0 s) : Keep m s0 (State.calYield s a1 a2 a3) := by
  refine Keep.lift (f := 1048608) ?_ hm h
  unfold State.calYield
  repeat' first
    | exact rfl
    | with_reducible exact Keep.refl _ _
    | with_reducible assumption
    | with_reducible apply State.calCancel_keep
    | with_reducible apply Keep.ite <;> intro _
    | with_reducible apply Keep.foldl <;> try intro _ _ _
    | with_reducible apply Keep.foldl_snd <;> try intro _ _ _
    | with_reducible refine Keep.of_snd ‹_ = (_, _)› ?_
    | with_reducible refine Keep.of_snd2 ‹_ = (_, _, _)› ?_
    | with_reducible apply Keep.of_id
    | split
    | dsimp only

theorem State.calDrop_keep {m : Nat} {s0 : State} (s : State) (a1 : _) (hm : subMask 1048576 m = true) (h : Keep m s0 s) : Keep m s0 (State.calDrop s a1) := by
  refine Keep.lift (f := 1048576) ?_ hm h
  unfold State.calDrop
  repeat' first
    | exact rfl
    | with_reducible exact Keep.refl _ _
    | with_reducible assumption
    | with_reducible apply State.quadUpd_keep
    | with_reducible apply State.calUpd_keep
    | with_reducible apply Keep.ite <;> intro _
    | with_reducible apply Keep.foldl <;> try intro _ _ _
    | with_reducible apply Keep.foldl_snd <;> try intro _ _ _
    | with_reducible refine Keep.of_snd ‹_ = (_, _)› ?_
    | with_reducible refine Keep.of_snd2 ‹_ = (_, _, _)› ?_
    | with_reducible apply Keep.of_id
    | split
    | dsimp only

theorem State.calCommit_keep {m : Nat} {s0 : State} (s : State) (a1 : _) (hm : subMask 1049393 m = true) (h : Keep m s0 s) : Keep m s0 (State.calCommit s a1) := by
  refine Keep.lift (f := 1049393) ?_ hm h
  unfold State.calCommit
  repeat' first
    | exact rfl
    | with_reducible exact Keep.refl _ _
    | with_reducible assumption
    | with_reducible apply State.calUpd_keep
    | with_reducible apply State.putCal_keep
    | with_reducible apply State.calStart_keep
    | with_reducible apply Keep.ite <;> intro _
    | with_reducible apply Keep.foldl <;> try intro _ _ _
    | with_reducible apply Keep.foldl_snd <;> try intro _ _ _
    | with_reducible refine Keep.of_snd ‹_ = (_, _)› ?_
    | with_reducible refine Keep.of_snd2 ‹_ = (_, _, _)› ?_
    | with_reducible apply Keep.of_id
    | split
    | dsimp only

theorem State.redChoose_keep {m : Nat} {s0 : State} (s : State) (a1 : _) (a2 : _) (a3 : _) (hm : subMask 1048576 m = true) (h : Keep m s0 s) : Keep m s0 (State.redChoose s a1 a2 a3) := by
  refine Keep.lift (f := 1048576) ?_ hm h
  unfold State.redChoose
  repeat' first
    | exact rfl
    | with_reducible exact Keep.refl _ _
    | with_reducible assumption
    | with_reducible apply State.calUpd_keep
    | with_reducible apply State.elemSwitch_keep
    | with_reducible apply Keep.ite <;> intro _
    | with_reducible apply Keep.foldl <;> try intro _ _ _
    | with_reducible apply Keep.foldl_snd <;> try intro _ _ _
    | with_reducible refine Keep.of_snd ‹_ = (_, _)› ?_
    | with_reducible refine Keep.of_snd2 ‹_ = (_, _, _)› ?_
    | with_reducible apply Keep.of_id
    | split
    | dsimp only

theorem State.xpStat_keep {m : Nat} {s0 : State} (s : State) (a1 : _) (a2 : _) (a3 : _) (hm : subMask 32 m = true) (h : Keep m s0 s) : Keep m s0 (State.xpStat s a1 a2 a3) := by
  refine Keep.lift (f := 32) ?_ hm h
  unfold State.xpStat
  repeat' first
    | exact rfl
    | with_reducible exact Keep.refl _ _
    | with_reducible assumption
    | with_reducible apply State.commit_keep
    | with_reducible apply Keep.ite <;> intro _
    | with_reducible apply Keep.foldl <;> try intro _ _ _
    | with_reducible apply Keep.foldl_snd <;> try intro _ _ _
    | with_reducible refine Keep.of_snd ‹_ = (_, _)› ?_
    | with_reducible refine Keep.of_snd2 ‹_ = (_, _, _)› ?_
    | with_reducible apply Keep.of_id
    | split
    | dsimp only

theorem State.calExport_keep {m : Nat} {s0 : State} (s : State) (a1 : _) (hm : subMask 98400 m = true) (h : Keep m s0 s) : Keep m s0 (State.calExport s a1) := by
  refine Keep.lift (f := 98400) ?_ hm h
  unfold State.calExport
  repeat' first
    | exact rfl
    | with_reducible exact Keep.refl _ _
    | with_reducible assumption
    | with_reducible apply State.xpStat_keep
    | with_reducible apply State.memWrite_keep
    | with_reducible apply Keep.ite <;> intro _
    | with_reducible apply Keep.foldl <;> try intro _ _ _
    | with_reducible apply Keep.foldl_snd <;> try intro _ _ _
    | (rewrite [State.mk_eq_updOf]; (with_reducible refine Keep.node 32768 ?_ ?_ ?_); · refine Keep.upd 32768 ?_ ?_ ?_ ?_ ?_ (fun p hp => ?_); exact rfl; exact rfl; exact rfl; exact rfl; exact rfl; cases p <;> first | exact absurd hp (by decide) | exact rfl)
    | with_reducible refine Keep.of_snd ‹_ = (_, _)› ?_
    | with_reducible refine Keep.of_snd2 ‹_ = (_, _, _)› ?_
    | with_reducible apply Keep.of_id
    | split
    | dsimp only

theorem State.calRestore_keep {m : Nat} {s0 : State} (s : State) (a1 : _) (hm : subMask 1049393 m = true) (h : Keep m s0 s) : Keep m s0 (State.calRestore s a1) := by
  refine Keep.lift (f := 1049393) ?_ hm h
  unfold State.calRestore
  repeat' first
    | exact rfl
    | with_reducible exact Keep.refl _ _
    | with_reducible assumption
    | with_reducible apply State.xpStat_keep
    | with_reducible apply State.memRead_keep
    | with_reducible apply State.putCal_keep
    | with_reducible apply State.sets_keep
    | with_reducible apply State.calStart_keep
    | with_reducible apply State.redChoose_keep
    | with_reducible apply Keep.ite <;> intro _
    | with_reducible apply Keep.foldl <;> try intro _ _ _
    | with_reducible apply Keep.foldl_snd <;> try intro _ _ _
    | with_reducible refine Keep.of_snd ‹_ = (_, _)› ?_
    | with_reducible refine Keep.of_snd2 ‹_ = (_, _, _)› ?_
    | with_reducible apply Keep.of_id
    | split
    | dsimp only

theorem wrCal_keep {m : Nat} {s0 : State} (a0 : _) (a1 : _) (a2 : _) (a3 : _) (s : State) (hm : subMask 1147761 m = true) (h : Keep m s0 s) : Keep m s0 (wrCal a0 a1 a2 a3 s) := by
  refine Keep.lift (f := 1147761) ?_ hm h
  unfold wrCal
  repeat' first
    | exact rfl
    | with_reducible exact Keep.refl _ _
    | with_reducible assumption
    | with_reducible apply storeWord_keep
    | with_reducible apply State.calStart_keep
    | with_reducible apply State.commit_keep
    | with_reducible apply State.calUpd_keep
    | with_reducible apply State.calCommit_keep
    | with_reducible apply State.setCal_keep
    | with_reducible apply State.redChoose_keep
    | with_reducible apply State.pendResult_keep
    | with_reducible apply State.calExport_keep
    | with_reducible apply State.calRestore_keep
    | with_reducible apply Keep.ite <;> intro _
    | with_reducible apply Keep.foldl <;> try intro _ _ _
    | with_reducible apply Keep.foldl_snd <;> try intro _ _ _
    | with_reducible refine Keep.of_snd ‹_ = (_, _)› ?_
    | with_reducible refine Keep.of_snd2 ‹_ = (_, _, _)› ?_
    | with_reducible apply Keep.of_id
    | split
    | dsimp only

theorem rdCal_keep {m : Nat} {s0 : State} (a0 : _) (a1 : _) (a2 : _) (s : State) (hm : subMask 304 m = true) (h : Keep m s0 s) : Keep m s0 (rdCal a0 a1 a2 s).2 := by
  refine Keep.lift (f := 304) ?_ hm h
  unfold rdCal
  repeat' first
    | exact rfl
    | with_reducible exact Keep.refl _ _
    | with_reducible assumption
    | with_reducible apply loadWord_keep
    | with_reducible apply Keep.ite <;> intro _
    | with_reducible apply Keep.foldl <;> try intro _ _ _
    | with_reducible apply Keep.foldl_snd <;> try intro _ _ _
    | with_reducible refine Keep.of_snd ‹_ = (_, _)› ?_
    | with_reducible refine Keep.of_snd2 ‹_ = (_, _, _)› ?_
    | with_reducible apply Keep.of_id
    | split
    | dsimp only

theorem execCalRun_keep (a0 : _) (a1 : _) (a2 : _) (s : State) {t : State} (h : execCalRun a0 a1 a2 s = .next t) : Keep 1147763 s t := by
  unfold execCalRun at h
  injection h with h
  subst h
  repeat' first
    | exact rfl
    | with_reducible exact Keep.refl _ _
    | with_reducible assumption
    | with_reducible refine writeReg_keep _ _ _ _ _ _ _ (fun _ _ _ _ _ _ => ?_) ?_ ?_
    | with_reducible apply wrCal_keep
    | with_reducible apply Keep.ite <;> intro _
    | with_reducible apply Keep.foldl <;> try intro _ _ _
    | with_reducible apply Keep.foldl_snd <;> try intro _ _ _
    | with_reducible refine Keep.of_snd ‹_ = (_, _)› ?_
    | with_reducible refine Keep.of_snd2 ‹_ = (_, _, _)› ?_
    | with_reducible apply Keep.of_id
    | split
    | dsimp only

theorem execCalAbort_keep (a0 : _) (a1 : _) (a2 : _) (s : State) {t : State} (h : execCalAbort a0 a1 a2 s = .next t) : Keep 1147763 s t := by
  unfold execCalAbort at h
  injection h with h
  subst h
  repeat' first
    | exact rfl
    | with_reducible exact Keep.refl _ _
    | with_reducible assumption
    | with_reducible refine writeReg_keep _ _ _ _ _ _ _ (fun _ _ _ _ _ _ => ?_) ?_ ?_
    | with_reducible apply wrCal_keep
    | with_reducible apply Keep.ite <;> intro _
    | with_reducible apply Keep.foldl <;> try intro _ _ _
    | with_reducible apply Keep.foldl_snd <;> try intro _ _ _
    | with_reducible refine Keep.of_snd ‹_ = (_, _)› ?_
    | with_reducible refine Keep.of_snd2 ‹_ = (_, _, _)› ?_
    | with_reducible apply Keep.of_id
    | split
    | dsimp only

theorem execCalEstimate_keep (a0 : _) (a1 : _) (a2 : _) (a3 : _) (a4 : _) (s : State) {t : State} (h : execCalEstimate a0 a1 a2 a3 a4 s = .next t) : Keep 1049392 s t := by
  unfold execCalEstimate at h
  injection h with h
  subst h
  repeat' first
    | exact rfl
    | with_reducible exact Keep.refl _ _
    | with_reducible assumption
    | with_reducible apply State.calEstimate_keep
    | with_reducible apply Keep.ite <;> intro _
    | with_reducible apply Keep.foldl <;> try intro _ _ _
    | with_reducible apply Keep.foldl_snd <;> try intro _ _ _
    | with_reducible refine Keep.of_snd ‹_ = (_, _)› ?_
    | with_reducible refine Keep.of_snd2 ‹_ = (_, _, _)› ?_
    | with_reducible apply Keep.of_id
    | split
    | dsimp only

theorem execCalWindowStart_keep (a0 : _) (s : State) {t : State} (h : execCalWindowStart a0 s = .next t) : Keep 7340336 s t := by
  unfold execCalWindowStart at h
  injection h with h
  subst h
  repeat' first
    | exact rfl
    | with_reducible exact Keep.refl _ _
    | with_reducible assumption
    | with_reducible apply State.set_keep
    | with_reducible apply State.quadUpd_keep
    | with_reducible apply State.wacLine_keep
    | with_reducible apply State.phyLose_keep
    | with_reducible apply State.txLeave_keep
    | with_reducible apply State.visitsAbandon_keep
    | with_reducible apply Keep.ite <;> intro _
    | with_reducible apply Keep.foldl <;> try intro _ _ _
    | with_reducible apply Keep.foldl_snd <;> try intro _ _ _
    | with_reducible refine Keep.of_snd ‹_ = (_, _)› ?_
    | with_reducible refine Keep.of_snd2 ‹_ = (_, _, _)› ?_
    | with_reducible apply Keep.of_id
    | split
    | dsimp only

theorem execCalDone_keep (a0 : _) (a1 : _) (s : State) {t : State} (h : execCalDone a0 a1 s = .next t) : Keep 5243697 s t := by
  unfold execCalDone at h
  injection h with h
  subst h
  repeat' first
    | exact rfl
    | with_reducible exact Keep.refl _ _
    | with_reducible assumption
    | with_reducible apply State.gateOpens_keep
    | with_reducible apply State.quadUpd_keep
    | with_reducible apply State.treesApply_keep
    | with_reducible apply State.trimApply_keep
    | with_reducible apply State.calComplete_keep
    | with_reducible apply State.wacLine_keep
    | with_reducible apply State.calStart_keep
    | with_reducible apply Keep.ite <;> intro _
    | with_reducible apply Keep.foldl <;> try intro _ _ _
    | with_reducible apply Keep.foldl_snd <;> try intro _ _ _
    | with_reducible refine Keep.of_snd ‹_ = (_, _)› ?_
    | with_reducible refine Keep.of_snd2 ‹_ = (_, _, _)› ?_
    | with_reducible apply Keep.of_id
    | split
    | dsimp only

theorem execCalRebook_keep (a0 : _) (s : State) {t : State} (h : execCalRebook a0 s = .next t) : Keep 1048608 s t := by
  unfold execCalRebook at h
  injection h with h
  subst h
  repeat' first
    | exact rfl
    | with_reducible exact Keep.refl _ _
    | with_reducible assumption
    | with_reducible apply State.calCancel_keep
    | with_reducible apply Keep.ite <;> intro _
    | with_reducible apply Keep.foldl <;> try intro _ _ _
    | with_reducible apply Keep.foldl_snd <;> try intro _ _ _
    | with_reducible refine Keep.of_snd ‹_ = (_, _)› ?_
    | with_reducible refine Keep.of_snd2 ‹_ = (_, _, _)› ?_
    | with_reducible apply Keep.of_id
    | split
    | dsimp only

theorem execCalForced_keep (a0 : _) (s : State) {t : State} (h : execCalForced a0 s = .next t) : Keep 1049392 s t := by
  unfold execCalForced at h
  injection h with h
  subst h
  repeat' first
    | exact rfl
    | with_reducible exact Keep.refl _ _
    | with_reducible assumption
    | with_reducible apply State.raise_keep
    | with_reducible apply State.inc_keep
    | with_reducible apply State.calBook_keep
    | with_reducible apply State.ashCal_keep
    | with_reducible apply Keep.ite <;> intro _
    | with_reducible apply Keep.foldl <;> try intro _ _ _
    | with_reducible apply Keep.foldl_snd <;> try intro _ _ _
    | with_reducible refine Keep.of_snd ‹_ = (_, _)› ?_
    | with_reducible refine Keep.of_snd2 ‹_ = (_, _, _)› ?_
    | with_reducible apply Keep.of_id
    | split
    | dsimp only

theorem execOrxElementReselect_keep (a0 : _) (a1 : _) (a2 : _) (a3 : _) (s : State) {t : State} (h : execOrxElementReselect a0 a1 a2 a3 s = .next t) : Keep 1049392 s t := by
  unfold execOrxElementReselect at h
  injection h with h
  subst h
  repeat' first
    | exact rfl
    | with_reducible exact Keep.refl _ _
    | with_reducible assumption
    | with_reducible apply State.calUpd_keep
    | with_reducible apply State.set_keep
    | with_reducible apply State.raise_keep
    | with_reducible apply State.ashCal_keep
    | with_reducible apply Keep.ite <;> intro _
    | with_reducible apply Keep.foldl <;> try intro _ _ _
    | with_reducible apply Keep.foldl_snd <;> try intro _ _ _
    | with_reducible refine Keep.of_snd ‹_ = (_, _)› ?_
    | with_reducible refine Keep.of_snd2 ‹_ = (_, _, _)› ?_
    | with_reducible apply Keep.of_id
    | split
    | dsimp only

theorem execCalCommit_keep (a0 : _) (a1 : _) (s : State) {t : State} (h : execCalCommit a0 a1 s = .next t) : Keep 1147763 s t := by
  unfold execCalCommit at h
  injection h with h
  subst h
  repeat' first
    | exact rfl
    | with_reducible exact Keep.refl _ _
    | with_reducible assumption
    | with_reducible refine writeReg_keep _ _ _ _ _ _ _ (fun _ _ _ _ _ _ => ?_) ?_ ?_
    | with_reducible apply wrCal_keep
    | with_reducible apply Keep.ite <;> intro _
    | with_reducible apply Keep.foldl <;> try intro _ _ _
    | with_reducible apply Keep.foldl_snd <;> try intro _ _ _
    | with_reducible refine Keep.of_snd ‹_ = (_, _)› ?_
    | with_reducible refine Keep.of_snd2 ‹_ = (_, _, _)› ?_
    | with_reducible apply Keep.of_id
    | split
    | dsimp only

theorem execCalLoad_keep (a0 : _) (a1 : _) (s : State) {t : State} (h : execCalLoad a0 a1 s = .next t) : Keep 1147763 s t := by
  unfold execCalLoad at h
  injection h with h
  subst h
  repeat' first
    | exact rfl
    | with_reducible exact Keep.refl _ _
    | with_reducible assumption
    | with_reducible refine writeReg_keep _ _ _ _ _ _ _ (fun _ _ _ _ _ _ => ?_) ?_ ?_
    | with_reducible apply wrCal_keep
    | with_reducible apply Keep.ite <;> intro _
    | with_reducible apply Keep.foldl <;> try intro _ _ _
    | with_reducible apply Keep.foldl_snd <;> try intro _ _ _
    | with_reducible refine Keep.of_snd ‹_ = (_, _)› ?_
    | with_reducible refine Keep.of_snd2 ‹_ = (_, _, _)› ?_
    | with_reducible apply Keep.of_id
    | split
    | dsimp only

theorem execCalRed_keep (a0 : _) (a1 : _) (a2 : _) (s : State) {t : State} (h : execCalRed a0 a1 a2 s = .next t) : Keep 1147763 s t := by
  unfold execCalRed at h
  injection h with h
  subst h
  repeat' first
    | exact rfl
    | with_reducible exact Keep.refl _ _
    | with_reducible assumption
    | with_reducible refine writeReg_keep _ _ _ _ _ _ _ (fun _ _ _ _ _ _ => ?_) ?_ ?_
    | with_reducible apply wrCal_keep
    | with_reducible apply Keep.ite <;> intro _
    | with_reducible apply Keep.foldl <;> try intro _ _ _
    | with_reducible apply Keep.foldl_snd <;> try intro _ _ _
    | with_reducible refine Keep.of_snd ‹_ = (_, _)› ?_
    | with_reducible refine Keep.of_snd2 ‹_ = (_, _, _)› ?_
    | with_reducible apply Keep.of_id
    | split
    | dsimp only

theorem execCalExport_keep (a0 : _) (a1 : _) (a2 : _) (s : State) {t : State} (h : execCalExport a0 a1 a2 s = .next t) : Keep 1147763 s t := by
  unfold execCalExport at h
  injection h with h
  subst h
  repeat' first
    | exact rfl
    | with_reducible exact Keep.refl _ _
    | with_reducible assumption
    | with_reducible refine writeReg_keep _ _ _ _ _ _ _ (fun _ _ _ _ _ _ => ?_) ?_ ?_
    | with_reducible apply wrCal_keep
    | with_reducible apply Keep.ite <;> intro _
    | with_reducible apply Keep.foldl <;> try intro _ _ _
    | with_reducible apply Keep.foldl_snd <;> try intro _ _ _
    | with_reducible refine Keep.of_snd ‹_ = (_, _)› ?_
    | with_reducible refine Keep.of_snd2 ‹_ = (_, _, _)› ?_
    | with_reducible apply Keep.of_id
    | split
    | dsimp only

theorem execCalRestore_keep (a0 : _) (a1 : _) (a2 : _) (s : State) {t : State} (h : execCalRestore a0 a1 a2 s = .next t) : Keep 1147763 s t := by
  unfold execCalRestore at h
  injection h with h
  subst h
  repeat' first
    | exact rfl
    | with_reducible exact Keep.refl _ _
    | with_reducible assumption
    | with_reducible refine writeReg_keep _ _ _ _ _ _ _ (fun _ _ _ _ _ _ => ?_) ?_ ?_
    | with_reducible apply wrCal_keep
    | with_reducible apply Keep.ite <;> intro _
    | with_reducible apply Keep.foldl <;> try intro _ _ _
    | with_reducible apply Keep.foldl_snd <;> try intro _ _ _
    | with_reducible refine Keep.of_snd ‹_ = (_, _)› ?_
    | with_reducible refine Keep.of_snd2 ‹_ = (_, _, _)› ?_
    | with_reducible apply Keep.of_id
    | split
    | dsimp only

theorem execCrossfade_keep (a0 : _) (a1 : _) (a2 : _) (s : State) {t : State} (h : execCrossfade a0 a1 a2 s = .next t) : Keep 1048608 s t := by
  unfold execCrossfade at h
  injection h with h
  subst h
  repeat' first
    | exact rfl
    | with_reducible exact Keep.refl _ _
    | with_reducible assumption
    | with_reducible apply State.dpdActivate_keep
    | with_reducible apply State.calTxStart_keep
    | with_reducible apply State.calRxStart_keep
    | with_reducible apply Keep.ite <;> intro _
    | with_reducible apply Keep.foldl <;> try intro _ _ _
    | with_reducible apply Keep.foldl_snd <;> try intro _ _ _
    | with_reducible refine Keep.of_snd ‹_ = (_, _)› ?_
    | with_reducible refine Keep.of_snd2 ‹_ = (_, _, _)› ?_
    | with_reducible apply Keep.of_id
    | split
    | dsimp only

end Sys2Proof.Machine
end

