-- ==== Sys2Proof/Laws/KeepHka.lean ====
section
/-! SUPPORT. What each operation of Machine/Hka.lean leaves alone. -/

set_option Elab.async false

namespace Sys2Proof.Machine

theorem State.hkaUpd_keep {m : Nat} {s0 : State} (s : State) (a1 : _) (hm : subMask 1048576 m = true) (h : Keep m s0 s) : Keep m s0 (State.hkaUpd s a1) := by
  refine Keep.lift (f := 1048576) ?_ hm h
  unfold State.hkaUpd
  repeat' first
    | exact rfl
    | with_reducible exact Keep.refl _ _
    | with_reducible assumption
    | with_reducible apply State.radUpd_keep
    | with_reducible apply Keep.ite <;> intro _
    | with_reducible apply Keep.foldl <;> try intro _ _ _
    | with_reducible apply Keep.foldl_snd <;> try intro _ _ _
    | with_reducible refine Keep.of_snd ‹_ = (_, _)› ?_
    | with_reducible refine Keep.of_snd2 ‹_ = (_, _, _)› ?_
    | with_reducible apply Keep.of_id
    | split
    | dsimp only

theorem State.hkaSkip_keep {m : Nat} {s0 : State} (s : State) (hm : subMask 32 m = true) (h : Keep m s0 s) : Keep m s0 (State.hkaSkip s) := by
  refine Keep.lift (f := 32) ?_ hm h
  unfold State.hkaSkip
  repeat' first
    | exact rfl
    | with_reducible exact Keep.refl _ _
    | with_reducible assumption
    | with_reducible apply State.set_keep
    | with_reducible apply Keep.ite <;> intro _
    | with_reducible apply Keep.foldl <;> try intro _ _ _
    | with_reducible apply Keep.foldl_snd <;> try intro _ _ _
    | with_reducible refine Keep.of_snd ‹_ = (_, _)› ?_
    | with_reducible refine Keep.of_snd2 ‹_ = (_, _, _)› ?_
    | with_reducible apply Keep.of_id
    | split
    | dsimp only

theorem State.hkaOff_keep {m : Nat} {s0 : State} (s : State) (hm : subMask 1048608 m = true) (h : Keep m s0 s) : Keep m s0 (State.hkaOff s) := by
  refine Keep.lift (f := 1048608) ?_ hm h
  unfold State.hkaOff
  repeat' first
    | exact rfl
    | with_reducible exact Keep.refl _ _
    | with_reducible assumption
    | with_reducible apply State.set_keep
    | with_reducible apply State.hkaUpd_keep
    | with_reducible apply Keep.ite <;> intro _
    | with_reducible apply Keep.foldl <;> try intro _ _ _
    | with_reducible apply Keep.foldl_snd <;> try intro _ _ _
    | with_reducible refine Keep.of_snd ‹_ = (_, _)› ?_
    | with_reducible refine Keep.of_snd2 ‹_ = (_, _, _)› ?_
    | with_reducible apply Keep.of_id
    | split
    | dsimp only

theorem State.hkaBegin_keep {m : Nat} {s0 : State} (s : State) (hm : subMask 32 m = true) (h : Keep m s0 s) : Keep m s0 (State.hkaBegin s) := by
  refine Keep.lift (f := 32) ?_ hm h
  unfold State.hkaBegin
  repeat' first
    | exact rfl
    | with_reducible exact Keep.refl _ _
    | with_reducible assumption
    | with_reducible apply State.resetRegs_keep
    | with_reducible apply Keep.ite <;> intro _
    | with_reducible apply Keep.foldl <;> try intro _ _ _
    | with_reducible apply Keep.foldl_snd <;> try intro _ _ _
    | with_reducible refine Keep.of_snd ‹_ = (_, _)› ?_
    | with_reducible refine Keep.of_snd2 ‹_ = (_, _, _)› ?_
    | with_reducible apply Keep.of_id
    | split
    | dsimp only

theorem State.hkaPush_keep {m : Nat} {s0 : State} (s : State) (a1 : _) (a2 : _) (a3 : _) (hm : subMask 1048880 m = true) (h : Keep m s0 s) : Keep m s0 (State.hkaPush s a1 a2 a3) := by
  refine Keep.lift (f := 1048880) ?_ hm h
  unfold State.hkaPush
  repeat' first
    | exact rfl
    | with_reducible exact Keep.refl _ _
    | with_reducible assumption
    | with_reducible apply State.hkaUpd_keep
    | with_reducible apply State.inc_keep
    | with_reducible apply State.raise_keep
    | with_reducible apply State.set_keep
    | with_reducible apply Keep.ite <;> intro _
    | with_reducible apply Keep.foldl <;> try intro _ _ _
    | with_reducible apply Keep.foldl_snd <;> try intro _ _ _
    | with_reducible refine Keep.of_snd ‹_ = (_, _)› ?_
    | with_reducible refine Keep.of_snd2 ‹_ = (_, _, _)› ?_
    | with_reducible apply Keep.of_id
    | split
    | dsimp only

theorem wrHka_keep {m : Nat} {s0 : State} (a0 : _) (a1 : _) (a2 : _) (a3 : _) (s : State) (hm : subMask 32 m = true) (h : Keep m s0 s) : Keep m s0 (wrHka a0 a1 a2 a3 s) := by
  refine Keep.lift (f := 32) ?_ hm h
  unfold wrHka
  repeat' first
    | exact rfl
    | with_reducible exact Keep.refl _ _
    | with_reducible assumption
    | with_reducible apply storeWord_keep
    | with_reducible apply Keep.ite <;> intro _
    | with_reducible apply Keep.foldl <;> try intro _ _ _
    | with_reducible apply Keep.foldl_snd <;> try intro _ _ _
    | with_reducible refine Keep.of_snd ‹_ = (_, _)› ?_
    | with_reducible refine Keep.of_snd2 ‹_ = (_, _, _)› ?_
    | with_reducible apply Keep.of_id
    | split
    | dsimp only

theorem rdHka_keep {m : Nat} {s0 : State} (a0 : _) (a1 : _) (a2 : _) (s : State) (hm : subMask 1048880 m = true) (h : Keep m s0 s) : Keep m s0 (rdHka a0 a1 a2 s).2 := by
  refine Keep.lift (f := 1048880) ?_ hm h
  unfold rdHka
  repeat' first
    | exact rfl
    | with_reducible exact Keep.refl _ _
    | with_reducible assumption
    | with_reducible apply State.set_keep
    | with_reducible apply State.hkaUpd_keep
    | with_reducible apply loadWord_keep
    | with_reducible apply Keep.ite <;> intro _
    | with_reducible apply Keep.foldl <;> try intro _ _ _
    | with_reducible apply Keep.foldl_snd <;> try intro _ _ _
    | with_reducible refine Keep.of_snd ‹_ = (_, _)› ?_
    | with_reducible refine Keep.of_snd2 ‹_ = (_, _, _)› ?_
    | with_reducible apply Keep.of_id
    | split
    | dsimp only

theorem State.hkaStart_keep {m : Nat} {s0 : State} (s : State) (a1 : _) (a2 : _) (hm : subMask 32 m = true) (h : Keep m s0 s) : Keep m s0 (State.hkaStart s a1 a2) := by
  refine Keep.lift (f := 32) ?_ hm h
  unfold State.hkaStart
  repeat' first
    | exact rfl
    | with_reducible exact Keep.refl _ _
    | with_reducible assumption
    | with_reducible apply State.set_keep
    | with_reducible apply Keep.ite <;> intro _
    | with_reducible apply Keep.foldl <;> try intro _ _ _
    | with_reducible apply Keep.foldl_snd <;> try intro _ _ _
    | with_reducible refine Keep.of_snd ‹_ = (_, _)› ?_
    | with_reducible refine Keep.of_snd2 ‹_ = (_, _, _)› ?_
    | with_reducible apply Keep.of_id
    | split
    | dsimp only

theorem execHkaResult_keep (a0 : _) (a1 : _) (a2 : _) (s : State) {t : State} (h : execHkaResult a0 a1 a2 s = .next t) : Keep 1049393 s t := by
  unfold execHkaResult at h
  injection h with h
  subst h
  repeat' first
    | exact rfl
    | with_reducible exact Keep.refl _ _
    | with_reducible assumption
    | with_reducible apply State.set_keep
    | with_reducible apply State.hkaUpd_keep
    | with_reducible apply State.commit_keep
    | with_reducible apply State.hkaPush_keep
    | with_reducible apply State.calTemp_keep
    | with_reducible apply State.calUpd_keep
    | with_reducible apply State.hkaStart_keep
    | with_reducible apply Keep.ite <;> intro _
    | with_reducible apply Keep.foldl <;> try intro _ _ _
    | with_reducible apply Keep.foldl_snd <;> try intro _ _ _
    | with_reducible refine Keep.of_snd ‹_ = (_, _)› ?_
    | with_reducible refine Keep.of_snd2 ‹_ = (_, _, _)› ?_
    | with_reducible apply Keep.of_id
    | split
    | dsimp only

theorem execHkaPop_keep (a0 : _) (s : State) {t : State} (h : execHkaPop a0 s = .next t) : Keep 1049394 s t := by
  unfold execHkaPop at h
  injection h with h
  subst h
  repeat' first
    | exact rfl
    | with_reducible exact Keep.refl _ _
    | with_reducible assumption
    | with_reducible refine readReg_keep _ _ _ _ _ _ (fun _ _ _ _ _ => ?_) ?_ ?_
    | with_reducible apply rdHka_keep
    | with_reducible apply Keep.ite <;> intro _
    | with_reducible apply Keep.foldl <;> try intro _ _ _
    | with_reducible apply Keep.foldl_snd <;> try intro _ _ _
    | with_reducible refine Keep.of_snd ‹_ = (_, _)› ?_
    | with_reducible refine Keep.of_snd2 ‹_ = (_, _, _)› ?_
    | with_reducible apply Keep.of_id
    | split
    | dsimp only

theorem execPlausFail_keep (a0 : _) (a1 : _) (s : State) {t : State} (h : execPlausFail a0 a1 s = .next t) : Keep 1049393 s t := by
  unfold execPlausFail at h
  injection h with h
  subst h
  repeat' first
    | exact rfl
    | with_reducible exact Keep.refl _ _
    | with_reducible assumption
    | with_reducible apply State.commit_keep
    | with_reducible apply State.hkaUpd_keep
    | with_reducible apply State.ashAdd_keep
    | with_reducible apply State.raise_keep
    | with_reducible apply State.inc_keep
    | with_reducible apply State.calTemp_keep
    | with_reducible apply Keep.ite <;> intro _
    | with_reducible apply Keep.foldl <;> try intro _ _ _
    | with_reducible apply Keep.foldl_snd <;> try intro _ _ _
    | with_reducible refine Keep.of_snd ‹_ = (_, _)› ?_
    | with_reducible refine Keep.of_snd2 ‹_ = (_, _, _)› ?_
    | with_reducible apply Keep.of_id
    | split
    | dsimp only

end Sys2Proof.Machine
end

