-- ==== Sys2Proof/Laws/KeepPhy.lean ====
section
/-! SUPPORT. What each operation of Machine/Phy.lean leaves alone. -/

set_option Elab.async false

namespace Sys2Proof.Machine

theorem State.phyProv_keep {m : Nat} {s0 : State} (s : State) (a1 : _) (a2 : _) (hm : subMask 2097152 m = true) (h : Keep m s0 s) : Keep m s0 (State.phyProv s a1 a2) := by
  refine Keep.lift (f := 2097152) ?_ hm h
  unfold State.phyProv
  repeat' first
    | exact rfl
    | with_reducible exact Keep.refl _ _
    | with_reducible assumption
    | with_reducible apply State.bbUpd_keep
    | with_reducible apply State.phyUpd_keep
    | with_reducible apply Keep.ite <;> intro _
    | with_reducible apply Keep.foldl <;> try intro _ _ _
    | with_reducible apply Keep.foldl_snd <;> try intro _ _ _
    | with_reducible refine Keep.of_snd ‹_ = (_, _)› ?_
    | with_reducible refine Keep.of_snd2 ‹_ = (_, _, _)› ?_
    | with_reducible apply Keep.of_id
    | split
    | dsimp only

theorem State.phyBeams_keep {m : Nat} {s0 : State} (s : State) (a1 : _) (a2 : _) (hm : subMask 1048880 m = true) (h : Keep m s0 s) : Keep m s0 (State.phyBeams s a1 a2) := by
  refine Keep.lift (f := 1048880) ?_ hm h
  unfold State.phyBeams
  repeat' first
    | exact rfl
    | with_reducible exact Keep.refl _ _
    | with_reducible assumption
    | with_reducible apply State.beamsHear_keep
    | with_reducible apply Keep.ite <;> intro _
    | with_reducible apply Keep.foldl <;> try intro _ _ _
    | with_reducible apply Keep.foldl_snd <;> try intro _ _ _
    | with_reducible refine Keep.of_snd ‹_ = (_, _)› ?_
    | with_reducible refine Keep.of_snd2 ‹_ = (_, _, _)› ?_
    | with_reducible apply Keep.of_id
    | split
    | dsimp only

theorem State.phyCals_keep {m : Nat} {s0 : State} (s : State) (a1 : _) (hm : subMask 1048576 m = true) (h : Keep m s0 s) : Keep m s0 (State.phyCals s a1) := by
  refine Keep.lift (f := 1048576) ?_ hm h
  unfold State.phyCals
  repeat' first
    | exact rfl
    | with_reducible exact Keep.refl _ _
    | with_reducible assumption
    | with_reducible apply State.calRxStart_keep
    | with_reducible apply Keep.ite <;> intro _
    | with_reducible apply Keep.foldl <;> try intro _ _ _
    | with_reducible apply Keep.foldl_snd <;> try intro _ _ _
    | with_reducible refine Keep.of_snd ‹_ = (_, _)› ?_
    | with_reducible refine Keep.of_snd2 ‹_ = (_, _, _)› ?_
    | with_reducible apply Keep.of_id
    | split
    | dsimp only

theorem State.phyFail_keep {m : Nat} {s0 : State} (s : State) (a1 : _) (hm : subMask 2097184 m = true) (h : Keep m s0 s) : Keep m s0 (State.phyFail s a1) := by
  refine Keep.lift (f := 2097184) ?_ hm h
  unfold State.phyFail
  repeat' first
    | exact rfl
    | with_reducible exact Keep.refl _ _
    | with_reducible assumption
    | with_reducible apply State.falseStart_keep
    | with_reducible apply State.phyProv_keep
    | with_reducible apply State.phyUpd_keep
    | with_reducible apply Keep.ite <;> intro _
    | with_reducible apply Keep.foldl <;> try intro _ _ _
    | with_reducible apply Keep.foldl_snd <;> try intro _ _ _
    | with_reducible refine Keep.of_snd ‹_ = (_, _)› ?_
    | with_reducible refine Keep.of_snd2 ‹_ = (_, _, _)› ?_
    | with_reducible apply Keep.of_id
    | split
    | dsimp only

theorem State.ldpcTake_keep {m : Nat} {s0 : State} (s : State) (a1 : _) (hm : subMask 2097152 m = true) (h : Keep m s0 s) : Keep m s0 (State.ldpcTake s a1) := by
  refine Keep.lift (f := 2097152) ?_ hm h
  unfold State.ldpcTake
  repeat' first
    | exact rfl
    | with_reducible exact Keep.refl _ _
    | with_reducible assumption
    | with_reducible apply State.bbUpd_keep
    | with_reducible apply Keep.ite <;> intro _
    | with_reducible apply Keep.foldl <;> try intro _ _ _
    | with_reducible apply Keep.foldl_snd <;> try intro _ _ _
    | with_reducible refine Keep.of_snd ‹_ = (_, _)› ?_
    | with_reducible refine Keep.of_snd2 ‹_ = (_, _, _)› ?_
    | with_reducible apply Keep.of_id
    | split
    | dsimp only

theorem State.ldpcFill_keep {m : Nat} {s0 : State} (s : State) (hm : subMask 2097152 m = true) (h : Keep m s0 s) : Keep m s0 (State.ldpcFill s) := by
  refine Keep.lift (f := 2097152) ?_ hm h
  unfold State.ldpcFill
  repeat' first
    | exact rfl
    | with_reducible exact Keep.refl _ _
    | with_reducible assumption
    | with_reducible apply State.ldpcTake_keep
    | with_reducible apply State.bbUpd_keep
    | with_reducible apply Keep.ite <;> intro _
    | with_reducible apply Keep.foldl <;> try intro _ _ _
    | with_reducible apply Keep.foldl_snd <;> try intro _ _ _
    | with_reducible refine Keep.of_snd ‹_ = (_, _)› ?_
    | with_reducible refine Keep.of_snd2 ‹_ = (_, _, _)› ?_
    | with_reducible apply Keep.of_id
    | split
    | dsimp only

theorem State.ldpcEnter_keep {m : Nat} {s0 : State} (s : State) (a1 : _) (a2 : _) (a3 : _) (a4 : _) (hm : subMask 2097456 m = true) (h : Keep m s0 s) : Keep m s0 (State.ldpcEnter s a1 a2 a3 a4).2 := by
  refine Keep.lift (f := 2097456) ?_ hm h
  unfold State.ldpcEnter
  repeat' first
    | exact rfl
    | with_reducible exact Keep.refl _ _
    | with_reducible assumption
    | with_reducible apply State.bbUpd_keep
    | with_reducible apply State.ldpcFill_keep
    | with_reducible apply State.incBy_keep
    | with_reducible apply State.raise_keep
    | with_reducible apply Keep.ite <;> intro _
    | with_reducible apply Keep.foldl <;> try intro _ _ _
    | with_reducible apply Keep.foldl_snd <;> try intro _ _ _
    | with_reducible refine Keep.of_snd ‹_ = (_, _)› ?_
    | with_reducible refine Keep.of_snd2 ‹_ = (_, _, _)› ?_
    | with_reducible apply Keep.of_id
    | split
    | dsimp only

theorem State.phyCommit_keep {m : Nat} {s0 : State} (s : State) (a1 : _) (a2 : _) (a3 : _) (hm : subMask 2097456 m = true) (h : Keep m s0 s) : Keep m s0 (State.phyCommit s a1 a2 a3) := by
  refine Keep.lift (f := 2097456) ?_ hm h
  unfold State.phyCommit
  repeat' first
    | exact rfl
    | with_reducible exact Keep.refl _ _
    | with_reducible assumption
    | with_reducible apply State.incBy_keep
    | with_reducible apply State.inc_keep
    | with_reducible apply State.ldpcEnter_keep
    | with_reducible apply State.phyUpd_keep
    | with_reducible apply Keep.ite <;> intro _
    | with_reducible apply Keep.foldl <;> try intro _ _ _
    | with_reducible apply Keep.foldl_snd <;> try intro _ _ _
    | with_reducible refine Keep.of_snd ‹_ = (_, _)› ?_
    | with_reducible refine Keep.of_snd2 ‹_ = (_, _, _)› ?_
    | with_reducible apply Keep.of_id
    | split
    | dsimp only

theorem State.phyField_keep {m : Nat} {s0 : State} (s : State) (a1 : _) (a2 : _) (a3 : _) (a4 : _) (hm : subMask 2097456 m = true) (h : Keep m s0 s) : Keep m s0 (State.phyField s a1 a2 a3 a4) := by
  refine Keep.lift (f := 2097456) ?_ hm h
  unfold State.phyField
  repeat' first
    | exact rfl
    | with_reducible exact Keep.refl _ _
    | with_reducible assumption
    | with_reducible apply State.phyUpd_keep
    | with_reducible apply State.phyCommit_keep
    | with_reducible apply State.phyFail_keep
    | with_reducible apply Keep.ite <;> intro _
    | with_reducible apply Keep.foldl <;> try intro _ _ _
    | with_reducible apply Keep.foldl_snd <;> try intro _ _ _
    | with_reducible refine Keep.of_snd ‹_ = (_, _)› ?_
    | with_reducible refine Keep.of_snd2 ‹_ = (_, _, _)› ?_
    | with_reducible apply Keep.of_id
    | split
    | dsimp only

theorem State.phyDeliver_keep {m : Nat} {s0 : State} (s : State) (a1 : _) (a2 : _) (hm : subMask 2097152 m = true) (h : Keep m s0 s) : Keep m s0 (State.phyDeliver s a1 a2) := by
  refine Keep.lift (f := 2097152) ?_ hm h
  unfold State.phyDeliver
  repeat' first
    | exact rfl
    | with_reducible exact Keep.refl _ _
    | with_reducible assumption
    | with_reducible apply State.phyUpd_keep
    | with_reducible apply Keep.ite <;> intro _
    | with_reducible apply Keep.foldl <;> try intro _ _ _
    | with_reducible apply Keep.foldl_snd <;> try intro _ _ _
    | with_reducible refine Keep.of_snd ‹_ = (_, _)› ?_
    | with_reducible refine Keep.of_snd2 ‹_ = (_, _, _)› ?_
    | with_reducible apply Keep.of_id
    | split
    | dsimp only

theorem State.sndDropped_keep {m : Nat} {s0 : State} (s : State) (hm : subMask 2097456 m = true) (h : Keep m s0 s) : Keep m s0 (State.sndDropped s) := by
  refine Keep.lift (f := 2097456) ?_ hm h
  unfold State.sndDropped
  repeat' first
    | exact rfl
    | with_reducible exact Keep.refl _ _
    | with_reducible assumption
    | with_reducible apply State.bbUpd_keep
    | with_reducible apply State.inc_keep
    | with_reducible apply State.raise_keep
    | with_reducible apply Keep.ite <;> intro _
    | with_reducible apply Keep.foldl <;> try intro _ _ _
    | with_reducible apply Keep.foldl_snd <;> try intro _ _ _
    | with_reducible refine Keep.of_snd ‹_ = (_, _)› ?_
    | with_reducible refine Keep.of_snd2 ‹_ = (_, _, _)› ?_
    | with_reducible apply Keep.of_id
    | split
    | dsimp only

theorem State.sndWrite_keep {m : Nat} {s0 : State} (s : State) (a1 : _) (a2 : _) (a3 : _) (a4 : _) (hm : subMask 2163056 m = true) (h : Keep m s0 s) : Keep m s0 (State.sndWrite s a1 a2 a3 a4).2 := by
  refine Keep.lift (f := 2163056) ?_ hm h
  unfold State.sndWrite
  repeat' first
    | exact rfl
    | with_reducible exact Keep.refl _ _
    | with_reducible assumption
    | with_reducible apply State.memWrite_keep
    | with_reducible apply State.bbUpd_keep
    | with_reducible apply State.raise_keep
    | with_reducible apply State.sndDropped_keep
    | with_reducible apply Keep.ite <;> intro _
    | with_reducible apply Keep.foldl <;> try intro _ _ _
    | with_reducible apply Keep.foldl_snd <;> try intro _ _ _
    | with_reducible refine Keep.of_snd ‹_ = (_, _)› ?_
    | with_reducible refine Keep.of_snd2 ‹_ = (_, _, _)› ?_
    | with_reducible apply Keep.of_id
    | split
    | dsimp only

theorem State.dfsHit_keep {m : Nat} {s0 : State} (s : State) (a1 : _) (a2 : _) (a3 : _) (hm : subMask 2097968 m = true) (h : Keep m s0 s) : Keep m s0 (State.dfsHit s a1 a2 a3) := by
  refine Keep.lift (f := 2097968) ?_ hm h
  unfold State.dfsHit
  repeat' first
    | exact rfl
    | with_reducible exact Keep.refl _ _
    | with_reducible assumption
    | with_reducible apply State.phyUpd_keep
    | with_reducible apply State.setDfs_keep
    | with_reducible apply State.ashAdd_keep
    | with_reducible apply State.raise_keep
    | with_reducible apply Keep.ite <;> intro _
    | with_reducible apply Keep.foldl <;> try intro _ _ _
    | with_reducible apply Keep.foldl_snd <;> try intro _ _ _
    | with_reducible refine Keep.of_snd ‹_ = (_, _)› ?_
    | with_reducible refine Keep.of_snd2 ‹_ = (_, _, _)› ?_
    | with_reducible apply Keep.of_id
    | split
    | dsimp only

theorem wrPhy_keep {m : Nat} {s0 : State} (a0 : _) (a1 : _) (a2 : _) (a3 : _) (s : State) (hm : subMask 2097184 m = true) (h : Keep m s0 s) : Keep m s0 (wrPhy a0 a1 a2 a3 s) := by
  refine Keep.lift (f := 2097184) ?_ hm h
  unfold wrPhy
  repeat' first
    | exact rfl
    | with_reducible exact Keep.refl _ _
    | with_reducible assumption
    | with_reducible apply State.bbUpd_keep
    | with_reducible refine State.phyDo_keep _ _ _ (fun _ _ => ?_) ?_ ?_
    | with_reducible apply storeWord_keep
    | with_reducible apply State.dfsStop_keep
    | with_reducible apply State.phyUpd_keep
    | with_reducible apply State.setDfs_keep
    | with_reducible apply Keep.ite <;> intro _
    | with_reducible apply Keep.foldl <;> try intro _ _ _
    | with_reducible apply Keep.foldl_snd <;> try intro _ _ _
    | with_reducible refine Keep.of_snd ‹_ = (_, _)› ?_
    | with_reducible refine Keep.of_snd2 ‹_ = (_, _, _)› ?_
    | with_reducible apply Keep.of_id
    | split
    | dsimp only

theorem rdPhy_keep {m : Nat} {s0 : State} (a0 : _) (a1 : _) (a2 : _) (s : State) (hm : subMask 2097456 m = true) (h : Keep m s0 s) : Keep m s0 (rdPhy a0 a1 a2 s).2 := by
  refine Keep.lift (f := 2097456) ?_ hm h
  unfold rdPhy
  repeat' first
    | exact rfl
    | with_reducible exact Keep.refl _ _
    | with_reducible assumption
    | with_reducible apply loadWord_keep
    | with_reducible refine State.phyDo_keep _ _ _ (fun _ _ => ?_) ?_ ?_
    | with_reducible apply State.bbUpd_keep
    | with_reducible apply State.setReg_keep
    | with_reducible apply State.phyUpd_keep
    | with_reducible apply Keep.ite <;> intro _
    | with_reducible apply Keep.foldl <;> try intro _ _ _
    | with_reducible apply Keep.foldl_snd <;> try intro _ _ _
    | with_reducible refine Keep.of_snd ‹_ = (_, _)› ?_
    | with_reducible refine Keep.of_snd2 ‹_ = (_, _, _)› ?_
    | with_reducible apply Keep.of_id
    | split
    | dsimp only

theorem execPreambleDetect_keep (a0 : _) (a1 : _) (a2 : _) (a3 : _) (a4 : _) (a5 : _) (s : State) {t : State} (h : execPreambleDetect a0 a1 a2 a3 a4 a5 s = .next t) : Keep 3146032 s t := by
  unfold execPreambleDetect at h
  injection h with h
  subst h
  repeat' first
    | exact rfl
    | with_reducible exact Keep.refl _ _
    | with_reducible assumption
    | with_reducible refine State.phyDo_keep _ _ _ (fun _ _ => ?_) ?_ ?_
    | with_reducible apply State.phyCals_keep
    | with_reducible apply State.phyBeams_keep
    | with_reducible apply State.phyProv_keep
    | with_reducible apply State.bbUpd_keep
    | with_reducible apply State.phyUpd_keep
    | with_reducible apply Keep.ite <;> intro _
    | with_reducible apply Keep.foldl <;> try intro _ _ _
    | with_reducible apply Keep.foldl_snd <;> try intro _ _ _
    | with_reducible refine Keep.of_snd ‹_ = (_, _)› ?_
    | with_reducible refine Keep.of_snd2 ‹_ = (_, _, _)› ?_
    | with_reducible apply Keep.of_id
    | split
    | dsimp only

theorem execSignalField_keep (a0 : _) (a1 : _) (a2 : _) (s : State) {t : State} (h : execSignalField a0 a1 a2 s = .next t) : Keep 2097456 s t := by
  unfold execSignalField at h
  injection h with h
  subst h
  repeat' first
    | exact rfl
    | with_reducible exact Keep.refl _ _
    | with_reducible assumption
    | with_reducible refine State.phyDo_keep _ _ _ (fun _ _ => ?_) ?_ ?_
    | with_reducible apply State.phyField_keep
    | with_reducible apply Keep.ite <;> intro _
    | with_reducible apply Keep.foldl <;> try intro _ _ _
    | with_reducible apply Keep.foldl_snd <;> try intro _ _ _
    | with_reducible refine Keep.of_snd ‹_ = (_, _)› ?_
    | with_reducible refine Keep.of_snd2 ‹_ = (_, _, _)› ?_
    | with_reducible apply Keep.of_id
    | split
    | dsimp only

theorem execPhyRestart_keep (a0 : _) (a1 : _) (a2 : _) (a3 : _) (a4 : _) (s : State) {t : State} (h : execPhyRestart a0 a1 a2 a3 a4 s = .next t) : Keep 2097184 s t := by
  unfold execPhyRestart at h
  injection h with h
  subst h
  repeat' first
    | exact rfl
    | with_reducible exact Keep.refl _ _
    | with_reducible assumption
    | with_reducible refine State.phyDo_keep _ _ _ (fun _ _ => ?_) ?_ ?_
    | with_reducible apply State.phyProv_keep
    | with_reducible apply State.falseStart_keep
    | with_reducible apply Keep.ite <;> intro _
    | with_reducible apply Keep.foldl <;> try intro _ _ _
    | with_reducible apply Keep.foldl_snd <;> try intro _ _ _
    | with_reducible refine Keep.of_snd ‹_ = (_, _)› ?_
    | with_reducible refine Keep.of_snd2 ‹_ = (_, _, _)› ?_
    | with_reducible apply Keep.of_id
    | split
    | dsimp only

theorem execPhyCapture_keep (a0 : _) (a1 : _) (a2 : _) (a3 : _) (a4 : _) (s : State) {t : State} (h : execPhyCapture a0 a1 a2 a3 a4 s = .next t) : Keep 2097184 s t := by
  unfold execPhyCapture at h
  injection h with h
  subst h
  repeat' first
    | exact rfl
    | with_reducible exact Keep.refl _ _
    | with_reducible assumption
    | with_reducible refine State.phyDo_keep _ _ _ (fun _ _ => ?_) ?_ ?_
    | with_reducible apply State.phyProv_keep
    | with_reducible apply State.inc_keep
    | with_reducible apply State.phyUpd_keep
    | with_reducible apply Keep.ite <;> intro _
    | with_reducible apply Keep.foldl <;> try intro _ _ _
    | with_reducible apply Keep.foldl_snd <;> try intro _ _ _
    | with_reducible refine Keep.of_snd ‹_ = (_, _)› ?_
    | with_reducible refine Keep.of_snd2 ‹_ = (_, _, _)› ?_
    | with_reducible apply Keep.of_id
    | split
    | dsimp only

theorem execPpduEnd_keep (a0 : _) (s : State) {t : State} (h : execPpduEnd a0 s = .next t) : Keep 2097184 s t := by
  unfold execPpduEnd at h
  injection h with h
  subst h
  repeat' first
    | exact rfl
    | with_reducible exact Keep.refl _ _
    | with_reducible assumption
    | with_reducible refine State.phyDo_keep _ _ _ (fun _ _ => ?_) ?_ ?_
    | with_reducible apply State.phyUpd_keep
    | with_reducible apply State.phyDeliver_keep
    | with_reducible apply Keep.ite <;> intro _
    | with_reducible apply Keep.foldl <;> try intro _ _ _
    | with_reducible apply Keep.foldl_snd <;> try intro _ _ _
    | with_reducible refine Keep.of_snd ‹_ = (_, _)› ?_
    | with_reducible refine Keep.of_snd2 ‹_ = (_, _, _)› ?_
    | with_reducible apply Keep.of_id
    | split
    | dsimp only

theorem execFalseStartHoldEnd_keep (a0 : _) (a1 : _) (s : State) {t : State} (h : execFalseStartHoldEnd a0 a1 s = .next t) : Keep 2097184 s t := by
  unfold execFalseStartHoldEnd at h
  injection h with h
  subst h
  repeat' first
    | exact rfl
    | with_reducible exact Keep.refl _ _
    | with_reducible assumption
    | with_reducible refine State.phyDo_keep _ _ _ (fun _ _ => ?_) ?_ ?_
    | with_reducible apply State.phyUpd_keep
    | with_reducible apply Keep.ite <;> intro _
    | with_reducible apply Keep.foldl <;> try intro _ _ _
    | with_reducible apply Keep.foldl_snd <;> try intro _ _ _
    | with_reducible refine Keep.of_snd ‹_ = (_, _)› ?_
    | with_reducible refine Keep.of_snd2 ‹_ = (_, _, _)› ?_
    | with_reducible apply Keep.of_id
    | split
    | dsimp only

theorem execCcaStuck_keep (a0 : _) (s : State) {t : State} (h : execCcaStuck a0 s = .next t) : Keep 2097456 s t := by
  unfold execCcaStuck at h
  injection h with h
  subst h
  repeat' first
    | exact rfl
    | with_reducible exact Keep.refl _ _
    | with_reducible assumption
    | with_reducible refine State.phyDo_keep _ _ _ (fun _ _ => ?_) ?_ ?_
    | with_reducible apply State.raise_keep
    | with_reducible apply State.set_keep
    | with_reducible apply Keep.ite <;> intro _
    | with_reducible apply Keep.foldl <;> try intro _ _ _
    | with_reducible apply Keep.foldl_snd <;> try intro _ _ _
    | with_reducible refine Keep.of_snd ‹_ = (_, _)› ?_
    | with_reducible refine Keep.of_snd2 ‹_ = (_, _, _)› ?_
    | with_reducible apply Keep.of_id
    | split
    | dsimp only

theorem execEnergyDetect_keep (a0 : _) (a1 : _) (a2 : _) (a3 : _) (s : State) {t : State} (h : execEnergyDetect a0 a1 a2 a3 s = .next t) : Keep 2097184 s t := by
  unfold execEnergyDetect at h
  injection h with h
  subst h
  repeat' first
    | exact rfl
    | with_reducible exact Keep.refl _ _
    | with_reducible assumption
    | with_reducible refine State.phyDo_keep _ _ _ (fun _ _ => ?_) ?_ ?_
    | with_reducible apply State.phyUpd_keep
    | with_reducible apply Keep.ite <;> intro _
    | with_reducible apply Keep.foldl <;> try intro _ _ _
    | with_reducible apply Keep.foldl_snd <;> try intro _ _ _
    | with_reducible refine Keep.of_snd ‹_ = (_, _)› ?_
    | with_reducible refine Keep.of_snd2 ‹_ = (_, _, _)› ?_
    | with_reducible apply Keep.of_id
    | split
    | dsimp only

theorem execCodewordDecoded_keep (a0 : _) (a1 : _) (a2 : _) (s : State) {t : State} (h : execCodewordDecoded a0 a1 a2 s = .next t) : Keep 2097456 s t := by
  unfold execCodewordDecoded at h
  injection h with h
  subst h
  repeat' first
    | exact rfl
    | with_reducible exact Keep.refl _ _
    | with_reducible assumption
    | with_reducible apply State.ldpcEnter_keep
    | with_reducible apply State.phyUpd_keep
    | with_reducible apply State.ldpcFill_keep
    | with_reducible apply State.bbUpd_keep
    | with_reducible apply State.inc_keep
    | with_reducible apply State.phyDeliver_keep
    | with_reducible apply Keep.ite <;> intro _
    | with_reducible apply Keep.foldl <;> try intro _ _ _
    | with_reducible apply Keep.foldl_snd <;> try intro _ _ _
    | with_reducible refine Keep.of_snd ‹_ = (_, _)› ?_
    | with_reducible refine Keep.of_snd2 ‹_ = (_, _, _)› ?_
    | with_reducible apply Keep.of_id
    | split
    | dsimp only

theorem execChannelEstimate_keep (a0 : _) (a1 : _) (a2 : _) (a3 : _) (a4 : _) (a5 : _) (s : State) {t : State} (h : execChannelEstimate a0 a1 a2 a3 a4 a5 s = .next t) : Keep 2163056 s t := by
  unfold execChannelEstimate at h
  injection h with h
  subst h
  repeat' first
    | exact rfl
    | with_reducible exact Keep.refl _ _
    | with_reducible assumption
    | with_reducible apply State.sndWrite_keep
    | with_reducible apply State.phyUpd_keep
    | with_reducible apply Keep.ite <;> intro _
    | with_reducible apply Keep.foldl <;> try intro _ _ _
    | with_reducible apply Keep.foldl_snd <;> try intro _ _ _
    | with_reducible refine Keep.of_snd ‹_ = (_, _)› ?_
    | with_reducible refine Keep.of_snd2 ‹_ = (_, _, _)› ?_
    | with_reducible apply Keep.of_id
    | split
    | dsimp only

theorem execSndEstPop_keep (a0 : _) (s : State) {t : State} (h : execSndEstPop a0 s = .next t) : Keep 2097970 s t := by
  unfold execSndEstPop at h
  injection h with h
  subst h
  repeat' first
    | exact rfl
    | with_reducible exact Keep.refl _ _
    | with_reducible assumption
    | with_reducible refine readReg_keep _ _ _ _ _ _ (fun _ _ _ _ _ => ?_) ?_ ?_
    | with_reducible apply rdPhy_keep
    | with_reducible apply Keep.ite <;> intro _
    | with_reducible apply Keep.foldl <;> try intro _ _ _
    | with_reducible apply Keep.foldl_snd <;> try intro _ _ _
    | with_reducible refine Keep.of_snd ‹_ = (_, _)› ?_
    | with_reducible refine Keep.of_snd2 ‹_ = (_, _, _)› ?_
    | with_reducible apply Keep.of_id
    | split
    | dsimp only

theorem execSndSlotFree_keep (a0 : _) (a1 : _) (s : State) {t : State} (h : execSndSlotFree a0 a1 s = .next t) : Keep 2097970 s t := by
  unfold execSndSlotFree at h
  injection h with h
  subst h
  repeat' first
    | exact rfl
    | with_reducible exact Keep.refl _ _
    | with_reducible assumption
    | with_reducible refine writeReg_keep _ _ _ _ _ _ _ (fun _ _ _ _ _ _ => ?_) ?_ ?_
    | with_reducible apply wrPhy_keep
    | with_reducible apply Keep.ite <;> intro _
    | with_reducible apply Keep.foldl <;> try intro _ _ _
    | with_reducible apply Keep.foldl_snd <;> try intro _ _ _
    | with_reducible refine Keep.of_snd ‹_ = (_, _)› ?_
    | with_reducible refine Keep.of_snd2 ‹_ = (_, _, _)› ?_
    | with_reducible apply Keep.of_id
    | split
    | dsimp only

theorem execBeamformingReport_keep (a0 : _) (a1 : _) (a2 : _) (a3 : _) (a4 : _) (a5 : _) (a6 : _) (a7 : _) (a8 : _) (a9 : _) (a10 : _) (s : State) {t : State} (h : execBeamformingReport a0 a1 a2 a3 a4 a5 a6 a7 a8 a9 a10 s = .next t) : Keep 2163056 s t := by
  unfold execBeamformingReport at h
  injection h with h
  subst h
  repeat' first
    | exact rfl
    | with_reducible exact Keep.refl _ _
    | with_reducible assumption
    | with_reducible apply State.sndWrite_keep
    | with_reducible apply Keep.ite <;> intro _
    | with_reducible apply Keep.foldl <;> try intro _ _ _
    | with_reducible apply Keep.foldl_snd <;> try intro _ _ _
    | with_reducible refine Keep.of_snd ‹_ = (_, _)› ?_
    | with_reducible refine Keep.of_snd2 ‹_ = (_, _, _)› ?_
    | with_reducible apply Keep.of_id
    | split
    | dsimp only

theorem execRadarPulse_keep (a0 : _) (a1 : _) (a2 : _) (a3 : _) (a4 : _) (a5 : _) (s : State) {t : State} (h : execRadarPulse a0 a1 a2 a3 a4 a5 s = .next t) : Keep 2097968 s t := by
  unfold execRadarPulse at h
  injection h with h
  subst h
  repeat' first
    | exact rfl
    | with_reducible exact Keep.refl _ _
    | with_reducible assumption
    | with_reducible apply State.phyUpd_keep
    | with_reducible apply State.inc_keep
    | with_reducible apply State.dfsHit_keep
    | with_reducible apply Keep.ite <;> intro _
    | with_reducible apply Keep.foldl <;> try intro _ _ _
    | with_reducible apply Keep.foldl_snd <;> try intro _ _ _
    | with_reducible refine Keep.of_snd ‹_ = (_, _)› ?_
    | with_reducible refine Keep.of_snd2 ‹_ = (_, _, _)› ?_
    | with_reducible apply Keep.of_id
    | split
    | dsimp only

theorem execCacStart_keep (a0 : _) (a1 : _) (a2 : _) (s : State) {t : State} (h : execCacStart a0 a1 a2 s = .next t) : Keep 2097970 s t := by
  unfold execCacStart at h
  injection h with h
  subst h
  repeat' first
    | exact rfl
    | with_reducible exact Keep.refl _ _
    | with_reducible assumption
    | with_reducible refine writeReg_keep _ _ _ _ _ _ _ (fun _ _ _ _ _ _ => ?_) ?_ ?_
    | with_reducible apply wrPhy_keep
    | with_reducible apply Keep.ite <;> intro _
    | with_reducible apply Keep.foldl <;> try intro _ _ _
    | with_reducible apply Keep.foldl_snd <;> try intro _ _ _
    | with_reducible refine Keep.of_snd ‹_ = (_, _)› ?_
    | with_reducible refine Keep.of_snd2 ‹_ = (_, _, _)› ?_
    | with_reducible apply Keep.of_id
    | split
    | dsimp only

theorem execCacExpiry_keep (a0 : _) (a1 : _) (s : State) {t : State} (h : execCacExpiry a0 a1 s = .next t) : Keep 32 s t := by
  unfold execCacExpiry at h
  injection h with h
  subst h
  repeat' first
    | exact rfl
    | with_reducible exact Keep.refl _ _
    | with_reducible assumption
    | with_reducible apply State.setDfs_keep
    | with_reducible apply Keep.ite <;> intro _
    | with_reducible apply Keep.foldl <;> try intro _ _ _
    | with_reducible apply Keep.foldl_snd <;> try intro _ _ _
    | with_reducible refine Keep.of_snd ‹_ = (_, _)› ?_
    | with_reducible refine Keep.of_snd2 ‹_ = (_, _, _)› ?_
    | with_reducible apply Keep.of_id
    | split
    | dsimp only

theorem execNopExpiry_keep (a0 : _) (a1 : _) (s : State) {t : State} (h : execNopExpiry a0 a1 s = .next t) : Keep 32 s t := by
  unfold execNopExpiry at h
  injection h with h
  subst h
  repeat' first
    | exact rfl
    | with_reducible exact Keep.refl _ _
    | with_reducible assumption
    | with_reducible apply State.setDfs_keep
    | with_reducible apply Keep.ite <;> intro _
    | with_reducible apply Keep.foldl <;> try intro _ _ _
    | with_reducible apply Keep.foldl_snd <;> try intro _ _ _
    | with_reducible refine Keep.of_snd ‹_ = (_, _)› ?_
    | with_reducible refine Keep.of_snd2 ‹_ = (_, _, _)› ?_
    | with_reducible apply Keep.of_id
    | split
    | dsimp only

theorem execDfsMapSave_keep (s : State) {t : State} (h : execDfsMapSave s = .next t) : Keep 2097152 s t := by
  unfold execDfsMapSave at h
  injection h with h
  subst h
  repeat' first
    | exact rfl
    | with_reducible exact Keep.refl _ _
    | with_reducible assumption
    | with_reducible apply State.dfsSave_keep
    | with_reducible apply Keep.ite <;> intro _
    | with_reducible apply Keep.foldl <;> try intro _ _ _
    | with_reducible apply Keep.foldl_snd <;> try intro _ _ _
    | with_reducible refine Keep.of_snd ‹_ = (_, _)› ?_
    | with_reducible refine Keep.of_snd2 ‹_ = (_, _, _)› ?_
    | with_reducible apply Keep.of_id
    | split
    | dsimp only

theorem execPhyDfsPop_keep (a0 : _) (a1 : _) (s : State) {t : State} (h : execPhyDfsPop a0 a1 s = .next t) : Keep 2097970 s t := by
  unfold execPhyDfsPop at h
  injection h with h
  subst h
  repeat' first
    | exact rfl
    | with_reducible exact Keep.refl _ _
    | with_reducible assumption
    | with_reducible refine readReg_keep _ _ _ _ _ _ (fun _ _ _ _ _ => ?_) ?_ ?_
    | with_reducible apply rdPhy_keep
    | with_reducible apply Keep.ite <;> intro _
    | with_reducible apply Keep.foldl <;> try intro _ _ _
    | with_reducible apply Keep.foldl_snd <;> try intro _ _ _
    | with_reducible refine Keep.of_snd ‹_ = (_, _)› ?_
    | with_reducible refine Keep.of_snd2 ‹_ = (_, _, _)› ?_
    | with_reducible apply Keep.of_id
    | split
    | dsimp only

end Sys2Proof.Machine
end

