-- ==== Sys2Proof/Laws/KeepWacTbl.lean ====
section
/-! SUPPORT. What each operation of Machine/WacTbl.lean leaves alone. -/

set_option Elab.async false

namespace Sys2Proof.Machine

theorem State.mtxComplete_keep {m : Nat} {s0 : State} (s : State) (a1 : _) (a2 : _) (a3 : _) (a4 : _) (hm : subMask 4194576 m = true) (h : Keep m s0 s) : Keep m s0 (State.mtxComplete s a1 a2 a3 a4) := by
  refine Keep.lift (f := 4194576) ?_ hm h
  unfold State.mtxComplete
  repeat' first
    | exact rfl
    | with_reducible exact Keep.refl _ _
    | with_reducible assumption
    | with_reducible apply State.wacUpd_keep
    | with_reducible apply State.raise_keep
    | with_reducible apply Keep.ite <;> intro _
    | with_reducible apply Keep.foldl <;> try intro _ _ _
    | with_reducible apply Keep.foldl_snd <;> try intro _ _ _
    | with_reducible refine Keep.of_snd ‹_ = (_, _)› ?_
    | with_reducible refine Keep.of_snd2 ‹_ = (_, _, _)› ?_
    | with_reducible apply Keep.of_id
    | split
    | dsimp only

theorem State.mrxWrite_keep {m : Nat} {s0 : State} (s : State) (a1 : _) (hm : subMask 4260208 m = true) (h : Keep m s0 s) : Keep m s0 (State.mrxWrite s a1) := by
  refine Keep.lift (f := 4260208) ?_ hm h
  unfold State.mrxWrite
  repeat' first
    | exact rfl
    | with_reducible exact Keep.refl _ _
    | with_reducible assumption
    | with_reducible apply State.set_keep
    | with_reducible apply State.memWrite_keep
    | with_reducible apply State.raise_keep
    | with_reducible apply State.wacUpd_keep
    | with_reducible apply State.inc_keep
    | with_reducible apply State.bufFree_keep
    | with_reducible apply Keep.ite <;> intro _
    | with_reducible apply Keep.foldl <;> try intro _ _ _
    | with_reducible apply Keep.foldl_snd <;> try intro _ _ _
    | with_reducible refine Keep.of_snd ‹_ = (_, _)› ?_
    | with_reducible refine Keep.of_snd2 ‹_ = (_, _, _)› ?_
    | with_reducible apply Keep.of_id
    | split
    | dsimp only

theorem State.wacPause_keep {m : Nat} {s0 : State} (s : State) (hm : subMask 4194304 m = true) (h : Keep m s0 s) : Keep m s0 (State.wacPause s) := by
  refine Keep.lift (f := 4194304) ?_ hm h
  unfold State.wacPause
  repeat' first
    | exact rfl
    | with_reducible exact Keep.refl _ _
    | with_reducible assumption
    | with_reducible apply State.wacUpd_keep
    | with_reducible apply Keep.ite <;> intro _
    | with_reducible apply Keep.foldl <;> try intro _ _ _
    | with_reducible apply Keep.foldl_snd <;> try intro _ _ _
    | with_reducible refine Keep.of_snd ‹_ = (_, _)› ?_
    | with_reducible refine Keep.of_snd2 ‹_ = (_, _, _)› ?_
    | with_reducible apply Keep.of_id
    | split
    | dsimp only

theorem State.baTxMove_keep {m : Nat} {s0 : State} (s : State) (a1 : _) (hm : subMask 4194304 m = true) (h : Keep m s0 s) : Keep m s0 (State.baTxMove s a1) := by
  refine Keep.lift (f := 4194304) ?_ hm h
  unfold State.baTxMove
  repeat' first
    | exact rfl
    | with_reducible exact Keep.refl _ _
    | with_reducible assumption
    | with_reducible apply State.setWfld_keep
    | with_reducible apply Keep.ite <;> intro _
    | with_reducible apply Keep.foldl <;> try intro _ _ _
    | with_reducible apply Keep.foldl_snd <;> try intro _ _ _
    | with_reducible refine Keep.of_snd ‹_ = (_, _)› ?_
    | with_reducible refine Keep.of_snd2 ‹_ = (_, _, _)› ?_
    | with_reducible apply Keep.of_id
    | split
    | dsimp only

theorem State.frameBack_keep {m : Nat} {s0 : State} (s : State) (a1 : _) (a2 : _) (a3 : _) (a4 : _) (hm : subMask 4260208 m = true) (h : Keep m s0 s) : Keep m s0 (State.frameBack s a1 a2 a3 a4) := by
  refine Keep.lift (f := 4260208) ?_ hm h
  unfold State.frameBack
  repeat' first
    | exact rfl
    | with_reducible exact Keep.refl _ _
    | with_reducible assumption
    | with_reducible apply State.mrxWrite_keep
    | with_reducible apply Keep.ite <;> intro _
    | with_reducible apply Keep.foldl <;> try intro _ _ _
    | with_reducible apply Keep.foldl_snd <;> try intro _ _ _
    | with_reducible refine Keep.of_snd ‹_ = (_, _)› ?_
    | with_reducible refine Keep.of_snd2 ‹_ = (_, _, _)› ?_
    | with_reducible apply Keep.of_id
    | split
    | dsimp only

theorem State.frameEnd_keep {m : Nat} {s0 : State} (s : State) (a1 : _) (a2 : _) (a3 : _) (hm : subMask 4260209 m = true) (h : Keep m s0 s) : Keep m s0 (State.frameEnd s a1 a2 a3) := by
  refine Keep.lift (f := 4260209) ?_ hm h
  unfold State.frameEnd
  repeat' first
    | exact rfl
    | with_reducible exact Keep.refl _ _
    | with_reducible assumption
    | with_reducible apply State.baTxMove_keep
    | with_reducible apply State.wacUpd_keep
    | with_reducible apply State.inc_keep
    | with_reducible apply State.mtxComplete_keep
    | with_reducible apply State.bufAlloc_keep
    | with_reducible apply State.frameBack_keep
    | with_reducible apply State.memPut_keep
    | with_reducible apply State.bufFree_keep
    | with_reducible apply State.wacPause_keep
    | with_reducible apply Keep.ite <;> intro _
    | with_reducible apply Keep.foldl <;> try intro _ _ _
    | with_reducible apply Keep.foldl_snd <;> try intro _ _ _
    | with_reducible refine Keep.of_snd ‹_ = (_, _)› ?_
    | with_reducible refine Keep.of_snd2 ‹_ = (_, _, _)› ?_
    | with_reducible apply Keep.of_id
    | split
    | dsimp only

theorem State.framesEnd_keep {m : Nat} {s0 : State} (s : State) (a1 : _) (a2 : _) (hm : subMask 4260209 m = true) (h : Keep m s0 s) : Keep m s0 (State.framesEnd s a1 a2) := by
  refine Keep.lift (f := 4260209) ?_ hm h
  unfold State.framesEnd
  repeat' first
    | exact rfl
    | with_reducible exact Keep.refl _ _
    | with_reducible assumption
    | with_reducible apply State.frameEnd_keep
    | with_reducible apply Keep.ite <;> intro _
    | with_reducible apply Keep.foldl <;> try intro _ _ _
    | with_reducible apply Keep.foldl_snd <;> try intro _ _ _
    | with_reducible refine Keep.of_snd ‹_ = (_, _)› ?_
    | with_reducible refine Keep.of_snd2 ‹_ = (_, _, _)› ?_
    | with_reducible apply Keep.of_id
    | split
    | dsimp only

theorem State.setWacWin_keep {m : Nat} {s0 : State} (s : State) (a1 : _) (hm : subMask 32 m = true) (h : Keep m s0 s) : Keep m s0 (State.setWacWin s a1) := by
  refine Keep.lift (f := 32) ?_ hm h
  unfold State.setWacWin
  repeat' first
    | exact rfl
    | with_reducible exact Keep.refl _ _
    | with_reducible assumption
    | with_reducible apply State.setReg_keep
    | with_reducible apply Keep.ite <;> intro _
    | with_reducible apply Keep.foldl <;> try intro _ _ _
    | with_reducible apply Keep.foldl_snd <;> try intro _ _ _
    | with_reducible refine Keep.of_snd ‹_ = (_, _)› ?_
    | with_reducible refine Keep.of_snd2 ‹_ = (_, _, _)› ?_
    | with_reducible apply Keep.of_id
    | split
    | dsimp only

end Sys2Proof.Machine
end

