-- ==== Sys2Proof/Laws/KeepWac.lean ====
section
/-! SUPPORT. What each operation of Machine/Wac.lean leaves alone. -/

set_option Elab.async false

namespace Sys2Proof.Machine

theorem State.frameAdd_keep {m : Nat} {s0 : State} (s : State) (a1 : _) (hm : subMask 4194304 m = true) (h : Keep m s0 s) : Keep m s0 (State.frameAdd s a1) := by
  refine Keep.lift (f := 4194304) ?_ hm h
  unfold State.frameAdd
  repeat' first
    | exact rfl
    | with_reducible exact Keep.refl _ _
    | with_reducible assumption
    | with_reducible apply State.wacPause_keep
    | with_reducible apply State.wacUpd_keep
    | with_reducible apply Keep.ite <;> intro _
    | with_reducible apply Keep.foldl <;> try intro _ _ _
    | with_reducible apply Keep.foldl_snd <;> try intro _ _ _
    | with_reducible refine Keep.of_snd ‹_ = (_, _)› ?_
    | with_reducible refine Keep.of_snd2 ‹_ = (_, _, _)› ?_
    | with_reducible apply Keep.of_id
    | split
    | dsimp only

theorem State.wacMsdu_keep {m : Nat} {s0 : State} (s : State) (a1 : _) (a2 : _) (a3 : _) (a4 : _) (a5 : _) (hm : subMask 4259872 m = true) (h : Keep m s0 s) : Keep m s0 (State.wacMsdu s a1 a2 a3 a4 a5) := by
  refine Keep.lift (f := 4259872) ?_ hm h
  unfold State.wacMsdu
  repeat' first
    | exact rfl
    | with_reducible exact Keep.refl _ _
    | with_reducible assumption
    | with_reducible apply State.inc_keep
    | with_reducible apply State.bufFree_keep
    | with_reducible apply State.frameAdd_keep
    | with_reducible apply Keep.ite <;> intro _
    | with_reducible apply Keep.foldl <;> try intro _ _ _
    | with_reducible apply Keep.foldl_snd <;> try intro _ _ _
    | with_reducible refine Keep.of_snd ‹_ = (_, _)› ?_
    | with_reducible refine Keep.of_snd2 ‹_ = (_, _, _)› ?_
    | with_reducible apply Keep.of_id
    | split
    | dsimp only

theorem State.deficitRefill_keep {m : Nat} {s0 : State} (s : State) (a1 : _) (a2 : _) (hm : subMask 4194304 m = true) (h : Keep m s0 s) : Keep m s0 (State.deficitRefill s a1 a2) := by
  refine Keep.lift (f := 4194304) ?_ hm h
  unfold State.deficitRefill
  repeat' first
    | exact rfl
    | with_reducible exact Keep.refl _ _
    | with_reducible assumption
    | with_reducible apply State.setWfld_keep
    | with_reducible apply Keep.ite <;> intro _
    | with_reducible apply Keep.foldl <;> try intro _ _ _
    | with_reducible apply Keep.foldl_snd <;> try intro _ _ _
    | with_reducible refine Keep.of_snd ‹_ = (_, _)› ?_
    | with_reducible refine Keep.of_snd2 ‹_ = (_, _, _)› ?_
    | with_reducible apply Keep.of_id
    | split
    | dsimp only

theorem State.charge_keep {m : Nat} {s0 : State} (s : State) (a1 : _) (a2 : _) (a3 : _) (hm : subMask 4194304 m = true) (h : Keep m s0 s) : Keep m s0 (State.charge s a1 a2 a3) := by
  refine Keep.lift (f := 4194304) ?_ hm h
  unfold State.charge
  repeat' first
    | exact rfl
    | with_reducible exact Keep.refl _ _
    | with_reducible assumption
    | with_reducible apply State.setWfld_keep
    | with_reducible apply Keep.ite <;> intro _
    | with_reducible apply Keep.foldl <;> try intro _ _ _
    | with_reducible apply Keep.foldl_snd <;> try intro _ _ _
    | with_reducible refine Keep.of_snd ‹_ = (_, _)› ?_
    | with_reducible refine Keep.of_snd2 ‹_ = (_, _, _)› ?_
    | with_reducible apply Keep.of_id
    | split
    | dsimp only

theorem State.ppduCharge_keep {m : Nat} {s0 : State} (s : State) (a1 : _) (a2 : _) (a3 : _) (hm : subMask 4194304 m = true) (h : Keep m s0 s) : Keep m s0 (State.ppduCharge s a1 a2 a3) := by
  refine Keep.lift (f := 4194304) ?_ hm h
  unfold State.ppduCharge
  repeat' first
    | exact rfl
    | with_reducible exact Keep.refl _ _
    | with_reducible assumption
    | with_reducible apply State.charge_keep
    | with_reducible apply Keep.ite <;> intro _
    | with_reducible apply Keep.foldl <;> try intro _ _ _
    | with_reducible apply Keep.foldl_snd <;> try intro _ _ _
    | with_reducible refine Keep.of_snd ‹_ = (_, _)› ?_
    | with_reducible refine Keep.of_snd2 ‹_ = (_, _, _)› ?_
    | with_reducible apply Keep.of_id
    | split
    | dsimp only

theorem State.frameTake_keep {m : Nat} {s0 : State} (s : State) (a1 : _) (a2 : _) (a3 : _) (hm : subMask 4292977 m = true) (h : Keep m s0 s) : Keep m s0 (State.frameTake s a1 a2 a3) := by
  refine Keep.lift (f := 4292977) ?_ hm h
  unfold State.frameTake
  repeat' first
    | exact rfl
    | with_reducible exact Keep.refl _ _
    | with_reducible assumption
    | with_reducible apply State.useKey_keep
    | with_reducible apply State.frameEnd_keep
    | with_reducible apply State.wacUpd_keep
    | with_reducible apply State.raise_keep
    | with_reducible apply Keep.ite <;> intro _
    | with_reducible apply Keep.foldl <;> try intro _ _ _
    | with_reducible apply Keep.foldl_snd <;> try intro _ _ _
    | (rewrite [State.mk_eq_updOf]; (with_reducible refine Keep.node 1 ?_ ?_ ?_); · refine Keep.upd 1 ?_ ?_ ?_ ?_ ?_ (fun p hp => ?_); exact rfl; exact rfl; exact rfl; exact rfl; exact rfl; cases p <;> first | exact absurd hp (by decide) | exact rfl)
    | with_reducible refine Keep.of_snd ‹_ = (_, _)› ?_
    | with_reducible refine Keep.of_snd2 ‹_ = (_, _, _)› ?_
    | with_reducible apply Keep.of_id
    | split
    | dsimp only

theorem State.ppduDue_keep {m : Nat} {s0 : State} (s : State) (a1 : _) (a2 : _) (hm : subMask 4194304 m = true) (h : Keep m s0 s) : Keep m s0 (State.ppduDue s a1 a2) := by
  refine Keep.lift (f := 4194304) ?_ hm h
  unfold State.ppduDue
  repeat' first
    | exact rfl
    | with_reducible exact Keep.refl _ _
    | with_reducible assumption
    | with_reducible apply State.wlinkUpd_keep
    | with_reducible apply Keep.ite <;> intro _
    | with_reducible apply Keep.foldl <;> try intro _ _ _
    | with_reducible apply Keep.foldl_snd <;> try intro _ _ _
    | with_reducible refine Keep.of_snd ‹_ = (_, _)› ?_
    | with_reducible refine Keep.of_snd2 ‹_ = (_, _, _)› ?_
    | with_reducible apply Keep.of_id
    | split
    | dsimp only

theorem State.ppduMake_keep {m : Nat} {s0 : State} (s : State) (a1 : _) (a2 : _) (a3 : _) (a4 : _) (hm : subMask 4292977 m = true) (h : Keep m s0 s) : Keep m s0 (State.ppduMake s a1 a2 a3 a4) := by
  refine Keep.lift (f := 4292977) ?_ hm h
  unfold State.ppduMake
  repeat' first
    | exact rfl
    | with_reducible exact Keep.refl _ _
    | with_reducible assumption
    | with_reducible apply State.frameTake_keep
    | with_reducible apply State.wacUpd_keep
    | with_reducible apply State.ppduDue_keep
    | with_reducible apply Keep.ite <;> intro _
    | with_reducible apply Keep.foldl <;> try intro _ _ _
    | with_reducible apply Keep.foldl_snd <;> try intro _ _ _
    | with_reducible refine Keep.of_snd ‹_ = (_, _)› ?_
    | with_reducible refine Keep.of_snd2 ‹_ = (_, _, _)› ?_
    | with_reducible apply Keep.of_id
    | split
    | dsimp only

theorem State.rateRefuse_keep {m : Nat} {s0 : State} (s : State) (a1 : _) (a2 : _) (a3 : _) (hm : subMask 4260209 m = true) (h : Keep m s0 s) : Keep m s0 (State.rateRefuse s a1 a2 a3) := by
  refine Keep.lift (f := 4260209) ?_ hm h
  unfold State.rateRefuse
  repeat' first
    | exact rfl
    | with_reducible exact Keep.refl _ _
    | with_reducible assumption
    | with_reducible apply State.frameEnd_keep
    | with_reducible apply Keep.ite <;> intro _
    | with_reducible apply Keep.foldl <;> try intro _ _ _
    | with_reducible apply Keep.foldl_snd <;> try intro _ _ _
    | with_reducible refine Keep.of_snd ‹_ = (_, _)› ?_
    | with_reducible refine Keep.of_snd2 ‹_ = (_, _, _)› ?_
    | with_reducible apply Keep.of_id
    | split
    | dsimp only

theorem State.schedule_keep {m : Nat} {s0 : State} (s : State) (a1 : _) (a2 : _) (a3 : _) (a4 : _) (a5 : _) (hm : subMask 4292977 m = true) (h : Keep m s0 s) : Keep m s0 (State.schedule s a1 a2 a3 a4 a5) := by
  refine Keep.lift (f := 4292977) ?_ hm h
  unfold State.schedule
  repeat' first
    | exact rfl
    | with_reducible exact Keep.refl _ _
    | with_reducible assumption
    | with_reducible apply State.deficitRefill_keep
    | with_reducible apply State.wacUpd_keep
    | with_reducible apply State.rateRefuse_keep
    | with_reducible apply State.frameEnd_keep
    | with_reducible apply State.ppduMake_keep
    | with_reducible apply Keep.ite <;> intro _
    | with_reducible apply Keep.foldl <;> try intro _ _ _
    | with_reducible apply Keep.foldl_snd <;> try intro _ _ _
    | with_reducible refine Keep.of_snd ‹_ = (_, _)› ?_
    | with_reducible refine Keep.of_snd2 ‹_ = (_, _, _)› ?_
    | with_reducible apply Keep.of_id
    | split
    | dsimp only

theorem State.dueTidy_keep {m : Nat} {s0 : State} (s : State) (a1 : _) (hm : subMask 5242880 m = true) (h : Keep m s0 s) : Keep m s0 (State.dueTidy s a1) := by
  refine Keep.lift (f := 5242880) ?_ hm h
  unfold State.dueTidy
  repeat' first
    | exact rfl
    | with_reducible exact Keep.refl _ _
    | with_reducible assumption
    | with_reducible apply State.radUpd_keep
    | with_reducible apply State.wlinkUpd_keep
    | with_reducible apply Keep.ite <;> intro _
    | with_reducible apply Keep.foldl <;> try intro _ _ _
    | with_reducible apply Keep.foldl_snd <;> try intro _ _ _
    | with_reducible refine Keep.of_snd ‹_ = (_, _)› ?_
    | with_reducible refine Keep.of_snd2 ‹_ = (_, _, _)› ?_
    | with_reducible apply Keep.of_id
    | split
    | dsimp only

theorem State.duesTidy_keep {m : Nat} {s0 : State} (s : State) (hm : subMask 5242880 m = true) (h : Keep m s0 s) : Keep m s0 (State.duesTidy s) := by
  refine Keep.lift (f := 5242880) ?_ hm h
  unfold State.duesTidy
  repeat' first
    | exact rfl
    | with_reducible exact Keep.refl _ _
    | with_reducible assumption
    | with_reducible apply State.dueTidy_keep
    | with_reducible apply Keep.ite <;> intro _
    | with_reducible apply Keep.foldl <;> try intro _ _ _
    | with_reducible apply Keep.foldl_snd <;> try intro _ _ _
    | with_reducible refine Keep.of_snd ‹_ = (_, _)› ?_
    | with_reducible refine Keep.of_snd2 ‹_ = (_, _, _)› ?_
    | with_reducible apply Keep.of_id
    | split
    | dsimp only

theorem State.framePut_keep {m : Nat} {s0 : State} (s : State) (a1 : _) (a2 : _) (a3 : _) (hm : subMask 4260209 m = true) (h : Keep m s0 s) : Keep m s0 (State.framePut s a1 a2 a3) := by
  refine Keep.lift (f := 4260209) ?_ hm h
  unfold State.framePut
  repeat' first
    | exact rfl
    | with_reducible exact Keep.refl _ _
    | with_reducible assumption
    | with_reducible apply State.frameEnd_keep
    | with_reducible apply State.wacUpd_keep
    | with_reducible apply Keep.ite <;> intro _
    | with_reducible apply Keep.foldl <;> try intro _ _ _
    | with_reducible apply Keep.foldl_snd <;> try intro _ _ _
    | with_reducible refine Keep.of_snd ‹_ = (_, _)› ?_
    | with_reducible refine Keep.of_snd2 ‹_ = (_, _, _)› ?_
    | with_reducible apply Keep.of_id
    | split
    | dsimp only

theorem State.frameRetry_keep {m : Nat} {s0 : State} (s : State) (a1 : _) (a2 : _) (hm : subMask 4260209 m = true) (h : Keep m s0 s) : Keep m s0 (State.frameRetry s a1 a2) := by
  refine Keep.lift (f := 4260209) ?_ hm h
  unfold State.frameRetry
  repeat' first
    | exact rfl
    | with_reducible exact Keep.refl _ _
    | with_reducible assumption
    | with_reducible apply State.frameEnd_keep
    | with_reducible apply State.frameAdd_keep
    | with_reducible apply State.framePut_keep
    | with_reducible apply Keep.ite <;> intro _
    | with_reducible apply Keep.foldl <;> try intro _ _ _
    | with_reducible apply Keep.foldl_snd <;> try intro _ _ _
    | with_reducible refine Keep.of_snd ‹_ = (_, _)› ?_
    | with_reducible refine Keep.of_snd2 ‹_ = (_, _, _)› ?_
    | with_reducible apply Keep.of_id
    | split
    | dsimp only

theorem State.sentLapse_keep {m : Nat} {s0 : State} (s : State) (a1 : _) (hm : subMask 4260209 m = true) (h : Keep m s0 s) : Keep m s0 (State.sentLapse s a1) := by
  refine Keep.lift (f := 4260209) ?_ hm h
  unfold State.sentLapse
  repeat' first
    | exact rfl
    | with_reducible exact Keep.refl _ _
    | with_reducible assumption
    | with_reducible apply State.wlinkUpd_keep
    | with_reducible apply State.frameRetry_keep
    | with_reducible apply Keep.ite <;> intro _
    | with_reducible apply Keep.foldl <;> try intro _ _ _
    | with_reducible apply Keep.foldl_snd <;> try intro _ _ _
    | with_reducible refine Keep.of_snd ‹_ = (_, _)› ?_
    | with_reducible refine Keep.of_snd2 ‹_ = (_, _, _)› ?_
    | with_reducible apply Keep.of_id
    | split
    | dsimp only

theorem State.twtEosp_keep {m : Nat} {s0 : State} (s : State) (a1 : _) (hm : subMask 4194304 m = true) (h : Keep m s0 s) : Keep m s0 (State.twtEosp s a1) := by
  refine Keep.lift (f := 4194304) ?_ hm h
  unfold State.twtEosp
  repeat' first
    | exact rfl
    | with_reducible exact Keep.refl _ _
    | with_reducible assumption
    | with_reducible apply State.wacUpd_keep
    | with_reducible apply Keep.ite <;> intro _
    | with_reducible apply Keep.foldl <;> try intro _ _ _
    | with_reducible apply Keep.foldl_snd <;> try intro _ _ _
    | with_reducible refine Keep.of_snd ‹_ = (_, _)› ?_
    | with_reducible refine Keep.of_snd2 ‹_ = (_, _, _)› ?_
    | with_reducible apply Keep.of_id
    | split
    | dsimp only

theorem State.bufReport_keep {m : Nat} {s0 : State} (s : State) (a1 : _) (a2 : _) (a3 : _) (hm : subMask 4194576 m = true) (h : Keep m s0 s) : Keep m s0 (State.bufReport s a1 a2 a3) := by
  refine Keep.lift (f := 4194576) ?_ hm h
  unfold State.bufReport
  repeat' first
    | exact rfl
    | with_reducible exact Keep.refl _ _
    | with_reducible assumption
    | with_reducible apply State.wacUpd_keep
    | with_reducible apply State.setWfld_keep
    | with_reducible apply State.raise_keep
    | with_reducible apply Keep.ite <;> intro _
    | with_reducible apply Keep.foldl <;> try intro _ _ _
    | with_reducible apply Keep.foldl_snd <;> try intro _ _ _
    | with_reducible refine Keep.of_snd ‹_ = (_, _)› ?_
    | with_reducible refine Keep.of_snd2 ‹_ = (_, _, _)› ?_
    | with_reducible apply Keep.of_id
    | split
    | dsimp only

theorem State.staHeard_keep {m : Nat} {s0 : State} (s : State) (a1 : _) (a2 : _) (hm : subMask 4194304 m = true) (h : Keep m s0 s) : Keep m s0 (State.staHeard s a1 a2) := by
  refine Keep.lift (f := 4194304) ?_ hm h
  unfold State.staHeard
  repeat' first
    | exact rfl
    | with_reducible exact Keep.refl _ _
    | with_reducible assumption
    | with_reducible apply State.wacUpd_keep
    | with_reducible apply Keep.ite <;> intro _
    | with_reducible apply Keep.foldl <;> try intro _ _ _
    | with_reducible apply Keep.foldl_snd <;> try intro _ _ _
    | with_reducible refine Keep.of_snd ‹_ = (_, _)› ?_
    | with_reducible refine Keep.of_snd2 ‹_ = (_, _, _)› ?_
    | with_reducible apply Keep.of_id
    | split
    | dsimp only

theorem State.wacUpward_keep {m : Nat} {s0 : State} (s : State) (a1 : _) (hm : subMask 37814641 m = true) (h : Keep m s0 s) : Keep m s0 (State.wacUpward s a1) := by
  refine Keep.lift (f := 37814641) ?_ hm h
  unfold State.wacUpward
  repeat' first
    | exact rfl
    | with_reducible exact Keep.refl _ _
    | with_reducible assumption
    | with_reducible apply State.inc_keep
    | with_reducible apply State.bufFree_keep
    | with_reducible apply State.wacUpd_keep
    | with_reducible apply State.ingress_keep
    | with_reducible apply State.mrxWrite_keep
    | with_reducible apply Keep.ite <;> intro _
    | with_reducible apply Keep.foldl <;> try intro _ _ _
    | with_reducible apply Keep.foldl_snd <;> try intro _ _ _
    | with_reducible refine Keep.of_snd ‹_ = (_, _)› ?_
    | with_reducible refine Keep.of_snd2 ‹_ = (_, _, _)› ?_
    | with_reducible apply Keep.of_id
    | split
    | dsimp only

theorem State.baStep_keep {m : Nat} {s0 : State} (s : State) (a1 : _) (hm : subMask 37814641 m = true) (h : Keep m s0 s) : Keep m s0 (State.baStep s a1) := by
  refine Keep.lift (f := 37814641) ?_ hm h
  unfold State.baStep
  repeat' first
    | exact rfl
    | with_reducible exact Keep.refl _ _
    | with_reducible assumption
    | with_reducible apply State.wacUpward_keep
    | with_reducible apply State.wacUpd_keep
    | with_reducible apply State.setWfld_keep
    | with_reducible apply Keep.ite <;> intro _
    | with_reducible apply Keep.foldl <;> try intro _ _ _
    | with_reducible apply Keep.foldl_snd <;> try intro _ _ _
    | with_reducible refine Keep.of_snd ‹_ = (_, _)› ?_
    | with_reducible refine Keep.of_snd2 ‹_ = (_, _, _)› ?_
    | with_reducible apply Keep.of_id
    | split
    | dsimp only

theorem State.baMove_keep {m : Nat} {s0 : State} (a0 : _) (a1 : _) (s : State) (hm : subMask 37814641 m = true) (h : Keep m s0 s) : Keep m s0 (State.baMove a0 a1 s) := by
  induction a1 generalizing s with
  | zero => unfold State.baMove; exact h
  | succ n ih =>
    unfold State.baMove
    repeat' first
      | exact rfl
      | exact subMask_trans rfl hm
      | with_reducible apply ih
      | with_reducible exact Keep.refl _ _
      | with_reducible assumption
      | with_reducible apply State.baStep_keep
      | with_reducible apply Keep.ite <;> intro _
      | with_reducible apply Keep.foldl <;> try intro _ _ _
      | with_reducible apply Keep.foldl_snd <;> try intro _ _ _
      | with_reducible refine Keep.of_snd ‹_ = (_, _)› ?_
      | with_reducible refine Keep.of_snd2 ‹_ = (_, _, _)› ?_
      | with_reducible apply Keep.of_id
      | split
      | dsimp only

theorem State.baDrain_keep {m : Nat} {s0 : State} (a0 : _) (a1 : _) (s : State) (hm : subMask 37814641 m = true) (h : Keep m s0 s) : Keep m s0 (State.baDrain a0 a1 s) := by
  induction a1 generalizing s with
  | zero => unfold State.baDrain; exact h
  | succ n ih =>
    unfold State.baDrain
    repeat' first
      | exact rfl
      | exact subMask_trans rfl hm
      | with_reducible apply ih
      | with_reducible exact Keep.refl _ _
      | with_reducible assumption
      | with_reducible apply State.baStep_keep
      | with_reducible apply Keep.ite <;> intro _
      | with_reducible apply Keep.foldl <;> try intro _ _ _
      | with_reducible apply Keep.foldl_snd <;> try intro _ _ _
      | with_reducible refine Keep.of_snd ‹_ = (_, _)› ?_
      | with_reducible refine Keep.of_snd2 ‹_ = (_, _, _)› ?_
      | with_reducible apply Keep.of_id
      | split
      | dsimp only

theorem State.baReceive_keep {m : Nat} {s0 : State} (s : State) (a1 : _) (a2 : _) (a3 : _) (hm : subMask 37814641 m = true) (h : Keep m s0 s) : Keep m s0 (State.baReceive s a1 a2 a3) := by
  refine Keep.lift (f := 37814641) ?_ hm h
  unfold State.baReceive
  repeat' first
    | exact rfl
    | with_reducible exact Keep.refl _ _
    | with_reducible assumption
    | with_reducible apply State.inc_keep
    | with_reducible apply State.bufFree_keep
    | with_reducible apply State.baMove_keep
    | with_reducible apply State.wacUpd_keep
    | with_reducible apply State.baDrain_keep
    | with_reducible apply State.setWfld_keep
    | with_reducible apply Keep.ite <;> intro _
    | with_reducible apply Keep.foldl <;> try intro _ _ _
    | with_reducible apply Keep.foldl_snd <;> try intro _ _ _
    | with_reducible refine Keep.of_snd ‹_ = (_, _)› ?_
    | with_reducible refine Keep.of_snd2 ‹_ = (_, _, _)› ?_
    | with_reducible apply Keep.of_id
    | split
    | dsimp only

theorem State.baFlush_keep {m : Nat} {s0 : State} (s : State) (a1 : _) (hm : subMask 37814641 m = true) (h : Keep m s0 s) : Keep m s0 (State.baFlush s a1) := by
  refine Keep.lift (f := 37814641) ?_ hm h
  unfold State.baFlush
  repeat' first
    | exact rfl
    | with_reducible exact Keep.refl _ _
    | with_reducible assumption
    | with_reducible apply State.wacUpd_keep
    | with_reducible apply State.baMove_keep
    | with_reducible apply Keep.ite <;> intro _
    | with_reducible apply Keep.foldl <;> try intro _ _ _
    | with_reducible apply Keep.foldl_snd <;> try intro _ _ _
    | with_reducible refine Keep.of_snd ‹_ = (_, _)› ?_
    | with_reducible refine Keep.of_snd2 ‹_ = (_, _, _)› ?_
    | with_reducible apply Keep.of_id
    | split
    | dsimp only

theorem State.rxToSoftware_keep {m : Nat} {s0 : State} (s : State) (a1 : _) (a2 : _) (a3 : _) (a4 : _) (hm : subMask 4260209 m = true) (h : Keep m s0 s) : Keep m s0 (State.rxToSoftware s a1 a2 a3 a4) := by
  refine Keep.lift (f := 4260209) ?_ hm h
  unfold State.rxToSoftware
  repeat' first
    | exact rfl
    | with_reducible exact Keep.refl _ _
    | with_reducible assumption
    | with_reducible apply State.bufAlloc_keep
    | with_reducible apply State.mrxWrite_keep
    | with_reducible apply State.memPut_keep
    | with_reducible apply State.inc_keep
    | with_reducible apply Keep.ite <;> intro _
    | with_reducible apply Keep.foldl <;> try intro _ _ _
    | with_reducible apply Keep.foldl_snd <;> try intro _ _ _
    | with_reducible refine Keep.of_snd ‹_ = (_, _)› ?_
    | with_reducible refine Keep.of_snd2 ‹_ = (_, _, _)› ?_
    | with_reducible apply Keep.of_id
    | split
    | dsimp only

theorem State.rxOpen_keep {m : Nat} {s0 : State} (s : State) (a1 : _) (a2 : _) (hm : subMask 33072 m = true) (h : Keep m s0 s) : Keep m s0 (State.rxOpen s a1 a2).2 := by
  refine Keep.lift (f := 33072) ?_ hm h
  unfold State.rxOpen
  repeat' first
    | exact rfl
    | with_reducible exact Keep.refl _ _
    | with_reducible assumption
    | with_reducible apply State.useKey_keep
    | with_reducible apply Keep.ite <;> intro _
    | with_reducible apply Keep.foldl <;> try intro _ _ _
    | with_reducible apply Keep.foldl_snd <;> try intro _ _ _
    | with_reducible refine Keep.of_snd ‹_ = (_, _)› ?_
    | with_reducible refine Keep.of_snd2 ‹_ = (_, _, _)› ?_
    | with_reducible apply Keep.of_id
    | split
    | dsimp only

theorem State.baMark_keep {m : Nat} {s0 : State} (s : State) (a1 : _) (hm : subMask 4194304 m = true) (h : Keep m s0 s) : Keep m s0 (State.baMark s a1) := by
  refine Keep.lift (f := 4194304) ?_ hm h
  unfold State.baMark
  repeat' first
    | exact rfl
    | with_reducible exact Keep.refl _ _
    | with_reducible assumption
    | with_reducible apply State.wacUpd_keep
    | with_reducible apply Keep.ite <;> intro _
    | with_reducible apply Keep.foldl <;> try intro _ _ _
    | with_reducible apply Keep.foldl_snd <;> try intro _ _ _
    | with_reducible refine Keep.of_snd ‹_ = (_, _)› ?_
    | with_reducible refine Keep.of_snd2 ‹_ = (_, _, _)› ?_
    | with_reducible apply Keep.of_id
    | split
    | dsimp only

theorem State.ackMake_keep {m : Nat} {s0 : State} (s : State) (a1 : _) (a2 : _) (hm : subMask 4194304 m = true) (h : Keep m s0 s) : Keep m s0 (State.ackMake s a1 a2) := by
  refine Keep.lift (f := 4194304) ?_ hm h
  unfold State.ackMake
  repeat' first
    | exact rfl
    | with_reducible exact Keep.refl _ _
    | with_reducible assumption
    | with_reducible apply State.wlinkUpd_keep
    | with_reducible apply State.wacUpd_keep
    | with_reducible apply Keep.ite <;> intro _
    | with_reducible apply Keep.foldl <;> try intro _ _ _
    | with_reducible apply Keep.foldl_snd <;> try intro _ _ _
    | with_reducible refine Keep.of_snd ‹_ = (_, _)› ?_
    | with_reducible refine Keep.of_snd2 ‹_ = (_, _, _)› ?_
    | with_reducible apply Keep.of_id
    | split
    | dsimp only

theorem State.mpduIn_keep {m : Nat} {s0 : State} (s : State) (a1 : _) (a2 : _) (a3 : _) (a4 : _) (hm : subMask 37847409 m = true) (h : Keep m s0 s) : Keep m s0 (State.mpduIn s a1 a2 a3 a4) := by
  refine Keep.lift (f := 37847409) ?_ hm h
  unfold State.mpduIn
  repeat' first
    | exact rfl
    | with_reducible exact Keep.refl _ _
    | with_reducible assumption
    | with_reducible apply State.rxOpen_keep
    | with_reducible apply State.raise_keep
    | with_reducible apply State.inc_keep
    | with_reducible apply State.rxToSoftware_keep
    | with_reducible apply State.wacUpd_keep
    | with_reducible apply State.bufAlloc_keep
    | with_reducible apply State.memPut_keep
    | with_reducible apply State.baReceive_keep
    | with_reducible apply State.wacUpward_keep
    | with_reducible apply Keep.ite <;> intro _
    | with_reducible apply Keep.foldl <;> try intro _ _ _
    | with_reducible apply Keep.foldl_snd <;> try intro _ _ _
    | with_reducible refine Keep.of_snd ‹_ = (_, _)› ?_
    | with_reducible refine Keep.of_snd2 ‹_ = (_, _, _)› ?_
    | with_reducible apply Keep.of_id
    | split
    | dsimp only

theorem State.staClear_keep {m : Nat} {s0 : State} (s : State) (a1 : _) (hm : subMask 38863217 m = true) (h : Keep m s0 s) : Keep m s0 (State.staClear s a1) := by
  refine Keep.lift (f := 38863217) ?_ hm h
  unfold State.staClear
  repeat' first
    | exact rfl
    | with_reducible exact Keep.refl _ _
    | with_reducible assumption
    | with_reducible apply State.setWtbl_keep
    | with_reducible apply State.baFlush_keep
    | with_reducible apply State.duesTidy_keep
    | with_reducible apply State.framesEnd_keep
    | with_reducible apply State.wacUpd_keep
    | with_reducible apply Keep.ite <;> intro _
    | with_reducible apply Keep.foldl <;> try intro _ _ _
    | with_reducible apply Keep.foldl_snd <;> try intro _ _ _
    | with_reducible refine Keep.of_snd ‹_ = (_, _)› ?_
    | with_reducible refine Keep.of_snd2 ‹_ = (_, _, _)› ?_
    | with_reducible apply Keep.of_id
    | split
    | dsimp only

theorem State.entryPut_keep {m : Nat} {s0 : State} (s : State) (a1 : _) (a2 : _) (a3 : _) (hm : subMask 37814641 m = true) (h : Keep m s0 s) : Keep m s0 (State.entryPut s a1 a2 a3) := by
  refine Keep.lift (f := 37814641) ?_ hm h
  unfold State.entryPut
  repeat' first
    | exact rfl
    | with_reducible exact Keep.refl _ _
    | with_reducible assumption
    | with_reducible apply State.baFlush_keep
    | with_reducible apply State.setWtbl_keep
    | with_reducible apply State.wacUpd_keep
    | with_reducible apply Keep.ite <;> intro _
    | with_reducible apply Keep.foldl <;> try intro _ _ _
    | with_reducible apply Keep.foldl_snd <;> try intro _ _ _
    | with_reducible refine Keep.of_snd ‹_ = (_, _)› ?_
    | with_reducible refine Keep.of_snd2 ‹_ = (_, _, _)› ?_
    | with_reducible apply Keep.of_id
    | split
    | dsimp only

theorem State.entryClear_keep {m : Nat} {s0 : State} (s : State) (a1 : _) (a2 : _) (hm : subMask 38863217 m = true) (h : Keep m s0 s) : Keep m s0 (State.entryClear s a1 a2) := by
  refine Keep.lift (f := 38863217) ?_ hm h
  unfold State.entryClear
  repeat' first
    | exact rfl
    | with_reducible exact Keep.refl _ _
    | with_reducible assumption
    | with_reducible apply State.setWtbl_keep
    | with_reducible apply State.staClear_keep
    | with_reducible apply State.baFlush_keep
    | with_reducible apply Keep.ite <;> intro _
    | with_reducible apply Keep.foldl <;> try intro _ _ _
    | with_reducible apply Keep.foldl_snd <;> try intro _ _ _
    | with_reducible refine Keep.of_snd ‹_ = (_, _)› ?_
    | with_reducible refine Keep.of_snd2 ‹_ = (_, _, _)› ?_
    | with_reducible apply Keep.of_id
    | split
    | dsimp only

theorem State.wacOp_keep {m : Nat} {s0 : State} (s : State) (a1 : _) (hm : subMask 38863217 m = true) (h : Keep m s0 s) : Keep m s0 (State.wacOp s a1) := by
  refine Keep.lift (f := 38863217) ?_ hm h
  unfold State.wacOp
  repeat' first
    | exact rfl
    | with_reducible exact Keep.refl _ _
    | with_reducible assumption
    | with_reducible apply State.commit_keep
    | with_reducible apply State.setWacWin_keep
    | with_reducible apply State.wacPause_keep
    | with_reducible apply State.pathsCheck_keep
    | with_reducible apply State.entryPut_keep
    | with_reducible apply State.entryClear_keep
    | with_reducible apply Keep.ite <;> intro _
    | with_reducible apply Keep.foldl <;> try intro _ _ _
    | with_reducible apply Keep.foldl_snd <;> try intro _ _ _
    | with_reducible refine Keep.of_snd ‹_ = (_, _)› ?_
    | with_reducible refine Keep.of_snd2 ‹_ = (_, _, _)› ?_
    | with_reducible apply Keep.of_id
    | split
    | dsimp only

theorem State.afcDone_keep {m : Nat} {s0 : State} (s : State) (a1 : _) (hm : subMask 304 m = true) (h : Keep m s0 s) : Keep m s0 (State.afcDone s a1) := by
  refine Keep.lift (f := 304) ?_ hm h
  unfold State.afcDone
  repeat' first
    | exact rfl
    | with_reducible exact Keep.refl _ _
    | with_reducible assumption
    | with_reducible apply State.raise_keep
    | with_reducible apply State.commit_keep
    | with_reducible apply Keep.ite <;> intro _
    | with_reducible apply Keep.foldl <;> try intro _ _ _
    | with_reducible apply Keep.foldl_snd <;> try intro _ _ _
    | with_reducible refine Keep.of_snd ‹_ = (_, _)› ?_
    | with_reducible refine Keep.of_snd2 ‹_ = (_, _, _)› ?_
    | with_reducible apply Keep.of_id
    | split
    | dsimp only

theorem State.afcInstall_keep {m : Nat} {s0 : State} (s : State) (a1 : _) (hm : subMask 1048880 m = true) (h : Keep m s0 s) : Keep m s0 (State.afcInstall s a1) := by
  refine Keep.lift (f := 1048880) ?_ hm h
  unfold State.afcInstall
  repeat' first
    | exact rfl
    | with_reducible exact Keep.refl _ _
    | with_reducible assumption
    | with_reducible apply State.afcDone_keep
    | with_reducible apply State.radUpd_keep
    | with_reducible apply Keep.ite <;> intro _
    | with_reducible apply Keep.foldl <;> try intro _ _ _
    | with_reducible apply Keep.foldl_snd <;> try intro _ _ _
    | with_reducible refine Keep.of_snd ‹_ = (_, _)› ?_
    | with_reducible refine Keep.of_snd2 ‹_ = (_, _, _)› ?_
    | with_reducible apply Keep.of_id
    | split
    | dsimp only

theorem State.afcOp_keep {m : Nat} {s0 : State} (s : State) (a1 : _) (hm : subMask 1048880 m = true) (h : Keep m s0 s) : Keep m s0 (State.afcOp s a1) := by
  refine Keep.lift (f := 1048880) ?_ hm h
  unfold State.afcOp
  repeat' first
    | exact rfl
    | with_reducible exact Keep.refl _ _
    | with_reducible assumption
    | with_reducible apply State.afcDone_keep
    | with_reducible apply State.radUpd_keep
    | with_reducible apply Keep.ite <;> intro _
    | with_reducible apply Keep.foldl <;> try intro _ _ _
    | with_reducible apply Keep.foldl_snd <;> try intro _ _ _
    | with_reducible refine Keep.of_snd ‹_ = (_, _)› ?_
    | with_reducible refine Keep.of_snd2 ‹_ = (_, _, _)› ?_
    | with_reducible apply Keep.of_id
    | split
    | dsimp only

theorem State.afcTick_keep {m : Nat} {s0 : State} (s : State) (hm : subMask 1048880 m = true) (h : Keep m s0 s) : Keep m s0 (State.afcTick s) := by
  refine Keep.lift (f := 1048880) ?_ hm h
  unfold State.afcTick
  repeat' first
    | exact rfl
    | with_reducible exact Keep.refl _ _
    | with_reducible assumption
    | with_reducible apply State.afcInstall_keep
    | with_reducible apply State.radUpd_keep
    | with_reducible apply Keep.ite <;> intro _
    | with_reducible apply Keep.foldl <;> try intro _ _ _
    | with_reducible apply Keep.foldl_snd <;> try intro _ _ _
    | with_reducible refine Keep.of_snd ‹_ = (_, _)› ?_
    | with_reducible refine Keep.of_snd2 ‹_ = (_, _, _)› ?_
    | with_reducible apply Keep.of_id
    | split
    | dsimp only

theorem wrWac_keep {m : Nat} {s0 : State} (a0 : _) (a1 : _) (a2 : _) (a3 : _) (s : State) (hm : subMask 38863217 m = true) (h : Keep m s0 s) : Keep m s0 (wrWac a0 a1 a2 a3 s) := by
  refine Keep.lift (f := 38863217) ?_ hm h
  unfold wrWac
  repeat' first
    | exact rfl
    | with_reducible exact Keep.refl _ _
    | with_reducible assumption
    | with_reducible apply State.wacOp_keep
    | with_reducible apply State.pendResult_keep
    | with_reducible apply State.bufFree_keep
    | with_reducible apply storeWord_keep
    | with_reducible apply State.wacUpd_keep
    | with_reducible apply State.afcOp_keep
    | with_reducible apply State.wacPause_keep
    | with_reducible apply State.wacLine_keep
    | with_reducible apply State.wlinksStop_keep
    | with_reducible apply Keep.ite <;> intro _
    | with_reducible apply Keep.foldl <;> try intro _ _ _
    | with_reducible apply Keep.foldl_snd <;> try intro _ _ _
    | with_reducible refine Keep.of_snd ‹_ = (_, _)› ?_
    | with_reducible refine Keep.of_snd2 ‹_ = (_, _, _)› ?_
    | with_reducible apply Keep.of_id
    | split
    | dsimp only

theorem rdWac_keep {m : Nat} {s0 : State} (a0 : _) (a1 : _) (a2 : _) (s : State) (hm : subMask 4194608 m = true) (h : Keep m s0 s) : Keep m s0 (rdWac a0 a1 a2 s).2 := by
  refine Keep.lift (f := 4194608) ?_ hm h
  unfold rdWac
  repeat' first
    | exact rfl
    | with_reducible exact Keep.refl _ _
    | with_reducible assumption
    | with_reducible apply loadWord_keep
    | with_reducible apply State.wacUpd_keep
    | with_reducible apply Keep.ite <;> intro _
    | with_reducible apply Keep.foldl <;> try intro _ _ _
    | with_reducible apply Keep.foldl_snd <;> try intro _ _ _
    | with_reducible refine Keep.of_snd ‹_ = (_, _)› ?_
    | with_reducible refine Keep.of_snd2 ‹_ = (_, _, _)› ?_
    | with_reducible apply Keep.of_id
    | split
    | dsimp only

theorem execWacTableLoad_keep (a0 : _) (s : State) {t : State} (h : execWacTableLoad a0 s = .next t) : Keep 38863731 s t := by
  unfold execWacTableLoad at h
  injection h with h
  subst h
  repeat' first
    | exact rfl
    | with_reducible exact Keep.refl _ _
    | with_reducible assumption
    | with_reducible refine writeReg_keep _ _ _ _ _ _ _ (fun _ _ _ _ _ _ => ?_) ?_ ?_
    | with_reducible apply wrWac_keep
    | with_reducible apply Keep.ite <;> intro _
    | with_reducible apply Keep.foldl <;> try intro _ _ _
    | with_reducible apply Keep.foldl_snd <;> try intro _ _ _
    | with_reducible refine Keep.of_snd ‹_ = (_, _)› ?_
    | with_reducible refine Keep.of_snd2 ‹_ = (_, _, _)› ?_
    | with_reducible apply Keep.of_id
    | split
    | dsimp only

theorem execWacTableCommit_keep (a0 : _) (s : State) {t : State} (h : execWacTableCommit a0 s = .next t) : Keep 38863731 s t := by
  unfold execWacTableCommit at h
  injection h with h
  subst h
  repeat' first
    | exact rfl
    | with_reducible exact Keep.refl _ _
    | with_reducible assumption
    | with_reducible refine writeReg_keep _ _ _ _ _ _ _ (fun _ _ _ _ _ _ => ?_) ?_ ?_
    | with_reducible apply wrWac_keep
    | with_reducible apply Keep.ite <;> intro _
    | with_reducible apply Keep.foldl <;> try intro _ _ _
    | with_reducible apply Keep.foldl_snd <;> try intro _ _ _
    | with_reducible refine Keep.of_snd ‹_ = (_, _)› ?_
    | with_reducible refine Keep.of_snd2 ‹_ = (_, _, _)› ?_
    | with_reducible apply Keep.of_id
    | split
    | dsimp only

theorem execWacTableClear_keep (a0 : _) (s : State) {t : State} (h : execWacTableClear a0 s = .next t) : Keep 38863731 s t := by
  unfold execWacTableClear at h
  injection h with h
  subst h
  repeat' first
    | exact rfl
    | with_reducible exact Keep.refl _ _
    | with_reducible assumption
    | with_reducible refine writeReg_keep _ _ _ _ _ _ _ (fun _ _ _ _ _ _ => ?_) ?_ ?_
    | with_reducible apply wrWac_keep
    | with_reducible apply Keep.ite <;> intro _
    | with_reducible apply Keep.foldl <;> try intro _ _ _
    | with_reducible apply Keep.foldl_snd <;> try intro _ _ _
    | with_reducible refine Keep.of_snd ‹_ = (_, _)› ?_
    | with_reducible refine Keep.of_snd2 ‹_ = (_, _, _)› ?_
    | with_reducible apply Keep.of_id
    | split
    | dsimp only

theorem execTbtt_keep (a0 : _) (s : State) {t : State} (h : execTbtt a0 s = .next t) : Keep 5308785 s t := by
  unfold execTbtt at h
  injection h with h
  subst h
  repeat' first
    | exact rfl
    | with_reducible exact Keep.refl _ _
    | with_reducible assumption
    | with_reducible apply State.dueTidy_keep
    | with_reducible apply State.inc_keep
    | with_reducible apply State.frameEnd_keep
    | with_reducible apply State.frameAdd_keep
    | with_reducible apply State.wlinkUpd_keep
    | with_reducible apply Keep.ite <;> intro _
    | with_reducible apply Keep.foldl <;> try intro _ _ _
    | with_reducible apply Keep.foldl_snd <;> try intro _ _ _
    | with_reducible refine Keep.of_snd ‹_ = (_, _)› ?_
    | with_reducible refine Keep.of_snd2 ‹_ = (_, _, _)› ?_
    | with_reducible apply Keep.of_id
    | split
    | dsimp only

theorem execFrameLifetime_keep (a0 : _) (s : State) {t : State} (h : execFrameLifetime a0 s = .next t) : Keep 5308785 s t := by
  unfold execFrameLifetime at h
  injection h with h
  subst h
  repeat' first
    | exact rfl
    | with_reducible exact Keep.refl _ _
    | with_reducible assumption
    | with_reducible apply State.duesTidy_keep
    | with_reducible apply State.frameEnd_keep
    | with_reducible apply Keep.ite <;> intro _
    | with_reducible apply Keep.foldl <;> try intro _ _ _
    | with_reducible apply Keep.foldl_snd <;> try intro _ _ _
    | with_reducible refine Keep.of_snd ‹_ = (_, _)› ?_
    | with_reducible refine Keep.of_snd2 ‹_ = (_, _, _)› ?_
    | with_reducible apply Keep.of_id
    | split
    | dsimp only

theorem execEdcaBackoffExpiry_keep (a0 : _) (a1 : _) (a2 : _) (a3 : _) (s : State) {t : State} (h : execEdcaBackoffExpiry a0 a1 a2 a3 s = .next t) : Keep 4292977 s t := by
  unfold execEdcaBackoffExpiry at h
  injection h with h
  subst h
  repeat' first
    | exact rfl
    | with_reducible exact Keep.refl _ _
    | with_reducible assumption
    | with_reducible apply State.sentLapse_keep
    | with_reducible apply State.schedule_keep
    | with_reducible apply State.wlinkUpd_keep
    | with_reducible apply Keep.ite <;> intro _
    | with_reducible apply Keep.foldl <;> try intro _ _ _
    | with_reducible apply Keep.foldl_snd <;> try intro _ _ _
    | with_reducible refine Keep.of_snd ‹_ = (_, _)› ?_
    | with_reducible refine Keep.of_snd2 ‹_ = (_, _, _)› ?_
    | with_reducible apply Keep.of_id
    | split
    | dsimp only

theorem State.triggerDue_keep {m : Nat} {s0 : State} (s : State) (a1 : _) (a2 : _) (a3 : _) (a4 : _) (hm : subMask 4194304 m = true) (h : Keep m s0 s) : Keep m s0 (State.triggerDue s a1 a2 a3 a4) := by
  refine Keep.lift (f := 4194304) ?_ hm h
  unfold State.triggerDue
  repeat' first
    | exact rfl
    | with_reducible exact Keep.refl _ _
    | with_reducible assumption
    | with_reducible apply State.wacUpd_keep
    | with_reducible apply State.ppduDue_keep
    | with_reducible apply Keep.ite <;> intro _
    | with_reducible apply Keep.foldl <;> try intro _ _ _
    | with_reducible apply Keep.foldl_snd <;> try intro _ _ _
    | with_reducible refine Keep.of_snd ‹_ = (_, _)› ?_
    | with_reducible refine Keep.of_snd2 ‹_ = (_, _, _)› ?_
    | with_reducible apply Keep.of_id
    | split
    | dsimp only

theorem execBsrpTrigger_keep (a0 : _) (a1 : _) (s : State) {t : State} (h : execBsrpTrigger a0 a1 s = .next t) : Keep 4194304 s t := by
  unfold execBsrpTrigger at h
  injection h with h
  subst h
  repeat' first
    | exact rfl
    | with_reducible exact Keep.refl _ _
    | with_reducible assumption
    | with_reducible apply State.triggerDue_keep
    | with_reducible apply State.wlinkUpd_keep
    | with_reducible apply Keep.ite <;> intro _
    | with_reducible apply Keep.foldl <;> try intro _ _ _
    | with_reducible apply Keep.foldl_snd <;> try intro _ _ _
    | with_reducible refine Keep.of_snd ‹_ = (_, _)› ?_
    | with_reducible refine Keep.of_snd2 ‹_ = (_, _, _)› ?_
    | with_reducible apply Keep.of_id
    | split
    | dsimp only

theorem execWacBsrPop_keep (a0 : _) (s : State) {t : State} (h : execWacBsrPop a0 s = .next t) : Keep 4195122 s t := by
  unfold execWacBsrPop at h
  injection h with h
  subst h
  repeat' first
    | exact rfl
    | with_reducible exact Keep.refl _ _
    | with_reducible assumption
    | with_reducible refine readReg_keep _ _ _ _ _ _ (fun _ _ _ _ _ => ?_) ?_ ?_
    | with_reducible apply rdWac_keep
    | with_reducible apply Keep.ite <;> intro _
    | with_reducible apply Keep.foldl <;> try intro _ _ _
    | with_reducible apply Keep.foldl_snd <;> try intro _ _ _
    | with_reducible refine Keep.of_snd ‹_ = (_, _)› ?_
    | with_reducible refine Keep.of_snd2 ‹_ = (_, _, _)› ?_
    | with_reducible apply Keep.of_id
    | split
    | dsimp only

theorem execTwtSpStart_keep (a0 : _) (a1 : _) (s : State) {t : State} (h : execTwtSpStart a0 a1 s = .next t) : Keep 4194304 s t := by
  unfold execTwtSpStart at h
  injection h with h
  subst h
  repeat' first
    | exact rfl
    | with_reducible exact Keep.refl _ _
    | with_reducible assumption
    | with_reducible apply State.wlinkUpd_keep
    | with_reducible apply State.triggerDue_keep
    | with_reducible apply Keep.ite <;> intro _
    | with_reducible apply Keep.foldl <;> try intro _ _ _
    | with_reducible apply Keep.foldl_snd <;> try intro _ _ _
    | with_reducible refine Keep.of_snd ‹_ = (_, _)› ?_
    | with_reducible refine Keep.of_snd2 ‹_ = (_, _, _)› ?_
    | with_reducible apply Keep.of_id
    | split
    | dsimp only

theorem execTwtTriggerRepeat_keep (a0 : _) (a1 : _) (s : State) {t : State} (h : execTwtTriggerRepeat a0 a1 s = .next t) : Keep 4194304 s t := by
  unfold execTwtTriggerRepeat at h
  injection h with h
  subst h
  repeat' first
    | exact rfl
    | with_reducible exact Keep.refl _ _
    | with_reducible assumption
    | with_reducible apply State.triggerDue_keep
    | with_reducible apply Keep.ite <;> intro _
    | with_reducible apply Keep.foldl <;> try intro _ _ _
    | with_reducible apply Keep.foldl_snd <;> try intro _ _ _
    | with_reducible refine Keep.of_snd ‹_ = (_, _)› ?_
    | with_reducible refine Keep.of_snd2 ‹_ = (_, _, _)› ?_
    | with_reducible apply Keep.of_id
    | split
    | dsimp only

theorem State.twtTeardown_keep {m : Nat} {s0 : State} (s : State) (a1 : _) (hm : subMask 4194608 m = true) (h : Keep m s0 s) : Keep m s0 (State.twtTeardown s a1) := by
  refine Keep.lift (f := 4194608) ?_ hm h
  unfold State.twtTeardown
  repeat' first
    | exact rfl
    | with_reducible exact Keep.refl _ _
    | with_reducible assumption
    | with_reducible apply State.setWfld_keep
    | with_reducible apply State.raise_keep
    | with_reducible apply State.inc_keep
    | with_reducible apply State.frameAdd_keep
    | with_reducible apply Keep.ite <;> intro _
    | with_reducible apply Keep.foldl <;> try intro _ _ _
    | with_reducible apply Keep.foldl_snd <;> try intro _ _ _
    | with_reducible refine Keep.of_snd ‹_ = (_, _)› ?_
    | with_reducible refine Keep.of_snd2 ‹_ = (_, _, _)› ?_
    | with_reducible apply Keep.of_id
    | split
    | dsimp only

theorem execTwtWindowClose_keep (a0 : _) (s : State) {t : State} (h : execTwtWindowClose a0 s = .next t) : Keep 4194608 s t := by
  unfold execTwtWindowClose at h
  injection h with h
  subst h
  repeat' first
    | exact rfl
    | with_reducible exact Keep.refl _ _
    | with_reducible assumption
    | with_reducible apply State.wacUpd_keep
    | with_reducible apply State.setWfld_keep
    | with_reducible apply State.inc_keep
    | with_reducible apply State.twtTeardown_keep
    | with_reducible apply Keep.ite <;> intro _
    | with_reducible apply Keep.foldl <;> try intro _ _ _
    | with_reducible apply Keep.foldl_snd <;> try intro _ _ _
    | with_reducible refine Keep.of_snd ‹_ = (_, _)› ?_
    | with_reducible refine Keep.of_snd2 ‹_ = (_, _, _)› ?_
    | with_reducible apply Keep.of_id
    | split
    | dsimp only

theorem State.ackIn_keep {m : Nat} {s0 : State} (s : State) (a1 : _) (a2 : _) (hm : subMask 4260209 m = true) (h : Keep m s0 s) : Keep m s0 (State.ackIn s a1 a2) := by
  refine Keep.lift (f := 4260209) ?_ hm h
  unfold State.ackIn
  repeat' first
    | exact rfl
    | with_reducible exact Keep.refl _ _
    | with_reducible assumption
    | with_reducible apply State.frameEnd_keep
    | with_reducible apply State.frameRetry_keep
    | with_reducible apply State.twtEosp_keep
    | with_reducible apply State.wlinkUpd_keep
    | with_reducible apply Keep.ite <;> intro _
    | with_reducible apply Keep.foldl <;> try intro _ _ _
    | with_reducible apply Keep.foldl_snd <;> try intro _ _ _
    | with_reducible refine Keep.of_snd ‹_ = (_, _)› ?_
    | with_reducible refine Keep.of_snd2 ‹_ = (_, _, _)› ?_
    | with_reducible apply Keep.of_id
    | split
    | dsimp only

theorem execMpduReceive_keep (a0 : _) (a1 : _) (a2 : _) (a3 : _) (s : State) {t : State} (h : execMpduReceive a0 a1 a2 a3 s = .next t) : Keep 39944561 s t := by
  unfold execMpduReceive at h
  injection h with h
  subst h
  repeat' first
    | exact rfl
    | with_reducible exact Keep.refl _ _
    | with_reducible assumption
    | with_reducible apply State.phyUpd_keep
    | with_reducible apply State.staHeard_keep
    | with_reducible apply State.setWfld_keep
    | with_reducible apply State.wacUpd_keep
    | with_reducible apply State.bufReport_keep
    | with_reducible apply State.wlinkUpd_keep
    | with_reducible apply State.ackIn_keep
    | with_reducible apply State.ackMake_keep
    | with_reducible apply State.baMark_keep
    | with_reducible apply State.mpduIn_keep
    | with_reducible apply Keep.ite <;> intro _
    | with_reducible apply Keep.foldl <;> try intro _ _ _
    | with_reducible apply Keep.foldl_snd <;> try intro _ _ _
    | with_reducible refine Keep.of_snd ‹_ = (_, _)› ?_
    | with_reducible refine Keep.of_snd2 ‹_ = (_, _, _)› ?_
    | with_reducible apply Keep.of_id
    | split
    | dsimp only

theorem execReorderTimeout_keep (a0 : _) (s : State) {t : State} (h : execReorderTimeout a0 s = .next t) : Keep 37814641 s t := by
  unfold execReorderTimeout at h
  injection h with h
  subst h
  repeat' first
    | exact rfl
    | with_reducible exact Keep.refl _ _
    | with_reducible assumption
    | with_reducible apply State.inc_keep
    | with_reducible apply State.baMove_keep
    | with_reducible apply Keep.ite <;> intro _
    | with_reducible apply Keep.foldl <;> try intro _ _ _
    | with_reducible apply Keep.foldl_snd <;> try intro _ _ _
    | with_reducible refine Keep.of_snd ‹_ = (_, _)› ?_
    | with_reducible refine Keep.of_snd2 ‹_ = (_, _, _)› ?_
    | with_reducible apply Keep.of_id
    | split
    | dsimp only

theorem State.launchDue_keep {m : Nat} {s0 : State} (s : State) (a1 : _) (a2 : _) (a3 : _) (a4 : _) (hm : subMask 4292977 m = true) (h : Keep m s0 s) : Keep m s0 (State.launchDue s a1 a2 a3 a4) := by
  refine Keep.lift (f := 4292977) ?_ hm h
  unfold State.launchDue
  repeat' first
    | exact rfl
    | with_reducible exact Keep.refl _ _
    | with_reducible assumption
    | with_reducible apply State.mtxComplete_keep
    | with_reducible apply State.inc_keep
    | with_reducible apply State.frameTake_keep
    | with_reducible apply State.wacUpd_keep
    | with_reducible apply State.frameAdd_keep
    | with_reducible apply State.ppduDue_keep
    | with_reducible apply State.frameEnd_keep
    | with_reducible apply Keep.ite <;> intro _
    | with_reducible apply Keep.foldl <;> try intro _ _ _
    | with_reducible apply Keep.foldl_snd <;> try intro _ _ _
    | with_reducible refine Keep.of_snd ‹_ = (_, _)› ?_
    | with_reducible refine Keep.of_snd2 ‹_ = (_, _, _)› ?_
    | with_reducible apply Keep.of_id
    | split
    | dsimp only

theorem execMtxDescriptorFetch_keep (a0 : _) (s : State) {t : State} (h : execMtxDescriptorFetch a0 s = .next t) : Keep 4293489 s t := by
  unfold execMtxDescriptorFetch at h
  injection h with h
  subst h
  repeat' first
    | exact rfl
    | with_reducible exact Keep.refl _ _
    | with_reducible assumption
    | with_reducible apply State.memRead_keep
    | with_reducible apply State.set_keep
    | with_reducible apply State.mtxComplete_keep
    | with_reducible apply State.capture_keep
    | with_reducible apply State.launchDue_keep
    | with_reducible apply State.frameAdd_keep
    | with_reducible apply Keep.ite <;> intro _
    | with_reducible apply Keep.foldl <;> try intro _ _ _
    | with_reducible apply Keep.foldl_snd <;> try intro _ _ _
    | with_reducible refine Keep.of_snd ‹_ = (_, _)› ?_
    | with_reducible refine Keep.of_snd2 ‹_ = (_, _, _)› ?_
    | with_reducible apply Keep.of_id
    | split
    | dsimp only

theorem execWacMtxCplPop_keep (a0 : _) (s : State) {t : State} (h : execWacMtxCplPop a0 s = .next t) : Keep 4195122 s t := by
  unfold execWacMtxCplPop at h
  injection h with h
  subst h
  repeat' first
    | exact rfl
    | with_reducible exact Keep.refl _ _
    | with_reducible assumption
    | with_reducible refine readReg_keep _ _ _ _ _ _ (fun _ _ _ _ _ => ?_) ?_ ?_
    | with_reducible apply rdWac_keep
    | with_reducible apply Keep.ite <;> intro _
    | with_reducible apply Keep.foldl <;> try intro _ _ _
    | with_reducible apply Keep.foldl_snd <;> try intro _ _ _
    | with_reducible refine Keep.of_snd ‹_ = (_, _)› ?_
    | with_reducible refine Keep.of_snd2 ‹_ = (_, _, _)› ?_
    | with_reducible apply Keep.of_id
    | split
    | dsimp only

theorem execWacMrxFree_keep (a0 : _) (a1 : _) (s : State) {t : State} (h : execWacMrxFree a0 a1 s = .next t) : Keep 38863731 s t := by
  unfold execWacMrxFree at h
  injection h with h
  subst h
  repeat' first
    | exact rfl
    | with_reducible exact Keep.refl _ _
    | with_reducible assumption
    | with_reducible refine writeReg_keep _ _ _ _ _ _ _ (fun _ _ _ _ _ _ => ?_) ?_ ?_
    | with_reducible apply wrWac_keep
    | with_reducible apply Keep.ite <;> intro _
    | with_reducible apply Keep.foldl <;> try intro _ _ _
    | with_reducible apply Keep.foldl_snd <;> try intro _ _ _
    | with_reducible refine Keep.of_snd ‹_ = (_, _)› ?_
    | with_reducible refine Keep.of_snd2 ‹_ = (_, _, _)› ?_
    | with_reducible apply Keep.of_id
    | split
    | dsimp only

theorem execQuietWindowCts_keep (a0 : _) (a1 : _) (a2 : _) (s : State) {t : State} (h : execQuietWindowCts a0 a1 a2 s = .next t) : Keep 4194608 s t := by
  unfold execQuietWindowCts at h
  injection h with h
  subst h
  repeat' first
    | exact rfl
    | with_reducible exact Keep.refl _ _
    | with_reducible assumption
    | with_reducible apply State.wacUpd_keep
    | with_reducible apply State.wlinkUpd_keep
    | with_reducible apply State.raise_keep
    | with_reducible apply State.inc_keep
    | with_reducible apply Keep.ite <;> intro _
    | with_reducible apply Keep.foldl <;> try intro _ _ _
    | with_reducible apply Keep.foldl_snd <;> try intro _ _ _
    | with_reducible refine Keep.of_snd ‹_ = (_, _)› ?_
    | with_reducible refine Keep.of_snd2 ‹_ = (_, _, _)› ?_
    | with_reducible apply Keep.of_id
    | split
    | dsimp only

theorem execAfcInstall_keep (a0 : _) (s : State) {t : State} (h : execAfcInstall a0 s = .next t) : Keep 38863731 s t := by
  unfold execAfcInstall at h
  injection h with h
  subst h
  repeat' first
    | exact rfl
    | with_reducible exact Keep.refl _ _
    | with_reducible assumption
    | with_reducible refine writeReg_keep _ _ _ _ _ _ _ (fun _ _ _ _ _ _ => ?_) ?_ ?_
    | with_reducible apply wrWac_keep
    | with_reducible apply Keep.ite <;> intro _
    | with_reducible apply Keep.foldl <;> try intro _ _ _
    | with_reducible apply Keep.foldl_snd <;> try intro _ _ _
    | with_reducible refine Keep.of_snd ‹_ = (_, _)› ?_
    | with_reducible refine Keep.of_snd2 ‹_ = (_, _, _)› ?_
    | with_reducible apply Keep.of_id
    | split
    | dsimp only

theorem execAfcClear_keep (a0 : _) (s : State) {t : State} (h : execAfcClear a0 s = .next t) : Keep 38863731 s t := by
  unfold execAfcClear at h
  injection h with h
  subst h
  repeat' first
    | exact rfl
    | with_reducible exact Keep.refl _ _
    | with_reducible assumption
    | with_reducible refine writeReg_keep _ _ _ _ _ _ _ (fun _ _ _ _ _ _ => ?_) ?_ ?_
    | with_reducible apply wrWac_keep
    | with_reducible apply Keep.ite <;> intro _
    | with_reducible apply Keep.foldl <;> try intro _ _ _
    | with_reducible apply Keep.foldl_snd <;> try intro _ _ _
    | with_reducible refine Keep.of_snd ‹_ = (_, _)› ?_
    | with_reducible refine Keep.of_snd2 ‹_ = (_, _, _)› ?_
    | with_reducible apply Keep.of_id
    | split
    | dsimp only

end Sys2Proof.Machine
end

