-- ==== Sys2Proof/Laws/KeepFhu.lean ====
section
/-! SUPPORT. What each operation of Machine/Fhu.lean leaves alone. -/

set_option Elab.async false

namespace Sys2Proof.Machine

theorem State.fhUpd_keep {m : Nat} {s0 : State} (s : State) (a1 : _) (hm : subMask 8388608 m = true) (h : Keep m s0 s) : Keep m s0 (State.fhUpd s a1) := by
  refine Keep.lift (f := 8388608) ?_ hm h
  unfold State.fhUpd
  repeat' first
    | exact rfl
    | with_reducible exact Keep.refl _ _
    | with_reducible assumption
    | with_reducible apply Keep.ite <;> intro _
    | with_reducible apply Keep.foldl <;> try intro _ _ _
    | with_reducible apply Keep.foldl_snd <;> try intro _ _ _
    | (rewrite [State.mk_eq_updOf]; (with_reducible refine Keep.node 8388608 ?_ ?_ ?_); · refine Keep.upd 8388608 ?_ ?_ ?_ ?_ ?_ (fun p hp => ?_); exact rfl; exact rfl; exact rfl; exact rfl; exact rfl; cases p <;> first | exact absurd hp (by decide) | exact rfl)
    | with_reducible refine Keep.of_snd ‹_ = (_, _)› ?_
    | with_reducible refine Keep.of_snd2 ‹_ = (_, _, _)› ?_
    | with_reducible apply Keep.of_id
    | split
    | dsimp only

theorem State.fhMark_keep {m : Nat} {s0 : State} (s : State) (a1 : _) (hm : subMask 8388880 m = true) (h : Keep m s0 s) : Keep m s0 (State.fhMark s a1) := by
  refine Keep.lift (f := 8388880) ?_ hm h
  unfold State.fhMark
  repeat' first
    | exact rfl
    | with_reducible exact Keep.refl _ _
    | with_reducible assumption
    | with_reducible apply State.fhUpd_keep
    | with_reducible apply State.raise_keep
    | with_reducible apply Keep.ite <;> intro _
    | with_reducible apply Keep.foldl <;> try intro _ _ _
    | with_reducible apply Keep.foldl_snd <;> try intro _ _ _
    | with_reducible refine Keep.of_snd ‹_ = (_, _)› ?_
    | with_reducible refine Keep.of_snd2 ‹_ = (_, _, _)› ?_
    | with_reducible apply Keep.of_id
    | split
    | dsimp only

theorem State.fhBad_keep {m : Nat} {s0 : State} (s : State) (a1 : _) (hm : subMask 8388912 m = true) (h : Keep m s0 s) : Keep m s0 (State.fhBad s a1) := by
  refine Keep.lift (f := 8388912) ?_ hm h
  unfold State.fhBad
  repeat' first
    | exact rfl
    | with_reducible exact Keep.refl _ _
    | with_reducible assumption
    | with_reducible apply State.fhMark_keep
    | with_reducible apply State.inc_keep
    | with_reducible apply Keep.ite <;> intro _
    | with_reducible apply Keep.foldl <;> try intro _ _ _
    | with_reducible apply Keep.foldl_snd <;> try intro _ _ _
    | with_reducible refine Keep.of_snd ‹_ = (_, _)› ?_
    | with_reducible refine Keep.of_snd2 ‹_ = (_, _, _)› ?_
    | with_reducible apply Keep.of_id
    | split
    | dsimp only

theorem State.fhLate_keep {m : Nat} {s0 : State} (s : State) (a1 : _) (hm : subMask 8388912 m = true) (h : Keep m s0 s) : Keep m s0 (State.fhLate s a1) := by
  refine Keep.lift (f := 8388912) ?_ hm h
  unfold State.fhLate
  repeat' first
    | exact rfl
    | with_reducible exact Keep.refl _ _
    | with_reducible assumption
    | with_reducible apply State.fhMark_keep
    | with_reducible apply State.inc_keep
    | with_reducible apply Keep.ite <;> intro _
    | with_reducible apply Keep.foldl <;> try intro _ _ _
    | with_reducible apply Keep.foldl_snd <;> try intro _ _ _
    | with_reducible refine Keep.of_snd ‹_ = (_, _)› ?_
    | with_reducible refine Keep.of_snd2 ‹_ = (_, _, _)› ?_
    | with_reducible apply Keep.of_id
    | split
    | dsimp only

theorem State.fhFree_keep {m : Nat} {s0 : State} (s : State) (a1 : _) (hm : subMask 8388608 m = true) (h : Keep m s0 s) : Keep m s0 (State.fhFree s a1) := by
  refine Keep.lift (f := 8388608) ?_ hm h
  unfold State.fhFree
  repeat' first
    | exact rfl
    | with_reducible exact Keep.refl _ _
    | with_reducible assumption
    | with_reducible apply State.fhUpd_keep
    | with_reducible apply Keep.ite <;> intro _
    | with_reducible apply Keep.foldl <;> try intro _ _ _
    | with_reducible apply Keep.foldl_snd <;> try intro _ _ _
    | with_reducible refine Keep.of_snd ‹_ = (_, _)› ?_
    | with_reducible refine Keep.of_snd2 ‹_ = (_, _, _)› ?_
    | with_reducible apply Keep.of_id
    | split
    | dsimp only

theorem State.fhFull_keep {m : Nat} {s0 : State} (s : State) (hm : subMask 8388912 m = true) (h : Keep m s0 s) : Keep m s0 (State.fhFull s) := by
  refine Keep.lift (f := 8388912) ?_ hm h
  unfold State.fhFull
  repeat' first
    | exact rfl
    | with_reducible exact Keep.refl _ _
    | with_reducible assumption
    | with_reducible apply State.fhUpd_keep
    | with_reducible apply State.inc_keep
    | with_reducible apply State.raise_keep
    | with_reducible apply Keep.ite <;> intro _
    | with_reducible apply Keep.foldl <;> try intro _ _ _
    | with_reducible apply Keep.foldl_snd <;> try intro _ _ _
    | with_reducible refine Keep.of_snd ‹_ = (_, _)› ?_
    | with_reducible refine Keep.of_snd2 ‹_ = (_, _, _)› ?_
    | with_reducible apply Keep.of_id
    | split
    | dsimp only

theorem State.fhSlot_keep {m : Nat} {s0 t : State} (s : State) (a1 : _) (a2 : _) (a3 : _) (a4 : _) {x : Nat} (e : State.fhSlot s a1 a2 a3 a4 = some (x, t)) (hm : subMask 8388608 m = true) (h : Keep m s0 s) : Keep m s0 t := by
  unfold State.fhSlot at e
  split at e
  · injection e with e; injection e with _ e; subst e; exact h
  · rw [Option.map_eq_some_iff] at e
    obtain ⟨i, -, e⟩ := e
    injection e with _ e
    subst e
    exact State.fhUpd_keep _ _ hm h

theorem State.fhStore_keep {m : Nat} {s0 : State} (s : State) (a1 : _) (a2 : _) (a3 : _) (a4 : _) (a5 : _) (a6 : _) (a7 : _) (hm : subMask 8454208 m = true) (h : Keep m s0 s) : Keep m s0 (State.fhStore s a1 a2 a3 a4 a5 a6 a7).2.2 := by
  induction a7 generalizing s a6 with
  | nil => unfold State.fhStore; exact h
  | cons b t ih =>
    unfold State.fhStore
    repeat' first
      | exact rfl
      | exact subMask_trans rfl hm
      | with_reducible apply ih
      | with_reducible exact Keep.refl _ _
      | with_reducible assumption
      | with_reducible refine State.fhSlot_keep  _ _ _ _ _ (by assumption) ?_ ?_
      | with_reducible apply State.memPut_keep
      | with_reducible apply State.fhUpd_keep
      | with_reducible apply Keep.ite <;> intro _
      | with_reducible apply Keep.foldl <;> try intro _ _ _
      | with_reducible apply Keep.foldl_snd <;> try intro _ _ _
      | with_reducible refine Keep.of_snd ‹_ = (_, _)› ?_
      | with_reducible refine Keep.of_snd2 ‹_ = (_, _, _)› ?_
      | with_reducible apply Keep.of_id
      | split
      | dsimp only

theorem State.fhUplane_keep {m : Nat} {s0 : State} (s : State) (a1 : _) (a2 : _) (a3 : _) (hm : subMask 8454512 m = true) (h : Keep m s0 s) : Keep m s0 (State.fhUplane s a1 a2 a3) := by
  refine Keep.lift (f := 8454512) ?_ hm h
  unfold State.fhUplane
  repeat' first
    | exact rfl
    | with_reducible exact Keep.refl _ _
    | with_reducible assumption
    | with_reducible apply State.fhBad_keep
    | with_reducible apply State.fhLate_keep
    | with_reducible apply State.fhStore_keep
    | with_reducible apply State.inc_keep
    | with_reducible apply State.fhFull_keep
    | with_reducible apply Keep.ite <;> intro _
    | with_reducible apply Keep.foldl <;> try intro _ _ _
    | with_reducible apply Keep.foldl_snd <;> try intro _ _ _
    | with_reducible refine Keep.of_snd ‹_ = (_, _)› ?_
    | with_reducible refine Keep.of_snd2 ‹_ = (_, _, _)› ?_
    | with_reducible apply Keep.of_id
    | split
    | dsimp only

theorem State.fhWrite_keep {m : Nat} {s0 : State} (s : State) (a1 : _) (a2 : _) (a3 : _) (hm : subMask 1114484 m = true) (h : Keep m s0 s) : Keep m s0 (State.fhWrite s a1 a2 a3) := by
  refine Keep.lift (f := 1114484) ?_ hm h
  unfold State.fhWrite
  refine Keep.foldl _ _ (Keep.ite (fun _ => State.inc_keep _ _ _ rfl (Keep.refl _ _)) (fun _ => Keep.refl _ _)) (fun t x ht => ?_)
  extract_lets k a t1 v
  have h1 : Keep 1114484 s t1 := State.memPut_keep _ _ _ rfl ht
  clear_value t1
  refine Keep.ite (fun _ => h1) (fun _ => Keep.ite (fun _ => ?_) (fun _ => wrArray_keep _ _ _ _ _ rfl h1))
  (rewrite [State.mk_eq_updOf]; (with_reducible refine Keep.node 4 ?_ ?_ ?_); · refine Keep.upd 4 ?_ ?_ ?_ ?_ ?_ (fun p hp => ?_); exact rfl; exact rfl; exact rfl; exact rfl; exact rfl; cases p <;> first | exact absurd hp (by decide) | exact rfl)
  exact rfl
  exact h1

theorem State.fhAccept_keep {m : Nat} {s0 : State} (s : State) (a1 : _) (hm : subMask 8388640 m = true) (h : Keep m s0 s) : Keep m s0 (State.fhAccept s a1) := by
  refine Keep.lift (f := 8388640) ?_ hm h
  unfold State.fhAccept
  repeat' first
    | exact rfl
    | with_reducible exact Keep.refl _ _
    | with_reducible assumption
    | with_reducible apply State.fhUpd_keep
    | with_reducible apply State.incBy_keep
    | with_reducible apply State.inc_keep
    | with_reducible apply Keep.ite <;> intro _
    | with_reducible apply Keep.foldl <;> try intro _ _ _
    | with_reducible apply Keep.foldl_snd <;> try intro _ _ _
    | with_reducible refine Keep.of_snd ‹_ = (_, _)› ?_
    | with_reducible refine Keep.of_snd2 ‹_ = (_, _, _)› ?_
    | with_reducible apply Keep.of_id
    | split
    | dsimp only

theorem State.fhSection_keep {m : Nat} {s0 : State} (s : State) (a1 : _) (a2 : _) (a3 : _) (a4 : _) (hm : subMask 9503092 m = true) (h : Keep m s0 s) : Keep m s0 (State.fhSection s a1 a2 a3 a4) := by
  refine Keep.lift (f := 9503092) ?_ hm h
  unfold State.fhSection
  repeat' first
    | exact rfl
    | with_reducible exact Keep.refl _ _
    | with_reducible assumption
    | with_reducible apply State.fhBad_keep
    | with_reducible apply State.inc_keep
    | with_reducible apply State.fhWrite_keep
    | with_reducible apply State.beamName_keep
    | with_reducible apply State.fhAccept_keep
    | with_reducible apply Keep.ite <;> intro _
    | with_reducible apply Keep.foldl <;> try intro _ _ _
    | with_reducible apply Keep.foldl_snd <;> try intro _ _ _
    | with_reducible refine Keep.of_snd ‹_ = (_, _)› ?_
    | with_reducible refine Keep.of_snd2 ‹_ = (_, _, _)› ?_
    | with_reducible apply Keep.of_id
    | split
    | dsimp only

theorem State.fhCplane_keep {m : Nat} {s0 : State} (s : State) (a1 : _) (a2 : _) (a3 : _) (hm : subMask 9503092 m = true) (h : Keep m s0 s) : Keep m s0 (State.fhCplane s a1 a2 a3) := by
  refine Keep.lift (f := 9503092) ?_ hm h
  unfold State.fhCplane
  repeat' first
    | exact rfl
    | with_reducible exact Keep.refl _ _
    | with_reducible assumption
    | with_reducible apply State.fhBad_keep
    | with_reducible apply State.fhLate_keep
    | with_reducible apply State.fhSection_keep
    | with_reducible apply State.inc_keep
    | with_reducible apply Keep.ite <;> intro _
    | with_reducible apply Keep.foldl <;> try intro _ _ _
    | with_reducible apply Keep.foldl_snd <;> try intro _ _ _
    | with_reducible refine Keep.of_snd ‹_ = (_, _)› ?_
    | with_reducible refine Keep.of_snd2 ‹_ = (_, _, _)› ?_
    | with_reducible apply Keep.of_id
    | split
    | dsimp only

theorem State.fhSend_keep {m : Nat} {s0 : State} (s : State) (a1 : _) (a2 : _) (a3 : _) (hm : subMask 16 m = true) (h : Keep m s0 s) : Keep m s0 (State.fhSend s a1 a2 a3) := by
  refine Keep.lift (f := 16) ?_ hm h
  unfold State.fhSend
  repeat' first
    | exact rfl
    | with_reducible exact Keep.refl _ _
    | with_reducible assumption
    | with_reducible apply State.emit_keep
    | with_reducible apply Keep.ite <;> intro _
    | with_reducible apply Keep.foldl <;> try intro _ _ _
    | with_reducible apply Keep.foldl_snd <;> try intro _ _ _
    | with_reducible refine Keep.of_snd ‹_ = (_, _)› ?_
    | with_reducible refine Keep.of_snd2 ‹_ = (_, _, _)› ?_
    | with_reducible apply Keep.of_id
    | split
    | dsimp only

theorem State.fhDelay_keep {m : Nat} {s0 : State} (s : State) (a1 : _) (a2 : _) (a3 : _) (hm : subMask 8388912 m = true) (h : Keep m s0 s) : Keep m s0 (State.fhDelay s a1 a2 a3) := by
  refine Keep.lift (f := 8388912) ?_ hm h
  unfold State.fhDelay
  repeat' first
    | exact rfl
    | with_reducible exact Keep.refl _ _
    | with_reducible assumption
    | with_reducible apply State.fhSend_keep
    | with_reducible apply State.fhBad_keep
    | with_reducible apply Keep.ite <;> intro _
    | with_reducible apply Keep.foldl <;> try intro _ _ _
    | with_reducible apply Keep.foldl_snd <;> try intro _ _ _
    | with_reducible refine Keep.of_snd ‹_ = (_, _)› ?_
    | with_reducible refine Keep.of_snd2 ‹_ = (_, _, _)› ?_
    | with_reducible apply Keep.of_id
    | split
    | dsimp only

theorem State.fhMessage_keep {m : Nat} {s0 : State} (s : State) (a1 : _) (a2 : _) (a3 : _) (a4 : _) (hm : subMask 9503092 m = true) (h : Keep m s0 s) : Keep m s0 (State.fhMessage s a1 a2 a3 a4).2 := by
  refine Keep.lift (f := 9503092) ?_ hm h
  unfold State.fhMessage
  refine Keep.ite_snd (fun _ => State.fhBad_keep _ _ rfl (Keep.refl _ _)) (fun _ => ?_)
  refine Keep.ite_snd (fun _ => State.fhBad_keep _ _ rfl (Keep.refl _ _)) (fun _ => ?_)
  refine Keep.ite_snd (fun _ => State.fhBad_keep _ _ rfl (Keep.refl _ _)) (fun _ => ?_)
  refine Keep.ite_snd (fun _ => State.fhBad_keep _ _ rfl (Keep.refl _ _)) (fun _ => ?_)
  refine Keep.ite_snd (fun _ => State.fhDelay_keep _ _ _ _ rfl (Keep.refl _ _)) (fun _ => ?_)
  extract_lets dir
  split
  · exact State.inc_keep _ _ _ rfl (Keep.refl _ _)
  · refine Keep.ite_snd (fun _ => State.fhBad_keep _ _ rfl (Keep.refl _ _)) (fun _ => ?_)
    refine Keep.ite_snd (fun _ => State.fhBad_keep _ _ rfl (Keep.refl _ _)) (fun _ => ?_)
    extract_lets k last s1 s2
    refine Keep.ite_snd (fun _ => State.inc_keep _ _ _ rfl (Keep.refl _ _)) (fun _ => ?_)
    have h1 : Keep 9503092 s s1 := State.fhUpd_keep _ _ rfl (Keep.refl _ _)
    have h2 : Keep 9503092 s s2 := Keep.ite (fun _ => State.inc_keep _ _ _ rfl h1) (fun _ => h1)
    clear_value s2
    exact Keep.ite_snd (fun _ => h2) (fun _ => Keep.ite (fun _ => State.fhUplane_keep _ _ _ _ rfl h2) (fun _ => State.fhCplane_keep _ _ _ _ rfl h2))

theorem State.fhMessages_keep {m : Nat} {s0 : State} (a0 : _) (a1 : _) (a2 : _) (a3 : _) (s : State) (hm : subMask 9503092 m = true) (h : Keep m s0 s) : Keep m s0 (State.fhMessages a0 a1 a2 a3 s) := by
  induction a3 generalizing a2 s with
  | nil => unfold State.fhMessages; exact h
  | cons b t ih =>
    unfold State.fhMessages
    have h1 : Keep m s0 (s.fhMessage a0 a1 a2 b).2 := State.fhMessage_keep _ _ _ _ _ hm h
    exact Keep.ite (fun _ => h1) (fun _ => ih _ _ h1)

theorem State.fhPrune_keep {m : Nat} {s0 : State} (s : State) (hm : subMask 8388608 m = true) (h : Keep m s0 s) : Keep m s0 (State.fhPrune s) := by
  refine Keep.lift (f := 8388608) ?_ hm h
  unfold State.fhPrune
  repeat' first
    | exact rfl
    | with_reducible exact Keep.refl _ _
    | with_reducible assumption
    | with_reducible apply State.fhFree_keep
    | with_reducible apply State.fhUpd_keep
    | with_reducible apply Keep.ite <;> intro _
    | with_reducible apply Keep.foldl <;> try intro _ _ _
    | with_reducible apply Keep.foldl_snd <;> try intro _ _ _
    | with_reducible refine Keep.of_snd ‹_ = (_, _)› ?_
    | with_reducible refine Keep.of_snd2 ‹_ = (_, _, _)› ?_
    | with_reducible apply Keep.of_id
    | split
    | dsimp only

theorem State.fhLost_keep {m : Nat} {s0 : State} (s : State) (a1 : _) (hm : subMask 8388912 m = true) (h : Keep m s0 s) : Keep m s0 (State.fhLost s a1) := by
  refine Keep.lift (f := 8388912) ?_ hm h
  unfold State.fhLost
  repeat' first
    | exact rfl
    | with_reducible exact Keep.refl _ _
    | with_reducible assumption
    | with_reducible apply State.fhMark_keep
    | with_reducible apply State.incBy_keep
    | with_reducible apply Keep.ite <;> intro _
    | with_reducible apply Keep.foldl <;> try intro _ _ _
    | with_reducible apply Keep.foldl_snd <;> try intro _ _ _
    | with_reducible refine Keep.of_snd ‹_ = (_, _)› ?_
    | with_reducible refine Keep.of_snd2 ‹_ = (_, _, _)› ?_
    | with_reducible apply Keep.of_id
    | split
    | dsimp only

theorem State.fhRunStart_keep {m : Nat} {s0 : State} (s : State) (a1 : _) (a2 : _) (hm : subMask 8388912 m = true) (h : Keep m s0 s) : Keep m s0 (State.fhRunStart s a1 a2) := by
  refine Keep.lift (f := 8388912) ?_ hm h
  unfold State.fhRunStart
  repeat' first
    | exact rfl
    | with_reducible exact Keep.refl _ _
    | with_reducible assumption
    | with_reducible apply State.fhUpd_keep
    | with_reducible apply State.incBy_keep
    | with_reducible apply State.fhLost_keep
    | with_reducible apply Keep.ite <;> intro _
    | with_reducible apply Keep.foldl <;> try intro _ _ _
    | with_reducible apply Keep.foldl_snd <;> try intro _ _ _
    | with_reducible refine Keep.of_snd ‹_ = (_, _)› ?_
    | with_reducible refine Keep.of_snd2 ‹_ = (_, _, _)› ?_
    | with_reducible apply Keep.of_id
    | split
    | dsimp only

theorem State.fhRunDone_keep {m : Nat} {s0 : State} (s : State) (a1 : _) (a2 : _) (a3 : _) (hm : subMask 8388912 m = true) (h : Keep m s0 s) : Keep m s0 (State.fhRunDone s a1 a2 a3) := by
  refine Keep.lift (f := 8388912) ?_ hm h
  unfold State.fhRunDone
  repeat' first
    | exact rfl
    | with_reducible exact Keep.refl _ _
    | with_reducible assumption
    | with_reducible apply State.fhFree_keep
    | with_reducible apply State.fhUpd_keep
    | with_reducible apply State.fhLost_keep
    | with_reducible apply Keep.ite <;> intro _
    | with_reducible apply Keep.foldl <;> try intro _ _ _
    | with_reducible apply Keep.foldl_snd <;> try intro _ _ _
    | with_reducible refine Keep.of_snd ‹_ = (_, _)› ?_
    | with_reducible refine Keep.of_snd2 ‹_ = (_, _, _)› ?_
    | with_reducible apply Keep.of_id
    | split
    | dsimp only

theorem State.fhDiscard_keep {m : Nat} {s0 : State} (s : State) (a1 : _) (hm : subMask 8388640 m = true) (h : Keep m s0 s) : Keep m s0 (State.fhDiscard s a1) := by
  refine Keep.lift (f := 8388640) ?_ hm h
  unfold State.fhDiscard
  repeat' first
    | exact rfl
    | with_reducible exact Keep.refl _ _
    | with_reducible assumption
    | with_reducible apply State.fhFree_keep
    | with_reducible apply State.fhUpd_keep
    | with_reducible apply State.incBy_keep
    | with_reducible apply Keep.ite <;> intro _
    | with_reducible apply Keep.foldl <;> try intro _ _ _
    | with_reducible apply Keep.foldl_snd <;> try intro _ _ _
    | with_reducible refine Keep.of_snd ‹_ = (_, _)› ?_
    | with_reducible refine Keep.of_snd2 ‹_ = (_, _, _)› ?_
    | with_reducible apply Keep.of_id
    | split
    | dsimp only

theorem State.fhStep_keep {m : Nat} {s0 : State} (s : State) (hm : subMask 8388640 m = true) (h : Keep m s0 s) : Keep m s0 (State.fhStep s) := by
  refine Keep.lift (f := 8388640) ?_ hm h
  unfold State.fhStep
  repeat' first
    | exact rfl
    | with_reducible exact Keep.refl _ _
    | with_reducible assumption
    | with_reducible apply State.fhUpd_keep
    | with_reducible apply State.fhDiscard_keep
    | with_reducible apply Keep.ite <;> intro _
    | with_reducible apply Keep.foldl <;> try intro _ _ _
    | with_reducible apply Keep.foldl_snd <;> try intro _ _ _
    | with_reducible refine Keep.of_snd ‹_ = (_, _)› ?_
    | with_reducible refine Keep.of_snd2 ‹_ = (_, _, _)› ?_
    | with_reducible apply Keep.of_id
    | split
    | dsimp only

theorem wrFhu_keep {m : Nat} {s0 : State} (a0 : _) (a1 : _) (a2 : _) (a3 : _) (s : State) (hm : subMask 8388640 m = true) (h : Keep m s0 s) : Keep m s0 (wrFhu a0 a1 a2 a3 s) := by
  refine Keep.lift (f := 8388640) ?_ hm h
  unfold wrFhu
  repeat' first
    | exact rfl
    | with_reducible exact Keep.refl _ _
    | with_reducible assumption
    | with_reducible apply State.fhFree_keep
    | with_reducible apply storeWord_keep
    | with_reducible apply State.fhUpd_keep
    | with_reducible apply State.fhDiscard_keep
    | with_reducible apply Keep.ite <;> intro _
    | with_reducible apply Keep.foldl <;> try intro _ _ _
    | with_reducible apply Keep.foldl_snd <;> try intro _ _ _
    | with_reducible refine Keep.of_snd ‹_ = (_, _)› ?_
    | with_reducible refine Keep.of_snd2 ‹_ = (_, _, _)› ?_
    | with_reducible apply Keep.of_id
    | split
    | dsimp only

theorem rdFhu_keep {m : Nat} {s0 : State} (a0 : _) (a1 : _) (a2 : _) (s : State) (hm : subMask 8388912 m = true) (h : Keep m s0 s) : Keep m s0 (rdFhu a0 a1 a2 s).2 := by
  refine Keep.lift (f := 8388912) ?_ hm h
  unfold rdFhu
  repeat' first
    | exact rfl
    | with_reducible exact Keep.refl _ _
    | with_reducible assumption
    | with_reducible apply State.fhUpd_keep
    | with_reducible apply State.setReg_keep
    | with_reducible apply loadWord_keep
    | with_reducible apply Keep.ite <;> intro _
    | with_reducible apply Keep.foldl <;> try intro _ _ _
    | with_reducible apply Keep.foldl_snd <;> try intro _ _ _
    | with_reducible refine Keep.of_snd ‹_ = (_, _)› ?_
    | with_reducible refine Keep.of_snd2 ‹_ = (_, _, _)› ?_
    | with_reducible apply Keep.of_id
    | split
    | dsimp only

theorem execFhFrameReceive_keep (a0 : _) (s : State) {t : State} (h : execFhFrameReceive a0 s = .next t) : Keep 43057525 s t := by
  unfold execFhFrameReceive at h
  injection h with h
  subst h
  repeat' first
    | exact rfl
    | with_reducible exact Keep.refl _ _
    | with_reducible assumption
    | with_reducible apply State.inc_keep
    | with_reducible apply State.ingress_keep
    | with_reducible apply State.fhMessages_keep
    | with_reducible apply State.fhPrune_keep
    | with_reducible apply State.incBy_keep
    | with_reducible apply Keep.ite <;> intro _
    | with_reducible apply Keep.foldl <;> try intro _ _ _
    | with_reducible apply Keep.foldl_snd <;> try intro _ _ _
    | with_reducible refine Keep.of_snd ‹_ = (_, _)› ?_
    | with_reducible refine Keep.of_snd2 ‹_ = (_, _, _)› ?_
    | with_reducible apply Keep.of_id
    | split
    | dsimp only

theorem State.ulMessage_keep {m : Nat} {s0 : State} (s : State) (a1 : _) (a2 : _) (a3 : _) (a4 : _) (hm : subMask 8388624 m = true) (h : Keep m s0 s) : Keep m s0 (State.ulMessage s a1 a2 a3 a4) := by
  refine Keep.lift (f := 8388624) ?_ hm h
  unfold State.ulMessage
  repeat' first
    | exact rfl
    | with_reducible exact Keep.refl _ _
    | with_reducible assumption
    | with_reducible apply State.fhSend_keep
    | with_reducible apply State.fhUpd_keep
    | with_reducible apply Keep.ite <;> intro _
    | with_reducible apply Keep.foldl <;> try intro _ _ _
    | with_reducible apply Keep.foldl_snd <;> try intro _ _ _
    | with_reducible refine Keep.of_snd ‹_ = (_, _)› ?_
    | with_reducible refine Keep.of_snd2 ‹_ = (_, _, _)› ?_
    | with_reducible apply Keep.of_id
    | split
    | dsimp only

theorem execUlUPlaneSend_keep (a0 : _) (a1 : _) (s : State) {t : State} (h : execUlUPlaneSend a0 a1 s = .next t) : Keep 9437488 s t := by
  unfold execUlUPlaneSend at h
  injection h with h
  subst h
  repeat' first
    | exact rfl
    | with_reducible exact Keep.refl _ _
    | with_reducible assumption
    | with_reducible apply State.fhUpd_keep
    | with_reducible apply State.inc_keep
    | with_reducible apply State.calRxStart_keep
    | with_reducible apply State.beamsHear_keep
    | with_reducible apply State.ulMessage_keep
    | with_reducible apply State.incBy_keep
    | with_reducible apply Keep.ite <;> intro _
    | with_reducible apply Keep.foldl <;> try intro _ _ _
    | with_reducible apply Keep.foldl_snd <;> try intro _ _ _
    | with_reducible refine Keep.of_snd ‹_ = (_, _)› ?_
    | with_reducible refine Keep.of_snd2 ‹_ = (_, _, _)› ?_
    | with_reducible apply Keep.of_id
    | split
    | dsimp only

theorem execFhTimeFault_keep (s : State) {t : State} (h : execFhTimeFault s = .next t) : Keep 8388880 s t := by
  unfold execFhTimeFault at h
  injection h with h
  subst h
  repeat' first
    | exact rfl
    | with_reducible exact Keep.refl _ _
    | with_reducible assumption
    | with_reducible apply State.raise_keep
    | with_reducible apply State.fhUpd_keep
    | with_reducible apply Keep.ite <;> intro _
    | with_reducible apply Keep.foldl <;> try intro _ _ _
    | with_reducible apply Keep.foldl_snd <;> try intro _ _ _
    | with_reducible refine Keep.of_snd ‹_ = (_, _)› ?_
    | with_reducible refine Keep.of_snd2 ‹_ = (_, _, _)› ?_
    | with_reducible apply Keep.of_id
    | split
    | dsimp only

theorem execFhResume_keep (s : State) {t : State} (h : execFhResume s = .next t) : Keep 8388608 s t := by
  unfold execFhResume at h
  injection h with h
  subst h
  repeat' first
    | exact rfl
    | with_reducible exact Keep.refl _ _
    | with_reducible assumption
    | with_reducible apply State.fhUpd_keep
    | with_reducible apply Keep.ite <;> intro _
    | with_reducible apply Keep.foldl <;> try intro _ _ _
    | with_reducible apply Keep.foldl_snd <;> try intro _ _ _
    | with_reducible refine Keep.of_snd ‹_ = (_, _)› ?_
    | with_reducible refine Keep.of_snd2 ‹_ = (_, _, _)› ?_
    | with_reducible apply Keep.of_id
    | split
    | dsimp only

theorem execFhuRetPop_keep (a0 : _) (s : State) {t : State} (h : execFhuRetPop a0 s = .next t) : Keep 8389426 s t := by
  unfold execFhuRetPop at h
  injection h with h
  subst h
  repeat' first
    | exact rfl
    | with_reducible exact Keep.refl _ _
    | with_reducible assumption
    | with_reducible refine readReg_keep _ _ _ _ _ _ (fun _ _ _ _ _ => ?_) ?_ ?_
    | with_reducible apply rdFhu_keep
    | with_reducible apply Keep.ite <;> intro _
    | with_reducible apply Keep.foldl <;> try intro _ _ _
    | with_reducible apply Keep.foldl_snd <;> try intro _ _ _
    | with_reducible refine Keep.of_snd ‹_ = (_, _)› ?_
    | with_reducible refine Keep.of_snd2 ‹_ = (_, _, _)› ?_
    | with_reducible apply Keep.of_id
    | split
    | dsimp only

theorem execFhuRetFree_keep (a0 : _) (a1 : _) (s : State) {t : State} (h : execFhuRetFree a0 a1 s = .next t) : Keep 8389426 s t := by
  unfold execFhuRetFree at h
  injection h with h
  subst h
  repeat' first
    | exact rfl
    | with_reducible exact Keep.refl _ _
    | with_reducible assumption
    | with_reducible refine writeReg_keep _ _ _ _ _ _ _ (fun _ _ _ _ _ _ => ?_) ?_ ?_
    | with_reducible apply wrFhu_keep
    | with_reducible apply Keep.ite <;> intro _
    | with_reducible apply Keep.foldl <;> try intro _ _ _
    | with_reducible apply Keep.foldl_snd <;> try intro _ _ _
    | with_reducible refine Keep.of_snd ‹_ = (_, _)› ?_
    | with_reducible refine Keep.of_snd2 ‹_ = (_, _, _)› ?_
    | with_reducible apply Keep.of_id
    | split
    | dsimp only

theorem State.fhRestack_keep {m : Nat} {s0 : State} (s : State) (a1 : _) (a2 : _) (a3 : _) (a4 : _) (hm : subMask 8388912 m = true) (h : Keep m s0 s) : Keep m s0 (State.fhRestack s a1 a2 a3 a4) := by
  refine Keep.lift (f := 8388912) ?_ hm h
  unfold State.fhRestack
  repeat' first
    | exact rfl
    | with_reducible exact Keep.refl _ _
    | with_reducible assumption
    | with_reducible apply State.incBy_keep
    | with_reducible apply State.fhUpd_keep
    | with_reducible apply State.raise_keep
    | with_reducible apply State.fhFree_keep
    | with_reducible apply State.inc_keep
    | with_reducible apply Keep.ite <;> intro _
    | with_reducible apply Keep.foldl <;> try intro _ _ _
    | with_reducible apply Keep.foldl_snd <;> try intro _ _ _
    | with_reducible refine Keep.of_snd ‹_ = (_, _)› ?_
    | with_reducible refine Keep.of_snd2 ‹_ = (_, _, _)› ?_
    | with_reducible apply Keep.of_id
    | split
    | dsimp only

theorem State.fhRequeue_keep {m : Nat} {s0 : State} (s : State) (a1 : _) (a2 : _) (a3 : _) (hm : subMask 8388608 m = true) (h : Keep m s0 s) : Keep m s0 (State.fhRequeue s a1 a2 a3) := by
  refine Keep.lift (f := 8388608) ?_ hm h
  unfold State.fhRequeue
  repeat' first
    | exact rfl
    | with_reducible exact Keep.refl _ _
    | with_reducible assumption
    | with_reducible apply State.fhUpd_keep
    | with_reducible apply Keep.ite <;> intro _
    | with_reducible apply Keep.foldl <;> try intro _ _ _
    | with_reducible apply Keep.foldl_snd <;> try intro _ _ _
    | with_reducible refine Keep.of_snd ‹_ = (_, _)› ?_
    | with_reducible refine Keep.of_snd2 ‹_ = (_, _, _)› ?_
    | with_reducible apply Keep.of_id
    | split
    | dsimp only

theorem State.fhGap_keep {m : Nat} {s0 : State} (s : State) (a1 : _) (a2 : _) (a3 : _) (a4 : _) (hm : subMask 9437232 m = true) (h : Keep m s0 s) : Keep m s0 (State.fhGap s a1 a2 a3 a4) := by
  refine Keep.lift (f := 9437232) ?_ hm h
  unfold State.fhGap
  repeat' first
    | exact rfl
    | with_reducible exact Keep.refl _ _
    | with_reducible assumption
    | with_reducible apply State.fhRequeue_keep
    | with_reducible apply State.txLeave_keep
    | with_reducible apply Keep.ite <;> intro _
    | with_reducible apply Keep.foldl <;> try intro _ _ _
    | with_reducible apply Keep.foldl_snd <;> try intro _ _ _
    | with_reducible refine Keep.of_snd ‹_ = (_, _)› ?_
    | with_reducible refine Keep.of_snd2 ‹_ = (_, _, _)› ?_
    | with_reducible apply Keep.of_id
    | split
    | dsimp only

theorem State.fhJoin_keep {m : Nat} {s0 : State} (s : State) (a1 : _) (hm : subMask 9437184 m = true) (h : Keep m s0 s) : Keep m s0 (State.fhJoin s a1) := by
  refine Keep.lift (f := 9437184) ?_ hm h
  unfold State.fhJoin
  repeat' first
    | exact rfl
    | with_reducible exact Keep.refl _ _
    | with_reducible assumption
    | with_reducible apply State.radUpd_keep
    | with_reducible apply State.fhRequeue_keep
    | with_reducible apply Keep.ite <;> intro _
    | with_reducible apply Keep.foldl <;> try intro _ _ _
    | with_reducible apply Keep.foldl_snd <;> try intro _ _ _
    | with_reducible refine Keep.of_snd ‹_ = (_, _)› ?_
    | with_reducible refine Keep.of_snd2 ‹_ = (_, _, _)› ?_
    | with_reducible apply Keep.of_id
    | split
    | dsimp only

end Sys2Proof.Machine
end

