-- ==== Sys2Proof/Laws/KeepTxa.lean ====
section
/-! SUPPORT. What each operation of Machine/Txa.lean leaves alone. -/

set_option Elab.async false

namespace Sys2Proof.Machine

theorem State.txaUpd_keep {m : Nat} {s0 : State} (s : State) (a1 : _) (hm : subMask 16777216 m = true) (h : Keep m s0 s) : Keep m s0 (State.txaUpd s a1) := by
  refine Keep.lift (f := 16777216) ?_ hm h
  unfold State.txaUpd
  repeat' first
    | exact rfl
    | with_reducible exact Keep.refl _ _
    | with_reducible assumption
    | with_reducible apply Keep.ite <;> intro _
    | with_reducible apply Keep.foldl <;> try intro _ _ _
    | with_reducible apply Keep.foldl_snd <;> try intro _ _ _
    | (rewrite [State.mk_eq_updOf]; (with_reducible refine Keep.node 16777216 ?_ ?_ ?_); · refine Keep.upd 16777216 ?_ ?_ ?_ ?_ ?_ (fun p hp => ?_); exact rfl; exact rfl; exact rfl; exact rfl; exact rfl; cases p <;> first | exact absurd hp (by decide) | exact rfl)
    | with_reducible refine Keep.of_snd ‹_ = (_, _)› ?_
    | with_reducible refine Keep.of_snd2 ‹_ = (_, _, _)› ?_
    | with_reducible apply Keep.of_id
    | split
    | dsimp only

theorem State.demodUpd_keep {m : Nat} {s0 : State} (s : State) (a1 : _) (a2 : _) (hm : subMask 16777216 m = true) (h : Keep m s0 s) : Keep m s0 (State.demodUpd s a1 a2) := by
  refine Keep.lift (f := 16777216) ?_ hm h
  unfold State.demodUpd
  repeat' first
    | exact rfl
    | with_reducible exact Keep.refl _ _
    | with_reducible assumption
    | with_reducible apply State.txaUpd_keep
    | with_reducible apply Keep.ite <;> intro _
    | with_reducible apply Keep.foldl <;> try intro _ _ _
    | with_reducible apply Keep.foldl_snd <;> try intro _ _ _
    | with_reducible refine Keep.of_snd ‹_ = (_, _)› ?_
    | with_reducible refine Keep.of_snd2 ‹_ = (_, _, _)› ?_
    | with_reducible apply Keep.of_id
    | split
    | dsimp only

theorem State.chBegins_keep {m : Nat} {s0 : State} (s : State) (a1 : _) (hm : subMask 1048880 m = true) (h : Keep m s0 s) : Keep m s0 (State.chBegins s a1) := by
  refine Keep.lift (f := 1048880) ?_ hm h
  unfold State.chBegins
  repeat' first
    | exact rfl
    | with_reducible exact Keep.refl _ _
    | with_reducible assumption
    | with_reducible apply State.beamsHear_keep
    | with_reducible apply State.calRxStart_keep
    | with_reducible apply Keep.ite <;> intro _
    | with_reducible apply Keep.foldl <;> try intro _ _ _
    | with_reducible apply Keep.foldl_snd <;> try intro _ _ _
    | with_reducible refine Keep.of_snd ‹_ = (_, _)› ?_
    | with_reducible refine Keep.of_snd2 ‹_ = (_, _, _)› ?_
    | with_reducible apply Keep.of_id
    | split
    | dsimp only

theorem State.demodIdle_keep {m : Nat} {s0 : State} (s : State) (a1 : _) (hm : subMask 16777216 m = true) (h : Keep m s0 s) : Keep m s0 (State.demodIdle s a1) := by
  refine Keep.lift (f := 16777216) ?_ hm h
  unfold State.demodIdle
  repeat' first
    | exact rfl
    | with_reducible exact Keep.refl _ _
    | with_reducible assumption
    | with_reducible apply State.demodUpd_keep
    | with_reducible apply Keep.ite <;> intro _
    | with_reducible apply Keep.foldl <;> try intro _ _ _
    | with_reducible apply Keep.foldl_snd <;> try intro _ _ _
    | with_reducible refine Keep.of_snd ‹_ = (_, _)› ?_
    | with_reducible refine Keep.of_snd2 ‹_ = (_, _, _)› ?_
    | with_reducible apply Keep.of_id
    | split
    | dsimp only

theorem State.txaDeclare_keep {m : Nat} {s0 : State} (s : State) (a1 : _) (a2 : _) (hm : subMask 16777248 m = true) (h : Keep m s0 s) : Keep m s0 (State.txaDeclare s a1 a2) := by
  refine Keep.lift (f := 16777248) ?_ hm h
  unfold State.txaDeclare
  repeat' first
    | exact rfl
    | with_reducible exact Keep.refl _ _
    | with_reducible assumption
    | with_reducible apply State.demodUpd_keep
    | with_reducible apply State.inc_keep
    | with_reducible apply Keep.ite <;> intro _
    | with_reducible apply Keep.foldl <;> try intro _ _ _
    | with_reducible apply Keep.foldl_snd <;> try intro _ _ _
    | with_reducible refine Keep.of_snd ‹_ = (_, _)› ?_
    | with_reducible refine Keep.of_snd2 ‹_ = (_, _, _)› ?_
    | with_reducible apply Keep.of_id
    | split
    | dsimp only

theorem State.txaFail_keep {m : Nat} {s0 : State} (s : State) (a1 : _) (hm : subMask 16777248 m = true) (h : Keep m s0 s) : Keep m s0 (State.txaFail s a1) := by
  refine Keep.lift (f := 16777248) ?_ hm h
  unfold State.txaFail
  repeat' first
    | exact rfl
    | with_reducible exact Keep.refl _ _
    | with_reducible assumption
    | with_reducible apply State.inc_keep
    | with_reducible apply State.demodUpd_keep
    | with_reducible apply Keep.ite <;> intro _
    | with_reducible apply Keep.foldl <;> try intro _ _ _
    | with_reducible apply Keep.foldl_snd <;> try intro _ _ _
    | with_reducible refine Keep.of_snd ‹_ = (_, _)› ?_
    | with_reducible refine Keep.of_snd2 ‹_ = (_, _, _)› ?_
    | with_reducible apply Keep.of_id
    | split
    | dsimp only

theorem State.txaAbort_keep {m : Nat} {s0 : State} (s : State) (hm : subMask 16777248 m = true) (h : Keep m s0 s) : Keep m s0 (State.txaAbort s) := by
  refine Keep.lift (f := 16777248) ?_ hm h
  unfold State.txaAbort
  repeat' first
    | exact rfl
    | with_reducible exact Keep.refl _ _
    | with_reducible assumption
    | with_reducible apply State.inc_keep
    | with_reducible apply State.demodIdle_keep
    | with_reducible apply Keep.ite <;> intro _
    | with_reducible apply Keep.foldl <;> try intro _ _ _
    | with_reducible apply Keep.foldl_snd <;> try intro _ _ _
    | with_reducible refine Keep.of_snd ‹_ = (_, _)› ?_
    | with_reducible refine Keep.of_snd2 ‹_ = (_, _, _)› ?_
    | with_reducible apply Keep.of_id
    | split
    | dsimp only

theorem State.txaIdle_keep {m : Nat} {s0 : State} (s : State) (hm : subMask 16777216 m = true) (h : Keep m s0 s) : Keep m s0 (State.txaIdle s) := by
  refine Keep.lift (f := 16777216) ?_ hm h
  unfold State.txaIdle
  repeat' first
    | exact rfl
    | with_reducible exact Keep.refl _ _
    | with_reducible assumption
    | with_reducible apply State.txaUpd_keep
    | with_reducible apply Keep.ite <;> intro _
    | with_reducible apply Keep.foldl <;> try intro _ _ _
    | with_reducible apply Keep.foldl_snd <;> try intro _ _ _
    | with_reducible refine Keep.of_snd ‹_ = (_, _)› ?_
    | with_reducible refine Keep.of_snd2 ‹_ = (_, _, _)› ?_
    | with_reducible apply Keep.of_id
    | split
    | dsimp only

theorem State.txaRoot_keep {m : Nat} {s0 : State} (s : State) (hm : subMask 33072 m = true) (h : Keep m s0 s) : Keep m s0 (State.txaRoot s).2 := by
  refine Keep.lift (f := 33072) ?_ hm h
  unfold State.txaRoot
  repeat' first
    | exact rfl
    | with_reducible exact Keep.refl _ _
    | with_reducible assumption
    | with_reducible apply State.useKey_keep
    | with_reducible apply Keep.ite <;> intro _
    | with_reducible apply Keep.foldl <;> try intro _ _ _
    | with_reducible apply Keep.foldl_snd <;> try intro _ _ _
    | with_reducible refine Keep.of_snd ‹_ = (_, _)› ?_
    | with_reducible refine Keep.of_snd2 ‹_ = (_, _, _)› ?_
    | with_reducible apply Keep.of_id
    | split
    | dsimp only

theorem State.txaCpl_keep {m : Nat} {s0 : State} (s : State) (a1 : _) (hm : subMask 16777488 m = true) (h : Keep m s0 s) : Keep m s0 (State.txaCpl s a1) := by
  refine Keep.lift (f := 16777488) ?_ hm h
  unfold State.txaCpl
  repeat' first
    | exact rfl
    | with_reducible exact Keep.refl _ _
    | with_reducible assumption
    | with_reducible apply State.txaUpd_keep
    | with_reducible apply State.raise_keep
    | with_reducible apply Keep.ite <;> intro _
    | with_reducible apply Keep.foldl <;> try intro _ _ _
    | with_reducible apply Keep.foldl_snd <;> try intro _ _ _
    | with_reducible refine Keep.of_snd ‹_ = (_, _)› ?_
    | with_reducible refine Keep.of_snd2 ‹_ = (_, _, _)› ?_
    | with_reducible apply Keep.of_id
    | split
    | dsimp only

theorem State.txaComplete_keep {m : Nat} {s0 : State} (s : State) (a1 : _) (a2 : _) (a3 : _) (hm : subMask 16777488 m = true) (h : Keep m s0 s) : Keep m s0 (State.txaComplete s a1 a2 a3) := by
  refine Keep.lift (f := 16777488) ?_ hm h
  unfold State.txaComplete
  repeat' first
    | exact rfl
    | with_reducible exact Keep.refl _ _
    | with_reducible assumption
    | with_reducible apply State.txaCpl_keep
    | with_reducible apply State.txaUpd_keep
    | with_reducible apply Keep.ite <;> intro _
    | with_reducible apply Keep.foldl <;> try intro _ _ _
    | with_reducible apply Keep.foldl_snd <;> try intro _ _ _
    | with_reducible refine Keep.of_snd ‹_ = (_, _)› ?_
    | with_reducible refine Keep.of_snd2 ‹_ = (_, _, _)› ?_
    | with_reducible apply Keep.of_id
    | split
    | dsimp only

theorem State.txaFlush_keep {m : Nat} {s0 : State} (s : State) (a1 : _) (a2 : _) (hm : subMask 16777488 m = true) (h : Keep m s0 s) : Keep m s0 (State.txaFlush s a1 a2) := by
  refine Keep.lift (f := 16777488) ?_ hm h
  unfold State.txaFlush
  repeat' first
    | exact rfl
    | with_reducible exact Keep.refl _ _
    | with_reducible assumption
    | with_reducible apply State.txaComplete_keep
    | with_reducible apply Keep.ite <;> intro _
    | with_reducible apply Keep.foldl <;> try intro _ _ _
    | with_reducible apply Keep.foldl_snd <;> try intro _ _ _
    | with_reducible refine Keep.of_snd ‹_ = (_, _)› ?_
    | with_reducible refine Keep.of_snd2 ‹_ = (_, _, _)› ?_
    | with_reducible apply Keep.of_id
    | split
    | dsimp only

theorem State.txaPush_keep {m : Nat} {s0 : State} (s : State) (a1 : _) (hm : subMask 16778032 m = true) (h : Keep m s0 s) : Keep m s0 (State.txaPush s a1) := by
  refine Keep.lift (f := 16778032) ?_ hm h
  unfold State.txaPush
  repeat' first
    | exact rfl
    | with_reducible exact Keep.refl _ _
    | with_reducible assumption
    | with_reducible apply State.txaCpl_keep
    | with_reducible apply State.capture_keep
    | with_reducible apply State.txaFlush_keep
    | with_reducible apply State.txaUpd_keep
    | with_reducible apply Keep.ite <;> intro _
    | with_reducible apply Keep.foldl <;> try intro _ _ _
    | with_reducible apply Keep.foldl_snd <;> try intro _ _ _
    | with_reducible refine Keep.of_snd ‹_ = (_, _)› ?_
    | with_reducible refine Keep.of_snd2 ‹_ = (_, _, _)› ?_
    | with_reducible apply Keep.of_id
    | split
    | dsimp only

theorem State.dlFail_keep {m : Nat} {s0 : State} (s : State) (a1 : _) (a2 : _) (hm : subMask 16777520 m = true) (h : Keep m s0 s) : Keep m s0 (State.dlFail s a1 a2) := by
  refine Keep.lift (f := 16777520) ?_ hm h
  unfold State.dlFail
  repeat' first
    | exact rfl
    | with_reducible exact Keep.refl _ _
    | with_reducible assumption
    | with_reducible apply State.inc_keep
    | with_reducible apply State.txaUpd_keep
    | with_reducible apply State.txaComplete_keep
    | with_reducible apply Keep.ite <;> intro _
    | with_reducible apply Keep.foldl <;> try intro _ _ _
    | with_reducible apply Keep.foldl_snd <;> try intro _ _ _
    | with_reducible refine Keep.of_snd ‹_ = (_, _)› ?_
    | with_reducible refine Keep.of_snd2 ‹_ = (_, _, _)› ?_
    | with_reducible apply Keep.of_id
    | split
    | dsimp only

theorem State.dlNext_keep {m : Nat} {s0 : State} (s : State) (a1 : _) (a2 : _) (hm : subMask 16777520 m = true) (h : Keep m s0 s) : Keep m s0 (State.dlNext s a1 a2) := by
  refine Keep.lift (f := 16777520) ?_ hm h
  unfold State.dlNext
  repeat' first
    | exact rfl
    | with_reducible exact Keep.refl _ _
    | with_reducible assumption
    | with_reducible apply State.txaUpd_keep
    | with_reducible apply State.dlFail_keep
    | with_reducible apply Keep.ite <;> intro _
    | with_reducible apply Keep.foldl <;> try intro _ _ _
    | with_reducible apply Keep.foldl_snd <;> try intro _ _ _
    | with_reducible refine Keep.of_snd ‹_ = (_, _)› ?_
    | with_reducible refine Keep.of_snd2 ‹_ = (_, _, _)› ?_
    | with_reducible apply Keep.of_id
    | split
    | dsimp only

theorem State.dlSchedule_keep {m : Nat} {s0 : State} (s : State) (a1 : _) (a2 : _) (a3 : _) (a4 : _) (a5 : _) (a6 : _) (hm : subMask 16777520 m = true) (h : Keep m s0 s) : Keep m s0 (State.dlSchedule s a1 a2 a3 a4 a5 a6) := by
  refine Keep.lift (f := 16777520) ?_ hm h
  unfold State.dlSchedule
  repeat' first
    | exact rfl
    | with_reducible exact Keep.refl _ _
    | with_reducible assumption
    | with_reducible apply State.txaUpd_keep
    | with_reducible apply State.dlNext_keep
    | with_reducible apply Keep.ite <;> intro _
    | with_reducible apply Keep.foldl <;> try intro _ _ _
    | with_reducible apply Keep.foldl_snd <;> try intro _ _ _
    | with_reducible refine Keep.of_snd ‹_ = (_, _)› ?_
    | with_reducible refine Keep.of_snd2 ‹_ = (_, _, _)› ?_
    | with_reducible apply Keep.of_id
    | split
    | dsimp only

theorem State.dlDone_keep {m : Nat} {s0 : State} (s : State) (a1 : _) (a2 : _) (hm : subMask 16777520 m = true) (h : Keep m s0 s) : Keep m s0 (State.dlDone s a1 a2) := by
  refine Keep.lift (f := 16777520) ?_ hm h
  unfold State.dlDone
  repeat' first
    | exact rfl
    | with_reducible exact Keep.refl _ _
    | with_reducible assumption
    | with_reducible apply State.inc_keep
    | with_reducible apply State.txaUpd_keep
    | with_reducible apply State.txaComplete_keep
    | with_reducible apply State.dlFail_keep
    | with_reducible apply State.dlNext_keep
    | with_reducible apply Keep.ite <;> intro _
    | with_reducible apply Keep.foldl <;> try intro _ _ _
    | with_reducible apply Keep.foldl_snd <;> try intro _ _ _
    | with_reducible refine Keep.of_snd ‹_ = (_, _)› ?_
    | with_reducible refine Keep.of_snd2 ‹_ = (_, _, _)› ?_
    | with_reducible apply Keep.of_id
    | split
    | dsimp only

theorem State.dlCut_keep {m : Nat} {s0 : State} (s : State) (a1 : _) (hm : subMask 16777520 m = true) (h : Keep m s0 s) : Keep m s0 (State.dlCut s a1) := by
  refine Keep.lift (f := 16777520) ?_ hm h
  unfold State.dlCut
  repeat' first
    | exact rfl
    | with_reducible exact Keep.refl _ _
    | with_reducible assumption
    | with_reducible apply State.inc_keep
    | with_reducible apply State.txaUpd_keep
    | with_reducible apply State.txaComplete_keep
    | with_reducible apply Keep.ite <;> intro _
    | with_reducible apply Keep.foldl <;> try intro _ _ _
    | with_reducible apply Keep.foldl_snd <;> try intro _ _ _
    | with_reducible refine Keep.of_snd ‹_ = (_, _)› ?_
    | with_reducible refine Keep.of_snd2 ‹_ = (_, _, _)› ?_
    | with_reducible apply Keep.of_id
    | split
    | dsimp only

theorem State.txaMark_keep {m : Nat} {s0 : State} (s : State) (a1 : _) (hm : subMask 16777488 m = true) (h : Keep m s0 s) : Keep m s0 (State.txaMark s a1) := by
  refine Keep.lift (f := 16777488) ?_ hm h
  unfold State.txaMark
  repeat' first
    | exact rfl
    | with_reducible exact Keep.refl _ _
    | with_reducible assumption
    | with_reducible apply State.txaUpd_keep
    | with_reducible apply State.raise_keep
    | with_reducible apply Keep.ite <;> intro _
    | with_reducible apply Keep.foldl <;> try intro _ _ _
    | with_reducible apply Keep.foldl_snd <;> try intro _ _ _
    | with_reducible refine Keep.of_snd ‹_ = (_, _)› ?_
    | with_reducible refine Keep.of_snd2 ‹_ = (_, _, _)› ?_
    | with_reducible apply Keep.of_id
    | split
    | dsimp only

theorem State.txaDeliver_keep {m : Nat} {s0 : State} (s : State) (a1 : _) (a2 : _) (a3 : _) (a4 : _) (a5 : _) (a6 : _) (a7 : _) (a8 : _) (hm : subMask 65904 m = true) (h : Keep m s0 s) : Keep m s0 (State.txaDeliver s a1 a2 a3 a4 a5 a6 a7 a8) := by
  refine Keep.lift (f := 65904) ?_ hm h
  unfold State.txaDeliver
  repeat' first
    | exact rfl
    | with_reducible exact Keep.refl _ _
    | with_reducible assumption
    | with_reducible apply State.memPut_keep
    | with_reducible apply State.inc_keep
    | with_reducible apply State.set_keep
    | with_reducible apply State.raise_keep
    | with_reducible apply Keep.ite <;> intro _
    | with_reducible apply Keep.foldl <;> try intro _ _ _
    | with_reducible apply Keep.foldl_snd <;> try intro _ _ _
    | with_reducible refine Keep.of_snd ‹_ = (_, _)› ?_
    | with_reducible refine Keep.of_snd2 ‹_ = (_, _, _)› ?_
    | with_reducible apply Keep.of_id
    | split
    | dsimp only

theorem State.txaDrop_keep {m : Nat} {s0 : State} (s : State) (hm : subMask 16777520 m = true) (h : Keep m s0 s) : Keep m s0 (State.txaDrop s) := by
  refine Keep.lift (f := 16777520) ?_ hm h
  unfold State.txaDrop
  repeat' first
    | exact rfl
    | with_reducible exact Keep.refl _ _
    | with_reducible assumption
    | with_reducible apply State.txaUpd_keep
    | with_reducible apply State.inc_keep
    | with_reducible apply State.raise_keep
    | with_reducible apply Keep.ite <;> intro _
    | with_reducible apply Keep.foldl <;> try intro _ _ _
    | with_reducible apply Keep.foldl_snd <;> try intro _ _ _
    | with_reducible refine Keep.of_snd ‹_ = (_, _)› ?_
    | with_reducible refine Keep.of_snd2 ‹_ = (_, _, _)› ?_
    | with_reducible apply Keep.of_id
    | split
    | dsimp only

theorem State.txaCfo_keep {m : Nat} {s0 : State} (s : State) (a1 : _) (hm : subMask 16777216 m = true) (h : Keep m s0 s) : Keep m s0 (State.txaCfo s a1) := by
  refine Keep.lift (f := 16777216) ?_ hm h
  unfold State.txaCfo
  repeat' first
    | exact rfl
    | with_reducible exact Keep.refl _ _
    | with_reducible assumption
    | with_reducible apply State.txaUpd_keep
    | with_reducible apply Keep.ite <;> intro _
    | with_reducible apply Keep.foldl <;> try intro _ _ _
    | with_reducible apply Keep.foldl_snd <;> try intro _ _ _
    | with_reducible refine Keep.of_snd ‹_ = (_, _)› ?_
    | with_reducible refine Keep.of_snd2 ‹_ = (_, _, _)› ?_
    | with_reducible apply Keep.of_id
    | split
    | dsimp only

theorem State.txaCheck_keep {m : Nat} {s0 : State} (s : State) (a1 : _) (a2 : _) (a3 : _) (a4 : _) (a5 : _) (a6 : _) (a7 : _) (a8 : _) (hm : subMask 16876400 m = true) (h : Keep m s0 s) : Keep m s0 (State.txaCheck s a1 a2 a3 a4 a5 a6 a7 a8) := by
  refine Keep.lift (f := 16876400) ?_ hm h
  unfold State.txaCheck
  repeat' first
    | exact rfl
    | with_reducible exact Keep.refl _ _
    | with_reducible assumption
    | with_reducible apply State.inc_keep
    | with_reducible apply State.txaDrop_keep
    | with_reducible apply State.txaRoot_keep
    | with_reducible apply State.txaMark_keep
    | with_reducible apply State.capture_keep
    | with_reducible apply State.txaUpd_keep
    | with_reducible apply State.txaCfo_keep
    | with_reducible apply State.txaDeliver_keep
    | with_reducible apply State.dlSchedule_keep
    | with_reducible apply Keep.ite <;> intro _
    | with_reducible apply Keep.foldl <;> try intro _ _ _
    | with_reducible apply Keep.foldl_snd <;> try intro _ _ _
    | with_reducible refine Keep.of_snd ‹_ = (_, _)› ?_
    | with_reducible refine Keep.of_snd2 ‹_ = (_, _, _)› ?_
    | with_reducible apply Keep.of_id
    | split
    | dsimp only

theorem State.txaWriteFine_keep {m : Nat} {s0 : State} (s : State) (a1 : _) (hm : subMask 32 m = true) (h : Keep m s0 s) : Keep m s0 (State.txaWriteFine s a1) := by
  refine Keep.lift (f := 32) ?_ hm h
  unfold State.txaWriteFine
  repeat' first
    | exact rfl
    | with_reducible exact Keep.refl _ _
    | with_reducible assumption
    | with_reducible apply State.set_keep
    | with_reducible apply Keep.ite <;> intro _
    | with_reducible apply Keep.foldl <;> try intro _ _ _
    | with_reducible apply Keep.foldl_snd <;> try intro _ _ _
    | with_reducible refine Keep.of_snd ‹_ = (_, _)› ?_
    | with_reducible refine Keep.of_snd2 ‹_ = (_, _, _)› ?_
    | with_reducible apply Keep.of_id
    | split
    | dsimp only

theorem State.txaCorrect_keep {m : Nat} {s0 : State} (s : State) (a1 : _) (hm : subMask 16777520 m = true) (h : Keep m s0 s) : Keep m s0 (State.txaCorrect s a1) := by
  refine Keep.lift (f := 16777520) ?_ hm h
  unfold State.txaCorrect
  repeat' first
    | exact rfl
    | with_reducible exact Keep.refl _ _
    | with_reducible assumption
    | with_reducible apply State.sets_keep
    | with_reducible apply State.txaUpd_keep
    | with_reducible apply State.raise_keep
    | with_reducible apply State.set_keep
    | with_reducible apply State.txaWriteFine_keep
    | with_reducible apply Keep.ite <;> intro _
    | with_reducible apply Keep.foldl <;> try intro _ _ _
    | with_reducible apply Keep.foldl_snd <;> try intro _ _ _
    | with_reducible refine Keep.of_snd ‹_ = (_, _)› ?_
    | with_reducible refine Keep.of_snd2 ‹_ = (_, _, _)› ?_
    | with_reducible apply Keep.of_id
    | split
    | dsimp only

theorem State.txaRestack_keep {m : Nat} {s0 : State} (s : State) (a1 : _) (hm : subMask 16777488 m = true) (h : Keep m s0 s) : Keep m s0 (State.txaRestack s a1) := by
  refine Keep.lift (f := 16777488) ?_ hm h
  unfold State.txaRestack
  repeat' first
    | exact rfl
    | with_reducible exact Keep.refl _ _
    | with_reducible assumption
    | with_reducible apply State.txaIdle_keep
    | with_reducible apply State.txaFlush_keep
    | with_reducible apply Keep.ite <;> intro _
    | with_reducible apply Keep.foldl <;> try intro _ _ _
    | with_reducible apply Keep.foldl_snd <;> try intro _ _ _
    | with_reducible refine Keep.of_snd ‹_ = (_, _)› ?_
    | with_reducible refine Keep.of_snd2 ‹_ = (_, _, _)› ?_
    | with_reducible apply Keep.of_id
    | split
    | dsimp only

theorem State.txaRestackEnd_keep {m : Nat} {s0 : State} (s : State) (hm : subMask 32 m = true) (h : Keep m s0 s) : Keep m s0 (State.txaRestackEnd s) := by
  refine Keep.lift (f := 32) ?_ hm h
  unfold State.txaRestackEnd
  repeat' first
    | exact rfl
    | with_reducible exact Keep.refl _ _
    | with_reducible assumption
    | with_reducible apply State.set_keep
    | with_reducible apply State.txaWriteFine_keep
    | with_reducible apply Keep.ite <;> intro _
    | with_reducible apply Keep.foldl <;> try intro _ _ _
    | with_reducible apply Keep.foldl_snd <;> try intro _ _ _
    | with_reducible refine Keep.of_snd ‹_ = (_, _)› ?_
    | with_reducible refine Keep.of_snd2 ‹_ = (_, _, _)› ?_
    | with_reducible apply Keep.of_id
    | split
    | dsimp only

theorem State.txaLost_keep {m : Nat} {s0 : State} (s : State) (hm : subMask 16777216 m = true) (h : Keep m s0 s) : Keep m s0 (State.txaLost s) := by
  refine Keep.lift (f := 16777216) ?_ hm h
  unfold State.txaLost
  repeat' first
    | exact rfl
    | with_reducible exact Keep.refl _ _
    | with_reducible assumption
    | with_reducible apply State.txaUpd_keep
    | with_reducible apply Keep.ite <;> intro _
    | with_reducible apply Keep.foldl <;> try intro _ _ _
    | with_reducible apply Keep.foldl_snd <;> try intro _ _ _
    | with_reducible refine Keep.of_snd ‹_ = (_, _)› ?_
    | with_reducible refine Keep.of_snd2 ‹_ = (_, _, _)› ?_
    | with_reducible apply Keep.of_id
    | split
    | dsimp only

theorem txaWr_keep {m : Nat} {s0 : State} (a0 : _) (a1 : _) (s : State) (hm : subMask 16778032 m = true) (h : Keep m s0 s) : Keep m s0 (txaWr a0 a1 s) := by
  refine Keep.lift (f := 16778032) ?_ hm h
  unfold txaWr
  repeat' first
    | exact rfl
    | with_reducible exact Keep.refl _ _
    | with_reducible assumption
    | with_reducible apply State.txaPush_keep
    | with_reducible apply Keep.ite <;> intro _
    | with_reducible apply Keep.foldl <;> try intro _ _ _
    | with_reducible apply Keep.foldl_snd <;> try intro _ _ _
    | with_reducible refine Keep.of_snd ‹_ = (_, _)› ?_
    | with_reducible refine Keep.of_snd2 ‹_ = (_, _, _)› ?_
    | with_reducible apply Keep.of_id
    | split
    | dsimp only

theorem State.txaDrain_keep {m : Nat} {s0 : State} (a0 : _) (s : State) (hm : subMask 16778038 m = true) (h : Keep m s0 s) : Keep m s0 (State.txaDrain a0 s) := by
  induction a0 generalizing s with
  | zero => unfold State.txaDrain; exact h
  | succ n ih =>
    unfold State.txaDrain
    repeat' first
      | exact rfl
      | exact subMask_trans rfl hm
      | with_reducible apply ih
      | with_reducible exact Keep.refl _ _
      | with_reducible assumption
      | with_reducible refine State.unhold_keep _ _ _ (fun _ _ _ _ => ?_) ?_ ?_
      | with_reducible apply txaWr_keep
      | with_reducible apply Keep.ite <;> intro _
      | with_reducible apply Keep.foldl <;> try intro _ _ _
      | with_reducible apply Keep.foldl_snd <;> try intro _ _ _
      | with_reducible refine Keep.of_snd ‹_ = (_, _)› ?_
      | with_reducible refine Keep.of_snd2 ‹_ = (_, _, _)› ?_
      | with_reducible apply Keep.of_id
      | split
      | dsimp only

theorem wrTxa_keep {m : Nat} {s0 : State} (a0 : _) (a1 : _) (a2 : _) (a3 : _) (s : State) (hm : subMask 16778032 m = true) (h : Keep m s0 s) : Keep m s0 (wrTxa a0 a1 a2 a3 s) := by
  refine Keep.lift (f := 16778032) ?_ hm h
  unfold wrTxa
  repeat' first
    | exact rfl
    | with_reducible exact Keep.refl _ _
    | with_reducible assumption
    | with_reducible apply State.txaPush_keep
    | with_reducible apply State.txaUpd_keep
    | with_reducible apply storeWord_keep
    | with_reducible apply State.txaIdle_keep
    | with_reducible apply State.demodUpd_keep
    | with_reducible apply Keep.ite <;> intro _
    | with_reducible apply Keep.foldl <;> try intro _ _ _
    | with_reducible apply Keep.foldl_snd <;> try intro _ _ _
    | with_reducible refine Keep.of_snd ‹_ = (_, _)› ?_
    | with_reducible refine Keep.of_snd2 ‹_ = (_, _, _)› ?_
    | with_reducible apply Keep.of_id
    | split
    | dsimp only

theorem State.txaPop_keep {m : Nat} {s0 : State} (s : State) (hm : subMask 16777248 m = true) (h : Keep m s0 s) : Keep m s0 (State.txaPop s).2 := by
  refine Keep.lift (f := 16777248) ?_ hm h
  unfold State.txaPop
  repeat' first
    | exact rfl
    | with_reducible exact Keep.refl _ _
    | with_reducible assumption
    | with_reducible apply State.setReg_keep
    | with_reducible apply State.txaUpd_keep
    | with_reducible apply Keep.ite <;> intro _
    | with_reducible apply Keep.foldl <;> try intro _ _ _
    | with_reducible apply Keep.foldl_snd <;> try intro _ _ _
    | with_reducible refine Keep.of_snd ‹_ = (_, _)› ?_
    | with_reducible refine Keep.of_snd2 ‹_ = (_, _, _)› ?_
    | with_reducible apply Keep.of_id
    | split
    | dsimp only

theorem rdTxa_keep {m : Nat} {s0 : State} (a0 : _) (a1 : _) (a2 : _) (s : State) (hm : subMask 16777520 m = true) (h : Keep m s0 s) : Keep m s0 (rdTxa a0 a1 a2 s).2 := by
  refine Keep.lift (f := 16777520) ?_ hm h
  unfold rdTxa
  repeat' first
    | exact rfl
    | with_reducible exact Keep.refl _ _
    | with_reducible assumption
    | with_reducible apply State.txaPop_keep
    | with_reducible apply loadWord_keep
    | with_reducible apply Keep.ite <;> intro _
    | with_reducible apply Keep.foldl <;> try intro _ _ _
    | with_reducible apply Keep.foldl_snd <;> try intro _ _ _
    | with_reducible refine Keep.of_snd ‹_ = (_, _)› ?_
    | with_reducible refine Keep.of_snd2 ‹_ = (_, _, _)› ?_
    | with_reducible apply Keep.of_id
    | split
    | dsimp only

theorem execLrcPreambleDetect_keep (a0 : _) (a1 : _) (a2 : _) (a3 : _) (s : State) {t : State} (h : execLrcPreambleDetect a0 a1 a2 a3 s = .next t) : Keep 17826096 s t := by
  unfold execLrcPreambleDetect at h
  injection h with h
  subst h
  repeat' first
    | exact rfl
    | with_reducible exact Keep.refl _ _
    | with_reducible assumption
    | with_reducible apply State.txaDeclare_keep
    | with_reducible apply State.chBegins_keep
    | with_reducible apply Keep.ite <;> intro _
    | with_reducible apply Keep.foldl <;> try intro _ _ _
    | with_reducible apply Keep.foldl_snd <;> try intro _ _ _
    | with_reducible refine Keep.of_snd ‹_ = (_, _)› ?_
    | with_reducible refine Keep.of_snd2 ‹_ = (_, _, _)› ?_
    | with_reducible apply Keep.of_id
    | split
    | dsimp only

theorem execLrcHeader_keep (a0 : _) (a1 : _) (a2 : _) (a3 : _) (a4 : _) (s : State) {t : State} (h : execLrcHeader a0 a1 a2 a3 a4 s = .next t) : Keep 16777248 s t := by
  unfold execLrcHeader at h
  injection h with h
  subst h
  repeat' first
    | exact rfl
    | with_reducible exact Keep.refl _ _
    | with_reducible assumption
    | with_reducible apply State.txaFail_keep
    | with_reducible apply State.inc_keep
    | with_reducible apply State.demodUpd_keep
    | with_reducible apply Keep.ite <;> intro _
    | with_reducible apply Keep.foldl <;> try intro _ _ _
    | with_reducible apply Keep.foldl_snd <;> try intro _ _ _
    | with_reducible refine Keep.of_snd ‹_ = (_, _)› ?_
    | with_reducible refine Keep.of_snd2 ‹_ = (_, _, _)› ?_
    | with_reducible apply Keep.of_id
    | split
    | dsimp only

theorem execLrcCapture_keep (a0 : _) (a1 : _) (a2 : _) (a3 : _) (s : State) {t : State} (h : execLrcCapture a0 a1 a2 a3 s = .next t) : Keep 17826096 s t := by
  unfold execLrcCapture at h
  injection h with h
  subst h
  repeat' first
    | exact rfl
    | with_reducible exact Keep.refl _ _
    | with_reducible assumption
    | with_reducible apply State.txaDeclare_keep
    | with_reducible apply State.chBegins_keep
    | with_reducible apply Keep.ite <;> intro _
    | with_reducible apply Keep.foldl <;> try intro _ _ _
    | with_reducible apply Keep.foldl_snd <;> try intro _ _ _
    | with_reducible refine Keep.of_snd ‹_ = (_, _)› ?_
    | with_reducible refine Keep.of_snd2 ‹_ = (_, _, _)› ?_
    | with_reducible apply Keep.of_id
    | split
    | dsimp only

theorem execLrcFrameEnd_keep (a0 : _) (a1 : _) (a2 : _) (a3 : _) (a4 : _) (a5 : _) (a6 : _) (s : State) {t : State} (h : execLrcFrameEnd a0 a1 a2 a3 a4 a5 a6 s = .next t) : Keep 16876406 s t := by
  unfold execLrcFrameEnd at h
  injection h with h
  subst h
  repeat' first
    | exact rfl
    | with_reducible exact Keep.refl _ _
    | with_reducible assumption
    | with_reducible apply State.demodIdle_keep
    | with_reducible apply State.txaDrain_keep
    | with_reducible apply State.txaCheck_keep
    | with_reducible apply Keep.ite <;> intro _
    | with_reducible apply Keep.foldl <;> try intro _ _ _
    | with_reducible apply Keep.foldl_snd <;> try intro _ _ _
    | with_reducible refine Keep.of_snd ‹_ = (_, _)› ?_
    | with_reducible refine Keep.of_snd2 ‹_ = (_, _, _)› ?_
    | with_reducible apply Keep.of_id
    | split
    | dsimp only

theorem execTxaDlPush_keep (a0 : _) (a1 : _) (s : State) {t : State} (h : execTxaDlPush a0 a1 s = .next t) : Keep 16778038 s t := by
  unfold execTxaDlPush at h
  injection h with h
  subst h
  repeat' first
    | exact rfl
    | with_reducible exact Keep.refl _ _
    | with_reducible assumption
    | with_reducible refine writeOrHold_keep _ _ _ _ _ _ _ (fun _ _ _ _ _ _ => ?_) ?_ ?_
    | with_reducible apply wrTxa_keep
    | with_reducible apply Keep.ite <;> intro _
    | with_reducible apply Keep.foldl <;> try intro _ _ _
    | with_reducible apply Keep.foldl_snd <;> try intro _ _ _
    | with_reducible refine Keep.of_snd ‹_ = (_, _)› ?_
    | with_reducible refine Keep.of_snd2 ‹_ = (_, _, _)› ?_
    | with_reducible apply Keep.of_id
    | split
    | dsimp only

theorem execTxaDlCplPop_keep (a0 : _) (s : State) {t : State} (h : execTxaDlCplPop a0 s = .next t) : Keep 16778034 s t := by
  unfold execTxaDlCplPop at h
  injection h with h
  subst h
  repeat' first
    | exact rfl
    | with_reducible exact Keep.refl _ _
    | with_reducible assumption
    | with_reducible refine readReg_keep _ _ _ _ _ _ (fun _ _ _ _ _ => ?_) ?_ ?_
    | with_reducible apply rdTxa_keep
    | with_reducible apply Keep.ite <;> intro _
    | with_reducible apply Keep.foldl <;> try intro _ _ _
    | with_reducible apply Keep.foldl_snd <;> try intro _ _ _
    | with_reducible refine Keep.of_snd ‹_ = (_, _)› ?_
    | with_reducible refine Keep.of_snd2 ‹_ = (_, _, _)› ?_
    | with_reducible apply Keep.of_id
    | split
    | dsimp only

theorem execTxaDlExpired_keep (a0 : _) (s : State) {t : State} (h : execTxaDlExpired a0 s = .next t) : Keep 16778038 s t := by
  unfold execTxaDlExpired at h
  injection h with h
  subst h
  repeat' first
    | exact rfl
    | with_reducible exact Keep.refl _ _
    | with_reducible assumption
    | with_reducible apply State.txaDrain_keep
    | with_reducible apply State.txaComplete_keep
    | with_reducible apply Keep.ite <;> intro _
    | with_reducible apply Keep.foldl <;> try intro _ _ _
    | with_reducible apply Keep.foldl_snd <;> try intro _ _ _
    | with_reducible refine Keep.of_snd ‹_ = (_, _)› ?_
    | with_reducible refine Keep.of_snd2 ‹_ = (_, _, _)› ?_
    | with_reducible apply Keep.of_id
    | split
    | dsimp only

theorem execTxaCtrData_keep (a0 : _) (a1 : _) (s : State) {t : State} (h : execTxaCtrData a0 a1 s = .next t) : Keep 16778034 s t := by
  unfold execTxaCtrData at h
  injection h with h
  subst h
  repeat' first
    | exact rfl
    | with_reducible exact Keep.refl _ _
    | with_reducible assumption
    | with_reducible refine writeReg_keep _ _ _ _ _ _ _ (fun _ _ _ _ _ _ => ?_) ?_ ?_
    | with_reducible apply wrTxa_keep
    | with_reducible apply Keep.ite <;> intro _
    | with_reducible apply Keep.foldl <;> try intro _ _ _
    | with_reducible apply Keep.foldl_snd <;> try intro _ _ _
    | with_reducible refine Keep.of_snd ‹_ = (_, _)› ?_
    | with_reducible refine Keep.of_snd2 ‹_ = (_, _, _)› ?_
    | with_reducible apply Keep.of_id
    | split
    | dsimp only

theorem execOffsetFeedbackWrite_keep (s : State) {t : State} (h : execOffsetFeedbackWrite s = .next t) : Keep 16777520 s t := by
  unfold execOffsetFeedbackWrite at h
  injection h with h
  subst h
  repeat' first
    | exact rfl
    | with_reducible exact Keep.refl _ _
    | with_reducible assumption
    | with_reducible apply State.txaCorrect_keep
    | with_reducible apply Keep.ite <;> intro _
    | with_reducible apply Keep.foldl <;> try intro _ _ _
    | with_reducible apply Keep.foldl_snd <;> try intro _ _ _
    | with_reducible refine Keep.of_snd ‹_ = (_, _)› ?_
    | with_reducible refine Keep.of_snd2 ‹_ = (_, _, _)› ?_
    | with_reducible apply Keep.of_id
    | split
    | dsimp only

theorem execFbDefer_keep (s : State) {t : State} (h : execFbDefer s = .next t) : Keep 16777520 s t := by
  unfold execFbDefer at h
  injection h with h
  subst h
  repeat' first
    | exact rfl
    | with_reducible exact Keep.refl _ _
    | with_reducible assumption
    | with_reducible apply State.inc_keep
    | with_reducible apply State.txaCorrect_keep
    | with_reducible apply Keep.ite <;> intro _
    | with_reducible apply Keep.foldl <;> try intro _ _ _
    | with_reducible apply Keep.foldl_snd <;> try intro _ _ _
    | with_reducible refine Keep.of_snd ‹_ = (_, _)› ?_
    | with_reducible refine Keep.of_snd2 ‹_ = (_, _, _)› ?_
    | with_reducible apply Keep.of_id
    | split
    | dsimp only

end Sys2Proof.Machine
end

