-- ==== Sys2Proof/Laws/KeepAir.lean ====
section
/-! SUPPORT. What each operation of Machine/Air.lean leaves alone. -/

set_option Elab.async false

namespace Sys2Proof.Machine

theorem State.ppduSent_keep {m : Nat} {s0 : State} (s : State) (a1 : _) (a2 : _) (hm : subMask 6357361 m = true) (h : Keep m s0 s) : Keep m s0 (State.ppduSent s a1 a2) := by
  refine Keep.lift (f := 6357361) ?_ hm h
  unfold State.ppduSent
  repeat' first
    | exact rfl
    | with_reducible exact Keep.refl _ _
    | with_reducible assumption
    | with_reducible apply State.phyUpd_keep
    | with_reducible apply State.wlinkUpd_keep
    | with_reducible apply State.sentLapse_keep
    | with_reducible apply State.frameEnd_keep
    | with_reducible apply State.twtEosp_keep
    | with_reducible apply Keep.ite <;> intro _
    | with_reducible apply Keep.foldl <;> try intro _ _ _
    | with_reducible apply Keep.foldl_snd <;> try intro _ _ _
    | with_reducible refine Keep.of_snd ‹_ = (_, _)› ?_
    | with_reducible refine Keep.of_snd2 ‹_ = (_, _, _)› ?_
    | with_reducible apply Keep.of_id
    | split
    | dsimp only

theorem State.ppduStatus_keep {m : Nat} {s0 : State} (s : State) (a1 : _) (a2 : _) (a3 : _) (hm : subMask 6357361 m = true) (h : Keep m s0 s) : Keep m s0 (State.ppduStatus s a1 a2 a3) := by
  refine Keep.lift (f := 6357361) ?_ hm h
  unfold State.ppduStatus
  repeat' first
    | exact rfl
    | with_reducible exact Keep.refl _ _
    | with_reducible assumption
    | with_reducible apply State.wlinkUpd_keep
    | with_reducible apply State.ppduSent_keep
    | with_reducible apply State.frameEnd_keep
    | with_reducible apply State.frameRetry_keep
    | with_reducible apply State.framePut_keep
    | with_reducible apply Keep.ite <;> intro _
    | with_reducible apply Keep.foldl <;> try intro _ _ _
    | with_reducible apply Keep.foldl_snd <;> try intro _ _ _
    | with_reducible refine Keep.of_snd ‹_ = (_, _)› ?_
    | with_reducible refine Keep.of_snd2 ‹_ = (_, _, _)› ?_
    | with_reducible apply Keep.of_id
    | split
    | dsimp only

theorem State.ppduStart_keep {m : Nat} {s0 : State} (s : State) (a1 : _) (a2 : _) (a3 : _) (a4 : _) (hm : subMask 4194320 m = true) (h : Keep m s0 s) : Keep m s0 (State.ppduStart s a1 a2 a3 a4) := by
  refine Keep.lift (f := 4194320) ?_ hm h
  unfold State.ppduStart
  repeat' first
    | exact rfl
    | with_reducible exact Keep.refl _ _
    | with_reducible assumption
    | with_reducible apply State.ppduCharge_keep
    | with_reducible apply State.emit_keep
    | with_reducible apply Keep.ite <;> intro _
    | with_reducible apply Keep.foldl <;> try intro _ _ _
    | with_reducible apply Keep.foldl_snd <;> try intro _ _ _
    | with_reducible refine Keep.of_snd ‹_ = (_, _)› ?_
    | with_reducible refine Keep.of_snd2 ‹_ = (_, _, _)› ?_
    | with_reducible apply Keep.of_id
    | split
    | dsimp only

theorem State.atHome_keep {m : Nat} {s0 : State} (s : State) (a1 : _) (a2 : _) (hf : ∀ q t, Keep m s0 t → Keep m s0 (a2 q t)) (hm : subMask 0 m = true) (h : Keep m s0 s) : Keep m s0 (State.atHome s a1 a2) := by
  unfold State.atHome
  repeat' first
    | exact rfl
    | exact subMask_trans rfl hm
    | with_reducible refine hf _ _ ?_
    | with_reducible exact Keep.refl _ _
    | with_reducible assumption
    | with_reducible apply Keep.ite <;> intro _
    | with_reducible apply Keep.foldl <;> try intro _ _ _
    | with_reducible apply Keep.foldl_snd <;> try intro _ _ _
    | with_reducible refine Keep.of_snd ‹_ = (_, _)› ?_
    | with_reducible refine Keep.of_snd2 ‹_ = (_, _, _)› ?_
    | with_reducible apply Keep.of_id
    | split
    | dsimp only

theorem State.txReturn_keep {m : Nat} {s0 : State} (s : State) (a1 : _) (a2 : _) (hm : subMask 31523185 m = true) (h : Keep m s0 s) : Keep m s0 (State.txReturn s a1 a2) := by
  refine Keep.lift (f := 31523185) ?_ hm h
  unfold State.txReturn
  repeat' first
    | exact rfl
    | with_reducible exact Keep.refl _ _
    | with_reducible assumption
    | with_reducible apply State.inc_keep
    | with_reducible apply State.ppduStatus_keep
    | with_reducible apply State.ccaUpd_keep
    | with_reducible apply State.fhRunDone_keep
    | with_reducible apply State.demodUpd_keep
    | with_reducible apply State.dlDone_keep
    | with_reducible apply Keep.ite <;> intro _
    | with_reducible apply Keep.foldl <;> try intro _ _ _
    | with_reducible apply Keep.foldl_snd <;> try intro _ _ _
    | with_reducible refine Keep.of_snd ‹_ = (_, _)› ?_
    | with_reducible refine Keep.of_snd2 ‹_ = (_, _, _)› ?_
    | with_reducible apply Keep.of_id
    | split
    | dsimp only

theorem State.txFinish_keep {m : Nat} {s0 : State} (s : State) (a1 : _) (a2 : _) (hm : subMask 32571761 m = true) (h : Keep m s0 s) : Keep m s0 (State.txFinish s a1 a2) := by
  refine Keep.lift (f := 32571761) ?_ hm h
  unfold State.txFinish
  repeat' first
    | exact rfl
    | with_reducible exact Keep.refl _ _
    | with_reducible assumption
    | with_reducible apply State.radUpd_keep
    | with_reducible apply State.txRadiate_keep
    | with_reducible apply State.calRxStart_keep
    | with_reducible apply State.pathUpd_keep
    | with_reducible apply State.visitsAbandon_keep
    | with_reducible refine State.atHome_keep _ _ _ (fun _ _ _ => ?_) ?_ ?_
    | with_reducible apply State.inc_keep
    | with_reducible apply State.raise_keep
    | with_reducible apply State.txReturn_keep
    | with_reducible apply Keep.ite <;> intro _
    | with_reducible apply Keep.foldl <;> try intro _ _ _
    | with_reducible apply Keep.foldl_snd <;> try intro _ _ _
    | with_reducible refine Keep.of_snd ‹_ = (_, _)› ?_
    | with_reducible refine Keep.of_snd2 ‹_ = (_, _, _)› ?_
    | with_reducible apply Keep.of_id
    | split
    | dsimp only

theorem State.txsEnd_keep {m : Nat} {s0 : State} (s : State) (a1 : _) (a2 : _) (hm : subMask 32571761 m = true) (h : Keep m s0 s) : Keep m s0 (State.txsEnd s a1 a2) := by
  refine Keep.lift (f := 32571761) ?_ hm h
  unfold State.txsEnd
  repeat' first
    | exact rfl
    | with_reducible exact Keep.refl _ _
    | with_reducible assumption
    | with_reducible apply State.txFinish_keep
    | with_reducible apply Keep.ite <;> intro _
    | with_reducible apply Keep.foldl <;> try intro _ _ _
    | with_reducible apply Keep.foldl_snd <;> try intro _ _ _
    | with_reducible refine Keep.of_snd ‹_ = (_, _)› ?_
    | with_reducible refine Keep.of_snd2 ‹_ = (_, _, _)› ?_
    | with_reducible apply Keep.of_id
    | split
    | dsimp only

theorem State.coexUpd_keep {m : Nat} {s0 : State} (s : State) (a1 : _) (a2 : _) (hm : subMask 1048576 m = true) (h : Keep m s0 s) : Keep m s0 (State.coexUpd s a1 a2) := by
  refine Keep.lift (f := 1048576) ?_ hm h
  unfold State.coexUpd
  repeat' first
    | exact rfl
    | with_reducible exact Keep.refl _ _
    | with_reducible assumption
    | with_reducible apply State.radUpd_keep
    | with_reducible apply Keep.ite <;> intro _
    | with_reducible apply Keep.foldl <;> try intro _ _ _
    | with_reducible apply Keep.foldl_snd <;> try intro _ _ _
    | with_reducible refine Keep.of_snd ‹_ = (_, _)› ?_
    | with_reducible refine Keep.of_snd2 ‹_ = (_, _, _)› ?_
    | with_reducible apply Keep.of_id
    | split
    | dsimp only

theorem State.coexConsent_keep {m : Nat} {s0 : State} (s : State) (a1 : _) (a2 : _) (hm : subMask 32571761 m = true) (h : Keep m s0 s) : Keep m s0 (State.coexConsent s a1 a2) := by
  refine Keep.lift (f := 32571761) ?_ hm h
  unfold State.coexConsent
  repeat' first
    | exact rfl
    | with_reducible exact Keep.refl _ _
    | with_reducible assumption
    | with_reducible apply State.txsEnd_keep
    | with_reducible apply State.incBy_keep
    | with_reducible apply State.coexUpd_keep
    | with_reducible apply Keep.ite <;> intro _
    | with_reducible apply Keep.foldl <;> try intro _ _ _
    | with_reducible apply Keep.foldl_snd <;> try intro _ _ _
    | with_reducible refine Keep.of_snd ‹_ = (_, _)› ?_
    | with_reducible refine Keep.of_snd2 ‹_ = (_, _, _)› ?_
    | with_reducible apply Keep.of_id
    | split
    | dsimp only

theorem State.coexDecide_keep {m : Nat} {s0 : State} (s : State) (a1 : _) (a2 : _) (hm : subMask 32571761 m = true) (h : Keep m s0 s) : Keep m s0 (State.coexDecide s a1 a2) := by
  refine Keep.lift (f := 32571761) ?_ hm h
  unfold State.coexDecide
  repeat' first
    | exact rfl
    | with_reducible exact Keep.refl _ _
    | with_reducible assumption
    | with_reducible apply State.coexConsent_keep
    | with_reducible apply Keep.ite <;> intro _
    | with_reducible apply Keep.foldl <;> try intro _ _ _
    | with_reducible apply Keep.foldl_snd <;> try intro _ _ _
    | with_reducible refine Keep.of_snd ‹_ = (_, _)› ?_
    | with_reducible refine Keep.of_snd2 ‹_ = (_, _, _)› ?_
    | with_reducible apply Keep.of_id
    | split
    | dsimp only

theorem State.coexSettle_keep {m : Nat} {s0 : State} (s : State) (hm : subMask 32571761 m = true) (h : Keep m s0 s) : Keep m s0 (State.coexSettle s) := by
  refine Keep.lift (f := 32571761) ?_ hm h
  unfold State.coexSettle
  repeat' first
    | exact rfl
    | with_reducible exact Keep.refl _ _
    | with_reducible assumption
    | with_reducible apply State.coexDecide_keep
    | with_reducible apply Keep.ite <;> intro _
    | with_reducible apply Keep.foldl <;> try intro _ _ _
    | with_reducible apply Keep.foldl_snd <;> try intro _ _ _
    | with_reducible refine Keep.of_snd ‹_ = (_, _)› ?_
    | with_reducible refine Keep.of_snd2 ‹_ = (_, _, _)› ?_
    | with_reducible apply Keep.of_id
    | split
    | dsimp only

theorem State.coexOpen_keep {m : Nat} {s0 : State} (s : State) (a1 : _) (hm : subMask 1048576 m = true) (h : Keep m s0 s) : Keep m s0 (State.coexOpen s a1) := by
  refine Keep.lift (f := 1048576) ?_ hm h
  unfold State.coexOpen
  repeat' first
    | exact rfl
    | with_reducible exact Keep.refl _ _
    | with_reducible assumption
    | with_reducible apply State.gateOpens_keep
    | with_reducible apply Keep.ite <;> intro _
    | with_reducible apply Keep.foldl <;> try intro _ _ _
    | with_reducible apply Keep.foldl_snd <;> try intro _ _ _
    | with_reducible refine Keep.of_snd ‹_ = (_, _)› ?_
    | with_reducible refine Keep.of_snd2 ‹_ = (_, _, _)› ?_
    | with_reducible apply Keep.of_id
    | split
    | dsimp only

theorem State.coexEnd_keep {m : Nat} {s0 : State} (s : State) (a1 : _) (a2 : _) (hm : subMask 1048576 m = true) (h : Keep m s0 s) : Keep m s0 (State.coexEnd s a1 a2) := by
  refine Keep.lift (f := 1048576) ?_ hm h
  unfold State.coexEnd
  repeat' first
    | exact rfl
    | with_reducible exact Keep.refl _ _
    | with_reducible assumption
    | with_reducible apply State.coexOpen_keep
    | with_reducible apply State.coexUpd_keep
    | with_reducible apply Keep.ite <;> intro _
    | with_reducible apply Keep.foldl <;> try intro _ _ _
    | with_reducible apply Keep.foldl_snd <;> try intro _ _ _
    | with_reducible refine Keep.of_snd ‹_ = (_, _)› ?_
    | with_reducible refine Keep.of_snd2 ‹_ = (_, _, _)› ?_
    | with_reducible apply Keep.of_id
    | split
    | dsimp only

theorem execCoexReqRise_keep (a0 : _) (a1 : _) (a2 : _) (s : State) {t : State} (h : execCoexReqRise a0 a1 a2 s = .next t) : Keep 32571761 s t := by
  unfold execCoexReqRise at h
  injection h with h
  subst h
  repeat' first
    | exact rfl
    | with_reducible exact Keep.refl _ _
    | with_reducible assumption
    | with_reducible apply State.coexSettle_keep
    | with_reducible apply State.coexUpd_keep
    | with_reducible apply Keep.ite <;> intro _
    | with_reducible apply Keep.foldl <;> try intro _ _ _
    | with_reducible apply Keep.foldl_snd <;> try intro _ _ _
    | with_reducible refine Keep.of_snd ‹_ = (_, _)› ?_
    | with_reducible refine Keep.of_snd2 ‹_ = (_, _, _)› ?_
    | with_reducible apply Keep.of_id
    | split
    | dsimp only

theorem execCoexReqFall_keep (a0 : _) (s : State) {t : State} (h : execCoexReqFall a0 s = .next t) : Keep 1048576 s t := by
  unfold execCoexReqFall at h
  injection h with h
  subst h
  repeat' first
    | exact rfl
    | with_reducible exact Keep.refl _ _
    | with_reducible assumption
    | with_reducible apply State.coexEnd_keep
    | with_reducible apply Keep.ite <;> intro _
    | with_reducible apply Keep.foldl <;> try intro _ _ _
    | with_reducible apply Keep.foldl_snd <;> try intro _ _ _
    | with_reducible refine Keep.of_snd ‹_ = (_, _)› ?_
    | with_reducible refine Keep.of_snd2 ‹_ = (_, _, _)› ?_
    | with_reducible apply Keep.of_id
    | split
    | dsimp only

theorem execMaxDefer_keep (a0 : _) (a1 : _) (s : State) {t : State} (h : execMaxDefer a0 a1 s = .next t) : Keep 32571761 s t := by
  unfold execMaxDefer at h
  injection h with h
  subst h
  repeat' first
    | exact rfl
    | with_reducible exact Keep.refl _ _
    | with_reducible assumption
    | with_reducible apply State.coexSettle_keep
    | with_reducible apply State.coexConsent_keep
    | with_reducible apply Keep.ite <;> intro _
    | with_reducible apply Keep.foldl <;> try intro _ _ _
    | with_reducible apply Keep.foldl_snd <;> try intro _ _ _
    | with_reducible refine Keep.of_snd ‹_ = (_, _)› ?_
    | with_reducible refine Keep.of_snd2 ‹_ = (_, _, _)› ?_
    | with_reducible apply Keep.of_id
    | split
    | dsimp only

theorem execCoexFault_keep (a0 : _) (a1 : _) (s : State) {t : State} (h : execCoexFault a0 a1 s = .next t) : Keep 1048848 s t := by
  unfold execCoexFault at h
  injection h with h
  subst h
  repeat' first
    | exact rfl
    | with_reducible exact Keep.refl _ _
    | with_reducible assumption
    | with_reducible apply State.raise_keep
    | with_reducible apply State.coexEnd_keep
    | with_reducible apply Keep.ite <;> intro _
    | with_reducible apply Keep.foldl <;> try intro _ _ _
    | with_reducible apply Keep.foldl_snd <;> try intro _ _ _
    | with_reducible refine Keep.of_snd ‹_ = (_, _)› ?_
    | with_reducible refine Keep.of_snd2 ‹_ = (_, _, _)› ?_
    | with_reducible apply Keep.of_id
    | split
    | dsimp only

theorem execCoexPortReturn_keep (a0 : _) (s : State) {t : State} (h : execCoexPortReturn a0 s = .next t) : Keep 1048576 s t := by
  unfold execCoexPortReturn at h
  injection h with h
  subst h
  repeat' first
    | exact rfl
    | with_reducible exact Keep.refl _ _
    | with_reducible assumption
    | with_reducible apply State.coexUpd_keep
    | with_reducible apply Keep.ite <;> intro _
    | with_reducible apply Keep.foldl <;> try intro _ _ _
    | with_reducible apply Keep.foldl_snd <;> try intro _ _ _
    | with_reducible refine Keep.of_snd ‹_ = (_, _)› ?_
    | with_reducible refine Keep.of_snd2 ‹_ = (_, _, _)› ?_
    | with_reducible apply Keep.of_id
    | split
    | dsimp only

theorem State.txPresent_keep {m : Nat} {s0 : State} (s : State) (a1 : _) (hm : subMask 32571761 m = true) (h : Keep m s0 s) : Keep m s0 (State.txPresent s a1) := by
  refine Keep.lift (f := 32571761) ?_ hm h
  unfold State.txPresent
  repeat' first
    | exact rfl
    | with_reducible exact Keep.refl _ _
    | with_reducible assumption
    | with_reducible apply State.radUpd_keep
    | with_reducible apply State.beamsName_keep
    | with_reducible apply State.txFinish_keep
    | with_reducible apply Keep.ite <;> intro _
    | with_reducible apply Keep.foldl <;> try intro _ _ _
    | with_reducible apply Keep.foldl_snd <;> try intro _ _ _
    | with_reducible refine Keep.of_snd ‹_ = (_, _)› ?_
    | with_reducible refine Keep.of_snd2 ‹_ = (_, _, _)› ?_
    | with_reducible apply Keep.of_id
    | split
    | dsimp only

theorem State.ppduPresent_keep {m : Nat} {s0 : State} (s : State) (a1 : _) (a2 : _) (a3 : _) (a4 : _) (hm : subMask 32571761 m = true) (h : Keep m s0 s) : Keep m s0 (State.ppduPresent s a1 a2 a3 a4) := by
  refine Keep.lift (f := 32571761) ?_ hm h
  unfold State.ppduPresent
  repeat' first
    | exact rfl
    | with_reducible exact Keep.refl _ _
    | with_reducible assumption
    | with_reducible apply State.txPresent_keep
    | with_reducible apply Keep.ite <;> intro _
    | with_reducible apply Keep.foldl <;> try intro _ _ _
    | with_reducible apply Keep.foldl_snd <;> try intro _ _ _
    | with_reducible refine Keep.of_snd ‹_ = (_, _)› ?_
    | with_reducible refine Keep.of_snd2 ‹_ = (_, _, _)› ?_
    | with_reducible apply Keep.of_id
    | split
    | dsimp only

theorem State.ppduExtra_keep {m : Nat} {s0 : State} (s : State) (a1 : _) (a2 : _) (a3 : _) (hm : subMask 32571761 m = true) (h : Keep m s0 s) : Keep m s0 (State.ppduExtra s a1 a2 a3) := by
  refine Keep.lift (f := 32571761) ?_ hm h
  unfold State.ppduExtra
  repeat' first
    | exact rfl
    | with_reducible exact Keep.refl _ _
    | with_reducible assumption
    | with_reducible apply State.ppduPresent_keep
    | with_reducible apply State.wacUpd_keep
    | with_reducible apply State.ppduDue_keep
    | with_reducible apply Keep.ite <;> intro _
    | with_reducible apply Keep.foldl <;> try intro _ _ _
    | with_reducible apply Keep.foldl_snd <;> try intro _ _ _
    | with_reducible refine Keep.of_snd ‹_ = (_, _)› ?_
    | with_reducible refine Keep.of_snd2 ‹_ = (_, _, _)› ?_
    | with_reducible apply Keep.of_id
    | split
    | dsimp only

theorem execPpduTransmitRequest_keep (a0 : _) (a1 : _) (a2 : _) (a3 : _) (a4 : _) (s : State) {t : State} (h : execPpduTransmitRequest a0 a1 a2 a3 a4 s = .next t) : Keep 32604529 s t := by
  unfold execPpduTransmitRequest at h
  injection h with h
  subst h
  repeat' first
    | exact rfl
    | with_reducible exact Keep.refl _ _
    | with_reducible assumption
    | with_reducible apply State.schedule_keep
    | with_reducible apply State.ppduPresent_keep
    | with_reducible apply State.ppduStatus_keep
    | with_reducible apply State.ppduExtra_keep
    | with_reducible apply Keep.ite <;> intro _
    | with_reducible apply Keep.foldl <;> try intro _ _ _
    | with_reducible apply Keep.foldl_snd <;> try intro _ _ _
    | with_reducible refine Keep.of_snd ‹_ = (_, _)› ?_
    | with_reducible refine Keep.of_snd2 ‹_ = (_, _, _)› ?_
    | with_reducible apply Keep.of_id
    | split
    | dsimp only

theorem execDlRun_keep (s : State) {t : State} (h : execDlRun s = .next t) : Keep 32571761 s t := by
  unfold execDlRun at h
  injection h with h
  subst h
  repeat' first
    | exact rfl
    | with_reducible exact Keep.refl _ _
    | with_reducible assumption
    | with_reducible apply State.fhUpd_keep
    | with_reducible apply State.txPresent_keep
    | with_reducible apply Keep.ite <;> intro _
    | with_reducible apply Keep.foldl <;> try intro _ _ _
    | with_reducible apply Keep.foldl_snd <;> try intro _ _ _
    | with_reducible refine Keep.of_snd ‹_ = (_, _)› ?_
    | with_reducible refine Keep.of_snd2 ‹_ = (_, _, _)› ?_
    | with_reducible apply Keep.of_id
    | split
    | dsimp only

theorem State.dlWindow_keep {m : Nat} {s0 : State} (s : State) (a1 : _) (a2 : _) (hm : subMask 32571761 m = true) (h : Keep m s0 s) : Keep m s0 (State.dlWindow s a1 a2) := by
  refine Keep.lift (f := 32571761) ?_ hm h
  unfold State.dlWindow
  repeat' first
    | exact rfl
    | with_reducible exact Keep.refl _ _
    | with_reducible assumption
    | with_reducible apply State.dlDone_keep
    | with_reducible apply State.dlNext_keep
    | with_reducible apply State.txaUpd_keep
    | with_reducible apply State.txPresent_keep
    | with_reducible apply Keep.ite <;> intro _
    | with_reducible apply Keep.foldl <;> try intro _ _ _
    | with_reducible apply Keep.foldl_snd <;> try intro _ _ _
    | with_reducible refine Keep.of_snd ‹_ = (_, _)› ?_
    | with_reducible refine Keep.of_snd2 ‹_ = (_, _, _)› ?_
    | with_reducible apply Keep.of_id
    | split
    | dsimp only

theorem execDownlinkWindow1_keep (a0 : _) (s : State) {t : State} (h : execDownlinkWindow1 a0 s = .next t) : Keep 32571761 s t := by
  unfold execDownlinkWindow1 at h
  injection h with h
  subst h
  repeat' first
    | exact rfl
    | with_reducible exact Keep.refl _ _
    | with_reducible assumption
    | with_reducible apply State.dlWindow_keep
    | with_reducible apply Keep.ite <;> intro _
    | with_reducible apply Keep.foldl <;> try intro _ _ _
    | with_reducible apply Keep.foldl_snd <;> try intro _ _ _
    | with_reducible refine Keep.of_snd ‹_ = (_, _)› ?_
    | with_reducible refine Keep.of_snd2 ‹_ = (_, _, _)› ?_
    | with_reducible apply Keep.of_id
    | split
    | dsimp only

theorem execDownlinkWindow2_keep (a0 : _) (s : State) {t : State} (h : execDownlinkWindow2 a0 s = .next t) : Keep 32571761 s t := by
  unfold execDownlinkWindow2 at h
  injection h with h
  subst h
  repeat' first
    | exact rfl
    | with_reducible exact Keep.refl _ _
    | with_reducible assumption
    | with_reducible apply State.dlWindow_keep
    | with_reducible apply Keep.ite <;> intro _
    | with_reducible apply Keep.foldl <;> try intro _ _ _
    | with_reducible apply Keep.foldl_snd <;> try intro _ _ _
    | with_reducible refine Keep.of_snd ‹_ = (_, _)› ?_
    | with_reducible refine Keep.of_snd2 ‹_ = (_, _, _)› ?_
    | with_reducible apply Keep.of_id
    | split
    | dsimp only

theorem State.txBeam_keep {m : Nat} {s0 : State} (s : State) (a1 : _) (a2 : _) (a3 : _) (a4 : _) (a5 : _) (hm : subMask 1048880 m = true) (h : Keep m s0 s) : Keep m s0 (State.txBeam s a1 a2 a3 a4 a5) := by
  refine Keep.lift (f := 1048880) ?_ hm h
  unfold State.txBeam
  repeat' first
    | exact rfl
    | with_reducible exact Keep.refl _ _
    | with_reducible assumption
    | with_reducible apply State.beamUse_keep
    | with_reducible apply State.inc_keep
    | with_reducible apply Keep.ite <;> intro _
    | with_reducible apply Keep.foldl <;> try intro _ _ _
    | with_reducible apply Keep.foldl_snd <;> try intro _ _ _
    | with_reducible refine Keep.of_snd ‹_ = (_, _)› ?_
    | with_reducible refine Keep.of_snd2 ‹_ = (_, _, _)› ?_
    | with_reducible apply Keep.of_id
    | split
    | dsimp only

theorem State.txEffects_keep {m : Nat} {s0 : State} (s : State) (a1 : _) (a2 : _) (a3 : _) (hm : subMask 32506160 m = true) (h : Keep m s0 s) : Keep m s0 (State.txEffects s a1 a2 a3) := by
  refine Keep.lift (f := 32506160) ?_ hm h
  unfold State.txEffects
  repeat' first
    | exact rfl
    | with_reducible exact Keep.refl _ _
    | with_reducible assumption
    | with_reducible apply State.quadUpd_keep
    | with_reducible apply State.txBeam_keep
    | with_reducible apply State.pathUpd_keep
    | with_reducible apply State.calTxStart_keep
    | with_reducible apply State.dpdStart_keep
    | with_reducible apply State.incBy_keep
    | with_reducible apply State.ppduStart_keep
    | with_reducible apply State.inc_keep
    | with_reducible apply State.phySend_keep
    | with_reducible apply State.fhRunStart_keep
    | with_reducible apply State.demodUpd_keep
    | with_reducible apply State.txaAbort_keep
    | with_reducible apply State.emit_keep
    | with_reducible apply Keep.ite <;> intro _
    | with_reducible apply Keep.foldl <;> try intro _ _ _
    | with_reducible apply Keep.foldl_snd <;> try intro _ _ _
    | with_reducible refine Keep.of_snd ‹_ = (_, _)› ?_
    | with_reducible refine Keep.of_snd2 ‹_ = (_, _, _)› ?_
    | with_reducible apply Keep.of_id
    | split
    | dsimp only

theorem State.dutyCharge_keep {m : Nat} {s0 : State} (s : State) (a1 : _) (hm : subMask 1048576 m = true) (h : Keep m s0 s) : Keep m s0 (State.dutyCharge s a1) := by
  refine Keep.lift (f := 1048576) ?_ hm h
  unfold State.dutyCharge
  repeat' first
    | exact rfl
    | with_reducible exact Keep.refl _ _
    | with_reducible assumption
    | with_reducible apply State.radUpd_keep
    | with_reducible apply Keep.ite <;> intro _
    | with_reducible apply Keep.foldl <;> try intro _ _ _
    | with_reducible apply Keep.foldl_snd <;> try intro _ _ _
    | with_reducible refine Keep.of_snd ‹_ = (_, _)› ?_
    | with_reducible refine Keep.of_snd2 ‹_ = (_, _, _)› ?_
    | with_reducible apply Keep.of_id
    | split
    | dsimp only

theorem State.txStart_keep {m : Nat} {s0 : State} (s : State) (a1 : _) (a2 : _) (a3 : _) (a4 : _) (a5 : _) (hm : subMask 32571761 m = true) (h : Keep m s0 s) : Keep m s0 (State.txStart s a1 a2 a3 a4 a5) := by
  refine Keep.lift (f := 32571761) ?_ hm h
  unfold State.txStart
  repeat' first
    | exact rfl
    | with_reducible exact Keep.refl _ _
    | with_reducible assumption
    | with_reducible apply State.txFinish_keep
    | with_reducible apply State.inc_keep
    | with_reducible apply State.raise_keep
    | with_reducible apply State.radUpd_keep
    | with_reducible apply State.txEffects_keep
    | with_reducible apply State.dutyCharge_keep
    | with_reducible apply Keep.ite <;> intro _
    | with_reducible apply Keep.foldl <;> try intro _ _ _
    | with_reducible apply Keep.foldl_snd <;> try intro _ _ _
    | with_reducible refine Keep.of_snd ‹_ = (_, _)› ?_
    | with_reducible refine Keep.of_snd2 ‹_ = (_, _, _)› ?_
    | with_reducible apply Keep.of_id
    | split
    | dsimp only

theorem execTransmissionStart_keep (a0 : _) (a1 : _) (s : State) {t : State} (h : execTransmissionStart a0 a1 s = .next t) : Keep 32571761 s t := by
  unfold execTransmissionStart at h
  injection h with h
  subst h
  repeat' first
    | exact rfl
    | with_reducible exact Keep.refl _ _
    | with_reducible assumption
    | with_reducible apply State.coexSettle_keep
    | with_reducible apply State.txStart_keep
    | with_reducible apply Keep.ite <;> intro _
    | with_reducible apply Keep.foldl <;> try intro _ _ _
    | with_reducible apply Keep.foldl_snd <;> try intro _ _ _
    | with_reducible refine Keep.of_snd ‹_ = (_, _)› ?_
    | with_reducible refine Keep.of_snd2 ‹_ = (_, _, _)› ?_
    | with_reducible apply Keep.of_id
    | split
    | dsimp only

theorem execLateTolExpiry_keep (a0 : _) (s : State) {t : State} (h : execLateTolExpiry a0 s = .next t) : Keep 32571761 s t := by
  unfold execLateTolExpiry at h
  injection h with h
  subst h
  repeat' first
    | exact rfl
    | with_reducible exact Keep.refl _ _
    | with_reducible assumption
    | with_reducible apply State.coexSettle_keep
    | with_reducible apply State.txFinish_keep
    | with_reducible apply Keep.ite <;> intro _
    | with_reducible apply Keep.foldl <;> try intro _ _ _
    | with_reducible apply Keep.foldl_snd <;> try intro _ _ _
    | with_reducible refine Keep.of_snd ‹_ = (_, _)› ?_
    | with_reducible refine Keep.of_snd2 ‹_ = (_, _, _)› ?_
    | with_reducible apply Keep.of_id
    | split
    | dsimp only

theorem execTransmissionEnd_keep (a0 : _) (s : State) {t : State} (h : execTransmissionEnd a0 s = .next t) : Keep 32571761 s t := by
  unfold execTransmissionEnd at h
  injection h with h
  subst h
  repeat' first
    | exact rfl
    | with_reducible exact Keep.refl _ _
    | with_reducible assumption
    | with_reducible apply State.coexSettle_keep
    | with_reducible apply State.txFinish_keep
    | with_reducible apply Keep.ite <;> intro _
    | with_reducible apply Keep.foldl <;> try intro _ _ _
    | with_reducible apply Keep.foldl_snd <;> try intro _ _ _
    | with_reducible refine Keep.of_snd ‹_ = (_, _)› ?_
    | with_reducible refine Keep.of_snd2 ‹_ = (_, _, _)› ?_
    | with_reducible apply Keep.of_id
    | split
    | dsimp only

theorem State.lockGone_keep {m : Nat} {s0 : State} (s : State) (a1 : _) (a2 : _) (a3 : _) (hm : subMask 32571761 m = true) (h : Keep m s0 s) : Keep m s0 (State.lockGone s a1 a2 a3) := by
  refine Keep.lift (f := 32571761) ?_ hm h
  unfold State.lockGone
  repeat' first
    | exact rfl
    | with_reducible exact Keep.refl _ _
    | with_reducible assumption
    | with_reducible apply State.synUpd_keep
    | with_reducible apply State.sets_keep
    | with_reducible apply State.raise_keep
    | with_reducible apply State.phyLose_keep
    | with_reducible apply State.txsEnd_keep
    | with_reducible apply State.pathUpd_keep
    | with_reducible apply State.inc_keep
    | with_reducible apply Keep.ite <;> intro _
    | with_reducible apply Keep.foldl <;> try intro _ _ _
    | with_reducible apply Keep.foldl_snd <;> try intro _ _ _
    | with_reducible refine Keep.of_snd ‹_ = (_, _)› ?_
    | with_reducible refine Keep.of_snd2 ‹_ = (_, _, _)› ?_
    | with_reducible apply Keep.of_id
    | split
    | dsimp only

theorem execLockLost_keep (a0 : _) (a1 : _) (s : State) {t : State} (h : execLockLost a0 a1 s = .next t) : Keep 32571761 s t := by
  unfold execLockLost at h
  injection h with h
  subst h
  repeat' first
    | exact rfl
    | with_reducible exact Keep.refl _ _
    | with_reducible assumption
    | with_reducible apply State.coexSettle_keep
    | with_reducible apply State.lockGone_keep
    | with_reducible apply Keep.ite <;> intro _
    | with_reducible apply Keep.foldl <;> try intro _ _ _
    | with_reducible apply Keep.foldl_snd <;> try intro _ _ _
    | with_reducible refine Keep.of_snd ‹_ = (_, _)› ?_
    | with_reducible refine Keep.of_snd2 ‹_ = (_, _, _)› ?_
    | with_reducible apply Keep.of_id
    | split
    | dsimp only

theorem execRefclkLost_keep (s : State) {t : State} (h : execRefclkLost s = .next t) : Keep 32589169 s t := by
  unfold execRefclkLost at h
  injection h with h
  subst h
  repeat' first
    | exact rfl
    | with_reducible exact Keep.refl _ _
    | with_reducible assumption
    | with_reducible apply State.txsEnd_keep
    | with_reducible apply State.raise_keep
    | with_reducible apply State.lockGone_keep
    | with_reducible apply State.coexSettle_keep
    | with_reducible apply State.ntuRefLost_keep
    | with_reducible apply Keep.ite <;> intro _
    | with_reducible apply Keep.foldl <;> try intro _ _ _
    | with_reducible apply Keep.foldl_snd <;> try intro _ _ _
    | (rewrite [State.mk_eq_updOf]; (with_reducible refine Keep.node 16384 ?_ ?_ ?_); · refine Keep.upd 16384 ?_ ?_ ?_ ?_ ?_ (fun p hp => ?_); exact rfl; exact rfl; exact rfl; exact rfl; exact rfl; cases p <;> first | exact absurd hp (by decide) | exact rfl)
    | with_reducible refine Keep.of_snd ‹_ = (_, _)› ?_
    | with_reducible refine Keep.of_snd2 ‹_ = (_, _, _)› ?_
    | with_reducible apply Keep.of_id
    | split
    | dsimp only

theorem execRefclkRestore_keep (s : State) {t : State} (h : execRefclkRestore s = .next t) : Keep 1066288 s t := by
  unfold execRefclkRestore at h
  injection h with h
  subst h
  repeat' first
    | exact rfl
    | with_reducible exact Keep.refl _ _
    | with_reducible assumption
    | with_reducible apply State.synUpd_keep
    | with_reducible apply State.set_keep
    | with_reducible apply State.ebufsSlip_keep
    | with_reducible apply State.ntuRefBack_keep
    | with_reducible apply Keep.ite <;> intro _
    | with_reducible apply Keep.foldl <;> try intro _ _ _
    | with_reducible apply Keep.foldl_snd <;> try intro _ _ _
    | (rewrite [State.mk_eq_updOf]; (with_reducible refine Keep.node 16384 ?_ ?_ ?_); · refine Keep.upd 16384 ?_ ?_ ?_ ?_ ?_ (fun p hp => ?_); exact rfl; exact rfl; exact rfl; exact rfl; exact rfl; cases p <;> first | exact absurd hp (by decide) | exact rfl)
    | with_reducible refine Keep.of_snd ‹_ = (_, _)› ?_
    | with_reducible refine Keep.of_snd2 ‹_ = (_, _, _)› ?_
    | with_reducible apply Keep.of_id
    | split
    | dsimp only

theorem execAsyncInResume_keep (a0 : _) (s : State) {t : State} (h : execAsyncInResume a0 s = .next t) : Keep 1048880 s t := by
  unfold execAsyncInResume at h
  injection h with h
  subst h
  repeat' first
    | exact rfl
    | with_reducible exact Keep.refl _ _
    | with_reducible assumption
    | with_reducible apply State.set_keep
    | with_reducible apply State.ebufsSlip_keep
    | with_reducible apply State.txLeave_keep
    | with_reducible apply Keep.ite <;> intro _
    | with_reducible apply Keep.foldl <;> try intro _ _ _
    | with_reducible apply Keep.foldl_snd <;> try intro _ _ _
    | with_reducible refine Keep.of_snd ‹_ = (_, _)› ?_
    | with_reducible refine Keep.of_snd2 ‹_ = (_, _, _)› ?_
    | with_reducible apply Keep.of_id
    | split
    | dsimp only

theorem execCalOffer_keep (a0 : _) (a1 : _) (s : State) {t : State} (h : execCalOffer a0 a1 s = .next t) : Keep 1048608 s t := by
  unfold execCalOffer at h
  injection h with h
  subst h
  repeat' first
    | exact rfl
    | with_reducible exact Keep.refl _ _
    | with_reducible assumption
    | with_reducible apply State.calSettle_keep
    | with_reducible apply Keep.ite <;> intro _
    | with_reducible apply Keep.foldl <;> try intro _ _ _
    | with_reducible apply Keep.foldl_snd <;> try intro _ _ _
    | with_reducible refine Keep.of_snd ‹_ = (_, _)› ?_
    | with_reducible refine Keep.of_snd2 ‹_ = (_, _, _)› ?_
    | with_reducible apply Keep.of_id
    | split
    | dsimp only

theorem State.dutyWake_keep {m : Nat} {s0 : State} (s : State) (hm : subMask 1048576 m = true) (h : Keep m s0 s) : Keep m s0 (State.dutyWake s) := by
  refine Keep.lift (f := 1048576) ?_ hm h
  unfold State.dutyWake
  repeat' first
    | exact rfl
    | with_reducible exact Keep.refl _ _
    | with_reducible assumption
    | with_reducible apply State.radUpd_keep
    | with_reducible apply Keep.ite <;> intro _
    | with_reducible apply Keep.foldl <;> try intro _ _ _
    | with_reducible apply Keep.foldl_snd <;> try intro _ _ _
    | with_reducible refine Keep.of_snd ‹_ = (_, _)› ?_
    | with_reducible refine Keep.of_snd2 ‹_ = (_, _, _)› ?_
    | with_reducible apply Keep.of_id
    | split
    | dsimp only

theorem execDutyBucketClose_keep (s : State) {t : State} (h : execDutyBucketClose s = .next t) : Keep 1048576 s t := by
  unfold execDutyBucketClose at h
  injection h with h
  subst h
  repeat' first
    | exact rfl
    | with_reducible exact Keep.refl _ _
    | with_reducible assumption
    | with_reducible apply State.radUpd_keep
    | with_reducible apply Keep.ite <;> intro _
    | with_reducible apply Keep.foldl <;> try intro _ _ _
    | with_reducible apply Keep.foldl_snd <;> try intro _ _ _
    | with_reducible refine Keep.of_snd ‹_ = (_, _)› ?_
    | with_reducible refine Keep.of_snd2 ‹_ = (_, _, _)› ?_
    | with_reducible apply Keep.of_id
    | split
    | dsimp only

theorem State.afcLapse_keep {m : Nat} {s0 : State} (s : State) (a1 : _) (hm : subMask 272 m = true) (h : Keep m s0 s) : Keep m s0 (State.afcLapse s a1) := by
  refine Keep.lift (f := 272) ?_ hm h
  unfold State.afcLapse
  repeat' first
    | exact rfl
    | with_reducible exact Keep.refl _ _
    | with_reducible assumption
    | with_reducible apply State.raise_keep
    | with_reducible apply Keep.ite <;> intro _
    | with_reducible apply Keep.foldl <;> try intro _ _ _
    | with_reducible apply Keep.foldl_snd <;> try intro _ _ _
    | with_reducible refine Keep.of_snd ‹_ = (_, _)› ?_
    | with_reducible refine Keep.of_snd2 ‹_ = (_, _, _)› ?_
    | with_reducible apply Keep.of_id
    | split
    | dsimp only

theorem execAfcExpired_keep (s : State) {t : State} (h : execAfcExpired s = .next t) : Keep 1048848 s t := by
  unfold execAfcExpired at h
  injection h with h
  subst h
  repeat' first
    | exact rfl
    | with_reducible exact Keep.refl _ _
    | with_reducible assumption
    | with_reducible apply State.afcLapse_keep
    | with_reducible apply State.radUpd_keep
    | with_reducible apply Keep.ite <;> intro _
    | with_reducible apply Keep.foldl <;> try intro _ _ _
    | with_reducible apply Keep.foldl_snd <;> try intro _ _ _
    | with_reducible refine Keep.of_snd ‹_ = (_, _)› ?_
    | with_reducible refine Keep.of_snd2 ‹_ = (_, _, _)› ?_
    | with_reducible apply Keep.of_id
    | split
    | dsimp only

theorem State.afcUnlock_keep {m : Nat} {s0 : State} (s : State) (u1 : State) (hm : subMask 272 m = true) (h : Keep m s0 s) : Keep m s0 (State.afcUnlock s u1) := by
  refine Keep.lift (f := 272) ?_ hm h
  unfold State.afcUnlock
  repeat' first
    | exact rfl
    | with_reducible exact Keep.refl _ _
    | with_reducible assumption
    | with_reducible apply State.afcLapse_keep
    | with_reducible apply Keep.ite <;> intro _
    | with_reducible apply Keep.foldl <;> try intro _ _ _
    | with_reducible apply Keep.foldl_snd <;> try intro _ _ _
    | with_reducible refine Keep.of_snd ‹_ = (_, _)› ?_
    | with_reducible refine Keep.of_snd2 ‹_ = (_, _, _)› ?_
    | with_reducible apply Keep.of_id
    | split
    | dsimp only

end Sys2Proof.Machine
end

