-- ==== Sys2Proof/Laws/KeepFlwTbl.lean ====
section
/-! SUPPORT. What each operation of Machine/FlwTbl.lean leaves alone. -/

set_option Elab.async false

namespace Sys2Proof.Machine

theorem State.setFent_keep {m : Nat} {s0 : State} (s : State) (a1 : _) (a2 : _) (a3 : _) (a4 : _) (hm : subMask 33554432 m = true) (h : Keep m s0 s) : Keep m s0 (State.setFent s a1 a2 a3 a4) := by
  refine Keep.lift (f := 33554432) ?_ hm h
  unfold State.setFent
  repeat' first
    | exact rfl
    | with_reducible exact Keep.refl _ _
    | with_reducible assumption
    | with_reducible apply State.pkUpd_keep
    | with_reducible apply Keep.ite <;> intro _
    | with_reducible apply Keep.foldl <;> try intro _ _ _
    | with_reducible apply Keep.foldl_snd <;> try intro _ _ _
    | with_reducible refine Keep.of_snd ‹_ = (_, _)› ?_
    | with_reducible refine Keep.of_snd2 ‹_ = (_, _, _)› ?_
    | with_reducible apply Keep.of_id
    | split
    | dsimp only

theorem State.pkMark_keep {m : Nat} {s0 : State} (s : State) (a1 : _) (a2 : _) (hm : subMask 33554704 m = true) (h : Keep m s0 s) : Keep m s0 (State.pkMark s a1 a2) := by
  refine Keep.lift (f := 33554704) ?_ hm h
  unfold State.pkMark
  repeat' first
    | exact rfl
    | with_reducible exact Keep.refl _ _
    | with_reducible assumption
    | with_reducible apply State.pkUpd_keep
    | with_reducible apply State.raise_keep
    | with_reducible apply Keep.ite <;> intro _
    | with_reducible apply Keep.foldl <;> try intro _ _ _
    | with_reducible apply Keep.foldl_snd <;> try intro _ _ _
    | with_reducible refine Keep.of_snd ‹_ = (_, _)› ?_
    | with_reducible refine Keep.of_snd2 ‹_ = (_, _, _)› ?_
    | with_reducible apply Keep.of_id
    | split
    | dsimp only

theorem State.flowCache_keep {m : Nat} {s0 : State} (s : State) (a1 : _) (a2 : _) (hm : subMask 33620032 m = true) (h : Keep m s0 s) : Keep m s0 (State.flowCache s a1 a2) := by
  refine Keep.lift (f := 33620032) ?_ hm h
  unfold State.flowCache
  repeat' first
    | exact rfl
    | with_reducible exact Keep.refl _ _
    | with_reducible assumption
    | with_reducible apply State.memPut_keep
    | with_reducible apply State.pkUpd_keep
    | with_reducible apply Keep.ite <;> intro _
    | with_reducible apply Keep.foldl <;> try intro _ _ _
    | with_reducible apply Keep.foldl_snd <;> try intro _ _ _
    | with_reducible refine Keep.of_snd ‹_ = (_, _)› ?_
    | with_reducible refine Keep.of_snd2 ‹_ = (_, _, _)› ?_
    | with_reducible apply Keep.of_id
    | split
    | dsimp only

theorem State.flowPut_keep {m : Nat} {s0 : State} (s : State) (a1 : _) (a2 : _) (hm : subMask 33620032 m = true) (h : Keep m s0 s) : Keep m s0 (State.flowPut s a1 a2) := by
  refine Keep.lift (f := 33620032) ?_ hm h
  unfold State.flowPut
  repeat' first
    | exact rfl
    | with_reducible exact Keep.refl _ _
    | with_reducible assumption
    | with_reducible apply State.pkUpd_keep
    | with_reducible apply State.memPut_keep
    | with_reducible apply Keep.ite <;> intro _
    | with_reducible apply Keep.foldl <;> try intro _ _ _
    | with_reducible apply Keep.foldl_snd <;> try intro _ _ _
    | with_reducible refine Keep.of_snd ‹_ = (_, _)› ?_
    | with_reducible refine Keep.of_snd2 ‹_ = (_, _, _)› ?_
    | with_reducible apply Keep.of_id
    | split
    | dsimp only

theorem State.flowZero_keep {m : Nat} {s0 : State} (s : State) (a1 : _) (hm : subMask 33620032 m = true) (h : Keep m s0 s) : Keep m s0 (State.flowZero s a1) := by
  refine Keep.lift (f := 33620032) ?_ hm h
  unfold State.flowZero
  repeat' first
    | exact rfl
    | with_reducible exact Keep.refl _ _
    | with_reducible assumption
    | with_reducible apply State.memPut_keep
    | with_reducible apply State.pkUpd_keep
    | with_reducible apply Keep.ite <;> intro _
    | with_reducible apply Keep.foldl <;> try intro _ _ _
    | with_reducible apply Keep.foldl_snd <;> try intro _ _ _
    | with_reducible refine Keep.of_snd ‹_ = (_, _)› ?_
    | with_reducible refine Keep.of_snd2 ‹_ = (_, _, _)› ?_
    | with_reducible apply Keep.of_id
    | split
    | dsimp only

theorem State.natFree_keep {m : Nat} {s0 : State} (s : State) (a1 : _) (hm : subMask 33554432 m = true) (h : Keep m s0 s) : Keep m s0 (State.natFree s a1) := by
  refine Keep.lift (f := 33554432) ?_ hm h
  unfold State.natFree
  repeat' first
    | exact rfl
    | with_reducible exact Keep.refl _ _
    | with_reducible assumption
    | with_reducible apply State.pkUpd_keep
    | with_reducible apply Keep.ite <;> intro _
    | with_reducible apply Keep.foldl <;> try intro _ _ _
    | with_reducible apply Keep.foldl_snd <;> try intro _ _ _
    | with_reducible refine Keep.of_snd ‹_ = (_, _)› ?_
    | with_reducible refine Keep.of_snd2 ‹_ = (_, _, _)› ?_
    | with_reducible apply Keep.of_id
    | split
    | dsimp only

theorem State.flowDrop_keep {m : Nat} {s0 : State} (s : State) (a1 : _) (hm : subMask 33620032 m = true) (h : Keep m s0 s) : Keep m s0 (State.flowDrop s a1) := by
  refine Keep.lift (f := 33620032) ?_ hm h
  unfold State.flowDrop
  repeat' first
    | exact rfl
    | with_reducible exact Keep.refl _ _
    | with_reducible assumption
    | with_reducible apply State.flowZero_keep
    | with_reducible apply State.natFree_keep
    | with_reducible apply Keep.ite <;> intro _
    | with_reducible apply Keep.foldl <;> try intro _ _ _
    | with_reducible apply Keep.foldl_snd <;> try intro _ _ _
    | with_reducible refine Keep.of_snd ‹_ = (_, _)› ?_
    | with_reducible refine Keep.of_snd2 ‹_ = (_, _, _)› ?_
    | with_reducible apply Keep.of_id
    | split
    | dsimp only

theorem State.setFlwWin_keep {m : Nat} {s0 : State} (s : State) (a1 : _) (hm : subMask 32 m = true) (h : Keep m s0 s) : Keep m s0 (State.setFlwWin s a1) := by
  refine Keep.lift (f := 32) ?_ hm h
  unfold State.setFlwWin
  repeat' first
    | exact rfl
    | with_reducible exact Keep.refl _ _
    | with_reducible assumption
    | with_reducible apply State.setReg_keep
    | with_reducible apply Keep.ite <;> intro _
    | with_reducible apply Keep.foldl <;> try intro _ _ _
    | with_reducible apply Keep.foldl_snd <;> try intro _ _ _
    | with_reducible refine Keep.of_snd ‹_ = (_, _)› ?_
    | with_reducible refine Keep.of_snd2 ‹_ = (_, _, _)› ?_
    | with_reducible apply Keep.of_id
    | split
    | dsimp only

theorem State.flwStat_keep {m : Nat} {s0 : State} (s : State) (a1 : _) (a2 : _) (hm : subMask 32 m = true) (h : Keep m s0 s) : Keep m s0 (State.flwStat s a1 a2) := by
  refine Keep.lift (f := 32) ?_ hm h
  unfold State.flwStat
  repeat' first
    | exact rfl
    | with_reducible exact Keep.refl _ _
    | with_reducible assumption
    | with_reducible apply State.commit_keep
    | with_reducible apply Keep.ite <;> intro _
    | with_reducible apply Keep.foldl <;> try intro _ _ _
    | with_reducible apply Keep.foldl_snd <;> try intro _ _ _
    | with_reducible refine Keep.of_snd ‹_ = (_, _)› ?_
    | with_reducible refine Keep.of_snd2 ‹_ = (_, _, _)› ?_
    | with_reducible apply Keep.of_id
    | split
    | dsimp only

theorem State.l2Insert_keep {m : Nat} {s0 : State} (s : State) (hm : subMask 33554464 m = true) (h : Keep m s0 s) : Keep m s0 (State.l2Insert s) := by
  refine Keep.lift (f := 33554464) ?_ hm h
  unfold State.l2Insert
  repeat' first
    | exact rfl
    | with_reducible exact Keep.refl _ _
    | with_reducible assumption
    | with_reducible apply State.flwStat_keep
    | with_reducible apply State.setFent_keep
    | with_reducible apply Keep.ite <;> intro _
    | with_reducible apply Keep.foldl <;> try intro _ _ _
    | with_reducible apply Keep.foldl_snd <;> try intro _ _ _
    | with_reducible refine Keep.of_snd ‹_ = (_, _)› ?_
    | with_reducible refine Keep.of_snd2 ‹_ = (_, _, _)› ?_
    | with_reducible apply Keep.of_id
    | split
    | dsimp only

theorem State.flowInsert_keep {m : Nat} {s0 : State} (s : State) (hm : subMask 33620064 m = true) (h : Keep m s0 s) : Keep m s0 (State.flowInsert s) := by
  refine Keep.lift (f := 33620064) ?_ hm h
  unfold State.flowInsert
  repeat' first
    | exact rfl
    | with_reducible exact Keep.refl _ _
    | with_reducible assumption
    | with_reducible apply State.flwStat_keep
    | with_reducible apply State.flowPut_keep
    | with_reducible apply Keep.ite <;> intro _
    | with_reducible apply Keep.foldl <;> try intro _ _ _
    | with_reducible apply Keep.foldl_snd <;> try intro _ _ _
    | with_reducible refine Keep.of_snd ‹_ = (_, _)› ?_
    | with_reducible refine Keep.of_snd2 ‹_ = (_, _, _)› ?_
    | with_reducible apply Keep.of_id
    | split
    | dsimp only

theorem State.flwOp_keep {m : Nat} {s0 : State} (s : State) (a1 : _) (hm : subMask 33620064 m = true) (h : Keep m s0 s) : Keep m s0 (State.flwOp s a1) := by
  refine Keep.lift (f := 33620064) ?_ hm h
  unfold State.flwOp
  repeat' first
    | exact rfl
    | with_reducible exact Keep.refl _ _
    | with_reducible assumption
    | with_reducible apply State.flwStat_keep
    | with_reducible apply State.setFlwWin_keep
    | with_reducible apply State.flowPut_keep
    | with_reducible apply State.setFent_keep
    | with_reducible apply State.flowZero_keep
    | with_reducible apply State.l2Insert_keep
    | with_reducible apply State.flowInsert_keep
    | with_reducible apply State.flowDrop_keep
    | with_reducible apply Keep.ite <;> intro _
    | with_reducible apply Keep.foldl <;> try intro _ _ _
    | with_reducible apply Keep.foldl_snd <;> try intro _ _ _
    | with_reducible refine Keep.of_snd ‹_ = (_, _)› ?_
    | with_reducible refine Keep.of_snd2 ‹_ = (_, _, _)› ?_
    | with_reducible apply Keep.of_id
    | split
    | dsimp only

theorem State.verDone_keep {m : Nat} {s0 : State} (s : State) (a1 : _) (a2 : _) (a3 : _) (hm : subMask 304 m = true) (h : Keep m s0 s) : Keep m s0 (State.verDone s a1 a2 a3) := by
  refine Keep.lift (f := 304) ?_ hm h
  unfold State.verDone
  repeat' first
    | exact rfl
    | with_reducible exact Keep.refl _ _
    | with_reducible assumption
    | with_reducible apply State.commit_keep
    | with_reducible apply State.raise_keep
    | with_reducible apply Keep.ite <;> intro _
    | with_reducible apply Keep.foldl <;> try intro _ _ _
    | with_reducible apply Keep.foldl_snd <;> try intro _ _ _
    | with_reducible refine Keep.of_snd ‹_ = (_, _)› ?_
    | with_reducible refine Keep.of_snd2 ‹_ = (_, _, _)› ?_
    | with_reducible apply Keep.of_id
    | split
    | dsimp only

theorem State.verOp_keep {m : Nat} {s0 : State} (s : State) (a1 : _) (hm : subMask 33554736 m = true) (h : Keep m s0 s) : Keep m s0 (State.verOp s a1) := by
  refine Keep.lift (f := 33554736) ?_ hm h
  unfold State.verOp
  repeat' first
    | exact rfl
    | with_reducible exact Keep.refl _ _
    | with_reducible assumption
    | with_reducible apply State.verDone_keep
    | with_reducible apply State.setReg_keep
    | with_reducible apply State.pkUpd_keep
    | with_reducible apply Keep.ite <;> intro _
    | with_reducible apply Keep.foldl <;> try intro _ _ _
    | with_reducible apply Keep.foldl_snd <;> try intro _ _ _
    | with_reducible refine Keep.of_snd ‹_ = (_, _)› ?_
    | with_reducible refine Keep.of_snd2 ‹_ = (_, _, _)› ?_
    | with_reducible apply Keep.of_id
    | split
    | dsimp only

theorem State.flowExport_keep {m : Nat} {s0 : State} (s : State) (a1 : _) (hm : subMask 65632 m = true) (h : Keep m s0 s) : Keep m s0 (State.flowExport s a1) := by
  refine Keep.lift (f := 65632) ?_ hm h
  unfold State.flowExport
  repeat' first
    | exact rfl
    | with_reducible exact Keep.refl _ _
    | with_reducible assumption
    | with_reducible apply State.inc_keep
    | with_reducible apply State.set_keep
    | with_reducible apply State.memPut_keep
    | with_reducible apply Keep.ite <;> intro _
    | with_reducible apply Keep.foldl <;> try intro _ _ _
    | with_reducible apply Keep.foldl_snd <;> try intro _ _ _
    | with_reducible refine Keep.of_snd ‹_ = (_, _)› ?_
    | with_reducible refine Keep.of_snd2 ‹_ = (_, _, _)› ?_
    | with_reducible apply Keep.of_id
    | split
    | dsimp only

theorem State.flowAge_keep {m : Nat} {s0 : State} (s : State) (a1 : _) (hm : subMask 33620064 m = true) (h : Keep m s0 s) : Keep m s0 (State.flowAge s a1) := by
  refine Keep.lift (f := 33620064) ?_ hm h
  unfold State.flowAge
  repeat' first
    | exact rfl
    | with_reducible exact Keep.refl _ _
    | with_reducible assumption
    | with_reducible apply State.flowDrop_keep
    | with_reducible apply State.flowExport_keep
    | with_reducible apply Keep.ite <;> intro _
    | with_reducible apply Keep.foldl <;> try intro _ _ _
    | with_reducible apply Keep.foldl_snd <;> try intro _ _ _
    | with_reducible refine Keep.of_snd ‹_ = (_, _)› ?_
    | with_reducible refine Keep.of_snd2 ‹_ = (_, _, _)› ?_
    | with_reducible apply Keep.of_id
    | split
    | dsimp only

theorem State.l2Age_keep {m : Nat} {s0 : State} (s : State) (a1 : _) (hm : subMask 33554432 m = true) (h : Keep m s0 s) : Keep m s0 (State.l2Age s a1) := by
  refine Keep.lift (f := 33554432) ?_ hm h
  unfold State.l2Age
  repeat' first
    | exact rfl
    | with_reducible exact Keep.refl _ _
    | with_reducible assumption
    | with_reducible apply State.setFent_keep
    | with_reducible apply Keep.ite <;> intro _
    | with_reducible apply Keep.foldl <;> try intro _ _ _
    | with_reducible apply Keep.foldl_snd <;> try intro _ _ _
    | with_reducible refine Keep.of_snd ‹_ = (_, _)› ?_
    | with_reducible refine Keep.of_snd2 ‹_ = (_, _, _)› ?_
    | with_reducible apply Keep.of_id
    | split
    | dsimp only

end Sys2Proof.Machine
end

