-- ==== Sys2Proof/Laws/KeepTmgTbl.lean ====
section
/-! SUPPORT. What each operation of Machine/TmgTbl.lean leaves alone. -/

set_option Elab.async false

namespace Sys2Proof.Machine

theorem State.setTmTbl_keep {m : Nat} {s0 : State} (s : State) (a1 : _) (a2 : _) (a3 : _) (hm : subMask 67108864 m = true) (h : Keep m s0 s) : Keep m s0 (State.setTmTbl s a1 a2 a3) := by
  refine Keep.lift (f := 67108864) ?_ hm h
  unfold State.setTmTbl
  repeat' first
    | exact rfl
    | with_reducible exact Keep.refl _ _
    | with_reducible assumption
    | with_reducible apply State.tmUpd_keep
    | with_reducible apply Keep.ite <;> intro _
    | with_reducible apply Keep.foldl <;> try intro _ _ _
    | with_reducible apply Keep.foldl_snd <;> try intro _ _ _
    | with_reducible refine Keep.of_snd ‹_ = (_, _)› ?_
    | with_reducible refine Keep.of_snd2 ‹_ = (_, _, _)› ?_
    | with_reducible apply Keep.of_id
    | split
    | dsimp only

theorem State.setBkt_keep {m : Nat} {s0 : State} (s : State) (a1 : _) (a2 : _) (a3 : _) (hm : subMask 67108864 m = true) (h : Keep m s0 s) : Keep m s0 (State.setBkt s a1 a2 a3) := by
  refine Keep.lift (f := 67108864) ?_ hm h
  unfold State.setBkt
  repeat' first
    | exact rfl
    | with_reducible exact Keep.refl _ _
    | with_reducible assumption
    | with_reducible apply State.tmUpd_keep
    | with_reducible apply Keep.ite <;> intro _
    | with_reducible apply Keep.foldl <;> try intro _ _ _
    | with_reducible apply Keep.foldl_snd <;> try intro _ _ _
    | with_reducible refine Keep.of_snd ‹_ = (_, _)› ?_
    | with_reducible refine Keep.of_snd2 ‹_ = (_, _, _)› ?_
    | with_reducible apply Keep.of_id
    | split
    | dsimp only

theorem State.bktFill_keep {m : Nat} {s0 : State} (s : State) (a1 : _) (a2 : _) (hm : subMask 67108864 m = true) (h : Keep m s0 s) : Keep m s0 (State.bktFill s a1 a2) := by
  refine Keep.lift (f := 67108864) ?_ hm h
  unfold State.bktFill
  repeat' first
    | exact rfl
    | with_reducible exact Keep.refl _ _
    | with_reducible assumption
    | with_reducible apply State.setBkt_keep
    | with_reducible apply Keep.ite <;> intro _
    | with_reducible apply Keep.foldl <;> try intro _ _ _
    | with_reducible apply Keep.foldl_snd <;> try intro _ _ _
    | with_reducible refine Keep.of_snd ‹_ = (_, _)› ?_
    | with_reducible refine Keep.of_snd2 ‹_ = (_, _, _)› ?_
    | with_reducible apply Keep.of_id
    | split
    | dsimp only

theorem State.tmOp_keep {m : Nat} {s0 : State} (s : State) (a1 : _) (hm : subMask 67108896 m = true) (h : Keep m s0 s) : Keep m s0 (State.tmOp s a1) := by
  refine Keep.lift (f := 67108896) ?_ hm h
  unfold State.tmOp
  repeat' first
    | exact rfl
    | with_reducible exact Keep.refl _ _
    | with_reducible assumption
    | with_reducible apply State.commit_keep
    | with_reducible apply State.setReg_keep
    | with_reducible apply State.bktFill_keep
    | with_reducible apply State.setTmTbl_keep
    | with_reducible apply State.tmUpd_keep
    | with_reducible apply Keep.ite <;> intro _
    | with_reducible apply Keep.foldl <;> try intro _ _ _
    | with_reducible apply Keep.foldl_snd <;> try intro _ _ _
    | with_reducible refine Keep.of_snd ‹_ = (_, _)› ?_
    | with_reducible refine Keep.of_snd2 ‹_ = (_, _, _)› ?_
    | with_reducible apply Keep.of_id
    | split
    | dsimp only

theorem State.svcSync_keep {m : Nat} {s0 : State} (s : State) (a1 : _) (hm : subMask 67108864 m = true) (h : Keep m s0 s) : Keep m s0 (State.svcSync s a1) := by
  refine Keep.lift (f := 67108864) ?_ hm h
  unfold State.svcSync
  repeat' first
    | exact rfl
    | with_reducible exact Keep.refl _ _
    | with_reducible assumption
    | with_reducible apply State.setBkt_keep
    | with_reducible apply Keep.ite <;> intro _
    | with_reducible apply Keep.foldl <;> try intro _ _ _
    | with_reducible apply Keep.foldl_snd <;> try intro _ _ _
    | with_reducible refine Keep.of_snd ‹_ = (_, _)› ?_
    | with_reducible refine Keep.of_snd2 ‹_ = (_, _, _)› ?_
    | with_reducible apply Keep.of_id
    | split
    | dsimp only

theorem State.svcSee_keep {m : Nat} {s0 : State} (s : State) (a1 : _) (hm : subMask 67108864 m = true) (h : Keep m s0 s) : Keep m s0 (State.svcSee s a1) := by
  refine Keep.lift (f := 67108864) ?_ hm h
  unfold State.svcSee
  repeat' first
    | exact rfl
    | with_reducible exact Keep.refl _ _
    | with_reducible assumption
    | with_reducible apply State.tmUpd_keep
    | with_reducible apply Keep.ite <;> intro _
    | with_reducible apply Keep.foldl <;> try intro _ _ _
    | with_reducible apply Keep.foldl_snd <;> try intro _ _ _
    | with_reducible refine Keep.of_snd ‹_ = (_, _)› ?_
    | with_reducible refine Keep.of_snd2 ‹_ = (_, _, _)› ?_
    | with_reducible apply Keep.of_id
    | split
    | dsimp only

theorem State.tmMeter_keep {m : Nat} {s0 : State} (s : State) (a1 : _) (hm : subMask 67108864 m = true) (h : Keep m s0 s) : Keep m s0 (State.tmMeter s a1).2.2 := by
  refine Keep.lift (f := 67108864) ?_ hm h
  unfold State.tmMeter
  repeat' first
    | exact rfl
    | with_reducible exact Keep.refl _ _
    | with_reducible assumption
    | with_reducible apply State.setBkt_keep
    | with_reducible apply State.setTmTbl_keep
    | with_reducible apply Keep.ite <;> intro _
    | with_reducible apply Keep.foldl <;> try intro _ _ _
    | with_reducible apply Keep.foldl_snd <;> try intro _ _ _
    | with_reducible refine Keep.of_snd ‹_ = (_, _)› ?_
    | with_reducible refine Keep.of_snd2 ‹_ = (_, _, _)› ?_
    | with_reducible apply Keep.of_id
    | split
    | dsimp only

theorem State.tmHigh_keep {m : Nat} {s0 : State} (s : State) (hm : subMask 67109136 m = true) (h : Keep m s0 s) : Keep m s0 (State.tmHigh s) := by
  refine Keep.lift (f := 67109136) ?_ hm h
  unfold State.tmHigh
  repeat' first
    | exact rfl
    | with_reducible exact Keep.refl _ _
    | with_reducible assumption
    | with_reducible apply State.raise_keep
    | with_reducible apply State.tmUpd_keep
    | with_reducible apply Keep.ite <;> intro _
    | with_reducible apply Keep.foldl <;> try intro _ _ _
    | with_reducible apply Keep.foldl_snd <;> try intro _ _ _
    | with_reducible refine Keep.of_snd ‹_ = (_, _)› ?_
    | with_reducible refine Keep.of_snd2 ‹_ = (_, _, _)› ?_
    | with_reducible apply Keep.of_id
    | split
    | dsimp only

theorem State.tmAdmit_keep {m : Nat} {s0 : State} (s : State) (a1 : _) (hm : subMask 67174769 m = true) (h : Keep m s0 s) : Keep m s0 (State.tmAdmit s a1) := by
  refine Keep.lift (f := 67174769) ?_ hm h
  unfold State.tmAdmit
  repeat' first
    | exact rfl
    | with_reducible exact Keep.refl _ _
    | with_reducible assumption
    | with_reducible apply State.inc_keep
    | with_reducible apply State.tmMeter_keep
    | with_reducible apply State.tmUpd_keep
    | with_reducible apply State.bufAlloc_keep
    | with_reducible apply State.tmHigh_keep
    | with_reducible apply State.svcSee_keep
    | with_reducible apply State.memPut_keep
    | with_reducible apply State.svcSync_keep
    | with_reducible apply Keep.ite <;> intro _
    | with_reducible apply Keep.foldl <;> try intro _ _ _
    | with_reducible apply Keep.foldl_snd <;> try intro _ _ _
    | with_reducible refine Keep.of_snd ‹_ = (_, _)› ?_
    | with_reducible refine Keep.of_snd2 ‹_ = (_, _, _)› ?_
    | with_reducible apply Keep.of_id
    | split
    | dsimp only

end Sys2Proof.Machine
end

