-- ==== Sys2Proof/Laws/KeepFlw.lean ====
section
/-! SUPPORT. What each operation of Machine/Flw.lean leaves alone. -/

set_option Elab.async false

namespace Sys2Proof.Machine

theorem State.pkRelease_keep {m : Nat} {s0 : State} (a0 : _) (a1 : _) (s : State) (hm : subMask 100729201 m = true) (h : Keep m s0 s) : Keep m s0 (State.pkRelease a0 a1 s) := by
  induction a0 generalizing a1 s with
  | nil => unfold State.pkRelease; exact h
  | cons b t ih =>
    unfold State.pkRelease
    repeat' first
      | exact rfl
      | exact subMask_trans rfl hm
      | with_reducible apply ih
      | with_reducible exact Keep.refl _ _
      | with_reducible assumption
      | with_reducible apply State.tmAdmit_keep
      | with_reducible apply State.pkUpd_keep
      | with_reducible apply Keep.ite <;> intro _
      | with_reducible apply Keep.foldl <;> try intro _ _ _
      | with_reducible apply Keep.foldl_snd <;> try intro _ _ _
      | with_reducible refine Keep.of_snd ‹_ = (_, _)› ?_
      | with_reducible refine Keep.of_snd2 ‹_ = (_, _, _)› ?_
      | with_reducible apply Keep.of_id
      | split
      | dsimp only

theorem State.pkDone_keep {m : Nat} {s0 : State} (s : State) (a1 : _) (a2 : _) (hm : subMask 100729201 m = true) (h : Keep m s0 s) : Keep m s0 (State.pkDone s a1 a2) := by
  refine Keep.lift (f := 100729201) ?_ hm h
  unfold State.pkDone
  repeat' first
    | exact rfl
    | with_reducible exact Keep.refl _ _
    | with_reducible assumption
    | with_reducible apply State.pkUpd_keep
    | with_reducible apply State.tmAdmit_keep
    | with_reducible apply State.pkRelease_keep
    | with_reducible apply Keep.ite <;> intro _
    | with_reducible apply Keep.foldl <;> try intro _ _ _
    | with_reducible apply Keep.foldl_snd <;> try intro _ _ _
    | with_reducible refine Keep.of_snd ‹_ = (_, _)› ?_
    | with_reducible refine Keep.of_snd2 ‹_ = (_, _, _)› ?_
    | with_reducible apply Keep.of_id
    | split
    | dsimp only

theorem State.pkSet_keep {m : Nat} {s0 : State} (s : State) (a1 : _) (hm : subMask 33554432 m = true) (h : Keep m s0 s) : Keep m s0 (State.pkSet s a1) := by
  refine Keep.lift (f := 33554432) ?_ hm h
  unfold State.pkSet
  repeat' first
    | exact rfl
    | with_reducible exact Keep.refl _ _
    | with_reducible assumption
    | with_reducible apply State.pkUpd_keep
    | with_reducible apply Keep.ite <;> intro _
    | with_reducible apply Keep.foldl <;> try intro _ _ _
    | with_reducible apply Keep.foldl_snd <;> try intro _ _ _
    | with_reducible refine Keep.of_snd ‹_ = (_, _)› ?_
    | with_reducible refine Keep.of_snd2 ‹_ = (_, _, _)› ?_
    | with_reducible apply Keep.of_id
    | split
    | dsimp only

theorem State.espOut_keep {m : Nat} {s0 : State} (s : State) (a1 : _) (a2 : _) (a3 : _) (a4 : _) (hm : subMask 33587505 m = true) (h : Keep m s0 s) : Keep m s0 (State.espOut s a1 a2 a3 a4).2 := by
  refine Keep.lift (f := 33587505) ?_ hm h
  unfold State.espOut
  repeat' first
    | exact rfl
    | with_reducible exact Keep.refl _ _
    | with_reducible assumption
    | with_reducible apply State.inc_keep
    | with_reducible apply State.raise_keep
    | with_reducible apply State.useKey_keep
    | with_reducible apply State.setFent_keep
    | with_reducible apply Keep.ite <;> intro _
    | with_reducible apply Keep.foldl <;> try intro _ _ _
    | with_reducible apply Keep.foldl_snd <;> try intro _ _ _
    | (rewrite [State.mk_eq_updOf]; (with_reducible refine Keep.node 1 ?_ ?_ ?_); · refine Keep.upd 1 ?_ ?_ ?_ ?_ ?_ (fun p hp => ?_); exact rfl; exact rfl; exact rfl; exact rfl; exact rfl; cases p <;> first | exact absurd hp (by decide) | exact rfl)
    | with_reducible refine Keep.of_snd ‹_ = (_, _)› ?_
    | with_reducible refine Keep.of_snd2 ‹_ = (_, _, _)› ?_
    | with_reducible apply Keep.of_id
    | split
    | dsimp only

theorem State.encap_keep {m : Nat} {s0 : State} (s : State) (a1 : _) (a2 : _) (a3 : _) (a4 : _) (a5 : _) (a6 : _) (hm : subMask 33587505 m = true) (h : Keep m s0 s) : Keep m s0 (State.encap s a1 a2 a3 a4 a5 a6).2 := by
  refine Keep.lift (f := 33587505) ?_ hm h
  unfold State.encap
  repeat' first
    | exact rfl
    | with_reducible exact Keep.refl _ _
    | with_reducible assumption
    | with_reducible apply State.espOut_keep
    | with_reducible apply Keep.ite <;> intro _
    | with_reducible apply Keep.foldl <;> try intro _ _ _
    | with_reducible apply Keep.foldl_snd <;> try intro _ _ _
    | (rewrite [State.mk_eq_updOf]; (with_reducible refine Keep.node 1 ?_ ?_ ?_); · refine Keep.upd 1 ?_ ?_ ?_ ?_ ?_ (fun p hp => ?_); exact rfl; exact rfl; exact rfl; exact rfl; exact rfl; cases p <;> first | exact absurd hp (by decide) | exact rfl)
    | with_reducible refine Keep.of_snd ‹_ = (_, _)› ?_
    | with_reducible refine Keep.of_snd2 ‹_ = (_, _, _)› ?_
    | with_reducible apply Keep.of_id
    | split
    | dsimp only

theorem State.egress_keep {m : Nat} {s0 : State} (s : State) (a1 : _) (a2 : _) (a3 : _) (a4 : _) (a5 : _) (hm : subMask 32 m = true) (h : Keep m s0 s) : Keep m s0 (State.egress s a1 a2 a3 a4 a5).2 := by
  refine Keep.lift (f := 32) ?_ hm h
  unfold State.egress
  repeat' first
    | exact rfl
    | with_reducible exact Keep.refl _ _
    | with_reducible assumption
    | with_reducible apply State.inc_keep
    | with_reducible apply Keep.ite <;> intro _
    | with_reducible apply Keep.foldl <;> try intro _ _ _
    | with_reducible apply Keep.foldl_snd <;> try intro _ _ _
    | with_reducible refine Keep.of_snd ‹_ = (_, _)› ?_
    | with_reducible refine Keep.of_snd2 ‹_ = (_, _, _)› ?_
    | with_reducible apply Keep.of_id
    | split
    | dsimp only

theorem State.tunnelOut_keep {m : Nat} {s0 : State} (s : State) (a1 : _) (a2 : _) (a3 : _) (a4 : _) (a5 : _) (a6 : _) (a7 : _) (hm : subMask 33587505 m = true) (h : Keep m s0 s) : Keep m s0 (State.tunnelOut s a1 a2 a3 a4 a5 a6 a7).2 := by
  refine Keep.lift (f := 33587505) ?_ hm h
  unfold State.tunnelOut
  repeat' first
    | exact rfl
    | with_reducible exact Keep.refl _ _
    | with_reducible assumption
    | with_reducible apply State.encap_keep
    | with_reducible apply State.egress_keep
    | with_reducible apply Keep.ite <;> intro _
    | with_reducible apply Keep.foldl <;> try intro _ _ _
    | with_reducible apply Keep.foldl_snd <;> try intro _ _ _
    | with_reducible refine Keep.of_snd ‹_ = (_, _)› ?_
    | with_reducible refine Keep.of_snd2 ‹_ = (_, _, _)› ?_
    | with_reducible apply Keep.of_id
    | split
    | dsimp only

theorem State.l2Learn_keep {m : Nat} {s0 : State} (s : State) (a1 : _) (hm : subMask 33554464 m = true) (h : Keep m s0 s) : Keep m s0 (State.l2Learn s a1).2 := by
  refine Keep.lift (f := 33554464) ?_ hm h
  unfold State.l2Learn
  repeat' first
    | exact rfl
    | with_reducible exact Keep.refl _ _
    | with_reducible assumption
    | with_reducible apply State.setFent_keep
    | with_reducible apply State.inc_keep
    | with_reducible apply Keep.ite <;> intro _
    | with_reducible apply Keep.foldl <;> try intro _ _ _
    | with_reducible apply Keep.foldl_snd <;> try intro _ _ _
    | with_reducible refine Keep.of_snd ‹_ = (_, _)› ?_
    | with_reducible refine Keep.of_snd2 ‹_ = (_, _, _)› ?_
    | with_reducible apply Keep.of_id
    | split
    | dsimp only

theorem State.bridge_keep {m : Nat} {s0 : State} (s : State) (a1 : _) (a2 : _) (hm : subMask 33554464 m = true) (h : Keep m s0 s) : Keep m s0 (State.bridge s a1 a2).2 := by
  refine Keep.lift (f := 33554464) ?_ hm h
  unfold State.bridge
  repeat' first
    | exact rfl
    | with_reducible exact Keep.refl _ _
    | with_reducible assumption
    | with_reducible apply State.inc_keep
    | with_reducible apply State.l2Learn_keep
    | with_reducible apply Keep.ite <;> intro _
    | with_reducible apply Keep.foldl <;> try intro _ _ _
    | with_reducible apply Keep.foldl_snd <;> try intro _ _ _
    | with_reducible refine Keep.of_snd ‹_ = (_, _)› ?_
    | with_reducible refine Keep.of_snd2 ‹_ = (_, _, _)› ?_
    | with_reducible apply Keep.of_id
    | split
    | dsimp only

theorem State.routePkt_keep {m : Nat} {s0 : State} (s : State) (a1 : _) (a2 : _) (a3 : _) (hm : subMask 32 m = true) (h : Keep m s0 s) : Keep m s0 (State.routePkt s a1 a2 a3).2 := by
  refine Keep.lift (f := 32) ?_ hm h
  unfold State.routePkt
  repeat' first
    | exact rfl
    | with_reducible exact Keep.refl _ _
    | with_reducible assumption
    | with_reducible apply State.inc_keep
    | with_reducible apply Keep.ite <;> intro _
    | with_reducible apply Keep.foldl <;> try intro _ _ _
    | with_reducible apply Keep.foldl_snd <;> try intro _ _ _
    | with_reducible refine Keep.of_snd ‹_ = (_, _)› ?_
    | with_reducible refine Keep.of_snd2 ‹_ = (_, _, _)› ?_
    | with_reducible apply Keep.of_id
    | split
    | dsimp only

theorem State.forward_keep {m : Nat} {s0 : State} (s : State) (a1 : _) (a2 : _) (a3 : _) (hm : subMask 33554464 m = true) (h : Keep m s0 s) : Keep m s0 (State.forward s a1 a2 a3).2 := by
  refine Keep.lift (f := 33554464) ?_ hm h
  unfold State.forward
  repeat' first
    | exact rfl
    | with_reducible exact Keep.refl _ _
    | with_reducible assumption
    | with_reducible apply State.routePkt_keep
    | with_reducible apply State.bridge_keep
    | with_reducible apply Keep.ite <;> intro _
    | with_reducible apply Keep.foldl <;> try intro _ _ _
    | with_reducible apply Keep.foldl_snd <;> try intro _ _ _
    | with_reducible refine Keep.of_snd ‹_ = (_, _)› ?_
    | with_reducible refine Keep.of_snd2 ‹_ = (_, _, _)› ?_
    | with_reducible apply Keep.of_id
    | split
    | dsimp only

theorem State.sendOut_keep {m : Nat} {s0 : State} (s : State) (a1 : _) (a2 : _) (a3 : _) (a4 : _) (a5 : _) (hm : subMask 33587505 m = true) (h : Keep m s0 s) : Keep m s0 (State.sendOut s a1 a2 a3 a4 a5).2 := by
  refine Keep.lift (f := 33587505) ?_ hm h
  unfold State.sendOut
  repeat' first
    | exact rfl
    | with_reducible exact Keep.refl _ _
    | with_reducible assumption
    | with_reducible apply State.egress_keep
    | with_reducible apply State.tunnelOut_keep
    | with_reducible apply Keep.ite <;> intro _
    | with_reducible apply Keep.foldl <;> try intro _ _ _
    | with_reducible apply Keep.foldl_snd <;> try intro _ _ _
    | with_reducible refine Keep.of_snd ‹_ = (_, _)› ?_
    | with_reducible refine Keep.of_snd2 ‹_ = (_, _, _)› ?_
    | with_reducible apply Keep.of_id
    | split
    | dsimp only

theorem State.flowHit_keep {m : Nat} {s0 : State} (s : State) (a1 : _) (a2 : _) (a3 : _) (hm : subMask 33620032 m = true) (h : Keep m s0 s) : Keep m s0 (State.flowHit s a1 a2 a3).2 := by
  refine Keep.lift (f := 33620032) ?_ hm h
  unfold State.flowHit
  repeat' first
    | exact rfl
    | with_reducible exact Keep.refl _ _
    | with_reducible assumption
    | with_reducible apply State.flowCache_keep
    | with_reducible apply State.flowPut_keep
    | with_reducible apply Keep.ite <;> intro _
    | with_reducible apply Keep.foldl <;> try intro _ _ _
    | with_reducible apply Keep.foldl_snd <;> try intro _ _ _
    | with_reducible refine Keep.of_snd ‹_ = (_, _)› ?_
    | with_reducible refine Keep.of_snd2 ‹_ = (_, _, _)› ?_
    | with_reducible apply Keep.of_id
    | split
    | dsimp only

theorem State.flowPair_keep {m : Nat} {s0 t : State} (s : State) (a1 : _) (a2 : _) (e : State.flowPair s a1 a2 = some t) (hm : subMask 33620032 m = true) (h : Keep m s0 s) : Keep m s0 t := by
  unfold State.flowPair at e
  split at e
  · exact absurd e (by simp)
  · dsimp only at e
    rw [Option.map_eq_some_iff] at e
    obtain ⟨i, -, e⟩ := e
    subst e
    exact State.flowPut_keep _ _ _ (subMask_trans rfl hm) (State.flowCache_keep _ _ _ (subMask_trans rfl hm) (State.flowPut_keep _ _ _ (subMask_trans rfl hm) h))

theorem State.flowLearn_keep {m : Nat} {s0 : State} (s : State) (a1 : _) (a2 : _) (a3 : _) (a4 : _) (hm : subMask 33620336 m = true) (h : Keep m s0 s) : Keep m s0 (State.flowLearn s a1 a2 a3 a4).2 := by
  refine Keep.lift (f := 33620336) ?_ hm h
  unfold State.flowLearn
  repeat' first
    | exact rfl
    | with_reducible exact Keep.refl _ _
    | with_reducible assumption
    | with_reducible apply State.inc_keep
    | with_reducible apply State.pkMark_keep
    | with_reducible refine State.flowPair_keep  _ _ _ (by assumption) ?_ ?_
    | with_reducible apply State.pkUpd_keep
    | with_reducible apply Keep.ite <;> intro _
    | with_reducible apply Keep.foldl <;> try intro _ _ _
    | with_reducible apply Keep.foldl_snd <;> try intro _ _ _
    | with_reducible refine Keep.of_snd ‹_ = (_, _)› ?_
    | with_reducible refine Keep.of_snd2 ‹_ = (_, _, _)› ?_
    | with_reducible apply Keep.of_id
    | split
    | dsimp only

theorem State.pkPermit_keep {m : Nat} {s0 : State} (s : State) (a1 : _) (a2 : _) (a3 : _) (a4 : _) (a5 : _) (a6 : _) (a7 : _) (hm : subMask 100761969 m = true) (h : Keep m s0 s) : Keep m s0 (State.pkPermit s a1 a2 a3 a4 a5 a6 a7) := by
  refine Keep.lift (f := 100761969) ?_ hm h
  unfold State.pkPermit
  repeat' first
    | exact rfl
    | with_reducible exact Keep.refl _ _
    | with_reducible assumption
    | with_reducible apply State.sendOut_keep
    | with_reducible apply State.pkDone_keep
    | with_reducible apply State.setFent_keep
    | with_reducible apply State.inc_keep
    | with_reducible apply State.flowLearn_keep
    | with_reducible apply State.forward_keep
    | with_reducible apply Keep.ite <;> intro _
    | with_reducible apply Keep.foldl <;> try intro _ _ _
    | with_reducible apply Keep.foldl_snd <;> try intro _ _ _
    | with_reducible refine Keep.of_snd ‹_ = (_, _)› ?_
    | with_reducible refine Keep.of_snd2 ‹_ = (_, _, _)› ?_
    | with_reducible apply Keep.of_id
    | split
    | dsimp only

theorem State.pkDecide_keep {m : Nat} {s0 : State} (s : State) (a1 : _) (a2 : _) (a3 : _) (a4 : _) (hm : subMask 100761969 m = true) (h : Keep m s0 s) : Keep m s0 (State.pkDecide s a1 a2 a3 a4) := by
  refine Keep.lift (f := 100761969) ?_ hm h
  unfold State.pkDecide
  repeat' first
    | exact rfl
    | with_reducible exact Keep.refl _ _
    | with_reducible assumption
    | with_reducible apply State.flowHit_keep
    | with_reducible apply State.forward_keep
    | with_reducible apply State.pkDone_keep
    | with_reducible apply State.pkPermit_keep
    | with_reducible apply Keep.ite <;> intro _
    | with_reducible apply Keep.foldl <;> try intro _ _ _
    | with_reducible apply Keep.foldl_snd <;> try intro _ _ _
    | with_reducible refine Keep.of_snd ‹_ = (_, _)› ?_
    | with_reducible refine Keep.of_snd2 ‹_ = (_, _, _)› ?_
    | with_reducible apply Keep.of_id
    | split
    | dsimp only

theorem State.pkLookup_keep {m : Nat} {s0 : State} (s : State) (a1 : _) (a2 : _) (hm : subMask 100761969 m = true) (h : Keep m s0 s) : Keep m s0 (State.pkLookup s a1 a2) := by
  refine Keep.lift (f := 100761969) ?_ hm h
  unfold State.pkLookup
  repeat' first
    | exact rfl
    | with_reducible exact Keep.refl _ _
    | with_reducible assumption
    | with_reducible apply State.pkDecide_keep
    | with_reducible apply State.pkUpd_keep
    | with_reducible apply State.pkDone_keep
    | with_reducible apply State.inc_keep
    | with_reducible apply State.raise_keep
    | with_reducible apply State.pkSet_keep
    | with_reducible apply Keep.ite <;> intro _
    | with_reducible apply Keep.foldl <;> try intro _ _ _
    | with_reducible apply Keep.foldl_snd <;> try intro _ _ _
    | with_reducible refine Keep.of_snd ‹_ = (_, _)› ?_
    | with_reducible refine Keep.of_snd2 ‹_ = (_, _, _)› ?_
    | with_reducible apply Keep.of_id
    | split
    | dsimp only

theorem State.pkMalformed_keep {m : Nat} {s0 : State} (s : State) (a1 : _) (a2 : _) (a3 : _) (hm : subMask 100761969 m = true) (h : Keep m s0 s) : Keep m s0 (State.pkMalformed s a1 a2 a3) := by
  refine Keep.lift (f := 100761969) ?_ hm h
  unfold State.pkMalformed
  repeat' first
    | exact rfl
    | with_reducible exact Keep.refl _ _
    | with_reducible assumption
    | with_reducible apply State.pkMark_keep
    | with_reducible apply State.inc_keep
    | with_reducible apply State.pkDone_keep
    | with_reducible apply State.bridge_keep
    | with_reducible apply State.sendOut_keep
    | with_reducible apply Keep.ite <;> intro _
    | with_reducible apply Keep.foldl <;> try intro _ _ _
    | with_reducible apply Keep.foldl_snd <;> try intro _ _ _
    | with_reducible refine Keep.of_snd ‹_ = (_, _)› ?_
    | with_reducible refine Keep.of_snd2 ‹_ = (_, _, _)› ?_
    | with_reducible apply Keep.of_id
    | split
    | dsimp only

theorem State.pkAgain_keep {m : Nat} {s0 : State} (s : State) (a1 : _) (a2 : _) (a3 : _) (hm : subMask 100761969 m = true) (h : Keep m s0 s) : Keep m s0 (State.pkAgain s a1 a2 a3) := by
  refine Keep.lift (f := 100761969) ?_ hm h
  unfold State.pkAgain
  repeat' first
    | exact rfl
    | with_reducible exact Keep.refl _ _
    | with_reducible assumption
    | with_reducible apply State.pkMalformed_keep
    | with_reducible apply State.pkSet_keep
    | with_reducible apply State.inc_keep
    | with_reducible apply Keep.ite <;> intro _
    | with_reducible apply Keep.foldl <;> try intro _ _ _
    | with_reducible apply Keep.foldl_snd <;> try intro _ _ _
    | with_reducible refine Keep.of_snd ‹_ = (_, _)› ?_
    | with_reducible refine Keep.of_snd2 ‹_ = (_, _, _)› ?_
    | with_reducible apply Keep.of_id
    | split
    | dsimp only

theorem State.espIn_keep {m : Nat} {s0 : State} (s : State) (a1 : _) (a2 : _) (a3 : _) (hm : subMask 100761969 m = true) (h : Keep m s0 s) : Keep m s0 (State.espIn s a1 a2 a3) := by
  refine Keep.lift (f := 100761969) ?_ hm h
  unfold State.espIn
  repeat' first
    | exact rfl
    | with_reducible exact Keep.refl _ _
    | with_reducible assumption
    | with_reducible apply State.pkDone_keep
    | with_reducible apply State.inc_keep
    | with_reducible apply State.useKey_keep
    | with_reducible apply State.pkMark_keep
    | with_reducible apply State.pkUpd_keep
    | with_reducible apply State.setFent_keep
    | with_reducible apply State.pkAgain_keep
    | with_reducible apply Keep.ite <;> intro _
    | with_reducible apply Keep.foldl <;> try intro _ _ _
    | with_reducible apply Keep.foldl_snd <;> try intro _ _ _
    | with_reducible refine Keep.of_snd ‹_ = (_, _)› ?_
    | with_reducible refine Keep.of_snd2 ‹_ = (_, _, _)› ?_
    | with_reducible apply Keep.of_id
    | split
    | dsimp only

theorem State.pkTerm_keep {m : Nat} {s0 : State} (s : State) (a1 : _) (a2 : _) (a3 : _) (hm : subMask 100761969 m = true) (h : Keep m s0 s) : Keep m s0 (State.pkTerm s a1 a2 a3) := by
  refine Keep.lift (f := 100761969) ?_ hm h
  unfold State.pkTerm
  repeat' first
    | exact rfl
    | with_reducible exact Keep.refl _ _
    | with_reducible assumption
    | with_reducible apply State.pkDone_keep
    | with_reducible apply State.inc_keep
    | with_reducible apply State.pkAgain_keep
    | with_reducible apply State.espIn_keep
    | with_reducible apply Keep.ite <;> intro _
    | with_reducible apply Keep.foldl <;> try intro _ _ _
    | with_reducible apply Keep.foldl_snd <;> try intro _ _ _
    | with_reducible refine Keep.of_snd ‹_ = (_, _)› ?_
    | with_reducible refine Keep.of_snd2 ‹_ = (_, _, _)› ?_
    | with_reducible apply Keep.of_id
    | split
    | dsimp only

theorem State.pkPassEnd_keep {m : Nat} {s0 : State} (s : State) (a1 : _) (hm : subMask 100761969 m = true) (h : Keep m s0 s) : Keep m s0 (State.pkPassEnd s a1) := by
  refine Keep.lift (f := 100761969) ?_ hm h
  unfold State.pkPassEnd
  repeat' first
    | exact rfl
    | with_reducible exact Keep.refl _ _
    | with_reducible assumption
    | with_reducible apply State.pkMalformed_keep
    | with_reducible apply State.pkAgain_keep
    | with_reducible apply State.pkDone_keep
    | with_reducible apply State.pkTerm_keep
    | with_reducible apply State.pkLookup_keep
    | with_reducible apply Keep.ite <;> intro _
    | with_reducible apply Keep.foldl <;> try intro _ _ _
    | with_reducible apply Keep.foldl_snd <;> try intro _ _ _
    | with_reducible refine Keep.of_snd ‹_ = (_, _)› ?_
    | with_reducible refine Keep.of_snd2 ‹_ = (_, _, _)› ?_
    | with_reducible apply Keep.of_id
    | split
    | dsimp only

end Sys2Proof.Machine
end

