-- ==== Sys2Proof/Laws/KeepReckoner.lean ====
section
/-! SUPPORT. What each operation of Machine/Reckoner.lean leaves alone. -/

set_option Elab.async false

namespace Sys2Proof.Machine

theorem State.rkUpd_keep {m : Nat} {s0 : State} (s : State) (a1 : _) (a2 : _) (hm : subMask 262144 m = true) (h : Keep m s0 s) : Keep m s0 (State.rkUpd s a1 a2) := by
  refine Keep.lift (f := 262144) ?_ hm h
  unfold State.rkUpd
  repeat' first
    | exact rfl
    | with_reducible exact Keep.refl _ _
    | with_reducible assumption
    | with_reducible apply Keep.ite <;> intro _
    | with_reducible apply Keep.foldl <;> try intro _ _ _
    | with_reducible apply Keep.foldl_snd <;> try intro _ _ _
    | (rewrite [State.mk_eq_updOf]; (with_reducible refine Keep.node 262144 ?_ ?_ ?_); · refine Keep.upd 262144 ?_ ?_ ?_ ?_ ?_ (fun p hp => ?_); exact rfl; exact rfl; exact rfl; exact rfl; exact rfl; cases p <;> first | exact absurd hp (by decide) | exact rfl)
    | with_reducible refine Keep.of_snd ‹_ = (_, _)› ?_
    | with_reducible refine Keep.of_snd2 ‹_ = (_, _, _)› ?_
    | with_reducible apply Keep.of_id
    | split
    | dsimp only

theorem State.rkStore_keep {m : Nat} {s0 : State} (s : State) (a1 : _) (a2 : _) (a3 : _) (hm : subMask 327744 m = true) (h : Keep m s0 s) : Keep m s0 (State.rkStore s a1 a2 a3) := by
  refine Keep.lift (f := 327744) ?_ hm h
  unfold State.rkStore
  repeat' first
    | exact rfl
    | with_reducible exact Keep.refl _ _
    | with_reducible assumption
    | with_reducible apply State.memPut_keep
    | with_reducible apply State.rkUpd_keep
    | with_reducible apply Keep.ite <;> intro _
    | with_reducible apply Keep.foldl <;> try intro _ _ _
    | with_reducible apply Keep.foldl_snd <;> try intro _ _ _
    | with_reducible refine Keep.of_snd ‹_ = (_, _)› ?_
    | with_reducible refine Keep.of_snd2 ‹_ = (_, _, _)› ?_
    | with_reducible apply Keep.of_id
    | split
    | dsimp only

theorem State.rkSetS_keep {m : Nat} {s0 : State} (s : State) (a1 : _) (a2 : _) (a3 : _) (hm : subMask 32 m = true) (h : Keep m s0 s) : Keep m s0 (State.rkSetS s a1 a2 a3) := by
  refine Keep.lift (f := 32) ?_ hm h
  unfold State.rkSetS
  repeat' first
    | exact rfl
    | with_reducible exact Keep.refl _ _
    | with_reducible assumption
    | with_reducible apply State.setReg_keep
    | with_reducible apply Keep.ite <;> intro _
    | with_reducible apply Keep.foldl <;> try intro _ _ _
    | with_reducible apply Keep.foldl_snd <;> try intro _ _ _
    | with_reducible refine Keep.of_snd ‹_ = (_, _)› ?_
    | with_reducible refine Keep.of_snd2 ‹_ = (_, _, _)› ?_
    | with_reducible apply Keep.of_id
    | split
    | dsimp only

theorem State.rkFault_keep {m : Nat} {s0 : State} (s : State) (a1 : _) (a2 : _) (hm : subMask 131376 m = true) (h : Keep m s0 s) : Keep m s0 (State.rkFault s a1 a2) := by
  refine Keep.lift (f := 131376) ?_ hm h
  unfold State.rkFault
  repeat' first
    | exact rfl
    | with_reducible exact Keep.refl _ _
    | with_reducible assumption
    | with_reducible apply State.raise_keep
    | with_reducible apply State.sets_keep
    | with_reducible apply State.tlyEnd_keep
    | with_reducible apply Keep.ite <;> intro _
    | with_reducible apply Keep.foldl <;> try intro _ _ _
    | with_reducible apply Keep.foldl_snd <;> try intro _ _ _
    | with_reducible refine Keep.of_snd ‹_ = (_, _)› ?_
    | with_reducible refine Keep.of_snd2 ‹_ = (_, _, _)› ?_
    | with_reducible apply Keep.of_id
    | split
    | dsimp only

theorem State.rkCheck_keep {m : Nat} {s0 : State} (s : State) (a1 : _) (hm : subMask 131376 m = true) (h : Keep m s0 s) : Keep m s0 (State.rkCheck s a1) := by
  refine Keep.lift (f := 131376) ?_ hm h
  unfold State.rkCheck
  repeat' first
    | exact rfl
    | with_reducible exact Keep.refl _ _
    | with_reducible assumption
    | with_reducible apply State.rkFault_keep
    | with_reducible apply Keep.ite <;> intro _
    | with_reducible apply Keep.foldl <;> try intro _ _ _
    | with_reducible apply Keep.foldl_snd <;> try intro _ _ _
    | with_reducible refine Keep.of_snd ‹_ = (_, _)› ?_
    | with_reducible refine Keep.of_snd2 ‹_ = (_, _, _)› ?_
    | with_reducible apply Keep.of_id
    | split
    | dsimp only

theorem State.rkStart_keep {m : Nat} {s0 : State} (s : State) (a1 : _) (hm : subMask 393520 m = true) (h : Keep m s0 s) : Keep m s0 (State.rkStart s a1) := by
  refine Keep.lift (f := 393520) ?_ hm h
  unfold State.rkStart
  repeat' first
    | exact rfl
    | with_reducible exact Keep.refl _ _
    | with_reducible assumption
    | with_reducible apply State.rkCheck_keep
    | with_reducible apply State.rkUpd_keep
    | with_reducible apply State.sets_keep
    | with_reducible apply Keep.ite <;> intro _
    | with_reducible apply Keep.foldl <;> try intro _ _ _
    | with_reducible apply Keep.foldl_snd <;> try intro _ _ _
    | with_reducible refine Keep.of_snd ‹_ = (_, _)› ?_
    | with_reducible refine Keep.of_snd2 ‹_ = (_, _, _)› ?_
    | with_reducible apply Keep.of_id
    | split
    | dsimp only

theorem State.rkIssue_keep {m : Nat} {s0 : State} (s : State) (a1 : _) (a2 : _) (a3 : _) (hm : subMask 262176 m = true) (h : Keep m s0 s) : Keep m s0 (State.rkIssue s a1 a2 a3).2 := by
  refine Keep.lift (f := 262176) ?_ hm h
  unfold State.rkIssue
  repeat' first
    | exact rfl
    | with_reducible exact Keep.refl _ _
    | with_reducible assumption
    | with_reducible apply State.incBy_keep
    | with_reducible apply State.rkUpd_keep
    | with_reducible apply Keep.ite <;> intro _
    | with_reducible apply Keep.foldl <;> try intro _ _ _
    | with_reducible apply Keep.foldl_snd <;> try intro _ _ _
    | with_reducible refine Keep.of_snd ‹_ = (_, _)› ?_
    | with_reducible refine Keep.of_snd2 ‹_ = (_, _, _)› ?_
    | with_reducible apply Keep.of_id
    | split
    | dsimp only

theorem State.rkAdvance_keep {m : Nat} {s0 : State} (s : State) (a1 : _) (hm : subMask 393520 m = true) (h : Keep m s0 s) : Keep m s0 (State.rkAdvance s a1) := by
  refine Keep.lift (f := 393520) ?_ hm h
  unfold State.rkAdvance
  repeat' first
    | exact rfl
    | with_reducible exact Keep.refl _ _
    | with_reducible assumption
    | with_reducible apply State.rkUpd_keep
    | with_reducible apply State.rkCheck_keep
    | with_reducible apply State.set_keep
    | with_reducible apply Keep.ite <;> intro _
    | with_reducible apply Keep.foldl <;> try intro _ _ _
    | with_reducible apply Keep.foldl_snd <;> try intro _ _ _
    | with_reducible refine Keep.of_snd ‹_ = (_, _)› ?_
    | with_reducible refine Keep.of_snd2 ‹_ = (_, _, _)› ?_
    | with_reducible apply Keep.of_id
    | split
    | dsimp only

theorem rkRun_keep {m : Nat} {s0 : State} (a0 : _) (a1 : _) (a2 : _) (s : State) (hf : ∀ w t, Keep m s0 t → Keep m s0 (a2 w t)) (hm : subMask 0 m = true) (h : Keep m s0 s) : Keep m s0 (rkRun a0 a1 a2 s) := by
  unfold rkRun
  repeat' first
    | exact rfl
    | exact subMask_trans rfl hm
    | with_reducible refine hf _ _ ?_
    | with_reducible exact Keep.refl _ _
    | with_reducible assumption
    | with_reducible apply Keep.ite <;> intro _
    | with_reducible apply Keep.foldl <;> try intro _ _ _
    | with_reducible apply Keep.foldl_snd <;> try intro _ _ _
    | with_reducible refine Keep.of_snd ‹_ = (_, _)› ?_
    | with_reducible refine Keep.of_snd2 ‹_ = (_, _, _)› ?_
    | with_reducible apply Keep.of_id
    | split
    | dsimp only

theorem State.rkSat_keep {m : Nat} {s0 : State} (s : State) (a1 : _) (a2 : _) (hm : subMask 32 m = true) (h : Keep m s0 s) : Keep m s0 (State.rkSat s a1 a2) := by
  refine Keep.lift (f := 32) ?_ hm h
  unfold State.rkSat
  repeat' first
    | exact rfl
    | with_reducible exact Keep.refl _ _
    | with_reducible assumption
    | with_reducible apply State.inc_keep
    | with_reducible apply State.set_keep
    | with_reducible apply Keep.ite <;> intro _
    | with_reducible apply Keep.foldl <;> try intro _ _ _
    | with_reducible apply Keep.foldl_snd <;> try intro _ _ _
    | with_reducible refine Keep.of_snd ‹_ = (_, _)› ?_
    | with_reducible refine Keep.of_snd2 ‹_ = (_, _, _)› ?_
    | with_reducible apply Keep.of_id
    | split
    | dsimp only

theorem State.rkSetV_keep {m : Nat} {s0 : State} (s : State) (a1 : _) (a2 : _) (a3 : _) (a4 : _) (a5 : _) (hm : subMask 262176 m = true) (h : Keep m s0 s) : Keep m s0 (State.rkSetV s a1 a2 a3 a4 a5) := by
  refine Keep.lift (f := 262176) ?_ hm h
  unfold State.rkSetV
  repeat' first
    | exact rfl
    | with_reducible exact Keep.refl _ _
    | with_reducible assumption
    | with_reducible apply State.rkSat_keep
    | with_reducible apply State.rkUpd_keep
    | with_reducible apply Keep.ite <;> intro _
    | with_reducible apply Keep.foldl <;> try intro _ _ _
    | with_reducible apply Keep.foldl_snd <;> try intro _ _ _
    | with_reducible refine Keep.of_snd ‹_ = (_, _)› ?_
    | with_reducible refine Keep.of_snd2 ‹_ = (_, _, _)› ?_
    | with_reducible apply Keep.of_id
    | split
    | dsimp only

theorem State.rkSetA_keep {m : Nat} {s0 : State} (s : State) (a1 : _) (a2 : _) (a3 : _) (a4 : _) (a5 : _) (hm : subMask 262176 m = true) (h : Keep m s0 s) : Keep m s0 (State.rkSetA s a1 a2 a3 a4 a5) := by
  refine Keep.lift (f := 262176) ?_ hm h
  unfold State.rkSetA
  repeat' first
    | exact rfl
    | with_reducible exact Keep.refl _ _
    | with_reducible assumption
    | with_reducible apply State.rkSat_keep
    | with_reducible apply State.rkUpd_keep
    | with_reducible apply Keep.ite <;> intro _
    | with_reducible apply Keep.foldl <;> try intro _ _ _
    | with_reducible apply Keep.foldl_snd <;> try intro _ _ _
    | with_reducible refine Keep.of_snd ‹_ = (_, _)› ?_
    | with_reducible refine Keep.of_snd2 ‹_ = (_, _, _)› ?_
    | with_reducible apply Keep.of_id
    | split
    | dsimp only

theorem rkVec_keep {m : Nat} {s0 : State} (a0 : _) (a1 : _) (a2 : _) (a3 : _) (a4 : _) (s : State) (hm : subMask 393520 m = true) (h : Keep m s0 s) : Keep m s0 (rkVec a0 a1 a2 a3 a4 s) := by
  refine Keep.lift (f := 393520) ?_ hm h
  unfold rkVec
  repeat' first
    | exact rfl
    | with_reducible exact Keep.refl _ _
    | with_reducible assumption
    | with_reducible apply State.rkIssue_keep
    | with_reducible apply State.rkAdvance_keep
    | with_reducible apply State.rkSetV_keep
    | with_reducible apply Keep.ite <;> intro _
    | with_reducible apply Keep.foldl <;> try intro _ _ _
    | with_reducible apply Keep.foldl_snd <;> try intro _ _ _
    | with_reducible refine Keep.of_snd ‹_ = (_, _)› ?_
    | with_reducible refine Keep.of_snd2 ‹_ = (_, _, _)› ?_
    | with_reducible apply Keep.of_id
    | split
    | dsimp only

theorem rkMac_keep {m : Nat} {s0 : State} (a0 : _) (a1 : _) (a2 : _) (s : State) (hm : subMask 393520 m = true) (h : Keep m s0 s) : Keep m s0 (rkMac a0 a1 a2 s) := by
  refine Keep.lift (f := 393520) ?_ hm h
  unfold rkMac
  repeat' first
    | exact rfl
    | with_reducible exact Keep.refl _ _
    | with_reducible assumption
    | with_reducible apply State.rkIssue_keep
    | with_reducible apply State.rkAdvance_keep
    | with_reducible apply State.rkSetA_keep
    | with_reducible apply Keep.ite <;> intro _
    | with_reducible apply Keep.foldl <;> try intro _ _ _
    | with_reducible apply Keep.foldl_snd <;> try intro _ _ _
    | with_reducible refine Keep.of_snd ‹_ = (_, _)› ?_
    | with_reducible refine Keep.of_snd2 ‹_ = (_, _, _)› ?_
    | with_reducible apply Keep.of_id
    | split
    | dsimp only

theorem State.rkStep_keep {m : Nat} {s0 : State} (s : State) (a1 : _) (a2 : _) (hm : subMask 262144 m = true) (h : Keep m s0 s) : Keep m s0 (State.rkStep s a1 a2) := by
  refine Keep.lift (f := 262144) ?_ hm h
  unfold State.rkStep
  repeat' first
    | exact rfl
    | with_reducible exact Keep.refl _ _
    | with_reducible assumption
    | with_reducible apply State.rkUpd_keep
    | with_reducible apply Keep.ite <;> intro _
    | with_reducible apply Keep.foldl <;> try intro _ _ _
    | with_reducible apply Keep.foldl_snd <;> try intro _ _ _
    | with_reducible refine Keep.of_snd ‹_ = (_, _)› ?_
    | with_reducible refine Keep.of_snd2 ‹_ = (_, _, _)› ?_
    | with_reducible apply Keep.of_id
    | split
    | dsimp only

theorem State.rkStores_keep {m : Nat} {s0 : State} (s : State) (a1 : _) (a2 : _) (a3 : _) (hm : subMask 327744 m = true) (h : Keep m s0 s) : Keep m s0 (State.rkStores s a1 a2 a3) := by
  refine Keep.lift (f := 327744) ?_ hm h
  unfold State.rkStores
  repeat' first
    | exact rfl
    | with_reducible exact Keep.refl _ _
    | with_reducible assumption
    | with_reducible apply State.rkStore_keep
    | with_reducible apply Keep.ite <;> intro _
    | with_reducible apply Keep.foldl <;> try intro _ _ _
    | with_reducible apply Keep.foldl_snd <;> try intro _ _ _
    | with_reducible refine Keep.of_snd ‹_ = (_, _)› ?_
    | with_reducible refine Keep.of_snd2 ‹_ = (_, _, _)› ?_
    | with_reducible apply Keep.of_id
    | split
    | dsimp only

theorem execRknNop_keep (a0 : _) (s : State) {t : State} (h : execRknNop a0 s = .next t) : Keep 393520 s t := by
  unfold execRknNop at h
  injection h with h
  subst h
  repeat' first
    | exact rfl
    | with_reducible exact Keep.refl _ _
    | with_reducible assumption
    | with_reducible refine rkRun_keep _ _ _ _ (fun _ _ _ => ?_) ?_ ?_
    | with_reducible apply State.rkAdvance_keep
    | with_reducible apply State.rkIssue_keep
    | with_reducible apply Keep.ite <;> intro _
    | with_reducible apply Keep.foldl <;> try intro _ _ _
    | with_reducible apply Keep.foldl_snd <;> try intro _ _ _
    | with_reducible refine Keep.of_snd ‹_ = (_, _)› ?_
    | with_reducible refine Keep.of_snd2 ‹_ = (_, _, _)› ?_
    | with_reducible apply Keep.of_id
    | split
    | dsimp only

theorem execRknHalt_keep (a0 : _) (s : State) {t : State} (h : execRknHalt a0 s = .next t) : Keep 393520 s t := by
  unfold execRknHalt at h
  injection h with h
  subst h
  repeat' first
    | exact rfl
    | with_reducible exact Keep.refl _ _
    | with_reducible assumption
    | with_reducible refine rkRun_keep _ _ _ _ (fun _ _ _ => ?_) ?_ ?_
    | with_reducible apply State.sets_keep
    | with_reducible apply State.rkIssue_keep
    | with_reducible apply State.raise_keep
    | with_reducible apply State.tlyEnd_keep
    | with_reducible apply Keep.ite <;> intro _
    | with_reducible apply Keep.foldl <;> try intro _ _ _
    | with_reducible apply Keep.foldl_snd <;> try intro _ _ _
    | with_reducible refine Keep.of_snd ‹_ = (_, _)› ?_
    | with_reducible refine Keep.of_snd2 ‹_ = (_, _, _)› ?_
    | with_reducible apply Keep.of_id
    | split
    | dsimp only

theorem execRknLoop_keep (a0 : _) (s : State) {t : State} (h : execRknLoop a0 s = .next t) : Keep 393520 s t := by
  unfold execRknLoop at h
  injection h with h
  subst h
  repeat' first
    | exact rfl
    | with_reducible exact Keep.refl _ _
    | with_reducible assumption
    | with_reducible refine rkRun_keep _ _ _ _ (fun _ _ _ => ?_) ?_ ?_
    | with_reducible apply State.rkIssue_keep
    | with_reducible apply State.rkFault_keep
    | with_reducible apply State.rkCheck_keep
    | with_reducible apply State.set_keep
    | with_reducible apply State.rkUpd_keep
    | with_reducible apply Keep.ite <;> intro _
    | with_reducible apply Keep.foldl <;> try intro _ _ _
    | with_reducible apply Keep.foldl_snd <;> try intro _ _ _
    | with_reducible refine Keep.of_snd ‹_ = (_, _)› ?_
    | with_reducible refine Keep.of_snd2 ‹_ = (_, _, _)› ?_
    | with_reducible apply Keep.of_id
    | split
    | dsimp only

theorem execRknBrc_keep (a0 : _) (s : State) {t : State} (h : execRknBrc a0 s = .next t) : Keep 393520 s t := by
  unfold execRknBrc at h
  injection h with h
  subst h
  repeat' first
    | exact rfl
    | with_reducible exact Keep.refl _ _
    | with_reducible assumption
    | with_reducible refine rkRun_keep _ _ _ _ (fun _ _ _ => ?_) ?_ ?_
    | with_reducible apply State.rkCheck_keep
    | with_reducible apply State.set_keep
    | with_reducible apply State.rkUpd_keep
    | with_reducible apply State.rkIssue_keep
    | with_reducible apply State.rkAdvance_keep
    | with_reducible apply Keep.ite <;> intro _
    | with_reducible apply Keep.foldl <;> try intro _ _ _
    | with_reducible apply Keep.foldl_snd <;> try intro _ _ _
    | with_reducible refine Keep.of_snd ‹_ = (_, _)› ?_
    | with_reducible refine Keep.of_snd2 ‹_ = (_, _, _)› ?_
    | with_reducible apply Keep.of_id
    | split
    | dsimp only

theorem execRknDma_keep (a0 : _) (s : State) {t : State} (h : execRknDma a0 s = .next t) : Keep 393520 s t := by
  unfold execRknDma at h
  injection h with h
  subst h
  repeat' first
    | exact rfl
    | with_reducible exact Keep.refl _ _
    | with_reducible assumption
    | with_reducible refine rkRun_keep _ _ _ _ (fun _ _ _ => ?_) ?_ ?_
    | with_reducible apply State.rkFault_keep
    | with_reducible apply State.rkIssue_keep
    | with_reducible apply State.rkAdvance_keep
    | with_reducible apply State.rkUpd_keep
    | with_reducible apply Keep.ite <;> intro _
    | with_reducible apply Keep.foldl <;> try intro _ _ _
    | with_reducible apply Keep.foldl_snd <;> try intro _ _ _
    | with_reducible refine Keep.of_snd ‹_ = (_, _)› ?_
    | with_reducible refine Keep.of_snd2 ‹_ = (_, _, _)› ?_
    | with_reducible apply Keep.of_id
    | split
    | dsimp only

theorem execRknDmaComplete_keep (a0 : _) (a1 : _) (s : State) {t : State} (h : execRknDmaComplete a0 a1 s = .next t) : Keep 459120 s t := by
  unfold execRknDmaComplete at h
  injection h with h
  subst h
  repeat' first
    | exact rfl
    | with_reducible exact Keep.refl _ _
    | with_reducible assumption
    | with_reducible apply State.rkUpd_keep
    | with_reducible apply State.memWrite_keep
    | with_reducible apply State.rkFault_keep
    | with_reducible apply State.memRead_keep
    | with_reducible apply State.memPut_keep
    | with_reducible apply Keep.ite <;> intro _
    | with_reducible apply Keep.foldl <;> try intro _ _ _
    | with_reducible apply Keep.foldl_snd <;> try intro _ _ _
    | with_reducible refine Keep.of_snd ‹_ = (_, _)› ?_
    | with_reducible refine Keep.of_snd2 ‹_ = (_, _, _)› ?_
    | with_reducible apply Keep.of_id
    | split
    | dsimp only

theorem execRknDwait_keep (a0 : _) (s : State) {t : State} (h : execRknDwait a0 s = .next t) : Keep 393520 s t := by
  unfold execRknDwait at h
  injection h with h
  subst h
  repeat' first
    | exact rfl
    | with_reducible exact Keep.refl _ _
    | with_reducible assumption
    | with_reducible refine rkRun_keep _ _ _ _ (fun _ _ _ => ?_) ?_ ?_
    | with_reducible apply State.rkAdvance_keep
    | with_reducible apply State.rkIssue_keep
    | with_reducible apply Keep.ite <;> intro _
    | with_reducible apply Keep.foldl <;> try intro _ _ _
    | with_reducible apply Keep.foldl_snd <;> try intro _ _ _
    | with_reducible refine Keep.of_snd ‹_ = (_, _)› ?_
    | with_reducible refine Keep.of_snd2 ‹_ = (_, _, _)› ?_
    | with_reducible apply Keep.of_id
    | split
    | dsimp only

theorem execRknLd_keep (a0 : _) (s : State) {t : State} (h : execRknLd a0 s = .next t) : Keep 393521 s t := by
  unfold execRknLd at h
  injection h with h
  subst h
  repeat' first
    | exact rfl
    | with_reducible exact Keep.refl _ _
    | with_reducible assumption
    | with_reducible refine rkRun_keep _ _ _ _ (fun _ _ _ => ?_) ?_ ?_
    | with_reducible apply State.rkIssue_keep
    | with_reducible apply State.rkUpd_keep
    | with_reducible apply State.rkAdvance_keep
    | with_reducible apply State.rkStep_keep
    | with_reducible apply Keep.ite <;> intro _
    | with_reducible apply Keep.foldl <;> try intro _ _ _
    | with_reducible apply Keep.foldl_snd <;> try intro _ _ _
    | (rewrite [State.mk_eq_updOf]; (with_reducible refine Keep.node 1 ?_ ?_ ?_); · refine Keep.upd 1 ?_ ?_ ?_ ?_ ?_ (fun p hp => ?_); exact rfl; exact rfl; exact rfl; exact rfl; exact rfl; cases p <;> first | exact absurd hp (by decide) | exact rfl)
    | with_reducible refine Keep.of_snd ‹_ = (_, _)› ?_
    | with_reducible refine Keep.of_snd2 ‹_ = (_, _, _)› ?_
    | with_reducible apply Keep.of_id
    | split
    | dsimp only

theorem execRknSt_keep (a0 : _) (s : State) {t : State} (h : execRknSt a0 s = .next t) : Keep 459121 s t := by
  unfold execRknSt at h
  injection h with h
  subst h
  repeat' first
    | exact rfl
    | with_reducible exact Keep.refl _ _
    | with_reducible assumption
    | with_reducible refine rkRun_keep _ _ _ _ (fun _ _ _ => ?_) ?_ ?_
    | with_reducible apply State.rkIssue_keep
    | with_reducible apply State.rkSat_keep
    | with_reducible apply State.rkStores_keep
    | with_reducible apply State.rkAdvance_keep
    | with_reducible apply State.rkStep_keep
    | with_reducible apply Keep.ite <;> intro _
    | with_reducible apply Keep.foldl <;> try intro _ _ _
    | with_reducible apply Keep.foldl_snd <;> try intro _ _ _
    | (rewrite [State.mk_eq_updOf]; (with_reducible refine Keep.node 1 ?_ ?_ ?_); · refine Keep.upd 1 ?_ ?_ ?_ ?_ ?_ (fun p hp => ?_); exact rfl; exact rfl; exact rfl; exact rfl; exact rfl; cases p <;> first | exact absurd hp (by decide) | exact rfl)
    | with_reducible refine Keep.of_snd ‹_ = (_, _)› ?_
    | with_reducible refine Keep.of_snd2 ‹_ = (_, _, _)› ?_
    | with_reducible apply Keep.of_id
    | split
    | dsimp only

theorem execRknLde_keep (a0 : _) (s : State) {t : State} (h : execRknLde a0 s = .next t) : Keep 393521 s t := by
  unfold execRknLde at h
  injection h with h
  subst h
  repeat' first
    | exact rfl
    | with_reducible exact Keep.refl _ _
    | with_reducible assumption
    | with_reducible refine rkRun_keep _ _ _ _ (fun _ _ _ => ?_) ?_ ?_
    | with_reducible apply State.rkIssue_keep
    | with_reducible apply State.rkUpd_keep
    | with_reducible apply State.rkAdvance_keep
    | with_reducible apply State.rkStep_keep
    | with_reducible apply Keep.ite <;> intro _
    | with_reducible apply Keep.foldl <;> try intro _ _ _
    | with_reducible apply Keep.foldl_snd <;> try intro _ _ _
    | (rewrite [State.mk_eq_updOf]; (with_reducible refine Keep.node 1 ?_ ?_ ?_); · refine Keep.upd 1 ?_ ?_ ?_ ?_ ?_ (fun p hp => ?_); exact rfl; exact rfl; exact rfl; exact rfl; exact rfl; cases p <;> first | exact absurd hp (by decide) | exact rfl)
    | with_reducible refine Keep.of_snd ‹_ = (_, _)› ?_
    | with_reducible refine Keep.of_snd2 ‹_ = (_, _, _)› ?_
    | with_reducible apply Keep.of_id
    | split
    | dsimp only

theorem execRknSte_keep (a0 : _) (s : State) {t : State} (h : execRknSte a0 s = .next t) : Keep 459121 s t := by
  unfold execRknSte at h
  injection h with h
  subst h
  repeat' first
    | exact rfl
    | with_reducible exact Keep.refl _ _
    | with_reducible assumption
    | with_reducible refine rkRun_keep _ _ _ _ (fun _ _ _ => ?_) ?_ ?_
    | with_reducible apply State.rkIssue_keep
    | with_reducible apply State.rkSat_keep
    | with_reducible apply State.rkStore_keep
    | with_reducible apply State.rkAdvance_keep
    | with_reducible apply State.rkStep_keep
    | with_reducible apply Keep.ite <;> intro _
    | with_reducible apply Keep.foldl <;> try intro _ _ _
    | with_reducible apply Keep.foldl_snd <;> try intro _ _ _
    | (rewrite [State.mk_eq_updOf]; (with_reducible refine Keep.node 1 ?_ ?_ ?_); · refine Keep.upd 1 ?_ ?_ ?_ ?_ ?_ (fun p hp => ?_); exact rfl; exact rfl; exact rfl; exact rfl; exact rfl; cases p <;> first | exact absurd hp (by decide) | exact rfl)
    | with_reducible refine Keep.of_snd ‹_ = (_, _)› ?_
    | with_reducible refine Keep.of_snd2 ‹_ = (_, _, _)› ?_
    | with_reducible apply Keep.of_id
    | split
    | dsimp only

theorem execRknVadd_keep (a0 : _) (s : State) {t : State} (h : execRknVadd a0 s = .next t) : Keep 393520 s t := by
  unfold execRknVadd at h
  injection h with h
  subst h
  repeat' first
    | exact rfl
    | with_reducible exact Keep.refl _ _
    | with_reducible assumption
    | with_reducible refine rkRun_keep _ _ _ _ (fun _ _ _ => ?_) ?_ ?_
    | with_reducible apply rkVec_keep
    | with_reducible apply Keep.ite <;> intro _
    | with_reducible apply Keep.foldl <;> try intro _ _ _
    | with_reducible apply Keep.foldl_snd <;> try intro _ _ _
    | with_reducible refine Keep.of_snd ‹_ = (_, _)› ?_
    | with_reducible refine Keep.of_snd2 ‹_ = (_, _, _)› ?_
    | with_reducible apply Keep.of_id
    | split
    | dsimp only

theorem execRknVsub_keep (a0 : _) (s : State) {t : State} (h : execRknVsub a0 s = .next t) : Keep 393520 s t := by
  unfold execRknVsub at h
  injection h with h
  subst h
  repeat' first
    | exact rfl
    | with_reducible exact Keep.refl _ _
    | with_reducible assumption
    | with_reducible refine rkRun_keep _ _ _ _ (fun _ _ _ => ?_) ?_ ?_
    | with_reducible apply rkVec_keep
    | with_reducible apply Keep.ite <;> intro _
    | with_reducible apply Keep.foldl <;> try intro _ _ _
    | with_reducible apply Keep.foldl_snd <;> try intro _ _ _
    | with_reducible refine Keep.of_snd ‹_ = (_, _)› ?_
    | with_reducible refine Keep.of_snd2 ‹_ = (_, _, _)› ?_
    | with_reducible apply Keep.of_id
    | split
    | dsimp only

theorem execRknVmul_keep (a0 : _) (s : State) {t : State} (h : execRknVmul a0 s = .next t) : Keep 393521 s t := by
  unfold execRknVmul at h
  injection h with h
  subst h
  repeat' first
    | exact rfl
    | with_reducible exact Keep.refl _ _
    | with_reducible assumption
    | with_reducible refine rkRun_keep _ _ _ _ (fun _ _ _ => ?_) ?_ ?_
    | with_reducible apply rkVec_keep
    | with_reducible apply Keep.ite <;> intro _
    | with_reducible apply Keep.foldl <;> try intro _ _ _
    | with_reducible apply Keep.foldl_snd <;> try intro _ _ _
    | (rewrite [State.mk_eq_updOf]; (with_reducible refine Keep.node 1 ?_ ?_ ?_); · refine Keep.upd 1 ?_ ?_ ?_ ?_ ?_ (fun p hp => ?_); exact rfl; exact rfl; exact rfl; exact rfl; exact rfl; cases p <;> first | exact absurd hp (by decide) | exact rfl)
    | with_reducible refine Keep.of_snd ‹_ = (_, _)› ?_
    | with_reducible refine Keep.of_snd2 ‹_ = (_, _, _)› ?_
    | with_reducible apply Keep.of_id
    | split
    | dsimp only

theorem execRknVmac_keep (a0 : _) (s : State) {t : State} (h : execRknVmac a0 s = .next t) : Keep 393520 s t := by
  unfold execRknVmac at h
  injection h with h
  subst h
  repeat' first
    | exact rfl
    | with_reducible exact Keep.refl _ _
    | with_reducible assumption
    | with_reducible refine rkRun_keep _ _ _ _ (fun _ _ _ => ?_) ?_ ?_
    | with_reducible apply rkMac_keep
    | with_reducible apply Keep.ite <;> intro _
    | with_reducible apply Keep.foldl <;> try intro _ _ _
    | with_reducible apply Keep.foldl_snd <;> try intro _ _ _
    | with_reducible refine Keep.of_snd ‹_ = (_, _)› ?_
    | with_reducible refine Keep.of_snd2 ‹_ = (_, _, _)› ?_
    | with_reducible apply Keep.of_id
    | split
    | dsimp only

theorem execRknVmsu_keep (a0 : _) (s : State) {t : State} (h : execRknVmsu a0 s = .next t) : Keep 393520 s t := by
  unfold execRknVmsu at h
  injection h with h
  subst h
  repeat' first
    | exact rfl
    | with_reducible exact Keep.refl _ _
    | with_reducible assumption
    | with_reducible refine rkRun_keep _ _ _ _ (fun _ _ _ => ?_) ?_ ?_
    | with_reducible apply rkMac_keep
    | with_reducible apply Keep.ite <;> intro _
    | with_reducible apply Keep.foldl <;> try intro _ _ _
    | with_reducible apply Keep.foldl_snd <;> try intro _ _ _
    | with_reducible refine Keep.of_snd ‹_ = (_, _)› ?_
    | with_reducible refine Keep.of_snd2 ‹_ = (_, _, _)› ?_
    | with_reducible apply Keep.of_id
    | split
    | dsimp only

theorem execRknAmov_keep (a0 : _) (s : State) {t : State} (h : execRknAmov a0 s = .next t) : Keep 393521 s t := by
  unfold execRknAmov at h
  injection h with h
  subst h
  repeat' first
    | exact rfl
    | with_reducible exact Keep.refl _ _
    | with_reducible assumption
    | with_reducible refine rkRun_keep _ _ _ _ (fun _ _ _ => ?_) ?_ ?_
    | with_reducible apply State.rkIssue_keep
    | with_reducible apply State.rkSetV_keep
    | with_reducible apply State.rkAdvance_keep
    | with_reducible apply Keep.ite <;> intro _
    | with_reducible apply Keep.foldl <;> try intro _ _ _
    | with_reducible apply Keep.foldl_snd <;> try intro _ _ _
    | (rewrite [State.mk_eq_updOf]; (with_reducible refine Keep.node 1 ?_ ?_ ?_); · refine Keep.upd 1 ?_ ?_ ?_ ?_ ?_ (fun p hp => ?_); exact rfl; exact rfl; exact rfl; exact rfl; exact rfl; cases p <;> first | exact absurd hp (by decide) | exact rfl)
    | with_reducible refine Keep.of_snd ‹_ = (_, _)› ?_
    | with_reducible refine Keep.of_snd2 ‹_ = (_, _, _)› ?_
    | with_reducible apply Keep.of_id
    | split
    | dsimp only

theorem execRknAclr_keep (a0 : _) (s : State) {t : State} (h : execRknAclr a0 s = .next t) : Keep 393520 s t := by
  unfold execRknAclr at h
  injection h with h
  subst h
  repeat' first
    | exact rfl
    | with_reducible exact Keep.refl _ _
    | with_reducible assumption
    | with_reducible refine rkRun_keep _ _ _ _ (fun _ _ _ => ?_) ?_ ?_
    | with_reducible apply State.rkIssue_keep
    | with_reducible apply State.rkAdvance_keep
    | with_reducible apply State.rkSetA_keep
    | with_reducible apply Keep.ite <;> intro _
    | with_reducible apply Keep.foldl <;> try intro _ _ _
    | with_reducible apply Keep.foldl_snd <;> try intro _ _ _
    | with_reducible refine Keep.of_snd ‹_ = (_, _)› ?_
    | with_reducible refine Keep.of_snd2 ‹_ = (_, _, _)› ?_
    | with_reducible apply Keep.of_id
    | split
    | dsimp only

theorem execRknVbfly_keep (a0 : _) (s : State) {t : State} (h : execRknVbfly a0 s = .next t) : Keep 393520 s t := by
  unfold execRknVbfly at h
  injection h with h
  subst h
  repeat' first
    | exact rfl
    | with_reducible exact Keep.refl _ _
    | with_reducible assumption
    | with_reducible refine rkRun_keep _ _ _ _ (fun _ _ _ => ?_) ?_ ?_
    | with_reducible apply rkVec_keep
    | with_reducible apply State.rkFault_keep
    | with_reducible apply Keep.ite <;> intro _
    | with_reducible apply Keep.foldl <;> try intro _ _ _
    | with_reducible apply Keep.foldl_snd <;> try intro _ _ _
    | with_reducible refine Keep.of_snd ‹_ = (_, _)› ?_
    | with_reducible refine Keep.of_snd2 ‹_ = (_, _, _)› ?_
    | with_reducible apply Keep.of_id
    | split
    | dsimp only

theorem execRknVsh_keep (a0 : _) (s : State) {t : State} (h : execRknVsh a0 s = .next t) : Keep 393520 s t := by
  unfold execRknVsh at h
  injection h with h
  subst h
  repeat' first
    | exact rfl
    | with_reducible exact Keep.refl _ _
    | with_reducible assumption
    | with_reducible refine rkRun_keep _ _ _ _ (fun _ _ _ => ?_) ?_ ?_
    | with_reducible apply rkVec_keep
    | with_reducible apply Keep.ite <;> intro _
    | with_reducible apply Keep.foldl <;> try intro _ _ _
    | with_reducible apply Keep.foldl_snd <;> try intro _ _ _
    | with_reducible refine Keep.of_snd ‹_ = (_, _)› ?_
    | with_reducible refine Keep.of_snd2 ‹_ = (_, _, _)› ?_
    | with_reducible apply Keep.of_id
    | split
    | dsimp only

theorem execRknSli_keep (a0 : _) (s : State) {t : State} (h : execRknSli a0 s = .next t) : Keep 393520 s t := by
  unfold execRknSli at h
  injection h with h
  subst h
  repeat' first
    | exact rfl
    | with_reducible exact Keep.refl _ _
    | with_reducible assumption
    | with_reducible refine rkRun_keep _ _ _ _ (fun _ _ _ => ?_) ?_ ?_
    | with_reducible apply State.rkAdvance_keep
    | with_reducible apply State.rkSetS_keep
    | with_reducible apply State.rkIssue_keep
    | with_reducible apply Keep.ite <;> intro _
    | with_reducible apply Keep.foldl <;> try intro _ _ _
    | with_reducible apply Keep.foldl_snd <;> try intro _ _ _
    | with_reducible refine Keep.of_snd ‹_ = (_, _)› ?_
    | with_reducible refine Keep.of_snd2 ‹_ = (_, _, _)› ?_
    | with_reducible apply Keep.of_id
    | split
    | dsimp only

theorem execRknSlui_keep (a0 : _) (s : State) {t : State} (h : execRknSlui a0 s = .next t) : Keep 393520 s t := by
  unfold execRknSlui at h
  injection h with h
  subst h
  repeat' first
    | exact rfl
    | with_reducible exact Keep.refl _ _
    | with_reducible assumption
    | with_reducible refine rkRun_keep _ _ _ _ (fun _ _ _ => ?_) ?_ ?_
    | with_reducible apply State.rkAdvance_keep
    | with_reducible apply State.rkSetS_keep
    | with_reducible apply State.rkIssue_keep
    | with_reducible apply Keep.ite <;> intro _
    | with_reducible apply Keep.foldl <;> try intro _ _ _
    | with_reducible apply Keep.foldl_snd <;> try intro _ _ _
    | with_reducible refine Keep.of_snd ‹_ = (_, _)› ?_
    | with_reducible refine Keep.of_snd2 ‹_ = (_, _, _)› ?_
    | with_reducible apply Keep.of_id
    | split
    | dsimp only

theorem execRknSaddi_keep (a0 : _) (s : State) {t : State} (h : execRknSaddi a0 s = .next t) : Keep 393520 s t := by
  unfold execRknSaddi at h
  injection h with h
  subst h
  repeat' first
    | exact rfl
    | with_reducible exact Keep.refl _ _
    | with_reducible assumption
    | with_reducible refine rkRun_keep _ _ _ _ (fun _ _ _ => ?_) ?_ ?_
    | with_reducible apply State.rkAdvance_keep
    | with_reducible apply State.rkSetS_keep
    | with_reducible apply State.rkIssue_keep
    | with_reducible apply Keep.ite <;> intro _
    | with_reducible apply Keep.foldl <;> try intro _ _ _
    | with_reducible apply Keep.foldl_snd <;> try intro _ _ _
    | with_reducible refine Keep.of_snd ‹_ = (_, _)› ?_
    | with_reducible refine Keep.of_snd2 ‹_ = (_, _, _)› ?_
    | with_reducible apply Keep.of_id
    | split
    | dsimp only

theorem execRknSadd_keep (a0 : _) (s : State) {t : State} (h : execRknSadd a0 s = .next t) : Keep 393520 s t := by
  unfold execRknSadd at h
  injection h with h
  subst h
  repeat' first
    | exact rfl
    | with_reducible exact Keep.refl _ _
    | with_reducible assumption
    | with_reducible refine rkRun_keep _ _ _ _ (fun _ _ _ => ?_) ?_ ?_
    | with_reducible apply State.rkAdvance_keep
    | with_reducible apply State.rkSetS_keep
    | with_reducible apply State.rkIssue_keep
    | with_reducible apply Keep.ite <;> intro _
    | with_reducible apply Keep.foldl <;> try intro _ _ _
    | with_reducible apply Keep.foldl_snd <;> try intro _ _ _
    | with_reducible refine Keep.of_snd ‹_ = (_, _)› ?_
    | with_reducible refine Keep.of_snd2 ‹_ = (_, _, _)› ?_
    | with_reducible apply Keep.of_id
    | split
    | dsimp only

theorem execRknSetp_keep (a0 : _) (s : State) {t : State} (h : execRknSetp a0 s = .next t) : Keep 393520 s t := by
  unfold execRknSetp at h
  injection h with h
  subst h
  repeat' first
    | exact rfl
    | with_reducible exact Keep.refl _ _
    | with_reducible assumption
    | with_reducible refine rkRun_keep _ _ _ _ (fun _ _ _ => ?_) ?_ ?_
    | with_reducible apply State.rkIssue_keep
    | with_reducible apply State.rkAdvance_keep
    | with_reducible apply State.rkUpd_keep
    | with_reducible apply Keep.ite <;> intro _
    | with_reducible apply Keep.foldl <;> try intro _ _ _
    | with_reducible apply Keep.foldl_snd <;> try intro _ _ _
    | with_reducible refine Keep.of_snd ‹_ = (_, _)› ?_
    | with_reducible refine Keep.of_snd2 ‹_ = (_, _, _)› ?_
    | with_reducible apply Keep.of_id
    | split
    | dsimp only

theorem execRknSetm_keep (a0 : _) (s : State) {t : State} (h : execRknSetm a0 s = .next t) : Keep 393520 s t := by
  unfold execRknSetm at h
  injection h with h
  subst h
  repeat' first
    | exact rfl
    | with_reducible exact Keep.refl _ _
    | with_reducible assumption
    | with_reducible refine rkRun_keep _ _ _ _ (fun _ _ _ => ?_) ?_ ?_
    | with_reducible apply State.rkIssue_keep
    | with_reducible apply State.rkAdvance_keep
    | with_reducible apply State.rkUpd_keep
    | with_reducible apply Keep.ite <;> intro _
    | with_reducible apply Keep.foldl <;> try intro _ _ _
    | with_reducible apply Keep.foldl_snd <;> try intro _ _ _
    | with_reducible refine Keep.of_snd ‹_ = (_, _)› ?_
    | with_reducible refine Keep.of_snd2 ‹_ = (_, _, _)› ?_
    | with_reducible apply Keep.of_id
    | split
    | dsimp only

theorem wrRkn_keep {m : Nat} {s0 : State} (a0 : _) (a1 : _) (a2 : _) (a3 : _) (s : State) (hm : subMask 393520 m = true) (h : Keep m s0 s) : Keep m s0 (wrRkn a0 a1 a2 a3 s) := by
  refine Keep.lift (f := 393520) ?_ hm h
  unfold wrRkn
  repeat' first
    | exact rfl
    | with_reducible exact Keep.refl _ _
    | with_reducible assumption
    | with_reducible apply State.set_keep
    | with_reducible apply State.rkStart_keep
    | with_reducible apply State.rkFault_keep
    | with_reducible apply storeWord_keep
    | with_reducible apply Keep.ite <;> intro _
    | with_reducible apply Keep.foldl <;> try intro _ _ _
    | with_reducible apply Keep.foldl_snd <;> try intro _ _ _
    | with_reducible refine Keep.of_snd ‹_ = (_, _)› ?_
    | with_reducible refine Keep.of_snd2 ‹_ = (_, _, _)› ?_
    | with_reducible apply Keep.of_id
    | split
    | dsimp only

theorem rdRkn_keep {m : Nat} {s0 : State} (a0 : _) (a1 : _) (a2 : _) (s : State) (hm : subMask 304 m = true) (h : Keep m s0 s) : Keep m s0 (rdRkn a0 a1 a2 s).2 := by
  refine Keep.lift (f := 304) ?_ hm h
  unfold rdRkn
  repeat' first
    | exact rfl
    | with_reducible exact Keep.refl _ _
    | with_reducible assumption
    | with_reducible apply loadWord_keep
    | with_reducible apply Keep.ite <;> intro _
    | with_reducible apply Keep.foldl <;> try intro _ _ _
    | with_reducible apply Keep.foldl_snd <;> try intro _ _ _
    | with_reducible refine Keep.of_snd ‹_ = (_, _)› ?_
    | with_reducible refine Keep.of_snd2 ‹_ = (_, _, _)› ?_
    | with_reducible apply Keep.of_id
    | split
    | dsimp only

theorem execRknStart_keep (a0 : _) (a1 : _) (s : State) {t : State} (h : execRknStart a0 a1 s = .next t) : Keep 394034 s t := by
  unfold execRknStart at h
  injection h with h
  subst h
  repeat' first
    | exact rfl
    | with_reducible exact Keep.refl _ _
    | with_reducible assumption
    | with_reducible refine writeReg_keep _ _ _ _ _ _ _ (fun _ _ _ _ _ _ => ?_) ?_ ?_
    | with_reducible apply wrRkn_keep
    | with_reducible apply Keep.ite <;> intro _
    | with_reducible apply Keep.foldl <;> try intro _ _ _
    | with_reducible apply Keep.foldl_snd <;> try intro _ _ _
    | with_reducible refine Keep.of_snd ‹_ = (_, _)› ?_
    | with_reducible refine Keep.of_snd2 ‹_ = (_, _, _)› ?_
    | with_reducible apply Keep.of_id
    | split
    | dsimp only

theorem execRknStop_keep (a0 : _) (a1 : _) (s : State) {t : State} (h : execRknStop a0 a1 s = .next t) : Keep 394034 s t := by
  unfold execRknStop at h
  injection h with h
  subst h
  repeat' first
    | exact rfl
    | with_reducible exact Keep.refl _ _
    | with_reducible assumption
    | with_reducible refine writeReg_keep _ _ _ _ _ _ _ (fun _ _ _ _ _ _ => ?_) ?_ ?_
    | with_reducible apply wrRkn_keep
    | with_reducible apply Keep.ite <;> intro _
    | with_reducible apply Keep.foldl <;> try intro _ _ _
    | with_reducible apply Keep.foldl_snd <;> try intro _ _ _
    | with_reducible refine Keep.of_snd ‹_ = (_, _)› ?_
    | with_reducible refine Keep.of_snd2 ‹_ = (_, _, _)› ?_
    | with_reducible apply Keep.of_id
    | split
    | dsimp only

theorem execRknAcc_keep (a0 : _) (a1 : _) (a2 : _) (a3 : _) (a4 : _) (s : State) {t : State} (h : execRknAcc a0 a1 a2 a3 a4 s = .next t) : Keep 818 s t := by
  unfold execRknAcc at h
  injection h with h
  subst h
  repeat' first
    | exact rfl
    | with_reducible exact Keep.refl _ _
    | with_reducible assumption
    | with_reducible refine readReg_keep _ _ _ _ _ _ (fun _ _ _ _ _ => ?_) ?_ ?_
    | with_reducible apply rdRkn_keep
    | with_reducible apply Keep.ite <;> intro _
    | with_reducible apply Keep.foldl <;> try intro _ _ _
    | with_reducible apply Keep.foldl_snd <;> try intro _ _ _
    | with_reducible refine Keep.of_snd ‹_ = (_, _)› ?_
    | with_reducible refine Keep.of_snd2 ‹_ = (_, _, _)› ?_
    | with_reducible apply Keep.of_id
    | split
    | dsimp only

theorem execReckonerDispatch_keep (a0 : _) (s : State) {t : State} (h : execReckonerDispatch a0 s = .next t) : Keep 393520 s t := by
  unfold execReckonerDispatch at h
  injection h with h
  subst h
  repeat' first
    | exact rfl
    | with_reducible exact Keep.refl _ _
    | with_reducible assumption
    | with_reducible apply State.rkSetS_keep
    | with_reducible apply State.takeBead_keep
    | with_reducible apply State.rkStart_keep
    | with_reducible apply State.set_keep
    | with_reducible apply Keep.ite <;> intro _
    | with_reducible apply Keep.foldl <;> try intro _ _ _
    | with_reducible apply Keep.foldl_snd <;> try intro _ _ _
    | with_reducible refine Keep.of_snd ‹_ = (_, _)› ?_
    | with_reducible refine Keep.of_snd2 ‹_ = (_, _, _)› ?_
    | with_reducible apply Keep.of_id
    | split
    | dsimp only

end Sys2Proof.Machine
end

