-- ==== Sys2Proof/Laws/KeepTmg.lean ====
section
/-! SUPPORT. What each operation of Machine/Tmg.lean leaves alone. -/

set_option Elab.async false

namespace Sys2Proof.Machine

theorem State.drr_keep {m : Nat} {s0 : State} (s : State) (a1 : _) (a2 : _) (a3 : _) (hm : subMask 67108864 m = true) (h : Keep m s0 s) : Keep m s0 (State.drr s a1 a2 a3).2 := by
  refine Keep.lift (f := 67108864) ?_ hm h
  unfold State.drr
  repeat' first
    | exact rfl
    | with_reducible exact Keep.refl _ _
    | with_reducible assumption
    | with_reducible apply State.tmUpd_keep
    | with_reducible apply Keep.ite <;> intro _
    | with_reducible apply Keep.foldl <;> try intro _ _ _
    | with_reducible apply Keep.foldl_snd <;> try intro _ _ _
    | with_reducible refine Keep.of_snd ‹_ = (_, _)› ?_
    | with_reducible refine Keep.of_snd2 ‹_ = (_, _, _)› ?_
    | with_reducible apply Keep.of_id
    | split
    | dsimp only

theorem State.rr_keep {m : Nat} {s0 : State} (s : State) (a1 : _) (a2 : _) (a3 : _) (hm : subMask 67108864 m = true) (h : Keep m s0 s) : Keep m s0 (State.rr s a1 a2 a3).2 := by
  refine Keep.lift (f := 67108864) ?_ hm h
  unfold State.rr
  repeat' first
    | exact rfl
    | with_reducible exact Keep.refl _ _
    | with_reducible assumption
    | with_reducible apply State.tmUpd_keep
    | with_reducible apply Keep.ite <;> intro _
    | with_reducible apply Keep.foldl <;> try intro _ _ _
    | with_reducible apply Keep.foldl_snd <;> try intro _ _ _
    | with_reducible refine Keep.of_snd ‹_ = (_, _)› ?_
    | with_reducible refine Keep.of_snd2 ‹_ = (_, _, _)› ?_
    | with_reducible apply Keep.of_id
    | split
    | dsimp only

theorem State.pickClass_keep {m : Nat} {s0 : State} (s : State) (a1 : _) (a2 : _) (hm : subMask 67108864 m = true) (h : Keep m s0 s) : Keep m s0 (State.pickClass s a1 a2).2 := by
  refine Keep.lift (f := 67108864) ?_ hm h
  unfold State.pickClass
  repeat' first
    | exact rfl
    | with_reducible exact Keep.refl _ _
    | with_reducible assumption
    | with_reducible apply State.drr_keep
    | with_reducible apply Keep.ite <;> intro _
    | with_reducible apply Keep.foldl <;> try intro _ _ _
    | with_reducible apply Keep.foldl_snd <;> try intro _ _ _
    | with_reducible refine Keep.of_snd ‹_ = (_, _)› ?_
    | with_reducible refine Keep.of_snd2 ‹_ = (_, _, _)› ?_
    | with_reducible apply Keep.of_id
    | split
    | dsimp only

theorem State.pickSub_keep {m : Nat} {s0 : State} (s : State) (a1 : _) (a2 : _) (hm : subMask 67108864 m = true) (h : Keep m s0 s) : Keep m s0 (State.pickSub s a1 a2).2 := by
  refine Keep.lift (f := 67108864) ?_ hm h
  unfold State.pickSub
  repeat' first
    | exact rfl
    | with_reducible exact Keep.refl _ _
    | with_reducible assumption
    | with_reducible apply State.pickClass_keep
    | with_reducible apply State.rr_keep
    | with_reducible apply State.drr_keep
    | with_reducible apply Keep.ite <;> intro _
    | with_reducible apply Keep.foldl <;> try intro _ _ _
    | with_reducible apply Keep.foldl_snd <;> try intro _ _ _
    | with_reducible refine Keep.of_snd ‹_ = (_, _)› ?_
    | with_reducible refine Keep.of_snd2 ‹_ = (_, _, _)› ?_
    | with_reducible apply Keep.of_id
    | split
    | dsimp only

theorem State.tmPick_keep {m : Nat} {s0 : State} (s : State) (a1 : _) (hm : subMask 67108864 m = true) (h : Keep m s0 s) : Keep m s0 (State.tmPick s a1).2 := by
  refine Keep.lift (f := 67108864) ?_ hm h
  unfold State.tmPick
  repeat' first
    | exact rfl
    | with_reducible exact Keep.refl _ _
    | with_reducible assumption
    | with_reducible apply State.pickSub_keep
    | with_reducible apply State.pickClass_keep
    | with_reducible apply State.drr_keep
    | with_reducible apply Keep.ite <;> intro _
    | with_reducible apply Keep.foldl <;> try intro _ _ _
    | with_reducible apply Keep.foldl_snd <;> try intro _ _ _
    | with_reducible refine Keep.of_snd ‹_ = (_, _)› ?_
    | with_reducible refine Keep.of_snd2 ‹_ = (_, _, _)› ?_
    | with_reducible apply Keep.of_id
    | split
    | dsimp only

theorem State.tmTake_keep {m : Nat} {s0 : State} (s : State) (a1 : _) (hm : subMask 67108864 m = true) (h : Keep m s0 s) : Keep m s0 (State.tmTake s a1) := by
  refine Keep.lift (f := 67108864) ?_ hm h
  unfold State.tmTake
  repeat' first
    | exact rfl
    | with_reducible exact Keep.refl _ _
    | with_reducible assumption
    | with_reducible apply State.tmUpd_keep
    | with_reducible apply State.svcSync_keep
    | with_reducible apply Keep.ite <;> intro _
    | with_reducible apply Keep.foldl <;> try intro _ _ _
    | with_reducible apply Keep.foldl_snd <;> try intro _ _ _
    | with_reducible refine Keep.of_snd ‹_ = (_, _)› ?_
    | with_reducible refine Keep.of_snd2 ‹_ = (_, _, _)› ?_
    | with_reducible apply Keep.of_id
    | split
    | dsimp only

theorem State.tmCharge_keep {m : Nat} {s0 : State} (s : State) (a1 : _) (hm : subMask 67108864 m = true) (h : Keep m s0 s) : Keep m s0 (State.tmCharge s a1) := by
  refine Keep.lift (f := 67108864) ?_ hm h
  unfold State.tmCharge
  repeat' first
    | exact rfl
    | with_reducible exact Keep.refl _ _
    | with_reducible assumption
    | with_reducible apply State.setBkt_keep
    | with_reducible apply State.tmUpd_keep
    | with_reducible apply Keep.ite <;> intro _
    | with_reducible apply Keep.foldl <;> try intro _ _ _
    | with_reducible apply Keep.foldl_snd <;> try intro _ _ _
    | with_reducible refine Keep.of_snd ‹_ = (_, _)› ?_
    | with_reducible refine Keep.of_snd2 ‹_ = (_, _, _)› ?_
    | with_reducible apply Keep.of_id
    | split
    | dsimp only

theorem State.tmOversize_keep {m : Nat} {s0 : State} (a0 : _) (a1 : _) (s : State) (hm : subMask 67174704 m = true) (h : Keep m s0 s) : Keep m s0 (State.tmOversize a0 a1 s) := by
  induction a0 generalizing s with
  | zero => unfold State.tmOversize; exact h
  | succ n ih =>
    unfold State.tmOversize
    repeat' first
      | exact rfl
      | exact subMask_trans rfl hm
      | with_reducible apply ih
      | with_reducible exact Keep.refl _ _
      | with_reducible assumption
      | with_reducible apply State.inc_keep
      | with_reducible apply State.bufFree_keep
      | with_reducible apply State.tmTake_keep
      | with_reducible apply State.tmUpd_keep
      | with_reducible apply State.raise_keep
      | with_reducible apply State.tmHigh_keep
      | with_reducible apply State.svcSee_keep
      | with_reducible apply Keep.ite <;> intro _
      | with_reducible apply Keep.foldl <;> try intro _ _ _
      | with_reducible apply Keep.foldl_snd <;> try intro _ _ _
      | with_reducible refine Keep.of_snd ‹_ = (_, _)› ?_
      | with_reducible refine Keep.of_snd2 ‹_ = (_, _, _)› ?_
      | with_reducible apply Keep.of_id
      | split
      | dsimp only

theorem State.ptpOut_keep {m : Nat} {s0 : State} (s : State) (a1 : _) (a2 : _) (hm : subMask 1328 m = true) (h : Keep m s0 s) : Keep m s0 (State.ptpOut s a1 a2).2 := by
  refine Keep.lift (f := 1328) ?_ hm h
  unfold State.ptpOut
  repeat' first
    | exact rfl
    | with_reducible exact Keep.refl _ _
    | with_reducible assumption
    | with_reducible apply State.txtsPush_keep
    | with_reducible apply Keep.ite <;> intro _
    | with_reducible apply Keep.foldl <;> try intro _ _ _
    | with_reducible apply Keep.foldl_snd <;> try intro _ _ _
    | with_reducible refine Keep.of_snd ‹_ = (_, _)› ?_
    | with_reducible refine Keep.of_snd2 ‹_ = (_, _, _)› ?_
    | with_reducible apply Keep.of_id
    | split
    | dsimp only

theorem State.msecOut_keep {m : Nat} {s0 : State} (s : State) (a1 : _) (a2 : _) (hm : subMask 33587504 m = true) (h : Keep m s0 s) : Keep m s0 (State.msecOut s a1 a2).2 := by
  refine Keep.lift (f := 33587504) ?_ hm h
  unfold State.msecOut
  repeat' first
    | exact rfl
    | with_reducible exact Keep.refl _ _
    | with_reducible assumption
    | with_reducible apply State.raise_keep
    | with_reducible apply State.inc_keep
    | with_reducible apply State.useKey_keep
    | with_reducible apply State.setFent_keep
    | with_reducible apply Keep.ite <;> intro _
    | with_reducible apply Keep.foldl <;> try intro _ _ _
    | with_reducible apply Keep.foldl_snd <;> try intro _ _ _
    | with_reducible refine Keep.of_snd ‹_ = (_, _)› ?_
    | with_reducible refine Keep.of_snd2 ‹_ = (_, _, _)› ?_
    | with_reducible apply Keep.of_id
    | split
    | dsimp only

theorem State.ethSend_keep {m : Nat} {s0 : State} (s : State) (a1 : _) (hm : subMask 33654064 m = true) (h : Keep m s0 s) : Keep m s0 (State.ethSend s a1) := by
  refine Keep.lift (f := 33654064) ?_ hm h
  unfold State.ethSend
  repeat' first
    | exact rfl
    | with_reducible exact Keep.refl _ _
    | with_reducible assumption
    | with_reducible apply State.ptpOut_keep
    | with_reducible apply State.msecOut_keep
    | with_reducible apply State.bufFree_keep
    | with_reducible apply State.emit_keep
    | with_reducible apply State.inc_keep
    | with_reducible apply Keep.ite <;> intro _
    | with_reducible apply Keep.foldl <;> try intro _ _ _
    | with_reducible apply Keep.foldl_snd <;> try intro _ _ _
    | with_reducible refine Keep.of_snd ‹_ = (_, _)› ?_
    | with_reducible refine Keep.of_snd2 ‹_ = (_, _, _)› ?_
    | with_reducible apply Keep.of_id
    | split
    | dsimp only

theorem State.tmSink_keep {m : Nat} {s0 : State} (s : State) (a1 : _) (hm : subMask 37848432 m = true) (h : Keep m s0 s) : Keep m s0 (State.tmSink s a1) := by
  refine Keep.lift (f := 37848432) ?_ hm h
  unfold State.tmSink
  repeat' first
    | exact rfl
    | with_reducible exact Keep.refl _ _
    | with_reducible assumption
    | with_reducible apply State.ethSend_keep
    | with_reducible apply State.ptpOut_keep
    | with_reducible apply State.bufFree_keep
    | with_reducible apply State.emit_keep
    | with_reducible apply State.wacMsdu_keep
    | with_reducible apply State.swReceive_keep
    | with_reducible apply Keep.ite <;> intro _
    | with_reducible apply Keep.foldl <;> try intro _ _ _
    | with_reducible apply Keep.foldl_snd <;> try intro _ _ _
    | with_reducible refine Keep.of_snd ‹_ = (_, _)› ?_
    | with_reducible refine Keep.of_snd2 ‹_ = (_, _, _)› ?_
    | with_reducible apply Keep.of_id
    | split
    | dsimp only

theorem State.tmStart_keep {m : Nat} {s0 : State} (s : State) (a1 : _) (hm : subMask 104957296 m = true) (h : Keep m s0 s) : Keep m s0 (State.tmStart s a1) := by
  refine Keep.lift (f := 104957296) ?_ hm h
  unfold State.tmStart
  repeat' first
    | exact rfl
    | with_reducible exact Keep.refl _ _
    | with_reducible assumption
    | with_reducible apply State.tmOversize_keep
    | with_reducible apply State.tmPick_keep
    | with_reducible apply State.tmSink_keep
    | with_reducible apply State.tmHigh_keep
    | with_reducible apply State.svcSee_keep
    | with_reducible apply State.tmTake_keep
    | with_reducible apply State.tmCharge_keep
    | with_reducible apply State.svcSync_keep
    | with_reducible apply Keep.ite <;> intro _
    | with_reducible apply Keep.foldl <;> try intro _ _ _
    | with_reducible apply Keep.foldl_snd <;> try intro _ _ _
    | with_reducible refine Keep.of_snd ‹_ = (_, _)› ?_
    | with_reducible refine Keep.of_snd2 ‹_ = (_, _, _)› ?_
    | with_reducible apply Keep.of_id
    | split
    | dsimp only

theorem execPacketStart_keep (a0 : _) (s : State) {t : State} (h : execPacketStart a0 s = .next t) : Keep 104957296 s t := by
  unfold execPacketStart at h
  injection h with h
  subst h
  repeat' first
    | exact rfl
    | with_reducible exact Keep.refl _ _
    | with_reducible assumption
    | with_reducible apply State.tmStart_keep
    | with_reducible apply Keep.ite <;> intro _
    | with_reducible apply Keep.foldl <;> try intro _ _ _
    | with_reducible apply Keep.foldl_snd <;> try intro _ _ _
    | with_reducible refine Keep.of_snd ‹_ = (_, _)› ?_
    | with_reducible refine Keep.of_snd2 ‹_ = (_, _, _)› ?_
    | with_reducible apply Keep.of_id
    | split
    | dsimp only

theorem execMsduDelivery_keep (s : State) {t : State} (h : execMsduDelivery s = .next t) : Keep 104957296 s t := by
  unfold execMsduDelivery at h
  injection h with h
  subst h
  repeat' first
    | exact rfl
    | with_reducible exact Keep.refl _ _
    | with_reducible assumption
    | with_reducible apply State.tmStart_keep
    | with_reducible apply Keep.ite <;> intro _
    | with_reducible apply Keep.foldl <;> try intro _ _ _
    | with_reducible apply Keep.foldl_snd <;> try intro _ _ _
    | with_reducible refine Keep.of_snd ‹_ = (_, _)› ?_
    | with_reducible refine Keep.of_snd2 ‹_ = (_, _, _)› ?_
    | with_reducible apply Keep.of_id
    | split
    | dsimp only

theorem execPauseEnd_keep (a0 : _) (s : State) {t : State} (h : execPauseEnd a0 s = .next t) : Keep 67108864 s t := by
  unfold execPauseEnd at h
  injection h with h
  subst h
  repeat' first
    | exact rfl
    | with_reducible exact Keep.refl _ _
    | with_reducible assumption
    | with_reducible apply State.tmUpd_keep
    | with_reducible apply Keep.ite <;> intro _
    | with_reducible apply Keep.foldl <;> try intro _ _ _
    | with_reducible apply Keep.foldl_snd <;> try intro _ _ _
    | with_reducible refine Keep.of_snd ‹_ = (_, _)› ?_
    | with_reducible refine Keep.of_snd2 ‹_ = (_, _, _)› ?_
    | with_reducible apply Keep.of_id
    | split
    | dsimp only

theorem State.gateChange_keep {m : Nat} {s0 : State} (s : State) (a1 : _) (hm : subMask 67108896 m = true) (h : Keep m s0 s) : Keep m s0 (State.gateChange s a1) := by
  refine Keep.lift (f := 67108896) ?_ hm h
  unfold State.gateChange
  repeat' first
    | exact rfl
    | with_reducible exact Keep.refl _ _
    | with_reducible assumption
    | with_reducible apply State.commit_keep
    | with_reducible apply State.tmUpd_keep
    | with_reducible apply Keep.ite <;> intro _
    | with_reducible apply Keep.foldl <;> try intro _ _ _
    | with_reducible apply Keep.foldl_snd <;> try intro _ _ _
    | with_reducible refine Keep.of_snd ‹_ = (_, _)› ?_
    | with_reducible refine Keep.of_snd2 ‹_ = (_, _, _)› ?_
    | with_reducible apply Keep.of_id
    | split
    | dsimp only

theorem State.gateCancel_keep {m : Nat} {s0 : State} (s : State) (a1 : _) (hm : subMask 67108864 m = true) (h : Keep m s0 s) : Keep m s0 (State.gateCancel s a1) := by
  refine Keep.lift (f := 67108864) ?_ hm h
  unfold State.gateCancel
  repeat' first
    | exact rfl
    | with_reducible exact Keep.refl _ _
    | with_reducible assumption
    | with_reducible apply State.tmUpd_keep
    | with_reducible apply Keep.ite <;> intro _
    | with_reducible apply Keep.foldl <;> try intro _ _ _
    | with_reducible apply Keep.foldl_snd <;> try intro _ _ _
    | with_reducible refine Keep.of_snd ‹_ = (_, _)› ?_
    | with_reducible refine Keep.of_snd2 ‹_ = (_, _, _)› ?_
    | with_reducible apply Keep.of_id
    | split
    | dsimp only

theorem State.gateSync_keep {m : Nat} {s0 : State} (s : State) (a1 : _) (hm : subMask 67108864 m = true) (h : Keep m s0 s) : Keep m s0 (State.gateSync s a1) := by
  refine Keep.lift (f := 67108864) ?_ hm h
  unfold State.gateSync
  repeat' first
    | exact rfl
    | with_reducible exact Keep.refl _ _
    | with_reducible assumption
    | with_reducible apply State.svcSee_keep
    | with_reducible apply State.svcSync_keep
    | with_reducible apply Keep.ite <;> intro _
    | with_reducible apply Keep.foldl <;> try intro _ _ _
    | with_reducible apply Keep.foldl_snd <;> try intro _ _ _
    | with_reducible refine Keep.of_snd ‹_ = (_, _)› ?_
    | with_reducible refine Keep.of_snd2 ‹_ = (_, _, _)› ?_
    | with_reducible apply Keep.of_id
    | split
    | dsimp only

theorem execGateChangeDue_keep (a0 : _) (s : State) {t : State} (h : execGateChangeDue a0 s = .next t) : Keep 67109168 s t := by
  unfold execGateChangeDue at h
  injection h with h
  subst h
  repeat' first
    | exact rfl
    | with_reducible exact Keep.refl _ _
    | with_reducible assumption
    | with_reducible apply State.raise_keep
    | with_reducible apply State.gateSync_keep
    | with_reducible apply State.set_keep
    | with_reducible apply State.tmUpd_keep
    | with_reducible apply Keep.ite <;> intro _
    | with_reducible apply Keep.foldl <;> try intro _ _ _
    | with_reducible apply Keep.foldl_snd <;> try intro _ _ _
    | with_reducible refine Keep.of_snd ‹_ = (_, _)› ?_
    | with_reducible refine Keep.of_snd2 ‹_ = (_, _, _)› ?_
    | with_reducible apply Keep.of_id
    | split
    | dsimp only

theorem execGateEntryEnd_keep (a0 : _) (s : State) {t : State} (h : execGateEntryEnd a0 s = .next t) : Keep 67108864 s t := by
  unfold execGateEntryEnd at h
  injection h with h
  subst h
  repeat' first
    | exact rfl
    | with_reducible exact Keep.refl _ _
    | with_reducible assumption
    | with_reducible apply State.gateSync_keep
    | with_reducible apply State.tmUpd_keep
    | with_reducible apply Keep.ite <;> intro _
    | with_reducible apply Keep.foldl <;> try intro _ _ _
    | with_reducible apply Keep.foldl_snd <;> try intro _ _ _
    | with_reducible refine Keep.of_snd ‹_ = (_, _)› ?_
    | with_reducible refine Keep.of_snd2 ‹_ = (_, _, _)› ?_
    | with_reducible apply Keep.of_id
    | split
    | dsimp only

theorem wrTmg_keep {m : Nat} {s0 : State} (a0 : _) (a1 : _) (a2 : _) (a3 : _) (s : State) (hm : subMask 67108896 m = true) (h : Keep m s0 s) : Keep m s0 (wrTmg a0 a1 a2 a3 s) := by
  refine Keep.lift (f := 67108896) ?_ hm h
  unfold wrTmg
  repeat' first
    | exact rfl
    | with_reducible exact Keep.refl _ _
    | with_reducible assumption
    | with_reducible apply State.tmOp_keep
    | with_reducible apply storeWord_keep
    | with_reducible apply State.setBkt_keep
    | with_reducible apply State.sets_keep
    | with_reducible apply State.gateChange_keep
    | with_reducible apply State.gateCancel_keep
    | with_reducible apply Keep.ite <;> intro _
    | with_reducible apply Keep.foldl <;> try intro _ _ _
    | with_reducible apply Keep.foldl_snd <;> try intro _ _ _
    | with_reducible refine Keep.of_snd ‹_ = (_, _)› ?_
    | with_reducible refine Keep.of_snd2 ‹_ = (_, _, _)› ?_
    | with_reducible apply Keep.of_id
    | split
    | dsimp only

theorem rdTmg_keep {m : Nat} {s0 : State} (a0 : _) (a1 : _) (a2 : _) (s : State) (hm : subMask 304 m = true) (h : Keep m s0 s) : Keep m s0 (rdTmg a0 a1 a2 s).2 := by
  refine Keep.lift (f := 304) ?_ hm h
  unfold rdTmg
  repeat' first
    | exact rfl
    | with_reducible exact Keep.refl _ _
    | with_reducible assumption
    | with_reducible apply readEffect_keep
    | with_reducible apply loadWord_keep
    | with_reducible apply Keep.ite <;> intro _
    | with_reducible apply Keep.foldl <;> try intro _ _ _
    | with_reducible apply Keep.foldl_snd <;> try intro _ _ _
    | with_reducible refine Keep.of_snd ‹_ = (_, _)› ?_
    | with_reducible refine Keep.of_snd2 ‹_ = (_, _, _)› ?_
    | with_reducible apply Keep.of_id
    | split
    | dsimp only

theorem execTmgTableLoad_keep (a0 : _) (s : State) {t : State} (h : execTmgTableLoad a0 s = .next t) : Keep 67109682 s t := by
  unfold execTmgTableLoad at h
  injection h with h
  subst h
  repeat' first
    | exact rfl
    | with_reducible exact Keep.refl _ _
    | with_reducible assumption
    | with_reducible refine writeReg_keep _ _ _ _ _ _ _ (fun _ _ _ _ _ _ => ?_) ?_ ?_
    | with_reducible apply wrTmg_keep
    | with_reducible apply Keep.ite <;> intro _
    | with_reducible apply Keep.foldl <;> try intro _ _ _
    | with_reducible apply Keep.foldl_snd <;> try intro _ _ _
    | with_reducible refine Keep.of_snd ‹_ = (_, _)› ?_
    | with_reducible refine Keep.of_snd2 ‹_ = (_, _, _)› ?_
    | with_reducible apply Keep.of_id
    | split
    | dsimp only

theorem execTmgTableWrite_keep (a0 : _) (s : State) {t : State} (h : execTmgTableWrite a0 s = .next t) : Keep 67109682 s t := by
  unfold execTmgTableWrite at h
  injection h with h
  subst h
  repeat' first
    | exact rfl
    | with_reducible exact Keep.refl _ _
    | with_reducible assumption
    | with_reducible refine writeReg_keep _ _ _ _ _ _ _ (fun _ _ _ _ _ _ => ?_) ?_ ?_
    | with_reducible apply wrTmg_keep
    | with_reducible apply Keep.ite <;> intro _
    | with_reducible apply Keep.foldl <;> try intro _ _ _
    | with_reducible apply Keep.foldl_snd <;> try intro _ _ _
    | with_reducible refine Keep.of_snd ‹_ = (_, _)› ?_
    | with_reducible refine Keep.of_snd2 ‹_ = (_, _, _)› ?_
    | with_reducible apply Keep.of_id
    | split
    | dsimp only

theorem execTmgTableClear_keep (a0 : _) (s : State) {t : State} (h : execTmgTableClear a0 s = .next t) : Keep 67109682 s t := by
  unfold execTmgTableClear at h
  injection h with h
  subst h
  repeat' first
    | exact rfl
    | with_reducible exact Keep.refl _ _
    | with_reducible assumption
    | with_reducible refine writeReg_keep _ _ _ _ _ _ _ (fun _ _ _ _ _ _ => ?_) ?_ ?_
    | with_reducible apply wrTmg_keep
    | with_reducible apply Keep.ite <;> intro _
    | with_reducible apply Keep.foldl <;> try intro _ _ _
    | with_reducible apply Keep.foldl_snd <;> try intro _ _ _
    | with_reducible refine Keep.of_snd ‹_ = (_, _)› ?_
    | with_reducible refine Keep.of_snd2 ‹_ = (_, _, _)› ?_
    | with_reducible apply Keep.of_id
    | split
    | dsimp only

theorem execGateChangeOp_keep (a0 : _) (a1 : _) (a2 : _) (a3 : _) (s : State) {t : State} (h : execGateChangeOp a0 a1 a2 a3 s = .next t) : Keep 67109682 s t := by
  unfold execGateChangeOp at h
  injection h with h
  subst h
  repeat' first
    | exact rfl
    | with_reducible exact Keep.refl _ _
    | with_reducible assumption
    | with_reducible refine writeReg_keep _ _ _ _ _ _ _ (fun _ _ _ _ _ _ => ?_) ?_ ?_
    | with_reducible apply wrTmg_keep
    | with_reducible apply Keep.ite <;> intro _
    | with_reducible apply Keep.foldl <;> try intro _ _ _
    | with_reducible apply Keep.foldl_snd <;> try intro _ _ _
    | with_reducible refine Keep.of_snd ‹_ = (_, _)› ?_
    | with_reducible refine Keep.of_snd2 ‹_ = (_, _, _)› ?_
    | with_reducible apply Keep.of_id
    | split
    | dsimp only

theorem execGateCancelOp_keep (a0 : _) (a1 : _) (a2 : _) (a3 : _) (s : State) {t : State} (h : execGateCancelOp a0 a1 a2 a3 s = .next t) : Keep 67109682 s t := by
  unfold execGateCancelOp at h
  injection h with h
  subst h
  repeat' first
    | exact rfl
    | with_reducible exact Keep.refl _ _
    | with_reducible assumption
    | with_reducible refine writeReg_keep _ _ _ _ _ _ _ (fun _ _ _ _ _ _ => ?_) ?_ ?_
    | with_reducible apply wrTmg_keep
    | with_reducible apply Keep.ite <;> intro _
    | with_reducible apply Keep.foldl <;> try intro _ _ _
    | with_reducible apply Keep.foldl_snd <;> try intro _ _ _
    | with_reducible refine Keep.of_snd ‹_ = (_, _)› ?_
    | with_reducible refine Keep.of_snd2 ‹_ = (_, _, _)› ?_
    | with_reducible apply Keep.of_id
    | split
    | dsimp only

theorem State.tmDiscard_keep {m : Nat} {s0 : State} (s : State) (a1 : _) (hm : subMask 67174400 m = true) (h : Keep m s0 s) : Keep m s0 (State.tmDiscard s a1).1 := by
  refine Keep.lift (f := 67174400) ?_ hm h
  unfold State.tmDiscard
  repeat' first
    | exact rfl
    | with_reducible exact Keep.refl _ _
    | with_reducible assumption
    | with_reducible apply State.svcSee_keep
    | with_reducible apply State.bufFree_keep
    | with_reducible apply State.tmTake_keep
    | with_reducible apply Keep.ite <;> intro _
    | with_reducible apply Keep.foldl <;> try intro _ _ _
    | with_reducible apply Keep.foldl_snd <;> try intro _ _ _
    | with_reducible refine Keep.of_snd ‹_ = (_, _)› ?_
    | with_reducible refine Keep.of_snd2 ‹_ = (_, _, _)› ?_
    | with_reducible apply Keep.of_id
    | split
    | dsimp only

theorem State.tmLinkDown_keep {m : Nat} {s0 : State} (s : State) (a1 : _) (hm : subMask 67174704 m = true) (h : Keep m s0 s) : Keep m s0 (State.tmLinkDown s a1) := by
  refine Keep.lift (f := 67174704) ?_ hm h
  unfold State.tmLinkDown
  repeat' first
    | exact rfl
    | with_reducible exact Keep.refl _ _
    | with_reducible assumption
    | with_reducible apply State.tmDiscard_keep
    | with_reducible apply State.tmHigh_keep
    | with_reducible apply State.raise_keep
    | with_reducible apply State.incBy_keep
    | with_reducible apply Keep.ite <;> intro _
    | with_reducible apply Keep.foldl <;> try intro _ _ _
    | with_reducible apply Keep.foldl_snd <;> try intro _ _ _
    | with_reducible refine Keep.of_snd ‹_ = (_, _)› ?_
    | with_reducible refine Keep.of_snd2 ‹_ = (_, _, _)› ?_
    | with_reducible apply Keep.of_id
    | split
    | dsimp only

theorem State.tmFlush_keep {m : Nat} {s0 : State} (s : State) (hm : subMask 67174432 m = true) (h : Keep m s0 s) : Keep m s0 (State.tmFlush s) := by
  refine Keep.lift (f := 67174432) ?_ hm h
  unfold State.tmFlush
  repeat' first
    | exact rfl
    | with_reducible exact Keep.refl _ _
    | with_reducible assumption
    | with_reducible apply State.tmDiscard_keep
    | with_reducible apply State.incBy_keep
    | with_reducible apply Keep.ite <;> intro _
    | with_reducible apply Keep.foldl <;> try intro _ _ _
    | with_reducible apply Keep.foldl_snd <;> try intro _ _ _
    | with_reducible refine Keep.of_snd ‹_ = (_, _)› ?_
    | with_reducible refine Keep.of_snd2 ‹_ = (_, _, _)› ?_
    | with_reducible apply Keep.of_id
    | split
    | dsimp only

theorem State.tmLost_keep {m : Nat} {s0 : State} (s : State) (hm : subMask 67108864 m = true) (h : Keep m s0 s) : Keep m s0 (State.tmLost s) := by
  refine Keep.lift (f := 67108864) ?_ hm h
  unfold State.tmLost
  repeat' first
    | exact rfl
    | with_reducible exact Keep.refl _ _
    | with_reducible assumption
    | with_reducible apply Keep.ite <;> intro _
    | with_reducible apply Keep.foldl <;> try intro _ _ _
    | with_reducible apply Keep.foldl_snd <;> try intro _ _ _
    | (rewrite [State.mk_eq_updOf]; (with_reducible refine Keep.node 67108864 ?_ ?_ ?_); · refine Keep.upd 67108864 ?_ ?_ ?_ ?_ ?_ (fun p hp => ?_); exact rfl; exact rfl; exact rfl; exact rfl; exact rfl; cases p <;> first | exact absurd hp (by decide) | exact rfl)
    | with_reducible refine Keep.of_snd ‹_ = (_, _)› ?_
    | with_reducible refine Keep.of_snd2 ‹_ = (_, _, _)› ?_
    | with_reducible apply Keep.of_id
    | split
    | dsimp only

theorem State.tmWake_keep {m : Nat} {s0 : State} (s : State) (hm : subMask 67108864 m = true) (h : Keep m s0 s) : Keep m s0 (State.tmWake s) := by
  refine Keep.lift (f := 67108864) ?_ hm h
  unfold State.tmWake
  repeat' first
    | exact rfl
    | with_reducible exact Keep.refl _ _
    | with_reducible assumption
    | with_reducible apply State.bktFill_keep
    | with_reducible apply State.tmUpd_keep
    | with_reducible apply Keep.ite <;> intro _
    | with_reducible apply Keep.foldl <;> try intro _ _ _
    | with_reducible apply Keep.foldl_snd <;> try intro _ _ _
    | with_reducible refine Keep.of_snd ‹_ = (_, _)› ?_
    | with_reducible refine Keep.of_snd2 ‹_ = (_, _, _)› ?_
    | with_reducible apply Keep.of_id
    | split
    | dsimp only

end Sys2Proof.Machine
end

