-- ==== Sys2Proof/Laws/KeepBring.lean ====
section
/-! SUPPORT. What each operation of Machine/Bring.lean leaves alone. -/

set_option Elab.async false

namespace Sys2Proof.Machine

theorem State.setMode_keep {m : Nat} {s0 : State} (s : State) (a1 : _) (hm : subMask 3162928 m = true) (h : Keep m s0 s) : Keep m s0 (State.setMode s a1) := by
  refine Keep.lift (f := 3162928) ?_ hm h
  unfold State.setMode
  repeat' first
    | exact rfl
    | with_reducible exact Keep.refl _ _
    | with_reducible assumption
    | with_reducible apply State.dfsSave_keep
    | with_reducible apply State.dutyWake_keep
    | with_reducible apply State.raise_keep
    | with_reducible apply State.ashMode_keep
    | with_reducible apply State.set_keep
    | with_reducible apply Keep.ite <;> intro _
    | with_reducible apply Keep.foldl <;> try intro _ _ _
    | with_reducible apply Keep.foldl_snd <;> try intro _ _ _
    | (rewrite [State.mk_eq_updOf]; (with_reducible refine Keep.node 16384 ?_ ?_ ?_); · refine Keep.upd 16384 ?_ ?_ ?_ ?_ ?_ (fun p hp => ?_); exact rfl; exact rfl; exact rfl; exact rfl; exact rfl; cases p <;> first | exact absurd hp (by decide) | exact rfl)
    | with_reducible refine Keep.of_snd ‹_ = (_, _)› ?_
    | with_reducible refine Keep.of_snd2 ‹_ = (_, _, _)› ?_
    | with_reducible apply Keep.of_id
    | split
    | dsimp only

theorem State.railOn_keep {m : Nat} {s0 : State} (s : State) (a1 : _) (hm : subMask 33 m = true) (h : Keep m s0 s) : Keep m s0 (State.railOn s a1) := by
  refine Keep.lift (f := 33) ?_ hm h
  unfold State.railOn
  repeat' first
    | exact rfl
    | with_reducible exact Keep.refl _ _
    | with_reducible assumption
    | with_reducible apply State.sets_keep
    | with_reducible apply Keep.ite <;> intro _
    | with_reducible apply Keep.foldl <;> try intro _ _ _
    | with_reducible apply Keep.foldl_snd <;> try intro _ _ _
    | (rewrite [State.mk_eq_updOf]; (with_reducible refine Keep.node 1 ?_ ?_ ?_); · refine Keep.upd 1 ?_ ?_ ?_ ?_ ?_ (fun p hp => ?_); exact rfl; exact rfl; exact rfl; exact rfl; exact rfl; cases p <;> first | exact absurd hp (by decide) | exact rfl)
    | with_reducible refine Keep.of_snd ‹_ = (_, _)› ?_
    | with_reducible refine Keep.of_snd2 ‹_ = (_, _, _)› ?_
    | with_reducible apply Keep.of_id
    | split
    | dsimp only

theorem State.railsOn_keep {m : Nat} {s0 : State} (s : State) (a1 : _) (hm : subMask 33 m = true) (h : Keep m s0 s) : Keep m s0 (State.railsOn s a1) := by
  refine Keep.lift (f := 33) ?_ hm h
  unfold State.railsOn
  repeat' first
    | exact rfl
    | with_reducible exact Keep.refl _ _
    | with_reducible assumption
    | with_reducible apply State.railOn_keep
    | with_reducible apply Keep.ite <;> intro _
    | with_reducible apply Keep.foldl <;> try intro _ _ _
    | with_reducible apply Keep.foldl_snd <;> try intro _ _ _
    | with_reducible refine Keep.of_snd ‹_ = (_, _)› ?_
    | with_reducible refine Keep.of_snd2 ‹_ = (_, _, _)› ?_
    | with_reducible apply Keep.of_id
    | split
    | dsimp only

theorem State.railOff_keep {m : Nat} {s0 : State} (s : State) (a1 : _) (hm : subMask 32 m = true) (h : Keep m s0 s) : Keep m s0 (State.railOff s a1) := by
  refine Keep.lift (f := 32) ?_ hm h
  unfold State.railOff
  repeat' first
    | exact rfl
    | with_reducible exact Keep.refl _ _
    | with_reducible assumption
    | with_reducible apply State.sets_keep
    | with_reducible apply Keep.ite <;> intro _
    | with_reducible apply Keep.foldl <;> try intro _ _ _
    | with_reducible apply Keep.foldl_snd <;> try intro _ _ _
    | with_reducible refine Keep.of_snd ‹_ = (_, _)› ?_
    | with_reducible refine Keep.of_snd2 ‹_ = (_, _, _)› ?_
    | with_reducible apply Keep.of_id
    | split
    | dsimp only

theorem State.railsOff_keep {m : Nat} {s0 : State} (s : State) (a1 : _) (hm : subMask 32 m = true) (h : Keep m s0 s) : Keep m s0 (State.railsOff s a1) := by
  refine Keep.lift (f := 32) ?_ hm h
  unfold State.railsOff
  repeat' first
    | exact rfl
    | with_reducible exact Keep.refl _ _
    | with_reducible assumption
    | with_reducible apply State.railOff_keep
    | with_reducible apply Keep.ite <;> intro _
    | with_reducible apply Keep.foldl <;> try intro _ _ _
    | with_reducible apply Keep.foldl_snd <;> try intro _ _ _
    | with_reducible refine Keep.of_snd ‹_ = (_, _)› ?_
    | with_reducible refine Keep.of_snd2 ‹_ = (_, _, _)› ?_
    | with_reducible apply Keep.of_id
    | split
    | dsimp only

theorem State.unitsLost_keep {m : Nat} {s0 : State} (s : State) (a1 : _) (hm : subMask 133529664 m = true) (h : Keep m s0 s) : Keep m s0 (State.unitsLost s a1) := by
  refine Keep.lift (f := 133529664) ?_ hm h
  unfold State.unitsLost
  repeat' first
    | exact rfl
    | with_reducible exact Keep.refl _ _
    | with_reducible assumption
    | with_reducible apply State.quadUpd_keep
    | with_reducible apply State.txaLost_keep
    | with_reducible apply State.memZero_keep
    | with_reducible apply State.radUpd_keep
    | with_reducible apply State.cipLost_keep
    | with_reducible apply State.tmLost_keep
    | with_reducible apply State.pkLost_keep
    | with_reducible apply Keep.ite <;> intro _
    | with_reducible apply Keep.foldl <;> try intro _ _ _
    | with_reducible apply Keep.foldl_snd <;> try intro _ _ _
    | (rewrite [State.mk_eq_updOf]; (with_reducible refine Keep.node 15007744 ?_ ?_ ?_); · refine Keep.upd 15007744 ?_ ?_ ?_ ?_ ?_ (fun p hp => ?_); exact rfl; exact rfl; exact rfl; exact rfl; exact rfl; cases p <;> first | exact absurd hp (by decide) | exact rfl)
    | with_reducible refine Keep.of_snd ‹_ = (_, _)› ?_
    | with_reducible refine Keep.of_snd2 ‹_ = (_, _, _)› ?_
    | with_reducible apply Keep.of_id
    | split
    | dsimp only

theorem State.regionDown_keep {m : Nat} {s0 : State} (s : State) (a1 : _) (hm : subMask 133550188 m = true) (h : Keep m s0 s) : Keep m s0 (State.regionDown s a1) := by
  refine Keep.lift (f := 133550188) ?_ hm h
  unfold State.regionDown
  repeat' first
    | exact rfl
    | with_reducible exact Keep.refl _ _
    | with_reducible assumption
    | with_reducible apply State.railsOff_keep
    | with_reducible apply State.resetRegs_keep
    | with_reducible apply State.unitsLost_keep
    | with_reducible apply State.memZero_keep
    | with_reducible apply Keep.ite <;> intro _
    | with_reducible apply Keep.foldl <;> try intro _ _ _
    | with_reducible apply Keep.foldl_snd <;> try intro _ _ _
    | (rewrite [State.mk_eq_updOf]; (with_reducible refine Keep.node 20492 ?_ ?_ ?_); · refine Keep.upd 20492 ?_ ?_ ?_ ?_ ?_ (fun p hp => ?_); exact rfl; exact rfl; exact rfl; exact rfl; exact rfl; cases p <;> first | exact absurd hp (by decide) | exact rfl)
    | with_reducible refine Keep.of_snd ‹_ = (_, _)› ?_
    | with_reducible refine Keep.of_snd2 ‹_ = (_, _, _)› ?_
    | with_reducible apply Keep.of_id
    | split
    | dsimp only

theorem State.pushCut_keep {m : Nat} {s0 : State} (s : State) (hm : subMask 8496 m = true) (h : Keep m s0 s) : Keep m s0 (State.pushCut s) := by
  refine Keep.lift (f := 8496) ?_ hm h
  unfold State.pushCut
  repeat' first
    | exact rfl
    | with_reducible exact Keep.refl _ _
    | with_reducible assumption
    | with_reducible apply State.pushEnd_keep
    | with_reducible apply Keep.ite <;> intro _
    | with_reducible apply Keep.foldl <;> try intro _ _ _
    | with_reducible apply Keep.foldl_snd <;> try intro _ _ _
    | with_reducible refine Keep.of_snd ‹_ = (_, _)› ?_
    | with_reducible refine Keep.of_snd2 ‹_ = (_, _, _)› ?_
    | with_reducible apply Keep.of_id
    | split
    | dsimp only

theorem State.dieOff_keep {m : Nat} {s0 : State} (s : State) (hm : subMask 134217084 m = true) (h : Keep m s0 s) : Keep m s0 (State.dieOff s) := by
  refine Keep.lift (f := 134217084) ?_ hm h
  unfold State.dieOff
  extract_lets s1 _ _ _ _ _ _ s2
  have h1 : Keep 134217084 s s1 := by
    repeat' first
      | exact rfl
      | with_reducible exact Keep.refl _ _
      | with_reducible assumption
      | with_reducible apply State.regionDown_keep
      | with_reducible apply State.pushCut_keep
      | with_reducible apply State.hkaSkip_keep
      | with_reducible apply State.radUpd_keep
      | with_reducible apply Keep.ite <;> intro _
      | with_reducible apply Keep.foldl <;> try intro _ _ _
      | with_reducible apply Keep.foldl_snd <;> try intro _ _ _
      | (rewrite [State.mk_eq_updOf]; (with_reducible refine Keep.node 785740 ?_ ?_ ?_); · refine Keep.upd 785740 ?_ ?_ ?_ ?_ ?_ (fun p hp => ?_); exact rfl; exact rfl; exact rfl; exact rfl; exact rfl; cases p <;> first | exact absurd hp (by decide) | exact rfl)
      | with_reducible refine Keep.of_snd ‹_ = (_, _)› ?_
      | with_reducible refine Keep.of_snd2 ‹_ = (_, _, _)› ?_
      | with_reducible apply Keep.of_id
      | split
      | dsimp only
  clear_value s1
  have h2 : Keep 134217084 s s2 := Keep.lift (f := 134217084) (s := s1) (t := s2) ⟨rfl, rfl, canonical_mem rfl (fun _ => rfl) rfl, fun p hp => by cases p <;> first | exact absurd hp (by decide) | exact rfl⟩ rfl h1
  clear_value s2
  repeat' first
    | exact rfl
    | with_reducible exact Keep.refl _ _
    | with_reducible assumption
    | with_reducible apply State.regionDown_keep
    | with_reducible apply State.pushCut_keep
    | with_reducible apply State.hkaSkip_keep
    | with_reducible apply State.radUpd_keep
    | with_reducible apply Keep.ite <;> intro _
    | with_reducible apply Keep.foldl <;> try intro _ _ _
    | with_reducible apply Keep.foldl_snd <;> try intro _ _ _
    | (rewrite [State.mk_eq_updOf]; (with_reducible refine Keep.node 785740 ?_ ?_ ?_); · refine Keep.upd 785740 ?_ ?_ ?_ ?_ ?_ (fun p hp => ?_); exact rfl; exact rfl; exact rfl; exact rfl; exact rfl; cases p <;> first | exact absurd hp (by decide) | exact rfl)
    | with_reducible refine Keep.of_snd ‹_ = (_, _)› ?_
    | with_reducible refine Keep.of_snd2 ‹_ = (_, _, _)› ?_
    | with_reducible apply Keep.of_id
    | split
    | dsimp only

theorem State.sleepEnd_keep {m : Nat} {s0 : State} (s : State) (a1 : _) (a2 : _) (a3 : _) (a4 : _) (hm : subMask 16688 m = true) (h : Keep m s0 s) : Keep m s0 (State.sleepEnd s a1 a2 a3 a4) := by
  refine Keep.lift (f := 16688) ?_ hm h
  unfold State.sleepEnd
  repeat' first
    | exact rfl
    | with_reducible exact Keep.refl _ _
    | with_reducible assumption
    | with_reducible apply State.sets_keep
    | with_reducible apply State.raise_keep
    | with_reducible apply State.commit_keep
    | with_reducible apply Keep.ite <;> intro _
    | with_reducible apply Keep.foldl <;> try intro _ _ _
    | with_reducible apply Keep.foldl_snd <;> try intro _ _ _
    | (rewrite [State.mk_eq_updOf]; (with_reducible refine Keep.node 16384 ?_ ?_ ?_); · refine Keep.upd 16384 ?_ ?_ ?_ ?_ ?_ (fun p hp => ?_); exact rfl; exact rfl; exact rfl; exact rfl; exact rfl; cases p <;> first | exact absurd hp (by decide) | exact rfl)
    | with_reducible refine Keep.of_snd ‹_ = (_, _)› ?_
    | with_reducible refine Keep.of_snd2 ‹_ = (_, _, _)› ?_
    | with_reducible apply Keep.of_id
    | split
    | dsimp only

theorem State.sleepPreempt_keep {m : Nat} {s0 : State} (s : State) (a1 : _) (hm : subMask 16688 m = true) (h : Keep m s0 s) : Keep m s0 (State.sleepPreempt s a1) := by
  refine Keep.lift (f := 16688) ?_ hm h
  unfold State.sleepPreempt
  repeat' first
    | exact rfl
    | with_reducible exact Keep.refl _ _
    | with_reducible assumption
    | with_reducible apply State.sleepEnd_keep
    | with_reducible apply Keep.ite <;> intro _
    | with_reducible apply Keep.foldl <;> try intro _ _ _
    | with_reducible apply Keep.foldl_snd <;> try intro _ _ _
    | with_reducible refine Keep.of_snd ‹_ = (_, _)› ?_
    | with_reducible refine Keep.of_snd2 ‹_ = (_, _, _)› ?_
    | with_reducible apply Keep.of_id
    | split
    | dsimp only

theorem State.ashBringup_keep {m : Nat} {s0 : State} (s : State) (a1 : _) (hm : subMask 784 m = true) (h : Keep m s0 s) : Keep m s0 (State.ashBringup s a1) := by
  refine Keep.lift (f := 784) ?_ hm h
  unfold State.ashBringup
  repeat' first
    | exact rfl
    | with_reducible exact Keep.refl _ _
    | with_reducible assumption
    | with_reducible apply State.ashAdd_keep
    | with_reducible apply Keep.ite <;> intro _
    | with_reducible apply Keep.foldl <;> try intro _ _ _
    | with_reducible apply Keep.foldl_snd <;> try intro _ _ _
    | with_reducible refine Keep.of_snd ‹_ = (_, _)› ?_
    | with_reducible refine Keep.of_snd2 ‹_ = (_, _, _)› ?_
    | with_reducible apply Keep.of_id
    | split
    | dsimp only

theorem State.bringup_keep {m : Nat} {s0 : State} (s : State) (a1 : _) (hm : subMask 3699504 m = true) (h : Keep m s0 s) : Keep m s0 (State.bringup s a1) := by
  refine Keep.lift (f := 3699504) ?_ hm h
  unfold State.bringup
  repeat' first
    | exact rfl
    | with_reducible exact Keep.refl _ _
    | with_reducible assumption
    | with_reducible apply State.sets_keep
    | with_reducible apply State.set_keep
    | with_reducible apply State.setReg_keep
    | with_reducible apply State.hkaBegin_keep
    | with_reducible apply State.alertForget_keep
    | with_reducible apply State.ashClose_keep
    | with_reducible apply State.setMode_keep
    | with_reducible apply Keep.ite <;> intro _
    | with_reducible apply Keep.foldl <;> try intro _ _ _
    | with_reducible apply Keep.foldl_snd <;> try intro _ _ _
    | (rewrite [State.mk_eq_updOf]; (with_reducible refine Keep.node 28672 ?_ ?_ ?_); · refine Keep.upd 28672 ?_ ?_ ?_ ?_ ?_ (fun p hp => ?_); exact rfl; exact rfl; exact rfl; exact rfl; exact rfl; cases p <;> first | exact absurd hp (by decide) | exact rfl)
    | with_reducible refine Keep.of_snd ‹_ = (_, _)› ?_
    | with_reducible refine Keep.of_snd2 ‹_ = (_, _, _)› ?_
    | with_reducible apply Keep.of_id
    | split
    | dsimp only

theorem State.slotShow_keep {m : Nat} {s0 : State} (s : State) (a1 : _) (a2 : _) (hm : subMask 32 m = true) (h : Keep m s0 s) : Keep m s0 (State.slotShow s a1 a2) := by
  refine Keep.lift (f := 32) ?_ hm h
  unfold State.slotShow
  repeat' first
    | exact rfl
    | with_reducible exact Keep.refl _ _
    | with_reducible assumption
    | with_reducible apply State.set_keep
    | with_reducible apply Keep.ite <;> intro _
    | with_reducible apply Keep.foldl <;> try intro _ _ _
    | with_reducible apply Keep.foldl_snd <;> try intro _ _ _
    | with_reducible refine Keep.of_snd ‹_ = (_, _)› ?_
    | with_reducible refine Keep.of_snd2 ‹_ = (_, _, _)› ?_
    | with_reducible apply Keep.of_id
    | split
    | dsimp only

theorem State.trySlot_keep {m : Nat} {s0 : State} (s : State) (a1 : _) (hm : subMask 4096 m = true) (h : Keep m s0 s) : Keep m s0 (State.trySlot s a1) := by
  refine Keep.lift (f := 4096) ?_ hm h
  unfold State.trySlot
  repeat' first
    | exact rfl
    | with_reducible exact Keep.refl _ _
    | with_reducible assumption
    | with_reducible apply Keep.ite <;> intro _
    | with_reducible apply Keep.foldl <;> try intro _ _ _
    | with_reducible apply Keep.foldl_snd <;> try intro _ _ _
    | (rewrite [State.mk_eq_updOf]; (with_reducible refine Keep.node 4096 ?_ ?_ ?_); · refine Keep.upd 4096 ?_ ?_ ?_ ?_ ?_ (fun p hp => ?_); exact rfl; exact rfl; exact rfl; exact rfl; exact rfl; cases p <;> first | exact absurd hp (by decide) | exact rfl)
    | with_reducible refine Keep.of_snd ‹_ = (_, _)› ?_
    | with_reducible refine Keep.of_snd2 ‹_ = (_, _, _)› ?_
    | with_reducible apply Keep.of_id
    | split
    | dsimp only

theorem State.unwind_keep {m : Nat} {s0 : State} (s : State) (hm : subMask 133683564 m = true) (h : Keep m s0 s) : Keep m s0 (State.unwind s) := by
  refine Keep.lift (f := 133683564) ?_ hm h
  unfold State.unwind
  extract_lets s1 s2
  have h1 : Keep 133683564 s s1 := by
    repeat' first
      | exact rfl
      | with_reducible exact Keep.refl _ _
      | with_reducible assumption
      | with_reducible apply State.regionDown_keep
      | with_reducible apply State.resetRegs_keep
      | with_reducible apply State.hkaSkip_keep
      | with_reducible apply State.radUpd_keep
      | with_reducible apply Keep.ite <;> intro _
      | with_reducible apply Keep.foldl <;> try intro _ _ _
      | with_reducible apply Keep.foldl_snd <;> try intro _ _ _
      | (rewrite [State.mk_eq_updOf]; (with_reducible refine Keep.node 137472 ?_ ?_ ?_); · refine Keep.upd 137472 ?_ ?_ ?_ ?_ ?_ (fun p hp => ?_); exact rfl; exact rfl; exact rfl; exact rfl; exact rfl; cases p <;> first | exact absurd hp (by decide) | exact rfl)
      | with_reducible refine Keep.of_snd ‹_ = (_, _)› ?_
      | with_reducible refine Keep.of_snd2 ‹_ = (_, _, _)› ?_
      | with_reducible apply Keep.of_id
      | split
      | dsimp only
  clear_value s1
  have h2 : Keep 133683564 s s2 := by
    repeat' first
      | exact rfl
      | with_reducible exact Keep.refl _ _
      | with_reducible assumption
      | with_reducible apply State.regionDown_keep
      | with_reducible apply State.resetRegs_keep
      | with_reducible apply State.hkaSkip_keep
      | with_reducible apply State.radUpd_keep
      | with_reducible apply Keep.ite <;> intro _
      | with_reducible apply Keep.foldl <;> try intro _ _ _
      | with_reducible apply Keep.foldl_snd <;> try intro _ _ _
      | (rewrite [State.mk_eq_updOf]; (with_reducible refine Keep.node 137472 ?_ ?_ ?_); · refine Keep.upd 137472 ?_ ?_ ?_ ?_ ?_ (fun p hp => ?_); exact rfl; exact rfl; exact rfl; exact rfl; exact rfl; cases p <;> first | exact absurd hp (by decide) | exact rfl)
      | with_reducible refine Keep.of_snd ‹_ = (_, _)› ?_
      | with_reducible refine Keep.of_snd2 ‹_ = (_, _, _)› ?_
      | with_reducible apply Keep.of_id
      | split
      | dsimp only
  clear_value s2
  refine State.hkaSkip_keep _ rfl (State.radUpd_keep _ _ rfl ?_)
  exact Keep.lift (f := 133683564) (s := s2) (t := _) ⟨rfl, rfl, canonical_regs id rfl rfl, fun p hp => by cases p <;> first | exact absurd hp (by decide) | exact rfl⟩ rfl h2

theorem State.raiseStop_keep {m : Nat} {s0 : State} (s : State) (hm : subMask 256 m = true) (h : Keep m s0 s) : Keep m s0 (State.raiseStop s) := by
  refine Keep.lift (f := 256) ?_ hm h
  unfold State.raiseStop
  repeat' first
    | exact rfl
    | with_reducible exact Keep.refl _ _
    | with_reducible assumption
    | with_reducible apply State.countEdge_keep
    | with_reducible apply Keep.ite <;> intro _
    | with_reducible apply Keep.foldl <;> try intro _ _ _
    | with_reducible apply Keep.foldl_snd <;> try intro _ _ _
    | with_reducible refine Keep.of_snd ‹_ = (_, _)› ?_
    | with_reducible refine Keep.of_snd2 ‹_ = (_, _, _)› ?_
    | with_reducible apply Keep.of_id
    | split
    | dsimp only

theorem State.bringStop_keep {m : Nat} {s0 : State} (s : State) (a1 : _) (hm : subMask 4912 m = true) (h : Keep m s0 s) : Keep m s0 (State.bringStop s a1) := by
  refine Keep.lift (f := 4912) ?_ hm h
  unfold State.bringStop
  repeat' first
    | exact rfl
    | with_reducible exact Keep.refl _ _
    | with_reducible assumption
    | with_reducible apply State.ashBringup_keep
    | with_reducible apply State.sets_keep
    | with_reducible apply State.raiseStop_keep
    | with_reducible apply Keep.ite <;> intro _
    | with_reducible apply Keep.foldl <;> try intro _ _ _
    | with_reducible apply Keep.foldl_snd <;> try intro _ _ _
    | (rewrite [State.mk_eq_updOf]; (with_reducible refine Keep.node 4096 ?_ ?_ ?_); · refine Keep.upd 4096 ?_ ?_ ?_ ?_ ?_ (fun p hp => ?_); exact rfl; exact rfl; exact rfl; exact rfl; exact rfl; cases p <;> first | exact absurd hp (by decide) | exact rfl)
    | with_reducible refine Keep.of_snd ‹_ = (_, _)› ?_
    | with_reducible refine Keep.of_snd2 ‹_ = (_, _, _)› ?_
    | with_reducible apply Keep.of_id
    | split
    | dsimp only

theorem State.bringFail_keep {m : Nat} {s0 : State} (s : State) (a1 : _) (hm : subMask 133692284 m = true) (h : Keep m s0 s) : Keep m s0 (State.bringFail s a1) := by
  refine Keep.lift (f := 133692284) ?_ hm h
  unfold State.bringFail
  repeat' first
    | exact rfl
    | with_reducible exact Keep.refl _ _
    | with_reducible assumption
    | with_reducible apply State.unwind_keep
    | with_reducible apply State.slotShow_keep
    | with_reducible apply State.trySlot_keep
    | with_reducible apply State.bringStop_keep
    | with_reducible apply State.pushEnd_keep
    | with_reducible apply Keep.ite <;> intro _
    | with_reducible apply Keep.foldl <;> try intro _ _ _
    | with_reducible apply Keep.foldl_snd <;> try intro _ _ _
    | with_reducible refine Keep.of_snd ‹_ = (_, _)› ?_
    | with_reducible refine Keep.of_snd2 ‹_ = (_, _, _)› ?_
    | with_reducible apply Keep.of_id
    | split
    | dsimp only

theorem State.dieRestart_keep {m : Nat} {s0 : State} (s : State) (a1 : _) (hm : subMask 134217597 m = true) (h : Keep m s0 s) : Keep m s0 (State.dieRestart s a1) := by
  refine Keep.lift (f := 134217597) ?_ hm h
  unfold State.dieRestart
  refine Keep.ite (fun _ => Keep.refl _ _) (fun _ => ?_)
  refine Keep.ite (fun _ => ?_) (fun _ => ?_)
  · refine Keep.ite (fun _ => State.ashBringup_keep _ _ rfl ?_) (fun _ => Keep.refl _ _)
    (rewrite [State.mk_eq_updOf]; (with_reducible refine Keep.node 4096 ?_ ?_ ?_); · refine Keep.upd 4096 ?_ ?_ ?_ ?_ ?_ (fun p hp => ?_); exact rfl; exact rfl; exact rfl; exact rfl; exact rfl; cases p <;> first | exact absurd hp (by decide) | exact rfl)
    exact rfl
    exact Keep.refl _ _
  extract_lets recent s1 _ s2
  have h1 : Keep 134217597 s s1 := by
    repeat' first
      | exact rfl
      | with_reducible exact Keep.refl _ _
      | with_reducible assumption
      | with_reducible apply State.dfsSave_keep
      | with_reducible apply State.dieOff_keep
      | with_reducible apply State.txsEnd_keep
      | with_reducible apply State.sleepPreempt_keep
      | with_reducible apply State.ashBringup_keep
      | with_reducible apply State.set_keep
      | with_reducible apply State.sets_keep
      | with_reducible apply State.bringup_keep
      | with_reducible apply Keep.ite <;> intro _
      | with_reducible apply Keep.foldl <;> try intro _ _ _
      | with_reducible apply Keep.foldl_snd <;> try intro _ _ _
      | (rewrite [State.mk_eq_updOf]; (with_reducible refine Keep.node 4096 ?_ ?_ ?_); · refine Keep.upd 4096 ?_ ?_ ?_ ?_ ?_ (fun p hp => ?_); exact rfl; exact rfl; exact rfl; exact rfl; exact rfl; cases p <;> first | exact absurd hp (by decide) | exact rfl)
      | with_reducible refine Keep.of_snd ‹_ = (_, _)› ?_
      | with_reducible refine Keep.of_snd2 ‹_ = (_, _, _)› ?_
      | with_reducible apply Keep.of_id
      | split
      | dsimp only
  clear_value s1
  have h2 : Keep 134217597 s s2 := by
    repeat' first
      | exact rfl
      | with_reducible exact Keep.refl _ _
      | with_reducible assumption
      | with_reducible apply State.dfsSave_keep
      | with_reducible apply State.dieOff_keep
      | with_reducible apply State.txsEnd_keep
      | with_reducible apply State.sleepPreempt_keep
      | with_reducible apply State.ashBringup_keep
      | with_reducible apply State.set_keep
      | with_reducible apply State.sets_keep
      | with_reducible apply State.bringup_keep
      | with_reducible apply Keep.ite <;> intro _
      | with_reducible apply Keep.foldl <;> try intro _ _ _
      | with_reducible apply Keep.foldl_snd <;> try intro _ _ _
      | (rewrite [State.mk_eq_updOf]; (with_reducible refine Keep.node 4096 ?_ ?_ ?_); · refine Keep.upd 4096 ?_ ?_ ?_ ?_ ?_ (fun p hp => ?_); exact rfl; exact rfl; exact rfl; exact rfl; exact rfl; cases p <;> first | exact absurd hp (by decide) | exact rfl)
      | with_reducible refine Keep.of_snd ‹_ = (_, _)› ?_
      | with_reducible refine Keep.of_snd2 ‹_ = (_, _, _)› ?_
      | with_reducible apply Keep.of_id
      | split
      | dsimp only
  clear_value s2
  repeat' first
    | exact rfl
    | with_reducible exact Keep.refl _ _
    | with_reducible assumption
    | with_reducible apply State.dfsSave_keep
    | with_reducible apply State.dieOff_keep
    | with_reducible apply State.txsEnd_keep
    | with_reducible apply State.sleepPreempt_keep
    | with_reducible apply State.ashBringup_keep
    | with_reducible apply State.set_keep
    | with_reducible apply State.sets_keep
    | with_reducible apply State.bringup_keep
    | with_reducible apply Keep.ite <;> intro _
    | with_reducible apply Keep.foldl <;> try intro _ _ _
    | with_reducible apply Keep.foldl_snd <;> try intro _ _ _
    | (rewrite [State.mk_eq_updOf]; (with_reducible refine Keep.node 4096 ?_ ?_ ?_); · refine Keep.upd 4096 ?_ ?_ ?_ ?_ ?_ (fun p hp => ?_); exact rfl; exact rfl; exact rfl; exact rfl; exact rfl; cases p <;> first | exact absurd hp (by decide) | exact rfl)
    | with_reducible refine Keep.of_snd ‹_ = (_, _)› ?_
    | with_reducible refine Keep.of_snd2 ‹_ = (_, _, _)› ?_
    | with_reducible apply Keep.of_id
    | split
    | dsimp only

theorem State.lockdown_keep {m : Nat} {s0 : State} (s : State) (a1 : _) (hm : subMask 134214525 m = true) (h : Keep m s0 s) : Keep m s0 (State.lockdown s a1) := by
  refine Keep.lift (f := 134214525) ?_ hm h
  unfold State.lockdown
  refine Keep.ite (fun _ => Keep.refl _ _) (fun _ => ?_)
  refine Keep.ite (fun _ => State.ashAdd_keep _ _ _ _ rfl (Keep.refl _ _)) (fun _ => ?_)
  extract_lets s1 s2 s3 s4 _ _ _ _ _ _ s5 s6
  have h1 : Keep 134214525 s s1 := by
    repeat' first
      | exact rfl
      | with_reducible exact Keep.refl _ _
      | with_reducible assumption
      | with_reducible apply State.dfsSave_keep
      | with_reducible apply State.slotsZero_keep
      | with_reducible apply State.txsEnd_keep
      | with_reducible apply State.sleepPreempt_keep
      | with_reducible apply State.pushCut_keep
      | with_reducible apply State.wipeSecure_keep
      | with_reducible apply State.regionDown_keep
      | with_reducible apply State.ashAdd_keep
      | with_reducible apply State.railOff_keep
      | with_reducible apply State.hkaSkip_keep
      | with_reducible apply State.radUpd_keep
      | with_reducible apply State.setMode_keep
      | with_reducible apply State.set_keep
      | with_reducible apply Keep.ite <;> intro _
      | with_reducible apply Keep.foldl <;> try intro _ _ _
      | with_reducible apply Keep.foldl_snd <;> try intro _ _ _
      | (rewrite [State.mk_eq_updOf]; (with_reducible refine Keep.node 782660 ?_ ?_ ?_); · refine Keep.upd 782660 ?_ ?_ ?_ ?_ ?_ (fun p hp => ?_); exact rfl; exact rfl; exact rfl; exact rfl; exact rfl; cases p <;> first | exact absurd hp (by decide) | exact rfl)
      | with_reducible refine Keep.of_snd ‹_ = (_, _)› ?_
      | with_reducible refine Keep.of_snd2 ‹_ = (_, _, _)› ?_
      | with_reducible apply Keep.of_id
      | split
      | dsimp only
  clear_value s1
  have h2 : Keep 134214525 s s2 := by
    repeat' first
      | exact rfl
      | with_reducible exact Keep.refl _ _
      | with_reducible assumption
      | with_reducible apply State.dfsSave_keep
      | with_reducible apply State.slotsZero_keep
      | with_reducible apply State.txsEnd_keep
      | with_reducible apply State.sleepPreempt_keep
      | with_reducible apply State.pushCut_keep
      | with_reducible apply State.wipeSecure_keep
      | with_reducible apply State.regionDown_keep
      | with_reducible apply State.ashAdd_keep
      | with_reducible apply State.railOff_keep
      | with_reducible apply State.hkaSkip_keep
      | with_reducible apply State.radUpd_keep
      | with_reducible apply State.setMode_keep
      | with_reducible apply State.set_keep
      | with_reducible apply Keep.ite <;> intro _
      | with_reducible apply Keep.foldl <;> try intro _ _ _
      | with_reducible apply Keep.foldl_snd <;> try intro _ _ _
      | (rewrite [State.mk_eq_updOf]; (with_reducible refine Keep.node 782660 ?_ ?_ ?_); · refine Keep.upd 782660 ?_ ?_ ?_ ?_ ?_ (fun p hp => ?_); exact rfl; exact rfl; exact rfl; exact rfl; exact rfl; cases p <;> first | exact absurd hp (by decide) | exact rfl)
      | with_reducible refine Keep.of_snd ‹_ = (_, _)› ?_
      | with_reducible refine Keep.of_snd2 ‹_ = (_, _, _)› ?_
      | with_reducible apply Keep.of_id
      | split
      | dsimp only
  clear_value s2
  have h3 : Keep 134214525 s s3 := by
    repeat' first
      | exact rfl
      | with_reducible exact Keep.refl _ _
      | with_reducible assumption
      | with_reducible apply State.dfsSave_keep
      | with_reducible apply State.slotsZero_keep
      | with_reducible apply State.txsEnd_keep
      | with_reducible apply State.sleepPreempt_keep
      | with_reducible apply State.pushCut_keep
      | with_reducible apply State.wipeSecure_keep
      | with_reducible apply State.regionDown_keep
      | with_reducible apply State.ashAdd_keep
      | with_reducible apply State.railOff_keep
      | with_reducible apply State.hkaSkip_keep
      | with_reducible apply State.radUpd_keep
      | with_reducible apply State.setMode_keep
      | with_reducible apply State.set_keep
      | with_reducible apply Keep.ite <;> intro _
      | with_reducible apply Keep.foldl <;> try intro _ _ _
      | with_reducible apply Keep.foldl_snd <;> try intro _ _ _
      | (rewrite [State.mk_eq_updOf]; (with_reducible refine Keep.node 782660 ?_ ?_ ?_); · refine Keep.upd 782660 ?_ ?_ ?_ ?_ ?_ (fun p hp => ?_); exact rfl; exact rfl; exact rfl; exact rfl; exact rfl; cases p <;> first | exact absurd hp (by decide) | exact rfl)
      | with_reducible refine Keep.of_snd ‹_ = (_, _)› ?_
      | with_reducible refine Keep.of_snd2 ‹_ = (_, _, _)› ?_
      | with_reducible apply Keep.of_id
      | split
      | dsimp only
  clear_value s3
  have h4 : Keep 134214525 s s4 := by
    repeat' first
      | exact rfl
      | with_reducible exact Keep.refl _ _
      | with_reducible assumption
      | with_reducible apply State.dfsSave_keep
      | with_reducible apply State.slotsZero_keep
      | with_reducible apply State.txsEnd_keep
      | with_reducible apply State.sleepPreempt_keep
      | with_reducible apply State.pushCut_keep
      | with_reducible apply State.wipeSecure_keep
      | with_reducible apply State.regionDown_keep
      | with_reducible apply State.ashAdd_keep
      | with_reducible apply State.railOff_keep
      | with_reducible apply State.hkaSkip_keep
      | with_reducible apply State.radUpd_keep
      | with_reducible apply State.setMode_keep
      | with_reducible apply State.set_keep
      | with_reducible apply Keep.ite <;> intro _
      | with_reducible apply Keep.foldl <;> try intro _ _ _
      | with_reducible apply Keep.foldl_snd <;> try intro _ _ _
      | (rewrite [State.mk_eq_updOf]; (with_reducible refine Keep.node 782660 ?_ ?_ ?_); · refine Keep.upd 782660 ?_ ?_ ?_ ?_ ?_ (fun p hp => ?_); exact rfl; exact rfl; exact rfl; exact rfl; exact rfl; cases p <;> first | exact absurd hp (by decide) | exact rfl)
      | with_reducible refine Keep.of_snd ‹_ = (_, _)› ?_
      | with_reducible refine Keep.of_snd2 ‹_ = (_, _, _)› ?_
      | with_reducible apply Keep.of_id
      | split
      | dsimp only
  clear_value s4
  have h5 : Keep 134214525 s s5 := Keep.lift (f := 134214525) (s := s4) (t := s5) ⟨rfl, rfl, canonical_mem rfl (fun c => swf_sdrop memDefault (fun a => decide (0x800000000 ≤ a)) s4.mem c) rfl, fun p hp => by cases p <;> first | exact absurd hp (by decide) | exact rfl⟩ rfl h4
  clear_value s5
  have h6 : Keep 134214525 s s6 := by
    repeat' first
      | exact rfl
      | with_reducible exact Keep.refl _ _
      | with_reducible assumption
      | with_reducible apply State.dfsSave_keep
      | with_reducible apply State.slotsZero_keep
      | with_reducible apply State.txsEnd_keep
      | with_reducible apply State.sleepPreempt_keep
      | with_reducible apply State.pushCut_keep
      | with_reducible apply State.wipeSecure_keep
      | with_reducible apply State.regionDown_keep
      | with_reducible apply State.ashAdd_keep
      | with_reducible apply State.railOff_keep
      | with_reducible apply State.hkaSkip_keep
      | with_reducible apply State.radUpd_keep
      | with_reducible apply State.setMode_keep
      | with_reducible apply State.set_keep
      | with_reducible apply Keep.ite <;> intro _
      | with_reducible apply Keep.foldl <;> try intro _ _ _
      | with_reducible apply Keep.foldl_snd <;> try intro _ _ _
      | (rewrite [State.mk_eq_updOf]; (with_reducible refine Keep.node 782660 ?_ ?_ ?_); · refine Keep.upd 782660 ?_ ?_ ?_ ?_ ?_ (fun p hp => ?_); exact rfl; exact rfl; exact rfl; exact rfl; exact rfl; cases p <;> first | exact absurd hp (by decide) | exact rfl)
      | with_reducible refine Keep.of_snd ‹_ = (_, _)› ?_
      | with_reducible refine Keep.of_snd2 ‹_ = (_, _, _)› ?_
      | with_reducible apply Keep.of_id
      | split
      | dsimp only
  clear_value s6
  repeat' first
    | exact rfl
    | with_reducible exact Keep.refl _ _
    | with_reducible assumption
    | with_reducible apply State.dfsSave_keep
    | with_reducible apply State.slotsZero_keep
    | with_reducible apply State.txsEnd_keep
    | with_reducible apply State.sleepPreempt_keep
    | with_reducible apply State.pushCut_keep
    | with_reducible apply State.wipeSecure_keep
    | with_reducible apply State.regionDown_keep
    | with_reducible apply State.ashAdd_keep
    | with_reducible apply State.railOff_keep
    | with_reducible apply State.hkaSkip_keep
    | with_reducible apply State.radUpd_keep
    | with_reducible apply State.setMode_keep
    | with_reducible apply State.set_keep
    | with_reducible apply Keep.ite <;> intro _
    | with_reducible apply Keep.foldl <;> try intro _ _ _
    | with_reducible apply Keep.foldl_snd <;> try intro _ _ _
    | (rewrite [State.mk_eq_updOf]; (with_reducible refine Keep.node 782660 ?_ ?_ ?_); · refine Keep.upd 782660 ?_ ?_ ?_ ?_ ?_ (fun p hp => ?_); exact rfl; exact rfl; exact rfl; exact rfl; exact rfl; cases p <;> first | exact absurd hp (by decide) | exact rfl)
    | with_reducible refine Keep.of_snd ‹_ = (_, _)› ?_
    | with_reducible refine Keep.of_snd2 ‹_ = (_, _, _)› ?_
    | with_reducible apply Keep.of_id
    | split
    | dsimp only

end Sys2Proof.Machine
end

