-- ==== Sys2Proof/Laws/KeepCross.lean ====
section
/-! SUPPORT. What each operation of Machine/Cross.lean leaves alone. -/

set_option Elab.async false

namespace Sys2Proof.Machine

theorem State.txsDrop_keep {m : Nat} {s0 : State} (s : State) (a1 : _) (hm : subMask 32571761 m = true) (h : Keep m s0 s) : Keep m s0 (State.txsDrop s a1) := by
  refine Keep.lift (f := 32571761) ?_ hm h
  unfold State.txsDrop
  repeat' first
    | exact rfl
    | with_reducible exact Keep.refl _ _
    | with_reducible assumption
    | with_reducible apply State.radUpd_keep
    | with_reducible apply State.txsEnd_keep
    | with_reducible apply Keep.ite <;> intro _
    | with_reducible apply Keep.foldl <;> try intro _ _ _
    | with_reducible apply Keep.foldl_snd <;> try intro _ _ _
    | with_reducible refine Keep.of_snd ‹_ = (_, _)› ?_
    | with_reducible refine Keep.of_snd2 ‹_ = (_, _, _)› ?_
    | with_reducible apply Keep.of_id
    | split
    | dsimp only

theorem State.gapBegin_keep {m : Nat} {s0 : State} (s : State) (a1 : _) (a2 : _) (hm : subMask 32571767 m = true) (h : Keep m s0 s) : Keep m s0 (State.gapBegin s a1 a2) := by
  refine Keep.lift (f := 32571767) ?_ hm h
  unfold State.gapBegin
  repeat' first
    | exact rfl
    | with_reducible exact Keep.refl _ _
    | with_reducible assumption
    | with_reducible apply State.radUpd_keep
    | with_reducible apply State.calYield_keep
    | with_reducible apply State.dlCut_keep
    | with_reducible apply State.fhRestack_keep
    | with_reducible apply State.txsDrop_keep
    | with_reducible apply State.txsEnd_keep
    | with_reducible apply State.fhGap_keep
    | with_reducible apply State.visitsAbandon_keep
    | with_reducible apply State.phyLose_keep
    | with_reducible apply State.takeStack_keep
    | with_reducible apply State.frameEnd_keep
    | with_reducible apply State.txaRestack_keep
    | with_reducible apply State.coexSettle_keep
    | with_reducible apply State.pathsCheck_keep
    | with_reducible apply Keep.ite <;> intro _
    | with_reducible apply Keep.foldl <;> try intro _ _ _
    | with_reducible apply Keep.foldl_snd <;> try intro _ _ _
    | with_reducible refine Keep.of_snd ‹_ = (_, _)› ?_
    | with_reducible refine Keep.of_snd2 ‹_ = (_, _, _)› ?_
    | with_reducible apply Keep.of_id
    | split
    | dsimp only

theorem State.fallback_keep {m : Nat} {s0 : State} (s : State) (hm : subMask 32571767 m = true) (h : Keep m s0 s) : Keep m s0 (State.fallback s) := by
  refine Keep.lift (f := 32571767) ?_ hm h
  unfold State.fallback
  repeat' first
    | exact rfl
    | with_reducible exact Keep.refl _ _
    | with_reducible assumption
    | with_reducible apply State.radUpd_keep
    | with_reducible apply State.gapBegin_keep
    | with_reducible apply Keep.ite <;> intro _
    | with_reducible apply Keep.foldl <;> try intro _ _ _
    | with_reducible apply Keep.foldl_snd <;> try intro _ _ _
    | with_reducible refine Keep.of_snd ‹_ = (_, _)› ?_
    | with_reducible refine Keep.of_snd2 ‹_ = (_, _, _)› ?_
    | with_reducible apply Keep.of_id
    | split
    | dsimp only

theorem execFallbackReturn_keep (s : State) {t : State} (h : execFallbackReturn s = .next t) : Keep 32571767 s t := by
  unfold execFallbackReturn at h
  injection h with h
  subst h
  repeat' first
    | exact rfl
    | with_reducible exact Keep.refl _ _
    | with_reducible assumption
    | with_reducible apply State.radUpd_keep
    | with_reducible apply State.gapBegin_keep
    | with_reducible apply Keep.ite <;> intro _
    | with_reducible apply Keep.foldl <;> try intro _ _ _
    | with_reducible apply Keep.foldl_snd <;> try intro _ _ _
    | with_reducible refine Keep.of_snd ‹_ = (_, _)› ?_
    | with_reducible refine Keep.of_snd2 ‹_ = (_, _, _)› ?_
    | with_reducible apply Keep.of_id
    | split
    | dsimp only

theorem State.restackStat_keep {m : Nat} {s0 : State} (s : State) (a1 : _) (a2 : _) (a3 : _) (hm : subMask 32 m = true) (h : Keep m s0 s) : Keep m s0 (State.restackStat s a1 a2 a3) := by
  refine Keep.lift (f := 32) ?_ hm h
  unfold State.restackStat
  repeat' first
    | exact rfl
    | with_reducible exact Keep.refl _ _
    | with_reducible assumption
    | with_reducible apply State.commit_keep
    | with_reducible apply Keep.ite <;> intro _
    | with_reducible apply Keep.foldl <;> try intro _ _ _
    | with_reducible apply Keep.foldl_snd <;> try intro _ _ _
    | with_reducible refine Keep.of_snd ‹_ = (_, _)› ?_
    | with_reducible refine Keep.of_snd2 ‹_ = (_, _, _)› ?_
    | with_reducible apply Keep.of_id
    | split
    | dsimp only

theorem State.restackCancel_keep {m : Nat} {s0 : State} (s : State) (a1 : _) (hm : subMask 1048608 m = true) (h : Keep m s0 s) : Keep m s0 (State.restackCancel s a1) := by
  refine Keep.lift (f := 1048608) ?_ hm h
  unfold State.restackCancel
  repeat' first
    | exact rfl
    | with_reducible exact Keep.refl _ _
    | with_reducible assumption
    | with_reducible apply State.restackStat_keep
    | with_reducible apply State.radUpd_keep
    | with_reducible apply Keep.ite <;> intro _
    | with_reducible apply Keep.foldl <;> try intro _ _ _
    | with_reducible apply Keep.foldl_snd <;> try intro _ _ _
    | with_reducible refine Keep.of_snd ‹_ = (_, _)› ?_
    | with_reducible refine Keep.of_snd2 ‹_ = (_, _, _)› ?_
    | with_reducible apply Keep.of_id
    | split
    | dsimp only

theorem State.restackAsk_keep {m : Nat} {s0 : State} (s : State) (a1 : _) (hm : subMask 1048880 m = true) (h : Keep m s0 s) : Keep m s0 (State.restackAsk s a1) := by
  refine Keep.lift (f := 1048880) ?_ hm h
  unfold State.restackAsk
  repeat' first
    | exact rfl
    | with_reducible exact Keep.refl _ _
    | with_reducible assumption
    | with_reducible apply State.raise_keep
    | with_reducible apply State.restackStat_keep
    | with_reducible apply State.radUpd_keep
    | with_reducible apply State.calYield_keep
    | with_reducible apply Keep.ite <;> intro _
    | with_reducible apply Keep.foldl <;> try intro _ _ _
    | with_reducible apply Keep.foldl_snd <;> try intro _ _ _
    | with_reducible refine Keep.of_snd ‹_ = (_, _)› ?_
    | with_reducible refine Keep.of_snd2 ‹_ = (_, _, _)› ?_
    | with_reducible apply Keep.of_id
    | split
    | dsimp only

theorem wrCross_keep {m : Nat} {s0 : State} (a0 : _) (a1 : _) (a2 : _) (a3 : _) (s : State) (hm : subMask 1048880 m = true) (h : Keep m s0 s) : Keep m s0 (wrCross a0 a1 a2 a3 s) := by
  refine Keep.lift (f := 1048880) ?_ hm h
  unfold wrCross
  repeat' first
    | exact rfl
    | with_reducible exact Keep.refl _ _
    | with_reducible assumption
    | with_reducible apply storeWord_keep
    | with_reducible apply State.restackAsk_keep
    | with_reducible apply State.restackCancel_keep
    | with_reducible apply State.sets_keep
    | with_reducible apply Keep.ite <;> intro _
    | with_reducible apply Keep.foldl <;> try intro _ _ _
    | with_reducible apply Keep.foldl_snd <;> try intro _ _ _
    | with_reducible refine Keep.of_snd ‹_ = (_, _)› ?_
    | with_reducible refine Keep.of_snd2 ‹_ = (_, _, _)› ?_
    | with_reducible apply Keep.of_id
    | split
    | dsimp only

theorem execRestackRequest_keep (a0 : _) (a1 : _) (s : State) {t : State} (h : execRestackRequest a0 a1 s = .next t) : Keep 1049394 s t := by
  unfold execRestackRequest at h
  injection h with h
  subst h
  repeat' first
    | exact rfl
    | with_reducible exact Keep.refl _ _
    | with_reducible assumption
    | with_reducible refine writeReg_keep _ _ _ _ _ _ _ (fun _ _ _ _ _ _ => ?_) ?_ ?_
    | with_reducible apply wrCross_keep
    | with_reducible apply Keep.ite <;> intro _
    | with_reducible apply Keep.foldl <;> try intro _ _ _
    | with_reducible apply Keep.foldl_snd <;> try intro _ _ _
    | with_reducible refine Keep.of_snd ‹_ = (_, _)› ?_
    | with_reducible refine Keep.of_snd2 ‹_ = (_, _, _)› ?_
    | with_reducible apply Keep.of_id
    | split
    | dsimp only

theorem execRestackCancel_keep (a0 : _) (a1 : _) (s : State) {t : State} (h : execRestackCancel a0 a1 s = .next t) : Keep 1049394 s t := by
  unfold execRestackCancel at h
  injection h with h
  subst h
  repeat' first
    | exact rfl
    | with_reducible exact Keep.refl _ _
    | with_reducible assumption
    | with_reducible refine writeReg_keep _ _ _ _ _ _ _ (fun _ _ _ _ _ _ => ?_) ?_ ?_
    | with_reducible apply wrCross_keep
    | with_reducible apply Keep.ite <;> intro _
    | with_reducible apply Keep.foldl <;> try intro _ _ _
    | with_reducible apply Keep.foldl_snd <;> try intro _ _ _
    | with_reducible refine Keep.of_snd ‹_ = (_, _)› ?_
    | with_reducible refine Keep.of_snd2 ‹_ = (_, _, _)› ?_
    | with_reducible apply Keep.of_id
    | split
    | dsimp only

theorem execRestackBoundary_keep (s : State) {t : State} (h : execRestackBoundary s = .next t) : Keep 32571767 s t := by
  unfold execRestackBoundary at h
  injection h with h
  subst h
  repeat' first
    | exact rfl
    | with_reducible exact Keep.refl _ _
    | with_reducible assumption
    | with_reducible apply State.gapBegin_keep
    | with_reducible apply State.restackStat_keep
    | with_reducible apply State.radUpd_keep
    | with_reducible apply Keep.ite <;> intro _
    | with_reducible apply Keep.foldl <;> try intro _ _ _
    | with_reducible apply Keep.foldl_snd <;> try intro _ _ _
    | with_reducible refine Keep.of_snd ‹_ = (_, _)› ?_
    | with_reducible refine Keep.of_snd2 ‹_ = (_, _, _)› ?_
    | with_reducible apply Keep.of_id
    | split
    | dsimp only

theorem State.gapEnd_keep {m : Nat} {s0 : State} (s : State) (a1 : _) (hm : subMask 32571767 m = true) (h : Keep m s0 s) : Keep m s0 (State.gapEnd s a1) := by
  refine Keep.lift (f := 32571767) ?_ hm h
  unfold State.gapEnd
  repeat' first
    | exact rfl
    | with_reducible exact Keep.refl _ _
    | with_reducible assumption
    | with_reducible apply State.txaRestackEnd_keep
    | with_reducible apply State.gateOpens_keep
    | with_reducible apply State.radUpd_keep
    | with_reducible apply State.setChosen_keep
    | with_reducible apply State.raise_keep
    | with_reducible apply State.restackStat_keep
    | with_reducible apply State.wacLine_keep
    | with_reducible apply State.fhJoin_keep
    | with_reducible apply State.coexSettle_keep
    | with_reducible apply State.fallback_keep
    | with_reducible apply Keep.ite <;> intro _
    | with_reducible apply Keep.foldl <;> try intro _ _ _
    | with_reducible apply Keep.foldl_snd <;> try intro _ _ _
    | with_reducible refine Keep.of_snd ‹_ = (_, _)› ?_
    | with_reducible refine Keep.of_snd2 ‹_ = (_, _, _)› ?_
    | with_reducible apply Keep.of_id
    | split
    | dsimp only

theorem execRestackGapEnd_keep (s : State) {t : State} (h : execRestackGapEnd s = .next t) : Keep 32571767 s t := by
  unfold execRestackGapEnd at h
  injection h with h
  subst h
  repeat' first
    | exact rfl
    | with_reducible exact Keep.refl _ _
    | with_reducible assumption
    | with_reducible apply State.gapEnd_keep
    | with_reducible apply Keep.ite <;> intro _
    | with_reducible apply Keep.foldl <;> try intro _ _ _
    | with_reducible apply Keep.foldl_snd <;> try intro _ _ _
    | with_reducible refine Keep.of_snd ‹_ = (_, _)› ?_
    | with_reducible refine Keep.of_snd2 ‹_ = (_, _, _)› ?_
    | with_reducible apply Keep.of_id
    | split
    | dsimp only

theorem State.heldFenced_keep {m : Nat} {s0 : State} (s : State) (a1 : _) (hm : subMask 822 m = true) (h : Keep m s0 s) : Keep m s0 (State.heldFenced s a1) := by
  refine Keep.lift (f := 822) ?_ hm h
  unfold State.heldFenced
  repeat' first
    | exact rfl
    | with_reducible exact Keep.refl _ _
    | with_reducible assumption
    | with_reducible apply State.refuse_keep
    | with_reducible apply Keep.ite <;> intro _
    | with_reducible apply Keep.foldl <;> try intro _ _ _
    | with_reducible apply Keep.foldl_snd <;> try intro _ _ _
    | (rewrite [State.mk_eq_updOf]; (with_reducible refine Keep.node 4 ?_ ?_ ?_); · refine Keep.upd 4 ?_ ?_ ?_ ?_ ?_ (fun p hp => ?_); exact rfl; exact rfl; exact rfl; exact rfl; exact rfl; cases p <;> first | exact absurd hp (by decide) | exact rfl)
    | with_reducible refine Keep.of_snd ‹_ = (_, _)› ?_
    | with_reducible refine Keep.of_snd2 ‹_ = (_, _, _)› ?_
    | with_reducible apply Keep.of_id
    | split
    | dsimp only

theorem State.quadLeave_keep {m : Nat} {s0 : State} (s : State) (a1 : _) (hm : subMask 32571761 m = true) (h : Keep m s0 s) : Keep m s0 (State.quadLeave s a1) := by
  refine Keep.lift (f := 32571761) ?_ hm h
  unfold State.quadLeave
  repeat' first
    | exact rfl
    | with_reducible exact Keep.refl _ _
    | with_reducible assumption
    | with_reducible apply State.radUpd_keep
    | with_reducible apply State.phyLose_keep
    | with_reducible apply State.txsEnd_keep
    | with_reducible apply Keep.ite <;> intro _
    | with_reducible apply Keep.foldl <;> try intro _ _ _
    | with_reducible apply Keep.foldl_snd <;> try intro _ _ _
    | with_reducible refine Keep.of_snd ‹_ = (_, _)› ?_
    | with_reducible refine Keep.of_snd2 ‹_ = (_, _, _)› ?_
    | with_reducible apply Keep.of_id
    | split
    | dsimp only

theorem State.regionStop_keep {m : Nat} {s0 : State} (s : State) (a1 : _) (hm : subMask 133661559 m = true) (h : Keep m s0 s) : Keep m s0 (State.regionStop s a1) := by
  refine Keep.lift (f := 133661559) ?_ hm h
  unfold State.regionStop
  repeat' first
    | exact rfl
    | with_reducible exact Keep.refl _ _
    | with_reducible assumption
    | with_reducible apply State.quadLeave_keep
    | with_reducible apply State.dfsSave_keep
    | with_reducible apply State.txsEnd_keep
    | with_reducible apply State.hkaSkip_keep
    | with_reducible apply State.tlyFence_keep
    | with_reducible apply State.heldFenced_keep
    | with_reducible apply State.unitsLost_keep
    | with_reducible apply Keep.ite <;> intro _
    | with_reducible apply Keep.foldl <;> try intro _ _ _
    | with_reducible apply Keep.foldl_snd <;> try intro _ _ _
    | with_reducible refine Keep.of_snd ‹_ = (_, _)› ?_
    | with_reducible refine Keep.of_snd2 ‹_ = (_, _, _)› ?_
    | with_reducible apply Keep.of_id
    | split
    | dsimp only

theorem State.vfLost_keep {m : Nat} {s0 : State} (s : State) (a1 : _) (hm : subMask 16688 m = true) (h : Keep m s0 s) : Keep m s0 (State.vfLost s a1) := by
  refine Keep.lift (f := 16688) ?_ hm h
  unfold State.vfLost
  repeat' first
    | exact rfl
    | with_reducible exact Keep.refl _ _
    | with_reducible assumption
    | with_reducible apply State.commit_keep
    | with_reducible apply State.raise_keep
    | with_reducible apply Keep.ite <;> intro _
    | with_reducible apply Keep.foldl <;> try intro _ _ _
    | with_reducible apply Keep.foldl_snd <;> try intro _ _ _
    | (rewrite [State.mk_eq_updOf]; (with_reducible refine Keep.node 16384 ?_ ?_ ?_); · refine Keep.upd 16384 ?_ ?_ ?_ ?_ ?_ (fun p hp => ?_); exact rfl; exact rfl; exact rfl; exact rfl; exact rfl; cases p <;> first | exact absurd hp (by decide) | exact rfl)
    | with_reducible refine Keep.of_snd ‹_ = (_, _)› ?_
    | with_reducible refine Keep.of_snd2 ‹_ = (_, _, _)› ?_
    | with_reducible apply Keep.of_id
    | split
    | dsimp only

theorem State.fenceDo_keep {m : Nat} {s0 : State} (s : State) (a1 : _) (a2 : _) (a3 : _) (a4 : _) (a5 : _) (hm : subMask 133677951 m = true) (h : Keep m s0 s) : Keep m s0 (State.fenceDo s a1 a2 a3 a4 a5) := by
  refine Keep.lift (f := 133677951) ?_ hm h
  unfold State.fenceDo
  extract_lets w s1 s2 s3
  have h1 : Keep 133677951 s s1 := by
    repeat' first
      | exact rfl
      | with_reducible exact Keep.refl _ _
      | with_reducible assumption
      | with_reducible apply State.ashAdd_keep
      | with_reducible apply State.setReg_keep
      | with_reducible apply State.regionStop_keep
      | with_reducible apply State.vfLost_keep
      | with_reducible apply State.restackCancel_keep
      | with_reducible apply State.sleepPreempt_keep
      | with_reducible apply State.set_keep
      | with_reducible apply State.coexSettle_keep
      | with_reducible apply State.fallback_keep
      | with_reducible apply State.setMode_keep
      | with_reducible apply State.raise_keep
      | with_reducible apply State.pathsCheck_keep
      | with_reducible apply Keep.ite <;> intro _
      | with_reducible apply Keep.foldl <;> try intro _ _ _
      | with_reducible apply Keep.foldl_snd <;> try intro _ _ _
      | (rewrite [State.mk_eq_updOf]; (with_reducible refine Keep.node 8 ?_ ?_ ?_); · refine Keep.upd 8 ?_ ?_ ?_ ?_ ?_ (fun p hp => ?_); exact rfl; exact rfl; exact rfl; exact rfl; exact rfl; cases p <;> first | exact absurd hp (by decide) | exact rfl)
      | with_reducible refine Keep.of_snd ‹_ = (_, _)› ?_
      | with_reducible refine Keep.of_snd2 ‹_ = (_, _, _)› ?_
      | with_reducible apply Keep.of_id
      | split
      | dsimp only
  clear_value s1
  have h2 : Keep 133677951 s s2 := by
    repeat' first
      | exact rfl
      | with_reducible exact Keep.refl _ _
      | with_reducible assumption
      | with_reducible apply State.ashAdd_keep
      | with_reducible apply State.setReg_keep
      | with_reducible apply State.regionStop_keep
      | with_reducible apply State.vfLost_keep
      | with_reducible apply State.restackCancel_keep
      | with_reducible apply State.sleepPreempt_keep
      | with_reducible apply State.set_keep
      | with_reducible apply State.coexSettle_keep
      | with_reducible apply State.fallback_keep
      | with_reducible apply State.setMode_keep
      | with_reducible apply State.raise_keep
      | with_reducible apply State.pathsCheck_keep
      | with_reducible apply Keep.ite <;> intro _
      | with_reducible apply Keep.foldl <;> try intro _ _ _
      | with_reducible apply Keep.foldl_snd <;> try intro _ _ _
      | (rewrite [State.mk_eq_updOf]; (with_reducible refine Keep.node 8 ?_ ?_ ?_); · refine Keep.upd 8 ?_ ?_ ?_ ?_ ?_ (fun p hp => ?_); exact rfl; exact rfl; exact rfl; exact rfl; exact rfl; cases p <;> first | exact absurd hp (by decide) | exact rfl)
      | with_reducible refine Keep.of_snd ‹_ = (_, _)› ?_
      | with_reducible refine Keep.of_snd2 ‹_ = (_, _, _)› ?_
      | with_reducible apply Keep.of_id
      | split
      | dsimp only
  clear_value s2
  have h3 : Keep 133677951 s s3 := by
    repeat' first
      | exact rfl
      | with_reducible exact Keep.refl _ _
      | with_reducible assumption
      | with_reducible apply State.ashAdd_keep
      | with_reducible apply State.setReg_keep
      | with_reducible apply State.regionStop_keep
      | with_reducible apply State.vfLost_keep
      | with_reducible apply State.restackCancel_keep
      | with_reducible apply State.sleepPreempt_keep
      | with_reducible apply State.set_keep
      | with_reducible apply State.coexSettle_keep
      | with_reducible apply State.fallback_keep
      | with_reducible apply State.setMode_keep
      | with_reducible apply State.raise_keep
      | with_reducible apply State.pathsCheck_keep
      | with_reducible apply Keep.ite <;> intro _
      | with_reducible apply Keep.foldl <;> try intro _ _ _
      | with_reducible apply Keep.foldl_snd <;> try intro _ _ _
      | (rewrite [State.mk_eq_updOf]; (with_reducible refine Keep.node 8 ?_ ?_ ?_); · refine Keep.upd 8 ?_ ?_ ?_ ?_ ?_ (fun p hp => ?_); exact rfl; exact rfl; exact rfl; exact rfl; exact rfl; cases p <;> first | exact absurd hp (by decide) | exact rfl)
      | with_reducible refine Keep.of_snd ‹_ = (_, _)› ?_
      | with_reducible refine Keep.of_snd2 ‹_ = (_, _, _)› ?_
      | with_reducible apply Keep.of_id
      | split
      | dsimp only
  clear_value s3
  repeat' first
    | exact rfl
    | with_reducible exact Keep.refl _ _
    | with_reducible assumption
    | with_reducible apply State.ashAdd_keep
    | with_reducible apply State.setReg_keep
    | with_reducible apply State.regionStop_keep
    | with_reducible apply State.vfLost_keep
    | with_reducible apply State.restackCancel_keep
    | with_reducible apply State.sleepPreempt_keep
    | with_reducible apply State.set_keep
    | with_reducible apply State.coexSettle_keep
    | with_reducible apply State.fallback_keep
    | with_reducible apply State.setMode_keep
    | with_reducible apply State.raise_keep
    | with_reducible apply State.pathsCheck_keep
    | with_reducible apply Keep.ite <;> intro _
    | with_reducible apply Keep.foldl <;> try intro _ _ _
    | with_reducible apply Keep.foldl_snd <;> try intro _ _ _
    | (rewrite [State.mk_eq_updOf]; (with_reducible refine Keep.node 8 ?_ ?_ ?_); · refine Keep.upd 8 ?_ ?_ ?_ ?_ ?_ (fun p hp => ?_); exact rfl; exact rfl; exact rfl; exact rfl; exact rfl; cases p <;> first | exact absurd hp (by decide) | exact rfl)
    | with_reducible refine Keep.of_snd ‹_ = (_, _)› ?_
    | with_reducible refine Keep.of_snd2 ‹_ = (_, _, _)› ?_
    | with_reducible apply Keep.of_id
    | split
    | dsimp only

theorem State.fence_keep {m : Nat} {s0 : State} (s : State) (a1 : _) (a2 : _) (a3 : _) (a4 : _) (a5 : _) (hm : subMask 133692287 m = true) (h : Keep m s0 s) : Keep m s0 (State.fence s a1 a2 a3 a4 a5) := by
  refine Keep.lift (f := 133692287) ?_ hm h
  unfold State.fence
  repeat' first
    | exact rfl
    | with_reducible exact Keep.refl _ _
    | with_reducible assumption
    | with_reducible apply State.bringFail_keep
    | with_reducible apply State.ashAdd_keep
    | with_reducible apply State.fenceDo_keep
    | with_reducible apply Keep.ite <;> intro _
    | with_reducible apply Keep.foldl <;> try intro _ _ _
    | with_reducible apply Keep.foldl_snd <;> try intro _ _ _
    | with_reducible refine Keep.of_snd ‹_ = (_, _)› ?_
    | with_reducible refine Keep.of_snd2 ‹_ = (_, _, _)› ?_
    | with_reducible apply Keep.of_id
    | split
    | dsimp only

theorem State.escalate_keep {m : Nat} {s0 : State} (s : State) (a1 : _) (a2 : _) (a3 : _) (a4 : _) (a5 : _) (hm : subMask 134217599 m = true) (h : Keep m s0 s) : Keep m s0 (State.escalate s a1 a2 a3 a4 a5) := by
  refine Keep.lift (f := 134217599) ?_ hm h
  unfold State.escalate
  repeat' first
    | exact rfl
    | with_reducible exact Keep.refl _ _
    | with_reducible assumption
    | with_reducible apply State.fence_keep
    | with_reducible apply State.dieRestart_keep
    | with_reducible apply Keep.ite <;> intro _
    | with_reducible apply Keep.foldl <;> try intro _ _ _
    | with_reducible apply Keep.foldl_snd <;> try intro _ _ _
    | with_reducible refine Keep.of_snd ‹_ = (_, _)› ?_
    | with_reducible refine Keep.of_snd2 ‹_ = (_, _, _)› ?_
    | with_reducible apply Keep.of_id
    | split
    | dsimp only

theorem execAccessTimeout_keep (a0 : _) (a1 : _) (s : State) {t : State} (h : execAccessTimeout a0 a1 s = .next t) : Keep 134217599 s t := by
  unfold execAccessTimeout at h
  injection h with h
  subst h
  repeat' first
    | exact rfl
    | with_reducible exact Keep.refl _ _
    | with_reducible assumption
    | with_reducible apply State.refuse_keep
    | with_reducible apply State.escalate_keep
    | with_reducible apply Keep.ite <;> intro _
    | with_reducible apply Keep.foldl <;> try intro _ _ _
    | with_reducible apply Keep.foldl_snd <;> try intro _ _ _
    | (rewrite [State.mk_eq_updOf]; (with_reducible refine Keep.node 12 ?_ ?_ ?_); · refine Keep.upd 12 ?_ ?_ ?_ ?_ ?_ (fun p hp => ?_); exact rfl; exact rfl; exact rfl; exact rfl; exact rfl; cases p <;> first | exact absurd hp (by decide) | exact rfl)
    | with_reducible refine Keep.of_snd ‹_ = (_, _)› ?_
    | with_reducible refine Keep.of_snd2 ‹_ = (_, _, _)› ?_
    | with_reducible apply Keep.of_id
    | split
    | dsimp only

theorem execCrossbarTimeout_keep (a0 : _) (a1 : _) (s : State) {t : State} (h : execCrossbarTimeout a0 a1 s = .next t) : Keep 134217599 s t := by
  unfold execCrossbarTimeout at h
  injection h with h
  subst h
  repeat' first
    | exact rfl
    | with_reducible exact Keep.refl _ _
    | with_reducible assumption
    | with_reducible apply State.escalate_keep
    | with_reducible apply State.refuse_keep
    | with_reducible apply Keep.ite <;> intro _
    | with_reducible apply Keep.foldl <;> try intro _ _ _
    | with_reducible apply Keep.foldl_snd <;> try intro _ _ _
    | (rewrite [State.mk_eq_updOf]; (with_reducible refine Keep.node 4 ?_ ?_ ?_); · refine Keep.upd 4 ?_ ?_ ?_ ?_ ?_ (fun p hp => ?_); exact rfl; exact rfl; exact rfl; exact rfl; exact rfl; cases p <;> first | exact absurd hp (by decide) | exact rfl)
    | with_reducible refine Keep.of_snd ‹_ = (_, _)› ?_
    | with_reducible refine Keep.of_snd2 ‹_ = (_, _, _)› ?_
    | with_reducible apply Keep.of_id
    | split
    | dsimp only

theorem execControlStorageEcc_keep (a0 : _) (a1 : _) (s : State) {t : State} (h : execControlStorageEcc a0 a1 s = .next t) : Keep 134217599 s t := by
  unfold execControlStorageEcc at h
  injection h with h
  subst h
  repeat' first
    | exact rfl
    | with_reducible exact Keep.refl _ _
    | with_reducible assumption
    | with_reducible apply State.escalate_keep
    | with_reducible apply State.refuse_keep
    | with_reducible apply Keep.ite <;> intro _
    | with_reducible apply Keep.foldl <;> try intro _ _ _
    | with_reducible apply Keep.foldl_snd <;> try intro _ _ _
    | with_reducible refine Keep.of_snd ‹_ = (_, _)› ?_
    | with_reducible refine Keep.of_snd2 ‹_ = (_, _, _)› ?_
    | with_reducible apply Keep.of_id
    | split
    | dsimp only

theorem execTamper_keep (a0 : _) (s : State) {t : State} (h : execTamper a0 s = .next t) : Keep 134214525 s t := by
  unfold execTamper at h
  injection h with h
  subst h
  repeat' first
    | exact rfl
    | with_reducible exact Keep.refl _ _
    | with_reducible assumption
    | with_reducible apply State.lockdown_keep
    | with_reducible apply State.ashSecurity_keep
    | with_reducible apply State.bump_keep
    | with_reducible apply Keep.ite <;> intro _
    | with_reducible apply Keep.foldl <;> try intro _ _ _
    | with_reducible apply Keep.foldl_snd <;> try intro _ _ _
    | with_reducible refine Keep.of_snd ‹_ = (_, _)› ?_
    | with_reducible refine Keep.of_snd2 ‹_ = (_, _, _)› ?_
    | with_reducible apply Keep.of_id
    | split
    | dsimp only

theorem execKilnDetectorTrip_keep (s : State) {t : State} (h : execKilnDetectorTrip s = .next t) : Keep 134214525 s t := by
  unfold execKilnDetectorTrip at h
  injection h with h
  subst h
  repeat' first
    | exact rfl
    | with_reducible exact Keep.refl _ _
    | with_reducible assumption
    | with_reducible apply State.lockdown_keep
    | with_reducible apply Keep.ite <;> intro _
    | with_reducible apply Keep.foldl <;> try intro _ _ _
    | with_reducible apply Keep.foldl_snd <;> try intro _ _ _
    | with_reducible refine Keep.of_snd ‹_ = (_, _)› ?_
    | with_reducible refine Keep.of_snd2 ‹_ = (_, _, _)› ?_
    | with_reducible apply Keep.of_id
    | split
    | dsimp only

theorem execTrngHealthFail_keep (s : State) {t : State} (h : execTrngHealthFail s = .next t) : Keep 134214525 s t := by
  unfold execTrngHealthFail at h
  injection h with h
  subst h
  repeat' first
    | exact rfl
    | with_reducible exact Keep.refl _ _
    | with_reducible assumption
    | with_reducible apply State.klnUpd_keep
    | with_reducible apply State.ashSecurity_keep
    | with_reducible apply State.raise_keep
    | with_reducible apply State.lockdown_keep
    | with_reducible apply Keep.ite <;> intro _
    | with_reducible apply Keep.foldl <;> try intro _ _ _
    | with_reducible apply Keep.foldl_snd <;> try intro _ _ _
    | with_reducible refine Keep.of_snd ‹_ = (_, _)› ?_
    | with_reducible refine Keep.of_snd2 ‹_ = (_, _, _)› ?_
    | with_reducible apply Keep.of_id
    | split
    | dsimp only

end Sys2Proof.Machine
end

