-- ==== Sys2Proof/Laws/KeepPower.lean ====
section
/-! SUPPORT. What each operation of Machine/Power.lean leaves alone. -/

set_option Elab.async false

namespace Sys2Proof.Machine

theorem State.pwrUpd_keep {m : Nat} {s0 : State} (s : State) (a1 : _) (hm : subMask 16384 m = true) (h : Keep m s0 s) : Keep m s0 (State.pwrUpd s a1) := by
  refine Keep.lift (f := 16384) ?_ hm h
  unfold State.pwrUpd
  repeat' first
    | exact rfl
    | with_reducible exact Keep.refl _ _
    | with_reducible assumption
    | with_reducible apply Keep.ite <;> intro _
    | with_reducible apply Keep.foldl <;> try intro _ _ _
    | with_reducible apply Keep.foldl_snd <;> try intro _ _ _
    | (rewrite [State.mk_eq_updOf]; (with_reducible refine Keep.node 16384 ?_ ?_ ?_); · refine Keep.upd 16384 ?_ ?_ ?_ ?_ ?_ (fun p hp => ?_); exact rfl; exact rfl; exact rfl; exact rfl; exact rfl; cases p <;> first | exact absurd hp (by decide) | exact rfl)
    | with_reducible refine Keep.of_snd ‹_ = (_, _)› ?_
    | with_reducible refine Keep.of_snd2 ‹_ = (_, _, _)› ?_
    | with_reducible apply Keep.of_id
    | split
    | dsimp only

theorem State.aoDown_keep {m : Nat} {s0 : State} (s : State) (hm : subMask 134217599 m = true) (h : Keep m s0 s) : Keep m s0 (State.aoDown s) := by
  refine Keep.lift (f := 134217599) ?_ hm h
  unfold State.aoDown
  extract_lets s1 p
  have h1 : Keep 134217599 s s1 := by
    repeat' first
      | exact rfl
      | with_reducible exact Keep.refl _ _
      | with_reducible assumption
      | with_reducible apply State.resetRegs_keep
      | with_reducible apply State.dieOff_keep
      | with_reducible apply State.txsEnd_keep
      | with_reducible apply State.setReg_keep
      | with_reducible apply Keep.ite <;> intro _
      | with_reducible apply Keep.foldl <;> try intro _ _ _
      | with_reducible apply Keep.foldl_snd <;> try intro _ _ _
      | (rewrite [State.mk_eq_updOf]; (with_reducible refine Keep.node 1594882 ?_ ?_ ?_); · refine Keep.upd 1594882 ?_ ?_ ?_ ?_ ?_ (fun p hp => ?_); exact rfl; exact rfl; exact rfl; exact rfl; exact rfl; cases p <;> first | exact absurd hp (by decide) | exact rfl)
      | with_reducible refine Keep.of_snd ‹_ = (_, _)› ?_
      | with_reducible refine Keep.of_snd2 ‹_ = (_, _, _)› ?_
      | with_reducible apply Keep.of_id
      | split
      | dsimp only
  clear_value s1
  exact Keep.lift (f := 134217599) (s := s1.setReg .AO_STATUS [] 0) (t := _) ⟨rfl, rfl, canonical_regs id rfl rfl, fun p hp => by cases p <;> first | exact absurd hp (by decide) | exact rfl⟩ rfl (State.setReg_keep s1 .AO_STATUS [] 0 0 rfl h1)

theorem State.aoUp_keep {m : Nat} {s0 : State} (s : State) (a1 : _) (hm : subMask 3699504 m = true) (h : Keep m s0 s) : Keep m s0 (State.aoUp s a1) := by
  refine Keep.lift (f := 3699504) ?_ hm h
  unfold State.aoUp
  repeat' first
    | exact rfl
    | with_reducible exact Keep.refl _ _
    | with_reducible assumption
    | with_reducible apply State.pwrUpd_keep
    | with_reducible apply State.bringup_keep
    | with_reducible apply Keep.ite <;> intro _
    | with_reducible apply Keep.foldl <;> try intro _ _ _
    | with_reducible apply Keep.foldl_snd <;> try intro _ _ _
    | (rewrite [State.mk_eq_updOf]; (with_reducible refine Keep.node 4096 ?_ ?_ ?_); · refine Keep.upd 4096 ?_ ?_ ?_ ?_ ?_ (fun p hp => ?_); exact rfl; exact rfl; exact rfl; exact rfl; exact rfl; cases p <;> first | exact absurd hp (by decide) | exact rfl)
    | with_reducible refine Keep.of_snd ‹_ = (_, _)› ?_
    | with_reducible refine Keep.of_snd2 ‹_ = (_, _, _)› ?_
    | with_reducible apply Keep.of_id
    | split
    | dsimp only

theorem execVinAoRise_keep (s : State) {t : State} (h : execVinAoRise s = .next t) : Keep 3699504 s t := by
  unfold execVinAoRise at h
  injection h with h
  subst h
  repeat' first
    | exact rfl
    | with_reducible exact Keep.refl _ _
    | with_reducible assumption
    | with_reducible apply State.radUpd_keep
    | with_reducible apply State.pwrUpd_keep
    | with_reducible apply State.aoUp_keep
    | with_reducible apply State.bbUpd_keep
    | with_reducible apply Keep.ite <;> intro _
    | with_reducible apply Keep.foldl <;> try intro _ _ _
    | with_reducible apply Keep.foldl_snd <;> try intro _ _ _
    | with_reducible refine Keep.of_snd ‹_ = (_, _)› ?_
    | with_reducible refine Keep.of_snd2 ‹_ = (_, _, _)› ?_
    | with_reducible apply Keep.of_id
    | split
    | dsimp only

theorem execVinAoLoss_keep (s : State) {t : State} (h : execVinAoLoss s = .next t) : Keep 134217599 s t := by
  unfold execVinAoLoss at h
  injection h with h
  subst h
  repeat' first
    | exact rfl
    | with_reducible exact Keep.refl _ _
    | with_reducible assumption
    | with_reducible apply State.pwrUpd_keep
    | with_reducible apply State.aoDown_keep
    | with_reducible apply Keep.ite <;> intro _
    | with_reducible apply Keep.foldl <;> try intro _ _ _
    | with_reducible apply Keep.foldl_snd <;> try intro _ _ _
    | with_reducible refine Keep.of_snd ‹_ = (_, _)› ?_
    | with_reducible refine Keep.of_snd2 ‹_ = (_, _, _)› ?_
    | with_reducible apply Keep.of_id
    | split
    | dsimp only

theorem State.wakeRecord_keep {m : Nat} {s0 : State} (s : State) (a1 : _) (a2 : _) (a3 : _) (hm : subMask 16416 m = true) (h : Keep m s0 s) : Keep m s0 (State.wakeRecord s a1 a2 a3) := by
  refine Keep.lift (f := 16416) ?_ hm h
  unfold State.wakeRecord
  repeat' first
    | exact rfl
    | with_reducible exact Keep.refl _ _
    | with_reducible assumption
    | with_reducible apply State.setReg_keep
    | with_reducible apply State.pwrUpd_keep
    | with_reducible apply Keep.ite <;> intro _
    | with_reducible apply Keep.foldl <;> try intro _ _ _
    | with_reducible apply Keep.foldl_snd <;> try intro _ _ _
    | with_reducible refine Keep.of_snd ‹_ = (_, _)› ?_
    | with_reducible refine Keep.of_snd2 ‹_ = (_, _, _)› ?_
    | with_reducible apply Keep.of_id
    | split
    | dsimp only

theorem State.wakeAlso_keep {m : Nat} {s0 : State} (s : State) (a1 : _) (a2 : _) (hm : subMask 32 m = true) (h : Keep m s0 s) : Keep m s0 (State.wakeAlso s a1 a2) := by
  refine Keep.lift (f := 32) ?_ hm h
  unfold State.wakeAlso
  repeat' first
    | exact rfl
    | with_reducible exact Keep.refl _ _
    | with_reducible assumption
    | with_reducible apply State.set_keep
    | with_reducible apply State.sets_keep
    | with_reducible apply Keep.ite <;> intro _
    | with_reducible apply Keep.foldl <;> try intro _ _ _
    | with_reducible apply Keep.foldl_snd <;> try intro _ _ _
    | with_reducible refine Keep.of_snd ‹_ = (_, _)› ?_
    | with_reducible refine Keep.of_snd2 ‹_ = (_, _, _)› ?_
    | with_reducible apply Keep.of_id
    | split
    | dsimp only

theorem State.wakeDomains_keep {m : Nat} {s0 : State} (s : State) (hm : subMask 16384 m = true) (h : Keep m s0 s) : Keep m s0 (State.wakeDomains s) := by
  refine Keep.lift (f := 16384) ?_ hm h
  unfold State.wakeDomains
  repeat' first
    | exact rfl
    | with_reducible exact Keep.refl _ _
    | with_reducible assumption
    | with_reducible apply State.pwrUpd_keep
    | with_reducible apply Keep.ite <;> intro _
    | with_reducible apply Keep.foldl <;> try intro _ _ _
    | with_reducible apply Keep.foldl_snd <;> try intro _ _ _
    | with_reducible refine Keep.of_snd ‹_ = (_, _)› ?_
    | with_reducible refine Keep.of_snd2 ‹_ = (_, _, _)› ?_
    | with_reducible apply Keep.of_id
    | split
    | dsimp only

theorem State.wakeFire_keep {m : Nat} {s0 : State} (s : State) (a1 : _) (a2 : _) (hm : subMask 3699504 m = true) (h : Keep m s0 s) : Keep m s0 (State.wakeFire s a1 a2) := by
  refine Keep.lift (f := 3699504) ?_ hm h
  unfold State.wakeFire
  repeat' first
    | exact rfl
    | with_reducible exact Keep.refl _ _
    | with_reducible assumption
    | with_reducible apply State.wakeAlso_keep
    | with_reducible apply State.pwrUpd_keep
    | with_reducible apply State.bringup_keep
    | with_reducible apply State.wakeRecord_keep
    | with_reducible apply State.wakeDomains_keep
    | with_reducible apply State.sleepPreempt_keep
    | with_reducible apply Keep.ite <;> intro _
    | with_reducible apply Keep.foldl <;> try intro _ _ _
    | with_reducible apply Keep.foldl_snd <;> try intro _ _ _
    | with_reducible refine Keep.of_snd ‹_ = (_, _)› ?_
    | with_reducible refine Keep.of_snd2 ‹_ = (_, _, _)› ?_
    | with_reducible apply Keep.of_id
    | split
    | dsimp only

theorem execSmbusAddressMatch_keep (a0 : _) (a1 : _) (s : State) {t : State} (h : execSmbusAddressMatch a0 a1 s = .next t) : Keep 3699504 s t := by
  unfold execSmbusAddressMatch at h
  injection h with h
  subst h
  repeat' first
    | exact rfl
    | with_reducible exact Keep.refl _ _
    | with_reducible assumption
    | with_reducible apply State.wakeFire_keep
    | with_reducible apply Keep.ite <;> intro _
    | with_reducible apply Keep.foldl <;> try intro _ _ _
    | with_reducible apply Keep.foldl_snd <;> try intro _ _ _
    | with_reducible refine Keep.of_snd ‹_ = (_, _)› ?_
    | with_reducible refine Keep.of_snd2 ‹_ = (_, _, _)› ?_
    | with_reducible apply Keep.of_id
    | split
    | dsimp only

theorem execWakeUpFrame_keep (a0 : _) (s : State) {t : State} (h : execWakeUpFrame a0 s = .next t) : Keep 3699504 s t := by
  unfold execWakeUpFrame at h
  injection h with h
  subst h
  repeat' first
    | exact rfl
    | with_reducible exact Keep.refl _ _
    | with_reducible assumption
    | with_reducible apply State.wakeFire_keep
    | with_reducible apply Keep.ite <;> intro _
    | with_reducible apply Keep.foldl <;> try intro _ _ _
    | with_reducible apply Keep.foldl_snd <;> try intro _ _ _
    | with_reducible refine Keep.of_snd ‹_ = (_, _)› ?_
    | with_reducible refine Keep.of_snd2 ‹_ = (_, _, _)› ?_
    | with_reducible apply Keep.of_id
    | split
    | dsimp only

theorem execGpioWake_keep (a0 : _) (s : State) {t : State} (h : execGpioWake a0 s = .next t) : Keep 3699504 s t := by
  unfold execGpioWake at h
  injection h with h
  subst h
  repeat' first
    | exact rfl
    | with_reducible exact Keep.refl _ _
    | with_reducible assumption
    | with_reducible apply State.wakeFire_keep
    | with_reducible apply Keep.ite <;> intro _
    | with_reducible apply Keep.foldl <;> try intro _ _ _
    | with_reducible apply Keep.foldl_snd <;> try intro _ _ _
    | with_reducible refine Keep.of_snd ‹_ = (_, _)› ?_
    | with_reducible refine Keep.of_snd2 ‹_ = (_, _, _)› ?_
    | with_reducible apply Keep.of_id
    | split
    | dsimp only

theorem execTimerWake_keep (s : State) {t : State} (h : execTimerWake s = .next t) : Keep 3699504 s t := by
  unfold execTimerWake at h
  injection h with h
  subst h
  repeat' first
    | exact rfl
    | with_reducible exact Keep.refl _ _
    | with_reducible assumption
    | with_reducible apply State.wakeFire_keep
    | with_reducible apply Keep.ite <;> intro _
    | with_reducible apply Keep.foldl <;> try intro _ _ _
    | with_reducible apply Keep.foldl_snd <;> try intro _ _ _
    | with_reducible refine Keep.of_snd ‹_ = (_, _)› ?_
    | with_reducible refine Keep.of_snd2 ‹_ = (_, _, _)› ?_
    | with_reducible apply Keep.of_id
    | split
    | dsimp only

theorem State.mainOff_keep {m : Nat} {s0 : State} (s : State) (a1 : _) (hm : subMask 134217597 m = true) (h : Keep m s0 s) : Keep m s0 (State.mainOff s a1) := by
  refine Keep.lift (f := 134217597) ?_ hm h
  unfold State.mainOff
  repeat' first
    | exact rfl
    | with_reducible exact Keep.refl _ _
    | with_reducible assumption
    | with_reducible apply State.dfsSave_keep
    | with_reducible apply State.dieOff_keep
    | with_reducible apply State.ashAdd_keep
    | with_reducible apply State.ntuStop_keep
    | with_reducible apply State.txsEnd_keep
    | with_reducible apply State.setMode_keep
    | with_reducible apply State.hkaOff_keep
    | with_reducible apply State.pwrUpd_keep
    | with_reducible apply State.ashDrain_keep
    | with_reducible apply State.ashFlushAll_keep
    | with_reducible apply Keep.ite <;> intro _
    | with_reducible apply Keep.foldl <;> try intro _ _ _
    | with_reducible apply Keep.foldl_snd <;> try intro _ _ _
    | with_reducible refine Keep.of_snd ‹_ = (_, _)› ?_
    | with_reducible refine Keep.of_snd2 ‹_ = (_, _, _)› ?_
    | with_reducible apply Keep.of_id
    | split
    | dsimp only

theorem execVinMainLoss_keep (a0 : _) (s : State) {t : State} (h : execVinMainLoss a0 s = .next t) : Keep 134217597 s t := by
  unfold execVinMainLoss at h
  injection h with h
  subst h
  repeat' first
    | exact rfl
    | with_reducible exact Keep.refl _ _
    | with_reducible assumption
    | with_reducible apply State.pwrUpd_keep
    | with_reducible apply State.mainOff_keep
    | with_reducible apply State.sleepPreempt_keep
    | with_reducible apply Keep.ite <;> intro _
    | with_reducible apply Keep.foldl <;> try intro _ _ _
    | with_reducible apply Keep.foldl_snd <;> try intro _ _ _
    | with_reducible refine Keep.of_snd ‹_ = (_, _)› ?_
    | with_reducible refine Keep.of_snd2 ‹_ = (_, _, _)› ?_
    | with_reducible apply Keep.of_id
    | split
    | dsimp only

theorem execVinMainPresent_keep (s : State) {t : State} (h : execVinMainPresent s = .next t) : Keep 3699504 s t := by
  unfold execVinMainPresent at h
  injection h with h
  subst h
  repeat' first
    | exact rfl
    | with_reducible exact Keep.refl _ _
    | with_reducible assumption
    | with_reducible apply State.pwrUpd_keep
    | with_reducible apply State.bringup_keep
    | with_reducible apply State.wakeFire_keep
    | with_reducible apply State.wakeAlso_keep
    | with_reducible apply Keep.ite <;> intro _
    | with_reducible apply Keep.foldl <;> try intro _ _ _
    | with_reducible apply Keep.foldl_snd <;> try intro _ _ _
    | (rewrite [State.mk_eq_updOf]; (with_reducible refine Keep.node 20480 ?_ ?_ ?_); · refine Keep.upd 20480 ?_ ?_ ?_ ?_ ?_ (fun p hp => ?_); exact rfl; exact rfl; exact rfl; exact rfl; exact rfl; cases p <;> first | exact absurd hp (by decide) | exact rfl)
    | with_reducible refine Keep.of_snd ‹_ = (_, _)› ?_
    | with_reducible refine Keep.of_snd2 ‹_ = (_, _, _)› ?_
    | with_reducible apply Keep.of_id
    | split
    | dsimp only

theorem execThermalTrip_keep (a0 : _) (s : State) {t : State} (h : execThermalTrip a0 s = .next t) : Keep 134217599 s t := by
  unfold execThermalTrip at h
  injection h with h
  subst h
  repeat' first
    | exact rfl
    | with_reducible exact Keep.refl _ _
    | with_reducible assumption
    | with_reducible apply State.mainOff_keep
    | with_reducible apply State.sleepPreempt_keep
    | with_reducible apply State.aoUp_keep
    | with_reducible apply State.aoDown_keep
    | with_reducible apply State.pwrUpd_keep
    | with_reducible apply State.setMode_keep
    | with_reducible apply Keep.ite <;> intro _
    | with_reducible apply Keep.foldl <;> try intro _ _ _
    | with_reducible apply Keep.foldl_snd <;> try intro _ _ _
    | with_reducible refine Keep.of_snd ‹_ = (_, _)› ?_
    | with_reducible refine Keep.of_snd2 ‹_ = (_, _, _)› ?_
    | with_reducible apply Keep.of_id
    | split
    | dsimp only

theorem execThermalWakeRelease_keep (a0 : _) (s : State) {t : State} (h : execThermalWakeRelease a0 s = .next t) : Keep 3699504 s t := by
  unfold execThermalWakeRelease at h
  injection h with h
  subst h
  repeat' first
    | exact rfl
    | with_reducible exact Keep.refl _ _
    | with_reducible assumption
    | with_reducible apply State.wakeFire_keep
    | with_reducible apply State.pwrUpd_keep
    | with_reducible apply Keep.ite <;> intro _
    | with_reducible apply Keep.foldl <;> try intro _ _ _
    | with_reducible apply Keep.foldl_snd <;> try intro _ _ _
    | with_reducible refine Keep.of_snd ‹_ = (_, _)› ?_
    | with_reducible refine Keep.of_snd2 ‹_ = (_, _, _)› ?_
    | with_reducible apply Keep.of_id
    | split
    | dsimp only

theorem execSleepOscFirstTick_keep (s : State) {t : State} (h : execSleepOscFirstTick s = .next t) : Keep 17408 s t := by
  unfold execSleepOscFirstTick at h
  injection h with h
  subst h
  repeat' first
    | exact rfl
    | with_reducible exact Keep.refl _ _
    | with_reducible assumption
    | with_reducible apply State.ntuUpd_keep
    | with_reducible apply State.pwrUpd_keep
    | with_reducible apply Keep.ite <;> intro _
    | with_reducible apply Keep.foldl <;> try intro _ _ _
    | with_reducible apply Keep.foldl_snd <;> try intro _ _ _
    | with_reducible refine Keep.of_snd ‹_ = (_, _)› ?_
    | with_reducible refine Keep.of_snd2 ‹_ = (_, _, _)› ?_
    | with_reducible apply Keep.of_id
    | split
    | dsimp only

theorem execSleepOscillatorStop_keep (s : State) {t : State} (h : execSleepOscillatorStop s = .next t) : Keep 17408 s t := by
  unfold execSleepOscillatorStop at h
  injection h with h
  subst h
  repeat' first
    | exact rfl
    | with_reducible exact Keep.refl _ _
    | with_reducible assumption
    | with_reducible apply State.ntuUpd_keep
    | with_reducible apply State.pwrUpd_keep
    | with_reducible apply Keep.ite <;> intro _
    | with_reducible apply Keep.foldl <;> try intro _ _ _
    | with_reducible apply Keep.foldl_snd <;> try intro _ _ _
    | with_reducible refine Keep.of_snd ‹_ = (_, _)› ?_
    | with_reducible refine Keep.of_snd2 ‹_ = (_, _, _)› ?_
    | with_reducible apply Keep.of_id
    | split
    | dsimp only

theorem State.dieTemp_keep {m : Nat} {s0 : State} (s : State) (a1 : _) (hm : subMask 1 m = true) (h : Keep m s0 s) : Keep m s0 (State.dieTemp s a1).2 := by
  refine Keep.lift (f := 1) ?_ hm h
  unfold State.dieTemp
  repeat' first
    | exact rfl
    | with_reducible exact Keep.refl _ _
    | with_reducible assumption
    | with_reducible apply Keep.ite <;> intro _
    | with_reducible apply Keep.foldl <;> try intro _ _ _
    | with_reducible apply Keep.foldl_snd <;> try intro _ _ _
    | (rewrite [State.mk_eq_updOf]; (with_reducible refine Keep.node 1 ?_ ?_ ?_); · refine Keep.upd 1 ?_ ?_ ?_ ?_ ?_ (fun p hp => ?_); exact rfl; exact rfl; exact rfl; exact rfl; exact rfl; cases p <;> first | exact absurd hp (by decide) | exact rfl)
    | with_reducible refine Keep.of_snd ‹_ = (_, _)› ?_
    | with_reducible refine Keep.of_snd2 ‹_ = (_, _, _)› ?_
    | with_reducible apply Keep.of_id
    | split
    | dsimp only

theorem State.railRecord_keep {m : Nat} {s0 : State} (s : State) (a1 : _) (a2 : _) (a3 : _) (a4 : _) (hm : subMask 817 m = true) (h : Keep m s0 s) : Keep m s0 (State.railRecord s a1 a2 a3 a4) := by
  refine Keep.lift (f := 817) ?_ hm h
  unfold State.railRecord
  repeat' first
    | exact rfl
    | with_reducible exact Keep.refl _ _
    | with_reducible assumption
    | with_reducible apply State.dieTemp_keep
    | with_reducible apply State.raise_keep
    | with_reducible apply State.ashAdd_keep
    | with_reducible apply State.set_keep
    | with_reducible apply Keep.ite <;> intro _
    | with_reducible apply Keep.foldl <;> try intro _ _ _
    | with_reducible apply Keep.foldl_snd <;> try intro _ _ _
    | with_reducible refine Keep.of_snd ‹_ = (_, _)› ?_
    | with_reducible refine Keep.of_snd2 ‹_ = (_, _, _)› ?_
    | with_reducible apply Keep.of_id
    | split
    | dsimp only

theorem execRailFault_keep (a0 : _) (a1 : _) (a2 : _) (s : State) {t : State} (h : execRailFault a0 a1 a2 s = .next t) : Keep 134217599 s t := by
  unfold execRailFault at h
  injection h with h
  subst h
  repeat' first
    | exact rfl
    | with_reducible exact Keep.refl _ _
    | with_reducible assumption
    | with_reducible apply State.aoDown_keep
    | with_reducible apply State.txsEnd_keep
    | with_reducible apply State.aoUp_keep
    | with_reducible apply State.ashBringup_keep
    | with_reducible apply State.railRecord_keep
    | with_reducible apply State.railOff_keep
    | with_reducible apply State.fence_keep
    | with_reducible apply State.dieRestart_keep
    | with_reducible apply Keep.ite <;> intro _
    | with_reducible apply Keep.foldl <;> try intro _ _ _
    | with_reducible apply Keep.foldl_snd <;> try intro _ _ _
    | with_reducible refine Keep.of_snd ‹_ = (_, _)› ?_
    | with_reducible refine Keep.of_snd2 ‹_ = (_, _, _)› ?_
    | with_reducible apply Keep.of_id
    | split
    | dsimp only

theorem State.vfStat_keep {m : Nat} {s0 : State} (s : State) (a1 : _) (a2 : _) (hm : subMask 32 m = true) (h : Keep m s0 s) : Keep m s0 (State.vfStat s a1 a2) := by
  refine Keep.lift (f := 32) ?_ hm h
  unfold State.vfStat
  repeat' first
    | exact rfl
    | with_reducible exact Keep.refl _ _
    | with_reducible assumption
    | with_reducible apply State.commit_keep
    | with_reducible apply Keep.ite <;> intro _
    | with_reducible apply Keep.foldl <;> try intro _ _ _
    | with_reducible apply Keep.foldl_snd <;> try intro _ _ _
    | with_reducible refine Keep.of_snd ‹_ = (_, _)› ?_
    | with_reducible refine Keep.of_snd2 ‹_ = (_, _, _)› ?_
    | with_reducible apply Keep.of_id
    | split
    | dsimp only

theorem State.vfWait_keep {m : Nat} {s0 : State} (s : State) (a1 : _) (a2 : _) (hm : subMask 16416 m = true) (h : Keep m s0 s) : Keep m s0 (State.vfWait s a1 a2) := by
  refine Keep.lift (f := 16416) ?_ hm h
  unfold State.vfWait
  repeat' first
    | exact rfl
    | with_reducible exact Keep.refl _ _
    | with_reducible assumption
    | with_reducible apply State.pwrUpd_keep
    | with_reducible apply State.sets_keep
    | with_reducible apply Keep.ite <;> intro _
    | with_reducible apply Keep.foldl <;> try intro _ _ _
    | with_reducible apply Keep.foldl_snd <;> try intro _ _ _
    | with_reducible refine Keep.of_snd ‹_ = (_, _)› ?_
    | with_reducible refine Keep.of_snd2 ‹_ = (_, _, _)› ?_
    | with_reducible apply Keep.of_id
    | split
    | dsimp only

theorem State.vfEnd_keep {m : Nat} {s0 : State} (s : State) (a1 : _) (a2 : _) (hm : subMask 16688 m = true) (h : Keep m s0 s) : Keep m s0 (State.vfEnd s a1 a2) := by
  refine Keep.lift (f := 16688) ?_ hm h
  unfold State.vfEnd
  repeat' first
    | exact rfl
    | with_reducible exact Keep.refl _ _
    | with_reducible assumption
    | with_reducible apply State.vfStat_keep
    | with_reducible apply State.pwrUpd_keep
    | with_reducible apply State.raise_keep
    | with_reducible apply Keep.ite <;> intro _
    | with_reducible apply Keep.foldl <;> try intro _ _ _
    | with_reducible apply Keep.foldl_snd <;> try intro _ _ _
    | with_reducible refine Keep.of_snd ‹_ = (_, _)› ?_
    | with_reducible refine Keep.of_snd2 ‹_ = (_, _, _)› ?_
    | with_reducible apply Keep.of_id
    | split
    | dsimp only

theorem State.islandDo_keep {m : Nat} {s0 : State} (s : State) (a1 : _) (hm : subMask 16688 m = true) (h : Keep m s0 s) : Keep m s0 (State.islandDo s a1) := by
  refine Keep.lift (f := 16688) ?_ hm h
  unfold State.islandDo
  repeat' first
    | exact rfl
    | with_reducible exact Keep.refl _ _
    | with_reducible assumption
    | with_reducible apply State.vfEnd_keep
    | with_reducible apply State.pwrUpd_keep
    | with_reducible apply Keep.ite <;> intro _
    | with_reducible apply Keep.foldl <;> try intro _ _ _
    | with_reducible apply Keep.foldl_snd <;> try intro _ _ _
    | with_reducible refine Keep.of_snd ‹_ = (_, _)› ?_
    | with_reducible refine Keep.of_snd2 ‹_ = (_, _, _)› ?_
    | with_reducible apply Keep.of_id
    | split
    | dsimp only

theorem State.railDo_keep {m : Nat} {s0 : State} (s : State) (a1 : _) (hm : subMask 16688 m = true) (h : Keep m s0 s) : Keep m s0 (State.railDo s a1) := by
  refine Keep.lift (f := 16688) ?_ hm h
  unfold State.railDo
  repeat' first
    | exact rfl
    | with_reducible exact Keep.refl _ _
    | with_reducible assumption
    | with_reducible apply State.vfEnd_keep
    | with_reducible apply State.vfWait_keep
    | with_reducible apply State.sets_keep
    | with_reducible apply Keep.ite <;> intro _
    | with_reducible apply Keep.foldl <;> try intro _ _ _
    | with_reducible apply Keep.foldl_snd <;> try intro _ _ _
    | with_reducible refine Keep.of_snd ‹_ = (_, _)› ?_
    | with_reducible refine Keep.of_snd2 ‹_ = (_, _, _)› ?_
    | with_reducible apply Keep.of_id
    | split
    | dsimp only

theorem State.vfDo_keep {m : Nat} {s0 : State} (s : State) (a1 : _) (hm : subMask 16688 m = true) (h : Keep m s0 s) : Keep m s0 (State.vfDo s a1) := by
  refine Keep.lift (f := 16688) ?_ hm h
  unfold State.vfDo
  repeat' first
    | exact rfl
    | with_reducible exact Keep.refl _ _
    | with_reducible assumption
    | with_reducible apply State.railDo_keep
    | with_reducible apply State.islandDo_keep
    | with_reducible apply Keep.ite <;> intro _
    | with_reducible apply Keep.foldl <;> try intro _ _ _
    | with_reducible apply Keep.foldl_snd <;> try intro _ _ _
    | with_reducible refine Keep.of_snd ‹_ = (_, _)› ?_
    | with_reducible refine Keep.of_snd2 ‹_ = (_, _, _)› ?_
    | with_reducible apply Keep.of_id
    | split
    | dsimp only

theorem State.vfAsk_keep {m : Nat} {s0 : State} (s : State) (a1 : _) (a2 : _) (hm : subMask 16688 m = true) (h : Keep m s0 s) : Keep m s0 (State.vfAsk s a1 a2) := by
  refine Keep.lift (f := 16688) ?_ hm h
  unfold State.vfAsk
  repeat' first
    | exact rfl
    | with_reducible exact Keep.refl _ _
    | with_reducible assumption
    | with_reducible apply State.vfStat_keep
    | with_reducible apply State.vfWait_keep
    | with_reducible apply State.vfDo_keep
    | with_reducible apply Keep.ite <;> intro _
    | with_reducible apply Keep.foldl <;> try intro _ _ _
    | with_reducible apply Keep.foldl_snd <;> try intro _ _ _
    | with_reducible refine Keep.of_snd ‹_ = (_, _)› ?_
    | with_reducible refine Keep.of_snd2 ‹_ = (_, _, _)› ?_
    | with_reducible apply Keep.of_id
    | split
    | dsimp only

theorem State.setPoint_keep {m : Nat} {s0 : State} (s : State) (a1 : _) (hm : subMask 16688 m = true) (h : Keep m s0 s) : Keep m s0 (State.setPoint s a1) := by
  refine Keep.lift (f := 16688) ?_ hm h
  unfold State.setPoint
  repeat' first
    | exact rfl
    | with_reducible exact Keep.refl _ _
    | with_reducible assumption
    | with_reducible apply State.vfStat_keep
    | with_reducible apply State.vfAsk_keep
    | with_reducible apply Keep.ite <;> intro _
    | with_reducible apply Keep.foldl <;> try intro _ _ _
    | with_reducible apply Keep.foldl_snd <;> try intro _ _ _
    | with_reducible refine Keep.of_snd ‹_ = (_, _)› ?_
    | with_reducible refine Keep.of_snd2 ‹_ = (_, _, _)› ?_
    | with_reducible apply Keep.of_id
    | split
    | dsimp only

theorem State.islandAsk_keep {m : Nat} {s0 : State} (s : State) (a1 : _) (hm : subMask 16688 m = true) (h : Keep m s0 s) : Keep m s0 (State.islandAsk s a1) := by
  refine Keep.lift (f := 16688) ?_ hm h
  unfold State.islandAsk
  repeat' first
    | exact rfl
    | with_reducible exact Keep.refl _ _
    | with_reducible assumption
    | with_reducible apply State.vfWait_keep
    | with_reducible apply State.vfStat_keep
    | with_reducible apply State.vfAsk_keep
    | with_reducible apply Keep.ite <;> intro _
    | with_reducible apply Keep.foldl <;> try intro _ _ _
    | with_reducible apply Keep.foldl_snd <;> try intro _ _ _
    | with_reducible refine Keep.of_snd ‹_ = (_, _)› ?_
    | with_reducible refine Keep.of_snd2 ‹_ = (_, _, _)› ?_
    | with_reducible apply Keep.of_id
    | split
    | dsimp only

theorem wrPower_keep {m : Nat} {s0 : State} (a0 : _) (a1 : _) (a2 : _) (a3 : _) (s : State) (hm : subMask 16688 m = true) (h : Keep m s0 s) : Keep m s0 (wrPower a0 a1 a2 a3 s) := by
  refine Keep.lift (f := 16688) ?_ hm h
  unfold wrPower
  repeat' first
    | exact rfl
    | with_reducible exact Keep.refl _ _
    | with_reducible assumption
    | with_reducible apply State.setPoint_keep
    | with_reducible apply State.islandAsk_keep
    | with_reducible apply storeWord_keep
    | with_reducible apply Keep.ite <;> intro _
    | with_reducible apply Keep.foldl <;> try intro _ _ _
    | with_reducible apply Keep.foldl_snd <;> try intro _ _ _
    | with_reducible refine Keep.of_snd ‹_ = (_, _)› ?_
    | with_reducible refine Keep.of_snd2 ‹_ = (_, _, _)› ?_
    | with_reducible apply Keep.of_id
    | split
    | dsimp only

theorem execSetPoint_keep (a0 : _) (a1 : _) (s : State) {t : State} (h : execSetPoint a0 a1 s = .next t) : Keep 17202 s t := by
  unfold execSetPoint at h
  injection h with h
  subst h
  repeat' first
    | exact rfl
    | with_reducible exact Keep.refl _ _
    | with_reducible assumption
    | with_reducible refine writeReg_keep _ _ _ _ _ _ _ (fun _ _ _ _ _ _ => ?_) ?_ ?_
    | with_reducible apply wrPower_keep
    | with_reducible apply Keep.ite <;> intro _
    | with_reducible apply Keep.foldl <;> try intro _ _ _
    | with_reducible apply Keep.foldl_snd <;> try intro _ _ _
    | with_reducible refine Keep.of_snd ‹_ = (_, _)› ?_
    | with_reducible refine Keep.of_snd2 ‹_ = (_, _, _)› ?_
    | with_reducible apply Keep.of_id
    | split
    | dsimp only

theorem execIslandChange_keep (a0 : _) (a1 : _) (s : State) {t : State} (h : execIslandChange a0 a1 s = .next t) : Keep 17202 s t := by
  unfold execIslandChange at h
  injection h with h
  subst h
  repeat' first
    | exact rfl
    | with_reducible exact Keep.refl _ _
    | with_reducible assumption
    | with_reducible refine writeReg_keep _ _ _ _ _ _ _ (fun _ _ _ _ _ _ => ?_) ?_ ?_
    | with_reducible apply wrPower_keep
    | with_reducible apply Keep.ite <;> intro _
    | with_reducible apply Keep.foldl <;> try intro _ _ _
    | with_reducible apply Keep.foldl_snd <;> try intro _ _ _
    | with_reducible refine Keep.of_snd ‹_ = (_, _)› ?_
    | with_reducible refine Keep.of_snd2 ‹_ = (_, _, _)› ?_
    | with_reducible apply Keep.of_id
    | split
    | dsimp only

theorem execRailReady_keep (s : State) {t : State} (h : execRailReady s = .next t) : Keep 16688 s t := by
  unfold execRailReady at h
  injection h with h
  subst h
  repeat' first
    | exact rfl
    | with_reducible exact Keep.refl _ _
    | with_reducible assumption
    | with_reducible apply State.vfEnd_keep
    | with_reducible apply State.set_keep
    | with_reducible apply State.vfWait_keep
    | with_reducible apply State.islandDo_keep
    | with_reducible apply Keep.ite <;> intro _
    | with_reducible apply Keep.foldl <;> try intro _ _ _
    | with_reducible apply Keep.foldl_snd <;> try intro _ _ _
    | with_reducible refine Keep.of_snd ‹_ = (_, _)› ?_
    | with_reducible refine Keep.of_snd2 ‹_ = (_, _, _)› ?_
    | with_reducible apply Keep.of_id
    | split
    | dsimp only

theorem execDeferredChangeRelease_keep (s : State) {t : State} (h : execDeferredChangeRelease s = .next t) : Keep 16688 s t := by
  unfold execDeferredChangeRelease at h
  injection h with h
  subst h
  repeat' first
    | exact rfl
    | with_reducible exact Keep.refl _ _
    | with_reducible assumption
    | with_reducible apply State.vfDo_keep
    | with_reducible apply Keep.ite <;> intro _
    | with_reducible apply Keep.foldl <;> try intro _ _ _
    | with_reducible apply Keep.foldl_snd <;> try intro _ _ _
    | with_reducible refine Keep.of_snd ‹_ = (_, _)› ?_
    | with_reducible refine Keep.of_snd2 ‹_ = (_, _, _)› ?_
    | with_reducible apply Keep.of_id
    | split
    | dsimp only

theorem execAgingMeasure_keep (a0 : _) (a1 : _) (s : State) {t : State} (h : execAgingMeasure a0 a1 s = .next t) : Keep 17200 s t := by
  unfold execAgingMeasure at h
  injection h with h
  subst h
  repeat' first
    | exact rfl
    | with_reducible exact Keep.refl _ _
    | with_reducible assumption
    | with_reducible apply State.pwrUpd_keep
    | with_reducible apply State.sets_keep
    | with_reducible apply State.ashAdd_keep
    | with_reducible apply State.raise_keep
    | with_reducible apply State.set_keep
    | with_reducible apply Keep.ite <;> intro _
    | with_reducible apply Keep.foldl <;> try intro _ _ _
    | with_reducible apply Keep.foldl_snd <;> try intro _ _ _
    | with_reducible refine Keep.of_snd ‹_ = (_, _)› ?_
    | with_reducible refine Keep.of_snd2 ‹_ = (_, _, _)› ?_
    | with_reducible apply Keep.of_id
    | split
    | dsimp only

end Sys2Proof.Machine
end

