-- ==== Sys2Proof/Laws/KeepSleep.lean ====
section
/-! SUPPORT. What each operation of Machine/Sleep.lean leaves alone. -/

set_option Elab.async false

namespace Sys2Proof.Machine

theorem State.phaseOne_keep {m : Nat} {s0 : State} (s : State) (a1 : _) (hm : subMask 16416 m = true) (h : Keep m s0 s) : Keep m s0 (State.phaseOne s a1) := by
  refine Keep.lift (f := 16416) ?_ hm h
  unfold State.phaseOne
  repeat' first
    | exact rfl
    | with_reducible exact Keep.refl _ _
    | with_reducible assumption
    | with_reducible apply State.pwrUpd_keep
    | with_reducible apply State.sets_keep
    | with_reducible apply Keep.ite <;> intro _
    | with_reducible apply Keep.foldl <;> try intro _ _ _
    | with_reducible apply Keep.foldl_snd <;> try intro _ _ _
    | with_reducible refine Keep.of_snd ‹_ = (_, _)› ?_
    | with_reducible refine Keep.of_snd2 ‹_ = (_, _, _)› ?_
    | with_reducible apply Keep.of_id
    | split
    | dsimp only

theorem State.sleepAsk_keep {m : Nat} {s0 : State} (s : State) (a1 : _) (hm : subMask 16416 m = true) (h : Keep m s0 s) : Keep m s0 (State.sleepAsk s a1) := by
  refine Keep.lift (f := 16416) ?_ hm h
  unfold State.sleepAsk
  repeat' first
    | exact rfl
    | with_reducible exact Keep.refl _ _
    | with_reducible assumption
    | with_reducible apply State.phaseOne_keep
    | with_reducible apply State.set_keep
    | with_reducible apply State.commit_keep
    | with_reducible apply Keep.ite <;> intro _
    | with_reducible apply Keep.foldl <;> try intro _ _ _
    | with_reducible apply Keep.foldl_snd <;> try intro _ _ _
    | with_reducible refine Keep.of_snd ‹_ = (_, _)› ?_
    | with_reducible refine Keep.of_snd2 ‹_ = (_, _, _)› ?_
    | with_reducible apply Keep.of_id
    | split
    | dsimp only

theorem State.sleepAbort_keep {m : Nat} {s0 : State} (s : State) (a1 : _) (a2 : _) (a3 : _) (a4 : _) (hm : subMask 17200 m = true) (h : Keep m s0 s) : Keep m s0 (State.sleepAbort s a1 a2 a3 a4) := by
  refine Keep.lift (f := 17200) ?_ hm h
  unfold State.sleepAbort
  repeat' first
    | exact rfl
    | with_reducible exact Keep.refl _ _
    | with_reducible assumption
    | with_reducible apply State.raise_keep
    | with_reducible apply State.sets_keep
    | with_reducible apply State.commit_keep
    | with_reducible apply State.pwrUpd_keep
    | with_reducible apply State.ashAdd_keep
    | with_reducible apply Keep.ite <;> intro _
    | with_reducible apply Keep.foldl <;> try intro _ _ _
    | with_reducible apply Keep.foldl_snd <;> try intro _ _ _
    | with_reducible refine Keep.of_snd ‹_ = (_, _)› ?_
    | with_reducible refine Keep.of_snd2 ‹_ = (_, _, _)› ?_
    | with_reducible apply Keep.of_id
    | split
    | dsimp only

theorem State.quadSave_keep {m : Nat} {s0 : State} (s : State) (a1 : _) (hm : subMask 1048576 m = true) (h : Keep m s0 s) : Keep m s0 (State.quadSave s a1) := by
  refine Keep.lift (f := 1048576) ?_ hm h
  unfold State.quadSave
  repeat' first
    | exact rfl
    | with_reducible exact Keep.refl _ _
    | with_reducible assumption
    | with_reducible apply State.quadUpd_keep
    | with_reducible apply Keep.ite <;> intro _
    | with_reducible apply Keep.foldl <;> try intro _ _ _
    | with_reducible apply Keep.foldl_snd <;> try intro _ _ _
    | with_reducible refine Keep.of_snd ‹_ = (_, _)› ?_
    | with_reducible refine Keep.of_snd2 ‹_ = (_, _, _)› ?_
    | with_reducible apply Keep.of_id
    | split
    | dsimp only

theorem State.sleepFlush_keep {m : Nat} {s0 : State} (s : State) (hm : subMask 121700721 m = true) (h : Keep m s0 s) : Keep m s0 (State.sleepFlush s) := by
  refine Keep.lift (f := 121700721) ?_ hm h
  unfold State.sleepFlush
  repeat' first
    | exact rfl
    | with_reducible exact Keep.refl _ _
    | with_reducible assumption
    | with_reducible apply State.flowFlush_keep
    | with_reducible apply State.tmFlush_keep
    | with_reducible apply State.framesEnd_keep
    | with_reducible apply State.bufFree_keep
    | with_reducible apply State.swFlush_keep
    | with_reducible apply State.txaFlush_keep
    | with_reducible apply Keep.ite <;> intro _
    | with_reducible apply Keep.foldl <;> try intro _ _ _
    | with_reducible apply Keep.foldl_snd <;> try intro _ _ _
    | with_reducible refine Keep.of_snd ‹_ = (_, _)› ?_
    | with_reducible refine Keep.of_snd2 ‹_ = (_, _, _)› ?_
    | with_reducible apply Keep.of_id
    | split
    | dsimp only

theorem State.regionBank_keep {m : Nat} {s0 : State} (s : State) (a1 : _) (hm : subMask 133529708 m = true) (h : Keep m s0 s) : Keep m s0 (State.regionBank s a1) := by
  refine Keep.lift (f := 133529708) ?_ hm h
  unfold State.regionBank
  repeat' first
    | exact rfl
    | with_reducible exact Keep.refl _ _
    | with_reducible assumption
    | with_reducible apply State.calUpd_keep
    | with_reducible apply State.unitsLost_keep
    | with_reducible apply State.txaUpd_keep
    | with_reducible apply State.wacUpd_keep
    | with_reducible apply State.klnUpd_keep
    | with_reducible apply State.pkUpd_keep
    | with_reducible apply State.memZero_keep
    | with_reducible apply State.railsOff_keep
    | with_reducible apply State.resetRegs_keep
    | with_reducible apply State.setReg_keep
    | with_reducible apply Keep.ite <;> intro _
    | with_reducible apply Keep.foldl <;> try intro _ _ _
    | with_reducible apply Keep.foldl_snd <;> try intro _ _ _
    | (rewrite [State.mk_eq_updOf]; (with_reducible refine Keep.node 12 ?_ ?_ ?_); · refine Keep.upd 12 ?_ ?_ ?_ ?_ ?_ (fun p hp => ?_); exact rfl; exact rfl; exact rfl; exact rfl; exact rfl; cases p <;> first | exact absurd hp (by decide) | exact rfl)
    | with_reducible refine Keep.of_snd ‹_ = (_, _)› ?_
    | with_reducible refine Keep.of_snd2 ‹_ = (_, _, _)› ?_
    | with_reducible apply Keep.of_id
    | split
    | dsimp only

theorem State.banksLost_keep {m : Nat} {s0 : State} (s : State) (hm : subMask 65600 m = true) (h : Keep m s0 s) : Keep m s0 (State.banksLost s) := by
  refine Keep.lift (f := 65600) ?_ hm h
  unfold State.banksLost
  repeat' first
    | exact rfl
    | with_reducible exact Keep.refl _ _
    | with_reducible assumption
    | with_reducible apply State.memZero_keep
    | with_reducible apply Keep.ite <;> intro _
    | with_reducible apply Keep.foldl <;> try intro _ _ _
    | with_reducible apply Keep.foldl_snd <;> try intro _ _ _
    | with_reducible refine Keep.of_snd ‹_ = (_, _)› ?_
    | with_reducible refine Keep.of_snd2 ‹_ = (_, _, _)› ?_
    | with_reducible apply Keep.of_id
    | split
    | dsimp only

theorem State.slept_keep {m : Nat} {s0 : State} (s : State) (a1 : _) (hm : subMask 16416 m = true) (h : Keep m s0 s) : Keep m s0 (State.slept s a1) := by
  refine Keep.lift (f := 16416) ?_ hm h
  unfold State.slept
  repeat' first
    | exact rfl
    | with_reducible exact Keep.refl _ _
    | with_reducible assumption
    | with_reducible apply State.commit_keep
    | with_reducible apply State.set_keep
    | with_reducible apply State.pwrUpd_keep
    | with_reducible apply Keep.ite <;> intro _
    | with_reducible apply Keep.foldl <;> try intro _ _ _
    | with_reducible apply Keep.foldl_snd <;> try intro _ _ _
    | with_reducible refine Keep.of_snd ‹_ = (_, _)› ?_
    | with_reducible refine Keep.of_snd2 ‹_ = (_, _, _)› ?_
    | with_reducible apply Keep.of_id
    | split
    | dsimp only

theorem State.toBanked_keep {m : Nat} {s0 : State} (s : State) (hm : subMask 134071165 m = true) (h : Keep m s0 s) : Keep m s0 (State.toBanked s) := by
  refine Keep.lift (f := 134071165) ?_ hm h
  unfold State.toBanked
  repeat' first
    | exact rfl
    | with_reducible exact Keep.refl _ _
    | with_reducible assumption
    | with_reducible apply State.txsEnd_keep
    | with_reducible apply State.dfsSave_keep
    | with_reducible apply State.quadSave_keep
    | with_reducible apply State.sleepFlush_keep
    | with_reducible apply State.regionBank_keep
    | with_reducible apply State.resetRegs_keep
    | with_reducible apply State.set_keep
    | with_reducible apply State.banksLost_keep
    | with_reducible apply State.hkaSkip_keep
    | with_reducible apply State.setMode_keep
    | with_reducible apply State.slept_keep
    | with_reducible apply State.radUpd_keep
    | with_reducible apply Keep.ite <;> intro _
    | with_reducible apply Keep.foldl <;> try intro _ _ _
    | with_reducible apply Keep.foldl_snd <;> try intro _ _ _
    | (rewrite [State.mk_eq_updOf]; (with_reducible refine Keep.node 606208 ?_ ?_ ?_); · refine Keep.upd 606208 ?_ ?_ ?_ ?_ ?_ (fun p hp => ?_); exact rfl; exact rfl; exact rfl; exact rfl; exact rfl; cases p <;> first | exact absurd hp (by decide) | exact rfl)
    | with_reducible refine Keep.of_snd ‹_ = (_, _)› ?_
    | with_reducible refine Keep.of_snd2 ‹_ = (_, _, _)› ?_
    | with_reducible apply Keep.of_id
    | split
    | dsimp only

theorem State.toDormant_keep {m : Nat} {s0 : State} (s : State) (hm : subMask 134217597 m = true) (h : Keep m s0 s) : Keep m s0 (State.toDormant s) := by
  refine Keep.lift (f := 134217597) ?_ hm h
  unfold State.toDormant
  repeat' first
    | exact rfl
    | with_reducible exact Keep.refl _ _
    | with_reducible assumption
    | with_reducible apply State.mainOff_keep
    | with_reducible apply State.slept_keep
    | with_reducible apply Keep.ite <;> intro _
    | with_reducible apply Keep.foldl <;> try intro _ _ _
    | with_reducible apply Keep.foldl_snd <;> try intro _ _ _
    | with_reducible refine Keep.of_snd ‹_ = (_, _)› ?_
    | with_reducible refine Keep.of_snd2 ‹_ = (_, _, _)› ?_
    | with_reducible apply Keep.of_id
    | split
    | dsimp only

theorem State.sleepCommit_keep {m : Nat} {s0 : State} (s : State) (a1 : _) (hm : subMask 134217597 m = true) (h : Keep m s0 s) : Keep m s0 (State.sleepCommit s a1) := by
  refine Keep.lift (f := 134217597) ?_ hm h
  unfold State.sleepCommit
  repeat' first
    | exact rfl
    | with_reducible exact Keep.refl _ _
    | with_reducible assumption
    | with_reducible apply State.sleepAbort_keep
    | with_reducible apply State.toBanked_keep
    | with_reducible apply State.toDormant_keep
    | with_reducible apply Keep.ite <;> intro _
    | with_reducible apply Keep.foldl <;> try intro _ _ _
    | with_reducible apply Keep.foldl_snd <;> try intro _ _ _
    | with_reducible refine Keep.of_snd ‹_ = (_, _)› ?_
    | with_reducible refine Keep.of_snd2 ‹_ = (_, _, _)› ?_
    | with_reducible apply Keep.of_id
    | split
    | dsimp only

theorem execPhase1Answer_keep (s : State) {t : State} (h : execPhase1Answer s = .next t) : Keep 134217597 s t := by
  unfold execPhase1Answer at h
  injection h with h
  subst h
  repeat' first
    | exact rfl
    | with_reducible exact Keep.refl _ _
    | with_reducible assumption
    | with_reducible apply State.sleepAbort_keep
    | with_reducible apply State.sleepCommit_keep
    | with_reducible apply State.pwrUpd_keep
    | with_reducible apply Keep.ite <;> intro _
    | with_reducible apply Keep.foldl <;> try intro _ _ _
    | with_reducible apply Keep.foldl_snd <;> try intro _ _ _
    | with_reducible refine Keep.of_snd ‹_ = (_, _)› ?_
    | with_reducible refine Keep.of_snd2 ‹_ = (_, _, _)› ?_
    | with_reducible apply Keep.of_id
    | split
    | dsimp only

theorem execPhase1Timeout_keep (s : State) {t : State} (h : execPhase1Timeout s = .next t) : Keep 17200 s t := by
  unfold execPhase1Timeout at h
  injection h with h
  subst h
  repeat' first
    | exact rfl
    | with_reducible exact Keep.refl _ _
    | with_reducible assumption
    | with_reducible apply State.sleepAbort_keep
    | with_reducible apply Keep.ite <;> intro _
    | with_reducible apply Keep.foldl <;> try intro _ _ _
    | with_reducible apply Keep.foldl_snd <;> try intro _ _ _
    | with_reducible refine Keep.of_snd ‹_ = (_, _)› ?_
    | with_reducible refine Keep.of_snd2 ‹_ = (_, _, _)› ?_
    | with_reducible apply Keep.of_id
    | split
    | dsimp only

theorem execSleepRetry_keep (s : State) {t : State} (h : execSleepRetry s = .next t) : Keep 16416 s t := by
  unfold execSleepRetry at h
  injection h with h
  subst h
  repeat' first
    | exact rfl
    | with_reducible exact Keep.refl _ _
    | with_reducible assumption
    | with_reducible apply State.phaseOne_keep
    | with_reducible apply Keep.ite <;> intro _
    | with_reducible apply Keep.foldl <;> try intro _ _ _
    | with_reducible apply Keep.foldl_snd <;> try intro _ _ _
    | with_reducible refine Keep.of_snd ‹_ = (_, _)› ?_
    | with_reducible refine Keep.of_snd2 ‹_ = (_, _, _)› ?_
    | with_reducible apply Keep.of_id
    | split
    | dsimp only

theorem wrSleep_keep {m : Nat} {s0 : State} (a0 : _) (a1 : _) (a2 : _) (a3 : _) (s : State) (hm : subMask 16688 m = true) (h : Keep m s0 s) : Keep m s0 (wrSleep a0 a1 a2 a3 s) := by
  refine Keep.lift (f := 16688) ?_ hm h
  unfold wrSleep
  repeat' first
    | exact rfl
    | with_reducible exact Keep.refl _ _
    | with_reducible assumption
    | with_reducible apply State.sleepEnd_keep
    | with_reducible apply State.sleepAsk_keep
    | with_reducible apply storeWord_keep
    | with_reducible apply Keep.ite <;> intro _
    | with_reducible apply Keep.foldl <;> try intro _ _ _
    | with_reducible apply Keep.foldl_snd <;> try intro _ _ _
    | with_reducible refine Keep.of_snd ‹_ = (_, _)› ?_
    | with_reducible refine Keep.of_snd2 ‹_ = (_, _, _)› ?_
    | with_reducible apply Keep.of_id
    | split
    | dsimp only

theorem execSleepBanked_keep (a0 : _) (a1 : _) (s : State) {t : State} (h : execSleepBanked a0 a1 s = .next t) : Keep 17202 s t := by
  unfold execSleepBanked at h
  injection h with h
  subst h
  repeat' first
    | exact rfl
    | with_reducible exact Keep.refl _ _
    | with_reducible assumption
    | with_reducible refine writeReg_keep _ _ _ _ _ _ _ (fun _ _ _ _ _ _ => ?_) ?_ ?_
    | with_reducible apply wrSleep_keep
    | with_reducible apply Keep.ite <;> intro _
    | with_reducible apply Keep.foldl <;> try intro _ _ _
    | with_reducible apply Keep.foldl_snd <;> try intro _ _ _
    | with_reducible refine Keep.of_snd ‹_ = (_, _)› ?_
    | with_reducible refine Keep.of_snd2 ‹_ = (_, _, _)› ?_
    | with_reducible apply Keep.of_id
    | split
    | dsimp only

theorem execSleepDormant_keep (a0 : _) (a1 : _) (s : State) {t : State} (h : execSleepDormant a0 a1 s = .next t) : Keep 17202 s t := by
  unfold execSleepDormant at h
  injection h with h
  subst h
  repeat' first
    | exact rfl
    | with_reducible exact Keep.refl _ _
    | with_reducible assumption
    | with_reducible refine writeReg_keep _ _ _ _ _ _ _ (fun _ _ _ _ _ _ => ?_) ?_ ?_
    | with_reducible apply wrSleep_keep
    | with_reducible apply Keep.ite <;> intro _
    | with_reducible apply Keep.foldl <;> try intro _ _ _
    | with_reducible apply Keep.foldl_snd <;> try intro _ _ _
    | with_reducible refine Keep.of_snd ‹_ = (_, _)› ?_
    | with_reducible refine Keep.of_snd2 ‹_ = (_, _, _)› ?_
    | with_reducible apply Keep.of_id
    | split
    | dsimp only

theorem execSleepCancel_keep (a0 : _) (a1 : _) (s : State) {t : State} (h : execSleepCancel a0 a1 s = .next t) : Keep 17202 s t := by
  unfold execSleepCancel at h
  injection h with h
  subst h
  repeat' first
    | exact rfl
    | with_reducible exact Keep.refl _ _
    | with_reducible assumption
    | with_reducible refine writeReg_keep _ _ _ _ _ _ _ (fun _ _ _ _ _ _ => ?_) ?_ ?_
    | with_reducible apply wrSleep_keep
    | with_reducible apply Keep.ite <;> intro _
    | with_reducible apply Keep.foldl <;> try intro _ _ _
    | with_reducible apply Keep.foldl_snd <;> try intro _ _ _
    | with_reducible refine Keep.of_snd ‹_ = (_, _)› ?_
    | with_reducible refine Keep.of_snd2 ‹_ = (_, _, _)› ?_
    | with_reducible apply Keep.of_id
    | split
    | dsimp only

end Sys2Proof.Machine
end

