-- ==== Sys2Proof/Laws/KeepPush.lean ====
section
/-! SUPPORT. What each operation of Machine/Push.lean leaves alone. -/

set_option Elab.async false

namespace Sys2Proof.Machine

theorem State.pushUpd_keep {m : Nat} {s0 : State} (s : State) (a1 : _) (hm : subMask 8192 m = true) (h : Keep m s0 s) : Keep m s0 (State.pushUpd s a1) := by
  refine Keep.lift (f := 8192) ?_ hm h
  unfold State.pushUpd
  repeat' first
    | exact rfl
    | with_reducible exact Keep.refl _ _
    | with_reducible assumption
    | with_reducible apply Keep.ite <;> intro _
    | with_reducible apply Keep.foldl <;> try intro _ _ _
    | with_reducible apply Keep.foldl_snd <;> try intro _ _ _
    | (rewrite [State.mk_eq_updOf]; (with_reducible refine Keep.node 8192 ?_ ?_ ?_); · refine Keep.upd 8192 ?_ ?_ ?_ ?_ ?_ (fun p hp => ?_); exact rfl; exact rfl; exact rfl; exact rfl; exact rfl; cases p <;> first | exact absurd hp (by decide) | exact rfl)
    | with_reducible refine Keep.of_snd ‹_ = (_, _)› ?_
    | with_reducible refine Keep.of_snd2 ‹_ = (_, _, _)› ?_
    | with_reducible apply Keep.of_id
    | split
    | dsimp only

theorem State.bootUpd_keep {m : Nat} {s0 : State} (s : State) (a1 : _) (hm : subMask 4096 m = true) (h : Keep m s0 s) : Keep m s0 (State.bootUpd s a1) := by
  refine Keep.lift (f := 4096) ?_ hm h
  unfold State.bootUpd
  repeat' first
    | exact rfl
    | with_reducible exact Keep.refl _ _
    | with_reducible assumption
    | with_reducible apply Keep.ite <;> intro _
    | with_reducible apply Keep.foldl <;> try intro _ _ _
    | with_reducible apply Keep.foldl_snd <;> try intro _ _ _
    | (rewrite [State.mk_eq_updOf]; (with_reducible refine Keep.node 4096 ?_ ?_ ?_); · refine Keep.upd 4096 ?_ ?_ ?_ ?_ ?_ (fun p hp => ?_); exact rfl; exact rfl; exact rfl; exact rfl; exact rfl; cases p <;> first | exact absurd hp (by decide) | exact rfl)
    | with_reducible refine Keep.of_snd ‹_ = (_, _)› ?_
    | with_reducible refine Keep.of_snd2 ‹_ = (_, _, _)› ?_
    | with_reducible apply Keep.of_id
    | split
    | dsimp only

theorem State.pushShow_keep {m : Nat} {s0 : State} (s : State) (hm : subMask 32 m = true) (h : Keep m s0 s) : Keep m s0 (State.pushShow s) := by
  refine Keep.lift (f := 32) ?_ hm h
  unfold State.pushShow
  repeat' first
    | exact rfl
    | with_reducible exact Keep.refl _ _
    | with_reducible assumption
    | with_reducible apply State.sets_keep
    | with_reducible apply Keep.ite <;> intro _
    | with_reducible apply Keep.foldl <;> try intro _ _ _
    | with_reducible apply Keep.foldl_snd <;> try intro _ _ _
    | with_reducible refine Keep.of_snd ‹_ = (_, _)› ?_
    | with_reducible refine Keep.of_snd2 ‹_ = (_, _, _)› ?_
    | with_reducible apply Keep.of_id
    | split
    | dsimp only

theorem State.reloadFail_keep {m : Nat} {s0 : State} (s : State) (a1 : _) (hm : subMask 3171120 m = true) (h : Keep m s0 s) : Keep m s0 (State.reloadFail s a1) := by
  refine Keep.lift (f := 3171120) ?_ hm h
  unfold State.reloadFail
  repeat' first
    | exact rfl
    | with_reducible exact Keep.refl _ _
    | with_reducible assumption
    | with_reducible apply State.pushEnd_keep
    | with_reducible apply State.setMode_keep
    | with_reducible apply State.set_keep
    | with_reducible apply State.pushUpd_keep
    | with_reducible apply State.raise_keep
    | with_reducible apply Keep.ite <;> intro _
    | with_reducible apply Keep.foldl <;> try intro _ _ _
    | with_reducible apply Keep.foldl_snd <;> try intro _ _ _
    | with_reducible refine Keep.of_snd ‹_ = (_, _)› ?_
    | with_reducible refine Keep.of_snd2 ‹_ = (_, _, _)› ?_
    | with_reducible apply Keep.of_id
    | split
    | dsimp only

theorem State.pushFail_keep {m : Nat} {s0 : State} (s : State) (a1 : _) (hm : subMask 133692284 m = true) (h : Keep m s0 s) : Keep m s0 (State.pushFail s a1) := by
  refine Keep.lift (f := 133692284) ?_ hm h
  unfold State.pushFail
  repeat' first
    | exact rfl
    | with_reducible exact Keep.refl _ _
    | with_reducible assumption
    | with_reducible apply State.bringFail_keep
    | with_reducible apply State.bootUpd_keep
    | with_reducible apply State.pushEnd_keep
    | with_reducible apply State.reloadFail_keep
    | with_reducible apply Keep.ite <;> intro _
    | with_reducible apply Keep.foldl <;> try intro _ _ _
    | with_reducible apply Keep.foldl_snd <;> try intro _ _ _
    | with_reducible refine Keep.of_snd ‹_ = (_, _)› ?_
    | with_reducible refine Keep.of_snd2 ‹_ = (_, _, _)› ?_
    | with_reducible apply Keep.of_id
    | split
    | dsimp only

theorem State.pushDiscard_keep {m : Nat} {s0 : State} (s : State) (hm : subMask 133692284 m = true) (h : Keep m s0 s) : Keep m s0 (State.pushDiscard s) := by
  refine Keep.lift (f := 133692284) ?_ hm h
  unfold State.pushDiscard
  repeat' first
    | exact rfl
    | with_reducible exact Keep.refl _ _
    | with_reducible assumption
    | with_reducible apply State.pushEnd_keep
    | with_reducible apply State.bootUpd_keep
    | with_reducible apply State.unwind_keep
    | with_reducible apply State.reloadFail_keep
    | with_reducible apply Keep.ite <;> intro _
    | with_reducible apply Keep.foldl <;> try intro _ _ _
    | with_reducible apply Keep.foldl_snd <;> try intro _ _ _
    | with_reducible refine Keep.of_snd ‹_ = (_, _)› ?_
    | with_reducible refine Keep.of_snd2 ‹_ = (_, _, _)› ?_
    | with_reducible apply Keep.of_id
    | split
    | dsimp only

theorem State.storeDone_keep {m : Nat} {s0 : State} (s : State) (hm : subMask 8624 m = true) (h : Keep m s0 s) : Keep m s0 (State.storeDone s) := by
  refine Keep.lift (f := 8624) ?_ hm h
  unfold State.storeDone
  repeat' first
    | exact rfl
    | with_reducible exact Keep.refl _ _
    | with_reducible assumption
    | with_reducible apply State.pushEnd_keep
    | with_reducible apply State.fput_keep
    | with_reducible apply Keep.ite <;> intro _
    | with_reducible apply Keep.foldl <;> try intro _ _ _
    | with_reducible apply Keep.foldl_snd <;> try intro _ _ _
    | with_reducible refine Keep.of_snd ‹_ = (_, _)› ?_
    | with_reducible refine Keep.of_snd2 ‹_ = (_, _, _)› ?_
    | with_reducible apply Keep.of_id
    | split
    | dsimp only

theorem State.reloadFence_keep {m : Nat} {s0 : State} (s : State) (a1 : _) (hm : subMask 133686135 m = true) (h : Keep m s0 s) : Keep m s0 (State.reloadFence s a1) := by
  refine Keep.lift (f := 133686135) ?_ hm h
  unfold State.reloadFence
  repeat' first
    | exact rfl
    | with_reducible exact Keep.refl _ _
    | with_reducible assumption
    | with_reducible apply State.regionStop_keep
    | with_reducible apply State.vfLost_keep
    | with_reducible apply State.pushUpd_keep
    | with_reducible apply State.coexSettle_keep
    | with_reducible apply State.fallback_keep
    | with_reducible apply State.pathsCheck_keep
    | with_reducible apply Keep.ite <;> intro _
    | with_reducible apply Keep.foldl <;> try intro _ _ _
    | with_reducible apply Keep.foldl_snd <;> try intro _ _ _
    | with_reducible refine Keep.of_snd ‹_ = (_, _)› ?_
    | with_reducible refine Keep.of_snd2 ‹_ = (_, _, _)› ?_
    | with_reducible apply Keep.of_id
    | split
    | dsimp only

theorem State.pushBegin_keep {m : Nat} {s0 : State} (s : State) (a1 : _) (a2 : _) (a3 : _) (hm : subMask 133686135 m = true) (h : Keep m s0 s) : Keep m s0 (State.pushBegin s a1 a2 a3) := by
  refine Keep.lift (f := 133686135) ?_ hm h
  unfold State.pushBegin
  repeat' first
    | exact rfl
    | with_reducible exact Keep.refl _ _
    | with_reducible assumption
    | with_reducible apply State.pushUpd_keep
    | with_reducible apply State.setReg_keep
    | with_reducible apply State.pushShow_keep
    | with_reducible apply State.reloadFence_keep
    | with_reducible apply Keep.ite <;> intro _
    | with_reducible apply Keep.foldl <;> try intro _ _ _
    | with_reducible apply Keep.foldl_snd <;> try intro _ _ _
    | with_reducible refine Keep.of_snd ‹_ = (_, _)› ?_
    | with_reducible refine Keep.of_snd2 ‹_ = (_, _, _)› ?_
    | with_reducible apply Keep.of_id
    | split
    | dsimp only

theorem State.pushCtl_keep {m : Nat} {s0 : State} (s : State) (a1 : _) (a2 : _) (hm : subMask 133692287 m = true) (h : Keep m s0 s) : Keep m s0 (State.pushCtl s a1 a2) := by
  refine Keep.lift (f := 133692287) ?_ hm h
  unfold State.pushCtl
  repeat' first
    | exact rfl
    | with_reducible exact Keep.refl _ _
    | with_reducible assumption
    | with_reducible apply State.pushStat_keep
    | with_reducible apply State.pushDiscard_keep
    | with_reducible apply State.pushBegin_keep
    | with_reducible apply Keep.ite <;> intro _
    | with_reducible apply Keep.foldl <;> try intro _ _ _
    | with_reducible apply Keep.foldl_snd <;> try intro _ _ _
    | with_reducible refine Keep.of_snd ‹_ = (_, _)› ?_
    | with_reducible refine Keep.of_snd2 ‹_ = (_, _, _)› ?_
    | with_reducible apply Keep.of_id
    | split
    | dsimp only

theorem State.pushWord_keep {m : Nat} {s0 : State} (s : State) (a1 : _) (hm : subMask 8624 m = true) (h : Keep m s0 s) : Keep m s0 (State.pushWord s a1) := by
  refine Keep.lift (f := 8624) ?_ hm h
  unfold State.pushWord
  repeat' first
    | exact rfl
    | with_reducible exact Keep.refl _ _
    | with_reducible assumption
    | with_reducible apply State.pushStat_keep
    | with_reducible apply State.storeDone_keep
    | with_reducible apply State.pushShow_keep
    | with_reducible apply State.pushUpd_keep
    | with_reducible apply Keep.ite <;> intro _
    | with_reducible apply Keep.foldl <;> try intro _ _ _
    | with_reducible apply Keep.foldl_snd <;> try intro _ _ _
    | with_reducible refine Keep.of_snd ‹_ = (_, _)› ?_
    | with_reducible refine Keep.of_snd2 ‹_ = (_, _, _)› ?_
    | with_reducible apply Keep.of_id
    | split
    | dsimp only

theorem wrPush_keep {m : Nat} {s0 : State} (a0 : _) (a1 : _) (a2 : _) (a3 : _) (s : State) (hm : subMask 133692415 m = true) (h : Keep m s0 s) : Keep m s0 (wrPush a0 a1 a2 a3 s) := by
  refine Keep.lift (f := 133692415) ?_ hm h
  unfold wrPush
  repeat' first
    | exact rfl
    | with_reducible exact Keep.refl _ _
    | with_reducible assumption
    | with_reducible apply State.pushCtl_keep
    | with_reducible apply State.pushWord_keep
    | with_reducible apply storeWord_keep
    | with_reducible apply Keep.ite <;> intro _
    | with_reducible apply Keep.foldl <;> try intro _ _ _
    | with_reducible apply Keep.foldl_snd <;> try intro _ _ _
    | with_reducible refine Keep.of_snd ‹_ = (_, _)› ?_
    | with_reducible refine Keep.of_snd2 ‹_ = (_, _, _)› ?_
    | with_reducible apply Keep.of_id
    | split
    | dsimp only

theorem State.pushDrain_keep {m : Nat} {s0 : State} (a0 : _) (s : State) (hm : subMask 133692415 m = true) (h : Keep m s0 s) : Keep m s0 (State.pushDrain a0 s) := by
  induction a0 generalizing s with
  | zero => unfold State.pushDrain; exact h
  | succ n ih =>
    unfold State.pushDrain
    repeat' first
      | exact rfl
      | exact subMask_trans rfl hm
      | with_reducible apply ih
      | with_reducible exact Keep.refl _ _
      | with_reducible assumption
      | with_reducible apply State.refuse_keep
      | with_reducible refine State.unhold_keep _ _ _ (fun _ _ _ _ => ?_) ?_ ?_
      | with_reducible apply wrPush_keep
      | with_reducible apply Keep.ite <;> intro _
      | with_reducible apply Keep.foldl <;> try intro _ _ _
      | with_reducible apply Keep.foldl_snd <;> try intro _ _ _
      | (rewrite [State.mk_eq_updOf]; (with_reducible refine Keep.node 4 ?_ ?_ ?_); · refine Keep.upd 4 ?_ ?_ ?_ ?_ ?_ (fun p hp => ?_); exact rfl; exact rfl; exact rfl; exact rfl; exact rfl; cases p <;> first | exact absurd hp (by decide) | exact rfl)
      | with_reducible refine Keep.of_snd ‹_ = (_, _)› ?_
      | with_reducible refine Keep.of_snd2 ‹_ = (_, _, _)› ?_
      | with_reducible apply Keep.of_id
      | split
      | dsimp only

theorem State.pushGo_keep {m : Nat} {s0 : State} (s : State) (hm : subMask 133692415 m = true) (h : Keep m s0 s) : Keep m s0 (State.pushGo s) := by
  refine Keep.lift (f := 133692415) ?_ hm h
  unfold State.pushGo
  repeat' first
    | exact rfl
    | with_reducible exact Keep.refl _ _
    | with_reducible assumption
    | with_reducible apply State.pushDrain_keep
    | with_reducible apply State.pushShow_keep
    | with_reducible apply Keep.ite <;> intro _
    | with_reducible apply Keep.foldl <;> try intro _ _ _
    | with_reducible apply Keep.foldl_snd <;> try intro _ _ _
    | with_reducible refine Keep.of_snd ‹_ = (_, _)› ?_
    | with_reducible refine Keep.of_snd2 ‹_ = (_, _, _)› ?_
    | with_reducible apply Keep.of_id
    | split
    | dsimp only

theorem State.pushRow_keep {m : Nat} {s0 : State} (s : State) (a1 : _) (a2 : _) (a3 : _) (hm : subMask 133692415 m = true) (h : Keep m s0 s) : Keep m s0 (State.pushRow s a1 a2 a3) := by
  refine Keep.lift (f := 133692415) ?_ hm h
  unfold State.pushRow
  repeat' first
    | exact rfl
    | with_reducible exact Keep.refl _ _
    | with_reducible assumption
    | with_reducible apply State.pushGo_keep
    | with_reducible refine writeReg_keep _ _ _ _ _ _ _ (fun _ _ _ _ _ _ => ?_) ?_ ?_
    | with_reducible apply wrPush_keep
    | with_reducible apply Keep.ite <;> intro _
    | with_reducible apply Keep.foldl <;> try intro _ _ _
    | with_reducible apply Keep.foldl_snd <;> try intro _ _ _
    | with_reducible refine Keep.of_snd ‹_ = (_, _)› ?_
    | with_reducible refine Keep.of_snd2 ‹_ = (_, _, _)› ?_
    | with_reducible apply Keep.of_id
    | split
    | dsimp only

theorem execPushAbort_keep (a0 : _) (a1 : _) (s : State) {t : State} (h : execPushAbort a0 a1 s = .next t) : Keep 133692415 s t := by
  unfold execPushAbort at h
  injection h with h
  subst h
  repeat' first
    | exact rfl
    | with_reducible exact Keep.refl _ _
    | with_reducible assumption
    | with_reducible apply State.pushRow_keep
    | with_reducible apply Keep.ite <;> intro _
    | with_reducible apply Keep.foldl <;> try intro _ _ _
    | with_reducible apply Keep.foldl_snd <;> try intro _ _ _
    | with_reducible refine Keep.of_snd ‹_ = (_, _)› ?_
    | with_reducible refine Keep.of_snd2 ‹_ = (_, _, _)› ?_
    | with_reducible apply Keep.of_id
    | split
    | dsimp only

theorem execOpenBoot_keep (a0 : _) (a1 : _) (s : State) {t : State} (h : execOpenBoot a0 a1 s = .next t) : Keep 133692415 s t := by
  unfold execOpenBoot at h
  injection h with h
  subst h
  repeat' first
    | exact rfl
    | with_reducible exact Keep.refl _ _
    | with_reducible assumption
    | with_reducible apply State.pushRow_keep
    | with_reducible apply Keep.ite <;> intro _
    | with_reducible apply Keep.foldl <;> try intro _ _ _
    | with_reducible apply Keep.foldl_snd <;> try intro _ _ _
    | with_reducible refine Keep.of_snd ‹_ = (_, _)› ?_
    | with_reducible refine Keep.of_snd2 ‹_ = (_, _, _)› ?_
    | with_reducible apply Keep.of_id
    | split
    | dsimp only

theorem execOpenReload_keep (a0 : _) (a1 : _) (s : State) {t : State} (h : execOpenReload a0 a1 s = .next t) : Keep 133692415 s t := by
  unfold execOpenReload at h
  injection h with h
  subst h
  repeat' first
    | exact rfl
    | with_reducible exact Keep.refl _ _
    | with_reducible assumption
    | with_reducible apply State.pushRow_keep
    | with_reducible apply Keep.ite <;> intro _
    | with_reducible apply Keep.foldl <;> try intro _ _ _
    | with_reducible apply Keep.foldl_snd <;> try intro _ _ _
    | with_reducible refine Keep.of_snd ‹_ = (_, _)› ?_
    | with_reducible refine Keep.of_snd2 ‹_ = (_, _, _)› ?_
    | with_reducible apply Keep.of_id
    | split
    | dsimp only

theorem execOpenStoreA_keep (a0 : _) (a1 : _) (s : State) {t : State} (h : execOpenStoreA a0 a1 s = .next t) : Keep 133692415 s t := by
  unfold execOpenStoreA at h
  injection h with h
  subst h
  repeat' first
    | exact rfl
    | with_reducible exact Keep.refl _ _
    | with_reducible assumption
    | with_reducible apply State.pushRow_keep
    | with_reducible apply Keep.ite <;> intro _
    | with_reducible apply Keep.foldl <;> try intro _ _ _
    | with_reducible apply Keep.foldl_snd <;> try intro _ _ _
    | with_reducible refine Keep.of_snd ‹_ = (_, _)› ?_
    | with_reducible refine Keep.of_snd2 ‹_ = (_, _, _)› ?_
    | with_reducible apply Keep.of_id
    | split
    | dsimp only

theorem execOpenStoreB_keep (a0 : _) (a1 : _) (s : State) {t : State} (h : execOpenStoreB a0 a1 s = .next t) : Keep 133692415 s t := by
  unfold execOpenStoreB at h
  injection h with h
  subst h
  repeat' first
    | exact rfl
    | with_reducible exact Keep.refl _ _
    | with_reducible assumption
    | with_reducible apply State.pushRow_keep
    | with_reducible apply Keep.ite <;> intro _
    | with_reducible apply Keep.foldl <;> try intro _ _ _
    | with_reducible apply Keep.foldl_snd <;> try intro _ _ _
    | with_reducible refine Keep.of_snd ‹_ = (_, _)› ?_
    | with_reducible refine Keep.of_snd2 ‹_ = (_, _, _)› ?_
    | with_reducible apply Keep.of_id
    | split
    | dsimp only

theorem execReloadFromA_keep (a0 : _) (a1 : _) (s : State) {t : State} (h : execReloadFromA a0 a1 s = .next t) : Keep 133692415 s t := by
  unfold execReloadFromA at h
  injection h with h
  subst h
  repeat' first
    | exact rfl
    | with_reducible exact Keep.refl _ _
    | with_reducible assumption
    | with_reducible apply State.pushRow_keep
    | with_reducible apply Keep.ite <;> intro _
    | with_reducible apply Keep.foldl <;> try intro _ _ _
    | with_reducible apply Keep.foldl_snd <;> try intro _ _ _
    | with_reducible refine Keep.of_snd ‹_ = (_, _)› ?_
    | with_reducible refine Keep.of_snd2 ‹_ = (_, _, _)› ?_
    | with_reducible apply Keep.of_id
    | split
    | dsimp only

theorem execReloadFromB_keep (a0 : _) (a1 : _) (s : State) {t : State} (h : execReloadFromB a0 a1 s = .next t) : Keep 133692415 s t := by
  unfold execReloadFromB at h
  injection h with h
  subst h
  repeat' first
    | exact rfl
    | with_reducible exact Keep.refl _ _
    | with_reducible assumption
    | with_reducible apply State.pushRow_keep
    | with_reducible apply Keep.ite <;> intro _
    | with_reducible apply Keep.foldl <;> try intro _ _ _
    | with_reducible apply Keep.foldl_snd <;> try intro _ _ _
    | with_reducible refine Keep.of_snd ‹_ = (_, _)› ?_
    | with_reducible refine Keep.of_snd2 ‹_ = (_, _, _)› ?_
    | with_reducible apply Keep.of_id
    | split
    | dsimp only

theorem execAoPushData_keep (a0 : _) (a1 : _) (s : State) {t : State} (h : execAoPushData a0 a1 s = .next t) : Keep 133692415 s t := by
  unfold execAoPushData at h
  injection h with h
  subst h
  repeat' first
    | exact rfl
    | with_reducible exact Keep.refl _ _
    | with_reducible assumption
    | with_reducible refine writeOrHold_keep _ _ _ _ _ _ _ (fun _ _ _ _ _ _ => ?_) ?_ ?_
    | with_reducible apply wrPush_keep
    | with_reducible apply Keep.ite <;> intro _
    | with_reducible apply Keep.foldl <;> try intro _ _ _
    | with_reducible apply Keep.foldl_snd <;> try intro _ _ _
    | with_reducible refine Keep.of_snd ‹_ = (_, _)› ?_
    | with_reducible refine Keep.of_snd2 ‹_ = (_, _, _)› ?_
    | with_reducible apply Keep.of_id
    | split
    | dsimp only

theorem State.imgVerified_keep {m : Nat} {s0 : State} (s : State) (hm : subMask 12416 m = true) (h : Keep m s0 s) : Keep m s0 (State.imgVerified s) := by
  refine Keep.lift (f := 12416) ?_ hm h
  unfold State.imgVerified
  repeat' first
    | exact rfl
    | with_reducible exact Keep.refl _ _
    | with_reducible assumption
    | with_reducible apply State.pushUpd_keep
    | with_reducible apply State.bootUpd_keep
    | with_reducible apply State.fput_keep
    | with_reducible apply Keep.ite <;> intro _
    | with_reducible apply Keep.foldl <;> try intro _ _ _
    | with_reducible apply Keep.foldl_snd <;> try intro _ _ _
    | with_reducible refine Keep.of_snd ‹_ = (_, _)› ?_
    | with_reducible refine Keep.of_snd2 ‹_ = (_, _, _)› ?_
    | with_reducible apply Keep.of_id
    | split
    | dsimp only

theorem execImageVerify_keep (a0 : _) (s : State) {t : State} (h : execImageVerify a0 s = .next t) : Keep 133692415 s t := by
  unfold execImageVerify at h
  injection h with h
  subst h
  repeat' first
    | exact rfl
    | with_reducible exact Keep.refl _ _
    | with_reducible assumption
    | with_reducible apply State.pushGo_keep
    | with_reducible apply State.imgVerified_keep
    | with_reducible apply State.bringFail_keep
    | with_reducible apply State.pushFail_keep
    | with_reducible apply Keep.ite <;> intro _
    | with_reducible apply Keep.foldl <;> try intro _ _ _
    | with_reducible apply Keep.foldl_snd <;> try intro _ _ _
    | with_reducible refine Keep.of_snd ‹_ = (_, _)› ?_
    | with_reducible refine Keep.of_snd2 ‹_ = (_, _, _)› ?_
    | with_reducible apply Keep.of_id
    | split
    | dsimp only

theorem State.slotSelect_keep {m : Nat} {s0 : State} (s : State) (hm : subMask 4912 m = true) (h : Keep m s0 s) : Keep m s0 (State.slotSelect s) := by
  refine Keep.lift (f := 4912) ?_ hm h
  unfold State.slotSelect
  repeat' first
    | exact rfl
    | with_reducible exact Keep.refl _ _
    | with_reducible assumption
    | with_reducible apply State.slotShow_keep
    | with_reducible apply State.trySlot_keep
    | with_reducible apply State.bootUpd_keep
    | with_reducible apply State.bringStop_keep
    | with_reducible apply Keep.ite <;> intro _
    | with_reducible apply Keep.foldl <;> try intro _ _ _
    | with_reducible apply Keep.foldl_snd <;> try intro _ _ _
    | with_reducible refine Keep.of_snd ‹_ = (_, _)› ?_
    | with_reducible refine Keep.of_snd2 ‹_ = (_, _, _)› ?_
    | with_reducible apply Keep.of_id
    | split
    | dsimp only

theorem execEnrolment_keep (s : State) {t : State} (h : execEnrolment s = .next t) : Keep 134216703 s t := by
  unfold execEnrolment at h
  injection h with h
  subst h
  repeat' first
    | exact rfl
    | with_reducible exact Keep.refl _ _
    | with_reducible assumption
    | with_reducible apply State.pushGo_keep
    | with_reducible apply State.pushEnd_keep
    | with_reducible apply State.keysShow_keep
    | with_reducible apply State.klnUpd_keep
    | with_reducible apply State.alertForget_keep
    | with_reducible apply State.sets_keep
    | with_reducible apply State.slotSelect_keep
    | with_reducible apply Keep.ite <;> intro _
    | with_reducible apply Keep.foldl <;> try intro _ _ _
    | with_reducible apply Keep.foldl_snd <;> try intro _ _ _
    | with_reducible refine Keep.of_snd ‹_ = (_, _)› ?_
    | with_reducible refine Keep.of_snd2 ‹_ = (_, _, _)› ?_
    | with_reducible apply Keep.of_id
    | split
    | dsimp only

end Sys2Proof.Machine
end

