-- ==== Sys2Proof/Laws/KeepRegsAll.lean ====
section
/-! SUPPORT. What each operation of Machine/RegsAll.lean leaves alone. -/

set_option Elab.async false

namespace Sys2Proof.Machine

theorem State.windowsPast_keep {m : Nat} {s0 : State} (s : State) (hm : subMask 1048608 m = true) (h : Keep m s0 s) : Keep m s0 (State.windowsPast s) := by
  refine Keep.lift (f := 1048608) ?_ hm h
  unfold State.windowsPast
  repeat' first
    | exact rfl
    | with_reducible exact Keep.refl _ _
    | with_reducible assumption
    | with_reducible apply State.calCancel_keep
    | with_reducible apply Keep.ite <;> intro _
    | with_reducible apply Keep.foldl <;> try intro _ _ _
    | with_reducible apply Keep.foldl_snd <;> try intro _ _ _
    | with_reducible refine Keep.of_snd ‹_ = (_, _)› ?_
    | with_reducible refine Keep.of_snd2 ‹_ = (_, _, _)› ?_
    | with_reducible apply Keep.of_id
    | split
    | dsimp only

theorem State.afterStep_keep {m : Nat} {s0 : State} (s : State) (a1 : _) (hm : subMask 76546080 m = true) (h : Keep m s0 s) : Keep m s0 (State.afterStep s a1) := by
  refine Keep.lift (f := 76546080) ?_ hm h
  unfold State.afterStep
  repeat' first
    | exact rfl
    | with_reducible exact Keep.refl _ _
    | with_reducible assumption
    | with_reducible apply State.fhStep_keep
    | with_reducible apply State.restackCancel_keep
    | with_reducible apply State.windowsPast_keep
    | with_reducible apply State.gateSync_keep
    | with_reducible apply Keep.ite <;> intro _
    | with_reducible apply Keep.foldl <;> try intro _ _ _
    | with_reducible apply Keep.foldl_snd <;> try intro _ _ _
    | with_reducible refine Keep.of_snd ‹_ = (_, _)› ?_
    | with_reducible refine Keep.of_snd2 ‹_ = (_, _, _)› ?_
    | with_reducible apply Keep.of_id
    | split
    | dsimp only

theorem wrTime_keep {m : Nat} {s0 : State} (a0 : _) (a1 : _) (a2 : _) (a3 : _) (s : State) (hm : subMask 76547888 m = true) (h : Keep m s0 s) : Keep m s0 (wrTime a0 a1 a2 a3 s) := by
  refine Keep.lift (f := 76547888) ?_ hm h
  unfold wrTime
  repeat' first
    | exact rfl
    | with_reducible exact Keep.refl _ _
    | with_reducible assumption
    | with_reducible apply State.ntuCtl_keep
    | with_reducible apply State.afterStep_keep
    | with_reducible apply State.afcUnlock_keep
    | with_reducible apply wrNtu_keep
    | with_reducible apply Keep.ite <;> intro _
    | with_reducible apply Keep.foldl <;> try intro _ _ _
    | with_reducible apply Keep.foldl_snd <;> try intro _ _ _
    | with_reducible refine Keep.of_snd ‹_ = (_, _)› ?_
    | with_reducible refine Keep.of_snd2 ‹_ = (_, _, _)› ?_
    | with_reducible apply Keep.of_id
    | split
    | dsimp only

theorem State.timeCtl_keep {m : Nat} {s0 : State} (s : State) (a1 : _) (a2 : _) (hm : subMask 76547890 m = true) (h : Keep m s0 s) : Keep m s0 (State.timeCtl s a1 a2) := by
  refine Keep.lift (f := 76547890) ?_ hm h
  unfold State.timeCtl
  repeat' first
    | exact rfl
    | with_reducible exact Keep.refl _ _
    | with_reducible assumption
    | with_reducible refine writeReg_keep _ _ _ _ _ _ _ (fun _ _ _ _ _ _ => ?_) ?_ ?_
    | with_reducible apply wrTime_keep
    | with_reducible apply Keep.ite <;> intro _
    | with_reducible apply Keep.foldl <;> try intro _ _ _
    | with_reducible apply Keep.foldl_snd <;> try intro _ _ _
    | with_reducible refine Keep.of_snd ‹_ = (_, _)› ?_
    | with_reducible refine Keep.of_snd2 ‹_ = (_, _, _)› ?_
    | with_reducible apply Keep.of_id
    | split
    | dsimp only

theorem execNtuAdj_keep (a0 : _) (s : State) {t : State} (h : execNtuAdj a0 s = .next t) : Keep 76547890 s t := by
  unfold execNtuAdj at h
  injection h with h
  subst h
  repeat' first
    | exact rfl
    | with_reducible exact Keep.refl _ _
    | with_reducible assumption
    | with_reducible apply State.timeCtl_keep
    | with_reducible apply Keep.ite <;> intro _
    | with_reducible apply Keep.foldl <;> try intro _ _ _
    | with_reducible apply Keep.foldl_snd <;> try intro _ _ _
    | with_reducible refine Keep.of_snd ‹_ = (_, _)› ?_
    | with_reducible refine Keep.of_snd2 ‹_ = (_, _, _)› ?_
    | with_reducible apply Keep.of_id
    | split
    | dsimp only

theorem execNtuSet_keep (a0 : _) (s : State) {t : State} (h : execNtuSet a0 s = .next t) : Keep 76547890 s t := by
  unfold execNtuSet at h
  injection h with h
  subst h
  repeat' first
    | exact rfl
    | with_reducible exact Keep.refl _ _
    | with_reducible assumption
    | with_reducible apply State.timeCtl_keep
    | with_reducible apply Keep.ite <;> intro _
    | with_reducible apply Keep.foldl <;> try intro _ _ _
    | with_reducible apply Keep.foldl_snd <;> try intro _ _ _
    | with_reducible refine Keep.of_snd ‹_ = (_, _)› ?_
    | with_reducible refine Keep.of_snd2 ‹_ = (_, _, _)› ?_
    | with_reducible apply Keep.of_id
    | split
    | dsimp only

theorem execNtuForceAdj_keep (a0 : _) (s : State) {t : State} (h : execNtuForceAdj a0 s = .next t) : Keep 76547890 s t := by
  unfold execNtuForceAdj at h
  injection h with h
  subst h
  repeat' first
    | exact rfl
    | with_reducible exact Keep.refl _ _
    | with_reducible assumption
    | with_reducible apply State.timeCtl_keep
    | with_reducible apply Keep.ite <;> intro _
    | with_reducible apply Keep.foldl <;> try intro _ _ _
    | with_reducible apply Keep.foldl_snd <;> try intro _ _ _
    | with_reducible refine Keep.of_snd ‹_ = (_, _)› ?_
    | with_reducible refine Keep.of_snd2 ‹_ = (_, _, _)› ?_
    | with_reducible apply Keep.of_id
    | split
    | dsimp only

theorem execNtuForceSet_keep (a0 : _) (s : State) {t : State} (h : execNtuForceSet a0 s = .next t) : Keep 76547890 s t := by
  unfold execNtuForceSet at h
  injection h with h
  subst h
  repeat' first
    | exact rfl
    | with_reducible exact Keep.refl _ _
    | with_reducible assumption
    | with_reducible apply State.timeCtl_keep
    | with_reducible apply Keep.ite <;> intro _
    | with_reducible apply Keep.foldl <;> try intro _ _ _
    | with_reducible apply Keep.foldl_snd <;> try intro _ _ _
    | with_reducible refine Keep.of_snd ‹_ = (_, _)› ?_
    | with_reducible refine Keep.of_snd2 ‹_ = (_, _, _)› ?_
    | with_reducible apply Keep.of_id
    | split
    | dsimp only

theorem execNtuUnlock_keep (a0 : _) (s : State) {t : State} (h : execNtuUnlock a0 s = .next t) : Keep 76547890 s t := by
  unfold execNtuUnlock at h
  injection h with h
  subst h
  repeat' first
    | exact rfl
    | with_reducible exact Keep.refl _ _
    | with_reducible assumption
    | with_reducible apply State.timeCtl_keep
    | with_reducible apply Keep.ite <;> intro _
    | with_reducible apply Keep.foldl <;> try intro _ _ _
    | with_reducible apply Keep.foldl_snd <;> try intro _ _ _
    | with_reducible refine Keep.of_snd ‹_ = (_, _)› ?_
    | with_reducible refine Keep.of_snd2 ‹_ = (_, _, _)› ?_
    | with_reducible apply Keep.of_id
    | split
    | dsimp only

theorem wrAo_keep {m : Nat} {s0 : State} (a0 : _) (a1 : _) (a2 : _) (a3 : _) (s : State) (hm : subMask 544 m = true) (h : Keep m s0 s) : Keep m s0 (wrAo a0 a1 a2 a3 s) := by
  refine Keep.lift (f := 544) ?_ hm h
  unfold wrAo
  repeat' first
    | exact rfl
    | with_reducible exact Keep.refl _ _
    | with_reducible assumption
    | with_reducible apply storeWord_keep
    | with_reducible apply Keep.ite <;> intro _
    | with_reducible apply Keep.foldl <;> try intro _ _ _
    | with_reducible apply Keep.foldl_snd <;> try intro _ _ _
    | (rewrite [State.mk_eq_updOf]; (with_reducible refine Keep.node 512 ?_ ?_ ?_); · refine Keep.upd 512 ?_ ?_ ?_ ?_ ?_ (fun p hp => ?_); exact rfl; exact rfl; exact rfl; exact rfl; exact rfl; cases p <;> first | exact absurd hp (by decide) | exact rfl)
    | with_reducible refine Keep.of_snd ‹_ = (_, _)› ?_
    | with_reducible refine Keep.of_snd2 ‹_ = (_, _, _)› ?_
    | with_reducible apply Keep.of_id
    | split
    | dsimp only

theorem rdAo_keep {m : Nat} {s0 : State} (a0 : _) (a1 : _) (a2 : _) (s : State) (hm : subMask 304 m = true) (h : Keep m s0 s) : Keep m s0 (rdAo a0 a1 a2 s).2 := by
  refine Keep.lift (f := 304) ?_ hm h
  unfold rdAo
  repeat' first
    | exact rfl
    | with_reducible exact Keep.refl _ _
    | with_reducible assumption
    | with_reducible apply loadWord_keep
    | with_reducible apply Keep.ite <;> intro _
    | with_reducible apply Keep.foldl <;> try intro _ _ _
    | with_reducible apply Keep.foldl_snd <;> try intro _ _ _
    | with_reducible refine Keep.of_snd ‹_ = (_, _)› ?_
    | with_reducible refine Keep.of_snd2 ‹_ = (_, _, _)› ?_
    | with_reducible apply Keep.of_id
    | split
    | dsimp only

theorem wrAll_keep {m : Nat} {s0 : State} (a0 : _) (a1 : _) (a2 : _) (a3 : _) (s : State) (hm : subMask 134217727 m = true) (h : Keep m s0 s) : Keep m s0 (wrAll a0 a1 a2 a3 s) := by
  refine Keep.lift (f := 134217727) ?_ hm h
  unfold wrAll
  repeat' first
    | exact rfl
    | with_reducible exact Keep.refl _ _
    | with_reducible assumption
    | with_reducible apply wrQuad_keep
    | with_reducible apply wrArray_keep
    | with_reducible apply wrCal_keep
    | with_reducible apply wrPhy_keep
    | with_reducible apply wrTxa_keep
    | with_reducible apply wrFhu_keep
    | with_reducible apply wrRkn_keep
    | with_reducible apply wrWac_keep
    | with_reducible apply wrFlw_keep
    | with_reducible apply wrTmg_keep
    | with_reducible apply storeWord_keep
    | with_reducible apply wrKln_keep
    | with_reducible apply wrTly_keep
    | with_reducible apply wrPort_keep
    | with_reducible apply wrTime_keep
    | with_reducible apply wrHka_keep
    | with_reducible apply wrPower_keep
    | with_reducible apply wrSleep_keep
    | with_reducible apply State.pushGo_keep
    | with_reducible apply wrPush_keep
    | with_reducible apply wrCross_keep
    | with_reducible apply wrAo_keep
    | with_reducible apply Keep.ite <;> intro _
    | with_reducible apply Keep.foldl <;> try intro _ _ _
    | with_reducible apply Keep.foldl_snd <;> try intro _ _ _
    | with_reducible refine Keep.of_snd ‹_ = (_, _)› ?_
    | with_reducible refine Keep.of_snd2 ‹_ = (_, _, _)› ?_
    | with_reducible apply Keep.of_id
    | split
    | dsimp only

theorem rdAll_keep {m : Nat} {s0 : State} (a0 : _) (a1 : _) (a2 : _) (s : State) (hm : subMask 66225456 m = true) (h : Keep m s0 s) : Keep m s0 (rdAll a0 a1 a2 s).2 := by
  refine Keep.lift (f := 66225456) ?_ hm h
  unfold rdAll
  repeat' first
    | exact rfl
    | with_reducible exact Keep.refl _ _
    | with_reducible assumption
    | with_reducible apply rdQuad_keep
    | with_reducible apply rdArray_keep
    | with_reducible apply rdCal_keep
    | with_reducible apply rdPhy_keep
    | with_reducible apply rdTxa_keep
    | with_reducible apply rdFhu_keep
    | with_reducible apply rdRkn_keep
    | with_reducible apply rdWac_keep
    | with_reducible apply rdFlw_keep
    | with_reducible apply rdTmg_keep
    | with_reducible apply rdMem_keep
    | with_reducible apply rdKln_keep
    | with_reducible apply rdTly_keep
    | with_reducible apply rdNtu_keep
    | with_reducible apply rdHka_keep
    | with_reducible apply rdAo_keep
    | with_reducible apply loadWord_keep
    | with_reducible apply Keep.ite <;> intro _
    | with_reducible apply Keep.foldl <;> try intro _ _ _
    | with_reducible apply Keep.foldl_snd <;> try intro _ _ _
    | with_reducible refine Keep.of_snd ‹_ = (_, _)› ?_
    | with_reducible refine Keep.of_snd2 ‹_ = (_, _, _)› ?_
    | with_reducible apply Keep.of_id
    | split
    | dsimp only

theorem State.regRead_keep {m : Nat} {s0 : State} (s : State) (a1 : _) (a2 : _) (a3 : _) (hm : subMask 66225970 m = true) (h : Keep m s0 s) : Keep m s0 (State.regRead s a1 a2 a3) := by
  refine Keep.lift (f := 66225970) ?_ hm h
  unfold State.regRead
  repeat' first
    | exact rfl
    | with_reducible exact Keep.refl _ _
    | with_reducible assumption
    | with_reducible refine readReg_keep _ _ _ _ _ _ (fun _ _ _ _ _ => ?_) ?_ ?_
    | with_reducible apply rdAll_keep
    | with_reducible apply Keep.ite <;> intro _
    | with_reducible apply Keep.foldl <;> try intro _ _ _
    | with_reducible apply Keep.foldl_snd <;> try intro _ _ _
    | with_reducible refine Keep.of_snd ‹_ = (_, _)› ?_
    | with_reducible refine Keep.of_snd2 ‹_ = (_, _, _)› ?_
    | with_reducible apply Keep.of_id
    | split
    | dsimp only

theorem State.regWrite_keep {m : Nat} {s0 : State} (s : State) (a1 : _) (a2 : _) (a3 : _) (a4 : _) (hm : subMask 134217727 m = true) (h : Keep m s0 s) : Keep m s0 (State.regWrite s a1 a2 a3 a4) := by
  refine Keep.lift (f := 134217727) ?_ hm h
  unfold State.regWrite
  repeat' first
    | exact rfl
    | with_reducible exact Keep.refl _ _
    | with_reducible assumption
    | with_reducible refine writeOrHold_keep _ _ _ _ _ _ _ (fun _ _ _ _ _ _ => ?_) ?_ ?_
    | with_reducible apply wrAll_keep
    | with_reducible refine writeReg_keep _ _ _ _ _ _ _ (fun _ _ _ _ _ _ => ?_) ?_ ?_
    | with_reducible apply Keep.ite <;> intro _
    | with_reducible apply Keep.foldl <;> try intro _ _ _
    | with_reducible apply Keep.foldl_snd <;> try intro _ _ _
    | with_reducible refine Keep.of_snd ‹_ = (_, _)› ?_
    | with_reducible refine Keep.of_snd2 ‹_ = (_, _, _)› ?_
    | with_reducible apply Keep.of_id
    | split
    | dsimp only

theorem State.memLoad_keep {m : Nat} {s0 : State} (s : State) (a1 : _) (a2 : _) (a3 : _) (a4 : _) (hm : subMask 818 m = true) (h : Keep m s0 s) : Keep m s0 (State.memLoad s a1 a2 a3 a4) := by
  refine Keep.lift (f := 818) ?_ hm h
  unfold State.memLoad
  repeat' first
    | exact rfl
    | with_reducible exact Keep.refl _ _
    | with_reducible assumption
    | with_reducible apply State.refuse_keep
    | with_reducible apply State.memRead_keep
    | with_reducible apply State.answer_keep
    | with_reducible apply Keep.ite <;> intro _
    | with_reducible apply Keep.foldl <;> try intro _ _ _
    | with_reducible apply Keep.foldl_snd <;> try intro _ _ _
    | with_reducible refine Keep.of_snd ‹_ = (_, _)› ?_
    | with_reducible refine Keep.of_snd2 ‹_ = (_, _, _)› ?_
    | with_reducible apply Keep.of_id
    | split
    | dsimp only

theorem State.memStore_keep {m : Nat} {s0 : State} (s : State) (a1 : _) (a2 : _) (a3 : _) (a4 : _) (a5 : _) (hm : subMask 66418 m = true) (h : Keep m s0 s) : Keep m s0 (State.memStore s a1 a2 a3 a4 a5) := by
  refine Keep.lift (f := 66418) ?_ hm h
  unfold State.memStore
  repeat' first
    | exact rfl
    | with_reducible exact Keep.refl _ _
    | with_reducible assumption
    | with_reducible apply State.refuse_keep
    | with_reducible apply State.memWrite_keep
    | with_reducible apply State.answer_keep
    | with_reducible apply Keep.ite <;> intro _
    | with_reducible apply Keep.foldl <;> try intro _ _ _
    | with_reducible apply Keep.foldl_snd <;> try intro _ _ _
    | with_reducible refine Keep.of_snd ‹_ = (_, _)› ?_
    | with_reducible refine Keep.of_snd2 ‹_ = (_, _, _)› ?_
    | with_reducible apply Keep.of_id
    | split
    | dsimp only

theorem State.busRead_keep {m : Nat} {s0 : State} (s : State) (a1 : _) (a2 : _) (a3 : _) (hm : subMask 66225970 m = true) (h : Keep m s0 s) : Keep m s0 (State.busRead s a1 a2 a3) := by
  refine Keep.lift (f := 66225970) ?_ hm h
  unfold State.busRead
  repeat' first
    | exact rfl
    | with_reducible exact Keep.refl _ _
    | with_reducible assumption
    | with_reducible apply State.refuse_keep
    | with_reducible apply State.answer_keep
    | with_reducible apply State.regRead_keep
    | with_reducible apply State.memLoad_keep
    | with_reducible apply Keep.ite <;> intro _
    | with_reducible apply Keep.foldl <;> try intro _ _ _
    | with_reducible apply Keep.foldl_snd <;> try intro _ _ _
    | with_reducible refine Keep.of_snd ‹_ = (_, _)› ?_
    | with_reducible refine Keep.of_snd2 ‹_ = (_, _, _)› ?_
    | with_reducible apply Keep.of_id
    | split
    | dsimp only

theorem State.busWrite_keep {m : Nat} {s0 : State} (s : State) (a1 : _) (a2 : _) (a3 : _) (a4 : _) (hm : subMask 134217727 m = true) (h : Keep m s0 s) : Keep m s0 (State.busWrite s a1 a2 a3 a4) := by
  refine Keep.lift (f := 134217727) ?_ hm h
  unfold State.busWrite
  repeat' first
    | exact rfl
    | with_reducible exact Keep.refl _ _
    | with_reducible assumption
    | with_reducible apply State.refuse_keep
    | with_reducible apply State.answer_keep
    | with_reducible apply State.memPut_keep
    | with_reducible apply State.regWrite_keep
    | with_reducible apply State.memStore_keep
    | with_reducible apply State.bar4Write_keep
    | with_reducible apply Keep.ite <;> intro _
    | with_reducible apply Keep.foldl <;> try intro _ _ _
    | with_reducible apply Keep.foldl_snd <;> try intro _ _ _
    | with_reducible refine Keep.of_snd ‹_ = (_, _)› ?_
    | with_reducible refine Keep.of_snd2 ‹_ = (_, _, _)› ?_
    | with_reducible apply Keep.of_id
    | split
    | dsimp only

theorem execRegisterWrite_keep (a0 : _) (a1 : _) (a2 : _) (a3 : _) (s : State) {t : State} (h : execRegisterWrite a0 a1 a2 a3 s = .next t) : Keep 134217727 s t := by
  unfold execRegisterWrite at h
  injection h with h
  subst h
  repeat' first
    | exact rfl
    | with_reducible exact Keep.refl _ _
    | with_reducible assumption
    | with_reducible apply State.busWrite_keep
    | with_reducible apply Keep.ite <;> intro _
    | with_reducible apply Keep.foldl <;> try intro _ _ _
    | with_reducible apply Keep.foldl_snd <;> try intro _ _ _
    | with_reducible refine Keep.of_snd ‹_ = (_, _)› ?_
    | with_reducible refine Keep.of_snd2 ‹_ = (_, _, _)› ?_
    | with_reducible apply Keep.of_id
    | split
    | dsimp only

theorem execCounterRead_keep (a0 : _) (a1 : _) (a2 : _) (a3 : _) (s : State) {t : State} (h : execCounterRead a0 a1 a2 a3 s = .next t) : Keep 66225970 s t := by
  unfold execCounterRead at h
  injection h with h
  subst h
  repeat' first
    | exact rfl
    | with_reducible exact Keep.refl _ _
    | with_reducible assumption
    | with_reducible apply State.busRead_keep
    | with_reducible apply State.inc_keep
    | with_reducible apply Keep.ite <;> intro _
    | with_reducible apply Keep.foldl <;> try intro _ _ _
    | with_reducible apply Keep.foldl_snd <;> try intro _ _ _
    | with_reducible refine Keep.of_snd ‹_ = (_, _)› ?_
    | with_reducible refine Keep.of_snd2 ‹_ = (_, _, _)› ?_
    | with_reducible apply Keep.of_id
    | split
    | dsimp only

theorem execResultRead_keep (a0 : _) (a1 : _) (a2 : _) (a3 : _) (s : State) {t : State} (h : execResultRead a0 a1 a2 a3 s = .next t) : Keep 66225970 s t := by
  unfold execResultRead at h
  injection h with h
  subst h
  repeat' first
    | exact rfl
    | with_reducible exact Keep.refl _ _
    | with_reducible assumption
    | with_reducible apply State.busRead_keep
    | with_reducible apply State.earlyRead_keep
    | with_reducible apply Keep.ite <;> intro _
    | with_reducible apply Keep.foldl <;> try intro _ _ _
    | with_reducible apply Keep.foldl_snd <;> try intro _ _ _
    | (rewrite [State.mk_eq_updOf]; (with_reducible refine Keep.node 2 ?_ ?_ ?_); · refine Keep.upd 2 ?_ ?_ ?_ ?_ ?_ (fun p hp => ?_); exact rfl; exact rfl; exact rfl; exact rfl; exact rfl; cases p <;> first | exact absurd hp (by decide) | exact rfl)
    | with_reducible refine Keep.of_snd ‹_ = (_, _)› ?_
    | with_reducible refine Keep.of_snd2 ‹_ = (_, _, _)› ?_
    | with_reducible apply Keep.of_id
    | split
    | dsimp only

theorem execAshRelease_keep (a0 : _) (a1 : _) (s : State) {t : State} (h : execAshRelease a0 a1 s = .next t) : Keep 134217727 s t := by
  unfold execAshRelease at h
  injection h with h
  subst h
  repeat' first
    | exact rfl
    | with_reducible exact Keep.refl _ _
    | with_reducible assumption
    | with_reducible apply State.regWrite_keep
    | with_reducible apply Keep.ite <;> intro _
    | with_reducible apply Keep.foldl <;> try intro _ _ _
    | with_reducible apply Keep.foldl_snd <;> try intro _ _ _
    | with_reducible refine Keep.of_snd ‹_ = (_, _)› ?_
    | with_reducible refine Keep.of_snd2 ‹_ = (_, _, _)› ?_
    | with_reducible apply Keep.of_id
    | split
    | dsimp only

end Sys2Proof.Machine
end

