-- ==== Sys2Proof/Laws/KeepBoot.lean ====
section
/-! SUPPORT. What each operation of Machine/Boot.lean leaves alone. -/

set_option Elab.async false

namespace Sys2Proof.Machine

theorem State.initEntry_keep {m : Nat} {s0 : State} (s : State) (a1 : _) (hm : subMask 134217727 m = true) (h : Keep m s0 s) : Keep m s0 (State.initEntry s a1).2 := by
  refine Keep.lift (f := 134217727) ?_ hm h
  unfold State.initEntry
  repeat' first
    | exact rfl
    | with_reducible exact Keep.refl _ _
    | with_reducible assumption
    | with_reducible apply State.busWrite_keep
    | with_reducible apply State.busRead_keep
    | with_reducible apply Keep.ite <;> intro _
    | with_reducible apply Keep.foldl <;> try intro _ _ _
    | with_reducible apply Keep.foldl_snd <;> try intro _ _ _
    | (rewrite [State.mk_eq_updOf]; (with_reducible refine Keep.node 2 ?_ ?_ ?_); · refine Keep.upd 2 ?_ ?_ ?_ ?_ ?_ (fun p hp => ?_); exact rfl; exact rfl; exact rfl; exact rfl; exact rfl; cases p <;> first | exact absurd hp (by decide) | exact rfl)
    | with_reducible refine Keep.of_snd ‹_ = (_, _)› ?_
    | with_reducible refine Keep.of_snd2 ‹_ = (_, _, _)› ?_
    | with_reducible apply Keep.of_id
    | split
    | dsimp only

theorem State.initRun_keep {m : Nat} {s0 : State} (a0 : _) (a1 : _) (s : State) (hm : subMask 134217727 m = true) (h : Keep m s0 s) : Keep m s0 (State.initRun a0 a1 s).2 := by
  induction a1 generalizing s with
  | nil => unfold State.initRun; exact h
  | cons b t ih =>
    unfold State.initRun
    repeat' first
      | exact rfl
      | exact subMask_trans rfl hm
      | with_reducible apply ih
      | with_reducible exact Keep.refl _ _
      | with_reducible assumption
      | with_reducible apply State.initEntry_keep
      | with_reducible apply Keep.ite <;> intro _
      | with_reducible apply Keep.foldl <;> try intro _ _ _
      | with_reducible apply Keep.foldl_snd <;> try intro _ _ _
      | with_reducible refine Keep.of_snd ‹_ = (_, _)› ?_
      | with_reducible refine Keep.of_snd2 ‹_ = (_, _, _)› ?_
      | with_reducible apply Keep.of_id
      | split
      | dsimp only

theorem State.regInit_keep {m : Nat} {s0 : State} (s : State) (a1 : _) (a2 : _) (hm : subMask 134217727 m = true) (h : Keep m s0 s) : Keep m s0 (State.regInit s a1 a2).2 := by
  refine Keep.lift (f := 134217727) ?_ hm h
  unfold State.regInit
  extract_lets x
  have h1 : Keep 134217727 s x.2 := by
    repeat' first
      | exact rfl
      | with_reducible exact Keep.refl _ _
      | with_reducible assumption
      | with_reducible apply State.initRun_keep
      | with_reducible apply State.set_keep
      | with_reducible apply Keep.ite <;> intro _
      | with_reducible apply Keep.foldl <;> try intro _ _ _
      | with_reducible apply Keep.foldl_snd <;> try intro _ _ _
      | with_reducible refine Keep.of_snd ‹_ = (_, _)› ?_
      | with_reducible refine Keep.of_snd2 ‹_ = (_, _, _)› ?_
      | with_reducible apply Keep.of_id
      | split
      | dsimp only
  clear_value x
  refine Keep.lift (f := 134217727) (s := if x.2.mode = 1 then x.2.set Fld.AO_STATUS.MODE [] s.mode else x.2) ⟨rfl, rfl, canonical_regs id rfl rfl, fun p hp => by cases p <;> first | exact absurd hp (by decide) | exact rfl⟩ rfl ?_
  repeat' first
    | exact rfl
    | with_reducible exact Keep.refl _ _
    | with_reducible assumption
    | with_reducible apply State.initRun_keep
    | with_reducible apply State.set_keep
    | with_reducible apply Keep.ite <;> intro _
    | with_reducible apply Keep.foldl <;> try intro _ _ _
    | with_reducible apply Keep.foldl_snd <;> try intro _ _ _
    | with_reducible refine Keep.of_snd ‹_ = (_, _)› ?_
    | with_reducible refine Keep.of_snd2 ‹_ = (_, _, _)› ?_
    | with_reducible apply Keep.of_id
    | split
    | dsimp only

theorem State.wakShow_keep {m : Nat} {s0 : State} (s : State) (hm : subMask 16416 m = true) (h : Keep m s0 s) : Keep m s0 (State.wakShow s) := by
  refine Keep.lift (f := 16416) ?_ hm h
  unfold State.wakShow
  repeat' first
    | exact rfl
    | with_reducible exact Keep.refl _ _
    | with_reducible assumption
    | with_reducible apply State.sets_keep
    | with_reducible apply State.setReg_keep
    | with_reducible apply State.pwrUpd_keep
    | with_reducible apply Keep.ite <;> intro _
    | with_reducible apply Keep.foldl <;> try intro _ _ _
    | with_reducible apply Keep.foldl_snd <;> try intro _ _ _
    | with_reducible refine Keep.of_snd ‹_ = (_, _)› ?_
    | with_reducible refine Keep.of_snd2 ‹_ = (_, _, _)› ?_
    | with_reducible apply Keep.of_id
    | split
    | dsimp only

theorem State.memShow_keep {m : Nat} {s0 : State} (s : State) (hm : subMask 32 m = true) (h : Keep m s0 s) : Keep m s0 (State.memShow s) := by
  refine Keep.lift (f := 32) ?_ hm h
  unfold State.memShow
  repeat' first
    | exact rfl
    | with_reducible exact Keep.refl _ _
    | with_reducible assumption
    | with_reducible apply State.sets_keep
    | with_reducible apply State.set_keep
    | with_reducible apply State.setReg_keep
    | with_reducible apply Keep.ite <;> intro _
    | with_reducible apply Keep.foldl <;> try intro _ _ _
    | with_reducible apply Keep.foldl_snd <;> try intro _ _ _
    | with_reducible refine Keep.of_snd ‹_ = (_, _)› ?_
    | with_reducible refine Keep.of_snd2 ‹_ = (_, _, _)› ?_
    | with_reducible apply Keep.of_id
    | split
    | dsimp only

theorem State.ctApply_keep {m : Nat} {s0 : State} (s : State) (hm : subMask 65824 m = true) (h : Keep m s0 s) : Keep m s0 (State.ctApply s) := by
  refine Keep.lift (f := 65824) ?_ hm h
  unfold State.ctApply
  extract_lets b m _ _ s1
  have h0 : Keep 65824 s m := by
    repeat' first
      | exact rfl
      | with_reducible exact Keep.refl _ _
      | with_reducible assumption
      | with_reducible apply State.memShow_keep
      | with_reducible apply State.lanesShow_keep
      | with_reducible apply State.sets_keep
      | with_reducible apply Keep.ite <;> intro _
      | with_reducible apply Keep.foldl <;> try intro _ _ _
      | with_reducible apply Keep.foldl_snd <;> try intro _ _ _
      | (rewrite [State.mk_eq_updOf]; (with_reducible refine Keep.node 65792 ?_ ?_ ?_); · refine Keep.upd 65792 ?_ ?_ ?_ ?_ ?_ (fun p hp => ?_); exact rfl; exact rfl; exact rfl; exact rfl; exact rfl; cases p <;> first | exact absurd hp (by decide) | exact rfl)
      | with_reducible refine Keep.of_snd ‹_ = (_, _)› ?_
      | with_reducible refine Keep.of_snd2 ‹_ = (_, _, _)› ?_
      | with_reducible apply Keep.of_id
      | split
      | dsimp only
  clear_value m
  have h1 : Keep 65824 s s1 := Keep.lift (f := 65824) (s := m) (t := s1) ⟨rfl, rfl, canonical_regs id rfl rfl, fun p hp => by cases p <;> first | exact absurd hp (by decide) | exact rfl⟩ rfl h0
  clear_value s1
  repeat' first
    | exact rfl
    | with_reducible exact Keep.refl _ _
    | with_reducible assumption
    | with_reducible apply State.memShow_keep
    | with_reducible apply State.lanesShow_keep
    | with_reducible apply State.sets_keep
    | with_reducible apply Keep.ite <;> intro _
    | with_reducible apply Keep.foldl <;> try intro _ _ _
    | with_reducible apply Keep.foldl_snd <;> try intro _ _ _
    | (rewrite [State.mk_eq_updOf]; (with_reducible refine Keep.node 65792 ?_ ?_ ?_); · refine Keep.upd 65792 ?_ ?_ ?_ ?_ ?_ (fun p hp => ?_); exact rfl; exact rfl; exact rfl; exact rfl; exact rfl; cases p <;> first | exact absurd hp (by decide) | exact rfl)
    | with_reducible refine Keep.of_snd ‹_ = (_, _)› ?_
    | with_reducible refine Keep.of_snd2 ‹_ = (_, _, _)› ?_
    | with_reducible apply Keep.of_id
    | split
    | dsimp only

theorem State.regionUp_keep {m : Nat} {s0 : State} (s : State) (a1 : _) (hm : subMask 16417 m = true) (h : Keep m s0 s) : Keep m s0 (State.regionUp s a1) := by
  refine Keep.lift (f := 16417) ?_ hm h
  unfold State.regionUp
  repeat' first
    | exact rfl
    | with_reducible exact Keep.refl _ _
    | with_reducible assumption
    | with_reducible apply State.pwrUpd_keep
    | with_reducible apply State.railsOn_keep
    | with_reducible apply Keep.ite <;> intro _
    | with_reducible apply Keep.foldl <;> try intro _ _ _
    | with_reducible apply Keep.foldl_snd <;> try intro _ _ _
    | with_reducible refine Keep.of_snd ‹_ = (_, _)› ?_
    | with_reducible refine Keep.of_snd2 ‹_ = (_, _, _)› ?_
    | with_reducible apply Keep.of_id
    | split
    | dsimp only

theorem State.quadStart_keep {m : Nat} {s0 : State} (s : State) (a1 : _) (a2 : _) (hm : subMask 1049399 m = true) (h : Keep m s0 s) : Keep m s0 (State.quadStart s a1 a2) := by
  refine Keep.lift (f := 1049399) ?_ hm h
  unfold State.quadStart
  repeat' first
    | exact rfl
    | with_reducible exact Keep.refl _ _
    | with_reducible assumption
    | with_reducible apply State.sets_keep
    | with_reducible apply State.quadUpd_keep
    | with_reducible apply State.calTemp_keep
    | with_reducible apply State.takeStack_keep
    | with_reducible apply Keep.ite <;> intro _
    | with_reducible apply Keep.foldl <;> try intro _ _ _
    | with_reducible apply Keep.foldl_snd <;> try intro _ _ _
    | with_reducible refine Keep.of_snd ‹_ = (_, _)› ?_
    | with_reducible refine Keep.of_snd2 ‹_ = (_, _, _)› ?_
    | with_reducible apply Keep.of_id
    | split
    | dsimp only

theorem State.setsRestore_keep {m : Nat} {s0 : State} (s : State) (a1 : _) (a2 : _) (hm : subMask 1048608 m = true) (h : Keep m s0 s) : Keep m s0 (State.setsRestore s a1 a2) := by
  refine Keep.lift (f := 1048608) ?_ hm h
  unfold State.setsRestore
  repeat' first
    | exact rfl
    | with_reducible exact Keep.refl _ _
    | with_reducible assumption
    | with_reducible apply State.quadUpd_keep
    | with_reducible apply State.setReg_keep
    | with_reducible apply State.set_keep
    | with_reducible apply Keep.ite <;> intro _
    | with_reducible apply Keep.foldl <;> try intro _ _ _
    | with_reducible apply Keep.foldl_snd <;> try intro _ _ _
    | with_reducible refine Keep.of_snd ‹_ = (_, _)› ?_
    | with_reducible refine Keep.of_snd2 ‹_ = (_, _, _)› ?_
    | with_reducible apply Keep.of_id
    | split
    | dsimp only

theorem State.bbStart_keep {m : Nat} {s0 : State} (s : State) (hm : subMask 1048576 m = true) (h : Keep m s0 s) : Keep m s0 (State.bbStart s) := by
  refine Keep.lift (f := 1048576) ?_ hm h
  unfold State.bbStart
  repeat' first
    | exact rfl
    | with_reducible exact Keep.refl _ _
    | with_reducible assumption
    | with_reducible apply State.radUpd_keep
    | with_reducible apply Keep.ite <;> intro _
    | with_reducible apply Keep.foldl <;> try intro _ _ _
    | with_reducible apply Keep.foldl_snd <;> try intro _ _ _
    | with_reducible refine Keep.of_snd ‹_ = (_, _)› ?_
    | with_reducible refine Keep.of_snd2 ‹_ = (_, _, _)› ?_
    | with_reducible apply Keep.of_id
    | split
    | dsimp only

theorem State.pkStart_keep {m : Nat} {s0 : State} (s : State) (hm : subMask 32 m = true) (h : Keep m s0 s) : Keep m s0 (State.pkStart s) := by
  refine Keep.lift (f := 32) ?_ hm h
  unfold State.pkStart
  repeat' first
    | exact rfl
    | with_reducible exact Keep.refl _ _
    | with_reducible assumption
    | with_reducible apply State.set_keep
    | with_reducible apply Keep.ite <;> intro _
    | with_reducible apply Keep.foldl <;> try intro _ _ _
    | with_reducible apply Keep.foldl_snd <;> try intro _ _ _
    | with_reducible refine Keep.of_snd ‹_ = (_, _)› ?_
    | with_reducible refine Keep.of_snd2 ‹_ = (_, _, _)› ?_
    | with_reducible apply Keep.of_id
    | split
    | dsimp only

theorem State.regionStart_keep {m : Nat} {s0 : State} (s : State) (a1 : _) (a2 : _) (hm : subMask 1053495 m = true) (h : Keep m s0 s) : Keep m s0 (State.regionStart s a1 a2) := by
  refine Keep.lift (f := 1053495) ?_ hm h
  unfold State.regionStart
  repeat' first
    | exact rfl
    | with_reducible exact Keep.refl _ _
    | with_reducible assumption
    | with_reducible apply State.bootUpd_keep
    | with_reducible apply State.quadStart_keep
    | with_reducible apply State.bbStart_keep
    | with_reducible apply State.pkStart_keep
    | with_reducible apply Keep.ite <;> intro _
    | with_reducible apply Keep.foldl <;> try intro _ _ _
    | with_reducible apply Keep.foldl_snd <;> try intro _ _ _
    | with_reducible refine Keep.of_snd ‹_ = (_, _)› ?_
    | with_reducible refine Keep.of_snd2 ‹_ = (_, _, _)› ?_
    | with_reducible apply Keep.of_id
    | split
    | dsimp only

theorem State.wakeFail_keep {m : Nat} {s0 : State} (s : State) (a1 : _) (a2 : _) (hm : subMask 17200 m = true) (h : Keep m s0 s) : Keep m s0 (State.wakeFail s a1 a2) := by
  refine Keep.lift (f := 17200) ?_ hm h
  unfold State.wakeFail
  repeat' first
    | exact rfl
    | with_reducible exact Keep.refl _ _
    | with_reducible assumption
    | with_reducible apply State.railsOff_keep
    | with_reducible apply State.pwrUpd_keep
    | with_reducible apply State.raise_keep
    | with_reducible apply State.ashAdd_keep
    | with_reducible apply State.setReg_keep
    | with_reducible apply Keep.ite <;> intro _
    | with_reducible apply Keep.foldl <;> try intro _ _ _
    | with_reducible apply Keep.foldl_snd <;> try intro _ _ _
    | with_reducible refine Keep.of_snd ‹_ = (_, _)› ?_
    | with_reducible refine Keep.of_snd2 ‹_ = (_, _, _)› ?_
    | with_reducible apply Keep.of_id
    | split
    | dsimp only

theorem State.regionApply_keep {m : Nat} {s0 : State} (s : State) (a1 : _) (a2 : _) (a3 : _) (a4 : _) (hm : subMask 134217727 m = true) (h : Keep m s0 s) : Keep m s0 (State.regionApply s a1 a2 a3 a4).2 := by
  refine Keep.lift (f := 134217727) ?_ hm h
  unfold State.regionApply
  repeat' first
    | exact rfl
    | with_reducible exact Keep.refl _ _
    | with_reducible assumption
    | with_reducible apply State.wakeFail_keep
    | with_reducible apply State.regionUp_keep
    | with_reducible apply State.ctApply_keep
    | with_reducible apply State.wakShow_keep
    | with_reducible apply State.regInit_keep
    | with_reducible apply State.regionStart_keep
    | with_reducible apply State.flowClear_keep
    | with_reducible apply State.hostStale_keep
    | with_reducible apply Keep.ite <;> intro _
    | with_reducible apply Keep.foldl <;> try intro _ _ _
    | with_reducible apply Keep.foldl_snd <;> try intro _ _ _
    | with_reducible refine Keep.of_snd ‹_ = (_, _)› ?_
    | with_reducible refine Keep.of_snd2 ‹_ = (_, _, _)› ?_
    | with_reducible apply Keep.of_id
    | split
    | dsimp only

theorem State.regionBack_keep {m : Nat} {s0 : State} (s : State) (a1 : _) (hm : subMask 134217727 m = true) (h : Keep m s0 s) : Keep m s0 (State.regionBack s a1) := by
  refine Keep.lift (f := 134217727) ?_ hm h
  unfold State.regionBack
  repeat' first
    | exact rfl
    | with_reducible exact Keep.refl _ _
    | with_reducible assumption
    | with_reducible apply State.regInit_keep
    | with_reducible apply State.lanesShow_keep
    | with_reducible apply State.memShow_keep
    | with_reducible apply State.regionUp_keep
    | with_reducible apply State.regionStart_keep
    | with_reducible apply State.setsRestore_keep
    | with_reducible apply State.dfsRestore_keep
    | with_reducible apply State.tmWake_keep
    | with_reducible apply Keep.ite <;> intro _
    | with_reducible apply Keep.foldl <;> try intro _ _ _
    | with_reducible apply Keep.foldl_snd <;> try intro _ _ _
    | with_reducible refine Keep.of_snd ‹_ = (_, _)› ?_
    | with_reducible refine Keep.of_snd2 ‹_ = (_, _, _)› ?_
    | with_reducible apply Keep.of_id
    | split
    | dsimp only

theorem State.twtReturn_keep {m : Nat} {s0 : State} (s : State) (hm : subMask 4194304 m = true) (h : Keep m s0 s) : Keep m s0 (State.twtReturn s) := by
  refine Keep.lift (f := 4194304) ?_ hm h
  unfold State.twtReturn
  repeat' first
    | exact rfl
    | with_reducible exact Keep.refl _ _
    | with_reducible assumption
    | with_reducible apply State.wacUpd_keep
    | with_reducible apply State.setWfld_keep
    | with_reducible apply Keep.ite <;> intro _
    | with_reducible apply Keep.foldl <;> try intro _ _ _
    | with_reducible apply Keep.foldl_snd <;> try intro _ _ _
    | with_reducible refine Keep.of_snd ‹_ = (_, _)› ?_
    | with_reducible refine Keep.of_snd2 ‹_ = (_, _, _)› ?_
    | with_reducible apply Keep.of_id
    | split
    | dsimp only

theorem State.wakeDone_keep {m : Nat} {s0 : State} (s : State) (hm : subMask 32719735 m = true) (h : Keep m s0 s) : Keep m s0 (State.wakeDone s) := by
  refine Keep.lift (f := 32719735) ?_ hm h
  unfold State.wakeDone
  repeat' first
    | exact rfl
    | with_reducible exact Keep.refl _ _
    | with_reducible assumption
    | with_reducible apply State.raise_keep
    | with_reducible apply State.tlyFence_keep
    | with_reducible apply State.set_keep
    | with_reducible apply State.pwrUpd_keep
    | with_reducible apply State.pathsCheck_keep
    | with_reducible apply State.setMode_keep
    | with_reducible apply State.twtReturn_keep
    | with_reducible apply State.coexSettle_keep
    | with_reducible apply State.fallback_keep
    | with_reducible apply Keep.ite <;> intro _
    | with_reducible apply Keep.foldl <;> try intro _ _ _
    | with_reducible apply Keep.foldl_snd <;> try intro _ _ _
    | with_reducible refine Keep.of_snd ‹_ = (_, _)› ?_
    | with_reducible refine Keep.of_snd2 ‹_ = (_, _, _)› ?_
    | with_reducible apply Keep.of_id
    | split
    | dsimp only

theorem State.wakeLost_keep {m : Nat} {s0 : State} (s : State) (a1 : _) (a2 : _) (hm : subMask 134217599 m = true) (h : Keep m s0 s) : Keep m s0 (State.wakeLost s a1 a2) := by
  refine Keep.lift (f := 134217599) ?_ hm h
  unfold State.wakeLost
  repeat' first
    | exact rfl
    | with_reducible exact Keep.refl _ _
    | with_reducible assumption
    | with_reducible apply State.wakeFail_keep
    | with_reducible apply State.dieRestart_keep
    | with_reducible apply State.pwrUpd_keep
    | with_reducible apply State.ashAdd_keep
    | with_reducible apply State.setReg_keep
    | with_reducible apply State.wakeDone_keep
    | with_reducible apply Keep.ite <;> intro _
    | with_reducible apply Keep.foldl <;> try intro _ _ _
    | with_reducible apply Keep.foldl_snd <;> try intro _ _ _
    | with_reducible refine Keep.of_snd ‹_ = (_, _)› ?_
    | with_reducible refine Keep.of_snd2 ‹_ = (_, _, _)› ?_
    | with_reducible apply Keep.of_id
    | split
    | dsimp only

theorem State.wakeReady_keep {m : Nat} {s0 : State} (s : State) (a1 : _) (a2 : _) (hm : subMask 134217727 m = true) (h : Keep m s0 s) : Keep m s0 (State.wakeReady s a1 a2) := by
  refine Keep.lift (f := 134217727) ?_ hm h
  unfold State.wakeReady
  repeat' first
    | exact rfl
    | with_reducible exact Keep.refl _ _
    | with_reducible assumption
    | with_reducible apply State.pwrUpd_keep
    | with_reducible apply State.regionBack_keep
    | with_reducible apply State.wakeLost_keep
    | with_reducible apply State.wakeDone_keep
    | with_reducible apply State.bootUpd_keep
    | with_reducible apply State.ntuResume_keep
    | with_reducible apply Keep.ite <;> intro _
    | with_reducible apply Keep.foldl <;> try intro _ _ _
    | with_reducible apply Keep.foldl_snd <;> try intro _ _ _
    | with_reducible refine Keep.of_snd ‹_ = (_, _)› ?_
    | with_reducible refine Keep.of_snd2 ‹_ = (_, _, _)› ?_
    | with_reducible apply Keep.of_id
    | split
    | dsimp only

theorem execWakeStageReady_keep (a0 : _) (a1 : _) (s : State) {t : State} (h : execWakeStageReady a0 a1 s = .next t) : Keep 134217727 s t := by
  unfold execWakeStageReady at h
  injection h with h
  subst h
  repeat' first
    | exact rfl
    | with_reducible exact Keep.refl _ _
    | with_reducible assumption
    | with_reducible apply State.set_keep
    | with_reducible apply State.railsOn_keep
    | with_reducible apply State.pwrUpd_keep
    | with_reducible apply State.wakeReady_keep
    | with_reducible apply Keep.ite <;> intro _
    | with_reducible apply Keep.foldl <;> try intro _ _ _
    | with_reducible apply Keep.foldl_snd <;> try intro _ _ _
    | with_reducible refine Keep.of_snd ‹_ = (_, _)› ?_
    | with_reducible refine Keep.of_snd2 ‹_ = (_, _, _)› ?_
    | with_reducible apply Keep.of_id
    | split
    | dsimp only

theorem execWakeStageTimeout_keep (a0 : _) (s : State) {t : State} (h : execWakeStageTimeout a0 s = .next t) : Keep 134217599 s t := by
  unfold execWakeStageTimeout at h
  injection h with h
  subst h
  repeat' first
    | exact rfl
    | with_reducible exact Keep.refl _ _
    | with_reducible assumption
    | with_reducible apply State.wakeLost_keep
    | with_reducible apply State.bringFail_keep
    | with_reducible apply State.wakeFail_keep
    | with_reducible apply Keep.ite <;> intro _
    | with_reducible apply Keep.foldl <;> try intro _ _ _
    | with_reducible apply Keep.foldl_snd <;> try intro _ _ _
    | with_reducible refine Keep.of_snd ‹_ = (_, _)› ?_
    | with_reducible refine Keep.of_snd2 ‹_ = (_, _, _)› ?_
    | with_reducible apply Keep.of_id
    | split
    | dsimp only

theorem State.lifecycleApply_keep {m : Nat} {s0 : State} (s : State) (hm : subMask 98400 m = true) (h : Keep m s0 s) : Keep m s0 (State.lifecycleApply s) := by
  refine Keep.lift (f := 98400) ?_ hm h
  unfold State.lifecycleApply
  repeat' first
    | exact rfl
    | with_reducible exact Keep.refl _ _
    | with_reducible assumption
    | with_reducible apply State.wipeSecure_keep
    | with_reducible apply State.slotsZero_keep
    | with_reducible apply State.sets_keep
    | with_reducible apply State.klnUpd_keep
    | with_reducible apply Keep.ite <;> intro _
    | with_reducible apply Keep.foldl <;> try intro _ _ _
    | with_reducible apply Keep.foldl_snd <;> try intro _ _ _
    | with_reducible refine Keep.of_snd ‹_ = (_, _)› ?_
    | with_reducible refine Keep.of_snd2 ‹_ = (_, _, _)› ?_
    | with_reducible apply Keep.of_id
    | split
    | dsimp only

theorem execKilnBoot_keep (a0 : _) (a1 : _) (a2 : _) (a3 : _) (a4 : _) (s : State) {t : State} (h : execKilnBoot a0 a1 a2 a3 a4 s = .next t) : Keep 134214525 s t := by
  unfold execKilnBoot at h
  injection h with h
  subst h
  repeat' first
    | exact rfl
    | with_reducible exact Keep.refl _ _
    | with_reducible assumption
    | with_reducible apply State.pwrUpd_keep
    | with_reducible apply State.bootUpd_keep
    | with_reducible apply State.lockdown_keep
    | with_reducible apply State.keysShow_keep
    | with_reducible apply State.nonceNew_keep
    | with_reducible apply State.lifecycleApply_keep
    | with_reducible apply State.klnUpd_keep
    | with_reducible apply State.hostPresent_keep
    | with_reducible apply State.raiseStop_keep
    | with_reducible apply State.bringStop_keep
    | with_reducible apply State.slotSelect_keep
    | with_reducible apply State.set_keep
    | with_reducible apply Keep.ite <;> intro _
    | with_reducible apply Keep.foldl <;> try intro _ _ _
    | with_reducible apply Keep.foldl_snd <;> try intro _ _ _
    | with_reducible refine Keep.of_snd ‹_ = (_, _)› ?_
    | with_reducible refine Keep.of_snd2 ‹_ = (_, _, _)› ?_
    | with_reducible apply Keep.of_id
    | split
    | dsimp only

theorem State.cordDo_keep {m : Nat} {s0 : State} (s : State) (a1 : _) (a2 : _) (a3 : _) (a4 : _) (hm : subMask 134217727 m = true) (h : Keep m s0 s) : Keep m s0 (State.cordDo s a1 a2 a3 a4).2 := by
  refine Keep.lift (f := 134217727) ?_ hm h
  unfold State.cordDo
  extract_lets head cord b s1 c _ s2 x
  have h1 : Keep 134217727 s s1 := by
    repeat' first
      | exact rfl
      | with_reducible exact Keep.refl _ _
      | with_reducible assumption
      | with_reducible apply State.regionApply_keep
      | with_reducible apply State.setChosen_keep
      | with_reducible apply Keep.ite <;> intro _
      | with_reducible apply Keep.foldl <;> try intro _ _ _
      | with_reducible apply Keep.foldl_snd <;> try intro _ _ _
      | (rewrite [State.mk_eq_updOf]; (with_reducible refine Keep.node 2048 ?_ ?_ ?_); · refine Keep.upd 2048 ?_ ?_ ?_ ?_ ?_ (fun p hp => ?_); exact rfl; exact rfl; exact rfl; exact rfl; exact rfl; cases p <;> first | exact absurd hp (by decide) | exact rfl)
      | with_reducible refine Keep.of_snd ‹_ = (_, _)› ?_
      | with_reducible refine Keep.of_snd2 ‹_ = (_, _, _)› ?_
      | with_reducible apply Keep.of_id
      | split
      | dsimp only
  clear_value s1
  have h2 : Keep 134217727 s s2 := Keep.lift (f := 134217727) (s := s1) (t := s2) ⟨rfl, rfl, canonical_regs id rfl rfl, fun p hp => by cases p <;> first | exact absurd hp (by decide) | exact rfl⟩ rfl h1
  have hx : Keep 134217727 s x.2 := by
    repeat' first
      | exact rfl
      | with_reducible exact Keep.refl _ _
      | with_reducible assumption
      | with_reducible apply State.regionApply_keep
      | with_reducible apply State.setChosen_keep
      | with_reducible apply Keep.ite <;> intro _
      | with_reducible apply Keep.foldl <;> try intro _ _ _
      | with_reducible apply Keep.foldl_snd <;> try intro _ _ _
      | (rewrite [State.mk_eq_updOf]; (with_reducible refine Keep.node 2048 ?_ ?_ ?_); · refine Keep.upd 2048 ?_ ?_ ?_ ?_ ?_ (fun p hp => ?_); exact rfl; exact rfl; exact rfl; exact rfl; exact rfl; cases p <;> first | exact absurd hp (by decide) | exact rfl)
      | with_reducible refine Keep.of_snd ‹_ = (_, _)› ?_
      | with_reducible refine Keep.of_snd2 ‹_ = (_, _, _)› ?_
      | with_reducible apply Keep.of_id
      | split
      | dsimp only
  clear_value x s2
  repeat' first
    | exact rfl
    | with_reducible exact Keep.refl _ _
    | with_reducible assumption
    | with_reducible apply State.regionApply_keep
    | with_reducible apply State.setChosen_keep
    | with_reducible apply Keep.ite <;> intro _
    | with_reducible apply Keep.foldl <;> try intro _ _ _
    | with_reducible apply Keep.foldl_snd <;> try intro _ _ _
    | (rewrite [State.mk_eq_updOf]; (with_reducible refine Keep.node 2048 ?_ ?_ ?_); · refine Keep.upd 2048 ?_ ?_ ?_ ?_ ?_ (fun p hp => ?_); exact rfl; exact rfl; exact rfl; exact rfl; exact rfl; cases p <;> first | exact absurd hp (by decide) | exact rfl)
    | with_reducible refine Keep.of_snd ‹_ = (_, _)› ?_
    | with_reducible refine Keep.of_snd2 ‹_ = (_, _, _)› ?_
    | with_reducible apply Keep.of_id
    | split
    | dsimp only

theorem State.serviceEnter_keep {m : Nat} {s0 : State} (s : State) (hm : subMask 33125233 m = true) (h : Keep m s0 s) : Keep m s0 (State.serviceEnter s) := by
  refine Keep.lift (f := 33125233) ?_ hm h
  unfold State.serviceEnter
  repeat' first
    | exact rfl
    | with_reducible exact Keep.refl _ _
    | with_reducible assumption
    | with_reducible apply State.sets_keep
    | with_reducible apply State.alertForget_keep
    | with_reducible apply State.setReg_keep
    | with_reducible apply State.bootUpd_keep
    | with_reducible apply State.ashBringup_keep
    | with_reducible apply State.setMode_keep
    | with_reducible apply State.dfsRestore_keep
    | with_reducible apply State.portUpd_keep
    | with_reducible apply State.coexSettle_keep
    | with_reducible apply State.pathsCheck_keep
    | with_reducible apply State.pushEnd_keep
    | with_reducible apply Keep.ite <;> intro _
    | with_reducible apply Keep.foldl <;> try intro _ _ _
    | with_reducible apply Keep.foldl_snd <;> try intro _ _ _
    | with_reducible refine Keep.of_snd ‹_ = (_, _)› ?_
    | with_reducible refine Keep.of_snd2 ‹_ = (_, _, _)› ?_
    | with_reducible apply Keep.of_id
    | split
    | dsimp only

theorem State.bootNext_keep {m : Nat} {s0 : State} (s : State) (a1 : _) (hm : subMask 33125233 m = true) (h : Keep m s0 s) : Keep m s0 (State.bootNext s a1) := by
  refine Keep.lift (f := 33125233) ?_ hm h
  unfold State.bootNext
  repeat' first
    | exact rfl
    | with_reducible exact Keep.refl _ _
    | with_reducible assumption
    | with_reducible apply State.bootUpd_keep
    | with_reducible apply State.serviceEnter_keep
    | with_reducible apply Keep.ite <;> intro _
    | with_reducible apply Keep.foldl <;> try intro _ _ _
    | with_reducible apply Keep.foldl_snd <;> try intro _ _ _
    | with_reducible refine Keep.of_snd ‹_ = (_, _)› ?_
    | with_reducible refine Keep.of_snd2 ‹_ = (_, _, _)› ?_
    | with_reducible apply Keep.of_id
    | split
    | dsimp only

theorem execCordApply_keep (a0 : _) (a1 : _) (a2 : _) (a3 : _) (s : State) {t : State} (h : execCordApply a0 a1 a2 a3 s = .next t) : Keep 134217727 s t := by
  unfold execCordApply at h
  injection h with h
  subst h
  repeat' first
    | exact rfl
    | with_reducible exact Keep.refl _ _
    | with_reducible assumption
    | with_reducible apply State.pushGo_keep
    | with_reducible apply State.bringFail_keep
    | with_reducible apply State.cordDo_keep
    | with_reducible apply State.bootNext_keep
    | with_reducible apply State.bootUpd_keep
    | with_reducible apply Keep.ite <;> intro _
    | with_reducible apply Keep.foldl <;> try intro _ _ _
    | with_reducible apply Keep.foldl_snd <;> try intro _ _ _
    | with_reducible refine Keep.of_snd ‹_ = (_, _)› ?_
    | with_reducible refine Keep.of_snd2 ‹_ = (_, _, _)› ?_
    | with_reducible apply Keep.of_id
    | split
    | dsimp only

theorem execFirmwareLoad_keep (a0 : _) (s : State) {t : State} (h : execFirmwareLoad a0 s = .next t) : Keep 134216703 s t := by
  unfold execFirmwareLoad at h
  injection h with h
  subst h
  repeat' first
    | exact rfl
    | with_reducible exact Keep.refl _ _
    | with_reducible assumption
    | with_reducible apply State.pushGo_keep
    | with_reducible apply State.bringFail_keep
    | with_reducible apply State.setReg_keep
    | with_reducible apply State.memPut_keep
    | with_reducible apply State.bootNext_keep
    | with_reducible apply State.coreStart_keep
    | with_reducible apply Keep.ite <;> intro _
    | with_reducible apply Keep.foldl <;> try intro _ _ _
    | with_reducible apply Keep.foldl_snd <;> try intro _ _ _
    | with_reducible refine Keep.of_snd ‹_ = (_, _)› ?_
    | with_reducible refine Keep.of_snd2 ‹_ = (_, _, _)› ?_
    | with_reducible apply Keep.of_id
    | split
    | dsimp only

theorem State.reloadDo_keep {m : Nat} {s0 : State} (s : State) (a1 : _) (a2 : _) (a3 : _) (hm : subMask 134217727 m = true) (h : Keep m s0 s) : Keep m s0 (State.reloadDo s a1 a2 a3).2 := by
  refine Keep.lift (f := 134217727) ?_ hm h
  unfold State.reloadDo
  extract_lets head i b other c kept _ plan m s1 x m2 off
  have h0 : Keep 134217727 s m := by
    repeat' first
      | exact rfl
      | with_reducible exact Keep.refl _ _
      | with_reducible assumption
      | with_reducible apply State.regionDown_keep
      | with_reducible apply State.regionApply_keep
      | with_reducible apply Keep.ite <;> intro _
      | with_reducible apply Keep.foldl <;> try intro _ _ _
      | with_reducible apply Keep.foldl_snd <;> try intro _ _ _
      | (rewrite [State.mk_eq_updOf]; (with_reducible refine Keep.node 2080 ?_ ?_ ?_); · refine Keep.upd 2080 ?_ ?_ ?_ ?_ ?_ (fun p hp => ?_); exact rfl; exact rfl; exact rfl; exact rfl; exact rfl; cases p <;> first | exact absurd hp (by decide) | exact rfl)
      | with_reducible refine Keep.of_snd ‹_ = (_, _)› ?_
      | with_reducible refine Keep.of_snd2 ‹_ = (_, _, _)› ?_
      | with_reducible apply Keep.of_id
      | split
      | dsimp only
  have h1 : Keep 134217727 s s1 := Keep.lift (f := 134217727) (s := m) (t := s1) ⟨rfl, rfl, canonical_regs id rfl rfl, fun p hp => by cases p <;> first | exact absurd hp (by decide) | exact rfl⟩ rfl h0
  have hx : Keep 134217727 s x.2 := by
    repeat' first
      | exact rfl
      | with_reducible exact Keep.refl _ _
      | with_reducible assumption
      | with_reducible apply State.regionDown_keep
      | with_reducible apply State.regionApply_keep
      | with_reducible apply Keep.ite <;> intro _
      | with_reducible apply Keep.foldl <;> try intro _ _ _
      | with_reducible apply Keep.foldl_snd <;> try intro _ _ _
      | (rewrite [State.mk_eq_updOf]; (with_reducible refine Keep.node 2080 ?_ ?_ ?_); · refine Keep.upd 2080 ?_ ?_ ?_ ?_ ?_ (fun p hp => ?_); exact rfl; exact rfl; exact rfl; exact rfl; exact rfl; cases p <;> first | exact absurd hp (by decide) | exact rfl)
      | with_reducible refine Keep.of_snd ‹_ = (_, _)› ?_
      | with_reducible refine Keep.of_snd2 ‹_ = (_, _, _)› ?_
      | with_reducible apply Keep.of_id
      | split
      | dsimp only
  have h2 : Keep 134217727 s m2 := by
    repeat' first
      | exact rfl
      | with_reducible exact Keep.refl _ _
      | with_reducible assumption
      | with_reducible apply State.regionDown_keep
      | with_reducible apply State.regionApply_keep
      | with_reducible apply Keep.ite <;> intro _
      | with_reducible apply Keep.foldl <;> try intro _ _ _
      | with_reducible apply Keep.foldl_snd <;> try intro _ _ _
      | (rewrite [State.mk_eq_updOf]; (with_reducible refine Keep.node 2080 ?_ ?_ ?_); · refine Keep.upd 2080 ?_ ?_ ?_ ?_ ?_ (fun p hp => ?_); exact rfl; exact rfl; exact rfl; exact rfl; exact rfl; cases p <;> first | exact absurd hp (by decide) | exact rfl)
      | with_reducible refine Keep.of_snd ‹_ = (_, _)› ?_
      | with_reducible refine Keep.of_snd2 ‹_ = (_, _, _)› ?_
      | with_reducible apply Keep.of_id
      | split
      | dsimp only
  have h3 : Keep 134217727 s off := Keep.lift (f := 134217727) (s := m2) (t := off) ⟨rfl, rfl, canonical_regs id rfl rfl, fun p hp => by cases p <;> first | exact absurd hp (by decide) | exact rfl⟩ rfl h2
  clear_value off x
  have hf : Keep 134217727 s (kept.foldl (fun t e => { t with regs := sset resetWord t.regs e.1 e.2 }) off) := Keep.foldl _ _ h3 (fun t _ k => Keep.lift (f := 32) (s := t) ⟨rfl, rfl, canonical_regs (fun c => swf_sset _ _ c _ _) rfl rfl, fun p hp => by cases p <;> first | exact absurd hp (by decide) | exact rfl⟩ rfl k)
  repeat' first
    | exact rfl
    | with_reducible exact Keep.refl _ _
    | with_reducible assumption
    | with_reducible apply State.regionDown_keep
    | with_reducible apply State.regionApply_keep
    | with_reducible apply Keep.ite <;> intro _
    | with_reducible apply Keep.foldl <;> try intro _ _ _
    | with_reducible apply Keep.foldl_snd <;> try intro _ _ _
    | (rewrite [State.mk_eq_updOf]; (with_reducible refine Keep.node 2080 ?_ ?_ ?_); · refine Keep.upd 2080 ?_ ?_ ?_ ?_ ?_ (fun p hp => ?_); exact rfl; exact rfl; exact rfl; exact rfl; exact rfl; cases p <;> first | exact absurd hp (by decide) | exact rfl)
    | with_reducible refine Keep.of_snd ‹_ = (_, _)› ?_
    | with_reducible refine Keep.of_snd2 ‹_ = (_, _, _)› ?_
    | with_reducible apply Keep.of_id
    | split
    | dsimp only

theorem State.reloadDone_keep {m : Nat} {s0 : State} (s : State) (a1 : _) (hm : subMask 33121143 m = true) (h : Keep m s0 s) : Keep m s0 (State.reloadDone s a1) := by
  refine Keep.lift (f := 33121143) ?_ hm h
  unfold State.reloadDone
  repeat' first
    | exact rfl
    | with_reducible exact Keep.refl _ _
    | with_reducible assumption
    | with_reducible apply State.setReg_keep
    | with_reducible apply State.set_keep
    | with_reducible apply State.radUpd_keep
    | with_reducible apply State.pushUpd_keep
    | with_reducible apply State.setChosen_keep
    | with_reducible apply State.dfsRestore_keep
    | with_reducible apply State.alertForget_keep
    | with_reducible apply State.setMode_keep
    | with_reducible apply State.twtReturn_keep
    | with_reducible apply State.fallback_keep
    | with_reducible apply State.pushEnd_keep
    | with_reducible apply State.coexSettle_keep
    | with_reducible apply State.pathsCheck_keep
    | with_reducible apply Keep.ite <;> intro _
    | with_reducible apply Keep.foldl <;> try intro _ _ _
    | with_reducible apply Keep.foldl_snd <;> try intro _ _ _
    | with_reducible refine Keep.of_snd ‹_ = (_, _)› ?_
    | with_reducible refine Keep.of_snd2 ‹_ = (_, _, _)› ?_
    | with_reducible apply Keep.of_id
    | split
    | dsimp only

theorem execRegionReload_keep (a0 : _) (a1 : _) (a2 : _) (s : State) {t : State} (h : execRegionReload a0 a1 a2 s = .next t) : Keep 134217727 s t := by
  unfold execRegionReload at h
  injection h with h
  subst h
  repeat' first
    | exact rfl
    | with_reducible exact Keep.refl _ _
    | with_reducible assumption
    | with_reducible apply State.pushGo_keep
    | with_reducible apply State.reloadFail_keep
    | with_reducible apply State.reloadDo_keep
    | with_reducible apply State.reloadDone_keep
    | with_reducible apply Keep.ite <;> intro _
    | with_reducible apply Keep.foldl <;> try intro _ _ _
    | with_reducible apply Keep.foldl_snd <;> try intro _ _ _
    | with_reducible refine Keep.of_snd ‹_ = (_, _)› ?_
    | with_reducible refine Keep.of_snd2 ‹_ = (_, _, _)› ?_
    | with_reducible apply Keep.of_id
    | split
    | dsimp only

end Sys2Proof.Machine
end

