-- ==== Sys2Proof/WellFormed.lean ====
section
/-! DEFINITION. Which commands the part can be sent: every operand that names a thing of the part names one that exists, in the numbering of its row.
The meanings are total; what they do with a command that is not well formed says nothing about the part. -/
namespace Sys2Proof

/-- A requester that exists: its number is in range (R10, R380). -/
def Req.wf : Req → Bool
  | .core n => decide (n < 8)
  | .pcie f => decide (f < 8)
  | .rkn k => decide (k < 32)
  | .rcore r => decide (r < 6)
  | .engine r b => decide (r < 8) && decide (b < 12)
  | _ => true

/-- An address of the system map (R379), or of a function's BARs in the model's numbering (notes/assumptions/66.md). -/
def addrOk (a : Nat) : Bool := decide (a < 2 ^ 41)

/-- Every number of a list is below a bound. -/
def allBelow (b : Nat) (l : List Nat) : Bool := l.all (fun x => decide (x < b))

/-- A request at a DRAM channel that exists: bank, rank, block of a region (R416, R419). -/
def DramArrival.wf (a : DramArrival) : Bool := decide (a.bank < 32) && decide (a.rank < 2) && decide (a.block < 16)

/-- A request of the PHY that a PPDU is built for: an NDP has 1 to 16 streams (R192). -/
def PhyRequest.wf : PhyRequest → Bool
  | .ndp k => decide (1 ≤ k ∧ k ≤ 16)
  | _ => true

/-- The commands whose operands are in range. -/
def Instr.wf : Instr → Bool
  | .registerWrite rq addr _ _ => rq.wf && addrOk addr
  | .counterRead rq addr _ _ => rq.wf && addrOk addr
  | .resultRead rq addr _ _ => rq.wf && addrOk addr
  | .accessTimeout rq a => rq.wf && addrOk a
  | .crossbarTimeout rq a => rq.wf && addrOk a
  | .controlStorageEcc rq a => rq.wf && addrOk a
  | .fallbackReturn => true
  | .tamper n => decide (n < 2)
  | .kilnDetectorTrip => true
  | .vinAoRise => true
  | .vinAoLoss => true
  | .vinMainPresent => true
  | .vinMainLoss _ => true
  | .thermalTrip die => decide (die < 6)
  | .thermalWakeRelease _ => true
  | .railFault rail kind _ => decide (rail < 19) && decide (kind < 3)
  | .sleepOscFirstTick => true
  | .slpRatioMeasure => true
  | .timeRecordWrite => true
  | .setPoint rq _ => rq.wf
  | .islandChange rq _ => rq.wf
  | .railReady => true
  | .deferredChangeRelease => true
  | .sleepBanked rq _ => rq.wf
  | .sleepDormant rq _ => rq.wf
  | .sleepCancel rq _ => rq.wf
  | .phase1Answer => true
  | .phase1Timeout => true
  | .sleepRetry => true
  | .smbusAddressMatch addr _ => decide (addr < 128)
  | .wakeUpFrame id => decide (id < 4096)
  | .gpioWake n => decide (n < 4)
  | .timerWake => true
  | .wakeStageReady r _ => decide (r < 8)
  | .wakeStageTimeout r => decide (r < 8)
  | .kilnBoot _ _ _ _ flash => decide (flash < 3)
  | .imageVerify _ => true
  | .cordApply _ stage _ _ => decide (stage < 5)
  | .firmwareLoad _ => true
  | .pushAbort rq _ => rq.wf
  | .openBoot rq _ => rq.wf
  | .openReload rq _ => rq.wf
  | .openStoreA rq _ => rq.wf
  | .openStoreB rq _ => rq.wf
  | .reloadFromA rq _ => rq.wf
  | .reloadFromB rq _ => rq.wf
  | .aoPushData rq _ => rq.wf
  | .enrolment => true
  | .regionReload _ stage _ => decide (stage < 5)
  | .restackRequest rq _ => rq.wf
  | .restackCancel rq _ => rq.wf
  | .restackBoundary => true
  | .restackGapEnd => true
  | .pfClr rq q p _ => rq.wf && decide (q < 4) && decide (p < 16)
  | .ppduTransmitRequest l r _ _ punct => decide (l < 3) && r.wf && decide (punct < 65536)
  | .transmissionStart _ _ => true
  | .lateTolExpiry _ => true
  | .transmissionEnd _ => true
  | .loLock q k => decide (q < 4) && decide (k < 2)
  | .lockLost q k => decide (q < 4) && decide (k < 2)
  | .loRestart q k => decide (q < 4) && decide (k < 2)
  | .refclkLost => true
  | .refclkRestore => true
  | .asyncPulse misaligned => allBelow 4 misaligned
  | .ebufSlip g n => decide (g < 5) && decide (n < 8)
  | .asyncLost => true
  | .asyncInResume _ => true
  | .fenRffeCmd rq q _ => rq.wf && decide (q < 4)
  | .rffeCommandDone q k data _ => decide (q < 4) && decide (k < 4) && decide (data < 256)
  | .fenRffeRsp rq q => rq.wf && decide (q < 4)
  | .rffePoll q n _ _ => decide (q < 4) && decide (n < 16)
  | .vioOvercurrent q => decide (q < 4)
  | .vioEn rq q _ => rq.wf && decide (q < 4)
  | .biasShort q p => decide (q < 4) && decide (p < 16)
  | .biasOpen q p => decide (q < 4) && decide (p < 16)
  | .fastline q p => decide (q < 4) && decide (p < 16)
  | .coexReqRise n _ _ => decide (n < 3)
  | .coexReqFall n => decide (n < 3)
  | .maxDefer q n => decide (q < 4) && decide (n < 3)
  | .coexFault q n => decide (q < 4) && decide (n < 3)
  | .coexPortReturn n => decide (n < 3)
  | .dutyBucketClose => true
  | .afcExpired => true
  | .txfCommit rq q _ => rq.wf && decide (q < 4)
  | .beamIdNamed q route id => decide (q < 4) && decide (route < 16) && decide (id < 65536)
  | .beamRecordFetch q route id => decide (q < 4) && decide (route < 16) && decide (id < 65536)
  | .beamCommit rq q _ => rq.wf && decide (q < 4)
  | .dpdCommit rq q p _ => rq.wf && decide (q < 4) && decide (p < 16)
  | .crossfade q p _ => decide (q < 4) && decide (p < 16)
  | .orxVisitStart q r => decide (q < 4) && decide (r < 2)
  | .orxVisitEnd q r _ _ _ _ _ => decide (q < 4) && decide (r < 2)
  | .antRetry q p => decide (q < 4) && decide (p < 16)
  | .orxCapPop rq q => rq.wf && decide (q < 4)
  | .orxSlotFree rq q _ => rq.wf && decide (q < 4)
  | .calRun rq q _ => rq.wf && decide (q < 4)
  | .calAbort rq q _ => rq.wf && decide (q < 4)
  | .calEstimate q p n _ _ => decide (q < 4) && decide (p < 16) && decide (n < 32)
  | .calOffer q owner => decide (q < 4) && decide (owner < 3)
  | .calWindowStart q => decide (q < 4)
  | .calDone q _ => decide (q < 4)
  | .calRebook q => decide (q < 4)
  | .calForced q => decide (q < 4)
  | .orxElementReselect q r _ _ => decide (q < 4) && decide (r < 2)
  | .calCommit rq q => rq.wf && decide (q < 4)
  | .calLoad rq q => rq.wf && decide (q < 4)
  | .calRed rq q _ => rq.wf && decide (q < 4)
  | .calExport rq q _ => rq.wf && decide (q < 4)
  | .calRestore rq q _ => rq.wf && decide (q < 4)
  | .hkaResult c n codes => decide (c < 2) && decide (n < 64) && allBelow 4096 codes
  | .hkaPop rq => rq.wf
  | .plausFail _ _ => true
  | .preambleDetect l _ _ _ _ _ => decide (l < 3)
  | .signalField l _ _ => decide (l < 3)
  | .phyRestart l _ _ _ _ => decide (l < 3)
  | .phyCapture l _ _ _ _ => decide (l < 3)
  | .ppduEnd l => decide (l < 3)
  | .falseStartHoldEnd l _ => decide (l < 3)
  | .ccaStuck l => decide (l < 3)
  | .codewordDecoded d _ arrivals => decide (d < 32) && arrivals.all (fun a => decide (a.1 < 3))
  | .channelEstimate l _ _ _ _ _ => decide (l < 3)
  | .sndEstPop rq => rq.wf
  | .sndSlotFree rq _ => rq.wf
  | .beamformingReport l _ _ _ _ nr nc _ _ _ _ => decide (l < 3) && decide (nr ≤ 16) && decide (nc ≤ nr)
  | .radarPulse l sub _ _ _ _ => decide (l < 3) && decide (sub < 16)
  | .cacStart rq l _ => rq.wf && decide (l < 3)
  | .cacExpiry l i => decide (l < 3) && decide (i < 16)
  | .nopExpiry l i => decide (l < 3) && decide (i < 16)
  | .dfsMapSave => true
  | .phyDfsPop rq l => rq.wf && decide (l < 3)
  | .wacTableLoad rq => rq.wf
  | .wacTableCommit rq => rq.wf
  | .wacTableClear rq => rq.wf
  | .tbtt l => decide (l < 3)
  | .msduDelivery => true
  | .frameLifetime _ => true
  | .edcaBackoffExpiry l ac _ _ => decide (l < 3) && decide (ac < 5)
  | .bsrpTrigger l _ => decide (l < 3)
  | .wacBsrPop rq => rq.wf
  | .twtSpStart _ _ => true
  | .twtTriggerRepeat _ _ => true
  | .twtWindowClose _ => true
  | .mpduReceive l _ _ _ => decide (l < 3)
  | .reorderTimeout _ => true
  | .mtxDescriptorFetch _ => true
  | .wacMtxCplPop rq => rq.wf
  | .wacMrxFree rq _ => rq.wf
  | .quietWindowCts q l _ => decide (q < 4) && decide (l < 3)
  | .afcInstall rq => rq.wf
  | .afcClear rq => rq.wf
  | .fhFrameReceive _ => true
  | .dlRun => true
  | .ulUPlaneSend _ _ => true
  | .fhTimeFault => true
  | .fhResume => true
  | .fhuRetPop rq => rq.wf
  | .fhuRetFree rq _ => rq.wf
  | .lrcPreambleDetect c sf _ _ => decide (c < 16) && decide (sf < 13)
  | .lrcHeader c _ _ _ _ => decide (c < 16)
  | .lrcCapture c sf _ _ => decide (c < 16) && decide (sf < 13)
  | .lrcFrameEnd c _ _ _ _ _ _ => decide (c < 16)
  | .downlinkWindow1 _ => true
  | .downlinkWindow2 _ => true
  | .txaDlPush rq _ => rq.wf
  | .txaDlCplPop rq => rq.wf
  | .txaDlExpired _ => true
  | .txaCtrData rq _ => rq.wf
  | .offsetFeedbackWrite => true
  | .fbDefer => true
  | .ethFrameReceive p _ _ _ => decide (p < 8)
  | .pauseEnd p => decide (p < 8)
  | .passStart pipe => decide (pipe < 2)
  | .passEnd _ => true
  | .flowBucketFetch _ => true
  | .flwVerCommit rq => rq.wf
  | .flwCopy rq => rq.wf
  | .drainEnd => true
  | .flwLoad rq => rq.wf
  | .flwWrite rq => rq.wf
  | .flwClear rq => rq.wf
  | .flwInsert rq => rq.wf
  | .flwDelete rq => rq.wf
  | .agingScan => true
  | .swTxDescriptorFetch r => decide (r < 9)
  | .swTxCplPop rq r => rq.wf && decide (r < 9)
  | .swRxFree rq r _ => rq.wf && decide (r < 9)
  | .packetStart p => decide (p < 12)
  | .tmgTableLoad rq => rq.wf
  | .tmgTableWrite rq => rq.wf
  | .tmgTableClear rq => rq.wf
  | .gateChangeOp rq p _ _ => rq.wf && decide (p < 8)
  | .gateCancelOp rq p _ _ => rq.wf && decide (p < 8)
  | .gateChangeDue p => decide (p < 8)
  | .gateEntryEnd p => decide (p < 8)
  | .ntuTimeNs rq => rq.wf
  | .ntuAdj rq => rq.wf
  | .ntuSet rq => rq.wf
  | .ntuForceAdj rq => rq.wf
  | .ntuForceSet rq => rq.wf
  | .ntuHoldover rq => rq.wf
  | .ntuUnlock rq => rq.wf
  | .ntuArm rq => rq.wf
  | .ntuArmExpiry => true
  | .slewEnd => true
  | .servoWatchdog => true
  | .timeRateWrite rq _ => rq.wf
  | .ppsOutPulse => true
  | .ppsIn => true
  | .tsyncInEdge _ => true
  | .ntuTsyncStart rq _ => rq.wf
  | .tsyncOutPulse => true
  | .ntuCapStat rq => rq.wf
  | .ntuTxtsPop rq => rq.wf
  | .ptmRequest rq => rq.wf
  | .ptmResponse _ _ => true
  | .ptmTimeout => true
  | .synceSourceLoss => true
  | .synceRelock _ => true
  | .coreStart rq c => rq.wf && decide (c < 8)
  | .coreReset rq c => rq.wf && decide (c < 8)
  | .regionCoreStart rq g => rq.wf && decide (g < 6)
  | .regionCoreReset rq g => rq.wf && decide (g < 6)
  | .tlyReady rq => rq.wf
  | .tlyDelay rq dlist => rq.wf && decide (dlist < 4)
  | .tlyDlyCancel rq h => rq.wf && decide (h < 32768)
  | .delayDue l _ => decide (l < 4)
  | .tlyPick rq => rq.wf
  | .reckonerDispatch k => decide (k < 32)
  | .tlyDone rq _ => rq.wf
  | .tlyRelPop rq q => rq.wf && decide (q < 16)
  | .eventEdge n => decide (n < 256)
  | .eventBead n => decide (n < 256)
  | .evtClaim rq => rq.wf
  | .evtHclaim rq => rq.wf
  | .evtClr rq n => rq.wf && decide (n < 256)
  | .rknStart rq k => rq.wf && decide (k < 32)
  | .rknStop rq k => rq.wf && decide (k < 32)
  | .rknAcc rq k a l _ => rq.wf && decide (k < 32) && decide (a < 4) && decide (l < 8)
  | .rknNop k => decide (k < 32)
  | .rknHalt k => decide (k < 32)
  | .rknLoop k => decide (k < 32)
  | .rknBrc k => decide (k < 32)
  | .rknDma k => decide (k < 32)
  | .rknDmaComplete k _ => decide (k < 32)
  | .rknDwait k => decide (k < 32)
  | .rknLd k => decide (k < 32)
  | .rknSt k => decide (k < 32)
  | .rknLde k => decide (k < 32)
  | .rknSte k => decide (k < 32)
  | .rknVadd k => decide (k < 32)
  | .rknVsub k => decide (k < 32)
  | .rknVmul k => decide (k < 32)
  | .rknVmac k => decide (k < 32)
  | .rknVmsu k => decide (k < 32)
  | .rknAmov k => decide (k < 32)
  | .rknAclr k => decide (k < 32)
  | .rknVbfly k => decide (k < 32)
  | .rknVsh k => decide (k < 32)
  | .rknSli k => decide (k < 32)
  | .rknSlui k => decide (k < 32)
  | .rknSaddi k => decide (k < 32)
  | .rknSadd k => decide (k < 32)
  | .rknSetp k => decide (k < 32)
  | .rknSetm k => decide (k < 32)
  | .sramScrub a outcome => addrOk a && decide (outcome < 3)
  | .dramCommand c arrivals ecc _ => decide (c < 2) && decide (ecc < 3) && arrivals.all DramArrival.wf
  | .throttleEnd c => decide (c < 2)
  | .dramRefresh c => decide (c < 2)
  | .zqCalibration c => decide (c < 2)
  | .dramTempPoll c _ => decide (c < 2)
  | .pageIdle c bank rank => decide (c < 2) && decide (bank < 32) && decide (rank < 2)
  | .dmcPanic c _ _ _ => decide (c < 2)
  | .dmcRtStarve c _ => decide (c < 2)
  | .getRandom => true
  | .klnAttest => true
  | .getCert => true
  | .klnImport => true
  | .klnDerive => true
  | .deployToken => true
  | .returnToken => true
  | .scrapToken => true
  | .keyAdd => true
  | .keyRevoke => true
  | .lockToken => true
  | .debugToken => true
  | .slotWrite rq slot _ => rq.wf && decide (slot < 8192)
  | .slotClear rq slot => rq.wf && decide (slot < 8192)
  | .gcmEnc r => decide (r < 4)
  | .gcmDec r => decide (r < 4)
  | .gmacGen r => decide (r < 4)
  | .gmacVer r => decide (r < 4)
  | .ccmEnc r => decide (r < 4)
  | .ccmDec r => decide (r < 4)
  | .xtsEnc r => decide (r < 4)
  | .xtsDec r => decide (r < 4)
  | .cipCtr r => decide (r < 4)
  | .cmacGen r => decide (r < 4)
  | .cmacVer r => decide (r < 4)
  | .jobCompletion r => decide (r < 4)
  | .cipCplPop rq r => rq.wf && decide (r < 4)
  | .trngHealthFail => true
  | .drbgReseed => true
  | .ashRecordWrite => true
  | .coalesceClose i => decide (i < 64)
  | .incidentClose => true
  | .ashRelease rq slot => rq.wf && decide (slot < 8)
  | .agingMeasure r _ => decide (r < 8)
  | .polarityRetry n => decide (n < 8)
  | .linkUp p _ _ _ => decide (p < 10)
  | .linkDown p => decide (p < 10)
  | .hlLink _ _ gen width => decide (gen < 6) && decide (width < 5) && decide (1 ≤ gen)
  | .perstRise => true
  | .perstFall => true
  | .functionLevelReset f => decide (f < 8)
  | .retryStatusEnd => true
  | .smbusWriteReg a _ count _ => decide (a < 4294967296) && decide (count < 256)
  | .smbusSetAddr a burst count _ => decide (a < 4294967296) && decide (burst < 256) && decide (count < 256)
  | .smbusRead => true
  | .smbusStatus => true
  | .smbusPush _ count _ => decide (count < 256)
  | .smbusAlertResponse => true
  | .smbusSclTimeout => true
  | .smbFault => true
  | .smbBusIdle => true
  | .xspiRead rq _ => rq.wf
  | .xspiProgram rq _ => rq.wf
  | .xspiErase4K rq _ => rq.wf
  | .xspiErase64K rq _ => rq.wf
  | .xspiDone _ => true
  | .jtagIdcode => true
  | .jtagBypass => true
  | .gpioEdge n _ => decide (n < 32)
  | .energyDetect l sub _ _ => decide (l < 3) && decide (sub < 16)
  | .regionCoreTrap g _ => decide (g < 6)
  | .sleepOscillatorStop => true
  | .configurationRequest f _ => decide (f < 8)

/-- Who sends a command: the requester of an access; none for what the outside world or an engine of the part brings. -/
def Instr.sender? : Instr → Option Req
  | .registerWrite rq _ _ _ => some rq
  | .counterRead rq _ _ _ => some rq
  | .resultRead rq _ _ _ => some rq
  | .accessTimeout rq _ => some rq
  | .crossbarTimeout rq _ => some rq
  | .controlStorageEcc rq _ => some rq
  | .fallbackReturn => none
  | .tamper _ => none
  | .kilnDetectorTrip => none
  | .vinAoRise => none
  | .vinAoLoss => none
  | .vinMainPresent => none
  | .vinMainLoss _ => none
  | .thermalTrip _ => none
  | .thermalWakeRelease _ => none
  | .railFault _ _ _ => none
  | .sleepOscFirstTick => none
  | .slpRatioMeasure => none
  | .timeRecordWrite => none
  | .setPoint rq _ => some rq
  | .islandChange rq _ => some rq
  | .railReady => none
  | .deferredChangeRelease => none
  | .sleepBanked rq _ => some rq
  | .sleepDormant rq _ => some rq
  | .sleepCancel rq _ => some rq
  | .phase1Answer => none
  | .phase1Timeout => none
  | .sleepRetry => none
  | .smbusAddressMatch _ _ => none
  | .wakeUpFrame _ => none
  | .gpioWake _ => none
  | .timerWake => none
  | .wakeStageReady _ _ => none
  | .wakeStageTimeout _ => none
  | .kilnBoot _ _ _ _ _ => none
  | .imageVerify _ => none
  | .cordApply _ _ _ _ => none
  | .firmwareLoad _ => none
  | .pushAbort rq _ => some rq
  | .openBoot rq _ => some rq
  | .openReload rq _ => some rq
  | .openStoreA rq _ => some rq
  | .openStoreB rq _ => some rq
  | .reloadFromA rq _ => some rq
  | .reloadFromB rq _ => some rq
  | .aoPushData rq _ => some rq
  | .enrolment => none
  | .regionReload _ _ _ => none
  | .restackRequest rq _ => some rq
  | .restackCancel rq _ => some rq
  | .restackBoundary => none
  | .restackGapEnd => none
  | .pfClr rq _ _ _ => some rq
  | .ppduTransmitRequest _ _ _ _ _ => none
  | .transmissionStart _ _ => none
  | .lateTolExpiry _ => none
  | .transmissionEnd _ => none
  | .loLock _ _ => none
  | .lockLost _ _ => none
  | .loRestart _ _ => none
  | .refclkLost => none
  | .refclkRestore => none
  | .asyncPulse _ => none
  | .ebufSlip _ _ => none
  | .asyncLost => none
  | .asyncInResume _ => none
  | .fenRffeCmd rq _ _ => some rq
  | .rffeCommandDone _ _ _ _ => none
  | .fenRffeRsp rq _ => some rq
  | .rffePoll _ _ _ _ => none
  | .vioOvercurrent _ => none
  | .vioEn rq _ _ => some rq
  | .biasShort _ _ => none
  | .biasOpen _ _ => none
  | .fastline _ _ => none
  | .coexReqRise _ _ _ => none
  | .coexReqFall _ => none
  | .maxDefer _ _ => none
  | .coexFault _ _ => none
  | .coexPortReturn _ => none
  | .dutyBucketClose => none
  | .afcExpired => none
  | .txfCommit rq _ _ => some rq
  | .beamIdNamed _ _ _ => none
  | .beamRecordFetch _ _ _ => none
  | .beamCommit rq _ _ => some rq
  | .dpdCommit rq _ _ _ => some rq
  | .crossfade _ _ _ => none
  | .orxVisitStart _ _ => none
  | .orxVisitEnd _ _ _ _ _ _ _ => none
  | .antRetry _ _ => none
  | .orxCapPop rq _ => some rq
  | .orxSlotFree rq _ _ => some rq
  | .calRun rq _ _ => some rq
  | .calAbort rq _ _ => some rq
  | .calEstimate _ _ _ _ _ => none
  | .calOffer _ _ => none
  | .calWindowStart _ => none
  | .calDone _ _ => none
  | .calRebook _ => none
  | .calForced _ => none
  | .orxElementReselect _ _ _ _ => none
  | .calCommit rq _ => some rq
  | .calLoad rq _ => some rq
  | .calRed rq _ _ => some rq
  | .calExport rq _ _ => some rq
  | .calRestore rq _ _ => some rq
  | .hkaResult _ _ _ => none
  | .hkaPop rq => some rq
  | .plausFail _ _ => none
  | .preambleDetect _ _ _ _ _ _ => none
  | .signalField _ _ _ => none
  | .phyRestart _ _ _ _ _ => none
  | .phyCapture _ _ _ _ _ => none
  | .ppduEnd _ => none
  | .falseStartHoldEnd _ _ => none
  | .ccaStuck _ => none
  | .codewordDecoded _ _ _ => none
  | .channelEstimate _ _ _ _ _ _ => none
  | .sndEstPop rq => some rq
  | .sndSlotFree rq _ => some rq
  | .beamformingReport _ _ _ _ _ _ _ _ _ _ _ => none
  | .radarPulse _ _ _ _ _ _ => none
  | .cacStart rq _ _ => some rq
  | .cacExpiry _ _ => none
  | .nopExpiry _ _ => none
  | .dfsMapSave => none
  | .phyDfsPop rq _ => some rq
  | .wacTableLoad rq => some rq
  | .wacTableCommit rq => some rq
  | .wacTableClear rq => some rq
  | .tbtt _ => none
  | .msduDelivery => none
  | .frameLifetime _ => none
  | .edcaBackoffExpiry _ _ _ _ => none
  | .bsrpTrigger _ _ => none
  | .wacBsrPop rq => some rq
  | .twtSpStart _ _ => none
  | .twtTriggerRepeat _ _ => none
  | .twtWindowClose _ => none
  | .mpduReceive _ _ _ _ => none
  | .reorderTimeout _ => none
  | .mtxDescriptorFetch _ => none
  | .wacMtxCplPop rq => some rq
  | .wacMrxFree rq _ => some rq
  | .quietWindowCts _ _ _ => none
  | .afcInstall rq => some rq
  | .afcClear rq => some rq
  | .fhFrameReceive _ => none
  | .dlRun => none
  | .ulUPlaneSend _ _ => none
  | .fhTimeFault => none
  | .fhResume => none
  | .fhuRetPop rq => some rq
  | .fhuRetFree rq _ => some rq
  | .lrcPreambleDetect _ _ _ _ => none
  | .lrcHeader _ _ _ _ _ => none
  | .lrcCapture _ _ _ _ => none
  | .lrcFrameEnd _ _ _ _ _ _ _ => none
  | .downlinkWindow1 _ => none
  | .downlinkWindow2 _ => none
  | .txaDlPush rq _ => some rq
  | .txaDlCplPop rq => some rq
  | .txaDlExpired _ => none
  | .txaCtrData rq _ => some rq
  | .offsetFeedbackWrite => none
  | .fbDefer => none
  | .ethFrameReceive _ _ _ _ => none
  | .pauseEnd _ => none
  | .passStart _ => none
  | .passEnd _ => none
  | .flowBucketFetch _ => none
  | .flwVerCommit rq => some rq
  | .flwCopy rq => some rq
  | .drainEnd => none
  | .flwLoad rq => some rq
  | .flwWrite rq => some rq
  | .flwClear rq => some rq
  | .flwInsert rq => some rq
  | .flwDelete rq => some rq
  | .agingScan => none
  | .swTxDescriptorFetch _ => none
  | .swTxCplPop rq _ => some rq
  | .swRxFree rq _ _ => some rq
  | .packetStart _ => none
  | .tmgTableLoad rq => some rq
  | .tmgTableWrite rq => some rq
  | .tmgTableClear rq => some rq
  | .gateChangeOp rq _ _ _ => some rq
  | .gateCancelOp rq _ _ _ => some rq
  | .gateChangeDue _ => none
  | .gateEntryEnd _ => none
  | .ntuTimeNs rq => some rq
  | .ntuAdj rq => some rq
  | .ntuSet rq => some rq
  | .ntuForceAdj rq => some rq
  | .ntuForceSet rq => some rq
  | .ntuHoldover rq => some rq
  | .ntuUnlock rq => some rq
  | .ntuArm rq => some rq
  | .ntuArmExpiry => none
  | .slewEnd => none
  | .servoWatchdog => none
  | .timeRateWrite rq _ => some rq
  | .ppsOutPulse => none
  | .ppsIn => none
  | .tsyncInEdge _ => none
  | .ntuTsyncStart rq _ => some rq
  | .tsyncOutPulse => none
  | .ntuCapStat rq => some rq
  | .ntuTxtsPop rq => some rq
  | .ptmRequest rq => some rq
  | .ptmResponse _ _ => none
  | .ptmTimeout => none
  | .synceSourceLoss => none
  | .synceRelock _ => none
  | .coreStart rq _ => some rq
  | .coreReset rq _ => some rq
  | .regionCoreStart rq _ => some rq
  | .regionCoreReset rq _ => some rq
  | .tlyReady rq => some rq
  | .tlyDelay rq _ => some rq
  | .tlyDlyCancel rq _ => some rq
  | .delayDue _ _ => none
  | .tlyPick rq => some rq
  | .reckonerDispatch _ => none
  | .tlyDone rq _ => some rq
  | .tlyRelPop rq _ => some rq
  | .eventEdge _ => none
  | .eventBead _ => none
  | .evtClaim rq => some rq
  | .evtHclaim rq => some rq
  | .evtClr rq _ => some rq
  | .rknStart rq _ => some rq
  | .rknStop rq _ => some rq
  | .rknAcc rq _ _ _ _ => some rq
  | .rknNop _ => none
  | .rknHalt _ => none
  | .rknLoop _ => none
  | .rknBrc _ => none
  | .rknDma _ => none
  | .rknDmaComplete _ _ => none
  | .rknDwait _ => none
  | .rknLd _ => none
  | .rknSt _ => none
  | .rknLde _ => none
  | .rknSte _ => none
  | .rknVadd _ => none
  | .rknVsub _ => none
  | .rknVmul _ => none
  | .rknVmac _ => none
  | .rknVmsu _ => none
  | .rknAmov _ => none
  | .rknAclr _ => none
  | .rknVbfly _ => none
  | .rknVsh _ => none
  | .rknSli _ => none
  | .rknSlui _ => none
  | .rknSaddi _ => none
  | .rknSadd _ => none
  | .rknSetp _ => none
  | .rknSetm _ => none
  | .sramScrub _ _ => none
  | .dramCommand _ _ _ _ => none
  | .throttleEnd _ => none
  | .dramRefresh _ => none
  | .zqCalibration _ => none
  | .dramTempPoll _ _ => none
  | .pageIdle _ _ _ => none
  | .dmcPanic _ _ _ _ => none
  | .dmcRtStarve _ _ => none
  | .getRandom => none
  | .klnAttest => none
  | .getCert => none
  | .klnImport => none
  | .klnDerive => none
  | .deployToken => none
  | .returnToken => none
  | .scrapToken => none
  | .keyAdd => none
  | .keyRevoke => none
  | .lockToken => none
  | .debugToken => none
  | .slotWrite rq _ _ => some rq
  | .slotClear rq _ => some rq
  | .gcmEnc _ => none
  | .gcmDec _ => none
  | .gmacGen _ => none
  | .gmacVer _ => none
  | .ccmEnc _ => none
  | .ccmDec _ => none
  | .xtsEnc _ => none
  | .xtsDec _ => none
  | .cipCtr _ => none
  | .cmacGen _ => none
  | .cmacVer _ => none
  | .jobCompletion _ => none
  | .cipCplPop rq _ => some rq
  | .trngHealthFail => none
  | .drbgReseed => none
  | .ashRecordWrite => none
  | .coalesceClose _ => none
  | .incidentClose => none
  | .ashRelease rq _ => some rq
  | .agingMeasure _ _ => none
  | .polarityRetry _ => none
  | .linkUp _ _ _ _ => none
  | .linkDown _ => none
  | .hlLink _ _ _ _ => none
  | .perstRise => none
  | .perstFall => none
  | .functionLevelReset _ => none
  | .retryStatusEnd => none
  | .smbusWriteReg _ _ _ _ => none
  | .smbusSetAddr _ _ _ _ => none
  | .smbusRead => none
  | .smbusStatus => none
  | .smbusPush _ _ _ => none
  | .smbusAlertResponse => none
  | .smbusSclTimeout => none
  | .smbFault => none
  | .smbBusIdle => none
  | .xspiRead rq _ => some rq
  | .xspiProgram rq _ => some rq
  | .xspiErase4K rq _ => some rq
  | .xspiErase64K rq _ => some rq
  | .xspiDone _ => none
  | .jtagIdcode => none
  | .jtagBypass => none
  | .gpioEdge _ _ => none
  | .energyDetect _ _ _ _ => none
  | .regionCoreTrap _ _ => none
  | .sleepOscillatorStop => none
  | .configurationRequest _ _ => none

end Sys2Proof
end

