-- ==== Sys2Proof/Laws/PerInstr.lean ====
section
/-! SUPPORT. One statement per command: the sender of a well-formed command is a requester that exists. -/
set_option Elab.async false

namespace Sys2Proof.Laws.SenderExists

/-- A well-formed command is sent by nobody, or by a requester that exists (R10, R380). -/
def Statement (i : Instr) : Prop := i.wf = true → ∀ rq, i.sender? = some rq → rq.wf = true

theorem registerWrite (rq : Req) (addr : Nat) (size : Nat) (v : Word) : Statement (.registerWrite rq addr size v) := by
  intro h rq hs; cases hs; simp_all [Instr.wf]
theorem counterRead (rq : Req) (addr : Nat) (size : Nat) (sameCycle : Bool) : Statement (.counterRead rq addr size sameCycle) := by
  intro h rq hs; cases hs; simp_all [Instr.wf]
theorem resultRead (rq : Req) (addr : Nat) (size : Nat) (same : Bool) : Statement (.resultRead rq addr size same) := by
  intro h rq hs; cases hs; simp_all [Instr.wf]
theorem accessTimeout (rq : Req) (a : Nat) : Statement (.accessTimeout rq a) := by
  intro h rq hs; cases hs; simp_all [Instr.wf]
theorem crossbarTimeout (rq : Req) (a : Nat) : Statement (.crossbarTimeout rq a) := by
  intro h rq hs; cases hs; simp_all [Instr.wf]
theorem controlStorageEcc (rq : Req) (a : Nat) : Statement (.controlStorageEcc rq a) := by
  intro h rq hs; cases hs; simp_all [Instr.wf]
theorem fallbackReturn : Statement (.fallbackReturn) := by
  intro _ _ hs; cases hs
theorem tamper (n : Nat) : Statement (.tamper n) := by
  intro _ _ hs; cases hs
theorem kilnDetectorTrip : Statement (.kilnDetectorTrip) := by
  intro _ _ hs; cases hs
theorem vinAoRise : Statement (.vinAoRise) := by
  intro _ _ hs; cases hs
theorem vinAoLoss : Statement (.vinAoLoss) := by
  intro _ _ hs; cases hs
theorem vinMainPresent : Statement (.vinMainPresent) := by
  intro _ _ hs; cases hs
theorem vinMainLoss (high : Bool) : Statement (.vinMainLoss high) := by
  intro _ _ hs; cases hs
theorem thermalTrip (die : Nat) : Statement (.thermalTrip die) := by
  intro _ _ hs; cases hs
theorem thermalWakeRelease (temp : Int) : Statement (.thermalWakeRelease temp) := by
  intro _ _ hs; cases hs
theorem railFault (rail : Nat) (kind : Nat) (mv : Nat) : Statement (.railFault rail kind mv) := by
  intro _ _ hs; cases hs
theorem sleepOscFirstTick : Statement (.sleepOscFirstTick) := by
  intro _ _ hs; cases hs
theorem slpRatioMeasure : Statement (.slpRatioMeasure) := by
  intro _ _ hs; cases hs
theorem timeRecordWrite : Statement (.timeRecordWrite) := by
  intro _ _ hs; cases hs
theorem setPoint (rq : Req) (v : Word) : Statement (.setPoint rq v) := by
  intro h rq hs; cases hs; simp_all [Instr.wf]
theorem islandChange (rq : Req) (v : Word) : Statement (.islandChange rq v) := by
  intro h rq hs; cases hs; simp_all [Instr.wf]
theorem railReady : Statement (.railReady) := by
  intro _ _ hs; cases hs
theorem deferredChangeRelease : Statement (.deferredChangeRelease) := by
  intro _ _ hs; cases hs
theorem sleepBanked (rq : Req) (v : Word) : Statement (.sleepBanked rq v) := by
  intro h rq hs; cases hs; simp_all [Instr.wf]
theorem sleepDormant (rq : Req) (v : Word) : Statement (.sleepDormant rq v) := by
  intro h rq hs; cases hs; simp_all [Instr.wf]
theorem sleepCancel (rq : Req) (v : Word) : Statement (.sleepCancel rq v) := by
  intro h rq hs; cases hs; simp_all [Instr.wf]
theorem phase1Answer : Statement (.phase1Answer) := by
  intro _ _ hs; cases hs
theorem phase1Timeout : Statement (.phase1Timeout) := by
  intro _ _ hs; cases hs
theorem sleepRetry : Statement (.sleepRetry) := by
  intro _ _ hs; cases hs
theorem smbusAddressMatch (addr : Nat) (write : Bool) : Statement (.smbusAddressMatch addr write) := by
  intro _ _ hs; cases hs
theorem wakeUpFrame (id : Nat) : Statement (.wakeUpFrame id) := by
  intro _ _ hs; cases hs
theorem gpioWake (n : Nat) : Statement (.gpioWake n) := by
  intro _ _ hs; cases hs
theorem timerWake : Statement (.timerWake) := by
  intro _ _ hs; cases hs
theorem wakeStageReady (r : Nat) (vioOk : Bool) : Statement (.wakeStageReady r vioOk) := by
  intro _ _ hs; cases hs
theorem wakeStageTimeout (r : Nat) : Statement (.wakeStageTimeout r) := by
  intro _ _ hs; cases hs
theorem kilnBoot (rom : Bool) (fuses : Bool) (puf : Bool) (mac : Bool) (flash : Nat) : Statement (.kilnBoot rom fuses puf mac flash) := by
  intro _ _ hs; cases hs
theorem imageVerify (readOk : Bool) : Statement (.imageVerify readOk) := by
  intro _ _ hs; cases hs
theorem cordApply (readOk : Bool) (stage : Nat) (dramOk : Bool) (vioOk : Bool) : Statement (.cordApply readOk stage dramOk vioOk) := by
  intro _ _ hs; cases hs
theorem firmwareLoad (readOk : Bool) : Statement (.firmwareLoad readOk) := by
  intro _ _ hs; cases hs
theorem pushAbort (rq : Req) (v : Word) : Statement (.pushAbort rq v) := by
  intro h rq hs; cases hs; simp_all [Instr.wf]
theorem openBoot (rq : Req) (v : Word) : Statement (.openBoot rq v) := by
  intro h rq hs; cases hs; simp_all [Instr.wf]
theorem openReload (rq : Req) (v : Word) : Statement (.openReload rq v) := by
  intro h rq hs; cases hs; simp_all [Instr.wf]
theorem openStoreA (rq : Req) (v : Word) : Statement (.openStoreA rq v) := by
  intro h rq hs; cases hs; simp_all [Instr.wf]
theorem openStoreB (rq : Req) (v : Word) : Statement (.openStoreB rq v) := by
  intro h rq hs; cases hs; simp_all [Instr.wf]
theorem reloadFromA (rq : Req) (v : Word) : Statement (.reloadFromA rq v) := by
  intro h rq hs; cases hs; simp_all [Instr.wf]
theorem reloadFromB (rq : Req) (v : Word) : Statement (.reloadFromB rq v) := by
  intro h rq hs; cases hs; simp_all [Instr.wf]
theorem aoPushData (rq : Req) (v : Word) : Statement (.aoPushData rq v) := by
  intro h rq hs; cases hs; simp_all [Instr.wf]
theorem enrolment : Statement (.enrolment) := by
  intro _ _ hs; cases hs
theorem regionReload (readOk : Bool) (stage : Nat) (vioOk : Bool) : Statement (.regionReload readOk stage vioOk) := by
  intro _ _ hs; cases hs
theorem restackRequest (rq : Req) (v : Word) : Statement (.restackRequest rq v) := by
  intro h rq hs; cases hs; simp_all [Instr.wf]
theorem restackCancel (rq : Req) (v : Word) : Statement (.restackCancel rq v) := by
  intro h rq hs; cases hs; simp_all [Instr.wf]
theorem restackBoundary : Statement (.restackBoundary) := by
  intro _ _ hs; cases hs
theorem restackGapEnd : Statement (.restackGapEnd) := by
  intro _ _ hs; cases hs
theorem pfClr (rq : Req) (q : Nat) (p : Nat) (v : Word) : Statement (.pfClr rq q p v) := by
  intro h rq hs; cases hs; simp_all [Instr.wf]
theorem ppduTransmitRequest (l : Nat) (r : PhyRequest) (launch : Int) (air : Nat) (punct : Nat) : Statement (.ppduTransmitRequest l r launch air punct) := by
  intro _ _ hs; cases hs
theorem transmissionStart (id : Nat) (vecs : List (List (List Cx))) : Statement (.transmissionStart id vecs) := by
  intro _ _ hs; cases hs
theorem lateTolExpiry (id : Nat) : Statement (.lateTolExpiry id) := by
  intro _ _ hs; cases hs
theorem transmissionEnd (id : Nat) : Statement (.transmissionEnd id) := by
  intro _ _ hs; cases hs
theorem loLock (q : Nat) (k : Nat) : Statement (.loLock q k) := by
  intro _ _ hs; cases hs
theorem lockLost (q : Nat) (k : Nat) : Statement (.lockLost q k) := by
  intro _ _ hs; cases hs
theorem loRestart (q : Nat) (k : Nat) : Statement (.loRestart q k) := by
  intro _ _ hs; cases hs
theorem refclkLost : Statement (.refclkLost) := by
  intro _ _ hs; cases hs
theorem refclkRestore : Statement (.refclkRestore) := by
  intro _ _ hs; cases hs
theorem asyncPulse (misaligned : List Nat) : Statement (.asyncPulse misaligned) := by
  intro _ _ hs; cases hs
theorem ebufSlip (g : Nat) (n : Nat) : Statement (.ebufSlip g n) := by
  intro _ _ hs; cases hs
theorem asyncLost : Statement (.asyncLost) := by
  intro _ _ hs; cases hs
theorem asyncInResume (displaced : Bool) : Statement (.asyncInResume displaced) := by
  intro _ _ hs; cases hs
theorem fenRffeCmd (rq : Req) (q : Nat) (v : Word) : Statement (.fenRffeCmd rq q v) := by
  intro h rq hs; cases hs; simp_all [Instr.wf]
theorem rffeCommandDone (q : Nat) (k : Nat) (data : Nat) (perr : Bool) : Statement (.rffeCommandDone q k data perr) := by
  intro _ _ hs; cases hs
theorem fenRffeRsp (rq : Req) (q : Nat) : Statement (.fenRffeRsp rq q) := by
  intro h rq hs; cases hs; simp_all [Instr.wf]
theorem rffePoll (q : Nat) (n : Nat) (pid : Nat) (parity : Bool) : Statement (.rffePoll q n pid parity) := by
  intro _ _ hs; cases hs
theorem vioOvercurrent (q : Nat) : Statement (.vioOvercurrent q) := by
  intro _ _ hs; cases hs
theorem vioEn (rq : Req) (q : Nat) (v : Word) : Statement (.vioEn rq q v) := by
  intro h rq hs; cases hs; simp_all [Instr.wf]
theorem biasShort (q : Nat) (p : Nat) : Statement (.biasShort q p) := by
  intro _ _ hs; cases hs
theorem biasOpen (q : Nat) (p : Nat) : Statement (.biasOpen q p) := by
  intro _ _ hs; cases hs
theorem fastline (q : Nat) (p : Nat) : Statement (.fastline q p) := by
  intro _ _ hs; cases hs
theorem coexReqRise (n : Nat) (pri : Bool) (bnd : Bool) : Statement (.coexReqRise n pri bnd) := by
  intro _ _ hs; cases hs
theorem coexReqFall (n : Nat) : Statement (.coexReqFall n) := by
  intro _ _ hs; cases hs
theorem maxDefer (q : Nat) (n : Nat) : Statement (.maxDefer q n) := by
  intro _ _ hs; cases hs
theorem coexFault (q : Nat) (n : Nat) : Statement (.coexFault q n) := by
  intro _ _ hs; cases hs
theorem coexPortReturn (n : Nat) : Statement (.coexPortReturn n) := by
  intro _ _ hs; cases hs
theorem dutyBucketClose : Statement (.dutyBucketClose) := by
  intro _ _ hs; cases hs
theorem afcExpired : Statement (.afcExpired) := by
  intro _ _ hs; cases hs
theorem txfCommit (rq : Req) (q : Nat) (v : Word) : Statement (.txfCommit rq q v) := by
  intro h rq hs; cases hs; simp_all [Instr.wf]
theorem beamIdNamed (q : Nat) (route : Nat) (id : Nat) : Statement (.beamIdNamed q route id) := by
  intro _ _ hs; cases hs
theorem beamRecordFetch (q : Nat) (route : Nat) (id : Nat) : Statement (.beamRecordFetch q route id) := by
  intro _ _ hs; cases hs
theorem beamCommit (rq : Req) (q : Nat) (v : Word) : Statement (.beamCommit rq q v) := by
  intro h rq hs; cases hs; simp_all [Instr.wf]
theorem dpdCommit (rq : Req) (q : Nat) (p : Nat) (v : Word) : Statement (.dpdCommit rq q p v) := by
  intro h rq hs; cases hs; simp_all [Instr.wf]
theorem crossfade (q : Nat) (p : Nat) (tx : Bool) : Statement (.crossfade q p tx) := by
  intro _ _ hs; cases hs
theorem orxVisitStart (q : Nat) (r : Nat) : Statement (.orxVisitStart q r) := by
  intro _ _ hs; cases hs
theorem orxVisitEnd (q : Nat) (r : Nat) (pFwd : Int) (pRev : Int) (lo : Nat) (hi : Nat) (fwd : List Cx) : Statement (.orxVisitEnd q r pFwd pRev lo hi fwd) := by
  intro _ _ hs; cases hs
theorem antRetry (q : Nat) (p : Nat) : Statement (.antRetry q p) := by
  intro _ _ hs; cases hs
theorem orxCapPop (rq : Req) (q : Nat) : Statement (.orxCapPop rq q) := by
  intro h rq hs; cases hs; simp_all [Instr.wf]
theorem orxSlotFree (rq : Req) (q : Nat) (v : Word) : Statement (.orxSlotFree rq q v) := by
  intro h rq hs; cases hs; simp_all [Instr.wf]
theorem calRun (rq : Req) (q : Nat) (v : Word) : Statement (.calRun rq q v) := by
  intro h rq hs; cases hs; simp_all [Instr.wf]
theorem calAbort (rq : Req) (q : Nat) (v : Word) : Statement (.calAbort rq q v) := by
  intro h rq hs; cases hs; simp_all [Instr.wf]
theorem calEstimate (q : Nat) (p : Nat) (n : Nat) (w : Word) (moved : Bool) : Statement (.calEstimate q p n w moved) := by
  intro _ _ hs; cases hs
theorem calOffer (q : Nat) (owner : Nat) : Statement (.calOffer q owner) := by
  intro _ _ hs; cases hs
theorem calWindowStart (q : Nat) : Statement (.calWindowStart q) := by
  intro _ _ hs; cases hs
theorem calDone (q : Nat) (exhausted : List Nat) : Statement (.calDone q exhausted) := by
  intro _ _ hs; cases hs
theorem calRebook (q : Nat) : Statement (.calRebook q) := by
  intro _ _ hs; cases hs
theorem calForced (q : Nat) : Statement (.calForced q) := by
  intro _ _ hs; cases hs
theorem orxElementReselect (q : Nat) (r : Nat) (elem : Nat) (meets : Bool) : Statement (.orxElementReselect q r elem meets) := by
  intro _ _ hs; cases hs
theorem calCommit (rq : Req) (q : Nat) : Statement (.calCommit rq q) := by
  intro h rq hs; cases hs; simp_all [Instr.wf]
theorem calLoad (rq : Req) (q : Nat) : Statement (.calLoad rq q) := by
  intro h rq hs; cases hs; simp_all [Instr.wf]
theorem calRed (rq : Req) (q : Nat) (v : Word) : Statement (.calRed rq q v) := by
  intro h rq hs; cases hs; simp_all [Instr.wf]
theorem calExport (rq : Req) (q : Nat) (v : Word) : Statement (.calExport rq q v) := by
  intro h rq hs; cases hs; simp_all [Instr.wf]
theorem calRestore (rq : Req) (q : Nat) (v : Word) : Statement (.calRestore rq q v) := by
  intro h rq hs; cases hs; simp_all [Instr.wf]
theorem hkaResult (c : Nat) (n : Nat) (codes : List Nat) : Statement (.hkaResult c n codes) := by
  intro _ _ hs; cases hs
theorem hkaPop (rq : Req) : Statement (.hkaPop rq) := by
  intro h rq hs; cases hs; simp_all [Instr.wf]
theorem plausFail (code0 : Nat) (code1 : Nat) : Statement (.plausFail code0 code1) := by
  intro _ _ hs; cases hs
theorem preambleDetect (l : Nat) (rssi : Int) (dsss : Bool) (subs : Nat) (age : Nat) (beams : List Nat) : Statement (.preambleDetect l rssi dsss subs age beams) := by
  intro _ _ hs; cases hs
theorem signalField (l : Nat) (f : SigField) (p : Ppdu) : Statement (.signalField l f p) := by
  intro _ _ hs; cases hs
theorem phyRestart (l : Nat) (rssi : Int) (dsss : Bool) (subs : Nat) (age : Nat) : Statement (.phyRestart l rssi dsss subs age) := by
  intro _ _ hs; cases hs
theorem phyCapture (l : Nat) (rssi : Int) (dsss : Bool) (subs : Nat) (age : Nat) : Statement (.phyCapture l rssi dsss subs age) := by
  intro _ _ hs; cases hs
theorem ppduEnd (l : Nat) : Statement (.ppduEnd l) := by
  intro _ _ hs; cases hs
theorem falseStartHoldEnd (l : Nat) (below : Nat) : Statement (.falseStartHoldEnd l below) := by
  intro _ _ hs; cases hs
theorem ccaStuck (l : Nat) : Statement (.ccaStuck l) := by
  intro _ _ hs; cases hs
theorem codewordDecoded (d : Nat) (zero : Bool) (arrivals : List (Nat × Nat)) : Statement (.codewordDecoded d zero arrivals) := by
  intro _ _ hs; cases hs
theorem channelEstimate (l : Nat) (u : Nat) (first : Int) (exp : Nat) (snr : Nat) (tones : List (List Cx)) : Statement (.channelEstimate l u first exp snr tones) := by
  intro _ _ hs; cases hs
theorem sndEstPop (rq : Req) : Statement (.sndEstPop rq) := by
  intro h rq hs; cases hs; simp_all [Instr.wf]
theorem sndSlotFree (rq : Req) (v : Word) : Statement (.sndSlotFree rq v) := by
  intro h rq hs; cases hs; simp_all [Instr.wf]
theorem beamformingReport (l : Nat) (sta : Nat) (stamp : Nat) (first : Int) (glog : Nat) (nr : Nat) (nc : Nat) (bphi : Nat) (bpsi : Nat) (snr : Nat) (angles : List (List Nat)) : Statement (.beamformingReport l sta stamp first glog nr nc bphi bpsi snr angles) := by
  intro _ _ hs; cases hs
theorem radarPulse (l : Nat) (sub : Nat) (dbm : Int) (width : Nat) (age : Nat) (chirp : Bool) : Statement (.radarPulse l sub dbm width age chirp) := by
  intro _ _ hs; cases hs
theorem cacStart (rq : Req) (l : Nat) (v : Word) : Statement (.cacStart rq l v) := by
  intro h rq hs; cases hs; simp_all [Instr.wf]
theorem cacExpiry (l : Nat) (i : Nat) : Statement (.cacExpiry l i) := by
  intro _ _ hs; cases hs
theorem nopExpiry (l : Nat) (i : Nat) : Statement (.nopExpiry l i) := by
  intro _ _ hs; cases hs
theorem dfsMapSave : Statement (.dfsMapSave) := by
  intro _ _ hs; cases hs
theorem phyDfsPop (rq : Req) (l : Nat) : Statement (.phyDfsPop rq l) := by
  intro h rq hs; cases hs; simp_all [Instr.wf]
theorem wacTableLoad (rq : Req) : Statement (.wacTableLoad rq) := by
  intro h rq hs; cases hs; simp_all [Instr.wf]
theorem wacTableCommit (rq : Req) : Statement (.wacTableCommit rq) := by
  intro h rq hs; cases hs; simp_all [Instr.wf]
theorem wacTableClear (rq : Req) : Statement (.wacTableClear rq) := by
  intro h rq hs; cases hs; simp_all [Instr.wf]
theorem tbtt (l : Nat) : Statement (.tbtt l) := by
  intro _ _ hs; cases hs
theorem msduDelivery : Statement (.msduDelivery) := by
  intro _ _ hs; cases hs
theorem frameLifetime (i : Nat) : Statement (.frameLifetime i) := by
  intro _ _ hs; cases hs
theorem edcaBackoffExpiry (l : Nat) (ac : Nat) (air : Nat) (take : Nat) : Statement (.edcaBackoffExpiry l ac air take) := by
  intro _ _ hs; cases hs
theorem bsrpTrigger (l : Nat) (air : Nat) : Statement (.bsrpTrigger l air) := by
  intro _ _ hs; cases hs
theorem wacBsrPop (rq : Req) : Statement (.wacBsrPop rq) := by
  intro h rq hs; cases hs; simp_all [Instr.wf]
theorem twtSpStart (i : Nat) (air : Nat) : Statement (.twtSpStart i air) := by
  intro _ _ hs; cases hs
theorem twtTriggerRepeat (i : Nat) (air : Nat) : Statement (.twtTriggerRepeat i air) := by
  intro _ _ hs; cases hs
theorem twtWindowClose (sid : Nat) : Statement (.twtWindowClose sid) := by
  intro _ _ hs; cases hs
theorem mpduReceive (l : Nat) (i : Nat) (last : Bool) (m : Mpdu) : Statement (.mpduReceive l i last m) := by
  intro _ _ hs; cases hs
theorem reorderTimeout (a : Nat) : Statement (.reorderTimeout a) := by
  intro _ _ hs; cases hs
theorem mtxDescriptorFetch (air : Nat) : Statement (.mtxDescriptorFetch air) := by
  intro _ _ hs; cases hs
theorem wacMtxCplPop (rq : Req) : Statement (.wacMtxCplPop rq) := by
  intro h rq hs; cases hs; simp_all [Instr.wf]
theorem wacMrxFree (rq : Req) (v : Word) : Statement (.wacMrxFree rq v) := by
  intro h rq hs; cases hs; simp_all [Instr.wf]
theorem quietWindowCts (q : Nat) (l : Nat) (air : Nat) : Statement (.quietWindowCts q l air) := by
  intro _ _ hs; cases hs
theorem afcInstall (rq : Req) : Statement (.afcInstall rq) := by
  intro h rq hs; cases hs; simp_all [Instr.wf]
theorem afcClear (rq : Req) : Statement (.afcClear rq) := by
  intro h rq hs; cases hs; simp_all [Instr.wf]
theorem fhFrameReceive (f : FhFrame) : Statement (.fhFrameReceive f) := by
  intro _ _ hs; cases hs
theorem dlRun : Statement (.dlRun) := by
  intro _ _ hs; cases hs
theorem ulUPlaneSend (i : Nat) (adc : List (Nat × List Cx)) : Statement (.ulUPlaneSend i adc) := by
  intro _ _ hs; cases hs
theorem fhTimeFault : Statement (.fhTimeFault) := by
  intro _ _ hs; cases hs
theorem fhResume : Statement (.fhResume) := by
  intro _ _ hs; cases hs
theorem fhuRetPop (rq : Req) : Statement (.fhuRetPop rq) := by
  intro h rq hs; cases hs; simp_all [Instr.wf]
theorem fhuRetFree (rq : Req) (v : Word) : Statement (.fhuRetFree rq v) := by
  intro h rq hs; cases hs; simp_all [Instr.wf]
theorem lrcPreambleDetect (c : Nat) (sf : Nat) (age : Nat) (rssi : Int) : Statement (.lrcPreambleDetect c sf age rssi) := by
  intro _ _ hs; cases hs
theorem lrcHeader (c : Nat) (sync : Nat) (len : Nat) (ctl : Nat) (crc : Nat) : Statement (.lrcHeader c sync len ctl crc) := by
  intro _ _ hs; cases hs
theorem lrcCapture (c : Nat) (sf : Nat) (age : Nat) (rssi : Int) : Statement (.lrcCapture c sf age rssi) := by
  intro _ _ hs; cases hs
theorem lrcFrameEnd (c : Nat) (age : Nat) (crc : Bool) (data : Bytes) (snr : Int) (cfo : Int) (mram : Bool) : Statement (.lrcFrameEnd c age crc data snr cfo mram) := by
  intro _ _ hs; cases hs
theorem downlinkWindow1 (num : Nat) : Statement (.downlinkWindow1 num) := by
  intro _ _ hs; cases hs
theorem downlinkWindow2 (num : Nat) : Statement (.downlinkWindow2 num) := by
  intro _ _ hs; cases hs
theorem txaDlPush (rq : Req) (v : Word) : Statement (.txaDlPush rq v) := by
  intro h rq hs; cases hs; simp_all [Instr.wf]
theorem txaDlCplPop (rq : Req) : Statement (.txaDlCplPop rq) := by
  intro h rq hs; cases hs; simp_all [Instr.wf]
theorem txaDlExpired (i : Nat) : Statement (.txaDlExpired i) := by
  intro _ _ hs; cases hs
theorem txaCtrData (rq : Req) (v : Word) : Statement (.txaCtrData rq v) := by
  intro h rq hs; cases hs; simp_all [Instr.wf]
theorem offsetFeedbackWrite : Statement (.offsetFeedbackWrite) := by
  intro _ _ hs; cases hs
theorem fbDefer : Statement (.fbDefer) := by
  intro _ _ hs; cases hs
theorem ethFrameReceive (p : Nat) (age : Nat) (fcs : Bool) (data : Bytes) : Statement (.ethFrameReceive p age fcs data) := by
  intro _ _ hs; cases hs
theorem pauseEnd (p : Nat) : Statement (.pauseEnd p) := by
  intro _ _ hs; cases hs
theorem passStart (pipe : Nat) : Statement (.passStart pipe) := by
  intro _ _ hs; cases hs
theorem passEnd (n : Nat) : Statement (.passEnd n) := by
  intro _ _ hs; cases hs
theorem flowBucketFetch (b : Nat) : Statement (.flowBucketFetch b) := by
  intro _ _ hs; cases hs
theorem flwVerCommit (rq : Req) : Statement (.flwVerCommit rq) := by
  intro h rq hs; cases hs; simp_all [Instr.wf]
theorem flwCopy (rq : Req) : Statement (.flwCopy rq) := by
  intro h rq hs; cases hs; simp_all [Instr.wf]
theorem drainEnd : Statement (.drainEnd) := by
  intro _ _ hs; cases hs
theorem flwLoad (rq : Req) : Statement (.flwLoad rq) := by
  intro h rq hs; cases hs; simp_all [Instr.wf]
theorem flwWrite (rq : Req) : Statement (.flwWrite rq) := by
  intro h rq hs; cases hs; simp_all [Instr.wf]
theorem flwClear (rq : Req) : Statement (.flwClear rq) := by
  intro h rq hs; cases hs; simp_all [Instr.wf]
theorem flwInsert (rq : Req) : Statement (.flwInsert rq) := by
  intro h rq hs; cases hs; simp_all [Instr.wf]
theorem flwDelete (rq : Req) : Statement (.flwDelete rq) := by
  intro h rq hs; cases hs; simp_all [Instr.wf]
theorem agingScan : Statement (.agingScan) := by
  intro _ _ hs; cases hs
theorem swTxDescriptorFetch (r : Nat) : Statement (.swTxDescriptorFetch r) := by
  intro _ _ hs; cases hs
theorem swTxCplPop (rq : Req) (r : Nat) : Statement (.swTxCplPop rq r) := by
  intro h rq hs; cases hs; simp_all [Instr.wf]
theorem swRxFree (rq : Req) (r : Nat) (v : Word) : Statement (.swRxFree rq r v) := by
  intro h rq hs; cases hs; simp_all [Instr.wf]
theorem packetStart (p : Nat) : Statement (.packetStart p) := by
  intro _ _ hs; cases hs
theorem tmgTableLoad (rq : Req) : Statement (.tmgTableLoad rq) := by
  intro h rq hs; cases hs; simp_all [Instr.wf]
theorem tmgTableWrite (rq : Req) : Statement (.tmgTableWrite rq) := by
  intro h rq hs; cases hs; simp_all [Instr.wf]
theorem tmgTableClear (rq : Req) : Statement (.tmgTableClear rq) := by
  intro h rq hs; cases hs; simp_all [Instr.wf]
theorem gateChangeOp (rq : Req) (p : Nat) (en : Bool) (len : Nat) : Statement (.gateChangeOp rq p en len) := by
  intro h rq hs; cases hs; simp_all [Instr.wf]
theorem gateCancelOp (rq : Req) (p : Nat) (en : Bool) (len : Nat) : Statement (.gateCancelOp rq p en len) := by
  intro h rq hs; cases hs; simp_all [Instr.wf]
theorem gateChangeDue (p : Nat) : Statement (.gateChangeDue p) := by
  intro _ _ hs; cases hs
theorem gateEntryEnd (p : Nat) : Statement (.gateEntryEnd p) := by
  intro _ _ hs; cases hs
theorem ntuTimeNs (rq : Req) : Statement (.ntuTimeNs rq) := by
  intro h rq hs; cases hs; simp_all [Instr.wf]
theorem ntuAdj (rq : Req) : Statement (.ntuAdj rq) := by
  intro h rq hs; cases hs; simp_all [Instr.wf]
theorem ntuSet (rq : Req) : Statement (.ntuSet rq) := by
  intro h rq hs; cases hs; simp_all [Instr.wf]
theorem ntuForceAdj (rq : Req) : Statement (.ntuForceAdj rq) := by
  intro h rq hs; cases hs; simp_all [Instr.wf]
theorem ntuForceSet (rq : Req) : Statement (.ntuForceSet rq) := by
  intro h rq hs; cases hs; simp_all [Instr.wf]
theorem ntuHoldover (rq : Req) : Statement (.ntuHoldover rq) := by
  intro h rq hs; cases hs; simp_all [Instr.wf]
theorem ntuUnlock (rq : Req) : Statement (.ntuUnlock rq) := by
  intro h rq hs; cases hs; simp_all [Instr.wf]
theorem ntuArm (rq : Req) : Statement (.ntuArm rq) := by
  intro h rq hs; cases hs; simp_all [Instr.wf]
theorem ntuArmExpiry : Statement (.ntuArmExpiry) := by
  intro _ _ hs; cases hs
theorem slewEnd : Statement (.slewEnd) := by
  intro _ _ hs; cases hs
theorem servoWatchdog : Statement (.servoWatchdog) := by
  intro _ _ hs; cases hs
theorem timeRateWrite (rq : Req) (v : Word) : Statement (.timeRateWrite rq v) := by
  intro h rq hs; cases hs; simp_all [Instr.wf]
theorem ppsOutPulse : Statement (.ppsOutPulse) := by
  intro _ _ hs; cases hs
theorem ppsIn : Statement (.ppsIn) := by
  intro _ _ hs; cases hs
theorem tsyncInEdge (rising : Bool) : Statement (.tsyncInEdge rising) := by
  intro _ _ hs; cases hs
theorem ntuTsyncStart (rq : Req) (v : Word) : Statement (.ntuTsyncStart rq v) := by
  intro h rq hs; cases hs; simp_all [Instr.wf]
theorem tsyncOutPulse : Statement (.tsyncOutPulse) := by
  intro _ _ hs; cases hs
theorem ntuCapStat (rq : Req) : Statement (.ntuCapStat rq) := by
  intro h rq hs; cases hs; simp_all [Instr.wf]
theorem ntuTxtsPop (rq : Req) : Statement (.ntuTxtsPop rq) := by
  intro h rq hs; cases hs; simp_all [Instr.wf]
theorem ptmRequest (rq : Req) : Statement (.ptmRequest rq) := by
  intro h rq hs; cases hs; simp_all [Instr.wf]
theorem ptmResponse (master : Nat) (delay : Nat) : Statement (.ptmResponse master delay) := by
  intro _ _ hs; cases hs
theorem ptmTimeout : Statement (.ptmTimeout) := by
  intro _ _ hs; cases hs
theorem synceSourceLoss : Statement (.synceSourceLoss) := by
  intro _ _ hs; cases hs
theorem synceRelock (back : Nat) : Statement (.synceRelock back) := by
  intro _ _ hs; cases hs
theorem coreStart (rq : Req) (c : Nat) : Statement (.coreStart rq c) := by
  intro h rq hs; cases hs; simp_all [Instr.wf]
theorem coreReset (rq : Req) (c : Nat) : Statement (.coreReset rq c) := by
  intro h rq hs; cases hs; simp_all [Instr.wf]
theorem regionCoreStart (rq : Req) (g : Nat) : Statement (.regionCoreStart rq g) := by
  intro h rq hs; cases hs; simp_all [Instr.wf]
theorem regionCoreReset (rq : Req) (g : Nat) : Statement (.regionCoreReset rq g) := by
  intro h rq hs; cases hs; simp_all [Instr.wf]
theorem tlyReady (rq : Req) : Statement (.tlyReady rq) := by
  intro h rq hs; cases hs; simp_all [Instr.wf]
theorem tlyDelay (rq : Req) (dlist : Nat) : Statement (.tlyDelay rq dlist) := by
  intro h rq hs; cases hs; simp_all [Instr.wf]
theorem tlyDlyCancel (rq : Req) (h : Nat) : Statement (.tlyDlyCancel rq h) := by
  intro h rq hs; cases hs; simp_all [Instr.wf]
theorem delayDue (l : Nat) (e : Nat) : Statement (.delayDue l e) := by
  intro _ _ hs; cases hs
theorem tlyPick (rq : Req) : Statement (.tlyPick rq) := by
  intro h rq hs; cases hs; simp_all [Instr.wf]
theorem reckonerDispatch (k : Nat) : Statement (.reckonerDispatch k) := by
  intro _ _ hs; cases hs
theorem tlyDone (rq : Req) (v : Word) : Statement (.tlyDone rq v) := by
  intro h rq hs; cases hs; simp_all [Instr.wf]
theorem tlyRelPop (rq : Req) (q : Nat) : Statement (.tlyRelPop rq q) := by
  intro h rq hs; cases hs; simp_all [Instr.wf]
theorem eventEdge (n : Nat) : Statement (.eventEdge n) := by
  intro _ _ hs; cases hs
theorem eventBead (n : Nat) : Statement (.eventBead n) := by
  intro _ _ hs; cases hs
theorem evtClaim (rq : Req) : Statement (.evtClaim rq) := by
  intro h rq hs; cases hs; simp_all [Instr.wf]
theorem evtHclaim (rq : Req) : Statement (.evtHclaim rq) := by
  intro h rq hs; cases hs; simp_all [Instr.wf]
theorem evtClr (rq : Req) (n : Nat) : Statement (.evtClr rq n) := by
  intro h rq hs; cases hs; simp_all [Instr.wf]
theorem rknStart (rq : Req) (k : Nat) : Statement (.rknStart rq k) := by
  intro h rq hs; cases hs; simp_all [Instr.wf]
theorem rknStop (rq : Req) (k : Nat) : Statement (.rknStop rq k) := by
  intro h rq hs; cases hs; simp_all [Instr.wf]
theorem rknAcc (rq : Req) (k : Nat) (a : Nat) (l : Nat) (hi : Bool) : Statement (.rknAcc rq k a l hi) := by
  intro h rq hs; cases hs; simp_all [Instr.wf]
theorem rknNop (k : Nat) : Statement (.rknNop k) := by
  intro _ _ hs; cases hs
theorem rknHalt (k : Nat) : Statement (.rknHalt k) := by
  intro _ _ hs; cases hs
theorem rknLoop (k : Nat) : Statement (.rknLoop k) := by
  intro _ _ hs; cases hs
theorem rknBrc (k : Nat) : Statement (.rknBrc k) := by
  intro _ _ hs; cases hs
theorem rknDma (k : Nat) : Statement (.rknDma k) := by
  intro _ _ hs; cases hs
theorem rknDmaComplete (k : Nat) (i : Nat) : Statement (.rknDmaComplete k i) := by
  intro _ _ hs; cases hs
theorem rknDwait (k : Nat) : Statement (.rknDwait k) := by
  intro _ _ hs; cases hs
theorem rknLd (k : Nat) : Statement (.rknLd k) := by
  intro _ _ hs; cases hs
theorem rknSt (k : Nat) : Statement (.rknSt k) := by
  intro _ _ hs; cases hs
theorem rknLde (k : Nat) : Statement (.rknLde k) := by
  intro _ _ hs; cases hs
theorem rknSte (k : Nat) : Statement (.rknSte k) := by
  intro _ _ hs; cases hs
theorem rknVadd (k : Nat) : Statement (.rknVadd k) := by
  intro _ _ hs; cases hs
theorem rknVsub (k : Nat) : Statement (.rknVsub k) := by
  intro _ _ hs; cases hs
theorem rknVmul (k : Nat) : Statement (.rknVmul k) := by
  intro _ _ hs; cases hs
theorem rknVmac (k : Nat) : Statement (.rknVmac k) := by
  intro _ _ hs; cases hs
theorem rknVmsu (k : Nat) : Statement (.rknVmsu k) := by
  intro _ _ hs; cases hs
theorem rknAmov (k : Nat) : Statement (.rknAmov k) := by
  intro _ _ hs; cases hs
theorem rknAclr (k : Nat) : Statement (.rknAclr k) := by
  intro _ _ hs; cases hs
theorem rknVbfly (k : Nat) : Statement (.rknVbfly k) := by
  intro _ _ hs; cases hs
theorem rknVsh (k : Nat) : Statement (.rknVsh k) := by
  intro _ _ hs; cases hs
theorem rknSli (k : Nat) : Statement (.rknSli k) := by
  intro _ _ hs; cases hs
theorem rknSlui (k : Nat) : Statement (.rknSlui k) := by
  intro _ _ hs; cases hs
theorem rknSaddi (k : Nat) : Statement (.rknSaddi k) := by
  intro _ _ hs; cases hs
theorem rknSadd (k : Nat) : Statement (.rknSadd k) := by
  intro _ _ hs; cases hs
theorem rknSetp (k : Nat) : Statement (.rknSetp k) := by
  intro _ _ hs; cases hs
theorem rknSetm (k : Nat) : Statement (.rknSetm k) := by
  intro _ _ hs; cases hs
theorem sramScrub (a : Nat) (outcome : Nat) : Statement (.sramScrub a outcome) := by
  intro _ _ hs; cases hs
theorem dramCommand (c : Nat) (arrivals : List DramArrival) (ecc : Nat) (line : Nat) : Statement (.dramCommand c arrivals ecc line) := by
  intro _ _ hs; cases hs
theorem throttleEnd (c : Nat) : Statement (.throttleEnd c) := by
  intro _ _ hs; cases hs
theorem dramRefresh (c : Nat) : Statement (.dramRefresh c) := by
  intro _ _ hs; cases hs
theorem zqCalibration (c : Nat) : Statement (.zqCalibration c) := by
  intro _ _ hs; cases hs
theorem dramTempPoll (c : Nat) (rate : Nat) : Statement (.dramTempPoll c rate) := by
  intro _ _ hs; cases hs
theorem pageIdle (c : Nat) (bank : Nat) (rank : Nat) : Statement (.pageIdle c bank rank) := by
  intro _ _ hs; cases hs
theorem dmcPanic (c : Nat) (port : Nat) (lines : Nat) (write : Bool) : Statement (.dmcPanic c port lines write) := by
  intro _ _ hs; cases hs
theorem dmcRtStarve (c : Nat) (port : Nat) : Statement (.dmcRtStarve c port) := by
  intro _ _ hs; cases hs
theorem getRandom : Statement (.getRandom) := by
  intro _ _ hs; cases hs
theorem klnAttest : Statement (.klnAttest) := by
  intro _ _ hs; cases hs
theorem getCert : Statement (.getCert) := by
  intro _ _ hs; cases hs
theorem klnImport : Statement (.klnImport) := by
  intro _ _ hs; cases hs
theorem klnDerive : Statement (.klnDerive) := by
  intro _ _ hs; cases hs
theorem deployToken : Statement (.deployToken) := by
  intro _ _ hs; cases hs
theorem returnToken : Statement (.returnToken) := by
  intro _ _ hs; cases hs
theorem scrapToken : Statement (.scrapToken) := by
  intro _ _ hs; cases hs
theorem keyAdd : Statement (.keyAdd) := by
  intro _ _ hs; cases hs
theorem keyRevoke : Statement (.keyRevoke) := by
  intro _ _ hs; cases hs
theorem lockToken : Statement (.lockToken) := by
  intro _ _ hs; cases hs
theorem debugToken : Statement (.debugToken) := by
  intro _ _ hs; cases hs
theorem slotWrite (rq : Req) (slot : Nat) (long : Bool) : Statement (.slotWrite rq slot long) := by
  intro h rq hs; cases hs; simp_all [Instr.wf]
theorem slotClear (rq : Req) (slot : Nat) : Statement (.slotClear rq slot) := by
  intro h rq hs; cases hs; simp_all [Instr.wf]
theorem gcmEnc (r : Nat) : Statement (.gcmEnc r) := by
  intro _ _ hs; cases hs
theorem gcmDec (r : Nat) : Statement (.gcmDec r) := by
  intro _ _ hs; cases hs
theorem gmacGen (r : Nat) : Statement (.gmacGen r) := by
  intro _ _ hs; cases hs
theorem gmacVer (r : Nat) : Statement (.gmacVer r) := by
  intro _ _ hs; cases hs
theorem ccmEnc (r : Nat) : Statement (.ccmEnc r) := by
  intro _ _ hs; cases hs
theorem ccmDec (r : Nat) : Statement (.ccmDec r) := by
  intro _ _ hs; cases hs
theorem xtsEnc (r : Nat) : Statement (.xtsEnc r) := by
  intro _ _ hs; cases hs
theorem xtsDec (r : Nat) : Statement (.xtsDec r) := by
  intro _ _ hs; cases hs
theorem cipCtr (r : Nat) : Statement (.cipCtr r) := by
  intro _ _ hs; cases hs
theorem cmacGen (r : Nat) : Statement (.cmacGen r) := by
  intro _ _ hs; cases hs
theorem cmacVer (r : Nat) : Statement (.cmacVer r) := by
  intro _ _ hs; cases hs
theorem jobCompletion (r : Nat) : Statement (.jobCompletion r) := by
  intro _ _ hs; cases hs
theorem cipCplPop (rq : Req) (r : Nat) : Statement (.cipCplPop rq r) := by
  intro h rq hs; cases hs; simp_all [Instr.wf]
theorem trngHealthFail : Statement (.trngHealthFail) := by
  intro _ _ hs; cases hs
theorem drbgReseed : Statement (.drbgReseed) := by
  intro _ _ hs; cases hs
theorem ashRecordWrite : Statement (.ashRecordWrite) := by
  intro _ _ hs; cases hs
theorem coalesceClose (i : Nat) : Statement (.coalesceClose i) := by
  intro _ _ hs; cases hs
theorem incidentClose : Statement (.incidentClose) := by
  intro _ _ hs; cases hs
theorem ashRelease (rq : Req) (slot : Nat) : Statement (.ashRelease rq slot) := by
  intro h rq hs; cases hs; simp_all [Instr.wf]
theorem agingMeasure (r : Nat) (slow : Nat) : Statement (.agingMeasure r slow) := by
  intro _ _ hs; cases hs
theorem polarityRetry (n : Nat) : Statement (.polarityRetry n) := by
  intro _ _ hs; cases hs
theorem linkUp (p : Nat) (speed : Nat) (pos : List Nat) (eye : List Nat) : Statement (.linkUp p speed pos eye) := by
  intro _ _ hs; cases hs
theorem linkDown (p : Nat) : Statement (.linkDown p) := by
  intro _ _ hs; cases hs
theorem hlLink (up : Bool) (reversed : Bool) (gen : Nat) (width : Nat) : Statement (.hlLink up reversed gen width) := by
  intro _ _ hs; cases hs
theorem perstRise : Statement (.perstRise) := by
  intro _ _ hs; cases hs
theorem perstFall : Statement (.perstFall) := by
  intro _ _ hs; cases hs
theorem functionLevelReset (f : Nat) : Statement (.functionLevelReset f) := by
  intro _ _ hs; cases hs
theorem retryStatusEnd : Statement (.retryStatusEnd) := by
  intro _ _ hs; cases hs
theorem smbusWriteReg (a : Nat) (v : Word) (count : Nat) (pecOk : Bool) : Statement (.smbusWriteReg a v count pecOk) := by
  intro _ _ hs; cases hs
theorem smbusSetAddr (a : Nat) (burst : Nat) (count : Nat) (pecOk : Bool) : Statement (.smbusSetAddr a burst count pecOk) := by
  intro _ _ hs; cases hs
theorem smbusRead : Statement (.smbusRead) := by
  intro _ _ hs; cases hs
theorem smbusStatus : Statement (.smbusStatus) := by
  intro _ _ hs; cases hs
theorem smbusPush (d : Bytes) (count : Nat) (pecOk : Bool) : Statement (.smbusPush d count pecOk) := by
  intro _ _ hs; cases hs
theorem smbusAlertResponse : Statement (.smbusAlertResponse) := by
  intro _ _ hs; cases hs
theorem smbusSclTimeout : Statement (.smbusSclTimeout) := by
  intro _ _ hs; cases hs
theorem smbFault : Statement (.smbFault) := by
  intro _ _ hs; cases hs
theorem smbBusIdle : Statement (.smbBusIdle) := by
  intro _ _ hs; cases hs
theorem xspiRead (rq : Req) (v : Word) : Statement (.xspiRead rq v) := by
  intro h rq hs; cases hs; simp_all [Instr.wf]
theorem xspiProgram (rq : Req) (v : Word) : Statement (.xspiProgram rq v) := by
  intro h rq hs; cases hs; simp_all [Instr.wf]
theorem xspiErase4K (rq : Req) (v : Word) : Statement (.xspiErase4K rq v) := by
  intro h rq hs; cases hs; simp_all [Instr.wf]
theorem xspiErase64K (rq : Req) (v : Word) : Statement (.xspiErase64K rq v) := by
  intro h rq hs; cases hs; simp_all [Instr.wf]
theorem xspiDone (ok : Bool) : Statement (.xspiDone ok) := by
  intro _ _ hs; cases hs
theorem jtagIdcode : Statement (.jtagIdcode) := by
  intro _ _ hs; cases hs
theorem jtagBypass : Statement (.jtagBypass) := by
  intro _ _ hs; cases hs
theorem gpioEdge (n : Nat) (level : Bool) : Statement (.gpioEdge n level) := by
  intro _ _ hs; cases hs
theorem energyDetect (l : Nat) (sub : Nat) (dbm : Int) (gi : Bool) : Statement (.energyDetect l sub dbm gi) := by
  intro _ _ hs; cases hs
theorem regionCoreTrap (g : Nat) (pc : Nat) : Statement (.regionCoreTrap g pc) := by
  intro _ _ hs; cases hs
theorem sleepOscillatorStop : Statement (.sleepOscillatorStop) := by
  intro _ _ hs; cases hs
theorem configurationRequest (f : Nat) (q : CfgReq) : Statement (.configurationRequest f q) := by
  intro _ _ hs; cases hs

end Sys2Proof.Laws.SenderExists
end

