-- ==== Sys2Proof/Laws/Regs.lean ====
section
/-! SUPPORT. The laws of registers: a register and a field after a write, and how an access that passes its checks is performed. -/
namespace Sys2Proof.Machine

/-- A register's number is below 1024, so a key names its register. -/
theorem Reg.ctorIdx_lt (r : Reg) : r.ctorIdx < 1024 := by cases r <;> decide

theorem keyReg_regKey (c : Nat) (r : Reg) (ix : List Nat) : keyReg (regKey c r ix) = r := by
  have h : regKey c r ix % 1024 = r.ctorIdx := by
    have := Reg.ctorIdx_lt r
    unfold regKey
    omega
  unfold keyReg
  rw [h, Reg.ofNat_ctorIdx]

/-- Instances of different registers have different keys. -/
theorem regKey_ne {c c' : Nat} {r r' : Reg} {ix ix' : List Nat} (h : r ≠ r') : regKey c r ix ≠ regKey c' r' ix' :=
  fun e => h (by rw [← keyReg_regKey c r ix, e, keyReg_regKey])

theorem regs_of_canonical {s : State} (h : s.canonical = true) : swf resetWord s.regs = true := ((canonical_iff s).mp h).1

/-- A register after a write of a register. -/
theorem reg_setReg {s : State} (hc : s.canonical = true) (r : Reg) (ix : List Nat) (v : Word) (c : Nat) (r' : Reg) (ix' : List Nat) (c' : Nat) :
    (s.setReg r ix v c).reg r' ix' c' = if regKey c' r' ix' = regKey c r ix then v else s.reg r' ix' c' :=
  sget_sset resetWord s.regs (regs_of_canonical hc) _ _ _

theorem reg_setReg_same {s : State} (hc : s.canonical = true) (r : Reg) (ix : List Nat) (v : Word) (c : Nat) :
    (s.setReg r ix v c).reg r ix c = v := by rw [reg_setReg hc, if_pos rfl]

theorem reg_setReg_ne {s : State} (hc : s.canonical = true) (r : Reg) (ix : List Nat) (v : Word) (c : Nat) {r' : Reg} {ix' : List Nat} {c' : Nat}
    (h : regKey c' r' ix' ≠ regKey c r ix) : (s.setReg r ix v c).reg r' ix' c' = s.reg r' ix' c' := by rw [reg_setReg hc, if_neg h]

/-- A field after it is written. -/
theorem get_set_same {s : State} (hc : s.canonical = true) (f : Fld) (ix : List Nat) (v c : Nat) (hl : f.lo ≤ f.hi + 1) (hh : f.hi < 32) :
    (s.set f ix v c).get f ix c = v % 2 ^ (f.hi + 1 - f.lo) := by
  unfold State.get State.set
  rw [reg_setReg_same hc, wbits_wset _ _ _ _ hl hh]

/-- Another field of the same register. -/
theorem get_set_field {s : State} (hc : s.canonical = true) (f g : Fld) (ix : List Nat) (v c : Nat) (hr : g.reg = f.reg) (hl : f.lo ≤ f.hi + 1)
    (hh : f.hi < 32) (hd : f.hi < g.lo ∨ g.hi < f.lo) : (s.set f ix v c).get g ix c = s.get g ix c := by
  unfold State.get State.set
  rw [hr, reg_setReg_same hc, wbits_wset_ne _ _ _ _ _ _ hl hh hd]

/-- A field of another register. -/
theorem get_set_reg {s : State} (hc : s.canonical = true) (f g : Fld) (ix ix' : List Nat) (v c c' : Nat)
    (h : regKey c' g.reg ix' ≠ regKey c f.reg ix) : (s.set f ix v c).get g ix' c' = s.get g ix' c' := by
  unfold State.get State.set
  rw [reg_setReg_ne hc _ _ _ _ h]

/-- A field that the write of another field does not reach: of another register, or of other bits. -/
theorem get_set_ne {s : State} (hc : s.canonical = true) (f g : Fld) (ix ix' : List Nat) (v c c' : Nat) (hl : f.lo ≤ f.hi + 1) (hh : f.hi < 32)
    (h : regKey c' g.reg ix' ≠ regKey c f.reg ix ∨ f.hi < g.lo ∨ g.hi < f.lo) : (s.set f ix v c).get g ix' c' = s.get g ix' c' := by
  unfold State.get State.set
  rw [reg_setReg hc]
  split
  · rename_i e
    rcases h with h | h
    · exact absurd e h
    · rw [wbits_wset_ne _ _ _ _ _ _ hl hh h]
      unfold State.reg
      rw [e]
  · rfl

/-- A register after the write of a field. -/
theorem reg_set {s : State} (hc : s.canonical = true) (f : Fld) (ix : List Nat) (v c : Nat) (r : Reg) (ix' : List Nat) (c' : Nat) :
    (s.set f ix v c).reg r ix' c' = if regKey c' r ix' = regKey c f.reg ix then wset (s.reg f.reg ix c) f.hi f.lo v else s.reg r ix' c' := by
  unfold State.set
  rw [reg_setReg hc]

/-- A field after the write of a register. -/
theorem get_setReg {s : State} (hc : s.canonical = true) (r : Reg) (ix : List Nat) (v : Word) (c : Nat) (g : Fld) (ix' : List Nat) (c' : Nat) :
    (s.setReg r ix v c).get g ix' c' = if regKey c' g.reg ix' = regKey c r ix then wbits v g.hi g.lo else s.get g ix' c' := by
  unfold State.get
  rw [reg_setReg hc]
  split <;> rfl

theorem reg_congr {s t : State} (h : t.regs = s.regs) (r : Reg) (ix : List Nat) (c : Nat) : t.reg r ix c = s.reg r ix c := by
  unfold State.reg; rw [h]

theorem get_congr {s t : State} (h : t.regs = s.regs) (f : Fld) (ix : List Nat) (c : Nat) : t.get f ix c = s.get f ix c := by
  unfold State.get; rw [reg_congr h]

/-! Accesses -/

/-- A write that passes every check is performed and answered with OK. -/
theorem writeReg_performed {s : State} {rq : Req} {a : Nat} {v : Word} {r : Reg} {ix : List Nat} {ok : Reg → List Nat → Word → Req → State → Bool}
    {wr : Reg → List Nat → Word → Req → State → State} (h0 : s.mode ≠ 0) (hj : preJudge s rq a 4 true = none) (hf : findReg a = some (r, ix))
    (hd : denied rq r a true = false) (hw : writable r = true) (hl : rwlLocked s r ix = false) (ho : ok r ix v rq s = true) :
    writeReg rq a 4 v ok wr s = (wr r ix v rq s).answer rq 0 := by
  unfold writeReg
  rw [if_neg h0, hj]
  simp [hf, hd, hw, hl, ho]

/-- A read that passes every check is performed and answered with OK. -/
theorem readReg_performed {s : State} {rq : Req} {a : Nat} {r : Reg} {ix : List Nat} {ok : Reg → List Nat → Req → State → Bool}
    {rd : Reg → List Nat → Req → State → Word × State} (h0 : s.mode ≠ 0) (hj : preJudge s rq a 4 false = none) (hf : findReg a = some (r, ix))
    (hd : denied rq r a false = false) (ho : ok r ix rq s = true) :
    readReg rq a 4 ok rd s = (rd r ix rq s).2.answer rq (rd r ix rq s).1 := by
  unfold readReg
  rw [if_neg h0, hj]
  simp [hf, hd, ho]

/-- The judgement of a word access: in a block that exists, the mode and region rules decide. -/
theorem preJudge_none {s : State} {rq : Req} {a : Nat} {wr : Bool} (ha : a % 4 = 0) (hl : aBlock a < blockCount (aRegion a))
    (hm : modeCode s rq a wr = 0) : preJudge s rq a 4 wr = none := by
  unfold preJudge
  simp [ha, hl, hm]

/-- A write of a register row that passes is performed. -/
theorem writeReg_passes {s : State} {rq : Req} {v : Word} {r : Reg} {ix : List Nat} {ok : Reg → List Nat → Word → Req → State → Bool}
    {wr : Reg → List Nat → Word → Req → State → State} (h : Passes s rq r ix true) (hf : findReg (r.addr ix) = some (r, ix))
    (ha : r.addr ix % 4 = 0) (hb : aBlock (r.addr ix) < blockCount (aRegion (r.addr ix))) (hw : writable r = true) (ho : ok r ix v rq s = true) :
    writeReg rq (r.addr ix) 4 v ok wr s = (wr r ix v rq s).answer rq 0 :=
  writeReg_performed h.1 (preJudge_none ha hb h.2.1) hf h.2.2.1 hw (h.2.2.2 rfl) ho

/-- A read of a register row that passes is performed. -/
theorem readReg_passes {s : State} {rq : Req} {r : Reg} {ix : List Nat} {ok : Reg → List Nat → Req → State → Bool}
    {rd : Reg → List Nat → Req → State → Word × State} (h : Passes s rq r ix false) (hf : findReg (r.addr ix) = some (r, ix))
    (ha : r.addr ix % 4 = 0) (hb : aBlock (r.addr ix) < blockCount (aRegion (r.addr ix))) (ho : ok r ix rq s = true) :
    readReg rq (r.addr ix) 4 ok rd s = (rd r ix rq s).2.answer rq (rd r ix rq s).1 :=
  readReg_performed h.1 (preJudge_none ha hb h.2.1) hf h.2.2.1 ho

/-- A write that back-pressure may hold, with room: performed. -/
theorem writeOrHold_room {s : State} {rq : Req} {a : Nat} {v : Word} {ok : Reg → List Nat → Word → Req → State → Bool}
    {wr : Reg → List Nat → Word → Req → State → State} : writeOrHold rq a v false ok wr s = writeReg rq a 4 v ok wr s := by
  unfold writeOrHold
  simp

/-- A register after an event counter is incremented (R7). -/
theorem reg_inc {s : State} (hc : s.canonical = true) (r : Reg) (ix : List Nat) (r' : Reg) (ix' : List Nat) (c' : Nat) :
    (s.inc r ix).reg r' ix' c' = if regKey c' r' ix' = regKey 0 r ix then w32 (satAdd 0xFFFFFFFF (s.reg r ix).toNat 1) else s.reg r' ix' c' := by
  unfold State.inc State.bump
  rw [reg_set hc]
  simp only [wset_full]
  unfold State.get
  simp only [wbits_full, Nat.reduceAdd, Nat.reduceSub, Nat.reducePow]

/-- A saturating count fits its width. -/
theorem satAdd_le (m a b : Nat) : satAdd m a b ≤ m := by
  unfold satAdd
  split <;> omega

/-- The number in a word that holds a saturating 32-bit count. -/
theorem w32_satAdd (a b : Nat) : (w32 (satAdd 0xFFFFFFFF a b)).toNat = satAdd 0xFFFFFFFF a b := by
  rw [BitVec.toNat_ofNat]
  have := satAdd_le 0xFFFFFFFF a b
  omega

/-- A field after an event counter is incremented. -/
theorem get_inc {s : State} (hc : s.canonical = true) (r : Reg) (ix : List Nat) (g : Fld) (ix' : List Nat) (c' : Nat)
    (h : regKey c' g.reg ix' ≠ regKey 0 r ix) : (s.inc r ix).get g ix' c' = s.get g ix' c' := by
  unfold State.get
  rw [reg_inc hc, if_neg h]

/-- A register that is one field that can be written takes the word that is written. -/
theorem mergeWord_full (old v : Word) : mergeWord [(31, 0, .rw)] old v = v := by
  simp only [mergeWord, List.foldl]
  rw [wset_full, wbits_full]
  simp

/-- A performed write of a register without effects of its own. -/
theorem reg_storeWord {s : State} (hc : s.canonical = true) (r : Reg) (ix : List Nat) (v : Word) (rq : Req) :
    (storeWord r ix v rq s).reg r ix (regCopy rq r) = mergeWord r.fields (s.reg r ix (regCopy rq r)) v := by
  unfold storeWord
  rw [reg_setReg_same hc]

end Sys2Proof.Machine
end

