-- ==== Sys2Proof/Laws/Restack.lean ====
section
/-! SUPPORT. What leaves the re-stack state alone: the pending request, the gaps, the time of return, the quadrants that wait and the fallback due. -/

set_option Elab.async false

namespace Sys2Proof.Machine

/-- `t` has the re-stack state of `s`. -/
structure Stk (s t : State) : Prop where
  request : t.radio.request = s.radio.request
  gaps : t.radio.gaps = s.radio.gaps
  returnAt : t.radio.returnAt = s.radio.returnAt
  awaiting : t.radio.awaiting = s.radio.awaiting
  fallbackDue : t.radio.fallbackDue = s.radio.fallbackDue

theorem Stk.refl (s : State) : Stk s s := ⟨rfl, rfl, rfl, rfl, rfl⟩

theorem Stk.of_radio {s0 s t : State} (e : t.radio = s.radio) (h : Stk s0 s) : Stk s0 t :=
  ⟨by rw [e]; exact h.1, by rw [e]; exact h.2, by rw [e]; exact h.3, by rw [e]; exact h.4, by rw [e]; exact h.5⟩

theorem Stk.keep {m : Nat} {s0 s t : State} (k : Keep m s t) (hm : m.testBit 20 = false) (h : Stk s0 s) : Stk s0 t := h.of_radio (k.part .radio hm)

theorem Stk.rad {s0 s : State} {f : Radio → Radio} (h : Stk s0 s) (hf : Stk s (s.radUpd f)) : Stk s0 (s.radUpd f) :=
  ⟨hf.1.trans h.1, hf.2.trans h.2, hf.3.trans h.3, hf.4.trans h.4, hf.5.trans h.5⟩

theorem Stk.ite {s0 a b : State} {c : Prop} [Decidable c] (ha : Stk s0 a) (hb : Stk s0 b) : Stk s0 (if c then a else b) := by
  split
  · exact ha
  · exact hb

theorem Stk.foldl {α : Type} {s0 s : State} (f : State → α → State) (l : List α) (h : Stk s0 s) (hf : ∀ t x, Stk s0 t → Stk s0 (f t x)) :
    Stk s0 (l.foldl f s) := by
  induction l generalizing s with
  | nil => exact h
  | cons x t ih => exact ih (hf s x h)

theorem State.atHome_stk {s0 : State} (s : State) (t : Tx) (f : Nat → State → State) (hf : ∀ q u, Stk s0 u → Stk s0 (f q u)) (h : Stk s0 s) :
    Stk s0 (s.atHome t f) := by
  unfold State.atHome
  repeat' first
    | assumption
    | refine hf _ _ ?_
    | refine Stk.foldl _ _ ?_ (fun _ _ _ => ?_)
    | split

theorem State.quadUpd_stk {s0 : State} (s : State) (a1 : _) (a2 : _) (h : Stk s0 s) : Stk s0 (State.quadUpd s a1 a2) := by
  unfold State.quadUpd
  repeat' first
    | with_reducible exact Stk.refl _
    | with_reducible assumption
    | with_reducible refine Stk.rad ?_ ⟨rfl, rfl, rfl, rfl, rfl⟩
    | with_reducible apply Stk.ite
    | with_reducible apply Stk.foldl <;> try intro _ _ _
    | split
    | dsimp only

theorem State.calUpd_stk {s0 : State} (s : State) (a1 : _) (a2 : _) (h : Stk s0 s) : Stk s0 (State.calUpd s a1 a2) := by
  unfold State.calUpd
  repeat' first
    | with_reducible exact Stk.refl _
    | with_reducible assumption
    | with_reducible apply State.quadUpd_stk
    | with_reducible apply Stk.ite
    | with_reducible apply Stk.foldl <;> try intro _ _ _
    | split
    | dsimp only

theorem State.calBook_stk {s0 : State} (s : State) (a1 : _) (a2 : _) (a3 : _) (h : Stk s0 s) : Stk s0 (State.calBook s a1 a2 a3) := by
  unfold State.calBook
  repeat' first
    | with_reducible exact Stk.refl _
    | with_reducible assumption
    | with_reducible apply Stk.keep (m := 32) (State.set_keep _ _ _ _ _ rfl (Keep.refl _ _)) rfl
    | with_reducible apply Stk.keep (m := 32) (State.sets_keep _ _ _ rfl (Keep.refl _ _)) rfl
    | with_reducible apply Stk.keep (m := 32) (State.setReg_keep _ _ _ _ _ rfl (Keep.refl _ _)) rfl
    | with_reducible apply State.calUpd_stk
    | with_reducible apply Stk.ite
    | with_reducible apply Stk.foldl <;> try intro _ _ _
    | split
    | dsimp only

theorem State.calRound_stk {s0 : State} (s : State) (a1 : _) (a2 : _) (a3 : _) (h : Stk s0 s) : Stk s0 (State.calRound s a1 a2 a3) := by
  unfold State.calRound
  repeat' first
    | with_reducible exact Stk.refl _
    | with_reducible assumption
    | with_reducible apply Stk.keep (m := 32) (State.set_keep _ _ _ _ _ rfl (Keep.refl _ _)) rfl
    | with_reducible apply Stk.keep (m := 32) (State.bump_keep _ _ _ _ rfl (Keep.refl _ _)) rfl
    | with_reducible apply State.calUpd_stk
    | with_reducible apply State.calBook_stk
    | with_reducible apply Stk.ite
    | with_reducible apply Stk.foldl <;> try intro _ _ _
    | split
    | dsimp only

theorem State.calCancel_stk {s0 : State} (s : State) (a1 : _) (a2 : _) (h : Stk s0 s) : Stk s0 (State.calCancel s a1 a2) := by
  unfold State.calCancel
  repeat' first
    | with_reducible exact Stk.refl _
    | with_reducible assumption
    | with_reducible apply State.calRound_stk
    | with_reducible apply Stk.keep (m := 32) (State.inc_keep _ _ _ rfl (Keep.refl _ _)) rfl
    | with_reducible apply Stk.ite
    | with_reducible apply Stk.foldl <;> try intro _ _ _
    | split
    | dsimp only

theorem State.calYield_stk {s0 : State} (s : State) (a1 : _) (a2 : _) (a3 : _) (h : Stk s0 s) : Stk s0 (State.calYield s a1 a2 a3) := by
  unfold State.calYield
  repeat' first
    | with_reducible exact Stk.refl _
    | with_reducible assumption
    | with_reducible apply State.calCancel_stk
    | with_reducible apply Stk.ite
    | with_reducible apply Stk.foldl <;> try intro _ _ _
    | split
    | dsimp only

theorem State.pathUpd_stk {s0 : State} (s : State) (a1 : _) (a2 : _) (h : Stk s0 s) : Stk s0 (State.pathUpd s a1 a2) := by
  unfold State.pathUpd
  repeat' first
    | with_reducible exact Stk.refl _
    | with_reducible assumption
    | with_reducible apply State.quadUpd_stk
    | with_reducible apply Stk.ite
    | with_reducible apply Stk.foldl <;> try intro _ _ _
    | split
    | dsimp only

theorem State.txLeave_stk {s0 : State} (s : State) (a1 : _) (h : Stk s0 s) : Stk s0 (State.txLeave s a1) := by
  unfold State.txLeave
  repeat' first
    | with_reducible exact Stk.refl _
    | with_reducible assumption
    | with_reducible apply State.pathUpd_stk
    | with_reducible refine Stk.rad ?_ ⟨rfl, rfl, rfl, rfl, rfl⟩
    | with_reducible apply Stk.keep (m := 48) (State.txRadiate_keep _ _ _ _ _ rfl (Keep.refl _ _)) rfl
    | with_reducible apply Stk.ite
    | with_reducible apply Stk.foldl <;> try intro _ _ _
    | split
    | dsimp only

theorem State.fhGap_stk {s0 : State} (s : State) (a1 : _) (a2 : _) (a3 : _) (a4 : _) (h : Stk s0 s) : Stk s0 (State.fhGap s a1 a2 a3 a4) := by
  unfold State.fhGap
  repeat' first
    | with_reducible exact Stk.refl _
    | with_reducible assumption
    | with_reducible apply Stk.keep (m := 8388608) (State.fhRequeue_keep _ _ _ _ rfl (Keep.refl _ _)) rfl
    | with_reducible apply State.txLeave_stk
    | with_reducible apply Stk.ite
    | with_reducible apply Stk.foldl <;> try intro _ _ _
    | split
    | dsimp only

theorem State.setCal_stk {s0 : State} (s : State) (a1 : _) (a2 : _) (h : Stk s0 s) : Stk s0 (State.setCal s a1 a2) := by
  unfold State.setCal
  repeat' first
    | with_reducible exact Stk.refl _
    | with_reducible assumption
    | with_reducible apply State.calUpd_stk
    | with_reducible apply Stk.ite
    | with_reducible apply Stk.foldl <;> try intro _ _ _
    | split
    | dsimp only

theorem State.calRxStart_stk {s0 : State} (s : State) (a1 : _) (h : Stk s0 s) : Stk s0 (State.calRxStart s a1) := by
  unfold State.calRxStart
  repeat' first
    | with_reducible exact Stk.refl _
    | with_reducible assumption
    | with_reducible apply State.setCal_stk
    | with_reducible apply Stk.ite
    | with_reducible apply Stk.foldl <;> try intro _ _ _
    | split
    | dsimp only

theorem State.elemSwitch_stk {s0 : State} (s : State) (a1 : _) (a2 : _) (h : Stk s0 s) : Stk s0 (State.elemSwitch s a1 a2) := by
  unfold State.elemSwitch
  repeat' first
    | with_reducible exact Stk.refl _
    | with_reducible assumption
    | with_reducible apply State.quadUpd_stk
    | with_reducible apply Stk.ite
    | with_reducible apply Stk.foldl <;> try intro _ _ _
    | split
    | dsimp only

theorem State.orxStall_stk {s0 : State} (s : State) (a1 : _) (a2 : _) (h : Stk s0 s) : Stk s0 (State.orxStall s a1 a2) := by
  unfold State.orxStall
  repeat' first
    | with_reducible exact Stk.refl _
    | with_reducible assumption
    | with_reducible apply State.quadUpd_stk
    | with_reducible apply Stk.keep (m := 272) (State.raise_keep _ _ rfl (Keep.refl _ _)) rfl
    | with_reducible apply Stk.keep (m := 32) (State.inc_keep _ _ _ rfl (Keep.refl _ _)) rfl
    | with_reducible apply Stk.ite
    | with_reducible apply Stk.foldl <;> try intro _ _ _
    | split
    | dsimp only

theorem State.slotFree_stk {s0 : State} (s : State) (a1 : _) (a2 : _) (a3 : _) (h : Stk s0 s) : Stk s0 (State.slotFree s a1 a2 a3) := by
  unfold State.slotFree
  repeat' first
    | with_reducible exact Stk.refl _
    | with_reducible assumption
    | with_reducible apply State.orxStall_stk
    | with_reducible apply State.quadUpd_stk
    | with_reducible apply Stk.ite
    | with_reducible apply Stk.foldl <;> try intro _ _ _
    | split
    | dsimp only

theorem State.visitAbandon_stk {s0 : State} (s : State) (a1 : _) (a2 : _) (h : Stk s0 s) : Stk s0 (State.visitAbandon s a1 a2) := by
  unfold State.visitAbandon
  repeat' first
    | with_reducible exact Stk.refl _
    | with_reducible assumption
    | with_reducible apply State.elemSwitch_stk
    | with_reducible apply Stk.keep (m := 32) (State.inc_keep _ _ _ rfl (Keep.refl _ _)) rfl
    | with_reducible apply State.quadUpd_stk
    | with_reducible apply State.slotFree_stk
    | with_reducible apply Stk.ite
    | with_reducible apply Stk.foldl <;> try intro _ _ _
    | split
    | dsimp only

theorem State.visitsAbandon_stk {s0 : State} (s : State) (a1 : _) (a2 : _) (h : Stk s0 s) : Stk s0 (State.visitsAbandon s a1 a2) := by
  unfold State.visitsAbandon
  repeat' first
    | with_reducible exact Stk.refl _
    | with_reducible assumption
    | with_reducible apply State.visitAbandon_stk
    | with_reducible apply Stk.ite
    | with_reducible apply Stk.foldl <;> try intro _ _ _
    | split
    | dsimp only

theorem State.txFinish_stk {s0 : State} (s : State) (a1 : _) (a2 : _) (h : Stk s0 s) : Stk s0 (State.txFinish s a1 a2) := by
  unfold State.txFinish
  repeat' first
    | with_reducible exact Stk.refl _
    | with_reducible assumption
    | with_reducible refine Stk.rad ?_ ⟨rfl, rfl, rfl, rfl, rfl⟩
    | with_reducible apply Stk.keep (m := 48) (State.txRadiate_keep _ _ _ _ _ rfl (Keep.refl _ _)) rfl
    | with_reducible apply State.calRxStart_stk
    | with_reducible apply State.pathUpd_stk
    | with_reducible apply State.visitsAbandon_stk
    | with_reducible refine State.atHome_stk _ _ _ (fun _ _ _ => ?_) ?_
    | with_reducible apply Stk.keep (m := 32) (State.inc_keep _ _ _ rfl (Keep.refl _ _)) rfl
    | with_reducible apply Stk.keep (m := 272) (State.raise_keep _ _ rfl (Keep.refl _ _)) rfl
    | with_reducible apply Stk.keep (m := 31523185) (State.txReturn_keep _ _ _ rfl (Keep.refl _ _)) rfl
    | with_reducible apply Stk.ite
    | with_reducible apply Stk.foldl <;> try intro _ _ _
    | split
    | dsimp only

theorem State.txsEnd_stk {s0 : State} (s : State) (a1 : _) (a2 : _) (h : Stk s0 s) : Stk s0 (State.txsEnd s a1 a2) := by
  unfold State.txsEnd
  repeat' first
    | with_reducible exact Stk.refl _
    | with_reducible assumption
    | with_reducible apply State.txFinish_stk
    | with_reducible apply Stk.ite
    | with_reducible apply Stk.foldl <;> try intro _ _ _
    | split
    | dsimp only

theorem State.txsDrop_stk {s0 : State} (s : State) (a1 : _) (h : Stk s0 s) : Stk s0 (State.txsDrop s a1) := by
  unfold State.txsDrop
  repeat' first
    | with_reducible exact Stk.refl _
    | with_reducible assumption
    | with_reducible refine Stk.rad ?_ ⟨rfl, rfl, rfl, rfl, rfl⟩
    | with_reducible apply State.txsEnd_stk
    | with_reducible apply Stk.ite
    | with_reducible apply Stk.foldl <;> try intro _ _ _
    | split
    | dsimp only

theorem State.synUpd_stk {s0 : State} (s : State) (a1 : _) (a2 : _) (a3 : _) (h : Stk s0 s) : Stk s0 (State.synUpd s a1 a2 a3) := by
  unfold State.synUpd
  repeat' first
    | with_reducible exact Stk.refl _
    | with_reducible assumption
    | with_reducible apply State.quadUpd_stk
    | with_reducible apply Stk.ite
    | with_reducible apply Stk.foldl <;> try intro _ _ _
    | split
    | dsimp only

theorem State.loTune_stk {s0 : State} (s : State) (a1 : _) (a2 : _) (a3 : _) (h : Stk s0 s) : Stk s0 (State.loTune s a1 a2 a3) := by
  unfold State.loTune
  repeat' first
    | with_reducible exact Stk.refl _
    | with_reducible assumption
    | with_reducible apply State.synUpd_stk
    | with_reducible apply Stk.keep (m := 32) (State.set_keep _ _ _ _ _ rfl (Keep.refl _ _)) rfl
    | with_reducible apply Stk.keep (m := 32) (State.setReg_keep _ _ _ _ _ rfl (Keep.refl _ _)) rfl
    | with_reducible apply Stk.ite
    | with_reducible apply Stk.foldl <;> try intro _ _ _
    | split
    | dsimp only

theorem State.takeStack_stk {s0 : State} (s : State) (a1 : _) (a2 : _) (h : Stk s0 s) : Stk s0 (State.takeStack s a1 a2) := by
  unfold State.takeStack
  repeat' first
    | with_reducible exact Stk.refl _
    | with_reducible assumption
    | with_reducible apply Stk.keep (m := 32) (State.setCur_keep _ _ _ rfl (Keep.refl _ _)) rfl
    | with_reducible apply State.loTune_stk
    | with_reducible apply State.quadUpd_stk
    | with_reducible apply Stk.keep (m := 32) (State.set_keep _ _ _ _ _ rfl (Keep.refl _ _)) rfl
    | with_reducible apply Stk.keep (m := 6) (State.unhold_keep _ _ _ (fun _ _ _ h => h) rfl (Keep.refl _ _)) rfl
    | with_reducible apply Stk.keep (m := 16) (State.stackWrites_keep _ _ _ rfl (Keep.refl _ _)) rfl
    | with_reducible apply Stk.keep (m := 32) (State.setBeamStat_keep _ _ rfl (Keep.refl _ _)) rfl
    | with_reducible apply Stk.ite
    | with_reducible apply Stk.foldl <;> try intro _ _ _
    | split
    | dsimp only

theorem State.coexUpd_stk {s0 : State} (s : State) (a1 : _) (a2 : _) (h : Stk s0 s) : Stk s0 (State.coexUpd s a1 a2) := by
  unfold State.coexUpd
  repeat' first
    | with_reducible exact Stk.refl _
    | with_reducible assumption
    | with_reducible refine Stk.rad ?_ ⟨rfl, rfl, rfl, rfl, rfl⟩
    | with_reducible apply Stk.ite
    | with_reducible apply Stk.foldl <;> try intro _ _ _
    | split
    | dsimp only

theorem State.coexConsent_stk {s0 : State} (s : State) (a1 : _) (a2 : _) (h : Stk s0 s) : Stk s0 (State.coexConsent s a1 a2) := by
  unfold State.coexConsent
  repeat' first
    | with_reducible exact Stk.refl _
    | with_reducible assumption
    | with_reducible apply State.txsEnd_stk
    | with_reducible apply Stk.keep (m := 32) (State.incBy_keep _ _ _ _ rfl (Keep.refl _ _)) rfl
    | with_reducible apply State.coexUpd_stk
    | with_reducible apply Stk.ite
    | with_reducible apply Stk.foldl <;> try intro _ _ _
    | split
    | dsimp only

theorem State.coexDecide_stk {s0 : State} (s : State) (a1 : _) (a2 : _) (h : Stk s0 s) : Stk s0 (State.coexDecide s a1 a2) := by
  unfold State.coexDecide
  repeat' first
    | with_reducible exact Stk.refl _
    | with_reducible assumption
    | with_reducible apply State.coexConsent_stk
    | with_reducible apply Stk.ite
    | with_reducible apply Stk.foldl <;> try intro _ _ _
    | split
    | dsimp only

theorem State.coexSettle_stk {s0 : State} (s : State) (h : Stk s0 s) : Stk s0 (State.coexSettle s) := by
  unfold State.coexSettle
  repeat' first
    | with_reducible exact Stk.refl _
    | with_reducible assumption
    | with_reducible apply State.coexDecide_stk
    | with_reducible apply Stk.ite
    | with_reducible apply Stk.foldl <;> try intro _ _ _
    | split
    | dsimp only

/-- What a gap does to the re-stack state: it joins the gaps, and its quadrants stop waiting. -/
theorem gapBegin_stk (s : State) (qs : List (Nat × Nat)) (request : Bool) :
    (s.gapBegin qs request).radio.gaps = s.radio.gaps ++ [⟨qs, s.now, s.now + 1000 * s.gapUs qs, request, ((qs.map (fun e => s.stackAffects e.1 e.2)).flatten).map (·.1),
      (List.range 3).filter (fun l => (((qs.map (fun e => s.stackAffects e.1 e.2)).flatten).map (·.1)).any (fun g => s.pathRole g == l + 1))⟩]
    ∧ (s.gapBegin qs request).radio.request = s.radio.request ∧ (s.gapBegin qs request).radio.returnAt = s.radio.returnAt
    ∧ (s.gapBegin qs request).radio.awaiting = s.radio.awaiting.filter (fun q => !qs.any (fun e => e.1 == q)) := by
  unfold State.gapBegin
  extract_lets us hit aff lose loses policy down t cut gap s1 s2 s3 s4 s5 s6 s7 s8
  have hy := State.calYield_stk s (qs.map (·.1)) t us (Stk.refl s)
  have h2 : Stk s1 s2 := Stk.foldl _ _ (Stk.refl _) (fun _ _ k => Stk.keep (State.dlCut_keep _ _ rfl (Keep.refl 16777520 _)) rfl (k))
  have h3 : Stk s1 s3 := Stk.ite h2 (Stk.keep (State.fhRestack_keep _ _ _ _ _ rfl (Keep.refl 8388912 _)) rfl (h2))
  have h4 : Stk s1 s4 := State.txsDrop_stk _ _ (State.txsEnd_stk _ _ _ (State.fhGap_stk _ _ _ _ _ (h3)))
  have h5 : Stk s1 s5 := Stk.foldl _ _ (Stk.keep (State.phyLose_keep _ _ rfl (Keep.refl 2097184 _)) rfl (h4)) (fun _ _ k => State.visitsAbandon_stk _ _ _ k)
  have h6 : Stk (s5.radUpd (fun r => { r with awaiting := r.awaiting.filter (fun q => !qs.any (fun e => e.1 == q)) })) s6 :=
    Stk.foldl _ _ (Stk.refl _) (fun _ _ k => State.takeStack_stk _ _ _ k)
  have h7 : Stk s6 s7 := Stk.foldl _ _ (Stk.refl _) (fun _ _ k => Stk.ite k (Stk.foldl _ _ k
    (fun _ _ j => Stk.keep (State.frameEnd_keep _ _ _ _ rfl (Keep.refl 4260209 _)) rfl (j))))
  have h8 : Stk s6 s8 := Stk.ite h7 (Stk.keep (State.txaRestack_keep _ _ rfl (Keep.refl 16777488 _)) rfl (h7))
  have h9 : Stk s6 (s8.pathsCheck).coexSettle := State.coexSettle_stk _ (Stk.keep (State.pathsCheck_keep _ rfl (Keep.refl 4194608 _)) rfl (h8))
  refine ⟨?_, ?_, ?_, ?_⟩
  · rw [h9.gaps, h6.gaps]
    show s5.radio.gaps = _
    rw [h5.gaps]
    show (s.calYield _ t us).radio.gaps ++ [gap] = _
    rw [hy.gaps]
  · rw [h9.request, h6.request]
    show s5.radio.request = _
    rw [h5.request]
    exact hy.request
  · rw [h9.returnAt, h6.returnAt]
    show s5.radio.returnAt = _
    rw [h5.returnAt]
    exact hy.returnAt
  · rw [h9.awaiting, h6.awaiting]
    show s5.radio.awaiting.filter _ = _
    rw [h5.awaiting]
    show (s.calYield _ t us).radio.awaiting.filter _ = _
    rw [hy.awaiting]

end Sys2Proof.Machine
end

