-- ==== Sys2Proof/Laws/State.lean ====
section
/-! SUPPORT. What each update of the state leaves in each field: true by computation, so that no proof unfolds an update of a record. -/
namespace Sys2Proof.Machine

variable (s : State)

@[simp] theorem State.setReg_pending (r : Reg) (ix : List Nat) (v : Word) (c : Nat) : (s.setReg r ix v c).pending = s.pending := rfl
@[simp] theorem State.setReg_now (r : Reg) (ix : List Nat) (v : Word) (c : Nat) : (s.setReg r ix v c).now = s.now := rfl
@[simp] theorem State.setReg_free (r : Reg) (ix : List Nat) (v : Word) (c : Nat) : (s.setReg r ix v c).free = s.free := rfl
@[simp] theorem State.setReg_resp (r : Reg) (ix : List Nat) (v : Word) (c : Nat) : (s.setReg r ix v c).resp = s.resp := rfl
@[simp] theorem State.setReg_held (r : Reg) (ix : List Nat) (v : Word) (c : Nat) : (s.setReg r ix v c).held = s.held := rfl
@[simp] theorem State.setReg_timeouts (r : Reg) (ix : List Nat) (v : Word) (c : Nat) : (s.setReg r ix v c).timeouts = s.timeouts := rfl
@[simp] theorem State.setReg_outs (r : Reg) (ix : List Nat) (v : Word) (c : Nat) : (s.setReg r ix v c).outs = s.outs := rfl
@[simp] theorem State.setReg_regs (r : Reg) (ix : List Nat) (v : Word) (c : Nat) : (s.setReg r ix v c).regs = sset resetWord s.regs (regKey c r ix) v := rfl
@[simp] theorem State.setReg_mem (r : Reg) (ix : List Nat) (v : Word) (c : Nat) : (s.setReg r ix v c).mem = s.mem := rfl
@[simp] theorem State.setReg_flash (r : Reg) (ix : List Nat) (v : Word) (c : Nat) : (s.setReg r ix v c).flash = s.flash := rfl
@[simp] theorem State.setReg_evt (r : Reg) (ix : List Nat) (v : Word) (c : Nat) : (s.setReg r ix v c).evt = s.evt := rfl
@[simp] theorem State.setReg_ash (r : Reg) (ix : List Nat) (v : Word) (c : Nat) : (s.setReg r ix v c).ash = s.ash := rfl
@[simp] theorem State.setReg_ntu (r : Reg) (ix : List Nat) (v : Word) (c : Nat) : (s.setReg r ix v c).ntu = s.ntu := rfl
@[simp] theorem State.setReg_plan (r : Reg) (ix : List Nat) (v : Word) (c : Nat) : (s.setReg r ix v c).plan = s.plan := rfl
@[simp] theorem State.setReg_boot (r : Reg) (ix : List Nat) (v : Word) (c : Nat) : (s.setReg r ix v c).boot = s.boot := rfl
@[simp] theorem State.setReg_push (r : Reg) (ix : List Nat) (v : Word) (c : Nat) : (s.setReg r ix v c).push = s.push := rfl
@[simp] theorem State.setReg_pwr (r : Reg) (ix : List Nat) (v : Word) (c : Nat) : (s.setReg r ix v c).pwr = s.pwr := rfl
@[simp] theorem State.setReg_kiln (r : Reg) (ix : List Nat) (v : Word) (c : Nat) : (s.setReg r ix v c).kiln = s.kiln := rfl
@[simp] theorem State.setReg_mems (r : Reg) (ix : List Nat) (v : Word) (c : Nat) : (s.setReg r ix v c).mems = s.mems := rfl
@[simp] theorem State.setReg_tly (r : Reg) (ix : List Nat) (v : Word) (c : Nat) : (s.setReg r ix v c).tly = s.tly := rfl
@[simp] theorem State.setReg_rkns (r : Reg) (ix : List Nat) (v : Word) (c : Nat) : (s.setReg r ix v c).rkns = s.rkns := rfl
@[simp] theorem State.setReg_ports (r : Reg) (ix : List Nat) (v : Word) (c : Nat) : (s.setReg r ix v c).ports = s.ports := rfl
@[simp] theorem State.setReg_radio (r : Reg) (ix : List Nat) (v : Word) (c : Nat) : (s.setReg r ix v c).radio = s.radio := rfl
@[simp] theorem State.setReg_bb (r : Reg) (ix : List Nat) (v : Word) (c : Nat) : (s.setReg r ix v c).bb = s.bb := rfl
@[simp] theorem State.setReg_wac (r : Reg) (ix : List Nat) (v : Word) (c : Nat) : (s.setReg r ix v c).wac = s.wac := rfl
@[simp] theorem State.setReg_fhu (r : Reg) (ix : List Nat) (v : Word) (c : Nat) : (s.setReg r ix v c).fhu = s.fhu := rfl
@[simp] theorem State.setReg_txa (r : Reg) (ix : List Nat) (v : Word) (c : Nat) : (s.setReg r ix v c).txa = s.txa := rfl
@[simp] theorem State.setReg_pk (r : Reg) (ix : List Nat) (v : Word) (c : Nat) : (s.setReg r ix v c).pk = s.pk := rfl
@[simp] theorem State.setReg_tm (r : Reg) (ix : List Nat) (v : Word) (c : Nat) : (s.setReg r ix v c).tm = s.tm := rfl

@[simp] theorem State.set_pending (f : Fld) (ix : List Nat) (v c : Nat) : (s.set f ix v c).pending = s.pending := rfl
@[simp] theorem State.set_now (f : Fld) (ix : List Nat) (v c : Nat) : (s.set f ix v c).now = s.now := rfl
@[simp] theorem State.set_free (f : Fld) (ix : List Nat) (v c : Nat) : (s.set f ix v c).free = s.free := rfl
@[simp] theorem State.set_resp (f : Fld) (ix : List Nat) (v c : Nat) : (s.set f ix v c).resp = s.resp := rfl
@[simp] theorem State.set_held (f : Fld) (ix : List Nat) (v c : Nat) : (s.set f ix v c).held = s.held := rfl
@[simp] theorem State.set_timeouts (f : Fld) (ix : List Nat) (v c : Nat) : (s.set f ix v c).timeouts = s.timeouts := rfl
@[simp] theorem State.set_outs (f : Fld) (ix : List Nat) (v c : Nat) : (s.set f ix v c).outs = s.outs := rfl
@[simp] theorem State.set_regs (f : Fld) (ix : List Nat) (v c : Nat) : (s.set f ix v c).regs = sset resetWord s.regs (regKey c f.reg ix) (wset (s.reg f.reg ix c) f.hi f.lo v) := rfl
@[simp] theorem State.set_mem (f : Fld) (ix : List Nat) (v c : Nat) : (s.set f ix v c).mem = s.mem := rfl
@[simp] theorem State.set_flash (f : Fld) (ix : List Nat) (v c : Nat) : (s.set f ix v c).flash = s.flash := rfl
@[simp] theorem State.set_evt (f : Fld) (ix : List Nat) (v c : Nat) : (s.set f ix v c).evt = s.evt := rfl
@[simp] theorem State.set_ash (f : Fld) (ix : List Nat) (v c : Nat) : (s.set f ix v c).ash = s.ash := rfl
@[simp] theorem State.set_ntu (f : Fld) (ix : List Nat) (v c : Nat) : (s.set f ix v c).ntu = s.ntu := rfl
@[simp] theorem State.set_plan (f : Fld) (ix : List Nat) (v c : Nat) : (s.set f ix v c).plan = s.plan := rfl
@[simp] theorem State.set_boot (f : Fld) (ix : List Nat) (v c : Nat) : (s.set f ix v c).boot = s.boot := rfl
@[simp] theorem State.set_push (f : Fld) (ix : List Nat) (v c : Nat) : (s.set f ix v c).push = s.push := rfl
@[simp] theorem State.set_pwr (f : Fld) (ix : List Nat) (v c : Nat) : (s.set f ix v c).pwr = s.pwr := rfl
@[simp] theorem State.set_kiln (f : Fld) (ix : List Nat) (v c : Nat) : (s.set f ix v c).kiln = s.kiln := rfl
@[simp] theorem State.set_mems (f : Fld) (ix : List Nat) (v c : Nat) : (s.set f ix v c).mems = s.mems := rfl
@[simp] theorem State.set_tly (f : Fld) (ix : List Nat) (v c : Nat) : (s.set f ix v c).tly = s.tly := rfl
@[simp] theorem State.set_rkns (f : Fld) (ix : List Nat) (v c : Nat) : (s.set f ix v c).rkns = s.rkns := rfl
@[simp] theorem State.set_ports (f : Fld) (ix : List Nat) (v c : Nat) : (s.set f ix v c).ports = s.ports := rfl
@[simp] theorem State.set_radio (f : Fld) (ix : List Nat) (v c : Nat) : (s.set f ix v c).radio = s.radio := rfl
@[simp] theorem State.set_bb (f : Fld) (ix : List Nat) (v c : Nat) : (s.set f ix v c).bb = s.bb := rfl
@[simp] theorem State.set_wac (f : Fld) (ix : List Nat) (v c : Nat) : (s.set f ix v c).wac = s.wac := rfl
@[simp] theorem State.set_fhu (f : Fld) (ix : List Nat) (v c : Nat) : (s.set f ix v c).fhu = s.fhu := rfl
@[simp] theorem State.set_txa (f : Fld) (ix : List Nat) (v c : Nat) : (s.set f ix v c).txa = s.txa := rfl
@[simp] theorem State.set_pk (f : Fld) (ix : List Nat) (v c : Nat) : (s.set f ix v c).pk = s.pk := rfl
@[simp] theorem State.set_tm (f : Fld) (ix : List Nat) (v c : Nat) : (s.set f ix v c).tm = s.tm := rfl

@[simp] theorem State.commit_pending (r : Reg) (ix : List Nat) (v c : Nat) : (s.commit r ix v c).pending = s.pending := rfl
@[simp] theorem State.commit_now (r : Reg) (ix : List Nat) (v c : Nat) : (s.commit r ix v c).now = s.now := rfl
@[simp] theorem State.commit_free (r : Reg) (ix : List Nat) (v c : Nat) : (s.commit r ix v c).free = s.free := rfl
@[simp] theorem State.commit_resp (r : Reg) (ix : List Nat) (v c : Nat) : (s.commit r ix v c).resp = s.resp := rfl
@[simp] theorem State.commit_held (r : Reg) (ix : List Nat) (v c : Nat) : (s.commit r ix v c).held = s.held := rfl
@[simp] theorem State.commit_timeouts (r : Reg) (ix : List Nat) (v c : Nat) : (s.commit r ix v c).timeouts = s.timeouts := rfl
@[simp] theorem State.commit_outs (r : Reg) (ix : List Nat) (v c : Nat) : (s.commit r ix v c).outs = s.outs := rfl
@[simp] theorem State.commit_regs (r : Reg) (ix : List Nat) (v c : Nat) : (s.commit r ix v c).regs = sset resetWord s.regs (regKey c r ix) (w32 (setBits v 31 31 1)) := rfl
@[simp] theorem State.commit_mem (r : Reg) (ix : List Nat) (v c : Nat) : (s.commit r ix v c).mem = s.mem := rfl
@[simp] theorem State.commit_flash (r : Reg) (ix : List Nat) (v c : Nat) : (s.commit r ix v c).flash = s.flash := rfl
@[simp] theorem State.commit_evt (r : Reg) (ix : List Nat) (v c : Nat) : (s.commit r ix v c).evt = s.evt := rfl
@[simp] theorem State.commit_ash (r : Reg) (ix : List Nat) (v c : Nat) : (s.commit r ix v c).ash = s.ash := rfl
@[simp] theorem State.commit_ntu (r : Reg) (ix : List Nat) (v c : Nat) : (s.commit r ix v c).ntu = s.ntu := rfl
@[simp] theorem State.commit_plan (r : Reg) (ix : List Nat) (v c : Nat) : (s.commit r ix v c).plan = s.plan := rfl
@[simp] theorem State.commit_boot (r : Reg) (ix : List Nat) (v c : Nat) : (s.commit r ix v c).boot = s.boot := rfl
@[simp] theorem State.commit_push (r : Reg) (ix : List Nat) (v c : Nat) : (s.commit r ix v c).push = s.push := rfl
@[simp] theorem State.commit_pwr (r : Reg) (ix : List Nat) (v c : Nat) : (s.commit r ix v c).pwr = s.pwr := rfl
@[simp] theorem State.commit_kiln (r : Reg) (ix : List Nat) (v c : Nat) : (s.commit r ix v c).kiln = s.kiln := rfl
@[simp] theorem State.commit_mems (r : Reg) (ix : List Nat) (v c : Nat) : (s.commit r ix v c).mems = s.mems := rfl
@[simp] theorem State.commit_tly (r : Reg) (ix : List Nat) (v c : Nat) : (s.commit r ix v c).tly = s.tly := rfl
@[simp] theorem State.commit_rkns (r : Reg) (ix : List Nat) (v c : Nat) : (s.commit r ix v c).rkns = s.rkns := rfl
@[simp] theorem State.commit_ports (r : Reg) (ix : List Nat) (v c : Nat) : (s.commit r ix v c).ports = s.ports := rfl
@[simp] theorem State.commit_radio (r : Reg) (ix : List Nat) (v c : Nat) : (s.commit r ix v c).radio = s.radio := rfl
@[simp] theorem State.commit_bb (r : Reg) (ix : List Nat) (v c : Nat) : (s.commit r ix v c).bb = s.bb := rfl
@[simp] theorem State.commit_wac (r : Reg) (ix : List Nat) (v c : Nat) : (s.commit r ix v c).wac = s.wac := rfl
@[simp] theorem State.commit_fhu (r : Reg) (ix : List Nat) (v c : Nat) : (s.commit r ix v c).fhu = s.fhu := rfl
@[simp] theorem State.commit_txa (r : Reg) (ix : List Nat) (v c : Nat) : (s.commit r ix v c).txa = s.txa := rfl
@[simp] theorem State.commit_pk (r : Reg) (ix : List Nat) (v c : Nat) : (s.commit r ix v c).pk = s.pk := rfl
@[simp] theorem State.commit_tm (r : Reg) (ix : List Nat) (v c : Nat) : (s.commit r ix v c).tm = s.tm := rfl

@[simp] theorem State.pendResult_pending (r : Reg) (ix : List Nat) (c : Nat) : (s.pendResult r ix c).pending = s.pending := rfl
@[simp] theorem State.pendResult_now (r : Reg) (ix : List Nat) (c : Nat) : (s.pendResult r ix c).now = s.now := rfl
@[simp] theorem State.pendResult_free (r : Reg) (ix : List Nat) (c : Nat) : (s.pendResult r ix c).free = s.free := rfl
@[simp] theorem State.pendResult_resp (r : Reg) (ix : List Nat) (c : Nat) : (s.pendResult r ix c).resp = s.resp := rfl
@[simp] theorem State.pendResult_held (r : Reg) (ix : List Nat) (c : Nat) : (s.pendResult r ix c).held = s.held := rfl
@[simp] theorem State.pendResult_timeouts (r : Reg) (ix : List Nat) (c : Nat) : (s.pendResult r ix c).timeouts = s.timeouts := rfl
@[simp] theorem State.pendResult_outs (r : Reg) (ix : List Nat) (c : Nat) : (s.pendResult r ix c).outs = s.outs := rfl
@[simp] theorem State.pendResult_regs (r : Reg) (ix : List Nat) (c : Nat) : (s.pendResult r ix c).regs = sset resetWord s.regs (regKey c r ix) (wset (s.reg r ix c) 31 31 0) := rfl
@[simp] theorem State.pendResult_mem (r : Reg) (ix : List Nat) (c : Nat) : (s.pendResult r ix c).mem = s.mem := rfl
@[simp] theorem State.pendResult_flash (r : Reg) (ix : List Nat) (c : Nat) : (s.pendResult r ix c).flash = s.flash := rfl
@[simp] theorem State.pendResult_evt (r : Reg) (ix : List Nat) (c : Nat) : (s.pendResult r ix c).evt = s.evt := rfl
@[simp] theorem State.pendResult_ash (r : Reg) (ix : List Nat) (c : Nat) : (s.pendResult r ix c).ash = s.ash := rfl
@[simp] theorem State.pendResult_ntu (r : Reg) (ix : List Nat) (c : Nat) : (s.pendResult r ix c).ntu = s.ntu := rfl
@[simp] theorem State.pendResult_plan (r : Reg) (ix : List Nat) (c : Nat) : (s.pendResult r ix c).plan = s.plan := rfl
@[simp] theorem State.pendResult_boot (r : Reg) (ix : List Nat) (c : Nat) : (s.pendResult r ix c).boot = s.boot := rfl
@[simp] theorem State.pendResult_push (r : Reg) (ix : List Nat) (c : Nat) : (s.pendResult r ix c).push = s.push := rfl
@[simp] theorem State.pendResult_pwr (r : Reg) (ix : List Nat) (c : Nat) : (s.pendResult r ix c).pwr = s.pwr := rfl
@[simp] theorem State.pendResult_kiln (r : Reg) (ix : List Nat) (c : Nat) : (s.pendResult r ix c).kiln = s.kiln := rfl
@[simp] theorem State.pendResult_mems (r : Reg) (ix : List Nat) (c : Nat) : (s.pendResult r ix c).mems = s.mems := rfl
@[simp] theorem State.pendResult_tly (r : Reg) (ix : List Nat) (c : Nat) : (s.pendResult r ix c).tly = s.tly := rfl
@[simp] theorem State.pendResult_rkns (r : Reg) (ix : List Nat) (c : Nat) : (s.pendResult r ix c).rkns = s.rkns := rfl
@[simp] theorem State.pendResult_ports (r : Reg) (ix : List Nat) (c : Nat) : (s.pendResult r ix c).ports = s.ports := rfl
@[simp] theorem State.pendResult_radio (r : Reg) (ix : List Nat) (c : Nat) : (s.pendResult r ix c).radio = s.radio := rfl
@[simp] theorem State.pendResult_bb (r : Reg) (ix : List Nat) (c : Nat) : (s.pendResult r ix c).bb = s.bb := rfl
@[simp] theorem State.pendResult_wac (r : Reg) (ix : List Nat) (c : Nat) : (s.pendResult r ix c).wac = s.wac := rfl
@[simp] theorem State.pendResult_fhu (r : Reg) (ix : List Nat) (c : Nat) : (s.pendResult r ix c).fhu = s.fhu := rfl
@[simp] theorem State.pendResult_txa (r : Reg) (ix : List Nat) (c : Nat) : (s.pendResult r ix c).txa = s.txa := rfl
@[simp] theorem State.pendResult_pk (r : Reg) (ix : List Nat) (c : Nat) : (s.pendResult r ix c).pk = s.pk := rfl
@[simp] theorem State.pendResult_tm (r : Reg) (ix : List Nat) (c : Nat) : (s.pendResult r ix c).tm = s.tm := rfl

@[simp] theorem State.resetRegs_pending (p : Nat → Bool) : (s.resetRegs p).pending = s.pending := rfl
@[simp] theorem State.resetRegs_now (p : Nat → Bool) : (s.resetRegs p).now = s.now := rfl
@[simp] theorem State.resetRegs_free (p : Nat → Bool) : (s.resetRegs p).free = s.free := rfl
@[simp] theorem State.resetRegs_resp (p : Nat → Bool) : (s.resetRegs p).resp = s.resp := rfl
@[simp] theorem State.resetRegs_held (p : Nat → Bool) : (s.resetRegs p).held = s.held := rfl
@[simp] theorem State.resetRegs_timeouts (p : Nat → Bool) : (s.resetRegs p).timeouts = s.timeouts := rfl
@[simp] theorem State.resetRegs_outs (p : Nat → Bool) : (s.resetRegs p).outs = s.outs := rfl
@[simp] theorem State.resetRegs_regs (p : Nat → Bool) : (s.resetRegs p).regs = sdrop p s.regs := rfl
@[simp] theorem State.resetRegs_mem (p : Nat → Bool) : (s.resetRegs p).mem = s.mem := rfl
@[simp] theorem State.resetRegs_flash (p : Nat → Bool) : (s.resetRegs p).flash = s.flash := rfl
@[simp] theorem State.resetRegs_evt (p : Nat → Bool) : (s.resetRegs p).evt = s.evt := rfl
@[simp] theorem State.resetRegs_ash (p : Nat → Bool) : (s.resetRegs p).ash = s.ash := rfl
@[simp] theorem State.resetRegs_ntu (p : Nat → Bool) : (s.resetRegs p).ntu = s.ntu := rfl
@[simp] theorem State.resetRegs_plan (p : Nat → Bool) : (s.resetRegs p).plan = s.plan := rfl
@[simp] theorem State.resetRegs_boot (p : Nat → Bool) : (s.resetRegs p).boot = s.boot := rfl
@[simp] theorem State.resetRegs_push (p : Nat → Bool) : (s.resetRegs p).push = s.push := rfl
@[simp] theorem State.resetRegs_pwr (p : Nat → Bool) : (s.resetRegs p).pwr = s.pwr := rfl
@[simp] theorem State.resetRegs_kiln (p : Nat → Bool) : (s.resetRegs p).kiln = s.kiln := rfl
@[simp] theorem State.resetRegs_mems (p : Nat → Bool) : (s.resetRegs p).mems = s.mems := rfl
@[simp] theorem State.resetRegs_tly (p : Nat → Bool) : (s.resetRegs p).tly = s.tly := rfl
@[simp] theorem State.resetRegs_rkns (p : Nat → Bool) : (s.resetRegs p).rkns = s.rkns := rfl
@[simp] theorem State.resetRegs_ports (p : Nat → Bool) : (s.resetRegs p).ports = s.ports := rfl
@[simp] theorem State.resetRegs_radio (p : Nat → Bool) : (s.resetRegs p).radio = s.radio := rfl
@[simp] theorem State.resetRegs_bb (p : Nat → Bool) : (s.resetRegs p).bb = s.bb := rfl
@[simp] theorem State.resetRegs_wac (p : Nat → Bool) : (s.resetRegs p).wac = s.wac := rfl
@[simp] theorem State.resetRegs_fhu (p : Nat → Bool) : (s.resetRegs p).fhu = s.fhu := rfl
@[simp] theorem State.resetRegs_txa (p : Nat → Bool) : (s.resetRegs p).txa = s.txa := rfl
@[simp] theorem State.resetRegs_pk (p : Nat → Bool) : (s.resetRegs p).pk = s.pk := rfl
@[simp] theorem State.resetRegs_tm (p : Nat → Bool) : (s.resetRegs p).tm = s.tm := rfl

@[simp] theorem State.emit_pending (k : OutKind) (args : List Nat) (data : Bytes) : (s.emit k args data).pending = s.pending := rfl
@[simp] theorem State.emit_now (k : OutKind) (args : List Nat) (data : Bytes) : (s.emit k args data).now = s.now := rfl
@[simp] theorem State.emit_free (k : OutKind) (args : List Nat) (data : Bytes) : (s.emit k args data).free = s.free := rfl
@[simp] theorem State.emit_resp (k : OutKind) (args : List Nat) (data : Bytes) : (s.emit k args data).resp = s.resp := rfl
@[simp] theorem State.emit_held (k : OutKind) (args : List Nat) (data : Bytes) : (s.emit k args data).held = s.held := rfl
@[simp] theorem State.emit_timeouts (k : OutKind) (args : List Nat) (data : Bytes) : (s.emit k args data).timeouts = s.timeouts := rfl
@[simp] theorem State.emit_outs (k : OutKind) (args : List Nat) (data : Bytes) : (s.emit k args data).outs = ⟨k, args, data⟩ :: s.outs := rfl
@[simp] theorem State.emit_regs (k : OutKind) (args : List Nat) (data : Bytes) : (s.emit k args data).regs = s.regs := rfl
@[simp] theorem State.emit_mem (k : OutKind) (args : List Nat) (data : Bytes) : (s.emit k args data).mem = s.mem := rfl
@[simp] theorem State.emit_flash (k : OutKind) (args : List Nat) (data : Bytes) : (s.emit k args data).flash = s.flash := rfl
@[simp] theorem State.emit_evt (k : OutKind) (args : List Nat) (data : Bytes) : (s.emit k args data).evt = s.evt := rfl
@[simp] theorem State.emit_ash (k : OutKind) (args : List Nat) (data : Bytes) : (s.emit k args data).ash = s.ash := rfl
@[simp] theorem State.emit_ntu (k : OutKind) (args : List Nat) (data : Bytes) : (s.emit k args data).ntu = s.ntu := rfl
@[simp] theorem State.emit_plan (k : OutKind) (args : List Nat) (data : Bytes) : (s.emit k args data).plan = s.plan := rfl
@[simp] theorem State.emit_boot (k : OutKind) (args : List Nat) (data : Bytes) : (s.emit k args data).boot = s.boot := rfl
@[simp] theorem State.emit_push (k : OutKind) (args : List Nat) (data : Bytes) : (s.emit k args data).push = s.push := rfl
@[simp] theorem State.emit_pwr (k : OutKind) (args : List Nat) (data : Bytes) : (s.emit k args data).pwr = s.pwr := rfl
@[simp] theorem State.emit_kiln (k : OutKind) (args : List Nat) (data : Bytes) : (s.emit k args data).kiln = s.kiln := rfl
@[simp] theorem State.emit_mems (k : OutKind) (args : List Nat) (data : Bytes) : (s.emit k args data).mems = s.mems := rfl
@[simp] theorem State.emit_tly (k : OutKind) (args : List Nat) (data : Bytes) : (s.emit k args data).tly = s.tly := rfl
@[simp] theorem State.emit_rkns (k : OutKind) (args : List Nat) (data : Bytes) : (s.emit k args data).rkns = s.rkns := rfl
@[simp] theorem State.emit_ports (k : OutKind) (args : List Nat) (data : Bytes) : (s.emit k args data).ports = s.ports := rfl
@[simp] theorem State.emit_radio (k : OutKind) (args : List Nat) (data : Bytes) : (s.emit k args data).radio = s.radio := rfl
@[simp] theorem State.emit_bb (k : OutKind) (args : List Nat) (data : Bytes) : (s.emit k args data).bb = s.bb := rfl
@[simp] theorem State.emit_wac (k : OutKind) (args : List Nat) (data : Bytes) : (s.emit k args data).wac = s.wac := rfl
@[simp] theorem State.emit_fhu (k : OutKind) (args : List Nat) (data : Bytes) : (s.emit k args data).fhu = s.fhu := rfl
@[simp] theorem State.emit_txa (k : OutKind) (args : List Nat) (data : Bytes) : (s.emit k args data).txa = s.txa := rfl
@[simp] theorem State.emit_pk (k : OutKind) (args : List Nat) (data : Bytes) : (s.emit k args data).pk = s.pk := rfl
@[simp] theorem State.emit_tm (k : OutKind) (args : List Nat) (data : Bytes) : (s.emit k args data).tm = s.tm := rfl

@[simp] theorem State.answer_pending (rq : Req) (d : Word) : (s.answer rq d).pending = s.pending := rfl
@[simp] theorem State.answer_now (rq : Req) (d : Word) : (s.answer rq d).now = s.now := rfl
@[simp] theorem State.answer_free (rq : Req) (d : Word) : (s.answer rq d).free = s.free := rfl
@[simp] theorem State.answer_resp (rq : Req) (d : Word) : (s.answer rq d).resp = some ⟨rq, 0, d⟩ := rfl
@[simp] theorem State.answer_held (rq : Req) (d : Word) : (s.answer rq d).held = s.held := rfl
@[simp] theorem State.answer_timeouts (rq : Req) (d : Word) : (s.answer rq d).timeouts = s.timeouts := rfl
@[simp] theorem State.answer_outs (rq : Req) (d : Word) : (s.answer rq d).outs = s.outs := rfl
@[simp] theorem State.answer_regs (rq : Req) (d : Word) : (s.answer rq d).regs = s.regs := rfl
@[simp] theorem State.answer_mem (rq : Req) (d : Word) : (s.answer rq d).mem = s.mem := rfl
@[simp] theorem State.answer_flash (rq : Req) (d : Word) : (s.answer rq d).flash = s.flash := rfl
@[simp] theorem State.answer_evt (rq : Req) (d : Word) : (s.answer rq d).evt = s.evt := rfl
@[simp] theorem State.answer_ash (rq : Req) (d : Word) : (s.answer rq d).ash = s.ash := rfl
@[simp] theorem State.answer_ntu (rq : Req) (d : Word) : (s.answer rq d).ntu = s.ntu := rfl
@[simp] theorem State.answer_plan (rq : Req) (d : Word) : (s.answer rq d).plan = s.plan := rfl
@[simp] theorem State.answer_boot (rq : Req) (d : Word) : (s.answer rq d).boot = s.boot := rfl
@[simp] theorem State.answer_push (rq : Req) (d : Word) : (s.answer rq d).push = s.push := rfl
@[simp] theorem State.answer_pwr (rq : Req) (d : Word) : (s.answer rq d).pwr = s.pwr := rfl
@[simp] theorem State.answer_kiln (rq : Req) (d : Word) : (s.answer rq d).kiln = s.kiln := rfl
@[simp] theorem State.answer_mems (rq : Req) (d : Word) : (s.answer rq d).mems = s.mems := rfl
@[simp] theorem State.answer_tly (rq : Req) (d : Word) : (s.answer rq d).tly = s.tly := rfl
@[simp] theorem State.answer_rkns (rq : Req) (d : Word) : (s.answer rq d).rkns = s.rkns := rfl
@[simp] theorem State.answer_ports (rq : Req) (d : Word) : (s.answer rq d).ports = s.ports := rfl
@[simp] theorem State.answer_radio (rq : Req) (d : Word) : (s.answer rq d).radio = s.radio := rfl
@[simp] theorem State.answer_bb (rq : Req) (d : Word) : (s.answer rq d).bb = s.bb := rfl
@[simp] theorem State.answer_wac (rq : Req) (d : Word) : (s.answer rq d).wac = s.wac := rfl
@[simp] theorem State.answer_fhu (rq : Req) (d : Word) : (s.answer rq d).fhu = s.fhu := rfl
@[simp] theorem State.answer_txa (rq : Req) (d : Word) : (s.answer rq d).txa = s.txa := rfl
@[simp] theorem State.answer_pk (rq : Req) (d : Word) : (s.answer rq d).pk = s.pk := rfl
@[simp] theorem State.answer_tm (rq : Req) (d : Word) : (s.answer rq d).tm = s.tm := rfl

@[simp] theorem State.put_pending (a : Nat) (bs : Bytes) : (s.put a bs).pending = s.pending := rfl
@[simp] theorem State.put_now (a : Nat) (bs : Bytes) : (s.put a bs).now = s.now := rfl
@[simp] theorem State.put_free (a : Nat) (bs : Bytes) : (s.put a bs).free = s.free := rfl
@[simp] theorem State.put_resp (a : Nat) (bs : Bytes) : (s.put a bs).resp = s.resp := rfl
@[simp] theorem State.put_held (a : Nat) (bs : Bytes) : (s.put a bs).held = s.held := rfl
@[simp] theorem State.put_timeouts (a : Nat) (bs : Bytes) : (s.put a bs).timeouts = s.timeouts := rfl
@[simp] theorem State.put_outs (a : Nat) (bs : Bytes) : (s.put a bs).outs = s.outs := rfl
@[simp] theorem State.put_regs (a : Nat) (bs : Bytes) : (s.put a bs).regs = s.regs := rfl
@[simp] theorem State.put_mem (a : Nat) (bs : Bytes) : (s.put a bs).mem = sputs memDefault s.mem a bs := rfl
@[simp] theorem State.put_flash (a : Nat) (bs : Bytes) : (s.put a bs).flash = s.flash := rfl
@[simp] theorem State.put_evt (a : Nat) (bs : Bytes) : (s.put a bs).evt = s.evt := rfl
@[simp] theorem State.put_ash (a : Nat) (bs : Bytes) : (s.put a bs).ash = s.ash := rfl
@[simp] theorem State.put_ntu (a : Nat) (bs : Bytes) : (s.put a bs).ntu = s.ntu := rfl
@[simp] theorem State.put_plan (a : Nat) (bs : Bytes) : (s.put a bs).plan = s.plan := rfl
@[simp] theorem State.put_boot (a : Nat) (bs : Bytes) : (s.put a bs).boot = s.boot := rfl
@[simp] theorem State.put_push (a : Nat) (bs : Bytes) : (s.put a bs).push = s.push := rfl
@[simp] theorem State.put_pwr (a : Nat) (bs : Bytes) : (s.put a bs).pwr = s.pwr := rfl
@[simp] theorem State.put_kiln (a : Nat) (bs : Bytes) : (s.put a bs).kiln = s.kiln := rfl
@[simp] theorem State.put_mems (a : Nat) (bs : Bytes) : (s.put a bs).mems = s.mems := rfl
@[simp] theorem State.put_tly (a : Nat) (bs : Bytes) : (s.put a bs).tly = s.tly := rfl
@[simp] theorem State.put_rkns (a : Nat) (bs : Bytes) : (s.put a bs).rkns = s.rkns := rfl
@[simp] theorem State.put_ports (a : Nat) (bs : Bytes) : (s.put a bs).ports = s.ports := rfl
@[simp] theorem State.put_radio (a : Nat) (bs : Bytes) : (s.put a bs).radio = s.radio := rfl
@[simp] theorem State.put_bb (a : Nat) (bs : Bytes) : (s.put a bs).bb = s.bb := rfl
@[simp] theorem State.put_wac (a : Nat) (bs : Bytes) : (s.put a bs).wac = s.wac := rfl
@[simp] theorem State.put_fhu (a : Nat) (bs : Bytes) : (s.put a bs).fhu = s.fhu := rfl
@[simp] theorem State.put_txa (a : Nat) (bs : Bytes) : (s.put a bs).txa = s.txa := rfl
@[simp] theorem State.put_pk (a : Nat) (bs : Bytes) : (s.put a bs).pk = s.pk := rfl
@[simp] theorem State.put_tm (a : Nat) (bs : Bytes) : (s.put a bs).tm = s.tm := rfl

@[simp] theorem State.memPut_pending (a : Nat) (bs : Bytes) : (s.memPut a bs).pending = s.pending := rfl
@[simp] theorem State.memPut_now (a : Nat) (bs : Bytes) : (s.memPut a bs).now = s.now := rfl
@[simp] theorem State.memPut_free (a : Nat) (bs : Bytes) : (s.memPut a bs).free = s.free := rfl
@[simp] theorem State.memPut_resp (a : Nat) (bs : Bytes) : (s.memPut a bs).resp = s.resp := rfl
@[simp] theorem State.memPut_held (a : Nat) (bs : Bytes) : (s.memPut a bs).held = s.held := rfl
@[simp] theorem State.memPut_timeouts (a : Nat) (bs : Bytes) : (s.memPut a bs).timeouts = s.timeouts := rfl
@[simp] theorem State.memPut_outs (a : Nat) (bs : Bytes) : (s.memPut a bs).outs = s.outs := rfl
@[simp] theorem State.memPut_regs (a : Nat) (bs : Bytes) : (s.memPut a bs).regs = s.regs := rfl
@[simp] theorem State.memPut_mem (a : Nat) (bs : Bytes) : (s.memPut a bs).mem = sputs memDefault s.mem a bs := rfl
@[simp] theorem State.memPut_flash (a : Nat) (bs : Bytes) : (s.memPut a bs).flash = s.flash := rfl
@[simp] theorem State.memPut_evt (a : Nat) (bs : Bytes) : (s.memPut a bs).evt = s.evt := rfl
@[simp] theorem State.memPut_ash (a : Nat) (bs : Bytes) : (s.memPut a bs).ash = s.ash := rfl
@[simp] theorem State.memPut_ntu (a : Nat) (bs : Bytes) : (s.memPut a bs).ntu = s.ntu := rfl
@[simp] theorem State.memPut_plan (a : Nat) (bs : Bytes) : (s.memPut a bs).plan = s.plan := rfl
@[simp] theorem State.memPut_boot (a : Nat) (bs : Bytes) : (s.memPut a bs).boot = s.boot := rfl
@[simp] theorem State.memPut_push (a : Nat) (bs : Bytes) : (s.memPut a bs).push = s.push := rfl
@[simp] theorem State.memPut_pwr (a : Nat) (bs : Bytes) : (s.memPut a bs).pwr = s.pwr := rfl
@[simp] theorem State.memPut_kiln (a : Nat) (bs : Bytes) : (s.memPut a bs).kiln = s.kiln := rfl
@[simp] theorem State.memPut_mems (a : Nat) (bs : Bytes) : (s.memPut a bs).mems = { s.mems with poisoned := unpoison s.mems.poisoned a bs.length } := rfl
@[simp] theorem State.memPut_tly (a : Nat) (bs : Bytes) : (s.memPut a bs).tly = s.tly := rfl
@[simp] theorem State.memPut_rkns (a : Nat) (bs : Bytes) : (s.memPut a bs).rkns = s.rkns := rfl
@[simp] theorem State.memPut_ports (a : Nat) (bs : Bytes) : (s.memPut a bs).ports = s.ports := rfl
@[simp] theorem State.memPut_radio (a : Nat) (bs : Bytes) : (s.memPut a bs).radio = s.radio := rfl
@[simp] theorem State.memPut_bb (a : Nat) (bs : Bytes) : (s.memPut a bs).bb = s.bb := rfl
@[simp] theorem State.memPut_wac (a : Nat) (bs : Bytes) : (s.memPut a bs).wac = s.wac := rfl
@[simp] theorem State.memPut_fhu (a : Nat) (bs : Bytes) : (s.memPut a bs).fhu = s.fhu := rfl
@[simp] theorem State.memPut_txa (a : Nat) (bs : Bytes) : (s.memPut a bs).txa = s.txa := rfl
@[simp] theorem State.memPut_pk (a : Nat) (bs : Bytes) : (s.memPut a bs).pk = s.pk := rfl
@[simp] theorem State.memPut_tm (a : Nat) (bs : Bytes) : (s.memPut a bs).tm = s.tm := rfl

@[simp] theorem State.memDrop_pending (a b : Nat) : (s.memDrop a b).pending = s.pending := rfl
@[simp] theorem State.memDrop_now (a b : Nat) : (s.memDrop a b).now = s.now := rfl
@[simp] theorem State.memDrop_free (a b : Nat) : (s.memDrop a b).free = s.free := rfl
@[simp] theorem State.memDrop_resp (a b : Nat) : (s.memDrop a b).resp = s.resp := rfl
@[simp] theorem State.memDrop_held (a b : Nat) : (s.memDrop a b).held = s.held := rfl
@[simp] theorem State.memDrop_timeouts (a b : Nat) : (s.memDrop a b).timeouts = s.timeouts := rfl
@[simp] theorem State.memDrop_outs (a b : Nat) : (s.memDrop a b).outs = s.outs := rfl
@[simp] theorem State.memDrop_regs (a b : Nat) : (s.memDrop a b).regs = s.regs := rfl
@[simp] theorem State.memDrop_mem (a b : Nat) : (s.memDrop a b).mem = sdrop (fun k => decide (a ≤ k ∧ k < b)) s.mem := rfl
@[simp] theorem State.memDrop_flash (a b : Nat) : (s.memDrop a b).flash = s.flash := rfl
@[simp] theorem State.memDrop_evt (a b : Nat) : (s.memDrop a b).evt = s.evt := rfl
@[simp] theorem State.memDrop_ash (a b : Nat) : (s.memDrop a b).ash = s.ash := rfl
@[simp] theorem State.memDrop_ntu (a b : Nat) : (s.memDrop a b).ntu = s.ntu := rfl
@[simp] theorem State.memDrop_plan (a b : Nat) : (s.memDrop a b).plan = s.plan := rfl
@[simp] theorem State.memDrop_boot (a b : Nat) : (s.memDrop a b).boot = s.boot := rfl
@[simp] theorem State.memDrop_push (a b : Nat) : (s.memDrop a b).push = s.push := rfl
@[simp] theorem State.memDrop_pwr (a b : Nat) : (s.memDrop a b).pwr = s.pwr := rfl
@[simp] theorem State.memDrop_kiln (a b : Nat) : (s.memDrop a b).kiln = s.kiln := rfl
@[simp] theorem State.memDrop_mems (a b : Nat) : (s.memDrop a b).mems = s.mems := rfl
@[simp] theorem State.memDrop_tly (a b : Nat) : (s.memDrop a b).tly = s.tly := rfl
@[simp] theorem State.memDrop_rkns (a b : Nat) : (s.memDrop a b).rkns = s.rkns := rfl
@[simp] theorem State.memDrop_ports (a b : Nat) : (s.memDrop a b).ports = s.ports := rfl
@[simp] theorem State.memDrop_radio (a b : Nat) : (s.memDrop a b).radio = s.radio := rfl
@[simp] theorem State.memDrop_bb (a b : Nat) : (s.memDrop a b).bb = s.bb := rfl
@[simp] theorem State.memDrop_wac (a b : Nat) : (s.memDrop a b).wac = s.wac := rfl
@[simp] theorem State.memDrop_fhu (a b : Nat) : (s.memDrop a b).fhu = s.fhu := rfl
@[simp] theorem State.memDrop_txa (a b : Nat) : (s.memDrop a b).txa = s.txa := rfl
@[simp] theorem State.memDrop_pk (a b : Nat) : (s.memDrop a b).pk = s.pk := rfl
@[simp] theorem State.memDrop_tm (a b : Nat) : (s.memDrop a b).tm = s.tm := rfl

@[simp] theorem State.fput_pending (a : Nat) (bs : Bytes) : (s.fput a bs).pending = s.pending := rfl
@[simp] theorem State.fput_now (a : Nat) (bs : Bytes) : (s.fput a bs).now = s.now := rfl
@[simp] theorem State.fput_free (a : Nat) (bs : Bytes) : (s.fput a bs).free = s.free := rfl
@[simp] theorem State.fput_resp (a : Nat) (bs : Bytes) : (s.fput a bs).resp = s.resp := rfl
@[simp] theorem State.fput_held (a : Nat) (bs : Bytes) : (s.fput a bs).held = s.held := rfl
@[simp] theorem State.fput_timeouts (a : Nat) (bs : Bytes) : (s.fput a bs).timeouts = s.timeouts := rfl
@[simp] theorem State.fput_outs (a : Nat) (bs : Bytes) : (s.fput a bs).outs = s.outs := rfl
@[simp] theorem State.fput_regs (a : Nat) (bs : Bytes) : (s.fput a bs).regs = s.regs := rfl
@[simp] theorem State.fput_mem (a : Nat) (bs : Bytes) : (s.fput a bs).mem = s.mem := rfl
@[simp] theorem State.fput_flash (a : Nat) (bs : Bytes) : (s.fput a bs).flash = sputs flashDefault s.flash a bs := rfl
@[simp] theorem State.fput_evt (a : Nat) (bs : Bytes) : (s.fput a bs).evt = s.evt := rfl
@[simp] theorem State.fput_ash (a : Nat) (bs : Bytes) : (s.fput a bs).ash = s.ash := rfl
@[simp] theorem State.fput_ntu (a : Nat) (bs : Bytes) : (s.fput a bs).ntu = s.ntu := rfl
@[simp] theorem State.fput_plan (a : Nat) (bs : Bytes) : (s.fput a bs).plan = s.plan := rfl
@[simp] theorem State.fput_boot (a : Nat) (bs : Bytes) : (s.fput a bs).boot = s.boot := rfl
@[simp] theorem State.fput_push (a : Nat) (bs : Bytes) : (s.fput a bs).push = s.push := rfl
@[simp] theorem State.fput_pwr (a : Nat) (bs : Bytes) : (s.fput a bs).pwr = s.pwr := rfl
@[simp] theorem State.fput_kiln (a : Nat) (bs : Bytes) : (s.fput a bs).kiln = s.kiln := rfl
@[simp] theorem State.fput_mems (a : Nat) (bs : Bytes) : (s.fput a bs).mems = s.mems := rfl
@[simp] theorem State.fput_tly (a : Nat) (bs : Bytes) : (s.fput a bs).tly = s.tly := rfl
@[simp] theorem State.fput_rkns (a : Nat) (bs : Bytes) : (s.fput a bs).rkns = s.rkns := rfl
@[simp] theorem State.fput_ports (a : Nat) (bs : Bytes) : (s.fput a bs).ports = s.ports := rfl
@[simp] theorem State.fput_radio (a : Nat) (bs : Bytes) : (s.fput a bs).radio = s.radio := rfl
@[simp] theorem State.fput_bb (a : Nat) (bs : Bytes) : (s.fput a bs).bb = s.bb := rfl
@[simp] theorem State.fput_wac (a : Nat) (bs : Bytes) : (s.fput a bs).wac = s.wac := rfl
@[simp] theorem State.fput_fhu (a : Nat) (bs : Bytes) : (s.fput a bs).fhu = s.fhu := rfl
@[simp] theorem State.fput_txa (a : Nat) (bs : Bytes) : (s.fput a bs).txa = s.txa := rfl
@[simp] theorem State.fput_pk (a : Nat) (bs : Bytes) : (s.fput a bs).pk = s.pk := rfl
@[simp] theorem State.fput_tm (a : Nat) (bs : Bytes) : (s.fput a bs).tm = s.tm := rfl

@[simp] theorem State.setPend_pending (e n : Nat) : (s.setPend e n).pending = s.pending := rfl
@[simp] theorem State.setPend_now (e n : Nat) : (s.setPend e n).now = s.now := rfl
@[simp] theorem State.setPend_free (e n : Nat) : (s.setPend e n).free = s.free := rfl
@[simp] theorem State.setPend_resp (e n : Nat) : (s.setPend e n).resp = s.resp := rfl
@[simp] theorem State.setPend_held (e n : Nat) : (s.setPend e n).held = s.held := rfl
@[simp] theorem State.setPend_timeouts (e n : Nat) : (s.setPend e n).timeouts = s.timeouts := rfl
@[simp] theorem State.setPend_outs (e n : Nat) : (s.setPend e n).outs = s.outs := rfl
@[simp] theorem State.setPend_regs (e n : Nat) : (s.setPend e n).regs = s.regs := rfl
@[simp] theorem State.setPend_mem (e n : Nat) : (s.setPend e n).mem = s.mem := rfl
@[simp] theorem State.setPend_flash (e n : Nat) : (s.setPend e n).flash = s.flash := rfl
@[simp] theorem State.setPend_evt (e n : Nat) : (s.setPend e n).evt = { s.evt with pend := s.evt.pend.set e n } := rfl
@[simp] theorem State.setPend_ash (e n : Nat) : (s.setPend e n).ash = s.ash := rfl
@[simp] theorem State.setPend_ntu (e n : Nat) : (s.setPend e n).ntu = s.ntu := rfl
@[simp] theorem State.setPend_plan (e n : Nat) : (s.setPend e n).plan = s.plan := rfl
@[simp] theorem State.setPend_boot (e n : Nat) : (s.setPend e n).boot = s.boot := rfl
@[simp] theorem State.setPend_push (e n : Nat) : (s.setPend e n).push = s.push := rfl
@[simp] theorem State.setPend_pwr (e n : Nat) : (s.setPend e n).pwr = s.pwr := rfl
@[simp] theorem State.setPend_kiln (e n : Nat) : (s.setPend e n).kiln = s.kiln := rfl
@[simp] theorem State.setPend_mems (e n : Nat) : (s.setPend e n).mems = s.mems := rfl
@[simp] theorem State.setPend_tly (e n : Nat) : (s.setPend e n).tly = s.tly := rfl
@[simp] theorem State.setPend_rkns (e n : Nat) : (s.setPend e n).rkns = s.rkns := rfl
@[simp] theorem State.setPend_ports (e n : Nat) : (s.setPend e n).ports = s.ports := rfl
@[simp] theorem State.setPend_radio (e n : Nat) : (s.setPend e n).radio = s.radio := rfl
@[simp] theorem State.setPend_bb (e n : Nat) : (s.setPend e n).bb = s.bb := rfl
@[simp] theorem State.setPend_wac (e n : Nat) : (s.setPend e n).wac = s.wac := rfl
@[simp] theorem State.setPend_fhu (e n : Nat) : (s.setPend e n).fhu = s.fhu := rfl
@[simp] theorem State.setPend_txa (e n : Nat) : (s.setPend e n).txa = s.txa := rfl
@[simp] theorem State.setPend_pk (e n : Nat) : (s.setPend e n).pk = s.pk := rfl
@[simp] theorem State.setPend_tm (e n : Nat) : (s.setPend e n).tm = s.tm := rfl

@[simp] theorem State.chUpd_pending (c : Nat) (f : Dmc → Dmc) : (s.chUpd c f).pending = s.pending := rfl
@[simp] theorem State.chUpd_now (c : Nat) (f : Dmc → Dmc) : (s.chUpd c f).now = s.now := rfl
@[simp] theorem State.chUpd_free (c : Nat) (f : Dmc → Dmc) : (s.chUpd c f).free = s.free := rfl
@[simp] theorem State.chUpd_resp (c : Nat) (f : Dmc → Dmc) : (s.chUpd c f).resp = s.resp := rfl
@[simp] theorem State.chUpd_held (c : Nat) (f : Dmc → Dmc) : (s.chUpd c f).held = s.held := rfl
@[simp] theorem State.chUpd_timeouts (c : Nat) (f : Dmc → Dmc) : (s.chUpd c f).timeouts = s.timeouts := rfl
@[simp] theorem State.chUpd_outs (c : Nat) (f : Dmc → Dmc) : (s.chUpd c f).outs = s.outs := rfl
@[simp] theorem State.chUpd_regs (c : Nat) (f : Dmc → Dmc) : (s.chUpd c f).regs = s.regs := rfl
@[simp] theorem State.chUpd_mem (c : Nat) (f : Dmc → Dmc) : (s.chUpd c f).mem = s.mem := rfl
@[simp] theorem State.chUpd_flash (c : Nat) (f : Dmc → Dmc) : (s.chUpd c f).flash = s.flash := rfl
@[simp] theorem State.chUpd_evt (c : Nat) (f : Dmc → Dmc) : (s.chUpd c f).evt = s.evt := rfl
@[simp] theorem State.chUpd_ash (c : Nat) (f : Dmc → Dmc) : (s.chUpd c f).ash = s.ash := rfl
@[simp] theorem State.chUpd_ntu (c : Nat) (f : Dmc → Dmc) : (s.chUpd c f).ntu = s.ntu := rfl
@[simp] theorem State.chUpd_plan (c : Nat) (f : Dmc → Dmc) : (s.chUpd c f).plan = s.plan := rfl
@[simp] theorem State.chUpd_boot (c : Nat) (f : Dmc → Dmc) : (s.chUpd c f).boot = s.boot := rfl
@[simp] theorem State.chUpd_push (c : Nat) (f : Dmc → Dmc) : (s.chUpd c f).push = s.push := rfl
@[simp] theorem State.chUpd_pwr (c : Nat) (f : Dmc → Dmc) : (s.chUpd c f).pwr = s.pwr := rfl
@[simp] theorem State.chUpd_kiln (c : Nat) (f : Dmc → Dmc) : (s.chUpd c f).kiln = s.kiln := rfl
@[simp] theorem State.chUpd_mems (c : Nat) (f : Dmc → Dmc) : (s.chUpd c f).mems = { s.mems with dmc := updAt s.mems.dmc c f } := rfl
@[simp] theorem State.chUpd_tly (c : Nat) (f : Dmc → Dmc) : (s.chUpd c f).tly = s.tly := rfl
@[simp] theorem State.chUpd_rkns (c : Nat) (f : Dmc → Dmc) : (s.chUpd c f).rkns = s.rkns := rfl
@[simp] theorem State.chUpd_ports (c : Nat) (f : Dmc → Dmc) : (s.chUpd c f).ports = s.ports := rfl
@[simp] theorem State.chUpd_radio (c : Nat) (f : Dmc → Dmc) : (s.chUpd c f).radio = s.radio := rfl
@[simp] theorem State.chUpd_bb (c : Nat) (f : Dmc → Dmc) : (s.chUpd c f).bb = s.bb := rfl
@[simp] theorem State.chUpd_wac (c : Nat) (f : Dmc → Dmc) : (s.chUpd c f).wac = s.wac := rfl
@[simp] theorem State.chUpd_fhu (c : Nat) (f : Dmc → Dmc) : (s.chUpd c f).fhu = s.fhu := rfl
@[simp] theorem State.chUpd_txa (c : Nat) (f : Dmc → Dmc) : (s.chUpd c f).txa = s.txa := rfl
@[simp] theorem State.chUpd_pk (c : Nat) (f : Dmc → Dmc) : (s.chUpd c f).pk = s.pk := rfl
@[simp] theorem State.chUpd_tm (c : Nat) (f : Dmc → Dmc) : (s.chUpd c f).tm = s.tm := rfl

@[simp] theorem State.rkUpd_pending (k : Nat) (f : Rkn → Rkn) : (s.rkUpd k f).pending = s.pending := rfl
@[simp] theorem State.rkUpd_now (k : Nat) (f : Rkn → Rkn) : (s.rkUpd k f).now = s.now := rfl
@[simp] theorem State.rkUpd_free (k : Nat) (f : Rkn → Rkn) : (s.rkUpd k f).free = s.free := rfl
@[simp] theorem State.rkUpd_resp (k : Nat) (f : Rkn → Rkn) : (s.rkUpd k f).resp = s.resp := rfl
@[simp] theorem State.rkUpd_held (k : Nat) (f : Rkn → Rkn) : (s.rkUpd k f).held = s.held := rfl
@[simp] theorem State.rkUpd_timeouts (k : Nat) (f : Rkn → Rkn) : (s.rkUpd k f).timeouts = s.timeouts := rfl
@[simp] theorem State.rkUpd_outs (k : Nat) (f : Rkn → Rkn) : (s.rkUpd k f).outs = s.outs := rfl
@[simp] theorem State.rkUpd_regs (k : Nat) (f : Rkn → Rkn) : (s.rkUpd k f).regs = s.regs := rfl
@[simp] theorem State.rkUpd_mem (k : Nat) (f : Rkn → Rkn) : (s.rkUpd k f).mem = s.mem := rfl
@[simp] theorem State.rkUpd_flash (k : Nat) (f : Rkn → Rkn) : (s.rkUpd k f).flash = s.flash := rfl
@[simp] theorem State.rkUpd_evt (k : Nat) (f : Rkn → Rkn) : (s.rkUpd k f).evt = s.evt := rfl
@[simp] theorem State.rkUpd_ash (k : Nat) (f : Rkn → Rkn) : (s.rkUpd k f).ash = s.ash := rfl
@[simp] theorem State.rkUpd_ntu (k : Nat) (f : Rkn → Rkn) : (s.rkUpd k f).ntu = s.ntu := rfl
@[simp] theorem State.rkUpd_plan (k : Nat) (f : Rkn → Rkn) : (s.rkUpd k f).plan = s.plan := rfl
@[simp] theorem State.rkUpd_boot (k : Nat) (f : Rkn → Rkn) : (s.rkUpd k f).boot = s.boot := rfl
@[simp] theorem State.rkUpd_push (k : Nat) (f : Rkn → Rkn) : (s.rkUpd k f).push = s.push := rfl
@[simp] theorem State.rkUpd_pwr (k : Nat) (f : Rkn → Rkn) : (s.rkUpd k f).pwr = s.pwr := rfl
@[simp] theorem State.rkUpd_kiln (k : Nat) (f : Rkn → Rkn) : (s.rkUpd k f).kiln = s.kiln := rfl
@[simp] theorem State.rkUpd_mems (k : Nat) (f : Rkn → Rkn) : (s.rkUpd k f).mems = s.mems := rfl
@[simp] theorem State.rkUpd_tly (k : Nat) (f : Rkn → Rkn) : (s.rkUpd k f).tly = s.tly := rfl
@[simp] theorem State.rkUpd_rkns (k : Nat) (f : Rkn → Rkn) : (s.rkUpd k f).rkns = updAt s.rkns k f := rfl
@[simp] theorem State.rkUpd_ports (k : Nat) (f : Rkn → Rkn) : (s.rkUpd k f).ports = s.ports := rfl
@[simp] theorem State.rkUpd_radio (k : Nat) (f : Rkn → Rkn) : (s.rkUpd k f).radio = s.radio := rfl
@[simp] theorem State.rkUpd_bb (k : Nat) (f : Rkn → Rkn) : (s.rkUpd k f).bb = s.bb := rfl
@[simp] theorem State.rkUpd_wac (k : Nat) (f : Rkn → Rkn) : (s.rkUpd k f).wac = s.wac := rfl
@[simp] theorem State.rkUpd_fhu (k : Nat) (f : Rkn → Rkn) : (s.rkUpd k f).fhu = s.fhu := rfl
@[simp] theorem State.rkUpd_txa (k : Nat) (f : Rkn → Rkn) : (s.rkUpd k f).txa = s.txa := rfl
@[simp] theorem State.rkUpd_pk (k : Nat) (f : Rkn → Rkn) : (s.rkUpd k f).pk = s.pk := rfl
@[simp] theorem State.rkUpd_tm (k : Nat) (f : Rkn → Rkn) : (s.rkUpd k f).tm = s.tm := rfl

@[simp] theorem State.quadUpd_pending (q : Nat) (f : Quad → Quad) : (s.quadUpd q f).pending = s.pending := rfl
@[simp] theorem State.quadUpd_now (q : Nat) (f : Quad → Quad) : (s.quadUpd q f).now = s.now := rfl
@[simp] theorem State.quadUpd_free (q : Nat) (f : Quad → Quad) : (s.quadUpd q f).free = s.free := rfl
@[simp] theorem State.quadUpd_resp (q : Nat) (f : Quad → Quad) : (s.quadUpd q f).resp = s.resp := rfl
@[simp] theorem State.quadUpd_held (q : Nat) (f : Quad → Quad) : (s.quadUpd q f).held = s.held := rfl
@[simp] theorem State.quadUpd_timeouts (q : Nat) (f : Quad → Quad) : (s.quadUpd q f).timeouts = s.timeouts := rfl
@[simp] theorem State.quadUpd_outs (q : Nat) (f : Quad → Quad) : (s.quadUpd q f).outs = s.outs := rfl
@[simp] theorem State.quadUpd_regs (q : Nat) (f : Quad → Quad) : (s.quadUpd q f).regs = s.regs := rfl
@[simp] theorem State.quadUpd_mem (q : Nat) (f : Quad → Quad) : (s.quadUpd q f).mem = s.mem := rfl
@[simp] theorem State.quadUpd_flash (q : Nat) (f : Quad → Quad) : (s.quadUpd q f).flash = s.flash := rfl
@[simp] theorem State.quadUpd_evt (q : Nat) (f : Quad → Quad) : (s.quadUpd q f).evt = s.evt := rfl
@[simp] theorem State.quadUpd_ash (q : Nat) (f : Quad → Quad) : (s.quadUpd q f).ash = s.ash := rfl
@[simp] theorem State.quadUpd_ntu (q : Nat) (f : Quad → Quad) : (s.quadUpd q f).ntu = s.ntu := rfl
@[simp] theorem State.quadUpd_plan (q : Nat) (f : Quad → Quad) : (s.quadUpd q f).plan = s.plan := rfl
@[simp] theorem State.quadUpd_boot (q : Nat) (f : Quad → Quad) : (s.quadUpd q f).boot = s.boot := rfl
@[simp] theorem State.quadUpd_push (q : Nat) (f : Quad → Quad) : (s.quadUpd q f).push = s.push := rfl
@[simp] theorem State.quadUpd_pwr (q : Nat) (f : Quad → Quad) : (s.quadUpd q f).pwr = s.pwr := rfl
@[simp] theorem State.quadUpd_kiln (q : Nat) (f : Quad → Quad) : (s.quadUpd q f).kiln = s.kiln := rfl
@[simp] theorem State.quadUpd_mems (q : Nat) (f : Quad → Quad) : (s.quadUpd q f).mems = s.mems := rfl
@[simp] theorem State.quadUpd_tly (q : Nat) (f : Quad → Quad) : (s.quadUpd q f).tly = s.tly := rfl
@[simp] theorem State.quadUpd_rkns (q : Nat) (f : Quad → Quad) : (s.quadUpd q f).rkns = s.rkns := rfl
@[simp] theorem State.quadUpd_ports (q : Nat) (f : Quad → Quad) : (s.quadUpd q f).ports = s.ports := rfl
@[simp] theorem State.quadUpd_radio (q : Nat) (f : Quad → Quad) : (s.quadUpd q f).radio = { s.radio with quads := updAt s.radio.quads q f } := rfl
@[simp] theorem State.quadUpd_bb (q : Nat) (f : Quad → Quad) : (s.quadUpd q f).bb = s.bb := rfl
@[simp] theorem State.quadUpd_wac (q : Nat) (f : Quad → Quad) : (s.quadUpd q f).wac = s.wac := rfl
@[simp] theorem State.quadUpd_fhu (q : Nat) (f : Quad → Quad) : (s.quadUpd q f).fhu = s.fhu := rfl
@[simp] theorem State.quadUpd_txa (q : Nat) (f : Quad → Quad) : (s.quadUpd q f).txa = s.txa := rfl
@[simp] theorem State.quadUpd_pk (q : Nat) (f : Quad → Quad) : (s.quadUpd q f).pk = s.pk := rfl
@[simp] theorem State.quadUpd_tm (q : Nat) (f : Quad → Quad) : (s.quadUpd q f).tm = s.tm := rfl

@[simp] theorem State.coexUpd_pending (n : Nat) (f : Coex → Coex) : (s.coexUpd n f).pending = s.pending := rfl
@[simp] theorem State.coexUpd_now (n : Nat) (f : Coex → Coex) : (s.coexUpd n f).now = s.now := rfl
@[simp] theorem State.coexUpd_free (n : Nat) (f : Coex → Coex) : (s.coexUpd n f).free = s.free := rfl
@[simp] theorem State.coexUpd_resp (n : Nat) (f : Coex → Coex) : (s.coexUpd n f).resp = s.resp := rfl
@[simp] theorem State.coexUpd_held (n : Nat) (f : Coex → Coex) : (s.coexUpd n f).held = s.held := rfl
@[simp] theorem State.coexUpd_timeouts (n : Nat) (f : Coex → Coex) : (s.coexUpd n f).timeouts = s.timeouts := rfl
@[simp] theorem State.coexUpd_outs (n : Nat) (f : Coex → Coex) : (s.coexUpd n f).outs = s.outs := rfl
@[simp] theorem State.coexUpd_regs (n : Nat) (f : Coex → Coex) : (s.coexUpd n f).regs = s.regs := rfl
@[simp] theorem State.coexUpd_mem (n : Nat) (f : Coex → Coex) : (s.coexUpd n f).mem = s.mem := rfl
@[simp] theorem State.coexUpd_flash (n : Nat) (f : Coex → Coex) : (s.coexUpd n f).flash = s.flash := rfl
@[simp] theorem State.coexUpd_evt (n : Nat) (f : Coex → Coex) : (s.coexUpd n f).evt = s.evt := rfl
@[simp] theorem State.coexUpd_ash (n : Nat) (f : Coex → Coex) : (s.coexUpd n f).ash = s.ash := rfl
@[simp] theorem State.coexUpd_ntu (n : Nat) (f : Coex → Coex) : (s.coexUpd n f).ntu = s.ntu := rfl
@[simp] theorem State.coexUpd_plan (n : Nat) (f : Coex → Coex) : (s.coexUpd n f).plan = s.plan := rfl
@[simp] theorem State.coexUpd_boot (n : Nat) (f : Coex → Coex) : (s.coexUpd n f).boot = s.boot := rfl
@[simp] theorem State.coexUpd_push (n : Nat) (f : Coex → Coex) : (s.coexUpd n f).push = s.push := rfl
@[simp] theorem State.coexUpd_pwr (n : Nat) (f : Coex → Coex) : (s.coexUpd n f).pwr = s.pwr := rfl
@[simp] theorem State.coexUpd_kiln (n : Nat) (f : Coex → Coex) : (s.coexUpd n f).kiln = s.kiln := rfl
@[simp] theorem State.coexUpd_mems (n : Nat) (f : Coex → Coex) : (s.coexUpd n f).mems = s.mems := rfl
@[simp] theorem State.coexUpd_tly (n : Nat) (f : Coex → Coex) : (s.coexUpd n f).tly = s.tly := rfl
@[simp] theorem State.coexUpd_rkns (n : Nat) (f : Coex → Coex) : (s.coexUpd n f).rkns = s.rkns := rfl
@[simp] theorem State.coexUpd_ports (n : Nat) (f : Coex → Coex) : (s.coexUpd n f).ports = s.ports := rfl
@[simp] theorem State.coexUpd_radio (n : Nat) (f : Coex → Coex) : (s.coexUpd n f).radio = { s.radio with coex := updAt s.radio.coex n f } := rfl
@[simp] theorem State.coexUpd_bb (n : Nat) (f : Coex → Coex) : (s.coexUpd n f).bb = s.bb := rfl
@[simp] theorem State.coexUpd_wac (n : Nat) (f : Coex → Coex) : (s.coexUpd n f).wac = s.wac := rfl
@[simp] theorem State.coexUpd_fhu (n : Nat) (f : Coex → Coex) : (s.coexUpd n f).fhu = s.fhu := rfl
@[simp] theorem State.coexUpd_txa (n : Nat) (f : Coex → Coex) : (s.coexUpd n f).txa = s.txa := rfl
@[simp] theorem State.coexUpd_pk (n : Nat) (f : Coex → Coex) : (s.coexUpd n f).pk = s.pk := rfl
@[simp] theorem State.coexUpd_tm (n : Nat) (f : Coex → Coex) : (s.coexUpd n f).tm = s.tm := rfl

@[simp] theorem State.hkaUpd_pending (f : Hka → Hka) : (s.hkaUpd f).pending = s.pending := rfl
@[simp] theorem State.hkaUpd_now (f : Hka → Hka) : (s.hkaUpd f).now = s.now := rfl
@[simp] theorem State.hkaUpd_free (f : Hka → Hka) : (s.hkaUpd f).free = s.free := rfl
@[simp] theorem State.hkaUpd_resp (f : Hka → Hka) : (s.hkaUpd f).resp = s.resp := rfl
@[simp] theorem State.hkaUpd_held (f : Hka → Hka) : (s.hkaUpd f).held = s.held := rfl
@[simp] theorem State.hkaUpd_timeouts (f : Hka → Hka) : (s.hkaUpd f).timeouts = s.timeouts := rfl
@[simp] theorem State.hkaUpd_outs (f : Hka → Hka) : (s.hkaUpd f).outs = s.outs := rfl
@[simp] theorem State.hkaUpd_regs (f : Hka → Hka) : (s.hkaUpd f).regs = s.regs := rfl
@[simp] theorem State.hkaUpd_mem (f : Hka → Hka) : (s.hkaUpd f).mem = s.mem := rfl
@[simp] theorem State.hkaUpd_flash (f : Hka → Hka) : (s.hkaUpd f).flash = s.flash := rfl
@[simp] theorem State.hkaUpd_evt (f : Hka → Hka) : (s.hkaUpd f).evt = s.evt := rfl
@[simp] theorem State.hkaUpd_ash (f : Hka → Hka) : (s.hkaUpd f).ash = s.ash := rfl
@[simp] theorem State.hkaUpd_ntu (f : Hka → Hka) : (s.hkaUpd f).ntu = s.ntu := rfl
@[simp] theorem State.hkaUpd_plan (f : Hka → Hka) : (s.hkaUpd f).plan = s.plan := rfl
@[simp] theorem State.hkaUpd_boot (f : Hka → Hka) : (s.hkaUpd f).boot = s.boot := rfl
@[simp] theorem State.hkaUpd_push (f : Hka → Hka) : (s.hkaUpd f).push = s.push := rfl
@[simp] theorem State.hkaUpd_pwr (f : Hka → Hka) : (s.hkaUpd f).pwr = s.pwr := rfl
@[simp] theorem State.hkaUpd_kiln (f : Hka → Hka) : (s.hkaUpd f).kiln = s.kiln := rfl
@[simp] theorem State.hkaUpd_mems (f : Hka → Hka) : (s.hkaUpd f).mems = s.mems := rfl
@[simp] theorem State.hkaUpd_tly (f : Hka → Hka) : (s.hkaUpd f).tly = s.tly := rfl
@[simp] theorem State.hkaUpd_rkns (f : Hka → Hka) : (s.hkaUpd f).rkns = s.rkns := rfl
@[simp] theorem State.hkaUpd_ports (f : Hka → Hka) : (s.hkaUpd f).ports = s.ports := rfl
@[simp] theorem State.hkaUpd_radio (f : Hka → Hka) : (s.hkaUpd f).radio = { s.radio with hka := f s.radio.hka } := rfl
@[simp] theorem State.hkaUpd_bb (f : Hka → Hka) : (s.hkaUpd f).bb = s.bb := rfl
@[simp] theorem State.hkaUpd_wac (f : Hka → Hka) : (s.hkaUpd f).wac = s.wac := rfl
@[simp] theorem State.hkaUpd_fhu (f : Hka → Hka) : (s.hkaUpd f).fhu = s.fhu := rfl
@[simp] theorem State.hkaUpd_txa (f : Hka → Hka) : (s.hkaUpd f).txa = s.txa := rfl
@[simp] theorem State.hkaUpd_pk (f : Hka → Hka) : (s.hkaUpd f).pk = s.pk := rfl
@[simp] theorem State.hkaUpd_tm (f : Hka → Hka) : (s.hkaUpd f).tm = s.tm := rfl

@[simp] theorem State.phyUpd_pending (l : Nat) (f : Phy → Phy) : (s.phyUpd l f).pending = s.pending := rfl
@[simp] theorem State.phyUpd_now (l : Nat) (f : Phy → Phy) : (s.phyUpd l f).now = s.now := rfl
@[simp] theorem State.phyUpd_free (l : Nat) (f : Phy → Phy) : (s.phyUpd l f).free = s.free := rfl
@[simp] theorem State.phyUpd_resp (l : Nat) (f : Phy → Phy) : (s.phyUpd l f).resp = s.resp := rfl
@[simp] theorem State.phyUpd_held (l : Nat) (f : Phy → Phy) : (s.phyUpd l f).held = s.held := rfl
@[simp] theorem State.phyUpd_timeouts (l : Nat) (f : Phy → Phy) : (s.phyUpd l f).timeouts = s.timeouts := rfl
@[simp] theorem State.phyUpd_outs (l : Nat) (f : Phy → Phy) : (s.phyUpd l f).outs = s.outs := rfl
@[simp] theorem State.phyUpd_regs (l : Nat) (f : Phy → Phy) : (s.phyUpd l f).regs = s.regs := rfl
@[simp] theorem State.phyUpd_mem (l : Nat) (f : Phy → Phy) : (s.phyUpd l f).mem = s.mem := rfl
@[simp] theorem State.phyUpd_flash (l : Nat) (f : Phy → Phy) : (s.phyUpd l f).flash = s.flash := rfl
@[simp] theorem State.phyUpd_evt (l : Nat) (f : Phy → Phy) : (s.phyUpd l f).evt = s.evt := rfl
@[simp] theorem State.phyUpd_ash (l : Nat) (f : Phy → Phy) : (s.phyUpd l f).ash = s.ash := rfl
@[simp] theorem State.phyUpd_ntu (l : Nat) (f : Phy → Phy) : (s.phyUpd l f).ntu = s.ntu := rfl
@[simp] theorem State.phyUpd_plan (l : Nat) (f : Phy → Phy) : (s.phyUpd l f).plan = s.plan := rfl
@[simp] theorem State.phyUpd_boot (l : Nat) (f : Phy → Phy) : (s.phyUpd l f).boot = s.boot := rfl
@[simp] theorem State.phyUpd_push (l : Nat) (f : Phy → Phy) : (s.phyUpd l f).push = s.push := rfl
@[simp] theorem State.phyUpd_pwr (l : Nat) (f : Phy → Phy) : (s.phyUpd l f).pwr = s.pwr := rfl
@[simp] theorem State.phyUpd_kiln (l : Nat) (f : Phy → Phy) : (s.phyUpd l f).kiln = s.kiln := rfl
@[simp] theorem State.phyUpd_mems (l : Nat) (f : Phy → Phy) : (s.phyUpd l f).mems = s.mems := rfl
@[simp] theorem State.phyUpd_tly (l : Nat) (f : Phy → Phy) : (s.phyUpd l f).tly = s.tly := rfl
@[simp] theorem State.phyUpd_rkns (l : Nat) (f : Phy → Phy) : (s.phyUpd l f).rkns = s.rkns := rfl
@[simp] theorem State.phyUpd_ports (l : Nat) (f : Phy → Phy) : (s.phyUpd l f).ports = s.ports := rfl
@[simp] theorem State.phyUpd_radio (l : Nat) (f : Phy → Phy) : (s.phyUpd l f).radio = s.radio := rfl
@[simp] theorem State.phyUpd_bb (l : Nat) (f : Phy → Phy) : (s.phyUpd l f).bb = { s.bb with phys := updAt s.bb.phys l f } := rfl
@[simp] theorem State.phyUpd_wac (l : Nat) (f : Phy → Phy) : (s.phyUpd l f).wac = s.wac := rfl
@[simp] theorem State.phyUpd_fhu (l : Nat) (f : Phy → Phy) : (s.phyUpd l f).fhu = s.fhu := rfl
@[simp] theorem State.phyUpd_txa (l : Nat) (f : Phy → Phy) : (s.phyUpd l f).txa = s.txa := rfl
@[simp] theorem State.phyUpd_pk (l : Nat) (f : Phy → Phy) : (s.phyUpd l f).pk = s.pk := rfl
@[simp] theorem State.phyUpd_tm (l : Nat) (f : Phy → Phy) : (s.phyUpd l f).tm = s.tm := rfl

@[simp] theorem State.ntuUpd_pending (f : Ntu → Ntu) : (s.ntuUpd f).pending = s.pending := rfl
@[simp] theorem State.ntuUpd_now (f : Ntu → Ntu) : (s.ntuUpd f).now = s.now := rfl
@[simp] theorem State.ntuUpd_free (f : Ntu → Ntu) : (s.ntuUpd f).free = s.free := rfl
@[simp] theorem State.ntuUpd_resp (f : Ntu → Ntu) : (s.ntuUpd f).resp = s.resp := rfl
@[simp] theorem State.ntuUpd_held (f : Ntu → Ntu) : (s.ntuUpd f).held = s.held := rfl
@[simp] theorem State.ntuUpd_timeouts (f : Ntu → Ntu) : (s.ntuUpd f).timeouts = s.timeouts := rfl
@[simp] theorem State.ntuUpd_outs (f : Ntu → Ntu) : (s.ntuUpd f).outs = s.outs := rfl
@[simp] theorem State.ntuUpd_regs (f : Ntu → Ntu) : (s.ntuUpd f).regs = s.regs := rfl
@[simp] theorem State.ntuUpd_mem (f : Ntu → Ntu) : (s.ntuUpd f).mem = s.mem := rfl
@[simp] theorem State.ntuUpd_flash (f : Ntu → Ntu) : (s.ntuUpd f).flash = s.flash := rfl
@[simp] theorem State.ntuUpd_evt (f : Ntu → Ntu) : (s.ntuUpd f).evt = s.evt := rfl
@[simp] theorem State.ntuUpd_ash (f : Ntu → Ntu) : (s.ntuUpd f).ash = s.ash := rfl
@[simp] theorem State.ntuUpd_ntu (f : Ntu → Ntu) : (s.ntuUpd f).ntu = f s.ntu := rfl
@[simp] theorem State.ntuUpd_plan (f : Ntu → Ntu) : (s.ntuUpd f).plan = s.plan := rfl
@[simp] theorem State.ntuUpd_boot (f : Ntu → Ntu) : (s.ntuUpd f).boot = s.boot := rfl
@[simp] theorem State.ntuUpd_push (f : Ntu → Ntu) : (s.ntuUpd f).push = s.push := rfl
@[simp] theorem State.ntuUpd_pwr (f : Ntu → Ntu) : (s.ntuUpd f).pwr = s.pwr := rfl
@[simp] theorem State.ntuUpd_kiln (f : Ntu → Ntu) : (s.ntuUpd f).kiln = s.kiln := rfl
@[simp] theorem State.ntuUpd_mems (f : Ntu → Ntu) : (s.ntuUpd f).mems = s.mems := rfl
@[simp] theorem State.ntuUpd_tly (f : Ntu → Ntu) : (s.ntuUpd f).tly = s.tly := rfl
@[simp] theorem State.ntuUpd_rkns (f : Ntu → Ntu) : (s.ntuUpd f).rkns = s.rkns := rfl
@[simp] theorem State.ntuUpd_ports (f : Ntu → Ntu) : (s.ntuUpd f).ports = s.ports := rfl
@[simp] theorem State.ntuUpd_radio (f : Ntu → Ntu) : (s.ntuUpd f).radio = s.radio := rfl
@[simp] theorem State.ntuUpd_bb (f : Ntu → Ntu) : (s.ntuUpd f).bb = s.bb := rfl
@[simp] theorem State.ntuUpd_wac (f : Ntu → Ntu) : (s.ntuUpd f).wac = s.wac := rfl
@[simp] theorem State.ntuUpd_fhu (f : Ntu → Ntu) : (s.ntuUpd f).fhu = s.fhu := rfl
@[simp] theorem State.ntuUpd_txa (f : Ntu → Ntu) : (s.ntuUpd f).txa = s.txa := rfl
@[simp] theorem State.ntuUpd_pk (f : Ntu → Ntu) : (s.ntuUpd f).pk = s.pk := rfl
@[simp] theorem State.ntuUpd_tm (f : Ntu → Ntu) : (s.ntuUpd f).tm = s.tm := rfl

@[simp] theorem State.klnUpd_pending (f : Kiln → Kiln) : (s.klnUpd f).pending = s.pending := rfl
@[simp] theorem State.klnUpd_now (f : Kiln → Kiln) : (s.klnUpd f).now = s.now := rfl
@[simp] theorem State.klnUpd_free (f : Kiln → Kiln) : (s.klnUpd f).free = s.free := rfl
@[simp] theorem State.klnUpd_resp (f : Kiln → Kiln) : (s.klnUpd f).resp = s.resp := rfl
@[simp] theorem State.klnUpd_held (f : Kiln → Kiln) : (s.klnUpd f).held = s.held := rfl
@[simp] theorem State.klnUpd_timeouts (f : Kiln → Kiln) : (s.klnUpd f).timeouts = s.timeouts := rfl
@[simp] theorem State.klnUpd_outs (f : Kiln → Kiln) : (s.klnUpd f).outs = s.outs := rfl
@[simp] theorem State.klnUpd_regs (f : Kiln → Kiln) : (s.klnUpd f).regs = s.regs := rfl
@[simp] theorem State.klnUpd_mem (f : Kiln → Kiln) : (s.klnUpd f).mem = s.mem := rfl
@[simp] theorem State.klnUpd_flash (f : Kiln → Kiln) : (s.klnUpd f).flash = s.flash := rfl
@[simp] theorem State.klnUpd_evt (f : Kiln → Kiln) : (s.klnUpd f).evt = s.evt := rfl
@[simp] theorem State.klnUpd_ash (f : Kiln → Kiln) : (s.klnUpd f).ash = s.ash := rfl
@[simp] theorem State.klnUpd_ntu (f : Kiln → Kiln) : (s.klnUpd f).ntu = s.ntu := rfl
@[simp] theorem State.klnUpd_plan (f : Kiln → Kiln) : (s.klnUpd f).plan = s.plan := rfl
@[simp] theorem State.klnUpd_boot (f : Kiln → Kiln) : (s.klnUpd f).boot = s.boot := rfl
@[simp] theorem State.klnUpd_push (f : Kiln → Kiln) : (s.klnUpd f).push = s.push := rfl
@[simp] theorem State.klnUpd_pwr (f : Kiln → Kiln) : (s.klnUpd f).pwr = s.pwr := rfl
@[simp] theorem State.klnUpd_kiln (f : Kiln → Kiln) : (s.klnUpd f).kiln = f s.kiln := rfl
@[simp] theorem State.klnUpd_mems (f : Kiln → Kiln) : (s.klnUpd f).mems = s.mems := rfl
@[simp] theorem State.klnUpd_tly (f : Kiln → Kiln) : (s.klnUpd f).tly = s.tly := rfl
@[simp] theorem State.klnUpd_rkns (f : Kiln → Kiln) : (s.klnUpd f).rkns = s.rkns := rfl
@[simp] theorem State.klnUpd_ports (f : Kiln → Kiln) : (s.klnUpd f).ports = s.ports := rfl
@[simp] theorem State.klnUpd_radio (f : Kiln → Kiln) : (s.klnUpd f).radio = s.radio := rfl
@[simp] theorem State.klnUpd_bb (f : Kiln → Kiln) : (s.klnUpd f).bb = s.bb := rfl
@[simp] theorem State.klnUpd_wac (f : Kiln → Kiln) : (s.klnUpd f).wac = s.wac := rfl
@[simp] theorem State.klnUpd_fhu (f : Kiln → Kiln) : (s.klnUpd f).fhu = s.fhu := rfl
@[simp] theorem State.klnUpd_txa (f : Kiln → Kiln) : (s.klnUpd f).txa = s.txa := rfl
@[simp] theorem State.klnUpd_pk (f : Kiln → Kiln) : (s.klnUpd f).pk = s.pk := rfl
@[simp] theorem State.klnUpd_tm (f : Kiln → Kiln) : (s.klnUpd f).tm = s.tm := rfl

@[simp] theorem State.pwrUpd_pending (f : Pwr → Pwr) : (s.pwrUpd f).pending = s.pending := rfl
@[simp] theorem State.pwrUpd_now (f : Pwr → Pwr) : (s.pwrUpd f).now = s.now := rfl
@[simp] theorem State.pwrUpd_free (f : Pwr → Pwr) : (s.pwrUpd f).free = s.free := rfl
@[simp] theorem State.pwrUpd_resp (f : Pwr → Pwr) : (s.pwrUpd f).resp = s.resp := rfl
@[simp] theorem State.pwrUpd_held (f : Pwr → Pwr) : (s.pwrUpd f).held = s.held := rfl
@[simp] theorem State.pwrUpd_timeouts (f : Pwr → Pwr) : (s.pwrUpd f).timeouts = s.timeouts := rfl
@[simp] theorem State.pwrUpd_outs (f : Pwr → Pwr) : (s.pwrUpd f).outs = s.outs := rfl
@[simp] theorem State.pwrUpd_regs (f : Pwr → Pwr) : (s.pwrUpd f).regs = s.regs := rfl
@[simp] theorem State.pwrUpd_mem (f : Pwr → Pwr) : (s.pwrUpd f).mem = s.mem := rfl
@[simp] theorem State.pwrUpd_flash (f : Pwr → Pwr) : (s.pwrUpd f).flash = s.flash := rfl
@[simp] theorem State.pwrUpd_evt (f : Pwr → Pwr) : (s.pwrUpd f).evt = s.evt := rfl
@[simp] theorem State.pwrUpd_ash (f : Pwr → Pwr) : (s.pwrUpd f).ash = s.ash := rfl
@[simp] theorem State.pwrUpd_ntu (f : Pwr → Pwr) : (s.pwrUpd f).ntu = s.ntu := rfl
@[simp] theorem State.pwrUpd_plan (f : Pwr → Pwr) : (s.pwrUpd f).plan = s.plan := rfl
@[simp] theorem State.pwrUpd_boot (f : Pwr → Pwr) : (s.pwrUpd f).boot = s.boot := rfl
@[simp] theorem State.pwrUpd_push (f : Pwr → Pwr) : (s.pwrUpd f).push = s.push := rfl
@[simp] theorem State.pwrUpd_pwr (f : Pwr → Pwr) : (s.pwrUpd f).pwr = f s.pwr := rfl
@[simp] theorem State.pwrUpd_kiln (f : Pwr → Pwr) : (s.pwrUpd f).kiln = s.kiln := rfl
@[simp] theorem State.pwrUpd_mems (f : Pwr → Pwr) : (s.pwrUpd f).mems = s.mems := rfl
@[simp] theorem State.pwrUpd_tly (f : Pwr → Pwr) : (s.pwrUpd f).tly = s.tly := rfl
@[simp] theorem State.pwrUpd_rkns (f : Pwr → Pwr) : (s.pwrUpd f).rkns = s.rkns := rfl
@[simp] theorem State.pwrUpd_ports (f : Pwr → Pwr) : (s.pwrUpd f).ports = s.ports := rfl
@[simp] theorem State.pwrUpd_radio (f : Pwr → Pwr) : (s.pwrUpd f).radio = s.radio := rfl
@[simp] theorem State.pwrUpd_bb (f : Pwr → Pwr) : (s.pwrUpd f).bb = s.bb := rfl
@[simp] theorem State.pwrUpd_wac (f : Pwr → Pwr) : (s.pwrUpd f).wac = s.wac := rfl
@[simp] theorem State.pwrUpd_fhu (f : Pwr → Pwr) : (s.pwrUpd f).fhu = s.fhu := rfl
@[simp] theorem State.pwrUpd_txa (f : Pwr → Pwr) : (s.pwrUpd f).txa = s.txa := rfl
@[simp] theorem State.pwrUpd_pk (f : Pwr → Pwr) : (s.pwrUpd f).pk = s.pk := rfl
@[simp] theorem State.pwrUpd_tm (f : Pwr → Pwr) : (s.pwrUpd f).tm = s.tm := rfl

@[simp] theorem State.bootUpd_pending (f : Boot → Boot) : (s.bootUpd f).pending = s.pending := rfl
@[simp] theorem State.bootUpd_now (f : Boot → Boot) : (s.bootUpd f).now = s.now := rfl
@[simp] theorem State.bootUpd_free (f : Boot → Boot) : (s.bootUpd f).free = s.free := rfl
@[simp] theorem State.bootUpd_resp (f : Boot → Boot) : (s.bootUpd f).resp = s.resp := rfl
@[simp] theorem State.bootUpd_held (f : Boot → Boot) : (s.bootUpd f).held = s.held := rfl
@[simp] theorem State.bootUpd_timeouts (f : Boot → Boot) : (s.bootUpd f).timeouts = s.timeouts := rfl
@[simp] theorem State.bootUpd_outs (f : Boot → Boot) : (s.bootUpd f).outs = s.outs := rfl
@[simp] theorem State.bootUpd_regs (f : Boot → Boot) : (s.bootUpd f).regs = s.regs := rfl
@[simp] theorem State.bootUpd_mem (f : Boot → Boot) : (s.bootUpd f).mem = s.mem := rfl
@[simp] theorem State.bootUpd_flash (f : Boot → Boot) : (s.bootUpd f).flash = s.flash := rfl
@[simp] theorem State.bootUpd_evt (f : Boot → Boot) : (s.bootUpd f).evt = s.evt := rfl
@[simp] theorem State.bootUpd_ash (f : Boot → Boot) : (s.bootUpd f).ash = s.ash := rfl
@[simp] theorem State.bootUpd_ntu (f : Boot → Boot) : (s.bootUpd f).ntu = s.ntu := rfl
@[simp] theorem State.bootUpd_plan (f : Boot → Boot) : (s.bootUpd f).plan = s.plan := rfl
@[simp] theorem State.bootUpd_boot (f : Boot → Boot) : (s.bootUpd f).boot = f s.boot := rfl
@[simp] theorem State.bootUpd_push (f : Boot → Boot) : (s.bootUpd f).push = s.push := rfl
@[simp] theorem State.bootUpd_pwr (f : Boot → Boot) : (s.bootUpd f).pwr = s.pwr := rfl
@[simp] theorem State.bootUpd_kiln (f : Boot → Boot) : (s.bootUpd f).kiln = s.kiln := rfl
@[simp] theorem State.bootUpd_mems (f : Boot → Boot) : (s.bootUpd f).mems = s.mems := rfl
@[simp] theorem State.bootUpd_tly (f : Boot → Boot) : (s.bootUpd f).tly = s.tly := rfl
@[simp] theorem State.bootUpd_rkns (f : Boot → Boot) : (s.bootUpd f).rkns = s.rkns := rfl
@[simp] theorem State.bootUpd_ports (f : Boot → Boot) : (s.bootUpd f).ports = s.ports := rfl
@[simp] theorem State.bootUpd_radio (f : Boot → Boot) : (s.bootUpd f).radio = s.radio := rfl
@[simp] theorem State.bootUpd_bb (f : Boot → Boot) : (s.bootUpd f).bb = s.bb := rfl
@[simp] theorem State.bootUpd_wac (f : Boot → Boot) : (s.bootUpd f).wac = s.wac := rfl
@[simp] theorem State.bootUpd_fhu (f : Boot → Boot) : (s.bootUpd f).fhu = s.fhu := rfl
@[simp] theorem State.bootUpd_txa (f : Boot → Boot) : (s.bootUpd f).txa = s.txa := rfl
@[simp] theorem State.bootUpd_pk (f : Boot → Boot) : (s.bootUpd f).pk = s.pk := rfl
@[simp] theorem State.bootUpd_tm (f : Boot → Boot) : (s.bootUpd f).tm = s.tm := rfl

@[simp] theorem State.pushUpd_pending (f : Push → Push) : (s.pushUpd f).pending = s.pending := rfl
@[simp] theorem State.pushUpd_now (f : Push → Push) : (s.pushUpd f).now = s.now := rfl
@[simp] theorem State.pushUpd_free (f : Push → Push) : (s.pushUpd f).free = s.free := rfl
@[simp] theorem State.pushUpd_resp (f : Push → Push) : (s.pushUpd f).resp = s.resp := rfl
@[simp] theorem State.pushUpd_held (f : Push → Push) : (s.pushUpd f).held = s.held := rfl
@[simp] theorem State.pushUpd_timeouts (f : Push → Push) : (s.pushUpd f).timeouts = s.timeouts := rfl
@[simp] theorem State.pushUpd_outs (f : Push → Push) : (s.pushUpd f).outs = s.outs := rfl
@[simp] theorem State.pushUpd_regs (f : Push → Push) : (s.pushUpd f).regs = s.regs := rfl
@[simp] theorem State.pushUpd_mem (f : Push → Push) : (s.pushUpd f).mem = s.mem := rfl
@[simp] theorem State.pushUpd_flash (f : Push → Push) : (s.pushUpd f).flash = s.flash := rfl
@[simp] theorem State.pushUpd_evt (f : Push → Push) : (s.pushUpd f).evt = s.evt := rfl
@[simp] theorem State.pushUpd_ash (f : Push → Push) : (s.pushUpd f).ash = s.ash := rfl
@[simp] theorem State.pushUpd_ntu (f : Push → Push) : (s.pushUpd f).ntu = s.ntu := rfl
@[simp] theorem State.pushUpd_plan (f : Push → Push) : (s.pushUpd f).plan = s.plan := rfl
@[simp] theorem State.pushUpd_boot (f : Push → Push) : (s.pushUpd f).boot = s.boot := rfl
@[simp] theorem State.pushUpd_push (f : Push → Push) : (s.pushUpd f).push = f s.push := rfl
@[simp] theorem State.pushUpd_pwr (f : Push → Push) : (s.pushUpd f).pwr = s.pwr := rfl
@[simp] theorem State.pushUpd_kiln (f : Push → Push) : (s.pushUpd f).kiln = s.kiln := rfl
@[simp] theorem State.pushUpd_mems (f : Push → Push) : (s.pushUpd f).mems = s.mems := rfl
@[simp] theorem State.pushUpd_tly (f : Push → Push) : (s.pushUpd f).tly = s.tly := rfl
@[simp] theorem State.pushUpd_rkns (f : Push → Push) : (s.pushUpd f).rkns = s.rkns := rfl
@[simp] theorem State.pushUpd_ports (f : Push → Push) : (s.pushUpd f).ports = s.ports := rfl
@[simp] theorem State.pushUpd_radio (f : Push → Push) : (s.pushUpd f).radio = s.radio := rfl
@[simp] theorem State.pushUpd_bb (f : Push → Push) : (s.pushUpd f).bb = s.bb := rfl
@[simp] theorem State.pushUpd_wac (f : Push → Push) : (s.pushUpd f).wac = s.wac := rfl
@[simp] theorem State.pushUpd_fhu (f : Push → Push) : (s.pushUpd f).fhu = s.fhu := rfl
@[simp] theorem State.pushUpd_txa (f : Push → Push) : (s.pushUpd f).txa = s.txa := rfl
@[simp] theorem State.pushUpd_pk (f : Push → Push) : (s.pushUpd f).pk = s.pk := rfl
@[simp] theorem State.pushUpd_tm (f : Push → Push) : (s.pushUpd f).tm = s.tm := rfl

@[simp] theorem State.radUpd_pending (f : Radio → Radio) : (s.radUpd f).pending = s.pending := rfl
@[simp] theorem State.radUpd_now (f : Radio → Radio) : (s.radUpd f).now = s.now := rfl
@[simp] theorem State.radUpd_free (f : Radio → Radio) : (s.radUpd f).free = s.free := rfl
@[simp] theorem State.radUpd_resp (f : Radio → Radio) : (s.radUpd f).resp = s.resp := rfl
@[simp] theorem State.radUpd_held (f : Radio → Radio) : (s.radUpd f).held = s.held := rfl
@[simp] theorem State.radUpd_timeouts (f : Radio → Radio) : (s.radUpd f).timeouts = s.timeouts := rfl
@[simp] theorem State.radUpd_outs (f : Radio → Radio) : (s.radUpd f).outs = s.outs := rfl
@[simp] theorem State.radUpd_regs (f : Radio → Radio) : (s.radUpd f).regs = s.regs := rfl
@[simp] theorem State.radUpd_mem (f : Radio → Radio) : (s.radUpd f).mem = s.mem := rfl
@[simp] theorem State.radUpd_flash (f : Radio → Radio) : (s.radUpd f).flash = s.flash := rfl
@[simp] theorem State.radUpd_evt (f : Radio → Radio) : (s.radUpd f).evt = s.evt := rfl
@[simp] theorem State.radUpd_ash (f : Radio → Radio) : (s.radUpd f).ash = s.ash := rfl
@[simp] theorem State.radUpd_ntu (f : Radio → Radio) : (s.radUpd f).ntu = s.ntu := rfl
@[simp] theorem State.radUpd_plan (f : Radio → Radio) : (s.radUpd f).plan = s.plan := rfl
@[simp] theorem State.radUpd_boot (f : Radio → Radio) : (s.radUpd f).boot = s.boot := rfl
@[simp] theorem State.radUpd_push (f : Radio → Radio) : (s.radUpd f).push = s.push := rfl
@[simp] theorem State.radUpd_pwr (f : Radio → Radio) : (s.radUpd f).pwr = s.pwr := rfl
@[simp] theorem State.radUpd_kiln (f : Radio → Radio) : (s.radUpd f).kiln = s.kiln := rfl
@[simp] theorem State.radUpd_mems (f : Radio → Radio) : (s.radUpd f).mems = s.mems := rfl
@[simp] theorem State.radUpd_tly (f : Radio → Radio) : (s.radUpd f).tly = s.tly := rfl
@[simp] theorem State.radUpd_rkns (f : Radio → Radio) : (s.radUpd f).rkns = s.rkns := rfl
@[simp] theorem State.radUpd_ports (f : Radio → Radio) : (s.radUpd f).ports = s.ports := rfl
@[simp] theorem State.radUpd_radio (f : Radio → Radio) : (s.radUpd f).radio = f s.radio := rfl
@[simp] theorem State.radUpd_bb (f : Radio → Radio) : (s.radUpd f).bb = s.bb := rfl
@[simp] theorem State.radUpd_wac (f : Radio → Radio) : (s.radUpd f).wac = s.wac := rfl
@[simp] theorem State.radUpd_fhu (f : Radio → Radio) : (s.radUpd f).fhu = s.fhu := rfl
@[simp] theorem State.radUpd_txa (f : Radio → Radio) : (s.radUpd f).txa = s.txa := rfl
@[simp] theorem State.radUpd_pk (f : Radio → Radio) : (s.radUpd f).pk = s.pk := rfl
@[simp] theorem State.radUpd_tm (f : Radio → Radio) : (s.radUpd f).tm = s.tm := rfl

@[simp] theorem State.bbUpd_pending (f : Bb → Bb) : (s.bbUpd f).pending = s.pending := rfl
@[simp] theorem State.bbUpd_now (f : Bb → Bb) : (s.bbUpd f).now = s.now := rfl
@[simp] theorem State.bbUpd_free (f : Bb → Bb) : (s.bbUpd f).free = s.free := rfl
@[simp] theorem State.bbUpd_resp (f : Bb → Bb) : (s.bbUpd f).resp = s.resp := rfl
@[simp] theorem State.bbUpd_held (f : Bb → Bb) : (s.bbUpd f).held = s.held := rfl
@[simp] theorem State.bbUpd_timeouts (f : Bb → Bb) : (s.bbUpd f).timeouts = s.timeouts := rfl
@[simp] theorem State.bbUpd_outs (f : Bb → Bb) : (s.bbUpd f).outs = s.outs := rfl
@[simp] theorem State.bbUpd_regs (f : Bb → Bb) : (s.bbUpd f).regs = s.regs := rfl
@[simp] theorem State.bbUpd_mem (f : Bb → Bb) : (s.bbUpd f).mem = s.mem := rfl
@[simp] theorem State.bbUpd_flash (f : Bb → Bb) : (s.bbUpd f).flash = s.flash := rfl
@[simp] theorem State.bbUpd_evt (f : Bb → Bb) : (s.bbUpd f).evt = s.evt := rfl
@[simp] theorem State.bbUpd_ash (f : Bb → Bb) : (s.bbUpd f).ash = s.ash := rfl
@[simp] theorem State.bbUpd_ntu (f : Bb → Bb) : (s.bbUpd f).ntu = s.ntu := rfl
@[simp] theorem State.bbUpd_plan (f : Bb → Bb) : (s.bbUpd f).plan = s.plan := rfl
@[simp] theorem State.bbUpd_boot (f : Bb → Bb) : (s.bbUpd f).boot = s.boot := rfl
@[simp] theorem State.bbUpd_push (f : Bb → Bb) : (s.bbUpd f).push = s.push := rfl
@[simp] theorem State.bbUpd_pwr (f : Bb → Bb) : (s.bbUpd f).pwr = s.pwr := rfl
@[simp] theorem State.bbUpd_kiln (f : Bb → Bb) : (s.bbUpd f).kiln = s.kiln := rfl
@[simp] theorem State.bbUpd_mems (f : Bb → Bb) : (s.bbUpd f).mems = s.mems := rfl
@[simp] theorem State.bbUpd_tly (f : Bb → Bb) : (s.bbUpd f).tly = s.tly := rfl
@[simp] theorem State.bbUpd_rkns (f : Bb → Bb) : (s.bbUpd f).rkns = s.rkns := rfl
@[simp] theorem State.bbUpd_ports (f : Bb → Bb) : (s.bbUpd f).ports = s.ports := rfl
@[simp] theorem State.bbUpd_radio (f : Bb → Bb) : (s.bbUpd f).radio = s.radio := rfl
@[simp] theorem State.bbUpd_bb (f : Bb → Bb) : (s.bbUpd f).bb = f s.bb := rfl
@[simp] theorem State.bbUpd_wac (f : Bb → Bb) : (s.bbUpd f).wac = s.wac := rfl
@[simp] theorem State.bbUpd_fhu (f : Bb → Bb) : (s.bbUpd f).fhu = s.fhu := rfl
@[simp] theorem State.bbUpd_txa (f : Bb → Bb) : (s.bbUpd f).txa = s.txa := rfl
@[simp] theorem State.bbUpd_pk (f : Bb → Bb) : (s.bbUpd f).pk = s.pk := rfl
@[simp] theorem State.bbUpd_tm (f : Bb → Bb) : (s.bbUpd f).tm = s.tm := rfl

@[simp] theorem State.wacUpd_pending (f : Wac → Wac) : (s.wacUpd f).pending = s.pending := rfl
@[simp] theorem State.wacUpd_now (f : Wac → Wac) : (s.wacUpd f).now = s.now := rfl
@[simp] theorem State.wacUpd_free (f : Wac → Wac) : (s.wacUpd f).free = s.free := rfl
@[simp] theorem State.wacUpd_resp (f : Wac → Wac) : (s.wacUpd f).resp = s.resp := rfl
@[simp] theorem State.wacUpd_held (f : Wac → Wac) : (s.wacUpd f).held = s.held := rfl
@[simp] theorem State.wacUpd_timeouts (f : Wac → Wac) : (s.wacUpd f).timeouts = s.timeouts := rfl
@[simp] theorem State.wacUpd_outs (f : Wac → Wac) : (s.wacUpd f).outs = s.outs := rfl
@[simp] theorem State.wacUpd_regs (f : Wac → Wac) : (s.wacUpd f).regs = s.regs := rfl
@[simp] theorem State.wacUpd_mem (f : Wac → Wac) : (s.wacUpd f).mem = s.mem := rfl
@[simp] theorem State.wacUpd_flash (f : Wac → Wac) : (s.wacUpd f).flash = s.flash := rfl
@[simp] theorem State.wacUpd_evt (f : Wac → Wac) : (s.wacUpd f).evt = s.evt := rfl
@[simp] theorem State.wacUpd_ash (f : Wac → Wac) : (s.wacUpd f).ash = s.ash := rfl
@[simp] theorem State.wacUpd_ntu (f : Wac → Wac) : (s.wacUpd f).ntu = s.ntu := rfl
@[simp] theorem State.wacUpd_plan (f : Wac → Wac) : (s.wacUpd f).plan = s.plan := rfl
@[simp] theorem State.wacUpd_boot (f : Wac → Wac) : (s.wacUpd f).boot = s.boot := rfl
@[simp] theorem State.wacUpd_push (f : Wac → Wac) : (s.wacUpd f).push = s.push := rfl
@[simp] theorem State.wacUpd_pwr (f : Wac → Wac) : (s.wacUpd f).pwr = s.pwr := rfl
@[simp] theorem State.wacUpd_kiln (f : Wac → Wac) : (s.wacUpd f).kiln = s.kiln := rfl
@[simp] theorem State.wacUpd_mems (f : Wac → Wac) : (s.wacUpd f).mems = s.mems := rfl
@[simp] theorem State.wacUpd_tly (f : Wac → Wac) : (s.wacUpd f).tly = s.tly := rfl
@[simp] theorem State.wacUpd_rkns (f : Wac → Wac) : (s.wacUpd f).rkns = s.rkns := rfl
@[simp] theorem State.wacUpd_ports (f : Wac → Wac) : (s.wacUpd f).ports = s.ports := rfl
@[simp] theorem State.wacUpd_radio (f : Wac → Wac) : (s.wacUpd f).radio = s.radio := rfl
@[simp] theorem State.wacUpd_bb (f : Wac → Wac) : (s.wacUpd f).bb = s.bb := rfl
@[simp] theorem State.wacUpd_wac (f : Wac → Wac) : (s.wacUpd f).wac = f s.wac := rfl
@[simp] theorem State.wacUpd_fhu (f : Wac → Wac) : (s.wacUpd f).fhu = s.fhu := rfl
@[simp] theorem State.wacUpd_txa (f : Wac → Wac) : (s.wacUpd f).txa = s.txa := rfl
@[simp] theorem State.wacUpd_pk (f : Wac → Wac) : (s.wacUpd f).pk = s.pk := rfl
@[simp] theorem State.wacUpd_tm (f : Wac → Wac) : (s.wacUpd f).tm = s.tm := rfl

@[simp] theorem State.fhUpd_pending (f : Fhu → Fhu) : (s.fhUpd f).pending = s.pending := rfl
@[simp] theorem State.fhUpd_now (f : Fhu → Fhu) : (s.fhUpd f).now = s.now := rfl
@[simp] theorem State.fhUpd_free (f : Fhu → Fhu) : (s.fhUpd f).free = s.free := rfl
@[simp] theorem State.fhUpd_resp (f : Fhu → Fhu) : (s.fhUpd f).resp = s.resp := rfl
@[simp] theorem State.fhUpd_held (f : Fhu → Fhu) : (s.fhUpd f).held = s.held := rfl
@[simp] theorem State.fhUpd_timeouts (f : Fhu → Fhu) : (s.fhUpd f).timeouts = s.timeouts := rfl
@[simp] theorem State.fhUpd_outs (f : Fhu → Fhu) : (s.fhUpd f).outs = s.outs := rfl
@[simp] theorem State.fhUpd_regs (f : Fhu → Fhu) : (s.fhUpd f).regs = s.regs := rfl
@[simp] theorem State.fhUpd_mem (f : Fhu → Fhu) : (s.fhUpd f).mem = s.mem := rfl
@[simp] theorem State.fhUpd_flash (f : Fhu → Fhu) : (s.fhUpd f).flash = s.flash := rfl
@[simp] theorem State.fhUpd_evt (f : Fhu → Fhu) : (s.fhUpd f).evt = s.evt := rfl
@[simp] theorem State.fhUpd_ash (f : Fhu → Fhu) : (s.fhUpd f).ash = s.ash := rfl
@[simp] theorem State.fhUpd_ntu (f : Fhu → Fhu) : (s.fhUpd f).ntu = s.ntu := rfl
@[simp] theorem State.fhUpd_plan (f : Fhu → Fhu) : (s.fhUpd f).plan = s.plan := rfl
@[simp] theorem State.fhUpd_boot (f : Fhu → Fhu) : (s.fhUpd f).boot = s.boot := rfl
@[simp] theorem State.fhUpd_push (f : Fhu → Fhu) : (s.fhUpd f).push = s.push := rfl
@[simp] theorem State.fhUpd_pwr (f : Fhu → Fhu) : (s.fhUpd f).pwr = s.pwr := rfl
@[simp] theorem State.fhUpd_kiln (f : Fhu → Fhu) : (s.fhUpd f).kiln = s.kiln := rfl
@[simp] theorem State.fhUpd_mems (f : Fhu → Fhu) : (s.fhUpd f).mems = s.mems := rfl
@[simp] theorem State.fhUpd_tly (f : Fhu → Fhu) : (s.fhUpd f).tly = s.tly := rfl
@[simp] theorem State.fhUpd_rkns (f : Fhu → Fhu) : (s.fhUpd f).rkns = s.rkns := rfl
@[simp] theorem State.fhUpd_ports (f : Fhu → Fhu) : (s.fhUpd f).ports = s.ports := rfl
@[simp] theorem State.fhUpd_radio (f : Fhu → Fhu) : (s.fhUpd f).radio = s.radio := rfl
@[simp] theorem State.fhUpd_bb (f : Fhu → Fhu) : (s.fhUpd f).bb = s.bb := rfl
@[simp] theorem State.fhUpd_wac (f : Fhu → Fhu) : (s.fhUpd f).wac = s.wac := rfl
@[simp] theorem State.fhUpd_fhu (f : Fhu → Fhu) : (s.fhUpd f).fhu = f s.fhu := rfl
@[simp] theorem State.fhUpd_txa (f : Fhu → Fhu) : (s.fhUpd f).txa = s.txa := rfl
@[simp] theorem State.fhUpd_pk (f : Fhu → Fhu) : (s.fhUpd f).pk = s.pk := rfl
@[simp] theorem State.fhUpd_tm (f : Fhu → Fhu) : (s.fhUpd f).tm = s.tm := rfl

@[simp] theorem State.txaUpd_pending (f : Txa → Txa) : (s.txaUpd f).pending = s.pending := rfl
@[simp] theorem State.txaUpd_now (f : Txa → Txa) : (s.txaUpd f).now = s.now := rfl
@[simp] theorem State.txaUpd_free (f : Txa → Txa) : (s.txaUpd f).free = s.free := rfl
@[simp] theorem State.txaUpd_resp (f : Txa → Txa) : (s.txaUpd f).resp = s.resp := rfl
@[simp] theorem State.txaUpd_held (f : Txa → Txa) : (s.txaUpd f).held = s.held := rfl
@[simp] theorem State.txaUpd_timeouts (f : Txa → Txa) : (s.txaUpd f).timeouts = s.timeouts := rfl
@[simp] theorem State.txaUpd_outs (f : Txa → Txa) : (s.txaUpd f).outs = s.outs := rfl
@[simp] theorem State.txaUpd_regs (f : Txa → Txa) : (s.txaUpd f).regs = s.regs := rfl
@[simp] theorem State.txaUpd_mem (f : Txa → Txa) : (s.txaUpd f).mem = s.mem := rfl
@[simp] theorem State.txaUpd_flash (f : Txa → Txa) : (s.txaUpd f).flash = s.flash := rfl
@[simp] theorem State.txaUpd_evt (f : Txa → Txa) : (s.txaUpd f).evt = s.evt := rfl
@[simp] theorem State.txaUpd_ash (f : Txa → Txa) : (s.txaUpd f).ash = s.ash := rfl
@[simp] theorem State.txaUpd_ntu (f : Txa → Txa) : (s.txaUpd f).ntu = s.ntu := rfl
@[simp] theorem State.txaUpd_plan (f : Txa → Txa) : (s.txaUpd f).plan = s.plan := rfl
@[simp] theorem State.txaUpd_boot (f : Txa → Txa) : (s.txaUpd f).boot = s.boot := rfl
@[simp] theorem State.txaUpd_push (f : Txa → Txa) : (s.txaUpd f).push = s.push := rfl
@[simp] theorem State.txaUpd_pwr (f : Txa → Txa) : (s.txaUpd f).pwr = s.pwr := rfl
@[simp] theorem State.txaUpd_kiln (f : Txa → Txa) : (s.txaUpd f).kiln = s.kiln := rfl
@[simp] theorem State.txaUpd_mems (f : Txa → Txa) : (s.txaUpd f).mems = s.mems := rfl
@[simp] theorem State.txaUpd_tly (f : Txa → Txa) : (s.txaUpd f).tly = s.tly := rfl
@[simp] theorem State.txaUpd_rkns (f : Txa → Txa) : (s.txaUpd f).rkns = s.rkns := rfl
@[simp] theorem State.txaUpd_ports (f : Txa → Txa) : (s.txaUpd f).ports = s.ports := rfl
@[simp] theorem State.txaUpd_radio (f : Txa → Txa) : (s.txaUpd f).radio = s.radio := rfl
@[simp] theorem State.txaUpd_bb (f : Txa → Txa) : (s.txaUpd f).bb = s.bb := rfl
@[simp] theorem State.txaUpd_wac (f : Txa → Txa) : (s.txaUpd f).wac = s.wac := rfl
@[simp] theorem State.txaUpd_fhu (f : Txa → Txa) : (s.txaUpd f).fhu = s.fhu := rfl
@[simp] theorem State.txaUpd_txa (f : Txa → Txa) : (s.txaUpd f).txa = f s.txa := rfl
@[simp] theorem State.txaUpd_pk (f : Txa → Txa) : (s.txaUpd f).pk = s.pk := rfl
@[simp] theorem State.txaUpd_tm (f : Txa → Txa) : (s.txaUpd f).tm = s.tm := rfl

@[simp] theorem State.pkUpd_pending (f : Pk → Pk) : (s.pkUpd f).pending = s.pending := rfl
@[simp] theorem State.pkUpd_now (f : Pk → Pk) : (s.pkUpd f).now = s.now := rfl
@[simp] theorem State.pkUpd_free (f : Pk → Pk) : (s.pkUpd f).free = s.free := rfl
@[simp] theorem State.pkUpd_resp (f : Pk → Pk) : (s.pkUpd f).resp = s.resp := rfl
@[simp] theorem State.pkUpd_held (f : Pk → Pk) : (s.pkUpd f).held = s.held := rfl
@[simp] theorem State.pkUpd_timeouts (f : Pk → Pk) : (s.pkUpd f).timeouts = s.timeouts := rfl
@[simp] theorem State.pkUpd_outs (f : Pk → Pk) : (s.pkUpd f).outs = s.outs := rfl
@[simp] theorem State.pkUpd_regs (f : Pk → Pk) : (s.pkUpd f).regs = s.regs := rfl
@[simp] theorem State.pkUpd_mem (f : Pk → Pk) : (s.pkUpd f).mem = s.mem := rfl
@[simp] theorem State.pkUpd_flash (f : Pk → Pk) : (s.pkUpd f).flash = s.flash := rfl
@[simp] theorem State.pkUpd_evt (f : Pk → Pk) : (s.pkUpd f).evt = s.evt := rfl
@[simp] theorem State.pkUpd_ash (f : Pk → Pk) : (s.pkUpd f).ash = s.ash := rfl
@[simp] theorem State.pkUpd_ntu (f : Pk → Pk) : (s.pkUpd f).ntu = s.ntu := rfl
@[simp] theorem State.pkUpd_plan (f : Pk → Pk) : (s.pkUpd f).plan = s.plan := rfl
@[simp] theorem State.pkUpd_boot (f : Pk → Pk) : (s.pkUpd f).boot = s.boot := rfl
@[simp] theorem State.pkUpd_push (f : Pk → Pk) : (s.pkUpd f).push = s.push := rfl
@[simp] theorem State.pkUpd_pwr (f : Pk → Pk) : (s.pkUpd f).pwr = s.pwr := rfl
@[simp] theorem State.pkUpd_kiln (f : Pk → Pk) : (s.pkUpd f).kiln = s.kiln := rfl
@[simp] theorem State.pkUpd_mems (f : Pk → Pk) : (s.pkUpd f).mems = s.mems := rfl
@[simp] theorem State.pkUpd_tly (f : Pk → Pk) : (s.pkUpd f).tly = s.tly := rfl
@[simp] theorem State.pkUpd_rkns (f : Pk → Pk) : (s.pkUpd f).rkns = s.rkns := rfl
@[simp] theorem State.pkUpd_ports (f : Pk → Pk) : (s.pkUpd f).ports = s.ports := rfl
@[simp] theorem State.pkUpd_radio (f : Pk → Pk) : (s.pkUpd f).radio = s.radio := rfl
@[simp] theorem State.pkUpd_bb (f : Pk → Pk) : (s.pkUpd f).bb = s.bb := rfl
@[simp] theorem State.pkUpd_wac (f : Pk → Pk) : (s.pkUpd f).wac = s.wac := rfl
@[simp] theorem State.pkUpd_fhu (f : Pk → Pk) : (s.pkUpd f).fhu = s.fhu := rfl
@[simp] theorem State.pkUpd_txa (f : Pk → Pk) : (s.pkUpd f).txa = s.txa := rfl
@[simp] theorem State.pkUpd_pk (f : Pk → Pk) : (s.pkUpd f).pk = f s.pk := rfl
@[simp] theorem State.pkUpd_tm (f : Pk → Pk) : (s.pkUpd f).tm = s.tm := rfl

@[simp] theorem State.tmUpd_pending (f : Tm → Tm) : (s.tmUpd f).pending = s.pending := rfl
@[simp] theorem State.tmUpd_now (f : Tm → Tm) : (s.tmUpd f).now = s.now := rfl
@[simp] theorem State.tmUpd_free (f : Tm → Tm) : (s.tmUpd f).free = s.free := rfl
@[simp] theorem State.tmUpd_resp (f : Tm → Tm) : (s.tmUpd f).resp = s.resp := rfl
@[simp] theorem State.tmUpd_held (f : Tm → Tm) : (s.tmUpd f).held = s.held := rfl
@[simp] theorem State.tmUpd_timeouts (f : Tm → Tm) : (s.tmUpd f).timeouts = s.timeouts := rfl
@[simp] theorem State.tmUpd_outs (f : Tm → Tm) : (s.tmUpd f).outs = s.outs := rfl
@[simp] theorem State.tmUpd_regs (f : Tm → Tm) : (s.tmUpd f).regs = s.regs := rfl
@[simp] theorem State.tmUpd_mem (f : Tm → Tm) : (s.tmUpd f).mem = s.mem := rfl
@[simp] theorem State.tmUpd_flash (f : Tm → Tm) : (s.tmUpd f).flash = s.flash := rfl
@[simp] theorem State.tmUpd_evt (f : Tm → Tm) : (s.tmUpd f).evt = s.evt := rfl
@[simp] theorem State.tmUpd_ash (f : Tm → Tm) : (s.tmUpd f).ash = s.ash := rfl
@[simp] theorem State.tmUpd_ntu (f : Tm → Tm) : (s.tmUpd f).ntu = s.ntu := rfl
@[simp] theorem State.tmUpd_plan (f : Tm → Tm) : (s.tmUpd f).plan = s.plan := rfl
@[simp] theorem State.tmUpd_boot (f : Tm → Tm) : (s.tmUpd f).boot = s.boot := rfl
@[simp] theorem State.tmUpd_push (f : Tm → Tm) : (s.tmUpd f).push = s.push := rfl
@[simp] theorem State.tmUpd_pwr (f : Tm → Tm) : (s.tmUpd f).pwr = s.pwr := rfl
@[simp] theorem State.tmUpd_kiln (f : Tm → Tm) : (s.tmUpd f).kiln = s.kiln := rfl
@[simp] theorem State.tmUpd_mems (f : Tm → Tm) : (s.tmUpd f).mems = s.mems := rfl
@[simp] theorem State.tmUpd_tly (f : Tm → Tm) : (s.tmUpd f).tly = s.tly := rfl
@[simp] theorem State.tmUpd_rkns (f : Tm → Tm) : (s.tmUpd f).rkns = s.rkns := rfl
@[simp] theorem State.tmUpd_ports (f : Tm → Tm) : (s.tmUpd f).ports = s.ports := rfl
@[simp] theorem State.tmUpd_radio (f : Tm → Tm) : (s.tmUpd f).radio = s.radio := rfl
@[simp] theorem State.tmUpd_bb (f : Tm → Tm) : (s.tmUpd f).bb = s.bb := rfl
@[simp] theorem State.tmUpd_wac (f : Tm → Tm) : (s.tmUpd f).wac = s.wac := rfl
@[simp] theorem State.tmUpd_fhu (f : Tm → Tm) : (s.tmUpd f).fhu = s.fhu := rfl
@[simp] theorem State.tmUpd_txa (f : Tm → Tm) : (s.tmUpd f).txa = s.txa := rfl
@[simp] theorem State.tmUpd_pk (f : Tm → Tm) : (s.tmUpd f).pk = s.pk := rfl
@[simp] theorem State.tmUpd_tm (f : Tm → Tm) : (s.tmUpd f).tm = f s.tm := rfl

@[simp] theorem State.tlyUpd_pending (f : Tally → Tally) : (s.tlyUpd f).pending = s.pending := rfl
@[simp] theorem State.tlyUpd_now (f : Tally → Tally) : (s.tlyUpd f).now = s.now := rfl
@[simp] theorem State.tlyUpd_free (f : Tally → Tally) : (s.tlyUpd f).free = s.free := rfl
@[simp] theorem State.tlyUpd_resp (f : Tally → Tally) : (s.tlyUpd f).resp = s.resp := rfl
@[simp] theorem State.tlyUpd_held (f : Tally → Tally) : (s.tlyUpd f).held = s.held := rfl
@[simp] theorem State.tlyUpd_timeouts (f : Tally → Tally) : (s.tlyUpd f).timeouts = s.timeouts := rfl
@[simp] theorem State.tlyUpd_outs (f : Tally → Tally) : (s.tlyUpd f).outs = s.outs := rfl
@[simp] theorem State.tlyUpd_regs (f : Tally → Tally) : (s.tlyUpd f).regs = s.regs := rfl
@[simp] theorem State.tlyUpd_mem (f : Tally → Tally) : (s.tlyUpd f).mem = s.mem := rfl
@[simp] theorem State.tlyUpd_flash (f : Tally → Tally) : (s.tlyUpd f).flash = s.flash := rfl
@[simp] theorem State.tlyUpd_evt (f : Tally → Tally) : (s.tlyUpd f).evt = s.evt := rfl
@[simp] theorem State.tlyUpd_ash (f : Tally → Tally) : (s.tlyUpd f).ash = s.ash := rfl
@[simp] theorem State.tlyUpd_ntu (f : Tally → Tally) : (s.tlyUpd f).ntu = s.ntu := rfl
@[simp] theorem State.tlyUpd_plan (f : Tally → Tally) : (s.tlyUpd f).plan = s.plan := rfl
@[simp] theorem State.tlyUpd_boot (f : Tally → Tally) : (s.tlyUpd f).boot = s.boot := rfl
@[simp] theorem State.tlyUpd_push (f : Tally → Tally) : (s.tlyUpd f).push = s.push := rfl
@[simp] theorem State.tlyUpd_pwr (f : Tally → Tally) : (s.tlyUpd f).pwr = s.pwr := rfl
@[simp] theorem State.tlyUpd_kiln (f : Tally → Tally) : (s.tlyUpd f).kiln = s.kiln := rfl
@[simp] theorem State.tlyUpd_mems (f : Tally → Tally) : (s.tlyUpd f).mems = s.mems := rfl
@[simp] theorem State.tlyUpd_tly (f : Tally → Tally) : (s.tlyUpd f).tly = f s.tly := rfl
@[simp] theorem State.tlyUpd_rkns (f : Tally → Tally) : (s.tlyUpd f).rkns = s.rkns := rfl
@[simp] theorem State.tlyUpd_ports (f : Tally → Tally) : (s.tlyUpd f).ports = s.ports := rfl
@[simp] theorem State.tlyUpd_radio (f : Tally → Tally) : (s.tlyUpd f).radio = s.radio := rfl
@[simp] theorem State.tlyUpd_bb (f : Tally → Tally) : (s.tlyUpd f).bb = s.bb := rfl
@[simp] theorem State.tlyUpd_wac (f : Tally → Tally) : (s.tlyUpd f).wac = s.wac := rfl
@[simp] theorem State.tlyUpd_fhu (f : Tally → Tally) : (s.tlyUpd f).fhu = s.fhu := rfl
@[simp] theorem State.tlyUpd_txa (f : Tally → Tally) : (s.tlyUpd f).txa = s.txa := rfl
@[simp] theorem State.tlyUpd_pk (f : Tally → Tally) : (s.tlyUpd f).pk = s.pk := rfl
@[simp] theorem State.tlyUpd_tm (f : Tally → Tally) : (s.tlyUpd f).tm = s.tm := rfl

@[simp] theorem State.portUpd_pending (f : Ports → Ports) : (s.portUpd f).pending = s.pending := rfl
@[simp] theorem State.portUpd_now (f : Ports → Ports) : (s.portUpd f).now = s.now := rfl
@[simp] theorem State.portUpd_free (f : Ports → Ports) : (s.portUpd f).free = s.free := rfl
@[simp] theorem State.portUpd_resp (f : Ports → Ports) : (s.portUpd f).resp = s.resp := rfl
@[simp] theorem State.portUpd_held (f : Ports → Ports) : (s.portUpd f).held = s.held := rfl
@[simp] theorem State.portUpd_timeouts (f : Ports → Ports) : (s.portUpd f).timeouts = s.timeouts := rfl
@[simp] theorem State.portUpd_outs (f : Ports → Ports) : (s.portUpd f).outs = s.outs := rfl
@[simp] theorem State.portUpd_regs (f : Ports → Ports) : (s.portUpd f).regs = s.regs := rfl
@[simp] theorem State.portUpd_mem (f : Ports → Ports) : (s.portUpd f).mem = s.mem := rfl
@[simp] theorem State.portUpd_flash (f : Ports → Ports) : (s.portUpd f).flash = s.flash := rfl
@[simp] theorem State.portUpd_evt (f : Ports → Ports) : (s.portUpd f).evt = s.evt := rfl
@[simp] theorem State.portUpd_ash (f : Ports → Ports) : (s.portUpd f).ash = s.ash := rfl
@[simp] theorem State.portUpd_ntu (f : Ports → Ports) : (s.portUpd f).ntu = s.ntu := rfl
@[simp] theorem State.portUpd_plan (f : Ports → Ports) : (s.portUpd f).plan = s.plan := rfl
@[simp] theorem State.portUpd_boot (f : Ports → Ports) : (s.portUpd f).boot = s.boot := rfl
@[simp] theorem State.portUpd_push (f : Ports → Ports) : (s.portUpd f).push = s.push := rfl
@[simp] theorem State.portUpd_pwr (f : Ports → Ports) : (s.portUpd f).pwr = s.pwr := rfl
@[simp] theorem State.portUpd_kiln (f : Ports → Ports) : (s.portUpd f).kiln = s.kiln := rfl
@[simp] theorem State.portUpd_mems (f : Ports → Ports) : (s.portUpd f).mems = s.mems := rfl
@[simp] theorem State.portUpd_tly (f : Ports → Ports) : (s.portUpd f).tly = s.tly := rfl
@[simp] theorem State.portUpd_rkns (f : Ports → Ports) : (s.portUpd f).rkns = s.rkns := rfl
@[simp] theorem State.portUpd_ports (f : Ports → Ports) : (s.portUpd f).ports = f s.ports := rfl
@[simp] theorem State.portUpd_radio (f : Ports → Ports) : (s.portUpd f).radio = s.radio := rfl
@[simp] theorem State.portUpd_bb (f : Ports → Ports) : (s.portUpd f).bb = s.bb := rfl
@[simp] theorem State.portUpd_wac (f : Ports → Ports) : (s.portUpd f).wac = s.wac := rfl
@[simp] theorem State.portUpd_fhu (f : Ports → Ports) : (s.portUpd f).fhu = s.fhu := rfl
@[simp] theorem State.portUpd_txa (f : Ports → Ports) : (s.portUpd f).txa = s.txa := rfl
@[simp] theorem State.portUpd_pk (f : Ports → Ports) : (s.portUpd f).pk = s.pk := rfl
@[simp] theorem State.portUpd_tm (f : Ports → Ports) : (s.portUpd f).tm = s.tm := rfl

end Sys2Proof.Machine
end

