-- ==== Sys2Proof/Laws/Wr.lean ====
section
/-! SUPPORT. The registers that an operation may change: a mask over the registers' numbers. -/
namespace Sys2Proof.Machine

/-- `t` follows from `s` by an operation that changes at most the registers of mask `m`. -/
structure Wr (m : Nat) (s t : State) : Prop where
  canonical : s.canonical = true → t.canonical = true
  reg : s.canonical = true → ∀ r : Reg, m.testBit r.ctorIdx = false → ∀ ix c, t.reg r ix c = s.reg r ix c

theorem Wr.refl (m : Nat) (s : State) : Wr m s s := ⟨id, fun _ _ _ _ _ => rfl⟩

/-- An operation of mask `f` after one of mask `m` that holds `f`. -/
theorem Wr.lift {f m : Nat} {s0 s t : State} (k : Wr f s t) (hm : subMask f m = true) (h : Wr m s0 s) : Wr m s0 t :=
  ⟨fun c => k.canonical (h.canonical c), fun c r hr ix n => (k.reg (h.canonical c) r (testBit_of_subMask hm hr) ix n).trans (h.reg c r hr ix n)⟩

theorem subMask_bit {f m i : Nat} (hm : subMask f m = true) (hf : f.testBit i = true) : m.testBit i = true := by
  cases hb : m.testBit i with
  | true => rfl
  | false => rw [testBit_of_subMask hm hb] at hf; cases hf

/-- An operation that may change any register. -/
theorem Wr.of_any {f m : Nat} {s0 s t : State} (k : Keep f s t) (hm : ∀ r : Reg, m.testBit r.ctorIdx = true) (h : Wr m s0 s) : Wr m s0 t :=
  ⟨fun c => k.canonical (h.canonical c), fun _ r hr _ _ => by rw [hm r] at hr; cases hr⟩

/-- The mask of every register. -/
theorem testBit_all {m : Nat} (hm : subMask 0x1fffffffffffffffffffffffffffffffffffffffffffffffffffffffffffffffffffffffffffffffffffffffffffffffffffffffffffffffffffffffffffffffffffff m = true) (r : Reg) : m.testBit r.ctorIdx = true :=
  subMask_bit hm (by cases r <;> rfl)

/-- An operation that leaves the registers alone. -/
theorem Wr.of_keep {f m : Nat} {s0 s t : State} (k : Keep f s t) (hf : f.testBit 5 = false) (h : Wr m s0 s) : Wr m s0 t :=
  ⟨fun c => k.canonical (h.canonical c), fun c r hr ix n => (reg_congr (k.part .regs hf) r ix n).trans (h.reg c r hr ix n)⟩

theorem Wr.ite {m : Nat} {s0 a b : State} {c : Prop} [Decidable c] (ha : c → Wr m s0 a) (hb : ¬ c → Wr m s0 b) : Wr m s0 (if c then a else b) := by
  split
  · exact ha ‹_›
  · exact hb ‹_›

theorem Wr.ite_snd {α : Type} {m : Nat} {s0 : State} {a b : α × State} {c : Prop} [Decidable c] (ha : c → Wr m s0 a.2) (hb : ¬ c → Wr m s0 b.2) :
    Wr m s0 (if c then a else b).2 := by
  split
  · exact ha ‹_›
  · exact hb ‹_›

theorem Wr.foldl {α : Type} {m : Nat} {s0 s : State} (f : State → α → State) (l : List α) (h : Wr m s0 s)
    (hf : ∀ t x, Wr m s0 t → Wr m s0 (f t x)) : Wr m s0 (l.foldl f s) := by
  induction l generalizing s with
  | nil => exact h
  | cons x t ih => exact ih (hf s x h)

theorem Wr.foldl_snd {α β : Type} {m : Nat} {s0 : State} (f : β × State → α → β × State) (l : List α) (x : β × State) (h : Wr m s0 x.2)
    (hf : ∀ y a, Wr m s0 y.2 → Wr m s0 (f y a).2) : Wr m s0 (l.foldl f x).2 := by
  induction l generalizing x with
  | nil => exact h
  | cons a t ih => exact ih _ (hf x a h)

theorem Wr.of_snd {α : Type} {m : Nat} {s0 t : State} {x : α × State} {a : α} (e : x = (a, t)) (h : Wr m s0 x.2) : Wr m s0 t := by
  subst e; exact h

theorem Wr.of_snd2 {α β : Type} {m : Nat} {s0 t : State} {x : α × β × State} {a : α} {b : β} (e : x = (a, b, t)) (h : Wr m s0 x.2.2) : Wr m s0 t := by
  subst e; exact h

theorem Wr.of_id {m : Nat} {s0 s : State} (h : Wr m s0 s) : Wr m s0 (id s) := h

/-- A record update of `u` that leaves the three stores alone. -/
theorem Wr.node {m : Nat} {s0 u t : State} (hr : t.regs = u.regs) (hm : t.mem = u.mem) (hf : t.flash = u.flash) (h : Wr m s0 u) :
    Wr m s0 (State.updOf u t) :=
  ⟨fun c => by rw [State.updOf, canonical_iff, hr, hm, hf, ← canonical_iff]; exact h.canonical c,
    fun c r b ix n => (reg_congr (s := u) (t := t) hr r ix n).trans (h.reg c r b ix n)⟩

theorem State.setReg_wr {m : Nat} {s0 : State} (s : State) (r : Reg) (ix : List Nat) (v : Word) (c : Nat) (hr : m.testBit r.ctorIdx = true)
    (_hm : subMask 0 m = true) (h : Wr m s0 s) : Wr m s0 (State.setReg s r ix v c) :=
  ⟨fun k => (State.setReg_keep s r ix v c rfl (Keep.refl 32 s)).canonical (h.canonical k), fun k r' hb ix' c' => by
    refine (reg_setReg_ne (h.canonical k) r ix v c (regKey_ne fun e => ?_)).trans (h.reg k r' hb ix' c')
    rw [e, hr] at hb
    cases hb⟩

/-- Registers back at their reset words: only those that `p` names. -/
theorem State.resetRegs_wr {m : Nat} {s0 : State} (s : State) (p : Nat → Bool) (hp : ∀ r : Reg, m.testBit r.ctorIdx = false → ∀ c ix, p (regKey c r ix) = false)
    (h : Wr m s0 s) : Wr m s0 (State.resetRegs s p) :=
  ⟨fun k => (State.resetRegs_keep s p rfl (Keep.refl 32 s)).canonical (h.canonical k),
    fun k r hr ix c => (sget_sdrop resetWord p s.regs (hp r hr c ix)).trans (h.reg k r hr ix c)⟩

theorem State.sets_wr {m : Nat} {s0 : State} (s : State) (ix : List Nat) (l : List (Fld × Nat)) (hl : l.all (fun e => m.testBit e.1.reg.ctorIdx) = true)
    (_hm : subMask 0 m = true) (h : Wr m s0 s) : Wr m s0 (State.sets s ix l) := by
  unfold State.sets
  induction l generalizing s with
  | nil => exact h
  | cons e t ih =>
    rw [List.all_cons, Bool.and_eq_true] at hl
    exact ih _ hl.2 (State.setReg_wr s _ _ _ _ hl.1 _hm h)

end Sys2Proof.Machine
end

