-- ==== Sys2Proof/Laws/WrOps.lean ====
section
/-! SUPPORT. The registers that each operation of Machine/Ops.lean may change. -/

set_option Elab.async false

namespace Sys2Proof.Machine

theorem State.set_wr {m : Nat} {s0 : State} (s : State) (a1 : _) (a2 : _) (a3 : _) (a4 : _) (hr1 : m.testBit a1.reg.ctorIdx = true) (hm : subMask 0 m = true) (h : Wr m s0 s) : Wr m s0 (State.set s a1 a2 a3 a4) := by
  unfold State.set
  repeat' first
    | exact rfl
    | (refine (?_ : _ = true); dsimp only [List.all]; exact rfl)
    | exact subMask_trans rfl hm
    | exact subMask_bit hm rfl
    | with_reducible exact Wr.refl _ _
    | with_reducible assumption
    | with_reducible apply State.setReg_wr
    | with_reducible apply Wr.ite <;> intro _
    | with_reducible apply Wr.foldl <;> try intro _ _ _
    | with_reducible apply Wr.foldl_snd <;> try intro _ _ _
    | with_reducible refine Wr.of_snd ‹_ = (_, _)› ?_
    | with_reducible refine Wr.of_snd2 ‹_ = (_, _, _)› ?_
    | with_reducible apply Wr.of_id
    | split
    | dsimp only

theorem State.bump_wr {m : Nat} {s0 : State} (s : State) (a1 : _) (a2 : _) (a3 : _) (hr1 : m.testBit a1.reg.ctorIdx = true) (hm : subMask 0 m = true) (h : Wr m s0 s) : Wr m s0 (State.bump s a1 a2 a3) := by
  unfold State.bump
  repeat' first
    | exact rfl
    | (refine (?_ : _ = true); dsimp only [List.all]; exact rfl)
    | exact subMask_trans rfl hm
    | exact subMask_bit hm rfl
    | with_reducible exact Wr.refl _ _
    | with_reducible assumption
    | with_reducible apply State.set_wr
    | with_reducible apply Wr.ite <;> intro _
    | with_reducible apply Wr.foldl <;> try intro _ _ _
    | with_reducible apply Wr.foldl_snd <;> try intro _ _ _
    | with_reducible refine Wr.of_snd ‹_ = (_, _)› ?_
    | with_reducible refine Wr.of_snd2 ‹_ = (_, _, _)› ?_
    | with_reducible apply Wr.of_id
    | split
    | dsimp only

theorem State.inc_wr {m : Nat} {s0 : State} (s : State) (a1 : _) (a2 : _) (hr1 : m.testBit a1.ctorIdx = true) (hm : subMask 0 m = true) (h : Wr m s0 s) : Wr m s0 (State.inc s a1 a2) := by
  unfold State.inc
  repeat' first
    | exact rfl
    | (refine (?_ : _ = true); dsimp only [List.all]; exact rfl)
    | exact subMask_trans rfl hm
    | exact subMask_bit hm rfl
    | with_reducible exact Wr.refl _ _
    | with_reducible assumption
    | with_reducible apply State.bump_wr
    | with_reducible apply Wr.ite <;> intro _
    | with_reducible apply Wr.foldl <;> try intro _ _ _
    | with_reducible apply Wr.foldl_snd <;> try intro _ _ _
    | with_reducible refine Wr.of_snd ‹_ = (_, _)› ?_
    | with_reducible refine Wr.of_snd2 ‹_ = (_, _, _)› ?_
    | with_reducible apply Wr.of_id
    | split
    | dsimp only

theorem State.incBy_wr {m : Nat} {s0 : State} (s : State) (a1 : _) (a2 : _) (a3 : _) (hr1 : m.testBit a1.ctorIdx = true) (hm : subMask 0 m = true) (h : Wr m s0 s) : Wr m s0 (State.incBy s a1 a2 a3) := by
  unfold State.incBy
  repeat' first
    | exact rfl
    | (refine (?_ : _ = true); dsimp only [List.all]; exact rfl)
    | exact subMask_trans rfl hm
    | exact subMask_bit hm rfl
    | with_reducible exact Wr.refl _ _
    | with_reducible assumption
    | with_reducible apply State.bump_wr
    | with_reducible apply Wr.ite <;> intro _
    | with_reducible apply Wr.foldl <;> try intro _ _ _
    | with_reducible apply Wr.foldl_snd <;> try intro _ _ _
    | with_reducible refine Wr.of_snd ‹_ = (_, _)› ?_
    | with_reducible refine Wr.of_snd2 ‹_ = (_, _, _)› ?_
    | with_reducible apply Wr.of_id
    | split
    | dsimp only

end Sys2Proof.Machine
end

