-- ==== Sys2Proof/Laws/WrFlags.lean ====
section
/-! SUPPORT. The registers that each operation of Machine/Flags.lean may change. -/

set_option Elab.async false

namespace Sys2Proof.Machine

theorem State.pendResult_wr {m : Nat} {s0 : State} (s : State) (a1 : _) (a2 : _) (a3 : _) (hr1 : m.testBit a1.ctorIdx = true) (hm : subMask 0 m = true) (h : Wr m s0 s) : Wr m s0 (State.pendResult s a1 a2 a3) := by
  unfold State.pendResult
  repeat' first
    | exact rfl
    | (refine (?_ : _ = true); dsimp only [List.all]; exact rfl)
    | exact subMask_trans rfl hm
    | exact subMask_bit hm rfl
    | with_reducible exact Wr.refl _ _
    | with_reducible assumption
    | with_reducible apply State.set_wr
    | with_reducible apply Wr.ite <;> intro _
    | with_reducible apply Wr.foldl <;> try intro _ _ _
    | with_reducible apply Wr.foldl_snd <;> try intro _ _ _
    | with_reducible refine Wr.of_snd ‹_ = (_, _)› ?_
    | with_reducible refine Wr.of_snd2 ‹_ = (_, _, _)› ?_
    | with_reducible apply Wr.of_id
    | split
    | dsimp only

theorem State.commit_wr {m : Nat} {s0 : State} (s : State) (a1 : _) (a2 : _) (a3 : _) (a4 : _) (hr1 : m.testBit a1.ctorIdx = true) (hm : subMask 0 m = true) (h : Wr m s0 s) : Wr m s0 (State.commit s a1 a2 a3 a4) := by
  unfold State.commit
  repeat' first
    | exact rfl
    | (refine (?_ : _ = true); dsimp only [List.all]; exact rfl)
    | exact subMask_trans rfl hm
    | exact subMask_bit hm rfl
    | with_reducible exact Wr.refl _ _
    | with_reducible assumption
    | with_reducible apply State.setReg_wr
    | with_reducible apply Wr.ite <;> intro _
    | with_reducible apply Wr.foldl <;> try intro _ _ _
    | with_reducible apply Wr.foldl_snd <;> try intro _ _ _
    | with_reducible refine Wr.of_snd ‹_ = (_, _)› ?_
    | with_reducible refine Wr.of_snd2 ‹_ = (_, _, _)› ?_
    | with_reducible apply Wr.of_id
    | split
    | dsimp only

theorem State.earlyRead_wr {m : Nat} {s0 : State} (s : State) (a1 : _) (hm : subMask 2 m = true) (h : Wr m s0 s) : Wr m s0 (State.earlyRead s a1) := by
  refine Wr.lift (f := 2) ?_ hm h
  unfold State.earlyRead
  repeat' first
    | exact rfl
    | (refine (?_ : _ = true); dsimp only [List.all]; exact rfl)
    | with_reducible exact Wr.refl _ _
    | with_reducible assumption
    | with_reducible apply State.inc_wr
    | with_reducible apply Wr.of_keep (f := 272) (State.raise_keep (m := 272) _ _ rfl (Keep.refl _ _)) rfl
    | with_reducible apply Wr.ite <;> intro _
    | with_reducible apply Wr.foldl <;> try intro _ _ _
    | with_reducible apply Wr.foldl_snd <;> try intro _ _ _
    | with_reducible refine Wr.of_snd ‹_ = (_, _)› ?_
    | with_reducible refine Wr.of_snd2 ‹_ = (_, _, _)› ?_
    | with_reducible apply Wr.of_id
    | split
    | dsimp only

end Sys2Proof.Machine
end

