-- ==== Sys2Proof/Laws/WrAccess.lean ====
section
/-! SUPPORT. The registers that each operation of Machine/Access.lean may change. -/

set_option Elab.async false

namespace Sys2Proof.Machine

theorem storeWord_wr {m : Nat} {s0 : State} (a0 : _) (a1 : _) (a2 : _) (a3 : _) (s : State) (hr0 : m.testBit a0.ctorIdx = true) (hm : subMask 0 m = true) (h : Wr m s0 s) : Wr m s0 (storeWord a0 a1 a2 a3 s) := by
  unfold storeWord
  repeat' first
    | exact rfl
    | (refine (?_ : _ = true); dsimp only [List.all]; exact rfl)
    | exact subMask_trans rfl hm
    | exact subMask_bit hm rfl
    | with_reducible exact Wr.refl _ _
    | with_reducible assumption
    | with_reducible apply State.setReg_wr
    | with_reducible apply Wr.ite <;> intro _
    | with_reducible apply Wr.foldl <;> try intro _ _ _
    | with_reducible apply Wr.foldl_snd <;> try intro _ _ _
    | with_reducible refine Wr.of_snd ‹_ = (_, _)› ?_
    | with_reducible refine Wr.of_snd2 ‹_ = (_, _, _)› ?_
    | with_reducible apply Wr.of_id
    | split
    | dsimp only

theorem readEffect_wr {m : Nat} {s0 : State} (a0 : _) (a1 : _) (a2 : _) (a3 : _) (s : State) (hr0 : m.testBit a0.ctorIdx = true) (hm : subMask 2 m = true) (h : Wr m s0 s) : Wr m s0 (readEffect a0 a1 a2 a3 s) := by
  unfold readEffect
  repeat' first
    | exact rfl
    | (refine (?_ : _ = true); dsimp only [List.all]; exact rfl)
    | exact subMask_trans rfl hm
    | exact subMask_bit hm rfl
    | with_reducible exact Wr.refl _ _
    | with_reducible assumption
    | with_reducible apply State.setReg_wr
    | with_reducible apply State.earlyRead_wr
    | with_reducible apply Wr.ite <;> intro _
    | with_reducible apply Wr.foldl <;> try intro _ _ _
    | with_reducible apply Wr.foldl_snd <;> try intro _ _ _
    | with_reducible refine Wr.of_snd ‹_ = (_, _)› ?_
    | with_reducible refine Wr.of_snd2 ‹_ = (_, _, _)› ?_
    | with_reducible apply Wr.of_id
    | split
    | dsimp only

theorem loadWord_wr {m : Nat} {s0 : State} (a0 : _) (a1 : _) (a2 : _) (s : State) (hr0 : m.testBit a0.ctorIdx = true) (hm : subMask 2 m = true) (h : Wr m s0 s) : Wr m s0 (loadWord a0 a1 a2 s).2 := by
  unfold loadWord
  repeat' first
    | exact rfl
    | (refine (?_ : _ = true); dsimp only [List.all]; exact rfl)
    | exact subMask_trans rfl hm
    | exact subMask_bit hm rfl
    | with_reducible exact Wr.refl _ _
    | with_reducible assumption
    | with_reducible apply readEffect_wr
    | with_reducible apply Wr.ite <;> intro _
    | with_reducible apply Wr.foldl <;> try intro _ _ _
    | with_reducible apply Wr.foldl_snd <;> try intro _ _ _
    | with_reducible refine Wr.of_snd ‹_ = (_, _)› ?_
    | with_reducible refine Wr.of_snd2 ‹_ = (_, _, _)› ?_
    | with_reducible apply Wr.of_id
    | split
    | dsimp only

theorem State.holdFault_wr {m : Nat} {s0 : State} (s : State) (a1 : _) (a2 : _) (a3 : _) (a4 : _) (a5 : _) (a6 : _) (hm : subMask 0xf000000000000000000000000000000000000000000000000000000000000000000000000000000000000000000000000000000000000000000000000000 m = true) (h : Wr m s0 s) : Wr m s0 (State.holdFault s a1 a2 a3 a4 a5 a6) := by
  refine Wr.lift (f := 0xf000000000000000000000000000000000000000000000000000000000000000000000000000000000000000000000000000000000000000000000000000) ?_ hm h
  unfold State.holdFault
  repeat' first
    | exact rfl
    | (refine (?_ : _ = true); dsimp only [List.all]; exact rfl)
    | with_reducible exact Wr.refl _ _
    | with_reducible assumption
    | with_reducible apply State.bump_wr
    | with_reducible apply State.set_wr
    | with_reducible apply State.setReg_wr
    | with_reducible apply Wr.ite <;> intro _
    | with_reducible apply Wr.foldl <;> try intro _ _ _
    | with_reducible apply Wr.foldl_snd <;> try intro _ _ _
    | with_reducible refine Wr.of_snd ‹_ = (_, _)› ?_
    | with_reducible refine Wr.of_snd2 ‹_ = (_, _, _)› ?_
    | with_reducible apply Wr.of_id
    | split
    | dsimp only

theorem State.capture_wr {m : Nat} {s0 : State} (s : State) (a1 : _) (a2 : _) (a3 : _) (a4 : _) (a5 : _) (a6 : _) (hm : subMask 0xf000000000000000000000000000000000000000000000000000000000000000000000000000000000000000000000000000000000000000000000000000 m = true) (h : Wr m s0 s) : Wr m s0 (State.capture s a1 a2 a3 a4 a5 a6) := by
  refine Wr.lift (f := 0xf000000000000000000000000000000000000000000000000000000000000000000000000000000000000000000000000000000000000000000000000000) ?_ hm h
  unfold State.capture
  repeat' first
    | exact rfl
    | (refine (?_ : _ = true); dsimp only [List.all]; exact rfl)
    | with_reducible exact Wr.refl _ _
    | with_reducible assumption
    | with_reducible apply Wr.of_keep (f := 784) (State.ashAdd_keep (m := 784) _ _ _ _ rfl (Keep.refl _ _)) rfl
    | with_reducible apply State.holdFault_wr
    | with_reducible apply Wr.ite <;> intro _
    | with_reducible apply Wr.foldl <;> try intro _ _ _
    | with_reducible apply Wr.foldl_snd <;> try intro _ _ _
    | with_reducible refine Wr.of_snd ‹_ = (_, _)› ?_
    | with_reducible refine Wr.of_snd2 ‹_ = (_, _, _)› ?_
    | with_reducible apply Wr.of_id
    | split
    | dsimp only

theorem State.hostError_wr {m : Nat} {s0 : State} (s : State) (a1 : _) (a2 : _) (a3 : _) (hm : subMask 0x400000000000000000000000000000000000000000000000000000000000000000000000000000000000000000000000000000000000000000000000000000000 m = true) (h : Wr m s0 s) : Wr m s0 (State.hostError s a1 a2 a3) := by
  refine Wr.lift (f := 0x400000000000000000000000000000000000000000000000000000000000000000000000000000000000000000000000000000000000000000000000000000000) ?_ hm h
  unfold State.hostError
  repeat' first
    | exact rfl
    | (refine (?_ : _ = true); dsimp only [List.all]; exact rfl)
    | with_reducible exact Wr.refl _ _
    | with_reducible assumption
    | with_reducible apply State.sets_wr
    | with_reducible apply State.bump_wr
    | with_reducible apply Wr.ite <;> intro _
    | with_reducible apply Wr.foldl <;> try intro _ _ _
    | with_reducible apply Wr.foldl_snd <;> try intro _ _ _
    | (rewrite [State.mk_eq_updOf]; with_reducible refine Wr.node rfl rfl rfl ?_)
    | with_reducible refine Wr.of_snd ‹_ = (_, _)› ?_
    | with_reducible refine Wr.of_snd2 ‹_ = (_, _, _)› ?_
    | with_reducible apply Wr.of_id
    | split
    | dsimp only

theorem State.refuse_wr {m : Nat} {s0 : State} (s : State) (a1 : _) (a2 : _) (a3 : _) (a4 : _) (a5 : _) (a6 : _) (a7 : _) (hm : subMask 0x40000f000000000000000000000000000000000000000000000000000000000000000000000000000000000000000000000000000000000000000000000000000 m = true) (h : Wr m s0 s) : Wr m s0 (State.refuse s a1 a2 a3 a4 a5 a6 a7) := by
  refine Wr.lift (f := 0x40000f000000000000000000000000000000000000000000000000000000000000000000000000000000000000000000000000000000000000000000000000000) ?_ hm h
  unfold State.refuse
  repeat' first
    | exact rfl
    | (refine (?_ : _ = true); dsimp only [List.all]; exact rfl)
    | with_reducible exact Wr.refl _ _
    | with_reducible assumption
    | with_reducible apply State.hostError_wr
    | with_reducible apply State.capture_wr
    | with_reducible apply Wr.ite <;> intro _
    | with_reducible apply Wr.foldl <;> try intro _ _ _
    | with_reducible apply Wr.foldl_snd <;> try intro _ _ _
    | (rewrite [State.mk_eq_updOf]; with_reducible refine Wr.node rfl rfl rfl ?_)
    | with_reducible refine Wr.of_snd ‹_ = (_, _)› ?_
    | with_reducible refine Wr.of_snd2 ‹_ = (_, _, _)› ?_
    | with_reducible apply Wr.of_id
    | split
    | dsimp only

theorem readReg_wr {m : Nat} {s0 s : State} {rq : Req} {a size : Nat} {ok : Reg → List Nat → Req → State → Bool}
    {A : Reg → List Nat → Req → State → Word × State} {r0 : Reg} {i0 : List Nat} (hf : findReg a = some (r0, i0))
    (hA : ∀ t, Wr m s0 t → Wr m s0 (A r0 i0 rq t).2) (hm : subMask 0x40000f000000000000000000000000000000000000000000000000000000000000000000000000000000000000000000000000000000000000000000000000000 m = true) (h : Wr m s0 s) : Wr m s0 (readReg rq a size ok A s) := by
  unfold readReg
  split
  · exact h
  · split
    · exact State.refuse_wr _ _ _ _ _ _ _ _ hm h
    · rw [hf]
      dsimp only
      split
      · exact State.refuse_wr _ _ _ _ _ _ _ _ hm h
      · exact Wr.of_keep (f := 2) (State.answer_keep (m := 2) _ _ _ rfl (Keep.refl _ _)) rfl (hA _ h)

/-- A write at the address of register `r0`: the refusal's capture, or the register's own effect. -/
theorem writeReg_wr {m : Nat} {s0 s : State} {rq : Req} {a size : Nat} {v : Word} {ok : Reg → List Nat → Word → Req → State → Bool}
    {A : Reg → List Nat → Word → Req → State → State} {r0 : Reg} {i0 : List Nat} (hf : findReg a = some (r0, i0))
    (hA : ∀ t, Wr m s0 t → Wr m s0 (A r0 i0 v rq t)) (hm : subMask 0x40000f000000000000000000000000000000000000000000000000000000000000000000000000000000000000000000000000000000000000000000000000000 m = true) (h : Wr m s0 s) : Wr m s0 (writeReg rq a size v ok A s) := by
  unfold writeReg
  split
  · exact h
  · split
    · exact State.refuse_wr _ _ _ _ _ _ _ _ hm h
    · rw [hf]
      dsimp only
      split
      · exact State.refuse_wr _ _ _ _ _ _ _ _ hm h
      · exact Wr.of_keep (f := 2) (State.answer_keep (m := 2) _ _ _ rfl (Keep.refl _ _)) rfl (hA _ h)

theorem writeOrHold_wr {m : Nat} {s0 s : State} {rq : Req} {a : Nat} {v : Word} {full : Bool} {ok : Reg → List Nat → Word → Req → State → Bool}
    {A : Reg → List Nat → Word → Req → State → State} {r0 : Reg} {i0 : List Nat} (hf : findReg a = some (r0, i0))
    (hA : ∀ t, Wr m s0 t → Wr m s0 (A r0 i0 v rq t)) (hm : subMask 0x40000f000000000000000000000000000000000000000000000000000000000000000000000000000000000000000000000000000000000000000000000000000 m = true) (h : Wr m s0 s) : Wr m s0 (writeOrHold rq a v full ok A s) := by
  unfold writeOrHold
  split
  · rewrite [State.mk_eq_updOf]
    exact Wr.node rfl rfl rfl h
  · exact writeReg_wr hf hA hm h

theorem State.unhold_wr {m : Nat} {s0 : State} (s : State) (p : Held → Bool) (wr : Word → Req → State → State)
    (hf : ∀ v rq t, Wr m s0 t → Wr m s0 (wr v rq t)) (h : Wr m s0 s) : Wr m s0 (State.unhold s p wr) := by
  unfold State.unhold
  split
  · exact h
  · exact Wr.of_keep (f := 2) (State.answer_keep (m := 2) _ _ _ rfl (Keep.refl _ _)) rfl (hf _ _ _ (Wr.node (u := s) rfl rfl rfl h))

end Sys2Proof.Machine
end

