-- ==== Sys2Proof/Laws/WrNtu.lean ====
section
/-! SUPPORT. The registers that each operation of Machine/Ntu.lean may change. -/

set_option Elab.async false

namespace Sys2Proof.Machine

theorem State.setTimeState_wr {m : Nat} {s0 : State} (s : State) (a1 : _) (hm : subMask 0x20000000000000000000000000000000000000000000000000000000000000000000000000000000000000 m = true) (h : Wr m s0 s) : Wr m s0 (State.setTimeState s a1) := by
  refine Wr.lift (f := 0x20000000000000000000000000000000000000000000000000000000000000000000000000000000000000) ?_ hm h
  unfold State.setTimeState
  repeat' first
    | exact rfl
    | (refine (?_ : _ = true); dsimp only [List.all]; exact rfl)
    | with_reducible exact Wr.refl _ _
    | with_reducible assumption
    | with_reducible apply State.set_wr
    | with_reducible apply Wr.of_keep (f := 1024) (State.ntuUpd_keep (m := 1024) _ _ rfl (Keep.refl _ _)) rfl
    | with_reducible apply Wr.of_keep (f := 272) (State.raise_keep (m := 272) _ _ rfl (Keep.refl _ _)) rfl
    | with_reducible apply Wr.ite <;> intro _
    | with_reducible apply Wr.foldl <;> try intro _ _ _
    | with_reducible apply Wr.foldl_snd <;> try intro _ _ _
    | with_reducible refine Wr.of_snd ‹_ = (_, _)› ?_
    | with_reducible refine Wr.of_snd2 ‹_ = (_, _, _)› ?_
    | with_reducible apply Wr.of_id
    | split
    | dsimp only

theorem State.ntuStep_wr {m : Nat} {s0 : State} (s : State) (a1 : _) (a2 : _) (hm : subMask 0x20000000000000000000000000000000000000000000000000000000000000000000000000000000000000 m = true) (h : Wr m s0 s) : Wr m s0 (State.ntuStep s a1 a2) := by
  refine Wr.lift (f := 0x20000000000000000000000000000000000000000000000000000000000000000000000000000000000000) ?_ hm h
  unfold State.ntuStep
  repeat' first
    | exact rfl
    | (refine (?_ : _ = true); dsimp only [List.all]; exact rfl)
    | with_reducible exact Wr.refl _ _
    | with_reducible assumption
    | with_reducible apply Wr.of_keep (f := 1024) (State.ntuFoldAll_keep (m := 1024) _ rfl (Keep.refl _ _)) rfl
    | with_reducible apply Wr.of_keep (f := 1024) (State.ntuUpd_keep (m := 1024) _ _ rfl (Keep.refl _ _)) rfl
    | with_reducible apply Wr.of_keep (f := 272) (State.raise_keep (m := 272) _ _ rfl (Keep.refl _ _)) rfl
    | with_reducible apply Wr.of_keep (f := 784) (State.ashAdd_keep (m := 784) _ _ _ _ rfl (Keep.refl _ _)) rfl
    | with_reducible apply State.set_wr
    | with_reducible apply Wr.ite <;> intro _
    | with_reducible apply Wr.foldl <;> try intro _ _ _
    | with_reducible apply Wr.foldl_snd <;> try intro _ _ _
    | with_reducible refine Wr.of_snd ‹_ = (_, _)› ?_
    | with_reducible refine Wr.of_snd2 ‹_ = (_, _, _)› ?_
    | with_reducible apply Wr.of_id
    | split
    | dsimp only

theorem State.ntuSlew_wr {m : Nat} {s0 : State} (s : State) (a1 : _) (hm : subMask 0x20000000000000000000000000000000000000000000000000000000000000000000000000000000000000 m = true) (h : Wr m s0 s) : Wr m s0 (State.ntuSlew s a1) := by
  refine Wr.lift (f := 0x20000000000000000000000000000000000000000000000000000000000000000000000000000000000000) ?_ hm h
  unfold State.ntuSlew
  repeat' first
    | exact rfl
    | (refine (?_ : _ = true); dsimp only [List.all]; exact rfl)
    | with_reducible exact Wr.refl _ _
    | with_reducible assumption
    | with_reducible apply Wr.of_keep (f := 1024) (State.ntuFoldAll_keep (m := 1024) _ rfl (Keep.refl _ _)) rfl
    | with_reducible apply State.set_wr
    | with_reducible apply Wr.of_keep (f := 1024) (State.ntuUpd_keep (m := 1024) _ _ rfl (Keep.refl _ _)) rfl
    | with_reducible apply Wr.ite <;> intro _
    | with_reducible apply Wr.foldl <;> try intro _ _ _
    | with_reducible apply Wr.foldl_snd <;> try intro _ _ _
    | with_reducible refine Wr.of_snd ‹_ = (_, _)› ?_
    | with_reducible refine Wr.of_snd2 ‹_ = (_, _, _)› ?_
    | with_reducible apply Wr.of_id
    | split
    | dsimp only

theorem State.timeStat_wr {m : Nat} {s0 : State} (s : State) (a1 : _) (hm : subMask 0x100000000000000000000000000000000000000000000000000000000000000000000000000000000000000000 m = true) (h : Wr m s0 s) : Wr m s0 (State.timeStat s a1) := by
  refine Wr.lift (f := 0x100000000000000000000000000000000000000000000000000000000000000000000000000000000000000000) ?_ hm h
  unfold State.timeStat
  repeat' first
    | exact rfl
    | (refine (?_ : _ = true); dsimp only [List.all]; exact rfl)
    | with_reducible exact Wr.refl _ _
    | with_reducible assumption
    | with_reducible apply State.commit_wr
    | with_reducible apply Wr.ite <;> intro _
    | with_reducible apply Wr.foldl <;> try intro _ _ _
    | with_reducible apply Wr.foldl_snd <;> try intro _ _ _
    | with_reducible refine Wr.of_snd ‹_ = (_, _)› ?_
    | with_reducible refine Wr.of_snd2 ‹_ = (_, _, _)› ?_
    | with_reducible apply Wr.of_id
    | split
    | dsimp only

theorem State.ntuCorrect_wr {m : Nat} {s0 : State} (s : State) (a1 : _) (hm : subMask 0x1100020000000000000000000000000000000000000000000000000000000000000000000000000000000000000 m = true) (h : Wr m s0 s) : Wr m s0 (State.ntuCorrect s a1).1 := by
  refine Wr.lift (f := 0x1100020000000000000000000000000000000000000000000000000000000000000000000000000000000000000) ?_ hm h
  unfold State.ntuCorrect
  repeat' first
    | exact rfl
    | (refine (?_ : _ = true); dsimp only [List.all]; exact rfl)
    | with_reducible exact Wr.refl _ _
    | with_reducible assumption
    | with_reducible apply State.timeStat_wr
    | with_reducible apply State.setTimeState_wr
    | with_reducible apply State.ntuStep_wr
    | with_reducible apply State.ntuSlew_wr
    | with_reducible apply Wr.of_keep (f := 272) (State.raise_keep (m := 272) _ _ rfl (Keep.refl _ _)) rfl
    | with_reducible apply State.inc_wr
    | with_reducible apply State.set_wr
    | with_reducible apply Wr.ite <;> intro _
    | with_reducible apply Wr.foldl <;> try intro _ _ _
    | with_reducible apply Wr.foldl_snd <;> try intro _ _ _
    | with_reducible refine Wr.of_snd ‹_ = (_, _)› ?_
    | with_reducible refine Wr.of_snd2 ‹_ = (_, _, _)› ?_
    | with_reducible apply Wr.of_id
    | split
    | dsimp only

theorem State.disarm_wr {m : Nat} {s0 : State} (s : State) (hm : subMask 0x20000000000000000000000000000000000000000000000000000000000000000000000000000000000000 m = true) (h : Wr m s0 s) : Wr m s0 (State.disarm s) := by
  refine Wr.lift (f := 0x20000000000000000000000000000000000000000000000000000000000000000000000000000000000000) ?_ hm h
  unfold State.disarm
  repeat' first
    | exact rfl
    | (refine (?_ : _ = true); dsimp only [List.all]; exact rfl)
    | with_reducible exact Wr.refl _ _
    | with_reducible assumption
    | with_reducible apply State.set_wr
    | with_reducible apply Wr.of_keep (f := 1024) (State.ntuUpd_keep (m := 1024) _ _ rfl (Keep.refl _ _)) rfl
    | with_reducible apply Wr.ite <;> intro _
    | with_reducible apply Wr.foldl <;> try intro _ _ _
    | with_reducible apply Wr.foldl_snd <;> try intro _ _ _
    | with_reducible refine Wr.of_snd ‹_ = (_, _)› ?_
    | with_reducible refine Wr.of_snd2 ‹_ = (_, _, _)› ?_
    | with_reducible apply Wr.of_id
    | split
    | dsimp only

theorem State.ntuForce_wr {m : Nat} {s0 : State} (s : State) (a1 : _) (hm : subMask 0x100020000000000000000000000000000000000000000000000000000000000000000000000000000000000000 m = true) (h : Wr m s0 s) : Wr m s0 (State.ntuForce s a1).1 := by
  refine Wr.lift (f := 0x100020000000000000000000000000000000000000000000000000000000000000000000000000000000000000) ?_ hm h
  unfold State.ntuForce
  repeat' first
    | exact rfl
    | (refine (?_ : _ = true); dsimp only [List.all]; exact rfl)
    | with_reducible exact Wr.refl _ _
    | with_reducible assumption
    | with_reducible apply State.disarm_wr
    | with_reducible apply State.timeStat_wr
    | with_reducible apply State.setTimeState_wr
    | with_reducible apply State.ntuStep_wr
    | with_reducible apply Wr.ite <;> intro _
    | with_reducible apply Wr.foldl <;> try intro _ _ _
    | with_reducible apply Wr.foldl_snd <;> try intro _ _ _
    | with_reducible refine Wr.of_snd ‹_ = (_, _)› ?_
    | with_reducible refine Wr.of_snd2 ‹_ = (_, _, _)› ?_
    | with_reducible apply Wr.of_id
    | split
    | dsimp only

theorem State.ntuCtl_wr {m : Nat} {s0 : State} (s : State) (a1 : _) (hm : subMask 0x1100020000000000000000000000000000000000000000000000000000000000000000000000000000000000000 m = true) (h : Wr m s0 s) : Wr m s0 (State.ntuCtl s a1).1 := by
  refine Wr.lift (f := 0x1100020000000000000000000000000000000000000000000000000000000000000000000000000000000000000) ?_ hm h
  unfold State.ntuCtl
  extract_lets op
  clear_value op
  repeat' first
    | exact rfl
    | (refine (?_ : _ = true); dsimp only [List.all]; exact rfl)
    | with_reducible exact Wr.refl _ _
    | with_reducible assumption
    | with_reducible apply State.set_wr
    | with_reducible apply Wr.of_keep (f := 1024) (State.ntuUpd_keep (m := 1024) _ _ rfl (Keep.refl _ _)) rfl
    | with_reducible apply State.disarm_wr
    | with_reducible apply State.ntuCorrect_wr
    | with_reducible apply State.ntuForce_wr
    | with_reducible apply State.setTimeState_wr
    | with_reducible apply Wr.ite <;> intro _
    | with_reducible apply Wr.foldl <;> try intro _ _ _
    | with_reducible apply Wr.foldl_snd <;> try intro _ _ _
    | with_reducible refine Wr.of_snd ‹_ = (_, _)› ?_
    | with_reducible refine Wr.of_snd2 ‹_ = (_, _, _)› ?_
    | with_reducible apply Wr.of_id
    | split
    | dsimp only

theorem State.synceState_wr {m : Nat} {s0 : State} (s : State) (a1 : _) (hm : subMask 0x4000000000000000000000000000000000000000000000000000000000000000000000000000000000000000000000 m = true) (h : Wr m s0 s) : Wr m s0 (State.synceState s a1) := by
  refine Wr.lift (f := 0x4000000000000000000000000000000000000000000000000000000000000000000000000000000000000000000000) ?_ hm h
  unfold State.synceState
  repeat' first
    | exact rfl
    | (refine (?_ : _ = true); dsimp only [List.all]; exact rfl)
    | with_reducible exact Wr.refl _ _
    | with_reducible assumption
    | with_reducible apply Wr.of_keep (f := 272) (State.raise_keep (m := 272) _ _ rfl (Keep.refl _ _)) rfl
    | with_reducible apply State.set_wr
    | with_reducible apply Wr.ite <;> intro _
    | with_reducible apply Wr.foldl <;> try intro _ _ _
    | with_reducible apply Wr.foldl_snd <;> try intro _ _ _
    | with_reducible refine Wr.of_snd ‹_ = (_, _)› ?_
    | with_reducible refine Wr.of_snd2 ‹_ = (_, _, _)› ?_
    | with_reducible apply Wr.of_id
    | split
    | dsimp only

theorem State.ptmRequest_wr {m : Nat} {s0 : State} (s : State) (hm : subMask 0x10000000000000000000000000000000000000000000000000000000000000000000000000000000000000000000000 m = true) (h : Wr m s0 s) : Wr m s0 (State.ptmRequest s) := by
  refine Wr.lift (f := 0x10000000000000000000000000000000000000000000000000000000000000000000000000000000000000000000000) ?_ hm h
  unfold State.ptmRequest
  repeat' first
    | exact rfl
    | (refine (?_ : _ = true); dsimp only [List.all]; exact rfl)
    | with_reducible exact Wr.refl _ _
    | with_reducible assumption
    | with_reducible apply Wr.of_keep (f := 16) (State.emit_keep (m := 16) _ _ _ _ rfl (Keep.refl _ _)) rfl
    | with_reducible apply Wr.of_keep (f := 1024) (State.ntuUpd_keep (m := 1024) _ _ rfl (Keep.refl _ _)) rfl
    | with_reducible apply State.pendResult_wr
    | with_reducible apply Wr.of_keep (f := 272) (State.raise_keep (m := 272) _ _ rfl (Keep.refl _ _)) rfl
    | with_reducible apply State.commit_wr
    | with_reducible apply Wr.ite <;> intro _
    | with_reducible apply Wr.foldl <;> try intro _ _ _
    | with_reducible apply Wr.foldl_snd <;> try intro _ _ _
    | with_reducible refine Wr.of_snd ‹_ = (_, _)› ?_
    | with_reducible refine Wr.of_snd2 ‹_ = (_, _, _)› ?_
    | with_reducible apply Wr.of_id
    | split
    | dsimp only

theorem wrNtu_NTU_TSYNC_START_wr {m : Nat} {s0 : State} (v : Word) (rq : Req) (s : State) (hm : subMask 0x800000000000000000000000000000000000000000000000000000000000000000000000000000000000000000000 m = true) (h : Wr m s0 s) : Wr m s0 (wrNtu .NTU_TSYNC_START [] v rq s) := by
  refine Wr.lift (f := 0x800000000000000000000000000000000000000000000000000000000000000000000000000000000000000000000) ?_ hm h
  unfold wrNtu
  repeat' first
    | exact rfl
    | (refine (?_ : _ = true); dsimp only [List.all]; exact rfl)
    | with_reducible exact Wr.refl _ _
    | with_reducible assumption
    | contradiction
    | with_reducible apply State.ntuCtl_wr
    | with_reducible apply storeWord_wr
    | with_reducible apply Wr.of_keep (f := 1024) (State.ntuFoldAll_keep (m := 1024) _ rfl (Keep.refl _ _)) rfl
    | with_reducible apply Wr.of_keep (f := 1024) (State.ntuFold_keep (m := 1024) _ rfl (Keep.refl _ _)) rfl
    | with_reducible apply Wr.of_keep (f := 1024) (State.ntuUpd_keep (m := 1024) _ _ rfl (Keep.refl _ _)) rfl
    | with_reducible apply Wr.of_keep (f := 1024) (State.ppsAlign_keep (m := 1024) _ rfl (Keep.refl _ _)) rfl
    | with_reducible apply State.synceState_wr
    | with_reducible apply State.ptmRequest_wr
    | with_reducible apply Wr.ite <;> intro _
    | with_reducible apply Wr.foldl <;> try intro _ _ _
    | with_reducible apply Wr.foldl_snd <;> try intro _ _ _
    | with_reducible refine Wr.of_snd ‹_ = (_, _)› ?_
    | with_reducible refine Wr.of_snd2 ‹_ = (_, _, _)› ?_
    | with_reducible apply Wr.of_id
    | split
    | dsimp only

theorem wrNtu_NTU_TIME_CTL_wr {m : Nat} {s0 : State} (v : Word) (rq : Req) (s : State) (hm : subMask 0x1100020000000000000000000000000000000000000000000000000000000000000000000000000000000000000 m = true) (h : Wr m s0 s) : Wr m s0 (wrNtu .NTU_TIME_CTL [] v rq s) :=
  State.ntuCtl_wr s v hm h

theorem wrNtu_NTU_PTM_CTL_wr {m : Nat} {s0 : State} (v : Word) (rq : Req) (s : State) (hm : subMask 0x10000000000000000000000000000000000000000000000000000000000000000000000000000000000000000000000 m = true) (h : Wr m s0 s) : Wr m s0 (wrNtu .NTU_PTM_CTL [] v rq s) := by
  refine Wr.lift (f := 0x10000000000000000000000000000000000000000000000000000000000000000000000000000000000000000000000) ?_ hm h
  unfold wrNtu
  repeat' first
    | exact rfl
    | (refine (?_ : _ = true); dsimp only [List.all]; exact rfl)
    | with_reducible exact Wr.refl _ _
    | with_reducible assumption
    | contradiction
    | with_reducible apply State.ntuCtl_wr
    | with_reducible apply storeWord_wr
    | with_reducible apply Wr.of_keep (f := 1024) (State.ntuFoldAll_keep (m := 1024) _ rfl (Keep.refl _ _)) rfl
    | with_reducible apply Wr.of_keep (f := 1024) (State.ntuFold_keep (m := 1024) _ rfl (Keep.refl _ _)) rfl
    | with_reducible apply Wr.of_keep (f := 1024) (State.ntuUpd_keep (m := 1024) _ _ rfl (Keep.refl _ _)) rfl
    | with_reducible apply Wr.of_keep (f := 1024) (State.ppsAlign_keep (m := 1024) _ rfl (Keep.refl _ _)) rfl
    | with_reducible apply State.synceState_wr
    | with_reducible apply State.ptmRequest_wr
    | with_reducible apply Wr.ite <;> intro _
    | with_reducible apply Wr.foldl <;> try intro _ _ _
    | with_reducible apply Wr.foldl_snd <;> try intro _ _ _
    | with_reducible refine Wr.of_snd ‹_ = (_, _)› ?_
    | with_reducible refine Wr.of_snd2 ‹_ = (_, _, _)› ?_
    | with_reducible apply Wr.of_id
    | split
    | dsimp only

theorem wrNtu_NTU_TIME_RATE_HI_wr {m : Nat} {s0 : State} (v : Word) (rq : Req) (s : State) (hm : subMask 0x4000000000000000000000000000000000000000000000000000000000000000000000000000000000000000 m = true) (h : Wr m s0 s) : Wr m s0 (wrNtu .NTU_TIME_RATE_HI [] v rq s) := by
  refine Wr.lift (f := 0x4000000000000000000000000000000000000000000000000000000000000000000000000000000000000000) ?_ hm h
  unfold wrNtu
  repeat' first
    | exact rfl
    | (refine (?_ : _ = true); dsimp only [List.all]; exact rfl)
    | with_reducible exact Wr.refl _ _
    | with_reducible assumption
    | contradiction
    | with_reducible apply State.ntuCtl_wr
    | with_reducible apply storeWord_wr
    | with_reducible apply Wr.of_keep (f := 1024) (State.ntuFoldAll_keep (m := 1024) _ rfl (Keep.refl _ _)) rfl
    | with_reducible apply Wr.of_keep (f := 1024) (State.ntuFold_keep (m := 1024) _ rfl (Keep.refl _ _)) rfl
    | with_reducible apply Wr.of_keep (f := 1024) (State.ntuUpd_keep (m := 1024) _ _ rfl (Keep.refl _ _)) rfl
    | with_reducible apply Wr.of_keep (f := 1024) (State.ppsAlign_keep (m := 1024) _ rfl (Keep.refl _ _)) rfl
    | with_reducible apply State.synceState_wr
    | with_reducible apply State.ptmRequest_wr
    | with_reducible apply Wr.ite <;> intro _
    | with_reducible apply Wr.foldl <;> try intro _ _ _
    | with_reducible apply Wr.foldl_snd <;> try intro _ _ _
    | with_reducible refine Wr.of_snd ‹_ = (_, _)› ?_
    | with_reducible refine Wr.of_snd2 ‹_ = (_, _, _)› ?_
    | with_reducible apply Wr.of_id
    | split
    | dsimp only

theorem State.txtsPop_wr {m : Nat} {s0 : State} (s : State) (hm : subMask 0x20000000000000000000000000000000000000000000000000000000000000000000000000000000000000000000 m = true) (h : Wr m s0 s) : Wr m s0 (State.txtsPop s).2 := by
  refine Wr.lift (f := 0x20000000000000000000000000000000000000000000000000000000000000000000000000000000000000000000) ?_ hm h
  unfold State.txtsPop
  repeat' first
    | exact rfl
    | (refine (?_ : _ = true); dsimp only [List.all]; exact rfl)
    | with_reducible exact Wr.refl _ _
    | with_reducible assumption
    | with_reducible apply State.setReg_wr
    | with_reducible apply Wr.of_keep (f := 1024) (State.ntuUpd_keep (m := 1024) _ _ rfl (Keep.refl _ _)) rfl
    | with_reducible apply Wr.ite <;> intro _
    | with_reducible apply Wr.foldl <;> try intro _ _ _
    | with_reducible apply Wr.foldl_snd <;> try intro _ _ _
    | with_reducible refine Wr.of_snd ‹_ = (_, _)› ?_
    | with_reducible refine Wr.of_snd2 ‹_ = (_, _, _)› ?_
    | with_reducible apply Wr.of_id
    | split
    | dsimp only

theorem State.txtsPush_wr {m : Nat} {s0 : State} (s : State) (a1 : _) (hm : subMask 0x4000000000000000000000000000000000000000000000000000000000000000000000000000000000000000000 m = true) (h : Wr m s0 s) : Wr m s0 (State.txtsPush s a1) := by
  refine Wr.lift (f := 0x4000000000000000000000000000000000000000000000000000000000000000000000000000000000000000000) ?_ hm h
  unfold State.txtsPush
  repeat' first
    | exact rfl
    | (refine (?_ : _ = true); dsimp only [List.all]; exact rfl)
    | with_reducible exact Wr.refl _ _
    | with_reducible assumption
    | with_reducible apply State.inc_wr
    | with_reducible apply Wr.of_keep (f := 1024) (State.ntuUpd_keep (m := 1024) _ _ rfl (Keep.refl _ _)) rfl
    | with_reducible apply Wr.of_keep (f := 272) (State.raise_keep (m := 272) _ _ rfl (Keep.refl _ _)) rfl
    | with_reducible apply Wr.ite <;> intro _
    | with_reducible apply Wr.foldl <;> try intro _ _ _
    | with_reducible apply Wr.foldl_snd <;> try intro _ _ _
    | with_reducible refine Wr.of_snd ‹_ = (_, _)› ?_
    | with_reducible refine Wr.of_snd2 ‹_ = (_, _, _)› ?_
    | with_reducible apply Wr.of_id
    | split
    | dsimp only

theorem State.timeRead_wr {m : Nat} {s0 : State} (s : State) (hm : subMask 0xf00000000000000000000000000000000000000000000000000000000000000000000000000000000000000 m = true) (h : Wr m s0 s) : Wr m s0 (State.timeRead s).2 := by
  refine Wr.lift (f := 0xf00000000000000000000000000000000000000000000000000000000000000000000000000000000000000) ?_ hm h
  unfold State.timeRead
  repeat' first
    | exact rfl
    | (refine (?_ : _ = true); dsimp only [List.all]; exact rfl)
    | with_reducible exact Wr.refl _ _
    | with_reducible assumption
    | with_reducible apply State.setReg_wr
    | with_reducible apply Wr.ite <;> intro _
    | with_reducible apply Wr.foldl <;> try intro _ _ _
    | with_reducible apply Wr.foldl_snd <;> try intro _ _ _
    | with_reducible refine Wr.of_snd ‹_ = (_, _)› ?_
    | with_reducible refine Wr.of_snd2 ‹_ = (_, _, _)› ?_
    | with_reducible apply Wr.of_id
    | split
    | dsimp only

theorem rdNtu_NTU_TXTS_POP_wr {m : Nat} {s0 : State} (rq : Req) (s : State) (hm : subMask 0x20000000000000000000000000000000000000000000000000000000000000000000000000000000000000000000 m = true) (h : Wr m s0 s) : Wr m s0 (rdNtu .NTU_TXTS_POP [] rq s).2 := by
  refine Wr.lift (f := 0x20000000000000000000000000000000000000000000000000000000000000000000000000000000000000000000) ?_ hm h
  unfold rdNtu
  repeat' first
    | exact rfl
    | (refine (?_ : _ = true); dsimp only [List.all]; exact rfl)
    | with_reducible exact Wr.refl _ _
    | with_reducible assumption
    | contradiction
    | with_reducible apply State.timeRead_wr
    | with_reducible apply State.txtsPop_wr
    | with_reducible apply State.setReg_wr
    | with_reducible apply readEffect_wr
    | with_reducible apply loadWord_wr
    | with_reducible apply Wr.ite <;> intro _
    | with_reducible apply Wr.foldl <;> try intro _ _ _
    | with_reducible apply Wr.foldl_snd <;> try intro _ _ _
    | with_reducible refine Wr.of_snd ‹_ = (_, _)› ?_
    | with_reducible refine Wr.of_snd2 ‹_ = (_, _, _)› ?_
    | with_reducible apply Wr.of_id
    | split
    | dsimp only

theorem rdNtu_NTU_TIME_NS_wr {m : Nat} {s0 : State} (rq : Req) (s : State) (hm : subMask 0xf00000000000000000000000000000000000000000000000000000000000000000000000000000000000000 m = true) (h : Wr m s0 s) : Wr m s0 (rdNtu .NTU_TIME_NS [] rq s).2 := by
  refine Wr.lift (f := 0xf00000000000000000000000000000000000000000000000000000000000000000000000000000000000000) ?_ hm h
  unfold rdNtu
  repeat' first
    | exact rfl
    | (refine (?_ : _ = true); dsimp only [List.all]; exact rfl)
    | with_reducible exact Wr.refl _ _
    | with_reducible assumption
    | contradiction
    | with_reducible apply State.timeRead_wr
    | with_reducible apply State.txtsPop_wr
    | with_reducible apply State.setReg_wr
    | with_reducible apply readEffect_wr
    | with_reducible apply loadWord_wr
    | with_reducible apply Wr.ite <;> intro _
    | with_reducible apply Wr.foldl <;> try intro _ _ _
    | with_reducible apply Wr.foldl_snd <;> try intro _ _ _
    | with_reducible refine Wr.of_snd ‹_ = (_, _)› ?_
    | with_reducible refine Wr.of_snd2 ‹_ = (_, _, _)› ?_
    | with_reducible apply Wr.of_id
    | split
    | dsimp only

theorem rdNtu_NTU_CAP_STAT_wr {m : Nat} {s0 : State} (rq : Req) (s : State) (hm : subMask 0x380000000000000000000000000000000000000000000000000000000000000000000000000000000000000000002 m = true) (h : Wr m s0 s) : Wr m s0 (rdNtu .NTU_CAP_STAT [] rq s).2 := by
  refine Wr.lift (f := 0x380000000000000000000000000000000000000000000000000000000000000000000000000000000000000000002) ?_ hm h
  unfold rdNtu
  repeat' first
    | exact rfl
    | (refine (?_ : _ = true); dsimp only [List.all]; exact rfl)
    | with_reducible exact Wr.refl _ _
    | with_reducible assumption
    | contradiction
    | with_reducible apply State.timeRead_wr
    | with_reducible apply State.txtsPop_wr
    | with_reducible apply State.setReg_wr
    | with_reducible apply readEffect_wr
    | with_reducible apply loadWord_wr
    | with_reducible apply Wr.ite <;> intro _
    | with_reducible apply Wr.foldl <;> try intro _ _ _
    | with_reducible apply Wr.foldl_snd <;> try intro _ _ _
    | with_reducible refine Wr.of_snd ‹_ = (_, _)› ?_
    | with_reducible refine Wr.of_snd2 ‹_ = (_, _, _)› ?_
    | with_reducible apply Wr.of_id
    | split
    | dsimp only

theorem State.ntuResume_wr {m : Nat} {s0 : State} (s : State) (hm : subMask 0xc06028000000000000000000000000000000000000000000000000000000000000000000000000000000000000 m = true) (h : Wr m s0 s) : Wr m s0 (State.ntuResume s) := by
  refine Wr.lift (f := 0xc06028000000000000000000000000000000000000000000000000000000000000000000000000000000000000) ?_ hm h
  unfold State.ntuResume
  repeat' first
    | exact rfl
    | (refine (?_ : _ = true); dsimp only [List.all]; exact rfl)
    | with_reducible exact Wr.refl _ _
    | with_reducible assumption
    | with_reducible apply State.set_wr
    | with_reducible apply State.setReg_wr
    | with_reducible apply State.sets_wr
    | with_reducible apply Wr.ite <;> intro _
    | with_reducible apply Wr.foldl <;> try intro _ _ _
    | with_reducible apply Wr.foldl_snd <;> try intro _ _ _
    | (rewrite [State.mk_eq_updOf]; with_reducible refine Wr.node rfl rfl rfl ?_)
    | with_reducible refine Wr.of_snd ‹_ = (_, _)› ?_
    | with_reducible refine Wr.of_snd2 ‹_ = (_, _, _)› ?_
    | with_reducible apply Wr.of_id
    | split
    | dsimp only

theorem State.ntuRefLost_wr {m : Nat} {s0 : State} (s : State) (hm : subMask 0x20000000000000000000000000000000000000000000000000000000000000000000000000000000000000 m = true) (h : Wr m s0 s) : Wr m s0 (State.ntuRefLost s) := by
  refine Wr.lift (f := 0x20000000000000000000000000000000000000000000000000000000000000000000000000000000000000) ?_ hm h
  unfold State.ntuRefLost
  repeat' first
    | exact rfl
    | (refine (?_ : _ = true); dsimp only [List.all]; exact rfl)
    | with_reducible exact Wr.refl _ _
    | with_reducible assumption
    | with_reducible apply Wr.of_keep (f := 1024) (State.ntuUpd_keep (m := 1024) _ _ rfl (Keep.refl _ _)) rfl
    | with_reducible apply Wr.of_keep (f := 1024) (State.ntuFoldAll_keep (m := 1024) _ rfl (Keep.refl _ _)) rfl
    | with_reducible apply State.set_wr
    | with_reducible apply State.setTimeState_wr
    | with_reducible apply Wr.ite <;> intro _
    | with_reducible apply Wr.foldl <;> try intro _ _ _
    | with_reducible apply Wr.foldl_snd <;> try intro _ _ _
    | with_reducible refine Wr.of_snd ‹_ = (_, _)› ?_
    | with_reducible refine Wr.of_snd2 ‹_ = (_, _, _)› ?_
    | with_reducible apply Wr.of_id
    | split
    | dsimp only

theorem State.ntuRefBack_wr {m : Nat} {s0 : State} (s : State) (hm : subMask 0x20000000000000000000000000000000000000000000000000000000000000000000000000000000000000 m = true) (h : Wr m s0 s) : Wr m s0 (State.ntuRefBack s) := by
  refine Wr.lift (f := 0x20000000000000000000000000000000000000000000000000000000000000000000000000000000000000) ?_ hm h
  unfold State.ntuRefBack
  repeat' first
    | exact rfl
    | (refine (?_ : _ = true); dsimp only [List.all]; exact rfl)
    | with_reducible exact Wr.refl _ _
    | with_reducible assumption
    | with_reducible apply Wr.of_keep (f := 1024) (State.ntuUpd_keep (m := 1024) _ _ rfl (Keep.refl _ _)) rfl
    | with_reducible apply State.set_wr
    | with_reducible apply Wr.ite <;> intro _
    | with_reducible apply Wr.foldl <;> try intro _ _ _
    | with_reducible apply Wr.foldl_snd <;> try intro _ _ _
    | with_reducible refine Wr.of_snd ‹_ = (_, _)› ?_
    | with_reducible refine Wr.of_snd2 ‹_ = (_, _, _)› ?_
    | with_reducible apply Wr.of_id
    | split
    | dsimp only

theorem execNtuHoldover_wr (a0 : _) (s : State) {t : State} (h : execNtuHoldover a0 s = .next t) : Wr 0x40000f000000000000000000000000000000001100020000000000000000000000000000000000000000000000000000000000000000000000000000000000000 s t := by
  unfold execNtuHoldover at h
  injection h with h
  subst h
  repeat' first
    | exact rfl
    | (refine (?_ : _ = true); dsimp only [List.all]; exact rfl)
    | with_reducible exact Wr.refl _ _
    | with_reducible assumption
    | with_reducible refine writeReg_wr (r0 := .NTU_TIME_CTL) (show findReg (Reg.addr .NTU_TIME_CTL []) = some (.NTU_TIME_CTL, []) by decide +kernel) (fun _ _ => ?_) ?_ ?_
    | with_reducible apply wrNtu_NTU_TIME_CTL_wr
    | with_reducible apply Wr.ite <;> intro _
    | with_reducible apply Wr.foldl <;> try intro _ _ _
    | with_reducible apply Wr.foldl_snd <;> try intro _ _ _
    | with_reducible refine Wr.of_snd ‹_ = (_, _)› ?_
    | with_reducible refine Wr.of_snd2 ‹_ = (_, _, _)› ?_
    | with_reducible apply Wr.of_id
    | split
    | dsimp only

theorem execNtuArm_wr (a0 : _) (s : State) {t : State} (h : execNtuArm a0 s = .next t) : Wr 0x40000f000000000000000000000000000000001100020000000000000000000000000000000000000000000000000000000000000000000000000000000000000 s t := by
  unfold execNtuArm at h
  injection h with h
  subst h
  repeat' first
    | exact rfl
    | (refine (?_ : _ = true); dsimp only [List.all]; exact rfl)
    | with_reducible exact Wr.refl _ _
    | with_reducible assumption
    | with_reducible refine writeReg_wr (r0 := .NTU_TIME_CTL) (show findReg (Reg.addr .NTU_TIME_CTL []) = some (.NTU_TIME_CTL, []) by decide +kernel) (fun _ _ => ?_) ?_ ?_
    | with_reducible apply wrNtu_NTU_TIME_CTL_wr
    | with_reducible apply Wr.ite <;> intro _
    | with_reducible apply Wr.foldl <;> try intro _ _ _
    | with_reducible apply Wr.foldl_snd <;> try intro _ _ _
    | with_reducible refine Wr.of_snd ‹_ = (_, _)› ?_
    | with_reducible refine Wr.of_snd2 ‹_ = (_, _, _)› ?_
    | with_reducible apply Wr.of_id
    | split
    | dsimp only

theorem execNtuArmExpiry_wr (s : State) {t : State} (h : execNtuArmExpiry s = .next t) : Wr 0x20000000000000000000000000000000000000000000000000000000000000000000000000000000000000 s t := by
  unfold execNtuArmExpiry at h
  injection h with h
  subst h
  repeat' first
    | exact rfl
    | (refine (?_ : _ = true); dsimp only [List.all]; exact rfl)
    | with_reducible exact Wr.refl _ _
    | with_reducible assumption
    | with_reducible apply State.disarm_wr
    | with_reducible apply Wr.ite <;> intro _
    | with_reducible apply Wr.foldl <;> try intro _ _ _
    | with_reducible apply Wr.foldl_snd <;> try intro _ _ _
    | with_reducible refine Wr.of_snd ‹_ = (_, _)› ?_
    | with_reducible refine Wr.of_snd2 ‹_ = (_, _, _)› ?_
    | with_reducible apply Wr.of_id
    | split
    | dsimp only

theorem execSlewEnd_wr (s : State) {t : State} (h : execSlewEnd s = .next t) : Wr 0x20000000000000000000000000000000000000000000000000000000000000000000000000000000000000 s t := by
  unfold execSlewEnd at h
  injection h with h
  subst h
  repeat' first
    | exact rfl
    | (refine (?_ : _ = true); dsimp only [List.all]; exact rfl)
    | with_reducible exact Wr.refl _ _
    | with_reducible assumption
    | with_reducible apply State.set_wr
    | with_reducible apply Wr.of_keep (f := 1024) (State.ntuUpd_keep (m := 1024) _ _ rfl (Keep.refl _ _)) rfl
    | with_reducible apply Wr.ite <;> intro _
    | with_reducible apply Wr.foldl <;> try intro _ _ _
    | with_reducible apply Wr.foldl_snd <;> try intro _ _ _
    | with_reducible refine Wr.of_snd ‹_ = (_, _)› ?_
    | with_reducible refine Wr.of_snd2 ‹_ = (_, _, _)› ?_
    | with_reducible apply Wr.of_id
    | split
    | dsimp only

theorem execServoWatchdog_wr (s : State) {t : State} (h : execServoWatchdog s = .next t) : Wr 0x2000020000000000000000000000000000000000000000000000000000000000000000000000000000000000000 s t := by
  unfold execServoWatchdog at h
  injection h with h
  subst h
  repeat' first
    | exact rfl
    | (refine (?_ : _ = true); dsimp only [List.all]; exact rfl)
    | with_reducible exact Wr.refl _ _
    | with_reducible assumption
    | with_reducible apply State.inc_wr
    | with_reducible apply State.setTimeState_wr
    | with_reducible apply Wr.ite <;> intro _
    | with_reducible apply Wr.foldl <;> try intro _ _ _
    | with_reducible apply Wr.foldl_snd <;> try intro _ _ _
    | with_reducible refine Wr.of_snd ‹_ = (_, _)› ?_
    | with_reducible refine Wr.of_snd2 ‹_ = (_, _, _)› ?_
    | with_reducible apply Wr.of_id
    | split
    | dsimp only

theorem execTimeRateWrite_wr (a0 : _) (a1 : _) (s : State) {t : State} (h : execTimeRateWrite a0 a1 s = .next t) : Wr 0x40000f000000000000000000000000000000000004000000000000000000000000000000000000000000000000000000000000000000000000000000000000000 s t := by
  unfold execTimeRateWrite at h
  injection h with h
  subst h
  repeat' first
    | exact rfl
    | (refine (?_ : _ = true); dsimp only [List.all]; exact rfl)
    | with_reducible exact Wr.refl _ _
    | with_reducible assumption
    | with_reducible refine writeReg_wr (r0 := .NTU_TIME_RATE_HI) (show findReg (Reg.addr .NTU_TIME_RATE_HI []) = some (.NTU_TIME_RATE_HI, []) by decide +kernel) (fun _ _ => ?_) ?_ ?_
    | with_reducible apply wrNtu_NTU_TIME_RATE_HI_wr
    | with_reducible apply Wr.ite <;> intro _
    | with_reducible apply Wr.foldl <;> try intro _ _ _
    | with_reducible apply Wr.foldl_snd <;> try intro _ _ _
    | with_reducible refine Wr.of_snd ‹_ = (_, _)› ?_
    | with_reducible refine Wr.of_snd2 ‹_ = (_, _, _)› ?_
    | with_reducible apply Wr.of_id
    | split
    | dsimp only

theorem execNtuTimeNs_wr (a0 : _) (s : State) {t : State} (h : execNtuTimeNs a0 s = .next t) : Wr 0x40000f000000000000000000000000000000000000f00000000000000000000000000000000000000000000000000000000000000000000000000000000000000 s t := by
  unfold execNtuTimeNs at h
  injection h with h
  subst h
  repeat' first
    | exact rfl
    | (refine (?_ : _ = true); dsimp only [List.all]; exact rfl)
    | with_reducible exact Wr.refl _ _
    | with_reducible assumption
    | with_reducible refine readReg_wr (r0 := .NTU_TIME_NS) (show findReg (Reg.addr .NTU_TIME_NS []) = some (.NTU_TIME_NS, []) by decide +kernel) (fun _ _ => ?_) ?_ ?_
    | with_reducible apply rdNtu_NTU_TIME_NS_wr
    | with_reducible apply Wr.ite <;> intro _
    | with_reducible apply Wr.foldl <;> try intro _ _ _
    | with_reducible apply Wr.foldl_snd <;> try intro _ _ _
    | with_reducible refine Wr.of_snd ‹_ = (_, _)› ?_
    | with_reducible refine Wr.of_snd2 ‹_ = (_, _, _)› ?_
    | with_reducible apply Wr.of_id
    | split
    | dsimp only

theorem execPpsIn_wr (s : State) {t : State} (h : execPpsIn s = .next t) : Wr 0x100000000000000000000000000000000000000000000000000000000000000000000000000000000000000000000 s t := by
  unfold execPpsIn at h
  injection h with h
  subst h
  repeat' first
    | exact rfl
    | (refine (?_ : _ = true); dsimp only [List.all]; exact rfl)
    | with_reducible exact Wr.refl _ _
    | with_reducible assumption
    | with_reducible apply Wr.of_keep (f := 272) (State.raise_keep (m := 272) _ _ rfl (Keep.refl _ _)) rfl
    | with_reducible apply State.sets_wr
    | with_reducible apply Wr.of_keep (f := 1024) (State.ntuUpd_keep (m := 1024) _ _ rfl (Keep.refl _ _)) rfl
    | with_reducible apply Wr.ite <;> intro _
    | with_reducible apply Wr.foldl <;> try intro _ _ _
    | with_reducible apply Wr.foldl_snd <;> try intro _ _ _
    | (rewrite [State.mk_eq_updOf]; with_reducible refine Wr.node rfl rfl rfl ?_)
    | with_reducible refine Wr.of_snd ‹_ = (_, _)› ?_
    | with_reducible refine Wr.of_snd2 ‹_ = (_, _, _)› ?_
    | with_reducible apply Wr.of_id
    | split
    | dsimp only

theorem execTsyncInEdge_wr (a0 : _) (s : State) {t : State} (h : execTsyncInEdge a0 s = .next t) : Wr 0x100000000000000000000000000000000000000000000000000000000000000000000000000000000000000000000 s t := by
  unfold execTsyncInEdge at h
  injection h with h
  subst h
  repeat' first
    | exact rfl
    | (refine (?_ : _ = true); dsimp only [List.all]; exact rfl)
    | with_reducible exact Wr.refl _ _
    | with_reducible assumption
    | with_reducible apply State.sets_wr
    | with_reducible apply Wr.of_keep (f := 1024) (State.ntuUpd_keep (m := 1024) _ _ rfl (Keep.refl _ _)) rfl
    | with_reducible apply Wr.ite <;> intro _
    | with_reducible apply Wr.foldl <;> try intro _ _ _
    | with_reducible apply Wr.foldl_snd <;> try intro _ _ _
    | (rewrite [State.mk_eq_updOf]; with_reducible refine Wr.node rfl rfl rfl ?_)
    | with_reducible refine Wr.of_snd ‹_ = (_, _)› ?_
    | with_reducible refine Wr.of_snd2 ‹_ = (_, _, _)› ?_
    | with_reducible apply Wr.of_id
    | split
    | dsimp only

theorem execNtuTsyncStart_wr (a0 : _) (a1 : _) (s : State) {t : State} (h : execNtuTsyncStart a0 a1 s = .next t) : Wr 0x40000f000000000000000000000000000000800000000000000000000000000000000000000000000000000000000000000000000000000000000000000000000 s t := by
  unfold execNtuTsyncStart at h
  injection h with h
  subst h
  repeat' first
    | exact rfl
    | (refine (?_ : _ = true); dsimp only [List.all]; exact rfl)
    | with_reducible exact Wr.refl _ _
    | with_reducible assumption
    | with_reducible refine writeReg_wr (r0 := .NTU_TSYNC_START) (show findReg (Reg.addr .NTU_TSYNC_START []) = some (.NTU_TSYNC_START, []) by decide +kernel) (fun _ _ => ?_) ?_ ?_
    | with_reducible apply wrNtu_NTU_TSYNC_START_wr
    | with_reducible apply Wr.ite <;> intro _
    | with_reducible apply Wr.foldl <;> try intro _ _ _
    | with_reducible apply Wr.foldl_snd <;> try intro _ _ _
    | with_reducible refine Wr.of_snd ‹_ = (_, _)› ?_
    | with_reducible refine Wr.of_snd2 ‹_ = (_, _, _)› ?_
    | with_reducible apply Wr.of_id
    | split
    | dsimp only

theorem execNtuCapStat_wr (a0 : _) (s : State) {t : State} (h : execNtuCapStat a0 s = .next t) : Wr 0x40000f000000000000000000000000000000380000000000000000000000000000000000000000000000000000000000000000000000000000000000000000002 s t := by
  unfold execNtuCapStat at h
  injection h with h
  subst h
  repeat' first
    | exact rfl
    | (refine (?_ : _ = true); dsimp only [List.all]; exact rfl)
    | with_reducible exact Wr.refl _ _
    | with_reducible assumption
    | with_reducible refine readReg_wr (r0 := .NTU_CAP_STAT) (show findReg (Reg.addr .NTU_CAP_STAT []) = some (.NTU_CAP_STAT, []) by decide +kernel) (fun _ _ => ?_) ?_ ?_
    | with_reducible apply rdNtu_NTU_CAP_STAT_wr
    | with_reducible apply Wr.ite <;> intro _
    | with_reducible apply Wr.foldl <;> try intro _ _ _
    | with_reducible apply Wr.foldl_snd <;> try intro _ _ _
    | with_reducible refine Wr.of_snd ‹_ = (_, _)› ?_
    | with_reducible refine Wr.of_snd2 ‹_ = (_, _, _)› ?_
    | with_reducible apply Wr.of_id
    | split
    | dsimp only

theorem execNtuTxtsPop_wr (a0 : _) (s : State) {t : State} (h : execNtuTxtsPop a0 s = .next t) : Wr 0x40000f000000000000000000000000000000020000000000000000000000000000000000000000000000000000000000000000000000000000000000000000000 s t := by
  unfold execNtuTxtsPop at h
  injection h with h
  subst h
  repeat' first
    | exact rfl
    | (refine (?_ : _ = true); dsimp only [List.all]; exact rfl)
    | with_reducible exact Wr.refl _ _
    | with_reducible assumption
    | with_reducible refine readReg_wr (r0 := .NTU_TXTS_POP) (show findReg (Reg.addr .NTU_TXTS_POP []) = some (.NTU_TXTS_POP, []) by decide +kernel) (fun _ _ => ?_) ?_ ?_
    | with_reducible apply rdNtu_NTU_TXTS_POP_wr
    | with_reducible apply Wr.ite <;> intro _
    | with_reducible apply Wr.foldl <;> try intro _ _ _
    | with_reducible apply Wr.foldl_snd <;> try intro _ _ _
    | with_reducible refine Wr.of_snd ‹_ = (_, _)› ?_
    | with_reducible refine Wr.of_snd2 ‹_ = (_, _, _)› ?_
    | with_reducible apply Wr.of_id
    | split
    | dsimp only

theorem execPtmRequest_wr (a0 : _) (s : State) {t : State} (h : execPtmRequest a0 s = .next t) : Wr 0x40000f000000000000000000000000000010000000000000000000000000000000000000000000000000000000000000000000000000000000000000000000000 s t := by
  unfold execPtmRequest at h
  injection h with h
  subst h
  repeat' first
    | exact rfl
    | (refine (?_ : _ = true); dsimp only [List.all]; exact rfl)
    | with_reducible exact Wr.refl _ _
    | with_reducible assumption
    | with_reducible refine writeReg_wr (r0 := .NTU_PTM_CTL) (show findReg (Reg.addr .NTU_PTM_CTL []) = some (.NTU_PTM_CTL, []) by decide +kernel) (fun _ _ => ?_) ?_ ?_
    | with_reducible apply wrNtu_NTU_PTM_CTL_wr
    | with_reducible apply Wr.ite <;> intro _
    | with_reducible apply Wr.foldl <;> try intro _ _ _
    | with_reducible apply Wr.foldl_snd <;> try intro _ _ _
    | with_reducible refine Wr.of_snd ‹_ = (_, _)› ?_
    | with_reducible refine Wr.of_snd2 ‹_ = (_, _, _)› ?_
    | with_reducible apply Wr.of_id
    | split
    | dsimp only

theorem execPtmResponse_wr (a0 : _) (a1 : _) (s : State) {t : State} (h : execPtmResponse a0 a1 s = .next t) : Wr 0x3f0000000000000000000000000000000000000000000000000000000000000000000000000000000000000000000000 s t := by
  unfold execPtmResponse at h
  injection h with h
  subst h
  repeat' first
    | exact rfl
    | (refine (?_ : _ = true); dsimp only [List.all]; exact rfl)
    | with_reducible exact Wr.refl _ _
    | with_reducible assumption
    | with_reducible apply Wr.of_keep (f := 272) (State.raise_keep (m := 272) _ _ rfl (Keep.refl _ _)) rfl
    | with_reducible apply State.commit_wr
    | with_reducible apply State.setReg_wr
    | with_reducible apply Wr.of_keep (f := 1024) (State.ntuUpd_keep (m := 1024) _ _ rfl (Keep.refl _ _)) rfl
    | with_reducible apply Wr.ite <;> intro _
    | with_reducible apply Wr.foldl <;> try intro _ _ _
    | with_reducible apply Wr.foldl_snd <;> try intro _ _ _
    | with_reducible refine Wr.of_snd ‹_ = (_, _)› ?_
    | with_reducible refine Wr.of_snd2 ‹_ = (_, _, _)› ?_
    | with_reducible apply Wr.of_id
    | split
    | dsimp only

theorem execPtmTimeout_wr (s : State) {t : State} (h : execPtmTimeout s = .next t) : Wr 0x10000000000000000000000000000000000000000000000000000000000000000000000000000000000000000000000 s t := by
  unfold execPtmTimeout at h
  injection h with h
  subst h
  repeat' first
    | exact rfl
    | (refine (?_ : _ = true); dsimp only [List.all]; exact rfl)
    | with_reducible exact Wr.refl _ _
    | with_reducible assumption
    | with_reducible apply Wr.of_keep (f := 272) (State.raise_keep (m := 272) _ _ rfl (Keep.refl _ _)) rfl
    | with_reducible apply State.commit_wr
    | with_reducible apply Wr.of_keep (f := 1024) (State.ntuUpd_keep (m := 1024) _ _ rfl (Keep.refl _ _)) rfl
    | with_reducible apply Wr.ite <;> intro _
    | with_reducible apply Wr.foldl <;> try intro _ _ _
    | with_reducible apply Wr.foldl_snd <;> try intro _ _ _
    | with_reducible refine Wr.of_snd ‹_ = (_, _)› ?_
    | with_reducible refine Wr.of_snd2 ‹_ = (_, _, _)› ?_
    | with_reducible apply Wr.of_id
    | split
    | dsimp only

theorem execSynceSourceLoss_wr (s : State) {t : State} (h : execSynceSourceLoss s = .next t) : Wr 0x4000000000000000000000000000000000000000000000000000000000000000000000000000000000000000000000 s t := by
  unfold execSynceSourceLoss at h
  injection h with h
  subst h
  repeat' first
    | exact rfl
    | (refine (?_ : _ = true); dsimp only [List.all]; exact rfl)
    | with_reducible exact Wr.refl _ _
    | with_reducible assumption
    | with_reducible apply State.synceState_wr
    | with_reducible apply Wr.ite <;> intro _
    | with_reducible apply Wr.foldl <;> try intro _ _ _
    | with_reducible apply Wr.foldl_snd <;> try intro _ _ _
    | with_reducible refine Wr.of_snd ‹_ = (_, _)› ?_
    | with_reducible refine Wr.of_snd2 ‹_ = (_, _, _)› ?_
    | with_reducible apply Wr.of_id
    | split
    | dsimp only

theorem execSynceRelock_wr (a0 : _) (s : State) {t : State} (h : execSynceRelock a0 s = .next t) : Wr 0x4000000000000000000000000000000000000000000000000000000000000000000000000000000000000000000000 s t := by
  unfold execSynceRelock at h
  injection h with h
  subst h
  repeat' first
    | exact rfl
    | (refine (?_ : _ = true); dsimp only [List.all]; exact rfl)
    | with_reducible exact Wr.refl _ _
    | with_reducible assumption
    | with_reducible apply State.synceState_wr
    | with_reducible apply Wr.ite <;> intro _
    | with_reducible apply Wr.foldl <;> try intro _ _ _
    | with_reducible apply Wr.foldl_snd <;> try intro _ _ _
    | with_reducible refine Wr.of_snd ‹_ = (_, _)› ?_
    | with_reducible refine Wr.of_snd2 ‹_ = (_, _, _)› ?_
    | with_reducible apply Wr.of_id
    | split
    | dsimp only

theorem execSlpRatioMeasure_wr (s : State) {t : State} (h : execSlpRatioMeasure s = .next t) : Wr 0x800020000000000000000000000000000000000000000000000000000000000000000000000000000000000000 s t := by
  unfold execSlpRatioMeasure at h
  injection h with h
  subst h
  repeat' first
    | exact rfl
    | (refine (?_ : _ = true); dsimp only [List.all]; exact rfl)
    | with_reducible exact Wr.refl _ _
    | with_reducible assumption
    | with_reducible apply Wr.of_keep (f := 1024) (State.ntuUpd_keep (m := 1024) _ _ rfl (Keep.refl _ _)) rfl
    | with_reducible apply State.set_wr
    | with_reducible apply State.setReg_wr
    | with_reducible apply Wr.ite <;> intro _
    | with_reducible apply Wr.foldl <;> try intro _ _ _
    | with_reducible apply Wr.foldl_snd <;> try intro _ _ _
    | with_reducible refine Wr.of_snd ‹_ = (_, _)› ?_
    | with_reducible refine Wr.of_snd2 ‹_ = (_, _, _)› ?_
    | with_reducible apply Wr.of_id
    | split
    | dsimp only

end Sys2Proof.Machine
end

