-- ==== Sys2Proof/Laws/WrCipher.lean ====
section
/-! SUPPORT. The registers that each operation of Machine/Cipher.lean may change. -/

set_option Elab.async false

namespace Sys2Proof.Machine

theorem State.slotRefused_wr {m : Nat} {s0 : State} (s : State) (hm : subMask 0x10000000000000000000000000000000000000000000000000000000000000000000000000000000000000000000000000000000000000000000000 m = true) (h : Wr m s0 s) : Wr m s0 (State.slotRefused s) := by
  refine Wr.lift (f := 0x10000000000000000000000000000000000000000000000000000000000000000000000000000000000000000000000000000000000000000000000) ?_ hm h
  unfold State.slotRefused
  repeat' first
    | exact rfl
    | (refine (?_ : _ = true); dsimp only [List.all]; exact rfl)
    | with_reducible exact Wr.refl _ _
    | with_reducible assumption
    | with_reducible apply State.inc_wr
    | with_reducible apply Wr.of_keep (f := 272) (State.raise_keep (m := 272) _ _ rfl (Keep.refl _ _)) rfl
    | with_reducible apply Wr.ite <;> intro _
    | with_reducible apply Wr.foldl <;> try intro _ _ _
    | with_reducible apply Wr.foldl_snd <;> try intro _ _ _
    | (rewrite [State.mk_eq_updOf]; with_reducible refine Wr.node rfl rfl rfl ?_)
    | with_reducible refine Wr.of_snd ‹_ = (_, _)› ?_
    | with_reducible refine Wr.of_snd2 ‹_ = (_, _, _)› ?_
    | with_reducible apply Wr.of_id
    | split
    | dsimp only

theorem State.useKey_wr {m : Nat} {s0 : State} (s : State) (a1 : _) (a2 : _) (hm : subMask 0x10000000000000000000000000000000000000000000000000000000000000000000000000000000000000000000000000000000000000000000000 m = true) (h : Wr m s0 s) : Wr m s0 (State.useKey s a1 a2).2 := by
  refine Wr.lift (f := 0x10000000000000000000000000000000000000000000000000000000000000000000000000000000000000000000000000000000000000000000000) ?_ hm h
  unfold State.useKey
  repeat' first
    | exact rfl
    | (refine (?_ : _ = true); dsimp only [List.all]; exact rfl)
    | with_reducible exact Wr.refl _ _
    | with_reducible assumption
    | with_reducible apply State.slotRefused_wr
    | with_reducible apply Wr.ite <;> intro _
    | with_reducible apply Wr.foldl <;> try intro _ _ _
    | with_reducible apply Wr.foldl_snd <;> try intro _ _ _
    | with_reducible refine Wr.of_snd ‹_ = (_, _)› ?_
    | with_reducible refine Wr.of_snd2 ‹_ = (_, _, _)› ?_
    | with_reducible apply Wr.of_id
    | split
    | dsimp only

end Sys2Proof.Machine
end

