-- ==== Sys2Proof/Laws/WrMemory.lean ====
section
/-! SUPPORT. The registers that each operation of Machine/Memory.lean may change. -/

set_option Elab.async false

namespace Sys2Proof.Machine

theorem State.sramEcc_wr {m : Nat} {s0 : State} (s : State) (a1 : _) (hm : subMask 0xa00000000000000000000000000000000000000000000000000000000000000000000000000000000000000000000000000000000000 m = true) (h : Wr m s0 s) : Wr m s0 (State.sramEcc s a1) := by
  refine Wr.lift (f := 0xa00000000000000000000000000000000000000000000000000000000000000000000000000000000000000000000000000000000000) ?_ hm h
  unfold State.sramEcc
  repeat' first
    | exact rfl
    | (refine (?_ : _ = true); dsimp only [List.all]; exact rfl)
    | with_reducible exact Wr.refl _ _
    | with_reducible assumption
    | with_reducible apply Wr.of_keep (f := 272) (State.raise_keep (m := 272) _ _ rfl (Keep.refl _ _)) rfl
    | with_reducible apply State.inc_wr
    | with_reducible apply State.setReg_wr
    | with_reducible apply Wr.ite <;> intro _
    | with_reducible apply Wr.foldl <;> try intro _ _ _
    | with_reducible apply Wr.foldl_snd <;> try intro _ _ _
    | with_reducible refine Wr.of_snd ‹_ = (_, _)› ?_
    | with_reducible refine Wr.of_snd2 ‹_ = (_, _, _)› ?_
    | with_reducible apply Wr.of_id
    | split
    | dsimp only

theorem State.dramEcc_wr {m : Nat} {s0 : State} (s : State) (a1 : _) (a2 : _) (hm : subMask 0x500000000000000000000000000000000000000000000000000000000000000000000000000000000000000000000000000000000000000 m = true) (h : Wr m s0 s) : Wr m s0 (State.dramEcc s a1 a2) := by
  refine Wr.lift (f := 0x500000000000000000000000000000000000000000000000000000000000000000000000000000000000000000000000000000000000000) ?_ hm h
  unfold State.dramEcc
  repeat' first
    | exact rfl
    | (refine (?_ : _ = true); dsimp only [List.all]; exact rfl)
    | with_reducible exact Wr.refl _ _
    | with_reducible assumption
    | with_reducible apply Wr.of_keep (f := 272) (State.raise_keep (m := 272) _ _ rfl (Keep.refl _ _)) rfl
    | with_reducible apply State.inc_wr
    | with_reducible apply State.setReg_wr
    | with_reducible apply Wr.ite <;> intro _
    | with_reducible apply Wr.foldl <;> try intro _ _ _
    | with_reducible apply Wr.foldl_snd <;> try intro _ _ _
    | with_reducible refine Wr.of_snd ‹_ = (_, _)› ?_
    | with_reducible refine Wr.of_snd2 ‹_ = (_, _, _)› ?_
    | with_reducible apply Wr.of_id
    | split
    | dsimp only

theorem State.eccAt_wr {m : Nat} {s0 : State} (s : State) (a1 : _) (hm : subMask 0x500a00000000000000000000000000000000000000000000000000000000000000000000000000000000000000000000000000000000000 m = true) (h : Wr m s0 s) : Wr m s0 (State.eccAt s a1) := by
  refine Wr.lift (f := 0x500a00000000000000000000000000000000000000000000000000000000000000000000000000000000000000000000000000000000000) ?_ hm h
  unfold State.eccAt
  repeat' first
    | exact rfl
    | (refine (?_ : _ = true); dsimp only [List.all]; exact rfl)
    | with_reducible exact Wr.refl _ _
    | with_reducible assumption
    | with_reducible apply State.dramEcc_wr
    | with_reducible apply State.sramEcc_wr
    | with_reducible apply Wr.ite <;> intro _
    | with_reducible apply Wr.foldl <;> try intro _ _ _
    | with_reducible apply Wr.foldl_snd <;> try intro _ _ _
    | with_reducible refine Wr.of_snd ‹_ = (_, _)› ?_
    | with_reducible refine Wr.of_snd2 ‹_ = (_, _, _)› ?_
    | with_reducible apply Wr.of_id
    | split
    | dsimp only

theorem State.memRead_wr {m : Nat} {s0 : State} (s : State) (a1 : _) (a2 : _) (a3 : _) (hm : subMask 0x500a00000000000000000000000000000000000000000000000000000000000000000000000000000000000000000000000000000000000 m = true) (h : Wr m s0 s) : Wr m s0 (State.memRead s a1 a2 a3).2.2 := by
  refine Wr.lift (f := 0x500a00000000000000000000000000000000000000000000000000000000000000000000000000000000000000000000000000000000000) ?_ hm h
  unfold State.memRead
  repeat' first
    | exact rfl
    | (refine (?_ : _ = true); dsimp only [List.all]; exact rfl)
    | with_reducible exact Wr.refl _ _
    | with_reducible assumption
    | with_reducible apply State.eccAt_wr
    | with_reducible apply Wr.ite <;> intro _
    | with_reducible apply Wr.foldl <;> try intro _ _ _
    | with_reducible apply Wr.foldl_snd <;> try intro _ _ _
    | with_reducible refine Wr.of_snd ‹_ = (_, _)› ?_
    | with_reducible refine Wr.of_snd2 ‹_ = (_, _, _)› ?_
    | with_reducible apply Wr.of_id
    | split
    | dsimp only

theorem State.bufAlloc_wr {m : Nat} {s0 : State} (s : State) (a1 : _) (hm : subMask 0x4000000000000000000000000000000000000000000000000000000000000000000000000000000000000000000000000000000000000 m = true) (h : Wr m s0 s) : Wr m s0 (State.bufAlloc s a1).2 := by
  refine Wr.lift (f := 0x4000000000000000000000000000000000000000000000000000000000000000000000000000000000000000000000000000000000000) ?_ hm h
  unfold State.bufAlloc
  repeat' first
    | exact rfl
    | (refine (?_ : _ = true); dsimp only [List.all]; exact rfl)
    | with_reducible exact Wr.refl _ _
    | with_reducible assumption
    | with_reducible apply State.inc_wr
    | with_reducible apply Wr.ite <;> intro _
    | with_reducible apply Wr.foldl <;> try intro _ _ _
    | with_reducible apply Wr.foldl_snd <;> try intro _ _ _
    | (rewrite [State.mk_eq_updOf]; with_reducible refine Wr.node rfl rfl rfl ?_)
    | with_reducible refine Wr.of_snd ‹_ = (_, _)› ?_
    | with_reducible refine Wr.of_snd2 ‹_ = (_, _, _)› ?_
    | with_reducible apply Wr.of_id
    | split
    | dsimp only

theorem State.dramEnter_wr {m : Nat} {s0 : State} (s : State) (a1 : _) (a2 : _) (hm : subMask 0x2000000000000000000000000000000000000000000000000000000000000000000000000000000000000000000000000000000000000000 m = true) (h : Wr m s0 s) : Wr m s0 (State.dramEnter s a1 a2) := by
  refine Wr.lift (f := 0x2000000000000000000000000000000000000000000000000000000000000000000000000000000000000000000000000000000000000000) ?_ hm h
  unfold State.dramEnter
  repeat' first
    | exact rfl
    | (refine (?_ : _ = true); dsimp only [List.all]; exact rfl)
    | with_reducible exact Wr.refl _ _
    | with_reducible assumption
    | with_reducible apply Wr.of_keep (f := 65536) (State.chUpd_keep (m := 65536) _ _ _ rfl (Keep.refl _ _)) rfl
    | with_reducible apply State.inc_wr
    | with_reducible apply Wr.ite <;> intro _
    | with_reducible apply Wr.foldl <;> try intro _ _ _
    | with_reducible apply Wr.foldl_snd <;> try intro _ _ _
    | with_reducible refine Wr.of_snd ‹_ = (_, _)› ?_
    | with_reducible refine Wr.of_snd2 ‹_ = (_, _, _)› ?_
    | with_reducible apply Wr.of_id
    | split
    | dsimp only

theorem State.dramDisturb_wr {m : Nat} {s0 : State} (s : State) (a1 : _) (a2 : _) (a3 : _) (a4 : _) (hm : subMask 0xc080000000000000000000000000000000000000000000000000000000000000000000000000000000000000000000000000000000000000 m = true) (h : Wr m s0 s) : Wr m s0 (State.dramDisturb s a1 a2 a3 a4) := by
  refine Wr.lift (f := 0xc080000000000000000000000000000000000000000000000000000000000000000000000000000000000000000000000000000000000000) ?_ hm h
  unfold State.dramDisturb
  repeat' first
    | exact rfl
    | (refine (?_ : _ = true); dsimp only [List.all]; exact rfl)
    | with_reducible exact Wr.refl _ _
    | with_reducible assumption
    | with_reducible apply State.inc_wr
    | with_reducible apply State.setReg_wr
    | with_reducible apply Wr.of_keep (f := 65536) (State.chUpd_keep (m := 65536) _ _ _ rfl (Keep.refl _ _)) rfl
    | with_reducible apply Wr.of_keep (f := 272) (State.raise_keep (m := 272) _ _ rfl (Keep.refl _ _)) rfl
    | with_reducible apply Wr.ite <;> intro _
    | with_reducible apply Wr.foldl <;> try intro _ _ _
    | with_reducible apply Wr.foldl_snd <;> try intro _ _ _
    | with_reducible refine Wr.of_snd ‹_ = (_, _)› ?_
    | with_reducible refine Wr.of_snd2 ‹_ = (_, _, _)› ?_
    | with_reducible apply Wr.of_id
    | split
    | dsimp only

theorem State.dramActivate_wr {m : Nat} {s0 : State} (s : State) (a1 : _) (a2 : _) (hm : subMask 0xc080000000000000000000000000000000000000000000000000000000000000000000000000000000000000000000000000000000000000 m = true) (h : Wr m s0 s) : Wr m s0 (State.dramActivate s a1 a2) := by
  refine Wr.lift (f := 0xc080000000000000000000000000000000000000000000000000000000000000000000000000000000000000000000000000000000000000) ?_ hm h
  unfold State.dramActivate
  repeat' first
    | exact rfl
    | (refine (?_ : _ = true); dsimp only [List.all]; exact rfl)
    | with_reducible exact Wr.refl _ _
    | with_reducible assumption
    | with_reducible apply Wr.of_keep (f := 65536) (State.chUpd_keep (m := 65536) _ _ _ rfl (Keep.refl _ _)) rfl
    | with_reducible apply State.dramDisturb_wr
    | with_reducible apply Wr.ite <;> intro _
    | with_reducible apply Wr.foldl <;> try intro _ _ _
    | with_reducible apply Wr.foldl_snd <;> try intro _ _ _
    | with_reducible refine Wr.of_snd ‹_ = (_, _)› ?_
    | with_reducible refine Wr.of_snd2 ‹_ = (_, _, _)› ?_
    | with_reducible apply Wr.of_id
    | split
    | dsimp only

theorem State.dramIssue_wr {m : Nat} {s0 : State} (s : State) (a1 : _) (a2 : _) (hm : subMask 0xc080000000000000000000000000000000000000000000000000000000000000000000000000000000000000000000000000000000000000 m = true) (h : Wr m s0 s) : Wr m s0 (State.dramIssue s a1 a2) := by
  refine Wr.lift (f := 0xc080000000000000000000000000000000000000000000000000000000000000000000000000000000000000000000000000000000000000) ?_ hm h
  unfold State.dramIssue
  repeat' first
    | exact rfl
    | (refine (?_ : _ = true); dsimp only [List.all]; exact rfl)
    | with_reducible exact Wr.refl _ _
    | with_reducible assumption
    | with_reducible apply State.dramActivate_wr
    | with_reducible apply Wr.of_keep (f := 65536) (State.chUpd_keep (m := 65536) _ _ _ rfl (Keep.refl _ _)) rfl
    | with_reducible apply Wr.ite <;> intro _
    | with_reducible apply Wr.foldl <;> try intro _ _ _
    | with_reducible apply Wr.foldl_snd <;> try intro _ _ _
    | with_reducible refine Wr.of_snd ‹_ = (_, _)› ?_
    | with_reducible refine Wr.of_snd2 ‹_ = (_, _, _)› ?_
    | with_reducible apply Wr.of_id
    | split
    | dsimp only

theorem execSramScrub_wr (a0 : _) (a1 : _) (s : State) {t : State} (h : execSramScrub a0 a1 s = .next t) : Wr 0xe00000000000000000000000000000000000000000000000000000000000000000000000000000000000000000000000000000000000 s t := by
  unfold execSramScrub at h
  injection h with h
  subst h
  repeat' first
    | exact rfl
    | (refine (?_ : _ = true); dsimp only [List.all]; exact rfl)
    | with_reducible exact Wr.refl _ _
    | with_reducible assumption
    | with_reducible apply State.sramEcc_wr
    | with_reducible apply Wr.of_keep (f := 65536) (State.poison_keep (m := 65536) _ _ rfl (Keep.refl _ _)) rfl
    | with_reducible apply State.inc_wr
    | with_reducible apply Wr.ite <;> intro _
    | with_reducible apply Wr.foldl <;> try intro _ _ _
    | with_reducible apply Wr.foldl_snd <;> try intro _ _ _
    | with_reducible refine Wr.of_snd ‹_ = (_, _)› ?_
    | with_reducible refine Wr.of_snd2 ‹_ = (_, _, _)› ?_
    | with_reducible apply Wr.of_id
    | split
    | dsimp only

theorem execDramCommand_wr (a0 : _) (a1 : _) (a2 : _) (a3 : _) (s : State) {t : State} (h : execDramCommand a0 a1 a2 a3 s = .next t) : Wr 0xe780000000000000000000000000000000000000000000000000000000000000000000000000000000000000000000000000000000000000 s t := by
  unfold execDramCommand at h
  injection h with h
  subst h
  repeat' first
    | exact rfl
    | (refine (?_ : _ = true); dsimp only [List.all]; exact rfl)
    | with_reducible exact Wr.refl _ _
    | with_reducible assumption
    | with_reducible apply State.dramEnter_wr
    | with_reducible apply State.dramIssue_wr
    | with_reducible apply State.inc_wr
    | with_reducible apply State.dramEcc_wr
    | with_reducible apply Wr.ite <;> intro _
    | with_reducible apply Wr.foldl <;> try intro _ _ _
    | with_reducible apply Wr.foldl_snd <;> try intro _ _ _
    | with_reducible refine Wr.of_snd ‹_ = (_, _)› ?_
    | with_reducible refine Wr.of_snd2 ‹_ = (_, _, _)› ?_
    | with_reducible apply Wr.of_id
    | split
    | dsimp only

theorem execDmcPanic_wr (a0 : _) (a1 : _) (a2 : _) (a3 : _) (s : State) {t : State} (h : execDmcPanic a0 a1 a2 a3 s = .next t) : Wr 0x800000000000000000000000000000000000000000000000000000000000000000000000000000000000000000000000000000000000000 s t := by
  unfold execDmcPanic at h
  injection h with h
  subst h
  repeat' first
    | exact rfl
    | (refine (?_ : _ = true); dsimp only [List.all]; exact rfl)
    | with_reducible exact Wr.refl _ _
    | with_reducible assumption
    | with_reducible apply State.inc_wr
    | with_reducible apply Wr.of_keep (f := 65536) (State.chUpd_keep (m := 65536) _ _ _ rfl (Keep.refl _ _)) rfl
    | with_reducible apply Wr.ite <;> intro _
    | with_reducible apply Wr.foldl <;> try intro _ _ _
    | with_reducible apply Wr.foldl_snd <;> try intro _ _ _
    | with_reducible refine Wr.of_snd ‹_ = (_, _)› ?_
    | with_reducible refine Wr.of_snd2 ‹_ = (_, _, _)› ?_
    | with_reducible apply Wr.of_id
    | split
    | dsimp only

theorem execDmcRtStarve_wr (a0 : _) (a1 : _) (s : State) {t : State} (h : execDmcRtStarve a0 a1 s = .next t) : Wr 0x1000000000000000000000000000000000000000000000000000000000000000000000000000000000000000000000000000000000000000 s t := by
  unfold execDmcRtStarve at h
  injection h with h
  subst h
  repeat' first
    | exact rfl
    | (refine (?_ : _ = true); dsimp only [List.all]; exact rfl)
    | with_reducible exact Wr.refl _ _
    | with_reducible assumption
    | with_reducible apply Wr.of_keep (f := 272) (State.raise_keep (m := 272) _ _ rfl (Keep.refl _ _)) rfl
    | with_reducible apply State.inc_wr
    | with_reducible apply Wr.of_keep (f := 65536) (State.chUpd_keep (m := 65536) _ _ _ rfl (Keep.refl _ _)) rfl
    | with_reducible apply Wr.ite <;> intro _
    | with_reducible apply Wr.foldl <;> try intro _ _ _
    | with_reducible apply Wr.foldl_snd <;> try intro _ _ _
    | with_reducible refine Wr.of_snd ‹_ = (_, _)› ?_
    | with_reducible refine Wr.of_snd2 ‹_ = (_, _, _)› ?_
    | with_reducible apply Wr.of_id
    | split
    | dsimp only

end Sys2Proof.Machine
end

