-- ==== Sys2Proof/Laws/WrPlan.lean ====
section
/-! SUPPORT. The registers that each operation of Machine/Plan.lean may change. -/

set_option Elab.async false

namespace Sys2Proof.Machine

theorem State.setCur_wr {m : Nat} {s0 : State} (s : State) (a1 : _) (a2 : _) (hm : subMask 0x8000 m = true) (h : Wr m s0 s) : Wr m s0 (State.setCur s a1 a2) := by
  refine Wr.lift (f := 0x8000) ?_ hm h
  unfold State.setCur
  repeat' first
    | exact rfl
    | (refine (?_ : _ = true); dsimp only [List.all]; exact rfl)
    | with_reducible exact Wr.refl _ _
    | with_reducible assumption
    | with_reducible apply State.set_wr
    | with_reducible apply Wr.ite <;> intro _
    | with_reducible apply Wr.foldl <;> try intro _ _ _
    | with_reducible apply Wr.foldl_snd <;> try intro _ _ _
    | with_reducible refine Wr.of_snd ‹_ = (_, _)› ?_
    | with_reducible refine Wr.of_snd2 ‹_ = (_, _, _)› ?_
    | with_reducible apply Wr.of_id
    | split
    | dsimp only

theorem State.setChosen_wr {m : Nat} {s0 : State} (s : State) (a1 : _) (a2 : _) (hm : subMask 0x8000 m = true) (h : Wr m s0 s) : Wr m s0 (State.setChosen s a1 a2) := by
  refine Wr.lift (f := 0x8000) ?_ hm h
  unfold State.setChosen
  repeat' first
    | exact rfl
    | (refine (?_ : _ = true); dsimp only [List.all]; exact rfl)
    | with_reducible exact Wr.refl _ _
    | with_reducible assumption
    | with_reducible apply State.set_wr
    | with_reducible apply Wr.ite <;> intro _
    | with_reducible apply Wr.foldl <;> try intro _ _ _
    | with_reducible apply Wr.foldl_snd <;> try intro _ _ _
    | with_reducible refine Wr.of_snd ‹_ = (_, _)› ?_
    | with_reducible refine Wr.of_snd2 ‹_ = (_, _, _)› ?_
    | with_reducible apply Wr.of_id
    | split
    | dsimp only

end Sys2Proof.Machine
end

