-- ==== Sys2Proof/Laws/WrPkIn.lean ====
section
/-! SUPPORT. The registers that each operation of Machine/PkIn.lean may change. -/

set_option Elab.async false

namespace Sys2Proof.Machine

theorem State.ingress_wr {m : Nat} {s0 : State} (s : State) (a1 : _) (a2 : _) (a3 : _) (a4 : _) (a5 : _) (a6 : _) (a7 : _) (hm : subMask 0x4000000000000000000000000000000000000000000000000000000000000000 m = true) (h : Wr m s0 s) : Wr m s0 (State.ingress s a1 a2 a3 a4 a5 a6 a7) := by
  refine Wr.lift (f := 0x4000000000000000000000000000000000000000000000000000000000000000) ?_ hm h
  unfold State.ingress
  repeat' first
    | exact rfl
    | (refine (?_ : _ = true); dsimp only [List.all]; exact rfl)
    | with_reducible exact Wr.refl _ _
    | with_reducible assumption
    | with_reducible apply State.inc_wr
    | with_reducible apply Wr.of_keep (f := 33554449) (State.ingPause_keep (m := 33554449) _ _ rfl (Keep.refl _ _)) rfl
    | with_reducible apply Wr.of_keep (f := 33554432) (State.pkUpd_keep (m := 33554432) _ _ rfl (Keep.refl _ _)) rfl
    | with_reducible apply Wr.ite <;> intro _
    | with_reducible apply Wr.foldl <;> try intro _ _ _
    | with_reducible apply Wr.foldl_snd <;> try intro _ _ _
    | with_reducible refine Wr.of_snd ‹_ = (_, _)› ?_
    | with_reducible refine Wr.of_snd2 ‹_ = (_, _, _)› ?_
    | with_reducible apply Wr.of_id
    | split
    | dsimp only

end Sys2Proof.Machine
end

