-- ==== Sys2Proof/Laws/WrPhyOps.lean ====
section
/-! SUPPORT. The registers that each operation of Machine/PhyOps.lean may change. -/

set_option Elab.async false

namespace Sys2Proof.Machine

theorem State.ccaUpd_wr {m : Nat} {s0 : State} (s : State) (a1 : _) (hm : subMask 0x400000000000000000000000 m = true) (h : Wr m s0 s) : Wr m s0 (State.ccaUpd s a1) := by
  refine Wr.lift (f := 0x400000000000000000000000) ?_ hm h
  unfold State.ccaUpd
  repeat' first
    | exact rfl
    | (refine (?_ : _ = true); dsimp only [List.all]; exact rfl)
    | with_reducible exact Wr.refl _ _
    | with_reducible assumption
    | with_reducible apply Wr.of_keep (f := 2097152) (State.phyUpd_keep (m := 2097152) _ _ _ rfl (Keep.refl _ _)) rfl
    | with_reducible apply State.setReg_wr
    | with_reducible apply Wr.ite <;> intro _
    | with_reducible apply Wr.foldl <;> try intro _ _ _
    | with_reducible apply Wr.foldl_snd <;> try intro _ _ _
    | with_reducible refine Wr.of_snd ‹_ = (_, _)› ?_
    | with_reducible refine Wr.of_snd2 ‹_ = (_, _, _)› ?_
    | with_reducible apply Wr.of_id
    | split
    | dsimp only

theorem State.ccaExpire_wr {m : Nat} {s0 : State} (s : State) (a1 : _) (hm : subMask 0x400000000000000000000000 m = true) (h : Wr m s0 s) : Wr m s0 (State.ccaExpire s a1) := by
  refine Wr.lift (f := 0x400000000000000000000000) ?_ hm h
  unfold State.ccaExpire
  repeat' first
    | exact rfl
    | (refine (?_ : _ = true); dsimp only [List.all]; exact rfl)
    | with_reducible exact Wr.refl _ _
    | with_reducible assumption
    | with_reducible apply State.ccaUpd_wr
    | with_reducible apply Wr.of_keep (f := 2097152) (State.phyUpd_keep (m := 2097152) _ _ _ rfl (Keep.refl _ _)) rfl
    | with_reducible apply Wr.ite <;> intro _
    | with_reducible apply Wr.foldl <;> try intro _ _ _
    | with_reducible apply Wr.foldl_snd <;> try intro _ _ _
    | with_reducible refine Wr.of_snd ‹_ = (_, _)› ?_
    | with_reducible refine Wr.of_snd2 ‹_ = (_, _, _)› ?_
    | with_reducible apply Wr.of_id
    | split
    | dsimp only

theorem State.phyDo_wr {m : Nat} {s0 : State} (s : State) (a1 : _) (a2 : _) (hf : ∀ t, Wr m s0 t → Wr m s0 (a2 t)) (hm : subMask 0x400000000000000000000000 m = true) (h : Wr m s0 s) : Wr m s0 (State.phyDo s a1 a2) := by
  unfold State.phyDo
  repeat' first
    | exact rfl
    | (refine (?_ : _ = true); dsimp only [List.all]; exact rfl)
    | exact subMask_trans rfl hm
    | exact subMask_bit hm rfl
    | with_reducible refine hf _ ?_
    | with_reducible exact Wr.refl _ _
    | with_reducible assumption
    | with_reducible apply State.ccaUpd_wr
    | with_reducible apply State.ccaExpire_wr
    | with_reducible apply Wr.ite <;> intro _
    | with_reducible apply Wr.foldl <;> try intro _ _ _
    | with_reducible apply Wr.foldl_snd <;> try intro _ _ _
    | with_reducible refine Wr.of_snd ‹_ = (_, _)› ?_
    | with_reducible refine Wr.of_snd2 ‹_ = (_, _, _)› ?_
    | with_reducible apply Wr.of_id
    | split
    | dsimp only

theorem State.falseStart_wr {m : Nat} {s0 : State} (s : State) (a1 : _) (hm : subMask 0x22000000000000000000000000 m = true) (h : Wr m s0 s) : Wr m s0 (State.falseStart s a1) := by
  refine Wr.lift (f := 0x22000000000000000000000000) ?_ hm h
  unfold State.falseStart
  repeat' first
    | exact rfl
    | (refine (?_ : _ = true); dsimp only [List.all]; exact rfl)
    | with_reducible exact Wr.refl _ _
    | with_reducible assumption
    | with_reducible apply Wr.of_keep (f := 2097152) (State.phyUpd_keep (m := 2097152) _ _ _ rfl (Keep.refl _ _)) rfl
    | with_reducible apply State.inc_wr
    | with_reducible apply Wr.ite <;> intro _
    | with_reducible apply Wr.foldl <;> try intro _ _ _
    | with_reducible apply Wr.foldl_snd <;> try intro _ _ _
    | with_reducible refine Wr.of_snd ‹_ = (_, _)› ?_
    | with_reducible refine Wr.of_snd2 ‹_ = (_, _, _)› ?_
    | with_reducible apply Wr.of_id
    | split
    | dsimp only

theorem State.phyAbort_wr {m : Nat} {s0 : State} (s : State) (a1 : _) (a2 : _) (hm : subMask 0x62000000000000000000000000 m = true) (h : Wr m s0 s) : Wr m s0 (State.phyAbort s a1 a2) := by
  refine Wr.lift (f := 0x62000000000000000000000000) ?_ hm h
  unfold State.phyAbort
  repeat' first
    | exact rfl
    | (refine (?_ : _ = true); dsimp only [List.all]; exact rfl)
    | with_reducible exact Wr.refl _ _
    | with_reducible assumption
    | with_reducible apply State.falseStart_wr
    | with_reducible apply State.inc_wr
    | with_reducible apply Wr.of_keep (f := 2097152) (State.phyUpd_keep (m := 2097152) _ _ _ rfl (Keep.refl _ _)) rfl
    | with_reducible apply Wr.ite <;> intro _
    | with_reducible apply Wr.foldl <;> try intro _ _ _
    | with_reducible apply Wr.foldl_snd <;> try intro _ _ _
    | with_reducible refine Wr.of_snd ‹_ = (_, _)› ?_
    | with_reducible refine Wr.of_snd2 ‹_ = (_, _, _)› ?_
    | with_reducible apply Wr.of_id
    | split
    | dsimp only

theorem State.phySend_wr {m : Nat} {s0 : State} (s : State) (a1 : _) (hm : subMask 0x62400000000000000000000000 m = true) (h : Wr m s0 s) : Wr m s0 (State.phySend s a1) := by
  refine Wr.lift (f := 0x62400000000000000000000000) ?_ hm h
  unfold State.phySend
  repeat' first
    | exact rfl
    | (refine (?_ : _ = true); dsimp only [List.all]; exact rfl)
    | with_reducible exact Wr.refl _ _
    | with_reducible assumption
    | with_reducible refine State.phyDo_wr _ _ _ (fun _ _ => ?_) ?_ ?_
    | with_reducible apply Wr.of_keep (f := 2097152) (State.phyUpd_keep (m := 2097152) _ _ _ rfl (Keep.refl _ _)) rfl
    | with_reducible apply State.phyAbort_wr
    | with_reducible apply Wr.ite <;> intro _
    | with_reducible apply Wr.foldl <;> try intro _ _ _
    | with_reducible apply Wr.foldl_snd <;> try intro _ _ _
    | with_reducible refine Wr.of_snd ‹_ = (_, _)› ?_
    | with_reducible refine Wr.of_snd2 ‹_ = (_, _, _)› ?_
    | with_reducible apply Wr.of_id
    | split
    | dsimp only

theorem State.phyLose_wr {m : Nat} {s0 : State} (s : State) (a1 : _) (hm : subMask 0x62400000000000000000000000 m = true) (h : Wr m s0 s) : Wr m s0 (State.phyLose s a1) := by
  refine Wr.lift (f := 0x62400000000000000000000000) ?_ hm h
  unfold State.phyLose
  repeat' first
    | exact rfl
    | (refine (?_ : _ = true); dsimp only [List.all]; exact rfl)
    | with_reducible exact Wr.refl _ _
    | with_reducible assumption
    | with_reducible refine State.phyDo_wr _ _ _ (fun _ _ => ?_) ?_ ?_
    | with_reducible apply State.phyAbort_wr
    | with_reducible apply Wr.of_keep (f := 2097152) (State.phyUpd_keep (m := 2097152) _ _ _ rfl (Keep.refl _ _)) rfl
    | with_reducible apply Wr.ite <;> intro _
    | with_reducible apply Wr.foldl <;> try intro _ _ _
    | with_reducible apply Wr.foldl_snd <;> try intro _ _ _
    | with_reducible refine Wr.of_snd ‹_ = (_, _)› ?_
    | with_reducible refine Wr.of_snd2 ‹_ = (_, _, _)› ?_
    | with_reducible apply Wr.of_id
    | split
    | dsimp only

theorem State.setDfs_wr {m : Nat} {s0 : State} (s : State) (a1 : _) (a2 : _) (a3 : _) (hm : subMask 0x200000000000000000000000000000 m = true) (h : Wr m s0 s) : Wr m s0 (State.setDfs s a1 a2 a3) := by
  refine Wr.lift (f := 0x200000000000000000000000000000) ?_ hm h
  unfold State.setDfs
  repeat' first
    | exact rfl
    | (refine (?_ : _ = true); dsimp only [List.all]; exact rfl)
    | with_reducible exact Wr.refl _ _
    | with_reducible assumption
    | with_reducible apply State.setReg_wr
    | with_reducible apply Wr.ite <;> intro _
    | with_reducible apply Wr.foldl <;> try intro _ _ _
    | with_reducible apply Wr.foldl_snd <;> try intro _ _ _
    | with_reducible refine Wr.of_snd ‹_ = (_, _)› ?_
    | with_reducible refine Wr.of_snd2 ‹_ = (_, _, _)› ?_
    | with_reducible apply Wr.of_id
    | split
    | dsimp only

theorem State.dfsStop_wr {m : Nat} {s0 : State} (s : State) (a1 : _) (hm : subMask 0x200000000000000000000000000000 m = true) (h : Wr m s0 s) : Wr m s0 (State.dfsStop s a1) := by
  refine Wr.lift (f := 0x200000000000000000000000000000) ?_ hm h
  unfold State.dfsStop
  repeat' first
    | exact rfl
    | (refine (?_ : _ = true); dsimp only [List.all]; exact rfl)
    | with_reducible exact Wr.refl _ _
    | with_reducible assumption
    | with_reducible apply State.setDfs_wr
    | with_reducible apply Wr.ite <;> intro _
    | with_reducible apply Wr.foldl <;> try intro _ _ _
    | with_reducible apply Wr.foldl_snd <;> try intro _ _ _
    | with_reducible refine Wr.of_snd ‹_ = (_, _)› ?_
    | with_reducible refine Wr.of_snd2 ‹_ = (_, _, _)› ?_
    | with_reducible apply Wr.of_id
    | split
    | dsimp only

theorem State.dfsRestore_wr {m : Nat} {s0 : State} (s : State) (hm : subMask 0x200000000000000000000000000000 m = true) (h : Wr m s0 s) : Wr m s0 (State.dfsRestore s) := by
  refine Wr.lift (f := 0x200000000000000000000000000000) ?_ hm h
  unfold State.dfsRestore
  repeat' first
    | exact rfl
    | (refine (?_ : _ = true); dsimp only [List.all]; exact rfl)
    | with_reducible exact Wr.refl _ _
    | with_reducible assumption
    | with_reducible apply State.setDfs_wr
    | with_reducible apply Wr.of_keep (f := 2097152) (State.phyUpd_keep (m := 2097152) _ _ _ rfl (Keep.refl _ _)) rfl
    | with_reducible apply Wr.ite <;> intro _
    | with_reducible apply Wr.foldl <;> try intro _ _ _
    | with_reducible apply Wr.foldl_snd <;> try intro _ _ _
    | with_reducible refine Wr.of_snd ‹_ = (_, _)› ?_
    | with_reducible refine Wr.of_snd2 ‹_ = (_, _, _)› ?_
    | with_reducible apply Wr.of_id
    | split
    | dsimp only

theorem State.pathsCheck_wr {m : Nat} {s0 : State} (s : State) (hm : subMask 0x200000000000000000000000000000 m = true) (h : Wr m s0 s) : Wr m s0 (State.pathsCheck s) := by
  refine Wr.lift (f := 0x200000000000000000000000000000) ?_ hm h
  unfold State.pathsCheck
  repeat' first
    | exact rfl
    | (refine (?_ : _ = true); dsimp only [List.all]; exact rfl)
    | with_reducible exact Wr.refl _ _
    | with_reducible assumption
    | with_reducible apply Wr.of_keep (f := 4194304) (State.wacLine_keep (m := 4194304) _ rfl (Keep.refl _ _)) rfl
    | with_reducible apply Wr.of_keep (f := 4194304) (State.wlinksStop_keep (m := 4194304) _ rfl (Keep.refl _ _)) rfl
    | with_reducible apply Wr.of_keep (f := 4194304) (State.setWfld_keep (m := 4194304) _ _ _ _ _ _ rfl (Keep.refl _ _)) rfl
    | with_reducible apply Wr.of_keep (f := 4194304) (State.wlinkUpd_keep (m := 4194304) _ _ _ rfl (Keep.refl _ _)) rfl
    | with_reducible apply Wr.of_keep (f := 272) (State.raise_keep (m := 272) _ _ rfl (Keep.refl _ _)) rfl
    | with_reducible apply State.dfsStop_wr
    | with_reducible apply Wr.ite <;> intro _
    | with_reducible apply Wr.foldl <;> try intro _ _ _
    | with_reducible apply Wr.foldl_snd <;> try intro _ _ _
    | with_reducible refine Wr.of_snd ‹_ = (_, _)› ?_
    | with_reducible refine Wr.of_snd2 ‹_ = (_, _, _)› ?_
    | with_reducible apply Wr.of_id
    | split
    | dsimp only

end Sys2Proof.Machine
end

