-- ==== Sys2Proof/Laws/WrChain.lean ====
section
/-! SUPPORT. The registers that each operation of Machine/Chain.lean may change. -/

set_option Elab.async false

namespace Sys2Proof.Machine

theorem State.txRadiate_wr {m : Nat} {s0 : State} (s : State) (a1 : _) (a2 : _) (a3 : _) (a4 : _) (hm : subMask 0x40080000000000 m = true) (h : Wr m s0 s) : Wr m s0 (State.txRadiate s a1 a2 a3 a4) := by
  refine Wr.lift (f := 0x40080000000000) ?_ hm h
  unfold State.txRadiate
  repeat' first
    | exact rfl
    | (refine (?_ : _ = true); dsimp only [List.all]; exact rfl)
    | with_reducible exact Wr.refl _ _
    | with_reducible assumption
    | with_reducible apply State.incBy_wr
    | with_reducible apply Wr.of_keep (f := 16) (State.emit_keep (m := 16) _ _ _ _ rfl (Keep.refl _ _)) rfl
    | with_reducible apply Wr.ite <;> intro _
    | with_reducible apply Wr.foldl <;> try intro _ _ _
    | with_reducible apply Wr.foldl_snd <;> try intro _ _ _
    | with_reducible refine Wr.of_snd ‹_ = (_, _)› ?_
    | with_reducible refine Wr.of_snd2 ‹_ = (_, _, _)› ?_
    | with_reducible apply Wr.of_id
    | split
    | dsimp only

end Sys2Proof.Machine
end

