-- ==== Sys2Proof/Laws/WrQuad.lean ====
section
/-! SUPPORT. The registers that each operation of Machine/Quad.lean may change. -/

set_option Elab.async false

namespace Sys2Proof.Machine

theorem State.txLeave_wr {m : Nat} {s0 : State} (s : State) (a1 : _) (hm : subMask 0x40080000000000 m = true) (h : Wr m s0 s) : Wr m s0 (State.txLeave s a1) := by
  refine Wr.lift (f := 0x40080000000000) ?_ hm h
  unfold State.txLeave
  repeat' first
    | exact rfl
    | (refine (?_ : _ = true); dsimp only [List.all]; exact rfl)
    | with_reducible exact Wr.refl _ _
    | with_reducible assumption
    | with_reducible apply Wr.of_keep (f := 1048576) (State.pathUpd_keep (m := 1048576) _ _ _ rfl (Keep.refl _ _)) rfl
    | with_reducible apply Wr.of_keep (f := 1048576) (State.radUpd_keep (m := 1048576) _ _ rfl (Keep.refl _ _)) rfl
    | with_reducible apply State.txRadiate_wr
    | with_reducible apply Wr.ite <;> intro _
    | with_reducible apply Wr.foldl <;> try intro _ _ _
    | with_reducible apply Wr.foldl_snd <;> try intro _ _ _
    | with_reducible refine Wr.of_snd ‹_ = (_, _)› ?_
    | with_reducible refine Wr.of_snd2 ‹_ = (_, _, _)› ?_
    | with_reducible apply Wr.of_id
    | split
    | dsimp only

theorem State.pathFault_wr {m : Nat} {s0 : State} (s : State) (a1 : _) (a2 : _) (hm : subMask 0x200062400000000040081000000000 m = true) (h : Wr m s0 s) : Wr m s0 (State.pathFault s a1 a2) := by
  refine Wr.lift (f := 0x200062400000000040081000000000) ?_ hm h
  unfold State.pathFault
  repeat' first
    | exact rfl
    | (refine (?_ : _ = true); dsimp only [List.all]; exact rfl)
    | with_reducible exact Wr.refl _ _
    | with_reducible assumption
    | with_reducible apply State.txLeave_wr
    | with_reducible apply Wr.of_keep (f := 1048576) (State.pathUpd_keep (m := 1048576) _ _ _ rfl (Keep.refl _ _)) rfl
    | with_reducible apply State.pathsCheck_wr
    | with_reducible apply State.phyLose_wr
    | with_reducible apply State.inc_wr
    | with_reducible apply Wr.ite <;> intro _
    | with_reducible apply Wr.foldl <;> try intro _ _ _
    | with_reducible apply Wr.foldl_snd <;> try intro _ _ _
    | with_reducible refine Wr.of_snd ‹_ = (_, _)› ?_
    | with_reducible refine Wr.of_snd2 ‹_ = (_, _, _)› ?_
    | with_reducible apply Wr.of_id
    | split
    | dsimp only

theorem State.pathClear_wr {m : Nat} {s0 : State} (s : State) (a1 : _) (a2 : _) (hm : subMask 0x200000000000000000000000000000 m = true) (h : Wr m s0 s) : Wr m s0 (State.pathClear s a1 a2) := by
  refine Wr.lift (f := 0x200000000000000000000000000000) ?_ hm h
  unfold State.pathClear
  repeat' first
    | exact rfl
    | (refine (?_ : _ = true); dsimp only [List.all]; exact rfl)
    | with_reducible exact Wr.refl _ _
    | with_reducible assumption
    | with_reducible apply Wr.of_keep (f := 1048576) (State.pathUpd_keep (m := 1048576) _ _ _ rfl (Keep.refl _ _)) rfl
    | with_reducible apply State.pathsCheck_wr
    | with_reducible apply Wr.of_keep (f := 1048576) (State.gateOpens_keep (m := 1048576) _ _ _ rfl (Keep.refl _ _)) rfl
    | with_reducible apply Wr.ite <;> intro _
    | with_reducible apply Wr.foldl <;> try intro _ _ _
    | with_reducible apply Wr.foldl_snd <;> try intro _ _ _
    | with_reducible refine Wr.of_snd ‹_ = (_, _)› ?_
    | with_reducible refine Wr.of_snd2 ‹_ = (_, _, _)› ?_
    | with_reducible apply Wr.of_id
    | split
    | dsimp only

theorem State.loTune_wr {m : Nat} {s0 : State} (s : State) (a1 : _) (a2 : _) (a3 : _) (hm : subMask 0xc0000 m = true) (h : Wr m s0 s) : Wr m s0 (State.loTune s a1 a2 a3) := by
  refine Wr.lift (f := 0xc0000) ?_ hm h
  unfold State.loTune
  repeat' first
    | exact rfl
    | (refine (?_ : _ = true); dsimp only [List.all]; exact rfl)
    | with_reducible exact Wr.refl _ _
    | with_reducible assumption
    | with_reducible apply Wr.of_keep (f := 1048576) (State.synUpd_keep (m := 1048576) _ _ _ _ rfl (Keep.refl _ _)) rfl
    | with_reducible apply State.set_wr
    | with_reducible apply State.setReg_wr
    | with_reducible apply Wr.ite <;> intro _
    | with_reducible apply Wr.foldl <;> try intro _ _ _
    | with_reducible apply Wr.foldl_snd <;> try intro _ _ _
    | with_reducible refine Wr.of_snd ‹_ = (_, _)› ?_
    | with_reducible refine Wr.of_snd2 ‹_ = (_, _, _)› ?_
    | with_reducible apply Wr.of_id
    | split
    | dsimp only

theorem State.setBeamStat_wr {m : Nat} {s0 : State} (s : State) (a1 : _) (hm : subMask 0x800000000000 m = true) (h : Wr m s0 s) : Wr m s0 (State.setBeamStat s a1) := by
  refine Wr.lift (f := 0x800000000000) ?_ hm h
  unfold State.setBeamStat
  repeat' first
    | exact rfl
    | (refine (?_ : _ = true); dsimp only [List.all]; exact rfl)
    | with_reducible exact Wr.refl _ _
    | with_reducible assumption
    | with_reducible apply State.sets_wr
    | with_reducible apply Wr.ite <;> intro _
    | with_reducible apply Wr.foldl <;> try intro _ _ _
    | with_reducible apply Wr.foldl_snd <;> try intro _ _ _
    | (rewrite [State.mk_eq_updOf]; with_reducible refine Wr.node rfl rfl rfl ?_)
    | with_reducible refine Wr.of_snd ‹_ = (_, _)› ?_
    | with_reducible refine Wr.of_snd2 ‹_ = (_, _, _)› ?_
    | with_reducible apply Wr.of_id
    | split
    | dsimp only

theorem State.takeStack_wr {m : Nat} {s0 : State} (s : State) (a1 : _) (a2 : _) (hm : subMask 0x208000000c8000 m = true) (h : Wr m s0 s) : Wr m s0 (State.takeStack s a1 a2) := by
  refine Wr.lift (f := 0x208000000c8000) ?_ hm h
  unfold State.takeStack
  repeat' first
    | exact rfl
    | (refine (?_ : _ = true); dsimp only [List.all]; exact rfl)
    | with_reducible exact Wr.refl _ _
    | with_reducible assumption
    | with_reducible apply State.setCur_wr
    | with_reducible apply State.loTune_wr
    | with_reducible apply Wr.of_keep (f := 1048576) (State.quadUpd_keep (m := 1048576) _ _ _ rfl (Keep.refl _ _)) rfl
    | with_reducible apply State.set_wr
    | with_reducible refine State.unhold_wr _ _ _ (fun _ _ _ _ => ?_) ?_
    | with_reducible apply Wr.of_keep (f := 16) (State.stackWrites_keep (m := 16) _ _ _ rfl (Keep.refl _ _)) rfl
    | with_reducible apply State.setBeamStat_wr
    | with_reducible apply Wr.ite <;> intro _
    | with_reducible apply Wr.foldl <;> try intro _ _ _
    | with_reducible apply Wr.foldl_snd <;> try intro _ _ _
    | with_reducible refine Wr.of_snd ‹_ = (_, _)› ?_
    | with_reducible refine Wr.of_snd2 ‹_ = (_, _, _)› ?_
    | with_reducible apply Wr.of_id
    | split
    | dsimp only

theorem wrQuad_PATH_CTL_wr {m : Nat} {s0 : State} (x0 : Nat) (x1 : Nat) (x2 : Nat) (v : Word) (rq : Req) (s : State) (hm : subMask 0x200000000000000040080000010000 m = true) (h : Wr m s0 s) : Wr m s0 (wrQuad .PATH_CTL [x0, x1, x2] v rq s) := by
  refine Wr.lift (f := 0x200000000000000040080000010000) ?_ hm h
  unfold wrQuad
  repeat' first
    | exact rfl
    | (refine (?_ : _ = true); dsimp only [List.all]; exact rfl)
    | with_reducible exact Wr.refl _ _
    | with_reducible assumption
    | contradiction
    | with_reducible apply State.pathClear_wr
    | with_reducible apply State.txLeave_wr
    | with_reducible apply storeWord_wr
    | with_reducible apply Wr.of_keep (f := 1048576) (State.gateOpens_keep (m := 1048576) _ _ _ rfl (Keep.refl _ _)) rfl
    | with_reducible apply Wr.ite <;> intro _
    | with_reducible apply Wr.foldl <;> try intro _ _ _
    | with_reducible apply Wr.foldl_snd <;> try intro _ _ _
    | with_reducible refine Wr.of_snd ‹_ = (_, _)› ?_
    | with_reducible refine Wr.of_snd2 ‹_ = (_, _, _)› ?_
    | with_reducible apply Wr.of_id
    | split
    | dsimp only

theorem wrQuad_FEN_RFFE_CMD_wr {m : Nat} {s0 : State} (x0 : Nat) (v : Word) (rq : Req) (s : State) (hm : subMask 0 m = true) (h : Wr m s0 s) : Wr m s0 (wrQuad .FEN_RFFE_CMD [x0] v rq s) := by
  refine Wr.lift (f := 0) ?_ hm h
  unfold wrQuad
  repeat' first
    | exact rfl
    | (refine (?_ : _ = true); dsimp only [List.all]; exact rfl)
    | with_reducible exact Wr.refl _ _
    | with_reducible assumption
    | contradiction
    | with_reducible apply Wr.of_keep (f := 1048576) (State.quadUpd_keep (m := 1048576) _ _ _ rfl (Keep.refl _ _)) rfl
    | with_reducible apply Wr.ite <;> intro _
    | with_reducible apply Wr.foldl <;> try intro _ _ _
    | with_reducible apply Wr.foldl_snd <;> try intro _ _ _
    | with_reducible refine Wr.of_snd ‹_ = (_, _)› ?_
    | with_reducible refine Wr.of_snd2 ‹_ = (_, _, _)› ?_
    | with_reducible apply Wr.of_id
    | split
    | dsimp only

theorem wrQuad_FEN_RFFE_CFG_wr {m : Nat} {s0 : State} (x0 : Nat) (v : Word) (rq : Req) (s : State) (hm : subMask 0x200000000000000000000001000000 m = true) (h : Wr m s0 s) : Wr m s0 (wrQuad .FEN_RFFE_CFG [x0] v rq s) := by
  refine Wr.lift (f := 0x200000000000000000000001000000) ?_ hm h
  unfold wrQuad
  repeat' first
    | exact rfl
    | (refine (?_ : _ = true); dsimp only [List.all]; exact rfl)
    | with_reducible exact Wr.refl _ _
    | with_reducible assumption
    | contradiction
    | with_reducible apply Wr.of_keep (f := 16) (State.stackWrites_keep (m := 16) _ _ _ rfl (Keep.refl _ _)) rfl
    | with_reducible apply State.pathClear_wr
    | with_reducible apply storeWord_wr
    | with_reducible apply Wr.ite <;> intro _
    | with_reducible apply Wr.foldl <;> try intro _ _ _
    | with_reducible apply Wr.foldl_snd <;> try intro _ _ _
    | with_reducible refine Wr.of_snd ‹_ = (_, _)› ?_
    | with_reducible refine Wr.of_snd2 ‹_ = (_, _, _)› ?_
    | with_reducible apply Wr.of_id
    | split
    | dsimp only

theorem rdQuad_FEN_RFFE_RSP_wr {m : Nat} {s0 : State} (x0 : Nat) (rq : Req) (s : State) (hm : subMask 0 m = true) (h : Wr m s0 s) : Wr m s0 (rdQuad .FEN_RFFE_RSP [x0] rq s).2 := by
  refine Wr.lift (f := 0) ?_ hm h
  unfold rdQuad
  repeat' first
    | exact rfl
    | (refine (?_ : _ = true); dsimp only [List.all]; exact rfl)
    | with_reducible exact Wr.refl _ _
    | with_reducible assumption
    | contradiction
    | with_reducible apply Wr.of_keep (f := 1048576) (State.quadUpd_keep (m := 1048576) _ _ _ rfl (Keep.refl _ _)) rfl
    | with_reducible apply loadWord_wr
    | with_reducible apply Wr.ite <;> intro _
    | with_reducible apply Wr.foldl <;> try intro _ _ _
    | with_reducible apply Wr.foldl_snd <;> try intro _ _ _
    | with_reducible refine Wr.of_snd ‹_ = (_, _)› ?_
    | with_reducible refine Wr.of_snd2 ‹_ = (_, _, _)› ?_
    | with_reducible apply Wr.of_id
    | split
    | dsimp only

theorem execPfClr_wr (a0 : _) (a1 : _) (a2 : _) (a3 : _) (s : State) (ha1 : a1 < 4) (ha2 : a2 < 16) {t : State} (h : execPfClr a0 a1 a2 a3 s = .next t) : Wr 0x40000f000000000000000000000000000000000000000000000000000000000000000000000000000000000000000000000200000000000000040080000010000 s t := by
  unfold execPfClr at h
  injection h with h
  subst h
  repeat' first
    | exact rfl
    | (refine (?_ : _ = true); dsimp only [List.all]; exact rfl)
    | with_reducible exact Wr.refl _ _
    | with_reducible assumption
    | with_reducible refine writeReg_wr (r0 := .PATH_CTL) ((show ∀ q, q < 4 → ∀ p, p < 16 → findReg (Reg.addr .PATH_CTL [q, p / 8, p % 8]) = some (.PATH_CTL, [q, p / 8, p % 8]) by decide +kernel) a1 ha1 a2 ha2) (fun _ _ => ?_) ?_ ?_
    | with_reducible apply wrQuad_PATH_CTL_wr
    | with_reducible apply Wr.ite <;> intro _
    | with_reducible apply Wr.foldl <;> try intro _ _ _
    | with_reducible apply Wr.foldl_snd <;> try intro _ _ _
    | with_reducible refine Wr.of_snd ‹_ = (_, _)› ?_
    | with_reducible refine Wr.of_snd2 ‹_ = (_, _, _)› ?_
    | with_reducible apply Wr.of_id
    | split
    | dsimp only

theorem execLoLock_wr (a0 : _) (a1 : _) (s : State) {t : State} (h : execLoLock a0 a1 s = .next t) : Wr 0x40000 s t := by
  unfold execLoLock at h
  injection h with h
  subst h
  repeat' first
    | exact rfl
    | (refine (?_ : _ = true); dsimp only [List.all]; exact rfl)
    | with_reducible exact Wr.refl _ _
    | with_reducible assumption
    | with_reducible apply Wr.of_keep (f := 1048576) (State.gateOpens_keep (m := 1048576) _ _ _ rfl (Keep.refl _ _)) rfl
    | with_reducible apply Wr.of_keep (f := 1048576) (State.synUpd_keep (m := 1048576) _ _ _ _ rfl (Keep.refl _ _)) rfl
    | with_reducible apply State.sets_wr
    | with_reducible apply Wr.ite <;> intro _
    | with_reducible apply Wr.foldl <;> try intro _ _ _
    | with_reducible apply Wr.foldl_snd <;> try intro _ _ _
    | with_reducible refine Wr.of_snd ‹_ = (_, _)› ?_
    | with_reducible refine Wr.of_snd2 ‹_ = (_, _, _)› ?_
    | with_reducible apply Wr.of_id
    | split
    | dsimp only

theorem execLoRestart_wr (a0 : _) (a1 : _) (s : State) {t : State} (h : execLoRestart a0 a1 s = .next t) : Wr 0x200062400000000040081000040000 s t := by
  unfold execLoRestart at h
  injection h with h
  subst h
  repeat' first
    | exact rfl
    | (refine (?_ : _ = true); dsimp only [List.all]; exact rfl)
    | with_reducible exact Wr.refl _ _
    | with_reducible assumption
    | with_reducible apply Wr.of_keep (f := 1048576) (State.synUpd_keep (m := 1048576) _ _ _ _ rfl (Keep.refl _ _)) rfl
    | with_reducible apply State.setReg_wr
    | with_reducible apply Wr.of_keep (f := 272) (State.raise_keep (m := 272) _ _ rfl (Keep.refl _ _)) rfl
    | with_reducible apply State.pathFault_wr
    | with_reducible apply Wr.ite <;> intro _
    | with_reducible apply Wr.foldl <;> try intro _ _ _
    | with_reducible apply Wr.foldl_snd <;> try intro _ _ _
    | with_reducible refine Wr.of_snd ‹_ = (_, _)› ?_
    | with_reducible refine Wr.of_snd2 ‹_ = (_, _, _)› ?_
    | with_reducible apply Wr.of_id
    | split
    | dsimp only

theorem State.ebufsCentre_wr {m : Nat} {s0 : State} (s : State) (a1 : _) (a2 : _) (hm : subMask 8 m = true) (h : Wr m s0 s) : Wr m s0 (State.ebufsCentre s a1 a2) := by
  refine Wr.lift (f := 8) ?_ hm h
  unfold State.ebufsCentre
  repeat' first
    | exact rfl
    | (refine (?_ : _ = true); dsimp only [List.all]; exact rfl)
    | with_reducible exact Wr.refl _ _
    | with_reducible assumption
    | with_reducible apply Wr.of_keep (f := 1048576) (State.radUpd_keep (m := 1048576) _ _ rfl (Keep.refl _ _)) rfl
    | with_reducible apply Wr.of_keep (f := 1048576) (State.quadUpd_keep (m := 1048576) _ _ _ rfl (Keep.refl _ _)) rfl
    | with_reducible apply State.setReg_wr
    | with_reducible apply Wr.ite <;> intro _
    | with_reducible apply Wr.foldl <;> try intro _ _ _
    | with_reducible apply Wr.foldl_snd <;> try intro _ _ _
    | (rewrite [State.mk_eq_updOf]; with_reducible refine Wr.node rfl rfl rfl ?_)
    | with_reducible refine Wr.of_snd ‹_ = (_, _)› ?_
    | with_reducible refine Wr.of_snd2 ‹_ = (_, _, _)› ?_
    | with_reducible apply Wr.of_id
    | split
    | dsimp only

theorem State.ebufSlip_wr {m : Nat} {s0 : State} (s : State) (a1 : _) (a2 : _) (hm : subMask 0x18 m = true) (h : Wr m s0 s) : Wr m s0 (State.ebufSlip s a1 a2) := by
  refine Wr.lift (f := 0x18) ?_ hm h
  unfold State.ebufSlip
  repeat' first
    | exact rfl
    | (refine (?_ : _ = true); dsimp only [List.all]; exact rfl)
    | with_reducible exact Wr.refl _ _
    | with_reducible assumption
    | with_reducible apply Wr.of_keep (f := 272) (State.raise_keep (m := 272) _ _ rfl (Keep.refl _ _)) rfl
    | with_reducible apply State.inc_wr
    | with_reducible apply State.set_wr
    | with_reducible apply Wr.of_keep (f := 16) (State.airSilent_keep (m := 16) _ _ rfl (Keep.refl _ _)) rfl
    | with_reducible apply Wr.ite <;> intro _
    | with_reducible apply Wr.foldl <;> try intro _ _ _
    | with_reducible apply Wr.foldl_snd <;> try intro _ _ _
    | with_reducible refine Wr.of_snd ‹_ = (_, _)› ?_
    | with_reducible refine Wr.of_snd2 ‹_ = (_, _, _)› ?_
    | with_reducible apply Wr.of_id
    | split
    | dsimp only

theorem State.ebufsSlip_wr {m : Nat} {s0 : State} (s : State) (hm : subMask 0x18 m = true) (h : Wr m s0 s) : Wr m s0 (State.ebufsSlip s) := by
  refine Wr.lift (f := 0x18) ?_ hm h
  unfold State.ebufsSlip
  repeat' first
    | exact rfl
    | (refine (?_ : _ = true); dsimp only [List.all]; exact rfl)
    | with_reducible exact Wr.refl _ _
    | with_reducible assumption
    | with_reducible apply State.ebufSlip_wr
    | with_reducible apply Wr.ite <;> intro _
    | with_reducible apply Wr.foldl <;> try intro _ _ _
    | with_reducible apply Wr.foldl_snd <;> try intro _ _ _
    | with_reducible refine Wr.of_snd ‹_ = (_, _)› ?_
    | with_reducible refine Wr.of_snd2 ‹_ = (_, _, _)› ?_
    | with_reducible apply Wr.of_id
    | split
    | dsimp only

theorem execAsyncPulse_wr (a0 : _) (s : State) {t : State} (h : execAsyncPulse a0 s = .next t) : Wr 0x18 s t := by
  unfold execAsyncPulse at h
  injection h with h
  subst h
  repeat' first
    | exact rfl
    | (refine (?_ : _ = true); dsimp only [List.all]; exact rfl)
    | with_reducible exact Wr.refl _ _
    | with_reducible assumption
    | with_reducible apply State.ebufsCentre_wr
    | with_reducible apply State.ebufSlip_wr
    | with_reducible apply Wr.of_keep (f := 1048576) (State.synUpd_keep (m := 1048576) _ _ _ _ rfl (Keep.refl _ _)) rfl
    | with_reducible apply Wr.of_keep (f := 16) (State.emit_keep (m := 16) _ _ _ _ rfl (Keep.refl _ _)) rfl
    | with_reducible apply Wr.ite <;> intro _
    | with_reducible apply Wr.foldl <;> try intro _ _ _
    | with_reducible apply Wr.foldl_snd <;> try intro _ _ _
    | with_reducible refine Wr.of_snd ‹_ = (_, _)› ?_
    | with_reducible refine Wr.of_snd2 ‹_ = (_, _, _)› ?_
    | with_reducible apply Wr.of_id
    | split
    | dsimp only

theorem execEbufSlip_wr (a0 : _) (a1 : _) (s : State) {t : State} (h : execEbufSlip a0 a1 s = .next t) : Wr 0x18 s t := by
  unfold execEbufSlip at h
  injection h with h
  subst h
  repeat' first
    | exact rfl
    | (refine (?_ : _ = true); dsimp only [List.all]; exact rfl)
    | with_reducible exact Wr.refl _ _
    | with_reducible assumption
    | with_reducible apply State.ebufSlip_wr
    | with_reducible apply Wr.ite <;> intro _
    | with_reducible apply Wr.foldl <;> try intro _ _ _
    | with_reducible apply Wr.foldl_snd <;> try intro _ _ _
    | with_reducible refine Wr.of_snd ‹_ = (_, _)› ?_
    | with_reducible refine Wr.of_snd2 ‹_ = (_, _, _)› ?_
    | with_reducible apply Wr.of_id
    | split
    | dsimp only

theorem execAsyncLost_wr (s : State) {t : State} (h : execAsyncLost s = .next t) : Wr 0x100000 s t := by
  unfold execAsyncLost at h
  injection h with h
  subst h
  repeat' first
    | exact rfl
    | (refine (?_ : _ = true); dsimp only [List.all]; exact rfl)
    | with_reducible exact Wr.refl _ _
    | with_reducible assumption
    | with_reducible apply Wr.of_keep (f := 272) (State.raise_keep (m := 272) _ _ rfl (Keep.refl _ _)) rfl
    | with_reducible apply State.set_wr
    | with_reducible apply Wr.ite <;> intro _
    | with_reducible apply Wr.foldl <;> try intro _ _ _
    | with_reducible apply Wr.foldl_snd <;> try intro _ _ _
    | with_reducible refine Wr.of_snd ‹_ = (_, _)› ?_
    | with_reducible refine Wr.of_snd2 ‹_ = (_, _, _)› ?_
    | with_reducible apply Wr.of_id
    | split
    | dsimp only

theorem execFenRffeCmd_wr (a0 : _) (a1 : _) (a2 : _) (s : State) (ha1 : a1 < 4) {t : State} (h : execFenRffeCmd a0 a1 a2 s = .next t) : Wr 0x40000f000000000000000000000000000000000000000000000000000000000000000000000000000000000000000000000000000000000000000000000000000 s t := by
  unfold execFenRffeCmd at h
  injection h with h
  subst h
  repeat' first
    | exact rfl
    | (refine (?_ : _ = true); dsimp only [List.all]; exact rfl)
    | with_reducible exact Wr.refl _ _
    | with_reducible assumption
    | with_reducible refine writeOrHold_wr (r0 := .FEN_RFFE_CMD) ((show ∀ q, q < 4 → findReg (Reg.addr .FEN_RFFE_CMD [q]) = some (.FEN_RFFE_CMD, [q]) by decide +kernel) a1 ha1) (fun _ _ => ?_) ?_ ?_
    | with_reducible apply wrQuad_FEN_RFFE_CMD_wr
    | with_reducible apply Wr.ite <;> intro _
    | with_reducible apply Wr.foldl <;> try intro _ _ _
    | with_reducible apply Wr.foldl_snd <;> try intro _ _ _
    | with_reducible refine Wr.of_snd ‹_ = (_, _)› ?_
    | with_reducible refine Wr.of_snd2 ‹_ = (_, _, _)› ?_
    | with_reducible apply Wr.of_id
    | split
    | dsimp only

theorem execRffeCommandDone_wr (a0 : _) (a1 : _) (a2 : _) (a3 : _) (s : State) {t : State} (h : execRffeCommandDone a0 a1 a2 a3 s = .next t) : Wr 0x800000000 s t := by
  unfold execRffeCommandDone at h
  injection h with h
  subst h
  repeat' first
    | exact rfl
    | (refine (?_ : _ = true); dsimp only [List.all]; exact rfl)
    | with_reducible exact Wr.refl _ _
    | with_reducible assumption
    | with_reducible apply Wr.of_keep (f := 1048576) (State.quadUpd_keep (m := 1048576) _ _ _ rfl (Keep.refl _ _)) rfl
    | with_reducible apply Wr.of_keep (f := 16) (State.emit_keep (m := 16) _ _ _ _ rfl (Keep.refl _ _)) rfl
    | with_reducible apply State.inc_wr
    | with_reducible refine State.unhold_wr _ _ _ (fun _ _ _ _ => ?_) ?_
    | with_reducible apply wrQuad_FEN_RFFE_CMD_wr
    | with_reducible apply Wr.ite <;> intro _
    | with_reducible apply Wr.foldl <;> try intro _ _ _
    | with_reducible apply Wr.foldl_snd <;> try intro _ _ _
    | (rewrite [State.mk_eq_updOf]; with_reducible refine Wr.node rfl rfl rfl ?_)
    | with_reducible refine Wr.of_snd ‹_ = (_, _)› ?_
    | with_reducible refine Wr.of_snd2 ‹_ = (_, _, _)› ?_
    | with_reducible apply Wr.of_id
    | split
    | dsimp only

theorem execFenRffeRsp_wr (a0 : _) (a1 : _) (s : State) (ha1 : a1 < 4) {t : State} (h : execFenRffeRsp a0 a1 s = .next t) : Wr 0x40000f000000000000000000000000000000000000000000000000000000000000000000000000000000000000000000000000000000000000000000000000000 s t := by
  unfold execFenRffeRsp at h
  injection h with h
  subst h
  repeat' first
    | exact rfl
    | (refine (?_ : _ = true); dsimp only [List.all]; exact rfl)
    | with_reducible exact Wr.refl _ _
    | with_reducible assumption
    | with_reducible refine readReg_wr (r0 := .FEN_RFFE_RSP) ((show ∀ q, q < 4 → findReg (Reg.addr .FEN_RFFE_RSP [q]) = some (.FEN_RFFE_RSP, [q]) by decide +kernel) a1 ha1) (fun _ _ => ?_) ?_ ?_
    | with_reducible apply rdQuad_FEN_RFFE_RSP_wr
    | with_reducible apply Wr.ite <;> intro _
    | with_reducible apply Wr.foldl <;> try intro _ _ _
    | with_reducible apply Wr.foldl_snd <;> try intro _ _ _
    | with_reducible refine Wr.of_snd ‹_ = (_, _)› ?_
    | with_reducible refine Wr.of_snd2 ‹_ = (_, _, _)› ?_
    | with_reducible apply Wr.of_id
    | split
    | dsimp only

theorem execRffePoll_wr (a0 : _) (a1 : _) (a2 : _) (a3 : _) (s : State) {t : State} (h : execRffePoll a0 a1 a2 a3 s = .next t) : Wr 0x200062400000000040081800000000 s t := by
  unfold execRffePoll at h
  injection h with h
  subst h
  repeat' first
    | exact rfl
    | (refine (?_ : _ = true); dsimp only [List.all]; exact rfl)
    | with_reducible exact Wr.refl _ _
    | with_reducible assumption
    | with_reducible apply Wr.ite <;> intro _
    | with_reducible apply Wr.foldl <;> try intro _ _ _
    | with_reducible apply Wr.foldl_snd <;> try intro _ _ _
    | with_reducible apply Wr.of_keep (f := 1048576) (State.quadUpd_keep (m := 1048576) _ _ _ rfl (Keep.refl _ _)) rfl
    | with_reducible apply State.pathClear_wr
    | with_reducible apply Wr.of_keep (f := 16) (State.stackWrites_keep (m := 16) _ _ _ rfl (Keep.refl _ _)) rfl
    | with_reducible apply State.pathFault_wr
    | with_reducible apply State.inc_wr
    | with_reducible apply Wr.of_keep (f := 272) (State.raise_keep (m := 272) _ _ rfl (Keep.refl _ _)) rfl
    | with_reducible refine Wr.of_snd ‹_ = (_, _)› ?_
    | with_reducible refine Wr.of_snd2 ‹_ = (_, _, _)› ?_
    | with_reducible apply Wr.of_id
    | split
    | dsimp only

theorem execVioOvercurrent_wr (a0 : _) (s : State) {t : State} (h : execVioOvercurrent a0 s = .next t) : Wr 0x200062400000000040081001000000 s t := by
  unfold execVioOvercurrent at h
  injection h with h
  subst h
  repeat' first
    | exact rfl
    | (refine (?_ : _ = true); dsimp only [List.all]; exact rfl)
    | with_reducible exact Wr.refl _ _
    | with_reducible assumption
    | with_reducible apply Wr.ite <;> intro _
    | with_reducible apply Wr.foldl <;> try intro _ _ _
    | with_reducible apply Wr.foldl_snd <;> try intro _ _ _
    | with_reducible apply Wr.of_keep (f := 272) (State.raise_keep (m := 272) _ _ rfl (Keep.refl _ _)) rfl
    | with_reducible apply State.pathFault_wr
    | with_reducible apply State.set_wr
    | with_reducible refine Wr.of_snd ‹_ = (_, _)› ?_
    | with_reducible refine Wr.of_snd2 ‹_ = (_, _, _)› ?_
    | with_reducible apply Wr.of_id
    | split
    | dsimp only

theorem execVioEn_wr (a0 : _) (a1 : _) (a2 : _) (s : State) (ha1 : a1 < 4) {t : State} (h : execVioEn a0 a1 a2 s = .next t) : Wr 0x40000f000000000000000000000000000000000000000000000000000000000000000000000000000000000000000000000200000000000000000000001000000 s t := by
  unfold execVioEn at h
  injection h with h
  subst h
  repeat' first
    | exact rfl
    | (refine (?_ : _ = true); dsimp only [List.all]; exact rfl)
    | with_reducible exact Wr.refl _ _
    | with_reducible assumption
    | with_reducible refine writeReg_wr (r0 := .FEN_RFFE_CFG) ((show ∀ q, q < 4 → findReg (Reg.addr .FEN_RFFE_CFG [q]) = some (.FEN_RFFE_CFG, [q]) by decide +kernel) a1 ha1) (fun _ _ => ?_) ?_ ?_
    | with_reducible apply wrQuad_FEN_RFFE_CFG_wr
    | with_reducible apply Wr.ite <;> intro _
    | with_reducible apply Wr.foldl <;> try intro _ _ _
    | with_reducible apply Wr.foldl_snd <;> try intro _ _ _
    | with_reducible refine Wr.of_snd ‹_ = (_, _)› ?_
    | with_reducible refine Wr.of_snd2 ‹_ = (_, _, _)› ?_
    | with_reducible apply Wr.of_id
    | split
    | dsimp only

theorem execBiasShort_wr (a0 : _) (a1 : _) (s : State) {t : State} (h : execBiasShort a0 a1 s = .next t) : Wr 0x200062400000000040081000000000 s t := by
  unfold execBiasShort at h
  injection h with h
  subst h
  repeat' first
    | exact rfl
    | (refine (?_ : _ = true); dsimp only [List.all]; exact rfl)
    | with_reducible exact Wr.refl _ _
    | with_reducible assumption
    | with_reducible apply Wr.of_keep (f := 272) (State.raise_keep (m := 272) _ _ rfl (Keep.refl _ _)) rfl
    | with_reducible apply State.pathFault_wr
    | with_reducible apply Wr.ite <;> intro _
    | with_reducible apply Wr.foldl <;> try intro _ _ _
    | with_reducible apply Wr.foldl_snd <;> try intro _ _ _
    | with_reducible refine Wr.of_snd ‹_ = (_, _)› ?_
    | with_reducible refine Wr.of_snd2 ‹_ = (_, _, _)› ?_
    | with_reducible apply Wr.of_id
    | split
    | dsimp only

theorem execBiasOpen_wr (a0 : _) (a1 : _) (s : State) {t : State} (h : execBiasOpen a0 a1 s = .next t) : Wr 0x200062400000000040081000000000 s t := by
  unfold execBiasOpen at h
  injection h with h
  subst h
  repeat' first
    | exact rfl
    | (refine (?_ : _ = true); dsimp only [List.all]; exact rfl)
    | with_reducible exact Wr.refl _ _
    | with_reducible assumption
    | with_reducible apply Wr.of_keep (f := 272) (State.raise_keep (m := 272) _ _ rfl (Keep.refl _ _)) rfl
    | with_reducible apply State.pathFault_wr
    | with_reducible apply Wr.ite <;> intro _
    | with_reducible apply Wr.foldl <;> try intro _ _ _
    | with_reducible apply Wr.foldl_snd <;> try intro _ _ _
    | with_reducible refine Wr.of_snd ‹_ = (_, _)› ?_
    | with_reducible refine Wr.of_snd2 ‹_ = (_, _, _)› ?_
    | with_reducible apply Wr.of_id
    | split
    | dsimp only

theorem execFastline_wr (a0 : _) (a1 : _) (s : State) {t : State} (h : execFastline a0 a1 s = .next t) : Wr 0x200062400000000040081000000000 s t := by
  unfold execFastline at h
  injection h with h
  subst h
  repeat' first
    | exact rfl
    | (refine (?_ : _ = true); dsimp only [List.all]; exact rfl)
    | with_reducible exact Wr.refl _ _
    | with_reducible assumption
    | with_reducible apply Wr.of_keep (f := 272) (State.raise_keep (m := 272) _ _ rfl (Keep.refl _ _)) rfl
    | with_reducible apply State.pathFault_wr
    | with_reducible apply Wr.ite <;> intro _
    | with_reducible apply Wr.foldl <;> try intro _ _ _
    | with_reducible apply Wr.foldl_snd <;> try intro _ _ _
    | with_reducible refine Wr.of_snd ‹_ = (_, _)› ?_
    | with_reducible refine Wr.of_snd2 ‹_ = (_, _, _)› ?_
    | with_reducible apply Wr.of_id
    | split
    | dsimp only

end Sys2Proof.Machine
end

