-- ==== Sys2Proof/Laws/WrArray.lean ====
section
/-! SUPPORT. The registers that each operation of Machine/Array.lean may change. -/

set_option Elab.async false

namespace Sys2Proof.Machine

theorem State.txfCommit_wr {m : Nat} {s0 : State} (s : State) (a1 : _) (hm : subMask 0x20000000000 m = true) (h : Wr m s0 s) : Wr m s0 (State.txfCommit s a1) := by
  refine Wr.lift (f := 0x20000000000) ?_ hm h
  unfold State.txfCommit
  repeat' first
    | exact rfl
    | (refine (?_ : _ = true); dsimp only [List.all]; exact rfl)
    | with_reducible exact Wr.refl _ _
    | with_reducible assumption
    | with_reducible apply State.commit_wr
    | with_reducible apply Wr.of_keep (f := 1048576) (State.quadUpd_keep (m := 1048576) _ _ _ rfl (Keep.refl _ _)) rfl
    | with_reducible apply Wr.ite <;> intro _
    | with_reducible apply Wr.foldl <;> try intro _ _ _
    | with_reducible apply Wr.foldl_snd <;> try intro _ _ _
    | with_reducible refine Wr.of_snd ‹_ = (_, _)› ?_
    | with_reducible refine Wr.of_snd2 ‹_ = (_, _, _)› ?_
    | with_reducible apply Wr.of_id
    | split
    | dsimp only

theorem State.beamUse_wr {m : Nat} {s0 : State} (s : State) (a1 : _) (a2 : _) (a3 : _) (a4 : _) (hm : subMask 0x3000000000000 m = true) (h : Wr m s0 s) : Wr m s0 (State.beamUse s a1 a2 a3 a4) := by
  refine Wr.lift (f := 0x3000000000000) ?_ hm h
  unfold State.beamUse
  repeat' first
    | exact rfl
    | (refine (?_ : _ = true); dsimp only [List.all]; exact rfl)
    | with_reducible exact Wr.refl _ _
    | with_reducible assumption
    | with_reducible apply Wr.of_keep (f := 272) (State.raise_keep (m := 272) _ _ rfl (Keep.refl _ _)) rfl
    | with_reducible apply State.inc_wr
    | with_reducible apply Wr.of_keep (f := 1048576) (State.quadUpd_keep (m := 1048576) _ _ _ rfl (Keep.refl _ _)) rfl
    | with_reducible apply Wr.ite <;> intro _
    | with_reducible apply Wr.foldl <;> try intro _ _ _
    | with_reducible apply Wr.foldl_snd <;> try intro _ _ _
    | with_reducible refine Wr.of_snd ‹_ = (_, _)› ?_
    | with_reducible refine Wr.of_snd2 ‹_ = (_, _, _)› ?_
    | with_reducible apply Wr.of_id
    | split
    | dsimp only

theorem State.beamsHear_wr {m : Nat} {s0 : State} (s : State) (a1 : _) (a2 : _) (a3 : _) (hm : subMask 0x3000000000000 m = true) (h : Wr m s0 s) : Wr m s0 (State.beamsHear s a1 a2 a3) := by
  refine Wr.lift (f := 0x3000000000000) ?_ hm h
  unfold State.beamsHear
  repeat' first
    | exact rfl
    | (refine (?_ : _ = true); dsimp only [List.all]; exact rfl)
    | with_reducible exact Wr.refl _ _
    | with_reducible assumption
    | with_reducible apply State.beamUse_wr
    | with_reducible apply Wr.ite <;> intro _
    | with_reducible apply Wr.foldl <;> try intro _ _ _
    | with_reducible apply Wr.foldl_snd <;> try intro _ _ _
    | with_reducible refine Wr.of_snd ‹_ = (_, _)› ?_
    | with_reducible refine Wr.of_snd2 ‹_ = (_, _, _)› ?_
    | with_reducible apply Wr.of_id
    | split
    | dsimp only

theorem State.dpdActivate_wr {m : Nat} {s0 : State} (s : State) (a1 : _) (a2 : _) (a3 : _) (hm : subMask 0x20000000000000 m = true) (h : Wr m s0 s) : Wr m s0 (State.dpdActivate s a1 a2 a3) := by
  refine Wr.lift (f := 0x20000000000000) ?_ hm h
  unfold State.dpdActivate
  repeat' first
    | exact rfl
    | (refine (?_ : _ = true); dsimp only [List.all]; exact rfl)
    | with_reducible exact Wr.refl _ _
    | with_reducible assumption
    | with_reducible apply Wr.of_keep (f := 1048576) (State.setDpd_keep (m := 1048576) _ _ _ rfl (Keep.refl _ _)) rfl
    | with_reducible apply State.sets_wr
    | with_reducible apply Wr.ite <;> intro _
    | with_reducible apply Wr.foldl <;> try intro _ _ _
    | with_reducible apply Wr.foldl_snd <;> try intro _ _ _
    | with_reducible refine Wr.of_snd ‹_ = (_, _)› ?_
    | with_reducible refine Wr.of_snd2 ‹_ = (_, _, _)› ?_
    | with_reducible apply Wr.of_id
    | split
    | dsimp only

theorem State.dpdCommit_wr {m : Nat} {s0 : State} (s : State) (a1 : _) (a2 : _) (a3 : _) (hm : subMask 0x20000000000000 m = true) (h : Wr m s0 s) : Wr m s0 (State.dpdCommit s a1 a2 a3) := by
  refine Wr.lift (f := 0x20000000000000) ?_ hm h
  unfold State.dpdCommit
  repeat' first
    | exact rfl
    | (refine (?_ : _ = true); dsimp only [List.all]; exact rfl)
    | with_reducible exact Wr.refl _ _
    | with_reducible assumption
    | with_reducible apply Wr.of_keep (f := 1048576) (State.setDpd_keep (m := 1048576) _ _ _ rfl (Keep.refl _ _)) rfl
    | with_reducible apply State.set_wr
    | with_reducible apply State.dpdActivate_wr
    | with_reducible apply Wr.ite <;> intro _
    | with_reducible apply Wr.foldl <;> try intro _ _ _
    | with_reducible apply Wr.foldl_snd <;> try intro _ _ _
    | with_reducible refine Wr.of_snd ‹_ = (_, _)› ?_
    | with_reducible refine Wr.of_snd2 ‹_ = (_, _, _)› ?_
    | with_reducible apply Wr.of_id
    | split
    | dsimp only

theorem State.dpdStart_wr {m : Nat} {s0 : State} (s : State) (a1 : _) (a2 : _) (hm : subMask 0x20000000000000 m = true) (h : Wr m s0 s) : Wr m s0 (State.dpdStart s a1 a2) := by
  refine Wr.lift (f := 0x20000000000000) ?_ hm h
  unfold State.dpdStart
  repeat' first
    | exact rfl
    | (refine (?_ : _ = true); dsimp only [List.all]; exact rfl)
    | with_reducible exact Wr.refl _ _
    | with_reducible assumption
    | with_reducible apply State.dpdActivate_wr
    | with_reducible apply Wr.ite <;> intro _
    | with_reducible apply Wr.foldl <;> try intro _ _ _
    | with_reducible apply Wr.foldl_snd <;> try intro _ _ _
    | with_reducible refine Wr.of_snd ‹_ = (_, _)› ?_
    | with_reducible refine Wr.of_snd2 ‹_ = (_, _, _)› ?_
    | with_reducible apply Wr.of_id
    | split
    | dsimp only

theorem State.orxStall_wr {m : Nat} {s0 : State} (s : State) (a1 : _) (a2 : _) (hm : subMask 0x4000000000000000 m = true) (h : Wr m s0 s) : Wr m s0 (State.orxStall s a1 a2) := by
  refine Wr.lift (f := 0x4000000000000000) ?_ hm h
  unfold State.orxStall
  repeat' first
    | exact rfl
    | (refine (?_ : _ = true); dsimp only [List.all]; exact rfl)
    | with_reducible exact Wr.refl _ _
    | with_reducible assumption
    | with_reducible apply Wr.of_keep (f := 1048576) (State.quadUpd_keep (m := 1048576) _ _ _ rfl (Keep.refl _ _)) rfl
    | with_reducible apply Wr.of_keep (f := 272) (State.raise_keep (m := 272) _ _ rfl (Keep.refl _ _)) rfl
    | with_reducible apply State.inc_wr
    | with_reducible apply Wr.ite <;> intro _
    | with_reducible apply Wr.foldl <;> try intro _ _ _
    | with_reducible apply Wr.foldl_snd <;> try intro _ _ _
    | with_reducible refine Wr.of_snd ‹_ = (_, _)› ?_
    | with_reducible refine Wr.of_snd2 ‹_ = (_, _, _)› ?_
    | with_reducible apply Wr.of_id
    | split
    | dsimp only

theorem State.slotFree_wr {m : Nat} {s0 : State} (s : State) (a1 : _) (a2 : _) (a3 : _) (hm : subMask 0x4000000000000000 m = true) (h : Wr m s0 s) : Wr m s0 (State.slotFree s a1 a2 a3) := by
  refine Wr.lift (f := 0x4000000000000000) ?_ hm h
  unfold State.slotFree
  repeat' first
    | exact rfl
    | (refine (?_ : _ = true); dsimp only [List.all]; exact rfl)
    | with_reducible exact Wr.refl _ _
    | with_reducible assumption
    | with_reducible apply State.orxStall_wr
    | with_reducible apply Wr.of_keep (f := 1048576) (State.quadUpd_keep (m := 1048576) _ _ _ rfl (Keep.refl _ _)) rfl
    | with_reducible apply Wr.ite <;> intro _
    | with_reducible apply Wr.foldl <;> try intro _ _ _
    | with_reducible apply Wr.foldl_snd <;> try intro _ _ _
    | with_reducible refine Wr.of_snd ‹_ = (_, _)› ?_
    | with_reducible refine Wr.of_snd2 ‹_ = (_, _, _)› ?_
    | with_reducible apply Wr.of_id
    | split
    | dsimp only

theorem State.visitAbandon_wr {m : Nat} {s0 : State} (s : State) (a1 : _) (a2 : _) (hm : subMask 0xc000000000000000 m = true) (h : Wr m s0 s) : Wr m s0 (State.visitAbandon s a1 a2) := by
  refine Wr.lift (f := 0xc000000000000000) ?_ hm h
  unfold State.visitAbandon
  repeat' first
    | exact rfl
    | (refine (?_ : _ = true); dsimp only [List.all]; exact rfl)
    | with_reducible exact Wr.refl _ _
    | with_reducible assumption
    | with_reducible apply Wr.of_keep (f := 1048576) (State.elemSwitch_keep (m := 1048576) _ _ _ rfl (Keep.refl _ _)) rfl
    | with_reducible apply State.inc_wr
    | with_reducible apply Wr.of_keep (f := 1048576) (State.quadUpd_keep (m := 1048576) _ _ _ rfl (Keep.refl _ _)) rfl
    | with_reducible apply State.slotFree_wr
    | with_reducible apply Wr.ite <;> intro _
    | with_reducible apply Wr.foldl <;> try intro _ _ _
    | with_reducible apply Wr.foldl_snd <;> try intro _ _ _
    | with_reducible refine Wr.of_snd ‹_ = (_, _)› ?_
    | with_reducible refine Wr.of_snd2 ‹_ = (_, _, _)› ?_
    | with_reducible apply Wr.of_id
    | split
    | dsimp only

theorem State.visitsAbandon_wr {m : Nat} {s0 : State} (s : State) (a1 : _) (a2 : _) (hm : subMask 0xc000000000000000 m = true) (h : Wr m s0 s) : Wr m s0 (State.visitsAbandon s a1 a2) := by
  refine Wr.lift (f := 0xc000000000000000) ?_ hm h
  unfold State.visitsAbandon
  repeat' first
    | exact rfl
    | (refine (?_ : _ = true); dsimp only [List.all]; exact rfl)
    | with_reducible exact Wr.refl _ _
    | with_reducible assumption
    | with_reducible apply State.visitAbandon_wr
    | with_reducible apply Wr.ite <;> intro _
    | with_reducible apply Wr.foldl <;> try intro _ _ _
    | with_reducible apply Wr.foldl_snd <;> try intro _ _ _
    | with_reducible refine Wr.of_snd ‹_ = (_, _)› ?_
    | with_reducible refine Wr.of_snd2 ‹_ = (_, _, _)› ?_
    | with_reducible apply Wr.of_id
    | split
    | dsimp only

theorem State.antCheck_wr {m : Nat} {s0 : State} (s : State) (a1 : _) (a2 : _) (a3 : _) (hm : subMask 0x200062400000000040081000000000 m = true) (h : Wr m s0 s) : Wr m s0 (State.antCheck s a1 a2 a3) := by
  refine Wr.lift (f := 0x200062400000000040081000000000) ?_ hm h
  unfold State.antCheck
  repeat' first
    | exact rfl
    | (refine (?_ : _ = true); dsimp only [List.all]; exact rfl)
    | with_reducible exact Wr.refl _ _
    | with_reducible assumption
    | with_reducible apply State.pathClear_wr
    | with_reducible apply Wr.of_keep (f := 1048576) (State.pathUpd_keep (m := 1048576) _ _ _ rfl (Keep.refl _ _)) rfl
    | with_reducible apply Wr.of_keep (f := 272) (State.raise_keep (m := 272) _ _ rfl (Keep.refl _ _)) rfl
    | with_reducible apply State.pathFault_wr
    | with_reducible apply Wr.ite <;> intro _
    | with_reducible apply Wr.foldl <;> try intro _ _ _
    | with_reducible apply Wr.foldl_snd <;> try intro _ _ _
    | with_reducible refine Wr.of_snd ‹_ = (_, _)› ?_
    | with_reducible refine Wr.of_snd2 ‹_ = (_, _, _)› ?_
    | with_reducible apply Wr.of_id
    | split
    | dsimp only

theorem State.dpdCheck_wr {m : Nat} {s0 : State} (s : State) (a1 : _) (a2 : _) (a3 : _) (hm : subMask 0xa0000000000000 m = true) (h : Wr m s0 s) : Wr m s0 (State.dpdCheck s a1 a2 a3) := by
  refine Wr.lift (f := 0xa0000000000000) ?_ hm h
  unfold State.dpdCheck
  repeat' first
    | exact rfl
    | (refine (?_ : _ = true); dsimp only [List.all]; exact rfl)
    | with_reducible exact Wr.refl _ _
    | with_reducible assumption
    | with_reducible apply Wr.of_keep (f := 1048576) (State.setDpd_keep (m := 1048576) _ _ _ rfl (Keep.refl _ _)) rfl
    | with_reducible apply Wr.of_keep (f := 272) (State.raise_keep (m := 272) _ _ rfl (Keep.refl _ _)) rfl
    | with_reducible apply State.inc_wr
    | with_reducible apply State.set_wr
    | with_reducible apply Wr.ite <;> intro _
    | with_reducible apply Wr.foldl <;> try intro _ _ _
    | with_reducible apply Wr.foldl_snd <;> try intro _ _ _
    | with_reducible refine Wr.of_snd ‹_ = (_, _)› ?_
    | with_reducible refine Wr.of_snd2 ‹_ = (_, _, _)› ?_
    | with_reducible apply Wr.of_id
    | split
    | dsimp only

theorem State.beamSettle_wr {m : Nat} {s0 : State} (s : State) (a1 : _) (a2 : _) (hf : ∀ v rq t, Wr m s0 t → Wr m s0 (a2 v rq t)) (hm : subMask 0x800000000000 m = true) (h : Wr m s0 s) : Wr m s0 (State.beamSettle s a1 a2) := by
  unfold State.beamSettle
  refine Wr.foldl _ _ ?_ (fun t _ ht => State.unhold_wr _ _ _ hf ht)
  exact State.set_wr _ _ _ _ _ (subMask_bit hm rfl) (subMask_trans rfl hm) (Wr.of_keep (f := 1048576) (State.quadUpd_keep (m := 1048576) _ _ _ rfl (Keep.refl _ _)) rfl h)

theorem wrArray_BEAM_COMMIT_wr {m : Nat} {s0 : State} (x0 : Nat) (v : Word) (rq : Req) (s : State) (hm : subMask 0x800000000000 m = true) (h : Wr m s0 s) : Wr m s0 (wrArray .BEAM_COMMIT [x0] v rq s) := by
  refine Wr.lift (f := 0x800000000000) ?_ hm h
  unfold wrArray
  repeat' first
    | exact rfl
    | (refine (?_ : _ = true); dsimp only [List.all]; exact rfl)
    | with_reducible exact Wr.refl _ _
    | with_reducible assumption
    | contradiction
    | with_reducible apply State.set_wr
    | with_reducible apply Wr.of_keep (f := 1048576) (State.quadUpd_keep (m := 1048576) _ _ _ rfl (Keep.refl _ _)) rfl
    | with_reducible apply Wr.ite <;> intro _
    | with_reducible apply Wr.foldl <;> try intro _ _ _
    | with_reducible apply Wr.foldl_snd <;> try intro _ _ _
    | with_reducible refine Wr.of_snd ‹_ = (_, _)› ?_
    | with_reducible refine Wr.of_snd2 ‹_ = (_, _, _)› ?_
    | with_reducible apply Wr.of_id
    | split
    | dsimp only

theorem wrArray_DPD_COMMIT_wr {m : Nat} {s0 : State} (x0 : Nat) (x1 : Nat) (v : Word) (rq : Req) (s : State) (hm : subMask 0x20000000000000 m = true) (h : Wr m s0 s) : Wr m s0 (wrArray .DPD_COMMIT [x0, x1] v rq s) := by
  refine Wr.lift (f := 0x20000000000000) ?_ hm h
  unfold wrArray
  repeat' first
    | exact rfl
    | (refine (?_ : _ = true); dsimp only [List.all]; exact rfl)
    | with_reducible exact Wr.refl _ _
    | with_reducible assumption
    | contradiction
    | with_reducible apply State.dpdCommit_wr
    | with_reducible apply Wr.ite <;> intro _
    | with_reducible apply Wr.foldl <;> try intro _ _ _
    | with_reducible apply Wr.foldl_snd <;> try intro _ _ _
    | with_reducible refine Wr.of_snd ‹_ = (_, _)› ?_
    | with_reducible refine Wr.of_snd2 ‹_ = (_, _, _)› ?_
    | with_reducible apply Wr.of_id
    | split
    | dsimp only

theorem wrArray_DFE_TXF_CTL_wr {m : Nat} {s0 : State} (x0 : Nat) (v : Word) (rq : Req) (s : State) (hm : subMask 0x30000000000 m = true) (h : Wr m s0 s) : Wr m s0 (wrArray .DFE_TXF_CTL [x0] v rq s) := by
  refine Wr.lift (f := 0x30000000000) ?_ hm h
  unfold wrArray
  repeat' first
    | exact rfl
    | (refine (?_ : _ = true); dsimp only [List.all]; exact rfl)
    | with_reducible exact Wr.refl _ _
    | with_reducible assumption
    | contradiction
    | with_reducible apply State.txfCommit_wr
    | with_reducible apply storeWord_wr
    | with_reducible apply Wr.ite <;> intro _
    | with_reducible apply Wr.foldl <;> try intro _ _ _
    | with_reducible apply Wr.foldl_snd <;> try intro _ _ _
    | with_reducible refine Wr.of_snd ‹_ = (_, _)› ?_
    | with_reducible refine Wr.of_snd2 ‹_ = (_, _, _)› ?_
    | with_reducible apply Wr.of_id
    | split
    | dsimp only

theorem wrArray_ORX_SLOT_FREE_wr {m : Nat} {s0 : State} (x0 : Nat) (v : Word) (rq : Req) (s : State) (hm : subMask 0x4000000000000000 m = true) (h : Wr m s0 s) : Wr m s0 (wrArray .ORX_SLOT_FREE [x0] v rq s) := by
  refine Wr.lift (f := 0x4000000000000000) ?_ hm h
  unfold wrArray
  repeat' first
    | exact rfl
    | (refine (?_ : _ = true); dsimp only [List.all]; exact rfl)
    | with_reducible exact Wr.refl _ _
    | with_reducible assumption
    | contradiction
    | with_reducible apply State.slotFree_wr
    | with_reducible apply Wr.ite <;> intro _
    | with_reducible apply Wr.foldl <;> try intro _ _ _
    | with_reducible apply Wr.foldl_snd <;> try intro _ _ _
    | with_reducible refine Wr.of_snd ‹_ = (_, _)› ?_
    | with_reducible refine Wr.of_snd2 ‹_ = (_, _, _)› ?_
    | with_reducible apply Wr.of_id
    | split
    | dsimp only

theorem rdArray_ORX_CAP_POP_wr {m : Nat} {s0 : State} (x0 : Nat) (rq : Req) (s : State) (hm : subMask 0 m = true) (h : Wr m s0 s) : Wr m s0 (rdArray .ORX_CAP_POP [x0] rq s).2 := by
  refine Wr.lift (f := 0) ?_ hm h
  unfold rdArray
  repeat' first
    | exact rfl
    | (refine (?_ : _ = true); dsimp only [List.all]; exact rfl)
    | with_reducible exact Wr.refl _ _
    | with_reducible assumption
    | contradiction
    | with_reducible apply Wr.of_keep (f := 1048576) (State.quadUpd_keep (m := 1048576) _ _ _ rfl (Keep.refl _ _)) rfl
    | with_reducible apply loadWord_wr
    | with_reducible apply Wr.ite <;> intro _
    | with_reducible apply Wr.foldl <;> try intro _ _ _
    | with_reducible apply Wr.foldl_snd <;> try intro _ _ _
    | with_reducible refine Wr.of_snd ‹_ = (_, _)› ?_
    | with_reducible refine Wr.of_snd2 ‹_ = (_, _, _)› ?_
    | with_reducible apply Wr.of_id
    | split
    | dsimp only

theorem execTxfCommit_wr (a0 : _) (a1 : _) (a2 : _) (s : State) (ha1 : a1 < 4) {t : State} (h : execTxfCommit a0 a1 a2 s = .next t) : Wr 0x40000f000000000000000000000000000000000000000000000000000000000000000000000000000000000000000000000000000000000000000030000000000 s t := by
  unfold execTxfCommit at h
  injection h with h
  subst h
  repeat' first
    | exact rfl
    | (refine (?_ : _ = true); dsimp only [List.all]; exact rfl)
    | with_reducible exact Wr.refl _ _
    | with_reducible assumption
    | with_reducible refine writeReg_wr (r0 := .DFE_TXF_CTL) ((show ∀ q, q < 4 → findReg (Reg.addr .DFE_TXF_CTL [q]) = some (.DFE_TXF_CTL, [q]) by decide +kernel) a1 ha1) (fun _ _ => ?_) ?_ ?_
    | with_reducible apply wrArray_DFE_TXF_CTL_wr
    | with_reducible apply Wr.ite <;> intro _
    | with_reducible apply Wr.foldl <;> try intro _ _ _
    | with_reducible apply Wr.foldl_snd <;> try intro _ _ _
    | with_reducible refine Wr.of_snd ‹_ = (_, _)› ?_
    | with_reducible refine Wr.of_snd2 ‹_ = (_, _, _)› ?_
    | with_reducible apply Wr.of_id
    | split
    | dsimp only

theorem execBeamRecordFetch_wr (a0 : _) (a1 : _) (a2 : _) (s : State) {t : State} (h : execBeamRecordFetch a0 a1 a2 s = .next t) : Wr 0x800000000000 s t := by
  unfold execBeamRecordFetch at h
  injection h with h
  subst h
  repeat' first
    | exact rfl
    | (refine (?_ : _ = true); dsimp only [List.all]; exact rfl)
    | with_reducible exact Wr.refl _ _
    | with_reducible assumption
    | with_reducible apply Wr.of_keep (f := 1048576) (State.quadUpd_keep (m := 1048576) _ _ _ rfl (Keep.refl _ _)) rfl
    | with_reducible refine State.beamSettle_wr _ _ _ (fun _ _ _ _ => ?_) ?_ ?_
    | with_reducible apply wrArray_BEAM_COMMIT_wr
    | with_reducible apply Wr.ite <;> intro _
    | with_reducible apply Wr.foldl <;> try intro _ _ _
    | with_reducible apply Wr.foldl_snd <;> try intro _ _ _
    | with_reducible refine Wr.of_snd ‹_ = (_, _)› ?_
    | with_reducible refine Wr.of_snd2 ‹_ = (_, _, _)› ?_
    | with_reducible apply Wr.of_id
    | split
    | dsimp only

theorem execBeamCommit_wr (a0 : _) (a1 : _) (a2 : _) (s : State) (ha1 : a1 < 4) {t : State} (h : execBeamCommit a0 a1 a2 s = .next t) : Wr 0x40000f000000000000000000000000000000000000000000000000000000000000000000000000000000000000000000000000000000000000000800000000000 s t := by
  unfold execBeamCommit at h
  injection h with h
  subst h
  repeat' first
    | exact rfl
    | (refine (?_ : _ = true); dsimp only [List.all]; exact rfl)
    | with_reducible exact Wr.refl _ _
    | with_reducible assumption
    | with_reducible refine writeOrHold_wr (r0 := .BEAM_COMMIT) ((show ∀ q, q < 4 → findReg (Reg.addr .BEAM_COMMIT [q]) = some (.BEAM_COMMIT, [q]) by decide +kernel) a1 ha1) (fun _ _ => ?_) ?_ ?_
    | with_reducible apply wrArray_BEAM_COMMIT_wr
    | with_reducible apply Wr.ite <;> intro _
    | with_reducible apply Wr.foldl <;> try intro _ _ _
    | with_reducible apply Wr.foldl_snd <;> try intro _ _ _
    | with_reducible refine Wr.of_snd ‹_ = (_, _)› ?_
    | with_reducible refine Wr.of_snd2 ‹_ = (_, _, _)› ?_
    | with_reducible apply Wr.of_id
    | split
    | dsimp only

theorem execDpdCommit_wr (a0 : _) (a1 : _) (a2 : _) (a3 : _) (s : State) (ha1 : a1 < 4) (ha2 : a2 < 16) {t : State} (h : execDpdCommit a0 a1 a2 a3 s = .next t) : Wr 0x40000f000000000000000000000000000000000000000000000000000000000000000000000000000000000000000000000000000000000000020000000000000 s t := by
  unfold execDpdCommit at h
  injection h with h
  subst h
  repeat' first
    | exact rfl
    | (refine (?_ : _ = true); dsimp only [List.all]; exact rfl)
    | with_reducible exact Wr.refl _ _
    | with_reducible assumption
    | with_reducible refine writeReg_wr (r0 := .DPD_COMMIT) ((show ∀ q, q < 4 → ∀ p, p < 16 → findReg (Reg.addr .DPD_COMMIT [q, p]) = some (.DPD_COMMIT, [q, p]) by decide +kernel) a1 ha1 a2 ha2) (fun _ _ => ?_) ?_ ?_
    | with_reducible apply wrArray_DPD_COMMIT_wr
    | with_reducible apply Wr.ite <;> intro _
    | with_reducible apply Wr.foldl <;> try intro _ _ _
    | with_reducible apply Wr.foldl_snd <;> try intro _ _ _
    | with_reducible refine Wr.of_snd ‹_ = (_, _)› ?_
    | with_reducible refine Wr.of_snd2 ‹_ = (_, _, _)› ?_
    | with_reducible apply Wr.of_id
    | split
    | dsimp only

theorem execOrxVisitStart_wr (a0 : _) (a1 : _) (s : State) {t : State} (h : execOrxVisitStart a0 a1 s = .next t) : Wr 0x4000000000000000 s t := by
  unfold execOrxVisitStart at h
  injection h with h
  subst h
  repeat' first
    | exact rfl
    | (refine (?_ : _ = true); dsimp only [List.all]; exact rfl)
    | with_reducible exact Wr.refl _ _
    | with_reducible assumption
    | with_reducible apply State.orxStall_wr
    | with_reducible apply Wr.of_keep (f := 16) (State.cplWrite_keep (m := 16) _ _ _ _ rfl (Keep.refl _ _)) rfl
    | with_reducible apply Wr.of_keep (f := 1048576) (State.quadUpd_keep (m := 1048576) _ _ _ rfl (Keep.refl _ _)) rfl
    | with_reducible apply Wr.ite <;> intro _
    | with_reducible apply Wr.foldl <;> try intro _ _ _
    | with_reducible apply Wr.foldl_snd <;> try intro _ _ _
    | with_reducible refine Wr.of_snd ‹_ = (_, _)› ?_
    | with_reducible refine Wr.of_snd2 ‹_ = (_, _, _)› ?_
    | with_reducible apply Wr.of_id
    | split
    | dsimp only

theorem execOrxVisitEnd_wr (a0 : _) (a1 : _) (a2 : _) (a3 : _) (a4 : _) (a5 : _) (a6 : _) (s : State) {t : State} (h : execOrxVisitEnd a0 a1 a2 a3 a4 a5 a6 s = .next t) : Wr 0x2000624000000020e0081000020000 s t := by
  unfold execOrxVisitEnd at h
  injection h with h
  subst h
  repeat' first
    | exact rfl
    | (refine (?_ : _ = true); dsimp only [List.all]; exact rfl)
    | with_reducible exact Wr.refl _ _
    | with_reducible assumption
    | with_reducible apply Wr.of_keep (f := 1048576) (State.elemSwitch_keep (m := 1048576) _ _ _ rfl (Keep.refl _ _)) rfl
    | with_reducible apply State.inc_wr
    | with_reducible apply Wr.of_keep (f := 1048576) (State.quadUpd_keep (m := 1048576) _ _ _ rfl (Keep.refl _ _)) rfl
    | with_reducible apply Wr.of_keep (f := 16) (State.cplWrite_keep (m := 16) _ _ _ _ rfl (Keep.refl _ _)) rfl
    | with_reducible apply State.set_wr
    | with_reducible apply Wr.of_keep (f := 65600) (State.memPut_keep (m := 65600) _ _ _ rfl (Keep.refl _ _)) rfl
    | with_reducible apply Wr.of_keep (f := 272) (State.raise_keep (m := 272) _ _ rfl (Keep.refl _ _)) rfl
    | with_reducible apply State.dpdCheck_wr
    | with_reducible apply State.antCheck_wr
    | with_reducible apply Wr.of_keep (f := 1048576) (State.pathUpd_keep (m := 1048576) _ _ _ rfl (Keep.refl _ _)) rfl
    | with_reducible apply Wr.ite <;> intro _
    | with_reducible apply Wr.foldl <;> try intro _ _ _
    | with_reducible apply Wr.foldl_snd <;> try intro _ _ _
    | with_reducible refine Wr.of_snd ‹_ = (_, _)› ?_
    | with_reducible refine Wr.of_snd2 ‹_ = (_, _, _)› ?_
    | with_reducible apply Wr.of_id
    | split
    | dsimp only

theorem execOrxCapPop_wr (a0 : _) (a1 : _) (s : State) (ha1 : a1 < 4) {t : State} (h : execOrxCapPop a0 a1 s = .next t) : Wr 0x40000f000000000000000000000000000000000000000000000000000000000000000000000000000000000000000000000000000000000000000000000000000 s t := by
  unfold execOrxCapPop at h
  injection h with h
  subst h
  repeat' first
    | exact rfl
    | (refine (?_ : _ = true); dsimp only [List.all]; exact rfl)
    | with_reducible exact Wr.refl _ _
    | with_reducible assumption
    | with_reducible refine readReg_wr (r0 := .ORX_CAP_POP) ((show ∀ q, q < 4 → findReg (Reg.addr .ORX_CAP_POP [q]) = some (.ORX_CAP_POP, [q]) by decide +kernel) a1 ha1) (fun _ _ => ?_) ?_ ?_
    | with_reducible apply rdArray_ORX_CAP_POP_wr
    | with_reducible apply Wr.ite <;> intro _
    | with_reducible apply Wr.foldl <;> try intro _ _ _
    | with_reducible apply Wr.foldl_snd <;> try intro _ _ _
    | with_reducible refine Wr.of_snd ‹_ = (_, _)› ?_
    | with_reducible refine Wr.of_snd2 ‹_ = (_, _, _)› ?_
    | with_reducible apply Wr.of_id
    | split
    | dsimp only

theorem execOrxSlotFree_wr (a0 : _) (a1 : _) (a2 : _) (s : State) (ha1 : a1 < 4) {t : State} (h : execOrxSlotFree a0 a1 a2 s = .next t) : Wr 0x40000f000000000000000000000000000000000000000000000000000000000000000000000000000000000000000000000000000000000004000000000000000 s t := by
  unfold execOrxSlotFree at h
  injection h with h
  subst h
  repeat' first
    | exact rfl
    | (refine (?_ : _ = true); dsimp only [List.all]; exact rfl)
    | with_reducible exact Wr.refl _ _
    | with_reducible assumption
    | with_reducible refine writeReg_wr (r0 := .ORX_SLOT_FREE) ((show ∀ q, q < 4 → findReg (Reg.addr .ORX_SLOT_FREE [q]) = some (.ORX_SLOT_FREE, [q]) by decide +kernel) a1 ha1) (fun _ _ => ?_) ?_ ?_
    | with_reducible apply wrArray_ORX_SLOT_FREE_wr
    | with_reducible apply Wr.ite <;> intro _
    | with_reducible apply Wr.foldl <;> try intro _ _ _
    | with_reducible apply Wr.foldl_snd <;> try intro _ _ _
    | with_reducible refine Wr.of_snd ‹_ = (_, _)› ?_
    | with_reducible refine Wr.of_snd2 ‹_ = (_, _, _)› ?_
    | with_reducible apply Wr.of_id
    | split
    | dsimp only

end Sys2Proof.Machine
end

