-- ==== Sys2Proof/Laws/WrCalib.lean ====
section
/-! SUPPORT. The registers that each operation of Machine/Calib.lean may change. -/

set_option Elab.async false

namespace Sys2Proof.Machine

theorem State.calReject_wr {m : Nat} {s0 : State} (s : State) (a1 : _) (a2 : _) (a3 : _) (a4 : _) (hm : subMask 0x1400000000000000000 m = true) (h : Wr m s0 s) : Wr m s0 (State.calReject s a1 a2 a3 a4) := by
  refine Wr.lift (f := 0x1400000000000000000) ?_ hm h
  unfold State.calReject
  repeat' first
    | exact rfl
    | (refine (?_ : _ = true); dsimp only [List.all]; exact rfl)
    | with_reducible exact Wr.refl _ _
    | with_reducible assumption
    | with_reducible apply Wr.of_keep (f := 1048576) (State.calUpd_keep (m := 1048576) _ _ _ rfl (Keep.refl _ _)) rfl
    | with_reducible apply Wr.of_keep (f := 272) (State.raise_keep (m := 272) _ _ rfl (Keep.refl _ _)) rfl
    | with_reducible apply State.inc_wr
    | with_reducible apply State.sets_wr
    | with_reducible apply State.set_wr
    | with_reducible apply Wr.of_keep (f := 784) (State.ashCal_keep (m := 784) _ _ _ _ rfl (Keep.refl _ _)) rfl
    | with_reducible apply Wr.ite <;> intro _
    | with_reducible apply Wr.foldl <;> try intro _ _ _
    | with_reducible apply Wr.foldl_snd <;> try intro _ _ _
    | with_reducible refine Wr.of_snd ‹_ = (_, _)› ?_
    | with_reducible refine Wr.of_snd2 ‹_ = (_, _, _)› ?_
    | with_reducible apply Wr.of_id
    | split
    | dsimp only

theorem State.calEstimate_wr {m : Nat} {s0 : State} (s : State) (a1 : _) (a2 : _) (a3 : _) (a4 : _) (hm : subMask 0x1400000000000000000 m = true) (h : Wr m s0 s) : Wr m s0 (State.calEstimate s a1 a2 a3 a4) := by
  refine Wr.lift (f := 0x1400000000000000000) ?_ hm h
  unfold State.calEstimate
  repeat' first
    | exact rfl
    | (refine (?_ : _ = true); dsimp only [List.all]; exact rfl)
    | with_reducible exact Wr.refl _ _
    | with_reducible assumption
    | with_reducible apply State.calReject_wr
    | with_reducible apply Wr.of_keep (f := 1048576) (State.calUpd_keep (m := 1048576) _ _ _ rfl (Keep.refl _ _)) rfl
    | with_reducible apply Wr.of_keep (f := 1048576) (State.setCal_keep (m := 1048576) _ _ _ rfl (Keep.refl _ _)) rfl
    | with_reducible apply Wr.ite <;> intro _
    | with_reducible apply Wr.foldl <;> try intro _ _ _
    | with_reducible apply Wr.foldl_snd <;> try intro _ _ _
    | with_reducible refine Wr.of_snd ‹_ = (_, _)› ?_
    | with_reducible refine Wr.of_snd2 ‹_ = (_, _, _)› ?_
    | with_reducible apply Wr.of_id
    | split
    | dsimp only

theorem State.calBook_wr {m : Nat} {s0 : State} (s : State) (a1 : _) (a2 : _) (a3 : _) (hm : subMask 0x340000000000000000 m = true) (h : Wr m s0 s) : Wr m s0 (State.calBook s a1 a2 a3) := by
  refine Wr.lift (f := 0x340000000000000000) ?_ hm h
  unfold State.calBook
  repeat' first
    | exact rfl
    | (refine (?_ : _ = true); dsimp only [List.all]; exact rfl)
    | with_reducible exact Wr.refl _ _
    | with_reducible assumption
    | with_reducible apply State.set_wr
    | with_reducible apply State.sets_wr
    | with_reducible apply State.setReg_wr
    | with_reducible apply Wr.of_keep (f := 1048576) (State.calUpd_keep (m := 1048576) _ _ _ rfl (Keep.refl _ _)) rfl
    | with_reducible apply Wr.ite <;> intro _
    | with_reducible apply Wr.foldl <;> try intro _ _ _
    | with_reducible apply Wr.foldl_snd <;> try intro _ _ _
    | with_reducible refine Wr.of_snd ‹_ = (_, _)› ?_
    | with_reducible refine Wr.of_snd2 ‹_ = (_, _, _)› ?_
    | with_reducible apply Wr.of_id
    | split
    | dsimp only

theorem State.calRound_wr {m : Nat} {s0 : State} (s : State) (a1 : _) (a2 : _) (a3 : _) (hm : subMask 0x340000000000000000 m = true) (h : Wr m s0 s) : Wr m s0 (State.calRound s a1 a2 a3) := by
  refine Wr.lift (f := 0x340000000000000000) ?_ hm h
  unfold State.calRound
  repeat' first
    | exact rfl
    | (refine (?_ : _ = true); dsimp only [List.all]; exact rfl)
    | with_reducible exact Wr.refl _ _
    | with_reducible assumption
    | with_reducible apply State.set_wr
    | with_reducible apply State.bump_wr
    | with_reducible apply Wr.of_keep (f := 1048576) (State.calUpd_keep (m := 1048576) _ _ _ rfl (Keep.refl _ _)) rfl
    | with_reducible apply State.calBook_wr
    | with_reducible apply Wr.ite <;> intro _
    | with_reducible apply Wr.foldl <;> try intro _ _ _
    | with_reducible apply Wr.foldl_snd <;> try intro _ _ _
    | with_reducible refine Wr.of_snd ‹_ = (_, _)› ?_
    | with_reducible refine Wr.of_snd2 ‹_ = (_, _, _)› ?_
    | with_reducible apply Wr.of_id
    | split
    | dsimp only

theorem State.calSettle_wr {m : Nat} {s0 : State} (s : State) (a1 : _) (a2 : _) (a3 : _) (hm : subMask 0x340000000000000000 m = true) (h : Wr m s0 s) : Wr m s0 (State.calSettle s a1 a2 a3) := by
  refine Wr.lift (f := 0x340000000000000000) ?_ hm h
  unfold State.calSettle
  repeat' first
    | exact rfl
    | (refine (?_ : _ = true); dsimp only [List.all]; exact rfl)
    | with_reducible exact Wr.refl _ _
    | with_reducible assumption
    | with_reducible apply State.calBook_wr
    | with_reducible apply State.calRound_wr
    | with_reducible apply Wr.of_keep (f := 1048576) (State.calUpd_keep (m := 1048576) _ _ _ rfl (Keep.refl _ _)) rfl
    | with_reducible apply Wr.ite <;> intro _
    | with_reducible apply Wr.foldl <;> try intro _ _ _
    | with_reducible apply Wr.foldl_snd <;> try intro _ _ _
    | with_reducible refine Wr.of_snd ‹_ = (_, _)› ?_
    | with_reducible refine Wr.of_snd2 ‹_ = (_, _, _)› ?_
    | with_reducible apply Wr.of_id
    | split
    | dsimp only

theorem State.calComplete_wr {m : Nat} {s0 : State} (s : State) (a1 : _) (a2 : _) (a3 : _) (a4 : _) (a5 : _) (hm : subMask 0xcc0000000000000000 m = true) (h : Wr m s0 s) : Wr m s0 (State.calComplete s a1 a2 a3 a4 a5) := by
  refine Wr.lift (f := 0xcc0000000000000000) ?_ hm h
  unfold State.calComplete
  repeat' first
    | exact rfl
    | (refine (?_ : _ = true); dsimp only [List.all]; exact rfl)
    | with_reducible exact Wr.refl _ _
    | with_reducible assumption
    | with_reducible apply State.commit_wr
    | with_reducible apply Wr.of_keep (f := 1048576) (State.calUpd_keep (m := 1048576) _ _ _ rfl (Keep.refl _ _)) rfl
    | with_reducible apply State.set_wr
    | with_reducible apply Wr.of_keep (f := 272) (State.raise_keep (m := 272) _ _ rfl (Keep.refl _ _)) rfl
    | with_reducible apply State.inc_wr
    | with_reducible apply Wr.ite <;> intro _
    | with_reducible apply Wr.foldl <;> try intro _ _ _
    | with_reducible apply Wr.foldl_snd <;> try intro _ _ _
    | with_reducible refine Wr.of_snd ‹_ = (_, _)› ?_
    | with_reducible refine Wr.of_snd2 ‹_ = (_, _, _)› ?_
    | with_reducible apply Wr.of_id
    | split
    | dsimp only

theorem State.treesApply_wr {m : Nat} {s0 : State} (s : State) (a1 : _) (a2 : _) (a3 : _) (hm : subMask 0x20000000000000000000 m = true) (h : Wr m s0 s) : Wr m s0 (State.treesApply s a1 a2 a3) := by
  refine Wr.lift (f := 0x20000000000000000000) ?_ hm h
  unfold State.treesApply
  repeat' first
    | exact rfl
    | (refine (?_ : _ = true); dsimp only [List.all]; exact rfl)
    | with_reducible exact Wr.refl _ _
    | with_reducible assumption
    | with_reducible apply Wr.of_keep (f := 1048576) (State.calUpd_keep (m := 1048576) _ _ _ rfl (Keep.refl _ _)) rfl
    | with_reducible apply State.set_wr
    | with_reducible apply Wr.of_keep (f := 1048576) (State.setCal_keep (m := 1048576) _ _ _ rfl (Keep.refl _ _)) rfl
    | with_reducible apply Wr.of_keep (f := 272) (State.raise_keep (m := 272) _ _ rfl (Keep.refl _ _)) rfl
    | with_reducible apply Wr.of_keep (f := 784) (State.ashCal_keep (m := 784) _ _ _ _ rfl (Keep.refl _ _)) rfl
    | with_reducible apply Wr.ite <;> intro _
    | with_reducible apply Wr.foldl <;> try intro _ _ _
    | with_reducible apply Wr.foldl_snd <;> try intro _ _ _
    | with_reducible refine Wr.of_snd ‹_ = (_, _)› ?_
    | with_reducible refine Wr.of_snd2 ‹_ = (_, _, _)› ?_
    | with_reducible apply Wr.of_id
    | split
    | dsimp only

theorem State.calStart_wr {m : Nat} {s0 : State} (s : State) (a1 : _) (a2 : _) (hm : subMask 0x20fc0000000000000000 m = true) (h : Wr m s0 s) : Wr m s0 (State.calStart s a1 a2) := by
  refine Wr.lift (f := 0x20fc0000000000000000) ?_ hm h
  unfold State.calStart
  repeat' first
    | exact rfl
    | (refine (?_ : _ = true); dsimp only [List.all]; exact rfl)
    | with_reducible exact Wr.refl _ _
    | with_reducible assumption
    | with_reducible apply Wr.of_keep (f := 1048576) (State.calUpd_keep (m := 1048576) _ _ _ rfl (Keep.refl _ _)) rfl
    | with_reducible apply State.calRound_wr
    | with_reducible apply Wr.of_keep (f := 1) (State.fresh_keep (m := 1) _ rfl (Keep.refl _ _)) rfl
    | with_reducible apply State.treesApply_wr
    | with_reducible apply Wr.of_keep (f := 1048576) (State.trimApply_keep (m := 1048576) _ _ _ rfl (Keep.refl _ _)) rfl
    | with_reducible apply State.pendResult_wr
    | with_reducible apply State.calComplete_wr
    | with_reducible apply State.sets_wr
    | with_reducible apply Wr.ite <;> intro _
    | with_reducible apply Wr.foldl <;> try intro _ _ _
    | with_reducible apply Wr.foldl_snd <;> try intro _ _ _
    | with_reducible refine Wr.of_snd ‹_ = (_, _)› ?_
    | with_reducible refine Wr.of_snd2 ‹_ = (_, _, _)› ?_
    | with_reducible apply Wr.of_id
    | split
    | dsimp only

theorem State.calTemp_wr {m : Nat} {s0 : State} (s : State) (a1 : _) (hm : subMask 0x20fc0000000000000000 m = true) (h : Wr m s0 s) : Wr m s0 (State.calTemp s a1) := by
  refine Wr.lift (f := 0x20fc0000000000000000) ?_ hm h
  unfold State.calTemp
  repeat' first
    | exact rfl
    | (refine (?_ : _ = true); dsimp only [List.all]; exact rfl)
    | with_reducible exact Wr.refl _ _
    | with_reducible assumption
    | with_reducible apply State.set_wr
    | with_reducible apply Wr.of_keep (f := 1048576) (State.calUpd_keep (m := 1048576) _ _ _ rfl (Keep.refl _ _)) rfl
    | with_reducible apply State.calStart_wr
    | with_reducible apply Wr.ite <;> intro _
    | with_reducible apply Wr.foldl <;> try intro _ _ _
    | with_reducible apply Wr.foldl_snd <;> try intro _ _ _
    | with_reducible refine Wr.of_snd ‹_ = (_, _)› ?_
    | with_reducible refine Wr.of_snd2 ‹_ = (_, _, _)› ?_
    | with_reducible apply Wr.of_id
    | split
    | dsimp only

theorem State.calCancel_wr {m : Nat} {s0 : State} (s : State) (a1 : _) (a2 : _) (hm : subMask 0x4340000000000000000 m = true) (h : Wr m s0 s) : Wr m s0 (State.calCancel s a1 a2) := by
  refine Wr.lift (f := 0x4340000000000000000) ?_ hm h
  unfold State.calCancel
  repeat' first
    | exact rfl
    | (refine (?_ : _ = true); dsimp only [List.all]; exact rfl)
    | with_reducible exact Wr.refl _ _
    | with_reducible assumption
    | with_reducible apply State.calRound_wr
    | with_reducible apply State.inc_wr
    | with_reducible apply Wr.ite <;> intro _
    | with_reducible apply Wr.foldl <;> try intro _ _ _
    | with_reducible apply Wr.foldl_snd <;> try intro _ _ _
    | with_reducible refine Wr.of_snd ‹_ = (_, _)› ?_
    | with_reducible refine Wr.of_snd2 ‹_ = (_, _, _)› ?_
    | with_reducible apply Wr.of_id
    | split
    | dsimp only

theorem State.calYield_wr {m : Nat} {s0 : State} (s : State) (a1 : _) (a2 : _) (a3 : _) (hm : subMask 0x4340000000000000000 m = true) (h : Wr m s0 s) : Wr m s0 (State.calYield s a1 a2 a3) := by
  refine Wr.lift (f := 0x4340000000000000000) ?_ hm h
  unfold State.calYield
  repeat' first
    | exact rfl
    | (refine (?_ : _ = true); dsimp only [List.all]; exact rfl)
    | with_reducible exact Wr.refl _ _
    | with_reducible assumption
    | with_reducible apply State.calCancel_wr
    | with_reducible apply Wr.ite <;> intro _
    | with_reducible apply Wr.foldl <;> try intro _ _ _
    | with_reducible apply Wr.foldl_snd <;> try intro _ _ _
    | with_reducible refine Wr.of_snd ‹_ = (_, _)› ?_
    | with_reducible refine Wr.of_snd2 ‹_ = (_, _, _)› ?_
    | with_reducible apply Wr.of_id
    | split
    | dsimp only

theorem State.calCommit_wr {m : Nat} {s0 : State} (s : State) (a1 : _) (hm : subMask 0x20fc0000000000000000 m = true) (h : Wr m s0 s) : Wr m s0 (State.calCommit s a1) := by
  refine Wr.lift (f := 0x20fc0000000000000000) ?_ hm h
  unfold State.calCommit
  repeat' first
    | exact rfl
    | (refine (?_ : _ = true); dsimp only [List.all]; exact rfl)
    | with_reducible exact Wr.refl _ _
    | with_reducible assumption
    | with_reducible apply Wr.of_keep (f := 1048576) (State.calUpd_keep (m := 1048576) _ _ _ rfl (Keep.refl _ _)) rfl
    | with_reducible apply Wr.of_keep (f := 1048576) (State.putCal_keep (m := 1048576) _ _ _ rfl (Keep.refl _ _)) rfl
    | with_reducible apply State.calStart_wr
    | with_reducible apply Wr.ite <;> intro _
    | with_reducible apply Wr.foldl <;> try intro _ _ _
    | with_reducible apply Wr.foldl_snd <;> try intro _ _ _
    | with_reducible refine Wr.of_snd ‹_ = (_, _)› ?_
    | with_reducible refine Wr.of_snd2 ‹_ = (_, _, _)› ?_
    | with_reducible apply Wr.of_id
    | split
    | dsimp only

theorem State.xpStat_wr {m : Nat} {s0 : State} (s : State) (a1 : _) (a2 : _) (a3 : _) (hm : subMask 0x100000000000000000000 m = true) (h : Wr m s0 s) : Wr m s0 (State.xpStat s a1 a2 a3) := by
  refine Wr.lift (f := 0x100000000000000000000) ?_ hm h
  unfold State.xpStat
  repeat' first
    | exact rfl
    | (refine (?_ : _ = true); dsimp only [List.all]; exact rfl)
    | with_reducible exact Wr.refl _ _
    | with_reducible assumption
    | with_reducible apply State.commit_wr
    | with_reducible apply Wr.ite <;> intro _
    | with_reducible apply Wr.foldl <;> try intro _ _ _
    | with_reducible apply Wr.foldl_snd <;> try intro _ _ _
    | with_reducible refine Wr.of_snd ‹_ = (_, _)› ?_
    | with_reducible refine Wr.of_snd2 ‹_ = (_, _, _)› ?_
    | with_reducible apply Wr.of_id
    | split
    | dsimp only

theorem State.calExport_wr {m : Nat} {s0 : State} (s : State) (a1 : _) (hm : subMask 0x100000000000000000000 m = true) (h : Wr m s0 s) : Wr m s0 (State.calExport s a1) := by
  refine Wr.lift (f := 0x100000000000000000000) ?_ hm h
  unfold State.calExport
  repeat' first
    | exact rfl
    | (refine (?_ : _ = true); dsimp only [List.all]; exact rfl)
    | with_reducible exact Wr.refl _ _
    | with_reducible assumption
    | with_reducible apply State.xpStat_wr
    | with_reducible apply Wr.of_keep (f := 65600) (State.memWrite_keep (m := 65600) _ _ _ _ rfl (Keep.refl _ _)) rfl
    | with_reducible apply Wr.ite <;> intro _
    | with_reducible apply Wr.foldl <;> try intro _ _ _
    | with_reducible apply Wr.foldl_snd <;> try intro _ _ _
    | (rewrite [State.mk_eq_updOf]; with_reducible refine Wr.node rfl rfl rfl ?_)
    | with_reducible refine Wr.of_snd ‹_ = (_, _)› ?_
    | with_reducible refine Wr.of_snd2 ‹_ = (_, _, _)› ?_
    | with_reducible apply Wr.of_id
    | split
    | dsimp only

theorem State.calRestore_wr {m : Nat} {s0 : State} (s : State) (a1 : _) (hm : subMask 0x500a00000000000000000000000000000000000000000000000000000000000000000000000000000000000000120fc0000000000000000 m = true) (h : Wr m s0 s) : Wr m s0 (State.calRestore s a1) := by
  refine Wr.lift (f := 0x500a00000000000000000000000000000000000000000000000000000000000000000000000000000000000000120fc0000000000000000) ?_ hm h
  unfold State.calRestore
  repeat' first
    | exact rfl
    | (refine (?_ : _ = true); dsimp only [List.all]; exact rfl)
    | with_reducible exact Wr.refl _ _
    | with_reducible assumption
    | with_reducible apply State.xpStat_wr
    | with_reducible apply State.memRead_wr
    | with_reducible apply Wr.of_keep (f := 1048576) (State.putCal_keep (m := 1048576) _ _ _ rfl (Keep.refl _ _)) rfl
    | with_reducible apply State.sets_wr
    | with_reducible apply State.calStart_wr
    | with_reducible apply Wr.of_keep (f := 1048576) (State.redChoose_keep (m := 1048576) _ _ _ _ rfl (Keep.refl _ _)) rfl
    | with_reducible apply Wr.ite <;> intro _
    | with_reducible apply Wr.foldl <;> try intro _ _ _
    | with_reducible apply Wr.foldl_snd <;> try intro _ _ _
    | with_reducible refine Wr.of_snd ‹_ = (_, _)› ?_
    | with_reducible refine Wr.of_snd2 ‹_ = (_, _, _)› ?_
    | with_reducible apply Wr.of_id
    | split
    | dsimp only

theorem wrCal_CAL_COMMIT_wr {m : Nat} {s0 : State} (x0 : Nat) (v : Word) (rq : Req) (s : State) (hm : subMask 0x20fc0000000000000000 m = true) (h : Wr m s0 s) : Wr m s0 (wrCal .CAL_COMMIT [x0] v rq s) := by
  refine Wr.lift (f := 0x20fc0000000000000000) ?_ hm h
  unfold wrCal
  repeat' first
    | exact rfl
    | (refine (?_ : _ = true); dsimp only [List.all]; exact rfl)
    | with_reducible exact Wr.refl _ _
    | with_reducible assumption
    | contradiction
    | with_reducible apply State.calCommit_wr
    | with_reducible apply Wr.of_keep (f := 1048576) (State.setCal_keep (m := 1048576) _ _ _ rfl (Keep.refl _ _)) rfl
    | with_reducible apply Wr.ite <;> intro _
    | with_reducible apply Wr.foldl <;> try intro _ _ _
    | with_reducible apply Wr.foldl_snd <;> try intro _ _ _
    | with_reducible refine Wr.of_snd ‹_ = (_, _)› ?_
    | with_reducible refine Wr.of_snd2 ‹_ = (_, _, _)› ?_
    | with_reducible apply Wr.of_id
    | split
    | dsimp only

theorem wrCal_CAL_XP_CTL_wr {m : Nat} {s0 : State} (x0 : Nat) (v : Word) (rq : Req) (s : State) (hm : subMask 0x500a00000000000000000000000000000000000000000000000000000000000000000000000000000000000000160fc0000000000000000 m = true) (h : Wr m s0 s) : Wr m s0 (wrCal .CAL_XP_CTL [x0] v rq s) := by
  refine Wr.lift (f := 0x500a00000000000000000000000000000000000000000000000000000000000000000000000000000000000000160fc0000000000000000) ?_ hm h
  unfold wrCal
  repeat' first
    | exact rfl
    | (refine (?_ : _ = true); dsimp only [List.all]; exact rfl)
    | with_reducible exact Wr.refl _ _
    | with_reducible assumption
    | contradiction
    | with_reducible apply State.calExport_wr
    | with_reducible apply State.pendResult_wr
    | with_reducible apply storeWord_wr
    | with_reducible apply State.calRestore_wr
    | with_reducible apply Wr.ite <;> intro _
    | with_reducible apply Wr.foldl <;> try intro _ _ _
    | with_reducible apply Wr.foldl_snd <;> try intro _ _ _
    | with_reducible refine Wr.of_snd ‹_ = (_, _)› ?_
    | with_reducible refine Wr.of_snd2 ‹_ = (_, _, _)› ?_
    | with_reducible apply Wr.of_id
    | split
    | dsimp only

theorem wrCal_CAL_RED_wr {m : Nat} {s0 : State} (x0 : Nat) (v : Word) (rq : Req) (s : State) (hm : subMask 0x20fc0000000000000000 m = true) (h : Wr m s0 s) : Wr m s0 (wrCal .CAL_RED [x0] v rq s) := by
  refine Wr.lift (f := 0x20fc0000000000000000) ?_ hm h
  unfold wrCal
  repeat' first
    | exact rfl
    | (refine (?_ : _ = true); dsimp only [List.all]; exact rfl)
    | with_reducible exact Wr.refl _ _
    | with_reducible assumption
    | contradiction
    | with_reducible apply State.calStart_wr
    | with_reducible apply Wr.of_keep (f := 1048576) (State.redChoose_keep (m := 1048576) _ _ _ _ rfl (Keep.refl _ _)) rfl
    | with_reducible apply storeWord_wr
    | with_reducible apply Wr.ite <;> intro _
    | with_reducible apply Wr.foldl <;> try intro _ _ _
    | with_reducible apply Wr.foldl_snd <;> try intro _ _ _
    | with_reducible refine Wr.of_snd ‹_ = (_, _)› ?_
    | with_reducible refine Wr.of_snd2 ‹_ = (_, _, _)› ?_
    | with_reducible apply Wr.of_id
    | split
    | dsimp only

theorem wrCal_CAL_CTL_wr {m : Nat} {s0 : State} (x0 : Nat) (v : Word) (rq : Req) (s : State) (hm : subMask 0x20fd0000000000000000 m = true) (h : Wr m s0 s) : Wr m s0 (wrCal .CAL_CTL [x0] v rq s) := by
  refine Wr.lift (f := 0x20fd0000000000000000) ?_ hm h
  unfold wrCal
  repeat' first
    | exact rfl
    | (refine (?_ : _ = true); dsimp only [List.all]; exact rfl)
    | with_reducible exact Wr.refl _ _
    | with_reducible assumption
    | contradiction
    | with_reducible apply State.calStart_wr
    | with_reducible apply storeWord_wr
    | with_reducible apply State.commit_wr
    | with_reducible apply Wr.of_keep (f := 1048576) (State.calUpd_keep (m := 1048576) _ _ _ rfl (Keep.refl _ _)) rfl
    | with_reducible apply Wr.ite <;> intro _
    | with_reducible apply Wr.foldl <;> try intro _ _ _
    | with_reducible apply Wr.foldl_snd <;> try intro _ _ _
    | with_reducible refine Wr.of_snd ‹_ = (_, _)› ?_
    | with_reducible refine Wr.of_snd2 ‹_ = (_, _, _)› ?_
    | with_reducible apply Wr.of_id
    | split
    | dsimp only

theorem execCalRun_wr (a0 : _) (a1 : _) (a2 : _) (s : State) (ha1 : a1 < 4) {t : State} (h : execCalRun a0 a1 a2 s = .next t) : Wr 0x40000f000000000000000000000000000000000000000000000000000000000000000000000000000000000000000000000000000000020fd0000000000000000 s t := by
  unfold execCalRun at h
  injection h with h
  subst h
  repeat' first
    | exact rfl
    | (refine (?_ : _ = true); dsimp only [List.all]; exact rfl)
    | with_reducible exact Wr.refl _ _
    | with_reducible assumption
    | with_reducible refine writeReg_wr (r0 := .CAL_CTL) ((show ∀ q, q < 4 → findReg (Reg.addr .CAL_CTL [q]) = some (.CAL_CTL, [q]) by decide +kernel) a1 ha1) (fun _ _ => ?_) ?_ ?_
    | with_reducible apply wrCal_CAL_CTL_wr
    | with_reducible apply Wr.ite <;> intro _
    | with_reducible apply Wr.foldl <;> try intro _ _ _
    | with_reducible apply Wr.foldl_snd <;> try intro _ _ _
    | with_reducible refine Wr.of_snd ‹_ = (_, _)› ?_
    | with_reducible refine Wr.of_snd2 ‹_ = (_, _, _)› ?_
    | with_reducible apply Wr.of_id
    | split
    | dsimp only

theorem execCalAbort_wr (a0 : _) (a1 : _) (a2 : _) (s : State) (ha1 : a1 < 4) {t : State} (h : execCalAbort a0 a1 a2 s = .next t) : Wr 0x40000f000000000000000000000000000000000000000000000000000000000000000000000000000000000000000000000000000000020fd0000000000000000 s t := by
  unfold execCalAbort at h
  injection h with h
  subst h
  repeat' first
    | exact rfl
    | (refine (?_ : _ = true); dsimp only [List.all]; exact rfl)
    | with_reducible exact Wr.refl _ _
    | with_reducible assumption
    | with_reducible refine writeReg_wr (r0 := .CAL_CTL) ((show ∀ q, q < 4 → findReg (Reg.addr .CAL_CTL [q]) = some (.CAL_CTL, [q]) by decide +kernel) a1 ha1) (fun _ _ => ?_) ?_ ?_
    | with_reducible apply wrCal_CAL_CTL_wr
    | with_reducible apply Wr.ite <;> intro _
    | with_reducible apply Wr.foldl <;> try intro _ _ _
    | with_reducible apply Wr.foldl_snd <;> try intro _ _ _
    | with_reducible refine Wr.of_snd ‹_ = (_, _)› ?_
    | with_reducible refine Wr.of_snd2 ‹_ = (_, _, _)› ?_
    | with_reducible apply Wr.of_id
    | split
    | dsimp only

theorem execCalEstimate_wr (a0 : _) (a1 : _) (a2 : _) (a3 : _) (a4 : _) (s : State) {t : State} (h : execCalEstimate a0 a1 a2 a3 a4 s = .next t) : Wr 0x1400000000000000000 s t := by
  unfold execCalEstimate at h
  injection h with h
  subst h
  repeat' first
    | exact rfl
    | (refine (?_ : _ = true); dsimp only [List.all]; exact rfl)
    | with_reducible exact Wr.refl _ _
    | with_reducible assumption
    | with_reducible apply State.calEstimate_wr
    | with_reducible apply Wr.ite <;> intro _
    | with_reducible apply Wr.foldl <;> try intro _ _ _
    | with_reducible apply Wr.foldl_snd <;> try intro _ _ _
    | with_reducible refine Wr.of_snd ‹_ = (_, _)› ?_
    | with_reducible refine Wr.of_snd2 ‹_ = (_, _, _)› ?_
    | with_reducible apply Wr.of_id
    | split
    | dsimp only

theorem execCalWindowStart_wr (a0 : _) (s : State) {t : State} (h : execCalWindowStart a0 s = .next t) : Wr 0x6240000004c040080000000000 s t := by
  unfold execCalWindowStart at h
  injection h with h
  subst h
  repeat' first
    | exact rfl
    | (refine (?_ : _ = true); dsimp only [List.all]; exact rfl)
    | with_reducible exact Wr.refl _ _
    | with_reducible assumption
    | with_reducible apply State.set_wr
    | with_reducible apply Wr.of_keep (f := 1048576) (State.quadUpd_keep (m := 1048576) _ _ _ rfl (Keep.refl _ _)) rfl
    | with_reducible apply Wr.of_keep (f := 4194304) (State.wacLine_keep (m := 4194304) _ rfl (Keep.refl _ _)) rfl
    | with_reducible apply State.phyLose_wr
    | with_reducible apply State.txLeave_wr
    | with_reducible apply State.visitsAbandon_wr
    | with_reducible apply Wr.ite <;> intro _
    | with_reducible apply Wr.foldl <;> try intro _ _ _
    | with_reducible apply Wr.foldl_snd <;> try intro _ _ _
    | with_reducible refine Wr.of_snd ‹_ = (_, _)› ?_
    | with_reducible refine Wr.of_snd2 ‹_ = (_, _, _)› ?_
    | with_reducible apply Wr.of_id
    | split
    | dsimp only

theorem execCalDone_wr (a0 : _) (a1 : _) (s : State) {t : State} (h : execCalDone a0 a1 s = .next t) : Wr 0x20fc0000000000000000 s t := by
  unfold execCalDone at h
  injection h with h
  subst h
  repeat' first
    | exact rfl
    | (refine (?_ : _ = true); dsimp only [List.all]; exact rfl)
    | with_reducible exact Wr.refl _ _
    | with_reducible assumption
    | with_reducible apply Wr.of_keep (f := 1048576) (State.gateOpens_keep (m := 1048576) _ _ _ rfl (Keep.refl _ _)) rfl
    | with_reducible apply Wr.of_keep (f := 1048576) (State.quadUpd_keep (m := 1048576) _ _ _ rfl (Keep.refl _ _)) rfl
    | with_reducible apply State.treesApply_wr
    | with_reducible apply Wr.of_keep (f := 1048576) (State.trimApply_keep (m := 1048576) _ _ _ rfl (Keep.refl _ _)) rfl
    | with_reducible apply State.calComplete_wr
    | with_reducible apply Wr.of_keep (f := 4194304) (State.wacLine_keep (m := 4194304) _ rfl (Keep.refl _ _)) rfl
    | with_reducible apply State.calStart_wr
    | with_reducible apply Wr.ite <;> intro _
    | with_reducible apply Wr.foldl <;> try intro _ _ _
    | with_reducible apply Wr.foldl_snd <;> try intro _ _ _
    | with_reducible refine Wr.of_snd ‹_ = (_, _)› ?_
    | with_reducible refine Wr.of_snd2 ‹_ = (_, _, _)› ?_
    | with_reducible apply Wr.of_id
    | split
    | dsimp only

theorem execCalRebook_wr (a0 : _) (s : State) {t : State} (h : execCalRebook a0 s = .next t) : Wr 0x4340000000000000000 s t := by
  unfold execCalRebook at h
  injection h with h
  subst h
  repeat' first
    | exact rfl
    | (refine (?_ : _ = true); dsimp only [List.all]; exact rfl)
    | with_reducible exact Wr.refl _ _
    | with_reducible assumption
    | with_reducible apply State.calCancel_wr
    | with_reducible apply Wr.ite <;> intro _
    | with_reducible apply Wr.foldl <;> try intro _ _ _
    | with_reducible apply Wr.foldl_snd <;> try intro _ _ _
    | with_reducible refine Wr.of_snd ‹_ = (_, _)› ?_
    | with_reducible refine Wr.of_snd2 ‹_ = (_, _, _)› ?_
    | with_reducible apply Wr.of_id
    | split
    | dsimp only

theorem execCalForced_wr (a0 : _) (s : State) {t : State} (h : execCalForced a0 s = .next t) : Wr 0x2340000000000000000 s t := by
  unfold execCalForced at h
  injection h with h
  subst h
  repeat' first
    | exact rfl
    | (refine (?_ : _ = true); dsimp only [List.all]; exact rfl)
    | with_reducible exact Wr.refl _ _
    | with_reducible assumption
    | with_reducible apply Wr.of_keep (f := 272) (State.raise_keep (m := 272) _ _ rfl (Keep.refl _ _)) rfl
    | with_reducible apply State.inc_wr
    | with_reducible apply State.calBook_wr
    | with_reducible apply Wr.of_keep (f := 784) (State.ashCal_keep (m := 784) _ _ _ _ rfl (Keep.refl _ _)) rfl
    | with_reducible apply Wr.ite <;> intro _
    | with_reducible apply Wr.foldl <;> try intro _ _ _
    | with_reducible apply Wr.foldl_snd <;> try intro _ _ _
    | with_reducible refine Wr.of_snd ‹_ = (_, _)› ?_
    | with_reducible refine Wr.of_snd2 ‹_ = (_, _, _)› ?_
    | with_reducible apply Wr.of_id
    | split
    | dsimp only

theorem execOrxElementReselect_wr (a0 : _) (a1 : _) (a2 : _) (a3 : _) (s : State) {t : State} (h : execOrxElementReselect a0 a1 a2 a3 s = .next t) : Wr 0x20000000000000000000 s t := by
  unfold execOrxElementReselect at h
  injection h with h
  subst h
  repeat' first
    | exact rfl
    | (refine (?_ : _ = true); dsimp only [List.all]; exact rfl)
    | with_reducible exact Wr.refl _ _
    | with_reducible assumption
    | with_reducible apply Wr.of_keep (f := 1048576) (State.calUpd_keep (m := 1048576) _ _ _ rfl (Keep.refl _ _)) rfl
    | with_reducible apply State.set_wr
    | with_reducible apply Wr.of_keep (f := 272) (State.raise_keep (m := 272) _ _ rfl (Keep.refl _ _)) rfl
    | with_reducible apply Wr.of_keep (f := 784) (State.ashCal_keep (m := 784) _ _ _ _ rfl (Keep.refl _ _)) rfl
    | with_reducible apply Wr.ite <;> intro _
    | with_reducible apply Wr.foldl <;> try intro _ _ _
    | with_reducible apply Wr.foldl_snd <;> try intro _ _ _
    | with_reducible refine Wr.of_snd ‹_ = (_, _)› ?_
    | with_reducible refine Wr.of_snd2 ‹_ = (_, _, _)› ?_
    | with_reducible apply Wr.of_id
    | split
    | dsimp only

theorem execCalCommit_wr (a0 : _) (a1 : _) (s : State) (ha1 : a1 < 4) {t : State} (h : execCalCommit a0 a1 s = .next t) : Wr 0x40000f000000000000000000000000000000000000000000000000000000000000000000000000000000000000000000000000000000020fc0000000000000000 s t := by
  unfold execCalCommit at h
  injection h with h
  subst h
  repeat' first
    | exact rfl
    | (refine (?_ : _ = true); dsimp only [List.all]; exact rfl)
    | with_reducible exact Wr.refl _ _
    | with_reducible assumption
    | with_reducible refine writeReg_wr (r0 := .CAL_COMMIT) ((show ∀ q, q < 4 → findReg (Reg.addr .CAL_COMMIT [q]) = some (.CAL_COMMIT, [q]) by decide +kernel) a1 ha1) (fun _ _ => ?_) ?_ ?_
    | with_reducible apply wrCal_CAL_COMMIT_wr
    | with_reducible apply Wr.ite <;> intro _
    | with_reducible apply Wr.foldl <;> try intro _ _ _
    | with_reducible apply Wr.foldl_snd <;> try intro _ _ _
    | with_reducible refine Wr.of_snd ‹_ = (_, _)› ?_
    | with_reducible refine Wr.of_snd2 ‹_ = (_, _, _)› ?_
    | with_reducible apply Wr.of_id
    | split
    | dsimp only

theorem execCalLoad_wr (a0 : _) (a1 : _) (s : State) (ha1 : a1 < 4) {t : State} (h : execCalLoad a0 a1 s = .next t) : Wr 0x40000f000000000000000000000000000000000000000000000000000000000000000000000000000000000000000000000000000000020fc0000000000000000 s t := by
  unfold execCalLoad at h
  injection h with h
  subst h
  repeat' first
    | exact rfl
    | (refine (?_ : _ = true); dsimp only [List.all]; exact rfl)
    | with_reducible exact Wr.refl _ _
    | with_reducible assumption
    | with_reducible refine writeReg_wr (r0 := .CAL_COMMIT) ((show ∀ q, q < 4 → findReg (Reg.addr .CAL_COMMIT [q]) = some (.CAL_COMMIT, [q]) by decide +kernel) a1 ha1) (fun _ _ => ?_) ?_ ?_
    | with_reducible apply wrCal_CAL_COMMIT_wr
    | with_reducible apply Wr.ite <;> intro _
    | with_reducible apply Wr.foldl <;> try intro _ _ _
    | with_reducible apply Wr.foldl_snd <;> try intro _ _ _
    | with_reducible refine Wr.of_snd ‹_ = (_, _)› ?_
    | with_reducible refine Wr.of_snd2 ‹_ = (_, _, _)› ?_
    | with_reducible apply Wr.of_id
    | split
    | dsimp only

theorem execCalRed_wr (a0 : _) (a1 : _) (a2 : _) (s : State) (ha1 : a1 < 4) {t : State} (h : execCalRed a0 a1 a2 s = .next t) : Wr 0x40000f000000000000000000000000000000000000000000000000000000000000000000000000000000000000000000000000000000020fc0000000000000000 s t := by
  unfold execCalRed at h
  injection h with h
  subst h
  repeat' first
    | exact rfl
    | (refine (?_ : _ = true); dsimp only [List.all]; exact rfl)
    | with_reducible exact Wr.refl _ _
    | with_reducible assumption
    | with_reducible refine writeReg_wr (r0 := .CAL_RED) ((show ∀ q, q < 4 → findReg (Reg.addr .CAL_RED [q]) = some (.CAL_RED, [q]) by decide +kernel) a1 ha1) (fun _ _ => ?_) ?_ ?_
    | with_reducible apply wrCal_CAL_RED_wr
    | with_reducible apply Wr.ite <;> intro _
    | with_reducible apply Wr.foldl <;> try intro _ _ _
    | with_reducible apply Wr.foldl_snd <;> try intro _ _ _
    | with_reducible refine Wr.of_snd ‹_ = (_, _)› ?_
    | with_reducible refine Wr.of_snd2 ‹_ = (_, _, _)› ?_
    | with_reducible apply Wr.of_id
    | split
    | dsimp only

theorem execCalExport_wr (a0 : _) (a1 : _) (a2 : _) (s : State) (ha1 : a1 < 4) {t : State} (h : execCalExport a0 a1 a2 s = .next t) : Wr 0x40000f000000000000500a00000000000000000000000000000000000000000000000000000000000000000000000000000000000000160fc0000000000000000 s t := by
  unfold execCalExport at h
  injection h with h
  subst h
  repeat' first
    | exact rfl
    | (refine (?_ : _ = true); dsimp only [List.all]; exact rfl)
    | with_reducible exact Wr.refl _ _
    | with_reducible assumption
    | with_reducible refine writeReg_wr (r0 := .CAL_XP_CTL) ((show ∀ q, q < 4 → findReg (Reg.addr .CAL_XP_CTL [q]) = some (.CAL_XP_CTL, [q]) by decide +kernel) a1 ha1) (fun _ _ => ?_) ?_ ?_
    | with_reducible apply wrCal_CAL_XP_CTL_wr
    | with_reducible apply Wr.ite <;> intro _
    | with_reducible apply Wr.foldl <;> try intro _ _ _
    | with_reducible apply Wr.foldl_snd <;> try intro _ _ _
    | with_reducible refine Wr.of_snd ‹_ = (_, _)› ?_
    | with_reducible refine Wr.of_snd2 ‹_ = (_, _, _)› ?_
    | with_reducible apply Wr.of_id
    | split
    | dsimp only

theorem execCalRestore_wr (a0 : _) (a1 : _) (a2 : _) (s : State) (ha1 : a1 < 4) {t : State} (h : execCalRestore a0 a1 a2 s = .next t) : Wr 0x40000f000000000000500a00000000000000000000000000000000000000000000000000000000000000000000000000000000000000160fc0000000000000000 s t := by
  unfold execCalRestore at h
  injection h with h
  subst h
  repeat' first
    | exact rfl
    | (refine (?_ : _ = true); dsimp only [List.all]; exact rfl)
    | with_reducible exact Wr.refl _ _
    | with_reducible assumption
    | with_reducible refine writeReg_wr (r0 := .CAL_XP_CTL) ((show ∀ q, q < 4 → findReg (Reg.addr .CAL_XP_CTL [q]) = some (.CAL_XP_CTL, [q]) by decide +kernel) a1 ha1) (fun _ _ => ?_) ?_ ?_
    | with_reducible apply wrCal_CAL_XP_CTL_wr
    | with_reducible apply Wr.ite <;> intro _
    | with_reducible apply Wr.foldl <;> try intro _ _ _
    | with_reducible apply Wr.foldl_snd <;> try intro _ _ _
    | with_reducible refine Wr.of_snd ‹_ = (_, _)› ?_
    | with_reducible refine Wr.of_snd2 ‹_ = (_, _, _)› ?_
    | with_reducible apply Wr.of_id
    | split
    | dsimp only

theorem execCrossfade_wr (a0 : _) (a1 : _) (a2 : _) (s : State) {t : State} (h : execCrossfade a0 a1 a2 s = .next t) : Wr 0x20000000000000 s t := by
  unfold execCrossfade at h
  injection h with h
  subst h
  repeat' first
    | exact rfl
    | (refine (?_ : _ = true); dsimp only [List.all]; exact rfl)
    | with_reducible exact Wr.refl _ _
    | with_reducible assumption
    | with_reducible apply State.dpdActivate_wr
    | with_reducible apply Wr.of_keep (f := 1048576) (State.calTxStart_keep (m := 1048576) _ _ rfl (Keep.refl _ _)) rfl
    | with_reducible apply Wr.of_keep (f := 1048576) (State.calRxStart_keep (m := 1048576) _ _ rfl (Keep.refl _ _)) rfl
    | with_reducible apply Wr.ite <;> intro _
    | with_reducible apply Wr.foldl <;> try intro _ _ _
    | with_reducible apply Wr.foldl_snd <;> try intro _ _ _
    | with_reducible refine Wr.of_snd ‹_ = (_, _)› ?_
    | with_reducible refine Wr.of_snd2 ‹_ = (_, _, _)› ?_
    | with_reducible apply Wr.of_id
    | split
    | dsimp only

end Sys2Proof.Machine
end

