-- ==== Sys2Proof/Laws/WrHka.lean ====
section
/-! SUPPORT. The registers that each operation of Machine/Hka.lean may change. -/

set_option Elab.async false

namespace Sys2Proof.Machine

theorem State.hkaSkip_wr {m : Nat} {s0 : State} (s : State) (hm : subMask 0x4000000000000000000000 m = true) (h : Wr m s0 s) : Wr m s0 (State.hkaSkip s) := by
  refine Wr.lift (f := 0x4000000000000000000000) ?_ hm h
  unfold State.hkaSkip
  repeat' first
    | exact rfl
    | (refine (?_ : _ = true); dsimp only [List.all]; exact rfl)
    | with_reducible exact Wr.refl _ _
    | with_reducible assumption
    | with_reducible apply State.set_wr
    | with_reducible apply Wr.ite <;> intro _
    | with_reducible apply Wr.foldl <;> try intro _ _ _
    | with_reducible apply Wr.foldl_snd <;> try intro _ _ _
    | with_reducible refine Wr.of_snd ‹_ = (_, _)› ?_
    | with_reducible refine Wr.of_snd2 ‹_ = (_, _, _)› ?_
    | with_reducible apply Wr.of_id
    | split
    | dsimp only

theorem State.hkaOff_wr {m : Nat} {s0 : State} (s : State) (hm : subMask 0x4800000000000000000000 m = true) (h : Wr m s0 s) : Wr m s0 (State.hkaOff s) := by
  refine Wr.lift (f := 0x4800000000000000000000) ?_ hm h
  unfold State.hkaOff
  repeat' first
    | exact rfl
    | (refine (?_ : _ = true); dsimp only [List.all]; exact rfl)
    | with_reducible exact Wr.refl _ _
    | with_reducible assumption
    | with_reducible apply State.set_wr
    | with_reducible apply Wr.of_keep (f := 1048576) (State.hkaUpd_keep (m := 1048576) _ _ rfl (Keep.refl _ _)) rfl
    | with_reducible apply Wr.ite <;> intro _
    | with_reducible apply Wr.foldl <;> try intro _ _ _
    | with_reducible apply Wr.foldl_snd <;> try intro _ _ _
    | with_reducible refine Wr.of_snd ‹_ = (_, _)› ?_
    | with_reducible refine Wr.of_snd2 ‹_ = (_, _, _)› ?_
    | with_reducible apply Wr.of_id
    | split
    | dsimp only

theorem State.hkaBegin_wr {m : Nat} {s0 : State} (s : State) (hm : subMask 0x2200000000000000000000 m = true) (h : Wr m s0 s) : Wr m s0 (State.hkaBegin s) := by
  refine Wr.lift (f := 0x2200000000000000000000) ?_ hm h
  refine State.resetRegs_wr _ _ (fun r hr c ix => ?_) (Wr.refl _ _)
  rw [keyReg_regKey]
  cases r <;> first | rfl | exact absurd hr (by decide)

theorem State.hkaPush_wr {m : Nat} {s0 : State} (s : State) (a1 : _) (a2 : _) (a3 : _) (hm : subMask 0x8800000000000000000000 m = true) (h : Wr m s0 s) : Wr m s0 (State.hkaPush s a1 a2 a3) := by
  refine Wr.lift (f := 0x8800000000000000000000) ?_ hm h
  unfold State.hkaPush
  repeat' first
    | exact rfl
    | (refine (?_ : _ = true); dsimp only [List.all]; exact rfl)
    | with_reducible exact Wr.refl _ _
    | with_reducible assumption
    | with_reducible apply Wr.of_keep (f := 1048576) (State.hkaUpd_keep (m := 1048576) _ _ rfl (Keep.refl _ _)) rfl
    | with_reducible apply State.inc_wr
    | with_reducible apply Wr.of_keep (f := 272) (State.raise_keep (m := 272) _ _ rfl (Keep.refl _ _)) rfl
    | with_reducible apply State.set_wr
    | with_reducible apply Wr.ite <;> intro _
    | with_reducible apply Wr.foldl <;> try intro _ _ _
    | with_reducible apply Wr.foldl_snd <;> try intro _ _ _
    | with_reducible refine Wr.of_snd ‹_ = (_, _)› ?_
    | with_reducible refine Wr.of_snd2 ‹_ = (_, _, _)› ?_
    | with_reducible apply Wr.of_id
    | split
    | dsimp only

theorem rdHka_HKA_POP_wr {m : Nat} {s0 : State} (rq : Req) (s : State) (hm : subMask 0x800000000000000000000 m = true) (h : Wr m s0 s) : Wr m s0 (rdHka .HKA_POP [] rq s).2 := by
  refine Wr.lift (f := 0x800000000000000000000) ?_ hm h
  unfold rdHka
  repeat' first
    | exact rfl
    | (refine (?_ : _ = true); dsimp only [List.all]; exact rfl)
    | with_reducible exact Wr.refl _ _
    | with_reducible assumption
    | contradiction
    | with_reducible apply State.set_wr
    | with_reducible apply Wr.of_keep (f := 1048576) (State.hkaUpd_keep (m := 1048576) _ _ rfl (Keep.refl _ _)) rfl
    | with_reducible apply Wr.ite <;> intro _
    | with_reducible apply Wr.foldl <;> try intro _ _ _
    | with_reducible apply Wr.foldl_snd <;> try intro _ _ _
    | with_reducible refine Wr.of_snd ‹_ = (_, _)› ?_
    | with_reducible refine Wr.of_snd2 ‹_ = (_, _, _)› ?_
    | with_reducible apply Wr.of_id
    | split
    | dsimp only

theorem State.hkaStart_wr {m : Nat} {s0 : State} (s : State) (a1 : _) (a2 : _) (hm : subMask 0x4000000000000000000000 m = true) (h : Wr m s0 s) : Wr m s0 (State.hkaStart s a1 a2) := by
  refine Wr.lift (f := 0x4000000000000000000000) ?_ hm h
  unfold State.hkaStart
  repeat' first
    | exact rfl
    | (refine (?_ : _ = true); dsimp only [List.all]; exact rfl)
    | with_reducible exact Wr.refl _ _
    | with_reducible assumption
    | with_reducible apply State.set_wr
    | with_reducible apply Wr.ite <;> intro _
    | with_reducible apply Wr.foldl <;> try intro _ _ _
    | with_reducible apply Wr.foldl_snd <;> try intro _ _ _
    | with_reducible refine Wr.of_snd ‹_ = (_, _)› ?_
    | with_reducible refine Wr.of_snd2 ‹_ = (_, _, _)› ?_
    | with_reducible apply Wr.of_id
    | split
    | dsimp only

theorem execHkaResult_wr (a0 : _) (a1 : _) (a2 : _) (s : State) {t : State} (h : execHkaResult a0 a1 a2 s = .next t) : Wr 0xc820fc0000000000000000 s t := by
  unfold execHkaResult at h
  injection h with h
  subst h
  repeat' first
    | exact rfl
    | (refine (?_ : _ = true); dsimp only [List.all]; exact rfl)
    | with_reducible exact Wr.refl _ _
    | with_reducible assumption
    | with_reducible apply State.set_wr
    | with_reducible apply Wr.of_keep (f := 1048576) (State.hkaUpd_keep (m := 1048576) _ _ rfl (Keep.refl _ _)) rfl
    | with_reducible apply State.commit_wr
    | with_reducible apply State.hkaPush_wr
    | with_reducible apply State.calTemp_wr
    | with_reducible apply Wr.of_keep (f := 1048576) (State.calUpd_keep (m := 1048576) _ _ _ rfl (Keep.refl _ _)) rfl
    | with_reducible apply State.hkaStart_wr
    | with_reducible apply Wr.ite <;> intro _
    | with_reducible apply Wr.foldl <;> try intro _ _ _
    | with_reducible apply Wr.foldl_snd <;> try intro _ _ _
    | with_reducible refine Wr.of_snd ‹_ = (_, _)› ?_
    | with_reducible refine Wr.of_snd2 ‹_ = (_, _, _)› ?_
    | with_reducible apply Wr.of_id
    | split
    | dsimp only

theorem execHkaPop_wr (a0 : _) (s : State) {t : State} (h : execHkaPop a0 s = .next t) : Wr 0x40000f000000000000000000000000000000000000000000000000000000000000000000000000000000000000000000000000000000800000000000000000000 s t := by
  unfold execHkaPop at h
  injection h with h
  subst h
  repeat' first
    | exact rfl
    | (refine (?_ : _ = true); dsimp only [List.all]; exact rfl)
    | with_reducible exact Wr.refl _ _
    | with_reducible assumption
    | with_reducible refine readReg_wr (r0 := .HKA_POP) (show findReg (Reg.addr .HKA_POP []) = some (.HKA_POP, []) by decide +kernel) (fun _ _ => ?_) ?_ ?_
    | with_reducible apply rdHka_HKA_POP_wr
    | with_reducible apply Wr.ite <;> intro _
    | with_reducible apply Wr.foldl <;> try intro _ _ _
    | with_reducible apply Wr.foldl_snd <;> try intro _ _ _
    | with_reducible refine Wr.of_snd ‹_ = (_, _)› ?_
    | with_reducible refine Wr.of_snd2 ‹_ = (_, _, _)› ?_
    | with_reducible apply Wr.of_id
    | split
    | dsimp only

theorem execPlausFail_wr (a0 : _) (a1 : _) (s : State) {t : State} (h : execPlausFail a0 a1 s = .next t) : Wr 0x11020fc0000000000000000 s t := by
  unfold execPlausFail at h
  injection h with h
  subst h
  repeat' first
    | exact rfl
    | (refine (?_ : _ = true); dsimp only [List.all]; exact rfl)
    | with_reducible exact Wr.refl _ _
    | with_reducible assumption
    | with_reducible apply State.commit_wr
    | with_reducible apply Wr.of_keep (f := 1048576) (State.hkaUpd_keep (m := 1048576) _ _ rfl (Keep.refl _ _)) rfl
    | with_reducible apply Wr.of_keep (f := 784) (State.ashAdd_keep (m := 784) _ _ _ _ rfl (Keep.refl _ _)) rfl
    | with_reducible apply Wr.of_keep (f := 272) (State.raise_keep (m := 272) _ _ rfl (Keep.refl _ _)) rfl
    | with_reducible apply State.inc_wr
    | with_reducible apply State.calTemp_wr
    | with_reducible apply Wr.ite <;> intro _
    | with_reducible apply Wr.foldl <;> try intro _ _ _
    | with_reducible apply Wr.foldl_snd <;> try intro _ _ _
    | with_reducible refine Wr.of_snd ‹_ = (_, _)› ?_
    | with_reducible refine Wr.of_snd2 ‹_ = (_, _, _)› ?_
    | with_reducible apply Wr.of_id
    | split
    | dsimp only

end Sys2Proof.Machine
end

