-- ==== Sys2Proof/Laws/WrPhy.lean ====
section
/-! SUPPORT. The registers that each operation of Machine/Phy.lean may change. -/

set_option Elab.async false

namespace Sys2Proof.Machine

theorem State.phyBeams_wr {m : Nat} {s0 : State} (s : State) (a1 : _) (a2 : _) (hm : subMask 0x3000000000000 m = true) (h : Wr m s0 s) : Wr m s0 (State.phyBeams s a1 a2) := by
  refine Wr.lift (f := 0x3000000000000) ?_ hm h
  unfold State.phyBeams
  repeat' first
    | exact rfl
    | (refine (?_ : _ = true); dsimp only [List.all]; exact rfl)
    | with_reducible exact Wr.refl _ _
    | with_reducible assumption
    | with_reducible apply State.beamsHear_wr
    | with_reducible apply Wr.ite <;> intro _
    | with_reducible apply Wr.foldl <;> try intro _ _ _
    | with_reducible apply Wr.foldl_snd <;> try intro _ _ _
    | with_reducible refine Wr.of_snd ‹_ = (_, _)› ?_
    | with_reducible refine Wr.of_snd2 ‹_ = (_, _, _)› ?_
    | with_reducible apply Wr.of_id
    | split
    | dsimp only

theorem State.phyFail_wr {m : Nat} {s0 : State} (s : State) (a1 : _) (hm : subMask 0x22000000000000000000000000 m = true) (h : Wr m s0 s) : Wr m s0 (State.phyFail s a1) := by
  refine Wr.lift (f := 0x22000000000000000000000000) ?_ hm h
  unfold State.phyFail
  repeat' first
    | exact rfl
    | (refine (?_ : _ = true); dsimp only [List.all]; exact rfl)
    | with_reducible exact Wr.refl _ _
    | with_reducible assumption
    | with_reducible apply State.falseStart_wr
    | with_reducible apply Wr.of_keep (f := 2097152) (State.phyProv_keep (m := 2097152) _ _ _ rfl (Keep.refl _ _)) rfl
    | with_reducible apply Wr.of_keep (f := 2097152) (State.phyUpd_keep (m := 2097152) _ _ _ rfl (Keep.refl _ _)) rfl
    | with_reducible apply Wr.ite <;> intro _
    | with_reducible apply Wr.foldl <;> try intro _ _ _
    | with_reducible apply Wr.foldl_snd <;> try intro _ _ _
    | with_reducible refine Wr.of_snd ‹_ = (_, _)› ?_
    | with_reducible refine Wr.of_snd2 ‹_ = (_, _, _)› ?_
    | with_reducible apply Wr.of_id
    | split
    | dsimp only

theorem State.ldpcEnter_wr {m : Nat} {s0 : State} (s : State) (a1 : _) (a2 : _) (a3 : _) (a4 : _) (hm : subMask 0x20000000000000000000000000000 m = true) (h : Wr m s0 s) : Wr m s0 (State.ldpcEnter s a1 a2 a3 a4).2 := by
  refine Wr.lift (f := 0x20000000000000000000000000000) ?_ hm h
  unfold State.ldpcEnter
  repeat' first
    | exact rfl
    | (refine (?_ : _ = true); dsimp only [List.all]; exact rfl)
    | with_reducible exact Wr.refl _ _
    | with_reducible assumption
    | with_reducible apply Wr.of_keep (f := 2097152) (State.bbUpd_keep (m := 2097152) _ _ rfl (Keep.refl _ _)) rfl
    | with_reducible apply Wr.of_keep (f := 2097152) (State.ldpcFill_keep (m := 2097152) _ rfl (Keep.refl _ _)) rfl
    | with_reducible apply State.incBy_wr
    | with_reducible apply Wr.of_keep (f := 272) (State.raise_keep (m := 272) _ _ rfl (Keep.refl _ _)) rfl
    | with_reducible apply Wr.ite <;> intro _
    | with_reducible apply Wr.foldl <;> try intro _ _ _
    | with_reducible apply Wr.foldl_snd <;> try intro _ _ _
    | with_reducible refine Wr.of_snd ‹_ = (_, _)› ?_
    | with_reducible refine Wr.of_snd2 ‹_ = (_, _, _)› ?_
    | with_reducible apply Wr.of_id
    | split
    | dsimp only

theorem State.phyCommit_wr {m : Nat} {s0 : State} (s : State) (a1 : _) (a2 : _) (a3 : _) (hm : subMask 0x20039000000000000000000000000 m = true) (h : Wr m s0 s) : Wr m s0 (State.phyCommit s a1 a2 a3) := by
  refine Wr.lift (f := 0x20039000000000000000000000000) ?_ hm h
  unfold State.phyCommit
  repeat' first
    | exact rfl
    | (refine (?_ : _ = true); dsimp only [List.all]; exact rfl)
    | with_reducible exact Wr.refl _ _
    | with_reducible assumption
    | with_reducible apply State.incBy_wr
    | with_reducible apply State.inc_wr
    | with_reducible apply State.ldpcEnter_wr
    | with_reducible apply Wr.of_keep (f := 2097152) (State.phyUpd_keep (m := 2097152) _ _ _ rfl (Keep.refl _ _)) rfl
    | with_reducible apply Wr.ite <;> intro _
    | with_reducible apply Wr.foldl <;> try intro _ _ _
    | with_reducible apply Wr.foldl_snd <;> try intro _ _ _
    | with_reducible refine Wr.of_snd ‹_ = (_, _)› ?_
    | with_reducible refine Wr.of_snd2 ‹_ = (_, _, _)› ?_
    | with_reducible apply Wr.of_id
    | split
    | dsimp only

theorem State.phyField_wr {m : Nat} {s0 : State} (s : State) (a1 : _) (a2 : _) (a3 : _) (a4 : _) (hm : subMask 0x2003b000000000000000000000000 m = true) (h : Wr m s0 s) : Wr m s0 (State.phyField s a1 a2 a3 a4) := by
  refine Wr.lift (f := 0x2003b000000000000000000000000) ?_ hm h
  unfold State.phyField
  repeat' first
    | exact rfl
    | (refine (?_ : _ = true); dsimp only [List.all]; exact rfl)
    | with_reducible exact Wr.refl _ _
    | with_reducible assumption
    | with_reducible apply Wr.of_keep (f := 2097152) (State.phyUpd_keep (m := 2097152) _ _ _ rfl (Keep.refl _ _)) rfl
    | with_reducible apply State.phyCommit_wr
    | with_reducible apply State.phyFail_wr
    | with_reducible apply Wr.ite <;> intro _
    | with_reducible apply Wr.foldl <;> try intro _ _ _
    | with_reducible apply Wr.foldl_snd <;> try intro _ _ _
    | with_reducible refine Wr.of_snd ‹_ = (_, _)› ?_
    | with_reducible refine Wr.of_snd2 ‹_ = (_, _, _)› ?_
    | with_reducible apply Wr.of_id
    | split
    | dsimp only

theorem State.sndDropped_wr {m : Nat} {s0 : State} (s : State) (hm : subMask 0x4000000000000000000000000000 m = true) (h : Wr m s0 s) : Wr m s0 (State.sndDropped s) := by
  refine Wr.lift (f := 0x4000000000000000000000000000) ?_ hm h
  unfold State.sndDropped
  repeat' first
    | exact rfl
    | (refine (?_ : _ = true); dsimp only [List.all]; exact rfl)
    | with_reducible exact Wr.refl _ _
    | with_reducible assumption
    | with_reducible apply Wr.of_keep (f := 2097152) (State.bbUpd_keep (m := 2097152) _ _ rfl (Keep.refl _ _)) rfl
    | with_reducible apply State.inc_wr
    | with_reducible apply Wr.of_keep (f := 272) (State.raise_keep (m := 272) _ _ rfl (Keep.refl _ _)) rfl
    | with_reducible apply Wr.ite <;> intro _
    | with_reducible apply Wr.foldl <;> try intro _ _ _
    | with_reducible apply Wr.foldl_snd <;> try intro _ _ _
    | with_reducible refine Wr.of_snd ‹_ = (_, _)› ?_
    | with_reducible refine Wr.of_snd2 ‹_ = (_, _, _)› ?_
    | with_reducible apply Wr.of_id
    | split
    | dsimp only

theorem State.sndWrite_wr {m : Nat} {s0 : State} (s : State) (a1 : _) (a2 : _) (a3 : _) (a4 : _) (hm : subMask 0x4000000000000000000000000000 m = true) (h : Wr m s0 s) : Wr m s0 (State.sndWrite s a1 a2 a3 a4).2 := by
  refine Wr.lift (f := 0x4000000000000000000000000000) ?_ hm h
  unfold State.sndWrite
  repeat' first
    | exact rfl
    | (refine (?_ : _ = true); dsimp only [List.all]; exact rfl)
    | with_reducible exact Wr.refl _ _
    | with_reducible assumption
    | with_reducible apply Wr.of_keep (f := 65600) (State.memWrite_keep (m := 65600) _ _ _ _ rfl (Keep.refl _ _)) rfl
    | with_reducible apply Wr.of_keep (f := 2097152) (State.bbUpd_keep (m := 2097152) _ _ rfl (Keep.refl _ _)) rfl
    | with_reducible apply Wr.of_keep (f := 272) (State.raise_keep (m := 272) _ _ rfl (Keep.refl _ _)) rfl
    | with_reducible apply State.sndDropped_wr
    | with_reducible apply Wr.ite <;> intro _
    | with_reducible apply Wr.foldl <;> try intro _ _ _
    | with_reducible apply Wr.foldl_snd <;> try intro _ _ _
    | with_reducible refine Wr.of_snd ‹_ = (_, _)› ?_
    | with_reducible refine Wr.of_snd2 ‹_ = (_, _, _)› ?_
    | with_reducible apply Wr.of_id
    | split
    | dsimp only

theorem State.dfsHit_wr {m : Nat} {s0 : State} (s : State) (a1 : _) (a2 : _) (a3 : _) (hm : subMask 0x200000000000000000000000000000 m = true) (h : Wr m s0 s) : Wr m s0 (State.dfsHit s a1 a2 a3) := by
  refine Wr.lift (f := 0x200000000000000000000000000000) ?_ hm h
  unfold State.dfsHit
  repeat' first
    | exact rfl
    | (refine (?_ : _ = true); dsimp only [List.all]; exact rfl)
    | with_reducible exact Wr.refl _ _
    | with_reducible assumption
    | with_reducible apply Wr.of_keep (f := 2097152) (State.phyUpd_keep (m := 2097152) _ _ _ rfl (Keep.refl _ _)) rfl
    | with_reducible apply State.setDfs_wr
    | with_reducible apply Wr.of_keep (f := 784) (State.ashAdd_keep (m := 784) _ _ _ _ rfl (Keep.refl _ _)) rfl
    | with_reducible apply Wr.of_keep (f := 272) (State.raise_keep (m := 272) _ _ rfl (Keep.refl _ _)) rfl
    | with_reducible apply Wr.ite <;> intro _
    | with_reducible apply Wr.foldl <;> try intro _ _ _
    | with_reducible apply Wr.foldl_snd <;> try intro _ _ _
    | with_reducible refine Wr.of_snd ‹_ = (_, _)› ?_
    | with_reducible refine Wr.of_snd2 ‹_ = (_, _, _)› ?_
    | with_reducible apply Wr.of_id
    | split
    | dsimp only

theorem wrPhy_SND_SLOT_FREE_wr {m : Nat} {s0 : State} (v : Word) (rq : Req) (s : State) (hm : subMask 0 m = true) (h : Wr m s0 s) : Wr m s0 (wrPhy .SND_SLOT_FREE [] v rq s) := by
  refine Wr.lift (f := 0) ?_ hm h
  unfold wrPhy
  repeat' first
    | exact rfl
    | (refine (?_ : _ = true); dsimp only [List.all]; exact rfl)
    | with_reducible exact Wr.refl _ _
    | with_reducible assumption
    | contradiction
    | with_reducible apply Wr.of_keep (f := 2097152) (State.bbUpd_keep (m := 2097152) _ _ rfl (Keep.refl _ _)) rfl
    | with_reducible apply Wr.ite <;> intro _
    | with_reducible apply Wr.foldl <;> try intro _ _ _
    | with_reducible apply Wr.foldl_snd <;> try intro _ _ _
    | with_reducible refine Wr.of_snd ‹_ = (_, _)› ?_
    | with_reducible refine Wr.of_snd2 ‹_ = (_, _, _)› ?_
    | with_reducible apply Wr.of_id
    | split
    | dsimp only

theorem wrPhy_PHY_DFS_CTL_wr {m : Nat} {s0 : State} (x0 : Nat) (v : Word) (rq : Req) (s : State) (hm : subMask 0x200000000000000000000000000000 m = true) (h : Wr m s0 s) : Wr m s0 (wrPhy .PHY_DFS_CTL [x0] v rq s) := by
  refine Wr.lift (f := 0x200000000000000000000000000000) ?_ hm h
  unfold wrPhy
  repeat' first
    | exact rfl
    | (refine (?_ : _ = true); dsimp only [List.all]; exact rfl)
    | with_reducible exact Wr.refl _ _
    | with_reducible assumption
    | contradiction
    | with_reducible apply Wr.of_keep (f := 2097152) (State.phyUpd_keep (m := 2097152) _ _ _ rfl (Keep.refl _ _)) rfl
    | with_reducible apply State.setDfs_wr
    | with_reducible apply Wr.ite <;> intro _
    | with_reducible apply Wr.foldl <;> try intro _ _ _
    | with_reducible apply Wr.foldl_snd <;> try intro _ _ _
    | with_reducible refine Wr.of_snd ‹_ = (_, _)› ?_
    | with_reducible refine Wr.of_snd2 ‹_ = (_, _, _)› ?_
    | with_reducible apply Wr.of_id
    | split
    | dsimp only

theorem rdPhy_SND_EST_POP_wr {m : Nat} {s0 : State} (rq : Req) (s : State) (hm : subMask 0 m = true) (h : Wr m s0 s) : Wr m s0 (rdPhy .SND_EST_POP [] rq s).2 := by
  refine Wr.lift (f := 0) ?_ hm h
  unfold rdPhy
  repeat' first
    | exact rfl
    | (refine (?_ : _ = true); dsimp only [List.all]; exact rfl)
    | with_reducible exact Wr.refl _ _
    | with_reducible assumption
    | contradiction
    | with_reducible apply Wr.of_keep (f := 2097152) (State.bbUpd_keep (m := 2097152) _ _ rfl (Keep.refl _ _)) rfl
    | with_reducible apply Wr.ite <;> intro _
    | with_reducible apply Wr.foldl <;> try intro _ _ _
    | with_reducible apply Wr.foldl_snd <;> try intro _ _ _
    | with_reducible refine Wr.of_snd ‹_ = (_, _)› ?_
    | with_reducible refine Wr.of_snd2 ‹_ = (_, _, _)› ?_
    | with_reducible apply Wr.of_id
    | split
    | dsimp only

theorem rdPhy_PHY_DFS_POP_wr {m : Nat} {s0 : State} (x0 : Nat) (rq : Req) (s : State) (hm : subMask 0x800000000000000000000000000000 m = true) (h : Wr m s0 s) : Wr m s0 (rdPhy .PHY_DFS_POP [x0] rq s).2 := by
  refine Wr.lift (f := 0x800000000000000000000000000000) ?_ hm h
  unfold rdPhy
  repeat' first
    | exact rfl
    | (refine (?_ : _ = true); dsimp only [List.all]; exact rfl)
    | with_reducible exact Wr.refl _ _
    | with_reducible assumption
    | contradiction
    | with_reducible apply State.setReg_wr
    | with_reducible apply Wr.of_keep (f := 2097152) (State.phyUpd_keep (m := 2097152) _ _ _ rfl (Keep.refl _ _)) rfl
    | with_reducible apply Wr.ite <;> intro _
    | with_reducible apply Wr.foldl <;> try intro _ _ _
    | with_reducible apply Wr.foldl_snd <;> try intro _ _ _
    | with_reducible refine Wr.of_snd ‹_ = (_, _)› ?_
    | with_reducible refine Wr.of_snd2 ‹_ = (_, _, _)› ?_
    | with_reducible apply Wr.of_id
    | split
    | dsimp only

theorem execPreambleDetect_wr (a0 : _) (a1 : _) (a2 : _) (a3 : _) (a4 : _) (a5 : _) (s : State) {t : State} (h : execPreambleDetect a0 a1 a2 a3 a4 a5 s = .next t) : Wr 0x400000000003000000000000 s t := by
  unfold execPreambleDetect at h
  injection h with h
  subst h
  repeat' first
    | exact rfl
    | (refine (?_ : _ = true); dsimp only [List.all]; exact rfl)
    | with_reducible exact Wr.refl _ _
    | with_reducible assumption
    | with_reducible refine State.phyDo_wr _ _ _ (fun _ _ => ?_) ?_ ?_
    | with_reducible apply Wr.of_keep (f := 1048576) (State.phyCals_keep (m := 1048576) _ _ rfl (Keep.refl _ _)) rfl
    | with_reducible apply State.phyBeams_wr
    | with_reducible apply Wr.of_keep (f := 2097152) (State.phyProv_keep (m := 2097152) _ _ _ rfl (Keep.refl _ _)) rfl
    | with_reducible apply Wr.of_keep (f := 2097152) (State.bbUpd_keep (m := 2097152) _ _ rfl (Keep.refl _ _)) rfl
    | with_reducible apply Wr.of_keep (f := 2097152) (State.phyUpd_keep (m := 2097152) _ _ _ rfl (Keep.refl _ _)) rfl
    | with_reducible apply Wr.ite <;> intro _
    | with_reducible apply Wr.foldl <;> try intro _ _ _
    | with_reducible apply Wr.foldl_snd <;> try intro _ _ _
    | with_reducible refine Wr.of_snd ‹_ = (_, _)› ?_
    | with_reducible refine Wr.of_snd2 ‹_ = (_, _, _)› ?_
    | with_reducible apply Wr.of_id
    | split
    | dsimp only

theorem execSignalField_wr (a0 : _) (a1 : _) (a2 : _) (s : State) {t : State} (h : execSignalField a0 a1 a2 s = .next t) : Wr 0x2003b400000000000000000000000 s t := by
  unfold execSignalField at h
  injection h with h
  subst h
  repeat' first
    | exact rfl
    | (refine (?_ : _ = true); dsimp only [List.all]; exact rfl)
    | with_reducible exact Wr.refl _ _
    | with_reducible assumption
    | with_reducible refine State.phyDo_wr _ _ _ (fun _ _ => ?_) ?_ ?_
    | with_reducible apply State.phyField_wr
    | with_reducible apply Wr.ite <;> intro _
    | with_reducible apply Wr.foldl <;> try intro _ _ _
    | with_reducible apply Wr.foldl_snd <;> try intro _ _ _
    | with_reducible refine Wr.of_snd ‹_ = (_, _)› ?_
    | with_reducible refine Wr.of_snd2 ‹_ = (_, _, _)› ?_
    | with_reducible apply Wr.of_id
    | split
    | dsimp only

theorem execPhyRestart_wr (a0 : _) (a1 : _) (a2 : _) (a3 : _) (a4 : _) (s : State) {t : State} (h : execPhyRestart a0 a1 a2 a3 a4 s = .next t) : Wr 0x22400000000000000000000000 s t := by
  unfold execPhyRestart at h
  injection h with h
  subst h
  repeat' first
    | exact rfl
    | (refine (?_ : _ = true); dsimp only [List.all]; exact rfl)
    | with_reducible exact Wr.refl _ _
    | with_reducible assumption
    | with_reducible refine State.phyDo_wr _ _ _ (fun _ _ => ?_) ?_ ?_
    | with_reducible apply Wr.of_keep (f := 2097152) (State.phyProv_keep (m := 2097152) _ _ _ rfl (Keep.refl _ _)) rfl
    | with_reducible apply State.falseStart_wr
    | with_reducible apply Wr.ite <;> intro _
    | with_reducible apply Wr.foldl <;> try intro _ _ _
    | with_reducible apply Wr.foldl_snd <;> try intro _ _ _
    | with_reducible refine Wr.of_snd ‹_ = (_, _)› ?_
    | with_reducible refine Wr.of_snd2 ‹_ = (_, _, _)› ?_
    | with_reducible apply Wr.of_id
    | split
    | dsimp only

theorem execPhyCapture_wr (a0 : _) (a1 : _) (a2 : _) (a3 : _) (a4 : _) (s : State) {t : State} (h : execPhyCapture a0 a1 a2 a3 a4 s = .next t) : Wr 0x4400000000000000000000000 s t := by
  unfold execPhyCapture at h
  injection h with h
  subst h
  repeat' first
    | exact rfl
    | (refine (?_ : _ = true); dsimp only [List.all]; exact rfl)
    | with_reducible exact Wr.refl _ _
    | with_reducible assumption
    | with_reducible refine State.phyDo_wr _ _ _ (fun _ _ => ?_) ?_ ?_
    | with_reducible apply Wr.of_keep (f := 2097152) (State.phyProv_keep (m := 2097152) _ _ _ rfl (Keep.refl _ _)) rfl
    | with_reducible apply State.inc_wr
    | with_reducible apply Wr.of_keep (f := 2097152) (State.phyUpd_keep (m := 2097152) _ _ _ rfl (Keep.refl _ _)) rfl
    | with_reducible apply Wr.ite <;> intro _
    | with_reducible apply Wr.foldl <;> try intro _ _ _
    | with_reducible apply Wr.foldl_snd <;> try intro _ _ _
    | with_reducible refine Wr.of_snd ‹_ = (_, _)› ?_
    | with_reducible refine Wr.of_snd2 ‹_ = (_, _, _)› ?_
    | with_reducible apply Wr.of_id
    | split
    | dsimp only

theorem execPpduEnd_wr (a0 : _) (s : State) {t : State} (h : execPpduEnd a0 s = .next t) : Wr 0x400000000000000000000000 s t := by
  unfold execPpduEnd at h
  injection h with h
  subst h
  repeat' first
    | exact rfl
    | (refine (?_ : _ = true); dsimp only [List.all]; exact rfl)
    | with_reducible exact Wr.refl _ _
    | with_reducible assumption
    | with_reducible refine State.phyDo_wr _ _ _ (fun _ _ => ?_) ?_ ?_
    | with_reducible apply Wr.of_keep (f := 2097152) (State.phyUpd_keep (m := 2097152) _ _ _ rfl (Keep.refl _ _)) rfl
    | with_reducible apply Wr.of_keep (f := 2097152) (State.phyDeliver_keep (m := 2097152) _ _ _ rfl (Keep.refl _ _)) rfl
    | with_reducible apply Wr.ite <;> intro _
    | with_reducible apply Wr.foldl <;> try intro _ _ _
    | with_reducible apply Wr.foldl_snd <;> try intro _ _ _
    | with_reducible refine Wr.of_snd ‹_ = (_, _)› ?_
    | with_reducible refine Wr.of_snd2 ‹_ = (_, _, _)› ?_
    | with_reducible apply Wr.of_id
    | split
    | dsimp only

theorem execFalseStartHoldEnd_wr (a0 : _) (a1 : _) (s : State) {t : State} (h : execFalseStartHoldEnd a0 a1 s = .next t) : Wr 0x400000000000000000000000 s t := by
  unfold execFalseStartHoldEnd at h
  injection h with h
  subst h
  repeat' first
    | exact rfl
    | (refine (?_ : _ = true); dsimp only [List.all]; exact rfl)
    | with_reducible exact Wr.refl _ _
    | with_reducible assumption
    | with_reducible refine State.phyDo_wr _ _ _ (fun _ _ => ?_) ?_ ?_
    | with_reducible apply Wr.of_keep (f := 2097152) (State.phyUpd_keep (m := 2097152) _ _ _ rfl (Keep.refl _ _)) rfl
    | with_reducible apply Wr.ite <;> intro _
    | with_reducible apply Wr.foldl <;> try intro _ _ _
    | with_reducible apply Wr.foldl_snd <;> try intro _ _ _
    | with_reducible refine Wr.of_snd ‹_ = (_, _)› ?_
    | with_reducible refine Wr.of_snd2 ‹_ = (_, _, _)› ?_
    | with_reducible apply Wr.of_id
    | split
    | dsimp only

theorem execCcaStuck_wr (a0 : _) (s : State) {t : State} (h : execCcaStuck a0 s = .next t) : Wr 0x400000000000000000000000 s t := by
  unfold execCcaStuck at h
  injection h with h
  subst h
  repeat' first
    | exact rfl
    | (refine (?_ : _ = true); dsimp only [List.all]; exact rfl)
    | with_reducible exact Wr.refl _ _
    | with_reducible assumption
    | with_reducible refine State.phyDo_wr _ _ _ (fun _ _ => ?_) ?_ ?_
    | with_reducible apply Wr.of_keep (f := 272) (State.raise_keep (m := 272) _ _ rfl (Keep.refl _ _)) rfl
    | with_reducible apply State.set_wr
    | with_reducible apply Wr.ite <;> intro _
    | with_reducible apply Wr.foldl <;> try intro _ _ _
    | with_reducible apply Wr.foldl_snd <;> try intro _ _ _
    | with_reducible refine Wr.of_snd ‹_ = (_, _)› ?_
    | with_reducible refine Wr.of_snd2 ‹_ = (_, _, _)› ?_
    | with_reducible apply Wr.of_id
    | split
    | dsimp only

theorem execEnergyDetect_wr (a0 : _) (a1 : _) (a2 : _) (a3 : _) (s : State) {t : State} (h : execEnergyDetect a0 a1 a2 a3 s = .next t) : Wr 0x400000000000000000000000 s t := by
  unfold execEnergyDetect at h
  injection h with h
  subst h
  repeat' first
    | exact rfl
    | (refine (?_ : _ = true); dsimp only [List.all]; exact rfl)
    | with_reducible exact Wr.refl _ _
    | with_reducible assumption
    | with_reducible refine State.phyDo_wr _ _ _ (fun _ _ => ?_) ?_ ?_
    | with_reducible apply Wr.of_keep (f := 2097152) (State.phyUpd_keep (m := 2097152) _ _ _ rfl (Keep.refl _ _)) rfl
    | with_reducible apply Wr.ite <;> intro _
    | with_reducible apply Wr.foldl <;> try intro _ _ _
    | with_reducible apply Wr.foldl_snd <;> try intro _ _ _
    | with_reducible refine Wr.of_snd ‹_ = (_, _)› ?_
    | with_reducible refine Wr.of_snd2 ‹_ = (_, _, _)› ?_
    | with_reducible apply Wr.of_id
    | split
    | dsimp only

theorem execCodewordDecoded_wr (a0 : _) (a1 : _) (a2 : _) (s : State) {t : State} (h : execCodewordDecoded a0 a1 a2 s = .next t) : Wr 0x60000000000000000000000000000 s t := by
  unfold execCodewordDecoded at h
  injection h with h
  subst h
  repeat' first
    | exact rfl
    | (refine (?_ : _ = true); dsimp only [List.all]; exact rfl)
    | with_reducible exact Wr.refl _ _
    | with_reducible assumption
    | with_reducible apply State.ldpcEnter_wr
    | with_reducible apply Wr.of_keep (f := 2097152) (State.phyUpd_keep (m := 2097152) _ _ _ rfl (Keep.refl _ _)) rfl
    | with_reducible apply Wr.of_keep (f := 2097152) (State.ldpcFill_keep (m := 2097152) _ rfl (Keep.refl _ _)) rfl
    | with_reducible apply Wr.of_keep (f := 2097152) (State.bbUpd_keep (m := 2097152) _ _ rfl (Keep.refl _ _)) rfl
    | with_reducible apply State.inc_wr
    | with_reducible apply Wr.of_keep (f := 2097152) (State.phyDeliver_keep (m := 2097152) _ _ _ rfl (Keep.refl _ _)) rfl
    | with_reducible apply Wr.ite <;> intro _
    | with_reducible apply Wr.foldl <;> try intro _ _ _
    | with_reducible apply Wr.foldl_snd <;> try intro _ _ _
    | with_reducible refine Wr.of_snd ‹_ = (_, _)› ?_
    | with_reducible refine Wr.of_snd2 ‹_ = (_, _, _)› ?_
    | with_reducible apply Wr.of_id
    | split
    | dsimp only

theorem execChannelEstimate_wr (a0 : _) (a1 : _) (a2 : _) (a3 : _) (a4 : _) (a5 : _) (s : State) {t : State} (h : execChannelEstimate a0 a1 a2 a3 a4 a5 s = .next t) : Wr 0x4000000000000000000000000000 s t := by
  unfold execChannelEstimate at h
  injection h with h
  subst h
  repeat' first
    | exact rfl
    | (refine (?_ : _ = true); dsimp only [List.all]; exact rfl)
    | with_reducible exact Wr.refl _ _
    | with_reducible assumption
    | with_reducible apply State.sndWrite_wr
    | with_reducible apply Wr.of_keep (f := 2097152) (State.phyUpd_keep (m := 2097152) _ _ _ rfl (Keep.refl _ _)) rfl
    | with_reducible apply Wr.ite <;> intro _
    | with_reducible apply Wr.foldl <;> try intro _ _ _
    | with_reducible apply Wr.foldl_snd <;> try intro _ _ _
    | with_reducible refine Wr.of_snd ‹_ = (_, _)› ?_
    | with_reducible refine Wr.of_snd2 ‹_ = (_, _, _)› ?_
    | with_reducible apply Wr.of_id
    | split
    | dsimp only

theorem execSndEstPop_wr (a0 : _) (s : State) {t : State} (h : execSndEstPop a0 s = .next t) : Wr 0x40000f000000000000000000000000000000000000000000000000000000000000000000000000000000000000000000000000000000000000000000000000000 s t := by
  unfold execSndEstPop at h
  injection h with h
  subst h
  repeat' first
    | exact rfl
    | (refine (?_ : _ = true); dsimp only [List.all]; exact rfl)
    | with_reducible exact Wr.refl _ _
    | with_reducible assumption
    | with_reducible refine readReg_wr (r0 := .SND_EST_POP) (show findReg (Reg.addr .SND_EST_POP []) = some (.SND_EST_POP, []) by decide +kernel) (fun _ _ => ?_) ?_ ?_
    | with_reducible apply rdPhy_SND_EST_POP_wr
    | with_reducible apply Wr.ite <;> intro _
    | with_reducible apply Wr.foldl <;> try intro _ _ _
    | with_reducible apply Wr.foldl_snd <;> try intro _ _ _
    | with_reducible refine Wr.of_snd ‹_ = (_, _)› ?_
    | with_reducible refine Wr.of_snd2 ‹_ = (_, _, _)› ?_
    | with_reducible apply Wr.of_id
    | split
    | dsimp only

theorem execSndSlotFree_wr (a0 : _) (a1 : _) (s : State) {t : State} (h : execSndSlotFree a0 a1 s = .next t) : Wr 0x40000f000000000000000000000000000000000000000000000000000000000000000000000000000000000000000000000000000000000000000000000000000 s t := by
  unfold execSndSlotFree at h
  injection h with h
  subst h
  repeat' first
    | exact rfl
    | (refine (?_ : _ = true); dsimp only [List.all]; exact rfl)
    | with_reducible exact Wr.refl _ _
    | with_reducible assumption
    | with_reducible refine writeReg_wr (r0 := .SND_SLOT_FREE) (show findReg (Reg.addr .SND_SLOT_FREE []) = some (.SND_SLOT_FREE, []) by decide +kernel) (fun _ _ => ?_) ?_ ?_
    | with_reducible apply wrPhy_SND_SLOT_FREE_wr
    | with_reducible apply Wr.ite <;> intro _
    | with_reducible apply Wr.foldl <;> try intro _ _ _
    | with_reducible apply Wr.foldl_snd <;> try intro _ _ _
    | with_reducible refine Wr.of_snd ‹_ = (_, _)› ?_
    | with_reducible refine Wr.of_snd2 ‹_ = (_, _, _)› ?_
    | with_reducible apply Wr.of_id
    | split
    | dsimp only

theorem execBeamformingReport_wr (a0 : _) (a1 : _) (a2 : _) (a3 : _) (a4 : _) (a5 : _) (a6 : _) (a7 : _) (a8 : _) (a9 : _) (a10 : _) (s : State) {t : State} (h : execBeamformingReport a0 a1 a2 a3 a4 a5 a6 a7 a8 a9 a10 s = .next t) : Wr 0x4000000000000000000000000000 s t := by
  unfold execBeamformingReport at h
  injection h with h
  subst h
  repeat' first
    | exact rfl
    | (refine (?_ : _ = true); dsimp only [List.all]; exact rfl)
    | with_reducible exact Wr.refl _ _
    | with_reducible assumption
    | with_reducible apply State.sndWrite_wr
    | with_reducible apply Wr.ite <;> intro _
    | with_reducible apply Wr.foldl <;> try intro _ _ _
    | with_reducible apply Wr.foldl_snd <;> try intro _ _ _
    | with_reducible refine Wr.of_snd ‹_ = (_, _)› ?_
    | with_reducible refine Wr.of_snd2 ‹_ = (_, _, _)› ?_
    | with_reducible apply Wr.of_id
    | split
    | dsimp only

theorem execRadarPulse_wr (a0 : _) (a1 : _) (a2 : _) (a3 : _) (a4 : _) (a5 : _) (s : State) {t : State} (h : execRadarPulse a0 a1 a2 a3 a4 a5 s = .next t) : Wr 0x1200000000000000000000000000000 s t := by
  unfold execRadarPulse at h
  injection h with h
  subst h
  repeat' first
    | exact rfl
    | (refine (?_ : _ = true); dsimp only [List.all]; exact rfl)
    | with_reducible exact Wr.refl _ _
    | with_reducible assumption
    | with_reducible apply Wr.of_keep (f := 2097152) (State.phyUpd_keep (m := 2097152) _ _ _ rfl (Keep.refl _ _)) rfl
    | with_reducible apply State.inc_wr
    | with_reducible apply State.dfsHit_wr
    | with_reducible apply Wr.ite <;> intro _
    | with_reducible apply Wr.foldl <;> try intro _ _ _
    | with_reducible apply Wr.foldl_snd <;> try intro _ _ _
    | with_reducible refine Wr.of_snd ‹_ = (_, _)› ?_
    | with_reducible refine Wr.of_snd2 ‹_ = (_, _, _)› ?_
    | with_reducible apply Wr.of_id
    | split
    | dsimp only

theorem execCacStart_wr (a0 : _) (a1 : _) (a2 : _) (s : State) (ha1 : a1 < 3) {t : State} (h : execCacStart a0 a1 a2 s = .next t) : Wr 0x40000f000000000000000000000000000000000000000000000000000000000000000000000000000000000000000000000200000000000000000000000000000 s t := by
  unfold execCacStart at h
  injection h with h
  subst h
  repeat' first
    | exact rfl
    | (refine (?_ : _ = true); dsimp only [List.all]; exact rfl)
    | with_reducible exact Wr.refl _ _
    | with_reducible assumption
    | with_reducible refine writeReg_wr (r0 := .PHY_DFS_CTL) ((show ∀ l, l < 3 → findReg (Reg.addr .PHY_DFS_CTL [l]) = some (.PHY_DFS_CTL, [l]) by decide +kernel) a1 ha1) (fun _ _ => ?_) ?_ ?_
    | with_reducible apply wrPhy_PHY_DFS_CTL_wr
    | with_reducible apply Wr.ite <;> intro _
    | with_reducible apply Wr.foldl <;> try intro _ _ _
    | with_reducible apply Wr.foldl_snd <;> try intro _ _ _
    | with_reducible refine Wr.of_snd ‹_ = (_, _)› ?_
    | with_reducible refine Wr.of_snd2 ‹_ = (_, _, _)› ?_
    | with_reducible apply Wr.of_id
    | split
    | dsimp only

theorem execCacExpiry_wr (a0 : _) (a1 : _) (s : State) {t : State} (h : execCacExpiry a0 a1 s = .next t) : Wr 0x200000000000000000000000000000 s t := by
  unfold execCacExpiry at h
  injection h with h
  subst h
  repeat' first
    | exact rfl
    | (refine (?_ : _ = true); dsimp only [List.all]; exact rfl)
    | with_reducible exact Wr.refl _ _
    | with_reducible assumption
    | with_reducible apply State.setDfs_wr
    | with_reducible apply Wr.ite <;> intro _
    | with_reducible apply Wr.foldl <;> try intro _ _ _
    | with_reducible apply Wr.foldl_snd <;> try intro _ _ _
    | with_reducible refine Wr.of_snd ‹_ = (_, _)› ?_
    | with_reducible refine Wr.of_snd2 ‹_ = (_, _, _)› ?_
    | with_reducible apply Wr.of_id
    | split
    | dsimp only

theorem execNopExpiry_wr (a0 : _) (a1 : _) (s : State) {t : State} (h : execNopExpiry a0 a1 s = .next t) : Wr 0x200000000000000000000000000000 s t := by
  unfold execNopExpiry at h
  injection h with h
  subst h
  repeat' first
    | exact rfl
    | (refine (?_ : _ = true); dsimp only [List.all]; exact rfl)
    | with_reducible exact Wr.refl _ _
    | with_reducible assumption
    | with_reducible apply State.setDfs_wr
    | with_reducible apply Wr.ite <;> intro _
    | with_reducible apply Wr.foldl <;> try intro _ _ _
    | with_reducible apply Wr.foldl_snd <;> try intro _ _ _
    | with_reducible refine Wr.of_snd ‹_ = (_, _)› ?_
    | with_reducible refine Wr.of_snd2 ‹_ = (_, _, _)› ?_
    | with_reducible apply Wr.of_id
    | split
    | dsimp only

theorem execPhyDfsPop_wr (a0 : _) (a1 : _) (s : State) (ha1 : a1 < 3) {t : State} (h : execPhyDfsPop a0 a1 s = .next t) : Wr 0x40000f000000000000000000000000000000000000000000000000000000000000000000000000000000000000000000000800000000000000000000000000000 s t := by
  unfold execPhyDfsPop at h
  injection h with h
  subst h
  repeat' first
    | exact rfl
    | (refine (?_ : _ = true); dsimp only [List.all]; exact rfl)
    | with_reducible exact Wr.refl _ _
    | with_reducible assumption
    | with_reducible refine readReg_wr (r0 := .PHY_DFS_POP) ((show ∀ l, l < 3 → findReg (Reg.addr .PHY_DFS_POP [l]) = some (.PHY_DFS_POP, [l]) by decide +kernel) a1 ha1) (fun _ _ => ?_) ?_ ?_
    | with_reducible apply rdPhy_PHY_DFS_POP_wr
    | with_reducible apply Wr.ite <;> intro _
    | with_reducible apply Wr.foldl <;> try intro _ _ _
    | with_reducible apply Wr.foldl_snd <;> try intro _ _ _
    | with_reducible refine Wr.of_snd ‹_ = (_, _)› ?_
    | with_reducible refine Wr.of_snd2 ‹_ = (_, _, _)› ?_
    | with_reducible apply Wr.of_id
    | split
    | dsimp only

end Sys2Proof.Machine
end

