-- ==== Sys2Proof/Laws/WrWacTbl.lean ====
section
/-! SUPPORT. The registers that each operation of Machine/WacTbl.lean may change. -/

set_option Elab.async false

namespace Sys2Proof.Machine

theorem State.mrxWrite_wr {m : Nat} {s0 : State} (s : State) (a1 : _) (hm : subMask 0x80000800000000000000000000000000000000000 m = true) (h : Wr m s0 s) : Wr m s0 (State.mrxWrite s a1) := by
  refine Wr.lift (f := 0x80000800000000000000000000000000000000000) ?_ hm h
  unfold State.mrxWrite
  repeat' first
    | exact rfl
    | (refine (?_ : _ = true); dsimp only [List.all]; exact rfl)
    | with_reducible exact Wr.refl _ _
    | with_reducible assumption
    | with_reducible apply State.set_wr
    | with_reducible apply Wr.of_keep (f := 65600) (State.memWrite_keep (m := 65600) _ _ _ _ rfl (Keep.refl _ _)) rfl
    | with_reducible apply Wr.of_keep (f := 272) (State.raise_keep (m := 272) _ _ rfl (Keep.refl _ _)) rfl
    | with_reducible apply Wr.of_keep (f := 4194304) (State.wacUpd_keep (m := 4194304) _ _ rfl (Keep.refl _ _)) rfl
    | with_reducible apply State.inc_wr
    | with_reducible apply Wr.of_keep (f := 65536) (State.bufFree_keep (m := 65536) _ _ rfl (Keep.refl _ _)) rfl
    | with_reducible apply Wr.ite <;> intro _
    | with_reducible apply Wr.foldl <;> try intro _ _ _
    | with_reducible apply Wr.foldl_snd <;> try intro _ _ _
    | with_reducible refine Wr.of_snd ‹_ = (_, _)› ?_
    | with_reducible refine Wr.of_snd2 ‹_ = (_, _, _)› ?_
    | with_reducible apply Wr.of_id
    | split
    | dsimp only

theorem State.frameBack_wr {m : Nat} {s0 : State} (s : State) (a1 : _) (a2 : _) (a3 : _) (a4 : _) (hm : subMask 0x80000800000000000000000000000000000000000 m = true) (h : Wr m s0 s) : Wr m s0 (State.frameBack s a1 a2 a3 a4) := by
  refine Wr.lift (f := 0x80000800000000000000000000000000000000000) ?_ hm h
  unfold State.frameBack
  repeat' first
    | exact rfl
    | (refine (?_ : _ = true); dsimp only [List.all]; exact rfl)
    | with_reducible exact Wr.refl _ _
    | with_reducible assumption
    | with_reducible apply State.mrxWrite_wr
    | with_reducible apply Wr.ite <;> intro _
    | with_reducible apply Wr.foldl <;> try intro _ _ _
    | with_reducible apply Wr.foldl_snd <;> try intro _ _ _
    | with_reducible refine Wr.of_snd ‹_ = (_, _)› ?_
    | with_reducible refine Wr.of_snd2 ‹_ = (_, _, _)› ?_
    | with_reducible apply Wr.of_id
    | split
    | dsimp only

theorem State.frameEnd_wr {m : Nat} {s0 : State} (s : State) (a1 : _) (a2 : _) (a3 : _) (hm : subMask 0x4000000000000000000000000000000000000000000000000000000000000000000483000800000000000000000000000000000000000 m = true) (h : Wr m s0 s) : Wr m s0 (State.frameEnd s a1 a2 a3) := by
  refine Wr.lift (f := 0x4000000000000000000000000000000000000000000000000000000000000000000483000800000000000000000000000000000000000) ?_ hm h
  unfold State.frameEnd
  repeat' first
    | exact rfl
    | (refine (?_ : _ = true); dsimp only [List.all]; exact rfl)
    | with_reducible exact Wr.refl _ _
    | with_reducible assumption
    | with_reducible apply Wr.of_keep (f := 4194304) (State.baTxMove_keep (m := 4194304) _ _ rfl (Keep.refl _ _)) rfl
    | with_reducible apply Wr.of_keep (f := 4194304) (State.wacUpd_keep (m := 4194304) _ _ rfl (Keep.refl _ _)) rfl
    | with_reducible apply State.inc_wr
    | with_reducible apply Wr.of_keep (f := 4194576) (State.mtxComplete_keep (m := 4194576) _ _ _ _ _ rfl (Keep.refl _ _)) rfl
    | with_reducible apply State.bufAlloc_wr
    | with_reducible apply State.frameBack_wr
    | with_reducible apply Wr.of_keep (f := 65600) (State.memPut_keep (m := 65600) _ _ _ rfl (Keep.refl _ _)) rfl
    | with_reducible apply Wr.of_keep (f := 65536) (State.bufFree_keep (m := 65536) _ _ rfl (Keep.refl _ _)) rfl
    | with_reducible apply Wr.of_keep (f := 4194304) (State.wacPause_keep (m := 4194304) _ rfl (Keep.refl _ _)) rfl
    | with_reducible apply Wr.ite <;> intro _
    | with_reducible apply Wr.foldl <;> try intro _ _ _
    | with_reducible apply Wr.foldl_snd <;> try intro _ _ _
    | with_reducible refine Wr.of_snd ‹_ = (_, _)› ?_
    | with_reducible refine Wr.of_snd2 ‹_ = (_, _, _)› ?_
    | with_reducible apply Wr.of_id
    | split
    | dsimp only

theorem State.framesEnd_wr {m : Nat} {s0 : State} (s : State) (a1 : _) (a2 : _) (hm : subMask 0x4000000000000000000000000000000000000000000000000000000000000000000483000800000000000000000000000000000000000 m = true) (h : Wr m s0 s) : Wr m s0 (State.framesEnd s a1 a2) := by
  refine Wr.lift (f := 0x4000000000000000000000000000000000000000000000000000000000000000000483000800000000000000000000000000000000000) ?_ hm h
  unfold State.framesEnd
  repeat' first
    | exact rfl
    | (refine (?_ : _ = true); dsimp only [List.all]; exact rfl)
    | with_reducible exact Wr.refl _ _
    | with_reducible assumption
    | with_reducible apply State.frameEnd_wr
    | with_reducible apply Wr.ite <;> intro _
    | with_reducible apply Wr.foldl <;> try intro _ _ _
    | with_reducible apply Wr.foldl_snd <;> try intro _ _ _
    | with_reducible refine Wr.of_snd ‹_ = (_, _)› ?_
    | with_reducible refine Wr.of_snd2 ‹_ = (_, _, _)› ?_
    | with_reducible apply Wr.of_id
    | split
    | dsimp only

theorem State.setWacWin_wr {m : Nat} {s0 : State} (s : State) (a1 : _) (hm : subMask 0x8000000000000000000000000000000000 m = true) (h : Wr m s0 s) : Wr m s0 (State.setWacWin s a1) := by
  refine Wr.lift (f := 0x8000000000000000000000000000000000) ?_ hm h
  unfold State.setWacWin
  repeat' first
    | exact rfl
    | (refine (?_ : _ = true); dsimp only [List.all]; exact rfl)
    | with_reducible exact Wr.refl _ _
    | with_reducible assumption
    | with_reducible apply State.setReg_wr
    | with_reducible apply Wr.ite <;> intro _
    | with_reducible apply Wr.foldl <;> try intro _ _ _
    | with_reducible apply Wr.foldl_snd <;> try intro _ _ _
    | with_reducible refine Wr.of_snd ‹_ = (_, _)› ?_
    | with_reducible refine Wr.of_snd2 ‹_ = (_, _, _)› ?_
    | with_reducible apply Wr.of_id
    | split
    | dsimp only

end Sys2Proof.Machine
end

