-- ==== Sys2Proof/Laws/WrWac.lean ====
section
/-! SUPPORT. The registers that each operation of Machine/Wac.lean may change. -/

set_option Elab.async false

namespace Sys2Proof.Machine

theorem State.wacMsdu_wr {m : Nat} {s0 : State} (s : State) (a1 : _) (a2 : _) (a3 : _) (a4 : _) (a5 : _) (hm : subMask 0x70000000000000000000000000000000000000000 m = true) (h : Wr m s0 s) : Wr m s0 (State.wacMsdu s a1 a2 a3 a4 a5) := by
  refine Wr.lift (f := 0x70000000000000000000000000000000000000000) ?_ hm h
  unfold State.wacMsdu
  repeat' first
    | exact rfl
    | (refine (?_ : _ = true); dsimp only [List.all]; exact rfl)
    | with_reducible exact Wr.refl _ _
    | with_reducible assumption
    | with_reducible apply State.inc_wr
    | with_reducible apply Wr.of_keep (f := 65536) (State.bufFree_keep (m := 65536) _ _ rfl (Keep.refl _ _)) rfl
    | with_reducible apply Wr.of_keep (f := 4194304) (State.frameAdd_keep (m := 4194304) _ _ rfl (Keep.refl _ _)) rfl
    | with_reducible apply Wr.ite <;> intro _
    | with_reducible apply Wr.foldl <;> try intro _ _ _
    | with_reducible apply Wr.foldl_snd <;> try intro _ _ _
    | with_reducible refine Wr.of_snd ‹_ = (_, _)› ?_
    | with_reducible refine Wr.of_snd2 ‹_ = (_, _, _)› ?_
    | with_reducible apply Wr.of_id
    | split
    | dsimp only

theorem State.frameTake_wr {m : Nat} {s0 : State} (s : State) (a1 : _) (a2 : _) (a3 : _) (hm : subMask 0x10000000004000000000000000000000000000000000000000000000000000000000000000000483000800000000000000000000000000000000000 m = true) (h : Wr m s0 s) : Wr m s0 (State.frameTake s a1 a2 a3) := by
  refine Wr.lift (f := 0x10000000004000000000000000000000000000000000000000000000000000000000000000000483000800000000000000000000000000000000000) ?_ hm h
  unfold State.frameTake
  repeat' first
    | exact rfl
    | (refine (?_ : _ = true); dsimp only [List.all]; exact rfl)
    | with_reducible exact Wr.refl _ _
    | with_reducible assumption
    | with_reducible apply State.useKey_wr
    | with_reducible apply State.frameEnd_wr
    | with_reducible apply Wr.of_keep (f := 4194304) (State.wacUpd_keep (m := 4194304) _ _ rfl (Keep.refl _ _)) rfl
    | with_reducible apply Wr.of_keep (f := 272) (State.raise_keep (m := 272) _ _ rfl (Keep.refl _ _)) rfl
    | with_reducible apply Wr.ite <;> intro _
    | with_reducible apply Wr.foldl <;> try intro _ _ _
    | with_reducible apply Wr.foldl_snd <;> try intro _ _ _
    | (rewrite [State.mk_eq_updOf]; with_reducible refine Wr.node rfl rfl rfl ?_)
    | with_reducible refine Wr.of_snd ‹_ = (_, _)› ?_
    | with_reducible refine Wr.of_snd2 ‹_ = (_, _, _)› ?_
    | with_reducible apply Wr.of_id
    | split
    | dsimp only

theorem State.ppduMake_wr {m : Nat} {s0 : State} (s : State) (a1 : _) (a2 : _) (a3 : _) (a4 : _) (hm : subMask 0x10000000004000000000000000000000000000000000000000000000000000000000000000000483000800000000000000000000000000000000000 m = true) (h : Wr m s0 s) : Wr m s0 (State.ppduMake s a1 a2 a3 a4) := by
  refine Wr.lift (f := 0x10000000004000000000000000000000000000000000000000000000000000000000000000000483000800000000000000000000000000000000000) ?_ hm h
  unfold State.ppduMake
  repeat' first
    | exact rfl
    | (refine (?_ : _ = true); dsimp only [List.all]; exact rfl)
    | with_reducible exact Wr.refl _ _
    | with_reducible assumption
    | with_reducible apply State.frameTake_wr
    | with_reducible apply Wr.of_keep (f := 4194304) (State.wacUpd_keep (m := 4194304) _ _ rfl (Keep.refl _ _)) rfl
    | with_reducible apply Wr.of_keep (f := 4194304) (State.ppduDue_keep (m := 4194304) _ _ _ rfl (Keep.refl _ _)) rfl
    | with_reducible apply Wr.ite <;> intro _
    | with_reducible apply Wr.foldl <;> try intro _ _ _
    | with_reducible apply Wr.foldl_snd <;> try intro _ _ _
    | with_reducible refine Wr.of_snd ‹_ = (_, _)› ?_
    | with_reducible refine Wr.of_snd2 ‹_ = (_, _, _)› ?_
    | with_reducible apply Wr.of_id
    | split
    | dsimp only

theorem State.rateRefuse_wr {m : Nat} {s0 : State} (s : State) (a1 : _) (a2 : _) (a3 : _) (hm : subMask 0x4000000000000000000000000000000000000000000000000000000000000000000483000800000000000000000000000000000000000 m = true) (h : Wr m s0 s) : Wr m s0 (State.rateRefuse s a1 a2 a3) := by
  refine Wr.lift (f := 0x4000000000000000000000000000000000000000000000000000000000000000000483000800000000000000000000000000000000000) ?_ hm h
  unfold State.rateRefuse
  repeat' first
    | exact rfl
    | (refine (?_ : _ = true); dsimp only [List.all]; exact rfl)
    | with_reducible exact Wr.refl _ _
    | with_reducible assumption
    | with_reducible apply State.frameEnd_wr
    | with_reducible apply Wr.ite <;> intro _
    | with_reducible apply Wr.foldl <;> try intro _ _ _
    | with_reducible apply Wr.foldl_snd <;> try intro _ _ _
    | with_reducible refine Wr.of_snd ‹_ = (_, _)› ?_
    | with_reducible refine Wr.of_snd2 ‹_ = (_, _, _)› ?_
    | with_reducible apply Wr.of_id
    | split
    | dsimp only

theorem State.schedule_wr {m : Nat} {s0 : State} (s : State) (a1 : _) (a2 : _) (a3 : _) (a4 : _) (a5 : _) (hm : subMask 0x10000000004000000000000000000000000000000000000000000000000000000000000000000483000800000000000000000000000000000000000 m = true) (h : Wr m s0 s) : Wr m s0 (State.schedule s a1 a2 a3 a4 a5) := by
  refine Wr.lift (f := 0x10000000004000000000000000000000000000000000000000000000000000000000000000000483000800000000000000000000000000000000000) ?_ hm h
  unfold State.schedule
  repeat' first
    | exact rfl
    | (refine (?_ : _ = true); dsimp only [List.all]; exact rfl)
    | with_reducible exact Wr.refl _ _
    | with_reducible assumption
    | with_reducible apply Wr.of_keep (f := 4194304) (State.deficitRefill_keep (m := 4194304) _ _ _ rfl (Keep.refl _ _)) rfl
    | with_reducible apply Wr.of_keep (f := 4194304) (State.wacUpd_keep (m := 4194304) _ _ rfl (Keep.refl _ _)) rfl
    | with_reducible apply State.rateRefuse_wr
    | with_reducible apply State.frameEnd_wr
    | with_reducible apply State.ppduMake_wr
    | with_reducible apply Wr.ite <;> intro _
    | with_reducible apply Wr.foldl <;> try intro _ _ _
    | with_reducible apply Wr.foldl_snd <;> try intro _ _ _
    | with_reducible refine Wr.of_snd ‹_ = (_, _)› ?_
    | with_reducible refine Wr.of_snd2 ‹_ = (_, _, _)› ?_
    | with_reducible apply Wr.of_id
    | split
    | dsimp only

theorem State.framePut_wr {m : Nat} {s0 : State} (s : State) (a1 : _) (a2 : _) (a3 : _) (hm : subMask 0x4000000000000000000000000000000000000000000000000000000000000000000483000800000000000000000000000000000000000 m = true) (h : Wr m s0 s) : Wr m s0 (State.framePut s a1 a2 a3) := by
  refine Wr.lift (f := 0x4000000000000000000000000000000000000000000000000000000000000000000483000800000000000000000000000000000000000) ?_ hm h
  unfold State.framePut
  repeat' first
    | exact rfl
    | (refine (?_ : _ = true); dsimp only [List.all]; exact rfl)
    | with_reducible exact Wr.refl _ _
    | with_reducible assumption
    | with_reducible apply State.frameEnd_wr
    | with_reducible apply Wr.of_keep (f := 4194304) (State.wacUpd_keep (m := 4194304) _ _ rfl (Keep.refl _ _)) rfl
    | with_reducible apply Wr.ite <;> intro _
    | with_reducible apply Wr.foldl <;> try intro _ _ _
    | with_reducible apply Wr.foldl_snd <;> try intro _ _ _
    | with_reducible refine Wr.of_snd ‹_ = (_, _)› ?_
    | with_reducible refine Wr.of_snd2 ‹_ = (_, _, _)› ?_
    | with_reducible apply Wr.of_id
    | split
    | dsimp only

theorem State.frameRetry_wr {m : Nat} {s0 : State} (s : State) (a1 : _) (a2 : _) (hm : subMask 0x4000000000000000000000000000000000000000000000000000000000000000000483000800000000000000000000000000000000000 m = true) (h : Wr m s0 s) : Wr m s0 (State.frameRetry s a1 a2) := by
  refine Wr.lift (f := 0x4000000000000000000000000000000000000000000000000000000000000000000483000800000000000000000000000000000000000) ?_ hm h
  unfold State.frameRetry
  repeat' first
    | exact rfl
    | (refine (?_ : _ = true); dsimp only [List.all]; exact rfl)
    | with_reducible exact Wr.refl _ _
    | with_reducible assumption
    | with_reducible apply State.frameEnd_wr
    | with_reducible apply Wr.of_keep (f := 4194304) (State.frameAdd_keep (m := 4194304) _ _ rfl (Keep.refl _ _)) rfl
    | with_reducible apply State.framePut_wr
    | with_reducible apply Wr.ite <;> intro _
    | with_reducible apply Wr.foldl <;> try intro _ _ _
    | with_reducible apply Wr.foldl_snd <;> try intro _ _ _
    | with_reducible refine Wr.of_snd ‹_ = (_, _)› ?_
    | with_reducible refine Wr.of_snd2 ‹_ = (_, _, _)› ?_
    | with_reducible apply Wr.of_id
    | split
    | dsimp only

theorem State.sentLapse_wr {m : Nat} {s0 : State} (s : State) (a1 : _) (hm : subMask 0x4000000000000000000000000000000000000000000000000000000000000000000483000800000000000000000000000000000000000 m = true) (h : Wr m s0 s) : Wr m s0 (State.sentLapse s a1) := by
  refine Wr.lift (f := 0x4000000000000000000000000000000000000000000000000000000000000000000483000800000000000000000000000000000000000) ?_ hm h
  unfold State.sentLapse
  repeat' first
    | exact rfl
    | (refine (?_ : _ = true); dsimp only [List.all]; exact rfl)
    | with_reducible exact Wr.refl _ _
    | with_reducible assumption
    | with_reducible apply Wr.of_keep (f := 4194304) (State.wlinkUpd_keep (m := 4194304) _ _ _ rfl (Keep.refl _ _)) rfl
    | with_reducible apply State.frameRetry_wr
    | with_reducible apply Wr.ite <;> intro _
    | with_reducible apply Wr.foldl <;> try intro _ _ _
    | with_reducible apply Wr.foldl_snd <;> try intro _ _ _
    | with_reducible refine Wr.of_snd ‹_ = (_, _)› ?_
    | with_reducible refine Wr.of_snd2 ‹_ = (_, _, _)› ?_
    | with_reducible apply Wr.of_id
    | split
    | dsimp only

theorem State.wacUpward_wr {m : Nat} {s0 : State} (s : State) (a1 : _) (hm : subMask 0x4000000000000000000000080200800000000000000000000000000000000000 m = true) (h : Wr m s0 s) : Wr m s0 (State.wacUpward s a1) := by
  refine Wr.lift (f := 0x4000000000000000000000080200800000000000000000000000000000000000) ?_ hm h
  unfold State.wacUpward
  repeat' first
    | exact rfl
    | (refine (?_ : _ = true); dsimp only [List.all]; exact rfl)
    | with_reducible exact Wr.refl _ _
    | with_reducible assumption
    | with_reducible apply State.inc_wr
    | with_reducible apply Wr.of_keep (f := 65536) (State.bufFree_keep (m := 65536) _ _ rfl (Keep.refl _ _)) rfl
    | with_reducible apply Wr.of_keep (f := 4194304) (State.wacUpd_keep (m := 4194304) _ _ rfl (Keep.refl _ _)) rfl
    | with_reducible apply State.ingress_wr
    | with_reducible apply State.mrxWrite_wr
    | with_reducible apply Wr.ite <;> intro _
    | with_reducible apply Wr.foldl <;> try intro _ _ _
    | with_reducible apply Wr.foldl_snd <;> try intro _ _ _
    | with_reducible refine Wr.of_snd ‹_ = (_, _)› ?_
    | with_reducible refine Wr.of_snd2 ‹_ = (_, _, _)› ?_
    | with_reducible apply Wr.of_id
    | split
    | dsimp only

theorem State.baStep_wr {m : Nat} {s0 : State} (s : State) (a1 : _) (hm : subMask 0x4000000000000000000000080200800000000000000000000000000000000000 m = true) (h : Wr m s0 s) : Wr m s0 (State.baStep s a1) := by
  refine Wr.lift (f := 0x4000000000000000000000080200800000000000000000000000000000000000) ?_ hm h
  unfold State.baStep
  repeat' first
    | exact rfl
    | (refine (?_ : _ = true); dsimp only [List.all]; exact rfl)
    | with_reducible exact Wr.refl _ _
    | with_reducible assumption
    | with_reducible apply State.wacUpward_wr
    | with_reducible apply Wr.of_keep (f := 4194304) (State.wacUpd_keep (m := 4194304) _ _ rfl (Keep.refl _ _)) rfl
    | with_reducible apply Wr.of_keep (f := 4194304) (State.setWfld_keep (m := 4194304) _ _ _ _ _ _ rfl (Keep.refl _ _)) rfl
    | with_reducible apply Wr.ite <;> intro _
    | with_reducible apply Wr.foldl <;> try intro _ _ _
    | with_reducible apply Wr.foldl_snd <;> try intro _ _ _
    | with_reducible refine Wr.of_snd ‹_ = (_, _)› ?_
    | with_reducible refine Wr.of_snd2 ‹_ = (_, _, _)› ?_
    | with_reducible apply Wr.of_id
    | split
    | dsimp only

theorem State.baMove_wr {m : Nat} {s0 : State} (a0 : _) (a1 : _) (s : State) (hm : subMask 0x4000000000000000000000080200800000000000000000000000000000000000 m = true) (h : Wr m s0 s) : Wr m s0 (State.baMove a0 a1 s) := by
  induction a1 generalizing s with
  | zero => unfold State.baMove; exact h
  | succ n ih =>
    unfold State.baMove
    repeat' first
      | exact rfl
      | (refine (?_ : _ = true); dsimp only [List.all]; exact rfl)
      | exact subMask_trans rfl hm
      | with_reducible apply ih
      | with_reducible exact Wr.refl _ _
      | with_reducible assumption
      | with_reducible apply Wr.ite <;> intro _
      | with_reducible apply Wr.foldl <;> try intro _ _ _
      | with_reducible apply Wr.foldl_snd <;> try intro _ _ _
      | with_reducible apply State.baStep_wr
      | with_reducible refine Wr.of_snd ‹_ = (_, _)› ?_
      | with_reducible refine Wr.of_snd2 ‹_ = (_, _, _)› ?_
      | with_reducible apply Wr.of_id
      | split
      | dsimp only

theorem State.baDrain_wr {m : Nat} {s0 : State} (a0 : _) (a1 : _) (s : State) (hm : subMask 0x4000000000000000000000080200800000000000000000000000000000000000 m = true) (h : Wr m s0 s) : Wr m s0 (State.baDrain a0 a1 s) := by
  induction a1 generalizing s with
  | zero => unfold State.baDrain; exact h
  | succ n ih =>
    unfold State.baDrain
    repeat' first
      | exact rfl
      | (refine (?_ : _ = true); dsimp only [List.all]; exact rfl)
      | exact subMask_trans rfl hm
      | with_reducible apply ih
      | with_reducible exact Wr.refl _ _
      | with_reducible assumption
      | with_reducible apply Wr.ite <;> intro _
      | with_reducible apply Wr.foldl <;> try intro _ _ _
      | with_reducible apply Wr.foldl_snd <;> try intro _ _ _
      | with_reducible apply State.baStep_wr
      | with_reducible refine Wr.of_snd ‹_ = (_, _)› ?_
      | with_reducible refine Wr.of_snd2 ‹_ = (_, _, _)› ?_
      | with_reducible apply Wr.of_id
      | split
      | dsimp only

theorem State.baReceive_wr {m : Nat} {s0 : State} (s : State) (a1 : _) (a2 : _) (a3 : _) (hm : subMask 0x4000000000000000000000080380800000000000000000000000000000000000 m = true) (h : Wr m s0 s) : Wr m s0 (State.baReceive s a1 a2 a3) := by
  refine Wr.lift (f := 0x4000000000000000000000080380800000000000000000000000000000000000) ?_ hm h
  unfold State.baReceive
  repeat' first
    | exact rfl
    | (refine (?_ : _ = true); dsimp only [List.all]; exact rfl)
    | with_reducible exact Wr.refl _ _
    | with_reducible assumption
    | with_reducible apply State.inc_wr
    | with_reducible apply Wr.of_keep (f := 65536) (State.bufFree_keep (m := 65536) _ _ rfl (Keep.refl _ _)) rfl
    | with_reducible apply State.baMove_wr
    | with_reducible apply Wr.of_keep (f := 4194304) (State.wacUpd_keep (m := 4194304) _ _ rfl (Keep.refl _ _)) rfl
    | with_reducible apply State.baDrain_wr
    | with_reducible apply Wr.of_keep (f := 4194304) (State.setWfld_keep (m := 4194304) _ _ _ _ _ _ rfl (Keep.refl _ _)) rfl
    | with_reducible apply Wr.ite <;> intro _
    | with_reducible apply Wr.foldl <;> try intro _ _ _
    | with_reducible apply Wr.foldl_snd <;> try intro _ _ _
    | with_reducible refine Wr.of_snd ‹_ = (_, _)› ?_
    | with_reducible refine Wr.of_snd2 ‹_ = (_, _, _)› ?_
    | with_reducible apply Wr.of_id
    | split
    | dsimp only

theorem State.baFlush_wr {m : Nat} {s0 : State} (s : State) (a1 : _) (hm : subMask 0x4000000000000000000000080200800000000000000000000000000000000000 m = true) (h : Wr m s0 s) : Wr m s0 (State.baFlush s a1) := by
  refine Wr.lift (f := 0x4000000000000000000000080200800000000000000000000000000000000000) ?_ hm h
  unfold State.baFlush
  repeat' first
    | exact rfl
    | (refine (?_ : _ = true); dsimp only [List.all]; exact rfl)
    | with_reducible exact Wr.refl _ _
    | with_reducible assumption
    | with_reducible apply Wr.of_keep (f := 4194304) (State.wacUpd_keep (m := 4194304) _ _ rfl (Keep.refl _ _)) rfl
    | with_reducible apply State.baMove_wr
    | with_reducible apply Wr.ite <;> intro _
    | with_reducible apply Wr.foldl <;> try intro _ _ _
    | with_reducible apply Wr.foldl_snd <;> try intro _ _ _
    | with_reducible refine Wr.of_snd ‹_ = (_, _)› ?_
    | with_reducible refine Wr.of_snd2 ‹_ = (_, _, _)› ?_
    | with_reducible apply Wr.of_id
    | split
    | dsimp only

theorem State.rxToSoftware_wr {m : Nat} {s0 : State} (s : State) (a1 : _) (a2 : _) (a3 : _) (a4 : _) (hm : subMask 0x4000000000000000000000000000000000000000000000000000000000000000000080000800000000000000000000000000000000000 m = true) (h : Wr m s0 s) : Wr m s0 (State.rxToSoftware s a1 a2 a3 a4) := by
  refine Wr.lift (f := 0x4000000000000000000000000000000000000000000000000000000000000000000080000800000000000000000000000000000000000) ?_ hm h
  unfold State.rxToSoftware
  repeat' first
    | exact rfl
    | (refine (?_ : _ = true); dsimp only [List.all]; exact rfl)
    | with_reducible exact Wr.refl _ _
    | with_reducible assumption
    | with_reducible apply State.bufAlloc_wr
    | with_reducible apply State.mrxWrite_wr
    | with_reducible apply Wr.of_keep (f := 65600) (State.memPut_keep (m := 65600) _ _ _ rfl (Keep.refl _ _)) rfl
    | with_reducible apply State.inc_wr
    | with_reducible apply Wr.ite <;> intro _
    | with_reducible apply Wr.foldl <;> try intro _ _ _
    | with_reducible apply Wr.foldl_snd <;> try intro _ _ _
    | with_reducible refine Wr.of_snd ‹_ = (_, _)› ?_
    | with_reducible refine Wr.of_snd2 ‹_ = (_, _, _)› ?_
    | with_reducible apply Wr.of_id
    | split
    | dsimp only

theorem State.rxOpen_wr {m : Nat} {s0 : State} (s : State) (a1 : _) (a2 : _) (hm : subMask 0x10000000000000000000000000000000000000000000000000000000000000000000000000000000000000000000000000000000000000000000000 m = true) (h : Wr m s0 s) : Wr m s0 (State.rxOpen s a1 a2).2 := by
  refine Wr.lift (f := 0x10000000000000000000000000000000000000000000000000000000000000000000000000000000000000000000000000000000000000000000000) ?_ hm h
  unfold State.rxOpen
  repeat' first
    | exact rfl
    | (refine (?_ : _ = true); dsimp only [List.all]; exact rfl)
    | with_reducible exact Wr.refl _ _
    | with_reducible assumption
    | with_reducible apply State.useKey_wr
    | with_reducible apply Wr.ite <;> intro _
    | with_reducible apply Wr.foldl <;> try intro _ _ _
    | with_reducible apply Wr.foldl_snd <;> try intro _ _ _
    | with_reducible refine Wr.of_snd ‹_ = (_, _)› ?_
    | with_reducible refine Wr.of_snd2 ‹_ = (_, _, _)› ?_
    | with_reducible apply Wr.of_id
    | split
    | dsimp only

theorem State.mpduIn_wr {m : Nat} {s0 : State} (s : State) (a1 : _) (a2 : _) (a3 : _) (a4 : _) (hm : subMask 0x10000000004000000000000000000000000000000000000000000004000000000000000000000090780800000000000000000000000000000000000 m = true) (h : Wr m s0 s) : Wr m s0 (State.mpduIn s a1 a2 a3 a4) := by
  refine Wr.lift (f := 0x10000000004000000000000000000000000000000000000000000004000000000000000000000090780800000000000000000000000000000000000) ?_ hm h
  unfold State.mpduIn
  repeat' first
    | exact rfl
    | (refine (?_ : _ = true); dsimp only [List.all]; exact rfl)
    | with_reducible exact Wr.refl _ _
    | with_reducible assumption
    | with_reducible apply State.rxOpen_wr
    | with_reducible apply Wr.of_keep (f := 272) (State.raise_keep (m := 272) _ _ rfl (Keep.refl _ _)) rfl
    | with_reducible apply State.inc_wr
    | with_reducible apply State.rxToSoftware_wr
    | with_reducible apply Wr.of_keep (f := 4194304) (State.wacUpd_keep (m := 4194304) _ _ rfl (Keep.refl _ _)) rfl
    | with_reducible apply State.bufAlloc_wr
    | with_reducible apply Wr.of_keep (f := 65600) (State.memPut_keep (m := 65600) _ _ _ rfl (Keep.refl _ _)) rfl
    | with_reducible apply State.baReceive_wr
    | with_reducible apply State.wacUpward_wr
    | with_reducible apply Wr.ite <;> intro _
    | with_reducible apply Wr.foldl <;> try intro _ _ _
    | with_reducible apply Wr.foldl_snd <;> try intro _ _ _
    | with_reducible refine Wr.of_snd ‹_ = (_, _)› ?_
    | with_reducible refine Wr.of_snd2 ‹_ = (_, _, _)› ?_
    | with_reducible apply Wr.of_id
    | split
    | dsimp only

theorem State.staClear_wr {m : Nat} {s0 : State} (s : State) (a1 : _) (hm : subMask 0x4000000000000000000000000000000000000000000004000000000000000000000483200800000000000000000000000000000000000 m = true) (h : Wr m s0 s) : Wr m s0 (State.staClear s a1) := by
  refine Wr.lift (f := 0x4000000000000000000000000000000000000000000004000000000000000000000483200800000000000000000000000000000000000) ?_ hm h
  unfold State.staClear
  repeat' first
    | exact rfl
    | (refine (?_ : _ = true); dsimp only [List.all]; exact rfl)
    | with_reducible exact Wr.refl _ _
    | with_reducible assumption
    | with_reducible apply Wr.of_keep (f := 4194304) (State.setWtbl_keep (m := 4194304) _ _ _ _ rfl (Keep.refl _ _)) rfl
    | with_reducible apply State.baFlush_wr
    | with_reducible apply Wr.of_keep (f := 5242880) (State.duesTidy_keep (m := 5242880) _ rfl (Keep.refl _ _)) rfl
    | with_reducible apply State.framesEnd_wr
    | with_reducible apply Wr.of_keep (f := 4194304) (State.wacUpd_keep (m := 4194304) _ _ rfl (Keep.refl _ _)) rfl
    | with_reducible apply Wr.ite <;> intro _
    | with_reducible apply Wr.foldl <;> try intro _ _ _
    | with_reducible apply Wr.foldl_snd <;> try intro _ _ _
    | with_reducible refine Wr.of_snd ‹_ = (_, _)› ?_
    | with_reducible refine Wr.of_snd2 ‹_ = (_, _, _)› ?_
    | with_reducible apply Wr.of_id
    | split
    | dsimp only

theorem State.entryPut_wr {m : Nat} {s0 : State} (s : State) (a1 : _) (a2 : _) (a3 : _) (hm : subMask 0x4000000000000000000000080200800000000000000000000000000000000000 m = true) (h : Wr m s0 s) : Wr m s0 (State.entryPut s a1 a2 a3) := by
  refine Wr.lift (f := 0x4000000000000000000000080200800000000000000000000000000000000000) ?_ hm h
  unfold State.entryPut
  repeat' first
    | exact rfl
    | (refine (?_ : _ = true); dsimp only [List.all]; exact rfl)
    | with_reducible exact Wr.refl _ _
    | with_reducible assumption
    | with_reducible apply State.baFlush_wr
    | with_reducible apply Wr.of_keep (f := 4194304) (State.setWtbl_keep (m := 4194304) _ _ _ _ rfl (Keep.refl _ _)) rfl
    | with_reducible apply Wr.of_keep (f := 4194304) (State.wacUpd_keep (m := 4194304) _ _ rfl (Keep.refl _ _)) rfl
    | with_reducible apply Wr.ite <;> intro _
    | with_reducible apply Wr.foldl <;> try intro _ _ _
    | with_reducible apply Wr.foldl_snd <;> try intro _ _ _
    | with_reducible refine Wr.of_snd ‹_ = (_, _)› ?_
    | with_reducible refine Wr.of_snd2 ‹_ = (_, _, _)› ?_
    | with_reducible apply Wr.of_id
    | split
    | dsimp only

theorem State.entryClear_wr {m : Nat} {s0 : State} (s : State) (a1 : _) (a2 : _) (hm : subMask 0x4000000000000000000000000000000000000000000004000000000000000000000483200800000000000000000000000000000000000 m = true) (h : Wr m s0 s) : Wr m s0 (State.entryClear s a1 a2) := by
  refine Wr.lift (f := 0x4000000000000000000000000000000000000000000004000000000000000000000483200800000000000000000000000000000000000) ?_ hm h
  unfold State.entryClear
  repeat' first
    | exact rfl
    | (refine (?_ : _ = true); dsimp only [List.all]; exact rfl)
    | with_reducible exact Wr.refl _ _
    | with_reducible assumption
    | with_reducible apply Wr.of_keep (f := 4194304) (State.setWtbl_keep (m := 4194304) _ _ _ _ rfl (Keep.refl _ _)) rfl
    | with_reducible apply State.staClear_wr
    | with_reducible apply State.baFlush_wr
    | with_reducible apply Wr.ite <;> intro _
    | with_reducible apply Wr.foldl <;> try intro _ _ _
    | with_reducible apply Wr.foldl_snd <;> try intro _ _ _
    | with_reducible refine Wr.of_snd ‹_ = (_, _)› ?_
    | with_reducible refine Wr.of_snd2 ‹_ = (_, _, _)› ?_
    | with_reducible apply Wr.of_id
    | split
    | dsimp only

theorem State.wacOp_wr {m : Nat} {s0 : State} (s : State) (a1 : _) (hm : subMask 0x400000000000000000000000000000000000000000000400000000000000000000048320080c000200000000000000000000000000000 m = true) (h : Wr m s0 s) : Wr m s0 (State.wacOp s a1) := by
  refine Wr.lift (f := 0x400000000000000000000000000000000000000000000400000000000000000000048320080c000200000000000000000000000000000) ?_ hm h
  unfold State.wacOp
  repeat' first
    | exact rfl
    | (refine (?_ : _ = true); dsimp only [List.all]; exact rfl)
    | with_reducible exact Wr.refl _ _
    | with_reducible assumption
    | with_reducible apply State.commit_wr
    | with_reducible apply State.setWacWin_wr
    | with_reducible apply Wr.of_keep (f := 4194304) (State.wacPause_keep (m := 4194304) _ rfl (Keep.refl _ _)) rfl
    | with_reducible apply State.pathsCheck_wr
    | with_reducible apply State.entryPut_wr
    | with_reducible apply State.entryClear_wr
    | with_reducible apply Wr.ite <;> intro _
    | with_reducible apply Wr.foldl <;> try intro _ _ _
    | with_reducible apply Wr.foldl_snd <;> try intro _ _ _
    | with_reducible refine Wr.of_snd ‹_ = (_, _)› ?_
    | with_reducible refine Wr.of_snd2 ‹_ = (_, _, _)› ?_
    | with_reducible apply Wr.of_id
    | split
    | dsimp only

theorem State.afcDone_wr {m : Nat} {s0 : State} (s : State) (a1 : _) (hm : subMask 0x20000000000000000000000000000000000000 m = true) (h : Wr m s0 s) : Wr m s0 (State.afcDone s a1) := by
  refine Wr.lift (f := 0x20000000000000000000000000000000000000) ?_ hm h
  unfold State.afcDone
  repeat' first
    | exact rfl
    | (refine (?_ : _ = true); dsimp only [List.all]; exact rfl)
    | with_reducible exact Wr.refl _ _
    | with_reducible assumption
    | with_reducible apply Wr.of_keep (f := 272) (State.raise_keep (m := 272) _ _ rfl (Keep.refl _ _)) rfl
    | with_reducible apply State.commit_wr
    | with_reducible apply Wr.ite <;> intro _
    | with_reducible apply Wr.foldl <;> try intro _ _ _
    | with_reducible apply Wr.foldl_snd <;> try intro _ _ _
    | with_reducible refine Wr.of_snd ‹_ = (_, _)› ?_
    | with_reducible refine Wr.of_snd2 ‹_ = (_, _, _)› ?_
    | with_reducible apply Wr.of_id
    | split
    | dsimp only

theorem State.afcInstall_wr {m : Nat} {s0 : State} (s : State) (a1 : _) (hm : subMask 0x20000000000000000000000000000000000000 m = true) (h : Wr m s0 s) : Wr m s0 (State.afcInstall s a1) := by
  refine Wr.lift (f := 0x20000000000000000000000000000000000000) ?_ hm h
  unfold State.afcInstall
  repeat' first
    | exact rfl
    | (refine (?_ : _ = true); dsimp only [List.all]; exact rfl)
    | with_reducible exact Wr.refl _ _
    | with_reducible assumption
    | with_reducible apply State.afcDone_wr
    | with_reducible apply Wr.of_keep (f := 1048576) (State.radUpd_keep (m := 1048576) _ _ rfl (Keep.refl _ _)) rfl
    | with_reducible apply Wr.ite <;> intro _
    | with_reducible apply Wr.foldl <;> try intro _ _ _
    | with_reducible apply Wr.foldl_snd <;> try intro _ _ _
    | with_reducible refine Wr.of_snd ‹_ = (_, _)› ?_
    | with_reducible refine Wr.of_snd2 ‹_ = (_, _, _)› ?_
    | with_reducible apply Wr.of_id
    | split
    | dsimp only

theorem State.afcOp_wr {m : Nat} {s0 : State} (s : State) (a1 : _) (hm : subMask 0x20000000000000000000000000000000000000 m = true) (h : Wr m s0 s) : Wr m s0 (State.afcOp s a1) := by
  refine Wr.lift (f := 0x20000000000000000000000000000000000000) ?_ hm h
  unfold State.afcOp
  repeat' first
    | exact rfl
    | (refine (?_ : _ = true); dsimp only [List.all]; exact rfl)
    | with_reducible exact Wr.refl _ _
    | with_reducible assumption
    | with_reducible apply State.afcDone_wr
    | with_reducible apply Wr.of_keep (f := 1048576) (State.radUpd_keep (m := 1048576) _ _ rfl (Keep.refl _ _)) rfl
    | with_reducible apply Wr.ite <;> intro _
    | with_reducible apply Wr.foldl <;> try intro _ _ _
    | with_reducible apply Wr.foldl_snd <;> try intro _ _ _
    | with_reducible refine Wr.of_snd ‹_ = (_, _)› ?_
    | with_reducible refine Wr.of_snd2 ‹_ = (_, _, _)› ?_
    | with_reducible apply Wr.of_id
    | split
    | dsimp only

theorem State.afcTick_wr {m : Nat} {s0 : State} (s : State) (hm : subMask 0x20000000000000000000000000000000000000 m = true) (h : Wr m s0 s) : Wr m s0 (State.afcTick s) := by
  refine Wr.lift (f := 0x20000000000000000000000000000000000000) ?_ hm h
  unfold State.afcTick
  repeat' first
    | exact rfl
    | (refine (?_ : _ = true); dsimp only [List.all]; exact rfl)
    | with_reducible exact Wr.refl _ _
    | with_reducible assumption
    | with_reducible apply State.afcInstall_wr
    | with_reducible apply Wr.of_keep (f := 1048576) (State.radUpd_keep (m := 1048576) _ _ rfl (Keep.refl _ _)) rfl
    | with_reducible apply Wr.ite <;> intro _
    | with_reducible apply Wr.foldl <;> try intro _ _ _
    | with_reducible apply Wr.foldl_snd <;> try intro _ _ _
    | with_reducible refine Wr.of_snd ‹_ = (_, _)› ?_
    | with_reducible refine Wr.of_snd2 ‹_ = (_, _, _)› ?_
    | with_reducible apply Wr.of_id
    | split
    | dsimp only

theorem wrWac_WAC_AFC_CTL_wr {m : Nat} {s0 : State} (v : Word) (rq : Req) (s : State) (hm : subMask 0x20000000000000000000000000000000000000 m = true) (h : Wr m s0 s) : Wr m s0 (wrWac .WAC_AFC_CTL [] v rq s) := by
  refine Wr.lift (f := 0x20000000000000000000000000000000000000) ?_ hm h
  unfold wrWac
  repeat' first
    | exact rfl
    | (refine (?_ : _ = true); dsimp only [List.all]; exact rfl)
    | with_reducible exact Wr.refl _ _
    | with_reducible assumption
    | contradiction
    | with_reducible apply State.afcOp_wr
    | with_reducible apply State.pendResult_wr
    | with_reducible apply Wr.ite <;> intro _
    | with_reducible apply Wr.foldl <;> try intro _ _ _
    | with_reducible apply Wr.foldl_snd <;> try intro _ _ _
    | with_reducible refine Wr.of_snd ‹_ = (_, _)› ?_
    | with_reducible refine Wr.of_snd2 ‹_ = (_, _, _)› ?_
    | with_reducible apply Wr.of_id
    | split
    | dsimp only

theorem wrWac_WAC_TBL_CTL_wr {m : Nat} {s0 : State} (v : Word) (rq : Req) (s : State) (hm : subMask 0x400000000000000000000000000000000000000000000400000000000000000000048320080c000200000000000000000000000000000 m = true) (h : Wr m s0 s) : Wr m s0 (wrWac .WAC_TBL_CTL [] v rq s) := by
  refine Wr.lift (f := 0x400000000000000000000000000000000000000000000400000000000000000000048320080c000200000000000000000000000000000) ?_ hm h
  unfold wrWac
  repeat' first
    | exact rfl
    | (refine (?_ : _ = true); dsimp only [List.all]; exact rfl)
    | with_reducible exact Wr.refl _ _
    | with_reducible assumption
    | contradiction
    | with_reducible apply State.wacOp_wr
    | with_reducible apply State.pendResult_wr
    | with_reducible apply Wr.ite <;> intro _
    | with_reducible apply Wr.foldl <;> try intro _ _ _
    | with_reducible apply Wr.foldl_snd <;> try intro _ _ _
    | with_reducible refine Wr.of_snd ‹_ = (_, _)› ?_
    | with_reducible refine Wr.of_snd2 ‹_ = (_, _, _)› ?_
    | with_reducible apply Wr.of_id
    | split
    | dsimp only

theorem wrWac_WAC_MRX_FREE_wr {m : Nat} {s0 : State} (v : Word) (rq : Req) (s : State) (hm : subMask 0 m = true) (h : Wr m s0 s) : Wr m s0 (wrWac .WAC_MRX_FREE [] v rq s) := by
  refine Wr.lift (f := 0) ?_ hm h
  unfold wrWac
  repeat' first
    | exact rfl
    | (refine (?_ : _ = true); dsimp only [List.all]; exact rfl)
    | with_reducible exact Wr.refl _ _
    | with_reducible assumption
    | contradiction
    | with_reducible apply Wr.of_keep (f := 65536) (State.bufFree_keep (m := 65536) _ _ rfl (Keep.refl _ _)) rfl
    | with_reducible apply Wr.ite <;> intro _
    | with_reducible apply Wr.foldl <;> try intro _ _ _
    | with_reducible apply Wr.foldl_snd <;> try intro _ _ _
    | with_reducible refine Wr.of_snd ‹_ = (_, _)› ?_
    | with_reducible refine Wr.of_snd2 ‹_ = (_, _, _)› ?_
    | with_reducible apply Wr.of_id
    | split
    | dsimp only

theorem rdWac_WAC_BSR_POP_wr {m : Nat} {s0 : State} (rq : Req) (s : State) (hm : subMask 0 m = true) (h : Wr m s0 s) : Wr m s0 (rdWac .WAC_BSR_POP [] rq s).2 := by
  refine Wr.lift (f := 0) ?_ hm h
  unfold rdWac
  repeat' first
    | exact rfl
    | (refine (?_ : _ = true); dsimp only [List.all]; exact rfl)
    | with_reducible exact Wr.refl _ _
    | with_reducible assumption
    | contradiction
    | with_reducible apply Wr.of_keep (f := 4194304) (State.wacUpd_keep (m := 4194304) _ _ rfl (Keep.refl _ _)) rfl
    | with_reducible apply Wr.ite <;> intro _
    | with_reducible apply Wr.foldl <;> try intro _ _ _
    | with_reducible apply Wr.foldl_snd <;> try intro _ _ _
    | with_reducible refine Wr.of_snd ‹_ = (_, _)› ?_
    | with_reducible refine Wr.of_snd2 ‹_ = (_, _, _)› ?_
    | with_reducible apply Wr.of_id
    | split
    | dsimp only

theorem rdWac_WAC_MTX_CPL_POP_wr {m : Nat} {s0 : State} (rq : Req) (s : State) (hm : subMask 0 m = true) (h : Wr m s0 s) : Wr m s0 (rdWac .WAC_MTX_CPL_POP [] rq s).2 := by
  refine Wr.lift (f := 0) ?_ hm h
  unfold rdWac
  repeat' first
    | exact rfl
    | (refine (?_ : _ = true); dsimp only [List.all]; exact rfl)
    | with_reducible exact Wr.refl _ _
    | with_reducible assumption
    | contradiction
    | with_reducible apply Wr.of_keep (f := 4194304) (State.wacUpd_keep (m := 4194304) _ _ rfl (Keep.refl _ _)) rfl
    | with_reducible apply Wr.ite <;> intro _
    | with_reducible apply Wr.foldl <;> try intro _ _ _
    | with_reducible apply Wr.foldl_snd <;> try intro _ _ _
    | with_reducible refine Wr.of_snd ‹_ = (_, _)› ?_
    | with_reducible refine Wr.of_snd2 ‹_ = (_, _, _)› ?_
    | with_reducible apply Wr.of_id
    | split
    | dsimp only

theorem execWacTableLoad_wr (a0 : _) (s : State) {t : State} (h : execWacTableLoad a0 s = .next t) : Wr 0x40000f00000000000000400000000000000000000000000000000000000000000400000000000000000000048320080c000200000000000000000000000000000 s t := by
  unfold execWacTableLoad at h
  injection h with h
  subst h
  repeat' first
    | exact rfl
    | (refine (?_ : _ = true); dsimp only [List.all]; exact rfl)
    | with_reducible exact Wr.refl _ _
    | with_reducible assumption
    | with_reducible refine writeReg_wr (r0 := .WAC_TBL_CTL) (show findReg (Reg.addr .WAC_TBL_CTL []) = some (.WAC_TBL_CTL, []) by decide +kernel) (fun _ _ => ?_) ?_ ?_
    | with_reducible apply wrWac_WAC_TBL_CTL_wr
    | with_reducible apply Wr.ite <;> intro _
    | with_reducible apply Wr.foldl <;> try intro _ _ _
    | with_reducible apply Wr.foldl_snd <;> try intro _ _ _
    | with_reducible refine Wr.of_snd ‹_ = (_, _)› ?_
    | with_reducible refine Wr.of_snd2 ‹_ = (_, _, _)› ?_
    | with_reducible apply Wr.of_id
    | split
    | dsimp only

theorem execWacTableCommit_wr (a0 : _) (s : State) {t : State} (h : execWacTableCommit a0 s = .next t) : Wr 0x40000f00000000000000400000000000000000000000000000000000000000000400000000000000000000048320080c000200000000000000000000000000000 s t := by
  unfold execWacTableCommit at h
  injection h with h
  subst h
  repeat' first
    | exact rfl
    | (refine (?_ : _ = true); dsimp only [List.all]; exact rfl)
    | with_reducible exact Wr.refl _ _
    | with_reducible assumption
    | with_reducible refine writeReg_wr (r0 := .WAC_TBL_CTL) (show findReg (Reg.addr .WAC_TBL_CTL []) = some (.WAC_TBL_CTL, []) by decide +kernel) (fun _ _ => ?_) ?_ ?_
    | with_reducible apply wrWac_WAC_TBL_CTL_wr
    | with_reducible apply Wr.ite <;> intro _
    | with_reducible apply Wr.foldl <;> try intro _ _ _
    | with_reducible apply Wr.foldl_snd <;> try intro _ _ _
    | with_reducible refine Wr.of_snd ‹_ = (_, _)› ?_
    | with_reducible refine Wr.of_snd2 ‹_ = (_, _, _)› ?_
    | with_reducible apply Wr.of_id
    | split
    | dsimp only

theorem execWacTableClear_wr (a0 : _) (s : State) {t : State} (h : execWacTableClear a0 s = .next t) : Wr 0x40000f00000000000000400000000000000000000000000000000000000000000400000000000000000000048320080c000200000000000000000000000000000 s t := by
  unfold execWacTableClear at h
  injection h with h
  subst h
  repeat' first
    | exact rfl
    | (refine (?_ : _ = true); dsimp only [List.all]; exact rfl)
    | with_reducible exact Wr.refl _ _
    | with_reducible assumption
    | with_reducible refine writeReg_wr (r0 := .WAC_TBL_CTL) (show findReg (Reg.addr .WAC_TBL_CTL []) = some (.WAC_TBL_CTL, []) by decide +kernel) (fun _ _ => ?_) ?_ ?_
    | with_reducible apply wrWac_WAC_TBL_CTL_wr
    | with_reducible apply Wr.ite <;> intro _
    | with_reducible apply Wr.foldl <;> try intro _ _ _
    | with_reducible apply Wr.foldl_snd <;> try intro _ _ _
    | with_reducible refine Wr.of_snd ‹_ = (_, _)› ?_
    | with_reducible refine Wr.of_snd2 ‹_ = (_, _, _)› ?_
    | with_reducible apply Wr.of_id
    | split
    | dsimp only

theorem execTbtt_wr (a0 : _) (s : State) {t : State} (h : execTbtt a0 s = .next t) : Wr 0x4000000000000000000000000000000000000000000000000000000000000000000683000800000000000000000000000000000000000 s t := by
  unfold execTbtt at h
  injection h with h
  subst h
  repeat' first
    | exact rfl
    | (refine (?_ : _ = true); dsimp only [List.all]; exact rfl)
    | with_reducible exact Wr.refl _ _
    | with_reducible assumption
    | with_reducible apply Wr.of_keep (f := 5242880) (State.dueTidy_keep (m := 5242880) _ _ rfl (Keep.refl _ _)) rfl
    | with_reducible apply State.inc_wr
    | with_reducible apply State.frameEnd_wr
    | with_reducible apply Wr.of_keep (f := 4194304) (State.frameAdd_keep (m := 4194304) _ _ rfl (Keep.refl _ _)) rfl
    | with_reducible apply Wr.of_keep (f := 4194304) (State.wlinkUpd_keep (m := 4194304) _ _ _ rfl (Keep.refl _ _)) rfl
    | with_reducible apply Wr.ite <;> intro _
    | with_reducible apply Wr.foldl <;> try intro _ _ _
    | with_reducible apply Wr.foldl_snd <;> try intro _ _ _
    | with_reducible refine Wr.of_snd ‹_ = (_, _)› ?_
    | with_reducible refine Wr.of_snd2 ‹_ = (_, _, _)› ?_
    | with_reducible apply Wr.of_id
    | split
    | dsimp only

theorem execFrameLifetime_wr (a0 : _) (s : State) {t : State} (h : execFrameLifetime a0 s = .next t) : Wr 0x4000000000000000000000000000000000000000000000000000000000000000000483000800000000000000000000000000000000000 s t := by
  unfold execFrameLifetime at h
  injection h with h
  subst h
  repeat' first
    | exact rfl
    | (refine (?_ : _ = true); dsimp only [List.all]; exact rfl)
    | with_reducible exact Wr.refl _ _
    | with_reducible assumption
    | with_reducible apply Wr.of_keep (f := 5242880) (State.duesTidy_keep (m := 5242880) _ rfl (Keep.refl _ _)) rfl
    | with_reducible apply State.frameEnd_wr
    | with_reducible apply Wr.ite <;> intro _
    | with_reducible apply Wr.foldl <;> try intro _ _ _
    | with_reducible apply Wr.foldl_snd <;> try intro _ _ _
    | with_reducible refine Wr.of_snd ‹_ = (_, _)› ?_
    | with_reducible refine Wr.of_snd2 ‹_ = (_, _, _)› ?_
    | with_reducible apply Wr.of_id
    | split
    | dsimp only

theorem execEdcaBackoffExpiry_wr (a0 : _) (a1 : _) (a2 : _) (a3 : _) (s : State) {t : State} (h : execEdcaBackoffExpiry a0 a1 a2 a3 s = .next t) : Wr 0x10000000004000000000000000000000000000000000000000000000000000000000000000000483000800000000000000000000000000000000000 s t := by
  unfold execEdcaBackoffExpiry at h
  injection h with h
  subst h
  repeat' first
    | exact rfl
    | (refine (?_ : _ = true); dsimp only [List.all]; exact rfl)
    | with_reducible exact Wr.refl _ _
    | with_reducible assumption
    | with_reducible apply State.sentLapse_wr
    | with_reducible apply State.schedule_wr
    | with_reducible apply Wr.of_keep (f := 4194304) (State.wlinkUpd_keep (m := 4194304) _ _ _ rfl (Keep.refl _ _)) rfl
    | with_reducible apply Wr.ite <;> intro _
    | with_reducible apply Wr.foldl <;> try intro _ _ _
    | with_reducible apply Wr.foldl_snd <;> try intro _ _ _
    | with_reducible refine Wr.of_snd ‹_ = (_, _)› ?_
    | with_reducible refine Wr.of_snd2 ‹_ = (_, _, _)› ?_
    | with_reducible apply Wr.of_id
    | split
    | dsimp only

theorem execWacBsrPop_wr (a0 : _) (s : State) {t : State} (h : execWacBsrPop a0 s = .next t) : Wr 0x40000f000000000000000000000000000000000000000000000000000000000000000000000000000000000000000000000000000000000000000000000000000 s t := by
  unfold execWacBsrPop at h
  injection h with h
  subst h
  repeat' first
    | exact rfl
    | (refine (?_ : _ = true); dsimp only [List.all]; exact rfl)
    | with_reducible exact Wr.refl _ _
    | with_reducible assumption
    | with_reducible refine readReg_wr (r0 := .WAC_BSR_POP) (show findReg (Reg.addr .WAC_BSR_POP []) = some (.WAC_BSR_POP, []) by decide +kernel) (fun _ _ => ?_) ?_ ?_
    | with_reducible apply rdWac_WAC_BSR_POP_wr
    | with_reducible apply Wr.ite <;> intro _
    | with_reducible apply Wr.foldl <;> try intro _ _ _
    | with_reducible apply Wr.foldl_snd <;> try intro _ _ _
    | with_reducible refine Wr.of_snd ‹_ = (_, _)› ?_
    | with_reducible refine Wr.of_snd2 ‹_ = (_, _, _)› ?_
    | with_reducible apply Wr.of_id
    | split
    | dsimp only

theorem State.twtTeardown_wr {m : Nat} {s0 : State} (s : State) (a1 : _) (hm : subMask 0x8000000000000000000000000000000000000000 m = true) (h : Wr m s0 s) : Wr m s0 (State.twtTeardown s a1) := by
  refine Wr.lift (f := 0x8000000000000000000000000000000000000000) ?_ hm h
  unfold State.twtTeardown
  repeat' first
    | exact rfl
    | (refine (?_ : _ = true); dsimp only [List.all]; exact rfl)
    | with_reducible exact Wr.refl _ _
    | with_reducible assumption
    | with_reducible apply Wr.of_keep (f := 4194304) (State.setWfld_keep (m := 4194304) _ _ _ _ _ _ rfl (Keep.refl _ _)) rfl
    | with_reducible apply Wr.of_keep (f := 272) (State.raise_keep (m := 272) _ _ rfl (Keep.refl _ _)) rfl
    | with_reducible apply State.inc_wr
    | with_reducible apply Wr.of_keep (f := 4194304) (State.frameAdd_keep (m := 4194304) _ _ rfl (Keep.refl _ _)) rfl
    | with_reducible apply Wr.ite <;> intro _
    | with_reducible apply Wr.foldl <;> try intro _ _ _
    | with_reducible apply Wr.foldl_snd <;> try intro _ _ _
    | with_reducible refine Wr.of_snd ‹_ = (_, _)› ?_
    | with_reducible refine Wr.of_snd2 ‹_ = (_, _, _)› ?_
    | with_reducible apply Wr.of_id
    | split
    | dsimp only

theorem execTwtWindowClose_wr (a0 : _) (s : State) {t : State} (h : execTwtWindowClose a0 s = .next t) : Wr 0xc000000000000000000000000000000000000000 s t := by
  unfold execTwtWindowClose at h
  injection h with h
  subst h
  repeat' first
    | exact rfl
    | (refine (?_ : _ = true); dsimp only [List.all]; exact rfl)
    | with_reducible exact Wr.refl _ _
    | with_reducible assumption
    | with_reducible apply Wr.of_keep (f := 4194304) (State.wacUpd_keep (m := 4194304) _ _ rfl (Keep.refl _ _)) rfl
    | with_reducible apply Wr.of_keep (f := 4194304) (State.setWfld_keep (m := 4194304) _ _ _ _ _ _ rfl (Keep.refl _ _)) rfl
    | with_reducible apply State.inc_wr
    | with_reducible apply State.twtTeardown_wr
    | with_reducible apply Wr.ite <;> intro _
    | with_reducible apply Wr.foldl <;> try intro _ _ _
    | with_reducible apply Wr.foldl_snd <;> try intro _ _ _
    | with_reducible refine Wr.of_snd ‹_ = (_, _)› ?_
    | with_reducible refine Wr.of_snd2 ‹_ = (_, _, _)› ?_
    | with_reducible apply Wr.of_id
    | split
    | dsimp only

theorem State.ackIn_wr {m : Nat} {s0 : State} (s : State) (a1 : _) (a2 : _) (hm : subMask 0x4000000000000000000000000000000000000000000000000000000000000000000483000800000000000000000000000000000000000 m = true) (h : Wr m s0 s) : Wr m s0 (State.ackIn s a1 a2) := by
  refine Wr.lift (f := 0x4000000000000000000000000000000000000000000000000000000000000000000483000800000000000000000000000000000000000) ?_ hm h
  unfold State.ackIn
  repeat' first
    | exact rfl
    | (refine (?_ : _ = true); dsimp only [List.all]; exact rfl)
    | with_reducible exact Wr.refl _ _
    | with_reducible assumption
    | with_reducible apply State.frameEnd_wr
    | with_reducible apply State.frameRetry_wr
    | with_reducible apply Wr.of_keep (f := 4194304) (State.twtEosp_keep (m := 4194304) _ _ rfl (Keep.refl _ _)) rfl
    | with_reducible apply Wr.of_keep (f := 4194304) (State.wlinkUpd_keep (m := 4194304) _ _ _ rfl (Keep.refl _ _)) rfl
    | with_reducible apply Wr.ite <;> intro _
    | with_reducible apply Wr.foldl <;> try intro _ _ _
    | with_reducible apply Wr.foldl_snd <;> try intro _ _ _
    | with_reducible refine Wr.of_snd ‹_ = (_, _)› ?_
    | with_reducible refine Wr.of_snd2 ‹_ = (_, _, _)› ?_
    | with_reducible apply Wr.of_id
    | split
    | dsimp only

theorem execMpduReceive_wr (a0 : _) (a1 : _) (a2 : _) (a3 : _) (s : State) {t : State} (h : execMpduReceive a0 a1 a2 a3 s = .next t) : Wr 0x10000000004000000000000000000000000000000000000000000004000000000000000000000493780800000000000000000000000000000000000 s t := by
  unfold execMpduReceive at h
  injection h with h
  subst h
  repeat' first
    | exact rfl
    | (refine (?_ : _ = true); dsimp only [List.all]; exact rfl)
    | with_reducible exact Wr.refl _ _
    | with_reducible assumption
    | with_reducible apply Wr.of_keep (f := 2097152) (State.phyUpd_keep (m := 2097152) _ _ _ rfl (Keep.refl _ _)) rfl
    | with_reducible apply Wr.of_keep (f := 4194304) (State.staHeard_keep (m := 4194304) _ _ _ rfl (Keep.refl _ _)) rfl
    | with_reducible apply Wr.of_keep (f := 4194304) (State.setWfld_keep (m := 4194304) _ _ _ _ _ _ rfl (Keep.refl _ _)) rfl
    | with_reducible apply Wr.of_keep (f := 4194304) (State.wacUpd_keep (m := 4194304) _ _ rfl (Keep.refl _ _)) rfl
    | with_reducible apply Wr.of_keep (f := 4194576) (State.bufReport_keep (m := 4194576) _ _ _ _ rfl (Keep.refl _ _)) rfl
    | with_reducible apply Wr.of_keep (f := 4194304) (State.wlinkUpd_keep (m := 4194304) _ _ _ rfl (Keep.refl _ _)) rfl
    | with_reducible apply State.ackIn_wr
    | with_reducible apply Wr.of_keep (f := 4194304) (State.ackMake_keep (m := 4194304) _ _ _ rfl (Keep.refl _ _)) rfl
    | with_reducible apply Wr.of_keep (f := 4194304) (State.baMark_keep (m := 4194304) _ _ rfl (Keep.refl _ _)) rfl
    | with_reducible apply State.mpduIn_wr
    | with_reducible apply Wr.ite <;> intro _
    | with_reducible apply Wr.foldl <;> try intro _ _ _
    | with_reducible apply Wr.foldl_snd <;> try intro _ _ _
    | with_reducible refine Wr.of_snd ‹_ = (_, _)› ?_
    | with_reducible refine Wr.of_snd2 ‹_ = (_, _, _)› ?_
    | with_reducible apply Wr.of_id
    | split
    | dsimp only

theorem execReorderTimeout_wr (a0 : _) (s : State) {t : State} (h : execReorderTimeout a0 s = .next t) : Wr 0x4000000000000000000000080a00800000000000000000000000000000000000 s t := by
  unfold execReorderTimeout at h
  injection h with h
  subst h
  repeat' first
    | exact rfl
    | (refine (?_ : _ = true); dsimp only [List.all]; exact rfl)
    | with_reducible exact Wr.refl _ _
    | with_reducible assumption
    | with_reducible apply State.inc_wr
    | with_reducible apply State.baMove_wr
    | with_reducible apply Wr.ite <;> intro _
    | with_reducible apply Wr.foldl <;> try intro _ _ _
    | with_reducible apply Wr.foldl_snd <;> try intro _ _ _
    | with_reducible refine Wr.of_snd ‹_ = (_, _)› ?_
    | with_reducible refine Wr.of_snd2 ‹_ = (_, _, _)› ?_
    | with_reducible apply Wr.of_id
    | split
    | dsimp only

theorem State.launchDue_wr {m : Nat} {s0 : State} (s : State) (a1 : _) (a2 : _) (a3 : _) (a4 : _) (hm : subMask 0x10000000004000000000000000000000000000000000000000000000000000000000000000000483000800000000000000000000000000000000000 m = true) (h : Wr m s0 s) : Wr m s0 (State.launchDue s a1 a2 a3 a4) := by
  refine Wr.lift (f := 0x10000000004000000000000000000000000000000000000000000000000000000000000000000483000800000000000000000000000000000000000) ?_ hm h
  unfold State.launchDue
  repeat' first
    | exact rfl
    | (refine (?_ : _ = true); dsimp only [List.all]; exact rfl)
    | with_reducible exact Wr.refl _ _
    | with_reducible assumption
    | with_reducible apply Wr.of_keep (f := 4194576) (State.mtxComplete_keep (m := 4194576) _ _ _ _ _ rfl (Keep.refl _ _)) rfl
    | with_reducible apply State.inc_wr
    | with_reducible apply State.frameTake_wr
    | with_reducible apply Wr.of_keep (f := 4194304) (State.wacUpd_keep (m := 4194304) _ _ rfl (Keep.refl _ _)) rfl
    | with_reducible apply Wr.of_keep (f := 4194304) (State.frameAdd_keep (m := 4194304) _ _ rfl (Keep.refl _ _)) rfl
    | with_reducible apply Wr.of_keep (f := 4194304) (State.ppduDue_keep (m := 4194304) _ _ _ rfl (Keep.refl _ _)) rfl
    | with_reducible apply State.frameEnd_wr
    | with_reducible apply Wr.ite <;> intro _
    | with_reducible apply Wr.foldl <;> try intro _ _ _
    | with_reducible apply Wr.foldl_snd <;> try intro _ _ _
    | with_reducible refine Wr.of_snd ‹_ = (_, _)› ?_
    | with_reducible refine Wr.of_snd2 ‹_ = (_, _, _)› ?_
    | with_reducible apply Wr.of_id
    | split
    | dsimp only

theorem execMtxDescriptorFetch_wr (a0 : _) (s : State) {t : State} (h : execMtxDescriptorFetch a0 s = .next t) : Wr 0xf000010000000504a00000000000000000000000000000000000000000000000000000000000000000483000880000000000000000000000000000000000 s t := by
  unfold execMtxDescriptorFetch at h
  injection h with h
  subst h
  repeat' first
    | exact rfl
    | (refine (?_ : _ = true); dsimp only [List.all]; exact rfl)
    | with_reducible exact Wr.refl _ _
    | with_reducible assumption
    | with_reducible apply State.memRead_wr
    | with_reducible apply State.set_wr
    | with_reducible apply Wr.of_keep (f := 4194576) (State.mtxComplete_keep (m := 4194576) _ _ _ _ _ rfl (Keep.refl _ _)) rfl
    | with_reducible apply State.capture_wr
    | with_reducible apply State.launchDue_wr
    | with_reducible apply Wr.of_keep (f := 4194304) (State.frameAdd_keep (m := 4194304) _ _ rfl (Keep.refl _ _)) rfl
    | with_reducible apply Wr.ite <;> intro _
    | with_reducible apply Wr.foldl <;> try intro _ _ _
    | with_reducible apply Wr.foldl_snd <;> try intro _ _ _
    | with_reducible refine Wr.of_snd ‹_ = (_, _)› ?_
    | with_reducible refine Wr.of_snd2 ‹_ = (_, _, _)› ?_
    | with_reducible apply Wr.of_id
    | split
    | dsimp only

theorem execWacMtxCplPop_wr (a0 : _) (s : State) {t : State} (h : execWacMtxCplPop a0 s = .next t) : Wr 0x40000f000000000000000000000000000000000000000000000000000000000000000000000000000000000000000000000000000000000000000000000000000 s t := by
  unfold execWacMtxCplPop at h
  injection h with h
  subst h
  repeat' first
    | exact rfl
    | (refine (?_ : _ = true); dsimp only [List.all]; exact rfl)
    | with_reducible exact Wr.refl _ _
    | with_reducible assumption
    | with_reducible refine readReg_wr (r0 := .WAC_MTX_CPL_POP) (show findReg (Reg.addr .WAC_MTX_CPL_POP []) = some (.WAC_MTX_CPL_POP, []) by decide +kernel) (fun _ _ => ?_) ?_ ?_
    | with_reducible apply rdWac_WAC_MTX_CPL_POP_wr
    | with_reducible apply Wr.ite <;> intro _
    | with_reducible apply Wr.foldl <;> try intro _ _ _
    | with_reducible apply Wr.foldl_snd <;> try intro _ _ _
    | with_reducible refine Wr.of_snd ‹_ = (_, _)› ?_
    | with_reducible refine Wr.of_snd2 ‹_ = (_, _, _)› ?_
    | with_reducible apply Wr.of_id
    | split
    | dsimp only

theorem execWacMrxFree_wr (a0 : _) (a1 : _) (s : State) {t : State} (h : execWacMrxFree a0 a1 s = .next t) : Wr 0x40000f000000000000000000000000000000000000000000000000000000000000000000000000000000000000000000000000000000000000000000000000000 s t := by
  unfold execWacMrxFree at h
  injection h with h
  subst h
  repeat' first
    | exact rfl
    | (refine (?_ : _ = true); dsimp only [List.all]; exact rfl)
    | with_reducible exact Wr.refl _ _
    | with_reducible assumption
    | with_reducible refine writeReg_wr (r0 := .WAC_MRX_FREE) (show findReg (Reg.addr .WAC_MRX_FREE []) = some (.WAC_MRX_FREE, []) by decide +kernel) (fun _ _ => ?_) ?_ ?_
    | with_reducible apply wrWac_WAC_MRX_FREE_wr
    | with_reducible apply Wr.ite <;> intro _
    | with_reducible apply Wr.foldl <;> try intro _ _ _
    | with_reducible apply Wr.foldl_snd <;> try intro _ _ _
    | with_reducible refine Wr.of_snd ‹_ = (_, _)› ?_
    | with_reducible refine Wr.of_snd2 ‹_ = (_, _, _)› ?_
    | with_reducible apply Wr.of_id
    | split
    | dsimp only

theorem execQuietWindowCts_wr (a0 : _) (a1 : _) (a2 : _) (s : State) {t : State} (h : execQuietWindowCts a0 a1 a2 s = .next t) : Wr 0x100000000000000000000000000000000000000000 s t := by
  unfold execQuietWindowCts at h
  injection h with h
  subst h
  repeat' first
    | exact rfl
    | (refine (?_ : _ = true); dsimp only [List.all]; exact rfl)
    | with_reducible exact Wr.refl _ _
    | with_reducible assumption
    | with_reducible apply Wr.of_keep (f := 4194304) (State.wacUpd_keep (m := 4194304) _ _ rfl (Keep.refl _ _)) rfl
    | with_reducible apply Wr.of_keep (f := 4194304) (State.wlinkUpd_keep (m := 4194304) _ _ _ rfl (Keep.refl _ _)) rfl
    | with_reducible apply Wr.of_keep (f := 272) (State.raise_keep (m := 272) _ _ rfl (Keep.refl _ _)) rfl
    | with_reducible apply State.inc_wr
    | with_reducible apply Wr.ite <;> intro _
    | with_reducible apply Wr.foldl <;> try intro _ _ _
    | with_reducible apply Wr.foldl_snd <;> try intro _ _ _
    | with_reducible refine Wr.of_snd ‹_ = (_, _)› ?_
    | with_reducible refine Wr.of_snd2 ‹_ = (_, _, _)› ?_
    | with_reducible apply Wr.of_id
    | split
    | dsimp only

theorem execAfcInstall_wr (a0 : _) (s : State) {t : State} (h : execAfcInstall a0 s = .next t) : Wr 0x40000f000000000000000000000000000000000000000000000000000000000000000000000000000000000000020000000000000000000000000000000000000 s t := by
  unfold execAfcInstall at h
  injection h with h
  subst h
  repeat' first
    | exact rfl
    | (refine (?_ : _ = true); dsimp only [List.all]; exact rfl)
    | with_reducible exact Wr.refl _ _
    | with_reducible assumption
    | with_reducible refine writeReg_wr (r0 := .WAC_AFC_CTL) (show findReg (Reg.addr .WAC_AFC_CTL []) = some (.WAC_AFC_CTL, []) by decide +kernel) (fun _ _ => ?_) ?_ ?_
    | with_reducible apply wrWac_WAC_AFC_CTL_wr
    | with_reducible apply Wr.ite <;> intro _
    | with_reducible apply Wr.foldl <;> try intro _ _ _
    | with_reducible apply Wr.foldl_snd <;> try intro _ _ _
    | with_reducible refine Wr.of_snd ‹_ = (_, _)› ?_
    | with_reducible refine Wr.of_snd2 ‹_ = (_, _, _)› ?_
    | with_reducible apply Wr.of_id
    | split
    | dsimp only

theorem execAfcClear_wr (a0 : _) (s : State) {t : State} (h : execAfcClear a0 s = .next t) : Wr 0x40000f000000000000000000000000000000000000000000000000000000000000000000000000000000000000020000000000000000000000000000000000000 s t := by
  unfold execAfcClear at h
  injection h with h
  subst h
  repeat' first
    | exact rfl
    | (refine (?_ : _ = true); dsimp only [List.all]; exact rfl)
    | with_reducible exact Wr.refl _ _
    | with_reducible assumption
    | with_reducible refine writeReg_wr (r0 := .WAC_AFC_CTL) (show findReg (Reg.addr .WAC_AFC_CTL []) = some (.WAC_AFC_CTL, []) by decide +kernel) (fun _ _ => ?_) ?_ ?_
    | with_reducible apply wrWac_WAC_AFC_CTL_wr
    | with_reducible apply Wr.ite <;> intro _
    | with_reducible apply Wr.foldl <;> try intro _ _ _
    | with_reducible apply Wr.foldl_snd <;> try intro _ _ _
    | with_reducible refine Wr.of_snd ‹_ = (_, _)› ?_
    | with_reducible refine Wr.of_snd2 ‹_ = (_, _, _)› ?_
    | with_reducible apply Wr.of_id
    | split
    | dsimp only

end Sys2Proof.Machine
end

