-- ==== Sys2Proof/Laws/WrFhu.lean ====
section
/-! SUPPORT. The registers that each operation of Machine/Fhu.lean may change. -/

set_option Elab.async false

namespace Sys2Proof.Machine

theorem State.fhBad_wr {m : Nat} {s0 : State} (s : State) (a1 : _) (hr1 : m.testBit a1.ctorIdx = true) (hm : subMask 0 m = true) (h : Wr m s0 s) : Wr m s0 (State.fhBad s a1) := by
  unfold State.fhBad
  repeat' first
    | exact rfl
    | (refine (?_ : _ = true); dsimp only [List.all]; exact rfl)
    | exact subMask_trans rfl hm
    | exact subMask_bit hm rfl
    | with_reducible exact Wr.refl _ _
    | with_reducible assumption
    | with_reducible apply Wr.of_keep (f := 8388880) (State.fhMark_keep (m := 8388880) _ _ rfl (Keep.refl _ _)) rfl
    | with_reducible apply State.inc_wr
    | with_reducible apply Wr.ite <;> intro _
    | with_reducible apply Wr.foldl <;> try intro _ _ _
    | with_reducible apply Wr.foldl_snd <;> try intro _ _ _
    | with_reducible refine Wr.of_snd ‹_ = (_, _)› ?_
    | with_reducible refine Wr.of_snd2 ‹_ = (_, _, _)› ?_
    | with_reducible apply Wr.of_id
    | split
    | dsimp only

theorem State.fhLate_wr {m : Nat} {s0 : State} (s : State) (a1 : _) (hr1 : m.testBit a1.ctorIdx = true) (hm : subMask 0 m = true) (h : Wr m s0 s) : Wr m s0 (State.fhLate s a1) := by
  unfold State.fhLate
  repeat' first
    | exact rfl
    | (refine (?_ : _ = true); dsimp only [List.all]; exact rfl)
    | exact subMask_trans rfl hm
    | exact subMask_bit hm rfl
    | with_reducible exact Wr.refl _ _
    | with_reducible assumption
    | with_reducible apply Wr.of_keep (f := 8388880) (State.fhMark_keep (m := 8388880) _ _ rfl (Keep.refl _ _)) rfl
    | with_reducible apply State.inc_wr
    | with_reducible apply Wr.ite <;> intro _
    | with_reducible apply Wr.foldl <;> try intro _ _ _
    | with_reducible apply Wr.foldl_snd <;> try intro _ _ _
    | with_reducible refine Wr.of_snd ‹_ = (_, _)› ?_
    | with_reducible refine Wr.of_snd2 ‹_ = (_, _, _)› ?_
    | with_reducible apply Wr.of_id
    | split
    | dsimp only

theorem State.fhFull_wr {m : Nat} {s0 : State} (s : State) (hm : subMask 0x100000000000000000000000000000000000000000000000000 m = true) (h : Wr m s0 s) : Wr m s0 (State.fhFull s) := by
  refine Wr.lift (f := 0x100000000000000000000000000000000000000000000000000) ?_ hm h
  unfold State.fhFull
  repeat' first
    | exact rfl
    | (refine (?_ : _ = true); dsimp only [List.all]; exact rfl)
    | with_reducible exact Wr.refl _ _
    | with_reducible assumption
    | with_reducible apply Wr.of_keep (f := 8388608) (State.fhUpd_keep (m := 8388608) _ _ rfl (Keep.refl _ _)) rfl
    | with_reducible apply State.inc_wr
    | with_reducible apply Wr.of_keep (f := 272) (State.raise_keep (m := 272) _ _ rfl (Keep.refl _ _)) rfl
    | with_reducible apply Wr.ite <;> intro _
    | with_reducible apply Wr.foldl <;> try intro _ _ _
    | with_reducible apply Wr.foldl_snd <;> try intro _ _ _
    | with_reducible refine Wr.of_snd ‹_ = (_, _)› ?_
    | with_reducible refine Wr.of_snd2 ‹_ = (_, _, _)› ?_
    | with_reducible apply Wr.of_id
    | split
    | dsimp only

theorem State.fhUplane_wr {m : Nat} {s0 : State} (s : State) (a1 : _) (a2 : _) (a3 : _) (hm : subMask 0x186700000000000000000000000000000000000000000000000 m = true) (h : Wr m s0 s) : Wr m s0 (State.fhUplane s a1 a2 a3) := by
  refine Wr.lift (f := 0x186700000000000000000000000000000000000000000000000) ?_ hm h
  unfold State.fhUplane
  repeat' first
    | exact rfl
    | (refine (?_ : _ = true); dsimp only [List.all]; exact rfl)
    | with_reducible exact Wr.refl _ _
    | with_reducible assumption
    | with_reducible apply State.fhBad_wr
    | with_reducible apply State.fhLate_wr
    | with_reducible apply Wr.of_keep (f := 8454208) (State.fhStore_keep (m := 8454208) _ _ _ _ _ _ _ _ rfl (Keep.refl _ _)) rfl
    | with_reducible apply State.inc_wr
    | with_reducible apply State.fhFull_wr
    | with_reducible apply Wr.ite <;> intro _
    | with_reducible apply Wr.foldl <;> try intro _ _ _
    | with_reducible apply Wr.foldl_snd <;> try intro _ _ _
    | with_reducible refine Wr.of_snd ‹_ = (_, _)› ?_
    | with_reducible refine Wr.of_snd2 ‹_ = (_, _, _)› ?_
    | with_reducible apply Wr.of_id
    | split
    | dsimp only

theorem State.fhWrite_wr {m : Nat} {s0 : State} (s : State) (a1 : _) (a2 : _) (a3 : _) (hm : subMask 0x800000000000000000000000000000000000000800000000000 m = true) (h : Wr m s0 s) : Wr m s0 (State.fhWrite s a1 a2 a3) := by
  refine Wr.lift (f := 0x800000000000000000000000000000000000000800000000000) ?_ hm h
  unfold State.fhWrite
  repeat' first
    | exact rfl
    | (refine (?_ : _ = true); dsimp only [List.all]; exact rfl)
    | with_reducible exact Wr.refl _ _
    | with_reducible assumption
    | with_reducible apply State.inc_wr
    | with_reducible apply Wr.of_keep (f := 65600) (State.memPut_keep (m := 65600) _ _ _ rfl (Keep.refl _ _)) rfl
    | with_reducible apply wrArray_BEAM_COMMIT_wr
    | with_reducible apply Wr.ite <;> intro _
    | with_reducible apply Wr.foldl <;> try intro _ _ _
    | with_reducible apply Wr.foldl_snd <;> try intro _ _ _
    | (rewrite [State.mk_eq_updOf]; with_reducible refine Wr.node rfl rfl rfl ?_)
    | with_reducible refine Wr.of_snd ‹_ = (_, _)› ?_
    | with_reducible refine Wr.of_snd2 ‹_ = (_, _, _)› ?_
    | with_reducible apply Wr.of_id
    | split
    | dsimp only

theorem State.fhAccept_wr {m : Nat} {s0 : State} (s : State) (a1 : _) (hm : subMask 0x200000000000000000000000000000000000000000000000000 m = true) (h : Wr m s0 s) : Wr m s0 (State.fhAccept s a1) := by
  refine Wr.lift (f := 0x200000000000000000000000000000000000000000000000000) ?_ hm h
  unfold State.fhAccept
  repeat' first
    | exact rfl
    | (refine (?_ : _ = true); dsimp only [List.all]; exact rfl)
    | with_reducible exact Wr.refl _ _
    | with_reducible assumption
    | with_reducible apply Wr.of_keep (f := 8388608) (State.fhUpd_keep (m := 8388608) _ _ rfl (Keep.refl _ _)) rfl
    | with_reducible apply State.incBy_wr
    | with_reducible apply State.inc_wr
    | with_reducible apply Wr.ite <;> intro _
    | with_reducible apply Wr.foldl <;> try intro _ _ _
    | with_reducible apply Wr.foldl_snd <;> try intro _ _ _
    | with_reducible refine Wr.of_snd ‹_ = (_, _)› ?_
    | with_reducible refine Wr.of_snd2 ‹_ = (_, _, _)› ?_
    | with_reducible apply Wr.of_id
    | split
    | dsimp only

theorem State.fhSection_wr {m : Nat} {s0 : State} (s : State) (a1 : _) (a2 : _) (a3 : _) (a4 : _) (hm : subMask 0xe06000000000000000000000000000000000000800000000000 m = true) (h : Wr m s0 s) : Wr m s0 (State.fhSection s a1 a2 a3 a4) := by
  refine Wr.lift (f := 0xe06000000000000000000000000000000000000800000000000) ?_ hm h
  unfold State.fhSection
  repeat' first
    | exact rfl
    | (refine (?_ : _ = true); dsimp only [List.all]; exact rfl)
    | with_reducible exact Wr.refl _ _
    | with_reducible assumption
    | with_reducible apply State.fhBad_wr
    | with_reducible apply State.inc_wr
    | with_reducible apply State.fhWrite_wr
    | with_reducible apply Wr.of_keep (f := 1048576) (State.beamName_keep (m := 1048576) _ _ _ _ rfl (Keep.refl _ _)) rfl
    | with_reducible apply State.fhAccept_wr
    | with_reducible apply Wr.ite <;> intro _
    | with_reducible apply Wr.foldl <;> try intro _ _ _
    | with_reducible apply Wr.foldl_snd <;> try intro _ _ _
    | with_reducible refine Wr.of_snd ‹_ = (_, _)› ?_
    | with_reducible refine Wr.of_snd2 ‹_ = (_, _, _)› ?_
    | with_reducible apply Wr.of_id
    | split
    | dsimp only

theorem State.fhCplane_wr {m : Nat} {s0 : State} (s : State) (a1 : _) (a2 : _) (a3 : _) (hm : subMask 0xe07900000000000000000000000000000000000800000000000 m = true) (h : Wr m s0 s) : Wr m s0 (State.fhCplane s a1 a2 a3) := by
  refine Wr.lift (f := 0xe07900000000000000000000000000000000000800000000000) ?_ hm h
  unfold State.fhCplane
  repeat' first
    | exact rfl
    | (refine (?_ : _ = true); dsimp only [List.all]; exact rfl)
    | with_reducible exact Wr.refl _ _
    | with_reducible assumption
    | with_reducible apply State.fhBad_wr
    | with_reducible apply State.fhLate_wr
    | with_reducible apply State.fhSection_wr
    | with_reducible apply State.inc_wr
    | with_reducible apply Wr.ite <;> intro _
    | with_reducible apply Wr.foldl <;> try intro _ _ _
    | with_reducible apply Wr.foldl_snd <;> try intro _ _ _
    | with_reducible refine Wr.of_snd ‹_ = (_, _)› ?_
    | with_reducible refine Wr.of_snd2 ‹_ = (_, _, _)› ?_
    | with_reducible apply Wr.of_id
    | split
    | dsimp only

theorem State.fhDelay_wr {m : Nat} {s0 : State} (s : State) (a1 : _) (a2 : _) (a3 : _) (hm : subMask 0x4000000000000000000000000000000000000000000000000 m = true) (h : Wr m s0 s) : Wr m s0 (State.fhDelay s a1 a2 a3) := by
  refine Wr.lift (f := 0x4000000000000000000000000000000000000000000000000) ?_ hm h
  unfold State.fhDelay
  repeat' first
    | exact rfl
    | (refine (?_ : _ = true); dsimp only [List.all]; exact rfl)
    | with_reducible exact Wr.refl _ _
    | with_reducible assumption
    | with_reducible apply Wr.of_keep (f := 16) (State.fhSend_keep (m := 16) _ _ _ _ rfl (Keep.refl _ _)) rfl
    | with_reducible apply State.fhBad_wr
    | with_reducible apply Wr.ite <;> intro _
    | with_reducible apply Wr.foldl <;> try intro _ _ _
    | with_reducible apply Wr.foldl_snd <;> try intro _ _ _
    | with_reducible refine Wr.of_snd ‹_ = (_, _)› ?_
    | with_reducible refine Wr.of_snd2 ‹_ = (_, _, _)› ?_
    | with_reducible apply Wr.of_id
    | split
    | dsimp only

theorem State.fhMessage_wr {m : Nat} {s0 : State} (s : State) (a1 : _) (a2 : _) (a3 : _) (a4 : _) (hm : subMask 0xfbff00000000000000000000000000000000000800000000000 m = true) (h : Wr m s0 s) : Wr m s0 (State.fhMessage s a1 a2 a3 a4).2 := by
  refine Wr.lift (f := 0xfbff00000000000000000000000000000000000800000000000) ?_ hm h
  unfold State.fhMessage
  refine Wr.ite_snd (fun _ => State.fhBad_wr _ _ rfl rfl (Wr.refl _ _)) (fun _ => ?_)
  refine Wr.ite_snd (fun _ => State.fhBad_wr _ _ rfl rfl (Wr.refl _ _)) (fun _ => ?_)
  refine Wr.ite_snd (fun _ => State.fhBad_wr _ _ rfl rfl (Wr.refl _ _)) (fun _ => ?_)
  refine Wr.ite_snd (fun _ => State.fhBad_wr _ _ rfl rfl (Wr.refl _ _)) (fun _ => ?_)
  refine Wr.ite_snd (fun _ => State.fhDelay_wr _ _ _ _ rfl (Wr.refl _ _)) (fun _ => ?_)
  extract_lets dir
  split
  · exact State.inc_wr _ _ _ rfl rfl (Wr.refl _ _)
  · refine Wr.ite_snd (fun _ => State.fhBad_wr _ _ rfl rfl (Wr.refl _ _)) (fun _ => ?_)
    refine Wr.ite_snd (fun _ => State.fhBad_wr _ _ rfl rfl (Wr.refl _ _)) (fun _ => ?_)
    extract_lets k last s1 s2
    refine Wr.ite_snd (fun _ => State.inc_wr _ _ _ rfl rfl (Wr.refl _ _)) (fun _ => ?_)
    have h1 : Wr 0xfbff00000000000000000000000000000000000800000000000 s s1 := Wr.of_keep (f := 8388608) (State.fhUpd_keep (m := 8388608) _ _ rfl (Keep.refl _ _)) rfl (Wr.refl _ _)
    have h2 : Wr 0xfbff00000000000000000000000000000000000800000000000 s s2 := Wr.ite (fun _ => State.inc_wr _ _ _ rfl rfl (h1)) (fun _ => h1)
    clear_value s2
    exact Wr.ite_snd (fun _ => h2) (fun _ => Wr.ite (fun _ => State.fhUplane_wr _ _ _ _ rfl (h2)) (fun _ => State.fhCplane_wr _ _ _ _ rfl (h2)))

theorem State.fhMessages_wr {m : Nat} {s0 : State} (a0 : _) (a1 : _) (a2 : _) (a3 : _) (s : State) (hm : subMask 0xfbff00000000000000000000000000000000000800000000000 m = true) (h : Wr m s0 s) : Wr m s0 (State.fhMessages a0 a1 a2 a3 s) := by
  induction a3 generalizing a2 s with
  | nil => unfold State.fhMessages; exact h
  | cons b t ih =>
    unfold State.fhMessages
    have h1 : Wr m s0 (s.fhMessage a0 a1 a2 b).2 := State.fhMessage_wr _ _ _ _ _ hm h
    exact Wr.ite (fun _ => h1) (fun _ => ih _ _ h1)

theorem State.fhLost_wr {m : Nat} {s0 : State} (s : State) (a1 : _) (hm : subMask 0x1000000000000000000000000000000000000000000000000000 m = true) (h : Wr m s0 s) : Wr m s0 (State.fhLost s a1) := by
  refine Wr.lift (f := 0x1000000000000000000000000000000000000000000000000000) ?_ hm h
  unfold State.fhLost
  repeat' first
    | exact rfl
    | (refine (?_ : _ = true); dsimp only [List.all]; exact rfl)
    | with_reducible exact Wr.refl _ _
    | with_reducible assumption
    | with_reducible apply Wr.of_keep (f := 8388880) (State.fhMark_keep (m := 8388880) _ _ rfl (Keep.refl _ _)) rfl
    | with_reducible apply State.incBy_wr
    | with_reducible apply Wr.ite <;> intro _
    | with_reducible apply Wr.foldl <;> try intro _ _ _
    | with_reducible apply Wr.foldl_snd <;> try intro _ _ _
    | with_reducible refine Wr.of_snd ‹_ = (_, _)› ?_
    | with_reducible refine Wr.of_snd2 ‹_ = (_, _, _)› ?_
    | with_reducible apply Wr.of_id
    | split
    | dsimp only

theorem State.fhRunStart_wr {m : Nat} {s0 : State} (s : State) (a1 : _) (a2 : _) (hm : subMask 0x3000000000000000000000000000000000000000000000000000 m = true) (h : Wr m s0 s) : Wr m s0 (State.fhRunStart s a1 a2) := by
  refine Wr.lift (f := 0x3000000000000000000000000000000000000000000000000000) ?_ hm h
  unfold State.fhRunStart
  repeat' first
    | exact rfl
    | (refine (?_ : _ = true); dsimp only [List.all]; exact rfl)
    | with_reducible exact Wr.refl _ _
    | with_reducible assumption
    | with_reducible apply Wr.of_keep (f := 8388608) (State.fhUpd_keep (m := 8388608) _ _ rfl (Keep.refl _ _)) rfl
    | with_reducible apply State.incBy_wr
    | with_reducible apply State.fhLost_wr
    | with_reducible apply Wr.ite <;> intro _
    | with_reducible apply Wr.foldl <;> try intro _ _ _
    | with_reducible apply Wr.foldl_snd <;> try intro _ _ _
    | with_reducible refine Wr.of_snd ‹_ = (_, _)› ?_
    | with_reducible refine Wr.of_snd2 ‹_ = (_, _, _)› ?_
    | with_reducible apply Wr.of_id
    | split
    | dsimp only

theorem State.fhRunDone_wr {m : Nat} {s0 : State} (s : State) (a1 : _) (a2 : _) (a3 : _) (hm : subMask 0x1000000000000000000000000000000000000000000000000000 m = true) (h : Wr m s0 s) : Wr m s0 (State.fhRunDone s a1 a2 a3) := by
  refine Wr.lift (f := 0x1000000000000000000000000000000000000000000000000000) ?_ hm h
  unfold State.fhRunDone
  repeat' first
    | exact rfl
    | (refine (?_ : _ = true); dsimp only [List.all]; exact rfl)
    | with_reducible exact Wr.refl _ _
    | with_reducible assumption
    | with_reducible apply Wr.of_keep (f := 8388608) (State.fhFree_keep (m := 8388608) _ _ rfl (Keep.refl _ _)) rfl
    | with_reducible apply Wr.of_keep (f := 8388608) (State.fhUpd_keep (m := 8388608) _ _ rfl (Keep.refl _ _)) rfl
    | with_reducible apply State.fhLost_wr
    | with_reducible apply Wr.ite <;> intro _
    | with_reducible apply Wr.foldl <;> try intro _ _ _
    | with_reducible apply Wr.foldl_snd <;> try intro _ _ _
    | with_reducible refine Wr.of_snd ‹_ = (_, _)› ?_
    | with_reducible refine Wr.of_snd2 ‹_ = (_, _, _)› ?_
    | with_reducible apply Wr.of_id
    | split
    | dsimp only

theorem State.fhDiscard_wr {m : Nat} {s0 : State} (s : State) (a1 : _) (hm : subMask 0x8000000000000000000000000000000000000000000000000000 m = true) (h : Wr m s0 s) : Wr m s0 (State.fhDiscard s a1) := by
  refine Wr.lift (f := 0x8000000000000000000000000000000000000000000000000000) ?_ hm h
  unfold State.fhDiscard
  repeat' first
    | exact rfl
    | (refine (?_ : _ = true); dsimp only [List.all]; exact rfl)
    | with_reducible exact Wr.refl _ _
    | with_reducible assumption
    | with_reducible apply Wr.of_keep (f := 8388608) (State.fhFree_keep (m := 8388608) _ _ rfl (Keep.refl _ _)) rfl
    | with_reducible apply Wr.of_keep (f := 8388608) (State.fhUpd_keep (m := 8388608) _ _ rfl (Keep.refl _ _)) rfl
    | with_reducible apply State.incBy_wr
    | with_reducible apply Wr.ite <;> intro _
    | with_reducible apply Wr.foldl <;> try intro _ _ _
    | with_reducible apply Wr.foldl_snd <;> try intro _ _ _
    | with_reducible refine Wr.of_snd ‹_ = (_, _)› ?_
    | with_reducible refine Wr.of_snd2 ‹_ = (_, _, _)› ?_
    | with_reducible apply Wr.of_id
    | split
    | dsimp only

theorem State.fhStep_wr {m : Nat} {s0 : State} (s : State) (hm : subMask 0x8000000000000000000000000000000000000000000000000000 m = true) (h : Wr m s0 s) : Wr m s0 (State.fhStep s) := by
  refine Wr.lift (f := 0x8000000000000000000000000000000000000000000000000000) ?_ hm h
  unfold State.fhStep
  repeat' first
    | exact rfl
    | (refine (?_ : _ = true); dsimp only [List.all]; exact rfl)
    | with_reducible exact Wr.refl _ _
    | with_reducible assumption
    | with_reducible apply Wr.of_keep (f := 8388608) (State.fhUpd_keep (m := 8388608) _ _ rfl (Keep.refl _ _)) rfl
    | with_reducible apply State.fhDiscard_wr
    | with_reducible apply Wr.ite <;> intro _
    | with_reducible apply Wr.foldl <;> try intro _ _ _
    | with_reducible apply Wr.foldl_snd <;> try intro _ _ _
    | with_reducible refine Wr.of_snd ‹_ = (_, _)› ?_
    | with_reducible refine Wr.of_snd2 ‹_ = (_, _, _)› ?_
    | with_reducible apply Wr.of_id
    | split
    | dsimp only

theorem wrFhu_FHU_RET_FREE_wr {m : Nat} {s0 : State} (v : Word) (rq : Req) (s : State) (hm : subMask 0 m = true) (h : Wr m s0 s) : Wr m s0 (wrFhu .FHU_RET_FREE [] v rq s) := by
  refine Wr.lift (f := 0) ?_ hm h
  unfold wrFhu
  repeat' first
    | exact rfl
    | (refine (?_ : _ = true); dsimp only [List.all]; exact rfl)
    | with_reducible exact Wr.refl _ _
    | with_reducible assumption
    | contradiction
    | with_reducible apply Wr.of_keep (f := 8388608) (State.fhFree_keep (m := 8388608) _ _ rfl (Keep.refl _ _)) rfl
    | with_reducible apply storeWord_wr
    | with_reducible apply Wr.of_keep (f := 8388608) (State.fhUpd_keep (m := 8388608) _ _ rfl (Keep.refl _ _)) rfl
    | with_reducible apply State.fhDiscard_wr
    | with_reducible apply Wr.ite <;> intro _
    | with_reducible apply Wr.foldl <;> try intro _ _ _
    | with_reducible apply Wr.foldl_snd <;> try intro _ _ _
    | with_reducible refine Wr.of_snd ‹_ = (_, _)› ?_
    | with_reducible refine Wr.of_snd2 ‹_ = (_, _, _)› ?_
    | with_reducible apply Wr.of_id
    | split
    | dsimp only

theorem rdFhu_FHU_RET_POP_wr {m : Nat} {s0 : State} (rq : Req) (s : State) (hm : subMask 0x40000000000000000000000000000000000000000000000 m = true) (h : Wr m s0 s) : Wr m s0 (rdFhu .FHU_RET_POP [] rq s).2 := by
  refine Wr.lift (f := 0x40000000000000000000000000000000000000000000000) ?_ hm h
  unfold rdFhu
  repeat' first
    | exact rfl
    | (refine (?_ : _ = true); dsimp only [List.all]; exact rfl)
    | with_reducible exact Wr.refl _ _
    | with_reducible assumption
    | contradiction
    | with_reducible apply Wr.of_keep (f := 8388608) (State.fhUpd_keep (m := 8388608) _ _ rfl (Keep.refl _ _)) rfl
    | with_reducible apply State.setReg_wr
    | with_reducible apply loadWord_wr
    | with_reducible apply Wr.ite <;> intro _
    | with_reducible apply Wr.foldl <;> try intro _ _ _
    | with_reducible apply Wr.foldl_snd <;> try intro _ _ _
    | with_reducible refine Wr.of_snd ‹_ = (_, _)› ?_
    | with_reducible refine Wr.of_snd2 ‹_ = (_, _, _)› ?_
    | with_reducible apply Wr.of_id
    | split
    | dsimp only

theorem execFhFrameReceive_wr (a0 : _) (s : State) {t : State} (h : execFhFrameReceive a0 s = .next t) : Wr 0x4000000000008ffff00000000000000000000000000000000000800000000000 s t := by
  unfold execFhFrameReceive at h
  injection h with h
  subst h
  repeat' first
    | exact rfl
    | (refine (?_ : _ = true); dsimp only [List.all]; exact rfl)
    | with_reducible exact Wr.refl _ _
    | with_reducible assumption
    | with_reducible apply State.inc_wr
    | with_reducible apply State.ingress_wr
    | with_reducible apply State.fhMessages_wr
    | with_reducible apply Wr.of_keep (f := 8388608) (State.fhPrune_keep (m := 8388608) _ rfl (Keep.refl _ _)) rfl
    | with_reducible apply State.incBy_wr
    | with_reducible apply Wr.ite <;> intro _
    | with_reducible apply Wr.foldl <;> try intro _ _ _
    | with_reducible apply Wr.foldl_snd <;> try intro _ _ _
    | with_reducible refine Wr.of_snd ‹_ = (_, _)› ?_
    | with_reducible refine Wr.of_snd2 ‹_ = (_, _, _)› ?_
    | with_reducible apply Wr.of_id
    | split
    | dsimp only

theorem execUlUPlaneSend_wr (a0 : _) (a1 : _) (s : State) {t : State} (h : execUlUPlaneSend a0 a1 s = .next t) : Wr 0x24000000000000000000000000000000000000003000000000000 s t := by
  unfold execUlUPlaneSend at h
  injection h with h
  subst h
  repeat' first
    | exact rfl
    | (refine (?_ : _ = true); dsimp only [List.all]; exact rfl)
    | with_reducible exact Wr.refl _ _
    | with_reducible assumption
    | with_reducible apply Wr.of_keep (f := 8388608) (State.fhUpd_keep (m := 8388608) _ _ rfl (Keep.refl _ _)) rfl
    | with_reducible apply State.inc_wr
    | with_reducible apply Wr.of_keep (f := 1048576) (State.calRxStart_keep (m := 1048576) _ _ rfl (Keep.refl _ _)) rfl
    | with_reducible apply State.beamsHear_wr
    | with_reducible apply Wr.of_keep (f := 8388624) (State.ulMessage_keep (m := 8388624) _ _ _ _ _ rfl (Keep.refl _ _)) rfl
    | with_reducible apply State.incBy_wr
    | with_reducible apply Wr.ite <;> intro _
    | with_reducible apply Wr.foldl <;> try intro _ _ _
    | with_reducible apply Wr.foldl_snd <;> try intro _ _ _
    | with_reducible refine Wr.of_snd ‹_ = (_, _)› ?_
    | with_reducible refine Wr.of_snd2 ‹_ = (_, _, _)› ?_
    | with_reducible apply Wr.of_id
    | split
    | dsimp only

theorem execFhuRetPop_wr (a0 : _) (s : State) {t : State} (h : execFhuRetPop a0 s = .next t) : Wr 0x40000f000000000000000000000000000000000000000000000000000000000000000000000000000040000000000000000000000000000000000000000000000 s t := by
  unfold execFhuRetPop at h
  injection h with h
  subst h
  repeat' first
    | exact rfl
    | (refine (?_ : _ = true); dsimp only [List.all]; exact rfl)
    | with_reducible exact Wr.refl _ _
    | with_reducible assumption
    | with_reducible refine readReg_wr (r0 := .FHU_RET_POP) (show findReg (Reg.addr .FHU_RET_POP []) = some (.FHU_RET_POP, []) by decide +kernel) (fun _ _ => ?_) ?_ ?_
    | with_reducible apply rdFhu_FHU_RET_POP_wr
    | with_reducible apply Wr.ite <;> intro _
    | with_reducible apply Wr.foldl <;> try intro _ _ _
    | with_reducible apply Wr.foldl_snd <;> try intro _ _ _
    | with_reducible refine Wr.of_snd ‹_ = (_, _)› ?_
    | with_reducible refine Wr.of_snd2 ‹_ = (_, _, _)› ?_
    | with_reducible apply Wr.of_id
    | split
    | dsimp only

theorem execFhuRetFree_wr (a0 : _) (a1 : _) (s : State) {t : State} (h : execFhuRetFree a0 a1 s = .next t) : Wr 0x40000f000000000000000000000000000000000000000000000000000000000000000000000000000000000000000000000000000000000000000000000000000 s t := by
  unfold execFhuRetFree at h
  injection h with h
  subst h
  repeat' first
    | exact rfl
    | (refine (?_ : _ = true); dsimp only [List.all]; exact rfl)
    | with_reducible exact Wr.refl _ _
    | with_reducible assumption
    | with_reducible refine writeReg_wr (r0 := .FHU_RET_FREE) (show findReg (Reg.addr .FHU_RET_FREE []) = some (.FHU_RET_FREE, []) by decide +kernel) (fun _ _ => ?_) ?_ ?_
    | with_reducible apply wrFhu_FHU_RET_FREE_wr
    | with_reducible apply Wr.ite <;> intro _
    | with_reducible apply Wr.foldl <;> try intro _ _ _
    | with_reducible apply Wr.foldl_snd <;> try intro _ _ _
    | with_reducible refine Wr.of_snd ‹_ = (_, _)› ?_
    | with_reducible refine Wr.of_snd2 ‹_ = (_, _, _)› ?_
    | with_reducible apply Wr.of_id
    | split
    | dsimp only

theorem State.fhRestack_wr {m : Nat} {s0 : State} (s : State) (a1 : _) (a2 : _) (a3 : _) (a4 : _) (hm : subMask 0x14000000000000000000000000000000000000000000000000000 m = true) (h : Wr m s0 s) : Wr m s0 (State.fhRestack s a1 a2 a3 a4) := by
  refine Wr.lift (f := 0x14000000000000000000000000000000000000000000000000000) ?_ hm h
  unfold State.fhRestack
  repeat' first
    | exact rfl
    | (refine (?_ : _ = true); dsimp only [List.all]; exact rfl)
    | with_reducible exact Wr.refl _ _
    | with_reducible assumption
    | with_reducible apply State.incBy_wr
    | with_reducible apply Wr.of_keep (f := 8388608) (State.fhUpd_keep (m := 8388608) _ _ rfl (Keep.refl _ _)) rfl
    | with_reducible apply Wr.of_keep (f := 272) (State.raise_keep (m := 272) _ _ rfl (Keep.refl _ _)) rfl
    | with_reducible apply Wr.of_keep (f := 8388608) (State.fhFree_keep (m := 8388608) _ _ rfl (Keep.refl _ _)) rfl
    | with_reducible apply State.inc_wr
    | with_reducible apply Wr.ite <;> intro _
    | with_reducible apply Wr.foldl <;> try intro _ _ _
    | with_reducible apply Wr.foldl_snd <;> try intro _ _ _
    | with_reducible refine Wr.of_snd ‹_ = (_, _)› ?_
    | with_reducible refine Wr.of_snd2 ‹_ = (_, _, _)› ?_
    | with_reducible apply Wr.of_id
    | split
    | dsimp only

theorem State.fhGap_wr {m : Nat} {s0 : State} (s : State) (a1 : _) (a2 : _) (a3 : _) (a4 : _) (hm : subMask 0x40080000000000 m = true) (h : Wr m s0 s) : Wr m s0 (State.fhGap s a1 a2 a3 a4) := by
  refine Wr.lift (f := 0x40080000000000) ?_ hm h
  unfold State.fhGap
  repeat' first
    | exact rfl
    | (refine (?_ : _ = true); dsimp only [List.all]; exact rfl)
    | with_reducible exact Wr.refl _ _
    | with_reducible assumption
    | with_reducible apply Wr.of_keep (f := 8388608) (State.fhRequeue_keep (m := 8388608) _ _ _ _ rfl (Keep.refl _ _)) rfl
    | with_reducible apply State.txLeave_wr
    | with_reducible apply Wr.ite <;> intro _
    | with_reducible apply Wr.foldl <;> try intro _ _ _
    | with_reducible apply Wr.foldl_snd <;> try intro _ _ _
    | with_reducible refine Wr.of_snd ‹_ = (_, _)› ?_
    | with_reducible refine Wr.of_snd2 ‹_ = (_, _, _)› ?_
    | with_reducible apply Wr.of_id
    | split
    | dsimp only

end Sys2Proof.Machine
end

