-- ==== Sys2Proof/Laws/WrTxa.lean ====
section
/-! SUPPORT. The registers that each operation of Machine/Txa.lean may change. -/

set_option Elab.async false

namespace Sys2Proof.Machine

theorem State.chBegins_wr {m : Nat} {s0 : State} (s : State) (a1 : _) (hm : subMask 0x3000000000000 m = true) (h : Wr m s0 s) : Wr m s0 (State.chBegins s a1) := by
  refine Wr.lift (f := 0x3000000000000) ?_ hm h
  unfold State.chBegins
  repeat' first
    | exact rfl
    | (refine (?_ : _ = true); dsimp only [List.all]; exact rfl)
    | with_reducible exact Wr.refl _ _
    | with_reducible assumption
    | with_reducible apply State.beamsHear_wr
    | with_reducible apply Wr.of_keep (f := 1048576) (State.calRxStart_keep (m := 1048576) _ _ rfl (Keep.refl _ _)) rfl
    | with_reducible apply Wr.ite <;> intro _
    | with_reducible apply Wr.foldl <;> try intro _ _ _
    | with_reducible apply Wr.foldl_snd <;> try intro _ _ _
    | with_reducible refine Wr.of_snd ‹_ = (_, _)› ?_
    | with_reducible refine Wr.of_snd2 ‹_ = (_, _, _)› ?_
    | with_reducible apply Wr.of_id
    | split
    | dsimp only

theorem State.txaDeclare_wr {m : Nat} {s0 : State} (s : State) (a1 : _) (a2 : _) (hm : subMask 0x28000000000000000000000000000000000000000000000000000000000 m = true) (h : Wr m s0 s) : Wr m s0 (State.txaDeclare s a1 a2) := by
  refine Wr.lift (f := 0x28000000000000000000000000000000000000000000000000000000000) ?_ hm h
  unfold State.txaDeclare
  repeat' first
    | exact rfl
    | (refine (?_ : _ = true); dsimp only [List.all]; exact rfl)
    | with_reducible exact Wr.refl _ _
    | with_reducible assumption
    | with_reducible apply Wr.of_keep (f := 16777216) (State.demodUpd_keep (m := 16777216) _ _ _ rfl (Keep.refl _ _)) rfl
    | with_reducible apply State.inc_wr
    | with_reducible apply Wr.ite <;> intro _
    | with_reducible apply Wr.foldl <;> try intro _ _ _
    | with_reducible apply Wr.foldl_snd <;> try intro _ _ _
    | with_reducible refine Wr.of_snd ‹_ = (_, _)› ?_
    | with_reducible refine Wr.of_snd2 ‹_ = (_, _, _)› ?_
    | with_reducible apply Wr.of_id
    | split
    | dsimp only

theorem State.txaFail_wr {m : Nat} {s0 : State} (s : State) (a1 : _) (hm : subMask 0x8000000000000000000000000000000000000000000000000000000000 m = true) (h : Wr m s0 s) : Wr m s0 (State.txaFail s a1) := by
  refine Wr.lift (f := 0x8000000000000000000000000000000000000000000000000000000000) ?_ hm h
  unfold State.txaFail
  repeat' first
    | exact rfl
    | (refine (?_ : _ = true); dsimp only [List.all]; exact rfl)
    | with_reducible exact Wr.refl _ _
    | with_reducible assumption
    | with_reducible apply State.inc_wr
    | with_reducible apply Wr.of_keep (f := 16777216) (State.demodUpd_keep (m := 16777216) _ _ _ rfl (Keep.refl _ _)) rfl
    | with_reducible apply Wr.ite <;> intro _
    | with_reducible apply Wr.foldl <;> try intro _ _ _
    | with_reducible apply Wr.foldl_snd <;> try intro _ _ _
    | with_reducible refine Wr.of_snd ‹_ = (_, _)› ?_
    | with_reducible refine Wr.of_snd2 ‹_ = (_, _, _)› ?_
    | with_reducible apply Wr.of_id
    | split
    | dsimp only

theorem State.txaAbort_wr {m : Nat} {s0 : State} (s : State) (hm : subMask 0x2000000000000000000000000000000000000000000000000000000000000 m = true) (h : Wr m s0 s) : Wr m s0 (State.txaAbort s) := by
  refine Wr.lift (f := 0x2000000000000000000000000000000000000000000000000000000000000) ?_ hm h
  unfold State.txaAbort
  repeat' first
    | exact rfl
    | (refine (?_ : _ = true); dsimp only [List.all]; exact rfl)
    | with_reducible exact Wr.refl _ _
    | with_reducible assumption
    | with_reducible apply Wr.ite <;> intro _
    | with_reducible apply Wr.foldl <;> try intro _ _ _
    | with_reducible apply Wr.foldl_snd <;> try intro _ _ _
    | with_reducible apply State.inc_wr
    | with_reducible apply Wr.of_keep (f := 16777216) (State.demodIdle_keep (m := 16777216) _ _ rfl (Keep.refl _ _)) rfl
    | with_reducible refine Wr.of_snd ‹_ = (_, _)› ?_
    | with_reducible refine Wr.of_snd2 ‹_ = (_, _, _)› ?_
    | with_reducible apply Wr.of_id
    | split
    | dsimp only

theorem State.txaRoot_wr {m : Nat} {s0 : State} (s : State) (hm : subMask 0x10000000000000000000000000000000000000000000000000000000000000000000000000000000000000000000000000000000000000000000000 m = true) (h : Wr m s0 s) : Wr m s0 (State.txaRoot s).2 := by
  refine Wr.lift (f := 0x10000000000000000000000000000000000000000000000000000000000000000000000000000000000000000000000000000000000000000000000) ?_ hm h
  unfold State.txaRoot
  repeat' first
    | exact rfl
    | (refine (?_ : _ = true); dsimp only [List.all]; exact rfl)
    | with_reducible exact Wr.refl _ _
    | with_reducible assumption
    | with_reducible apply State.useKey_wr
    | with_reducible apply Wr.ite <;> intro _
    | with_reducible apply Wr.foldl <;> try intro _ _ _
    | with_reducible apply Wr.foldl_snd <;> try intro _ _ _
    | with_reducible refine Wr.of_snd ‹_ = (_, _)› ?_
    | with_reducible refine Wr.of_snd2 ‹_ = (_, _, _)› ?_
    | with_reducible apply Wr.of_id
    | split
    | dsimp only

theorem State.txaPush_wr {m : Nat} {s0 : State} (s : State) (a1 : _) (hm : subMask 0xf000000000000000000000000000000000000000000000000000000000000000000000000000000000000000000000000000000000000000000000000000 m = true) (h : Wr m s0 s) : Wr m s0 (State.txaPush s a1) := by
  refine Wr.lift (f := 0xf000000000000000000000000000000000000000000000000000000000000000000000000000000000000000000000000000000000000000000000000000) ?_ hm h
  unfold State.txaPush
  repeat' first
    | exact rfl
    | (refine (?_ : _ = true); dsimp only [List.all]; exact rfl)
    | with_reducible exact Wr.refl _ _
    | with_reducible assumption
    | with_reducible apply Wr.of_keep (f := 16777488) (State.txaCpl_keep (m := 16777488) _ _ rfl (Keep.refl _ _)) rfl
    | with_reducible apply State.capture_wr
    | with_reducible apply Wr.of_keep (f := 16777488) (State.txaFlush_keep (m := 16777488) _ _ _ rfl (Keep.refl _ _)) rfl
    | with_reducible apply Wr.of_keep (f := 16777216) (State.txaUpd_keep (m := 16777216) _ _ rfl (Keep.refl _ _)) rfl
    | with_reducible apply Wr.ite <;> intro _
    | with_reducible apply Wr.foldl <;> try intro _ _ _
    | with_reducible apply Wr.foldl_snd <;> try intro _ _ _
    | with_reducible refine Wr.of_snd ‹_ = (_, _)› ?_
    | with_reducible refine Wr.of_snd2 ‹_ = (_, _, _)› ?_
    | with_reducible apply Wr.of_id
    | split
    | dsimp only

theorem State.dlFail_wr {m : Nat} {s0 : State} (s : State) (a1 : _) (a2 : _) (hm : subMask 0x8000000000000000000000000000000000000000000000000000000000000 m = true) (h : Wr m s0 s) : Wr m s0 (State.dlFail s a1 a2) := by
  refine Wr.lift (f := 0x8000000000000000000000000000000000000000000000000000000000000) ?_ hm h
  unfold State.dlFail
  repeat' first
    | exact rfl
    | (refine (?_ : _ = true); dsimp only [List.all]; exact rfl)
    | with_reducible exact Wr.refl _ _
    | with_reducible assumption
    | with_reducible apply State.inc_wr
    | with_reducible apply Wr.of_keep (f := 16777216) (State.txaUpd_keep (m := 16777216) _ _ rfl (Keep.refl _ _)) rfl
    | with_reducible apply Wr.of_keep (f := 16777488) (State.txaComplete_keep (m := 16777488) _ _ _ _ rfl (Keep.refl _ _)) rfl
    | with_reducible apply Wr.ite <;> intro _
    | with_reducible apply Wr.foldl <;> try intro _ _ _
    | with_reducible apply Wr.foldl_snd <;> try intro _ _ _
    | with_reducible refine Wr.of_snd ‹_ = (_, _)› ?_
    | with_reducible refine Wr.of_snd2 ‹_ = (_, _, _)› ?_
    | with_reducible apply Wr.of_id
    | split
    | dsimp only

theorem State.dlNext_wr {m : Nat} {s0 : State} (s : State) (a1 : _) (a2 : _) (hm : subMask 0x8000000000000000000000000000000000000000000000000000000000000 m = true) (h : Wr m s0 s) : Wr m s0 (State.dlNext s a1 a2) := by
  refine Wr.lift (f := 0x8000000000000000000000000000000000000000000000000000000000000) ?_ hm h
  unfold State.dlNext
  repeat' first
    | exact rfl
    | (refine (?_ : _ = true); dsimp only [List.all]; exact rfl)
    | with_reducible exact Wr.refl _ _
    | with_reducible assumption
    | with_reducible apply Wr.of_keep (f := 16777216) (State.txaUpd_keep (m := 16777216) _ _ rfl (Keep.refl _ _)) rfl
    | with_reducible apply State.dlFail_wr
    | with_reducible apply Wr.ite <;> intro _
    | with_reducible apply Wr.foldl <;> try intro _ _ _
    | with_reducible apply Wr.foldl_snd <;> try intro _ _ _
    | with_reducible refine Wr.of_snd ‹_ = (_, _)› ?_
    | with_reducible refine Wr.of_snd2 ‹_ = (_, _, _)› ?_
    | with_reducible apply Wr.of_id
    | split
    | dsimp only

theorem State.dlSchedule_wr {m : Nat} {s0 : State} (s : State) (a1 : _) (a2 : _) (a3 : _) (a4 : _) (a5 : _) (a6 : _) (hm : subMask 0x8000000000000000000000000000000000000000000000000000000000000 m = true) (h : Wr m s0 s) : Wr m s0 (State.dlSchedule s a1 a2 a3 a4 a5 a6) := by
  refine Wr.lift (f := 0x8000000000000000000000000000000000000000000000000000000000000) ?_ hm h
  unfold State.dlSchedule
  repeat' first
    | exact rfl
    | (refine (?_ : _ = true); dsimp only [List.all]; exact rfl)
    | with_reducible exact Wr.refl _ _
    | with_reducible assumption
    | with_reducible apply Wr.of_keep (f := 16777216) (State.txaUpd_keep (m := 16777216) _ _ rfl (Keep.refl _ _)) rfl
    | with_reducible apply State.dlNext_wr
    | with_reducible apply Wr.ite <;> intro _
    | with_reducible apply Wr.foldl <;> try intro _ _ _
    | with_reducible apply Wr.foldl_snd <;> try intro _ _ _
    | with_reducible refine Wr.of_snd ‹_ = (_, _)› ?_
    | with_reducible refine Wr.of_snd2 ‹_ = (_, _, _)› ?_
    | with_reducible apply Wr.of_id
    | split
    | dsimp only

theorem State.dlDone_wr {m : Nat} {s0 : State} (s : State) (a1 : _) (a2 : _) (hm : subMask 0xc000000000000000000000000000000000000000000000000000000000000 m = true) (h : Wr m s0 s) : Wr m s0 (State.dlDone s a1 a2) := by
  refine Wr.lift (f := 0xc000000000000000000000000000000000000000000000000000000000000) ?_ hm h
  unfold State.dlDone
  repeat' first
    | exact rfl
    | (refine (?_ : _ = true); dsimp only [List.all]; exact rfl)
    | with_reducible exact Wr.refl _ _
    | with_reducible assumption
    | with_reducible apply State.inc_wr
    | with_reducible apply Wr.of_keep (f := 16777216) (State.txaUpd_keep (m := 16777216) _ _ rfl (Keep.refl _ _)) rfl
    | with_reducible apply Wr.of_keep (f := 16777488) (State.txaComplete_keep (m := 16777488) _ _ _ _ rfl (Keep.refl _ _)) rfl
    | with_reducible apply State.dlFail_wr
    | with_reducible apply State.dlNext_wr
    | with_reducible apply Wr.ite <;> intro _
    | with_reducible apply Wr.foldl <;> try intro _ _ _
    | with_reducible apply Wr.foldl_snd <;> try intro _ _ _
    | with_reducible refine Wr.of_snd ‹_ = (_, _)› ?_
    | with_reducible refine Wr.of_snd2 ‹_ = (_, _, _)› ?_
    | with_reducible apply Wr.of_id
    | split
    | dsimp only

theorem State.dlCut_wr {m : Nat} {s0 : State} (s : State) (a1 : _) (hm : subMask 0x10000000000000000000000000000000000000000000000000000000000000 m = true) (h : Wr m s0 s) : Wr m s0 (State.dlCut s a1) := by
  refine Wr.lift (f := 0x10000000000000000000000000000000000000000000000000000000000000) ?_ hm h
  unfold State.dlCut
  repeat' first
    | exact rfl
    | (refine (?_ : _ = true); dsimp only [List.all]; exact rfl)
    | with_reducible exact Wr.refl _ _
    | with_reducible assumption
    | with_reducible apply State.inc_wr
    | with_reducible apply Wr.of_keep (f := 16777216) (State.txaUpd_keep (m := 16777216) _ _ rfl (Keep.refl _ _)) rfl
    | with_reducible apply Wr.of_keep (f := 16777488) (State.txaComplete_keep (m := 16777488) _ _ _ _ rfl (Keep.refl _ _)) rfl
    | with_reducible apply Wr.ite <;> intro _
    | with_reducible apply Wr.foldl <;> try intro _ _ _
    | with_reducible apply Wr.foldl_snd <;> try intro _ _ _
    | with_reducible refine Wr.of_snd ‹_ = (_, _)› ?_
    | with_reducible refine Wr.of_snd2 ‹_ = (_, _, _)› ?_
    | with_reducible apply Wr.of_id
    | split
    | dsimp only

theorem State.txaDeliver_wr {m : Nat} {s0 : State} (s : State) (a1 : _) (a2 : _) (a3 : _) (a4 : _) (a5 : _) (a6 : _) (a7 : _) (a8 : _) (hm : subMask 0x4080000000000000000000000000000000000000000000000000000000 m = true) (h : Wr m s0 s) : Wr m s0 (State.txaDeliver s a1 a2 a3 a4 a5 a6 a7 a8) := by
  refine Wr.lift (f := 0x4080000000000000000000000000000000000000000000000000000000) ?_ hm h
  unfold State.txaDeliver
  extract_lets enc status n was s1 s2
  have hs1 : Wr 0x4080000000000000000000000000000000000000000000000000000000 s s1 := Wr.of_keep (f := 65600) (State.memPut_keep (m := 65600) _ _ _ rfl (Keep.refl _ _)) rfl (Wr.refl _ _)
  clear_value s1
  have hs2 : Wr 0x4080000000000000000000000000000000000000000000000000000000 s s2 := State.inc_wr _ _ _ rfl rfl (State.set_wr _ _ _ _ _ rfl rfl (hs1))
  clear_value s2
  exact Wr.ite (fun _ => Wr.of_keep (f := 272) (State.raise_keep (m := 272) _ _ rfl (Keep.refl _ _)) rfl (hs2)) (fun _ => hs2)

theorem State.txaDrop_wr {m : Nat} {s0 : State} (s : State) (hm : subMask 0x1000000000000000000000000000000000000000000000000000000000000 m = true) (h : Wr m s0 s) : Wr m s0 (State.txaDrop s) := by
  refine Wr.lift (f := 0x1000000000000000000000000000000000000000000000000000000000000) ?_ hm h
  unfold State.txaDrop
  repeat' first
    | exact rfl
    | (refine (?_ : _ = true); dsimp only [List.all]; exact rfl)
    | with_reducible exact Wr.refl _ _
    | with_reducible assumption
    | with_reducible apply Wr.of_keep (f := 16777216) (State.txaUpd_keep (m := 16777216) _ _ rfl (Keep.refl _ _)) rfl
    | with_reducible apply State.inc_wr
    | with_reducible apply Wr.of_keep (f := 272) (State.raise_keep (m := 272) _ _ rfl (Keep.refl _ _)) rfl
    | with_reducible apply Wr.ite <;> intro _
    | with_reducible apply Wr.foldl <;> try intro _ _ _
    | with_reducible apply Wr.foldl_snd <;> try intro _ _ _
    | with_reducible refine Wr.of_snd ‹_ = (_, _)› ?_
    | with_reducible refine Wr.of_snd2 ‹_ = (_, _, _)› ?_
    | with_reducible apply Wr.of_id
    | split
    | dsimp only

theorem State.txaCheck_wr {m : Nat} {s0 : State} (s : State) (a1 : _) (a2 : _) (a3 : _) (a4 : _) (a5 : _) (a6 : _) (a7 : _) (a8 : _) (hm : subMask 0xf000010000000000000000000000000000000000000000000000000000000009f84080000000000000000000000000000000000000000000000000000000 m = true) (h : Wr m s0 s) : Wr m s0 (State.txaCheck s a1 a2 a3 a4 a5 a6 a7 a8) := by
  refine Wr.lift (f := 0xf000010000000000000000000000000000000000000000000000000000000009f84080000000000000000000000000000000000000000000000000000000) ?_ hm h
  unfold State.txaCheck
  repeat' first
    | exact rfl
    | (refine (?_ : _ = true); dsimp only [List.all]; exact rfl)
    | with_reducible exact Wr.refl _ _
    | with_reducible assumption
    | with_reducible apply Wr.ite <;> intro _
    | with_reducible apply Wr.foldl <;> try intro _ _ _
    | with_reducible apply Wr.foldl_snd <;> try intro _ _ _
    | with_reducible apply State.inc_wr
    | with_reducible apply State.txaDrop_wr
    | with_reducible apply State.txaRoot_wr
    | with_reducible apply Wr.of_keep (f := 16777488) (State.txaMark_keep (m := 16777488) _ _ rfl (Keep.refl _ _)) rfl
    | with_reducible apply State.capture_wr
    | with_reducible apply Wr.of_keep (f := 16777216) (State.txaUpd_keep (m := 16777216) _ _ rfl (Keep.refl _ _)) rfl
    | with_reducible apply Wr.of_keep (f := 16777216) (State.txaCfo_keep (m := 16777216) _ _ rfl (Keep.refl _ _)) rfl
    | with_reducible apply State.txaDeliver_wr
    | with_reducible apply State.dlSchedule_wr
    | with_reducible refine Wr.of_snd ‹_ = (_, _)› ?_
    | with_reducible refine Wr.of_snd2 ‹_ = (_, _, _)› ?_
    | with_reducible apply Wr.of_id
    | split
    | dsimp only

theorem State.txaWriteFine_wr {m : Nat} {s0 : State} (s : State) (a1 : _) (hm : subMask 0x2000000000000000000000000000000000000000000000000080000 m = true) (h : Wr m s0 s) : Wr m s0 (State.txaWriteFine s a1) := by
  refine Wr.lift (f := 0x2000000000000000000000000000000000000000000000000080000) ?_ hm h
  unfold State.txaWriteFine
  repeat' first
    | exact rfl
    | (refine (?_ : _ = true); dsimp only [List.all]; exact rfl)
    | with_reducible exact Wr.refl _ _
    | with_reducible assumption
    | with_reducible apply State.set_wr
    | with_reducible apply Wr.ite <;> intro _
    | with_reducible apply Wr.foldl <;> try intro _ _ _
    | with_reducible apply Wr.foldl_snd <;> try intro _ _ _
    | with_reducible refine Wr.of_snd ‹_ = (_, _)› ?_
    | with_reducible refine Wr.of_snd2 ‹_ = (_, _, _)› ?_
    | with_reducible apply Wr.of_id
    | split
    | dsimp only

theorem State.txaCorrect_wr {m : Nat} {s0 : State} (s : State) (a1 : _) (hm : subMask 0x2000000000000000000000000000000000000000000000000080000 m = true) (h : Wr m s0 s) : Wr m s0 (State.txaCorrect s a1) := by
  refine Wr.lift (f := 0x2000000000000000000000000000000000000000000000000080000) ?_ hm h
  unfold State.txaCorrect
  repeat' first
    | exact rfl
    | (refine (?_ : _ = true); dsimp only [List.all]; exact rfl)
    | with_reducible exact Wr.refl _ _
    | with_reducible assumption
    | with_reducible apply State.sets_wr
    | with_reducible apply Wr.of_keep (f := 16777216) (State.txaUpd_keep (m := 16777216) _ _ rfl (Keep.refl _ _)) rfl
    | with_reducible apply Wr.of_keep (f := 272) (State.raise_keep (m := 272) _ _ rfl (Keep.refl _ _)) rfl
    | with_reducible apply State.set_wr
    | with_reducible apply State.txaWriteFine_wr
    | with_reducible apply Wr.ite <;> intro _
    | with_reducible apply Wr.foldl <;> try intro _ _ _
    | with_reducible apply Wr.foldl_snd <;> try intro _ _ _
    | with_reducible refine Wr.of_snd ‹_ = (_, _)› ?_
    | with_reducible refine Wr.of_snd2 ‹_ = (_, _, _)› ?_
    | with_reducible apply Wr.of_id
    | split
    | dsimp only

theorem State.txaRestackEnd_wr {m : Nat} {s0 : State} (s : State) (hm : subMask 0x2000000000000000000000000000000000000000000000000080000 m = true) (h : Wr m s0 s) : Wr m s0 (State.txaRestackEnd s) := by
  refine Wr.lift (f := 0x2000000000000000000000000000000000000000000000000080000) ?_ hm h
  unfold State.txaRestackEnd
  repeat' first
    | exact rfl
    | (refine (?_ : _ = true); dsimp only [List.all]; exact rfl)
    | with_reducible exact Wr.refl _ _
    | with_reducible assumption
    | with_reducible apply State.set_wr
    | with_reducible apply State.txaWriteFine_wr
    | with_reducible apply Wr.ite <;> intro _
    | with_reducible apply Wr.foldl <;> try intro _ _ _
    | with_reducible apply Wr.foldl_snd <;> try intro _ _ _
    | with_reducible refine Wr.of_snd ‹_ = (_, _)› ?_
    | with_reducible refine Wr.of_snd2 ‹_ = (_, _, _)› ?_
    | with_reducible apply Wr.of_id
    | split
    | dsimp only

theorem txaWr_wr {m : Nat} {s0 : State} (a0 : _) (a1 : _) (s : State) (hm : subMask 0xf000000000000000000000000000000000000000000000000000000000000000000000000000000000000000000000000000000000000000000000000000 m = true) (h : Wr m s0 s) : Wr m s0 (txaWr a0 a1 s) := by
  refine Wr.lift (f := 0xf000000000000000000000000000000000000000000000000000000000000000000000000000000000000000000000000000000000000000000000000000) ?_ hm h
  unfold txaWr
  repeat' first
    | exact rfl
    | (refine (?_ : _ = true); dsimp only [List.all]; exact rfl)
    | with_reducible exact Wr.refl _ _
    | with_reducible assumption
    | with_reducible apply State.txaPush_wr
    | with_reducible apply Wr.ite <;> intro _
    | with_reducible apply Wr.foldl <;> try intro _ _ _
    | with_reducible apply Wr.foldl_snd <;> try intro _ _ _
    | with_reducible refine Wr.of_snd ‹_ = (_, _)› ?_
    | with_reducible refine Wr.of_snd2 ‹_ = (_, _, _)› ?_
    | with_reducible apply Wr.of_id
    | split
    | dsimp only

theorem State.txaDrain_wr {m : Nat} {s0 : State} (a0 : _) (s : State) (hm : subMask 0xf000000000000000000000000000000000000000000000000000000000000000000000000000000000000000000000000000000000000000000000000000 m = true) (h : Wr m s0 s) : Wr m s0 (State.txaDrain a0 s) := by
  induction a0 generalizing s with
  | zero => unfold State.txaDrain; exact h
  | succ n ih =>
    unfold State.txaDrain
    repeat' first
      | exact rfl
      | (refine (?_ : _ = true); dsimp only [List.all]; exact rfl)
      | exact subMask_trans rfl hm
      | with_reducible apply ih
      | with_reducible exact Wr.refl _ _
      | with_reducible assumption
      | with_reducible apply Wr.ite <;> intro _
      | with_reducible apply Wr.foldl <;> try intro _ _ _
      | with_reducible apply Wr.foldl_snd <;> try intro _ _ _
      | with_reducible refine State.unhold_wr _ _ _ (fun _ _ _ _ => ?_) ?_
      | with_reducible apply txaWr_wr
      | with_reducible refine Wr.of_snd ‹_ = (_, _)› ?_
      | with_reducible refine Wr.of_snd2 ‹_ = (_, _, _)› ?_
      | with_reducible apply Wr.of_id
      | split
      | dsimp only

theorem wrTxa_TXA_CTR_DATA_wr {m : Nat} {s0 : State} (v : Word) (rq : Req) (s : State) (hm : subMask 0 m = true) (h : Wr m s0 s) : Wr m s0 (wrTxa .TXA_CTR_DATA [] v rq s) := by
  refine Wr.lift (f := 0) ?_ hm h
  unfold wrTxa
  repeat' first
    | exact rfl
    | (refine (?_ : _ = true); dsimp only [List.all]; exact rfl)
    | with_reducible exact Wr.refl _ _
    | with_reducible assumption
    | contradiction
    | with_reducible apply State.txaPush_wr
    | with_reducible apply Wr.of_keep (f := 16777216) (State.txaUpd_keep (m := 16777216) _ _ rfl (Keep.refl _ _)) rfl
    | with_reducible apply storeWord_wr
    | with_reducible apply Wr.of_keep (f := 16777216) (State.txaIdle_keep (m := 16777216) _ rfl (Keep.refl _ _)) rfl
    | with_reducible apply Wr.of_keep (f := 16777216) (State.demodUpd_keep (m := 16777216) _ _ _ rfl (Keep.refl _ _)) rfl
    | with_reducible apply Wr.ite <;> intro _
    | with_reducible apply Wr.foldl <;> try intro _ _ _
    | with_reducible apply Wr.foldl_snd <;> try intro _ _ _
    | with_reducible refine Wr.of_snd ‹_ = (_, _)› ?_
    | with_reducible refine Wr.of_snd2 ‹_ = (_, _, _)› ?_
    | with_reducible apply Wr.of_id
    | split
    | dsimp only

theorem wrTxa_TXA_DL_PUSH_wr {m : Nat} {s0 : State} (v : Word) (rq : Req) (s : State) (hm : subMask 0xf000000000000000000000000000000000000000000000000000000000000000000000000000000000000000000000000000000000000000000000000000 m = true) (h : Wr m s0 s) : Wr m s0 (wrTxa .TXA_DL_PUSH [] v rq s) := by
  refine Wr.lift (f := 0xf000000000000000000000000000000000000000000000000000000000000000000000000000000000000000000000000000000000000000000000000000) ?_ hm h
  unfold wrTxa
  repeat' first
    | exact rfl
    | (refine (?_ : _ = true); dsimp only [List.all]; exact rfl)
    | with_reducible exact Wr.refl _ _
    | with_reducible assumption
    | contradiction
    | with_reducible apply State.txaPush_wr
    | with_reducible apply Wr.of_keep (f := 16777216) (State.txaUpd_keep (m := 16777216) _ _ rfl (Keep.refl _ _)) rfl
    | with_reducible apply storeWord_wr
    | with_reducible apply Wr.of_keep (f := 16777216) (State.txaIdle_keep (m := 16777216) _ rfl (Keep.refl _ _)) rfl
    | with_reducible apply Wr.of_keep (f := 16777216) (State.demodUpd_keep (m := 16777216) _ _ _ rfl (Keep.refl _ _)) rfl
    | with_reducible apply Wr.ite <;> intro _
    | with_reducible apply Wr.foldl <;> try intro _ _ _
    | with_reducible apply Wr.foldl_snd <;> try intro _ _ _
    | with_reducible refine Wr.of_snd ‹_ = (_, _)› ?_
    | with_reducible refine Wr.of_snd2 ‹_ = (_, _, _)› ?_
    | with_reducible apply Wr.of_id
    | split
    | dsimp only

theorem State.txaPop_wr {m : Nat} {s0 : State} (s : State) (hm : subMask 0x800000000000000000000000000000000000000000000000000000000 m = true) (h : Wr m s0 s) : Wr m s0 (State.txaPop s).2 := by
  refine Wr.lift (f := 0x800000000000000000000000000000000000000000000000000000000) ?_ hm h
  unfold State.txaPop
  repeat' first
    | exact rfl
    | (refine (?_ : _ = true); dsimp only [List.all]; exact rfl)
    | with_reducible exact Wr.refl _ _
    | with_reducible assumption
    | with_reducible apply State.setReg_wr
    | with_reducible apply Wr.of_keep (f := 16777216) (State.txaUpd_keep (m := 16777216) _ _ rfl (Keep.refl _ _)) rfl
    | with_reducible apply Wr.ite <;> intro _
    | with_reducible apply Wr.foldl <;> try intro _ _ _
    | with_reducible apply Wr.foldl_snd <;> try intro _ _ _
    | with_reducible refine Wr.of_snd ‹_ = (_, _)› ?_
    | with_reducible refine Wr.of_snd2 ‹_ = (_, _, _)› ?_
    | with_reducible apply Wr.of_id
    | split
    | dsimp only

theorem rdTxa_TXA_DL_CPL_POP_wr {m : Nat} {s0 : State} (rq : Req) (s : State) (hm : subMask 0x800000000000000000000000000000000000000000000000000000000 m = true) (h : Wr m s0 s) : Wr m s0 (rdTxa .TXA_DL_CPL_POP [] rq s).2 := by
  refine Wr.lift (f := 0x800000000000000000000000000000000000000000000000000000000) ?_ hm h
  unfold rdTxa
  repeat' first
    | exact rfl
    | (refine (?_ : _ = true); dsimp only [List.all]; exact rfl)
    | with_reducible exact Wr.refl _ _
    | with_reducible assumption
    | contradiction
    | with_reducible apply State.txaPop_wr
    | with_reducible apply loadWord_wr
    | with_reducible apply Wr.ite <;> intro _
    | with_reducible apply Wr.foldl <;> try intro _ _ _
    | with_reducible apply Wr.foldl_snd <;> try intro _ _ _
    | with_reducible refine Wr.of_snd ‹_ = (_, _)› ?_
    | with_reducible refine Wr.of_snd2 ‹_ = (_, _, _)› ?_
    | with_reducible apply Wr.of_id
    | split
    | dsimp only

theorem execLrcPreambleDetect_wr (a0 : _) (a1 : _) (a2 : _) (a3 : _) (s : State) {t : State} (h : execLrcPreambleDetect a0 a1 a2 a3 s = .next t) : Wr 0x28000000000000000000000000000000000000000000003000000000000 s t := by
  unfold execLrcPreambleDetect at h
  injection h with h
  subst h
  repeat' first
    | exact rfl
    | (refine (?_ : _ = true); dsimp only [List.all]; exact rfl)
    | with_reducible exact Wr.refl _ _
    | with_reducible assumption
    | with_reducible apply State.txaDeclare_wr
    | with_reducible apply State.chBegins_wr
    | with_reducible apply Wr.ite <;> intro _
    | with_reducible apply Wr.foldl <;> try intro _ _ _
    | with_reducible apply Wr.foldl_snd <;> try intro _ _ _
    | with_reducible refine Wr.of_snd ‹_ = (_, _)› ?_
    | with_reducible refine Wr.of_snd2 ‹_ = (_, _, _)› ?_
    | with_reducible apply Wr.of_id
    | split
    | dsimp only

theorem execLrcHeader_wr (a0 : _) (a1 : _) (a2 : _) (a3 : _) (a4 : _) (s : State) {t : State} (h : execLrcHeader a0 a1 a2 a3 a4 s = .next t) : Wr 0x58000000000000000000000000000000000000000000000000000000000 s t := by
  unfold execLrcHeader at h
  injection h with h
  subst h
  repeat' first
    | exact rfl
    | (refine (?_ : _ = true); dsimp only [List.all]; exact rfl)
    | with_reducible exact Wr.refl _ _
    | with_reducible assumption
    | with_reducible apply State.txaFail_wr
    | with_reducible apply State.inc_wr
    | with_reducible apply Wr.of_keep (f := 16777216) (State.demodUpd_keep (m := 16777216) _ _ _ rfl (Keep.refl _ _)) rfl
    | with_reducible apply Wr.ite <;> intro _
    | with_reducible apply Wr.foldl <;> try intro _ _ _
    | with_reducible apply Wr.foldl_snd <;> try intro _ _ _
    | with_reducible refine Wr.of_snd ‹_ = (_, _)› ?_
    | with_reducible refine Wr.of_snd2 ‹_ = (_, _, _)› ?_
    | with_reducible apply Wr.of_id
    | split
    | dsimp only

theorem execLrcCapture_wr (a0 : _) (a1 : _) (a2 : _) (a3 : _) (s : State) {t : State} (h : execLrcCapture a0 a1 a2 a3 s = .next t) : Wr 0x28000000000000000000000000000000000000000000003000000000000 s t := by
  unfold execLrcCapture at h
  injection h with h
  subst h
  repeat' first
    | exact rfl
    | (refine (?_ : _ = true); dsimp only [List.all]; exact rfl)
    | with_reducible exact Wr.refl _ _
    | with_reducible assumption
    | with_reducible apply State.txaDeclare_wr
    | with_reducible apply State.chBegins_wr
    | with_reducible apply Wr.ite <;> intro _
    | with_reducible apply Wr.foldl <;> try intro _ _ _
    | with_reducible apply Wr.foldl_snd <;> try intro _ _ _
    | with_reducible refine Wr.of_snd ‹_ = (_, _)› ?_
    | with_reducible refine Wr.of_snd2 ‹_ = (_, _, _)› ?_
    | with_reducible apply Wr.of_id
    | split
    | dsimp only

theorem execLrcFrameEnd_wr (a0 : _) (a1 : _) (a2 : _) (a3 : _) (a4 : _) (a5 : _) (a6 : _) (s : State) {t : State} (h : execLrcFrameEnd a0 a1 a2 a3 a4 a5 a6 s = .next t) : Wr 0xf000010000000000000000000000000000000000000000000000000000000009f84080000000000000000000000000000000000000000000000000000000 s t := by
  unfold execLrcFrameEnd at h
  injection h with h
  subst h
  repeat' first
    | exact rfl
    | (refine (?_ : _ = true); dsimp only [List.all]; exact rfl)
    | with_reducible exact Wr.refl _ _
    | with_reducible assumption
    | with_reducible apply Wr.of_keep (f := 16777216) (State.demodIdle_keep (m := 16777216) _ _ rfl (Keep.refl _ _)) rfl
    | with_reducible apply State.txaDrain_wr
    | with_reducible apply State.txaCheck_wr
    | with_reducible apply Wr.ite <;> intro _
    | with_reducible apply Wr.foldl <;> try intro _ _ _
    | with_reducible apply Wr.foldl_snd <;> try intro _ _ _
    | with_reducible refine Wr.of_snd ‹_ = (_, _)› ?_
    | with_reducible refine Wr.of_snd2 ‹_ = (_, _, _)› ?_
    | with_reducible apply Wr.of_id
    | split
    | dsimp only

theorem execTxaDlPush_wr (a0 : _) (a1 : _) (s : State) {t : State} (h : execTxaDlPush a0 a1 s = .next t) : Wr 0x40000f000000000000000000000000000000000000000000000000000000000000000000000000000000000000000000000000000000000000000000000000000 s t := by
  unfold execTxaDlPush at h
  injection h with h
  subst h
  repeat' first
    | exact rfl
    | (refine (?_ : _ = true); dsimp only [List.all]; exact rfl)
    | with_reducible exact Wr.refl _ _
    | with_reducible assumption
    | with_reducible refine writeOrHold_wr (r0 := .TXA_DL_PUSH) (show findReg (Reg.addr .TXA_DL_PUSH []) = some (.TXA_DL_PUSH, []) by decide +kernel) (fun _ _ => ?_) ?_ ?_
    | with_reducible apply wrTxa_TXA_DL_PUSH_wr
    | with_reducible apply Wr.ite <;> intro _
    | with_reducible apply Wr.foldl <;> try intro _ _ _
    | with_reducible apply Wr.foldl_snd <;> try intro _ _ _
    | with_reducible refine Wr.of_snd ‹_ = (_, _)› ?_
    | with_reducible refine Wr.of_snd2 ‹_ = (_, _, _)› ?_
    | with_reducible apply Wr.of_id
    | split
    | dsimp only

theorem execTxaDlCplPop_wr (a0 : _) (s : State) {t : State} (h : execTxaDlCplPop a0 s = .next t) : Wr 0x40000f000000000000000000000000000000000000000000000000000000000000000000800000000000000000000000000000000000000000000000000000000 s t := by
  unfold execTxaDlCplPop at h
  injection h with h
  subst h
  repeat' first
    | exact rfl
    | (refine (?_ : _ = true); dsimp only [List.all]; exact rfl)
    | with_reducible exact Wr.refl _ _
    | with_reducible assumption
    | with_reducible refine readReg_wr (r0 := .TXA_DL_CPL_POP) (show findReg (Reg.addr .TXA_DL_CPL_POP []) = some (.TXA_DL_CPL_POP, []) by decide +kernel) (fun _ _ => ?_) ?_ ?_
    | with_reducible apply rdTxa_TXA_DL_CPL_POP_wr
    | with_reducible apply Wr.ite <;> intro _
    | with_reducible apply Wr.foldl <;> try intro _ _ _
    | with_reducible apply Wr.foldl_snd <;> try intro _ _ _
    | with_reducible refine Wr.of_snd ‹_ = (_, _)› ?_
    | with_reducible refine Wr.of_snd2 ‹_ = (_, _, _)› ?_
    | with_reducible apply Wr.of_id
    | split
    | dsimp only

theorem execTxaDlExpired_wr (a0 : _) (s : State) {t : State} (h : execTxaDlExpired a0 s = .next t) : Wr 0xf000000000000000000000000000000000000000000000000000000000000000000000000000000000000000000000000000000000000000000000000000 s t := by
  unfold execTxaDlExpired at h
  injection h with h
  subst h
  repeat' first
    | exact rfl
    | (refine (?_ : _ = true); dsimp only [List.all]; exact rfl)
    | with_reducible exact Wr.refl _ _
    | with_reducible assumption
    | with_reducible apply State.txaDrain_wr
    | with_reducible apply Wr.of_keep (f := 16777488) (State.txaComplete_keep (m := 16777488) _ _ _ _ rfl (Keep.refl _ _)) rfl
    | with_reducible apply Wr.ite <;> intro _
    | with_reducible apply Wr.foldl <;> try intro _ _ _
    | with_reducible apply Wr.foldl_snd <;> try intro _ _ _
    | with_reducible refine Wr.of_snd ‹_ = (_, _)› ?_
    | with_reducible refine Wr.of_snd2 ‹_ = (_, _, _)› ?_
    | with_reducible apply Wr.of_id
    | split
    | dsimp only

theorem execTxaCtrData_wr (a0 : _) (a1 : _) (s : State) {t : State} (h : execTxaCtrData a0 a1 s = .next t) : Wr 0x40000f000000000000000000000000000000000000000000000000000000000000000000000000000000000000000000000000000000000000000000000000000 s t := by
  unfold execTxaCtrData at h
  injection h with h
  subst h
  repeat' first
    | exact rfl
    | (refine (?_ : _ = true); dsimp only [List.all]; exact rfl)
    | with_reducible exact Wr.refl _ _
    | with_reducible assumption
    | with_reducible refine writeReg_wr (r0 := .TXA_CTR_DATA) (show findReg (Reg.addr .TXA_CTR_DATA []) = some (.TXA_CTR_DATA, []) by decide +kernel) (fun _ _ => ?_) ?_ ?_
    | with_reducible apply wrTxa_TXA_CTR_DATA_wr
    | with_reducible apply Wr.ite <;> intro _
    | with_reducible apply Wr.foldl <;> try intro _ _ _
    | with_reducible apply Wr.foldl_snd <;> try intro _ _ _
    | with_reducible refine Wr.of_snd ‹_ = (_, _)› ?_
    | with_reducible refine Wr.of_snd2 ‹_ = (_, _, _)› ?_
    | with_reducible apply Wr.of_id
    | split
    | dsimp only

theorem execOffsetFeedbackWrite_wr (s : State) {t : State} (h : execOffsetFeedbackWrite s = .next t) : Wr 0x2000000000000000000000000000000000000000000000000080000 s t := by
  unfold execOffsetFeedbackWrite at h
  injection h with h
  subst h
  repeat' first
    | exact rfl
    | (refine (?_ : _ = true); dsimp only [List.all]; exact rfl)
    | with_reducible exact Wr.refl _ _
    | with_reducible assumption
    | with_reducible apply State.txaCorrect_wr
    | with_reducible apply Wr.ite <;> intro _
    | with_reducible apply Wr.foldl <;> try intro _ _ _
    | with_reducible apply Wr.foldl_snd <;> try intro _ _ _
    | with_reducible refine Wr.of_snd ‹_ = (_, _)› ?_
    | with_reducible refine Wr.of_snd2 ‹_ = (_, _, _)› ?_
    | with_reducible apply Wr.of_id
    | split
    | dsimp only

theorem execFbDefer_wr (s : State) {t : State} (h : execFbDefer s = .next t) : Wr 0x20000002000000000000000000000000000000000000000000000000080000 s t := by
  unfold execFbDefer at h
  injection h with h
  subst h
  repeat' first
    | exact rfl
    | (refine (?_ : _ = true); dsimp only [List.all]; exact rfl)
    | with_reducible exact Wr.refl _ _
    | with_reducible assumption
    | with_reducible apply State.inc_wr
    | with_reducible apply State.txaCorrect_wr
    | with_reducible apply Wr.ite <;> intro _
    | with_reducible apply Wr.foldl <;> try intro _ _ _
    | with_reducible apply Wr.foldl_snd <;> try intro _ _ _
    | with_reducible refine Wr.of_snd ‹_ = (_, _)› ?_
    | with_reducible refine Wr.of_snd2 ‹_ = (_, _, _)› ?_
    | with_reducible apply Wr.of_id
    | split
    | dsimp only

end Sys2Proof.Machine
end

