-- ==== Sys2Proof/Laws/WrAir.lean ====
section
/-! SUPPORT. The registers that each operation of Machine/Air.lean may change. -/

set_option Elab.async false

namespace Sys2Proof.Machine

theorem State.ppduSent_wr {m : Nat} {s0 : State} (s : State) (a1 : _) (a2 : _) (hm : subMask 0x4000000000000000000000000000000000000000000000000000000000000000000483000800000000000000000000000000000000000 m = true) (h : Wr m s0 s) : Wr m s0 (State.ppduSent s a1 a2) := by
  refine Wr.lift (f := 0x4000000000000000000000000000000000000000000000000000000000000000000483000800000000000000000000000000000000000) ?_ hm h
  unfold State.ppduSent
  repeat' first
    | exact rfl
    | (refine (?_ : _ = true); dsimp only [List.all]; exact rfl)
    | with_reducible exact Wr.refl _ _
    | with_reducible assumption
    | with_reducible apply Wr.of_keep (f := 2097152) (State.phyUpd_keep (m := 2097152) _ _ _ rfl (Keep.refl _ _)) rfl
    | with_reducible apply Wr.of_keep (f := 4194304) (State.wlinkUpd_keep (m := 4194304) _ _ _ rfl (Keep.refl _ _)) rfl
    | with_reducible apply State.sentLapse_wr
    | with_reducible apply State.frameEnd_wr
    | with_reducible apply Wr.of_keep (f := 4194304) (State.twtEosp_keep (m := 4194304) _ _ rfl (Keep.refl _ _)) rfl
    | with_reducible apply Wr.ite <;> intro _
    | with_reducible apply Wr.foldl <;> try intro _ _ _
    | with_reducible apply Wr.foldl_snd <;> try intro _ _ _
    | with_reducible refine Wr.of_snd ‹_ = (_, _)› ?_
    | with_reducible refine Wr.of_snd2 ‹_ = (_, _, _)› ?_
    | with_reducible apply Wr.of_id
    | split
    | dsimp only

theorem State.ppduStatus_wr {m : Nat} {s0 : State} (s : State) (a1 : _) (a2 : _) (a3 : _) (hm : subMask 0x4000000000000000000000000000000000000000000000000000000000000000000483000800000000000000000000000000000000000 m = true) (h : Wr m s0 s) : Wr m s0 (State.ppduStatus s a1 a2 a3) := by
  refine Wr.lift (f := 0x4000000000000000000000000000000000000000000000000000000000000000000483000800000000000000000000000000000000000) ?_ hm h
  unfold State.ppduStatus
  repeat' first
    | exact rfl
    | (refine (?_ : _ = true); dsimp only [List.all]; exact rfl)
    | with_reducible exact Wr.refl _ _
    | with_reducible assumption
    | with_reducible apply Wr.of_keep (f := 4194304) (State.wlinkUpd_keep (m := 4194304) _ _ _ rfl (Keep.refl _ _)) rfl
    | with_reducible apply State.ppduSent_wr
    | with_reducible apply State.frameEnd_wr
    | with_reducible apply State.frameRetry_wr
    | with_reducible apply State.framePut_wr
    | with_reducible apply Wr.ite <;> intro _
    | with_reducible apply Wr.foldl <;> try intro _ _ _
    | with_reducible apply Wr.foldl_snd <;> try intro _ _ _
    | with_reducible refine Wr.of_snd ‹_ = (_, _)› ?_
    | with_reducible refine Wr.of_snd2 ‹_ = (_, _, _)› ?_
    | with_reducible apply Wr.of_id
    | split
    | dsimp only

theorem State.atHome_wr {m : Nat} {s0 : State} (s : State) (t : Tx) (f : Nat → State → State) (hf : ∀ q u, Wr m s0 u → Wr m s0 (f q u))
    (h : Wr m s0 s) : Wr m s0 (State.atHome s t f) := by
  unfold State.atHome
  split
  · exact hf _ _ h
  · exact h

theorem State.txReturn_wr {m : Nat} {s0 : State} (s : State) (a1 : _) (a2 : _) (hm : subMask 0x400000000000000000000000000000000000000000000000c000000001000000000483000800000000100400000000000000000000000 m = true) (h : Wr m s0 s) : Wr m s0 (State.txReturn s a1 a2) := by
  refine Wr.lift (f := 0x400000000000000000000000000000000000000000000000c000000001000000000483000800000000100400000000000000000000000) ?_ hm h
  unfold State.txReturn
  repeat' first
    | exact rfl
    | (refine (?_ : _ = true); dsimp only [List.all]; exact rfl)
    | with_reducible exact Wr.refl _ _
    | with_reducible assumption
    | with_reducible apply Wr.ite <;> intro _
    | with_reducible apply Wr.foldl <;> try intro _ _ _
    | with_reducible apply Wr.foldl_snd <;> try intro _ _ _
    | with_reducible apply State.inc_wr
    | with_reducible apply State.ppduStatus_wr
    | with_reducible apply State.ccaUpd_wr
    | with_reducible apply State.fhRunDone_wr
    | with_reducible apply Wr.of_keep (f := 16777216) (State.demodUpd_keep (m := 16777216) _ _ _ rfl (Keep.refl _ _)) rfl
    | with_reducible apply State.dlDone_wr
    | with_reducible refine Wr.of_snd ‹_ = (_, _)› ?_
    | with_reducible refine Wr.of_snd2 ‹_ = (_, _, _)› ?_
    | with_reducible apply Wr.of_id
    | split
    | dsimp only

theorem State.txFinish_wr {m : Nat} {s0 : State} (s : State) (a1 : _) (a2 : _) (hm : subMask 0x400000000000000000000000000000000000000000000000c00000000100000000048300080000000010040000000c040080040000000 m = true) (h : Wr m s0 s) : Wr m s0 (State.txFinish s a1 a2) := by
  refine Wr.lift (f := 0x400000000000000000000000000000000000000000000000c00000000100000000048300080000000010040000000c040080040000000) ?_ hm h
  unfold State.txFinish
  repeat' first
    | exact rfl
    | (refine (?_ : _ = true); dsimp only [List.all]; exact rfl)
    | with_reducible exact Wr.refl _ _
    | with_reducible assumption
    | with_reducible apply Wr.of_keep (f := 1048576) (State.radUpd_keep (m := 1048576) _ _ rfl (Keep.refl _ _)) rfl
    | with_reducible apply State.txRadiate_wr
    | with_reducible apply Wr.of_keep (f := 1048576) (State.calRxStart_keep (m := 1048576) _ _ rfl (Keep.refl _ _)) rfl
    | with_reducible apply Wr.of_keep (f := 1048576) (State.pathUpd_keep (m := 1048576) _ _ _ rfl (Keep.refl _ _)) rfl
    | with_reducible apply State.visitsAbandon_wr
    | with_reducible refine State.atHome_wr _ _ _ (fun _ _ _ => ?_) ?_
    | with_reducible apply State.inc_wr
    | with_reducible apply Wr.of_keep (f := 272) (State.raise_keep (m := 272) _ _ rfl (Keep.refl _ _)) rfl
    | with_reducible apply State.txReturn_wr
    | with_reducible apply Wr.ite <;> intro _
    | with_reducible apply Wr.foldl <;> try intro _ _ _
    | with_reducible apply Wr.foldl_snd <;> try intro _ _ _
    | with_reducible refine Wr.of_snd ‹_ = (_, _)› ?_
    | with_reducible refine Wr.of_snd2 ‹_ = (_, _, _)› ?_
    | with_reducible apply Wr.of_id
    | split
    | dsimp only

theorem State.txsEnd_wr {m : Nat} {s0 : State} (s : State) (a1 : _) (a2 : _) (hm : subMask 0x400000000000000000000000000000000000000000000000c00000000100000000048300080000000010040000000c040080040000000 m = true) (h : Wr m s0 s) : Wr m s0 (State.txsEnd s a1 a2) := by
  refine Wr.lift (f := 0x400000000000000000000000000000000000000000000000c00000000100000000048300080000000010040000000c040080040000000) ?_ hm h
  unfold State.txsEnd
  repeat' first
    | exact rfl
    | (refine (?_ : _ = true); dsimp only [List.all]; exact rfl)
    | with_reducible exact Wr.refl _ _
    | with_reducible assumption
    | with_reducible apply State.txFinish_wr
    | with_reducible apply Wr.ite <;> intro _
    | with_reducible apply Wr.foldl <;> try intro _ _ _
    | with_reducible apply Wr.foldl_snd <;> try intro _ _ _
    | with_reducible refine Wr.of_snd ‹_ = (_, _)› ?_
    | with_reducible refine Wr.of_snd2 ‹_ = (_, _, _)› ?_
    | with_reducible apply Wr.of_id
    | split
    | dsimp only

theorem State.coexConsent_wr {m : Nat} {s0 : State} (s : State) (a1 : _) (a2 : _) (hm : subMask 0x400000000000000000000000000000000000000000000000c00000000100000000048300080000000010040000000c040080440000000 m = true) (h : Wr m s0 s) : Wr m s0 (State.coexConsent s a1 a2) := by
  refine Wr.lift (f := 0x400000000000000000000000000000000000000000000000c00000000100000000048300080000000010040000000c040080440000000) ?_ hm h
  unfold State.coexConsent
  repeat' first
    | exact rfl
    | (refine (?_ : _ = true); dsimp only [List.all]; exact rfl)
    | with_reducible exact Wr.refl _ _
    | with_reducible assumption
    | with_reducible apply State.txsEnd_wr
    | with_reducible apply State.incBy_wr
    | with_reducible apply Wr.of_keep (f := 1048576) (State.coexUpd_keep (m := 1048576) _ _ _ rfl (Keep.refl _ _)) rfl
    | with_reducible apply Wr.ite <;> intro _
    | with_reducible apply Wr.foldl <;> try intro _ _ _
    | with_reducible apply Wr.foldl_snd <;> try intro _ _ _
    | with_reducible refine Wr.of_snd ‹_ = (_, _)› ?_
    | with_reducible refine Wr.of_snd2 ‹_ = (_, _, _)› ?_
    | with_reducible apply Wr.of_id
    | split
    | dsimp only

theorem State.coexDecide_wr {m : Nat} {s0 : State} (s : State) (a1 : _) (a2 : _) (hm : subMask 0x400000000000000000000000000000000000000000000000c00000000100000000048300080000000010040000000c040080440000000 m = true) (h : Wr m s0 s) : Wr m s0 (State.coexDecide s a1 a2) := by
  refine Wr.lift (f := 0x400000000000000000000000000000000000000000000000c00000000100000000048300080000000010040000000c040080440000000) ?_ hm h
  unfold State.coexDecide
  repeat' first
    | exact rfl
    | (refine (?_ : _ = true); dsimp only [List.all]; exact rfl)
    | with_reducible exact Wr.refl _ _
    | with_reducible assumption
    | with_reducible apply State.coexConsent_wr
    | with_reducible apply Wr.ite <;> intro _
    | with_reducible apply Wr.foldl <;> try intro _ _ _
    | with_reducible apply Wr.foldl_snd <;> try intro _ _ _
    | with_reducible refine Wr.of_snd ‹_ = (_, _)› ?_
    | with_reducible refine Wr.of_snd2 ‹_ = (_, _, _)› ?_
    | with_reducible apply Wr.of_id
    | split
    | dsimp only

theorem State.coexSettle_wr {m : Nat} {s0 : State} (s : State) (hm : subMask 0x400000000000000000000000000000000000000000000000c00000000100000000048300080000000010040000000c040080440000000 m = true) (h : Wr m s0 s) : Wr m s0 (State.coexSettle s) := by
  refine Wr.lift (f := 0x400000000000000000000000000000000000000000000000c00000000100000000048300080000000010040000000c040080440000000) ?_ hm h
  unfold State.coexSettle
  repeat' first
    | exact rfl
    | (refine (?_ : _ = true); dsimp only [List.all]; exact rfl)
    | with_reducible exact Wr.refl _ _
    | with_reducible assumption
    | with_reducible apply State.coexDecide_wr
    | with_reducible apply Wr.ite <;> intro _
    | with_reducible apply Wr.foldl <;> try intro _ _ _
    | with_reducible apply Wr.foldl_snd <;> try intro _ _ _
    | with_reducible refine Wr.of_snd ‹_ = (_, _)› ?_
    | with_reducible refine Wr.of_snd2 ‹_ = (_, _, _)› ?_
    | with_reducible apply Wr.of_id
    | split
    | dsimp only

theorem execCoexReqRise_wr (a0 : _) (a1 : _) (a2 : _) (s : State) {t : State} (h : execCoexReqRise a0 a1 a2 s = .next t) : Wr 0x400000000000000000000000000000000000000000000000c00000000100000000048300080000000010040000000c040080440000000 s t := by
  unfold execCoexReqRise at h
  injection h with h
  subst h
  repeat' first
    | exact rfl
    | (refine (?_ : _ = true); dsimp only [List.all]; exact rfl)
    | with_reducible exact Wr.refl _ _
    | with_reducible assumption
    | with_reducible apply State.coexSettle_wr
    | with_reducible apply Wr.of_keep (f := 1048576) (State.coexUpd_keep (m := 1048576) _ _ _ rfl (Keep.refl _ _)) rfl
    | with_reducible apply Wr.ite <;> intro _
    | with_reducible apply Wr.foldl <;> try intro _ _ _
    | with_reducible apply Wr.foldl_snd <;> try intro _ _ _
    | with_reducible refine Wr.of_snd ‹_ = (_, _)› ?_
    | with_reducible refine Wr.of_snd2 ‹_ = (_, _, _)› ?_
    | with_reducible apply Wr.of_id
    | split
    | dsimp only

theorem execMaxDefer_wr (a0 : _) (a1 : _) (s : State) {t : State} (h : execMaxDefer a0 a1 s = .next t) : Wr 0x400000000000000000000000000000000000000000000000c00000000100000000048300080000000010040000000c040080440000000 s t := by
  unfold execMaxDefer at h
  injection h with h
  subst h
  repeat' first
    | exact rfl
    | (refine (?_ : _ = true); dsimp only [List.all]; exact rfl)
    | with_reducible exact Wr.refl _ _
    | with_reducible assumption
    | with_reducible apply State.coexSettle_wr
    | with_reducible apply State.coexConsent_wr
    | with_reducible apply Wr.ite <;> intro _
    | with_reducible apply Wr.foldl <;> try intro _ _ _
    | with_reducible apply Wr.foldl_snd <;> try intro _ _ _
    | with_reducible refine Wr.of_snd ‹_ = (_, _)› ?_
    | with_reducible refine Wr.of_snd2 ‹_ = (_, _, _)› ?_
    | with_reducible apply Wr.of_id
    | split
    | dsimp only

theorem State.txPresent_wr {m : Nat} {s0 : State} (s : State) (a1 : _) (hm : subMask 0x400000000000000000000000000000000000000000000000c00000000100000000048300080000000010040000000c040080040000000 m = true) (h : Wr m s0 s) : Wr m s0 (State.txPresent s a1) := by
  refine Wr.lift (f := 0x400000000000000000000000000000000000000000000000c00000000100000000048300080000000010040000000c040080040000000) ?_ hm h
  unfold State.txPresent
  repeat' first
    | exact rfl
    | (refine (?_ : _ = true); dsimp only [List.all]; exact rfl)
    | with_reducible exact Wr.refl _ _
    | with_reducible assumption
    | with_reducible apply Wr.of_keep (f := 1048576) (State.radUpd_keep (m := 1048576) _ _ rfl (Keep.refl _ _)) rfl
    | with_reducible apply Wr.of_keep (f := 1048576) (State.beamsName_keep (m := 1048576) _ _ rfl (Keep.refl _ _)) rfl
    | with_reducible apply State.txFinish_wr
    | with_reducible apply Wr.ite <;> intro _
    | with_reducible apply Wr.foldl <;> try intro _ _ _
    | with_reducible apply Wr.foldl_snd <;> try intro _ _ _
    | with_reducible refine Wr.of_snd ‹_ = (_, _)› ?_
    | with_reducible refine Wr.of_snd2 ‹_ = (_, _, _)› ?_
    | with_reducible apply Wr.of_id
    | split
    | dsimp only

theorem State.ppduPresent_wr {m : Nat} {s0 : State} (s : State) (a1 : _) (a2 : _) (a3 : _) (a4 : _) (hm : subMask 0x400000000000000000000000000000000000000000000000c00000000100000000048300080000000010040000000c040080040000000 m = true) (h : Wr m s0 s) : Wr m s0 (State.ppduPresent s a1 a2 a3 a4) := by
  refine Wr.lift (f := 0x400000000000000000000000000000000000000000000000c00000000100000000048300080000000010040000000c040080040000000) ?_ hm h
  unfold State.ppduPresent
  repeat' first
    | exact rfl
    | (refine (?_ : _ = true); dsimp only [List.all]; exact rfl)
    | with_reducible exact Wr.refl _ _
    | with_reducible assumption
    | with_reducible apply State.txPresent_wr
    | with_reducible apply Wr.ite <;> intro _
    | with_reducible apply Wr.foldl <;> try intro _ _ _
    | with_reducible apply Wr.foldl_snd <;> try intro _ _ _
    | with_reducible refine Wr.of_snd ‹_ = (_, _)› ?_
    | with_reducible refine Wr.of_snd2 ‹_ = (_, _, _)› ?_
    | with_reducible apply Wr.of_id
    | split
    | dsimp only

theorem State.ppduExtra_wr {m : Nat} {s0 : State} (s : State) (a1 : _) (a2 : _) (a3 : _) (hm : subMask 0x400000000000000000000000000000000000000000000000c00000000100000000048300080000000010040000000c040080040000000 m = true) (h : Wr m s0 s) : Wr m s0 (State.ppduExtra s a1 a2 a3) := by
  refine Wr.lift (f := 0x400000000000000000000000000000000000000000000000c00000000100000000048300080000000010040000000c040080040000000) ?_ hm h
  unfold State.ppduExtra
  repeat' first
    | exact rfl
    | (refine (?_ : _ = true); dsimp only [List.all]; exact rfl)
    | with_reducible exact Wr.refl _ _
    | with_reducible assumption
    | with_reducible apply State.ppduPresent_wr
    | with_reducible apply Wr.of_keep (f := 4194304) (State.wacUpd_keep (m := 4194304) _ _ rfl (Keep.refl _ _)) rfl
    | with_reducible apply Wr.of_keep (f := 4194304) (State.ppduDue_keep (m := 4194304) _ _ _ rfl (Keep.refl _ _)) rfl
    | with_reducible apply Wr.ite <;> intro _
    | with_reducible apply Wr.foldl <;> try intro _ _ _
    | with_reducible apply Wr.foldl_snd <;> try intro _ _ _
    | with_reducible refine Wr.of_snd ‹_ = (_, _)› ?_
    | with_reducible refine Wr.of_snd2 ‹_ = (_, _, _)› ?_
    | with_reducible apply Wr.of_id
    | split
    | dsimp only

theorem execPpduTransmitRequest_wr (a0 : _) (a1 : _) (a2 : _) (a3 : _) (a4 : _) (s : State) {t : State} (h : execPpduTransmitRequest a0 a1 a2 a3 a4 s = .next t) : Wr 0x1000000000400000000000000000000000000000000000000000000000c00000000100000000048300080000000010040000000c040080040000000 s t := by
  unfold execPpduTransmitRequest at h
  injection h with h
  subst h
  repeat' first
    | exact rfl
    | (refine (?_ : _ = true); dsimp only [List.all]; exact rfl)
    | with_reducible exact Wr.refl _ _
    | with_reducible assumption
    | with_reducible apply State.schedule_wr
    | with_reducible apply State.ppduPresent_wr
    | with_reducible apply State.ppduStatus_wr
    | with_reducible apply State.ppduExtra_wr
    | with_reducible apply Wr.ite <;> intro _
    | with_reducible apply Wr.foldl <;> try intro _ _ _
    | with_reducible apply Wr.foldl_snd <;> try intro _ _ _
    | with_reducible refine Wr.of_snd ‹_ = (_, _)› ?_
    | with_reducible refine Wr.of_snd2 ‹_ = (_, _, _)› ?_
    | with_reducible apply Wr.of_id
    | split
    | dsimp only

theorem execDlRun_wr (s : State) {t : State} (h : execDlRun s = .next t) : Wr 0x400000000000000000000000000000000000000000000000c00000000100000000048300080000000010040000000c040080040000000 s t := by
  unfold execDlRun at h
  injection h with h
  subst h
  repeat' first
    | exact rfl
    | (refine (?_ : _ = true); dsimp only [List.all]; exact rfl)
    | with_reducible exact Wr.refl _ _
    | with_reducible assumption
    | with_reducible apply Wr.of_keep (f := 8388608) (State.fhUpd_keep (m := 8388608) _ _ rfl (Keep.refl _ _)) rfl
    | with_reducible apply State.txPresent_wr
    | with_reducible apply Wr.ite <;> intro _
    | with_reducible apply Wr.foldl <;> try intro _ _ _
    | with_reducible apply Wr.foldl_snd <;> try intro _ _ _
    | with_reducible refine Wr.of_snd ‹_ = (_, _)› ?_
    | with_reducible refine Wr.of_snd2 ‹_ = (_, _, _)› ?_
    | with_reducible apply Wr.of_id
    | split
    | dsimp only

theorem State.dlWindow_wr {m : Nat} {s0 : State} (s : State) (a1 : _) (a2 : _) (hm : subMask 0x400000000000000000000000000000000000000000000000c00000000100000000048300080000000010040000000c040080040000000 m = true) (h : Wr m s0 s) : Wr m s0 (State.dlWindow s a1 a2) := by
  refine Wr.lift (f := 0x400000000000000000000000000000000000000000000000c00000000100000000048300080000000010040000000c040080040000000) ?_ hm h
  unfold State.dlWindow
  repeat' first
    | exact rfl
    | (refine (?_ : _ = true); dsimp only [List.all]; exact rfl)
    | with_reducible exact Wr.refl _ _
    | with_reducible assumption
    | with_reducible apply State.dlDone_wr
    | with_reducible apply State.dlNext_wr
    | with_reducible apply Wr.of_keep (f := 16777216) (State.txaUpd_keep (m := 16777216) _ _ rfl (Keep.refl _ _)) rfl
    | with_reducible apply State.txPresent_wr
    | with_reducible apply Wr.ite <;> intro _
    | with_reducible apply Wr.foldl <;> try intro _ _ _
    | with_reducible apply Wr.foldl_snd <;> try intro _ _ _
    | with_reducible refine Wr.of_snd ‹_ = (_, _)› ?_
    | with_reducible refine Wr.of_snd2 ‹_ = (_, _, _)› ?_
    | with_reducible apply Wr.of_id
    | split
    | dsimp only

theorem execDownlinkWindow1_wr (a0 : _) (s : State) {t : State} (h : execDownlinkWindow1 a0 s = .next t) : Wr 0x400000000000000000000000000000000000000000000000c00000000100000000048300080000000010040000000c040080040000000 s t := by
  unfold execDownlinkWindow1 at h
  injection h with h
  subst h
  repeat' first
    | exact rfl
    | (refine (?_ : _ = true); dsimp only [List.all]; exact rfl)
    | with_reducible exact Wr.refl _ _
    | with_reducible assumption
    | with_reducible apply State.dlWindow_wr
    | with_reducible apply Wr.ite <;> intro _
    | with_reducible apply Wr.foldl <;> try intro _ _ _
    | with_reducible apply Wr.foldl_snd <;> try intro _ _ _
    | with_reducible refine Wr.of_snd ‹_ = (_, _)› ?_
    | with_reducible refine Wr.of_snd2 ‹_ = (_, _, _)› ?_
    | with_reducible apply Wr.of_id
    | split
    | dsimp only

theorem execDownlinkWindow2_wr (a0 : _) (s : State) {t : State} (h : execDownlinkWindow2 a0 s = .next t) : Wr 0x400000000000000000000000000000000000000000000000c00000000100000000048300080000000010040000000c040080040000000 s t := by
  unfold execDownlinkWindow2 at h
  injection h with h
  subst h
  repeat' first
    | exact rfl
    | (refine (?_ : _ = true); dsimp only [List.all]; exact rfl)
    | with_reducible exact Wr.refl _ _
    | with_reducible assumption
    | with_reducible apply State.dlWindow_wr
    | with_reducible apply Wr.ite <;> intro _
    | with_reducible apply Wr.foldl <;> try intro _ _ _
    | with_reducible apply Wr.foldl_snd <;> try intro _ _ _
    | with_reducible refine Wr.of_snd ‹_ = (_, _)› ?_
    | with_reducible refine Wr.of_snd2 ‹_ = (_, _, _)› ?_
    | with_reducible apply Wr.of_id
    | split
    | dsimp only

theorem State.txBeam_wr {m : Nat} {s0 : State} (s : State) (a1 : _) (a2 : _) (a3 : _) (a4 : _) (a5 : _) (hm : subMask 0x3000000000000 m = true) (h : Wr m s0 s) : Wr m s0 (State.txBeam s a1 a2 a3 a4 a5) := by
  refine Wr.lift (f := 0x3000000000000) ?_ hm h
  unfold State.txBeam
  repeat' first
    | exact rfl
    | (refine (?_ : _ = true); dsimp only [List.all]; exact rfl)
    | with_reducible exact Wr.refl _ _
    | with_reducible assumption
    | with_reducible apply State.beamUse_wr
    | with_reducible apply State.inc_wr
    | with_reducible apply Wr.ite <;> intro _
    | with_reducible apply Wr.foldl <;> try intro _ _ _
    | with_reducible apply Wr.foldl_snd <;> try intro _ _ _
    | with_reducible refine Wr.of_snd ‹_ = (_, _)› ?_
    | with_reducible refine Wr.of_snd2 ‹_ = (_, _, _)› ?_
    | with_reducible apply Wr.of_id
    | split
    | dsimp only

theorem State.txEffects_wr {m : Nat} {s0 : State} (s : State) (a1 : _) (a2 : _) (a3 : _) (hm : subMask 0x20000000030000000000000000000000000e2400000000027000000000000 m = true) (h : Wr m s0 s) : Wr m s0 (State.txEffects s a1 a2 a3) := by
  refine Wr.lift (f := 0x20000000030000000000000000000000000e2400000000027000000000000) ?_ hm h
  unfold State.txEffects
  repeat' first
    | exact rfl
    | (refine (?_ : _ = true); dsimp only [List.all]; exact rfl)
    | with_reducible exact Wr.refl _ _
    | with_reducible assumption
    | with_reducible apply Wr.of_keep (f := 1048576) (State.quadUpd_keep (m := 1048576) _ _ _ rfl (Keep.refl _ _)) rfl
    | with_reducible apply State.txBeam_wr
    | with_reducible apply Wr.of_keep (f := 1048576) (State.pathUpd_keep (m := 1048576) _ _ _ rfl (Keep.refl _ _)) rfl
    | with_reducible apply Wr.of_keep (f := 1048576) (State.calTxStart_keep (m := 1048576) _ _ rfl (Keep.refl _ _)) rfl
    | with_reducible apply State.dpdStart_wr
    | with_reducible apply State.incBy_wr
    | with_reducible apply Wr.of_keep (f := 4194320) (State.ppduStart_keep (m := 4194320) _ _ _ _ _ rfl (Keep.refl _ _)) rfl
    | with_reducible apply State.inc_wr
    | with_reducible apply State.phySend_wr
    | with_reducible apply State.fhRunStart_wr
    | with_reducible apply Wr.of_keep (f := 16777216) (State.demodUpd_keep (m := 16777216) _ _ _ rfl (Keep.refl _ _)) rfl
    | with_reducible apply State.txaAbort_wr
    | with_reducible apply Wr.of_keep (f := 16) (State.emit_keep (m := 16) _ _ _ _ rfl (Keep.refl _ _)) rfl
    | with_reducible apply Wr.ite <;> intro _
    | with_reducible apply Wr.foldl <;> try intro _ _ _
    | with_reducible apply Wr.foldl_snd <;> try intro _ _ _
    | with_reducible refine Wr.of_snd ‹_ = (_, _)› ?_
    | with_reducible refine Wr.of_snd2 ‹_ = (_, _, _)› ?_
    | with_reducible apply Wr.of_id
    | split
    | dsimp only

theorem State.txStart_wr {m : Nat} {s0 : State} (s : State) (a1 : _) (a2 : _) (a3 : _) (a4 : _) (a5 : _) (hm : subMask 0x400000000000000000000000000000000000000000000000e0000000030000000004830008000000001e240000000c067080360000000 m = true) (h : Wr m s0 s) : Wr m s0 (State.txStart s a1 a2 a3 a4 a5) := by
  refine Wr.lift (f := 0x400000000000000000000000000000000000000000000000e0000000030000000004830008000000001e240000000c067080360000000) ?_ hm h
  unfold State.txStart
  repeat' first
    | exact rfl
    | (refine (?_ : _ = true); dsimp only [List.all]; exact rfl)
    | with_reducible exact Wr.refl _ _
    | with_reducible assumption
    | with_reducible apply State.txFinish_wr
    | with_reducible apply State.inc_wr
    | with_reducible apply Wr.of_keep (f := 272) (State.raise_keep (m := 272) _ _ rfl (Keep.refl _ _)) rfl
    | with_reducible apply Wr.of_keep (f := 1048576) (State.radUpd_keep (m := 1048576) _ _ rfl (Keep.refl _ _)) rfl
    | with_reducible apply State.txEffects_wr
    | with_reducible apply Wr.of_keep (f := 1048576) (State.dutyCharge_keep (m := 1048576) _ _ rfl (Keep.refl _ _)) rfl
    | with_reducible apply Wr.ite <;> intro _
    | with_reducible apply Wr.foldl <;> try intro _ _ _
    | with_reducible apply Wr.foldl_snd <;> try intro _ _ _
    | with_reducible refine Wr.of_snd ‹_ = (_, _)› ?_
    | with_reducible refine Wr.of_snd2 ‹_ = (_, _, _)› ?_
    | with_reducible apply Wr.of_id
    | split
    | dsimp only

theorem execTransmissionStart_wr (a0 : _) (a1 : _) (s : State) {t : State} (h : execTransmissionStart a0 a1 s = .next t) : Wr 0x400000000000000000000000000000000000000000000000e0000000030000000004830008000000001e240000000c067080760000000 s t := by
  unfold execTransmissionStart at h
  injection h with h
  subst h
  repeat' first
    | exact rfl
    | (refine (?_ : _ = true); dsimp only [List.all]; exact rfl)
    | with_reducible exact Wr.refl _ _
    | with_reducible assumption
    | with_reducible apply State.coexSettle_wr
    | with_reducible apply State.txStart_wr
    | with_reducible apply Wr.ite <;> intro _
    | with_reducible apply Wr.foldl <;> try intro _ _ _
    | with_reducible apply Wr.foldl_snd <;> try intro _ _ _
    | with_reducible refine Wr.of_snd ‹_ = (_, _)› ?_
    | with_reducible refine Wr.of_snd2 ‹_ = (_, _, _)› ?_
    | with_reducible apply Wr.of_id
    | split
    | dsimp only

theorem execLateTolExpiry_wr (a0 : _) (s : State) {t : State} (h : execLateTolExpiry a0 s = .next t) : Wr 0x400000000000000000000000000000000000000000000000c00000000100000000048300080000000010040000000c040080440000000 s t := by
  unfold execLateTolExpiry at h
  injection h with h
  subst h
  repeat' first
    | exact rfl
    | (refine (?_ : _ = true); dsimp only [List.all]; exact rfl)
    | with_reducible exact Wr.refl _ _
    | with_reducible assumption
    | with_reducible apply State.coexSettle_wr
    | with_reducible apply State.txFinish_wr
    | with_reducible apply Wr.ite <;> intro _
    | with_reducible apply Wr.foldl <;> try intro _ _ _
    | with_reducible apply Wr.foldl_snd <;> try intro _ _ _
    | with_reducible refine Wr.of_snd ‹_ = (_, _)› ?_
    | with_reducible refine Wr.of_snd2 ‹_ = (_, _, _)› ?_
    | with_reducible apply Wr.of_id
    | split
    | dsimp only

theorem execTransmissionEnd_wr (a0 : _) (s : State) {t : State} (h : execTransmissionEnd a0 s = .next t) : Wr 0x400000000000000000000000000000000000000000000000c00000000100000000048300080000000010040000000c040080440000000 s t := by
  unfold execTransmissionEnd at h
  injection h with h
  subst h
  repeat' first
    | exact rfl
    | (refine (?_ : _ = true); dsimp only [List.all]; exact rfl)
    | with_reducible exact Wr.refl _ _
    | with_reducible assumption
    | with_reducible apply State.coexSettle_wr
    | with_reducible apply State.txFinish_wr
    | with_reducible apply Wr.ite <;> intro _
    | with_reducible apply Wr.foldl <;> try intro _ _ _
    | with_reducible apply Wr.foldl_snd <;> try intro _ _ _
    | with_reducible refine Wr.of_snd ‹_ = (_, _)› ?_
    | with_reducible refine Wr.of_snd2 ‹_ = (_, _, _)› ?_
    | with_reducible apply Wr.of_id
    | split
    | dsimp only

theorem State.lockGone_wr {m : Nat} {s0 : State} (s : State) (a1 : _) (a2 : _) (a3 : _) (hm : subMask 0x400000000000000000000000000000000000000000000000c00000000100000000048300080000000016240000000c0400800c0040000 m = true) (h : Wr m s0 s) : Wr m s0 (State.lockGone s a1 a2 a3) := by
  refine Wr.lift (f := 0x400000000000000000000000000000000000000000000000c00000000100000000048300080000000016240000000c0400800c0040000) ?_ hm h
  unfold State.lockGone
  repeat' first
    | exact rfl
    | (refine (?_ : _ = true); dsimp only [List.all]; exact rfl)
    | with_reducible exact Wr.refl _ _
    | with_reducible assumption
    | with_reducible apply Wr.of_keep (f := 1048576) (State.synUpd_keep (m := 1048576) _ _ _ _ rfl (Keep.refl _ _)) rfl
    | with_reducible apply State.sets_wr
    | with_reducible apply Wr.of_keep (f := 272) (State.raise_keep (m := 272) _ _ rfl (Keep.refl _ _)) rfl
    | with_reducible apply State.phyLose_wr
    | with_reducible apply State.txsEnd_wr
    | with_reducible apply Wr.of_keep (f := 1048576) (State.pathUpd_keep (m := 1048576) _ _ _ rfl (Keep.refl _ _)) rfl
    | with_reducible apply State.inc_wr
    | with_reducible apply Wr.ite <;> intro _
    | with_reducible apply Wr.foldl <;> try intro _ _ _
    | with_reducible apply Wr.foldl_snd <;> try intro _ _ _
    | with_reducible refine Wr.of_snd ‹_ = (_, _)› ?_
    | with_reducible refine Wr.of_snd2 ‹_ = (_, _, _)› ?_
    | with_reducible apply Wr.of_id
    | split
    | dsimp only

theorem execLockLost_wr (a0 : _) (a1 : _) (s : State) {t : State} (h : execLockLost a0 a1 s = .next t) : Wr 0x400000000000000000000000000000000000000000000000c00000000100000000048300080000000016240000000c0400804c0040000 s t := by
  unfold execLockLost at h
  injection h with h
  subst h
  repeat' first
    | exact rfl
    | (refine (?_ : _ = true); dsimp only [List.all]; exact rfl)
    | with_reducible exact Wr.refl _ _
    | with_reducible assumption
    | with_reducible apply State.coexSettle_wr
    | with_reducible apply State.lockGone_wr
    | with_reducible apply Wr.ite <;> intro _
    | with_reducible apply Wr.foldl <;> try intro _ _ _
    | with_reducible apply Wr.foldl_snd <;> try intro _ _ _
    | with_reducible refine Wr.of_snd ‹_ = (_, _)› ?_
    | with_reducible refine Wr.of_snd2 ‹_ = (_, _, _)› ?_
    | with_reducible apply Wr.of_id
    | split
    | dsimp only

theorem execRefclkLost_wr (s : State) {t : State} (h : execRefclkLost s = .next t) : Wr 0x400000000000000000000002000000000000000000000000c00000000100000000048300080000000016240000000c0400804c0040000 s t := by
  unfold execRefclkLost at h
  injection h with h
  subst h
  refine Wr.ite (fun _ => ?_) (fun _ => Wr.refl _ _)
  extract_lets p s1 s2 s3
  have hs1 : Wr 0x400000000000000000000002000000000000000000000000c00000000100000000048300080000000016240000000c0400804c0040000 s s1 := Wr.node (u := s) rfl rfl rfl (Wr.refl _ _)
  clear_value s1
  have hs2 : Wr 0x400000000000000000000002000000000000000000000000c00000000100000000048300080000000016240000000c0400804c0040000 s s2 := State.txsEnd_wr _ _ _ rfl (hs1)
  clear_value s2
  have hs3 : Wr 0x400000000000000000000002000000000000000000000000c00000000100000000048300080000000016240000000c0400804c0040000 s s3 := Wr.foldl _ _ hs2 fun _ _ k => Wr.ite (fun _ => Wr.of_keep (f := 272) (State.raise_keep (m := 272) _ _ rfl (Keep.refl _ _)) rfl (Wr.foldl _ _ k fun _ _ j => Wr.ite (fun _ => State.lockGone_wr _ _ _ _ rfl (j)) (fun _ => j))) (fun _ => k)
  clear_value s3
  exact State.coexSettle_wr _ rfl (Wr.ite (fun _ => State.ntuRefLost_wr _ rfl (hs3)) (fun _ => hs3))

theorem execRefclkRestore_wr (s : State) {t : State} (h : execRefclkRestore s = .next t) : Wr 0x20000000000000000000000000000000000000000000000000000000000000000000000000000000040018 s t := by
  unfold execRefclkRestore at h
  injection h with h
  subst h
  repeat' first
    | exact rfl
    | (refine (?_ : _ = true); dsimp only [List.all]; exact rfl)
    | with_reducible exact Wr.refl _ _
    | with_reducible assumption
    | with_reducible apply Wr.ite <;> intro _
    | with_reducible apply Wr.foldl <;> try intro _ _ _
    | with_reducible apply Wr.foldl_snd <;> try intro _ _ _
    | with_reducible apply Wr.of_keep (f := 1048576) (State.synUpd_keep (m := 1048576) _ _ _ _ rfl (Keep.refl _ _)) rfl
    | with_reducible apply State.set_wr
    | with_reducible apply State.ebufsSlip_wr
    | with_reducible apply State.ntuRefBack_wr
    | (rewrite [State.mk_eq_updOf]; with_reducible refine Wr.node rfl rfl rfl ?_)
    | with_reducible refine Wr.of_snd ‹_ = (_, _)› ?_
    | with_reducible refine Wr.of_snd2 ‹_ = (_, _, _)› ?_
    | with_reducible apply Wr.of_id
    | split
    | dsimp only

theorem execAsyncInResume_wr (a0 : _) (s : State) {t : State} (h : execAsyncInResume a0 s = .next t) : Wr 0x40080000100018 s t := by
  unfold execAsyncInResume at h
  injection h with h
  subst h
  repeat' first
    | exact rfl
    | (refine (?_ : _ = true); dsimp only [List.all]; exact rfl)
    | with_reducible exact Wr.refl _ _
    | with_reducible assumption
    | with_reducible apply State.set_wr
    | with_reducible apply State.ebufsSlip_wr
    | with_reducible apply State.txLeave_wr
    | with_reducible apply Wr.ite <;> intro _
    | with_reducible apply Wr.foldl <;> try intro _ _ _
    | with_reducible apply Wr.foldl_snd <;> try intro _ _ _
    | with_reducible refine Wr.of_snd ‹_ = (_, _)› ?_
    | with_reducible refine Wr.of_snd2 ‹_ = (_, _, _)› ?_
    | with_reducible apply Wr.of_id
    | split
    | dsimp only

theorem execCalOffer_wr (a0 : _) (a1 : _) (s : State) {t : State} (h : execCalOffer a0 a1 s = .next t) : Wr 0x340000000000000000 s t := by
  unfold execCalOffer at h
  injection h with h
  subst h
  repeat' first
    | exact rfl
    | (refine (?_ : _ = true); dsimp only [List.all]; exact rfl)
    | with_reducible exact Wr.refl _ _
    | with_reducible assumption
    | with_reducible apply State.calSettle_wr
    | with_reducible apply Wr.ite <;> intro _
    | with_reducible apply Wr.foldl <;> try intro _ _ _
    | with_reducible apply Wr.foldl_snd <;> try intro _ _ _
    | with_reducible refine Wr.of_snd ‹_ = (_, _)› ?_
    | with_reducible refine Wr.of_snd2 ‹_ = (_, _, _)› ?_
    | with_reducible apply Wr.of_id
    | split
    | dsimp only

end Sys2Proof.Machine
end

