-- ==== Sys2Proof/Laws/WrFlwTbl.lean ====
section
/-! SUPPORT. The registers that each operation of Machine/FlwTbl.lean may change. -/

set_option Elab.async false

namespace Sys2Proof.Machine

theorem State.setFlwWin_wr {m : Nat} {s0 : State} (s : State) (a1 : _) (hm : subMask 0x400000000000000000000000000000000000000000000000000000000000000000000 m = true) (h : Wr m s0 s) : Wr m s0 (State.setFlwWin s a1) := by
  refine Wr.lift (f := 0x400000000000000000000000000000000000000000000000000000000000000000000) ?_ hm h
  unfold State.setFlwWin
  repeat' first
    | exact rfl
    | (refine (?_ : _ = true); dsimp only [List.all]; exact rfl)
    | with_reducible exact Wr.refl _ _
    | with_reducible assumption
    | with_reducible apply State.setReg_wr
    | with_reducible apply Wr.ite <;> intro _
    | with_reducible apply Wr.foldl <;> try intro _ _ _
    | with_reducible apply Wr.foldl_snd <;> try intro _ _ _
    | with_reducible refine Wr.of_snd ‹_ = (_, _)› ?_
    | with_reducible refine Wr.of_snd2 ‹_ = (_, _, _)› ?_
    | with_reducible apply Wr.of_id
    | split
    | dsimp only

theorem State.flwStat_wr {m : Nat} {s0 : State} (s : State) (a1 : _) (a2 : _) (hm : subMask 0x200000000000000000000000000000000000000000000000000000000000000000000 m = true) (h : Wr m s0 s) : Wr m s0 (State.flwStat s a1 a2) := by
  refine Wr.lift (f := 0x200000000000000000000000000000000000000000000000000000000000000000000) ?_ hm h
  unfold State.flwStat
  repeat' first
    | exact rfl
    | (refine (?_ : _ = true); dsimp only [List.all]; exact rfl)
    | with_reducible exact Wr.refl _ _
    | with_reducible assumption
    | with_reducible apply State.commit_wr
    | with_reducible apply Wr.ite <;> intro _
    | with_reducible apply Wr.foldl <;> try intro _ _ _
    | with_reducible apply Wr.foldl_snd <;> try intro _ _ _
    | with_reducible refine Wr.of_snd ‹_ = (_, _)› ?_
    | with_reducible refine Wr.of_snd2 ‹_ = (_, _, _)› ?_
    | with_reducible apply Wr.of_id
    | split
    | dsimp only

theorem State.l2Insert_wr {m : Nat} {s0 : State} (s : State) (hm : subMask 0x200000000000000000000000000000000000000000000000000000000000000000000 m = true) (h : Wr m s0 s) : Wr m s0 (State.l2Insert s) := by
  refine Wr.lift (f := 0x200000000000000000000000000000000000000000000000000000000000000000000) ?_ hm h
  unfold State.l2Insert
  repeat' first
    | exact rfl
    | (refine (?_ : _ = true); dsimp only [List.all]; exact rfl)
    | with_reducible exact Wr.refl _ _
    | with_reducible assumption
    | with_reducible apply State.flwStat_wr
    | with_reducible apply Wr.of_keep (f := 33554432) (State.setFent_keep (m := 33554432) _ _ _ _ _ rfl (Keep.refl _ _)) rfl
    | with_reducible apply Wr.ite <;> intro _
    | with_reducible apply Wr.foldl <;> try intro _ _ _
    | with_reducible apply Wr.foldl_snd <;> try intro _ _ _
    | with_reducible refine Wr.of_snd ‹_ = (_, _)› ?_
    | with_reducible refine Wr.of_snd2 ‹_ = (_, _, _)› ?_
    | with_reducible apply Wr.of_id
    | split
    | dsimp only

theorem State.flowInsert_wr {m : Nat} {s0 : State} (s : State) (hm : subMask 0x200000000000000000000000000000000000000000000000000000000000000000000 m = true) (h : Wr m s0 s) : Wr m s0 (State.flowInsert s) := by
  refine Wr.lift (f := 0x200000000000000000000000000000000000000000000000000000000000000000000) ?_ hm h
  unfold State.flowInsert
  repeat' first
    | exact rfl
    | (refine (?_ : _ = true); dsimp only [List.all]; exact rfl)
    | with_reducible exact Wr.refl _ _
    | with_reducible assumption
    | with_reducible apply State.flwStat_wr
    | with_reducible apply Wr.of_keep (f := 33620032) (State.flowPut_keep (m := 33620032) _ _ _ rfl (Keep.refl _ _)) rfl
    | with_reducible apply Wr.ite <;> intro _
    | with_reducible apply Wr.foldl <;> try intro _ _ _
    | with_reducible apply Wr.foldl_snd <;> try intro _ _ _
    | with_reducible refine Wr.of_snd ‹_ = (_, _)› ?_
    | with_reducible refine Wr.of_snd2 ‹_ = (_, _, _)› ?_
    | with_reducible apply Wr.of_id
    | split
    | dsimp only

theorem State.flwOp_wr {m : Nat} {s0 : State} (s : State) (a1 : _) (hm : subMask 0x600000000000000000000000000000000000000000000000000000000000000000000 m = true) (h : Wr m s0 s) : Wr m s0 (State.flwOp s a1) := by
  refine Wr.lift (f := 0x600000000000000000000000000000000000000000000000000000000000000000000) ?_ hm h
  unfold State.flwOp
  extract_lets t i staged
  split
  · exact State.flwStat_wr _ _ _ rfl (State.setFlwWin_wr _ _ rfl (Wr.refl _ _))
  · exact Wr.ite (fun _ => State.flwStat_wr _ _ _ rfl (Wr.refl _ _)) (fun _ => Wr.ite (fun _ => State.flwStat_wr _ _ _ rfl (Wr.refl _ _)) (fun _ => Wr.ite (fun _ => State.flwStat_wr _ _ _ rfl (Wr.of_keep (f := 33620032) (State.flowPut_keep (m := 33620032) _ _ _ rfl (Keep.refl _ _)) rfl (Wr.refl _ _))) (fun _ => State.flwStat_wr _ _ _ rfl (Wr.of_keep (f := 33554432) (State.setFent_keep (m := 33554432) _ _ _ _ _ rfl (Keep.refl _ _)) rfl (Wr.refl _ _)))))
  · exact Wr.ite (fun _ => State.flwStat_wr _ _ _ rfl (Wr.refl _ _)) (fun _ => Wr.ite (fun _ => State.flwStat_wr _ _ _ rfl (Wr.of_keep (f := 33620032) (State.flowZero_keep (m := 33620032) _ _ rfl (Keep.refl _ _)) rfl (Wr.refl _ _))) (fun _ => State.flwStat_wr _ _ _ rfl (Wr.of_keep (f := 33554432) (State.setFent_keep (m := 33554432) _ _ _ _ _ rfl (Keep.refl _ _)) rfl (Wr.refl _ _))))
  · exact Wr.ite (fun _ => State.l2Insert_wr _ rfl (Wr.refl _ _)) (fun _ => State.flowInsert_wr _ rfl (Wr.refl _ _))
  · refine Wr.ite (fun _ => ?_) (fun _ => ?_)
    · split
      · exact State.flwStat_wr _ _ _ rfl (Wr.of_keep (f := 33554432) (State.setFent_keep (m := 33554432) _ _ _ _ _ rfl (Keep.refl _ _)) rfl (Wr.refl _ _))
      · exact State.flwStat_wr _ _ _ rfl (Wr.refl _ _)
    · split
      · exact State.flwStat_wr _ _ _ rfl (Wr.of_keep (f := 33620032) (State.flowDrop_keep (m := 33620032) _ _ rfl (Keep.refl _ _)) rfl (Wr.refl _ _))
      · exact State.flwStat_wr _ _ _ rfl (Wr.refl _ _)

theorem State.verDone_wr {m : Nat} {s0 : State} (s : State) (a1 : _) (a2 : _) (a3 : _) (hm : subMask 0x400000000000000000000000000000000000000000000000000000000000000000 m = true) (h : Wr m s0 s) : Wr m s0 (State.verDone s a1 a2 a3) := by
  refine Wr.lift (f := 0x400000000000000000000000000000000000000000000000000000000000000000) ?_ hm h
  unfold State.verDone
  repeat' first
    | exact rfl
    | (refine (?_ : _ = true); dsimp only [List.all]; exact rfl)
    | with_reducible exact Wr.refl _ _
    | with_reducible assumption
    | with_reducible apply State.commit_wr
    | with_reducible apply Wr.of_keep (f := 272) (State.raise_keep (m := 272) _ _ rfl (Keep.refl _ _)) rfl
    | with_reducible apply Wr.ite <;> intro _
    | with_reducible apply Wr.foldl <;> try intro _ _ _
    | with_reducible apply Wr.foldl_snd <;> try intro _ _ _
    | with_reducible refine Wr.of_snd ‹_ = (_, _)› ?_
    | with_reducible refine Wr.of_snd2 ‹_ = (_, _, _)› ?_
    | with_reducible apply Wr.of_id
    | split
    | dsimp only

theorem State.verOp_wr {m : Nat} {s0 : State} (s : State) (a1 : _) (hm : subMask 0x1c00000000000000000000000000000000000000000000000000000000000000000 m = true) (h : Wr m s0 s) : Wr m s0 (State.verOp s a1) := by
  refine Wr.lift (f := 0x1c00000000000000000000000000000000000000000000000000000000000000000) ?_ hm h
  unfold State.verOp
  repeat' first
    | exact rfl
    | (refine (?_ : _ = true); dsimp only [List.all]; exact rfl)
    | with_reducible exact Wr.refl _ _
    | with_reducible assumption
    | with_reducible apply State.verDone_wr
    | with_reducible apply State.setReg_wr
    | with_reducible apply Wr.of_keep (f := 33554432) (State.pkUpd_keep (m := 33554432) _ _ rfl (Keep.refl _ _)) rfl
    | with_reducible apply Wr.ite <;> intro _
    | with_reducible apply Wr.foldl <;> try intro _ _ _
    | with_reducible apply Wr.foldl_snd <;> try intro _ _ _
    | with_reducible refine Wr.of_snd ‹_ = (_, _)› ?_
    | with_reducible refine Wr.of_snd2 ‹_ = (_, _, _)› ?_
    | with_reducible apply Wr.of_id
    | split
    | dsimp only

theorem State.flowExport_wr {m : Nat} {s0 : State} (s : State) (a1 : _) (hm : subMask 0x400000020000000000000000000000000000000000000000000000000000000000000000000 m = true) (h : Wr m s0 s) : Wr m s0 (State.flowExport s a1) := by
  refine Wr.lift (f := 0x400000020000000000000000000000000000000000000000000000000000000000000000000) ?_ hm h
  unfold State.flowExport
  repeat' first
    | exact rfl
    | (refine (?_ : _ = true); dsimp only [List.all]; exact rfl)
    | with_reducible exact Wr.refl _ _
    | with_reducible assumption
    | with_reducible apply State.inc_wr
    | with_reducible apply State.set_wr
    | with_reducible apply Wr.of_keep (f := 65600) (State.memPut_keep (m := 65600) _ _ _ rfl (Keep.refl _ _)) rfl
    | with_reducible apply Wr.ite <;> intro _
    | with_reducible apply Wr.foldl <;> try intro _ _ _
    | with_reducible apply Wr.foldl_snd <;> try intro _ _ _
    | with_reducible refine Wr.of_snd ‹_ = (_, _)› ?_
    | with_reducible refine Wr.of_snd2 ‹_ = (_, _, _)› ?_
    | with_reducible apply Wr.of_id
    | split
    | dsimp only

theorem State.flowAge_wr {m : Nat} {s0 : State} (s : State) (a1 : _) (hm : subMask 0x400000020000000000000000000000000000000000000000000000000000000000000000000 m = true) (h : Wr m s0 s) : Wr m s0 (State.flowAge s a1) := by
  refine Wr.lift (f := 0x400000020000000000000000000000000000000000000000000000000000000000000000000) ?_ hm h
  unfold State.flowAge
  repeat' first
    | exact rfl
    | (refine (?_ : _ = true); dsimp only [List.all]; exact rfl)
    | with_reducible exact Wr.refl _ _
    | with_reducible assumption
    | with_reducible apply Wr.of_keep (f := 33620032) (State.flowDrop_keep (m := 33620032) _ _ rfl (Keep.refl _ _)) rfl
    | with_reducible apply State.flowExport_wr
    | with_reducible apply Wr.ite <;> intro _
    | with_reducible apply Wr.foldl <;> try intro _ _ _
    | with_reducible apply Wr.foldl_snd <;> try intro _ _ _
    | with_reducible refine Wr.of_snd ‹_ = (_, _)› ?_
    | with_reducible refine Wr.of_snd2 ‹_ = (_, _, _)› ?_
    | with_reducible apply Wr.of_id
    | split
    | dsimp only

end Sys2Proof.Machine
end

