-- ==== Sys2Proof/Laws/WrTmgTbl.lean ====
section
/-! SUPPORT. The registers that each operation of Machine/TmgTbl.lean may change. -/

set_option Elab.async false

namespace Sys2Proof.Machine

theorem State.tmOp_wr {m : Nat} {s0 : State} (s : State) (a1 : _) (hm : subMask 0x1800000000000000000000000000000000000000000000000000000000000000000000000000000000 m = true) (h : Wr m s0 s) : Wr m s0 (State.tmOp s a1) := by
  refine Wr.lift (f := 0x1800000000000000000000000000000000000000000000000000000000000000000000000000000000) ?_ hm h
  unfold State.tmOp
  repeat' first
    | exact rfl
    | (refine (?_ : _ = true); dsimp only [List.all]; exact rfl)
    | with_reducible exact Wr.refl _ _
    | with_reducible assumption
    | with_reducible apply State.commit_wr
    | with_reducible apply State.setReg_wr
    | with_reducible apply Wr.of_keep (f := 67108864) (State.bktFill_keep (m := 67108864) _ _ _ rfl (Keep.refl _ _)) rfl
    | with_reducible apply Wr.of_keep (f := 67108864) (State.setTmTbl_keep (m := 67108864) _ _ _ _ rfl (Keep.refl _ _)) rfl
    | with_reducible apply Wr.of_keep (f := 67108864) (State.tmUpd_keep (m := 67108864) _ _ rfl (Keep.refl _ _)) rfl
    | with_reducible apply Wr.ite <;> intro _
    | with_reducible apply Wr.foldl <;> try intro _ _ _
    | with_reducible apply Wr.foldl_snd <;> try intro _ _ _
    | with_reducible refine Wr.of_snd ‹_ = (_, _)› ?_
    | with_reducible refine Wr.of_snd2 ‹_ = (_, _, _)› ?_
    | with_reducible apply Wr.of_id
    | split
    | dsimp only

theorem State.tmAdmit_wr {m : Nat} {s0 : State} (s : State) (a1 : _) (hm : subMask 0x4000000000000000000000001f80000000000000000000000000000000000000000000000000000000000000000000000000000000000 m = true) (h : Wr m s0 s) : Wr m s0 (State.tmAdmit s a1) := by
  refine Wr.lift (f := 0x4000000000000000000000001f80000000000000000000000000000000000000000000000000000000000000000000000000000000000) ?_ hm h
  unfold State.tmAdmit
  repeat' first
    | exact rfl
    | (refine (?_ : _ = true); dsimp only [List.all]; exact rfl)
    | with_reducible exact Wr.refl _ _
    | with_reducible assumption
    | with_reducible apply State.inc_wr
    | with_reducible apply Wr.of_keep (f := 67108864) (State.tmMeter_keep (m := 67108864) _ _ rfl (Keep.refl _ _)) rfl
    | with_reducible apply Wr.of_keep (f := 67108864) (State.tmUpd_keep (m := 67108864) _ _ rfl (Keep.refl _ _)) rfl
    | with_reducible apply State.bufAlloc_wr
    | with_reducible apply Wr.of_keep (f := 67109136) (State.tmHigh_keep (m := 67109136) _ rfl (Keep.refl _ _)) rfl
    | with_reducible apply Wr.of_keep (f := 67108864) (State.svcSee_keep (m := 67108864) _ _ rfl (Keep.refl _ _)) rfl
    | with_reducible apply Wr.of_keep (f := 65600) (State.memPut_keep (m := 65600) _ _ _ rfl (Keep.refl _ _)) rfl
    | with_reducible apply Wr.of_keep (f := 67108864) (State.svcSync_keep (m := 67108864) _ _ rfl (Keep.refl _ _)) rfl
    | with_reducible apply Wr.ite <;> intro _
    | with_reducible apply Wr.foldl <;> try intro _ _ _
    | with_reducible apply Wr.foldl_snd <;> try intro _ _ _
    | with_reducible refine Wr.of_snd ‹_ = (_, _)› ?_
    | with_reducible refine Wr.of_snd2 ‹_ = (_, _, _)› ?_
    | with_reducible apply Wr.of_id
    | split
    | dsimp only

end Sys2Proof.Machine
end

