-- ==== Sys2Proof/Laws/WrFlw.lean ====
section
/-! SUPPORT. The registers that each operation of Machine/Flw.lean may change. -/

set_option Elab.async false

namespace Sys2Proof.Machine

theorem State.pkRelease_wr {m : Nat} {s0 : State} (a0 : _) (a1 : _) (s : State) (hm : subMask 0x4000000000000000000000001f80000000000000000000000000000000000000000000000000000000000000000000000000000000000 m = true) (h : Wr m s0 s) : Wr m s0 (State.pkRelease a0 a1 s) := by
  induction a0 generalizing a1 s with
  | nil => unfold State.pkRelease; exact h
  | cons b t ih =>
    unfold State.pkRelease
    repeat' first
      | exact rfl
      | (refine (?_ : _ = true); dsimp only [List.all]; exact rfl)
      | exact subMask_trans rfl hm
      | with_reducible apply ih
      | with_reducible exact Wr.refl _ _
      | with_reducible assumption
      | with_reducible apply Wr.ite <;> intro _
      | with_reducible apply Wr.foldl <;> try intro _ _ _
      | with_reducible apply Wr.foldl_snd <;> try intro _ _ _
      | with_reducible apply State.tmAdmit_wr
      | with_reducible apply Wr.of_keep (f := 33554432) (State.pkUpd_keep (m := 33554432) _ _ rfl (Keep.refl _ _)) rfl
      | with_reducible refine Wr.of_snd ‹_ = (_, _)› ?_
      | with_reducible refine Wr.of_snd2 ‹_ = (_, _, _)› ?_
      | with_reducible apply Wr.of_id
      | split
      | dsimp only

theorem State.pkDone_wr {m : Nat} {s0 : State} (s : State) (a1 : _) (a2 : _) (hm : subMask 0x4000000000000000000000001f80000000000000000000000000000000000000000000000000000000000000000000000000000000000 m = true) (h : Wr m s0 s) : Wr m s0 (State.pkDone s a1 a2) := by
  refine Wr.lift (f := 0x4000000000000000000000001f80000000000000000000000000000000000000000000000000000000000000000000000000000000000) ?_ hm h
  unfold State.pkDone
  repeat' first
    | exact rfl
    | (refine (?_ : _ = true); dsimp only [List.all]; exact rfl)
    | with_reducible exact Wr.refl _ _
    | with_reducible assumption
    | with_reducible apply Wr.of_keep (f := 33554432) (State.pkUpd_keep (m := 33554432) _ _ rfl (Keep.refl _ _)) rfl
    | with_reducible apply State.tmAdmit_wr
    | with_reducible apply State.pkRelease_wr
    | with_reducible apply Wr.ite <;> intro _
    | with_reducible apply Wr.foldl <;> try intro _ _ _
    | with_reducible apply Wr.foldl_snd <;> try intro _ _ _
    | with_reducible refine Wr.of_snd ‹_ = (_, _)› ?_
    | with_reducible refine Wr.of_snd2 ‹_ = (_, _, _)› ?_
    | with_reducible apply Wr.of_id
    | split
    | dsimp only

theorem State.espOut_wr {m : Nat} {s0 : State} (s : State) (a1 : _) (a2 : _) (a3 : _) (a4 : _) (hm : subMask 0x10000000000000000000000000000000000000000000080000000000000000000000000000000000000000000000000000000000000000000000000 m = true) (h : Wr m s0 s) : Wr m s0 (State.espOut s a1 a2 a3 a4).2 := by
  refine Wr.lift (f := 0x10000000000000000000000000000000000000000000080000000000000000000000000000000000000000000000000000000000000000000000000) ?_ hm h
  unfold State.espOut
  repeat' first
    | exact rfl
    | (refine (?_ : _ = true); dsimp only [List.all]; exact rfl)
    | with_reducible exact Wr.refl _ _
    | with_reducible assumption
    | with_reducible apply State.inc_wr
    | with_reducible apply Wr.of_keep (f := 272) (State.raise_keep (m := 272) _ _ rfl (Keep.refl _ _)) rfl
    | with_reducible apply State.useKey_wr
    | with_reducible apply Wr.of_keep (f := 33554432) (State.setFent_keep (m := 33554432) _ _ _ _ _ rfl (Keep.refl _ _)) rfl
    | with_reducible apply Wr.ite <;> intro _
    | with_reducible apply Wr.foldl <;> try intro _ _ _
    | with_reducible apply Wr.foldl_snd <;> try intro _ _ _
    | (rewrite [State.mk_eq_updOf]; with_reducible refine Wr.node rfl rfl rfl ?_)
    | with_reducible refine Wr.of_snd ‹_ = (_, _)› ?_
    | with_reducible refine Wr.of_snd2 ‹_ = (_, _, _)› ?_
    | with_reducible apply Wr.of_id
    | split
    | dsimp only

theorem State.encap_wr {m : Nat} {s0 : State} (s : State) (a1 : _) (a2 : _) (a3 : _) (a4 : _) (a5 : _) (a6 : _) (hm : subMask 0x10000000000000000000000000000000000000000000080000000000000000000000000000000000000000000000000000000000000000000000000 m = true) (h : Wr m s0 s) : Wr m s0 (State.encap s a1 a2 a3 a4 a5 a6).2 := by
  refine Wr.lift (f := 0x10000000000000000000000000000000000000000000080000000000000000000000000000000000000000000000000000000000000000000000000) ?_ hm h
  unfold State.encap
  repeat' first
    | exact rfl
    | (refine (?_ : _ = true); dsimp only [List.all]; exact rfl)
    | with_reducible exact Wr.refl _ _
    | with_reducible assumption
    | with_reducible apply State.espOut_wr
    | with_reducible apply Wr.ite <;> intro _
    | with_reducible apply Wr.foldl <;> try intro _ _ _
    | with_reducible apply Wr.foldl_snd <;> try intro _ _ _
    | (rewrite [State.mk_eq_updOf]; with_reducible refine Wr.node rfl rfl rfl ?_)
    | with_reducible refine Wr.of_snd ‹_ = (_, _)› ?_
    | with_reducible refine Wr.of_snd2 ‹_ = (_, _, _)› ?_
    | with_reducible apply Wr.of_id
    | split
    | dsimp only

theorem State.egress_wr {m : Nat} {s0 : State} (s : State) (a1 : _) (a2 : _) (a3 : _) (a4 : _) (a5 : _) (hm : subMask 0x200000800000000000000000000000000000000000000000000000000000000000000000000000 m = true) (h : Wr m s0 s) : Wr m s0 (State.egress s a1 a2 a3 a4 a5).2 := by
  refine Wr.lift (f := 0x200000800000000000000000000000000000000000000000000000000000000000000000000000) ?_ hm h
  unfold State.egress
  repeat' first
    | exact rfl
    | (refine (?_ : _ = true); dsimp only [List.all]; exact rfl)
    | with_reducible exact Wr.refl _ _
    | with_reducible assumption
    | with_reducible apply State.inc_wr
    | with_reducible apply Wr.ite <;> intro _
    | with_reducible apply Wr.foldl <;> try intro _ _ _
    | with_reducible apply Wr.foldl_snd <;> try intro _ _ _
    | with_reducible refine Wr.of_snd ‹_ = (_, _)› ?_
    | with_reducible refine Wr.of_snd2 ‹_ = (_, _, _)› ?_
    | with_reducible apply Wr.of_id
    | split
    | dsimp only

theorem State.tunnelOut_wr {m : Nat} {s0 : State} (s : State) (a1 : _) (a2 : _) (a3 : _) (a4 : _) (a5 : _) (a6 : _) (a7 : _) (hm : subMask 0x10000000000000000000000000000000000000000200080800000000000000000000000000000000000000000000000000000000000000000000000 m = true) (h : Wr m s0 s) : Wr m s0 (State.tunnelOut s a1 a2 a3 a4 a5 a6 a7).2 := by
  refine Wr.lift (f := 0x10000000000000000000000000000000000000000200080800000000000000000000000000000000000000000000000000000000000000000000000) ?_ hm h
  unfold State.tunnelOut
  repeat' first
    | exact rfl
    | (refine (?_ : _ = true); dsimp only [List.all]; exact rfl)
    | with_reducible exact Wr.refl _ _
    | with_reducible assumption
    | with_reducible apply State.encap_wr
    | with_reducible apply State.egress_wr
    | with_reducible apply Wr.ite <;> intro _
    | with_reducible apply Wr.foldl <;> try intro _ _ _
    | with_reducible apply Wr.foldl_snd <;> try intro _ _ _
    | with_reducible refine Wr.of_snd ‹_ = (_, _)› ?_
    | with_reducible refine Wr.of_snd2 ‹_ = (_, _, _)› ?_
    | with_reducible apply Wr.of_id
    | split
    | dsimp only

theorem State.l2Learn_wr {m : Nat} {s0 : State} (s : State) (a1 : _) (hm : subMask 0x300000000000000000000000000000000000000000000000000000000000000000000000000 m = true) (h : Wr m s0 s) : Wr m s0 (State.l2Learn s a1).2 := by
  refine Wr.lift (f := 0x300000000000000000000000000000000000000000000000000000000000000000000000000) ?_ hm h
  unfold State.l2Learn
  repeat' first
    | exact rfl
    | (refine (?_ : _ = true); dsimp only [List.all]; exact rfl)
    | with_reducible exact Wr.refl _ _
    | with_reducible assumption
    | with_reducible apply Wr.of_keep (f := 33554432) (State.setFent_keep (m := 33554432) _ _ _ _ _ rfl (Keep.refl _ _)) rfl
    | with_reducible apply State.inc_wr
    | with_reducible apply Wr.ite <;> intro _
    | with_reducible apply Wr.foldl <;> try intro _ _ _
    | with_reducible apply Wr.foldl_snd <;> try intro _ _ _
    | with_reducible refine Wr.of_snd ‹_ = (_, _)› ?_
    | with_reducible refine Wr.of_snd2 ‹_ = (_, _, _)› ?_
    | with_reducible apply Wr.of_id
    | split
    | dsimp only

theorem State.bridge_wr {m : Nat} {s0 : State} (s : State) (a1 : _) (a2 : _) (hm : subMask 0x300200000000000000000000000000000000000000000000000000000000000000000000000 m = true) (h : Wr m s0 s) : Wr m s0 (State.bridge s a1 a2).2 := by
  refine Wr.lift (f := 0x300200000000000000000000000000000000000000000000000000000000000000000000000) ?_ hm h
  unfold State.bridge
  repeat' first
    | exact rfl
    | (refine (?_ : _ = true); dsimp only [List.all]; exact rfl)
    | with_reducible exact Wr.refl _ _
    | with_reducible assumption
    | with_reducible apply State.inc_wr
    | with_reducible apply State.l2Learn_wr
    | with_reducible apply Wr.ite <;> intro _
    | with_reducible apply Wr.foldl <;> try intro _ _ _
    | with_reducible apply Wr.foldl_snd <;> try intro _ _ _
    | with_reducible refine Wr.of_snd ‹_ = (_, _)› ?_
    | with_reducible refine Wr.of_snd2 ‹_ = (_, _, _)› ?_
    | with_reducible apply Wr.of_id
    | split
    | dsimp only

theorem State.routePkt_wr {m : Nat} {s0 : State} (s : State) (a1 : _) (a2 : _) (a3 : _) (hm : subMask 0x600000000000000000000000000000000000000000000000000000000000000000000000 m = true) (h : Wr m s0 s) : Wr m s0 (State.routePkt s a1 a2 a3).2 := by
  refine Wr.lift (f := 0x600000000000000000000000000000000000000000000000000000000000000000000000) ?_ hm h
  unfold State.routePkt
  repeat' first
    | exact rfl
    | (refine (?_ : _ = true); dsimp only [List.all]; exact rfl)
    | with_reducible exact Wr.refl _ _
    | with_reducible assumption
    | with_reducible apply State.inc_wr
    | with_reducible apply Wr.ite <;> intro _
    | with_reducible apply Wr.foldl <;> try intro _ _ _
    | with_reducible apply Wr.foldl_snd <;> try intro _ _ _
    | with_reducible refine Wr.of_snd ‹_ = (_, _)› ?_
    | with_reducible refine Wr.of_snd2 ‹_ = (_, _, _)› ?_
    | with_reducible apply Wr.of_id
    | split
    | dsimp only

theorem State.forward_wr {m : Nat} {s0 : State} (s : State) (a1 : _) (a2 : _) (a3 : _) (hm : subMask 0x300600000000000000000000000000000000000000000000000000000000000000000000000 m = true) (h : Wr m s0 s) : Wr m s0 (State.forward s a1 a2 a3).2 := by
  refine Wr.lift (f := 0x300600000000000000000000000000000000000000000000000000000000000000000000000) ?_ hm h
  unfold State.forward
  repeat' first
    | exact rfl
    | (refine (?_ : _ = true); dsimp only [List.all]; exact rfl)
    | with_reducible exact Wr.refl _ _
    | with_reducible assumption
    | with_reducible apply State.routePkt_wr
    | with_reducible apply State.bridge_wr
    | with_reducible apply Wr.ite <;> intro _
    | with_reducible apply Wr.foldl <;> try intro _ _ _
    | with_reducible apply Wr.foldl_snd <;> try intro _ _ _
    | with_reducible refine Wr.of_snd ‹_ = (_, _)› ?_
    | with_reducible refine Wr.of_snd2 ‹_ = (_, _, _)› ?_
    | with_reducible apply Wr.of_id
    | split
    | dsimp only

theorem State.sendOut_wr {m : Nat} {s0 : State} (s : State) (a1 : _) (a2 : _) (a3 : _) (a4 : _) (a5 : _) (hm : subMask 0x10000000000000000000000000000000000000000200080800000000000000000000000000000000000000000000000000000000000000000000000 m = true) (h : Wr m s0 s) : Wr m s0 (State.sendOut s a1 a2 a3 a4 a5).2 := by
  refine Wr.lift (f := 0x10000000000000000000000000000000000000000200080800000000000000000000000000000000000000000000000000000000000000000000000) ?_ hm h
  unfold State.sendOut
  repeat' first
    | exact rfl
    | (refine (?_ : _ = true); dsimp only [List.all]; exact rfl)
    | with_reducible exact Wr.refl _ _
    | with_reducible assumption
    | with_reducible apply State.egress_wr
    | with_reducible apply State.tunnelOut_wr
    | with_reducible apply Wr.ite <;> intro _
    | with_reducible apply Wr.foldl <;> try intro _ _ _
    | with_reducible apply Wr.foldl_snd <;> try intro _ _ _
    | with_reducible refine Wr.of_snd ‹_ = (_, _)› ?_
    | with_reducible refine Wr.of_snd2 ‹_ = (_, _, _)› ?_
    | with_reducible apply Wr.of_id
    | split
    | dsimp only

theorem State.flowLearn_wr {m : Nat} {s0 : State} (s : State) (a1 : _) (a2 : _) (a3 : _) (a4 : _) (hm : subMask 0x1c000000000000000000000000000000000000000000000000000000000000000000000000 m = true) (h : Wr m s0 s) : Wr m s0 (State.flowLearn s a1 a2 a3 a4).2 := by
  refine Wr.lift (f := 0x1c000000000000000000000000000000000000000000000000000000000000000000000000) ?_ hm h
  unfold State.flowLearn
  repeat' first
    | exact rfl
    | (refine (?_ : _ = true); dsimp only [List.all]; exact rfl)
    | with_reducible exact Wr.refl _ _
    | with_reducible assumption
    | with_reducible apply State.inc_wr
    | with_reducible apply Wr.of_keep (f := 33554704) (State.pkMark_keep (m := 33554704) _ _ _ rfl (Keep.refl _ _)) rfl
    | with_reducible apply Wr.of_keep (f := 33620032) (State.flowPair_keep (m := 33620032) _ _ _ (by assumption) rfl (Keep.refl _ _)) rfl
    | with_reducible apply Wr.of_keep (f := 33554432) (State.pkUpd_keep (m := 33554432) _ _ rfl (Keep.refl _ _)) rfl
    | with_reducible apply Wr.ite <;> intro _
    | with_reducible apply Wr.foldl <;> try intro _ _ _
    | with_reducible apply Wr.foldl_snd <;> try intro _ _ _
    | with_reducible refine Wr.of_snd ‹_ = (_, _)› ?_
    | with_reducible refine Wr.of_snd2 ‹_ = (_, _, _)› ?_
    | with_reducible apply Wr.of_id
    | split
    | dsimp only

theorem State.pkPermit_wr {m : Nat} {s0 : State} (s : State) (a1 : _) (a2 : _) (a3 : _) (a4 : _) (a5 : _) (a6 : _) (a7 : _) (hm : subMask 0x10000000004000000000000000000000001f8000020039de00000000000000000000000000000000000000000000000000000000000000000000000 m = true) (h : Wr m s0 s) : Wr m s0 (State.pkPermit s a1 a2 a3 a4 a5 a6 a7) := by
  refine Wr.lift (f := 0x10000000004000000000000000000000001f8000020039de00000000000000000000000000000000000000000000000000000000000000000000000) ?_ hm h
  unfold State.pkPermit
  repeat' first
    | exact rfl
    | (refine (?_ : _ = true); dsimp only [List.all]; exact rfl)
    | with_reducible exact Wr.refl _ _
    | with_reducible assumption
    | with_reducible apply State.sendOut_wr
    | with_reducible apply State.pkDone_wr
    | with_reducible apply Wr.of_keep (f := 33554432) (State.setFent_keep (m := 33554432) _ _ _ _ _ rfl (Keep.refl _ _)) rfl
    | with_reducible apply State.inc_wr
    | with_reducible apply State.flowLearn_wr
    | with_reducible apply State.forward_wr
    | with_reducible apply Wr.ite <;> intro _
    | with_reducible apply Wr.foldl <;> try intro _ _ _
    | with_reducible apply Wr.foldl_snd <;> try intro _ _ _
    | with_reducible refine Wr.of_snd ‹_ = (_, _)› ?_
    | with_reducible refine Wr.of_snd2 ‹_ = (_, _, _)› ?_
    | with_reducible apply Wr.of_id
    | split
    | dsimp only

theorem State.pkDecide_wr {m : Nat} {s0 : State} (s : State) (a1 : _) (a2 : _) (a3 : _) (a4 : _) (hm : subMask 0x10000000004000000000000000000000001f8000020039de00000000000000000000000000000000000000000000000000000000000000000000000 m = true) (h : Wr m s0 s) : Wr m s0 (State.pkDecide s a1 a2 a3 a4) := by
  refine Wr.lift (f := 0x10000000004000000000000000000000001f8000020039de00000000000000000000000000000000000000000000000000000000000000000000000) ?_ hm h
  unfold State.pkDecide
  repeat' first
    | exact rfl
    | (refine (?_ : _ = true); dsimp only [List.all]; exact rfl)
    | with_reducible exact Wr.refl _ _
    | with_reducible assumption
    | with_reducible apply Wr.of_keep (f := 33620032) (State.flowHit_keep (m := 33620032) _ _ _ _ rfl (Keep.refl _ _)) rfl
    | with_reducible apply State.forward_wr
    | with_reducible apply State.pkDone_wr
    | with_reducible apply State.pkPermit_wr
    | with_reducible apply Wr.ite <;> intro _
    | with_reducible apply Wr.foldl <;> try intro _ _ _
    | with_reducible apply Wr.foldl_snd <;> try intro _ _ _
    | with_reducible refine Wr.of_snd ‹_ = (_, _)› ?_
    | with_reducible refine Wr.of_snd2 ‹_ = (_, _, _)› ?_
    | with_reducible apply Wr.of_id
    | split
    | dsimp only

theorem State.pkLookup_wr {m : Nat} {s0 : State} (s : State) (a1 : _) (a2 : _) (hm : subMask 0x10000000004000000000000000000000001f8000020039fe00000000000000000000000000000000000000000000000000000000000000000000000 m = true) (h : Wr m s0 s) : Wr m s0 (State.pkLookup s a1 a2) := by
  refine Wr.lift (f := 0x10000000004000000000000000000000001f8000020039fe00000000000000000000000000000000000000000000000000000000000000000000000) ?_ hm h
  unfold State.pkLookup
  repeat' first
    | exact rfl
    | (refine (?_ : _ = true); dsimp only [List.all]; exact rfl)
    | with_reducible exact Wr.refl _ _
    | with_reducible assumption
    | with_reducible apply State.pkDecide_wr
    | with_reducible apply Wr.of_keep (f := 33554432) (State.pkUpd_keep (m := 33554432) _ _ rfl (Keep.refl _ _)) rfl
    | with_reducible apply State.pkDone_wr
    | with_reducible apply State.inc_wr
    | with_reducible apply Wr.of_keep (f := 272) (State.raise_keep (m := 272) _ _ rfl (Keep.refl _ _)) rfl
    | with_reducible apply Wr.of_keep (f := 33554432) (State.pkSet_keep (m := 33554432) _ _ rfl (Keep.refl _ _)) rfl
    | with_reducible apply Wr.ite <;> intro _
    | with_reducible apply Wr.foldl <;> try intro _ _ _
    | with_reducible apply Wr.foldl_snd <;> try intro _ _ _
    | with_reducible refine Wr.of_snd ‹_ = (_, _)› ?_
    | with_reducible refine Wr.of_snd2 ‹_ = (_, _, _)› ?_
    | with_reducible apply Wr.of_id
    | split
    | dsimp only

theorem State.pkMalformed_wr {m : Nat} {s0 : State} (s : State) (a1 : _) (a2 : _) (a3 : _) (hm : subMask 0x10000000004000000000000000000000001f80000200380a00000000800000000000000000000000000000000000000000000000000000000000000 m = true) (h : Wr m s0 s) : Wr m s0 (State.pkMalformed s a1 a2 a3) := by
  refine Wr.lift (f := 0x10000000004000000000000000000000001f80000200380a00000000800000000000000000000000000000000000000000000000000000000000000) ?_ hm h
  unfold State.pkMalformed
  repeat' first
    | exact rfl
    | (refine (?_ : _ = true); dsimp only [List.all]; exact rfl)
    | with_reducible exact Wr.refl _ _
    | with_reducible assumption
    | with_reducible apply Wr.of_keep (f := 33554704) (State.pkMark_keep (m := 33554704) _ _ _ rfl (Keep.refl _ _)) rfl
    | with_reducible apply State.inc_wr
    | with_reducible apply State.pkDone_wr
    | with_reducible apply State.bridge_wr
    | with_reducible apply State.sendOut_wr
    | with_reducible apply Wr.ite <;> intro _
    | with_reducible apply Wr.foldl <;> try intro _ _ _
    | with_reducible apply Wr.foldl_snd <;> try intro _ _ _
    | with_reducible refine Wr.of_snd ‹_ = (_, _)› ?_
    | with_reducible refine Wr.of_snd2 ‹_ = (_, _, _)› ?_
    | with_reducible apply Wr.of_id
    | split
    | dsimp only

theorem State.pkAgain_wr {m : Nat} {s0 : State} (s : State) (a1 : _) (a2 : _) (a3 : _) (hm : subMask 0x10000000004000000000000000000000001f80000200380a00000002800000000000000000000000000000000000000000000000000000000000000 m = true) (h : Wr m s0 s) : Wr m s0 (State.pkAgain s a1 a2 a3) := by
  refine Wr.lift (f := 0x10000000004000000000000000000000001f80000200380a00000002800000000000000000000000000000000000000000000000000000000000000) ?_ hm h
  unfold State.pkAgain
  repeat' first
    | exact rfl
    | (refine (?_ : _ = true); dsimp only [List.all]; exact rfl)
    | with_reducible exact Wr.refl _ _
    | with_reducible assumption
    | with_reducible apply State.pkMalformed_wr
    | with_reducible apply Wr.of_keep (f := 33554432) (State.pkSet_keep (m := 33554432) _ _ rfl (Keep.refl _ _)) rfl
    | with_reducible apply State.inc_wr
    | with_reducible apply Wr.ite <;> intro _
    | with_reducible apply Wr.foldl <;> try intro _ _ _
    | with_reducible apply Wr.foldl_snd <;> try intro _ _ _
    | with_reducible refine Wr.of_snd ‹_ = (_, _)› ?_
    | with_reducible refine Wr.of_snd2 ‹_ = (_, _, _)› ?_
    | with_reducible apply Wr.of_id
    | split
    | dsimp only

theorem State.espIn_wr {m : Nat} {s0 : State} (s : State) (a1 : _) (a2 : _) (a3 : _) (hm : subMask 0x10000000004000000000000000000000001f800002003e0a00000002800000000000000000000000000000000000000000000000000000000000000 m = true) (h : Wr m s0 s) : Wr m s0 (State.espIn s a1 a2 a3) := by
  refine Wr.lift (f := 0x10000000004000000000000000000000001f800002003e0a00000002800000000000000000000000000000000000000000000000000000000000000) ?_ hm h
  unfold State.espIn
  repeat' first
    | exact rfl
    | (refine (?_ : _ = true); dsimp only [List.all]; exact rfl)
    | with_reducible exact Wr.refl _ _
    | with_reducible assumption
    | with_reducible apply State.pkDone_wr
    | with_reducible apply State.inc_wr
    | with_reducible apply State.useKey_wr
    | with_reducible apply Wr.of_keep (f := 33554704) (State.pkMark_keep (m := 33554704) _ _ _ rfl (Keep.refl _ _)) rfl
    | with_reducible apply Wr.of_keep (f := 33554432) (State.pkUpd_keep (m := 33554432) _ _ rfl (Keep.refl _ _)) rfl
    | with_reducible apply Wr.of_keep (f := 33554432) (State.setFent_keep (m := 33554432) _ _ _ _ _ rfl (Keep.refl _ _)) rfl
    | with_reducible apply State.pkAgain_wr
    | with_reducible apply Wr.ite <;> intro _
    | with_reducible apply Wr.foldl <;> try intro _ _ _
    | with_reducible apply Wr.foldl_snd <;> try intro _ _ _
    | with_reducible refine Wr.of_snd ‹_ = (_, _)› ?_
    | with_reducible refine Wr.of_snd2 ‹_ = (_, _, _)› ?_
    | with_reducible apply Wr.of_id
    | split
    | dsimp only

theorem State.pkTerm_wr {m : Nat} {s0 : State} (s : State) (a1 : _) (a2 : _) (a3 : _) (hm : subMask 0x10000000004000000000000000000000001f800002003e0a00000002800000000000000000000000000000000000000000000000000000000000000 m = true) (h : Wr m s0 s) : Wr m s0 (State.pkTerm s a1 a2 a3) := by
  refine Wr.lift (f := 0x10000000004000000000000000000000001f800002003e0a00000002800000000000000000000000000000000000000000000000000000000000000) ?_ hm h
  unfold State.pkTerm
  repeat' first
    | exact rfl
    | (refine (?_ : _ = true); dsimp only [List.all]; exact rfl)
    | with_reducible exact Wr.refl _ _
    | with_reducible assumption
    | with_reducible apply State.pkDone_wr
    | with_reducible apply State.inc_wr
    | with_reducible apply State.pkAgain_wr
    | with_reducible apply State.espIn_wr
    | with_reducible apply Wr.ite <;> intro _
    | with_reducible apply Wr.foldl <;> try intro _ _ _
    | with_reducible apply Wr.foldl_snd <;> try intro _ _ _
    | with_reducible refine Wr.of_snd ‹_ = (_, _)› ?_
    | with_reducible refine Wr.of_snd2 ‹_ = (_, _, _)› ?_
    | with_reducible apply Wr.of_id
    | split
    | dsimp only

theorem State.pkPassEnd_wr {m : Nat} {s0 : State} (s : State) (a1 : _) (hm : subMask 0x10000000004000000000000000000000001f800002003ffe00000002800000000000000000000000000000000000000000000000000000000000000 m = true) (h : Wr m s0 s) : Wr m s0 (State.pkPassEnd s a1) := by
  refine Wr.lift (f := 0x10000000004000000000000000000000001f800002003ffe00000002800000000000000000000000000000000000000000000000000000000000000) ?_ hm h
  unfold State.pkPassEnd
  repeat' first
    | exact rfl
    | (refine (?_ : _ = true); dsimp only [List.all]; exact rfl)
    | with_reducible exact Wr.refl _ _
    | with_reducible assumption
    | with_reducible apply State.pkMalformed_wr
    | with_reducible apply State.pkAgain_wr
    | with_reducible apply State.pkDone_wr
    | with_reducible apply State.pkTerm_wr
    | with_reducible apply State.pkLookup_wr
    | with_reducible apply Wr.ite <;> intro _
    | with_reducible apply Wr.foldl <;> try intro _ _ _
    | with_reducible apply Wr.foldl_snd <;> try intro _ _ _
    | with_reducible refine Wr.of_snd ‹_ = (_, _)› ?_
    | with_reducible refine Wr.of_snd2 ‹_ = (_, _, _)› ?_
    | with_reducible apply Wr.of_id
    | split
    | dsimp only

end Sys2Proof.Machine
end

