-- ==== Sys2Proof/Laws/WrPrs.lean ====
section
/-! SUPPORT. The registers that each operation of Machine/Prs.lean may change. -/

set_option Elab.async false

namespace Sys2Proof.Machine

theorem State.msecIn_wr {m : Nat} {s0 : State} (s : State) (a1 : _) (a2 : _) (hm : subMask 0x10000000000000000000000000000000000000003c00000000000000000000000000000000000000000000000000000000000000000000000000000 m = true) (h : Wr m s0 s) : Wr m s0 (State.msecIn s a1 a2).2 := by
  refine Wr.lift (f := 0x10000000000000000000000000000000000000003c00000000000000000000000000000000000000000000000000000000000000000000000000000) ?_ hm h
  unfold State.msecIn
  repeat' first
    | exact rfl
    | (refine (?_ : _ = true); dsimp only [List.all]; exact rfl)
    | with_reducible exact Wr.refl _ _
    | with_reducible assumption
    | with_reducible apply State.inc_wr
    | with_reducible apply State.useKey_wr
    | with_reducible apply Wr.of_keep (f := 33554432) (State.setFent_keep (m := 33554432) _ _ _ _ _ rfl (Keep.refl _ _)) rfl
    | with_reducible apply Wr.of_keep (f := 33554704) (State.pkMark_keep (m := 33554704) _ _ _ rfl (Keep.refl _ _)) rfl
    | with_reducible apply Wr.ite <;> intro _
    | with_reducible apply Wr.foldl <;> try intro _ _ _
    | with_reducible apply Wr.foldl_snd <;> try intro _ _ _
    | with_reducible refine Wr.of_snd ‹_ = (_, _)› ?_
    | with_reducible refine Wr.of_snd2 ‹_ = (_, _, _)› ?_
    | with_reducible apply Wr.of_id
    | split
    | dsimp only

theorem execEthFrameReceive_wr (a0 : _) (a1 : _) (a2 : _) (a3 : _) (s : State) {t : State} (h : execEthFrameReceive a0 a1 a2 a3 s = .next t) : Wr 0x10000000000000000000000000000000000000003cf0000000000004000000000000000000000000000000000000000000000000000000000000000 s t := by
  unfold execEthFrameReceive at h
  injection h with h
  subst h
  repeat' first
    | exact rfl
    | (refine (?_ : _ = true); dsimp only [List.all]; exact rfl)
    | with_reducible exact Wr.refl _ _
    | with_reducible assumption
    | with_reducible apply State.inc_wr
    | with_reducible apply State.msecIn_wr
    | with_reducible apply Wr.of_keep (f := 67108864) (State.tmPause_keep (m := 67108864) _ _ _ rfl (Keep.refl _ _)) rfl
    | with_reducible apply State.ingress_wr
    | with_reducible apply Wr.ite <;> intro _
    | with_reducible apply Wr.foldl <;> try intro _ _ _
    | with_reducible apply Wr.foldl_snd <;> try intro _ _ _
    | with_reducible refine Wr.of_snd ‹_ = (_, _)› ?_
    | with_reducible refine Wr.of_snd2 ‹_ = (_, _, _)› ?_
    | with_reducible apply Wr.of_id
    | split
    | dsimp only

theorem execPassStart_wr (a0 : _) (s : State) {t : State} (h : execPassStart a0 s = .next t) : Wr 0x1000000000000000000000000000000000000000000000000000000000000000 s t := by
  unfold execPassStart at h
  injection h with h
  subst h
  repeat' first
    | exact rfl
    | (refine (?_ : _ = true); dsimp only [List.all]; exact rfl)
    | with_reducible exact Wr.refl _ _
    | with_reducible assumption
    | with_reducible apply Wr.of_keep (f := 33554432) (State.pkUpd_keep (m := 33554432) _ _ rfl (Keep.refl _ _)) rfl
    | with_reducible apply Wr.of_keep (f := 33554432) (State.pkSet_keep (m := 33554432) _ _ rfl (Keep.refl _ _)) rfl
    | with_reducible apply Wr.of_keep (f := 33554449) (State.ingPause_keep (m := 33554449) _ _ rfl (Keep.refl _ _)) rfl
    | with_reducible apply State.inc_wr
    | with_reducible apply Wr.ite <;> intro _
    | with_reducible apply Wr.foldl <;> try intro _ _ _
    | with_reducible apply Wr.foldl_snd <;> try intro _ _ _
    | with_reducible refine Wr.of_snd ‹_ = (_, _)› ?_
    | with_reducible refine Wr.of_snd2 ‹_ = (_, _, _)› ?_
    | with_reducible apply Wr.of_id
    | split
    | dsimp only

theorem execPassEnd_wr (a0 : _) (s : State) {t : State} (h : execPassEnd a0 s = .next t) : Wr 0x10000000004000000000000000000000001f800002003ffe00000002800000000000000000000000000000000000000000000000000000000000000 s t := by
  unfold execPassEnd at h
  injection h with h
  subst h
  repeat' first
    | exact rfl
    | (refine (?_ : _ = true); dsimp only [List.all]; exact rfl)
    | with_reducible exact Wr.refl _ _
    | with_reducible assumption
    | with_reducible apply State.pkPassEnd_wr
    | with_reducible apply Wr.ite <;> intro _
    | with_reducible apply Wr.foldl <;> try intro _ _ _
    | with_reducible apply Wr.foldl_snd <;> try intro _ _ _
    | with_reducible refine Wr.of_snd ‹_ = (_, _)› ?_
    | with_reducible refine Wr.of_snd2 ‹_ = (_, _, _)› ?_
    | with_reducible apply Wr.of_id
    | split
    | dsimp only

theorem execFlowBucketFetch_wr (a0 : _) (s : State) {t : State} (h : execFlowBucketFetch a0 s = .next t) : Wr 0xf000010000000504a00000000000000000000001f8000020039fe00000000000000000000000000000000000000000000000000000000000000000000000 s t := by
  unfold execFlowBucketFetch at h
  injection h with h
  subst h
  repeat' first
    | exact rfl
    | (refine (?_ : _ = true); dsimp only [List.all]; exact rfl)
    | with_reducible exact Wr.refl _ _
    | with_reducible assumption
    | with_reducible apply State.memRead_wr
    | with_reducible apply State.pkDecide_wr
    | with_reducible apply State.pkDone_wr
    | with_reducible apply State.inc_wr
    | with_reducible apply State.capture_wr
    | with_reducible apply Wr.ite <;> intro _
    | with_reducible apply Wr.foldl <;> try intro _ _ _
    | with_reducible apply Wr.foldl_snd <;> try intro _ _ _
    | with_reducible refine Wr.of_snd ‹_ = (_, _)› ?_
    | with_reducible refine Wr.of_snd2 ‹_ = (_, _, _)› ?_
    | with_reducible apply Wr.of_id
    | split
    | dsimp only

theorem wrFlw_FLW_TBL_CTL_wr {m : Nat} {s0 : State} (v : Word) (rq : Req) (s : State) (hm : subMask 0x600000000000000000000000000000000000000000000000000000000000000000000 m = true) (h : Wr m s0 s) : Wr m s0 (wrFlw .FLW_TBL_CTL [] v rq s) := by
  refine Wr.lift (f := 0x600000000000000000000000000000000000000000000000000000000000000000000) ?_ hm h
  unfold wrFlw
  repeat' first
    | exact rfl
    | (refine (?_ : _ = true); dsimp only [List.all]; exact rfl)
    | with_reducible exact Wr.refl _ _
    | with_reducible assumption
    | contradiction
    | with_reducible apply State.verOp_wr
    | with_reducible apply State.flwOp_wr
    | with_reducible apply Wr.of_keep (f := 65536) (State.bufFree_keep (m := 65536) _ _ rfl (Keep.refl _ _)) rfl
    | with_reducible apply storeWord_wr
    | with_reducible apply Wr.of_keep (f := 33554432) (State.pkUpd_keep (m := 33554432) _ _ rfl (Keep.refl _ _)) rfl
    | with_reducible apply Wr.ite <;> intro _
    | with_reducible apply Wr.foldl <;> try intro _ _ _
    | with_reducible apply Wr.foldl_snd <;> try intro _ _ _
    | with_reducible refine Wr.of_snd ‹_ = (_, _)› ?_
    | with_reducible refine Wr.of_snd2 ‹_ = (_, _, _)› ?_
    | with_reducible apply Wr.of_id
    | split
    | dsimp only

theorem wrFlw_FLW_SW_RX_FREE_wr {m : Nat} {s0 : State} (x0 : Nat) (v : Word) (rq : Req) (s : State) (hm : subMask 0 m = true) (h : Wr m s0 s) : Wr m s0 (wrFlw .FLW_SW_RX_FREE [x0] v rq s) := by
  refine Wr.lift (f := 0) ?_ hm h
  unfold wrFlw
  repeat' first
    | exact rfl
    | (refine (?_ : _ = true); dsimp only [List.all]; exact rfl)
    | with_reducible exact Wr.refl _ _
    | with_reducible assumption
    | contradiction
    | with_reducible apply State.verOp_wr
    | with_reducible apply State.flwOp_wr
    | with_reducible apply Wr.of_keep (f := 65536) (State.bufFree_keep (m := 65536) _ _ rfl (Keep.refl _ _)) rfl
    | with_reducible apply storeWord_wr
    | with_reducible apply Wr.of_keep (f := 33554432) (State.pkUpd_keep (m := 33554432) _ _ rfl (Keep.refl _ _)) rfl
    | with_reducible apply Wr.ite <;> intro _
    | with_reducible apply Wr.foldl <;> try intro _ _ _
    | with_reducible apply Wr.foldl_snd <;> try intro _ _ _
    | with_reducible refine Wr.of_snd ‹_ = (_, _)› ?_
    | with_reducible refine Wr.of_snd2 ‹_ = (_, _, _)› ?_
    | with_reducible apply Wr.of_id
    | split
    | dsimp only

theorem wrFlw_FLW_VER_CTL_wr {m : Nat} {s0 : State} (v : Word) (rq : Req) (s : State) (hm : subMask 0x1c00000000000000000000000000000000000000000000000000000000000000000 m = true) (h : Wr m s0 s) : Wr m s0 (wrFlw .FLW_VER_CTL [] v rq s) := by
  refine Wr.lift (f := 0x1c00000000000000000000000000000000000000000000000000000000000000000) ?_ hm h
  unfold wrFlw
  repeat' first
    | exact rfl
    | (refine (?_ : _ = true); dsimp only [List.all]; exact rfl)
    | with_reducible exact Wr.refl _ _
    | with_reducible assumption
    | contradiction
    | with_reducible apply State.verOp_wr
    | with_reducible apply State.flwOp_wr
    | with_reducible apply Wr.of_keep (f := 65536) (State.bufFree_keep (m := 65536) _ _ rfl (Keep.refl _ _)) rfl
    | with_reducible apply storeWord_wr
    | with_reducible apply Wr.of_keep (f := 33554432) (State.pkUpd_keep (m := 33554432) _ _ rfl (Keep.refl _ _)) rfl
    | with_reducible apply Wr.ite <;> intro _
    | with_reducible apply Wr.foldl <;> try intro _ _ _
    | with_reducible apply Wr.foldl_snd <;> try intro _ _ _
    | with_reducible refine Wr.of_snd ‹_ = (_, _)› ?_
    | with_reducible refine Wr.of_snd2 ‹_ = (_, _, _)› ?_
    | with_reducible apply Wr.of_id
    | split
    | dsimp only

theorem rdFlw_FLW_SW_TX_CPL_POP_wr {m : Nat} {s0 : State} (x0 : Nat) (rq : Req) (s : State) (hm : subMask 0 m = true) (h : Wr m s0 s) : Wr m s0 (rdFlw .FLW_SW_TX_CPL_POP [x0] rq s).2 := by
  refine Wr.lift (f := 0) ?_ hm h
  unfold rdFlw
  repeat' first
    | exact rfl
    | (refine (?_ : _ = true); dsimp only [List.all]; exact rfl)
    | with_reducible exact Wr.refl _ _
    | with_reducible assumption
    | contradiction
    | with_reducible apply Wr.of_keep (f := 33554432) (State.pkUpd_keep (m := 33554432) _ _ rfl (Keep.refl _ _)) rfl
    | with_reducible apply loadWord_wr
    | with_reducible apply Wr.ite <;> intro _
    | with_reducible apply Wr.foldl <;> try intro _ _ _
    | with_reducible apply Wr.foldl_snd <;> try intro _ _ _
    | with_reducible refine Wr.of_snd ‹_ = (_, _)› ?_
    | with_reducible refine Wr.of_snd2 ‹_ = (_, _, _)› ?_
    | with_reducible apply Wr.of_id
    | split
    | dsimp only

theorem execFlwVerCommit_wr (a0 : _) (s : State) {t : State} (h : execFlwVerCommit a0 s = .next t) : Wr 0x40000f000000000000000000000000000000000000000000000000000000001c00000000000000000000000000000000000000000000000000000000000000000 s t := by
  unfold execFlwVerCommit at h
  injection h with h
  subst h
  repeat' first
    | exact rfl
    | (refine (?_ : _ = true); dsimp only [List.all]; exact rfl)
    | with_reducible exact Wr.refl _ _
    | with_reducible assumption
    | with_reducible refine writeReg_wr (r0 := .FLW_VER_CTL) (show findReg (Reg.addr .FLW_VER_CTL []) = some (.FLW_VER_CTL, []) by decide +kernel) (fun _ _ => ?_) ?_ ?_
    | with_reducible apply wrFlw_FLW_VER_CTL_wr
    | with_reducible apply Wr.ite <;> intro _
    | with_reducible apply Wr.foldl <;> try intro _ _ _
    | with_reducible apply Wr.foldl_snd <;> try intro _ _ _
    | with_reducible refine Wr.of_snd ‹_ = (_, _)› ?_
    | with_reducible refine Wr.of_snd2 ‹_ = (_, _, _)› ?_
    | with_reducible apply Wr.of_id
    | split
    | dsimp only

theorem execFlwCopy_wr (a0 : _) (s : State) {t : State} (h : execFlwCopy a0 s = .next t) : Wr 0x40000f000000000000000000000000000000000000000000000000000000001c00000000000000000000000000000000000000000000000000000000000000000 s t := by
  unfold execFlwCopy at h
  injection h with h
  subst h
  repeat' first
    | exact rfl
    | (refine (?_ : _ = true); dsimp only [List.all]; exact rfl)
    | with_reducible exact Wr.refl _ _
    | with_reducible assumption
    | with_reducible refine writeReg_wr (r0 := .FLW_VER_CTL) (show findReg (Reg.addr .FLW_VER_CTL []) = some (.FLW_VER_CTL, []) by decide +kernel) (fun _ _ => ?_) ?_ ?_
    | with_reducible apply wrFlw_FLW_VER_CTL_wr
    | with_reducible apply Wr.ite <;> intro _
    | with_reducible apply Wr.foldl <;> try intro _ _ _
    | with_reducible apply Wr.foldl_snd <;> try intro _ _ _
    | with_reducible refine Wr.of_snd ‹_ = (_, _)› ?_
    | with_reducible refine Wr.of_snd2 ‹_ = (_, _, _)› ?_
    | with_reducible apply Wr.of_id
    | split
    | dsimp only

theorem execDrainEnd_wr (s : State) {t : State} (h : execDrainEnd s = .next t) : Wr 0x400000000000000000000000000000000000000000000000000000000000000000 s t := by
  unfold execDrainEnd at h
  injection h with h
  subst h
  repeat' first
    | exact rfl
    | (refine (?_ : _ = true); dsimp only [List.all]; exact rfl)
    | with_reducible exact Wr.refl _ _
    | with_reducible assumption
    | with_reducible apply State.verDone_wr
    | with_reducible apply Wr.of_keep (f := 33554432) (State.pkUpd_keep (m := 33554432) _ _ rfl (Keep.refl _ _)) rfl
    | with_reducible apply Wr.ite <;> intro _
    | with_reducible apply Wr.foldl <;> try intro _ _ _
    | with_reducible apply Wr.foldl_snd <;> try intro _ _ _
    | with_reducible refine Wr.of_snd ‹_ = (_, _)› ?_
    | with_reducible refine Wr.of_snd2 ‹_ = (_, _, _)› ?_
    | with_reducible apply Wr.of_id
    | split
    | dsimp only

theorem execFlwLoad_wr (a0 : _) (s : State) {t : State} (h : execFlwLoad a0 s = .next t) : Wr 0x40000f000000000000000000000000000000000000000000000000000000600000000000000000000000000000000000000000000000000000000000000000000 s t := by
  unfold execFlwLoad at h
  injection h with h
  subst h
  repeat' first
    | exact rfl
    | (refine (?_ : _ = true); dsimp only [List.all]; exact rfl)
    | with_reducible exact Wr.refl _ _
    | with_reducible assumption
    | with_reducible refine writeReg_wr (r0 := .FLW_TBL_CTL) (show findReg (Reg.addr .FLW_TBL_CTL []) = some (.FLW_TBL_CTL, []) by decide +kernel) (fun _ _ => ?_) ?_ ?_
    | with_reducible apply wrFlw_FLW_TBL_CTL_wr
    | with_reducible apply Wr.ite <;> intro _
    | with_reducible apply Wr.foldl <;> try intro _ _ _
    | with_reducible apply Wr.foldl_snd <;> try intro _ _ _
    | with_reducible refine Wr.of_snd ‹_ = (_, _)› ?_
    | with_reducible refine Wr.of_snd2 ‹_ = (_, _, _)› ?_
    | with_reducible apply Wr.of_id
    | split
    | dsimp only

theorem execFlwWrite_wr (a0 : _) (s : State) {t : State} (h : execFlwWrite a0 s = .next t) : Wr 0x40000f000000000000000000000000000000000000000000000000000000600000000000000000000000000000000000000000000000000000000000000000000 s t := by
  unfold execFlwWrite at h
  injection h with h
  subst h
  repeat' first
    | exact rfl
    | (refine (?_ : _ = true); dsimp only [List.all]; exact rfl)
    | with_reducible exact Wr.refl _ _
    | with_reducible assumption
    | with_reducible refine writeReg_wr (r0 := .FLW_TBL_CTL) (show findReg (Reg.addr .FLW_TBL_CTL []) = some (.FLW_TBL_CTL, []) by decide +kernel) (fun _ _ => ?_) ?_ ?_
    | with_reducible apply wrFlw_FLW_TBL_CTL_wr
    | with_reducible apply Wr.ite <;> intro _
    | with_reducible apply Wr.foldl <;> try intro _ _ _
    | with_reducible apply Wr.foldl_snd <;> try intro _ _ _
    | with_reducible refine Wr.of_snd ‹_ = (_, _)› ?_
    | with_reducible refine Wr.of_snd2 ‹_ = (_, _, _)› ?_
    | with_reducible apply Wr.of_id
    | split
    | dsimp only

theorem execFlwClear_wr (a0 : _) (s : State) {t : State} (h : execFlwClear a0 s = .next t) : Wr 0x40000f000000000000000000000000000000000000000000000000000000600000000000000000000000000000000000000000000000000000000000000000000 s t := by
  unfold execFlwClear at h
  injection h with h
  subst h
  repeat' first
    | exact rfl
    | (refine (?_ : _ = true); dsimp only [List.all]; exact rfl)
    | with_reducible exact Wr.refl _ _
    | with_reducible assumption
    | with_reducible refine writeReg_wr (r0 := .FLW_TBL_CTL) (show findReg (Reg.addr .FLW_TBL_CTL []) = some (.FLW_TBL_CTL, []) by decide +kernel) (fun _ _ => ?_) ?_ ?_
    | with_reducible apply wrFlw_FLW_TBL_CTL_wr
    | with_reducible apply Wr.ite <;> intro _
    | with_reducible apply Wr.foldl <;> try intro _ _ _
    | with_reducible apply Wr.foldl_snd <;> try intro _ _ _
    | with_reducible refine Wr.of_snd ‹_ = (_, _)› ?_
    | with_reducible refine Wr.of_snd2 ‹_ = (_, _, _)› ?_
    | with_reducible apply Wr.of_id
    | split
    | dsimp only

theorem execFlwInsert_wr (a0 : _) (s : State) {t : State} (h : execFlwInsert a0 s = .next t) : Wr 0x40000f000000000000000000000000000000000000000000000000000000600000000000000000000000000000000000000000000000000000000000000000000 s t := by
  unfold execFlwInsert at h
  injection h with h
  subst h
  repeat' first
    | exact rfl
    | (refine (?_ : _ = true); dsimp only [List.all]; exact rfl)
    | with_reducible exact Wr.refl _ _
    | with_reducible assumption
    | with_reducible refine writeReg_wr (r0 := .FLW_TBL_CTL) (show findReg (Reg.addr .FLW_TBL_CTL []) = some (.FLW_TBL_CTL, []) by decide +kernel) (fun _ _ => ?_) ?_ ?_
    | with_reducible apply wrFlw_FLW_TBL_CTL_wr
    | with_reducible apply Wr.ite <;> intro _
    | with_reducible apply Wr.foldl <;> try intro _ _ _
    | with_reducible apply Wr.foldl_snd <;> try intro _ _ _
    | with_reducible refine Wr.of_snd ‹_ = (_, _)› ?_
    | with_reducible refine Wr.of_snd2 ‹_ = (_, _, _)› ?_
    | with_reducible apply Wr.of_id
    | split
    | dsimp only

theorem execFlwDelete_wr (a0 : _) (s : State) {t : State} (h : execFlwDelete a0 s = .next t) : Wr 0x40000f000000000000000000000000000000000000000000000000000000600000000000000000000000000000000000000000000000000000000000000000000 s t := by
  unfold execFlwDelete at h
  injection h with h
  subst h
  repeat' first
    | exact rfl
    | (refine (?_ : _ = true); dsimp only [List.all]; exact rfl)
    | with_reducible exact Wr.refl _ _
    | with_reducible assumption
    | with_reducible refine writeReg_wr (r0 := .FLW_TBL_CTL) (show findReg (Reg.addr .FLW_TBL_CTL []) = some (.FLW_TBL_CTL, []) by decide +kernel) (fun _ _ => ?_) ?_ ?_
    | with_reducible apply wrFlw_FLW_TBL_CTL_wr
    | with_reducible apply Wr.ite <;> intro _
    | with_reducible apply Wr.foldl <;> try intro _ _ _
    | with_reducible apply Wr.foldl_snd <;> try intro _ _ _
    | with_reducible refine Wr.of_snd ‹_ = (_, _)› ?_
    | with_reducible refine Wr.of_snd2 ‹_ = (_, _, _)› ?_
    | with_reducible apply Wr.of_id
    | split
    | dsimp only

theorem execAgingScan_wr (s : State) {t : State} (h : execAgingScan s = .next t) : Wr 0x400000020000000000000000000000000000000000000000000000000000000000000000000 s t := by
  unfold execAgingScan at h
  injection h with h
  subst h
  repeat' first
    | exact rfl
    | (refine (?_ : _ = true); dsimp only [List.all]; exact rfl)
    | with_reducible exact Wr.refl _ _
    | with_reducible assumption
    | with_reducible apply State.flowAge_wr
    | with_reducible apply Wr.of_keep (f := 33554432) (State.l2Age_keep (m := 33554432) _ _ rfl (Keep.refl _ _)) rfl
    | with_reducible apply Wr.of_keep (f := 33554432) (State.pkUpd_keep (m := 33554432) _ _ rfl (Keep.refl _ _)) rfl
    | with_reducible apply Wr.ite <;> intro _
    | with_reducible apply Wr.foldl <;> try intro _ _ _
    | with_reducible apply Wr.foldl_snd <;> try intro _ _ _
    | with_reducible refine Wr.of_snd ‹_ = (_, _)› ?_
    | with_reducible refine Wr.of_snd2 ‹_ = (_, _, _)› ?_
    | with_reducible apply Wr.of_id
    | split
    | dsimp only

theorem State.swReceive_wr {m : Nat} {s0 : State} (s : State) (a1 : _) (a2 : _) (hm : subMask 0x800002000000000000000000000000000000000000000000000000000000000000000000000 m = true) (h : Wr m s0 s) : Wr m s0 (State.swReceive s a1 a2) := by
  refine Wr.lift (f := 0x800002000000000000000000000000000000000000000000000000000000000000000000000) ?_ hm h
  unfold State.swReceive
  repeat' first
    | exact rfl
    | (refine (?_ : _ = true); dsimp only [List.all]; exact rfl)
    | with_reducible exact Wr.refl _ _
    | with_reducible assumption
    | with_reducible apply Wr.of_keep (f := 33554432) (State.pkUpd_keep (m := 33554432) _ _ rfl (Keep.refl _ _)) rfl
    | with_reducible apply State.inc_wr
    | with_reducible apply Wr.of_keep (f := 65536) (State.bufFree_keep (m := 65536) _ _ rfl (Keep.refl _ _)) rfl
    | with_reducible apply Wr.of_keep (f := 272) (State.raise_keep (m := 272) _ _ rfl (Keep.refl _ _)) rfl
    | with_reducible apply State.set_wr
    | with_reducible apply Wr.of_keep (f := 65600) (State.memPut_keep (m := 65600) _ _ _ rfl (Keep.refl _ _)) rfl
    | with_reducible apply Wr.of_keep (f := 272) (State.swEvent_keep (m := 272) _ _ _ rfl (Keep.refl _ _)) rfl
    | with_reducible apply Wr.ite <;> intro _
    | with_reducible apply Wr.foldl <;> try intro _ _ _
    | with_reducible apply Wr.foldl_snd <;> try intro _ _ _
    | with_reducible refine Wr.of_snd ‹_ = (_, _)› ?_
    | with_reducible refine Wr.of_snd2 ‹_ = (_, _, _)› ?_
    | with_reducible apply Wr.of_id
    | split
    | dsimp only

theorem execSwTxDescriptorFetch_wr (a0 : _) (s : State) {t : State} (h : execSwTxDescriptorFetch a0 s = .next t) : Wr 0xf000000000000004000000000000000000000001f80000001000080000004000000000000000000000000000000000000000000000000000000000000000 s t := by
  unfold execSwTxDescriptorFetch at h
  injection h with h
  subst h
  repeat' first
    | exact rfl
    | (refine (?_ : _ = true); dsimp only [List.all]; exact rfl)
    | with_reducible exact Wr.refl _ _
    | with_reducible assumption
    | with_reducible apply State.set_wr
    | with_reducible apply Wr.of_keep (f := 33554704) (State.swComplete_keep (m := 33554704) _ _ _ _ rfl (Keep.refl _ _)) rfl
    | with_reducible apply State.capture_wr
    | with_reducible apply State.inc_wr
    | with_reducible apply State.tmAdmit_wr
    | with_reducible apply State.ingress_wr
    | with_reducible apply Wr.ite <;> intro _
    | with_reducible apply Wr.foldl <;> try intro _ _ _
    | with_reducible apply Wr.foldl_snd <;> try intro _ _ _
    | with_reducible refine Wr.of_snd ‹_ = (_, _)› ?_
    | with_reducible refine Wr.of_snd2 ‹_ = (_, _, _)› ?_
    | with_reducible apply Wr.of_id
    | split
    | dsimp only

theorem execSwTxCplPop_wr (a0 : _) (a1 : _) (s : State) (ha1 : a1 < 9) {t : State} (h : execSwTxCplPop a0 a1 s = .next t) : Wr 0x40000f000000000000000000000000000000000000000000000000000000000000000000000000000000000000000000000000000000000000000000000000000 s t := by
  unfold execSwTxCplPop at h
  injection h with h
  subst h
  repeat' first
    | exact rfl
    | (refine (?_ : _ = true); dsimp only [List.all]; exact rfl)
    | with_reducible exact Wr.refl _ _
    | with_reducible assumption
    | with_reducible refine readReg_wr (r0 := .FLW_SW_TX_CPL_POP) ((show ∀ r, r < 9 → findReg (Reg.addr .FLW_SW_TX_CPL_POP [r]) = some (.FLW_SW_TX_CPL_POP, [r]) by decide +kernel) a1 ha1) (fun _ _ => ?_) ?_ ?_
    | with_reducible apply rdFlw_FLW_SW_TX_CPL_POP_wr
    | with_reducible apply Wr.ite <;> intro _
    | with_reducible apply Wr.foldl <;> try intro _ _ _
    | with_reducible apply Wr.foldl_snd <;> try intro _ _ _
    | with_reducible refine Wr.of_snd ‹_ = (_, _)› ?_
    | with_reducible refine Wr.of_snd2 ‹_ = (_, _, _)› ?_
    | with_reducible apply Wr.of_id
    | split
    | dsimp only

theorem execSwRxFree_wr (a0 : _) (a1 : _) (a2 : _) (s : State) (ha1 : a1 < 9) {t : State} (h : execSwRxFree a0 a1 a2 s = .next t) : Wr 0x40000f000000000000000000000000000000000000000000000000000000000000000000000000000000000000000000000000000000000000000000000000000 s t := by
  unfold execSwRxFree at h
  injection h with h
  subst h
  repeat' first
    | exact rfl
    | (refine (?_ : _ = true); dsimp only [List.all]; exact rfl)
    | with_reducible exact Wr.refl _ _
    | with_reducible assumption
    | with_reducible refine writeReg_wr (r0 := .FLW_SW_RX_FREE) ((show ∀ r, r < 9 → findReg (Reg.addr .FLW_SW_RX_FREE [r]) = some (.FLW_SW_RX_FREE, [r]) by decide +kernel) a1 ha1) (fun _ _ => ?_) ?_ ?_
    | with_reducible apply wrFlw_FLW_SW_RX_FREE_wr
    | with_reducible apply Wr.ite <;> intro _
    | with_reducible apply Wr.foldl <;> try intro _ _ _
    | with_reducible apply Wr.foldl_snd <;> try intro _ _ _
    | with_reducible refine Wr.of_snd ‹_ = (_, _)› ?_
    | with_reducible refine Wr.of_snd2 ‹_ = (_, _, _)› ?_
    | with_reducible apply Wr.of_id
    | split
    | dsimp only

theorem State.swFlush_wr {m : Nat} {s0 : State} (s : State) (a1 : _) (hm : subMask 0x21000000000000000000000000000000000000000000000000000000000000000000000 m = true) (h : Wr m s0 s) : Wr m s0 (State.swFlush s a1) := by
  refine Wr.lift (f := 0x21000000000000000000000000000000000000000000000000000000000000000000000) ?_ hm h
  unfold State.swFlush
  repeat' first
    | exact rfl
    | (refine (?_ : _ = true); dsimp only [List.all]; exact rfl)
    | with_reducible exact Wr.refl _ _
    | with_reducible assumption
    | with_reducible apply State.set_wr
    | with_reducible apply Wr.ite <;> intro _
    | with_reducible apply Wr.foldl <;> try intro _ _ _
    | with_reducible apply Wr.foldl_snd <;> try intro _ _ _
    | with_reducible refine Wr.of_snd ‹_ = (_, _)› ?_
    | with_reducible refine Wr.of_snd2 ‹_ = (_, _, _)› ?_
    | with_reducible apply Wr.of_id
    | split
    | dsimp only

end Sys2Proof.Machine
end

