-- ==== Sys2Proof/Laws/WrTallyOps.lean ====
section
/-! SUPPORT. The registers that each operation of Machine/TallyOps.lean may change. -/

set_option Elab.async false

namespace Sys2Proof.Machine

theorem State.tlyFull_wr {m : Nat} {s0 : State} (s : State) (a1 : _) (hm : subMask 0x200000000000000000000000000000000000000000000000000000000000000000000000000000000000000000000000000000 m = true) (h : Wr m s0 s) : Wr m s0 (State.tlyFull s a1) := by
  refine Wr.lift (f := 0x200000000000000000000000000000000000000000000000000000000000000000000000000000000000000000000000000000) ?_ hm h
  unfold State.tlyFull
  repeat' first
    | exact rfl
    | (refine (?_ : _ = true); dsimp only [List.all]; exact rfl)
    | with_reducible exact Wr.refl _ _
    | with_reducible assumption
    | with_reducible apply State.inc_wr
    | with_reducible apply Wr.of_keep (f := 272) (State.raise_keep (m := 272) _ _ rfl (Keep.refl _ _)) rfl
    | with_reducible apply Wr.of_keep (f := 131072) (State.tlyUpd_keep (m := 131072) _ _ rfl (Keep.refl _ _)) rfl
    | with_reducible apply Wr.ite <;> intro _
    | with_reducible apply Wr.foldl <;> try intro _ _ _
    | with_reducible apply Wr.foldl_snd <;> try intro _ _ _
    | with_reducible refine Wr.of_snd ‹_ = (_, _)› ?_
    | with_reducible refine Wr.of_snd2 ‹_ = (_, _, _)› ?_
    | with_reducible apply Wr.of_id
    | split
    | dsimp only

theorem State.tlyEnd_wr {m : Nat} {s0 : State} (s : State) (a1 : _) (a2 : _) (a3 : _) (hm : subMask 0x400000000000000000000000000000000000000000000000000000000000000000000000000000000000000000000000000000 m = true) (h : Wr m s0 s) : Wr m s0 (State.tlyEnd s a1 a2 a3) := by
  refine Wr.lift (f := 0x400000000000000000000000000000000000000000000000000000000000000000000000000000000000000000000000000000) ?_ hm h
  unfold State.tlyEnd
  repeat' first
    | exact rfl
    | (refine (?_ : _ = true); dsimp only [List.all]; exact rfl)
    | with_reducible exact Wr.refl _ _
    | with_reducible assumption
    | with_reducible apply Wr.of_keep (f := 131072) (State.tlyUpd_keep (m := 131072) _ _ rfl (Keep.refl _ _)) rfl
    | with_reducible apply Wr.of_keep (f := 131072) (State.tlyArm_keep (m := 131072) _ rfl (Keep.refl _ _)) rfl
    | with_reducible apply Wr.of_keep (f := 131344) (State.release_keep (m := 131344) _ _ _ rfl (Keep.refl _ _)) rfl
    | with_reducible apply State.inc_wr
    | with_reducible apply Wr.ite <;> intro _
    | with_reducible apply Wr.foldl <;> try intro _ _ _
    | with_reducible apply Wr.foldl_snd <;> try intro _ _ _
    | with_reducible refine Wr.of_snd ‹_ = (_, _)› ?_
    | with_reducible refine Wr.of_snd2 ‹_ = (_, _, _)› ?_
    | with_reducible apply Wr.of_id
    | split
    | dsimp only

theorem State.enqStat_wr {m : Nat} {s0 : State} (s : State) (a1 : _) (a2 : _) (a3 : _) (hm : subMask 0x200000000000000000000000000000000000000000000000000000000000000000000000000000000000000000000000000 m = true) (h : Wr m s0 s) : Wr m s0 (State.enqStat s a1 a2 a3) := by
  refine Wr.lift (f := 0x200000000000000000000000000000000000000000000000000000000000000000000000000000000000000000000000000) ?_ hm h
  unfold State.enqStat
  repeat' first
    | exact rfl
    | (refine (?_ : _ = true); dsimp only [List.all]; exact rfl)
    | with_reducible exact Wr.refl _ _
    | with_reducible assumption
    | with_reducible apply State.commit_wr
    | with_reducible apply Wr.ite <;> intro _
    | with_reducible apply Wr.foldl <;> try intro _ _ _
    | with_reducible apply Wr.foldl_snd <;> try intro _ _ _
    | with_reducible refine Wr.of_snd ‹_ = (_, _)› ?_
    | with_reducible refine Wr.of_snd2 ‹_ = (_, _, _)› ?_
    | with_reducible apply Wr.of_id
    | split
    | dsimp only

theorem State.tlyReady_wr {m : Nat} {s0 : State} (s : State) (a1 : _) (hm : subMask 0x200200000000000000000000000000000000000000000000000000000000000000000000000000000000000000000000000000 m = true) (h : Wr m s0 s) : Wr m s0 (State.tlyReady s a1) := by
  refine Wr.lift (f := 0x200200000000000000000000000000000000000000000000000000000000000000000000000000000000000000000000000000) ?_ hm h
  unfold State.tlyReady
  repeat' first
    | exact rfl
    | (refine (?_ : _ = true); dsimp only [List.all]; exact rfl)
    | with_reducible exact Wr.refl _ _
    | with_reducible assumption
    | with_reducible apply State.enqStat_wr
    | with_reducible apply State.tlyFull_wr
    | with_reducible apply Wr.of_keep (f := 131072) (State.tlySeq_keep (m := 131072) _ _ rfl (Keep.refl _ _)) rfl
    | with_reducible apply Wr.of_keep (f := 131073) (State.tlyJoin_keep (m := 131073) _ _ rfl (Keep.refl _ _)) rfl
    | with_reducible apply Wr.ite <;> intro _
    | with_reducible apply Wr.foldl <;> try intro _ _ _
    | with_reducible apply Wr.foldl_snd <;> try intro _ _ _
    | with_reducible refine Wr.of_snd ‹_ = (_, _)› ?_
    | with_reducible refine Wr.of_snd2 ‹_ = (_, _, _)› ?_
    | with_reducible apply Wr.of_id
    | split
    | dsimp only

theorem State.dlyDue_wr {m : Nat} {s0 : State} (s : State) (a1 : _) (a2 : _) (hm : subMask 0xc00000000000000000000000000000000000000000000000000000000000000000000000000000000000000000000000000000 m = true) (h : Wr m s0 s) : Wr m s0 (State.dlyDue s a1 a2) := by
  refine Wr.lift (f := 0xc00000000000000000000000000000000000000000000000000000000000000000000000000000000000000000000000000000) ?_ hm h
  unfold State.dlyDue
  repeat' first
    | exact rfl
    | (refine (?_ : _ = true); dsimp only [List.all]; exact rfl)
    | with_reducible exact Wr.refl _ _
    | with_reducible assumption
    | with_reducible apply Wr.of_keep (f := 131072) (State.tlyUpd_keep (m := 131072) _ _ rfl (Keep.refl _ _)) rfl
    | with_reducible apply Wr.of_keep (f := 131073) (State.tlyJoin_keep (m := 131073) _ _ rfl (Keep.refl _ _)) rfl
    | with_reducible apply State.tlyEnd_wr
    | with_reducible apply State.inc_wr
    | with_reducible apply Wr.ite <;> intro _
    | with_reducible apply Wr.foldl <;> try intro _ _ _
    | with_reducible apply Wr.foldl_snd <;> try intro _ _ _
    | with_reducible refine Wr.of_snd ‹_ = (_, _)› ?_
    | with_reducible refine Wr.of_snd2 ‹_ = (_, _, _)› ?_
    | with_reducible apply Wr.of_id
    | split
    | dsimp only

theorem State.tlyDelay_wr {m : Nat} {s0 : State} (s : State) (a1 : _) (a2 : _) (hm : subMask 0xc00200000000000000000000000000000000000000000000000000000000000000000000000000000000000000000000000000 m = true) (h : Wr m s0 s) : Wr m s0 (State.tlyDelay s a1 a2) := by
  refine Wr.lift (f := 0xc00200000000000000000000000000000000000000000000000000000000000000000000000000000000000000000000000000) ?_ hm h
  unfold State.tlyDelay
  extract_lets b
  refine Wr.ite (fun _ => State.enqStat_wr _ _ _ _ rfl (Wr.refl _ _)) (fun _ => Wr.ite (fun _ => State.enqStat_wr _ _ _ _ rfl (Wr.refl _ _)) (fun _ => ?_))
  split
  · exact State.enqStat_wr _ _ _ _ rfl (Wr.refl _ _)
  · extract_lets e s1 s2
    have hs1 : Wr 0xc00200000000000000000000000000000000000000000000000000000000000000000000000000000000000000000000000000 s s1 := Wr.of_keep (f := 131072) (State.tlyUpd_keep (m := 131072) _ _ rfl (Keep.refl _ _)) rfl (Wr.of_keep (f := 131072) (State.tlySeq_keep (m := 131072) _ _ rfl (Keep.refl _ _)) rfl (Wr.node (u := s) rfl rfl rfl (Wr.refl _ _)))
    clear_value s1
    have hs2 : Wr 0xc00200000000000000000000000000000000000000000000000000000000000000000000000000000000000000000000000000 s s2 := State.enqStat_wr _ _ _ _ rfl (hs1)
    clear_value s2
    exact Wr.ite (fun _ => State.dlyDue_wr _ _ _ rfl (hs2)) (fun _ => hs2)

theorem State.dlyCancel_wr {m : Nat} {s0 : State} (s : State) (a1 : _) (a2 : _) (hm : subMask 0xc00200000000000000000000000000000000000000000000000000000000000000000000000000000000000000000000000000 m = true) (h : Wr m s0 s) : Wr m s0 (State.dlyCancel s a1 a2) := by
  refine Wr.lift (f := 0xc00200000000000000000000000000000000000000000000000000000000000000000000000000000000000000000000000000) ?_ hm h
  unfold State.dlyCancel
  repeat' first
    | exact rfl
    | (refine (?_ : _ = true); dsimp only [List.all]; exact rfl)
    | with_reducible exact Wr.refl _ _
    | with_reducible assumption
    | with_reducible apply State.dlyDue_wr
    | with_reducible apply State.enqStat_wr
    | with_reducible apply Wr.of_keep (f := 131072) (State.tlyUpd_keep (m := 131072) _ _ rfl (Keep.refl _ _)) rfl
    | with_reducible apply Wr.of_keep (f := 131344) (State.release_keep (m := 131344) _ _ _ rfl (Keep.refl _ _)) rfl
    | with_reducible apply Wr.ite <;> intro _
    | with_reducible apply Wr.foldl <;> try intro _ _ _
    | with_reducible apply Wr.foldl_snd <;> try intro _ _ _
    | with_reducible refine Wr.of_snd ‹_ = (_, _)› ?_
    | with_reducible refine Wr.of_snd2 ‹_ = (_, _, _)› ?_
    | with_reducible apply Wr.of_id
    | split
    | dsimp only

theorem State.tlyPick_wr {m : Nat} {s0 : State} (s : State) (a1 : _) (hm : subMask 0x1000000000000000000000000000000000000000000000000000000000000000000000000000000000000000000000000000 m = true) (h : Wr m s0 s) : Wr m s0 (State.tlyPick s a1).2 := by
  refine Wr.lift (f := 0x1000000000000000000000000000000000000000000000000000000000000000000000000000000000000000000000000000) ?_ hm h
  unfold State.tlyPick
  repeat' first
    | exact rfl
    | (refine (?_ : _ = true); dsimp only [List.all]; exact rfl)
    | with_reducible exact Wr.refl _ _
    | with_reducible assumption
    | with_reducible apply State.setReg_wr
    | with_reducible apply Wr.of_keep (f := 131072) (State.takeBead_keep (m := 131072) _ _ _ rfl (Keep.refl _ _)) rfl
    | with_reducible apply Wr.ite <;> intro _
    | with_reducible apply Wr.foldl <;> try intro _ _ _
    | with_reducible apply Wr.foldl_snd <;> try intro _ _ _
    | with_reducible refine Wr.of_snd ‹_ = (_, _)› ?_
    | with_reducible refine Wr.of_snd2 ‹_ = (_, _, _)› ?_
    | with_reducible apply Wr.of_id
    | split
    | dsimp only

theorem State.relPop_wr {m : Nat} {s0 : State} (s : State) (a1 : _) (hm : subMask 0x80000000000000000000000000000000000000000000000000000000000000000000000000000000000000000000000000000 m = true) (h : Wr m s0 s) : Wr m s0 (State.relPop s a1).2 := by
  refine Wr.lift (f := 0x80000000000000000000000000000000000000000000000000000000000000000000000000000000000000000000000000000) ?_ hm h
  unfold State.relPop
  repeat' first
    | exact rfl
    | (refine (?_ : _ = true); dsimp only [List.all]; exact rfl)
    | with_reducible exact Wr.refl _ _
    | with_reducible assumption
    | with_reducible apply State.setReg_wr
    | with_reducible apply Wr.of_keep (f := 131072) (State.tlyUpd_keep (m := 131072) _ _ rfl (Keep.refl _ _)) rfl
    | with_reducible apply Wr.of_keep (f := 131072) (State.tlyArm_keep (m := 131072) _ rfl (Keep.refl _ _)) rfl
    | with_reducible apply Wr.of_keep (f := 131344) (State.release_keep (m := 131344) _ _ _ rfl (Keep.refl _ _)) rfl
    | with_reducible apply Wr.ite <;> intro _
    | with_reducible apply Wr.foldl <;> try intro _ _ _
    | with_reducible apply Wr.foldl_snd <;> try intro _ _ _
    | with_reducible refine Wr.of_snd ‹_ = (_, _)› ?_
    | with_reducible refine Wr.of_snd2 ‹_ = (_, _, _)› ?_
    | with_reducible apply Wr.of_id
    | split
    | dsimp only

theorem State.tlyFence_wr {m : Nat} {s0 : State} (s : State) (a1 : _) (hm : subMask 0x400000000000000000000000000000000000000000000000000000000000000000000000000000000000000000000000000000 m = true) (h : Wr m s0 s) : Wr m s0 (State.tlyFence s a1) := by
  refine Wr.lift (f := 0x400000000000000000000000000000000000000000000000000000000000000000000000000000000000000000000000000000) ?_ hm h
  unfold State.tlyFence
  repeat' first
    | exact rfl
    | (refine (?_ : _ = true); dsimp only [List.all]; exact rfl)
    | with_reducible exact Wr.refl _ _
    | with_reducible assumption
    | with_reducible apply State.tlyEnd_wr
    | with_reducible apply Wr.ite <;> intro _
    | with_reducible apply Wr.foldl <;> try intro _ _ _
    | with_reducible apply Wr.foldl_snd <;> try intro _ _ _
    | with_reducible refine Wr.of_snd ‹_ = (_, _)› ?_
    | with_reducible refine Wr.of_snd2 ‹_ = (_, _, _)› ?_
    | with_reducible apply Wr.of_id
    | split
    | dsimp only

theorem State.claim_wr {m : Nat} {s0 : State} (s : State) (a1 : _) (a2 : _) (hm : subMask 0x2000000000000000000000000000000000000000000000000000000000000000000000000000000000000000000000000000000 m = true) (h : Wr m s0 s) : Wr m s0 (State.claim s a1 a2).2 := by
  refine Wr.lift (f := 0x2000000000000000000000000000000000000000000000000000000000000000000000000000000000000000000000000000000) ?_ hm h
  unfold State.claim
  repeat' first
    | exact rfl
    | (refine (?_ : _ = true); dsimp only [List.all]; exact rfl)
    | with_reducible exact Wr.refl _ _
    | with_reducible assumption
    | with_reducible apply Wr.of_keep (f := 256) (State.setPend_keep (m := 256) _ _ _ rfl (Keep.refl _ _)) rfl
    | with_reducible apply State.setReg_wr
    | with_reducible apply Wr.ite <;> intro _
    | with_reducible apply Wr.foldl <;> try intro _ _ _
    | with_reducible apply Wr.foldl_snd <;> try intro _ _ _
    | with_reducible refine Wr.of_snd ‹_ = (_, _)› ?_
    | with_reducible refine Wr.of_snd2 ‹_ = (_, _, _)› ?_
    | with_reducible apply Wr.of_id
    | split
    | dsimp only

theorem State.evtClaim_wr {m : Nat} {s0 : State} (s : State) (a1 : _) (hm : subMask 0x2000000000000000000000000000000000000000000000000000000000000000000000000000000000000000000000000000000 m = true) (h : Wr m s0 s) : Wr m s0 (State.evtClaim s a1).2 := by
  refine Wr.lift (f := 0x2000000000000000000000000000000000000000000000000000000000000000000000000000000000000000000000000000000) ?_ hm h
  unfold State.evtClaim
  repeat' first
    | exact rfl
    | (refine (?_ : _ = true); dsimp only [List.all]; exact rfl)
    | with_reducible exact Wr.refl _ _
    | with_reducible assumption
    | with_reducible apply State.claim_wr
    | with_reducible apply Wr.ite <;> intro _
    | with_reducible apply Wr.foldl <;> try intro _ _ _
    | with_reducible apply Wr.foldl_snd <;> try intro _ _ _
    | with_reducible refine Wr.of_snd ‹_ = (_, _)› ?_
    | with_reducible refine Wr.of_snd2 ‹_ = (_, _, _)› ?_
    | with_reducible apply Wr.of_id
    | split
    | dsimp only

theorem State.evtHclaim_wr {m : Nat} {s0 : State} (s : State) (a1 : _) (hm : subMask 0x2000000000000000000000000000000000000000000000000000000000000000000000000000000000000000000000000000000 m = true) (h : Wr m s0 s) : Wr m s0 (State.evtHclaim s a1).2 := by
  refine Wr.lift (f := 0x2000000000000000000000000000000000000000000000000000000000000000000000000000000000000000000000000000000) ?_ hm h
  unfold State.evtHclaim
  repeat' first
    | exact rfl
    | (refine (?_ : _ = true); dsimp only [List.all]; exact rfl)
    | with_reducible exact Wr.refl _ _
    | with_reducible assumption
    | with_reducible apply State.claim_wr
    | with_reducible apply Wr.ite <;> intro _
    | with_reducible apply Wr.foldl <;> try intro _ _ _
    | with_reducible apply Wr.foldl_snd <;> try intro _ _ _
    | with_reducible refine Wr.of_snd ‹_ = (_, _)› ?_
    | with_reducible refine Wr.of_snd2 ‹_ = (_, _, _)› ?_
    | with_reducible apply Wr.of_id
    | split
    | dsimp only

theorem State.coreStart_wr {m : Nat} {s0 : State} (s : State) (a1 : _) (hm : subMask 0x2400000000000000000000000000000000000000000000000000000000000000000000000000000000000000000000000 m = true) (h : Wr m s0 s) : Wr m s0 (State.coreStart s a1) := by
  refine Wr.lift (f := 0x2400000000000000000000000000000000000000000000000000000000000000000000000000000000000000000000000) ?_ hm h
  unfold State.coreStart
  repeat' first
    | exact rfl
    | (refine (?_ : _ = true); dsimp only [List.all]; exact rfl)
    | with_reducible exact Wr.refl _ _
    | with_reducible assumption
    | with_reducible apply State.setReg_wr
    | with_reducible apply State.set_wr
    | with_reducible apply Wr.ite <;> intro _
    | with_reducible apply Wr.foldl <;> try intro _ _ _
    | with_reducible apply Wr.foldl_snd <;> try intro _ _ _
    | with_reducible refine Wr.of_snd ‹_ = (_, _)› ?_
    | with_reducible refine Wr.of_snd2 ‹_ = (_, _, _)› ?_
    | with_reducible apply Wr.of_id
    | split
    | dsimp only

theorem wrTly_APC_CORE_CTL_wr {m : Nat} {s0 : State} (x0 : Nat) (v : Word) (rq : Req) (s : State) (hm : subMask 0x2400000000000000000000000000000000000000000000000000000000000000000000000000000000000000000000000 m = true) (h : Wr m s0 s) : Wr m s0 (wrTly .APC_CORE_CTL [x0] v rq s) := by
  refine Wr.lift (f := 0x2400000000000000000000000000000000000000000000000000000000000000000000000000000000000000000000000) ?_ hm h
  unfold wrTly
  repeat' first
    | exact rfl
    | (refine (?_ : _ = true); dsimp only [List.all]; exact rfl)
    | with_reducible exact Wr.refl _ _
    | with_reducible assumption
    | contradiction
    | with_reducible apply State.tlyReady_wr
    | with_reducible apply State.tlyDelay_wr
    | with_reducible apply State.dlyCancel_wr
    | with_reducible apply State.tlyEnd_wr
    | with_reducible apply Wr.of_keep (f := 256) (State.setPend_keep (m := 256) _ _ _ rfl (Keep.refl _ _)) rfl
    | with_reducible apply State.set_wr
    | with_reducible apply State.coreStart_wr
    | with_reducible apply storeWord_wr
    | with_reducible apply Wr.ite <;> intro _
    | with_reducible apply Wr.foldl <;> try intro _ _ _
    | with_reducible apply Wr.foldl_snd <;> try intro _ _ _
    | with_reducible refine Wr.of_snd ‹_ = (_, _)› ?_
    | with_reducible refine Wr.of_snd2 ‹_ = (_, _, _)› ?_
    | with_reducible apply Wr.of_id
    | split
    | dsimp only

theorem wrTly_TLY_ENQ_GO_wr {m : Nat} {s0 : State} (v : Word) (rq : Req) (s : State) (hm : subMask 0xe00200000000000000000000000000000000000000000000000000000000000000000000000000000000000000000000000000 m = true) (h : Wr m s0 s) : Wr m s0 (wrTly .TLY_ENQ_GO [] v rq s) := by
  refine Wr.lift (f := 0xe00200000000000000000000000000000000000000000000000000000000000000000000000000000000000000000000000000) ?_ hm h
  unfold wrTly
  repeat' first
    | exact rfl
    | (refine (?_ : _ = true); dsimp only [List.all]; exact rfl)
    | with_reducible exact Wr.refl _ _
    | with_reducible assumption
    | contradiction
    | with_reducible apply State.tlyReady_wr
    | with_reducible apply State.tlyDelay_wr
    | with_reducible apply State.dlyCancel_wr
    | with_reducible apply State.tlyEnd_wr
    | with_reducible apply Wr.of_keep (f := 256) (State.setPend_keep (m := 256) _ _ _ rfl (Keep.refl _ _)) rfl
    | with_reducible apply State.set_wr
    | with_reducible apply State.coreStart_wr
    | with_reducible apply storeWord_wr
    | with_reducible apply Wr.ite <;> intro _
    | with_reducible apply Wr.foldl <;> try intro _ _ _
    | with_reducible apply Wr.foldl_snd <;> try intro _ _ _
    | with_reducible refine Wr.of_snd ‹_ = (_, _)› ?_
    | with_reducible refine Wr.of_snd2 ‹_ = (_, _, _)› ?_
    | with_reducible apply Wr.of_id
    | split
    | dsimp only

theorem wrTly_EVT_CLR_wr {m : Nat} {s0 : State} (v : Word) (rq : Req) (s : State) (hm : subMask 0 m = true) (h : Wr m s0 s) : Wr m s0 (wrTly .EVT_CLR [] v rq s) := by
  refine Wr.lift (f := 0) ?_ hm h
  unfold wrTly
  repeat' first
    | exact rfl
    | (refine (?_ : _ = true); dsimp only [List.all]; exact rfl)
    | with_reducible exact Wr.refl _ _
    | with_reducible assumption
    | contradiction
    | with_reducible apply State.tlyReady_wr
    | with_reducible apply State.tlyDelay_wr
    | with_reducible apply State.dlyCancel_wr
    | with_reducible apply State.tlyEnd_wr
    | with_reducible apply Wr.of_keep (f := 256) (State.setPend_keep (m := 256) _ _ _ rfl (Keep.refl _ _)) rfl
    | with_reducible apply State.set_wr
    | with_reducible apply State.coreStart_wr
    | with_reducible apply storeWord_wr
    | with_reducible apply Wr.ite <;> intro _
    | with_reducible apply Wr.foldl <;> try intro _ _ _
    | with_reducible apply Wr.foldl_snd <;> try intro _ _ _
    | with_reducible refine Wr.of_snd ‹_ = (_, _)› ?_
    | with_reducible refine Wr.of_snd2 ‹_ = (_, _, _)› ?_
    | with_reducible apply Wr.of_id
    | split
    | dsimp only

theorem wrTly_RGC_CORE_CTL_wr {m : Nat} {s0 : State} (x0 : Nat) (v : Word) (rq : Req) (s : State) (hm : subMask 0x18000000000000000000000000000000000000000000000000000000000000000000000000000000000000000000000000 m = true) (h : Wr m s0 s) : Wr m s0 (wrTly .RGC_CORE_CTL [x0] v rq s) := by
  refine Wr.lift (f := 0x18000000000000000000000000000000000000000000000000000000000000000000000000000000000000000000000000) ?_ hm h
  unfold wrTly
  repeat' first
    | exact rfl
    | (refine (?_ : _ = true); dsimp only [List.all]; exact rfl)
    | with_reducible exact Wr.refl _ _
    | with_reducible assumption
    | contradiction
    | with_reducible apply State.tlyReady_wr
    | with_reducible apply State.tlyDelay_wr
    | with_reducible apply State.dlyCancel_wr
    | with_reducible apply State.tlyEnd_wr
    | with_reducible apply Wr.of_keep (f := 256) (State.setPend_keep (m := 256) _ _ _ rfl (Keep.refl _ _)) rfl
    | with_reducible apply State.set_wr
    | with_reducible apply State.coreStart_wr
    | with_reducible apply storeWord_wr
    | with_reducible apply Wr.ite <;> intro _
    | with_reducible apply Wr.foldl <;> try intro _ _ _
    | with_reducible apply Wr.foldl_snd <;> try intro _ _ _
    | with_reducible refine Wr.of_snd ‹_ = (_, _)› ?_
    | with_reducible refine Wr.of_snd2 ‹_ = (_, _, _)› ?_
    | with_reducible apply Wr.of_id
    | split
    | dsimp only

theorem wrTly_TLY_DONE_wr {m : Nat} {s0 : State} (v : Word) (rq : Req) (s : State) (hm : subMask 0x400000000000000000000000000000000000000000000000000000000000000000000000000000000000000000000000000000 m = true) (h : Wr m s0 s) : Wr m s0 (wrTly .TLY_DONE [] v rq s) := by
  refine Wr.lift (f := 0x400000000000000000000000000000000000000000000000000000000000000000000000000000000000000000000000000000) ?_ hm h
  unfold wrTly
  repeat' first
    | exact rfl
    | (refine (?_ : _ = true); dsimp only [List.all]; exact rfl)
    | with_reducible exact Wr.refl _ _
    | with_reducible assumption
    | contradiction
    | with_reducible apply State.tlyReady_wr
    | with_reducible apply State.tlyDelay_wr
    | with_reducible apply State.dlyCancel_wr
    | with_reducible apply State.tlyEnd_wr
    | with_reducible apply Wr.of_keep (f := 256) (State.setPend_keep (m := 256) _ _ _ rfl (Keep.refl _ _)) rfl
    | with_reducible apply State.set_wr
    | with_reducible apply State.coreStart_wr
    | with_reducible apply storeWord_wr
    | with_reducible apply Wr.ite <;> intro _
    | with_reducible apply Wr.foldl <;> try intro _ _ _
    | with_reducible apply Wr.foldl_snd <;> try intro _ _ _
    | with_reducible refine Wr.of_snd ‹_ = (_, _)› ?_
    | with_reducible refine Wr.of_snd2 ‹_ = (_, _, _)› ?_
    | with_reducible apply Wr.of_id
    | split
    | dsimp only

theorem wrTly_TLY_DLY_CANCEL_wr {m : Nat} {s0 : State} (v : Word) (rq : Req) (s : State) (hm : subMask 0xc00200000000000000000000000000000000000000000000000000000000000000000000000000000000000000000000000000 m = true) (h : Wr m s0 s) : Wr m s0 (wrTly .TLY_DLY_CANCEL [] v rq s) := by
  refine Wr.lift (f := 0xc00200000000000000000000000000000000000000000000000000000000000000000000000000000000000000000000000000) ?_ hm h
  unfold wrTly
  repeat' first
    | exact rfl
    | (refine (?_ : _ = true); dsimp only [List.all]; exact rfl)
    | with_reducible exact Wr.refl _ _
    | with_reducible assumption
    | contradiction
    | with_reducible apply State.tlyReady_wr
    | with_reducible apply State.tlyDelay_wr
    | with_reducible apply State.dlyCancel_wr
    | with_reducible apply State.tlyEnd_wr
    | with_reducible apply Wr.of_keep (f := 256) (State.setPend_keep (m := 256) _ _ _ rfl (Keep.refl _ _)) rfl
    | with_reducible apply State.set_wr
    | with_reducible apply State.coreStart_wr
    | with_reducible apply storeWord_wr
    | with_reducible apply Wr.ite <;> intro _
    | with_reducible apply Wr.foldl <;> try intro _ _ _
    | with_reducible apply Wr.foldl_snd <;> try intro _ _ _
    | with_reducible refine Wr.of_snd ‹_ = (_, _)› ?_
    | with_reducible refine Wr.of_snd2 ‹_ = (_, _, _)› ?_
    | with_reducible apply Wr.of_id
    | split
    | dsimp only

theorem rdTly_TLY_REL_POP_wr {m : Nat} {s0 : State} (x0 : Nat) (rq : Req) (s : State) (hm : subMask 0x80000000000000000000000000000000000000000000000000000000000000000000000000000000000000000000000000000 m = true) (h : Wr m s0 s) : Wr m s0 (rdTly .TLY_REL_POP [x0] rq s).2 := by
  refine Wr.lift (f := 0x80000000000000000000000000000000000000000000000000000000000000000000000000000000000000000000000000000) ?_ hm h
  unfold rdTly
  repeat' first
    | exact rfl
    | (refine (?_ : _ = true); dsimp only [List.all]; exact rfl)
    | with_reducible exact Wr.refl _ _
    | with_reducible assumption
    | contradiction
    | with_reducible apply State.tlyPick_wr
    | with_reducible apply State.relPop_wr
    | with_reducible apply State.evtClaim_wr
    | with_reducible apply State.evtHclaim_wr
    | with_reducible apply loadWord_wr
    | with_reducible apply Wr.ite <;> intro _
    | with_reducible apply Wr.foldl <;> try intro _ _ _
    | with_reducible apply Wr.foldl_snd <;> try intro _ _ _
    | with_reducible refine Wr.of_snd ‹_ = (_, _)› ?_
    | with_reducible refine Wr.of_snd2 ‹_ = (_, _, _)› ?_
    | with_reducible apply Wr.of_id
    | split
    | dsimp only

theorem rdTly_TLY_PICK_wr {m : Nat} {s0 : State} (rq : Req) (s : State) (hm : subMask 0x1000000000000000000000000000000000000000000000000000000000000000000000000000000000000000000000000000 m = true) (h : Wr m s0 s) : Wr m s0 (rdTly .TLY_PICK [] rq s).2 := by
  refine Wr.lift (f := 0x1000000000000000000000000000000000000000000000000000000000000000000000000000000000000000000000000000) ?_ hm h
  unfold rdTly
  repeat' first
    | exact rfl
    | (refine (?_ : _ = true); dsimp only [List.all]; exact rfl)
    | with_reducible exact Wr.refl _ _
    | with_reducible assumption
    | contradiction
    | with_reducible apply State.tlyPick_wr
    | with_reducible apply State.relPop_wr
    | with_reducible apply State.evtClaim_wr
    | with_reducible apply State.evtHclaim_wr
    | with_reducible apply loadWord_wr
    | with_reducible apply Wr.ite <;> intro _
    | with_reducible apply Wr.foldl <;> try intro _ _ _
    | with_reducible apply Wr.foldl_snd <;> try intro _ _ _
    | with_reducible refine Wr.of_snd ‹_ = (_, _)› ?_
    | with_reducible refine Wr.of_snd2 ‹_ = (_, _, _)› ?_
    | with_reducible apply Wr.of_id
    | split
    | dsimp only

theorem rdTly_EVT_CLAIM_wr {m : Nat} {s0 : State} (rq : Req) (s : State) (hm : subMask 0x2000000000000000000000000000000000000000000000000000000000000000000000000000000000000000000000000000000 m = true) (h : Wr m s0 s) : Wr m s0 (rdTly .EVT_CLAIM [] rq s).2 := by
  refine Wr.lift (f := 0x2000000000000000000000000000000000000000000000000000000000000000000000000000000000000000000000000000000) ?_ hm h
  unfold rdTly
  repeat' first
    | exact rfl
    | (refine (?_ : _ = true); dsimp only [List.all]; exact rfl)
    | with_reducible exact Wr.refl _ _
    | with_reducible assumption
    | contradiction
    | with_reducible apply State.tlyPick_wr
    | with_reducible apply State.relPop_wr
    | with_reducible apply State.evtClaim_wr
    | with_reducible apply State.evtHclaim_wr
    | with_reducible apply loadWord_wr
    | with_reducible apply Wr.ite <;> intro _
    | with_reducible apply Wr.foldl <;> try intro _ _ _
    | with_reducible apply Wr.foldl_snd <;> try intro _ _ _
    | with_reducible refine Wr.of_snd ‹_ = (_, _)› ?_
    | with_reducible refine Wr.of_snd2 ‹_ = (_, _, _)› ?_
    | with_reducible apply Wr.of_id
    | split
    | dsimp only

theorem rdTly_EVT_HCLAIM_wr {m : Nat} {s0 : State} (rq : Req) (s : State) (hm : subMask 0x2000000000000000000000000000000000000000000000000000000000000000000000000000000000000000000000000000000 m = true) (h : Wr m s0 s) : Wr m s0 (rdTly .EVT_HCLAIM [] rq s).2 := by
  refine Wr.lift (f := 0x2000000000000000000000000000000000000000000000000000000000000000000000000000000000000000000000000000000) ?_ hm h
  unfold rdTly
  repeat' first
    | exact rfl
    | (refine (?_ : _ = true); dsimp only [List.all]; exact rfl)
    | with_reducible exact Wr.refl _ _
    | with_reducible assumption
    | contradiction
    | with_reducible apply State.tlyPick_wr
    | with_reducible apply State.relPop_wr
    | with_reducible apply State.evtClaim_wr
    | with_reducible apply State.evtHclaim_wr
    | with_reducible apply loadWord_wr
    | with_reducible apply Wr.ite <;> intro _
    | with_reducible apply Wr.foldl <;> try intro _ _ _
    | with_reducible apply Wr.foldl_snd <;> try intro _ _ _
    | with_reducible refine Wr.of_snd ‹_ = (_, _)› ?_
    | with_reducible refine Wr.of_snd2 ‹_ = (_, _, _)› ?_
    | with_reducible apply Wr.of_id
    | split
    | dsimp only

theorem execCoreStart_wr (a0 : _) (a1 : _) (s : State) (ha1 : a1 < 8) {t : State} (h : execCoreStart a0 a1 s = .next t) : Wr 0x40000f000000000000000000000000002400000000000000000000000000000000000000000000000000000000000000000000000000000000000000000000000 s t := by
  unfold execCoreStart at h
  injection h with h
  subst h
  repeat' first
    | exact rfl
    | (refine (?_ : _ = true); dsimp only [List.all]; exact rfl)
    | with_reducible exact Wr.refl _ _
    | with_reducible assumption
    | with_reducible refine writeReg_wr (r0 := .APC_CORE_CTL) ((show ∀ c, c < 8 → findReg (Reg.addr .APC_CORE_CTL [c]) = some (.APC_CORE_CTL, [c]) by decide +kernel) a1 ha1) (fun _ _ => ?_) ?_ ?_
    | with_reducible apply wrTly_APC_CORE_CTL_wr
    | with_reducible apply Wr.ite <;> intro _
    | with_reducible apply Wr.foldl <;> try intro _ _ _
    | with_reducible apply Wr.foldl_snd <;> try intro _ _ _
    | with_reducible refine Wr.of_snd ‹_ = (_, _)› ?_
    | with_reducible refine Wr.of_snd2 ‹_ = (_, _, _)› ?_
    | with_reducible apply Wr.of_id
    | split
    | dsimp only

theorem execCoreReset_wr (a0 : _) (a1 : _) (s : State) (ha1 : a1 < 8) {t : State} (h : execCoreReset a0 a1 s = .next t) : Wr 0x40000f000000000000000000000000002400000000000000000000000000000000000000000000000000000000000000000000000000000000000000000000000 s t := by
  unfold execCoreReset at h
  injection h with h
  subst h
  repeat' first
    | exact rfl
    | (refine (?_ : _ = true); dsimp only [List.all]; exact rfl)
    | with_reducible exact Wr.refl _ _
    | with_reducible assumption
    | with_reducible refine writeReg_wr (r0 := .APC_CORE_CTL) ((show ∀ c, c < 8 → findReg (Reg.addr .APC_CORE_CTL [c]) = some (.APC_CORE_CTL, [c]) by decide +kernel) a1 ha1) (fun _ _ => ?_) ?_ ?_
    | with_reducible apply wrTly_APC_CORE_CTL_wr
    | with_reducible apply Wr.ite <;> intro _
    | with_reducible apply Wr.foldl <;> try intro _ _ _
    | with_reducible apply Wr.foldl_snd <;> try intro _ _ _
    | with_reducible refine Wr.of_snd ‹_ = (_, _)› ?_
    | with_reducible refine Wr.of_snd2 ‹_ = (_, _, _)› ?_
    | with_reducible apply Wr.of_id
    | split
    | dsimp only

theorem execRegionCoreStart_wr (a0 : _) (a1 : _) (s : State) (ha1 : a1 < 6) {t : State} (h : execRegionCoreStart a0 a1 s = .next t) : Wr 0x40000f000000000000000000000000018000000000000000000000000000000000000000000000000000000000000000000000000000000000000000000000000 s t := by
  unfold execRegionCoreStart at h
  injection h with h
  subst h
  repeat' first
    | exact rfl
    | (refine (?_ : _ = true); dsimp only [List.all]; exact rfl)
    | with_reducible exact Wr.refl _ _
    | with_reducible assumption
    | with_reducible refine writeReg_wr (r0 := .RGC_CORE_CTL) ((show ∀ g, g < 6 → findReg (Reg.addr .RGC_CORE_CTL [g]) = some (.RGC_CORE_CTL, [g]) by decide +kernel) a1 ha1) (fun _ _ => ?_) ?_ ?_
    | with_reducible apply wrTly_RGC_CORE_CTL_wr
    | with_reducible apply Wr.ite <;> intro _
    | with_reducible apply Wr.foldl <;> try intro _ _ _
    | with_reducible apply Wr.foldl_snd <;> try intro _ _ _
    | with_reducible refine Wr.of_snd ‹_ = (_, _)› ?_
    | with_reducible refine Wr.of_snd2 ‹_ = (_, _, _)› ?_
    | with_reducible apply Wr.of_id
    | split
    | dsimp only

theorem execRegionCoreReset_wr (a0 : _) (a1 : _) (s : State) (ha1 : a1 < 6) {t : State} (h : execRegionCoreReset a0 a1 s = .next t) : Wr 0x40000f000000000000000000000000018000000000000000000000000000000000000000000000000000000000000000000000000000000000000000000000000 s t := by
  unfold execRegionCoreReset at h
  injection h with h
  subst h
  repeat' first
    | exact rfl
    | (refine (?_ : _ = true); dsimp only [List.all]; exact rfl)
    | with_reducible exact Wr.refl _ _
    | with_reducible assumption
    | with_reducible refine writeReg_wr (r0 := .RGC_CORE_CTL) ((show ∀ g, g < 6 → findReg (Reg.addr .RGC_CORE_CTL [g]) = some (.RGC_CORE_CTL, [g]) by decide +kernel) a1 ha1) (fun _ _ => ?_) ?_ ?_
    | with_reducible apply wrTly_RGC_CORE_CTL_wr
    | with_reducible apply Wr.ite <;> intro _
    | with_reducible apply Wr.foldl <;> try intro _ _ _
    | with_reducible apply Wr.foldl_snd <;> try intro _ _ _
    | with_reducible refine Wr.of_snd ‹_ = (_, _)› ?_
    | with_reducible refine Wr.of_snd2 ‹_ = (_, _, _)› ?_
    | with_reducible apply Wr.of_id
    | split
    | dsimp only

theorem execRegionCoreTrap_wr (a0 : _) (a1 : _) (s : State) {t : State} (h : execRegionCoreTrap a0 a1 s = .next t) : Wr 0x10000000000000000000000000000000000000000000000000000000000000000000000000000000000000000000000000 s t := by
  unfold execRegionCoreTrap at h
  injection h with h
  subst h
  repeat' first
    | exact rfl
    | (refine (?_ : _ = true); dsimp only [List.all]; exact rfl)
    | with_reducible exact Wr.refl _ _
    | with_reducible assumption
    | with_reducible apply State.sets_wr
    | with_reducible apply Wr.ite <;> intro _
    | with_reducible apply Wr.foldl <;> try intro _ _ _
    | with_reducible apply Wr.foldl_snd <;> try intro _ _ _
    | with_reducible refine Wr.of_snd ‹_ = (_, _)› ?_
    | with_reducible refine Wr.of_snd2 ‹_ = (_, _, _)› ?_
    | with_reducible apply Wr.of_id
    | split
    | dsimp only

theorem execTlyReady_wr (a0 : _) (s : State) {t : State} (h : execTlyReady a0 s = .next t) : Wr 0x40000f000000000000000000000e00200000000000000000000000000000000000000000000000000000000000000000000000000000000000000000000000000 s t := by
  unfold execTlyReady at h
  injection h with h
  subst h
  repeat' first
    | exact rfl
    | (refine (?_ : _ = true); dsimp only [List.all]; exact rfl)
    | with_reducible exact Wr.refl _ _
    | with_reducible assumption
    | with_reducible refine writeReg_wr (r0 := .TLY_ENQ_GO) (show findReg (Reg.addr .TLY_ENQ_GO []) = some (.TLY_ENQ_GO, []) by decide +kernel) (fun _ _ => ?_) ?_ ?_
    | with_reducible apply wrTly_TLY_ENQ_GO_wr
    | with_reducible apply Wr.ite <;> intro _
    | with_reducible apply Wr.foldl <;> try intro _ _ _
    | with_reducible apply Wr.foldl_snd <;> try intro _ _ _
    | with_reducible refine Wr.of_snd ‹_ = (_, _)› ?_
    | with_reducible refine Wr.of_snd2 ‹_ = (_, _, _)› ?_
    | with_reducible apply Wr.of_id
    | split
    | dsimp only

theorem execTlyDelay_wr (a0 : _) (a1 : _) (s : State) {t : State} (h : execTlyDelay a0 a1 s = .next t) : Wr 0x40000f000000000000000000000e00200000000000000000000000000000000000000000000000000000000000000000000000000000000000000000000000000 s t := by
  unfold execTlyDelay at h
  injection h with h
  subst h
  repeat' first
    | exact rfl
    | (refine (?_ : _ = true); dsimp only [List.all]; exact rfl)
    | with_reducible exact Wr.refl _ _
    | with_reducible assumption
    | with_reducible refine writeReg_wr (r0 := .TLY_ENQ_GO) (show findReg (Reg.addr .TLY_ENQ_GO []) = some (.TLY_ENQ_GO, []) by decide +kernel) (fun _ _ => ?_) ?_ ?_
    | with_reducible apply wrTly_TLY_ENQ_GO_wr
    | with_reducible apply Wr.ite <;> intro _
    | with_reducible apply Wr.foldl <;> try intro _ _ _
    | with_reducible apply Wr.foldl_snd <;> try intro _ _ _
    | with_reducible refine Wr.of_snd ‹_ = (_, _)› ?_
    | with_reducible refine Wr.of_snd2 ‹_ = (_, _, _)› ?_
    | with_reducible apply Wr.of_id
    | split
    | dsimp only

theorem execTlyDlyCancel_wr (a0 : _) (a1 : _) (s : State) {t : State} (h : execTlyDlyCancel a0 a1 s = .next t) : Wr 0x40000f000000000000000000000c00200000000000000000000000000000000000000000000000000000000000000000000000000000000000000000000000000 s t := by
  unfold execTlyDlyCancel at h
  injection h with h
  subst h
  repeat' first
    | exact rfl
    | (refine (?_ : _ = true); dsimp only [List.all]; exact rfl)
    | with_reducible exact Wr.refl _ _
    | with_reducible assumption
    | with_reducible refine writeReg_wr (r0 := .TLY_DLY_CANCEL) (show findReg (Reg.addr .TLY_DLY_CANCEL []) = some (.TLY_DLY_CANCEL, []) by decide +kernel) (fun _ _ => ?_) ?_ ?_
    | with_reducible apply wrTly_TLY_DLY_CANCEL_wr
    | with_reducible apply Wr.ite <;> intro _
    | with_reducible apply Wr.foldl <;> try intro _ _ _
    | with_reducible apply Wr.foldl_snd <;> try intro _ _ _
    | with_reducible refine Wr.of_snd ‹_ = (_, _)› ?_
    | with_reducible refine Wr.of_snd2 ‹_ = (_, _, _)› ?_
    | with_reducible apply Wr.of_id
    | split
    | dsimp only

theorem execDelayDue_wr (a0 : _) (a1 : _) (s : State) {t : State} (h : execDelayDue a0 a1 s = .next t) : Wr 0xc00000000000000000000000000000000000000000000000000000000000000000000000000000000000000000000000000000 s t := by
  unfold execDelayDue at h
  injection h with h
  subst h
  repeat' first
    | exact rfl
    | (refine (?_ : _ = true); dsimp only [List.all]; exact rfl)
    | with_reducible exact Wr.refl _ _
    | with_reducible assumption
    | with_reducible apply State.dlyDue_wr
    | with_reducible apply Wr.ite <;> intro _
    | with_reducible apply Wr.foldl <;> try intro _ _ _
    | with_reducible apply Wr.foldl_snd <;> try intro _ _ _
    | with_reducible refine Wr.of_snd ‹_ = (_, _)› ?_
    | with_reducible refine Wr.of_snd2 ‹_ = (_, _, _)› ?_
    | with_reducible apply Wr.of_id
    | split
    | dsimp only

theorem execTlyPick_wr (a0 : _) (s : State) {t : State} (h : execTlyPick a0 s = .next t) : Wr 0x40000f000000000000000000000001000000000000000000000000000000000000000000000000000000000000000000000000000000000000000000000000000 s t := by
  unfold execTlyPick at h
  injection h with h
  subst h
  repeat' first
    | exact rfl
    | (refine (?_ : _ = true); dsimp only [List.all]; exact rfl)
    | with_reducible exact Wr.refl _ _
    | with_reducible assumption
    | with_reducible refine readReg_wr (r0 := .TLY_PICK) (show findReg (Reg.addr .TLY_PICK []) = some (.TLY_PICK, []) by decide +kernel) (fun _ _ => ?_) ?_ ?_
    | with_reducible apply rdTly_TLY_PICK_wr
    | with_reducible apply Wr.ite <;> intro _
    | with_reducible apply Wr.foldl <;> try intro _ _ _
    | with_reducible apply Wr.foldl_snd <;> try intro _ _ _
    | with_reducible refine Wr.of_snd ‹_ = (_, _)› ?_
    | with_reducible refine Wr.of_snd2 ‹_ = (_, _, _)› ?_
    | with_reducible apply Wr.of_id
    | split
    | dsimp only

theorem execTlyDone_wr (a0 : _) (a1 : _) (s : State) {t : State} (h : execTlyDone a0 a1 s = .next t) : Wr 0x40000f000000000000000000000400000000000000000000000000000000000000000000000000000000000000000000000000000000000000000000000000000 s t := by
  unfold execTlyDone at h
  injection h with h
  subst h
  repeat' first
    | exact rfl
    | (refine (?_ : _ = true); dsimp only [List.all]; exact rfl)
    | with_reducible exact Wr.refl _ _
    | with_reducible assumption
    | with_reducible refine writeReg_wr (r0 := .TLY_DONE) (show findReg (Reg.addr .TLY_DONE []) = some (.TLY_DONE, []) by decide +kernel) (fun _ _ => ?_) ?_ ?_
    | with_reducible apply wrTly_TLY_DONE_wr
    | with_reducible apply Wr.ite <;> intro _
    | with_reducible apply Wr.foldl <;> try intro _ _ _
    | with_reducible apply Wr.foldl_snd <;> try intro _ _ _
    | with_reducible refine Wr.of_snd ‹_ = (_, _)› ?_
    | with_reducible refine Wr.of_snd2 ‹_ = (_, _, _)› ?_
    | with_reducible apply Wr.of_id
    | split
    | dsimp only

theorem execTlyRelPop_wr (a0 : _) (a1 : _) (s : State) (ha1 : a1 < 16) {t : State} (h : execTlyRelPop a0 a1 s = .next t) : Wr 0x40000f000000000000000000000080000000000000000000000000000000000000000000000000000000000000000000000000000000000000000000000000000 s t := by
  unfold execTlyRelPop at h
  injection h with h
  subst h
  repeat' first
    | exact rfl
    | (refine (?_ : _ = true); dsimp only [List.all]; exact rfl)
    | with_reducible exact Wr.refl _ _
    | with_reducible assumption
    | with_reducible refine readReg_wr (r0 := .TLY_REL_POP) ((show ∀ q, q < 16 → findReg (Reg.addr .TLY_REL_POP [q]) = some (.TLY_REL_POP, [q]) by decide +kernel) a1 ha1) (fun _ _ => ?_) ?_ ?_
    | with_reducible apply rdTly_TLY_REL_POP_wr
    | with_reducible apply Wr.ite <;> intro _
    | with_reducible apply Wr.foldl <;> try intro _ _ _
    | with_reducible apply Wr.foldl_snd <;> try intro _ _ _
    | with_reducible refine Wr.of_snd ‹_ = (_, _)› ?_
    | with_reducible refine Wr.of_snd2 ‹_ = (_, _, _)› ?_
    | with_reducible apply Wr.of_id
    | split
    | dsimp only

theorem execEventBead_wr (a0 : _) (s : State) {t : State} (h : execEventBead a0 s = .next t) : Wr 0x200000000000000000000000000000000000000000000000000000000000000000000000000000000000000000000000000000 s t := by
  unfold execEventBead at h
  injection h with h
  subst h
  repeat' first
    | exact rfl
    | (refine (?_ : _ = true); dsimp only [List.all]; exact rfl)
    | with_reducible exact Wr.refl _ _
    | with_reducible assumption
    | with_reducible apply Wr.of_keep (f := 131072) (State.tlyUpd_keep (m := 131072) _ _ rfl (Keep.refl _ _)) rfl
    | with_reducible apply Wr.of_keep (f := 256) (State.setPend_keep (m := 256) _ _ _ rfl (Keep.refl _ _)) rfl
    | with_reducible apply Wr.of_keep (f := 131073) (State.tlyJoin_keep (m := 131073) _ _ rfl (Keep.refl _ _)) rfl
    | with_reducible apply State.tlyFull_wr
    | with_reducible apply Wr.ite <;> intro _
    | with_reducible apply Wr.foldl <;> try intro _ _ _
    | with_reducible apply Wr.foldl_snd <;> try intro _ _ _
    | with_reducible refine Wr.of_snd ‹_ = (_, _)› ?_
    | with_reducible refine Wr.of_snd2 ‹_ = (_, _, _)› ?_
    | with_reducible apply Wr.of_id
    | split
    | dsimp only

theorem execEvtClaim_wr (a0 : _) (s : State) {t : State} (h : execEvtClaim a0 s = .next t) : Wr 0x40000f000000000000000000002000000000000000000000000000000000000000000000000000000000000000000000000000000000000000000000000000000 s t := by
  unfold execEvtClaim at h
  injection h with h
  subst h
  repeat' first
    | exact rfl
    | (refine (?_ : _ = true); dsimp only [List.all]; exact rfl)
    | with_reducible exact Wr.refl _ _
    | with_reducible assumption
    | with_reducible refine readReg_wr (r0 := .EVT_CLAIM) (show findReg (Reg.addr .EVT_CLAIM []) = some (.EVT_CLAIM, []) by decide +kernel) (fun _ _ => ?_) ?_ ?_
    | with_reducible apply rdTly_EVT_CLAIM_wr
    | with_reducible apply Wr.ite <;> intro _
    | with_reducible apply Wr.foldl <;> try intro _ _ _
    | with_reducible apply Wr.foldl_snd <;> try intro _ _ _
    | with_reducible refine Wr.of_snd ‹_ = (_, _)› ?_
    | with_reducible refine Wr.of_snd2 ‹_ = (_, _, _)› ?_
    | with_reducible apply Wr.of_id
    | split
    | dsimp only

theorem execEvtHclaim_wr (a0 : _) (s : State) {t : State} (h : execEvtHclaim a0 s = .next t) : Wr 0x40000f000000000000000000002000000000000000000000000000000000000000000000000000000000000000000000000000000000000000000000000000000 s t := by
  unfold execEvtHclaim at h
  injection h with h
  subst h
  repeat' first
    | exact rfl
    | (refine (?_ : _ = true); dsimp only [List.all]; exact rfl)
    | with_reducible exact Wr.refl _ _
    | with_reducible assumption
    | with_reducible refine readReg_wr (r0 := .EVT_HCLAIM) (show findReg (Reg.addr .EVT_HCLAIM []) = some (.EVT_HCLAIM, []) by decide +kernel) (fun _ _ => ?_) ?_ ?_
    | with_reducible apply rdTly_EVT_HCLAIM_wr
    | with_reducible apply Wr.ite <;> intro _
    | with_reducible apply Wr.foldl <;> try intro _ _ _
    | with_reducible apply Wr.foldl_snd <;> try intro _ _ _
    | with_reducible refine Wr.of_snd ‹_ = (_, _)› ?_
    | with_reducible refine Wr.of_snd2 ‹_ = (_, _, _)› ?_
    | with_reducible apply Wr.of_id
    | split
    | dsimp only

theorem execEvtClr_wr (a0 : _) (a1 : _) (s : State) {t : State} (h : execEvtClr a0 a1 s = .next t) : Wr 0x40000f000000000000000000000000000000000000000000000000000000000000000000000000000000000000000000000000000000000000000000000000000 s t := by
  unfold execEvtClr at h
  injection h with h
  subst h
  repeat' first
    | exact rfl
    | (refine (?_ : _ = true); dsimp only [List.all]; exact rfl)
    | with_reducible exact Wr.refl _ _
    | with_reducible assumption
    | with_reducible refine writeReg_wr (r0 := .EVT_CLR) (show findReg (Reg.addr .EVT_CLR []) = some (.EVT_CLR, []) by decide +kernel) (fun _ _ => ?_) ?_ ?_
    | with_reducible apply wrTly_EVT_CLR_wr
    | with_reducible apply Wr.ite <;> intro _
    | with_reducible apply Wr.foldl <;> try intro _ _ _
    | with_reducible apply Wr.foldl_snd <;> try intro _ _ _
    | with_reducible refine Wr.of_snd ‹_ = (_, _)› ?_
    | with_reducible refine Wr.of_snd2 ‹_ = (_, _, _)› ?_
    | with_reducible apply Wr.of_id
    | split
    | dsimp only

end Sys2Proof.Machine
end

