-- ==== Sys2Proof/Laws/WrReckoner.lean ====
section
/-! SUPPORT. The registers that each operation of Machine/Reckoner.lean may change. -/

set_option Elab.async false

namespace Sys2Proof.Machine

theorem State.rkSetS_wr {m : Nat} {s0 : State} (s : State) (a1 : _) (a2 : _) (a3 : _) (hm : subMask 0x2000000000000000000000000000000000000000000000000000000000000000000000000000000000000000000000000000000000 m = true) (h : Wr m s0 s) : Wr m s0 (State.rkSetS s a1 a2 a3) := by
  refine Wr.lift (f := 0x2000000000000000000000000000000000000000000000000000000000000000000000000000000000000000000000000000000000) ?_ hm h
  unfold State.rkSetS
  repeat' first
    | exact rfl
    | (refine (?_ : _ = true); dsimp only [List.all]; exact rfl)
    | with_reducible exact Wr.refl _ _
    | with_reducible assumption
    | with_reducible apply State.setReg_wr
    | with_reducible apply Wr.ite <;> intro _
    | with_reducible apply Wr.foldl <;> try intro _ _ _
    | with_reducible apply Wr.foldl_snd <;> try intro _ _ _
    | with_reducible refine Wr.of_snd ‹_ = (_, _)› ?_
    | with_reducible refine Wr.of_snd2 ‹_ = (_, _, _)› ?_
    | with_reducible apply Wr.of_id
    | split
    | dsimp only

theorem State.rkFault_wr {m : Nat} {s0 : State} (s : State) (a1 : _) (a2 : _) (hm : subMask 0x200400000000000000000000000000000000000000000000000000000000000000000000000000000000000000000000000000000 m = true) (h : Wr m s0 s) : Wr m s0 (State.rkFault s a1 a2) := by
  refine Wr.lift (f := 0x200400000000000000000000000000000000000000000000000000000000000000000000000000000000000000000000000000000) ?_ hm h
  unfold State.rkFault
  repeat' first
    | exact rfl
    | (refine (?_ : _ = true); dsimp only [List.all]; exact rfl)
    | with_reducible exact Wr.refl _ _
    | with_reducible assumption
    | with_reducible apply Wr.of_keep (f := 272) (State.raise_keep (m := 272) _ _ rfl (Keep.refl _ _)) rfl
    | with_reducible apply State.sets_wr
    | with_reducible apply State.tlyEnd_wr
    | with_reducible apply Wr.ite <;> intro _
    | with_reducible apply Wr.foldl <;> try intro _ _ _
    | with_reducible apply Wr.foldl_snd <;> try intro _ _ _
    | with_reducible refine Wr.of_snd ‹_ = (_, _)› ?_
    | with_reducible refine Wr.of_snd2 ‹_ = (_, _, _)› ?_
    | with_reducible apply Wr.of_id
    | split
    | dsimp only

theorem State.rkCheck_wr {m : Nat} {s0 : State} (s : State) (a1 : _) (hm : subMask 0x200400000000000000000000000000000000000000000000000000000000000000000000000000000000000000000000000000000 m = true) (h : Wr m s0 s) : Wr m s0 (State.rkCheck s a1) := by
  refine Wr.lift (f := 0x200400000000000000000000000000000000000000000000000000000000000000000000000000000000000000000000000000000) ?_ hm h
  unfold State.rkCheck
  repeat' first
    | exact rfl
    | (refine (?_ : _ = true); dsimp only [List.all]; exact rfl)
    | with_reducible exact Wr.refl _ _
    | with_reducible assumption
    | with_reducible apply State.rkFault_wr
    | with_reducible apply Wr.ite <;> intro _
    | with_reducible apply Wr.foldl <;> try intro _ _ _
    | with_reducible apply Wr.foldl_snd <;> try intro _ _ _
    | with_reducible refine Wr.of_snd ‹_ = (_, _)› ?_
    | with_reducible refine Wr.of_snd2 ‹_ = (_, _, _)› ?_
    | with_reducible apply Wr.of_id
    | split
    | dsimp only

theorem State.rkStart_wr {m : Nat} {s0 : State} (s : State) (a1 : _) (hm : subMask 0x200400000000000000000000000000000000000000000000000000000000000000000000000000000000000000000000000000000 m = true) (h : Wr m s0 s) : Wr m s0 (State.rkStart s a1) := by
  refine Wr.lift (f := 0x200400000000000000000000000000000000000000000000000000000000000000000000000000000000000000000000000000000) ?_ hm h
  unfold State.rkStart
  repeat' first
    | exact rfl
    | (refine (?_ : _ = true); dsimp only [List.all]; exact rfl)
    | with_reducible exact Wr.refl _ _
    | with_reducible assumption
    | with_reducible apply State.rkCheck_wr
    | with_reducible apply Wr.of_keep (f := 262144) (State.rkUpd_keep (m := 262144) _ _ _ rfl (Keep.refl _ _)) rfl
    | with_reducible apply State.sets_wr
    | with_reducible apply Wr.ite <;> intro _
    | with_reducible apply Wr.foldl <;> try intro _ _ _
    | with_reducible apply Wr.foldl_snd <;> try intro _ _ _
    | with_reducible refine Wr.of_snd ‹_ = (_, _)› ?_
    | with_reducible refine Wr.of_snd2 ‹_ = (_, _, _)› ?_
    | with_reducible apply Wr.of_id
    | split
    | dsimp only

theorem State.rkIssue_wr {m : Nat} {s0 : State} (s : State) (a1 : _) (a2 : _) (a3 : _) (hm : subMask 0x1000000000000000000000000000000000000000000000000000000000000000000000000000000000000000000000000000000000 m = true) (h : Wr m s0 s) : Wr m s0 (State.rkIssue s a1 a2 a3).2 := by
  refine Wr.lift (f := 0x1000000000000000000000000000000000000000000000000000000000000000000000000000000000000000000000000000000000) ?_ hm h
  unfold State.rkIssue
  repeat' first
    | exact rfl
    | (refine (?_ : _ = true); dsimp only [List.all]; exact rfl)
    | with_reducible exact Wr.refl _ _
    | with_reducible assumption
    | with_reducible apply State.incBy_wr
    | with_reducible apply Wr.of_keep (f := 262144) (State.rkUpd_keep (m := 262144) _ _ _ rfl (Keep.refl _ _)) rfl
    | with_reducible apply Wr.ite <;> intro _
    | with_reducible apply Wr.foldl <;> try intro _ _ _
    | with_reducible apply Wr.foldl_snd <;> try intro _ _ _
    | with_reducible refine Wr.of_snd ‹_ = (_, _)› ?_
    | with_reducible refine Wr.of_snd2 ‹_ = (_, _, _)› ?_
    | with_reducible apply Wr.of_id
    | split
    | dsimp only

theorem State.rkAdvance_wr {m : Nat} {s0 : State} (s : State) (a1 : _) (hm : subMask 0x600400000000000000000000000000000000000000000000000000000000000000000000000000000000000000000000000000000 m = true) (h : Wr m s0 s) : Wr m s0 (State.rkAdvance s a1) := by
  refine Wr.lift (f := 0x600400000000000000000000000000000000000000000000000000000000000000000000000000000000000000000000000000000) ?_ hm h
  unfold State.rkAdvance
  repeat' first
    | exact rfl
    | (refine (?_ : _ = true); dsimp only [List.all]; exact rfl)
    | with_reducible exact Wr.refl _ _
    | with_reducible assumption
    | with_reducible apply Wr.of_keep (f := 262144) (State.rkUpd_keep (m := 262144) _ _ _ rfl (Keep.refl _ _)) rfl
    | with_reducible apply State.rkCheck_wr
    | with_reducible apply State.set_wr
    | with_reducible apply Wr.ite <;> intro _
    | with_reducible apply Wr.foldl <;> try intro _ _ _
    | with_reducible apply Wr.foldl_snd <;> try intro _ _ _
    | with_reducible refine Wr.of_snd ‹_ = (_, _)› ?_
    | with_reducible refine Wr.of_snd2 ‹_ = (_, _, _)› ?_
    | with_reducible apply Wr.of_id
    | split
    | dsimp only

theorem rkRun_wr {m : Nat} {s0 : State} (k op : Nat) (f : Nat → State → State) (s : State) (hf : ∀ w t, Wr m s0 t → Wr m s0 (f w t))
    (h : Wr m s0 s) : Wr m s0 (rkRun k op f s) := by
  unfold rkRun
  split
  · exact hf _ _ h
  · exact h

theorem State.rkSat_wr {m : Nat} {s0 : State} (s : State) (a1 : _) (a2 : _) (hm : subMask 0xa00000000000000000000000000000000000000000000000000000000000000000000000000000000000000000000000000000000 m = true) (h : Wr m s0 s) : Wr m s0 (State.rkSat s a1 a2) := by
  refine Wr.lift (f := 0xa00000000000000000000000000000000000000000000000000000000000000000000000000000000000000000000000000000000) ?_ hm h
  unfold State.rkSat
  repeat' first
    | exact rfl
    | (refine (?_ : _ = true); dsimp only [List.all]; exact rfl)
    | with_reducible exact Wr.refl _ _
    | with_reducible assumption
    | with_reducible apply State.inc_wr
    | with_reducible apply State.set_wr
    | with_reducible apply Wr.ite <;> intro _
    | with_reducible apply Wr.foldl <;> try intro _ _ _
    | with_reducible apply Wr.foldl_snd <;> try intro _ _ _
    | with_reducible refine Wr.of_snd ‹_ = (_, _)› ?_
    | with_reducible refine Wr.of_snd2 ‹_ = (_, _, _)› ?_
    | with_reducible apply Wr.of_id
    | split
    | dsimp only

theorem State.rkSetV_wr {m : Nat} {s0 : State} (s : State) (a1 : _) (a2 : _) (a3 : _) (a4 : _) (a5 : _) (hm : subMask 0xa00000000000000000000000000000000000000000000000000000000000000000000000000000000000000000000000000000000 m = true) (h : Wr m s0 s) : Wr m s0 (State.rkSetV s a1 a2 a3 a4 a5) := by
  refine Wr.lift (f := 0xa00000000000000000000000000000000000000000000000000000000000000000000000000000000000000000000000000000000) ?_ hm h
  unfold State.rkSetV
  repeat' first
    | exact rfl
    | (refine (?_ : _ = true); dsimp only [List.all]; exact rfl)
    | with_reducible exact Wr.refl _ _
    | with_reducible assumption
    | with_reducible apply State.rkSat_wr
    | with_reducible apply Wr.of_keep (f := 262144) (State.rkUpd_keep (m := 262144) _ _ _ rfl (Keep.refl _ _)) rfl
    | with_reducible apply Wr.ite <;> intro _
    | with_reducible apply Wr.foldl <;> try intro _ _ _
    | with_reducible apply Wr.foldl_snd <;> try intro _ _ _
    | with_reducible refine Wr.of_snd ‹_ = (_, _)› ?_
    | with_reducible refine Wr.of_snd2 ‹_ = (_, _, _)› ?_
    | with_reducible apply Wr.of_id
    | split
    | dsimp only

theorem State.rkSetA_wr {m : Nat} {s0 : State} (s : State) (a1 : _) (a2 : _) (a3 : _) (a4 : _) (a5 : _) (hm : subMask 0xa00000000000000000000000000000000000000000000000000000000000000000000000000000000000000000000000000000000 m = true) (h : Wr m s0 s) : Wr m s0 (State.rkSetA s a1 a2 a3 a4 a5) := by
  refine Wr.lift (f := 0xa00000000000000000000000000000000000000000000000000000000000000000000000000000000000000000000000000000000) ?_ hm h
  unfold State.rkSetA
  repeat' first
    | exact rfl
    | (refine (?_ : _ = true); dsimp only [List.all]; exact rfl)
    | with_reducible exact Wr.refl _ _
    | with_reducible assumption
    | with_reducible apply State.rkSat_wr
    | with_reducible apply Wr.of_keep (f := 262144) (State.rkUpd_keep (m := 262144) _ _ _ rfl (Keep.refl _ _)) rfl
    | with_reducible apply Wr.ite <;> intro _
    | with_reducible apply Wr.foldl <;> try intro _ _ _
    | with_reducible apply Wr.foldl_snd <;> try intro _ _ _
    | with_reducible refine Wr.of_snd ‹_ = (_, _)› ?_
    | with_reducible refine Wr.of_snd2 ‹_ = (_, _, _)› ?_
    | with_reducible apply Wr.of_id
    | split
    | dsimp only

theorem rkVec_wr {m : Nat} {s0 : State} (a0 : _) (a1 : _) (a2 : _) (a3 : _) (a4 : _) (s : State) (hm : subMask 0x1e00400000000000000000000000000000000000000000000000000000000000000000000000000000000000000000000000000000 m = true) (h : Wr m s0 s) : Wr m s0 (rkVec a0 a1 a2 a3 a4 s) := by
  refine Wr.lift (f := 0x1e00400000000000000000000000000000000000000000000000000000000000000000000000000000000000000000000000000000) ?_ hm h
  unfold rkVec
  repeat' first
    | exact rfl
    | (refine (?_ : _ = true); dsimp only [List.all]; exact rfl)
    | with_reducible exact Wr.refl _ _
    | with_reducible assumption
    | with_reducible apply State.rkIssue_wr
    | with_reducible apply State.rkAdvance_wr
    | with_reducible apply State.rkSetV_wr
    | with_reducible apply Wr.ite <;> intro _
    | with_reducible apply Wr.foldl <;> try intro _ _ _
    | with_reducible apply Wr.foldl_snd <;> try intro _ _ _
    | with_reducible refine Wr.of_snd ‹_ = (_, _)› ?_
    | with_reducible refine Wr.of_snd2 ‹_ = (_, _, _)› ?_
    | with_reducible apply Wr.of_id
    | split
    | dsimp only

theorem rkMac_wr {m : Nat} {s0 : State} (a0 : _) (a1 : _) (a2 : _) (s : State) (hm : subMask 0x1e00400000000000000000000000000000000000000000000000000000000000000000000000000000000000000000000000000000 m = true) (h : Wr m s0 s) : Wr m s0 (rkMac a0 a1 a2 s) := by
  refine Wr.lift (f := 0x1e00400000000000000000000000000000000000000000000000000000000000000000000000000000000000000000000000000000) ?_ hm h
  unfold rkMac
  repeat' first
    | exact rfl
    | (refine (?_ : _ = true); dsimp only [List.all]; exact rfl)
    | with_reducible exact Wr.refl _ _
    | with_reducible assumption
    | with_reducible apply State.rkIssue_wr
    | with_reducible apply State.rkAdvance_wr
    | with_reducible apply State.rkSetA_wr
    | with_reducible apply Wr.ite <;> intro _
    | with_reducible apply Wr.foldl <;> try intro _ _ _
    | with_reducible apply Wr.foldl_snd <;> try intro _ _ _
    | with_reducible refine Wr.of_snd ‹_ = (_, _)› ?_
    | with_reducible refine Wr.of_snd2 ‹_ = (_, _, _)› ?_
    | with_reducible apply Wr.of_id
    | split
    | dsimp only

theorem execRknNop_wr (a0 : _) (s : State) {t : State} (h : execRknNop a0 s = .next t) : Wr 0x1600400000000000000000000000000000000000000000000000000000000000000000000000000000000000000000000000000000 s t := by
  unfold execRknNop at h
  injection h with h
  subst h
  repeat' first
    | exact rfl
    | (refine (?_ : _ = true); dsimp only [List.all]; exact rfl)
    | with_reducible exact Wr.refl _ _
    | with_reducible assumption
    | with_reducible refine rkRun_wr _ _ _ _ (fun _ _ _ => ?_) ?_
    | with_reducible apply State.rkAdvance_wr
    | with_reducible apply State.rkIssue_wr
    | with_reducible apply Wr.ite <;> intro _
    | with_reducible apply Wr.foldl <;> try intro _ _ _
    | with_reducible apply Wr.foldl_snd <;> try intro _ _ _
    | with_reducible refine Wr.of_snd ‹_ = (_, _)› ?_
    | with_reducible refine Wr.of_snd2 ‹_ = (_, _, _)› ?_
    | with_reducible apply Wr.of_id
    | split
    | dsimp only

theorem execRknHalt_wr (a0 : _) (s : State) {t : State} (h : execRknHalt a0 s = .next t) : Wr 0x1200400000000000000000000000000000000000000000000000000000000000000000000000000000000000000000000000000000 s t := by
  unfold execRknHalt at h
  injection h with h
  subst h
  repeat' first
    | exact rfl
    | (refine (?_ : _ = true); dsimp only [List.all]; exact rfl)
    | with_reducible exact Wr.refl _ _
    | with_reducible assumption
    | with_reducible refine rkRun_wr _ _ _ _ (fun _ _ _ => ?_) ?_
    | with_reducible apply State.sets_wr
    | with_reducible apply State.rkIssue_wr
    | with_reducible apply Wr.of_keep (f := 272) (State.raise_keep (m := 272) _ _ rfl (Keep.refl _ _)) rfl
    | with_reducible apply State.tlyEnd_wr
    | with_reducible apply Wr.ite <;> intro _
    | with_reducible apply Wr.foldl <;> try intro _ _ _
    | with_reducible apply Wr.foldl_snd <;> try intro _ _ _
    | with_reducible refine Wr.of_snd ‹_ = (_, _)› ?_
    | with_reducible refine Wr.of_snd2 ‹_ = (_, _, _)› ?_
    | with_reducible apply Wr.of_id
    | split
    | dsimp only

theorem execRknLoop_wr (a0 : _) (s : State) {t : State} (h : execRknLoop a0 s = .next t) : Wr 0x1600400000000000000000000000000000000000000000000000000000000000000000000000000000000000000000000000000000 s t := by
  unfold execRknLoop at h
  injection h with h
  subst h
  repeat' first
    | exact rfl
    | (refine (?_ : _ = true); dsimp only [List.all]; exact rfl)
    | with_reducible exact Wr.refl _ _
    | with_reducible assumption
    | with_reducible refine rkRun_wr _ _ _ _ (fun _ _ _ => ?_) ?_
    | with_reducible apply State.rkIssue_wr
    | with_reducible apply State.rkFault_wr
    | with_reducible apply State.rkCheck_wr
    | with_reducible apply State.set_wr
    | with_reducible apply Wr.of_keep (f := 262144) (State.rkUpd_keep (m := 262144) _ _ _ rfl (Keep.refl _ _)) rfl
    | with_reducible apply Wr.ite <;> intro _
    | with_reducible apply Wr.foldl <;> try intro _ _ _
    | with_reducible apply Wr.foldl_snd <;> try intro _ _ _
    | with_reducible refine Wr.of_snd ‹_ = (_, _)› ?_
    | with_reducible refine Wr.of_snd2 ‹_ = (_, _, _)› ?_
    | with_reducible apply Wr.of_id
    | split
    | dsimp only

theorem execRknBrc_wr (a0 : _) (s : State) {t : State} (h : execRknBrc a0 s = .next t) : Wr 0x1600400000000000000000000000000000000000000000000000000000000000000000000000000000000000000000000000000000 s t := by
  unfold execRknBrc at h
  injection h with h
  subst h
  repeat' first
    | exact rfl
    | (refine (?_ : _ = true); dsimp only [List.all]; exact rfl)
    | with_reducible exact Wr.refl _ _
    | with_reducible assumption
    | with_reducible refine rkRun_wr _ _ _ _ (fun _ _ _ => ?_) ?_
    | with_reducible apply State.rkCheck_wr
    | with_reducible apply State.set_wr
    | with_reducible apply Wr.of_keep (f := 262144) (State.rkUpd_keep (m := 262144) _ _ _ rfl (Keep.refl _ _)) rfl
    | with_reducible apply State.rkIssue_wr
    | with_reducible apply State.rkAdvance_wr
    | with_reducible apply Wr.ite <;> intro _
    | with_reducible apply Wr.foldl <;> try intro _ _ _
    | with_reducible apply Wr.foldl_snd <;> try intro _ _ _
    | with_reducible refine Wr.of_snd ‹_ = (_, _)› ?_
    | with_reducible refine Wr.of_snd2 ‹_ = (_, _, _)› ?_
    | with_reducible apply Wr.of_id
    | split
    | dsimp only

theorem execRknDma_wr (a0 : _) (s : State) {t : State} (h : execRknDma a0 s = .next t) : Wr 0x1600400000000000000000000000000000000000000000000000000000000000000000000000000000000000000000000000000000 s t := by
  unfold execRknDma at h
  injection h with h
  subst h
  repeat' first
    | exact rfl
    | (refine (?_ : _ = true); dsimp only [List.all]; exact rfl)
    | with_reducible exact Wr.refl _ _
    | with_reducible assumption
    | with_reducible refine rkRun_wr _ _ _ _ (fun _ _ _ => ?_) ?_
    | with_reducible apply State.rkFault_wr
    | with_reducible apply State.rkIssue_wr
    | with_reducible apply State.rkAdvance_wr
    | with_reducible apply Wr.of_keep (f := 262144) (State.rkUpd_keep (m := 262144) _ _ _ rfl (Keep.refl _ _)) rfl
    | with_reducible apply Wr.ite <;> intro _
    | with_reducible apply Wr.foldl <;> try intro _ _ _
    | with_reducible apply Wr.foldl_snd <;> try intro _ _ _
    | with_reducible refine Wr.of_snd ‹_ = (_, _)› ?_
    | with_reducible refine Wr.of_snd2 ‹_ = (_, _, _)› ?_
    | with_reducible apply Wr.of_id
    | split
    | dsimp only

theorem execRknDmaComplete_wr (a0 : _) (a1 : _) (s : State) {t : State} (h : execRknDmaComplete a0 a1 s = .next t) : Wr 0x500a00200400000000000000000000000000000000000000000000000000000000000000000000000000000000000000000000000000000 s t := by
  unfold execRknDmaComplete at h
  injection h with h
  subst h
  repeat' first
    | exact rfl
    | (refine (?_ : _ = true); dsimp only [List.all]; exact rfl)
    | with_reducible exact Wr.refl _ _
    | with_reducible assumption
    | with_reducible apply Wr.of_keep (f := 262144) (State.rkUpd_keep (m := 262144) _ _ _ rfl (Keep.refl _ _)) rfl
    | with_reducible apply Wr.of_keep (f := 65600) (State.memWrite_keep (m := 65600) _ _ _ _ rfl (Keep.refl _ _)) rfl
    | with_reducible apply State.rkFault_wr
    | with_reducible apply State.memRead_wr
    | with_reducible apply Wr.of_keep (f := 65600) (State.memPut_keep (m := 65600) _ _ _ rfl (Keep.refl _ _)) rfl
    | with_reducible apply Wr.ite <;> intro _
    | with_reducible apply Wr.foldl <;> try intro _ _ _
    | with_reducible apply Wr.foldl_snd <;> try intro _ _ _
    | with_reducible refine Wr.of_snd ‹_ = (_, _)› ?_
    | with_reducible refine Wr.of_snd2 ‹_ = (_, _, _)› ?_
    | with_reducible apply Wr.of_id
    | split
    | dsimp only

theorem execRknDwait_wr (a0 : _) (s : State) {t : State} (h : execRknDwait a0 s = .next t) : Wr 0x1600400000000000000000000000000000000000000000000000000000000000000000000000000000000000000000000000000000 s t := by
  unfold execRknDwait at h
  injection h with h
  subst h
  repeat' first
    | exact rfl
    | (refine (?_ : _ = true); dsimp only [List.all]; exact rfl)
    | with_reducible exact Wr.refl _ _
    | with_reducible assumption
    | with_reducible refine rkRun_wr _ _ _ _ (fun _ _ _ => ?_) ?_
    | with_reducible apply State.rkAdvance_wr
    | with_reducible apply State.rkIssue_wr
    | with_reducible apply Wr.ite <;> intro _
    | with_reducible apply Wr.foldl <;> try intro _ _ _
    | with_reducible apply Wr.foldl_snd <;> try intro _ _ _
    | with_reducible refine Wr.of_snd ‹_ = (_, _)› ?_
    | with_reducible refine Wr.of_snd2 ‹_ = (_, _, _)› ?_
    | with_reducible apply Wr.of_id
    | split
    | dsimp only

theorem execRknLd_wr (a0 : _) (s : State) {t : State} (h : execRknLd a0 s = .next t) : Wr 0x1600400000000000000000000000000000000000000000000000000000000000000000000000000000000000000000000000000000 s t := by
  unfold execRknLd at h
  injection h with h
  subst h
  repeat' first
    | exact rfl
    | (refine (?_ : _ = true); dsimp only [List.all]; exact rfl)
    | with_reducible exact Wr.refl _ _
    | with_reducible assumption
    | with_reducible refine rkRun_wr _ _ _ _ (fun _ _ _ => ?_) ?_
    | with_reducible apply State.rkIssue_wr
    | with_reducible apply Wr.of_keep (f := 262144) (State.rkUpd_keep (m := 262144) _ _ _ rfl (Keep.refl _ _)) rfl
    | with_reducible apply State.rkAdvance_wr
    | with_reducible apply Wr.of_keep (f := 262144) (State.rkStep_keep (m := 262144) _ _ _ rfl (Keep.refl _ _)) rfl
    | with_reducible apply Wr.ite <;> intro _
    | with_reducible apply Wr.foldl <;> try intro _ _ _
    | with_reducible apply Wr.foldl_snd <;> try intro _ _ _
    | (rewrite [State.mk_eq_updOf]; with_reducible refine Wr.node rfl rfl rfl ?_)
    | with_reducible refine Wr.of_snd ‹_ = (_, _)› ?_
    | with_reducible refine Wr.of_snd2 ‹_ = (_, _, _)› ?_
    | with_reducible apply Wr.of_id
    | split
    | dsimp only

theorem execRknSt_wr (a0 : _) (s : State) {t : State} (h : execRknSt a0 s = .next t) : Wr 0x1e00400000000000000000000000000000000000000000000000000000000000000000000000000000000000000000000000000000 s t := by
  unfold execRknSt at h
  injection h with h
  subst h
  repeat' first
    | exact rfl
    | (refine (?_ : _ = true); dsimp only [List.all]; exact rfl)
    | with_reducible exact Wr.refl _ _
    | with_reducible assumption
    | with_reducible refine rkRun_wr _ _ _ _ (fun _ _ _ => ?_) ?_
    | with_reducible apply State.rkIssue_wr
    | with_reducible apply State.rkSat_wr
    | with_reducible apply Wr.of_keep (f := 327744) (State.rkStores_keep (m := 327744) _ _ _ _ rfl (Keep.refl _ _)) rfl
    | with_reducible apply State.rkAdvance_wr
    | with_reducible apply Wr.of_keep (f := 262144) (State.rkStep_keep (m := 262144) _ _ _ rfl (Keep.refl _ _)) rfl
    | with_reducible apply Wr.ite <;> intro _
    | with_reducible apply Wr.foldl <;> try intro _ _ _
    | with_reducible apply Wr.foldl_snd <;> try intro _ _ _
    | (rewrite [State.mk_eq_updOf]; with_reducible refine Wr.node rfl rfl rfl ?_)
    | with_reducible refine Wr.of_snd ‹_ = (_, _)› ?_
    | with_reducible refine Wr.of_snd2 ‹_ = (_, _, _)› ?_
    | with_reducible apply Wr.of_id
    | split
    | dsimp only

theorem execRknLde_wr (a0 : _) (s : State) {t : State} (h : execRknLde a0 s = .next t) : Wr 0x1600400000000000000000000000000000000000000000000000000000000000000000000000000000000000000000000000000000 s t := by
  unfold execRknLde at h
  injection h with h
  subst h
  repeat' first
    | exact rfl
    | (refine (?_ : _ = true); dsimp only [List.all]; exact rfl)
    | with_reducible exact Wr.refl _ _
    | with_reducible assumption
    | with_reducible refine rkRun_wr _ _ _ _ (fun _ _ _ => ?_) ?_
    | with_reducible apply State.rkIssue_wr
    | with_reducible apply Wr.of_keep (f := 262144) (State.rkUpd_keep (m := 262144) _ _ _ rfl (Keep.refl _ _)) rfl
    | with_reducible apply State.rkAdvance_wr
    | with_reducible apply Wr.of_keep (f := 262144) (State.rkStep_keep (m := 262144) _ _ _ rfl (Keep.refl _ _)) rfl
    | with_reducible apply Wr.ite <;> intro _
    | with_reducible apply Wr.foldl <;> try intro _ _ _
    | with_reducible apply Wr.foldl_snd <;> try intro _ _ _
    | (rewrite [State.mk_eq_updOf]; with_reducible refine Wr.node rfl rfl rfl ?_)
    | with_reducible refine Wr.of_snd ‹_ = (_, _)› ?_
    | with_reducible refine Wr.of_snd2 ‹_ = (_, _, _)› ?_
    | with_reducible apply Wr.of_id
    | split
    | dsimp only

theorem execRknSte_wr (a0 : _) (s : State) {t : State} (h : execRknSte a0 s = .next t) : Wr 0x1e00400000000000000000000000000000000000000000000000000000000000000000000000000000000000000000000000000000 s t := by
  unfold execRknSte at h
  injection h with h
  subst h
  repeat' first
    | exact rfl
    | (refine (?_ : _ = true); dsimp only [List.all]; exact rfl)
    | with_reducible exact Wr.refl _ _
    | with_reducible assumption
    | with_reducible refine rkRun_wr _ _ _ _ (fun _ _ _ => ?_) ?_
    | with_reducible apply State.rkIssue_wr
    | with_reducible apply State.rkSat_wr
    | with_reducible apply Wr.of_keep (f := 327744) (State.rkStore_keep (m := 327744) _ _ _ _ rfl (Keep.refl _ _)) rfl
    | with_reducible apply State.rkAdvance_wr
    | with_reducible apply Wr.of_keep (f := 262144) (State.rkStep_keep (m := 262144) _ _ _ rfl (Keep.refl _ _)) rfl
    | with_reducible apply Wr.ite <;> intro _
    | with_reducible apply Wr.foldl <;> try intro _ _ _
    | with_reducible apply Wr.foldl_snd <;> try intro _ _ _
    | (rewrite [State.mk_eq_updOf]; with_reducible refine Wr.node rfl rfl rfl ?_)
    | with_reducible refine Wr.of_snd ‹_ = (_, _)› ?_
    | with_reducible refine Wr.of_snd2 ‹_ = (_, _, _)› ?_
    | with_reducible apply Wr.of_id
    | split
    | dsimp only

theorem execRknVadd_wr (a0 : _) (s : State) {t : State} (h : execRknVadd a0 s = .next t) : Wr 0x1e00400000000000000000000000000000000000000000000000000000000000000000000000000000000000000000000000000000 s t := by
  unfold execRknVadd at h
  injection h with h
  subst h
  repeat' first
    | exact rfl
    | (refine (?_ : _ = true); dsimp only [List.all]; exact rfl)
    | with_reducible exact Wr.refl _ _
    | with_reducible assumption
    | with_reducible refine rkRun_wr _ _ _ _ (fun _ _ _ => ?_) ?_
    | with_reducible apply rkVec_wr
    | with_reducible apply Wr.ite <;> intro _
    | with_reducible apply Wr.foldl <;> try intro _ _ _
    | with_reducible apply Wr.foldl_snd <;> try intro _ _ _
    | with_reducible refine Wr.of_snd ‹_ = (_, _)› ?_
    | with_reducible refine Wr.of_snd2 ‹_ = (_, _, _)› ?_
    | with_reducible apply Wr.of_id
    | split
    | dsimp only

theorem execRknVsub_wr (a0 : _) (s : State) {t : State} (h : execRknVsub a0 s = .next t) : Wr 0x1e00400000000000000000000000000000000000000000000000000000000000000000000000000000000000000000000000000000 s t := by
  unfold execRknVsub at h
  injection h with h
  subst h
  repeat' first
    | exact rfl
    | (refine (?_ : _ = true); dsimp only [List.all]; exact rfl)
    | with_reducible exact Wr.refl _ _
    | with_reducible assumption
    | with_reducible refine rkRun_wr _ _ _ _ (fun _ _ _ => ?_) ?_
    | with_reducible apply rkVec_wr
    | with_reducible apply Wr.ite <;> intro _
    | with_reducible apply Wr.foldl <;> try intro _ _ _
    | with_reducible apply Wr.foldl_snd <;> try intro _ _ _
    | with_reducible refine Wr.of_snd ‹_ = (_, _)› ?_
    | with_reducible refine Wr.of_snd2 ‹_ = (_, _, _)› ?_
    | with_reducible apply Wr.of_id
    | split
    | dsimp only

theorem execRknVmul_wr (a0 : _) (s : State) {t : State} (h : execRknVmul a0 s = .next t) : Wr 0x1e00400000000000000000000000000000000000000000000000000000000000000000000000000000000000000000000000000000 s t := by
  unfold execRknVmul at h
  injection h with h
  subst h
  repeat' first
    | exact rfl
    | (refine (?_ : _ = true); dsimp only [List.all]; exact rfl)
    | with_reducible exact Wr.refl _ _
    | with_reducible assumption
    | with_reducible refine rkRun_wr _ _ _ _ (fun _ _ _ => ?_) ?_
    | with_reducible apply rkVec_wr
    | with_reducible apply Wr.ite <;> intro _
    | with_reducible apply Wr.foldl <;> try intro _ _ _
    | with_reducible apply Wr.foldl_snd <;> try intro _ _ _
    | (rewrite [State.mk_eq_updOf]; with_reducible refine Wr.node rfl rfl rfl ?_)
    | with_reducible refine Wr.of_snd ‹_ = (_, _)› ?_
    | with_reducible refine Wr.of_snd2 ‹_ = (_, _, _)› ?_
    | with_reducible apply Wr.of_id
    | split
    | dsimp only

theorem execRknVmac_wr (a0 : _) (s : State) {t : State} (h : execRknVmac a0 s = .next t) : Wr 0x1e00400000000000000000000000000000000000000000000000000000000000000000000000000000000000000000000000000000 s t := by
  unfold execRknVmac at h
  injection h with h
  subst h
  repeat' first
    | exact rfl
    | (refine (?_ : _ = true); dsimp only [List.all]; exact rfl)
    | with_reducible exact Wr.refl _ _
    | with_reducible assumption
    | with_reducible refine rkRun_wr _ _ _ _ (fun _ _ _ => ?_) ?_
    | with_reducible apply rkMac_wr
    | with_reducible apply Wr.ite <;> intro _
    | with_reducible apply Wr.foldl <;> try intro _ _ _
    | with_reducible apply Wr.foldl_snd <;> try intro _ _ _
    | with_reducible refine Wr.of_snd ‹_ = (_, _)› ?_
    | with_reducible refine Wr.of_snd2 ‹_ = (_, _, _)› ?_
    | with_reducible apply Wr.of_id
    | split
    | dsimp only

theorem execRknVmsu_wr (a0 : _) (s : State) {t : State} (h : execRknVmsu a0 s = .next t) : Wr 0x1e00400000000000000000000000000000000000000000000000000000000000000000000000000000000000000000000000000000 s t := by
  unfold execRknVmsu at h
  injection h with h
  subst h
  repeat' first
    | exact rfl
    | (refine (?_ : _ = true); dsimp only [List.all]; exact rfl)
    | with_reducible exact Wr.refl _ _
    | with_reducible assumption
    | with_reducible refine rkRun_wr _ _ _ _ (fun _ _ _ => ?_) ?_
    | with_reducible apply rkMac_wr
    | with_reducible apply Wr.ite <;> intro _
    | with_reducible apply Wr.foldl <;> try intro _ _ _
    | with_reducible apply Wr.foldl_snd <;> try intro _ _ _
    | with_reducible refine Wr.of_snd ‹_ = (_, _)› ?_
    | with_reducible refine Wr.of_snd2 ‹_ = (_, _, _)› ?_
    | with_reducible apply Wr.of_id
    | split
    | dsimp only

theorem execRknAmov_wr (a0 : _) (s : State) {t : State} (h : execRknAmov a0 s = .next t) : Wr 0x1e00400000000000000000000000000000000000000000000000000000000000000000000000000000000000000000000000000000 s t := by
  unfold execRknAmov at h
  injection h with h
  subst h
  repeat' first
    | exact rfl
    | (refine (?_ : _ = true); dsimp only [List.all]; exact rfl)
    | with_reducible exact Wr.refl _ _
    | with_reducible assumption
    | with_reducible refine rkRun_wr _ _ _ _ (fun _ _ _ => ?_) ?_
    | with_reducible apply State.rkIssue_wr
    | with_reducible apply State.rkSetV_wr
    | with_reducible apply State.rkAdvance_wr
    | with_reducible apply Wr.ite <;> intro _
    | with_reducible apply Wr.foldl <;> try intro _ _ _
    | with_reducible apply Wr.foldl_snd <;> try intro _ _ _
    | (rewrite [State.mk_eq_updOf]; with_reducible refine Wr.node rfl rfl rfl ?_)
    | with_reducible refine Wr.of_snd ‹_ = (_, _)› ?_
    | with_reducible refine Wr.of_snd2 ‹_ = (_, _, _)› ?_
    | with_reducible apply Wr.of_id
    | split
    | dsimp only

theorem execRknAclr_wr (a0 : _) (s : State) {t : State} (h : execRknAclr a0 s = .next t) : Wr 0x1e00400000000000000000000000000000000000000000000000000000000000000000000000000000000000000000000000000000 s t := by
  unfold execRknAclr at h
  injection h with h
  subst h
  repeat' first
    | exact rfl
    | (refine (?_ : _ = true); dsimp only [List.all]; exact rfl)
    | with_reducible exact Wr.refl _ _
    | with_reducible assumption
    | with_reducible refine rkRun_wr _ _ _ _ (fun _ _ _ => ?_) ?_
    | with_reducible apply State.rkIssue_wr
    | with_reducible apply State.rkAdvance_wr
    | with_reducible apply State.rkSetA_wr
    | with_reducible apply Wr.ite <;> intro _
    | with_reducible apply Wr.foldl <;> try intro _ _ _
    | with_reducible apply Wr.foldl_snd <;> try intro _ _ _
    | with_reducible refine Wr.of_snd ‹_ = (_, _)› ?_
    | with_reducible refine Wr.of_snd2 ‹_ = (_, _, _)› ?_
    | with_reducible apply Wr.of_id
    | split
    | dsimp only

theorem execRknVbfly_wr (a0 : _) (s : State) {t : State} (h : execRknVbfly a0 s = .next t) : Wr 0x1e00400000000000000000000000000000000000000000000000000000000000000000000000000000000000000000000000000000 s t := by
  unfold execRknVbfly at h
  injection h with h
  subst h
  repeat' first
    | exact rfl
    | (refine (?_ : _ = true); dsimp only [List.all]; exact rfl)
    | with_reducible exact Wr.refl _ _
    | with_reducible assumption
    | with_reducible refine rkRun_wr _ _ _ _ (fun _ _ _ => ?_) ?_
    | with_reducible apply rkVec_wr
    | with_reducible apply State.rkFault_wr
    | with_reducible apply Wr.ite <;> intro _
    | with_reducible apply Wr.foldl <;> try intro _ _ _
    | with_reducible apply Wr.foldl_snd <;> try intro _ _ _
    | with_reducible refine Wr.of_snd ‹_ = (_, _)› ?_
    | with_reducible refine Wr.of_snd2 ‹_ = (_, _, _)› ?_
    | with_reducible apply Wr.of_id
    | split
    | dsimp only

theorem execRknVsh_wr (a0 : _) (s : State) {t : State} (h : execRknVsh a0 s = .next t) : Wr 0x1e00400000000000000000000000000000000000000000000000000000000000000000000000000000000000000000000000000000 s t := by
  unfold execRknVsh at h
  injection h with h
  subst h
  repeat' first
    | exact rfl
    | (refine (?_ : _ = true); dsimp only [List.all]; exact rfl)
    | with_reducible exact Wr.refl _ _
    | with_reducible assumption
    | with_reducible refine rkRun_wr _ _ _ _ (fun _ _ _ => ?_) ?_
    | with_reducible apply rkVec_wr
    | with_reducible apply Wr.ite <;> intro _
    | with_reducible apply Wr.foldl <;> try intro _ _ _
    | with_reducible apply Wr.foldl_snd <;> try intro _ _ _
    | with_reducible refine Wr.of_snd ‹_ = (_, _)› ?_
    | with_reducible refine Wr.of_snd2 ‹_ = (_, _, _)› ?_
    | with_reducible apply Wr.of_id
    | split
    | dsimp only

theorem execRknSli_wr (a0 : _) (s : State) {t : State} (h : execRknSli a0 s = .next t) : Wr 0x3600400000000000000000000000000000000000000000000000000000000000000000000000000000000000000000000000000000 s t := by
  unfold execRknSli at h
  injection h with h
  subst h
  repeat' first
    | exact rfl
    | (refine (?_ : _ = true); dsimp only [List.all]; exact rfl)
    | with_reducible exact Wr.refl _ _
    | with_reducible assumption
    | with_reducible refine rkRun_wr _ _ _ _ (fun _ _ _ => ?_) ?_
    | with_reducible apply State.rkAdvance_wr
    | with_reducible apply State.rkSetS_wr
    | with_reducible apply State.rkIssue_wr
    | with_reducible apply Wr.ite <;> intro _
    | with_reducible apply Wr.foldl <;> try intro _ _ _
    | with_reducible apply Wr.foldl_snd <;> try intro _ _ _
    | with_reducible refine Wr.of_snd ‹_ = (_, _)› ?_
    | with_reducible refine Wr.of_snd2 ‹_ = (_, _, _)› ?_
    | with_reducible apply Wr.of_id
    | split
    | dsimp only

theorem execRknSlui_wr (a0 : _) (s : State) {t : State} (h : execRknSlui a0 s = .next t) : Wr 0x3600400000000000000000000000000000000000000000000000000000000000000000000000000000000000000000000000000000 s t := by
  unfold execRknSlui at h
  injection h with h
  subst h
  repeat' first
    | exact rfl
    | (refine (?_ : _ = true); dsimp only [List.all]; exact rfl)
    | with_reducible exact Wr.refl _ _
    | with_reducible assumption
    | with_reducible refine rkRun_wr _ _ _ _ (fun _ _ _ => ?_) ?_
    | with_reducible apply State.rkAdvance_wr
    | with_reducible apply State.rkSetS_wr
    | with_reducible apply State.rkIssue_wr
    | with_reducible apply Wr.ite <;> intro _
    | with_reducible apply Wr.foldl <;> try intro _ _ _
    | with_reducible apply Wr.foldl_snd <;> try intro _ _ _
    | with_reducible refine Wr.of_snd ‹_ = (_, _)› ?_
    | with_reducible refine Wr.of_snd2 ‹_ = (_, _, _)› ?_
    | with_reducible apply Wr.of_id
    | split
    | dsimp only

theorem execRknSaddi_wr (a0 : _) (s : State) {t : State} (h : execRknSaddi a0 s = .next t) : Wr 0x3600400000000000000000000000000000000000000000000000000000000000000000000000000000000000000000000000000000 s t := by
  unfold execRknSaddi at h
  injection h with h
  subst h
  repeat' first
    | exact rfl
    | (refine (?_ : _ = true); dsimp only [List.all]; exact rfl)
    | with_reducible exact Wr.refl _ _
    | with_reducible assumption
    | with_reducible refine rkRun_wr _ _ _ _ (fun _ _ _ => ?_) ?_
    | with_reducible apply State.rkAdvance_wr
    | with_reducible apply State.rkSetS_wr
    | with_reducible apply State.rkIssue_wr
    | with_reducible apply Wr.ite <;> intro _
    | with_reducible apply Wr.foldl <;> try intro _ _ _
    | with_reducible apply Wr.foldl_snd <;> try intro _ _ _
    | with_reducible refine Wr.of_snd ‹_ = (_, _)› ?_
    | with_reducible refine Wr.of_snd2 ‹_ = (_, _, _)› ?_
    | with_reducible apply Wr.of_id
    | split
    | dsimp only

theorem execRknSadd_wr (a0 : _) (s : State) {t : State} (h : execRknSadd a0 s = .next t) : Wr 0x3600400000000000000000000000000000000000000000000000000000000000000000000000000000000000000000000000000000 s t := by
  unfold execRknSadd at h
  injection h with h
  subst h
  repeat' first
    | exact rfl
    | (refine (?_ : _ = true); dsimp only [List.all]; exact rfl)
    | with_reducible exact Wr.refl _ _
    | with_reducible assumption
    | with_reducible refine rkRun_wr _ _ _ _ (fun _ _ _ => ?_) ?_
    | with_reducible apply State.rkAdvance_wr
    | with_reducible apply State.rkSetS_wr
    | with_reducible apply State.rkIssue_wr
    | with_reducible apply Wr.ite <;> intro _
    | with_reducible apply Wr.foldl <;> try intro _ _ _
    | with_reducible apply Wr.foldl_snd <;> try intro _ _ _
    | with_reducible refine Wr.of_snd ‹_ = (_, _)› ?_
    | with_reducible refine Wr.of_snd2 ‹_ = (_, _, _)› ?_
    | with_reducible apply Wr.of_id
    | split
    | dsimp only

theorem execRknSetp_wr (a0 : _) (s : State) {t : State} (h : execRknSetp a0 s = .next t) : Wr 0x1600400000000000000000000000000000000000000000000000000000000000000000000000000000000000000000000000000000 s t := by
  unfold execRknSetp at h
  injection h with h
  subst h
  repeat' first
    | exact rfl
    | (refine (?_ : _ = true); dsimp only [List.all]; exact rfl)
    | with_reducible exact Wr.refl _ _
    | with_reducible assumption
    | with_reducible refine rkRun_wr _ _ _ _ (fun _ _ _ => ?_) ?_
    | with_reducible apply State.rkIssue_wr
    | with_reducible apply State.rkAdvance_wr
    | with_reducible apply Wr.of_keep (f := 262144) (State.rkUpd_keep (m := 262144) _ _ _ rfl (Keep.refl _ _)) rfl
    | with_reducible apply Wr.ite <;> intro _
    | with_reducible apply Wr.foldl <;> try intro _ _ _
    | with_reducible apply Wr.foldl_snd <;> try intro _ _ _
    | with_reducible refine Wr.of_snd ‹_ = (_, _)› ?_
    | with_reducible refine Wr.of_snd2 ‹_ = (_, _, _)› ?_
    | with_reducible apply Wr.of_id
    | split
    | dsimp only

theorem execRknSetm_wr (a0 : _) (s : State) {t : State} (h : execRknSetm a0 s = .next t) : Wr 0x1600400000000000000000000000000000000000000000000000000000000000000000000000000000000000000000000000000000 s t := by
  unfold execRknSetm at h
  injection h with h
  subst h
  repeat' first
    | exact rfl
    | (refine (?_ : _ = true); dsimp only [List.all]; exact rfl)
    | with_reducible exact Wr.refl _ _
    | with_reducible assumption
    | with_reducible refine rkRun_wr _ _ _ _ (fun _ _ _ => ?_) ?_
    | with_reducible apply State.rkIssue_wr
    | with_reducible apply State.rkAdvance_wr
    | with_reducible apply Wr.of_keep (f := 262144) (State.rkUpd_keep (m := 262144) _ _ _ rfl (Keep.refl _ _)) rfl
    | with_reducible apply Wr.ite <;> intro _
    | with_reducible apply Wr.foldl <;> try intro _ _ _
    | with_reducible apply Wr.foldl_snd <;> try intro _ _ _
    | with_reducible refine Wr.of_snd ‹_ = (_, _)› ?_
    | with_reducible refine Wr.of_snd2 ‹_ = (_, _, _)› ?_
    | with_reducible apply Wr.of_id
    | split
    | dsimp only

theorem wrRkn_RKN_CTL_wr {m : Nat} {s0 : State} (x0 : Nat) (v : Word) (rq : Req) (s : State) (hm : subMask 0x300400000000000000000000000000000000000000000000000000000000000000000000000000000000000000000000000000000 m = true) (h : Wr m s0 s) : Wr m s0 (wrRkn .RKN_CTL [x0] v rq s) := by
  refine Wr.lift (f := 0x300400000000000000000000000000000000000000000000000000000000000000000000000000000000000000000000000000000) ?_ hm h
  unfold wrRkn
  repeat' first
    | exact rfl
    | (refine (?_ : _ = true); dsimp only [List.all]; exact rfl)
    | with_reducible exact Wr.refl _ _
    | with_reducible assumption
    | contradiction
    | with_reducible apply State.set_wr
    | with_reducible apply State.rkStart_wr
    | with_reducible apply State.rkFault_wr
    | with_reducible apply storeWord_wr
    | with_reducible apply Wr.ite <;> intro _
    | with_reducible apply Wr.foldl <;> try intro _ _ _
    | with_reducible apply Wr.foldl_snd <;> try intro _ _ _
    | with_reducible refine Wr.of_snd ‹_ = (_, _)› ?_
    | with_reducible refine Wr.of_snd2 ‹_ = (_, _, _)› ?_
    | with_reducible apply Wr.of_id
    | split
    | dsimp only

theorem rdRkn_RKN_ACC_HI_wr {m : Nat} {s0 : State} (x0 : Nat) (x1 : Nat) (rq : Req) (s : State) (hm : subMask 0 m = true) (h : Wr m s0 s) : Wr m s0 (rdRkn .RKN_ACC_HI [x0, x1] rq s).2 := by
  refine Wr.lift (f := 0) ?_ hm h
  unfold rdRkn
  repeat' first
    | exact rfl
    | (refine (?_ : _ = true); dsimp only [List.all]; exact rfl)
    | with_reducible exact Wr.refl _ _
    | with_reducible assumption
    | contradiction
    | with_reducible apply loadWord_wr
    | with_reducible apply Wr.ite <;> intro _
    | with_reducible apply Wr.foldl <;> try intro _ _ _
    | with_reducible apply Wr.foldl_snd <;> try intro _ _ _
    | with_reducible refine Wr.of_snd ‹_ = (_, _)› ?_
    | with_reducible refine Wr.of_snd2 ‹_ = (_, _, _)› ?_
    | with_reducible apply Wr.of_id
    | split
    | dsimp only

theorem rdRkn_RKN_ACC_LO_wr {m : Nat} {s0 : State} (x0 : Nat) (x1 : Nat) (rq : Req) (s : State) (hm : subMask 0 m = true) (h : Wr m s0 s) : Wr m s0 (rdRkn .RKN_ACC_LO [x0, x1] rq s).2 := by
  refine Wr.lift (f := 0) ?_ hm h
  unfold rdRkn
  repeat' first
    | exact rfl
    | (refine (?_ : _ = true); dsimp only [List.all]; exact rfl)
    | with_reducible exact Wr.refl _ _
    | with_reducible assumption
    | contradiction
    | with_reducible apply loadWord_wr
    | with_reducible apply Wr.ite <;> intro _
    | with_reducible apply Wr.foldl <;> try intro _ _ _
    | with_reducible apply Wr.foldl_snd <;> try intro _ _ _
    | with_reducible refine Wr.of_snd ‹_ = (_, _)› ?_
    | with_reducible refine Wr.of_snd2 ‹_ = (_, _, _)› ?_
    | with_reducible apply Wr.of_id
    | split
    | dsimp only

theorem execRknStart_wr (a0 : _) (a1 : _) (s : State) (ha1 : a1 < 32) {t : State} (h : execRknStart a0 a1 s = .next t) : Wr 0x40000f000000000000000000300400000000000000000000000000000000000000000000000000000000000000000000000000000000000000000000000000000 s t := by
  unfold execRknStart at h
  injection h with h
  subst h
  repeat' first
    | exact rfl
    | (refine (?_ : _ = true); dsimp only [List.all]; exact rfl)
    | with_reducible exact Wr.refl _ _
    | with_reducible assumption
    | with_reducible refine writeReg_wr (r0 := .RKN_CTL) ((show ∀ k, k < 32 → findReg (Reg.addr .RKN_CTL [k]) = some (.RKN_CTL, [k]) by decide +kernel) a1 ha1) (fun _ _ => ?_) ?_ ?_
    | with_reducible apply wrRkn_RKN_CTL_wr
    | with_reducible apply Wr.ite <;> intro _
    | with_reducible apply Wr.foldl <;> try intro _ _ _
    | with_reducible apply Wr.foldl_snd <;> try intro _ _ _
    | with_reducible refine Wr.of_snd ‹_ = (_, _)› ?_
    | with_reducible refine Wr.of_snd2 ‹_ = (_, _, _)› ?_
    | with_reducible apply Wr.of_id
    | split
    | dsimp only

theorem execRknStop_wr (a0 : _) (a1 : _) (s : State) (ha1 : a1 < 32) {t : State} (h : execRknStop a0 a1 s = .next t) : Wr 0x40000f000000000000000000300400000000000000000000000000000000000000000000000000000000000000000000000000000000000000000000000000000 s t := by
  unfold execRknStop at h
  injection h with h
  subst h
  repeat' first
    | exact rfl
    | (refine (?_ : _ = true); dsimp only [List.all]; exact rfl)
    | with_reducible exact Wr.refl _ _
    | with_reducible assumption
    | with_reducible refine writeReg_wr (r0 := .RKN_CTL) ((show ∀ k, k < 32 → findReg (Reg.addr .RKN_CTL [k]) = some (.RKN_CTL, [k]) by decide +kernel) a1 ha1) (fun _ _ => ?_) ?_ ?_
    | with_reducible apply wrRkn_RKN_CTL_wr
    | with_reducible apply Wr.ite <;> intro _
    | with_reducible apply Wr.foldl <;> try intro _ _ _
    | with_reducible apply Wr.foldl_snd <;> try intro _ _ _
    | with_reducible refine Wr.of_snd ‹_ = (_, _)› ?_
    | with_reducible refine Wr.of_snd2 ‹_ = (_, _, _)› ?_
    | with_reducible apply Wr.of_id
    | split
    | dsimp only

theorem execRknAcc_wr (a0 : _) (a1 : _) (a2 : _) (a3 : _) (a4 : _) (s : State) (ha1 : a1 < 32) (ha2 : a2 < 4) (ha3 : a3 < 8) {t : State} (h : execRknAcc a0 a1 a2 a3 a4 s = .next t) : Wr 0x40000f000000000000000000000000000000000000000000000000000000000000000000000000000000000000000000000000000000000000000000000000000 s t := by
  unfold execRknAcc at h
  injection h with h
  subst h
  split
  · refine readReg_wr (r0 := .RKN_ACC_HI) (show findReg (Reg.addr .RKN_ACC_HI [a1, 8 * a2 + a3]) = some (.RKN_ACC_HI, [a1, 8 * a2 + a3]) from ?_) (fun _ _ => rdRkn_RKN_ACC_HI_wr _ _ _ _ rfl ‹_›) rfl (Wr.refl _ _)
    have d : ∀ k : Fin 32, ∀ i : Fin 32, findReg (Reg.addr .RKN_ACC_HI [k.1, i.1]) = some (.RKN_ACC_HI, [k.1, i.1]) := by decide +kernel
    exact d ⟨a1, ha1⟩ ⟨8 * a2 + a3, by omega⟩
  · refine readReg_wr (r0 := .RKN_ACC_LO) (show findReg (Reg.addr .RKN_ACC_LO [a1, 8 * a2 + a3]) = some (.RKN_ACC_LO, [a1, 8 * a2 + a3]) from ?_) (fun _ _ => rdRkn_RKN_ACC_LO_wr _ _ _ _ rfl ‹_›) rfl (Wr.refl _ _)
    have d : ∀ k : Fin 32, ∀ i : Fin 32, findReg (Reg.addr .RKN_ACC_LO [k.1, i.1]) = some (.RKN_ACC_LO, [k.1, i.1]) := by decide +kernel
    exact d ⟨a1, ha1⟩ ⟨8 * a2 + a3, by omega⟩

theorem execReckonerDispatch_wr (a0 : _) (s : State) {t : State} (h : execReckonerDispatch a0 s = .next t) : Wr 0x2600400000000000000000000000000000000000000000000000000000000000000000000000000000000000000000000000000000 s t := by
  unfold execReckonerDispatch at h
  injection h with h
  subst h
  repeat' first
    | exact rfl
    | (refine (?_ : _ = true); dsimp only [List.all]; exact rfl)
    | with_reducible exact Wr.refl _ _
    | with_reducible assumption
    | with_reducible apply State.rkSetS_wr
    | with_reducible apply Wr.of_keep (f := 131072) (State.takeBead_keep (m := 131072) _ _ _ rfl (Keep.refl _ _)) rfl
    | with_reducible apply State.rkStart_wr
    | with_reducible apply State.set_wr
    | with_reducible apply Wr.ite <;> intro _
    | with_reducible apply Wr.foldl <;> try intro _ _ _
    | with_reducible apply Wr.foldl_snd <;> try intro _ _ _
    | with_reducible refine Wr.of_snd ‹_ = (_, _)› ?_
    | with_reducible refine Wr.of_snd2 ‹_ = (_, _, _)› ?_
    | with_reducible apply Wr.of_id
    | split
    | dsimp only

end Sys2Proof.Machine
end

