-- ==== Sys2Proof/Laws/WrTmg.lean ====
section
/-! SUPPORT. The registers that each operation of Machine/Tmg.lean may change. -/

set_option Elab.async false

namespace Sys2Proof.Machine

theorem State.tmOversize_wr {m : Nat} {s0 : State} (a0 : _) (a1 : _) (s : State) (hm : subMask 0x4000000000000000000000000000000000000000000000000000000000000000000000000000000000000 m = true) (h : Wr m s0 s) : Wr m s0 (State.tmOversize a0 a1 s) := by
  induction a0 generalizing s with
  | zero => unfold State.tmOversize; exact h
  | succ n ih =>
    unfold State.tmOversize
    repeat' first
      | exact rfl
      | (refine (?_ : _ = true); dsimp only [List.all]; exact rfl)
      | exact subMask_trans rfl hm
      | exact subMask_bit hm rfl
      | with_reducible apply ih
      | with_reducible exact Wr.refl _ _
      | with_reducible assumption
      | with_reducible apply Wr.ite <;> intro _
      | with_reducible apply Wr.foldl <;> try intro _ _ _
      | with_reducible apply Wr.foldl_snd <;> try intro _ _ _
      | with_reducible apply State.inc_wr
      | with_reducible apply Wr.of_keep (f := 65536) (State.bufFree_keep (m := 65536) _ _ rfl (Keep.refl _ _)) rfl
      | with_reducible apply Wr.of_keep (f := 67108864) (State.tmTake_keep (m := 67108864) _ _ rfl (Keep.refl _ _)) rfl
      | with_reducible apply Wr.of_keep (f := 67108864) (State.tmUpd_keep (m := 67108864) _ _ rfl (Keep.refl _ _)) rfl
      | with_reducible apply Wr.of_keep (f := 272) (State.raise_keep (m := 272) _ _ rfl (Keep.refl _ _)) rfl
      | with_reducible apply Wr.of_keep (f := 67109136) (State.tmHigh_keep (m := 67109136) _ rfl (Keep.refl _ _)) rfl
      | with_reducible apply Wr.of_keep (f := 67108864) (State.svcSee_keep (m := 67108864) _ _ rfl (Keep.refl _ _)) rfl
      | with_reducible refine Wr.of_snd ‹_ = (_, _)› ?_
      | with_reducible refine Wr.of_snd2 ‹_ = (_, _, _)› ?_
      | with_reducible apply Wr.of_id
      | split
      | dsimp only

theorem State.ptpOut_wr {m : Nat} {s0 : State} (s : State) (a1 : _) (a2 : _) (hm : subMask 0x4000000000000000000000000000000000000000000000000000000000000000000000000000000000000000000 m = true) (h : Wr m s0 s) : Wr m s0 (State.ptpOut s a1 a2).2 := by
  refine Wr.lift (f := 0x4000000000000000000000000000000000000000000000000000000000000000000000000000000000000000000) ?_ hm h
  unfold State.ptpOut
  repeat' first
    | exact rfl
    | (refine (?_ : _ = true); dsimp only [List.all]; exact rfl)
    | with_reducible exact Wr.refl _ _
    | with_reducible assumption
    | with_reducible apply State.txtsPush_wr
    | with_reducible apply Wr.ite <;> intro _
    | with_reducible apply Wr.foldl <;> try intro _ _ _
    | with_reducible apply Wr.foldl_snd <;> try intro _ _ _
    | with_reducible refine Wr.of_snd ‹_ = (_, _)› ?_
    | with_reducible refine Wr.of_snd2 ‹_ = (_, _, _)› ?_
    | with_reducible apply Wr.of_id
    | split
    | dsimp only

theorem State.msecOut_wr {m : Nat} {s0 : State} (s : State) (a1 : _) (a2 : _) (hm : subMask 0x10000000000000000000000000000000000000004000000000000000000000000000000000000000000000000000000000000000000000000000000 m = true) (h : Wr m s0 s) : Wr m s0 (State.msecOut s a1 a2).2 := by
  refine Wr.lift (f := 0x10000000000000000000000000000000000000004000000000000000000000000000000000000000000000000000000000000000000000000000000) ?_ hm h
  unfold State.msecOut
  repeat' first
    | exact rfl
    | (refine (?_ : _ = true); dsimp only [List.all]; exact rfl)
    | with_reducible exact Wr.refl _ _
    | with_reducible assumption
    | with_reducible apply Wr.of_keep (f := 272) (State.raise_keep (m := 272) _ _ rfl (Keep.refl _ _)) rfl
    | with_reducible apply State.inc_wr
    | with_reducible apply State.useKey_wr
    | with_reducible apply Wr.of_keep (f := 33554432) (State.setFent_keep (m := 33554432) _ _ _ _ _ rfl (Keep.refl _ _)) rfl
    | with_reducible apply Wr.ite <;> intro _
    | with_reducible apply Wr.foldl <;> try intro _ _ _
    | with_reducible apply Wr.foldl_snd <;> try intro _ _ _
    | with_reducible refine Wr.of_snd ‹_ = (_, _)› ?_
    | with_reducible refine Wr.of_snd2 ‹_ = (_, _, _)› ?_
    | with_reducible apply Wr.of_id
    | split
    | dsimp only

theorem State.ethSend_wr {m : Nat} {s0 : State} (s : State) (a1 : _) (hm : subMask 0x10000000000000000000000000004000000000004100000000000000000000000000000000000000000000000000000000000000000000000000000 m = true) (h : Wr m s0 s) : Wr m s0 (State.ethSend s a1) := by
  refine Wr.lift (f := 0x10000000000000000000000000004000000000004100000000000000000000000000000000000000000000000000000000000000000000000000000) ?_ hm h
  unfold State.ethSend
  repeat' first
    | exact rfl
    | (refine (?_ : _ = true); dsimp only [List.all]; exact rfl)
    | with_reducible exact Wr.refl _ _
    | with_reducible assumption
    | with_reducible apply State.ptpOut_wr
    | with_reducible apply State.msecOut_wr
    | with_reducible apply Wr.of_keep (f := 65536) (State.bufFree_keep (m := 65536) _ _ rfl (Keep.refl _ _)) rfl
    | with_reducible apply Wr.of_keep (f := 16) (State.emit_keep (m := 16) _ _ _ _ rfl (Keep.refl _ _)) rfl
    | with_reducible apply State.inc_wr
    | with_reducible apply Wr.ite <;> intro _
    | with_reducible apply Wr.foldl <;> try intro _ _ _
    | with_reducible apply Wr.foldl_snd <;> try intro _ _ _
    | with_reducible refine Wr.of_snd ‹_ = (_, _)› ?_
    | with_reducible refine Wr.of_snd2 ‹_ = (_, _, _)› ?_
    | with_reducible apply Wr.of_id
    | split
    | dsimp only

theorem State.tmSink_wr {m : Nat} {s0 : State} (s : State) (a1 : _) (hm : subMask 0x10000000000000000000000000004000000000004100800002000000000000000000000000000070000000000000000000000000000000000000000 m = true) (h : Wr m s0 s) : Wr m s0 (State.tmSink s a1) := by
  refine Wr.lift (f := 0x10000000000000000000000000004000000000004100800002000000000000000000000000000070000000000000000000000000000000000000000) ?_ hm h
  unfold State.tmSink
  repeat' first
    | exact rfl
    | (refine (?_ : _ = true); dsimp only [List.all]; exact rfl)
    | with_reducible exact Wr.refl _ _
    | with_reducible assumption
    | with_reducible apply State.ethSend_wr
    | with_reducible apply State.ptpOut_wr
    | with_reducible apply Wr.of_keep (f := 65536) (State.bufFree_keep (m := 65536) _ _ rfl (Keep.refl _ _)) rfl
    | with_reducible apply Wr.of_keep (f := 16) (State.emit_keep (m := 16) _ _ _ _ rfl (Keep.refl _ _)) rfl
    | with_reducible apply State.wacMsdu_wr
    | with_reducible apply State.swReceive_wr
    | with_reducible apply Wr.ite <;> intro _
    | with_reducible apply Wr.foldl <;> try intro _ _ _
    | with_reducible apply Wr.foldl_snd <;> try intro _ _ _
    | with_reducible refine Wr.of_snd ‹_ = (_, _)› ?_
    | with_reducible refine Wr.of_snd2 ‹_ = (_, _, _)› ?_
    | with_reducible apply Wr.of_id
    | split
    | dsimp only

theorem State.tmStart_wr {m : Nat} {s0 : State} (s : State) (a1 : _) (hm : subMask 0x10000000000000000000000000004000004000004100800002000000000000000000000000000070000000000000000000000000000000000000000 m = true) (h : Wr m s0 s) : Wr m s0 (State.tmStart s a1) := by
  refine Wr.lift (f := 0x10000000000000000000000000004000004000004100800002000000000000000000000000000070000000000000000000000000000000000000000) ?_ hm h
  unfold State.tmStart
  refine Wr.ite (fun _ => Wr.refl _ _) (fun _ => ?_)
  extract_lets s0 r
  have h0 : Wr 0x10000000000000000000000000004000004000004100800002000000000000000000000000000070000000000000000000000000000000000000000 s s0 := State.tmOversize_wr _ _ _ rfl (Wr.refl _ _)
  clear_value s0
  have h1 : Wr 0x10000000000000000000000000004000004000004100800002000000000000000000000000000070000000000000000000000000000000000000000 s r.2 := Wr.of_keep (f := 67108864) (State.tmPick_keep (m := 67108864) _ _ rfl (Keep.refl _ _)) rfl (h0)
  clear_value r
  split
  · exact h0
  · exact State.tmSink_wr _ _ rfl (Wr.of_keep (f := 67109136) (State.tmHigh_keep (m := 67109136) _ rfl (Keep.refl _ _)) rfl (Wr.of_keep (f := 67108864) (State.svcSee_keep (m := 67108864) _ _ rfl (Keep.refl _ _)) rfl (Wr.of_keep (f := 67108864) (State.tmTake_keep (m := 67108864) _ _ rfl (Keep.refl _ _)) rfl (Wr.of_keep (f := 67108864) (State.tmCharge_keep (m := 67108864) _ _ rfl (Keep.refl _ _)) rfl (Wr.of_keep (f := 67108864) (State.svcSync_keep (m := 67108864) _ _ rfl (Keep.refl _ _)) rfl (h1))))))

theorem execPacketStart_wr (a0 : _) (s : State) {t : State} (h : execPacketStart a0 s = .next t) : Wr 0x10000000000000000000000000004000004000004100800002000000000000000000000000000070000000000000000000000000000000000000000 s t := by
  unfold execPacketStart at h
  injection h with h
  subst h
  repeat' first
    | exact rfl
    | (refine (?_ : _ = true); dsimp only [List.all]; exact rfl)
    | with_reducible exact Wr.refl _ _
    | with_reducible assumption
    | with_reducible apply Wr.ite <;> intro _
    | with_reducible apply Wr.foldl <;> try intro _ _ _
    | with_reducible apply Wr.foldl_snd <;> try intro _ _ _
    | with_reducible apply State.tmStart_wr
    | with_reducible refine Wr.of_snd ‹_ = (_, _)› ?_
    | with_reducible refine Wr.of_snd2 ‹_ = (_, _, _)› ?_
    | with_reducible apply Wr.of_id
    | split
    | dsimp only

theorem execMsduDelivery_wr (s : State) {t : State} (h : execMsduDelivery s = .next t) : Wr 0x10000000000000000000000000004000004000004100800002000000000000000000000000000070000000000000000000000000000000000000000 s t := by
  unfold execMsduDelivery at h
  injection h with h
  subst h
  repeat' first
    | exact rfl
    | (refine (?_ : _ = true); dsimp only [List.all]; exact rfl)
    | with_reducible exact Wr.refl _ _
    | with_reducible assumption
    | with_reducible apply Wr.ite <;> intro _
    | with_reducible apply Wr.foldl <;> try intro _ _ _
    | with_reducible apply Wr.foldl_snd <;> try intro _ _ _
    | with_reducible apply State.tmStart_wr
    | with_reducible refine Wr.of_snd ‹_ = (_, _)› ?_
    | with_reducible refine Wr.of_snd2 ‹_ = (_, _, _)› ?_
    | with_reducible apply Wr.of_id
    | split
    | dsimp only

theorem State.gateChange_wr {m : Nat} {s0 : State} (s : State) (a1 : _) (hm : subMask 0x40000000000000000000000000000000000000000000000000000000000000000000000000000000000 m = true) (h : Wr m s0 s) : Wr m s0 (State.gateChange s a1) := by
  refine Wr.lift (f := 0x40000000000000000000000000000000000000000000000000000000000000000000000000000000000) ?_ hm h
  unfold State.gateChange
  repeat' first
    | exact rfl
    | (refine (?_ : _ = true); dsimp only [List.all]; exact rfl)
    | with_reducible exact Wr.refl _ _
    | with_reducible assumption
    | with_reducible apply State.commit_wr
    | with_reducible apply Wr.of_keep (f := 67108864) (State.tmUpd_keep (m := 67108864) _ _ rfl (Keep.refl _ _)) rfl
    | with_reducible apply Wr.ite <;> intro _
    | with_reducible apply Wr.foldl <;> try intro _ _ _
    | with_reducible apply Wr.foldl_snd <;> try intro _ _ _
    | with_reducible refine Wr.of_snd ‹_ = (_, _)› ?_
    | with_reducible refine Wr.of_snd2 ‹_ = (_, _, _)› ?_
    | with_reducible apply Wr.of_id
    | split
    | dsimp only

theorem execGateChangeDue_wr (a0 : _) (s : State) {t : State} (h : execGateChangeDue a0 s = .next t) : Wr 0x2000000000000000000000000000000000000000000000000000000000000000000000000000000000 s t := by
  unfold execGateChangeDue at h
  injection h with h
  subst h
  repeat' first
    | exact rfl
    | (refine (?_ : _ = true); dsimp only [List.all]; exact rfl)
    | with_reducible exact Wr.refl _ _
    | with_reducible assumption
    | with_reducible apply Wr.of_keep (f := 272) (State.raise_keep (m := 272) _ _ rfl (Keep.refl _ _)) rfl
    | with_reducible apply Wr.of_keep (f := 67108864) (State.gateSync_keep (m := 67108864) _ _ rfl (Keep.refl _ _)) rfl
    | with_reducible apply State.set_wr
    | with_reducible apply Wr.of_keep (f := 67108864) (State.tmUpd_keep (m := 67108864) _ _ rfl (Keep.refl _ _)) rfl
    | with_reducible apply Wr.ite <;> intro _
    | with_reducible apply Wr.foldl <;> try intro _ _ _
    | with_reducible apply Wr.foldl_snd <;> try intro _ _ _
    | with_reducible refine Wr.of_snd ‹_ = (_, _)› ?_
    | with_reducible refine Wr.of_snd2 ‹_ = (_, _, _)› ?_
    | with_reducible apply Wr.of_id
    | split
    | dsimp only

theorem wrTmg_TMG_TBL_CTL_wr {m : Nat} {s0 : State} (v : Word) (rq : Req) (s : State) (hm : subMask 0x1800000000000000000000000000000000000000000000000000000000000000000000000000000000 m = true) (h : Wr m s0 s) : Wr m s0 (wrTmg .TMG_TBL_CTL [] v rq s) := by
  refine Wr.lift (f := 0x1800000000000000000000000000000000000000000000000000000000000000000000000000000000) ?_ hm h
  unfold wrTmg
  repeat' first
    | exact rfl
    | (refine (?_ : _ = true); dsimp only [List.all]; exact rfl)
    | with_reducible exact Wr.refl _ _
    | with_reducible assumption
    | contradiction
    | with_reducible apply State.tmOp_wr
    | with_reducible apply storeWord_wr
    | with_reducible apply Wr.of_keep (f := 67108864) (State.setBkt_keep (m := 67108864) _ _ _ _ rfl (Keep.refl _ _)) rfl
    | with_reducible apply State.sets_wr
    | with_reducible apply State.gateChange_wr
    | with_reducible apply Wr.of_keep (f := 67108864) (State.gateCancel_keep (m := 67108864) _ _ rfl (Keep.refl _ _)) rfl
    | with_reducible apply Wr.ite <;> intro _
    | with_reducible apply Wr.foldl <;> try intro _ _ _
    | with_reducible apply Wr.foldl_snd <;> try intro _ _ _
    | with_reducible refine Wr.of_snd ‹_ = (_, _)› ?_
    | with_reducible refine Wr.of_snd2 ‹_ = (_, _, _)› ?_
    | with_reducible apply Wr.of_id
    | split
    | dsimp only

theorem wrTmg_TMG_GATE_CTL_wr {m : Nat} {s0 : State} (x0 : Nat) (v : Word) (rq : Req) (s : State) (hm : subMask 0x42000000000000000000000000000000000000000000000000000000000000000000000000000000000 m = true) (h : Wr m s0 s) : Wr m s0 (wrTmg .TMG_GATE_CTL [x0] v rq s) := by
  refine Wr.lift (f := 0x42000000000000000000000000000000000000000000000000000000000000000000000000000000000) ?_ hm h
  unfold wrTmg
  repeat' first
    | exact rfl
    | (refine (?_ : _ = true); dsimp only [List.all]; exact rfl)
    | with_reducible exact Wr.refl _ _
    | with_reducible assumption
    | contradiction
    | with_reducible apply State.tmOp_wr
    | with_reducible apply storeWord_wr
    | with_reducible apply Wr.of_keep (f := 67108864) (State.setBkt_keep (m := 67108864) _ _ _ _ rfl (Keep.refl _ _)) rfl
    | with_reducible apply State.sets_wr
    | with_reducible apply State.gateChange_wr
    | with_reducible apply Wr.of_keep (f := 67108864) (State.gateCancel_keep (m := 67108864) _ _ rfl (Keep.refl _ _)) rfl
    | with_reducible apply Wr.ite <;> intro _
    | with_reducible apply Wr.foldl <;> try intro _ _ _
    | with_reducible apply Wr.foldl_snd <;> try intro _ _ _
    | with_reducible refine Wr.of_snd ‹_ = (_, _)› ?_
    | with_reducible refine Wr.of_snd2 ‹_ = (_, _, _)› ?_
    | with_reducible apply Wr.of_id
    | split
    | dsimp only

theorem execTmgTableLoad_wr (a0 : _) (s : State) {t : State} (h : execTmgTableLoad a0 s = .next t) : Wr 0x40000f000000000000000000000000000000000000000001800000000000000000000000000000000000000000000000000000000000000000000000000000000 s t := by
  unfold execTmgTableLoad at h
  injection h with h
  subst h
  repeat' first
    | exact rfl
    | (refine (?_ : _ = true); dsimp only [List.all]; exact rfl)
    | with_reducible exact Wr.refl _ _
    | with_reducible assumption
    | with_reducible refine writeReg_wr (r0 := .TMG_TBL_CTL) (show findReg (Reg.addr .TMG_TBL_CTL []) = some (.TMG_TBL_CTL, []) by decide +kernel) (fun _ _ => ?_) ?_ ?_
    | with_reducible apply wrTmg_TMG_TBL_CTL_wr
    | with_reducible apply Wr.ite <;> intro _
    | with_reducible apply Wr.foldl <;> try intro _ _ _
    | with_reducible apply Wr.foldl_snd <;> try intro _ _ _
    | with_reducible refine Wr.of_snd ‹_ = (_, _)› ?_
    | with_reducible refine Wr.of_snd2 ‹_ = (_, _, _)› ?_
    | with_reducible apply Wr.of_id
    | split
    | dsimp only

theorem execTmgTableWrite_wr (a0 : _) (s : State) {t : State} (h : execTmgTableWrite a0 s = .next t) : Wr 0x40000f000000000000000000000000000000000000000001800000000000000000000000000000000000000000000000000000000000000000000000000000000 s t := by
  unfold execTmgTableWrite at h
  injection h with h
  subst h
  repeat' first
    | exact rfl
    | (refine (?_ : _ = true); dsimp only [List.all]; exact rfl)
    | with_reducible exact Wr.refl _ _
    | with_reducible assumption
    | with_reducible refine writeReg_wr (r0 := .TMG_TBL_CTL) (show findReg (Reg.addr .TMG_TBL_CTL []) = some (.TMG_TBL_CTL, []) by decide +kernel) (fun _ _ => ?_) ?_ ?_
    | with_reducible apply wrTmg_TMG_TBL_CTL_wr
    | with_reducible apply Wr.ite <;> intro _
    | with_reducible apply Wr.foldl <;> try intro _ _ _
    | with_reducible apply Wr.foldl_snd <;> try intro _ _ _
    | with_reducible refine Wr.of_snd ‹_ = (_, _)› ?_
    | with_reducible refine Wr.of_snd2 ‹_ = (_, _, _)› ?_
    | with_reducible apply Wr.of_id
    | split
    | dsimp only

theorem execTmgTableClear_wr (a0 : _) (s : State) {t : State} (h : execTmgTableClear a0 s = .next t) : Wr 0x40000f000000000000000000000000000000000000000001800000000000000000000000000000000000000000000000000000000000000000000000000000000 s t := by
  unfold execTmgTableClear at h
  injection h with h
  subst h
  repeat' first
    | exact rfl
    | (refine (?_ : _ = true); dsimp only [List.all]; exact rfl)
    | with_reducible exact Wr.refl _ _
    | with_reducible assumption
    | with_reducible refine writeReg_wr (r0 := .TMG_TBL_CTL) (show findReg (Reg.addr .TMG_TBL_CTL []) = some (.TMG_TBL_CTL, []) by decide +kernel) (fun _ _ => ?_) ?_ ?_
    | with_reducible apply wrTmg_TMG_TBL_CTL_wr
    | with_reducible apply Wr.ite <;> intro _
    | with_reducible apply Wr.foldl <;> try intro _ _ _
    | with_reducible apply Wr.foldl_snd <;> try intro _ _ _
    | with_reducible refine Wr.of_snd ‹_ = (_, _)› ?_
    | with_reducible refine Wr.of_snd2 ‹_ = (_, _, _)› ?_
    | with_reducible apply Wr.of_id
    | split
    | dsimp only

theorem execGateChangeOp_wr (a0 : _) (a1 : _) (a2 : _) (a3 : _) (s : State) (ha1 : a1 < 8) {t : State} (h : execGateChangeOp a0 a1 a2 a3 s = .next t) : Wr 0x40000f000000000000000000000000000000000000000042000000000000000000000000000000000000000000000000000000000000000000000000000000000 s t := by
  unfold execGateChangeOp at h
  injection h with h
  subst h
  repeat' first
    | exact rfl
    | (refine (?_ : _ = true); dsimp only [List.all]; exact rfl)
    | with_reducible exact Wr.refl _ _
    | with_reducible assumption
    | with_reducible refine writeReg_wr (r0 := .TMG_GATE_CTL) ((show ∀ p, p < 8 → findReg (Reg.addr .TMG_GATE_CTL [p]) = some (.TMG_GATE_CTL, [p]) by decide +kernel) a1 ha1) (fun _ _ => ?_) ?_ ?_
    | with_reducible apply wrTmg_TMG_GATE_CTL_wr
    | with_reducible apply Wr.ite <;> intro _
    | with_reducible apply Wr.foldl <;> try intro _ _ _
    | with_reducible apply Wr.foldl_snd <;> try intro _ _ _
    | with_reducible refine Wr.of_snd ‹_ = (_, _)› ?_
    | with_reducible refine Wr.of_snd2 ‹_ = (_, _, _)› ?_
    | with_reducible apply Wr.of_id
    | split
    | dsimp only

theorem execGateCancelOp_wr (a0 : _) (a1 : _) (a2 : _) (a3 : _) (s : State) (ha1 : a1 < 8) {t : State} (h : execGateCancelOp a0 a1 a2 a3 s = .next t) : Wr 0x40000f000000000000000000000000000000000000000042000000000000000000000000000000000000000000000000000000000000000000000000000000000 s t := by
  unfold execGateCancelOp at h
  injection h with h
  subst h
  repeat' first
    | exact rfl
    | (refine (?_ : _ = true); dsimp only [List.all]; exact rfl)
    | with_reducible exact Wr.refl _ _
    | with_reducible assumption
    | with_reducible refine writeReg_wr (r0 := .TMG_GATE_CTL) ((show ∀ p, p < 8 → findReg (Reg.addr .TMG_GATE_CTL [p]) = some (.TMG_GATE_CTL, [p]) by decide +kernel) a1 ha1) (fun _ _ => ?_) ?_ ?_
    | with_reducible apply wrTmg_TMG_GATE_CTL_wr
    | with_reducible apply Wr.ite <;> intro _
    | with_reducible apply Wr.foldl <;> try intro _ _ _
    | with_reducible apply Wr.foldl_snd <;> try intro _ _ _
    | with_reducible refine Wr.of_snd ‹_ = (_, _)› ?_
    | with_reducible refine Wr.of_snd2 ‹_ = (_, _, _)› ?_
    | with_reducible apply Wr.of_id
    | split
    | dsimp only

theorem State.tmLinkDown_wr {m : Nat} {s0 : State} (s : State) (a1 : _) (hm : subMask 0x1000000000000000000000000000000000000000000000000000000000000000000000000000000000000 m = true) (h : Wr m s0 s) : Wr m s0 (State.tmLinkDown s a1) := by
  refine Wr.lift (f := 0x1000000000000000000000000000000000000000000000000000000000000000000000000000000000000) ?_ hm h
  unfold State.tmLinkDown
  repeat' first
    | exact rfl
    | (refine (?_ : _ = true); dsimp only [List.all]; exact rfl)
    | with_reducible exact Wr.refl _ _
    | with_reducible assumption
    | with_reducible apply Wr.of_keep (f := 67174400) (State.tmDiscard_keep (m := 67174400) _ _ rfl (Keep.refl _ _)) rfl
    | with_reducible apply Wr.of_keep (f := 67109136) (State.tmHigh_keep (m := 67109136) _ rfl (Keep.refl _ _)) rfl
    | with_reducible apply Wr.of_keep (f := 272) (State.raise_keep (m := 272) _ _ rfl (Keep.refl _ _)) rfl
    | with_reducible apply State.incBy_wr
    | with_reducible apply Wr.ite <;> intro _
    | with_reducible apply Wr.foldl <;> try intro _ _ _
    | with_reducible apply Wr.foldl_snd <;> try intro _ _ _
    | with_reducible refine Wr.of_snd ‹_ = (_, _)› ?_
    | with_reducible refine Wr.of_snd2 ‹_ = (_, _, _)› ?_
    | with_reducible apply Wr.of_id
    | split
    | dsimp only

theorem State.tmFlush_wr {m : Nat} {s0 : State} (s : State) (hm : subMask 0x2000000000000000000000000000000000000000000000000000000000000000000000000000000000000 m = true) (h : Wr m s0 s) : Wr m s0 (State.tmFlush s) := by
  refine Wr.lift (f := 0x2000000000000000000000000000000000000000000000000000000000000000000000000000000000000) ?_ hm h
  unfold State.tmFlush
  repeat' first
    | exact rfl
    | (refine (?_ : _ = true); dsimp only [List.all]; exact rfl)
    | with_reducible exact Wr.refl _ _
    | with_reducible assumption
    | with_reducible apply Wr.of_keep (f := 67174400) (State.tmDiscard_keep (m := 67174400) _ _ rfl (Keep.refl _ _)) rfl
    | with_reducible apply State.incBy_wr
    | with_reducible apply Wr.ite <;> intro _
    | with_reducible apply Wr.foldl <;> try intro _ _ _
    | with_reducible apply Wr.foldl_snd <;> try intro _ _ _
    | with_reducible refine Wr.of_snd ‹_ = (_, _)› ?_
    | with_reducible refine Wr.of_snd2 ‹_ = (_, _, _)› ?_
    | with_reducible apply Wr.of_id
    | split
    | dsimp only

end Sys2Proof.Machine
end

