-- ==== Sys2Proof/Laws/WrCross.lean ====
section
/-! SUPPORT. The registers that each operation of Machine/Cross.lean may change. -/

set_option Elab.async false

namespace Sys2Proof.Machine

theorem State.txsDrop_wr {m : Nat} {s0 : State} (s : State) (a1 : _) (hm : subMask 0x400000000000000000000000000000000000000000000000c00000000100000000048300080000000010040000000c040080040000000 m = true) (h : Wr m s0 s) : Wr m s0 (State.txsDrop s a1) := by
  refine Wr.lift (f := 0x400000000000000000000000000000000000000000000000c00000000100000000048300080000000010040000000c040080040000000) ?_ hm h
  unfold State.txsDrop
  repeat' first
    | exact rfl
    | (refine (?_ : _ = true); dsimp only [List.all]; exact rfl)
    | with_reducible exact Wr.refl _ _
    | with_reducible assumption
    | with_reducible apply Wr.of_keep (f := 1048576) (State.radUpd_keep (m := 1048576) _ _ rfl (Keep.refl _ _)) rfl
    | with_reducible apply State.txsEnd_wr
    | with_reducible apply Wr.ite <;> intro _
    | with_reducible apply Wr.foldl <;> try intro _ _ _
    | with_reducible apply Wr.foldl_snd <;> try intro _ _ _
    | with_reducible refine Wr.of_snd ‹_ = (_, _)› ?_
    | with_reducible refine Wr.of_snd2 ‹_ = (_, _, _)› ?_
    | with_reducible apply Wr.of_id
    | split
    | dsimp only

theorem State.gapBegin_wr {m : Nat} {s0 : State} (s : State) (a1 : _) (a2 : _) (hm : subMask 0x400000000000000000000000000000000000000000000001c00000001500000000048300080000020016240000434c0608804400c8000 m = true) (h : Wr m s0 s) : Wr m s0 (State.gapBegin s a1 a2) := by
  refine Wr.lift (f := 0x400000000000000000000000000000000000000000000001c00000001500000000048300080000020016240000434c0608804400c8000) ?_ hm h
  unfold State.gapBegin
  repeat' first
    | exact rfl
    | (refine (?_ : _ = true); dsimp only [List.all]; exact rfl)
    | with_reducible exact Wr.refl _ _
    | with_reducible assumption
    | with_reducible apply Wr.of_keep (f := 1048576) (State.radUpd_keep (m := 1048576) _ _ rfl (Keep.refl _ _)) rfl
    | with_reducible apply State.calYield_wr
    | with_reducible apply State.dlCut_wr
    | with_reducible apply State.fhRestack_wr
    | with_reducible apply State.txsDrop_wr
    | with_reducible apply State.txsEnd_wr
    | with_reducible apply State.fhGap_wr
    | with_reducible apply State.visitsAbandon_wr
    | with_reducible apply State.phyLose_wr
    | with_reducible apply State.takeStack_wr
    | with_reducible apply State.frameEnd_wr
    | with_reducible apply Wr.of_keep (f := 16777488) (State.txaRestack_keep (m := 16777488) _ _ rfl (Keep.refl _ _)) rfl
    | with_reducible apply State.coexSettle_wr
    | with_reducible apply State.pathsCheck_wr
    | with_reducible apply Wr.ite <;> intro _
    | with_reducible apply Wr.foldl <;> try intro _ _ _
    | with_reducible apply Wr.foldl_snd <;> try intro _ _ _
    | with_reducible refine Wr.of_snd ‹_ = (_, _)› ?_
    | with_reducible refine Wr.of_snd2 ‹_ = (_, _, _)› ?_
    | with_reducible apply Wr.of_id
    | split
    | dsimp only

theorem State.fallback_wr {m : Nat} {s0 : State} (s : State) (hm : subMask 0x400000000000000000000000000000000000000000000001c00000001500000000048300080000020016240000434c0608804400c8000 m = true) (h : Wr m s0 s) : Wr m s0 (State.fallback s) := by
  refine Wr.lift (f := 0x400000000000000000000000000000000000000000000001c00000001500000000048300080000020016240000434c0608804400c8000) ?_ hm h
  unfold State.fallback
  refine Wr.ite (fun _ => Wr.of_keep (f := 1048576) (State.radUpd_keep (m := 1048576) _ _ rfl (Keep.refl _ _)) rfl (Wr.refl _ _)) (fun _ => ?_)
  extract_lets wait s1 qs
  have hs1 : Wr 0x400000000000000000000000000000000000000000000001c00000001500000000048300080000020016240000434c0608804400c8000 s s1 := Wr.of_keep (f := 1048576) (State.radUpd_keep (m := 1048576) _ _ rfl (Keep.refl _ _)) rfl (Wr.refl _ _)
  clear_value s1
  exact Wr.ite (fun _ => hs1) (fun _ => State.gapBegin_wr _ _ _ rfl (hs1))

theorem execFallbackReturn_wr (s : State) {t : State} (h : execFallbackReturn s = .next t) : Wr 0x400000000000000000000000000000000000000000000001c00000001500000000048300080000020016240000434c0608804400c8000 s t := by
  unfold execFallbackReturn at h
  injection h with h
  subst h
  split
  · exact Wr.refl _ _
  · refine Wr.ite (fun _ => ?_) (fun _ => Wr.refl _ _)
    extract_lets s1 qs
    have hs1 : Wr 0x400000000000000000000000000000000000000000000001c00000001500000000048300080000020016240000434c0608804400c8000 s s1 := Wr.of_keep (f := 1048576) (State.radUpd_keep (m := 1048576) _ _ rfl (Keep.refl _ _)) rfl (Wr.refl _ _)
    clear_value s1
    exact Wr.ite (fun _ => hs1) (fun _ => State.gapBegin_wr _ _ _ rfl (hs1))

theorem State.restackStat_wr {m : Nat} {s0 : State} (s : State) (a1 : _) (a2 : _) (a3 : _) (hm : subMask 0x4000 m = true) (h : Wr m s0 s) : Wr m s0 (State.restackStat s a1 a2 a3) := by
  refine Wr.lift (f := 0x4000) ?_ hm h
  unfold State.restackStat
  repeat' first
    | exact rfl
    | (refine (?_ : _ = true); dsimp only [List.all]; exact rfl)
    | with_reducible exact Wr.refl _ _
    | with_reducible assumption
    | with_reducible apply State.commit_wr
    | with_reducible apply Wr.ite <;> intro _
    | with_reducible apply Wr.foldl <;> try intro _ _ _
    | with_reducible apply Wr.foldl_snd <;> try intro _ _ _
    | with_reducible refine Wr.of_snd ‹_ = (_, _)› ?_
    | with_reducible refine Wr.of_snd2 ‹_ = (_, _, _)› ?_
    | with_reducible apply Wr.of_id
    | split
    | dsimp only

theorem State.restackCancel_wr {m : Nat} {s0 : State} (s : State) (a1 : _) (hm : subMask 0x4000 m = true) (h : Wr m s0 s) : Wr m s0 (State.restackCancel s a1) := by
  refine Wr.lift (f := 0x4000) ?_ hm h
  unfold State.restackCancel
  repeat' first
    | exact rfl
    | (refine (?_ : _ = true); dsimp only [List.all]; exact rfl)
    | with_reducible exact Wr.refl _ _
    | with_reducible assumption
    | with_reducible apply State.restackStat_wr
    | with_reducible apply Wr.of_keep (f := 1048576) (State.radUpd_keep (m := 1048576) _ _ rfl (Keep.refl _ _)) rfl
    | with_reducible apply Wr.ite <;> intro _
    | with_reducible apply Wr.foldl <;> try intro _ _ _
    | with_reducible apply Wr.foldl_snd <;> try intro _ _ _
    | with_reducible refine Wr.of_snd ‹_ = (_, _)› ?_
    | with_reducible refine Wr.of_snd2 ‹_ = (_, _, _)› ?_
    | with_reducible apply Wr.of_id
    | split
    | dsimp only

theorem State.restackAsk_wr {m : Nat} {s0 : State} (s : State) (a1 : _) (hm : subMask 0x4340000000000004000 m = true) (h : Wr m s0 s) : Wr m s0 (State.restackAsk s a1) := by
  refine Wr.lift (f := 0x4340000000000004000) ?_ hm h
  unfold State.restackAsk
  repeat' first
    | exact rfl
    | (refine (?_ : _ = true); dsimp only [List.all]; exact rfl)
    | with_reducible exact Wr.refl _ _
    | with_reducible assumption
    | with_reducible apply Wr.of_keep (f := 272) (State.raise_keep (m := 272) _ _ rfl (Keep.refl _ _)) rfl
    | with_reducible apply State.restackStat_wr
    | with_reducible apply Wr.of_keep (f := 1048576) (State.radUpd_keep (m := 1048576) _ _ rfl (Keep.refl _ _)) rfl
    | with_reducible apply State.calYield_wr
    | with_reducible apply Wr.ite <;> intro _
    | with_reducible apply Wr.foldl <;> try intro _ _ _
    | with_reducible apply Wr.foldl_snd <;> try intro _ _ _
    | with_reducible refine Wr.of_snd ‹_ = (_, _)› ?_
    | with_reducible refine Wr.of_snd2 ‹_ = (_, _, _)› ?_
    | with_reducible apply Wr.of_id
    | split
    | dsimp only

theorem wrCross_RGC_RESTACK_CTL_wr {m : Nat} {s0 : State} (v : Word) (rq : Req) (s : State) (hm : subMask 0x4340000000000005000 m = true) (h : Wr m s0 s) : Wr m s0 (wrCross .RGC_RESTACK_CTL [] v rq s) := by
  refine Wr.lift (f := 0x4340000000000005000) ?_ hm h
  unfold wrCross
  repeat' first
    | exact rfl
    | (refine (?_ : _ = true); dsimp only [List.all]; exact rfl)
    | with_reducible exact Wr.refl _ _
    | with_reducible assumption
    | contradiction
    | with_reducible apply storeWord_wr
    | with_reducible apply State.restackAsk_wr
    | with_reducible apply State.restackCancel_wr
    | with_reducible apply State.sets_wr
    | with_reducible apply Wr.ite <;> intro _
    | with_reducible apply Wr.foldl <;> try intro _ _ _
    | with_reducible apply Wr.foldl_snd <;> try intro _ _ _
    | with_reducible refine Wr.of_snd ‹_ = (_, _)› ?_
    | with_reducible refine Wr.of_snd2 ‹_ = (_, _, _)› ?_
    | with_reducible apply Wr.of_id
    | split
    | dsimp only

theorem execRestackRequest_wr (a0 : _) (a1 : _) (s : State) {t : State} (h : execRestackRequest a0 a1 s = .next t) : Wr 0x40000f000000000000000000000000000000000000000000000000000000000000000000000000000000000000000000000000000000004340000000000005000 s t := by
  unfold execRestackRequest at h
  injection h with h
  subst h
  repeat' first
    | exact rfl
    | (refine (?_ : _ = true); dsimp only [List.all]; exact rfl)
    | with_reducible exact Wr.refl _ _
    | with_reducible assumption
    | with_reducible refine writeReg_wr (r0 := .RGC_RESTACK_CTL) (show findReg (Reg.addr .RGC_RESTACK_CTL []) = some (.RGC_RESTACK_CTL, []) by decide +kernel) (fun _ _ => ?_) ?_ ?_
    | with_reducible apply wrCross_RGC_RESTACK_CTL_wr
    | with_reducible apply Wr.ite <;> intro _
    | with_reducible apply Wr.foldl <;> try intro _ _ _
    | with_reducible apply Wr.foldl_snd <;> try intro _ _ _
    | with_reducible refine Wr.of_snd ‹_ = (_, _)› ?_
    | with_reducible refine Wr.of_snd2 ‹_ = (_, _, _)› ?_
    | with_reducible apply Wr.of_id
    | split
    | dsimp only

theorem execRestackCancel_wr (a0 : _) (a1 : _) (s : State) {t : State} (h : execRestackCancel a0 a1 s = .next t) : Wr 0x40000f000000000000000000000000000000000000000000000000000000000000000000000000000000000000000000000000000000004340000000000005000 s t := by
  unfold execRestackCancel at h
  injection h with h
  subst h
  repeat' first
    | exact rfl
    | (refine (?_ : _ = true); dsimp only [List.all]; exact rfl)
    | with_reducible exact Wr.refl _ _
    | with_reducible assumption
    | with_reducible refine writeReg_wr (r0 := .RGC_RESTACK_CTL) (show findReg (Reg.addr .RGC_RESTACK_CTL []) = some (.RGC_RESTACK_CTL, []) by decide +kernel) (fun _ _ => ?_) ?_ ?_
    | with_reducible apply wrCross_RGC_RESTACK_CTL_wr
    | with_reducible apply Wr.ite <;> intro _
    | with_reducible apply Wr.foldl <;> try intro _ _ _
    | with_reducible apply Wr.foldl_snd <;> try intro _ _ _
    | with_reducible refine Wr.of_snd ‹_ = (_, _)› ?_
    | with_reducible refine Wr.of_snd2 ‹_ = (_, _, _)› ?_
    | with_reducible apply Wr.of_id
    | split
    | dsimp only

theorem execRestackBoundary_wr (s : State) {t : State} (h : execRestackBoundary s = .next t) : Wr 0x400000000000000000000000000000000000000000000001c00000001500000000048300080000020016240000434c0608804400cc000 s t := by
  unfold execRestackBoundary at h
  injection h with h
  subst h
  repeat' first
    | exact rfl
    | (refine (?_ : _ = true); dsimp only [List.all]; exact rfl)
    | with_reducible exact Wr.refl _ _
    | with_reducible assumption
    | with_reducible apply State.gapBegin_wr
    | with_reducible apply State.restackStat_wr
    | with_reducible apply Wr.of_keep (f := 1048576) (State.radUpd_keep (m := 1048576) _ _ rfl (Keep.refl _ _)) rfl
    | with_reducible apply Wr.ite <;> intro _
    | with_reducible apply Wr.foldl <;> try intro _ _ _
    | with_reducible apply Wr.foldl_snd <;> try intro _ _ _
    | with_reducible refine Wr.of_snd ‹_ = (_, _)› ?_
    | with_reducible refine Wr.of_snd2 ‹_ = (_, _, _)› ?_
    | with_reducible apply Wr.of_id
    | split
    | dsimp only

theorem State.gapEnd_wr {m : Nat} {s0 : State} (s : State) (a1 : _) (hm : subMask 0x400000000000000000000000000000000000000000000001c00000201500000000048300080000020016240000434c0608804400cc000 m = true) (h : Wr m s0 s) : Wr m s0 (State.gapEnd s a1) := by
  refine Wr.lift (f := 0x400000000000000000000000000000000000000000000001c00000201500000000048300080000020016240000434c0608804400cc000) ?_ hm h
  unfold State.gapEnd
  repeat' first
    | exact rfl
    | (refine (?_ : _ = true); dsimp only [List.all]; exact rfl)
    | with_reducible exact Wr.refl _ _
    | with_reducible assumption
    | with_reducible apply State.txaRestackEnd_wr
    | with_reducible apply Wr.of_keep (f := 1048576) (State.gateOpens_keep (m := 1048576) _ _ _ rfl (Keep.refl _ _)) rfl
    | with_reducible apply Wr.of_keep (f := 1048576) (State.radUpd_keep (m := 1048576) _ _ rfl (Keep.refl _ _)) rfl
    | with_reducible apply State.setChosen_wr
    | with_reducible apply Wr.of_keep (f := 272) (State.raise_keep (m := 272) _ _ rfl (Keep.refl _ _)) rfl
    | with_reducible apply State.restackStat_wr
    | with_reducible apply Wr.of_keep (f := 4194304) (State.wacLine_keep (m := 4194304) _ rfl (Keep.refl _ _)) rfl
    | with_reducible apply Wr.of_keep (f := 9437184) (State.fhJoin_keep (m := 9437184) _ _ rfl (Keep.refl _ _)) rfl
    | with_reducible apply State.coexSettle_wr
    | with_reducible apply State.fallback_wr
    | with_reducible apply Wr.ite <;> intro _
    | with_reducible apply Wr.foldl <;> try intro _ _ _
    | with_reducible apply Wr.foldl_snd <;> try intro _ _ _
    | with_reducible refine Wr.of_snd ‹_ = (_, _)› ?_
    | with_reducible refine Wr.of_snd2 ‹_ = (_, _, _)› ?_
    | with_reducible apply Wr.of_id
    | split
    | dsimp only

theorem execRestackGapEnd_wr (s : State) {t : State} (h : execRestackGapEnd s = .next t) : Wr 0x400000000000000000000000000000000000000000000001c00000201500000000048300080000020016240000434c0608804400cc000 s t := by
  unfold execRestackGapEnd at h
  injection h with h
  subst h
  repeat' first
    | exact rfl
    | (refine (?_ : _ = true); dsimp only [List.all]; exact rfl)
    | with_reducible exact Wr.refl _ _
    | with_reducible assumption
    | with_reducible apply State.gapEnd_wr
    | with_reducible apply Wr.ite <;> intro _
    | with_reducible apply Wr.foldl <;> try intro _ _ _
    | with_reducible apply Wr.foldl_snd <;> try intro _ _ _
    | with_reducible refine Wr.of_snd ‹_ = (_, _)› ?_
    | with_reducible refine Wr.of_snd2 ‹_ = (_, _, _)› ?_
    | with_reducible apply Wr.of_id
    | split
    | dsimp only

theorem State.heldFenced_wr {m : Nat} {s0 : State} (s : State) (a1 : _) (hm : subMask 0x40000f000000000000000000000000000000000000000000000000000000000000000000000000000000000000000000000000000000000000000000000000000 m = true) (h : Wr m s0 s) : Wr m s0 (State.heldFenced s a1) := by
  refine Wr.lift (f := 0x40000f000000000000000000000000000000000000000000000000000000000000000000000000000000000000000000000000000000000000000000000000000) ?_ hm h
  unfold State.heldFenced
  repeat' first
    | exact rfl
    | (refine (?_ : _ = true); dsimp only [List.all]; exact rfl)
    | with_reducible exact Wr.refl _ _
    | with_reducible assumption
    | with_reducible apply State.refuse_wr
    | with_reducible apply Wr.ite <;> intro _
    | with_reducible apply Wr.foldl <;> try intro _ _ _
    | with_reducible apply Wr.foldl_snd <;> try intro _ _ _
    | (rewrite [State.mk_eq_updOf]; with_reducible refine Wr.node rfl rfl rfl ?_)
    | with_reducible refine Wr.of_snd ‹_ = (_, _)› ?_
    | with_reducible refine Wr.of_snd2 ‹_ = (_, _, _)› ?_
    | with_reducible apply Wr.of_id
    | split
    | dsimp only

theorem State.quadLeave_wr {m : Nat} {s0 : State} (s : State) (a1 : _) (hm : subMask 0x400000000000000000000000000000000000000000000000c00000000100000000048300080000000016240000000c040080040000000 m = true) (h : Wr m s0 s) : Wr m s0 (State.quadLeave s a1) := by
  refine Wr.lift (f := 0x400000000000000000000000000000000000000000000000c00000000100000000048300080000000016240000000c040080040000000) ?_ hm h
  unfold State.quadLeave
  repeat' first
    | exact rfl
    | (refine (?_ : _ = true); dsimp only [List.all]; exact rfl)
    | with_reducible exact Wr.refl _ _
    | with_reducible assumption
    | with_reducible apply Wr.of_keep (f := 1048576) (State.radUpd_keep (m := 1048576) _ _ rfl (Keep.refl _ _)) rfl
    | with_reducible apply State.phyLose_wr
    | with_reducible apply State.txsEnd_wr
    | with_reducible apply Wr.ite <;> intro _
    | with_reducible apply Wr.foldl <;> try intro _ _ _
    | with_reducible apply Wr.foldl_snd <;> try intro _ _ _
    | with_reducible refine Wr.of_snd ‹_ = (_, _)› ?_
    | with_reducible refine Wr.of_snd2 ‹_ = (_, _, _)› ?_
    | with_reducible apply Wr.of_id
    | split
    | dsimp only

theorem State.regionStop_wr {m : Nat} {s0 : State} (s : State) (a1 : _) (hm : subMask 0x40000f00000000000000400000040000000000000000000000000000000000000000c00000000100000000048300080000000016240400000c040080040000000 m = true) (h : Wr m s0 s) : Wr m s0 (State.regionStop s a1) := by
  refine Wr.lift (f := 0x40000f00000000000000400000040000000000000000000000000000000000000000c00000000100000000048300080000000016240400000c040080040000000) ?_ hm h
  unfold State.regionStop
  repeat' first
    | exact rfl
    | (refine (?_ : _ = true); dsimp only [List.all]; exact rfl)
    | with_reducible exact Wr.refl _ _
    | with_reducible assumption
    | with_reducible apply State.quadLeave_wr
    | with_reducible apply Wr.of_keep (f := 2097152) (State.dfsSave_keep (m := 2097152) _ rfl (Keep.refl _ _)) rfl
    | with_reducible apply State.txsEnd_wr
    | with_reducible apply State.hkaSkip_wr
    | with_reducible apply State.tlyFence_wr
    | with_reducible apply State.heldFenced_wr
    | with_reducible apply Wr.of_keep (f := 133529664) (State.unitsLost_keep (m := 133529664) _ _ rfl (Keep.refl _ _)) rfl
    | with_reducible apply Wr.ite <;> intro _
    | with_reducible apply Wr.foldl <;> try intro _ _ _
    | with_reducible apply Wr.foldl_snd <;> try intro _ _ _
    | with_reducible refine Wr.of_snd ‹_ = (_, _)› ?_
    | with_reducible refine Wr.of_snd2 ‹_ = (_, _, _)› ?_
    | with_reducible apply Wr.of_id
    | split
    | dsimp only

theorem State.vfLost_wr {m : Nat} {s0 : State} (s : State) (a1 : _) (hm : subMask 0x20000000000000000000000000000000000000000000000000000000000000000000000000000000000000000000000000000000000000000000000000 m = true) (h : Wr m s0 s) : Wr m s0 (State.vfLost s a1) := by
  refine Wr.lift (f := 0x20000000000000000000000000000000000000000000000000000000000000000000000000000000000000000000000000000000000000000000000000) ?_ hm h
  unfold State.vfLost
  repeat' first
    | exact rfl
    | (refine (?_ : _ = true); dsimp only [List.all]; exact rfl)
    | with_reducible exact Wr.refl _ _
    | with_reducible assumption
    | with_reducible apply State.commit_wr
    | with_reducible apply Wr.of_keep (f := 272) (State.raise_keep (m := 272) _ _ rfl (Keep.refl _ _)) rfl
    | with_reducible apply Wr.ite <;> intro _
    | with_reducible apply Wr.foldl <;> try intro _ _ _
    | with_reducible apply Wr.foldl_snd <;> try intro _ _ _
    | (rewrite [State.mk_eq_updOf]; with_reducible refine Wr.node rfl rfl rfl ?_)
    | with_reducible refine Wr.of_snd ‹_ = (_, _)› ?_
    | with_reducible refine Wr.of_snd2 ‹_ = (_, _, _)› ?_
    | with_reducible apply Wr.of_id
    | split
    | dsimp only

theorem State.fenceDo_wr {m : Nat} {s0 : State} (s : State) (a1 : _) (a2 : _) (a3 : _) (a4 : _) (a5 : _) (hm : subMask 0x40000f02030000000000400000040000000000000000000000000000000000000001c00000001500000000048300080000020016240400434c0608804400cc024 m = true) (h : Wr m s0 s) : Wr m s0 (State.fenceDo s a1 a2 a3 a4 a5) := by
  refine Wr.lift (f := 0x40000f02030000000000400000040000000000000000000000000000000000000001c00000001500000000048300080000020016240400434c0608804400cc024) ?_ hm h
  unfold State.fenceDo
  repeat' first
    | exact rfl
    | (refine (?_ : _ = true); dsimp only [List.all]; exact rfl)
    | with_reducible exact Wr.refl _ _
    | with_reducible assumption
    | with_reducible apply Wr.of_keep (f := 784) (State.ashAdd_keep (m := 784) _ _ _ _ rfl (Keep.refl _ _)) rfl
    | with_reducible apply State.setReg_wr
    | with_reducible apply State.regionStop_wr
    | with_reducible apply State.vfLost_wr
    | with_reducible apply State.restackCancel_wr
    | with_reducible apply State.sleepPreempt_wr
    | with_reducible apply State.set_wr
    | with_reducible apply State.coexSettle_wr
    | with_reducible apply State.fallback_wr
    | with_reducible apply State.setMode_wr
    | with_reducible apply Wr.of_keep (f := 272) (State.raise_keep (m := 272) _ _ rfl (Keep.refl _ _)) rfl
    | with_reducible apply State.pathsCheck_wr
    | with_reducible apply Wr.ite <;> intro _
    | with_reducible apply Wr.foldl <;> try intro _ _ _
    | with_reducible apply Wr.foldl_snd <;> try intro _ _ _
    | (rewrite [State.mk_eq_updOf]; with_reducible refine Wr.node rfl rfl rfl ?_)
    | with_reducible refine Wr.of_snd ‹_ = (_, _)› ?_
    | with_reducible refine Wr.of_snd2 ‹_ = (_, _, _)› ?_
    | with_reducible apply Wr.of_id
    | split
    | dsimp only

end Sys2Proof.Machine
end

