-- ==== Sys2Proof/Laws/WrPush.lean ====
section
/-! SUPPORT. The registers that each operation of Machine/Push.lean may change. -/

set_option Elab.async false

namespace Sys2Proof.Machine

theorem State.pushShow_wr {m : Nat} {s0 : State} (s : State) (hm : subMask 0x100 m = true) (h : Wr m s0 s) : Wr m s0 (State.pushShow s) := by
  refine Wr.lift (f := 0x100) ?_ hm h
  unfold State.pushShow
  repeat' first
    | exact rfl
    | (refine (?_ : _ = true); dsimp only [List.all]; exact rfl)
    | with_reducible exact Wr.refl _ _
    | with_reducible assumption
    | with_reducible apply State.sets_wr
    | with_reducible apply Wr.ite <;> intro _
    | with_reducible apply Wr.foldl <;> try intro _ _ _
    | with_reducible apply Wr.foldl_snd <;> try intro _ _ _
    | with_reducible refine Wr.of_snd ‹_ = (_, _)› ?_
    | with_reducible refine Wr.of_snd2 ‹_ = (_, _, _)› ?_
    | with_reducible apply Wr.of_id
    | split
    | dsimp only

theorem State.reloadFail_wr {m : Nat} {s0 : State} (s : State) (a1 : _) (hm : subMask 0x124 m = true) (h : Wr m s0 s) : Wr m s0 (State.reloadFail s a1) := by
  refine Wr.lift (f := 0x124) ?_ hm h
  unfold State.reloadFail
  repeat' first
    | exact rfl
    | (refine (?_ : _ = true); dsimp only [List.all]; exact rfl)
    | with_reducible exact Wr.refl _ _
    | with_reducible assumption
    | with_reducible apply State.pushEnd_wr
    | with_reducible apply State.setMode_wr
    | with_reducible apply State.set_wr
    | with_reducible apply Wr.of_keep (f := 8192) (State.pushUpd_keep (m := 8192) _ _ rfl (Keep.refl _ _)) rfl
    | with_reducible apply Wr.of_keep (f := 272) (State.raise_keep (m := 272) _ _ rfl (Keep.refl _ _)) rfl
    | with_reducible apply Wr.ite <;> intro _
    | with_reducible apply Wr.foldl <;> try intro _ _ _
    | with_reducible apply Wr.foldl_snd <;> try intro _ _ _
    | with_reducible refine Wr.of_snd ‹_ = (_, _)› ?_
    | with_reducible refine Wr.of_snd2 ‹_ = (_, _, _)› ?_
    | with_reducible apply Wr.of_id
    | split
    | dsimp only

theorem State.storeDone_wr {m : Nat} {s0 : State} (s : State) (hm : subMask 0x100 m = true) (h : Wr m s0 s) : Wr m s0 (State.storeDone s) := by
  refine Wr.lift (f := 0x100) ?_ hm h
  unfold State.storeDone
  repeat' first
    | exact rfl
    | (refine (?_ : _ = true); dsimp only [List.all]; exact rfl)
    | with_reducible exact Wr.refl _ _
    | with_reducible assumption
    | with_reducible apply State.pushEnd_wr
    | with_reducible apply Wr.of_keep (f := 128) (State.fput_keep (m := 128) _ _ _ rfl (Keep.refl _ _)) rfl
    | with_reducible apply Wr.ite <;> intro _
    | with_reducible apply Wr.foldl <;> try intro _ _ _
    | with_reducible apply Wr.foldl_snd <;> try intro _ _ _
    | with_reducible refine Wr.of_snd ‹_ = (_, _)› ?_
    | with_reducible refine Wr.of_snd2 ‹_ = (_, _, _)› ?_
    | with_reducible apply Wr.of_id
    | split
    | dsimp only

theorem State.reloadFence_wr {m : Nat} {s0 : State} (s : State) (a1 : _) (hm : subMask 0x40000f02000000000000400000040000000000000000000000000000000000000001c00000001500000000048300080000020016240400434c0608804400c8000 m = true) (h : Wr m s0 s) : Wr m s0 (State.reloadFence s a1) := by
  refine Wr.lift (f := 0x40000f02000000000000400000040000000000000000000000000000000000000001c00000001500000000048300080000020016240400434c0608804400c8000) ?_ hm h
  unfold State.reloadFence
  repeat' first
    | exact rfl
    | (refine (?_ : _ = true); dsimp only [List.all]; exact rfl)
    | with_reducible exact Wr.refl _ _
    | with_reducible assumption
    | with_reducible apply State.regionStop_wr
    | with_reducible apply State.vfLost_wr
    | with_reducible apply Wr.of_keep (f := 8192) (State.pushUpd_keep (m := 8192) _ _ rfl (Keep.refl _ _)) rfl
    | with_reducible apply State.coexSettle_wr
    | with_reducible apply State.fallback_wr
    | with_reducible apply State.pathsCheck_wr
    | with_reducible apply Wr.ite <;> intro _
    | with_reducible apply Wr.foldl <;> try intro _ _ _
    | with_reducible apply Wr.foldl_snd <;> try intro _ _ _
    | with_reducible refine Wr.of_snd ‹_ = (_, _)› ?_
    | with_reducible refine Wr.of_snd2 ‹_ = (_, _, _)› ?_
    | with_reducible apply Wr.of_id
    | split
    | dsimp only

theorem State.pushBegin_wr {m : Nat} {s0 : State} (s : State) (a1 : _) (a2 : _) (a3 : _) (hm : subMask 0x40000f02000000000000400000040000000000000000000000000000000000000001c00000001500000000048300080000020016240400434c0608804400c8100 m = true) (h : Wr m s0 s) : Wr m s0 (State.pushBegin s a1 a2 a3) := by
  refine Wr.lift (f := 0x40000f02000000000000400000040000000000000000000000000000000000000001c00000001500000000048300080000020016240400434c0608804400c8100) ?_ hm h
  unfold State.pushBegin
  repeat' first
    | exact rfl
    | (refine (?_ : _ = true); dsimp only [List.all]; exact rfl)
    | with_reducible exact Wr.refl _ _
    | with_reducible assumption
    | with_reducible apply Wr.of_keep (f := 8192) (State.pushUpd_keep (m := 8192) _ _ rfl (Keep.refl _ _)) rfl
    | with_reducible apply State.setReg_wr
    | with_reducible apply State.pushShow_wr
    | with_reducible apply State.reloadFence_wr
    | with_reducible apply Wr.ite <;> intro _
    | with_reducible apply Wr.foldl <;> try intro _ _ _
    | with_reducible apply Wr.foldl_snd <;> try intro _ _ _
    | with_reducible refine Wr.of_snd ‹_ = (_, _)› ?_
    | with_reducible refine Wr.of_snd2 ‹_ = (_, _, _)› ?_
    | with_reducible apply Wr.of_id
    | split
    | dsimp only

theorem State.pushWord_wr {m : Nat} {s0 : State} (s : State) (a1 : _) (hm : subMask 0x100 m = true) (h : Wr m s0 s) : Wr m s0 (State.pushWord s a1) := by
  refine Wr.lift (f := 0x100) ?_ hm h
  unfold State.pushWord
  repeat' first
    | exact rfl
    | (refine (?_ : _ = true); dsimp only [List.all]; exact rfl)
    | with_reducible exact Wr.refl _ _
    | with_reducible assumption
    | with_reducible apply State.pushStat_wr
    | with_reducible apply State.storeDone_wr
    | with_reducible apply State.pushShow_wr
    | with_reducible apply Wr.of_keep (f := 8192) (State.pushUpd_keep (m := 8192) _ _ rfl (Keep.refl _ _)) rfl
    | with_reducible apply Wr.ite <;> intro _
    | with_reducible apply Wr.foldl <;> try intro _ _ _
    | with_reducible apply Wr.foldl_snd <;> try intro _ _ _
    | with_reducible refine Wr.of_snd ‹_ = (_, _)› ?_
    | with_reducible refine Wr.of_snd2 ‹_ = (_, _, _)› ?_
    | with_reducible apply Wr.of_id
    | split
    | dsimp only

theorem wrPush_AO_PUSH_DATA_wr {m : Nat} {s0 : State} (v : Word) (rq : Req) (s : State) (hm : subMask 0x100 m = true) (h : Wr m s0 s) : Wr m s0 (wrPush .AO_PUSH_DATA [] v rq s) := by
  refine Wr.lift (f := 0x100) ?_ hm h
  unfold wrPush
  repeat' first
    | exact rfl
    | (refine (?_ : _ = true); dsimp only [List.all]; exact rfl)
    | with_reducible exact Wr.refl _ _
    | with_reducible assumption
    | contradiction
    | with_reducible apply State.pushWord_wr
    | with_reducible apply storeWord_wr
    | with_reducible apply Wr.ite <;> intro _
    | with_reducible apply Wr.foldl <;> try intro _ _ _
    | with_reducible apply Wr.foldl_snd <;> try intro _ _ _
    | with_reducible refine Wr.of_snd ‹_ = (_, _)› ?_
    | with_reducible refine Wr.of_snd2 ‹_ = (_, _, _)› ?_
    | with_reducible apply Wr.of_id
    | split
    | dsimp only

theorem State.pushDrain_wr {m : Nat} {s0 : State} (a0 : _) (s : State) (hm : subMask 0x40000f000000000000000000000000000000000000000000000000000000000000000000000000000000000000000000000000000000000000000000000000100 m = true) (h : Wr m s0 s) : Wr m s0 (State.pushDrain a0 s) := by
  induction a0 generalizing s with
  | zero => unfold State.pushDrain; exact h
  | succ n ih =>
    unfold State.pushDrain
    repeat' first
      | exact rfl
      | (refine (?_ : _ = true); dsimp only [List.all]; exact rfl)
      | exact subMask_trans rfl hm
      | with_reducible apply wrPush_AO_PUSH_DATA_wr
      | with_reducible apply ih
      | with_reducible exact Wr.refl _ _
      | with_reducible assumption
      | with_reducible apply Wr.ite <;> intro _
      | with_reducible apply Wr.foldl <;> try intro _ _ _
      | with_reducible apply Wr.foldl_snd <;> try intro _ _ _
      | with_reducible apply State.refuse_wr
      | with_reducible refine State.unhold_wr _ _ _ (fun _ _ _ _ => ?_) ?_
      | (rewrite [State.mk_eq_updOf]; with_reducible refine Wr.node rfl rfl rfl ?_)
      | with_reducible refine Wr.of_snd ‹_ = (_, _)› ?_
      | with_reducible refine Wr.of_snd2 ‹_ = (_, _, _)› ?_
      | with_reducible apply Wr.of_id
      | split
      | dsimp only

theorem State.pushGo_wr {m : Nat} {s0 : State} (s : State) (hm : subMask 0x40000f000000000000000000000000000000000000000000000000000000000000000000000000000000000000000000000000000000000000000000000000100 m = true) (h : Wr m s0 s) : Wr m s0 (State.pushGo s) := by
  refine Wr.lift (f := 0x40000f000000000000000000000000000000000000000000000000000000000000000000000000000000000000000000000000000000000000000000000000100) ?_ hm h
  unfold State.pushGo
  repeat' first
    | exact rfl
    | (refine (?_ : _ = true); dsimp only [List.all]; exact rfl)
    | with_reducible exact Wr.refl _ _
    | with_reducible assumption
    | with_reducible apply State.pushDrain_wr
    | with_reducible apply State.pushShow_wr
    | with_reducible apply Wr.ite <;> intro _
    | with_reducible apply Wr.foldl <;> try intro _ _ _
    | with_reducible apply Wr.foldl_snd <;> try intro _ _ _
    | with_reducible refine Wr.of_snd ‹_ = (_, _)› ?_
    | with_reducible refine Wr.of_snd2 ‹_ = (_, _, _)› ?_
    | with_reducible apply Wr.of_id
    | split
    | dsimp only

theorem execAoPushData_wr (a0 : _) (a1 : _) (s : State) {t : State} (h : execAoPushData a0 a1 s = .next t) : Wr 0x40000f000000000000000000000000000000000000000000000000000000000000000000000000000000000000000000000000000000000000000000000000100 s t := by
  unfold execAoPushData at h
  injection h with h
  subst h
  repeat' first
    | exact rfl
    | (refine (?_ : _ = true); dsimp only [List.all]; exact rfl)
    | with_reducible exact Wr.refl _ _
    | with_reducible assumption
    | with_reducible refine writeOrHold_wr (r0 := .AO_PUSH_DATA) (show findReg 0x7000204 = some (.AO_PUSH_DATA, []) by decide +kernel) (fun _ _ => ?_) ?_ ?_
    | with_reducible apply wrPush_AO_PUSH_DATA_wr
    | with_reducible apply Wr.ite <;> intro _
    | with_reducible apply Wr.foldl <;> try intro _ _ _
    | with_reducible apply Wr.foldl_snd <;> try intro _ _ _
    | with_reducible refine Wr.of_snd ‹_ = (_, _)› ?_
    | with_reducible refine Wr.of_snd2 ‹_ = (_, _, _)› ?_
    | with_reducible apply Wr.of_id
    | split
    | dsimp only

theorem State.slotSelect_wr {m : Nat} {s0 : State} (s : State) (hm : subMask 0x220 m = true) (h : Wr m s0 s) : Wr m s0 (State.slotSelect s) := by
  refine Wr.lift (f := 0x220) ?_ hm h
  unfold State.slotSelect
  extract_lets s1
  have hs1 : Wr 0x220 s s1 := State.slotShow_wr _ _ _ rfl (State.slotShow_wr _ _ _ rfl (Wr.refl _ _))
  clear_value s1
  split
  · exact Wr.of_keep (f := 4096) (State.trySlot_keep (m := 4096) _ _ rfl (Keep.refl _ _)) rfl (hs1)
  · exact Wr.of_keep (f := 4096) (State.bootUpd_keep (m := 4096) _ _ rfl (Keep.refl _ _)) rfl (State.bringStop_wr _ _ rfl (hs1))

theorem execEnrolment_wr (s : State) {t : State} (h : execEnrolment s = .next t) : Wr 0x40000f000000000080000000000000000000000000000000000000000000000000000000000000000000000000000000000000000000000000000000000000320 s t := by
  unfold execEnrolment at h
  injection h with h
  subst h
  refine Wr.ite (fun _ => ?_) (fun _ => Wr.refl _ _)
  refine Wr.ite (fun _ => State.pushGo_wr _ rfl (State.pushEnd_wr _ _ rfl (Wr.refl _ _))) (fun _ => ?_)
  extract_lets s1 s2
  have hs1 : Wr 0x40000f000000000080000000000000000000000000000000000000000000000000000000000000000000000000000000000000000000000000000000000000320 s s1 := State.keysShow_wr _ rfl (Wr.of_keep (f := 32768) (State.klnUpd_keep (m := 32768) _ _ rfl (Keep.refl _ _)) rfl (Wr.refl _ _))
  clear_value s1
  have hs2 : Wr 0x40000f000000000080000000000000000000000000000000000000000000000000000000000000000000000000000000000000000000000000000000000000320 s s2 := State.pushEnd_wr _ _ rfl (Wr.of_keep (f := 524288) (State.alertForget_keep (m := 524288) _ _ rfl (Keep.refl _ _)) rfl (State.sets_wr _ _ _ (by dsimp only [List.all]; rfl) rfl hs1))
  clear_value s2
  exact State.pushGo_wr _ rfl (State.slotSelect_wr _ rfl (hs2))

end Sys2Proof.Machine
end

