-- ==== Sys2Proof/Laws/WrRegsAll.lean ====
section
/-! SUPPORT. The registers that each operation of Machine/RegsAll.lean may change. -/

set_option Elab.async false

namespace Sys2Proof.Machine

theorem State.windowsPast_wr {m : Nat} {s0 : State} (s : State) (hm : subMask 0x4340000000000000000 m = true) (h : Wr m s0 s) : Wr m s0 (State.windowsPast s) := by
  refine Wr.lift (f := 0x4340000000000000000) ?_ hm h
  unfold State.windowsPast
  repeat' first
    | exact rfl
    | (refine (?_ : _ = true); dsimp only [List.all]; exact rfl)
    | with_reducible exact Wr.refl _ _
    | with_reducible assumption
    | with_reducible apply State.calCancel_wr
    | with_reducible apply Wr.ite <;> intro _
    | with_reducible apply Wr.foldl <;> try intro _ _ _
    | with_reducible apply Wr.foldl_snd <;> try intro _ _ _
    | with_reducible refine Wr.of_snd ‹_ = (_, _)› ?_
    | with_reducible refine Wr.of_snd2 ‹_ = (_, _, _)› ?_
    | with_reducible apply Wr.of_id
    | split
    | dsimp only

theorem State.afterStep_wr {m : Nat} {s0 : State} (s : State) (a1 : _) (hm : subMask 0x8000000000000000000000000000000004340000000000004000 m = true) (h : Wr m s0 s) : Wr m s0 (State.afterStep s a1) := by
  refine Wr.lift (f := 0x8000000000000000000000000000000004340000000000004000) ?_ hm h
  unfold State.afterStep
  repeat' first
    | exact rfl
    | (refine (?_ : _ = true); dsimp only [List.all]; exact rfl)
    | with_reducible exact Wr.refl _ _
    | with_reducible assumption
    | with_reducible apply State.fhStep_wr
    | with_reducible apply State.restackCancel_wr
    | with_reducible apply State.windowsPast_wr
    | with_reducible apply Wr.of_keep (f := 67108864) (State.gateSync_keep (m := 67108864) _ _ rfl (Keep.refl _ _)) rfl
    | with_reducible apply Wr.ite <;> intro _
    | with_reducible apply Wr.foldl <;> try intro _ _ _
    | with_reducible apply Wr.foldl_snd <;> try intro _ _ _
    | with_reducible refine Wr.of_snd ‹_ = (_, _)› ?_
    | with_reducible refine Wr.of_snd2 ‹_ = (_, _, _)› ?_
    | with_reducible apply Wr.of_id
    | split
    | dsimp only

theorem wrTime_NTU_TIME_CTL_wr {m : Nat} {s0 : State} (v : Word) (rq : Req) (s : State) (hm : subMask 0x1100020000000000000000000000000000000008000000000000000000000000000000004340000000000004000 m = true) (h : Wr m s0 s) : Wr m s0 (wrTime .NTU_TIME_CTL [] v rq s) := by
  refine Wr.lift (f := 0x1100020000000000000000000000000000000008000000000000000000000000000000004340000000000004000) ?_ hm h
  unfold wrTime
  repeat' first
    | exact rfl
    | (refine (?_ : _ = true); dsimp only [List.all]; exact rfl)
    | with_reducible exact Wr.refl _ _
    | with_reducible assumption
    | contradiction
    | with_reducible apply wrNtu_NTU_TIME_CTL_wr
    | with_reducible apply State.ntuCtl_wr
    | with_reducible apply State.afterStep_wr
    | with_reducible apply Wr.of_keep (f := 272) (State.afcUnlock_keep (m := 272) _ _ rfl (Keep.refl _ _)) rfl
    | with_reducible apply Wr.ite <;> intro _
    | with_reducible apply Wr.foldl <;> try intro _ _ _
    | with_reducible apply Wr.foldl_snd <;> try intro _ _ _
    | with_reducible refine Wr.of_snd ‹_ = (_, _)› ?_
    | with_reducible refine Wr.of_snd2 ‹_ = (_, _, _)› ?_
    | with_reducible apply Wr.of_id
    | split
    | dsimp only

theorem State.timeCtl_wr {m : Nat} {s0 : State} (s : State) (a1 : _) (a2 : _) (hm : subMask 0x40000f000000000000000000000000000000001100020000000000000000000000000000000008000000000000000000000000000000004340000000000004000 m = true) (h : Wr m s0 s) : Wr m s0 (State.timeCtl s a1 a2) := by
  refine Wr.lift (f := 0x40000f000000000000000000000000000000001100020000000000000000000000000000000008000000000000000000000000000000004340000000000004000) ?_ hm h
  unfold State.timeCtl
  repeat' first
    | exact rfl
    | (refine (?_ : _ = true); dsimp only [List.all]; exact rfl)
    | with_reducible exact Wr.refl _ _
    | with_reducible assumption
    | with_reducible refine writeReg_wr (r0 := .NTU_TIME_CTL) (show findReg (Reg.addr .NTU_TIME_CTL []) = some (.NTU_TIME_CTL, []) by decide +kernel) (fun _ _ => ?_) ?_ ?_
    | with_reducible apply wrTime_NTU_TIME_CTL_wr
    | with_reducible apply Wr.ite <;> intro _
    | with_reducible apply Wr.foldl <;> try intro _ _ _
    | with_reducible apply Wr.foldl_snd <;> try intro _ _ _
    | with_reducible refine Wr.of_snd ‹_ = (_, _)› ?_
    | with_reducible refine Wr.of_snd2 ‹_ = (_, _, _)› ?_
    | with_reducible apply Wr.of_id
    | split
    | dsimp only

theorem execNtuAdj_wr (a0 : _) (s : State) {t : State} (h : execNtuAdj a0 s = .next t) : Wr 0x40000f000000000000000000000000000000001100020000000000000000000000000000000008000000000000000000000000000000004340000000000004000 s t := by
  unfold execNtuAdj at h
  injection h with h
  subst h
  repeat' first
    | exact rfl
    | (refine (?_ : _ = true); dsimp only [List.all]; exact rfl)
    | with_reducible exact Wr.refl _ _
    | with_reducible assumption
    | with_reducible apply State.timeCtl_wr
    | with_reducible apply Wr.ite <;> intro _
    | with_reducible apply Wr.foldl <;> try intro _ _ _
    | with_reducible apply Wr.foldl_snd <;> try intro _ _ _
    | with_reducible refine Wr.of_snd ‹_ = (_, _)› ?_
    | with_reducible refine Wr.of_snd2 ‹_ = (_, _, _)› ?_
    | with_reducible apply Wr.of_id
    | split
    | dsimp only

theorem execNtuSet_wr (a0 : _) (s : State) {t : State} (h : execNtuSet a0 s = .next t) : Wr 0x40000f000000000000000000000000000000001100020000000000000000000000000000000008000000000000000000000000000000004340000000000004000 s t := by
  unfold execNtuSet at h
  injection h with h
  subst h
  repeat' first
    | exact rfl
    | (refine (?_ : _ = true); dsimp only [List.all]; exact rfl)
    | with_reducible exact Wr.refl _ _
    | with_reducible assumption
    | with_reducible apply State.timeCtl_wr
    | with_reducible apply Wr.ite <;> intro _
    | with_reducible apply Wr.foldl <;> try intro _ _ _
    | with_reducible apply Wr.foldl_snd <;> try intro _ _ _
    | with_reducible refine Wr.of_snd ‹_ = (_, _)› ?_
    | with_reducible refine Wr.of_snd2 ‹_ = (_, _, _)› ?_
    | with_reducible apply Wr.of_id
    | split
    | dsimp only

theorem execNtuForceAdj_wr (a0 : _) (s : State) {t : State} (h : execNtuForceAdj a0 s = .next t) : Wr 0x40000f000000000000000000000000000000001100020000000000000000000000000000000008000000000000000000000000000000004340000000000004000 s t := by
  unfold execNtuForceAdj at h
  injection h with h
  subst h
  repeat' first
    | exact rfl
    | (refine (?_ : _ = true); dsimp only [List.all]; exact rfl)
    | with_reducible exact Wr.refl _ _
    | with_reducible assumption
    | with_reducible apply State.timeCtl_wr
    | with_reducible apply Wr.ite <;> intro _
    | with_reducible apply Wr.foldl <;> try intro _ _ _
    | with_reducible apply Wr.foldl_snd <;> try intro _ _ _
    | with_reducible refine Wr.of_snd ‹_ = (_, _)› ?_
    | with_reducible refine Wr.of_snd2 ‹_ = (_, _, _)› ?_
    | with_reducible apply Wr.of_id
    | split
    | dsimp only

theorem execNtuForceSet_wr (a0 : _) (s : State) {t : State} (h : execNtuForceSet a0 s = .next t) : Wr 0x40000f000000000000000000000000000000001100020000000000000000000000000000000008000000000000000000000000000000004340000000000004000 s t := by
  unfold execNtuForceSet at h
  injection h with h
  subst h
  repeat' first
    | exact rfl
    | (refine (?_ : _ = true); dsimp only [List.all]; exact rfl)
    | with_reducible exact Wr.refl _ _
    | with_reducible assumption
    | with_reducible apply State.timeCtl_wr
    | with_reducible apply Wr.ite <;> intro _
    | with_reducible apply Wr.foldl <;> try intro _ _ _
    | with_reducible apply Wr.foldl_snd <;> try intro _ _ _
    | with_reducible refine Wr.of_snd ‹_ = (_, _)› ?_
    | with_reducible refine Wr.of_snd2 ‹_ = (_, _, _)› ?_
    | with_reducible apply Wr.of_id
    | split
    | dsimp only

theorem execNtuUnlock_wr (a0 : _) (s : State) {t : State} (h : execNtuUnlock a0 s = .next t) : Wr 0x40000f000000000000000000000000000000001100020000000000000000000000000000000008000000000000000000000000000000004340000000000004000 s t := by
  unfold execNtuUnlock at h
  injection h with h
  subst h
  repeat' first
    | exact rfl
    | (refine (?_ : _ = true); dsimp only [List.all]; exact rfl)
    | with_reducible exact Wr.refl _ _
    | with_reducible assumption
    | with_reducible apply State.timeCtl_wr
    | with_reducible apply Wr.ite <;> intro _
    | with_reducible apply Wr.foldl <;> try intro _ _ _
    | with_reducible apply Wr.foldl_snd <;> try intro _ _ _
    | with_reducible refine Wr.of_snd ‹_ = (_, _)› ?_
    | with_reducible refine Wr.of_snd2 ‹_ = (_, _, _)› ?_
    | with_reducible apply Wr.of_id
    | split
    | dsimp only

theorem State.memLoad_wr {m : Nat} {s0 : State} (s : State) (a1 : _) (a2 : _) (a3 : _) (a4 : _) (hm : subMask 0x40000f000000000000500a00000000000000000000000000000000000000000000000000000000000000000000000000000000000000000000000000000000000 m = true) (h : Wr m s0 s) : Wr m s0 (State.memLoad s a1 a2 a3 a4) := by
  refine Wr.lift (f := 0x40000f000000000000500a00000000000000000000000000000000000000000000000000000000000000000000000000000000000000000000000000000000000) ?_ hm h
  unfold State.memLoad
  repeat' first
    | exact rfl
    | (refine (?_ : _ = true); dsimp only [List.all]; exact rfl)
    | with_reducible exact Wr.refl _ _
    | with_reducible assumption
    | with_reducible apply State.refuse_wr
    | with_reducible apply State.memRead_wr
    | with_reducible apply Wr.of_keep (f := 2) (State.answer_keep (m := 2) _ _ _ rfl (Keep.refl _ _)) rfl
    | with_reducible apply Wr.ite <;> intro _
    | with_reducible apply Wr.foldl <;> try intro _ _ _
    | with_reducible apply Wr.foldl_snd <;> try intro _ _ _
    | with_reducible refine Wr.of_snd ‹_ = (_, _)› ?_
    | with_reducible refine Wr.of_snd2 ‹_ = (_, _, _)› ?_
    | with_reducible apply Wr.of_id
    | split
    | dsimp only

theorem State.memStore_wr {m : Nat} {s0 : State} (s : State) (a1 : _) (a2 : _) (a3 : _) (a4 : _) (a5 : _) (hm : subMask 0x40000f000000000000000000000000000000000000000000000000000000000000000000000000000000000000000000000000000000000000000000000000000 m = true) (h : Wr m s0 s) : Wr m s0 (State.memStore s a1 a2 a3 a4 a5) := by
  refine Wr.lift (f := 0x40000f000000000000000000000000000000000000000000000000000000000000000000000000000000000000000000000000000000000000000000000000000) ?_ hm h
  unfold State.memStore
  repeat' first
    | exact rfl
    | (refine (?_ : _ = true); dsimp only [List.all]; exact rfl)
    | with_reducible exact Wr.refl _ _
    | with_reducible assumption
    | with_reducible apply State.refuse_wr
    | with_reducible apply Wr.of_keep (f := 65600) (State.memWrite_keep (m := 65600) _ _ _ _ rfl (Keep.refl _ _)) rfl
    | with_reducible apply Wr.of_keep (f := 2) (State.answer_keep (m := 2) _ _ _ rfl (Keep.refl _ _)) rfl
    | with_reducible apply Wr.ite <;> intro _
    | with_reducible apply Wr.foldl <;> try intro _ _ _
    | with_reducible apply Wr.foldl_snd <;> try intro _ _ _
    | with_reducible refine Wr.of_snd ‹_ = (_, _)› ?_
    | with_reducible refine Wr.of_snd2 ‹_ = (_, _, _)› ?_
    | with_reducible apply Wr.of_id
    | split
    | dsimp only

theorem State.busRead_wr {m : Nat} {s0 : State} (s : State) (rq : Req) (a n : Nat) (hm : subMask 0x1fffffffffffffffffffffffffffffffffffffffffffffffffffffffffffffffffffffffffffffffffffffffffffffffffffffffffffffffffffffffffffffffffffff m = true) (h : Wr m s0 s) : Wr m s0 (State.busRead s rq a n) :=
  Wr.of_any (State.busRead_keep s rq a n rfl (Keep.refl 66225970 s)) (testBit_all hm) h

end Sys2Proof.Machine
end

