-- ==== Sys2Proof/Laws/WrBoot.lean ====
section
/-! SUPPORT. The registers that each operation of Machine/Boot.lean may change. -/

set_option Elab.async false

namespace Sys2Proof.Machine

theorem State.initEntry_wr {m : Nat} {s0 : State} (s : State) (b : Bytes) (hm : subMask 0x1fffffffffffffffffffffffffffffffffffffffffffffffffffffffffffffffffffffffffffffffffffffffffffffffffffffffffffffffffffffffffffffffffffff m = true) (h : Wr m s0 s) : Wr m s0 (State.initEntry s b).2 :=
  Wr.of_any (State.initEntry_keep s b rfl (Keep.refl 134217727 s)) (testBit_all hm) h

theorem State.initRun_wr {m : Nat} {s0 : State} (a0 : _) (a1 : _) (s : State) (hm : subMask 0x1fffffffffffffffffffffffffffffffffffffffffffffffffffffffffffffffffffffffffffffffffffffffffffffffffffffffffffffffffffffffffffffffffffff m = true) (h : Wr m s0 s) : Wr m s0 (State.initRun a0 a1 s).2 := by
  induction a1 generalizing s with
  | nil => unfold State.initRun; exact h
  | cons b t ih =>
    unfold State.initRun
    repeat' first
      | exact rfl
      | (refine (?_ : _ = true); dsimp only [List.all]; exact rfl)
      | exact subMask_trans rfl hm
      | with_reducible apply State.initEntry_wr
      | with_reducible apply ih
      | with_reducible exact Wr.refl _ _
      | with_reducible assumption
      | with_reducible apply Wr.ite <;> intro _
      | with_reducible apply Wr.foldl <;> try intro _ _ _
      | with_reducible apply Wr.foldl_snd <;> try intro _ _ _
      | with_reducible refine Wr.of_snd ‹_ = (_, _)› ?_
      | with_reducible refine Wr.of_snd2 ‹_ = (_, _, _)› ?_
      | with_reducible apply Wr.of_id
      | split
      | dsimp only

theorem State.regInit_wr {m : Nat} {s0 : State} (s : State) (a1 : _) (a2 : _) (hm : subMask 0x1fffffffffffffffffffffffffffffffffffffffffffffffffffffffffffffffffffffffffffffffffffffffffffffffffffffffffffffffffffffffffffffffffffff m = true) (h : Wr m s0 s) : Wr m s0 (State.regInit s a1 a2).2 :=
  Wr.of_any (State.regInit_keep (m := 134217727) s a1 a2 rfl (Keep.refl _ _)) (testBit_all hm) h

theorem State.wakShow_wr {m : Nat} {s0 : State} (s : State) (hm : subMask 0xf80000000000000000000000000000000000000000000000000000000000000000000000000000000000000000000000000000000000000000000000000 m = true) (h : Wr m s0 s) : Wr m s0 (State.wakShow s) := by
  refine Wr.lift (f := 0xf80000000000000000000000000000000000000000000000000000000000000000000000000000000000000000000000000000000000000000000000000) ?_ hm h
  unfold State.wakShow
  repeat' first
    | exact rfl
    | (refine (?_ : _ = true); dsimp only [List.all]; exact rfl)
    | with_reducible exact Wr.refl _ _
    | with_reducible assumption
    | with_reducible apply State.sets_wr
    | with_reducible apply State.setReg_wr
    | with_reducible apply Wr.of_keep (f := 16384) (State.pwrUpd_keep (m := 16384) _ _ rfl (Keep.refl _ _)) rfl
    | with_reducible apply Wr.ite <;> intro _
    | with_reducible apply Wr.foldl <;> try intro _ _ _
    | with_reducible apply Wr.foldl_snd <;> try intro _ _ _
    | with_reducible refine Wr.of_snd ‹_ = (_, _)› ?_
    | with_reducible refine Wr.of_snd2 ‹_ = (_, _, _)› ?_
    | with_reducible apply Wr.of_id
    | split
    | dsimp only

theorem State.memShow_wr {m : Nat} {s0 : State} (s : State) (hm : subMask 0x81e0000000000000000000000000000000000000000000000000000000000000000000000000000000000000000000000000000000000 m = true) (h : Wr m s0 s) : Wr m s0 (State.memShow s) := by
  refine Wr.lift (f := 0x81e0000000000000000000000000000000000000000000000000000000000000000000000000000000000000000000000000000000000) ?_ hm h
  unfold State.memShow
  repeat' first
    | exact rfl
    | (refine (?_ : _ = true); dsimp only [List.all]; exact rfl)
    | with_reducible exact Wr.refl _ _
    | with_reducible assumption
    | with_reducible apply Wr.ite <;> intro _
    | with_reducible apply Wr.foldl <;> try intro _ _ _
    | with_reducible apply Wr.foldl_snd <;> try intro _ _ _
    | with_reducible apply State.sets_wr
    | with_reducible apply State.set_wr
    | with_reducible apply State.setReg_wr
    | with_reducible refine Wr.of_snd ‹_ = (_, _)› ?_
    | with_reducible refine Wr.of_snd2 ‹_ = (_, _, _)› ?_
    | with_reducible apply Wr.of_id
    | split
    | dsimp only

theorem State.ctApply_wr {m : Nat} {s0 : State} (s : State) (hm : subMask 0x60000000000004000081e0000000000000000000000000000000000000000000000000000000000000000000000000000000000000000000000000000000000 m = true) (h : Wr m s0 s) : Wr m s0 (State.ctApply s) := by
  refine Wr.lift (f := 0x60000000000004000081e0000000000000000000000000000000000000000000000000000000000000000000000000000000000000000000000000000000000) ?_ hm h
  unfold State.ctApply
  repeat' first
    | exact rfl
    | (refine (?_ : _ = true); dsimp only [List.all]; exact rfl)
    | with_reducible exact Wr.refl _ _
    | with_reducible assumption
    | with_reducible apply State.memShow_wr
    | with_reducible apply State.lanesShow_wr
    | with_reducible apply State.sets_wr
    | with_reducible apply Wr.ite <;> intro _
    | with_reducible apply Wr.foldl <;> try intro _ _ _
    | with_reducible apply Wr.foldl_snd <;> try intro _ _ _
    | (rewrite [State.mk_eq_updOf]; with_reducible refine Wr.node rfl rfl rfl ?_)
    | with_reducible refine Wr.of_snd ‹_ = (_, _)› ?_
    | with_reducible refine Wr.of_snd2 ‹_ = (_, _, _)› ?_
    | with_reducible apply Wr.of_id
    | split
    | dsimp only

theorem State.regionUp_wr {m : Nat} {s0 : State} (s : State) (a1 : _) (hm : subMask 0x40000000000000000000000000000000000000000000000000000000000000000000000000000000000000000000000000000000000000000000000000 m = true) (h : Wr m s0 s) : Wr m s0 (State.regionUp s a1) := by
  refine Wr.lift (f := 0x40000000000000000000000000000000000000000000000000000000000000000000000000000000000000000000000000000000000000000000000000) ?_ hm h
  unfold State.regionUp
  repeat' first
    | exact rfl
    | (refine (?_ : _ = true); dsimp only [List.all]; exact rfl)
    | with_reducible exact Wr.refl _ _
    | with_reducible assumption
    | with_reducible apply Wr.of_keep (f := 16384) (State.pwrUpd_keep (m := 16384) _ _ rfl (Keep.refl _ _)) rfl
    | with_reducible apply State.railsOn_wr
    | with_reducible apply Wr.ite <;> intro _
    | with_reducible apply Wr.foldl <;> try intro _ _ _
    | with_reducible apply Wr.foldl_snd <;> try intro _ _ _
    | with_reducible refine Wr.of_snd ‹_ = (_, _)› ?_
    | with_reducible refine Wr.of_snd2 ‹_ = (_, _, _)› ?_
    | with_reducible apply Wr.of_id
    | split
    | dsimp only

theorem State.quadStart_wr {m : Nat} {s0 : State} (s : State) (a1 : _) (a2 : _) (hm : subMask 0x20fc00208020000c8000 m = true) (h : Wr m s0 s) : Wr m s0 (State.quadStart s a1 a2) := by
  refine Wr.lift (f := 0x20fc00208020000c8000) ?_ hm h
  unfold State.quadStart
  extract_lets sr conv s1 s2
  have hs1 : Wr 0x20fc00208020000c8000 s s1 := Wr.foldl _ _ (Wr.refl _ _) fun _ _ k => Wr.ite (fun _ => State.sets_wr _ _ _ (by dsimp only [List.all]; rfl) rfl k) (fun _ => k)
  clear_value s1
  have hs2 : Wr 0x20fc00208020000c8000 s s2 := Wr.of_keep (f := 1048576) (State.quadUpd_keep (m := 1048576) _ _ _ rfl (Keep.refl _ _)) rfl (hs1)
  clear_value s2
  exact State.calTemp_wr _ _ rfl (State.takeStack_wr _ _ _ rfl (hs2))

theorem State.setsRestore_wr {m : Nat} {s0 : State} (s : State) (a1 : _) (a2 : _) (hm : subMask 0x20000020000000000000 m = true) (h : Wr m s0 s) : Wr m s0 (State.setsRestore s a1 a2) := by
  refine Wr.lift (f := 0x20000020000000000000) ?_ hm h
  unfold State.setsRestore
  extract_lets d s1
  have hs1 : Wr 0x20000020000000000000 s s1 := Wr.of_keep (f := 1048576) (State.quadUpd_keep (m := 1048576) _ _ _ rfl (Keep.refl _ _)) rfl (Wr.refl _ _)
  clear_value s1
  exact State.setReg_wr _ _ _ _ _ rfl rfl (Wr.foldl _ _ (hs1) fun _ _ k => State.set_wr _ _ _ _ _ rfl rfl (k))

theorem State.pkStart_wr {m : Nat} {s0 : State} (s : State) (hm : subMask 0x80000000000000000000000000000000000000000000000000000000000000000000000000000000 m = true) (h : Wr m s0 s) : Wr m s0 (State.pkStart s) := by
  refine Wr.lift (f := 0x80000000000000000000000000000000000000000000000000000000000000000000000000000000) ?_ hm h
  unfold State.pkStart
  repeat' first
    | exact rfl
    | (refine (?_ : _ = true); dsimp only [List.all]; exact rfl)
    | with_reducible exact Wr.refl _ _
    | with_reducible assumption
    | with_reducible apply State.set_wr
    | with_reducible apply Wr.ite <;> intro _
    | with_reducible apply Wr.foldl <;> try intro _ _ _
    | with_reducible apply Wr.foldl_snd <;> try intro _ _ _
    | with_reducible refine Wr.of_snd ‹_ = (_, _)› ?_
    | with_reducible refine Wr.of_snd2 ‹_ = (_, _, _)› ?_
    | with_reducible apply Wr.of_id
    | split
    | dsimp only

theorem State.regionStart_wr {m : Nat} {s0 : State} (s : State) (a1 : _) (a2 : _) (hm : subMask 0x80000000000000000000000000000000000000000000000000000000000020fc00208020000c8000 m = true) (h : Wr m s0 s) : Wr m s0 (State.regionStart s a1 a2) := by
  refine Wr.lift (f := 0x80000000000000000000000000000000000000000000000000000000000020fc00208020000c8000) ?_ hm h
  unfold State.regionStart
  repeat' first
    | exact rfl
    | (refine (?_ : _ = true); dsimp only [List.all]; exact rfl)
    | with_reducible exact Wr.refl _ _
    | with_reducible assumption
    | with_reducible apply Wr.of_keep (f := 4096) (State.bootUpd_keep (m := 4096) _ _ rfl (Keep.refl _ _)) rfl
    | with_reducible apply State.quadStart_wr
    | with_reducible apply Wr.of_keep (f := 1048576) (State.bbStart_keep (m := 1048576) _ rfl (Keep.refl _ _)) rfl
    | with_reducible apply State.pkStart_wr
    | with_reducible apply Wr.ite <;> intro _
    | with_reducible apply Wr.foldl <;> try intro _ _ _
    | with_reducible apply Wr.foldl_snd <;> try intro _ _ _
    | with_reducible refine Wr.of_snd ‹_ = (_, _)› ?_
    | with_reducible refine Wr.of_snd2 ‹_ = (_, _, _)› ?_
    | with_reducible apply Wr.of_id
    | split
    | dsimp only

theorem State.wakeFail_wr {m : Nat} {s0 : State} (s : State) (a1 : _) (a2 : _) (hm : subMask 0x44000000000000000000000000000000000000000000000000000000000000000000000000000000000000000000000000000000000000000000000000 m = true) (h : Wr m s0 s) : Wr m s0 (State.wakeFail s a1 a2) := by
  refine Wr.lift (f := 0x44000000000000000000000000000000000000000000000000000000000000000000000000000000000000000000000000000000000000000000000000) ?_ hm h
  unfold State.wakeFail
  repeat' first
    | exact rfl
    | (refine (?_ : _ = true); dsimp only [List.all]; exact rfl)
    | with_reducible exact Wr.refl _ _
    | with_reducible assumption
    | with_reducible apply State.railsOff_wr
    | with_reducible apply Wr.of_keep (f := 16384) (State.pwrUpd_keep (m := 16384) _ _ rfl (Keep.refl _ _)) rfl
    | with_reducible apply Wr.of_keep (f := 272) (State.raise_keep (m := 272) _ _ rfl (Keep.refl _ _)) rfl
    | with_reducible apply Wr.of_keep (f := 784) (State.ashAdd_keep (m := 784) _ _ _ _ rfl (Keep.refl _ _)) rfl
    | with_reducible apply State.setReg_wr
    | with_reducible apply Wr.ite <;> intro _
    | with_reducible apply Wr.foldl <;> try intro _ _ _
    | with_reducible apply Wr.foldl_snd <;> try intro _ _ _
    | with_reducible refine Wr.of_snd ‹_ = (_, _)› ?_
    | with_reducible refine Wr.of_snd2 ‹_ = (_, _, _)› ?_
    | with_reducible apply Wr.of_id
    | split
    | dsimp only

theorem State.regionBack_wr {m : Nat} {s0 : State} (s : State) (a1 : _) (hm : subMask 0x1fffffffffffffffffffffffffffffffffffffffffffffffffffffffffffffffffffffffffffffffffffffffffffffffffffffffffffffffffffffffffffffffffffff m = true) (h : Wr m s0 s) : Wr m s0 (State.regionBack s a1) := by
  refine Wr.lift (f := 0x1fffffffffffffffffffffffffffffffffffffffffffffffffffffffffffffffffffffffffffffffffffffffffffffffffffffffffffffffffffffffffffffffffffff) ?_ hm h
  unfold State.regionBack
  repeat' first
    | exact rfl
    | (refine (?_ : _ = true); dsimp only [List.all]; exact rfl)
    | with_reducible exact Wr.refl _ _
    | with_reducible assumption
    | with_reducible apply State.regInit_wr
    | with_reducible apply State.lanesShow_wr
    | with_reducible apply State.memShow_wr
    | with_reducible apply State.regionUp_wr
    | with_reducible apply State.regionStart_wr
    | with_reducible apply State.setsRestore_wr
    | with_reducible apply State.dfsRestore_wr
    | with_reducible apply Wr.of_keep (f := 67108864) (State.tmWake_keep (m := 67108864) _ rfl (Keep.refl _ _)) rfl
    | with_reducible apply Wr.ite <;> intro _
    | with_reducible apply Wr.foldl <;> try intro _ _ _
    | with_reducible apply Wr.foldl_snd <;> try intro _ _ _
    | with_reducible refine Wr.of_snd ‹_ = (_, _)› ?_
    | with_reducible refine Wr.of_snd2 ‹_ = (_, _, _)› ?_
    | with_reducible apply Wr.of_id
    | split
    | dsimp only

theorem State.wakeDone_wr {m : Nat} {s0 : State} (s : State) (hm : subMask 0x400000040000000000000000000000000000000000000001c00000001500000000048300080000020016240000434c0608804400c8020 m = true) (h : Wr m s0 s) : Wr m s0 (State.wakeDone s) := by
  refine Wr.lift (f := 0x400000040000000000000000000000000000000000000001c00000001500000000048300080000020016240000434c0608804400c8020) ?_ hm h
  unfold State.wakeDone
  repeat' first
    | exact rfl
    | (refine (?_ : _ = true); dsimp only [List.all]; exact rfl)
    | with_reducible exact Wr.refl _ _
    | with_reducible assumption
    | with_reducible apply Wr.of_keep (f := 272) (State.raise_keep (m := 272) _ _ rfl (Keep.refl _ _)) rfl
    | with_reducible apply State.tlyFence_wr
    | with_reducible apply State.set_wr
    | with_reducible apply Wr.of_keep (f := 16384) (State.pwrUpd_keep (m := 16384) _ _ rfl (Keep.refl _ _)) rfl
    | with_reducible apply State.pathsCheck_wr
    | with_reducible apply State.setMode_wr
    | with_reducible apply Wr.of_keep (f := 4194304) (State.twtReturn_keep (m := 4194304) _ rfl (Keep.refl _ _)) rfl
    | with_reducible apply State.coexSettle_wr
    | with_reducible apply State.fallback_wr
    | with_reducible apply Wr.ite <;> intro _
    | with_reducible apply Wr.foldl <;> try intro _ _ _
    | with_reducible apply Wr.foldl_snd <;> try intro _ _ _
    | with_reducible refine Wr.of_snd ‹_ = (_, _)› ?_
    | with_reducible refine Wr.of_snd2 ‹_ = (_, _, _)› ?_
    | with_reducible apply Wr.of_id
    | split
    | dsimp only

theorem execWakeStageReady_wr (a0 : _) (a1 : _) (s : State) {t : State} (h : execWakeStageReady a0 a1 s = .next t) : Wr 0x1fffffffffffffffffffffffffffffffffffffffffffffffffffffffffffffffffffffffffffffffffffffffffffffffffffffffffffffffffffffffffffffffffffff s t := by
  unfold execWakeStageReady at h
  injection h with h
  subst h
  repeat' first
    | exact rfl
    | (refine (?_ : _ = true); dsimp only [List.all]; exact rfl)
    | with_reducible exact Wr.refl _ _
    | with_reducible assumption
    | with_reducible apply State.set_wr
    | with_reducible apply State.railsOn_wr
    | with_reducible apply Wr.of_keep (f := 16384) (State.pwrUpd_keep (m := 16384) _ _ rfl (Keep.refl _ _)) rfl
    | with_reducible refine Wr.of_any (State.wakeReady_keep (m := 134217727) _ _ _ rfl (Keep.refl _ _)) (testBit_all rfl) ?_
    | with_reducible apply Wr.ite <;> intro _
    | with_reducible apply Wr.foldl <;> try intro _ _ _
    | with_reducible apply Wr.foldl_snd <;> try intro _ _ _
    | with_reducible refine Wr.of_snd ‹_ = (_, _)› ?_
    | with_reducible refine Wr.of_snd2 ‹_ = (_, _, _)› ?_
    | with_reducible apply Wr.of_id
    | split
    | dsimp only

theorem State.lifecycleApply_wr {m : Nat} {s0 : State} (s : State) (hm : subMask 0x80000000000000000000000000000000000000000000000000000000000000000000000000000000000000000000000000000000000000000 m = true) (h : Wr m s0 s) : Wr m s0 (State.lifecycleApply s) := by
  refine Wr.lift (f := 0x80000000000000000000000000000000000000000000000000000000000000000000000000000000000000000000000000000000000000000) ?_ hm h
  unfold State.lifecycleApply
  repeat' first
    | exact rfl
    | (refine (?_ : _ = true); dsimp only [List.all]; exact rfl)
    | with_reducible exact Wr.refl _ _
    | with_reducible assumption
    | with_reducible apply Wr.of_keep (f := 65600) (State.wipeSecure_keep (m := 65600) _ rfl (Keep.refl _ _)) rfl
    | with_reducible apply Wr.of_keep (f := 32768) (State.slotsZero_keep (m := 32768) _ rfl (Keep.refl _ _)) rfl
    | with_reducible apply State.sets_wr
    | with_reducible apply Wr.of_keep (f := 32768) (State.klnUpd_keep (m := 32768) _ _ rfl (Keep.refl _ _)) rfl
    | with_reducible apply Wr.ite <;> intro _
    | with_reducible apply Wr.foldl <;> try intro _ _ _
    | with_reducible apply Wr.foldl_snd <;> try intro _ _ _
    | with_reducible refine Wr.of_snd ‹_ = (_, _)› ?_
    | with_reducible refine Wr.of_snd2 ‹_ = (_, _, _)› ?_
    | with_reducible apply Wr.of_id
    | split
    | dsimp only

theorem State.serviceEnter_wr {m : Nat} {s0 : State} (s : State) (hm : subMask 0x400000000000000000000000000000000000000000000000c00000000100000000048300080000020010040000000c040080440000f20 m = true) (h : Wr m s0 s) : Wr m s0 (State.serviceEnter s) := by
  refine Wr.lift (f := 0x400000000000000000000000000000000000000000000000c00000000100000000048300080000020010040000000c040080440000f20) ?_ hm h
  unfold State.serviceEnter
  repeat' first
    | exact rfl
    | (refine (?_ : _ = true); dsimp only [List.all]; exact rfl)
    | with_reducible exact Wr.refl _ _
    | with_reducible assumption
    | with_reducible apply State.sets_wr
    | with_reducible apply Wr.of_keep (f := 524288) (State.alertForget_keep (m := 524288) _ _ rfl (Keep.refl _ _)) rfl
    | with_reducible apply State.setReg_wr
    | with_reducible apply Wr.of_keep (f := 4096) (State.bootUpd_keep (m := 4096) _ _ rfl (Keep.refl _ _)) rfl
    | with_reducible apply Wr.of_keep (f := 784) (State.ashBringup_keep (m := 784) _ _ rfl (Keep.refl _ _)) rfl
    | with_reducible apply State.setMode_wr
    | with_reducible apply State.dfsRestore_wr
    | with_reducible apply Wr.of_keep (f := 524288) (State.portUpd_keep (m := 524288) _ _ rfl (Keep.refl _ _)) rfl
    | with_reducible apply State.coexSettle_wr
    | with_reducible apply State.pathsCheck_wr
    | with_reducible apply State.pushEnd_wr
    | with_reducible apply Wr.ite <;> intro _
    | with_reducible apply Wr.foldl <;> try intro _ _ _
    | with_reducible apply Wr.foldl_snd <;> try intro _ _ _
    | with_reducible refine Wr.of_snd ‹_ = (_, _)› ?_
    | with_reducible refine Wr.of_snd2 ‹_ = (_, _, _)› ?_
    | with_reducible apply Wr.of_id
    | split
    | dsimp only

theorem State.bootNext_wr {m : Nat} {s0 : State} (s : State) (a1 : _) (hm : subMask 0x400000000000000000000000000000000000000000000000c00000000100000000048300080000020010040000000c040080440000f20 m = true) (h : Wr m s0 s) : Wr m s0 (State.bootNext s a1) := by
  refine Wr.lift (f := 0x400000000000000000000000000000000000000000000000c00000000100000000048300080000020010040000000c040080440000f20) ?_ hm h
  unfold State.bootNext
  repeat' first
    | exact rfl
    | (refine (?_ : _ = true); dsimp only [List.all]; exact rfl)
    | with_reducible exact Wr.refl _ _
    | with_reducible assumption
    | with_reducible apply Wr.of_keep (f := 4096) (State.bootUpd_keep (m := 4096) _ _ rfl (Keep.refl _ _)) rfl
    | with_reducible apply State.serviceEnter_wr
    | with_reducible apply Wr.ite <;> intro _
    | with_reducible apply Wr.foldl <;> try intro _ _ _
    | with_reducible apply Wr.foldl_snd <;> try intro _ _ _
    | with_reducible refine Wr.of_snd ‹_ = (_, _)› ?_
    | with_reducible refine Wr.of_snd2 ‹_ = (_, _, _)› ?_
    | with_reducible apply Wr.of_id
    | split
    | dsimp only

theorem State.reloadDone_wr {m : Nat} {s0 : State} (s : State) (a1 : _) (hm : subMask 0x400000000000000000000000000000000000000000000001c00000001500000000048300080000020016240000434c0608804400c8520 m = true) (h : Wr m s0 s) : Wr m s0 (State.reloadDone s a1) := by
  refine Wr.lift (f := 0x400000000000000000000000000000000000000000000001c00000001500000000048300080000020016240000434c0608804400c8520) ?_ hm h
  unfold State.reloadDone
  repeat' first
    | exact rfl
    | (refine (?_ : _ = true); dsimp only [List.all]; exact rfl)
    | with_reducible exact Wr.refl _ _
    | with_reducible assumption
    | with_reducible apply State.setReg_wr
    | with_reducible apply State.set_wr
    | with_reducible apply Wr.of_keep (f := 1048576) (State.radUpd_keep (m := 1048576) _ _ rfl (Keep.refl _ _)) rfl
    | with_reducible apply Wr.of_keep (f := 8192) (State.pushUpd_keep (m := 8192) _ _ rfl (Keep.refl _ _)) rfl
    | with_reducible apply State.setChosen_wr
    | with_reducible apply State.dfsRestore_wr
    | with_reducible apply Wr.of_keep (f := 524288) (State.alertForget_keep (m := 524288) _ _ rfl (Keep.refl _ _)) rfl
    | with_reducible apply State.setMode_wr
    | with_reducible apply Wr.of_keep (f := 4194304) (State.twtReturn_keep (m := 4194304) _ rfl (Keep.refl _ _)) rfl
    | with_reducible apply State.fallback_wr
    | with_reducible apply State.pushEnd_wr
    | with_reducible apply State.coexSettle_wr
    | with_reducible apply State.pathsCheck_wr
    | with_reducible apply Wr.ite <;> intro _
    | with_reducible apply Wr.foldl <;> try intro _ _ _
    | with_reducible apply Wr.foldl_snd <;> try intro _ _ _
    | with_reducible refine Wr.of_snd ‹_ = (_, _)› ?_
    | with_reducible refine Wr.of_snd2 ‹_ = (_, _, _)› ?_
    | with_reducible apply Wr.of_id
    | split
    | dsimp only

end Sys2Proof.Machine
end

