-- ==== Sys2Proof/Tests/Slice0.lean ====
section
/-! SUPPORT. Tests: ill-formed commands are refused by the check, some facts that the spec writes out, and for every statement with hypotheses one
theorem that shows states and operands which meet them, one for each clause. -/

set_option Elab.async false
set_option maxRecDepth 20000

open Sys2Proof Sys2Proof.Machine

/-- The mode is `m`. -/
def Sys2Proof.Machine.State.inMode (s : State) (m : Nat) : State := s.set Fld.AO_STATUS.MODE [] m



/-- The time and the raw counter read `n`. -/
def Sys2Proof.Machine.State.atRaw (s : State) (n : Nat) : State := { s with now := n, ntu := { s.ntu with raw := n } }

namespace Sys2Proof.Tests

/-! Ill-formed commands -/

/-- Operands out of range, one check each (1). -/
theorem test_wf_refuses_1 : ([
    .registerWrite (.core 8) 0 0 0,
    .registerWrite (.core 0) 2199023255552 0 0,
    .counterRead (.core 8) 0 0 true,
    .counterRead (.core 0) 2199023255552 0 true,
    .resultRead (.core 8) 0 0 true,
    .resultRead (.core 0) 2199023255552 0 true,
    .accessTimeout (.core 8) 0,
    .accessTimeout (.core 0) 2199023255552,
    .crossbarTimeout (.core 8) 0,
    .crossbarTimeout (.core 0) 2199023255552,
    .controlStorageEcc (.core 8) 0,
    .controlStorageEcc (.core 0) 2199023255552,
    .tamper 2,
    .thermalTrip 6,
    .railFault 19 0 0,
    .railFault 0 3 0,
    .setPoint (.core 8) 0,
    .islandChange (.core 8) 0,
    .sleepBanked (.core 8) 0,
    .sleepDormant (.core 8) 0,
    .sleepCancel (.core 8) 0,
    .smbusAddressMatch 128 true,
    .wakeUpFrame 4096,
    .gpioWake 4,
    .wakeStageReady 8 true,
    .wakeStageTimeout 8,
    .kilnBoot true true true true 3,
    .cordApply true 5 true true,
    .pushAbort (.core 8) 0,
    .openBoot (.core 8) 0,
    .openReload (.core 8) 0,
    .openStoreA (.core 8) 0,
    .openStoreB (.core 8) 0,
    .reloadFromA (.core 8) 0,
    .reloadFromB (.core 8) 0,
    .aoPushData (.core 8) 0,
    .regionReload true 5 true,
    .restackRequest (.core 8) 0,
    .restackCancel (.core 8) 0,
    .pfClr (.core 8) 0 0 0,
    .pfClr (.core 0) 4 0 0,
    .pfClr (.core 0) 0 16 0,
    .ppduTransmitRequest 3 (.due 0 0) 0 0 0,
    .ppduTransmitRequest 0 (.ndp 17) 0 0 0,
    .ppduTransmitRequest 0 (.due 0 0) 0 0 65536] : List Instr).all (fun i => !i.wf) = true := by decide

/-- Operands out of range, one check each (2). -/
theorem test_wf_refuses_2 : ([
    .loLock 4 0,
    .loLock 0 2,
    .lockLost 4 0,
    .lockLost 0 2,
    .loRestart 4 0,
    .loRestart 0 2,
    .asyncPulse [4],
    .ebufSlip 5 0,
    .ebufSlip 0 8,
    .fenRffeCmd (.core 8) 0 0,
    .fenRffeCmd (.core 0) 4 0,
    .rffeCommandDone 4 0 0 true,
    .rffeCommandDone 0 4 0 true,
    .rffeCommandDone 0 0 256 true,
    .fenRffeRsp (.core 8) 0,
    .fenRffeRsp (.core 0) 4,
    .rffePoll 4 0 0 true,
    .rffePoll 0 16 0 true,
    .vioOvercurrent 4,
    .vioEn (.core 8) 0 0,
    .vioEn (.core 0) 4 0,
    .biasShort 4 0,
    .biasShort 0 16,
    .biasOpen 4 0,
    .biasOpen 0 16,
    .fastline 4 0,
    .fastline 0 16,
    .coexReqRise 3 true true,
    .coexReqFall 3,
    .maxDefer 4 0,
    .maxDefer 0 3,
    .coexFault 4 0,
    .coexFault 0 3,
    .coexPortReturn 3,
    .txfCommit (.core 8) 0 0,
    .txfCommit (.core 0) 4 0,
    .beamIdNamed 4 0 0,
    .beamIdNamed 0 16 0,
    .beamIdNamed 0 0 65536,
    .beamRecordFetch 4 0 0,
    .beamRecordFetch 0 16 0,
    .beamRecordFetch 0 0 65536,
    .beamCommit (.core 8) 0 0,
    .beamCommit (.core 0) 4 0,
    .dpdCommit (.core 8) 0 0 0] : List Instr).all (fun i => !i.wf) = true := by decide

/-- Operands out of range, one check each (3). -/
theorem test_wf_refuses_3 : ([
    .dpdCommit (.core 0) 4 0 0,
    .dpdCommit (.core 0) 0 16 0,
    .crossfade 4 0 true,
    .crossfade 0 16 true,
    .orxVisitStart 4 0,
    .orxVisitStart 0 2,
    .orxVisitEnd 4 0 0 0 0 0 [],
    .orxVisitEnd 0 2 0 0 0 0 [],
    .antRetry 4 0,
    .antRetry 0 16,
    .orxCapPop (.core 8) 0,
    .orxCapPop (.core 0) 4,
    .orxSlotFree (.core 8) 0 0,
    .orxSlotFree (.core 0) 4 0,
    .calRun (.core 8) 0 0,
    .calRun (.core 0) 4 0,
    .calAbort (.core 8) 0 0,
    .calAbort (.core 0) 4 0,
    .calEstimate 4 0 0 0 true,
    .calEstimate 0 16 0 0 true,
    .calEstimate 0 0 32 0 true,
    .calOffer 4 0,
    .calOffer 0 3,
    .calWindowStart 4,
    .calDone 4 [],
    .calRebook 4,
    .calForced 4,
    .orxElementReselect 4 0 0 true,
    .orxElementReselect 0 2 0 true,
    .calCommit (.core 8) 0,
    .calCommit (.core 0) 4,
    .calLoad (.core 8) 0,
    .calLoad (.core 0) 4,
    .calRed (.core 8) 0 0,
    .calRed (.core 0) 4 0,
    .calExport (.core 8) 0 0,
    .calExport (.core 0) 4 0,
    .calRestore (.core 8) 0 0,
    .calRestore (.core 0) 4 0,
    .hkaResult 2 0 [],
    .hkaResult 0 64 [],
    .hkaResult 0 0 [4096],
    .hkaPop (.core 8),
    .preambleDetect 3 0 true 0 0 [],
    .signalField 3 .rlsig ⟨0, 0, 0, 0, 0, 0, []⟩] : List Instr).all (fun i => !i.wf) = true := by decide

/-- Operands out of range, one check each (4). -/
theorem test_wf_refuses_4 : ([
    .phyRestart 3 0 true 0 0,
    .phyCapture 3 0 true 0 0,
    .ppduEnd 3,
    .falseStartHoldEnd 3 0,
    .ccaStuck 3,
    .codewordDecoded 32 true [],
    .codewordDecoded 0 true [(3, 0)],
    .channelEstimate 3 0 0 0 0 [],
    .sndEstPop (.core 8),
    .sndSlotFree (.core 8) 0,
    .beamformingReport 3 0 0 0 0 0 0 0 0 0 [],
    .beamformingReport 0 0 0 0 0 17 0 0 0 0 [],
    .beamformingReport 0 0 0 0 0 0 1 0 0 0 [],
    .radarPulse 3 0 0 0 0 true,
    .radarPulse 0 16 0 0 0 true,
    .cacStart (.core 8) 0 0,
    .cacStart (.core 0) 3 0,
    .cacExpiry 3 0,
    .cacExpiry 0 16,
    .nopExpiry 3 0,
    .nopExpiry 0 16,
    .phyDfsPop (.core 8) 0,
    .phyDfsPop (.core 0) 3,
    .wacTableLoad (.core 8),
    .wacTableCommit (.core 8),
    .wacTableClear (.core 8),
    .tbtt 3,
    .edcaBackoffExpiry 3 0 0 0,
    .edcaBackoffExpiry 0 5 0 0,
    .bsrpTrigger 3 0,
    .wacBsrPop (.core 8),
    .mpduReceive 3 0 true ⟨0xFFFF, 0, 0, 0, false, false, false, false, false, false, false, 0, 0, 0, none, none, 0, []⟩,
    .wacMtxCplPop (.core 8),
    .wacMrxFree (.core 8) 0,
    .quietWindowCts 4 0 0,
    .quietWindowCts 0 3 0,
    .afcInstall (.core 8),
    .afcClear (.core 8),
    .fhuRetPop (.core 8),
    .fhuRetFree (.core 8) 0,
    .lrcPreambleDetect 16 0 0 0,
    .lrcPreambleDetect 0 13 0 0,
    .lrcHeader 16 0 0 0 0,
    .lrcCapture 16 0 0 0,
    .lrcCapture 0 13 0 0] : List Instr).all (fun i => !i.wf) = true := by decide

/-- Operands out of range, one check each (5). -/
theorem test_wf_refuses_5 : ([
    .lrcFrameEnd 16 0 true [] 0 0 true,
    .txaDlPush (.core 8) 0,
    .txaDlCplPop (.core 8),
    .txaCtrData (.core 8) 0,
    .ethFrameReceive 8 0 true [],
    .pauseEnd 8,
    .passStart 2,
    .flwVerCommit (.core 8),
    .flwCopy (.core 8),
    .flwLoad (.core 8),
    .flwWrite (.core 8),
    .flwClear (.core 8),
    .flwInsert (.core 8),
    .flwDelete (.core 8),
    .swTxDescriptorFetch 9,
    .swTxCplPop (.core 8) 0,
    .swTxCplPop (.core 0) 9,
    .swRxFree (.core 8) 0 0,
    .swRxFree (.core 0) 9 0,
    .packetStart 12,
    .tmgTableLoad (.core 8),
    .tmgTableWrite (.core 8),
    .tmgTableClear (.core 8),
    .gateChangeOp (.core 8) 0 true 0,
    .gateChangeOp (.core 0) 8 true 0,
    .gateCancelOp (.core 8) 0 true 0,
    .gateCancelOp (.core 0) 8 true 0,
    .gateChangeDue 8,
    .gateEntryEnd 8,
    .ntuTimeNs (.core 8),
    .ntuAdj (.core 8),
    .ntuSet (.core 8),
    .ntuForceAdj (.core 8),
    .ntuForceSet (.core 8),
    .ntuHoldover (.core 8),
    .ntuUnlock (.core 8),
    .ntuArm (.core 8),
    .timeRateWrite (.core 8) 0,
    .ntuTsyncStart (.core 8) 0,
    .ntuCapStat (.core 8),
    .ntuTxtsPop (.core 8),
    .ptmRequest (.core 8),
    .coreStart (.core 8) 0,
    .coreStart (.core 0) 8,
    .coreReset (.core 8) 0] : List Instr).all (fun i => !i.wf) = true := by decide

/-- Operands out of range, one check each (6). -/
theorem test_wf_refuses_6 : ([
    .coreReset (.core 0) 8,
    .regionCoreStart (.core 8) 0,
    .regionCoreStart (.core 0) 6,
    .regionCoreReset (.core 8) 0,
    .regionCoreReset (.core 0) 6,
    .tlyReady (.core 8),
    .tlyDelay (.core 8) 0,
    .tlyDelay (.core 0) 4,
    .tlyDlyCancel (.core 8) 0,
    .tlyDlyCancel (.core 0) 32768,
    .delayDue 4 0,
    .tlyPick (.core 8),
    .reckonerDispatch 32,
    .tlyDone (.core 8) 0,
    .tlyRelPop (.core 8) 0,
    .tlyRelPop (.core 0) 16,
    .eventEdge 256,
    .eventBead 256,
    .evtClaim (.core 8),
    .evtHclaim (.core 8),
    .evtClr (.core 8) 0,
    .evtClr (.core 0) 256,
    .rknStart (.core 8) 0,
    .rknStart (.core 0) 32,
    .rknStop (.core 8) 0,
    .rknStop (.core 0) 32,
    .rknAcc (.core 8) 0 0 0 true,
    .rknAcc (.core 0) 32 0 0 true,
    .rknAcc (.core 0) 0 4 0 true,
    .rknAcc (.core 0) 0 0 8 true,
    .rknNop 32,
    .rknHalt 32,
    .rknLoop 32,
    .rknBrc 32,
    .rknDma 32,
    .rknDmaComplete 32 0,
    .rknDwait 32,
    .rknLd 32,
    .rknSt 32,
    .rknLde 32,
    .rknSte 32,
    .rknVadd 32,
    .rknVsub 32,
    .rknVmul 32,
    .rknVmac 32] : List Instr).all (fun i => !i.wf) = true := by decide

/-- Operands out of range, one check each (7). -/
theorem test_wf_refuses_7 : ([
    .rknVmsu 32,
    .rknAmov 32,
    .rknAclr 32,
    .rknVbfly 32,
    .rknVsh 32,
    .rknSli 32,
    .rknSlui 32,
    .rknSaddi 32,
    .rknSadd 32,
    .rknSetp 32,
    .rknSetm 32,
    .sramScrub 2199023255552 0,
    .sramScrub 0 3,
    .dramCommand 2 [] 0 0,
    .dramCommand 0 [] 3 0,
    .dramCommand 0 [⟨32, 0, 0, false, 0, none, 0⟩] 0 0,
    .throttleEnd 2,
    .dramRefresh 2,
    .zqCalibration 2,
    .dramTempPoll 2 0,
    .pageIdle 2 0 0,
    .pageIdle 0 32 0,
    .pageIdle 0 0 2,
    .dmcPanic 2 0 0 true,
    .dmcRtStarve 2 0,
    .slotWrite (.core 8) 0 true,
    .slotWrite (.core 0) 8192 true,
    .slotClear (.core 8) 0,
    .slotClear (.core 0) 8192,
    .gcmEnc 4,
    .gcmDec 4,
    .gmacGen 4,
    .gmacVer 4,
    .ccmEnc 4,
    .ccmDec 4,
    .xtsEnc 4,
    .xtsDec 4,
    .cipCtr 4,
    .cmacGen 4,
    .cmacVer 4,
    .jobCompletion 4,
    .cipCplPop (.core 8) 0,
    .cipCplPop (.core 0) 4,
    .coalesceClose 64,
    .ashRelease (.core 8) 0] : List Instr).all (fun i => !i.wf) = true := by decide

/-- Operands out of range, one check each (8). -/
theorem test_wf_refuses_8 : ([
    .ashRelease (.core 0) 8,
    .agingMeasure 8 0,
    .polarityRetry 8,
    .linkUp 10 0 [] [],
    .linkDown 10,
    .hlLink true true 6 0,
    .hlLink true true 1 5,
    .hlLink true true 0 0,
    .functionLevelReset 8,
    .smbusWriteReg 4294967296 0 0 true,
    .smbusWriteReg 0 0 256 true,
    .smbusSetAddr 4294967296 0 0 true,
    .smbusSetAddr 0 256 0 true,
    .smbusSetAddr 0 0 256 true,
    .smbusPush [] 256 true,
    .xspiRead (.core 8) 0,
    .xspiProgram (.core 8) 0,
    .xspiErase4K (.core 8) 0,
    .xspiErase64K (.core 8) 0,
    .gpioEdge 32 true,
    .energyDetect 3 0 0 true,
    .energyDetect 0 16 0 true,
    .regionCoreTrap 6 0,
    .configurationRequest 8 (.other false)] : List Instr).all (fun i => !i.wf) = true := by decide

/-! The states of the tests, built from reset by setting what a clause asks for -/

/-- Service, every region applied and powered. -/
def up : State :=
  State.set { State.reset with
    plan := { head := [], present := [0, 1, 2, 3, 4, 5], recs := [] }
    boot := { Boot.reset with phase := .done, applied := [6, 0, 1, 2, 3, 4, 5], ctReady := true }
    pwr := { Pwr.reset with vinMain := true, everMain := true, powered := [0, 1, 2, 3, 4, 5, 6, 7] } } Fld.AO_STATUS.MODE [] 3

/-- A VF_TABLE entry of rail 8 with two points. -/
def vfBody : Bytes := [8, 2, 0, 0] ++ leBytes 2 700 ++ leBytes 2 500 ++ leBytes 2 800 ++ leBytes 2 900 ++ List.replicate 24 0

/-- BB has that VF_TABLE. -/
def upVf : State := { up with plan := { up.plan with recs := [⟨4, 2, vfBody⟩] } }

/-- Quadrant 0 has two stacks. -/
def upStk : State := { up with plan := { up.plan with recs := [⟨0, 0x20, [0]⟩, ⟨0, 0x20, [1]⟩] } }

/-- Bring-up from slot A, before the chip cord. -/
def bootC : State := { (up.inMode 1) with boot := { Boot.reset with phase := .cords, src := 1, cord := 0, ctReady := true, applied := [6] }, flash := sputs flashDefault [] 64 ([0, 0, 1, 0] ++ leBytes 4 8192 ++ leBytes 4 64) }

/-- Quadrant 0 runs a stack whose 16 paths hold WLAN link 0; a transmission is on the air on them. -/
def stkA : Bytes := [0, 0, 0, 0] ++ leBytes 4 5500000 ++ leBytes 4 0 ++ [0, 0, 0, 0] ++ (List.replicate 16 [1, 0, 0, 0]).flatten ++ List.replicate 64 0

/-- A transmission of link 0 on the air. -/
def txA : Tx := { id := 5, src := 0, role := 1, car := 0, routes := [0], beams := [], prot := 0, launch := 0, dur := 5000, bands := [], paths := List.range 16, cookie := [0, 7], start := some 0, startAt := 100, backoffs := [], retest := [], tims := List.replicate 4 0, vecs := [], qam4k := false, punct := 0, tdOnly := false }

/-- Quadrant 0 runs `stkA`. -/
def upA : State := { up with plan := { up.plan with recs := [⟨0, 0x20, stkA⟩] } }

/-- That transmission is on the air. -/
def upTx : State := { upA with radio := { upA.radio with txs := [txA] }, now := 1000 }

/-- A lock rule for 5,000 to 6,000 MHz. -/
def ruleA : Bytes := leBytes 4 5000000 ++ leBytes 4 6000000 ++ leBytes 2 120 ++ leBytes 2 120 ++ leBytes 2 0x8000 ++ [0, 0, 0, 0] ++ leBytes 2 10000 ++ leBytes 2 0 ++ [0xFF] ++ List.replicate 9 0

/-- A lock with one rule. -/
def lockA : Bytes := [0, 0, 1, 1] ++ List.replicate 60 0 ++ ruleA

/-- A transmission that waits for its start. -/
def txGo : Tx := { txA with start := none, startAt := 0, bands := [(5500000000, 20000000)] }

/-- The nominal power of every path of quadrant 0 less its attenuation is 0 dBm. -/
def calGo : Cal := { (upA.cal 0) with sets := (List.range 16).map (fun p => ⟨p, 0, List.replicate 6 0 ++ [3175], [], [], [], []⟩) }

/-- It may start: the lock allows it, LO A is locked. -/
def upGo : State := { (upA.setReg .SYN_STAT [0, 0] 0x88000100).quadUpd 0 (fun d => { d with filters := [(0, ⟨[], 0⟩)], cal := calGo }) with
  kiln := { upA.kiln with lock := lockA }, now := 1000 }.radUpd (fun r => { r with txs := [txGo] })

/-- A LINK_PLAN with Tixia channel 0. -/
def lpA : Bytes := 1 :: List.replicate 0x103 0 ++ [1, 2] ++ List.replicate 200 0

/-- The running image has it. -/
def upPlan : State := { upA with plan := { upA.plan with recs := ⟨8, 0x10, lpA⟩ :: upA.plan.recs } }

/-- A scheduled Tixia downlink. -/
def dlA (win : Nat) : TxaDl := { num := 4, entry := none, frame := [], upCh := 0, upSf := 7, upRate := 1, cfo := 0, ends := 0, win := win, ch := 0, sf := 7, rate := 1, launch := 10, dur := 100, shown := false }

/-- The Tixia modem has it scheduled. -/
def upDl (win : Nat) : State := { (upPlan.set Fld.TXA_CFG.EN [] 1).set Fld.TXA_CH_CFG_W0.EN [0] 1 with txa := { upPlan.txa with sched := [dlA win] } }

/-- A fronthaul section on the air. -/
def fhSecA : FhSec := { entry := 0, dl := true, t := 1000000, ends := 1035714, start := 0, num := 1, beam := 0, id := 0, ids := [0, 0, 0, 0], shown := false, prach := none }

/-- The fronthaul unit plays it. -/
def upFh : State := { (upPlan.set Fld.FHU_CFG.EN [] 1).set Fld.NTU_STATUS.TIME_STATE [] 1 with fhu := { upPlan.fhu with secs := [fhSecA] } }

/-- A SAMPLE_ROUTE with WLAN routes. -/
def srA : Bytes := (List.replicate 16 [1, 15, 0, 1, 0, 0, 0, 0]).flatten

/-- The running image has it, and a DPD word is staged. -/
def upRt : State := { upA with plan := { upA.plan with recs := ⟨8, 0x11, srA⟩ :: upA.plan.recs } }.setReg .DPD_SHADOW [2, 9, 0, 0] 0x10101

/-- An observation coupling is open during a long transmission. -/
def upOrx : State := { upA.set Fld.ORX_CPL.EN [0, 3] 1 with radio := { upA.radio with txs := [{ txA with dur := 10000000000 }] }, now := 11000000 }

/-- A calibration run. -/
def runA : CalRun := { since := 0, temp := 0, trims := [], paths := [0, 1], trees := [], offers := [], earliest := 0, booked := none, durUs := 34, forced := false, demand := false, again := false }

/-- A calibration set with staged words. -/
def calA : CalSet :=
  { path := 0, set := 0, active := (List.range 32).map (fun n => if n = 5 ∨ 16 ≤ n then 0x4000 else 0),
    shadow := (List.range 32).map (fun n => if n = 5 ∨ 16 ≤ n then 0x4000 else 1), applied := [0, 0], rx := [], tx := [] }

/-- A LINK_PLAN for a Tixia channel of the widest bandwidth. -/
def lpL : Bytes := 1 :: List.replicate 0x103 0 ++ [1, 3] ++ List.replicate 200 0

/-- A stack whose paths hold LRC at 868 MHz. -/
def stkL : Bytes := [0, 0, 0, 0] ++ leBytes 4 868000 ++ leBytes 4 0 ++ [0, 0, 0, 0] ++ (List.replicate 16 [5, 0, 0, 0]).flatten ++ List.replicate 64 0

/-- The Tixia modem listens. -/
def upL : State := ({ upA with plan := { upA.plan with recs := [⟨8, 0x10, lpL⟩, ⟨0, 0x20, stkL⟩] } }.set Fld.TXA_CFG.EN [] 1).set Fld.TXA_CH_CFG_W0.EN [0] 1

/-- A Tixia reception. -/
def trx (st : Nat) (n : Nat) : TxaRx := { sf := 7, rssi := -400, begun := 0, seen := 0, restarted := false, captured := false, len := n, rate := 0, ends := st }

/-- The LO of Tixia's paths is locked. -/
def upLl : State := upL.setReg .SYN_STAT [0, 0] 0x88000100

/-- A demodulator is in one. -/
def upLx (st : Nat) : State := upLl.demodUpd 0 (fun _ => { st := st, rx := some (trx 0 20), others := [] })

/-- A fronthaul unit in service: locked time, lane 0 up, entry 0 for ID 7 on carrier 0 with 51 PRBs. -/
def upFu : State := (((upPlan.set Fld.FHU_CFG.EN [] 1).set Fld.NTU_STATUS.TIME_STATE [] 1).setReg .FHU_EAXC_W0 [0] 0x80000007).setReg .FHU_CAR_CFG [0] 0x80000000

/-- The fronthaul carriers have routes, the ports are up. -/
def upFf : State := { upFu with plan := { upFu.plan with recs := [⟨8, 0x10, [1] ++ List.replicate 0x85 0 ++ [51] ++ List.replicate 200 0⟩, ⟨8, 0x11, [4, 1, 0, 1, 0, 0, 0, 0] ++ List.replicate 120 0⟩, ⟨0, 0x20, stkA⟩] }, ports := { upFu.ports with up := List.replicate 10 true }, ntu := { upFu.ntu with raw := 9700000 } }

/-- A section of a C-plane message. -/
def fsc : FhSection := { id := 3, rb := 0, symInc := false, start := 0, num := 10, meth := 0, width := 0, iq := [], exps := [], numSym := 1, reMask := 0xFFF, beam := 1, exts := [], weights := none, freqOff := 0 }

/-- A C-plane message. -/
def fms : FhMsg := { rev := 1, type := 2, size := 20, id := 7, ebit := true, sub := 0, seq := 9, dl := true, version := 1, filter := 0, frame := 1, subframe := 0, slot := 0, sym := 0, secType := 1, scs := 0, timeOff := 0, cpLen := 0, sections := [fsc], action := 0, meas := 0 }

/-- A fronthaul frame that carries it. -/
def ffr : FhFrame := { lane := 0, len := 200, fcs := true, dest := 0, vid := none, eth := 0xAEFE, msgs := [fms], data := [], age := 0 }

/-- Ethernet port 0 in service. -/
def upNet : State := ((({ upA with plan := { upA.plan with recs := ⟨6, 0x31, [1, 0, 5, 0] ++ List.replicate 60 0⟩ :: upA.plan.recs }, ports := { upA.ports with up := List.replicate 10 true } }.set Fld.ETH_CFG.EN [0] 1).set Fld.PRS_PORT_CFG_W0.EN [0] 1).set Fld.ETH_CFG.PAUSE_RX [0] 1).set Fld.TMG_CFG.EN [] 1

/-- A packet in the ingress side. -/
def pktA (n st : Nat) (d : Bytes) : Pkt := ⟨n, 0, 0, d, false, 0, 1, st, 0, 0, 3, none, 0, 0, 0, 64, false, some 5, 7, none, false, []⟩

/-- A packet for the egress side. -/
def outA (p : Nat) (d : Bytes) : PktOut := ⟨p, 3, 2, d, 11, none, 0, 0xFF, 0, 0, 3, 2, 0, 0, 0xFFFF, 64, none, false, 99⟩

/-- A frame of an EtherType. -/
def frmA (et : Bytes) : Bytes := [2, 0, 0, 0, 0, 9] ++ [2, 0, 0, 0, 0, 8] ++ et ++ List.replicate 50 0

/-- A PAUSE frame. -/
def pauseF : Bytes := [1, 0x80, 0xC2, 0, 0, 1] ++ [2, 0, 0, 0, 0, 8] ++ [0x88, 8, 0, 1, 0, 100] ++ List.replicate 44 0

/-- An IPv6 frame whose headers pass the window. -/
def longV6 : Bytes := [2, 0, 0, 0, 0, 9] ++ [2, 0, 0, 0, 0, 8] ++ [0x86, 0xDD] ++ [0x60, 0, 0, 0] ++ beBytes 2 200 ++ [0, 64] ++ List.replicate 15 1 ++ [5] ++ List.replicate 16 3 ++ [60, 8] ++ List.replicate 70 0 ++ [59, 14] ++ List.replicate 130 0

/-- The packet plane holds packets. -/
def upPk (l : List Pkt) : State := upNet.pkUpd (fun x => { x with pkts := l, next := 20 })

/-- A table entry is selected and staged. -/
def fsel (t i : Nat) (b : Bytes) : State := (upNet.setReg .FLW_TBL_SEL [] (w32 (t * 2 ^ 28 + i))).setFlwWin b

/-- A traffic table entry is selected and staged. -/
def tsel (t i : Nat) (b : Bytes) : State := (List.range 8).foldl (fun u k => u.setReg .TMG_TBL_WIN [k] (w32 (leAt b (4 * k) 4))) (upNet.setReg .TMG_TBL_SEL [] (w32 (t * 2 ^ 28 + i)))

/-- Eight beads to rods 0 (application cores), 1 (region 4's core), 2 (reckoners); the cores serve every rod. -/
def upT : State := (List.range 8).foldl (fun s c => s.setReg .TLY_CORE_RODS [c] 0xFFFF)
  { up with plan := { up.plan with recs := [⟨6, 0x34, [8, 0, 0, 0, 8, 0, 1, 4, 8, 0, 2, 0] ++ List.replicate 52 0⟩] } }

/-- A bead. -/
def beadA (h rod : Nat) (o : Bool) : Bead := { handle := h, func := 17, args := [1, 2, 3, 4], flow := 300, ordered := o, rod := rod, fromEvent := none, delayed := false, seq := 0, stamp := 9, waiting := true, holder := none, done := none, hidden := false }

/-- Tally holds beads. -/
def upB (l : List Bead) : State := upT.tlyUpd (fun t => { t with beads := l })

/-- One source has a route and pending edges. -/
def upE (r : EvtRoute) (n p : Nat) : State := { upT with evt := { upT.evt with routes := (List.replicate 256 ⟨0, 0, 0, 0⟩).set n r, pend := upT.evt.pend.set n p, first := upT.evt.first.set n 77 } }

/-- Reckoner `k` runs for software, the word at its PC is `w`. -/
def upR (k w : Nat) : State := ((((((up.set Fld.RKN_STAT.RUN [k] 1).set Fld.RKN_CTL.OWNER [k] 1).set Fld.RKN_PC.PC [k] 100).setReg .RKN_S [k, 1] 0x10001).setReg .RKN_S [k, 2] 64).memPut (rkAddr k 100) (leBytes 4 w)).rkUpd k (fun r => { r with v := (List.range 16).map (fun i => (List.range 8).map (fun j => BitVec.ofNat 24 (i * 2070001 + j * 91137))), a := (List.range 4).map (fun i => (List.range 8).map (fun j => BitVec.ofNat 56 (i * 2 ^ 54 + j * 91137))), p := (List.range 8).map (· * 500), m := (List.range 8).map (· + 0x30000) })

/-- A part whose SECURITY record lets every core write and every client use every key group. -/
def upK : State := { up with plan := { up.plan with recs := [⟨6, 0x35, [1] ++ List.replicate 79 0 ++ (List.replicate 16 [0xFF, 0x3F, 0x3F, 3, 0, 0, 0, 0]).flatten⟩] }, kiln := { up.kiln with slots := [⟨4, List.replicate 32 7, 0⟩, ⟨5, List.replicate 32 9, 0⟩] } }

/-- Core 0's request at the head of Kiln's queue: command, P0, P1, lengths in and out; `b` stands at IN. -/
def upM (c p0 p1 il ol : Nat) (b : Bytes) : State :=
  { ((upK.memPut 0x10000000 (leBytes 4 c ++ leBytes 4 p0 ++ leBytes 8 p1 ++ leBytes 8 0x10001000 ++ leBytes 8 il ++ leBytes 8 0x10002000 ++ leBytes 8 ol)).memPut 0x10001000 b) with
    kiln := { upK.kiln with mbox := [⟨.core 0, 0x10000000⟩], owners := [some ⟨[1], [2]⟩, none, none, some ⟨[3], [4]⟩], authority := some ⟨[1], [2]⟩ } }

/-- A token of a kind with nothing in it. -/
def tokA (k : Nat) : Bytes := [0x4B, 0x54, 0x4F, 0x4B, 1, 0, b8 k, 0] ++ List.replicate 56 0

/-- It is at the head of the mailbox. -/
def upTk (k l : Nat) : State := (upM 4 0 0 64 0 (tokA k)).set Fld.IDN_LIFECYCLE.STATE [] l

/-- Ring 0 of PK.CIP with one descriptor. -/
def dscA (mode tag iv n aad : Nat) : Bytes := [b8 mode, b8 tag, b8 iv, 0] ++ leBytes 4 4 ++ leBytes 8 0x10001000 ++ leBytes 8 0x10002000 ++ leBytes 8 0x10003000 ++ leBytes 4 n ++ leBytes 4 aad ++ List.replicate 16 3 ++ leBytes 4 99 ++ leBytes 4 0

/-- Ring 3 has one descriptor. -/
def upJ (mode tag iv n aad : Nat) : State := (((upK.setReg .CIP_JOB_CFG [3] 0x80000004).setReg .CIP_JOB_BASE [3] 0x400000).setReg .CIP_JOB_TAIL [3] 1).memPut 0x10000000 (dscA mode tag iv n aad)

/-- An Ash record. -/
def recA (ty : Nat) (p : Bytes) : AshRec := { seq := 0, seconds := 5, ns := 6, type := ty, origin := 0xE0, mode := 3, flags := 0, incident := 0, count := 1, payload := ashPad p }

/-- Ash has records queued, and perhaps an open incident. -/
def upAsh (q : List AshRec) (o : Option Nat) : State := { up with ash := { up.ash with queue := q, openSlot := o, slots := up.ash.slots.set 2 { AshSlot.reset with used := true, incident := 9, ovf := List.replicate 32 0 } } }

/-- A CT cord with lane 0 as Ethernet port 0 in mode 4 and lane 1 as fronthaul, host functions presented. -/
def upP : State := { up with plan := { up.plan with recs := [⟨6, 0x31, [1, 0, 4, 2, 2, 0, 7, 12] ++ List.replicate 24 0 ++ [4, 3, 2, 1, 0x4C, 0x1D] ++ List.replicate 26 0⟩] }, ports := { up.ports with hostPresented := some [4, 3, 2, 1, 0x4C, 0x1D, 0, 0x64, 0, 0, 0, 0, 0], perst := true } }

/-- The ports changed. -/
def upPp (f : Ports → Ports) : State := { upP with ports := f upP.ports }

/-- A bead for rod 0 is staged and delay list 2 is full. -/
def upDly : State := (upT.setReg .TLY_ENQ_W [5] 0 1).tlyUpd (fun t => { t with delays := (List.range 8192).map (fun e => ⟨2, e, 9, beadA 0 0 false⟩) })

/-- Local paths of link 0 receive since instant 0. -/
def upRx : State := upA

/-- Beam table 0 of quadrant 2 has a record of one group for ID 7 of route 1, which is being fetched. -/
def upBm : State := ((((upRt.setReg .BEAM_TBL_BASE [2, 0] 0x400000).memPut 0x10000048 (leBytes 4 4 ++ leBytes 2 1)).memPut 0x10000100 (leBytes 4 7 ++ leBytes 4 8)).memPut 0x10000200 ([7, 0, 1, 15, 0, 0, 1, 0] ++ List.replicate 120 1)).quadUpd 2 (fun d => { d with beams := [⟨1, 7, none, none, true, 0⟩, ⟨1, 9, some [1, 2], none, false, 0⟩] })

/-- Both converters scan; converter 1 has just done channel 4. -/
def upH : State := { up.set Fld.HKA_CFG.EN [] 3 with radio := { up.radio with hka := { up.radio.hka with scan := [63, 4] } } }

/-- The LO of WLAN link 0's paths is locked. -/
def upPl : State := upPlan.setReg .SYN_STAT [0, 0] 0x88000100

/-! Facts that the spec writes out -/

/-- Event 5 of PK is 165 (R9), RKN_FAULT is 147 (R406), ASH_INCIDENT is 237 (R505). -/
theorem test_event_numbers : ev 5 5 = 165 ∧ ev 4 19 = 147 ∧ ev 7 13 = 237 := by decide

/-- With network time 0xFFFFF000 a launch time of 0x1000 lies 8,192 ns ahead (R356, the example of spec/12_network_time.md). -/
theorem test_launch_wraps : (up.atRaw 0xFFFFF000).launch 0x1000 = some (0xFFFFF000 + 8192) := by decide +kernel

/-- The farthest instant that can be named: 0x7FFFF000 is 2^31 ns ahead (R356, the same example). -/
theorem test_launch_farthest : (up.atRaw 0xFFFFF000).launch 0x7FFFF000 = some (0xFFFFF000 + 0x80000000) := by decide +kernel

/-- Flow 0x105, SEQ 8 and 9 done before 7: when 7 completes, 7, 8 and 9 enter queue 1 in that order (R390). -/
theorem test_release_order :
    (match execTlyDone (.core 0) 6 ((upB [{ beadA 6 0 true with flow := 0x105, seq := 7, waiting := false, holder := some (.core 0) },
        { beadA 7 0 true with flow := 0x105, seq := 8, done := some (0, 1) },
        { beadA 8 0 true with flow := 0x105, seq := 9, done := some (0, 2) }]).tlyUpd (fun t => { t with released := [(0x105, 7)] })) with
      | .next t => ((t.tly.rels[1]?).getD []).map (·.seq)
      | _ => []) = [7, 8, 9] := by decide +kernel

/-- Ash has written `n` records, and the slots `l` are used. -/
def ashWith (n : Nat) (l : List Nat) : State :=
  { up with ash := { up.ash with written := n, slots := l.foldl (fun x i => x.set i { AshSlot.reset with used := true }) up.ash.slots } }

/-- No incident open, slots 0 and 4 used, the ring wrapped with HEAD 0x2C5: ASH_STAT reads 0x01100AC5 (the example of spec/17_faults_and_ash_log.md). -/
theorem test_ash_stat :
    w32 (ashWith (2048 + 0x2C5) [0, 4]).ashStat = 0x01100AC5 := by decide +kernel

/-- IDCODE reads 0x16400A97 (R525). -/
theorem test_idcode : (match execJtagIdcode up with
    | .next t => t.outs
    | _ => []) = [⟨.tdo, [0x16400A97], []⟩] := by decide +kernel

/-- Whole-machine statements: states in which their hypotheses hold. -/
theorem wit_StepKeepsCanonicalForm : ∃ s t : State, s.canonical = true ∧ step s = .next t :=
  ⟨{ up with pending := [.jtagBypass] }, _, by decide +kernel, rfl⟩

/-- A state of the fixed lengths from which a step answers. -/
theorem wit_StepKeepsFixedLengths : ∃ s t : State, s.shaped ∧ s.sized ∧ step s = .next t :=
  ⟨{ up with pending := [.jtagBypass] }, _, by decide +kernel, by decide +kernel, rfl⟩

/-- An empty queue with the raw counter running on REFCLK, one with it stopped, one in which an install has come to its end. -/
theorem wit_EmptyQueueIsOneNanosecond :
    (∃ s : State, s.pending = [] ∧ s.ntu.running = true ∧ s.pwr.refclk = true) ∧ (∃ s : State, s.pending = [] ∧ s.ntu.running = false) ∧
    (∃ s : State, s.pending = [] ∧ s.canonical = true ∧ s.radio.afcRun = some (64, 5) ∧ 5 ≤ s.now + 1 ∧ s.active 5 = true) :=
  ⟨⟨{ up with ntu := { up.ntu with running := true }, pwr := { up.pwr with refclk := true } }, by decide +kernel⟩,
    ⟨State.reset, by decide +kernel⟩, ⟨{ up with radio := { up.radio with afcRun := some (64, 5) }, now := 9 }, by decide +kernel⟩⟩

/-- A command that answers, and a part that it does not touch. -/
theorem wit_CommandsChangeOnlyTheirParts : ∃ (c : Instr) (s t : State), exec c s = .next t ∧ Part.mem ∉ touchedParts c :=
  ⟨.jtagBypass, up, _, rfl, by decide⟩

/-- A command with a list of registers that answers, and a register outside the list. -/
theorem wit_CommandsWriteOnlyTheirRegisters :
    ∃ (c : Instr) (s t : State) (l : List Reg), s.canonical = true ∧ touchedRegs c = some l ∧ exec c s = .next t ∧ Reg.AO_STATUS ∉ l :=
  ⟨.loLock 0 0, up, _, [.SYN_STAT], by decide +kernel, rfl, rfl, by decide⟩

/-- A ready job, a request, a reckoner that stores, a DMA and a flash operation under way, each in a state whose stores have their form. -/
theorem wit_StoringCommandsChangeOnlyTheirBytes :
    (∃ s : State, s.canonical = true ∧ s.jobReady 3 1 (List.replicate 32 7)) ∧
    (∃ (s : State) (m : MbReq) (q : List MbReq), s.canonical = true ∧ s.kiln.mbox = m :: q) ∧
    (∃ s : State, s.canonical = true ∧ s.rkAt 31 9 0x24890000) ∧
    (∃ (s : State) (d : RknDma), s.canonical = true ∧ (s.rk 31).dmas[0]? = some d) ∧
    (∃ (s : State) (op len addr sys : Nat), s.canonical = true ∧ s.ports.spi = some (op, len, addr, sys)) :=
  ⟨⟨upJ 1 16 12 50 20, by decide +kernel⟩, ⟨upM 1 0 0 0 65 [], ⟨.core 0, 0x10000000⟩, [], by decide +kernel⟩,
    ⟨upR 31 0x24890000, by decide +kernel⟩,
    ⟨(upR 31 0).rkUpd 31 (fun r => { r with dmas := [⟨0x10000000, 96, 64, true⟩] }), ⟨0x10000000, 96, 64, true⟩, by decide +kernel⟩,
    ⟨upPp (fun p => { p with spi := some (1, 4, 0x2000000, 5) }), 1, 4, 0x2000000, 5, by decide +kernel⟩⟩

/-! States that meet the hypotheses of the statements -/

/-- The full list has no free entry. -/
theorem upDly_full :
    (List.range 8192).any (fun i => !upDly.tly.delays.any (fun d => d.list == 2 && d.entry == i)) = false := by
  have h : upDly.tly.delays = (List.range 8192).map (fun e => ⟨2, e, 9, beadA 0 0 false⟩) := rfl
  rw [h, List.any_eq_false]
  intro i hi
  simpa using hi

/-- States that meet the hypotheses of `CounterReadKeepsTheSameCycleEvent`, one for each clause. -/
theorem wit_CounterReadKeepsTheSameCycleEvent :
  (∃ (s : State) (rq : Req) (r : Reg) (ix : List Nat), s.canonical = true ∧ r.placed ix ∧ rq ≠ .jtag ∧ Passes s rq r ix false ∧ okRdAll r ix rq s = true
      ∧ isRC r = true) :=
  ⟨up.setReg .RGC_EARLY_READ [2] 9, .core 0, .RGC_EARLY_READ, [2], by decide +kernel⟩

/-- States that meet the hypotheses of `AccumulatorReadWhileRunningIsBusy`, one for each clause. -/
theorem wit_AccumulatorReadWhileRunningIsBusy :
  (∃ (s : State) (rq : Req) (k : Nat) (a : Nat) (l : Nat) (hi : Bool), k < 32 ∧ a < 4 ∧ l < 8 ∧ Passes s rq (if hi = true then .RKN_ACC_HI else .RKN_ACC_LO) [k,
      8 * a + l] false ∧ s.rkRuns k = true) :=
  ⟨upR 31 0, .core 0, 31, 3, 7, true, by decide +kernel⟩

/-- States that meet the hypotheses of `OnlyCoresMoveNetworkTime`, one for each clause. -/
theorem wit_OnlyCoresMoveNetworkTime :
  (∃ (s : State) (rq : Req) (r : Reg), onDevice rq = false ∧ s.mayAccess rq = true ∧ r ∈ ([.NTU_TIME_CTL, .NTU_TIME_RATE_LO, .NTU_TIME_RATE_HI, .NTU_STEP_NS,
      .NTU_SET_NS, .NTU_SET_S_LO, .NTU_SET_S_HI, .NTU_CFG] : List Reg) ∧ s.mode ≠ 0 ∧ modeCode s rq (r.addr []) true = 0) ∧
  (∃ (s : State) (rq : Req) (r : Reg), s.canonical = true ∧ onDevice rq = true ∧ r ∈ ([.NTU_TIME_RATE_LO, .NTU_STEP_NS, .NTU_SET_NS, .NTU_SET_S_LO,
      .NTU_SET_S_HI] : List Reg) ∧ Passes s rq r [] true) :=
  ⟨⟨up, .pcie 0, .NTU_TIME_CTL, by decide +kernel⟩,
  ⟨up, .core 0, .NTU_SET_S_HI, by decide +kernel⟩⟩

/-- States that meet the hypotheses of `ReckonerResultsSaturateOrWrap`, one for each clause. -/
theorem wit_ReckonerResultsSaturateOrWrap :
  (∃ (s : State) (k : Nat) (w : Nat), s.canonical = true ∧ s.rkAt k 16 w ∧ (s.rk k).v.length = 16) ∧
  (∃ (s : State) (k : Nat) (w : Nat), s.canonical = true ∧ s.rkAt k 17 w ∧ (s.rk k).v.length = 16) ∧
  (∃ (s : State) (k : Nat) (w : Nat), s.canonical = true ∧ s.rkAt k 18 w ∧ (s.rk k).v.length = 16 ∧ fIMM w ≤ 23) ∧
  (∃ (s : State) (k : Nat) (w : Nat), s.canonical = true ∧ s.rkAt k 24 w ∧ (s.rk k).v.length = 16) ∧
  (∃ (s : State) (k : Nat) (w : Nat), s.canonical = true ∧ s.rkAt k 23 w ∧ (s.rk k).v.length = 16 ∧ fCX w = true ∧ (fIMM w % 4 = 1 ∨ fIMM w % 4 = 2)) ∧
  (∃ (s : State) (k : Nat) (w : Nat), s.canonical = true ∧ s.rkAt k 21 w ∧ (s.rk k).v.length = 16 ∧ fIMM w ≤ 55) ∧
  (∃ (s : State) (k : Nat) (w : Nat), s.canonical = true ∧ s.rkAt k 19 w ∧ (s.rk k).a.length = 4) ∧
  (∃ (s : State) (k : Nat) (w : Nat), s.canonical = true ∧ s.rkAt k 20 w ∧ (s.rk k).a.length = 4) ∧
  (∃ (s : State) (k : Nat) (w : Nat), s.canonical = true ∧ s.rkAt k 9 w) ∧
  (∃ (s : State) (k : Nat) (w : Nat), s.canonical = true ∧ s.rkAt k 11 w) :=
  ⟨⟨upR 31 0x42666000, 31, 0x42666000, by decide +kernel⟩,
  ⟨upR 31 0x46648000, 31, 0x46648000, by decide +kernel⟩,
  ⟨upR 31 0x4A648604, 31, 0x4A648604, by decide +kernel⟩,
  ⟨upR 31 0x62A20083, 31, 0x62A20083, by decide +kernel⟩,
  ⟨upR 31 0x5EA64402, 31, 0x5EA64402, by decide +kernel⟩,
  ⟨upR 31 0x56A0081F, 31, 0x56A0081F, by decide +kernel⟩,
  ⟨upR 31 0x4E049C00, 31, 0x4E049C00, by decide +kernel⟩,
  ⟨upR 31 0x52049000, 31, 0x52049000, by decide +kernel⟩,
  ⟨upR 31 0x2465220B, 31, 0x2465220B, by decide +kernel⟩,
  ⟨upR 31 0x2C652FFE, 31, 0x2C652FFE, by decide +kernel⟩⟩

/-- States that meet the hypotheses of `AccessesComplete`, one for each clause. -/
theorem wit_AccessesComplete :
  (∃ (s : State) (rq : Req) (r : Reg) (ix : List Nat) (v : Word), s.canonical = true ∧ r.placed ix ∧ rq ≠ .jtag ∧ Passes s rq r ix true ∧ writable r = true
      ∧ fullAll (r.addr ix) v s = false ∧ okAll r ix v rq s = true ∧ wrAll r ix v rq s = storeWord r ix v rq s) ∧
  (∃ (s : State) (rq : Req) (r : Reg) (ix : List Nat), s.canonical = true ∧ r.placed ix ∧ rq ≠ .jtag ∧ Passes s rq r ix true ∧ writable r = false) ∧
  (∃ (s : State) (rq : Req) (r : Reg) (ix : List Nat), s.canonical = true ∧ r.placed ix ∧ rq ≠ .jtag ∧ Passes s rq r ix false ∧ okRdAll r ix rq s = true
      ∧ isRC r = true) ∧
  (∃ (s : State) (rq : Req) (r : Reg) (ix : List Nat), s.canonical = true ∧ r.placed ix ∧ rq ≠ .jtag ∧ Passes s rq r ix false ∧ okRdAll r ix rq s = true
      ∧ isResult r = true) ∧
  (∃ (s : State) (rq : Req) (a : Nat), s.reachesBlock rq a = true ∧ s.held.any (heldAs rq a) = false
      ∧ (s.timeouts.filter (fun e => e.1 == (ownerOf a).1 && e.2.1 == (ownerOf a).2)).length + 1 < s.get Fld.RGC_HANG_CFG.HANG_MAX [(ownerOf a).1]) ∧
  (∃ (s : State) (rq : Req) (a : Nat), s.canonical = true ∧ s.reachesBlock rq a = true ∧ s.held.any (heldAs rq a) = false ∧ (ownerOf a).1 < 6
      ∧ s.serving = true ∧ s.running (ownerOf a).1 = true ∧ 1 ≤ s.get Fld.RGC_HANG_CFG.HANG_MAX [(ownerOf a).1]
      ∧ s.get Fld.RGC_HANG_CFG.HANG_MAX [(ownerOf a).1] ≤ (s.timeouts.filter (fun e => e.1 == (ownerOf a).1 && e.2.1 == (ownerOf a).2 && decide (s.now < e.2.2 + 1000000))).length + 1) :=
  ⟨⟨up, .core 0, .RGC_HANG_CFG, [2], 0x00050063, by decide +kernel⟩,
  ⟨up, .core 0, .AO_STATUS, [], by decide +kernel⟩,
  ⟨up.setReg .RGC_EARLY_READ [3] 7, .core 0, .RGC_EARLY_READ, [3], by decide +kernel⟩,
  ⟨up.setReg .RGC_EARLY_READ [7] 0xFFFFFFFE, .core 0, .AO_VF_STAT, [], by decide +kernel⟩,
  ⟨up, .core 0, 0x04010000, by decide +kernel⟩,
  ⟨{ up with timeouts := [(4, 1, 0), (4, 1, 0), (4, 1, 0)] }, .core 0, 0x04010000, by decide +kernel⟩⟩

/-- States that meet the hypotheses of `BlockFaultsFence`, one for each clause. -/
theorem wit_BlockFaultsFence :
  (∃ (s : State) (rq : Req) (a : Nat), s.canonical = true ∧ a < 0x8000000 ∧ aRegion a < 6 ∧ s.serving = true ∧ s.running (aRegion a) = true
      ∧ s.reachesBlock rq a = true) ∧
  (∃ (s : State) (rq : Req) (a : Nat), s.canonical = true ∧ a < 0x8000000 ∧ aRegion a < 6 ∧ s.serving = true ∧ s.running (aRegion a) = true
      ∧ s.reachesBlock rq a = true) :=
  ⟨⟨up, .core 0, 0x04010000, by decide +kernel⟩,
  ⟨up, .core 0, 0x04010000, by decide +kernel⟩⟩

/-- States that meet the hypotheses of `LockdownTriggersComplete`, one for each clause. -/
theorem wit_LockdownTriggersComplete :
  (∃ (s : State) (n : Nat), s.canonical = true ∧ s.pwr.vinAo = true ∧ n < 2 ∧ bitOf (s.get Fld.IDN_TAMPER_CFG.EN) n = true ∧ s.get Fld.IDN_LIFECYCLE.STATE ≠ 0
      ∧ s.mode ≠ 5) ∧
  (∃ (s : State), s.canonical = true ∧ s.pwr.powered.contains 6 = true ∧ s.mode ≠ 0 ∧ s.mode ≠ 5) ∧
  (∃ (s : State), s.pwr.powered.contains 6 = true ∧ s.mode ≠ 0 ∧ s.mode ≠ 5 ∧ s.kiln.trngFailed = false ∧ s.kiln.trngFails < 2) ∧
  (∃ (s : State), s.canonical = true ∧ s.pwr.powered.contains 6 = true ∧ s.mode = 1 ∧ s.kiln.trngFailed = false ∧ s.kiln.trngFails = 2) :=
  ⟨⟨(up.set Fld.IDN_TAMPER_CFG.EN [] 2).set Fld.IDN_LIFECYCLE.STATE [] 1, 1, by decide +kernel⟩,
  ⟨up, by decide +kernel⟩,
  ⟨up, by decide +kernel⟩,
  ⟨{ up.inMode 1 with kiln := { up.kiln with trngFails := 2 } }, by decide +kernel⟩⟩

/-- States that meet the hypotheses of `SupplyCommandsComplete`, one for each clause. -/
theorem wit_SupplyCommandsComplete :
  (∃ (s : State), s.canonical = true ∧ s.pwr.vinAo = false ∧ s.pwr.vinMain = true) ∧
  (∃ (s : State), s.canonical = true ∧ s.pwr.vinAo = true) ∧
  (∃ (s : State), s.canonical = true ∧ s.pwr.vinAo = true ∧ s.pwr.vinMain = false ∧ s.pwr.everMain = false ∧ s.mode = 0) ∧
  (∃ (s : State), s.canonical = true ∧ s.pwr.vinAo = true ∧ s.pwr.vinMain = true ∧ s.mode ≠ 0 ∧ s.mode ≠ 5) :=
  ⟨⟨{ (up.inMode 0) with pwr := { up.pwr with vinAo := false } }, by decide +kernel⟩,
  ⟨up, by decide +kernel⟩,
  ⟨{ (up.inMode 0) with pwr := { up.pwr with vinMain := false, everMain := false } }, by decide +kernel⟩,
  ⟨up, by decide +kernel⟩⟩

/-- States that meet the hypotheses of `RailAndThermalCommandsComplete`, one for each clause. -/
theorem wit_RailAndThermalCommandsComplete :
  (∃ (s : State) (die : Nat), s.canonical = true ∧ s.pwr.vinAo = true ∧ die < 5 ∧ s.mode ≠ 0 ∧ s.mode ≠ 5
      ∧ s.pwr.powered.any (fun r => r == (if die = 4 then 6 else die)) = true) ∧
  (∃ (s : State) (temp : Int) (at_ : Nat), s.pwr.thermalAt = some at_ ∧ at_ + 60000000000 ≤ s.now ∧ temp < 1520 ∧ s.pwr.heldWake = []) ∧
  (∃ (s : State) (temp : Int) (at_ : Nat) (detail : Nat), s.canonical = true ∧ s.pwr.thermalAt = some at_ ∧ at_ + 60000000000 ≤ s.now ∧ temp < 1520
      ∧ s.pwr.heldWake = [(3, detail)] ∧ s.mode = 0 ∧ s.wakeBusy = false ∧ detail < 256) ∧
  (∃ (s : State) (rail : Nat), s.canonical = true ∧ s.pwr.vinAo = true ∧ rail < 10 ∧ s.flag Fld.AO_RAIL_STAT.ON [rail] = true
      ∧ s.flag Fld.AO_RAIL_STAT.READY [rail] = true ∧ s.serving = true ∧ s.running (railRegion rail) = true) ∧
  (∃ (s : State) (r : Nat), s.canonical = true ∧ r < 8 ∧ s.pwr.vinAo = true ∧ (r = 7 ∨ s.running r = true) ∧ s.serving = true
      ∧ s.flag Fld.AO_AGE_STAT.VALID [r] = false) :=
  ⟨⟨up, 4, by decide +kernel⟩,
  ⟨{ up with pwr := { up.pwr with thermalAt := some 5 }, now := 60000000005 }, 1519, 5, by decide +kernel⟩,
  ⟨{ (up.inMode 0) with pwr := { up.pwr with thermalAt := some 5, heldWake := [(3, 2)] }, now := 60000000005 }, -10, 5, 2, by decide +kernel⟩,
  ⟨up.setReg .AO_RAIL_STAT [8] 0xC0000320, 8, by decide +kernel⟩,
  ⟨up, 5, by decide +kernel⟩⟩

/-- States that meet the hypotheses of `VoltageCommandsComplete`, one for each clause. -/
theorem wit_VoltageCommandsComplete :
  (∃ (s : State) (rq : Req) (v : Word) (e : Bytes), s.canonical = true ∧ Passes s rq .AO_VF_CTL [] true ∧ s.pwr.vf = none ∧ wbits v 20 16 < 19
      ∧ s.vf (wbits v 20 16) = some e ∧ wbits v 2 0 < vfCount e ∧ s.pwr.powered.contains (railRegion (wbits v 20 16)) = true
      ∧ s.fenced (railRegion (wbits v 20 16)) = false ∧ s.push.reloading = none ∧ s.vfDefers ⟨true, wbits v 20 16, wbits v 2 0, railRegion (wbits v 20 16), 0,
      0, 0, false⟩ = false ∧ s.get Fld.AO_RAIL_STAT.POINT [wbits v 20 16] < wbits v 2 0) ∧
  (∃ (s : State) (rq : Req) (v : Word) (e : Bytes) (i : Island), s.canonical = true ∧ Passes s rq .AO_ISL_CTL [] true ∧ s.pwr.vf = none
      ∧ s.pwr.islands.find? (fun x => x.region == wbits v 30 28 && x.block == wbits v 27 20 && x.cell == wbits v 19 16) = some i ∧ wbits v 11 0 % 25 = 0
      ∧ 25 ≤ wbits v 11 0 ∧ wbits v 11 0 ≤ 2000 ∧ s.pwr.powered.contains (wbits v 30 28) = true ∧ s.fenced (wbits v 30 28) = false ∧ s.push.reloading = none
      ∧ s.vfDefers ⟨false, i.rail, 0, wbits v 30 28, wbits v 27 20, wbits v 19 16, wbits v 11 0, false⟩ = false ∧ s.vf i.rail = some e
      ∧ wbits v 11 0 ≤ vfMhz e (s.get Fld.AO_RAIL_STAT.POINT [i.rail])) ∧
  (∃ (s : State) (c : VfChange), s.canonical = true ∧ s.pwr.vf = some c ∧ c.isRail = true ∧ c.mhz = 0 ∧ s.get Fld.AO_VF_STAT.STATE ≠ 2) ∧
  (∃ (s : State) (c : VfChange) (e : Bytes), s.canonical = true ∧ s.pwr.vf = some c ∧ s.get Fld.AO_VF_STAT.STATE = 2 ∧ s.vfDefers c = false ∧ c.isRail = true
      ∧ c.rail < 19 ∧ s.vf c.rail = some e ∧ s.get Fld.AO_RAIL_STAT.POINT [c.rail] < c.point ∧ c.point < 8) :=
  ⟨⟨upVf, .core 0, 0x10080001, vfBody, by decide +kernel⟩,
  ⟨{ upVf with pwr := { upVf.pwr with islands := [⟨4, 1, 0, 8, 100⟩] } }, .core 0, 0x401001F4, vfBody, ⟨4, 1, 0, 8, 100⟩, by decide +kernel⟩,
  ⟨{ upVf.set Fld.AO_VF_STAT.STATE [] 1 with pwr := { upVf.pwr with vf := some ⟨true, 8, 1, 4, 0, 0, 0, false⟩ } }, ⟨true, 8, 1, 4, 0, 0, 0, false⟩,
      by decide +kernel⟩,
  ⟨{ upVf.set Fld.AO_VF_STAT.STATE [] 2 with pwr := { upVf.pwr with vf := some ⟨true, 8, 1, 4, 0, 0, 0, true⟩ } }, ⟨true, 8, 1, 4, 0, 0, 0, true⟩, vfBody,
      by decide +kernel⟩⟩

/-- States that meet the hypotheses of `SleepClockCommandsComplete`, one for each clause. -/
theorem wit_SleepClockCommandsComplete :
  (∃ (s : State), s.pwr.vinAo = true ∧ s.pwr.slpOn = false) ∧
  (∃ (s : State), s.pwr.slpOn = true) :=
  ⟨⟨up, by decide +kernel⟩,
  ⟨{ up with pwr := { up.pwr with slpOn := true, slpAt := 7, slpBase := 100 }, now := 1000000000 }, by decide +kernel⟩⟩

/-- States that meet the hypotheses of `SleepCommandsComplete`, one for each clause. -/
theorem wit_SleepCommandsComplete :
  (∃ (s : State) (rq : Req), s.canonical = true ∧ Passes s rq .AO_SLEEP_CTL [] true ∧ s.pwr.sleep = none ∧ s.serving = true) ∧
  (∃ (s : State) (rq : Req), s.canonical = true ∧ Passes s rq .AO_SLEEP_CTL [] true ∧ s.pwr.sleep = none ∧ (s.serving = true ∨ s.mode = 2)) ∧
  (∃ (s : State) (rq : Req) (q : SleepReq), s.canonical = true ∧ Passes s rq .AO_SLEEP_CTL [] true ∧ s.pwr.sleep = some q) ∧
  (∃ (s : State) (q : SleepReq) (b : Nat × Nat) (rest : List (Nat × Nat)), s.pwr.sleep = some q ∧ q.toAsk = b :: rest ∧ rest ≠ []
      ∧ s.blockReason b.1 b.2 q.target = 0 ∧ s.blockWaits b.1 b.2 = false) ∧
  (∃ (s : State) (q : SleepReq) (b : Nat × Nat), s.canonical = true ∧ s.pwr.sleep = some q ∧ q.toAsk = [b] ∧ s.blockReason b.1 b.2 q.target = 0
      ∧ s.blockWaits b.1 b.2 = false ∧ s.aoReason = 0 ∧ q.target = 1) ∧
  (∃ (s : State) (q : SleepReq) (r : Nat) (b : Nat) (rest : List (Nat × Nat)), s.canonical = true ∧ s.pwr.sleep = some q ∧ q.toAsk = (r, b) :: rest ∧ r < 8
      ∧ b < 256 ∧ q.since + max 1 (s.get Fld.AO_SLEEP_CFG.PH1_TO) * 100000 ≤ s.now ∧ s.get Fld.AO_SLEEP_REC.ABORTS < 7) ∧
  (∃ (s : State) (q : SleepReq) (at_ : Nat), s.canonical = true ∧ s.pwr.sleep = some q ∧ q.retryAt = some at_ ∧ at_ ≤ s.now) :=
  ⟨⟨up, .core 0, by decide +kernel⟩,
  ⟨up, .core 0, by decide +kernel⟩,
  ⟨{ up with pwr := { up.pwr with sleep := some ⟨1, 0, [], [], none⟩ } }, .core 0, ⟨1, 0, [], [], none⟩, by decide +kernel⟩,
  ⟨{ up with pwr := { up.pwr with sleep := some ⟨1, 0, [(0, 0), (0, 9)], [], none⟩ } }, ⟨1, 0, [(0, 0), (0, 9)], [], none⟩, (0, 0), [(0, 9)],
      by decide +kernel⟩,
  ⟨{ up with pwr := { up.pwr with sleep := some ⟨1, 0, [(6, 11)], [], none⟩ } }, ⟨1, 0, [(6, 11)], [], none⟩, (6, 11), by decide +kernel⟩,
  ⟨{ up with pwr := { up.pwr with sleep := some ⟨1, 0, [(5, 3)], [], none⟩ }, now := 5000000 }, ⟨1, 0, [(5, 3)], [], none⟩, 5, 3, [], by decide +kernel⟩,
  ⟨{ up with pwr := { up.pwr with sleep := some ⟨1, 0, [], [], some 8⟩ }, now := 8 }, ⟨1, 0, [], [], some 8⟩, 8, by decide +kernel⟩⟩

/-- States that meet the hypotheses of `WakeCommandsComplete`, one for each clause. -/
theorem wit_WakeCommandsComplete :
  (∃ (s : State) (addr : Nat), s.canonical = true ∧ s.pwr.vinAo = true ∧ s.mode = 0 ∧ s.pwr.thermalAt = none ∧ s.wakeEn 0 = true
      ∧ addr = s.get Fld.WAK_EN.SMB_ADDR) ∧
  (∃ (s : State) (id : Nat) (n : Nat), s.canonical = true ∧ s.pwr.vinAo = true ∧ s.mode = 0 ∧ s.pwr.thermalAt = none ∧ s.wakeEn 1 = true
      ∧ (List.range 4).find? (fun n => s.flag Fld.WAK_WRX_ID.EN [n] && s.get Fld.WAK_WRX_ID.ID [n] == id) = some n) ∧
  (∃ (s : State) (n : Nat), s.canonical = true ∧ s.pwr.vinAo = true ∧ s.mode = 0 ∧ s.pwr.thermalAt = none ∧ n < 4 ∧ s.wakeEn 2 = true
      ∧ bitOf (s.get Fld.WAK_GPIO.PINS) n = true) ∧
  (∃ (s : State), s.canonical = true ∧ s.pwr.vinAo = true ∧ s.mode = 0 ∧ s.pwr.thermalAt = none ∧ s.wakeEn 3 = true ∧ (s.reg .WAK_TIMER).toNat ≠ 0
      ∧ s.pwr.slpOn = true ∧ s.pwr.commitTicks + (s.reg .WAK_TIMER).toNat ≤ s.slpTicks) :=
  ⟨⟨((up.inMode 0).set Fld.WAK_WRX.SRC_EN [] 1).set Fld.WAK_EN.SMB_ADDR [] 0x55, 0x55, by decide +kernel⟩,
  ⟨(((up.inMode 0).set Fld.WAK_WRX.SRC_EN [] 2).set Fld.WAK_WRX_ID.EN [3] 1).set Fld.WAK_WRX_ID.ID [3] 9, 9, 3, by decide +kernel⟩,
  ⟨((up.inMode 0).set Fld.WAK_WRX.SRC_EN [] 4).set Fld.WAK_GPIO.PINS [] 8, 3, by decide +kernel⟩,
  ⟨{ ((up.inMode 0).set Fld.WAK_WRX.SRC_EN [] 8).setReg .WAK_TIMER [] 5 with pwr := { up.pwr with slpOn := true, slpBase := 5 } }, by decide +kernel⟩⟩

/-- States that meet the hypotheses of `BootCommandsComplete`, one for each clause. -/
theorem wit_BootCommandsComplete :
  (∃ (s : State) (r : Nat) (w : WakeRun), s.pwr.waking.find? (fun x => x.region == r) = some w ∧ w.since ≤ s.now ∧ w.stage < 3) ∧
  (∃ (s : State) (r : Nat) (w : WakeRun), s.pwr.waking.find? (fun x => x.region == r) = some w ∧ w.since ≤ s.now ∧ w.stage = 3 ∧ w.banked = false) ∧
  (∃ (s : State) (r : Nat) (w : WakeRun), s.canonical = true ∧ s.pwr.waking.find? (fun x => x.region == r) = some w ∧ w.since + stageTimeout w.stage ≤ s.now
      ∧ w.stage < 4 ∧ r < 8 ∧ w.banked = false ∧ s.boot.src = 0) ∧
  (∃ (s : State), s.canonical = true ∧ s.mode = 1 ∧ s.boot.phase = .kiln ∧ s.get Fld.AO_STATUS.BRINGUP_FAIL = 0 ∧ s.get Fld.IDN_LIFECYCLE.PENDING = 0
      ∧ s.lifecycle = 1 ∧ s.owners ≠ []) ∧
  (∃ (s : State), s.canonical = true ∧ s.mode = 1 ∧ s.push.op = 0 ∧ s.boot.phase = .verify ∧ s.boot.src = 1) ∧
  (∃ (s : State) (i : Nat), s.mode = 1 ∧ s.boot.phase = .cords ∧ nextPlace s.imgHead s.boot.cord = some i ∧ s.cordHere i = true) ∧
  (∃ (s : State), s.canonical = true ∧ s.mode = 1 ∧ s.boot.phase = .firmware ∧ s.push.op = 0 ∧ s.boot.src = 1) :=
  ⟨⟨{ (up.inMode 1) with pwr := { up.pwr with waking := [⟨6, 0, 0, false⟩] } }, 6, ⟨6, 0, 0, false⟩, by decide +kernel⟩,
  ⟨{ (up.inMode 1) with pwr := { up.pwr with waking := [⟨6, 3, 0, false⟩] } }, 6, ⟨6, 3, 0, false⟩, by decide +kernel⟩,
  ⟨{ (up.inMode 1) with pwr := { up.pwr with powered := [7], waking := [⟨6, 2, 0, false⟩] }, boot := { up.boot with phase := .wakeCt }, now := 100000 }, 6,
      ⟨6, 2, 0, false⟩, by decide +kernel⟩,
  ⟨{ ((up.inMode 1).set Fld.IDN_LIFECYCLE.STATE [] 1) with boot := { Boot.reset with phase := .kiln, applied := [6] }, kiln := { up.kiln with owners := [some ⟨[], []⟩] } },
      by decide +kernel⟩,
  ⟨{ (up.inMode 1) with boot := { Boot.reset with phase := .verify, src := 1, ctReady := true, applied := [6] } }, by decide +kernel⟩,
  ⟨bootC, 0, by decide +kernel⟩,
  ⟨{ (up.inMode 1) with boot := { Boot.reset with phase := .firmware, src := 1, cord := 4, ctReady := true, applied := [6] } }, by decide +kernel⟩⟩

/-- States that meet the hypotheses of `PushCommandsComplete`, one for each clause. -/
theorem wit_PushCommandsComplete :
  (∃ (s : State) (rq : Req), s.canonical = true ∧ Passes s rq .AO_PUSH_CTL [] true ∧ s.push.op = 0 ∧ s.held = [] ∧ s.mode = 1 ∧ s.slotBusy = false) ∧
  (∃ (s : State) (rq : Req) (v : Word), s.canonical = true ∧ Passes s rq .AO_PUSH_CTL [] true ∧ s.push.op = 0 ∧ s.held = [] ∧ s.serving = true
      ∧ wbits v 10 8 < 6 ∧ s.plan.present.contains (wbits v 10 8) = true ∧ s.restacking (wbits v 10 8) = false
      ∧ s.radio.awaiting.contains (wbits v 10 8) = false) ∧
  (∃ (s : State) (rq : Req), s.canonical = true ∧ Passes s rq .AO_PUSH_CTL [] true ∧ s.push.op = 0 ∧ s.held = [] ∧ s.serving = true
      ∧ s.get Fld.AO_BOOT_INFO.SLOT_USED ≠ 1) ∧
  (∃ (s : State) (rq : Req), s.canonical = true ∧ Passes s rq .AO_PUSH_CTL [] true ∧ s.push.op = 0 ∧ s.held = [] ∧ s.serving = true
      ∧ s.get Fld.AO_BOOT_INFO.SLOT_USED ≠ 2) ∧
  (∃ (s : State) (rq : Req) (v : Word), s.canonical = true ∧ Passes s rq .AO_PUSH_CTL [] true ∧ s.push.op = 0 ∧ s.held = [] ∧ s.serving = true
      ∧ wbits v 10 8 < 6 ∧ s.plan.present.contains (wbits v 10 8) = true ∧ s.restacking (wbits v 10 8) = false
      ∧ s.radio.awaiting.contains (wbits v 10 8) = false) ∧
  (∃ (s : State) (rq : Req) (v : Word), s.canonical = true ∧ Passes s rq .AO_PUSH_CTL [] true ∧ s.push.op = 0 ∧ s.held = [] ∧ s.serving = true
      ∧ wbits v 10 8 < 6 ∧ s.plan.present.contains (wbits v 10 8) = true ∧ s.restacking (wbits v 10 8) = false
      ∧ s.radio.awaiting.contains (wbits v 10 8) = false) ∧
  (∃ (s : State) (rq : Req), s.canonical = true ∧ Passes s rq .AO_PUSH_CTL [] true ∧ (s.push.op = 4 ∨ s.push.op = 5) ∧ s.held = []) ∧
  (∃ (s : State) (rq : Req), Passes s rq .AO_PUSH_DATA [] true ∧ (s.push.op = 2 ∨ s.push.op = 3) ∧ s.push.owner = some rq) :=
  ⟨⟨{ (up.inMode 1) with boot := { Boot.reset with phase := .noImage, ctReady := true, applied := [6] } }, .core 0, by decide +kernel⟩,
  ⟨up, .core 0, 0x500, by decide +kernel⟩,
  ⟨up, .core 0, by decide +kernel⟩,
  ⟨up, .core 0, by decide +kernel⟩,
  ⟨up, .core 0, 0x200, by decide +kernel⟩,
  ⟨up, .core 0, 0, by decide +kernel⟩,
  ⟨{ up with push := { up.push with op := 4, owner := some (.core 0), data := [1, 2] } }, .core 1, by decide +kernel⟩,
  ⟨{ up with push := { up.push with op := 3, owner := some (.core 0), data := [] } }, .core 0, by decide +kernel⟩⟩

/-- States that meet the hypotheses of `TrustedUpdateCommandsComplete`, one for each clause. -/
theorem wit_TrustedUpdateCommandsComplete :
  (∃ (s : State), s.canonical = true ∧ s.mode = 1 ∧ s.push.op = 2 ∧ s.held = [] ∧ leAt s.push.data 0 4 = 0x4C524E45 ∧ leAt s.push.data 8 4 = 7632
      ∧ 7632 ≤ s.push.data.length) ∧
  (∃ (s : State), s.canonical = true ∧ s.serving = true ∧ s.push.reloading = some s.push.region ∧ s.push.region < 6 ∧ s.push.verified = true ∧ (s.push.op = 6
      ∨ s.push.op = 7)) :=
  ⟨⟨{ (up.inMode 1) with push := { up.push with op := 2, data := leBytes 4 0x4C524E45 ++ [2, 0, 0, 0] ++ leBytes 4 7632 ++ List.replicate 7620 0 } },
      by decide +kernel⟩,
  ⟨{ up with push := { up.push with op := 6, region := 2, reloading := some 2, verified := true } }, by decide +kernel⟩⟩

/-- States that meet the hypotheses of `RestackCommandsComplete`, one for each clause. -/
theorem wit_RestackCommandsComplete :
  (∃ (s : State) (rq : Req) (v : Word) (at_ : Int), s.canonical = true ∧ Passes s rq .RGC_RESTACK_CTL [] true
      ∧ s.launch (s.reg .RGC_RESTACK_TIME).toNat = some at_ ∧ s.restackOk at_ (restackTargets v)) ∧
  (∃ (s : State) (rq : Req) (r : Restack), s.canonical = true ∧ Passes s rq .RGC_RESTACK_CTL [] true ∧ s.radio.request = some r) ∧
  (∃ (s : State) (r : Restack), s.canonical = true ∧ s.shaped ∧ s.radio.request = some r ∧ s.serving = true ∧ r.time ≤ s.netTime ∧ (∀ e ∈ r.qs, e.1 < 4
      ∧ e.2 < 4) ∧ (r.qs.map (·.1)).Nodup) ∧
  (∃ (s : State) (g : Gap), s.canonical = true ∧ s.radio.gaps = [g] ∧ g.ends ≤ s.now ∧ g.request = true ∧ s.radio.fallbackDue = false ∧ (∀ e ∈ g.qs, e.1 < 4
      ∧ e.2 < 4) ∧ (g.qs.map (·.1)).Nodup) ∧
  (∃ (s : State) (at_ : Int), s.canonical = true ∧ s.shaped ∧ s.radio.returnAt = some at_ ∧ at_ ≤ s.netTime ∧ s.serving = true ∧ s.radio.gaps = []) :=
  ⟨⟨upStk.setReg .RGC_RESTACK_TIME [] 2000000, .core 0, 0x110, 2000000, by decide +kernel⟩,
  ⟨{ upStk with radio := { upStk.radio with request := some ⟨5000000, [(0, 1)], 10⟩ } }, .core 0, ⟨5000000, [(0, 1)], 10⟩, by decide +kernel⟩,
  ⟨{ upStk with radio := { upStk.radio with request := some ⟨0, [(0, 1)], 10⟩ } }, ⟨0, [(0, 1)], 10⟩, by decide +kernel⟩,
  ⟨{ upStk with radio := { upStk.radio with gaps := [⟨[(0, 1)], 0, 10000, true, [], []⟩] }, now := 10000 }, ⟨[(0, 1)], 0, 10000, true, [], []⟩,
      by decide +kernel⟩,
  ⟨{ upStk with radio := { upStk.radio with returnAt := some 0 } }, 0, by decide +kernel⟩⟩

/-- States that meet the hypotheses of `LockingCommandsComplete`, one for each clause. -/
theorem wit_LockingCommandsComplete :
  (∃ (s : State) (q : Nat) (k : Nat), s.canonical = true ∧ s.shaped ∧ q < 4 ∧ k < 2 ∧ s.active q = true ∧ s.pwr.refclk = true ∧ s.flag Fld.SYN_STAT.TUNING [q,
      k] = true ∧ (s.syn q k).waiting = false ∧ (s.syn q k).dead = false ∧ (s.syn q k).since + 1000 ≤ s.now) ∧
  (∃ (s : State) (q : Nat) (k : Nat), s.canonical = true ∧ s.shaped ∧ q < 4 ∧ k < 2 ∧ s.active q = true ∧ s.pwr.refclk = true ∧ s.flag Fld.SYN_STAT.TUNING [q,
      k] = true ∧ (s.syn q k).waiting = false ∧ (s.syn q k).since + 1000000 ≤ s.now ∧ (s.syn q k).tries < 3) ∧
  (∃ (s : State) (q : Nat) (k : Nat), s.canonical = true ∧ s.shaped ∧ q < 4 ∧ k < 2 ∧ s.active q = true ∧ s.pwr.refclk = true ∧ s.flag Fld.SYN_STAT.TUNING [q,
      k] = true ∧ (s.syn q k).waiting = false ∧ (s.syn q k).since + 1000000 ≤ s.now ∧ 3 ≤ (s.syn q k).tries) ∧
  (∃ (s : State) (l : List Nat) (q : Nat) (n : Nat), s.canonical = true ∧ s.shaped ∧ q < 4 ∧ n < 4 ∧ q ∉ l ∧ s.pwr.refclk = true ∧ s.active q = true
      ∧ ((s.quad q).ebufs[n]?).any (fun e => e.on) = true) ∧
  (∃ (s : State) (l : List Nat) (q : Nat) (n : Nat), s.canonical = true ∧ s.shaped ∧ q < 4 ∧ n < 4 ∧ s.pwr.refclk = true ∧ s.active q = true ∧ q ∈ l
      ∧ ((s.quad q).ebufs[n]?).any (fun e => e.on) = true) ∧
  (∃ (s : State) (g : Nat) (n : Nat), s.canonical = true ∧ g < 5 ∧ n < 8 ∧ s.active g = true ∧ s.flag Fld.RGC_EBUF_LAT.VALID [g, n] = true) ∧
  (∃ (s : State), s.canonical = true ∧ s.evtRuns = true ∧ s.get Fld.RGC_ASYNC_CFG.SRC = 1 ∧ s.get Fld.RGC_ASYNC_CFG.IN_LOST = 0) :=
  ⟨⟨{ up.setReg .SYN_STAT [3, 1] 0x48000100 with now := 1000 }, 3, 1, by decide +kernel⟩,
  ⟨{ up.setReg .SYN_STAT [0, 0] 0x48000100 with now := 1000000 }, 0, 0, by decide +kernel⟩,
  ⟨{ up.setReg .SYN_STAT [0, 0] 0x48000100 with now := 1000000 }.synUpd 0 0 (fun x => { x with tries := 3 }), 0, 0, by decide +kernel⟩,
  ⟨(up.quadUpd 2 (fun d => { d with ebufs := List.replicate 4 ⟨true, none⟩, syns := [⟨0, 0, true, false⟩, ⟨0, 0, true, false⟩] })), [3, 1], 2, 3,
      by decide +kernel⟩,
  ⟨(up.quadUpd 2 (fun d => { d with ebufs := List.replicate 4 ⟨true, none⟩, syns := [⟨0, 0, true, false⟩, ⟨0, 0, true, false⟩] })), [3, 2], 2, 3,
      by decide +kernel⟩,
  ⟨up.setReg .RGC_EBUF_LAT [4, 2] 0x80000003, 4, 2, by decide +kernel⟩,
  ⟨up.setReg .RGC_ASYNC_CFG [] 1, by decide +kernel⟩⟩

/-- States that meet the hypotheses of `FrontEndCommandsComplete`, one for each clause. -/
theorem wit_FrontEndCommandsComplete :
  (∃ (s : State) (rq : Req) (q : Nat) (p : Nat) (v : Word), s.canonical = true ∧ s.shaped ∧ q < 4 ∧ p < 16 ∧ Passes s rq .PATH_CTL [q, p / 8, p % 8] true
      ∧ okQuad .PATH_CTL [q, p / 8, p % 8] (wset v 5 5 1) rq s = true) ∧
  (∃ (s : State) (rq : Req) (q : Nat) (v : Word), s.shaped ∧ q < 4 ∧ Passes s rq .FEN_RFFE_CMD [q] true ∧ okQuad .FEN_RFFE_CMD [q] v rq s = true
      ∧ s.held.any (rffeHeldFor q (wbits v 29 28)) = false) ∧
  (∃ (s : State) (q : Nat) (k : Nat) (c : Word) (rest : List Word), s.canonical = true ∧ s.shaped ∧ q < 4 ∧ k < 4 ∧ (s.quad q).rffeQ[k]? = some (c :: rest)
      ∧ s.active q = true ∧ (s.quad q).rffeRsp.length < 32 ∧ s.held.any (rffeHeldFor q k) = false ∧ (wbits c 31 30 < 2 ∨ wbits c 27 24 ≠ 0)) ∧
  (∃ (s : State) (q : Nat) (k : Nat) (c : Word) (rest : List Word), s.canonical = true ∧ s.shaped ∧ q < 4 ∧ k < 4 ∧ (s.quad q).rffeQ[k]? = some (c :: rest)
      ∧ s.active q = true ∧ (s.quad q).rffeRsp.length < 32 ∧ s.held.any (rffeHeldFor q k) = false ∧ 2 ≤ wbits c 31 30 ∧ wbits c 27 24 = 0) ∧
  (∃ (s : State) (rq : Req) (q : Nat) (w : Word) (rest : List Word), s.shaped ∧ q < 4 ∧ Passes s rq .FEN_RFFE_RSP [q] false
      ∧ (s.quad q).rffeRsp = w :: rest) ∧
  (∃ (s : State) (q : Nat) (n : Nat), s.shaped ∧ q < 4 ∧ n < 16 ∧ s.active q = true ∧ s.get Fld.FEN_RFFE_CFG.POLL_MS [q] ≠ 0 ∧ s.flag Fld.FEN_RFFE_POLL.EN [q,
      n] = true ∧ s.get Fld.FEN_RFFE_POLL.USID [q, n] ≠ 0 ∧ (((s.quad q).polled[n]?).getD 0) + s.get Fld.FEN_RFFE_CFG.POLL_MS [q] * 1000000 ≤ s.now
      ∧ ((s.quad q).rffeQ[s.get Fld.FEN_RFFE_POLL.BUS [q, n]]?).getD [] = []) ∧
  (∃ (s : State) (q : Nat) (p : Nat), s.canonical = true ∧ s.shaped ∧ q < 4 ∧ p < 16 ∧ s.active q = true ∧ s.flag Fld.FEN_RFFE_CFG.VIO_EN [q] = true) ∧
  (∃ (s : State) (rq : Req) (q : Nat) (p : Nat), s.canonical = true ∧ s.shaped ∧ q < 4 ∧ p < 16 ∧ Passes s rq .FEN_RFFE_CFG [q] true ∧ s.serving = true
      ∧ s.get Fld.FEN_RFFE_CFG.VIO_EN [q] = 0) ∧
  (∃ (s : State) (q : Nat) (p : Nat), s.canonical = true ∧ s.shaped ∧ q < 4 ∧ p < 16 ∧ s.biasOn q p = true) ∧
  (∃ (s : State) (q : Nat) (p : Nat), s.shaped ∧ q < 4 ∧ p < 16 ∧ s.biasOn q p = true ∧ s.get Fld.FEN_BIAS.IOPEN [q, p] ≠ 0 ∧ s.txen (16 * q + p) = true) ∧
  (∃ (s : State) (q : Nat) (p : Nat), s.shaped ∧ q < 4 ∧ p < 16 ∧ s.active q = true ∧ s.pathOn (16 * q + p) = true) :=
  ⟨⟨(up.pathUpd 63 (fun x => { x with causes := [4, 7] })), .core 0, 3, 15, 0x7F0080, by decide +kernel⟩,
  ⟨up, .core 0, 1, 0x31020304, by decide +kernel⟩,
  ⟨(up.quadUpd 1 (fun d => { d with rffeQ := [[0x8A3455AA, 5], [], [], []] })), 1, 0, 0x8A3455AA, [5], by decide +kernel⟩,
  ⟨(up.quadUpd 1 (fun d => { d with rffeQ := [[0x803455AA, 5], [], [], []] })), 1, 0, 0x803455AA, [5], by decide +kernel⟩,
  ⟨(up.quadUpd 1 (fun d => { d with rffeRsp := [9, 8] })), .core 0, 1, 9, [8], by decide +kernel⟩,
  ⟨{ up.setReg .FEN_RFFE_POLL [2, 15] 0xB512 with now := 10000000 }, 2, 15, by decide +kernel⟩,
  ⟨up.setReg .FEN_RFFE_CFG [1] 0xA20, 1, 15, by decide +kernel⟩,
  ⟨(up.pathUpd 16 (fun x => { x with causes := [5] })), .core 0, 1, 0, by decide +kernel⟩,
  ⟨up.setReg .FEN_BIAS [1, 3] 0x80FF0064, 1, 3, by decide +kernel⟩,
  ⟨(upTx.setReg .FEN_BIAS [0, 3] 0x80FF0064), 0, 3, by decide +kernel⟩,
  ⟨upTx, 0, 3, by decide +kernel⟩⟩

/-- States that meet the hypotheses of `CoexistenceCommandsComplete`, one for each clause. -/
theorem wit_CoexistenceCommandsComplete :
  (∃ (s : State) (n : Nat), s.shaped ∧ n < 3 ∧ (s.coexPort n).req = false) ∧
  (∃ (s : State) (n : Nat), s.shaped ∧ n < 3 ∧ (s.coexPort n).req = true) ∧
  (∃ (s : State) (q : Nat) (n : Nat), s.shaped ∧ q < 4 ∧ n < 3 ∧ (s.coexPort n).req = true ∧ (s.coexPort n).stuck = false ∧ s.serving = true
      ∧ s.running q = true ∧ s.flag Fld.FEN_COEX_CFG.EN [q, n] = true ∧ (s.coexPort n).consent[q]? = some false
      ∧ (s.coexPort n).reqAt + s.get Fld.FEN_COEX_CFG.MAX_DEFER [q, n] * 100000 ≤ s.now) ∧
  (∃ (s : State) (q : Nat) (n : Nat), s.shaped ∧ q < 4 ∧ n < 3 ∧ (s.coexPort n).req = true ∧ (s.coexPort n).stuck = false ∧ s.active q = true
      ∧ s.flag Fld.FEN_COEX_CFG.EN [q, n] = true ∧ s.get Fld.FEN_COEX_CFG.REQ_MAX [q, n] ≠ 0 ∧ (s.coexPort n).reqAt + s.get Fld.FEN_COEX_CFG.REQ_MAX [q,
      n] * 10000000 < s.now) ∧
  (∃ (s : State) (n : Nat), s.shaped ∧ n < 3 ∧ (s.coexPort n).stuck = true ∧ (s.coexPort n).req = false ∧ (s.coexPort n).lowAt + 1000000 ≤ s.now) ∧
  (∃ (s : State), s.pwr.vinAo = true ∧ s.radio.dutyAt + 60000000000 ≤ s.now) ∧
  (∃ (s : State), s.timeState ≠ 0 ∧ s.radio.afc.any (fun g => decide (g.expiry ≤ s.netSeconds)) = true) :=
  ⟨⟨upTx, 2, by decide +kernel⟩,
  ⟨(upTx.coexUpd 1 (fun c => { c with req := true, consent := [true, true, false, true] })), 1, by decide +kernel⟩,
  ⟨{ ((upTx.coexUpd 1 (fun c => { c with req := true })).set Fld.FEN_COEX_CFG.EN [0, 1] 1) with now := 1000000000 }, 0, 1, by decide +kernel⟩,
  ⟨{ ((upTx.coexUpd 1 (fun c => { c with req := true })).setReg .FEN_COEX_CFG [3, 1] 0xFFFFFFFF) with now := 100000000000 }, 3, 1, by decide +kernel⟩,
  ⟨{ upTx.coexUpd 2 (fun c => { c with stuck := true, lowAt := 7 }) with now := 1000007 }, 2, by decide +kernel⟩,
  ⟨{ upTx with now := 60000000000 }, by decide +kernel⟩,
  ⟨{ upTx.set Fld.NTU_STATUS.TIME_STATE [] 1 with radio := { upTx.radio with afc := [⟨5500000, 80000, 100, 10, 0⟩, ⟨5500000, 80000, 100, 10, 9⟩] } },
      by decide +kernel⟩⟩

/-- States that meet the hypotheses of `LockAndReferenceCommandsComplete`, one for each clause. -/
theorem wit_LockAndReferenceCommandsComplete :
  (∃ (s : State) (q : Nat) (k : Nat), s.canonical = true ∧ q < 4 ∧ k < 2 ∧ s.active q = true ∧ s.flag Fld.SYN_STAT.LOCK [q, k] = true) ∧
  (∃ (s : State) (q : Nat) (k : Nat), s.canonical = true ∧ q < 4 ∧ k < 2 ∧ s.pwr.refclk = true ∧ s.active q = true ∧ s.flag Fld.SYN_STAT.LOCK [q, k] = true) ∧
  (∃ (s : State) (q : Nat) (k : Nat), s.canonical = true ∧ s.shaped ∧ q < 4 ∧ k < 2 ∧ s.pwr.refclk = false ∧ s.active q = true ∧ s.get Fld.SYN_STAT.FREQ [q,
      k] ≠ 0 ∧ (s.syn q k).dead = false) ∧
  (∃ (s : State), s.canonical = true ∧ s.evtRuns = true ∧ s.get Fld.RGC_ASYNC_CFG.SRC = 1 ∧ s.get Fld.RGC_ASYNC_CFG.IN_LOST = 1) :=
  ⟨⟨upTx.setReg .SYN_STAT [0, 0] 0x88000100, 0, 0, by decide +kernel⟩,
  ⟨upTx.setReg .SYN_STAT [3, 1] 0x88000100, 3, 1, by decide +kernel⟩,
  ⟨{ upTx.setReg .SYN_STAT [3, 1] 0x8000100 with pwr := { upTx.pwr with refclk := false } }, 3, 1, by decide +kernel⟩,
  ⟨upTx.setReg .RGC_ASYNC_CFG [] 0x10001, by decide +kernel⟩⟩

/-- States that meet the hypotheses of `TransmissionCommandsComplete`, one for each clause. -/
theorem wit_TransmissionCommandsComplete :
  (∃ (s : State) (l : Nat) (i : Nat) (launch : Int) (air : Nat) (punct : Nat) (p : WacPpdu), l < 3 ∧ s.active 5 = true ∧ s.wlinkRun l = true
      ∧ s.punctFits l punct = true ∧ (s.wlink l).due[i]? = some p ∧ s.ppduHanded l p = false
      ∧ s.ppduMay l p (p.launch.getD launch) (1000 * (if p.air = 0 then air else p.air)) = true ∧ s.netTime ≤ p.launch.getD launch) ∧
  (∃ (s : State) (l : Nat) (k : Nat) (launch : Int) (air : Nat) (punct : Nat), l < 3 ∧ s.active 5 = true ∧ s.wlinkRun l = true ∧ s.punctFits l punct = true
      ∧ 1 ≤ k ∧ k ≤ 16 ∧ k ≤ (s.linkPaths l).length
      ∧ s.ppduMay l { WacPpdu.new 7 s.wac.next 3 air with streams := [k], beams := (List.range k).map (32752 + ·), punct := punct } launch (1000 * air) = true
      ∧ s.netTime ≤ launch) ∧
  (∃ (s : State) (l : Nat) (hdr : Bool) (launch : Int) (air : Nat) (punct : Nat), l < 3 ∧ s.active 5 = true ∧ s.wlinkRun l = true
      ∧ s.punctFits l punct = true ∧ linkBand s.linkPlan l ≤ 1
      ∧ s.ppduMay l { WacPpdu.new 8 s.wac.next 3 air with streams := [1], beams := [s.wfld 5 (16 * l) 0x16 2], rate := if hdr = true then 2500 else 625, punct := punct } launch (1000 * air) = true
      ∧ s.netTime ≤ launch) ∧
  (∃ (s : State) (at_ : Int) (e : Int) (cs : List FhSec), s.fhRuns = true ∧ s.fhNext = some (at_, e, cs) ∧ s.netTime ≤ at_) ∧
  (∃ (s : State) (num : Nat) (d : TxaDl), s.txa.sched.find? (fun x => x.num == num && x.win == 1 && !x.shown) = some d ∧ s.txaOn = true
      ∧ s.chUsed d.ch = true ∧ chFlag s.linkPlan d.ch 1 = true ∧ s.netTime ≤ d.launch) ∧
  (∃ (s : State) (num : Nat) (d : TxaDl), s.txa.sched.find? (fun x => x.num == num && x.win == 2 && !x.shown) = some d ∧ s.txaOn = true
      ∧ s.chUsed d.ch = true ∧ chFlag s.linkPlan d.ch 1 = true ∧ s.netTime ≤ d.launch) ∧
  (∃ (s : State) (id : Nat) (q : Nat) (x : Tx) (bs : List (Nat × Nat)), s.radio.txs.find? (fun y => y.id == id) = some x ∧ x.start = none
      ∧ Tx.home { x with paths := s.txPaths x } = some q ∧ (s.txPaths x).all (s.txGate x ·) = true
      ∧ s.txStartAt x (s.txPaths x) q - (s.txLead q + s.dead q : Nat) ≤ s.netTime ∧ s.netTime ≤ s.txStartAt x (s.txPaths x) q
      ∧ s.txStartAt x (s.txPaths x) q ≤ x.launch + 10 * s.get Fld.FEN_PROT_CFG.LATE_TOL [q] ∧ s.filtered x (s.txPaths x) = true
      ∧ s.guard x ((s.txPaths x).map (fun g => (g, s.pnom x g))) = some bs ∧ s.radio.coex.all (fun c => !c.req) = true) ∧
  (∃ (s : State) (id : Nat) (x : Tx), s.radio.txs.find? (fun y => y.id == id) = some x ∧ x.start = none ∧ (s.txPaths x).all (s.txGate x ·) = false
      ∧ x.launch + 10 * s.get Fld.FEN_PROT_CFG.LATE_TOL [(Tx.home { x with paths := s.txPaths x }).getD 0] < s.netTime + s.txLead ((Tx.home { x with paths := s.txPaths x }).getD 0) + s.dead ((Tx.home { x with paths := s.txPaths x }).getD 0)) ∧
  (∃ (s : State) (id : Nat) (x : Tx), s.radio.txs.find? (fun y => y.id == id) = some x ∧ x.start = none ∧ (s.txPaths x).all (s.txGate x ·) = true
      ∧ x.launch + 10 * s.get Fld.FEN_PROT_CFG.LATE_TOL [(Tx.home { x with paths := s.txPaths x }).getD 0] < s.txStartAt x (s.txPaths x) ((Tx.home { x with paths := s.txPaths x }).getD 0)) ∧
  (∃ (s : State) (id : Nat) (x : Tx), s.radio.txs.find? (fun y => y.id == id) = some x ∧ x.start.isSome = true ∧ x.startAt + x.dur ≤ s.now) :=
  ⟨⟨((upPlan.set Fld.WAC_LINK_CFG.EN [0] 1).wlinkUpd 0 (fun x => { x with due := [⟨6, 3, 0, [], [], [], 0, [], 44, none, 0, 0, []⟩] })), 0, 0, 50, 44, 0, ⟨6, 3,
      0, [], [], [], 0, [], 44, none, 0, 0, []⟩, by decide +kernel⟩,
  ⟨(upPlan.set Fld.WAC_LINK_CFG.EN [0] 1), 0, 3, 300000, 44, 0, by decide +kernel⟩,
  ⟨(upPlan.set Fld.WAC_LINK_CFG.EN [0] 1), 0, true, 300000, 44, 0, by decide +kernel⟩,
  ⟨upFh, 1000000, 1035714, [fhSecA], by decide +kernel⟩,
  ⟨upDl 1, 4, dlA 1, by decide +kernel⟩,
  ⟨upDl 2, 4, dlA 2, by decide +kernel⟩,
  ⟨upGo, 5, 0, txGo, (List.range 16).map (fun g => (g, 0)), by decide +kernel⟩,
  ⟨{ upTx with radio := { upTx.radio with txs := [{ txA with start := none, startAt := 0 }] }, ntu := { upTx.ntu with raw := 10000 } }, 5,
      { txA with start := none, startAt := 0 }, by decide +kernel⟩,
  ⟨(State.radUpd { upGo with now := 100000000, ntu := { upGo.ntu with raw := 100000000 } } (fun r => { r with quads := r.quads.map (fun d => { d with paths := d.paths.map (fun p => { p with gateAt := 100000000 }) }) })),
      5, txGo, by decide +kernel⟩,
  ⟨{ upTx with now := 5100 }, 5, txA, by decide +kernel⟩⟩

/-- States that meet the hypotheses of `ArrayCommandsComplete`, one for each clause. -/
theorem wit_ArrayCommandsComplete :
  (∃ (s : State) (rq : Req) (q : Nat) (v : Word), s.canonical = true ∧ s.shaped ∧ q < 4 ∧ Passes s rq .DFE_TXF_CTL [q] true ∧ 10 ≤ wbits v 15 8
      ∧ wbits v 15 8 ≤ 100 ∧ s.routeHere q (wbits v 7 4) = true) ∧
  (∃ (s : State) (q : Nat) (route : Nat) (id : Nat), s.shaped ∧ q < 4 ∧ s.active q = true ∧ s.routeHere q route = true ∧ s.beamRec q route id = none) ∧
  (∃ (s : State) (q : Nat) (route : Nat) (id : Nat) (b : BeamRec), s.canonical = true ∧ s.shaped ∧ q < 4
      ∧ (s.quad q).beams.filter (fun x => x.route == route && x.id == id) = [b] ∧ b.fetching = true ∧ s.active q = true
      ∧ ((s.quad q).beams.map BeamRec.size).sum + BeamRec.size { b with bytes := s.beamLoad q route id } ≤ 2097152) ∧
  (∃ (s : State) (rq : Req) (q : Nat) (v : Word), s.canonical = true ∧ s.shaped ∧ q < 4 ∧ Passes s rq .BEAM_COMMIT [q] true ∧ s.beamDue q v = true) ∧
  (∃ (s : State) (rq : Req) (q : Nat) (p : Nat) (v : Word), s.canonical = true ∧ s.shaped ∧ q < 4 ∧ p < 16 ∧ Passes s rq .DPD_COMMIT [q, p] true
      ∧ dpdShadowOk p (s.dpdShadow q p (wbits v 2 0)) = true) ∧
  (∃ (s : State) (q : Nat) (p : Nat) (at_ : Nat) (w : List Word) (e : Nat), s.canonical = true ∧ s.shaped ∧ q < 4 ∧ p < 16
      ∧ (s.pathSt (16 * q + p)).txSince = some at_ ∧ s.active q = true ∧ at_ + 2000000 ≤ s.now ∧ (s.dpdSet q p (s.get Fld.DPD_STAT.RUN_SET [q,
      p])).pending = some (w, e)) ∧
  (∃ (s : State) (q : Nat) (p : Nat) (at_ : Nat) (tx : Bool), s.canonical = true ∧ s.shaped ∧ q < 4 ∧ p < 16
      ∧ (if tx = true then (s.pathSt (16 * q + p)).txSince else if s.pathState (16 * q + p) = 1 then some (s.pathSt (16 * q + p)).rxSince else none) = some at_
      ∧ s.active q = true ∧ at_ + 2000000 ≤ s.now ∧ (s.runCal (16 * q + p)).path = p ∧ (s.runCal (16 * q + p)).set = s.runSet q p) :=
  ⟨⟨upRt, .core 0, 2, 0x3210, by decide +kernel⟩,
  ⟨upRt, 2, 1, 77, by decide +kernel⟩,
  ⟨(upRt.quadUpd 2 (fun d => { d with beams := [⟨1, 8, none, none, true, 0⟩, ⟨1, 7, none, none, true, 0⟩] })), 2, 1, 7, ⟨1, 7, none, none, true, 0⟩,
      by decide +kernel⟩,
  ⟨(upRt.quadUpd 2 (fun d => { d with beams := [⟨1, 7, none, none, true, 0⟩] })), .core 0, 2, 0x01000007, by decide +kernel⟩,
  ⟨upRt, .core 0, 2, 9, 0, by decide +kernel⟩,
  ⟨{ ((upRt.pathUpd 35 (fun x => { x with txSince := some 0 })).quadUpd 2 (fun d => { d with dpd := [⟨3, 0, [], [], some ([1, 2], 0), false, none⟩] })) with now := 2000000 },
      2, 3, 0, [1, 2], 0, by decide +kernel⟩,
  ⟨{ (upRt.pathUpd 35 (fun x => { x with txSince := some 0 })) with now := 2000000 }, 2, 3, 0, true, by decide +kernel⟩⟩

/-- States that meet the hypotheses of `ObservationCommandsComplete`, one for each clause. -/
theorem wit_ObservationCommandsComplete :
  (∃ (s : State) (q : Nat) (r : Nat) (p : Nat) (c : Nat), s.shaped ∧ q < 4 ∧ r < 2 ∧ s.active q = true ∧ (s.quad q).visits[r]? = some none
      ∧ ((s.quad q).cal.quietUntil[r]?).getD 0 ≤ s.now ∧ s.nextVisit q r = some (p, c)) ∧
  (∃ (s : State) (q : Nat) (r : Nat) (x : OrxVisit), s.canonical = true ∧ s.shaped ∧ q < 4 ∧ r < 2 ∧ (s.quad q).visits[r]? = some (some x) ∧ x.path < 16
      ∧ x.at_ + s.visitNs q ≤ s.now) ∧
  (∃ (s : State) (q : Nat) (p : Nat) (x : Tx), s.shaped ∧ q < 4 ∧ p < 16 ∧ s.active q = true
      ∧ (s.pathSt (16 * q + p)).causes.any (fun c => c == 1 || c == 2) = true ∧ (s.pathSt (16 * q + p)).causes.all (fun c => c == 1 || c == 2) = true
      ∧ s.get Fld.FEN_PROT_CFG.ANT_RETRY [q] ≠ 0 ∧ (s.pathSt (16 * q + p)).retried + s.get Fld.FEN_PROT_CFG.ANT_RETRY [q] * 10000000 ≤ s.now
      ∧ s.radio.txs.find? (fun y => y.start.isNone && y.role == s.pathRole (16 * q + p)) = some x) ∧
  (∃ (s : State) (rq : Req) (q : Nat) (d : Nat) (rest : List Nat), s.shaped ∧ q < 4 ∧ Passes s rq .ORX_CAP_POP [q] false ∧ (s.quad q).capQ = d :: rest) ∧
  (∃ (s : State) (rq : Req) (q : Nat) (v : Word), s.shaped ∧ q < 4 ∧ Passes s rq .ORX_SLOT_FREE [q] true
      ∧ (((s.quad q).visits[wbits v 4 4]?).getD none).any (fun x => x.slot == some (wbits v 3 0)) = false) :=
  ⟨⟨upOrx, 0, 0, 3, 2, by decide +kernel⟩,
  ⟨{ (upOrx.quadUpd 1 (fun d => { d with visits := [none, some ⟨9, 0, 2, 0, none, false⟩] })) with now := 1000000000 }, 1, 1, ⟨9, 0, 2, 0, none, false⟩,
      by decide +kernel⟩,
  ⟨{ (upGo.pathUpd 4 (fun x => { x with causes := [1] })) with now := 100000000000 }, 0, 4, txGo, by decide +kernel⟩,
  ⟨(up.quadUpd 1 (fun d => { d with capQ := [35, 7] })), .core 0, 1, 35, [7], by decide +kernel⟩,
  ⟨(up.quadUpd 1 (fun d => { d with slots := [[1], [2, 3]] })), .core 0, 1, 0x13, by decide +kernel⟩⟩

/-- States that meet the hypotheses of `CalibrationRunCommandsComplete`, one for each clause. -/
theorem wit_CalibrationRunCommandsComplete :
  (∃ (s : State) (rq : Req) (q : Nat), s.canonical = true ∧ s.shaped ∧ q < 4 ∧ Passes s rq .CAL_CTL [q] true) ∧
  (∃ (s : State) (rq : Req) (q : Nat), s.canonical = true ∧ s.shaped ∧ q < 4 ∧ Passes s rq .CAL_CTL [q] true ∧ (s.cal q).run ≠ none
      ∧ s.get Fld.CAL_STAT.STATE [q] ≠ 3) ∧
  (∃ (s : State) (q : Nat) (owner : Nat) (r : CalRun), s.canonical = true ∧ s.shaped ∧ q < 4 ∧ (s.cal q).run = some r ∧ s.get Fld.CAL_STAT.STATE [q] = 1
      ∧ s.calOwners q r.paths = [owner] ∧ r.offers = []
      ∧ s.ownerMeets q owner r.paths (1000 * (r.durUs : Int)) (s.ownerOffer q owner r.paths (1000 * (r.durUs : Int)) 65536 r.earliest) = none
      ∧ s.gapClash q (s.ownerOffer q owner r.paths (1000 * (r.durUs : Int)) 65536 r.earliest) (1000 * r.durUs) = none
      ∧ s.calClash q r.paths (s.ownerOffer q owner r.paths (1000 * (r.durUs : Int)) 65536 r.earliest) (1000 * r.durUs) = false) ∧
  (∃ (s : State) (q : Nat) (r : CalRun) (w : Int), s.canonical = true ∧ s.shaped ∧ q < 4 ∧ (s.cal q).run = some r ∧ r.booked = some w
      ∧ s.get Fld.CAL_STAT.STATE [q] = 2 ∧ w ≤ s.netTime) ∧
  (∃ (s : State) (q : Nat) (r : CalRun) (w : Int), s.canonical = true ∧ s.shaped ∧ q < 4 ∧ (s.cal q).run = some r ∧ r.booked = some w
      ∧ s.get Fld.CAL_STAT.STATE [q] = 3 ∧ w + 1000 * r.durUs ≤ s.netTime) ∧
  (∃ (s : State) (q : Nat) (r : CalRun) (w : Int), s.canonical = true ∧ s.shaped ∧ q < 4 ∧ (s.cal q).run = some r ∧ r.booked = some w
      ∧ s.get Fld.CAL_STAT.STATE [q] = 2 ∧ s.netTime < w ∧ r.forced = false ∧ s.calOwners q r.paths ≠ [] ∧ s.calClash q r.paths w (1000 * r.durUs) = true) ∧
  (∃ (s : State) (q : Nat) (r : CalRun), s.canonical = true ∧ s.shaped ∧ q < 4 ∧ (s.cal q).run = some r ∧ s.get Fld.CAL_STAT.STATE [q] = 1
      ∧ r.since + max 1 (s.get Fld.CAL_CFG.CAL_MAX_DEFER [q]) * 1000000 ≤ s.now) :=
  ⟨⟨upA, .core 0, 0, by decide +kernel⟩,
  ⟨(upA.calUpd 3 (fun c => { c with run := some runA })), .core 0, 3, by decide +kernel⟩,
  ⟨((upL.set Fld.CAL_STAT.STATE [0] 1).calUpd 0 (fun c => { c with run := some runA })), 0, 2, runA, by decide +kernel⟩,
  ⟨((upTx.set Fld.CAL_STAT.STATE [0] 2).calUpd 0 (fun c => { c with run := some { runA with booked := some 0 } })), 0, { runA with booked := some 0 }, 0,
      by decide +kernel⟩,
  ⟨((upTx.set Fld.CAL_STAT.STATE [0] 3).calUpd 0 (fun c => { c with run := some { runA with booked := some (-500000) } })), 0,
      { runA with booked := some (-500000) }, -500000, by decide +kernel⟩,
  ⟨(({ upA with radio := { upA.radio with txs := [{ txGo with launch := 5000 }] } }.set Fld.CAL_STAT.STATE [0] 2).calUpd 0 (fun c => { c with run := some { runA with booked := some 4000 } })),
      0, { runA with booked := some 4000 }, 4000, by decide +kernel⟩,
  ⟨{ ((upTx.set Fld.CAL_STAT.STATE [0] 1).calUpd 0 (fun c => { c with run := some runA })) with now := 100000000000 }, 0, runA, by decide +kernel⟩⟩

/-- States that meet the hypotheses of `CalibrationSetCommandsComplete`, one for each clause. -/
theorem wit_CalibrationSetCommandsComplete :
  (∃ (s : State) (q : Nat) (p : Nat) (n : Nat) (w : Word), s.canonical = true ∧ s.shaped ∧ q < 4 ∧ p < 16 ∧ s.active q = true
      ∧ s.flag Fld.CAL_CTL.AUTO_DIG [q] = true ∧ 2 ≤ n ∧ n ≤ 7 ∧ (s.cal q).stuck.contains (p, n) = false ∧ (s.cal q).committed ≠ some (p, s.runSet q p,
      s.now) ∧ (s.calSet q p (s.runSet q p)).active.length = 32 ∧ (s.calSet q p (s.runSet q p)).path = p ∧ (s.calSet q p (s.runSet q p)).set = s.runSet q p
      ∧ calAbsOk n w = true ∧ calStepOk n (wordAt (s.calSet q p (s.runSet q p)).active n) w = true) ∧
  (∃ (s : State) (q : Nat) (r : Nat) (elem : Nat), s.canonical = true ∧ s.shaped ∧ q < 4 ∧ r < 2 ∧ elem < 3 ∧ s.active q = true
      ∧ (s.cal q).elemDue.contains r = true ∧ (s.quad q).visits[r]? = some none) ∧
  (∃ (s : State) (rq : Req) (q : Nat), s.shaped ∧ q < 4 ∧ Passes s rq .CAL_COMMIT [q] true ∧ okCal .CAL_COMMIT [q] 1 rq s = true
      ∧ (s.winSet q).path = s.get Fld.CAL_WIN_SEL.PATH [q] ∧ (s.winSet q).set = s.get Fld.CAL_WIN_SEL.SET [q]
      ∧ s.pathRole (16 * q + s.get Fld.CAL_WIN_SEL.PATH [q]) = 0) ∧
  (∃ (s : State) (rq : Req) (q : Nat), s.shaped ∧ q < 4 ∧ Passes s rq .CAL_COMMIT [q] true ∧ (s.winSet q).path = s.get Fld.CAL_WIN_SEL.PATH [q]
      ∧ (s.winSet q).set = s.get Fld.CAL_WIN_SEL.SET [q]) ∧
  (∃ (s : State) (rq : Req) (q : Nat) (v : Word), s.canonical = true ∧ Passes s rq .CAL_RED [q] true ∧ okCal .CAL_RED [q] v rq s = true) ∧
  (∃ (s : State) (rq : Req) (q : Nat) (v : Word), s.canonical = true ∧ Passes s rq .CAL_XP_CTL [q] true ∧ s.xpBlocked q = none ∧ wbits v 15 8 ≠ 0) ∧
  (∃ (s : State) (rq : Req) (q : Nat), s.canonical = true ∧ Passes s rq .CAL_XP_CTL [q] true ∧ s.xpBlocked q = none) :=
  ⟨⟨upA, 0, 15, 2, 0x01000010, by decide +kernel⟩,
  ⟨(upA.calUpd 2 (fun c => { c with elemDue := [0, 1] })), 2, 1, 2, by decide +kernel⟩,
  ⟨(up.setCal 1 calA), .core 0, 1, by decide +kernel⟩,
  ⟨(up.setCal 1 calA), .core 0, 1, by decide +kernel⟩,
  ⟨upA, .core 0, 0, 0xE06, by decide +kernel⟩,
  ⟨upA, .core 0, 0, 0x100, by decide +kernel⟩,
  ⟨upA, .core 0, 0, by decide +kernel⟩⟩

/-- States that meet the hypotheses of `HousekeepingCommandsComplete`, one for each clause. -/
theorem wit_HousekeepingCommandsComplete :
  (∃ (s : State) (c : Nat) (n : Nat) (codes : List Nat), s.canonical = true ∧ c < 2 ∧ n < 63 ∧ s.mode ≠ 0 ∧ bitOf (s.get Fld.HKA_CFG.EN) c = true
      ∧ s.flag Fld.HKA_CH.EN [c, n] = true ∧ s.hkaLive c n = true ∧ s.sized ∧ s.hkaNext c ((s.radio.hka.scan[c]?).getD 63) = some n
      ∧ codes.length = 2 ^ s.get Fld.HKA_CH.AVG_LOG2 [c, n] ∧ (∀ x ∈ codes, x < 4096)) ∧
  (∃ (s : State) (rq : Req) (e : Nat × Nat × Nat) (rest : List (Nat × Nat × Nat)), Passes s rq .HKA_POP [] false ∧ s.radio.hka.queue = e :: rest) ∧
  (∃ (s : State), s.canonical = true ∧ s.mode ≠ 0 ∧ s.get Fld.HKA_CFG.CHK_PERIOD ≠ 0 ∧ s.get Fld.HKA_CFG.EN = 3
      ∧ s.radio.hka.checkAt + s.get Fld.HKA_CFG.CHK_PERIOD * 100000 ≤ s.now) :=
  ⟨⟨upH, 1, 5, List.replicate 16 3000, by decide +kernel⟩,
  ⟨{ up with radio := { up.radio with hka := { up.radio.hka with queue := [(1, 2, 3), (0, 1, 2)] } } }, .core 0, (1, 2, 3), [(0, 1, 2)], by decide +kernel⟩,
  ⟨{ (up.set Fld.HKA_CFG.EN [] 3).set Fld.HKA_CFG.CHK_PERIOD [] 1 with now := 100000 }, by decide +kernel⟩⟩

/-- States that meet the hypotheses of `ReceiverCommandsComplete`, one for each clause. -/
theorem wit_ReceiverCommandsComplete :
  (∃ (s : State) (l : Nat) (rssi : Int) (dsss : Bool) (subs : Nat) (beams : List Nat), s.canonical = true ∧ s.shaped ∧ s.phyHears l = true
      ∧ s.phyScans l beams = true ∧ s.phySubs l subs ≠ 0 ∧ s.lvl Fld.PHY_CCA_CFG.PD_LVL l ≤ rssi ∧ ((dsss = true → linkBand s.linkPlan l = 0))
      ∧ (s.phy l).st = 0) ∧
  (∃ (s : State) (l : Nat) (rssi : Int) (dsss : Bool) (subs : Nat) (beams : List Nat), s.canonical = true ∧ s.shaped ∧ s.phyHears l = true
      ∧ s.phyScans l beams = true ∧ s.phySubs l subs ≠ 0 ∧ s.lvl Fld.PHY_CCA_CFG.PD_LVL l ≤ rssi ∧ ((dsss = true → linkBand s.linkPlan l = 0))
      ∧ (s.phy l).st = 1) ∧
  (∃ (s : State) (l : Nat) (f : SigField) (p : Ppdu) (x : PhyRx), s.shaped ∧ s.phyHears l = true ∧ (s.phy l).st = 1 ∧ (s.phy l).rx = some x
      ∧ sigInTurn x f = true ∧ sigPasses x p.format f = true) ∧
  (∃ (s : State) (l : Nat) (f : SigField) (p : Ppdu) (x : PhyRx), s.canonical = true ∧ s.shaped ∧ s.phyHears l = true ∧ (s.phy l).st = 1
      ∧ (s.phy l).rx = some x ∧ sigInTurn x f = true ∧ x.stage ≠ 9 ∧ sigPasses x p.format f = false ∧ (s.phy l).cand = none) ∧
  (∃ (s : State) (l : Nat) (f : SigField) (p : Ppdu) (x : PhyRx) (y : PhyRx), s.canonical = true ∧ s.shaped ∧ s.phyHears l = true ∧ (s.phy l).st = 1
      ∧ (s.phy l).rx = some x ∧ sigInTurn x f = true ∧ x.stage ≠ 9 ∧ sigPasses x p.format f = false ∧ (s.phy l).cand = some y ∧ s.now ≤ y.seen + 16000) ∧
  (∃ (s : State) (l : Nat) (x : PhyRx), s.canonical = true ∧ s.shaped ∧ s.phyHears l = true ∧ (s.phy l).st = 1 ∧ (s.phy l).rx = some x ∧ x.stage = 9
      ∧ (s.phy l).cand = none) ∧
  (∃ (s : State) (l : Nat) (rssi : Int) (x : PhyRx), s.canonical = true ∧ s.shaped ∧ s.phyHears l = true ∧ (s.phy l).st = 1 ∧ (s.phy l).rx = some x
      ∧ x.rssi + s.get Fld.PHY_CFG.RESTART_MARGIN [l] ≤ rssi) ∧
  (∃ (s : State) (l : Nat) (rssi : Int) (x : PhyRx) (e : Nat), s.canonical = true ∧ s.shaped ∧ s.phyHears l = true ∧ 2 ≤ (s.phy l).st ∧ (s.phy l).rx = some x
      ∧ s.flag Fld.PHY_CFG.CAPTURE_EN [l] = true ∧ x.solicited = false ∧ x.ends = some e ∧ x.rssi + s.get Fld.PHY_CFG.CAPTURE_MARGIN [l] ≤ rssi) ∧
  (∃ (s : State) (l : Nat) (x : PhyRx) (e : Nat), s.shaped ∧ (s.phy l).st = 2 ∧ (s.phy l).rx = some x ∧ x.ends = some e ∧ e ≤ s.now) ∧
  (∃ (s : State) (l : Nat) (x : PhyRx) (e : Nat), s.shaped ∧ (s.phy l).st = 3 ∧ (s.phy l).rx = some x ∧ x.ends = some e ∧ e ≤ s.now) ∧
  (∃ (s : State) (l : Nat) (below : Nat), s.shaped ∧ (s.phy l).falseHold = true ∧ 4000 ≤ below) ∧
  (∃ (s : State) (l : Nat) (b : Nat), s.canonical = true ∧ s.shaped ∧ l < 3 ∧ s.active 4 = true ∧ s.get Fld.PHY_CCA_CFG.CCA_STUCK [l] ≠ 0
      ∧ ((s.phyDo l id).phy l).busyFrom = some b ∧ b + s.get Fld.PHY_CCA_CFG.CCA_STUCK [l] * 10000000 ≤ s.now
      ∧ (s.phyDo l id).flag Fld.PHY_CCA_STAT.STUCK [l] = false) ∧
  (∃ (s : State) (l : Nat) (sub : Nat), s.canonical = true ∧ s.shaped ∧ l < 3 ∧ s.active 4 = true ∧ sub < 2 ^ linkBw s.linkPlan l) ∧
  (∃ (s : State) (l : Nat) (sub : Nat), s.canonical = true ∧ s.shaped ∧ l < 3 ∧ s.active 4 = true ∧ sub < 2 ^ linkBw s.linkPlan l) ∧
  (∃ (s : State) (d : Nat) (arrivals : List (Nat × Nat)) (l : Nat) (num : Nat) (u : Nat), s.canonical = true ∧ s.shaped ∧ l < 3 ∧ s.active 4 = true
      ∧ (∀ e ∈ arrivals, (s.phy e.1).st ≠ 2) ∧ (s.bb.ldpcDec[d]?).getD none = some (l, num, u)) ∧
  (∃ (s : State) (d : Nat) (l : Nat) (u : Nat) (x : PhyRx) (y : PhyUser), s.shaped ∧ s.active 4 = true ∧ (s.phy l).st = 2 ∧ (s.phy l).rx = some x
      ∧ x.users[u]? = some y ∧ s.bb.ldpcDec.length ≤ d ∧ s.ldpcLevel < 4096) :=
  ⟨⟨upPl, 0, -328, true, 1, [], by decide +kernel⟩,
  ⟨(upPl.phyUpd 0 (fun p => { p with st := 1, rx := some { num := 0, rssi := -200, dsss := false, stamp := 0, begun := 0, seen := 0, paths := [0, 1], subs := 1, restarted := false, captured := true, stage := 0, rate := 0, length := 0, ends := none, fmt := 0, bw := 0, gi := 0, snr := 0, users := [], solicited := false } })),
      0, -328, true, 1, [], by decide +kernel⟩,
  ⟨(upPl.phyUpd 0 (fun p => { p with st := 1, rx := some { num := 0, rssi := -200, dsss := false, stamp := 0, begun := 0, seen := 0, paths := [0, 1], subs := 1, restarted := false, captured := true, stage := 0, rate := 0, length := 0, ends := none, fmt := 0, bw := 0, gi := 0, snr := 0, users := [], solicited := false } })),
      0, .lsig true 6 100 true, ⟨4, 0, 1, 0, 0, 0, []⟩,
      { num := 0, rssi := -200, dsss := false, stamp := 0, begun := 0, seen := 0, paths := [0, 1], subs := 1, restarted := false, captured := true, stage := 0, rate := 0, length := 0, ends := none, fmt := 0, bw := 0, gi := 0, snr := 0, users := [], solicited := false },
      by decide +kernel⟩,
  ⟨(upPl.phyUpd 0 (fun p => { p with st := 1, rx := some { num := 0, rssi := -200, dsss := false, stamp := 0, begun := 0, seen := 0, paths := [0, 1], subs := 1, restarted := false, captured := true, stage := 0, rate := 0, length := 0, ends := none, fmt := 0, bw := 0, gi := 0, snr := 0, users := [], solicited := false } })),
      0, .lsig false 6 100 true, ⟨4, 0, 1, 0, 0, 0, []⟩,
      { num := 0, rssi := -200, dsss := false, stamp := 0, begun := 0, seen := 0, paths := [0, 1], subs := 1, restarted := false, captured := true, stage := 0, rate := 0, length := 0, ends := none, fmt := 0, bw := 0, gi := 0, snr := 0, users := [], solicited := false },
      by decide +kernel⟩,
  ⟨(upPl.phyUpd 0 (fun p => { p with st := 1, rx := some { num := 0, rssi := -200, dsss := false, stamp := 0, begun := 0, seen := 0, paths := [0, 1], subs := 1, restarted := false, captured := true, stage := 3, rate := 0, length := 0, ends := some 900, fmt := 0, bw := 0, gi := 0, snr := 0, users := [], solicited := false }, cand := some { num := 0, rssi := -200, dsss := false, stamp := 0, begun := 0, seen := 0, paths := [0, 1], subs := 1, restarted := false, captured := true, stage := 3, rate := 0, length := 0, ends := some 900, fmt := 0, bw := 0, gi := 0, snr := 0, users := [], solicited := false } })),
      0, .sigB false, ⟨4, 0, 1, 0, 0, 0, []⟩,
      { num := 0, rssi := -200, dsss := false, stamp := 0, begun := 0, seen := 0, paths := [0, 1], subs := 1, restarted := false, captured := true, stage := 3, rate := 0, length := 0, ends := some 900, fmt := 0, bw := 0, gi := 0, snr := 0, users := [], solicited := false },
      { num := 0, rssi := -200, dsss := false, stamp := 0, begun := 0, seen := 0, paths := [0, 1], subs := 1, restarted := false, captured := true, stage := 3, rate := 0, length := 0, ends := some 900, fmt := 0, bw := 0, gi := 0, snr := 0, users := [], solicited := false },
      by decide +kernel⟩,
  ⟨(upPl.phyUpd 0 (fun p => { p with st := 1, rx := some { num := 0, rssi := -200, dsss := false, stamp := 0, begun := 0, seen := 0, paths := [0, 1], subs := 1, restarted := false, captured := true, stage := 9, rate := 0, length := 0, ends := none, fmt := 0, bw := 0, gi := 0, snr := 0, users := [], solicited := false } })),
      0, { num := 0, rssi := -200, dsss := false, stamp := 0, begun := 0, seen := 0, paths := [0, 1], subs := 1, restarted := false, captured := true, stage := 9, rate := 0, length := 0, ends := none, fmt := 0, bw := 0, gi := 0, snr := 0, users := [], solicited := false },
      by decide +kernel⟩,
  ⟨(upPl.phyUpd 0 (fun p => { p with st := 1, rx := some { num := 0, rssi := -200, dsss := false, stamp := 0, begun := 0, seen := 0, paths := [0, 1], subs := 1, restarted := false, captured := true, stage := 0, rate := 0, length := 0, ends := none, fmt := 0, bw := 0, gi := 0, snr := 0, users := [], solicited := false } })),
      0, -184, { num := 0, rssi := -200, dsss := false, stamp := 0, begun := 0, seen := 0, paths := [0, 1], subs := 1, restarted := false, captured := true, stage := 0, rate := 0, length := 0, ends := none, fmt := 0, bw := 0, gi := 0, snr := 0, users := [], solicited := false },
      by decide +kernel⟩,
  ⟨(upPl.phyUpd 0 (fun p => { p with st := 3, rx := some { num := 0, rssi := -200, dsss := false, stamp := 0, begun := 0, seen := 0, paths := [0, 1], subs := 1, restarted := false, captured := true, stage := 4, rate := 0, length := 0, ends := some 500, fmt := 0, bw := 0, gi := 0, snr := 0, users := [], solicited := false } })),
      0, -160, { num := 0, rssi := -200, dsss := false, stamp := 0, begun := 0, seen := 0, paths := [0, 1], subs := 1, restarted := false, captured := true, stage := 4, rate := 0, length := 0, ends := some 500, fmt := 0, bw := 0, gi := 0, snr := 0, users := [], solicited := false },
      500, by decide +kernel⟩,
  ⟨(upPl.phyUpd 0 (fun p => { p with st := 2, rx := some { num := 0, rssi := -200, dsss := false, stamp := 0, begun := 0, seen := 0, paths := [0, 1], subs := 1, restarted := false, captured := true, stage := 4, rate := 0, length := 0, ends := some 0, fmt := 0, bw := 0, gi := 0, snr := 0, users := [⟨1, 0, 0, 1, true, false, false, 100, false, 0, false, true, false⟩], solicited := false } })),
      0, { num := 0, rssi := -200, dsss := false, stamp := 0, begun := 0, seen := 0, paths := [0, 1], subs := 1, restarted := false, captured := true, stage := 4, rate := 0, length := 0, ends := some 0, fmt := 0, bw := 0, gi := 0, snr := 0, users := [⟨1, 0, 0, 1, true, false, false, 100, false, 0, false, true, false⟩], solicited := false },
      0, by decide +kernel⟩,
  ⟨(upPl.phyUpd 0 (fun p => { p with st := 3, rx := some { num := 0, rssi := -200, dsss := false, stamp := 0, begun := 0, seen := 0, paths := [0, 1], subs := 1, restarted := false, captured := true, stage := 4, rate := 0, length := 0, ends := some 0, fmt := 0, bw := 0, gi := 0, snr := 0, users := [⟨1, 0, 0, 1, true, false, false, 100, false, 0, false, true, false⟩], solicited := false } })),
      0, { num := 0, rssi := -200, dsss := false, stamp := 0, begun := 0, seen := 0, paths := [0, 1], subs := 1, restarted := false, captured := true, stage := 4, rate := 0, length := 0, ends := some 0, fmt := 0, bw := 0, gi := 0, snr := 0, users := [⟨1, 0, 0, 1, true, false, false, 100, false, 0, false, true, false⟩], solicited := false },
      0, by decide +kernel⟩,
  ⟨(upPlan.phyUpd 0 (fun p => { p with falseHold := true })), 0, 4000, by decide +kernel⟩,
  ⟨{ upPlan.phyUpd 0 (fun p => { p with ed := 1, busyFrom := some 0 }) with now := 100000000 }, 0, 0, by decide +kernel⟩,
  ⟨upPlan, 0, 0, by decide +kernel⟩,
  ⟨upPlan, 0, 0, by decide +kernel⟩,
  ⟨((upPl.phyUpd 0 (fun p => { p with st := 2, rx := some { num := 0, rssi := -200, dsss := false, stamp := 0, begun := 0, seen := 0, paths := [0, 1], subs := 1, restarted := false, captured := true, stage := 4, rate := 0, length := 0, ends := some 900, fmt := 0, bw := 0, gi := 0, snr := 0, users := [⟨1, 0, 0, 1, true, false, false, 100, false, 2, false, true, false⟩], solicited := false } })).bbUpd (fun b => { b with ldpcDec := b.ldpcDec.set 7 (some (0, 0, 0)) })),
      7, [(1, 0)], 0, 0, 0, by decide +kernel⟩,
  ⟨(upPl.phyUpd 0 (fun p => { p with st := 2, rx := some { num := 0, rssi := -200, dsss := false, stamp := 0, begun := 0, seen := 0, paths := [0, 1], subs := 1, restarted := false, captured := true, stage := 4, rate := 0, length := 0, ends := some 900, fmt := 0, bw := 0, gi := 0, snr := 0, users := [⟨1, 0, 0, 1, true, false, false, 100, false, 2, false, true, false⟩], solicited := false } })),
      32, 0, 0, { num := 0, rssi := -200, dsss := false, stamp := 0, begun := 0, seen := 0, paths := [0, 1], subs := 1, restarted := false, captured := true, stage := 4, rate := 0, length := 0, ends := some 900, fmt := 0, bw := 0, gi := 0, snr := 0, users := [⟨1, 0, 0, 1, true, false, false, 100, false, 2, false, true, false⟩], solicited := false },
      ⟨1, 0, 0, 1, true, false, false, 100, false, 2, false, true, false⟩, by decide +kernel⟩⟩

/-- States that meet the hypotheses of `SoundingAndRadarCommandsComplete`, one for each clause. -/
theorem wit_SoundingAndRadarCommandsComplete :
  (∃ (s : State) (l : Nat) (u : Nat) (tones : List (List Cx)) (x : PhyRx) (y : PhyUser) (i : Nat), s.shaped ∧ s.active 4 = true ∧ 2 ≤ (s.phy l).st
      ∧ s.flag Fld.SND_CFG.EN_UL = true ∧ (s.phy l).rx = some x ∧ x.users[u]? = some y ∧ y.mark = true ∧ s.get Fld.SND_RING_SIZE.SLOTS ≠ 0
      ∧ firstBelow (s.get Fld.SND_RING_SIZE.SLOTS) (fun i => !s.bb.sndUsed.contains i) = some i
      ∧ 64 + 4 * (ceilDiv tones.length (2 ^ s.get Fld.SND_CFG.GROUP_LOG2) * (y.nss * x.paths.length)) ≤ 1024 * max 1 (s.get Fld.SND_RING_SIZE.SLOT_KIB)
      ∧ s.bb.sndQ.length < 256) ∧
  (∃ (s : State) (rq : Req) (w : Word) (rest : List Word), Passes s rq .SND_EST_POP [] false ∧ s.bb.sndQ = w :: rest) ∧
  (∃ (s : State) (rq : Req), Passes s rq .SND_SLOT_FREE [] true) ∧
  (∃ (s : State) (l : Nat) (nr : Nat) (nc : Nat) (angles : List (List Nat)) (i : Nat), l < 3 ∧ s.active 4 = true ∧ s.get Fld.SND_RING_SIZE.SLOTS ≠ 0
      ∧ firstBelow (s.get Fld.SND_RING_SIZE.SLOTS) (fun i => !s.bb.sndUsed.contains i) = some i
      ∧ 64 + 4 * (angles.length * nc * nr) ≤ 1024 * max 1 (s.get Fld.SND_RING_SIZE.SLOT_KIB) ∧ s.bb.sndQ.length < 256) ∧
  (∃ (s : State) (l : Nat) (sub : Nat) (dbm : Int) (i : Nat), s.canonical = true ∧ s.shaped ∧ s.phyHears l = true ∧ dfsIndex (s.subKhz l sub) = some i
      ∧ sub < 2 ^ linkBw s.linkPlan l ∧ s.flag Fld.PHY_DFS_CFG.EN [l] = true ∧ signed 8 (s.get Fld.PHY_DFS_CFG.THR [l]) ≤ dbm ∧ (s.phy l).dfsQ.length < 256) ∧
  (∃ (s : State) (rq : Req) (l : Nat) (i : Nat) (v : Word), s.canonical = true ∧ l < 3 ∧ i < 16 ∧ Passes s rq .PHY_DFS_CTL [l] true
      ∧ bitOf (wbits v 15 0) i = true ∧ s.dfsState l i = 0 ∧ s.dfsCovers l i = true ∧ s.flag Fld.PHY_DFS_CFG.EN [l] = true) ∧
  (∃ (s : State) (l : Nat) (i : Nat), s.canonical = true ∧ l < 3 ∧ i < 16 ∧ s.active 4 = true ∧ s.dfsState l i = 1
      ∧ (((s.phy l).cacAt[i]?).getD 0) + s.get Fld.PHY_DFS_CFG.CAC_S [l] * 10000000000 ≤ s.now) ∧
  (∃ (s : State) (l : Nat) (i : Nat), s.canonical = true ∧ l < 3 ∧ i < 16 ∧ s.active 4 = true ∧ s.dfsState l i = 3
      ∧ (((s.phy l).nopEnds[i]?).getD 0) ≤ s.now) ∧
  (∃ (s : State) (l : Nat), s.shaped ∧ l < 3 ∧ s.active 4 = true ∧ s.serving = true ∧ s.running 4 = true ∧ s.bb.dfsSavedAt + 60000000000 ≤ s.now) ∧
  (∃ (s : State) (rq : Req) (l : Nat) (e : Word × Nat) (rest : List (Word × Nat)), s.canonical = true ∧ s.shaped ∧ l < 3 ∧ Passes s rq .PHY_DFS_POP [l] false
      ∧ (s.phy l).dfsQ = e :: rest) :=
  ⟨⟨((upPl.setReg .SND_RING_SIZE [] 0x10004).phyUpd 0 (fun p => { p with st := 2, rx := some { num := 0, rssi := -200, dsss := false, stamp := 0, begun := 0, seen := 0, paths := [0, 1], subs := 1, restarted := false, captured := true, stage := 4, rate := 0, length := 0, ends := some 900, fmt := 0, bw := 0, gi := 0, snr := 0, users := [⟨1, 0, 0, 1, true, false, false, 100, false, 2, false, true, false⟩], solicited := false } })),
      0, 0, [[(1, 2), (3, 4)], [(5, 6), (0, 0)]],
      { num := 0, rssi := -200, dsss := false, stamp := 0, begun := 0, seen := 0, paths := [0, 1], subs := 1, restarted := false, captured := true, stage := 4, rate := 0, length := 0, ends := some 900, fmt := 0, bw := 0, gi := 0, snr := 0, users := [⟨1, 0, 0, 1, true, false, false, 100, false, 2, false, true, false⟩], solicited := false },
      ⟨1, 0, 0, 1, true, false, false, 100, false, 2, false, true, false⟩, 0, by decide +kernel⟩,
  ⟨(up.bbUpd (fun b => { b with sndQ := [7, 8] })), .core 0, 7, [8], by decide +kernel⟩,
  ⟨(up.bbUpd (fun b => { b with sndUsed := [3, 0] })), .core 0, by decide +kernel⟩,
  ⟨(upPlan.setReg .SND_RING_SIZE [] 0x10004), 2, 2, 1, [[1, 2], [3, 4]], 0, by decide +kernel⟩,
  ⟨({ upPl with plan := { upPlan.plan with recs := ⟨8, 0x10, [1, 1, 0, 0] ++ leBytes 4 5260000 ++ slice lpA 8 500⟩ :: upA.plan.recs } }.setReg .PHY_DFS_CFG [0] 0x401E06C0),
      0, 0, -64, 0, by decide +kernel⟩,
  ⟨({ upPl with plan := { upPlan.plan with recs := ⟨8, 0x10, [1, 1, 0, 0] ++ leBytes 4 5260000 ++ slice lpA 8 500⟩ :: upA.plan.recs } }.setReg .PHY_DFS_CFG [0] 0x401E06C0),
      .core 0, 0, 0, 1, by decide +kernel⟩,
  ⟨{ upPlan.setReg .PHY_DFS_MAP [1] 0x40000000 with now := 60000000000 }, 1, 15, by decide +kernel⟩,
  ⟨{ upPlan.setReg .PHY_DFS_MAP [1] 0xC0000000 with now := 60000000000 }, 1, 15, by decide +kernel⟩,
  ⟨{ upPlan.setReg .PHY_DFS_MAP [1] 0xC0000001 with now := 60000000000 }, 1, by decide +kernel⟩,
  ⟨(up.phyUpd 2 (fun p => { p with dfsQ := [(7, 9), (8, 10)] })), .core 0, 2, (7, 9), [(8, 10)], by decide +kernel⟩⟩

/-- States that meet the hypotheses of `MemoryCommandsComplete`, one for each clause. -/
theorem wit_MemoryCommandsComplete :
  (∃ (s : State) (a : Nat), s.canonical = true ∧ s.flag Fld.SRM_CFG.SCRUB_EN = true ∧ s.pwr.powered.contains 6 = true ∧ s.mode ≠ 5 ∧ a < 0x14400000
      ∧ s.area a ≠ .none) ∧
  (∃ (s : State) (c : Nat) (l : List DramArrival) (q : DramReq), s.mems.dmc.length = 2 ∧ s.chOn c = true ∧ (s.dramArrived c l).dramPick c = some q) ∧
  (∃ (s : State) (c : Nat), s.mems.dmc.length = 2 ∧ s.chOn c = true ∧ (s.ch c).queue = [] ∧ (s.ch c).inOrder = [] ∧ (s.ch c).throttles = []) ∧
  (∃ (s : State) (c : Nat), s.mems.dmc.length = 2 ∧ s.chOn c = true ∧ (s.ch c).lastRefresh + s.tRefi c ≤ s.now) ∧
  (∃ (s : State) (c : Nat), s.mems.dmc.length = 2 ∧ s.chOn c = true ∧ s.serving = true ∧ (s.ch c).panic = [] ∧ (s.ch c).lastZq + 100000000 ≤ s.now) ∧
  (∃ (s : State) (c : Nat), s.mems.dmc.length = 2 ∧ s.chOn c = true ∧ s.serving = true ∧ (s.ch c).lastTemp + 10000000 ≤ s.now) ∧
  (∃ (s : State) (c : Nat) (bank : Nat) (rank : Nat), s.mems.dmc.length = 2 ∧ s.chOn c = true
      ∧ (s.ch c).queue.any (fun q => q.bank == bank && q.rank == rank) = false
      ∧ s.get Fld.DMC_CFG.PAGE_IDLE [c] * 8000 ≤ (s.now - (((s.ch c).lastUse.find? (fun e => e.1 == bank && e.2.1 == rank)).map (fun e => e.2.2)).getD 0) * leAt (s.body 6 0x32) 2 2) ∧
  (∃ (s : State) (c : Nat), s.canonical = true ∧ s.mems.dmc.length = 2 ∧ s.chOn c = true) ∧
  (∃ (s : State) (c : Nat) (port : Nat), s.mems.dmc.length = 2 ∧ s.chOn c = true
      ∧ (s.ch c).panic.any (fun e => e.port == port && !e.late && decide (e.since + max 1 (s.get Fld.DMC_RT_CFG.PANIC_MAX [c]) * 100 < s.now)) = true) :=
  ⟨⟨up, 0x10000004, by decide +kernel⟩,
  ⟨((up.setReg .DMC_STAT [1] 0x80000C80).chUpd 1 (fun d => { d with queue := [⟨4, 3, 0, 77, false, 1, none, 9, 0⟩, ⟨5, 3, 0, 78, true, 1, none, 9, 0⟩] })), 1,
      [], ⟨4, 3, 0, 77, false, 1, none, 9, 0⟩, by decide +kernel⟩,
  ⟨(up.setReg .DMC_STAT [1] 0x80000C80), 1, by decide +kernel⟩,
  ⟨((up.setReg .DMC_STAT [1] 0x80000C80).chUpd 1 (fun d => { d with openRows := [(1, 0, 5)] })), 1, by decide +kernel⟩,
  ⟨{ (up.setReg .DMC_STAT [1] 0x80000C80) with now := 100000000 }, 1, by decide +kernel⟩,
  ⟨{ (up.setReg .DMC_STAT [1] 0x80000C80) with now := 10000000 }, 1, by decide +kernel⟩,
  ⟨({ (up.setReg .DMC_STAT [1] 0x80000C80) with plan := { (up.setReg .DMC_STAT [1] 0x80000C80).plan with recs := [⟨6, 0x32, [0, 0] ++ leBytes 2 3200 ++ List.replicate 60 0⟩] } }.setReg .DMC_CFG [1] 0).chUpd 1 (fun d => { d with openRows := [(3, 0, 7)] }),
      1, 3, 0, by decide +kernel⟩,
  ⟨(up.setReg .DMC_STAT [1] 0x80000C80), 1, by decide +kernel⟩,
  ⟨{ (up.setReg .DMC_STAT [1] 0x80000C80).chUpd 1 (fun d => { d with panic := [⟨2, 0, false⟩] }) with now := 10000000 }, 1, 2, by decide +kernel⟩⟩

/-- States that meet the hypotheses of `AccessTableCommandsComplete`, one for each clause. -/
theorem wit_AccessTableCommandsComplete :
  (∃ (s : State) (rq : Req) (n : Nat), s.canonical = true ∧ Passes s rq .WAC_TBL_CTL [] true ∧ n < 32) ∧
  (∃ (s : State) (rq : Req), s.canonical = true ∧ swf wacZero s.wac.tbl = true ∧ Passes s rq .WAC_TBL_CTL [] true ∧ s.get Fld.WAC_TBL_SEL.TABLE ≤ 5
      ∧ ((s.get Fld.WAC_TBL_SEL.TABLE = 4 → ∀ l ∈ List.range 3, (s.linkPaths l).length = (s.wlink l).paths))
      ∧ firstBad (s.entryChecks (s.get Fld.WAC_TBL_SEL.TABLE) (s.get Fld.WAC_TBL_SEL.INDEX) (s.wacWin (wacSize (s.get Fld.WAC_TBL_SEL.TABLE)))) = none
      ∧ ((s.get Fld.WAC_TBL_SEL.TABLE = 0 → bitOf (leAt (s.wacWin (wacSize 0)) 0 2) 3 = false))) ∧
  (∃ (s : State) (rq : Req) (w : Nat), s.canonical = true ∧ Passes s rq .WAC_TBL_CTL [] true ∧ s.get Fld.WAC_TBL_SEL.TABLE ≤ 5
      ∧ firstBad (s.entryChecks (s.get Fld.WAC_TBL_SEL.TABLE) (s.get Fld.WAC_TBL_SEL.INDEX) (s.wacWin (wacSize (s.get Fld.WAC_TBL_SEL.TABLE)))) = some w
      ∧ w < 256) ∧
  (∃ (s : State) (rq : Req), s.canonical = true ∧ swf wacZero s.wac.tbl = true ∧ Passes s rq .WAC_TBL_CTL [] true
      ∧ s.wreferenced (s.get Fld.WAC_TBL_SEL.TABLE) (s.get Fld.WAC_TBL_SEL.INDEX) = false) ∧
  (∃ (s : State) (rq : Req) (e : Nat × Nat × Nat) (rest : List (Nat × Nat × Nat)), Passes s rq .WAC_BSR_POP [] false ∧ s.wac.bsr = e :: rest) ∧
  (∃ (s : State) (rq : Req) (w : Word) (rest : List Word), Passes s rq .WAC_MTX_CPL_POP [] false ∧ s.wac.cpl = w :: rest) ∧
  (∃ (s : State) (rq : Req), Passes s rq .WAC_MRX_FREE [] true) ∧
  (∃ (s : State) (rq : Req), s.canonical = true ∧ Passes s rq .WAC_AFC_CTL [] true ∧ s.radio.afcRun = none) ∧
  (∃ (s : State) (rq : Req), s.canonical = true ∧ Passes s rq .WAC_AFC_CTL [] true ∧ s.radio.afcRun ≠ none) ∧
  (∃ (s : State) (rq : Req), s.canonical = true ∧ Passes s rq .WAC_AFC_CTL [] true) :=
  ⟨⟨(List.foldl (fun (u : State) (e : Nat × Nat × Bytes) => u.setWtbl e.1 e.2.1 (e.2.2 ++ List.replicate (wacSize e.1 - e.2.2.length) 0)) upPlan [(0, 3, [3, 0,
      20, 0, 7, 0, 1, 7] ++ List.replicate 62 0 ++ [5, 0])]).setReg .WAC_TBL_SEL [] 3, .core 0, 1, by decide +kernel⟩,
  ⟨((upPlan.setReg .WAC_TBL_SEL [] 0x50000000).setReg .WAC_TBL_WIN [0] 1).setReg .WAC_TBL_WIN [3] 64, .core 0, by decide +kernel⟩,
  ⟨(upPlan.setReg .WAC_TBL_SEL [] 0x50000000).setReg .WAC_TBL_WIN [0] 2, .core 0, 0, by decide +kernel⟩,
  ⟨(List.foldl (fun (u : State) (e : Nat × Nat × Bytes) => u.setWtbl e.1 e.2.1 (e.2.2 ++ List.replicate (wacSize e.1 - e.2.2.length) 0)) upPlan [(0, 3, [3, 0,
      20, 0, 7, 0, 1, 7] ++ List.replicate 62 0 ++ [5, 0])]).setReg .WAC_TBL_SEL [] 3, .core 0, by decide +kernel⟩,
  ⟨(up.wacUpd (fun w => { w with bsr := [(5, 1, 2)] })), .core 0, (5, 1, 2), [], by decide +kernel⟩,
  ⟨(up.wacUpd (fun w => { w with cpl := [5, 6] })), .core 0, 5, [6], by decide +kernel⟩,
  ⟨{ up with mems := { up.mems with bufs := [⟨5, 64⟩] } }, .core 0, by decide +kernel⟩,
  ⟨up, .core 0, by decide +kernel⟩,
  ⟨up.radUpd (fun r => { r with afcRun := some (64, 5) }), .core 0, by decide +kernel⟩,
  ⟨up, .core 0, by decide +kernel⟩⟩

/-- States that meet the hypotheses of `AccessTransmitCommandsComplete`, one for each clause. -/
theorem wit_AccessTransmitCommandsComplete :
  (∃ (s : State) (l : Nat), s.shaped ∧ l < 3 ∧ s.get Fld.WAC_LINK_CFG.BCN_INT [l] ≠ 0 ∧ s.wlinkRun l = true ∧ s.wvalid 5 (16 * l) = true
      ∧ s.tsf % (1024 * s.get Fld.WAC_LINK_CFG.BCN_INT [l]) = 0 ∧ (s.wlink l).lastTbtt ≠ s.tsf) ∧
  (∃ (s : State) (i : Nat) (f : WacFrame), s.wac.frames[i]? = some f ∧ s.active 5 = true ∧ s.get Fld.WAC_BA_CFG.LIFETIME ≠ 0 ∧ f.launch = none
      ∧ s.inExchange f = false ∧ f.kind ≠ 2 ∧ f.since + s.get Fld.WAC_BA_CFG.LIFETIME * 1000000 < s.now) ∧
  (∃ (s : State) (l : Nat) (ac : Nat) (air : Nat) (g : WacFrame) (r : Nat × Nat), s.canonical = true ∧ s.shaped ∧ l < 3 ∧ s.linkIdle l = true ∧ ac ≤ 4
      ∧ (s.wlink l).sent = none ∧ s.wac.frames.find? (fun f => f.sid == 0xFFFF && s.frameWaits l ac f && (f.kind == 2 || s.spServes l f.sid)) = some g
      ∧ s.frameKey l g = none ∧ s.pastWindow g = false ∧ s.rateFor l (s.wfld 5 (16 * l + g.bss) 0x18 4) = some r
      ∧ ((List.range 5).all (fun c => decide (c ≤ ac) || ((s.dlCands l c).isEmpty && !s.wac.frames.any (fun f => f.sid == 0xFFFF && s.frameWaits l c f && (f.kind == 2 || s.spServes l f.sid))))) = true
      ∧ s.ppduFits l s.netTime (1000 * air) false = true ∧ ((ac < 4 → s.get Fld.WAC_EDCA.TXOP_LIMIT [l, ac] = 0 ∨ air ≤ 32 * s.get Fld.WAC_EDCA.TXOP_LIMIT [l,
      ac]))) ∧
  (∃ (s : State) (l : Nat), s.shaped ∧ l < 3 ∧ s.wlinkRun l = true ∧ s.get Fld.WAC_SCHED_CFG.BSRP_MS [l] ≠ 0
      ∧ (s.wlink l).lastBsrp + s.get Fld.WAC_SCHED_CFG.BSRP_MS [l] * 1000000 ≤ s.now) ∧
  (∃ (s : State) (i : Nat), s.shaped ∧ i < 1024 ∧ s.wfld 3 i 1 1 < 3 ∧ s.wvalid 3 i = true ∧ s.wlinkRun (s.wfld 3 i 1 1) = true
      ∧ s.spAt i s.tsf = some s.tsf) ∧
  (∃ (s : State) (i : Nat) (b : Nat), s.shaped ∧ i < 1024 ∧ s.wfld 3 i 1 1 < 3 ∧ s.wvalid 3 i = true ∧ s.wlinkRun (s.wfld 3 i 1 1) = true
      ∧ s.spAt i s.tsf = some b ∧ bitOf (s.wfld 3 i 0 1) 2 = true ∧ b < s.tsf ∧ s.tsf < b + s.wfld 3 i 0x10 4 ∧ (s.tsf - b) % 1000 = 0) ∧
  (∃ (s : State) (d : Bytes), s.canonical = true ∧ s.active 5 = true ∧ s.flag Fld.WAC_MTX_CFG.EN = true
      ∧ s.get Fld.WAC_MTX_HEAD.HEAD % 2 ^ s.get Fld.WAC_MTX_CFG.SIZE_LOG2 ≠ s.get Fld.WAC_MTX_TAIL.TAIL % 2 ^ s.get Fld.WAC_MTX_CFG.SIZE_LOG2
      ∧ s.wac.cpl.length < 256 ∧ s.poolUse < 131072 ∧ s.get Fld.WAC_MTX_CFG.SIZE_LOG2 ≤ 12
      ∧ d = (s.memRead (.engine 5 1) (64 * (s.reg .WAC_MTX_BASE).toNat + 32 * (s.get Fld.WAC_MTX_HEAD.HEAD % 2 ^ s.get Fld.WAC_MTX_CFG.SIZE_LOG2)) 32).2.1) ∧
  (∃ (s : State) (d : Bytes), s.active 5 = true ∧ s.flag Fld.WAC_MTX_CFG.EN = true
      ∧ s.get Fld.WAC_MTX_HEAD.HEAD % 2 ^ s.get Fld.WAC_MTX_CFG.SIZE_LOG2 ≠ s.get Fld.WAC_MTX_TAIL.TAIL % 2 ^ s.get Fld.WAC_MTX_CFG.SIZE_LOG2
      ∧ s.wac.cpl.length < 256 ∧ s.poolUse < 131072 ∧ s.get Fld.WAC_MTX_CFG.SIZE_LOG2 ≤ 12
      ∧ s.memRead (.engine 5 1) (64 * (s.reg .WAC_MTX_BASE).toNat + 32 * (s.get Fld.WAC_MTX_HEAD.HEAD % 2 ^ s.get Fld.WAC_MTX_CFG.SIZE_LOG2)) 32 = (0, d, s)
      ∧ leAt d 4 2 ≠ 0 ∧ leAt d 4 2 ≤ leAt d 6 2 ∧ leAt d 4 2 ≤ 4096 ∧ (∀ l ∈ List.range 3, s.wlinkRun l = false)) ∧
  (∃ (s : State) (l : Nat) (d : Bytes), s.active 5 = true ∧ s.flag Fld.WAC_MTX_CFG.EN = true
      ∧ s.get Fld.WAC_MTX_HEAD.HEAD % 2 ^ s.get Fld.WAC_MTX_CFG.SIZE_LOG2 ≠ s.get Fld.WAC_MTX_TAIL.TAIL % 2 ^ s.get Fld.WAC_MTX_CFG.SIZE_LOG2
      ∧ s.wac.cpl.length < 256 ∧ s.poolUse < 131072
      ∧ s.memRead (.engine 5 1) (64 * (s.reg .WAC_MTX_BASE).toNat + 32 * (s.get Fld.WAC_MTX_HEAD.HEAD % 2 ^ s.get Fld.WAC_MTX_CFG.SIZE_LOG2)) 32 = (0, d, s)
      ∧ leAt d 4 2 ≠ 0 ∧ leAt d 4 2 ≤ leAt d 6 2 ∧ leAt d 4 2 ≤ 4096 ∧ bitOf (leAt d 12 2) 2 = false ∧ l < 3 ∧ s.wlinkRun l = true
      ∧ bitOf (s.frameLinks (s.frameNew 1 (leAt d 8 2) (leAt d 10 1 % 8) 0 0 0 0)) l = true) ∧
  (∃ (s : State) (q : Nat) (l : Nat) (air : Nat) (w : Int) (r : CalRun), s.shaped ∧ q < 4 ∧ l < 3 ∧ r.booked = some w ∧ s.wlinkRun l = true
      ∧ s.get Fld.CAL_STAT.STATE [q] = 2 ∧ s.netTime < w ∧ s.wac.covered.contains (q, l, w) = false ∧ (s.cal q).run = some r
      ∧ r.paths.any (fun p => (s.linkPaths l).contains (16 * q + p)) = true ∧ s.linkIdle l = true ∧ s.netTime + 1000 * air ≤ w) ∧
  (∃ (s : State) (q : Nat) (l : Nat) (w : Int) (r : CalRun), s.canonical = true ∧ q < 4 ∧ l < 3 ∧ r.booked = some w ∧ s.wlinkRun l = true
      ∧ s.get Fld.CAL_STAT.STATE [q] = 2 ∧ s.netTime < w ∧ s.wac.covered.contains (q, l, w) = false ∧ (s.cal q).run = some r
      ∧ r.paths.any (fun p => (s.linkPaths l).contains (16 * q + p)) = true ∧ s.linkIdle l = false ∧ w ≤ s.netTime + 200000) :=
  ⟨⟨(List.foldl (fun (u : State) (e : Nat × Nat × Bytes) => u.setWtbl e.1 e.2.1 (e.2.2 ++ List.replicate (wacSize e.1 - e.2.2.length) 0)) (upPlan.setReg .WAC_LINK_CFG [0] 0x80640100) [(5,
      0, [1]), (0, 3, [11, 0, 20, 0, 7, 0, 1, 7] ++ List.replicate 62 0 ++ [5, 0]), (3, 5, [7,
      0] ++ List.replicate 14 0 ++ leBytes 4 500 ++ leBytes 4 1000)]), 0, by decide +kernel⟩,
  ⟨{ (List.foldl (fun (u : State) (e : Nat × Nat × Bytes) => u.setWtbl e.1 e.2.1 (e.2.2 ++ List.replicate (wacSize e.1 - e.2.2.length) 0)) (upPlan.setReg .WAC_LINK_CFG [0] 0x80640100) [(5, 0, [1]), (0, 3, [11, 0, 20, 0, 7, 0, 1, 7] ++ List.replicate 62 0 ++ [5, 0]), (3, 5, [7, 0] ++ List.replicate 14 0 ++ leBytes 4 500 ++ leBytes 4 1000)]).wacUpd (fun w => { w with frames := [{ num := 4, kind := 0, sid := 3, links := 1, bss := 0, tid := 0, len := 100, buf := 7, since := 0, retries := 0, launch := none, flags := 0, ring := 0, cookie := 0, sn := none, pn := none, inTx := none, data := [] }, { num := 5, kind := 1, sid := 3, links := 1, bss := 0, tid := 0, len := 100, buf := 7, since := 0, retries := 0, launch := none, flags := 0, ring := 0, cookie := 0, sn := none, pn := none, inTx := none, data := [] }] }) with now := 600000000000 },
      1, { num := 5, kind := 1, sid := 3, links := 1, bss := 0, tid := 0, len := 100, buf := 7, since := 0, retries := 0, launch := none, flags := 0, ring := 0, cookie := 0, sn := none, pn := none, inTx := none, data := [] },
      by decide +kernel⟩,
  ⟨((List.foldl (fun (u : State) (e : Nat × Nat × Bytes) => u.setWtbl e.1 e.2.1 (e.2.2 ++ List.replicate (wacSize e.1 - e.2.2.length) 0)) (upPlan.setReg .WAC_LINK_CFG [0] 0x80640100) [(5,
      0, [1] ++ List.replicate 25 0 ++ [1]), (0, 3, [11, 0, 20, 0, 7, 0, 1, 7] ++ List.replicate 62 0 ++ [5,
      0])]).setReg .PHY_CCA_STAT [0] 0).wacUpd (fun w => { w with frames := [{ num := 4, kind := 0, sid := 0xFFFF, links := 1, bss := 0, tid := 0, len := 100, buf := 7, since := 0, retries := 0, launch := none, flags := 0, ring := 0, cookie := 0, sn := none, pn := none, inTx := none, data := [] }] }),
      0, 1, 300, { num := 4, kind := 0, sid := 0xFFFF, links := 1, bss := 0, tid := 0, len := 100, buf := 7, since := 0, retries := 0, launch := none, flags := 0, ring := 0, cookie := 0, sn := none, pn := none, inTx := none, data := [] },
      (0x10000, 1), by decide +kernel⟩,
  ⟨{ (List.foldl (fun (u : State) (e : Nat × Nat × Bytes) => u.setWtbl e.1 e.2.1 (e.2.2 ++ List.replicate (wacSize e.1 - e.2.2.length) 0)) (upPlan.setReg .WAC_LINK_CFG [0] 0x80640100) [(5, 0, [1]), (0, 3, [11, 0, 20, 0, 7, 0, 1, 7] ++ List.replicate 62 0 ++ [255, 255])]) with now := 100000000 },
      0, by decide +kernel⟩,
  ⟨(List.foldl (fun (u : State) (e : Nat × Nat × Bytes) => u.setWtbl e.1 e.2.1 (e.2.2 ++ List.replicate (wacSize e.1 - e.2.2.length) 0)) (upPlan.setReg .WAC_LINK_CFG [0] 0x80640100) [(5,
      0, [1]), (0, 3, [11, 0, 20, 0, 7, 0, 1, 7] ++ List.replicate 62 0 ++ [5, 0]), (3, 5, [7,
      0] ++ List.replicate 14 0 ++ leBytes 4 500 ++ leBytes 4 1000)]), 5, by decide +kernel⟩,
  ⟨((List.foldl (fun (u : State) (e : Nat × Nat × Bytes) => u.setWtbl e.1 e.2.1 (e.2.2 ++ List.replicate (wacSize e.1 - e.2.2.length) 0)) (upPlan.setReg .WAC_LINK_CFG [0] 0x80640100) [(5,
      0, [1]), (0, 3, [11, 0, 20, 0, 7, 0, 1, 7] ++ List.replicate 62 0 ++ [5, 0]), (3, 5, [7,
      0] ++ List.replicate 14 0 ++ leBytes 4 5000 ++ leBytes 4 0)])).atRaw 1000000, 5, 0, by decide +kernel⟩,
  ⟨((((List.foldl (fun (u : State) (e : Nat × Nat × Bytes) => u.setWtbl e.1 e.2.1 (e.2.2 ++ List.replicate (wacSize e.1 - e.2.2.length) 0)) (upPlan.setReg .WAC_LINK_CFG [0] 0x80640100) [(5,
      0, [1]), (0, 3, [11, 0, 20, 0, 7, 0, 1, 7] ++ List.replicate 62 0 ++ [5, 0]), (3, 5, [7,
      0] ++ List.replicate 14 0 ++ leBytes 4 500 ++ leBytes 4 1000)]).setReg .WAC_MTX_CFG [] 0x80000004).setReg .WAC_MTX_BASE [] 0x400000).set Fld.WAC_MTX_TAIL.TAIL [] 3),
      List.replicate 32 0, by decide +kernel⟩,
  ⟨(((((List.foldl (fun (u : State) (e : Nat × Nat × Bytes) => u.setWtbl e.1 e.2.1 (e.2.2 ++ List.replicate (wacSize e.1 - e.2.2.length) 0)) (upPlan.setReg .WAC_LINK_CFG [0] 0) [(5,
      0, [1]), (0, 3, [11, 0, 20, 0, 7, 0, 1, 7] ++ List.replicate 62 0 ++ [5, 0]), (3, 5, [7,
      0] ++ List.replicate 14 0 ++ leBytes 4 500 ++ leBytes 4 1000)]).setReg .WAC_MTX_CFG [] 0x80000004).setReg .WAC_MTX_BASE [] 0x400000).set Fld.WAC_MTX_TAIL.TAIL [] 3).memPut 0x10000000 [9,
      0, 0, 0, 100, 0, 200, 0, 3, 0, 7]), [9, 0, 0, 0, 100, 0, 200, 0, 3, 0, 7] ++ List.replicate 21 0, by decide +kernel⟩,
  ⟨(((((List.foldl (fun (u : State) (e : Nat × Nat × Bytes) => u.setWtbl e.1 e.2.1 (e.2.2 ++ List.replicate (wacSize e.1 - e.2.2.length) 0)) (upPlan.setReg .WAC_LINK_CFG [0] 0x80640100) [(5,
      0, [1]), (0, 3, [11, 0, 20, 0, 7, 0, 1, 7] ++ List.replicate 62 0 ++ [5, 0]), (3, 5, [7,
      0] ++ List.replicate 14 0 ++ leBytes 4 500 ++ leBytes 4 1000)]).setReg .WAC_MTX_CFG [] 0x80000004).setReg .WAC_MTX_BASE [] 0x400000).set Fld.WAC_MTX_TAIL.TAIL [] 3).memPut 0x10000000 [9,
      0, 0, 0, 100, 0, 200, 0, 3, 0, 7]), 0, [9, 0, 0, 0, 100, 0, 200, 0, 3, 0, 7] ++ List.replicate 21 0, by decide +kernel⟩,
  ⟨((List.foldl (fun (u : State) (e : Nat × Nat × Bytes) => u.setWtbl e.1 e.2.1 (e.2.2 ++ List.replicate (wacSize e.1 - e.2.2.length) 0)) (upPlan.setReg .WAC_LINK_CFG [0] 0x80640100) [(5,
      0, [1]), (0, 3, [11, 0, 20, 0, 7, 0, 1, 7] ++ List.replicate 62 0 ++ [5, 0]), (3, 5, [7,
      0] ++ List.replicate 14 0 ++ leBytes 4 500 ++ leBytes 4 1000)]).setReg .CAL_STAT [0] (wset 0 Fld.CAL_STAT.STATE.hi Fld.CAL_STAT.STATE.lo 2)).calUpd 0 (fun c => { c with run := some { runA with booked := some 900000 } }),
      0, 0, 50, 900000, { runA with booked := some 900000 }, by decide +kernel⟩,
  ⟨(((List.foldl (fun (u : State) (e : Nat × Nat × Bytes) => u.setWtbl e.1 e.2.1 (e.2.2 ++ List.replicate (wacSize e.1 - e.2.2.length) 0)) (upPlan.setReg .WAC_LINK_CFG [0] 0x80640100) [(5,
      0, [1]), (0, 3, [11, 0, 20, 0, 7, 0, 1, 7] ++ List.replicate 62 0 ++ [5, 0]), (3, 5, [7,
      0] ++ List.replicate 14 0 ++ leBytes 4 500 ++ leBytes 4 1000)]).wlinkUpd 0 (fun x => { x with nav := 100000000 })).setReg .CAL_STAT [0] (wset 0 Fld.CAL_STAT.STATE.hi Fld.CAL_STAT.STATE.lo 2)).calUpd 0 (fun c => { c with run := some { runA with booked := some 900 } }),
      0, 0, 900, { runA with booked := some 900 }, by decide +kernel⟩⟩

/-- States that meet the hypotheses of `AccessReceiveCommandsComplete`, one for each clause. -/
theorem wit_AccessReceiveCommandsComplete :
  (∃ (s : State) (l : Nat) (i : Nat) (rec : Bytes), s.shaped ∧ l < 3 ∧ s.active 5 = true ∧ (s.phy l).delivered[i]? = some rec) ∧
  (∃ (s : State) (l : Nat) (i : Nat) (m : Mpdu) (rec : Bytes) (p : WacPpdu) (f : WacFrame), s.shaped ∧ l < 3 ∧ s.active 5 = true
      ∧ (s.phy l).delivered[i]? = some rec ∧ m.sid = 0xFFFF ∧ m.kind = 1 ∧ m.prot = false ∧ m.acks = some [0] ∧ (s.wlink l).sent = some p
      ∧ p.frames = [f.num] ∧ s.wac.frames = [f] ∧ f.inTx = some p.num ∧ f.kind = 1) ∧
  (∃ (s : State) (a : Nat) (hs : List WacHeld), swf wacZero s.wac.tbl = true ∧ a < 4096 ∧ (s.wtbl 2 a).length = 16 ∧ s.active 5 = true
      ∧ s.wac.held.filter (fun x => x.agr == a) = hs ∧ (hs.all (fun h => decide (h.up.sn < 4096))) = true ∧ (hs.map (fun h => h.up.sn)).Nodup
      ∧ hs.any (fun h => decide (h.at_ + max 1 (s.get Fld.WAC_BA_CFG.REORDER_TO) * 1000000 ≤ s.now)) = true) ∧
  (∃ (s : State) (sid : Nat) (b : Nat), swf wacZero s.wac.tbl = true ∧ swf (fun _ => 0) s.wac.spDone = true ∧ sid < 2048 ∧ (s.wtbl 0 sid).length = 128
      ∧ s.active 5 = true ∧ s.wvalid 0 sid = true ∧ s.wvalid 3 (s.staTwt sid) = true ∧ 16 * s.staGuard sid + s.wfld 3 (s.staTwt sid) 0x10 4 ≤ s.tsf
      ∧ s.spAt (s.staTwt sid) (s.tsf - 16 * s.staGuard sid - s.wfld 3 (s.staTwt sid) 0x10 4) = some b ∧ sget (fun _ => 0) s.wac.spDone sid ≤ b) :=
  ⟨⟨((List.foldl (fun (u : State) (e : Nat × Nat × Bytes) => u.setWtbl e.1 e.2.1 (e.2.2 ++ List.replicate (wacSize e.1 - e.2.2.length) 0)) (upPlan.setReg .WAC_LINK_CFG [0] 0x80640100) [(5,
      0, [1]), (0, 3, [11, 0, 20, 0, 7, 0, 1, 7] ++ List.replicate 62 0 ++ [5, 0]), (3, 5, [7,
      0] ++ List.replicate 14 0 ++ leBytes 4 500 ++ leBytes 4 1000)]).phyUpd 0 (fun p => { p with delivered := [[1], [2]] })), 0, 1, [2], by decide +kernel⟩,
  ⟨(((List.foldl (fun (u : State) (e : Nat × Nat × Bytes) => u.setWtbl e.1 e.2.1 (e.2.2 ++ List.replicate (wacSize e.1 - e.2.2.length) 0)) (upPlan.setReg .WAC_LINK_CFG [0] 0x80640100) [(5,
      0, [1]), (0, 3, [11, 0, 20, 0, 7, 0, 1, 7] ++ List.replicate 62 0 ++ [5, 0]), (3, 5, [7,
      0] ++ List.replicate 14 0 ++ leBytes 4 500 ++ leBytes 4 1000)]).phyUpd 0 (fun p => { p with delivered := [[1], [2]] })).wlinkUpd 0 (fun x => { x with sent := some { WacPpdu.new 0 9 1 50 with frames := [4], users := [(3, 242)], beams := [0] } })).wacUpd (fun w => { w with frames := [{ num := 4, kind := 1, sid := 3, links := 1, bss := 0, tid := 0, len := 100, buf := 7, since := 0, retries := 0, launch := none, flags := 0, ring := 0, cookie := 0, sn := none, pn := none, inTx := some 9, data := [] }] }),
      0, 0, { sid := 0xFFFF, kind := 1, tid := 0, sn := 9, retry := false, prot := false, robust := false, pm := true, poll := false, noAck := false, eapol := false, pn := 0, key := 0, bss := 0, report := none, acks := some [0], nav := 40, data := [1, 2, 3] },
      [1], { WacPpdu.new 0 9 1 50 with frames := [4], users := [(3, 242)], beams := [0] },
      { num := 4, kind := 1, sid := 3, links := 1, bss := 0, tid := 0, len := 100, buf := 7, since := 0, retries := 0, launch := none, flags := 0, ring := 0, cookie := 0, sn := none, pn := none, inTx := some 9, data := [] },
      by decide +kernel⟩,
  ⟨{ (List.foldl (fun (u : State) (e : Nat × Nat × Bytes) => u.setWtbl e.1 e.2.1 (e.2.2 ++ List.replicate (wacSize e.1 - e.2.2.length) 0)) (upPlan.setReg .WAC_LINK_CFG [0] 0x80640100) [(5, 0, [1]), (0, 3, [11, 0, 20, 0, 7, 0, 1, 7] ++ List.replicate 62 0 ++ [5, 0]), (3, 5, [7, 0] ++ List.replicate 14 0 ++ leBytes 4 500 ++ leBytes 4 1000), (2, 2, [3, 0x80, 0, 0, 64, 0, 0, 0, 10, 0, 1, 0])]).wacUpd (fun w => { w with held := [⟨2, 0, { sid := 3, link := 0, tid := 0, sn := 12, buf := 7, len := 60, pn := 0, key := 0, prot := false, retry := false, record := [] }⟩, ⟨3, 0, { sid := 3, link := 0, tid := 0, sn := 12, buf := 7, len := 60, pn := 0, key := 0, prot := false, retry := false, record := [] }⟩, ⟨2, 0, { sid := 3, link := 0, tid := 0, sn := 14, buf := 7, len := 60, pn := 0, key := 0, prot := false, retry := false, record := [] }⟩], score := [(2, 12)] }) with now := 100000000 },
      2, [⟨2, 0, { sid := 3, link := 0, tid := 0, sn := 12, buf := 7, len := 60, pn := 0, key := 0, prot := false, retry := false, record := [] }⟩, ⟨2, 0,
      { sid := 3, link := 0, tid := 0, sn := 14, buf := 7, len := 60, pn := 0, key := 0, prot := false, retry := false, record := [] }⟩], by decide +kernel⟩,
  ⟨((List.foldl (fun (u : State) (e : Nat × Nat × Bytes) => u.setWtbl e.1 e.2.1 (e.2.2 ++ List.replicate (wacSize e.1 - e.2.2.length) 0)) (upPlan.setReg .WAC_LINK_CFG [0] 0x80640100) [(5,
      0, [1]), (0, 3, [11, 0, 20, 0, 7, 0, 1, 7] ++ List.replicate 62 0 ++ [5, 0]), (3, 5, [7,
      0] ++ List.replicate 14 0 ++ leBytes 4 500 ++ leBytes 4 1000)])).atRaw 1500000, 3, 1000, by decide +kernel⟩⟩

/-- States that meet the hypotheses of `FronthaulCommandsComplete`, one for each clause. -/
theorem wit_FronthaulCommandsComplete :
  (∃ (s : State) (f : FhFrame) (e : Nat) (m : FhMsg) (c : FhSection) (at_ : Int), s.fhTakes f ∧ f.msgs = [m]
      ∧ 4 + m.size ≤ f.len - (if f.vid.isSome then 22 else 18) ∧ s.fhTakesSection e m c
      ∧ s.fhTime (s.netTime - f.age) m.frame (symStart (s.eaScs e) m.subframe m.slot m.sym) = some at_
      ∧ winJudge (s.netTime - f.age) at_ (1000 * (s.get Fld.FHU_WIN_UP.T2A_MIN_UP : Int) + 1000 * s.get Fld.FHU_WIN_CPDL.TCP_ADV_DL) (1000 * (s.get Fld.FHU_WIN_UP.T2A_MAX_UP : Int) + 1000 * s.get Fld.FHU_WIN_CPDL.TCP_ADV_DL) = 0) ∧
  (∃ (s : State) (f : FhFrame), s.canonical = true ∧ f.lane < 2 ∧ s.serving = true ∧ s.portUp (8 + f.lane) = true ∧ s.active 4 = true ∧ f.eth = 0xAEFE
      ∧ f.fcs = true ∧ f.len ≤ s.get Fld.FHU_MAX_FRAME.MAX_FRAME ∧ f.dest = (s.reg .FHU_MAC_LO [f.lane]).toNat + s.get Fld.FHU_MAC_HI.ADDR [f.lane] * 2 ^ 32
      ∧ (if s.flag Fld.FHU_CFG.VLAN_EN = true then f.vid = some (s.get Fld.FHU_CFG.VID) else f.vid = none) ∧ s.flag Fld.FHU_CFG.EN = true
      ∧ s.fhRuns = false) ∧
  (∃ (s : State) (i : Nat) (c : FhSec), s.fhu.secs[i]? = some c ∧ s.fhRuns = true ∧ c.dl = false ∧ c.ends + 8000 ≤ s.netTime) ∧
  (∃ (s : State), s.active 4 = true ∧ s.flag Fld.FHU_CFG.EN = true ∧ s.fhTimeBad ≠ 0 ∧ s.fhu.stop ≠ s.fhTimeBad) ∧
  (∃ (s : State), s.active 4 = true ∧ s.fhu.stop ≠ 0 ∧ s.fhTimeBad = 0 ∧ (s.netTime - s.fhOff) % 10000000 = 0) ∧
  (∃ (s : State) (rq : Req) (i : Nat) (rest : List Nat) (e : FhSlot) (a : Nat) (b : Nat) (c : Nat) (d : Nat), s.canonical = true
      ∧ Passes s rq .FHU_RET_POP [] false ∧ s.fhu.rets = i :: rest ∧ s.fhu.slots.find? (fun x => x.idx == i) = some e ∧ e.ids = [a, b, c, d]) ∧
  (∃ (s : State) (rq : Req), Passes s rq .FHU_RET_FREE [] true) :=
  ⟨⟨upFf, ffr, 0, fms, fsc, 10000000, by decide +kernel⟩,
  ⟨upFf.set Fld.NTU_STATUS.TIME_STATE [] 0, ffr, by decide +kernel⟩,
  ⟨(upFf.fhUpd (fun x => { x with secs := [{ fhSecA with dl := false, ends := 100 }] })), 0, { fhSecA with dl := false, ends := 100 }, by decide +kernel⟩,
  ⟨upFf.set Fld.NTU_STATUS.TIME_STATE [] 0, by decide +kernel⟩,
  ⟨{ upFf with ntu := { upFf.ntu with raw := 30000000 } }.fhUpd (fun x => { x with stop := 3 }), by decide +kernel⟩,
  ⟨upFf.fhUpd (fun x => { x with rets := [4, 5], slots := [⟨4, 2, 0, 100, [1, 2, 0, 13], [(0, 10)], true⟩] }), .core 0, 4, [5], ⟨4, 2, 0, 100, [1, 2, 0, 13],
      [(0, 10)], true⟩, 1, 2, 0, 13, by decide +kernel⟩,
  ⟨upFf.fhUpd (fun x => { x with slots := [⟨4, 2, 0, 100, [1, 2, 0, 13], [(0, 10)], true⟩, ⟨5, 2, 0, 100, [1, 2, 0, 13], [(0, 10)], false⟩] }), .core 0,
      by decide +kernel⟩⟩

/-- States that meet the hypotheses of `TixiaCommandsComplete`, one for each clause. -/
theorem wit_TixiaCommandsComplete :
  (∃ (s : State) (c : Nat) (sf : Nat), s.shaped ∧ s.chHears c = true ∧ 7 ≤ sf ∧ sf ≤ 12 ∧ bitOf (s.get Fld.TXA_CH_CFG_W0.SF_MASK [c]) (sf - 7) = true
      ∧ (s.demod c).rx = none) ∧
  (∃ (s : State) (c : Nat) (sf : Nat) (rssi : Int) (r : TxaRx), s.shaped ∧ s.chHears c = true ∧ 7 ≤ sf ∧ sf ≤ 12
      ∧ bitOf (s.get Fld.TXA_CH_CFG_W0.SF_MASK [c]) (sf - 7) = true ∧ (s.demod c).st = 2 ∧ (s.demod c).rx = some r
      ∧ r.rssi + s.get Fld.TXA_DET_CFG.RESTART_MARGIN ≤ rssi) ∧
  (∃ (s : State) (c : Nat) (sync : Nat) (len : Nat) (ctl : Nat) (crc : Nat) (r : TxaRx), s.shaped ∧ (s.demod c).rx = some r ∧ (s.demod c).st = 2
      ∧ s.chServed c = true ∧ bitDiff (sync % 65536) (s.get Fld.TXA_SYNC.SYNC_WORD) ≤ s.get Fld.TXA_DET_CFG.SYNC_TOL ∧ crc = crc8 [len % 256, ctl % 256]
      ∧ ctl < 3) ∧
  (∃ (s : State) (c : Nat) (sync : Nat) (r : TxaRx), s.shaped ∧ (s.demod c).rx = some r ∧ (s.demod c).st = 2 ∧ s.chServed c = true
      ∧ s.get Fld.TXA_DET_CFG.SYNC_TOL < bitDiff (sync % 65536) (s.get Fld.TXA_SYNC.SYNC_WORD) ∧ (s.demod c).others = []) ∧
  (∃ (s : State) (c : Nat) (sf : Nat) (rssi : Int) (r : TxaRx), s.shaped ∧ s.chHears c = true ∧ 7 ≤ sf ∧ sf ≤ 12
      ∧ bitOf (s.get Fld.TXA_CH_CFG_W0.SF_MASK [c]) (sf - 7) = true ∧ (s.demod c).st ≠ 2 ∧ (s.demod c).rx = some r ∧ s.flag Fld.TXA_CFG.CAPTURE_EN = true
      ∧ r.rssi + s.get Fld.TXA_DET_CFG.CAPTURE_MARGIN ≤ rssi) ∧
  (∃ (s : State) (c : Nat) (r : TxaRx), s.shaped ∧ (s.demod c).rx = some r ∧ r.ends ≤ s.netTime ∧ ((s.demod c).st = 3 ∨ (s.demod c).st = 4)) ∧
  (∃ (s : State) (rq : Req) (v : Word) (d : Bytes), Passes s rq .TXA_DL_PUSH [] true ∧ s.txaFull = false ∧ d = s.bytes (64 * v.toNat) 32
      ∧ s.rangeCode (.engine 4 6) (64 * v.toNat) 32 = 0 ∧ leAt d 8 1 ≤ 241 ∧ leAt d 8 1 + 14 ≤ s.get Fld.TXA_CFG.MAX_LEN
      ∧ leAt d 0 4 / 2 ^ 18 = s.get Fld.TXA_CFG.NETID ∧ bits (leAt d 10 1) 7 1 = 0 ∧ leAt d 11 1 = 0 ∧ allZero (d.drop 20) = true
      ∧ (s.txa.pend.any (fun p => p.dev == leAt d 0 4 && !p.bound)) = false) ∧
  (∃ (s : State) (rq : Req), Passes s rq .TXA_DL_PUSH [] true ∧ s.txaFull = true) ∧
  (∃ (s : State) (rq : Req) (e : TxaCpl) (rest : List TxaCpl), s.canonical = true ∧ Passes s rq .TXA_DL_CPL_POP [] false ∧ s.txa.cpl = e :: rest) ∧
  (∃ (s : State) (i : Nat) (p : TxaPend), s.txa.pend.find? (fun p => p.idx == i) = some p ∧ s.txaOn = true ∧ p.bound = false ∧ p.life ≠ 0
      ∧ p.since + 1000000 * p.life ≤ s.now ∧ s.held.any txaHeld = false) ∧
  (∃ (s : State) (rq : Req), swf (fun _ => (0 : Word)) s.txa.ctr = true ∧ Passes s rq .TXA_CTR_DATA [] true) ∧
  (∃ (s : State) (d : Int × Nat), s.canonical = true ∧ s.txa.due = some d ∧ s.txaOn = true ∧ s.txaQuiet = true) ∧
  (∃ (s : State) (d : Int × Nat) (q : Nat) (k : Nat), s.canonical = true ∧ s.txa.due = some d ∧ s.txaOn = true ∧ s.txaQuiet = true ∧ s.lrcLos.contains (q,
      k) = true ∧ s.fineOk q k = true) ∧
  (∃ (s : State) (d : Int × Nat), s.canonical = true ∧ s.txa.due = some d ∧ s.txaOn = true ∧ d.2 + 1000000000 * max 1 (s.get Fld.TXA_FB_CFG.FB_DEFER) ≤ s.now) :=
  ⟨⟨upLl, 0, 7, by decide +kernel⟩,
  ⟨upLx 2, 0, 7, -300, trx 0 20, by decide +kernel⟩,
  ⟨upLx 2, 0, 0x2D71, 40, 1, crc8 [40, 1], trx 0 20, by decide +kernel⟩,
  ⟨upLx 2, 0, 0xD28E, trx 0 20, by decide +kernel⟩,
  ⟨upLx 3, 0, 7, -300, trx 0 20, by decide +kernel⟩,
  ⟨upLx 3, 0, trx 0 20, by decide +kernel⟩,
  ⟨(upL.memPut 0x10000000 [5, 0, 0, 0, 0, 0, 0x40, 0, 3, 9, 1, 0, 100, 0, 0, 0, 77]), .core 0, 0x400000, [5, 0, 0, 0, 0, 0, 0x40, 0, 3, 9, 1, 0, 100, 0, 0, 0,
      77] ++ List.replicate 15 0, by decide +kernel⟩,
  ⟨(upL.txaUpd (fun x => { x with pend := List.replicate 256 ⟨2, 5, [1], 9, false, 0, 77, 0, true⟩ })), .core 0, by decide +kernel⟩,
  ⟨(upL.txaUpd (fun x => { x with cpl := [⟨3, 1, 6, 99⟩] })), .core 0, ⟨3, 1, 6, 99⟩, [], by decide +kernel⟩,
  ⟨{ upL.txaUpd (fun x => { x with pend := [⟨2, 5, [1], 9, false, 3, 77, 0, false⟩] }) with now := 3000000 }, 2, ⟨2, 5, [1], 9, false, 3, 77, 0, false⟩,
      by decide +kernel⟩,
  ⟨upL, .core 0, by decide +kernel⟩,
  ⟨(upL.txaUpd (fun x => { x with due := some (-120000, 0) })), (-120000, 0), by decide +kernel⟩,
  ⟨((upL.setReg .SYN_STAT [0, 0] 0x88000100).txaUpd (fun x => { x with due := some (-1200, 0) })), (-1200, 0), 0, 0, by decide +kernel⟩,
  ⟨{ upL.txaUpd (fun x => { x with due := some (-120000, 0) }) with now := 60000000000 }, (-120000, 0), by decide +kernel⟩⟩

/-- States that meet the hypotheses of `PacketCommandsComplete`, one for each clause. -/
theorem wit_PacketCommandsComplete :
  (∃ (s : State) (p : Nat) (data : Bytes), p < 8 ∧ s.active 5 = true ∧ s.serving = true ∧ s.portUp p = true ∧ s.flag Fld.ETH_CFG.EN [p] = true
      ∧ 64 ≤ data.length + 4 ∧ data.length + 4 ≤ s.get Fld.ETH_CFG.MAX_FRAME [p] ∧ s.flag Fld.ETH_MSEC_CFG.EN [p] = false
      ∧ ((s.flag Fld.ETH_CFG.PAUSE_RX [p] = true → beAt data 12 2 ≠ 0x8808)) ∧ s.portEnabled p = true ∧ s.flag Fld.PRS_PORT_CFG_W0.EN [p] = true
      ∧ s.ingUse p + data.length ≤ s.ingMax) ∧
  (∃ (s : State) (p : Nat) (data : Bytes), s.tm.pauseEnd.length = 8 ∧ p < 8 ∧ s.active 5 = true ∧ s.serving = true ∧ s.portUp p = true
      ∧ s.flag Fld.ETH_CFG.EN [p] = true ∧ 64 ≤ data.length + 4 ∧ data.length + 4 ≤ s.get Fld.ETH_CFG.MAX_FRAME [p] ∧ s.flag Fld.ETH_MSEC_CFG.EN [p] = false
      ∧ s.flag Fld.ETH_CFG.PAUSE_RX [p] = true ∧ beAt data 0 6 = 0x0180C2000001 ∧ beAt data 12 2 = 0x8808 ∧ beAt data 14 2 = 1 ∧ beAt data 16 2 ≠ 0) ∧
  (∃ (s : State) (p : Nat), s.canonical = true ∧ p < 8 ∧ s.active 5 = true ∧ s.serving = true ∧ s.portUp p = true ∧ s.flag Fld.ETH_CFG.EN [p] = true) ∧
  (∃ (s : State) (pipe : Nat) (k : Pkt), s.pk.slotAt.length = 2 ∧ pipe < 2 ∧ s.active 5 = true ∧ s.serving = true ∧ (s.pk.slotAt[pipe]?).getD 0 ≤ 3 * s.now
      ∧ s.pkPick pipe = some k) ∧
  (∃ (s : State) (n : Nat) (c : Nat) (k : Pkt), s.pk.pkts.find? (fun k => k.num == n && k.st == 2) = some k ∧ s.active 5 = true
      ∧ (parsePkt k.data k.l3 k.off).mal = some c ∧ wbits (s.reg .PRS_MAL_ACT) (2 * c + 1) (2 * c) = 0) ∧
  (∃ (s : State) (n : Nat) (o : Nat) (k : Pkt), s.pk.pkts.find? (fun k => k.num == n && k.st == 2) = some k ∧ s.active 5 = true
      ∧ (parsePkt k.data k.l3 k.off).mal = none ∧ (parsePkt k.data k.l3 k.off).more = some o ∧ k.passes < 4) ∧
  (∃ (s : State) (n : Nat) (k : Pkt), s.pk.pkts.find? (fun k => k.num == n && k.st == 2) = some k ∧ s.active 5 = true
      ∧ (parsePkt k.data k.l3 k.off).mal = none ∧ (parsePkt k.data k.l3 k.off).more = none ∧ (parsePkt k.data k.l3 k.off).eth = true ∧ k.l3 = false
      ∧ (parsePkt k.data k.l3 k.off).dst / 16 = 0x0180C200000) ∧
  (∃ (s : State) (b : Nat), s.active 5 = true ∧ (s.pkWaiting.filter (fun k => k.bucket == b)).isEmpty = false) ∧
  (∃ (s : State) (r : Nat), s.canonical = true ∧ s.pk.cpl.length = 9 ∧ r < 9 ∧ s.active 5 = true ∧ s.serving = true ∧ s.flag Fld.FLW_SW_TX_CFG.EN [r] = true
      ∧ s.get Fld.FLW_SW_TX_CFG.SIZE_LOG2 [r] ≤ 12
      ∧ s.get Fld.FLW_SW_TX_HEAD.HEAD [r] % 2 ^ s.get Fld.FLW_SW_TX_CFG.SIZE_LOG2 [r] ≠ s.get Fld.FLW_SW_TX_TAIL.TAIL [r] % 2 ^ s.get Fld.FLW_SW_TX_CFG.SIZE_LOG2 [r]
      ∧ (s.swCpl r).length < 256) ∧
  (∃ (s : State) (rq : Req) (r : Nat) (e : Nat × Nat) (rest : List (Nat × Nat)), r < 9 ∧ Passes s rq .FLW_SW_TX_CPL_POP [r] false ∧ s.swCpl r = e :: rest) ∧
  (∃ (s : State) (rq : Req) (r : Nat), r < 9 ∧ Passes s rq .FLW_SW_RX_FREE [r] true) :=
  ⟨⟨upNet, 0, frmA [8, 6], by decide +kernel⟩,
  ⟨upNet, 0, pauseF, by decide +kernel⟩,
  ⟨upNet, 0, by decide +kernel⟩,
  ⟨upPk [pktA 4 0 (frmA [8, 6]), pktA 5 1 longV6], 0, pktA 5 1 longV6, by decide +kernel⟩,
  ⟨(upPk [pktA 5 2 (frmA [0, 99])]).setReg .PRS_MAL_ACT [] 0, 5, 1, pktA 5 2 (frmA [0, 99]), by decide +kernel⟩,
  ⟨upPk [{ pktA 5 2 longV6 with passes := 2 }], 5, 126, { pktA 5 2 longV6 with passes := 2 }, by decide +kernel⟩,
  ⟨upPk [pktA 5 2 ([1, 0x80, 0xC2, 0, 0, 14] ++ (frmA [0x88, 0xCC]).drop 6)], 5, pktA 5 2 ([1, 0x80, 0xC2, 0, 0, 14] ++ (frmA [0x88, 0xCC]).drop 6),
      by decide +kernel⟩,
  ⟨upPk [pktA 5 3 (frmA [8, 6]), pktA 6 3 (frmA [8, 6])], 7, by decide +kernel⟩,
  ⟨((upNet.setReg .FLW_SW_TX_CFG [0] 0x80000004).set Fld.FLW_SW_TX_TAIL.TAIL [0] 3).setReg .FLW_SW_TX_BASE [0] 0x400000, 0, by decide +kernel⟩,
  ⟨upNet.pkUpd (fun x => { x with cpl := [[(4, 1), (5, 0)]] }), .core 0, 0, (4, 1), [(5, 0)], by decide +kernel⟩,
  ⟨{ up with mems := { up.mems with bufs := [⟨5, 64⟩] } }, .core 0, 0, by decide +kernel⟩⟩

/-- States that meet the hypotheses of `FlowTableCommandsComplete`, one for each clause. -/
theorem wit_FlowTableCommandsComplete :
  (∃ (s : State) (rq : Req), s.canonical = true ∧ Passes s rq .FLW_VER_CTL [] true ∧ s.pk.draining = none ∧ s.verFail = none) ∧
  (∃ (s : State) (rq : Req) (f : Nat × Nat), s.canonical = true ∧ Passes s rq .FLW_VER_CTL [] true ∧ s.pk.draining = none ∧ s.verFail = some f) ∧
  (∃ (s : State) (rq : Req) (n : Nat) (i : Nat), swf flwZero s.pk.tbl = true ∧ Passes s rq .FLW_VER_CTL [] true ∧ s.pk.draining = none ∧ n ≤ 6
      ∧ i < 1048576) ∧
  (∃ (s : State) (b : Nat), s.canonical = true ∧ s.pk.draining = some b ∧ s.pk.pkts.all (fun k => k.st == 0 || k.tag != b) = true) ∧
  (∃ (s : State) (rq : Req) (n : Nat), s.canonical = true ∧ Passes s rq .FLW_TBL_CTL [] true ∧ n < 16) ∧
  (∃ (s : State) (rq : Req), s.canonical = true ∧ swf flwZero s.pk.tbl = true ∧ Passes s rq .FLW_TBL_CTL [] true ∧ s.get Fld.FLW_TBL_SEL.TABLE ≠ 8
      ∧ ((versioned (s.get Fld.FLW_TBL_SEL.TABLE) = true → s.pk.draining = none))
      ∧ s.flwOk (1 - s.actBank) (s.get Fld.FLW_TBL_SEL.TABLE) (s.get Fld.FLW_TBL_SEL.INDEX) (s.flwWin (flwSize (s.get Fld.FLW_TBL_SEL.TABLE))) = true) ∧
  (∃ (s : State) (rq : Req), s.canonical = true ∧ Passes s rq .FLW_TBL_CTL [] true ∧ s.get Fld.FLW_TBL_SEL.TABLE ≠ 8
      ∧ ((versioned (s.get Fld.FLW_TBL_SEL.TABLE) = true → s.pk.draining = none))
      ∧ s.flwOk (1 - s.actBank) (s.get Fld.FLW_TBL_SEL.TABLE) (s.get Fld.FLW_TBL_SEL.INDEX) (s.flwWin (flwSize (s.get Fld.FLW_TBL_SEL.TABLE))) = false) ∧
  (∃ (s : State) (rq : Req), s.canonical = true ∧ Passes s rq .FLW_TBL_CTL [] true ∧ s.get Fld.FLW_TBL_SEL.TABLE = 8
      ∧ s.flwOk (1 - s.actBank) 8 (s.get Fld.FLW_TBL_SEL.INDEX) (s.flwWin 64) = true) ∧
  (∃ (s : State) (rq : Req), s.canonical = true ∧ swf flwZero s.pk.tbl = true ∧ Passes s rq .FLW_TBL_CTL [] true ∧ s.get Fld.FLW_TBL_SEL.TABLE ≠ 8
      ∧ ((versioned (s.get Fld.FLW_TBL_SEL.TABLE) = true → s.pk.draining = none))) ∧
  (∃ (s : State) (rq : Req), s.canonical = true ∧ Passes s rq .FLW_TBL_CTL [] true ∧ s.get Fld.FLW_TBL_SEL.TABLE = 8) ∧
  (∃ (s : State) (rq : Req) (i : Nat), s.canonical = true ∧ swf flwZero s.pk.tbl = true ∧ Passes s rq .FLW_TBL_CTL [] true ∧ s.get Fld.FLW_TBL_SEL.TABLE = 7
      ∧ s.flwOk 0 7 0 (s.flwWin 16) = true ∧ s.l2Find (slice (s.flwWin 16) 2 6) (leAt (s.flwWin 16) 8 2) = none
      ∧ ((List.range 4).map (fun w => l2Base (slice (s.flwWin 16) 2 6) (leAt (s.flwWin 16) 8 2) + w)).find? (fun i => !fvalid (s.fent 0 7 i)) = some i) ∧
  (∃ (s : State) (rq : Req) (i : Nat), s.canonical = true ∧ Passes s rq .FLW_TBL_CTL [] true ∧ s.get Fld.FLW_TBL_SEL.TABLE = 8
      ∧ s.flwOk 0 8 0 (s.flwWin 64) = true ∧ s.flowFind (flowKey (s.flwWin 64)) = none ∧ s.flowFree (flowKey (s.flwWin 64)) = some i) ∧
  (∃ (s : State) (rq : Req) (j : Nat), s.canonical = true ∧ swf flwZero s.pk.tbl = true ∧ Passes s rq .FLW_TBL_CTL [] true ∧ s.get Fld.FLW_TBL_SEL.TABLE = 7
      ∧ s.l2Find (slice (s.flwWin 16) 2 6) (leAt (s.flwWin 16) 8 2) = some j) ∧
  (∃ (s : State) (rq : Req), s.canonical = true ∧ Passes s rq .FLW_TBL_CTL [] true ∧ s.get Fld.FLW_TBL_SEL.TABLE = 8
      ∧ s.flowFind (flowKey (s.flwWin 64)) = none) ∧
  (∃ (s : State) (rq : Req), s.canonical = true ∧ Passes s rq .FLW_TBL_CTL [] true ∧ s.get Fld.FLW_TBL_SEL.TABLE = 7
      ∧ s.l2Find (slice (s.flwWin 16) 2 6) (leAt (s.flwWin 16) 8 2) = none) ∧
  (∃ (s : State) (rq : Req) (j : Nat), s.canonical = true ∧ Passes s rq .FLW_TBL_CTL [] true ∧ s.get Fld.FLW_TBL_SEL.TABLE = 8
      ∧ s.flowFind (flowKey (s.flwWin 64)) = some j) ∧
  (∃ (s : State), s.active 5 = true ∧ s.pk.scanAt + max 1 (s.get Fld.FLW_AGE_CFG2.SCAN_S) * 1000000000 / 262144 ≤ s.now) ∧
  (∃ (s : State) (w : Nat), swf flwZero s.pk.tbl = true ∧ s.active 5 = true
      ∧ s.pk.scanAt + max 1 (s.get Fld.FLW_AGE_CFG2.SCAN_S) * 1000000000 / 262144 ≤ s.now ∧ s.flag Fld.FLW_CFG.FT_EN = false ∧ s.pk.scanned < 16384 ∧ w < 4
      ∧ fvalid (s.fent 0 7 (4 * s.pk.scanned + w)) = true ∧ bitOf (leAt (s.fent 0 7 (4 * s.pk.scanned + w)) 0 1) 2 = true
      ∧ s.get Fld.FLW_AGE_CFG2.L2_AGE_S ≠ 0 ∧ s.get Fld.FLW_AGE_CFG2.L2_AGE_S < (s.rawSec + 2 ^ 32 - leAt (s.fent 0 7 (4 * s.pk.scanned + w)) 12 4) % 2 ^ 32) :=
  ⟨⟨upNet, .core 0, by decide +kernel⟩,
  ⟨upNet.setFent 1 3 7 ([1, 9] ++ List.replicate 30 0), .core 0, (3, 7), by decide +kernel⟩,
  ⟨(upNet.setFent 0 3 7 ([1, 9] ++ List.replicate 30 0)).setFent 1 3 9 ([1, 9] ++ List.replicate 30 0), .core 0, 3, 7, by decide +kernel⟩,
  ⟨upNet.pkUpd (fun x => { x with draining := some 1 }), 1, by decide +kernel⟩,
  ⟨(fsel 3 7 []).setFent 1 3 7 ([1, 9] ++ List.replicate 30 0), .core 0, 0, by decide +kernel⟩,
  ⟨fsel 3 7 [1, 9], .core 0, by decide +kernel⟩,
  ⟨fsel 3 7 [16, 9], .core 0, by decide +kernel⟩,
  ⟨(fsel 8 7 [1, 0, 5]), .core 0, by decide +kernel⟩,
  ⟨(fsel 3 7 []).setFent 1 3 7 ([1, 9] ++ List.replicate 30 0), .core 0, by decide +kernel⟩,
  ⟨(fsel 8 7 []).memPut 0x8000001C0 [1, 9, 7], .core 0, by decide +kernel⟩,
  ⟨fsel 7 0 [1, 11, 2, 0, 0, 0, 0, 9, 5, 0], .core 0, l2Base [2, 0, 0, 0, 0, 9] 5, by decide +kernel⟩,
  ⟨fsel 8 0 [1, 0, 2], .core 0, flowBase (2 :: List.replicate 39 0), by decide +kernel⟩,
  ⟨(fsel 7 0 [1, 11, 2, 0, 0, 0, 0, 9, 5, 0]).setFent 0 7 (l2Base [2, 0, 0, 0, 0, 9] 5 + 1) ([1, 11, 2, 0, 0, 0, 0, 9, 5, 0] ++ List.replicate 6 0), .core 0,
      l2Base [2, 0, 0, 0, 0, 9] 5 + 1, by decide +kernel⟩,
  ⟨fsel 8 0 [1, 0, 2], .core 0, by decide +kernel⟩,
  ⟨fsel 7 0 [1, 0, 2], .core 0, by decide +kernel⟩,
  ⟨(fsel 8 0 [1, 0, 2]).memPut (0x800000000 + 64 * flowBase (2 :: List.replicate 39 0)) [1, 0, 2], .core 0, flowBase (2 :: List.replicate 39 0),
      by decide +kernel⟩,
  ⟨{ upNet with now := 100000 }, by decide +kernel⟩,
  ⟨(upNet.setFent 0 7 2 ([5, 11, 2, 0, 0, 0, 0, 9, 5, 0] ++ List.replicate 6 0)).atRaw 400000000000, 2, by decide +kernel⟩⟩

/-- States that meet the hypotheses of `TrafficCommandsComplete`, one for each clause. -/
theorem wit_TrafficCommandsComplete :
  (∃ (s : State) (p : Nat) (o : PktOut), s.tm.pkts = [o] ∧ o.port = p ∧ s.tmPortOk p = true ∧ s.gated p = false ∧ s.subState o.sub ≠ 2
      ∧ s.wac.paused.contains o.sub = false ∧ s.svcOk (s.subSvc o.sub) = true) ∧
  (∃ (s : State) (p : Nat) (o : PktOut), s.tm.pkts = [o] ∧ o.port = p ∧ s.tmPortOk p = true ∧ s.gated p = false ∧ s.subState o.sub ≠ 2
      ∧ s.wac.paused.contains o.sub = false ∧ s.svcOk (s.subSvc o.sub) = true ∧ p < 8 ∧ s.flag Fld.NTU_PTP_CFG.TS_EN [p] = false
      ∧ s.flag Fld.ETH_MSEC_CFG.EN [p] = false) ∧
  (∃ (s : State) (o : PktOut), s.tm.pkts = [o] ∧ o.port = 10 ∧ s.tmPortOk 10 = true ∧ s.gated 10 = false ∧ s.subState o.sub ≠ 2
      ∧ s.wac.paused.contains o.sub = false ∧ s.svcOk (s.subSvc o.sub) = true) ∧
  (∃ (s : State) (p : Nat) (e : Nat), s.tm.pauseEnd[p]? = some (some e) ∧ e ≤ s.now) ∧
  (∃ (s : State) (p : Nat) (l : GateList) (sw : Int), s.canonical = true ∧ s.tm.oper.length = 8 ∧ p < 8 ∧ s.gatePend p = some (l, sw) ∧ s.active 5 = true
      ∧ sw ≤ s.netTime) ∧
  (∃ (s : State) (p : Nat), s.tm.entry.length = 8 ∧ p < 8 ∧ s.active 5 = true ∧ s.gated p = true ∧ s.gateEntry p s.netTime ≠ (s.tm.entry[p]?).getD 0) ∧
  (∃ (s : State) (rq : Req) (p : Nat) (len : Nat), s.canonical = true ∧ s.tm.pending.length = 8 ∧ p < 8 ∧ Passes s rq .TMG_GATE_CTL [p] true ∧ 1 ≤ len % 512
      ∧ len % 512 ≤ 256 ∧ (List.range (len % 512)).any (fun i => decide (s.tmFld 6 (512 * p + 256 * (1 - s.get Fld.TMG_GATE_CTL.OPER_BANK [p]) + i) 0 4 % 2 ^ 24 < 10)) = false
      ∧ 1000 ≤ s.get Fld.TMG_GATE_CYCLE.CYCLE [p] ∧ s.get Fld.TMG_GATE_CYCLE.CYCLE [p] ≤ 1000000000 ∧ s.gatePend p = none) ∧
  (∃ (s : State) (rq : Req) (p : Nat) (len : Nat), s.canonical = true ∧ p < 8 ∧ Passes s rq .TMG_GATE_CTL [p] true ∧ s.gatePend p = none ∧ (len % 512 = 0
      ∨ 256 < len % 512)) ∧
  (∃ (s : State) (rq : Req) (p : Nat) (len : Nat), s.canonical = true ∧ p < 8 ∧ Passes s rq .TMG_GATE_CTL [p] true ∧ s.gatePend p = none ∧ 1 ≤ len % 512
      ∧ len % 512 ≤ 256 ∧ (List.range (len % 512)).any (fun i => decide (s.tmFld 6 (512 * p + 256 * (1 - s.get Fld.TMG_GATE_CTL.OPER_BANK [p]) + i) 0 4 % 2 ^ 24 < 10)) = false
      ∧ (s.get Fld.TMG_GATE_CYCLE.CYCLE [p] < 1000 ∨ 1000000000 < s.get Fld.TMG_GATE_CYCLE.CYCLE [p])) ∧
  (∃ (s : State) (rq : Req) (p : Nat) (len : Nat), s.canonical = true ∧ p < 8 ∧ Passes s rq .TMG_GATE_CTL [p] true ∧ s.gatePend p = none ∧ 1 ≤ len % 512
      ∧ len % 512 ≤ 256 ∧ (List.range (len % 512)).any (fun i => decide (s.tmFld 6 (512 * p + 256 * (1 - s.get Fld.TMG_GATE_CTL.OPER_BANK [p]) + i) 0 4 % 2 ^ 24 < 10)) = true) ∧
  (∃ (s : State) (rq : Req) (p : Nat) (len : Nat), s.canonical = true ∧ p < 8 ∧ Passes s rq .TMG_GATE_CTL [p] true ∧ ((s.gateState p = 2
      → len % 512 = s.get Fld.TMG_GATE_CTL.ADMIN_LEN [p]))) ∧
  (∃ (s : State) (rq : Req) (n : Nat), s.canonical = true ∧ Passes s rq .TMG_TBL_CTL [] true ∧ n < 8) ∧
  (∃ (s : State) (rq : Req), s.canonical = true ∧ swf tmZero s.tm.tbl = true ∧ Passes s rq .TMG_TBL_CTL [] true ∧ 3 ≤ s.get Fld.TMG_TBL_SEL.TABLE
      ∧ s.get Fld.TMG_TBL_SEL.TABLE ≤ 6 ∧ firstBad (s.tmChecks (s.get Fld.TMG_TBL_SEL.TABLE) (s.get Fld.TMG_TBL_SEL.INDEX) (s.tmWin (tmSize (s.get Fld.TMG_TBL_SEL.TABLE)))) = none
      ∧ s.tmBusy (s.get Fld.TMG_TBL_SEL.TABLE) (s.get Fld.TMG_TBL_SEL.INDEX) (s.tmWin (tmSize (s.get Fld.TMG_TBL_SEL.TABLE))) false = false) ∧
  (∃ (s : State) (rq : Req), s.canonical = true ∧ swf tmZero s.tm.tbl = true ∧ Passes s rq .TMG_TBL_CTL [] true ∧ s.get Fld.TMG_TBL_SEL.TABLE = 0
      ∧ firstBad (s.tmChecks (s.get Fld.TMG_TBL_SEL.TABLE) (s.get Fld.TMG_TBL_SEL.INDEX) (s.tmWin (tmSize (s.get Fld.TMG_TBL_SEL.TABLE)))) = none
      ∧ s.tmBusy (s.get Fld.TMG_TBL_SEL.TABLE) (s.get Fld.TMG_TBL_SEL.INDEX) (s.tmWin (tmSize (s.get Fld.TMG_TBL_SEL.TABLE))) false = false) ∧
  (∃ (s : State) (rq : Req), s.canonical = true ∧ swf tmZero s.tm.tbl = true ∧ Passes s rq .TMG_TBL_CTL [] true ∧ s.get Fld.TMG_TBL_SEL.TABLE = 1
      ∧ firstBad (s.tmChecks (s.get Fld.TMG_TBL_SEL.TABLE) (s.get Fld.TMG_TBL_SEL.INDEX) (s.tmWin (tmSize (s.get Fld.TMG_TBL_SEL.TABLE)))) = none
      ∧ s.tmBusy (s.get Fld.TMG_TBL_SEL.TABLE) (s.get Fld.TMG_TBL_SEL.INDEX) (s.tmWin (tmSize (s.get Fld.TMG_TBL_SEL.TABLE))) false = false) ∧
  (∃ (s : State) (rq : Req) (w : Nat), s.canonical = true ∧ Passes s rq .TMG_TBL_CTL [] true ∧ s.get Fld.TMG_TBL_SEL.TABLE ≤ 6
      ∧ firstBad (s.tmChecks (s.get Fld.TMG_TBL_SEL.TABLE) (s.get Fld.TMG_TBL_SEL.INDEX) (s.tmWin (tmSize (s.get Fld.TMG_TBL_SEL.TABLE)))) = some w
      ∧ w < 256) ∧
  (∃ (s : State) (rq : Req), s.canonical = true ∧ swf tmZero s.tm.tbl = true ∧ Passes s rq .TMG_TBL_CTL [] true ∧ s.get Fld.TMG_TBL_SEL.TABLE ≤ 6
      ∧ s.get Fld.TMG_TBL_SEL.TABLE ≠ 2 ∧ ((s.get Fld.TMG_TBL_SEL.TABLE = 6
      → gclBank (s.get Fld.TMG_TBL_SEL.INDEX) ≠ s.get Fld.TMG_GATE_CTL.OPER_BANK [gclPort (s.get Fld.TMG_TBL_SEL.INDEX)]))
      ∧ s.tmBusy (s.get Fld.TMG_TBL_SEL.TABLE) (s.get Fld.TMG_TBL_SEL.INDEX) [] true = false) ∧
  (∃ (s : State) (rq : Req), s.canonical = true ∧ Passes s rq .TMG_TBL_CTL [] true ∧ s.get Fld.TMG_TBL_SEL.TABLE = 2 ∧ swf (fun _ => 0) s.tm.drops = true) :=
  ⟨⟨(upNet.tmUpd (fun x => { x with pkts := [outA 0 (frmA [8, 6])] })), 0, outA 0 (frmA [8, 6]), by decide +kernel⟩,
  ⟨(upNet.tmUpd (fun x => { x with pkts := [outA 0 (frmA [8, 6])] })), 0, outA 0 (frmA [8, 6]), by decide +kernel⟩,
  ⟨({ upNet with plan := { upNet.plan with recs := ⟨8, 0x10, lpA⟩ :: upNet.plan.recs } }.tmUpd (fun x => { x with pkts := [outA 10 (frmA [8, 6])] })),
      outA 10 (frmA [8, 6]), by decide +kernel⟩,
  ⟨upNet.tmUpd (fun x => { x with pauseEnd := [none, some 0] }), 1, 0, by decide +kernel⟩,
  ⟨(upNet.tmUpd (fun x => { x with pending := [none, some (⟨1, 3, 5000, 0⟩, 0)] })), 1, ⟨1, 3, 5000, 0⟩, 0, by decide +kernel⟩,
  ⟨(upNet.setReg .TMG_GATE_CTL [1] 0x80000000).tmUpd (fun x => { x with entry := List.replicate 8 4 }), 1, by decide +kernel⟩,
  ⟨(upNet.setTmTbl 6 (512 + 256) [100, 0, 0, 1]).setTmTbl 6 (512 + 257) [100, 0, 0, 1], .core 0, 1, 2, by decide +kernel⟩,
  ⟨upNet, .core 0, 1, 0, by decide +kernel⟩,
  ⟨((upNet.setTmTbl 6 (512 + 256) [100, 0, 0, 1]).setTmTbl 6 (512 + 257) [100, 0, 0, 1]).setReg .TMG_GATE_CYCLE [1] 999, .core 0, 1, 2, by decide +kernel⟩,
  ⟨upNet, .core 0, 1, 2, by decide +kernel⟩,
  ⟨upNet.tmUpd (fun x => { x with pending := [none, some (⟨1, 3, 5000, 0⟩, 0)] }), .core 0, 1, 0, by decide +kernel⟩,
  ⟨(tsel 3 7 []).setTmTbl 3 7 ([1, 9] ++ List.replicate 30 0), .core 0, 0, by decide +kernel⟩,
  ⟨tsel 3 7 ([0, 0, 0, 0] ++ [1, 0, 0, 0] ++ [0, 1, 0, 0]), .core 0, by decide +kernel⟩,
  ⟨(tsel 0 7 ([1, 0, 0, 0] ++ leBytes 4 500 ++ leBytes 4 900 ++ leBytes 4 5000 ++ leBytes 4 5000)), .core 0, by decide +kernel⟩,
  ⟨(((tsel 1 7 ([1, 0] ++ leBytes 2 3 ++ List.replicate 20 0 ++ [255,
      255])).setTmTbl 3 3 (1 :: List.replicate 31 0)).setTmTbl 4 0 (List.replicate 16 0 ++ [1])).setTmTbl 5 0 (List.replicate 16 0 ++ [1]), .core 0,
      by decide +kernel⟩,
  ⟨tsel 0 7 ([1, 0, 0, 0] ++ [1, 0, 0, 0] ++ [0, 0, 0, 0] ++ [9, 0, 0, 0]), .core 0, 3, by decide +kernel⟩,
  ⟨(tsel 3 7 []).setTmTbl 3 7 ([1, 9] ++ List.replicate 30 0), .core 0, by decide +kernel⟩,
  ⟨(tsel 2 7 []).tmUpd (fun x => { x with drops := sset (fun _ => 0) x.drops 7 5 }), .core 0, by decide +kernel⟩⟩

/-- States that meet the hypotheses of `TimeControlCommandsComplete`, one for each clause. -/
theorem wit_TimeControlCommandsComplete :
  (∃ (s : State) (rq : Req) (off : Int), s.canonical = true ∧ Passes s rq .NTU_TIME_CTL [] true
      ∧ off = s.stepNs + (if s.flag Fld.NTU_STATUS.SLEWING = true then s.slewLeft else 0) ∧ ((s.flag Fld.NTU_CFG.OP8 = true ∨ s.timeState = 0
      ∨ (s.timeState = 2 ∧ s.flag Fld.NTU_STATUS.RELOCK = true ∧ off.natAbs ≤ max s.stepThresh s.unc)))) ∧
  (∃ (s : State) (rq : Req) (off : Int), s.canonical = true ∧ Passes s rq .NTU_TIME_CTL [] true
      ∧ off = s.stepNs + (if s.flag Fld.NTU_STATUS.SLEWING = true then s.slewLeft else 0) ∧ (¬ (s.flag Fld.NTU_CFG.OP8 = true ∨ s.timeState = 0
      ∨ (s.timeState = 2 ∧ s.flag Fld.NTU_STATUS.RELOCK = true ∧ off.natAbs ≤ max s.stepThresh s.unc)) ∧ off.natAbs ≤ s.stepThresh ∧ s.pwr.refclk = true)) ∧
  (∃ (s : State) (rq : Req) (off : Int), s.canonical = true ∧ Passes s rq .NTU_TIME_CTL [] true
      ∧ off = s.stepNs + (if s.flag Fld.NTU_STATUS.SLEWING = true then s.slewLeft else 0) ∧ (¬ (s.flag Fld.NTU_CFG.OP8 = true ∨ s.timeState = 0
      ∨ (s.timeState = 2 ∧ s.flag Fld.NTU_STATUS.RELOCK = true ∧ off.natAbs ≤ max s.stepThresh s.unc)) ∧ s.stepThresh < off.natAbs)) ∧
  (∃ (s : State) (rq : Req), s.canonical = true ∧ Passes s rq .NTU_TIME_CTL [] true ∧ ((s.flag Fld.NTU_CFG.OP8 = true ∨ s.timeState = 0 ∨ (s.timeState = 2
      ∧ s.flag Fld.NTU_STATUS.RELOCK = true ∧ (s.setTarget - s.netTime).natAbs ≤ max s.stepThresh s.unc)))) ∧
  (∃ (s : State) (rq : Req), s.canonical = true ∧ Passes s rq .NTU_TIME_CTL [] true ∧ (¬ (s.flag Fld.NTU_CFG.OP8 = true ∨ s.timeState = 0 ∨ (s.timeState = 2
      ∧ s.flag Fld.NTU_STATUS.RELOCK = true ∧ (s.setTarget - s.netTime).natAbs ≤ max s.stepThresh s.unc)) ∧ (s.setTarget - s.netTime).natAbs ≤ s.stepThresh
      ∧ s.pwr.refclk = true)) ∧
  (∃ (s : State) (rq : Req), s.canonical = true ∧ Passes s rq .NTU_TIME_CTL [] true ∧ (¬ (s.flag Fld.NTU_CFG.OP8 = true ∨ s.timeState = 0 ∨ (s.timeState = 2
      ∧ s.flag Fld.NTU_STATUS.RELOCK = true ∧ (s.setTarget - s.netTime).natAbs ≤ max s.stepThresh s.unc))
      ∧ s.stepThresh < (s.setTarget - s.netTime).natAbs)) ∧
  (∃ (s : State) (rq : Req), s.canonical = true ∧ Passes s rq .NTU_TIME_CTL [] true ∧ s.armed = true) ∧
  (∃ (s : State) (rq : Req), s.canonical = true ∧ Passes s rq .NTU_TIME_CTL [] true ∧ s.armed = false) ∧
  (∃ (s : State) (rq : Req), s.canonical = true ∧ Passes s rq .NTU_TIME_CTL [] true ∧ s.armed = true) ∧
  (∃ (s : State) (rq : Req), s.canonical = true ∧ Passes s rq .NTU_TIME_CTL [] true ∧ s.armed = false) ∧
  (∃ (s : State) (rq : Req), s.canonical = true ∧ Passes s rq .NTU_TIME_CTL [] true ∧ s.timeState = 1) ∧
  (∃ (s : State) (rq : Req), s.canonical = true ∧ Passes s rq .NTU_TIME_CTL [] true) ∧
  (∃ (s : State) (rq : Req), s.canonical = true ∧ Passes s rq .NTU_TIME_CTL [] true) ∧
  (∃ (s : State) (n : Nat), s.canonical = true ∧ s.ntu.armedAt = some n ∧ 1000000 ≤ s.ntu.raw - n) ∧
  (∃ (s : State) (off : Int) (n : Nat), s.canonical = true ∧ s.ntu.slew = some (off, n) ∧ s.slewDone = off) ∧
  (∃ (s : State), s.canonical = true ∧ s.ntu.running = true ∧ s.timeState = 1 ∧ s.flag Fld.NTU_CFG.OP8 = false ∧ s.get Fld.NTU_CFG.SERVO_TO ≠ 0
      ∧ s.get Fld.NTU_CFG.SERVO_TO * 100000000 ≤ s.ntu.raw - s.ntu.wdFrom) ∧
  (∃ (s : State) (rq : Req) (v : Word), s.canonical = true ∧ Passes s rq .NTU_TIME_RATE_HI [] true ∧ s.flag Fld.NTU_CFG.OP8 = false
      ∧ (rateOf (wbits v 7 0) (s.reg .NTU_TIME_RATE_LO).toNat).natAbs ≤ 140737488355) ∧
  (∃ (s : State) (rq : Req), s.canonical = true ∧ Passes s rq .NTU_TIME_NS [] false) :=
  ⟨⟨up.setReg .NTU_STEP_NS [] 0xFFFFFF00, .core 0, -256, by decide +kernel⟩,
  ⟨{ (up.set Fld.NTU_STATUS.TIME_STATE [] 1).setReg .NTU_STEP_NS [] 0xFFFFFFF0 with pwr := { up.pwr with refclk := true } }, .core 0, -16, by decide +kernel⟩,
  ⟨(up.set Fld.NTU_STATUS.TIME_STATE [] 1).setReg .NTU_STEP_NS [] 0xFFFFF0, .core 0, 0xFFFFF0, by decide +kernel⟩,
  ⟨up.setReg .NTU_SET_S_LO [] 77, .core 0, by decide +kernel⟩,
  ⟨{ (up.set Fld.NTU_STATUS.TIME_STATE [] 1).setReg .NTU_SET_NS [] 5 with pwr := { up.pwr with refclk := true } }, .core 0, by decide +kernel⟩,
  ⟨(up.set Fld.NTU_STATUS.TIME_STATE [] 1).setReg .NTU_SET_S_LO [] 77, .core 0, by decide +kernel⟩,
  ⟨{ (up.set Fld.NTU_STATUS.TIME_STATE [] 1).setReg .NTU_STEP_NS [] 0xFFFFF0 with ntu := { up.ntu with armedAt := some 0 } }, .core 0, by decide +kernel⟩,
  ⟨(up.set Fld.NTU_STATUS.TIME_STATE [] 1).setReg .NTU_STEP_NS [] 0xFFFFF0, .core 0, by decide +kernel⟩,
  ⟨{ (up.set Fld.NTU_STATUS.TIME_STATE [] 1).setReg .NTU_SET_S_LO [] 77 with ntu := { up.ntu with armedAt := some 0 } }, .core 0, by decide +kernel⟩,
  ⟨(up.set Fld.NTU_STATUS.TIME_STATE [] 1), .core 0, by decide +kernel⟩,
  ⟨(up.set Fld.NTU_STATUS.TIME_STATE [] 1), .core 0, by decide +kernel⟩,
  ⟨(up.set Fld.NTU_STATUS.TIME_STATE [] 1), .core 0, by decide +kernel⟩,
  ⟨up, .core 0, by decide +kernel⟩,
  ⟨{ up with ntu := { up.ntu with raw := 1000007, armedAt := some 7 } }, 7, by decide +kernel⟩,
  ⟨{ up with ntu := { up.ntu with raw := 1000000007, slew := some (40, 7) } }, 40, 7, by decide +kernel⟩,
  ⟨{ (up.set Fld.NTU_STATUS.TIME_STATE [] 1) with ntu := { up.ntu with raw := 4000000000, running := true } }, by decide +kernel⟩,
  ⟨{ (up.set Fld.NTU_STATUS.TIME_STATE [] 1).setReg .NTU_TIME_RATE_LO [] 1000000 with ntu := { up.ntu with raw := 4000000000, rate := 99999999 } }, .core 0,
      0xFF, by decide +kernel⟩,
  ⟨{ up with ntu := { up.ntu with raw := 5000000007 } }, .core 0, by decide +kernel⟩⟩

/-- States that meet the hypotheses of `PulseAndExchangeCommandsComplete`, one for each clause. -/
theorem wit_PulseAndExchangeCommandsComplete :
  (∃ (s : State), s.pulsesOn = true ∧ s.flag Fld.NTU_PPS_CFG.OUT_EN = true ∧ s.ntu.ppsNext ≤ s.ppsIndex ∧ s.ntu.ppsHighUntil ≤ s.ntu.raw
      ∧ ((s.flag Fld.NTU_PPS_CFG.QUAL = true → s.timeState ≠ 0))) ∧
  (∃ (s : State), s.canonical = true ∧ s.pulsesOn = true) ∧
  (∃ (s : State) (rising : Bool), s.canonical = true ∧ s.pulsesOn = true ∧ s.flag Fld.NTU_TSYNC_CFG.EN = true ∧ s.get Fld.NTU_TSYNC_CFG.DIR = 0
      ∧ (2 ≤ s.get Fld.NTU_TSYNC_CFG.EDGE ∨ s.get Fld.NTU_TSYNC_CFG.EDGE = (if rising = true then 0 else 1))) ∧
  (∃ (s : State) (rq : Req) (v : Word) (n : Int), s.canonical = true ∧ Passes s rq .NTU_TSYNC_START [] true ∧ s.get Fld.NTU_TSYNC_CFG.EN = 1
      ∧ s.get Fld.NTU_TSYNC_CFG.DIR = 1 ∧ s.launch v.toNat = some n) ∧
  (∃ (s : State) (n : Int), s.ntu.tsyncNext = some n ∧ s.pulsesOn = true ∧ n ≤ s.netTime) ∧
  (∃ (s : State) (rq : Req), s.canonical = true ∧ Passes s rq .NTU_CAP_STAT [] false) ∧
  (∃ (s : State) (rq : Req) (e : TxStamp) (rest : List TxStamp), s.canonical = true ∧ Passes s rq .NTU_TXTS_POP [] false ∧ s.ntu.txts = e :: rest) ∧
  (∃ (s : State) (rq : Req), s.canonical = true ∧ Passes s rq .NTU_PTM_CTL [] true ∧ s.ntu.ptmEnabled = true) ∧
  (∃ (s : State) (rq : Req), s.canonical = true ∧ Passes s rq .NTU_PTM_CTL [] true ∧ s.ntu.ptmEnabled = false) ∧
  (∃ (s : State) (a : Nat) (b : Nat), s.canonical = true ∧ s.ntu.ptmSent = some (a, b) ∧ s.ntu.raw - a < 1000000) ∧
  (∃ (s : State) (a : Nat) (b : Nat), s.canonical = true ∧ s.ntu.ptmSent = some (a, b) ∧ 1000000 ≤ s.ntu.raw - a) ∧
  (∃ (s : State), s.canonical = true ∧ s.ntu.running = true ∧ s.flag Fld.NTU_SYNCE_CFG.EN = true ∧ s.get Fld.NTU_SYNCE_STAT.STATE = 1) ∧
  (∃ (s : State) (back : Nat), s.canonical = true ∧ s.ntu.running = true ∧ s.flag Fld.NTU_SYNCE_CFG.EN = true ∧ s.get Fld.NTU_SYNCE_STAT.STATE = 2
      ∧ back + 10000000000 ≤ s.now) ∧
  (∃ (s : State) (a : Nat) (b : Nat), s.canonical = true ∧ s.ntu.running = true ∧ s.pwr.refclk = true ∧ s.pwr.slpOn = true ∧ s.ntu.slpMark = some (a, b)
      ∧ a + 32768 ≤ s.slpTicks) ∧
  (∃ (s : State), s.ntu.running = true ∧ s.pwr.refclk = true ∧ s.pwr.slpOn = true ∧ s.ntu.slpMark = none) ∧
  (∃ (s : State), s.ntu.running = true ∧ s.pwr.slpOn = true ∧ (s.serving = true ∨ s.mode = 2)
      ∧ ((s.pwr.timeRec.map (fun x => x.ticks / 32768)).getD 0) < s.slpTicks / 32768) :=
  ⟨⟨{ (up.set Fld.NTU_PPS_CFG.OUT_EN [] 1) with ntu := { up.ntu with running := true, raw := 7000000000 } }, by decide +kernel⟩,
  ⟨{ up with ntu := { up.ntu with running := true, raw := 7000000000 } }, by decide +kernel⟩,
  ⟨{ (up.set Fld.NTU_TSYNC_CFG.EN [] 1) with ntu := { up.ntu with running := true, raw := 7000000000 } }, true, by decide +kernel⟩,
  ⟨(up.setReg .NTU_TSYNC_CFG [] 0xC0000000), .core 0, 500, 500, by decide +kernel⟩,
  ⟨{ { up with ntu := { up.ntu with running := true, raw := 7000000000 } } with ntu := { ({ up with ntu := { up.ntu with running := true, raw := 7000000000 } }).ntu with tsyncNext := some 500 } },
      500, by decide +kernel⟩,
  ⟨up, .core 0, by decide +kernel⟩,
  ⟨{ up with ntu := { up.ntu with txts := [⟨3, 1, 9, 77⟩] } }, .core 0, ⟨3, 1, 9, 77⟩, [], by decide +kernel⟩,
  ⟨{ up with ntu := { up.ntu with ptmEnabled := true } }, .core 0, by decide +kernel⟩,
  ⟨up, .core 0, by decide +kernel⟩,
  ⟨{ up with ntu := { up.ntu with ptmSent := some (5, 6), raw := 1000 } }, 5, 6, by decide +kernel⟩,
  ⟨{ up with ntu := { up.ntu with ptmSent := some (5, 6), raw := 1000005 } }, 5, 6, by decide +kernel⟩,
  ⟨{ (up.set Fld.NTU_SYNCE_CFG.EN [] 1).set Fld.NTU_SYNCE_STAT.STATE [] 1 with ntu := { up.ntu with running := true } }, by decide +kernel⟩,
  ⟨{ (up.set Fld.NTU_SYNCE_CFG.EN [] 1).set Fld.NTU_SYNCE_STAT.STATE [] 2 with ntu := { up.ntu with running := true }, now := 10000000005 }, 5,
      by decide +kernel⟩,
  ⟨{ up with ntu := { up.ntu with running := true, slpMark := some (5, 0), raw := 1000100000 }, pwr := { up.pwr with refclk := true, slpOn := true, slpBase := 32773 } },
      5, 0, by decide +kernel⟩,
  ⟨{ up with ntu := { up.ntu with running := true }, pwr := { up.pwr with refclk := true, slpOn := true, slpBase := 32773 } }, by decide +kernel⟩,
  ⟨{ up with ntu := { up.ntu with running := true }, pwr := { up.pwr with slpOn := true, slpBase := 32773 } }, by decide +kernel⟩⟩

/-- States that meet the hypotheses of `CoreAndEnqueueCommandsComplete`, one for each clause. -/
theorem wit_CoreAndEnqueueCommandsComplete :
  (∃ (s : State) (rq : Req) (c : Nat), s.canonical = true ∧ c < 8 ∧ Passes s rq .APC_CORE_CTL [c] true ∧ s.get Fld.APC_CORE_CTL.RUN [c] = 0) ∧
  (∃ (s : State) (rq : Req) (c : Nat), s.canonical = true ∧ c < 8 ∧ Passes s rq .APC_CORE_CTL [c] true ∧ s.get Fld.APC_CORE_CTL.RUN [c] = 1) ∧
  (∃ (s : State) (rq : Req) (g : Nat), s.canonical = true ∧ g < 6 ∧ Passes s rq .RGC_CORE_CTL [g] true ∧ s.get Fld.RGC_CORE_CTL.RUN [g] = 0) ∧
  (∃ (s : State) (rq : Req) (g : Nat), s.canonical = true ∧ g < 6 ∧ Passes s rq .RGC_CORE_CTL [g] true ∧ s.get Fld.RGC_CORE_CTL.RUN [g] = 1) ∧
  (∃ (s : State) (g : Nat), s.canonical = true ∧ g < 6 ∧ s.running g = true ∧ (s.get Fld.RGC_CORE_STAT.STATE [g] = 1
      ∨ s.get Fld.RGC_CORE_STAT.STATE [g] = 2)) ∧
  (∃ (s : State) (rq : Req), s.canonical = true ∧ Passes s rq .TLY_ENQ_GO [] true ∧ s.badBead (s.stagedBead (regCopy rq .TLY_ENQ_GO)) = true) ∧
  (∃ (s : State) (rq : Req), s.canonical = true ∧ Passes s rq .TLY_ENQ_GO [] true ∧ s.badBead (s.stagedBead (regCopy rq .TLY_ENQ_GO)) = false
      ∧ s.rodFenced (s.stagedBead (regCopy rq .TLY_ENQ_GO)).rod = true) ∧
  (∃ (s : State) (rq : Req), s.canonical = true ∧ Passes s rq .TLY_ENQ_GO [] true ∧ s.badBead (s.stagedBead (regCopy rq .TLY_ENQ_GO)) = false
      ∧ s.rodFenced (s.stagedBead (regCopy rq .TLY_ENQ_GO)).rod = false
      ∧ s.rodBeads (s.stagedBead (regCopy rq .TLY_ENQ_GO)).rod ≤ s.inflight (s.stagedBead (regCopy rq .TLY_ENQ_GO)).rod) ∧
  (∃ (s : State) (rq : Req), s.canonical = true ∧ Passes s rq .TLY_ENQ_GO [] true ∧ s.badBead (s.stagedBead (regCopy rq .TLY_ENQ_GO)) = false
      ∧ s.rodFenced (s.stagedBead (regCopy rq .TLY_ENQ_GO)).rod = false
      ∧ s.inflight (s.stagedBead (regCopy rq .TLY_ENQ_GO)).rod < s.rodBeads (s.stagedBead (regCopy rq .TLY_ENQ_GO)).rod
      ∧ (s.stagedBead (regCopy rq .TLY_ENQ_GO)).ordered = false) ∧
  (∃ (s : State) (rq : Req), s.canonical = true ∧ Passes s rq .TLY_ENQ_GO [] true ∧ s.badBead (s.stagedBead (regCopy rq .TLY_ENQ_GO)) = false
      ∧ s.rodFenced (s.stagedBead (regCopy rq .TLY_ENQ_GO)).rod = false
      ∧ s.inflight (s.stagedBead (regCopy rq .TLY_ENQ_GO)).rod < s.rodBeads (s.stagedBead (regCopy rq .TLY_ENQ_GO)).rod
      ∧ (s.stagedBead (regCopy rq .TLY_ENQ_GO)).ordered = true) ∧
  (∃ (s : State) (rq : Req) (l : Nat) (r : Nat), s.canonical = true ∧ l < 4 ∧ Passes s rq .TLY_ENQ_GO [] true
      ∧ s.badBead (s.stagedBead (regCopy rq .TLY_ENQ_GO)) = false ∧ s.rodFenced (s.stagedBead (regCopy rq .TLY_ENQ_GO)).rod = false
      ∧ (List.range 8192).any (fun i => !s.tly.delays.any (fun d => d.list == l && d.entry == i)) = true
      ∧ s.launchRaw (s.reg .TLY_ENQ_DUE [] (regCopy rq .TLY_ENQ_GO)).toNat = some r ∧ s.ntu.raw < ceilDiv r (max 1 (s.dlyTick l)) * s.dlyTick l) ∧
  (∃ (s : State) (rq : Req) (l : Nat), s.canonical = true ∧ l < 4 ∧ Passes s rq .TLY_ENQ_GO [] true
      ∧ s.badBead (s.stagedBead (regCopy rq .TLY_ENQ_GO)) = false ∧ s.rodFenced (s.stagedBead (regCopy rq .TLY_ENQ_GO)).rod = false
      ∧ (List.range 8192).any (fun i => !s.tly.delays.any (fun d => d.list == l && d.entry == i)) = true
      ∧ s.launchRaw (s.reg .TLY_ENQ_DUE [] (regCopy rq .TLY_ENQ_GO)).toNat = none
      ∧ s.tly.delays.any (fun d => d.list == l && d.bead.rod == (s.stagedBead (regCopy rq .TLY_ENQ_GO)).rod) = false
      ∧ s.inflight (s.stagedBead (regCopy rq .TLY_ENQ_GO)).rod < s.rodBeads (s.stagedBead (regCopy rq .TLY_ENQ_GO)).rod
      ∧ (s.stagedBead (regCopy rq .TLY_ENQ_GO)).ordered = false) ∧
  (∃ (s : State) (rq : Req) (l : Nat), s.canonical = true ∧ l < 4 ∧ Passes s rq .TLY_ENQ_GO [] true
      ∧ s.badBead (s.stagedBead (regCopy rq .TLY_ENQ_GO)) = false ∧ s.rodFenced (s.stagedBead (regCopy rq .TLY_ENQ_GO)).rod = false
      ∧ (List.range 8192).any (fun i => !s.tly.delays.any (fun d => d.list == l && d.entry == i)) = false) ∧
  (∃ (s : State) (rq : Req) (h : Nat), s.canonical = true ∧ Passes s rq .TLY_DLY_CANCEL [] true
      ∧ s.tly.delays.any (fun d => d.list == h / 8192 % 4 && d.entry == h % 8192) = false) ∧
  (∃ (s : State) (rq : Req) (h : Nat) (d : DelayEnt), s.canonical = true ∧ Passes s rq .TLY_DLY_CANCEL [] true
      ∧ s.tly.delays.find? (fun d => d.list == h / 8192 % 4 && d.entry == h % 8192) = some d ∧ s.ntu.raw < d.due ∧ d.bead.ordered = false) ∧
  (∃ (s : State) (l : Nat) (e : Nat) (d : DelayEnt), s.evtRuns = true ∧ s.tly.delays.find? (fun d => d.list == l && d.entry == e) = some d
      ∧ d.due ≤ s.ntu.raw ∧ (s.tly.delays.takeWhile (fun x => !(x.list == l && x.entry == e))).any (fun x => x.list == l && x.bead.rod == d.bead.rod) = false
      ∧ s.rodFenced d.bead.rod = false ∧ s.inflight d.bead.rod < s.rodBeads d.bead.rod) ∧
  (∃ (s : State) (l : Nat) (e : Nat) (d : DelayEnt), s.tly.delays.find? (fun d => d.list == l && d.entry == e) = some d ∧ s.rodFenced d.bead.rod = false
      ∧ (s.ntu.raw < d.due ∨ s.rodBeads d.bead.rod ≤ s.inflight d.bead.rod)) :=
  ⟨⟨up, .core 0, 3, by decide +kernel⟩,
  ⟨(up.setReg .APC_CORE_CTL [7] 0x80000000).setReg .APC_CORE_STAT [7] 0x10000000, .core 0, 7, by decide +kernel⟩,
  ⟨up, .core 0, 5, by decide +kernel⟩,
  ⟨(up.setReg .RGC_CORE_CTL [4] 0x80000000).setReg .RGC_CORE_STAT [4] 0x10000000, .core 0, 4, by decide +kernel⟩,
  ⟨up.setReg .RGC_CORE_STAT [5] 0x10000000, 5, by decide +kernel⟩,
  ⟨(upT.setReg .TLY_ENQ_W [5] 0xF0000 1), .core 0, by decide +kernel⟩,
  ⟨(upT.setReg .TLY_ENQ_W [5] 0x10000 1).set Fld.AO_STATUS.FENCE_MASK [] 16, .core 0, by decide +kernel⟩,
  ⟨(upT.setReg .TLY_ENQ_W [5] 0 1).tlyUpd (fun t => { t with beads := (List.range 8).map (fun h => beadA h 0 false) }), .core 0, by decide +kernel⟩,
  ⟨(upT.setReg .TLY_ENQ_W [5] 0 1), .core 0, by decide +kernel⟩,
  ⟨(upT.setReg .TLY_ENQ_W [5] 0x8005 1).tlyUpd (fun t => { t with nextSeq := [(5, 8)] }), .core 0, by decide +kernel⟩,
  ⟨(upT.setReg .TLY_ENQ_W [5] 0 1).setReg .TLY_ENQ_DUE [] 5000 1, .core 0, 2, 5000, by decide +kernel⟩,
  ⟨(upT.setReg .TLY_ENQ_W [5] 0 1).atRaw 9000000, .core 0, 2, by decide +kernel⟩,
  ⟨upDly, .core 0, 2, by decide +kernel, by decide, by decide +kernel, by decide +kernel, by decide +kernel, upDly_full⟩,
  ⟨upT, .core 0, 5, by decide +kernel⟩,
  ⟨upT.tlyUpd (fun t => { t with delays := [⟨1, 5, 999, beadA 0 0 false⟩] }), .core 0, 8197, ⟨1, 5, 999, beadA 0 0 false⟩, by decide +kernel⟩,
  ⟨(upT.tlyUpd (fun t => { t with delays := [⟨1, 5, 999, beadA 0 0 false⟩] })).atRaw 5000, 1, 5, ⟨1, 5, 999, beadA 0 0 false⟩, by decide +kernel⟩,
  ⟨upT.tlyUpd (fun t => { t with delays := [⟨1, 5, 999, beadA 0 0 false⟩] }), 1, 5, ⟨1, 5, 999, beadA 0 0 false⟩, by decide +kernel⟩⟩

/-- States that meet the hypotheses of `PickDoneAndEventCommandsComplete`, one for each clause. -/
theorem wit_PickDoneAndEventCommandsComplete :
  (∃ (s : State) (rq : Req), Passes s rq .TLY_PICK [] false ∧ s.headBead rq = none) ∧
  (∃ (s : State) (rq : Req) (b : Bead), s.canonical = true ∧ Passes s rq .TLY_PICK [] false ∧ s.headBead rq = some b) ∧
  (∃ (s : State) (rq : Req) (v : Word) (b : Bead), Passes s rq .TLY_DONE [] true ∧ wbits v 31 30 < 2
      ∧ s.tly.beads.find? (fun b => b.handle == wbits v 13 0 && b.done.isNone) = some b ∧ b.holder = some rq ∧ b.ordered = false) ∧
  (∃ (s : State) (rq : Req) (v : Word) (b : Bead), Passes s rq .TLY_DONE [] true ∧ wbits v 31 30 < 2
      ∧ s.tly.beads.find? (fun b => b.handle == wbits v 13 0 && b.done.isNone) = some b ∧ b.holder = some rq ∧ b.ordered = true
      ∧ b.seq = (sget (fun _ => 0) s.tly.released b.flow) ∧ b.hidden = false ∧ b.flow < 4096 ∧ s.tly.rels.length = 16
      ∧ ((s.tly.rels[b.flow / 256]?).getD []).length < 256
      ∧ s.tly.beads.any (fun x => x.ordered && x.flow == b.flow && x.seq == b.seq && x.done.isSome) = false) ∧
  (∃ (s : State) (rq : Req) (v : Word) (b : Bead), Passes s rq .TLY_DONE [] true ∧ wbits v 31 30 < 2
      ∧ s.tly.beads.find? (fun b => b.handle == wbits v 13 0 && b.done.isNone) = some b ∧ b.holder = some rq ∧ b.ordered = true
      ∧ b.seq ≠ (sget (fun _ => 0) s.tly.released b.flow) ∧ (s.tly.beads.filter (fun x => x.handle == b.handle && x.done.isNone)).length = 1
      ∧ s.tly.beads.any (fun x => x.ordered && x.flow == b.flow && x.seq == (sget (fun _ => 0) s.tly.released b.flow) && x.done.isSome) = false) ∧
  (∃ (s : State) (rq : Req) (q : Nat), q < 16 ∧ Passes s rq .TLY_REL_POP [q] false ∧ (s.tly.rels[q]?).getD [] = []) ∧
  (∃ (s : State) (rq : Req) (q : Nat) (e : RelEnt) (rest : List RelEnt), s.canonical = true ∧ q < 16 ∧ Passes s rq .TLY_REL_POP [q] false
      ∧ s.tly.rels[q]? = some (e :: rest)) ∧
  (∃ (s : State) (n : Nat), n < 256 ∧ s.evt.pend.length = 256 ∧ s.evt.first.length = 256 ∧ s.evtRuns = true ∧ (s.evtMasked n = true ∨ ((s.route n).kind ≠ 4
      ∧ ((s.route n).kind = 5 → bitOf (s.get Fld.EVT_EVTOUT_CFG.PULSE) (s.route n).target = false)))) ∧
  (∃ (s : State) (n : Nat), n < 256 ∧ s.evt.pend.length = 256 ∧ s.evtRuns = true ∧ s.evtMasked n = false ∧ (s.route n).kind = 5
      ∧ bitOf (s.get Fld.EVT_EVTOUT_CFG.PULSE) (s.route n).target = true) ∧
  (∃ (s : State) (n : Nat), n < 256 ∧ s.evtRuns = true ∧ (s.route n).kind = 1 ∧ s.pend n ≠ 0 ∧ s.evtMasked n = false
      ∧ s.tly.beads.any (fun b => b.fromEvent == some n) = false ∧ s.rodFenced (s.route n).target = false
      ∧ s.inflight (s.route n).target < s.rodBeads (s.route n).target) ∧
  (∃ (s : State) (n : Nat), n < 256 ∧ s.evtRuns = true ∧ (s.route n).kind = 1 ∧ s.pend n ≠ 0 ∧ s.evtMasked n = false
      ∧ s.tly.beads.any (fun b => b.fromEvent == some n) = false ∧ s.rodFenced (s.route n).target = false ∧ s.rodBeads (s.route n).target ≠ 0
      ∧ s.rodBeads (s.route n).target ≤ s.inflight (s.route n).target) ∧
  (∃ (s : State) (rq : Req) (e : Nat) (rest : List Nat), s.canonical = true ∧ Passes s rq .EVT_CLAIM [] false ∧ s.claimable rq = e :: rest) ∧
  (∃ (s : State) (rq : Req), Passes s rq .EVT_CLAIM [] false ∧ s.claimable rq = []) ∧
  (∃ (s : State) (f : Nat) (e : Nat) (rest : List Nat), Passes s (.pcie f) .EVT_HCLAIM [] false
      ∧ (List.range 256).filter (fun e => (s.route e).kind == 4 && (s.route e).target == f && s.pend e != 0 && !s.evtMasked e) = e :: rest) ∧
  (∃ (s : State) (f : Nat), Passes s (.pcie f) .EVT_HCLAIM [] false
      ∧ (List.range 256).filter (fun e => (s.route e).kind == 4 && (s.route e).target == f && s.pend e != 0 && !s.evtMasked e) = []) ∧
  (∃ (s : State) (rq : Req), Passes s rq .EVT_CLR [] true) :=
  ⟨⟨upT, .core 0, by decide +kernel⟩,
  ⟨upB [beadA 3 1 false, beadA 6 0 true], .core 0, beadA 6 0 true, by decide +kernel⟩,
  ⟨upB [{ beadA 6 0 false with waiting := false, holder := some (.core 0) }, beadA 7 0 false], .core 0, 6,
      { beadA 6 0 false with waiting := false, holder := some (.core 0) }, by decide +kernel⟩,
  ⟨upB [{ beadA 6 0 true with waiting := false, holder := some (.core 0) }, { beadA 7 0 true with seq := 1, done := some (0, 5) }], .core 0, 0x40000006,
      { beadA 6 0 true with waiting := false, holder := some (.core 0) }, by decide +kernel⟩,
  ⟨(upB [{ { beadA 6 0 true with waiting := false, holder := some (.core 0) } with seq := 8 },
      { beadA 7 0 true with seq := 7 }]).tlyUpd (fun t => { t with released := [(300, 7)] }), .core 0, 6,
      { { beadA 6 0 true with waiting := false, holder := some (.core 0) } with seq := 8 }, by decide +kernel⟩,
  ⟨upT, .core 0, 15, by decide +kernel⟩,
  ⟨upT.tlyUpd (fun t => { t with rels := t.rels.set 1 [⟨261, 7, 0, 99⟩, ⟨261, 8, 1, 98⟩] }), .core 0, 1, ⟨261, 7, 0, 99⟩, [⟨261, 8, 1, 98⟩],
      by decide +kernel⟩,
  ⟨upE ⟨2, 0, 1, 0⟩ 255 0, 255, by decide +kernel⟩,
  ⟨(upE ⟨5, 2, 0, 0⟩ 9 0).set Fld.EVT_EVTOUT_CFG.PULSE [] 15, 9, by decide +kernel⟩,
  ⟨upE ⟨1, 0, 0, 0x44⟩ 9 3, 9, by decide +kernel⟩,
  ⟨(upE ⟨1, 0, 0, 0x44⟩ 9 3).tlyUpd (fun t => { t with beads := (List.range 8).map (fun h => beadA h 0 false) }), 9, by decide +kernel⟩,
  ⟨upE ⟨2, 3, 1, 0⟩ 9 4, .core 3, 9, [], by decide +kernel⟩,
  ⟨upE ⟨3, 3, 1, 0⟩ 9 4, .core 3, by decide +kernel⟩,
  ⟨upE ⟨4, 2, 1, 0⟩ 9 4, 2, 9, [], by decide +kernel⟩,
  ⟨upE ⟨4, 2, 1, 0⟩ 9 4, 1, by decide +kernel⟩,
  ⟨upE ⟨2, 3, 1, 0⟩ 9 4, .core 0, by decide +kernel⟩⟩

/-- States that meet the hypotheses of `ReckonerVectorOperationsComplete`, one for each clause. -/
theorem wit_ReckonerVectorOperationsComplete :
  (∃ (s : State) (k : Nat) (w : Nat), s.canonical = true ∧ s.rkAt k 16 w) ∧
  (∃ (s : State) (k : Nat) (w : Nat), s.canonical = true ∧ s.rkAt k 17 w) ∧
  (∃ (s : State) (k : Nat) (w : Nat), s.canonical = true ∧ s.rkAt k 18 w ∧ fIMM w ≤ 23) ∧
  (∃ (s : State) (k : Nat) (w : Nat), s.canonical = true ∧ s.rkAt k 18 w ∧ 23 < fIMM w) ∧
  (∃ (s : State) (k : Nat) (w : Nat), s.canonical = true ∧ s.rkAt k 19 w) ∧
  (∃ (s : State) (k : Nat) (w : Nat), s.canonical = true ∧ s.rkAt k 20 w) ∧
  (∃ (s : State) (k : Nat) (w : Nat), s.canonical = true ∧ s.rkAt k 21 w ∧ fIMM w ≤ 55) ∧
  (∃ (s : State) (k : Nat) (w : Nat), s.canonical = true ∧ s.rkAt k 21 w ∧ 55 < fIMM w) ∧
  (∃ (s : State) (k : Nat) (w : Nat), s.canonical = true ∧ s.rkAt k 22 w) ∧
  (∃ (s : State) (k : Nat) (w : Nat), s.canonical = true ∧ s.rkAt k 23 w ∧ fCX w = true ∧ (fIMM w % 4 = 1 ∨ fIMM w % 4 = 2)) ∧
  (∃ (s : State) (k : Nat) (w : Nat), s.canonical = true ∧ s.rkAt k 23 w ∧ (fCX w = false ∨ fIMM w % 4 = 0 ∨ fIMM w % 4 = 3)) ∧
  (∃ (s : State) (k : Nat) (w : Nat), s.canonical = true ∧ s.rkAt k 24 w) :=
  ⟨⟨upR 31 0x42646000, 31, 0x42646000, by decide +kernel⟩,
  ⟨upR 31 0x46648001, 31, 0x46648001, by decide +kernel⟩,
  ⟨upR 31 0x4A648604, 31, 0x4A648604, by decide +kernel⟩,
  ⟨upR 31 0x48646018, 31, 0x48646018, by decide +kernel⟩,
  ⟨upR 31 0x4E049C00, 31, 0x4E049C00, by decide +kernel⟩,
  ⟨upR 31 0x50049000, 31, 0x50049000, by decide +kernel⟩,
  ⟨upR 31 0x56A0081F, 31, 0x56A0081F, by decide +kernel⟩,
  ⟨upR 31 0x56A00838, 31, 0x56A00838, by decide +kernel⟩,
  ⟨upR 31 0x5AA0181F, 31, 0x5AA0181F, by decide +kernel⟩,
  ⟨upR 31 0x5EA24412, 31, 0x5EA24412, by decide +kernel⟩,
  ⟨upR 31 0x5EA24001, 31, 0x5EA24001, by decide +kernel⟩,
  ⟨upR 31 0x62A20083, 31, 0x62A20083, by decide +kernel⟩⟩

/-- States that meet the hypotheses of `ReckonerScalarAndMemoryOperationsComplete`, one for each clause. -/
theorem wit_ReckonerScalarAndMemoryOperationsComplete :
  (∃ (s : State) (k : Nat) (w : Nat), s.canonical = true ∧ s.rkAt k 0 w) ∧
  (∃ (s : State) (k : Nat) (w : Nat), s.canonical = true ∧ s.rkAt k 8 w) ∧
  (∃ (s : State) (k : Nat) (w : Nat), s.canonical = true ∧ s.rkAt k 9 w ∧ mC16 w = false) ∧
  (∃ (s : State) (k : Nat) (w : Nat), s.canonical = true ∧ s.rkAt k 9 w ∧ mC16 w = true) ∧
  (∃ (s : State) (k : Nat) (w : Nat), s.canonical = true ∧ s.rkAt k 10 w) ∧
  (∃ (s : State) (k : Nat) (w : Nat), s.canonical = true ∧ s.rkAt k 11 w ∧ mC16 w = false) ∧
  (∃ (s : State) (k : Nat) (w : Nat), s.canonical = true ∧ s.rkAt k 11 w ∧ mC16 w = true) ∧
  (∃ (s : State) (k : Nat) (w : Nat), s.canonical = true ∧ s.rkAt k 32 w) ∧
  (∃ (s : State) (k : Nat) (w : Nat), s.canonical = true ∧ s.rkAt k 33 w) ∧
  (∃ (s : State) (k : Nat) (w : Nat), s.canonical = true ∧ s.rkAt k 34 w) ∧
  (∃ (s : State) (k : Nat) (w : Nat), s.canonical = true ∧ s.rkAt k 35 w) ∧
  (∃ (s : State) (k : Nat) (w : Nat), s.canonical = true ∧ s.rkAt k 36 w) ∧
  (∃ (s : State) (k : Nat) (w : Nat), s.canonical = true ∧ s.rkAt k 37 w) :=
  ⟨⟨upR 31 0x0, 31, 0x0, by decide +kernel⟩,
  ⟨upR 31 0x208503FE, 31, 0x208503FE, by decide +kernel⟩,
  ⟨upR 31 0x248503FE, 31, 0x248503FE, by decide +kernel⟩,
  ⟨upR 31 0x2485220B, 31, 0x2485220B, by decide +kernel⟩,
  ⟨upR 31 0x28851FFE, 31, 0x28851FFE, by decide +kernel⟩,
  ⟨upR 31 0x2C851FFE, 31, 0x2C851FFE, by decide +kernel⟩,
  ⟨upR 31 0x2C852FFE, 31, 0x2C852FFE, by decide +kernel⟩,
  ⟨upR 31 0x81E1FFFB, 31, 0x81E1FFFB, by decide +kernel⟩,
  ⟨upR 31 0x8421ABCD, 31, 0x8421ABCD, by decide +kernel⟩,
  ⟨upR 31 0x8863FFFB, 31, 0x8863FFFB, by decide +kernel⟩,
  ⟨upR 31 0x8C624000, 31, 0x8C624000, by decide +kernel⟩,
  ⟨upR 31 0x90E5FFBF, 31, 0x90E5FFBF, by decide +kernel⟩,
  ⟨upR 31 0x94A20000, 31, 0x94A20000, by decide +kernel⟩⟩

/-- States that meet the hypotheses of `ReckonerControlComplete`, one for each clause. -/
theorem wit_ReckonerControlComplete :
  (∃ (s : State) (rq : Req) (k : Nat), s.canonical = true ∧ k < 32 ∧ s.rkns.length = 32 ∧ Passes s rq .RKN_CTL [k] true ∧ s.rkRuns k = false
      ∧ rkListed (bits (s.rkWord k (s.rkPc k)) 31 26) = true) ∧
  (∃ (s : State) (rq : Req) (k : Nat), s.canonical = true ∧ k < 32 ∧ s.rkns.length = 32 ∧ Passes s rq .RKN_CTL [k] true ∧ s.rkRuns k = false
      ∧ rkListed (bits (s.rkWord k (s.rkPc k)) 31 26) = false) ∧
  (∃ (s : State) (rq : Req) (k : Nat), s.canonical = true ∧ k < 32 ∧ Passes s rq .RKN_CTL [k] true ∧ s.rkRuns k = true
      ∧ s.flag Fld.RKN_CTL.OWNER [k] = true) ∧
  (∃ (s : State) (rq : Req) (k : Nat), s.canonical = true ∧ k < 32 ∧ Passes s rq .RKN_CTL [k] true ∧ s.rkRuns k = false) ∧
  (∃ (s : State) (rq : Req) (k : Nat) (a : Nat) (l : Nat) (hi : Bool), k < 32 ∧ a < 4 ∧ l < 8
      ∧ Passes s rq (if hi = true then .RKN_ACC_HI else .RKN_ACC_LO) [k, 8 * a + l] false ∧ s.rkRuns k = false) ∧
  (∃ (s : State) (rq : Req) (k : Nat) (a : Nat) (l : Nat) (hi : Bool), k < 32 ∧ a < 4 ∧ l < 8
      ∧ Passes s rq (if hi = true then .RKN_ACC_HI else .RKN_ACC_LO) [k, 8 * a + l] false ∧ s.rkRuns k = true) ∧
  (∃ (s : State) (k : Nat) (w : Nat), s.canonical = true ∧ s.rkAt k 1 w ∧ s.flag Fld.RKN_CTL.OWNER [k] = true) ∧
  (∃ (s : State) (k : Nat) (w : Nat) (b : Bead), s.canonical = true ∧ s.rkAt k 1 w ∧ s.flag Fld.RKN_CTL.OWNER [k] = false
      ∧ s.tly.beads.find? (fun b => b.handle == s.get Fld.RKN_STAT.HANDLE [k] && b.done.isNone) = some b ∧ b.ordered = false) ∧
  (∃ (s : State) (k : Nat) (w : Nat) (b : Bead), s.canonical = true ∧ s.rkAt k 1 w ∧ s.flag Fld.RKN_CTL.OWNER [k] = false
      ∧ s.tly.beads.find? (fun b => b.handle == s.get Fld.RKN_STAT.HANDLE [k] && b.done.isNone) = some b ∧ b.ordered = true
      ∧ s.tly.beads.any (fun x => x.ordered && x.flow == b.flow && x.seq == sget (fun _ => 0) s.tly.released b.flow && (x.done.isSome || x.handle == b.handle)) = false) ∧
  (∃ (s : State) (k : Nat) (w : Nat), s.canonical = true ∧ s.rkAt k 2 w ∧ (s.rk k).loops.length < 2
      ∧ notLast (bits (s.rkFetch k ((s.rkPc k + bits w 22 15) % 32768)) 31 26) = false ∧ (if bitOf w 23 = true then (s.reg .RKN_S [k,
      bits w 14 11]).toNat else bits w 14 0) ≠ 0 ∧ bits w 22 15 ≠ 0) ∧
  (∃ (s : State) (k : Nat) (w : Nat), s.canonical = true ∧ s.rkAt k 2 w ∧ (s.rk k).loops.length < 2
      ∧ notLast (bits (s.rkFetch k ((s.rkPc k + bits w 22 15) % 32768)) 31 26) = false ∧ ((if bitOf w 23 = true then (s.reg .RKN_S [k,
      bits w 14 11]).toNat else bits w 14 0) = 0 ∨ bits w 22 15 = 0)) ∧
  (∃ (s : State) (k : Nat) (w : Nat), s.canonical = true ∧ s.rkAt k 2 w ∧ (2 ≤ (s.rk k).loops.length
      ∨ notLast (bits (s.rkFetch k ((s.rkPc k + bits w 22 15) % 32768)) 31 26) = true)) ∧
  (∃ (s : State) (k : Nat) (w : Nat), s.canonical = true ∧ s.rkAt k 3 w ∧ brcTaken (bits w 20 18) (s.reg .RKN_S [k, bits w 24 21]).toNat = true) ∧
  (∃ (s : State) (k : Nat) (w : Nat), s.canonical = true ∧ s.rkAt k 3 w ∧ brcTaken (bits w 20 18) (s.reg .RKN_S [k, bits w 24 21]).toNat = false) ∧
  (∃ (s : State) (k : Nat) (w : Nat), s.canonical = true ∧ s.rkAt k 4 w ∧ (s.rk k).dmas.length < 4 ∧ (s.reg .RKN_S [k,
      bits w 20 17]).toNat + (s.reg .RKN_S [k, bits w 16 13]).toNat * 64 / 4 ≤ 32768 ∧ ((s.reg .RKN_S [k, bits w 16 13]).toNat = 0
      ∨ s.rangeCode (.rkn k) ((s.reg .RKN_S [k, bits w 24 21]).toNat * 64) ((s.reg .RKN_S [k, bits w 16 13]).toNat * 64) = 0)) ∧
  (∃ (s : State) (k : Nat) (w : Nat), s.canonical = true ∧ s.rkAt k 4 w ∧ (s.rk k).dmas.length < 4 ∧ (32768 < (s.reg .RKN_S [k,
      bits w 20 17]).toNat + (s.reg .RKN_S [k, bits w 16 13]).toNat * 64 / 4 ∨ ((s.reg .RKN_S [k, bits w 16 13]).toNat ≠ 0
      ∧ s.rangeCode (.rkn k) ((s.reg .RKN_S [k, bits w 24 21]).toNat * 64) ((s.reg .RKN_S [k, bits w 16 13]).toNat * 64) ≠ 0))) ∧
  (∃ (s : State) (k : Nat) (w : Nat), s.canonical = true ∧ s.rkAt k 4 w ∧ 4 ≤ (s.rk k).dmas.length) ∧
  (∃ (s : State) (k : Nat) (i : Nat) (d : RknDma), k < 32 ∧ s.rkns.length = 32 ∧ (s.rk k).dmas[i]? = some d ∧ d.outDir = false ∧ d.bytes ≠ 0
      ∧ (s.memRead (.rkn k) d.sys d.bytes).1 = 0) ∧
  (∃ (s : State) (k : Nat) (i : Nat) (d : RknDma), k < 32 ∧ s.rkns.length = 32 ∧ (s.rk k).dmas[i]? = some d ∧ d.outDir = true ∧ d.bytes ≠ 0
      ∧ (s.memWrite (.rkn k) d.sys (s.bytes (rkAddr k d.word) d.bytes)).1 = 0) ∧
  (∃ (s : State) (k : Nat) (w : Nat), s.canonical = true ∧ s.rkAt k 5 w ∧ (s.rk k).dmas = []) ∧
  (∃ (s : State) (k : Nat) (w : Nat), s.canonical = true ∧ s.rkAt k 5 w ∧ (s.rk k).dmas ≠ []) ∧
  (∃ (s : State) (k : Nat) (b : Bead), s.canonical = true ∧ k < 32 ∧ s.rkns.length = 32 ∧ s.evtRuns = true ∧ s.active 4 = true ∧ s.rkRuns k = false
      ∧ s.flag Fld.RKN_CTL.OWNER [k] = false ∧ s.headBead (.rkn k) = some b ∧ rkListed (bits (s.rkWord k b.func) 31 26) = true) :=
  ⟨⟨(upR 31 0).set Fld.RKN_STAT.RUN [31] 0, .core 0, 31, by decide +kernel⟩,
  ⟨(upR 31 0x18000000).set Fld.RKN_STAT.RUN [31] 0, .core 0, 31, by decide +kernel⟩,
  ⟨upR 31 0, .core 0, 31, by decide +kernel⟩,
  ⟨up, .core 0, 31, by decide +kernel⟩,
  ⟨(upR 31 0).set Fld.RKN_STAT.RUN [31] 0, .core 0, 31, 3, 7, true, by decide +kernel⟩,
  ⟨upR 31 0, .core 0, 31, 3, 7, true, by decide +kernel⟩,
  ⟨upR 31 0x4000000, 31, 0x4000000, by decide +kernel⟩,
  ⟨(((upR 31 0x4000000).set Fld.RKN_CTL.OWNER [31] 0).set Fld.RKN_STAT.HANDLE [31] 6).tlyUpd (fun t => { t with beads := [beadA 6 2 false] }), 31, 0x4000000,
      beadA 6 2 false, by decide +kernel⟩,
  ⟨(((upR 31 0x4000000).set Fld.RKN_CTL.OWNER [31] 0).set Fld.RKN_STAT.HANDLE [31] 6).tlyUpd (fun t => { t with beads := [{ beadA 6 2 true with seq := 8 }] }),
      31, 0x4000000, { beadA 6 2 true with seq := 8 }, by decide +kernel⟩,
  ⟨upR 31 0x8028064, 31, 0x8028064, by decide +kernel⟩,
  ⟨upR 31 0x8028000, 31, 0x8028000, by decide +kernel⟩,
  ⟨(upR 31 0x8028001).memPut (rkAddr 31 105) (leBytes 4 0x4000000), 31, 0x8028001, by decide +kernel⟩,
  ⟨upR 31 0xC007FFF, 31, 0xC007FFF, by decide +kernel⟩,
  ⟨upR 31 0xC240032, 31, 0xC240032, by decide +kernel⟩,
  ⟨(upR 31 0x10244000).setReg .RKN_S [31, 1] 0x400000, 31, 0x10244000, by decide +kernel⟩,
  ⟨(upR 31 0x10244000).setReg .RKN_S [31, 2] 5000, 31, 0x10244000, by decide +kernel⟩,
  ⟨(upR 31 0x10244000).rkUpd 31 (fun r => { r with dmas := List.replicate 4 ⟨0x10000000, 0, 64, false⟩ }), 31, 0x10244000, by decide +kernel⟩,
  ⟨(upR 31 0).rkUpd 31 (fun r => { r with dmas := [⟨0x10000000, 0, 64, false⟩, ⟨0x10000000, 16, 64, false⟩] }), 31, 1, ⟨0x10000000, 16, 64, false⟩,
      by decide +kernel⟩,
  ⟨(upR 31 0).rkUpd 31 (fun r => { r with dmas := [⟨0x10000000, 96, 64, true⟩] }), 31, 0, ⟨0x10000000, 96, 64, true⟩, by decide +kernel⟩,
  ⟨upR 31 0x14000000, 31, 0x14000000, by decide +kernel⟩,
  ⟨(upR 31 0x14000000).rkUpd 31 (fun r => { r with dmas := [⟨0x10000000, 96, 64, true⟩] }), 31, 0x14000000, by decide +kernel⟩,
  ⟨upB [beadA 6 2 false], 9, beadA 6 2 false, by decide +kernel⟩⟩

/-- States that meet the hypotheses of `MailboxCommandsComplete`, one for each clause. -/
theorem wit_MailboxCommandsComplete :
  (∃ (s : State) (m : MbReq) (q : List MbReq), s.canonical = true ∧ s.mbHead m q 1 ∧ mbCore m.rq = true ∧ s.mbReach m.rq m.addr 64 = true
      ∧ 1 ≤ (m.fld s 0x28 4) ∧ (m.fld s 0x28 4) ≤ 65536 ∧ s.mbReach m.rq (m.fld s 0x20 8) (m.fld s 0x28 4) = true ∧ s.kiln.trngFailed = false) ∧
  (∃ (s : State) (m : MbReq) (q : List MbReq), s.canonical = true ∧ s.mbHead m q 1 ∧ mbCore m.rq = true ∧ s.mbReach m.rq m.addr 64 = true
      ∧ 1 ≤ (m.fld s 0x28 4) ∧ (m.fld s 0x28 4) ≤ 65536 ∧ s.mbReach m.rq (m.fld s 0x20 8) (m.fld s 0x28 4) = true ∧ s.kiln.trngFailed = true) ∧
  (∃ (s : State) (m : MbReq) (q : List MbReq), s.canonical = true ∧ s.mbHead m q 2 ∧ ((mbCore m.rq = true → s.mbReach m.rq m.addr 64 = true))
      ∧ (m.fld s 0x18 4) = 32 ∧ 3661 ≤ (m.fld s 0x28 4) ∧ s.mbReach m.rq (m.fld s 0x10 8) (m.fld s 0x18 4) = true
      ∧ s.mbReach m.rq (m.fld s 0x20 8) 3661 = true) ∧
  (∃ (s : State) (m : MbReq) (q : List MbReq), s.canonical = true ∧ s.mbHead m q 3 ∧ ((mbCore m.rq = true → s.mbReach m.rq m.addr 64 = true))
      ∧ 5552 ≤ (m.fld s 0x28 4) ∧ s.mbReach m.rq (m.fld s 0x20 8) 5552 = true) ∧
  (∃ (s : State) (m : MbReq) (q : List MbReq) (k : Bytes), s.canonical = true ∧ s.mbHead m q 5 ∧ (m.fld s 0x18 4) = 64 ∧ (m.fld s 8 4) < 8192
      ∧ (if mbCore m.rq = true then s.slotWriter m.rq (m.fld s 8 4) else bitOf (leAt (s.slotGroup (m.fld s 8 4)) 3 1) 0) = true ∧ ((mbCore m.rq = true
      → s.mbReach m.rq m.addr 64 = true)) ∧ s.mbReach m.rq (m.fld s 0x10 8) 64 = true ∧ s.slotKey (m.fld s 4 4) = some k ∧ k.length = 32
      ∧ s.slotMay 5 (m.fld s 4 4) = true ∧ (leAt (s.bytes (m.fld s 0x10 8) (m.fld s 0x18 4)) 0 1 = 16
      ∨ leAt (s.bytes (m.fld s 0x10 8) (m.fld s 0x18 4)) 0 1 = 32) ∧ leAt (s.bytes (m.fld s 0x10 8) (m.fld s 0x18 4)) 1 3 = 0
      ∧ allZero (slice (s.bytes (m.fld s 0x10 8) (m.fld s 0x18 4)) (16 + leAt (s.bytes (m.fld s 0x10 8) (m.fld s 0x18 4)) 0 1) (32 - leAt (s.bytes (m.fld s 0x10 8) (m.fld s 0x18 4)) 0 1)) = true) ∧
  (∃ (s : State) (m : MbReq) (q : List MbReq), s.canonical = true ∧ s.mbHead m q 5 ∧ (m.fld s 0x18 4) = 64 ∧ (m.fld s 8 4) < 8192
      ∧ (if mbCore m.rq = true then s.slotWriter m.rq (m.fld s 8 4) else bitOf (leAt (s.slotGroup (m.fld s 8 4)) 3 1) 0) = true ∧ ((mbCore m.rq = true
      → s.mbReach m.rq m.addr 64 = true)) ∧ s.mbReach m.rq (m.fld s 0x10 8) 64 = true ∧ s.slotKey (m.fld s 4 4) = none) ∧
  (∃ (s : State) (m : MbReq) (q : List MbReq), s.canonical = true ∧ s.mbHead m q 6 ∧ mbCore m.rq = true ∧ s.mbReach m.rq m.addr 64 = true
      ∧ (m.fld s 0x18 4) = 16 ∧ (m.fld s 4 4) < 8192 ∧ ((m.fld s 8 4) = 16 ∨ (m.fld s 8 4) = 32) ∧ s.slotWriter m.rq (m.fld s 4 4) = true
      ∧ bitOf (leAt (s.slotGroup (m.fld s 4 4)) 3 1) 1 = true ∧ s.mbReach m.rq (m.fld s 0x10 8) 16 = true) ∧
  (∃ (s : State), s.pwr.powered.contains 6 = true ∧ s.mode ≠ 5 ∧ s.kiln.trngFailed = false) :=
  ⟨⟨upM 1 0 0 0 65 [], ⟨.core 0, 0x10000000⟩, [], by decide +kernel⟩,
  ⟨{ upM 1 0 0 0 65 [] with kiln := { (upM 1 0 0 0 65 []).kiln with trngFailed := true } }, ⟨.core 0, 0x10000000⟩, [], by decide +kernel⟩,
  ⟨upM 2 0 0 32 3661 [], ⟨.core 0, 0x10000000⟩, [], by decide +kernel⟩,
  ⟨upM 3 0 0 0 5552 [], ⟨.core 0, 0x10000000⟩, [], by decide +kernel⟩,
  ⟨upM 5 4 8191 64 0 ([32] ++ List.replicate 3 0 ++ List.replicate 60 5), ⟨.core 0, 0x10000000⟩, [], List.replicate 32 7, by decide +kernel⟩,
  ⟨upM 5 6 8191 64 0 ([32] ++ List.replicate 3 0 ++ List.replicate 60 5), ⟨.core 0, 0x10000000⟩, [], by decide +kernel⟩,
  ⟨upM 6 8191 32 16 0 [], ⟨.core 0, 0x10000000⟩, [], by decide +kernel⟩,
  ⟨{ up with now := 7, kiln := { up.kiln with trngFails := 2 } }, by decide +kernel⟩⟩

/-- States that meet the hypotheses of `TokensComplete`, one for each clause. -/
theorem wit_TokensComplete :
  (∃ (s : State) (m : MbReq) (q : List MbReq) (b : Bytes), s.canonical = true ∧ s.tokenHead m q 1 b) ∧
  (∃ (s : State) (m : MbReq) (q : List MbReq) (b : Bytes), s.canonical = true ∧ s.tokenHead m q 2 b) ∧
  (∃ (s : State) (m : MbReq) (q : List MbReq) (b : Bytes), s.canonical = true ∧ s.tokenHead m q 3 b) ∧
  (∃ (s : State) (m : MbReq) (q : List MbReq) (b : Bytes), s.canonical = true ∧ s.tokenHead m q 4 b) ∧
  (∃ (s : State) (m : MbReq) (q : List MbReq) (b : Bytes), s.canonical = true ∧ s.tokenHead m q 5 b) ∧
  (∃ (s : State) (m : MbReq) (q : List MbReq) (b : Bytes), s.canonical = true ∧ s.tokenHead m q 6 b) ∧
  (∃ (s : State) (m : MbReq) (q : List MbReq) (b : Bytes), s.canonical = true ∧ s.tokenHead m q 7 b) :=
  ⟨⟨upTk 1 1, ⟨.core 0, 0x10000000⟩, [], tokA 1, by decide +kernel⟩,
  ⟨upTk 2 1, ⟨.core 0, 0x10000000⟩, [], tokA 2, by decide +kernel⟩,
  ⟨upTk 3 3, ⟨.core 0, 0x10000000⟩, [], tokA 3, by decide +kernel⟩,
  ⟨upTk 4 1, ⟨.core 0, 0x10000000⟩, [], tokA 4, by decide +kernel⟩,
  ⟨upTk 5 1, ⟨.core 0, 0x10000000⟩, [], tokA 5, by decide +kernel⟩,
  ⟨upTk 6 1, ⟨.core 0, 0x10000000⟩, [], tokA 6, by decide +kernel⟩,
  ⟨upTk 7 1, ⟨.core 0, 0x10000000⟩, [], tokA 7, by decide +kernel⟩⟩

/-- States that meet the hypotheses of `SlotAndJobCommandsComplete`, one for each clause. -/
theorem wit_SlotAndJobCommandsComplete :
  (∃ (s : State) (rq : Req) (slot : Nat), s.canonical = true ∧ slot < 8192 ∧ Passes s rq .CIP_SLOT_CTL [] true ∧ s.slotWriter rq slot = true) ∧
  (∃ (s : State) (rq : Req) (slot : Nat), s.canonical = true ∧ slot < 8192 ∧ Passes s rq .CIP_SLOT_CTL [] true ∧ s.slotWriter rq slot = false) ∧
  (∃ (s : State) (rq : Req) (slot : Nat), s.canonical = true ∧ slot < 8192 ∧ Passes s rq .CIP_SLOT_CTL [] true ∧ s.slotWriter rq slot = true) ∧
  (∃ (s : State) (rq : Req) (slot : Nat), s.canonical = true ∧ slot < 8192 ∧ Passes s rq .CIP_SLOT_CTL [] true ∧ s.slotWriter rq slot = false) ∧
  (∃ (s : State) (r : Nat) (key : Bytes), s.canonical = true ∧ s.jobReady r 1 key) ∧
  (∃ (s : State) (r : Nat) (key : Bytes), s.canonical = true ∧ s.jobReady r 2 key) ∧
  (∃ (s : State) (r : Nat) (key : Bytes), s.canonical = true ∧ s.jobReady r 3 key) ∧
  (∃ (s : State) (r : Nat) (key : Bytes), s.canonical = true ∧ s.jobReady r 4 key) ∧
  (∃ (s : State) (r : Nat) (key : Bytes), s.canonical = true ∧ s.jobReady r 5 key) ∧
  (∃ (s : State) (r : Nat) (key : Bytes), s.canonical = true ∧ s.jobReady r 6 key) ∧
  (∃ (s : State) (r : Nat) (key : Bytes), s.canonical = true ∧ s.jobReady r 7 key) ∧
  (∃ (s : State) (r : Nat) (key : Bytes), s.canonical = true ∧ s.jobReady r 8 key) ∧
  (∃ (s : State) (r : Nat) (key : Bytes), s.canonical = true ∧ s.jobReady r 9 key) ∧
  (∃ (s : State) (r : Nat) (key : Bytes), s.canonical = true ∧ s.jobReady r 10 key) ∧
  (∃ (s : State) (r : Nat) (key : Bytes), s.canonical = true ∧ s.jobReady r 11 key) ∧
  (∃ (s : State) (r : Nat) (j : Job), r < 4 ∧ s.kiln.jobCpl.length = 4 ∧ s.active 5 = true ∧ s.kiln.jobs.find? (fun j => j.ring == r) = some j) ∧
  (∃ (s : State) (rq : Req) (r : Nat), r < 4 ∧ Passes s rq .CIP_CPL_POP [r] false ∧ s.jobCpls r = []) ∧
  (∃ (s : State) (rq : Req) (r : Nat) (c : Cpl) (rest : List Cpl), s.canonical = true ∧ r < 4 ∧ Passes s rq .CIP_CPL_POP [r] false ∧ s.jobCpls r = c :: rest) :=
  ⟨⟨upK.setReg .CIP_SLOT_KEY [3] 77 1, .core 0, 8191, by decide +kernel⟩,
  ⟨up.setReg .CIP_SLOT_KEY [3] 77 1, .core 0, 8191, by decide +kernel⟩,
  ⟨upK, .core 0, 4, by decide +kernel⟩,
  ⟨up, .core 0, 4, by decide +kernel⟩,
  ⟨upJ 1 16 12 50 20, 3, List.replicate 32 7, by decide +kernel⟩,
  ⟨upJ 2 16 12 50 20, 3, List.replicate 32 7, by decide +kernel⟩,
  ⟨upJ 3 4 12 0 20, 3, List.replicate 32 7, by decide +kernel⟩,
  ⟨upJ 4 12 12 0 20, 3, List.replicate 32 7, by decide +kernel⟩,
  ⟨upJ 5 8 13 50 20, 3, List.replicate 32 7, by decide +kernel⟩,
  ⟨upJ 6 16 7 50 20, 3, List.replicate 32 7, by decide +kernel⟩,
  ⟨upJ 7 0 16 50 0, 3, List.replicate 32 7 ++ List.replicate 32 9, by decide +kernel⟩,
  ⟨upJ 8 0 16 50 0, 3, List.replicate 32 7 ++ List.replicate 32 9, by decide +kernel⟩,
  ⟨upJ 9 0 16 50 0, 3, List.replicate 32 7, by decide +kernel⟩,
  ⟨upJ 10 4 0 50 0, 3, List.replicate 32 7, by decide +kernel⟩,
  ⟨upJ 11 16 0 50 0, 3, List.replicate 32 7, by decide +kernel⟩,
  ⟨upK.klnUpd (fun k => { k with jobs := [⟨2, 1, [], 0⟩, ⟨3, 5, dscA 1 16 12 5 5, 1⟩] }), 3, ⟨3, 5, dscA 1 16 12 5 5, 1⟩, by decide +kernel⟩,
  ⟨upK, .core 0, 3, by decide +kernel⟩,
  ⟨upK.klnUpd (fun k => { k with jobCpl := [[], [], [], [⟨5, 1, 99⟩]] }), .core 0, 3, ⟨5, 1, 99⟩, [], by decide +kernel⟩⟩

/-- States that meet the hypotheses of `AshAndJtagCommandsComplete`, one for each clause. -/
theorem wit_AshAndJtagCommandsComplete :
  (∃ (s : State) (r : AshRec) (rest : List AshRec), s.ash.readyAt ≤ s.now ∧ s.ash.summaries = [] ∧ s.ash.queue = r :: rest ∧ s.ash.openSlot = none
      ∧ ashOpens r.type r.payload = false) ∧
  (∃ (s : State) (i : Nat) (r : AshRec) (rest : List AshRec), s.ash.readyAt ≤ s.now ∧ s.ash.summaries = [] ∧ s.ash.queue = r :: rest
      ∧ s.ash.openSlot = some i ∧ i < s.ash.slots.length) ∧
  (∃ (s : State) (r : AshRec) (rest : List AshRec), s.ash.readyAt ≤ s.now ∧ s.ash.summaries = [] ∧ s.ash.queue = r :: rest ∧ s.ash.openSlot = none
      ∧ ashOpens r.type r.payload = true ∧ s.ash.slots.length = 8) ∧
  (∃ (s : State) (r : AshRec) (rest : List AshRec), s.ash.readyAt ≤ s.now ∧ s.ash.summaries = r :: rest) ∧
  (∃ (s : State) (i : Nat) (c : AshCoal), s.ash.coal[i]? = some c ∧ c.closes ≤ s.now ∧ c.count ≠ 0 ∧ s.ash.queue.length < 112) ∧
  (∃ (s : State) (i : Nat) (c : AshCoal), s.ash.coal[i]? = some c ∧ c.closes ≤ s.now ∧ c.count = 0) ∧
  (∃ (s : State) (i : Nat), s.ash.openSlot = some i ∧ s.ash.lastOpening + max 1 (s.get Fld.ASH_CFG.INC_QUIET) * 1000000000 ≤ s.now) ∧
  (∃ (s : State) (rq : Req) (slot : Nat), slot < 8 ∧ Passes s rq .ASH_CTL [] true ∧ s.ash.openSlot ≠ some slot ∧ s.ash.slots.length = 8) ∧
  (∃ (s : State) (rq : Req) (slot : Nat), slot < 8 ∧ Passes s rq .ASH_CTL [] true ∧ s.ash.openSlot = some slot) ∧
  (∃ (s : State), s.pwr.powered.contains 6 = true) ∧
  (∃ (s : State), s.pwr.powered.contains 6 = true) :=
  ⟨⟨upAsh [recA 3 [], recA 2 []] none, recA 3 [], [recA 2 []], by decide +kernel⟩,
  ⟨upAsh [recA 3 [], recA 2 []] (some 2), 2, recA 3 [], [recA 2 []], by decide +kernel⟩,
  ⟨upAsh [recA 2 []] none, recA 2 [], [], by decide +kernel⟩,
  ⟨{ upAsh [recA 2 []] none with ash := { (upAsh [recA 2 []] none).ash with summaries := [{ recA 0x10 [] with incident := 9 }] } },
      { recA 0x10 [] with incident := 9 }, [], by decide +kernel⟩,
  ⟨{ up with ash := { up.ash with coal := [⟨[3, 0xE0], 0, 7, recA 3 []⟩] } }, 0, ⟨[3, 0xE0], 0, 7, recA 3 []⟩, by decide +kernel⟩,
  ⟨{ up with ash := { up.ash with coal := [⟨[3, 0xE0], 0, 0, recA 3 []⟩] } }, 0, ⟨[3, 0xE0], 0, 0, recA 3 []⟩, by decide +kernel⟩,
  ⟨{ upAsh [] (some 2) with now := 10000000000 }, 2, by decide +kernel⟩,
  ⟨upAsh [] (some 3), .core 0, 2, by decide +kernel⟩,
  ⟨upAsh [] (some 2), .core 0, 2, by decide +kernel⟩,
  ⟨up, by decide +kernel⟩,
  ⟨up, by decide +kernel⟩⟩

/-- States that meet the hypotheses of `PortCommandsComplete`, one for each clause. -/
theorem wit_PortCommandsComplete :
  (∃ (s : State) (n : Nat), s.canonical = true ∧ n < 8 ∧ s.lanesOn = true ∧ s.laneUse n ≠ 0 ∧ s.flag Fld.SDS_LANE_STAT.LOCK [n] = false) ∧
  (∃ (s : State) (p : Nat), s.canonical = true ∧ s.lanesOn = true ∧ p < 10 ∧ s.portUp p = false ∧ s.ports.up.length = 10 ∧ (s.lanesOfPort p) ≠ []) ∧
  (∃ (s : State) (p : Nat), s.canonical = true ∧ p < 10 ∧ s.portUp p = true ∧ s.ports.up.length = 10) ∧
  (∃ (s : State) (gen : Nat) (width : Nat), s.canonical = true ∧ s.ports.hostPresented.isSome = true ∧ 1 ≤ gen ∧ gen ≤ 5 ∧ (width = 1 ∨ width = 2
      ∨ width = 4)) ∧
  (∃ (s : State), s.canonical = true ∧ s.flag Fld.HL_STAT.LINK_UP = true) ∧
  (∃ (s : State), s.canonical = true ∧ s.ports.perst = false ∧ s.mode ≠ 0 ∧ s.mode ≠ 2 ∧ (s.boot.ctReady = true ∨ s.mode ≠ 1)) ∧
  (∃ (s : State), s.canonical = true ∧ s.ports.perst = true ∧ s.evt.msixEn.length = 8) ∧
  (∃ (s : State) (f : Nat), s.canonical = true ∧ f < s.hostFuncs ∧ f < 8 ∧ s.evt.msixEn.length = 8) ∧
  (∃ (s : State), s.ports.retry = true ∧ s.ports.perstAt + 20000000 ≤ s.now) ∧
  (∃ (s : State), s.ports.hostPresented.isSome = true ∧ s.ports.retry = true) ∧
  (∃ (s : State) (f : Nat), s.ports.hostPresented.isSome = true ∧ s.ports.retry = false ∧ s.hostFuncs ≤ f) ∧
  (∃ (s : State) (f : Nat), s.ports.hostPresented.isSome = true ∧ s.ports.retry = false ∧ f < s.hostFuncs) ∧
  (∃ (s : State) (f : Nat), s.ports.hostPresented.isSome = true ∧ s.ports.retry = false ∧ f < s.hostFuncs) ∧
  (∃ (s : State) (f : Nat), s.ports.hostPresented.isSome = true ∧ s.ports.retry = false ∧ f < s.hostFuncs) ∧
  (∃ (s : State) (rq : Req) (v : Word), s.canonical = true ∧ s.ports.spi = none ∧ Passes s rq .XIO_SPI_CTL [] true
      ∧ okPort .XIO_SPI_CTL [] (wset v 31 28 1) rq s = true ∧ 0x2000000 ≤ (s.reg .XIO_SPI_ADDR).toNat) ∧
  (∃ (s : State) (rq : Req) (v : Word), s.canonical = true ∧ s.ports.spi = none ∧ Passes s rq .XIO_SPI_CTL [] true
      ∧ okPort .XIO_SPI_CTL [] (wset v 31 28 2) rq s = true ∧ 0x2000000 ≤ (s.reg .XIO_SPI_ADDR).toNat) ∧
  (∃ (s : State) (rq : Req) (v : Word), s.canonical = true ∧ s.ports.spi = none ∧ Passes s rq .XIO_SPI_CTL [] true
      ∧ okPort .XIO_SPI_CTL [] (wset v 31 28 3) rq s = true ∧ 0x2000000 ≤ (s.reg .XIO_SPI_ADDR).toNat) ∧
  (∃ (s : State) (rq : Req) (v : Word), s.canonical = true ∧ s.ports.spi = none ∧ Passes s rq .XIO_SPI_CTL [] true
      ∧ okPort .XIO_SPI_CTL [] (wset v 31 28 4) rq s = true ∧ 0x2000000 ≤ (s.reg .XIO_SPI_ADDR).toNat) ∧
  (∃ (s : State) (rq : Req) (v : Word), s.canonical = true ∧ s.ports.spi = none ∧ Passes s rq .XIO_SPI_CTL [] true
      ∧ okPort .XIO_SPI_CTL [] (wset v 31 28 1) rq s = true ∧ (s.reg .XIO_SPI_ADDR).toNat < 0x2000000) ∧
  (∃ (s : State) (rq : Req) (v : Word), s.canonical = true ∧ s.ports.spi = none ∧ Passes s rq .XIO_SPI_CTL [] true
      ∧ okPort .XIO_SPI_CTL [] (wset v 31 28 2) rq s = true ∧ (s.reg .XIO_SPI_ADDR).toNat < 0x2000000) ∧
  (∃ (s : State) (rq : Req) (v : Word), s.canonical = true ∧ s.ports.spi = none ∧ Passes s rq .XIO_SPI_CTL [] true
      ∧ okPort .XIO_SPI_CTL [] (wset v 31 28 3) rq s = true ∧ (s.reg .XIO_SPI_ADDR).toNat < 0x2000000) ∧
  (∃ (s : State) (rq : Req) (v : Word), s.canonical = true ∧ s.ports.spi = none ∧ Passes s rq .XIO_SPI_CTL [] true
      ∧ okPort .XIO_SPI_CTL [] (wset v 31 28 4) rq s = true ∧ (s.reg .XIO_SPI_ADDR).toNat < 0x2000000) ∧
  (∃ (s : State) (rq : Req) (v : Word), s.ports.spi.isSome = true ∧ Passes s rq .XIO_SPI_CTL [] true ∧ okPort .XIO_SPI_CTL [] (wset v 31 28 1) rq s = true) ∧
  (∃ (s : State) (rq : Req) (v : Word), s.ports.spi.isSome = true ∧ Passes s rq .XIO_SPI_CTL [] true ∧ okPort .XIO_SPI_CTL [] (wset v 31 28 2) rq s = true) ∧
  (∃ (s : State) (rq : Req) (v : Word), s.ports.spi.isSome = true ∧ Passes s rq .XIO_SPI_CTL [] true ∧ okPort .XIO_SPI_CTL [] (wset v 31 28 3) rq s = true) ∧
  (∃ (s : State) (rq : Req) (v : Word), s.ports.spi.isSome = true ∧ Passes s rq .XIO_SPI_CTL [] true ∧ okPort .XIO_SPI_CTL [] (wset v 31 28 4) rq s = true) ∧
  (∃ (s : State) (op : Nat) (len : Nat) (addr : Nat) (sys : Nat), s.canonical = true ∧ s.ports.spi = some (op, len, addr, sys) ∧ s.flashTaken = false
      ∧ s.held.any (fun h => h.addr == 0x60A0000) = false ∧ op = 1 ∧ s.rangeCode (.engine 6 10) (64 * sys) len = 0) ∧
  (∃ (s : State) (op : Nat) (len : Nat) (addr : Nat) (sys : Nat), s.canonical = true ∧ s.ports.spi = some (op, len, addr, sys) ∧ s.flashTaken = false
      ∧ s.held.any (fun h => h.addr == 0x60A0000) = false ∧ op = 2 ∧ s.rangeCode (.engine 6 10) (64 * sys) len = 0) ∧
  (∃ (s : State) (op : Nat) (len : Nat) (addr : Nat) (sys : Nat), s.canonical = true ∧ s.ports.spi = some (op, len, addr, sys) ∧ s.flashTaken = false
      ∧ s.held.any (fun h => h.addr == 0x60A0000) = false ∧ op = 3) ∧
  (∃ (s : State) (op : Nat) (len : Nat) (addr : Nat) (sys : Nat), s.canonical = true ∧ s.ports.spi = some (op, len, addr, sys) ∧ s.flashTaken = false
      ∧ s.held.any (fun h => h.addr == 0x60A0000) = false ∧ op = 4) ∧
  (∃ (s : State) (op : Nat) (len : Nat) (addr : Nat) (sys : Nat), s.canonical = true ∧ s.ports.spi = some (op, len, addr, sys) ∧ s.flashTaken = false
      ∧ s.held.any (fun h => h.addr == 0x60A0000) = false ∧ (op ≤ 2 → s.rangeCode (.engine 6 10) (64 * sys) len = 0)) ∧
  (∃ (s : State) (n : Nat) (level : Bool), s.canonical = true ∧ n < 32 ∧ s.boot.applied.contains 6 = true ∧ (s.mode = 1 ∨ s.mode = 2 ∨ s.serving = true)
      ∧ s.gpioOut n = false ∧ bitOf (s.reg .XIO_GPIO_IN).toNat n ≠ level) :=
  ⟨⟨upP, 1, by decide +kernel⟩,
  ⟨upP, 0, by decide +kernel⟩,
  ⟨(upPp (fun p => { p with up := List.replicate 10 true })).setReg .SDS_LANE_STAT [0] 0x80000000, 0, by decide +kernel⟩,
  ⟨upP, 5, 4, by decide +kernel⟩,
  ⟨upP.setReg .HL_STAT [] 0xFFFFFFFF, by decide +kernel⟩,
  ⟨upPp (fun p => { p with perst := false, hostPresented := none }), by decide +kernel⟩,
  ⟨(upP.setReg .HL_STAT [] 0xFFFFFFFF).setReg .FLW_SW_TX_CFG [8] 0x80000004, by decide +kernel⟩,
  ⟨{ upP with evt := { upP.evt with msixEn := List.replicate 8 true } }, 1, by decide +kernel⟩,
  ⟨{ upPp (fun p => { p with retry := true, perstAt := 7 }) with now := 20000007 }, by decide +kernel⟩,
  ⟨upPp (fun p => { p with retry := true }), by decide +kernel⟩,
  ⟨upP, 2, by decide +kernel⟩,
  ⟨upP, 1, by decide +kernel⟩,
  ⟨upP, 0, by decide +kernel⟩,
  ⟨upP, 1, by decide +kernel⟩,
  ⟨(upP.setReg .XIO_SPI_ADDR [] 0x2001000), .core 0, 0x10000, by decide +kernel⟩,
  ⟨(upP.setReg .XIO_SPI_ADDR [] 0x2001000), .core 0, 0x100, by decide +kernel⟩,
  ⟨(upP.setReg .XIO_SPI_ADDR [] 0x2001000), .core 0, 0, by decide +kernel⟩,
  ⟨(upP.setReg .XIO_SPI_ADDR [] 0x2001000), .core 0, 0, by decide +kernel⟩,
  ⟨upP, .core 0, 0x10, by decide +kernel⟩,
  ⟨upP, .core 0, 0x10, by decide +kernel⟩,
  ⟨upP, .core 0, 0x10, by decide +kernel⟩,
  ⟨upP, .core 0, 0x10, by decide +kernel⟩,
  ⟨(upPp (fun p => { p with spi := some (1, 4, 0x2000000, 5) })), .core 0, 0x80, by decide +kernel⟩,
  ⟨(upPp (fun p => { p with spi := some (1, 4, 0x2000000, 5) })), .core 0, 0x80, by decide +kernel⟩,
  ⟨(upPp (fun p => { p with spi := some (1, 4, 0x2000000, 5) })), .core 0, 0x80, by decide +kernel⟩,
  ⟨(upPp (fun p => { p with spi := some (1, 4, 0x2000000, 5) })), .core 0, 0x80, by decide +kernel⟩,
  ⟨upPp (fun p => { p with spi := some (1, 100, 33554432, 4194304) }), 1, 100, 33554432, 4194304, by decide +kernel⟩,
  ⟨upPp (fun p => { p with spi := some (2, 100, 33554432, 4194304) }), 2, 100, 33554432, 4194304, by decide +kernel⟩,
  ⟨upPp (fun p => { p with spi := some (3, 0, 33554437, 0) }), 3, 0, 33554437, 0, by decide +kernel⟩,
  ⟨upPp (fun p => { p with spi := some (4, 0, 33554437, 0) }), 4, 0, 33554437, 0, by decide +kernel⟩,
  ⟨upPp (fun p => { p with spi := some (3, 0, 33554437, 0) }), 3, 0, 33554437, 0, by decide +kernel⟩,
  ⟨upP.setReg .XIO_GPIO_IRQ [] 0x80000000, 31, true, by decide +kernel⟩⟩

/-- States that meet the hypotheses of `SmbusCommandsComplete`, one for each clause. -/
theorem wit_SmbusCommandsComplete :
  (∃ (s : State), s.smbOn = true) ∧
  (∃ (s : State), s.canonical = true ∧ s.smbOn = true) ∧
  (∃ (s : State) (count : Nat), s.canonical = true ∧ s.smbOn = true ∧ count ≠ 8) ∧
  (∃ (s : State) (burst : Nat), s.smbOn = true ∧ 1 ≤ burst ∧ burst ≤ 60) ∧
  (∃ (s : State), s.canonical = true ∧ s.smbOn = true) ∧
  (∃ (s : State) (burst : Nat) (count : Nat), s.canonical = true ∧ s.smbOn = true ∧ (count ≠ 5 ∨ burst < 1 ∨ 60 < burst)) ∧
  (∃ (s : State), s.smbOn = true ∧ s.ports.smbBurst ≤ 60) ∧
  (∃ (s : State), s.smbOn = true) ∧
  (∃ (s : State), s.canonical = true ∧ s.smbOn = true) ∧
  (∃ (s : State) (d : Bytes) (count : Nat), s.canonical = true ∧ s.smbOn = true ∧ (count ≠ d.length ∨ count < 4 ∨ 252 < count ∨ count % 4 ≠ 0)) ∧
  (∃ (s : State) (d : Bytes), s.smbOn = true ∧ 4 ≤ d.length ∧ d.length ≤ 252 ∧ d.length % 4 = 0) ∧
  (∃ (s : State), s.smbOn = true ∧ s.alertOn = true) ∧
  (∃ (s : State), s.canonical = true ∧ s.smbOn = true) ∧
  (∃ (s : State), s.canonical = true ∧ s.smbOn = true) ∧
  (∃ (s : State), s.canonical = true ∧ s.mode ≠ 0) :=
  ⟨⟨upP, by decide +kernel⟩,
  ⟨upP, by decide +kernel⟩,
  ⟨upP, 7, by decide +kernel⟩,
  ⟨upP, 60, by decide +kernel⟩,
  ⟨upP, by decide +kernel⟩,
  ⟨upP, 61, 5, by decide +kernel⟩,
  ⟨upPp (fun p => { p with smbPtr := 0x7000000, smbBurst := 3 }), by decide +kernel⟩,
  ⟨upPp (fun p => { p with smbBad := true, smbCode := 2 }), by decide +kernel⟩,
  ⟨upP, by decide +kernel⟩,
  ⟨upP, [1, 2, 3, 4, 5], 5, by decide +kernel⟩,
  ⟨upP, [1, 2, 3, 4], by decide +kernel⟩,
  ⟨upAsh [] (some 2), by decide +kernel⟩,
  ⟨upP, by decide +kernel⟩,
  ⟨upP, by decide +kernel⟩,
  ⟨upP.set Fld.SMB_STAT.STUCK [] 1, by decide +kernel⟩⟩

end Sys2Proof.Tests
end

section
/-! PROOFS. Accesses to the register space: what a refused, a performed and a hanging access leaves (R5 to R8, R25, R28, R488 to R491). -/
namespace Sys2Proof.Machine

/-! ## Registers that a write of another register leaves alone, whatever the form of the store -/

/-- A write of a key leaves every other key as it was; the store need not be in canonical form. -/
theorem sget_sset_ne {α : Type} [DecidableEq α] (d : Nat → α) (m : Store α) {k k' : Nat} (v : α) (h : k' ≠ k) :
    sget d (sset d m k v) k' = sget d m k' := by
  have hcons : ∀ t : Store α, sget d (scons d k v t) k' = sget d t k' := fun t => by
    unfold scons
    split
    · rfl
    · exact if_neg h.symm
  induction m with
  | nil => exact hcons []
  | cons e t ih =>
    simp only [sset]
    split
    · exact hcons _
    · split
      next hk =>
        rw [hcons]
        exact (if_neg (hk ▸ h.symm)).symm
      next => simp only [sget, ih]

section Frame
variable (s : State) {r r' : Reg} (ix ix' : List Nat) (c c' : Nat)

theorem State.setReg_reg_other (h : r' ≠ r) (v : Word) : (s.setReg r ix v c).reg r' ix' c' = s.reg r' ix' c' :=
  sget_sset_ne _ _ _ (regKey_ne h)

theorem State.set_reg_other {f : Fld} (h : r' ≠ f.reg) (v : Nat) : (s.set f ix v c).reg r' ix' c' = s.reg r' ix' c' :=
  s.setReg_reg_other ix ix' c c' h _

theorem State.bump_reg_other {f : Fld} (h : r' ≠ f.reg) (n : Nat) : (s.bump f ix n).reg r' ix' c' = s.reg r' ix' c' :=
  s.set_reg_other ix ix' 0 c' h _

theorem State.sets_reg_other (l : List (Fld × Nat)) (h : ∀ e ∈ l, r' ≠ e.1.reg) : (s.sets ix l).reg r' ix' c' = s.reg r' ix' c' := by
  unfold State.sets
  induction l generalizing s with
  | nil => rfl
  | cons e t ih =>
    rw [List.foldl_cons, ih _ fun x hx => h x (List.mem_cons_of_mem _ hx), s.set_reg_other ix ix' 0 c' (h e List.mem_cons_self)]

/-! ## What a refused access leaves (R489, R516) -/

theorem State.holdFault_reg_other (h : r' ∉ errRegs) (g a id code level block : Nat) :
    (s.holdFault g a id code level block).reg r' ix' c' = s.reg r' ix' c' := by
  simp only [errRegs, List.mem_cons, List.not_mem_nil, or_false, not_or] at h
  obtain ⟨hlo, hhi, hinfo, htime⟩ := h
  unfold State.holdFault
  split
  · rw [State.bump_reg_other _ _ _ _ hinfo, State.set_reg_other _ _ _ _ _ hinfo]
  · rw [State.setReg_reg_other _ _ _ _ _ htime, State.setReg_reg_other _ _ _ _ _ hinfo, State.setReg_reg_other _ _ _ _ _ hhi,
      State.setReg_reg_other _ _ _ _ _ hlo]

theorem State.ashAdd_reg (a b : Nat) (d : Bytes) : (s.ashAdd a b d).reg r' ix' c' = s.reg r' ix' c' :=
  reg_congr ((State.ashAdd_keep (m := 784) s a b d rfl (Keep.refl _ _)).part .regs rfl) _ _ _

theorem State.capture_reg_other (h : r' ∉ errRegs) (g level block : Nat) (rq : Req) (code a : Nat) :
    (s.capture g level block rq code a).reg r' ix' c' = s.reg r' ix' c' := by
  unfold State.capture
  rw [State.ashAdd_reg, State.holdFault_reg_other _ _ _ h]

theorem State.hostError_reg_other (h : r' ≠ .HL_FN_ERR) (rq : Req) (bar code : Nat) : (s.hostError rq bar code).reg r' ix' c' = s.reg r' ix' c' := by
  unfold State.hostError
  split
  next f =>
    split
    · rw [State.bump_reg_other _ _ _ _ h]
      split
      · rfl
      · exact State.sets_reg_other _ _ _ _ _ (by simpa using h)
    · rfl
  next => rfl

/-- A refused access changes no register but those of its capture. -/
theorem State.refuse_reg_other (h : r' ∉ refuseRegs) (rq : Req) (g level block code a bar : Nat) :
    (s.refuse rq g level block code a bar).reg r' ix' c' = s.reg r' ix' c' := by
  rw [refuseRegs, List.mem_append, not_or] at h
  obtain ⟨herr, hhost⟩ := h
  exact (State.hostError_reg_other _ _ _ (List.ne_of_not_mem_cons hhost) rq bar code).trans (s.capture_reg_other _ _ herr g level block rq code a)

/-- A refused access changes no part of the state but the response, what leaves, the registers, the events and the log. -/
theorem State.refuse_part (rq : Req) (g level block code a bar : Nat) {p : Part} (h : p ∉ [.resp, .outs, .regs, .evt, .ash]) :
    p.same s (s.refuse rq g level block code a bar) :=
  (State.refuse_keep (m := 818) s rq g level block code a bar rfl (Keep.refl _ _)).part p (by cases p <;> first | rfl | simp at h)

end Frame

/-! ## Fields, mode and events -/

theorem State.get_congr_reg {s t : State} {f : Fld} {ix : List Nat} (h : t.reg f.reg ix = s.reg f.reg ix) : t.get f ix = s.get f ix := by
  unfold State.get
  rw [h]

theorem State.mode_congr {s t : State} (h : t.reg .AO_STATUS = s.reg .AO_STATUS) : t.mode = s.mode :=
  State.get_congr_reg (f := Fld.AO_STATUS.MODE) h

theorem State.fenced_congr {s t : State} (h : t.reg .AO_STATUS = s.reg .AO_STATUS) (r : Nat) : t.fenced r = s.fenced r :=
  congrArg (bitOf · r) (State.get_congr_reg (f := Fld.AO_STATUS.FENCE_MASK) h)

theorem State.raise_regs (s : State) (e : Nat) : (s.raise e).regs = s.regs :=
  (State.raise_keep (m := 272) s e rfl (Keep.refl _ _)).part .regs rfl

theorem State.refuse_mode (s : State) (rq : Req) (g level block code a bar : Nat) : (s.refuse rq g level block code a bar).mode = s.mode :=
  State.mode_congr (s.refuse_reg_other _ _ (by decide) ..)

/-! ## How an access to a register reaches its unit (R379, R488, R547) -/

section Reach
variable {s : State} {rq : Req} {a : Nat}

theorem State.mayAccess_of_ne_jtag (hj : rq ≠ .jtag) : s.mayAccess rq = true := by
  simp [State.mayAccess, hj]

theorem ownMemory_register (ha : a < 0x8000000) : ownMemory rq a = none := by
  unfold ownMemory
  split
  · exact if_neg (by omega)
  · rfl

theorem State.place_register (ha : a < 0x8000000) : s.place rq a = .reg a := if_pos ha

/-- A read at an address of the register space is a register read. -/
theorem State.busRead_register (h0 : s.mode ≠ 0) (hj : rq ≠ .jtag) (ha : a < 0x8000000) (n : Nat) : s.busRead rq a n = s.regRead rq a n := by
  unfold State.busRead
  rw [if_neg (by simp [h0, State.mayAccess_of_ne_jtag hj]), ownMemory_register ha, State.place_register ha]

/-- A write at an address of the register space is a register write. -/
theorem State.busWrite_register (h0 : s.mode ≠ 0) (hj : rq ≠ .jtag) (ha : a < 0x8000000) (n : Nat) (v : Word) :
    s.busWrite rq a n v = s.regWrite rq a n v := by
  unfold State.busWrite
  rw [if_neg (by simp [h0, State.mayAccess_of_ne_jtag hj]), ownMemory_register ha, State.place_register ha]

variable {r : Reg} {ix : List Nat}

/-- A read that passes the judgement is its unit's read, answered with OK. -/
theorem State.busRead_passes (hp : r.placed ix) (hj : rq ≠ .jtag) (h : Passes s rq r ix false) (hok : okRdAll r ix rq s = true) :
    s.busRead rq (r.addr ix) 4 = (rdAll r ix rq s).2.answer rq (rdAll r ix rq s).1 := by
  obtain ⟨hfind, halign, hlt, hlisted⟩ := hp
  rw [State.busRead_register h.1 hj hlt, State.regRead, readReg_passes h hfind halign hlisted hok]

/-- A write that passes the judgement, of a register with room, is its unit's write, answered with OK. -/
theorem State.busWrite_passes {v : Word} (hp : r.placed ix) (hj : rq ≠ .jtag) (h : Passes s rq r ix true) (hw : writable r = true)
    (hroom : fullAll (r.addr ix) v s = false) (hok : okAll r ix v rq s = true) :
    s.busWrite rq (r.addr ix) 4 v = (wrAll r ix v rq s).answer rq 0 := by
  obtain ⟨hfind, halign, hlt, hlisted⟩ := hp
  rw [State.busWrite_register h.1 hj hlt, State.regWrite, if_pos rfl, hroom, writeOrHold_room, writeReg_passes h hfind halign hlisted hw hok]

/-- A write of a register without a writable field is refused with ACCESS, whether its unit has room or not (R8). -/
theorem State.busWrite_readOnly (v : Word) (hp : r.placed ix) (hj : rq ≠ .jtag) (h : Passes s rq r ix true) (hw : writable r = false) :
    s.busWrite rq (r.addr ix) 4 v = s.refuse rq (aRegion (r.addr ix)) 1 (aBlock (r.addr ix)) 2 (r.addr ix) := by
  obtain ⟨hfind, halign, hlt, hlisted⟩ := hp
  obtain ⟨h0, hmode, -, -⟩ := h
  have hjudge := preJudge_none (s := s) (rq := rq) (wr := true) halign hlisted hmode
  have hpass : writePasses rq (r.addr ix) v okAll s = false := by simp [writePasses, hfind, hw]
  rw [State.busWrite_register h0 hj hlt, State.regWrite, if_pos rfl]
  unfold writeOrHold
  rw [hpass, Bool.false_and, if_neg (by decide)]
  unfold writeReg
  rw [if_neg h0, hjudge]
  simp [hfind, hw]

end Reach

/-! ## Fields of a word -/

/-- Writing into a field what it holds changes nothing. -/
theorem wset_wbits_self (w : Word) (hi lo : Nat) : wset w hi lo (wbits w hi lo) = w := by
  have hmod : wbits w hi lo % 2 ^ (hi + 1 - lo) = bits w.toNat hi lo := Nat.mod_eq_of_lt (wbits_lt w hi lo)
  unfold wset setBits
  rw [hmod, Nat.sub_add_cancel (bits_le w.toNat hi lo)]
  exact BitVec.eq_of_toNat_eq (by rw [BitVec.toNat_ofNat, Nat.mod_eq_of_lt w.isLt])

/-- A one-bit field holds 0 or 1. -/
theorem wbits_bit (w : Word) (i : Nat) : wbits w i i = 0 ∨ wbits w i i = 1 := by
  have := wbits_lt w i i
  rw [Nat.add_sub_cancel_left] at this
  omega

/-! ## What a read returns and does (R5, R7, R25) -/

section Read
variable {s : State} {rq : Req} {r : Reg} {ix : List Nat}

/-- The registers whose read is not that of the word held: a unit computes the value, or takes it off a queue. -/
def readElsewhere : List Reg :=
  [.PATH_STAT, .FEN_RFFE_RSP, .ORX_CAP_POP, .CAL_WIN, .PHY_LINK_STAT, .PHY_CCA_STAT, .LDPC_STAT, .SND_EST_POP, .PHY_DFS_POP, .TXA_CH_STAT,
    .TXA_DL_CPL_POP, .TXA_CTR_DATA, .FHU_STAT, .FHU_RET_POP, .RKN_ACC_LO, .RKN_ACC_HI, .WAC_LINK_STAT, .WAC_AFC_SERIAL, .WAC_AFC_STAT, .WAC_TBL_WIN,
    .WAC_MTX_CPL_POP, .WAC_BSR_POP, .PRS_STAT, .FLW_MISS_STAT, .FLW_SW_PEND, .FLW_SW_TX_CPL_POP, .TMG_BUF_STAT, .TMG_PORT_CFG_W0, .TMG_GATE_CTL,
    .TMG_GATE_STAT, .PBF_STAT, .KLN_STAT, .CIP_ATTR, .CIP_CPL_POP, .IDN_LOCK, .IDN_DEVICE_ID_LO, .IDN_DEVICE_ID_HI, .TLY_PICK, .TLY_REL_POP,
    .TLY_ROD_STAT, .TLY_DLY_CFG, .TLY_REL_PEND, .EVT_CLAIM, .EVT_HCLAIM, .EVT_PEND, .NTU_TIME_NS, .NTU_STAMP, .NTU_UNC, .NTU_TXTS_POP, .NTU_CAP_STAT,
    .HKA_POP, .HKA_VAL, .AO_BOOT_INFO, .ASH_STAT, .ASH_SEQ, .ASH_DROPS, .ASH_WIN, .SMB_STAT]

/-- A read of any other register returns the word held, in whatever unit it stands. -/
theorem rdAll_eq_loadWord (h : r ∉ readElsewhere) : rdAll r ix rq s = loadWord r ix rq s := by
  unfold rdAll rdQuad rdArray rdCal rdPhy rdTxa rdFhu rdRkn rdWac rdFlw rdTmg rdMem rdKln rdTly rdNtu rdHka rdAo
  split
  case h_17 => rfl
  all_goals
    split
    all_goals first | with_reducible rfl | simp [readElsewhere] at h

theorem shownWord_of_noWo {fs : List (Nat × Nat × Acc)} (h : fs.all (fun f => f.2.2 != .wo) = true) (w : Word) : shownWord fs w = w := by
  unfold shownWord
  induction fs with
  | nil => rfl
  | cons f t ih =>
    rw [List.all_cons, Bool.and_eq_true] at h
    obtain ⟨hf, ht⟩ := h
    rw [List.foldl_cons]
    split
    next e => simp [e] at hf
    next => exact ih ht

/-- An event counter is one field of 32 bits (R7). -/
theorem fields_of_isRC (h : isRC r = true) : r.fields = [(31, 0, .rc)] := by
  cases r <;> first | rfl | cases h

theorem not_mem_readElsewhere_of_isRC (h : isRC r = true) : r ∉ readElsewhere := fun hm =>
  absurd h (by rw [(by decide : ∀ r ∈ readElsewhere, isRC r = false) r hm]; decide)

/-- No counter has a copy of its own for each requester. -/
theorem regCopy_of_isRC (h : isRC r = true) : regCopy rq r = 0 := by
  unfold regCopy
  split
  case h_16 => rfl
  all_goals cases h

/-- A read of an event counter returns its count and clears it (R7). -/
theorem rdAll_of_isRC (h : isRC r = true) : rdAll r ix rq s = (s.reg r ix, s.setReg r ix 0) := by
  rw [rdAll_eq_loadWord (not_mem_readElsewhere_of_isRC h)]
  unfold loadWord readEffect
  rw [if_pos h, regCopy_of_isRC h, fields_of_isRC h]
  rfl

/-- The result registers whose read takes some of its fields from elsewhere; bit 31 is the one held. -/
def resultElsewhere : List Reg := [.HKA_VAL, .WAC_AFC_STAT, .TMG_GATE_STAT, .NTU_CAP_STAT]

theorem not_mem_readElsewhere_of_isResult (h : isResult r = true) (hr : r ∉ resultElsewhere) : r ∉ readElsewhere := fun hm =>
  hr ((by decide : ∀ r ∈ readElsewhere, isResult r = true → r ∈ resultElsewhere) r hm h)

/-- No result register is an event counter. -/
theorem isRC_of_isResult (h : isResult r = true) : isRC r = false := by
  unfold isResult at h
  split at h
  case h_26 => cases h
  all_goals rfl

/-- Every field of a result register can be read, so a read shows the word held. -/
theorem shownWord_of_isResult (h : isResult r = true) (w : Word) : shownWord r.fields w = w := by
  refine shownWord_of_noWo ?_ w
  unfold isResult at h
  split at h
  case h_26 => cases h
  all_goals rfl

/-- COUNTER_READ answers the count and clears it; an event of the same cycle is counted after the clear (R7). -/
theorem counterRead_clears (same : Bool) (hc : s.canonical = true) (hp : r.placed ix) (hj : rq ≠ .jtag) (hP : Passes s rq r ix false)
    (hok : okRdAll r ix rq s = true) (hr : isRC r = true) :
    Completes (.counterRead rq (r.addr ix) 4 same) s (fun t => t.answered rq (s.reg r ix) ∧ t.reg r ix = w32 (b2n same)) := by
  have hread : s.busRead rq (r.addr ix) 4 = (s.setReg r ix 0).answer rq (s.reg r ix) := by
    rw [State.busRead_passes hp hj hP hok, rdAll_of_isRC hr]
  have hc' : ((s.setReg r ix 0).answer rq (s.reg r ix)).canonical = true :=
    (State.answer_keep (m := 34) _ _ _ rfl (State.setReg_keep s r ix 0 0 rfl (Keep.refl _ _))).canonical hc
  have h0 : ((s.setReg r ix 0).answer rq (s.reg r ix)).reg r ix = 0 := reg_setReg_same hc r ix 0 0
  refine ⟨_, rfl, ?_⟩
  rw [hread]
  cases same with
  | false => exact ⟨rfl, h0⟩
  | true =>
    simp only [State.answer_resp, Option.map_some, true_and, if_true, hp.1, hr]
    exact ⟨rfl, by rw [reg_inc hc', if_pos rfl, h0]; rfl⟩

end Read

/-! ## Reads of result registers (R25, R28) -/

section Result
variable {s : State} {rq : Req} {r : Reg} {ix : List Nat}

/-- An early read adds one to the region's RGC_EARLY_READ, which saturates (R25). -/
theorem State.earlyRead_count (hc : s.canonical = true) (g : Nat) :
    (s.earlyRead g).get Fld.RGC_EARLY_READ.COUNT [g] = satAdd 0xFFFFFFFF (s.get Fld.RGC_EARLY_READ.COUNT [g]) 1 := by
  have hinc : (s.inc .RGC_EARLY_READ [g]).get Fld.RGC_EARLY_READ.COUNT [g] = satAdd 0xFFFFFFFF (s.get Fld.RGC_EARLY_READ.COUNT [g]) 1 := by
    unfold State.get
    rw [reg_inc hc, if_pos rfl, wbits_full, w32_satAdd, wbits_full]
  unfold State.earlyRead
  dsimp only
  split
  · rw [get_congr (State.raise_regs _ _), hinc]
  · exact hinc

/-- Reading a result register counts an early read while the VALID held is 0, and does nothing else. -/
theorem readEffect_of_isResult (h : isResult r = true) (w : Word) :
    readEffect r ix rq w s = if wbits w 31 31 = 0 then s.earlyRead (aRegion (r.addr ix)) else s := by
  unfold readEffect
  rw [isRC_of_isResult h, if_neg Bool.false_ne_true, h, Bool.true_and]
  simp only [beq_iff_eq]

/-- A read of a result register whose fields are all held returns the word held. -/
theorem rdAll_of_isResult (h : isResult r = true) (hr : r ∉ resultElsewhere) :
    rdAll r ix rq s = (s.reg r ix (regCopy rq r), readEffect r ix rq (s.reg r ix (regCopy rq r)) s) := by
  rw [rdAll_eq_loadWord (not_mem_readElsewhere_of_isResult h hr)]
  unfold loadWord
  rw [shownWord_of_isResult h]

/-- A read of a result register other than NTU_CAP_STAT has the effect of a read of the word held, and bit 31 of what it returns is the VALID held. -/
theorem rdAll_result (h : isResult r = true) (hn : r ≠ .NTU_CAP_STAT) :
    ∃ d, rdAll r ix rq s = (d, readEffect r ix rq (s.reg r ix (regCopy rq r)) s) ∧ wbits d 31 31 = wbits (s.reg r ix (regCopy rq r)) 31 31 := by
  by_cases hr : r ∈ resultElsewhere
  · simp only [resultElsewhere, List.mem_cons, List.not_mem_nil, or_false, hn] at hr
    obtain rfl | rfl | rfl := hr
    · match ix with
      | [_, _] => exact ⟨_, rfl, wbits_wset_ne _ _ _ _ _ _ (by decide) (by decide) (by decide)⟩
      | [] | [_] | _ :: _ :: _ :: _ => exact ⟨_, rfl, rfl⟩
    · exact ⟨_, rfl, wbits_wset_ne _ _ _ _ _ _ (by decide) (by decide) (by decide)⟩
    · match ix with
      | [_] =>
        exact ⟨_, rfl, (wbits_wset_ne _ _ _ _ _ _ (by decide) (by decide) (by decide)).trans
          (wbits_wset_ne _ _ _ _ _ _ (by decide) (by decide) (by decide))⟩
      | [] | _ :: _ :: _ => exact ⟨_, rfl, rfl⟩
  · exact ⟨_, rdAll_of_isResult h hr, rfl⟩

/-- Bit 31 of the word that a read of a result register returns is the VALID held. -/
theorem rdAll_result_valid (h : isResult r = true) : wbits (rdAll r ix rq s).1 31 31 = wbits (s.reg r ix (regCopy rq r)) 31 31 := by
  by_cases hn : r = .NTU_CAP_STAT
  · subst hn
    rfl
  · obtain ⟨d, hd, hv⟩ := rdAll_result (ix := ix) (rq := rq) (s := s) h hn
    rw [hd, hv]

/-- A read of a result register counts an early read in its region while the VALID held is 0, and counts none otherwise (R25). -/
theorem rdAll_result_count (hc : s.canonical = true) (h : isResult r = true) :
    (rdAll r ix rq s).2.get Fld.RGC_EARLY_READ.COUNT [aRegion (r.addr ix)] =
      if wbits (s.reg r ix (regCopy rq r)) 31 31 = 0 then satAdd 0xFFFFFFFF (s.get Fld.RGC_EARLY_READ.COUNT [aRegion (r.addr ix)]) 1
      else s.get Fld.RGC_EARLY_READ.COUNT [aRegion (r.addr ix)] := by
  have heffect : (rdAll r ix rq s).2.get Fld.RGC_EARLY_READ.COUNT [aRegion (r.addr ix)] =
      (readEffect r ix rq (s.reg r ix (regCopy rq r)) s).get Fld.RGC_EARLY_READ.COUNT [aRegion (r.addr ix)] := by
    by_cases hn : r = .NTU_CAP_STAT
    · subst hn
      exact State.get_congr_reg ((State.setReg_reg_other _ _ _ _ _ (by decide) _).trans (State.setReg_reg_other _ _ _ _ _ (by decide) _))
    · obtain ⟨d, hd, -⟩ := rdAll_result (ix := ix) (rq := rq) (s := s) h hn
      rw [hd]
  rw [heffect, readEffect_of_isResult h]
  split
  · exact State.earlyRead_count hc _
  · rfl

/-- RESULT_READ answers OK with the VALID held, or with VALID 0 when it falls into the cycle of the commit, and an answer of VALID=0 counts as early (R25, R28). -/
theorem resultRead_answers (same : Bool) (hc : s.canonical = true) (hp : r.placed ix) (hj : rq ≠ .jtag) (hP : Passes s rq r ix false)
    (hok : okRdAll r ix rq s = true) (hr : isResult r = true) :
    Completes (.resultRead rq (r.addr ix) 4 same) s (fun t =>
      let v := wbits (s.reg r ix (regCopy rq r)) 31 31
      let d := (t.resp.map (·.data)).getD 0
      t.answered rq d ∧ wbits d 31 31 = (if same = true then 0 else v) ∧
        (r ∉ resultElsewhere → d = wset (shownWord r.fields (s.reg r ix (regCopy rq r))) 31 31 (if same = true then 0 else v)) ∧
        t.get Fld.RGC_EARLY_READ.COUNT [aRegion (r.addr ix)] =
          (if same = true ∨ v = 0 then satAdd 0xFFFFFFFF (s.get Fld.RGC_EARLY_READ.COUNT [aRegion (r.addr ix)]) 1
          else s.get Fld.RGC_EARLY_READ.COUNT [aRegion (r.addr ix)])) := by
  have hread := State.busRead_passes hp hj hP hok
  have hc' : ((rdAll r ix rq s).2.answer rq (rdAll r ix rq s).1).canonical = true :=
    (State.answer_keep (m := 66225458) _ _ _ rfl (rdAll_keep r ix rq s rfl (Keep.refl _ _))).canonical hc
  have hvalid := rdAll_result_valid (ix := ix) (rq := rq) (s := s) hr
  have hcount := rdAll_result_count (ix := ix) (rq := rq) hc hr
  have hdata : r ∉ resultElsewhere → (rdAll r ix rq s).1 = s.reg r ix (regCopy rq r) := fun hn => by rw [rdAll_of_isResult hr hn]
  have hshown : shownWord r.fields (s.reg r ix (regCopy rq r)) = s.reg r ix (regCopy rq r) := shownWord_of_isResult hr _
  refine ⟨_, rfl, ?_⟩
  rw [hread]
  simp only [State.answer_resp, hp.1, hr, hvalid, true_and]
  by_cases hcommit : same = true ∧ wbits (s.reg r ix (regCopy rq r)) 31 31 = 1
  · obtain ⟨hs, hv⟩ := hcommit
    rw [if_pos ⟨hs, hv⟩, if_pos hs, if_pos (Or.inl hs)]
    refine ⟨rfl, wbits_wset _ _ _ _ (by decide) (by decide), fun hn => ?_, ?_⟩
    · show wset (rdAll r ix rq s).1 31 31 0 = _
      rw [hdata hn, hshown]
    · rw [hv, if_neg (by decide)] at hcount
      exact (State.earlyRead_count hc' _).trans (congrArg (satAdd _ · 1) hcount)
  · have hheld : (if same = true then 0 else wbits (s.reg r ix (regCopy rq r)) 31 31) = wbits (s.reg r ix (regCopy rq r)) 31 31 := by
      split
      next hs => exact ((wbits_bit _ 31).resolve_right fun hv => hcommit ⟨hs, hv⟩).symm
      next => rfl
    have hearly : (same = true ∨ wbits (s.reg r ix (regCopy rq r)) 31 31 = 0) ↔ wbits (s.reg r ix (regCopy rq r)) 31 31 = 0 :=
      or_iff_right_of_imp fun hs => (wbits_bit _ 31).resolve_right fun hv => hcommit ⟨hs, hv⟩
    rw [if_neg hcommit, hheld]
    refine ⟨rfl, hvalid, fun hn => ?_, ?_⟩
    · show (rdAll r ix rq s).1 = _
      rw [hshown, wset_wbits_self, hdata hn]
    · simp only [hearly]
      exact hcount

end Result

/-! ## Writes that only store, and writes of what cannot be written (R8) -/

section Write
variable {s : State} {rq : Req} {r : Reg} {ix : List Nat}

/-- REGISTER_WRITE of a register that only stores it leaves the word of R8 and answers OK. -/
theorem registerWrite_stores (v : Word) (hc : s.canonical = true) (hp : r.placed ix) (hj : rq ≠ .jtag) (hP : Passes s rq r ix true)
    (hw : writable r = true) (hroom : fullAll (r.addr ix) v s = false) (hok : okAll r ix v rq s = true)
    (hstore : wrAll r ix v rq s = storeWord r ix v rq s) :
    Completes (.registerWrite rq (r.addr ix) 4 v) s (fun t => t.answered rq 0 ∧
      t.reg r ix (regCopy rq r) = mergeWord r.fields (s.reg r ix (regCopy rq r)) v) := by
  refine ⟨_, rfl, ?_⟩
  rw [State.busWrite_passes hp hj hP hw hroom hok, hstore]
  exact ⟨rfl, reg_storeWord hc r ix v rq⟩

/-- REGISTER_WRITE of a register without a writable field gets ACCESS, and only the capture of the refusal changes (R8, R489, R516). -/
theorem registerWrite_readOnly (v : Word) (hp : r.placed ix) (hj : rq ≠ .jtag) (hP : Passes s rq r ix true) (hw : writable r = false) :
    Completes (.registerWrite rq (r.addr ix) 4 v) s (fun t => t.resp = some ⟨rq, 2, errData rq⟩ ∧
      (∀ p : Part, p ∉ [.resp, .outs, .regs, .evt, .ash] → p.same s t) ∧ ∀ r2 : Reg, r2 ∉ refuseRegs → ∀ i k, t.reg r2 i k = s.reg r2 i k) := by
  refine ⟨_, rfl, ?_⟩
  rw [State.busWrite_readOnly v hp hj hP hw]
  exact ⟨rfl, fun _ hpart => s.refuse_part _ _ _ _ _ _ _ hpart, fun _ h2 i k => s.refuse_reg_other i k h2 ..⟩

end Write

/-! ## Accesses that time out (R488, R491) -/

section Timeout
variable {s : State} {rq : Req} {a : Nat}

/-- The TIMEOUT responses of the last millisecond, with the one of this instant. -/
def State.timeoutsNow (s : State) (a : Nat) : List (Nat × Nat × Nat) :=
  ((ownerOf a).1, (ownerOf a).2, s.now) :: s.timeouts.filter (fun e => decide (s.now < e.2.2 + 1000000))

/-- An access that times out has been answered and noted. -/
def State.timedOut (s : State) (rq : Req) (a : Nat) : State :=
  State.refuse { s with timeouts := s.timeoutsNow a } rq (ownerOf a).1 1 (ownerOf a).2 5 a

/-- How many of the noted TIMEOUT responses are of the block at the address: those of before in the last millisecond, and this one. -/
theorem timeoutsNow_count : ((s.timeoutsNow a).filter (fun e => e.1 == (ownerOf a).1 && e.2.1 == (ownerOf a).2)).length =
    (s.timeouts.filter (fun e => e.1 == (ownerOf a).1 && e.2.1 == (ownerOf a).2 && decide (s.now < e.2.2 + 1000000))).length + 1 := by
  unfold State.timeoutsNow
  rw [List.filter_cons_of_pos (by simp), List.filter_filter, List.length_cons]

/-- ACCESS_TIMEOUT of an access that reaches its block and that back-pressure does not hold: it is answered and noted, and at HANG_MAX the block hangs. -/
theorem execAccessTimeout_reached (hr : s.reachesBlock rq a = true) (hh : s.held.any (heldAs rq a) = false) :
    exec (.accessTimeout rq a) s = .next (
      if max 1 (s.get Fld.RGC_HANG_CFG.HANG_MAX [(ownerOf a).1]) ≤
        (s.timeouts.filter (fun e => e.1 == (ownerOf a).1 && e.2.1 == (ownerOf a).2 && decide (s.now < e.2.2 + 1000000))).length + 1
      then (s.timedOut rq a).escalate (ownerOf a).1 (ownerOf a).2 (reqId rq) 5 true else s.timedOut rq a) := by
  have hfind : s.held.find? (heldAs rq a) = none := by
    simpa using hh
  show execAccessTimeout rq a s = _
  unfold execAccessTimeout
  simp only [hr, hh, hfind, not_true_eq_false, Bool.false_eq_true, false_and, or_self, if_false]
  rw [← timeoutsNow_count]
  rfl

/-- A time-out that is not yet the HANG_MAX-th of its block in 1 ms is answered TIMEOUT and noted, and fences nothing. -/
theorem accessTimeout_noted (hr : s.reachesBlock rq a = true) (hh : s.held.any (heldAs rq a) = false)
    (hmax : (s.timeouts.filter (fun e => e.1 == (ownerOf a).1 && e.2.1 == (ownerOf a).2)).length + 1 < s.get Fld.RGC_HANG_CFG.HANG_MAX [(ownerOf a).1]) :
    Completes (.accessTimeout rq a) s (fun t => t.resp = some ⟨rq, 5, errData rq⟩ ∧ t.mode = s.mode ∧ t.timeouts = s.timeoutsNow a) := by
  have hle : (s.timeouts.filter (fun e => e.1 == (ownerOf a).1 && e.2.1 == (ownerOf a).2 && decide (s.now < e.2.2 + 1000000))).length ≤
      (s.timeouts.filter (fun e => e.1 == (ownerOf a).1 && e.2.1 == (ownerOf a).2)).length := by
    rw [← List.countP_eq_length_filter, ← List.countP_eq_length_filter]
    exact List.countP_mono_left fun e _ he => (Bool.and_eq_true_iff.mp he).1
  refine ⟨_, execAccessTimeout_reached hr hh, ?_⟩
  rw [if_neg (by omega)]
  exact ⟨rfl, State.refuse_mode .., State.refuse_part (p := .timeouts) _ _ _ _ _ _ _ _ (by decide)⟩

/-! ### The fence of a region (R492) -/

theorem bitOf_maskSet (m i : Nat) : bitOf (maskSet m i) i = true := by
  unfold maskSet
  split
  next h => exact h
  next h =>
    unfold bitOf at *
    simp only [beq_iff_eq] at *
    rw [Nat.add_div_right _ (Nat.two_pow_pos i)]
    omega

theorem bitOf_mod (m : Nat) {i w : Nat} (h : i < w) : bitOf (m % 2 ^ w) i = bitOf m i := by
  have hbit : ∀ n, bitOf n i = n.testBit i := fun n => (Nat.testBit_eq_decide_div_mod_eq ..).symm
  rw [hbit, hbit, Nat.testBit_mod_two_pow, decide_eq_true h, Bool.true_and]

/-- A change of mode writes MODE and no other register. -/
theorem State.setMode_regs (s : State) {m : Nat} (h : s.mode ≠ m) : (s.setMode m).regs = (s.set Fld.AO_STATUS.MODE [] m).regs := by
  have hsaved : (if s.pwr.powered.contains 4 then s.dutyWake.dfsSave else s.dutyWake).regs = s.regs := by
    have hduty : s.dutyWake.regs = s.regs := (State.dutyWake_keep (m := 1048576) s rfl (Keep.refl _ _)).part .regs rfl
    split
    · exact ((State.dfsSave_keep (m := 2097152) _ rfl (Keep.refl _ _)).part .regs rfl).trans hduty
    · exact hduty
  unfold State.setMode
  rw [if_neg h, State.raise_regs, (State.ashMode_keep (m := 784) _ _ rfl (Keep.refl _ _)).part .regs rfl, State.set_regs, State.set_regs]
  simp only [State.reg, hsaved]

theorem State.setMode_mode (hc : s.canonical = true) {m : Nat} (hm : m < 16) : (s.setMode m).mode = m := by
  by_cases h : s.mode = m
  · rw [State.setMode, if_pos h, h]
  · exact (get_congr (s.setMode_regs h) _ _ _).trans ((get_set_same hc _ _ _ _ (by decide) (by decide)).trans (Nat.mod_eq_of_lt hm))

theorem State.setMode_fenced (hc : s.canonical = true) (m r : Nat) : (s.setMode m).fenced r = s.fenced r := by
  by_cases h : s.mode = m
  · rw [State.setMode, if_pos h]
  · exact congrArg (bitOf · r)
      ((get_congr (s.setMode_regs h) _ _ _).trans (get_set_field hc _ _ _ _ _ rfl (by decide) (by decide) (by decide)))

/-- The registers that a fence may change beside RGC_FENCE_CAUSE and AO_STATUS: the mask of `State.fenceDo_wr` without these two. -/
def fenceSideRegs : Nat :=
  0x40000f02030000000000400000040000000000000000000000000000000000000001c00000001500000000048300080000020016240400434c0608804400cc000

/-- What a fence stops leaves the cause of the fence, the mask and the mode. -/
theorem State.fenceStops_wr (s : State) (r : Nat) : Wr fenceSideRegs s ((((s.sleepPreempt 0x13).restackCancel 4).vfLost r).regionStop r) :=
  State.regionStop_wr _ _ rfl (State.vfLost_wr _ _ rfl (State.restackCancel_wr _ _ rfl (State.sleepPreempt_wr _ _ rfl (Wr.refl _ _))))

theorem State.pathsCheck_raise_wr (s : State) (e : Nat) : Wr fenceSideRegs s (s.pathsCheck.raise e) :=
  Wr.of_keep (f := 272) (State.raise_keep (m := 272) _ _ rfl (Keep.refl _ _)) rfl (State.pathsCheck_wr _ rfl (Wr.refl _ _))

theorem State.fallback_coexSettle_wr (s : State) : Wr fenceSideRegs s s.fallback.coexSettle :=
  State.coexSettle_wr _ rfl (State.fallback_wr _ rfl (Wr.refl _ _))

theorem State.escalate_running {r : Nat} (hs : s.serving = true) (hr : r < 6) (hrun : s.running r = true) (block req code : Nat) (hang : Bool) :
    s.escalate r block req code hang = s.fenceDo r block req code hang := by
  have hmode : s.mode = 3 ∨ s.mode = 4 := by simpa [State.serving] using hs
  unfold State.escalate State.fence
  rw [if_pos hr, if_neg (by omega), if_neg (by omega), if_pos ⟨hs, hr, hrun⟩]

theorem Wr.fence_cause {s t : State} (h : Wr fenceSideRegs s t) (hc : s.canonical = true) (r : Nat) :
    t.reg .RGC_FENCE_CAUSE [r] = s.reg .RGC_FENCE_CAUSE [r] := h.reg hc _ rfl _ _

theorem Wr.fence_aoStatus {s t : State} (h : Wr fenceSideRegs s t) (hc : s.canonical = true) : t.reg .AO_STATUS = s.reg .AO_STATUS :=
  h.reg hc _ rfl _ _

/-- The word of RGC_FENCE_CAUSE that names block, requester, HANG and code (R492). -/
def fenceWord (block req code : Nat) (hang : Bool) : Word := w32 (2 ^ 31 + block * 65536 + req * 256 + b2n hang * 16 + code)

/-- The region's bit of FENCE_MASK is set; the cause stays. -/
theorem State.fenceMask_set (hc : s.canonical = true) {r : Nat} (hr : r < 6) (ts : List (Nat × Nat × Nat)) (m : Nat) :
    let t := State.set { s with timeouts := ts } Fld.AO_STATUS.FENCE_MASK [] (maskSet m r)
    t.canonical = true ∧ t.fenced r = true ∧ t.reg .RGC_FENCE_CAUSE [r] = s.reg .RGC_FENCE_CAUSE [r] := by
  have hc' : ({ s with timeouts := ts } : State).canonical = true := hc
  refine ⟨(State.set_keep (m := 32) _ _ _ _ _ rfl (Keep.refl _ _)).canonical hc', ?_, State.set_reg_other _ _ _ _ _ (by decide) _⟩
  unfold State.fenced
  rw [get_set_same hc' _ _ _ _ (by decide) (by decide)]
  exact (bitOf_mod _ hr).trans (bitOf_maskSet m r)

/-- The end of a fence: the mode becomes Fenced, and what follows it leaves FENCE_MASK and the cause. -/
theorem State.fenceEnd_fenced (hc : s.canonical = true) (r e : Nat) :
    let t := (((s.pathsCheck.raise e).setMode 4).fallback).coexSettle
    t.mode = 4 ∧ t.fenced r = s.fenced r ∧ t.reg .RGC_FENCE_CAUSE [r] = s.reg .RGC_FENCE_CAUSE [r] := by
  have hpaths := s.pathsCheck_raise_wr e
  have hcPaths := hpaths.canonical hc
  have hmode : Wr 0x20 (s.pathsCheck.raise e) ((s.pathsCheck.raise e).setMode 4) := State.setMode_wr _ _ rfl (Wr.refl _ _)
  have hcMode := hmode.canonical hcPaths
  have hend := ((s.pathsCheck.raise e).setMode 4).fallback_coexSettle_wr
  refine ⟨?_, ?_, ?_⟩
  · rw [State.mode_congr (hend.fence_aoStatus hcMode), State.setMode_mode hcPaths (by decide)]
  · rw [State.fenced_congr (hend.fence_aoStatus hcMode), State.setMode_fenced hcPaths, State.fenced_congr (hpaths.fence_aoStatus hc)]
  · rw [hend.fence_cause hcMode, hmode.reg hcPaths .RGC_FENCE_CAUSE (by decide), hpaths.fence_cause hc]

/-- A fence of a region 0 to 5 leaves the mode Fenced, the region's bit of FENCE_MASK set and the cause in RGC_FENCE_CAUSE (R492). -/
theorem State.fenceDo_fenced (hc : s.canonical = true) {r : Nat} (hr : r < 6) (block req code : Nat) (hang : Bool) :
    (s.fenceDo r block req code hang).mode = 4 ∧ (s.fenceDo r block req code hang).fenced r = true ∧
      (s.fenceDo r block req code hang).reg .RGC_FENCE_CAUSE [r] = fenceWord block req code hang := by
  unfold State.fenceDo
  dsimp only
  generalize hs1 : (s.setReg .RGC_FENCE_CAUSE [r] _).ashAdd _ _ _ = s1
  have hcause1 : s1.reg .RGC_FENCE_CAUSE [r] = fenceWord block req code hang := by
    rw [← hs1, State.ashAdd_reg, reg_setReg_same hc]
    rfl
  have hc1 : s1.canonical = true := by
    rw [← hs1]
    exact (State.ashAdd_keep (m := 816) _ _ _ _ rfl (State.setReg_keep _ _ _ _ _ rfl (Keep.refl _ _))).canonical hc
  have hstops := s1.fenceStops_wr r
  obtain ⟨hc3, hfenced, hcause3⟩ := State.fenceMask_set (hstops.canonical hc1) hr _ _
  obtain ⟨hmode, hmask, hcause⟩ := State.fenceEnd_fenced hc3 r (ev r 0)
  exact ⟨hmode, hmask.trans hfenced, hcause.trans (hcause3.trans ((hstops.fence_cause hc1 r).trans hcause1))⟩

/-- The HANG_MAX-th time-out of a block of a running region 0 to 5 within 1 ms fences the region with cause HANG and code TIMEOUT (R491, R492). -/
theorem accessTimeout_fences (hc : s.canonical = true) (hr : s.reachesBlock rq a = true) (hh : s.held.any (heldAs rq a) = false)
    (hreg : (ownerOf a).1 < 6) (hs : s.serving = true) (hrun : s.running (ownerOf a).1 = true)
    (hmax : s.get Fld.RGC_HANG_CFG.HANG_MAX [(ownerOf a).1] ≤
      (s.timeouts.filter (fun e => e.1 == (ownerOf a).1 && e.2.1 == (ownerOf a).2 && decide (s.now < e.2.2 + 1000000))).length + 1) :
    Completes (.accessTimeout rq a) s (fun t => t.mode = 4 ∧ t.fenced (ownerOf a).1 = true ∧
      t.reg .RGC_FENCE_CAUSE [(ownerOf a).1] = fenceWord (ownerOf a).2 (reqId rq) 5 true) := by
  have hkeep := State.refuse_keep (m := 818) { s with timeouts := s.timeoutsNow a } rq (ownerOf a).1 1 (ownerOf a).2 5 a 0 rfl (Keep.refl _ _)
  have hao : (s.timedOut rq a).reg .AO_STATUS = s.reg .AO_STATUS := State.refuse_reg_other _ _ _ (by decide) ..
  have hs' : (s.timedOut rq a).serving = true := by
    unfold State.serving
    rw [State.mode_congr hao]
    exact hs
  have hrun' : (s.timedOut rq a).running (ownerOf a).1 = true := by
    unfold State.running
    rw [State.fenced_congr hao, State.timedOut, hkeep.part .boot rfl, hkeep.part .pwr rfl, hkeep.part .push rfl]
    exact hrun
  refine ⟨_, execAccessTimeout_reached hr hh, ?_⟩
  rw [if_pos (by omega), State.escalate_running hs' hreg hrun']
  exact State.fenceDo_fenced (hkeep.canonical hc) hreg ..

end Timeout

/-! ## The state after reset (R2) -/

theorem reset_shaped : State.reset.shaped := by decide

theorem reset_sized : State.reset.sized := ⟨List.length_replicate, List.length_replicate, by decide⟩

end Sys2Proof.Machine
end

section
open Sys2Proof Sys2Proof.Machine

/-- Settles O10: the read answers the count of before, and the event is counted after the clear. -/
theorem counterReadKeepsTheSameCycleEvent : Obligations.CounterReadKeepsTheSameCycleEvent := by
  unfold Obligations.CounterReadKeepsTheSameCycleEvent
  intro s rq r ix hc hp hj hP hok hr
  exact counterRead_clears true hc hp hj hP hok hr

/-- Settles O4: nothing has been written yet, so every store is empty, and every list of units stands at its number. -/
theorem resetIsWellKept : Obligations.ResetIsWellKept := by
  unfold Obligations.ResetIsWellKept
  exact ⟨rfl, reset_shaped, reset_sized, rfl⟩

/-- Settles O14, clause by clause: the write, the refusal, the two reads and the two time-outs. -/
theorem accessesComplete : Obligations.AccessesComplete := by
  unfold Obligations.AccessesComplete
  refine ⟨?_, ?_, ?_, ?_, ?_, ?_⟩
  · intro s rq r ix v hc hp hj hP hw hroom hok hstore
    exact registerWrite_stores v hc hp hj hP hw hroom hok hstore
  · intro s rq r ix v _ hp hj hP hw
    exact registerWrite_readOnly v hp hj hP hw
  · intro s rq r ix same hc hp hj hP hok hr
    exact counterRead_clears same hc hp hj hP hok hr
  · intro s rq r ix same hc hp hj hP hok hr
    exact resultRead_answers same hc hp hj hP hok hr
  · intro s rq a hr hh hmax
    exact accessTimeout_noted hr hh hmax
  · intro s rq a hc hr hh hreg hs hrun _ hmax
    exact accessTimeout_fences hc hr hh hreg hs hrun hmax
end

section
/-! PROOFS. Array processing: transmit filters, beam records, pre-distortion sets and calibration sets come into use (R118, R125, R126, R133, R145). -/
namespace Sys2Proof.Machine

/-! ## A quadrant and its sets after an update -/

section Quadrant
variable {s : State} {q : Nat}

theorem State.quad_quadUpd (hq : q < s.radio.quads.length) (f : Quad → Quad) : (s.quadUpd q f).quad q = f (s.quad q) := by
  simp [State.quad, updAt, hq]

/-- What an update of a quadrant leaves of every quadrant, it leaves in the state. -/
theorem State.quad_quadUpd_frame {α : Type} (field : Quad → α) {f : Quad → Quad} (hf : ∀ d, field (f d) = field d) (q' : Nat) :
    field ((s.quadUpd q f).quad q') = field (s.quad q') := by
  unfold State.quad
  rw [State.quadUpd_radio, updAt, List.getElem?_modify]
  cases s.radio.quads[q']? with
  | none => rfl
  | some d =>
    by_cases h : q = q'
    · simpa [h] using hf d
    · simp [h]

theorem lt_quads_of_shaped (hs : s.shaped) (hq : q < 4) : q < s.radio.quads.length := by
  obtain ⟨hquads, -⟩ := hs
  rwa [hquads]

theorem State.length_quads_quadUpd (f : Quad → Quad) : (s.quadUpd q f).radio.quads.length = s.radio.quads.length :=
  List.length_modify ..

/-- The pre-distortion set of a path bears its path and number (R132). -/
theorem State.dpdSet_names (s : State) (q p set : Nat) : (s.dpdSet q p set).path = p ∧ (s.dpdSet q p set).set = set := by
  unfold State.dpdSet
  cases h : (s.quad q).dpd.find? (fun e => e.path == p && e.set == set) with
  | none => exact ⟨rfl, rfl⟩
  | some e => simpa using List.find?_some h

theorem State.dpdSet_congr {t : State} (h : (t.quad q).dpd = (s.quad q).dpd) (p set : Nat) : t.dpdSet q p set = s.dpdSet q p set := by
  unfold State.dpdSet
  rw [h]

theorem State.dpdSet_setDpd (hq : q < s.radio.quads.length) {p set : Nat} {e : DpdSet} (hp : e.path = p) (hset : e.set = set) :
    (s.setDpd q e).dpdSet q p set = e := by
  unfold State.dpdSet State.setDpd
  rw [State.quad_quadUpd hq]
  simp [hp, hset]

theorem State.runSet_congr {t : State} (hcur : t.reg .RGC_STACK_CUR = s.reg .RGC_STACK_CUR) (hplan : t.plan = s.plan) (q p : Nat) :
    t.runSet q p = s.runSet q p := by
  simp only [State.runSet, State.curStack, State.curIdx, State.get, hcur, State.stackOf, State.bodies, hplan]

theorem State.runCal_congr {t : State} {g : Nat} (hcur : t.reg .RGC_STACK_CUR = s.reg .RGC_STACK_CUR) (hplan : t.plan = s.plan)
    (hcal : (t.quad (g / 16)).cal = (s.quad (g / 16)).cal) : t.runCal g = s.runCal g := by
  simp only [State.runCal, State.calSet, State.cal, hcal, State.runSet_congr hcur hplan]

theorem State.dpd_setCal (x : CalSet) (q' : Nat) : ((s.setCal q x).quad q').dpd = (s.quad q').dpd := by
  unfold State.setCal State.calUpd
  exact State.quad_quadUpd_frame Quad.dpd (fun _ => by rfl) q'

theorem State.cal_setDpd (x : DpdSet) (q' : Nat) : ((s.setDpd q x).quad q').cal = (s.quad q').cal := by
  unfold State.setDpd
  exact State.quad_quadUpd_frame Quad.cal (fun _ => by rfl) q'

theorem State.calSet_setCal (hq : q < s.radio.quads.length) {p set : Nat} {e : CalSet} (hp : e.path = p) (hset : e.set = set) :
    (s.setCal q e).calSet q p set = e := by
  unfold State.calSet State.cal State.setCal State.calUpd
  rw [State.quad_quadUpd hq]
  simp [hp, hset]

end Quadrant

/-! ## Registers: their places, and the word of a committed result (R25) -/

theorem placed_DFE_TXF_CTL : ∀ q < 4, Reg.placed .DFE_TXF_CTL [q] := by decide +kernel
theorem placed_BEAM_COMMIT : ∀ q < 4, Reg.placed .BEAM_COMMIT [q] := by decide +kernel
theorem placed_DPD_COMMIT : ∀ q < 4, ∀ p < 16, Reg.placed .DPD_COMMIT [q, p] := by decide +kernel

section Access
variable {s : State} {rq : Req} {v : Word} {r : Reg} {ix : List Nat} {ok : Reg → List Nat → Word → Req → State → Bool}
  {wr : Reg → List Nat → Word → Req → State → State}

theorem completes_of_exec {c : Instr} {t : State} {P : State → Prop} (h : exec c s = .next t) (hP : P t) : Completes c s P := ⟨t, h, hP⟩

/-- A write that passes the judgement of its register is performed and answered with OK. -/
theorem Reg.placed.writeReg (hp : r.placed ix) (h : Passes s rq r ix true) (hw : writable r = true) (hok : ok r ix v rq s = true) :
    writeReg rq (r.addr ix) 4 v ok wr s = (wr r ix v rq s).answer rq 0 := by
  obtain ⟨hfind, halign, -, hlisted⟩ := hp
  exact writeReg_passes h hfind halign hlisted hw hok

/-- A write that passes the judgement and finds no room is held (R20). -/
theorem Reg.placed.writeOrHold_full (hp : r.placed ix) (h : Passes s rq r ix true) (hw : writable r = true) (hok : ok r ix v rq s = true) :
    writeOrHold rq (r.addr ix) v true ok wr s = { s with held := s.held ++ [⟨rq, r.addr ix, v, s.now⟩] } := by
  obtain ⟨hfind, halign, -, hlisted⟩ := hp
  obtain ⟨h0, hmode, hden, hlock⟩ := h
  have hpass : writePasses rq (r.addr ix) v ok s = true := by
    simp [writePasses, h0, preJudge_none halign hlisted hmode, hfind, hden, hw, hlock rfl, hok]
  unfold writeOrHold
  rw [hpass, Bool.true_and, if_pos rfl]

/-- The word of a result is the value with VALID set. -/
theorem State.commit_eq_setReg {n : Nat} (hn : n < 2 ^ 32) : s.commit r ix n = s.setReg r ix (wset (w32 n) 31 31 1) := by
  have hnat : (w32 n).toNat = n := (BitVec.toNat_ofNat ..).trans (Nat.mod_eq_of_lt hn)
  unfold State.commit wset
  rw [hnat]

theorem get_commit_valid (hc : s.canonical = true) {n : Nat} (hn : n < 2 ^ 32) : (s.commit r ix n).get ⟨r, 31, 31⟩ ix = 1 := by
  unfold State.get
  rw [State.commit_eq_setReg hn, reg_setReg_same hc]
  exact wbits_wset _ _ _ _ (by decide) (by decide)

theorem get_commit_field (hc : s.canonical = true) {n : Nat} (hn : n < 2 ^ 32) {f : Fld} (hf : f.hi < 31) :
    (s.commit f.reg ix n).get f ix = bits n f.hi f.lo := by
  have hnat : (w32 n).toNat = n := (BitVec.toNat_ofNat ..).trans (Nat.mod_eq_of_lt hn)
  unfold State.get
  rw [State.commit_eq_setReg hn, reg_setReg_same hc, wbits_wset_ne _ _ _ _ _ _ (by decide) (by decide) (Or.inr hf), wbits, hnat]

end Access

/-! ## Transmit filters (R118) -/

section Filter
variable {s : State} {rq : Req} {q : Nat} {v : Word}

/-- The mask is judged by the staged coefficients, the mask points and the plan alone. -/
theorem State.maskFail_setReg {r : Reg} (hcoef : .DFE_TXF_COEF ≠ r) (hmask : .DFE_MASK ≠ r) (ix : List Nat) (w : Word) (c q route : Nat) :
    (s.setReg r ix w c).maskFail q route = s.maskFail q route := by
  simp only [State.maskFail, State.stagedFir, State.flag, State.get, s.setReg_reg_other ix _ c _ hcoef, s.setReg_reg_other ix _ c _ hmask]
  rfl

theorem State.stagedFir_setReg {r : Reg} (hcoef : .DFE_TXF_COEF ≠ r) (ix : List Nat) (w : Word) (c q : Nat) :
    (s.setReg r ix w c).stagedFir q = s.stagedFir q := by
  simp only [State.stagedFir, State.get, s.setReg_reg_other ix _ c _ hcoef]

theorem State.maskFail_lt {route n : Nat} (h : s.maskFail q route = some n) : n < 16 :=
  List.mem_range.mp (List.mem_of_find?_eq_some h)

/-- The word of DFE_TXF_STAT that names a missed mask point. -/
theorem bits_maskFail {n : Nat} (hn : n < 16) :
    2 ^ 24 + n * 2 ^ 16 < 2 ^ 32 ∧ bits (2 ^ 24 + n * 2 ^ 16) 27 24 = 1 ∧ bits (2 ^ 24 + n * 2 ^ 16) 23 16 = n := by
  unfold bits
  omega

/-- The filter `f` becomes the next one of a route (R118). -/
def Quad.nextFilter (route : Nat) (f : TxFilter) (d : Quad) : Quad :=
  { d with filterNext := (route, f) :: d.filterNext.filter (fun e => e.1 != route) }

section Commit
variable {route ramp : Nat} (hroute : s.get Fld.DFE_TXF_CTL.ROUTE [q] = route) (hhere : s.routeHere q route = true)
include hroute hhere

/-- A commit on a route used here whose filter misses a mask point: MASK_FAIL with the point, and nothing else. -/
theorem State.txfCommit_missed {n : Nat} (hfail : s.maskFail q route = some n) : s.txfCommit q = s.commit .DFE_TXF_STAT [q] (2 ^ 24 + n * 2 ^ 16) := by
  subst hroute
  simp only [State.txfCommit, hhere, not_true_eq_false, if_false, hfail]

/-- A commit on a route used here whose filter meets every mask point: the route's next filter, and OK. -/
theorem State.txfCommit_met (hramp : s.get Fld.DFE_TXF_CTL.RAMP [q] = ramp) (hmet : s.maskFail q route = none) :
    s.txfCommit q = (s.quadUpd q (Quad.nextFilter route ⟨s.stagedFir q, ramp⟩)).commit .DFE_TXF_STAT [q] 0 := by
  subst hroute hramp
  simp only [State.txfCommit, hhere, not_true_eq_false, if_false, hmet]
  rfl

/-- What a commit on a route used here leaves: the result, the filters in use, and the route's next filter if the mask is met. -/
theorem State.txfCommit_leaves (hc : s.canonical = true) (hq : q < s.radio.quads.length) (hramp : s.get Fld.DFE_TXF_CTL.RAMP [q] = ramp) :
    (s.txfCommit q).get Fld.DFE_TXF_STAT.VALID [q] = 1 ∧
      (s.txfCommit q).get Fld.DFE_TXF_STAT.RESULT [q] = (if s.maskFail q route = none then 0 else 1) ∧
      (s.txfCommit q).get Fld.DFE_TXF_STAT.POINT [q] = (s.maskFail q route).getD 0 ∧ ((s.txfCommit q).quad q).filters = (s.quad q).filters ∧
      ((s.txfCommit q).quad q).filterNext = (if s.maskFail q route = none then
        (route, ⟨s.stagedFir q, ramp⟩) :: (s.quad q).filterNext.filter (fun e => e.1 != route) else (s.quad q).filterNext) := by
  cases hfail : s.maskFail q route with
  | some n =>
    obtain ⟨hn, hresult, hpoint⟩ := bits_maskFail (State.maskFail_lt hfail)
    rw [State.txfCommit_missed hroute hhere hfail]
    exact ⟨get_commit_valid hc hn, (get_commit_field (f := Fld.DFE_TXF_STAT.RESULT) hc hn (by decide)).trans hresult,
      (get_commit_field (f := Fld.DFE_TXF_STAT.POINT) hc hn (by decide)).trans hpoint, rfl, rfl⟩
  | none =>
    rw [State.txfCommit_met hroute hhere hramp hfail]
    have hcu := (State.quadUpd_keep (m := 1048576) s q (Quad.nextFilter route ⟨s.stagedFir q, ramp⟩) rfl (Keep.refl _ _)).canonical hc
    have hquad := State.quad_quadUpd hq (Quad.nextFilter route ⟨s.stagedFir q, ramp⟩)
    rw [if_pos rfl, if_pos rfl]
    exact ⟨get_commit_valid hcu (by decide), get_commit_field (f := Fld.DFE_TXF_STAT.RESULT) hcu (by decide) (by decide),
      get_commit_field (f := Fld.DFE_TXF_STAT.POINT) hcu (by decide) (by decide), (congrArg Quad.filters hquad :), (congrArg Quad.filterNext hquad :)⟩

end Commit

/-- A word stored in DFE_TXF_CTL with OP COMMIT shows the route and the ramp that were written. -/
theorem get_DFE_TXF_CTL_stored (hc : s.canonical = true) :
    (storeWord .DFE_TXF_CTL [q] (wset v 3 0 1) rq s).get Fld.DFE_TXF_CTL.ROUTE [q] = wbits v 7 4 ∧
      (storeWord .DFE_TXF_CTL [q] (wset v 3 0 1) rq s).get Fld.DFE_TXF_CTL.RAMP [q] = wbits v 15 8 := by
  have hword : (storeWord .DFE_TXF_CTL [q] (wset v 3 0 1) rq s).reg .DFE_TXF_CTL [q] = wset (wset (wset (s.reg .DFE_TXF_CTL [q])
      15 8 (wbits (wset v 3 0 1) 15 8)) 7 4 (wbits (wset v 3 0 1) 7 4)) 3 0 (wbits (wset v 3 0 1) 3 0) :=
    reg_storeWord hc .DFE_TXF_CTL [q] (wset v 3 0 1) rq
  rw [wbits_wset_ne v _ _ _ 15 8 (by decide) (by decide) (by decide), wbits_wset_ne v _ _ _ 7 4 (by decide) (by decide) (by decide)] at hword
  unfold State.get
  rw [hword]
  constructor
  · rw [wbits_wset_ne _ _ _ _ _ _ (by decide) (by decide) (by decide), wbits_wset _ _ _ _ (by decide) (by decide)]
    exact Nat.mod_eq_of_lt (wbits_lt v 7 4)
  · rw [wbits_wset_ne _ _ _ _ _ _ (by decide) (by decide) (by decide), wbits_wset_ne _ _ _ _ _ _ (by decide) (by decide) (by decide),
      wbits_wset _ _ _ _ (by decide) (by decide)]
    exact Nat.mod_eq_of_lt (wbits_lt v 15 8)

/-- TXF_COMMIT with a ramp of 10 to 100 on a route used here (R118). -/
theorem txfCommit_completes (hc : s.canonical = true) (hs : s.shaped) (hq : q < 4) (hP : Passes s rq .DFE_TXF_CTL [q] true)
    (hramp : 10 ≤ wbits v 15 8 ∧ wbits v 15 8 ≤ 100) (hhere : s.routeHere q (wbits v 7 4) = true) :
    Completes (.txfCommit rq q v) s (fun t => t.answered rq 0 ∧ t.get Fld.DFE_TXF_STAT.VALID [q] = 1 ∧
      t.get Fld.DFE_TXF_STAT.RESULT [q] = (if s.maskFail q (wbits v 7 4) = none then 0 else 1) ∧
      t.get Fld.DFE_TXF_STAT.POINT [q] = (s.maskFail q (wbits v 7 4)).getD 0 ∧ (t.quad q).filters = (s.quad q).filters ∧
      (t.quad q).filterNext = (if s.maskFail q (wbits v 7 4) = none then
        (wbits v 7 4, ⟨s.stagedFir q, wbits v 15 8⟩) :: (s.quad q).filterNext.filter (fun e => e.1 != wbits v 7 4) else (s.quad q).filterNext)) := by
  have hok : okArray .DFE_TXF_CTL [q] (wset v 3 0 1) rq s = true := by
    simp [okArray, wbits_wset v 3 0 1 (by decide) (by decide), wbits_wset_ne v 3 0 1 15 8 (by decide) (by decide) (by decide), hramp]
  have hcu := (State.setReg_keep (m := 32) s .DFE_TXF_CTL [q] (mergeWord Reg.DFE_TXF_CTL.fields (s.reg .DFE_TXF_CTL [q]) (wset v 3 0 1)) 0 rfl
    (Keep.refl _ _)).canonical hc
  obtain ⟨hroute, hr⟩ := get_DFE_TXF_CTL_stored (rq := rq) (q := q) (v := v) hc
  have hleaves := State.txfCommit_leaves hroute hhere hcu (lt_quads_of_shaped hs hq) hr
  unfold storeWord at hleaves
  rw [State.maskFail_setReg (by decide) (by decide), State.stagedFir_setReg (by decide)] at hleaves
  refine completes_of_exec rfl ?_
  rw [(placed_DFE_TXF_CTL q hq).writeReg hP rfl hok]
  exact ⟨rfl, hleaves⟩

end Filter

/-! ## Beam records (R125, R126) -/

section Beam
variable {s : State} {rq : Req} {q route id : Nat}

/-- BEAM_ID_NAMED of a record that is not in the buffer starts its fetch (R125). -/
theorem beamIdNamed_completes (hs : s.shaped) (hq : q < 4) (ha : s.active q = true) (hhere : s.routeHere q route = true)
    (hnone : s.beamRec q route id = none) :
    Completes (.beamIdNamed q route id) s (fun t => (t.quad q).beams = (s.quad q).beams ++ [⟨route, id, none, none, true, s.now⟩]) := by
  refine completes_of_exec rfl ?_
  rw [if_pos ⟨ha, hhere⟩, State.beamName, hnone]
  exact congrArg Quad.beams (State.quad_quadUpd (lt_quads_of_shaped hs hq) _)

/-- The entry is of the beam. -/
def BeamRec.isOf (route id : Nat) (x : BeamRec) : Bool := x.route == route && x.id == id

/-- An entry after the fetch of a beam's record brought `r` (R125, R126): on a fronthaul route (role 4), and where it was being fetched, `r` serves at once. -/
def BeamRec.fetched (route id role : Nat) (r : Option Bytes) (x : BeamRec) : BeamRec :=
  if x.isOf route id then (if x.fetching ∨ role = 4 then { x with bytes := r, fetching := false } else { x with next := r }) else x

/-- The entry is still in the buffer after a fetch: it is of another beam, or has a record. -/
def BeamRec.stays (route id : Nat) (x : BeamRec) : Bool := !(x.isOf route id && x.bytes.isNone)

/-- The beam buffer holds `l`, less what is evicted for room (R125). -/
def Quad.buffer (l : List BeamRec) (d : Quad) : Quad := { d with beams := beamEvict d.beams.length l }

/-- A fetch under way that completes (R125). -/
theorem execBeamRecordFetch_fetching {b : BeamRec} (hb : s.beamRec q route id = some b) (hf : b.fetching = true) (ha : s.active q = true) :
    exec (.beamRecordFetch q route id) s = .next ((s.quadUpd q (Quad.buffer (((s.quad q).beams.map
      (BeamRec.fetched route id (routeRole s.sampleRoute route) (s.beamLoad q route id))).filter (BeamRec.stays route id)))).beamSettle q
        (wrArray .BEAM_COMMIT [q])) := by
  show execBeamRecordFetch q route id s = _
  unfold execBeamRecordFetch
  rw [hb]
  simp only [ha, hf, not_true_eq_false, false_and, or_self, if_false, if_true]
  rfl

theorem BeamRec.isOf_fetched (role : Nat) (r : Option Bytes) (x : BeamRec) : (x.fetched route id role r).isOf route id = x.isOf route id := by
  unfold BeamRec.fetched
  split
  · split <;> rfl
  · rfl

theorem BeamRec.fetched_fetching {b : BeamRec} (hb : b.isOf route id = true) (hf : b.fetching = true) (role : Nat) (r : Option Bytes) :
    b.fetched route id role r = { b with bytes := r, fetching := false } := by
  simp [BeamRec.fetched, hb, hf]

/-- The beam's entries after the fetch are those of before, fetched, that have a record. -/
theorem filter_isOf_fetched (role : Nat) (r : Option Bytes) (l : List BeamRec) :
    ((l.map (BeamRec.fetched route id role r)).filter (BeamRec.stays route id)).filter (BeamRec.isOf route id) =
      ((l.filter (BeamRec.isOf route id)).map (BeamRec.fetched route id role r)).filter (BeamRec.stays route id) := by
  have hcomp : BeamRec.isOf route id ∘ BeamRec.fetched route id role r = BeamRec.isOf route id :=
    funext (BeamRec.isOf_fetched role r)
  have hswap : ∀ m : List BeamRec, (m.filter (BeamRec.stays route id)).filter (BeamRec.isOf route id) =
      (m.filter (BeamRec.isOf route id)).filter (BeamRec.stays route id) := fun m => by
    rw [List.filter_filter, List.filter_filter]
    exact congrArg (List.filter · m) (funext fun _ => Bool.and_comm ..)
  rw [hswap, List.filter_map, hcomp]

/-- A fetch adds to the buffer at most the sizes of the beam's entries after it. -/
theorem sum_size_fetched_le (role : Nat) (r : Option Bytes) (l : List BeamRec) :
    (((l.map (BeamRec.fetched route id role r)).filter (BeamRec.stays route id)).map BeamRec.size).sum ≤
      (l.map BeamRec.size).sum + (((l.filter (BeamRec.isOf route id)).map (BeamRec.fetched route id role r)).map BeamRec.size).sum := by
  induction l with
  | nil => exact Nat.le_refl _
  | cons x l ih =>
    have hhead : (((x.fetched route id role r :: l.map (BeamRec.fetched route id role r)).filter (BeamRec.stays route id)).map BeamRec.size).sum ≤
        (x.fetched route id role r).size + (((l.map (BeamRec.fetched route id role r)).filter (BeamRec.stays route id)).map BeamRec.size).sum := by
      rw [List.filter_cons]
      split
      · exact Nat.le_refl _
      · exact Nat.le_add_left _ _
    rw [List.map_cons, List.map_cons, List.sum_cons]
    by_cases hx : x.isOf route id = true
    · rw [List.filter_cons_of_pos hx, List.map_cons, List.map_cons, List.sum_cons]
      omega
    · have hsame : x.fetched route id role r = x := if_neg hx
      rw [hsame] at hhead
      rw [List.filter_cons_of_neg hx, hsame]
      omega

theorem beamEvict_of_fits (n : Nat) {l : List BeamRec} (h : (l.map BeamRec.size).sum ≤ 2097152) : beamEvict n l = l := by
  cases n with
  | zero => rfl
  | succ n => exact if_pos h

/-- The commit of a changed record joins the queue (R126). -/
def Quad.queueBeam (v : Word) (d : Quad) : Quad := { d with beamQ := d.beamQ ++ [(wbits v 30 28, wbits v 27 24, wbits v 14 0)] }

/-- A performed write of BEAM_COMMIT joins the queue, which CQ counts, or has nothing to fetch (R126). -/
theorem wrArray_BEAM_COMMIT (v : Word) (rq : Req) (t : State) : wrArray .BEAM_COMMIT [q] v rq t =
    if t.beamDue q v then (t.quadUpd q (Quad.queueBeam v)).set Fld.BEAM_STAT.CQ [q] (min 64 ((t.quad q).beamQ.length + 1)) else t := rfl

theorem beams_wrArray_BEAM_COMMIT (v : Word) (rq : Req) (t : State) : ((wrArray .BEAM_COMMIT [q] v rq t).quad q).beams = (t.quad q).beams := by
  rw [wrArray_BEAM_COMMIT]
  split
  · exact State.quad_quadUpd_frame Quad.beams (fun _ => by rfl) _
  · rfl

/-- What goes on from the queue of commits leaves the beam buffer. -/
theorem State.beams_beamSettle (t : State) : ((t.beamSettle q (wrArray .BEAM_COMMIT [q])).quad q).beams = (t.quad q).beams := by
  unfold State.beamSettle
  refine List.foldlRecOn (motive := fun u : State => (u.quad q).beams = (t.quad q).beams) _ _ (State.quad_quadUpd_frame Quad.beams (fun _ => by rfl) _) ?_
  intro u hu _ _
  unfold State.unhold
  split
  · exact hu
  · exact (beams_wrArray_BEAM_COMMIT ..).trans hu

/-- The entry that a beam is found at in a buffer. -/
theorem State.beamRec_eq_head (s : State) (q route id : Nat) : s.beamRec q route id = ((s.quad q).beams.filter (BeamRec.isOf route id)).head? :=
  (List.head?_filter ..).symm

/-- BEAM_RECORD_FETCH of a fetch under way that the buffer has room for: the table's record, or the beam is gone (R125). -/
theorem beamRecordFetch_completes {b : BeamRec} (hs : s.shaped) (hq : q < 4) (hone : (s.quad q).beams.filter (BeamRec.isOf route id) = [b])
    (hf : b.fetching = true) (ha : s.active q = true)
    (hroom : ((s.quad q).beams.map BeamRec.size).sum + BeamRec.size { b with bytes := s.beamLoad q route id } ≤ 2097152) :
    Completes (.beamRecordFetch q route id) s (fun t => t.beamRec q route id =
      (if (s.beamLoad q route id).isSome = true then some { b with bytes := s.beamLoad q route id, fetching := false } else none)) := by
  have hfound : s.beamRec q route id = some b := by rw [State.beamRec_eq_head, hone]; rfl
  have hb : b.isOf route id = true := List.find?_some hfound
  have hnew := BeamRec.fetched_fetching hb hf (routeRole s.sampleRoute route) (s.beamLoad q route id)
  have hfits := sum_size_fetched_le (route := route) (id := id) (routeRole s.sampleRoute route) (s.beamLoad q route id) (s.quad q).beams
  rw [hone, List.map_singleton, hnew] at hfits
  refine completes_of_exec (execBeamRecordFetch_fetching hfound hf ha) ?_
  rw [State.beamRec_eq_head, State.beams_beamSettle, State.quad_quadUpd (lt_quads_of_shaped hs hq)]
  rw [Quad.buffer, beamEvict_of_fits _ (Nat.le_trans hfits hroom), filter_isOf_fetched, hone, List.map_singleton, hnew]
  cases hload : s.beamLoad q route id with
  | none => simp [BeamRec.stays, show BeamRec.isOf route id { b with bytes := none, fetching := false } = true from hb]
  | some bs => simp [BeamRec.stays]

/-- BEAM_COMMIT of a resident record of the active table: it joins the queue, or is held while that is full (R126). -/
theorem beamCommit_completes {v : Word} (hc : s.canonical = true) (hs : s.shaped) (hq : q < 4) (hP : Passes s rq .BEAM_COMMIT [q] true)
    (hdue : s.beamDue q v = true) :
    Completes (.beamCommit rq q v) s (fun t => if 64 ≤ (s.quad q).beamQ.length then t.held = s.held ++ [⟨rq, Reg.addr .BEAM_COMMIT [q], v, s.now⟩]
      else t.answered rq 0 ∧ (t.quad q).beamQ = (s.quad q).beamQ ++ [(wbits v 30 28, wbits v 27 24, wbits v 14 0)] ∧
        t.get Fld.BEAM_STAT.CQ [q] = (s.quad q).beamQ.length + 1) := by
  refine completes_of_exec rfl ?_
  by_cases hfull : 64 ≤ (s.quad q).beamQ.length
  · rw [if_pos hfull, decide_eq_true hfull, hdue, Bool.and_self, (placed_BEAM_COMMIT q hq).writeOrHold_full hP rfl rfl]
  · rw [if_neg hfull, decide_eq_false hfull, Bool.false_and, writeOrHold_room, (placed_BEAM_COMMIT q hq).writeReg hP rfl rfl,
      wrArray_BEAM_COMMIT, if_pos hdue]
    have hcu := (State.quadUpd_keep (m := 1048576) s q (Quad.queueBeam v) rfl (Keep.refl _ _)).canonical hc
    have hcq : min 64 ((s.quad q).beamQ.length + 1) % 2 ^ (22 + 1 - 16) = (s.quad q).beamQ.length + 1 := by omega
    exact ⟨rfl, (congrArg Quad.beamQ (State.quad_quadUpd (lt_quads_of_shaped hs hq) (Quad.queueBeam v)) :),
      (get_set_same hcu Fld.BEAM_STAT.CQ [q] _ 0 (by decide) (by decide)).trans hcq⟩

end Beam

/-! ## Pre-distortion sets (R132, R133) -/

section Dpd
variable {s : State} {rq : Req} {q p set : Nat} {w : List Word} {e : Nat}

/-- The pending copy of a set becomes its active one (R133, R134). -/
def DpdSet.activated (w : List Word) (x : DpdSet) : DpdSet := { x with active := w, pending := none, check := x.ref.isSome }

theorem State.dpdActivate_pending (h : (s.dpdSet q p set).pending = some (w, e)) :
    s.dpdActivate q p set = ((s.setDpd q ((s.dpdSet q p set).activated w)).set Fld.DPD_STAT.SET_VALID [q, p]
      (maskSet (s.get Fld.DPD_STAT.SET_VALID [q, p]) set)).set Fld.DPD_STAT.PENDING [q, p] (maskClr (s.get Fld.DPD_STAT.PENDING [q, p]) set) := by
  unfold State.dpdActivate
  simp only [h]
  rfl

theorem State.dpdSet_dpdActivate (hq : q < s.radio.quads.length) (h : (s.dpdSet q p set).pending = some (w, e)) :
    (s.dpdActivate q p set).dpdSet q p set = (s.dpdSet q p set).activated w := by
  obtain ⟨hp, hset⟩ := s.dpdSet_names q p set
  rw [State.dpdActivate_pending h]
  exact State.dpdSet_setDpd (e := (s.dpdSet q p set).activated w) hq hp hset

theorem State.length_quads_dpdActivate (h : (s.dpdSet q p set).pending = some (w, e)) :
    (s.dpdActivate q p set).radio.quads.length = s.radio.quads.length := by
  rw [State.dpdActivate_pending h]
  exact State.length_quads_quadUpd _

/-- A set that has become active is trained (R133). -/
theorem State.setValid_dpdActivate (hc : s.canonical = true) (hset : set < 8) (h : (s.dpdSet q p set).pending = some (w, e)) :
    bitOf ((s.dpdActivate q p set).get Fld.DPD_STAT.SET_VALID [q, p]) set = true := by
  have hcu := (State.setDpd_keep (m := 1048576) s q ((s.dpdSet q p set).activated w) rfl (Keep.refl _ _)).canonical hc
  have hcv := (State.set_keep (m := 32) _ Fld.DPD_STAT.SET_VALID [q, p] (maskSet (s.get Fld.DPD_STAT.SET_VALID [q, p]) set) 0 rfl
    (Keep.refl _ _)).canonical hcu
  rw [State.dpdActivate_pending h, get_set_field hcv Fld.DPD_STAT.PENDING Fld.DPD_STAT.SET_VALID _ _ _ rfl (by decide) (by decide) (by decide),
    get_set_same hcu _ _ _ _ (by decide) (by decide)]
  exact (bitOf_mod _ hset).trans (bitOf_maskSet _ _)

/-- A set after the commit of its shadow, before the copy comes into use (R133, R134). -/
def State.dpdCommitted (s : State) (q p set : Nat) : DpdSet :=
  { s.dpdSet q p set with
    prior := (s.dpdSet q p set).active, pending := some (s.dpdShadow q p set, s.now), ref := (s.pathSt (16 * q + p)).aclr }

theorem State.dpdSet_committed (hq : q < s.radio.quads.length) : (s.setDpd q (s.dpdCommitted q p set)).dpdSet q p set = s.dpdCommitted q p set := by
  obtain ⟨hp, hset⟩ := s.dpdSet_names q p set
  exact State.dpdSet_setDpd (e := s.dpdCommitted q p set) hq hp hset

/-- The commit of the running set waits for a transmission start (R133). -/
theorem State.dpdCommit_running (hrun : s.get Fld.DPD_STAT.RUN_SET [q, p] = set) : s.dpdCommit q p set =
    (s.setDpd q (s.dpdCommitted q p set)).set Fld.DPD_STAT.PENDING [q, p] (maskSet (s.get Fld.DPD_STAT.PENDING [q, p]) set) :=
  if_pos hrun

/-- The commit of another set is active at once, with no revert check due (R133, R134). -/
theorem State.dpdCommit_idle (hrun : s.get Fld.DPD_STAT.RUN_SET [q, p] ≠ set) : s.dpdCommit q p set =
    ((s.setDpd q (s.dpdCommitted q p set)).dpdActivate q p set).setDpd q
      { ((s.setDpd q (s.dpdCommitted q p set)).dpdActivate q p set).dpdSet q p set with check := false } :=
  if_neg hrun

/-- The commit of the running set is pending (R133). -/
theorem State.dpdCommit_running_leaves (hc : s.canonical = true) (hq : q < s.radio.quads.length) (hset : set < 8)
    (hrun : s.get Fld.DPD_STAT.RUN_SET [q, p] = set) :
    ((s.dpdCommit q p set).dpdSet q p set).pending = some (s.dpdShadow q p set, s.now) ∧
      bitOf ((s.dpdCommit q p set).get Fld.DPD_STAT.PENDING [q, p]) set = true := by
  have hcu := (State.setDpd_keep (m := 1048576) s q (s.dpdCommitted q p set) rfl (Keep.refl _ _)).canonical hc
  rw [State.dpdCommit_running hrun]
  refine ⟨congrArg DpdSet.pending (State.dpdSet_committed hq), ?_⟩
  rw [get_set_same hcu _ _ _ _ (by decide) (by decide)]
  exact (bitOf_mod _ hset).trans (bitOf_maskSet _ _)

/-- The commit of a set that does not run is active, and the set trained (R133). -/
theorem State.dpdCommit_idle_leaves (hc : s.canonical = true) (hq : q < s.radio.quads.length) (hset : set < 8)
    (hrun : s.get Fld.DPD_STAT.RUN_SET [q, p] ≠ set) :
    ((s.dpdCommit q p set).dpdSet q p set).active = s.dpdShadow q p set ∧ ((s.dpdCommit q p set).dpdSet q p set).pending = none ∧
      bitOf ((s.dpdCommit q p set).get Fld.DPD_STAT.SET_VALID [q, p]) set = true := by
  have hcu := (State.setDpd_keep (m := 1048576) s q (s.dpdCommitted q p set) rfl (Keep.refl _ _)).canonical hc
  have hqu : q < (s.setDpd q (s.dpdCommitted q p set)).radio.quads.length := (State.length_quads_quadUpd _).symm ▸ hq
  have hpend : ((s.setDpd q (s.dpdCommitted q p set)).dpdSet q p set).pending = some (s.dpdShadow q p set, s.now) :=
    congrArg DpdSet.pending (State.dpdSet_committed hq)
  have hactive := State.dpdSet_dpdActivate hqu hpend
  have hvalid := State.setValid_dpdActivate hcu hset hpend
  have hqv := (State.length_quads_dpdActivate hpend).symm ▸ hqu
  rw [State.dpdCommit_idle hrun]
  generalize (s.setDpd q (s.dpdCommitted q p set)).dpdActivate q p set = t at *
  obtain ⟨hp, hn⟩ := t.dpdSet_names q p set
  rw [State.dpdSet_setDpd (e := { t.dpdSet q p set with check := false }) hqv hp hn, hactive]
  exact ⟨rfl, rfl, hvalid⟩

/-- DPD_COMMIT of a shadow that its rules let through (R132, R133). -/
theorem dpdCommit_completes {v : Word} (hc : s.canonical = true) (hs : s.shaped) (hq : q < 4) (hp : p < 16) (hP : Passes s rq .DPD_COMMIT [q, p] true)
    (hshadow : dpdShadowOk p (s.dpdShadow q p (wbits v 2 0)) = true) :
    Completes (.dpdCommit rq q p v) s (fun t => t.answered rq 0 ∧ (if s.get Fld.DPD_STAT.RUN_SET [q, p] = wbits v 2 0 then
      (t.dpdSet q p (wbits v 2 0)).pending = some (s.dpdShadow q p (wbits v 2 0), s.now) ∧
        bitOf (t.get Fld.DPD_STAT.PENDING [q, p]) (wbits v 2 0) = true
      else (t.dpdSet q p (wbits v 2 0)).active = s.dpdShadow q p (wbits v 2 0) ∧ (t.dpdSet q p (wbits v 2 0)).pending = none ∧
        bitOf (t.get Fld.DPD_STAT.SET_VALID [q, p]) (wbits v 2 0) = true)) := by
  have hset : wbits v 2 0 < 8 := wbits_lt v 2 0
  have hlen : q < s.radio.quads.length := lt_quads_of_shaped hs hq
  refine completes_of_exec rfl ?_
  rw [(placed_DPD_COMMIT q hq p hp).writeReg hP rfl hshadow]
  refine ⟨rfl, ?_⟩
  split
  next hrun => exact State.dpdCommit_running_leaves hc hlen hset hrun
  next hrun => exact State.dpdCommit_idle_leaves hc hlen hset hrun

end Dpd

/-! ## What 2 ms of transmission or reception bring into use (R133, R145) -/

section Crossfade
variable {s : State} {q p at_ : Nat}

/-- CROSSFADE of a path that has transmitted or received for 2 ms. -/
theorem execCrossfade_due {tx : Bool} (hp : p < 16) (ha : s.active q = true) (hdue : at_ + 2000000 ≤ s.now)
    (hsince : (if tx = true then (s.pathSt (16 * q + p)).txSince
      else if s.pathState (16 * q + p) = 1 then some (s.pathSt (16 * q + p)).rxSince else none) = some at_) :
    exec (.crossfade q p tx) s = .next (if tx = true then
      (s.calTxStart (16 * q + p)).dpdActivate q p (s.get Fld.DPD_STAT.RUN_SET [q, p]) else s.calRxStart (16 * q + p)) := by
  show execCrossfade q p tx s = _
  unfold execCrossfade
  simp only [hsince]
  rw [if_pos ⟨hp, ha, hdue⟩]

section Cal
variable {g : Nat}

/-- The running set of a path after it is replaced by an entry of its path and number. -/
theorem State.runCal_setCal {x : CalSet} (hq : g / 16 < s.radio.quads.length) (hp : x.path = g % 16) (hset : x.set = s.runSet (g / 16) (g % 16)) :
    (s.setCal (g / 16) x).runCal g = x := by
  unfold State.runCal
  rw [State.runSet_congr (s := s) (t := s.setCal (g / 16) x) rfl rfl]
  exact State.calSet_setCal hq hp hset

section Start
variable (hq : g / 16 < s.radio.quads.length) (hp : (s.runCal g).path = g % 16) (hset : (s.runCal g).set = s.runSet (g / 16) (g % 16))
include hq hp hset

/-- A transmission start brings the running set into force on transmit (R145). -/
theorem State.runCal_calTxStart : (s.calTxStart g).runCal g = { s.runCal g with tx := (s.runCal g).active } := by
  unfold State.calTxStart
  split
  next h => rw [← h]
  next => exact State.runCal_setCal (x := { s.runCal g with tx := (s.runCal g).active }) hq hp hset

/-- A receive start brings the running set into force on receive (R145). -/
theorem State.runCal_calRxStart : (s.calRxStart g).runCal g = { s.runCal g with rx := (s.runCal g).active } := by
  unfold State.calRxStart
  split
  next h => rw [← h]
  next => exact State.runCal_setCal (x := { s.runCal g with rx := (s.runCal g).active }) hq hp hset

end Start

/-- A transmission start leaves the pre-distortion sets and the number of quadrants. -/
theorem State.calTxStart_frame (s : State) (g q : Nat) :
    ((s.calTxStart g).quad q).dpd = (s.quad q).dpd ∧ (s.calTxStart g).radio.quads.length = s.radio.quads.length := by
  unfold State.calTxStart
  split
  · exact ⟨rfl, rfl⟩
  · exact ⟨State.dpd_setCal _ _, State.length_quads_quadUpd _⟩

/-- A pre-distortion set that becomes active leaves the calibration sets. -/
theorem State.runCal_dpdActivate (s : State) (q p set g : Nat) : (s.dpdActivate q p set).runCal g = s.runCal g := by
  cases h : (s.dpdSet q p set).pending with
  | none =>
    have hstay : s.dpdActivate q p set = s := by simp only [State.dpdActivate, h]
    rw [hstay]
  | some x =>
    obtain ⟨w, e⟩ := x
    rw [State.dpdActivate_pending h]
    refine State.runCal_congr ?_ rfl (State.cal_setDpd _ _)
    rw [State.set_reg_other _ _ _ _ _ (by decide), State.set_reg_other _ _ _ _ _ (by decide)]
    rfl

end Cal

/-- CROSSFADE of a path that has transmitted for 2 ms: its pending pre-distortion set is active (R133). -/
theorem crossfade_dpd {w : List Word} {e : Nat} (hs : s.shaped) (hq : q < 4) (hp : p < 16) (hsince : (s.pathSt (16 * q + p)).txSince = some at_)
    (ha : s.active q = true) (hdue : at_ + 2000000 ≤ s.now) (hpend : (s.dpdSet q p (s.get Fld.DPD_STAT.RUN_SET [q, p])).pending = some (w, e)) :
    Completes (.crossfade q p true) s (fun t => (t.dpdSet q p (s.get Fld.DPD_STAT.RUN_SET [q, p])).active = w ∧
      (t.dpdSet q p (s.get Fld.DPD_STAT.RUN_SET [q, p])).pending = none) := by
  obtain ⟨hdpd, hlen⟩ := s.calTxStart_frame (16 * q + p) q
  have hsame := State.dpdSet_congr hdpd p (s.get Fld.DPD_STAT.RUN_SET [q, p])
  refine completes_of_exec (execCrossfade_due hp ha hdue (tx := true) hsince) ?_
  rw [if_pos rfl, State.dpdSet_dpdActivate (hlen ▸ lt_quads_of_shaped hs hq) (hsame ▸ hpend)]
  exact ⟨rfl, rfl⟩

/-- CROSSFADE of a path that has transmitted or received for 2 ms: its calibration set is in force on that side (R145). -/
theorem crossfade_cal {tx : Bool} (hs : s.shaped) (hq : q < 4) (hp : p < 16)
    (hsince : (if tx = true then (s.pathSt (16 * q + p)).txSince
      else if s.pathState (16 * q + p) = 1 then some (s.pathSt (16 * q + p)).rxSince else none) = some at_)
    (ha : s.active q = true) (hdue : at_ + 2000000 ≤ s.now) (hpath : (s.runCal (16 * q + p)).path = p)
    (hset : (s.runCal (16 * q + p)).set = s.runSet q p) :
    Completes (.crossfade q p tx) s (fun t => (if tx = true then (t.runCal (16 * q + p)).tx else (t.runCal (16 * q + p)).rx) =
      (s.runCal (16 * q + p)).active ∧ (t.runCal (16 * q + p)).active = (s.runCal (16 * q + p)).active) := by
  have hdiv : (16 * q + p) / 16 = q := by omega
  have hmod : (16 * q + p) % 16 = p := by omega
  have hlen : (16 * q + p) / 16 < s.radio.quads.length := hdiv.symm ▸ lt_quads_of_shaped hs hq
  have hset' : (s.runCal (16 * q + p)).set = s.runSet ((16 * q + p) / 16) ((16 * q + p) % 16) := by rwa [hdiv, hmod]
  refine completes_of_exec (execCrossfade_due hp ha hdue hsince) ?_
  cases tx with
  | true =>
    rw [if_pos rfl, if_pos rfl, State.runCal_dpdActivate, State.runCal_calTxStart hlen (hpath.trans hmod.symm) hset']
    exact ⟨rfl, rfl⟩
  | false =>
    rw [if_neg (by decide), if_neg (by decide), State.runCal_calRxStart hlen (hpath.trans hmod.symm) hset']
    exact ⟨rfl, rfl⟩

end Crossfade
end Sys2Proof.Machine
end

section
open Sys2Proof Sys2Proof.Machine

/-- Settles O32, clause by clause: the filter, the three commands of beam records, the pre-distortion set, and what 2 ms bring into use. -/
theorem arrayCommandsComplete : Obligations.ArrayCommandsComplete := by
  unfold Obligations.ArrayCommandsComplete
  refine ⟨?_, ?_, ?_, ?_, ?_, ?_, ?_⟩
  · intro s rq q v hc hs hq hP hramp hhere
    exact txfCommit_completes hc hs hq hP hramp hhere
  · intro s q route id hs hq ha hhere hnone
    exact beamIdNamed_completes hs hq ha hhere hnone
  · intro s q route id b _ hs hq hone hf ha hroom
    exact beamRecordFetch_completes hs hq hone hf ha hroom
  · intro s rq q v hc hs hq hP hdue
    exact beamCommit_completes hc hs hq hP hdue
  · intro s rq q p v hc hs hq hp hP hshadow
    exact dpdCommit_completes hc hs hq hp hP hshadow
  · intro s q p at_ w e _ hs hq hp hsince ha hdue hpend
    exact crossfade_dpd hs hq hp hsince ha hdue hpend
  · intro s q p at_ tx _ hs hq hp hsince ha hdue hpath hset
    exact crossfade_cal hs hq hp hsince ha hdue hpath hset
end

section
/-! PROOFS. Calibration and house-keeping (R150, R157, R163): what the model answers in the three cases where a statement of this family claims something else. -/
namespace Sys2Proof.Machine

variable {s : State} {rq : Req} {q : Nat}

/-- A command leaves one state: what two claims say of it holds of the same state. -/
theorem Completes.both {c : Instr} {P Q : State → Prop} (hP : Completes c s P) (hQ : Completes c s Q) : ∃ t, P t ∧ Q t := by
  obtain ⟨t, ht, htP⟩ := hP
  obtain ⟨u, hu, huQ⟩ := hQ
  cases ht.symm.trans hu
  exact ⟨t, htP, huQ⟩

/-! ## The end of a calibration run (R150, R151) -/

/-- A run that completes shows its temperature in the 16 bits of CAL_TEMP.LAST (R150 step 4). -/
theorem State.get_CAL_TEMP_LAST_calComplete (hc : s.canonical = true) (last paths temp : Nat) (demand : Bool) :
    (s.calComplete q last paths temp demand).get Fld.CAL_TEMP.LAST [q] = temp % 2 ^ 16 := by
  have hcommit (n : Nat) : (s.commit .CAL_STAT [q] n).canonical = true := (State.commit_keep (m := 32) _ _ _ _ _ rfl (Keep.refl _ _)).canonical hc
  have hresume (t : State) (ht : t.canonical = true) :
      ((t.set Fld.CAL_REJ.STUCK [q] 0).calUpd q (fun c => { c with stuck := [], rejects := [] })).canonical = true :=
    (State.calUpd_keep (m := 1048608) _ _ _ rfl (State.set_keep _ _ _ _ _ rfl (Keep.refl _ _))).canonical ht
  unfold State.calComplete State.inc
  rw [get_congr (State.raise_regs _ _), State.get_congr_reg (State.bump_reg_other _ _ _ _ (by decide) _)]
  refine get_set_same (f := Fld.CAL_TEMP.LAST) ?_ [q] temp 0 (by decide) (by decide)
  split
  · exact hresume _ (hcommit _)
  · exact hcommit _

/-- CAL_DONE of a window that has lasted its time shows the run's temperature in the 16 bits of CAL_TEMP.LAST, when no other run follows (R150, R151). -/
theorem calDone_shows_temp {r : CalRun} {w : Int} (l : List Nat) (hc : s.canonical = true) (hrun : (s.cal q).run = some r)
    (hbooked : r.booked = some w) (hstate : s.get Fld.CAL_STAT.STATE [q] = 3) (hdue : w + 1000 * r.durUs ≤ s.netTime) (hlast : r.again = false) :
    Completes (.calDone q l) s (fun t => t.get Fld.CAL_TEMP.LAST [q] = r.temp % 2 ^ 16) := by
  refine ⟨_, rfl, ?_⟩
  simp only [hrun, hbooked, hstate, hdue, hlast, and_self, if_true, Bool.false_eq_true, if_false]
  refine State.get_CAL_TEMP_LAST_calComplete (Keep.canonical (m := 5243696) (s := s) ?_ hc) _ _ _ _
  exact State.wacLine_keep _ rfl (State.gateOpens_keep _ _ _ rfl (State.quadUpd_keep _ _ _ rfl
    (State.treesApply_keep _ _ _ _ rfl (State.trimApply_keep _ _ _ rfl (Keep.refl _ _)))))

/-- A run of quadrant 0 begun at −1 °C, whose window of 4 µs ends at network time 0. -/
def coldRun : CalRun :=
  { since := 0, temp := 0xFFF0, trims := [], paths := [], trees := [], offers := [], earliest := -4000, booked := some (-4000), durUs := 4,
    forced := false, demand := false, again := false }

/-- The window of `coldRun` has lasted its time. -/
def coldRunDue : State := (State.reset.set Fld.CAL_STAT.STATE [0] 3).calUpd 0 (fun c => { c with run := some coldRun })

/-! ## Writes beside the register space (R18, R547) -/

/-- A write in a block that its region does not list is answered with code 1 (R547 step 2). -/
theorem resp_writeReg_unlisted {a : Nat} {v : Word} {ok : Reg → List Nat → Word → Req → State → Bool} {wr : Reg → List Nat → Word → Req → State → State}
    (h0 : s.mode ≠ 0) (hmode : modeCode s rq a true = 0) (halign : a % 4 = 0) (hlist : ¬ aBlock a < blockCount (aRegion a)) :
    (writeReg rq a 4 v ok wr s).resp = some ⟨rq, 1, errData rq⟩ := by
  have hjudge : preJudge s rq a 4 true = some (aRegion a, 2, 0xFF, 1) := by simp [preJudge, hmode, halign, hlist]
  rw [writeReg, if_neg h0, hjudge]
  rfl

/-- CAL_RED of a fifth quadrant would stand in block 9 of region 4, which has blocks 0 to 8: a write there is answered with code 1. -/
theorem calRed_four_unlisted (v : Word) (h : Passes s rq .CAL_RED [4] true) :
    Completes (.calRed rq 4 v) s (fun t => t.resp = some ⟨rq, 1, errData rq⟩) := by
  obtain ⟨h0, hmode, -, -⟩ := h
  exact completes_of_exec rfl (resp_writeReg_unlisted h0 hmode (by decide) (by decide))

/-- Bring-up with region 4 applied: CT's own accesses reach it (R30). -/
def bringUp4 : State := { State.reset with boot := { Boot.reset with applied := [4] } }

/-! ## House-keeping results (R163) -/

/-- HKA_RESULT of a channel whose source is live, with a code of more than 12 bits, leaves the state. -/
theorem hkaResult_wide {c n : Nat} {codes : List Nat} (hlive : s.hkaLive c n = true) (hwide : codes.any (fun x => decide (4096 ≤ x)) = true) :
    Completes (.hkaResult c n codes) s (fun t => t = s) := by
  refine ⟨_, rfl, ?_⟩
  simp [hlive, hwide]

/-- Converter 0 scans; channel 28 is the first of its channels whose source is live. -/
def scanning : State := State.reset.set Fld.HKA_CFG.EN [] 1

/-- Sixteen codes, of which the first alone has 12 bits. -/
def wideCodes : List Nat := 0 :: List.replicate 15 5000

end Sys2Proof.Machine
end

section
open Sys2Proof Sys2Proof.Machine

/-- Refutes O34: CAL_TEMP.LAST holds 16 bits and CAL_DONE stores all of the run's temperature; the statement asks for its low 12 bits, which differ
for a negative one (0xFFF0 is −1 °C). -/
theorem not_calibrationRunCommandsComplete : ¬ Obligations.CalibrationRunCommandsComplete := by
  unfold Obligations.CalibrationRunCommandsComplete
  rintro ⟨-, -, -, -, hdone, -, -⟩
  have hc : coldRunDue.canonical = true := by decide +kernel
  have hstate : coldRunDue.get Fld.CAL_STAT.STATE [0] = 3 := by decide +kernel
  have hdue : (-4000 : Int) + 1000 * coldRun.durUs ≤ coldRunDue.netTime := by decide +kernel
  obtain ⟨t, ⟨-, hlow⟩, hshown⟩ := (hdone coldRunDue 0 [] coldRun (-4000) hc (by decide +kernel) (by decide) rfl rfl hstate hdue).both
    (calDone_shows_temp [] hc rfl rfl hstate hdue rfl)
  obtain ⟨-, -, -, -, hlow⟩ := hlow rfl
  exact absurd (hlow.symm.trans hshown) (by decide)

/-- Refutes O35: the clause of CAL_RED does not say that the quadrant is one of four. For quadrant 4 the address stands in no listed block, and the
write is refused where the statement has it answered with OK. -/
theorem not_calibrationSetCommandsComplete : ¬ Obligations.CalibrationSetCommandsComplete := by
  unfold Obligations.CalibrationSetCommandsComplete
  rintro ⟨-, -, -, -, hred, -, -⟩
  have hpass : Passes bringUp4 (.core 0) .CAL_RED [4] true := by decide +kernel
  obtain ⟨t, ⟨hok, -⟩, hrefused⟩ := (hred bringUp4 (.core 0) 4 0 rfl hpass rfl).both (calRed_four_unlisted 0 hpass)
  exact absurd (hok.symm.trans hrefused) (by decide)

/-- Refutes O36: the first clause claims the result as soon as some code has 12 bits, not only when all have. With 0 and fifteen codes of 5,000 the
command leaves the state, so the scan does not stand at the channel. -/
theorem not_housekeepingCommandsComplete : ¬ Obligations.HousekeepingCommandsComplete := by
  unfold Obligations.HousekeepingCommandsComplete
  rintro ⟨hresult, -, -⟩
  have hlive : scanning.hkaLive 0 28 = true := by decide +kernel
  obtain ⟨t, ⟨-, -, hscan, -⟩, rfl⟩ := (hresult scanning 0 28 wideCodes (by decide +kernel) (by decide) (by decide) (by decide +kernel)
    (by decide +kernel) (by decide +kernel) hlive reset_sized (by decide +kernel) (by decide +kernel) 0 (by decide) (by decide)).both
    (hkaResult_wide hlive (by decide))
  exact absurd hscan (by decide +kernel)
end

section
/-! PROOFS. Sounding and radar: estimates, DFS pulses and the DFS map (R194 to R201). -/
namespace Sys2Proof.Machine

/-! ## A receiver after an update -/

section Receiver
variable {s t : State} {l : Nat}

theorem State.phy_phyUpd (hl : l < s.bb.phys.length) (f : Phy → Phy) : (s.phyUpd l f).phy l = f (s.phy l) := by
  simp [State.phy, updAt, hl]

theorem State.phy_phyUpd_ne {k : Nat} (h : k ≠ l) (f : Phy → Phy) : (s.phyUpd k f).phy l = s.phy l := by
  simp [State.phy, updAt, h]

theorem State.phy_congr (h : t.bb = s.bb) (l : Nat) : t.phy l = s.phy l := by
  unfold State.phy
  rw [h]

/-- What an update of a receiver leaves of every receiver, it leaves in the state. -/
theorem State.phy_phyUpd_frame {α : Type} (field : Phy → α) {f : Phy → Phy} (hf : ∀ p, field (f p) = field p) (k l : Nat) :
    field ((s.phyUpd k f).phy l) = field (s.phy l) := by
  unfold State.phy
  rw [State.phyUpd_bb, updAt, List.getElem?_modify]
  cases s.bb.phys[l]? with
  | none => rfl
  | some p =>
    by_cases h : k = l
    · simpa [h] using hf p
    · simp [h]

theorem lt_phys_of_shaped (hs : s.shaped) (hl : l < 3) : l < s.bb.phys.length := by
  obtain ⟨-, -, -, -, hphys, -⟩ := hs
  rwa [hphys]

/-- A receiver that is not as at power-up is one of the part's. -/
theorem lt_phys_of_rx {x : PhyRx} (h : (s.phy l).rx = some x) : l < s.bb.phys.length := by
  refine Decidable.byContradiction fun hl => ?_
  rw [State.phy, List.getElem?_eq_none (Nat.le_of_not_lt hl)] at h
  cases h

theorem lt_three_of_phyHears (h : s.phyHears l = true) : l < 3 := by
  simp only [State.phyHears, Bool.and_eq_true, decide_eq_true_eq] at h
  obtain ⟨⟨⟨⟨hl, -⟩, -⟩, -⟩, -⟩ := h
  exact hl

end Receiver

/-! ## Estimates (R194 to R197) -/

section Sounding
variable {s : State}

@[simp] theorem length_leBytes (n v : Nat) : (leBytes n v).length = n := by
  induction n generalizing v with
  | zero => rfl
  | succ n ih => rw [leBytes, List.length_cons, ih]

/-- An estimate slot is its head of 64 bytes and the values (R195). -/
theorem length_sndBytes (stamp staField kind glog : Nat) (first : Int) (groups nsts nc exp snr paths : Nat) (values : Bytes) :
    (sndBytes stamp staField kind glog first groups nsts nc exp snr paths values).length = 64 + values.length := by
  simp only [sndBytes, List.length_append, length_leBytes, List.length_cons, List.length_nil, List.length_replicate]

/-- Four bytes for each value of each group (R195). -/
theorem length_sndGroups (n k : Nat) (tones : List (List Cx)) : (sndGroups n k tones).length = 4 * (ceilDiv tones.length n * k) := by
  simp only [sndGroups, List.length_flatten, List.map_map, Function.comp_def, length_leBytes, List.map_const', List.length_range, List.sum_replicate_nat]
  rw [← Nat.mul_assoc, Nat.mul_comm]

theorem length_foldl {α β : Type} {f : List β → α → List β} (hf : ∀ m a, (f m a).length = m.length) (xs : List α) (m : List β) :
    (xs.foldl f m).length = m.length := by
  induction xs generalizing m with
  | nil => rfl
  | cons a t ih => rw [List.foldl_cons, ih, hf]

/-- A reconstructed V has a row for each port (R197). -/
theorem length_givensV (nr nc bphi bpsi : Nat) (angles : List Nat) : (givensV nr nc bphi bpsi angles).length = nr := by
  have hturn (c t : Int) (i j : Nat) (m : List (List Cx)) : (givensTurn c t i j m).length = m.length := by simp [givensTurn]
  have hphase (c t : Int) (i : Nat) (m : List (List Cx)) : (givensPhase c t i m).length = m.length := by simp [givensPhase]
  unfold givensV
  rw [length_foldl fun m i => ?_, List.length_map, List.length_range]
  rw [length_foldl fun x j => hphase .., length_foldl fun x j => hturn ..]

/-- The bytes of V's columns, ports within each column (R197). -/
theorem length_reportValues (nr nc bphi bpsi : Nat) (angles : List (List Nat)) :
    ((angles.map (fun a =>
      let v := givensV nr nc bphi bpsi a
      ((List.range nc).map (fun c => (v.map (fun row => leBytes 4 (cxWord (cxDiv ((row[c]?).getD (0, 0)) (2 ^ 16))).toNat)).flatten)).flatten)).flatten).length
      = 4 * (angles.length * nc * nr) := by
  simp only [List.length_flatten, List.map_map, Function.comp_def, length_leBytes, List.map_const', List.length_range, List.sum_replicate_nat,
    length_givensV]
  rw [Nat.mul_comm 4, Nat.mul_assoc, Nat.mul_assoc]

/-- The descriptor of an estimate (R196). -/
def sndDescriptor (l sta kind slot : Nat) : Word := w32 (sta % 4096 * 2 ^ 19 + l * 2 ^ 17 + kind * 2 ^ 16 + slot)

/-- An estimate that fits in the least free slot is written there, and its descriptor queued (R195, R196). -/
theorem State.sndWrite_fits {l sta kind i : Nat} {b : Bytes} (hslots : s.get Fld.SND_RING_SIZE.SLOTS ≠ 0)
    (hfree : firstBelow (s.get Fld.SND_RING_SIZE.SLOTS) (fun i => !s.bb.sndUsed.contains i) = some i)
    (hfits : b.length ≤ 1024 * max 1 (s.get Fld.SND_RING_SIZE.SLOT_KIB)) (hroom : s.bb.sndQ.length < 256) :
    (s.sndWrite l sta kind b).1 = true ∧ (s.sndWrite l sta kind b).2.bb =
      { s.bb with sndUsed := i :: s.bb.sndUsed, sndQ := s.bb.sndQ ++ [sndDescriptor l sta kind i] } := by
  have hmem (a : Nat) : (s.memWrite (.engine 4 5) a b).2.bb = s.bb :=
    (State.memWrite_keep (m := 65600) s _ a b rfl (Keep.refl _ _)).part .bb rfl
  have hraise (t : State) : (t.raise (ev 4 4)).bb = t.bb := (State.raise_keep (m := 272) t _ rfl (Keep.refl _ _)).part .bb rfl
  simp only [State.sndWrite, hslots, if_false, hfree, hfits, hroom, and_self, if_true, true_and]
  split
  · rw [hraise, State.bbUpd_bb, hmem]
    rfl
  · rw [State.bbUpd_bb, hmem]
    rfl

/-- CHANNEL_ESTIMATE of a marked user that fits in the least free slot (R194 to R196). -/
theorem channelEstimate_completes {l u exp snr i : Nat} {first : Int} {tones : List (List Cx)} {x : PhyRx} {y : PhyUser} (ha : s.active 4 = true)
    (hst : 2 ≤ (s.phy l).st) (hul : s.flag Fld.SND_CFG.EN_UL = true) (hrx : (s.phy l).rx = some x) (hu : x.users[u]? = some y) (hmark : y.mark = true)
    (hslots : s.get Fld.SND_RING_SIZE.SLOTS ≠ 0)
    (hfree : firstBelow (s.get Fld.SND_RING_SIZE.SLOTS) (fun i => !s.bb.sndUsed.contains i) = some i)
    (hfits : 64 + 4 * (ceilDiv tones.length (2 ^ s.get Fld.SND_CFG.GROUP_LOG2) * (y.nss * x.paths.length)) ≤
      1024 * max 1 (s.get Fld.SND_RING_SIZE.SLOT_KIB)) (hroom : s.bb.sndQ.length < 256) :
    Completes (.channelEstimate l u first exp snr tones) s (fun t => t.bb.sndUsed = i :: s.bb.sndUsed ∧
      t.bb.sndQ = s.bb.sndQ ++ [sndDescriptor l (if x.fmt = 7 ∨ x.fmt = 9 then y.sta else 0xFFF) 0 i] ∧
      ((t.phy l).rx.bind (fun z => z.users[u]?)) = some { y with est := true }) := by
  refine completes_of_exec rfl ?_
  simp only [hrx, hu, ha, hst, hul, hmark, and_self, if_true]
  generalize hb : sndBytes x.stamp _ _ _ _ _ _ _ _ _ _ _ = b
  have hlen : b.length ≤ 1024 * max 1 (s.get Fld.SND_RING_SIZE.SLOT_KIB) := by
    rwa [← hb, length_sndBytes, length_sndGroups]
  have hsta : sndDescriptor l (if decide (x.fmt = 7 ∨ x.fmt = 9) = true then y.sta % 4096 else 0xFFF) 0 i =
      sndDescriptor l (if x.fmt = 7 ∨ x.fmt = 9 then y.sta else 0xFFF) 0 i := by
    by_cases htb : x.fmt = 7 ∨ x.fmt = 9 <;> simp [sndDescriptor, htb]
  obtain ⟨hok, hbb⟩ := State.sndWrite_fits (l := l) (sta := if decide (x.fmt = 7 ∨ x.fmt = 9) = true then y.sta % 4096 else 0xFFF) (kind := 0)
    hslots hfree hlen hroom
  rw [hsta] at hbb
  rw [if_pos hok, State.phy_phyUpd (by rw [hbb]; exact lt_phys_of_rx hrx), State.phyUpd_bb, hbb]
  refine ⟨rfl, rfl, ?_⟩
  simp [PhyRx.user, updAt, hu, hmark]

/-- BEAMFORMING_REPORT that fits in the least free slot (R196, R197). -/
theorem beamformingReport_completes {l sta stamp glog nr nc bphi bpsi snr i : Nat} {first : Int} {angles : List (List Nat)} (hl : l < 3)
    (ha : s.active 4 = true) (hslots : s.get Fld.SND_RING_SIZE.SLOTS ≠ 0)
    (hfree : firstBelow (s.get Fld.SND_RING_SIZE.SLOTS) (fun i => !s.bb.sndUsed.contains i) = some i)
    (hfits : 64 + 4 * (angles.length * nc * nr) ≤ 1024 * max 1 (s.get Fld.SND_RING_SIZE.SLOT_KIB)) (hroom : s.bb.sndQ.length < 256) :
    Completes (.beamformingReport l sta stamp first glog nr nc bphi bpsi snr angles) s (fun t => t.bb.sndUsed = i :: s.bb.sndUsed ∧
      t.bb.sndQ = s.bb.sndQ ++ [sndDescriptor l sta 1 i]) := by
  refine completes_of_exec rfl ?_
  rw [if_pos ⟨hl, ha⟩]
  obtain ⟨-, hbb⟩ := State.sndWrite_fits (l := l) (sta := sta) (kind := 1) (b := sndBytes stamp (sta % 4096 + l * 4096) 1 glog first angles.length nr nc 0 snr 0 _)
    hslots hfree (by rwa [length_sndBytes, length_reportValues nr nc bphi bpsi angles]) hroom
  dsimp only
  rw [hbb]
  exact ⟨rfl, rfl⟩

end Sounding

/-! ## Pops and releases (R196, R198) -/

theorem placed_SND_EST_POP : Reg.placed .SND_EST_POP [] := by decide +kernel
theorem placed_SND_SLOT_FREE : Reg.placed .SND_SLOT_FREE [] := by decide +kernel
theorem placed_PHY_DFS_POP : ∀ l < 3, Reg.placed .PHY_DFS_POP [l] := by decide +kernel
theorem placed_PHY_DFS_CTL : ∀ l < 3, Reg.placed .PHY_DFS_CTL [l] := by decide +kernel

section Pop
variable {s : State} {rq : Req}

/-- A read that passes the judgement of its register is performed and answered with OK. -/
theorem Reg.placed.readReg {r : Reg} {ix : List Nat} {ok : Reg → List Nat → Req → State → Bool} {rd : Reg → List Nat → Req → State → Word × State}
    (hp : r.placed ix) (h : Passes s rq r ix false) (hok : ok r ix rq s = true) :
    readReg rq (r.addr ix) 4 ok rd s = (rd r ix rq s).2.answer rq (rd r ix rq s).1 := by
  obtain ⟨hfind, halign, -, hlisted⟩ := hp
  exact readReg_passes h hfind halign hlisted hok

/-- SND_EST_POP with a descriptor queued answers the oldest and removes it (R196). -/
theorem sndEstPop_completes {w : Word} {rest : List Word} (hP : Passes s rq .SND_EST_POP [] false) (hq : s.bb.sndQ = w :: rest) :
    Completes (.sndEstPop rq) s (fun t => t.answered rq w ∧ t.bb.sndQ = rest) := by
  refine completes_of_exec rfl ?_
  rw [placed_SND_EST_POP.readReg hP rfl]
  simp only [rdPhy, hq]
  exact ⟨rfl, rfl⟩

/-- A write of SND_SLOT_FREE releases its slot (R196). -/
theorem sndSlotFree_completes {v : Word} (hP : Passes s rq .SND_SLOT_FREE [] true) :
    Completes (.sndSlotFree rq v) s (fun t => t.answered rq 0 ∧ t.bb.sndUsed = s.bb.sndUsed.filter (fun i => i != wbits v 9 0)) := by
  refine completes_of_exec rfl ?_
  rw [placed_SND_SLOT_FREE.writeReg hP rfl rfl]
  exact ⟨rfl, rfl⟩

/-- PHY_DFS_POP with a pulse queued answers the oldest, removes it and shows its stamp (R198). -/
theorem phyDfsPop_completes {l : Nat} {e : Word × Nat} {rest : List (Word × Nat)} (hc : s.canonical = true) (hs : s.shaped) (hl : l < 3)
    (hP : Passes s rq .PHY_DFS_POP [l] false) (hq : (s.phy l).dfsQ = e :: rest) :
    Completes (.phyDfsPop rq l) s (fun t => t.answered rq e.1 ∧ (t.phy l).dfsQ = rest ∧ t.reg .PHY_DFS_STAMP [l] = w32 e.2) := by
  have hpop := State.phy_phyUpd (lt_phys_of_shaped hs hl) (fun p => { p with dfsQ := rest })
  refine completes_of_exec rfl ?_
  rw [(placed_PHY_DFS_POP l hl).readReg hP rfl]
  simp only [rdPhy, hq]
  exact ⟨rfl, congrArg Phy.dfsQ hpop, reg_setReg_same (s := s.phyUpd l _) hc _ _ _ _⟩

end Pop

/-! ## The DFS map (R199 to R201) -/

section Map
variable {s t : State} {l i : Nat}

theorem State.dfsState_congr (h : t.reg .PHY_DFS_MAP [l] = s.reg .PHY_DFS_MAP [l]) (i : Nat) : t.dfsState l i = s.dfsState l i := by
  unfold State.dfsState
  rw [h]

/-- A channel's state after that of a channel is written. -/
theorem State.dfsState_setDfs (hc : s.canonical = true) {j v : Nat} (hj : j < 16) (hv : v < 4) :
    (s.setDfs l j v).dfsState l i = if i = j then v else s.dfsState l i := by
  unfold State.dfsState State.setDfs
  rw [reg_setReg_same hc]
  split
  next h =>
    subst h
    rw [wbits_wset _ _ _ _ (by omega) (by omega)]
    exact Nat.mod_eq_of_lt (by rwa [show 2 * i + 1 + 1 - 2 * i = 2 by omega])
  next h => exact wbits_wset_ne _ _ _ _ _ _ (by omega) (by omega) (by omega)

theorem State.setDfs_canonical (hc : s.canonical = true) (l i v : Nat) : (s.setDfs l i v).canonical = true :=
  (State.setDfs_keep (m := 32) s l i v rfl (Keep.refl _ _)).canonical hc

/-- CAC_EXPIRY of a channel whose CAC_S has passed (R200). -/
theorem cacExpiry_completes (hc : s.canonical = true) (hl : l < 3) (hi : i < 16) (ha : s.active 4 = true) (hcac : s.dfsState l i = 1)
    (hdue : (((s.phy l).cacAt[i]?).getD 0) + s.get Fld.PHY_DFS_CFG.CAC_S [l] * 10000000000 ≤ s.now) :
    Completes (.cacExpiry l i) s (fun t => t.dfsState l i = 2) := by
  refine completes_of_exec rfl ?_
  rw [if_pos ⟨hl, hi, ha, hcac, hdue⟩, State.dfsState_setDfs hc hi (by decide), if_pos rfl]

/-- NOP_EXPIRY of a channel whose NOP has passed (R200). -/
theorem nopExpiry_completes (hc : s.canonical = true) (hl : l < 3) (hi : i < 16) (ha : s.active 4 = true) (hnop : s.dfsState l i = 3)
    (hdue : (((s.phy l).nopEnds[i]?).getD 0) ≤ s.now) : Completes (.nopExpiry l i) s (fun t => t.dfsState l i = 0) := by
  refine completes_of_exec rfl ?_
  rw [if_pos ⟨hl, hi, ha, hnop, hdue⟩, State.dfsState_setDfs hc hi (by decide), if_pos rfl]

/-! ### CAC_START (R200) -/

/-- Channel `j` of link `l` may begin its CAC: it is UNCHECKED, the carrier covers it and the link monitors. -/
abbrev State.cacMayStart (s : State) (l j : Nat) : Prop :=
  s.dfsState l j = 0 ∧ s.dfsCovers l j = true ∧ s.flag Fld.PHY_DFS_CFG.EN [l] = true

/-- CAC_START on one channel. -/
def State.cacBegin (l : Nat) (s : State) (j : Nat) : State :=
  if s.cacMayStart l j then (s.setDfs l j 1).phyUpd l (fun p => { p with cacAt := p.cacAt.set j s.now }) else s

/-- A CAC that begins changes the map of its link alone: the plan and the link's configuration stand. -/
theorem State.cacBegin_frame (hc : s.canonical = true) (l j : Nat) :
    (s.cacBegin l j).canonical = true ∧ (∀ i, (s.cacBegin l j).dfsCovers l i = s.dfsCovers l i) ∧
      (s.cacBegin l j).flag Fld.PHY_DFS_CFG.EN [l] = s.flag Fld.PHY_DFS_CFG.EN [l] := by
  unfold State.cacBegin
  split
  · refine ⟨State.setDfs_canonical hc l j 1, fun _ => rfl, ?_⟩
    exact congrArg (· != 0) (State.get_congr_reg (f := Fld.PHY_DFS_CFG.EN) (State.setReg_reg_other _ _ _ _ _ (by decide) _))
  · exact ⟨hc, fun _ => rfl, rfl⟩

/-- The channel's state after a CAC that begins, on it or on another. -/
theorem State.dfsState_cacBegin (hc : s.canonical = true) {j : Nat} (hj : j < 16) :
    (s.cacBegin l j).dfsState l i = if i = j ∧ s.cacMayStart l j then 1 else s.dfsState l i := by
  unfold State.cacBegin
  by_cases h : s.cacMayStart l j
  · rw [if_pos h, State.dfsState_congr (s := s.setDfs l j 1) (by rfl), State.dfsState_setDfs hc hj (by decide)]
    simp only [and_iff_left h]
  · rw [if_neg h, if_neg fun k => h k.2]

/-- CAC_START on a list of channels: one that may start, and is named, is in CAC after it, and one in CAC stays there. -/
theorem State.foldl_cacBegin (hc : s.canonical = true) (hcov : s.dfsCovers l i = true) (hen : s.flag Fld.PHY_DFS_CFG.EN [l] = true) {js : List Nat}
    (hjs : ∀ j ∈ js, j < 16) (h : s.dfsState l i = 1 ∨ (s.dfsState l i = 0 ∧ i ∈ js)) : (js.foldl (State.cacBegin l) s).dfsState l i = 1 := by
  induction js generalizing s with
  | nil => simpa using h
  | cons j t ih =>
    obtain ⟨hc', hcov', hen'⟩ := State.cacBegin_frame hc l j
    have hstep : (s.cacBegin l j).dfsState l i = if i = j ∧ s.cacMayStart l j then 1 else s.dfsState l i :=
      State.dfsState_cacBegin hc (hjs j List.mem_cons_self)
    refine ih hc' ((hcov' i).trans hcov) (hen'.trans hen) (fun k hk => hjs k (List.mem_cons_of_mem _ hk)) ?_
    rw [hstep]
    rcases h with h | ⟨h, hmem⟩
    · refine Or.inl ?_
      split
      · rfl
      · exact h
    · by_cases hij : i = j
      · subst hij
        exact Or.inl (if_pos ⟨rfl, h, hcov, hen⟩)
      · rw [if_neg fun k => hij k.1]
        exact Or.inr ⟨h, (List.mem_cons.mp hmem).resolve_left hij⟩

theorem mem_maskList {m n : Nat} : i ∈ maskList m n ↔ i < n ∧ bitOf m i = true := by
  rw [maskList, List.mem_filter, List.mem_range]

/-- CAC_START that names an UNCHECKED channel of the carrier (R200). -/
theorem cacStart_completes {rq : Req} {v : Word} (hc : s.canonical = true) (hl : l < 3) (hi : i < 16) (hP : Passes s rq .PHY_DFS_CTL [l] true)
    (hbit : bitOf (wbits v 15 0) i = true) (hst : s.dfsState l i = 0) (hcov : s.dfsCovers l i = true) (hen : s.flag Fld.PHY_DFS_CFG.EN [l] = true) :
    Completes (.cacStart rq l v) s (fun t => t.answered rq 0 ∧ t.dfsState l i = 1) := by
  have hop : okPhy .PHY_DFS_CTL [l] (wset v 31 28 1) rq s = true := by
    simp [okPhy, wbits_wset v 31 28 1 (by decide) (by decide)]
  have hmask : wbits (wset v 31 28 1) 15 0 = wbits v 15 0 := wbits_wset_ne _ _ _ _ _ _ (by decide) (by decide) (by decide)
  have hwr : wrPhy .PHY_DFS_CTL [l] (wset v 31 28 1) rq s = (maskList (wbits (wset v 31 28 1) 15 0) 16).foldl (State.cacBegin l) s := rfl
  refine completes_of_exec rfl ?_
  rw [(placed_PHY_DFS_CTL l hl).writeReg hP rfl hop, hwr, hmask]
  exact ⟨rfl, State.foldl_cacBegin hc hcov hen (fun j hj => (mem_maskList.mp hj).1) (Or.inr ⟨hst, mem_maskList.mpr ⟨hi, hbit⟩⟩)⟩

/-! ### The saved map (R201) -/

/-- Link `l`'s map as MRAM takes it. -/
def State.saveMap (s : State) (l : Nat) : State :=
  s.phyUpd l (fun p => { p with savedMap := (List.range 16).map (s.dfsState l), savedNop := p.nopEnds.map (· - s.now) })

theorem State.savedMap_saveMap (hl : l < s.bb.phys.length) : ((s.saveMap l).phy l).savedMap = (List.range 16).map (s.dfsState l) :=
  congrArg Phy.savedMap (State.phy_phyUpd hl _)

theorem State.savedMap_saveMap_ne {k : Nat} (h : k ≠ l) : ((s.saveMap k).phy l).savedMap = (s.phy l).savedMap :=
  congrArg Phy.savedMap (State.phy_phyUpd_ne h _)

theorem State.length_phys_saveMap (k : Nat) : (s.saveMap k).bb.phys.length = s.bb.phys.length := List.length_modify ..

/-- A save of several links' maps leaves each of them as saved. -/
theorem State.savedMap_foldl_saveMap {ls : List Nat} (hlen : l < s.bb.phys.length)
    (h : l ∈ ls ∨ (s.phy l).savedMap = (List.range 16).map (s.dfsState l)) :
    ((ls.foldl State.saveMap s).phy l).savedMap = (List.range 16).map (s.dfsState l) := by
  induction ls generalizing s with
  | nil => simpa using h
  | cons k t ih =>
    refine ih (s := s.saveMap k) (by rwa [State.length_phys_saveMap]) ?_
    by_cases hk : k = l
    · subst hk
      exact Or.inr (State.savedMap_saveMap hlen)
    · rw [State.savedMap_saveMap_ne hk]
      exact h.imp_left fun hm => (List.mem_cons.mp hm).resolve_left (Ne.symm hk)

/-- DFS_MAP_SAVE a minute after the last one, in Service or Fenced (R201). -/
theorem dfsMapSave_completes (hs : s.shaped) (hl : l < 3) (ha : s.active 4 = true) (hserve : s.serving = true) (hrun : s.running 4 = true)
    (hdue : s.bb.dfsSavedAt + 60000000000 ≤ s.now) :
    Completes .dfsMapSave s (fun t => (t.phy l).savedMap = (List.range 16).map (s.dfsState l) ∧ t.bb.dfsSavedAt = s.now) := by
  have hsave : s.dfsSave = ((List.range 3).foldl State.saveMap s).bbUpd (fun b => { b with dfsSavedAt := s.now, dfsTicks := s.slpTicks }) := by
    unfold State.dfsSave
    rw [if_neg (not_not_intro ⟨hserve, hrun⟩)]
    rfl
  refine completes_of_exec rfl ?_
  rw [if_pos ⟨ha, hdue⟩, hsave]
  exact ⟨State.savedMap_foldl_saveMap (lt_phys_of_shaped hs hl) (Or.inl (List.mem_range.mpr hl)), rfl⟩

/-! ### Radar pulses (R198, R199) -/

theorem lt_of_dfsIndex {khz : Nat} (h : dfsIndex khz = some i) : i < 16 := List.mem_range.mp (List.mem_of_find?_eq_some h)

/-- A match depends on the registers alone. -/
theorem State.dfsMatch_congr (h : t.regs = s.regs) (l : Nat) (ps : List DfsPulse) : t.dfsMatch l ps = s.dfsMatch l ps := by
  simp only [State.dfsMatch, State.flag, get_congr h]

/-- A match makes the channel UNAVAILABLE and leaves the queue of pulses (R199). -/
theorem State.dfsHit_leaves (hc : s.canonical = true) (hi : i < 16) (pat : Nat) :
    (s.dfsHit l i pat).dfsState l i = 3 ∧ ((s.dfsHit l i pat).phy l).dfsQ = (s.phy l).dfsQ := by
  unfold State.dfsHit
  dsimp only
  generalize hu : State.phyUpd _ l _ = u
  have hashed (d : Bytes) : Keep 784 u ((u.raise (ev 4 3)).ashAdd 0x0D (32 * 4 + l + 1) d) :=
    State.ashAdd_keep _ _ _ _ rfl (State.raise_keep _ _ rfl (Keep.refl _ _))
  constructor
  · rw [State.dfsState_congr (reg_congr ((hashed _).part .regs rfl) _ _ _), ← hu, State.dfsState_congr (s := s.setDfs l i 3) (by rfl),
      State.dfsState_setDfs hc hi (by decide), if_pos rfl]
  · rw [State.phy_congr ((hashed _).part .bb rfl), ← hu]
    exact State.phy_phyUpd_frame Phy.dfsQ (fun _ => by rfl) l l

/-- A pulse report: the word and the stamp that the queue takes (R198). -/
def State.dfsReport (s : State) (i : Nat) (dbm : Int) (width age : Nat) (chirp : Bool) : Word × Nat :=
  (w32 (i * 2 ^ 26 + b2n chirp * 2 ^ 20 + unsigned 8 dbm * 2 ^ 12 + width % 4096), ((s.netTime - age) % 2 ^ 32).toNat)

/-- The pulses of a subchannel of link `l`, newest first, with one that is declared now. -/
def State.dfsPulses (s : State) (l sub width age : Nat) (chirp : Bool) : List DfsPulse :=
  ⟨sub, s.now - age, width, chirp⟩ :: ((s.phy l).pulses.filter (fun e => e.sub == sub)).take 62

/-- RADAR_PULSE on a DFS subchannel, with room in the queue (R198, R199). -/
theorem radarPulse_completes {sub width age : Nat} {dbm : Int} {chirp : Bool} (hc : s.canonical = true) (hs : s.shaped) (hhears : s.phyHears l = true)
    (hidx : dfsIndex (s.subKhz l sub) = some i) (hsub : sub < 2 ^ linkBw s.linkPlan l) (hen : s.flag Fld.PHY_DFS_CFG.EN [l] = true)
    (hthr : signed 8 (s.get Fld.PHY_DFS_CFG.THR [l]) ≤ dbm) (hroom : (s.phy l).dfsQ.length < 256) :
    Completes (.radarPulse l sub dbm width age chirp) s (fun t => (t.phy l).dfsQ = (s.phy l).dfsQ ++ [s.dfsReport i dbm width age chirp] ∧
      ((s.dfsMatch l (s.dfsPulses l sub width age chirp)).isSome = true → t.dfsState l i = 3)) := by
  refine completes_of_exec rfl ?_
  simp only [hidx, hhears, hsub, hen, hthr, hroom, and_self, if_true]
  generalize hu : State.phyUpd (State.phyUpd s l _) l _ = u
  have hlen : l < s.bb.phys.length := lt_phys_of_shaped hs (lt_three_of_phyHears hhears)
  have hregs : u.regs = s.regs := by rw [← hu]; rfl
  have hcu : u.canonical = true := by rw [← hu]; exact hc
  have hq : (u.phy l).dfsQ = (s.phy l).dfsQ ++ [s.dfsReport i dbm width age chirp] := by
    rw [← hu, State.phy_phyUpd_frame Phy.dfsQ (fun _ => by rfl), State.phy_phyUpd hlen]
    rfl
  have hmatch : u.dfsMatch l (⟨sub, s.now - age, width, chirp⟩ :: ((s.phy l).pulses.filter (fun e => e.sub == sub)).take 62) =
    s.dfsMatch l (s.dfsPulses l sub width age chirp) := State.dfsMatch_congr hregs l _
  rw [hmatch]
  cases s.dfsMatch l (s.dfsPulses l sub width age chirp) with
  | none => exact ⟨hq, fun h => nomatch h⟩
  | some n =>
    obtain ⟨hstate, hkept⟩ := State.dfsHit_leaves (l := l) hcu (lt_of_dfsIndex hidx) n
    exact ⟨hkept.trans hq, fun _ => hstate⟩

end Map
end Sys2Proof.Machine
end

section
open Sys2Proof Sys2Proof.Machine

/-- Settles O38, clause by clause: estimates and reports with their pops and slots, radar pulses, the four changes of the map, and the pop of pulses. -/
theorem soundingAndRadarCommandsComplete : Obligations.SoundingAndRadarCommandsComplete := by
  unfold Obligations.SoundingAndRadarCommandsComplete
  refine ⟨?_, ?_, ?_, ?_, ?_, ?_, ?_, ?_, ?_, ?_⟩
  · intro s l u first exp snr tones x y i _ ha hst hul hrx hu hmark hslots hfree hfits hroom
    exact channelEstimate_completes ha hst hul hrx hu hmark hslots hfree hfits hroom
  · intro s rq w rest hP hq
    exact sndEstPop_completes hP hq
  · intro s rq v hP
    exact sndSlotFree_completes hP
  · intro s l sta stamp first glog nr nc bphi bpsi snr angles i hl ha hslots hfree hfits hroom
    exact beamformingReport_completes hl ha hslots hfree hfits hroom
  · intro s l sub dbm width age chirp i hc hs hhears hidx hsub hen hthr hroom
    exact radarPulse_completes hc hs hhears hidx hsub hen hthr hroom
  · intro s rq l i v hc hl hi hP hbit hst hcov hen
    exact cacStart_completes hc hl hi hP hbit hst hcov hen
  · intro s l i hc hl hi ha hcac hdue
    exact cacExpiry_completes hc hl hi ha hcac hdue
  · intro s l i hc hl hi ha hnop hdue
    exact nopExpiry_completes hc hl hi ha hnop hdue
  · intro s l hs hl ha hserve hrun hdue
    exact dfsMapSave_completes hs hl ha hserve hrun hdue
  · intro s rq l e rest hc hs hl hP hq
    exact phyDfsPop_completes hc hs hl hP hq
end

section
/-! PROOFS. Clear channel assessment on a carrier wider than R42 knows (R189, R190): what CCA_STUCK shows there. -/
namespace Sys2Proof.Machine

variable {s : State} {l : Nat}

/-- CCA_STUCK that finds its time run shows the PRIM_BUSY that the assessment of the instant gives (R190): it writes STUCK alone. -/
theorem ccaStuck_shows_assessment {b : Nat} (hcu : (s.phyDo l id).canonical = true) (hl : l < 3) (ha : (s.phyDo l id).active 4 = true)
    (hlim : (s.phyDo l id).get Fld.PHY_CCA_CFG.CCA_STUCK [l] ≠ 0) (hbusy : ((s.phyDo l id).phy l).busyFrom = some b)
    (hdue : b + (s.phyDo l id).get Fld.PHY_CCA_CFG.CCA_STUCK [l] * 10000000 ≤ (s.phyDo l id).now)
    (hstuck : (s.phyDo l id).flag Fld.PHY_CCA_STAT.STUCK [l] = false) :
    Completes (.ccaStuck l) s (fun t => t.get Fld.PHY_CCA_STAT.PRIM_BUSY [l] = (s.phyDo l id).get Fld.PHY_CCA_STAT.PRIM_BUSY [l]) := by
  refine completes_of_exec rfl ?_
  simp only [hbusy, hl, ha, hlim, hdue, hstuck, ne_eq, not_false_eq_true, Bool.false_eq_true, and_self, if_true]
  rw [get_congr (State.raise_regs _ _)]
  exact get_set_field hcu _ _ _ _ _ rfl (by decide) (by decide) (by decide)

/-- Link 0 of 32 subchannels (BW 5; R42 ends at 4), with energy on its primary, 0, and on subchannel 31, busy since time 0 and for as long as the
reset value of CCA_STUCK. -/
def wideLink : State :=
  { bringUp4 with
    now := 100000000
    plan := { bringUp4.plan with recs := [⟨8, 0x10, [1, 0, 5]⟩] }
    pwr := { bringUp4.pwr with powered := [4] }
    bb := { Bb.reset with phys := { Phy.reset with ed := 2 ^ 31 + 1, busyFrom := some 0 } :: List.replicate 2 Phy.reset } }

end Sys2Proof.Machine
end

section
open Sys2Proof Sys2Proof.Machine

/-- Refutes O37: the clause of CCA_STUCK does not say that the link's bandwidth is one of R42. On 32 subchannels the busy subchannel 31 falls on bit
31 of PHY_CCA_STAT, carries out of the word, and PRIM_BUSY shows 0 for a primary that is busy. -/
theorem not_receiverCommandsComplete : ¬ Obligations.ReceiverCommandsComplete := by
  unfold Obligations.ReceiverCommandsComplete
  rintro ⟨-, -, -, -, -, -, -, -, -, -, -, hstuck, -⟩
  have hactive : wideLink.active 4 = true := by decide +kernel
  have hbusy : ((wideLink.phyDo 0 id).phy 0).busyFrom = some 0 := by decide +kernel
  have hclear : (wideLink.phyDo 0 id).flag Fld.PHY_CCA_STAT.STUCK [0] = false := by decide +kernel
  obtain ⟨t, ⟨-, hprim⟩, hshown⟩ := (hstuck wideLink 0 0 (by decide +kernel) (by decide +kernel) (by decide) hactive (by decide +kernel) hbusy
    (by decide +kernel) hclear).both (ccaStuck_shows_assessment (by decide +kernel) (by decide) (by decide +kernel) (by decide +kernel) hbusy
    (by decide +kernel) hclear)
  have hzero : (wideLink.phyDo 0 id).get Fld.PHY_CCA_STAT.PRIM_BUSY [0] = 0 := by decide +kernel
  exact absurd (hprim.symm.trans (hshown.trans hzero)) (by decide)
end
